-- ==== Sys2Proof/Word.lean ====
section
/-! DEFINITION. The word types of the M512 model: bytes, byte strings and register words (R6). -/
namespace Sys2Proof

/-- One byte. -/
abbrev Byte := BitVec 8

/-- A byte string, the byte of the lowest address first. -/
abbrev Bytes := List (BitVec 8)

/-- A BAR0 register word: 32 bits, bit 0 the least significant (R6). -/
abbrev Word := BitVec 32

end Sys2Proof
end

