-- ==== Sys2Proof/Machine/Sparse.lean ====
section
/-! DEFINITION. Sparse maps from numbers. smSet, smPut and smErase keep the canonical form: keys
strictly rising, and, for smSet, no entry equal to what an unlisted key reads as. -/
namespace Sys2Proof.Machine

/-- A sparse map: pairs of key and value. -/
abbrev SMap (β : Type) := List (Nat × β)

/-- The value listed for a key. -/
def smFind {β : Type} : SMap β → Nat → Option β
  | [], _ => none
  | (a, b) :: t, k => if a = k then some b else smFind t k

/-- The value of a key, `d k` where none is listed. -/
def smGet {β : Type} (d : Nat → β) (m : SMap β) (k : Nat) : β := (smFind m k).getD (d k)

/-- The map with a key listed. -/
def smPut {β : Type} : SMap β → Nat → β → SMap β
  | [], k, v => [(k, v)]
  | (a, b) :: t, k, v => if k < a then (k, v) :: (a, b) :: t else if k = a then (k, v) :: t else (a, b) :: smPut t k v

/-- The map with a key not listed. -/
def smErase {β : Type} (m : SMap β) (k : Nat) : SMap β := m.filter (fun e => decide (e.1 ≠ k))

/-- The map with a key set: a value equal to the unlisted one removes the entry. -/
def smSet {β : Type} [DecidableEq β] (d : Nat → β) (m : SMap β) (k : Nat) (v : β) : SMap β :=
  if v = d k then smErase m k else smPut m k v

/-- The canonical form. -/
abbrev smWf {β : Type} (d : Nat → β) (m : SMap β) : Prop :=
  (m.map Prod.fst).Pairwise (· < ·) ∧ ∀ e ∈ m, e.2 ≠ d e.1

/-- Keys listed, rising. -/
def smKeys {β : Type} (m : SMap β) : List Nat := m.map Prod.fst

end Sys2Proof.Machine
end

