-- ==== Sys2Proof/Machine/Types.lean ====
section
/-! DEFINITION. The state records of the M512, chapter by chapter: plain data, each field with the rule that names it. -/
namespace Sys2Proof.Machine
open Sys2Proof

/-! ### Time island (R450 to R464) -/

/-- A slew in progress (R454): per-tick part `q`, remainder `r`, tick number `k` of `n`. -/
structure Slew where
  q : Int
  r : Int
  k : Nat
  n : Nat
  deriving DecidableEq, Repr

/-- A scheduled action (R457). -/
inductive PendAct where
  | sact (n : Nat)
  | bath (n : Nat)
  | fix
  | gate (port : Nat)
  | reset
  deriving DecidableEq, Repr

/-- State of the time island. -/
structure TimeSt where
  acc : Nat               -- 120-bit accumulator, 2^-40 ns (R450)
  mt : Nat                -- monotonic time, 2^-40 ns (R16)
  slew : Option Slew
  incr : Nat              -- TIM_INCR in force, 2^-40 ns per tick (R450)
  incrNext : Option Nat   -- TIM_INCR write taking effect at the next tick (R451)
  setNext : Option Nat    -- SET taking effect at the next tick (R453)
  stepNext : Option Int   -- STEP taking effect at the next tick (R453)
  late : List PendAct     -- pending actions whose time a STEP has passed (R458)
  refSrc : Bool           -- TIME.REF_SRC (R452)
  ppsOut : Bool           -- level of the PPS output (R464)
  ppsWidth : Nat          -- TIME.PPS_WIDTH, ms
  ppsInAt : Option Nat    -- MT of the last PPS input edge taken, ns
  deriving DecidableEq, Repr

/-! ### Supplies, log and flash (R544 to R562) -/

/-- One event-log entry (R555). -/
structure LogEntry where
  seq : Nat
  time : Nat
  source : Nat
  severity : Nat
  code : Nat
  inst : Nat
  flags : Nat
  data : Nat
  deriving DecidableEq, Repr

/-- Supplies and the global condition of the device (R36, R38, R546). -/
structure Power where
  vsb : Bool              -- VSB present
  vin : Bool              -- VIN qualified: rails on, device started
  aon : Bool              -- always-on domain running
  offHeld : Bool          -- rails off after a trip OFF or VIN loss until VIN returns (R546, R584)
  idleAll : Bool          -- every transmitter held at idle (R38, R59)
  firstEntry : Bool       -- the next log entry is the first after a start
  aonFault : Bool         -- the Safelight partition is faulted (R587)
  bar0Gated : Bool        -- BAR0 reads 0 outside GLB until PLATE_LOADED (R513)
  loadDue : Bool          -- the load of R61 has not run since the start
  fresh : Bool            -- no start yet since VSB rose
  unrec : Bool            -- an unrecoverable fault has been detected since the start (R38)
  deriving DecidableEq, Repr

/-- A flash slot: state 0 EMPTY, 1 VALID, 2 BOOT, and the image. -/
structure Slot where
  state : Nat
  image : Bytes
  deriving DecidableEq, Repr

/-- The in-package flash and the always-on metadata (R544, R558). -/
structure Flash where
  plateA : Slot
  plateB : Slot
  goodA : Bool
  goodB : Bool
  fwA : Slot
  fwB : Slot
  patchA : Slot
  patchB : Slot
  polA : Slot
  polB : Slot
  plateFloor : Nat
  patchFloor : Nat
  fwFloor : Nat
  polFloor : Nat
  ownerDigest : Bytes
  deriving DecidableEq, Repr

/-- A flash write in progress (R57, R560). -/
structure FlashWrite where
  kind : Nat              -- 0 Plate slot, 1 firmware, 2 patch, 3 policy
  slot : Nat
  image : Bytes
  oob : Option (Nat × Nat) -- commanded from this management port with this TAG (R552)
  deriving DecidableEq, Repr

/-- The management subsystem's state beyond its registers (R547 to R557). -/
structure MgtSt where
  logBuf : List LogEntry  -- not yet in flash, oldest first (R557)
  logFlash : List LogEntry
  nextSeq : Nat
  fwRun : Option Nat      -- firmware slot started
  patchRun : Option Nat   -- patch slot applied at the last load
  oobReplies : List (Nat × Bytes) -- management port, reply datagram (R552)
  parkWait : List Nat     -- slices whose wake was requested (R565)
  bankWake : List Nat     -- banks whose wake was requested
  mpConf : Bytes          -- MANAGEMENT section in force (R568)
  rangeSeen : SMap Bool   -- sensors sampled since the last read of MGT_SNS_RANGE (R554)
  hiArmed : SMap Bool     -- sensors whose HI threshold awaits re-arming (true: fired)
  loArmed : SMap Bool
  flashWrite : Option FlashWrite
  deriving DecidableEq, Repr

/-- The Safelight partition beyond its registers (R572 to R587). -/
structure SafeSt where
  body : SMap Byte        -- policy body in force, by body offset
  cpTokens : SMap Nat     -- tokens of CP r used, in packets × 10^9 × 2^40 (0: full)
  cpTime : SMap Nat       -- MT of the last update
  throttleRun : Nat       -- consecutive samples at THROTTLE (J, P)
  throttlePRun : Nat
  holdRun : Nat
  holdPRun : Nat
  offRun : Nat
  quietRun : Nat
  freeze : SMap Nat       -- failing ends of the window, by cluster
  deniedArmed : Bool      -- the capture may take an attempt (R579)
  deriving DecidableEq, Repr
/-! ### Plate and stop-bath (R47 to R74) -/

/-- Plate state beyond its registers. -/
structure PlateSt where
  cur : Option Bytes      -- current Plate
  pend : Option Bytes     -- pending Plate (R63)
  mixed : List (Nat × Nat) -- unit instances that run a pending section (R69)
  bathLate : List Nat     -- stop-bath entries accepted with LATE (R73)
  gangGroups : List Nat   -- lane groups in gang mode (R77)
  slotWrite : Option (Bool × Bytes) -- WRITE_SLOT in progress: slot and image (R57)
  deriving DecidableEq, Repr

/-! ### Recovery (R590 to R608) -/

/-- A recovery domain that is not running normally: state 0 waiting for a stop-bath of its unit, 1 waiting under MANUAL, 2
recovering, 3 held stopped. `detail`: what the fault names beyond its instance. -/
structure RecDom where
  kind : Nat
  inst : Nat
  cause : Nat
  state : Nat
  start : Nat             -- MT of the start, ns
  detail : List Nat
  deriving DecidableEq, Repr


/-! ### Lanes (R75 to R103) -/

/-- One received or transmitted staircase set as 8b/10b code-groups (R83): whether both control code-groups are
correct, whether code-groups 1 to 14 are valid data, and the 14 data bytes (TYPE, PAYLOAD, CRC-8). -/
structure SetGroups where
  ctrlOk : Bool
  dataOk : Bool
  grp : Bytes
  deriving DecidableEq, Repr

/-- A lane's state beyond its registers. -/
structure LaneSt where
  capIn : Bool            -- the partner's CAP accepted (R86)
  capAcked : Bool         -- own CAP acknowledged
  ownStep : Option Nat    -- step of the own STEP request
  ownStepAcked : Bool
  partStep : Option Nat   -- step of the partner's STEP request, as executed (R86)
  switchTo : Option Nat   -- STEP exchange complete: step to switch to (R88)
  qualOwn : Option Bool
  qualPart : Option Bool
  passed : Nat            -- steps passed: 0 none, n + 1 for Sn
  holdSent : Bool
  holdIn : Option Nat     -- step of the partner's HOLD (R87)
  upSent : Bool
  upIn : Bool
  acks : List (Nat × Nat) -- ACK sets due: TYPE and SEQ
  abortOut : Option Nat   -- ABORT being sent for 10 µs: REASON (R89)
  seqs : SMap Nat         -- SEQ by TYPE (R83)
  contents : SMap Bytes   -- last content by TYPE, without SEQ
  lastTx : Option (Nat × Bytes) -- last set transmitted: TYPE and payload
  maxStep : Nat           -- MAXSTEP in force since the last S0
  targetCap : Option Nat  -- target capped at the step siblings have reached (R87)
  backNext : Nat          -- index of the next back-off period (R90)
  groupBack : Bool        -- in the 16 s back-off of a port that gave up (R108)
  idleFrozen : Bool       -- idle-run freeze (R81)
  rxPreset : Nat          -- Plate receiver preset (R103)
  rxAdaptRuns : Nat       -- times adaptation restarted from the preset (R82)
  ffePreset : Nat         -- Plate taps
  waking : Bool           -- leaving dim (R100)
  rise : Bool             -- signal has risen since the port gave up (R108)
  deriving DecidableEq, Repr

/-- A lane's state at first use. (log entry 111 DESIGN CHOICE.) -/
def LaneSt.init : LaneSt :=
  { capIn := false, capAcked := false, ownStep := none, ownStepAcked := false, partStep := none, switchTo := none
    qualOwn := none, qualPart := none, passed := 0, holdSent := false, holdIn := none, upSent := false, upIn := false
    acks := [], abortOut := none, seqs := [], contents := [], lastTx := none, maxStep := 3, targetCap := none, backNext := 0
    groupBack := false, idleFrozen := false, rxPreset := 3, rxAdaptRuns := 0, ffePreset := 0, waking := false, rise := false }

/-! ### Ports and module sites (R105 to R130) -/

/-- A port's state beyond its registers. -/
structure PortSt where
  iseq : Nat              -- next ingress sequence number (R24)
  arriving : Option Nat   -- packet number of the frame on the wire
  discard : Nat           -- the frame on the wire is discarded: 0 not, 1 ELASTIC_OVERFLOW, 2 past PRT_MAXFRAME, 3 HOLD, 4 its slice is held
  elastic : List Nat      -- frames waiting in the elastic buffer, oldest first (R115)
  pause : SMap Nat        -- remaining pause quanta by class; unlisted: not stopped (R114)
  half : Bool             -- runs degraded on its lower half (R109)
  lpiHold : Bool          -- a frame waits for TW_SYS_TX (R112)
  cvuStaged : SMap Nat    -- staged PRT_CVU_RUN by direction, value + 1; 0 none (R122)
  txBusy : Option (Nat × Nat) -- packet and copy in transmission
  appsel : Nat            -- PORT_GROUP APPSEL (R131)
  lastOut : Bytes         -- last frame transmitted, with its FCS or stomp value
  deriving DecidableEq, Repr

/-- A port's state at first use. (log entry 111 DESIGN CHOICE.) -/
def PortSt.init : PortSt := ⟨0, none, 0, [], [], false, false, [], none, 0, []⟩

/-- A module site's state beyond its registers. -/
structure SiteSt where
  pollOn : Bool           -- polling the module address (R126)
  busy : Bool             -- a host transfer is in progress (R128)
  addr : Nat              -- transfer captured at GO: BANK, PAGE, OFFSET, LENGTH
  write : Bool
  data : Bytes            -- bytes to write
  pullHigh : Bool
  deriving DecidableEq, Repr

/-- A site's state at first use. (log entry 111 DESIGN CHOICE.) -/
def SiteSt.init : SiteSt := ⟨false, false, 0, false, [], false⟩

/-! ### Parse contexts and rule tables (R133 to R181) -/

/-- An open parse context (R133, R140). -/
structure ParseCtx where
  pipe : Nat
  slice : Nat
  profNo : Nat
  encap : Nat
  vlan : Nat
  mpls : Nat
  steps : Nat             -- step budget, 1 to 64
  window : Nat
  pc : Nat
  cur : Nat
  w : List Nat            -- W0 to W3
  done : Nat              -- steps executed
  lvl : Nat
  deepest : Nat
  endAt : Option Nat      -- END (R141)
  prov : Option (Nat × Nat) -- outermost provisional END and the level that set it
  staging : Bytes         -- key staging area, 40 bytes (R142)
  hv : Bytes              -- header vector, 256 bytes (R143)
  deriving DecidableEq, Repr

/-- Parse programs in force, by slice; a slice that lists none runs the default program (R151, R152). -/
structure ParseSt where
  progs : SMap (List (BitVec 128))
  disp : SMap (List (BitVec 64))
  deriving DecidableEq, Repr

/-- A rule-table entry in use (R159): its header and its body, bytes 8 onward. -/
structure REntry where
  fromV : Nat
  untilV : Nat
  base : Bool
  opn : Bool
  body : Bytes
  deriving DecidableEq, Repr

/-- One change of a latent set: an addition or a deletion of the entry at a place (R168). -/
structure Change where
  add : Bool
  tern : Bool             -- a ternary position rather than a rule-memory place
  place : Nat             -- region × 2^22 + place, or profile × 2^18 + position
  deriving DecidableEq, Repr

/-- Rule-table state beyond its registers. -/
structure RulesSt where
  regions : SMap Bytes    -- first 128 bytes of a region's TABLE_REGION payload (R179)
  entries : SMap REntry   -- by region × 2^22 + place
  latent : List Change
  lists : List (Nat × List Change)  -- change lists of live versions, oldest first (R174)
  fixAt : Option Nat      -- time of a scheduled FIX (R171)
  fixLate : Bool          -- it was accepted with LATE
  fixHeld : Bool          -- its time has come and 8 versions were live (R172)
  deriving DecidableEq, Repr

/-- A classification result (R162, R166). -/
structure ClsRes where
  verdict : Nat           -- 0 forward, 1 drop, 2 trap
  cls : Nat
  outKind : Nat           -- 0 port, 1 multicast group, 2 port of gang device, 3 none
  outDev : Nat
  out : Nat
  tmpl : Option Nat
  lbg : Nat
  meter : Nat
  mirror : Nat
  flags : Nat
  vrf : Nat
  edit : Nat
  tci : Nat
  encap : Nat
  deriving DecidableEq, Repr

/-- The result at the start of a pass (R166). -/
def ClsRes.init : ClsRes := ⟨0, 0, 3, 0, 0, none, 0xFFFF, 0xFFFF, 0, 0, 0, 0, 0, 0x3FFFFF⟩
/-! ### Ternary banks and pattern unit (R182 to R206) -/

/-- Ternary state beyond its registers. -/
structure TernSt where
  extracts : SMap Bytes   -- EXTRACTS of a profile, 16 bytes (R202)
  entries : SMap REntry   -- by profile × 2^18 + position; body: bytes 8 to 111 of R185
  wait : List Nat         -- waiting for the running command (R188): 0 FIX, 1 ABANDON, 2 settle, 3 scheduled FIX
  deriving DecidableEq, Repr

/-- Pattern-unit state beyond its registers. -/
structure PatSt where
  set : Bytes             -- PATTERN_SET payload in force
  queue : List (Nat × Nat) -- packets waiting, with the MT at which each began to wait, oldest first
  engines : SMap Nat      -- packet of a scanning engine
  gated : List Nat        -- engines clock-gated (R563)
  reload : SMap Nat       -- store lines being reloaded: MT of the fault (R200)
  deriving DecidableEq, Repr

/-! ### Flow engines (R207 to R296) -/

/-- One way of an engine's cache (R226). -/
structure Way where
  full : Bool
  dirty : Bool
  bsel : Nat
  bslot : Nat
  rank : Nat
  held : Bool
  record : Bytes
  deriving DecidableEq, Repr

/-- A way as at reset: empty, RANK its own number (R228). -/
def Way.init (w : Nat) : Way := ⟨false, false, 0, 0, w % 16, false, []⟩

/-- An op at an engine (R235, R236). -/
structure FOp where
  kind : Nat              -- 0 PKT, 1 RMT, 2 RD, 3 PREP, 5 HRD, 6 HDEL, 7 HINS, 8 REPL
  src : Nat               -- PKT: packet; RMT, REPL: device; RD, PREP: context (1024 + device for a peer's); host: window
  tag : Nat               -- RMT: remote tag; PREP: entry; RD, PREP of a peer: its tag
  key : Bytes
  h1 : Nat
  h2 : Nat
  orient : Nat
  tmpl : Nat
  port : Nat
  iseq : Nat
  pass : Nat
  ver : Nat
  flen : Nat
  tcpf : Nat
  tcp : Bool              -- the key level carries a TCP header (R280)
  ce : Bool
  cls : Nat
  tail : Nat              -- 0 not arrived, 1 good, 2 bad
  pend : Nat
  since : Nat             -- MT of arrival, ns
  mode : Nat              -- PREP: 1 update, 2 create, 3 delete, 4 create for a setup
  mask : Nat              -- PREP, HINS: field groups granted (R295)
  data : Bytes            -- PREP, HINS, REPL: the record
  deriving DecidableEq, Repr

/-- A lookup in progress (R244): 0 waits for a miss-queue entry, 1 tag lines read, 2 record read, 3 waits for a way with
the record, 4 the key is absent and its insert waits for a way. -/
structure FLookup where
  key : Bytes
  h1 : Nat
  h2 : Nat
  st : Nat
  bucket : Nat
  slot : Nat
  owner : Bool            -- the op that started it still waits, in its miss-queue entry (R244)
  deriving DecidableEq, Repr

/-- A setup in progress (R249): state 0 in the setup queue, 1 item accepted by its class, 2 record created. -/
structure FSetup where
  tag : Nat
  op : FOp
  st : Nat
  start : Nat
  answered : Bool         -- the creating op has taken its fallback
  deriving DecidableEq, Repr

/-- A held write (R242). -/
structure FHeld where
  op : FOp
  way : Nat               -- set × 16 + way
  record : Bytes
  fired : Nat
  value : Nat
  insert : Bool
  bucket : Nat
  slot : Nat
  deriving DecidableEq, Repr

/-- A prepared change (R254). -/
structure FPrep where
  op : FOp
  way : Nat
  bucket : Nat
  slot : Nat
  victim : Bool           -- the slot holds a victim to evict at APPLY
  deriving DecidableEq, Repr

/-- A flow engine's state beyond its registers. -/
structure EngSt where
  input : List FOp        -- oldest first
  ways : SMap Way         -- by set × 16 + way
  station : List FOp      -- waiting ops in arrival order
  lookups : List FLookup
  setups : List FSetup
  helds : List FHeld
  preps : List FPrep
  report : List Nat       -- entries of the last SWEEP op (R292): 2 × slot + 1 if expired
  deriving DecidableEq, Repr

/-- An engine at reset. -/
def EngSt.init : EngSt := ⟨[], [], [], [], [], [], [], []⟩

/-- An answer of an engine to another unit: code 0 OK, 1 to 6 a reason of R255, 7 station full, 8 error, 9 NOT_OWNER. -/
structure FAnswer where
  op : FOp
  code : Nat
  data : Bytes
  deriving DecidableEq, Repr

/-- Flow engines, templates and meters, and what an engine hands to other blocks. -/
structure FlowSt where
  templates : Bytes       -- FLOW_TEMPLATES payload in force, 4,096 bytes
  eng : SMap EngSt
  meters : SMap Bytes     -- by 4,096 × engine + meter
  results : List (FOp × Bytes) -- flow results on their way to packets and peers
  answers : List FAnswer
  offers : List (Nat × Nat × Bytes × Bytes) -- engine, class, item, attachment offered once
  exports : List (Nat × Bytes) -- reason and record handed to export (R485)
  unbinds : List Nat      -- handles to unbind (R406)
  repl : List (Bytes × Bool) -- records to replicate, true for a deletion (R532)
  migr : List (Bytes × Bool) -- committed writes of slots being given (R525)
  lbDown : SMap Nat       -- slice copy of LB_MEMBER.STATE, by member (R276)
  lbGroup : SMap (Nat × Bool) -- slice copy of a group's DOWN_ACT, and true where MEMBERS is not 0 (R276)
  deriving DecidableEq, Repr

/-- Flow state at reset. -/
def FlowSt.reset : FlowSt := ⟨[], [], [], [], [], [], [], [], [], [], [], []⟩


/-! ### Action cores (R297 to R330) -/

/-- The flags of a context (R297). -/
structure Flags where
  za : Bool
  na : Bool
  ca : Bool
  zb : Bool
  nb : Bool
  cb : Bool
  memOk : Bool
  memAbsent : Bool
  memErr : Bool
  keyMatch : Bool
  keyPool : Bool
  ko : Bool
  timeAfter : Bool
  deriving DecidableEq, Repr

/-- Every flag 0. -/
def Flags.zero : Flags :=
  ⟨false, false, false, false, false, false, false, false, false, false, false, false, false⟩

/-- The word being executed (R299): what its units have computed and write when it completes.
(log entry 85 DESIGN CHOICE.) -/
structure WordSt where
  done : List Nat         -- units that have run: 0 ALUA, 1 ALUB, 2 MEM, 3 KEY, 4 CRC, 5 EMIT, 6 TIM
  regs : List (Nat × BitVec 64)
  mem : List (Nat × Bytes)
  flags : Flags
  lc : BitVec 16
  run : BitVec 32
  deriving DecidableEq, Repr

/-- A staged write entry (R312): a record write or a service-area write. -/
structure WEnt where
  kind : Nat              -- 0 DWR; 1 update, 2 create, 3 delete, 4 create-setup
  key : Bytes             -- WREC: key at staging
  h1 : Nat
  h2 : Nat
  addr : Nat              -- scratch address
  len : Nat               -- DWR: bytes
  dram : Nat              -- DWR: device address
  deriving DecidableEq, Repr

/-- A staged emission (R309). -/
structure Emis where
  op : Nat                -- 1 PKT_OUT, 2 PKT_IN, 3 ITEM, 4 HOST
  addr : Nat
  len : Nat
  dest : Nat
  qsel : Nat
  deriving DecidableEq, Repr

/-- A DRAM read in flight, or one that ended in an error (R306). -/
structure Fill where
  dram : Nat
  addr : Nat
  len : Nat
  bad : Bool
  deriving DecidableEq, Repr

/-- One entry of a committing write set (R314). -/
structure CEnt where
  op : FOp
  dev : Nat               -- owning device
  port : Nat              -- gang port that carried a remote PREP
  st : Nat                -- 0 not sent, 1 sent, 2 prepared
  tries : Nat             -- remote: times sent (R537)
  deriving DecidableEq, Repr

/-- A bound item (R345). -/
structure Bound where
  cls : Nat
  item : Bytes            -- 64 bytes
  att : Option Bytes      -- attachment of an EVICT item
  shared : Bool           -- charged to the shared pool
  since : Nat             -- MT of acceptance, ns
  trace : Bool            -- selected by the contact sheet's SAMPLE (R349)
  deriving DecidableEq, Repr

/-- A context (R297). -/
structure Ctx where
  st : Nat                -- 0 idle, 1 running, 2 preparing, 3 reserving, 4 waiting for the commit point, 5 ended
  bound : Option Bound
  boundAt : Nat           -- MT of binding, ns
  entry : Nat
  opn : Option Bool       -- region of the last routine's entry; none: no routine since reset
  pc : Nat
  lastPc : Nat            -- address of the last word issued
  steps : Nat
  g : SMap (BitVec 64)    -- unlisted: 0
  lc : BitVec 16
  flags : Flags
  run : BitVec 32
  stack : List Nat        -- newest first
  scratch : SMap Byte
  ents : List WEnt
  emits : List Emis
  deltas : List (Nat × Nat)
  watch : List Nat        -- line numbers (address ÷ 64)
  broken : List Nat       -- lines of the watch list that are broken (R315)
  fills : List Fill
  word : Option WordSt
  rd : Option CEnt        -- RD sent and not answered
  rdAt : Nat              -- MT of the last remote request, ns
  commit : List CEnt
  reserved : List (Nat × Bool) -- slots reserved for ITEM emissions: class, charged to the shared pool (R341)
  failPc : Nat            -- address a watch failure returns to
  endSt : Nat             -- status of the last end (R317)
  endCode : Nat
  gen : Nat               -- generation of remote requests (R537)
  deriving DecidableEq, Repr

/-- A context at reset. (log entry 111 DESIGN CHOICE.) -/
def Ctx.init : Ctx :=
  { st := 0, bound := none, boundAt := 0, entry := 0, opn := none, pc := 0, lastPc := 0, steps := 0, g := [], lc := 0
    flags := Flags.zero, run := 0, stack := [], scratch := [], ents := [], emits := [], deltas := [], watch := []
    broken := [], fills := [], word := none, rd := none, rdAt := 0, commit := [], reserved := [], failPc := 0, endSt := 0
    endCode := 0, gen := 0 }

/-- The action cores. -/
structure ActSt where
  vendor : SMap (BitVec 192) -- vendor regions, by 24,576 × cluster + address; unlisted: the fill word (R323)
  patch : List (Nat × BitVec 192) -- verified records of the vendor patch, kept since the load (R327)
  opn : SMap (BitVec 192) -- open regions, by 8,192 × cluster + address − 0x6000
  vconst : SMap Bytes     -- constants 0–31 of a cluster (R324)
  cconst : SMap Bytes     -- constants 32–63 of a cluster (R325)
  ctxs : SMap Ctx         -- by global context
  commitQ : List Nat      -- contexts that wait for the commit point, oldest first (R316)
  reqs : List FOp         -- RD and PREP on their way to engines, oldest first
  msgs : List (Bool × Nat × Nat × Nat) -- APPLY (true) or DROP on its way: engine, source, entry
  natPool : SMap Bytes    -- NAT_POOL entries (R270)
  natPort : SMap Nat      -- NAT_PORT_POOL; unlisted: 0
  emitSeq : SMap Nat      -- packets a cluster has emitted
  deriving DecidableEq, Repr

/-- The action cores at reset. -/
def ActSt.reset : ActSt := ⟨[], [], [], [], [], [], [], [], [], [], [], []⟩

/-! ### Dispatcher (R331 to R353) -/

/-- Dispatcher state beyond its registers. -/
structure DispSt where
  waiting : SMap (List Bound) -- by class, oldest first
  credit : SMap Nat
  ptr : SMap Nat          -- by PRIO
  sweepHeld : SMap Bytes  -- SWEEP item of an engine that no class has accepted
  tmrHeld : SMap Bytes    -- TIMER item of a timer that no class has accepted
  setupEnds : List (Nat × Nat × Nat) -- engine, SETUP_TAG, how it ended: on the way to the engine (R348)
  wakes : List (Nat × Nat) -- cluster waking and the class that asked (R347)
  csCount : Nat           -- items counted for SAMPLE (R349)
  csLost : Nat            -- records lost since the last one written
  csPost : Option Nat     -- records left after the trigger (R350)
  deriving DecidableEq, Repr

/-- The dispatcher at reset. -/
def DispSt.reset : DispSt := ⟨[], [], [], [], [], [], [], 0, 0, none⟩

/-! ### Flow memory controller (R354 to R385) -/

/-- A DRAM request from acceptance to completion (R373). -/
structure DramReq where
  id : Nat                -- entry order
  req : Nat               -- requestor 0–7
  port : Nat
  addr : Nat
  len : Nat
  write : Bool
  data : Bytes
  since : Nat             -- MT of acceptance, ns
  left : List Nat         -- 128-byte granules whose command has not been issued
  deriving DecidableEq, Repr

/-- A pseudo-channel's state beyond its registers. -/
structure PcSt where
  rows : SMap (Nat × Nat) -- open row of a bank, and requests it has served in a row (R374)
  act : SMap (List (Nat × Nat)) -- activate table of a bank: ROW and CNT (R370)
  nrr : List (Nat × Nat)  -- neighbour refreshes queued: bank and row
  refs : Nat              -- refreshes since the activate tables were cleared
  must : Nat              -- refreshes issued ahead of all traffic (R367)
  batch : Nat             -- refreshes of a HOT batch (R369)
  drain : Bool            -- draining writes (R375)
  deriving DecidableEq, Repr

/-- A pseudo-channel at reset. -/
def PcSt.init : PcSt := ⟨[], [], [], 0, 0, 0, false⟩

/-- A command a channel has issued: CMD, PC, BANK, ROW, COL and MT in ns (R379). -/
structure DramCmd where
  cmd : Nat
  pc : Nat
  bank : Nat
  row : Nat
  col : Nat
  time : Nat
  deriving DecidableEq, Repr

/-- Memory-controller state beyond its registers. -/
structure HbmSt where
  queue : List DramReq    -- accepted and not completed, in entry order
  nextId : Nat
  pcs : SMap PcSt         -- by global pseudo-channel
  hist : SMap (List DramCmd) -- by global channel, latest first, 16 at most
  changing : SMap Nat     -- rate a stack is changing to
  fence : List Nat        -- requests a fence waits for (R378)
  scrubPos : Nat          -- next line of the scrub pass (R360)
  scrubQ : List Nat       -- lines waiting for a scrub rewrite
  lost : List (Nat × Nat × Nat) -- writes completed with ERROR: channel, address, length (R603)
  bad : List (Nat × Nat)  -- lines that read uncorrectable: channel and address (R603)
  lastData : Bytes        -- data of the last read completed
  deriving DecidableEq, Repr

/-- The memory controller at reset. -/
def HbmSt.reset : HbmSt := ⟨[], 0, [], [], [], [], 0, [], [], [], []⟩


/-! ### Traffic manager and scheduler (R386 to R449) -/

/-- A binding of a flow-queue handle (R404): state 1 BOUND, 2 UNBINDING, 3 DRAINING. -/
structure Binding where
  state : Nat
  dev : Nat               -- owning gang device
  handle : Nat
  port : Nat
  cls : Nat
  hold : List (Nat × Nat) -- packets and copies that must leave before the queue is served (R405)
  deriving DecidableEq, Repr

/-- A mark in a class queue (R406): packets ahead of it, and the flow queues it waits for. -/
structure Mark where
  ahead : Nat
  waits : List Nat
  deriving DecidableEq, Repr

/-- Traffic-manager state beyond its registers. -/
structure TmSt where
  nextPid : Nat
  nextPassSeq : Nat       -- recirculated passes started
  ingRes : SMap Nat       -- cells charged to a slice's ING reserve (R387)
  pend : SMap Nat         -- pending pool: tag to packet (R390)
  pendCells : SMap Nat    -- PEND[s] in cells (R388)
  queues : SMap (List (Nat × Nat)) -- packets and copies of a queue, oldest first
  qCells : SMap Nat       -- Q[q] (R388)
  residue : List (Nat × Nat) -- residue copies, oldest first (R410)
  recirc : SMap (List Nat)   -- recirculation queue of a slice (R399)
  bindings : SMap Binding -- by queue
  marks : SMap Mark       -- by class queue
  queueAdm : SMap Nat     -- QUEUE_ADM.PROFILE (R419)
  mcGroups : SMap Bytes   -- MC_GROUP entries (R408)
  mirrors : SMap Bytes    -- MIRROR entries (R411)
  mirrorCnt : SMap Nat    -- packets that named a session (R411)
  pfcDue : SMap Nat       -- by port: 256 + priorities just returned to XON (R403)
  lastBank : Nat          -- bank that last received a first cell (R386)
  bankUsed : SMap Nat     -- cells in use of a bank
  bankOut : List Nat      -- banks out of allocation (R604, R607)
  deriving DecidableEq, Repr

/-- One gate control list (R437). -/
structure GateList where
  entries : List (Nat × Nat)  -- GATES and INTERVAL in ns
  base : Nat              -- S, DTW
  cycle : Nat             -- CT in ns
  oneshot : Bool
  deriving DecidableEq, Repr

/-- The gate lists of a port: in force and pending. -/
structure GateSt where
  oper : Option GateList
  pend : Option GateList
  deriving DecidableEq, Repr

/-- Scheduler state beyond its registers. -/
structure SchedSt where
  clsTok : SMap Nat       -- T of class shapers, 48-bit pattern, by 16 × port + class (R428)
  qLast : SMap Nat        -- LAST of queue shapers, MT ns
  clsLast : SMap Nat
  portLast : SMap Nat
  clsDef : SMap Nat       -- deficits of weighted classes (R427)
  ql : SMap (List Nat)    -- active queues of a class, by 16 × port + class
  cl : SMap (List Nat)    -- active weighted classes of a port
  gates : SMap GateSt
  gateAdmin : SMap Bytes  -- GATE_ADMIN entries (R437)
  policers : SMap Bytes   -- POLICER entries (R432)
  policerCnt : SMap Bytes -- POLICER_CNT entries (R433)
  obsSeen : SMap Bool     -- queues whose first transmission since the tick was sampled (R444)
  obsFirst : SMap Bool    -- queues sampled since the last mode change
  deriving DecidableEq, Repr

/-- A copy of a packet from admission to its last byte (R394 to R412). -/
structure Copy where
  cid : Nat
  kind : Nat              -- 0 unicast, 1 multicast, 2 mirror, 3 gang
  port : Nat              -- output port
  cls : Nat
  queue : Nat
  state : Nat             -- 0 residue, 1 queued, 2 in transmission
  cells : Nat             -- cells counted in Q[queue]
  admAt : Nat             -- MT of admission, ns
  encap : Bytes           -- body of its ENCAP entry (R163); empty: none
  trunc : Nat             -- mirror copy: bytes kept, 0 the whole frame (R411)
  dev : Nat               -- gang device of a gang copy
  estamp : Nat            -- egress stamp, DTW
  deriving DecidableEq, Repr

/-- Where a packet is. -/
inductive Stage where
  | elastic               -- waiting in its port's elastic buffer (R115)
  | mac                   -- cells being written, not yet in a pipe
  | parse                 -- in a parse context
  | classify              -- header vector complete
  | flowWait              -- flow op sent or waiting for its release
  | pending               -- in the pending pool
  | report                -- held for its match report (R197)
  | ready                 -- at admission
  | recircWait            -- its pass ended in recirculation, its tail awaited
  | recircQ               -- in the recirculation queue
  | admitted              -- only its copies remain
  | residue               -- decided; only residue copies, none admitted
  | trapWait              -- to be punted once its tail has arrived (R505)
  | gone                  -- dropped; the rest of its frame is discarded as it arrives
  deriving DecidableEq, Repr

/-- A test strip in flight (R480): stamps of the stages reached, DTW. -/
structure Strip where
  stamps : SMap Nat
  passes : Nat
  pipe : Nat
  timedOut : Bool
  copy : Option (Nat × Nat × Nat) -- the copy that carries the mark: number, port, queue
  deriving DecidableEq, Repr
/-- A packet in the device, from its first byte to the end of its last copy. Packet numbers rise in order of arrival. -/
structure Pkt where
  src : Nat               -- 0 port, 1 injected RX, 2 injected TX, 3 emitted PKT_OUT, 4 emitted PKT_IN, 5 gang peer, 6 IPFIX
  srcId : Nat             -- ring, context, or gang device
  srcSeq : Nat            -- order number within an emitting cluster or a gang sender
  port : Nat              -- ingress port
  iseq : Nat              -- ingress sequence number (R24)
  istamp : Nat            -- ingress stamp, DTW (R461)
  frame : Bytes           -- frame as it stands, without FCS
  orig : Bytes            -- frame as received
  got : Nat               -- bytes received
  flen : Nat              -- frame length with FCS (R113)
  trap : Nat              -- REASON of a punt that waits for the tail
  tail : Nat              -- 0 not arrived, 1 good, 2 bad
  stage : Stage
  pass : Nat              -- recirculation passes made
  passSeq : Nat           -- order number of a recirculated pass (R237)
  pipe : Nat
  ctx : Option ParseCtx
  hv : Bytes              -- header vector of the last pass, 256 bytes
  prov : Option (Nat × Nat)
  lastPc : Nat
  ver : Option Nat        -- rule version stamp (R158)
  inflight : Bool         -- counted in its version (R173)
  res : ClsRes
  decap : Bytes           -- level offsets of DECAP (R630): L3_OFS, MPLS_OFS of level 0; L2_OFS, L3_OFS, L3_TYPE of level 1
  flowKey : Option Bytes  -- canonical key, 40 bytes (R211)
  h1 : Nat
  h2 : Nat
  dir : Nat               -- orientation bit (R211)
  flow : Option Bytes     -- flow result, 32 bytes (R241)
  flowDev : Nat           -- gang device whose tables the result names
  opSent : Bool           -- its flow op has been released
  bound : Option Nat      -- bytes after which the tail is taken as known (R123)
  recirc : Bool           -- a recirculation of this pass has been decided
  inspect : Nat           -- 0 not selected, 1 waiting or scanning, 2 reported
  grp : Nat               -- pattern group captured when classification completed (R195)
  report : Bytes          -- match report (R198); empty: none
  ingC : Nat              -- cells charged to the slice's ING reserve (R387)
  shC : Nat               -- cells charged to the shared pool
  hrC : Nat               -- cells charged to the port's head reserve
  prio : Nat              -- ingress priority (R402)
  banks : List Nat        -- buffer bank of each cell (R386)
  cells : Nat             -- cells it holds
  pendTag : Option Nat    -- place in the pending pool (R390)
  copies : List Copy
  resExp : Bool           -- a copy of it has expired from the residue (R401)
  strip : Option Strip
  gangHdr : Bytes         -- gang header of a DATA frame (R518)
  deriving DecidableEq, Repr


/-! ### Telemetry (R471 to R490) -/

/-- A record waiting for export (R486): template and record bytes as last committed, and the reason of R483. -/
structure ExpRec where
  bytes : Bytes
  reason : Nat
  deriving DecidableEq, Repr

/-- A routine followed word by word (R482). -/
structure Follow where
  start : Nat             -- DTW of the first word's issue
  startMt : Nat           -- MT of the first word's issue, 2^-40 ns
  context : Nat
  words : List (Nat × Nat) -- PC and core cycles, newest first
  count : Nat
  deriving DecidableEq, Repr

/-- Telemetry state beyond its registers. -/
structure TelSt where
  conds : SMap Bool       -- levels of condition events, by block, instance and event (R471)
  tsGen : SMap Nat        -- generator of a pipe; unlisted: TEL_TS_SEED XOR pipe
  smCount : Nat           -- routine starts counted for N (R482)
  follow : SMap Follow    -- by cluster
  expQ : List ExpRec      -- oldest first
  expMsg : List ExpRec    -- records of the open IPFIX message
  tmplDue : Bool          -- the next message carries the template set (R487)
  expSeq : Nat            -- data records of all earlier messages
  expUsed : Nat           -- tokens of the export bucket used (R486)
  expAt : Nat             -- MT of the last token update, ns
  expTmpl : Bool          -- the open message carries the template set
  scanAt : Option Nat     -- MT of the export scan's pass in progress, ns
  scanPos : SMap Nat      -- next bucket of an engine in the pass
  scanLate : Bool         -- the pass in progress has been counted late
  deriving DecidableEq, Repr

/-! ### Host interface (R497 to R513) -/

/-- A ring's state beyond its registers. -/
structure RingSt where
  fill : Nat              -- bytes in the open buffer (record mode); 0: none open
  recs : Nat
  done : Nat              -- completed descriptors since the last message (R508)
  deriving DecidableEq, Repr

/-- A ring at reset. -/
def RingSt.init : RingSt := ⟨0, 0, 0⟩

/-- A window command waiting for its op or its DRAM write (R497, R500). -/
structure WinCmd where
  opcode : Nat
  table : Nat
  index : Nat
  data : Bytes
  deriving DecidableEq, Repr

/-- Host-interface state beyond its registers. -/
structure HostSt where
  lastMsg : SMap Nat      -- MT of a vector's last message, ns (R511)
  rings : SMap RingSt
  win : SMap WinCmd       -- by window, while RUNNING
  perst : Bool            -- PERST# asserted
  rdBytes : Bytes         -- bytes of the last BAR2 read
  deriving DecidableEq, Repr
/-! ### Gang (R515 to R543) -/

/-- A membership change in progress (R525). -/
structure GChange where
  join : Bool
  dev : Nat               -- device that joins or leaves
  loss : Bool
  epoch : Nat             -- EPOCH of the new map
  map : List Nat          -- new owner of each of the 256 slots
  at_ : Option Nat        -- commit time T, DTW
  ready : List Nat        -- givers whose READY the coordinator awaits
  deriving DecidableEq, Repr

/-- A remote op outstanding (R526 to R528). -/
structure Rop where
  pid : Nat
  rtag : Nat
  dev : Nat
  op : FOp
  tries : Nat
  deriving DecidableEq, Repr

/-- An unbind notice of which copies are still to arrive (R535). -/
structure UnbindRx where
  src : Nat
  dev : Nat
  handle : Nat
  left : Nat
  deriving DecidableEq, Repr

/-- Gang state beyond its registers. -/
structure GangSt where
  gangId : Nat            -- GANG_ID of the Plate's GANG section (R541)
  partner : Nat           -- PARTNER; 0xFF none
  oldest : SMap Nat       -- last OLDEST reported by a peer over a link that is up (R177)
  lists : SMap (List Nat) -- L of the link set to a peer: its ports, ascending (R517)
  inService : SMap Nat    -- gang ports in service and the device each joins (R516)
  hellos : SMap Bytes     -- bytes 8 to 79 of the last HELLO of a peer
  txSeq : SMap Nat        -- LSEQ next sent on a port (R519)
  rxSeq : SMap Nat        -- LSEQ last received on a port, plus 1; unlisted: none yet
  change : Option GChange
  cleanWait : List Nat    -- givers whose CLEAN the coordinator awaits (R525)
  lossQ : List Nat        -- devices whose leave with LOSS waits for the change in progress
  migrating : List Nat    -- slots given: records also go to the receiver (R525)
  finalDue : List Nat     -- slots given at T whose SLOT_FINAL has not been sent
  given : List Nat        -- slots given at T whose copies have not been deleted
  awaitFinal : List Nat   -- slots acquired that wait for SLOT_FINAL
  gen : SMap Nat          -- generation of a pending tag's last ROP (R526)
  rops : List Rop
  tails : List (Nat × Nat × Nat × Nat) -- packet, RTAG, device and H1 of an op sent with TAIL 0 (R527)
  items : List Bytes      -- GANG items waiting, oldest first (R536)
  unbindRx : List UnbindRx
  thetas : List Int       -- last 8 offsets of a follower, latest first (R539)
  cmd : Nat               -- GNG_CMD opcode running: 2 JOIN, 3 LEAVE, 0 none
  resetAt : Option Nat    -- scheduled device reset (R540)
  resetLate : Bool        -- it was accepted LATE
  deriving DecidableEq, Repr

/-- The gang block at reset. -/
def GangSt.reset : GangSt :=
  { gangId := 0, partner := 255, oldest := [], lists := [], inService := [], hellos := [], txSeq := [], rxSeq := []
    change := none, cleanWait := [], lossQ := [], migrating := [], finalDue := [], given := [], awaitFinal := [], gen := []
    rops := [], tails := [], items := [], unbindRx := [], thetas := [], cmd := 0, resetAt := none, resetLate := false }


end Sys2Proof.Machine
end

