-- ==== Sys2Proof/Syntax.lean ====
section
/-! DEFINITION. The commands of the M512: one constructor per row of the table of operations and events, with the values
that come with it from outside (a register address, a received field, a measured value). -/
namespace Sys2Proof
open Sys2Proof.Machine

/-- A command (R20 and the rule each row names). -/
inductive Instr where
  /-- REGISTER_WRITE (R9). -/
  | registerWrite (addr : Fin 134217728) (val : Word) (hw : Word)
  /-- WIDE_LOW_WORD_READ (R13). -/
  | wideLowWordRead (addr : Fin 134217728) (hw : BitVec 64)
  /-- WIDE_HIGH_WORD_WRITE (R13). -/
  | wideHighWordWrite (addr : Fin 134217728) (val : Word)
  /-- WIDE_LOW_WORD_WRITE (R13). -/
  | wideLowWordWrite (addr : Fin 134217728) (val : Word)
  /-- BAR0_64BIT_WRITE (R11). -/
  | bar064bitWrite (addr : Fin 134217728) (val : BitVec 64)
  /-- BAD_WRITE (R11). -/
  | badWrite (addr : Fin 134217728)
  /-- BAD_READ (R11). -/
  | badRead (addr : Fin 134217728)
  /-- RC_READ (R9). -/
  | rcRead (addr : Fin 134217728) (hw : Word)
  /-- DENIED_WRITE (R579). -/
  | deniedWrite (addr : Fin 134217728) (source : Fin 9) (ctx : Fin 1024) (cmd : Option (Fin 10))
  /-- VSB_RISE (R546). -/
  | vsbRise
  /-- VSB_LOSS (R622). -/
  | vsbLoss
  /-- VIN_QUALIFIED (R546). -/
  | vinQualified
  /-- VIN_LOSS (R546). -/
  | vinLoss
  /-- VIN_OVER (R608). -/
  | vinOver (mv : Fin 65536)
  /-- DEVICE_RESET (R513). -/
  | deviceReset (key : Word)
  /-- FUNDAMENTAL_RESET (R513). -/
  | fundamentalReset
  /-- HOT_RESET (R513). -/
  | hotReset (flr : Bool) (link : Word)
  /-- BUS_MASTER_DISABLE (R513). -/
  | busMasterDisable
  /-- FULL_LOAD (R61). -/
  | fullLoad (masks : List (List Nat))
  /-- UNRECOVERABLE_FAULT (R38). -/
  | unrecoverableFault (sfl : Bool)
  /-- TIME_TICK (R450). -/
  | timeTick
  /-- INCR_WRITE (R451). -/
  | incrWrite (v : BitVec 48)
  /-- REF_LOST (R452). -/
  | refLost
  /-- REF_LOCK (R452). -/
  | refLock
  /-- SET (R453). -/
  | set
  /-- STEP (R453). -/
  | step
  /-- INVALIDATE (R459). -/
  | invalidate
  /-- SLEW (R454). -/
  | slew
  /-- SCHED (R460). -/
  | sched (n : Fin 16)
  /-- UNSCHED (R453). -/
  | unsched (n : Fin 16)
  /-- HOST_TIMED_WRITE (R460). -/
  | hostTimedWrite (n : Fin 16)
  /-- SACT_STATE_READ (R466). -/
  | sactStateRead (n : Fin 16)
  /-- PPS_OUT_EDGE (R464). -/
  | ppsOutEdge (rise : Bool)
  /-- PPS_IN_EDGE (R464). -/
  | ppsInEdge
  /-- PDELAY_WRITE (R463). -/
  | pdelayWrite (p : Fin 512) (v : Word)
  /-- VERIFY (R63). -/
  | verify
  /-- WRITE_SLOT (R63). -/
  | writeSlot (slot : Bool)
  /-- SELECT_BOOT (R63). -/
  | selectBoot (slot : Bool)
  /-- STOP_BATH (R67). -/
  | stopBath (unit : Fin 16) (inst : Fin 512) (source : Bool) (timed : Bool)
  /-- ADOPT (R69). -/
  | adopt (raise : Bool)
  /-- ABANDON (R63). -/
  | abandon
  /-- LOAD_STAGED (R63). -/
  | loadStaged (masks : List (List Nat))
  /-- CANCEL (R73). -/
  | cancel (entry : Fin 8)
  /-- STOP_BATH_START (R73). -/
  | stopBathStart (entry : Fin 8)
  /-- STOP_BATH_DRAINED (R70). -/
  | stopBathDrained (entry : Fin 8)
  /-- STOP_BATH_APPLIED (R72). -/
  | stopBathApplied (entry : Fin 8)
  /-- STOP_BATH_RESTARTED (R72). -/
  | stopBathRestarted (entry : Fin 8) (masks : List Nat)
  /-- DRAIN_TIMEOUT (R71). -/
  | drainTimeout (entry : Fin 8)
  /-- SB_STATE_READ (R65). -/
  | sbStateRead (entry : Fin 8)
  /-- LANE_ENABLE (R93). -/
  | laneEnable (lane : Fin 1032) (b : Bool)
  /-- RESTART (R92). -/
  | restart (lane : Fin 1032)
  /-- CAP_CLEAR (R89). -/
  | capClear (lane : Fin 1032)
  /-- PIN_TEST_DONE (R101). -/
  | pinTestDone (lane : Fin 1032) (tx : Fin 16) (rx : Fin 16)
  /-- PIN_FAULT (R101). -/
  | pinFault (lane : Fin 1032) (tx : Fin 16) (rx : Fin 16)
  /-- FAULT_RETEST (R101). -/
  | faultRetest (lane : Fin 1032)
  /-- RETEST (R101). -/
  | retest (lane : Fin 1032)
  /-- SET_TX (R83). -/
  | setTx (lane : Fin 1032)
  /-- CAP_SET (R86). -/
  | capSet (lane : Fin 1032) (g : SetGroups)
  /-- ACK_SET (R88). -/
  | ackSet (lane : Fin 1032) (g : SetGroups)
  /-- STEP_SET (R88). -/
  | stepSet (lane : Fin 1032) (g : SetGroups)
  /-- QUAL_SET (R88). -/
  | qualSet (lane : Fin 1032) (g : SetGroups)
  /-- HOLD_SET (R87). -/
  | holdSet (lane : Fin 1032) (g : SetGroups)
  /-- ABORT_SET (R89). -/
  | abortSet (lane : Fin 1032) (g : SetGroups)
  /-- UP_SET (R88). -/
  | upSet (lane : Fin 1032) (g : SetGroups)
  /-- STEP_SWITCH (R88). -/
  | stepSwitch (lane : Fin 1032)
  /-- STEP_ACQUIRED (R88). -/
  | stepAcquired (lane : Fin 1032)
  /-- ACQUISITION_TIMEOUT (R93). -/
  | acquisitionTimeout (lane : Fin 1032)
  /-- QUAL_WINDOW_END (R88). -/
  | qualWindowEnd (lane : Fin 1032) (errs : Nat) (aligned : Bool)
  /-- STEP_TIMEOUT (R89). -/
  | stepTimeout (lane : Fin 1032)
  /-- BACKOFF_END (R90). -/
  | backoffEnd (lane : Fin 1032)
  /-- SIGNAL_RISE (R90). -/
  | signalRise (lane : Fin 1032)
  /-- LINK_LOST (R89). -/
  | linkLost (lane : Fin 1032)
  /-- IEEE_TRAINING_DONE (R91). -/
  | ieeeTrainingDone (lane : Fin 1032) (ffe : Word)
  /-- IEEE_TRAINING_TIMEOUT (R91). -/
  | ieeeTrainingTimeout (lane : Fin 1032) (heard : Bool)
  /-- IDLE_RUN_FREEZE (R81). -/
  | idleRunFreeze (lane : Fin 1032)
  /-- ADAPT_RESUME (R81). -/
  | adaptResume (lane : Fin 1032)
  /-- RESET_ADAPT (R82). -/
  | resetAdapt (lane : Fin 1032)
  /-- FFE_WRITE (R79). -/
  | ffeWrite (lane : Fin 1032) (v : Word)
  /-- PG_ENABLE (R95). -/
  | pgEnable (lane : Fin 1032) (b : Bool)
  /-- CHECKER_LOCK (R96). -/
  | checkerLock (lane : Fin 1032)
  /-- CHECKER_LOCK_LOST (R96). -/
  | checkerLockLost (lane : Fin 1032) (bits : Nat) (errs : Nat)
  /-- PC_CLEAR (R96). -/
  | pcClear (lane : Fin 1032)
  /-- INJ_ONE (R97). -/
  | injOne (lane : Fin 1032)
  /-- PERIODIC_INJECTION (R97). -/
  | periodicInjection (lane : Fin 1032)
  /-- ALIGN_MODE_SET (R98). -/
  | alignModeSet (lane : Fin 1032) (b : Bool)
  /-- BITSLIP (R98). -/
  | bitslip (lane : Fin 1032)
  /-- CAPTURE (R98). -/
  | capture (lane : Fin 1032) (w : BitVec 80)
  /-- POLARITY_INVERSION (R102). -/
  | polarityInversion (lane : Fin 1032)
  /-- LANE_DIM_ENTER (R99). -/
  | laneDimEnter (lane : Fin 1032) (tx : Bool)
  /-- LANE_WAKE (R100). -/
  | laneWake (lane : Fin 1032)
  /-- LANE_RESUMED (R100). -/
  | laneResumed (lane : Fin 1032) (tx : Bool)
  /-- PORT_GIVEUP (R108). -/
  | portGiveup (port : Fin 512)
  /-- REFORM (R109). -/
  | reform (port : Fin 512)
  /-- LPI_ENTER (R112). -/
  | lpiEnter (port : Fin 512)
  /-- LPI_EXIT (R112). -/
  | lpiExit (port : Fin 512)
  /-- LPI_WAKE_DONE (R112). -/
  | lpiWakeDone (port : Fin 512)
  /-- FRAME_HEAD (R115). -/
  | frameHead (port : Fin 512) (head : Bytes)
  /-- FRAME_CELL_WRITE_START (R389). -/
  | frameCellWriteStart (port : Fin 512)
  /-- FRAME_TO_PIPE (R116). -/
  | frameToPipe (pid : Nat) (first : Bytes) (len : Nat)
  /-- FRAME_TAIL (R116). -/
  | frameTail (port : Fin 512) (fr : Bytes) (err : Bool)
  /-- CVU_RUN_WRITE (R122). -/
  | cvuRunWrite (port : Fin 512) (dir : Fin 2) (v : Word)
  /-- PAUSE_FRAME (R114). -/
  | pauseFrame (port : Fin 512) (fr : Bytes)
  /-- PFC_FRAME (R114). -/
  | pfcFrame (port : Fin 512) (fr : Bytes)
  /-- PAUSE_EXPIRY (R114). -/
  | pauseExpiry (port : Fin 512) (cls : Fin 16)
  /-- MODULE_INSERT (R126). -/
  | moduleInsert (site : Fin 128)
  /-- MODULE_REMOVE (R126). -/
  | moduleRemove (site : Fin 128)
  /-- RESET_PULSE_END (R126). -/
  | resetPulseEnd (site : Fin 128)
  /-- ADDRESS_POLL (R126). -/
  | addressPoll (site : Fin 128) (resp : Option (Bool × Nat × Nat))
  /-- NO_RESPONSE (R126). -/
  | noResponse (site : Fin 128)
  /-- SITE_FAULT_RETRY (R126). -/
  | siteFaultRetry (site : Fin 128)
  /-- CMIS_TRANSACTION_DONE (R127). -/
  | cmisTransactionDone (site : Fin 128) (what : Fin 3)
  /-- INTL_FALL (R129). -/
  | intlFall (site : Fin 128) (flags : Bytes)
  /-- MONITOR_POLL (R126). -/
  | monitorPoll (site : Fin 128) (temp : Fin 65536) (vcc : Fin 65536)
  /-- BUS_RECOVERY (R126). -/
  | busRecovery (site : Fin 128)
  /-- XFER_GO (R128). -/
  | xferGo (site : Fin 128) (write : Bool)
  /-- XFER_DONE (R128). -/
  | xferDone (site : Fin 128) (ok : Bool) (data : Bytes) (flags : Bytes)
  /-- NOP (R138). -/
  | nop (pid : Nat)
  /-- EXT (R138). -/
  | ext (pid : Nat)
  /-- MARK (R138). -/
  | mark (pid : Nat)
  /-- LCHK (R141). -/
  | lchk (pid : Nat)
  /-- KCOMMIT (R142). -/
  | kcommit (pid : Nat)
  /-- ALU (R138). -/
  | alu (pid : Nat)
  /-- SETF (R138). -/
  | setf (pid : Nat)
  /-- LVL (R138). -/
  | lvl (pid : Nat)
  /-- CLASSIFY_PASS (R165). -/
  | classifyPass (pid : Nat) (ecc : Fin 3)
  /-- FLOW_OP_RELEASE (R237). -/
  | flowOpRelease (pid : Nat)
  /-- STAGE_ADD (R167). -/
  | stageAdd (region : Fin 32)
  /-- STAGE_DEL (R167). -/
  | stageDel (region : Fin 32)
  /-- STAGE_MOD (R167). -/
  | stageMod (region : Fin 32)
  /-- FIX (R170). -/
  | fix (timed : Bool)
  /-- LATENT_ABANDON (R167). -/
  | latentAbandon
  /-- CANCEL_FIX (R167). -/
  | cancelFix
  /-- LOOKUP (R167). -/
  | lookup (region : Fin 32)
  /-- FIX_EXECUTE (R172). -/
  | fixExecute
  /-- FIX_HOLD_TIMEOUT (R172). -/
  | fixHoldTimeout
  /-- VERSION_RETIRE (R174). -/
  | versionRetire
  /-- TSTAGE_ADD (R190). -/
  | tstageAdd (profile : Fin 16)
  /-- TSTAGE_DEL (R188). -/
  | tstageDel (profile : Fin 16)
  /-- TSTAGE_MOD (R188). -/
  | tstageMod (profile : Fin 16)
  /-- TLOOKUP (R188). -/
  | tlookup (profile : Fin 16) (byKey : Bool)
  /-- REBALANCE (R192). -/
  | rebalance (profile : Fin 16)
  /-- TERNARY_SCRUB (R194). -/
  | ternaryScrub (profile : Fin 16) (pos : Fin 262144) (uncorr : Bool)
  /-- TERNARY_BANK_GATE (R187). -/
  | ternaryBankGate (bank : Fin 64)
  /-- PATTERN_SCAN_START (R197). -/
  | patternScanStart (pid : Nat)
  /-- PATTERN_REPORT (R199). -/
  | patternReport (eng : Fin 32) (found : List (Nat × Nat)) (err : Bool) (line : Nat)
  /-- PATTERN_WAIT_TIMEOUT (R197). -/
  | patternWaitTimeout (pid : Nat)
  /-- PATTERN_LINE_RELOADED (R200). -/
  | patternLineReloaded (line : Nat)
  /-- PATTERN_ENGINE_GATE (R563). -/
  | patternEngineGate (eng : Fin 32)
  /-- PKT_OP (R239). -/
  | pktOp (eng : Fin 128) (ecc : Fin 3)
  /-- RMT_OP (R258). -/
  | rmtOp (port : Fin 512) (fr : Bytes) (ecc : Fin 3)
  /-- RD_OP (R256). -/
  | rdOp (eng : Fin 128) (ecc : Fin 3)
  /-- PREP (R254). -/
  | prep (eng : Fin 128) (ecc : Fin 3)
  /-- APPLY (R254). -/
  | apply (eng : Fin 128)
  /-- DROP (R254). -/
  | drop (eng : Fin 128)
  /-- SWEEP_OP (R292). -/
  | sweepOp (eng : Fin 128) (bucket : Nat) (ecc : Fin 3)
  /-- HRD (R257). -/
  | hrd (eng : Fin 128) (ecc : Fin 3)
  /-- HDEL (R257). -/
  | hdel (eng : Fin 128) (ecc : Fin 3)
  /-- HINS (R257). -/
  | hins (eng : Fin 128) (ecc : Fin 3)
  /-- REPL_OP (R533). -/
  | replOp (port : Fin 512) (fr : Bytes)
  /-- TAIL_STATUS_REPORT (R242). -/
  | tailStatusReport (pid : Nat) (good : Bool)
  /-- MISS_QUEUE_GRANT (R244). -/
  | missQueueGrant (eng : Fin 128)
  /-- TAG_LINES_ARRIVED (R244). -/
  | tagLinesArrived (eng : Fin 128) (n : Nat) (err : Bool)
  /-- RECORD_FILL (R244). -/
  | recordFill (eng : Fin 128) (n : Nat) (err : Bool) (ecc : Fin 3)
  /-- WAY_AVAILABLE (R244). -/
  | wayAvailable (eng : Fin 128)
  /-- OP_REPLAY (R246). -/
  | opReplay (eng : Fin 128) (ecc : Fin 3)
  /-- OP_DEADLINE (R252). -/
  | opDeadline (eng : Fin 128) (n : Nat)
  /-- SETUP_ITEM_OFFER (R249). -/
  | setupItemOffer (eng : Fin 128)
  /-- SETUP_END_REPORT (R249). -/
  | setupEndReport
  /-- HC_GO (R230). -/
  | hcGo (eng : Fin 128)
  /-- METER_REFRESH (R285). -/
  | meterRefresh (eng : Fin 128)
  /-- SWEEP_TICK (R342). -/
  | sweepTick
  /-- ADD (R304). -/
  | add (ctx : Fin 1024) (unitB : Bool)
  /-- SUB (R304). -/
  | sub (ctx : Fin 1024) (unitB : Bool)
  /-- AND (R304). -/
  | and (ctx : Fin 1024) (unitB : Bool)
  /-- OR (R304). -/
  | or (ctx : Fin 1024) (unitB : Bool)
  /-- XOR (R304). -/
  | xor (ctx : Fin 1024) (unitB : Bool)
  /-- SHL (R304). -/
  | shl (ctx : Fin 1024) (unitB : Bool)
  /-- SHR (R304). -/
  | shr (ctx : Fin 1024) (unitB : Bool)
  /-- MOV (R304). -/
  | mov (ctx : Fin 1024) (unitB : Bool)
  /-- CMP (R304). -/
  | cmp (ctx : Fin 1024) (unitB : Bool)
  /-- EXTR (R304). -/
  | extr (ctx : Fin 1024) (unitB : Bool)
  /-- INS (R304). -/
  | ins (ctx : Fin 1024) (unitB : Bool)
  /-- MUL (R304). -/
  | mul (ctx : Fin 1024) (unitB : Bool)
  /-- MODU (R304). -/
  | modu (ctx : Fin 1024) (unitB : Bool)
  /-- LDLC (R304). -/
  | ldlc (ctx : Fin 1024) (unitB : Bool)
  /-- MINU (R304). -/
  | minu (ctx : Fin 1024) (unitB : Bool)
  /-- SLD (R305). -/
  | sld (ctx : Fin 1024)
  /-- SST (R305). -/
  | sst (ctx : Fin 1024)
  /-- CPY (R305). -/
  | cpy (ctx : Fin 1024)
  /-- CLD (R305). -/
  | cld (ctx : Fin 1024)
  /-- RD (R313). -/
  | rd (ctx : Fin 1024)
  /-- RD_ANSWER (R313). -/
  | rdAnswer (ctx : Fin 1024)
  /-- WREC (R312). -/
  | wrec (ctx : Fin 1024)
  /-- DRD (R306). -/
  | drd (ctx : Fin 1024)
  /-- DRDW (R306). -/
  | drdw (ctx : Fin 1024)
  /-- DRD_DATA_ARRIVED (R306). -/
  | drdDataArrived (ctx : Fin 1024) (err : Bool)
  /-- WKEEP (R305). -/
  | wkeep (ctx : Fin 1024)
  /-- DWR (R305). -/
  | dwr (ctx : Fin 1024)
  /-- CADD (R305). -/
  | cadd (ctx : Fin 1024)
  /-- HASH (R307). -/
  | hash (ctx : Fin 1024)
  /-- CANON (R307). -/
  | canon (ctx : Fin 1024)
  /-- CRCS (R307). -/
  | crcs (ctx : Fin 1024)
  /-- KCMP (R307). -/
  | kcmp (ctx : Fin 1024)
  /-- POOLP (R307). -/
  | poolp (ctx : Fin 1024)
  /-- POOLA (R307). -/
  | poola (ctx : Fin 1024)
  /-- NATS (R307). -/
  | nats (ctx : Fin 1024)
  /-- NATX (R307). -/
  | natx (ctx : Fin 1024)
  /-- KBLD (R307). -/
  | kbld (ctx : Fin 1024)
  /-- TPLR (R307). -/
  | tplr (ctx : Fin 1024)
  /-- INIT (R308). -/
  | init (ctx : Fin 1024)
  /-- FEED (R308). -/
  | feed (ctx : Fin 1024)
  /-- OUT (R308). -/
  | out (ctx : Fin 1024)
  /-- PKT_OUT (R309). -/
  | pktOut (ctx : Fin 1024)
  /-- PKT_IN (R309). -/
  | pktIn (ctx : Fin 1024)
  /-- ITEM (R309). -/
  | item (ctx : Fin 1024)
  /-- HOST (R309). -/
  | host (ctx : Fin 1024)
  /-- TIM_FT (R310). -/
  | timFt (ctx : Fin 1024)
  /-- TIM_DT (R310). -/
  | timDt (ctx : Fin 1024)
  /-- TIM_DTW (R310). -/
  | timDtw (ctx : Fin 1024)
  /-- TIM_AFTER (R310). -/
  | timAfter (ctx : Fin 1024)
  /-- SEQ (R302). -/
  | seq (ctx : Fin 1024) (ecc : Fin 4)
  /-- BR (R302). -/
  | br (ctx : Fin 1024) (ecc : Fin 4)
  /-- CALL (R302). -/
  | call (ctx : Fin 1024) (ecc : Fin 4)
  /-- RET (R302). -/
  | ret (ctx : Fin 1024) (ecc : Fin 4)
  /-- LOOP (R302). -/
  | loop (ctx : Fin 1024) (ecc : Fin 4)
  /-- COMMIT (R314). -/
  | commit (ctx : Fin 1024) (ecc : Fin 4)
  /-- PREP_ANSWER (R314). -/
  | prepAnswer (ctx : Fin 1024)
  /-- COMMIT_POINT (R316). -/
  | commitPoint
  /-- ABORT (R302). -/
  | abort (ctx : Fin 1024) (ecc : Fin 4)
  /-- ROUTINE_WALL_TIMEOUT (R320). -/
  | routineWallTimeout (ctx : Fin 1024)
  /-- KILL (R321). -/
  | kill (ctx : Fin 1024)
  /-- KILL_ALL (R321). -/
  | killAll (cluster : Fin 16)
  /-- HOLD (R322). -/
  | hold (cluster : Fin 16) (b : Bool)
  /-- ITEM_BIND (R345). -/
  | itemBind (cluster : Fin 16)
  /-- ROUTINE_END (R348). -/
  | routineEnd (ctx : Fin 1024)
  /-- FREEZE_WINDOW (R585). -/
  | freezeWindow
  /-- DISPATCH_TIMER_FIRE (R343). -/
  | dispatchTimerFire (timer : Fin 64)
  /-- HPOST_GO (R344). -/
  | hpostGo (cls : Fin 64) (hash : Bool)
  /-- CLUSTER_WAKE (R347). -/
  | clusterWake (cls : Fin 64)
  /-- CLUSTER_AWAKE (R347). -/
  | clusterAwake (cluster : Fin 16)
  /-- CLUSTER_GATE (R347). -/
  | clusterGate (cluster : Fin 16)
  /-- DRAM_REQUEST (R373). -/
  | dramRequest (req : Fin 8) (port : Nat) (addr : Nat) (len : Nat) (write : Bool) (data : Bytes)
  /-- DRAM_COMMAND_SLOT (R374). -/
  | dramCommandSlot (pc : Fin 192)
  /-- DRAM_COMPLETION (R376). -/
  | dramCompletion (id : Nat) (ecc : Fin 3) (syn : Nat)
  /-- STACK_PARITY_ERROR (R379). -/
  | stackParityError (ch : Fin 96) (wr : Bool) (addr : Nat) (syn : Nat)
  /-- REFRESH_DUE (R367). -/
  | refreshDue (pc : Fin 192)
  /-- TEMP_READING (R368). -/
  | tempReading (stack : Fin 6) (t : BitVec 8)
  /-- SCRUB_READ (R360). -/
  | scrubRead (ecc : Fin 3) (syn : Nat)
  /-- TRAIN (R361). -/
  | train (stack : Fin 6)
  /-- TRAINING_DONE (R362). -/
  | trainingDone (ch : Fin 96) (masks : List Nat)
  /-- TRACKING_RUN (R364). -/
  | trackingRun (pc : Fin 192) (masks : List Nat)
  /-- RATE_CHANGE (R365). -/
  | rateChange (stack : Fin 6) (rate : Fin 4)
  /-- FREQ_DONE (R365). -/
  | freqDone (stack : Fin 6)
  /-- POWER_DOWN_ENTRY (R371). -/
  | powerDownEntry (pc : Fin 192)
  /-- POWER_DOWN_EXIT (R371). -/
  | powerDownExit (pc : Fin 192)
  /-- SELF_REFRESH_ENTRY (R371). -/
  | selfRefreshEntry (ch : Fin 96)
  /-- SELF_REFRESH_EXIT (R371). -/
  | selfRefreshExit (ch : Fin 96)
  /-- RELEASE (R380). -/
  | release (ch : Fin 96) (ok : Bool)
  /-- FENCE (R378). -/
  | fence (mask : Fin 256)
  /-- FENCE_DONE (R378). -/
  | fenceDone
  /-- ADMIT_COPY (R394). -/
  | admitCopy (pid : Nat)
  /-- RESIDUE_RETRY (R410). -/
  | residueRetry (port : Fin 512)
  /-- RESIDUE_TIMEOUT (R410). -/
  | residueTimeout (pid : Nat) (cid : Nat)
  /-- RECIRC_ENQUEUE (R399). -/
  | recircEnqueue (pid : Nat)
  /-- RECIRC_HANDOFF (R400). -/
  | recircHandoff (slice : Fin 16)
  /-- PFC_FRAME_SEND (R403). -/
  | pfcFrameSend (port : Fin 512)
  /-- PFC_REFRESH (R403). -/
  | pfcRefresh (port : Fin 512)
  /-- UNBIND_NOTICE (R406). -/
  | unbindNotice (dev : Fin 4) (handle : Fin 262144)
  /-- SCHED_DECISION (R426). -/
  | schedDecision (port : Fin 512)
  /-- FRAME_TRANSMITTED (R468). -/
  | frameTransmitted (port : Fin 512)
  /-- SHAPER_UPDATE (R429). -/
  | shaperUpdate (level : Fin 3) (n : Nat)
  /-- SHAPER_CONFIG_WRITE (R431). -/
  | shaperConfigWrite (level : Fin 3) (n : Nat) (reg : Fin 3) (v : Word)
  /-- GATE_CHANGE (R437). -/
  | gateChange (port : Fin 512)
  /-- GATE_START (R441). -/
  | gateStart (port : Fin 512) (oneshot : Bool)
  /-- GATE_CANCEL (R441). -/
  | gateCancel (port : Fin 512)
  /-- GATE_STOP (R441). -/
  | gateStop (port : Fin 512)
  /-- PENDING_LIST_START (R441). -/
  | pendingListStart (port : Fin 512)
  /-- GATE_LIST_END (R437). -/
  | gateListEnd (port : Fin 512)
  /-- OBS_TICK (R444). -/
  | obsTick
  /-- OBS_MODE_WRITE (R442). -/
  | obsModeWrite (mode : Bool)
  /-- EV_FREEZE (R473). -/
  | evFreeze (freeze : Bool)
  /-- EV_CLEAR (R473). -/
  | evClear (n : Fin 4096)
  /-- PORT_STATS_CLEAR (R470). -/
  | portStatsClear (p : Fin 512)
  /-- TS_FORCE (R479). -/
  | tsForce (port : Fin 512)
  /-- TS_SEED_WRITE (R479). -/
  | tsSeedWrite (v : Word)
  /-- STRIP_TIMEOUT (R481). -/
  | stripTimeout (pid : Nat)
  /-- EXPORT_SCAN_VISIT (R484). -/
  | exportScanVisit (eng : Fin 128) (ecc : Fin 3)
  /-- EXPORT_RECORD_OUT (R486). -/
  | exportRecordOut
  /-- IPFIX_FLUSH (R487). -/
  | ipfixFlush
  /-- TEMPLATE_REFRESH (R487). -/
  | templateRefresh
  /-- BAR2_READ (R495). -/
  | bar2Read (offset : Fin 4294967296) (n : Nat)
  /-- BAR2_WRITE (R496). -/
  | bar2Write (offset : Fin 4294967296) (data : Bytes) (en : List Bool)
  /-- TW_READ (R497). -/
  | twRead (w : Fin 4) (table : Fin 256)
  /-- TW_WRITE (R497). -/
  | twWrite (w : Fin 4) (table : Fin 256)
  /-- TW_DELETE (R497). -/
  | twDelete (w : Fin 4) (table : Fin 256)
  /-- TW_INSERT (R497). -/
  | twInsert (w : Fin 4) (table : Fin 256)
  /-- TW_TIMEOUT (R500). -/
  | twTimeout (w : Fin 4)
  /-- RING_DOORBELL (R502). -/
  | ringDoorbell (ring : Fin 1024) (tail : Fin 65536)
  /-- RING_ENABLE (R508). -/
  | ringEnable (ring : Fin 1024) (b : Bool)
  /-- INJECT_PACKET (R507). -/
  | injectPacket (ring : Fin 512)
  /-- RECORD_BUFFER_TIMEOUT (R504). -/
  | recordBufferTimeout (ring : Fin 512)
  /-- RING_INTERRUPT (R508). -/
  | ringInterrupt (ring : Fin 1024)
  /-- DMA_ERROR (R508). -/
  | dmaError (ring : Fin 1024)
  /-- HELLO_TIMER (R516). -/
  | helloTimer (port : Fin 512)
  /-- HELLO (R516). -/
  | hello (port : Fin 512) (fr : Bytes)
  /-- HELLO_TIMEOUT (R516). -/
  | helloTimeout (port : Fin 512)
  /-- LINK_SET_JOIN (R517). -/
  | linkSetJoin (dev : Fin 4)
  /-- LINK_SET_DOWN (R529). -/
  | linkSetDown (port : Fin 512)
  /-- DATA (R530). -/
  | data (port : Fin 512) (fr : Bytes)
  /-- RRES (R527). -/
  | rres (port : Fin 512) (fr : Bytes)
  /-- TAIL (R527). -/
  | tail (port : Fin 512) (fr : Bytes)
  /-- RREC (R537). -/
  | rrec (port : Fin 512) (fr : Bytes) (ecc : Fin 3)
  /-- CTRL_OLDEST (R177). -/
  | ctrlOldest (port : Fin 512) (fr : Bytes)
  /-- CTRL_PREP (R525). -/
  | ctrlPrep (port : Fin 512) (fr : Bytes)
  /-- READY (R525). -/
  | ready (port : Fin 512) (fr : Bytes)
  /-- CTRL_COMMIT (R525). -/
  | ctrlCommit (port : Fin 512) (fr : Bytes)
  /-- MAP_COMMIT (R525). -/
  | mapCommit
  /-- SLOT_FINAL (R525). -/
  | slotFinal (port : Fin 512) (fr : Bytes)
  /-- CLEAN (R525). -/
  | clean (port : Fin 512) (fr : Bytes)
  /-- TSYNC_REQ (R539). -/
  | tsyncReq (port : Fin 512) (fr : Bytes)
  /-- TSYNC_RESP (R539). -/
  | tsyncResp (port : Fin 512) (fr : Bytes)
  /-- CTRL_LEAVE (R524). -/
  | ctrlLeave (port : Fin 512) (fr : Bytes)
  /-- CTRL_UNBIND (R535). -/
  | ctrlUnbind (port : Fin 512) (fr : Bytes)
  /-- JOIN_REQ (R524). -/
  | joinReq (port : Fin 512) (fr : Bytes) (linked : Bool)
  /-- RESET_AT (R540). -/
  | resetAt (port : Fin 512) (fr : Bytes)
  /-- FORM (R524). -/
  | form
  /-- JOIN (R524). -/
  | join
  /-- LEAVE (R524). -/
  | leave
  /-- RESET_ALL (R540). -/
  | resetAll
  /-- JOIN_TIMEOUT (R524). -/
  | joinTimeout
  /-- ROP_TIMEOUT (R527). -/
  | ropTimeout (pid : Nat)
  /-- PEER_LOSS (R524). -/
  | peerLoss (a : Fin 4) (b : Fin 4)
  /-- REPL_REFRESH_SCAN (R532). -/
  | replRefreshScan
  /-- OLDEST_SEND (R535). -/
  | oldestSend
  /-- TSYNC_TIMER (R539). -/
  | tsyncTimer
  /-- RREC_PREP_EXPIRY (R538). -/
  | rrecPrepExpiry (eng : Fin 128) (dev : Fin 4) (tag : Nat)
  /-- RREC_ANSWER_TIMEOUT (R538). -/
  | rrecAnswerTimeout (ctx : Fin 1024)
  /-- GANG_ITEM_OFFER (R536). -/
  | gangItemOffer
  /-- MP_WAKE (R547). -/
  | mpWake
  /-- MP_IDLE_STOP (R547). -/
  | mpIdleStop
  /-- MP_WATCHDOG (R547). -/
  | mpWatchdog
  /-- MP_RESTART (R547). -/
  | mpRestart
  /-- INFO (R550). -/
  | info
  /-- SENSORS (R550). -/
  | sensors
  /-- LOG_READ (R550). -/
  | logRead
  /-- LOG_MARK (R550). -/
  | logMark
  /-- UPDATE_WRITE (R560). -/
  | updateWrite
  /-- UPDATE_SELECT (R561). -/
  | updateSelect
  /-- FLOOR_RAISE (R562). -/
  | floorRaise
  /-- OOB_DATAGRAM (R552). -/
  | oobDatagram (port : Fin 2) (src : Bytes) (payload : Bytes)
  /-- SENSOR_SAMPLE (R554). -/
  | sensorSample (vals : List (BitVec 16))
  /-- LOG_FLASH_COPY (R557). -/
  | logFlashCopy
  /-- SLICE_PARK (R564). -/
  | slicePark (slice : Fin 16)
  /-- SLICE_ACTIVE (R564). -/
  | sliceActive (slice : Fin 16)
  /-- BANK_GATE (R563). -/
  | bankGate (bank : Fin 16)
  /-- BANK_AWAKE (R565). -/
  | bankAwake (bank : Fin 16)
  /-- RECOVERY_START (R594). -/
  | recoveryStart (kind : Fin 8) (inst : Fin 1024) (cause : Fin 256) (detail : List Nat)
  /-- REC_GO (R594). -/
  | recGo (kind : Fin 8) (inst : Fin 1024)
  /-- RECOVERY_END (R594). -/
  | recoveryEnd (kind : Fin 8) (inst : Fin 1024) (ok : Bool)
  /-- RECOVERY_BOUND_EXPIRED (R595). -/
  | recoveryBoundExpired (kind : Fin 8) (inst : Fin 1024)
  /-- SCHEDULED_DEVICE_RESET (R540). -/
  | scheduledDeviceReset
  /-- PERST_DEASSERTED (R513). -/
  | perstDeasserted (link : Word)
  /-- MSIX_UNMASK (R511). -/
  | msixUnmask (vector : Fin 2048)
  /-- MAXFRAME_EXCEEDED (R124). -/
  | maxframeExceeded (port : Fin 512) (bytes : Bytes)
  /-- FIRMWARE_HEARTBEAT_TIMEOUT (R561). -/
  | firmwareHeartbeatTimeout
  /-- TERNARY_COMMAND_DONE (R191). -/
  | ternaryCommandDone
  /-- FLASH_SLOT_WRITE_DONE (R57). -/
  | flashSlotWriteDone (plate : Bool) (ok : Bool)
  deriving DecidableEq, Repr

end Sys2Proof
end

