-- ==== Sys2Proof/Decode.lean ====
section
/-! DEFINITION. Commands as table words. The table of operations and events gives no row any bits: its commands come as
register accesses, frames and events, not as encoded words. -/
namespace Sys2Proof

/-- The command a table word spells: none, since no row of the table gives bits. (log entry 2 DESIGN CHOICE.) -/
def decodeTableWord (_nbits _w : Nat) : Option Instr := none

end Sys2Proof
end

