-- ==== Sys2Proof/Machine/Bits.lean ====
section
/-! DEFINITION. Bit fields, byte orders and signed readings (R6: registers are little-endian, packet fields in
network order). -/
namespace Sys2Proof.Machine
open Sys2Proof

/-- Bits `hi:lo` of a number. -/
def bitsOf (hi lo x : Nat) : Nat := (x / 2 ^ lo) % 2 ^ (hi + 1 - lo)

/-- `x` with bits `hi:lo` replaced by `v` (taken modulo the field's width). -/
def setBitsOf (hi lo x v : Nat) : Nat :=
  (x / 2 ^ (hi + 1)) * 2 ^ (hi + 1) + (v % 2 ^ (hi + 1 - lo)) * 2 ^ lo + x % 2 ^ lo

/-- Bit `i` of a number as a truth value. -/
def bitOf (i x : Nat) : Bool := (x / 2 ^ i) % 2 == 1

/-- A truth value as a bit. -/
def b2n (b : Bool) : Nat := if b then 1 else 0

/-- The signed reading of a `w`-bit number. -/
def signedOf (w x : Nat) : Int :=
  let y := x % 2 ^ w
  if y < 2 ^ (w - 1) then (y : Int) else (y : Int) - (2 ^ w : Nat)

/-- The `w`-bit two's-complement pattern of an integer. -/
def patternOf (w : Nat) (i : Int) : Nat := (i % ((2 ^ w : Nat) : Int)).toNat

/-- Saturating sum in `w` bits. -/
def satAdd (w a b : Nat) : Nat := min (2 ^ w - 1) (a + b)

/-- The nearest of the bounds of a range. -/
def clampTo (lo hi v : Nat) : Nat := if v < lo then lo else if hi < v then hi else v

/-- A byte string read as a number, first byte least significant. -/
def leNat : Bytes → Nat
  | [] => 0
  | b :: bs => b.toNat + 256 * leNat bs

/-- A byte string read as a number, first byte most significant (network order). -/
def beNat (bs : Bytes) : Nat := bs.foldl (fun a b => a * 256 + b.toNat) 0

/-- `n` bytes of a number, least significant first. -/
def natLe : Nat → Nat → Bytes
  | 0, _ => []
  | n + 1, x => BitVec.ofNat 8 x :: natLe n (x / 256)

/-- `n` bytes of a number, most significant first. -/
def natBe (n x : Nat) : Bytes := (natLe n x).reverse

/-- Bytes `o` to `o + n - 1` of a string; what lies past its end reads 0. -/
def sliceB (bs : Bytes) (o n : Nat) : Bytes :=
  let t := (bs.drop o).take n
  t ++ List.replicate (n - t.length) 0

/-- Little-endian field of a byte string. -/
def leAt (bs : Bytes) (o n : Nat) : Nat := leNat (sliceB bs o n)

/-- Network-order field of a byte string. -/
def beAt (bs : Bytes) (o n : Nat) : Nat := beNat (sliceB bs o n)

/-- Byte `o` of a string as a number. -/
def byteAt (bs : Bytes) (o : Nat) : Nat := (bs.getD o 0).toNat

/-- A string with bytes from offset `o` replaced; a longer string is cut to the old length. -/
def putB (bs : Bytes) (o : Nat) (v : Bytes) : Bytes :=
  (sliceB bs 0 o ++ v ++ bs.drop (o + v.length)).take (max bs.length (o + v.length))

/-- A string with the little-endian field at `o` set. -/
def putLe (bs : Bytes) (o n v : Nat) : Bytes := putB bs o (natLe n v)

/-- A string with the network-order field at `o` set. -/
def putBe (bs : Bytes) (o n v : Nat) : Bytes := putB bs o (natBe n v)

/-- `n` zero bytes. -/
def zerosB (n : Nat) : Bytes := List.replicate n 0

/-- Ones' complement sum of 16-bit words, network order, an odd last byte padded with 0. -/
def onesSum : Bytes → Nat → Nat
  | [], acc => acc
  | [a], acc => let t := acc + a.toNat * 256; t % 65536 + t / 65536
  | a :: b :: r, acc =>
    let t := acc + a.toNat * 256 + b.toNat
    onesSum r (t % 65536 + t / 65536)

/-- The Internet checksum of a byte string. (log entry 106 PRESUMED.) -/
def inetSum (bs : Bytes) : Nat := 65535 - onesSum bs 0

end Sys2Proof.Machine
end

