-- ==== Sys2Proof/Machine/Crc.lean ====
section
/-! DEFINITION. The check values of R117 and R118, and the CRC-32C of the flow hash (R49, R212). -/
namespace Sys2Proof.Machine
open Sys2Proof

/-- Parameters of a polynomial (R117). -/
structure Poly where
  width : Nat
  poly : Nat
  rpoly : Nat
  init : Nat
  reflected : Bool
  xorout : Nat
  deriving DecidableEq, Repr

/-- The polynomial of a POLY code (R117). -/
def polyOf (code : Nat) : Poly :=
  match code with
  | 0 => ⟨32, 0x04C11DB7, 0xEDB88320, 0xFFFFFFFF, true, 0xFFFFFFFF⟩
  | 1 => ⟨32, 0x1EDC6F41, 0x82F63B78, 0xFFFFFFFF, true, 0xFFFFFFFF⟩
  | 2 => ⟨16, 0x1021, 0, 0xFFFF, false, 0⟩
  | _ => ⟨8, 0x07, 0, 0, false, 0⟩

/-- One bit step of cv_byte (R118). -/
def cvBit (p : Poly) (r : Nat) : Nat :=
  if p.reflected then (if r % 2 = 1 then Nat.xor (r / 2) p.rpoly else r / 2)
  else if (r / 2 ^ (p.width - 1)) % 2 = 1 then Nat.xor (r * 2) p.poly % 2 ^ p.width else (r * 2) % 2 ^ p.width

/-- `n` bit steps. -/
def cvBits (p : Poly) : Nat → Nat → Nat
  | 0, r => r
  | n + 1, r => cvBits p n (cvBit p r)

/-- One byte into a running value (R118). -/
def cvByte (p : Poly) (r : Nat) (b : Byte) : Nat :=
  cvBits p 8 (Nat.xor r (if p.reflected then b.toNat else b.toNat * 2 ^ (p.width - 8)))

/-- A byte string into a running value. -/
def cvRun (p : Poly) (r : Nat) (bs : Bytes) : Nat := bs.foldl (cvByte p) r

/-- cv_final (R118). -/
def cvFinal (p : Poly) (r : Nat) : Nat := Nat.xor r p.xorout

/-- CRC-32 of a frame (R119). (log entry 106 PRESUMED.) -/
def fcsOf (bs : Bytes) : Nat := cvFinal (polyOf 0) (cvRun (polyOf 0) 0xFFFFFFFF bs)

/-- CRC-32C with an initial value, as R49 and R212 use it. (log entry 87 DESIGN CHOICE.) -/
def crc32c (init : Nat) (bs : Bytes) : Nat := cvFinal (polyOf 1) (cvRun (polyOf 1) init bs)

/-- CRC-8 of a staircase set (R83). -/
def crc8 (bs : Bytes) : Nat := cvRun (polyOf 3) 0 bs

end Sys2Proof.Machine
end

