-- ==== Sys2Proof/Machine/PlateImage.lean ====
section
/-! DEFINITION. The Plate container (R47 to R55): header, section table, payloads, trailer, and the selection of the
section an instance takes. -/
namespace Sys2Proof.Machine
open Sys2Proof

/-- This device's family member number (GLB_FAMILY.MEMBER, R3). -/
def member : Nat := 3

/-- Header fields (R48). -/
def plFormat (img : Bytes) : Nat := leAt img 4 2
def plSecCount (img : Bytes) : Nat := leAt img 6 2
def plTotal (img : Bytes) : Nat := leAt img 8 4
def plId (img : Bytes) : Nat := leAt img 12 4
def plSerial (img : Bytes) : Nat := leAt img 16 8
def plPolicyId (img : Bytes) : Nat := leAt img 24 4
def plMembers (img : Bytes) : Nat := byteAt img 28

/-- Trailer fields (R50), at TOTAL_LENGTH - 208. -/
def plTrailer (img : Bytes) : Nat := plTotal img - 208
def plKeySlot (img : Bytes) : Nat := byteAt img (plTrailer img + 4)
def plPubkey (img : Bytes) : Bytes := sliceB img (plTrailer img + 8) 97
def plSig (img : Bytes) : Bytes := sliceB img (plTrailer img + 112) 96
/-- The bytes the signature covers (R51). -/
def plSigned (img : Bytes) : Bytes := img.take (plTotal img - 96)

/-- A section-table entry (R49) and its index. -/
structure SecEntry where
  idx : Nat
  type : Nat
  inst : Nat
  mask : Nat
  flags : Nat
  fmt : Nat
  off : Nat
  len : Nat
  check : Nat
  rsvd : Bool             -- the reserved fields are 0
  deriving DecidableEq, Repr

/-- Entry `i` of the section table. -/
def secEntry (img : Bytes) (i : Nat) : SecEntry :=
  let e := sliceB img (128 + 32 * i) 32
  ⟨i, leAt e 0 2, leAt e 2 2, byteAt e 4, byteAt e 5, leAt e 6 2, leAt e 8 4, leAt e 12 4, leAt e 16 4,
   leAt e 20 12 == 0 && decide (byteAt e 5 < 2)⟩

/-- The whole section table. -/
def secTable (img : Bytes) : List SecEntry := (List.range (plSecCount img)).map (secEntry img)

/-- The entry applies to this family member (R54). -/
def SecEntry.applies (e : SecEntry) : Bool := bitOf member e.mask

/-- The entries that apply, in table order. -/
def secApplicable (img : Bytes) : List SecEntry := (secTable img).filter SecEntry.applies

/-- An entry's payload. -/
def secPayload (img : Bytes) (e : SecEntry) : Bytes := sliceB img e.off e.len

/-- The number of instances of a section type, 0 for an unknown type (R52). -/
def secInstances (type : Nat) : Nat :=
  match type with
  | 0x0001 => 1 | 0x0010 => 128 | 0x0011 => 128 | 0x0020 => 16 | 0x0030 => 32 | 0x0031 => 1 | 0x0032 => 1
  | 0x0040 => 1 | 0x0041 => 16 | 0x0042 => 1 | 0x0050 => 1 | 0x0051 => 16 | 0x0052 => 1 | 0x0060 => 6
  | 0x0070 => 1 | 0x0080 => 512 | 0x0090 => 1 | 0x00A0 => 1 | 0x00B0 => 1 | 0x00C0 => 1 | 0x00D0 => 1
  | _ => 0

/-- A section type that changes only at a full load (R52). -/
def secLoadOnly (type : Nat) : Bool :=
  [0x0001, 0x0031, 0x0032, 0x0040, 0x0052, 0x0090, 0x00A0, 0x00B0, 0x00C0, 0x00D0].contains type

/-- The section an instance takes (R54): its own, else the one of INSTANCE 0xFFFF, else none. -/
def secFor (img : Bytes) (type inst : Nat) : Option SecEntry :=
  match (secApplicable img).find? (fun e => e.type == type && e.inst == inst) with
  | some e => some e
  | none => (secApplicable img).find? (fun e => e.type == type && e.inst == 0xFFFF)

/-- The payload an instance takes; the empty payload stands for the type's defaults (R49, R54). -/
def payloadFor (img : Bytes) (type inst : Nat) : Bytes :=
  match secFor img type inst with
  | some e => secPayload img e
  | none => []

/-- The first entry of a list that fails a test, as a section index. -/
def firstBad (es : List SecEntry) (bad : SecEntry → Bool) : Option Nat := (es.find? bad).map SecEntry.idx

/-- Two byte ranges overlap; an empty range overlaps nothing. -/
def overlapB (o1 l1 o2 l2 : Nat) : Bool := l1 != 0 && l2 != 0 && decide (o1 < o2 + l2) && decide (o2 < o1 + l1)

/-- Check 7, LAYOUT (R56): the failing section index, 0xFFF where no single section fails; none where it passes. -/
def layoutBad (img : Bytes) : Option Nat :=
  let t := secTable img
  let tabEnd := 128 + 32 * plSecCount img
  if decide (0x0C000000 < plTotal img) || decide (plTotal img < tabEnd + 208) || decide (img.length < plTotal img)
      || plSecCount img == 0 || decide (4096 < plSecCount img) || leAt img 29 3 != 0 || decide (16 ≤ plMembers img)
      || leAt img (plTrailer img + 5) 3 != 0 || leAt img (plTrailer img + 105) 7 != 0 then some 0xFFF
  else
    firstBad t (fun e => !e.rsvd || e.off % 64 != 0 || decide (e.off < tabEnd)
      || decide (plTrailer img < e.off + e.len)
      || (t.take e.idx).any (fun f => overlapB e.off e.len f.off f.len
          || (e.applies && f.applies && e.type == f.type && e.inst == f.inst)))

/-- The GLOBAL payload's own rules (R53), part of check 13. -/
def globalSectionOk (pl : Bytes) : Bool :=
  pl.length == 64 && leAt pl 0 4 != leAt pl 4 4
    && (leAt pl 8 4 == 0 || (decide (10 ≤ leAt pl 8 4) && decide (leAt pl 8 4 ≤ 100000)))
    && decide (byteAt pl 12 ≤ 1) && leAt pl 13 51 == 0

end Sys2Proof.Machine
end

