-- ==== Sys2Proof/Config.lean ====
section
/-! DEFINITION. What an implementation fixes and the free values: constants without a body, so that no proof can see a
value of them, and the standard cryptographic functions, which the manual names and does not restate. -/
namespace Sys2Proof

/-- SHA-384 digest (R51, R559, R576), uninterpreted. (log entry 106 PRESUMED.) -/
opaque Config.sha384 : Bytes → Bytes

/-- ECDSA P-384 verification of public key, digest and signature r and s (R51), uninterpreted. (log entry 106 PRESUMED.) -/
opaque Config.ecdsaOk : Bytes → Bytes → Bytes → Bool

/-- The digest of the vendor policy key fixed in the always-on domain (R576). (log entry 108 DESIGN CHOICE.) -/
opaque Config.vendorPolicyDigest : Bytes

/-- The firmware public key, whose digest is fixed in the always-on domain (R559). (log entry 108 DESIGN CHOICE.) -/
opaque Config.firmwareKey : Bytes

/-- The microcode patch public key, whose digest is fixed in the always-on domain (R327). (log entry 108 DESIGN CHOICE.) -/
opaque Config.patchKey : Bytes

/-- AES-256-GCM decryption of a patch's ciphertext with the fixed key (R327): IV, additional data, ciphertext and tag;
none where authentication fails. (log entry 106 PRESUMED.) -/
opaque Config.gcmOpen : Bytes → Bytes → Bytes → Bytes → Option Bytes

/-- Factory calibration of TIM_INCR in the always-on domain (R451). (log entry 4 DESIGN CHOICE.) -/
opaque Config.incrCalibration : Nat

/-- A byte the manual leaves undefined, by the number of the use (State's free counter). (log entry 5 DESIGN CHOICE.) -/
opaque Config.freeByte : Nat → BitVec 8

/-- A number the manual leaves undefined, by the number of the use (State's free counter). (log entry 5 DESIGN CHOICE.) -/
opaque Config.freeNat : Nat → Nat

/-- The hash of a frame that fills a tunnel's UDP source port where no flow op ran (R163); free.
(log entry 92 DESIGN CHOICE.) -/
opaque Config.frameHash : Bytes → Nat

/-- Which arrangement of the polynomial the test-strip generators use (R479): bit 0 Galois or Fibonacci, bit 1 shift left
or right, bit 2 whether the draw reads the generator before or after it advances; free. (log entry 76 DESIGN CHOICE.) -/
opaque Config.lfsrForm : Nat

/-- Whether the pattern engines support an ENGINE_FORMAT word (R204); the Bilsoist compiler's, not in the manual.
(log entry 107 DESIGN CHOICE.) -/
opaque Config.patternFormat : Nat → Bool

/-- Whether the PHY type of a port mode (R106) defines low-power idle (R112); IEEE 802.3 says, the manual does not.
(log entry 106 PRESUMED.) -/
opaque Config.phyDefinesLpi : Nat → Bool

end Sys2Proof
end

