-- ==== Sys2Proof/Machine/RegMap.lean ====
section
/-! DEFINITION. The BAR0 register map (R6 to R10 and the register tables of every chapter): for each register its base
address, its array dimensions, and for each field its bits, access code, reset value, and how an out-of-range write is
stored. A reset value the Plate sets reads 0 here until FULL_LOAD applies the Plate (log entry 3). -/
namespace Sys2Proof.Machine

/-- Access codes (R9). -/
inductive Access where
  | rw | ro | w1c | w1s | wo | rc | so | po
  deriving DecidableEq, Repr

/-- How a written value out of a field's range is stored. -/
inductive Clamp where
  | any                           -- stored as written
  | range (lo hi : Nat)           -- as the nearest bound
  | rangeOrZero (lo hi : Nat)     -- as the nearest bound, 0 kept
  deriving DecidableEq, Repr

/-- One field: bits `hi:lo`, access, reset value, clamp, and whether a write of it is a command of its own. -/
structure FldRow where
  hi : Nat
  lo : Nat
  acc : Access
  reset : Nat
  clamp : Clamp
  own : Bool
  deriving DecidableEq, Repr

/-- One register or register array: instance (i, j) lies at `base + i * s1 + j * s2`; `words` 2 or 3 for a value of R13. -/
structure RegRow where
  name : String
  base : Nat
  n1 : Nat
  s1 : Nat
  n2 : Nat
  s2 : Nat
  words : Nat
  flds : List FldRow
  deriving DecidableEq, Repr

/-- Registers of block GLB. -/
def regsGlb : List RegRow := [
  ⟨"GLB_IDENT", 0x0, 1, 0x0, 1, 0x0, 1, [⟨31, 16, .ro, 21831, .any, false⟩, ⟨15, 0, .ro, 1298, .any, false⟩]⟩,
  ⟨"GLB_STEP", 0x4, 1, 0x0, 1, 0x0, 1, [⟨15, 8, .ro, 1, .any, false⟩, ⟨7, 0, .ro, 0, .any, false⟩]⟩,
  ⟨"GLB_FAMILY", 0x8, 1, 0x0, 1, 0x0, 1, [⟨7, 0, .ro, 3, .any, false⟩]⟩,
  ⟨"GLB_FAM_PORT", 0x10, 1, 0x0, 1, 0x0, 1, [⟨31, 16, .ro, 1024, .any, false⟩, ⟨15, 0, .ro, 512, .any, false⟩]⟩,
  ⟨"GLB_FAM_PIPE", 0x14, 1, 0x0, 1, 0x0, 1, [⟨23, 16, .ro, 16, .any, false⟩, ⟨15, 8, .ro, 12, .any, false⟩, ⟨7, 0, .ro, 32, .any, false⟩]⟩,
  ⟨"GLB_FAM_FLOW", 0x18, 1, 0x0, 1, 0x0, 1, [⟨31, 24, .ro, 128, .any, false⟩, ⟨23, 16, .ro, 16, .any, false⟩, ⟨15, 0, .ro, 1024, .any, false⟩]⟩,
  ⟨"GLB_FAM_ACT", 0x1C, 1, 0x0, 1, 0x0, 1, [⟨31, 24, .ro, 16, .any, false⟩, ⟨23, 16, .ro, 16, .any, false⟩, ⟨15, 8, .ro, 4, .any, false⟩, ⟨7, 0, .ro, 15, .any, false⟩]⟩,
  ⟨"GLB_FAM_QUEUE", 0x20, 1, 0x0, 1, 0x0, 1, [⟨31, 24, .ro, 18, .any, false⟩, ⟨23, 16, .ro, 16, .any, false⟩, ⟨15, 0, .ro, 4096, .any, false⟩]⟩,
  ⟨"GLB_FAM_MEM", 0x24, 1, 0x0, 1, 0x0, 1, [⟨31, 24, .ro, 6, .any, false⟩, ⟨23, 16, .ro, 16, .any, false⟩, ⟨15, 8, .ro, 2, .any, false⟩, ⟨7, 0, .ro, 24, .any, false⟩]⟩,
  ⟨"GLB_FAM_MISC", 0x28, 1, 0x0, 1, 0x0, 1, [⟨31, 24, .ro, 64, .any, false⟩, ⟨23, 16, .ro, 32, .any, false⟩, ⟨15, 8, .ro, 64, .any, false⟩, ⟨7, 4, .ro, 4, .any, false⟩]⟩,
  ⟨"GLB_FAM_TBL", 0x2C, 1, 0x0, 1, 0x0, 1, [⟨31, 24, .ro, 29, .any, false⟩, ⟨23, 16, .ro, 12, .any, false⟩, ⟨15, 8, .ro, 10, .any, false⟩, ⟨7, 0, .ro, 11, .any, false⟩]⟩,
  ⟨"GLB_STATUS", 0x40, 1, 0x0, 1, 0x0, 1, [⟨7, 7, .ro, 0, .any, false⟩, ⟨6, 6, .ro, 0, .any, false⟩, ⟨5, 5, .ro, 0, .any, false⟩, ⟨4, 4, .ro, 0, .any, false⟩, ⟨3, 3, .ro, 0, .any, false⟩, ⟨2, 2, .ro, 0, .any, false⟩, ⟨1, 1, .ro, 0, .any, false⟩, ⟨0, 0, .ro, 0, .any, false⟩]⟩,
  ⟨"GLB_REC_CTRL", 0x100, 1, 0x0, 1, 0x0, 1, [⟨7, 0, .rw, 0, .any, false⟩]⟩,
  ⟨"GLB_REC_GO", 0x104, 1, 0x0, 1, 0x0, 1, [⟨31, 31, .wo, 0, .any, true⟩, ⟨18, 16, .wo, 0, .any, true⟩, ⟨9, 0, .wo, 0, .any, true⟩]⟩,
  ⟨"GLB_REC_COUNT", 0x108, 1, 0x0, 1, 0x0, 1, [⟨26, 16, .ro, 0, .any, false⟩, ⟨10, 0, .ro, 0, .any, false⟩]⟩,
  ⟨"GLB_CNT_RECOVERED", 0x10C, 1, 0x0, 1, 0x0, 1, [⟨31, 0, .rc, 0, .any, false⟩]⟩,
  ⟨"GLB_REC_LAST", 0x110, 1, 0x0, 1, 0x0, 3, [⟨31, 24, .ro, 0, .any, false⟩, ⟨23, 21, .ro, 0, .any, false⟩, ⟨20, 20, .ro, 0, .any, false⟩, ⟨9, 0, .ro, 0, .any, false⟩]⟩,
  ⟨"GLB_REC_ACTIVE", 0x200, 60, 0x4, 1, 0x0, 1, [⟨31, 0, .ro, 0, .any, false⟩]⟩,
  ⟨"GLB_REC_STOPPED", 0x400, 60, 0x4, 1, 0x0, 1, [⟨31, 0, .ro, 0, .any, false⟩]⟩]

/-- Registers of block PLT. -/
def regsPlt : List RegRow := [
  ⟨"PLT_CMD", 0x10000, 1, 0x0, 1, 0x0, 1, [⟨24, 16, .wo, 0, .any, true⟩, ⟨15, 12, .wo, 0, .any, true⟩, ⟨11, 9, .wo, 0, .any, true⟩, ⟨8, 8, .wo, 0, .any, true⟩, ⟨7, 7, .wo, 0, .any, true⟩, ⟨6, 6, .wo, 0, .any, true⟩, ⟨5, 5, .wo, 0, .any, true⟩, ⟨3, 0, .wo, 0, .any, true⟩]⟩,
  ⟨"PLT_CMD_STATUS", 0x10004, 1, 0x0, 1, 0x0, 1, [⟨31, 31, .w1c, 0, .any, false⟩, ⟨30, 30, .ro, 0, .any, false⟩, ⟨29, 29, .w1c, 0, .any, false⟩, ⟨6, 4, .ro, 0, .any, false⟩, ⟨3, 0, .ro, 0, .any, false⟩]⟩,
  ⟨"PLT_CMD_TIME", 0x10008, 1, 0x0, 1, 0x0, 2, [⟨31, 0, .rw, 0, .any, false⟩]⟩,
  ⟨"PLT_STAGE_BASE", 0x10010, 1, 0x0, 1, 0x0, 2, [⟨31, 0, .ro, 0, .any, false⟩]⟩,
  ⟨"PLT_SRC_LEN", 0x10018, 1, 0x0, 1, 0x0, 1, [⟨31, 0, .rw, 0, .any, false⟩]⟩,
  ⟨"PLT_DRAIN_LIMIT", 0x1001C, 1, 0x0, 1, 0x0, 1, [⟨31, 0, .rw, 0, .range 10 100000, false⟩]⟩,
  ⟨"PLT_LOAD_STATUS", 0x10020, 1, 0x0, 1, 0x0, 1, [⟨27, 16, .ro, 4095, .any, false⟩, ⟨9, 8, .ro, 0, .any, false⟩, ⟨7, 0, .ro, 0, .any, false⟩]⟩,
  ⟨"PLT_CURRENT_ID", 0x10024, 1, 0x0, 1, 0x0, 1, [⟨31, 0, .ro, 0, .any, false⟩]⟩,
  ⟨"PLT_CURRENT_SERIAL", 0x10028, 1, 0x0, 1, 0x0, 2, [⟨31, 0, .ro, 0, .any, false⟩]⟩,
  ⟨"PLT_PENDING_ID", 0x10030, 1, 0x0, 1, 0x0, 1, [⟨31, 0, .ro, 0, .any, false⟩]⟩,
  ⟨"PLT_PENDING_SERIAL", 0x10034, 1, 0x0, 1, 0x0, 2, [⟨31, 0, .ro, 0, .any, false⟩]⟩,
  ⟨"PLT_FLOOR", 0x1003C, 1, 0x0, 1, 0x0, 2, [⟨31, 0, .ro, 0, .any, false⟩]⟩,
  ⟨"PLT_SLOT_STATUS", 0x10044, 1, 0x0, 1, 0x0, 1, [⟨7, 7, .ro, 0, .any, false⟩, ⟨6, 6, .ro, 0, .any, false⟩, ⟨5, 4, .ro, 0, .any, false⟩, ⟨3, 2, .ro, 0, .any, false⟩, ⟨1, 0, .ro, 0, .any, false⟩]⟩,
  ⟨"PLT_MIXED", 0x10048, 1, 0x0, 1, 0x0, 1, [⟨31, 0, .ro, 0, .any, false⟩]⟩,
  ⟨"PLT_SEED1", 0x10050, 1, 0x0, 1, 0x0, 1, [⟨31, 0, .po, 0, .any, false⟩]⟩,
  ⟨"PLT_SEED2", 0x10054, 1, 0x0, 1, 0x0, 1, [⟨31, 0, .po, 0, .any, false⟩]⟩,
  ⟨"PLT_SB_STATE", 0x10100, 8, 0x10, 1, 0x0, 1, [⟨31, 28, .ro, 0, .any, false⟩, ⟨27, 25, .ro, 0, .any, false⟩, ⟨24, 16, .ro, 0, .any, false⟩, ⟨15, 12, .ro, 0, .any, false⟩, ⟨11, 11, .ro, 0, .any, false⟩]⟩,
  ⟨"PLT_SB_TIME", 0x10108, 8, 0x10, 1, 0x0, 2, [⟨31, 0, .ro, 0, .any, false⟩]⟩]

/-- Registers of block SFL. -/
def regsSfl : List RegRow := [
  ⟨"SFL_STATUS", 0x20000, 1, 0x0, 1, 0x0, 1, [⟨31, 31, .so, 0, .any, false⟩, ⟨30, 30, .so, 0, .any, false⟩, ⟨29, 29, .so, 0, .any, false⟩, ⟨28, 28, .so, 0, .any, false⟩, ⟨27, 26, .so, 0, .any, false⟩, ⟨25, 25, .so, 0, .any, false⟩, ⟨15, 0, .so, 0, .any, false⟩]⟩,
  ⟨"SFL_POLICY_ID", 0x20004, 1, 0x0, 1, 0x0, 1, [⟨31, 0, .so, 0, .any, false⟩]⟩,
  ⟨"SFL_SERIAL", 0x20008, 1, 0x0, 1, 0x0, 2, [⟨31, 0, .so, 0, .any, false⟩]⟩,
  ⟨"SFL_FLOOR", 0x20010, 1, 0x0, 1, 0x0, 2, [⟨31, 0, .so, 0, .any, false⟩]⟩,
  ⟨"SFL_EVENTS", 0x20020, 1, 0x0, 1, 0x0, 1, [⟨4, 4, .rc, 0, .any, false⟩, ⟨3, 3, .rc, 0, .any, false⟩, ⟨2, 2, .rc, 0, .any, false⟩, ⟨1, 1, .rc, 0, .any, false⟩, ⟨0, 0, .rc, 0, .any, false⟩]⟩,
  ⟨"SFL_EVENT_EN", 0x20024, 1, 0x0, 1, 0x0, 1, [⟨31, 0, .so, 0, .any, false⟩]⟩,
  ⟨"SFL_LAST_DENIED0", 0x20030, 1, 0x0, 1, 0x0, 2, [⟨26, 0, .rc, 0, .any, false⟩]⟩,
  ⟨"SFL_CNT_DENIED_WRITE", 0x20040, 1, 0x0, 1, 0x0, 1, [⟨31, 0, .rc, 0, .any, false⟩]⟩,
  ⟨"SFL_CNT_TRIP", 0x20044, 1, 0x0, 1, 0x0, 1, [⟨31, 0, .rc, 0, .any, false⟩]⟩,
  ⟨"SFL_CNT_FREEZE", 0x20048, 1, 0x0, 1, 0x0, 1, [⟨31, 0, .rc, 0, .any, false⟩]⟩,
  ⟨"SFL_CNT_CP_DROP", 0x20080, 9, 0x4, 1, 0x0, 1, [⟨31, 0, .rc, 0, .any, false⟩]⟩,
  ⟨"SFL_POLICY", 0x24000, 4096, 0x4, 1, 0x0, 1, [⟨31, 0, .so, 0, .any, false⟩]⟩]

/-- Registers of block MGT. -/
def regsMgt0 : List RegRow := [
  ⟨"MGT_MP_STATUS", 0x30000, 1, 0x0, 1, 0x0, 1, [⟨31, 29, .ro, 1, .any, false⟩, ⟨28, 28, .ro, 0, .any, false⟩, ⟨27, 27, .ro, 0, .any, false⟩, ⟨15, 0, .ro, 0, .any, false⟩]⟩,
  ⟨"MGT_MP_CTRL", 0x30004, 1, 0x0, 1, 0x0, 1, [⟨31, 31, .w1s, 0, .any, true⟩, ⟨30, 30, .rw, 0, .any, false⟩, ⟨1, 0, .rw, 2, .any, false⟩]⟩,
  ⟨"MGT_EVENTS", 0x30008, 1, 0x0, 1, 0x0, 1, [⟨6, 6, .w1c, 0, .any, false⟩, ⟨5, 5, .w1c, 0, .any, false⟩, ⟨4, 4, .w1c, 0, .any, false⟩, ⟨3, 3, .w1c, 0, .any, false⟩, ⟨2, 2, .w1c, 0, .any, false⟩, ⟨1, 1, .w1c, 0, .any, false⟩, ⟨0, 0, .w1c, 0, .any, false⟩]⟩,
  ⟨"MGT_EVENT_EN", 0x3000C, 1, 0x0, 1, 0x0, 1, [⟨6, 6, .rw, 0, .any, false⟩, ⟨5, 5, .rw, 0, .any, false⟩, ⟨4, 4, .rw, 0, .any, false⟩, ⟨3, 3, .rw, 0, .any, false⟩, ⟨2, 2, .rw, 0, .any, false⟩, ⟨1, 1, .rw, 0, .any, false⟩, ⟨0, 0, .rw, 0, .any, false⟩]⟩,
  ⟨"MGT_PARK_CTRL", 0x30020, 1, 0x0, 1, 0x0, 1, [⟨16, 16, .rw, 0, .any, false⟩, ⟨15, 0, .rw, 65535, .any, false⟩]⟩,
  ⟨"MGT_PARK_STATUS", 0x30024, 1, 0x0, 1, 0x0, 1, [⟨31, 16, .ro, 0, .any, false⟩, ⟨15, 0, .ro, 0, .any, false⟩]⟩,
  ⟨"MGT_PARK_IDLE", 0x30028, 1, 0x0, 1, 0x0, 1, [⟨13, 0, .rw, 0, .range 1 10000, false⟩]⟩,
  ⟨"MGT_FLE_IDLE", 0x3002C, 1, 0x0, 1, 0x0, 1, [⟨15, 0, .rw, 0, .range 64 65535, false⟩]⟩,
  ⟨"MGT_MP_IDLE", 0x30030, 1, 0x0, 1, 0x0, 1, [⟨15, 0, .rw, 0, .any, false⟩]⟩,
  ⟨"MGT_CNT_PARK", 0x30034, 1, 0x0, 1, 0x0, 1, [⟨31, 0, .rc, 0, .any, false⟩]⟩,
  ⟨"MGT_CNT_OOB_DROP", 0x30038, 1, 0x0, 1, 0x0, 1, [⟨31, 0, .rc, 0, .any, false⟩]⟩,
  ⟨"MGT_MBX_CMD", 0x30100, 1, 0x0, 1, 0x0, 1, [⟨7, 0, .wo, 0, .any, true⟩]⟩,
  ⟨"MGT_MBX_STATUS", 0x30104, 1, 0x0, 1, 0x0, 1, [⟨31, 31, .w1c, 0, .any, false⟩, ⟨30, 30, .ro, 0, .any, false⟩, ⟨29, 29, .w1c, 0, .any, false⟩, ⟨15, 8, .ro, 0, .any, false⟩, ⟨3, 0, .ro, 0, .any, false⟩]⟩,
  ⟨"MGT_MBX_ARG", 0x30110, 4, 0x4, 1, 0x0, 1, [⟨31, 0, .rw, 0, .any, false⟩]⟩,
  ⟨"MGT_MBX_DATA", 0x30200, 64, 0x4, 1, 0x0, 1, [⟨31, 0, .rw, 0, .any, false⟩]⟩,
  ⟨"MGT_LOG_HEAD", 0x30400, 1, 0x0, 1, 0x0, 2, [⟨31, 0, .ro, 0, .any, false⟩]⟩,
  ⟨"MGT_LOG_STATUS", 0x30408, 1, 0x0, 1, 0x0, 1, [⟨31, 16, .ro, 0, .any, false⟩, ⟨10, 0, .ro, 0, .any, false⟩]⟩,
  ⟨"MGT_SNS_VAL", 0x31000, 60, 0x10, 1, 0x0, 1, [⟨19, 16, .ro, 0, .any, false⟩, ⟨15, 0, .ro, 0, .any, false⟩]⟩,
  ⟨"MGT_SNS_RANGE", 0x31004, 60, 0x10, 1, 0x0, 1, [⟨31, 16, .rc, 0, .any, false⟩, ⟨15, 0, .rc, 0, .any, false⟩]⟩,
  ⟨"MGT_SNS_THR", 0x31008, 60, 0x10, 1, 0x0, 1, [⟨31, 16, .rw, 0, .any, false⟩, ⟨15, 0, .rw, 0, .any, false⟩]⟩]

/-- Registers of block MGT. -/
def regsMgt1 : List RegRow := [
  ⟨"MGT_SNS_STAT", 0x3100C, 60, 0x10, 1, 0x0, 1, [⟨3, 3, .rw, 0, .any, false⟩, ⟨2, 2, .rw, 0, .any, false⟩, ⟨1, 1, .w1c, 0, .any, false⟩, ⟨0, 0, .w1c, 0, .any, false⟩]⟩,
  ⟨"MLNA_CTRL", 0x38000, 8, 0x400, 1, 0x0, 1, [⟨11, 10, .rw, 0, .any, false⟩, ⟨9, 9, .rw, 0, .any, false⟩, ⟨8, 8, .w1s, 0, .any, true⟩, ⟨7, 7, .w1s, 0, .any, true⟩, ⟨4, 4, .rw, 0, .any, false⟩, ⟨0, 0, .rw, 0, .any, true⟩]⟩,
  ⟨"MLNA_STATUS", 0x38004, 8, 0x400, 1, 0x0, 1, [⟨31, 28, .ro, 0, .any, false⟩, ⟨27, 26, .ro, 0, .any, false⟩, ⟨25, 22, .ro, 0, .any, false⟩, ⟨21, 21, .ro, 0, .any, false⟩, ⟨20, 20, .ro, 0, .any, false⟩, ⟨19, 19, .ro, 0, .any, false⟩, ⟨18, 18, .ro, 0, .any, false⟩, ⟨17, 17, .ro, 0, .any, false⟩, ⟨16, 16, .ro, 0, .any, false⟩]⟩,
  ⟨"MLNA_MODE", 0x38008, 8, 0x400, 1, 0x0, 1, [⟨7, 4, .ro, 0, .any, false⟩, ⟨3, 2, .po, 0, .any, false⟩, ⟨1, 0, .po, 0, .any, false⟩]⟩,
  ⟨"MLNA_TX_FFE", 0x3800C, 8, 0x400, 1, 0x0, 1, [⟨31, 24, .rw, 0, .any, true⟩, ⟨23, 16, .rw, 0, .any, true⟩, ⟨15, 8, .rw, 0, .any, true⟩, ⟨7, 0, .rw, 0, .any, true⟩]⟩,
  ⟨"MLNA_RX_EQ", 0x38010, 8, 0x400, 1, 0x0, 1, [⟨2, 2, .rw, 0, .any, false⟩, ⟨1, 1, .w1s, 0, .any, true⟩, ⟨0, 0, .rw, 1, .any, false⟩]⟩,
  ⟨"MLNA_RX_EQ_STATUS", 0x38014, 8, 0x400, 1, 0x0, 1, [⟨31, 24, .ro, 0, .any, false⟩, ⟨23, 16, .ro, 0, .any, false⟩, ⟨7, 0, .ro, 0, .any, false⟩]⟩,
  ⟨"MLNA_EVENTS", 0x38018, 8, 0x400, 1, 0x0, 1, [⟨6, 6, .w1c, 0, .any, false⟩, ⟨5, 5, .w1c, 0, .any, false⟩, ⟨4, 4, .w1c, 0, .any, false⟩, ⟨3, 3, .w1c, 0, .any, false⟩, ⟨2, 2, .w1c, 0, .any, false⟩, ⟨1, 1, .w1c, 0, .any, false⟩, ⟨0, 0, .w1c, 0, .any, false⟩]⟩,
  ⟨"MLNA_EVENT_EN", 0x3801C, 8, 0x400, 1, 0x0, 1, [⟨6, 6, .rw, 0, .any, false⟩, ⟨5, 5, .rw, 0, .any, false⟩, ⟨4, 4, .rw, 0, .any, false⟩, ⟨3, 3, .rw, 0, .any, false⟩, ⟨2, 2, .rw, 0, .any, false⟩, ⟨1, 1, .rw, 0, .any, false⟩, ⟨0, 0, .rw, 0, .any, false⟩]⟩,
  ⟨"MLNA_SC_STATUS", 0x38024, 8, 0x400, 1, 0x0, 1, [⟨31, 16, .ro, 0, .any, false⟩, ⟨15, 11, .ro, 0, .any, false⟩, ⟨10, 9, .ro, 0, .any, false⟩, ⟨8, 7, .ro, 0, .any, false⟩, ⟨6, 6, .ro, 0, .any, false⟩, ⟨5, 4, .ro, 0, .any, false⟩, ⟨3, 2, .ro, 0, .any, false⟩, ⟨1, 0, .ro, 0, .any, false⟩]⟩,
  ⟨"MLNA_PG_CTRL", 0x38080, 8, 0x400, 1, 0x0, 1, [⟨15, 11, .rw, 0, .any, false⟩, ⟨9, 9, .rw, 0, .any, false⟩, ⟨7, 4, .rw, 5, .any, false⟩, ⟨0, 0, .rw, 0, .any, true⟩]⟩,
  ⟨"MLNA_PG_USER", 0x38084, 8, 0x400, 1, 0x0, 2, [⟨31, 0, .rw, 0, .any, false⟩]⟩,
  ⟨"MLNA_PG_INJ", 0x3808C, 8, 0x400, 1, 0x0, 1, [⟨31, 24, .rw, 0, .any, false⟩, ⟨2, 2, .rw, 0, .any, false⟩, ⟨1, 1, .w1s, 0, .any, true⟩]⟩,
  ⟨"MLNA_PG_INJ_PERIOD", 0x38090, 8, 0x400, 1, 0x0, 1, [⟨31, 0, .rw, 0, .any, false⟩]⟩,
  ⟨"MLNA_PG_INJ_COUNT", 0x38094, 8, 0x400, 1, 0x0, 1, [⟨31, 0, .ro, 0, .any, false⟩]⟩,
  ⟨"MLNA_PC_CTRL", 0x380A0, 8, 0x400, 1, 0x0, 1, [⟨9, 9, .rw, 0, .any, false⟩, ⟨8, 8, .w1s, 0, .any, true⟩, ⟨7, 4, .rw, 5, .any, false⟩, ⟨0, 0, .rw, 0, .any, false⟩]⟩,
  ⟨"MLNA_PC_STATUS", 0x380A4, 8, 0x400, 1, 0x0, 1, [⟨1, 1, .w1c, 0, .any, false⟩, ⟨0, 0, .ro, 0, .any, false⟩]⟩,
  ⟨"MLNA_PC_ERR", 0x380A8, 8, 0x400, 1, 0x0, 2, [⟨31, 0, .ro, 0, .any, false⟩]⟩,
  ⟨"MLNA_PC_BITS", 0x380B0, 8, 0x400, 1, 0x0, 2, [⟨31, 0, .ro, 0, .any, false⟩]⟩,
  ⟨"MLNA_RX_ALIGN", 0x380C0, 8, 0x400, 1, 0x0, 1, [⟨16, 16, .rw, 0, .any, true⟩, ⟨8, 8, .w1s, 0, .any, true⟩, ⟨6, 0, .ro, 0, .any, false⟩]⟩]

/-- Registers of block MGT. -/
def regsMgt2 : List RegRow := [
  ⟨"MLNA_RX_CAP_CTRL", 0x380C4, 8, 0x400, 1, 0x0, 1, [⟨0, 0, .w1s, 0, .any, true⟩]⟩,
  ⟨"MLNA_RX_CAP", 0x380C8, 8, 0x400, 1, 0x0, 3, [⟨31, 0, .ro, 0, .any, false⟩]⟩,
  ⟨"MLNA_PIN_STATUS", 0x38100, 8, 0x400, 1, 0x0, 1, [⟨15, 12, .ro, 0, .any, false⟩, ⟨11, 8, .ro, 0, .any, false⟩, ⟨0, 0, .ro, 0, .any, false⟩]⟩,
  ⟨"MLNA_PIN_CTRL", 0x38104, 8, 0x400, 1, 0x0, 1, [⟨3, 2, .rw, 0, .any, false⟩, ⟨1, 1, .rw, 0, .any, false⟩, ⟨0, 0, .w1s, 0, .any, true⟩]⟩,
  ⟨"MLNA_DIM_COUNT", 0x38108, 8, 0x400, 1, 0x0, 1, [⟨31, 0, .rc, 0, .any, false⟩]⟩]

/-- Registers of block MGT. -/
def regsMgt : List RegRow := regsMgt0 ++ regsMgt1 ++ regsMgt2

/-- Registers of block TIM. -/
def regsTim0 : List RegRow := [
  ⟨"TIM_DT", 0x40000, 1, 0x0, 1, 0x0, 3, [⟨31, 0, .ro, 0, .any, false⟩]⟩,
  ⟨"TIM_PTP_NS", 0x40010, 1, 0x0, 1, 0x0, 3, [⟨29, 0, .ro, 0, .any, false⟩]⟩,
  ⟨"TIM_FT", 0x4001C, 1, 0x0, 1, 0x0, 1, [⟨31, 0, .ro, 0, .any, false⟩]⟩,
  ⟨"TIM_INCR", 0x40020, 1, 0x0, 1, 0x0, 2, [⟨31, 0, .rw, 0, .any, true⟩]⟩,
  ⟨"TIM_LATE_WINDOW", 0x40028, 1, 0x0, 1, 0x0, 1, [⟨19, 0, .rw, 0, .range 0 1000000, false⟩]⟩,
  ⟨"TIM_PDELAY_STEP", 0x4002C, 1, 0x0, 1, 0x0, 1, [⟨19, 0, .rw, 0, .any, false⟩]⟩,
  ⟨"TIM_PPS_OUT_OFS", 0x40030, 1, 0x0, 1, 0x0, 1, [⟨31, 0, .rw, 0, .any, false⟩]⟩,
  ⟨"TIM_CTRL", 0x40034, 1, 0x0, 1, 0x0, 1, [⟨1, 1, .rw, 0, .any, false⟩, ⟨0, 0, .rw, 0, .any, false⟩]⟩,
  ⟨"TIM_PPS_IN", 0x40038, 1, 0x0, 1, 0x0, 2, [⟨31, 0, .ro, 0, .any, false⟩]⟩,
  ⟨"TIM_SET", 0x40040, 1, 0x0, 1, 0x0, 3, [⟨31, 0, .rw, 0, .any, false⟩]⟩,
  ⟨"TIM_STEP", 0x40050, 1, 0x0, 1, 0x0, 2, [⟨31, 0, .rw, 0, .any, false⟩]⟩,
  ⟨"TIM_SLEW_DELTA", 0x40058, 1, 0x0, 1, 0x0, 2, [⟨31, 0, .rw, 0, .any, false⟩]⟩,
  ⟨"TIM_SLEW_TICKS", 0x40060, 1, 0x0, 1, 0x0, 1, [⟨31, 0, .rw, 1, .range 1 4294967295, false⟩]⟩,
  ⟨"TIM_STATUS", 0x40068, 1, 0x0, 1, 0x0, 1, [⟨7, 3, .ro, 0, .any, false⟩, ⟨2, 2, .ro, 0, .any, false⟩, ⟨1, 1, .ro, 0, .any, false⟩, ⟨0, 0, .ro, 0, .any, false⟩]⟩,
  ⟨"TIM_CMD", 0x40070, 1, 0x0, 1, 0x0, 1, [⟨7, 4, .wo, 0, .any, true⟩, ⟨3, 0, .wo, 0, .any, true⟩]⟩,
  ⟨"TIM_CMD_STATUS", 0x40074, 1, 0x0, 1, 0x0, 1, [⟨31, 31, .w1c, 0, .any, false⟩, ⟨30, 30, .ro, 0, .any, false⟩, ⟨29, 29, .w1c, 0, .any, false⟩, ⟨3, 0, .ro, 0, .any, false⟩]⟩,
  ⟨"TIM_EVENTS", 0x40078, 1, 0x0, 1, 0x0, 1, [⟨6, 6, .w1c, 0, .any, false⟩, ⟨5, 5, .w1c, 0, .any, false⟩, ⟨4, 4, .w1c, 0, .any, false⟩, ⟨3, 3, .w1c, 0, .any, false⟩, ⟨2, 2, .w1c, 0, .any, false⟩, ⟨1, 1, .w1c, 0, .any, false⟩, ⟨0, 0, .w1c, 0, .any, false⟩]⟩,
  ⟨"TIM_EVENT_EN", 0x4007C, 1, 0x0, 1, 0x0, 1, [⟨6, 6, .rw, 0, .any, false⟩, ⟨5, 5, .rw, 0, .any, false⟩, ⟨4, 4, .rw, 0, .any, false⟩, ⟨3, 3, .rw, 0, .any, false⟩, ⟨2, 2, .rw, 0, .any, false⟩, ⟨1, 1, .rw, 0, .any, false⟩, ⟨0, 0, .rw, 0, .any, false⟩]⟩,
  ⟨"TIM_SACT_TIME", 0x40400, 16, 0x20, 1, 0x0, 2, [⟨31, 0, .rw, 0, .any, false⟩]⟩,
  ⟨"TIM_SACT_ADDR", 0x40408, 16, 0x20, 1, 0x0, 1, [⟨26, 0, .rw, 0, .any, false⟩]⟩]

/-- Registers of block TIM. -/
def regsTim1 : List RegRow := [
  ⟨"TIM_SACT_VALUE", 0x4040C, 16, 0x20, 1, 0x0, 1, [⟨31, 0, .rw, 0, .any, false⟩]⟩,
  ⟨"TIM_SACT_MASK", 0x40410, 16, 0x20, 1, 0x0, 1, [⟨31, 0, .rw, 0, .any, false⟩]⟩,
  ⟨"TIM_SACT_STATE", 0x40414, 16, 0x20, 1, 0x0, 1, [⟨31, 28, .ro, 0, .any, false⟩, ⟨27, 26, .ro, 0, .any, false⟩]⟩,
  ⟨"TIM_PORT_CTRL", 0x48000, 512, 0x20, 1, 0x0, 1, [⟨2, 2, .w1c, 0, .any, false⟩, ⟨1, 1, .rw, 0, .any, false⟩, ⟨0, 0, .rw, 0, .any, false⟩]⟩,
  ⟨"TIM_PORT_ASYM", 0x48004, 512, 0x20, 1, 0x0, 1, [⟨31, 0, .rw, 0, .any, false⟩]⟩,
  ⟨"TIM_PORT_PDELAY", 0x48008, 512, 0x20, 1, 0x0, 1, [⟨31, 0, .rw, 0, .any, true⟩]⟩,
  ⟨"TIM_PORT_PDELAY_OLD", 0x4800C, 512, 0x20, 1, 0x0, 1, [⟨31, 0, .ro, 0, .any, false⟩]⟩,
  ⟨"TIM_PORT_RX_ADJ", 0x48010, 512, 0x20, 1, 0x0, 1, [⟨31, 0, .rw, 0, .any, false⟩]⟩,
  ⟨"TIM_PORT_TX_ADJ", 0x48014, 512, 0x20, 1, 0x0, 1, [⟨31, 0, .rw, 0, .any, false⟩]⟩,
  ⟨"TIM_PORT_CNT_TC", 0x48018, 512, 0x20, 1, 0x0, 1, [⟨31, 0, .rc, 0, .any, false⟩]⟩]

/-- Registers of block TIM. -/
def regsTim : List RegRow := regsTim0 ++ regsTim1

/-- Registers of block GNG. -/
def regsGng0 : List RegRow := [
  ⟨"GNG_CTRL", 0x50000, 1, 0x0, 1, 0x0, 1, [⟨1, 1, .rw, 0, .any, false⟩, ⟨0, 0, .rw, 0, .any, false⟩]⟩,
  ⟨"GNG_STATUS", 0x50004, 1, 0x0, 1, 0x0, 1, [⟨31, 29, .ro, 0, .any, false⟩, ⟨28, 27, .ro, 0, .any, false⟩, ⟨26, 23, .ro, 0, .any, false⟩, ⟨22, 22, .ro, 0, .any, false⟩, ⟨1, 0, .po, 0, .any, false⟩]⟩,
  ⟨"GNG_CMD", 0x50008, 1, 0x0, 1, 0x0, 1, [⟨3, 0, .wo, 0, .any, true⟩]⟩,
  ⟨"GNG_CMD_STATUS", 0x5000C, 1, 0x0, 1, 0x0, 1, [⟨31, 31, .w1c, 0, .any, false⟩, ⟨30, 30, .ro, 0, .any, false⟩, ⟨29, 29, .w1c, 0, .any, false⟩, ⟨3, 0, .ro, 0, .any, false⟩]⟩,
  ⟨"GNG_CMD_TIME", 0x50010, 1, 0x0, 1, 0x0, 2, [⟨31, 0, .rw, 0, .any, false⟩]⟩,
  ⟨"GNG_EPOCH", 0x50018, 1, 0x0, 1, 0x0, 1, [⟨31, 0, .ro, 0, .any, false⟩]⟩,
  ⟨"GNG_ROP_WAIT", 0x5001C, 1, 0x0, 1, 0x0, 1, [⟨13, 0, .rw, 0, .range 10 10000, false⟩]⟩,
  ⟨"GNG_LOSS", 0x50020, 1, 0x0, 1, 0x0, 1, [⟨13, 0, .rw, 0, .any, false⟩]⟩,
  ⟨"GNG_REPL", 0x50024, 1, 0x0, 1, 0x0, 1, [⟨27, 16, .rw, 0, .any, false⟩, ⟨5, 0, .rw, 0, .any, false⟩]⟩,
  ⟨"GNG_TIME_STEP", 0x50028, 1, 0x0, 1, 0x0, 1, [⟨19, 0, .rw, 0, .any, false⟩]⟩,
  ⟨"GNG_ITEM_CLASS", 0x5002C, 1, 0x0, 1, 0x0, 1, [⟨7, 0, .rw, 0, .any, false⟩]⟩,
  ⟨"GNG_EVENTS", 0x50030, 1, 0x0, 1, 0x0, 1, [⟨4, 4, .w1c, 0, .any, false⟩, ⟨3, 3, .w1c, 0, .any, false⟩, ⟨2, 2, .w1c, 0, .any, false⟩, ⟨1, 1, .w1c, 0, .any, false⟩, ⟨0, 0, .w1c, 0, .any, false⟩]⟩,
  ⟨"GNG_EVENT_EN", 0x50034, 1, 0x0, 1, 0x0, 1, [⟨4, 4, .rw, 0, .any, false⟩, ⟨3, 3, .rw, 0, .any, false⟩, ⟨2, 2, .rw, 0, .any, false⟩, ⟨1, 1, .rw, 0, .any, false⟩, ⟨0, 0, .rw, 0, .any, false⟩]⟩,
  ⟨"GNG_CNT_ITEM_LOST", 0x50038, 1, 0x0, 1, 0x0, 1, [⟨31, 0, .rc, 0, .any, false⟩]⟩,
  ⟨"GNG_CNT_ITEM_FAIL", 0x5003C, 1, 0x0, 1, 0x0, 1, [⟨31, 0, .rc, 0, .any, false⟩]⟩,
  ⟨"GNG_MAP", 0x50100, 16, 0x4, 1, 0x0, 1, [⟨31, 0, .ro, 0, .any, false⟩]⟩,
  ⟨"GNG_PEER_STATUS", 0x51000, 4, 0x100, 1, 0x0, 1, [⟨31, 30, .ro, 0, .any, false⟩, ⟨27, 24, .ro, 0, .any, false⟩, ⟨8, 0, .ro, 0, .any, false⟩]⟩,
  ⟨"GNG_PEER_ASYM", 0x51004, 4, 0x100, 1, 0x0, 1, [⟨31, 0, .rw, 0, .any, false⟩]⟩,
  ⟨"GNG_PEER_THETA", 0x51008, 4, 0x100, 1, 0x0, 2, [⟨31, 0, .ro, 0, .any, false⟩]⟩,
  ⟨"GNG_PEER_CNT_ROP", 0x51010, 4, 0x100, 1, 0x0, 1, [⟨31, 0, .rc, 0, .any, false⟩]⟩]

/-- Registers of block GNG. -/
def regsGng1 : List RegRow := [
  ⟨"GNG_PEER_CNT_TIMEOUT", 0x51014, 4, 0x100, 1, 0x0, 1, [⟨31, 0, .rc, 0, .any, false⟩]⟩,
  ⟨"GNG_PEER_CNT_LATE", 0x51018, 4, 0x100, 1, 0x0, 1, [⟨31, 0, .rc, 0, .any, false⟩]⟩,
  ⟨"GNG_PEER_CNT_NOT_OWNER", 0x5101C, 4, 0x100, 1, 0x0, 1, [⟨31, 0, .rc, 0, .any, false⟩]⟩,
  ⟨"GNG_PEER_CNT_DISCARD", 0x51020, 4, 0x100, 1, 0x0, 1, [⟨31, 0, .rc, 0, .any, false⟩]⟩,
  ⟨"GNG_PEER_CNT_REPL", 0x51024, 4, 0x100, 1, 0x0, 1, [⟨31, 0, .rc, 0, .any, false⟩]⟩,
  ⟨"GNG_PEER_CNT_REPL_LOST", 0x51028, 4, 0x100, 1, 0x0, 1, [⟨31, 0, .rc, 0, .any, false⟩]⟩,
  ⟨"GNG_PEER_CNT_REPL_FULL", 0x5102C, 4, 0x100, 1, 0x0, 1, [⟨31, 0, .rc, 0, .any, false⟩]⟩,
  ⟨"GNG_PEER_CNT_SEQ_GAP", 0x51030, 4, 0x100, 1, 0x0, 1, [⟨31, 0, .rc, 0, .any, false⟩]⟩,
  ⟨"GNG_PEER_CNT_OVERSIZE", 0x51034, 4, 0x100, 1, 0x0, 1, [⟨31, 0, .rc, 0, .any, false⟩]⟩,
  ⟨"GNG_PEER_CNT_FOREIGN", 0x51038, 4, 0x100, 1, 0x0, 1, [⟨31, 0, .rc, 0, .any, false⟩]⟩]

/-- Registers of block GNG. -/
def regsGng : List RegRow := regsGng0 ++ regsGng1

/-- Registers of block WDS. -/
def regsWds0 : List RegRow := [
  ⟨"WDS_CTRL", 0x60000, 1, 0x0, 1, 0x0, 1, [⟨0, 0, .rw, 0, .any, false⟩]⟩,
  ⟨"WDS_SLOTS_USED", 0x60004, 1, 0x0, 1, 0x0, 1, [⟨17, 0, .ro, 0, .any, false⟩]⟩,
  ⟨"WDS_SHARED_FREE", 0x60008, 1, 0x0, 1, 0x0, 1, [⟨17, 0, .ro, 0, .any, false⟩]⟩,
  ⟨"WDS_ATTACH_FREE", 0x6000C, 1, 0x0, 1, 0x0, 1, [⟨13, 0, .ro, 8192, .any, false⟩]⟩,
  ⟨"WDS_GATE_IDLE", 0x60010, 1, 0x0, 1, 0x0, 1, [⟨9, 0, .rw, 0, .range 1 1000, false⟩]⟩,
  ⟨"WDS_EVENTS", 0x60018, 1, 0x0, 1, 0x0, 1, [⟨4, 4, .w1c, 0, .any, false⟩, ⟨3, 3, .w1c, 0, .any, false⟩, ⟨2, 2, .w1c, 0, .any, false⟩, ⟨1, 1, .w1c, 0, .any, false⟩, ⟨0, 0, .w1c, 0, .any, false⟩]⟩,
  ⟨"WDS_EVENT_EN", 0x6001C, 1, 0x0, 1, 0x0, 1, [⟨4, 4, .rw, 0, .any, false⟩, ⟨3, 3, .rw, 0, .any, false⟩, ⟨2, 2, .rw, 0, .any, false⟩, ⟨1, 1, .rw, 0, .any, false⟩, ⟨0, 0, .rw, 0, .any, false⟩]⟩,
  ⟨"WDS_CNT_ABSENT", 0x60020, 1, 0x0, 1, 0x0, 1, [⟨31, 0, .rc, 0, .any, false⟩]⟩,
  ⟨"WDS_CL_AWAKE", 0x60024, 1, 0x0, 1, 0x0, 1, [⟨15, 0, .ro, 0, .any, false⟩]⟩,
  ⟨"WDS_HPOST_DATA", 0x60100, 16, 0x4, 1, 0x0, 1, [⟨31, 0, .rw, 0, .any, false⟩]⟩,
  ⟨"WDS_HPOST_CTRL", 0x60140, 1, 0x0, 1, 0x0, 1, [⟨8, 8, .w1s, 0, .any, true⟩, ⟨7, 7, .rw, 0, .any, false⟩, ⟨5, 0, .rw, 0, .any, false⟩]⟩,
  ⟨"WDS_HPOST_STATUS", 0x60144, 1, 0x0, 1, 0x0, 1, [⟨31, 31, .w1c, 0, .any, false⟩, ⟨30, 30, .w1c, 0, .any, false⟩, ⟨3, 0, .ro, 0, .any, false⟩]⟩,
  ⟨"WDS_CS_CTRL", 0x60200, 1, 0x0, 1, 0x0, 1, [⟨25, 16, .rw, 0, .range 0 511, false⟩, ⟨15, 8, .rw, 254, .any, false⟩, ⟨2, 1, .rw, 0, .any, false⟩, ⟨0, 0, .rw, 0, .any, false⟩]⟩,
  ⟨"WDS_CS_TRIGGER", 0x60204, 1, 0x0, 1, 0x0, 1, [⟨31, 20, .rw, 0, .any, false⟩, ⟨15, 12, .rw, 2, .any, false⟩, ⟨0, 0, .w1c, 0, .any, false⟩]⟩,
  ⟨"WDS_CS_CLASSES", 0x60208, 1, 0x0, 1, 0x0, 2, [⟨31, 0, .rw, 0, .any, false⟩]⟩,
  ⟨"WDS_CS_SAMPLE", 0x60210, 1, 0x0, 1, 0x0, 1, [⟨15, 0, .rw, 0, .any, false⟩]⟩,
  ⟨"WDS_CS_BUFFERED", 0x60214, 1, 0x0, 1, 0x0, 1, [⟨12, 0, .ro, 0, .any, false⟩]⟩,
  ⟨"WDS_CS_LOST", 0x60218, 1, 0x0, 1, 0x0, 1, [⟨31, 0, .rc, 0, .any, false⟩]⟩,
  ⟨"WDS_TMR_CTRL", 0x60400, 16, 0x80, 1, 0x0, 1, [⟨31, 31, .rw, 0, .any, false⟩, ⟨5, 0, .rw, 0, .any, false⟩]⟩,
  ⟨"WDS_TMR_PERIOD", 0x60404, 16, 0x80, 1, 0x0, 1, [⟨31, 0, .rw, 1000, .range 1 4294967295, false⟩]⟩]

/-- Registers of block WDS. -/
def regsWds1 : List RegRow := [
  ⟨"WDS_TMR_MISSED", 0x60408, 16, 0x80, 1, 0x0, 1, [⟨31, 0, .rc, 0, .any, false⟩]⟩,
  ⟨"WDS_TMR_DATA", 0x60440, 16, 0x80, 16, 0x4, 1, [⟨31, 0, .rw, 0, .any, false⟩]⟩,
  ⟨"WDS_CL_ENTRY", 0x61000, 64, 0x20, 1, 0x0, 1, [⟨31, 16, .rw, 0, .any, false⟩, ⟨15, 15, .po, 0, .any, false⟩, ⟨14, 0, .po, 0, .any, false⟩]⟩,
  ⟨"WDS_CL_MIN", 0x61004, 64, 0x20, 1, 0x0, 1, [⟨17, 0, .po, 0, .any, false⟩]⟩,
  ⟨"WDS_CL_MAX", 0x61008, 64, 0x20, 1, 0x0, 1, [⟨17, 0, .rw, 0, .any, false⟩]⟩,
  ⟨"WDS_CL_SCHED", 0x6100C, 64, 0x20, 1, 0x0, 1, [⟨31, 16, .rw, 0, .range 1 65535, false⟩, ⟨15, 8, .rw, 0, .range 1 255, false⟩, ⟨4, 4, .rw, 0, .any, false⟩, ⟨2, 0, .rw, 0, .any, false⟩]⟩,
  ⟨"WDS_CL_COUNT", 0x61010, 64, 0x20, 1, 0x0, 1, [⟨17, 0, .ro, 0, .any, false⟩]⟩,
  ⟨"WDS_CL_RUN", 0x61014, 64, 0x20, 1, 0x0, 1, [⟨10, 0, .ro, 0, .any, false⟩]⟩,
  ⟨"WDS_CL_CNT_DONE", 0x61018, 64, 0x20, 1, 0x0, 1, [⟨31, 0, .rc, 0, .any, false⟩]⟩,
  ⟨"WDS_CL_CNT_FAIL", 0x6101C, 64, 0x20, 1, 0x0, 1, [⟨31, 0, .rc, 0, .any, false⟩]⟩]

/-- Registers of block WDS. -/
def regsWds : List RegRow := regsWds0 ++ regsWds1

/-- Registers of block HST. -/
def regsHst0 : List RegRow := [
  ⟨"HST_MSIX_TBL", 0x80000, 2048, 0x10, 4, 0x4, 1, [⟨31, 0, .rw, 0, .any, true⟩]⟩,
  ⟨"HST_MSIX_PBA", 0x88000, 64, 0x4, 1, 0x0, 1, [⟨31, 0, .ro, 0, .any, false⟩]⟩,
  ⟨"HST_LINK_STATUS", 0x89000, 1, 0x0, 1, 0x0, 1, [⟨23, 20, .ro, 0, .any, false⟩, ⟨19, 15, .ro, 0, .any, false⟩, ⟨14, 14, .ro, 0, .any, false⟩, ⟨13, 13, .ro, 0, .any, false⟩, ⟨12, 12, .ro, 0, .any, false⟩]⟩,
  ⟨"HST_WIN_BASE", 0x89004, 1, 0x0, 1, 0x0, 1, [⟨7, 0, .rw, 140, .range 0 140, false⟩]⟩,
  ⟨"HST_ERR_CAUSE", 0x89008, 1, 0x0, 1, 0x0, 1, [⟨6, 6, .w1c, 0, .any, false⟩, ⟨5, 5, .w1c, 0, .any, false⟩, ⟨4, 4, .w1c, 0, .any, false⟩, ⟨3, 3, .w1c, 0, .any, false⟩, ⟨2, 2, .w1c, 0, .any, false⟩, ⟨1, 1, .w1c, 0, .any, false⟩, ⟨0, 0, .w1c, 0, .any, false⟩]⟩,
  ⟨"HST_ERR_EN", 0x8900C, 1, 0x0, 1, 0x0, 1, [⟨6, 6, .rw, 0, .any, false⟩, ⟨5, 5, .rw, 0, .any, false⟩, ⟨4, 4, .rw, 0, .any, false⟩, ⟨3, 3, .rw, 0, .any, false⟩, ⟨2, 2, .rw, 0, .any, false⟩, ⟨1, 1, .rw, 0, .any, false⟩, ⟨0, 0, .rw, 0, .any, false⟩]⟩,
  ⟨"HST_ERR_ADDR", 0x89010, 1, 0x0, 1, 0x0, 2, [⟨31, 0, .ro, 0, .any, false⟩]⟩,
  ⟨"HST_TW_LIMIT", 0x89018, 1, 0x0, 1, 0x0, 1, [⟨13, 0, .rw, 100, .range 1 10000, false⟩]⟩,
  ⟨"HST_RESET", 0x8901C, 1, 0x0, 1, 0x0, 1, [⟨31, 0, .wo, 0, .any, true⟩]⟩,
  ⟨"HST_CNT_PUNT_DROP", 0x89020, 1, 0x0, 1, 0x0, 1, [⟨31, 0, .rc, 0, .any, false⟩]⟩,
  ⟨"HST_CAUSE", 0x8A000, 64, 0x4, 1, 0x0, 1, [⟨31, 0, .ro, 0, .any, false⟩]⟩,
  ⟨"HST_SRC_VEC", 0x8C000, 2048, 0x4, 1, 0x0, 1, [⟨31, 31, .rw, 1, .any, false⟩, ⟨10, 0, .rw, 0, .any, false⟩]⟩,
  ⟨"HST_PUNT", 0x8E000, 16, 0x4, 1, 0x0, 1, [⟨31, 31, .rw, 0, .any, false⟩, ⟨18, 16, .rw, 0, .range 0 4, false⟩, ⟨8, 0, .rw, 0, .any, false⟩]⟩,
  ⟨"HST_RING_BASE", 0x90000, 1024, 0x20, 1, 0x0, 2, [⟨31, 0, .rw, 0, .any, false⟩]⟩,
  ⟨"HST_RING_CFG", 0x90008, 1024, 0x20, 1, 0x0, 1, [⟨31, 31, .rw, 0, .any, true⟩, ⟨30, 30, .rw, 0, .any, false⟩, ⟨27, 24, .rw, 6, .range 6 15, false⟩, ⟨10, 0, .rw, 0, .any, false⟩]⟩,
  ⟨"HST_RING_COAL", 0x9000C, 1024, 0x20, 1, 0x0, 1, [⟨31, 16, .rw, 0, .any, false⟩, ⟨15, 0, .rw, 0, .any, false⟩]⟩,
  ⟨"HST_RING_TAIL", 0x90010, 1024, 0x20, 1, 0x0, 1, [⟨15, 0, .rw, 0, .any, true⟩]⟩,
  ⟨"HST_RING_HEAD", 0x90014, 1024, 0x20, 1, 0x0, 1, [⟨15, 0, .ro, 0, .any, false⟩]⟩,
  ⟨"HST_RING_STATUS", 0x90018, 1024, 0x20, 1, 0x0, 1, [⟨31, 31, .ro, 1, .any, false⟩, ⟨30, 30, .w1c, 0, .any, false⟩]⟩,
  ⟨"HST_RING_CNT_DROP", 0x9001C, 1024, 0x20, 1, 0x0, 1, [⟨31, 0, .rc, 0, .any, false⟩]⟩]

/-- Registers of block HST. -/
def regsHst1 : List RegRow := [
  ⟨"HST_TW_CMD", 0xA0000, 4, 0x400, 1, 0x0, 1, [⟨23, 16, .wo, 0, .any, true⟩, ⟨3, 0, .wo, 0, .any, true⟩]⟩,
  ⟨"HST_TW_STATUS", 0xA0004, 4, 0x400, 1, 0x0, 1, [⟨31, 31, .w1c, 0, .any, false⟩, ⟨30, 30, .ro, 0, .any, false⟩, ⟨29, 29, .w1c, 0, .any, false⟩, ⟨15, 8, .ro, 0, .any, false⟩, ⟨3, 0, .ro, 0, .any, false⟩]⟩,
  ⟨"HST_TW_INDEX", 0xA0008, 4, 0x400, 1, 0x0, 1, [⟨31, 0, .rw, 0, .any, false⟩]⟩,
  ⟨"HST_TW_DATA", 0xA0100, 4, 0x400, 64, 0x4, 1, [⟨31, 0, .rw, 0, .any, false⟩]⟩]

/-- Registers of block HST. -/
def regsHst : List RegRow := regsHst0 ++ regsHst1

/-- Registers of block TEL. -/
def regsTel0 : List RegRow := [
  ⟨"TEL_PORT_CNT", 0x100000, 512, 0x400, 127, 0x8, 2, [⟨31, 0, .ro, 0, .any, false⟩]⟩,
  ⟨"TEL_PORT_CTRL", 0x1003F8, 512, 0x400, 1, 0x0, 1, [⟨1, 1, .ro, 0, .any, false⟩, ⟨0, 0, .w1s, 0, .any, true⟩]⟩,
  ⟨"TEL_EV_CNT", 0x180000, 4096, 0x8, 1, 0x0, 2, [⟨31, 0, .ro, 0, .any, false⟩]⟩,
  ⟨"TEL_EV_SEL", 0x188000, 4096, 0x8, 1, 0x0, 1, [⟨31, 28, .rw, 0, .any, false⟩, ⟨27, 10, .rw, 0, .any, false⟩, ⟨7, 0, .rw, 0, .any, false⟩]⟩,
  ⟨"TEL_EV_CTL", 0x188004, 4096, 0x8, 1, 0x0, 1, [⟨31, 31, .rw, 0, .any, false⟩, ⟨30, 30, .rw, 0, .any, false⟩, ⟨29, 29, .w1s, 0, .any, true⟩, ⟨28, 28, .w1c, 0, .any, false⟩, ⟨27, 27, .ro, 0, .any, false⟩]⟩,
  ⟨"TEL_RT_CNT", 0x190000, 1024, 0x8, 1, 0x0, 2, [⟨31, 0, .ro, 0, .any, false⟩]⟩,
  ⟨"TEL_EV_CTRL", 0x1A0000, 1, 0x0, 1, 0x0, 1, [⟨0, 0, .rw, 0, .any, true⟩]⟩,
  ⟨"TEL_EVENTS", 0x1A0008, 1, 0x0, 1, 0x0, 1, [⟨5, 5, .w1c, 0, .any, false⟩, ⟨4, 4, .w1c, 0, .any, false⟩, ⟨3, 3, .w1c, 0, .any, false⟩, ⟨2, 2, .w1c, 0, .any, false⟩, ⟨1, 1, .w1c, 0, .any, false⟩, ⟨0, 0, .w1c, 0, .any, false⟩]⟩,
  ⟨"TEL_EVENT_EN", 0x1A000C, 1, 0x0, 1, 0x0, 1, [⟨5, 5, .rw, 0, .any, false⟩, ⟨4, 4, .rw, 0, .any, false⟩, ⟨3, 3, .rw, 0, .any, false⟩, ⟨2, 2, .rw, 0, .any, false⟩, ⟨1, 1, .rw, 0, .any, false⟩, ⟨0, 0, .rw, 0, .any, false⟩]⟩,
  ⟨"TEL_GAP", 0x1A0100, 32, 0x4, 1, 0x0, 1, [⟨31, 0, .w1c, 0, .any, false⟩]⟩,
  ⟨"TEL_UPAGE_CTRL", 0x1A0180, 1, 0x0, 1, 0x0, 1, [⟨31, 31, .rw, 0, .any, false⟩, ⟨15, 0, .rw, 65535, .any, false⟩]⟩,
  ⟨"TEL_CNT_UNCORR", 0x1A0184, 1, 0x0, 1, 0x0, 1, [⟨31, 0, .rc, 0, .any, false⟩]⟩,
  ⟨"TEL_TS_CTRL", 0x1A0200, 1, 0x0, 1, 0x0, 1, [⟨31, 31, .rw, 0, .any, false⟩, ⟨25, 16, .rw, 0, .range 0 511, false⟩, ⟨5, 0, .rw, 0, .range 0 32, false⟩]⟩,
  ⟨"TEL_TS_SEED", 0x1A0204, 1, 0x0, 1, 0x0, 1, [⟨31, 0, .rw, 0, .any, true⟩]⟩,
  ⟨"TEL_TS_FORCE", 0x1A0208, 1, 0x0, 1, 0x0, 1, [⟨31, 31, .w1s, 0, .any, true⟩, ⟨8, 0, .rw, 0, .any, false⟩]⟩,
  ⟨"TEL_TS_INFLIGHT", 0x1A0210, 1, 0x0, 1, 0x0, 1, [⟨8, 0, .ro, 0, .any, false⟩]⟩,
  ⟨"TEL_TS_CNT_SEL", 0x1A0214, 1, 0x0, 1, 0x0, 1, [⟨31, 0, .rc, 0, .any, false⟩]⟩,
  ⟨"TEL_TS_CNT_SKIP", 0x1A0218, 1, 0x0, 1, 0x0, 1, [⟨31, 0, .rc, 0, .any, false⟩]⟩,
  ⟨"TEL_TS_CNT_LOST", 0x1A021C, 1, 0x0, 1, 0x0, 1, [⟨31, 0, .rc, 0, .any, false⟩]⟩,
  ⟨"TEL_TS_PORTS", 0x1A0240, 16, 0x4, 1, 0x0, 1, [⟨31, 0, .rw, 4294967295, .any, false⟩]⟩]

/-- Registers of block TEL. -/
def regsTel1 : List RegRow := [
  ⟨"TEL_SM_CTRL", 0x1A0300, 1, 0x0, 1, 0x0, 1, [⟨31, 31, .rw, 0, .any, false⟩, ⟨25, 16, .rw, 0, .any, false⟩, ⟨15, 0, .rw, 0, .any, false⟩]⟩,
  ⟨"TEL_SM_CLASSES", 0x1A0304, 1, 0x0, 1, 0x0, 2, [⟨31, 0, .rw, 0, .any, false⟩]⟩,
  ⟨"TEL_SM_CNT_SKIP", 0x1A030C, 1, 0x0, 1, 0x0, 1, [⟨31, 0, .rc, 0, .any, false⟩]⟩,
  ⟨"TEL_SM_CNT_LOST", 0x1A0310, 1, 0x0, 1, 0x0, 1, [⟨31, 0, .rc, 0, .any, false⟩]⟩,
  ⟨"TEL_EXP_CTRL", 0x1A0400, 1, 0x0, 1, 0x0, 1, [⟨31, 31, .rw, 0, .any, false⟩, ⟨30, 30, .rw, 0, .any, false⟩, ⟨29, 29, .rw, 0, .any, false⟩, ⟨25, 16, .rw, 0, .any, false⟩, ⟨5, 0, .rw, 0, .any, false⟩]⟩,
  ⟨"TEL_EXP_ACTIVE", 0x1A0404, 1, 0x0, 1, 0x0, 1, [⟨9, 0, .rw, 0, .range 0 1000, false⟩]⟩,
  ⟨"TEL_EXP_RATE", 0x1A0408, 1, 0x0, 1, 0x0, 1, [⟨31, 0, .rw, 0, .any, false⟩]⟩,
  ⟨"TEL_EXP_BURST", 0x1A040C, 1, 0x0, 1, 0x0, 1, [⟨15, 0, .rw, 1024, .range 1 65535, false⟩]⟩,
  ⟨"TEL_EXP_DOMAIN", 0x1A0410, 1, 0x0, 1, 0x0, 1, [⟨31, 0, .rw, 0, .any, false⟩]⟩,
  ⟨"TEL_EXP_MSG_MAX", 0x1A0414, 1, 0x0, 1, 0x0, 1, [⟨13, 0, .rw, 0, .range 256 9000, false⟩]⟩,
  ⟨"TEL_EXP_FLUSH", 0x1A0418, 1, 0x0, 1, 0x0, 1, [⟨19, 0, .rw, 1000, .range 1 1048575, false⟩]⟩,
  ⟨"TEL_EXP_TMPL", 0x1A041C, 1, 0x0, 1, 0x0, 1, [⟨11, 0, .rw, 0, .any, false⟩]⟩,
  ⟨"TEL_EXP_UTC_OFS", 0x1A0420, 1, 0x0, 1, 0x0, 1, [⟨7, 0, .rw, 0, .any, false⟩]⟩,
  ⟨"TEL_EXP_OUT", 0x1A0424, 1, 0x0, 1, 0x0, 1, [⟨19, 16, .rw, 0, .any, false⟩, ⟨8, 0, .rw, 0, .any, false⟩]⟩,
  ⟨"TEL_EXP_HDR_INFO", 0x1A0428, 1, 0x0, 1, 0x0, 1, [⟨23, 16, .rw, 0, .any, false⟩, ⟨15, 8, .rw, 0, .any, false⟩, ⟨7, 0, .rw, 0, .any, false⟩]⟩,
  ⟨"TEL_EXP_QUEUED", 0x1A042C, 1, 0x0, 1, 0x0, 1, [⟨16, 0, .ro, 0, .any, false⟩]⟩,
  ⟨"TEL_EXP_CNT_RECORDS", 0x1A0440, 1, 0x0, 1, 0x0, 1, [⟨31, 0, .rc, 0, .any, false⟩]⟩,
  ⟨"TEL_EXP_CNT_MSGS", 0x1A0444, 1, 0x0, 1, 0x0, 1, [⟨31, 0, .rc, 0, .any, false⟩]⟩,
  ⟨"TEL_EXP_CNT_LOST", 0x1A0448, 1, 0x0, 1, 0x0, 1, [⟨31, 0, .rc, 0, .any, false⟩]⟩,
  ⟨"TEL_EXP_CNT_SCAN_LATE", 0x1A044C, 1, 0x0, 1, 0x0, 1, [⟨31, 0, .rc, 0, .any, false⟩]⟩]

/-- Registers of block TEL. -/
def regsTel2 : List RegRow := [
  ⟨"TEL_EXP_HDR", 0x1A0480, 16, 0x4, 1, 0x0, 1, [⟨31, 0, .rw, 0, .any, false⟩]⟩]

/-- Registers of block TEL. -/
def regsTel : List RegRow := regsTel0 ++ regsTel1 ++ regsTel2

/-- Registers of block LNA. -/
def regsLna0 : List RegRow := [
  ⟨"LNA_CTRL", 0x200000, 1024, 0x400, 1, 0x0, 1, [⟨11, 10, .rw, 0, .any, false⟩, ⟨9, 9, .rw, 0, .any, false⟩, ⟨8, 8, .w1s, 0, .any, true⟩, ⟨7, 7, .w1s, 0, .any, true⟩, ⟨4, 4, .rw, 0, .any, false⟩, ⟨0, 0, .rw, 0, .any, true⟩]⟩,
  ⟨"LNA_STATUS", 0x200004, 1024, 0x400, 1, 0x0, 1, [⟨31, 28, .ro, 0, .any, false⟩, ⟨27, 26, .ro, 0, .any, false⟩, ⟨25, 22, .ro, 0, .any, false⟩, ⟨21, 21, .ro, 0, .any, false⟩, ⟨20, 20, .ro, 0, .any, false⟩, ⟨19, 19, .ro, 0, .any, false⟩, ⟨18, 18, .ro, 0, .any, false⟩, ⟨17, 17, .ro, 0, .any, false⟩, ⟨16, 16, .ro, 0, .any, false⟩]⟩,
  ⟨"LNA_MODE", 0x200008, 1024, 0x400, 1, 0x0, 1, [⟨7, 4, .ro, 0, .any, false⟩, ⟨3, 2, .po, 0, .any, false⟩, ⟨1, 0, .po, 0, .any, false⟩]⟩,
  ⟨"LNA_TX_FFE", 0x20000C, 1024, 0x400, 1, 0x0, 1, [⟨31, 24, .rw, 0, .any, true⟩, ⟨23, 16, .rw, 0, .any, true⟩, ⟨15, 8, .rw, 0, .any, true⟩, ⟨7, 0, .rw, 0, .any, true⟩]⟩,
  ⟨"LNA_RX_EQ", 0x200010, 1024, 0x400, 1, 0x0, 1, [⟨2, 2, .rw, 0, .any, false⟩, ⟨1, 1, .w1s, 0, .any, true⟩, ⟨0, 0, .rw, 1, .any, false⟩]⟩,
  ⟨"LNA_RX_EQ_STATUS", 0x200014, 1024, 0x400, 1, 0x0, 1, [⟨31, 24, .ro, 0, .any, false⟩, ⟨23, 16, .ro, 0, .any, false⟩, ⟨7, 0, .ro, 0, .any, false⟩]⟩,
  ⟨"LNA_EVENTS", 0x200018, 1024, 0x400, 1, 0x0, 1, [⟨6, 6, .w1c, 0, .any, false⟩, ⟨5, 5, .w1c, 0, .any, false⟩, ⟨4, 4, .w1c, 0, .any, false⟩, ⟨3, 3, .w1c, 0, .any, false⟩, ⟨2, 2, .w1c, 0, .any, false⟩, ⟨1, 1, .w1c, 0, .any, false⟩, ⟨0, 0, .w1c, 0, .any, false⟩]⟩,
  ⟨"LNA_EVENT_EN", 0x20001C, 1024, 0x400, 1, 0x0, 1, [⟨6, 6, .rw, 0, .any, false⟩, ⟨5, 5, .rw, 0, .any, false⟩, ⟨4, 4, .rw, 0, .any, false⟩, ⟨3, 3, .rw, 0, .any, false⟩, ⟨2, 2, .rw, 0, .any, false⟩, ⟨1, 1, .rw, 0, .any, false⟩, ⟨0, 0, .rw, 0, .any, false⟩]⟩,
  ⟨"LNA_SC_CTRL", 0x200020, 1024, 0x400, 1, 0x0, 1, [⟨1, 0, .rw, 0, .any, false⟩]⟩,
  ⟨"LNA_SC_STATUS", 0x200024, 1024, 0x400, 1, 0x0, 1, [⟨31, 16, .ro, 0, .any, false⟩, ⟨15, 11, .ro, 0, .any, false⟩, ⟨10, 9, .ro, 0, .any, false⟩, ⟨8, 7, .ro, 0, .any, false⟩, ⟨6, 6, .ro, 0, .any, false⟩, ⟨5, 4, .ro, 0, .any, false⟩, ⟨3, 2, .ro, 0, .any, false⟩, ⟨1, 0, .ro, 0, .any, false⟩]⟩,
  ⟨"LNA_SC_PARTNER", 0x200028, 1024, 0x400, 3, 0x4, 1, [⟨31, 0, .ro, 0, .any, false⟩]⟩,
  ⟨"LNA_SC_QUAL_LIMIT", 0x200034, 1024, 0x400, 1, 0x0, 1, [⟨31, 0, .rw, 2814705668, .any, false⟩]⟩,
  ⟨"LNA_SC_LAST_ERR", 0x200038, 1024, 0x400, 1, 0x0, 1, [⟨31, 0, .ro, 0, .any, false⟩]⟩,
  ⟨"LNA_PG_CTRL", 0x200080, 1024, 0x400, 1, 0x0, 1, [⟨15, 11, .rw, 0, .any, false⟩, ⟨9, 9, .rw, 0, .any, false⟩, ⟨7, 4, .rw, 5, .any, false⟩, ⟨0, 0, .rw, 0, .any, true⟩]⟩,
  ⟨"LNA_PG_USER", 0x200084, 1024, 0x400, 1, 0x0, 2, [⟨31, 0, .rw, 0, .any, false⟩]⟩,
  ⟨"LNA_PG_INJ", 0x20008C, 1024, 0x400, 1, 0x0, 1, [⟨31, 24, .rw, 0, .any, false⟩, ⟨2, 2, .rw, 0, .any, false⟩, ⟨1, 1, .w1s, 0, .any, true⟩]⟩,
  ⟨"LNA_PG_INJ_PERIOD", 0x200090, 1024, 0x400, 1, 0x0, 1, [⟨31, 0, .rw, 0, .any, false⟩]⟩,
  ⟨"LNA_PG_INJ_COUNT", 0x200094, 1024, 0x400, 1, 0x0, 1, [⟨31, 0, .ro, 0, .any, false⟩]⟩,
  ⟨"LNA_PC_CTRL", 0x2000A0, 1024, 0x400, 1, 0x0, 1, [⟨9, 9, .rw, 0, .any, false⟩, ⟨8, 8, .w1s, 0, .any, true⟩, ⟨7, 4, .rw, 5, .any, false⟩, ⟨0, 0, .rw, 0, .any, false⟩]⟩,
  ⟨"LNA_PC_STATUS", 0x2000A4, 1024, 0x400, 1, 0x0, 1, [⟨1, 1, .w1c, 0, .any, false⟩, ⟨0, 0, .ro, 0, .any, false⟩]⟩]

/-- Registers of block LNA. -/
def regsLna1 : List RegRow := [
  ⟨"LNA_PC_ERR", 0x2000A8, 1024, 0x400, 1, 0x0, 2, [⟨31, 0, .ro, 0, .any, false⟩]⟩,
  ⟨"LNA_PC_BITS", 0x2000B0, 1024, 0x400, 1, 0x0, 2, [⟨31, 0, .ro, 0, .any, false⟩]⟩,
  ⟨"LNA_RX_ALIGN", 0x2000C0, 1024, 0x400, 1, 0x0, 1, [⟨16, 16, .rw, 0, .any, true⟩, ⟨8, 8, .w1s, 0, .any, true⟩, ⟨6, 0, .ro, 0, .any, false⟩]⟩,
  ⟨"LNA_RX_CAP_CTRL", 0x2000C4, 1024, 0x400, 1, 0x0, 1, [⟨0, 0, .w1s, 0, .any, true⟩]⟩,
  ⟨"LNA_RX_CAP", 0x2000C8, 1024, 0x400, 1, 0x0, 3, [⟨31, 0, .ro, 0, .any, false⟩]⟩,
  ⟨"LNA_PIN_STATUS", 0x200100, 1024, 0x400, 1, 0x0, 1, [⟨15, 12, .ro, 0, .any, false⟩, ⟨11, 8, .ro, 0, .any, false⟩, ⟨0, 0, .ro, 0, .any, false⟩]⟩,
  ⟨"LNA_PIN_CTRL", 0x200104, 1024, 0x400, 1, 0x0, 1, [⟨3, 2, .rw, 0, .any, false⟩, ⟨1, 1, .rw, 0, .any, false⟩, ⟨0, 0, .w1s, 0, .any, true⟩]⟩,
  ⟨"LNA_DIM_COUNT", 0x200108, 1024, 0x400, 1, 0x0, 1, [⟨31, 0, .rc, 0, .any, false⟩]⟩]

/-- Registers of block LNA. -/
def regsLna : List RegRow := regsLna0 ++ regsLna1

/-- Registers of block PRT. -/
def regsPrt0 : List RegRow := [
  ⟨"PRT_CFG", 0x300000, 512, 0x1000, 1, 0x0, 1, [⟨25, 24, .rw, 0, .any, false⟩, ⟨23, 23, .po, 0, .any, false⟩, ⟨22, 22, .rw, 0, .any, false⟩, ⟨21, 21, .rw, 0, .any, false⟩, ⟨20, 20, .po, 0, .any, false⟩, ⟨19, 18, .po, 0, .any, false⟩, ⟨17, 16, .po, 0, .any, false⟩, ⟨12, 8, .po, 0, .any, false⟩, ⟨0, 0, .rw, 0, .any, false⟩]⟩,
  ⟨"PRT_MAXFRAME", 0x300004, 512, 0x1000, 1, 0x0, 1, [⟨13, 0, .rw, 0, .range 64 12288, false⟩]⟩,
  ⟨"PRT_STATUS", 0x300008, 512, 0x1000, 1, 0x0, 1, [⟨31, 28, .ro, 0, .any, false⟩, ⟨27, 24, .ro, 0, .any, false⟩, ⟨23, 22, .ro, 0, .any, false⟩, ⟨21, 21, .ro, 0, .any, false⟩, ⟨20, 20, .ro, 0, .any, false⟩, ⟨19, 19, .ro, 0, .any, false⟩, ⟨18, 18, .ro, 0, .any, false⟩, ⟨17, 17, .ro, 0, .any, false⟩, ⟨16, 16, .ro, 0, .any, false⟩]⟩,
  ⟨"PRT_EVENTS", 0x30000C, 512, 0x1000, 1, 0x0, 1, [⟨7, 7, .w1c, 0, .any, false⟩, ⟨6, 6, .w1c, 0, .any, false⟩, ⟨5, 5, .w1c, 0, .any, false⟩, ⟨4, 4, .w1c, 0, .any, false⟩, ⟨3, 3, .w1c, 0, .any, false⟩, ⟨2, 2, .w1c, 0, .any, false⟩, ⟨1, 1, .w1c, 0, .any, false⟩, ⟨0, 0, .w1c, 0, .any, false⟩]⟩,
  ⟨"PRT_EVENT_EN", 0x300010, 512, 0x1000, 1, 0x0, 1, [⟨7, 7, .rw, 0, .any, false⟩, ⟨6, 6, .rw, 0, .any, false⟩, ⟨5, 5, .rw, 0, .any, false⟩, ⟨4, 4, .rw, 0, .any, false⟩, ⟨3, 3, .rw, 0, .any, false⟩, ⟨2, 2, .rw, 0, .any, false⟩, ⟨1, 1, .rw, 0, .any, false⟩, ⟨0, 0, .rw, 0, .any, false⟩]⟩,
  ⟨"PRT_GIVEUP", 0x300014, 512, 0x1000, 1, 0x0, 1, [⟨7, 0, .rw, 0, .any, false⟩]⟩,
  ⟨"PRT_CTRL", 0x300018, 512, 0x1000, 1, 0x0, 1, [⟨0, 0, .w1s, 0, .any, true⟩]⟩,
  ⟨"PRT_LPI", 0x300020, 512, 0x1000, 1, 0x0, 1, [⟨31, 16, .rw, 3, .range 3 1000, false⟩, ⟨15, 0, .rw, 0, .any, false⟩]⟩,
  ⟨"PRT_PFC_MAP", 0x300040, 512, 0x1000, 4, 0x4, 1, [⟨31, 16, .rw, 65535, .any, false⟩, ⟨15, 0, .rw, 65535, .any, false⟩]⟩,
  ⟨"PRT_CVU_CTRL", 0x300100, 512, 0x1000, 2, 0x40, 1, [⟨31, 16, .rw, 0, .any, false⟩, ⟨13, 12, .rw, 0, .any, false⟩, ⟨11, 10, .rw, 0, .any, false⟩, ⟨9, 9, .rw, 0, .any, false⟩, ⟨8, 8, .rw, 0, .any, false⟩, ⟨0, 0, .rw, 0, .any, false⟩]⟩,
  ⟨"PRT_CVU_WIN", 0x300104, 512, 0x1000, 2, 0x40, 1, [⟨31, 16, .rw, 0, .any, false⟩, ⟨13, 0, .rw, 0, .any, false⟩]⟩,
  ⟨"PRT_CVU_INIT", 0x300108, 512, 0x1000, 2, 0x40, 1, [⟨31, 0, .rw, 4294967295, .any, false⟩]⟩,
  ⟨"PRT_CVU_RUN", 0x30010C, 512, 0x1000, 2, 0x40, 1, [⟨31, 0, .rw, 0, .any, true⟩]⟩,
  ⟨"PRT_CVU_LAST", 0x300110, 512, 0x1000, 2, 0x40, 1, [⟨31, 0, .ro, 0, .any, false⟩]⟩,
  ⟨"PRT_CVU_FRAMES", 0x300114, 512, 0x1000, 2, 0x40, 1, [⟨31, 0, .ro, 0, .any, false⟩]⟩,
  ⟨"PRT_CVU_MISMATCH", 0x300118, 512, 0x1000, 2, 0x40, 1, [⟨31, 0, .rc, 0, .any, false⟩]⟩,
  ⟨"PRT_SITE_CTRL", 0x300C00, 128, 0x4000, 1, 0x0, 1, [⟨23, 16, .rw, 0, .any, false⟩, ⟨11, 10, .rw, 0, .any, false⟩, ⟨9, 9, .rw, 0, .any, false⟩, ⟨8, 8, .rw, 0, .any, false⟩, ⟨3, 3, .rw, 0, .any, false⟩, ⟨2, 2, .rw, 0, .any, false⟩, ⟨0, 0, .rw, 0, .any, false⟩]⟩,
  ⟨"PRT_SITE_STATUS", 0x300C04, 128, 0x4000, 1, 0x0, 1, [⟨31, 28, .ro, 0, .any, false⟩, ⟨27, 27, .ro, 0, .any, false⟩, ⟨26, 26, .ro, 1, .any, false⟩, ⟨25, 25, .ro, 0, .any, false⟩, ⟨24, 24, .ro, 1, .any, false⟩, ⟨23, 16, .ro, 0, .any, false⟩, ⟨15, 8, .ro, 0, .any, false⟩]⟩,
  ⟨"PRT_SITE_EVENTS", 0x300C08, 128, 0x4000, 1, 0x0, 1, [⟨7, 7, .w1c, 0, .any, false⟩, ⟨6, 6, .w1c, 0, .any, false⟩, ⟨5, 5, .w1c, 0, .any, false⟩, ⟨4, 4, .w1c, 0, .any, false⟩, ⟨3, 3, .w1c, 0, .any, false⟩, ⟨2, 2, .w1c, 0, .any, false⟩, ⟨1, 1, .w1c, 0, .any, false⟩, ⟨0, 0, .w1c, 0, .any, false⟩]⟩,
  ⟨"PRT_SITE_EVENT_EN", 0x300C0C, 128, 0x4000, 1, 0x0, 1, [⟨7, 7, .rw, 0, .any, false⟩, ⟨6, 6, .rw, 0, .any, false⟩, ⟨5, 5, .rw, 0, .any, false⟩, ⟨4, 4, .rw, 0, .any, false⟩, ⟨3, 3, .rw, 0, .any, false⟩, ⟨2, 2, .rw, 0, .any, false⟩, ⟨1, 1, .rw, 0, .any, false⟩, ⟨0, 0, .rw, 0, .any, false⟩]⟩]

/-- Registers of block PRT. -/
def regsPrt1 : List RegRow := [
  ⟨"PRT_SITE_XFER", 0x300C10, 128, 0x4000, 1, 0x0, 1, [⟨7, 4, .ro, 0, .any, false⟩, ⟨3, 3, .w1c, 0, .any, false⟩, ⟨2, 2, .rw, 0, .any, false⟩, ⟨0, 0, .w1s, 0, .any, true⟩]⟩,
  ⟨"PRT_SITE_XFER_ADDR", 0x300C14, 128, 0x4000, 1, 0x0, 1, [⟨31, 24, .rw, 0, .any, false⟩, ⟨23, 16, .rw, 0, .any, false⟩, ⟨15, 8, .rw, 0, .any, false⟩, ⟨7, 0, .rw, 0, .any, false⟩]⟩,
  ⟨"PRT_SITE_MON", 0x300C18, 128, 0x4000, 1, 0x0, 1, [⟨31, 16, .ro, 0, .any, false⟩, ⟨15, 0, .ro, 0, .any, false⟩]⟩,
  ⟨"PRT_SITE_DATA", 0x300C40, 128, 0x4000, 32, 0x4, 1, [⟨31, 0, .rw, 0, .any, false⟩]⟩,
  ⟨"PRT_SITE_FLAGS", 0x300D00, 128, 0x4000, 8, 0x4, 1, [⟨31, 0, .w1c, 0, .any, false⟩]⟩]

/-- Registers of block PRT. -/
def regsPrt : List RegRow := regsPrt0 ++ regsPrt1

/-- Registers of block PAR. -/
def regsPar : List RegRow := [
  ⟨"PAR_CTRL", 0x500000, 16, 0x10000, 1, 0x0, 1, [⟨7, 6, .rw, 0, .any, false⟩, ⟨5, 4, .rw, 0, .any, false⟩, ⟨3, 2, .rw, 0, .any, false⟩, ⟨1, 0, .rw, 0, .any, false⟩]⟩,
  ⟨"PAR_PROG_INFO", 0x500004, 16, 0x10000, 1, 0x0, 1, [⟨31, 31, .ro, 0, .any, false⟩, ⟨25, 16, .ro, 0, .any, false⟩, ⟨10, 0, .ro, 0, .any, false⟩]⟩,
  ⟨"PAR_STATUS", 0x500008, 16, 0x10000, 1, 0x0, 1, [⟨11, 0, .ro, 0, .any, false⟩]⟩,
  ⟨"PAR_EVENTS", 0x50000C, 16, 0x10000, 1, 0x0, 1, [⟨2, 2, .w1c, 0, .any, false⟩, ⟨1, 1, .w1c, 0, .any, false⟩, ⟨0, 0, .w1c, 0, .any, false⟩]⟩,
  ⟨"PAR_EVENT_EN", 0x500010, 16, 0x10000, 1, 0x0, 1, [⟨2, 2, .rw, 0, .any, false⟩, ⟨1, 1, .rw, 0, .any, false⟩, ⟨0, 0, .rw, 0, .any, false⟩]⟩,
  ⟨"PAR_DEPTH", 0x500020, 16, 0x10000, 4, 0x4, 1, [⟨31, 22, .rw, 0, .rangeOrZero 64 512, false⟩, ⟨21, 15, .rw, 0, .range 0 64, false⟩, ⟨14, 10, .rw, 0, .range 0 16, false⟩, ⟨9, 6, .rw, 0, .range 0 8, false⟩, ⟨5, 4, .rw, 0, .any, false⟩]⟩,
  ⟨"PAR_PORT_ENTRY", 0x500100, 16, 0x10000, 32, 0x4, 1, [⟨13, 12, .po, 0, .any, false⟩, ⟨9, 0, .po, 0, .any, false⟩]⟩,
  ⟨"PAR_CNT_DEPTH", 0x500200, 16, 0x10000, 1, 0x0, 1, [⟨31, 0, .rc, 0, .any, false⟩]⟩,
  ⟨"PAR_CNT_LEN", 0x500204, 16, 0x10000, 1, 0x0, 1, [⟨31, 0, .rc, 0, .any, false⟩]⟩,
  ⟨"PAR_CNT_TRUNC", 0x500208, 16, 0x10000, 1, 0x0, 1, [⟨31, 0, .rc, 0, .any, false⟩]⟩,
  ⟨"PAR_CNT_BAD", 0x50020C, 16, 0x10000, 1, 0x0, 1, [⟨31, 0, .rc, 0, .any, false⟩]⟩,
  ⟨"PAR_CNT_NOKEY", 0x500210, 16, 0x10000, 1, 0x0, 1, [⟨31, 0, .rc, 0, .any, false⟩]⟩,
  ⟨"PAR_CNT_FULL", 0x500214, 16, 0x10000, 1, 0x0, 1, [⟨31, 0, .rc, 0, .any, false⟩]⟩,
  ⟨"PAR_LAST_ANOM", 0x500240, 16, 0x10000, 1, 0x0, 2, [⟨31, 16, .ro, 0, .any, false⟩, ⟨8, 0, .ro, 0, .any, false⟩]⟩]

/-- Registers of block CLS. -/
def regsCls0 : List RegRow := [
  ⟨"CLS_CMD", 0x600000, 1, 0x0, 1, 0x0, 1, [⟨12, 8, .wo, 0, .any, true⟩, ⟨7, 7, .wo, 0, .any, true⟩, ⟨3, 0, .wo, 0, .any, true⟩]⟩,
  ⟨"CLS_CMD_STATUS", 0x600004, 1, 0x0, 1, 0x0, 1, [⟨31, 31, .w1c, 0, .any, false⟩, ⟨30, 30, .ro, 0, .any, false⟩, ⟨29, 29, .w1c, 0, .any, false⟩, ⟨15, 8, .ro, 0, .any, false⟩, ⟨3, 0, .ro, 0, .any, false⟩]⟩,
  ⟨"CLS_CMD_TIME", 0x600008, 1, 0x0, 1, 0x0, 2, [⟨31, 0, .rw, 0, .any, false⟩]⟩,
  ⟨"CLS_CMD_INDEX", 0x600010, 1, 0x0, 1, 0x0, 1, [⟨16, 0, .rw, 0, .any, false⟩]⟩,
  ⟨"CLS_CMD_VERSION", 0x600014, 1, 0x0, 1, 0x0, 1, [⟨15, 0, .rw, 0, .any, false⟩]⟩,
  ⟨"CLS_VERSION", 0x600020, 1, 0x0, 1, 0x0, 1, [⟨31, 16, .ro, 1, .any, false⟩, ⟨15, 0, .ro, 1, .any, false⟩]⟩,
  ⟨"CLS_LIVE", 0x600024, 1, 0x0, 1, 0x0, 1, [⟨8, 8, .ro, 0, .any, false⟩, ⟨3, 0, .ro, 1, .any, false⟩]⟩,
  ⟨"CLS_LATENT", 0x600028, 1, 0x0, 1, 0x0, 1, [⟨16, 0, .ro, 0, .any, false⟩]⟩,
  ⟨"CLS_CHANGES_USED", 0x60002C, 1, 0x0, 1, 0x0, 1, [⟨18, 0, .ro, 0, .any, false⟩]⟩,
  ⟨"CLS_FIX_HOLD", 0x600030, 1, 0x0, 1, 0x0, 1, [⟨31, 0, .rw, 1000, .range 0 1000000, false⟩]⟩,
  ⟨"CLS_FIX_STATUS", 0x600034, 1, 0x0, 1, 0x0, 1, [⟨31, 28, .ro, 0, .any, false⟩, ⟨27, 27, .ro, 0, .any, false⟩, ⟨26, 26, .ro, 0, .any, false⟩, ⟨15, 0, .ro, 1, .any, false⟩]⟩,
  ⟨"CLS_FIX_TIME", 0x600038, 1, 0x0, 1, 0x0, 2, [⟨31, 0, .ro, 0, .any, false⟩]⟩,
  ⟨"CLS_INFLIGHT", 0x600040, 8, 0x4, 1, 0x0, 1, [⟨23, 0, .ro, 0, .any, false⟩]⟩,
  ⟨"CLS_EVENTS", 0x600060, 1, 0x0, 1, 0x0, 1, [⟨5, 5, .w1c, 0, .any, false⟩, ⟨4, 4, .w1c, 0, .any, false⟩, ⟨3, 3, .w1c, 0, .any, false⟩, ⟨2, 2, .w1c, 0, .any, false⟩, ⟨1, 1, .w1c, 0, .any, false⟩, ⟨0, 0, .w1c, 0, .any, false⟩]⟩,
  ⟨"CLS_EVENT_EN", 0x600064, 1, 0x0, 1, 0x0, 1, [⟨5, 5, .rw, 0, .any, false⟩, ⟨4, 4, .rw, 0, .any, false⟩, ⟨3, 3, .rw, 0, .any, false⟩, ⟨2, 2, .rw, 0, .any, false⟩, ⟨1, 1, .rw, 0, .any, false⟩, ⟨0, 0, .rw, 0, .any, false⟩]⟩,
  ⟨"CLS_CNT_ACT_MISSING", 0x600080, 1, 0x0, 1, 0x0, 1, [⟨31, 0, .rc, 0, .any, false⟩]⟩,
  ⟨"CLS_CNT_CHAIN", 0x600084, 1, 0x0, 1, 0x0, 1, [⟨31, 0, .rc, 0, .any, false⟩]⟩,
  ⟨"CLS_CNT_NO_ROUTE", 0x600088, 1, 0x0, 1, 0x0, 1, [⟨31, 0, .rc, 0, .any, false⟩]⟩,
  ⟨"CLS_CNT_VERSION_UNKNOWN", 0x60008C, 1, 0x0, 1, 0x0, 1, [⟨31, 0, .rc, 0, .any, false⟩]⟩,
  ⟨"CLS_CNT_TABLE_FULL", 0x600090, 1, 0x0, 1, 0x0, 1, [⟨31, 0, .rc, 0, .any, false⟩]⟩]

/-- Registers of block CLS. -/
def regsCls1 : List RegRow := [
  ⟨"CLS_CNT_ENCAP_MTU", 0x600094, 1, 0x0, 1, 0x0, 1, [⟨31, 0, .rc, 0, .any, false⟩]⟩,
  ⟨"CLS_CNT_UNCORR", 0x600098, 1, 0x0, 1, 0x0, 1, [⟨31, 0, .rc, 0, .any, false⟩]⟩,
  ⟨"CLS_STAGE_DATA", 0x600100, 16, 0x4, 1, 0x0, 1, [⟨31, 0, .rw, 0, .any, false⟩]⟩,
  ⟨"CLS_REGION_INFO", 0x600400, 32, 0x8, 1, 0x0, 1, [⟨31, 29, .po, 0, .any, false⟩, ⟨11, 0, .po, 0, .any, false⟩]⟩,
  ⟨"CLS_REGION_USED", 0x600404, 32, 0x8, 1, 0x0, 1, [⟨31, 0, .ro, 0, .any, false⟩]⟩,
  ⟨"CLS_TCMD", 0x610000, 1, 0x0, 1, 0x0, 1, [⟨11, 8, .wo, 0, .any, true⟩, ⟨7, 7, .wo, 0, .any, true⟩, ⟨3, 0, .wo, 0, .any, true⟩]⟩,
  ⟨"CLS_TCMD_STATUS", 0x610004, 1, 0x0, 1, 0x0, 1, [⟨31, 31, .w1c, 0, .any, false⟩, ⟨30, 30, .ro, 0, .any, false⟩, ⟨29, 29, .w1c, 0, .any, false⟩, ⟨15, 8, .ro, 0, .any, false⟩, ⟨3, 0, .ro, 0, .any, false⟩]⟩,
  ⟨"CLS_TCMD_VERSION", 0x610008, 1, 0x0, 1, 0x0, 1, [⟨15, 0, .rw, 0, .any, false⟩]⟩,
  ⟨"CLS_TMOVE_LIMIT", 0x61000C, 1, 0x0, 1, 0x0, 1, [⟨17, 0, .rw, 1024, .any, false⟩]⟩,
  ⟨"CLS_TLAST", 0x610010, 1, 0x0, 1, 0x0, 1, [⟨17, 0, .ro, 0, .any, false⟩]⟩,
  ⟨"CLS_TPOS", 0x610014, 1, 0x0, 1, 0x0, 1, [⟨17, 0, .ro, 0, .any, false⟩]⟩,
  ⟨"CLS_TBANK_AWAKE", 0x610018, 1, 0x0, 1, 0x0, 2, [⟨31, 0, .ro, 0, .any, false⟩]⟩,
  ⟨"CLS_TEVENTS", 0x610020, 1, 0x0, 1, 0x0, 1, [⟨3, 3, .w1c, 0, .any, false⟩, ⟨2, 2, .w1c, 0, .any, false⟩, ⟨1, 1, .w1c, 0, .any, false⟩, ⟨0, 0, .w1c, 0, .any, false⟩]⟩,
  ⟨"CLS_TEVENT_EN", 0x610024, 1, 0x0, 1, 0x0, 1, [⟨3, 3, .rw, 0, .any, false⟩, ⟨2, 2, .rw, 0, .any, false⟩, ⟨1, 1, .rw, 0, .any, false⟩, ⟨0, 0, .rw, 0, .any, false⟩]⟩,
  ⟨"CLS_TCNT_PARITY", 0x610040, 1, 0x0, 1, 0x0, 1, [⟨31, 0, .rc, 0, .any, false⟩]⟩,
  ⟨"CLS_TCNT_SCRUB_FIX", 0x610044, 1, 0x0, 1, 0x0, 1, [⟨31, 0, .rc, 0, .any, false⟩]⟩,
  ⟨"CLS_TSTAGE_DATA", 0x610100, 28, 0x4, 1, 0x0, 1, [⟨31, 0, .rw, 0, .any, false⟩]⟩,
  ⟨"CLS_TPROF_INFO", 0x610200, 16, 0x8, 1, 0x0, 1, [⟨31, 30, .po, 0, .any, false⟩, ⟨29, 22, .po, 0, .any, false⟩, ⟨21, 21, .po, 0, .any, false⟩, ⟨6, 0, .po, 0, .any, false⟩]⟩,
  ⟨"CLS_TPROF_USED", 0x610204, 16, 0x8, 1, 0x0, 1, [⟨18, 0, .ro, 0, .any, false⟩]⟩,
  ⟨"CLS_TPROF_BANKS", 0x610400, 16, 0x8, 1, 0x0, 1, [⟨31, 0, .po, 0, .any, false⟩]⟩]

/-- Registers of block CLS. -/
def regsCls2 : List RegRow := [
  ⟨"CLS_PAT_CTRL", 0x620000, 1, 0x0, 1, 0x0, 1, [⟨0, 0, .rw, 0, .any, false⟩]⟩,
  ⟨"CLS_PAT_WAIT", 0x620004, 1, 0x0, 1, 0x0, 1, [⟨31, 0, .rw, 50, .range 0 1000, false⟩]⟩,
  ⟨"CLS_PAT_BUSY", 0x620008, 1, 0x0, 1, 0x0, 1, [⟨31, 0, .ro, 0, .any, false⟩]⟩,
  ⟨"CLS_PAT_QUEUE", 0x62000C, 1, 0x0, 1, 0x0, 1, [⟨16, 0, .ro, 0, .any, false⟩]⟩,
  ⟨"CLS_PAT_CLASS_MAP", 0x620010, 4, 0x4, 1, 0x0, 1, [⟨31, 0, .rw, 0, .any, false⟩]⟩,
  ⟨"CLS_PAT_INFO", 0x620020, 1, 0x0, 1, 0x0, 1, [⟨22, 16, .ro, 0, .any, false⟩, ⟨15, 0, .ro, 0, .any, false⟩]⟩,
  ⟨"CLS_PAT_EVENTS", 0x620030, 1, 0x0, 1, 0x0, 1, [⟨2, 2, .w1c, 0, .any, false⟩, ⟨1, 1, .w1c, 0, .any, false⟩, ⟨0, 0, .w1c, 0, .any, false⟩]⟩,
  ⟨"CLS_PAT_EVENT_EN", 0x620034, 1, 0x0, 1, 0x0, 1, [⟨2, 2, .rw, 0, .any, false⟩, ⟨1, 1, .rw, 0, .any, false⟩, ⟨0, 0, .rw, 0, .any, false⟩]⟩,
  ⟨"CLS_PAT_CNT_SCANNED", 0x620040, 1, 0x0, 1, 0x0, 1, [⟨31, 0, .rc, 0, .any, false⟩]⟩,
  ⟨"CLS_PAT_CNT_MATCHED", 0x620044, 1, 0x0, 1, 0x0, 1, [⟨31, 0, .rc, 0, .any, false⟩]⟩,
  ⟨"CLS_PAT_CNT_OVERLOAD", 0x620048, 1, 0x0, 1, 0x0, 1, [⟨31, 0, .rc, 0, .any, false⟩]⟩,
  ⟨"CLS_PAT_CNT_MORE", 0x62004C, 1, 0x0, 1, 0x0, 1, [⟨31, 0, .rc, 0, .any, false⟩]⟩,
  ⟨"CLS_PAT_CNT_NOSCAN", 0x620050, 1, 0x0, 1, 0x0, 1, [⟨31, 0, .rc, 0, .any, false⟩]⟩,
  ⟨"CLS_PAT_CNT_UNCORR", 0x620054, 1, 0x0, 1, 0x0, 1, [⟨31, 0, .rc, 0, .any, false⟩]⟩]

/-- Registers of block CLS. -/
def regsCls : List RegRow := regsCls0 ++ regsCls1 ++ regsCls2

/-- Registers of block FLE. -/
def regsFle0 : List RegRow := [
  ⟨"FLE_STATUS", 0x800000, 128, 0x4000, 1, 0x0, 1, [⟨31, 31, .ro, 0, .any, false⟩, ⟨30, 30, .ro, 0, .any, false⟩, ⟨29, 29, .ro, 0, .any, false⟩]⟩,
  ⟨"FLE_MISS_WAIT", 0x800004, 128, 0x4000, 1, 0x0, 1, [⟨16, 0, .rw, 0, .range 20 100000, false⟩]⟩,
  ⟨"FLE_SETUP_WAIT", 0x800008, 128, 0x4000, 1, 0x0, 1, [⟨16, 0, .rw, 0, .range 10 100000, false⟩]⟩,
  ⟨"FLE_EVICT_RANK", 0x80000C, 128, 0x4000, 1, 0x0, 2, [⟨31, 0, .rw, 0, .any, false⟩]⟩,
  ⟨"FLE_OCC0", 0x800014, 128, 0x4000, 1, 0x0, 1, [⟨28, 16, .ro, 0, .any, false⟩, ⟨9, 0, .ro, 0, .any, false⟩]⟩,
  ⟨"FLE_OCC1", 0x800018, 128, 0x4000, 1, 0x0, 1, [⟨31, 23, .ro, 0, .any, false⟩, ⟨22, 16, .ro, 0, .any, false⟩, ⟨9, 0, .ro, 0, .any, false⟩]⟩,
  ⟨"FLE_OCC2", 0x80001C, 128, 0x4000, 1, 0x0, 1, [⟨9, 0, .ro, 0, .any, false⟩]⟩,
  ⟨"FLE_EVENTS", 0x800020, 128, 0x4000, 1, 0x0, 1, [⟨7, 7, .w1c, 0, .any, false⟩, ⟨6, 6, .w1c, 0, .any, false⟩, ⟨5, 5, .w1c, 0, .any, false⟩, ⟨4, 4, .w1c, 0, .any, false⟩, ⟨3, 3, .w1c, 0, .any, false⟩, ⟨2, 2, .w1c, 0, .any, false⟩, ⟨1, 1, .w1c, 0, .any, false⟩, ⟨0, 0, .w1c, 0, .any, false⟩]⟩,
  ⟨"FLE_EVENT_EN", 0x800024, 128, 0x4000, 1, 0x0, 1, [⟨7, 7, .rw, 0, .any, false⟩, ⟨6, 6, .rw, 0, .any, false⟩, ⟨5, 5, .rw, 0, .any, false⟩, ⟨4, 4, .rw, 0, .any, false⟩, ⟨3, 3, .rw, 0, .any, false⟩, ⟨2, 2, .rw, 0, .any, false⟩, ⟨1, 1, .rw, 0, .any, false⟩, ⟨0, 0, .rw, 0, .any, false⟩]⟩,
  ⟨"FLE_LAST_REFUSED", 0x800028, 128, 0x4000, 1, 0x0, 1, [⟨31, 28, .ro, 0, .any, false⟩, ⟨27, 24, .ro, 0, .any, false⟩, ⟨9, 0, .ro, 0, .any, false⟩]⟩,
  ⟨"FLE_CNT_HIT", 0x800100, 128, 0x4000, 1, 0x0, 2, [⟨31, 0, .rc, 0, .any, false⟩]⟩,
  ⟨"FLE_CNT_MISS", 0x800108, 128, 0x4000, 1, 0x0, 2, [⟨31, 0, .rc, 0, .any, false⟩]⟩,
  ⟨"FLE_CNT_FILL", 0x800110, 128, 0x4000, 1, 0x0, 2, [⟨31, 0, .rc, 0, .any, false⟩]⟩,
  ⟨"FLE_CNT_WRITEBACK", 0x800118, 128, 0x4000, 1, 0x0, 2, [⟨31, 0, .rc, 0, .any, false⟩]⟩,
  ⟨"FLE_CNT_INSERT", 0x800120, 128, 0x4000, 1, 0x0, 2, [⟨31, 0, .rc, 0, .any, false⟩]⟩,
  ⟨"FLE_CNT_SETUP", 0x800128, 128, 0x4000, 1, 0x0, 2, [⟨31, 0, .rc, 0, .any, false⟩]⟩,
  ⟨"FLE_CNT_EVICT", 0x800130, 128, 0x4000, 1, 0x0, 2, [⟨31, 0, .rc, 0, .any, false⟩]⟩,
  ⟨"FLE_CNT_HELD", 0x800138, 128, 0x4000, 1, 0x0, 2, [⟨31, 0, .rc, 0, .any, false⟩]⟩,
  ⟨"FLE_CNT_DISCARD", 0x800140, 128, 0x4000, 1, 0x0, 2, [⟨31, 0, .rc, 0, .any, false⟩]⟩,
  ⟨"FLE_CNT_STATION", 0x800148, 128, 0x4000, 1, 0x0, 2, [⟨31, 0, .rc, 0, .any, false⟩]⟩]

/-- Registers of block FLE. -/
def regsFle1 : List RegRow := [
  ⟨"FLE_CNT_INPUT_FULL", 0x800150, 128, 0x4000, 1, 0x0, 2, [⟨31, 0, .rc, 0, .any, false⟩]⟩,
  ⟨"FLE_CNT_STATION_FULL", 0x800158, 128, 0x4000, 1, 0x0, 2, [⟨31, 0, .rc, 0, .any, false⟩]⟩,
  ⟨"FLE_CNT_ALIAS", 0x800160, 128, 0x4000, 1, 0x0, 2, [⟨31, 0, .rc, 0, .any, false⟩]⟩,
  ⟨"FLE_CNT_REFUSED", 0x800168, 128, 0x4000, 1, 0x0, 2, [⟨31, 0, .rc, 0, .any, false⟩]⟩,
  ⟨"FLE_CNT_CACHE_CORR", 0x800170, 128, 0x4000, 1, 0x0, 2, [⟨31, 0, .rc, 0, .any, false⟩]⟩,
  ⟨"FLE_CNT_ERR_DROP", 0x800178, 128, 0x4000, 1, 0x0, 2, [⟨31, 0, .rc, 0, .any, false⟩]⟩,
  ⟨"FLE_CNT_NOTIFY_LOST", 0x800180, 128, 0x4000, 1, 0x0, 2, [⟨31, 0, .rc, 0, .any, false⟩]⟩,
  ⟨"FLE_CNT_REMOTE", 0x800188, 128, 0x4000, 1, 0x0, 2, [⟨31, 0, .rc, 0, .any, false⟩]⟩,
  ⟨"FLE_TPL_HIT", 0x801000, 128, 0x4000, 64, 0x20, 2, [⟨31, 0, .rc, 0, .any, false⟩]⟩,
  ⟨"FLE_TPL_MISS", 0x801008, 128, 0x4000, 64, 0x20, 2, [⟨31, 0, .rc, 0, .any, false⟩]⟩,
  ⟨"FLE_TPL_CREATE", 0x801010, 128, 0x4000, 64, 0x20, 1, [⟨31, 0, .rc, 0, .any, false⟩]⟩,
  ⟨"FLE_TPL_MISS_FB", 0x801014, 128, 0x4000, 64, 0x20, 1, [⟨31, 0, .rc, 0, .any, false⟩]⟩,
  ⟨"FLE_TPL_SETUP_FB", 0x801018, 128, 0x4000, 64, 0x20, 1, [⟨31, 0, .rc, 0, .any, false⟩]⟩,
  ⟨"FLE_TPL_OVERFLOW", 0x80101C, 128, 0x4000, 64, 0x20, 1, [⟨31, 16, .rc, 0, .any, false⟩, ⟨15, 0, .rc, 0, .any, false⟩]⟩,
  ⟨"FLE_TBL_INFO", 0x803E00, 128, 0x4000, 1, 0x0, 1, [⟨23, 16, .po, 0, .any, false⟩, ⟨12, 8, .po, 0, .any, false⟩, ⟨4, 0, .po, 0, .any, false⟩]⟩,
  ⟨"FLE_ENG_ID", 0x803E04, 128, 0x4000, 1, 0x0, 1, [⟨6, 0, .ro, 0, .any, false⟩]⟩,
  ⟨"FLE_HC_CTRL", 0x803E08, 128, 0x4000, 1, 0x0, 1, [⟨1, 1, .rw, 0, .any, false⟩, ⟨0, 0, .w1s, 0, .any, true⟩]⟩,
  ⟨"FLE_HC_KEY", 0x803E10, 128, 0x4000, 10, 0x4, 1, [⟨31, 0, .rw, 0, .any, false⟩]⟩,
  ⟨"FLE_HC_H1", 0x803E40, 128, 0x4000, 1, 0x0, 1, [⟨31, 0, .ro, 0, .any, false⟩]⟩,
  ⟨"FLE_HC_H2", 0x803E44, 128, 0x4000, 1, 0x0, 1, [⟨31, 0, .ro, 0, .any, false⟩]⟩]

/-- Registers of block FLE. -/
def regsFle2 : List RegRow := [
  ⟨"FLE_HC_IDX", 0x803E48, 128, 0x4000, 1, 0x0, 1, [⟨31, 31, .ro, 0, .any, false⟩, ⟨27, 18, .ro, 0, .any, false⟩, ⟨15, 8, .ro, 0, .any, false⟩, ⟨6, 0, .ro, 0, .any, false⟩]⟩,
  ⟨"FLE_HC_B1", 0x803E4C, 128, 0x4000, 1, 0x0, 1, [⟨18, 0, .ro, 0, .any, false⟩]⟩,
  ⟨"FLE_HC_B2", 0x803E50, 128, 0x4000, 1, 0x0, 1, [⟨18, 0, .ro, 0, .any, false⟩]⟩,
  ⟨"FLE_SVC_TCP", 0x803F00, 128, 0x4000, 1, 0x0, 1, [⟨2, 2, .rw, 0, .any, false⟩, ⟨1, 0, .rw, 0, .any, false⟩]⟩,
  ⟨"FLE_SWEEP_CTRL", 0x803F04, 128, 0x4000, 1, 0x0, 1, [⟨31, 31, .rw, 0, .any, false⟩, ⟨26, 16, .rw, 64, .range 1 1024, false⟩, ⟨15, 0, .rw, 1000, .range 1 65535, false⟩]⟩,
  ⟨"FLE_SWEEP_CLASS", 0x803F08, 128, 0x4000, 1, 0x0, 1, [⟨5, 0, .rw, 0, .any, false⟩]⟩,
  ⟨"FLE_FQ_CTRL", 0x803F0C, 128, 0x4000, 1, 0x0, 1, [⟨31, 16, .rw, 1, .range 1 65535, false⟩]⟩,
  ⟨"FLE_FQ_DEMOTE", 0x803F10, 128, 0x4000, 1, 0x0, 1, [⟨31, 0, .rw, 0, .any, false⟩]⟩,
  ⟨"FLE_SVC_BIND_TPL", 0x803F14, 128, 0x4000, 1, 0x0, 2, [⟨31, 0, .rw, 0, .any, false⟩]⟩,
  ⟨"FLE_AGE_TIMEOUT", 0x803F40, 128, 0x4000, 16, 0x8, 1, [⟨29, 0, .rw, 0, .any, false⟩]⟩,
  ⟨"FLE_AGE_TRANSIENT", 0x803F44, 128, 0x4000, 16, 0x8, 1, [⟨29, 0, .rw, 0, .any, false⟩]⟩,
  ⟨"FLE_SWEEP_CURSOR", 0x803FC0, 128, 0x4000, 1, 0x0, 1, [⟨18, 0, .ro, 0, .any, false⟩]⟩,
  ⟨"FLE_CNT_SWEEP_DEL", 0x803FC4, 128, 0x4000, 1, 0x0, 1, [⟨31, 0, .rc, 0, .any, false⟩]⟩,
  ⟨"FLE_CNT_SWEEP_REPORT", 0x803FC8, 128, 0x4000, 1, 0x0, 1, [⟨31, 0, .rc, 0, .any, false⟩]⟩,
  ⟨"FLE_CNT_TCP_INVALID", 0x803FCC, 128, 0x4000, 1, 0x0, 1, [⟨31, 0, .rc, 0, .any, false⟩]⟩,
  ⟨"FLE_CNT_METER_NONE", 0x803FD0, 128, 0x4000, 1, 0x0, 1, [⟨31, 0, .rc, 0, .any, false⟩]⟩,
  ⟨"FLE_CNT_HAIRPIN", 0x803FD4, 128, 0x4000, 1, 0x0, 1, [⟨31, 0, .rc, 0, .any, false⟩]⟩]

/-- Registers of block FLE. -/
def regsFle : List RegRow := regsFle0 ++ regsFle1 ++ regsFle2

/-- Registers of block ACT. -/
def regsAct0 : List RegRow := [
  ⟨"ACT_CL_CTRL", 0xA00000, 16, 0x10000, 1, 0x0, 1, [⟨1, 1, .w1s, 0, .any, true⟩, ⟨0, 0, .rw, 0, .any, true⟩]⟩,
  ⟨"ACT_CL_STATUS", 0xA00004, 16, 0x10000, 1, 0x0, 1, [⟨31, 31, .ro, 0, .any, false⟩, ⟨30, 30, .ro, 0, .any, false⟩, ⟨29, 29, .ro, 0, .any, false⟩, ⟨28, 28, .ro, 0, .any, false⟩, ⟨22, 16, .ro, 0, .any, false⟩]⟩,
  ⟨"ACT_CL_EVENTS", 0xA00008, 16, 0x10000, 1, 0x0, 1, [⟨6, 6, .w1c, 0, .any, false⟩, ⟨5, 5, .w1c, 0, .any, false⟩, ⟨4, 4, .w1c, 0, .any, false⟩, ⟨3, 3, .w1c, 0, .any, false⟩, ⟨2, 2, .w1c, 0, .any, false⟩, ⟨1, 1, .w1c, 0, .any, false⟩, ⟨0, 0, .w1c, 0, .any, false⟩]⟩,
  ⟨"ACT_CL_EVENT_EN", 0xA0000C, 16, 0x10000, 1, 0x0, 1, [⟨6, 6, .rw, 0, .any, false⟩, ⟨5, 5, .rw, 0, .any, false⟩, ⟨4, 4, .rw, 0, .any, false⟩, ⟨3, 3, .rw, 0, .any, false⟩, ⟨2, 2, .rw, 0, .any, false⟩, ⟨1, 1, .rw, 0, .any, false⟩, ⟨0, 0, .rw, 0, .any, false⟩]⟩,
  ⟨"ACT_CNT_STARTED", 0xA00100, 16, 0x10000, 1, 0x0, 2, [⟨31, 0, .rc, 0, .any, false⟩]⟩,
  ⟨"ACT_CNT_COMMIT", 0xA00108, 16, 0x10000, 1, 0x0, 2, [⟨31, 0, .rc, 0, .any, false⟩]⟩,
  ⟨"ACT_CNT_ABORT", 0xA00110, 16, 0x10000, 1, 0x0, 2, [⟨31, 0, .rc, 0, .any, false⟩]⟩,
  ⟨"ACT_CNT_BUDGET", 0xA00118, 16, 0x10000, 1, 0x0, 2, [⟨31, 0, .rc, 0, .any, false⟩]⟩,
  ⟨"ACT_CNT_TIMEOUT", 0xA00120, 16, 0x10000, 1, 0x0, 2, [⟨31, 0, .rc, 0, .any, false⟩]⟩,
  ⟨"ACT_CNT_REFUSED", 0xA00128, 16, 0x10000, 1, 0x0, 2, [⟨31, 0, .rc, 0, .any, false⟩]⟩,
  ⟨"ACT_CNT_WATCH_FAIL", 0xA00130, 16, 0x10000, 1, 0x0, 2, [⟨31, 0, .rc, 0, .any, false⟩]⟩,
  ⟨"ACT_CNT_WORDS", 0xA00138, 16, 0x10000, 1, 0x0, 2, [⟨31, 0, .rc, 0, .any, false⟩]⟩,
  ⟨"ACT_CNT_CORR", 0xA00140, 16, 0x10000, 1, 0x0, 2, [⟨31, 0, .rc, 0, .any, false⟩]⟩,
  ⟨"ACT_CTX_PC", 0xA00400, 16, 0x10000, 64, 0x8, 1, [⟨31, 30, .ro, 0, .any, false⟩, ⟨14, 0, .ro, 0, .any, false⟩]⟩,
  ⟨"ACT_CTX_STEPS", 0xA00404, 16, 0x10000, 64, 0x8, 1, [⟨30, 16, .ro, 0, .any, false⟩, ⟨15, 0, .ro, 0, .any, false⟩]⟩,
  ⟨"ACT_STEP_BUDGET", 0xB00000, 1, 0x0, 1, 0x0, 1, [⟨15, 0, .rw, 4096, .any, false⟩]⟩,
  ⟨"ACT_WALL_LIMIT", 0xB00004, 1, 0x0, 1, 0x0, 1, [⟨13, 0, .rw, 100, .range 1 10000, false⟩]⟩,
  ⟨"ACT_KILL", 0xB00008, 1, 0x0, 1, 0x0, 1, [⟨31, 31, .w1s, 0, .any, true⟩, ⟨30, 28, .ro, 0, .any, false⟩, ⟨9, 0, .rw, 0, .any, false⟩]⟩,
  ⟨"ACT_STORE_INFO", 0xB0000C, 1, 0x0, 1, 0x0, 1, [⟨31, 30, .ro, 0, .any, false⟩, ⟨27, 24, .ro, 0, .any, false⟩, ⟨14, 0, .ro, 0, .any, false⟩]⟩,
  ⟨"ACT_BASE_ID", 0xB00010, 1, 0x0, 1, 0x0, 1, [⟨31, 0, .ro, 0, .any, false⟩]⟩]

/-- Registers of block ACT. -/
def regsAct1 : List RegRow := [
  ⟨"ACT_PATCH_SERIAL", 0xB00014, 1, 0x0, 1, 0x0, 2, [⟨31, 0, .ro, 0, .any, false⟩]⟩,
  ⟨"ACT_LAST_END0", 0xB00020, 1, 0x0, 1, 0x0, 2, [⟨31, 28, .ro, 0, .any, false⟩, ⟨27, 20, .ro, 0, .any, false⟩, ⟨9, 0, .ro, 0, .any, false⟩]⟩]

/-- Registers of block ACT. -/
def regsAct : List RegRow := regsAct0 ++ regsAct1

/-- Registers of block HBM. -/
def regsHbm0 : List RegRow := [
  ⟨"HBM_CTRL", 0xC00000, 1, 0x0, 1, 0x0, 1, [⟨2, 2, .rw, 0, .any, false⟩, ⟨1, 1, .rw, 0, .any, false⟩, ⟨0, 0, .rw, 0, .any, false⟩]⟩,
  ⟨"HBM_STATUS", 0xC00004, 1, 0x0, 1, 0x0, 1, [⟨23, 16, .ro, 0, .any, false⟩, ⟨14, 8, .ro, 0, .any, false⟩, ⟨5, 0, .ro, 0, .any, false⟩]⟩,
  ⟨"HBM_EVENTS", 0xC00008, 1, 0x0, 1, 0x0, 1, [⟨5, 5, .w1c, 0, .any, false⟩, ⟨4, 4, .w1c, 0, .any, false⟩, ⟨3, 3, .w1c, 0, .any, false⟩, ⟨2, 2, .w1c, 0, .any, false⟩, ⟨1, 1, .w1c, 0, .any, false⟩, ⟨0, 0, .w1c, 0, .any, false⟩]⟩,
  ⟨"HBM_EVENT_EN", 0xC0000C, 1, 0x0, 1, 0x0, 1, [⟨5, 5, .rw, 0, .any, false⟩, ⟨4, 4, .rw, 0, .any, false⟩, ⟨3, 3, .rw, 0, .any, false⟩, ⟨2, 2, .rw, 0, .any, false⟩, ⟨1, 1, .rw, 0, .any, false⟩, ⟨0, 0, .rw, 0, .any, false⟩]⟩,
  ⟨"HBM_FENCE", 0xC00010, 1, 0x0, 1, 0x0, 1, [⟨31, 31, .w1c, 0, .any, false⟩, ⟨30, 30, .ro, 0, .any, false⟩, ⟨8, 8, .w1s, 0, .any, true⟩, ⟨7, 0, .rw, 0, .any, false⟩]⟩,
  ⟨"HBM_RH_THRESH", 0xC00014, 1, 0x0, 1, 0x0, 1, [⟨15, 0, .rw, 0, .range 512 65535, false⟩]⟩,
  ⟨"HBM_REF_TEMP", 0xC00018, 1, 0x0, 1, 0x0, 1, [⟨15, 8, .rw, 0, .any, false⟩, ⟨7, 0, .rw, 0, .any, false⟩]⟩,
  ⟨"HBM_PD_IDLE", 0xC0001C, 1, 0x0, 1, 0x0, 1, [⟨15, 0, .rw, 0, .any, false⟩]⟩,
  ⟨"HBM_SR_IDLE", 0xC00020, 1, 0x0, 1, 0x0, 1, [⟨15, 0, .rw, 0, .any, false⟩]⟩,
  ⟨"HBM_SCRUB_PERIOD", 0xC00024, 1, 0x0, 1, 0x0, 1, [⟨13, 0, .rw, 0, .any, false⟩]⟩,
  ⟨"HBM_LAYOUT", 0xC00028, 1, 0x0, 1, 0x0, 1, [⟨15, 8, .po, 0, .any, false⟩, ⟨7, 0, .po, 0, .any, false⟩]⟩,
  ⟨"HBM_CNT_CORR", 0xC00040, 1, 0x0, 1, 0x0, 1, [⟨31, 0, .rc, 0, .any, false⟩]⟩,
  ⟨"HBM_CNT_SCRUB_FIX", 0xC00044, 1, 0x0, 1, 0x0, 1, [⟨31, 0, .rc, 0, .any, false⟩]⟩,
  ⟨"HBM_REQ_TARGET", 0xC00100, 8, 0x10, 1, 0x0, 1, [⟨16, 0, .rw, 0, .range 10 100000, false⟩]⟩,
  ⟨"HBM_REQ_LAT_MAX", 0xC00104, 8, 0x10, 1, 0x0, 1, [⟨23, 0, .rc, 0, .any, false⟩]⟩,
  ⟨"HBM_REQ_CNT_LATE", 0xC00108, 8, 0x10, 1, 0x0, 1, [⟨31, 0, .rc, 0, .any, false⟩]⟩,
  ⟨"HBM_REQ_QUEUED", 0xC0010C, 8, 0x10, 1, 0x0, 1, [⟨15, 0, .ro, 0, .any, false⟩]⟩,
  ⟨"HBM_STK_CTRL", 0xC01000, 6, 0x100, 1, 0x0, 1, [⟨8, 8, .w1s, 0, .any, true⟩, ⟨1, 0, .rw, 0, .any, true⟩]⟩,
  ⟨"HBM_STK_STATUS", 0xC01004, 6, 0x100, 1, 0x0, 1, [⟨31, 29, .ro, 4, .any, false⟩, ⟨28, 28, .ro, 0, .any, false⟩, ⟨27, 27, .ro, 0, .any, false⟩, ⟨26, 25, .ro, 0, .any, false⟩, ⟨24, 23, .ro, 0, .any, false⟩, ⟨8, 8, .ro, 0, .any, false⟩, ⟨7, 0, .ro, 0, .any, false⟩]⟩,
  ⟨"HBM_CH_STATUS", 0xC20000, 96, 0x400, 1, 0x0, 1, [⟨31, 29, .ro, 1, .any, false⟩, ⟨28, 28, .ro, 0, .any, false⟩, ⟨27, 27, .ro, 0, .any, false⟩, ⟨26, 23, .ro, 0, .any, false⟩, ⟨22, 19, .ro, 0, .any, false⟩, ⟨18, 18, .ro, 1, .any, false⟩]⟩]

/-- Registers of block HBM. -/
def regsHbm1 : List RegRow := [
  ⟨"HBM_CH_CTRL", 0xC20004, 96, 0x400, 1, 0x0, 1, [⟨0, 0, .w1s, 0, .any, true⟩]⟩,
  ⟨"HBM_CH_CAP_TIME", 0xC20010, 96, 0x400, 1, 0x0, 6, [⟨31, 0, .ro, 0, .any, false⟩]⟩,
  ⟨"HBM_CH_CNT_CORR", 0xC20030, 96, 0x400, 1, 0x0, 1, [⟨31, 0, .rc, 0, .any, false⟩]⟩,
  ⟨"HBM_CH_CNT_NRR", 0xC20034, 96, 0x400, 1, 0x0, 1, [⟨31, 0, .rc, 0, .any, false⟩]⟩,
  ⟨"HBM_CH_TRN_RD", 0xC20100, 96, 0x400, 8, 0x8, 1, [⟨22, 16, .ro, 0, .any, false⟩, ⟨14, 8, .ro, 0, .any, false⟩, ⟨6, 0, .ro, 0, .any, false⟩]⟩,
  ⟨"HBM_CH_TRN_WR", 0xC20104, 96, 0x400, 8, 0x8, 1, [⟨22, 16, .ro, 0, .any, false⟩, ⟨14, 8, .ro, 0, .any, false⟩, ⟨6, 0, .ro, 0, .any, false⟩]⟩,
  ⟨"HBM_CH_HIST", 0xC20200, 96, 0x400, 16, 0x8, 1, [⟨31, 28, .ro, 0, .any, false⟩, ⟨27, 27, .ro, 0, .any, false⟩, ⟨26, 22, .ro, 0, .any, false⟩, ⟨21, 7, .ro, 0, .any, false⟩, ⟨6, 4, .ro, 0, .any, false⟩]⟩,
  ⟨"HBM_CH_HIST_AGE", 0xC20204, 96, 0x400, 16, 0x8, 1, [⟨15, 0, .ro, 0, .any, false⟩]⟩]

/-- Registers of block HBM. -/
def regsHbm : List RegRow := regsHbm0 ++ regsHbm1

/-- Registers of block TMG. -/
def regsTmg0 : List RegRow := [
  ⟨"TMG_SHARED", 0xE00000, 1, 0x0, 1, 0x0, 1, [⟨20, 0, .po, 0, .any, false⟩]⟩,
  ⟨"TMG_FREE", 0xE00004, 1, 0x0, 1, 0x0, 1, [⟨20, 0, .ro, 0, .any, false⟩]⟩,
  ⟨"TMG_FREE_MIN", 0xE00008, 1, 0x0, 1, 0x0, 1, [⟨20, 0, .rc, 0, .any, false⟩]⟩,
  ⟨"TMG_FREE_WARN", 0xE0000C, 1, 0x0, 1, 0x0, 1, [⟨20, 0, .rw, 0, .any, false⟩]⟩,
  ⟨"TMG_RESIDUE_TIMEOUT", 0xE00010, 1, 0x0, 1, 0x0, 1, [⟨19, 0, .rw, 0, .range 1 1048575, false⟩]⟩,
  ⟨"TMG_RESIDUE_USED", 0xE00014, 1, 0x0, 1, 0x0, 1, [⟨16, 0, .ro, 0, .any, false⟩]⟩,
  ⟨"TMG_EVENTS", 0xE00018, 1, 0x0, 1, 0x0, 1, [⟨5, 5, .w1c, 0, .any, false⟩, ⟨4, 4, .w1c, 0, .any, false⟩, ⟨3, 3, .w1c, 0, .any, false⟩, ⟨2, 2, .w1c, 0, .any, false⟩, ⟨1, 1, .w1c, 0, .any, false⟩, ⟨0, 0, .w1c, 0, .any, false⟩]⟩,
  ⟨"TMG_EVENT_EN", 0xE0001C, 1, 0x0, 1, 0x0, 1, [⟨5, 5, .rw, 0, .any, false⟩, ⟨4, 4, .rw, 0, .any, false⟩, ⟨3, 3, .rw, 0, .any, false⟩, ⟨2, 2, .rw, 0, .any, false⟩, ⟨1, 1, .rw, 0, .any, false⟩, ⟨0, 0, .rw, 0, .any, false⟩]⟩,
  ⟨"TMG_CNT_FQ_MISMATCH", 0xE00020, 1, 0x0, 1, 0x0, 1, [⟨31, 0, .rc, 0, .any, false⟩]⟩,
  ⟨"TMG_CNT_FQ_NOQ", 0xE00024, 1, 0x0, 1, 0x0, 1, [⟨31, 0, .rc, 0, .any, false⟩]⟩,
  ⟨"TMG_CNT_UNDERRUN", 0xE00028, 1, 0x0, 1, 0x0, 1, [⟨31, 0, .rc, 0, .any, false⟩]⟩,
  ⟨"TMG_CNT_CORR", 0xE0002C, 1, 0x0, 1, 0x0, 1, [⟨31, 0, .rc, 0, .any, false⟩]⟩,
  ⟨"TMG_FQ_BOUND", 0xE00030, 1, 0x0, 1, 0x0, 1, [⟨17, 0, .ro, 0, .any, false⟩]⟩,
  ⟨"TMG_DROP", 0xE00100, 14, 0x8, 1, 0x0, 2, [⟨31, 0, .rc, 0, .any, false⟩]⟩,
  ⟨"TMG_ING_MIN", 0xE01000, 16, 0x40, 1, 0x0, 1, [⟨16, 0, .po, 0, .any, false⟩]⟩,
  ⟨"TMG_ING_MAX", 0xE01004, 16, 0x40, 1, 0x0, 1, [⟨19, 0, .rw, 0, .any, false⟩]⟩,
  ⟨"TMG_ING_USED", 0xE01008, 16, 0x40, 1, 0x0, 1, [⟨19, 0, .ro, 0, .any, false⟩]⟩,
  ⟨"TMG_PEND_MAX", 0xE0100C, 16, 0x40, 1, 0x0, 1, [⟨18, 0, .rw, 0, .any, false⟩]⟩,
  ⟨"TMG_PEND_USED", 0xE01010, 16, 0x40, 1, 0x0, 1, [⟨31, 17, .ro, 0, .any, false⟩, ⟨16, 0, .ro, 0, .any, false⟩]⟩,
  ⟨"TMG_RECIRC_USED", 0xE01014, 16, 0x40, 1, 0x0, 1, [⟨10, 0, .ro, 0, .any, false⟩]⟩]

/-- Registers of block TMG. -/
def regsTmg1 : List RegRow := [
  ⟨"TMG_ADM_PROF", 0xE02000, 64, 0x10, 1, 0x0, 1, [⟨31, 28, .rw, 0, .any, false⟩, ⟨16, 0, .rw, 0, .any, false⟩]⟩,
  ⟨"TMG_ADM_QMAX", 0xE02004, 64, 0x10, 1, 0x0, 1, [⟨20, 0, .rw, 0, .any, false⟩]⟩,
  ⟨"TMG_PORT_PFC", 0xE10000, 512, 0x40, 1, 0x0, 1, [⟨31, 24, .ro, 0, .any, false⟩, ⟨18, 16, .rw, 0, .any, false⟩, ⟨7, 0, .rw, 0, .any, false⟩]⟩,
  ⟨"TMG_PORT_XOFF", 0xE10004, 512, 0x40, 1, 0x0, 1, [⟨16, 0, .rw, 0, .any, false⟩]⟩,
  ⟨"TMG_PORT_XON", 0xE10008, 512, 0x40, 1, 0x0, 1, [⟨16, 0, .rw, 0, .any, false⟩]⟩,
  ⟨"TMG_PORT_QUANTA", 0xE1000C, 512, 0x40, 1, 0x0, 1, [⟨15, 0, .rw, 65535, .range 1 65535, false⟩]⟩,
  ⟨"TMG_PORT_HEADROOM", 0xE10010, 512, 0x40, 1, 0x0, 1, [⟨16, 0, .po, 0, .any, false⟩]⟩,
  ⟨"TMG_PORT_HR_USED", 0xE10014, 512, 0x40, 1, 0x0, 1, [⟨16, 0, .ro, 0, .any, false⟩]⟩,
  ⟨"TMG_PORT_MAC", 0xE10018, 512, 0x40, 1, 0x0, 2, [⟨31, 0, .rw, 0, .any, false⟩]⟩,
  ⟨"TMG_PORT_IN", 0xE10020, 512, 0x40, 8, 0x4, 1, [⟨20, 0, .ro, 0, .any, false⟩]⟩]

/-- Registers of block TMG. -/
def regsTmg : List RegRow := regsTmg0 ++ regsTmg1

/-- Registers of block SCH. -/
def regsSch0 : List RegRow := [
  ⟨"SCH_OBS_CTRL", 0xF00000, 1, 0x0, 1, 0x0, 1, [⟨11, 8, .rw, 3, .any, false⟩, ⟨1, 1, .ro, 0, .any, false⟩, ⟨0, 0, .rw, 0, .any, true⟩]⟩,
  ⟨"SCH_OBS_PERIOD", 0xF00004, 1, 0x0, 1, 0x0, 1, [⟨15, 0, .rw, 100, .range 1 65535, false⟩]⟩,
  ⟨"SCH_EVENTS", 0xF00008, 1, 0x0, 1, 0x0, 1, [⟨4, 4, .w1c, 0, .any, false⟩, ⟨3, 3, .w1c, 0, .any, false⟩, ⟨2, 2, .w1c, 0, .any, false⟩, ⟨1, 1, .w1c, 0, .any, false⟩, ⟨0, 0, .w1c, 0, .any, false⟩]⟩,
  ⟨"SCH_EVENT_EN", 0xF0000C, 1, 0x0, 1, 0x0, 1, [⟨4, 4, .rw, 0, .any, false⟩, ⟨3, 3, .rw, 0, .any, false⟩, ⟨2, 2, .rw, 0, .any, false⟩, ⟨1, 1, .rw, 0, .any, false⟩, ⟨0, 0, .rw, 0, .any, false⟩]⟩,
  ⟨"SCH_CNT_CORR", 0xF00010, 1, 0x0, 1, 0x0, 1, [⟨31, 0, .rc, 0, .any, false⟩]⟩,
  ⟨"SCH_PORT_POOL", 0xF10000, 512, 0x400, 1, 0x0, 1, [⟨30, 18, .po, 0, .any, false⟩, ⟨17, 0, .po, 0, .any, false⟩]⟩,
  ⟨"SCH_PORT_CFG", 0xF10004, 512, 0x400, 1, 0x0, 1, [⟨10, 10, .rw, 0, .any, false⟩, ⟨9, 9, .rw, 0, .any, true⟩, ⟨8, 8, .rw, 0, .any, true⟩, ⟨5, 0, .rw, 0, .any, false⟩]⟩,
  ⟨"SCH_PORT_SHP_RATE", 0xF10008, 512, 0x400, 1, 0x0, 1, [⟨31, 0, .rw, 0, .any, true⟩]⟩,
  ⟨"SCH_PORT_SHP_BURST", 0xF1000C, 512, 0x400, 1, 0x0, 1, [⟨23, 0, .rw, 0, .any, true⟩]⟩,
  ⟨"SCH_PORT_TOK", 0xF10010, 512, 0x400, 1, 0x0, 2, [⟨31, 0, .ro, 0, .any, false⟩]⟩,
  ⟨"SCH_PORT_ELIG", 0xF10018, 512, 0x400, 1, 0x0, 1, [⟨15, 0, .ro, 0, .any, false⟩]⟩,
  ⟨"SCH_PORT_CNT_OVERSIZE", 0xF1001C, 512, 0x400, 1, 0x0, 1, [⟨31, 0, .rc, 0, .any, false⟩]⟩,
  ⟨"SCH_GATE_CMD", 0xF10040, 512, 0x400, 1, 0x0, 1, [⟨4, 4, .wo, 0, .any, true⟩, ⟨3, 0, .wo, 0, .any, true⟩]⟩,
  ⟨"SCH_GATE_CMD_STATUS", 0xF10044, 512, 0x400, 1, 0x0, 1, [⟨31, 31, .w1c, 0, .any, false⟩, ⟨3, 0, .ro, 0, .any, false⟩]⟩,
  ⟨"SCH_GATE_ADMIN_BASE", 0xF10048, 512, 0x400, 1, 0x0, 2, [⟨31, 0, .rw, 0, .any, false⟩]⟩,
  ⟨"SCH_GATE_ADMIN_CYCLE", 0xF10050, 512, 0x400, 1, 0x0, 1, [⟨31, 0, .rw, 0, .any, false⟩]⟩,
  ⟨"SCH_GATE_ADMIN_LEN", 0xF10054, 512, 0x400, 1, 0x0, 1, [⟨8, 0, .rw, 0, .any, false⟩]⟩,
  ⟨"SCH_GATE_OPER_START", 0xF10058, 512, 0x400, 1, 0x0, 2, [⟨31, 0, .ro, 0, .any, false⟩]⟩,
  ⟨"SCH_GATE_OPER_CYCLE", 0xF10060, 512, 0x400, 1, 0x0, 1, [⟨31, 0, .ro, 0, .any, false⟩]⟩,
  ⟨"SCH_GATE_OPER_LEN", 0xF10064, 512, 0x400, 1, 0x0, 1, [⟨8, 0, .ro, 0, .any, false⟩]⟩]

/-- Registers of block SCH. -/
def regsSch1 : List RegRow := [
  ⟨"SCH_GATE_STATUS", 0xF10068, 512, 0x400, 1, 0x0, 1, [⟨31, 16, .ro, 65535, .any, false⟩, ⟨15, 15, .ro, 0, .any, false⟩, ⟨14, 14, .ro, 0, .any, false⟩, ⟨13, 13, .ro, 0, .any, false⟩, ⟨8, 0, .ro, 0, .any, false⟩]⟩,
  ⟨"SCH_GATE_PEND_START", 0xF10070, 512, 0x400, 1, 0x0, 2, [⟨31, 0, .ro, 0, .any, false⟩]⟩,
  ⟨"SCH_GATE_MAXWIN", 0xF10080, 512, 0x400, 16, 0x4, 1, [⟨31, 0, .ro, 4294967295, .any, false⟩]⟩,
  ⟨"SCH_CL_CFG", 0xF10100, 512, 0x400, 16, 0x20, 1, [⟨28, 16, .rw, 0, .any, false⟩, ⟨6, 6, .rw, 0, .any, false⟩, ⟨5, 5, .rw, 0, .any, false⟩, ⟨4, 4, .rw, 0, .any, false⟩, ⟨3, 3, .rw, 0, .any, false⟩, ⟨2, 2, .rw, 0, .any, true⟩, ⟨1, 1, .rw, 0, .any, true⟩, ⟨0, 0, .rw, 0, .any, false⟩]⟩,
  ⟨"SCH_CL_QUANTUM", 0xF10104, 512, 0x400, 16, 0x20, 1, [⟨19, 0, .rw, 0, .any, false⟩]⟩,
  ⟨"SCH_CL_FQ_QUANTUM", 0xF10108, 512, 0x400, 16, 0x20, 1, [⟨19, 0, .rw, 0, .any, false⟩]⟩,
  ⟨"SCH_CL_SHP_RATE", 0xF1010C, 512, 0x400, 16, 0x20, 1, [⟨31, 0, .rw, 0, .any, true⟩]⟩,
  ⟨"SCH_CL_SHP_BURST", 0xF10110, 512, 0x400, 16, 0x20, 1, [⟨23, 0, .rw, 0, .any, true⟩]⟩,
  ⟨"SCH_CL_FQ_RATE", 0xF10114, 512, 0x400, 16, 0x20, 1, [⟨31, 0, .rw, 0, .any, false⟩]⟩,
  ⟨"SCH_CL_FQ_BURST", 0xF10118, 512, 0x400, 16, 0x20, 1, [⟨23, 0, .rw, 0, .any, false⟩]⟩,
  ⟨"SCH_CL_MAXFRAME", 0xF1011C, 512, 0x400, 16, 0x20, 1, [⟨28, 16, .ro, 0, .any, false⟩, ⟨13, 0, .rw, 0, .rangeOrZero 64 12288, false⟩]⟩,
  ⟨"SCH_Q_INFO", 0x1000000, 262144, 0x40, 1, 0x0, 1, [⟨31, 30, .ro, 0, .any, false⟩, ⟨27, 24, .ro, 0, .any, false⟩, ⟨8, 0, .ro, 0, .any, false⟩]⟩,
  ⟨"SCH_Q_QUANTUM", 0x1000004, 262144, 0x40, 1, 0x0, 1, [⟨19, 0, .rw, 0, .any, false⟩]⟩,
  ⟨"SCH_Q_SHP_RATE", 0x1000008, 262144, 0x40, 1, 0x0, 1, [⟨31, 0, .rw, 0, .any, true⟩]⟩,
  ⟨"SCH_Q_SHP_CFG", 0x100000C, 262144, 0x40, 1, 0x0, 1, [⟨31, 31, .rw, 0, .any, true⟩, ⟨30, 30, .rw, 0, .any, true⟩, ⟨29, 29, .rw, 0, .any, false⟩, ⟨23, 0, .rw, 0, .any, true⟩]⟩,
  ⟨"SCH_Q_STATUS", 0x1000010, 262144, 0x40, 1, 0x0, 1, [⟨31, 31, .ro, 0, .any, false⟩, ⟨30, 30, .ro, 0, .any, false⟩, ⟨29, 29, .ro, 0, .any, false⟩, ⟨28, 28, .ro, 0, .any, false⟩, ⟨20, 0, .ro, 0, .any, false⟩]⟩,
  ⟨"SCH_Q_PKTS", 0x1000014, 262144, 0x40, 1, 0x0, 1, [⟨23, 0, .ro, 0, .any, false⟩]⟩,
  ⟨"SCH_Q_TOK", 0x1000018, 262144, 0x40, 1, 0x0, 2, [⟨31, 0, .ro, 0, .any, false⟩]⟩,
  ⟨"SCH_Q_OBS_DEPTH", 0x1000020, 262144, 0x40, 1, 0x0, 1, [⟨20, 0, .rc, 0, .any, false⟩]⟩,
  ⟨"SCH_Q_OBS_DELAY", 0x1000024, 262144, 0x40, 1, 0x0, 1, [⟨31, 0, .rc, 0, .any, false⟩]⟩]

/-- Registers of block SCH. -/
def regsSch2 : List RegRow := [
  ⟨"SCH_Q_OBS_AVG", 0x1000028, 262144, 0x40, 1, 0x0, 1, [⟨31, 0, .ro, 0, .any, false⟩]⟩]

/-- Registers of block SCH. -/
def regsSch : List RegRow := regsSch0 ++ regsSch1 ++ regsSch2

/-- The whole register map. -/
def regRows : List RegRow := regsGlb ++ regsPlt ++ regsSfl ++ regsMgt ++ regsTim ++ regsGng ++ regsWds ++ regsHst ++ regsTel ++ regsLna ++ regsPrt ++ regsPar ++ regsCls ++ regsFle ++ regsAct ++ regsHbm ++ regsTmg ++ regsSch

/-- Registers with a reset value other than 0: base, dimensions and strides, value. (log entry 3 DESIGN CHOICE.) -/
def resetRows : List (Nat × Nat × Nat × Nat × Nat × Nat) := [
  (0x0, 1, 0x0, 1, 0x0, 0x55470512),
  (0x4, 1, 0x0, 1, 0x0, 0x100),
  (0x8, 1, 0x0, 1, 0x0, 0x3),
  (0x10, 1, 0x0, 1, 0x0, 0x4000200),
  (0x14, 1, 0x0, 1, 0x0, 0x100C20),
  (0x18, 1, 0x0, 1, 0x0, 0x80100400),
  (0x1C, 1, 0x0, 1, 0x0, 0x1010040F),
  (0x20, 1, 0x0, 1, 0x0, 0x12101000),
  (0x24, 1, 0x0, 1, 0x0, 0x6100218),
  (0x28, 1, 0x0, 1, 0x0, 0x40204040),
  (0x2C, 1, 0x0, 1, 0x0, 0x1D0C0A0B),
  (0x10020, 1, 0x0, 1, 0x0, 0xFFF0000),
  (0x30000, 1, 0x0, 1, 0x0, 0x20000000),
  (0x30004, 1, 0x0, 1, 0x0, 0x2),
  (0x30020, 1, 0x0, 1, 0x0, 0xFFFF),
  (0x40060, 1, 0x0, 1, 0x0, 0x1),
  (0x6000C, 1, 0x0, 1, 0x0, 0x2000),
  (0x60200, 1, 0x0, 1, 0x0, 0xFE00),
  (0x60204, 1, 0x0, 1, 0x0, 0x2000),
  (0x60404, 16, 0x80, 1, 0x0, 0x3E8),
  (0x89004, 1, 0x0, 1, 0x0, 0x8C),
  (0x89018, 1, 0x0, 1, 0x0, 0x64),
  (0x90008, 1024, 0x20, 1, 0x0, 0x6000000),
  (0x90018, 1024, 0x20, 1, 0x0, 0x80000000),
  (0x1A0180, 1, 0x0, 1, 0x0, 0xFFFF),
  (0x1A0240, 16, 0x4, 1, 0x0, 0xFFFFFFFF),
  (0x1A040C, 1, 0x0, 1, 0x0, 0x400),
  (0x1A0418, 1, 0x0, 1, 0x0, 0x3E8),
  (0x200010, 1024, 0x400, 1, 0x0, 0x1),
  (0x200034, 1024, 0x400, 1, 0x0, 0xA7C50004),
  (0x200080, 1024, 0x400, 1, 0x0, 0x50),
  (0x2000A0, 1024, 0x400, 1, 0x0, 0x50),
  (0x300020, 512, 0x1000, 1, 0x0, 0x30000),
  (0x300040, 512, 0x1000, 4, 0x4, 0xFFFFFFFF),
  (0x300108, 512, 0x1000, 2, 0x40, 0xFFFFFFFF),
  (0x300C04, 128, 0x4000, 1, 0x0, 0x5000000),
  (0x600020, 1, 0x0, 1, 0x0, 0x10001),
  (0x600024, 1, 0x0, 1, 0x0, 0x1),
  (0x600030, 1, 0x0, 1, 0x0, 0x3E8),
  (0x600034, 1, 0x0, 1, 0x0, 0x1),
  (0x61000C, 1, 0x0, 1, 0x0, 0x400),
  (0x620004, 1, 0x0, 1, 0x0, 0x32),
  (0x803F04, 128, 0x4000, 1, 0x0, 0x4003E8),
  (0x803F0C, 128, 0x4000, 1, 0x0, 0x10000),
  (0xB00000, 1, 0x0, 1, 0x0, 0x1000),
  (0xB00004, 1, 0x0, 1, 0x0, 0x64),
  (0xC01004, 6, 0x100, 1, 0x0, 0x80000000),
  (0xC20000, 96, 0x400, 1, 0x0, 0x20040000),
  (0xE1000C, 512, 0x40, 1, 0x0, 0xFFFF),
  (0xF00000, 1, 0x0, 1, 0x0, 0x300),
  (0xF00004, 1, 0x0, 1, 0x0, 0x64),
  (0xF10068, 512, 0x400, 1, 0x0, 0xFFFF0000),
  (0xF10080, 512, 0x400, 16, 0x4, 0xFFFFFFFF),
  (0x38010, 8, 0x400, 1, 0x0, 0x1),
  (0x38080, 8, 0x400, 1, 0x0, 0x50),
  (0x380A0, 8, 0x400, 1, 0x0, 0x50)]

end Sys2Proof.Machine
end

