-- ==== Sys2Proof/Machine/Chip.lean ====
section
/-! DEFINITION. The device as plain data: BAR0 registers, memories, and the state of every block beyond its registers. -/
namespace Sys2Proof.Machine
open Sys2Proof

/-- The reset value of a register of a table of arrays. -/
def resetIn : List (Nat × Nat × Nat × Nat × Nat × Nat) → Nat → Nat
  | [], _ => 0
  | (b, n1, s1, n2, s2, v) :: r, a =>
    let i := if s1 = 0 then 0 else min ((a - b) / s1) (n1 - 1)
    let j := if s2 = 0 then 0 else (a - b - i * s1) / s2
    if decide (b ≤ a) && decide (j < n2) && a == b + i * s1 + j * s2 then v else resetIn r a

/-- Reset values that depend on the instance: HST_RING_CFG.VECTOR and HST_SRC_VEC (R514), the mask bit of an MSI-X table
entry, and FLE_ENG_ID (R263). -/
def resetByInstance (a : Nat) : Nat :=
  if 0x90008 ≤ a ∧ a < 0x98008 ∧ (a - 0x90008) % 32 = 0 then 0x6000000 + (a - 0x90008) / 32 % 1024
  else if 0x8C000 ≤ a ∧ a < 0x8E000 ∧ a % 4 = 0 then 2 ^ 31 + 1024 + (a - 0x8C000) / 4 % 1024
  else if 0x80000 ≤ a ∧ a < 0x88000 ∧ a % 16 = 12 then 1
  else if 0x803E04 ≤ a ∧ a < 0xA00000 ∧ (a - 0x803E04) % 0x4000 = 0 then (a - 0x803E04) / 0x4000
  else 0

/-- What a BAR0 register word reads as before anything has changed it: its reset value (R9 and the register tables).
(log entry 3 DESIGN CHOICE.) -/
def regReset (a : Nat) : Word :=
  BitVec.ofNat 32 (if resetByInstance a = 0 then resetIn resetRows a else resetByInstance a)

/-- The device. -/
structure Chip where
  regs : SMap Word        -- BAR0 register words by byte offset
  wideCap : SMap Word     -- higher words captured by a read of a lowest word (R13)
  wideStage : SMap Word   -- higher words written and waiting for the lowest word (R13)
  dram : List Host.Cell   -- device DRAM (R355)
  hostMem : List Host.Cell -- host memory as reached by DMA (R495, R511)
  freeCtr : Nat           -- MODEL'S OWN: free values used so far
  rdData : BitVec 64      -- data of the last host read
  power : Power
  flash : Flash
  time : TimeSt
  mgt : MgtSt
  sfl : SafeSt
  lanes : SMap LaneSt     -- by line lane, or 1024 + management lane
  ports : SMap PortSt
  sites : SMap SiteSt
  pkts : SMap Pkt         -- by packet number
  parse : ParseSt
  rules : RulesSt
  tern : TernSt
  pattern : PatSt
  tm : TmSt
  sched : SchedSt
  hbm : HbmSt
  tel : TelSt
  host : HostSt
  flow : FlowSt
  gang : GangSt
  act : ActSt
  wds : DispSt
  plate : PlateSt
  recov : List RecDom
  deriving DecidableEq, Repr

/-! ### Reset -/

/-- An empty flash slot. -/
def Slot.empty : Slot := ⟨0, []⟩

/-- Flash as delivered (log entry 4): no Plate and no patch; firmware and policy in slot A with BOOT, their images the vendor's
(an empty image stands for them); floors 0. -/
def Flash.factory : Flash :=
  { plateA := Slot.empty, plateB := Slot.empty, goodA := false, goodB := false, fwA := ⟨2, []⟩, fwB := Slot.empty
    patchA := Slot.empty, patchB := Slot.empty, polA := ⟨2, []⟩, polB := Slot.empty, plateFloor := 0, patchFloor := 0
    fwFloor := 0, polFloor := 0, ownerDigest := [] }

/-- Power present and the rails just up (R36, R546). -/
def Power.reset : Power :=
  { vsb := true, vin := true, aon := true, offHeld := false, idleAll := false, firstEntry := true, aonFault := false
    bar0Gated := false, loadDue := true, fresh := false, unrec := false }

/-- Time at reset: DT and MT 0 (R16), TIM_INCR nominal (R451). -/
def TimeSt.reset : TimeSt :=
  { acc := 0, mt := 0, slew := none, incr := 0x147AE147AE1, incrNext := none, setNext := none, stepNext := none, late := []
    refSrc := false, ppsOut := false, ppsWidth := 100, ppsInAt := none }

/-- Management at reset. -/
def MgtSt.reset : MgtSt :=
  { logBuf := [], logFlash := [], nextSeq := 0, fwRun := none, patchRun := none, oobReplies := []
    parkWait := [], bankWake := [], mpConf := [], rangeSeen := [], hiArmed := [], loArmed := [], flashWrite := none }

/-- The Safelight partition at reset: no policy in force yet. -/
def SafeSt.reset : SafeSt :=
  { body := [], cpTokens := [], cpTime := [], throttleRun := 0, throttlePRun := 0, holdRun := 0
    holdPRun := 0, offRun := 0, quietRun := 0, freeze := [], deniedArmed := true }

/-- Telemetry at reset. -/
def TelSt.reset : TelSt :=
  { conds := [], tsGen := [], smCount := 0, follow := [], expQ := [], expMsg := []
    tmplDue := true, expSeq := 0, expUsed := 0, expAt := 0, expTmpl := false, scanAt := none, scanPos := []
    scanLate := false }

/-- The traffic manager at reset. (log entry 109 DESIGN CHOICE.) -/
def TmSt.reset : TmSt :=
  { nextPid := 0, nextPassSeq := 0, ingRes := [], pend := [], pendCells := [], queues := [], qCells := [], residue := [], recirc := []
    bindings := [], marks := [], queueAdm := [], mcGroups := [], mirrors := [], mirrorCnt := [], pfcDue := []
    lastBank := 47, bankUsed := [], bankOut := [] }

/-- The scheduler at reset. -/
def SchedSt.reset : SchedSt :=
  { clsTok := [], qLast := [], clsLast := [], portLast := [], clsDef := [], ql := [], cl := [], gates := []
    gateAdmin := [], policers := [], policerCnt := [], obsSeen := [], obsFirst := [] }

/-- The device after power-up, before FULL_LOAD. (log entry 111 DESIGN CHOICE.) -/
def Chip.reset : Chip :=
  { regs := [], wideCap := [], wideStage := [], dram := [], hostMem := [], freeCtr := 0, rdData := 0
    power := Power.reset, flash := Flash.factory, time := TimeSt.reset, mgt := MgtSt.reset, sfl := SafeSt.reset
    lanes := [], ports := [], sites := [], pkts := [], parse := ⟨[], []⟩
    rules := ⟨[], [], [], [], none, false, false⟩, tern := ⟨[], [], []⟩, pattern := ⟨[], [], [], [], []⟩
    tm := TmSt.reset, sched := SchedSt.reset, hbm := HbmSt.reset, tel := TelSt.reset, host := ⟨[], [], [], false, []⟩
    flow := FlowSt.reset, gang := GangSt.reset, act := ActSt.reset, wds := DispSt.reset, plate := ⟨none, none, [], [], [], none⟩, recov := [] }

end Sys2Proof.Machine
end

