-- ==== Sys2Proof/Machine/Fields.lean ====
section
/-! DEFINITION. The register fields the meanings name, as BLOCK_NAME.FIELD of the register tables. -/
namespace Sys2Proof.Machine

/-- A field of a register array: bits `hi:lo` of the word at `base + i * s1 + j * s2`. -/
structure Fld where
  base : Nat
  s1 : Nat
  s2 : Nat
  hi : Nat
  lo : Nat
  deriving DecidableEq, Repr

def F.ACT_BASE_ID.V : Fld := ⟨0xB00010, 0x0, 0x0, 31, 0⟩
def F.ACT_CL_CTRL.HOLD : Fld := ⟨0xA00000, 0x10000, 0x0, 0, 0⟩
def F.ACT_CL_EVENTS.BUDGET : Fld := ⟨0xA00008, 0x10000, 0x0, 3, 3⟩
def F.ACT_CL_EVENTS.CORR : Fld := ⟨0xA00008, 0x10000, 0x0, 0, 0⟩
def F.ACT_CL_EVENTS.DATA_UNCORR : Fld := ⟨0xA00008, 0x10000, 0x0, 2, 2⟩
def F.ACT_CL_EVENTS.HELD : Fld := ⟨0xA00008, 0x10000, 0x0, 6, 6⟩
def F.ACT_CL_EVENTS.REFUSED : Fld := ⟨0xA00008, 0x10000, 0x0, 5, 5⟩
def F.ACT_CL_EVENTS.STORE_UNCORR : Fld := ⟨0xA00008, 0x10000, 0x0, 1, 1⟩
def F.ACT_CL_EVENTS.TIMEOUT : Fld := ⟨0xA00008, 0x10000, 0x0, 4, 4⟩
def F.ACT_CL_STATUS.AWAKE : Fld := ⟨0xA00004, 0x10000, 0x0, 31, 31⟩
def F.ACT_CL_STATUS.HELD : Fld := ⟨0xA00004, 0x10000, 0x0, 30, 30⟩
def F.ACT_CNT_ABORT.V : Fld := ⟨0xA00110, 0x10000, 0x0, 31, 0⟩
def F.ACT_CNT_BUDGET.V : Fld := ⟨0xA00118, 0x10000, 0x0, 31, 0⟩
def F.ACT_CNT_COMMIT.V : Fld := ⟨0xA00108, 0x10000, 0x0, 31, 0⟩
def F.ACT_CNT_CORR.V : Fld := ⟨0xA00140, 0x10000, 0x0, 31, 0⟩
def F.ACT_CNT_REFUSED.V : Fld := ⟨0xA00128, 0x10000, 0x0, 31, 0⟩
def F.ACT_CNT_STARTED.V : Fld := ⟨0xA00100, 0x10000, 0x0, 31, 0⟩
def F.ACT_CNT_TIMEOUT.V : Fld := ⟨0xA00120, 0x10000, 0x0, 31, 0⟩
def F.ACT_CNT_WATCH_FAIL.V : Fld := ⟨0xA00130, 0x10000, 0x0, 31, 0⟩
def F.ACT_CNT_WORDS.V : Fld := ⟨0xA00138, 0x10000, 0x0, 31, 0⟩
def F.ACT_CTX_PC.PC : Fld := ⟨0xA00400, 0x10000, 0x8, 14, 0⟩
def F.ACT_CTX_STEPS.STEPS : Fld := ⟨0xA00404, 0x10000, 0x8, 15, 0⟩
def F.ACT_KILL.CONTEXT : Fld := ⟨0xB00008, 0x0, 0x0, 9, 0⟩
def F.ACT_KILL.RESULT : Fld := ⟨0xB00008, 0x0, 0x0, 30, 28⟩
def F.ACT_LAST_END0.CODE : Fld := ⟨0xB00020, 0x0, 0x0, 27, 20⟩
def F.ACT_LAST_END0.CONTEXT : Fld := ⟨0xB00020, 0x0, 0x0, 9, 0⟩
def F.ACT_LAST_END0.STATUS : Fld := ⟨0xB00020, 0x0, 0x0, 31, 28⟩
def F.ACT_LAST_END1.ENTRY : Fld := ⟨0xB00024, 0x0, 0x0, 30, 16⟩
def F.ACT_LAST_END1.PC : Fld := ⟨0xB00024, 0x0, 0x0, 14, 0⟩
def F.ACT_PATCH_SERIAL.V : Fld := ⟨0xB00014, 0x0, 0x0, 31, 0⟩
def F.ACT_STEP_BUDGET.V : Fld := ⟨0xB00000, 0x0, 0x0, 15, 0⟩
def F.ACT_STORE_INFO.PATCH_REASON : Fld := ⟨0xB0000C, 0x0, 0x0, 27, 24⟩
def F.ACT_STORE_INFO.PATCH_RECORDS : Fld := ⟨0xB0000C, 0x0, 0x0, 14, 0⟩
def F.ACT_STORE_INFO.PATCH_STATE : Fld := ⟨0xB0000C, 0x0, 0x0, 31, 30⟩
def F.ACT_WALL_LIMIT.V : Fld := ⟨0xB00004, 0x0, 0x0, 13, 0⟩
def F.CLS_CHANGES_USED.V : Fld := ⟨0x60002C, 0x0, 0x0, 18, 0⟩
def F.CLS_CMD.OPCODE : Fld := ⟨0x600000, 0x0, 0x0, 3, 0⟩
def F.CLS_CMD_INDEX.V : Fld := ⟨0x600010, 0x0, 0x0, 16, 0⟩
def F.CLS_CMD_STATUS.DONE : Fld := ⟨0x600004, 0x0, 0x0, 31, 31⟩
def F.CLS_CMD_STATUS.OVERRUN : Fld := ⟨0x600004, 0x0, 0x0, 29, 29⟩
def F.CLS_CMD_STATUS.REASON : Fld := ⟨0x600004, 0x0, 0x0, 15, 8⟩
def F.CLS_CMD_STATUS.RUNNING : Fld := ⟨0x600004, 0x0, 0x0, 30, 30⟩
def F.CLS_CMD_STATUS.STATUS : Fld := ⟨0x600004, 0x0, 0x0, 3, 0⟩
def F.CLS_CMD_TIME.V : Fld := ⟨0x600008, 0x0, 0x0, 31, 0⟩
def F.CLS_CMD_VERSION.V : Fld := ⟨0x600014, 0x0, 0x0, 15, 0⟩
def F.CLS_CNT_ACT_MISSING.V : Fld := ⟨0x600080, 0x0, 0x0, 31, 0⟩
def F.CLS_CNT_CHAIN.V : Fld := ⟨0x600084, 0x0, 0x0, 31, 0⟩
def F.CLS_CNT_ENCAP_MTU.V : Fld := ⟨0x600094, 0x0, 0x0, 31, 0⟩
def F.CLS_CNT_NO_ROUTE.V : Fld := ⟨0x600088, 0x0, 0x0, 31, 0⟩
def F.CLS_CNT_TABLE_FULL.V : Fld := ⟨0x600090, 0x0, 0x0, 31, 0⟩
def F.CLS_CNT_UNCORR.V : Fld := ⟨0x600098, 0x0, 0x0, 31, 0⟩
def F.CLS_CNT_VERSION_UNKNOWN.V : Fld := ⟨0x60008C, 0x0, 0x0, 31, 0⟩
def F.CLS_EVENTS.CORR : Fld := ⟨0x600060, 0x0, 0x0, 5, 5⟩
def F.CLS_EVENTS.FIX_DONE : Fld := ⟨0x600060, 0x0, 0x0, 0, 0⟩
def F.CLS_EVENTS.FIX_FAILED : Fld := ⟨0x600060, 0x0, 0x0, 1, 1⟩
def F.CLS_EVENTS.RETIRED : Fld := ⟨0x600060, 0x0, 0x0, 2, 2⟩
def F.CLS_EVENTS.UNCORR : Fld := ⟨0x600060, 0x0, 0x0, 4, 4⟩
def F.CLS_EVENTS.VERSION_UNKNOWN : Fld := ⟨0x600060, 0x0, 0x0, 3, 3⟩
def F.CLS_FIX_HOLD.V : Fld := ⟨0x600030, 0x0, 0x0, 31, 0⟩
def F.CLS_FIX_STATUS.HELD : Fld := ⟨0x600034, 0x0, 0x0, 26, 26⟩
def F.CLS_FIX_STATUS.PULLED : Fld := ⟨0x600034, 0x0, 0x0, 27, 27⟩
def F.CLS_FIX_STATUS.STATUS : Fld := ⟨0x600034, 0x0, 0x0, 31, 28⟩
def F.CLS_FIX_STATUS.VERSION : Fld := ⟨0x600034, 0x0, 0x0, 15, 0⟩
def F.CLS_FIX_TIME.V : Fld := ⟨0x600038, 0x0, 0x0, 31, 0⟩
def F.CLS_INFLIGHT.V : Fld := ⟨0x600040, 0x4, 0x0, 23, 0⟩
def F.CLS_LATENT.V : Fld := ⟨0x600028, 0x0, 0x0, 16, 0⟩
def F.CLS_LIVE.LIVE : Fld := ⟨0x600024, 0x0, 0x0, 3, 0⟩
def F.CLS_LIVE.SCHEDULED : Fld := ⟨0x600024, 0x0, 0x0, 8, 8⟩
def F.CLS_PAT_BUSY.V : Fld := ⟨0x620008, 0x0, 0x0, 31, 0⟩
def F.CLS_PAT_CLASS_MAP.V : Fld := ⟨0x620010, 0x4, 0x0, 31, 0⟩
def F.CLS_PAT_CNT_MATCHED.V : Fld := ⟨0x620044, 0x0, 0x0, 31, 0⟩
def F.CLS_PAT_CNT_MORE.V : Fld := ⟨0x62004C, 0x0, 0x0, 31, 0⟩
def F.CLS_PAT_CNT_NOSCAN.V : Fld := ⟨0x620050, 0x0, 0x0, 31, 0⟩
def F.CLS_PAT_CNT_OVERLOAD.V : Fld := ⟨0x620048, 0x0, 0x0, 31, 0⟩
def F.CLS_PAT_CNT_SCANNED.V : Fld := ⟨0x620040, 0x0, 0x0, 31, 0⟩
def F.CLS_PAT_CNT_UNCORR.V : Fld := ⟨0x620054, 0x0, 0x0, 31, 0⟩
def F.CLS_PAT_CTRL.ENABLE : Fld := ⟨0x620000, 0x0, 0x0, 0, 0⟩
def F.CLS_PAT_EVENTS.OVERLOAD : Fld := ⟨0x620030, 0x0, 0x0, 0, 0⟩
def F.CLS_PAT_EVENTS.STORE_UNCORR : Fld := ⟨0x620030, 0x0, 0x0, 2, 2⟩
def F.CLS_PAT_INFO.GROUP_COUNT : Fld := ⟨0x620020, 0x0, 0x0, 22, 16⟩
def F.CLS_PAT_INFO.PATTERN_COUNT : Fld := ⟨0x620020, 0x0, 0x0, 15, 0⟩
def F.CLS_PAT_QUEUE.V : Fld := ⟨0x62000C, 0x0, 0x0, 16, 0⟩
def F.CLS_PAT_WAIT.V : Fld := ⟨0x620004, 0x0, 0x0, 31, 0⟩
def F.CLS_REGION_INFO.KIND : Fld := ⟨0x600400, 0x8, 0x0, 31, 29⟩
def F.CLS_REGION_INFO.SIZE : Fld := ⟨0x600400, 0x8, 0x0, 11, 0⟩
def F.CLS_REGION_USED.V : Fld := ⟨0x600404, 0x8, 0x0, 31, 0⟩
def F.CLS_STAGE_DATA.V : Fld := ⟨0x600100, 0x4, 0x0, 31, 0⟩
def F.CLS_TBANK_AWAKE.V : Fld := ⟨0x610018, 0x0, 0x0, 31, 0⟩
def F.CLS_TCMD.OPCODE : Fld := ⟨0x610000, 0x0, 0x0, 3, 0⟩
def F.CLS_TCMD_STATUS.DONE : Fld := ⟨0x610004, 0x0, 0x0, 31, 31⟩
def F.CLS_TCMD_STATUS.OVERRUN : Fld := ⟨0x610004, 0x0, 0x0, 29, 29⟩
def F.CLS_TCMD_STATUS.REASON : Fld := ⟨0x610004, 0x0, 0x0, 15, 8⟩
def F.CLS_TCMD_STATUS.RUNNING : Fld := ⟨0x610004, 0x0, 0x0, 30, 30⟩
def F.CLS_TCMD_STATUS.STATUS : Fld := ⟨0x610004, 0x0, 0x0, 3, 0⟩
def F.CLS_TCMD_VERSION.V : Fld := ⟨0x610008, 0x0, 0x0, 15, 0⟩
def F.CLS_TCNT_SCRUB_FIX.V : Fld := ⟨0x610044, 0x0, 0x0, 31, 0⟩
def F.CLS_TEVENTS.MOVE_LIMIT : Fld := ⟨0x610020, 0x0, 0x0, 2, 2⟩
def F.CLS_TEVENTS.REBAL_DONE : Fld := ⟨0x610020, 0x0, 0x0, 3, 3⟩
def F.CLS_TEVENTS.SCRUB_FIX : Fld := ⟨0x610020, 0x0, 0x0, 0, 0⟩
def F.CLS_TLAST.V : Fld := ⟨0x610010, 0x0, 0x0, 17, 0⟩
def F.CLS_TMOVE_LIMIT.V : Fld := ⟨0x61000C, 0x0, 0x0, 17, 0⟩
def F.CLS_TPOS.V : Fld := ⟨0x610014, 0x0, 0x0, 17, 0⟩
def F.CLS_TPROF_BANKS.V : Fld := ⟨0x610400, 0x8, 0x0, 31, 0⟩
def F.CLS_TPROF_INFO.HOLE_INTERVAL : Fld := ⟨0x610200, 0x8, 0x0, 29, 22⟩
def F.CLS_TPROF_INFO.PRESENT : Fld := ⟨0x610200, 0x8, 0x0, 21, 21⟩
def F.CLS_TPROF_INFO.UNITS : Fld := ⟨0x610200, 0x8, 0x0, 6, 0⟩
def F.CLS_TPROF_INFO.WIDTH : Fld := ⟨0x610200, 0x8, 0x0, 31, 30⟩
def F.CLS_TPROF_USED.V : Fld := ⟨0x610204, 0x8, 0x0, 18, 0⟩
def F.CLS_TSTAGE_DATA.V : Fld := ⟨0x610100, 0x4, 0x0, 31, 0⟩
def F.CLS_VERSION.CUR : Fld := ⟨0x600020, 0x0, 0x0, 15, 0⟩
def F.CLS_VERSION.OLDEST : Fld := ⟨0x600020, 0x0, 0x0, 31, 16⟩
def F.FLE_AGE_TIMEOUT.V : Fld := ⟨0x803F40, 0x4000, 0x8, 29, 0⟩
def F.FLE_AGE_TRANSIENT.V : Fld := ⟨0x803F44, 0x4000, 0x8, 29, 0⟩
def F.FLE_CNT_ALIAS.V : Fld := ⟨0x800160, 0x4000, 0x0, 31, 0⟩
def F.FLE_CNT_CACHE_CORR.V : Fld := ⟨0x800170, 0x4000, 0x0, 31, 0⟩
def F.FLE_CNT_DISCARD.V : Fld := ⟨0x800140, 0x4000, 0x0, 31, 0⟩
def F.FLE_CNT_ERR_DROP.V : Fld := ⟨0x800178, 0x4000, 0x0, 31, 0⟩
def F.FLE_CNT_EVICT.V : Fld := ⟨0x800130, 0x4000, 0x0, 31, 0⟩
def F.FLE_CNT_FILL.V : Fld := ⟨0x800110, 0x4000, 0x0, 31, 0⟩
def F.FLE_CNT_HAIRPIN.V : Fld := ⟨0x803FD4, 0x4000, 0x0, 31, 0⟩
def F.FLE_CNT_HELD.V : Fld := ⟨0x800138, 0x4000, 0x0, 31, 0⟩
def F.FLE_CNT_HIT.V : Fld := ⟨0x800100, 0x4000, 0x0, 31, 0⟩
def F.FLE_CNT_INPUT_FULL.V : Fld := ⟨0x800150, 0x4000, 0x0, 31, 0⟩
def F.FLE_CNT_INSERT.V : Fld := ⟨0x800120, 0x4000, 0x0, 31, 0⟩
def F.FLE_CNT_METER_NONE.V : Fld := ⟨0x803FD0, 0x4000, 0x0, 31, 0⟩
def F.FLE_CNT_MISS.V : Fld := ⟨0x800108, 0x4000, 0x0, 31, 0⟩
def F.FLE_CNT_NOTIFY_LOST.V : Fld := ⟨0x800180, 0x4000, 0x0, 31, 0⟩
def F.FLE_CNT_REFUSED.V : Fld := ⟨0x800168, 0x4000, 0x0, 31, 0⟩
def F.FLE_CNT_SETUP.V : Fld := ⟨0x800128, 0x4000, 0x0, 31, 0⟩
def F.FLE_CNT_STATION.V : Fld := ⟨0x800148, 0x4000, 0x0, 31, 0⟩
def F.FLE_CNT_STATION_FULL.V : Fld := ⟨0x800158, 0x4000, 0x0, 31, 0⟩
def F.FLE_CNT_SWEEP_DEL.V : Fld := ⟨0x803FC4, 0x4000, 0x0, 31, 0⟩
def F.FLE_CNT_SWEEP_REPORT.V : Fld := ⟨0x803FC8, 0x4000, 0x0, 31, 0⟩
def F.FLE_CNT_TCP_INVALID.V : Fld := ⟨0x803FCC, 0x4000, 0x0, 31, 0⟩
def F.FLE_CNT_WRITEBACK.V : Fld := ⟨0x800118, 0x4000, 0x0, 31, 0⟩
def F.FLE_ENG_ID.ENGINE : Fld := ⟨0x803E04, 0x4000, 0x0, 6, 0⟩
def F.FLE_EVENTS.ALIAS : Fld := ⟨0x800020, 0x4000, 0x0, 4, 4⟩
def F.FLE_EVENTS.CACHE_CORR : Fld := ⟨0x800020, 0x4000, 0x0, 0, 0⟩
def F.FLE_EVENTS.CACHE_UNCORR : Fld := ⟨0x800020, 0x4000, 0x0, 1, 1⟩
def F.FLE_EVENTS.DRAM_ERR : Fld := ⟨0x800020, 0x4000, 0x0, 2, 2⟩
def F.FLE_EVENTS.OVERFLOW : Fld := ⟨0x800020, 0x4000, 0x0, 5, 5⟩
def F.FLE_EVENTS.REFUSED_WRITE : Fld := ⟨0x800020, 0x4000, 0x0, 3, 3⟩
def F.FLE_EVENTS.STATION_FULL : Fld := ⟨0x800020, 0x4000, 0x0, 6, 6⟩
def F.FLE_EVICT_RANK.V : Fld := ⟨0x80000C, 0x4000, 0x0, 31, 0⟩
def F.FLE_HC_B1.V : Fld := ⟨0x803E4C, 0x4000, 0x0, 18, 0⟩
def F.FLE_HC_B2.V : Fld := ⟨0x803E50, 0x4000, 0x0, 18, 0⟩
def F.FLE_HC_CTRL.CANON : Fld := ⟨0x803E08, 0x4000, 0x0, 1, 1⟩
def F.FLE_HC_H1.V : Fld := ⟨0x803E40, 0x4000, 0x0, 31, 0⟩
def F.FLE_HC_H2.V : Fld := ⟨0x803E44, 0x4000, 0x0, 31, 0⟩
def F.FLE_HC_IDX.ENGINE : Fld := ⟨0x803E48, 0x4000, 0x0, 6, 0⟩
def F.FLE_HC_IDX.ORIENT : Fld := ⟨0x803E48, 0x4000, 0x0, 31, 31⟩
def F.FLE_HC_IDX.SET : Fld := ⟨0x803E48, 0x4000, 0x0, 27, 18⟩
def F.FLE_HC_IDX.SLOT : Fld := ⟨0x803E48, 0x4000, 0x0, 15, 8⟩
def F.FLE_HC_KEY.V : Fld := ⟨0x803E10, 0x4000, 0x4, 31, 0⟩
def F.FLE_LAST_REFUSED.CONTEXT : Fld := ⟨0x800028, 0x4000, 0x0, 9, 0⟩
def F.FLE_LAST_REFUSED.KIND : Fld := ⟨0x800028, 0x4000, 0x0, 27, 24⟩
def F.FLE_LAST_REFUSED.REASON : Fld := ⟨0x800028, 0x4000, 0x0, 31, 28⟩
def F.FLE_MISS_WAIT.WAIT : Fld := ⟨0x800004, 0x4000, 0x0, 16, 0⟩
def F.FLE_OCC0.STATION : Fld := ⟨0x800014, 0x4000, 0x0, 28, 16⟩
def F.FLE_OCC1.SETUPQ : Fld := ⟨0x800018, 0x4000, 0x0, 31, 23⟩
def F.FLE_OCC2.INPUT : Fld := ⟨0x80001C, 0x4000, 0x0, 9, 0⟩
def F.FLE_SETUP_WAIT.WAIT : Fld := ⟨0x800008, 0x4000, 0x0, 16, 0⟩
def F.FLE_STATUS.AWAKE : Fld := ⟨0x800000, 0x4000, 0x0, 31, 31⟩
def F.FLE_SVC_TCP.INVALID_ACT : Fld := ⟨0x803F00, 0x4000, 0x0, 1, 0⟩
def F.FLE_SVC_TCP.PICKUP : Fld := ⟨0x803F00, 0x4000, 0x0, 2, 2⟩
def F.FLE_SWEEP_CLASS.CLASS : Fld := ⟨0x803F08, 0x4000, 0x0, 5, 0⟩
def F.FLE_SWEEP_CTRL.CHUNK : Fld := ⟨0x803F04, 0x4000, 0x0, 26, 16⟩
def F.FLE_SWEEP_CTRL.ENABLE : Fld := ⟨0x803F04, 0x4000, 0x0, 31, 31⟩
def F.FLE_SWEEP_CURSOR.V : Fld := ⟨0x803FC0, 0x4000, 0x0, 18, 0⟩
def F.FLE_TBL_INFO.BASE_GIB : Fld := ⟨0x803E00, 0x4000, 0x0, 23, 16⟩
def F.FLE_TBL_INFO.NB_LOG2 : Fld := ⟨0x803E00, 0x4000, 0x0, 12, 8⟩
def F.FLE_TBL_INFO.SLOTS_LOG2 : Fld := ⟨0x803E00, 0x4000, 0x0, 4, 0⟩
def F.FLE_TPL_CREATE.V : Fld := ⟨0x801010, 0x4000, 0x20, 31, 0⟩
def F.FLE_TPL_HIT.V : Fld := ⟨0x801000, 0x4000, 0x20, 31, 0⟩
def F.FLE_TPL_MISS.V : Fld := ⟨0x801008, 0x4000, 0x20, 31, 0⟩
def F.FLE_TPL_MISS_FB.V : Fld := ⟨0x801014, 0x4000, 0x20, 31, 0⟩
def F.FLE_TPL_OVERFLOW.EVICT : Fld := ⟨0x80101C, 0x4000, 0x20, 31, 16⟩
def F.FLE_TPL_OVERFLOW.REFUSE : Fld := ⟨0x80101C, 0x4000, 0x20, 15, 0⟩
def F.FLE_TPL_SETUP_FB.V : Fld := ⟨0x801018, 0x4000, 0x20, 31, 0⟩
def F.GLB_CNT_RECOVERED.V : Fld := ⟨0x10C, 0x0, 0x0, 31, 0⟩
def F.GLB_FAMILY.MEMBER : Fld := ⟨0x8, 0x0, 0x0, 7, 0⟩
def F.GLB_REC_ACTIVE.V : Fld := ⟨0x200, 0x4, 0x0, 31, 0⟩
def F.GLB_REC_COUNT.ACTIVE : Fld := ⟨0x108, 0x0, 0x0, 10, 0⟩
def F.GLB_REC_COUNT.STOPPED : Fld := ⟨0x108, 0x0, 0x0, 26, 16⟩
def F.GLB_REC_CTRL.MANUAL : Fld := ⟨0x100, 0x0, 0x0, 7, 0⟩
def F.GLB_REC_GO.GO : Fld := ⟨0x104, 0x0, 0x0, 31, 31⟩
def F.GLB_REC_LAST.CAUSE : Fld := ⟨0x110, 0x0, 0x0, 31, 24⟩
def F.GLB_REC_LAST.INSTANCE : Fld := ⟨0x110, 0x0, 0x0, 9, 0⟩
def F.GLB_REC_LAST.KIND : Fld := ⟨0x110, 0x0, 0x0, 23, 21⟩
def F.GLB_REC_LAST.SECOND : Fld := ⟨0x110, 0x0, 0x0, 20, 20⟩
def F.GLB_REC_LAST_TIME.V : Fld := ⟨0x114, 0x0, 0x0, 31, 0⟩
def F.GLB_REC_STOPPED.V : Fld := ⟨0x400, 0x4, 0x0, 31, 0⟩
def F.GLB_STATUS.DRAM_TRAINED : Fld := ⟨0x40, 0x0, 0x0, 1, 1⟩
def F.GLB_STATUS.FAULT_PENDING : Fld := ⟨0x40, 0x0, 0x0, 7, 7⟩
def F.GLB_STATUS.PLATE_LOADED : Fld := ⟨0x40, 0x0, 0x0, 2, 2⟩
def F.GLB_STATUS.READY : Fld := ⟨0x40, 0x0, 0x0, 0, 0⟩
def F.GLB_STATUS.RECOVERING : Fld := ⟨0x40, 0x0, 0x0, 6, 6⟩
def F.GLB_STATUS.SAFELIGHT_ACTIVE : Fld := ⟨0x40, 0x0, 0x0, 3, 3⟩
def F.GLB_STATUS.TIME_VALID : Fld := ⟨0x40, 0x0, 0x0, 4, 4⟩
def F.GLB_STATUS.WATCH_MODE : Fld := ⟨0x40, 0x0, 0x0, 5, 5⟩
def F.GNG_CMD.OPCODE : Fld := ⟨0x50008, 0x0, 0x0, 3, 0⟩
def F.GNG_CMD_STATUS.DONE : Fld := ⟨0x5000C, 0x0, 0x0, 31, 31⟩
def F.GNG_CMD_STATUS.OVERRUN : Fld := ⟨0x5000C, 0x0, 0x0, 29, 29⟩
def F.GNG_CMD_STATUS.RUNNING : Fld := ⟨0x5000C, 0x0, 0x0, 30, 30⟩
def F.GNG_CMD_STATUS.STATUS : Fld := ⟨0x5000C, 0x0, 0x0, 3, 0⟩
def F.GNG_CMD_TIME.V : Fld := ⟨0x50010, 0x0, 0x0, 31, 0⟩
def F.GNG_CNT_ITEM_FAIL.V : Fld := ⟨0x5003C, 0x0, 0x0, 31, 0⟩
def F.GNG_CNT_ITEM_LOST.V : Fld := ⟨0x50038, 0x0, 0x0, 31, 0⟩
def F.GNG_CTRL.REPL_EN : Fld := ⟨0x50000, 0x0, 0x0, 0, 0⟩
def F.GNG_CTRL.TIME_FOLLOW : Fld := ⟨0x50000, 0x0, 0x0, 1, 1⟩
def F.GNG_EPOCH.V : Fld := ⟨0x50018, 0x0, 0x0, 31, 0⟩
def F.GNG_EVENTS.COMMIT : Fld := ⟨0x50030, 0x0, 0x0, 2, 2⟩
def F.GNG_EVENTS.ISOLATED : Fld := ⟨0x50030, 0x0, 0x0, 4, 4⟩
def F.GNG_EVENTS.LINK : Fld := ⟨0x50030, 0x0, 0x0, 0, 0⟩
def F.GNG_EVENTS.MISMATCH : Fld := ⟨0x50030, 0x0, 0x0, 1, 1⟩
def F.GNG_EVENTS.PEER_LOST : Fld := ⟨0x50030, 0x0, 0x0, 3, 3⟩
def F.GNG_ITEM_CLASS.V : Fld := ⟨0x5002C, 0x0, 0x0, 7, 0⟩
def F.GNG_LOSS.V : Fld := ⟨0x50020, 0x0, 0x0, 13, 0⟩
def F.GNG_MAP.V : Fld := ⟨0x50100, 0x4, 0x0, 31, 0⟩
def F.GNG_PEER_ASYM.V : Fld := ⟨0x51004, 0x100, 0x0, 31, 0⟩
def F.GNG_PEER_CNT_DISCARD.V : Fld := ⟨0x51020, 0x100, 0x0, 31, 0⟩
def F.GNG_PEER_CNT_FOREIGN.V : Fld := ⟨0x51038, 0x100, 0x0, 31, 0⟩
def F.GNG_PEER_CNT_LATE.V : Fld := ⟨0x51018, 0x100, 0x0, 31, 0⟩
def F.GNG_PEER_CNT_NOT_OWNER.V : Fld := ⟨0x5101C, 0x100, 0x0, 31, 0⟩
def F.GNG_PEER_CNT_OVERSIZE.V : Fld := ⟨0x51034, 0x100, 0x0, 31, 0⟩
def F.GNG_PEER_CNT_REPL.V : Fld := ⟨0x51024, 0x100, 0x0, 31, 0⟩
def F.GNG_PEER_CNT_REPL_FULL.V : Fld := ⟨0x5102C, 0x100, 0x0, 31, 0⟩
def F.GNG_PEER_CNT_ROP.V : Fld := ⟨0x51010, 0x100, 0x0, 31, 0⟩
def F.GNG_PEER_CNT_SEQ_GAP.V : Fld := ⟨0x51030, 0x100, 0x0, 31, 0⟩
def F.GNG_PEER_CNT_TIMEOUT.V : Fld := ⟨0x51014, 0x100, 0x0, 31, 0⟩
def F.GNG_PEER_STATUS.L0 : Fld := ⟨0x51000, 0x100, 0x0, 8, 0⟩
def F.GNG_PEER_STATUS.LINK_STATE : Fld := ⟨0x51000, 0x100, 0x0, 31, 30⟩
def F.GNG_PEER_STATUS.PORTS : Fld := ⟨0x51000, 0x100, 0x0, 27, 24⟩
def F.GNG_PEER_THETA.V : Fld := ⟨0x51008, 0x100, 0x0, 31, 0⟩
def F.GNG_REPL.REFRESH : Fld := ⟨0x50024, 0x0, 0x0, 27, 16⟩
def F.GNG_REPL.SHARE : Fld := ⟨0x50024, 0x0, 0x0, 5, 0⟩
def F.GNG_ROP_WAIT.V : Fld := ⟨0x5001C, 0x0, 0x0, 13, 0⟩
def F.GNG_STATUS.COORD : Fld := ⟨0x50004, 0x0, 0x0, 28, 27⟩
def F.GNG_STATUS.DEVICE : Fld := ⟨0x50004, 0x0, 0x0, 1, 0⟩
def F.GNG_STATUS.MEMBERS : Fld := ⟨0x50004, 0x0, 0x0, 26, 23⟩
def F.GNG_STATUS.STATE : Fld := ⟨0x50004, 0x0, 0x0, 31, 29⟩
def F.GNG_STATUS.TIME_LOCKED : Fld := ⟨0x50004, 0x0, 0x0, 22, 22⟩
def F.GNG_TIME_STEP.V : Fld := ⟨0x50028, 0x0, 0x0, 19, 0⟩
def F.HBM_CH_CAP2.ADDR_LO : Fld := ⟨0xC20018, 0x400, 0x0, 31, 0⟩
def F.HBM_CH_CAP3.OVERFLOW : Fld := ⟨0xC2001C, 0x400, 0x0, 31, 31⟩
def F.HBM_CH_CAP3.TYPE : Fld := ⟨0xC2001C, 0x400, 0x0, 15, 8⟩
def F.HBM_CH_CAP3.all : Fld := ⟨0xC2001C, 0x400, 0x0, 31, 0⟩
def F.HBM_CH_CAP4.all : Fld := ⟨0xC20020, 0x400, 0x0, 31, 0⟩
def F.HBM_CH_CAP5.SYNDROME : Fld := ⟨0xC20024, 0x400, 0x0, 31, 0⟩
def F.HBM_CH_CAP_TIME.V : Fld := ⟨0xC20010, 0x400, 0x0, 31, 0⟩
def F.HBM_CH_CNT_CORR.V : Fld := ⟨0xC20030, 0x400, 0x0, 31, 0⟩
def F.HBM_CH_CNT_NRR.V : Fld := ⟨0xC20034, 0x400, 0x0, 31, 0⟩
def F.HBM_CH_CTRL.RELEASE : Fld := ⟨0xC20004, 0x400, 0x0, 0, 0⟩
def F.HBM_CH_HIST.all : Fld := ⟨0xC20200, 0x400, 0x8, 31, 0⟩
def F.HBM_CH_HIST_AGE.V : Fld := ⟨0xC20204, 0x400, 0x8, 15, 0⟩
def F.HBM_CH_STATUS.DOUBLE : Fld := ⟨0xC20000, 0x400, 0x0, 18, 18⟩
def F.HBM_CH_STATUS.OWED0 : Fld := ⟨0xC20000, 0x400, 0x0, 22, 19⟩
def F.HBM_CH_STATUS.OWED1 : Fld := ⟨0xC20000, 0x400, 0x0, 26, 23⟩
def F.HBM_CH_STATUS.PD0 : Fld := ⟨0xC20000, 0x400, 0x0, 27, 27⟩
def F.HBM_CH_STATUS.PD1 : Fld := ⟨0xC20000, 0x400, 0x0, 28, 28⟩
def F.HBM_CH_STATUS.STATE : Fld := ⟨0xC20000, 0x400, 0x0, 31, 29⟩
def F.HBM_CH_TRN_RD.DLY : Fld := ⟨0xC20100, 0x400, 0x8, 6, 0⟩
def F.HBM_CH_TRN_RD.all : Fld := ⟨0xC20100, 0x400, 0x8, 31, 0⟩
def F.HBM_CH_TRN_WR.DLY : Fld := ⟨0xC20104, 0x400, 0x8, 6, 0⟩
def F.HBM_CH_TRN_WR.all : Fld := ⟨0xC20104, 0x400, 0x8, 31, 0⟩
def F.HBM_CNT_CORR.V : Fld := ⟨0xC00040, 0x0, 0x0, 31, 0⟩
def F.HBM_CNT_SCRUB_FIX.V : Fld := ⟨0xC00044, 0x0, 0x0, 31, 0⟩
def F.HBM_CTRL.SCRUB_EN : Fld := ⟨0xC00000, 0x0, 0x0, 1, 1⟩
def F.HBM_CTRL.SR_EN : Fld := ⟨0xC00000, 0x0, 0x0, 0, 0⟩
def F.HBM_CTRL.TRACK_EN : Fld := ⟨0xC00000, 0x0, 0x0, 2, 2⟩
def F.HBM_EVENTS.COOL : Fld := ⟨0xC00008, 0x0, 0x0, 4, 4⟩
def F.HBM_EVENTS.CORR : Fld := ⟨0xC00008, 0x0, 0x0, 0, 0⟩
def F.HBM_EVENTS.FREEZE : Fld := ⟨0xC00008, 0x0, 0x0, 1, 1⟩
def F.HBM_EVENTS.FREQ_DONE : Fld := ⟨0xC00008, 0x0, 0x0, 5, 5⟩
def F.HBM_EVENTS.HOT : Fld := ⟨0xC00008, 0x0, 0x0, 3, 3⟩
def F.HBM_EVENTS.TRAIN_FAIL : Fld := ⟨0xC00008, 0x0, 0x0, 2, 2⟩
def F.HBM_FENCE.DONE : Fld := ⟨0xC00010, 0x0, 0x0, 31, 31⟩
def F.HBM_FENCE.MASK : Fld := ⟨0xC00010, 0x0, 0x0, 7, 0⟩
def F.HBM_FENCE.RUNNING : Fld := ⟨0xC00010, 0x0, 0x0, 30, 30⟩
def F.HBM_LAYOUT.RESERVED_GIB : Fld := ⟨0xC00028, 0x0, 0x0, 15, 8⟩
def F.HBM_LAYOUT.SVC_TABLE_GIB : Fld := ⟨0xC00028, 0x0, 0x0, 7, 0⟩
def F.HBM_PD_IDLE.V : Fld := ⟨0xC0001C, 0x0, 0x0, 15, 0⟩
def F.HBM_REF_TEMP.COOL : Fld := ⟨0xC00018, 0x0, 0x0, 7, 0⟩
def F.HBM_REF_TEMP.HOT : Fld := ⟨0xC00018, 0x0, 0x0, 15, 8⟩
def F.HBM_REQ_CNT_LATE.V : Fld := ⟨0xC00108, 0x10, 0x0, 31, 0⟩
def F.HBM_REQ_LAT_MAX.V : Fld := ⟨0xC00104, 0x10, 0x0, 23, 0⟩
def F.HBM_REQ_QUEUED.V : Fld := ⟨0xC0010C, 0x10, 0x0, 15, 0⟩
def F.HBM_REQ_TARGET.V : Fld := ⟨0xC00100, 0x10, 0x0, 16, 0⟩
def F.HBM_RH_THRESH.V : Fld := ⟨0xC00014, 0x0, 0x0, 15, 0⟩
def F.HBM_SCRUB_PERIOD.V : Fld := ⟨0xC00024, 0x0, 0x0, 13, 0⟩
def F.HBM_SR_IDLE.V : Fld := ⟨0xC00020, 0x0, 0x0, 15, 0⟩
def F.HBM_STATUS.FROZEN : Fld := ⟨0xC00004, 0x0, 0x0, 23, 16⟩
def F.HBM_STATUS.LAST_FROZEN : Fld := ⟨0xC00004, 0x0, 0x0, 14, 8⟩
def F.HBM_STATUS.TRAINED : Fld := ⟨0xC00004, 0x0, 0x0, 5, 0⟩
def F.HBM_STK_CTRL.RATE : Fld := ⟨0xC01000, 0x100, 0x0, 1, 0⟩
def F.HBM_STK_STATUS.HOT : Fld := ⟨0xC01004, 0x100, 0x0, 28, 28⟩
def F.HBM_STK_STATUS.PENDING : Fld := ⟨0xC01004, 0x100, 0x0, 27, 27⟩
def F.HBM_STK_STATUS.RATE_CUR : Fld := ⟨0xC01004, 0x100, 0x0, 24, 23⟩
def F.HBM_STK_STATUS.RATE_PEND : Fld := ⟨0xC01004, 0x100, 0x0, 26, 25⟩
def F.HBM_STK_STATUS.STATE : Fld := ⟨0xC01004, 0x100, 0x0, 31, 29⟩
def F.HBM_STK_STATUS.TEMP : Fld := ⟨0xC01004, 0x100, 0x0, 7, 0⟩
def F.HBM_STK_STATUS.TEMP_VALID : Fld := ⟨0xC01004, 0x100, 0x0, 8, 8⟩
def F.HST_CAUSE.V : Fld := ⟨0x8A000, 0x4, 0x0, 31, 0⟩
def F.HST_CNT_PUNT_DROP.V : Fld := ⟨0x89020, 0x0, 0x0, 31, 0⟩
def F.HST_ERR_ADDR.V : Fld := ⟨0x89010, 0x0, 0x0, 31, 0⟩
def F.HST_ERR_CAUSE.BAD_READ : Fld := ⟨0x89008, 0x0, 0x0, 1, 1⟩
def F.HST_ERR_CAUSE.BAD_WRITE : Fld := ⟨0x89008, 0x0, 0x0, 0, 0⟩
def F.HST_ERR_CAUSE.DMA_FAULT : Fld := ⟨0x89008, 0x0, 0x0, 6, 6⟩
def F.HST_ERR_CAUSE.RESET_DENIED : Fld := ⟨0x89008, 0x0, 0x0, 2, 2⟩
def F.HST_ERR_CAUSE.RING_OVERPOST : Fld := ⟨0x89008, 0x0, 0x0, 5, 5⟩
def F.HST_ERR_CAUSE.WIN_FLOW_AREA : Fld := ⟨0x89008, 0x0, 0x0, 4, 4⟩
def F.HST_ERR_CAUSE.WIN_RESERVED : Fld := ⟨0x89008, 0x0, 0x0, 3, 3⟩
def F.HST_ERR_CAUSE.all : Fld := ⟨0x89008, 0x0, 0x0, 31, 0⟩
def F.HST_LINK_STATUS.all : Fld := ⟨0x89000, 0x0, 0x0, 31, 0⟩
def F.HST_MSIX_PBA.V : Fld := ⟨0x88000, 0x4, 0x0, 31, 0⟩
def F.HST_MSIX_TBL.V : Fld := ⟨0x80000, 0x10, 0x4, 31, 0⟩
def F.HST_PUNT.ENABLE : Fld := ⟨0x8E000, 0x4, 0x0, 31, 31⟩
def F.HST_PUNT.RING : Fld := ⟨0x8E000, 0x4, 0x0, 8, 0⟩
def F.HST_PUNT.SPREAD : Fld := ⟨0x8E000, 0x4, 0x0, 18, 16⟩
def F.HST_RESET.V : Fld := ⟨0x8901C, 0x0, 0x0, 31, 0⟩
def F.HST_RING_BASE.V : Fld := ⟨0x90000, 0x20, 0x0, 31, 0⟩
def F.HST_RING_CFG.ENABLE : Fld := ⟨0x90008, 0x20, 0x0, 31, 31⟩
def F.HST_RING_CFG.MODE : Fld := ⟨0x90008, 0x20, 0x0, 30, 30⟩
def F.HST_RING_CFG.SIZE_LOG2 : Fld := ⟨0x90008, 0x20, 0x0, 27, 24⟩
def F.HST_RING_CFG.VECTOR : Fld := ⟨0x90008, 0x20, 0x0, 10, 0⟩
def F.HST_RING_CNT_DROP.V : Fld := ⟨0x9001C, 0x20, 0x0, 31, 0⟩
def F.HST_RING_HEAD.V : Fld := ⟨0x90014, 0x20, 0x0, 15, 0⟩
def F.HST_RING_STATUS.ERROR : Fld := ⟨0x90018, 0x20, 0x0, 30, 30⟩
def F.HST_RING_STATUS.STOPPED : Fld := ⟨0x90018, 0x20, 0x0, 31, 31⟩
def F.HST_RING_TAIL.V : Fld := ⟨0x90010, 0x20, 0x0, 15, 0⟩
def F.HST_SRC_VEC.MASK : Fld := ⟨0x8C000, 0x4, 0x0, 31, 31⟩
def F.HST_SRC_VEC.VECTOR : Fld := ⟨0x8C000, 0x4, 0x0, 10, 0⟩
def F.HST_TW_CMD.OPCODE : Fld := ⟨0xA0000, 0x400, 0x0, 3, 0⟩
def F.HST_TW_CMD.TABLE : Fld := ⟨0xA0000, 0x400, 0x0, 23, 16⟩
def F.HST_TW_DATA.V : Fld := ⟨0xA0100, 0x400, 0x4, 31, 0⟩
def F.HST_TW_INDEX.V : Fld := ⟨0xA0008, 0x400, 0x0, 31, 0⟩
def F.HST_TW_STATUS.DONE : Fld := ⟨0xA0004, 0x400, 0x0, 31, 31⟩
def F.HST_TW_STATUS.OVERRUN : Fld := ⟨0xA0004, 0x400, 0x0, 29, 29⟩
def F.HST_TW_STATUS.REASON : Fld := ⟨0xA0004, 0x400, 0x0, 15, 8⟩
def F.HST_TW_STATUS.RUNNING : Fld := ⟨0xA0004, 0x400, 0x0, 30, 30⟩
def F.HST_TW_STATUS.STATUS : Fld := ⟨0xA0004, 0x400, 0x0, 3, 0⟩
def F.HST_WIN_BASE.BASE_GIB : Fld := ⟨0x89004, 0x0, 0x0, 7, 0⟩
def F.LNA_CTRL.DIM_EN : Fld := ⟨0x200000, 0x400, 0x0, 4, 4⟩
def F.LNA_CTRL.ENABLE : Fld := ⟨0x200000, 0x400, 0x0, 0, 0⟩
def F.LNA_DIM_COUNT.V : Fld := ⟨0x200108, 0x400, 0x0, 31, 0⟩
def F.LNA_EVENTS.DOWN : Fld := ⟨0x200018, 0x400, 0x0, 1, 1⟩
def F.LNA_EVENTS.FFE_REJECT : Fld := ⟨0x200018, 0x400, 0x0, 6, 6⟩
def F.LNA_EVENTS.PC_LOCK_LOST : Fld := ⟨0x200018, 0x400, 0x0, 4, 4⟩
def F.LNA_EVENTS.PIN_FAULT : Fld := ⟨0x200018, 0x400, 0x0, 3, 3⟩
def F.LNA_EVENTS.POLARITY : Fld := ⟨0x200018, 0x400, 0x0, 5, 5⟩
def F.LNA_EVENTS.TRAIN_FAIL : Fld := ⟨0x200018, 0x400, 0x0, 2, 2⟩
def F.LNA_EVENTS.UP : Fld := ⟨0x200018, 0x400, 0x0, 0, 0⟩
def F.LNA_MODE.BRINGUP : Fld := ⟨0x200008, 0x400, 0x0, 1, 0⟩
def F.LNA_MODE.RATE : Fld := ⟨0x200008, 0x400, 0x0, 7, 4⟩
def F.LNA_MODE.REACH : Fld := ⟨0x200008, 0x400, 0x0, 3, 2⟩
def F.LNA_PC_BITS.V : Fld := ⟨0x2000B0, 0x400, 0x0, 31, 0⟩
def F.LNA_PC_CTRL.ENABLE : Fld := ⟨0x2000A0, 0x400, 0x0, 0, 0⟩
def F.LNA_PC_CTRL.PATTERN : Fld := ⟨0x2000A0, 0x400, 0x0, 7, 4⟩
def F.LNA_PC_ERR.V : Fld := ⟨0x2000A8, 0x400, 0x0, 31, 0⟩
def F.LNA_PC_STATUS.LOCK : Fld := ⟨0x2000A4, 0x400, 0x0, 0, 0⟩
def F.LNA_PC_STATUS.LOCK_LOST : Fld := ⟨0x2000A4, 0x400, 0x0, 1, 1⟩
def F.LNA_PG_CTRL.ENABLE : Fld := ⟨0x200080, 0x400, 0x0, 0, 0⟩
def F.LNA_PG_CTRL.PATTERN : Fld := ⟨0x200080, 0x400, 0x0, 7, 4⟩
def F.LNA_PG_INJ.TARGET : Fld := ⟨0x20008C, 0x400, 0x0, 2, 2⟩
def F.LNA_PG_INJ_COUNT.V : Fld := ⟨0x200094, 0x400, 0x0, 31, 0⟩
def F.LNA_PG_INJ_PERIOD.V : Fld := ⟨0x200090, 0x400, 0x0, 31, 0⟩
def F.LNA_PIN_CTRL.RX_POL : Fld := ⟨0x200104, 0x400, 0x0, 3, 2⟩
def F.LNA_PIN_CTRL.TX_INVERT : Fld := ⟨0x200104, 0x400, 0x0, 1, 1⟩
def F.LNA_PIN_STATUS.RX_FAULT : Fld := ⟨0x200100, 0x400, 0x0, 15, 12⟩
def F.LNA_PIN_STATUS.TESTING : Fld := ⟨0x200100, 0x400, 0x0, 0, 0⟩
def F.LNA_PIN_STATUS.TX_FAULT : Fld := ⟨0x200100, 0x400, 0x0, 11, 8⟩
def F.LNA_RX_ALIGN.ALIGN_MODE : Fld := ⟨0x2000C0, 0x400, 0x0, 16, 16⟩
def F.LNA_RX_ALIGN.SLIP_COUNT : Fld := ⟨0x2000C0, 0x400, 0x0, 6, 0⟩
def F.LNA_RX_CAP.V : Fld := ⟨0x2000C8, 0x400, 0x0, 31, 0⟩
def F.LNA_RX_CAP_CTRL.CAPTURE : Fld := ⟨0x2000C4, 0x400, 0x0, 0, 0⟩
def F.LNA_RX_EQ.FREEZE : Fld := ⟨0x200010, 0x400, 0x0, 2, 2⟩
def F.LNA_RX_EQ_STATUS.CTLE_PEAK : Fld := ⟨0x200014, 0x400, 0x0, 31, 24⟩
def F.LNA_RX_EQ_STATUS.EYE_MARGIN : Fld := ⟨0x200014, 0x400, 0x0, 7, 0⟩
def F.LNA_RX_EQ_STATUS.GAIN : Fld := ⟨0x200014, 0x400, 0x0, 23, 16⟩
def F.LNA_SC_CTRL.MAXSTEP : Fld := ⟨0x200020, 0x400, 0x0, 1, 0⟩
def F.LNA_SC_LAST_ERR.V : Fld := ⟨0x200038, 0x400, 0x0, 31, 0⟩
def F.LNA_SC_PARTNER.V : Fld := ⟨0x200028, 0x400, 0x4, 31, 0⟩
def F.LNA_SC_QUAL_LIMIT.V : Fld := ⟨0x200034, 0x400, 0x0, 31, 0⟩
def F.LNA_SC_STATUS.ATTEMPTS : Fld := ⟨0x200024, 0x400, 0x0, 31, 16⟩
def F.LNA_SC_STATUS.BACKOFF : Fld := ⟨0x200024, 0x400, 0x0, 15, 11⟩
def F.LNA_SC_STATUS.CAPPED : Fld := ⟨0x200024, 0x400, 0x0, 6, 6⟩
def F.LNA_SC_STATUS.CAP_STEP : Fld := ⟨0x200024, 0x400, 0x0, 5, 4⟩
def F.LNA_SC_STATUS.FAILED_AT : Fld := ⟨0x200024, 0x400, 0x0, 10, 9⟩
def F.LNA_SC_STATUS.FAIL_COUNT : Fld := ⟨0x200024, 0x400, 0x0, 8, 7⟩
def F.LNA_SC_STATUS.PARTNER_MAX : Fld := ⟨0x200024, 0x400, 0x0, 1, 0⟩
def F.LNA_SC_STATUS.TARGET : Fld := ⟨0x200024, 0x400, 0x0, 3, 2⟩
def F.LNA_STATUS.ADAPT_FROZEN : Fld := ⟨0x200004, 0x400, 0x0, 20, 20⟩
def F.LNA_STATUS.CDR_LOCK : Fld := ⟨0x200004, 0x400, 0x0, 18, 18⟩
def F.LNA_STATUS.REASON : Fld := ⟨0x200004, 0x400, 0x0, 25, 22⟩
def F.LNA_STATUS.RX_DIM : Fld := ⟨0x200004, 0x400, 0x0, 16, 16⟩
def F.LNA_STATUS.RX_INVERTED : Fld := ⟨0x200004, 0x400, 0x0, 21, 21⟩
def F.LNA_STATUS.SIGNAL : Fld := ⟨0x200004, 0x400, 0x0, 19, 19⟩
def F.LNA_STATUS.STATE : Fld := ⟨0x200004, 0x400, 0x0, 31, 28⟩
def F.LNA_STATUS.STEP : Fld := ⟨0x200004, 0x400, 0x0, 27, 26⟩
def F.LNA_STATUS.TX_DIM : Fld := ⟨0x200004, 0x400, 0x0, 17, 17⟩
def F.LNA_TX_FFE.all : Fld := ⟨0x20000C, 0x400, 0x0, 31, 0⟩
def F.MGT_CNT_OOB_DROP.V : Fld := ⟨0x30038, 0x0, 0x0, 31, 0⟩
def F.MGT_CNT_PARK.V : Fld := ⟨0x30034, 0x0, 0x0, 31, 0⟩
def F.MGT_EVENTS.FW_FALLBACK : Fld := ⟨0x30008, 0x0, 0x0, 4, 4⟩
def F.MGT_EVENTS.LOG_LOST : Fld := ⟨0x30008, 0x0, 0x0, 5, 5⟩
def F.MGT_EVENTS.MLANE : Fld := ⟨0x30008, 0x0, 0x0, 6, 6⟩
def F.MGT_EVENTS.MP_FAIL : Fld := ⟨0x30008, 0x0, 0x0, 3, 3⟩
def F.MGT_EVENTS.SENSOR_HI : Fld := ⟨0x30008, 0x0, 0x0, 0, 0⟩
def F.MGT_EVENTS.SENSOR_LO : Fld := ⟨0x30008, 0x0, 0x0, 1, 1⟩
def F.MGT_EVENTS.VIN_RANGE : Fld := ⟨0x30008, 0x0, 0x0, 2, 2⟩
def F.MGT_FLE_IDLE.V : Fld := ⟨0x3002C, 0x0, 0x0, 15, 0⟩
def F.MGT_LOG_HEAD.V : Fld := ⟨0x30400, 0x0, 0x0, 31, 0⟩
def F.MGT_LOG_STATUS.BUFFERED : Fld := ⟨0x30408, 0x0, 0x0, 10, 0⟩
def F.MGT_LOG_STATUS.LOST : Fld := ⟨0x30408, 0x0, 0x0, 31, 16⟩
def F.MGT_MBX_ARG.V : Fld := ⟨0x30110, 0x4, 0x0, 31, 0⟩
def F.MGT_MBX_CMD.OPCODE : Fld := ⟨0x30100, 0x0, 0x0, 7, 0⟩
def F.MGT_MBX_CMD.all : Fld := ⟨0x30100, 0x0, 0x0, 31, 0⟩
def F.MGT_MBX_DATA.V : Fld := ⟨0x30200, 0x4, 0x0, 31, 0⟩
def F.MGT_MBX_STATUS.DONE : Fld := ⟨0x30104, 0x0, 0x0, 31, 31⟩
def F.MGT_MBX_STATUS.OVERRUN : Fld := ⟨0x30104, 0x0, 0x0, 29, 29⟩
def F.MGT_MBX_STATUS.REASON : Fld := ⟨0x30104, 0x0, 0x0, 15, 8⟩
def F.MGT_MBX_STATUS.RUNNING : Fld := ⟨0x30104, 0x0, 0x0, 30, 30⟩
def F.MGT_MBX_STATUS.STATUS : Fld := ⟨0x30104, 0x0, 0x0, 3, 0⟩
def F.MGT_MP_CTRL.STAY_AWAKE : Fld := ⟨0x30004, 0x0, 0x0, 30, 30⟩
def F.MGT_MP_IDLE.V : Fld := ⟨0x30030, 0x0, 0x0, 15, 0⟩
def F.MGT_MP_STATUS.FALLBACK : Fld := ⟨0x30000, 0x0, 0x0, 28, 28⟩
def F.MGT_MP_STATUS.FW_SLOT : Fld := ⟨0x30000, 0x0, 0x0, 27, 27⟩
def F.MGT_MP_STATUS.STATE : Fld := ⟨0x30000, 0x0, 0x0, 31, 29⟩
def F.MGT_PARK_CTRL.EN : Fld := ⟨0x30020, 0x0, 0x0, 15, 0⟩
def F.MGT_PARK_CTRL.NO_BANK_GATE : Fld := ⟨0x30020, 0x0, 0x0, 16, 16⟩
def F.MGT_PARK_IDLE.V : Fld := ⟨0x30028, 0x0, 0x0, 13, 0⟩
def F.MGT_PARK_STATUS.GATED : Fld := ⟨0x30024, 0x0, 0x0, 31, 16⟩
def F.MGT_PARK_STATUS.PARKED : Fld := ⟨0x30024, 0x0, 0x0, 15, 0⟩
def F.MGT_SNS_RANGE.HI : Fld := ⟨0x31004, 0x10, 0x0, 31, 16⟩
def F.MGT_SNS_RANGE.LO : Fld := ⟨0x31004, 0x10, 0x0, 15, 0⟩
def F.MGT_SNS_STAT.EN_HI : Fld := ⟨0x3100C, 0x10, 0x0, 3, 3⟩
def F.MGT_SNS_STAT.EN_LO : Fld := ⟨0x3100C, 0x10, 0x0, 2, 2⟩
def F.MGT_SNS_STAT.HI_SEEN : Fld := ⟨0x3100C, 0x10, 0x0, 1, 1⟩
def F.MGT_SNS_STAT.LO_SEEN : Fld := ⟨0x3100C, 0x10, 0x0, 0, 0⟩
def F.MGT_SNS_THR.HI : Fld := ⟨0x31008, 0x10, 0x0, 31, 16⟩
def F.MGT_SNS_THR.LO : Fld := ⟨0x31008, 0x10, 0x0, 15, 0⟩
def F.MGT_SNS_VAL.KIND : Fld := ⟨0x31000, 0x10, 0x0, 19, 16⟩
def F.MGT_SNS_VAL.VALUE : Fld := ⟨0x31000, 0x10, 0x0, 15, 0⟩
def F.MGT_SNS_VAL.all : Fld := ⟨0x31000, 0x10, 0x0, 31, 0⟩
def F.PAR_CNT_BAD.V : Fld := ⟨0x50020C, 0x10000, 0x0, 31, 0⟩
def F.PAR_CNT_DEPTH.V : Fld := ⟨0x500200, 0x10000, 0x0, 31, 0⟩
def F.PAR_CNT_FULL.V : Fld := ⟨0x500214, 0x10000, 0x0, 31, 0⟩
def F.PAR_CNT_LEN.V : Fld := ⟨0x500204, 0x10000, 0x0, 31, 0⟩
def F.PAR_CNT_NOKEY.V : Fld := ⟨0x500210, 0x10000, 0x0, 31, 0⟩
def F.PAR_CNT_TRUNC.V : Fld := ⟨0x500208, 0x10000, 0x0, 31, 0⟩
def F.PAR_CTRL.BAD_ACT : Fld := ⟨0x500000, 0x10000, 0x0, 7, 6⟩
def F.PAR_CTRL.DEPTH_ACT : Fld := ⟨0x500000, 0x10000, 0x0, 1, 0⟩
def F.PAR_CTRL.LEN_ACT : Fld := ⟨0x500000, 0x10000, 0x0, 3, 2⟩
def F.PAR_CTRL.TRUNC_ACT : Fld := ⟨0x500000, 0x10000, 0x0, 5, 4⟩
def F.PAR_DEPTH.ENCAP : Fld := ⟨0x500020, 0x10000, 0x4, 5, 4⟩
def F.PAR_DEPTH.MPLS : Fld := ⟨0x500020, 0x10000, 0x4, 14, 10⟩
def F.PAR_DEPTH.STEPS : Fld := ⟨0x500020, 0x10000, 0x4, 21, 15⟩
def F.PAR_DEPTH.VLAN : Fld := ⟨0x500020, 0x10000, 0x4, 9, 6⟩
def F.PAR_DEPTH.WINDOW : Fld := ⟨0x500020, 0x10000, 0x4, 31, 22⟩
def F.PAR_EVENTS.ANOMALY : Fld := ⟨0x50000C, 0x10000, 0x0, 2, 2⟩
def F.PAR_LAST_ANOM.ANOM : Fld := ⟨0x500240, 0x10000, 0x0, 31, 16⟩
def F.PAR_LAST_ANOM.PORT : Fld := ⟨0x500240, 0x10000, 0x0, 8, 0⟩
def F.PAR_LAST_ANOM1.EXIT : Fld := ⟨0x500244, 0x10000, 0x0, 31, 24⟩
def F.PAR_LAST_ANOM1.PC : Fld := ⟨0x500244, 0x10000, 0x0, 9, 0⟩
def F.PAR_LAST_ANOM1.STEPS : Fld := ⟨0x500244, 0x10000, 0x0, 23, 16⟩
def F.PAR_PORT_ENTRY.ENTRY : Fld := ⟨0x500100, 0x10000, 0x4, 9, 0⟩
def F.PAR_PORT_ENTRY.PROFILE : Fld := ⟨0x500100, 0x10000, 0x4, 13, 12⟩
def F.PAR_PROG_INFO.DEFAULT : Fld := ⟨0x500004, 0x10000, 0x0, 31, 31⟩
def F.PAR_PROG_INFO.DISPATCH_COUNT : Fld := ⟨0x500004, 0x10000, 0x0, 25, 16⟩
def F.PAR_PROG_INFO.INSTR_COUNT : Fld := ⟨0x500004, 0x10000, 0x0, 10, 0⟩
def F.PAR_STATUS.PIPE_FULL : Fld := ⟨0x500008, 0x10000, 0x0, 11, 0⟩
def F.PLT_CMD.OPCODE : Fld := ⟨0x10000, 0x0, 0x0, 3, 0⟩
def F.PLT_CMD_STATUS.DONE : Fld := ⟨0x10004, 0x0, 0x0, 31, 31⟩
def F.PLT_CMD_STATUS.ENTRY : Fld := ⟨0x10004, 0x0, 0x0, 6, 4⟩
def F.PLT_CMD_STATUS.OVERRUN : Fld := ⟨0x10004, 0x0, 0x0, 29, 29⟩
def F.PLT_CMD_STATUS.RUNNING : Fld := ⟨0x10004, 0x0, 0x0, 30, 30⟩
def F.PLT_CMD_STATUS.STATUS : Fld := ⟨0x10004, 0x0, 0x0, 3, 0⟩
def F.PLT_CMD_TIME.V : Fld := ⟨0x10008, 0x0, 0x0, 31, 0⟩
def F.PLT_CURRENT_ID.V : Fld := ⟨0x10024, 0x0, 0x0, 31, 0⟩
def F.PLT_CURRENT_SERIAL.V : Fld := ⟨0x10028, 0x0, 0x0, 31, 0⟩
def F.PLT_DRAIN_LIMIT.V : Fld := ⟨0x1001C, 0x0, 0x0, 31, 0⟩
def F.PLT_FLOOR.V : Fld := ⟨0x1003C, 0x0, 0x0, 31, 0⟩
def F.PLT_LOAD_STATUS.ORIGIN : Fld := ⟨0x10020, 0x0, 0x0, 9, 8⟩
def F.PLT_LOAD_STATUS.REASON : Fld := ⟨0x10020, 0x0, 0x0, 7, 0⟩
def F.PLT_LOAD_STATUS.SECTION : Fld := ⟨0x10020, 0x0, 0x0, 27, 16⟩
def F.PLT_LOAD_STATUS.all : Fld := ⟨0x10020, 0x0, 0x0, 31, 0⟩
def F.PLT_MIXED.V : Fld := ⟨0x10048, 0x0, 0x0, 31, 0⟩
def F.PLT_PENDING_ID.V : Fld := ⟨0x10030, 0x0, 0x0, 31, 0⟩
def F.PLT_PENDING_SERIAL.V : Fld := ⟨0x10034, 0x0, 0x0, 31, 0⟩
def F.PLT_SB_STATE.INSTANCE : Fld := ⟨0x10100, 0x10, 0x0, 24, 16⟩
def F.PLT_SB_STATE.PHASE : Fld := ⟨0x10100, 0x10, 0x0, 27, 25⟩
def F.PLT_SB_STATE.SOURCE : Fld := ⟨0x10100, 0x10, 0x0, 11, 11⟩
def F.PLT_SB_STATE.STATUS : Fld := ⟨0x10100, 0x10, 0x0, 31, 28⟩
def F.PLT_SB_STATE.UNIT : Fld := ⟨0x10100, 0x10, 0x0, 15, 12⟩
def F.PLT_SB_STATE.all : Fld := ⟨0x10100, 0x10, 0x0, 31, 0⟩
def F.PLT_SB_TIME.V : Fld := ⟨0x10108, 0x10, 0x0, 31, 0⟩
def F.PLT_SEED1.V : Fld := ⟨0x10050, 0x0, 0x0, 31, 0⟩
def F.PLT_SEED2.V : Fld := ⟨0x10054, 0x0, 0x0, 31, 0⟩
def F.PLT_SLOT_STATUS.LOADED_FROM : Fld := ⟨0x10044, 0x0, 0x0, 5, 4⟩
def F.PLT_SLOT_STATUS.SLOT_A : Fld := ⟨0x10044, 0x0, 0x0, 1, 0⟩
def F.PLT_SRC_LEN.V : Fld := ⟨0x10018, 0x0, 0x0, 31, 0⟩
def F.PLT_STAGE_BASE.V : Fld := ⟨0x10010, 0x0, 0x0, 31, 0⟩
def F.PRT_CFG.AN_EN : Fld := ⟨0x300000, 0x1000, 0x0, 20, 20⟩
def F.PRT_CFG.CT_EN : Fld := ⟨0x300000, 0x1000, 0x0, 22, 22⟩
def F.PRT_CFG.DEGRADE : Fld := ⟨0x300000, 0x1000, 0x0, 23, 23⟩
def F.PRT_CFG.ENABLE : Fld := ⟨0x300000, 0x1000, 0x0, 0, 0⟩
def F.PRT_CFG.FEC : Fld := ⟨0x300000, 0x1000, 0x0, 19, 18⟩
def F.PRT_CFG.LPI_EN : Fld := ⟨0x300000, 0x1000, 0x0, 21, 21⟩
def F.PRT_CFG.MODE : Fld := ⟨0x300000, 0x1000, 0x0, 12, 8⟩
def F.PRT_CFG.PAUSE_MODE : Fld := ⟨0x300000, 0x1000, 0x0, 25, 24⟩
def F.PRT_CFG.WIDTH : Fld := ⟨0x300000, 0x1000, 0x0, 17, 16⟩
def F.PRT_CFG.all : Fld := ⟨0x300000, 0x1000, 0x0, 31, 0⟩
def F.PRT_CTRL.REFORM : Fld := ⟨0x300018, 0x1000, 0x0, 0, 0⟩
def F.PRT_CVU_CTRL.FILTER : Fld := ⟨0x300100, 0x1000, 0x40, 11, 10⟩
def F.PRT_CVU_CTRL.POLY : Fld := ⟨0x300100, 0x1000, 0x40, 13, 12⟩
def F.PRT_CVU_CTRL.SNOOP_EN : Fld := ⟨0x300100, 0x1000, 0x40, 0, 0⟩
def F.PRT_CVU_CTRL.STREAM : Fld := ⟨0x300100, 0x1000, 0x40, 9, 9⟩
def F.PRT_CVU_CTRL.TRAILER_CHECK : Fld := ⟨0x300100, 0x1000, 0x40, 8, 8⟩
def F.PRT_CVU_CTRL.WIN_LEN : Fld := ⟨0x300100, 0x1000, 0x40, 31, 16⟩
def F.PRT_CVU_FRAMES.V : Fld := ⟨0x300114, 0x1000, 0x40, 31, 0⟩
def F.PRT_CVU_INIT.V : Fld := ⟨0x300108, 0x1000, 0x40, 31, 0⟩
def F.PRT_CVU_LAST.V : Fld := ⟨0x300110, 0x1000, 0x40, 31, 0⟩
def F.PRT_CVU_MISMATCH.V : Fld := ⟨0x300118, 0x1000, 0x40, 31, 0⟩
def F.PRT_CVU_RUN.V : Fld := ⟨0x30010C, 0x1000, 0x40, 31, 0⟩
def F.PRT_CVU_WIN.ETYPE : Fld := ⟨0x300104, 0x1000, 0x40, 31, 16⟩
def F.PRT_CVU_WIN.WIN_START : Fld := ⟨0x300104, 0x1000, 0x40, 13, 0⟩
def F.PRT_EVENTS.CVU_MISMATCH : Fld := ⟨0x30000C, 0x1000, 0x0, 4, 4⟩
def F.PRT_EVENTS.DEGRADED : Fld := ⟨0x30000C, 0x1000, 0x0, 3, 3⟩
def F.PRT_EVENTS.DOWN : Fld := ⟨0x30000C, 0x1000, 0x0, 1, 1⟩
def F.PRT_EVENTS.ELASTIC_OVF : Fld := ⟨0x30000C, 0x1000, 0x0, 7, 7⟩
def F.PRT_EVENTS.GAVE_UP : Fld := ⟨0x30000C, 0x1000, 0x0, 2, 2⟩
def F.PRT_EVENTS.STOMP_RX : Fld := ⟨0x30000C, 0x1000, 0x0, 5, 5⟩
def F.PRT_EVENTS.STOMP_TX : Fld := ⟨0x30000C, 0x1000, 0x0, 6, 6⟩
def F.PRT_EVENTS.UP : Fld := ⟨0x30000C, 0x1000, 0x0, 0, 0⟩
def F.PRT_GIVEUP.S : Fld := ⟨0x300014, 0x1000, 0x0, 7, 0⟩
def F.PRT_LPI.IDLE_US : Fld := ⟨0x300020, 0x1000, 0x0, 15, 0⟩
def F.PRT_MAXFRAME.MAXFRAME : Fld := ⟨0x300004, 0x1000, 0x0, 13, 0⟩
def F.PRT_PFC_MAP.EVEN : Fld := ⟨0x300040, 0x1000, 0x4, 15, 0⟩
def F.PRT_PFC_MAP.ODD : Fld := ⟨0x300040, 0x1000, 0x4, 31, 16⟩
def F.PRT_SITE_CTRL.AUTO : Fld := ⟨0x300C00, 0x4000, 0x0, 8, 8⟩
def F.PRT_SITE_CTRL.ENABLE : Fld := ⟨0x300C00, 0x4000, 0x0, 0, 0⟩
def F.PRT_SITE_CTRL.FORCE_LPMODE : Fld := ⟨0x300C00, 0x4000, 0x0, 2, 2⟩
def F.PRT_SITE_CTRL.FORCE_RESET : Fld := ⟨0x300C00, 0x4000, 0x0, 3, 3⟩
def F.PRT_SITE_CTRL.POWER_LIMIT : Fld := ⟨0x300C00, 0x4000, 0x0, 23, 16⟩
def F.PRT_SITE_CTRL.PULLUP : Fld := ⟨0x300C00, 0x4000, 0x0, 9, 9⟩
def F.PRT_SITE_CTRL.SPEED : Fld := ⟨0x300C00, 0x4000, 0x0, 11, 10⟩
def F.PRT_SITE_CTRL.all : Fld := ⟨0x300C00, 0x4000, 0x0, 31, 0⟩
def F.PRT_SITE_DATA.V : Fld := ⟨0x300C40, 0x4000, 0x4, 31, 0⟩
def F.PRT_SITE_EVENTS.BUS_STUCK : Fld := ⟨0x300C08, 0x4000, 0x0, 6, 6⟩
def F.PRT_SITE_EVENTS.FLAG : Fld := ⟨0x300C08, 0x4000, 0x0, 4, 4⟩
def F.PRT_SITE_EVENTS.INSERT : Fld := ⟨0x300C08, 0x4000, 0x0, 0, 0⟩
def F.PRT_SITE_EVENTS.NO_RESPONSE : Fld := ⟨0x300C08, 0x4000, 0x0, 7, 7⟩
def F.PRT_SITE_EVENTS.POWER_DENIED : Fld := ⟨0x300C08, 0x4000, 0x0, 3, 3⟩
def F.PRT_SITE_EVENTS.READY : Fld := ⟨0x300C08, 0x4000, 0x0, 2, 2⟩
def F.PRT_SITE_EVENTS.REMOVE : Fld := ⟨0x300C08, 0x4000, 0x0, 1, 1⟩
def F.PRT_SITE_EVENTS.XFER_DONE : Fld := ⟨0x300C08, 0x4000, 0x0, 5, 5⟩
def F.PRT_SITE_FLAGS.V : Fld := ⟨0x300D00, 0x4000, 0x4, 31, 0⟩
def F.PRT_SITE_MON.TEMP : Fld := ⟨0x300C18, 0x4000, 0x0, 31, 16⟩
def F.PRT_SITE_MON.VCC : Fld := ⟨0x300C18, 0x4000, 0x0, 15, 0⟩
def F.PRT_SITE_STATUS.CMIS_REV : Fld := ⟨0x300C04, 0x4000, 0x0, 15, 8⟩
def F.PRT_SITE_STATUS.INTL : Fld := ⟨0x300C04, 0x4000, 0x0, 26, 26⟩
def F.PRT_SITE_STATUS.LPMODE : Fld := ⟨0x300C04, 0x4000, 0x0, 24, 24⟩
def F.PRT_SITE_STATUS.MAXPOWER : Fld := ⟨0x300C04, 0x4000, 0x0, 23, 16⟩
def F.PRT_SITE_STATUS.PRESENT : Fld := ⟨0x300C04, 0x4000, 0x0, 27, 27⟩
def F.PRT_SITE_STATUS.RESETL : Fld := ⟨0x300C04, 0x4000, 0x0, 25, 25⟩
def F.PRT_SITE_STATUS.SSTATE : Fld := ⟨0x300C04, 0x4000, 0x0, 31, 28⟩
def F.PRT_SITE_XFER.DIR : Fld := ⟨0x300C10, 0x4000, 0x0, 2, 2⟩
def F.PRT_SITE_XFER.DONE : Fld := ⟨0x300C10, 0x4000, 0x0, 3, 3⟩
def F.PRT_SITE_XFER.GO : Fld := ⟨0x300C10, 0x4000, 0x0, 0, 0⟩
def F.PRT_SITE_XFER.STATUS : Fld := ⟨0x300C10, 0x4000, 0x0, 7, 4⟩
def F.PRT_SITE_XFER_ADDR.LENGTH : Fld := ⟨0x300C14, 0x4000, 0x0, 7, 0⟩
def F.PRT_SITE_XFER_ADDR.OFFSET : Fld := ⟨0x300C14, 0x4000, 0x0, 15, 8⟩
def F.PRT_SITE_XFER_ADDR.all : Fld := ⟨0x300C14, 0x4000, 0x0, 31, 0⟩
def F.PRT_STATUS.AN_DONE : Fld := ⟨0x300008, 0x1000, 0x0, 18, 18⟩
def F.PRT_STATUS.FEC_LOCK : Fld := ⟨0x300008, 0x1000, 0x0, 17, 17⟩
def F.PRT_STATUS.LANES_UP : Fld := ⟨0x300008, 0x1000, 0x0, 27, 24⟩
def F.PRT_STATUS.LPI_CAPABLE : Fld := ⟨0x300008, 0x1000, 0x0, 16, 16⟩
def F.PRT_STATUS.LPI_RX : Fld := ⟨0x300008, 0x1000, 0x0, 20, 20⟩
def F.PRT_STATUS.LPI_TX : Fld := ⟨0x300008, 0x1000, 0x0, 21, 21⟩
def F.PRT_STATUS.PAUSED : Fld := ⟨0x300008, 0x1000, 0x0, 19, 19⟩
def F.PRT_STATUS.PSTATE : Fld := ⟨0x300008, 0x1000, 0x0, 31, 28⟩
def F.PRT_STATUS.STEP : Fld := ⟨0x300008, 0x1000, 0x0, 23, 22⟩
def F.SCH_CL_CFG.FQ_MAX : Fld := ⟨0xF10100, 0x400, 0x20, 28, 16⟩
def F.SCH_CL_CFG.FQ_SHP_EN : Fld := ⟨0xF10100, 0x400, 0x20, 4, 4⟩
def F.SCH_CL_CFG.FQ_SHP_IDLE : Fld := ⟨0xF10100, 0x400, 0x20, 6, 6⟩
def F.SCH_CL_CFG.FQ_SHP_RESET : Fld := ⟨0xF10100, 0x400, 0x20, 5, 5⟩
def F.SCH_CL_CFG.SHP_EN : Fld := ⟨0xF10100, 0x400, 0x20, 1, 1⟩
def F.SCH_CL_CFG.SHP_IDLE : Fld := ⟨0xF10100, 0x400, 0x20, 3, 3⟩
def F.SCH_CL_CFG.SHP_RESET : Fld := ⟨0xF10100, 0x400, 0x20, 2, 2⟩
def F.SCH_CL_CFG.STRICT : Fld := ⟨0xF10100, 0x400, 0x20, 0, 0⟩
def F.SCH_CL_CFG.all : Fld := ⟨0xF10100, 0x400, 0x20, 31, 0⟩
def F.SCH_CL_FQ_BURST.V : Fld := ⟨0xF10118, 0x400, 0x20, 23, 0⟩
def F.SCH_CL_FQ_QUANTUM.V : Fld := ⟨0xF10108, 0x400, 0x20, 19, 0⟩
def F.SCH_CL_FQ_RATE.V : Fld := ⟨0xF10114, 0x400, 0x20, 31, 0⟩
def F.SCH_CL_MAXFRAME.BOUND : Fld := ⟨0xF1011C, 0x400, 0x20, 28, 16⟩
def F.SCH_CL_MAXFRAME.MAXFRAME : Fld := ⟨0xF1011C, 0x400, 0x20, 13, 0⟩
def F.SCH_CL_QUANTUM.V : Fld := ⟨0xF10104, 0x400, 0x20, 19, 0⟩
def F.SCH_CL_SHP_BURST.V : Fld := ⟨0xF10110, 0x400, 0x20, 23, 0⟩
def F.SCH_CL_SHP_RATE.V : Fld := ⟨0xF1010C, 0x400, 0x20, 31, 0⟩
def F.SCH_EVENTS.GATE_END : Fld := ⟨0xF00008, 0x0, 0x0, 1, 1⟩
def F.SCH_EVENTS.GATE_START : Fld := ⟨0xF00008, 0x0, 0x0, 0, 0⟩
def F.SCH_EVENTS.OVERSIZE : Fld := ⟨0xF00008, 0x0, 0x0, 2, 2⟩
def F.SCH_GATE_ADMIN_BASE.V : Fld := ⟨0xF10048, 0x400, 0x0, 31, 0⟩
def F.SCH_GATE_ADMIN_CYCLE.V : Fld := ⟨0xF10050, 0x400, 0x0, 31, 0⟩
def F.SCH_GATE_ADMIN_LEN.V : Fld := ⟨0xF10054, 0x400, 0x0, 8, 0⟩
def F.SCH_GATE_CMD.OPCODE : Fld := ⟨0xF10040, 0x400, 0x0, 3, 0⟩
def F.SCH_GATE_CMD_STATUS.DONE : Fld := ⟨0xF10044, 0x400, 0x0, 31, 31⟩
def F.SCH_GATE_CMD_STATUS.STATUS : Fld := ⟨0xF10044, 0x400, 0x0, 3, 0⟩
def F.SCH_GATE_MAXWIN.V : Fld := ⟨0xF10080, 0x400, 0x4, 31, 0⟩
def F.SCH_GATE_OPER_CYCLE.V : Fld := ⟨0xF10060, 0x400, 0x0, 31, 0⟩
def F.SCH_GATE_OPER_LEN.V : Fld := ⟨0xF10064, 0x400, 0x0, 8, 0⟩
def F.SCH_GATE_OPER_START.V : Fld := ⟨0xF10058, 0x400, 0x0, 31, 0⟩
def F.SCH_GATE_PEND_START.V : Fld := ⟨0xF10070, 0x400, 0x0, 31, 0⟩
def F.SCH_GATE_STATUS.ENTRY : Fld := ⟨0xF10068, 0x400, 0x0, 8, 0⟩
def F.SCH_GATE_STATUS.GATES : Fld := ⟨0xF10068, 0x400, 0x0, 31, 16⟩
def F.SCH_GATE_STATUS.ONESHOT : Fld := ⟨0xF10068, 0x400, 0x0, 13, 13⟩
def F.SCH_GATE_STATUS.PENDING : Fld := ⟨0xF10068, 0x400, 0x0, 14, 14⟩
def F.SCH_GATE_STATUS.RUNNING : Fld := ⟨0xF10068, 0x400, 0x0, 15, 15⟩
def F.SCH_OBS_CTRL.AVG_W : Fld := ⟨0xF00000, 0x0, 0x0, 11, 8⟩
def F.SCH_OBS_CTRL.FORCED : Fld := ⟨0xF00000, 0x0, 0x0, 1, 1⟩
def F.SCH_OBS_CTRL.MODE : Fld := ⟨0xF00000, 0x0, 0x0, 0, 0⟩
def F.SCH_PORT_CFG.OVERHEAD : Fld := ⟨0xF10004, 0x400, 0x0, 5, 0⟩
def F.SCH_PORT_CFG.SHP_EN : Fld := ⟨0xF10004, 0x400, 0x0, 8, 8⟩
def F.SCH_PORT_CFG.SHP_IDLE : Fld := ⟨0xF10004, 0x400, 0x0, 10, 10⟩
def F.SCH_PORT_CFG.SHP_RESET : Fld := ⟨0xF10004, 0x400, 0x0, 9, 9⟩
def F.SCH_PORT_CFG.all : Fld := ⟨0xF10004, 0x400, 0x0, 31, 0⟩
def F.SCH_PORT_CNT_OVERSIZE.V : Fld := ⟨0xF1001C, 0x400, 0x0, 31, 0⟩
def F.SCH_PORT_ELIG.V : Fld := ⟨0xF10018, 0x400, 0x0, 15, 0⟩
def F.SCH_PORT_POOL.QBASE : Fld := ⟨0xF10000, 0x400, 0x0, 17, 0⟩
def F.SCH_PORT_POOL.QCOUNT : Fld := ⟨0xF10000, 0x400, 0x0, 30, 18⟩
def F.SCH_PORT_SHP_BURST.V : Fld := ⟨0xF1000C, 0x400, 0x0, 23, 0⟩
def F.SCH_PORT_SHP_RATE.V : Fld := ⟨0xF10008, 0x400, 0x0, 31, 0⟩
def F.SCH_PORT_TOK.V : Fld := ⟨0xF10010, 0x400, 0x0, 31, 0⟩
def F.SCH_Q_INFO.CLASS : Fld := ⟨0x1000000, 0x40, 0x0, 27, 24⟩
def F.SCH_Q_INFO.KIND : Fld := ⟨0x1000000, 0x40, 0x0, 31, 30⟩
def F.SCH_Q_INFO.PORT : Fld := ⟨0x1000000, 0x40, 0x0, 8, 0⟩
def F.SCH_Q_OBS_AVG.V : Fld := ⟨0x1000028, 0x40, 0x0, 31, 0⟩
def F.SCH_Q_OBS_DELAY.V : Fld := ⟨0x1000024, 0x40, 0x0, 31, 0⟩
def F.SCH_Q_OBS_DEPTH.V : Fld := ⟨0x1000020, 0x40, 0x0, 20, 0⟩
def F.SCH_Q_PKTS.V : Fld := ⟨0x1000014, 0x40, 0x0, 23, 0⟩
def F.SCH_Q_QUANTUM.QUANTUM : Fld := ⟨0x1000004, 0x40, 0x0, 19, 0⟩
def F.SCH_Q_SHP_CFG.BURST : Fld := ⟨0x100000C, 0x40, 0x0, 23, 0⟩
def F.SCH_Q_SHP_CFG.ENABLE : Fld := ⟨0x100000C, 0x40, 0x0, 31, 31⟩
def F.SCH_Q_SHP_CFG.IDLE : Fld := ⟨0x100000C, 0x40, 0x0, 29, 29⟩
def F.SCH_Q_SHP_CFG.RESET : Fld := ⟨0x100000C, 0x40, 0x0, 30, 30⟩
def F.SCH_Q_SHP_CFG.all : Fld := ⟨0x100000C, 0x40, 0x0, 31, 0⟩
def F.SCH_Q_SHP_RATE.V : Fld := ⟨0x1000008, 0x40, 0x0, 31, 0⟩
def F.SCH_Q_STATUS.ACTIVE : Fld := ⟨0x1000010, 0x40, 0x0, 31, 31⟩
def F.SCH_Q_STATUS.DEF : Fld := ⟨0x1000010, 0x40, 0x0, 20, 0⟩
def F.SCH_Q_TOK.V : Fld := ⟨0x1000018, 0x40, 0x0, 31, 0⟩
def F.SFL_CNT_CP_DROP.V : Fld := ⟨0x20080, 0x4, 0x0, 31, 0⟩
def F.SFL_CNT_DENIED_WRITE.V : Fld := ⟨0x20040, 0x0, 0x0, 31, 0⟩
def F.SFL_CNT_FREEZE.V : Fld := ⟨0x20048, 0x0, 0x0, 31, 0⟩
def F.SFL_CNT_TRIP.V : Fld := ⟨0x20044, 0x0, 0x0, 31, 0⟩
def F.SFL_EVENTS.CP_DROP : Fld := ⟨0x20020, 0x0, 0x0, 4, 4⟩
def F.SFL_EVENTS.DENIED_WRITE : Fld := ⟨0x20020, 0x0, 0x0, 0, 0⟩
def F.SFL_EVENTS.FREEZE : Fld := ⟨0x20020, 0x0, 0x0, 3, 3⟩
def F.SFL_EVENTS.TRIP : Fld := ⟨0x20020, 0x0, 0x0, 1, 1⟩
def F.SFL_EVENTS.TRIP_END : Fld := ⟨0x20020, 0x0, 0x0, 2, 2⟩
def F.SFL_EVENT_EN.V : Fld := ⟨0x20024, 0x0, 0x0, 31, 0⟩
def F.SFL_FLOOR.V : Fld := ⟨0x20010, 0x0, 0x0, 31, 0⟩
def F.SFL_LAST_DENIED0.ADDR : Fld := ⟨0x20030, 0x0, 0x0, 26, 0⟩
def F.SFL_LAST_DENIED1.CONTEXT : Fld := ⟨0x20034, 0x0, 0x0, 9, 0⟩
def F.SFL_LAST_DENIED1.SOURCE : Fld := ⟨0x20034, 0x0, 0x0, 31, 28⟩
def F.SFL_POLICY.V : Fld := ⟨0x24000, 0x4, 0x0, 31, 0⟩
def F.SFL_POLICY_ID.V : Fld := ⟨0x20004, 0x0, 0x0, 31, 0⟩
def F.SFL_SERIAL.V : Fld := ⟨0x20008, 0x0, 0x0, 31, 0⟩
def F.SFL_STATUS.ACTIVE : Fld := ⟨0x20000, 0x0, 0x0, 31, 31⟩
def F.SFL_STATUS.FROZEN : Fld := ⟨0x20000, 0x0, 0x0, 15, 0⟩
def F.SFL_STATUS.OWNER_SET : Fld := ⟨0x20000, 0x0, 0x0, 29, 29⟩
def F.SFL_STATUS.QUARANTINE : Fld := ⟨0x20000, 0x0, 0x0, 30, 30⟩
def F.SFL_STATUS.SIGNER : Fld := ⟨0x20000, 0x0, 0x0, 28, 28⟩
def F.SFL_STATUS.SLOT : Fld := ⟨0x20000, 0x0, 0x0, 25, 25⟩
def F.SFL_STATUS.TRIP : Fld := ⟨0x20000, 0x0, 0x0, 27, 26⟩
def F.TEL_CNT_UNCORR.V : Fld := ⟨0x1A0184, 0x0, 0x0, 31, 0⟩
def F.TEL_EVENTS.CNT_UNCORR : Fld := ⟨0x1A0008, 0x0, 0x0, 1, 1⟩
def F.TEL_EVENTS.EXP_LOST : Fld := ⟨0x1A0008, 0x0, 0x0, 4, 4⟩
def F.TEL_EVENTS.EXP_SCAN_LATE : Fld := ⟨0x1A0008, 0x0, 0x0, 5, 5⟩
def F.TEL_EVENTS.GAP : Fld := ⟨0x1A0008, 0x0, 0x0, 0, 0⟩
def F.TEL_EVENTS.SM_LOST : Fld := ⟨0x1A0008, 0x0, 0x0, 3, 3⟩
def F.TEL_EVENTS.TS_LOST : Fld := ⟨0x1A0008, 0x0, 0x0, 2, 2⟩
def F.TEL_EV_CNT.V : Fld := ⟨0x180000, 0x8, 0x0, 31, 0⟩
def F.TEL_EV_CTL.CLEAR : Fld := ⟨0x188004, 0x8, 0x0, 29, 29⟩
def F.TEL_EV_CTL.MODE : Fld := ⟨0x188004, 0x8, 0x0, 30, 30⟩
def F.TEL_EV_CTL.OVF : Fld := ⟨0x188004, 0x8, 0x0, 28, 28⟩
def F.TEL_EV_CTL.SEL_BAD : Fld := ⟨0x188004, 0x8, 0x0, 27, 27⟩
def F.TEL_EV_CTRL.FREEZE : Fld := ⟨0x1A0000, 0x0, 0x0, 0, 0⟩
def F.TEL_EV_SEL.EVENT : Fld := ⟨0x188000, 0x8, 0x0, 7, 0⟩
def F.TEL_EXP_ACTIVE.V : Fld := ⟨0x1A0404, 0x0, 0x0, 9, 0⟩
def F.TEL_EXP_BURST.V : Fld := ⟨0x1A040C, 0x0, 0x0, 15, 0⟩
def F.TEL_EXP_CNT_LOST.V : Fld := ⟨0x1A0448, 0x0, 0x0, 31, 0⟩
def F.TEL_EXP_CNT_MSGS.V : Fld := ⟨0x1A0444, 0x0, 0x0, 31, 0⟩
def F.TEL_EXP_CNT_RECORDS.V : Fld := ⟨0x1A0440, 0x0, 0x0, 31, 0⟩
def F.TEL_EXP_CNT_SCAN_LATE.V : Fld := ⟨0x1A044C, 0x0, 0x0, 31, 0⟩
def F.TEL_EXP_CTRL.CLASS : Fld := ⟨0x1A0400, 0x0, 0x0, 5, 0⟩
def F.TEL_EXP_CTRL.ENABLE : Fld := ⟨0x1A0400, 0x0, 0x0, 31, 31⟩
def F.TEL_EXP_CTRL.MODE : Fld := ⟨0x1A0400, 0x0, 0x0, 30, 30⟩
def F.TEL_EXP_CTRL.RING : Fld := ⟨0x1A0400, 0x0, 0x0, 25, 16⟩
def F.TEL_EXP_CTRL.TRANSPORT : Fld := ⟨0x1A0400, 0x0, 0x0, 29, 29⟩
def F.TEL_EXP_DOMAIN.V : Fld := ⟨0x1A0410, 0x0, 0x0, 31, 0⟩
def F.TEL_EXP_HDR.V : Fld := ⟨0x1A0480, 0x4, 0x0, 31, 0⟩
def F.TEL_EXP_HDR_INFO.L3_AT : Fld := ⟨0x1A0428, 0x0, 0x0, 15, 8⟩
def F.TEL_EXP_HDR_INFO.L4_AT : Fld := ⟨0x1A0428, 0x0, 0x0, 23, 16⟩
def F.TEL_EXP_HDR_INFO.LEN : Fld := ⟨0x1A0428, 0x0, 0x0, 7, 0⟩
def F.TEL_EXP_MSG_MAX.V : Fld := ⟨0x1A0414, 0x0, 0x0, 13, 0⟩
def F.TEL_EXP_OUT.CLASS : Fld := ⟨0x1A0424, 0x0, 0x0, 19, 16⟩
def F.TEL_EXP_OUT.PORT : Fld := ⟨0x1A0424, 0x0, 0x0, 8, 0⟩
def F.TEL_EXP_QUEUED.V : Fld := ⟨0x1A042C, 0x0, 0x0, 16, 0⟩
def F.TEL_EXP_RATE.V : Fld := ⟨0x1A0408, 0x0, 0x0, 31, 0⟩
def F.TEL_EXP_TMPL.V : Fld := ⟨0x1A041C, 0x0, 0x0, 11, 0⟩
def F.TEL_EXP_UTC_OFS.V : Fld := ⟨0x1A0420, 0x0, 0x0, 7, 0⟩
def F.TEL_GAP.V : Fld := ⟨0x1A0100, 0x4, 0x0, 31, 0⟩
def F.TEL_PORT_CNT.V : Fld := ⟨0x100000, 0x400, 0x8, 31, 0⟩
def F.TEL_PORT_CTRL.CLEAR : Fld := ⟨0x1003F8, 0x400, 0x0, 0, 0⟩
def F.TEL_PORT_CTRL.GAP : Fld := ⟨0x1003F8, 0x400, 0x0, 1, 1⟩
def F.TEL_RT_CNT.V : Fld := ⟨0x190000, 0x8, 0x0, 31, 0⟩
def F.TEL_SM_CLASSES.V : Fld := ⟨0x1A0304, 0x0, 0x0, 31, 0⟩
def F.TEL_SM_CNT_LOST.V : Fld := ⟨0x1A0310, 0x0, 0x0, 31, 0⟩
def F.TEL_SM_CNT_SKIP.V : Fld := ⟨0x1A030C, 0x0, 0x0, 31, 0⟩
def F.TEL_SM_CTRL.ENABLE : Fld := ⟨0x1A0300, 0x0, 0x0, 31, 31⟩
def F.TEL_SM_CTRL.N : Fld := ⟨0x1A0300, 0x0, 0x0, 15, 0⟩
def F.TEL_SM_CTRL.RING : Fld := ⟨0x1A0300, 0x0, 0x0, 25, 16⟩
def F.TEL_TS_CNT_LOST.V : Fld := ⟨0x1A021C, 0x0, 0x0, 31, 0⟩
def F.TEL_TS_CNT_SEL.V : Fld := ⟨0x1A0214, 0x0, 0x0, 31, 0⟩
def F.TEL_TS_CNT_SKIP.V : Fld := ⟨0x1A0218, 0x0, 0x0, 31, 0⟩
def F.TEL_TS_CTRL.ENABLE : Fld := ⟨0x1A0200, 0x0, 0x0, 31, 31⟩
def F.TEL_TS_CTRL.LOG2_RATE : Fld := ⟨0x1A0200, 0x0, 0x0, 5, 0⟩
def F.TEL_TS_CTRL.RING : Fld := ⟨0x1A0200, 0x0, 0x0, 25, 16⟩
def F.TEL_TS_FORCE.GO : Fld := ⟨0x1A0208, 0x0, 0x0, 31, 31⟩
def F.TEL_TS_FORCE.PORT : Fld := ⟨0x1A0208, 0x0, 0x0, 8, 0⟩
def F.TEL_TS_INFLIGHT.V : Fld := ⟨0x1A0210, 0x0, 0x0, 8, 0⟩
def F.TEL_TS_PORTS.V : Fld := ⟨0x1A0240, 0x4, 0x0, 31, 0⟩
def F.TEL_TS_SEED.V : Fld := ⟨0x1A0204, 0x0, 0x0, 31, 0⟩
def F.TEL_UPAGE_CTRL.EN : Fld := ⟨0x1A0180, 0x0, 0x0, 31, 31⟩
def F.TEL_UPAGE_CTRL.MASK : Fld := ⟨0x1A0180, 0x0, 0x0, 15, 0⟩
def F.TIM_CMD.OPCODE : Fld := ⟨0x40070, 0x0, 0x0, 3, 0⟩
def F.TIM_CMD_STATUS.DONE : Fld := ⟨0x40074, 0x0, 0x0, 31, 31⟩
def F.TIM_CMD_STATUS.OVERRUN : Fld := ⟨0x40074, 0x0, 0x0, 29, 29⟩
def F.TIM_CMD_STATUS.RUNNING : Fld := ⟨0x40074, 0x0, 0x0, 30, 30⟩
def F.TIM_CMD_STATUS.STATUS : Fld := ⟨0x40074, 0x0, 0x0, 3, 0⟩
def F.TIM_CTRL.PPS_IN_EN : Fld := ⟨0x40034, 0x0, 0x0, 1, 1⟩
def F.TIM_CTRL.PPS_OUT_EN : Fld := ⟨0x40034, 0x0, 0x0, 0, 0⟩
def F.TIM_DT.V : Fld := ⟨0x40000, 0x0, 0x0, 31, 0⟩
def F.TIM_EVENTS.LATE : Fld := ⟨0x40078, 0x0, 0x0, 6, 6⟩
def F.TIM_EVENTS.PDELAY_STEP : Fld := ⟨0x40078, 0x0, 0x0, 3, 3⟩
def F.TIM_EVENTS.PPS_IN : Fld := ⟨0x40078, 0x0, 0x0, 0, 0⟩
def F.TIM_EVENTS.REF_LOCK : Fld := ⟨0x40078, 0x0, 0x0, 2, 2⟩
def F.TIM_EVENTS.REF_LOST : Fld := ⟨0x40078, 0x0, 0x0, 1, 1⟩
def F.TIM_EVENTS.SACT_DONE : Fld := ⟨0x40078, 0x0, 0x0, 5, 5⟩
def F.TIM_EVENTS.SLEW_DONE : Fld := ⟨0x40078, 0x0, 0x0, 4, 4⟩
def F.TIM_FT.V : Fld := ⟨0x4001C, 0x0, 0x0, 31, 0⟩
def F.TIM_INCR.V : Fld := ⟨0x40020, 0x0, 0x0, 31, 0⟩
def F.TIM_LATE_WINDOW.V : Fld := ⟨0x40028, 0x0, 0x0, 19, 0⟩
def F.TIM_PDELAY_STEP.V : Fld := ⟨0x4002C, 0x0, 0x0, 19, 0⟩
def F.TIM_PORT_ASYM.V : Fld := ⟨0x48004, 0x20, 0x0, 31, 0⟩
def F.TIM_PORT_CNT_TC.V : Fld := ⟨0x48018, 0x20, 0x0, 31, 0⟩
def F.TIM_PORT_CTRL.P2P_EN : Fld := ⟨0x48000, 0x20, 0x0, 1, 1⟩
def F.TIM_PORT_CTRL.STEP : Fld := ⟨0x48000, 0x20, 0x0, 2, 2⟩
def F.TIM_PORT_CTRL.TC_EN : Fld := ⟨0x48000, 0x20, 0x0, 0, 0⟩
def F.TIM_PORT_PDELAY.V : Fld := ⟨0x48008, 0x20, 0x0, 31, 0⟩
def F.TIM_PORT_PDELAY_OLD.V : Fld := ⟨0x4800C, 0x20, 0x0, 31, 0⟩
def F.TIM_PORT_RX_ADJ.V : Fld := ⟨0x48010, 0x20, 0x0, 31, 0⟩
def F.TIM_PORT_TX_ADJ.V : Fld := ⟨0x48014, 0x20, 0x0, 31, 0⟩
def F.TIM_PPS_IN.V : Fld := ⟨0x40038, 0x0, 0x0, 31, 0⟩
def F.TIM_PPS_OUT_OFS.V : Fld := ⟨0x40030, 0x0, 0x0, 31, 0⟩
def F.TIM_PTP_NS.V : Fld := ⟨0x40010, 0x0, 0x0, 29, 0⟩
def F.TIM_SACT_ADDR.V : Fld := ⟨0x40408, 0x20, 0x0, 26, 0⟩
def F.TIM_SACT_MASK.V : Fld := ⟨0x40410, 0x20, 0x0, 31, 0⟩
def F.TIM_SACT_STATE.PHASE : Fld := ⟨0x40414, 0x20, 0x0, 27, 26⟩
def F.TIM_SACT_STATE.STATUS : Fld := ⟨0x40414, 0x20, 0x0, 31, 28⟩
def F.TIM_SACT_TIME.V : Fld := ⟨0x40400, 0x20, 0x0, 31, 0⟩
def F.TIM_SACT_VALUE.V : Fld := ⟨0x4040C, 0x20, 0x0, 31, 0⟩
def F.TIM_SET.V : Fld := ⟨0x40040, 0x0, 0x0, 31, 0⟩
def F.TIM_SLEW_DELTA.V : Fld := ⟨0x40058, 0x0, 0x0, 31, 0⟩
def F.TIM_SLEW_TICKS.V : Fld := ⟨0x40060, 0x0, 0x0, 31, 0⟩
def F.TIM_STATUS.REF_LOCKED : Fld := ⟨0x40068, 0x0, 0x0, 1, 1⟩
def F.TIM_STATUS.SACT_USED : Fld := ⟨0x40068, 0x0, 0x0, 7, 3⟩
def F.TIM_STATUS.SLEWING : Fld := ⟨0x40068, 0x0, 0x0, 2, 2⟩
def F.TIM_STATUS.TIME_VALID : Fld := ⟨0x40068, 0x0, 0x0, 0, 0⟩
def F.TIM_STEP.V : Fld := ⟨0x40050, 0x0, 0x0, 31, 0⟩
def F.TMG_ADM_PROF.K : Fld := ⟨0xE02000, 0x10, 0x0, 31, 28⟩
def F.TMG_ADM_PROF.MIN : Fld := ⟨0xE02000, 0x10, 0x0, 16, 0⟩
def F.TMG_ADM_QMAX.V : Fld := ⟨0xE02004, 0x10, 0x0, 20, 0⟩
def F.TMG_CNT_FQ_MISMATCH.V : Fld := ⟨0xE00020, 0x0, 0x0, 31, 0⟩
def F.TMG_CNT_FQ_NOQ.V : Fld := ⟨0xE00024, 0x0, 0x0, 31, 0⟩
def F.TMG_CNT_UNDERRUN.V : Fld := ⟨0xE00028, 0x0, 0x0, 31, 0⟩
def F.TMG_DROP.V : Fld := ⟨0xE00100, 0x8, 0x0, 31, 0⟩
def F.TMG_EVENTS.DT_DROP : Fld := ⟨0xE00018, 0x0, 0x0, 0, 0⟩
def F.TMG_EVENTS.FREE_LOW : Fld := ⟨0xE00018, 0x0, 0x0, 1, 1⟩
def F.TMG_EVENTS.HEADROOM_DROP : Fld := ⟨0xE00018, 0x0, 0x0, 4, 4⟩
def F.TMG_EVENTS.RESIDUE_DROP : Fld := ⟨0xE00018, 0x0, 0x0, 2, 2⟩
def F.TMG_EVENTS.XOFF : Fld := ⟨0xE00018, 0x0, 0x0, 3, 3⟩
def F.TMG_FQ_BOUND.V : Fld := ⟨0xE00030, 0x0, 0x0, 17, 0⟩
def F.TMG_FREE.V : Fld := ⟨0xE00004, 0x0, 0x0, 20, 0⟩
def F.TMG_FREE_MIN.V : Fld := ⟨0xE00008, 0x0, 0x0, 20, 0⟩
def F.TMG_FREE_WARN.V : Fld := ⟨0xE0000C, 0x0, 0x0, 20, 0⟩
def F.TMG_ING_MAX.V : Fld := ⟨0xE01004, 0x40, 0x0, 19, 0⟩
def F.TMG_ING_MIN.V : Fld := ⟨0xE01000, 0x40, 0x0, 16, 0⟩
def F.TMG_ING_USED.V : Fld := ⟨0xE01008, 0x40, 0x0, 19, 0⟩
def F.TMG_PEND_MAX.V : Fld := ⟨0xE0100C, 0x40, 0x0, 18, 0⟩
def F.TMG_PEND_USED.CELLS : Fld := ⟨0xE01010, 0x40, 0x0, 16, 0⟩
def F.TMG_PORT_HEADROOM.V : Fld := ⟨0xE10010, 0x40, 0x0, 16, 0⟩
def F.TMG_PORT_HR_USED.V : Fld := ⟨0xE10014, 0x40, 0x0, 16, 0⟩
def F.TMG_PORT_IN.V : Fld := ⟨0xE10020, 0x40, 0x4, 20, 0⟩
def F.TMG_PORT_MAC.V : Fld := ⟨0xE10018, 0x40, 0x0, 31, 0⟩
def F.TMG_PORT_PFC.DEF_PRI : Fld := ⟨0xE10000, 0x40, 0x0, 18, 16⟩
def F.TMG_PORT_PFC.EN : Fld := ⟨0xE10000, 0x40, 0x0, 7, 0⟩
def F.TMG_PORT_PFC.STATE : Fld := ⟨0xE10000, 0x40, 0x0, 31, 24⟩
def F.TMG_PORT_QUANTA.V : Fld := ⟨0xE1000C, 0x40, 0x0, 15, 0⟩
def F.TMG_PORT_XOFF.V : Fld := ⟨0xE10004, 0x40, 0x0, 16, 0⟩
def F.TMG_PORT_XON.V : Fld := ⟨0xE10008, 0x40, 0x0, 16, 0⟩
def F.TMG_RECIRC_USED.V : Fld := ⟨0xE01014, 0x40, 0x0, 10, 0⟩
def F.TMG_RESIDUE_TIMEOUT.V : Fld := ⟨0xE00010, 0x0, 0x0, 19, 0⟩
def F.TMG_RESIDUE_USED.V : Fld := ⟨0xE00014, 0x0, 0x0, 16, 0⟩
def F.TMG_SHARED.V : Fld := ⟨0xE00000, 0x0, 0x0, 20, 0⟩
def F.WDS_ATTACH_FREE.V : Fld := ⟨0x6000C, 0x0, 0x0, 13, 0⟩
def F.WDS_CL_AWAKE.V : Fld := ⟨0x60024, 0x0, 0x0, 15, 0⟩
def F.WDS_CL_CNT_DONE.V : Fld := ⟨0x61018, 0x20, 0x0, 31, 0⟩
def F.WDS_CL_CNT_FAIL.V : Fld := ⟨0x6101C, 0x20, 0x0, 31, 0⟩
def F.WDS_CL_COUNT.V : Fld := ⟨0x61010, 0x20, 0x0, 17, 0⟩
def F.WDS_CL_ENTRY.CLUSTERS : Fld := ⟨0x61000, 0x20, 0x0, 31, 16⟩
def F.WDS_CL_ENTRY.ENTRY : Fld := ⟨0x61000, 0x20, 0x0, 14, 0⟩
def F.WDS_CL_ENTRY.PRESENT : Fld := ⟨0x61000, 0x20, 0x0, 15, 15⟩
def F.WDS_CL_MAX.V : Fld := ⟨0x61008, 0x20, 0x0, 17, 0⟩
def F.WDS_CL_MIN.V : Fld := ⟨0x61004, 0x20, 0x0, 17, 0⟩
def F.WDS_CL_RUN.V : Fld := ⟨0x61014, 0x20, 0x0, 10, 0⟩
def F.WDS_CL_SCHED.HOSTPOST : Fld := ⟨0x6100C, 0x20, 0x0, 4, 4⟩
def F.WDS_CL_SCHED.PRIO : Fld := ⟨0x6100C, 0x20, 0x0, 2, 0⟩
def F.WDS_CL_SCHED.WAKE_AGE : Fld := ⟨0x6100C, 0x20, 0x0, 31, 16⟩
def F.WDS_CL_SCHED.WEIGHT : Fld := ⟨0x6100C, 0x20, 0x0, 15, 8⟩
def F.WDS_CNT_ABSENT.V : Fld := ⟨0x60020, 0x0, 0x0, 31, 0⟩
def F.WDS_CS_CLASSES.V : Fld := ⟨0x60208, 0x0, 0x0, 31, 0⟩
def F.WDS_CS_CTRL.ENABLE : Fld := ⟨0x60200, 0x0, 0x0, 0, 0⟩
def F.WDS_CS_CTRL.EVENTS : Fld := ⟨0x60200, 0x0, 0x0, 15, 8⟩
def F.WDS_CS_CTRL.MODE : Fld := ⟨0x60200, 0x0, 0x0, 2, 1⟩
def F.WDS_CS_CTRL.RING : Fld := ⟨0x60200, 0x0, 0x0, 25, 16⟩
def F.WDS_CS_LOST.V : Fld := ⟨0x60218, 0x0, 0x0, 31, 0⟩
def F.WDS_CS_SAMPLE.V : Fld := ⟨0x60210, 0x0, 0x0, 15, 0⟩
def F.WDS_CS_TRIGGER.POST : Fld := ⟨0x60204, 0x0, 0x0, 31, 20⟩
def F.WDS_CS_TRIGGER.STATUS : Fld := ⟨0x60204, 0x0, 0x0, 15, 12⟩
def F.WDS_CS_TRIGGER.TRIGGERED : Fld := ⟨0x60204, 0x0, 0x0, 0, 0⟩
def F.WDS_CTRL.NO_GATE : Fld := ⟨0x60000, 0x0, 0x0, 0, 0⟩
def F.WDS_EVENTS.ABSENT : Fld := ⟨0x60018, 0x0, 0x0, 1, 1⟩
def F.WDS_EVENTS.CS_LOST : Fld := ⟨0x60018, 0x0, 0x0, 3, 3⟩
def F.WDS_EVENTS.CS_TRIGGER : Fld := ⟨0x60018, 0x0, 0x0, 4, 4⟩
def F.WDS_EVENTS.FORGED : Fld := ⟨0x60018, 0x0, 0x0, 2, 2⟩
def F.WDS_EVENTS.REFUSED : Fld := ⟨0x60018, 0x0, 0x0, 0, 0⟩
def F.WDS_GATE_IDLE.V : Fld := ⟨0x60010, 0x0, 0x0, 9, 0⟩
def F.WDS_HPOST_CTRL.CLASS : Fld := ⟨0x60140, 0x0, 0x0, 5, 0⟩
def F.WDS_HPOST_CTRL.GO : Fld := ⟨0x60140, 0x0, 0x0, 8, 8⟩
def F.WDS_HPOST_CTRL.HASH : Fld := ⟨0x60140, 0x0, 0x0, 7, 7⟩
def F.WDS_HPOST_DATA.V : Fld := ⟨0x60100, 0x4, 0x0, 31, 0⟩
def F.WDS_HPOST_STATUS.DONE : Fld := ⟨0x60144, 0x0, 0x0, 31, 31⟩
def F.WDS_HPOST_STATUS.STATUS : Fld := ⟨0x60144, 0x0, 0x0, 3, 0⟩
def F.WDS_SHARED_FREE.V : Fld := ⟨0x60008, 0x0, 0x0, 17, 0⟩
def F.WDS_SLOTS_USED.V : Fld := ⟨0x60004, 0x0, 0x0, 17, 0⟩
def F.WDS_TMR_CTRL.CLASS : Fld := ⟨0x60400, 0x80, 0x0, 5, 0⟩
def F.WDS_TMR_CTRL.ENABLE : Fld := ⟨0x60400, 0x80, 0x0, 31, 31⟩
def F.WDS_TMR_DATA.V : Fld := ⟨0x60440, 0x80, 0x4, 31, 0⟩
def F.WDS_TMR_MISSED.V : Fld := ⟨0x60408, 0x80, 0x0, 31, 0⟩

end Sys2Proof.Machine
end

