-- ==== Sys2Proof/Machine/Ops.lean ====
section
/-! DEFINITION. The named operations over registers, memory, time, the event log and free values that every meaning is
written with. -/
namespace Sys2Proof.Machine
open Sys2Proof

/-! ### Registers -/

/-- The address of instance (i, j) of a field's register. -/
def Fld.addr (f : Fld) (i : Nat := 0) (j : Nat := 0) : Nat := f.base + i * f.s1 + j * f.s2

/-- The field's width in bits. -/
def Fld.width (f : Fld) : Nat := f.hi + 1 - f.lo

/-- The register word stored at a BAR0 address. -/
def Chip.rd (c : Chip) (a : Nat) : Word := smGet regReset c.regs a

/-- The chip with the register word at a BAR0 address stored. -/
def Chip.wr (c : Chip) (a : Nat) (v : Word) : Chip := { c with regs := smSet regReset c.regs a v }

/-- The value of field `f` of instance (i, j). -/
def Chip.getF (c : Chip) (f : Fld) (i : Nat := 0) (j : Nat := 0) : Nat := bitsOf f.hi f.lo (c.rd (f.addr i j)).toNat

/-- The chip with field `f` of instance (i, j) set to `v`. -/
def Chip.putF (c : Chip) (f : Fld) (v : Nat) (i : Nat := 0) (j : Nat := 0) : Chip :=
  c.wr (f.addr i j) (BitVec.ofNat 32 (setBitsOf f.hi f.lo (c.rd (f.addr i j)).toNat v))

/-- A one-bit field as a truth value; a wider field is true when it is not 0. -/
def Chip.flag (c : Chip) (f : Fld) (i : Nat := 0) (j : Nat := 0) : Bool := c.getF f i j != 0

/-- A field counted up, saturating at its width. -/
def Chip.bump (c : Chip) (f : Fld) (i : Nat := 0) (j : Nat := 0) (n : Nat := 1) : Chip :=
  c.putF f (satAdd f.width (c.getF f i j) n) i j

/-- A field counted up, wrapping at its width. -/
def Chip.bumpWrap (c : Chip) (f : Fld) (i : Nat := 0) (j : Nat := 0) (n : Nat := 1) : Chip :=
  c.putF f (c.getF f i j + n) i j

/-- A field counted down, not below 0. -/
def Chip.sink (c : Chip) (f : Fld) (i : Nat := 0) (j : Nat := 0) (n : Nat := 1) : Chip :=
  c.putF f (c.getF f i j - n) i j

/-- The value of two consecutive registers (R13), least significant word at the field's address. -/
def Chip.getQ (c : Chip) (f : Fld) (i : Nat := 0) (j : Nat := 0) : Nat :=
  (c.rd (f.addr i j)).toNat + 2 ^ 32 * (c.rd (f.addr i j + 4)).toNat

/-- The chip with two consecutive registers set. -/
def Chip.putQ (c : Chip) (f : Fld) (v : Nat) (i : Nat := 0) (j : Nat := 0) : Chip :=
  (c.wr (f.addr i j) (BitVec.ofNat 32 v)).wr (f.addr i j + 4) (BitVec.ofNat 32 (v / 2 ^ 32))

/-- A two-register counter counted up, saturating at `w` bits. -/
def Chip.bumpQ (c : Chip) (w : Nat) (f : Fld) (i : Nat := 0) (j : Nat := 0) (n : Nat := 1) : Chip :=
  c.putQ f (satAdd w (c.getQ f i j) n) i j

/-- A two-register counter counted up, wrapping at `w` bits. -/
def Chip.bumpQWrap (c : Chip) (w : Nat) (f : Fld) (i : Nat := 0) (j : Nat := 0) (n : Nat := 1) : Chip :=
  c.putQ f ((c.getQ f i j + n) % 2 ^ w) i j

/-- Bytes packed in a register array: byte k in word k / 4, bits 8 (k mod 4) + 7 to 8 (k mod 4). -/
def Chip.getBytes (c : Chip) (a n : Nat) : Bytes :=
  (List.range n).map (fun k => BitVec.ofNat 8 ((c.rd (a + 4 * (k / 4))).toNat / 2 ^ (8 * (k % 4))))

/-- The chip with bytes packed in a register array from address `a`. -/
def Chip.putWords (c : Chip) : Nat → Bytes → Chip
  | _, [] => c
  | a, b0 :: b1 :: b2 :: b3 :: r => Chip.putWords (c.wr a (BitVec.ofNat 32 (leNat [b0, b1, b2, b3]))) (a + 4) r
  | a, bs => c.wr a (BitVec.ofNat 32 (leNat bs + ((c.rd a).toNat / 2 ^ (8 * bs.length)) * 2 ^ (8 * bs.length)))

/-! ### Free values -/

/-- The chip with one free value used. -/
def Chip.useFree (c : Chip) : Chip := { c with freeCtr := c.freeCtr + 1 }

/-- The free number next in turn. -/
def Chip.freeNat (c : Chip) : Nat := Config.freeNat c.freeCtr

/-! ### Device DRAM and host memory (R355 to R358) -/

/-- What an unlisted memory byte reads as: 0 (R628; host memory: log entry 6). -/
def memDefault (_ : Nat) : Byte := 0

/-- One byte of a sparse memory. -/
def memByte (m : List Host.Cell) (a : Nat) : Byte := smGet memDefault m a

/-- `n` bytes of a sparse memory from address `a`. -/
def memRead (m : List Host.Cell) (a n : Nat) : Bytes := (List.range n).map (fun k => memByte m (a + k))

/-- A sparse memory with bytes written from address `a`. -/
def memWrite : List Host.Cell → Nat → Bytes → List Host.Cell
  | m, _, [] => m
  | m, a, b :: bs => memWrite (smSet memDefault m a b) (a + 1) bs

/-- The canonical form of a memory. -/
abbrev Memory.wf (m : List Host.Cell) : Prop := smWf memDefault m

/-- `n` bytes of device DRAM. -/
def Chip.dramRead (c : Chip) (a n : Nat) : Bytes := memRead c.dram a n

/-- The chip with bytes of device DRAM written. -/
def Chip.dramWrite (c : Chip) (a : Nat) (bs : Bytes) : Chip := { c with dram := memWrite c.dram a bs }

/-- The chip with bytes of host memory written by DMA. -/
def Chip.hostWrite (c : Chip) (a : Nat) (bs : Bytes) : Chip := { c with hostMem := memWrite c.hostMem a bs }

/-! ### Time (R16, R17, R450, R457) -/

/-- DT in units of 2^-16 ns: the accumulator's top 96 bits. -/
def Chip.dt (c : Chip) : Nat := c.time.acc / 2 ^ 24

/-- DTW: the low 64 bits of DT. -/
def Chip.dtw (c : Chip) : Nat := c.dt % 2 ^ 64

/-- FT: DT's integer nanoseconds shifted right by 20, low 32 bits. -/
def Chip.ft (c : Chip) : Nat := (c.time.acc / 2 ^ 40 / 2 ^ 20) % 2 ^ 32

/-- MT in ns. -/
def Chip.mt (c : Chip) : Nat := (c.time.mt / 2 ^ 40) % 2 ^ 64

/-- Time a lies after time b (R17), DTW. -/
def dtwAfter (a b : Nat) : Bool := decide (0 < signedOf 64 (a + (2 ^ 64 - b % 2 ^ 64)))

/-- Signed difference of two FT values (R17). -/
def ftDiff (a b : Nat) : Int := signedOf 32 (a + (2 ^ 32 - b % 2 ^ 32))

/-- GLB_STATUS.TIME_VALID. -/
def Chip.timeValid (c : Chip) : Bool := c.flag F.GLB_STATUS.TIME_VALID

/-- The outcomes of accepting a time (R457). -/
inductive TimeClass where
  | now | ahead | late | past | far
  deriving DecidableEq, Repr

/-- Classification of a time against the present device time (R457). -/
def Chip.timeClass (c : Chip) (t : Nat) : TimeClass :=
  let u := ((t + (2 ^ 64 - c.dtw)) % 2 ^ 64) / 2 ^ 16
  let w := c.getF F.TIM_LATE_WINDOW.V * 1000
  if u = 0 then .now
  else if u ≤ 2 ^ 47 then .ahead
  else if 2 ^ 48 ≤ u + w then .late
  else if u < 3 * 2 ^ 46 then .far
  else .past

/-- A scheduled action's time has come. (log entry 9 DESIGN CHOICE.) -/
def Chip.due (c : Chip) (t : Nat) : Bool := !dtwAfter t c.dtw

/-! ### Interrupt messages (R509 to R511) -/

/-- The interrupt source of an event or DONE register (R510); management lanes and unlisted blocks have none. -/
def srcOf (a i : Nat) : Option Nat :=
  if 0x200000 ≤ a ∧ a < 0x300000 then (if i < 1024 then some i else none)
  else if 0x300C00 ≤ a ∧ a < 0x301000 then some (1024 + 4 * i)
  else if 0x300000 ≤ a ∧ a < 0x500000 then some (1024 + i)
  else if 0x500000 ≤ a ∧ a < 0x600000 then some (1536 + i)
  else if 0x800000 ≤ a ∧ a < 0xA00000 then some (1552 + i)
  else if 0xA00000 ≤ a ∧ a < 0xC00000 then some (1680 + i)
  else if 0x10000 ≤ a ∧ a < 0x20000 then some 1696
  else if 0x600000 ≤ a ∧ a < 0x610000 then some 1697
  else if 0x610000 ≤ a ∧ a < 0x620000 then some 1698
  else if 0x620000 ≤ a ∧ a < 0x630000 then some 1699
  else if 0x40000 ≤ a ∧ a < 0x50000 then some 1700
  else if 0x60000 ≤ a ∧ a < 0x70000 then some 1701
  else if 0xC00000 ≤ a ∧ a < 0xE00000 then some 1702
  else if 0xE00000 ≤ a ∧ a < 0xF00000 then some 1703
  else if 0xF00000 ≤ a ∧ a < 0x1000000 then some 1704
  else if 0x100000 ≤ a ∧ a < 0x200000 then some 1705
  else if 0x50000 ≤ a ∧ a < 0x60000 then some 1706
  else if 0x30000 ≤ a ∧ a < 0x40000 then some 1707
  else if 0x20000 ≤ a ∧ a < 0x30000 then some 1708
  else if 0x80000 ≤ a ∧ a < 0x100000 then some 1709
  else none

/-- A vector's message (R511): held pending while masked, merged within 1 µs of the last, else written to the host. -/
def Chip.message (c : Chip) (v : Nat) : Chip :=
  let w (j : Nat) := (c.rd (F.HST_MSIX_TBL.V.addr v j)).toNat
  if bitOf 0 (w 3) then
    c.putF F.HST_MSIX_PBA.V (setBitsOf (v % 32) (v % 32) (c.getF F.HST_MSIX_PBA.V (v / 32)) 1) (v / 32)
  else if (match smFind c.host.lastMsg v with | some t => decide (c.mt < t + 1000) | none => false) then c
  else { c.hostWrite (w 0 + 2 ^ 32 * w 1) (natLe 4 (w 2)) with host := { c.host with lastMsg := smPut c.host.lastMsg v c.mt } }

/-- An interrupt source rises (R511): its vector's message unless the source is masked. -/
def Chip.sourceRise (c : Chip) (s : Nat) : Chip :=
  if c.flag F.HST_SRC_VEC.MASK s then c else c.message (c.getF F.HST_SRC_VEC.VECTOR s)

/-- An event bit is raised; where it was 0 and its enable (the next register) is 1, its source rises. -/
def Chip.raise (c : Chip) (f : Fld) (i : Nat := 0) : Chip :=
  let c1 := c.putF f 1 i
  if c.flag f i || !bitOf f.lo (c.rd (f.addr i + 4)).toNat then c1
  else match srcOf f.base i with
    | some s => c1.sourceRise s
    | none => c1

/-- A DONE bit is set; where it was 0 its source rises. -/
def Chip.raiseDone (c : Chip) (f : Fld) (i : Nat := 0) : Chip :=
  let c1 := c.putF f 1 i
  if c.flag f i then c1
  else match srcOf f.base i with
    | some s => c1.sourceRise s
    | none => c1

/-- FAULT_PENDING and RECOVERING set together with source 1,710 on a rise (R510). -/
def Chip.raiseGlb (c : Chip) (f : Fld) : Chip :=
  let c1 := c.putF f 1
  if c.flag f then c1 else c1.sourceRise 1710

/-! ### Event log (R555 to R557) -/

/-- The chip with an event-log entry written; with the buffer full the entry is lost and its SEQ passes.
(log entry 60 DEDUCED.) -/
def Chip.log (c : Chip) (source severity code inst data : Nat) : Chip :=
  if !c.power.aon then c
  else if 1024 ≤ c.mgt.logBuf.length then
    { (c.bump F.MGT_LOG_STATUS.LOST).raise F.MGT_EVENTS.LOG_LOST with
      mgt := { c.mgt with nextSeq := c.mgt.nextSeq + 1 } }
  else
    let e : LogEntry := ⟨c.mgt.nextSeq, c.dtw, source, severity, code, inst,
      b2n c.timeValid + 2 * b2n c.power.firstEntry, data⟩
    let c := c.putQ F.MGT_LOG_HEAD.V c.mgt.nextSeq
    let c := { c with
      mgt := { c.mgt with logBuf := c.mgt.logBuf ++ [e], nextSeq := c.mgt.nextSeq + 1 }
      power := { c.power with firstEntry := false } }
    c.putF F.MGT_LOG_STATUS.BUFFERED c.mgt.logBuf.length

/-! ### Event counters, port statistics and gap flags (R468 to R475) -/

/-- The enabled event counters that select an event: block, instance, event. -/
def Chip.evSelecting (c : Chip) (blk inst ev : Nat) : List Nat :=
  c.regs.filterMap (fun e =>
    if 0x188004 ≤ e.1 ∧ e.1 < 0x190000 ∧ e.1 % 8 = 4 ∧ bitOf 31 e.2.toNat then
      let n := (e.1 - 0x188004) / 8
      if (c.rd (0x188000 + 8 * n)).toNat = setBitsOf 7 0 (inst * 2 ^ 10 + blk * 2 ^ 28) ev then some n else none
    else none)

/-- Event counter `n` adds `k`, wrapping at 2^48 with OVF (R473). -/
def Chip.evAdd (c : Chip) (n k : Nat) : Chip :=
  let v := c.getQ F.TEL_EV_CNT.V n + k
  let c1 := c.putQ F.TEL_EV_CNT.V (v % 2 ^ 48) n
  if 2 ^ 48 ≤ v then c1.putF F.TEL_EV_CTL.OVF 1 n else c1

/-- A pulse event with `k` occurrences in a core cycle (R471). -/
def Chip.signal (c : Chip) (blk inst ev : Nat) (k : Nat := 1) : Chip :=
  if c.flag F.TEL_EV_CTRL.FREEZE then c
  else (c.evSelecting blk inst ev).foldl
    (fun c n => c.evAdd n (if c.flag F.TEL_EV_CTL.MODE n then min 1 k else k)) c

/-- A condition event takes a level (R471): an EDGE counter counts its rise. -/
def Chip.condEv (c : Chip) (blk inst ev : Nat) (b : Bool) : Chip :=
  let key := blk * 2 ^ 26 + inst * 2 ^ 8 + ev
  let old := smGet (fun _ => false) c.tel.conds key
  let c1 := { c with tel := { c.tel with conds := smSet (fun _ => false) c.tel.conds key b } }
  if b && !old && !c.flag F.TEL_EV_CTRL.FREEZE then
    ((c.evSelecting blk inst ev).filter (fun n => !c.flag F.TEL_EV_CTL.MODE n)).foldl (fun c n => c.evAdd n 1) c1
  else c1

/-- Port statistics slot `i` of port `p` counts `k` (R469). -/
def Chip.stat (c : Chip) (p i : Nat) (k : Nat := 1) : Chip := c.bumpQWrap 64 F.TEL_PORT_CNT.V p i k

/-- The GAP bit of a counter set is set (R475). -/
def Chip.gap (c : Chip) (set : Nat) : Chip :=
  (c.putF F.TEL_GAP.V (setBitsOf (set % 32) (set % 32) (c.getF F.TEL_GAP.V (set / 32)) 1) (set / 32)).raise F.TEL_EVENTS.GAP

/-! ### Command ports (R20, R21, R63) -/

/-- Status codes (R20). -/
def stOk : Nat := 0
def stBusy : Nat := 1
def stLate : Nat := 2
def stPast : Nat := 3
def stFar : Nat := 4
def stDenied : Nat := 5
def stInvalid : Nat := 6
def stTimeout : Nat := 7
def stBudget : Nat := 8

/-- The registers of one command port. -/
structure Port where
  done : Fld
  running : Fld
  overrun : Fld
  status : Fld
  deriving DecidableEq, Repr

/-- A command written while one runs is ignored and sets OVERRUN (R63); else `k` runs. -/
def Chip.command (c : Chip) (p : Port) (k : Chip → Chip) (i : Nat := 0) : Chip :=
  if c.flag p.running i then c.putF p.overrun 1 i else k c

/-- A command completes with a status. -/
def Chip.finish (c : Chip) (p : Port) (st : Nat) (i : Nat := 0) : Chip :=
  ((c.putF p.status st i).putF p.running 0 i).raiseDone p.done i

/-- The first refusal of a list in order (R21). -/
def firstRefusal : List (Bool × Nat) → Option Nat
  | [] => none
  | (true, st) :: _ => some st
  | (false, _) :: r => firstRefusal r

def portPlt : Port := ⟨F.PLT_CMD_STATUS.DONE, F.PLT_CMD_STATUS.RUNNING, F.PLT_CMD_STATUS.OVERRUN, F.PLT_CMD_STATUS.STATUS⟩
def portTim : Port := ⟨F.TIM_CMD_STATUS.DONE, F.TIM_CMD_STATUS.RUNNING, F.TIM_CMD_STATUS.OVERRUN, F.TIM_CMD_STATUS.STATUS⟩
def portCls : Port := ⟨F.CLS_CMD_STATUS.DONE, F.CLS_CMD_STATUS.RUNNING, F.CLS_CMD_STATUS.OVERRUN, F.CLS_CMD_STATUS.STATUS⟩
def portTcmd : Port := ⟨F.CLS_TCMD_STATUS.DONE, F.CLS_TCMD_STATUS.RUNNING, F.CLS_TCMD_STATUS.OVERRUN, F.CLS_TCMD_STATUS.STATUS⟩
def portGng : Port := ⟨F.GNG_CMD_STATUS.DONE, F.GNG_CMD_STATUS.RUNNING, F.GNG_CMD_STATUS.OVERRUN, F.GNG_CMD_STATUS.STATUS⟩
def portMbx : Port := ⟨F.MGT_MBX_STATUS.DONE, F.MGT_MBX_STATUS.RUNNING, F.MGT_MBX_STATUS.OVERRUN, F.MGT_MBX_STATUS.STATUS⟩
def portTw : Port := ⟨F.HST_TW_STATUS.DONE, F.HST_TW_STATUS.RUNNING, F.HST_TW_STATUS.OVERRUN, F.HST_TW_STATUS.STATUS⟩

/-- A gang member other than the coordinator while TIME_FOLLOW is 1 (R539). -/
def Chip.follower (c : Chip) : Bool :=
  c.flag F.GNG_CTRL.TIME_FOLLOW && (c.getF F.GNG_STATUS.STATE == 1 || c.getF F.GNG_STATUS.STATE == 2)
    && c.getF F.GNG_STATUS.COORD != c.getF F.GNG_STATUS.DEVICE

/-- A field of a little-endian section payload; a LENGTH of 0 gives the default. -/
def plF (pl : Bytes) (o n dflt : Nat) : Nat := if pl.isEmpty then dflt else leAt pl o n

end Sys2Proof.Machine
end

