-- ==== Sys2Proof/Machine/PortBase.lean ====
section
/-! DEFINITION. Ports over lanes (R5, R105 to R109): geometry, modes, speeds and states. -/
namespace Sys2Proof.Machine
open Sys2Proof

/-- Speed in Mbit/s, width and lane RATE code of PRT_CFG.MODE 1 to 17 (R106). -/
def modeRow (m : Nat) : Nat × Nat × Nat :=
  match m with
  | 1 => (1600000, 8, 6) | 2 => (800000, 4, 6) | 3 => (800000, 8, 5) | 4 => (400000, 2, 6) | 5 => (400000, 4, 5)
  | 6 => (400000, 8, 4) | 7 => (200000, 1, 6) | 8 => (200000, 2, 5) | 9 => (200000, 4, 4) | 10 => (100000, 1, 5)
  | 11 => (100000, 2, 4) | 12 => (100000, 4, 3) | 13 => (50000, 1, 4) | 14 => (25000, 1, 3) | 15 => (10000, 1, 2)
  | 16 => (1000, 1, 1) | 17 => (1000, 1, 1) | _ => (0, 0, 0)

/-- Speed of a staircase port by final step and width (R107); 0 where no PCS fits. -/
def stairMbps (step w : Nat) : Nat :=
  match step with
  | 3 => w * 200000
  | 2 => w * 100000
  | 1 => if w = 1 then 25000 else if w = 4 then 100000 else 0
  | 0 => if w = 1 then 1000 else 0
  | _ => 0

/-- Lane RATE code of a staircase step (R83, R107). -/
def stepRate (step : Nat) : Nat := match step with | 0 => 1 | 1 => 3 | 2 => 5 | _ => 6

/-- Width in lanes (R106). -/
def Chip.portWidth (c : Chip) (p : Nat) : Nat :=
  if c.getF F.PRT_CFG.MODE p = 18 then 2 ^ c.getF F.PRT_CFG.WIDTH p else (modeRow (c.getF F.PRT_CFG.MODE p)).2.1

/-- First lane of a port (R105). -/
def portLane0 (p : Nat) : Nat := 8 * (p / 4) + 2 * (p % 4)

/-- The lanes of a port (R105). -/
def Chip.portLanes (c : Chip) (p : Nat) : List Nat := (List.range (c.portWidth p)).map (portLane0 p + ·)

/-- A port is present (R106). -/
def Chip.portPresent (c : Chip) (p : Nat) : Bool := c.getF F.PRT_CFG.MODE p != 0

/-- The port a line lane belongs to. -/
def Chip.laneOwner (c : Chip) (l : Nat) : Option Nat :=
  if l < 1024 then ((List.range 4).map (4 * (l / 8) + ·)).find? (fun p => c.portPresent p && (c.portLanes p).contains l)
  else none

/-- PSTATE codes (R132). -/
def psAbsent : Nat := 0
def psDown : Nat := 1
def psForming : Nat := 2
def psUp : Nat := 3
def psDegraded : Nat := 4
def psGaveUp : Nat := 5

/-- The port runs: PSTATE is UP or DEGRADED. -/
def Chip.portUp (c : Chip) (p : Nat) : Bool :=
  c.getF F.PRT_STATUS.PSTATE p == psUp || c.getF F.PRT_STATUS.PSTATE p == psDegraded

/-- The lanes a port runs on: the lower half while degraded (R109). -/
def Chip.liveLanes (c : Chip) (p : Nat) : List Nat :=
  if (smGet (fun _ => PortSt.init) c.ports p).half then (c.portLanes p).take (c.portWidth p / 2) else c.portLanes p

/-- The port's speed as it runs, in Mbit/s (R106, R107, R422). -/
def Chip.portMbps (c : Chip) (p : Nat) : Nat :=
  if c.getF F.PRT_CFG.MODE p = 18 then
    stairMbps (c.getF F.PRT_STATUS.STEP p) (c.liveLanes p).length
  else (modeRow (c.getF F.PRT_CFG.MODE p)).1

/-- A port's state beyond its registers. -/
def Chip.portSt (c : Chip) (p : Nat) : PortSt := smGet (fun _ => PortSt.init) c.ports p

/-- The chip with a port's state set. -/
def Chip.setPort (c : Chip) (p : Nat) (x : PortSt) : Chip := { c with ports := smSet (fun _ => PortSt.init) c.ports p x }

/-- The slice of a port (R5). -/
def sliceOf (p : Nat) : Nat := p / 32

/-- The lane group of a port is in gang mode (R77). -/
def Chip.gangGroup (c : Chip) (g : Nat) : Bool := c.plate.gangGroups.contains g

/-- The port is a gang link: MODE 18 in a gang-mode lane group (R107). -/
def Chip.gangPort (c : Chip) (p : Nat) : Bool := c.getF F.PRT_CFG.MODE p == 18 && c.gangGroup (p / 4)

/-- The length bound of a packet whose tail has not arrived (R123), as a frame length. -/
def Chip.lengthBound (c : Chip) (p : Pkt) : Nat := p.bound.getD (c.getF F.PRT_MAXFRAME.MAXFRAME p.port)

/-- A class of a port is stopped by PAUSE or PFC (R114). -/
def Chip.classPaused (c : Chip) (p cls : Nat) : Bool := smGet (fun _ => 0) (c.portSt p).pause cls != 0

end Sys2Proof.Machine
end

