-- ==== Sys2Proof/Machine/Packet.lean ====
section
/-! DEFINITION. Packets in the device: their table, their stamps, and the reading of a flow result (R238). -/
namespace Sys2Proof.Machine
open Sys2Proof

/-- A packet by number. -/
def Chip.pkt (c : Chip) (pid : Nat) : Option Pkt := smFind c.pkts pid

/-- The chip with a packet's state set. -/
def Chip.setPkt (c : Chip) (pid : Nat) (p : Pkt) : Chip := { c with pkts := smPut c.pkts pid p }

/-- The chip with a packet changed. -/
def Chip.updPkt (c : Chip) (pid : Nat) (f : Pkt → Pkt) : Chip :=
  match c.pkt pid with
  | some p => c.setPkt pid (f p)
  | none => c

/-- The chip without a packet. -/
def Chip.rmPkt (c : Chip) (pid : Nat) : Chip := { c with pkts := smErase c.pkts pid }

/-- A packet at its first byte (R24, R461). -/
def Pkt.init (src srcId port iseq istamp : Nat) (frame : Bytes) : Pkt :=
  { src := src, srcId := srcId, srcSeq := 0, port := port, iseq := iseq, istamp := istamp, frame := frame, orig := frame,
    got := 0, flen := frame.length + 4, trap := 0, tail := 0, stage := .mac, pass := 0, passSeq := 0, pipe := 0, ctx := none, hv := zerosB 256, prov := none, lastPc := 0,
    ver := none, inflight := false, res := ClsRes.init, decap := [], flowKey := none, h1 := 0, h2 := 0, dir := 0,
    flow := none, flowDev := 0, opSent := false, bound := none, recirc := false, inspect := 0, grp := 0, report := [], ingC := 0,
    shC := 0, hrC := 0, prio := 0, banks := [], cells := 0, pendTag := none, copies := [], resExp := false, strip := none, gangHdr := [] }

/-- A packet enters the device: it takes the next packet number. -/
def Chip.addPkt (c : Chip) (p : Pkt) : Chip :=
  { (c.setPkt c.tm.nextPid p) with tm := { c.tm with nextPid := c.tm.nextPid + 1 } }

/-- The slice whose pipes a packet uses (R25). -/
def Pkt.slice (p : Pkt) : Nat := sliceOf p.port

/-- A test strip takes the stamp of a stage (R480). -/
def Chip.stampStrip (c : Chip) (pid stage : Nat) : Chip :=
  c.updPkt pid fun p => match p.strip with
    | some s => if s.timedOut then p else { p with strip := some { s with stamps := smPut s.stamps stage c.dtw } }
    | none => p

/-! ### Header vector (R143) -/

def Pkt.k0Valid (p : Pkt) : Bool := bitOf 6 (byteAt p.hv 11)
def Pkt.kdValid (p : Pkt) : Bool := bitOf 7 (byteAt p.hv 11)
def Pkt.kdLevel (p : Pkt) : Nat := bitsOf 5 4 (byteAt p.hv 11)
def Pkt.anom (p : Pkt) : Nat := beAt p.hv 12 2
def Pkt.lenConflict (p : Pkt) : Bool := bitOf 1 p.anom

/-! ### Flow result (R238) -/

/-- STATUS: 0 HIT, 1 INSERTED, 2 CREATED, 3 ABSENT, 4 MISS_FB, 5 SETUP_FB, 6 ERROR, 7 NOT_OWNER. -/
def frStatus (r : Bytes) : Nat := bitsOf 2 0 (byteAt r 0)
def frOrient (r : Bytes) : Nat := bitsOf 3 3 (byteAt r 0)
def frRecirc (r : Bytes) : Bool := bitOf 4 (byteAt r 0)
def frVerdict (r : Bytes) : Nat := bitsOf 1 0 (byteAt r 1)
def frColour (r : Bytes) : Nat := bitsOf 3 2 (byteAt r 1)
def frTstate (r : Bytes) : Nat := bitsOf 7 4 (byteAt r 1)
def frKind (r : Bytes) : Nat := bitsOf 1 0 (byteAt r 2)
def frAddr (r : Bytes) : Bool := bitOf 2 (byteAt r 2)
def frPort (r : Bytes) : Bool := bitOf 3 (byteAt r 2)
def frHairpin (r : Bytes) : Bool := bitOf 4 (byteAt r 2)
def frLbValid (r : Bytes) : Bool := bitOf 5 (byteAt r 2)
def frFlowqValid (r : Bytes) : Bool := bitOf 6 (byteAt r 2)
def frTemplate (r : Bytes) : Nat := bitsOf 5 0 (byteAt r 3)
def frXaddr (r : Bytes) : Bytes := sliceB r 4 16
def frXport (r : Bytes) : Nat := beAt r 20 2
def frTarget (r : Bytes) : Nat := beAt r 24 4
def frFlowq (r : Bytes) : Nat := bitsOf 17 0 (beAt r 28 4)

/-- The more severe of two verdicts: drop (1) over trap (2) over forward (0) (R145, R165). -/
def severest (a b : Nat) : Nat := if a = 1 ∨ b = 1 then 1 else if a = 2 ∨ b = 2 then 2 else 0

/-- A big-endian flow result is well formed in length. -/
def frLen : Nat := 32

end Sys2Proof.Machine
end

