-- ==== Sys2Proof/Machine/FlowRec.lean ====
section
/-! DEFINITION. Flow keys, hashes, records, the flow table in DRAM and the cache (R207 to R230, R294, R295). -/
namespace Sys2Proof.Machine
open Sys2Proof

/-! ### Keys and hashes (R209 to R214) -/

/-- The zone id with FRAG: bit 23 FRAG, bits 22:0 the zone id. -/
def zoneField (frag : Bool) (zone : Nat) : Nat := b2n frag * 2 ^ 23 + zone % 2 ^ 23

/-- canonical_key of R211 from endpoints, PROTO and the ZONE field. -/
def canonKey (sa da : Bytes) (sp dp proto zone : Nat) : Bytes × Nat :=
  let src := beNat sa * 65536 + sp
  let dst := beNat da * 65536 + dp
  if src ≤ dst then (sa ++ da ++ natBe 2 sp ++ natBe 2 dp ++ natBe 1 proto ++ natBe 3 zone, 0)
  else (da ++ sa ++ natBe 2 dp ++ natBe 2 sp ++ natBe 1 proto ++ natBe 3 zone, 1)

/-- canonical_key of a key area (R211). -/
def canonArea (k : Bytes) (zone : Nat) : Bytes × Nat :=
  canonKey (sliceB k 0 16) (sliceB k 16 16) (beAt k 32 2) (beAt k 34 2) (byteAt k 36)
    (zoneField (bitOf 0 (byteAt k 37)) zone)

/-- H1 of a key (R212). -/
def Chip.h1Of (c : Chip) (key : Bytes) : Nat := crc32c (c.getF F.PLT_SEED1.V) (sliceB key 0 40)
/-- H2 of a key (R212). -/
def Chip.h2Of (c : Chip) (key : Bytes) : Nat := crc32c (c.getF F.PLT_SEED2.V) (sliceB key 0 40)

/-- ENGINE, SLOT, SET and F of H1 (R213). -/
def hEngine (h1 : Nat) : Nat := h1 % 128
def hSlot (h1 : Nat) : Nat := bitsOf 14 7 h1
def hSet (h1 : Nat) : Nat := bitsOf 24 15 h1
def hFp (h : Nat) : Nat := bitsOf 31 16 h

/-! ### The table in DRAM (R218 to R225) -/

/-- SLOTS_LOG2 in force; 0 where flow tracking is absent. -/
def Chip.slotsLog2 (c : Chip) : Nat := c.getF F.FLE_TBL_INFO.SLOTS_LOG2
/-- Flow tracking is present (R218). -/
def Chip.flowPresent (c : Chip) : Bool := c.slotsLog2 != 0
/-- Buckets of an engine's region (R218). -/
def Chip.nbuckets (c : Chip) : Nat := 2 ^ (c.slotsLog2 - 10)
/-- TAG_BASE (R219). -/
def Chip.tagBase (c : Chip) : Nat := c.getF F.FLE_TBL_INFO.BASE_GIB * 2 ^ 30
/-- REC_BASE (R219). -/
def Chip.recBase (c : Chip) : Nat := c.tagBase + 2 ^ (c.slotsLog2 + 3)
/-- End of the table (R219). -/
def Chip.tableEnd (c : Chip) : Nat := c.recBase + 2 ^ (c.slotsLog2 + 7)
/-- Address of tag `j` of bucket `b` of engine `e`. -/
def Chip.tagAddr (c : Chip) (e b j : Nat) : Nat := c.tagBase + 64 * (b * 128 + e) + 8 * j
/-- Address of record slot `j` of bucket `b` of engine `e`. -/
def Chip.recAddr (c : Chip) (e b j : Nat) : Nat := c.recBase + 1024 * (b * 128 + e) + 128 * j

/-- b1 and b2 of a flow (R214). -/
def Chip.flowBuckets (c : Chip) (h1 h2 : Nat) : Nat × Nat :=
  let nb := c.nbuckets
  (h2 % nb, Nat.xor (h2 % nb) ((hFp h1 * 0x9E3779B1) % nb))

/-- The tag of a slot. -/
def Chip.tag (c : Chip) (e b j : Nat) : Bytes := c.dramRead (c.tagAddr e b j) 8
/-- The record of a slot. -/
def Chip.slotRec (c : Chip) (e b j : Nat) : Bytes := c.dramRead (c.recAddr e b j) 128

/-- Fields of a tag (R220). -/
def tagValid (t : Bytes) : Bool := bitOf 7 (byteAt t 5)
def tagPin (t : Bytes) : Bool := bitOf 5 (byteAt t 5)
def tagReplica (t : Bytes) : Bool := bitOf 4 (byteAt t 5)
def tagAge (t : Bytes) : Nat := bitsOf 3 0 (byteAt t 5)
/-- H1[24:15] of a tag (R250). -/
def tagSet (t : Bytes) : Nat := (beAt t 0 2 % 512) * 2 + b2n (bitOf 6 (byteAt t 5))

/-- A tag matches a flow (R220). -/
def tagMatches (t : Bytes) (h1 h2 : Nat) : Bool :=
  tagValid t && beAt t 0 2 == hFp h1 && beAt t 2 2 == hFp h2 && byteAt t 4 == hSlot h1
    && bitOf 6 (byteAt t 5) == bitOf 15 h1

/-- The slots of a flow's pair, b1 first. -/
def Chip.pairSlots (c : Chip) (h1 h2 : Nat) : List (Nat × Nat) :=
  let b := c.flowBuckets h1 h2
  (List.range 8).map (fun j => (b.1, j)) ++ (if b.2 = b.1 then [] else (List.range 8).map (fun j => (b.2, j)))

/-- The slot whose tag matches a flow (R221). -/
def Chip.tagHit (c : Chip) (e h1 h2 : Nat) : Option (Nat × Nat) :=
  (c.pairSlots h1 h2).find? (fun s => tagMatches (c.tag e s.1 s.2) h1 h2)

/-! ### Records (R215, R216) -/

def rState (r : Bytes) : Nat := beAt r 40 2
def rKey (r : Bytes) : Bytes := sliceB r 0 40
def rProto (r : Bytes) : Nat := byteAt r 36
def rPin (r : Bytes) : Bool := bitOf 14 (rState r)
def rOrigin (r : Bytes) : Nat := bitsOf 13 13 (rState r)
def rTstate (r : Bytes) : Nat := bitsOf 12 9 (rState r)
def rNatMode (r : Bytes) : Nat := bitsOf 8 7 (rState r)
def rLb (r : Bytes) : Bool := bitOf 6 (rState r)
def rExport (r : Bytes) : Bool := bitOf 5 (rState r)
def rFlowq (r : Bytes) : Bool := bitOf 4 (rState r)
def rAge (r : Bytes) : Nat := bitsOf 3 0 (rState r)
def rTemplate (r : Bytes) : Nat := bitsOf 5 0 (byteAt r 42)
def rReplica (r : Bytes) : Bool := bitOf 2 (byteAt r 43)
def rXflags (r : Bytes) : Nat := beAt r 74 2
def rHandle (r : Bytes) : Nat := bitsOf 17 0 (beAt r 104 4)

/-- The record with STATE bits `hi:lo` set. -/
def rPutState (r : Bytes) (hi lo v : Nat) : Bytes := putBe r 40 2 (setBitsOf hi lo (rState r) v)

/-- The tag of a record (R220). -/
def Chip.tagOf (c : Chip) (r : Bytes) : Bytes :=
  let h1 := c.h1Of (rKey r)
  natBe 2 (hFp h1) ++ natBe 2 (hFp (c.h2Of (rKey r))) ++ natBe 1 (hSlot h1)
    ++ natBe 1 (b2n (bitOf 15 (rState r)) * 128 + b2n (bitOf 15 h1) * 64 + b2n (rPin r) * 32 + b2n (rReplica r) * 16 + rAge r)
    ++ natBe 1 (rTemplate r) ++ [0]

/-! ### The cache (R226 to R229) -/

/-- An engine's state. -/
def Chip.eng (c : Chip) (e : Nat) : EngSt := smGet (fun _ => EngSt.init) c.flow.eng e
/-- The chip with an engine's state set. -/
def Chip.setEng (c : Chip) (e : Nat) (x : EngSt) : Chip :=
  { c with flow := { c.flow with eng := smSet (fun _ => EngSt.init) c.flow.eng e x } }
/-- A way by set × 16 + way. -/
def Chip.way (c : Chip) (e i : Nat) : Way := smGet Way.init (c.eng e).ways i
/-- The chip with a way set. -/
def Chip.setWay (c : Chip) (e i : Nat) (w : Way) : Chip :=
  c.setEng e { c.eng e with ways := smSet Way.init (c.eng e).ways i w }
/-- The ways of a set. -/
def setWays (set : Nat) : List Nat := (List.range 16).map (16 * set + ·)

/-- The way that holds a key (R227). -/
def Chip.wayOf (c : Chip) (e : Nat) (key : Bytes) (h1 : Nat) : Option Nat :=
  (setWays (hSet h1)).find? (fun i => (c.way e i).full && rKey (c.way e i).record == sliceB key 0 40)

/-- cache_way of R228; none: WAIT. -/
def Chip.cacheWay (c : Chip) (e set : Nat) : Option Nat :=
  match (setWays set).find? (fun i => !(c.way e i).full) with
  | some i => some i
  | none => ((setWays set).filter (fun i => !(c.way e i).held)).foldl
      (fun best i => match best with
        | none => some i
        | some b => if (c.way e b).rank < (c.way e i).rank then some i else some b) none

/-- touch of R228. -/
def Chip.touch (c : Chip) (e i : Nat) : Chip :=
  let r := (c.way e i).rank
  let c1 := (setWays (i / 16)).foldl (fun c x =>
    if (c.way e x).rank < r then c.setWay e x { c.way e x with rank := (c.way e x).rank + 1 } else c) c
  c1.setWay e i { c1.way e i with rank := 0 }

/-- Bucket of a cached record (R226). -/
def Chip.wayBucket (c : Chip) (w : Way) : Nat :=
  let b := c.flowBuckets (c.h1Of (rKey w.record)) (c.h2Of (rKey w.record))
  if w.bsel = 0 then b.1 else b.2

/-- A record written to its slot, and its tag where it changed (R224). -/
def Chip.storeRec (c : Chip) (e b j : Nat) (r : Bytes) : Chip :=
  let c := c.dramWrite (c.recAddr e b j) r
  let t := c.tagOf r
  if c.tag e b j == t then c else c.dramWrite (c.tagAddr e b j) t

/-- A slot's tag with VALID 0 (R223). -/
def Chip.clearTag (c : Chip) (e b j : Nat) : Chip := c.dramWrite (c.tagAddr e b j) (zerosB 8)

/-- A way is emptied; it keeps its rank (R228). -/
def Chip.emptyWay (c : Chip) (e i : Nat) : Chip :=
  c.setWay e i { Way.init i with rank := (c.way e i).rank }

/-- A way's record leaves it: a dirty one is written back (R229). -/
def Chip.victimWay (c : Chip) (e i : Nat) : Chip :=
  let w := c.way e i
  if w.full && w.dirty then
    (((c.storeRec e (c.wayBucket w) w.bslot w.record).bumpQ 48 F.FLE_CNT_WRITEBACK.V e).signal 4 e 5).emptyWay e i
  else c.emptyWay e i

/-- A record enters a way. -/
def Chip.fillWay (c : Chip) (e i b j : Nat) (held dirty : Bool) (r : Bytes) : Chip :=
  let c := c.victimWay e i
  let bs := c.flowBuckets (c.h1Of (rKey r)) (c.h2Of (rKey r))
  (c.setWay e i ⟨true, dirty, if b = bs.1 then 0 else 1, j, (c.way e i).rank, held, r⟩).touch e i

/-- Dirty ways of an engine written back (R229, engine-set stop-bath). -/
def Chip.writeBackAll (c : Chip) (e : Nat) : Chip :=
  (smKeys (c.eng e).ways).foldl (fun c i =>
    let w := c.way e i
    if w.full && w.dirty then
      (c.storeRec e (c.wayBucket w) w.bslot w.record).setWay e i { w with dirty := false }
    else c) c

/-! ### Record-field permissions (R294, R295) -/

/-- The group of a STATE bit. -/
def stateGroup (b : Nat) : Nat :=
  if b = 15 then 0 else if b = 14 ∨ b < 4 then 1 else if 9 ≤ b then 2 else if 7 ≤ b then 3 else b - 2

/-- The group of a record byte from 42 on; `lb`: STATE.LB is 1 before or after the write. -/
def byteGroup (o : Nat) (lb : Bool) : Nat :=
  if o < 44 then 7 else if o < 48 then 8 else if o < 54 then 7 else if o < 56 then 9 else if o < 76 then 3
  else if o < 80 then (if lb then 4 else 11) else if o < 104 then 10 else if o < 108 then 6 else if o < 112 then 10 else 11

/-- The groups in which two records differ. -/
def groupsChanged (old new : Bytes) : List Nat :=
  let lb := rLb old || rLb new
  ((List.range 16).filter (fun b => bitOf b (rState old) != bitOf b (rState new))).map stateGroup
  ++ (((List.range 86).map (· + 42)).filter (fun o => byteAt old o != byteAt new o)).map (fun o => byteGroup o lb)

/-- A write passes a group mask (R295): 1 update, 2 create, 3 delete. -/
def permitted (mode mask : Nat) (old new : Bytes) : Bool :=
  match mode with
  | 1 => (groupsChanged old new).all (fun g => bitOf g mask)
  | 3 => bitOf 0 mask
  | _ => bitOf 0 mask && (groupsChanged (zerosB 128) new).all (fun g => g == 7 || bitOf g mask)

/-! ### The hash calculator (R230) -/

/-- HC_GO (R230). -/
def Chip.hcGo (c : Chip) (e : Nat) : Chip :=
  let k := c.getBytes (F.FLE_HC_KEY.V.addr e 0) 40
  let canon := c.flag F.FLE_HC_CTRL.CANON e
  let z := beAt k 37 3
  let r := if canon then canonKey (sliceB k 0 16) (sliceB k 16 16) (beAt k 32 2) (beAt k 34 2) (byteAt k 36) z else (k, 0)
  let h1 := c.h1Of r.1
  let h2 := c.h2Of r.1
  let b := c.flowBuckets h1 h2
  let c := if canon then c.putWords (F.FLE_HC_KEY.V.addr e 0) r.1 else c
  let c := (c.putF F.FLE_HC_H1.V h1 e).putF F.FLE_HC_H2.V h2 e
  let c := (c.putF F.FLE_HC_IDX.ORIENT r.2 e).putF F.FLE_HC_IDX.SET (hSet h1) e
  let c := (c.putF F.FLE_HC_IDX.SLOT (hSlot h1) e).putF F.FLE_HC_IDX.ENGINE (hEngine h1) e
  (c.putF F.FLE_HC_B1.V (if c.flowPresent then b.1 else 0) e).putF F.FLE_HC_B2.V (if c.flowPresent then b.2 else 0) e

end Sys2Proof.Machine
end

