-- ==== Sys2Proof/Machine/FlowStep.lean ====
section
/-! DEFINITION. Templates and the template steps of an op (R231 to R233, R265, R280 to R286). -/
namespace Sys2Proof.Machine
open Sys2Proof

/-! ### Templates (R231) -/

/-- Template `t`, 64 bytes. -/
def Chip.tpl (c : Chip) (t : Nat) : Bytes := sliceB c.flow.templates (64 * t) 64
def tpPresent (t : Bytes) : Bool := bitOf 0 (byteAt t 0)
def tpKeyKd (t : Bytes) : Bool := bitOf 1 (byteAt t 0)
def tpNeedsResult (t : Bytes) : Bool := bitOf 2 (byteAt t 0)
def tpPinNew (t : Bytes) : Bool := bitOf 3 (byteAt t 0)
def tpExportNew (t : Bytes) : Bool := bitOf 4 (byteAt t 0)
def tpReplicate (t : Bytes) : Bool := bitOf 5 (byteAt t 0)
def tpZoneSel (t : Bytes) : Nat := bitsOf 1 0 (byteAt t 1)
def tpZoneOfs (t : Bytes) : Nat := leAt t 2 2
def tpZoneConst (t : Bytes) : Nat := bitsOf 22 0 (leAt t 4 4)
def tpStep (t : Bytes) (i : Nat) : Bool := bitOf i (leAt t 8 2)
def tpMode (t : Bytes) : Nat := bitsOf 1 0 (byteAt t 10)
def tpInsertOn (t : Bytes) : Nat := bitsOf 3 2 (byteAt t 10)
def tpAgeNew (t : Bytes) : Nat := bitsOf 7 4 (byteAt t 10)
def tpMissFb (t : Bytes) : Nat := bitsOf 1 0 (byteAt t 11)
def tpSetupFb (t : Bytes) : Nat := bitsOf 3 2 (byteAt t 11)
def tpAbsentAct (t : Bytes) : Nat := bitsOf 5 4 (byteAt t 11)
def tpEvict (t : Bytes) : Bool := bitOf 6 (byteAt t 11)
def tpDepthAct (t : Bytes) : Nat := bitsOf 1 0 (byteAt t 12)
def tpAnomAct (t : Bytes) : Nat := bitsOf 3 2 (byteAt t 12)
def tpSetupClass (t : Bytes) : Nat := byteAt t 13
def tpNotifyClass (t : Bytes) : Nat := byteAt t 14
def tpEvictClass (t : Bytes) : Nat := byteAt t 15
def tpRegion (t : Bytes) : Nat := byteAt t 16
def tpRecircOn (t : Bytes) : Nat := byteAt t 17
def tpAlu (t : Bytes) (i : Nat) : Nat := leAt t (24 + 8 * i) 8

/-! ### Record-ALU steps (R233) -/

/-- A packet value. -/
def pktValue (c : Chip) (o : FOp) (code : Nat) : Nat :=
  match code with
  | 0 => o.flen | 1 => c.ft | 2 => c.dtw / 2 ^ 16 % 2 ^ 32 | 3 => 1 | 4 => o.tcpf | 5 => b2n o.ce | 6 => o.cls
  | _ => o.port

/-- alu_step: the record and the step's notify condition. -/
def aluStep (c : Chip) (o : FOp) (r : Bytes) (a : Nat) (prev : Bool) : Bytes × Bool × Nat :=
  let op := bitsOf 63 60 a
  let cond := bitsOf 41 40 a
  if op = 0 ∨ (cond = 1 ∧ o.orient ≠ 0) ∨ (cond = 2 ∧ o.orient ≠ 1) ∨ (cond = 3 ∧ prev = false) then (r, false, 0)
  else
    let n := 2 ^ bitsOf 59 58 a
    let m := 2 ^ (8 * n)
    let dst := bitsOf 57 51 a
    let imm := bitsOf 31 0 a
    let old := beAt r dst n
    let src := (match bitsOf 50 49 a with
      | 0 => imm | 1 => pktValue c o (bitsOf 48 42 a) | _ => beAt r (bitsOf 48 42 a) n) % m
    let new := match op with
      | 1 => (old + src) % m | 2 => min (old + src) (m - 1) | 3 => old - src | 4 => Nat.land old src | 5 => Nat.lor old src
      | 6 => Nat.xor old src | 7 => src | 8 => max old src | _ => min old src
    let thr := imm % m
    let nt := bitsOf 39 38 a
    (putBe r dst n new, (nt == 1 && decide (thr ≤ new)) || (nt == 2 && decide (old < thr) && decide (thr ≤ new)), new)

/-! ### TCP state step (R280 to R283) -/

/-- Event of a flags byte: 0 RST, 1 SYN, 2 SYN+ACK, 3 FIN, 4 OTHER. -/
def tcpEvent (f : Nat) : Nat :=
  if bitOf 2 f then 0 else if bitOf 1 f && bitOf 4 f then 2 else if bitOf 1 f then 1 else if bitOf 0 f then 3 else 4

/-- Outcome of the table of R281: new state, RETRANS + 1, mark, estimate; none: invalid. `ini`: from the initiator. -/
def tcpMove (ts ev o : Nat) (ini pickup : Bool) : Option (Nat × Bool × Bool × Bool) :=
  let go (t : Nat) : Option (Nat × Bool × Bool × Bool) := some (t, false, false, false)
  let again (mark : Bool) : Option (Nat × Bool × Bool × Bool) := some (ts, true, mark, false)
  let fin := if o = 0 then 4 else 5
  if ev = 0 then go 8
  else match ts, ev with
    | 1, 1 => if ini then again false else none
    | 1, 2 => if ini then none else some (2, false, true, false)
    | 2, 1 => if ini then again false else none
    | 2, 2 => if ini then none else again true
    | 2, 3 => if ini then some (fin, false, false, true) else none
    | 2, 4 => if ini then some (3, false, false, true) else go 2
    | 3, 2 => if ini then none else again false
    | 3, 3 => go fin
    | 3, 4 => go 3
    | 4, 3 => if o = 0 then again false else go 6
    | 4, 4 => go 4
    | 5, 3 => if o = 1 then again false else go 6
    | 5, 4 => go 5
    | 6, 3 => again false
    | 6, 4 => go 7
    | 7, 1 => if ini then go 1 else none
    | 7, 3 => go 7
    | 7, 4 => go 7
    | 8, 1 => if ini then go 1 else none
    | 1, _ => none
    | 3, _ => none
    | 4, _ => none
    | 5, _ => none
    | 6, _ => none
    | 7, _ => none
    | 8, _ => none
    | _, 1 => if ini then go 1 else none
    | _, 3 => if pickup then go fin else none
    | _, 4 => if pickup then go 3 else none
    | _, _ => none

/-- The TCP step: record, verdict and whether it was invalid. -/
def tcpStep (c : Chip) (o : FOp) (r : Bytes) : Bytes × Nat × Bool :=
  if rProto r != 6 || !o.tcp then (r, 0, false)
  else match tcpMove (rTstate r) (tcpEvent o.tcpf) o.orient (o.orient == rOrigin r) (c.flag F.FLE_SVC_TCP.PICKUP) with
    | none =>
      let a := c.getF F.FLE_SVC_TCP.INVALID_ACT
      (r, if a = 3 then 1 else a, true)
    | some (ts, retr, mark, est) =>
      let now := (c.dt / 2 ^ 16 / 1000) % 65536
      let r1 := rPutState r 12 9 ts
      let r2 := if retr then putBe r1 108 2 (satAdd 16 (beAt r1 108 2) 1) else r1
      let r3 := if mark then putBe r2 102 2 now else r2
      let d := (now + 65536 - beAt r 102 2) % 65536
      let r4 := if est then
          putBe r3 102 2 (if decide (62 ≤ ftDiff c.ft (beAt r 48 4)) then 0xFFFF else max d 1)
        else r3
      (r4, 0, false)

/-! ### Meters (R284, R285, R432) -/

/-- meter() of R285 on a 48-byte entry: the entry, and the colour 0 green, 1 yellow, 2 red; big-endian fields. -/
def meterStep (m : Bytes) (len now : Nat) : Bytes × Nat :=
  let e := (now + 2 ^ 32 - beAt m 44 4 % 2 ^ 32) % 2 ^ 32
  let unit := 8 * 10 ^ 6
  let tc := min (beAt m 32 6 + e * beAt m 0 4) (beAt m 8 4 * unit)
  let tp := min (beAt m 38 6 + e * beAt m 4 4) (beAt m 12 4 * unit)
  let out (tc tp : Nat) : Bytes := putBe (putBe (putBe m 32 6 tc) 38 6 tp) 44 4 now
  let x := len * unit
  if tp < x then (out tc tp, 2) else if tc < x then (out tc (tp - x), 1) else (out (tc - x) (tp - x), 0)

/-- A configuration write of a meter (R284): full, or empty with RESET 1. -/
def meterWrite (cfg : Bytes) (now : Nat) : Bytes :=
  let unit := 8 * 10 ^ 6
  let empty := bitOf 4 (byteAt cfg 16)
  putBe (putBe (putBe (sliceB cfg 0 48) 32 6 (if empty then 0 else beAt cfg 8 4 * unit)) 38 6
    (if empty then 0 else beAt cfg 12 4 * unit)) 44 4 now

/-- MT's low 32 bits of integer ns. -/
def Chip.mt32 (c : Chip) : Nat := c.mt % 2 ^ 32

/-- The METER step of engine `e`: colour (3 none), verdict, chip. -/
def Chip.meterOf (c : Chip) (e : Nat) (o : FOp) (r : Bytes) : Nat × Nat × Chip :=
  let m := beAt r 54 2
  if m = 0xFFFF then (3, 0, c)
  else if 4096 ≤ m then (3, 0, c.bump F.FLE_CNT_METER_NONE.V e)
  else
    let k := 4096 * e + m
    match meterStep (smGet (fun _ => zerosB 48) c.flow.meters k) o.flen c.mt32 with
    | (x, col) =>
      let acts := byteAt x 16
      (col, if col = 1 then bitsOf 1 0 acts else if col = 2 then bitsOf 3 2 acts else 0,
        { c with flow := { c.flow with meters := smSet (fun _ => zerosB 48) c.flow.meters k x } })

/-! ### The steps of an op (R232) and its result (R238) -/

/-- What the steps give: the record, the verdict, the colour, the notify conditions and the last fired value. -/
structure StepOut where
  record : Bytes
  verdict : Nat
  colour : Nat
  fired : Nat
  value : Nat
  deriving DecidableEq, Repr

/-- STAMP, COUNT, TCP and TELEM and METER, then ALU0 to ALU3. -/
def Chip.runSteps (c : Chip) (e : Nat) (o : FOp) (r : Bytes) : StepOut × Chip :=
  let t := c.tpl o.tmpl
  let r := if tpStep t 0 then putBe r 44 4 c.ft else r
  let r := if tpStep t 1 then
      let r := putBe r (80 + 5 * o.orient) 5 (beAt r (80 + 5 * o.orient) 5 + 1)
      putBe r (90 + 6 * o.orient) 6 (beAt r (90 + 6 * o.orient) 6 + o.flen)
    else r
  match (if tpStep t 2 then tcpStep c o r else (r, 0, false)) with
  | (r, v, bad) =>
    let c := if bad then c.bump F.FLE_CNT_TCP_INVALID.V e else c
    let r := if tpStep t 3 then
        let r := putB r 110 [BitVec.ofNat 8 (Nat.lor (byteAt r 110) o.tcpf)]
        if o.ce then putBe r 111 1 (satAdd 8 (byteAt r 111) 1) else r
      else r
    match (if tpStep t 4 then c.meterOf e o r else (3, 0, c)) with
    | (col, mv, c1) =>
      let x := (List.range 4).foldl (fun (x : Bytes × Bool × Nat × Nat) i =>
        match aluStep c o x.1 (tpAlu t i) x.2.1 with
        | (r, fired, new) =>
          (r, fired, x.2.2.1 + b2n fired * 2 ^ i, if fired then new % 2 ^ 32 else x.2.2.2)) (r, false, 0, 0)
      (⟨x.1, severest v mv, col, x.2.2.1, x.2.2.2⟩, c1)

/-- A flow result from a record (R238, R265): REWRITE, LB and FLOWQ contributions of the template's steps. -/
def Chip.resultOf (c : Chip) (o : FOp) (status verdict colour : Nat) (r : Bytes) : Bytes :=
  let t := c.tpl o.tmpl
  let nat := rNatMode r
  let kind := if tpStep t 5 && o.orient == rOrigin r && (nat == 1 || nat == 2) then nat else 0
  let xf := rXflags r
  let addr := kind != 0 && bitOf 0 xf
  let port := kind != 0 && bitOf 1 xf
  let hair := kind != 0 && bitOf 2 xf
  let lb := tpStep t 6 && rLb r
  let fq := tpStep t 7 && rFlowq r
  let recirc := hair || (tpRegion t != 0xFF && (tpRecircOn t == 1 || (tpRecircOn t == 2 && kind == 2)))
  natBe 1 (status + 8 * o.orient + 16 * b2n recirc) ++ natBe 1 (verdict + 4 * colour + 16 * rTstate r)
    ++ natBe 1 (kind + 4 * b2n addr + 8 * b2n port + 16 * b2n hair + 32 * b2n lb + 64 * b2n fq) ++ natBe 1 o.tmpl
    ++ (if kind = 0 then zerosB 18 else sliceB r 56 18) ++ zerosB 2
    ++ (if lb then sliceB r 76 4 else zerosB 4) ++ (if fq then natBe 4 (rHandle r) else zerosB 4)

/-- A flow result without a record: ABSENT, MISS_FB, SETUP_FB, ERROR or NOT_OWNER. -/
def plainResult (o : FOp) (status verdict : Nat) : Bytes :=
  natBe 1 (status + 8 * o.orient) ++ natBe 1 (verdict + 12) ++ zerosB 1 ++ natBe 1 o.tmpl ++ zerosB 28

/-- The verdict code of a template action: 0 forward, 1 drop, 2 punt. -/
def actVerdict (a : Nat) : Nat := if a = 3 then 0 else a

end Sys2Proof.Machine
end

