-- ==== Sys2Proof/Machine/FlowEng.lean ====
section
/-! DEFINITION. The flow engines (R235 to R261, R291, R292): ops, misses, inserts, setups, held writes and write-set ops.
What an engine hands to packets, contexts, work classes, telemetry, the traffic manager and gang peers is collected in the
outbox fields of `FlowSt`, which the command that runs the engine empties at once. -/
namespace Sys2Proof.Machine
open Sys2Proof

/-! ### Outbox -/

/-- The chip with the flow block changed. -/
def Chip.onFlow (c : Chip) (f : FlowSt → FlowSt) : Chip := { c with flow := f c.flow }

/-- A flow result leaves for its packet or peer (R238). -/
def Chip.sendResult (c : Chip) (o : FOp) (r : Bytes) : Chip := c.onFlow fun x => { x with results := x.results ++ [(o, r)] }

/-- An answer leaves for a context, a window or a peer. -/
def Chip.sendAnswer (c : Chip) (o : FOp) (code : Nat) (data : Bytes) : Chip :=
  c.onFlow fun x => { x with answers := x.answers ++ [⟨o, code, data⟩] }

/-- An item offered once to a work class; 0xFF: none. -/
def Chip.sendOffer (c : Chip) (e cls : Nat) (item att : Bytes) : Chip :=
  if cls = 0xFF then c else c.onFlow fun x => { x with offers := x.offers ++ [(e, cls, item, att)] }

/-- A handle is to be unbound (R406). -/
def Chip.sendUnbind (c : Chip) (old : Bytes) : Chip :=
  if rFlowq old then c.onFlow fun x => { x with unbinds := x.unbinds ++ [rHandle old] } else c

/-- A record goes to the partner (R532): created, deleted or changed outside SEEN and COUNTS. -/
def Chip.sendRepl (c : Chip) (r : Bytes) (del : Bool) : Chip :=
  if tpReplicate (c.tpl (rTemplate r)) && !rReplica r then c.onFlow fun x => { x with repl := x.repl ++ [(r, del)] } else c

/-- A committed write or deletion of a record of a slot being given also goes to its receiver (R525). -/
def Chip.sendMigr (c : Chip) (r : Bytes) (del : Bool) : Chip :=
  if c.gang.migrating.contains (hSlot (c.h1Of (rKey r))) then c.onFlow fun x => { x with migr := x.migr ++ [(r, del)] } else c

/-- A committed write replaces a record. -/
def Chip.recChanged (c : Chip) (old new : Bytes) : Chip :=
  let c := c.sendMigr new false
  let c := if rFlowq new && rHandle new == rHandle old then c else c.sendUnbind old
  if (groupsChanged old new).any (fun g => g != 8 && g != 10) then c.sendRepl new false else c

/-- End reason of a deletion (R483): closed and reset flows 3, HDEL 4, eviction 5, aging 1. (log entry 91 DEDUCED.) -/
def endReason (cause : Nat) (r : Bytes) : Nat :=
  if cause = 4 then 4 else if rTstate r = 7 ∨ rTstate r = 8 then 3 else cause

/-- A record is deleted (R256, R406, R485, R532). `cause` 1 aging or APPLY, 4 HDEL, 5 eviction, 0 recovery. -/
def Chip.recGone (c : Chip) (r : Bytes) (cause : Nat) : Chip :=
  let c := ((c.sendUnbind r).sendRepl r true).sendMigr r true
  if cause = 0 || !rExport r then c else c.onFlow fun x => { x with exports := x.exports ++ [(endReason cause r, r)] }

/-! ### Items (R333, R334) -/

/-- The own device number, 0 outside a gang. -/
def Chip.ownDevice (c : Chip) : Nat := if c.getF F.GNG_STATUS.STATE = 0 then 0 else c.getF F.GNG_STATUS.DEVICE

/-- Device that holds the packet of an op. -/
def Chip.opDevice (c : Chip) (o : FOp) : Nat := if o.kind = 1 then o.src else c.ownDevice

/-- A SETUP item (R333). -/
def Chip.setupItem (c : Chip) (o : FOp) (tag : Nat) : Bytes :=
  natBe 1 (0x10 + 8 * o.orient + 4 * b2n o.ce + o.pass % 4) ++ natBe 1 (4 * o.tmpl + c.opDevice o % 4)
    ++ natBe 2 (o.port * 128 + o.cls * 8) ++ natBe 1 o.tcpf ++ natBe 1 tag ++ natBe 2 o.ver ++ o.key ++ natBe 4 o.h2
    ++ natBe 4 o.h1 ++ natBe 4 o.iseq ++ natBe 4 (o.flen * 2 ^ 18 + o.pend % 2 ^ 18)

/-- A NOTIFY item (R334). -/
def Chip.notifyItem (c : Chip) (o : FOp) (fired value : Nat) : Bytes :=
  natBe 1 (0x20 + 8 * o.orient) ++ natBe 1 (4 * o.tmpl + c.opDevice o % 4) ++ natBe 1 fired ++ [0] ++ natBe 4 c.ft ++ o.key
    ++ natBe 4 o.h2 ++ natBe 4 o.h1 ++ natBe 4 value ++ zerosB 4

/-- An EVICT item (R334); the record is its attachment. -/
def Chip.evictItem (c : Chip) (r : Bytes) : Bytes :=
  [0x30] ++ natBe 1 (4 * rTemplate r + c.ownDevice % 4) ++ zerosB 2 ++ natBe 4 c.ft ++ rKey r ++ natBe 4 (c.h2Of (rKey r))
    ++ natBe 4 (c.h1Of (rKey r)) ++ zerosB 8

/-! ### Key states (R244, R245, R251) -/

/-- The chip with an engine's state changed. -/
def Chip.onEng (c : Chip) (e : Nat) (f : EngSt → EngSt) : Chip := c.setEng e (f (c.eng e))

/-- The key is in LOOKUP. -/
def EngSt.looking (s : EngSt) (key : Bytes) : Option FLookup := s.lookups.find? (fun l => l.key == key)
/-- The key is in SETUP. -/
def EngSt.setting (s : EngSt) (key : Bytes) : Option FSetup := s.setups.find? (fun x => x.op.key == key && x.st < 2)
/-- Station entries in use: waiting ops but for those that hold a miss-queue entry or a setup (R244). -/
def EngSt.occ (s : EngSt) : Nat :=
  s.station.length - ((s.lookups.filter (fun l => l.owner && l.st != 0)).length
    + (s.setups.filter (fun x => x.st < 2 && !x.answered)).length)
/-- Miss-queue entries in use. -/
def EngSt.missUsed (s : EngSt) : Nat := (s.lookups.filter (fun l => l.st != 0)).length
/-- Insert-queue entries in use (R248): inserts whose writes to DRAM wait for a tail. -/
def EngSt.insUsed (s : EngSt) : Nat := (s.helds.filter (fun h => h.insert)).length
/-- Setup-queue items in use. -/
def EngSt.setupUsed (s : EngSt) : Nat := (s.setups.filter (fun x => x.st = 0)).length

/-- An op on the key must wait: LOOKUP, SETUP or HELD (R245, R240), or its slot's SLOT_FINAL is awaited (R525). -/
def Chip.keyBlocked (c : Chip) (e : Nat) (key : Bytes) (h1 : Nat) : Bool :=
  ((c.eng e).looking key).isSome || ((c.eng e).setting key).isSome || c.gang.awaitFinal.contains (hSlot h1)
    || (match c.wayOf e key h1 with | some i => (c.way e i).held | none => false)

/-- PKT and RMT ops take results and fallbacks. -/
def FOp.isPkt (o : FOp) : Bool := o.kind == 0 || o.kind == 1

/-- Slots reserved by held inserts and prepared creates. -/
def EngSt.reserved (s : EngSt) : List (Nat × Nat) :=
  (s.helds.filter (fun h => h.insert)).map (fun h => (h.bucket, h.slot))
    ++ (s.preps.filter (fun p => p.op.mode == 2 || p.op.mode == 4)).map (fun p => (p.bucket, p.slot))

/-! ### Results and fallbacks (R238, R253) -/

/-- A result without a record: 3 ABSENT, 4 MISS_FB, 5 SETUP_FB, 6 ERROR. -/
def Chip.fallback (c : Chip) (e : Nat) (o : FOp) (status : Nat) : Chip :=
  let t := c.tpl o.tmpl
  match status with
  | 3 => c.sendResult o (plainResult o 3 (actVerdict (tpAbsentAct t)))
  | 4 => ((c.bump F.FLE_TPL_MISS_FB.V e o.tmpl).signal 4 e 12).sendResult o (plainResult o 4 (actVerdict (tpMissFb t)))
  | 5 => ((c.bump F.FLE_TPL_SETUP_FB.V e o.tmpl).signal 4 e 13).sendResult o (plainResult o 5 (actVerdict (tpSetupFb t)))
  | _ => (c.bumpQ 48 F.FLE_CNT_ERR_DROP.V e).sendResult o (plainResult o 6 1)

/-- A refusal of R255: 1 KEY_CHANGE, 2 FIELD_DENIED, 3 ABSENT, 4 EXISTS, 5 FULL, 6 TAIL_BAD. -/
def Chip.refuseOp (c : Chip) (e : Nat) (o : FOp) (reason : Nat) : Chip :=
  let c := (c.putF F.FLE_LAST_REFUSED.REASON reason e).putF F.FLE_LAST_REFUSED.KIND
    (if o.kind = 7 then 1 else if o.kind = 6 then 2 else 0) e
  let c := c.putF F.FLE_LAST_REFUSED.CONTEXT (if o.kind = 3 then o.src % 1024 else 0) e
  ((c.bumpQ 48 F.FLE_CNT_REFUSED.V e).raise F.FLE_EVENTS.REFUSED_WRITE e).sendAnswer o reason []

/-- A notify item for fired ALU steps (R233). -/
def Chip.notify (c : Chip) (e : Nat) (o : FOp) (fired value : Nat) : Chip :=
  if fired = 0 then c else c.sendOffer e (tpNotifyClass (c.tpl o.tmpl)) (c.notifyItem o fired value) []

/-- A write commits to a way (R242): the way becomes dirty. -/
def Chip.commitWay (c : Chip) (e i : Nat) (o : FOp) (new : Bytes) (fired value : Nat) : Chip :=
  let w := c.way e i
  (((c.setWay e i { w with record := new, dirty := true, held := false }).recChanged w.record new).notify e o fired value)

/-- A hardware insert's record goes to DRAM; its way is clean (R248). -/
def Chip.commitInsert (c : Chip) (e i b j : Nat) (o : FOp) (new : Bytes) (fired value : Nat) : Chip :=
  let c := (c.storeRec e b j new).setWay e i { c.way e i with record := new, dirty := false, held := false }
  ((c.sendRepl new false).sendMigr new false).notify e o fired value

/-- A write is held until its tail is known (R242). -/
def Chip.holdWrite (c : Chip) (e i : Nat) (o : FOp) (x : StepOut) (ins : Bool) (b j : Nat) : Chip :=
  let c := (c.setWay e i { c.way e i with held := true }).onEng e fun s =>
    { s with helds := s.helds ++ [⟨o, i, x.record, x.fired, x.value, ins, b, j⟩] }
  (c.bumpQ 48 F.FLE_CNT_HELD.V e).signal 4 e 9

/-! ### Ops on a cached record -/

/-- A PKT or RMT op on a record that is cached and not HELD (R239, R242); false: it waits for the held-write table. -/
def Chip.packetHit (c : Chip) (e i : Nat) (o : FOp) : Chip × Bool :=
  if o.tail = 0 ∧ 512 ≤ (c.eng e).helds.length then (c, false)
  else
    let b := c.wayBucket (c.way e i)
    let j := (c.way e i).bslot
    let c := ((c.bumpQ 48 F.FLE_CNT_HIT.V e).bumpQ 48 F.FLE_TPL_HIT.V e o.tmpl).signal 4 e 2
    let c := c.touch e i
    match c.runSteps e o (c.way e i).record with
    | (x, c) =>
      let c := c.sendResult o (c.resultOf o 0 x.verdict x.colour x.record)
      (match o.tail with
       | 0 => c.holdWrite e i o x false b j
       | 1 => c.commitWay e i o x.record x.fired x.value
       | _ => (c.bumpQ 48 F.FLE_CNT_DISCARD.V e).signal 4 e 10, true)

/-- A change is prepared on a way (R254). -/
def Chip.prepare (c : Chip) (e i : Nat) (o : FOp) (b j : Nat) (victim : Bool) : Chip :=
  ((c.setWay e i { c.way e i with held := true }).onEng e fun s => { s with preps := s.preps ++ [⟨o, i, b, j, victim⟩] }).sendAnswer
    o 0 []

/-- A PREP, an RD or a host op on a record that is cached and not HELD (R254 to R257). -/
def Chip.otherHit (c : Chip) (e i : Nat) (o : FOp) : Chip :=
  let w := c.way e i
  match o.kind with
  | 2 => (c.touch e i).sendAnswer o 0 w.record
  | 5 => c.sendAnswer o 0 w.record
  | 6 => (((c.clearTag e (c.wayBucket w) w.bslot).emptyWay e i).recGone w.record 4).sendAnswer o 0 []
  | 7 => c.refuseOp e o 4
  | _ =>
    if o.mode = 2 ∨ o.mode = 4 then c.refuseOp e o 4
    else if o.mode = 1 ∧ sliceB o.data 0 40 ≠ rKey w.record then c.refuseOp e o 1
    else if !permitted o.mode o.mask w.record o.data then c.refuseOp e o 2
    else (c.touch e i).prepare e i o (c.wayBucket w) w.bslot false

/-! ### Placement (R222, R250) -/

/-- What table_lookup finds (R221). -/
inductive TLook where
  | found (b j : Nat)
  | other (b j : Nat)
  | absent
  deriving DecidableEq, Repr

/-- table_lookup of R221 on the table as the engine has written it. -/
def Chip.tableLookup (c : Chip) (e : Nat) (key : Bytes) (h1 h2 : Nat) : TLook :=
  match c.tagHit e h1 h2 with
  | none => .absent
  | some (b, j) => if rKey (c.slotRec e b j) == key then .found b j else .other b j

/-- The free slots of a bucket, lowest first. -/
def Chip.freeSlots (c : Chip) (e b : Nat) : List Nat :=
  (List.range 8).filter (fun j => !tagValid (c.tag e b j) && !(c.eng e).reserved.contains (b, j))

/-- The slot of a new record (R222): none FULL. -/
def Chip.tablePlace (c : Chip) (e h1 h2 : Nat) : Option (Nat × Nat) :=
  let b := c.flowBuckets h1 h2
  let f1 := c.freeSlots e b.1
  let f2 := if b.2 = b.1 then [] else c.freeSlots e b.2
  if f1.length < f2.length then f2.head?.map (fun j => (b.2, j)) else f1.head?.map (fun j => (b.1, j))

/-- Eviction rank of an AGE_CLASS. -/
def Chip.evictRank (c : Chip) (e k : Nat) : Nat := bitsOf 3 0 (c.getQ F.FLE_EVICT_RANK.V e / 2 ^ (4 * k))

/-- The way that holds the committed record of a slot; a way reserved by a prepared create holds none. -/
def Chip.wayOfSlot (c : Chip) (e b j : Nat) : Option Nat :=
  (setWays (tagSet (c.tag e b j))).find? (fun i =>
    (c.way e i).full && (c.way e i).bslot == j && c.wayBucket (c.way e i) == b
      && !(c.eng e).preps.any (fun p => p.way == i && (p.op.mode == 2 || p.op.mode == 4)))

/-- victim of R250. -/
def Chip.victim (c : Chip) (e h1 h2 : Nat) (aliased : Option (Nat × Nat)) : Option (Nat × Nat) :=
  let cand := match aliased with | some x => [x] | none => c.pairSlots h1 h2
  (cand.foldl (fun (best : Option (Nat × Nat × Nat)) x =>
    let t := c.tag e x.1 x.2
    let r := c.evictRank e (tagAge t)
    let held := match c.wayOfSlot e x.1 x.2 with | some i => (c.way e i).held | none => false
    if tagPin t || tagReplica t || r == 0 || held then best
    else match best with
      | some b => if b.2.2 < r then some (x.1, x.2, r) else best
      | none => some (x.1, x.2, r)) none).map (fun b => (b.1, b.2.1))

/-- The record of a slot as last committed: from its way or from DRAM. -/
def Chip.committed (c : Chip) (e b j : Nat) : Bytes :=
  match c.wayOfSlot e b j with | some i => (c.way e i).record | none => c.slotRec e b j

/-- A victim is deleted for overflow (R250), with its notice. -/
def Chip.evictSlot (c : Chip) (e tmpl b j : Nat) : Chip :=
  let r := c.committed e b j
  let c := c.sendOffer e (tpEvictClass (c.tpl tmpl)) (c.evictItem r) r
  let c := match c.wayOfSlot e b j with | some i => c.emptyWay e i | none => c
  let c := ((c.clearTag e b j).recGone r 5).bumpQ 48 F.FLE_CNT_EVICT.V e
  (c.bump F.FLE_TPL_OVERFLOW.EVICT e tmpl).signal 4 e 8

/-- A placement's slot: taken, or freed by the victim at `some`; none: refused. -/
inductive Place where
  | free (b j : Nat)
  | evict (b j : Nat)
  | refused
  deriving DecidableEq, Repr

/-- The slot a new record may take, with the template's OVERFLOW (R250). -/
def Chip.findPlace (c : Chip) (e : Nat) (o : FOp) (mayEvict : Bool) : Place :=
  let ev (al : Option (Nat × Nat)) : Place :=
    if mayEvict then (match c.victim e o.h1 o.h2 al with | some (b, j) => .evict b j | none => .refused) else .refused
  match c.tagHit e o.h1 o.h2 with
  | some x => ev (some x)
  | none => match c.tablePlace e o.h1 o.h2 with
    | some (b, j) => .free b j
    | none => ev none

/-- Counts of a placement that meets an alias (R222). -/
def Chip.countAlias (c : Chip) (e : Nat) (o : FOp) : Chip :=
  if (c.tagHit e o.h1 o.h2).isSome then (c.bumpQ 48 F.FLE_CNT_ALIAS.V e).raise F.FLE_EVENTS.ALIAS e else c

/-- Counts of a refused placement (R250). -/
def Chip.countRefuse (c : Chip) (e tmpl : Nat) : Chip :=
  (c.bump F.FLE_TPL_OVERFLOW.REFUSE e tmpl).raise F.FLE_EVENTS.OVERFLOW e

/-- The record of a hardware insert before its steps (R248). -/
def Chip.newRecord (c : Chip) (o : FOp) : Bytes :=
  let t := c.tpl o.tmpl
  o.key ++ natBe 2 (2 ^ 15 + 2 ^ 14 * b2n (tpPinNew t) + 2 ^ 13 * o.orient + 2 ^ 5 * b2n (tpExportNew t) + tpAgeNew t)
    ++ natBe 1 o.tmpl ++ natBe 1 (c.ownDevice % 4) ++ natBe 4 c.ft ++ natBe 4 c.ft ++ natBe 2 o.ver ++ natBe 2 0xFFFF
    ++ zerosB 72

/-- How a creating op fares. -/
inductive Create where
  | done
  | wait
  | refused
  deriving DecidableEq, Repr

/-- Hardware insert (R248). (log entry 91 DEDUCED.) -/
def Chip.hwInsert (c : Chip) (e : Nat) (o : FOp) : Chip × Create :=
  match c.cacheWay e (hSet o.h1) with
  | none => (c, .wait)
  | some i =>
    if 64 ≤ (c.eng e).insUsed ∨ (o.tail = 0 ∧ 512 ≤ (c.eng e).helds.length) then (c, .wait)
    else
      let go (c : Chip) (b j : Nat) : Chip × Create :=
        match c.runSteps e o (c.newRecord o) with
        | (x, c) =>
          let c := (c.fillWay e i b j false false x.record).sendResult o (c.resultOf o 1 x.verdict x.colour x.record)
          let c := ((c.bumpQ 48 F.FLE_CNT_INSERT.V e).bump F.FLE_TPL_CREATE.V e o.tmpl).signal 4 e 6
          (match o.tail with
           | 0 => c.holdWrite e i o x true b j
           | 1 => c.commitInsert e i b j o x.record x.fired x.value
           | _ => ((c.emptyWay e i).bumpQ 48 F.FLE_CNT_DISCARD.V e).signal 4 e 10, .done)
      match c.findPlace e o (tpEvict (c.tpl o.tmpl)) with
      | .free b j => go c b j
      | .evict b j => go ((c.countAlias e o).evictSlot e o.tmpl b j) b j
      | .refused => ((c.countAlias e o).countRefuse e o.tmpl, .refused)

/-- A create of a write set on an absent key (R254, R255): its way and slot are reserved and HELD. -/
def Chip.prepCreate (c : Chip) (e : Nat) (o : FOp) : Chip × Create :=
  if !permitted 2 o.mask (zerosB 128) o.data then (c.refuseOp e o 2, .refused)
  else match c.cacheWay e (hSet o.h1) with
    | none => (c, .wait)
    | some i =>
      let go (c : Chip) (b j : Nat) (v : Bool) : Chip × Create :=
        ((c.fillWay e i b j true false (putB o.data 0 o.key)).prepare e i o b j v, .done)
      let t := rTemplate o.data
      match c.findPlace e o (tpEvict (c.tpl t)) with
      | .free b j => go c b j false
      | .evict b j => go (c.countAlias e o) b j true
      | .refused => (((c.countAlias e o).countRefuse e t).refuseOp e o 5, .refused)

/-! ### The absent key (R247, R249) -/

/-- An op meets its template's INSERT_ON (R231). -/
def insertOn (t : Bytes) (o : FOp) : Bool :=
  tpInsertOn t == 0 || (o.tcp && bitOf 1 o.tcpf && !bitOf 4 o.tcpf)

/-- The first waiting op of a key. -/
def EngSt.firstOf (s : EngSt) (key : Bytes) : Option FOp := s.station.find? (fun o => o.key == key)

/-- The chip with an op out of the station. -/
def Chip.leave (c : Chip) (e : Nat) (o : FOp) : Chip := c.onEng e fun s =>
  let first := s.firstOf o.key == some o
  { s with
    station := s.station.erase o
    lookups := s.lookups.map (fun l => if first && l.key == o.key then { l with owner := false } else l)
    setups := s.setups.map (fun x => if first && x.op == o then { x with answered := true } else x) }

/-- The key leaves LOOKUP. -/
def Chip.endLookup (c : Chip) (e : Nat) (key : Bytes) : Chip :=
  c.onEng e fun s => { s with lookups := s.lookups.filter (fun l => l.key != key) }

/-- The lowest free setup tag. -/
def EngSt.freeTag (s : EngSt) : Option Nat :=
  if s.setups.length < 256 then (List.range 256).find? (fun t => s.setups.all (fun x => x.tag != t)) else none

/-- An RD or a host op on a record that is not cached: served from DRAM, no way filled (R256, R257).
(log entry 91 DEDUCED.) -/
def Chip.tableOp (c : Chip) (e : Nat) (o : FOp) : Chip :=
  match o.kind, c.tableLookup e o.key o.h1 o.h2 with
  | 7, .found _ _ => c.refuseOp e o 4
  | 7, _ =>
    let r := putBe (sliceB o.data 0 128) 40 2 (setBitsOf 15 15 (rState o.data) 1)
    if rKey r ≠ o.key then c.refuseOp e o 1
    else if !permitted 2 o.mask (zerosB 128) r then c.refuseOp e o 2
    else match c.findPlace e o false with
      | .free b j => (((c.storeRec e b j r).sendRepl r false).sendMigr r false).sendAnswer o 0 []
      | _ => (c.countAlias e o).refuseOp e o 5
  | 6, .found b j =>
    let r := c.slotRec e b j
    ((c.clearTag e b j).recGone r 4).sendAnswer o 0 []
  | 6, _ => c.refuseOp e o 3
  | _, .found b j => c.sendAnswer o 0 (c.slotRec e b j)
  | _, _ => c.sendAnswer o 3 []

/-- An op on a key without a record, other than PKT, RMT and a create (R255 to R257). -/
def Chip.otherAbsent (c : Chip) (e : Nat) (o : FOp) : Chip :=
  if o.kind = 7 then c.tableOp e o else if o.kind = 3 ∨ o.kind = 6 then c.refuseOp e o 3 else c.sendAnswer o 3 []

/-- One waiting op of an absent key: true when the next one is to be taken. After a HINS that made the record, the ops behind
it replay. -/
def Chip.absentOne (c : Chip) (e : Nat) (o : FOp) : Chip × Bool :=
  let t := c.tpl o.tmpl
  let parked (c : Chip) : Chip := c.onEng e fun s =>
    { s with lookups := s.lookups.map (fun l => if l.key == o.key then { l with st := 4, owner := true } else l) }
  if o.kind = 3 ∧ (o.mode = 2 ∨ o.mode = 4) then
    match c.prepCreate e o with
    | (c, .wait) => (parked c, false)
    | (c, .done) => ((c.leave e o).endLookup e o.key, false)
    | (c, .refused) => (c.leave e o, true)
  else if !o.isPkt then
    let c := (c.leave e o).otherAbsent e o
    match c.tableLookup e o.key o.h1 o.h2 with
    | .found _ _ => (c.endLookup e o.key, false)
    | _ => (c, true)
  else if tpMode t = 0 || !insertOn t o then ((c.leave e o).fallback e o 3, true)
  else if tpMode t = 1 then
    match c.hwInsert e o with
    | (c, .wait) => (parked c, false)
    | (c, .done) => ((c.leave e o).endLookup e o.key, false)
    | (c, .refused) => ((c.leave e o).fallback e o 5, true)
  else match (c.eng e).freeTag with
    | none => ((c.leave e o).fallback e o 5, true)
    | some k =>
      let c := (c.endLookup e o.key).onEng e fun s => { s with setups := s.setups ++ [⟨k, o, 0, c.mt, false⟩] }
      ((c.bumpQ 48 F.FLE_CNT_SETUP.V e).signal 4 e 7, false)

/-- The waiting ops of an absent key in arrival order. -/
def Chip.absentOps (c : Chip) (e : Nat) (key : Bytes) : Nat → Chip
  | 0 => c.endLookup e key
  | n + 1 => match (c.eng e).firstOf key with
    | none => c.endLookup e key
    | some o => match c.absentOne e o with
      | (c, true) => c.absentOps e key n
      | (c, false) => c

/-- The ABSENT decision of a key. -/
def Chip.absentKey (c : Chip) (e : Nat) (key : Bytes) : Chip := c.absentOps e key ((c.eng e).station.length + 1)

/-! ### Arrival of an op -/

/-- A REPL op (R533): never fills a way; a cached copy takes the value. -/
def Chip.replOp (c : Chip) (e : Nat) (o : FOp) : Chip :=
  let r := putB (sliceB o.data 0 128) 43 [BitVec.ofNat 8 (setBitsOf 2 2 (byteAt o.data 43) 1)]
  let slot := match c.tableLookup e o.key o.h1 o.h2 with | .found b j => some (b, j) | _ => none
  let c := match c.wayOf e o.key o.h1 with | some i => c.emptyWay e i | none => c
  if o.mode = 3 then (match slot with | some (b, j) => c.clearTag e b j | none => c)
  else match slot with
    | some (b, j) => c.storeRec e b j r
    | none => match c.findPlace e o false with
      | .free b j => c.storeRec e b j r
      | _ => (c.countAlias e o).bump F.GNG_PEER_CNT_REPL_FULL.V o.src

/-- A lookup starts (R244). -/
def Chip.startLookup (c : Chip) (e : Nat) (o : FOp) : Chip :=
  let granted := (c.eng e).missUsed < 512
  let c := c.onEng e fun s => { s with lookups := s.lookups ++ [⟨o.key, o.h1, o.h2, b2n granted, 0, 0, true⟩] }
  if granted then (c.bumpQ 48 F.FLE_CNT_MISS.V e).signal 4 e 3 else c

/-- The setup PREP of a key in SETUP (R249): none when its creating packet's tail is not known yet. -/
def Chip.setupPrep (c : Chip) (e : Nat) (o : FOp) (x : FSetup) : Chip × Bool :=
  match x.op.tail with
  | 0 => (c, false)
  | 1 => (match c.prepCreate e o with
    | (c, .wait) => (c, false)
    | (c, _) => (c, true))
  | _ => (c.refuseOp e o 6, true)

/-- An op is tried; false: it waits. -/
def Chip.tryOp (c : Chip) (e : Nat) (o : FOp) : Chip × Bool :=
  match (if o.kind = 3 ∧ o.mode = 4 then (c.eng e).setting o.key else none) with
  | some x => c.setupPrep e o x
  | none =>
    if o.kind = 8 then (c.replOp e o, true)
    else if c.keyBlocked e o.key o.h1 then (c, false)
    else match c.wayOf e o.key o.h1 with
      | some i => if o.isPkt then c.packetHit e i o else (c.otherHit e i o, true)
      | none => if o.kind = 0 ∨ o.kind = 1 ∨ o.kind = 3 then (c.startLookup e o, false) else (c.tableOp e o, true)

/-- An op arrives at an engine that serves it (R239 to R245, R251). -/
def Chip.arrive (c : Chip) (e : Nat) (o : FOp) : Chip :=
  match c.tryOp e o with
  | (c1, true) => c1
  | (c1, false) =>
    let c2 := c1.onEng e fun s => { s with station := s.station ++ [o] }
    if 4096 < (c2.eng e).occ then
      let c := (c.bumpQ 48 F.FLE_CNT_STATION_FULL.V e).raise F.FLE_EVENTS.STATION_FULL e
      if o.isPkt then c.fallback e o 4 else c.sendAnswer o 7 []
    else
      let c3 := if (c.eng e).occ < (c2.eng e).occ then (c2.bumpQ 48 F.FLE_CNT_STATION.V e).signal 4 e 11 else c2
      if o.isPkt then c3.bumpQ 48 F.FLE_TPL_MISS.V e o.tmpl else c3

/-! ### Errors (R259, R260) -/

/-- An uncorrectable error of a way (R259). -/
def Chip.wayBroken (c : Chip) (e i : Nat) : Chip :=
  let w := c.way e i
  let c := c.raise F.FLE_EVENTS.CACHE_UNCORR e
  match (c.eng e).helds.find? (fun h => h.way == i) with
  | some h =>
    let c := c.onEng e fun s => { s with helds := s.helds.filter (fun x => x.way != i) }
    let c := ((c.bumpQ 48 F.FLE_CNT_DISCARD.V e).signal 4 e 10).emptyWay e i
    if h.insert then c else (c.clearTag e h.bucket h.slot).recGone w.record 0
  | none =>
    if w.dirty then ((c.emptyWay e i).clearTag e (c.wayBucket w) w.bslot).recGone w.record 0 else c.emptyWay e i

/-- A read of the way of a key meets an error: 1 corrected, 2 uncorrectable. True: the way was lost. -/
def Chip.readWay (c : Chip) (e : Nat) (key : Bytes) (h1 ecc : Nat) : Chip × Bool :=
  match c.wayOf e key h1 with
  | none => (c, false)
  | some i =>
    if ecc = 1 then ((c.bumpQ 48 F.FLE_CNT_CACHE_CORR.V e).raise F.FLE_EVENTS.CACHE_CORR e, false)
    else if ecc = 2 then (c.wayBroken e i, true)
    else (c, false)

/-- An op arrives and its read of the way meets `ecc` (R259). -/
def Chip.arriveEcc (c : Chip) (e : Nat) (o : FOp) (ecc : Nat) : Chip :=
  match c.readWay e o.key o.h1 ecc with
  | (c, true) => if o.isPkt then c.fallback e o 6 else c.otherAbsent e o
  | (c, false) => c.arrive e o

/-! ### Miss path (R244, R246, R260) -/

/-- The lookup of a key changed. -/
def Chip.onLookup (c : Chip) (e : Nat) (key : Bytes) (f : FLookup → FLookup) : Chip :=
  c.onEng e fun s => { s with lookups := s.lookups.map (fun l => if l.key == key then f l else l) }

/-- MISS_QUEUE_GRANT: the oldest waiting lookup takes a freed entry. -/
def Chip.missGrant (c : Chip) (e : Nat) : Chip :=
  if 512 ≤ (c.eng e).missUsed then c
  else match (c.eng e).lookups.find? (fun l => l.st = 0) with
    | some l => ((c.onLookup e l.key fun l => { l with st := 1 }).bumpQ 48 F.FLE_CNT_MISS.V e).signal 4 e 3
    | none => c

/-- A REQ0 read is uncorrectable (R260). -/
def Chip.lookupError (c : Chip) (e : Nat) (key : Bytes) : Chip :=
  let ops := (c.eng e).station.filter (fun o => o.key == key)
  let c := (c.onEng e fun s => { s with station := s.station.filter (fun o => o.key != key) }).endLookup e key
  let c := c.raise F.FLE_EVENTS.DRAM_ERR e
  ops.foldl (fun c o => if o.isPkt then c.fallback e o 6 else c.sendAnswer o 8 []) c

/-- TAG_LINES_ARRIVED: the `i`-th lookup whose tag lines are read. -/
def Chip.tagsArrived (c : Chip) (e i : Nat) (err : Bool) : Chip :=
  match (c.eng e).lookups[i]? with
  | none => c
  | some l =>
    if l.st ≠ 1 then c
    else if err then c.lookupError e l.key
    else match c.tagHit e l.h1 l.h2 with
      | some (b, j) => c.onLookup e l.key fun l => { l with st := 2, bucket := b, slot := j }
      | none => c.absentKey e l.key

/-- A found record enters a way (R244); with none free the lookup keeps it. -/
def Chip.fillLookup (c : Chip) (e : Nat) (l : FLookup) : Chip :=
  match c.cacheWay e (hSet l.h1) with
  | none => c.onLookup e l.key fun l => { l with st := 3 }
  | some i =>
    let r := c.slotRec e l.bucket l.slot
    (((c.fillWay e i l.bucket l.slot false false r).endLookup e l.key).bumpQ 48 F.FLE_CNT_FILL.V e).signal 4 e 4

/-- RECORD_FILL: the record of the `i`-th lookup arrives; `ecc` 2: the victim's way is uncorrectable. -/
def Chip.recordFill (c : Chip) (e i : Nat) (err : Bool) (ecc : Nat) : Chip :=
  match (c.eng e).lookups[i]? with
  | none => c
  | some l =>
    if l.st ≠ 2 then c
    else if err then c.lookupError e l.key
    else
      let c := match c.cacheWay e (hSet l.h1) with
        | some w => if (c.way e w).full && ecc == 2 then c.wayBroken e w else c
        | none => c
      let t := c.tag e l.bucket l.slot
      if !tagMatches t l.h1 l.h2 || rKey (c.slotRec e l.bucket l.slot) != l.key then c.absentKey e l.key
      else c.fillLookup e l

/-- What a lookup waits for is there: a way of its set, and an insert-queue entry where a packet's insert needs one. -/
def Chip.canPlace (c : Chip) (e : Nat) (l : FLookup) : Bool :=
  (c.cacheWay e (hSet l.h1)).isSome && (l.st == 3 || decide ((c.eng e).insUsed < 64)
    || (match (c.eng e).firstOf l.key with | some o => !o.isPkt | none => true))

/-- WAY_AVAILABLE: the first lookup that waits for a way of a set with a free one, or for the insert queue. -/
def Chip.wayAvailable (c : Chip) (e : Nat) : Chip :=
  match (c.eng e).lookups.find? (fun l => 3 ≤ l.st && c.canPlace e l) with
  | none => c
  | some l => if l.st = 3 then c.fillLookup e l else c.absentKey e l.key

/-- A waiting op may be replayed now (R243, R246, R249). -/
def Chip.opReady (c : Chip) (e : Nat) (o : FOp) : Bool :=
  match (if o.kind = 3 ∧ o.mode = 4 then (c.eng e).setting o.key else none) with
  | some x => x.op.tail == 2 || (x.op.tail == 1 && (c.cacheWay e (hSet o.h1)).isSome)
  | none => !c.keyBlocked e o.key o.h1 && !(o.isPkt && o.tail == 0 && 512 ≤ (c.eng e).helds.length)

/-- OP_REPLAY: the first waiting op that may be replayed, in arrival order. -/
def Chip.replay (c : Chip) (e ecc : Nat) : Chip :=
  match (c.eng e).station.find? (fun o => c.opReady e o) with
  | none => c
  | some o => match c.readWay e o.key o.h1 ecc with
    | (c, true) => if o.isPkt then (c.leave e o).fallback e o 6 else (c.leave e o).otherAbsent e o
    | (c, false) => match c.tryOp e o with
      | (c, true) => c.leave e o
      | (c, false) => c

/-- OP_DEADLINE: the waiting op at `i` takes its fallback (R252). -/
def Chip.opDeadline (c : Chip) (e i : Nat) : Chip :=
  match (c.eng e).station[i]? with
  | none => c
  | some o =>
    if !o.isPkt then c
    else
      let s := c.eng e
      let setup := (s.setting o.key).isSome || (match s.looking o.key with | some l => l.st == 4 | none => false)
      (c.leave e o).fallback e o (if setup then 5 else 4)

/-! ### Tail status (R242, R249) -/

/-- A held write is decided. -/
def Chip.decideHeld (c : Chip) (e : Nat) (h : FHeld) (good : Bool) : Chip :=
  let c := c.onEng e fun s => { s with helds := s.helds.filter (fun x => x != h) }
  if good then
    if h.insert then c.commitInsert e h.way h.bucket h.slot h.op h.record h.fired h.value
    else c.commitWay e h.way h.op h.record h.fired h.value
  else
    let c := (c.bumpQ 48 F.FLE_CNT_DISCARD.V e).signal 4 e 10
    if h.insert then c.emptyWay e h.way else c.setWay e h.way { c.way e h.way with held := false }

/-- The tail status of a frame reaches an engine: waiting ops and setups learn it, held writes are decided, and a setup
PREP that waited for it is answered. -/
def Chip.tailStatus (c : Chip) (e kind src tag : Nat) (good : Bool) : Chip :=
  let mine (o : FOp) : Bool := o.kind == kind && o.src == src && o.tag == tag
  let mark (o : FOp) : FOp := if mine o then { o with tail := if good then 1 else 2 } else o
  let hs := (c.eng e).helds.filter (fun h => mine h.op)
  let c := hs.foldl (fun c h => c.decideHeld e h good) c
  let c := c.onEng e fun s => { s with
    input := s.input.map mark
    station := s.station.map mark
    setups := s.setups.map (fun x => { x with op := mark x.op }) }
  let keys := ((c.eng e).setups.filter (fun x => mine x.op)).map (fun x => x.op.key)
  match (c.eng e).station.find? (fun o => o.kind == 3 && o.mode == 4 && keys.contains o.key && c.opReady e o) with
  | some o => (match c.tryOp e o with
    | (c, true) => c.leave e o
    | (c, false) => c)
  | none => c

/-! ### Setups (R249) -/

/-- The setup item at the head of the queue. -/
def EngSt.setupHead (s : EngSt) : Option FSetup := s.setups.find? (fun x => x.st = 0)

/-- The head's item is accepted by its class. -/
def Chip.setupAccepted (c : Chip) (e tag : Nat) : Chip :=
  c.onEng e fun s => { s with setups := s.setups.map (fun x => if x.tag = tag && x.st = 0 then { x with st := 1 } else x) }

/-- A setup ends without a record: the waiting ops take a status, and the key leaves SETUP. -/
def Chip.setupFailed (c : Chip) (e : Nat) (x : FSetup) (status : Nat) : Chip :=
  let ops := (c.eng e).station.filter (fun o => o.key == x.op.key && o.isPkt)
  let c := c.onEng e fun s => { s with
    station := s.station.filter (fun o => !(o.key == x.op.key && o.isPkt))
    setups := s.setups.filter (fun y => y.tag != x.tag) }
  ops.foldl (fun c o => c.fallback e o status) c

/-- SETUP_END_REPORT: the routine of a setup ended; `how` 0 committed, 1 aborted or BUDGET. -/
def Chip.setupEnd (c : Chip) (e tag how : Nat) : Chip :=
  match (c.eng e).setups.find? (fun x => x.tag = tag && x.st != 0) with
  | none => c
  | some x =>
    if x.st = 2 then c.onEng e fun s => { s with setups := s.setups.filter (fun y => y.tag != tag) }
    else c.setupFailed e x (if how = 0 then 3 else 5)

/-! ### Write sets (R254) -/

/-- The fields a create takes at APPLY from the engine (R312): VALID, OWNER, FIRST_SEEN, LAST_SEEN, VERSION. -/
def Chip.createFields (c : Chip) (r : Bytes) (ver : Nat) : Bytes :=
  let r := putBe (rPutState r 15 15 1) 43 1 (c.ownDevice % 4)
  putBe (putBe (putBe r 44 4 c.ft) 48 4 c.ft) 52 2 ver

/-- The further fields of a create-setup (R312, R248): TEMPLATE, ORIGIN, and PIN, EXPORT and AGE_CLASS of the template. -/
def Chip.setupFields (c : Chip) (r : Bytes) (o : FOp) : Bytes :=
  let t := c.tpl o.tmpl
  let r := rPutState (putBe r 42 1 o.tmpl) 14 14 (b2n (tpPinNew t))
  rPutState (rPutState (rPutState r 13 13 o.orient) 5 5 (b2n (tpExportNew t))) 3 0 (tpAgeNew t)

/-- A prepared create is committed: its victim leaves, its record goes to DRAM and its way is clean. -/
def Chip.applyCreate (c : Chip) (e : Nat) (p : FPrep) (r : Bytes) : Chip :=
  let c := if p.victim then c.evictSlot e (rTemplate r) p.bucket p.slot else c
  let c := c.onEng e fun s => { s with preps := s.preps.filter (fun x => x != p) }
  let w := c.way e p.way
  let c := ((c.storeRec e p.bucket p.slot r).setWay e p.way { w with record := r, held := false, dirty := false }).sendRepl r false
  let c := c.sendMigr r false
  c.bump F.FLE_TPL_CREATE.V e (rTemplate r)

/-- APPLY: a prepared change is committed. (log entry 91 DEDUCED.) -/
def Chip.applyPrep (c : Chip) (e : Nat) (p : FPrep) : Chip :=
  let o := p.op
  let w := c.way e p.way
  let gone (c : Chip) : Chip := c.onEng e fun s => { s with preps := s.preps.filter (fun x => x != p) }
  if o.mode = 3 ∨ (o.mode = 1 ∧ !bitOf 15 (rState o.data)) then
    ((((gone c).clearTag e p.bucket p.slot).emptyWay e p.way).recGone w.record 1)
  else if o.mode = 1 then
    let r := sliceB o.data 0 128
    ((gone c).setWay e p.way { w with record := r, dirty := true, held := false }).recChanged w.record r
  else match (if o.mode = 4 then (c.eng e).setting o.key else none) with
    | none => c.applyCreate e p (c.createFields w.record (c.getF F.CLS_VERSION.CUR))
    | some x =>
      let r := c.setupFields (c.createFields w.record x.op.ver) x.op
      match c.runSteps e x.op r with
      | (so, c) =>
        let c := c.applyCreate e p so.record
        let c := c.notify e x.op so.fired so.value
        let c := c.onEng e fun s => { s with
          setups := s.setups.map (fun y => if y.tag = x.tag then { y with st := 2, answered := true } else y) }
        if x.answered then c
        else match (c.eng e).firstOf o.key with
          | some f =>
            (c.onEng e fun s => { s with station := s.station.erase f }).sendResult f
              (c.resultOf f 2 so.verdict so.colour so.record)
          | none => c

/-- DROP: a prepared change is released. -/
def Chip.dropPrep (c : Chip) (e : Nat) (p : FPrep) : Chip :=
  let c := c.onEng e fun s => { s with preps := s.preps.filter (fun x => x != p) }
  if p.op.mode = 2 ∨ p.op.mode = 4 then c.emptyWay e p.way else c.setWay e p.way { c.way e p.way with held := false }

/-- The prepared change of a source's write-set entry. -/
def EngSt.prepOf (s : EngSt) (src tag : Nat) : Option FPrep := s.preps.find? (fun p => p.op.src = src && p.op.tag = tag)

/-! ### Aging (R291, R292) -/

/-- A record is expired (R291). -/
def Chip.expired (c : Chip) (r : Bytes) : Bool :=
  let k := rAge r
  let ts := rTstate r
  let tr := c.getF F.FLE_AGE_TRANSIENT.V 0 k
  let lim := if tr != 0 && rProto r == 6 && (ts == 1 || ts == 2 || (decide (6 ≤ ts) && decide (ts ≤ 8))) then tr
    else c.getF F.FLE_AGE_TIMEOUT.V 0 k
  c.getF F.FLE_AGE_TIMEOUT.V 0 k != 0 && decide ((lim : Int) < ftDiff c.ft (beAt r 44 4))

/-- One slot of a sweep. -/
def Chip.sweepSlot (c : Chip) (e b j ecc : Nat) : Chip :=
  let t := c.tag e b j
  if !tagValid t || tagPin t || tagReplica t then c
  else
    let bad := match c.wayOfSlot e b j with | some i => if ecc = 2 then some i else none | none => none
    match bad with
    | some i => c.wayBroken e i
    | none =>
      let r := c.committed e b j
      let h1 := c.h1Of (rKey r)
      let busy := c.keyBlocked e (rKey r) h1 || (c.eng e).station.any (fun o => o.key == rKey r)
      let x := c.expired r
      if busy then c
      else if rXflags r % 4 ≠ 0 ∨ rFlowq r then
        if x || rFlowq r then
          (c.onEng e fun s => { s with report := s.report ++ [2 * j + b2n x] }).bump F.FLE_CNT_SWEEP_REPORT.V e
        else c
      else if x then
        let c := match c.wayOfSlot e b j with | some i => c.emptyWay e i | none => c
        ((c.clearTag e b j).recGone r 1).bump F.FLE_CNT_SWEEP_DEL.V e
      else c

/-- SWEEP of a bucket; its report stands in the engine's state. -/
def Chip.sweepOp (c : Chip) (e b ecc : Nat) : Chip :=
  let b := b % c.nbuckets
  (List.range 8).foldl (fun c j => c.sweepSlot e b j ecc) (c.onEng e fun s => { s with report := [] })

/-! ### Meters (R285) -/

/-- METER_REFRESH: every meter of an engine takes its tokens up to now. -/
def Chip.meterRefresh (c : Chip) (e : Nat) : Chip :=
  let now := c.mt32
  c.onFlow fun x => { x with meters := (x.meters.filter (fun m => m.1 / 4096 = e)).foldl (fun ms m =>
    let y := m.2
    let el := (now + 2 ^ 32 - beAt y 44 4 % 2 ^ 32) % 2 ^ 32
    let tc := min (beAt y 32 6 + el * beAt y 0 4) (beAt y 8 4 * 8000000)
    let tp := min (beAt y 38 6 + el * beAt y 4 4) (beAt y 12 4 * 8000000)
    smSet (fun _ => zerosB 48) ms m.1 (putBe (putBe (putBe y 32 6 tc) 38 6 tp) 44 4 now)) x.meters }

end Sys2Proof.Machine
end

