-- ==== Sys2Proof/Machine/ParseIns.lean ====
section
/-! DEFINITION. Parse instructions (R137 to R139), their decoding from 128-bit words, and the built-in default program
(R151, R631). The instructions of the built-in program are internal to the device (R151): the table below is the model's
own arrangement of steps that does what R151 and R631 say; a built-in step may carry two operations. -/
namespace Sys2Proof.Machine
open Sys2Proof

/-- A load (R137): register, byte offset from CUR, 1 or 2 bytes, right shift, mask. -/
structure PLoad where
  w : Nat
  ofs : Nat
  n : Nat
  shr : Nat
  mask : Nat
  deriving DecidableEq, Repr

/-- Operations (R138); the last three stand in the built-in program only. -/
inductive POp where
  | nop
  | ext (src dst len : Nat) (staging map4 : Bool)
  | mark (ofs type slot count : Nat)
  | lchk (reg sh imm min : Nat)
  | kcommit
  | alu (dst imm fn : Nat) (useImm : Bool) (reg : Nat)
  | setf (ofs flags user : Nat)
  | lvl (tun : Nat)
  | l2type (t : Nat)      -- L2_TYPE written, L2_OFS kept
  | fragIf (reg : Nat)    -- LFLAGS.FRAG set when the register is not 0
  deriving DecidableEq, Repr

/-- The eight operations by name, as the commands name them. -/
inductive PKind where
  | nop | ext | mark | lchk | kcommit | alu | setf | lvl
  deriving DecidableEq, Repr

/-- What a selection does where no case holds: go to an address, end with a code, or end with BAD_HEADER. -/
inductive PElse where
  | to (t : Nat)
  | exit (code : Nat)
  | bad
  deriving DecidableEq, Repr

/-- Next (R139); `sel` stands in the built-in program only: the first case (register, mask, value, target) that holds. -/
inductive PNext where
  | seq
  | goto (t : Nat)
  | br (cnd w imm t : Nat)
  | dsp (w tbl t : Nat)
  | fin (code : Nat)
  | sel (cases : List (Nat × Nat × Nat × Nat)) (other : PElse)
  deriving DecidableEq, Repr

/-- An advance (R137): mode, register, shift, immediate. -/
structure PAdv where
  mode : Nat
  w : Nat
  sh : Nat
  imm : Nat
  deriving DecidableEq, Repr

/-- One parse instruction. -/
structure PIns where
  lds : List PLoad
  ops : List POp
  adv : PAdv
  nx : PNext
  deriving DecidableEq, Repr

/-- The kind of an operation. -/
def POp.kind : POp → PKind
  | .nop => .nop | .ext .. => .ext | .mark .. => .mark | .lchk .. => .lchk | .kcommit => .kcommit | .alu .. => .alu
  | .setf .. => .setf | .lvl .. => .lvl | .l2type _ => .mark | .fragIf _ => .setf

/-- The kind of a step: that of its first operation. -/
def PIns.kind (i : PIns) : PKind := match i.ops with | o :: _ => o.kind | [] => .nop

/-- The instruction a 128-bit word encodes (R137, R138, R139); none for a reserved code. -/
def decodePIns (w : BitVec 128) : Option PIns :=
  let x := w.toNat
  let f hi lo := bitsOf hi lo x
  let opa := f 81 73
  let opb := f 72 65
  let opc := f 64 57
  let op : Option POp := match f 85 82 with
    | 0 => some .nop
    | 1 => some (.ext opa opb (bitsOf 5 0 opc) (bitOf 6 opc) (bitOf 7 opc))
    | 2 => some (.mark opa opb (bitsOf 2 0 opc) (bitsOf 4 3 opc))
    | 3 => some (.lchk (bitsOf 1 0 opa) (bitsOf 4 2 opa) opb opc)
    | 4 => some .kcommit
    | 5 => some (.alu (bitsOf 1 0 opa) opb (bitsOf 2 0 opc) (bitOf 3 opc) (bitsOf 5 4 opc))
    | 6 => some (.setf opa opb opc)
    | 7 => some (.lvl opb)
    | _ => none
  let nx : Option PNext := match f 39 37 with
    | 0 => some .seq
    | 1 => some (.goto (f 9 0))
    | 2 => if f 36 34 < 6 then some (.br (f 36 34) (f 33 32) (f 31 16) (f 9 0)) else none
    | 3 => some (.dsp (f 33 32) (f 15 10) (f 9 0))
    | 4 => some (.fin (f 23 16))
    | _ => none
  match op, nx with
  | some o, some n =>
    if f 56 55 = 3 then none
    else some ⟨if f 118 118 = 1 then [⟨f 117 116, f 115 107, 1 + f 106 106, f 105 102, f 101 86⟩] else [], [o],
      ⟨f 56 55, f 54 53, f 52 50, f 49 40⟩, n⟩
  | _, _ => none

/-! ### The built-in default program (R151, R631) -/

/-- Addresses of the built-in program's headers. -/
def bEth : Nat := 0
def bVlan : Nat := 2
def bLlc : Nat := 3
def bOther : Nat := 4
def bArp : Nat := 5
def bPtpE : Nat := 6
def bMpls : Nat := 8
def bIp4 : Nat := 10
def bIp4O : Nat := 16
def bIp6 : Nat := 22
def bX : Nat := 28
def bXr : Nat := 30
def bXf : Nat := 33
def bFrag : Nat := 35
def bTcp : Nat := 36
def bUdp : Nat := 42
def bVx : Nat := 47
def bGnv : Nat := 50
def bGre : Nat := 56
def bIpip : Nat := 65
def bPtpU : Nat := 67
def bIcmp : Nat := 68
def bIcmp6 : Nat := 70
def bEcho : Nat := 72
def bNoEcho : Nat := 74
def bKEnd : Nat := 76
def bOProto : Nat := 77

/-- Selection by EtherType in W0 (R151). -/
def selEther : PNext := .sel
  [(0, 0xFFFF, 0x8100, bVlan), (0, 0xFFFF, 0x88A8, bVlan), (0, 0xFFFF, 0x9100, bVlan), (0, 0xFFFF, 0x8847, bMpls),
   (0, 0xFFFF, 0x8848, bMpls), (0, 0xFFFF, 0x0800, bIp4), (0, 0xFFFF, 0x86DD, bIp6), (0, 0xFFFF, 0x0806, bArp),
   (0, 0xFFFF, 0x88F7, bPtpE), (0, 0xFC00, 0, bLlc), (0, 0xFE00, 0x0400, bLlc)] (.to bOther)

/-- Selection by IP protocol in W0 (R151). -/
def casesProto : List (Nat × Nat × Nat × Nat) :=
  [(0, 0xFF, 6, bTcp), (0, 0xFF, 17, bUdp), (0, 0xFF, 1, bIcmp), (0, 0xFF, 58, bIcmp6), (0, 0xFF, 47, bGre),
   (0, 0xFF, 4, bIpip), (0, 0xFF, 41, bIpip + 1)]

/-- IPv6 extension headers (R151). -/
def casesExt : List (Nat × Nat × Nat × Nat) :=
  [(0, 0xFF, 0, bX), (0, 0xFF, 60, bX), (0, 0xFF, 43, bXr), (0, 0xFF, 44, bXf)]

/-- A non-first fragment has a bit of `mask` in W3: one of the powers of two of the mask. -/
def casesFrag (bits : List Nat) : List (Nat × Nat × Nat × Nat) := bits.map (fun b => (3, 2 ^ b, 2 ^ b, bFrag))

/-- Bits 0 to 12 of an IPv4 fragment field, the offset. -/
def fragBits4 : List Nat := [0, 1, 2, 3, 4, 5, 6, 7, 8, 9, 10, 11, 12]
/-- Bits 3 to 15 of an IPv6 fragment field, the offset. -/
def fragBits6 : List Nat := [3, 4, 5, 6, 7, 8, 9, 10, 11, 12, 13, 14, 15]

/-- Shorthands of the table below. -/
def ld (w ofs n : Nat) (shr : Nat := 0) (mask : Nat := 0xFFFF) : PLoad := ⟨w, ofs, n, shr, mask⟩
def cpC (src dst len : Nat) : POp := .ext src dst len false false
def cpK (src dst len : Nat) : POp := .ext src dst len true false
def noAdv : PAdv := ⟨0, 0, 0, 0⟩
def advI (n : Nat) : PAdv := ⟨1, 0, 0, n⟩
def advR (w sh imm : Nat) : PAdv := ⟨2, w, sh, imm⟩

/-- Ethernet, tags, MPLS and IP headers. -/
def builtinL23 : List PIns := [
  ⟨[ld 0 12 2], [.mark 0 1 0 0], noAdv, .seq⟩,                                          -- 0 Ethernet
  ⟨[], [cpC 0 0 12], advI 14, selEther⟩,
  ⟨[ld 0 2 2], [.mark 0 0 7 1, cpC 0 12 2], advI 4, selEther⟩,                           -- 2 VLAN tag
  ⟨[], [.l2type 2], noAdv, .fin 0x04⟩,                                                  -- 3 length/LLC
  ⟨[], [.nop], noAdv, .fin 0x02⟩,                                                       -- 4 other EtherType
  ⟨[], [.mark 0 3 2 0], noAdv, .fin 0x02⟩,                                              -- 5 ARP
  ⟨[], [.mark 0 4 2 0], noAdv, .seq⟩,                                                   -- 6 PTP over Ethernet
  ⟨[], [.setf 0 8 0], noAdv, .fin 0x03⟩,
  ⟨[ld 0 2 1 0 1], [.mark 0 0 1 2], noAdv, .sel [(0, 1, 1, 9)] (.to 79)⟩,           -- 8 MPLS entry
  ⟨[ld 0 4 1 4], [cpC 0 14 4], advI 4, .sel [(0, 0xF, 4, bIp4), (0, 0xF, 6, bIp6)] (.exit 0x02)⟩,
  ⟨[ld 2 0 1], [.mark 0 1 2 0], noAdv, .br 1 2 0x45 bIp4O⟩,                              -- 10 IPv4
  ⟨[ld 3 6 2 0 0x3FFF], [.ext 12 0 8 true true, .fragIf 3], noAdv, .seq⟩,
  ⟨[ld 1 2 2], [.lchk 1 0 0 20], noAdv, .seq⟩,
  ⟨[], [cpC 0 18 2], noAdv, .seq⟩,
  ⟨[], [cpC 8 20 1], noAdv, .seq⟩,
  ⟨[ld 0 9 1], [cpK 9 36 1], advI 20, .sel (casesFrag fragBits4 ++ casesProto) (.to bOProto)⟩,
  ⟨[ld 1 0 1, ld 2 0 1 0 0xF], [.nop], noAdv, .sel [(1, 0xFE, 0x46, 17), (1, 0xF8, 0x48, 17)] .bad⟩, -- 16 options
  ⟨[ld 3 6 2 0 0x3FFF], [.ext 12 0 8 true true, .fragIf 3, .setf 0 2 0], noAdv, .seq⟩,
  ⟨[ld 1 2 2], [.lchk 1 0 0 20], noAdv, .seq⟩,
  ⟨[], [cpC 0 18 2], noAdv, .seq⟩,
  ⟨[], [cpC 8 20 1], noAdv, .seq⟩,
  ⟨[ld 0 9 1], [cpK 9 36 1], advR 2 2 0, .sel (casesFrag fragBits4 ++ casesProto) (.to bOProto)⟩,
  ⟨[ld 0 0 1 4], [.mark 0 2 2 0], noAdv, .sel [(0, 0xF, 6, 23)] .bad⟩,                   -- 22 IPv6
  ⟨[ld 1 4 2], [.lchk 1 0 40 40], noAdv, .seq⟩,
  ⟨[], [cpK 8 0 32], noAdv, .seq⟩,
  ⟨[], [cpC 0 18 2], noAdv, .seq⟩,
  ⟨[ld 0 6 1], [cpK 6 36 1], noAdv, .seq⟩,
  ⟨[], [cpC 7 20 1], advI 40, .sel (casesExt ++ casesProto) (.to bOProto)⟩,
  ⟨[ld 1 1 1], [.setf 0 2 0], noAdv, .seq⟩,                                             -- 28 extension header
  ⟨[ld 0 0 1], [cpK 0 36 1], advR 1 3 8, .sel (casesExt ++ casesProto) (.to bOProto)⟩,
  ⟨[ld 1 1 1, ld 2 2 1], [.setf 0 2 0], noAdv, .sel [(2, 0xFF, 4, 31)] (.to 29)⟩,         -- 30 routing header
  ⟨[], [cpC 3 28 1], noAdv, .goto 29⟩,
  ⟨[], [.nop], noAdv, .fin 0x01⟩,
  ⟨[ld 3 2 2], [.setf 0 1 0], noAdv, .seq⟩,                                             -- 33 fragment header
  ⟨[ld 0 0 1], [cpK 0 36 1], advI 8, .sel (casesFrag fragBits6 ++ casesExt ++ casesProto) (.to bOProto)⟩,
  ⟨[], [.kcommit], noAdv, .fin 0x01⟩]                                                   -- 35 non-first fragment

/-- Transport and tunnel headers. -/
def builtinL4 : List PIns := [
  ⟨[ld 1 12 1 4], [.mark 0 1 3 0], noAdv,                                               -- 36 TCP
    .sel [(1, 0xF, 5, 37), (1, 0xE, 6, 37), (1, 8, 8, 37)] .bad⟩,
  ⟨[], [cpK 0 32 4], noAdv, .seq⟩,
  ⟨[], [cpC 13 21 1], noAdv, .seq⟩,
  ⟨[], [.nop], advR 1 2 0, .seq⟩,
  ⟨[], [.mark 0 0 4 0], noAdv, .seq⟩,
  ⟨[], [.kcommit], noAdv, .fin 0x01⟩,
  ⟨[ld 1 4 2], [.mark 0 2 3 0], noAdv, .seq⟩,                                           -- 42 UDP
  ⟨[ld 0 2 2], [.lchk 1 0 0 8], noAdv, .seq⟩,
  ⟨[], [cpK 0 32 4], advI 8, .seq⟩,
  ⟨[], [.kcommit], noAdv, .sel [(0, 0xFFFF, 4789, bVx), (0, 0xFFFF, 6081, bGnv), (0, 0xFFFF, 319, bPtpU),
    (0, 0xFFFF, 320, bPtpU)] (.to 46)⟩,
  ⟨[], [.mark 0 0 4 0], noAdv, .fin 0x01⟩,
  ⟨[ld 0 0 1 0 8], [.mark 0 0 4 0], noAdv, .sel [(0, 8, 8, 48)] .bad⟩,                    -- 47 VXLAN
  ⟨[], [cpC 4 25 3], advI 8, .seq⟩,
  ⟨[], [.lvl 1], noAdv, .goto bEth⟩,
  ⟨[ld 0 0 1 6, ld 1 0 1 0 0x3F], [.mark 0 0 4 0], noAdv, .sel [(0, 3, 0, 51)] .bad⟩,     -- 50 GENEVE
  ⟨[], [cpC 4 25 3], noAdv, .seq⟩,
  ⟨[ld 0 2 2], [.nop], advR 1 2 8,
    .sel [(0, 0xFFFF, 0x6558, 53), (0, 0xFFFF, 0x0800, 54), (0, 0xFFFF, 0x86DD, 55)] (.to 32)⟩,
  ⟨[], [.lvl 2], noAdv, .goto bEth⟩,
  ⟨[], [.lvl 2], noAdv, .goto bIp4⟩,
  ⟨[], [.lvl 2], noAdv, .goto bIp6⟩,
  ⟨[ld 0 0 2], [.mark 0 5 3 0], noAdv, .sel [(0, 7, 0, 57)] .bad⟩,                        -- 56 GRE
  ⟨[ld 1 2 2], [.kcommit], advI 4,
    .sel [(0, 0x8000, 0x8000, 58), (0, 0x2000, 0x2000, 59), (0, 0x1000, 0x1000, 60), (1, 0xFFFF, 0x6558, 61),
      (1, 0xFFFF, 0x0800, 62), (1, 0xFFFF, 0x86DD, 63)] (.to 32)⟩,
  ⟨[ld 2 0 2], [.nop], advI 4,
    .sel [(0, 0x2000, 0x2000, 59), (0, 0x1000, 0x1000, 60), (1, 0xFFFF, 0x6558, 61),
      (1, 0xFFFF, 0x0800, 62), (1, 0xFFFF, 0x86DD, 63)] (.to 32)⟩,
  ⟨[], [cpC 0 24 4], advI 4,
    .sel [(0, 0x1000, 0x1000, 60), (1, 0xFFFF, 0x6558, 61), (1, 0xFFFF, 0x0800, 62), (1, 0xFFFF, 0x86DD, 63)] (.to 32)⟩,
  ⟨[ld 2 0 2], [.nop], advI 4, .sel [(1, 0xFFFF, 0x6558, 61), (1, 0xFFFF, 0x0800, 62), (1, 0xFFFF, 0x86DD, 63)] (.to 32)⟩,
  ⟨[], [.lvl 3], noAdv, .goto bEth⟩,
  ⟨[], [.lvl 3], noAdv, .goto bIp4⟩,
  ⟨[], [.lvl 3], noAdv, .goto bIp6⟩,
  ⟨[], [.nop], noAdv, .fin 0x01⟩,
  ⟨[], [.kcommit, .lvl 4], noAdv, .goto bIp4⟩,                                          -- 65 IP-in-IP, IPv4
  ⟨[], [.kcommit, .lvl 4], noAdv, .goto bIp6⟩,                                          -- 66 IP-in-IP, IPv6
  ⟨[], [.setf 0 8 0], noAdv, .fin 0x03⟩,                                                -- 67 PTP after UDP
  ⟨[ld 0 0 1], [.mark 0 3 3 0], noAdv, .seq⟩,                                           -- 68 ICMP
  ⟨[], [cpC 0 22 2], noAdv, .sel [(0, 0xFF, 8, bEcho), (0, 0xFF, 0, bEcho)] (.to bNoEcho)⟩,
  ⟨[ld 0 0 1], [.mark 0 4 3 0], noAdv, .seq⟩,                                           -- 70 ICMPv6
  ⟨[], [cpC 0 22 2], noAdv, .sel [(0, 0xFF, 128, bEcho), (0, 0xFF, 129, bEcho)] (.to bNoEcho)⟩,
  ⟨[], [cpK 4 32 2], noAdv, .seq⟩,                                                      -- 72 echo
  ⟨[], [cpK 4 34 2], advI 8, .goto bKEnd⟩,
  ⟨[], [.nop], noAdv, .seq⟩,                                                            -- 74 other ICMP types
  ⟨[], [.nop], noAdv, .seq⟩,
  ⟨[], [.kcommit], noAdv, .fin 0x01⟩,                                                   -- 76
  ⟨[], [.mark 0 6 3 0], noAdv, .seq⟩,                                                   -- 77 other protocol
  ⟨[], [.nop], noAdv, .goto bKEnd⟩,
  ⟨[ld 0 6 1 0 1], [.mark 4 0 1 2], advI 4, .sel [(0, 1, 1, 9)] (.to 79)⟩]               -- 79 next MPLS entry

/-- The built-in program. -/
def builtinProgram : List PIns := builtinL23 ++ builtinL4

end Sys2Proof.Machine
end

