-- ==== Sys2Proof/Machine/State.lean ====
section
/-! DEFINITION. The state of the block: the device, and the commands that wait, first in, first out. -/
namespace Sys2Proof.Machine
open Sys2Proof

/-- The whole state. -/
structure State where
  chip : Chip
  pending : List Instr
  deriving DecidableEq, Repr

/-- Reasons a command stops with a fault: none arises, since every command of the manual has an effect or none. -/
inductive Fault where
  deriving DecidableEq, Repr

/-- Reasons a command is refused. -/
inductive Refusal where
  /-- Raised by `exec` for a command without a meaning; safe. -/
  | notModelled (mnemonic : String)
  deriving DecidableEq, Repr

/-- The outcome of a command. -/
abbrev Out := Host.Outcome State Fault Refusal

/-- A command that changes the device and not the queue. With VIN absent only the always-on domain runs (R36), and the command
has no effect. -/
def State.on (s : State) (f : Chip → Chip) : Out := .next { s with chip := if s.chip.power.vin then f s.chip else s.chip }

/-- An event that reaches the device whether VIN is present or not: of the supplies, the flash, a module's presence, PERST#. -/
def State.onAny (s : State) (f : Chip → Chip) : Out := .next { s with chip := f s.chip }

/-- The state right after reset. (log entry 2 DESIGN CHOICE.) -/
def State.reset : State := ⟨Chip.reset, []⟩

end Sys2Proof.Machine
end

