-- ==== Sys2Proof/Machine/Parse.lean ====
section
/-! DEFINITION. The parse engines (R133 to R148): contexts, the eight parse instructions, the header vector. -/
namespace Sys2Proof.Machine
open Sys2Proof

/-! ### Programs -/

/-- The instruction of a slice at an address: the loaded program's, else the built-in one's (R151). -/
def Chip.parseIns (c : Chip) (s pc : Nat) : Option PIns :=
  match smFind c.parse.progs s with
  | some prog => (prog[pc]?).bind decodePIns
  | none => builtinProgram[pc]?

/-- The target of the first valid dispatch entry that matches (R139, R152). -/
def Chip.dispatch (c : Chip) (s tbl w : Nat) : Option Nat :=
  ((smGet (fun _ => []) c.parse.disp s).find? (fun e =>
    let x := e.toNat
    bitOf 63 x && bitsOf 47 42 x == tbl
      && Nat.land w (bitsOf 31 16 x) == Nat.land (bitsOf 15 0 x) (bitsOf 31 16 x))).map (fun e => bitsOf 41 32 e.toNat)

/-! ### Header-vector access (R143) -/

/-- Offset of level `l`'s record. -/
def hvLevel (l : Nat) : Nat := 32 + 16 * l

/-- The header vector with bits of byte `o` set. -/
def hvOr (hv : Bytes) (o m : Nat) : Bytes := putB hv o [BitVec.ofNat 8 (Nat.lor (byteAt hv o) m)]

/-- ANOM bits, network order at byte 12: DEPTH_LIMIT 0, LEN_CONFLICT 1, TRUNCATED 2, BAD_HEADER 3, LEN_PENDING 4. -/
def hvAnom (hv : Bytes) (bit : Nat) : Bytes := hvOr hv 13 (2 ^ bit)

/-! ### Steps (R140) -/

/-- The byte ranges an instruction reads or marks, from byte 0. -/
def PIns.ranges (i : PIns) (cur : Nat) : List (Nat × Nat) :=
  i.lds.map (fun l => (cur + l.ofs, l.n)) ++ i.ops.filterMap (fun o => match o with
    | .ext src _ len _ _ => some (cur + src, len)
    | .mark ofs _ _ _ => some (cur + ofs, 0)
    | .setf ofs flags _ => if bitOf 3 flags then some (cur + ofs, 0) else none
    | _ => none)

/-- What the checks of R140 say of a step: wait, stop with an ANOM bit and a DEPTH_CAUSE, or go. -/
inductive StepCheck where
  | wait
  | stop (bit cause : Nat)
  | go
  deriving DecidableEq, Repr

/-- The range checks in order. -/
def rangeCheck (window got : Nat) (whole : Option Nat) : List (Nat × Nat) → StepCheck
  | [] => .go
  | (a, n) :: r =>
    if window < a + n then .stop 0 4
    else match whole with
      | some flen => if flen < a + n then .stop 2 0 else rangeCheck window got whole r
      | none => if got < a + n then .wait else rangeCheck window got whole r

/-- The checks of a step: `whole` is FLEN once the tail has arrived, `got` the bytes received. -/
def stepCheck (x : ParseCtx) (i : PIns) (got : Nat) (whole : Option Nat) : StepCheck :=
  if x.done = x.steps then .stop 0 5
  else match rangeCheck x.window got whole (i.ranges x.cur) with
    | .go =>
      if i.ops.any (fun o => o.kind == .lvl) && x.lvl == x.encap then .stop 0 1
      else if i.ops.any (fun o => match o with | .mark _ _ _ 1 => true | _ => false) && byteAt x.hv 15 == x.vlan then .stop 0 2
      else if i.ops.any (fun o => match o with | .mark _ _ _ 2 => true | _ => false) && byteAt x.hv 16 == x.mpls then .stop 0 3
      else .go
    | r => r

/-- Register W[i]. -/
def ParseCtx.reg (x : ParseCtx) (i : Nat) : Nat := x.w.getD i 0

/-- A load (R140). -/
def doLoad (frame : Bytes) (x : ParseCtx) (l : PLoad) : ParseCtx :=
  { x with w := x.w.set l.w (Nat.land (beAt frame (x.cur + l.ofs) l.n / 2 ^ l.shr) l.mask) }

/-- LCHK (R141): `whole` and `got` as in `stepCheck`. -/
def doLchk (x : ParseCtx) (reg sh imm mn got : Nat) (whole : Option Nat) : ParseCtx :=
  let claimed := x.cur + x.reg reg * 2 ^ sh + imm
  let conflict : ParseCtx := { x with hv := hvOr (hvAnom x.hv 1) (hvLevel x.lvl + 14) 4 }
  if claimed < x.cur + mn then conflict
  else match x.endAt with
    | some e =>
      if e < claimed then conflict
      else if claimed = e then x
      else if whole = some 60 ∧ x.lvl = 0 then { x with endAt := some claimed }
      else conflict
    | none =>
      if claimed ≤ got then conflict
      else { x with endAt := some claimed, hv := hvAnom x.hv 4,
                    prov := match x.prov with | some q => some q | none => some (claimed, x.lvl) }

/-- KCOMMIT (R142). -/
def doKcommit (x : ParseCtx) : ParseCtx :=
  let frag := bitOf 0 (byteAt x.hv (hvLevel x.lvl + 14))
  let k := if frag then hvOr (putB x.staging 32 [0, 0, 0, 0]) 37 1 else x.staging
  let hv := putB x.hv 136 k
  let hv := putB hv 11 [BitVec.ofNat 8 (setBitsOf 5 4 (Nat.lor (byteAt hv 11) 0x80) x.lvl)]
  let hv := if x.lvl = 0 then hvOr (putB hv 96 k) 11 0x40 else hv
  { x with hv := hvOr hv (hvLevel x.lvl + 14) 8 }

/-- The ALU's function (R138). -/
def pAlu (fn a b : Nat) : Nat :=
  (match fn with
    | 0 => a + b
    | 1 => a + 65536 - b % 65536
    | 2 => Nat.land a b
    | 3 => Nat.lor a b
    | 4 => Nat.xor a b
    | 5 => a * 2 ^ (b % 16)
    | 6 => a / 2 ^ (b % 16)
    | _ => b) % 65536

/-- MAP4 (R138): a 4-byte address as an IPv4-mapped one. -/
def mapped4 (a : Bytes) : Bytes := zerosB 10 ++ [0xFF, 0xFF] ++ a

/-- EXT (R138). -/
def doExt (frame : Bytes) (x : ParseCtx) (src dst len : Nat) (staging map4 : Bool) : ParseCtx :=
  let b := sliceB frame (x.cur + src) len
  if len = 0 then x
  else if map4 then
    let k := putB x.staging dst (mapped4 (b.take 4))
    let k := if len = 8 then putB k (dst + 16) (mapped4 (b.drop 4)) else k
    { x with staging := hvOr k 37 2 }
  else if staging then { x with staging := putB x.staging dst b }
  else { x with hv := putB x.hv ((if x.lvl = 0 then 176 else 216) + dst) b }

/-- MARK (R138). -/
def doMark (x : ParseCtx) (ofs type slot count : Nat) : ParseCtx :=
  let lb := hvLevel x.lvl
  let hv := if slot < 5 then putBe x.hv (lb + 2 * slot) 2 (0x8000 + (x.cur + ofs) % 1024) else x.hv
  let hv := match slot with
    | 0 => putBe hv (lb + 10) 1 type
    | 2 => putBe hv (lb + 11) 1 type
    | 3 => putBe hv (lb + 12) 1 type
    | _ => hv
  let hv := match count with
    | 1 => putBe hv 15 1 (byteAt hv 15 + 1)
    | 2 => putBe hv 16 1 (byteAt hv 16 + 1)
    | _ => hv
  { x with hv := hv }

/-- SETF (R138). -/
def doSetf (x : ParseCtx) (ofs flags user : Nat) : ParseCtx :=
  let hv := hvOr x.hv (hvLevel x.lvl + 14) (flags % 4)
  let hv := if bitOf 2 flags then hvAnom hv 3 else hv
  let hv := if bitOf 3 flags then putBe hv 18 2 (0x8000 + (x.cur + ofs) % 1024) else hv
  { x with hv := hvOr hv 14 user }

/-- LVL (R138). -/
def doLvl (x : ParseCtx) (tun : Nat) : ParseCtx :=
  let l := x.lvl + 1
  let hv := putBe x.hv (hvLevel l + 13) 1 tun
  let d := max x.deepest l
  { x with lvl := l, deepest := d, staging := zerosB 40,
           hv := putB hv 11 [BitVec.ofNat 8 (setBitsOf 1 0 (byteAt hv 11) d)] }

/-- One operation. -/
def doOp (frame : Bytes) (got : Nat) (whole : Option Nat) (x : ParseCtx) : POp → ParseCtx
  | .nop => x
  | .ext src dst len st m4 => doExt frame x src dst len st m4
  | .mark ofs t slot cnt => doMark x ofs t slot cnt
  | .lchk reg sh imm mn => doLchk x reg sh imm mn got whole
  | .kcommit => doKcommit x
  | .alu d imm fn useImm reg => { x with w := x.w.set d (pAlu fn (x.reg d) (if useImm then imm else x.reg reg)) }
  | .setf ofs fl u => doSetf x ofs fl u
  | .lvl t => doLvl x t
  | .l2type t => { x with hv := putBe x.hv (hvLevel x.lvl + 10) 1 t }
  | .fragIf r => if x.reg r = 0 then x else { x with hv := hvOr x.hv (hvLevel x.lvl + 14) 1 }

/-- A condition (R139). -/
def pCond (cnd w imm : Nat) : Bool :=
  match cnd with
  | 0 => w == imm
  | 1 => w != imm
  | 2 => decide (w < imm)
  | 3 => decide (imm ≤ w)
  | 4 => Nat.land w imm != 0
  | _ => Nat.land w imm == 0

/-- What follows a step: an address, or the end with a code and whether BAD_HEADER is flagged. -/
inductive PGo where
  | pc (a : Nat)
  | close (code : Nat) (bad : Bool)
  deriving DecidableEq, Repr

/-- Next (R139). -/
def Chip.parseNext (c : Chip) (x : ParseCtx) : PNext → PGo
  | .seq => .pc (x.pc + 1)
  | .goto t => .pc t
  | .br cnd w imm t => .pc (if pCond cnd (x.reg w) imm then t else x.pc + 1)
  | .dsp w tbl t => .pc ((c.dispatch x.slice tbl (x.reg w)).getD t)
  | .fin code => .close code false
  | .sel cases other =>
    match cases.find? (fun k => Nat.land (x.reg k.1) k.2.1 == k.2.2.1) with
    | some k => .pc k.2.2.2
    | none => match other with
      | .to t => .pc t
      | .exit code => .close code false
      | .bad => .close 0xE0 true

/-- The header vector completed (R143): FLEN, STEPS, EXIT and END. -/
def ParseCtx.finish (x : ParseCtx) (flen code : Nat) : Bytes :=
  let hv := putBe x.hv 6 2 flen
  let hv := putBe hv 9 1 x.done
  let hv := putBe hv 10 1 code
  putBe hv 20 2 (x.endAt.getD 0xFFFF)

/-- A context closes: its header vector stands in the packet, which goes on to classification. -/
def Chip.closeCtx (c : Chip) (pid : Nat) (p : Pkt) (x : ParseCtx) (code : Nat) : Chip :=
  let flen := if p.tail = 1 then p.frame.length else 0
  (c.setPkt pid { p with ctx := none, hv := x.finish flen code, prov := x.prov, lastPc := x.pc, stage := .classify }).stampStrip pid 2

/-- One step of a packet's context, where its instruction is of kind `k` (R140). -/
def Chip.parseStep (c : Chip) (k : PKind) (pid : Nat) : Chip :=
  match c.pkt pid with
  | none => c
  | some p => match p.ctx with
    | none => c
    | some x => match c.parseIns x.slice x.pc with
      | none => c
      | some i =>
        if i.kind != k then c
        else
          let whole := if p.tail = 1 then some p.frame.length else none
          match stepCheck x i p.got whole with
          | .wait => c
          | .stop bit cause =>
            let hv := hvAnom x.hv bit
            let hv := if bit = 0 then hvOr hv 13 (cause * 32) else hv
            c.closeCtx pid p { x with hv := hv } (if bit = 0 then 0xFD else 0xFC)
          | .go =>
            let x := { x with done := x.done + 1 }
            let x := i.lds.foldl (doLoad p.frame) x
            let x := i.ops.foldl (doOp p.frame p.got whole) x
            let x := match i.adv.mode with
              | 1 => { x with cur := min 1023 (x.cur + i.adv.imm) }
              | 2 => { x with cur := min 1023 (x.cur + i.adv.imm + x.reg i.adv.w * 2 ^ i.adv.sh) }
              | _ => x
            match c.parseNext x i.nx with
            | .pc a => c.setPkt pid { p with ctx := some { x with pc := a } }
            | .close code bad => c.closeCtx pid p (if bad then { x with hv := hvAnom x.hv 3 } else x) code

/-- NOP (R138). -/
def execNop (pid : Nat) (s : State) : Out := s.on (·.parseStep .nop pid)
/-- EXT (R138). -/
def execExt (pid : Nat) (s : State) : Out := s.on (·.parseStep .ext pid)
/-- MARK (R138). -/
def execMark (pid : Nat) (s : State) : Out := s.on (·.parseStep .mark pid)
/-- LCHK (R141). -/
def execLchk (pid : Nat) (s : State) : Out := s.on (·.parseStep .lchk pid)
/-- KCOMMIT (R142). -/
def execKcommit (pid : Nat) (s : State) : Out := s.on (·.parseStep .kcommit pid)
/-- ALU (R138). -/
def execAlu (pid : Nat) (s : State) : Out := s.on (·.parseStep .alu pid)
/-- SETF (R138). -/
def execSetf (pid : Nat) (s : State) : Out := s.on (·.parseStep .setf pid)
/-- LVL (R138). -/
def execLvl (pid : Nat) (s : State) : Out := s.on (·.parseStep .lvl pid)

/-! ### Contexts (R25, R133) -/

/-- Packets in parse or classification in a pipe (R25). -/
def Chip.pipeLoad (c : Chip) (pipe : Nat) : Nat :=
  (c.pkts.filter (fun e => e.2.pipe == pipe && (e.2.stage == .parse || e.2.stage == .classify))).length

/-- Open contexts of a pipe (R133). -/
def Chip.pipeCtxs (c : Chip) (pipe : Nat) : Nat :=
  (c.pkts.filter (fun e => match e.2.ctx with | some x => x.pipe == pipe | none => false)).length

/-- The pipe that takes the next packet of a slice (R25, R133): fewest packets, lowest number, a context free. -/
def Chip.pickPipe (c : Chip) (s : Nat) : Option Nat :=
  (((List.range 12).map (12 * s + ·)).filter (fun q => decide (c.pipeCtxs q < 64))).foldl
    (fun best q => match best with
      | none => some q
      | some b => if c.pipeLoad q < c.pipeLoad b then some q else some b) none

/-- The context a packet opens in a pipe (R133, R135, R136, R143). -/
def Chip.newCtx (c : Chip) (p : Pkt) (pipe : Nat) : ParseCtx :=
  let s := sliceOf p.port
  let j := p.port % 32
  let prof := c.getF F.PAR_PORT_ENTRY.PROFILE s j
  let steps := c.getF F.PAR_DEPTH.STEPS s prof
  let window := c.getF F.PAR_DEPTH.WINDOW s prof
  let hv := zerosB 256
  let hv := putBe hv 0 2 p.port
  let hv := putBe hv 2 4 (if p.src = 0 then p.iseq else 0)
  let hv := putBe hv 8 1 p.pass
  let hv := putBe hv 17 1 prof
  { pipe := pipe, slice := s, profNo := prof, encap := c.getF F.PAR_DEPTH.ENCAP s prof
    vlan := c.getF F.PAR_DEPTH.VLAN s prof, mpls := c.getF F.PAR_DEPTH.MPLS s prof
    steps := if steps = 0 then 64 else steps, window := if window = 0 then 512 else window
    pc := c.getF F.PAR_PORT_ENTRY.ENTRY s j, cur := 0, w := [0, 0, 0, 0], done := 0, lvl := 0, deepest := 0
    endAt := if p.tail = 1 then some p.frame.length else none, prov := none, staging := zerosB 40, hv := hv }

/-- A pipe accepts a packet and opens its context (R133). -/
def Chip.openCtx (c : Chip) (pid : Nat) (pipe : Nat) : Chip :=
  match c.pkt pid with
  | none => c
  | some p =>
    let c := c.setPkt pid { p with pipe := pipe, ctx := some (c.newCtx p pipe), stage := .parse }
    ((c.signal 2 pipe 1).condEv 2 pipe 3 (decide (64 ≤ c.pipeCtxs pipe))).stampStrip pid 1

/-- A length check completed at the tail finds a conflict (R141, R148). (log entry 38 DEDUCED.) -/
def tailConflict (prov : Option (Nat × Nat)) (flen : Nat) : Bool :=
  match prov with
  | none => false
  | some (e, lvl) => if e = flen then false else if e < flen ∧ lvl = 0 ∧ flen = 60 then false else true

/-! ### Plate section PARSE_PROGRAM (R151 to R153) -/

/-- Check 13 of a PARSE_PROGRAM instruction at address `a` of `n` (R153). -/
def pInsOk (n a : Nat) (w : BitVec 128) : Bool :=
  let x := w.toNat
  match decodePIns w with
  | none => false
  | some i =>
    bitsOf 127 119 x == 0
    && (match i.nx with
      | .seq => decide (a + 1 < n)
      | .goto t => decide (t < n)
      | .br _ _ _ t => decide (t < n) && decide (a + 1 < n)
      | .dsp _ _ t => decide (t < n)
      | .fin code => code != 0xFC && code != 0xFD
      | .sel .. => true)
    && (match i.ops with
      | [.ext _ dst len st m4] =>
        decide (len ≤ 40) && decide (dst + len ≤ 40)
          && (!m4 || (st && (len == 4 || len == 8) && decide (dst + (if len = 8 then 32 else 16) ≤ 40)))
      | [.mark _ _ slot cnt] => (decide (slot < 5) || slot == 7) && decide (cnt < 3) && bitsOf 64 62 x == 0
      | [.lchk ..] => bitsOf 81 78 x == 0
      | [.alu ..] => bitsOf 81 75 x == 0 && bitsOf 64 63 x == 0
      | [.setf _ fl _] => decide (fl < 16)
      | [.nop] => bitsOf 81 57 x == 0
      | [.kcommit] => bitsOf 81 57 x == 0
      | [.lvl _] => bitsOf 81 73 x == 0 && bitsOf 64 57 x == 0
      | _ => true)

/-- The instructions of a PARSE_PROGRAM payload. -/
def progOf (pl : Bytes) : List (BitVec 128) :=
  (List.range (leAt pl 0 2)).map (fun i => BitVec.ofNat 128 (leAt pl (192 + 16 * i) 16))

/-- Its dispatch entries. -/
def dispOf (pl : Bytes) : List (BitVec 64) :=
  (List.range (leAt pl 2 2)).map (fun i => BitVec.ofNat 64 (leAt pl (192 + 16 * leAt pl 0 2 + 8 * i) 8))

/-- Check 13 of a PARSE_PROGRAM section (R153). -/
def parseSectionOk (pl : Bytes) : Bool :=
  pl.isEmpty ||
  let n := leAt pl 0 2
  let prog := progOf pl
  decide (1 ≤ n) && decide (n ≤ 1024) && decide (leAt pl 2 2 ≤ 512) && leAt pl 5 3 == 0 && leAt pl 40 24 == 0
  && pl.length == 192 + 16 * n + 8 * leAt pl 2 2
  && (List.range 4).all (fun i => decide (byteAt pl (8 + 8 * i) ≤ 3) && decide (byteAt pl (9 + 8 * i) ≤ 8)
      && decide (byteAt pl (10 + 8 * i) ≤ 16) && decide (byteAt pl (11 + 8 * i) ≤ 64)
      && (leAt pl (12 + 8 * i) 2 == 0 || (decide (64 ≤ leAt pl (12 + 8 * i) 2) && decide (leAt pl (12 + 8 * i) 2 ≤ 512)))
      && leAt pl (14 + 8 * i) 2 == 0)
  && (List.range 32).all (fun j => let e := leAt pl (64 + 4 * j) 4
      decide (e % 1024 < n) && bitsOf 11 10 e == 0 && bitsOf 31 14 e == 0)
  && (List.range n).all (fun a => pInsOk n a (prog.getD a 0))
  && (dispOf pl).all (fun e => decide (bitsOf 41 32 e.toNat < n) && bitsOf 62 48 e.toNat == 0)

/-- The PARSE_PROGRAM section of slice `s` applied (R151, R152). -/
def Chip.applyParse (c : Chip) (s : Nat) (pl : Bytes) : Chip :=
  let c := { c with parse := if pl.isEmpty then
      { c.parse with progs := smErase c.parse.progs s, disp := smErase c.parse.disp s }
    else { c.parse with progs := smPut c.parse.progs s (progOf pl), disp := smPut c.parse.disp s (dispOf pl) } }
  let c := c.wr (F.PAR_CTRL.DEPTH_ACT.addr s) (BitVec.ofNat 32 (plF pl 4 1 0x54))
  let c := c.putF F.PAR_PROG_INFO.DEFAULT (b2n pl.isEmpty) s
  let c := c.putF F.PAR_PROG_INFO.INSTR_COUNT (plF pl 0 2 0) s
  let c := c.putF F.PAR_PROG_INFO.DISPATCH_COUNT (plF pl 2 2 0) s
  let c := (List.range 4).foldl (fun c i =>
    let c := c.putF F.PAR_DEPTH.ENCAP (plF pl (8 + 8 * i) 1 3) s i
    let c := c.putF F.PAR_DEPTH.VLAN (plF pl (9 + 8 * i) 1 8) s i
    let c := c.putF F.PAR_DEPTH.MPLS (plF pl (10 + 8 * i) 1 16) s i
    let c := c.putF F.PAR_DEPTH.STEPS (plF pl (11 + 8 * i) 1 64) s i
    c.putF F.PAR_DEPTH.WINDOW (plF pl (12 + 8 * i) 2 512) s i) c
  (List.range 32).foldl (fun c j =>
    let e := plF pl (64 + 4 * j) 4 0
    (c.putF F.PAR_PORT_ENTRY.PROFILE (bitsOf 13 12 e) s j).putF F.PAR_PORT_ENTRY.ENTRY (bitsOf 9 0 e) s j) c

end Sys2Proof.Machine
end

