-- ==== Sys2Proof/Machine/Safe.lean ====
section
/-! DEFINITION. Reading the Safelight policy in force (R575), the capture of refused writes (R579, R580) and the
control-plane policers (R583). -/
namespace Sys2Proof.Machine
open Sys2Proof

/-- Policy bytes as pairs of offset and value. -/
def byteIn : List (Nat × Nat) → Nat → Byte
  | [], _ => 0
  | (a, v) :: r, o => if a = o then BitVec.ofNat 8 v else byteIn r o

/-- Limits that the factory policy and the quarantine policy share (R578; log entry 30 for the quarantine policy): step and wall
ceilings, drain ceiling, freeze window, site power, trip limits (R625), EVENT_EN. -/
def policyLimits : List (Nat × Nat) :=
  [(0x228, 0xFF), (0x229, 0xFF), (0x22A, 0x10), (0x22B, 0x27), (0x22C, 0xA0), (0x22D, 0x86), (0x22E, 0x01), (0x232, 0xE8),
   (0x233, 0x03), (0x234, 160), (0x260, 95), (0x261, 103), (0x262, 108), (0x263, 112), (0x264, 0x7E), (0x265, 0x04),
   (0x266, 0xB0), (0x267, 0x04), (0x268, 0x1F)]

/-- The quarantine policy (R578): INFO, LOG_READ, UPDATE_WRITE and UPDATE_SELECT from the host, and its reset (log entry 30);
no forwarding, no Plate key, no record-field group. -/
def quarantineByte (o : Nat) : Byte := byteIn ([(0x236, 0x01), (0x24A, 0x6A)] ++ policyLimits) o

/-- The factory policy's byte (R578). -/
def factoryByte (o : Nat) : Byte :=
  if (0x240 ≤ o ∧ o < 0x248) ∨ (0x250 ≤ o ∧ o < 0x260) ∨ (0x400 ≤ o ∧ o < 0x490 ∧ o % 16 < 8) then 0xFF
  else byteIn ([(0x210, 0xFF), (0x211, 0x0F), (0x212, 0x20), (0x213, 0x0D), (0x214, 0xFF), (0x215, 0x0F), (0x216, 0x1E),
    (0x217, 0x1E), (0x236, 0x0F), (0x248, 0xFF), (0x249, 0x01), (0x24A, 0xFE), (0x24C, 0xFE), (0x2000, 1)] ++ policyLimits) o

/-- Byte `o` of the policy that answers (R575); with the partition faulted, of the quarantine policy (R587).
(log entry 58 DEDUCED.) -/
def Chip.polByte (c : Chip) (o : Nat) : Byte :=
  if c.power.aonFault then quarantineByte o else smGet (fun _ => 0) c.sfl.body o

/-- Little-endian field of the policy. -/
def Chip.pol (c : Chip) (o n : Nat) : Nat := leNat ((List.range n).map (fun k => c.polByte (o + k)))

/-- Bit `n` of a mask at `o` of the policy. -/
def Chip.polBit (c : Chip) (o n : Nat) : Bool := bitOf (n % 8) (c.polByte (o + n / 8)).toNat

/-- Zone `i` may forward to zone `o` (R582). -/
def Chip.mayForward (c : Chip) (i o : Nat) : Bool := c.polBit (0x2000 + 32 * i) o

/-- Zone of a port (R575). -/
def Chip.portZone (c : Chip) (p : Nat) : Nat := (c.polByte p).toNat

/-- An SFL event is set; where it was 0 and its enable is 1, source 1,708 rises (R589). -/
def Chip.sflEvent (c : Chip) (f : Fld) : Chip := c.raise f

/-- The capture of a refusal, unless it holds one not yet read (R579, R580). -/
def Chip.deniedCapture (c : Chip) (source addr ctx : Nat) : Chip :=
  if c.sfl.deniedArmed then
    let c := { c with sfl := { c.sfl with deniedArmed := false } }
    ((c.putF F.SFL_LAST_DENIED0.ADDR addr).putF F.SFL_LAST_DENIED1.SOURCE source).putF F.SFL_LAST_DENIED1.CONTEXT
      (if source = 5 ∨ source = 6 then ctx else 0)
  else c

/-- A write of an SO field that is no part of a command is counted and captured (R579). -/
def Chip.denied (c : Chip) (source addr ctx : Nat) : Chip :=
  ((c.bump F.SFL_CNT_DENIED_WRITE.V).deniedCapture source addr ctx).sflEvent F.SFL_EVENTS.DENIED_WRITE

/-- One token in the units of a control-plane bucket: packets × 10^9 × 2^40, so that a rate per second gains exactly. -/
def cpUnit : Nat := 10 ^ 9 * 2 ^ 40

/-- Entry CP r takes a token, or finds none (R583). -/
def Chip.cpTake (c : Chip) (r : Nat) : Bool × Chip :=
  let rate := c.pol (0x400 + 16 * r) 4
  let burst := c.pol (0x404 + 16 * r) 4
  if rate = 0 ∨ burst = 0 then (false, c)
  else if rate = 2 ^ 32 - 1 then (true, c)
  else
    let used := smGet (fun _ => 0) c.sfl.cpTokens r - rate * (c.time.mt - smGet (fun _ => 0) c.sfl.cpTime r)
    let ok := decide (used + cpUnit ≤ burst * cpUnit)
    (ok, { c with sfl := { c.sfl with
      cpTokens := smSet (fun _ => 0) c.sfl.cpTokens r (if ok then used + cpUnit else used)
      cpTime := smSet (fun _ => 0) c.sfl.cpTime r c.time.mt } })

/-- A packet of punt REASON r meets its control-plane policer (R506, R583). -/
def Chip.cpPolice (c : Chip) (r : Nat) : Bool × Chip :=
  match c.cpTake r with
  | (true, c) => (true, c)
  | (false, c) => (false, (c.bump F.SFL_CNT_CP_DROP.V r).sflEvent F.SFL_EVENTS.CP_DROP)

/-- THROTTLE or HOLD is in force (R584). -/
def Chip.tripped (c : Chip) : Bool := c.getF F.SFL_STATUS.TRIP != 0

/-- HOLD is in force: every transmitter idle, arriving frames dropped (R584). -/
def Chip.tripHold (c : Chip) : Bool := c.getF F.SFL_STATUS.TRIP == 2

end Sys2Proof.Machine
end

