-- ==== Sys2Proof/Machine/Ring.lean ====
section
/-! DEFINITION. DMA rings (R502 to R508): delivery to the host in packet and record mode, and punts (R505, R506). -/
namespace Sys2Proof.Machine
open Sys2Proof

/-- A ring's state beyond its registers. -/
def Chip.ringSt (c : Chip) (n : Nat) : RingSt := smGet (fun _ => RingSt.init) c.host.rings n

/-- The chip with a ring's state set. -/
def Chip.setRing (c : Chip) (n : Nat) (r : RingSt) : Chip :=
  { c with host := { c.host with rings := smSet (fun _ => RingSt.init) c.host.rings n r } }

/-- Address of the descriptor of count `i` of ring `n` (R502). (log entry 6 DESIGN CHOICE.) -/
def Chip.descAt (c : Chip) (n i : Nat) : Nat :=
  c.getQ F.HST_RING_BASE.V n + 16 * (i % 2 ^ c.getF F.HST_RING_CFG.SIZE_LOG2 n)

/-- Descriptors posted and not consumed. -/
def Chip.posted (c : Chip) (n : Nat) : Nat :=
  (c.getF F.HST_RING_TAIL.V n + 2 ^ 16 - c.getF F.HST_RING_HEAD.V n) % 2 ^ 16

/-- Buffer bytes of a to-host descriptor (R503). -/
def Chip.bufSize (c : Chip) (n i : Nat) : Nat := leNat (memRead c.hostMem (c.descAt n i + 8) 4) % 2 ^ 17

/-- Buffer address of a descriptor. -/
def Chip.bufAddr (c : Chip) (n i : Nat) : Nat := leNat (memRead c.hostMem (c.descAt n i) 8)

/-- The ring takes items: not stopped (R508). -/
def Chip.ringOn (c : Chip) (n : Nat) : Bool := !c.flag F.HST_RING_STATUS.STOPPED n

/-- Write-back of a to-host descriptor (R503): USED, FLAGS and COUNT in one write; HEAD advances. -/
def Chip.complete (c : Chip) (n used flags count : Nat) : Chip :=
  let h := c.getF F.HST_RING_HEAD.V n
  let c := c.hostWrite (c.descAt n h + 8) (natLe 4 used ++ natLe 1 flags ++ natLe 3 count)
  let c := c.bumpWrap F.HST_RING_HEAD.V n
  c.setRing n { c.ringSt n with done := (c.ringSt n).done + 1 }

/-- The bytes each posted buffer takes of a packet; none where the posted buffers do not hold it. -/
def Chip.splitBuf (c : Chip) (n : Nat) : Nat → Nat → Nat → Option (List Nat)
  | _, _, 0 => some []
  | 0, _, _ => none
  | k + 1, i, len =>
    let t := min len (c.bufSize n i)
    (c.splitBuf n k (i + 1) (len - t)).map (t :: ·)

/-- A packet's bytes into its buffers, first buffer SOP (bit 1), last EOP (bit 2). -/
def Chip.fillBufs (c : Chip) (n : Nat) (first : Bool) : List Nat → Bytes → Chip
  | [], _ => c
  | t :: r, bs =>
    let c := c.hostWrite (c.bufAddr n (c.getF F.HST_RING_HEAD.V n)) (bs.take t)
    let c := c.complete n t (1 + 2 * b2n first + 4 * b2n r.isEmpty) 0
    c.fillBufs n false r (bs.drop t)

/-- An item is handed to a packet-mode ring (R504); it is dropped whole where it does not fit. -/
def Chip.ringPacket (c : Chip) (n : Nat) (bs : Bytes) : Bool × Chip :=
  if !c.ringOn n || c.flag F.HST_RING_CFG.MODE n then (false, c.bump F.HST_RING_CNT_DROP.V n)
  else match c.splitBuf n (c.posted n) (c.getF F.HST_RING_HEAD.V n) bs.length with
    | some ts => (true, c.fillBufs n true ts bs)
    | none => (false, c.bump F.HST_RING_CNT_DROP.V n)

/-- An open record buffer completes (R504). -/
def Chip.closeBuf (c : Chip) (n : Nat) : Chip :=
  let r := c.ringSt n
  if r.fill = 0 then c
  else
    let c := c.complete n r.fill 1 r.recs
    c.setRing n { c.ringSt n with fill := 0, recs := 0 }

/-- A record with its 8-byte header and padding (R504). -/
def recordBytes (source : Nat) (bs : Bytes) : Bytes :=
  natLe 4 bs.length ++ natLe 1 source ++ zerosB 3 ++ bs ++ zerosB ((8 - bs.length % 8) % 8)

/-- A record into the open buffer or the next one; false where no posted buffer can hold it. -/
def Chip.putRecord (c : Chip) (n : Nat) (rb : Bytes) : Bool × Chip :=
  let r := c.ringSt n
  let h := c.getF F.HST_RING_HEAD.V n
  if c.posted n = 0 ∨ c.bufSize n h < r.fill + rb.length then (false, c)
  else
    let c := c.hostWrite (c.bufAddr n h + r.fill) rb
    (true, c.setRing n { r with fill := r.fill + rb.length, recs := r.recs + 1 })

/-- A record is handed to a record-mode ring (R504); false where it is lost. -/
def Chip.ringRecord (c : Chip) (n source : Nat) (bs : Bytes) : Bool × Chip :=
  let rb := recordBytes source bs
  let lost (c : Chip) : Bool × Chip := (false, c.bump F.HST_RING_CNT_DROP.V n)
  if !c.ringOn n || !c.flag F.HST_RING_CFG.MODE n then lost c
  else match c.putRecord n rb with
    | (true, c) => (true, c)
    | (false, c) =>
      if (c.ringSt n).fill = 0 then lost c
      else match (c.closeBuf n).putRecord n rb with
        | (true, c) => (true, c)
        | (false, c) => lost c

/-! ### Punts (R505, R506) -/

/-- Metadata block of R505 from its fields. -/
def metaBlock (istamp inPort reason pass ver tmpl flow h1 len anom cls outPort iseq : Nat) (mat : Bytes) : Bytes :=
  natLe 8 istamp ++ natLe 2 inPort ++ natLe 1 reason ++ natLe 1 pass ++ natLe 2 ver ++ natLe 1 tmpl ++ natLe 1 flow
    ++ natLe 4 h1 ++ natLe 2 len ++ natLe 2 anom ++ natLe 1 cls ++ zerosB 1 ++ natLe 2 outPort ++ natLe 4 iseq
    ++ sliceB mat 0 20 ++ zerosB 12

/-- Metadata of a punted packet (R505). -/
def Pkt.meta (p : Pkt) (reason : Nat) : Bytes :=
  metaBlock p.istamp (p.port + 2 ^ 15 * b2n (p.src == 1)) reason p.pass (p.ver.getD 0)
    (match p.res.tmpl with | some t => 128 + t | none => 0)
    (match p.flow with | some r => 128 + frStatus r | none => 0)
    (if p.flow.isSome then p.h1 else 0) p.frame.length p.anom p.res.cls
    (if p.res.outKind = 0 then 2 ^ 15 + p.res.out % 512 else 0) (if p.src = 0 then p.iseq else 0) p.report

/-- A punted packet's data are handed to its ring (R506): false where they are dropped. -/
def Chip.puntData (c : Chip) (p : Pkt) (reason : Nat) : Bool × Chip :=
  if !c.flag F.HST_PUNT.ENABLE reason then (false, c.bump F.HST_CNT_PUNT_DROP.V)
  else match c.cpPolice reason with
    | (false, c) => (false, c.bump F.HST_CNT_PUNT_DROP.V)
    | (true, c) =>
      let x := if p.flow.isSome then p.h1 else p.port
      let n := (c.getF F.HST_PUNT.RING reason + x % 2 ^ c.getF F.HST_PUNT.SPREAD reason) % 512
      match c.ringPacket n (p.meta reason ++ p.frame) with
      | (true, c) => (true, c)
      | (false, c) => (false, c.bump F.HST_CNT_PUNT_DROP.V)

/-- A ring stops: what is posted stays (R508, R513). -/
def Chip.stopRing (c : Chip) (n : Nat) : Chip :=
  ((c.closeBuf n).putF F.HST_RING_STATUS.STOPPED 1 n).putF F.HST_RING_CFG.ENABLE 0 n

/-- The ring sends its vector's message (R508). (log entry 68 DESIGN CHOICE.) -/
def Chip.ringMessage (c : Chip) (n : Nat) : Chip :=
  (c.setRing n { c.ringSt n with done := 0 }).message (c.getF F.HST_RING_CFG.VECTOR n)

end Sys2Proof.Machine
end

