-- ==== Sys2Proof/Machine/Strip.lean ====
section
/-! DEFINITION. Test strips: their records and their ends (R480, R481). -/
namespace Sys2Proof.Machine
open Sys2Proof

/-- The record of a strip (R481). `out`: port and queue of the copy that carries the mark. -/
def stripRecord (p : Pkt) (s : Strip) (outcome reason : Nat) : Bytes :=
  let stage (k : Nat) : Bytes := natLe 4 (match smFind s.stamps k with
    | some t => min 0xFFFFFFFE ((t + 2 ^ 64 - p.istamp % 2 ^ 64) % 2 ^ 64 / 2 ^ 14)
    | none => 0xFFFFFFFF)
  natLe 8 p.istamp ++ natLe 1 1 ++ natLe 1 outcome ++ natLe 1 reason ++ natLe 1 (s.passes + 1) ++ natLe 2 p.port
    ++ natLe 2 (match s.copy with | some x => 2 ^ 15 + x.2.1 | none => 0) ++ natLe 4 p.iseq ++ natLe 2 (p.ver.getD 0)
    ++ natLe 1 (match p.res.tmpl with | some t => 128 + t | none => 0)
    ++ natLe 1 (match p.flow with
      | some r => 128 + 8 * b2n (smFind s.stamps 6).isSome + frStatus r
      | none => 0)
    ++ natLe 4 (if p.opSent then p.h1 else 0)
    ++ natLe 4 (match s.copy with | some x => 2 ^ 31 + x.2.2 | none => 0)
    ++ natLe 1 s.pipe ++ natLe 1 p.res.cls ++ zerosB 1 ++ natLe 1 (if p.opSent then 128 + p.h1 % 128 else 0)
    ++ natLe 4 (p.orig.length + 4) ++ (List.range 13).flatMap stage ++ zerosB 36

/-- A strip's record goes to its ring, or is lost. -/
def Chip.stripOut (c : Chip) (p : Pkt) (s : Strip) (outcome reason : Nat) : Chip :=
  match c.ringRecord (c.getF F.TEL_TS_CTRL.RING) 2 (stripRecord p s outcome reason) with
  | (true, c) => c
  | (false, c) => (c.bump F.TEL_TS_CNT_LOST.V).raise F.TEL_EVENTS.TS_LOST

/-- A strip ends (R481). -/
def Chip.endStrip (c : Chip) (pid outcome reason : Nat) : Chip :=
  match c.pkt pid with
  | none => c
  | some p => match p.strip with
    | none => c
    | some s =>
      let c := if s.timedOut then c
        else c.stripOut p { s with stamps := if (smFind s.stamps 12).isSome then s.stamps else smPut s.stamps 12 c.dtw } outcome reason
      c.updPkt pid fun p => { p with strip := none }

end Sys2Proof.Machine
end

