-- ==== Sys2Proof/Machine/Cells.lean ====
section
/-! DEFINITION. Buffer cells (R386 to R390, R396), the counts they drive (R388, R403) and the drop of a packet (R413). -/
namespace Sys2Proof.Machine
open Sys2Proof

/-! ### Accounts (R386, R387) -/

/-- Cells of a stored length (R386). -/
def cellsFor (n : Nat) : Nat := max 1 ((n + 255) / 256)

/-- F: free cells of the shared pool. -/
def Chip.freeCells (c : Chip) : Nat := c.getF F.TMG_FREE.V

/-- F set: the lowest value and FREE_LOW follow (R416). -/
def Chip.setFree (c : Chip) (n : Nat) : Chip :=
  let c1 := c.putF F.TMG_FREE.V n
  let c1 := if n < c.getF F.TMG_FREE_MIN.V then c1.putF F.TMG_FREE_MIN.V n else c1
  let w := c.getF F.TMG_FREE_WARN.V
  if n < w ∧ w ≤ c.freeCells then c1.raise F.TMG_EVENTS.FREE_LOW else c1

/-- Cells charged to a slice's ING reserve. -/
def Chip.ingRes (c : Chip) (s : Nat) : Nat := smGet (fun _ => 0) c.tm.ingRes s

/-- The chip with a slice's ING reserve charge set. -/
def Chip.setIngRes (c : Chip) (s n : Nat) : Chip := { c with tm := { c.tm with ingRes := smSet (fun _ => 0) c.tm.ingRes s n } }

/-- What an ING reserve can still take. -/
def Chip.ingRoom (c : Chip) (s : Nat) : Nat := c.getF F.TMG_ING_MIN.V s - c.ingRes s

/-- The condition of R389 for a charge of `m` cells of a slice. -/
def Chip.headFits (c : Chip) (s m : Nat) : Bool :=
  decide (c.getF F.TMG_ING_USED.V s + 48 ≤ c.getF F.TMG_ING_MAX.V s) && decide (m - c.ingRoom s ≤ c.freeCells)

/-- A packet charges `m` cells, its slice's ING reserve first (R389). (log entry 93 DEDUCED.) -/
def Chip.chargeCells (c : Chip) (pid m : Nat) : Chip :=
  match c.pkt pid with
  | none => c
  | some p =>
    let i := min m (c.ingRoom p.slice)
    let c := (c.setIngRes p.slice (c.ingRes p.slice + i)).setFree (c.freeCells - (m - i))
    c.setPkt pid { p with ingC := p.ingC + i, shC := p.shC + (m - i) }

/-- A packet returns charge to the accounts it came from: shared pool, then reserve, then headroom. -/
def Chip.returnCells (c : Chip) (pid n : Nat) : Chip :=
  match c.pkt pid with
  | none => c
  | some p =>
    let sh := min n p.shC
    let i := min (n - sh) p.ingC
    let h := min (n - sh - i) p.hrC
    let c := (c.setIngRes p.slice (c.ingRes p.slice - i)).setFree (c.freeCells + sh)
    let c := c.sink F.TMG_PORT_HR_USED.V p.port 0 h
    c.setPkt pid { p with ingC := p.ingC - i, shC := p.shC - sh, hrC := p.hrC - h }

/-! ### PFC and PAUSE generation (R403) -/

/-- A change of a port's XOFF state: a MAC control frame is due. `back`: priorities that returned to XON. -/
def Chip.pfcChange (c : Chip) (p back : Nat) : Chip :=
  let old := smGet (fun _ => 0) c.tm.pfcDue p
  let c := { c with tm := { c.tm with pfcDue := smSet (fun _ => 0) c.tm.pfcDue p (256 + Nat.lor (old % 256) back) } }
  c.condEv 8 p 4 (c.getF F.TMG_PORT_PFC.STATE p != 0)

/-- Priority r of port p after a change of IN[p][r], of a threshold or of EN (R403). Without its EN bit a priority is in XON.
(log entry 114 DEDUCED.) -/
def Chip.pfcEval (c : Chip) (p r : Nat) : Chip :=
  let mode := c.getF F.PRT_CFG.PAUSE_MODE p
  let st := c.getF F.TMG_PORT_PFC.STATE p
  let xoff := c.getF F.TMG_PORT_XOFF.V p
  let xon := c.getF F.TMG_PORT_XON.V p
  if mode = 2 ∧ bitOf r (c.getF F.TMG_PORT_PFC.EN p) then
    let n := c.getF F.TMG_PORT_IN.V p r
    if !bitOf r st && decide (xon < xoff) && decide (xoff ≤ n) then
      ((c.putF F.TMG_PORT_PFC.STATE (st + 2 ^ r) p).raise F.TMG_EVENTS.XOFF).pfcChange p 0
    else if bitOf r st && decide (n ≤ xon) then (c.putF F.TMG_PORT_PFC.STATE (st - 2 ^ r) p).pfcChange p (2 ^ r)
    else c
  else if mode = 1 then
    let n := ((List.range 8).map (fun r => c.getF F.TMG_PORT_IN.V p r)).foldl (· + ·) 0
    if st = 0 ∧ xon < xoff ∧ xoff ≤ n then
      ((c.putF F.TMG_PORT_PFC.STATE 255 p).raise F.TMG_EVENTS.XOFF).pfcChange p 0
    else if st ≠ 0 ∧ n ≤ xon then (c.putF F.TMG_PORT_PFC.STATE 0 p).pfcChange p 255
    else c
  else if mode = 2 ∧ bitOf r st then (c.putF F.TMG_PORT_PFC.STATE (st - 2 ^ r) p).pfcChange p (2 ^ r)
  else c

/-- Every priority of a port is judged again. -/
def Chip.pfcJudge (c : Chip) (p : Nat) : Chip := (List.range 8).foldl (fun c r => c.pfcEval p r) c

/-! ### Cells held (R386, R388) -/

/-- Cells in use of a bank. -/
def Chip.bankUse (c : Chip) (b : Nat) : Nat := smGet (fun _ => 0) c.tm.bankUsed b

/-- The chip with a bank's use set. -/
def Chip.setBankUse (c : Chip) (b n : Nat) : Chip :=
  { c with tm := { c.tm with bankUsed := smSet (fun _ => 0) c.tm.bankUsed b n } }

/-- The next bank after `b`, ascending modulo 48, in allocation and with a free cell (R386). -/
def Chip.nextBank (c : Chip) (b : Nat) : Nat :=
  (((List.range 48).map (fun k => (b + 1 + k) % 48)).find? (fun x =>
    !c.tm.bankOut.contains x && decide (c.bankUse x < 32768))).getD ((b + 1) % 48)

/-- `n` cells are taken after bank `b`; the banks in order. -/
def Chip.takeBanks (c : Chip) : Nat → Nat → List Nat × Chip
  | 0, _ => ([], c)
  | n + 1, b =>
    let x := c.nextBank b
    match (c.setBankUse x (c.bankUse x + 1)).takeBanks n x with
    | (bs, c) => (x :: bs, c)

/-- A packet holds `n` cells: its banks, ING[s] before admission, IN[p][r] for a received frame, PEND[s] (R388). -/
def Chip.holdCells (c : Chip) (pid n : Nat) : Chip :=
  match c.pkt pid with
  | none => c
  | some p =>
    let taken : List Nat × Chip :=
      if p.cells ≤ n then
        let first := p.banks.isEmpty
        match c.takeBanks (n - p.cells) (if first then c.tm.lastBank else p.banks.getLastD 0) with
        | (bs, c) => (p.banks ++ bs, if first then { c with tm := { c.tm with lastBank := bs.headD c.tm.lastBank } } else c)
      else (p.banks.take n, (p.banks.drop n).foldl (fun c b => c.setBankUse b (c.bankUse b - 1)) c)
    match taken with
    | (bs, c) =>
      let c := c.setPkt pid { p with cells := n, banks := bs }
      let c := if p.stage = .admitted then c
        else c.putF F.TMG_ING_USED.V (c.getF F.TMG_ING_USED.V p.slice + n - p.cells) p.slice
      let c := if p.pendTag.isSome then
          let k := smGet (fun _ => 0) c.tm.pendCells p.slice + n - p.cells
          { c with tm := { c.tm with pendCells := smSet (fun _ => 0) c.tm.pendCells p.slice k } }
        else c
      if p.src = 0 then
        (c.putF F.TMG_PORT_IN.V (c.getF F.TMG_PORT_IN.V p.port p.prio + n - p.cells) p.port p.prio).pfcEval p.port p.prio
      else c

/-- The charge of a packet is set to the cells it holds (R389, R396). -/
def Chip.settleCells (c : Chip) (pid : Nat) : Chip :=
  match c.pkt pid with
  | none => c
  | some p =>
    let have_ := p.ingC + p.shC + p.hrC
    if p.cells ≤ have_ then c.returnCells pid (have_ - p.cells)
    else (c.setFree (c.freeCells - (p.cells - have_))).setPkt pid { p with shC := p.shC + (p.cells - have_) }

/-- A packet's cells are freed. -/
def Chip.freePkt (c : Chip) (pid : Nat) : Chip := (c.holdCells pid 0).settleCells pid

/-! ### Pending pools (R390) -/

/-- Cells a packet counts for at admission and at a pending pool: those it holds, or those of its length bound (R396). -/
def Chip.admCells (c : Chip) (p : Pkt) : Nat := if p.tail = 0 then cellsFor (c.lengthBound p - 4) else p.cells

/-- A packet leaves its pending pool. -/
def Chip.unpark (c : Chip) (pid : Nat) : Chip :=
  match c.pkt pid with
  | none => c
  | some p => match p.pendTag with
    | none => c
    | some t =>
      let c := { c with tm := { c.tm with
        pend := smErase c.tm.pend t
        pendCells := smSet (fun _ => 0) c.tm.pendCells p.slice (smGet (fun _ => 0) c.tm.pendCells p.slice - p.cells) } }
      c.setPkt pid { p with pendTag := none }

/-- The free entry a slice's pool gives, none where it is full. -/
def Chip.pendFree (c : Chip) (s : Nat) : Option Nat :=
  if 16384 ≤ (c.tm.pend.filter (fun e => e.1 / 2 ^ 14 == s)).length then none
  else (List.range 16384).findSome? (fun k => if (smFind c.tm.pend (s * 2 ^ 14 + k)).isNone then some (s * 2 ^ 14 + k) else none)

/-- A packet enters its slice's pending pool; none: it cannot be parked. The c of R390 is that of R396.
(log entry 115 DEDUCED.) -/
def Chip.park (c : Chip) (pid : Nat) : Option Chip :=
  match c.pkt pid with
  | none => none
  | some p =>
    let used := smGet (fun _ => 0) c.tm.pendCells p.slice
    if c.getF F.TMG_PEND_MAX.V p.slice < used + c.admCells p then none
    else (c.pendFree p.slice).map (fun t =>
      ({ c with tm := { c.tm with
          pend := smPut c.tm.pend t pid
          pendCells := smSet (fun _ => 0) c.tm.pendCells p.slice (used + p.cells) } }).setPkt pid
        { p with pendTag := some t, stage := .pending })

/-! ### Drops (R413, R469) -/

/-- A packet takes no further part: its cells, its pending entry and its waits are released. Its frame may still arrive. -/
def Chip.endPkt (c : Chip) (pid : Nat) : Chip :=
  let c := (c.unpark pid).freePkt pid
  let rq : SMap (List Nat) := (c.tm.recirc.map (fun (e : Nat × List Nat) => (e.1, e.2.filter (· != pid)))).filter
    (fun (e : Nat × List Nat) => !e.2.isEmpty)
  let c := { c with
    tm := { c.tm with recirc := rq }
    pattern := { c.pattern with
      queue := c.pattern.queue.filter (fun e => e.1 != pid)
      engines := c.pattern.engines.filter (fun e => e.2 != pid) } }
  match c.pkt pid with
  | none => c
  | some p =>
    if p.src = 0 ∧ p.tail = 0 ∧ (c.portSt p.port).arriving = some pid then
      c.setPkt pid { p with stage := .gone, ctx := none, inflight := false, copies := [] }
    else c.rmPkt pid

/-- Port statistics of the packet's port, for received frames only. -/
def Chip.statPkt (c : Chip) (pid slot : Nat) : Chip :=
  match c.pkt pid with
  | some p => if p.src = 0 then c.stat p.port slot else c
  | none => c

/-- A packet is dropped by its verdict (slot 13). (log entry 93 DEDUCED.) -/
def Chip.dropVerdict (c : Chip) (pid : Nat) : Chip := ((c.statPkt pid 13).endStrip pid 2 0x20).endPkt pid

/-- A packet is dropped before admission for another reason (slot 15); `code`: the REASON of its strip. -/
def Chip.dropOther (c : Chip) (pid code : Nat) : Chip := ((c.statPkt pid 15).endStrip pid 2 code).endPkt pid

/-- TMG_DROP of a reason code. -/
def Chip.tmDrop (c : Chip) (code : Nat) : Chip := c.bumpQ 48 F.TMG_DROP.V code

/-- A packet without a copy is dropped by the traffic manager (R413). -/
def Chip.dropTm (c : Chip) (pid code : Nat) : Chip := (c.tmDrop code).dropOther pid code

/-- A packet is trapped or punted to the host (R506): slot 14, then its data to the ring of its reason. A packet whose tail
has not arrived waits for it. -/
def Chip.punt (c : Chip) (pid reason : Nat) : Chip :=
  match c.pkt pid with
  | none => c
  | some p =>
    if p.tail = 0 then (c.unpark pid).updPkt pid fun (p : Pkt) => { p with stage := Stage.trapWait, trap := reason }
    else (((c.statPkt pid 14).puntData p reason).2.endStrip pid 3 0).endPkt pid

end Sys2Proof.Machine
end

