-- ==== Sys2Proof/Machine/RuleTab.lean ====
section
/-! DEFINITION. Rule tables (R155 to R169): regions, entries and their versions, placement, staging and LOOKUP. -/
namespace Sys2Proof.Machine
open Sys2Proof

/-! ### Versions (R157, R160) -/

/-- Current version. -/
def Chip.curV (c : Chip) : Nat := c.getF F.CLS_VERSION.CUR
/-- Oldest live version. -/
def Chip.oldV (c : Chip) : Nat := c.getF F.CLS_VERSION.OLDEST
/-- CLS_NEXT. -/
def Chip.nextV (c : Chip) : Nat := (c.curV + 1) % 2 ^ 16
/-- Distance from the oldest live version (R160). -/
def Chip.verDist (c : Chip) (x : Nat) : Nat := (x + 2 ^ 16 - c.oldV) % 2 ^ 16
/-- Live versions. -/
def Chip.liveCount (c : Chip) : Nat := c.verDist c.curV + 1
/-- A version is live (R157). -/
def Chip.liveV (c : Chip) (v : Nat) : Bool := decide (c.verDist v < c.liveCount)

/-- visible(e, v) of R160; an entry held in the state is USED. -/
def Chip.visible (c : Chip) (e : REntry) (v : Nat) : Bool :=
  if !e.base && decide (c.verDist v < c.verDist e.fromV) then false
  else if !e.opn && decide (c.verDist e.untilV ≤ c.verDist v) then false
  else true

/-- A staged addition. -/
def Chip.stagedAdd (c : Chip) (e : REntry) : Bool := !e.base && e.fromV == c.nextV
/-- Visible in CUR without a staged deletion. -/
def Chip.standing (c : Chip) (e : REntry) : Bool := !c.stagedAdd e && e.opn && c.visible e c.curV

/-! ### Regions (R155, R179) -/

/-- The first 128 bytes of a region's section. -/
def Chip.regionHdr (c : Chip) (r : Nat) : Bytes := smGet (fun _ => []) c.rules.regions r
/-- KIND: 0 absent, 1 EM20, 2 EM52, 3 LPM, 4 ACTION, 5 ENCAP, 6 TERNARY. -/
def Chip.rKind (c : Chip) (r : Nat) : Nat := byteAt (c.regionHdr r) 0
/-- FLAGS.PREPEND_VRF. -/
def Chip.rVrf (c : Chip) (r : Nat) : Bool := bitOf 0 (byteAt (c.regionHdr r) 1)
/-- SIZE in units. -/
def Chip.rSize (c : Chip) (r : Nat) : Nat := leAt (c.regionHdr r) 4 4
/-- MISS_ACT. -/
def Chip.rMiss (c : Chip) (r : Nat) : Nat := leAt (c.regionHdr r) 8 4 % 2 ^ 22
/-- SOURCE. -/
def Chip.rSource (c : Chip) (r : Nat) : Bytes := sliceB (c.regionHdr r) 16 16
/-- SEED. -/
def Chip.rSeed (c : Chip) (r : Nat) : Nat := leAt (c.regionHdr r) 32 4
/-- The START mask names a port. -/
def Chip.rStart (c : Chip) (r p : Nat) : Bool := bitOf (p % 8) (byteAt (c.regionHdr r) (64 + p / 8))

/-- Body bytes of an entry after its header (R161 to R163). -/
def bodyLen (kind : Nat) : Nat := match kind with | 1 => 24 | 2 => 56 | 3 => 24 | 4 => 24 | 5 => 56 | _ => 0
/-- Units of an entry (R155). -/
def entUnits (kind : Nat) : Nat := match kind with | 1 => 1 | 2 => 2 | 3 => 1 | 4 => 1 | 5 => 2 | _ => 0
/-- Entry capacity by kind and SIZE (R155). -/
def capacity (kind size : Nat) : Nat :=
  match kind with
  | 1 => size | 2 => size / 2 | 3 => size | 4 => min size 131072 | 5 => min (size / 2) 65536 | _ => 0

/-- ACT_IDX none (R156). -/
def actNone : Nat := 0x3FFFFF

/-- Place number of an entry: region × 2^22 + place. (log entry 103 DESIGN CHOICE.) -/
def placeKey (r p : Nat) : Nat := r * 2 ^ 22 + p

/-- The entry at a place. -/
def Chip.entryAt (c : Chip) (r p : Nat) : Option REntry := smFind c.rules.entries (placeKey r p)

/-- The entries of a region with their places. -/
def Chip.regionEntries (c : Chip) (r : Nat) : List (Nat × REntry) :=
  (c.rules.entries.filter (fun e => e.1 / 2 ^ 22 == r)).map (fun e => (e.1 % 2 ^ 22, e.2))

/-- Key length of an exact-match kind. -/
def emKeyLen (kind : Nat) : Nat := if kind = 1 then 20 else 52

/-- The two buckets of a key (R155, R214): NK buckets, a power of two. -/
def bucketsOf (h nk : Nat) : Nat × Nat :=
  let b1 := h % nk
  (b1, Nat.xor b1 (((h / 2 ^ 16) * 0x9E3779B1) % nk))

/-- The buckets of an exact-match key in a region. -/
def Chip.emBuckets (c : Chip) (r : Nat) (key : Bytes) : Nat × Nat :=
  bucketsOf (crc32c (c.rSeed r) key) (capacity (c.rKind r) (c.rSize r) / 4)

/-- The four places of a bucket. -/
def bucketPlaces (b : Nat) : List Nat := [4 * b, 4 * b + 1, 4 * b + 2, 4 * b + 3]

/-- Key of an exact-match body. -/
def emKey (kind : Nat) (body : Bytes) : Bytes := sliceB body 4 (emKeyLen kind)

/-- Identity of a longest-prefix body: PLEN, VRF, AF and PREFIX. -/
def lpmId (body : Bytes) : Bytes := sliceB body 3 4 ++ sliceB body 8 16

/-- Entries of a region with the identity of a body or index, with their places. -/
def Chip.sameIdent (c : Chip) (r : Nat) (body : Bytes) (idx : Nat) : List (Nat × REntry) :=
  let at' (ps : List Nat) := ps.filterMap (fun p => (c.entryAt r p).map (fun e => (p, e)))
  match c.rKind r with
  | 3 => (c.regionEntries r).filter (fun e => lpmId e.2.body == lpmId body)
  | 4 => at' [idx]
  | 5 => at' [idx]
  | k =>
    let bs := c.emBuckets r (emKey k body)
    let ps := if bs.1 = bs.2 then bucketPlaces bs.1 else bucketPlaces bs.1 ++ bucketPlaces bs.2
    (at' ps).filter (fun e => emKey k e.2.body == emKey k body)

/-! ### Placement (R155) -/

/-- Free places of a bucket, lowest first. -/
def Chip.freeIn (c : Chip) (r b : Nat) : List Nat := (bucketPlaces b).filter (fun p => (c.entryAt r p).isNone)

/-- The move that frees a place, if any: a resident entry of `b` into the lowest free place of its other bucket. -/
def Chip.emMove (c : Chip) (r : Nat) (b : Nat) : Option (Nat × Nat) :=
  (bucketPlaces b).findSome? (fun p => (c.entryAt r p).bind (fun e =>
    let bs := c.emBuckets r (emKey (c.rKind r) e.body)
    let o := if bs.1 = b then bs.2 else bs.1
    if o = b then none else (c.freeIn r o).head?.map (fun q => (p, q))))

/-- The lowest number below `n` that a test accepts. -/
def firstBelow (n : Nat) (ok : Nat → Bool) : Option Nat :=
  (List.range n).find? ok

/-- Place of an addition, and the move it takes first. -/
def Chip.planPlace (c : Chip) (r : Nat) (body : Bytes) (idx : Nat) : Option (Nat × Option (Nat × Nat)) :=
  match c.rKind r with
  | 4 => some (idx, none)
  | 5 => some (idx, none)
  | 3 =>
    let es := c.regionEntries r
    -- the lowest free number: among the first (entries + 1) numbers one is free
    if capacity 3 (c.rSize r) ≤ es.length then none
    else (firstBelow (es.length + 1) (fun p => !(es.any (fun e => e.1 == p)))).map (fun p => (p, none))
  | k =>
    let bs := c.emBuckets r (emKey k body)
    let f1 := c.freeIn r bs.1
    let f2 := c.freeIn r bs.2
    match (if f1.length < f2.length then f2 else f1).head? with
    | some p => some (p, none)
    | none =>
      match (match c.emMove r bs.1 with | some m => some m | none => c.emMove r bs.2) with
      | some m => some (m.1, some m)
      | none => none

/-- The chip with the entry of a place set. -/
def Chip.putEntry (c : Chip) (r p : Nat) (e : REntry) : Chip :=
  { c with rules := { c.rules with entries := smPut c.rules.entries (placeKey r p) e } }

/-- The changes of the latent set and of the change lists, each place renamed. -/
def Chip.renameChanges (c : Chip) (f : Change → Change) : Chip :=
  { c with rules := { c.rules with
    latent := c.rules.latent.map f
    lists := c.rules.lists.map (fun l => (l.1, l.2.map f)) } }

/-- An entry moves to another place (R155); the changes that name it follow. -/
def Chip.moveEntry (c : Chip) (r p q : Nat) : Chip :=
  match c.entryAt r p with
  | none => c
  | some e =>
    let c := { c with rules := { c.rules with
      entries := smErase (smPut c.rules.entries (placeKey r q) e) (placeKey r p) } }
    c.renameChanges (fun x => if !x.tern && x.place == placeKey r p then { x with place := placeKey r q } else x)

/-- An entry is freed. -/
def Chip.freeEntry (c : Chip) (pk : Nat) : Chip :=
  let r := pk / 2 ^ 22
  { (c.sink F.CLS_REGION_USED.V r 0 (entUnits (c.rKind r))) with
    rules := { c.rules with entries := smErase c.rules.entries pk } }

/-- CLS_LATENT, CLS_CHANGES_USED and CLS_LIVE follow the state. -/
def Chip.syncRules (c : Chip) : Chip :=
  let c := c.putF F.CLS_LATENT.V c.rules.latent.length
  let c := c.putF F.CLS_CHANGES_USED.V ((c.rules.lists.map (fun l => l.2.length)).foldl (· + ·) 0)
  let c := c.putF F.CLS_LIVE.LIVE c.liveCount
  c.putF F.CLS_LIVE.SCHEDULED (b2n c.rules.fixAt.isSome)

/-- Change-list places the latent set and the live lists need together (R168). -/
def Chip.changesNeeded (c : Chip) : Nat :=
  c.rules.latent.length + (c.rules.lists.map (fun l => l.2.length)).foldl (· + ·) 0

/-- The latent set would exceed its limits with `n` more changes (R168 LATENT_FULL). -/
def Chip.latentFull (c : Chip) (n : Nat) : Bool :=
  decide (65536 < c.rules.latent.length + n) || decide (262144 < c.changesNeeded + n)

/-- A change joins the latent set. -/
def Chip.addChange (c : Chip) (x : Change) : Chip :=
  { c with rules := { c.rules with latent := c.rules.latent ++ [x] } }

/-- A change leaves the latent set. -/
def Chip.dropChange (c : Chip) (x : Change) : Chip :=
  { c with rules := { c.rules with latent := c.rules.latent.filter (· != x) } }

/-! ### Field checks (R168, R629) -/

/-- Some bit of `hi:lo` of byte `o` is 1. -/
def bitsSet (b : Bytes) (o hi lo : Nat) : Bool := bitsOf hi lo (byteAt b o) != 0

/-- An LPM body's identity fields are malformed (R161). -/
def lpmBad (b : Bytes) : Bool :=
  let af := byteAt b 6
  let plen := byteAt b 3
  let w := if af = 4 then 32 else 128
  let addr := if af = 4 then beAt b 20 4 else beAt b 8 16
  (af != 4 && af != 6) || decide (w < plen) || (af == 4 && beAt b 8 12 != 0) || addr % 2 ^ (w - plen) != 0

/-- The bit of SET of an ACTION body. -/
def actSet (b : Bytes) (n : Nat) : Bool := bitOf n (beAt b 0 2)

/-- An ACTION body has a reserved bit set in a group it sets (R162, R629). -/
def actionBad (b : Bytes) : Bool :=
  bitsOf 15 11 (beAt b 0 2) != 0
  || (actSet b 0 && (bitsSet b 2 7 2 || bitsOf 1 0 (byteAt b 2) == 3))
  || (actSet b 1 && bitsSet b 3 7 4)
  || (actSet b 2 && bitsOf 27 16 (beAt b 4 4) != 0)
  || (actSet b 3 && bitsSet b 8 6 6)
  || (actSet b 7 && bitsSet b 14 7 2)
  || (actSet b 9 && (bitsSet b 18 7 4 || bitsOf 1 0 (byteAt b 18) == 3))
  || (actSet b 10 && bitsSet b 21 7 6)

/-- A body to be staged has a malformed field (R168 FIELD). -/
def bodyBad (kind : Nat) (b : Bytes) : Bool :=
  match kind with
  | 4 => actionBad b
  | 5 => decide (52 < byteAt b 0) || bitsSet b 3 7 1
  | 3 => bitsSet b 0 7 6 || byteAt b 7 != 0 || lpmBad b
  | _ => bitsSet b 0 7 6 || byteAt b 3 != 0

/-- The entry an ACT_IDX names stands for staging: none, or an entry of that kind standing or staged (R168). -/
def Chip.actOk (c : Chip) (kind a : Nat) : Bool :=
  a == actNone || (c.rKind (a / 2 ^ 17) == kind &&
    match c.entryAt (a / 2 ^ 17) (a % 2 ^ 17) with
    | some e => c.stagedAdd e || c.standing e
    | none => false)

/-- ACT_IDX or ENCAP of a body stands (R168 ACT_NOT_VISIBLE, R629). -/
def Chip.bodyActOk (c : Chip) (kind : Nat) (b : Bytes) : Bool :=
  match kind with
  | 4 => !actSet b 10 || c.actOk 5 (beAt b 21 3)
  | 5 => true
  | _ => c.actOk 4 (beAt b 0 3)

/-! ### Staging (R167, R168) -/

/-- The body in CLS_STAGE_DATA. -/
def Chip.stageBody (c : Chip) (kind : Nat) : Bytes := c.getBytes F.CLS_STAGE_DATA.V.base (bodyLen kind)

/-- An addition takes its place: `plan` as `planPlace` gave it. -/
def Chip.doAdd (c : Chip) (r : Nat) (body : Bytes) (plan : Nat × Option (Nat × Nat)) : Chip :=
  let c := match plan.2 with | some m => c.moveEntry r m.1 m.2 | none => c
  let c := c.putEntry r plan.1 ⟨c.nextV, 0, false, true, body⟩
  let c := c.bump F.CLS_REGION_USED.V r 0 (entUnits (c.rKind r))
  c.addChange ⟨true, false, placeKey r plan.1⟩

/-- A deletion is staged on a standing entry. -/
def Chip.doDel (c : Chip) (r p : Nat) (e : REntry) : Chip :=
  (c.putEntry r p { e with untilV := c.nextV, opn := false }).addChange ⟨false, false, placeKey r p⟩

/-- A staging command on `body`: 1 STAGE_ADD, 2 STAGE_DEL, 3 STAGE_MOD. Answers status, REASON and the chip. -/
def Chip.stageBodyCmd (c : Chip) (op r : Nat) (body : Bytes) (idx : Nat) (locked : Bool) : Nat × Nat × Chip :=
  let k := c.rKind r
  let same := c.sameIdent r body idx
  let staged := (same.filter (fun e => c.stagedAdd e.2)).head?
  let stand := (same.filter (fun e => c.standing e.2)).head?
  if k = 0 ∨ 6 ≤ k ∨ (op = 3 ∧ 4 ≤ k) then (stInvalid, 1, c)
  else if (4 ≤ k && decide (capacity k (c.rSize r) ≤ idx)) || (op != 2 && bodyBad k body)
      || (op == 2 && k == 3 && lpmBad body) then (stInvalid, 2, c)
  else if op = 1 ∧ (stand.isSome || (decide (4 ≤ k) && !same.isEmpty && staged.isNone)) = true then (stInvalid, 3, c)
  else if op ≠ 1 ∧ staged.isNone = true ∧ stand.isNone = true then (stInvalid, 4, c)
  else if op ≠ 2 ∧ c.bodyActOk k body = false then (stInvalid, 5, c)
  else if locked then (stDenied, 6, c)
  else match op, staged, stand with
    | 2, some (p, _), _ =>
      (stOk, 0, (c.freeEntry (placeKey r p)).dropChange ⟨true, false, placeKey r p⟩)
    | 2, none, some (p, e) => if c.latentFull 1 then (stBusy, 9, c) else (stOk, 0, c.doDel r p e)
    | _, some (p, e), _ => (stOk, 0, c.putEntry r p { e with body := body })
    | _, none, _ =>
      match c.planPlace r body idx with
      | none => (stBusy, 8, c.bump F.CLS_CNT_TABLE_FULL.V)
      | some plan =>
        if c.latentFull (if op = 3 then 2 else 1) then (stBusy, 9, c)
        else match op, stand with
          | 3, some (p, e) =>
            -- the deletion is staged before the addition's move, which may then carry it along
            (stOk, 0, (c.doDel r p e).doAdd r body plan)
          | _, _ => (stOk, 0, c.doAdd r body plan)

/-- A CLS command completes with its status and REASON. -/
def Chip.clsDone (c : Chip) (st reason : Nat) : Chip :=
  ((c.syncRules).putF F.CLS_CMD_STATUS.REASON reason).finish portCls st

/-- A staging command of the host (R167). -/
def Chip.stageCmd (c : Chip) (op r : Nat) : Chip := c.command portCls fun c =>
  let k := c.rKind r
  match c.stageBodyCmd op r (c.stageBody k) (c.getF F.CLS_CMD_INDEX.V) (c.polBit 0x238 r) with
  | (st, reason, c) =>
    let c := if st = stDenied then c.deniedCapture 1 0x600000 0 else c
    c.clsDone st reason

/-- LOOKUP (R167). -/
def Chip.lookupCmd (c : Chip) (r : Nat) : Chip := c.command portCls fun c =>
  let k := c.rKind r
  let v := c.getF F.CLS_CMD_VERSION.V
  let idx := c.getF F.CLS_CMD_INDEX.V
  if k = 0 ∨ 6 ≤ k then c.clsDone stInvalid 1
  else if (4 ≤ k && decide (capacity k (c.rSize r) ≤ idx)) || (k == 3 && lpmBad (c.stageBody k)) then c.clsDone stInvalid 2
  else match (c.sameIdent r (c.stageBody k) idx).find? (fun e => c.visible e.2 v) with
    | some (_, e) =>
      if c.liveV v then (c.putWords F.CLS_STAGE_DATA.V.base (sliceB e.body 0 64)).clsDone stOk 0
      else c.clsDone stInvalid 4
    | none => c.clsDone stInvalid 4

end Sys2Proof.Machine
end

