-- ==== Sys2Proof/Machine/Egress.lean ====
section
/-! DEFINITION. The egress pipe (R149, R150, R163, R265, R630): rewrite, DECAP, tags and ENCAP of a frame. -/
namespace Sys2Proof.Machine
open Sys2Proof

/-! ### Parse summary (R149) -/

/-- The level of the parse summary: the key level of the packet's template, or KD's. -/
def Chip.keyLevel (c : Chip) (p : Pkt) : Nat :=
  match p.res.tmpl with
  | some t => if bitOf 1 (byteAt (sliceB c.flow.templates (64 * t) 1) 0) then p.kdLevel else 0
  | none => p.kdLevel

/-- A marked offset of a level record: byte `f` of it; none where its valid bit is 0. -/
def markOfs (hv : Bytes) (lvl f : Nat) : Option Nat :=
  let x := beAt hv (32 + 16 * lvl + f) 2
  if bitOf 15 x then some (x % 1024) else none

/-- L3_OFS, L4_OFS, PAY_OFS of the summary. -/
def Chip.l3Ofs (c : Chip) (p : Pkt) : Option Nat := markOfs p.hv (c.keyLevel p) 4
def Chip.l4Ofs (c : Chip) (p : Pkt) : Option Nat := markOfs p.hv (c.keyLevel p) 6
def Chip.payOfs (c : Chip) (p : Pkt) : Option Nat := markOfs p.hv (c.keyLevel p) 8
/-- L3_TYPE and L4_TYPE of the summary. -/
def Chip.l3Type (c : Chip) (p : Pkt) : Nat := byteAt p.hv (32 + 16 * c.keyLevel p + 11)
def Chip.l4Type (c : Chip) (p : Pkt) : Nat := byteAt p.hv (32 + 16 * c.keyLevel p + 12)

/-! ### Step 1: the flow rewrite -/

/-- Complements of the bytes of a string. -/
def notB (bs : Bytes) : Bytes := bs.map (fun b => BitVec.ofNat 8 (255 - b.toNat))

/-- RFC 1624: the checksum after `old` became `new`, strings of even length. -/
def sumUpdate (hc : Nat) (old new : Bytes) : Nat := 65535 - onesSum (notB old ++ new) (65535 - hc)

/-- A checksum field of a frame updated. (log entry 78 DEDUCED.) -/
def fixSum (fr : Bytes) (o : Nat) (old new : Bytes) : Bytes := putBe fr o 2 (sumUpdate (beAt fr o 2) old new)

/-- The checksum of the L4 header at `l4` after a change of the pseudo-header (`ao` to `an`) and of L4 bytes (`po` to `pn`).
(log entry 78 DEDUCED.) -/
def fixL4 (fr : Bytes) (l3t l4t l4 : Nat) (ao an po pn : Bytes) : Bytes :=
  match l4t with
  | 1 => fixSum fr (l4 + 16) (ao ++ po) (an ++ pn)
  | 2 =>
    if l3t = 1 ∧ beAt fr (l4 + 6) 2 = 0 then fr
    else
      let fr := fixSum fr (l4 + 6) (ao ++ po) (an ++ pn)
      if beAt fr (l4 + 6) 2 = 0 then putBe fr (l4 + 6) 2 0xFFFF else fr
  | 3 => if po.isEmpty then fr else fixSum fr (l4 + 2) po pn
  | 4 => fixSum fr (l4 + 2) (ao ++ po) (an ++ pn)
  | _ => fr

/-- An echo request or reply. -/
def isEcho (fr : Bytes) (l4t l4 : Nat) : Bool :=
  (l4t == 3 && (byteAt fr l4 == 8 || byteAt fr l4 == 0)) || (l4t == 4 && (byteAt fr l4 == 128 || byteAt fr l4 == 129))

/-- The address and port rewrite of a flow result (R150 step 1, R265). (log entry 78 DEDUCED.) -/
def Chip.rewrite (c : Chip) (p : Pkt) (fr : Bytes) : Bytes :=
  match p.flow with
  | none => fr
  | some r =>
    let kind := frKind r
    if kind = 0 || kind = 3 || p.lenConflict then fr
    else match c.l3Ofs p with
      | none => fr
      | some l3 =>
        let t := c.l3Type p
        let n := if t = 1 then 4 else if t = 2 then 16 else 0
        let at3 := l3 + (if t = 1 then (if kind = 1 then 12 else 16) else (if kind = 1 then 8 else 24))
        let ao := if frAddr r then sliceB fr at3 n else []
        let an := if frAddr r then (if t = 1 then sliceB (frXaddr r) 12 4 else sliceB (frXaddr r) 0 n) else []
        let fr1 := putB fr at3 an
        let fr1 := if t = 1 then fixSum fr1 (l3 + 10) ao an else fr1
        match c.l4Ofs p with
        | none => fr1
        | some l4 =>
          let l4t := c.l4Type p
          let port := frPort r && (l4t == 1 || l4t == 2 || isEcho fr l4t l4)
          let at4 := l4 + (if l4t = 3 ∨ l4t = 4 then 4 else if kind = 1 then 0 else 2)
          let po := if port then sliceB fr at4 2 else []
          let pn := if port then natBe 2 (frXport r) else []
          fixL4 (putB fr1 at4 pn) t l4t l4 ao an po pn

/-! ### Steps 2 to 5 -/

/-- Offsets a DECAP result attaches (R630): L3_OFS and MPLS_OFS of level 0; L2_OFS, L3_OFS and L3_TYPE of level 1. -/
def decapOf (hv : Bytes) : Bytes :=
  sliceB hv 36 2 ++ sliceB hv 34 2 ++ sliceB hv 48 2 ++ sliceB hv 52 2 ++ sliceB hv 59 1

/-- DECAP (R630). -/
def decapFrame (d fr : Bytes) : Bytes :=
  let m (o : Nat) : Option Nat := if bitOf 15 (beAt d o 2) then some (beAt d o 2 % 1024) else none
  match m 4, m 6 with
  | some l2, _ => fr.drop l2
  | none, some l3 =>
    (match (match m 2 with | some x => some x | none => m 0) with
     | none => fr
     | some cut =>
       let ty := if byteAt d 8 = 1 then 0x0800 else if byteAt d 8 = 2 then 0x86DD else beAt fr (cut - 2) 2
       putBe (fr.take cut) (cut - 2) 2 ty ++ fr.drop l3)
  | none, none => fr

/-- A frame carries a tag at byte 12. -/
def tagged (fr : Bytes) : Bool :=
  decide (18 ≤ fr.length) && (beAt fr 12 2 == 0x8100 || beAt fr 12 2 == 0x88A8 || beAt fr 12 2 == 0x9100)

/-- POP_VLAN: the `n` outermost tags. -/
def popVlan : Nat → Bytes → Bytes
  | 0, fr => fr
  | n + 1, fr => if tagged fr then popVlan n (fr.take 12 ++ fr.drop 16) else fr

/-- ENCAP entry body `e` in front of a frame (R163). `sport`: source port for FIXF. -/
def encapFrame (e fr : Bytes) (sport : Nat) : Bytes :=
  let len := min (byteAt e 0) 52
  if len = 0 then fr
  else
    let h := sliceB e 4 len
    let l4 := byteAt e 2
    let h := if l4 + 8 ≤ len then
        putBe (putBe (if bitOf 0 (byteAt e 3) then putBe h l4 2 sport else h) (l4 + 4) 2 (len - l4 + fr.length)) (l4 + 6) 2 0
      else h
    let l3 := byteAt e 1
    let h := if l3 + 20 ≤ len then
        (if byteAt h l3 / 16 = 6 then putBe h (l3 + 4) 2 (len - l3 - 40 + fr.length)
         else
           let h := putBe (putBe h (l3 + 2) 2 (len - l3 + fr.length)) (l3 + 10) 2 0
           putBe h (l3 + 10) 2 (inetSum (sliceB h l3 (4 * (byteAt h l3 % 16)))))
      else h
    h ++ fr

/-- The edits of a pass in their order (R150). `enc`: ENCAP body, empty for none. -/
def Chip.editFrame (c : Chip) (p : Pkt) (enc fr : Bytes) : Bytes :=
  let e := p.res.edit
  let fr := c.rewrite p fr
  let fr := if bitOf 3 e then decapFrame p.decap fr else fr
  let fr := popVlan (e % 4) fr
  let fr := if bitOf 2 e then fr.take 12 ++ natBe 2 0x8100 ++ natBe 2 p.res.tci ++ fr.drop 12 else fr
  let h := if p.flow.isSome then p.h2 else Config.frameHash p.frame
  encapFrame enc fr (Nat.lor 0xC000 (h % 2 ^ 14))

/-- The ENCAP entry body a result names, empty where none is visible in the packet's version. -/
def Chip.encapBody (c : Chip) (p : Pkt) : Bytes :=
  if p.res.encap = actNone then []
  else match c.entryAt (p.res.encap / 2 ^ 17) (p.res.encap % 2 ^ 17) with
    | some e => if c.visible e (p.ver.getD c.curV) then e.body else []
    | none => []

/-- The frame a copy carries when it leaves, without padding, PTP correction and FCS. -/
def Chip.copyFrame (c : Chip) (p : Pkt) (k : Copy) : Bytes :=
  match k.kind with
  | 2 => if k.trunc = 0 then p.orig else p.orig.take k.trunc
  | _ => c.editFrame p k.encap p.frame

/-- Frame length as transmitted, R113: padded, with the FCS. -/
def wireLen (n : Nat) : Nat := max 60 n + 4

/-- Charged length of a copy (R422): as transmitted, or the bound with the same edits. -/
def Chip.chargedLen (c : Chip) (p : Pkt) (k : Copy) : Nat :=
  (if k.kind = 3 then 46 else 0) + (if p.tail = 0 ∧ k.kind ≠ 2 then
    max 64 ((c.copyFrame { p with frame := sliceB p.frame 0 (c.lengthBound p - 4) } k).length + 4)
   else wireLen (c.copyFrame p k).length) + c.getF F.SCH_PORT_CFG.OVERHEAD k.port

end Sys2Proof.Machine
end

