-- ==== Sys2Proof/Machine/Queue.lean ====
section
/-! DEFINITION. Queues, shapers, active lists and flow-queue bindings (R404 to R407, R420 to R435). -/
namespace Sys2Proof.Machine
open Sys2Proof

/-! ### Queue geometry (R420) -/

/-- The class queue of a port's class. -/
def Chip.classQueue (c : Chip) (p k : Nat) : Nat := c.getF F.SCH_PORT_POOL.QBASE p + k
/-- The port's flow queues. -/
def Chip.flowQueues (c : Chip) (p : Nat) : List Nat :=
  (List.range (c.getF F.SCH_PORT_POOL.QCOUNT p - 16)).map (c.getF F.SCH_PORT_POOL.QBASE p + 16 + ·)
/-- Packets and copies of a queue, oldest first. -/
def Chip.queue (c : Chip) (q : Nat) : List (Nat × Nat) := smGet (fun _ => []) c.tm.queues q
/-- The chip with a queue's contents set. -/
def Chip.setQueue (c : Chip) (q : Nat) (x : List (Nat × Nat)) : Chip :=
  { c with tm := { c.tm with queues := smSet (fun _ => []) c.tm.queues q x } }
/-- Port and class of a queue: its own or its binding's. -/
def Chip.queueHome (c : Chip) (q : Nat) : Nat × Nat := (c.getF F.SCH_Q_INFO.PORT q, c.getF F.SCH_Q_INFO.CLASS q)
/-- Bindings of a class in any state, by queue. -/
def Chip.classBindings (c : Chip) (p k : Nat) : List (Nat × Binding) :=
  c.tm.bindings.filter (fun (e : Nat × Binding) => e.2.port == p && e.2.cls == k)
/-- The queues of a class (R421). -/
def Chip.classMembers (c : Chip) (p k : Nat) : List Nat := c.classQueue p k :: (c.classBindings p k).map (·.1)
/-- A class holds some packet. -/
def Chip.classHolds (c : Chip) (p k : Nat) : Bool := (c.classMembers p k).any (fun q => !(c.queue q).isEmpty)
/-- A port holds some packet. -/
def Chip.portHolds (c : Chip) (p : Nat) : Bool := (List.range 16).any (fun k => c.classHolds p k)
/-- Q[q] in cells. -/
def Chip.qCells (c : Chip) (q : Nat) : Nat := smGet (fun _ => 0) c.tm.qCells q

/-! ### Shapers (R428 to R431) -/

/-- The µbit of a byte. -/
def ubit : Nat := 8 * 10 ^ 6

/-- shp_update: the tokens brought up to `now`. `idleEmpty`: IDLE is 1 and the entity holds no packet.
(log entry 102 DESIGN CHOICE.) -/
def shpTokens (tok : Int) (last rate burst mf now : Nat) (idleEmpty : Bool) : Int :=
  let e : Nat := (now + 2 ^ 32 - last % 2 ^ 32) % 2 ^ 32
  let cap0 : Int := (burst * ubit : Nat)
  let cap : Int := if idleEmpty then max tok (min cap0 (mf * ubit : Nat)) else cap0
  min (tok + (e * rate : Nat)) cap

/-- A shaper conforms (R428): disabled, or open with tokens above 0. -/
def shpConforms (en : Bool) (rate burst : Nat) (tok : Int) : Bool :=
  !en || (rate != 0 && burst != 0 && decide (0 < tok))

/-- The class's gate bound (R439). -/
def Chip.gateBound (c : Chip) (p k : Nat) : Nat :=
  if c.getF F.SCH_CL_MAXFRAME.MAXFRAME p k = 0 then c.getF F.PRT_MAXFRAME.MAXFRAME p else c.getF F.SCH_CL_MAXFRAME.MAXFRAME p k

/-- T of a queue, of a class and of a port. -/
def Chip.qTok (c : Chip) (q : Nat) : Int := signedOf 48 (c.getQ F.SCH_Q_TOK.V q)
def Chip.clsTok (c : Chip) (p k : Nat) : Int := signedOf 48 (smGet (fun _ => 0) c.sched.clsTok (16 * p + k))
def Chip.portTok (c : Chip) (p : Nat) : Int := signedOf 48 (c.getQ F.SCH_PORT_TOK.V p)
def Chip.setQTok (c : Chip) (q : Nat) (t : Int) : Chip :=
  { (c.putQ F.SCH_Q_TOK.V (patternOf 48 t) q) with
    sched := { c.sched with qLast := smSet (fun _ => 0) c.sched.qLast q (c.mt % 2 ^ 32) } }
def Chip.setClsTok (c : Chip) (p k : Nat) (t : Int) : Chip :=
  { c with sched := { c.sched with
    clsTok := smSet (fun _ => 0) c.sched.clsTok (16 * p + k) (patternOf 48 t)
    clsLast := smSet (fun _ => 0) c.sched.clsLast (16 * p + k) (c.mt % 2 ^ 32) } }
def Chip.setPortTok (c : Chip) (p : Nat) (t : Int) : Chip :=
  { (c.putQ F.SCH_PORT_TOK.V (patternOf 48 t) p) with
    sched := { c.sched with portLast := smSet (fun _ => 0) c.sched.portLast p (c.mt % 2 ^ 32) } }

/-- A queue shaper brought up to date (R429). -/
def Chip.updQ (c : Chip) (q : Nat) : Chip :=
  let h := c.queueHome q
  c.setQTok q (shpTokens (c.qTok q) (smGet (fun _ => 0) c.sched.qLast q) (c.getF F.SCH_Q_SHP_RATE.V q)
    (c.getF F.SCH_Q_SHP_CFG.BURST q) (c.gateBound h.1 h.2) (c.mt % 2 ^ 32)
    (c.flag F.SCH_Q_SHP_CFG.IDLE q && (c.queue q).isEmpty))

/-- A class shaper brought up to date. -/
def Chip.updCls (c : Chip) (p k : Nat) : Chip :=
  c.setClsTok p k (shpTokens (c.clsTok p k) (smGet (fun _ => 0) c.sched.clsLast (16 * p + k)) (c.getF F.SCH_CL_SHP_RATE.V p k)
    (c.getF F.SCH_CL_SHP_BURST.V p k) (c.gateBound p k) (c.mt % 2 ^ 32)
    (c.flag F.SCH_CL_CFG.SHP_IDLE p k && !c.classHolds p k))

/-- A port shaper brought up to date. -/
def Chip.updPort (c : Chip) (p : Nat) : Chip :=
  c.setPortTok p (shpTokens (c.portTok p) (smGet (fun _ => 0) c.sched.portLast p) (c.getF F.SCH_PORT_SHP_RATE.V p)
    (c.getF F.SCH_PORT_SHP_BURST.V p) (c.getF F.PRT_MAXFRAME.MAXFRAME p) (c.mt % 2 ^ 32)
    (c.flag F.SCH_PORT_CFG.SHP_IDLE p && !c.portHolds p))

/-- Tokens after a configuration write (R431): full, or empty with RESET 1. -/
def tokFresh (burst : Nat) (reset : Bool) : Int := if reset then 0 else (burst * ubit : Nat)

/-- Conformance of a queue, class and port shaper as stored. -/
def Chip.qConforms (c : Chip) (q : Nat) : Bool :=
  shpConforms (c.flag F.SCH_Q_SHP_CFG.ENABLE q) (c.getF F.SCH_Q_SHP_RATE.V q) (c.getF F.SCH_Q_SHP_CFG.BURST q) (c.qTok q)
def Chip.clsConforms (c : Chip) (p k : Nat) : Bool :=
  shpConforms (c.flag F.SCH_CL_CFG.SHP_EN p k) (c.getF F.SCH_CL_SHP_RATE.V p k) (c.getF F.SCH_CL_SHP_BURST.V p k) (c.clsTok p k)
def Chip.portConforms (c : Chip) (p : Nat) : Bool :=
  shpConforms (c.flag F.SCH_PORT_CFG.SHP_EN p) (c.getF F.SCH_PORT_SHP_RATE.V p) (c.getF F.SCH_PORT_SHP_BURST.V p) (c.portTok p)

/-! ### Active lists (R427) -/

/-- Active queues of a class. -/
def Chip.qlist (c : Chip) (p k : Nat) : List Nat := smGet (fun _ => []) c.sched.ql (16 * p + k)
/-- The chip with a class's active list set. -/
def Chip.setQl (c : Chip) (p k : Nat) (x : List Nat) : Chip :=
  { c with sched := { c.sched with ql := smSet (fun _ => []) c.sched.ql (16 * p + k) x } }
/-- Active classes of a port. -/
def Chip.clist (c : Chip) (p : Nat) : List Nat := smGet (fun _ => []) c.sched.cl p
/-- The chip with a port's active classes set. -/
def Chip.setCl (c : Chip) (p : Nat) (x : List Nat) : Chip :=
  { c with sched := { c.sched with cl := smSet (fun _ => []) c.sched.cl p x } }
/-- DEF of a class. -/
def Chip.clsDef (c : Chip) (p k : Nat) : Nat := smGet (fun _ => 0) c.sched.clsDef (16 * p + k)
/-- The chip with DEF of a class set. -/
def Chip.setClsDef (c : Chip) (p k n : Nat) : Chip :=
  { c with sched := { c.sched with clsDef := smSet (fun _ => 0) c.sched.clsDef (16 * p + k) n } }

/-- Watch mode is in force (R442). -/
def Chip.watchMode (c : Chip) : Bool := c.getF F.SCH_OBS_CTRL.MODE == 0 || c.flag F.SCH_OBS_CTRL.FORCED

/-- Q[q] grows (R388, R443). -/
def Chip.addCells (c : Chip) (q n : Nat) : Chip :=
  let k := c.qCells q + n
  let c := { c with tm := { c.tm with qCells := smSet (fun _ => 0) c.tm.qCells q k } }
  if c.watchMode && decide (c.getF F.SCH_Q_OBS_DEPTH.V q < k) then c.putF F.SCH_Q_OBS_DEPTH.V k q else c

/-- Q[q] falls. -/
def Chip.subCells (c : Chip) (q n : Nat) : Chip :=
  { c with tm := { c.tm with qCells := smSet (fun _ => 0) c.tm.qCells q (c.qCells q - n) } }

/-- A copy enters a queue at its tail. -/
def Chip.enqueue (c : Chip) (q pid cid cells : Nat) : Chip :=
  let h := c.queueHome q
  let qe := (c.queue q).isEmpty
  let ce := !c.classHolds h.1 h.2
  let c := if qe then c.updQ q else c
  let c := if ce then c.updCls h.1 h.2 else c
  let c := if c.portHolds h.1 then c else c.updPort h.1
  let c := (c.setQueue q (c.queue q ++ [(pid, cid)])).addCells q cells
  let c := if qe then
      ((c.setQl h.1 h.2 (c.qlist h.1 h.2 ++ [q])).putF F.SCH_Q_STATUS.DEF 0 q).condEv 9 q 3 true
    else c
  if ce then (c.setCl h.1 (c.clist h.1 ++ [h.2])).setClsDef h.1 h.2 0 else c

/-- A copy leaves a queue, from its head or from within it: holds and marks that waited for it follow (R405, R406). -/
def Chip.dequeue (c : Chip) (q pid cid : Nat) : Chip :=
  let h := c.queueHome q
  let pos := ((c.queue q).findIdx? (fun x => x == (pid, cid))).getD 0
  let c := if ((c.queue q).length ≤ 1) then
      (let c := c.updQ q
       let c := if c.classHolds h.1 h.2 && ((c.classMembers h.1 h.2).filter (fun x => !(c.queue x).isEmpty)).length = 1 then
         c.updCls h.1 h.2 else c
       if (((List.range 16).flatMap (c.classMembers h.1)).filter (fun x => !(c.queue x).isEmpty)).length = 1 then
         c.updPort h.1 else c)
    else c
  let c := c.setQueue q ((c.queue q).filter (fun x => x != (pid, cid)))
  let ms := match smFind c.tm.marks q with
    | some m => if pos < m.ahead then smPut c.tm.marks q { m with ahead := m.ahead - 1 } else c.tm.marks
    | none => c.tm.marks
  let bs : SMap Binding := c.tm.bindings.map (fun (e : Nat × Binding) =>
    (e.1, { e.2 with hold := e.2.hold.filter (fun x => x != (pid, cid)) }))
  let c := { c with tm := { c.tm with marks := ms, bindings := bs } }
  let c := if (c.queue q).isEmpty then
      ((c.setQl h.1 h.2 ((c.qlist h.1 h.2).filter (· != q))).putF F.SCH_Q_STATUS.DEF 0 q).condEv 9 q 3 false
    else c
  if c.classHolds h.1 h.2 then c else (c.setCl h.1 ((c.clist h.1).filter (· != h.2))).setClsDef h.1 h.2 0

/-! ### Bindings (R404 to R406, R434) -/

/-- The handle a packet's flow result carries: owning device and handle. -/
def Pkt.handle (p : Pkt) : Option (Nat × Nat) :=
  if p.src = 5 then
    if bitOf 1 (byteAt p.gangHdr 1) then some (bitsOf 19 18 (beAt p.gangHdr 28 4), bitsOf 17 0 (beAt p.gangHdr 28 4)) else none
  else match p.flow with
    | some r => if frFlowqValid r then some (p.flowDev, frFlowq r) else none
    | none => none

/-- Packets that carry a handle and are not yet admitted or dropped (R404). -/
def Chip.handleCount (c : Chip) (dev h : Nat) : Nat :=
  (c.pkts.filter (fun (e : Nat × Pkt) => e.2.handle == some (dev, h) && e.2.stage != .admitted && e.2.stage != .gone)).length

/-- A queue still holds or sends packets. -/
def Chip.queueBusy (c : Chip) (q : Nat) : Bool :=
  !(c.queue q).isEmpty
    || c.pkts.any (fun (e : Nat × Pkt) => e.2.copies.any (fun k => k.queue == q && k.state == 2))

/-- A queue returns to its port's pool (R434). -/
def Chip.returnQueue (c : Chip) (q : Nat) (b : Binding) : Chip :=
  let c := { c with tm := { c.tm with bindings := smErase c.tm.bindings q } }
  ((c.putF F.SCH_Q_INFO.KIND 2 q).putF F.SCH_Q_INFO.CLASS 0 q).putF F.SCH_CL_MAXFRAME.BOUND
    (c.classBindings b.port b.cls).length b.port b.cls

/-- Bindings, marks and queues whose condition has come: UNBINDING ends when no packet carries the handle, a DRAINING
queue that is empty returns to its pool, and a mark goes when its queues are empty (R404, R406). -/
def Chip.settleBindings (c : Chip) : Chip :=
  let c := c.tm.bindings.foldl (fun c (e : Nat × Binding) =>
    if e.2.state = 2 ∧ c.handleCount e.2.dev e.2.handle = 0 then
      { c with tm := { c.tm with bindings := smPut c.tm.bindings e.1 { e.2 with state := 3 } } }
    else c) c
  let ms : SMap Mark := (c.tm.marks.map (fun (e : Nat × Mark) =>
      (e.1, { e.2 with waits := e.2.waits.filter (fun q => !(c.queue q).isEmpty) }))).filter
    (fun (e : Nat × Mark) => !e.2.waits.isEmpty)
  let c := { c with tm := { c.tm with marks := ms } }
  c.tm.bindings.foldl (fun c (e : Nat × Binding) =>
    if e.2.state = 3 ∧ !c.queueBusy e.1 then c.returnQueue e.1 e.2 else c) c

/-- The binding a handle reaches. -/
def Chip.bindingOf (c : Chip) (dev h : Nat) : Option (Nat × Binding) :=
  c.tm.bindings.find? (fun (e : Nat × Binding) => e.2.dev == dev && e.2.handle == h && decide (e.2.state < 3))

/-- A binding is made (R405, R434). -/
def Chip.bindQueue (c : Chip) (q dev h p k : Nat) : Chip :=
  let older := c.queue (c.classQueue p k)
    ++ ((c.classBindings p k).filter (fun (e : Nat × Binding) => e.2.state == 3)).flatMap (fun e => c.queue e.1)
  let c := { c with tm := { c.tm with bindings := smPut c.tm.bindings q ⟨1, dev, h, p, k, older⟩ } }
  let c := (c.putF F.SCH_Q_INFO.KIND 3 q).putF F.SCH_Q_INFO.CLASS k q
  let c := c.putF F.SCH_Q_QUANTUM.QUANTUM (c.getF F.SCH_CL_FQ_QUANTUM.V p k) q
  let c := c.putF F.SCH_Q_SHP_RATE.V (c.getF F.SCH_CL_FQ_RATE.V p k) q
  let c := c.putF F.SCH_Q_SHP_CFG.BURST (c.getF F.SCH_CL_FQ_BURST.V p k) q
  let c := c.putF F.SCH_Q_SHP_CFG.ENABLE (c.getF F.SCH_CL_CFG.FQ_SHP_EN p k) q
  let c := c.putF F.SCH_Q_SHP_CFG.RESET (c.getF F.SCH_CL_CFG.FQ_SHP_RESET p k) q
  let c := c.putF F.SCH_Q_SHP_CFG.IDLE (c.getF F.SCH_CL_CFG.FQ_SHP_IDLE p k) q
  let c := c.setQTok q (tokFresh (c.getF F.SCH_CL_FQ_BURST.V p k) (c.flag F.SCH_CL_CFG.FQ_SHP_RESET p k))
  let c := c.putF F.SCH_Q_STATUS.DEF 0 q
  let c := ((c.putF F.SCH_Q_OBS_DEPTH.V 0 q).putF F.SCH_Q_OBS_DELAY.V 0 q).putF F.SCH_Q_OBS_AVG.V 0 q
  c.putF F.SCH_CL_MAXFRAME.BOUND (c.classBindings p k).length p k

/-- The queue of a copy of port `p`, class `k` with a handle (R405): its binding's, a new one, or the class queue. -/
def Chip.chooseQueue (c : Chip) (p k : Nat) (handle : Option (Nat × Nat)) : Nat × Chip :=
  let cq := c.classQueue p k
  match handle with
  | none => (cq, c)
  | some (dev, h) => match c.bindingOf dev h with
    | some (q, b) => if b.port = p ∧ b.cls = k then (q, c) else (cq, c.bump F.TMG_CNT_FQ_MISMATCH.V)
    | none =>
      let room := decide ((c.classBindings p k).length < c.getF F.SCH_CL_CFG.FQ_MAX p k)
      match (if room then (c.flowQueues p).find? (fun q => (smFind c.tm.bindings q).isNone) else none) with
      | some q => (q, c.bindQueue q dev h p k)
      | none => (cq, c.bump F.TMG_CNT_FQ_NOQ.V)

/-- The handle's binding is to go (R406): a mark at the end of the class queue waits for its queue. -/
def Chip.unbind (c : Chip) (dev h : Nat) : Chip :=
  match c.bindingOf dev h with
  | none => c
  | some (q, b) =>
    if b.state ≠ 1 then c
    else
      let cq := c.classQueue b.port b.cls
      let m := match smFind c.tm.marks cq with
        | some m => { m with waits := m.waits ++ [q] }
        | none => ⟨(c.queue cq).length, [q]⟩
      ({ c with tm := { c.tm with
        bindings := smPut c.tm.bindings q { b with state := 2 }
        marks := smPut c.tm.marks cq m } }).settleBindings

/-- A queue's head may not be served: its queue is held, or the class queue's mark is at its head (R405, R406, R435). -/
def Chip.headHeld (c : Chip) (q : Nat) : Bool :=
  (match smFind c.tm.bindings q with | some b => !b.hold.isEmpty | none => false)
    || (match smFind c.tm.marks q with | some m => m.ahead == 0 | none => false)

end Sys2Proof.Machine
end

