-- ==== Sys2Proof/Machine/Admit.lean ====
section
/-! DEFINITION. Admission (R391 to R411): order, outcomes, replication, residue, mirroring, recirculation and the MAC control
frames of R403. -/
namespace Sys2Proof.Machine
open Sys2Proof

/-! ### Order (R391 to R393) -/

/-- The source that orders a packet: its ingress port, ring, cluster, or a gang sender's port. -/
def Pkt.source (p : Pkt) : Nat × Nat :=
  match p.src with
  | 0 => (0, p.port)
  | 1 => (1, p.srcId)
  | 2 => (1, p.srcId)
  | 3 => (2, p.srcId / 64)
  | 4 => (2, p.srcId / 64)
  | 5 => (3, p.srcId * 512 + beAt p.gangHdr 18 2 % 512)
  | _ => (4, 0)

/-- The outcome of a packet is still open (R391). -/
def Stage.undecided : Stage → Bool
  | .elastic | .mac | .parse | .classify | .flowWait | .pending | .report => true
  | _ => false

/-- A packet is in recirculation (R393). -/
def Pkt.inRecirc (p : Pkt) : Bool :=
  p.stage == .recircWait || p.stage == .recircQ || (decide (0 < p.pass) && p.stage.undecided)

/-- The valid MC_GROUP entry of a group (R408); empty where not VALID. -/
def Chip.mcGroup (c : Chip) (g : Nat) : Bytes :=
  let e := smGet (fun _ => []) c.tm.mcGroups g
  if bitOf 0 (byteAt e 65) then e else []

/-- Destinations of a packet: kind, port, gang device; port copies ascending, gang copies last (R408, R409). -/
def Chip.targets (c : Chip) (p : Pkt) : List (Nat × Nat × Nat) :=
  let gang (d : Nat) : Nat := match smGet (fun _ => []) c.gang.lists d with
    | [] => 512
    | l => l.getD (p.port % l.length) 512
  let own := if c.getF F.GNG_STATUS.STATE = 0 then 0 else c.getF F.GNG_STATUS.DEVICE
  match p.res.outKind with
  | 0 => [(0, p.res.out % 512, 0)]
  | 2 => if p.res.outDev = own then [(0, p.res.out % 512, 0)] else [(3, gang p.res.outDev, p.res.outDev)]
  | 1 =>
    let e := c.mcGroup p.res.out
    let prune := bitOf 1 (byteAt e 65) && p.src != 5
    ((List.range 512).filter (fun x => bitOf (x % 8) (byteAt e (x / 8)) && !(prune && x == p.port))).map (fun x => (1, x, 0))
      ++ (if p.src = 5 ∨ e.isEmpty then []
          else ((List.range 4).filter (fun d => bitOf d (byteAt e 64) && d != own)).map (fun d => (3, gang d, d)))
  | _ => []

/-- A packet or one of its residue copies waits for (port, class) (R392). -/
def Chip.waitsFor (c : Chip) (p : Pkt) (port cls : Nat) : Bool :=
  (p.stage == .ready && p.res.cls == cls && (c.targets p).any (fun t => t.2.1 == port))
    || p.copies.any (fun k => k.state == 0 && k.port == port && k.cls == cls)

/-- A packet must wait at admission behind earlier packets of its source (R391 to R393). (log entry 93 DEDUCED.) -/
def Chip.admBlocked (c : Chip) (pid : Nat) (p : Pkt) : Bool :=
  let ts := c.targets p
  c.pkts.any (fun (e : Nat × Pkt) => decide (e.1 < pid) && e.2.source == p.source && e.2.stage != .gone
    && (e.2.stage.undecided || e.2.inRecirc || ts.any (fun t => c.waitsFor e.2 t.2.1 p.res.cls)))

/-! ### The threshold (R397, R398, R401) -/

/-- dt_pass of R398. -/
def Chip.dtPass (c : Chip) (q cells new : Nat) : Bool :=
  let pr := smGet (fun _ => 0) c.tm.queueAdm q
  let k := signedOf 4 (c.getF F.TMG_ADM_PROF.K pr)
  let l := if 0 ≤ k then c.freeCells * 2 ^ k.toNat else c.freeCells / 2 ^ (-k).toNat
  let qmax := c.getF F.TMG_ADM_QMAX.V pr
  let cap := if qmax = 0 then 1572864 else qmax
  decide (new ≤ c.freeCells) && decide (c.qCells q + cells ≤ min cap (max (c.getF F.TMG_ADM_PROF.MIN pr) l))

/-- A copy is lossless but for the condition on its siblings (R401). -/
def Chip.lossless (c : Chip) (p : Pkt) : Bool :=
  p.src == 0 && ((c.getF F.PRT_CFG.PAUSE_MODE p.port == 2 && bitOf p.prio (c.getF F.TMG_PORT_PFC.EN p.port))
    || (c.getF F.PRT_CFG.PAUSE_MODE p.port == 1 && c.getF F.TMG_PORT_PFC.EN p.port != 0))

/-- Source zone of a packet's copies (R582). (log entry 97 DEDUCED.) -/
def Chip.srcZone (c : Chip) (p : Pkt) : Nat :=
  match p.src with
  | 2 => c.pol 0x200 1
  | 3 => if p.prov = some (1, 0) then c.pol 0x202 1 else c.pol 0x201 1
  | 5 => byteAt p.gangHdr 3
  | 6 => c.pol 0x203 1
  | _ => c.portZone p.port

/-- Outcome of one copy (R394). -/
inductive AdmOut where
  | drop (code : Nat)
  | wait
  | go (headroom : Bool)
  deriving DecidableEq, Repr

/-- The first outcome of R394 that holds. `kind` 0 unicast, 1 multicast, 2 mirror, 3 gang; `multi`: a copy of a group. -/
def Chip.admTest (c : Chip) (p : Pkt) (kind port q cells new : Nat) (multi : Bool) : AdmOut :=
  let hold : AdmOut := if kind = 2 then .drop 9 else .wait
  let siblings := p.resExp || p.copies.any (fun k => k.state == 0)
  if kind ≠ 3 ∧ !c.mayForward (c.srcZone p) (c.portZone port) then .drop 3
  else if 512 ≤ port then .drop 5
  else if !c.flag F.PRT_CFG.ENABLE port || !c.portPresent port then .drop 4
  else if !c.portUp port then (if multi || kind = 2 then hold else .drop 5)
  else if c.dtPass q cells new then .go false
  else if kind != 2 && c.lossless p && !(multi && siblings) then
    if c.getF F.TMG_PORT_HR_USED.V p.port + new ≤ c.getF F.TMG_PORT_HEADROOM.V p.port then .go true else .drop 2
  else if multi || kind = 2 then hold
  else .drop 1

/-! ### Copies -/

/-- A copy's drop is counted (R413). -/
def Chip.copyDropped (c : Chip) (port inPort code : Nat) : Chip :=
  let c := (c.tmDrop code).stat (if port < 512 then port else inPort) (48 + code)
  let c := c.signal 8 (if port < 512 then port else inPort) 2
  match code with
  | 1 => c.raise F.TMG_EVENTS.DT_DROP
  | 2 => c.raise F.TMG_EVENTS.HEADROOM_DROP
  | 7 => c.raise F.TMG_EVENTS.RESIDUE_DROP
  | 8 => c.raise F.TMG_EVENTS.RESIDUE_DROP
  | _ => c

/-- The cells of a packet's first admitted copy move to the shared pool, or to its port's headroom (R387, R401). -/
def Chip.admitCharge (c : Chip) (pid new : Nat) (headroom : Bool) : Chip :=
  match c.pkt pid with
  | none => c
  | some p =>
    let all := p.ingC + p.shC
    let h := if headroom then min new all else 0
    let c := (c.setIngRes p.slice (c.ingRes p.slice - p.ingC)).setFree (c.freeCells + p.shC - (all - h))
    let c := if headroom then c.putF F.TMG_PORT_HR_USED.V (c.getF F.TMG_PORT_HR_USED.V p.port + h) p.port else c
    let c := c.sink F.TMG_ING_USED.V p.slice 0 p.cells
    c.setPkt pid { p with ingC := 0, shC := all - h, hrC := h, stage := .admitted, inflight := false }

/-- A packet with a copy put among its copies, replacing the one of its number. -/
def Pkt.putCopy (p : Pkt) (k : Copy) : Pkt :=
  { p with copies := if p.copies.any (fun (x : Copy) => x.cid == k.cid)
      then p.copies.map (fun (x : Copy) => if x.cid = k.cid then k else x) else p.copies ++ [k] }

/-- The first unicast or multicast copy admitted carries the strip's mark (R480). -/
def Pkt.markCopy (p : Pkt) (k : Copy) (now : Nat) : Pkt :=
  { p with strip := p.strip.map (fun (s : Strip) => if s.copy.isNone && decide (k.kind < 2) then
      { s with
        copy := some (k.cid, k.port, k.queue)
        stamps := if s.timedOut then s.stamps else smPut s.stamps 9 now }
      else s) }

/-- A copy is enqueued. -/
def Chip.copyGo (c : Chip) (pid cells q : Nat) (k : Copy) (headroom : Bool) : Chip :=
  let c := match c.pkt pid with
    | some p => if p.stage = Stage.admitted then c else c.admitCharge pid cells headroom
    | none => c
  let k : Copy := { k with queue := q, state := 1, cells := cells, admAt := c.mt }
  let c := c.updPkt pid fun (p : Pkt) => (p.putCopy k).markCopy k c.dtw
  (c.enqueue q pid k.cid cells).signal 8 k.port 1

/-- A copy meets admission; `fresh`: not yet among the packet's copies. True in the answer: it was dropped with a code. -/
def Chip.admitCopy (c : Chip) (pid : Nat) (k : Copy) (multi : Bool) : Chip × Option Nat :=
  match c.pkt pid with
  | none => (c, none)
  | some p =>
    let cells := if k.kind = 2 ∧ k.trunc ≠ 0 then min (c.admCells p) (cellsFor k.trunc) else c.admCells p
    let new := if p.stage = .admitted then 0 else c.admCells p
    let chosen : Nat × Chip :=
      if 512 ≤ k.port then (0, c)
      else if k.kind = 0 then c.chooseQueue k.port k.cls p.handle
      else (c.classQueue k.port k.cls, c)
    match c.admTest p k.kind k.port chosen.1 cells new multi with
    | .drop code => (c.copyDropped k.port p.port code, some code)
    | .go h => (chosen.2.copyGo pid (if k.kind = 2 then cells else c.admCells p) chosen.1 k h, none)
    | .wait =>
      if 65536 ≤ c.tm.residue.length then (c.copyDropped k.port p.port 8, some 8)
      else
        let c := { c with tm := { c.tm with residue := c.tm.residue ++ [(pid, k.cid)] } }
        let c := (c.putF F.TMG_RESIDUE_USED.V c.tm.residue.length).condEv 8 k.port 3 true
        (c.updPkt pid fun p => { p with copies := p.copies ++ [{ k with state := 0, admAt := c.mt }] }, none)

/-- The mirror copy a packet's session adds (R411). -/
def Chip.mirrorCopy (c : Chip) (p : Pkt) (cid : Nat) : Option Copy × Chip :=
  let m := p.res.mirror
  if m = 0 then (none, c)
  else
    let e := smGet (fun _ => zerosB 16) c.tm.mirrors m
    let n := smGet (fun _ => 0) c.tm.mirrorCnt m + 1
    let c := { c with tm := { c.tm with mirrorCnt := smPut c.tm.mirrorCnt m n } }
    let sample := beAt e 6 2
    if !bitOf 15 (beAt e 0 2) || (2 ≤ sample && n % sample != 0) then (none, c)
    else (some { cid := cid, kind := 2, port := beAt e 0 2 % 512, cls := byteAt e 2 % 16, queue := 0, state := 0, cells := 0,
                 admAt := 0, encap := [], trunc := beAt e 4 2, dev := 0, estamp := 0 }, c)

/-- After admission: a packet without a copy left ends. -/
def Chip.closeAdmission (c : Chip) (pid : Nat) (last : Option Nat) : Chip :=
  match c.pkt pid with
  | none => c
  | some p =>
    if p.copies.isEmpty then (c.endStrip pid 2 (last.getD 0)).endPkt pid
    else if p.stage = .admitted then c
    else c.setPkt pid { p with stage := .residue, inflight := false }

/-- Admission decides all copies of a packet (R394, R408, R409, R411). (log entry 93 DEDUCED.) -/
def Chip.admission (c : Chip) (pid : Nat) : Chip :=
  match c.pkt pid with
  | none => c
  | some p =>
    let ts := c.targets p
    let enc := c.encapBody p
    let multi := p.res.outKind == 1
    if ts.isEmpty then ((((c.tmDrop 6).stat p.port 54).endStrip pid 2 6).endPkt pid).settleBindings
    else
      let ks : List Copy := ts.zipIdx.map (fun (t : (Nat × Nat × Nat) × Nat) =>
        { cid := t.2, kind := t.1.1, port := t.1.2.1, cls := p.res.cls, queue := 0, state := 0, cells := 0, admAt := 0
          encap := enc, trunc := 0, dev := t.1.2.2, estamp := 0 })
      let r := ks.foldl (fun (a : Chip × Option Nat) k =>
        match a.1.admitCopy pid k multi with
        | (c, some code) => (c, some code)
        | (c, none) => (c, a.2)) (c, none)
      let c := match r.1.mirrorCopy p ts.length with
        | (none, c) => c
        | (some k, c) =>
          let earlier := c.pkts.any (fun (e : Nat × Pkt) => decide (e.1 < pid) && e.2.source == p.source
            && c.waitsFor e.2 k.port k.cls)
          if earlier then c.copyDropped k.port p.port 9 else (c.admitCopy pid k false).1
      (c.closeAdmission pid r.2).settleBindings

/-- ADMIT_COPY: a packet that is ready and not held back by an earlier one. -/
def Chip.admitCmd (c : Chip) (pid : Nat) : Chip :=
  match c.pkt pid with
  | none => c
  | some p => if p.stage = .ready ∧ !c.admBlocked pid p then c.admission pid else c

/-! ### Ends of copies -/

/-- A copy is taken off its packet; the packet ends with its last copy. -/
def Chip.endCopy (c : Chip) (pid cid : Nat) : Chip :=
  let c := { c with tm := { c.tm with residue := c.tm.residue.filter (fun x => x != (pid, cid)) } }
  let c := c.putF F.TMG_RESIDUE_USED.V c.tm.residue.length
  let c := c.updPkt pid fun p => { p with copies := p.copies.filter (fun k => k.cid != cid) }
  match c.pkt pid with
  | none => c
  | some p => if p.copies.isEmpty && (p.stage == .admitted || p.stage == .residue) then c.endPkt pid else c

/-- A waiting or queued copy is dropped with a code. -/
def Chip.dropCopy (c : Chip) (pid : Nat) (k : Copy) (code : Nat) : Chip :=
  match c.pkt pid with
  | none => c
  | some p =>
    let c := if k.state = 1 then (c.dequeue k.queue pid k.cid).subCells k.queue k.cells else c
    let c := c.copyDropped k.port p.port code
    let mark := match p.strip with | some s => (match s.copy with | some x => x.1 == k.cid | none => p.copies.length == 1) | none => false
    let c := if mark then c.endStrip pid 2 code else c
    (c.endCopy pid k.cid).settleBindings

/-! ### Residue (R410) -/

/-- The residue copy of a packet. -/
def Chip.residueCopy (c : Chip) (pid cid : Nat) : Option Copy :=
  match c.pkt pid with
  | some p => p.copies.find? (fun k => k.cid == cid && k.state == 0)
  | none => none

/-- A residue copy is evaluated again; none: it still waits. -/
def Chip.residueTry (c : Chip) (pid cid : Nat) (k : Copy) : Option Chip :=
  match c.pkt pid with
  | none => none
  | some p =>
    let p1 := { p with copies := p.copies.filter (fun x => x.cid != cid) }
    let new := if p.stage = .admitted then 0 else c.admCells p
    let q := c.classQueue k.port k.cls
    match c.admTest p1 k.kind k.port q (c.admCells p) new true with
    | .wait => none
    | .drop code => some (c.dropCopy pid k code)
    | .go h =>
      let c := { c with tm := { c.tm with residue := c.tm.residue.filter (fun x => x != (pid, cid)) } }
      let c := c.putF F.TMG_RESIDUE_USED.V c.tm.residue.length
      some (c.copyGo pid (c.admCells p) q k h)

/-- The oldest residue copy of a port. -/
def Chip.oldestResidue (c : Chip) (port : Nat) : Option (Nat × Copy) :=
  c.tm.residue.findSome? (fun x => match c.residueCopy x.1 x.2 with
    | some k => if k.port = port then some (x.1, k) else none
    | none => none)

/-- RESIDUE_RETRY: the oldest residue copy of a port. -/
def Chip.residueRetry (c : Chip) (port : Nat) : Chip :=
  match c.oldestResidue port with
  | none => c
  | some (pid, k) => match c.residueTry pid k.cid k with
    | some c => c.condEv 8 port 3 (c.oldestResidue port).isSome
    | none => c

/-- RESIDUE_TIMEOUT: a residue copy expires; one that passes in that cycle is admitted. -/
def Chip.residueTimeout (c : Chip) (pid cid : Nat) : Chip :=
  match c.residueCopy pid cid with
  | none => c
  | some k => match c.residueTry pid cid k with
    | some c => c
    | none => ((c.updPkt pid fun p => { p with resExp := true }).dropCopy pid k 7).condEv 8 k.port 3
        (c.tm.residue.any (fun x => x != (pid, cid) && (match c.residueCopy x.1 x.2 with | some y => y.port == k.port | none => false)))

/-! ### Recirculation (R399, R400) -/

/-- RECIRC_ENQUEUE: a pass that ended in recirculation, once its tail has passed. -/
def Chip.recircEnqueue (c : Chip) (pid : Nat) : Chip :=
  match c.pkt pid with
  | none => c
  | some p =>
    if p.stage ≠ .recircWait ∨ p.tail ≠ 1 then c
    else
      let q := smGet (fun _ => []) c.tm.recirc p.slice
      if 1024 ≤ q.length then c.dropTm pid 0xA
      else
        let fr := c.editFrame p (c.encapBody p) p.frame
        let c := c.setPkt pid { p with frame := fr, got := fr.length, stage := .recircQ }
        { c with tm := { c.tm with recirc := smSet (fun _ => []) c.tm.recirc p.slice (q ++ [pid]) } }

/-- A packet as its next pass begins (R135, R166, R195). -/
def Pkt.nextPass (p : Pkt) : Pkt :=
  { p with pass := p.pass + 1, opSent := false, recirc := false, inspect := 0, report := [], bound := none
           strip := p.strip.map (fun s => { s with passes := s.passes + 1 }) }

/-- RECIRC_HANDOFF: the slice's recirculation queue hands its head to a pipe. -/
def Chip.recircHandoff (c : Chip) (s : Nat) : Chip :=
  match smGet (fun _ => []) c.tm.recirc s, c.pickPipe s with
  | pid :: rest, some pipe =>
    let c := { c with tm := { c.tm with recirc := smSet (fun _ => []) c.tm.recirc s rest } }
    let n := c.tm.nextPassSeq
    let c := { c with tm := { c.tm with nextPassSeq := n + 1 } }
    (c.updPkt pid fun (p : Pkt) => { p.nextPass with passSeq := n }).openCtx pid pipe
  | _, _ => c

/-! ### MAC control frames (R403) -/

/-- The PFC or PAUSE frame of a port, 60 bytes without FCS. -/
def Chip.pfcFrame (c : Chip) (p back : Nat) : Bytes :=
  let st := c.getF F.TMG_PORT_PFC.STATE p
  let qn := c.getF F.TMG_PORT_QUANTA.V p
  let head := natBe 6 0x0180C2000001 ++ natBe 6 (c.getQ F.TMG_PORT_MAC.V p % 2 ^ 48) ++ natBe 2 0x8808
  let body := if c.getF F.PRT_CFG.PAUSE_MODE p = 1 then natBe 2 1 ++ natBe 2 (if st = 0 then 0 else qn)
    else natBe 2 0x0101 ++ natBe 2 (Nat.lor st back) ++ (List.range 8).flatMap (fun r => natBe 2 (if bitOf r st then qn else 0))
  sliceB (head ++ body) 0 60

/-- A frame with its FCS, least significant byte first (R119). -/
def withFcs (fr : Bytes) : Bytes := fr ++ natLe 4 (fcsOf fr)

/-- A frame with the stomp value in place of its FCS (R124). -/
def withStomp (fr : Bytes) : Bytes := fr ++ natLe 4 (Nat.xor (fcsOf fr) 0xFFFFFFFF)

/-- A frame's counts as transmitted: slots 40 to 44 (R469). (log entry 94 DEDUCED.) -/
def Chip.txStats (c : Chip) (p len : Nat) (fr : Bytes) : Chip :=
  let c := (c.stat p 40).stat p 41 len
  let c := c.stat p (if sliceB fr 0 6 == natBe 6 (2 ^ 48 - 1) then 44 else if bitOf 0 (byteAt fr 0) then 43 else 42)
  c.signal 1 p 2

/-- A MAC control frame leaves the port. (log entry 98 DEDUCED.) -/
def Chip.sendMacControl (c : Chip) (p back : Nat) : Chip :=
  let fr := c.pfcFrame p back
  let c := (c.txStats p 64 fr).stat p (if c.getF F.PRT_CFG.PAUSE_MODE p = 1 then 46 else 47)
  let c := (c.putF F.PRT_STATUS.LPI_TX 0 p).condEv 1 p 5 false
  c.setPort p { c.portSt p with lastOut := withFcs fr }

/-- PFC_FRAME_SEND: at a frame boundary after a change. -/
def Chip.pfcSend (c : Chip) (p : Nat) : Chip :=
  let d := smGet (fun _ => 0) c.tm.pfcDue p
  if d = 0 then c
  else ({ c with tm := { c.tm with pfcDue := smErase c.tm.pfcDue p } }).sendMacControl p (d % 256)

/-- PFC_REFRESH: while a priority stays in XOFF. -/
def Chip.pfcRefresh (c : Chip) (p : Nat) : Chip :=
  if c.getF F.TMG_PORT_PFC.STATE p = 0 then c else c.sendMacControl p 0

end Sys2Proof.Machine
end

