-- ==== Sys2Proof/Machine/Gate.lean ====
section
/-! DEFINITION. Gate control lists (R436 to R441): which gates are open, for how long, and the commands over lists. -/
namespace Sys2Proof.Machine
open Sys2Proof

/-! ### A list as it runs (R437) -/

/-- Entries of one cycle of `rem` ns: cut off at its end, the last in force to it. -/
def cutEntries : Nat → List (Nat × Nat) → List (Nat × Nat)
  | _, [] => []
  | rem, [(g, _)] => [(g, rem)]
  | rem, (g, i) :: r => if rem ≤ i then [(g, rem)] else (g, i) :: cutEntries (rem - i) r

/-- One cycle of a list: gates and durations in 2^-16 ns. -/
def GateList.turn (g : GateList) : List (Nat × Nat) := (cutEntries g.cycle g.entries).map (fun e => (e.1, e.2 * 2 ^ 16))

/-- Where a list stands at a device time: the offset in its cycle, in 2^-16 ns; none outside a one-shot list. -/
def GateList.phase (g : GateList) (now : Nat) : Option Nat :=
  let d := signedOf 64 (now + (2 ^ 64 - g.base % 2 ^ 64))
  let ct : Nat := g.cycle * 2 ^ 16
  if g.oneshot then (if 0 ≤ d ∧ d < (ct : Int) then some d.toNat else none) else some (d % (ct : Int)).toNat

/-- The entry in force at an offset, its number, and the rest of the cycle from that offset. -/
def dropPhase : List (Nat × Nat) → Nat → Nat → Nat × List (Nat × Nat)
  | [], _, n => (n, [])
  | (g, d) :: r, ph, n => if ph < d then (n, (g, d - ph) :: r) else dropPhase r (ph - d) (n + 1)

/-- How long class `k` stays open over a run of entries; the flag: some entry closes it. -/
def runOpen (k : Nat) : List (Nat × Nat) → Nat × Bool
  | [] => (0, false)
  | (g, d) :: r => if bitOf k g then (match runOpen k r with | (t, b) => (d + t, b)) else (0, true)

/-- Time until class `k` closes in a list from an offset; none: never. -/
def GateList.openFrom (g : GateList) (k ph : Nat) : Option Nat :=
  let rest := (dropPhase g.turn ph 0).2
  let r := runOpen k (if g.oneshot then rest else rest ++ g.turn)
  if r.2 then some r.1 else none

/-- Time until class `k` closes in a list that may be none. -/
def openIn (g : Option GateList) (k now : Nat) : Option Nat :=
  match g with
  | none => none
  | some g => if g.entries.isEmpty then none else match g.phase now with
    | none => none
    | some ph => g.openFrom k ph

/-- The gate lists of a port. -/
def Chip.gateSt (c : Chip) (p : Nat) : GateSt := smGet (fun _ => ⟨none, none⟩) c.sched.gates p

/-- The chip with the gate lists of a port set. -/
def Chip.setGate (c : Chip) (p : Nat) (g : GateSt) : Chip :=
  { c with sched := { c.sched with gates := smSet (fun _ => ⟨none, none⟩) c.sched.gates p g } }

/-- Time, 2^-16 ns, for which class `k` of port `p` stays open from now (R439); none: without limit; 0: closed. -/
def Chip.gateOpen (c : Chip) (p k : Nat) : Option Nat :=
  let g := c.gateSt p
  let r := openIn g.oper k c.dtw
  match g.pend with
  | none => r
  | some l =>
    let u := (signedOf 64 (l.base + (2 ^ 64 - c.dtw % 2 ^ 64))).toNat
    if (match r with | some t => decide (t < u) | none => false) then r
    else if l.entries.isEmpty then none
    else (l.openFrom k 0).map (u + ·)

/-- A frame of a charged length fits the gate of its class (R439). -/
def Chip.gateFits (c : Chip) (p k len : Nat) : Bool :=
  match c.gateOpen p k with
  | none => true
  | some t => t != 0 && decide (len * 8000 * 2 ^ 16 ≤ t * c.portMbps p)

/-- SCH_GATE_MAXWIN of a class under a list (R440). -/
def GateList.maxwin (g : GateList) (k : Nat) : Nat :=
  let t := g.turn
  if t.isEmpty || t.all (fun e => bitOf k e.1) then 0xFFFFFFFF
  else if g.oneshot && (match t.getLast? with | some e => bitOf k e.1 | none => false) then 0xFFFFFFFF
  else
    let runs := (List.range t.length).map (fun i => (runOpen k (t.drop i ++ (if g.oneshot then [] else t))).1)
    runs.foldl max 0 / 2 ^ 16

/-! ### Registers -/

/-- Gate states and entry in force as they stand now. -/
def Chip.gateNow (c : Chip) (p : Nat) : Nat × Nat :=
  match (c.gateSt p).oper with
  | none => (0xFFFF, 0)
  | some g => if g.entries.isEmpty then (0xFFFF, 0) else match g.phase c.dtw with
    | none => (0xFFFF, 0)
    | some ph =>
      let d := dropPhase g.turn ph 0
      ((match d.2 with | e :: _ => e.1 | [] => 0xFFFF), d.1)

/-- GATES and ENTRY follow the list in force (GATE_CHANGE). -/
def Chip.gateShow (c : Chip) (p : Nat) : Chip :=
  let n := c.gateNow p
  (c.putF F.SCH_GATE_STATUS.GATES n.1 p).putF F.SCH_GATE_STATUS.ENTRY n.2 p

/-- Registers of the list in force. -/
def Chip.gateRegs (c : Chip) (p : Nat) : Chip :=
  let g := c.gateSt p
  let len := match g.oper with | some l => l.entries.length | none => 0
  let c := c.putQ F.SCH_GATE_OPER_START.V (match g.oper with | some l => l.base | none => 0) p
  let c := c.putF F.SCH_GATE_OPER_CYCLE.V (match g.oper with | some l => l.cycle | none => 0) p
  let c := (c.putF F.SCH_GATE_OPER_LEN.V len p).putF F.SCH_GATE_STATUS.RUNNING (b2n (len != 0)) p
  let c := c.putF F.SCH_GATE_STATUS.ONESHOT (match g.oper with | some l => b2n l.oneshot | none => 0) p
  let c := c.putF F.SCH_GATE_STATUS.PENDING (b2n g.pend.isSome) p
  let c := c.putQ F.SCH_GATE_PEND_START.V (match g.pend with | some l => l.base | none => 0) p
  let c := (List.range 16).foldl (fun c k =>
    c.putF F.SCH_GATE_MAXWIN.V (match g.oper with | some l => l.maxwin k | none => 0xFFFFFFFF) p k) c
  c.gateShow p

/-- Every gate opens; the pending list stays. -/
def Chip.gateOff (c : Chip) (p : Nat) : Chip := (c.setGate p { c.gateSt p with oper := none }).gateRegs p

/-- The pending list is withdrawn. -/
def Chip.gateCancel (c : Chip) (p : Nat) : Chip :=
  ({ (c.setGate p { c.gateSt p with pend := none }) with
    time := { c.time with late := c.time.late.filter (· != PendAct.gate p) } }).gateRegs p

/-! ### Commands (R438, R441) -/

/-- A gate command completes at once. -/
def Chip.gateDone (c : Chip) (p st : Nat) : Chip := (c.putF F.SCH_GATE_CMD_STATUS.STATUS st p).raiseDone F.SCH_GATE_CMD_STATUS.DONE p

/-- Start time and status of a list (R438). A cyclic list whose cycle time is 0, which only a list of length 0 may have, has
no stated start: a free value. (log entry 102 DESIGN CHOICE.) -/
def Chip.gateStart (c : Chip) (base ct : Nat) (oneshot : Bool) : Nat × Nat :=
  let n := c.dtw
  let d := signedOf 64 (base + (2 ^ 64 - n % 2 ^ 64))
  if c.timeClass base = .far then (base, stFar)
  else if oneshot then
    (match c.timeClass base with
     | .ahead => (base, stOk)
     | .past => (0, stPast)
     | _ => if 0 < d then (base, stOk) else (n, stLate))
  else if ((65536000 : Nat) : Int) ≤ d then (base, stOk)
  else if ct = 0 then (c.freeNat % 2 ^ 64, stOk)
  else
    let short := (((65536000 : Nat) : Int) - d).toNat
    let step := ct * 2 ^ 16
    ((base + (short + step - 1) / step * step) % 2 ^ 64, stOk)

/-- START (R441). -/
def Chip.gateStartCmd (c : Chip) (p : Nat) (oneshot : Bool) : Chip :=
  let len := c.getF F.SCH_GATE_ADMIN_LEN.V p
  let ct := c.getF F.SCH_GATE_ADMIN_CYCLE.V p
  let es : List (Nat × Nat) := (List.range (min len 256)).map (fun i =>
    let b := smGet (fun _ => zerosB 8) c.sched.gateAdmin (256 * p + i)
    (beAt b 0 2, beAt b 4 4))
  let st := c.gateStart (c.getQ F.SCH_GATE_ADMIN_BASE.V p) ct oneshot
  let bad := !c.timeValid || decide (256 < len)
    || (decide (1 ≤ len) && (decide (ct < 1000) || decide (10 ^ 9 < ct) || es.any (fun e => e.2 == 0)))
  match firstRefusal [(bad, stInvalid), (st.2 == stFar, stFar), (st.2 == stPast, stPast),
      ((c.gateSt p).pend.isSome, stBusy)] with
  | some r => c.gateDone p r
  | none =>
    let c1 := if !oneshot && ct == 0 then c.useFree else c
    ((c1.setGate p { c.gateSt p with pend := some ⟨es, st.1, ct, oneshot⟩ }).gateRegs p).gateDone p st.2

/-- CANCEL. -/
def Chip.gateCancelCmd (c : Chip) (p : Nat) : Chip :=
  if (c.gateSt p).pend.isNone then c.gateDone p stInvalid else (c.gateCancel p).gateDone p stOk

/-- STOP. -/
def Chip.gateStopCmd (c : Chip) (p : Nat) : Chip := ((c.gateCancel p).gateOff p).gateDone p stOk

/-- A one-shot list ends (R437). -/
def Chip.gateEnd (c : Chip) (p : Nat) : Chip :=
  match (c.gateSt p).oper with
  | some l =>
    if l.oneshot && c.due ((l.base + l.cycle * 2 ^ 16) % 2 ^ 64) then (c.gateOff p).raise F.SCH_EVENTS.GATE_END else c
  | none => c

end Sys2Proof.Machine
end

