-- ==== Sys2Proof/Machine/Stops.lean ====
section
/-! DEFINITION. Which units a stop-bath or a recovery holds (R66, R70, R594, R606). -/
namespace Sys2Proof.Machine
open Sys2Proof

/-- A stop-bath entry in its drain, stopped or restarting phase names the unit instance (R70). Units: 0 lane group,
1 port group, 2 slice, 3 engine set, 4 cluster, 5 scheduler tree, 6 table region, 7 memory channel, 8 buffer bank. -/
def Chip.bathHolds (c : Chip) (unit inst : Nat) : Bool :=
  (List.range 8).any (fun n =>
    let ph := c.getF F.PLT_SB_STATE.PHASE n
    decide (2 ≤ ph) && decide (ph ≤ 4) && c.getF F.PLT_SB_STATE.UNIT n == unit && c.getF F.PLT_SB_STATE.INSTANCE n == inst)

/-- A recovery domain that is waiting, recovering or held stopped. Kinds: 0 lane, 1 port, 2 slice, 3 engine, 4 cluster,
5 channel, 6 bank, 7 gang link. -/
def Chip.domainOut (c : Chip) (kind inst : Nat) : Bool := c.recov.any (fun r => r.kind == kind && r.inst == inst)

/-- A stop-bath entry past its drain names the unit instance. -/
def Chip.bathStopped (c : Chip) (unit inst : Nat) : Bool :=
  (List.range 8).any (fun n =>
    let ph := c.getF F.PLT_SB_STATE.PHASE n
    decide (3 ≤ ph) && decide (ph ≤ 4) && c.getF F.PLT_SB_STATE.UNIT n == unit && c.getF F.PLT_SB_STATE.INSTANCE n == inst)

/-- A domain is out by a fault of a cause that a test accepts, or held stopped. -/
def Chip.causeOut (c : Chip) (kind inst : Nat) (ok : Nat → Bool) : Bool :=
  c.recov.any (fun r => r.kind == kind && r.inst == inst && (ok r.cause || r.state == 3))

/-- A slice takes no frames and its ports' queues are not served; a word of rule memory concerns one pipe only (R600). -/
def Chip.sliceHeld (c : Chip) (s : Nat) : Bool := c.bathHolds 2 s || c.causeOut 2 s (fun k => k == 4 || k == 5)

/-- A port's link is down for its recovery (R599); a fault of its scheduler tree leaves the link up. -/
def Chip.portOut (c : Chip) (p : Nat) : Bool := c.causeOut 1 p (fun k => k != 3)

/-- A port's scheduler tree is not served. -/
def Chip.treeHeld (c : Chip) (p : Nat) : Bool := c.bathHolds 5 p || c.domainOut 1 p || c.sliceHeld (p / 32)

/-- An engine takes no ops (R70, R606); a lost way alone does not stop it (R259). -/
def Chip.engineHeld (c : Chip) (e : Nat) : Bool :=
  c.bathHolds 3 (e / 8) || c.bathHolds 3 16 || c.causeOut 3 e (fun k => k != 0xA)

/-- An engine serves no op, not even one it has taken: during a drain the ops in the engine complete (R70). -/
def Chip.engineStalled (c : Chip) (e : Nat) : Bool :=
  c.bathStopped 3 (e / 8) || c.bathStopped 3 16 || c.causeOut 3 e (fun k => k != 0xA)

/-- A cluster is not eligible for reasons other than sleep and HOLD (R345, R585); a lost slot bank does not stop it. -/
def Chip.clusterHeld (c : Chip) (k : Nat) : Bool :=
  c.bathHolds 4 k || c.causeOut 4 k (fun x => x != 0xD) || bitOf k (c.getF F.SFL_STATUS.FROZEN)

end Sys2Proof.Machine
end

