-- ==== Sys2Proof/Machine/Sched.lean ====
section
/-! DEFINITION. The egress scheduler (R424 to R435), frames as they leave (R462, R468, R530), check-value units (R120 to
R122) and observation (R442 to R444). -/
namespace Sys2Proof.Machine
open Sys2Proof

/-! ### Frames as they leave -/

/-- The frame with its PTP correction (R462), edited before the pass's rewrite; true: it was corrected.
(log entry 96 DEDUCED.) -/
def Chip.ptpFix (c : Chip) (p : Pkt) (k : Copy) : Bool × Bytes :=
  let fr := p.frame
  let o := beAt p.hv 18 2 % 1024
  let ty := byteAt fr o % 16
  let cf := beAt fr (o + 8) 8
  if !(c.flag F.TIM_PORT_CTRL.TC_EN p.port && c.flag F.TIM_PORT_CTRL.TC_EN k.port && bitOf 15 (beAt p.hv 18 2)
      && decide (byteAt fr (o + 1) % 16 = 2) && decide (ty < 4) && decide (o + 16 ≤ fr.length)
      && (p.src == 0 || p.src == 5) && decide (k.kind < 2)) then (false, fr)
  else
    let res := signedOf 64 (k.estamp + (2 ^ 64 - p.istamp % 2 ^ 64))
    let asym (q : Nat) : Int := signedOf 32 (c.getF F.TIM_PORT_ASYM.V q)
    let x := signedOf 64 cf + res + (if ty = 0 ∨ ty = 3 then asym p.port else 0) - (if ty = 1 ∨ ty = 2 then asym k.port else 0)
      + (if ty = 0 && c.flag F.TIM_PORT_CTRL.P2P_EN p.port then ((c.getF F.TIM_PORT_PDELAY.V p.port : Nat) : Int) else 0)
    let lim : Int := (2 ^ 63 : Nat)
    let v := if cf = 2 ^ 63 - 1 ∨ x > lim - 1 ∨ x < -lim then 2 ^ 63 - 1 else patternOf 64 x
    let fr1 := putBe fr (o + 8) 8 v
    match c.l4Ofs p with
    | some l4 => if c.l4Type p = 2 ∧ l4 < o then
        (true, fixL4 fr1 (c.l3Type p) 2 l4 [] [] (sliceB fr (o + 8) 8) (natBe 8 v)) else (true, fr1)
    | none => (true, fr1)

/-- Gang header of a DATA frame (R519, R530). -/
def Chip.dataHeader (c : Chip) (p : Pkt) (k : Copy) : Bytes :=
  let inj := p.src == 1 || p.src == 2
  let fq : Nat := match p.handle with | some (d, h) => d * 2 ^ 18 + h | none => 0
  natBe 1 0x11 ++ natBe 1 (b2n (p.res.outKind == 1) + 2 * b2n p.handle.isSome + 4 * b2n inj)
    ++ natBe 1 (c.getF F.GNG_STATUS.DEVICE + 4 * k.dev) ++ natBe 1 (c.srcZone p)
    ++ natBe 4 (smGet (fun _ => 0) c.gang.txSeq k.port) ++ natBe 8 p.istamp ++ natBe 2 (p.ver.getD 0)
    ++ natBe 2 (p.port % 512) ++ natBe 4 p.iseq ++ natBe 2 p.res.out ++ natBe 1 (k.cls % 16 + 16 * p.pass) ++ natBe 1 0
    ++ natBe 4 fq

/-- A gang frame around a header and a body (R518). -/
def Chip.gangFrame (c : Chip) (dev : Nat) (hdr body : Bytes) : Bytes :=
  natBe 6 (0x025547000000 + dev) ++ natBe 6 (0x025547000000 + c.getF F.GNG_STATUS.DEVICE) ++ natBe 2 0x88B5 ++ hdr ++ body

/-- Zero padding to 64 bytes with the FCS (R113). -/
def padFrame (fr : Bytes) : Bytes := fr ++ zerosB (60 - fr.length)

/-- The frame a copy leaves as, padded, without FCS. -/
def Chip.outFrame (c : Chip) (p : Pkt) (k : Copy) : Bytes :=
  padFrame (match k.kind with
    | 2 => c.copyFrame p k
    | 3 => c.gangFrame k.dev (c.dataHeader p k) (c.copyFrame p k)
    | _ => c.editFrame p k.encap (c.ptpFix p k).2)

/-! ### Check-value units (R120 to R122). Direction 0 receives, 1 transmits. -/

/-- The first length or type field after any VLAN tags. -/
def etherType : Nat → Bytes → Nat → Nat
  | 0, fr, o => beAt fr o 2
  | n + 1, fr, o =>
    let t := beAt fr o 2
    if t = 0x8100 ∨ t = 0x88A8 ∨ t = 0x9100 then etherType n fr (o + 4) else t

/-- A frame without FCS passes a snoop channel whole. -/
def Chip.snoop (c : Chip) (p dir : Nat) (fr : Bytes) : Chip :=
  let start := c.getF F.PRT_CVU_WIN.WIN_START p dir
  if !c.flag F.PRT_CVU_CTRL.SNOOP_EN p dir
      || (c.flag F.PRT_CVU_CTRL.FILTER p dir && etherType 8 fr 12 != c.getF F.PRT_CVU_WIN.ETYPE p dir)
      || decide (fr.length < start) then c
  else
    let wl := c.getF F.PRT_CVU_CTRL.WIN_LEN p dir
    let win := if wl = 0 then fr.drop start else (fr.drop start).take wl
    let poly := polyOf (c.getF F.PRT_CVU_CTRL.POLY p dir)
    let ps := c.portSt p
    let staged := smGet (fun _ => 0) ps.cvuStaged dir
    let r0 := if staged ≠ 0 then staged - 1
      else if c.flag F.PRT_CVU_CTRL.STREAM p dir then c.getF F.PRT_CVU_RUN.V p dir else c.getF F.PRT_CVU_INIT.V p dir
    let r := cvRun poly (r0 % 2 ^ poly.width) win
    let c := c.setPort p { ps with cvuStaged := smErase ps.cvuStaged dir }
    let c := ((c.putF F.PRT_CVU_RUN.V r p dir).putF F.PRT_CVU_LAST.V (cvFinal poly r) p dir).bumpWrap F.PRT_CVU_FRAMES.V p dir
    let n := poly.width / 8
    let tr := (fr.drop (start + win.length)).take n
    if c.flag F.PRT_CVU_CTRL.TRAILER_CHECK p dir && (tr.length != n || beNat tr != cvFinal poly r) then
      (c.bump F.PRT_CVU_MISMATCH.V p dir).raise F.PRT_EVENTS.CVU_MISMATCH p
    else c

/-! ### Eligibility (R123, R425, R439) -/

/-- A copy may leave before its tail has arrived (R123). -/
def Chip.cutThrough (c : Chip) (p : Pkt) (k : Copy) : Bool :=
  p.tail == 0 && p.src == 0 && p.pass == 0 && p.inspect == 0 && c.flag F.PRT_CFG.CT_EN p.port && c.flag F.PRT_CFG.CT_EN k.port
    && decide (c.portMbps k.port ≤ c.portMbps p.port)
    && decide (c.lengthBound p ≤ c.getF F.PRT_MAXFRAME.MAXFRAME k.port) && decide (256 ≤ p.got)

/-- The packet and copy at a queue's head. -/
def Chip.headCopy (c : Chip) (q : Nat) : Option (Nat × Pkt × Copy) :=
  match c.queue q with
  | [] => none
  | (pid, cid) :: _ => match c.pkt pid with
    | none => none
    | some p => (p.copies.find? (fun k => k.cid == cid)).map (fun k => (pid, p, k))

/-- An eligible queue's head (R425). -/
def Chip.eligHead (c : Chip) (q : Nat) : Option (Nat × Pkt × Copy) :=
  match c.headCopy q with
  | none => none
  | some (pid, p, k) =>
    if c.getF F.SCH_Q_QUANTUM.QUANTUM q != 0 && !c.headHeld q && (p.tail == 1 || c.cutThrough p k) && c.qConforms q then
      some (pid, p, k)
    else none

/-- The length the gate fit check uses (R439). -/
def Chip.gateLen (c : Chip) (p : Pkt) (k : Copy) : Nat :=
  if p.tail ≠ 0 then c.chargedLen p k
  else (match p.bound with | some b => b | none => c.gateBound k.port k.cls) + c.getF F.SCH_PORT_CFG.OVERHEAD k.port

/-! ### Deficit round robin (R427) -/

/-- drr_pick: the member, the list and the deficits after the replenishments. `len`: the length of an eligible member's
frame. -/
def drrPick (len : Nat → Option Nat) (quantum : Nat → Nat) : Nat → List Nat → SMap Nat → Option (Nat × List Nat × SMap Nat)
  | 0, _, _ => none
  | n + 1, l, df =>
    match l.find? (fun m => (len m).isSome) with
    | none => none
    | some m =>
      let d := smGet (fun _ => 0) df m
      if (match len m with | some x => decide (x ≤ d) | none => false) then some (m, l, df)
      else drrPick len quantum n (l.filter (· != m) ++ [m]) (smSet (fun _ => 0) df m (d + quantum m))

/-- Turns that suffice: every turn adds at least 1 to a deficit below its length. -/
def drrFuel (lens : List Nat) : Nat := lens.foldl (fun a x => a + x + 1) 1

/-- The queue-level pick of a class. -/
def Chip.pickQueue (c : Chip) (p k : Nat) : Option (Nat × List Nat × SMap Nat) :=
  let l := c.qlist p k
  let heads : SMap Nat := l.foldl (fun m q => match c.eligHead q with
    | some h => smPut m q (c.chargedLen h.2.1 h.2.2)
    | none => m) []
  let df : SMap Nat := l.foldl (fun m q => smSet (fun _ => 0) m q (c.getF F.SCH_Q_STATUS.DEF q)) []
  drrPick (smFind heads) (fun q => c.getF F.SCH_Q_QUANTUM.QUANTUM q) (drrFuel (heads.map Prod.snd)) l df

/-- The charged length of a class's candidate; none where the class is not eligible (R425). -/
def Chip.classCand (c : Chip) (p k : Nat) : Option Nat :=
  if c.classPaused p k || !c.clsConforms p k
      || (!c.flag F.SCH_CL_CFG.STRICT p k && c.getF F.SCH_CL_QUANTUM.V p k == 0) then none
  else match c.pickQueue p k with
    | none => none
    | some (q, _, _) => match c.eligHead q with
      | none => none
      | some (_, x, y) => if c.gateFits p k (c.gateLen x y) then some (c.chargedLen x y) else none

/-! ### Taking a frame (R426, R430) -/

/-- Tokens after a charge; a value below the 48-bit range is not stated: a free value. -/
def Chip.charged (c : Chip) (t : Int) (len : Nat) : Int × Chip :=
  let x := t - ((len * ubit : Nat) : Int)
  if x < -((2 ^ 47 : Nat) : Int) then (signedOf 48 c.freeNat, c.useFree) else (x, c)

/-- A frame's length charged to the shapers of its queue, class and port. -/
def Chip.chargeShapers (c : Chip) (q p k len : Nat) : Chip :=
  let a := c.charged (c.qTok q) len
  let c := (a.2.putQ F.SCH_Q_TOK.V (patternOf 48 a.1) q)
  let b := c.charged (c.clsTok p k) len
  let c := { b.2 with sched := { b.2.sched with clsTok := smSet (fun _ => 0) b.2.sched.clsTok (16 * p + k) (patternOf 48 b.1) } }
  let d := c.charged (c.portTok p) len
  (d.2.putQ F.SCH_PORT_TOK.V (patternOf 48 d.1) p).condEv 9 q 2 (!c.qConforms q)

/-- A queue's delay is observed when a packet of it begins transmission (R443, R444). -/
def Chip.observe (c : Chip) (q delay : Nat) : Chip :=
  let d := min delay 0xFFFFFFFF
  if c.watchMode then
    (if c.getF F.SCH_Q_OBS_DELAY.V q < d then c.putF F.SCH_Q_OBS_DELAY.V d q else c)
  else if smGet (fun _ => false) c.sched.obsSeen q then c
  else
    let a : Int := (c.getF F.SCH_Q_OBS_AVG.V q : Nat)
    let w := c.getF F.SCH_OBS_CTRL.AVG_W
    let avg : Int := if smGet (fun _ => false) c.sched.obsFirst q then a + ((d : Nat) - a) / ((2 ^ w : Nat) : Int) else (d : Nat)
    let c := (c.putF F.SCH_Q_OBS_DELAY.V d q).putF F.SCH_Q_OBS_AVG.V (patternOf 32 avg) q
    { c with sched := { c.sched with
      obsSeen := smSet (fun _ => false) c.sched.obsSeen q true
      obsFirst := smSet (fun _ => false) c.sched.obsFirst q true } }

/-- A copy that leaves its queue without being sent, for a cause outside R413. -/
def Chip.discardCopy (c : Chip) (pid : Nat) (p : Pkt) (k : Copy) (reason : Nat) : Chip :=
  let mark := match p.strip with | some s => (match s.copy with | some x => x.1 == k.cid | none => false) | none => false
  let c := if mark then c.endStrip pid 2 reason else c
  ((c.subCells k.queue k.cells).endCopy pid k.cid).settleBindings

/-- A frame taken for transmission begins (R424, R461). -/
def Chip.beginTx (c : Chip) (pid : Nat) (p : Pkt) (k : Copy) : Chip :=
  let c := c.observe k.queue (c.mt - k.admAt)
  let c := c.signal 9 k.queue 1
  let stamp := patternOf 64 ((c.dtw : Nat) + signedOf 32 (c.getF F.TIM_PORT_TX_ADJ.V k.port))
  let k1 : Copy := { k with state := 2, estamp := stamp }
  let now := c.dtw
  let c := c.updPkt pid fun (p : Pkt) =>
    let p : Pkt := p.putCopy k1
    { p with strip := p.strip.map (fun (s : Strip) =>
        if s.timedOut || (match s.copy with | some x => x.1 != k.cid | none => true) then s
        else
          let st := smPut (smPut s.stamps 10 now) 11 now
          { s with stamps := if k.kind = 3 then st else smPut st 12 stamp }) }
  let c := c.setPort k.port { c.portSt k.port with txBusy := some (pid, k.cid) }
  let c := if p.tail = 0 then c.signal 1 k.port 7 else c
  if (c.ptpFix p k1).1 then (c.bump F.TIM_PORT_CNT_TC.V k.port).signal 11 0 2 else c

/-- take of R426: picks committed, shapers charged, and the head frame begins, unless an egress check drops it (R163,
R530). -/
def Chip.take (c : Chip) (p k : Nat) (clsPick : Option (List Nat × SMap Nat)) : Chip :=
  match c.pickQueue p k with
  | none => c
  | some (q, ql, qd) => match c.eligHead q with
    | none => c
    | some (pid, x, y) =>
      let len := c.chargedLen x y
      let c := match clsPick with
        | none => c
        | some (cl, cd) =>
          let c := c.setCl p cl
          let c := cl.foldl (fun (c : Chip) (m : Nat) => c.setClsDef p m (smGet (fun _ => 0) cd m)) c
          c.setClsDef p k (c.clsDef p k - len)
      let c := ql.foldl (fun (c : Chip) (m : Nat) => c.putF F.SCH_Q_STATUS.DEF (smGet (fun _ => 0) qd m) m) (c.setQl p k ql)
      let c := c.putF F.SCH_Q_STATUS.DEF (c.getF F.SCH_Q_STATUS.DEF q - len) q
      let c := c.chargeShapers q p k len
      let c := c.dequeue q pid y.cid
      let c := c.settleBindings
      if y.kind < 2 && !y.encap.isEmpty && x.tail == 1
          && decide (c.getF F.PRT_MAXFRAME.MAXFRAME p < wireLen (c.copyFrame x y).length) then
        (c.bump F.CLS_CNT_ENCAP_MTU.V).discardCopy pid x y 0
      else if y.kind = 3 && decide (12238 < (c.copyFrame x y).length) then
        (c.bump F.GNG_PEER_CNT_OVERSIZE.V y.dev).discardCopy pid x y 0
      else c.beginTx pid x y

/-! ### GATE_OVERSIZE (R440) -/

/-- The head of a queue that can never fit the list in force. (log entry 96 DEDUCED.) -/
def Chip.oversizeHead (c : Chip) (p k q : Nat) : Option (Nat × Pkt × Copy) :=
  match c.headCopy q with
  | none => none
  | some (pid, x, y) =>
    let w := c.getF F.SCH_GATE_MAXWIN.V p k
    if w = 0 ∨ w = 0xFFFFFFFF then none
    else if w * c.portMbps p < c.chargedLen x y * 8000 then some (pid, x, y) else none

/-- Heads that can never fit are dropped, one after another. -/
def Chip.dropOversize (c : Chip) (p k q : Nat) : Nat → Chip
  | 0 => c
  | n + 1 => match c.oversizeHead p k q with
    | none => c
    | some (pid, x, y) =>
      let c := (c.dequeue q pid y.cid).discardCopy pid x y 0x22
      let c := ((c.bump F.SCH_PORT_CNT_OVERSIZE.V p).stat p 48).raise F.SCH_EVENTS.OVERSIZE
      c.dropOversize p k q n

/-- Every head of a port that can never fit. -/
def Chip.portOversize (c : Chip) (p : Nat) : Chip :=
  (List.range 16).foldl (fun c k => (c.qlist p k).foldl (fun c q => c.dropOversize p k q (c.queue q).length) c) c

/-! ### The decision (R424, R426) -/

/-- Shapers a decision of a port reads are brought up to date (R429). -/
def Chip.updTree (c : Chip) (p : Nat) : Chip :=
  let c := (List.range 16).foldl (fun c k =>
    if (c.qlist p k).isEmpty then c
    else (c.qlist p k).foldl (fun c q => (c.updQ q).condEv 9 q 2 (!(c.updQ q).qConforms q)) (c.updCls p k)) c
  c.updPort p

/-- The port may begin a frame now. -/
def Chip.mayBegin (c : Chip) (p : Nat) : Bool :=
  !c.treeHeld p && c.portUp p && (c.portSt p).txBusy.isNone && !c.tripHold && !c.power.idleAll && !c.flag F.PRT_STATUS.LPI_TX p
    && !(c.portSt p).lpiHold && smGet (fun _ => 0) c.tm.pfcDue p == 0

/-- port_decide. -/
def Chip.portDecide (c : Chip) (p : Nat) : Chip :=
  let c := c.portOversize p
  let c := c.updTree p
  let cands : SMap Nat := (List.range 16).foldl (fun m k => match c.classCand p k with
    | some n => smPut m k n
    | none => m) []
  let c := c.putF F.SCH_PORT_ELIG.V (cands.foldl (fun a (e : Nat × Nat) => a + 2 ^ e.1) 0) p
  if !c.portConforms p then c
  else match (List.range 16).reverse.find? (fun k => c.flag F.SCH_CL_CFG.STRICT p k && (smFind cands k).isSome) with
    | some k => c.take p k none
    | none =>
      let cl := c.clist p
      let df : SMap Nat := cl.foldl (fun m k => smSet (fun _ => 0) m k (c.clsDef p k)) []
      let len (k : Nat) : Option Nat := if c.flag F.SCH_CL_CFG.STRICT p k then none else smFind cands k
      match drrPick len (fun k => c.getF F.SCH_CL_QUANTUM.V p k) (drrFuel (cands.map Prod.snd)) cl df with
      | none => c
      | some (k, cl, df) => c.take p k (some (cl, df))

/-- SCHED_DECISION. -/
def Chip.schedDecision (c : Chip) (p : Nat) : Chip := if c.mayBegin p then c.portDecide p else c

/-! ### The end of a transmission (R124, R412, R468) -/

/-- The port is free again after the copy it sent; the copy's queue counts fall. -/
def Chip.endTx (c : Chip) (pid : Nat) (k : Copy) : Chip :=
  let c := c.setPort k.port { c.portSt k.port with txBusy := none }
  ((c.subCells k.queue k.cells).endCopy pid k.cid).settleBindings

/-- The copy carries its packet's strip mark. -/
def Pkt.marked (p : Pkt) (k : Copy) : Bool :=
  match p.strip with | some s => (match s.copy with | some x => x.1 == k.cid | none => false) | none => false

/-- A copy in transmission ends with a stomp (R124): TX_STOMPED. (log entry 98 DEDUCED.) -/
def Chip.stompCopy (c : Chip) (pid : Nat) (p : Pkt) (k : Copy) (reason : Nat) : Chip :=
  let c := ((c.stat k.port 45).signal 1 k.port 4).raise F.PRT_EVENTS.STOMP_TX k.port
  let c := c.setPort k.port { c.portSt k.port with lastOut := withStomp (c.outFrame p k) }
  let c := if p.marked k then c.endStrip pid 2 reason else c
  c.endTx pid k

/-- A copy whose last byte leaves whole. (log entry 96 DEDUCED.) -/
def Chip.sentCopy (c : Chip) (pid : Nat) (p : Pkt) (k : Copy) : Chip :=
  let fr := c.outFrame p k
  let n := fr.length + 4
  let c := (c.txStats k.port n fr).snoop k.port 1 fr
  let c := (c.stat k.port (64 + k.cls)).stat k.port (80 + k.cls) n
  let c := if k.kind = 3 then { c with gang := { c.gang with
      txSeq := smSet (fun _ => 0) c.gang.txSeq k.port ((smGet (fun _ => 0) c.gang.txSeq k.port + 1) % 2 ^ 32) } } else c
  let c := c.setPort k.port { c.portSt k.port with lastOut := withFcs fr }
  let c := if p.marked k then c.endStrip pid (if k.kind = 3 then 4 else 1) 0 else c
  c.endTx pid k

/-- FRAME_TRANSMITTED: a frame's last byte leaves, or the transmitter has run out of written cells (R412).
(log entry 98 DEDUCED.) -/
def Chip.frameTransmitted (c : Chip) (port : Nat) : Chip :=
  match (c.portSt port).txBusy with
  | none => c
  | some (pid, cid) => match c.pkt pid with
    | none => c.setPort port { c.portSt port with txBusy := none }
    | some p => match p.copies.find? (fun k => k.cid == cid) with
      | none => c.setPort port { c.portSt port with txBusy := none }
      | some k => if p.tail = 1 then c.sentCopy pid p k else (c.bump F.TMG_CNT_UNDERRUN.V).stompCopy pid p k 0

/-! ### Shapers and observation (R429, R431, R442 to R444) -/

/-- A shaper is brought up to date: level 0 queue `n`, 1 class 16 × port + class, 2 port. -/
def Chip.shaperUpdate (c : Chip) (level n : Nat) : Chip :=
  match level with
  | 0 => (c.updQ n).condEv 9 n 2 (!(c.updQ n).qConforms n)
  | 1 => c.updCls (n / 16) (n % 16)
  | _ => c.updPort n

/-- A shaper takes the tokens its RESET bit gives (R431). -/
def Chip.shaperReset (c : Chip) (level n : Nat) : Chip :=
  match level with
  | 0 => c.setQTok n (tokFresh (c.getF F.SCH_Q_SHP_CFG.BURST n) (c.flag F.SCH_Q_SHP_CFG.RESET n))
  | 1 => c.setClsTok (n / 16) (n % 16) (tokFresh (c.getF F.SCH_CL_SHP_BURST.V (n / 16) (n % 16))
      (c.flag F.SCH_CL_CFG.SHP_RESET (n / 16) (n % 16)))
  | _ => c.setPortTok n (tokFresh (c.getF F.SCH_PORT_SHP_BURST.V n) (c.flag F.SCH_PORT_CFG.SHP_RESET n))

/-- A write of a register of shaper (level, n) that sets its tokens (R431): RATE 0, BURST 1 (for a queue, SCH_Q_SHP_CFG), or, for a
class or port shaper, its configuration register 2. A queue in no pool takes no write. -/
def Chip.shaperWrite (c : Chip) (level n reg v : Nat) : Chip :=
  match level, reg with
  | 0, 0 => if c.getF F.SCH_Q_INFO.KIND n = 0 then c else (c.putF F.SCH_Q_SHP_RATE.V v n).shaperReset 0 n
  | 0, _ => if c.getF F.SCH_Q_INFO.KIND n = 0 then c
      else (c.putF F.SCH_Q_SHP_CFG.all (Nat.land v 0xE0FFFFFF) n).shaperReset 0 n
  | 1, 0 => (c.putF F.SCH_CL_SHP_RATE.V v (n / 16) (n % 16)).shaperReset 1 n
  | 1, 1 => (c.putF F.SCH_CL_SHP_BURST.V v (n / 16) (n % 16)).shaperReset 1 n
  | 1, _ =>
    let old := c.getF F.SCH_CL_CFG.all (n / 16) (n % 16)
    let cap := c.getF F.SCH_PORT_POOL.QCOUNT (n / 16) - 16
    let w := Nat.land v 0x1FFF007F
    let c := c.putF F.SCH_CL_CFG.all (setBitsOf 28 16 w (min cap (bitsOf 28 16 w))) (n / 16) (n % 16)
    if bitsOf 2 1 old = bitsOf 2 1 w then c else c.shaperReset 1 n
  | _, 0 => (c.putF F.SCH_PORT_SHP_RATE.V v n).shaperReset 2 n
  | _, 1 => (c.putF F.SCH_PORT_SHP_BURST.V v n).shaperReset 2 n
  | _, _ =>
    let old := c.getF F.SCH_PORT_CFG.all n
    let w := Nat.land v 0x73F
    let c := c.putF F.SCH_PORT_CFG.all w n
    if bitsOf 9 8 old = bitsOf 9 8 w then c else c.shaperReset 2 n

/-- Register words of the queue pages at the given offsets go back to 0. -/
def Chip.clearQueueRegs (c : Chip) (offs : List Nat) : Chip :=
  { c with regs := c.regs.filter (fun (e : Nat × Word) => !(decide (0x1000000 ≤ e.1) && decide (e.1 < 0x2000000) && offs.contains (e.1 % 64))) }

/-- The mode in force after a change: every observation register 0 (R442). -/
def Chip.obsChanged (c : Chip) : Chip :=
  let c := c.clearQueueRegs [0x20, 0x24, 0x28]
  { (c.putF F.GLB_STATUS.WATCH_MODE (b2n c.watchMode)) with sched := { c.sched with obsSeen := [], obsFirst := [] } }

/-- A write of MODE or FORCED. -/
def Chip.setObs (c : Chip) (f : Chip → Chip) : Chip :=
  let c1 := f c
  if c1.watchMode = c.watchMode then c1 else c1.obsChanged

/-- OBS_TICK. -/
def Chip.obsTick (c : Chip) : Chip :=
  if c.watchMode then c
  else
    let c := c.clearQueueRegs [0x20]
    let c := c.tm.qCells.foldl (fun c (e : Nat × Nat) => c.putF F.SCH_Q_OBS_DEPTH.V e.2 e.1) c
    { c with sched := { c.sched with obsSeen := [] } }

/-- PENDING_LIST_START (R441, R458): at its time, or at once where a STEP has passed it. -/
def Chip.pendStart (c : Chip) (p : Nat) : Chip :=
  match (c.gateSt p).pend with
  | none => c
  | some l =>
    let late := c.time.late.contains (PendAct.gate p)
    if c.due l.base || late then
      let c := { c with time := { c.time with late := c.time.late.filter (· != PendAct.gate p) } }
      ((((c.setGate p ⟨some l, none⟩).gateRegs p).raise F.SCH_EVENTS.GATE_START).signal 11 0 1).portOversize p
    else c

end Sys2Proof.Machine
end

