-- ==== Sys2Proof/Machine/GangBase.lean ====
section
/-! DEFINITION. The gang as every block sees it: the owner map (R521), the link sets (R517) and the sending of frames that
are not DATA (R518, R519). A frame leaves in the command that sends it. -/
namespace Sys2Proof.Machine
open Sys2Proof

/-- The device is a member: STATE MEMBER or CHANGING. -/
def Chip.gangMember (c : Chip) : Bool := c.getF F.GNG_STATUS.STATE == 1 || c.getF F.GNG_STATUS.STATE == 2

/-- The device is ISOLATED (R524). -/
def Chip.isolated (c : Chip) : Bool := c.getF F.GNG_STATUS.STATE == 3

/-- The device the owner map names for slot `s` (R521). -/
def Chip.mapOf (c : Chip) (s : Nat) : Nat := bitsOf 1 0 (c.getF F.GNG_MAP.V (s / 16) / 2 ^ (2 * (s % 16)))

/-- The owner of a flow; none while the device is ISOLATED (R524). -/
def Chip.ownerOf (c : Chip) (h1 : Nat) : Option Nat :=
  match c.getF F.GNG_STATUS.STATE with
  | 0 => some c.ownDevice
  | 3 => none
  | _ => some (c.mapOf (hSlot h1))

/-- The ports of the link set to a device (R517). -/
def Chip.linkPorts (c : Chip) (dev : Nat) : List Nat := smGet (fun _ => []) c.gang.lists dev

/-- The port a frame of a flow takes to a device (R517); none without an in-service port. (log entry 96 DEDUCED.) -/
def Chip.slotPort (c : Chip) (dev h1 : Nat) : Option Nat :=
  match c.linkPorts dev with
  | [] => none
  | l => some (l.getD (hSlot h1 % l.length) 0)

/-- The header of a frame that is not DATA: VT, DEV and LSEQ; every other field 0 (R519). -/
def Chip.gangHeader (c : Chip) (port dev type : Nat) : Bytes :=
  natBe 1 (0x10 + type) ++ zerosB 1 ++ natBe 1 (c.getF F.GNG_STATUS.DEVICE + 4 * dev) ++ zerosB 1
    ++ natBe 4 (smGet (fun _ => 0) c.gang.txSeq port) ++ zerosB 24

/-- The next LSEQ of a port is used. -/
def Chip.nextSeq (c : Chip) (port : Nat) : Chip :=
  { c with gang := { c.gang with
    txSeq := smSet (fun _ => 0) c.gang.txSeq port ((smGet (fun _ => 0) c.gang.txSeq port + 1) % 2 ^ 32) } }

/-- A frame of a TYPE leaves a gang port for a device. (log entry 79 DESIGN CHOICE.) -/
def Chip.gangOut (c : Chip) (port dev type : Nat) (body : Bytes) : Chip :=
  let fr := padFrame (c.gangFrame dev (c.gangHeader port dev type) body)
  let c := (c.nextSeq port).txStats port (fr.length + 4) fr
  c.setPort port { c.portSt port with lastOut := withFcs fr }

/-- The body of an RREC frame (R537). -/
def rrecBody (op status reason src tag h1 h2 : Nat) (r : Bytes) : Bytes :=
  natBe 1 op ++ natBe 1 status ++ natBe 1 reason ++ natBe 1 src ++ natBe 4 tag ++ natBe 4 h1 ++ natBe 4 h2 ++ sliceB r 0 128

/-- The body of a CTRL frame (R520): SUB, EPOCH and bytes 8 to 79. -/
def Chip.ctrlBody (c : Chip) (sub : Nat) (x : Bytes) : Bytes :=
  natBe 1 sub ++ zerosB 3 ++ natBe 4 (c.getF F.GNG_EPOCH.V) ++ sliceB x 0 72

/-- A CTRL frame on a port. -/
def Chip.ctrlOut (c : Chip) (port dev sub : Nat) (x : Bytes) : Chip := c.gangOut port dev 6 (c.ctrlBody sub x)

/-- A CTRL frame to a device on L[0] (R517). -/
def Chip.ctrlTo (c : Chip) (dev sub : Nat) (x : Bytes) : Chip :=
  match c.linkPorts dev with
  | [] => c
  | p :: _ => c.ctrlOut p dev sub x

/-- A CTRL frame to a device on every port of L. -/
def Chip.ctrlAll (c : Chip) (dev sub : Nat) (x : Bytes) : Chip :=
  (c.linkPorts dev).foldl (fun c p => c.ctrlOut p dev sub x) c

/-- The devices of the gang but this one. -/
def Chip.peers (c : Chip) : List Nat :=
  (List.range 4).filter (fun d => bitOf d (c.getF F.GNG_STATUS.MEMBERS) && d != c.getF F.GNG_STATUS.DEVICE)

end Sys2Proof.Machine
end

