-- ==== Sys2Proof/Machine/Disp.lean ====
section
/-! DEFINITION. The work dispatcher (R331 to R350): items, classes and slots, offers, binding, waking and the contact sheet. -/
namespace Sys2Proof.Machine
open Sys2Proof

/-! ### Contexts -/

/-- A context by global number. -/
def Chip.ctx (c : Chip) (x : Nat) : Ctx := smGet (fun _ => Ctx.init) c.act.ctxs x

/-- The chip with a context set. -/
def Chip.setCtx (c : Chip) (x : Nat) (v : Ctx) : Chip :=
  { c with act := { c.act with ctxs := smSet (fun _ => Ctx.init) c.act.ctxs x v } }

/-- The chip with a context changed. -/
def Chip.onCtx (c : Chip) (x : Nat) (f : Ctx → Ctx) : Chip := c.setCtx x (f (c.ctx x))

/-- A context runs no routine. -/
def Ctx.free (x : Ctx) : Bool := x.st == 0 || x.st == 5

/-- The contexts of a cluster. -/
def clusterCtxs (k : Nat) : List Nat := (List.range 64).map (64 * k + ·)

/-- Contexts of a cluster that run a routine. -/
def Chip.busy (c : Chip) (k : Nat) : Nat := ((clusterCtxs k).filter (fun x => !(c.ctx x).free)).length

/-- An entry address lies in the open region. -/
def openEntry (a : Nat) : Bool := decide (0x6000 ≤ a)

/-! ### Items (R331 to R336) -/

/-- KIND of an item. -/
def itemKind (i : Bytes) : Nat := bitsOf 7 4 (byteAt i 0)

/-- Kinds only their device source creates, and the reserved ones (R332, R336). -/
def kindForged (k : Nat) : Bool := decide (k ≤ 7) || decide (11 ≤ k)

/-- The contact sheet's TAG (R349). -/
def itemTag (i : Bytes) : Nat :=
  let k := itemKind i
  if k = 1 ∨ k = 2 ∨ k = 3 ∨ k = 9 then beAt i 52 4 else beAt i 0 4

/-- The chip with the dispatcher changed. -/
def Chip.onWds (c : Chip) (f : DispSt → DispSt) : Chip := { c with wds := f c.wds }

/-! ### Contact sheet (R349, R350) -/

/-- A record's 32 bytes, without LOST. -/
def csBytes (time ev cls gap loc kind st code steps lost count tag : Nat) : Bytes :=
  natLe 8 time ++ natLe 1 ev ++ natLe 1 (cls + 128 * gap) ++ natLe 2 loc ++ natLe 1 kind ++ natLe 1 st ++ natLe 1 code
    ++ natLe 1 0 ++ natLe 2 (min steps 65535) ++ natLe 2 lost ++ natLe 4 count ++ natLe 4 tag ++ natLe 4 0

/-- The sheet stops as if ENABLE had been cleared, or counts a record after its trigger. -/
def Chip.csAfter (c : Chip) : Chip :=
  match c.wds.csPost with
  | none => c
  | some n =>
    if n ≤ 1 then (c.onWds fun w => { w with csPost := none }).putF F.WDS_CS_CTRL.ENABLE 0
    else c.onWds fun w => { w with csPost := some (n - 1) }

/-- An END of the trigger status (R350). -/
def Chip.csTrigger (c : Chip) (st : Nat) : Chip :=
  if c.getF F.WDS_CS_CTRL.MODE = 1 ∧ !c.flag F.WDS_CS_TRIGGER.TRIGGERED ∧ c.getF F.WDS_CS_TRIGGER.STATUS = st then
    let c := (c.putF F.WDS_CS_TRIGGER.TRIGGERED 1).raise F.WDS_EVENTS.CS_TRIGGER
    let n := c.getF F.WDS_CS_TRIGGER.POST
    if n = 0 then c.putF F.WDS_CS_CTRL.ENABLE 0 else c.onWds fun w => { w with csPost := some n }
  else c

/-- A record of event `ev` about class `q` (R349). (log entry 23 DESIGN CHOICE.) -/
def Chip.csRecord (c : Chip) (ev q loc kind st code steps tag : Nat) : Chip :=
  let on := c.flag F.WDS_CS_CTRL.ENABLE && bitOf ev (c.getF F.WDS_CS_CTRL.EVENTS)
    && bitOf q (c.getQ F.WDS_CS_CLASSES.V)
  if !on then c
  else
    let lost := c.wds.csLost
    let r := csBytes c.dtw ev q (if lost = 0 then 0 else 1) loc kind st code steps lost (c.getF F.WDS_CL_COUNT.V q) tag
    match c.ringRecord (c.getF F.WDS_CS_CTRL.RING) 1 r with
    | (true, c) =>
      let c := (c.onWds fun w => { w with csLost := 0 }).csAfter
      if ev = 4 then c.csTrigger st else c
    | (false, c) =>
      ((c.bump F.WDS_CS_LOST.V).raise F.WDS_EVENTS.CS_LOST).onWds fun w => { w with csLost := satAdd 16 w.csLost 1 }

/-- A record about an item. (log entry 23 DESIGN CHOICE.) -/
def Chip.csItem (c : Chip) (ev q loc : Nat) (b : Bound) (st code steps : Nat) : Chip :=
  if b.trace then c.csRecord ev q loc (itemKind b.item) st code steps (itemTag b.item) else c

/-! ### Slots (R338) -/

/-- The class exists. -/
def Chip.classPresent (c : Chip) (q : Nat) : Bool := c.flag F.WDS_CL_ENTRY.PRESENT q

/-- Why a class is full for an offer: 0 not full, 1 MAX, 2 the shared pool, 3 no attachment slot. -/
def Chip.classFull (c : Chip) (q : Nat) (att : Bool) : Nat :=
  let n := c.getF F.WDS_CL_COUNT.V q
  if c.getF F.WDS_CL_MAX.V q ≤ n then 1
  else if c.getF F.WDS_CL_MIN.V q ≤ n ∧ c.getF F.WDS_SHARED_FREE.V = 0 then 2
  else if att ∧ c.getF F.WDS_ATTACH_FREE.V = 0 then 3 else 0

/-- A slot is taken in a class: charged to the shared pool or not, and the chip. -/
def Chip.takeSlot (c : Chip) (q : Nat) (att : Bool) : Bool × Chip :=
  let shared := decide (c.getF F.WDS_CL_MIN.V q ≤ c.getF F.WDS_CL_COUNT.V q)
  let c := (c.bump F.WDS_CL_COUNT.V q).bump F.WDS_SLOTS_USED.V
  let c := if shared then c.sink F.WDS_SHARED_FREE.V else c
  (shared, if att then c.sink F.WDS_ATTACH_FREE.V else c)

/-- A slot returns where it was charged. -/
def Chip.giveSlot (c : Chip) (q : Nat) (shared att : Bool) : Chip :=
  let c := (c.sink F.WDS_CL_COUNT.V q).sink F.WDS_SLOTS_USED.V
  let c := if shared then c.bump F.WDS_SHARED_FREE.V else c
  if att then c.bump F.WDS_ATTACH_FREE.V else c

/-- Items of a class that wait. -/
def Chip.waitingOf (c : Chip) (q : Nat) : List Bound := smGet (fun _ => []) c.wds.waiting q

/-- The chip with the waiting items of a class set. -/
def Chip.setWaiting (c : Chip) (q : Nat) (l : List Bound) : Chip :=
  (c.onWds fun w => { w with waiting := smSet (fun _ => []) w.waiting q l }).condEv 6 q 4 (!l.isEmpty)

/-- The next accepted item is selected by SAMPLE (R349). -/
def Chip.csSelect (c : Chip) (q : Nat) : Bool × Chip :=
  if c.flag F.WDS_CS_CTRL.ENABLE && bitOf q (c.getQ F.WDS_CS_CLASSES.V) then
    let k := c.wds.csCount + 1
    let n := c.getF F.WDS_CS_SAMPLE.V
    if n ≤ 1 then (true, c)
    else (k % n == 0, c.onWds fun w => { w with csCount := k % n })
  else (false, c)

/-- An item whose slot is taken becomes the last waiting item of its class. -/
def Chip.enterItem (c : Chip) (q : Nat) (item : Bytes) (att : Option Bytes) (shared : Bool) : Chip :=
  match c.csSelect q with
  | (t, c) =>
    let b : Bound := ⟨q, sliceB item 0 64, att, shared, c.mt, t⟩
    let c := (c.setWaiting q (c.waitingOf q ++ [b])).signal 6 q 1
    c.csItem 1 q 0 b 0 0 0

/-- WDS_CNT_ABSENT counts (R337). (log entry 90 DEDUCED.) -/
def Chip.classAbsent (c : Chip) : Chip := (c.bump F.WDS_CNT_ABSENT.V).raise F.WDS_EVENTS.ABSENT

/-- An offer that finds its class full (R339, R340). -/
def Chip.refuseItem (c : Chip) (q why : Nat) (item : Bytes) : Chip :=
  ((c.raise F.WDS_EVENTS.REFUSED).signal 6 q 2).csRecord 2 q 0 (itemKind item) why 0 0 (itemTag item)

/-- What an offer meets. -/
inductive Offer where
  | accepted
  | refused
  | absent
  deriving DecidableEq, Repr

/-- An item is offered to a class (R337 to R339). -/
def Chip.offer (c : Chip) (q : Nat) (item : Bytes) (att : Option Bytes) : Offer × Chip :=
  if !c.classPresent q then (.absent, c.classAbsent)
  else match c.classFull q att.isSome with
    | 0 => match c.takeSlot q att.isSome with
      | (sh, c) => (.accepted, c.enterItem q item att sh)
    | why => (.refused, c.refuseItem q why item)

/-- The items engines offer once leave their outbox; one that finds no room is lost (R340). (log entry 90 DEDUCED.) -/
def Chip.drainOffers (c : Chip) : Chip :=
  let l := c.flow.offers
  l.foldl (fun c (o : Nat × Nat × Bytes × Bytes) =>
    match c.offer o.2.1 o.2.2.1 (if o.2.2.2.isEmpty then none else some o.2.2.2) with
    | (.accepted, c) => c
    | (_, c) => c.bumpQ 48 F.FLE_CNT_NOTIFY_LOST.V o.1) (c.onFlow fun x => { x with offers := [] })

/-! ### Binding (R345, R346) -/

/-- The cluster may take items (R345). -/
def Chip.eligible (c : Chip) (k : Nat) : Bool :=
  bitOf k (c.getF F.WDS_CL_AWAKE.V) && !c.flag F.ACT_CL_CTRL.HOLD k && !c.clusterHeld k

/-- ctx_pick: the lowest idle context of the core with the fewest running contexts. -/
def Chip.ctxPick (c : Chip) (k : Nat) : Option Nat :=
  let run (core : Nat) : Nat := ((List.range 4).filter (fun i => (c.ctx (64 * k + 4 * core + i)).st != 0)).length
  let best := (List.range 16).foldl (fun (b : Option Nat) core =>
    if run core = 4 then b
    else match b with
      | none => some core
      | some y => if run core < run y then some core else b) none
  best.bind (fun core => ((List.range 4).map (64 * k + 4 * core + ·)).find? (fun x => (c.ctx x).st == 0))

/-- Classes of PRIO `p` with a waiting item that cluster `k` may serve. -/
def Chip.classesFor (c : Chip) (k p : Nat) : List Nat :=
  (List.range 64).filter (fun q => c.classPresent q && !(c.waitingOf q).isEmpty && c.getF F.WDS_CL_SCHED.PRIO q == p
    && bitOf k (c.getF F.WDS_CL_ENTRY.CLUSTERS q))

/-- Credits after a refill, where every class of E has none. -/
def Chip.refill (c : Chip) (e : List Nat) : SMap Nat :=
  let cr := c.wds.credit
  if e.all (fun q => smGet (fun _ => 0) cr q == 0) then
    e.foldl (fun m q => smSet (fun _ => 0) m q (c.getF F.WDS_CL_SCHED.WEIGHT q)) cr
  else cr

/-- class_pick over the priorities from `n - 1` down: the class, the credits and the pointers after. -/
def Chip.classPick (c : Chip) (k : Nat) : Nat → Option (Nat × SMap Nat × SMap Nat)
  | 0 => none
  | p + 1 =>
    let e := c.classesFor k p
    if e.isEmpty then c.classPick k p
    else
      let cr := c.refill e
      let pos := e.filter (fun q => smGet (fun _ => 0) cr q != 0)
      let from_ := smGet (fun _ => 0) c.wds.ptr p
      match ((pos.filter (fun q => decide (from_ ≤ q))) ++ pos).head? with
      | some q => some (q, smSet (fun _ => 0) cr q (smGet (fun _ => 0) cr q - 1), smSet (fun _ => 0) c.wds.ptr p q)
      | none => c.classPick k p

/-- Bytes put into scratch from an address, modulo 4,096. -/
def putScratch (s : SMap Byte) : Nat → Bytes → SMap Byte
  | _, [] => s
  | a, b :: r => putScratch (smSet (fun _ => 0) s (a % 4096) b) (a + 1) r

/-- The context a routine starts in (R298, R334). -/
def Ctx.start (old : Ctx) (b : Bound) (entry mt : Nat) : Ctx :=
  let opn := openEntry entry
  let s := if old.opn = some opn then old.scratch else []
  let s := putScratch s 0 b.item
  let s := match b.att with | some a => putScratch s 0x80 (sliceB a 0 128) | none => s
  { Ctx.init with
    st := 1
    bound := some b
    boundAt := mt
    entry := entry
    opn := some opn
    pc := entry
    lastPc := entry
    g := (List.range 8).foldl (fun m i => smSet (fun _ => 0) m i (BitVec.ofNat 64 (beAt b.item (8 * i) 8))) []
    scratch := s
    gen := old.gen }

/-- A started routine is selected for sampling (R482). -/
def Chip.followStart (c : Chip) (x q : Nat) : Chip :=
  if !c.flag F.TEL_SM_CTRL.ENABLE || !bitOf q (c.getQ F.TEL_SM_CLASSES.V) then c
  else
    let n := c.getF F.TEL_SM_CTRL.N
    let k := c.tel.smCount + 1
    let hit := decide (n ≤ 1) || k % n == 0
    let c := { c with tel := { c.tel with smCount := if n ≤ 1 then 0 else k % n } }
    if !hit then c
    else if (smFind c.tel.follow (x / 64)).isSome then c.bump F.TEL_SM_CNT_SKIP.V
    else { c with tel := { c.tel with follow := smPut c.tel.follow (x / 64) ⟨0, 0, x, [], 0⟩ } }

/-- The oldest waiting item of class `q` is bound to context `x` and its routine starts. -/
def Chip.bindItem (c : Chip) (x q : Nat) (b : Bound) (rest : List Bound) : Chip :=
  let c := (c.setWaiting q rest).setCtx x ((c.ctx x).start b (c.getF F.WDS_CL_ENTRY.ENTRY q) c.mt)
  let c := (c.bump F.WDS_CL_RUN.V q).signal 6 q 3
  let k := x / 64
  let c := ((c.bumpQ 48 F.ACT_CNT_STARTED.V k).signal 5 k 64).condEv 5 k 68 true
  (c.csItem 3 q x b 0 0 0).followStart x q

/-- ITEM_BIND: what one core cycle binds to cluster `k` (R345). -/
def Chip.itemBind (c : Chip) (k : Nat) : Chip :=
  if !c.eligible k then c
  else match c.ctxPick k, c.classPick k 8 with
    | some x, some (q, cr, pt) =>
      (match c.waitingOf q with
       | [] => c
       | b :: rest => (c.onWds fun w => { w with credit := cr, ptr := pt }).bindItem x q b rest)
    | _, _ => c

/-! ### Waking and gating (R347) -/

/-- CLUSTER_WAKE: class `q` asks for a gated cluster. -/
def Chip.clusterWake (c : Chip) (q : Nat) : Chip :=
  let w := c.waitingOf q
  let mask := c.getF F.WDS_CL_ENTRY.CLUSTERS q
  let mine := (List.range 16).filter (fun k => bitOf k mask)
  let idle := ((mine.filter c.eligible).map (fun k => 64 - c.busy k)).foldl (· + ·) 0
  let aged := match w with
    | b :: _ => decide (b.since + 100 * c.getF F.WDS_CL_SCHED.WAKE_AGE q ≤ c.mt)
    | [] => false
  if c.wds.wakes.any (fun e => e.2 == q) || !(decide (idle < w.length) || aged) then c
  else match mine.find? (fun k => !bitOf k (c.getF F.WDS_CL_AWAKE.V) && !c.flag F.ACT_CL_CTRL.HOLD k && !c.clusterHeld k
      && !c.wds.wakes.any (fun e => e.1 == k)) with
    | some k => (c.onWds fun w => { w with wakes := w.wakes ++ [(k, q)] }).csRecord 6 q k 0 0 0 0 0
    | none => c

/-- The AWAKE bits of a cluster. -/
def Chip.setAwake (c : Chip) (k : Nat) (b : Bool) : Chip :=
  let c := c.putF F.WDS_CL_AWAKE.V (setBitsOf k k (c.getF F.WDS_CL_AWAKE.V) (b2n b))
  (c.putF F.ACT_CL_STATUS.AWAKE (b2n b) k).condEv 5 k 67 b

/-- CLUSTER_AWAKE: a wake requested 1 µs ago completes. -/
def Chip.clusterAwake (c : Chip) (k : Nat) : Chip :=
  if c.wds.wakes.any (fun e => e.1 == k) then
    (c.onWds fun w => { w with wakes := w.wakes.filter (fun e => e.1 != k) }).setAwake k true
  else c

/-- CLUSTER_GATE: a cluster without a routine for WDS_GATE_IDLE. Its trace record names no class: it is written where
class 0 is recorded. -/
def Chip.clusterGate (c : Chip) (k : Nat) : Chip :=
  if !bitOf k (c.getF F.WDS_CL_AWAKE.V) || c.flag F.WDS_CTRL.NO_GATE || c.busy k != 0 then c
  else (c.setAwake k false).csRecord 7 0 k 0 0 0 0 0

/-! ### Setups, timed work and host posts -/

/-- SETUP_ITEM_OFFER: the head of an engine's setup queue is offered (R249). -/
def Chip.setupOffer (c : Chip) (e : Nat) : Chip :=
  match (c.eng e).setupHead with
  | none => c
  | some x =>
    match c.offer (tpSetupClass (c.tpl x.op.tmpl)) (c.setupItem x.op x.tag) none with
    | (.accepted, c) => c.setupAccepted e x.tag
    | (_, c) => c

/-- A SWEEP item of an engine (R335). -/
def Chip.sweepItem (c : Chip) (e : Nat) : Bytes :=
  natBe 1 0x40 ++ natBe 1 e ++ natBe 2 (c.getF F.FLE_SWEEP_CTRL.CHUNK) ++ natBe 4 (c.getF F.FLE_SWEEP_CURSOR.V e)
    ++ natBe 4 c.ft ++ zerosB 52

/-- The held SWEEP item of an engine is offered; accepted, the cursor advances (R342). -/
def Chip.sweepOffer (c : Chip) (e : Nat) : Chip :=
  match smFind c.wds.sweepHeld e with
  | none => c
  | some i =>
    match c.offer (c.getF F.FLE_SWEEP_CLASS.CLASS) i none with
    | (.accepted, c) =>
      let c := c.onWds fun w => { w with sweepHeld := smErase w.sweepHeld e }
      c.putF F.FLE_SWEEP_CURSOR.V ((c.getF F.FLE_SWEEP_CURSOR.V e + beAt i 2 2) % c.nbuckets) e
    | (.absent, c) => c.onWds fun w => { w with sweepHeld := smErase w.sweepHeld e }
    | (.refused, c) => c

/-- SWEEP_TICK: one item for each engine, then every held item is offered in engine order. -/
def Chip.sweepTick (c : Chip) : Chip :=
  if !c.flag F.FLE_SWEEP_CTRL.ENABLE || !c.flowPresent then c
  else
    let q := c.getF F.FLE_SWEEP_CLASS.CLASS
    (List.range 128).foldl (fun c e =>
      if (smFind c.wds.sweepHeld e).isSome then c.sweepOffer e
      else if !c.classPresent q then c.classAbsent
      else ({ c with wds := { c.wds with sweepHeld := smPut c.wds.sweepHeld e (c.sweepItem e) } }).sweepOffer e) c

/-- A TIMER item (R335). -/
def Chip.timerItem (c : Chip) (n : Nat) : Bytes :=
  natBe 1 0x50 ++ natBe 1 n ++ natBe 2 0 ++ natBe 4 c.ft ++ (c.getBytes (F.WDS_TMR_DATA.V.addr n 0) 64).drop 8

/-- A timer's held item is offered (R343). -/
def Chip.timerOffer (c : Chip) (n : Nat) : Chip :=
  match smFind c.wds.tmrHeld n with
  | none => c
  | some i =>
    match c.offer (c.getF F.WDS_TMR_CTRL.CLASS n) i none with
    | (.refused, c) => c
    | (_, c) => c.onWds fun w => { w with tmrHeld := smErase w.tmrHeld n }

/-- DISPATCH_TIMER_FIRE: a fire makes an item, or counts MISSED in the held one. -/
def Chip.timerFire (c : Chip) (n : Nat) : Chip :=
  if !c.flag F.WDS_TMR_CTRL.ENABLE n then c
  else match smFind c.wds.tmrHeld n with
    | some i =>
      let c := c.bump F.WDS_TMR_MISSED.V n
      (c.onWds fun w => { w with tmrHeld := smPut w.tmrHeld n (putBe i 2 2 (satAdd 16 (beAt i 2 2) 1)) }).timerOffer n
    | none => (c.onWds fun w => { w with tmrHeld := smPut w.tmrHeld n (c.timerItem n) }).timerOffer n

/-- A host post completes with a status (R344). -/
def Chip.hpostEnd (c : Chip) (st : Nat) : Chip :=
  ((c.putF F.WDS_HPOST_STATUS.STATUS st).putF F.WDS_HPOST_CTRL.GO 0).raiseDone F.WDS_HPOST_STATUS.DONE

/-- HPOST_GO (R344). (log entry 90 DEDUCED.) -/
def Chip.hpost (c : Chip) (q : Nat) (hash : Bool) : Chip :=
  let c := (c.putF F.WDS_HPOST_CTRL.CLASS q).putF F.WDS_HPOST_CTRL.HASH (b2n hash)
  let i := c.getBytes F.WDS_HPOST_DATA.V.base 64
  let key := sliceB i 8 40
  let i := if hash then putBe (putBe i 48 4 (c.h2Of key)) 52 4 (c.h1Of key) else i
  let k := itemKind i
  if !c.classPresent q || !(k == 8 || k == 9) then c.hpostEnd stInvalid
  else if !c.flag F.WDS_CL_SCHED.HOSTPOST q then c.hpostEnd stDenied
  else match c.offer q i none with
    | (.accepted, c) => c.hpostEnd stOk
    | (_, c) => c.hpostEnd stBusy

end Sys2Proof.Machine
end

