-- ==== Sys2Proof/Machine/Flags.lean ====
section
/-! DEFINITION. The ALU of a microword (R304): results, carries and the flags Z, N and C. -/
namespace Sys2Proof.Machine
open Sys2Proof

/-- The result and carry of ALU op `op` on A and B; `old`: the destination, for INS. -/
def aluResult (op : Nat) (a b old : BitVec 64) : BitVec 64 × Bool :=
  match op with
  | 1 => (a + b, decide (2 ^ 64 ≤ a.toNat + b.toNat))
  | 2 => (a - b, decide (a.toNat < b.toNat))
  | 3 => (a &&& b, false)
  | 4 => (a ||| b, false)
  | 5 => (a ^^^ b, false)
  | 6 => (a <<< (b.toNat % 64), false)
  | 7 => (a >>> (b.toNat % 64), false)
  | 8 => (b, false)
  | 9 => (a - b, decide (a.toNat < b.toNat))
  | 10 => (BitVec.ofNat 64 (a.toNat / 2 ^ (b.toNat % 64) % 2 ^ (bitsOf 11 6 b.toNat + 1)), false)
  | 11 =>
    let lo := b.toNat % 64
    let w := bitsOf 11 6 b.toNat + 1
    (BitVec.ofNat 64 (setBitsOf (lo + w - 1) lo old.toNat a.toNat), false)
  | 12 => (a * b, false)
  | 13 => if b = 0 then (a, true) else (a % b, false)
  | 14 => (b, false)
  | 15 => (if a.toNat ≤ b.toNat then a else b, false)
  | _ => (0, false)

/-- The op writes its destination register: CMP and LDLC write none. -/
def aluWrites (op : Nat) : Bool := op != 0 && op != 9 && op != 14

/-- Z, N and C of a result, for unit A (`b` false) or B. -/
def Flags.alu (f : Flags) (unitB : Bool) (r : BitVec 64) (carry : Bool) : Flags :=
  if unitB then { f with zb := r == 0, nb := r.getLsbD 63, cb := carry }
  else { f with za := r == 0, na := r.getLsbD 63, ca := carry }

/-- The condition of SEL (R303). `lc`: LC = 0; `full`: some part of the write set is full. -/
def Flags.cond (f : Flags) (sel : Nat) (lc0 full : Bool) : Bool :=
  match sel with
  | 0 => true
  | 1 => f.za
  | 2 => f.na
  | 3 => f.ca
  | 4 => f.zb
  | 5 => f.nb
  | 6 => f.cb
  | 7 => f.memOk
  | 8 => f.memAbsent
  | 9 => f.memErr
  | 10 => f.keyMatch
  | 11 => f.keyPool
  | 12 => f.ko
  | 13 => f.timeAfter
  | 14 => lc0
  | _ => full

end Sys2Proof.Machine
end

