-- ==== Sys2Proof/Machine/Operands.lean ====
section
/-! DEFINITION. The microword (R301 to R311): its fields, and the checks a word passes before it enters a control store. -/
namespace Sys2Proof.Machine
open Sys2Proof

/-- A microword. -/
abbrev Mw := BitVec 192

/-- Bits `hi:lo` of a microword. -/
def Mw.f (w : Mw) (hi lo : Nat) : Nat := bitsOf hi lo w.toNat

def mwNxt (w : Mw) : Nat := Mw.f w 191 189
def mwTgt (w : Mw) : Nat := Mw.f w 188 174
def mwInv (w : Mw) : Bool := bitOf 173 w.toNat
def mwSel (w : Mw) : Nat := Mw.f w 172 168
/-- The 23 bits of unit ALUA or ALUB. -/
def mwAlu (w : Mw) (unitB : Bool) : Nat := if unitB then Mw.f w 144 122 else Mw.f w 167 145
def aOp (x : Nat) : Nat := bitsOf 22 19 x
def aImm (x : Nat) : Bool := bitOf 18 x
def aDst (x : Nat) : Nat := bitsOf 17 12 x
def aSa (x : Nat) : Nat := bitsOf 11 6 x
def aSb (x : Nat) : Nat := bitsOf 5 0 x
def mwMemOp (w : Mw) : Nat := Mw.f w 121 118
def mwSz (w : Mw) : Nat := Mw.f w 117 115
def mwRd (w : Mw) : Nat := Mw.f w 114 109
def mwRa (w : Mw) : Nat := Mw.f w 108 103
def mwKeyOp (w : Mw) : Nat := Mw.f w 102 99
def mwKr (w : Mw) : Nat := Mw.f w 98 93
def mwCrcOp (w : Mw) : Nat := Mw.f w 90 89
def mwPoly (w : Mw) : Nat := Mw.f w 88 87
def mwSeed (w : Mw) : Bool := bitOf 86 w.toNat
def mwEmitOp (w : Mw) : Nat := Mw.f w 82 80
def mwEr (w : Mw) : Nat := Mw.f w 79 74
def mwQsel (w : Mw) : Nat := Mw.f w 73 70
def mwImm (w : Mw) : Nat := Mw.f w 66 35
def mwTim (w : Mw) : Nat := Mw.f w 34 31
def mwCnt (w : Mw) : Nat := Mw.f w 30 25

/-- The fill word (R323): NXT ABORT, TGT 0x00F0, every other field 0. -/
def mwFill : Mw := BitVec.ofNat 192 (6 * 2 ^ 189 + 0xF0 * 2 ^ 174)

/-- The units a word uses: 0 ALUA, 1 ALUB, 2 MEM, 3 KEY, 4 CRC, 5 EMIT, 6 TIM. -/
def mwUnits (w : Mw) : List Nat :=
  [(0, aOp (mwAlu w false)), (1, aOp (mwAlu w true)), (2, mwMemOp w), (3, mwKeyOp w), (4, mwCrcOp w), (5, mwEmitOp w),
    (6, mwTim w)].filterMap (fun (u : Nat × Nat) => if u.2 = 0 then none else some u.1)

/-- Registers an SLD or SST moves. -/
def mwRegs (w : Mw) : Nat := 2 ^ mwSz w

/-- Outputs of a KEY op after KR. -/
def keyOuts (op : Nat) : Nat :=
  match op with
  | 0 => 0 | 1 => 1 | 2 => 2 | 3 => 1 | 4 => 0 | 5 => 1 | 6 => 1 | 7 => 5 | 8 => 1 | 9 => 2 | _ => 2

/-- Every register a word writes, once for each unit that writes it (R311). -/
def mwWrites (w : Mw) : List Nat :=
  let alu (b : Bool) : List Nat :=
    let x := mwAlu w b
    if aOp x = 0 ∨ aOp x = 9 ∨ aOp x = 14 then [] else [aDst x]
  alu false ++ alu true
    ++ (if mwMemOp w = 1 then (List.range (mwRegs w)).map (mwRd w + ·) else if mwMemOp w = 4 then [mwRd w] else [])
    ++ (List.range (keyOuts (mwKeyOp w))).map (mwKr w + 1 + ·)
    ++ (if mwCrcOp w = 3 then [mwRd w] else [])
    ++ (if mwTim w = 1 ∨ mwTim w = 2 ∨ mwTim w = 3 then [aDst (mwAlu w true)] else [])

/-- A target address keeps the regions apart (R323). -/
def tgtOk (a tgt : Nat) : Bool := if a < 0x6000 then decide (tgt < 0x6000) else decide (0x6000 ≤ tgt) || decide (tgt < 0x100)

/-- A word may stand at address `a` (R311). -/
def mwOk (a : Nat) (w : Mw) : Bool :=
  let nx := mwNxt w
  let x := mwAlu w false
  let y := mwAlu w true
  let m := mwMemOp w
  let cmpDst (z : Nat) : Bool := !(aOp z == 9 || aOp z == 14) || aDst z == 0
  -- reserved fields and codes
  Mw.f w 24 0 == 0 && Mw.f w 92 91 == 0 && Mw.f w 85 83 == 0 && Mw.f w 69 67 == 0
    && nx != 7 && decide (mwSel w ≤ 15) && decide (m ≤ 11) && decide (mwKeyOp w ≤ 10) && decide (mwEmitOp w ≤ 4)
    && decide (mwTim w ≤ 4) && cmpDst x && cmpDst y
    && (if m = 1 ∨ m = 2 then decide (mwSz w ≤ 4) else if m = 6 then decide (mwSz w ≤ 3) else mwSz w == 0)
    -- registers
    && decide (mwWrites w).Nodup && (mwWrites w).all (fun r => decide (r ≤ 63))
    -- R303, R308 to R310
    && (!(nx == 0 || nx == 4) || (mwSel w == 0 && !mwInv w))
    && (!(mwCrcOp w == 1 || mwCrcOp w == 3) || m == 0) && (mwCrcOp w != 2 || m == 1 || m == 2)
    && (mwEmitOp w == 1 || mwQsel w == 0) && (mwTim w == 0 || aOp y == 0)
    -- R323
    && (!(nx == 1 || nx == 2 || nx == 4 || nx == 5) || tgtOk a (mwTgt w))

end Sys2Proof.Machine
end

