-- ==== Sys2Proof/Machine/Act.lean ====
section
/-! DEFINITION. The action cores (R297 to R322): scratch, the units of a microword, its completion and sequencing, and the
ends of routines. -/
namespace Sys2Proof.Machine
open Sys2Proof

/-! ### Registers, scratch and DRAM areas -/

/-- A general register. -/
def Ctx.reg (v : Ctx) (i : Nat) : BitVec 64 := smGet (fun _ => 0) v.g i

/-- `n` bytes of scratch, addresses modulo 4,096 (R306). -/
def Ctx.sread (v : Ctx) (a n : Nat) : Bytes := (List.range n).map (fun i => smGet (fun _ => 0) v.scratch ((a + i) % 4096))

/-- Two ranges of scratch overlap, addresses modulo 4,096. -/
def scratchOverlap (a n b m : Nat) : Bool :=
  n != 0 && m != 0 && (decide ((b + 4096 - a % 4096) % 4096 < n) || decide ((a + 4096 - b % 4096) % 4096 < m))

/-- What an access to scratch meets (R306): 0 nothing, 1 a fill in flight, 2 bytes whose read failed. -/
def Ctx.touch (v : Ctx) (rs : List (Nat × Nat)) : Nat :=
  let hit (bad : Bool) : Bool := rs.any (fun (r : Nat × Nat) =>
    v.fills.any (fun (f : Fill) => f.bad == bad && scratchOverlap r.1 r.2 f.addr f.len))
  if hit true then 2 else if hit false then 1 else 0

/-- Base of the service-table block (R356). -/
def Chip.svcBase (c : Chip) : Nat := c.getF F.HBM_LAYOUT.SVC_TABLE_GIB * 2 ^ 30

/-- The routine of a context runs from the open region. -/
def Ctx.isOpen (v : Ctx) : Bool := v.opn == some true

/-- A routine may reach a range of device DRAM (R306). -/
def Chip.routineMay (c : Chip) (v : Ctx) (a n : Nat) : Bool :=
  let flow := c.flowPresent && decide (c.tagBase < a + n) && decide (a < c.tableEnd)
  let win := decide (c.pol 0x218 8 ≤ a) && decide (a + n ≤ c.pol 0x218 8 + c.pol 0x220 8)
  a % 8 == 0 && n % 8 == 0 && decide (a + n ≤ 0x2380000000) && !flow && (!v.isOpen || win)

/-- A refusal of the policy towards a routine is captured (R580). -/
def Chip.routineDenied (c : Chip) (x : Nat) : Chip := c.deniedCapture (if (c.ctx x).isOpen then 6 else 5) 0 x

/-! ### Watches (R315) -/

/-- The 64-byte lines of a range. -/
def linesOf (a n : Nat) : List Nat := if n = 0 then [] else (List.range ((a + n - 1) / 64 - a / 64 + 1)).map (a / 64 + ·)

/-- A write of a range breaks every watch on its lines but those of context `own`. -/
def Chip.breakWatch (c : Chip) (own : Option Nat) (a n : Nat) : Chip :=
  let ls := linesOf a n
  { c with act := { c.act with ctxs := c.act.ctxs.map (fun (e : Nat × Ctx) =>
      if own = some e.1 then e
      else (e.1, { e.2 with broken := e.2.broken ++ (ls.filter (fun l => e.2.watch.contains l && !e.2.broken.contains l)) })) } }

/-! ### Ends (R317) -/

/-- The device abort codes of R317. -/
def abStack : Nat := 0xE0
def abMem : Nat := 0xE2
def abFull : Nat := 0xE3
def abWatch : Nat := 0xE4
def abOwner : Nat := 0xE5
def abKilled : Nat := 0xE6
def abFault : Nat := 0xE7
def abStopped : Nat := 0xE8
def abEmit : Nat := 0xE9

/-- The tag of a remote request (R537): generation, entry and context. -/
def xtag (gen entry x : Nat) : Nat := (gen % 2 ^ 14) * 2 ^ 18 + entry * 2 ^ 10 + x

/-- A request is withdrawn from its engine: it is not on its way, not waiting, and an OK already given is dropped. -/
def Chip.abandon (c : Chip) (e : CEnt) : Chip :=
  let k := hEngine e.op.h1
  let ok := c.flow.answers.any (fun (a : FAnswer) => a.op == e.op && a.code == 0)
  let c := { c with act := { c.act with reqs := c.act.reqs.erase e.op } }
  let c := c.onFlow fun f => { f with answers := f.answers.filter (fun (a : FAnswer) => a.op != e.op) }
  let c := if (c.eng k).station.contains e.op then c.leave k e.op else c
  if ok ∧ e.op.kind = 3 then { c with act := { c.act with msgs := c.act.msgs ++ [(false, k, e.op.src, e.op.tag)] } } else c

/-- A DROP for a prepared or requested entry of a write set: to the own engine or to the peer (R314, R538). -/
def Chip.dropEntry (c : Chip) (x : Nat) (v : Ctx) (e : CEnt) : Chip :=
  if e.st = 0 then c
  else if e.dev ≠ c.ownDevice then
    c.gangOut e.port e.dev 7 (rrecBody 6 0 0 (b2n v.isOpen) (xtag v.gen e.op.tag x) e.op.h1 e.op.h2 e.op.key)
  else if e.st = 1 then c.abandon e
  else { c with act := { c.act with msgs := c.act.msgs ++ [(false, hEngine e.op.h1, x, e.op.tag)] } }

/-- The write set, its reservations and its prepared entries are given up. -/
def Chip.dropSet (c : Chip) (x : Nat) : Chip :=
  let v := c.ctx x
  let c := v.commit.foldl (fun c e => c.dropEntry x v e) c
  let c := v.reserved.foldl (fun c (r : Nat × Bool) => c.giveSlot r.1 r.2 false) c
  let c := { c with act := { c.act with commitQ := c.act.commitQ.filter (· != x) } }
  c.onCtx x fun v => { v with ents := [], emits := [], deltas := [], watch := [], broken := [], commit := [], reserved := [] }

/-- HELD becomes 1 when every context of a held cluster is idle (R322). -/
def Chip.heldCheck (c : Chip) (k : Nat) : Chip :=
  if c.flag F.ACT_CL_CTRL.HOLD k && c.busy k == 0 && !c.flag F.ACT_CL_STATUS.HELD k then
    (c.putF F.ACT_CL_STATUS.HELD 1 k).raise F.ACT_CL_EVENTS.HELD k
  else c

/-- A routine ends with a status and code (R317); one that has ended stays as it is. -/
def Chip.endCtx (c : Chip) (x st code : Nat) : Chip :=
  let v := c.ctx x
  if v.free then c
  else
    let k := x / 64
    let c := match v.rd with | some e => if e.dev = c.ownDevice then c.abandon e else c | none => c
    let c := c.dropSet x
    let c := c.onCtx x fun v => { v with st := 5, word := none, rd := none, fills := [], endSt := st, endCode := code }
    let c := if st = 0 then c
      else
        let c := (c.putF F.ACT_LAST_END0.STATUS st).putF F.ACT_LAST_END0.CODE code
        let c := c.putF F.ACT_LAST_END0.CONTEXT x
        (c.putF F.ACT_LAST_END1.ENTRY v.entry).putF F.ACT_LAST_END1.PC v.lastPc
    let c := match st with
      | 0 => (c.bumpQ 48 F.ACT_CNT_COMMIT.V k).signal 5 k 65
      | 1 => (c.bumpQ 48 F.ACT_CNT_ABORT.V k).signal 5 k 66
      | 2 => ((c.bumpQ 48 F.ACT_CNT_BUDGET.V k).signal 5 k 66).raise F.ACT_CL_EVENTS.BUDGET k
      | 3 => ((c.bumpQ 48 F.ACT_CNT_TIMEOUT.V k).signal 5 k 66).raise F.ACT_CL_EVENTS.TIMEOUT k
      | _ => ((c.bumpQ 48 F.ACT_CNT_REFUSED.V k).signal 5 k 66).raise F.ACT_CL_EVENTS.REFUSED k
    (c.condEv 5 k 68 (c.busy k != 0)).heldCheck k

/-- KILL_ALL of a cluster with an abort code (R321, R602). -/
def Chip.killAll (c : Chip) (k code : Nat) : Chip := (clusterCtxs k).foldl (fun c x => c.endCtx x 1 code) c

/-! ### Units of a word (R299) -/

/-- The word at an address of a cluster's control store (R323). -/
def Chip.mwAt (c : Chip) (k a : Nat) : Mw :=
  if a < 0x6000 then smGet (fun _ => mwFill) c.act.vendor (24576 * k + a) else smGet (fun _ => mwFill) c.act.opn (8192 * k + (a - 0x6000))

/-- The op code a word gives a unit: 0 ALUA, 1 ALUB, 2 MEM, 3 KEY, 4 CRC, 5 EMIT, 6 TIM. -/
def unitOp (w : Mw) : Nat → Nat
  | 0 => aOp (mwAlu w false)
  | 1 => aOp (mwAlu w true)
  | 2 => mwMemOp w
  | 3 => mwKeyOp w
  | 4 => mwCrcOp w
  | 5 => mwEmitOp w
  | _ => mwTim w

/-- Core cycles, 0.625 ns each, between two MT values in 2^-40 ns. (log entry 109 DESIGN CHOICE.) -/
def coreCycles (d : Nat) : Nat := d * 8 / 5 / 2 ^ 40

/-- The word is noted for sampling where its routine is followed (R482). (log entry 109 DESIGN CHOICE.) -/
def Chip.followWord (c : Chip) (x pc : Nat) : Chip :=
  match smFind c.tel.follow (x / 64) with
  | none => c
  | some f =>
    if f.context ≠ x then c
    else
      let f := if f.count = 0 then { f with start := c.dtw, startMt := c.time.mt } else f
      let f := { f with
        count := f.count + 1
        words := if f.count < 1024 then (pc, coreCycles (c.time.mt - f.startMt)) :: f.words else f.words }
      { c with tel := { c.tel with follow := smPut c.tel.follow (x / 64) f } }

/-- The word at PC issues (R299, R319); false: its step exceeds the budget and the routine has ended. -/
def Chip.issue (c : Chip) (x : Nat) : Chip × Bool :=
  let v := c.ctx x
  if v.word.isSome then (c, true)
  else if c.getF F.ACT_STEP_BUDGET.V ≤ v.steps then (c.endCtx x 2 0, false)
  else
    let c := c.setCtx x { v with
      steps := v.steps + 1
      lastPc := v.pc
      word := some ⟨[], [], [], v.flags, v.lc, v.run⟩ }
    let c := (c.bumpQ 48 F.ACT_CNT_WORDS.V (x / 64)).followWord x v.pc
    let n := mwCnt (c.mwAt (x / 64) v.pc)
    (if n = 0 then c else c.signal 5 (x / 64) n, true)

/-- How a unit fares. -/
inductive UOut where
  | ok (v : Ctx) (w : WordSt)
  | wait
  | abort (code : Nat)
  deriving DecidableEq, Repr

/-- Unit `u` runs op `op` of the word at PC; nothing happens where the word gives the unit another op, or it has run.
(log entry 85 DESIGN CHOICE.) -/
def Chip.runUnit (c : Chip) (x u op : Nat) (f : Ctx → Mw → WordSt → UOut) : Chip :=
  let v := c.ctx x
  let w := c.mwAt (x / 64) v.pc
  if v.st ≠ 1 ∨ unitOp w u ≠ op then c
  else match c.issue x with
    | (c, false) => c
    | (c, true) => match (c.ctx x).word with
      | none => c
      | some ws =>
        if ws.done.contains u then c
        else match f (c.ctx x) w ws with
          | .ok v ws => c.setCtx x { v with word := some { ws with done := ws.done ++ [u] } }
          | .wait => c
          | .abort code => c.endCtx x 1 code

/-- A unit that first touches scratch ranges (R306). -/
def afterTouch (v : Ctx) (rs : List (Nat × Nat)) (k : UOut) : UOut :=
  match v.touch rs with
  | 0 => k
  | 1 => .wait
  | _ => .abort abMem

/-- The word with a register result. -/
def WordSt.reg (w : WordSt) (r : Nat) (b : BitVec 64) : WordSt := { w with regs := w.regs ++ [(r, b)] }

/-- The word with a scratch result. -/
def WordSt.put (w : WordSt) (a : Nat) (bs : Bytes) : WordSt := { w with mem := w.mem ++ [(a, bs)] }

/-- A 64-bit number. -/
def w64 (n : Nat) : BitVec 64 := BitVec.ofNat 64 n

/-- ALU op `op` in unit A or B (R304). -/
def Chip.aluUnit (c : Chip) (x op : Nat) (unitB : Bool) : Chip :=
  c.runUnit x (b2n unitB) op fun v w ws =>
    let y := mwAlu w unitB
    let a := v.reg (aSa y)
    let b := if aImm y then w64 (mwImm w) else v.reg (aSb y)
    match aluResult op a b (v.reg (aDst y)) with
    | (r, cy) =>
      let ws := { ws with flags := ws.flags.alu unitB r cy }
      .ok v (if op = 14 then { ws with lc := BitVec.ofNat 16 b.toNat }
        else if aluWrites op then ws.reg (aDst y) r else ws)

/-! ### MEM (R305, R306) -/

/-- The scratch address of an SLD or SST and the bytes it moves. (log entry 86 DEDUCED.) -/
def Ctx.memRange (v : Ctx) (w : Mw) : Nat × Nat :=
  (((v.reg (mwRa w)).toNat + mwImm w % 4096) % 4096, 8 * mwRegs w)

/-- The scratch address G[RA] + IMM. (log entry 86 DEDUCED.) -/
def Ctx.memAddr (v : Ctx) (w : Mw) : Nat := ((v.reg (mwRa w)).toNat + mwImm w) % 4096

/-- SLD. -/
def Chip.sld (c : Chip) (x : Nat) : Chip := c.runUnit x 2 1 fun v w ws =>
  match v.memRange w with
  | (a, n) =>
    if 4096 < a + n then .abort abMem
    else afterTouch v [(a, n)] (.ok v ((List.range (mwRegs w)).foldl (fun (ws : WordSt) i =>
      ws.reg (mwRd w + i) (w64 (beNat (v.sread (a + 8 * i) 8)))) ws))

/-- The bytes an SST moves; a register past G63 gives a free value. (log entry 87 DESIGN CHOICE.) -/
def Chip.sstBytes (c : Chip) (v : Ctx) (w : Mw) : Bytes :=
  (List.range (mwRegs w)).flatMap (fun i =>
    natBe 8 (if mwRd w + i ≤ 63 then (v.reg (mwRd w + i)).toNat else c.freeNat + i))

/-- SST. -/
def Chip.sst (c : Chip) (x : Nat) : Chip := c.runUnit x 2 2 fun v w ws =>
  match v.memRange w with
  | (a, n) =>
    if 4096 < a + n then .abort abMem
    else afterTouch v [(a, n)] (.ok v (ws.put a (c.sstBytes v w)))

/-- CPY. -/
def Chip.cpy (c : Chip) (x : Nat) : Chip := c.runUnit x 2 3 fun v w ws =>
  let d := (v.reg (mwRa w)).toNat
  let dst := d % 4096
  let src := bitsOf 23 12 d
  let n := if bitsOf 30 24 d = 0 then 64 else bitsOf 30 24 d
  if 64 < n ∨ 4096 < dst + n ∨ 4096 < src + n then .abort abMem
  else afterTouch v [(dst, n), (src, n)] (.ok v (ws.put dst (v.sread src n)))

/-- CLD. -/
def Chip.cld (c : Chip) (x : Nat) : Chip := c.runUnit x 2 4 fun v w ws =>
  let k := mwRa w
  let b := if k < 32 then sliceB (smGet (fun _ => []) c.act.vconst (x / 64)) (8 * k) 8 else sliceB (smGet (fun _ => []) c.act.cconst (x / 64)) (8 * (k - 32)) 8
  .ok v (ws.reg (mwRd w) (w64 (leNat b)))

/-- An op of a context at an engine: 2 RD, 3 PREP. -/
def coreOp (kind x tag : Nat) (key : Bytes) (h1 h2 mode mask : Nat) (data : Bytes) (mt : Nat) : FOp :=
  { kind := kind, src := x, tag := tag, key := key, h1 := h1, h2 := h2, orient := 0, tmpl := 0, port := 0, iseq := 0
    pass := 0, ver := 0, flen := 0, tcpf := 0, tcp := false, ce := false, cls := 0, tail := 1, pend := 0, since := mt
    mode := mode, mask := mask, data := data }

/-- RD (R313): the op leaves for its engine, or for the peer that owns the slot; the word waits for the answer. -/
def Chip.rdUnit (c : Chip) (x : Nat) : Chip :=
  let v := c.ctx x
  let w := c.mwAt (x / 64) v.pc
  if v.st ≠ 1 ∨ mwMemOp w ≠ 5 ∨ v.rd.isSome then c
  else match c.issue x with
    | (c, false) => c
    | (c, true) =>
      let v := c.ctx x
      if (match v.word with | some ws => ws.done.contains 2 | none => true) then c
      else
        let a := v.memAddr w
        match v.touch [(a, 128)] with
        | 1 => c
        | 2 => c.endCtx x 1 abMem
        | _ =>
          let hs := (v.reg (mwRd w)).toNat
          let o := coreOp 2 x 0 (v.sread a 40) (hs % 2 ^ 32) (hs / 2 ^ 32) 0 0 [] c.mt
          match c.ownerOf o.h1 with
          | none => c.endCtx x 1 abOwner
          | some d =>
            if d = c.ownDevice then
              if c.engineHeld (hEngine o.h1) then c.endCtx x 1 abStopped
              else
                let c := c.setCtx x { v with rd := some ⟨o, d, 0, 1, 1⟩ }
                { c with act := { c.act with reqs := c.act.reqs ++ [o] } }
            else match c.slotPort d o.h1 with
              | none => c.endCtx x 1 abOwner
              | some p =>
                let c := c.setCtx x { v with rd := some ⟨o, d, p, 1, 1⟩, rdAt := c.mt, gen := v.gen + 1 }
                c.gangOut p d 7 (rrecBody 1 0 0 (b2n v.isOpen) (xtag (v.gen + 1) 0 x) o.h1 o.h2 o.key)

/-- The status flags of an RD. -/
def Flags.mem (f : Flags) (ok absent : Bool) : Flags := { f with memOk := ok, memAbsent := absent, memErr := !ok && !absent }

/-- An RD goes again to the owner the map now names (R537); after three attempts the routine ends. -/
def Chip.rdAgain (c : Chip) (x : Nat) (v : Ctx) (e : CEnt) : Chip :=
  if 3 ≤ e.tries then c.endCtx x 1 abOwner
  else match c.ownerOf e.op.h1 with
    | none => c.endCtx x 1 abOwner
    | some d =>
      if d = c.ownDevice then
        let c := c.setCtx x { v with rd := some ⟨e.op, d, 0, 1, e.tries + 1⟩ }
        { c with act := { c.act with reqs := c.act.reqs ++ [e.op] } }
      else match c.slotPort d e.op.h1 with
        | none => c.endCtx x 1 abOwner
        | some p => (c.setCtx x { v with rd := some ⟨e.op, d, p, 1, e.tries + 1⟩ }).gangOut p d 7
            (rrecBody 1 0 0 (b2n v.isOpen) (xtag v.gen 0 x) e.op.h1 e.op.h2 e.op.key)

/-- RD_ANSWER: the answer to a context's RD arrives. (log entry 88 DEDUCED.) -/
def Chip.rdAnswer (c : Chip) (x : Nat) : Chip :=
  let v := c.ctx x
  match v.rd, v.word with
  | some e, some ws =>
    (match c.flow.answers.find? (fun (a : FAnswer) => a.op == e.op) with
     | none => c
     | some a =>
       let c := c.onFlow fun f => { f with answers := f.answers.erase a }
       let addr := v.memAddr (c.mwAt (x / 64) v.pc)
       let done (ws : WordSt) : Chip := c.setCtx x { v with rd := none, word := some { ws with done := ws.done ++ [2] } }
       match a.code with
       | 0 => done { ws.put addr (sliceB a.data 0 128) with flags := ws.flags.mem true false }
       | 3 => done { ws with flags := ws.flags.mem false true }
       | 9 => c.rdAgain x v e
       | _ => done { ws with flags := ws.flags.mem false false })
  | _, _ => c

/-- Entries of a write set besides those a WREC of `key` replaces. -/
def Ctx.otherEnts (v : Ctx) (key : Bytes) : List WEnt := v.ents.filter (fun (e : WEnt) => e.kind == 0 || e.key != key)

/-- WREC (R312): a record write is staged. (log entry 86 DEDUCED.) -/
def Chip.wrec (c : Chip) (x : Nat) : Chip := c.runUnit x 2 6 fun v w ws =>
  let a := v.memAddr w
  let kind := mwSz w + 1
  if 4096 < a + (if kind = 3 then 40 else 128) then .abort abMem
  else afterTouch v [(a, 40)] (
    let key := v.sread a 40
    let hs := (v.reg (mwRd w)).toNat
    let h1 := hs % 2 ^ 32
    let item := match v.bound with | some b => b.item | none => []
    let reach := match c.ownerOf h1 with
      | none => false
      | some d => d == c.ownDevice || (c.slotPort d h1).isSome
    let e : WEnt := ⟨kind, key, h1, hs / 2 ^ 32, a, 128, 0⟩
    if kind = 4 ∧ !(itemKind item == 1 && sliceB item 8 40 == key) then .abort abMem
    else if !reach then .abort abOwner
    else if v.ents.any (fun (z : WEnt) => z.kind != 0 && z.key == key) then
      .ok { v with ents := v.ents.map (fun (z : WEnt) => if z.kind != 0 && z.key == key then e else z) } ws
    else if 8 ≤ v.ents.length then .abort abFull
    else .ok { v with ents := v.ents ++ [e] } ws)

/-- DRD and DRDW: a read of device DRAM starts; DRDW watches its lines. (log entry 88 DEDUCED.) -/
def Chip.drdUnit (c : Chip) (x : Nat) (isW : Bool) : Chip :=
  let v := c.ctx x
  let w := c.mwAt (x / 64) v.pc
  let d := (v.reg (mwRd w)).toNat
  let a := (v.reg (mwRa w)).toNat
  let n := bitsOf 28 16 d
  let outside := v.isOpen && n != 0 && !c.routineMay v a n && c.routineMay { v with opn := some false } a n
  let c := if outside && v.st == 1 && mwMemOp w == (if isW then 8 else 7) then c.routineDenied x else c
  c.runUnit x 2 (if isW then 8 else 7) fun v _ ws =>
    if n = 0 then .ok v ws
    else if 4096 < n ∨ !c.routineMay v a n then .abort abMem
    else
      let v := { v with fills := v.fills ++ [⟨a, d % 4096, n, false⟩] }
      if !isW then .ok v ws
      else
        let wl := v.watch ++ (linesOf a n).filter (fun l => !v.watch.contains l)
        if 64 < wl.length then .abort abWatch else .ok { v with watch := wl } ws

/-- DRD_DATA_ARRIVED: the oldest read in flight ends, with its data or with an error. -/
def Chip.drdArrived (c : Chip) (x : Nat) (err : Bool) : Chip :=
  let v := c.ctx x
  match v.fills.find? (fun (f : Fill) => !f.bad) with
  | none => c
  | some f =>
    if v.free then c
    else if err then c.setCtx x { v with fills := v.fills.map (fun (g : Fill) => if g = f then { g with bad := true } else g) }
    else c.setCtx x { v with fills := v.fills.erase f, scratch := putScratch v.scratch f.addr (c.dramRead f.dram f.len) }

/-- WKEEP: only the watch on one line stays. -/
def Chip.wkeep (c : Chip) (x : Nat) : Chip := c.runUnit x 2 9 fun v w ws =>
  let l := (v.reg (mwRa w)).toNat / 64
  .ok { v with watch := v.watch.filter (· == l), broken := v.broken.filter (· == l) } ws

/-- DWR: a write of device DRAM is staged. (log entry 88 DEDUCED.) -/
def Chip.dwrUnit (c : Chip) (x : Nat) : Chip :=
  let v := c.ctx x
  let w := c.mwAt (x / 64) v.pc
  let d := (v.reg (mwRd w)).toNat
  let a := (v.reg (mwRa w)).toNat
  let n := bitsOf 28 16 d
  let outside := v.isOpen && !c.routineMay v a n && c.routineMay { v with opn := some false } a n
  let c := if outside && v.st == 1 && mwMemOp w == 10 then c.routineDenied x else c
  c.runUnit x 2 10 fun v _ ws =>
    if n < 8 ∨ 64 < n ∨ 64 < a % 64 + n ∨ !c.routineMay v a n then .abort abMem
    else if 8 ≤ v.ents.length then .abort abFull
    else .ok { v with ents := v.ents ++ [⟨0, [], 0, 0, d % 4096, n, a⟩] } ws

/-- CADD: a counter delta is staged. -/
def Chip.cadd (c : Chip) (x : Nat) : Chip := c.runUnit x 2 11 fun v w ws =>
  if 16 ≤ v.deltas.length then .abort abFull
  else .ok { v with deltas := v.deltas ++ [((v.reg (mwRa w)).toNat % 1024, mwImm w)] } ws

/-! ### KEY (R307) -/

/-- H2 << 32 | H1 of a key. -/
def Chip.hashes (c : Chip) (key : Bytes) : BitVec 64 := w64 (c.h2Of key * 2 ^ 32 + c.h1Of key)

/-- HASH. -/
def Chip.kHash (c : Chip) (x : Nat) : Chip := c.runUnit x 3 1 fun v w ws =>
  let a := (v.reg (mwKr w)).toNat % 4096
  afterTouch v [(a, 40)] (.ok v (ws.reg (mwKr w + 1) (c.hashes (v.sread a 40))))

/-- A key area canonicalised at a scratch address, with its hashes and orientation (CANON, KBLD). -/
def Chip.canonAt (c : Chip) (ws : WordSt) (kr a : Nat) (k : Bytes) : WordSt :=
  match canonKey (sliceB k 0 16) (sliceB k 16 16) (beAt k 32 2) (beAt k 34 2) (byteAt k 36) (beAt k 37 3) with
  | (key, o) =>
    let ws := ((ws.put a key).reg (kr + 1) (c.hashes key)).reg (kr + 2) (w64 o)
    { ws with flags := { ws.flags with ko := o == 1 } }

/-- CANON. -/
def Chip.kCanon (c : Chip) (x : Nat) : Chip := c.runUnit x 3 2 fun v w ws =>
  let a := (v.reg (mwKr w)).toNat % 4096
  afterTouch v [(a, 40)] (.ok v (c.canonAt ws (mwKr w) a (v.sread a 40)))

/-- CRCS. -/
def Chip.kCrcs (c : Chip) (x : Nat) : Chip := c.runUnit x 3 3 fun v w ws =>
  let d := (v.reg (mwKr w)).toNat
  let a := d % 4096
  let n := bitsOf 22 16 d
  afterTouch v [(a, n)] (.ok v (ws.reg (mwKr w + 1) (w64 (crc32c (d / 2 ^ 32) (v.sread a n)))))

/-- KCMP. -/
def Chip.kCmp (c : Chip) (x : Nat) : Chip := c.runUnit x 3 4 fun v w ws =>
  let d := (v.reg (mwKr w)).toNat
  let a := d % 4096
  let b := bitsOf 23 12 d
  let n := if bitsOf 30 24 d = 0 then 64 else bitsOf 30 24 d
  afterTouch v [(a, n), (b, n)] (.ok v { ws with flags := { ws.flags with keyMatch := v.sread a n == v.sread b n } })

/-- A NAT_POOL entry (R270). -/
def Chip.natPool (c : Chip) (p : Nat) : Bytes := smGet (fun _ => zerosB 64) c.act.natPool p
/-- The entry may give addresses: VALID and ADDR_COUNT not 0. -/
def npOk (e : Bytes) : Bool := bitOf 0 (byteAt e 0) && beAt e 2 2 != 0
/-- Ports of a pool address, PC. -/
def npPc (e : Bytes) : Nat := beAt e 6 2 + 1 - beAt e 4 2
/-- Positions of a pool, N (R271). -/
def npN (e : Bytes) : Nat := beAt e 2 2 * npPc e
/-- PROBES. -/
def npProbes (e : Bytes) : Nat := if byteAt e 36 = 0 then 64 else min 64 (byteAt e 36)
/-- Address of the map entry (s, p) (R271). -/
def npMap (e : Bytes) (s p : Nat) : Nat := beAt e 28 8 + 32 * (s * npN e + p)
/-- Slot of a protocol. -/
def npSlot (proto : Nat) : Option Nat :=
  if proto = 6 then some 0 else if proto = 17 then some 1 else if proto = 1 ∨ proto = 58 then some 2 else none

/-- POOLP. -/
def Chip.kPoolp (c : Chip) (x : Nat) : Chip := c.runUnit x 3 5 fun v w ws =>
  let d := (v.reg (mwKr w)).toNat
  let a := bitsOf 43 32 d
  let pool := smGet (fun _ => 0) c.act.natPort (d % 512)
  let e := c.natPool pool
  let no : UOut := .ok v { ws.reg (mwKr w + 1) 0 with flags := { ws.flags with keyPool := false } }
  match npSlot (bitsOf 31 24 d) with
  | none => no
  | some s =>
    if pool = 0xFF ∨ !npOk e ∨ !bitOf s (byteAt e 1) then no
    else afterTouch v [(a, 64)] (.ok v
      { (ws.put a e).reg (mwKr w + 1) (w64 (pool + s * 2 ^ 8 + (byteAt e 37 % 64) * 2 ^ 10 + (pool * 256 + 3) * 2 ^ 16
          + npN e * 2 ^ 32)) with flags := { ws.flags with keyPool := true } })

/-- The inside or the peer endpoint of a key: address and port. -/
def endpoint (key : Bytes) (o : Nat) (peer : Bool) : Bytes × Bytes :=
  if (o = 0) != peer then (sliceB key 0 16, sliceB key 32 2) else (sliceB key 16 16, sliceB key 34 2)

/-- POOLA: the map entry of the peer endpoint in slot s, where a valid pool's range holds its address. -/
def Chip.kPoola (c : Chip) (x : Nat) : Chip := c.runUnit x 3 6 fun v w ws =>
  let d := (v.reg (mwKr w)).toNat
  let s := bitsOf 9 8 d
  let ka := bitsOf 27 16 d
  afterTouch v [(ka, 40)] (
    match endpoint (v.sread ka 40) (bitsOf 12 12 d) true with
    | (ad, po) =>
      let n := beNat ad
      let p := beNat po
      let holds (e : Bytes) : Bool := npOk e && decide (beAt e 8 16 ≤ n) && decide (n < beAt e 8 16 + beAt e 2 2)
      match (List.range 256).find? (fun i => holds (c.natPool i)) with
      | none => .ok v { ws.reg (mwKr w + 1) 0 with flags := { ws.flags with keyPool := false } }
      | some i =>
        let e := c.natPool i
        if bitOf s (byteAt e 1) && decide (beAt e 4 2 ≤ p) && decide (p ≤ beAt e 6 2) then
          .ok v { ws.reg (mwKr w + 1) (w64 (npMap e s ((n - beAt e 8 16) * npPc e + (p - beAt e 4 2)))) with
            flags := { ws.flags with keyPool := true } }
        else .ok v { ws.reg (mwKr w + 1) 0 with flags := { ws.flags with keyPool := false } })

/-- start of nat_map (R272). (log entry 87 DESIGN CHOICE.) -/
def natStart (e : Bytes) (s : Nat) (zone a pa : Bytes) : Nat :=
  let h := crc32c (beAt e 24 4) (zone ++ a ++ pa ++ natBe 1 s)
  let p := beNat pa
  if bitOf 1 (byteAt e 0) && decide (beAt e 4 2 ≤ p) && decide (p ≤ beAt e 6 2) then
    (h % beAt e 2 2) * npPc e + (p - beAt e 4 2)
  else h % npN e

/-- NATS; on a pool without positions the start is a free value. -/
def Chip.kNats (c : Chip) (x : Nat) : Chip := c.runUnit x 3 7 fun v w ws =>
  let d := (v.reg (mwKr w)).toNat
  let s := bitsOf 9 8 d
  let o := bitsOf 12 12 d
  let ka := bitsOf 27 16 d
  let pa := bitsOf 39 28 d
  let wa := bitsOf 51 40 d
  let e := c.natPool (d % 256)
  afterTouch v [(ka, 40), (pa, 42)] (
    let key := v.sread ka 40
    match endpoint key o false, endpoint key o true with
    | (ia, ip), (qa, qp) =>
      let st := if npN e = 0 then c.freeNat else natStart e s (sliceB key 37 3) ia ip
      let n1 := min (npProbes e) (npN e - st)
      let r (i n : Nat) (ws : WordSt) : WordSt := ws.reg (mwKr w + i) (w64 n)
      .ok v (r 5 ((wa + 32 * n1) % 4096 + 32 * (npProbes e - n1) * 2 ^ 16) (r 4 (npMap e s 0) (r 3 (wa + 32 * n1 * 2 ^ 16)
        (r 2 (npMap e s st) (r 1 (st + npProbes e * 2 ^ 32)
          (ws.put pa (ia ++ ip ++ sliceB key 37 3 ++ [1, 0, 0] ++ qa ++ qp))))))))

/-- NATX. -/
def Chip.kNatx (c : Chip) (x : Nat) : Chip := c.runUnit x 3 8 fun v w ws =>
  let d := (v.reg (mwKr w)).toNat
  let s := bitsOf 9 8 d
  let a := bitsOf 27 16 d
  let p := d / 2 ^ 32
  let e := c.natPool (d % 256)
  afterTouch v [(a, 18)] (.ok v
    ((ws.put a (natBe 16 (beAt e 8 16 + p / npPc e) ++ natBe 2 (beAt e 4 2 + p % npPc e))).reg (mwKr w + 1) (w64 (npMap e s p))))

/-- KBLD. -/
def Chip.kBld (c : Chip) (x : Nat) : Chip := c.runUnit x 3 9 fun v w ws =>
  let d := (v.reg (mwKr w)).toNat
  let a := d % 4096
  let se := bitsOf 23 12 d
  let de := bitsOf 35 24 d
  let z := bitsOf 47 36 d
  afterTouch v [(a, 40), (se, 18), (de, 18), (z, 4)] (.ok v (c.canonAt ws (mwKr w) a
    (v.sread se 16 ++ v.sread de 16 ++ v.sread (se + 16) 2 ++ v.sread (de + 16) 2 ++ v.sread z 4)))

/-- TPLR. -/
def Chip.kTplr (c : Chip) (x : Nat) : Chip := c.runUnit x 3 10 fun v w ws =>
  let t := c.tpl ((v.reg (mwKr w)).toNat % 64)
  .ok v ((ws.reg (mwKr w + 1) (w64 ((b2n (tpPinNew t) * 2 ^ 14 + tpAgeNew t) * 2 ^ 48))).reg (mwKr w + 2)
    (w64 (b2n (tpExportNew t) * 2 ^ 53)))

/-! ### CRC (R308) -/

/-- INIT. -/
def Chip.crcInit (c : Chip) (x : Nat) : Chip := c.runUnit x 4 1 fun v w ws =>
  .ok v { ws with run := if mwSeed w then BitVec.ofNat 32 (v.reg (mwRa w)).toNat else BitVec.ofNat 32 (polyOf (mwPoly w)).init }

/-- FEED: the bytes the word's SLD or SST moves. (log entry 88 DEDUCED.) -/
def Chip.crcFeed (c : Chip) (x : Nat) : Chip := c.runUnit x 4 2 fun v w ws =>
  match v.memRange w with
  | (a, n) =>
    if 4096 < a + n then .abort abMem
    else afterTouch v [(a, n)] (
      let bs := if mwMemOp w = 2 then c.sstBytes v w else v.sread a n
      .ok v { ws with run := BitVec.ofNat 32 (cvRun (polyOf (mwPoly w)) v.run.toNat bs) })

/-- OUT. -/
def Chip.crcOut (c : Chip) (x : Nat) : Chip := c.runUnit x 4 3 fun v w ws =>
  .ok v (ws.reg (mwRd w) (w64 (cvFinal (polyOf (mwPoly w)) v.run.toNat)))

/-! ### EMIT (R309) -/

/-- The length an emission kind admits. -/
def emitLenOk (op n : Nat) : Bool :=
  match op with
  | 3 => n == 64
  | 4 => decide (8 ≤ n) && decide (n ≤ 4092)
  | _ => decide (60 ≤ n) && decide (n ≤ 4092)

/-- EMIT of kind `op`: the emission is staged. -/
def Chip.emitUnit (c : Chip) (x op : Nat) : Chip :=
  let v := c.ctx x
  let ok := bitOf op (c.polByte (if v.isOpen then 0x217 else 0x216)).toNat
  let c := if !ok && v.st == 1 && mwEmitOp (c.mwAt (x / 64) v.pc) == op then c.routineDenied x else c
  c.runUnit x 5 op fun v w ws =>
    let d := (v.reg (mwEr w)).toNat
    let n := bitsOf 28 16 d
    if !emitLenOk op n then .abort abMem
    else if !ok then .abort abEmit
    else if 4 ≤ v.emits.length then .abort abFull
    else .ok { v with emits := v.emits ++ [⟨op, d % 4096, n, bitsOf 40 32 d, mwQsel w⟩] } ws

/-! ### TIM (R310) -/

/-- TIM code 1 to 3: a time sample into G[ALUB.DST]. -/
def Chip.timSample (c : Chip) (x code : Nat) : Chip := c.runUnit x 6 code fun v w ws =>
  .ok v (ws.reg (aDst (mwAlu w true)) (w64 (match code with | 1 => c.ft | 2 => c.dt / 2 ^ 16 | _ => c.dtw)))

/-- TIM code 4: TIME_AFTER. -/
def Chip.timAfter (c : Chip) (x : Nat) : Chip := c.runUnit x 6 4 fun v w ws =>
  .ok v { ws with flags := { ws.flags with timeAfter := dtwAfter c.dtw (v.reg (aSa (mwAlu w true))).toNat } }

end Sys2Proof.Machine
end

