-- ==== Sys2Proof/Machine/ActSeq.lean ====
section
/-! DEFINITION. Microword completion and sequencing (R299, R302), COMMIT (R312 to R316), emissions (R309) and the ends of
routines (R317 to R322, R348). -/
namespace Sys2Proof.Machine
open Sys2Proof

/-! ### Emissions handed over (R309, R316) -/

/-- A packet a routine or a ring hands over takes its cells (R386); without room for them it is dropped as by the
threshold. -/
def Chip.handOver (c : Chip) (p : Pkt) : Chip :=
  let pid := c.tm.nextPid
  let n := cellsFor p.frame.length
  let c := c.addPkt { p with got := p.frame.length, tail := 1 }
  if c.ingRoom p.slice + c.freeCells < n then (c.copyDropped p.port p.port 1).rmPkt pid
  else (c.chargeCells pid n).holdCells pid n

/-- The order number of a cluster's next packet. -/
def Chip.takeSeq (c : Chip) (k : Nat) : Nat × Chip :=
  let n := smGet (fun _ => 0) c.act.emitSeq k
  (n, { c with act := { c.act with emitSeq := smSet (fun _ => 0) c.act.emitSeq k (n + 1) } })

/-- PKT_OUT: admission to a port and class. The open region is marked by `prov` (R582). -/
def Chip.emitOut (c : Chip) (x port cls : Nat) (opn : Bool) (bs : Bytes) : Chip :=
  match c.takeSeq (x / 64) with
  | (n, c) =>
    c.handOver { Pkt.init 3 x port 0 c.dtw bs with
      srcSeq := n
      stage := .ready
      prov := if opn then some (1, 0) else none
      res := { ClsRes.init with cls := cls, outKind := 0, out := port } }

/-- PKT_IN: a pipe of the port's slice, as if received there. -/
def Chip.emitIn (c : Chip) (x port : Nat) (bs : Bytes) : Chip :=
  match c.takeSeq (x / 64) with
  | (n, c) => c.handOver { Pkt.init 4 x port 0 c.dtw bs with srcSeq := n }

/-- HOST: a to-host ring under control-plane policer 8 (R505, R506). (log entry 89 DEDUCED.) -/
def Chip.emitHost (c : Chip) (x ring : Nat) (bs : Bytes) : Chip :=
  match c.cpPolice 8 with
  | (false, c) => c.bump F.HST_CNT_PUNT_DROP.V
  | (true, c) =>
    match c.ringPacket ring (metaBlock c.dtw x 8 0 0 0 0 0 bs.length 0 0 0 0 [] ++ bs) with
    | (true, c) => c
    | (false, c) => c.bump F.HST_CNT_PUNT_DROP.V

/-- An item a routine emits: a device or reserved KIND becomes FORGED (R336). -/
def Chip.forge (c : Chip) (i : Bytes) : Bytes × Chip :=
  if kindForged (itemKind i) then
    (putB i 0 [BitVec.ofNat 8 (setBitsOf 7 4 (byteAt i 0) 15)], c.raise F.WDS_EVENTS.FORGED)
  else (i, c)

/-- One emission of a committed write set. (log entry 89 DEDUCED.) -/
def Chip.emitOne (c : Chip) (x : Nat) (v : Ctx) (e : Emis) (shared : Bool) : Chip :=
  let bs := v.sread e.addr e.len
  match e.op with
  | 1 => c.emitOut x e.dest e.qsel v.isOpen bs
  | 2 => c.emitIn x e.dest bs
  | 3 => (match c.forge bs with | (i, c) => c.enterItem (e.dest % 64) i none shared)
  | _ => c.emitHost x e.dest bs

/-- The emissions in staging order; each ITEM takes the slot reserved for it. -/
def Chip.emitAll (c : Chip) (x : Nat) (v : Ctx) : List Emis → List (Nat × Bool) → Chip
  | [], _ => c
  | e :: r, rs =>
    if e.op = 3 then (c.emitOne x v e ((rs.head?.map Prod.snd).getD false)).emitAll x v r (rs.drop 1)
    else (c.emitOne x v e false).emitAll x v r rs

/-! ### COMMIT (R312, R314, R538) -/

/-- Class of an ITEM emission. -/
def Emis.cls (e : Emis) : Nat := e.dest % 64

/-- The scratch ranges a write set names, read at COMMIT. -/
def Ctx.setRanges (v : Ctx) : List (Nat × Nat) :=
  v.ents.map (fun (e : WEnt) => (e.addr, if e.kind = 3 then 40 else e.len))
    ++ v.emits.map (fun (e : Emis) => (e.addr, e.len))

/-- The group mask of the routine's region (R295). -/
def Chip.maskOf (c : Chip) (v : Ctx) : Nat := c.pol (if v.isOpen then 0x212 else 0x210) 2

/-- The record entries of a write set as ops, in the order of R314. -/
def Chip.commitEnts (c : Chip) (x : Nat) (v : Ctx) : List CEnt :=
  let l : List CEnt := (v.ents.zipIdx.filter (fun (e : WEnt × Nat) => e.1.kind != 0)).map (fun (e : WEnt × Nat) =>
    let img := if e.1.kind = 3 then sliceB (v.sread e.1.addr 40) 0 128 else v.sread e.1.addr 128
    ⟨coreOp 3 x e.2 (sliceB img 0 40) e.1.h1 e.1.h2 e.1.kind (c.maskOf v) img c.mt, (c.ownerOf e.1.h1).getD 4, 0, 0, 0⟩)
  l.mergeSort (fun (a b : CEnt) =>
    let k (z : CEnt) : Nat := (z.dev * 128 + hEngine z.op.h1) * 2 ^ 320 + beNat (sliceB z.op.key 0 40)
    decide (k a ≤ k b))

/-- OP code of a remote PREP (R537). -/
def rrecPrep (mode : Nat) : Nat := if mode = 1 then 2 else if mode = 3 then 4 else 3

/-- The chip with an entry of a committing write set changed. -/
def Chip.setEnt (c : Chip) (x : Nat) (e e2 : CEnt) : Chip :=
  c.onCtx x fun v => { v with commit := v.commit.map (fun (z : CEnt) => if z = e then e2 else z) }

/-- The slots of the ITEM emissions are reserved (R341); all reserved, the write set waits for the commit point. -/
def Chip.reserve (c : Chip) (x : Nat) : Nat → Chip
  | 0 => c
  | n + 1 =>
    let v := c.ctx x
    match (v.emits.filter (fun (e : Emis) => e.op == 3)).drop v.reserved.length with
    | [] =>
      let c := c.setCtx x { v with st := 4 }
      { c with act := { c.act with commitQ := c.act.commitQ ++ [x] } }
    | e :: _ =>
      if c.classFull e.cls false ≠ 0 then c
      else match c.takeSlot e.cls false with
        | (sh, c) => (c.onCtx x fun v => { v with reserved := v.reserved ++ [(e.cls, sh)] }).reserve x n

/-- A PREP is sent to the own engine or to the peer that owns the slot; an unreachable owner ends the routine. -/
def Chip.sendPrep (c : Chip) (x : Nat) (e : CEnt) : Chip :=
  let v := c.ctx x
  match c.ownerOf e.op.h1 with
  | none => c.endCtx x 1 abOwner
  | some d =>
    if d = c.ownDevice then
      if c.engineHeld (hEngine e.op.h1) then c.endCtx x 1 abStopped
      else
        let c := c.setEnt x e { e with dev := d, st := 1, tries := e.tries + 1 }
        { c with act := { c.act with reqs := c.act.reqs ++ [e.op] } }
    else match c.slotPort d e.op.h1 with
      | none => c.endCtx x 1 abOwner
      | some p =>
        let c := c.setEnt x e { e with dev := d, port := p, st := 1, tries := e.tries + 1 }
        (c.onCtx x fun v => { v with rdAt := c.mt }).gangOut p d 7
          (rrecBody (rrecPrep e.op.mode) 0 0 (b2n v.isOpen) (xtag v.gen e.op.tag x) e.op.h1 e.op.h2 e.op.data)

/-- The next entry is prepared, or the reservations begin (R314). -/
def Chip.nextPrep (c : Chip) (x : Nat) : Chip :=
  match (c.ctx x).commit.find? (fun (e : CEnt) => e.st == 0) with
  | some e => c.sendPrep x e
  | none => (c.onCtx x fun v => { v with st := 3 }).reserve x 5

/-- COMMIT with its condition true: an ITEM for a class that is not present ends the routine (R341). -/
def Chip.startCommit (c : Chip) (x tgt : Nat) : Chip :=
  let v := c.ctx x
  if v.emits.any (fun (e : Emis) => e.op == 3 && !c.classPresent e.cls) then c.endCtx x 1 abMem
  else (c.setCtx x { v with st := 2, failPc := tgt, commit := c.commitEnts x v, gen := v.gen + 1 }).nextPrep x

/-- PREP_ANSWER: the answer to a context's PREP arrives. A station that is full has not taken the PREP, which is sent
again. -/
def Chip.prepAnswer (c : Chip) (x : Nat) : Chip :=
  let v := c.ctx x
  match v.commit.find? (fun (e : CEnt) => e.st == 1) with
  | none => c
  | some e => match c.flow.answers.find? (fun (a : FAnswer) => a.op == e.op) with
    | none => c
    | some a =>
      let c := c.onFlow fun f => { f with answers := f.answers.erase a }
      match a.code with
      | 0 => (c.setEnt x e { e with st := 2 }).nextPrep x
      | 7 => (c.setEnt x e { e with st := 0 }).nextPrep x
      | 9 => if 3 ≤ e.tries then (c.setEnt x e { e with st := 0 }).endCtx x 1 abOwner
             else (c.setEnt x e { e with st := 0 }).nextPrep x
      | 8 => (c.setEnt x e { e with st := 0 }).endCtx x 1 abOwner
      | r =>
        let c := if r = 2 then c.routineDenied x else c
        (c.setEnt x e { e with st := 0 }).endCtx x 4 r

/-- An APPLY for a prepared entry (R314, R538). -/
def Chip.applyEntry (c : Chip) (x : Nat) (v : Ctx) (e : CEnt) : Chip :=
  if e.dev ≠ c.ownDevice then
    c.gangOut e.port e.dev 7 (rrecBody 5 0 0 (b2n v.isOpen) (xtag v.gen e.op.tag x) e.op.h1 e.op.h2 e.op.key)
  else { c with act := { c.act with msgs := c.act.msgs ++ [(true, hEngine e.op.h1, x, e.op.tag)] } }

/-- The DWR entries are written in staging order; each breaks the watches of other contexts. -/
def Chip.commitDwr (c : Chip) (x : Nat) (v : Ctx) : Chip :=
  (v.ents.filter (fun (e : WEnt) => e.kind == 0)).foldl (fun c (e : WEnt) =>
    (c.dramWrite e.dram (v.sread e.addr e.len)).breakWatch (some x) e.dram e.len) c

/-- A write set takes the commit point (R314, R316). -/
def Chip.commitNow (c : Chip) (x : Nat) : Chip :=
  let v := c.ctx x
  if !v.broken.isEmpty then
    ((c.dropSet x).onCtx x fun v => { v with st := 1, pc := v.failPc, word := none }).bumpQ 48 F.ACT_CNT_WATCH_FAIL.V (x / 64)
  else
    let c := v.commit.foldl (fun c e => c.applyEntry x v e) c
    let c := c.commitDwr x v
    let c := v.deltas.foldl (fun c (d : Nat × Nat) => c.bumpQWrap 64 F.TEL_RT_CNT.V d.1 0 d.2) c
    let c := c.emitAll x v v.emits v.reserved
    (c.onCtx x fun v => { v with commit := [], reserved := [] }).endCtx x 0 0

/-- Write sets that wait for a full class try again, in context order. -/
def Chip.retryReserve (c : Chip) : Chip :=
  (smKeys c.act.ctxs).foldl (fun c x => if (c.ctx x).st = 3 then c.reserve x 5 else c) c

/-- COMMIT_POINT: the oldest waiting write set takes the commit point. (log entry 89 DEDUCED.) -/
def Chip.commitPoint (c : Chip) : Chip :=
  let c := c.retryReserve
  match c.act.commitQ with
  | [] => c
  | x :: _ => c.commitNow x

/-! ### Completion and sequencing (R299, R302) -/

/-- A context with the results of its completed word written. -/
def Ctx.complete (v : Ctx) (ws : WordSt) : Ctx :=
  { v with
    g := ws.regs.foldl (fun m (e : Nat × BitVec 64) => if e.1 ≤ 63 then smSet (fun _ => 0) m e.1 e.2 else m) v.g
    scratch := ws.mem.foldl (fun m (e : Nat × Bytes) => putScratch m e.1 e.2) v.scratch
    flags := ws.flags
    lc := ws.lc
    run := ws.run
    word := none }

/-- Some part of the write set is full. -/
def Ctx.wsFull (v : Ctx) : Bool :=
  decide (8 ≤ v.ents.length) || decide (4 ≤ v.emits.length) || decide (16 ≤ v.deltas.length)

/-- The word's condition on a completed context (R303). -/
def Ctx.holds (v : Ctx) (w : Mw) : Bool := (v.flags.cond (mwSel w) (v.lc == 0) v.wsFull) != mwInv w

/-- The context at an address. -/
def Ctx.goto (v : Ctx) (a : Nat) : Ctx := { v with pc := a % 0x8000 }

/-- An error the word meets (R328): 1 corrected, 2 uncorrectable in the control store, 3 in a register or scratch. True: the
word is not executed and the routine has ended. (log entry 88 DEDUCED.) -/
def Chip.wordEcc (c : Chip) (x ecc : Nat) : Chip × Bool :=
  match ecc with
  | 0 => (c, false)
  | 1 => ((c.bumpQ 48 F.ACT_CNT_CORR.V (x / 64)).raise F.ACT_CL_EVENTS.CORR (x / 64), false)
  | 2 => ((c.raise F.ACT_CL_EVENTS.STORE_UNCORR (x / 64)).endCtx x 1 abFault, true)
  | _ => ((c.raise F.ACT_CL_EVENTS.DATA_UNCORR (x / 64)).endCtx x 1 abFault, true)

/-- What a word's sequencing does with the completed context: it goes on, or the routine ends or commits. -/
inductive Go where
  | next (v : Ctx)
  | stop (v : Ctx) (st code : Nat)
  | commit (v : Ctx) (tgt : Nat)
  deriving DecidableEq, Repr

/-- The word at PC completes with sequencing `nxt`; it waits while a unit of it has not run. (log entry 85 DESIGN CHOICE.) -/
def Chip.sequence (c : Chip) (x nxt ecc : Nat) (k : Ctx → Mw → Go) : Chip :=
  let v := c.ctx x
  let w := c.mwAt (x / 64) v.pc
  if v.st ≠ 1 ∨ mwNxt w ≠ nxt then c
  else match c.issue x with
    | (c, false) => c
    | (c, true) => match c.wordEcc x ecc with
      | (c, true) => c
      | (c, false) => match (c.ctx x).word with
        | none => c
        | some ws =>
          if !(mwUnits w).all ws.done.contains then c
          else
            let v := (c.ctx x).complete ws
            let c1 := if mwMemOp w = 2 ∧ 64 < mwRd w + mwRegs w then c.useFree else c
            match k v w with
            | .next v => c1.setCtx x v
            | .stop v st code => (c1.setCtx x v).endCtx x st code
            | .commit v tgt => match v.touch v.setRanges with
              | 1 => c
              | 2 => (c1.setCtx x v).endCtx x 1 abMem
              | _ => (c1.setCtx x v).startCommit x tgt

/-- The word after. -/
def Ctx.seq (v : Ctx) : Ctx := v.goto (v.pc + 1)

/-- SEQ. -/
def goSeq (v : Ctx) (_ : Mw) : Go := .next v.seq
/-- BR. -/
def goBr (v : Ctx) (w : Mw) : Go := .next (if v.holds w then v.goto (mwTgt w) else v.seq)
/-- CALL. -/
def goCall (v : Ctx) (w : Mw) : Go :=
  if !v.holds w then .next v.seq
  else if 8 ≤ v.stack.length then .stop v 1 abStack
  else .next ({ v with stack := (v.pc + 1) % 0x8000 :: v.stack }.goto (mwTgt w))
/-- RET. -/
def goRet (v : Ctx) (w : Mw) : Go :=
  if !v.holds w then .next v.seq
  else match v.stack with
    | [] => .stop v 1 abStack
    | a :: r => .next ({ v with stack := r }.goto a)
/-- LOOP. -/
def goLoop (v : Ctx) (w : Mw) : Go :=
  let v := { v with lc := v.lc - 1 }
  .next (if v.lc = 0 then v.seq else v.goto (mwTgt w))
/-- COMMIT. -/
def goCommit (v : Ctx) (w : Mw) : Go := if v.holds w then .commit v (mwTgt w) else .next v.seq
/-- ABORT. -/
def goAbort (v : Ctx) (w : Mw) : Go := if v.holds w then .stop v 1 (mwTgt w % 256) else .next v.seq

/-! ### Stops from outside (R320 to R322) -/

/-- ROUTINE_WALL_TIMEOUT (R320). -/
def Chip.wallTimeout (c : Chip) (x : Nat) : Chip := c.endCtx x 3 0

/-- KILL (R321). (log entry 89 DEDUCED.) -/
def Chip.killCtx (c : Chip) (x : Nat) : Chip :=
  let v := c.ctx x
  let c := c.putF F.ACT_KILL.CONTEXT x
  if v.free then c.putF F.ACT_KILL.RESULT (if v.st = 5 ∧ v.endSt = 0 then 2 else 3)
  else (c.endCtx x 1 abKilled).putF F.ACT_KILL.RESULT 1

/-- A write of ACT_CL_CTRL.HOLD (R322). -/
def Chip.setHold (c : Chip) (k : Nat) (b : Bool) : Chip :=
  let c := c.putF F.ACT_CL_CTRL.HOLD (b2n b) k
  if b then c.heldCheck k else c.putF F.ACT_CL_STATUS.HELD 0 k

/-! ### The dispatcher's side of an end (R348, R482, R585) -/

/-- The sampled-microword record of a followed routine that has ended (R482). -/
def Chip.followEnd (c : Chip) (x : Nat) (b : Bound) : Chip :=
  match smFind c.tel.follow (x / 64) with
  | none => c
  | some f =>
    if f.context ≠ x then c
    else
      let v := c.ctx x
      let n := f.words.length
      let hdr := natLe 8 f.start ++ natLe 2 x ++ natLe 1 b.cls ++ natLe 1 v.endSt ++ natLe 1 v.endCode
        ++ natLe 1 (b2n (decide (1024 < f.count))) ++ natLe 2 n ++ natLe 2 v.entry ++ natLe 2 (min v.steps 65535)
        ++ natLe 4 (itemTag b.item) ++ natLe 4 (min (coreCycles (c.time.mt - f.startMt)) (2 ^ 32 - 1)) ++ zerosB 4
      let body := f.words.reverse.flatMap (fun (e : Nat × Nat) => natLe 4 (e.1 * 2 ^ 17 + min e.2 0x1FFFF))
      let r := hdr ++ body
      let c := { c with tel := { c.tel with follow := smErase c.tel.follow (x / 64) } }
      match c.ringRecord (c.getF F.TEL_SM_CTRL.RING) 3 (r ++ zerosB ((32 - r.length % 32) % 32)) with
      | (true, c) => c
      | (false, c) => (c.bump F.TEL_SM_CNT_LOST.V).raise F.TEL_EVENTS.SM_LOST

/-- A cluster is frozen (R585). -/
def Chip.freezeCluster (c : Chip) (k : Nat) : Chip :=
  let c := c.killAll k abKilled
  let c := c.putF F.SFL_STATUS.FROZEN (setBitsOf k k (c.getF F.SFL_STATUS.FROZEN) 1)
  ((c.bump F.SFL_CNT_FREEZE.V).sflEvent F.SFL_EVENTS.FREEZE).log 15 2 0x0286 k 0

/-- A failing end of an open-region routine counts towards a freeze (R585). -/
def Chip.freezeCount (c : Chip) (x : Nat) : Chip :=
  let v := c.ctx x
  let k := x / 64
  let bad := v.endSt == 2 || v.endSt == 3 || (v.endSt == 1 && v.endCode == abFault) || (v.endSt == 4 && v.endCode == 2)
  let lim := c.pol 0x230 1
  if lim = 0 ∨ !v.isOpen ∨ !bad then c
  else
    let n := smGet (fun _ => 0) c.sfl.freeze k + 1
    let c := { c with sfl := { c.sfl with freeze := smSet (fun _ => 0) c.sfl.freeze k n } }
    if n = lim then c.freezeCluster k else c

/-- FREEZE_WINDOW: every cluster's count restarts at 0. -/
def Chip.freezeWindow (c : Chip) : Chip := { c with sfl := { c.sfl with freeze := [] } }

/-- Items refused earlier are offered again, in the order of R339. -/
def Chip.retryHeld (c : Chip) : Chip :=
  let c := (smKeys c.wds.sweepHeld).foldl (fun c e => c.sweepOffer e) c
  let c := (smKeys c.wds.tmrHeld).foldl (fun c n => c.timerOffer n) c
  c.retryReserve

/-- ROUTINE_END: the dispatcher frees or returns the slot of an ended routine (R348). -/
def Chip.routineEnd (c : Chip) (x : Nat) : Chip :=
  let v := c.ctx x
  match v.bound with
  | none => c
  | some b =>
    if v.st ≠ 5 then c
    else
      let c := (c.sink F.WDS_CL_RUN.V b.cls).bump (if v.endSt = 0 then F.WDS_CL_CNT_DONE.V else F.WDS_CL_CNT_FAIL.V) b.cls
      let c := (c.freezeCount x).followEnd x b
      let c := c.onCtx x fun v => { v with st := 0, bound := none }
      if v.endSt = 1 ∧ v.endCode = abStopped then
        (c.setWaiting b.cls (b :: c.waitingOf b.cls)).csItem 5 b.cls x b 0 0 0
      else
        let c := (c.giveSlot b.cls b.shared b.att.isSome).csItem 4 b.cls x b v.endSt v.endCode v.steps
        let c := if itemKind b.item = 1 then c.onWds fun w => { w with
            setupEnds := w.setupEnds ++ [(hEngine (beAt b.item 52 4), byteAt b.item 5, if v.endSt = 0 then 0 else 1)] }
          else if itemKind b.item = 6 ∧ v.endSt ≠ 0 then c.bump F.GNG_CNT_ITEM_FAIL.V
          else c
        c.retryHeld

end Sys2Proof.Machine
end

