-- ==== Sys2Proof/Machine/Ternary.lean ====
section
/-! DEFINITION. Ternary profiles (R182 to R194): search, the ordered insert, staging and REBALANCE. -/
namespace Sys2Proof.Machine
open Sys2Proof

/-- Place number of a position: profile × 2^18 + position. (log entry 103 DESIGN CHOICE.) -/
def tKey (q n : Nat) : Nat := q * 2 ^ 18 + n

/-- The profile is present (R183). -/
def Chip.tPresent (c : Chip) (q : Nat) : Bool := c.flag F.CLS_TPROF_INFO.PRESENT q
/-- Bytes of a key (R182, R184). -/
def Chip.tWidth (c : Chip) (q : Nat) : Nat := 12 * 2 ^ c.getF F.CLS_TPROF_INFO.WIDTH q
/-- Positions N (R182). -/
def Chip.tSize (c : Chip) (q : Nat) : Nat := 4096 * c.getF F.CLS_TPROF_INFO.UNITS q
/-- The region that names the profile (R183). -/
def Chip.tRegion (c : Chip) (q : Nat) : Option Nat :=
  (List.range 32).find? (fun r => c.rKind r == 6 && byteAt (c.rSource r) 0 == q)

/-- The entries in use of a profile in position order. -/
def Chip.tEntries (c : Chip) (q : Nat) : List (Nat × REntry) :=
  (c.tern.entries.filter (fun e => e.1 / 2 ^ 18 == q)).map (fun e => (e.1 % 2 ^ 18, e.2))

/-- Fields of an entry body, bytes 8 to 111 of R185. -/
def tPrio (b : Bytes) : Nat := beAt b 0 4
def tAct (b : Bytes) : Nat := beAt b 4 3 % 2 ^ 22
def tValue (b : Bytes) : Bytes := sliceB b 8 48
def tMask (b : Bytes) : Bytes := sliceB b 56 48
/-- PRIO, VALUE and MASK (R185). -/
def tIdent (b : Bytes) : Bytes := sliceB b 0 4 ++ sliceB b 8 96

/-- A key matches an entry (R186). -/
def tMatch (key b : Bytes) : Bool :=
  (List.range 48).all (fun i =>
    Nat.land (Nat.xor (byteAt key i) (byteAt (tValue b) i)) (byteAt (tMask b) i) == 0)

/-- tsearch (R186). -/
def Chip.tsearch (c : Chip) (q : Nat) (key : Bytes) (v : Nat) : Option (Nat × REntry) :=
  (c.tEntries q).find? (fun e => c.visible e.2 v && tMatch key e.2.body)

/-- The search key of a profile from a header vector (R184). -/
def Chip.tSearchKey (c : Chip) (q : Nat) (hv : Bytes) : Bytes :=
  let x := smGet (fun _ => []) c.tern.extracts q
  sliceB ((List.range 8).foldl (fun k i => k ++ sliceB hv (byteAt x (2 * i)) (byteAt x (2 * i + 1))) []) 0 (c.tWidth q)

/-! ### Ordered insert (R190, R191) -/

/-- Where a new entry goes: position, moves as (from, to) in order; or the refusal's REASON. -/
def Chip.tPlace (c : Chip) (q p : Nat) (after : Option Nat) : Except Nat (Nat × List (Nat × Nat)) :=
  let es := c.tEntries q
  let n := c.tSize q
  let a : Int := match after with
    | some x => x
    | none => match (es.filter (fun e => decide (tPrio e.2.body ≤ p))).getLast? with
      | some e => e.1
      | none => -1
  let b : Nat := ((es.find? (fun e => decide (a < (e.1 : Int)))).map Prod.fst).getD n
  let used (x : Nat) : Bool := es.any (fun e => e.1 == x)
  if 2 ≤ (b : Int) - a then .ok (((a + (b : Int)) / 2).toNat, [])
  else
    let hd := firstBelow n (fun x => decide (b < x) && !used x)
    let hu := ((List.range a.toNat).reverse).find? (fun x => !used x)
    let md := match hd with | some h => h - b | none => 0
    let mu := match hu with | some h => a.toNat - h | none => 0
    let down : Nat × List (Nat × Nat) := (b, ((List.range md).map (fun i => (b + i, b + i + 1))).reverse)
    let up : Nat × List (Nat × Nat) :=
      (a.toNat, (List.range mu).map (fun i => (a.toNat - mu + 1 + i, a.toNat - mu + i)))
    match (match hd, hu with
      | none, none => none
      | some _, none => some down
      | none, some _ => some up
      | some _, some _ => if mu < md then some up else some down) with
    | none => .error 8
    | some r =>
      let lim := c.getF F.CLS_TMOVE_LIMIT.V
      if lim != 0 && decide (lim < r.2.length) then .error 11 else .ok r

/-- One move (R191). -/
def Chip.tMove (c : Chip) (q n m : Nat) : Chip :=
  match smFind c.tern.entries (tKey q n) with
  | none => c
  | some e =>
    let c := { c with tern := { c.tern with entries := smErase (smPut c.tern.entries (tKey q m) e) (tKey q n) } }
    c.renameChanges (fun x => if x.tern && x.place == tKey q n then { x with place := tKey q m } else x)

/-- A position's entry set. -/
def Chip.tPut (c : Chip) (q n : Nat) (e : REntry) : Chip :=
  { c with tern := { c.tern with entries := smPut c.tern.entries (tKey q n) e } }

/-- A position becomes a hole (R193). -/
def Chip.tFree (c : Chip) (tk : Nat) : Chip :=
  { (c.sink F.CLS_TPROF_USED.V (tk / 2 ^ 18)) with tern := { c.tern with entries := smErase c.tern.entries tk } }

/-- A new entry at its position after its moves. -/
def Chip.tAdd (c : Chip) (q : Nat) (body : Bytes) (pl : Nat × List (Nat × Nat)) : Chip :=
  let c := pl.2.foldl (fun c m => c.tMove q m.1 m.2) c
  let c := c.tPut q pl.1 ⟨c.nextV, 0, false, true, body⟩
  let c := (c.bump F.CLS_TPROF_USED.V q).addChange ⟨true, true, tKey q pl.1⟩
  (c.putF F.CLS_TPOS.V pl.1).putF F.CLS_TLAST.V pl.2.length

/-- A deletion staged on a standing entry. -/
def Chip.tDel (c : Chip) (q n : Nat) (e : REntry) : Chip :=
  (c.tPut q n { e with untilV := c.nextV, opn := false }).addChange ⟨false, true, tKey q n⟩

/-! ### Commands (R188, R189) -/

/-- A body is malformed for a profile (R189 FIELD); with `named` only its identity is judged. -/
def Chip.tBad (c : Chip) (q : Nat) (b : Bytes) (named : Bool) : Bool :=
  let w := c.tWidth q
  (!named && (bitsSet b 4 7 6 || byteAt b 7 != 0))
  || (List.range 48).any (fun i => (decide (w ≤ i) && (byteAt (tValue b) i != 0 || byteAt (tMask b) i != 0))
      || Nat.land (byteAt (tValue b) i) (255 - byteAt (tMask b) i) != 0)

/-- A ternary staging command: 1 TSTAGE_ADD, 2 TSTAGE_DEL, 3 TSTAGE_MOD. Status, REASON, whether moves or a write of a new
entry occupy the block, and the chip. -/
def Chip.tStage (c : Chip) (op q : Nat) (body : Bytes) (locked : Bool) : Nat × Nat × Bool × Chip :=
  let same := (c.tEntries q).filter (fun e => tIdent e.2.body == tIdent body)
  let staged := (same.filter (fun e => c.stagedAdd e.2)).head?
  let stand := (same.filter (fun e => c.standing e.2)).head?
  if !c.tPresent q || (c.tRegion q).isNone then (stInvalid, 1, false, c)
  else if c.tBad q body (op == 2) then (stInvalid, 2, false, c)
  else if op = 1 ∧ stand.isSome = true then (stInvalid, 3, false, c)
  else if op ≠ 1 ∧ staged.isNone = true ∧ stand.isNone = true then (stInvalid, 4, false, c)
  else if op ≠ 2 ∧ c.actOk 4 (tAct body) = false then (stInvalid, 5, false, c)
  else if locked then (stDenied, 6, false, c)
  else match op, staged, stand with
    | 2, some (n, _), _ => (stOk, 0, false, (c.tFree (tKey q n)).dropChange ⟨true, true, tKey q n⟩)
    | 2, none, some (n, e) => if c.latentFull 1 then (stBusy, 9, false, c) else (stOk, 0, false, c.tDel q n e)
    | _, some (n, e), _ => (stOk, 0, true, (c.tPut q n { e with body := body }).putF F.CLS_TPOS.V n)
    | _, none, _ =>
      match c.tPlace q (tPrio body) (if op = 3 then stand.map Prod.fst else none) with
      | .error 11 => (stBusy, 11, false, c.raise F.CLS_TEVENTS.MOVE_LIMIT)
      | .error r => (stBusy, r, false, c)
      | .ok pl =>
        if c.latentFull (if op = 3 then 2 else 1) then (stBusy, 9, false, c)
        else match op, stand with
          | 3, some (n, e) => (stOk, 0, true, (c.tDel q n e).tAdd q body pl)
          | _, _ => (stOk, 0, true, c.tAdd q body pl)

/-- A CLS_TCMD command that ends at once. -/
def Chip.tDone (c : Chip) (st reason : Nat) : Chip :=
  ((c.syncRules).putF F.CLS_TCMD_STATUS.REASON reason).finish portTcmd st

/-- A CLS_TCMD command that runs until its last write (R191). (log entry 104 DEDUCED.) -/
def Chip.tRuns (c : Chip) : Chip :=
  ((c.syncRules).putF F.CLS_TCMD_STATUS.REASON 0).putF F.CLS_TCMD_STATUS.RUNNING 1

/-- The policy closes the profile's region (R189). -/
def Chip.tLocked (c : Chip) (q : Nat) : Bool := match c.tRegion q with | some r => c.polBit 0x238 r | none => false

/-- A staging command of the host. -/
def Chip.tStageCmd (c : Chip) (op q : Nat) : Chip := c.command portTcmd fun c =>
  match c.tStage op q (c.getBytes (F.CLS_TSTAGE_DATA.V.base + 8) 104) (c.tLocked q) with
  | (st, reason, runs, c) =>
    let c := if st = stDenied then c.deniedCapture 1 0x610000 0 else c
    if runs then c.tRuns else c.tDone st reason

/-- The header of an entry as a lookup returns it (R159). -/
def entryHeader (e : REntry) : Bytes :=
  natBe 2 e.fromV ++ natBe 2 e.untilV ++ natBe 1 (1 + 2 * b2n e.base + 4 * b2n e.opn) ++ zerosB 3

/-- TLOOKUP (R188). -/
def Chip.tLookup (c : Chip) (q : Nat) (byKey : Bool) : Chip := c.command portTcmd fun c =>
  let b := c.getBytes (F.CLS_TSTAGE_DATA.V.base + 8) 104
  let v := c.getF F.CLS_TCMD_VERSION.V
  let hit := if byKey then c.tsearch q (tValue b) v
    else (c.tEntries q).find? (fun e => tIdent e.2.body == tIdent b && c.visible e.2 v)
  if !c.tPresent q || (c.tRegion q).isNone then c.tDone stInvalid 1
  else if !byKey && c.tBad q b true then c.tDone stInvalid 2
  else match hit with
    | some (n, e) =>
      if c.liveV v then
        ((c.putWords F.CLS_TSTAGE_DATA.V.base (entryHeader e ++ sliceB e.body 0 104)).putF F.CLS_TPOS.V n).tDone stOk 0
      else c.tDone stInvalid 4
    | none => c.tDone stInvalid 4

/-- Target of the r-th entry (R192). -/
def tTarget (k r : Nat) : Nat := if k = 0 then r else r + r / (k - 1)

/-- The moves of REBALANCE in order: upward ones highest first, then downward ones lowest first (R192). -/
def rebalanceMoves (k : Nat) (ps : List Nat) : List (Nat × Nat) :=
  let ms := ps.zipIdx.map (fun x => (x.1, tTarget k x.2))
  (ms.filter (fun m => decide (m.1 < m.2))).reverse ++ ms.filter (fun m => decide (m.2 < m.1))

/-- REBALANCE (R192). -/
def Chip.rebalance (c : Chip) (q : Nat) : Chip := c.command portTcmd fun c =>
  let ps := (c.tEntries q).map Prod.fst
  let k := c.getF F.CLS_TPROF_INFO.HOLE_INTERVAL q
  if !c.tPresent q || (c.tRegion q).isNone then c.tDone stInvalid 1
  else if c.tLocked q then (c.deniedCapture 1 0x610000 0).tDone stDenied 6
  else if !ps.isEmpty && decide (c.tSize q ≤ tTarget k (ps.length - 1)) then c.tDone stBusy 8
  else
    let c := (rebalanceMoves k ps).foldl (fun c m => c.tMove q m.1 m.2) c
    { c.tRuns with tern := { c.tern with wait := c.tern.wait ++ [9] } }

/-- The block runs a CLS_TCMD command. -/
def Chip.tBusy (c : Chip) : Bool := c.flag F.CLS_TCMD_STATUS.RUNNING

/-- TERNARY_SCRUB (R194): a mismatch rewrites the entry from its shadow; an uncorrectable shadow deletes it. -/
def Chip.tScrub (c : Chip) (q n : Nat) (uncorr : Bool) : Chip :=
  match smFind c.tern.entries (tKey q n) with
  | none => c
  | some _ =>
    if uncorr then
      let c := c.tFree (tKey q n)
      let keep (x : Change) : Bool := !(x.tern && x.place == tKey q n)
      let c := { c with rules := { c.rules with
        latent := c.rules.latent.filter keep
        lists := c.rules.lists.map (fun (l : Nat × List Change) => (l.1, l.2.filter keep)) } }
      c.syncRules.log 3 2 0x0007 q 0
    else (c.bump F.CLS_TCNT_SCRUB_FIX.V).raise F.CLS_TEVENTS.SCRUB_FIX

end Sys2Proof.Machine
end

