-- ==== Sys2Proof/Machine/Versions.lean ====
section
/-! DEFINITION. FIX, ABANDON, retirement and settle (R170 to R178), and the commands of both rule blocks (R167, R188). -/
namespace Sys2Proof.Machine
open Sys2Proof

/-- The latent set becomes the new current version (R170, R172). -/
def Chip.commitFix (c : Chip) (st : Nat) (held pulled : Bool) : Chip :=
  let v := c.nextV
  let c := { c with
    rules := { c.rules with
      lists := c.rules.lists ++ [(v, c.rules.latent)], latent := [], fixAt := none, fixLate := false, fixHeld := false }
    time := { c.time with late := c.time.late.filter (· != PendAct.fix) } }
  let c := (c.putF F.CLS_VERSION.CUR v).putF F.CLS_FIX_STATUS.VERSION v
  let c := (c.putF F.CLS_FIX_STATUS.STATUS st).putF F.CLS_FIX_STATUS.HELD (b2n held)
  let c := (c.putF F.CLS_FIX_STATUS.PULLED (b2n pulled)).putQ F.CLS_FIX_TIME.V c.dtw
  c.syncRules.raise F.CLS_EVENTS.FIX_DONE

/-- A scheduled FIX is withdrawn with its final status; the latent set is kept (R172, R459). -/
def Chip.fixWithdraw (c : Chip) (st : Nat) : Chip :=
  let held := c.rules.fixHeld
  let c := { c with
    rules := { c.rules with fixAt := none, fixLate := false, fixHeld := false }
    time := { c.time with late := c.time.late.filter (· != PendAct.fix) } }
  let c := (c.putF F.CLS_FIX_STATUS.STATUS st).putF F.CLS_FIX_STATUS.HELD (b2n held)
  (c.putF F.CLS_FIX_STATUS.PULLED 0).syncRules.raise F.CLS_EVENTS.FIX_FAILED

/-- A place for one more version is free (R157). -/
def Chip.versionFree (c : Chip) : Bool := decide (c.liveCount < 8)

/-- An untimed FIX (R170). -/
def Chip.fixUntimed (c : Chip) : Chip :=
  if c.rules.fixAt.isSome then c.clsDone stBusy 7
  else if !c.versionFree then c.clsDone stBusy 10
  else (c.commitFix stOk false false).clsDone stOk 0

/-- A timed FIX (R171): `cls` is the class of its time. (log entry 27 DEDUCED.) -/
def Chip.fixTimed (c : Chip) (cls : TimeClass) (t : Nat) : Chip :=
  let sched (late held : Bool) (c : Chip) : Chip :=
    { c with rules := { c.rules with fixAt := some t, fixLate := late, fixHeld := held } }
  if !c.timeValid then c.clsDone stInvalid 0
  else match cls with
    | .past => c.clsDone stPast 0
    | .far => c.clsDone stFar 0
    | _ =>
      if c.rules.fixAt.isSome then c.clsDone stBusy 7
      else match cls with
        | .late =>
          if c.versionFree then (c.commitFix stLate false false).clsDone stLate 0
          else (sched true true c).clsDone stLate 0
        | .now =>
          if c.versionFree then (c.commitFix stOk false false).clsDone stOk 0 else (sched false true c).clsDone stOk 0
        | _ => (sched false false c).clsDone stOk 0

/-- FIX as it takes effect; its time is in CLS_CMD_TIME. -/
def Chip.fixEffect (c : Chip) (timed : Bool) : Chip :=
  if timed then c.fixTimed (c.timeClass (c.getQ F.CLS_CMD_TIME.V)) (c.getQ F.CLS_CMD_TIME.V) else c.fixUntimed

/-- A CLS command that takes effect now, or once the running CLS_TCMD command completes (R188). -/
def Chip.clsOrWait (c : Chip) (n : Nat) (k : Chip → Chip) : Chip := c.command portCls fun c =>
  if c.tBusy then
    { (c.putF F.CLS_CMD_STATUS.RUNNING 1) with tern := { c.tern with wait := c.tern.wait ++ [n] } }
  else k c

/-- ABANDON as it takes effect (R167, R188): additions freed, deletions withdrawn. -/
def Chip.abandonEffect (c : Chip) : Chip :=
  if c.rules.fixAt.isSome then c.clsDone stBusy 7
  else
    let c1 := c.rules.latent.foldl (fun c x =>
      if x.add then (if x.tern then c.tFree x.place else c.freeEntry x.place)
      else
        let reopen (e : REntry) : REntry := { e with opn := true, untilV := 0 }
        if x.tern then match smFind c.tern.entries x.place with
          | some e => { c with tern := { c.tern with entries := smPut c.tern.entries x.place (reopen e) } }
          | none => c
        else match smFind c.rules.entries x.place with
          | some e => { c with rules := { c.rules with entries := smPut c.rules.entries x.place (reopen e) } }
          | none => c) c
    ({ c1 with rules := { c1.rules with latent := [] } }).clsDone stOk 0

/-- The settle of a retirement (R174): additions become BASE, deletions are freed, the list is released. -/
def Chip.settle (c : Chip) : Chip :=
  let v := c.oldV
  let xs := match c.rules.lists.find? (fun l => l.1 == v) with | some l => l.2 | none => []
  let c1 := xs.foldl (fun c x =>
    let base (e : REntry) : REntry := { e with base := true }
    if x.add then
      if x.tern then match smFind c.tern.entries x.place with
        | some e => { c with tern := { c.tern with entries := smPut c.tern.entries x.place (base e) } }
        | none => c
      else match smFind c.rules.entries x.place with
        | some e => { c with rules := { c.rules with entries := smPut c.rules.entries x.place (base e) } }
        | none => c
    else if x.tern then c.tFree x.place else c.freeEntry x.place) c
  ({ c1 with rules := { c1.rules with lists := c1.rules.lists.filter (fun l => l.1 != v) } }).syncRules

/-- Packets in flight in a version (R173). -/
def Chip.inFlight (c : Chip) (v : Nat) : Nat := (c.pkts.filter (fun e => e.2.inflight && e.2.ver == some v)).length

/-- A gang peer holds a version from retiring (R177). -/
def Chip.peerHolds (c : Chip) (v : Nat) : Bool :=
  c.gang.oldest.any (fun o => decide ((v + 2 ^ 16 - o.2) % 2 ^ 16 < 2 ^ 15))

/-- VERSION_RETIRE (R174). -/
def Chip.retire (c : Chip) : Chip :=
  let v := c.oldV
  if v = c.curV ∨ c.inFlight v ≠ 0 ∨ c.peerHolds v = true ∨ c.tern.wait.contains 2 = true then c
  else
    let c := (c.putF F.CLS_VERSION.OLDEST ((v + 1) % 2 ^ 16)).raise F.CLS_EVENTS.RETIRED
    if c.tBusy then { c.syncRules with tern := { c.tern with wait := c.tern.wait ++ [2] } } else c.settle

/-- FIX_EXECUTE (R172): at its time, or LATE once a STEP has passed it (R458). -/
def Chip.fixExecute (c : Chip) : Chip :=
  match c.rules.fixAt with
  | none => c
  | some t =>
    let passed := c.time.late.contains PendAct.fix
    if !passed && !c.due t then c
    else if !c.versionFree then { c with rules := { c.rules with fixHeld := true } }
    else if c.tBusy then
      (if c.tern.wait.contains 3 then c else { c with tern := { c.tern with wait := c.tern.wait ++ [3] } })
    else c.commitFix (if c.rules.fixLate || passed then stLate else stOk) c.rules.fixHeld false

/-- FIX_HOLD_TIMEOUT (R172): no place within CLS_FIX_HOLD µs of its time. -/
def Chip.fixHoldTimeout (c : Chip) : Chip :=
  match c.rules.fixAt with
  | none => c
  | some t =>
    if !c.versionFree && c.due ((t + c.getF F.CLS_FIX_HOLD.V * 1000 * 2 ^ 16) % 2 ^ 64) then
      ({ c with rules := { c.rules with fixHeld := true } }).fixWithdraw stTimeout
    else c

/-- What waited for a CLS_TCMD command takes effect (R188, R191). -/
def Chip.tWaited (c : Chip) (n : Nat) : Chip :=
  match n with
  | 0 => c.fixUntimed
  | 1 => c.abandonEffect
  | 2 => c.settle
  | 3 => c.fixExecute
  | 4 => c.fixEffect true
  | _ => c.raise F.CLS_TEVENTS.REBAL_DONE

/-- TERNARY_COMMAND_DONE (R191). (log entry 104 DEDUCED.) -/
def Chip.tCommandDone (c : Chip) : Chip :=
  if !c.tBusy then c
  else
    let ws := c.tern.wait
    let c := ({ c with tern := { c.tern with wait := [] } }).finish portTcmd stOk
    ws.foldl Chip.tWaited c

/-- FIX, at once or TIMED (R170, R171). -/
def Chip.fixCmd (c : Chip) (timed : Bool) : Chip := c.clsOrWait (if timed then 4 else 0) (·.fixEffect timed)

/-- CLS_CMD ABANDON (R167). -/
def Chip.latentAbandon (c : Chip) : Chip := c.clsOrWait 1 Chip.abandonEffect

/-- CANCEL_FIX (R167): INVALID with none scheduled. (log entry 28 DESIGN CHOICE.) -/
def Chip.cancelFix (c : Chip) : Chip := c.command portCls fun c =>
  if c.rules.fixAt.isNone then c.clsDone stInvalid 0
  else ({ c with
    rules := { c.rules with fixAt := none, fixLate := false, fixHeld := false }
    time := { c.time with late := c.time.late.filter (· != PendAct.fix) } }).clsDone stOk 0

/-! ### Meanings -/

/-- STAGE_ADD (R167). -/
def execStageAdd (region : Fin 32) (s : State) : Out := s.on (·.stageCmd 1 region.val)
/-- STAGE_DEL (R167). -/
def execStageDel (region : Fin 32) (s : State) : Out := s.on (·.stageCmd 2 region.val)
/-- STAGE_MOD (R167). -/
def execStageMod (region : Fin 32) (s : State) : Out := s.on (·.stageCmd 3 region.val)
/-- FIX (R170, R171). -/
def execFix (timed : Bool) (s : State) : Out := s.on (·.fixCmd timed)
/-- CLS_CMD ABANDON (R167). -/
def execLatentAbandon (s : State) : Out := s.on Chip.latentAbandon
/-- CANCEL_FIX (R167): INVALID with none scheduled. -/
def execCancelFix (s : State) : Out := s.on Chip.cancelFix
/-- LOOKUP (R167). -/
def execLookup (region : Fin 32) (s : State) : Out := s.on (·.lookupCmd region.val)
/-- FIX_EXECUTE (R172). -/
def execFixExecute (s : State) : Out := s.on Chip.fixExecute
/-- FIX_HOLD_TIMEOUT (R172). -/
def execFixHoldTimeout (s : State) : Out := s.on Chip.fixHoldTimeout
/-- VERSION_RETIRE (R174). -/
def execVersionRetire (s : State) : Out := s.on Chip.retire
/-- TSTAGE_ADD (R188, R190). -/
def execTstageAdd (profile : Fin 16) (s : State) : Out := s.on (·.tStageCmd 1 profile.val)
/-- TSTAGE_DEL (R188). -/
def execTstageDel (profile : Fin 16) (s : State) : Out := s.on (·.tStageCmd 2 profile.val)
/-- TSTAGE_MOD (R188). -/
def execTstageMod (profile : Fin 16) (s : State) : Out := s.on (·.tStageCmd 3 profile.val)
/-- TLOOKUP (R188). -/
def execTlookup (profile : Fin 16) (byKey : Bool) (s : State) : Out := s.on (·.tLookup profile.val byKey)
/-- REBALANCE (R192). -/
def execRebalance (profile : Fin 16) (s : State) : Out := s.on (·.rebalance profile.val)
/-- TERNARY_COMMAND_DONE (R191). -/
def execTernaryCommandDone (s : State) : Out := s.on Chip.tCommandDone
/-- TERNARY_SCRUB (R194): the entry at a position of a profile mismatches its shadow, which may be uncorrectable. -/
def execTernaryScrub (profile : Fin 16) (pos : Fin 262144) (uncorr : Bool) (s : State) : Out :=
  s.on (·.tScrub profile.val pos.val uncorr)
/-- TERNARY_BANK_GATE (R187, R563). -/
def execTernaryBankGate (bank : Fin 64) (s : State) : Out := s.on fun c =>
  let a := c.getF F.CLS_TBANK_AWAKE.V 0 0
  if bank.val < 32 then c.putF F.CLS_TBANK_AWAKE.V (setBitsOf bank.val bank.val a 0)
  else c.wr (F.CLS_TBANK_AWAKE.V.base + 4)
    (BitVec.ofNat 32 (setBitsOf (bank.val - 32) (bank.val - 32) (c.rd (F.CLS_TBANK_AWAKE.V.base + 4)).toNat 0))

end Sys2Proof.Machine
end

