-- ==== Sys2Proof/Machine/Classify.lean ====
section
/-! DEFINITION. Classification of a pass (R158 to R178), the verdict (R145 to R147), policing (R432), the flow key
(R208 to R212), and what follows a flow result (R26, R253, R279, R399). -/
namespace Sys2Proof.Machine
open Sys2Proof

/-! ### Lookups (R164, R165) -/

/-- Key of an exact-match lookup. -/
def Chip.emLookupKey (c : Chip) (r : Nat) (hv : Bytes) (vrf : Nat) : Bytes :=
  let x := c.rSource r
  let ks := (List.range 8).foldl (fun k i => k ++ sliceB hv (byteAt x (2 * i)) (byteAt x (2 * i + 1)))
    (if c.rVrf r then natBe 2 vrf else [])
  sliceB ks 0 (emKeyLen (c.rKind r))

/-- The first `n` bits of two 16-byte addresses agree. -/
def prefixEq (n : Nat) (a b : Bytes) : Bool := beAt a 0 16 / 2 ^ (128 - n) == beAt b 0 16 / 2 ^ (128 - n)

/-- ACT_IDX of the longest visible prefix of a region. -/
def Chip.lpmLookup (c : Chip) (r v vrf : Nat) (p : Pkt) : Option Nat :=
  let x := c.rSource r
  let kd := bitOf 0 (byteAt x 0)
  let area := sliceB p.hv (if kd then 136 else 96) 40
  let af := byteAt x 1
  let addr := sliceB area (if bitOf 1 (byteAt x 0) then 16 else 0) 16
  let m4 := bitOf 1 (byteAt area 37)
  if !(if kd then p.kdValid else p.k0Valid) || (af == 4) != m4 then none
  else
    let hits := (c.regionEntries r).filter (fun e => c.visible e.2 v && byteAt e.2.body 6 == af && beAt e.2.body 4 2 == vrf
      && (if af = 4 then prefixEq (96 + byteAt e.2.body 3) (zerosB 12 ++ sliceB addr 12 4) (sliceB e.2.body 8 16)
          else prefixEq (byteAt e.2.body 3) addr (sliceB e.2.body 8 16)))
    (hits.foldl (fun (best : Option Bytes) e => match best with
      | none => some e.2.body
      | some b => if byteAt b 3 < byteAt e.2.body 3 then some e.2.body else best) none).map
      (fun b => beAt b 0 3 % 2 ^ 22)

/-- A lookup in a region: ACT_IDX of a hit. -/
def Chip.regionLookup (c : Chip) (r v vrf : Nat) (p : Pkt) : Option Nat :=
  match c.rKind r with
  | 3 => c.lpmLookup r v vrf p
  | 6 =>
    let q := byteAt (c.rSource r) 0
    (c.tsearch q (c.tSearchKey q p.hv) v).map (fun e => tAct e.2.body)
  | k =>
    let key := c.emLookupKey r p.hv vrf
    let bs := c.emBuckets r key
    (bucketPlaces bs.1 ++ bucketPlaces bs.2).findSome? (fun pl => match c.entryAt r pl with
      | some e => if c.visible e v && emKey k e.body == key then some (beAt e.body 0 3 % 2 ^ 22) else none
      | none => none)

/-- The action of an ACT_IDX visible in a version. -/
def Chip.actionAt (c : Chip) (a v : Nat) : Option Bytes :=
  if a = actNone then none
  else match c.entryAt (a / 2 ^ 17) (a % 2 ^ 17) with
    | some e => if c.visible e v then some e.body else none
    | none => none

/-- An ACTION body applied to a result (R162, R165, R629). -/
def ClsRes.apply (x : ClsRes) (b : Bytes) : ClsRes :=
  let s := actSet b
  let out := beAt b 4 4
  let x := if s 0 then { x with verdict := severest x.verdict (byteAt b 2 % 4) } else x
  let x := if s 1 then { x with cls := byteAt b 3 % 16 } else x
  let x := if s 2 then { x with outKind := bitsOf 31 30 out, outDev := bitsOf 29 28 out, out := bitsOf 15 0 out } else x
  let x := if s 3 then { x with tmpl := if bitOf 7 (byteAt b 8) then some (byteAt b 8 % 64) else none } else x
  let x := if s 4 then { x with lbg := beAt b 9 2 } else x
  let x := if s 5 then { x with meter := beAt b 11 2 } else x
  let x := if s 6 then { x with mirror := byteAt b 13 } else x
  let x := if s 7 then { x with flags := byteAt b 14 } else x
  let x := if s 8 then { x with vrf := beAt b 15 2 } else x
  let x := if s 9 then { x with edit := byteAt b 18, tci := beAt b 19 2 } else x
  if s 10 then { x with encap := beAt b 21 3 % 2 ^ 22 } else x

/-- A region holds lookups: EM20, EM52, LPM or TERNARY. -/
def Chip.looksUp (c : Chip) (r : Nat) : Bool := decide (r < 32) && [1, 2, 3, 6].contains (c.rKind r)

/-- The chain of lookups of a pass from a region; `n`: lookups it may still perform. -/
def Chip.chain (c : Chip) (p : Pkt) (v : Nat) : Nat → Nat → ClsRes → Chip × ClsRes
  | 0, _, x => (c.bump F.CLS_CNT_CHAIN.V, x)
  | n + 1, r, x =>
    if !c.looksUp r then (c.bump F.CLS_CNT_CHAIN.V, x)
    else
      let hit := c.regionLookup r v x.vrf p
      let c := c.signal 3 r 1
      let c := if hit.isSome then c.signal 3 r 2 else c
      let first := c.actionAt (hit.getD (c.rMiss r)) v
      let c := if first.isNone then c.bump F.CLS_CNT_ACT_MISSING.V else c
      let c := if hit.isNone || first.isNone then c.signal 3 r 3 else c
      match (match first with | some b => some b | none => c.actionAt (c.rMiss r) v) with
      | none => (c, { x with verdict := 1 })
      | some b => if byteAt b 17 = 0xFF then (c, x.apply b) else c.chain p v n (byteAt b 17) (x.apply b)

/-- The region a pass starts at (R165); 32: none. -/
def Chip.startRegion (c : Chip) (p : Pkt) : Nat :=
  let own := ((List.range 32).find? (fun r => c.rStart r p.port && c.rKind r != 0)).getD 32
  if p.pass = 0 then own
  else match p.res.tmpl with
    | some t => if tpRegion (c.tpl t) = 0xFF then own else tpRegion (c.tpl t)
    | none => own

/-! ### Verdict (R145, R432) -/

/-- Actions of a packet's anomaly flags as (flag, action). -/
def Chip.anomActions (c : Chip) (p : Pkt) (tm : Option Nat) : List (Nat × Nat) :=
  let s := p.slice
  let code (x : Nat) : Nat := if x = 3 then 1 else x
  let own : List Nat := [c.getF F.PAR_CTRL.DEPTH_ACT s, c.getF F.PAR_CTRL.LEN_ACT s, c.getF F.PAR_CTRL.TRUNC_ACT s, c.getF F.PAR_CTRL.BAD_ACT s]
  ((List.range 4).filter (fun i => bitOf i p.anom)).map (fun i => (i, code (match tm with
    | some t => if i = 0 then tpDepthAct (c.tpl t) else tpAnomAct (c.tpl t)
    | none => own.getD i 0)))

/-- Flagged packets are counted once per flag and captured (R145, R154). -/
def Chip.countAnom (c : Chip) (p : Pkt) : Chip :=
  let s := p.slice
  if p.anom % 16 = 0 then c
  else
    let c := if bitOf 0 p.anom then c.bump F.PAR_CNT_DEPTH.V s else c
    let c := if bitOf 1 p.anom then c.bump F.PAR_CNT_LEN.V s else c
    let c := if bitOf 2 p.anom then c.bump F.PAR_CNT_TRUNC.V s else c
    let c := if bitOf 3 p.anom then c.bump F.PAR_CNT_BAD.V s else c
    let c := (c.putF F.PAR_LAST_ANOM.ANOM p.anom s).putF F.PAR_LAST_ANOM.PORT p.port s
    let c := c.putF F.PAR_LAST_ANOM1.EXIT (byteAt p.hv 10) s
    let c := (c.putF F.PAR_LAST_ANOM1.STEPS (byteAt p.hv 9) s).putF F.PAR_LAST_ANOM1.PC p.lastPc s
    (c.raise F.PAR_EVENTS.ANOMALY s).signal 2 p.pipe 2

/-- Policer `m` colours a frame of a length (R432, R433); its colour's action. -/
def Chip.police (c : Chip) (m len : Nat) : Nat × Chip :=
  if m = 0xFFFF then (0, c)
  else match meterStep (smGet (fun _ => zerosB 48) c.sched.policers m) len c.mt32 with
    | (x, col) =>
      let cnt := smGet (fun _ => zerosB 48) c.sched.policerCnt m
      let up (b : Bytes) (o k : Nat) : Bytes := putBe b o 8 ((beAt b o 8 + k) % 2 ^ 48)
      let cnt := up (up cnt (8 * col) 1) (24 + 8 * col) len
      let acts := byteAt x 16
      (if col = 1 then bitsOf 1 0 acts else if col = 2 then bitsOf 3 2 acts else 0,
       { c with sched := { c.sched with
          policers := smSet (fun _ => zerosB 48) c.sched.policers m x
          policerCnt := smSet (fun _ => zerosB 48) c.sched.policerCnt m cnt } })

/-! ### The key and its op (R208 to R212, R236) -/

/-- Zone id of a packet under a template (R210). -/
def Chip.zoneId (c : Chip) (p : Pkt) (t : Bytes) (vrf : Nat) : Nat :=
  let s := match tpZoneSel t with
    | 0 => 0
    | 1 => vrf
    | 2 => beAt p.hv (tpZoneOfs t) 3 % 2 ^ 23
    | _ => c.portZone p.port
  Nat.xor s (tpZoneConst t) % 2 ^ 23

/-- The packet with its canonical key and hashes; none where the key area is not valid (R147). -/
def Chip.keyed (c : Chip) (p : Pkt) (t : Bytes) (vrf : Nat) : Option Pkt :=
  if !(if tpKeyKd t then p.kdValid else p.k0Valid) then none
  else
    let k := canonArea (sliceB p.hv (if tpKeyKd t then 136 else 96) 40) (c.zoneId p t vrf)
    some { p with flowKey := some k.1, h1 := c.h1Of k.1, h2 := c.h2Of k.1, dir := k.2 }

/-- The PKT op of a packet (R236). -/
def Chip.flowOp (c : Chip) (pid : Nat) (p : Pkt) : FOp :=
  let tcp := c.l4Type p == 1 && (c.l4Ofs p).isSome
  let tos (o : Nat) : Nat := if c.l3Type p = 1 then byteAt p.frame (o + 1) % 4 else bitsOf 5 4 (byteAt p.frame (o + 1))
  { kind := 0, src := pid, tag := 0, key := p.flowKey.getD [], h1 := p.h1, h2 := p.h2, orient := p.dir
    tmpl := p.res.tmpl.getD 0, port := p.port, iseq := p.iseq, pass := p.pass, ver := p.ver.getD 0, flen := p.flen
    tcpf := match c.l4Ofs p with | some o => if tcp then byteAt p.frame (o + 13) else 0 | none => 0
    tcp := tcp, ce := match c.l3Ofs p with | some o => (c.l3Type p == 1 || c.l3Type p == 2) && tos o == 3 | none => false
    cls := p.res.cls, tail := p.tail, pend := (c.pendFree p.slice).getD 0, since := c.mt, mode := 0, mask := 0, data := [] }

/-- The IP length bound of R123 at the key level, where the header vector holds one. -/
def Chip.ipBound (c : Chip) (p : Pkt) : Option Nat :=
  match c.l3Ofs p with
  | none => none
  | some o =>
    if c.l3Type p = 1 then some (max 64 (o + beAt p.frame (o + 2) 2 + 4))
    else if c.l3Type p = 2 then some (max 64 (o + 40 + beAt p.frame (o + 4) 2 + 4))
    else none

/-! ### After classification and the flow result -/

/-- A packet whose outcome is forward goes on: to a further pass, to its match report, or to admission. -/
def Chip.goOn (c : Chip) (pid : Nat) : Chip :=
  match c.pkt pid with
  | none => c
  | some p =>
    if p.inspect = 1 then c.setPkt pid { p with stage := .report }
    else if p.recirc then
      (if 3 ≤ p.pass then c.dropTm pid 0xB
       else
         let c := c.setPkt pid { p with stage := .recircWait }
         if p.pass = 0 then c.stampStrip pid 8 else c)
    else c.setPkt pid { p with stage := .ready }

/-- A packet takes its template's miss fallback without an op (R146, R147). -/
def Chip.noOpFallback (c : Chip) (pid : Nat) (t : Bytes) : Chip :=
  match actVerdict (tpMissFb t) with
  | 1 => c.dropVerdict pid
  | 2 => c.punt pid 3
  | _ => c.goOn pid

/-- A flow result or fallback reaches its packet (R26, R253, R259, R269, R279). (log entry 99 DEDUCED.) -/
def Chip.deliver (c : Chip) (pid : Nat) (r0 : Bytes) (dev : Nat) : Chip :=
  match c.pkt pid with
  | none => c
  | some p =>
    if p.stage ≠ .flowWait ∧ p.stage ≠ .pending then c
    else
      let t := c.tpl (frTemplate r0)
      let e := p.h1 % 128
      let g := frTarget r0 / 2 ^ 16
      let m := frTarget r0 % 2 ^ 16
      let grp := smGet (fun _ => (0, false)) c.flow.lbGroup g
      let down := smGet (fun _ => 0) c.flow.lbDown m == 2
      let lb := decide (frStatus r0 < 3) && frLbValid r0
      let lbMiss := lb && (!grp.2 || (down && grp.1 == 3))
      let lbAct := if lb && down && (grp.1 == 1 || grp.1 == 2) then grp.1 else 0
      let r := if lbMiss then natBe 1 (4 + 8 * frOrient r0) ++ natBe 1 (actVerdict (tpMissFb t) + 12) ++ zerosB 1
          ++ natBe 1 (frTemplate r0) ++ zerosB 28 else r0
      let c := if lbMiss then (c.bump F.FLE_TPL_MISS_FB.V e (frTemplate r0)).signal 4 e 12 else c
      let c := (c.unpark pid).stampStrip pid 7
      let c := c.updPkt pid fun (p : Pkt) =>
        { p with flow := some r, flowDev := dev, recirc := p.recirc || frRecirc r, stage := Stage.flowWait }
      if frStatus r = 6 then c.dropOther pid 0
      else if frStatus r < 3 ∧ frHairpin r ∧ tpRegion t = 0xFF then (c.bumpQ 48 F.FLE_CNT_HAIRPIN.V e).dropVerdict pid
      else match severest (frVerdict r) lbAct with
        | 1 => c.dropVerdict pid
        | 2 => c.punt pid (if frVerdict r = 2 then (if 3 ≤ frStatus r then 3 else 4) else 7)
        | _ => c.goOn pid

/-! ### The pass (R165, R166, R145, R195) -/

/-- A DATA frame's carried classification (R530). -/
def gangRes (h : Bytes) : ClsRes :=
  { ClsRes.init with
    cls := byteAt h 26 % 16
    outKind := if bitOf 0 (byteAt h 1) then 1 else 0
    out := if bitOf 0 (byteAt h 1) then beAt h 24 2 else beAt h 24 2 % 512 }

/-- The lookups of a pass: version `v`. -/
def Chip.lookups (c : Chip) (p : Pkt) (v : Nat) : Chip × ClsRes :=
  if p.src = 5 then (c, gangRes p.gangHdr)
  else match c.chain p v 8 (c.startRegion p) ClsRes.init with
    | (c, x) =>
      let x := match x.tmpl with
        | some t => if tpPresent (c.tpl t) then x else { x with tmpl := none }
        | none => x
      if x.outKind = 3 then (c.bump F.CLS_CNT_NO_ROUTE.V, { x with verdict := 1 }) else (c, x)

/-- The group a class maps to. -/
def Chip.classGroup (c : Chip) (cls : Nat) : Nat := byteAt (c.getBytes F.CLS_PAT_CLASS_MAP.V.base 16) cls

/-- Selection for inspection (R195). -/
def Chip.selectScan (c : Chip) (x : ClsRes) : Nat × Chip :=
  if !bitOf 1 x.flags then (0, c)
  else if c.classGroup x.cls < c.getF F.CLS_PAT_INFO.GROUP_COUNT then (1, c) else (0, c.bump F.CLS_PAT_CNT_NOSCAN.V)

/-- The pass of a packet whose stamp is `v`. -/
def Chip.classifyAs (c : Chip) (pid : Nat) (p : Pkt) (v : Nat) : Chip :=
  let p : Pkt := { p with ver := some v, inflight := true, flow := none, flowKey := none, flowDev := 0, opSent := false }
  match (c.setPkt pid p).lookups p v with
  | (c, x) =>
    let acts := c.anomActions p x.tmpl
    let anom := acts.foldl (fun a e => severest a e.2) 0
    let c := c.countAnom p
    match (if p.pass = 0 && p.src != 5 then c.police x.meter p.flen else (0, c)) with
    | (pol, c) =>
      let p : Pkt := { p with res := x, decap := decapOf p.hv, recirc := bitOf 0 x.flags }
      let p : Pkt := { p with bound := c.ipBound p }
      let c := (c.setPkt pid p).stampStrip pid 3
      match severest (severest x.verdict anom) pol with
      | 1 => c.dropVerdict pid
      | 2 => c.punt pid (if x.verdict = 2 then 1 else if anom = 2 then 2 else 5)
      | _ =>
        match c.selectScan x with
        | (ins, c) =>
          let g := c.classGroup x.cls
          let c := c.updPkt pid fun (p : Pkt) => { p with inspect := ins, grp := g }
          match x.tmpl with
          | none => c.goOn pid
          | some t =>
            if p.lenConflict then (if tpNeedsResult (c.tpl t) then c.noOpFallback pid (c.tpl t) else c.goOn pid)
            else match c.keyed p (c.tpl t) x.vrf with
              | none => (c.bump F.PAR_CNT_NOKEY.V p.slice).noOpFallback pid (c.tpl t)
              | some q => c.updPkt pid fun (p : Pkt) =>
                  { p with flowKey := q.flowKey, h1 := q.h1, h2 := q.h2, dir := q.dir, stage := Stage.flowWait }

/-- A gang packet of a version that is not live here (R177). -/
def Chip.versionUnknown (c : Chip) (pid : Nat) : Chip :=
  ((c.bump F.CLS_CNT_VERSION_UNKNOWN.V).raise F.CLS_EVENTS.VERSION_UNKNOWN).dropOther pid 0

/-- CLASSIFY_PASS. `ecc`: rule memory read without error, with a corrected one, or with an uncorrectable one (R178). -/
def Chip.classify (c : Chip) (pid ecc : Nat) : Chip :=
  match c.pkt pid with
  | none => c
  | some p =>
    if p.stage ≠ .classify then c
    else if ecc = 2 then
      (((c.setPkt pid { p with ver := some (p.ver.getD c.curV) }).bump F.CLS_CNT_UNCORR.V).raise F.CLS_EVENTS.UNCORR).dropOther pid 0
    else
      let c := if ecc = 1 then c.raise F.CLS_EVENTS.CORR else c
      match p.src, p.ver with
      | 5, some v =>
        if c.liveV v then c.classifyAs pid p v
        else if v = c.nextV ∧ c.rules.fixAt.isSome then
          (let c := c.commitFix stOk false true
           if c.liveV v then c.classifyAs pid p v else c.versionUnknown pid)
        else c.versionUnknown pid
      | _, some v => c.classifyAs pid p v
      | _, none => c.classifyAs pid p c.curV

/-! ### Payload inspection (R197 to R200) -/

/-- A group's entry of the pattern set. -/
def Chip.groupRow (c : Chip) (g : Nat) : Bytes := sliceB c.pattern.set (64 + 32 * g) 32

/-- A report has joined its packet: the verdict it brings takes effect (R199). (log entry 99 DEDUCED.) -/
def Chip.reported (c : Chip) (pid act : Nat) (rep : Bytes) : Chip :=
  match c.pkt pid with
  | none => c
  | some p =>
    let waiting := p.stage == .report
    let c := c.setPkt pid { p with inspect := 2, report := rep }
    match act with
    | 1 => c.dropVerdict pid
    | 2 => c.punt pid 6
    | _ => if waiting then c.goOn pid else c

/-- A packet takes its group's OVERLOAD action (R197, R200). `err`: ERROR in the report. -/
def Chip.overload (c : Chip) (pid : Nat) (err : Bool) : Chip :=
  match c.pkt pid with
  | none => c
  | some p =>
    let g := p.grp
    let c := if err then (c.bump F.CLS_PAT_CNT_UNCORR.V).raise F.CLS_PAT_EVENTS.STORE_UNCORR
      else (c.bump F.CLS_PAT_CNT_OVERLOAD.V).raise F.CLS_PAT_EVENTS.OVERLOAD
    let act := byteAt (c.groupRow g) 1
    c.reported pid act (natBe 1 (if err then 8 else 32) ++ natBe 1 g ++ zerosB 18)

/-- The lowest idle engine. -/
def Chip.idleScan (c : Chip) : Option Nat := (List.range 32).find? (fun e => (smFind c.pattern.engines e).isNone)

/-- An engine takes a packet. -/
def Chip.scanTake (c : Chip) (pid e : Nat) : Chip :=
  { c with pattern := { c.pattern with
      engines := smPut c.pattern.engines e pid
      gated := c.pattern.gated.filter (· != e)
      queue := c.pattern.queue.filter (fun x => x.1 != pid) } }

/-- PATTERN_SCAN_START: a selected packet is ready for inspection. -/
def Chip.scanStart (c : Chip) (pid : Nat) : Chip :=
  match c.pkt pid with
  | none => c
  | some p =>
    if p.inspect ≠ 1 ∨ p.tail ≠ 1 ∨ c.pattern.engines.any (fun e => e.2 == pid) then c
    else
      let queued := c.pattern.queue.any (fun x => x.1 == pid)
      if !c.flag F.CLS_PAT_CTRL.ENABLE || c.tripped then c.overload pid false
      else match c.idleScan with
        | some e =>
          (match c.pattern.queue with
           | (oldest, _) :: _ =>
             if oldest = pid then c.scanTake pid e
             else if queued then c
             else if 65536 ≤ c.pattern.queue.length then c.overload pid false
             else { c with pattern := { c.pattern with queue := c.pattern.queue ++ [(pid, c.mt)] } }
           | [] => c.scanTake pid e)
        | none =>
          if queued then c
          else if c.getF F.CLS_PAT_WAIT.V = 0 ∨ 65536 ≤ c.pattern.queue.length then c.overload pid false
          else { c with pattern := { c.pattern with queue := c.pattern.queue ++ [(pid, c.mt)] } }

/-- The start offset of a scan; none: the chosen offset is not valid (R196). -/
def Chip.scanFrom (c : Chip) (p : Pkt) (g : Nat) : Option Nat :=
  match byteAt (c.groupRow g) 0 with
  | 0 => some 0
  | 1 => c.l3Ofs p
  | 2 => c.l4Ofs p
  | _ => c.payOfs p

/-- ACTION of a pattern as a verdict: 0 report only, 1 trap, 2 drop. -/
def Chip.patAct (c : Chip) (id : Nat) : Nat :=
  let b := byteAt c.pattern.set (64 + 32 * c.getF F.CLS_PAT_INFO.GROUP_COUNT + 4 * id + 1)
  if b = 1 then 2 else if b = 2 then 1 else 0

/-- Matches in the order of R198: by END, then by pattern. -/
def matchOrder (ms : List (Nat × Nat)) : List (Nat × Nat) := ms.mergeSort (fun a b => a.2 < b.2 || (a.2 == b.2 && decide (a.1 ≤ b.1)))

/-- PATTERN_REPORT: the engine's scan of a packet completes with its matches (pattern, END); `err`: it read a line with an
uncorrectable error, at store line `line`. -/
def Chip.scanReport (c : Chip) (eng : Nat) (ms : List (Nat × Nat)) (err : Bool) (line : Nat) : Chip :=
  match smFind c.pattern.engines eng with
  | none => c
  | some pid => match c.pkt pid with
    | none => { c with pattern := { c.pattern with engines := smErase c.pattern.engines eng } }
    | some p =>
      let g := p.grp
      let c := { c with pattern := { c.pattern with engines := smErase c.pattern.engines eng } }
      if err then
        ({ c with pattern := { c.pattern with reload := smPut c.pattern.reload line c.mt } }).overload pid true
      else match c.scanFrom p g with
        | none => (c.bump F.CLS_PAT_CNT_NOSCAN.V).reported pid 0 (natBe 1 16 ++ natBe 1 g ++ zerosB 18)
        | some _ =>
          let c := c.bump F.CLS_PAT_CNT_SCANNED.V
          let c := if ms.isEmpty then c else c.bump F.CLS_PAT_CNT_MATCHED.V
          let c := if 4 < ms.length then c.bump F.CLS_PAT_CNT_MORE.V else c
          let first := (matchOrder ms).take 4
          let act := ms.foldl (fun a m => severest a (c.patAct m.1)) 0
          c.reported pid act (sliceB (natBe 1 (first.length + 128 * b2n (decide (4 < ms.length))) ++ natBe 1 g ++ zerosB 2
            ++ first.flatMap (fun m => natBe 4 (m.1 * 2 ^ 16 + m.2 % 2 ^ 14))) 0 20)

/-- PATTERN_WAIT_TIMEOUT. -/
def Chip.scanTimeout (c : Chip) (pid : Nat) : Chip :=
  if c.pattern.queue.any (fun x => x.1 == pid) then
    ({ c with pattern := { c.pattern with queue := c.pattern.queue.filter (fun x => x.1 != pid) } }).overload pid false
  else c

end Sys2Proof.Machine
end

