-- ==== Sys2Proof/Machine/Rx.lean ====
section
/-! DEFINITION. What the receive MAC counts of a frame (R402, R468 to R470) and the fields of a frame's head. -/
namespace Sys2Proof.Machine
open Sys2Proof

/-- The priority r of a received frame (R402). -/
def Chip.rxPrio (c : Chip) (p : Nat) (fr : Bytes) : Nat :=
  if beAt fr 12 2 = 0x8100 ∨ beAt fr 12 2 = 0x88A8 then byteAt fr 14 / 32 else c.getF F.TMG_PORT_PFC.DEF_PRI p

/-- The RX_SIZE slot of a frame length (R469). -/
def rxSizeSlot (n : Nat) : Nat :=
  if n ≤ 64 then 16 else if n ≤ 127 then 17 else if n ≤ 255 then 18 else if n ≤ 511 then 19 else if n ≤ 1023 then 20
  else if n ≤ 1518 then 21 else if n ≤ 2047 then 22 else if n ≤ 4095 then 23 else if n ≤ 9216 then 24 else 25

/-- RX_SIZE of a frame that is no runt. -/
def Chip.rxSize (c : Chip) (p n : Nat) : Chip := if n < 64 then c else c.stat p (rxSizeSlot n)

/-- A frame the MAC passes on has passed its tail check: slots 0 to 4, its size and its priority. `n`: frame length. -/
def Chip.rxGood (c : Chip) (p n : Nat) (fr : Bytes) : Chip :=
  let c := ((c.rxSize p n).stat p 0).stat p 1 n
  let c := c.stat p (if sliceB fr 0 6 == natBe 6 (2 ^ 48 - 1) then 4 else if bitOf 0 (byteAt fr 0) then 3 else 2)
  (c.stat p (26 + c.rxPrio p fr)).signal 1 p 1

end Sys2Proof.Machine
end

