-- ==== Sys2Proof/Machine/Wake.lean ====
section
/-! DEFINITION. Wake requests of gated flow-engine banks and parked slices (R33, R34, R563 to R565). -/
namespace Sys2Proof.Machine
open Sys2Proof

/-- The bank of an engine is clock-gated. -/
def Chip.bankGated (c : Chip) (e : Nat) : Bool := bitOf (e / 8) (c.getF F.MGT_PARK_STATUS.GATED)

/-- A number is added to a list that lacks it. -/
def addOnce (l : List Nat) (x : Nat) : List Nat := if l.contains x then l else l ++ [x]

/-- A wake of an engine's bank is requested; an awake bank needs none. -/
def Chip.wakeBank (c : Chip) (e : Nat) : Chip :=
  if c.bankGated e then { c with mgt := { c.mgt with bankWake := addOnce c.mgt.bankWake (e / 8) } } else c

/-- The slice is parked. -/
def Chip.parked (c : Chip) (s : Nat) : Bool := bitOf s (c.getF F.MGT_PARK_STATUS.PARKED)

/-- A wake of a slice is requested; an active slice needs none. -/
def Chip.wakeSlice (c : Chip) (s : Nat) : Chip :=
  if c.parked s then { c with mgt := { c.mgt with parkWait := addOnce c.mgt.parkWait s } } else c

end Sys2Proof.Machine
end

