-- ==== Sys2Proof/Machine/Gang.lean ====
section
/-! DEFINITION. The gang (R515 to R543): links, the owner map and its changes, remote ops, replication, time following and
items. -/
namespace Sys2Proof.Machine
open Sys2Proof

/-- The chip with gang state changed. -/
def Chip.onGang (c : Chip) (f : GangSt → GangSt) : Chip := { c with gang := f c.gang }

/-! ### Received gang frames (R518, R519) -/

/-- The header of a gang frame. -/
def gfHdr (fr : Bytes) : Bytes := sliceB fr 14 32
/-- The body of a gang frame. -/
def gfBody (fr : Bytes) : Bytes := fr.drop 46
/-- The device a gang frame comes from. -/
def gfSrc (fr : Bytes) : Nat := byteAt fr 16 % 4

/-- LSEQ of a received frame: a gap is counted for its peer. -/
def Chip.seqCheck (c : Chip) (p : Nat) (fr : Bytes) : Chip :=
  let s := beAt fr 18 4
  let last := smGet (fun _ => 0) c.gang.rxSeq p
  let c := if last ≠ 0 ∧ last % 2 ^ 32 ≠ s then c.bump F.GNG_PEER_CNT_SEQ_GAP.V (gfSrc fr) else c
  c.onGang fun g => { g with rxSeq := smSet (fun _ => 0) g.rxSeq p (s + 1) }

/-- A good frame of EtherType 0x88B5 arrives on a gang port: it is counted, and none says that it is discarded. A port out of
service takes HELLO frames only. (log entry 84 DEDUCED.) -/
def Chip.gangTake (c : Chip) (p type : Nat) (hello : Bool) (fr : Bytes) : Bool × Chip :=
  if !c.gangPort p || !c.portUp p then (false, c)
  else
    let c := c.rxGood p (max 64 (fr.length + 4)) fr
    if byteAt fr 14 / 16 ≠ 1 then (false, c)
    else
      let c := c.seqCheck p fr
      (beAt fr 12 2 == 0x88B5 && byteAt fr 14 % 16 == type && byteAt fr 16 / 4 % 4 == c.getF F.GNG_STATUS.DEVICE
        && (hello || (smFind c.gang.inService p).isSome), c)

/-- A CTRL frame of a SUB code and its bytes 8 to 79. (log entry 84 DEDUCED.) -/
def Chip.ctrlTake (c : Chip) (p sub : Nat) (fr : Bytes) (k : Nat → Bytes → Chip → Chip) : Chip :=
  match c.gangTake p 6 (sub == 1) fr with
  | (false, c) => c
  | (true, c) => if byteAt fr 46 = sub then k (gfSrc fr) (sliceB fr 54 72) c else c

/-! ### Maps (R521 to R523) -/

/-- The owner map as a list. -/
def Chip.mapList (c : Chip) : List Nat := (List.range 256).map c.mapOf

/-- A map as the 64 bytes of a frame, laid out as the GNG_MAP registers. (log entry 80 DEDUCED.) -/
def mapBytes (m : List Nat) : Bytes :=
  (List.range 64).map (fun b => BitVec.ofNat 8 (m.getD (4 * b) 0 + 4 * m.getD (4 * b + 1) 0 + 16 * m.getD (4 * b + 2) 0
    + 64 * m.getD (4 * b + 3) 0))

/-- A map read from 64 bytes. -/
def bytesMap (bs : Bytes) : List Nat := (List.range 256).map (fun s => bitsOf 1 0 (byteAt bs (s / 4) / 2 ^ (2 * (s % 4))))

/-- A map takes effect in GNG_MAP. -/
def Chip.setMap (c : Chip) (m : List Nat) : Chip := c.putWords (F.GNG_MAP.V.addr 0) (mapBytes m)

/-- Slots a device owns. -/
def slotCount (m : List Nat) (d : Nat) : Nat := (m.filter (· == d)).length

/-- The device, other than `d`, with the most slots; on a tie the highest number. -/
def topGiver (m : List Nat) (d : Nat) : Nat :=
  ((List.range 4).filter (· != d)).foldl (fun b x => if slotCount m b ≤ slotCount m x then x else b) (if d = 0 then 1 else 0)

/-- The highest slot of a device. -/
def topSlot (m : List Nat) (g : Nat) : Nat := ((List.range 256).reverse.find? (fun s => m.getD s 4 == g)).getD 0

/-- join of R522. -/
def joinMap (m : List Nat) (d n : Nat) : List Nat :=
  (List.range (256 / n)).foldl (fun m _ => if slotCount m d < 256 / n then m.set (topSlot m (topGiver m d)) d else m) m

/-- The map after `d` leaves (R523). -/
def leaveMap (m : List Nat) (d partner : Nat) (rest : List Nat) : List Nat :=
  ((List.range 256).filter (fun s => m.getD s 4 == d)).foldl (fun m s =>
    let heir := if rest.contains partner then partner
      else rest.foldl (fun b x => if slotCount m x < slotCount m b then x else b) (rest.headD 0)
    m.set s heir) m

/-- The members a map names. -/
def mapMembers (m : List Nat) : List Nat := (List.range 4).filter m.contains

/-- Slots the own device owns now; none outside a gang. -/
def Chip.ownSlots (c : Chip) : List Nat :=
  if c.gangMember then (List.range 256).filter (fun s => c.mapOf s == c.getF F.GNG_STATUS.DEVICE) else []

/-- A slot bit mask of 32 bytes. (log entry 80 DEDUCED.) -/
def slotMask (l : List Nat) : Bytes :=
  (List.range 32).map (fun b => BitVec.ofNat 8 (((List.range 8).filter (fun k => l.contains (8 * b + k))).foldl (fun a k => a + 2 ^ k) 0))

/-- The slots of a mask. -/
def maskSlots (bs : Bytes) : List Nat := (List.range 256).filter (fun s => bitOf (s % 8) (byteAt bs (s / 8)))

/-! ### GANG items (R536) -/

/-- An item joins the queue of the gang block. -/
def Chip.gangItem (c : Chip) (ev dev : Nat) (slots : List Nat) : Chip :=
  if c.getF F.GNG_ITEM_CLASS.V = 0xFF then c
  else if 16 ≤ c.gang.items.length then c.bump F.GNG_CNT_ITEM_LOST.V
  else
    let it := natBe 1 0x60 ++ natBe 1 ev ++ natBe 4 (c.getF F.GNG_EPOCH.V) ++ natBe 1 dev ++ zerosB 25 ++ slotMask slots
    c.onGang fun g => { g with items := g.items ++ [it] }

/-- GANG_ITEM_OFFER: the head item is offered. -/
def Chip.gangItemOffer (c : Chip) : Chip :=
  match c.gang.items with
  | [] => c
  | it :: r => match c.offer (c.getF F.GNG_ITEM_CLASS.V) it none with
    | (.accepted, c) => c.onGang fun g => { g with items := r }
    | (_, c) => c

/-! ### Records over a link (R525, R532, R533) -/

/-- Valid tags of the flow table: engine, bucket and slot, by address. -/
def Chip.allTags (c : Chip) : List (Nat × Nat × Nat) :=
  if !c.flowPresent then []
  else (c.dram.filter (fun x => decide (c.tagBase ≤ x.1) && decide (x.1 < c.recBase) && x.1 % 8 == 5 && bitOf 7 x.2.toNat)).map (fun x =>
    let k := (x.1 - c.tagBase) / 8
    (k / 8 % 128, k / 8 / 128, k % 8))

/-- A REPL frame leaves for a device (R520). -/
def Chip.replOut (c : Chip) (dev : Nat) (r : Bytes) (del migrate : Bool) : Chip :=
  let h1 := c.h1Of (rKey r)
  match c.slotPort dev h1 with
  | none => c
  | some p =>
    let body := natBe 1 (if del then 2 else 1) ++ natBe 1 (b2n migrate) ++ zerosB 6 ++ natBe 4 h1 ++ natBe 4 (c.h2Of (rKey r))
      ++ sliceB (if del then rKey r else r) 0 128
    (c.gangOut p dev 5 body).bump F.GNG_PEER_CNT_REPL.V dev

/-- The device that receives a slot being given. -/
def Chip.receiver (c : Chip) (s : Nat) : Nat :=
  match c.gang.change with
  | some x => x.map.getD s 0
  | none => c.mapOf s

/-- Replication and migration of what engines have committed (R525, R532). -/
def Chip.drainRepl (c : Chip) : Chip :=
  let rs := c.flow.repl
  let ms := c.flow.migr
  let c := c.onFlow fun x => { x with repl := [], migr := [] }
  let c := ms.foldl (fun c (x : Bytes × Bool) => c.replOut (c.receiver (hSlot (c.h1Of (rKey x.1)))) x.1 x.2 true) c
  if c.flag F.GNG_CTRL.REPL_EN && c.gangMember && c.peers.contains c.gang.partner then
    rs.foldl (fun c (x : Bytes × Bool) => c.replOut c.gang.partner x.1 x.2 false) c
  else c

/-- REPL_REFRESH_SCAN: every replicated record the device owns goes to its partner (R532). (log entry 82 DEDUCED.) -/
def Chip.replScan (c : Chip) : Chip :=
  if c.flag F.GNG_CTRL.REPL_EN && c.gangMember && c.peers.contains c.gang.partner then
    c.allTags.foldl (fun c (t : Nat × Nat × Nat) =>
      let r := c.committed t.1 t.2.1 t.2.2
      if tpReplicate (c.tpl (rTemplate r)) && !rReplica r then c.replOut c.gang.partner r false false else c) c
  else c

/-- REPL_OP (R533). -/
def Chip.replRx (c : Chip) (p : Nat) (fr : Bytes) : Chip :=
  match c.gangTake p 5 false fr with
  | (false, c) => c
  | (true, c) =>
    let b := gfBody fr
    let h1 := beAt b 8 4
    let o : FOp :=
      { kind := 8, src := gfSrc fr, tag := 0, key := sliceB b 16 40, h1 := h1, h2 := beAt b 12 4, orient := 0, tmpl := 0, port := 0
        iseq := 0, pass := 0, ver := 0, flen := 0, tcpf := 0, tcp := false, ce := false, cls := 0, tail := 1, pend := 0
        since := c.mt, mode := if byteAt b 0 = 2 then 3 else 2, mask := 0, data := sliceB b 16 128 }
    c.replOp (hEngine h1) o

/-! ### Membership changes (R524, R525) -/

/-- The device is the coordinator. -/
def Chip.coordinator (c : Chip) : Bool := c.gangMember && c.getF F.GNG_STATUS.COORD == c.getF F.GNG_STATUS.DEVICE

/-- The members, ascending. (log entry 81 DEDUCED.) -/
def Chip.members (c : Chip) : List Nat := (List.range 4).filter (fun d => bitOf d (c.getF F.GNG_STATUS.MEMBERS))

/-- The devices a change concerns besides the own: members and a joining device, without one lost. -/
def Chip.changePeers (c : Chip) (x : GChange) : List Nat :=
  (List.range 4).filter (fun d => d != c.getF F.GNG_STATUS.DEVICE && ((c.members.contains d && !(x.loss && d == x.dev)) || (x.join && d == x.dev)))

/-- COMMIT goes out once the coordinator has every READY: T is 20 µs ahead. -/
def Chip.tryCommitMap (c : Chip) : Chip :=
  match c.gang.change with
  | none => c
  | some x =>
    if !c.coordinator || x.at_.isSome || !x.ready.isEmpty then c
    else
      let t := (c.dtw + 20000 * 2 ^ 16) % 2 ^ 64
      let c := (c.changePeers x).foldl (fun c d => c.ctrlTo d 4 (natBe 8 t)) c
      c.onGang fun g => { g with change := some { x with at_ := some t } }

/-- A giver's READY (R525 step 3). -/
def Chip.readyFrom (c : Chip) (d : Nat) : Chip :=
  (c.onGang fun g => { g with change := g.change.map (fun (x : GChange) => { x with ready := x.ready.filter (· != d) }) }).tryCommitMap

/-- A giver marks its slots, scans its regions and says READY (R525 step 2). (log entry 82 DEDUCED.) -/
def Chip.migrate (c : Chip) (x : GChange) : Chip :=
  let give := c.ownSlots.filter (fun s => x.map.getD s 0 != c.getF F.GNG_STATUS.DEVICE)
  if x.loss || give.isEmpty then c
  else
    let c := c.onGang fun g => { g with migrating := give }
    let c := c.allTags.foldl (fun c (t : Nat × Nat × Nat) =>
      let r := c.committed t.1 t.2.1 t.2.2
      let s := hSlot (c.h1Of (rKey r))
      if give.contains s then c.replOut (x.map.getD s 0) r false true else c) c
    if c.coordinator then c.readyFrom (c.getF F.GNG_STATUS.DEVICE) else c.ctrlTo (c.getF F.GNG_STATUS.COORD) 6 []

/-- A change begins on this device. -/
def Chip.beginChange (c : Chip) (x : GChange) : Chip :=
  let c := c.onGang fun g => { g with change := some x }
  (if c.gangMember then c.putF F.GNG_STATUS.STATE 2 else c).migrate x

/-- The coordinator runs a change: PREP to every device concerned (R525 step 1). -/
def Chip.runChange (c : Chip) (join loss : Bool) (d : Nat) (m : List Nat) : Chip :=
  let old := c.mapList
  let givers := if loss then [] else
    c.members.filter (fun g => (List.range 256).any (fun s => old.getD s 4 == g && m.getD s 4 != g))
  let x : GChange := ⟨join, d, loss, (c.getF F.GNG_EPOCH.V + 1) % 2 ^ 32, m, none, givers⟩
  let body := natBe 1 (d + 128 * b2n join) ++ natBe 1 (b2n loss) ++ zerosB 6 ++ mapBytes m
  let c := (c.changePeers x).foldl (fun c e => c.gangOut ((c.linkPorts e).headD 0) e 6
    (natBe 1 3 ++ zerosB 3 ++ natBe 4 x.epoch ++ sliceB body 0 72)) c
  (c.beginChange x).tryCommitMap

/-- A change or its CLEAN phase is in progress. -/
def Chip.changing (c : Chip) : Bool := c.gang.change.isSome || !c.gang.cleanWait.isEmpty

/-- The PARTNER of a device: the own one, or the one its last HELLO named. -/
def Chip.partnerOf (c : Chip) (d : Nat) : Nat :=
  if d = c.getF F.GNG_STATUS.DEVICE then c.gang.partner
  else match smFind c.gang.hellos d with
    | some h => byteAt h 7
    | none => 255

/-- The coordinator runs the leave of `d`. -/
def Chip.runLeave (c : Chip) (loss : Bool) (d : Nat) : Chip :=
  c.runChange false loss d (leaveMap c.mapList d (c.partnerOf d) (c.members.filter (· != d)))

/-- The coordinator takes the next lost device once no change is in progress. (log entry 81 DEDUCED.) -/
def Chip.nextLoss (c : Chip) : Chip :=
  match c.gang.lossQ with
  | [] => c
  | d :: r =>
    if !c.coordinator || c.changing then c
    else
      let c := c.onGang fun g => { g with lossQ := r }
      if c.members.contains d then c.runLeave true d else c

/-- A leave with LOSS for `d`: a change in progress waits no longer for it. -/
def Chip.lossOf (c : Chip) (d : Nat) : Chip :=
  if !c.members.contains d || c.gang.lossQ.contains d then c
  else
    let c := c.onGang fun g => { g with lossQ := g.lossQ ++ [d], cleanWait := g.cleanWait.filter (· != d) }
    (c.readyFrom d).nextLoss

/-- A LEAVE frame received; after the coordinator's, the lowest remaining member with links to every other takes over
(R524). -/
def Chip.leaveRx (c : Chip) (d : Nat) : Chip :=
  let rest := c.members.filter (· != d)
  let own := c.getF F.GNG_STATUS.DEVICE
  if c.coordinator then c.lossOf d
  else if c.gangMember && c.getF F.GNG_STATUS.COORD == d && rest.headD 4 == own
      && rest.all (fun e => e == own || !(c.linkPorts e).isEmpty) then
    ((c.putF F.GNG_STATUS.COORD own).onGang fun g => { g with change := none }).lossOf d
  else c

/-- PEER_LOSS: members `a` and `b` have had no in-service port between them for GNG_LOSS.MS (R524). -/
def Chip.peerLoss (c : Chip) (a b : Nat) : Chip :=
  let own := c.getF F.GNG_STATUS.DEVICE
  let lo := min a b
  let hi := max a b
  if !c.gangMember || lo == hi || !c.members.contains lo || !c.members.contains hi then c
  else if (own = lo ∧ !(c.linkPorts hi).isEmpty) ∨ (own = hi ∧ !(c.linkPorts lo).isEmpty) then c
  else if own = hi then
    let c := (c.putF F.GNG_STATUS.STATE 3).raise F.GNG_EVENTS.ISOLATED
    c.onGang fun g => { g with change := none, cleanWait := [], lossQ := [], migrating := [], finalDue := [], given := [], awaitFinal := [] }
  else if c.coordinator then c.lossOf hi
  else c

/-- CTRL_PREP received (R525). -/
def Chip.prepRx (c : Chip) (p : Nat) (fr : Bytes) : Chip :=
  c.ctrlTake p 3 fr fun d b c =>
    if c.isolated then c
    else
      let x : GChange := ⟨bitOf 7 (byteAt b 0), byteAt b 0 % 4, bitOf 0 (byteAt b 1), beAt fr 50 4, bytesMap (sliceB b 8 64), none, []⟩
      if c.gangMember then
        (if d = c.getF F.GNG_STATUS.COORD ∨ x.loss then (c.putF F.GNG_STATUS.COORD d).beginChange x else c)
      else if x.join ∧ x.dev = c.getF F.GNG_STATUS.DEVICE then (c.putF F.GNG_STATUS.COORD d).beginChange x
      else c

/-- CTRL_COMMIT received: the new map takes effect at T. -/
def Chip.commitRx (c : Chip) (p : Nat) (fr : Bytes) : Chip :=
  c.ctrlTake p 4 fr fun _ b c =>
    c.onGang fun g => { g with change := g.change.map (fun (x : GChange) => { x with at_ := some (beAt b 0 8) }) }

/-- Replicas of slots are promoted: REPLICA is cleared in record and tag (R525, R534). (log entry 82 DEDUCED.) -/
def Chip.promote (c : Chip) (slots : List Nat) : Chip :=
  c.allTags.foldl (fun c (t : Nat × Nat × Nat) =>
    let r := c.slotRec t.1 t.2.1 t.2.2
    if rReplica r && slots.contains (hSlot (c.h1Of (rKey r))) then
      c.storeRec t.1 t.2.1 t.2.2 (putB r 43 [BitVec.ofNat 8 (setBitsOf 2 2 (byteAt r 43) 0)])
    else c) c

/-- A giver's CLEAN (R525 step 7). -/
def Chip.cleanFrom (c : Chip) (d : Nat) : Chip :=
  (c.onGang fun g => { g with cleanWait := g.cleanWait.filter (· != d) }).nextLoss

/-- The copies of given slots are deleted and CLEAN is sent (R525 step 7). -/
def Chip.cleanUp (c : Chip) : Chip :=
  let gone := c.gang.given
  let c := c.allTags.foldl (fun c (t : Nat × Nat × Nat) =>
    let r := c.committed t.1 t.2.1 t.2.2
    if gone.contains (hSlot (c.h1Of (rKey r))) then
      (match c.wayOfSlot t.1 t.2.1 t.2.2 with
       | some i => c.emptyWay t.1 i
       | none => c).clearTag t.1 t.2.1 t.2.2
    else c) c
  let c := c.onGang fun g => { g with given := [] }
  if c.coordinator then c.cleanFrom (c.getF F.GNG_STATUS.DEVICE) else c.ctrlTo (c.getF F.GNG_STATUS.COORD) 7 []

/-- A slot has a held write (R242). -/
def Chip.slotHeld (c : Chip) (s : Nat) : Bool :=
  c.flow.eng.any (fun e => e.2.helds.any (fun h => hSlot h.op.h1 == s))

/-- SLOT_FINAL for every given slot on which no held write remains; after the last, the copies go (R525 steps 5 and 7). -/
def Chip.finalCheck (c : Chip) : Chip :=
  let done := c.gang.finalDue.filter (fun s => !c.slotHeld s)
  if done.isEmpty then c
  else
    let c := ((List.range 4).filter (fun d => d != c.getF F.GNG_STATUS.DEVICE && done.any (fun s => c.mapOf s == d))).foldl (fun c d =>
      c.ctrlTo d 5 (zerosB 8 ++ slotMask (done.filter (fun s => c.mapOf s == d)))) c
    let c := c.onGang fun g => { g with
      finalDue := g.finalDue.filter (fun s => !done.contains s)
      migrating := g.migrating.filter (fun s => !done.contains s) }
    if c.gang.finalDue.isEmpty then c.cleanUp else c

/-- SLOT_FINAL received (R525 step 6). -/
def Chip.finalRx (c : Chip) (p : Nat) (fr : Bytes) : Chip :=
  c.ctrlTake p 5 fr fun _ b c =>
    let l := maskSlots (sliceB b 8 32)
    (c.onGang fun g => { g with awaitFinal := g.awaitFinal.filter (fun s => !l.contains s) }).promote l

/-- The JOIN or LEAVE command that the change completes. -/
def Chip.gangCmdDone (c : Chip) (member : Bool) : Chip :=
  if (c.gang.cmd = 2 ∧ member) ∨ (c.gang.cmd = 3 ∧ !member) then
    (c.onGang fun g => { g with cmd := 0 }).finish portGng stOk
  else c

/-- The items a committed change offers (R536). -/
def Chip.changeItems (c : Chip) (x : GChange) (got gave : List Nat) : Chip :=
  let own := c.getF F.GNG_STATUS.DEVICE
  let c := if got.isEmpty then c else c.gangItem 1 x.dev got
  let c := if gave.isEmpty then c else c.gangItem 2 x.dev gave
  if x.loss then c.gangItem 3 x.dev [] else if x.join ∧ x.dev ≠ own then c.gangItem 4 x.dev [] else c

/-- The new map is in force (R525 steps 4 to 6). -/
def Chip.applyMap (c : Chip) (x : GChange) : Chip :=
  let own := c.getF F.GNG_STATUS.DEVICE
  let was := c.ownSlots
  let old := c.mapList
  let oldMembers := c.members
  let ms := mapMembers x.map
  let isIn := ms.contains own
  let got := if isIn then (List.range 256).filter (fun s => x.map.getD s 4 == own && !was.contains s) else []
  let gave := was.filter (fun s => x.map.getD s 4 != own)
  let c := (c.setMap x.map).putF F.GNG_EPOCH.V x.epoch
  let c := c.putF F.GNG_STATUS.STATE (b2n isIn)
  let c := c.putF F.GNG_STATUS.MEMBERS (if isIn then ms.foldl (fun a d => a + 2 ^ d) 0 else 0)
  let c := c.putF F.GNG_STATUS.COORD (ms.headD 0)
  let givers := oldMembers.filter (fun g => (List.range 256).any (fun s => old.getD s 4 == g && x.map.getD s 4 != g))
  let c := c.onGang fun g => { g with
    change := none
    cleanWait := if !x.loss && isIn && ms.headD 4 == own then givers else []
    finalDue := if x.loss then [] else gave
    given := if x.loss then [] else gave
    awaitFinal := if x.loss then [] else got }
  let c := if x.loss then c.promote got else c
  let c := c.raise F.GNG_EVENTS.COMMIT
  let c := if x.loss then c.raise F.GNG_EVENTS.PEER_LOST else c
  (((c.changeItems x got gave).gangCmdDone isIn).finalCheck).nextLoss

/-- MAP_COMMIT: T has come. -/
def Chip.mapCommit (c : Chip) : Chip :=
  match c.gang.change with
  | none => c
  | some x => match x.at_ with
    | none => c
    | some t => if c.due t then c.applyMap x else c

/-! ### Commands (R524, R540, R542) -/

/-- FORM. (log entry 81 DEDUCED.) -/
def Chip.form (c : Chip) : Chip := c.command portGng fun c =>
  if c.gangMember then c.finish portGng stInvalid
  else
    let own := c.getF F.GNG_STATUS.DEVICE
    let c := (c.setMap (List.replicate 256 own)).putF F.GNG_EPOCH.V 1
    let c := ((c.putF F.GNG_STATUS.STATE 1).putF F.GNG_STATUS.COORD own).putF F.GNG_STATUS.MEMBERS (2 ^ own)
    ((c.raise F.GNG_EVENTS.COMMIT).gangItem 1 own (List.range 256)).finish portGng stOk

/-- The coordinator that a HELLO names: of a gang that has members. -/
def Chip.heardCoord (c : Chip) : Option (Nat × Nat) :=
  (c.gang.hellos.find? (fun e => byteAt e.2 4 == 1 || byteAt e.2 4 == 2)).map (fun e => (byteAt e.2 6 % 4, byteAt e.2 4))

/-- JOIN (R524). (log entry 81 DEDUCED.) -/
def Chip.join (c : Chip) : Chip := c.command portGng fun c =>
  if c.gangMember || c.isolated then c.finish portGng stInvalid
  else match c.heardCoord with
    | some (_, 2) => c.finish portGng stBusy
    | h =>
      let c := (c.putF F.GNG_CMD_STATUS.RUNNING 1).onGang fun g => { g with cmd := 2 }
      match h with
      | some (d, _) => c.ctrlTo d 12 []
      | none => c

/-- JOIN_TIMEOUT: no response within 1 s. -/
def Chip.joinTimeout (c : Chip) : Chip :=
  if c.gang.cmd = 2 ∧ c.gang.change.isNone then (c.onGang fun g => { g with cmd := 0 }).finish portGng stTimeout else c

/-- LEAVE (R524): the coordinator runs its own; another member's awaits the coordinator's PREP.
(log entry 81 DEDUCED.) -/
def Chip.leaveGang (c : Chip) : Chip := c.command portGng fun c =>
  if !c.gangMember then c.finish portGng stInvalid
  else if c.changing then c.finish portGng stBusy
  else
    let own := c.getF F.GNG_STATUS.DEVICE
    if c.members.filter (· != own) = [] then
      ((c.putF F.GNG_STATUS.STATE 0).putF F.GNG_STATUS.MEMBERS 0).finish portGng stOk
    else
      let c := (c.putF F.GNG_CMD_STATUS.RUNNING 1).onGang fun g => { g with cmd := 3 }
      if c.coordinator then c.runLeave false own else c

/-- JOIN_REQ: the coordinator runs a join once the device links to every member; `linked`: to the members other than this. -/
def Chip.joinReq (c : Chip) (p : Nat) (fr : Bytes) (linked : Bool) : Chip :=
  c.ctrlTake p 12 fr fun d _ c =>
    if !c.coordinator || c.changing || c.members.contains d || (c.linkPorts d).isEmpty || !linked then c
    else c.runChange true false d (joinMap c.mapList d (c.members.length + 1))

/-- The Safelight policy lets a device reset run from the host or the gang (R513, R575). -/
def Chip.resetAllowed (c : Chip) : Bool := bitOf 0 (c.pol 0x236 2)

/-- A device reset is scheduled under R457 (R540): the status of its scheduling. -/
def Chip.schedReset (c : Chip) (t : Nat) : Nat × Chip :=
  let set (st : Nat) (late : Bool) : Nat × Chip := (st, c.onGang fun g => { g with resetAt := some t, resetLate := late })
  if !c.resetAllowed then (stDenied, c.raise F.HST_ERR_CAUSE.RESET_DENIED)
  else match c.timeClass t with
    | .past => (stPast, c)
    | .far => (stFar, c)
    | .late => set stLate true
    | _ => set stOk false

/-- RESET_ALL. (log entry 75 DEDUCED.) -/
def Chip.resetAll (c : Chip) : Chip := c.command portGng fun c =>
  if !c.coordinator then c.finish portGng stInvalid
  else
    let t := c.getQ F.GNG_CMD_TIME.V
    let c := c.peers.foldl (fun c d => c.ctrlTo d 13 (natBe 8 t)) c
    match c.schedReset t with
    | (st, c) => c.finish portGng st

/-- A write of GNG_CMD: FORM, JOIN, LEAVE, RESET_ALL; other opcodes are INVALID (R542). -/
def Chip.gangCmd (c : Chip) (op : Nat) : Chip :=
  match op with
  | 1 => c.form
  | 2 => c.join
  | 3 => c.leaveGang
  | 4 => c.resetAll
  | _ => c.command portGng fun c => c.finish portGng stInvalid

/-- RESET_AT received: the reset is scheduled, or refused and captured (R540, R580). (log entry 75 DEDUCED.) -/
def Chip.resetAtRx (c : Chip) (p : Nat) (fr : Bytes) : Chip :=
  c.ctrlTake p 13 fr fun _ b c => match c.schedReset (beAt b 0 8) with
    | (st, c) => if st = stDenied then c.deniedCapture 8 0 0 else c

/-- LEAVE frames to every peer, before a device reset (R524). (log entry 81 DEDUCED.) -/
def Chip.leaveOut (c : Chip) : Chip := if c.gangMember then c.peers.foldl (fun c d => c.ctrlTo d 10 []) c else c

/-! ### Time (R539) -/

/-- TSYNC_TIMER: a follower asks the coordinator. -/
def Chip.tsyncTimer (c : Chip) : Chip :=
  if c.follower then c.ctrlTo (c.getF F.GNG_STATUS.COORD) 8 (natBe 8 c.dtw) else c

/-- TSYNC_REQ: the coordinator answers with its ingress and egress stamps. -/
def Chip.tsyncReq (c : Chip) (p : Nat) (fr : Bytes) : Chip :=
  c.ctrlTake p 8 fr fun d b c =>
    if c.coordinator then
      c.ctrlTo d 9 (sliceB b 0 8 ++ natBe 8 c.dtw ++ natBe 8 c.dtw ++ natBe 1 (b2n c.timeValid))
    else c

/-- A follower slews by θ over 781,250 ticks and scales TIM_INCR. -/
def Chip.gangSlew (c : Chip) (th : Int) (prev : Option Int) : Chip :=
  let a := th * 2 ^ 24
  let s : Slew := ⟨Int.tdiv a 781250, Int.tmod a 781250, 0, 781250⟩
  let unit : Int := 10 ^ 6 * 2 ^ 16
  let incr := match prev with
    | some p => clampTo 1405967508669 1408782258437 (((c.time.incr : Int) * (unit + th - p)) / unit).toNat
    | none => c.time.incr
  let c := { c with time := { c.time with slew := some s, incrNext := some incr } }
  (c.putQ F.TIM_INCR.V incr).putF F.TIM_STATUS.SLEWING 1

/-- TSYNC_RESP: θ is computed and the follower sets, steps or slews its time. (log entry 83 DEDUCED.) -/
def Chip.tsyncResp (c : Chip) (p : Nat) (fr : Bytes) : Chip :=
  c.ctrlTake p 9 fr fun d b c =>
    if !c.follower || c.getF F.GNG_STATUS.COORD != d then c
    else
      let sub (x y : Nat) : Int := signedOf 64 (x + (2 ^ 64 - y % 2 ^ 64))
      let th := (sub (beAt b 8 8) (beAt b 0 8) - sub c.dtw (beAt b 16 8)) / 2 - signedOf 32 (c.getF F.GNG_PEER_ASYM.V d)
      let prev := c.gang.thetas.head?
      let c := c.putQ F.GNG_PEER_THETA.V (patternOf 64 th) d
      let c := c.onGang fun g => { g with thetas := (th :: g.thetas).take 8 }
      let locked := c.gang.thetas.length == 8 && c.gang.thetas.all (fun x => decide (x.natAbs < 8 * 2 ^ 16))
      let c := c.putF F.GNG_STATUS.TIME_LOCKED (b2n locked)
      if !c.timeValid then
        (if bitOf 0 (byteAt b 24) then { c with time := { c.time with setNext := some (patternOf 96 ((c.dt : Int) + th)) } } else c)
      else if c.getF F.GNG_TIME_STEP.V * 2 ^ 16 ≤ th.natAbs then { c with time := { c.time with stepNext := some th } }
      else c.gangSlew th prev

/-! ### Links (R515 to R517, R529) -/

/-- CFG_CHECK (R516). -/
def Chip.cfgCheck (c : Chip) : Nat :=
  crc32c 0xFFFFFFFF (natLe 4 (c.getF F.PLT_SEED1.V) ++ natLe 4 (c.getF F.PLT_SEED2.V) ++ natLe 1 c.slotsLog2
    ++ natBe 2 c.gang.gangId ++ zerosB 1)

/-- The partner's device number on a gang port, from the last CAP of its first lane (R515). -/
def Chip.capDevice (c : Chip) (p : Nat) : Nat := bitsOf 17 16 (c.getF F.LNA_SC_PARTNER.V (portLane0 p) 2)

/-- HELLO_TIMER: an UP gang port sends a HELLO (R516). (log entry 79 DESIGN CHOICE.) -/
def Chip.helloOut (c : Chip) (p : Nat) : Chip :=
  if !c.gangPort p || !c.portUp p then c
  else c.ctrlOut p (c.capDevice p) 1 (natBe 4 c.cfgCheck ++ natBe 1 (c.getF F.GNG_STATUS.STATE) ++ natBe 1 (c.getF F.GNG_STATUS.MEMBERS)
    ++ natBe 1 (c.getF F.GNG_STATUS.COORD) ++ natBe 1 c.gang.partner ++ mapBytes c.mapList)

/-- L of a link set takes new contents; GNG_PEER_STATUS shows them. -/
def Chip.setL (c : Chip) (d : Nat) (l : List Nat) : Chip :=
  let c := c.onGang fun g => { g with lists := smSet (fun _ => []) g.lists d l }
  (c.putF F.GNG_PEER_STATUS.PORTS l.length d).putF F.GNG_PEER_STATUS.L0 (l.headD 0) d

/-- No frame is queued under the old L and no remote op sent under it is outstanding (R517). -/
def Chip.oldLDone (c : Chip) (d : Nat) : Bool :=
  (c.linkPorts d).isEmpty ||
    (!c.gang.rops.any (fun r => r.dev == d)
      && !c.pkts.any (fun e => e.2.copies.any (fun k => k.kind == 3 && k.dev == d && (c.linkPorts d).contains k.port)))

/-- The in-service ports that join a device, ascending. -/
def Chip.servicePorts (c : Chip) (d : Nat) : List Nat := (c.gang.inService.filter (fun e => e.2 == d)).map Prod.fst

/-- LINK_SET_JOIN: the ports in service become L. -/
def Chip.linkJoin (c : Chip) (d : Nat) : Chip := if c.oldLDone d then c.setL d (c.servicePorts d) else c

/-- A port enters service. -/
def Chip.enterService (c : Chip) (p d : Nat) : Chip :=
  if smFind c.gang.inService p = some d then c
  else
    let c := c.onGang fun g => { g with inService := smPut g.inService p d }
    ((c.putF F.GNG_PEER_STATUS.LINK_STATE 1 d).raise F.GNG_EVENTS.LINK).linkJoin d

/-- An unbind notice all of whose copies have arrived acts (R535). -/
def Chip.unbindReady (c : Chip) : Chip :=
  let l := c.gang.unbindRx.filter (fun (u : UnbindRx) => u.left == 0)
  let c := c.onGang fun g => { g with unbindRx := g.unbindRx.filter (fun (u : UnbindRx) => u.left != 0) }
  l.foldl (fun c (u : UnbindRx) => c.unbind u.dev u.handle) c

/-- CTRL_UNBIND received. -/
def Chip.unbindRxOne (c : Chip) (p : Nat) (fr : Bytes) : Chip :=
  c.ctrlTake p 11 fr fun d b c =>
    let h := beAt b 0 4 % 2 ^ 18
    let dev := byteAt b 4 % 4
    let hit (u : UnbindRx) : Bool := u.src == d && u.dev == dev && u.handle == h
    let c := if c.gang.unbindRx.any hit then
        c.onGang fun g => { g with unbindRx := g.unbindRx.map (fun (u : UnbindRx) => if hit u then { u with left := u.left - 1 } else u) }
      else c.onGang fun g => { g with unbindRx := g.unbindRx ++ [⟨d, dev, h, byteAt b 5 - 1⟩] }
    c.unbindReady

/-- An unbind notice of the own engines: to the own traffic manager and to every member (R406, R535). -/
def Chip.unbindOut (c : Chip) (h : Nat) : Chip :=
  let c := c.unbind c.ownDevice h
  if !c.gangMember then c
  else c.peers.foldl (fun c d => c.ctrlAll d 11
    (natBe 4 h ++ natBe 1 c.ownDevice ++ natBe 1 (c.linkPorts d).length)) c

/-! ### Remote prepared entries (R538) -/

/-- A peer's prepared entry is removed: a create is discarded, a delete applied, the record of an update deleted. -/
def Chip.removePrep (c : Chip) (e : Nat) (p : FPrep) : Chip :=
  let c := c.bump F.GNG_PEER_CNT_DISCARD.V (p.op.src - 1024)
  match p.op.mode with
  | 1 =>
    let w := c.way e p.way
    let c := c.onEng e fun s => { s with preps := s.preps.filter (fun x => x != p) }
    ((c.clearTag e p.bucket p.slot).emptyWay e p.way).recGone w.record 1
  | 3 => c.applyPrep e p
  | _ => c.dropPrep e p

/-- RREC_PREP_EXPIRY of one entry of a device. -/
def Chip.prepExpiry (c : Chip) (e d tag : Nat) : Chip :=
  match (c.eng e).prepOf (1024 + d) tag with
  | some p => c.removePrep e p
  | none => c

/-- Every prepared entry of a device is removed. -/
def Chip.removePreps (c : Chip) (d : Nat) : Chip :=
  (smKeys c.flow.eng).foldl (fun c e =>
    ((c.eng e).preps.filter (fun p => p.op.src == 1024 + d)).foldl (fun c p => c.removePrep e p) c) c

/-! ### Remote flow operations (R526 to R529) -/

/-- The header of an ROP names the requester's port, sequence, version and class. (log entry 80 DEDUCED.) -/
def Chip.ropHeader (c : Chip) (port dev : Nat) (o : FOp) : Bytes :=
  putBe (putBe (putBe (putBe (c.gangHeader port dev 2) 16 2 o.ver) 18 2 o.port) 20 4 o.iseq) 26 1 (o.cls + 16 * o.pass)

/-- The body of an ROP (R520). -/
def ropBody (o : FOp) (rtag : Nat) : Bytes :=
  sliceB o.key 0 40 ++ natBe 4 o.h1 ++ natBe 4 o.h2 ++ natBe 1 o.tmpl
    ++ natBe 1 (o.orient + 2 * b2n (decide (o.tail ≠ 0)) + 4 * b2n o.ce) ++ natBe 1 o.tcpf ++ zerosB 1 ++ natBe 2 o.flen ++ zerosB 2
    ++ natBe 4 rtag ++ zerosB 4

/-- An ROP leaves for a device. -/
def Chip.ropOut (c : Chip) (port dev : Nat) (o : FOp) (rtag : Nat) : Chip :=
  let fr := padFrame (c.gangFrame dev (c.ropHeader port dev o) (ropBody o rtag))
  let c := (c.nextSeq port).txStats port (fr.length + 4) fr
  ((c.setPort port { c.portSt port with lastOut := withFcs fr }).bump F.GNG_PEER_CNT_ROP.V dev).signal 12 dev 1

/-- A packet takes its template's MISS_FB without an engine. -/
def Chip.missFb (c : Chip) (pid : Nat) (o : FOp) : Chip :=
  c.deliver pid (plainResult o 4 (actVerdict (tpMissFb (c.tpl o.tmpl)))) c.ownDevice

/-- The remote op of a packet is over. -/
def Chip.ropGone (c : Chip) (r : Rop) : Chip := c.onGang fun g => { g with rops := g.rops.filter (fun (x : Rop) => x != r) }

/-- A packet's op goes to the peer that owns its slot; the packet is parked (R526). -/
def Chip.ropStart (c : Chip) (pid dev : Nat) (o : FOp) : Chip :=
  match c.slotPort dev o.h1 with
  | none => c.missFb pid o
  | some port => match c.park pid with
    | none => c.missFb pid o
    | some c =>
      let tag := match c.pkt pid with | some p => p.pendTag.getD 0 | none => 0
      let gen := (smGet (fun _ => 0) c.gang.gen tag + 1) % 2 ^ 14
      let rtag := gen * 2 ^ 18 + tag
      let o : FOp := { o with pend := tag }
      let c := c.onGang fun g => { g with
        gen := smSet (fun _ => 0) g.gen tag gen
        rops := g.rops ++ [⟨pid, rtag, dev, o, 1⟩]
        tails := if o.tail = 0 then g.tails ++ [(pid, rtag, dev, o.h1)] else g.tails }
      (c.stampStrip pid 6).ropOut port dev o rtag

/-- An op that met NOT_OWNER goes to the owner the map now names (R528). -/
def Chip.ropAgain (c : Chip) (r : Rop) : Chip :=
  let c := c.ropGone r
  if 3 ≤ r.tries then c.missFb r.pid r.op
  else match c.ownerOf r.op.h1 with
    | none => c.missFb r.pid r.op
    | some d =>
      let c := c.bump F.GNG_PEER_CNT_NOT_OWNER.V r.dev
      if d = c.ownDevice then
        let c := c.onGang fun g => { g with tails := g.tails.filter (fun (t : Nat × Nat × Nat × Nat) => t.2.1 != r.rtag) }
        let tail := match c.pkt r.pid with | some p => p.tail | none => r.op.tail
        (c.onEng (hEngine r.op.h1) fun s => { s with input := s.input ++ [{ r.op with tail := tail }] }).wakeBank (hEngine r.op.h1)
      else match c.slotPort d r.op.h1 with
        | none => c.missFb r.pid r.op
        | some port =>
          let c := c.onGang fun g => { g with
            rops := g.rops ++ [{ r with dev := d, tries := r.tries + 1 }]
            tails := g.tails.map (fun (t : Nat × Nat × Nat × Nat) => if t.2.1 = r.rtag then (t.1, t.2.1, d, t.2.2.2) else t) }
          c.ropOut port d r.op r.rtag

/-- RRES received (R527, R528). -/
def Chip.rresRx (c : Chip) (p : Nat) (fr : Bytes) : Chip :=
  match c.gangTake p 3 false fr with
  | (false, c) => c
  | (true, c) =>
    let b := gfBody fr
    match c.gang.rops.find? (fun (r : Rop) => r.rtag == beAt b 0 4 && r.dev == gfSrc fr) with
    | none => c.bump F.GNG_PEER_CNT_LATE.V (gfSrc fr)
    | some r =>
      let res := sliceB b 8 32
      if frStatus res = 7 then c.ropAgain r
      else ((c.signal 12 r.dev 2).ropGone r).deliver r.pid res r.dev

/-- ROP_TIMEOUT: the oldest remote op of a packet has waited GNG_ROP_WAIT (R527). -/
def Chip.ropTimeout (c : Chip) (pid : Nat) : Chip :=
  match c.gang.rops.find? (fun (r : Rop) => r.pid == pid) with
  | none => c
  | some r => (((c.ropGone r).bump F.GNG_PEER_CNT_TIMEOUT.V r.dev).signal 12 r.dev 3).missFb pid r.op

/-- The tail status of a frame whose remote op was sent with TAIL = 0 goes to the owner (R527). -/
def Chip.tailOut (c : Chip) (pid : Nat) (good : Bool) : Chip :=
  let l := c.gang.tails.filter (fun (t : Nat × Nat × Nat × Nat) => t.1 == pid)
  let c := c.onGang fun g => { g with tails := g.tails.filter (fun (t : Nat × Nat × Nat × Nat) => t.1 != pid) }
  l.foldl (fun c (t : Nat × Nat × Nat × Nat) => match c.slotPort t.2.2.1 t.2.2.2 with
    | some port => c.gangOut port t.2.2.1 4 (natBe 4 t.2.1 ++ natBe 1 (if good then 1 else 2) ++ zerosB 3)
    | none => c) c

/-- The tail status of a peer's op reaches the engine that holds it. -/
def Chip.tailAll (c : Chip) (dev rtag : Nat) (good : Bool) : Chip :=
  (smKeys c.flow.eng).foldl (fun c e => c.tailStatus e 1 dev rtag good) c

/-- TAIL received (R527). -/
def Chip.tailRx (c : Chip) (p : Nat) (fr : Bytes) : Chip :=
  match c.gangTake p 4 false fr with
  | (false, c) => c
  | (true, c) => c.tailAll (gfSrc fr) (beAt (gfBody fr) 0 4) (byteAt (gfBody fr) 4 == 1)

/-- An op of a peer as the engine takes it (R258, R520). -/
def Chip.ropOp (c : Chip) (fr : Bytes) : FOp :=
  let b := gfBody fr
  let h := gfHdr fr
  { kind := 1, src := gfSrc fr, tag := beAt b 56 4, key := sliceB b 0 40, h1 := beAt b 40 4, h2 := beAt b 44 4
    orient := byteAt b 49 % 2, tmpl := byteAt b 48 % 64, port := beAt h 18 2 % 512, iseq := beAt h 20 4
    pass := byteAt h 26 / 16 % 4, ver := beAt h 16 2, flen := beAt b 52 2, tcpf := byteAt b 50
    tcp := byteAt b 36 == 6 && !bitOf 7 (byteAt b 37), ce := bitOf 2 (byteAt b 49), cls := byteAt h 26 % 16
    tail := b2n (bitOf 1 (byteAt b 49)), pend := beAt b 56 4 % 2 ^ 18, since := c.mt, mode := 0, mask := 0, data := [] }

/-- An op for a slot the map does not give to this device. (log entry 72 DEDUCED.) -/
def Chip.notOwned (c : Chip) (h1 : Nat) : Bool := !c.gangMember || c.mapOf (hSlot h1) != c.getF F.GNG_STATUS.DEVICE

/-- An RRES leaves (R520). -/
def Chip.rresOut (c : Chip) (o : FOp) (r : Bytes) : Chip :=
  match c.slotPort o.src o.h1 with
  | some port => c.gangOut port o.src 3 (natBe 4 o.tag ++ zerosB 4 ++ sliceB r 0 32)
  | none => c

/-! ### RREC (R537) -/

/-- An ANSWER leaves for the peer that asked. -/
def Chip.rrecAnswer (c : Chip) (a : FAnswer) : Chip :=
  let dev := a.op.src - 1024
  let st := if a.code = 0 then 0 else if a.code = 9 then 3 else if a.code = 8 then 4
    else if a.op.kind = 2 ∧ a.code = 3 then 2 else 1
  match c.slotPort dev a.op.h1 with
  | none => c
  | some port => c.gangOut port dev 7
      (rrecBody 7 st (if st = 1 then a.code else 0) 0 a.op.tag a.op.h1 a.op.h2 (if a.op.kind = 2 ∧ a.code = 0 then a.data else []))

/-- An ANSWER received: it reaches the request of its context, entry and generation, or is late. -/
def Chip.answerRx (c : Chip) (d : Nat) (b : Bytes) : Chip :=
  let xt := beAt b 4 4
  let x := xt % 1024
  let en := xt / 1024 % 256
  let v := c.ctx x
  let want (e : CEnt) (kind : Nat) : Bool := e.op.kind == kind && e.dev == d && e.st == 1
  let hit := if v.gen % 2 ^ 14 ≠ xt / 2 ^ 18 then none
    else match v.rd with
      | some e => if want e 2 ∧ en = 0 then some e else none
      | none => v.commit.find? (fun (e : CEnt) => want e 3 && e.op.tag == en)
  match hit with
  | none => c.bump F.GNG_PEER_CNT_LATE.V d
  | some e =>
    let code := match byteAt b 1 with | 0 => 0 | 1 => byteAt b 2 | 2 => 3 | 3 => 9 | _ => 8
    c.onFlow fun f => { f with answers := f.answers ++ [⟨e.op, code, sliceB b 16 128⟩] }

/-- A peer's RD or PREP as the engine takes it (R537). -/
def Chip.rrecOp (c : Chip) (d : Nat) (b : Bytes) : FOp :=
  let op := byteAt b 0
  { kind := if op = 1 then 2 else 3, src := 1024 + d, tag := beAt b 4 4, key := sliceB b 16 40, h1 := beAt b 8 4, h2 := beAt b 12 4
    orient := 0, tmpl := 0, port := 0, iseq := 0, pass := 0, ver := 0, flen := 0, tcpf := 0, tcp := false, ce := false, cls := 0
    tail := 1, pend := 0, since := c.mt, mode := op - 1, mask := c.pol (if byteAt b 3 = 1 then 0x212 else 0x210) 2
    data := sliceB b 16 128 }

/-- RREC received. An op for a held engine or a gated bank waits on its way. (log entry 84 DEDUCED.) -/
def Chip.rrecRx (c : Chip) (p : Nat) (fr : Bytes) (ecc : Nat) : Chip :=
  match c.gangTake p 7 false fr with
  | (false, c) => c
  | (true, c) =>
    let b := gfBody fr
    let d := gfSrc fr
    let op := byteAt b 0
    if op = 7 then c.answerRx d b
    else
      let o := c.rrecOp d b
      let e := hEngine o.h1
      if op = 5 ∨ op = 6 then
        match (c.eng e).prepOf (1024 + d) o.tag with
        | none => c
        | some q => if op = 5 then c.applyPrep e q else c.dropPrep e q
      else if op = 0 ∨ 4 < op then c
      else if c.notOwned o.h1 then c.rrecAnswer ⟨o, 9, []⟩
      else if c.engineHeld e || c.bankGated e then
        { (c.wakeBank e) with act := { c.act with reqs := c.act.reqs ++ [o] } }
      else c.arriveEcc e o ecc

/-- RREC_ANSWER_TIMEOUT: a routine's remote request has waited GNG_ROP_WAIT (R313, R538). -/
def Chip.answerTimeout (c : Chip) (x : Nat) : Chip :=
  let v := c.ctx x
  let remote (e : CEnt) : Bool := e.st == 1 && e.dev != c.ownDevice
  if (match v.rd with | some e => remote e | none => false) || v.commit.any remote then c.endCtx x 1 abOwner else c

/-! ### A link set goes down (R529, R535, R538) -/

/-- The last in-service port of a link set has left service. (log entry 84 DEDUCED.) -/
def Chip.linkSetDown (c : Chip) (d : Nat) : Chip :=
  let c := c.onGang fun g => { g with oldest := smErase g.oldest d }
  let rs := c.gang.rops.filter (fun (r : Rop) => r.dev == d)
  let c := rs.foldl (fun c (r : Rop) => ((c.ropGone r).bump F.GNG_PEER_CNT_DISCARD.V d).missFb r.pid r.op) c
  let hs := c.flow.eng.flatMap (fun e => (e.2.helds.filter (fun h => h.op.kind == 1 && h.op.src == d && h.op.tail == 0)).map (fun h => h.op.tag))
  let ws := c.flow.eng.flatMap (fun e => ((e.2.station ++ e.2.input).filter (fun o => o.kind == 1 && o.src == d && o.tail == 0)).map FOp.tag)
  let c := hs.foldl (fun c t => (c.tailAll d t false).bump F.GNG_PEER_CNT_DISCARD.V d) c
  let c := ws.foldl (fun c t => c.tailAll d t false) c
  let c := c.removePreps d
  let waits (v : Ctx) : Bool :=
    (match v.rd with | some e => e.dev == d | none => false) || v.commit.any (fun (e : CEnt) => e.dev == d)
  let c := (smKeys c.act.ctxs).foldl (fun c x => if d != c.ownDevice && waits (c.ctx x) then c.endCtx x 1 abOwner else c) c
  (c.onGang fun g => { g with
    unbindRx := g.unbindRx.map (fun (u : UnbindRx) => if u.src = d then { u with left := 0 } else u) }).unbindReady

/-- A gang port leaves service (R516, R517); with it the last port of its link set may go. -/
def Chip.leaveService (c : Chip) (p : Nat) : Chip :=
  match smFind c.gang.inService p with
  | none => c
  | some d =>
    let c := c.onGang fun g => { g with
      inService := smErase g.inService p
      unbindRx := g.unbindRx.map (fun (u : UnbindRx) => if u.src = d then { u with left := 0 } else u) }
    let c := (c.setL d ((c.linkPorts d).filter (· != p))).raise F.GNG_EVENTS.LINK
    let c := c.unbindReady
    if (c.servicePorts d).isEmpty then (c.putF F.GNG_PEER_STATUS.LINK_STATE 0 d).linkSetDown d else c

/-- HELLO received (R516). -/
def Chip.helloRx (c : Chip) (p : Nat) (fr : Bytes) : Chip :=
  c.ctrlTake p 1 fr fun d b c =>
    if c.domainOut 7 d then c
    else if beAt b 0 4 = c.cfgCheck then
      (c.onGang fun g => { g with hellos := smPut g.hellos d b }).enterService p d
    else
      ((c.leaveService p).putF F.GNG_PEER_STATUS.LINK_STATE 2 d).raise F.GNG_EVENTS.MISMATCH

/-- OLDEST_SEND (R535). -/
def Chip.oldestOut (c : Chip) : Chip :=
  c.gang.inService.foldl (fun c e => c.ctrlOut e.1 e.2 2 (natBe 2 (c.getF F.CLS_VERSION.OLDEST))) c

/-- CTRL_OLDEST received (R177). -/
def Chip.oldestRx (c : Chip) (p : Nat) (fr : Bytes) : Chip :=
  c.ctrlTake p 2 fr fun d b c => c.onGang fun g => { g with oldest := smPut g.oldest d (beAt b 0 2) }

/-- DATA received: the frame waits like any other for its cells, with its tail known (R530). (log entry 84 DEDUCED.) -/
def Chip.dataRx (c : Chip) (p : Nat) (fr : Bytes) : Chip :=
  match c.gangTake p 1 false fr with
  | (false, c) => c
  | (true, c) =>
    let h := gfHdr fr
    let pid := c.tm.nextPid
    let body := gfBody fr
    let c := c.addPkt { Pkt.init 5 (gfSrc fr) p (beAt h 20 4) (beAt h 8 8) body with
      got := body.length
      tail := 1
      stage := .elastic
      ver := some (beAt h 16 2)
      gangHdr := h }
    c.setPort p { c.portSt p with elastic := (c.portSt p).elastic ++ [pid] }

end Sys2Proof.Machine
end

