-- ==== Sys2Proof/Machine/Tel.lean ====
section
/-! DEFINITION. Telemetry (R468 to R492): event-counter selections, test-strip selection and the export of flow records. -/
namespace Sys2Proof.Machine
open Sys2Proof

/-- The chip with telemetry state changed. -/
def Chip.onTel (c : Chip) (f : TelSt → TelSt) : Chip := { c with tel := f c.tel }

/-! ### Event counters and statistics (R470 to R473) -/

/-- Instances and events of a block code (R472). -/
def evRange (blk : Nat) : Nat × List Nat :=
  let upTo (n : Nat) : List Nat := (List.range n).map (· + 1)
  match blk with
  | 1 => (512, upTo 7) | 2 => (192, upTo 3) | 3 => (32, upTo 3) | 4 => (128, upTo 15) | 5 => (16, upTo 68)
  | 6 => (64, upTo 4) | 7 => (96, upTo 7) | 8 => (512, upTo 4) | 9 => (262144, upTo 3) | 10 => (1024, upTo 3)
  | 11 => (1, upTo 2) | 12 => (4, upTo 3) | 13 => (1, upTo 3) | _ => (0, [])

/-- A selection names an instance or event that does not exist (R471); block 0 selects none. (log entry 105 DEDUCED.) -/
def selBad (sel : Nat) : Bool :=
  let r := evRange (bitsOf 31 28 sel)
  bitsOf 31 28 sel != 0 && (decide (r.1 ≤ bitsOf 27 10 sel) || !r.2.contains (bitsOf 7 0 sel))

/-- EV_CLEAR (R473). -/
def Chip.evClear (c : Chip) (n : Nat) : Chip := c.putQ F.TEL_EV_CNT.V 0 n

/-- PORT_STATS_CLEAR (R470). -/
def Chip.statsClear (c : Chip) (p : Nat) : Chip :=
  (List.range 127).foldl (fun c i => c.putQ F.TEL_PORT_CNT.V 0 p i) c

/-! ### Test strips (R479 to R481) -/

/-- The generator advanced: polynomial x^32 + x^22 + x^2 + x + 1 in the arrangement of the device.
(log entry 76 DESIGN CHOICE.) -/
def lfsrNext (g : Nat) : Nat :=
  let xorAll (l : List Nat) : Nat := (l.filter (fun i => bitOf i g)).length % 2
  match Config.lfsrForm % 4 with
  | 0 => Nat.xor (g * 2 % 2 ^ 32) (if bitOf 31 g then 0x400007 else 0)
  | 1 => g * 2 % 2 ^ 32 + xorAll [31, 21, 1, 0]
  | 2 => Nat.xor (g / 2) (if bitOf 0 g then 0x80200003 else 0)
  | _ => g / 2 + 2 ^ 31 * xorAll [0, 10, 30, 31]

/-- A pipe's generator. -/
def Chip.tsGenOf (c : Chip) (pipe : Nat) : Nat :=
  smGet (fun k => Nat.xor (c.getF F.TEL_TS_SEED.V) k) c.tel.tsGen pipe

/-- Every generator is seeded anew. -/
def Chip.tsSeed (c : Chip) : Chip := c.onTel fun t => { t with tsGen := [] }

/-- Strips in flight. -/
def Chip.tsInFlight (c : Chip) : Nat :=
  (c.pkts.filter (fun e => match e.2.strip with | some s => !s.timedOut | none => false)).length

/-- A pipe accepts a packet's first pass and draws (R479). (log entry 76 DESIGN CHOICE.) -/
def Chip.stripSelect (c : Chip) (pid pipe : Nat) : Chip :=
  match c.pkt pid with
  | none => c
  | some p =>
    let g := c.tsGenOf pipe
    let g2 := lfsrNext g
    let drawn := if bitOf 2 Config.lfsrForm then g2 else g
    let c := c.onTel fun t => { t with tsGen := smSet (fun k => Nat.xor (c.getF F.TEL_TS_SEED.V) k) t.tsGen pipe g2 }
    let k := c.getF F.TEL_TS_CTRL.LOG2_RATE
    let force := c.flag F.TEL_TS_FORCE.GO && c.getF F.TEL_TS_FORCE.PORT == p.port
    if !c.flag F.TEL_TS_CTRL.ENABLE || !bitOf (p.port % 32) (c.getF F.TEL_TS_PORTS.V (p.port / 32)) || p.src != 0
        || !(force || drawn / 2 ^ (32 - k) == 0) then c
    else if 256 ≤ c.tsInFlight then c.bump F.TEL_TS_CNT_SKIP.V
    else
      let c := if force then c.putF F.TEL_TS_FORCE.GO 0 else c
      let c := c.updPkt pid fun p => { p with strip := some ⟨[], 0, pipe, false, none⟩ }
      (c.bump F.TEL_TS_CNT_SEL.V).signal 13 0 1

/-- STRIP_TIMEOUT: the record is written with OUTCOME 5 (R481). -/
def Chip.stripTimeout (c : Chip) (pid : Nat) : Chip :=
  match c.pkt pid with
  | none => c
  | some p => match p.strip with
    | none => c
    | some s =>
      if s.timedOut then c
      else (c.stripOut p s 5 0).updPkt pid fun p => { p with strip := some { s with timedOut := true } }

/-! ### Records into the export queue (R483 to R486) -/

/-- Records the export queue holds. -/
def expQueueMax : Nat := 65536

/-- The chip with the export queue changed. -/
def Chip.setExpQ (c : Chip) (q : List ExpRec) : Chip :=
  (c.onTel fun t => { t with expQ := q }).putF F.TEL_EXP_QUEUED.V q.length

/-- A deletion record handed over by an engine (R485, R486). -/
def Chip.exportOne (c : Chip) (reason : Nat) (r : Bytes) : Chip :=
  if !c.flag F.TEL_EXP_CTRL.ENABLE then c
  else if expQueueMax ≤ c.tel.expQ.length then
    ((c.bump F.TEL_EXP_CNT_LOST.V).raise F.TEL_EVENTS.EXP_LOST).signal 13 0 3
  else (c.setExpQ (c.tel.expQ ++ [⟨r, reason⟩])).signal 13 0 2

/-- The records engines hand to telemetry leave their outbox. -/
def Chip.drainExports (c : Chip) : Chip :=
  let l := c.flow.exports
  l.foldl (fun c (x : Nat × Bytes) => c.exportOne x.1 x.2) (c.onFlow fun x => { x with exports := [] })

/-- The valid slots of a bucket that the scan reads: not REPLICA. -/
def Chip.scanSlots (c : Chip) (e b : Nat) : List Nat :=
  (List.range 8).filter (fun j => tagValid (c.tag e b j) && !tagReplica (c.tag e b j))

/-- One slot of a scan: `ecc` as met by a read of its way (R259). -/
def Chip.scanSlot (c : Chip) (e b ecc j : Nat) : Chip :=
  let r := c.committed e b j
  match c.readWay e (rKey r) (c.h1Of (rKey r)) ecc with
  | (c, true) => c
  | (c, false) => if rExport r then (c.setExpQ (c.tel.expQ ++ [⟨r, 2⟩])).signal 13 0 2 else c

/-- The scan's pass is late once the next one is due (R484). -/
def Chip.scanLateCheck (c : Chip) (start : Nat) : Chip :=
  if c.tel.scanLate || decide (c.mt < start + c.getF F.TEL_EXP_ACTIVE.V * 10 ^ 9) then c
  else
    let c := c.onTel fun t => { t with scanLate := true }
    (c.bump F.TEL_EXP_CNT_SCAN_LATE.V).raise F.TEL_EVENTS.EXP_SCAN_LATE

/-- The pass ends when every engine's buckets have been visited. -/
def Chip.scanEnd (c : Chip) : Chip :=
  if (List.range 128).all (fun e => c.nbuckets ≤ smGet (fun _ => 0) c.tel.scanPos e) then
    c.onTel fun t => { t with scanAt := none, scanPos := [], scanLate := false }
  else c

/-- EXPORT_SCAN_VISIT of the next bucket of an engine (R484); while the queue is full the scan pauses (R486).
(log entry 77 DEDUCED.) -/
def Chip.scanVisit (c : Chip) (e ecc : Nat) : Chip :=
  let b := smGet (fun _ => 0) c.tel.scanPos e
  if !c.flag F.TEL_EXP_CTRL.ENABLE || c.getF F.TEL_EXP_ACTIVE.V == 0 || !c.flowPresent || c.engineHeld e
      || decide (c.nbuckets ≤ b) || decide (expQueueMax < c.tel.expQ.length + 8) then c
  else if c.bankGated e then c.wakeBank e
  else
    let start := c.tel.scanAt.getD c.mt
    let c := (c.onTel fun t => { t with scanAt := some start }).scanLateCheck start
    let c := (c.scanSlots e b).foldl (fun c j => c.scanSlot e b ecc j) c
    (c.onTel fun t => { t with scanPos := smSet (fun _ => 0) t.scanPos e (b + 1) }).scanEnd

/-! ### Export of records (R486 to R490) -/

/-- The rate limit passes one record: tokens used are counted in records × 10^9 (R486). -/
def Chip.expTake (c : Chip) : Bool × Chip :=
  let rate := c.getF F.TEL_EXP_RATE.V
  if rate = 0 then (true, c)
  else
    let used := c.tel.expUsed - rate * (c.mt - c.tel.expAt)
    let ok := decide (used + 10 ^ 9 ≤ c.getF F.TEL_EXP_BURST.V * 10 ^ 9)
    (ok, c.onTel fun t => { t with expUsed := if ok then used + 10 ^ 9 else used, expAt := c.mt })

/-- Both addresses of a record are IPv4-mapped (R487). -/
def recV4 (r : Bytes) : Bool := beAt r 0 12 == 0xFFFF && beAt r 16 12 == 0xFFFF

/-- An FT value as UTC milliseconds (R488). -/
def Chip.ftMs (c : Chip) (f : Nat) : Nat :=
  let g : Nat := c.time.acc / 2 ^ 40 / 2 ^ 20
  let t : Int := ((g : Int) - ftDiff g f) * 2 ^ 20
  patternOf 64 (t / 10 ^ 6 - 1000 * (c.getF F.TEL_EXP_UTC_OFS.V : Int))

/-- Export time in UTC seconds (R488). -/
def Chip.utcSec (c : Chip) : Nat :=
  patternOf 32 ((c.time.acc / 2 ^ 40 / 10 ^ 9 : Nat) - (c.getF F.TEL_EXP_UTC_OFS.V : Int))

/-- An IPFIX data record (R487). -/
def Chip.ipfixRecord (c : Chip) (x : ExpRec) : Bytes :=
  let r := x.bytes
  let n := if recV4 r then 4 else 16
  let addr (o : Nat) : Bytes := sliceB r (o + 16 - n) n
  let i := rOrigin r
  let post (m : Nat) : Bytes := if rNatMode r = m then addr 56 ++ sliceB r 72 2 else zerosB (n + 2)
  addr (16 * i) ++ addr (16 * (1 - i)) ++ sliceB r (32 + 2 * i) 2 ++ sliceB r (32 + 2 * (1 - i)) 2 ++ sliceB r 36 1
    ++ natBe 2 (byteAt r 110) ++ natBe 8 (c.ftMs (beAt r 48 4)) ++ natBe 8 (c.ftMs (beAt r 44 4))
    ++ natBe 8 (beAt r (90 + 6 * i) 6) ++ natBe 8 (beAt r (80 + 5 * i) 5)
    ++ natBe 8 (beAt r (90 + 6 * (1 - i)) 6) ++ natBe 8 (beAt r (80 + 5 * (1 - i)) 5) ++ natBe 1 x.reason
    ++ post 1 ++ post 2

/-- Information element and length of each field of template 256 (`v4`) or 257; `true`: enterprise 29305 (R487). -/
def ipfixFields (v4 : Bool) : List (Nat × Nat × Bool) :=
  let n := if v4 then 4 else 16
  let ie (a b : Nat) : Nat := if v4 then a else b
  [(ie 8 27, n, false), (ie 12 28, n, false), (7, 2, false), (11, 2, false), (4, 1, false), (6, 2, false), (152, 8, false),
   (153, 8, false), (85, 8, false), (86, 8, false), (85, 8, true), (86, 8, true), (136, 1, false), (ie 225 281, n, false),
   (227, 2, false), (ie 226 282, n, false), (228, 2, false)]

/-- A template record (RFC 7011). -/
def ipfixTemplate (v4 : Bool) : Bytes :=
  natBe 2 (if v4 then 256 else 257) ++ natBe 2 (ipfixFields v4).length
    ++ (ipfixFields v4).flatMap (fun (f : Nat × Nat × Bool) =>
      if f.2.2 then natBe 2 (0x8000 + f.1) ++ natBe 2 f.2.1 ++ natBe 4 29305 else natBe 2 f.1 ++ natBe 2 f.2.1)

/-- A set with its header. -/
def ipfixSet (id : Nat) (body : Bytes) : Bytes := natBe 2 id ++ natBe 2 (4 + body.length) ++ body

/-- The template set. -/
def templateSet : Bytes := ipfixSet 2 (ipfixTemplate true ++ ipfixTemplate false)

/-- The data sets of a message, template 256 first. (log entry 77 DEDUCED.) -/
def Chip.dataSets (c : Chip) (l : List ExpRec) : Bytes :=
  let one (v4 : Bool) : Bytes :=
    let m := l.filter (fun (x : ExpRec) => recV4 x.bytes == v4)
    if m.isEmpty then [] else ipfixSet (if v4 then 256 else 257) (m.flatMap (fun (x : ExpRec) => c.ipfixRecord x))
  one true ++ one false

/-- A message (R487). (log entry 106 PRESUMED.) -/
def Chip.ipfixMsg (c : Chip) (tmpl : Bool) (l : List ExpRec) : Bytes :=
  let body := (if tmpl then templateSet else []) ++ c.dataSets l
  natBe 2 10 ++ natBe 2 (16 + body.length) ++ natBe 4 c.utcSec ++ natBe 4 c.tel.expSeq ++ natBe 4 (c.getF F.TEL_EXP_DOMAIN.V)
    ++ body

/-- The header of the UDP transport with its lengths and checksums filled in (R489). -/
def Chip.udpFrame (c : Chip) (m : Bytes) : Bytes :=
  let len := min (c.getF F.TEL_EXP_HDR_INFO.LEN) 64
  let l3 := c.getF F.TEL_EXP_HDR_INFO.L3_AT
  let l4 := c.getF F.TEL_EXP_HDR_INFO.L4_AT
  let e := natLe 1 len ++ natLe 1 l3 ++ natLe 1 l4 ++ zerosB 1
  let h := c.getBytes (F.TEL_EXP_HDR.V.addr 0) len
  let h := if l4 + 8 ≤ len then putBe (putBe h (l4 + 4) 2 (len - l4 + m.length)) (l4 + 6) 2 0 else h
  let h := if l3 + 20 ≤ len then
      (if byteAt h l3 / 16 = 6 then putBe h (l3 + 4) 2 (len - l3 - 40 + m.length)
       else
         let h := putBe (putBe h (l3 + 2) 2 (len - l3 + m.length)) (l3 + 10) 2 0
         putBe h (l3 + 10) 2 (inetSum (sliceB h l3 (4 * (byteAt h l3 % 16)))))
    else h
  let fr := h ++ m
  if l4 + 8 ≤ byteAt e 0 ∧ l3 + 20 ≤ len then
    let ps := if byteAt h l3 / 16 = 6 then sliceB h (l3 + 8) 32 else sliceB h (l3 + 12) 8
    let s := inetSum (ps ++ natBe 2 17 ++ natBe 2 (len - l4 + m.length) ++ fr.drop l4)
    putBe fr (l4 + 6) 2 (if s = 0 then 0xFFFF else s)
  else fr

/-- A message is sent (R489). -/
def Chip.sendMsg (c : Chip) (tmpl : Bool) (l : List ExpRec) : Chip :=
  let m := c.ipfixMsg tmpl l
  let c := c.onTel fun t => { t with expSeq := (t.expSeq + l.length) % 2 ^ 32 }
  if c.flag F.TEL_EXP_CTRL.TRANSPORT then
    let port := c.getF F.TEL_EXP_OUT.PORT
    let p := Pkt.init 6 0 port 0 c.dtw (c.udpFrame m)
    let c := c.handOver { p with
      stage := .ready
      res := { ClsRes.init with cls := c.getF F.TEL_EXP_OUT.CLASS, outKind := 0, out := port } }
    c.bump F.TEL_EXP_CNT_MSGS.V
  else match c.ringRecord (c.getF F.TEL_EXP_CTRL.RING) 4 m with
    | (true, c) => c.bump F.TEL_EXP_CNT_MSGS.V
    | (false, c) => ((c.bump F.TEL_EXP_CNT_LOST.V).raise F.TEL_EVENTS.EXP_LOST).signal 13 0 3

/-- The open message is sent. -/
def Chip.flushMsg (c : Chip) : Chip :=
  if c.tel.expMsg.isEmpty then c
  else
    let l := c.tel.expMsg
    let tm := c.tel.expTmpl
    (c.onTel fun t => { t with expMsg := [], expTmpl := false }).sendMsg tm l

/-- A message with the template set alone. -/
def Chip.sendTemplates (c : Chip) : Chip := (c.onTel fun t => { t with tmplDue := false }).sendMsg true []

/-- A record opens a message, with the template set where it is due; where both do not fit, the templates go ahead. -/
def Chip.openMsg (c : Chip) (x : ExpRec) : Chip :=
  let c := if c.tel.tmplDue && decide (c.getF F.TEL_EXP_MSG_MAX.V < (c.ipfixMsg true [x]).length) then c.sendTemplates else c
  c.onTel fun t => { t with expMsg := [x], expTmpl := t.tmplDue, tmplDue := false }

/-- A record joins the open message, or the message is sent and the record opens the next. (log entry 77 DEDUCED.) -/
def Chip.putExport (c : Chip) (x : ExpRec) : Chip :=
  if c.tel.expMsg.isEmpty then c.openMsg x
  else if c.getF F.TEL_EXP_MSG_MAX.V < (c.ipfixMsg c.tel.expTmpl (c.tel.expMsg ++ [x])).length then c.flushMsg.openMsg x
  else c.onTel fun t => { t with expMsg := t.expMsg ++ [x] }

/-- An EXPORT item (R490). -/
def exportItem (x : ExpRec) : Bytes :=
  let r := x.bytes
  natBe 1 (0x70 + x.reason) ++ natBe 1 (64 * rOrigin r + rTemplate r) ++ sliceB r 90 6 ++ rKey r ++ sliceB r 96 6
    ++ sliceB r 80 5 ++ sliceB r 85 5

/-- EXPORT_RECORD_OUT: the head of the queue leaves (R486 to R490). (log entry 77 DEDUCED.) -/
def Chip.exportOut (c : Chip) : Chip :=
  match c.tel.expQ with
  | [] => c
  | x :: rest =>
    match c.expTake with
    | (false, c) => c
    | (true, c1) =>
      if c1.flag F.TEL_EXP_CTRL.MODE then
        match c1.offer (c1.getF F.TEL_EXP_CTRL.CLASS) (exportItem x) none with
        | (.accepted, c2) => (c2.setExpQ rest).bump F.TEL_EXP_CNT_RECORDS.V
        | (_, c2) => c2.onTel fun t => { t with expUsed := c.tel.expUsed, expAt := c.tel.expAt }
      else ((c1.setExpQ rest).putExport x).bump F.TEL_EXP_CNT_RECORDS.V

/-- TEMPLATE_REFRESH: over UDP the template set is sent again (R487). (log entry 77 DEDUCED.) -/
def Chip.templateRefresh (c : Chip) : Chip := if c.flag F.TEL_EXP_CTRL.TRANSPORT then c.sendTemplates else c

end Sys2Proof.Machine
end

