-- ==== Sys2Proof/Machine/Win.lean ====
section
/-! DEFINITION. The table-access windows (R497 to R501): tables, the checks of an entry, reads, writes and FLOW commands. -/
namespace Sys2Proof.Machine
open Sys2Proof

/-! ### The tables (R498) -/

/-- A table: entries, entry bytes, and the opcodes its Access column lists. -/
structure WinTab where
  n : Nat
  bytes : Nat
  ops : List Nat
  deriving DecidableEq, Repr

/-- The table of an ID. The index of FLOW is not used. -/
def winTab (t : Nat) : Option WinTab :=
  match t with
  | 0x01 => some ⟨2 ^ 32, 128, [1, 3, 4]⟩
  | 0x02 => some ⟨64, 64, [1]⟩
  | 0x03 => some ⟨524288, 48, [1, 2]⟩
  | 0x04 => some ⟨16384, 16, [1]⟩
  | 0x05 => some ⟨8192, 8, [1]⟩
  | 0x06 => some ⟨131072, 24, [1, 2]⟩
  | 0x07 => some ⟨262144, 8, [1, 2]⟩
  | 0x08 => some ⟨65536, 80, [1, 2]⟩
  | 0x09 => some ⟨256, 16, [1, 2]⟩
  | 0x0A => some ⟨262144, 8, [1]⟩
  | 0x0B => some ⟨131072, 8, [1, 2]⟩
  | 0x0C => some ⟨131072, 8, [1]⟩
  | 0x0D => some ⟨65535, 48, [1, 2]⟩
  | 0x0E => some ⟨65535, 48, [1]⟩
  | 0x10 => some ⟨256, 64, [1, 2]⟩
  | 0x11 => some ⟨512, 1, [1, 2]⟩
  | 0x12 => some ⟨65536, 32, [1, 2]⟩
  | 0x13 => some ⟨65535, 16, [1, 2]⟩
  | 0x14 => some ⟨65536, 32, [1, 2]⟩
  | 0x15 => some ⟨4194304, 2, [1, 2]⟩
  | _ => none

/-- DRAM address of an entry of a service table (R358). -/
def Chip.svcAddr (c : Chip) (t i : Nat) : Nat :=
  c.svcBase + (match t with
    | 0x12 => 32 * i
    | 0x13 => 0x200000 + 16 * i
    | 0x14 => 0x300000 + 32 * i
    | _ => 0x500000 + 2 * i)

/-! ### Reads -/

/-- An FQ_BIND entry (R419). -/
def Chip.fqBind (c : Chip) (q : Nat) : Bytes :=
  match smFind c.tm.bindings q with
  | none => zerosB 8
  | some b => natBe 1 (b.state + 4 * b2n (!b.hold.isEmpty)) ++ natBe 1 b.dev ++ natBe 3 b.handle
      ++ natBe 3 (c.handleCount b.dev b.handle)

/-- A GATE_OPER entry (R449): the list in force. -/
def Chip.gateOper (c : Chip) (i : Nat) : Bytes :=
  match (c.gateSt (i / 256)).oper with
  | none => zerosB 8
  | some g => match g.entries[i % 256]? with
    | some e => natBe 2 e.1 ++ zerosB 2 ++ natBe 4 e.2
    | none => zerosB 8

/-- Entry `i` of a table. With the default program the parse stores read 0 (R631); a word past the end of a loaded program
is a free value. (log entry 71 DESIGN CHOICE.) -/
def Chip.twEntry (c : Chip) (t i : Nat) : Bytes × Chip :=
  match t with
  | 0x02 => (c.tpl i, c)
  | 0x03 => (smGet (fun _ => zerosB 48) c.flow.meters i, c)
  | 0x04 => (match smFind c.parse.progs (i / 1024) with
    | none => (zerosB 16, c)
    | some ws => match ws[i % 1024]? with
      | some w => (natLe 16 w.toNat, c)
      | none => (natLe 16 c.freeNat, c.useFree))
  | 0x05 => (match (smGet (fun _ => []) c.parse.disp (i / 512))[i % 512]? with
    | some w => (natLe 8 w.toNat, c)
    | none => (zerosB 8, c))
  | 0x06 => (natLe 24 (smGet (fun _ => mwFill) c.act.opn i).toNat, c)
  | 0x07 => (natBe 1 (smGet (fun _ => 0) c.tm.queueAdm i) ++ zerosB 3 ++ natBe 4 (c.qCells i), c)
  | 0x08 => (sliceB (smGet (fun _ => []) c.tm.mcGroups i) 0 80, c)
  | 0x09 => (smGet (fun _ => zerosB 16) c.tm.mirrors i, c)
  | 0x0A => (c.fqBind i, c)
  | 0x0B => (smGet (fun _ => zerosB 8) c.sched.gateAdmin i, c)
  | 0x0C => (c.gateOper i, c)
  | 0x0D => (smGet (fun _ => zerosB 48) c.sched.policers i, c)
  | 0x0E => (smGet (fun _ => zerosB 48) c.sched.policerCnt i, c)
  | 0x10 => (c.natPool i, c)
  | 0x11 => (natBe 1 (smGet (fun _ => 0) c.act.natPort i), c)
  | 0x12 => (c.dramRead (c.svcAddr t i) 32, c)
  | 0x13 => (c.dramRead (c.svcAddr t i) 16, c)
  | 0x14 => (c.dramRead (c.svcAddr t i) 32, c)
  | 0x15 => (c.dramRead (c.svcAddr t i) 2, c)
  | _ => ([], c)

/-! ### Checks of a written entry (R501) -/

/-- Bytes `o` to `o + n - 1` are 0. -/
def zeroAt (d : Bytes) (o n : Nat) : Bool := (sliceB d o n).all (· == 0)

/-- A meter or policer configuration (R284). (log entry 70 DEDUCED.) -/
def meterOk (d : Bytes) : Bool :=
  let a := byteAt d 16
  decide (beAt d 0 4 ≤ beAt d 4 4) && decide (beAt d 8 4 ≤ 16777216) && decide (beAt d 12 4 ≤ 16777216)
    && decide (bitsOf 1 0 a ≤ 2) && decide (bitsOf 3 2 a ≤ 2) && decide (a < 32) && zeroAt d 17 15

/-- A NAT_POOL entry (R270): its address range, empty where the pool is not VALID. -/
def poolRange (d : Bytes) : Nat × Nat := (beAt d 8 16, if bitOf 0 (byteAt d 0) then beAt d 2 2 else 0)

/-- Fields of a NAT_POOL entry; the ranges of a VALID one. (log entry 70 DEDUCED.) -/
def poolOk (d : Bytes) : Bool :=
  decide (byteAt d 0 < 4) && decide (byteAt d 1 < 8) && decide (beAt d 4 2 ≤ beAt d 6 2) && decide (byteAt d 36 ≤ 64)
    && decide (byteAt d 37 < 64) && zeroAt d 38 26
    && (!bitOf 0 (byteAt d 0) || (decide (beAt d 2 2 ≤ 4096) && beAt d 4 2 != 0 && beAt d 28 8 % 64 == 0))

/-- Its range overlaps that of another valid pool. (log entry 70 DEDUCED.) -/
def Chip.poolOverlap (c : Chip) (i : Nat) (d : Bytes) : Bool :=
  let r := poolRange d
  c.act.natPool.any (fun (e : Nat × Bytes) =>
    let s := poolRange e.2
    e.1 != i && r.2 != 0 && s.2 != 0 && decide (r.1 < s.1 + s.2) && decide (s.1 < r.1 + r.2))

/-- Fields of an LB_VIP entry (R275). -/
def vipOk (d : Bytes) : Bool :=
  decide (byteAt d 0 < 2) && decide (byteAt d 5 < 64) && decide (beAt d 24 2 ≤ 65534) && zeroAt d 26 6

/-- The bucket of an LB_VIP entry (R275). -/
def vipBucket (d : Bytes) : Nat :=
  crc32c (2 ^ 32 - 1) (sliceB d 2 3 ++ sliceB d 1 1 ++ sliceB d 6 2 ++ sliceB d 8 16) % 2 ^ 14

/-- Two LB_VIP entries have the same ZONE, PROTO, PORT and ADDR. -/
def vipSame (a b : Bytes) : Bool := sliceB a 1 4 == sliceB b 1 4 && sliceB a 6 18 == sliceB b 6 18

/-- The indices of the bucket's entries, and what they hold. -/
def Chip.vipBucketOf (c : Chip) (d : Bytes) : List (Nat × Bytes) :=
  (List.range 4).map (fun k => (4 * vipBucket d + k, c.dramRead (c.svcAddr 0x12 (4 * vipBucket d + k)) 32))

/-- The entry an LB_VIP write replaces or fills (R499): matching, else the lowest free one for a VALID entry. -/
def Chip.vipPlace (c : Chip) (d : Bytes) : Option Nat :=
  let es := c.vipBucketOf d
  match es.find? (fun e => bitOf 0 (byteAt e.2 0) && vipSame e.2 d) with
  | some e => some e.1
  | none => if bitOf 0 (byteAt d 0) then (es.find? (fun e => !bitOf 0 (byteAt e.2 0))).map Prod.fst else none

/-- The defining table's own check of an entry: false is FIELD. (log entry 70 DEDUCED.) -/
def Chip.twFieldOk (c : Chip) (t i : Nat) (d : Bytes) : Bool :=
  match t with
  | 0x03 => meterOk d
  | 0x06 => mwOk (0x6000 + i % 8192) (BitVec.ofNat 192 (leAt d 0 24))
  | 0x07 => decide (byteAt d 0 < 64) && zeroAt d 1 3
  | 0x08 => decide (byteAt d 64 < 16) && decide (byteAt d 65 < 4) && zeroAt d 66 14
  | 0x09 => if i = 0 then zeroAt d 0 16
    else bitsOf 14 9 (beAt d 0 2) == 0 && decide (byteAt d 2 < 16) && zeroAt d 3 1
      && (beAt d 4 2 == 0 || (decide (64 ≤ beAt d 4 2) && decide (beAt d 4 2 ≤ 12288))) && zeroAt d 8 8
  | 0x0B => zeroAt d 2 2
  | 0x0D => meterOk d
  | 0x10 => poolOk d
  | 0x12 => vipOk d && (bitOf 0 (byteAt d 0) || (c.vipPlace d).isSome)
  | 0x13 => decide (byteAt d 0 < 2) && decide (byteAt d 1 ≤ 12) && beAt d 4 4 % 2 ^ byteAt d 1 == 0
      && decide (byteAt d 8 < 4) && zeroAt d 9 7
  | 0x14 => decide (byteAt d 18 ≤ 2) && zeroAt d 19 1 && zeroAt d 22 10
  | _ => true

/-- Refusals of a WRITE beyond FIELD, in the order of R21: status and REASON. -/
def Chip.twRefusal (c : Chip) (t i : Nat) (d : Bytes) : Option (Nat × Nat) :=
  if !c.twFieldOk t i d then some (stInvalid, 0x13)
  else if t = 0x10 ∧ c.poolOverlap i d then some (stInvalid, 0x14)
  else if t = 0x06 ∧ !bitOf 1 (c.pol 0x236 2) then some (stDenied, 0x19)
  else if t = 0x06 ∧ !c.flag F.ACT_CL_STATUS.HELD (i / 8192) then some (stBusy, 0x17)
  else if t = 0x12 ∧ c.vipPlace d = none then some (stBusy, 0x15)
  else none

/-! ### Writes -/

/-- A write of a service table: DRAM, the watches of its lines, and the slices' copies (R276, R498). -/
def Chip.svcWrite (c : Chip) (t i : Nat) (d : Bytes) : Chip :=
  let a := c.svcAddr t i
  let c := (c.dramWrite a d).breakWatch none a d.length
  match t with
  | 0x13 => c.onFlow fun x => { x with
      lbGroup := smSet (fun _ => (0, false)) x.lbGroup i (byteAt d 8, beAt d 2 2 != 0) }
  | 0x14 => c.onFlow fun x => { x with lbDown := smSet (fun _ => 0) x.lbDown i (byteAt d 18) }
  | _ => c

/-- A checked entry is written; fields its table marks RO keep their values. (log entry 73 DEDUCED.) -/
def Chip.twStore (c : Chip) (t i : Nat) (d : Bytes) : Chip :=
  match t with
  | 0x03 => c.onFlow fun x => { x with meters := smSet (fun _ => zerosB 48) x.meters i (meterWrite d c.mt32) }
  | 0x06 => { c with act := { c.act with opn := smSet (fun _ => mwFill) c.act.opn i (BitVec.ofNat 192 (leAt d 0 24)) } }
  | 0x07 => { c with tm := { c.tm with queueAdm := smSet (fun _ => 0) c.tm.queueAdm i (byteAt d 0) } }
  | 0x08 => { c with tm := { c.tm with mcGroups :=
      (if zeroAt d 0 80 then smErase c.tm.mcGroups i else smPut c.tm.mcGroups i d) } }
  | 0x09 => { c with tm := { c.tm with mirrors := smSet (fun _ => zerosB 16) c.tm.mirrors i d } }
  | 0x0B => { c with sched := { c.sched with gateAdmin := smSet (fun _ => zerosB 8) c.sched.gateAdmin i d } }
  | 0x0D => { c with sched := { c.sched with
      policers := smSet (fun _ => zerosB 48) c.sched.policers i (meterWrite d c.mt32) } }
  | 0x10 => { c with act := { c.act with natPool := smSet (fun _ => zerosB 64) c.act.natPool i d } }
  | 0x11 => { c with act := { c.act with natPort := smSet (fun _ => 0) c.act.natPort i (byteAt d 0) } }
  | 0x12 => c.svcWrite t i d
  | 0x13 => c.svcWrite t i d
  | 0x14 => c.svcWrite t i d
  | 0x15 => c.svcWrite t i d
  | _ => c

/-! ### Commands (R497, R500, R501) -/

/-- A window command completes. -/
def Chip.twDone (c : Chip) (w st reason : Nat) : Chip := (c.putF F.HST_TW_STATUS.REASON reason w).finish portTw st w

/-- BAR0 offset of a window's HST_TW_CMD, as the capture of R579 names it. -/
def twCmdAddr (w : Nat) : Nat := F.HST_TW_CMD.TABLE.addr w

/-- A READ. (log entry 71 DESIGN CHOICE.) -/
def Chip.twRead (c : Chip) (w t i n : Nat) : Chip :=
  match c.twEntry t i with
  | (d, c) => (c.putWords (F.HST_TW_DATA.V.addr w 0) (sliceB d 0 n)).twDone w stOk 0

/-- A WRITE. -/
def Chip.twWrite (c : Chip) (w t i n : Nat) : Chip :=
  let d := c.getBytes (F.HST_TW_DATA.V.addr w 0) n
  match c.twRefusal t i d with
  | some (st, reason) =>
    (if st = stDenied then c.deniedCapture 1 (twCmdAddr w) 0 else c).twDone w st reason
  | none =>
    if t = 0x12 then
      let k := (c.vipPlace d).getD 0
      let d := if bitOf 0 (byteAt d 0) then d else zerosB 32
      ((c.twStore t k d).putF F.HST_TW_INDEX.V k w).twDone w stOk 0
    else (c.twStore t i d).twDone w stOk 0

/-- A FLOW command: its op leaves for the local engine of its key. (log entry 72 DEDUCED.) -/
def Chip.twFlow (c : Chip) (w op : Nat) : Chip :=
  let d := c.getBytes (F.HST_TW_DATA.V.addr w 0) 128
  let key := sliceB d 0 40
  let h1 := c.h1Of key
  if c.ownerOf h1 ≠ some c.ownDevice then c.twDone w stInvalid 0x16
  else
    let o := coreOp (if op = 1 then 5 else if op = 3 then 6 else 7) w 0 key h1 (c.h2Of key) 0 (c.pol 0x214 2) d c.mt
    let c := c.putF F.HST_TW_STATUS.RUNNING 1 w
    { c with
      act := { c.act with reqs := c.act.reqs ++ [o] }
      host := { c.host with win := smPut c.host.win w ⟨op, 1, 0, d⟩ } }

/-- A write of HST_TW_CMD. -/
def Chip.twCmd (c : Chip) (w op t : Nat) : Chip := c.command portTw (fun c =>
  if op = 0 ∨ 5 ≤ op then c.twDone w stInvalid 0x1A
  else match winTab t with
    | none => c.twDone w stInvalid 0x10
    | some tb =>
      let i := c.getF F.HST_TW_INDEX.V w
      if t = 1 ∧ !c.flowPresent then c.twDone w stInvalid 0x10
      else if !tb.ops.contains op then c.twDone w stInvalid 0x12
      else if t = 1 then c.twFlow w op
      else if t ≠ 0x12 ∧ tb.n ≤ i then c.twDone w stInvalid 0x11
      else if op = 1 then (if tb.n ≤ i then c.twDone w stInvalid 0x11 else c.twRead w t i tb.bytes)
      else c.twWrite w t i tb.bytes) w

/-- The op of a window's FLOW command. -/
def winOp (w : Nat) (o : FOp) : Bool := (o.kind == 5 || o.kind == 6 || o.kind == 7) && o.src == w

/-- TW_TIMEOUT: a FLOW command that has not taken effect is withdrawn with its op. -/
def Chip.twTimeout (c : Chip) (w : Nat) : Chip :=
  if !c.flag F.HST_TW_STATUS.RUNNING w then c
  else
    let c := { c with
      act := { c.act with reqs := c.act.reqs.filter (fun o => !winOp w o) }
      host := { c.host with win := smErase c.host.win w } }
    let c := c.onFlow fun f => { f with
      eng := f.eng.map (fun (e : Nat × EngSt) => (e.1, { e.2 with
        input := e.2.input.filter (fun o => !winOp w o)
        station := e.2.station.filter (fun o => !winOp w o) })) }
    c.twDone w stTimeout 0

/-- The answer of a FLOW command's op (R257, R501). An engine that cannot read the record answers as on an absent one.
(log entry 72 DEDUCED.) -/
def Chip.winAnswer (c : Chip) (a : FAnswer) : Chip :=
  let w := a.op.src
  match smFind c.host.win w with
  | none => c
  | some cmd =>
    let c := { c with host := { c.host with win := smErase c.host.win w } }
    match a.code with
    | 0 => (if cmd.opcode = 1 then c.putWords (F.HST_TW_DATA.V.addr w 0) (sliceB a.data 0 128) else c).twDone w stOk 0
    | 2 => (c.deniedCapture 1 (twCmdAddr w) 0).twDone w stDenied 2
    | 5 => c.twDone w stBusy 5
    | 7 => c.twDone w stBusy 0x18
    | 8 => c.twDone w stInvalid 3
    | r => c.twDone w stInvalid r

end Sys2Proof.Machine
end

