-- ==== Sys2Proof/Machine/Flush.lean ====
section
/-! DEFINITION. What a flow engine hands over reaches its receivers (R238, R249, R252, R340, R406, R485, R532); release of
flow ops by the slices (R237) and their service at the engines (R29, R239, R258, R528). -/
namespace Sys2Proof.Machine
open Sys2Proof

/-! ### The outbox is emptied -/

/-- Flow results leave for packets and peers. -/
def Chip.drainResults (c : Chip) : Chip :=
  let l := c.flow.results
  l.foldl (fun c (x : FOp × Bytes) => if x.1.kind = 1 then c.rresOut x.1 x.2 else c.deliver x.1.src x.2 c.ownDevice)
    (c.onFlow fun x => { x with results := [] })

/-- An answer for a window or a peer; a peer's request that found the station full is tried again. -/
def Chip.answerOne (c : Chip) (a : FAnswer) : Chip :=
  if a.op.kind = 5 ∨ a.op.kind = 6 ∨ a.op.kind = 7 then c.winAnswer a
  else if a.code = 7 then { c with act := { c.act with reqs := c.act.reqs ++ [a.op] } }
  else c.rrecAnswer a

/-- The answer is for a context of this device: it waits for RD_ANSWER or PREP_ANSWER. -/
def FAnswer.local (a : FAnswer) : Bool := (a.op.kind == 2 || a.op.kind == 3) && decide (a.op.src < 1024)

/-- Answers leave for windows and peers. -/
def Chip.drainAnswers (c : Chip) : Chip :=
  let l := c.flow.answers.filter (fun (a : FAnswer) => !a.local)
  l.foldl (fun c (a : FAnswer) => c.answerOne a)
    (c.onFlow fun x => { x with answers := x.answers.filter (fun (a : FAnswer) => a.local) })

/-- Handles are unbound (R406). -/
def Chip.drainUnbinds (c : Chip) : Chip :=
  let l := c.flow.unbinds
  l.foldl (fun c h => c.unbindOut h) (c.onFlow fun x => { x with unbinds := [] })

/-- A waiting op's pending tag, known once its packet is parked. -/
def Chip.tagOps (c : Chip) (e pid tag : Nat) : Chip :=
  let f (o : FOp) : FOp := if o.kind = 0 ∧ o.src = pid then { o with pend := tag } else o
  c.onEng e fun s => { s with
    station := s.station.map f
    setups := s.setups.map (fun (x : FSetup) => { x with op := f x.op }) }

/-- The packet of a waiting op is parked (R238, R390); one that cannot be takes MISS_FB at once. -/
def Chip.parkOp (c : Chip) (e : Nat) (o : FOp) : Chip :=
  match c.pkt o.src with
  | none => c
  | some p =>
    if p.stage ≠ .flowWait then c
    else match c.park o.src with
      | some c => (c.stampStrip o.src 6).tagOps e o.src (match c.pkt o.src with | some p => p.pendTag.getD 0 | none => 0)
      | none => (c.leave e o).fallback e o 4

/-- Packets whose op waits in a station enter their pending pool. -/
def Chip.parkAll (c : Chip) : Chip :=
  (smKeys c.flow.eng).foldl (fun c e =>
    ((c.eng e).station.filter (fun (o : FOp) => o.kind == 0)).foldl (fun c o => c.parkOp e o) c) c

/-- Everything the engines have handed over reaches its receiver. -/
def Chip.flush (c : Chip) : Chip :=
  (((((((c.drainResults).drainAnswers).drainOffers).drainExports).drainUnbinds).drainRepl).parkAll).drainResults.finalCheck.settleBindings

/-! ### Release by the slice (R237) -/

/-- The packet still holds its place ahead of later ops of its port or pass. -/
def Pkt.holdsPlace (p : Pkt) : Bool :=
  p.stage == .elastic || p.stage == .mac || p.stage == .parse || p.stage == .classify
    || (p.stage == .flowWait && !p.opSent && p.flowKey.isSome)

/-- An earlier packet of the port, or an earlier recirculated pass of the slice, has not yet released its op. -/
def Chip.opBlocked (c : Chip) (pid : Nat) (p : Pkt) : Bool :=
  c.pkts.any (fun (e : Nat × Pkt) => e.2.holdsPlace &&
    (if p.pass = 0 then decide (e.1 < pid) && e.2.pass == 0 && e.2.src == p.src && e.2.srcId == p.srcId && e.2.port == p.port
     else e.2.pass != 0 && e.2.slice == p.slice && decide (e.2.passSeq < p.passSeq)))

/-- The op goes to the own engine, to the peer that owns the slot, or nowhere (R251, R258, R524). -/
def Chip.sendOp (c : Chip) (pid : Nat) (o : FOp) : Chip :=
  let e := hEngine o.h1
  match c.ownerOf o.h1 with
  | none => c.missFb pid o
  | some d =>
    if d ≠ c.ownDevice then (c.stampStrip pid 5).ropStart pid d o
    else if 512 ≤ (c.eng e).input.length then (c.bumpQ 48 F.FLE_CNT_INPUT_FULL.V e).missFb pid o
    else if c.engineHeld e then c.missFb pid o
    else ((c.onEng e fun s => { s with input := s.input ++ [o] }).stampStrip pid 5).wakeBank e

/-- FLOW_OP_RELEASE: the packet's op leaves its pipe. -/
def Chip.opRelease (c : Chip) (pid : Nat) : Chip :=
  match c.pkt pid with
  | none => c
  | some p =>
    if p.stage ≠ .flowWait ∨ p.opSent ∨ p.flowKey.isNone ∨ c.opBlocked pid p then c
    else ((c.setPkt pid { p with opSent := true }).stampStrip pid 4).sendOp pid (c.flowOp pid p)

/-! ### Service at the engines -/

/-- A packet's op finds its slot given away: the device sends it to the owner the map names (R528). -/
def Chip.resend (c : Chip) (o : FOp) : Chip :=
  match c.ownerOf o.h1 with
  | none => c.missFb o.src o
  | some d => c.ropStart o.src d o

/-- The engine serves the op at the head of its input queue. (log entry 74 DEDUCED.) -/
def Chip.serveInput (c : Chip) (e ecc : Nat) : Chip :=
  if c.bankGated e || c.engineStalled e then c
  else match (c.eng e).input with
    | [] => c
    | o :: r =>
      let c := c.onEng e fun s => { s with input := r }
      if o.kind = 0 then
        if c.ownerOf o.h1 = some c.ownDevice then c.arriveEcc e { o with since := c.mt } ecc else c.resend o
      else if c.notOwned o.h1 then c.rresOut o (plainResult o 7 0)
      else c.arriveEcc e { o with since := c.mt } ecc

/-- RMT_OP: a peer's ROP arrives on a gang port and takes its place in the engine's input queue (R258, R251).
(log entry 74 DEDUCED.) -/
def Chip.rmtOp (c : Chip) (port : Nat) (fr : Bytes) (ecc : Nat) : Chip :=
  match c.gangTake port 2 false fr with
  | (false, c) => c
  | (true, c) =>
    let o := c.ropOp fr
    let e := hEngine o.h1
    if c.notOwned o.h1 then c.rresOut o (plainResult o 7 0)
    else if 512 ≤ (c.eng e).input.length then
      (c.bumpQ 48 F.FLE_CNT_INPUT_FULL.V e).rresOut o (plainResult o 4 (actVerdict (tpMissFb (c.tpl o.tmpl))))
    else if c.engineHeld e then c.rresOut o (plainResult o 4 (actVerdict (tpMissFb (c.tpl o.tmpl))))
    else ((c.onEng e fun s => { s with input := s.input ++ [o] }).wakeBank e).serveInput e ecc

/-- The oldest request of a kind on its way to an engine is served. (log entry 74 DEDUCED.) -/
def Chip.serveReq (c : Chip) (kind e ecc : Nat) : Chip :=
  match c.act.reqs.find? (fun (o : FOp) => o.kind == kind && hEngine o.h1 == e) with
  | none => c
  | some o =>
    if c.bankGated e then c.wakeBank e
    else if (if kind ≤ 3 then c.engineStalled e else c.engineHeld e) then c
    else ({ c with act := { c.act with reqs := c.act.reqs.erase o } }).arriveEcc e o ecc

/-- An APPLY (`ap`) or DROP on its way to an engine is carried out. -/
def Chip.serveMsg (c : Chip) (ap : Bool) (e : Nat) : Chip :=
  match c.act.msgs.find? (fun (m : Bool × Nat × Nat × Nat) => m.1 == ap && m.2.1 == e) with
  | none => c
  | some m =>
    let c := { c with act := { c.act with msgs := c.act.msgs.erase m } }
    match (c.eng e).prepOf m.2.2.1 m.2.2.2 with
    | none => c
    | some p => if ap then c.applyPrep e p else c.dropPrep e p

/-- The tail status of a packet's frame reaches the engine that has its op, or the peer's (R242, R527). The packet itself may
be gone. -/
def Chip.tailReport (c : Chip) (pid : Nat) (good : Bool) : Chip :=
  ((smKeys c.flow.eng).foldl (fun c e => c.tailStatus e 0 pid 0 good) c).tailOut pid good

end Sys2Proof.Machine
end

