-- ==== Sys2Proof/Machine/ActExec.lean ====
section
/-! DEFINITION. Commands of the action cores (R297 to R322). A word's units run as commands of their own, in any order; the
word completes with its sequencing command (R299, R302), whose `ecc` says what the word's reads meet (R328): 0 no error,
1 a corrected one, 2 an uncorrectable one of the control store, 3 an uncorrectable one of registers or scratch. -/
namespace Sys2Proof.Machine
open Sys2Proof

/-! ### ALU ops (R304): of unit ALUA, or ALUB where `unitB` -/

/-- ADD (R304). -/
def execAdd (ctx : Fin 1024) (unitB : Bool) (s : State) : Out := s.on (·.aluUnit ctx.val 1 unitB)
/-- SUB (R304). -/
def execSub (ctx : Fin 1024) (unitB : Bool) (s : State) : Out := s.on (·.aluUnit ctx.val 2 unitB)
/-- AND (R304). -/
def execAnd (ctx : Fin 1024) (unitB : Bool) (s : State) : Out := s.on (·.aluUnit ctx.val 3 unitB)
/-- OR (R304). -/
def execOr (ctx : Fin 1024) (unitB : Bool) (s : State) : Out := s.on (·.aluUnit ctx.val 4 unitB)
/-- XOR (R304). -/
def execXor (ctx : Fin 1024) (unitB : Bool) (s : State) : Out := s.on (·.aluUnit ctx.val 5 unitB)
/-- SHL (R304). -/
def execShl (ctx : Fin 1024) (unitB : Bool) (s : State) : Out := s.on (·.aluUnit ctx.val 6 unitB)
/-- SHR (R304). -/
def execShr (ctx : Fin 1024) (unitB : Bool) (s : State) : Out := s.on (·.aluUnit ctx.val 7 unitB)
/-- MOV (R304). -/
def execMov (ctx : Fin 1024) (unitB : Bool) (s : State) : Out := s.on (·.aluUnit ctx.val 8 unitB)
/-- CMP (R304). -/
def execCmp (ctx : Fin 1024) (unitB : Bool) (s : State) : Out := s.on (·.aluUnit ctx.val 9 unitB)
/-- EXTR (R304). -/
def execExtr (ctx : Fin 1024) (unitB : Bool) (s : State) : Out := s.on (·.aluUnit ctx.val 10 unitB)
/-- INS (R304). -/
def execIns (ctx : Fin 1024) (unitB : Bool) (s : State) : Out := s.on (·.aluUnit ctx.val 11 unitB)
/-- MUL (R304). -/
def execMul (ctx : Fin 1024) (unitB : Bool) (s : State) : Out := s.on (·.aluUnit ctx.val 12 unitB)
/-- MODU (R304). -/
def execModu (ctx : Fin 1024) (unitB : Bool) (s : State) : Out := s.on (·.aluUnit ctx.val 13 unitB)
/-- LDLC (R304). -/
def execLdlc (ctx : Fin 1024) (unitB : Bool) (s : State) : Out := s.on (·.aluUnit ctx.val 14 unitB)
/-- MINU (R304). -/
def execMinu (ctx : Fin 1024) (unitB : Bool) (s : State) : Out := s.on (·.aluUnit ctx.val 15 unitB)

/-! ### MEM ops (R306, R312, R313) -/

/-- SLD (R305). -/
def execSld (ctx : Fin 1024) (s : State) : Out := s.on (·.sld ctx.val)
/-- SST (R305). -/
def execSst (ctx : Fin 1024) (s : State) : Out := s.on (·.sst ctx.val)
/-- CPY (R305). -/
def execCpy (ctx : Fin 1024) (s : State) : Out := s.on (·.cpy ctx.val)
/-- CLD (R305). -/
def execCld (ctx : Fin 1024) (s : State) : Out := s.on (·.cld ctx.val)
/-- RD (R313). -/
def execRd (ctx : Fin 1024) (s : State) : Out := s.on (·.rdUnit ctx.val)
/-- RD_ANSWER (R313). -/
def execRdAnswer (ctx : Fin 1024) (s : State) : Out := s.on (·.rdAnswer ctx.val)
/-- WREC (R312). -/
def execWrec (ctx : Fin 1024) (s : State) : Out := s.on (·.wrec ctx.val)
/-- DRD (R306). -/
def execDrd (ctx : Fin 1024) (s : State) : Out := s.on (·.drdUnit ctx.val false)
/-- DRDW (R306). -/
def execDrdw (ctx : Fin 1024) (s : State) : Out := s.on (·.drdUnit ctx.val true)
/-- DRD_DATA_ARRIVED (R306): the oldest read in flight of a context; `err`: it ended in an error. -/
def execDrdDataArrived (ctx : Fin 1024) (err : Bool) (s : State) : Out := s.on (·.drdArrived ctx.val err)
/-- WKEEP (R305). -/
def execWkeep (ctx : Fin 1024) (s : State) : Out := s.on (·.wkeep ctx.val)
/-- DWR (R305). -/
def execDwr (ctx : Fin 1024) (s : State) : Out := s.on (·.dwrUnit ctx.val)
/-- CADD (R305). -/
def execCadd (ctx : Fin 1024) (s : State) : Out := s.on (·.cadd ctx.val)

/-! ### KEY ops (R307) -/

/-- HASH (R307). -/
def execHash (ctx : Fin 1024) (s : State) : Out := s.on (·.kHash ctx.val)
/-- CANON (R307). -/
def execCanon (ctx : Fin 1024) (s : State) : Out := s.on (·.kCanon ctx.val)
/-- CRCS (R307). -/
def execCrcs (ctx : Fin 1024) (s : State) : Out := s.on (·.kCrcs ctx.val)
/-- KCMP (R307). -/
def execKcmp (ctx : Fin 1024) (s : State) : Out := s.on (·.kCmp ctx.val)
/-- POOLP (R307). -/
def execPoolp (ctx : Fin 1024) (s : State) : Out := s.on (·.kPoolp ctx.val)
/-- POOLA (R307). -/
def execPoola (ctx : Fin 1024) (s : State) : Out := s.on (·.kPoola ctx.val)
/-- NATS (R307). -/
def execNats (ctx : Fin 1024) (s : State) : Out := s.on (·.kNats ctx.val)
/-- NATX (R307). -/
def execNatx (ctx : Fin 1024) (s : State) : Out := s.on (·.kNatx ctx.val)
/-- KBLD (R307). -/
def execKbld (ctx : Fin 1024) (s : State) : Out := s.on (·.kBld ctx.val)
/-- TPLR (R307). -/
def execTplr (ctx : Fin 1024) (s : State) : Out := s.on (·.kTplr ctx.val)

/-! ### CRC, EMIT and TIM ops (R308 to R310) -/

/-- INIT (R308). -/
def execInit (ctx : Fin 1024) (s : State) : Out := s.on (·.crcInit ctx.val)
/-- FEED (R308). -/
def execFeed (ctx : Fin 1024) (s : State) : Out := s.on (·.crcFeed ctx.val)
/-- OUT (R308). -/
def execOut (ctx : Fin 1024) (s : State) : Out := s.on (·.crcOut ctx.val)
/-- PKT_OUT (R309). -/
def execPktOut (ctx : Fin 1024) (s : State) : Out := s.on (·.emitUnit ctx.val 1)
/-- PKT_IN (R309). -/
def execPktIn (ctx : Fin 1024) (s : State) : Out := s.on (·.emitUnit ctx.val 2)
/-- ITEM (R309). -/
def execItem (ctx : Fin 1024) (s : State) : Out := s.on (·.emitUnit ctx.val 3)
/-- HOST (R309). -/
def execHost (ctx : Fin 1024) (s : State) : Out := s.on (·.emitUnit ctx.val 4)
/-- TIM_FT (R310). -/
def execTimFt (ctx : Fin 1024) (s : State) : Out := s.on (·.timSample ctx.val 1)
/-- TIM_DT (R310). -/
def execTimDt (ctx : Fin 1024) (s : State) : Out := s.on (·.timSample ctx.val 2)
/-- TIM_DTW (R310). -/
def execTimDtw (ctx : Fin 1024) (s : State) : Out := s.on (·.timSample ctx.val 3)
/-- TIM_AFTER (R310). -/
def execTimAfter (ctx : Fin 1024) (s : State) : Out := s.on (·.timAfter ctx.val)

/-! ### Sequencing (R302) -/

/-- SEQ (R302). -/
def execSeq (ctx : Fin 1024) (ecc : Fin 4) (s : State) : Out := s.on fun c => (c.sequence ctx.val 0 ecc.val goSeq).flush
/-- BR (R302). -/
def execBr (ctx : Fin 1024) (ecc : Fin 4) (s : State) : Out := s.on fun c => (c.sequence ctx.val 1 ecc.val goBr).flush
/-- CALL (R302). -/
def execCall (ctx : Fin 1024) (ecc : Fin 4) (s : State) : Out := s.on fun c => (c.sequence ctx.val 2 ecc.val goCall).flush
/-- RET (R302). -/
def execRet (ctx : Fin 1024) (ecc : Fin 4) (s : State) : Out := s.on fun c => (c.sequence ctx.val 3 ecc.val goRet).flush
/-- LOOP (R302). -/
def execLoop (ctx : Fin 1024) (ecc : Fin 4) (s : State) : Out := s.on fun c => (c.sequence ctx.val 4 ecc.val goLoop).flush
/-- COMMIT (R314). -/
def execCommit (ctx : Fin 1024) (ecc : Fin 4) (s : State) : Out := s.on fun c => (c.sequence ctx.val 5 ecc.val goCommit).flush
/-- ABORT (R302). -/
def execAbort (ctx : Fin 1024) (ecc : Fin 4) (s : State) : Out := s.on fun c => (c.sequence ctx.val 6 ecc.val goAbort).flush

/-! ### Commit and ends (R314 to R322) -/

/-- PREP_ANSWER (R314). -/
def execPrepAnswer (ctx : Fin 1024) (s : State) : Out := s.on fun c => (c.prepAnswer ctx.val).flush
/-- COMMIT_POINT (R316): the oldest waiting write set takes the commit point. -/
def execCommitPoint (s : State) : Out := s.on fun c => c.commitPoint.flush
/-- ROUTINE_WALL_TIMEOUT (R320). -/
def execRoutineWallTimeout (ctx : Fin 1024) (s : State) : Out := s.on fun c => (c.wallTimeout ctx.val).flush
/-- KILL (R321). -/
def execKill (ctx : Fin 1024) (s : State) : Out := s.on fun c => (c.killCtx ctx.val).flush
/-- KILL_ALL (R321): every routine of a cluster. -/
def execKillAll (cluster : Fin 16) (s : State) : Out := s.on fun c => (c.killAll cluster.val abKilled).flush
/-- HOLD (R322): ACT_CL_CTRL.HOLD of a cluster is set or cleared. -/
def execHold (cluster : Fin 16) (b : Bool) (s : State) : Out := s.on (·.setHold cluster.val b)

/-! ### The dispatcher (R337 to R350, R585) -/

/-- ITEM_BIND (R345): one core cycle of a cluster. -/
def execItemBind (cluster : Fin 16) (s : State) : Out := s.on (·.itemBind cluster.val)
/-- ROUTINE_END (R348). -/
def execRoutineEnd (ctx : Fin 1024) (s : State) : Out := s.on fun c => (c.routineEnd ctx.val).flush
/-- FREEZE_WINDOW (R585). -/
def execFreezeWindow (s : State) : Out := s.on Chip.freezeWindow
/-- DISPATCH_TIMER_FIRE (R343). -/
def execDispatchTimerFire (timer : Fin 64) (s : State) : Out := s.on (·.timerFire timer.val)
/-- HPOST_GO (R344): a write of WDS_HPOST_CTRL with GO. -/
def execHpostGo (cls : Fin 64) (hash : Bool) (s : State) : Out := s.on (·.hpost cls.val hash)
/-- CLUSTER_WAKE (R347): class `cls` asks for a gated cluster. -/
def execClusterWake (cls : Fin 64) (s : State) : Out := s.on (·.clusterWake cls.val)
/-- CLUSTER_AWAKE (R347). -/
def execClusterAwake (cluster : Fin 16) (s : State) : Out := s.on (·.clusterAwake cluster.val)
/-- CLUSTER_GATE (R347). -/
def execClusterGate (cluster : Fin 16) (s : State) : Out := s.on (·.clusterGate cluster.val)
/-- SETUP_ITEM_OFFER (R249): the head of the engine's setup queue is offered to its class. -/
def execSetupItemOffer (eng : Fin 128) (s : State) : Out := s.on (·.setupOffer eng.val)
/-- SWEEP_TICK (R342). -/
def execSweepTick (s : State) : Out := s.on Chip.sweepTick

end Sys2Proof.Machine
end

