-- ==== Sys2Proof/Machine/ClsExec.lean ====
section
/-! DEFINITION. Commands of classification and payload inspection. -/
namespace Sys2Proof.Machine
open Sys2Proof

/-- CLASSIFY_PASS (R165): the header vector of packet `pid` is complete. `ecc`: 0 rule memory read without error, 1 with a
corrected one, 2 with an uncorrectable one (R178). -/
def execClassifyPass (pid : Nat) (ecc : Fin 3) (s : State) : Out := s.on (·.classify pid ecc.val)
/-- PATTERN_SCAN_START (R197). -/
def execPatternScanStart (pid : Nat) (s : State) : Out := s.on (·.scanStart pid)
/-- PATTERN_REPORT (R199): the scan of engine `eng` completes with its matches as (pattern, END), in any order, each once;
`err`: it met an uncorrectable line of the pattern store (R200). (log entry 107 DESIGN CHOICE.) -/
def execPatternReport (eng : Fin 32) (found : List (Nat × Nat)) (err : Bool) (line : Nat) (s : State) : Out :=
  s.on (·.scanReport eng.val found err line)
/-- PATTERN_WAIT_TIMEOUT (R197). -/
def execPatternWaitTimeout (pid : Nat) (s : State) : Out := s.on (·.scanTimeout pid)
/-- PATTERN_LINE_RELOADED (R200). -/
def execPatternLineReloaded (line : Nat) (s : State) : Out := s.on fun c =>
  { c with pattern := { c.pattern with reload := smErase c.pattern.reload line } }
/-- PATTERN_ENGINE_GATE (R563): an engine without a packet is clock-gated. -/
def execPatternEngineGate (eng : Fin 32) (s : State) : Out := s.on fun c =>
  if (smFind c.pattern.engines eng.val).isSome || c.pattern.gated.contains eng.val then c
  else { c with pattern := { c.pattern with gated := c.pattern.gated ++ [eng.val] } }

end Sys2Proof.Machine
end

