-- ==== Sys2Proof/Machine/FlowExec.lean ====
section
/-! DEFINITION. Commands of the flow engines. `ecc`: what the read of the op's way meets: 0 nothing, 1 a corrected error,
2 an uncorrectable one (R259). -/
namespace Sys2Proof.Machine
open Sys2Proof

/-- FLOW_OP_RELEASE (R237): the op of packet `pid` leaves its pipe. -/
def execFlowOpRelease (pid : Nat) (s : State) : Out := s.on fun c => (c.opRelease pid).flush
/-- PKT_OP (R239): the op at the head of the engine's input queue takes a slot. -/
def execPktOp (eng : Fin 128) (ecc : Fin 3) (s : State) : Out := s.on fun c => (c.serveInput eng.val ecc.val).flush
/-- RMT_OP (R258): a ROP frame `fr` (without its FCS) arrives on a gang port. -/
def execRmtOp (port : Fin 512) (fr : Bytes) (ecc : Fin 3) (s : State) : Out := s.on fun c =>
  (c.rmtOp port.val fr ecc.val).flush
/-- RD_OP (R256). -/
def execRdOp (eng : Fin 128) (ecc : Fin 3) (s : State) : Out := s.on fun c => (c.serveReq 2 eng.val ecc.val).flush
/-- PREP (R254). -/
def execPrep (eng : Fin 128) (ecc : Fin 3) (s : State) : Out := s.on fun c => (c.serveReq 3 eng.val ecc.val).flush
/-- APPLY (R254). -/
def execApply (eng : Fin 128) (s : State) : Out := s.on fun c => (c.serveMsg true eng.val).flush
/-- DROP (R254). -/
def execDrop (eng : Fin 128) (s : State) : Out := s.on fun c => (c.serveMsg false eng.val).flush
/-- SWEEP_OP (R292): a sweep routine's op on a bucket; its report stands in the engine's state. -/
def execSweepOp (eng : Fin 128) (bucket : Nat) (ecc : Fin 3) (s : State) : Out := s.on fun c =>
  if !c.flowPresent || c.bankGated eng.val || c.engineHeld eng.val then c.wakeBank eng.val
  else (c.sweepOp eng.val bucket ecc.val).flush
/-- HRD (R257). -/
def execHrd (eng : Fin 128) (ecc : Fin 3) (s : State) : Out := s.on fun c => (c.serveReq 5 eng.val ecc.val).flush
/-- HDEL (R257). -/
def execHdel (eng : Fin 128) (ecc : Fin 3) (s : State) : Out := s.on fun c => (c.serveReq 6 eng.val ecc.val).flush
/-- HINS (R257). -/
def execHins (eng : Fin 128) (ecc : Fin 3) (s : State) : Out := s.on fun c => (c.serveReq 7 eng.val ecc.val).flush
/-- REPL_OP (R532, R533): a REPL frame arrives on a gang port. -/
def execReplOp (port : Fin 512) (fr : Bytes) (s : State) : Out := s.on fun c => (c.replRx port.val fr).flush
/-- TAIL_STATUS_REPORT (R242): the port complex reports the tail of packet `pid`. -/
def execTailStatusReport (pid : Nat) (good : Bool) (s : State) : Out := s.on fun c => (c.tailReport pid good).flush
/-- MISS_QUEUE_GRANT (R244). -/
def execMissQueueGrant (eng : Fin 128) (s : State) : Out := s.on (·.missGrant eng.val)
/-- TAG_LINES_ARRIVED (R244): for the engine's lookup at place `n` in order of start; `err`: a line is uncorrectable. -/
def execTagLinesArrived (eng : Fin 128) (n : Nat) (err : Bool) (s : State) : Out := s.on fun c =>
  (c.tagsArrived eng.val n err).flush
/-- RECORD_FILL (R244): the record of the lookup at place `n`; `ecc`: the read of the replaced way. -/
def execRecordFill (eng : Fin 128) (n : Nat) (err : Bool) (ecc : Fin 3) (s : State) : Out := s.on fun c =>
  (c.recordFill eng.val n err ecc.val).flush
/-- WAY_AVAILABLE (R244, R228). -/
def execWayAvailable (eng : Fin 128) (s : State) : Out := s.on fun c => (c.wayAvailable eng.val).flush
/-- OP_REPLAY (R243). -/
def execOpReplay (eng : Fin 128) (ecc : Fin 3) (s : State) : Out := s.on fun c => (c.replay eng.val ecc.val).flush
/-- OP_DEADLINE (R252): of the waiting op at place `n` of the station. -/
def execOpDeadline (eng : Fin 128) (n : Nat) (s : State) : Out := s.on fun c => (c.opDeadline eng.val n).flush
/-- HC_GO (R230): the hash calculator captures its key registers and computes. -/
def execHcGo (eng : Fin 128) (s : State) : Out := s.on (·.hcGo eng.val)
/-- METER_REFRESH (R285). -/
def execMeterRefresh (eng : Fin 128) (s : State) : Out := s.on (·.meterRefresh eng.val)
/-- SETUP_END_REPORT (R249, R348): the dispatcher's oldest report of an ended setup routine reaches its engine. -/
def execSetupEndReport (s : State) : Out := s.on fun c =>
  match c.wds.setupEnds with
  | [] => c
  | x :: r => ((c.onWds fun w => { w with setupEnds := r }).setupEnd x.1 x.2.1 x.2.2).flush

end Sys2Proof.Machine
end

