-- ==== Sys2Proof/Machine/GangExec.lean ====
section
/-! DEFINITION. Commands of the gang block (R515 to R543). A frame operand is a frame as it stands after its FCS has been
checked and stripped: the Ethernet header, the 32-byte gang header and the body (R518). -/
namespace Sys2Proof.Machine
open Sys2Proof

/-! ### Links (R516, R517, R529) -/

/-- HELLO_TIMER (R516): an UP gang port sends a HELLO. -/
def execHelloTimer (port : Fin 512) (s : State) : Out := s.on fun c =>
  if c.gangPort port.val && c.portUp port.val then c.helloOut port.val else c
/-- HELLO (R516). -/
def execHello (port : Fin 512) (fr : Bytes) (s : State) : Out := s.on fun c => (c.helloRx port.val fr).flush
/-- HELLO_TIMEOUT (R516). -/
def execHelloTimeout (port : Fin 512) (s : State) : Out := s.on fun c => (c.leaveService port.val).flush
/-- LINK_SET_JOIN (R517): the ports in service to device `dev` become its list once the old list has drained. -/
def execLinkSetJoin (dev : Fin 4) (s : State) : Out := s.on (·.linkJoin dev.val)
/-- LINK_SET_DOWN (R529): a gang port goes down, and with the last one its link set. -/
def execLinkSetDown (port : Fin 512) (s : State) : Out := s.on fun c => (c.leaveService port.val).flush
/-- OLDEST_SEND (R535). -/
def execOldestSend (s : State) : Out := s.on Chip.oldestOut
/-- CTRL_OLDEST (R177). -/
def execCtrlOldest (port : Fin 512) (fr : Bytes) (s : State) : Out := s.on (·.oldestRx port.val fr)

/-! ### Packets and remote ops (R526 to R530) -/

/-- DATA (R530). -/
def execData (port : Fin 512) (fr : Bytes) (s : State) : Out := s.on (·.dataRx port.val fr)
/-- RRES (R527, R528). -/
def execRres (port : Fin 512) (fr : Bytes) (s : State) : Out := s.on fun c => (c.rresRx port.val fr).flush
/-- TAIL (R527). -/
def execTail (port : Fin 512) (fr : Bytes) (s : State) : Out := s.on fun c => (c.tailRx port.val fr).flush
/-- RREC (R537): `ecc`: what the read of the record's way meets. -/
def execRrec (port : Fin 512) (fr : Bytes) (ecc : Fin 3) (s : State) : Out := s.on fun c =>
  (c.rrecRx port.val fr ecc.val).flush
/-- ROP_TIMEOUT (R527): the remote op of packet `pid`. -/
def execRopTimeout (pid : Nat) (s : State) : Out := s.on fun c => (c.ropTimeout pid).flush
/-- RREC_PREP_EXPIRY (R538): the entry of a peer at an engine. -/
def execRrecPrepExpiry (eng : Fin 128) (dev : Fin 4) (tag : Nat) (s : State) : Out := s.on fun c =>
  (c.prepExpiry eng.val dev.val tag).flush
/-- RREC_ANSWER_TIMEOUT (R538). -/
def execRrecAnswerTimeout (ctx : Fin 1024) (s : State) : Out := s.on fun c => (c.answerTimeout ctx.val).flush
/-- CTRL_UNBIND (R535). -/
def execCtrlUnbind (port : Fin 512) (fr : Bytes) (s : State) : Out := s.on (·.unbindRxOne port.val fr)
/-- REPL_REFRESH_SCAN (R532). -/
def execReplRefreshScan (s : State) : Out := s.on Chip.replScan

/-! ### Membership (R524, R525) -/

/-- FORM (R524). -/
def execForm (s : State) : Out := s.on fun c => c.form.flush
/-- JOIN (R524). -/
def execJoin (s : State) : Out := s.on Chip.join
/-- JOIN_TIMEOUT (R524). -/
def execJoinTimeout (s : State) : Out := s.on Chip.joinTimeout
/-- JOIN_REQ (R524); `linked`: the device also has links to the members other than the coordinator. -/
def execJoinReq (port : Fin 512) (fr : Bytes) (linked : Bool) (s : State) : Out := s.on fun c =>
  (c.joinReq port.val fr linked).flush
/-- LEAVE (R524). -/
def execLeave (s : State) : Out := s.on fun c => c.leaveGang.flush
/-- CTRL_LEAVE (R524). -/
def execCtrlLeave (port : Fin 512) (fr : Bytes) (s : State) : Out := s.on fun c =>
  (c.ctrlTake port.val 10 fr fun d _ c => c.leaveRx d).flush
/-- PEER_LOSS (R524): members `a` and `b` have had no in-service port between them for GNG_LOSS.MS. -/
def execPeerLoss (a b : Fin 4) (s : State) : Out := s.on fun c => (c.peerLoss a.val b.val).flush
/-- CTRL_PREP (R525). -/
def execCtrlPrep (port : Fin 512) (fr : Bytes) (s : State) : Out := s.on fun c => (c.prepRx port.val fr).flush
/-- READY (R525). -/
def execReady (port : Fin 512) (fr : Bytes) (s : State) : Out := s.on fun c =>
  (c.ctrlTake port.val 6 fr fun d _ c => c.readyFrom d).flush
/-- CTRL_COMMIT (R525). -/
def execCtrlCommit (port : Fin 512) (fr : Bytes) (s : State) : Out := s.on (·.commitRx port.val fr)
/-- MAP_COMMIT (R525): time T has come. -/
def execMapCommit (s : State) : Out := s.on fun c => c.mapCommit.flush
/-- SLOT_FINAL (R525). -/
def execSlotFinal (port : Fin 512) (fr : Bytes) (s : State) : Out := s.on fun c => (c.finalRx port.val fr).flush
/-- CLEAN (R525). -/
def execClean (port : Fin 512) (fr : Bytes) (s : State) : Out := s.on fun c =>
  (c.ctrlTake port.val 7 fr fun d _ c => c.cleanFrom d).flush
/-- GANG_ITEM_OFFER (R536). -/
def execGangItemOffer (s : State) : Out := s.on Chip.gangItemOffer

/-! ### Time and resets (R539, R540) -/

/-- TSYNC_TIMER (R539). -/
def execTsyncTimer (s : State) : Out := s.on Chip.tsyncTimer
/-- TSYNC_REQ (R539). -/
def execTsyncReq (port : Fin 512) (fr : Bytes) (s : State) : Out := s.on (·.tsyncReq port.val fr)
/-- TSYNC_RESP (R539). -/
def execTsyncResp (port : Fin 512) (fr : Bytes) (s : State) : Out := s.on (·.tsyncResp port.val fr)
/-- RESET_ALL (R540). -/
def execResetAll (s : State) : Out := s.on Chip.resetAll
/-- RESET_AT (R540): the received request, refused where the policy forbids it (R580). -/
def execResetAt (port : Fin 512) (fr : Bytes) (s : State) : Out := s.on (·.resetAtRx port.val fr)

end Sys2Proof.Machine
end

