-- ==== Sys2Proof/Machine/Hbm.lean ====
section
/-! DEFINITION. The flow memory controller (R354 to R385): address mapping, requests and their order, refresh, activation
disturbance, power-down, training, rates, fences and the freeze of a channel. -/
namespace Sys2Proof.Machine
open Sys2Proof

/-! ### Addresses (R355) -/

/-- A place in the DRAM. -/
structure DramPlace where
  gpc : Nat
  bank : Nat
  row : Nat
  col : Nat
  deriving DecidableEq, Repr

/-- dram_map of the granule `g`. -/
def granPlace (g : Nat) : DramPlace :=
  let q := g / 192
  ⟨g % 192, (q / 8) % 32, q / 256, q % 8⟩

/-- Granules of an access. -/
def granules (addr len : Nat) : List Nat :=
  if len = 0 then [] else (List.range ((addr + len - 1) / 128 - addr / 128 + 1)).map (addr / 128 + ·)

/-- Global channel of an address. -/
def chanOf (addr : Nat) : Nat := (granPlace (addr / 128)).gpc / 2

/-! ### State access -/

/-- The chip with the controller's state changed. -/
def Chip.onHbm (c : Chip) (f : HbmSt → HbmSt) : Chip := { c with hbm := f c.hbm }
/-- A pseudo-channel's state. -/
def Chip.pcSt (c : Chip) (g : Nat) : PcSt := smGet (fun _ => PcSt.init) c.hbm.pcs g
/-- The chip with a pseudo-channel's state set. -/
def Chip.setPc (c : Chip) (g : Nat) (x : PcSt) : Chip := c.onHbm fun h => { h with pcs := smSet (fun _ => PcSt.init) h.pcs g x }
/-- STATE of a channel. -/
def Chip.chState (c : Chip) (ch : Nat) : Nat := c.getF F.HBM_CH_STATUS.STATE ch
/-- STATE of a stack. -/
def Chip.stkState (c : Chip) (s : Nat) : Nat := c.getF F.HBM_STK_STATUS.STATE s
/-- Channels of a stack. -/
def stackChans (s : Nat) : List Nat := (List.range 16).map (16 * s + ·)

/-- OWED of a pseudo-channel. -/
def Chip.owed (c : Chip) (g : Nat) : Nat :=
  if g % 2 = 0 then c.getF F.HBM_CH_STATUS.OWED0 (g / 2) else c.getF F.HBM_CH_STATUS.OWED1 (g / 2)
/-- The chip with OWED of a pseudo-channel set. -/
def Chip.setOwed (c : Chip) (g n : Nat) : Chip :=
  if g % 2 = 0 then c.putF F.HBM_CH_STATUS.OWED0 n (g / 2) else c.putF F.HBM_CH_STATUS.OWED1 n (g / 2)
/-- The allowance of R367. -/
def Chip.allowance (c : Chip) (g : Nat) : Nat := if c.flag F.HBM_CH_STATUS.DOUBLE (g / 2) then 4 else 8

/-- A pseudo-channel is in power-down. -/
def Chip.inPd (c : Chip) (g : Nat) : Bool :=
  if g % 2 = 0 then c.flag F.HBM_CH_STATUS.PD0 (g / 2) else c.flag F.HBM_CH_STATUS.PD1 (g / 2)
/-- The chip with a pseudo-channel's power-down bit set. -/
def Chip.setPd (c : Chip) (g : Nat) (b : Bool) : Chip :=
  let c := if g % 2 = 0 then c.putF F.HBM_CH_STATUS.PD0 (b2n b) (g / 2) else c.putF F.HBM_CH_STATUS.PD1 (b2n b) (g / 2)
  c.condEv 7 (g / 2) 6 (c.flag F.HBM_CH_STATUS.PD0 (g / 2) || c.flag F.HBM_CH_STATUS.PD1 (g / 2))

/-! ### Requests (R373, R374) -/

/-- Queue places of a port (R373). -/
def reqDepth (r : Nat) : Nat := match r with | 2 => 256 | 3 => 256 | 4 => 256 | 5 => 128 | 7 => 4 | _ => 64
/-- Ports of a requestor. -/
def reqPorts (r : Nat) : Nat := match r with | 0 => 128 | 1 => 128 | 2 => 16 | 7 => 6 | _ => 1

/-- HBM_REQ_QUEUED follows the queues. -/
def Chip.showQueued (c : Chip) (r : Nat) : Chip :=
  c.putF F.HBM_REQ_QUEUED.V (c.hbm.queue.filter (fun q => q.req == r)).length r

/-- Urgency of a request (R374). -/
def Chip.urgency (c : Chip) (q : DramReq) : Nat :=
  let t := c.getF F.HBM_REQ_TARGET.V q.req * 10
  let a := c.mt - q.since
  if 2 * a < t then 0 else if 4 * a < 3 * t then 1 else if a < t then 2 else 3

/-- A pseudo-channel holds a request. -/
def Chip.pcBusy (c : Chip) (g : Nat) : Bool := c.hbm.queue.any (fun q => q.left.any (fun x => x % 192 == g))

/-- A write completed with ERROR is kept for the recovery of its channel (R379, R603). -/
def Chip.loseWrite (c : Chip) (ch : Nat) (q : DramReq) : Chip :=
  if q.write then c.onHbm fun h => { h with lost := h.lost ++ [(ch, q.addr, q.len)] } else c

/-- Channels an access touches. -/
def chansOf (addr len : Nat) : List Nat := ((granules addr len).map (fun g => g % 192 / 2)).eraseDups

/-- A channel completes every request with ERROR: frozen, stopped or failed. -/
def Chip.chErr (c : Chip) (ch : Nat) : Bool := c.chState ch == 2 || c.chState ch == 3 || c.chState ch == 4

/-- A request is accepted (R373); a full port stalls its requestor. A request to a frozen channel completes with ERROR at once
(R379). (log entry 100 DESIGN CHOICE.) -/
def Chip.dramRequest (c : Chip) (r port addr len : Nat) (write : Bool) (data : Bytes) : Chip :=
  if reqDepth r ≤ (c.hbm.queue.filter (fun q => q.req == r && q.port == port)).length then c
  else
    let q : DramReq := { id := c.hbm.nextId, req := r, port := port, addr := addr, len := len, write := write, data := data
                         since := c.mt, left := granules addr len }
    let c := c.onHbm fun h => { h with nextId := h.nextId + 1 }
    match (chansOf addr len).find? (fun ch => c.chErr ch) with
    | some ch => c.loseWrite ch q
    | none => (c.onHbm fun h => { h with queue := h.queue ++ [q] }).showQueued r

/-! ### Freeze (R379) -/

/-- Every queued request of a channel completes with ERROR. -/
def Chip.failQueue (c : Chip) (ch : Nat) : Chip :=
  let mine (q : DramReq) : Bool := (chansOf q.addr q.len).contains ch
  let gone := c.hbm.queue.filter mine
  let c := c.onHbm fun h => { h with queue := h.queue.filter (fun q => !mine q), fence := h.fence.filter (fun i => !gone.any (fun q => q.id == i)) }
  let c := gone.foldl (fun c q => c.loseWrite ch q) c
  (List.range 8).foldl (fun c r => c.showQueued r) c

/-- The history of a channel goes into its registers. -/
def Chip.showHist (c : Chip) (ch : Nat) : Chip :=
  ((smGet (fun _ => []) c.hbm.hist ch).zipIdx).foldl (fun c (x : DramCmd × Nat) =>
    let c := c.putF F.HBM_CH_HIST.all (x.1.cmd * 2 ^ 28 + x.1.pc * 2 ^ 27 + x.1.bank * 2 ^ 22 + x.1.row * 2 ^ 7 + x.1.col * 2 ^ 4) ch x.2
    c.putF F.HBM_CH_HIST_AGE.V (min 0xFFFF ((c.mt - x.1.time) * 1000 / 625)) ch x.2) c

/-- A channel freezes with a fault of a type at an address (R379). A frozen channel only notes the overflow. -/
def Chip.freeze (c : Chip) (ch type addr req syn : Nat) : Chip :=
  if c.chState ch = 2 then c.putF F.HBM_CH_CAP3.OVERFLOW 1 ch
  else
    let p := granPlace (addr / 128)
    let c := (c.failQueue ch).showHist ch
    let c := c.putQ F.HBM_CH_CAP_TIME.V c.dtw ch
    let c := (c.putF F.HBM_CH_CAP2.ADDR_LO (addr % 2 ^ 32) ch).putF F.HBM_CH_CAP3.all
      ((p.gpc % 2) * 2 ^ 20 + req * 2 ^ 16 + type * 2 ^ 8 + addr / 2 ^ 32 % 64) ch
    let c := c.putF F.HBM_CH_CAP4.all (p.bank * 2 ^ 27 + p.row * 2 ^ 12 + p.col) ch
    let c := c.putF F.HBM_CH_CAP5.SYNDROME syn ch
    let c := c.putF F.HBM_CH_STATUS.STATE 2 ch
    let c := ((c.setPd (2 * ch) false).setPd (2 * ch + 1) false).condEv 7 ch 7 false
    ((c.bump F.HBM_STATUS.FROZEN).putF F.HBM_STATUS.LAST_FROZEN ch).raise F.HBM_EVENTS.FREEZE

/-! ### Commands of a pseudo-channel (R367, R370, R374, R375) -/

/-- A command goes into the history of its channel. -/
def Chip.record (c : Chip) (g cmd bank row col : Nat) : Chip :=
  let x : DramCmd := ⟨cmd, g % 2, bank, row, col, c.mt⟩
  c.onHbm fun h => { h with hist := smPut h.hist (g / 2) ((x :: smGet (fun _ => []) h.hist (g / 2)).take 16) }

/-- A refresh of a pseudo-channel: rows closed, tables cleared after every 8,192 (R370). -/
def Chip.refresh (c : Chip) (g : Nat) : Chip :=
  let x := c.pcSt g
  let x := { x with rows := [], refs := if 8191 ≤ x.refs then 0 else x.refs + 1, act := if 8191 ≤ x.refs then [] else x.act }
  ((c.setPc g x).record g 4 0 0 0).signal 7 (g / 2) 3

/-- The lowest CNT of a table and its first index, ROW and CNT. -/
def lowestCnt (t : List (Nat × Nat)) : Nat × Nat :=
  t.zipIdx.foldl (fun (b : Nat × Nat) (e : (Nat × Nat) × Nat) => if e.1.2 < b.2 then (e.2, e.1.2) else b) (0, (t.headD (0, 0)).2)

/-- on_activate of R370 on a bank's table; the flag: neighbours are to be refreshed. -/
def onActivate (t : List (Nat × Nat)) (row thresh : Nat) : List (Nat × Nat) × Bool :=
  let i := (t.findIdx? (fun e => e.1 == row)).getD (lowestCnt t).1
  let n := (t.getD i (0, 0)).2 + 1
  if thresh ≤ n then (t.set i (row, (lowestCnt (t.eraseIdx i)).2), true) else (t.set i (row, n), false)

/-- A bank's activate table. -/
def PcSt.table (x : PcSt) (bank : Nat) : List (Nat × Nat) := smGet (fun _ => List.replicate 16 (0, 0)) x.act bank

/-- An activate of a row. -/
def Chip.activate (c : Chip) (g bank row : Nat) : Chip :=
  let x := c.pcSt g
  let r := onActivate (x.table bank) row (c.getF F.HBM_RH_THRESH.V)
  let near := (if r.2 then [row - 2, row - 1, row + 1, row + 2] else []).filter (fun y => y != row && decide (y < 24576)
    && decide (row ≤ y + 2))
  let x := { x with
    rows := smPut x.rows bank (row, 0)
    act := smSet (fun _ => List.replicate 16 (0, 0)) x.act bank r.1
    nrr := x.nrr ++ near.eraseDups.map (fun y => (bank, y)) }
  (c.setPc g x).record g 0 bank row 0

/-- A queued neighbour refresh of a bank is issued. -/
def Chip.neighbour (c : Chip) (g bank row : Nat) : Chip :=
  let x := c.pcSt g
  let c := c.setPc g { x with nrr := x.nrr.erase (bank, row), rows := smErase x.rows bank }
  ((c.record g 5 bank row 0).bump F.HBM_CH_CNT_NRR.V (g / 2)).signal 7 (g / 2) 4

/-- Bytes of an access in a granule. -/
def granBytes (addr len g : Nat) : Nat := min (addr + len) (128 * g + 128) - max addr (128 * g)

/-- A read or write command of a request's granule. -/
def Chip.burst (c : Chip) (q : DramReq) (gr : Nat) : Chip :=
  let p := granPlace gr
  let x := c.pcSt p.gpc
  let n := (smGet (fun _ => (0, 0)) x.rows p.bank).2 + 1
  let c := c.setPc p.gpc { x with rows := smPut x.rows p.bank (p.row, n) }
  let c := c.onHbm fun h => { h with queue := h.queue.map (fun y => if y.id = q.id then { y with left := y.left.erase gr } else y) }
  (c.record p.gpc (if q.write then 2 else 1) p.bank p.row p.col).signal 7 (p.gpc / 2) (if q.write then 2 else 1)
    ((granBytes q.addr q.len gr + 31) / 32)

/-- Candidates of a pseudo-channel: request and granule, oldest first. -/
def Chip.cands (c : Chip) (g : Nat) (write : Bool) : List (DramReq × Nat) :=
  (c.hbm.queue.filter (fun q => q.write == write)).filterMap (fun q => (q.left.find? (fun x => x % 192 == g)).map (fun x => (q, x)))

/-- A candidate's row is open and may be served (R374 step 4). -/
def Chip.rowHit (c : Chip) (others : Bool) (gr : Nat) : Bool :=
  let p := granPlace gr
  match smFind (c.pcSt p.gpc).rows p.bank with
  | some (row, n) => row == p.row && !(decide (16 ≤ n) && others)
  | none => false

/-- The choice of R374 steps 3 to 5. -/
def Chip.chooseReq (c : Chip) (l : List (DramReq × Nat)) : Option (DramReq × Nat) :=
  let top := l.foldl (fun m x => max m (c.urgency x.1)) 0
  let l := l.filter (fun x => c.urgency x.1 == top)
  match l.find? (fun x => c.rowHit (decide (1 < l.length)) x.2) with
  | some x => some x
  | none => l.head?

/-- The next command towards a request: a neighbour refresh of its bank, precharge, activate, or the burst. -/
def Chip.advance (c : Chip) (q : DramReq) (gr : Nat) : Chip :=
  let p := granPlace gr
  let x := c.pcSt p.gpc
  match smFind x.rows p.bank with
  | some (row, _) =>
    if row = p.row then c.burst q gr
    else (c.setPc p.gpc { x with rows := smErase x.rows p.bank }).record p.gpc 3 p.bank row 0
  | none => match x.nrr.find? (fun e => e.1 == p.bank) with
    | some (b, r) => c.neighbour p.gpc b r
    | none => c.activate p.gpc p.bank p.row

/-- DRAM_COMMAND_SLOT (R374). (log entry 100 DESIGN CHOICE.) -/
def Chip.dramSlot (c : Chip) (g : Nat) : Chip :=
  let ch := g / 2
  let st := c.chState ch
  let x := c.pcSt g
  if st = 5 ∨ c.stkState (ch / 16) = 4 then c
  else if 0 < x.must then (c.setPc g { x with must := x.must - 1 }).refresh g
  else if 0 < x.batch then (c.setPc g { x with batch := x.batch - 1 }).refresh g
  else if st ≠ 0 ∨ c.stkState (ch / 16) = 2 ∨ c.inPd g then c
  else
    let ws := c.cands g true
    let rs := c.cands g false
    let urgent := ws.any (fun w => decide (2 ≤ c.urgency w.1))
    let drain := if decide (48 ≤ ws.length) || urgent then true else if ws.length ≤ 16 then false else x.drain
    let c := c.setPc g { x with drain := drain }
    match c.chooseReq (if drain then ws else rs) with
    | some (q, gr) => c.advance q gr
    | none =>
      if rs.isEmpty && ws.isEmpty && decide (0 < c.owed g) then (c.setOwed g (c.owed g - 1)).refresh g else c

/-- REFRESH_DUE (R367, R369). -/
def Chip.refreshDue (c : Chip) (g : Nat) : Chip :=
  let x := c.pcSt g
  if c.chState (g / 2) = 5 then c
  else if 0 < x.batch then c.setPc g { x with batch := x.batch + 1 }
  else if !c.hbm.queue.any (fun q => q.left.any (fun y => y % 192 == g) && decide (1 ≤ c.urgency q)) then
    (c.setPd g false).refresh g
  else if c.allowance g ≤ c.owed g then c.setPc g { x with must := x.must + 1 }
  else c.setOwed g (c.owed g + 1)

/-! ### Completion (R359, R374 to R377) -/

/-- 64-byte lines of an access overlap. -/
def sameLine (a n b m : Nat) : Bool := decide (a / 64 ≤ (b + m - 1) / 64) && decide (b / 64 ≤ (a + n - 1) / 64)

/-- Requestors that count as one for R377: REQ0 and REQ1 of an engine. -/
def reqKey (q : DramReq) : Nat × Nat := (if q.req = 1 then 0 else q.req, if q.req ≤ 1 then q.port else 0)

/-- What a read returns: memory with the writes buffered ahead of it (R375). -/
def Chip.readThrough (c : Chip) (q : DramReq) : Bytes :=
  memRead ((c.hbm.queue.filter (fun w => w.write && decide (w.id < q.id))).foldl (fun m w => memWrite m w.addr w.data) c.dram) q.addr q.len

/-- A completed request leaves; its latency is recorded. -/
def Chip.retireReq (c : Chip) (q : DramReq) : Chip :=
  let lat := min (2 ^ 24 - 1) (c.mt - q.since)
  let c := c.onHbm fun h => { h with queue := h.queue.filter (fun y => y.id != q.id), fence := h.fence.filter (· != q.id) }
  let c := c.showQueued q.req
  let c := if c.getF F.HBM_REQ_LAT_MAX.V q.req < lat then c.putF F.HBM_REQ_LAT_MAX.V lat q.req else c
  if c.getF F.HBM_REQ_TARGET.V q.req * 10 < lat then c.bump F.HBM_REQ_CNT_LATE.V q.req else c

/-- A corrected read (R359). -/
def Chip.corrected (c : Chip) (addr : Nat) : Chip :=
  let ch := chanOf addr
  let c := ((c.bump F.HBM_CNT_CORR.V).bump F.HBM_CH_CNT_CORR.V ch).raise F.HBM_EVENTS.CORR
  (c.onHbm fun h => { h with scrubQ := h.scrubQ ++ [addr / 64 * 64] }).signal 7 ch 5

/-- An uncorrectable line freezes its channel. (log entry 101 DEDUCED.) -/
def Chip.lineBad (c : Chip) (type addr req syn : Nat) : Chip :=
  (c.onHbm fun h => { h with bad := h.bad ++ [(chanOf addr, addr / 64 * 64)] }).freeze (chanOf addr) type addr req syn

/-- DRAM_COMPLETION of request `id`: `ecc` 0 good, 1 corrected, 2 uncorrectable with a syndrome. A request waits for an
earlier one of its requestor to the same line (R377). (log entry 100 DESIGN CHOICE.) -/
def Chip.dramComplete (c : Chip) (id ecc syn : Nat) : Chip :=
  match c.hbm.queue.find? (fun q => q.id == id) with
  | none => c
  | some q =>
    if !q.left.isEmpty
        || c.hbm.queue.any (fun y => decide (y.id < id) && reqKey y == reqKey q && sameLine y.addr y.len q.addr q.len) then c
    else if q.write then (c.dramWrite q.addr q.data).retireReq q
    else if ecc = 2 then (c.retireReq q).lineBad (if q.req = 7 then 2 else 1) q.addr q.req syn
    else
      let d := c.readThrough q
      let c := (c.onHbm fun h => { h with lastData := d }).retireReq q
      if ecc = 1 then c.corrected q.addr else c

/-- STACK_PARITY_ERROR (R379): type 3 command, 4 write data. -/
def Chip.parityError (c : Chip) (ch : Nat) (wr : Bool) (addr syn : Nat) : Chip := c.freeze ch (if wr then 4 else 3) addr 0 syn

/-- SCRUB_READ (R360): a waiting rewrite first, else the next line of the pass. -/
def Chip.scrubRead (c : Chip) (ecc syn : Nat) : Chip :=
  match c.hbm.scrubQ with
  | a :: rest =>
    let c := c.onHbm fun h => { h with scrubQ := rest }
    if c.hbm.queue.any (fun q => q.write && sameLine q.addr q.len a 64) then c else c.bump F.HBM_CNT_SCRUB_FIX.V
  | [] =>
    if !c.flag F.HBM_CTRL.SCRUB_EN then c
    else
      let a := c.hbm.scrubPos
      let c := c.onHbm fun h => { h with scrubPos := (a + 64) % 0x2400000000 }
      if c.chState (chanOf a) ≠ 0 then c
      else match ecc with
        | 0 => c
        | 1 => c.corrected a
        | _ => c.lineBad 2 a 7 syn

/-! ### Temperature (R368, R369) -/

/-- Every pseudo-channel of a stack issues what it owes as a batch. -/
def Chip.hotBatch (c : Chip) (s : Nat) : Chip :=
  (List.range 32).foldl (fun c i =>
    let g := 32 * s + i
    if c.chState (g / 2) = 5 then c
    else
      let x := c.pcSt g
      (c.setPc g { x with rows := [], batch := x.batch + min 8 (c.owed g) }).setOwed g 0) c

/-- TEMP_READING of a stack, signed °C. -/
def Chip.tempReading (c : Chip) (s : Nat) (t : BitVec 8) : Chip :=
  let was := c.flag F.HBM_STK_STATUS.HOT s
  let v := t.toInt
  let hot := if ((c.getF F.HBM_REF_TEMP.HOT : Nat) : Int) ≤ v then true
    else if v < ((c.getF F.HBM_REF_TEMP.COOL : Nat) : Int) then false else was
  let c := (c.putF F.HBM_STK_STATUS.TEMP t.toNat s).putF F.HBM_STK_STATUS.TEMP_VALID 1 s
  let c := c.putF F.HBM_STK_STATUS.HOT (b2n hot) s
  let c := if hot && !was then (c.hotBatch s).raise F.HBM_EVENTS.HOT else c
  let c := if was && !hot then c.raise F.HBM_EVENTS.COOL else c
  (stackChans s).foldl (fun c ch => c.putF F.HBM_CH_STATUS.DOUBLE (b2n hot) ch) c

/-! ### Power-down and self-refresh (R371, R372) -/

/-- POWER_DOWN_ENTRY. -/
def Chip.pdEnter (c : Chip) (g : Nat) : Chip :=
  let x := c.pcSt g
  if c.chState (g / 2) ≠ 0 ∨ c.pcBusy g ∨ 0 < x.must + x.batch then c else c.setPd g true

/-- POWER_DOWN_EXIT. -/
def Chip.pdExit (c : Chip) (g : Nat) : Chip := if c.inPd g then c.setPd g false else c

/-- SELF_REFRESH_ENTRY: every refresh owed is paid first (R367). -/
def Chip.srEnter (c : Chip) (ch : Nat) : Chip :=
  if !c.flag F.HBM_CTRL.SR_EN || c.chState ch != 0 || c.pcBusy (2 * ch) || c.pcBusy (2 * ch + 1) then c
  else
    let pay (c : Chip) (g : Nat) : Chip := ((List.range (c.owed g)).foldl (fun c _ => c.refresh g) c).setOwed g 0
    let c := pay (pay c (2 * ch)) (2 * ch + 1)
    (((c.setPd (2 * ch) false).setPd (2 * ch + 1) false).putF F.HBM_CH_STATUS.STATE 5 ch).condEv 7 ch 7 true

/-- A stack refreshes at double rate until its next reading (R368). -/
def Chip.srLeft (c : Chip) (ch : Nat) : Chip :=
  (c.putF F.HBM_CH_STATUS.DOUBLE 1 ch).putF F.HBM_STK_STATUS.TEMP_VALID 0 (ch / 16)

/-- SELF_REFRESH_EXIT. -/
def Chip.srExit (c : Chip) (ch : Nat) : Chip :=
  if c.chState ch ≠ 5 then c else ((c.putF F.HBM_CH_STATUS.STATE 0 ch).srLeft ch).condEv 7 ch 7 false

/-! ### Training (R361 to R364) -/

/-- The longest run of passing codes of a sweep, the lowest of equals: first code and length. -/
def longestRun (mask : Nat) : Nat × Nat :=
  let r := (List.range 129).foldl (fun (s : (Nat × Nat) × (Nat × Nat)) d =>
    if decide (d < 128) && bitOf d mask then ((s.1.1, s.1.2 + 1), s.2)
    else ((d + 1, 0), if s.2.2 < s.1.2 then s.1 else s.2)) ((0, 0), (0, 0))
  r.2

/-- train_lane: RIGHT, LEFT and DLY as their register word; none: FAIL. -/
def trainLane (mask : Nat) : Option Nat :=
  let r := longestRun mask
  if r.2 < 16 then none
  else
    let right := r.1 + r.2 - 1
    some (right * 2 ^ 16 + r.1 * 2 ^ 8 + (r.1 + right) / 2)

/-- A stack may start a change of rate: every channel up or in self-refresh (R366). -/
def Chip.mayChange (c : Chip) (s : Nat) : Bool :=
  c.stkState s == 0 && (stackChans s).all (fun ch => c.chState ch == 0 || c.chState ch == 5)

/-- A change of rate begins (R365). -/
def Chip.startChange (c : Chip) (s rate : Nat) : Chip :=
  let c := (c.putF F.HBM_STK_STATUS.STATE 2 s).putF F.HBM_STK_STATUS.PENDING 0 s
  c.onHbm fun h => { h with changing := smPut h.changing s rate }

/-- A pending change begins when the stack allows it. -/
def Chip.tryPending (c : Chip) (s : Nat) : Chip :=
  if c.flag F.HBM_STK_STATUS.PENDING s && c.mayChange s then c.startChange s (c.getF F.HBM_STK_STATUS.RATE_PEND s) else c

/-- A change of rate is requested of a stack (R365, R366). -/
def Chip.rateWant (c : Chip) (s rate : Nat) : Chip :=
  if c.flag F.HBM_STK_STATUS.PENDING s || !c.mayChange s then
    (if !c.flag F.HBM_STK_STATUS.PENDING s && c.stkState s == 0 && rate == c.getF F.HBM_STK_STATUS.RATE_CUR s then c
     else (c.putF F.HBM_STK_STATUS.PENDING 1 s).putF F.HBM_STK_STATUS.RATE_PEND rate s)
  else if rate = c.getF F.HBM_STK_STATUS.RATE_CUR s then c
  else c.startChange s rate

/-- RATE_CHANGE: a host write of HBM_STK_CTRL.RATE, which a trip in force only stores (R584). -/
def Chip.rateChange (c : Chip) (s rate : Nat) : Chip :=
  let c := c.putF F.HBM_STK_CTRL.RATE rate s
  if c.tripped then c else c.rateWant s rate

/-- FREQ_DONE: the change and its retraining are complete. -/
def Chip.freqDone (c : Chip) (s : Nat) : Chip :=
  match smFind c.hbm.changing s with
  | none => c
  | some rate =>
    let c := c.onHbm fun h => { h with changing := smErase h.changing s }
    let c := (c.putF F.HBM_STK_STATUS.RATE_CUR rate s).putF F.HBM_STK_STATUS.STATE 0 s
    let c := (stackChans s).foldl (fun c ch =>
      let c := ((c.setOwed (2 * ch) 0).setOwed (2 * ch + 1) 0).srLeft ch
      (c.putF F.HBM_CH_STATUS.STATE 0 ch).condEv 7 ch 7 false) c
    (c.raise F.HBM_EVENTS.FREQ_DONE).tryPending s

/-- TRAIN: the channels of a stack that serve requests train. -/
def Chip.trainStack (c : Chip) (s : Nat) : Chip :=
  if c.stkState s = 2 then c
  else
    let c := c.putF F.HBM_STK_STATUS.STATE 1 s
    (stackChans s).foldl (fun c ch => if c.chState ch = 2 ∨ c.chState ch = 3 then c
      else ((c.putF F.HBM_CH_STATUS.STATE 1 ch).setPd (2 * ch) false).setPd (2 * ch + 1) false) c

/-- A stack whose channels have ended training leaves TRAINING. -/
def Chip.stackTrained (c : Chip) (s : Nat) : Chip :=
  if c.stkState s ≠ 1 ∨ (stackChans s).any (fun ch => c.chState ch == 1) then c
  else
    let failed := (stackChans s).any (fun ch => c.chState ch == 4)
    let c := c.putF F.HBM_STK_STATUS.STATE (if failed then 3 else 0) s
    let c := c.putF F.HBM_STATUS.TRAINED (setBitsOf s s (c.getF F.HBM_STATUS.TRAINED) (b2n (!failed)))
    c.tryPending s

/-- The delays that a channel's training writes, and whether every lane passed: passing codes of its last attempt for lanes (p, l)
in order 4p + l, read sweeps then write sweeps (R362). (log entry 52 DEDUCED.) -/
def Chip.trainResult (c : Chip) (ch : Nat) (masks : List Nat) : Bool × Chip :=
  let rd := (List.range 8).map (fun i => trainLane (masks.getD i 0))
  let wr := (List.range 8).map (fun i => trainLane (masks.getD (8 + i) 0))
  let put (c : Chip) (f : Fld) (l : List (Option Nat)) : Chip :=
    l.zipIdx.foldl (fun c (x : Option Nat × Nat) => match x.1 with | some w => c.putF f w ch x.2 | none => c) c
  (!(rd ++ wr).any Option.isNone, put (put c F.HBM_CH_TRN_RD.all rd) F.HBM_CH_TRN_WR.all wr)

/-- TRAINING_DONE of a channel (R362, R363); outside a full load a failure leaves it frozen with RETRAIN_FAIL. -/
def Chip.trainingDone (c : Chip) (ch : Nat) (masks : List Nat) : Chip :=
  if c.chState ch ≠ 1 then c
  else
    let r := c.trainResult ch masks
    if r.1 then (r.2.putF F.HBM_CH_STATUS.STATE 0 ch).stackTrained (ch / 16)
    else ((r.2.freeze ch 5 0 0 0).raise F.HBM_EVENTS.TRAIN_FAIL).stackTrained (ch / 16)

/-- DLY moved by at most 1 towards the centre of the passing codes among DLY − 4 to DLY + 4 (bit 4 of the mask is DLY). -/
def trackStep (dly mask : Nat) : Nat :=
  let ok := (List.range 9).filter (fun i => bitOf i mask)
  match ok.head?, ok.getLast? with
  | some a, some b => if 8 < a + b then min 127 (dly + 1) else if a + b < 8 then dly - 1 else dly
  | _, _ => dly

/-- TRACKING_RUN of a pseudo-channel (R364): masks of its 4 lanes, read then write. -/
def Chip.tracking (c : Chip) (g : Nat) (masks : List Nat) : Chip :=
  if !c.flag F.HBM_CTRL.TRACK_EN || c.chState (g / 2) != 0 then c
  else (List.range 4).foldl (fun c l =>
    let j := 4 * (g % 2) + l
    let c := c.putF F.HBM_CH_TRN_RD.DLY (trackStep (c.getF F.HBM_CH_TRN_RD.DLY (g / 2) j) (masks.getD l 0)) (g / 2) j
    c.putF F.HBM_CH_TRN_WR.DLY (trackStep (c.getF F.HBM_CH_TRN_WR.DLY (g / 2) j) (masks.getD (4 + l) 0)) (g / 2) j) c

/-- A frozen channel is released (R380): re-centred, it resumes service; else it stays frozen with TYPE 5. -/
def Chip.releaseCh (c : Chip) (ch : Nat) (ok : Bool) : Chip :=
  if c.chState ch ≠ 2 then c
  else if ok then
    let c := c.onHbm fun h => { h with lost := h.lost.filter (fun x => x.1 != ch), bad := h.bad.filter (fun x => x.1 != ch) }
    ((c.putF F.HBM_CH_STATUS.STATE 0 ch).sink F.HBM_STATUS.FROZEN).tryPending (ch / 16)
  else c.putF F.HBM_CH_CAP3.TYPE 5 ch

/-- RELEASE by the host: a channel held stopped restarts by a stop-bath only (R380). -/
def Chip.hostRelease (c : Chip) (ch : Nat) (ok : Bool) : Chip :=
  if c.recov.any (fun r => r.kind == 5 && r.inst == ch && r.state == 3) then c else c.releaseCh ch ok

/-! ### Fences (R378) -/

/-- FENCE: HBM_FENCE.GO with a mask. -/
def Chip.fence (c : Chip) (mask : Nat) : Chip :=
  if c.flag F.HBM_FENCE.RUNNING then c
  else
    let c := (c.putF F.HBM_FENCE.MASK mask).putF F.HBM_FENCE.RUNNING 1
    c.onHbm fun h => { h with fence := (h.queue.filter (fun q => bitOf q.req mask)).map (fun q => q.id) }

/-- FENCE_DONE: every request the fence waits for has been performed. -/
def Chip.fenceDone (c : Chip) : Chip :=
  if c.flag F.HBM_FENCE.RUNNING && c.hbm.fence.isEmpty then (c.putF F.HBM_FENCE.RUNNING 0).raiseDone F.HBM_FENCE.DONE else c

end Sys2Proof.Machine
end

