-- ==== Sys2Proof/Machine/HbmExec.lean ====
section
/-! DEFINITION. Commands of the flow memory controller (R354 to R380). -/
namespace Sys2Proof.Machine
open Sys2Proof

/-- Lines that a command has reported uncorrectable break the watches on them (R315). (log entry 101 DEDUCED.) -/
def Chip.watchBad (c : Chip) (f : Chip → Chip) : Chip :=
  let c1 := f c
  (c1.hbm.bad.drop c.hbm.bad.length).foldl (fun c b => c.breakWatch none b.2 64) c1

/-- DRAM_REQUEST (R373): requestor `req` hands an access to its port; `data` for a write. -/
def execDramRequest (req : Fin 8) (port addr len : Nat) (write : Bool) (data : Bytes) (s : State) : Out :=
  s.on (·.dramRequest req.val port addr len write (sliceB data 0 len))
/-- DRAM_COMMAND_SLOT (R374): a pseudo-channel may issue a command. -/
def execDramCommandSlot (pc : Fin 192) (s : State) : Out := s.on (·.dramSlot pc.val)
/-- DRAM_COMPLETION (R373, R359): `ecc`: 0 good, 1 corrected, 2 uncorrectable. -/
def execDramCompletion (id : Nat) (ecc : Fin 3) (syn : Nat) (s : State) : Out := s.on fun c =>
  c.watchBad (·.dramComplete id ecc.val syn)
/-- STACK_PARITY_ERROR (R359, R379): of a command, or of write data. -/
def execStackParityError (ch : Fin 96) (wr : Bool) (addr syn : Nat) (s : State) : Out :=
  s.on (·.parityError ch.val wr addr syn)
/-- REFRESH_DUE (R367). -/
def execRefreshDue (pc : Fin 192) (s : State) : Out := s.on (·.refreshDue pc.val)
/-- TEMP_READING (R368): signed °C. -/
def execTempReading (stack : Fin 6) (t : BitVec 8) (s : State) : Out := s.on (·.tempReading stack.val t)
/-- SCRUB_READ (R360). -/
def execScrubRead (ecc : Fin 3) (syn : Nat) (s : State) : Out := s.on fun c => c.watchBad (·.scrubRead ecc.val syn)
/-- TRAIN (R361). -/
def execTrain (stack : Fin 6) (s : State) : Out := s.on (·.trainStack stack.val)
/-- TRAINING_DONE (R362, R363): passing delay codes of each lane's last attempt, bit d for code d: 8 read sweeps, then 8
write sweeps. -/
def execTrainingDone (ch : Fin 96) (masks : List Nat) (s : State) : Out := s.on (·.trainingDone ch.val masks)
/-- TRACKING_RUN (R364): codes DLY − 4 to DLY + 4 that pass: 4 lanes read, 4 lanes write. -/
def execTrackingRun (pc : Fin 192) (masks : List Nat) (s : State) : Out := s.on (·.tracking pc.val masks)
/-- RATE_CHANGE (R365): a write of HBM_STK_CTRL.RATE. -/
def execRateChange (stack : Fin 6) (rate : Fin 4) (s : State) : Out := s.on (·.rateChange stack.val rate.val)
/-- FREQ_DONE (R365). -/
def execFreqDone (stack : Fin 6) (s : State) : Out := s.on (·.freqDone stack.val)
/-- POWER_DOWN_ENTRY (R371). -/
def execPowerDownEntry (pc : Fin 192) (s : State) : Out := s.on (·.pdEnter pc.val)
/-- POWER_DOWN_EXIT (R371). -/
def execPowerDownExit (pc : Fin 192) (s : State) : Out := s.on (·.pdExit pc.val)
/-- SELF_REFRESH_ENTRY (R372). -/
def execSelfRefreshEntry (ch : Fin 96) (s : State) : Out := s.on (·.srEnter ch.val)
/-- SELF_REFRESH_EXIT (R372). -/
def execSelfRefreshExit (ch : Fin 96) (s : State) : Out := s.on (·.srExit ch.val)
/-- RELEASE (R380): the host releases a frozen channel; `ok`: its lanes are re-centred. -/
def execRelease (ch : Fin 96) (ok : Bool) (s : State) : Out := s.on (·.hostRelease ch.val ok)
/-- FENCE (R378): a write of HBM_FENCE with GO. -/
def execFence (mask : Fin 256) (s : State) : Out := s.on (·.fence mask.val)
/-- FENCE_DONE (R378). -/
def execFenceDone (s : State) : Out := s.on Chip.fenceDone

end Sys2Proof.Machine
end

