-- ==== Sys2Proof/Machine/Host.lean ====
section
/-! DEFINITION. The host interface (R493 to R514): access errors, the DRAM window, rings, injection and its resets. -/
namespace Sys2Proof.Machine
open Sys2Proof

/-- An HST_ERR_CAUSE bit is raised; the address of the first error is captured (R512). SPACE: 0 BAR0, 1 BAR2, 2 DMA.
(log entry 42 DEDUCED.) -/
def Chip.hostErr (c : Chip) (f : Fld) (space addr : Nat) : Chip :=
  let c := if c.getF F.HST_ERR_CAUSE.all = 0 then c.putQ F.HST_ERR_ADDR.V (space * 2 ^ 62 + addr % 2 ^ 62) else c
  c.raise f

/-! ### DRAM window (R495, R496) -/

/-- Device address of a BAR2 offset. -/
def Chip.winAddr (c : Chip) (o : Nat) : Nat := c.getF F.HST_WIN_BASE.BASE_GIB * 2 ^ 30 + o

/-- The Plate staging area and the reserved area it begins (R357). -/
def stageBase : Nat := 0x2380000000
def stageLen : Nat := 0x10000000
def reservedEnd : Nat := 0x2400000000
/-- The training area (R362). -/
def trainBase : Nat := 0x23F0000000

/-- The host may not write the byte: in the reserved area outside the staging area. -/
def inReserved (a : Nat) : Bool := decide (stageBase + stageLen ≤ a) && decide (a < reservedEnd)

/-- The byte lies in the flow table. -/
def Chip.inFlowTable (c : Chip) (a : Nat) : Bool := c.flowPresent && decide (c.tagBase ≤ a) && decide (a < c.tableEnd)

/-- BAR2_READ. Bytes of the training area hold no stated data: free values. -/
def Chip.bar2Read (c : Chip) (o n : Nat) : Chip :=
  let a := c.winAddr o
  let free := c.freeNat
  let bs := (List.range n).map (fun k =>
    if trainBase ≤ a + k then BitVec.ofNat 8 (free / 2 ^ (8 * k)) else memByte c.dram (a + k))
  let c := { c with host := { c.host with rdBytes := bs }, rdData := BitVec.ofNat 64 (leNat bs) }
  if trainBase < a + n then c.useFree else c

/-- One byte of a BAR2 write. (log entry 42 DEDUCED.) -/
def Chip.bar2Byte (c : Chip) (o : Nat) (b : Byte) : Chip :=
  let a := c.winAddr o
  if inReserved a then c.hostErr F.HST_ERR_CAUSE.WIN_RESERVED 1 o
  else if c.inFlowTable a then c.hostErr F.HST_ERR_CAUSE.WIN_FLOW_AREA 1 o
  else c.dramWrite a [b]

/-- The bytes of a BAR2 write from an offset, in order. `en`: byte enables; a missing one counts as 1. -/
def Chip.bar2Bytes (c : Chip) : Nat → Bytes → List Bool → Chip
  | _, [], _ => c
  | o, b :: bs, en => ((if en.headD true then c.bar2Byte o b else c).bar2Bytes (o + 1) bs (en.drop 1))

/-- BAR2_WRITE (R496). -/
def Chip.bar2Write (c : Chip) (o : Nat) (bs : Bytes) (en : List Bool) : Chip :=
  (c.bar2Bytes o bs en).breakWatch none (c.winAddr o) bs.length

/-! ### Rings (R502, R508) -/

/-- RING_DOORBELL: a write of HST_RING_TAIL. -/
def Chip.doorbell (c : Chip) (n tail : Nat) : Chip :=
  if 2 ^ c.getF F.HST_RING_CFG.SIZE_LOG2 n < (tail + 2 ^ 16 - c.getF F.HST_RING_HEAD.V n) % 2 ^ 16 then
    c.hostErr F.HST_ERR_CAUSE.RING_OVERPOST 0 (F.HST_RING_TAIL.V.addr n)
  else c.putF F.HST_RING_TAIL.V tail n

/-- RING_ENABLE: a write of HST_RING_CFG.ENABLE. -/
def Chip.ringEnable (c : Chip) (n : Nat) (b : Bool) : Chip :=
  if !b then c.stopRing n
  else if c.flag F.HST_RING_CFG.ENABLE n then c
  else
    let c := (c.putF F.HST_RING_CFG.ENABLE 1 n).putF F.HST_RING_STATUS.STOPPED 0 n
    (c.putF F.HST_RING_HEAD.V (c.getF F.HST_RING_TAIL.V n) n).setRing n RingSt.init

/-- DMA_ERROR: a descriptor fetch or buffer read of the ring fails. -/
def Chip.dmaError (c : Chip) (n : Nat) : Chip :=
  if !c.ringOn n then c
  else
    let a := c.descAt n (c.getF F.HST_RING_HEAD.V n)
    ((c.stopRing n).putF F.HST_RING_STATUS.ERROR 1 n).hostErr F.HST_ERR_CAUSE.DMA_FAULT 2 a

/-- BUS_MASTER_DISABLE: every ring stops (R513). -/
def Chip.stopRings (c : Chip) : Chip := (List.range 1024).foldl (fun c n => if c.ringOn n then c.stopRing n else c) c

/-! ### Injection (R507, R583) -/

/-- One from-host descriptor as read. -/
structure InjDesc where
  addr : Nat
  len : Nat
  sop : Bool
  eop : Bool
  info : Nat

/-- The descriptor of count `i` of a from-host ring. (log entry 6 DESIGN CHOICE.) -/
def Chip.injDesc (c : Chip) (n i : Nat) : InjDesc :=
  let b := memRead c.hostMem (c.descAt n i) 16
  { addr := leAt b 0 8, len := leAt b 8 2, sop := bitOf 1 (byteAt b 10), eop := bitOf 2 (byteAt b 10), info := leAt b 12 4 }

/-- The descriptors from count `i` to the first EOP, at most `k`; none where no EOP is posted among them. -/
def Chip.injPacket (c : Chip) (n : Nat) : Nat → Nat → List InjDesc → Option (List InjDesc)
  | 0, _, _ => none
  | k + 1, i, acc =>
    let d := c.injDesc n i
    if d.eop then some (acc ++ [d]) else c.injPacket n k (i + 1) (acc ++ [d])

/-- The packet's descriptors are written back with a status, and HEAD advances (R502, R507). -/
def Chip.injDone (c : Chip) (n st : Nat) : Nat → Chip
  | 0 => c
  | k + 1 =>
    let h := c.getF F.HST_RING_HEAD.V n
    let a := c.descAt n h + 10
    let fl := byteAt (memRead c.hostMem a 1) 0
    let c := c.hostWrite a (natLe 1 (setBitsOf 0 0 fl 1) ++ natLe 1 st)
    let c := (c.bumpWrap F.HST_RING_HEAD.V n).setRing n { c.ringSt n with done := (c.ringSt n).done + 1 }
    c.injDone n st k

/-- The ring's previous packet waits for a pipe, or for admission (R507). (log entry 41 DEDUCED.) -/
def Chip.injWaits (c : Chip) (n : Nat) : Bool :=
  c.pkts.any (fun (e : Nat × Pkt) => (e.2.src == 1 || e.2.src == 2) && e.2.srcId == n
    && (e.2.stage == .mac || (e.2.src == 2 && e.2.stage == .ready)))

/-- Number of the ring's next packet in ring order: the packets of the ring still in the device come before it. -/
def Chip.injSeq (c : Chip) (n : Nat) : Nat :=
  (c.pkts.filterMap (fun (e : Nat × Pkt) =>
    if (e.2.src == 1 || e.2.src == 2) && e.2.srcId == n then some (e.2.srcSeq + 1) else none)).foldl max 0

/-- A good packet is handed to a pipe of its port's slice (RX) or to admission (TX). -/
def Chip.injOut (c : Chip) (n mode port cls : Nat) (fr : Bytes) : Chip :=
  let seq := c.injSeq n
  if mode = 0 then c.handOver { Pkt.init 1 n port 0 c.dtw fr with srcSeq := seq }
  else c.handOver { Pkt.init 2 n port 0 c.dtw fr with
    srcSeq := seq
    stage := .ready
    res := { ClsRes.init with cls := cls, outKind := 0, out := port } }

/-- INJECT_PACKET: a from-host ring fetches its next packet (R507). (log entry 41 DEDUCED.) -/
def Chip.inject1 (c : Chip) (n : Nat) : Chip :=
  let k := min 16 (c.posted n)
  if !c.ringOn n || k = 0 || c.injWaits n then c
  else match c.injPacket n k (c.getF F.HST_RING_HEAD.V n) [] with
    | none => if k = 16 then (match c.cpTake 0 with | (true, c) => c.injDone n stInvalid 16 | (false, c) => c) else c
    | some ds =>
      let info := match ds with | d :: _ => d.info | [] => 0
      let port := info % 512
      let mode := info / 2 ^ 30
      let fr := ds.flatMap (fun (d : InjDesc) => memRead c.hostMem d.addr d.len)
      let shape := (match ds with | d :: r => d.sop && !r.any (fun (x : InjDesc) => x.sop) | [] => false)
        && ds.all (fun (d : InjDesc) => decide (1 ≤ d.len) && decide (d.len ≤ 16384))
        && decide (60 ≤ fr.length) && decide (fr.length ≤ 12284)
      if c.ingRoom (sliceOf port) + c.freeCells < cellsFor fr.length then c
      else match c.cpTake 0 with
        | (false, c) => c
        | (true, c) =>
          if !shape || decide (2 ≤ mode) || !c.portPresent port then c.injDone n stInvalid ds.length
          else if !c.polBit 0x236 (2 + mode) then (c.deniedCapture 2 (F.HST_RING_TAIL.V.addr n) 0).injDone n stDenied ds.length
          else (c.injOut n mode port (bitsOf 19 16 info) fr).injDone n stOk ds.length

/-! ### Interrupts (R511) -/

/-- MSIX_UNMASK: the vector's mask bit is cleared, and a pending message is sent. (log entry 68 DESIGN CHOICE.) -/
def Chip.unmask (c : Chip) (v : Nat) : Chip :=
  let c := c.putF F.HST_MSIX_TBL.V (setBitsOf 0 0 (c.getF F.HST_MSIX_TBL.V v 3) 0) v 3
  let w := c.getF F.HST_MSIX_PBA.V (v / 32)
  if bitOf (v % 32) w then (c.putF F.HST_MSIX_PBA.V (setBitsOf (v % 32) (v % 32) w 0) (v / 32)).message v else c

/-! ### Host interface reset (R513) -/

/-- A window has an op on its way or waiting. -/
def winAny (o : FOp) : Bool := o.kind == 5 || o.kind == 6 || o.kind == 7

/-- Host interface reset: HST registers and rings, and every window command that has not taken effect. -/
def Chip.hostReset (c : Chip) : Chip :=
  let c := { c with
    regs := c.regs.filter (fun e => decide (e.1 < 0x80000) || decide (0x100000 ≤ e.1))
    wideCap := c.wideCap.filter (fun e => decide (e.1 < 0x80000) || decide (0x100000 ≤ e.1))
    wideStage := c.wideStage.filter (fun e => decide (e.1 < 0x80000) || decide (0x100000 ≤ e.1))
    act := { c.act with reqs := c.act.reqs.filter (fun o => !winAny o) }
    host := { c.host with lastMsg := [], rings := [], win := [] } }
  c.onFlow fun f => { f with
    eng := f.eng.map (fun (e : Nat × EngSt) => (e.1, { e.2 with
      input := e.2.input.filter (fun o => !winAny o)
      station := e.2.station.filter (fun o => !winAny o) })) }

/-- HST_LINK_STATUS after the link has trained; the bits it has. -/
def linkMask : Nat := 0x00FFF000

/-- FUNDAMENTAL_RESET: PERST# is asserted. -/
def Chip.fundamentalReset (c : Chip) : Chip :=
  let c := c.hostReset
  { c with host := { c.host with perst := true } }

/-- PERST_DEASSERTED: the link trains to `link`, if VIN is present. (log entry 43 DESIGN CHOICE.) -/
def Chip.perstOff (c : Chip) (link : Nat) : Chip :=
  let c := { c with host := { c.host with perst := false } }
  if c.power.vin then c.wr F.HST_LINK_STATUS.all.base (BitVec.ofNat 32 (Nat.land link linkMask)) else c

/-- HOT_RESET: a hot reset or link down after which the link is as `link`, or an FLR, which keeps it.
(log entry 43 DESIGN CHOICE.) -/
def Chip.hotReset (c : Chip) (flr : Bool) (link : Nat) : Chip :=
  let old := (c.rd F.HST_LINK_STATUS.all.base).toNat
  c.hostReset.wr F.HST_LINK_STATUS.all.base (BitVec.ofNat 32 (if flr then old else Nat.land link linkMask))

end Sys2Proof.Machine
end

