-- ==== Sys2Proof/Machine/HostExec.lean ====
section
/-! DEFINITION. Commands of the host interface: the DRAM window, the table-access windows, rings and interrupts. -/
namespace Sys2Proof.Machine
open Sys2Proof

/-- BAR2_READ (R495): `n` bytes at an offset. -/
def execBar2Read (offset : Fin 4294967296) (n : Nat) (s : State) : Out := s.on (·.bar2Read offset.val n)
/-- BAR2_WRITE (R496): bytes at an offset, with byte enables; a missing enable counts as 1. -/
def execBar2Write (offset : Fin 4294967296) (data : Bytes) (en : List Bool) (s : State) : Out :=
  s.on (·.bar2Write offset.val data en)

/-- TW_READ (R497): a write of HST_TW_CMD with OPCODE 1. -/
def execTwRead (w : Fin 4) (table : Fin 256) (s : State) : Out := s.on fun c => (c.twCmd w.val 1 table.val).flush
/-- TW_WRITE (R497): OPCODE 2. -/
def execTwWrite (w : Fin 4) (table : Fin 256) (s : State) : Out := s.on fun c => (c.twCmd w.val 2 table.val).flush
/-- TW_DELETE (R497): OPCODE 3. -/
def execTwDelete (w : Fin 4) (table : Fin 256) (s : State) : Out := s.on fun c => (c.twCmd w.val 3 table.val).flush
/-- TW_INSERT (R497): OPCODE 4. -/
def execTwInsert (w : Fin 4) (table : Fin 256) (s : State) : Out := s.on fun c => (c.twCmd w.val 4 table.val).flush
/-- TW_TIMEOUT (R500): HST_TW_LIMIT has passed. -/
def execTwTimeout (w : Fin 4) (s : State) : Out := s.on fun c => (c.twTimeout w.val).flush

/-- RING_DOORBELL (R502). -/
def execRingDoorbell (ring : Fin 1024) (tail : Fin 65536) (s : State) : Out := s.on (·.doorbell ring.val tail.val)
/-- RING_ENABLE (R508). -/
def execRingEnable (ring : Fin 1024) (b : Bool) (s : State) : Out := s.on (·.ringEnable ring.val b)
/-- INJECT_PACKET (R507): from-host ring 512 + `ring`. -/
def execInjectPacket (ring : Fin 512) (s : State) : Out := s.on (·.inject1 (512 + ring.val))
/-- RECORD_BUFFER_TIMEOUT (R504). -/
def execRecordBufferTimeout (ring : Fin 512) (s : State) : Out := s.on fun c =>
  if c.ringOn ring.val && c.flag F.HST_RING_CFG.MODE ring.val then c.closeBuf ring.val else c
/-- RING_INTERRUPT (R508): the ring has met its coalescing count or time. -/
def execRingInterrupt (ring : Fin 1024) (s : State) : Out := s.on fun c =>
  if (c.ringSt ring.val).done = 0 then c else c.ringMessage ring.val
/-- DMA_ERROR (R508). -/
def execDmaError (ring : Fin 1024) (s : State) : Out := s.on (·.dmaError ring.val)
/-- MSIX_UNMASK (R511). -/
def execMsixUnmask (vector : Fin 2048) (s : State) : Out := s.on (·.unmask vector.val)

/-- FUNDAMENTAL_RESET (R513). -/
def execFundamentalReset (s : State) : Out := s.onAny Chip.fundamentalReset
/-- PERST_DEASSERTED (R513): `link` is HST_LINK_STATUS once the link has trained. -/
def execPerstDeasserted (link : Word) (s : State) : Out := s.onAny (·.perstOff link.toNat)
/-- HOT_RESET (R513): an FLR, or a hot reset or link down, after which HST_LINK_STATUS is `link`. -/
def execHotReset (flr : Bool) (link : Word) (s : State) : Out := s.on (·.hotReset flr link.toNat)
/-- BUS_MASTER_DISABLE (R513). -/
def execBusMasterDisable (s : State) : Out := s.on Chip.stopRings

end Sys2Proof.Machine
end

