-- ==== Sys2Proof/Machine/PortRx.lean ====
section
/-! DEFINITION. The receive side of the port complex (R113 to R116, R124, R125, R148, R389, R396), PAUSE and PFC reception
(R114) and low-power idle (R112). -/
namespace Sys2Proof.Machine
open Sys2Proof

/-! ### Ends of frames -/

/-- A copy of a packet whose tail has failed: stomped where its transmission has begun, dropped where it has not and, beside
a stomped copy, counted (R124). (log entry 38 DEDUCED.) -/
def Chip.failCopy (c : Chip) (pid : Nat) (begun : Bool) (k : Copy) : Chip :=
  match c.pkt pid with
  | none => c
  | some p =>
    if k.state = 2 then c.stompCopy pid p k 0x21
    else if begun then c.dropCopy pid k 0xD
    else
      let c := if k.state = 1 then (c.dequeue k.queue pid k.cid).subCells k.queue k.cells else c
      (c.endCopy pid k.cid).settleBindings

/-- A packet whose tail has failed leaves the device wherever it is (R116, R124). -/
def Chip.failPkt (c : Chip) (pid : Nat) : Chip :=
  match c.pkt pid with
  | none => c
  | some p =>
    let ps := c.portSt p.port
    let c := c.setPort p.port { ps with elastic := ps.elastic.filter (· != pid) }
    let c := c.setPkt pid { p with tail := 2, flen := p.flen }
    let c := p.copies.foldl (fun c k => c.failCopy pid (p.copies.any (fun x => x.state == 2)) k) c
    (c.endStrip pid 2 0x21).endPkt pid

/-- A cut-through frame turns out bad once the bytes `b` of it are in: what its copies send before the stomp is made of
them, and of at most the first PRT_MAXFRAME - 4 (R124). (log entry 112 DEDUCED.) -/
def Chip.received (c : Chip) (pid : Nat) (b : Bytes) : Chip :=
  match c.pkt pid with
  | none => c
  | some p =>
    let b := b.take (c.getF F.PRT_MAXFRAME.MAXFRAME p.port - 4)
    if p.tail = 0 ∧ p.frame.length < b.length then c.setPkt pid { p with frame := b } else c

/-- The frame on the wire of a port is bad before its tail: its packet goes, and the rest is discarded. -/
def Chip.cutArriving (c : Chip) (p reason : Nat) : Chip :=
  let ps := c.portSt p
  match ps.arriving with
  | none => c
  | some pid => (c.setPort p { ps with arriving := none, discard := reason }).failPkt pid

/-- A port's link goes down in the middle of a frame (R124): the frame is bad, and no tail will come. -/
def Chip.linkCut (c : Chip) (p : Nat) : Chip :=
  let c := if (c.portSt p).arriving.isSome then ((c.cutArriving p 0).stat p 7).signal 1 p 3 else c
  c.setPort p { c.portSt p with discard := 0 }

/-! ### Heads (R115, R389) -/

/-- Cells charged at the head of a frame of port `p` (R389). -/
def Chip.headCells (c : Chip) (p : Nat) : Nat := (c.getF F.PRT_MAXFRAME.MAXFRAME p + 255) / 256

/-- A frame of the port can begin its cell writes at once: its slice is active and the head charge fits. -/
def Chip.mayWrite (c : Chip) (p : Nat) : Bool :=
  !c.parked (sliceOf p) && !c.sliceHeld (sliceOf p) && c.headFits (sliceOf p) (c.headCells p)

/-- Free bytes of the port's elastic buffer. -/
def Chip.elasticFree (c : Chip) (p : Nat) : Nat :=
  8192 - ((c.portSt p).elastic.map (fun pid => match c.pkt pid with | some x => x.got + 4 | none => 0)).foldl (· + ·) 0

/-- FRAME_HEAD: the MAC takes or discards the frame whose first bytes are `hd` (R115, R584). (log entry 40 DEDUCED.) -/
def Chip.frameHead (c : Chip) (p : Nat) (hd : Bytes) : Chip :=
  let ps := c.portSt p
  if !c.portUp p || ps.arriving.isSome || ps.discard != 0 then c
  else
    let iseq := ps.iseq
    let ps := { ps with iseq := (iseq + 1) % 2 ^ 32 }
    if c.tripHold then (c.setPort p { ps with discard := 3 }).stat p 15
    else if c.bathHolds 2 (sliceOf p) then ((c.setPort p { ps with discard := 4 }).tmDrop 0xC).stat p 15
    else if c.sliceHeld (sliceOf p) then c.setPort p { ps with discard := 4 }
    else if (ps.elastic.isEmpty && c.mayWrite p) || decide (c.getF F.PRT_MAXFRAME.MAXFRAME p ≤ c.elasticFree p) then
      let pid := c.tm.nextPid
      let stamp := patternOf 64 ((c.dtw : Nat) + signedOf 32 (c.getF F.TIM_PORT_RX_ADJ.V p))
      let c := c.addPkt { Pkt.init 0 0 p iseq stamp hd with
        got := hd.length
        stage := .elastic
        prio := c.rxPrio p hd }
      (c.setPort p { ps with
        arriving := some pid
        elastic := ps.elastic ++ [pid] }).wakeSlice (sliceOf p)
    else (c.setPort p { ps with discard := 1 })

/-- FRAME_CELL_WRITE_START: the frame at the head of the elastic buffer is charged and begins its cells (R389). -/
def Chip.cellStart (c : Chip) (p : Nat) : Chip :=
  let ps := c.portSt p
  match ps.elastic with
  | [] => c
  | pid :: r =>
    if !c.mayWrite p then c
    else match c.pkt pid with
      | none => c.setPort p { ps with elastic := r }
      | some x =>
        let c := (c.setPort p { ps with elastic := r }).setPkt pid { x with stage := .mac }
        let c := (c.chargeCells pid (c.headCells p)).holdCells pid (cellsFor x.got)
        if x.tail = 0 then c else c.settleCells pid

/-- FRAME_TO_PIPE: a packet whose first 256 bytes, or all its bytes, are in is handed to a pipe (R25, R116). `first`: the
first 256 bytes of a frame whose tail has not arrived; `len`: the length that frame will prove to have, which a policer, a
meter and COUNT use before the tail (R236, R432). (log entry 113 DESIGN CHOICE.) -/
def Chip.toPipe (c : Chip) (pid : Nat) (first : Bytes) (len : Nat) : Chip :=
  match c.pkt pid with
  | none => c
  | some p =>
    if p.stage ≠ .mac ∨ (p.tail = 0 ∧ first.length < 256) ∨ c.parked p.slice ∨ c.sliceHeld p.slice
        ∨ (p.src = 0 ∧ c.gangPort p.port) then c
    else match c.pickPipe p.slice with
      | none => c.bump F.PAR_CNT_FULL.V p.slice
      | some q =>
        let b := first.take 256
        let p := if p.tail = 0 then { p with frame := b, orig := b, got := max p.got 256, flen := len } else p
        let p := if p.src = 1 ∨ p.src = 4 then { p with istamp := c.dtw } else p
        let c := (c.setPkt pid p).openCtx pid q
        if p.pass = 0 then c.stripSelect pid q else c

/-- MAXFRAME_EXCEEDED (R124): byte PRT_MAXFRAME + 1 arrives. `b`: the bytes before it. -/
def Chip.maxExceeded (c : Chip) (p : Nat) (b : Bytes) : Chip :=
  (match (c.portSt p).arriving with | some pid => c.received pid b | none => c).cutArriving p 2

/-! ### MAC control (R114) -/

/-- Classes of a port are stopped for a number of quanta, or resumed by 0. -/
def Chip.setPause (c : Chip) (p : Nat) (ks : List Nat) (q : Nat) : Chip :=
  let ps := c.portSt p
  let m := ks.foldl (fun m k => smSet (fun _ => 0) m k q) ps.pause
  let c := (c.setPort p { ps with pause := m }).putF F.PRT_STATUS.PAUSED (b2n (!m.isEmpty)) p
  c.condEv 1 p 6 (!m.isEmpty)

/-- Classes that priority `r` of a PFC frame stops. -/
def Chip.pfcClasses (c : Chip) (p r : Nat) : List Nat :=
  let m := if r % 2 = 0 then c.getF F.PRT_PFC_MAP.EVEN p (r / 2) else c.getF F.PRT_PFC_MAP.ODD p (r / 2)
  (List.range 16).filter (fun k => bitOf k m)

/-- A good MAC control frame, without FCS: acted on, or dropped and counted as RX_MACCTL. The MAC passes none of them on
(R470). (log entry 94 DEDUCED.) -/
def Chip.macControl (c : Chip) (p : Nat) (fr : Bytes) : Chip :=
  let mode := c.getF F.PRT_CFG.PAUSE_MODE p
  let op := beAt fr 14 2
  let n := max 64 (fr.length + 4)
  if op = 1 ∧ mode = 1 then
    (((c.rxSize p n).stat p 10).signal 1 p 1).setPause p (List.range 16) (beAt fr 16 2)
  else if op = 0x101 ∧ mode = 2 then
    (List.range 8).foldl (fun c r =>
      if bitOf r (beAt fr 16 2) then c.setPause p (c.pfcClasses p r) (beAt fr (18 + 2 * r) 2) else c)
      (((c.rxSize p n).stat p 11).signal 1 p 1)
  else (c.rxSize p n).stat p 9

/-- A MAC control frame of an opcode arrives whole and good. (log entry 94 DEDUCED.) -/
def Chip.macFrame (c : Chip) (p op : Nat) (fr : Bytes) : Chip :=
  if c.portUp p && beAt fr 12 2 == 0x8808 && beAt fr 14 2 == op then c.macControl p fr else c

/-! ### Tails (R113, R116, R125, R148, R396) -/

/-- The R113 slot of a frame that ends, FCS included; 0: good. (log entry 38 DEDUCED.) -/
def Chip.rxReason (c : Chip) (p discard : Nat) (fr : Bytes) (err : Bool) : Nat :=
  let n := fr.length
  let body := fr.take (n - 4)
  let fcs := leNat (fr.drop (n - 4))
  if n < 64 then 5
  else if c.getF F.PRT_MAXFRAME.MAXFRAME p < n then 6
  else if err then 7
  else if fcs ≠ fcsOf body then (if fcs = Nat.xor (fcsOf body) 0xFFFFFFFF then 8 else 7)
  else if discard = 1 then 12
  else 0

/-- A frame that the MAC drops is counted under one reason, and by its size (R470). (log entry 38 DEDUCED.) -/
def Chip.countBad (c : Chip) (p n slot : Nat) : Chip :=
  let c := (c.rxSize p n).stat p slot
  match slot with
  | 7 => c.signal 1 p 3
  | 8 => c.raise F.PRT_EVENTS.STOMP_RX p
  | 12 => c.raise F.PRT_EVENTS.ELASTIC_OVF p
  | _ => c

/-- A packet's cells are those of its whole frame (R396): its charge, and Q of its copies, follow. -/
def Chip.tailCells (c : Chip) (pid : Nat) : Chip :=
  match c.pkt pid with
  | none => c
  | some p =>
    let c := (c.holdCells pid (cellsFor p.frame.length)).settleCells pid
    match c.pkt pid with
    | none => c
    | some p =>
      let c := p.copies.foldl (fun c k =>
        if k.state = 0 then c
        else if k.cells ≤ p.cells then c.addCells k.queue (p.cells - k.cells) else c.subCells k.queue (k.cells - p.cells)) c
      c.setPkt pid { p with copies := p.copies.map (fun (k : Copy) => if k.state = 0 then k else { k with cells := p.cells }) }

/-- A parse context learns where its frame ends (R141). -/
def ParseCtx.ended (x : ParseCtx) (n : Nat) : ParseCtx :=
  if x.endAt.isNone && x.prov.isNone then { x with endAt := some n } else x

/-- A good tail arrives for a packet: its bytes, its charge, and what waited for it. (log entry 39 DEDUCED.) -/
def Chip.goodTail (c : Chip) (pid : Nat) (body : Bytes) : Chip :=
  match c.pkt pid with
  | none => c
  | some p =>
    if p.stage = .gone then c.rmPkt pid
    else
      let prov := match p.ctx with | some x => x.prov | none => p.prov
      let c := c.setPkt pid { p with
        frame := body
        orig := body
        got := body.length
        flen := body.length + 4
        tail := 1
        ctx := p.ctx.map (·.ended body.length) }
      let c := if p.stage = .elastic then c else c.tailCells pid
      if tailConflict prov body.length then (c.bump F.PAR_CNT_LEN.V p.slice).failPkt pid
      else
        let c := c.stampStrip pid 0
        if p.stage = .trapWait then c.punt pid p.trap else c

/-- FRAME_TAIL: the frame on the wire ends. `fr`: all its bytes, FCS included; `err`: an error code-group or an
uncorrectable codeword was received in it. (log entries 39 DEDUCED, 95 DESIGN CHOICE.) -/
def Chip.frameTail (c : Chip) (p : Nat) (fr : Bytes) (err : Bool) : Chip :=
  let ps := c.portSt p
  if ps.arriving.isNone && ps.discard == 0 then c
  else
    let c := c.setPort p { ps with arriving := none, discard := 0 }
    let n := fr.length
    let body := fr.take (n - 4)
    let bad := c.rxReason p ps.discard fr err
    match ps.arriving with
    | none => if ps.discard = 3 then c.rxSize p n else if ps.discard = 4 then c else c.countBad p n bad
    | some pid =>
      if bad ≠ 0 then ((c.countBad p n bad).received pid body).failPkt pid
      else if beAt body 12 2 = 0x8808 then (c.failPkt pid).macControl p body
      else if c.gangPort p then
        let c := c.failPkt pid
        if beAt body 12 2 = 0x88B5 then c else (c.rxGood p n body).bump F.GNG_PEER_CNT_FOREIGN.V (c.capDevice p)
      else
        let conflict : Bool := match c.pkt pid with
          | some x => x.stage != .gone && tailConflict (match x.ctx with | some y => y.prov | none => x.prov) body.length
          | none => false
        let c := if conflict then c.rxSize p n else (c.rxGood p n body).snoop p 0 body
        c.goodTail pid body

/-! ### Low-power idle (R112) -/

/-- Transmit low-power idle entered or left. -/
def Chip.setLpi (c : Chip) (p : Nat) (b : Bool) : Chip := (c.putF F.PRT_STATUS.LPI_TX (b2n b) p).condEv 1 p 5 b

/-- LPI_ENTER: the port has had nothing to transmit for IDLE_US. -/
def Chip.lpiEnter (c : Chip) (p : Nat) : Chip :=
  if c.flag F.PRT_CFG.LPI_EN p && c.flag F.PRT_STATUS.LPI_CAPABLE p && c.getF F.PRT_LPI.IDLE_US p != 0 && c.portUp p
      && !c.gangPort p && !c.flag F.PRT_STATUS.PAUSED p && !c.portHolds p && (c.portSt p).txBusy.isNone
      && !(c.portSt p).lpiHold && !c.flag F.PRT_STATUS.LPI_TX p then c.setLpi p true
  else c

/-- LPI_EXIT: the first transmit demand. -/
def Chip.lpiExit (c : Chip) (p : Nat) : Chip :=
  if c.flag F.PRT_STATUS.LPI_TX p then (c.setPort p { c.portSt p with lpiHold := true }).setLpi p false else c

/-- LPI_WAKE_DONE: TW_SYS_TX has passed. -/
def Chip.lpiDone (c : Chip) (p : Nat) : Chip := c.setPort p { c.portSt p with lpiHold := false }

/-! ### Check-value units (R122) -/

/-- A write of PRT_CVU_RUN. (log entry 69 DEDUCED.) -/
def Chip.cvuRunWrite (c : Chip) (p dir v : Nat) : Chip :=
  let v := v % 2 ^ (polyOf (c.getF F.PRT_CVU_CTRL.POLY p dir)).width
  if c.flag F.PRT_CVU_CTRL.SNOOP_EN p dir then
    c.setPort p { c.portSt p with cvuStaged := smPut (c.portSt p).cvuStaged dir (v + 1) }
  else c.putF F.PRT_CVU_RUN.V v p dir

end Sys2Proof.Machine
end

