-- ==== Sys2Proof/Machine/Lane.lean ====
section
/-! DEFINITION. Lanes and the forming of ports (R75 to R109, R548). Lane numbers 0 to 1023 are line lanes, 1024 + k
management lane k. -/
namespace Sys2Proof.Machine
open Sys2Proof

/-! ### Access -/

/-- The field of a lane's own register (R104, R548). -/
def Fld.lane (f : Fld) (l : Nat) : Fld :=
  if l < 1024 then { f with base := f.base + l * 0x400, s1 := 0 }
  else { f with base := f.base - 0x200000 + 0x38000 + (l - 1024) * 0x400, s1 := 0 }

/-- A lane's field. -/
def Chip.lget (c : Chip) (l : Nat) (f : Fld) : Nat := c.getF (f.lane l)
/-- A lane's one-bit field. -/
def Chip.lflag (c : Chip) (l : Nat) (f : Fld) : Bool := c.flag (f.lane l)
/-- The chip with a lane's field set. -/
def Chip.lput (c : Chip) (l : Nat) (f : Fld) (v : Nat) : Chip := c.putF (f.lane l) v
/-- A lane's event bit is raised; a management lane's also in MGT_EVENTS. -/
def Chip.lraise (c : Chip) (l : Nat) (f : Fld) : Chip :=
  if l < 1024 then c.raise f l
  else if c.lflag l f then c else (c.lput l f 1).raise F.MGT_EVENTS.MLANE
/-- A lane's state beyond its registers. -/
def Chip.lane (c : Chip) (l : Nat) : LaneSt := smGet (fun _ => LaneSt.init) c.lanes l
/-- The chip with a lane's state changed. -/
def Chip.onLane (c : Chip) (l : Nat) (f : LaneSt → LaneSt) : Chip :=
  { c with lanes := smSet (fun _ => LaneSt.init) c.lanes l (f (c.lane l)) }
/-- LNA_STATUS.STATE. -/
def Chip.lstate (c : Chip) (l : Nat) : Nat := c.lget l F.LNA_STATUS.STATE
/-- The lane is UP or DIM. -/
def Chip.laneUp (c : Chip) (l : Nat) : Bool := c.lstate l == 8 || c.lstate l == 9
/-- The lane runs the staircase. -/
def Chip.staircase (c : Chip) (l : Nat) : Bool := decide (l < 1024) && c.lget l F.LNA_MODE.BRINGUP != 0

/-! ### The port over its lanes (R87, R107, R108) -/

/-- The mode of R106 whose PCS a port runs (R107). -/
def pcsMode (mode step w : Nat) : Nat :=
  if mode ≠ 18 then mode
  else match step, w with
    | 3, 1 => 7 | 3, 2 => 4 | 3, 4 => 2 | 3, 8 => 1
    | 2, 1 => 10 | 2, 2 => 8 | 2, 4 => 5 | 2, 8 => 3
    | 1, 1 => 14 | 1, 4 => 12 | 0, 1 => 16 | _, _ => 0

/-- A port forms (R108). -/
def Chip.portForm (c : Chip) (p step : Nat) : Chip :=
  let mode := c.getF F.PRT_CFG.MODE p
  let half := (c.portSt p).half
  let pcs := pcsMode mode step (c.liveLanes p).length
  let c := c.putF F.PRT_STATUS.PSTATE (if half then psDegraded else psUp) p
  let c := c.putF F.PRT_STATUS.AN_DONE (b2n ((c.flag F.PRT_CFG.AN_EN p && decide (mode ≤ 15)) || mode == 16 || mode == 17)) p
  let c := c.putF F.PRT_STATUS.FEC_LOCK (b2n (decide (pcs ≤ 13) || (pcs == 14 && c.getF F.PRT_CFG.FEC p == 0))) p
  (c.putF F.PRT_STATUS.LPI_CAPABLE (b2n (Config.phyDefinesLpi pcs)) p).raise F.PRT_EVENTS.UP p

/-- A port that ran goes down (R108, R124, R516). -/
def Chip.portDrop (c : Chip) (p : Nat) : Chip :=
  let c := (c.raise F.PRT_EVENTS.DOWN p).linkCut p
  let c := ((c.putF F.PRT_STATUS.AN_DONE 0 p).putF F.PRT_STATUS.FEC_LOCK 0 p).putF F.PRT_STATUS.LPI_CAPABLE 0 p
  let c := if c.flag F.PRT_STATUS.LPI_TX p then c.setLpi p false else c
  let c := (c.putF F.PRT_STATUS.LPI_RX 0 p).setPort p { c.portSt p with lpiHold := false }
  if c.gangPort p then c.leaveService p else c

/-- A port's state follows its lanes. -/
def Chip.portEval (c : Chip) (p : Nat) : Chip :=
  if !c.portPresent p then c
  else
    let ls := c.liveLanes p
    let c := c.putF F.PRT_STATUS.LANES_UP ((c.portLanes p).filter (fun l => c.laneUp l)).length p
    let stair := c.getF F.PRT_CFG.MODE p == 18
    let step := match ls with | l :: _ => c.lget l F.LNA_STATUS.STEP | [] => 0
    let same := ls.all (fun l => c.laneUp l && (!stair || c.lget l F.LNA_STATUS.STEP == step))
    let c1 := c.putF F.PRT_STATUS.STEP (if stair then step else 0) p
    if c.flag F.PRT_CFG.ENABLE p && !c.portOut p && !ls.isEmpty && same && c1.portMbps p != 0 then
      let c1 := c1.putF F.PRT_STATUS.LPI_RX (b2n (ls.all (fun l => c1.lflag l F.LNA_STATUS.RX_DIM))) p
      if c.portUp p then c1 else c1.portForm p step
    else
      let was := c.portUp p
      let back := c.getF F.PRT_STATUS.PSTATE p == psGaveUp && ls.any (fun l => (c.lane l).groupBack)
      let trying := c.flag F.PRT_CFG.ENABLE p
        && ls.any (fun l => decide (2 ≤ c.lstate l) && decide (c.lstate l ≤ 9))
      let c := c.putF F.PRT_STATUS.PSTATE (if back then psGaveUp else if trying then psForming else psDown) p
      if was then c.portDrop p else c

/-- The port of a lane follows it. -/
def Chip.laneTold (c : Chip) (l : Nat) : Chip := match c.laneOwner l with | some p => c.portEval p | none => c

/-! ### States (R93) -/

/-- One side of a lane dims or resumes; an entry is counted (R99, R100). (log entry 34 DEDUCED.) -/
def Chip.setDim (c : Chip) (l : Nat) (tx b : Bool) : Chip :=
  let f := if tx then F.LNA_STATUS.TX_DIM else F.LNA_STATUS.RX_DIM
  let c1 := c.lput l f (b2n b)
  if b && !c.lflag l f then c1.bump (F.LNA_DIM_COUNT.V.lane l) else c1

/-- A lane enters a state. (log entry 36 DEDUCED.) -/
def Chip.laneGo (c : Chip) (l s : Nat) : Chip :=
  let was := c.laneUp l
  let now := s == 8 || s == 9
  let still := s == 0 || s == 1 || s == 2 || s == 10
  let c := c.lput l F.LNA_STATUS.STATE s
  let c := c.lput l F.LNA_PIN_STATUS.TESTING (b2n (s == 1))
  let c := if still then (c.lput l F.LNA_MODE.RATE 0).lput l F.LNA_STATUS.CDR_LOCK 0 else c
  let c := if s = 2 then (c.setDim l true true).setDim l false true
    else if s = 9 then c else if now && was then c else (c.setDim l true false).setDim l false false
  let c := if was && !now then c.lraise l F.LNA_EVENTS.DOWN else if now && !was then c.lraise l F.LNA_EVENTS.UP else c
  let c := if l < 1024 then (c.condEv 10 l 2 (s == 8)).condEv 10 l 3 (s == 9) else c
  c.laneTold l

/-- The negotiation of a bring-up starts from nothing. -/
def LaneSt.fresh (x : LaneSt) : LaneSt :=
  { x with
    capIn := false, capAcked := false, ownStep := none, ownStepAcked := false, partStep := none, switchTo := none
    qualOwn := none, qualPart := none, passed := 0, holdSent := false, holdIn := none, upSent := false, upIn := false
    acks := [], groupBack := false, waking := false, rise := false }

/-- A lane goes OFF (R70, R93). -/
def Chip.laneOff (c : Chip) (l : Nat) : Chip :=
  if c.lstate l = 0 then c else (c.onLane l fun x => { x.fresh with abortOut := none, idleFrozen := false }).laneGo l 0

/-- A management lane that the Plate's MANAGEMENT section selects (R76). (log entry 45 DEDUCED.) -/
def Chip.mlaneSelected (c : Chip) (k : Nat) : Bool :=
  let b := if c.mgt.mpConf.isEmpty then 8 else byteAt c.mgt.mpConf (k / 4)
  bitOf 3 b && b % 4 == k % 4

/-- A module site keeps its lanes OFF until the data path is active (R127). (log entry 35 DEDUCED.) -/
def Chip.siteHolds (c : Chip) (m : Nat) : Bool :=
  c.flag F.PRT_SITE_CTRL.ENABLE m && c.flag F.PRT_SITE_CTRL.AUTO m
    && [1, 2, 3, 4, 6, 8].contains (c.getF F.PRT_SITE_STATUS.SSTATE m)

/-- A lane may leave OFF. -/
def Chip.laneMayRun (c : Chip) (l : Nat) : Bool :=
  c.lflag l F.LNA_CTRL.ENABLE &&
  (if 1024 ≤ l then c.mlaneSelected (l - 1024)
   else (match c.laneOwner l with | some p => c.flag F.PRT_CFG.ENABLE p | none => true)
    && !c.bathHolds 0 (l / 8) && !c.bathHolds 1 (l / 8) && !c.siteHolds (l / 8)
    && !c.recov.any (fun r => r.kind == 0 && r.inst == l && r.state != 2))

/-- A lane enters PIN_TEST (R101). -/
def Chip.pinTest (c : Chip) (l : Nat) : Chip := (c.onLane l LaneSt.fresh).laneGo l 1

/-- A lane follows what holds it: out of OFF when nothing does, OFF when something does. -/
def Chip.laneCheck (c : Chip) (l : Nat) : Chip :=
  if !c.laneMayRun l then c.laneOff l else if c.lstate l = 0 then c.pinTest l else c

/-- REASON is written (R89). -/
def Chip.laneReason (c : Chip) (l r : Nat) : Chip := (c.lput l F.LNA_STATUS.REASON r).lraise l F.LNA_EVENTS.TRAIN_FAIL

/-- The step that the port's other lanes have reached (R87). -/
def Chip.siblingStep (c : Chip) (l : Nat) : Option Nat :=
  match c.laneOwner l with
  | none => none
  | some p =>
    let ss := ((c.liveLanes p).filter (fun x => x != l && decide (5 ≤ c.lstate x) && decide (c.lstate x ≤ 9))).map
      (fun x => c.lget x F.LNA_STATUS.STEP)
    if ss.isEmpty then none else some (ss.foldl max 0)

/-- A lane starts bring-up, or drives its pattern generator (R93, R95). -/
def Chip.bringUp (c : Chip) (l : Nat) : Chip :=
  let c := c.onLane l LaneSt.fresh
  if c.lflag l F.LNA_PG_CTRL.ENABLE then
    let r := match c.laneOwner l with | some p => (modeRow (c.getF F.PRT_CFG.MODE p)).2.2 | none => 0
    let c := if 1024 ≤ l then c.lput l F.LNA_MODE.RATE 1 else if r = 0 then c else c.lput l F.LNA_MODE.RATE r
    c.laneGo l 11
  else
    let c := c.bump (F.LNA_SC_STATUS.ATTEMPTS.lane l)
    let c := if l < 1024 then c.signal 10 l 1 else c
    if c.staircase l then
      let cap := c.siblingStep l
      let m := c.lget l F.LNA_SC_CTRL.MAXSTEP
      let c := c.onLane l fun x => { x with maxStep := m, targetCap := cap }
      (((c.lput l F.LNA_STATUS.STEP 0).lput l F.LNA_MODE.RATE 1).lput l F.LNA_STATUS.CDR_LOCK 0).laneGo l 4
    else
      let r := if 1024 ≤ l then 1
        else match c.laneOwner l with | some p => (modeRow (c.getF F.PRT_CFG.MODE p)).2.2 | none => 0
      ((c.lput l F.LNA_MODE.RATE r).lput l F.LNA_STATUS.CDR_LOCK 0).laneGo l 3

/-- ABORT is to be sent by a staircase lane (R89). -/
def Chip.sendAbort (c : Chip) (l r : Nat) : Chip :=
  if c.staircase l then c.onLane l fun x => { x with abortOut := some r } else c

/-- The back-off period of an index, in s (R90). -/
def backPeriod (n : Nat) : Nat := min 16 (2 ^ n)

/-- A lane enters BACKOFF with its next period (R90). -/
def Chip.backOff (c : Chip) (l : Nat) : Chip :=
  let n := (c.lane l).backNext
  let c := c.onLane l fun x => { x.fresh with backNext := min 4 (n + 1) }
  (c.lput l F.LNA_SC_STATUS.BACKOFF (backPeriod n)).laneGo l 2

/-- A failure: ABORT, REASON, BACKOFF (R89). -/
def Chip.laneFail (c : Chip) (l r : Nat) : Chip := ((c.laneReason l r).backOff l).sendAbort l r

/-- Receiver codes take values the manual does not give (RX_EQ_STATUS). (log entry 33 DESIGN CHOICE.) -/
def Chip.rxAdapted (c : Chip) (l : Nat) : Chip :=
  let v := c.freeNat
  (((c.lput l F.LNA_RX_EQ_STATUS.CTLE_PEAK v).lput l F.LNA_RX_EQ_STATUS.GAIN (v / 256)).lput l
    F.LNA_RX_EQ_STATUS.EYE_MARGIN (v / 65536)).useFree

/-- A lane reaches UP. -/
def Chip.laneIsUp (c : Chip) (l : Nat) : Chip :=
  let c := (c.onLane l fun x => { x with backNext := 0 }).lput l F.LNA_SC_STATUS.BACKOFF 0
  ((c.lput l F.LNA_STATUS.CDR_LOCK 1).rxAdapted l).laneGo l 8

/-! ### Sets (R83, R84) -/

/-- A set of a TYPE that a lane in bring-up accepts: its 12 payload bytes (R83, R88). -/
def Chip.setIn (c : Chip) (l type : Nat) (g : SetGroups) : Option Bytes :=
  if 4 ≤ c.lstate l ∧ c.lstate l ≤ 7 ∧ (c.lane l).switchTo = none ∧ g.ctrlOk ∧ g.dataOk ∧ g.grp.length = 14
      ∧ crc8 (g.grp.take 13) = byteAt g.grp 13 ∧ byteAt g.grp 0 = type then some (sliceB g.grp 1 12)
  else none

/-- A gang lane's DEVICE_TAG (R515); 0 outside gang mode. -/
def Chip.deviceTag (c : Chip) (l : Nat) : Nat :=
  if c.lget l F.LNA_MODE.BRINGUP = 2 then c.gang.gangId * 256 + c.getF F.GNG_STATUS.DEVICE else 0

/-- The CAP payload without SEQ (R84). (log entry 32 DEDUCED.) -/
def Chip.capPayload (c : Chip) (l : Nat) : Bytes :=
  natBe 2 0x5547 ++ natBe 1 (c.getF F.GLB_FAMILY.MEMBER) ++ natBe 1 0x0F ++ natBe 1 (c.lane l).maxStep
    ++ natBe 1 (b2n (c.lget l F.LNA_MODE.BRINGUP == 2) + 2 * b2n (c.lget l F.LNA_MODE.REACH == 1)) ++ natBe 2 l
    ++ natBe 3 (c.deviceTag l)

/-- Steps both ends support (R86). -/
def Chip.commonSteps (c : Chip) (l : Nat) : List Nat :=
  (List.range 4).filter (fun n => bitOf n (byteAt (c.getBytes (F.LNA_SC_PARTNER.V.lane l).base 12) 3))

/-- The target of a lane (R86, R87); none: no common step. -/
def Chip.laneTarget (c : Chip) (l : Nat) : Option Nat :=
  let x := c.lane l
  ((c.commonSteps l).filter (fun n => decide (n ≤ x.maxStep) && decide (n ≤ c.lget l F.LNA_SC_STATUS.PARTNER_MAX)
    && (!c.lflag l F.LNA_SC_STATUS.CAPPED || decide (n ≤ c.lget l F.LNA_SC_STATUS.CAP_STEP))
    && (match x.targetCap with | some t => decide (n ≤ t) | none => true))).getLast?

/-- The next step to climb (R86). -/
def Chip.nextStep (c : Chip) (l : Nat) : Option Nat :=
  (c.commonSteps l).find? (fun n => decide (max 1 (c.lane l).passed ≤ n) && decide (n ≤ c.lget l F.LNA_SC_STATUS.TARGET))

/-- Every lane of the port that is not in BACKOFF or FAULT has passed what the lane has passed (R87). -/
def Chip.portPassed (c : Chip) (l : Nat) : Bool :=
  match c.laneOwner l with
  | none => true
  | some p => (c.liveLanes p).all (fun x => c.lstate x == 2 || c.lstate x == 10 || decide ((c.lane l).passed ≤ (c.lane x).passed))

/-- UP sent and received: mission mode (R88). -/
def Chip.upCheck (c : Chip) (l : Nat) : Chip := if (c.lane l).upSent && (c.lane l).upIn then c.laneIsUp l else c

/-- A lane has passed a step (R87, R88). -/
def Chip.stepPassed (c : Chip) (l n : Nat) : Chip :=
  let c := c.onLane l fun x => { x with passed := n + 1 }
  let c := if c.lget l F.LNA_SC_STATUS.FAILED_AT = n then c.lput l F.LNA_SC_STATUS.FAIL_COUNT 0 else c
  if n = c.lget l F.LNA_SC_STATUS.TARGET ∨ n = 0 then c else c.laneGo l 7

/-- S0 passes on the exchange of CAP and of the ACKs of CAP (R88). -/
def Chip.s0Check (c : Chip) (l : Nat) : Chip :=
  let x := c.lane l
  if c.lstate l = 4 ∧ x.capIn ∧ x.capAcked ∧ x.passed = 0 then c.stepPassed l 0 else c

/-- The STEP exchange is complete: the switch is due (R86, R88). -/
def Chip.stepCheck (c : Chip) (l : Nat) : Chip :=
  let x := c.lane l
  match x.ownStep, x.partStep with
  | some a, some b => if x.ownStepAcked then c.onLane l fun x => { x with switchTo := some (min a b) } else c
  | _, _ => c

/-- A step fails its quality check (R89). -/
def Chip.qualFail (c : Chip) (l : Nat) : Chip :=
  let n := c.lget l F.LNA_STATUS.STEP
  let k := if c.lget l F.LNA_SC_STATUS.FAILED_AT = n then min 3 (c.lget l F.LNA_SC_STATUS.FAIL_COUNT + 1) else 1
  let c := (c.lput l F.LNA_SC_STATUS.FAILED_AT n).lput l F.LNA_SC_STATUS.FAIL_COUNT k
  if k = 3 then ((c.lput l F.LNA_SC_STATUS.CAPPED 1).lput l F.LNA_SC_STATUS.CAP_STEP (n - 1)).laneFail l 4
  else c.laneFail l 3

/-- Both ends have reported pass (R88). -/
def Chip.qualCheck (c : Chip) (l : Nat) : Chip :=
  if (c.lane l).qualOwn = some true ∧ (c.lane l).qualPart = some true ∧ c.lstate l = 6 then
    c.stepPassed l (c.lget l F.LNA_STATUS.STEP)
  else c

/-- A CAP's gang identity fits (R515): the same GANG_ID and another device. -/
def Chip.capFits (c : Chip) (l : Nat) (pl : Bytes) : Bool :=
  let own := c.lget l F.LNA_MODE.BRINGUP == 2
  bitOf 0 (byteAt pl 5) == own
    && (!own || (beAt pl 8 2 == c.gang.gangId && byteAt pl 10 != c.getF F.GNG_STATUS.DEVICE))

/-- CAP_SET (R86). -/
def Chip.capSet (c : Chip) (l : Nat) (g : SetGroups) : Chip :=
  match c.setIn l 1 g with
  | none => c
  | some pl =>
    if c.lstate l ≠ 4 then c
    else
      let c := c.putWords (F.LNA_SC_PARTNER.V.lane l).base pl
      let c := (c.lput l F.LNA_SC_STATUS.PARTNER_MAX (byteAt pl 4)).lput l F.LNA_STATUS.CDR_LOCK 1
      if !c.capFits l pl then c.laneFail l 8
      else match c.laneTarget l with
        | none => c.laneFail l 8
        | some t =>
          ((c.lput l F.LNA_SC_STATUS.TARGET t).onLane l fun x =>
            { x with capIn := true, acks := x.acks ++ [(1, byteAt pl 11)] }).s0Check l

/-- ACK_SET (R88). -/
def Chip.ackSet (c : Chip) (l : Nat) (g : SetGroups) : Chip :=
  match c.setIn l 2 g with
  | none => c
  | some pl =>
    let x := c.lane l
    let t := byteAt pl 0
    if (smFind x.contents t).isNone ∨ smGet (fun _ => 0) x.seqs t ≠ byteAt pl 1 then c
    else if t = 1 then (c.onLane l fun x => { x with capAcked := true }).s0Check l
    else if t = 3 ∧ x.ownStep.isSome then (c.onLane l fun x => { x with ownStepAcked := true }).stepCheck l
    else c

/-- STEP_SET (R86, R88): executed at the lower of its step and the lane's own next step. -/
def Chip.stepSet (c : Chip) (l : Nat) (g : SetGroups) : Chip :=
  match c.setIn l 3 g with
  | none => c
  | some pl =>
    let n := c.nextStep l
    (c.onLane l fun x => { x with
      acks := x.acks ++ [(3, byteAt pl 1)]
      partStep := n.map (min (byteAt pl 0)) }).stepCheck l

/-- QUAL_SET (R88). -/
def Chip.qualSet (c : Chip) (l : Nat) (g : SetGroups) : Chip :=
  match c.setIn l 4 g with
  | none => c
  | some pl =>
    if c.lstate l ≠ 6 ∨ byteAt pl 0 ≠ c.lget l F.LNA_STATUS.STEP then c
    else if byteAt pl 1 = 1 then (c.onLane l fun x => { x with qualPart := some true }).qualCheck l
    else c.qualFail l

/-- HOLD_SET (R87). -/
def Chip.holdSet (c : Chip) (l : Nat) (g : SetGroups) : Chip :=
  match c.setIn l 5 g with
  | none => c
  | some pl => c.onLane l fun x => { x with holdIn := some (byteAt pl 0) }

/-- ABORT_SET (R89). -/
def Chip.abortSet (c : Chip) (l : Nat) (g : SetGroups) : Chip :=
  match c.setIn l 6 g with
  | none => c
  | some _ => c.laneFail l 7

/-- UP_SET (R88). -/
def Chip.upSet (c : Chip) (l : Nat) (g : SetGroups) : Chip :=
  match c.setIn l 7 g with
  | none => c
  | some pl =>
    if byteAt pl 0 ≠ c.lget l F.LNA_STATUS.STEP then c
    else (c.onLane l fun x => { x with upIn := true }).upCheck l

/-- A set of a TYPE is sent: its payload with the SEQ at its place, which rises when the content changes (R83).
(log entry 31 DESIGN CHOICE.) -/
def Chip.txSet (c : Chip) (l type : Nat) (body : Bytes) : Chip :=
  c.onLane l fun x =>
    let old := smGet (fun _ => 0) x.seqs type
    let seq := match smFind x.contents type with
      | some b => if b = body then old else (old + 1) % 256
      | none => old
    { x with
      seqs := smSet (fun _ => 0) x.seqs type seq
      contents := smPut x.contents type body
      lastTx := some (type, (body ++ natBe 1 seq ++ zerosB 12).take 12) }

/-- SET_TX: the set a lane transmits next. Of several due, ABORT goes first, then ACK, UP, QUAL, STEP, HOLD, CAP.
(log entry 31 DESIGN CHOICE.) -/
def Chip.setTx (c : Chip) (l : Nat) : Chip :=
  let x := c.lane l
  let st := c.lstate l
  let step := c.lget l F.LNA_STATUS.STEP
  match x.abortOut, x.acks with
  | some r, _ => (c.txSet l 6 (natBe 1 r)).onLane l fun x => { x with abortOut := none }
  | none, (t, q) :: rest =>
    if 4 ≤ st ∧ st ≤ 7 then c.onLane l fun x =>
      { x with acks := rest, lastTx := some (2, natBe 1 t ++ natBe 1 q ++ zerosB 10) }
    else c
  | none, [] =>
    if st < 4 ∨ 7 < st then c
    else if x.passed = c.lget l F.LNA_SC_STATUS.TARGET + 1 then
      ((c.txSet l 7 (natBe 1 step)).onLane l fun x => { x with upSent := true }).upCheck l
    else if st = 6 ∧ x.qualOwn.isSome then
      c.txSet l 4 (natBe 1 step ++ natBe 1 (b2n (x.qualOwn == some true)) ++ natBe 6 (c.lget l F.LNA_SC_LAST_ERR.V))
    else if x.passed ≠ 0 ∧ c.portPassed l then
      (match c.nextStep l with
       | some n => ((c.txSet l 3 (natBe 1 n)).onLane l fun x => { x with ownStep := some n }).stepCheck l
       | none => c)
    else if x.passed ≠ 0 then (c.txSet l 5 (natBe 1 step)).onLane l fun x => { x with holdSent := true }
    else if st = 4 then c.txSet l 1 (c.capPayload l)
    else c

/-! ### Steps and timers (R88 to R92) -/

/-- STEP_SWITCH: transmitter and receiver change rate together. -/
def Chip.stepSwitch (c : Chip) (l : Nat) : Chip :=
  match (c.lane l).switchTo with
  | none => c
  | some n =>
    let c := c.onLane l fun x => { x with
      ownStep := none, ownStepAcked := false, partStep := none, switchTo := none, qualOwn := none, qualPart := none
      holdSent := false, holdIn := none, upSent := false, upIn := false, acks := [] }
    (((c.lput l F.LNA_STATUS.STEP n).lput l F.LNA_MODE.RATE (stepRate n)).lput l F.LNA_STATUS.CDR_LOCK 0).laneGo l 5

/-- STEP_ACQUIRED. -/
def Chip.stepAcquired (c : Chip) (l : Nat) : Chip :=
  if c.lstate l = 5 then (c.lput l F.LNA_STATUS.CDR_LOCK 1).laneGo l 6 else c

/-- QUAL_WINDOW_END: the window has counted `errs` errors; `aligned`: the lane stayed aligned throughout. -/
def Chip.qualEnd (c : Chip) (l errs : Nat) (aligned : Bool) : Chip :=
  if c.lstate l ≠ 6 ∨ (c.lane l).qualOwn ≠ none then c
  else
    let lim := c.lget l F.LNA_SC_QUAL_LIMIT.V
    let limit := if c.lget l F.LNA_STATUS.STEP = 1 then lim % 65536 else lim / 65536
    let ok := aligned && decide (errs ≤ limit)
    let c := (c.lput l F.LNA_SC_LAST_ERR.V (min errs (2 ^ 32 - 1))).onLane l fun x => { x with qualOwn := some ok }
    if ok then c.qualCheck l else c.qualFail l

/-- STEP_TIMEOUT: a step's 500 ms have passed. -/
def Chip.stepTimeout (c : Chip) (l : Nat) : Chip :=
  if c.lstate l < 4 ∨ 7 < c.lstate l then c
  else c.laneFail l (if c.lstate l = 4 ∧ !(c.lane l).capIn then 1 else 2)

/-- The lanes of a lane's port that restart with it after the port gave up (R108). -/
def Chip.groupOf (c : Chip) (l : Nat) : List Nat :=
  if (c.lane l).groupBack then
    (match c.laneOwner l with
     | some p => (c.portLanes p).filter (fun x => (c.lane x).groupBack)
     | none => [l])
  else [l]

/-- BACKOFF_END (R90, R108). -/
def Chip.backoffEnd (c : Chip) (l : Nat) : Chip :=
  if c.lstate l = 2 then (c.groupOf l).foldl (fun c x => c.pinTest x) c else c

/-- SIGNAL_RISE (R90, R108). (log entry 36 DEDUCED.) -/
def Chip.signalRise (c : Chip) (l : Nat) : Chip :=
  let c := c.lput l F.LNA_STATUS.SIGNAL 1
  if c.lstate l ≠ 2 then c
  else
    let c := c.onLane l fun x => { x with rise := true }
    if (c.groupOf l).all (fun x => (c.lane x).rise) then c.backoffEnd l else c

/-- A lane restarts at S0 at once, with ABORT (R92). -/
def Chip.restartOne (c : Chip) (l : Nat) : Chip := ((c.laneReason l 7).bringUp l).sendAbort l 7

/-- RESTART (R92, R108): ignored in OFF, PIN_TEST, FAULT and TEST. -/
def Chip.laneRestart (c : Chip) (l : Nat) : Chip :=
  if [0, 1, 10, 11].contains (c.lstate l) then c else (c.groupOf l).foldl (fun c x => c.restartOne x) c

/-- LINK_LOST (R89, R90). -/
def Chip.linkLost (c : Chip) (l : Nat) : Chip := if c.laneUp l then (c.laneReason l 6).bringUp l else c

/-! ### Pins (R101) -/

/-- The codes of a pin fault are set; a rise of either is an event. -/
def Chip.pinCodes (c : Chip) (l tx rx : Nat) : Chip :=
  let rise := (c.lget l F.LNA_PIN_STATUS.TX_FAULT == 0 && tx != 0) || (c.lget l F.LNA_PIN_STATUS.RX_FAULT == 0 && rx != 0)
  let c := (c.lput l F.LNA_PIN_STATUS.TX_FAULT tx).lput l F.LNA_PIN_STATUS.RX_FAULT rx
  if rise then c.lraise l F.LNA_EVENTS.PIN_FAULT else c

/-- A code that puts the lane in FAULT: any but NONE and TX_OPEN. -/
def pinFatal (k : Nat) : Bool := k != 0 && k != 4

/-- A pin test or the current monitor has found codes. -/
def Chip.pinResult (c : Chip) (l tx rx : Nat) (test : Bool) : Chip :=
  let c := c.pinCodes l tx rx
  if pinFatal tx || pinFatal rx then ((c.laneReason l 5).onLane l LaneSt.fresh).laneGo l 10
  else if test then c.bringUp l
  else c

/-- PIN_TEST_DONE. -/
def Chip.pinDone (c : Chip) (l tx rx : Nat) : Chip := if c.lstate l = 1 then c.pinResult l tx rx true else c

/-- PIN_FAULT. -/
def Chip.pinFault (c : Chip) (l tx rx : Nat) : Chip := if c.lstate l = 0 then c else c.pinResult l tx rx false

/-- FAULT_RETEST and RETEST. -/
def Chip.retest (c : Chip) (l : Nat) : Chip := if c.lstate l = 10 then c.pinTest l else c

/-! ### Equaliser (R79 to R82) -/

/-- Sum of the tap magnitudes of an LNA_TX_FFE value. -/
def tapSum (v : Nat) : Nat := ((List.range 4).map (fun k => (signedOf 8 (v / 2 ^ (8 * k))).natAbs)).foldl (· + ·) 0

/-- CAP_CLEAR: the cap and its failure count are cleared (R89). -/
def Chip.capClear (c : Chip) (l : Nat) : Chip :=
  ((c.lput l F.LNA_SC_STATUS.CAPPED 0).lput l F.LNA_SC_STATUS.CAP_STEP 0).lput l F.LNA_SC_STATUS.FAIL_COUNT 0

/-- FFE_WRITE (R79). -/
def Chip.ffeWrite (c : Chip) (l v : Nat) : Chip :=
  if 127 < tapSum v ∨ (3 ≤ c.lstate l ∧ c.lstate l ≤ 7) then c.lraise l F.LNA_EVENTS.FFE_REJECT
  else c.lput l F.LNA_TX_FFE.all v

/-- ADAPT_FROZEN follows the idle-run freeze and the host's (R81, R82). -/
def Chip.frozenShow (c : Chip) (l : Nat) : Chip :=
  c.lput l F.LNA_STATUS.ADAPT_FROZEN (b2n ((c.lane l).idleFrozen || c.lflag l F.LNA_RX_EQ.FREEZE))

/-- The idle-run freeze begins or ends (R81). -/
def Chip.idleFreeze (c : Chip) (l : Nat) (b : Bool) : Chip :=
  if b && c.lget l F.LNA_MODE.RATE != 1 then c else (c.onLane l fun x => { x with idleFrozen := b }).frozenShow l

/-- RESET_ADAPT (R82). (log entry 33 DESIGN CHOICE.) -/
def Chip.resetAdapt (c : Chip) (l : Nat) : Chip :=
  (c.onLane l fun x => { x with rxAdaptRuns := x.rxAdaptRuns + 1 }).rxAdapted l

/-! ### Generator, checker and alignment (R94 to R98) -/

/-- PG_ENABLE (R95). (log entry 37 DESIGN CHOICE.) -/
def Chip.pgEnable (c : Chip) (l : Nat) (b : Bool) : Chip :=
  let c := c.lput l F.LNA_PG_CTRL.ENABLE (b2n b)
  let st := c.lstate l
  if b then (if [0, 1, 10, 11].contains st then c else c.bringUp l)
  else if st = 11 then c.bringUp l else c

/-- A 48-bit counter in two registers of a lane. -/
def Chip.lcount (c : Chip) (l : Nat) (f : Fld) (n : Nat) : Chip := c.bumpQ 48 (f.lane l) 0 0 n

/-- CHECKER_LOCK_LOST: the lock ends; `bits` and `errs` were counted while it held (R96). (log entry 37 DESIGN CHOICE.) -/
def Chip.lockLost (c : Chip) (l bits errs : Nat) : Chip :=
  if !c.lflag l F.LNA_PC_STATUS.LOCK then c
  else
    let c := (c.lcount l F.LNA_PC_BITS.V bits).lcount l F.LNA_PC_ERR.V errs
    ((c.lput l F.LNA_PC_STATUS.LOCK 0).lput l F.LNA_PC_STATUS.LOCK_LOST 1).lraise l F.LNA_EVENTS.PC_LOCK_LOST

/-- PC_CLEAR (R96). -/
def Chip.pcClear (c : Chip) (l : Nat) : Chip := (c.putQ (F.LNA_PC_BITS.V.lane l) 0).putQ (F.LNA_PC_ERR.V.lane l) 0

/-- A burst is injected (R97). -/
def Chip.inject (c : Chip) (l : Nat) : Chip := c.bumpWrap (F.LNA_PG_INJ_COUNT.V.lane l)

/-- ALIGN_MODE_SET (R98). (log entry 19 DEDUCED.) -/
def Chip.alignMode (c : Chip) (l : Nat) (b : Bool) : Chip :=
  let c := c.lput l F.LNA_RX_ALIGN.ALIGN_MODE (b2n b)
  if b then c.lput l F.LNA_RX_ALIGN.SLIP_COUNT 0 else c

/-- BITSLIP (R98). -/
def Chip.bitslip (c : Chip) (l : Nat) : Chip :=
  if !c.lflag l F.LNA_RX_ALIGN.ALIGN_MODE then c
  else c.lput l F.LNA_RX_ALIGN.SLIP_COUNT
    ((c.lget l F.LNA_RX_ALIGN.SLIP_COUNT + 1) % (if 4 ≤ c.lget l F.LNA_MODE.RATE then 40 else 80))

/-- CAPTURE: the 80-bit word received is latched (R98). -/
def Chip.capture (c : Chip) (l w : Nat) : Chip := c.putWords (F.LNA_RX_CAP.V.lane l).base (natLe 12 (w % 2 ^ 80))

/-- POLARITY_INVERSION (R102). -/
def Chip.polarity (c : Chip) (l : Nat) : Chip :=
  if c.lget l F.LNA_PIN_CTRL.RX_POL ≠ 0 then c
  else (c.lput l F.LNA_STATUS.RX_INVERTED (1 - c.lget l F.LNA_STATUS.RX_INVERTED)).lraise l F.LNA_EVENTS.POLARITY

/-! ### Dim (R99, R100) -/

/-- LANE_DIM_ENTER: the transmit side (`tx`) or the receive side dims. (log entry 34 DEDUCED.) -/
def Chip.dimEnter (c : Chip) (l : Nat) (tx : Bool) : Chip :=
  let capable := match c.laneOwner l with | some p => c.flag F.PRT_STATUS.LPI_CAPABLE p && !c.gangPort p | none => false
  if !c.lflag l F.LNA_CTRL.DIM_EN || !c.laneUp l || !capable || c.lget l F.LNA_MODE.BRINGUP == 2 then c
  else
    let c := c.setDim l tx true
    let both := c.lflag l F.LNA_STATUS.TX_DIM && c.lflag l F.LNA_STATUS.RX_DIM
    if both then c.laneGo l 9 else c.laneTold l

/-- LANE_WAKE. -/
def Chip.laneWake (c : Chip) (l : Nat) : Chip :=
  if c.laneUp l && (c.lflag l F.LNA_STATUS.TX_DIM || c.lflag l F.LNA_STATUS.RX_DIM) then
    (c.onLane l fun x => { x with waking := true }).wakeSlice (l / 64)
  else c

/-- LANE_RESUMED: a side is active again. -/
def Chip.laneResumed (c : Chip) (l : Nat) (tx : Bool) : Chip :=
  if !(c.lane l).waking then c
  else
    let c := c.setDim l tx false
    let any := c.lflag l F.LNA_STATUS.TX_DIM || c.lflag l F.LNA_STATUS.RX_DIM
    let c := c.onLane l fun x => { x with waking := any }
    if c.lstate l = 9 then c.laneGo l 8 else c.laneTold l

/-! ### Give-up and degrading (R108, R109) -/

/-- A lane is driven into the 16 s back-off of its port. -/
def Chip.groupBackOff (c : Chip) (l : Nat) : Chip :=
  if c.lstate l = 0 ∨ c.lstate l = 10 then c
  else
    let c := c.onLane l fun x => { x.fresh with groupBack := true }
    (c.lput l F.LNA_SC_STATUS.BACKOFF 16).laneGo l 2

/-- PORT_GIVEUP. -/
def Chip.portGiveup (c : Chip) (p : Nat) : Chip :=
  let ls := c.portLanes p
  let w := c.portWidth p
  let lower := ls.take (w / 2)
  if c.getF F.PRT_STATUS.PSTATE p ≠ psForming ∨ c.getF F.PRT_GIVEUP.S p = 0 then c
  else if c.getF F.PRT_CFG.MODE p = 18 ∧ c.flag F.PRT_CFG.DEGRADE p ∧ 2 ≤ w ∧ !(c.portSt p).half
      ∧ lower.all (fun l => c.lstate l == 7 || c.laneUp l) then
    let c := c.setPort p { c.portSt p with half := true }
    (((ls.drop (w / 2)).foldl (fun c l => c.groupBackOff l) c).raise F.PRT_EVENTS.DEGRADED p).portEval p
  else
    let c := ls.foldl (fun c l => c.groupBackOff l) c
    (c.putF F.PRT_STATUS.PSTATE psGaveUp p).raise F.PRT_EVENTS.GAVE_UP p

/-- REFORM. -/
def Chip.reform (c : Chip) (p : Nat) : Chip :=
  if !(c.portSt p).half then c
  else
    let c := c.setPort p { c.portSt p with half := false }
    ((c.portLanes p).foldl (fun c l => if [0, 1, 10, 11].contains (c.lstate l) then c else c.bringUp l) c).portEval p

/-- PRT_CFG.ENABLE or a hold of the port has changed: its lanes follow. -/
def Chip.portCheck (c : Chip) (p : Nat) : Chip := ((c.portLanes p).foldl (fun c l => c.laneCheck l) c).portEval p

end Sys2Proof.Machine
end

