-- ==== Sys2Proof/Machine/LaneExec.lean ====
section
/-! DEFINITION. Commands of the serial lanes. Operand `lane`: 0 to 1023 line lanes, 1024 + k management lane k. -/
namespace Sys2Proof.Machine
open Sys2Proof

/-! ### Enabling and restarting (R89 to R93) -/

/-- LANE_ENABLE (R93): a write of LNA_CTRL.ENABLE. -/
def execLaneEnable (lane : Fin 1032) (b : Bool) (s : State) : Out := s.on fun c =>
  (c.lput lane.val F.LNA_CTRL.ENABLE (b2n b)).laneCheck lane.val
/-- RESTART (R92). -/
def execRestart (lane : Fin 1032) (s : State) : Out := s.on (·.laneRestart lane.val)
/-- CAP_CLEAR (R89). -/
def execCapClear (lane : Fin 1032) (s : State) : Out := s.on (·.capClear lane.val)
/-- PIN_TEST_DONE (R101): the codes the test found. -/
def execPinTestDone (lane : Fin 1032) (tx rx : Fin 16) (s : State) : Out := s.on (·.pinDone lane.val tx.val rx.val)
/-- PIN_FAULT (R101). -/
def execPinFault (lane : Fin 1032) (tx rx : Fin 16) (s : State) : Out := s.on (·.pinFault lane.val tx.val rx.val)
/-- FAULT_RETEST (R101): 16 s have passed in FAULT. -/
def execFaultRetest (lane : Fin 1032) (s : State) : Out := s.on (·.retest lane.val)
/-- RETEST (R101). -/
def execRetest (lane : Fin 1032) (s : State) : Out := s.on fun c => c.retest lane.val

/-! ### Staircase (R83 to R89) -/

/-- SET_TX (R83). -/
def execSetTx (lane : Fin 1032) (s : State) : Out := s.on (·.setTx lane.val)
/-- CAP_SET (R86). -/
def execCapSet (lane : Fin 1032) (g : SetGroups) (s : State) : Out := s.on (·.capSet lane.val g)
/-- ACK_SET (R88). -/
def execAckSet (lane : Fin 1032) (g : SetGroups) (s : State) : Out := s.on (·.ackSet lane.val g)
/-- STEP_SET (R88). -/
def execStepSet (lane : Fin 1032) (g : SetGroups) (s : State) : Out := s.on (·.stepSet lane.val g)
/-- QUAL_SET (R88). -/
def execQualSet (lane : Fin 1032) (g : SetGroups) (s : State) : Out := s.on (·.qualSet lane.val g)
/-- HOLD_SET (R87). -/
def execHoldSet (lane : Fin 1032) (g : SetGroups) (s : State) : Out := s.on (·.holdSet lane.val g)
/-- ABORT_SET (R89). -/
def execAbortSet (lane : Fin 1032) (g : SetGroups) (s : State) : Out := s.on (·.abortSet lane.val g)
/-- UP_SET (R88). -/
def execUpSet (lane : Fin 1032) (g : SetGroups) (s : State) : Out := s.on (·.upSet lane.val g)
/-- STEP_SWITCH (R88). -/
def execStepSwitch (lane : Fin 1032) (s : State) : Out := s.on (·.stepSwitch lane.val)
/-- STEP_ACQUIRED (R88). -/
def execStepAcquired (lane : Fin 1032) (s : State) : Out := s.on (·.stepAcquired lane.val)
/-- ACQUISITION_TIMEOUT (R93). -/
def execAcquisitionTimeout (lane : Fin 1032) (s : State) : Out := s.on fun c =>
  if c.lstate lane.val = 5 then c.laneFail lane.val 2 else c
/-- QUAL_WINDOW_END (R88). -/
def execQualWindowEnd (lane : Fin 1032) (errs : Nat) (aligned : Bool) (s : State) : Out :=
  s.on (·.qualEnd lane.val errs aligned)
/-- STEP_TIMEOUT (R89). -/
def execStepTimeout (lane : Fin 1032) (s : State) : Out := s.on (·.stepTimeout lane.val)
/-- BACKOFF_END (R90). -/
def execBackoffEnd (lane : Fin 1032) (s : State) : Out := s.on (·.backoffEnd lane.val)
/-- SIGNAL_RISE (R90). -/
def execSignalRise (lane : Fin 1032) (s : State) : Out := s.on (·.signalRise lane.val)
/-- LINK_LOST (R89). -/
def execLinkLost (lane : Fin 1032) (s : State) : Out := s.on (·.linkLost lane.val)

/-! ### IEEE bring-up (R91) -/

/-- IEEE_TRAINING_DONE (R79, R91): `ffe` are the taps in use, in the layout of LNA_TX_FFE. -/
def execIeeeTrainingDone (lane : Fin 1032) (ffe : Word) (s : State) : Out := s.on fun c =>
  if c.lstate lane.val = 3 then (c.lput lane.val F.LNA_TX_FFE.all ffe.toNat).laneIsUp lane.val else c
/-- IEEE_TRAINING_TIMEOUT (R91): `heard`: a partner has answered. -/
def execIeeeTrainingTimeout (lane : Fin 1032) (heard : Bool) (s : State) : Out := s.on fun c =>
  if c.lstate lane.val = 3 then c.laneFail lane.val (if heard then 2 else 1) else c

/-! ### Equaliser, generator, checker, alignment (R79 to R102) -/

/-- IDLE_RUN_FREEZE (R81). -/
def execIdleRunFreeze (lane : Fin 1032) (s : State) : Out := s.on (·.idleFreeze lane.val true)
/-- ADAPT_RESUME (R81). -/
def execAdaptResume (lane : Fin 1032) (s : State) : Out := s.on (·.idleFreeze lane.val false)
/-- RESET_ADAPT (R82). -/
def execResetAdapt (lane : Fin 1032) (s : State) : Out := s.on (·.resetAdapt lane.val)
/-- FFE_WRITE (R79). -/
def execFfeWrite (lane : Fin 1032) (v : Word) (s : State) : Out := s.on (·.ffeWrite lane.val v.toNat)
/-- PG_ENABLE (R95). -/
def execPgEnable (lane : Fin 1032) (b : Bool) (s : State) : Out := s.on (·.pgEnable lane.val b)
/-- CHECKER_LOCK (R96). -/
def execCheckerLock (lane : Fin 1032) (s : State) : Out := s.on fun c =>
  if c.lflag lane.val F.LNA_PC_CTRL.ENABLE then c.lput lane.val F.LNA_PC_STATUS.LOCK 1 else c
/-- CHECKER_LOCK_LOST (R96): `bits` and `errs` were counted while the lock held. -/
def execCheckerLockLost (lane : Fin 1032) (bits errs : Nat) (s : State) : Out := s.on (·.lockLost lane.val bits errs)
/-- PC_CLEAR (R96). -/
def execPcClear (lane : Fin 1032) (s : State) : Out := s.on (·.pcClear lane.val)
/-- INJ_ONE (R97). -/
def execInjOne (lane : Fin 1032) (s : State) : Out := s.on (·.inject lane.val)
/-- PERIODIC_INJECTION (R97). -/
def execPeriodicInjection (lane : Fin 1032) (s : State) : Out := s.on fun c =>
  if c.lget lane.val F.LNA_PG_INJ_PERIOD.V = 0 then c else c.inject lane.val
/-- ALIGN_MODE_SET (R98): a write of ALIGN_MODE. -/
def execAlignModeSet (lane : Fin 1032) (b : Bool) (s : State) : Out := s.on (·.alignMode lane.val b)
/-- BITSLIP (R98). -/
def execBitslip (lane : Fin 1032) (s : State) : Out := s.on (·.bitslip lane.val)
/-- CAPTURE (R98): `w` is the next whole 80-bit word. -/
def execCapture (lane : Fin 1032) (w : BitVec 80) (s : State) : Out := s.on (·.capture lane.val w.toNat)
/-- POLARITY_INVERSION (R102). -/
def execPolarityInversion (lane : Fin 1032) (s : State) : Out := s.on (·.polarity lane.val)

/-! ### Dim (R99, R100) -/

/-- LANE_DIM_ENTER (R99): the transmit side, or the receive side. -/
def execLaneDimEnter (lane : Fin 1032) (tx : Bool) (s : State) : Out := s.on (·.dimEnter lane.val tx)
/-- LANE_WAKE (R100). -/
def execLaneWake (lane : Fin 1032) (s : State) : Out := s.on (·.laneWake lane.val)
/-- LANE_RESUMED (R100). -/
def execLaneResumed (lane : Fin 1032) (tx : Bool) (s : State) : Out := s.on (·.laneResumed lane.val tx)

end Sys2Proof.Machine
end

