-- ==== Sys2Proof/Machine/Policy.lean ====
section
/-! DEFINITION. Update images in flash (R326, R327, R558 to R562), the Safelight policy container (R574 to R577) and its
activation (R578). -/
namespace Sys2Proof.Machine
open Sys2Proof

/-! ### Slots and floors (R558, R562). TYPE: 0 Plate, 1 firmware, 2 microcode patch, 3 policy -/

/-- Slot `b` (false A, true B) of a TYPE. -/
def Chip.slotOf (c : Chip) (t : Nat) (b : Bool) : Slot :=
  match t, b with
  | 0, false => c.flash.plateA
  | 0, true => c.flash.plateB
  | 1, false => c.flash.fwA
  | 1, true => c.flash.fwB
  | 2, false => c.flash.patchA
  | 2, true => c.flash.patchB
  | _, false => c.flash.polA
  | _, true => c.flash.polB

/-- The chip with a slot stored. -/
def Chip.setSlot (c : Chip) (t : Nat) (b : Bool) (x : Slot) : Chip :=
  match t, b with
  | 0, false => { c with flash := { c.flash with plateA := x } }
  | 0, true => { c with flash := { c.flash with plateB := x } }
  | 1, false => { c with flash := { c.flash with fwA := x } }
  | 1, true => { c with flash := { c.flash with fwB := x } }
  | 2, false => { c with flash := { c.flash with patchA := x } }
  | 2, true => { c with flash := { c.flash with patchB := x } }
  | _, false => { c with flash := { c.flash with polA := x } }
  | _, true => { c with flash := { c.flash with polB := x } }

/-- The BOOT slot of a TYPE. (log entry 57 DEDUCED.) -/
def Chip.bootSlot (c : Chip) (t : Nat) : Option Bool :=
  if (c.slotOf t false).state = 2 then some false else if (c.slotOf t true).state = 2 then some true else none

/-- The slots a start tries, in order: BOOT, then the other if VALID (R59, R561, R578). (log entry 57 DEDUCED.) -/
def Chip.bootOrder (c : Chip) (t : Nat) : List Bool :=
  match c.bootSlot t with
  | none => []
  | some b => if (c.slotOf t (!b)).state = 1 then [b, !b] else [b]

/-- Slot `b` of a TYPE becomes BOOT; the other, if BOOT, becomes VALID (R63, R561). -/
def Chip.selectSlot (c : Chip) (t : Nat) (b : Bool) : Chip :=
  let c := c.setSlot t b { c.slotOf t b with state := 2 }
  if (c.slotOf t (!b)).state = 2 then c.setSlot t (!b) { c.slotOf t (!b) with state := 1 } else c

/-- A TYPE's rollback floor. -/
def Chip.floorOf (c : Chip) (t : Nat) : Nat :=
  match t with | 0 => c.flash.plateFloor | 1 => c.flash.fwFloor | 2 => c.flash.patchFloor | _ => c.flash.polFloor

/-- A TYPE's floor raised; floors never decrease. -/
def Chip.raiseFloor (c : Chip) (t v : Nat) : Chip :=
  match t with
  | 0 => { c with flash := { c.flash with plateFloor := max v c.flash.plateFloor } }
  | 1 => { c with flash := { c.flash with fwFloor := max v c.flash.fwFloor } }
  | 2 => { c with flash := { c.flash with patchFloor := max v c.flash.patchFloor } }
  | _ => { c with flash := { c.flash with polFloor := max v c.flash.polFloor } }

/-- SERIAL of an update image; the vendor's own, an empty image, has 1 (R578; log entry 4 for the firmware). -/
def imgSerial (t : Nat) (img : Bytes) : Nat :=
  if img.isEmpty then 1 else leAt img (if t = 2 then 12 else 8) 8

/-- REASON codes (R551). -/
def rFormat : Nat := 3
def rSig : Nat := 4
def rRollback : Nat := 5
def rDecrypt : Nat := 6
def rContent : Nat := 0x0A

/-! ### Firmware (R559) -/

/-- Check of a firmware image: 0, or the REASON. -/
def Chip.fwCheck (c : Chip) (img : Bytes) : Nat :=
  let n := leAt img 16 4
  if img.isEmpty then (if 1 < c.flash.fwFloor then rRollback else 0)
  else if leAt img 0 4 ≠ 0x4957464D ∨ leAt img 4 2 ≠ 1 ∨ n = 0 ∨ 16776960 < n ∨ img.length ≠ n + 160 then rFormat
  else if !Config.ecdsaOk Config.firmwareKey (Config.sha384 (img.take (64 + n))) (img.drop (64 + n)) then rSig
  else if leAt img 8 8 < c.flash.fwFloor then rRollback
  else 0

/-! ### Microcode patch (R326, R327) -/

/-- RECORDS of a patch. -/
def patchCount (img : Bytes) : Nat := leAt img 6 2

/-- The decrypted records: address and word; none where GCM does not authenticate. -/
def patchOpen (img : Bytes) : Option Bytes :=
  let n := 28 * patchCount img
  Config.gcmOpen (sliceB img 20 12) (img.take 64) (sliceB img 64 n) (sliceB img (64 + n) 16)

/-- Record `i` of the plaintext. -/
def patchRec (pt : Bytes) (i : Nat) : Nat × BitVec 192 := (leAt pt (28 * i) 2, BitVec.ofNat 192 (leAt pt (28 * i + 4) 24))

/-- The records of a plaintext. -/
def patchRecs (img pt : Bytes) : List (Nat × BitVec 192) := (List.range (patchCount img)).map (patchRec pt)

/-- Check 5 of R327: every record names a vendor address and holds a word that may stand there. -/
def patchRecsOk (img pt : Bytes) : Bool :=
  (List.range (patchCount img)).all (fun i =>
    let r := patchRec pt i
    decide (r.1 < 0x6000) && leAt pt (28 * i + 2) 2 == 0 && mwOk r.1 r.2)

/-- MAGIC, FORMAT and lengths of a patch are right. -/
def patchShape (img : Bytes) : Bool :=
  leAt img 0 4 == 0x5450434D && leAt img 4 2 == 1 && decide (1 ≤ patchCount img) && decide (patchCount img ≤ 24576)
    && img.length == 176 + 28 * patchCount img

/-- SIG of a patch is valid. -/
def patchSigOk (img : Bytes) : Bool :=
  let n := img.length - 96
  Config.ecdsaOk Config.patchKey (Config.sha384 (img.take n)) (img.drop n)

/-- Checks 1, 2, 4 and 5 of R327 at UPDATE_WRITE: 0, or the REASON. -/
def Chip.patchCheck (c : Chip) (img : Bytes) : Nat :=
  if !patchShape img then rFormat
  else if !patchSigOk img then rSig
  else if leAt img 12 8 < c.flash.patchFloor then rRollback
  else match patchOpen img with
    | none => rDecrypt
    | some pt => if patchRecsOk img pt then 0 else rContent

/-- The load's check (R327): 0 and the records, or PATCH_REASON. -/
def Chip.patchLoad (c : Chip) (img : Bytes) (plateId : Nat) : Nat × List (Nat × BitVec 192) :=
  if !patchShape img || !patchSigOk img then (1, [])
  else if leAt img 12 8 < c.flash.patchFloor then (2, [])
  else if leAt img 8 4 ≠ plateId then (3, [])
  else match patchOpen img with
    | none => (4, [])
    | some pt => if patchRecsOk img pt then (0, patchRecs img pt) else (5, [])

/-! ### Policy (R574 to R577) -/

/-- Field of a policy's body. -/
def polAt (img : Bytes) (o n : Nat) : Nat := leAt img (256 + o) n

/-- The reserved bytes of a body are 0 (R575). -/
def polReservedOk (img : Bytes) : Bool :=
  let z (o n : Nat) : Bool := (sliceB img (256 + o) n).all (fun b => b == 0)
  z 0x204 12 && z 0x231 1 && z 0x23C 4 && z 0x24E 2 && z 0x26C 20 && z 0x340 0xC0
    && (List.range 9).all (fun r => z (0x408 + 16 * r) 8) && z 0x490 0x1B70

/-- The content checks of R576. (log entry 110 DESIGN CHOICE.) -/
def polContentOk (img : Bytes) : Bool :=
  let f (o n : Nat) := polAt img o n
  let within (lo hi v : Nat) : Bool := decide (lo ≤ v) && decide (v ≤ hi)
  polReservedOk img && byteAt img 7 == 0 && (sliceB img 169 87).all (fun b => b == 0) && leAt img 16 4 != 0
    && (byteAt img 6 == 0 || (sliceB img 24 48).all (fun b => b == 0))
    && f 0x218 8 % 4096 == 0 && f 0x220 8 % 4096 == 0 && decide (f 0x218 8 + f 0x220 8 ≤ 142 * 2 ^ 30)
    && within 64 65535 (f 0x228 2) && within 1 10000 (f 0x22A 2) && within 10 100000 (f 0x22C 4)
    && within 1 60000 (f 0x232 2) && decide (f 0x235 1 ≤ 32)
    && decide (f 0x260 1 < f 0x261 1) && decide (f 0x261 1 < f 0x262 1) && decide (f 0x262 1 < f 0x263 1)
    && decide (f 0x264 2 < f 0x266 2) && decide (f 0x260 1 ≤ 100) && decide (f 0x261 1 ≤ 105)
    && decide (f 0x262 1 ≤ 110) && decide (f 0x263 1 ≤ 115) && decide (f 0x264 2 ≤ 1200) && decide (f 0x266 2 ≤ 1250)
    && decide (f 0x234 1 ≤ 160) && bitOf 1 (f 0x24A 2) && bitOf 5 (f 0x24A 2) && bitOf 6 (f 0x24A 2)

/-- The signer of a policy is known and its signature valid (check 2 of R576). -/
def Chip.polSigOk (c : Chip) (img : Bytes) : Bool :=
  let key := sliceB img 72 97
  let d := Config.sha384 key
  ((byteAt img 6 == 0 && d == Config.vendorPolicyDigest)
      || (byteAt img 6 == 1 && !c.flash.ownerDigest.isEmpty && d == c.flash.ownerDigest))
    && Config.ecdsaOk key (Config.sha384 (img.take 16640)) (sliceB img 16640 96)

/-- R576: 0, or the REASON. -/
def Chip.polCheck (c : Chip) (img : Bytes) : Nat :=
  if img.isEmpty then (if 1 < c.flash.polFloor then rRollback else 0)
  else if leAt img 0 4 ≠ 0x504C4653 ∨ leAt img 4 2 ≠ 1 ∨ leAt img 20 4 ≠ 16384 ∨ img.length ≠ 16736 then rFormat
  else if !c.polSigOk img then rSig
  else if leAt img 8 8 < c.flash.polFloor then rRollback
  else if !polContentOk img then rContent
  else 0

/-- A byte string as a sparse body: offsets that are not 0. -/
def sparseB (bs : Bytes) : SMap Byte :=
  bs.zipIdx.filterMap (fun (x : Byte × Nat) => if x.1 = 0 then none else some (x.2, x.1))

/-- The factory policy's body (R578). -/
def factoryBody : SMap Byte :=
  (List.range 0x490).filterMap (fun o => if factoryByte o = 0 then none else some (o, factoryByte o)) ++ [(0x2000, 1)]

/-- The quarantine policy's body (R578). -/
def quarantineBody : SMap Byte :=
  (List.range 0x270).filterMap (fun o => if quarantineByte o = 0 then none else some (o, quarantineByte o))

/-- Body of a policy image. -/
def polBody (img : Bytes) : SMap Byte := if img.isEmpty then factoryBody else sparseB (sliceB img 256 16384)

/-- The first activated vendor-signed policy with a non-zero OWNER_DIGEST sets the owner digest (R577). -/
def Chip.takeOwner (c : Chip) (img : Bytes) : Chip :=
  let d := sliceB img 24 48
  if img.isEmpty || byteAt img 6 != 0 || !c.flash.ownerDigest.isEmpty || d.all (fun b => b == 0) then c
  else ({ c with flash := { c.flash with ownerDigest := d } }).log 15 0 0x0287 0 (leAt d 0 8)

/-- Activation (R578): the first policy that passes, else the quarantine policy. -/
def Chip.activate1 (c : Chip) : Chip :=
  let put (body : SMap Byte) (c : Chip) : Chip := { c with
    sfl := { c.sfl with body := body, cpTokens := [], cpTime := [], freeze := [] } }
  let ok := (c.bootOrder 3).find? (fun b => c.polCheck (c.slotOf 3 b).image == 0)
  match ok with
  | some b =>
    let img := (c.slotOf 3 b).image
    let id := if img.isEmpty then 1 else leAt img 16 4
    let signer := byteAt img 6
    let c := put (polBody img) (c.takeOwner img)
    let c := (((c.putF F.SFL_STATUS.ACTIVE 1).putF F.SFL_STATUS.QUARANTINE 0).putF F.SFL_STATUS.SIGNER signer).putF F.SFL_STATUS.SLOT (b2n b)
    let c := ((c.putF F.SFL_STATUS.OWNER_SET (b2n !c.flash.ownerDigest.isEmpty)).putF F.SFL_POLICY_ID.V id).putQ F.SFL_SERIAL.V (imgSerial 3 img)
    let c := (c.putF F.SFL_EVENT_EN.V (c.pol 0x268 4)).putF F.GLB_STATUS.SAFELIGHT_ACTIVE 1
    c.log 15 0 0x0280 0 (id + 2 ^ 32 * b2n b + 2 ^ 40 * signer)
  | none =>
    let reason (b : Bool) : Nat := if (c.bootOrder 3).contains b then c.polCheck (c.slotOf 3 b).image else 0
    let data := reason false + 256 * reason true
    let c := put quarantineBody c
    let c := ((c.putF F.SFL_STATUS.ACTIVE 0).putF F.SFL_STATUS.QUARANTINE 1).putF F.GLB_STATUS.SAFELIGHT_ACTIVE 0
    let c := (c.putF F.SFL_POLICY_ID.V 0).putQ F.SFL_SERIAL.V 0
    (c.putF F.SFL_EVENT_EN.V (c.pol 0x268 4)).log 15 3 0x0281 0 data

end Sys2Proof.Machine
end

