-- ==== Sys2Proof/Machine/Site.lean ====
section
/-! DEFINITION. Module sites (R126 to R130): presence, reset, power admission, flags, monitors and the host's transfers. -/
namespace Sys2Proof.Machine
open Sys2Proof

/-- SSTATE codes. -/
def ssEmpty : Nat := 0
def ssReset : Nat := 1
def ssInit : Nat := 2
def ssLowPower : Nat := 3
def ssReady : Nat := 4
def ssActive : Nat := 5
def ssDenied : Nat := 6
def ssUnmanaged : Nat := 7
def ssFault : Nat := 8

/-- SSTATE of a site. -/
def Chip.sstate (c : Chip) (m : Nat) : Nat := c.getF F.PRT_SITE_STATUS.SSTATE m
/-- A site's state beyond its registers. -/
def Chip.site (c : Chip) (m : Nat) : SiteSt := smGet (fun _ => SiteSt.init) c.sites m
/-- The chip with a site's state changed. -/
def Chip.onSite (c : Chip) (m : Nat) (f : SiteSt → SiteSt) : Chip :=
  { c with sites := smSet (fun _ => SiteSt.init) c.sites m (f (c.site m)) }

/-- RESETL and LPMODE as a site drives them (R127, R130). -/
def Chip.sitePins (c : Chip) (m : Nat) : Chip :=
  let st := c.sstate m
  let run := c.power.vin && c.flag F.PRT_SITE_CTRL.ENABLE m
  let auto := c.flag F.PRT_SITE_CTRL.AUTO m
  let reset := c.flag F.PRT_SITE_CTRL.FORCE_RESET m || (auto && decide (st ≤ ssReset))
  let lp := c.flag F.PRT_SITE_CTRL.FORCE_LPMODE m || (auto && (decide (st < ssLowPower) || decide (ssActive < st)))
  (c.putF F.PRT_SITE_STATUS.RESETL (b2n (run && !reset)) m).putF F.PRT_SITE_STATUS.LPMODE (b2n (!run || lp)) m

/-- A site enters a state; its pins and its lanes follow. -/
def Chip.siteGo (c : Chip) (m st : Nat) : Chip :=
  let c := (c.putF F.PRT_SITE_STATUS.SSTATE st m).sitePins m
  let c := if st = ssReady then c.raise F.PRT_SITE_EVENTS.READY m else c
  (List.range 8).foldl (fun c k => c.laneCheck (8 * m + k)) c

/-- A present module is handled as newly inserted (R127, R130). -/
def Chip.siteStart (c : Chip) (m : Nat) : Chip :=
  let c := c.onSite m fun x => { x with pollOn := false }
  if !c.power.vin || !c.flag F.PRT_SITE_CTRL.ENABLE m || !c.flag F.PRT_SITE_STATUS.PRESENT m then c.siteGo m ssEmpty
  else c.siteGo m (if c.flag F.PRT_SITE_CTRL.AUTO m then ssReset else ssUnmanaged)

/-- A host transfer ends with a status (R128). -/
def Chip.xferEnd (c : Chip) (m st : Nat) : Chip :=
  let c := c.onSite m fun x => { x with busy := false }
  (((c.putF F.PRT_SITE_XFER.STATUS st m).putF F.PRT_SITE_XFER.DONE 1 m).putF F.PRT_SITE_XFER.GO 0 m).raise
    F.PRT_SITE_EVENTS.XFER_DONE m

/-- MODULE_INSERT. -/
def Chip.moduleInsert (c : Chip) (m : Nat) : Chip :=
  if c.flag F.PRT_SITE_STATUS.PRESENT m then c
  else
    let c := c.putF F.PRT_SITE_STATUS.PRESENT 1 m
    if c.power.vin then (c.raise F.PRT_SITE_EVENTS.INSERT m).siteStart m else c

/-- MODULE_REMOVE. -/
def Chip.moduleRemove (c : Chip) (m : Nat) : Chip :=
  if !c.flag F.PRT_SITE_STATUS.PRESENT m then c
  else if !c.power.vin then c.putF F.PRT_SITE_STATUS.PRESENT 0 m
  else
    let c := (c.putF F.PRT_SITE_STATUS.PRESENT 0 m).raise F.PRT_SITE_EVENTS.REMOVE m
    let c := (c.putF F.PRT_SITE_STATUS.MAXPOWER 0 m).putF F.PRT_SITE_STATUS.CMIS_REV 0 m
    let c := if (c.site m).busy then c.xferEnd m stInvalid else c
    c.siteStart m

/-- RESET_PULSE_END. -/
def Chip.resetPulseEnd (c : Chip) (m : Nat) : Chip :=
  if c.sstate m = ssReset ∧ !c.flag F.PRT_SITE_CTRL.FORCE_RESET m then
    (c.onSite m fun x => { x with pollOn := true }).siteGo m ssInit
  else c

/-- Power admission of a module whose MaxPower is known (R127). -/
def Chip.admitPower (c : Chip) (m : Nat) : Chip :=
  let lim := c.getF F.PRT_SITE_CTRL.POWER_LIMIT m
  if lim ≠ 0 ∧ c.getF F.PRT_SITE_STATUS.MAXPOWER m ≤ lim then c.siteGo m ssLowPower
  else if c.sstate m = ssDenied then c
  else (c.siteGo m ssDenied).raise F.PRT_SITE_EVENTS.POWER_DENIED m

/-- ADDRESS_POLL: the module's answer, if any: whether it is a CMIS module, its revision and MaxPower. -/
def Chip.addressPoll (c : Chip) (m : Nat) (resp : Option (Bool × Nat × Nat)) : Chip :=
  if c.sstate m ≠ ssInit ∨ !(c.site m).pollOn then c
  else match resp with
    | none => c
    | some (cmis, rev, mp) =>
      let c := c.onSite m fun x => { x with pollOn := false }
      let c := (c.putF F.PRT_SITE_STATUS.CMIS_REV rev m).putF F.PRT_SITE_STATUS.MAXPOWER mp m
      if !cmis || decide (rev < 0x40) then c.siteGo m ssUnmanaged else c.admitPower m

/-- NO_RESPONSE. -/
def Chip.noResponse (c : Chip) (m : Nat) : Chip :=
  if c.sstate m = ssInit then
    ((c.onSite m fun x => { x with pollOn := false }).siteGo m ssFault).raise F.PRT_SITE_EVENTS.NO_RESPONSE m
  else c

/-- SITE_FAULT_RETRY. -/
def Chip.siteRetry (c : Chip) (m : Nat) : Chip :=
  if c.sstate m = ssFault then (c.onSite m fun x => { x with pollOn := true }).siteGo m ssInit else c

/-- CMIS_TRANSACTION_DONE: 0 ModuleReady, 1 DataPathActivated, 2 data path deactivated. -/
def Chip.cmisDone (c : Chip) (m what : Nat) : Chip :=
  if what = 0 ∧ c.sstate m = ssLowPower then c.siteGo m ssReady
  else if what = 1 ∧ c.sstate m = ssReady then c.siteGo m ssActive
  else if what = 2 ∧ c.sstate m = ssActive then c.siteGo m ssReady
  else c

/-- Latched-flag bytes that a read has returned are ORed into PRT_SITE_FLAGS (R129). -/
def Chip.orFlags (c : Chip) (m : Nat) (fs : Bytes) : Chip :=
  let a := F.PRT_SITE_FLAGS.V.addr m
  let old := c.getBytes a 32
  let new := (List.range 32).map (fun k => BitVec.ofNat 8 (Nat.lor (byteAt old k) (byteAt fs k)))
  let c := c.putWords a new
  if new = old then c else c.raise F.PRT_SITE_EVENTS.FLAG m

/-- INTL_FALL: under AUTO the flags are read, which clears them in the module, and INTL rises again. -/
def Chip.intlFall (c : Chip) (m : Nat) (fs : Bytes) : Chip :=
  if !c.flag F.PRT_SITE_STATUS.PRESENT m then c
  else if c.flag F.PRT_SITE_CTRL.AUTO m && decide (ssLowPower ≤ c.sstate m) && decide (c.sstate m ≤ ssDenied) then
    (c.orFlags m fs).putF F.PRT_SITE_STATUS.INTL 1 m
  else c.putF F.PRT_SITE_STATUS.INTL 0 m

/-- MONITOR_POLL. -/
def Chip.monitorPoll (c : Chip) (m temp vcc : Nat) : Chip :=
  if c.flag F.PRT_SITE_CTRL.AUTO m && decide (ssLowPower ≤ c.sstate m) && decide (c.sstate m ≤ ssDenied) then
    (c.putF F.PRT_SITE_MON.TEMP temp m).putF F.PRT_SITE_MON.VCC vcc m
  else c

/-- Bytes of a transfer: LENGTH, where 0 means 128. -/
def xferLen (n : Nat) : Nat := if n = 0 then 128 else n

/-- XFER_GO (R128). -/
def Chip.xferGo (c : Chip) (m : Nat) (write : Bool) : Chip :=
  if (c.site m).busy then c
  else
    let c := c.putF F.PRT_SITE_XFER.DIR (b2n write) m
    let o := c.getF F.PRT_SITE_XFER_ADDR.OFFSET m
    let n := xferLen (c.getF F.PRT_SITE_XFER_ADDR.LENGTH m)
    if !c.flag F.PRT_SITE_STATUS.PRESENT m || decide (128 < n) || (decide (o < 0x80) && decide (0x80 < o + n))
        || decide (0x100 < o + n) then c.xferEnd m stInvalid
    else (c.onSite m fun x => { x with
      busy := true
      addr := c.getF F.PRT_SITE_XFER_ADDR.all m
      write := write
      data := if write then c.getBytes (F.PRT_SITE_DATA.V.addr m) n else [] }).putF F.PRT_SITE_XFER.GO 1 m

/-- XFER_DONE: `ok` or TIMEOUT; the bytes read, and those of them that are latched flags at their places in PRT_SITE_FLAGS. -/
def Chip.xferDone (c : Chip) (m : Nat) (ok : Bool) (data flags : Bytes) : Chip :=
  let x := c.site m
  if !x.busy then c
  else if !ok then c.xferEnd m stTimeout
  else
    let n := xferLen (x.addr % 256)
    let c := if x.write then c else (c.putWords (F.PRT_SITE_DATA.V.addr m) (sliceB data 0 n)).orFlags m flags
    c.xferEnd m stOk

/-- PRT_SITE_CTRL has been written over `old`: the site follows (R127). -/
def Chip.siteCtrl (c : Chip) (m old : Nat) : Chip :=
  let new := c.getF F.PRT_SITE_CTRL.all m
  if bitOf 0 old ≠ bitOf 0 new ∨ bitOf 8 old ≠ bitOf 8 new then c.siteStart m
  else if bitOf 8 new ∧ bitOf 3 new ∧ !bitOf 3 old ∧ c.flag F.PRT_SITE_STATUS.PRESENT m then c.siteGo m ssReset
  else if c.sstate m = ssDenied then (c.admitPower m).sitePins m
  else c.sitePins m

end Sys2Proof.Machine
end

