-- ==== Sys2Proof/Machine/Power.lean ====
section
/-! DEFINITION. Supplies, starts and resets (R36, R38, R513, R540, R546, R622), and the management processor's start (R547,
R561). -/
namespace Sys2Proof.Machine
open Sys2Proof

/-! ### Starts and supplies -/

/-- The device with every rail but the always-on domain's newly off: the log, the flash, the Safelight partition and what lies
outside the device (host memory, PERST#, the modules present) stay (R544). -/
def Chip.cold (c : Chip) : Chip :=
  let keep (e : Nat × Word) : Option (Nat × Word) :=
    if (0x20000 ≤ e.1 ∧ e.1 < 0x30000) ∨ e.1 = F.MGT_LOG_HEAD.V.base ∨ e.1 = F.MGT_LOG_HEAD.V.base + 4 then some e else none
  let k := { Chip.reset with
    regs := c.regs.filterMap keep
    hostMem := c.hostMem
    freeCtr := c.freeCtr
    rdData := c.rdData
    power := c.power
    flash := c.flash
    sfl := c.sfl
    mgt := { MgtSt.reset with logBuf := c.mgt.logBuf, logFlash := c.mgt.logFlash, nextSeq := c.mgt.nextSeq, oobReplies := c.mgt.oobReplies }
    host := { Chip.reset.host with perst := c.host.perst } }
  let k := k.putF F.MGT_LOG_STATUS.BUFFERED c.mgt.logBuf.length
  (List.range 128).foldl (fun k m => if c.flag F.PRT_SITE_STATUS.PRESENT m then k.putF F.PRT_SITE_STATUS.PRESENT 1 m else k) k

/-- A start (R61, R556): 0 power-up, 1 device reset, 2 VIN return. Watch mode is in force from it (R442). The load of R61 is
the command FULL_LOAD. -/
def Chip.start (c : Chip) (why : Nat) : Chip :=
  let k := c.cold
  let k := { k with power := { k.power with
    vin := true
    offHeld := false
    idleAll := false
    firstEntry := true
    aonFault := false
    bar0Gated := why == 1
    loadDue := true
    fresh := false
    unrec := false } }
  let k := { k with time := { k.time with incr := Config.incrCalibration % 2 ^ 48 } }
  let k := (k.putQ F.TIM_INCR.V (Config.incrCalibration % 2 ^ 48)).putF F.GLB_STATUS.WATCH_MODE 1
  let k := (List.range 128).foldl (fun k m => if k.flag F.PRT_SITE_STATUS.PRESENT m then k.raise F.PRT_SITE_EVENTS.INSERT m else k) k
  k.log 18 0 0x0001 0 why

/-- The rails are switched off (R546). -/
def Chip.railsOff (c : Chip) (held : Bool) : Chip :=
  let k := c.cold
  { k with power := { k.power with vin := false, offHeld := held, idleAll := false, aonFault := false, bar0Gated := false, loadDue := false, unrec := false } }

/-- VIN_QUALIFIED. -/
def Chip.vinQualified (c : Chip) : Chip :=
  if !c.power.aon || c.power.vin || c.power.offHeld then c else c.start (if c.power.fresh then 0 else 2)

/-- VIN_LOSS; after a trip OFF it is the absence of VIN that the next start waits for (R584). -/
def Chip.vinLoss (c : Chip) : Chip :=
  if c.power.vin then (c.log 18 3 0x0009 0 0).railsOff false
  else { c with power := { c.power with offHeld := false } }

/-- VIN_OVER (R608): `mv` is the sample of VIN. The device starts again once VIN has been in range for 10 ms. -/
def Chip.vinOver (c : Chip) (mv : Nat) : Chip :=
  if c.power.vin then ((c.raise F.MGT_EVENTS.VIN_RANGE).log 0 3 0x0207 0 (mv % 65536)).railsOff false else c

/-- VSB_LOSS (R622): everything off; what the flash holds stays, and so does the count of SEQ.
(log entry 110 DESIGN CHOICE.) -/
def Chip.vsbLoss (c : Chip) : Chip :=
  if !c.power.vsb then c
  else
    let k := c.cold
    let m := k.mgt
    { k with
      regs := (k.regs.filter (fun e => decide (0x40000 ≤ e.1)))
      mgt := { m with logBuf := [] }
      sfl := SafeSt.reset
      power := { k.power with
        vsb := false
        vin := false
        aon := false
        offHeld := false
        idleAll := false
        aonFault := false
        bar0Gated := false
        loadDue := false
        unrec := false } }

/-- VSB_RISE (R546): the always-on domain starts. -/
def Chip.vsbRise (c : Chip) : Chip :=
  if c.power.vsb then c
  else
    let c := { c with power := { c.power with vsb := true, aon := true, fresh := true } }
    let c := c.putF F.SFL_STATUS.OWNER_SET (b2n !c.flash.ownerDigest.isEmpty)
    c.putQ F.MGT_LOG_HEAD.V (c.mgt.nextSeq - 1)

/-- A device reset (R513): as power-up, with the always-on domain running on and the host link up. -/
def Chip.deviceReset (c : Chip) : Chip :=
  let link := c.rd F.HST_LINK_STATUS.all.base
  (c.start 1).wr F.HST_LINK_STATUS.all.base link

/-- DEVICE_RESET: a write of HST_RESET. -/
def Chip.resetWrite (c : Chip) (key : Nat) : Chip :=
  if key ≠ 0x0512A5A5 then c
  else if !c.resetAllowed then (c.deniedCapture 0 F.HST_RESET.V.base 0).hostErr F.HST_ERR_CAUSE.RESET_DENIED 0 F.HST_RESET.V.base
  else c.deviceReset

/-- SCHEDULED_DEVICE_RESET (R540): at its time, or late once a STEP has passed it. -/
def Chip.resetDue (c : Chip) : Chip :=
  match c.gang.resetAt with
  | none => c
  | some t => if c.due t || c.time.late.contains PendAct.reset then c.leaveOut.deviceReset else c

/-- UNRECOVERABLE_FAULT (R38, R587): of the Safelight partition, or of the rest of the always-on domain. -/
def Chip.unrecoverable (c : Chip) (sfl : Bool) : Chip :=
  let c := (c.raiseGlb F.GLB_STATUS.FAULT_PENDING).log 18 3 0x0006 0 0
  let c := if sfl then c.log 15 3 0x0288 0 0 else c
  { c with power := { c.power with idleAll := true, aonFault := c.power.aonFault || sfl, unrec := true } }

/-! ### Start of the management processor (R547, R561) -/

/-- Firmware of slot `b` runs. -/
def Chip.fwStart (c : Chip) (b fallback : Bool) : Chip :=
  let c := { c with mgt := { c.mgt with fwRun := some (b2n b) } }
  let c := (c.putF F.MGT_MP_STATUS.STATE 2).putF F.MGT_MP_STATUS.FW_SLOT (b2n b)
  if fallback then ((c.putF F.MGT_MP_STATUS.FALLBACK 1).raise F.MGT_EVENTS.FW_FALLBACK).log 14 2 0x000B 0 (b2n b) else c

/-- No firmware slot could be started. -/
def Chip.fwNone (c : Chip) : Chip := ({ c with mgt := { c.mgt with fwRun := none } }).putF F.MGT_MP_STATUS.STATE 3

/-- The boot ROM starts firmware: the BOOT slot if it passes, else the other if it is VALID and passes.
(log entry 61 DESIGN CHOICE.) -/
def Chip.mpStart (c : Chip) : Chip :=
  let c := c.putF F.MGT_MP_STATUS.FALLBACK 0
  match (c.bootOrder 1).find? (fun b => c.fwCheck (c.slotOf 1 b).image == 0) with
  | some b => c.fwStart b (c.bootSlot 1 != some b)
  | none => c.fwNone

/-- FIRMWARE_HEARTBEAT_TIMEOUT (R561): the started slot's heartbeat has not begun. -/
def Chip.heartbeatLate (c : Chip) : Chip :=
  if c.getF F.MGT_MP_STATUS.STATE ≠ 2 then c
  else
    let b := c.flag F.MGT_MP_STATUS.FW_SLOT
    let o := c.slotOf 1 (!b)
    if !c.flag F.MGT_MP_STATUS.FALLBACK && o.state == 1 && c.fwCheck o.image == 0 then c.fwStart (!b) true else c.fwNone

/-- MP_WATCHDOG (R547): the heartbeat has stopped for 1 s. -/
def Chip.mpWatchdog (c : Chip) : Chip :=
  if c.getF F.MGT_MP_STATUS.STATE ≠ 2 then c else ((c.log 18 2 0x000A 0 0).raise F.MGT_EVENTS.MP_FAIL).mpStart

end Sys2Proof.Machine
end

