-- ==== Sys2Proof/Machine/Mgt.lean ====
section
/-! DEFINITION. Management (R547 to R571): mailbox and its management-port service, sensors and trips (R584), event log, parking
and bank gating. -/
namespace Sys2Proof.Machine
open Sys2Proof

/-! ### Mailbox commands (R549 to R551, R560 to R562) -/

/-- What a mailbox command answers: status, REASON, arguments, and data where it gives some. -/
structure MbxAns where
  st : Nat
  reason : Nat
  args : List Nat
  data : Bytes

/-- The slot of a TYPE that runs: the started firmware, the patch applied, the policy in force (R560). -/
def Chip.runSlot (c : Chip) (t : Nat) : Option Bool :=
  match t with
  | 1 => c.mgt.fwRun.map (· == 1)
  | 2 => c.mgt.patchRun.map (· == 1)
  | _ => if c.flag F.SFL_STATUS.ACTIVE then some (c.flag F.SFL_STATUS.SLOT) else none

/-- SERIAL of the running image of a TYPE; 0 for none. -/
def Chip.runSerial (c : Chip) (t : Nat) : Nat :=
  match c.runSlot t with
  | none => 0
  | some b => if t = 3 then c.getQ F.SFL_SERIAL.V else imgSerial t (c.slotOf t b).image

/-- The slot UPDATE_WRITE writes (R560). -/
def Chip.writeSlotFor (c : Chip) (t : Nat) : Bool :=
  match c.runSlot t with
  | some b => !b
  | none => (c.slotOf t false).state == 2

/-- The check of an image of a TYPE at UPDATE_WRITE: 0, or the REASON. -/
def Chip.updateCheck (c : Chip) (t : Nat) (img : Bytes) : Nat :=
  if img.isEmpty then rFormat
  else match t with | 1 => c.fwCheck img | 2 => c.patchCheck img | _ => c.polCheck img

/-- DATA of INFO. -/
def Chip.infoData (c : Chip) : Bytes :=
  let s (t : Nat) (b : Bool) : Nat := (c.slotOf t b).state % 4
  natLe 8 (c.runSerial 1) ++ natLe 8 c.flash.fwFloor ++ natLe 8 (c.runSerial 2) ++ natLe 8 c.flash.patchFloor
    ++ natLe 8 (c.runSerial 3) ++ natLe 8 c.flash.polFloor
    ++ natLe 1 (s 1 false + 4 * s 1 true + 16 * s 2 false + 64 * s 2 true) ++ natLe 1 (s 3 false + 4 * s 3 true)
    ++ natLe 1 (c.mgt.fwRun.getD 0 + 2 * c.mgt.patchRun.getD 0) ++ zerosB 205

/-- DATA of SENSORS. -/
def Chip.sensorData (c : Chip) : Bytes :=
  (List.range 60).flatMap (fun n => natLe 4 (c.getF F.MGT_SNS_VAL.all n))

/-- An event-log entry as 32 bytes (R555). -/
def LogEntry.bytes (e : LogEntry) : Bytes :=
  natLe 8 e.seq ++ natLe 8 e.time ++ natLe 1 e.source ++ natLe 1 e.severity ++ natLe 2 e.code ++ natLe 2 e.inst
    ++ natLe 1 e.flags ++ natLe 1 0 ++ natLe 8 e.data

/-- The entries LOG_READ returns from a first SEQ. -/
def Chip.logFrom (c : Chip) (seq : Nat) : List LogEntry :=
  ((c.mgt.logFlash ++ c.mgt.logBuf).filter (fun e => decide (seq ≤ e.seq))).take 8

/-- REASON of the INVALID checks of a command, in order; 0 where none fails (R551). -/
def Chip.mbxInvalid (c : Chip) (op : Nat) (a : Nat → Nat) : Nat :=
  let rom := c.getF F.MGT_MP_STATUS.STATE == 3
  let typed := op == 5 || op == 6 || op == 7
  if op = 0 ∨ 7 < op ∨ (rom ∧ (op = 2 ∨ op = 4)) ∨ (typed ∧ (a 0 = 0 ∨ 3 < a 0)) then 1
  else if op = 5 ∧ (a 1 % 4096 ≠ 0 ∨ stageLen < a 1 + a 2 ∨ c.flag F.GLB_STATUS.DRAM_TRAINED = false) then 2
  else if op = 6 ∧ 1 < a 1 then 2
  else if op = 5 then c.updateCheck (a 0) (c.dramRead (stageBase + a 1) (a 2))
  else if op = 6 ∧ (c.slotOf (a 0) (a 1 == 1)).state = 0 then 7
  else if op = 7 ∧ c.runSlot (a 0) = none then 7
  else 0

/-- A mailbox command from the host (`oob` none) or a management port: its answer, or none while a slot is being written.
(log entries 60 DEDUCED, 63 DEDUCED.) -/
def Chip.mailbox (c : Chip) (oob : Option (Nat × Nat)) (op : Nat) (args : List Nat) : Option MbxAns × Chip :=
  let a (k : Nat) : Nat := args.getD k 0
  let bad := c.mbxInvalid op a
  let ok (data : Bytes) : Option MbxAns := some ⟨stOk, 0, args, data⟩
  if bad ≠ 0 then (some ⟨stInvalid, bad, args, []⟩, c)
  else if !c.polBit (if oob.isSome then 0x24C else 0x24A) op then
    (some ⟨stDenied, 8, args, []⟩, c.deniedCapture (if oob.isSome then 4 else 3) F.MGT_MBX_CMD.all.base 0)
  else if c.mgt.flashWrite.isSome then (some ⟨stBusy, 0x0B, args, []⟩, c)
  else match op with
    | 1 => (ok c.infoData, c)
    | 2 => (ok c.sensorData, c)
    | 3 =>
      let es := c.logFrom (a 0 + 2 ^ 32 * a 1)
      (some ⟨stOk, 0, [a 0, a 1, es.length, a 3], es.flatMap LogEntry.bytes⟩, c)
    | 4 => (ok [], c.log 16 0 (a 0 % 65536) 0 (a 1 + 2 ^ 32 * a 2))
    | 5 =>
      let w : FlashWrite := ⟨a 0, b2n (c.writeSlotFor (a 0)), c.dramRead (stageBase + a 1) (a 2), oob⟩
      (none, { c with mgt := { c.mgt with flashWrite := some w } })
    | 6 => (ok [], (c.selectSlot (a 0) (a 1 == 1)).log 14 0 0x000D 0 0)
    | _ => (ok [], (c.raiseFloor (a 0) (c.runSerial (a 0))).log 14 0 0x000E 0 (c.runSerial (a 0)))

/-- The host's command completes. -/
def Chip.mbxDone (c : Chip) (r : MbxAns) : Chip :=
  let c := c.putF F.MGT_MBX_STATUS.REASON r.reason
  let c := (List.range 4).foldl (fun c k => c.putF F.MGT_MBX_ARG.V (r.args.getD k 0) k) c
  (c.putWords (F.MGT_MBX_DATA.V.addr 0) r.data).finish portMbx r.st

/-- A stopped management processor runs again (R547). -/
def Chip.mpWake (c : Chip) : Chip := if c.getF F.MGT_MP_STATUS.STATE = 0 then c.putF F.MGT_MP_STATUS.STATE 2 else c

/-- A host write of MGT_MBX_CMD. -/
def Chip.mbxCmd (c : Chip) (op : Nat) : Chip := c.command portMbx fun c =>
  match c.mpWake.mailbox none op ((List.range 4).map (fun k => c.getF F.MGT_MBX_ARG.V k)) with
  | (some r, c) => c.mbxDone r
  | (none, c) => c.putF F.MGT_MBX_STATUS.RUNNING 1

/-! ### Management-port service (R552) -/

/-- An allow prefix admits a source address. -/
def Chip.oobAllows (c : Chip) (src : Bytes) (i : Nat) : Bool :=
  let e := sliceB c.mgt.mpConf (48 + 20 * i) 20
  let n := byteAt e 16
  if (e.take 17).all (fun b => b == 0) then false
  else beNat (sliceB src 0 16) / 2 ^ (128 - n) == beNat (e.take 16) / 2 ^ (128 - n)

/-- The reply datagram to a command with a TAG. -/
def oobReply (op tag : Nat) (r : MbxAns) : Bytes :=
  natLe 1 op ++ natLe 1 r.st ++ natBe 2 tag ++ natLe 1 r.reason ++ zerosB 3
    ++ (List.range 4).flatMap (fun k => natBe 4 (r.args.getD k 0)) ++ r.data

/-- A reply leaves by a management port. -/
def Chip.oobSend (c : Chip) (port op tag : Nat) (r : MbxAns) : Chip :=
  { c with mgt := { c.mgt with oobReplies := c.mgt.oobReplies ++ [(port, oobReply op tag r)] } }

/-- OOB_DATAGRAM: a UDP datagram to OOB_PORT from a source address arrives at a management port. (log entry 63 DEDUCED.) -/
def Chip.oobDatagram (c : Chip) (port : Nat) (src pl : Bytes) : Chip :=
  if leAt c.mgt.mpConf 2 2 = 0 ∨ bitOf 3 (byteAt c.mgt.mpConf port) = false then c
  else if !(List.range 4).any (c.oobAllows src) || decide (pl.length < 24) || decide (280 < pl.length) || byteAt pl 1 != 0
      || leAt pl 4 4 != 0 then c.bump F.MGT_CNT_OOB_DROP.V
  else
    let op := byteAt pl 0
    let tag := beAt pl 2 2
    match c.mpWake.mailbox (some (port, tag)) op ((List.range 4).map (fun k => beAt pl (8 + 4 * k) 4)) with
    | (some r, c) => c.oobSend port op tag r
    | (none, c) => c

/-- FLASH_SLOT_WRITE_DONE of an UPDATE_WRITE (R551, R560): the slot read back, or not after 3 attempts.
(log entry 62 DEDUCED.) -/
def Chip.updateWritten (c : Chip) (ok : Bool) : Chip :=
  match c.mgt.flashWrite with
  | none => c
  | some w =>
    let c := { c with mgt := { c.mgt with flashWrite := none } }
    let b := w.slot == 1
    let c := if ok then
        (c.setSlot w.kind b ⟨1, w.image⟩).log 14 0 0x000C 0 (w.kind + 256 * w.slot + 65536 * (imgSerial w.kind w.image % 2 ^ 48))
      else c.setSlot w.kind b Slot.empty
    let r (args : List Nat) : MbxAns := if ok then ⟨stOk, 0, args, []⟩ else ⟨stTimeout, 9, args, []⟩
    match w.oob with
    | none => c.mbxDone (r ((List.range 4).map (fun k => c.getF F.MGT_MBX_ARG.V k)))
    | some (port, tag) => c.oobSend port 5 tag (r [w.kind, 0, w.image.length, 0])

/-! ### Sensors (R553, R554) -/

/-- KIND of a sensor. -/
def sensorKind (n : Nat) : Nat :=
  if n < 46 ∨ n = 58 ∨ n = 59 then 1 else if n = 46 ∨ (48 ≤ n ∧ n ≤ 56) then 2 else if n = 47 then 3 else 4

/-- The reading a comparison uses: signed for KIND 1. -/
def sensorInt (n v : Nat) : Int := if sensorKind n = 1 then signedOf 16 v else (v : Int)

/-- A reading with its compare enabled meets one threshold: it fires once per crossing. -/
def Chip.threshold (c : Chip) (n v : Nat) (hi : Bool) : Chip :=
  let lim := c.getF (if hi then F.MGT_SNS_THR.HI else F.MGT_SNS_THR.LO) n
  let past : Bool := if hi then decide (sensorInt n lim ≤ sensorInt n v) else decide (sensorInt n v ≤ sensorInt n lim)
  let fired := smGet (fun _ => false) (if hi then c.mgt.hiArmed else c.mgt.loArmed) n
  let on := c.flag (if hi then F.MGT_SNS_STAT.EN_HI else F.MGT_SNS_STAT.EN_LO) n
  let set (b : Bool) (c : Chip) : Chip :=
    if hi then { c with mgt := { c.mgt with hiArmed := smSet (fun _ => false) c.mgt.hiArmed n b } }
    else { c with mgt := { c.mgt with loArmed := smSet (fun _ => false) c.mgt.loArmed n b } }
  if !past then set false c
  else if !on || fired then c
  else
    let c := (set true c).putF (if hi then F.MGT_SNS_STAT.HI_SEEN else F.MGT_SNS_STAT.LO_SEEN) 1 n
    (c.raise (if hi then F.MGT_EVENTS.SENSOR_HI else F.MGT_EVENTS.SENSOR_LO)).log 14 1 (if hi then 0x000F else 0x0010) n v

/-- The highest and lowest samples since the last read. (log entry 15 DEDUCED.) -/
def Chip.sensorRange (c : Chip) (n v : Nat) : Chip :=
  let seen := smGet (fun _ => false) c.mgt.rangeSeen n
  let hi := c.getF F.MGT_SNS_RANGE.HI n
  let lo := c.getF F.MGT_SNS_RANGE.LO n
  let c := { c with mgt := { c.mgt with rangeSeen := smSet (fun _ => false) c.mgt.rangeSeen n true } }
  (c.putF F.MGT_SNS_RANGE.HI (if seen && decide (sensorInt n v ≤ sensorInt n hi) then hi else v) n).putF F.MGT_SNS_RANGE.LO
    (if seen && decide (sensorInt n lo ≤ sensorInt n v) then lo else v) n

/-- One sensor's sample. -/
def Chip.sensorOne (c : Chip) (n v : Nat) : Chip :=
  let c := (c.putF F.MGT_SNS_VAL.KIND (sensorKind n) n).putF F.MGT_SNS_VAL.VALUE v n
  let c := ((c.sensorRange n v).threshold n v true).threshold n v false
  if n = 46 ∧ (v < 10800 ∨ 13200 < v) then (c.raise F.MGT_EVENTS.VIN_RANGE).log 14 1 0x0008 0 v else c

/-! ### Trips (R584) -/

/-- A run of consecutive samples. -/
def runUp (b : Bool) (n : Nat) : Nat := if b then n + 1 else 0

/-- A trip is entered: its log entry, count and event. (log entry 59 DEDUCED.) -/
def Chip.tripEnter (c : Chip) (sev code data : Nat) : Chip :=
  ((c.log 15 sev code 0 data).bump F.SFL_CNT_TRIP.V).sflEvent F.SFL_EVENTS.TRIP

/-- Entry into THROTTLE or above: the stacks faster than RATE 2 change to it. -/
def Chip.tripRates (c : Chip) : Chip :=
  (List.range 6).foldl (fun c k => if c.getF F.HBM_STK_STATUS.RATE_CUR k < 2 then c.rateWant k 2 else c) c

/-- A trip ends: the stacks return to their commanded rates. (log entry 59 DEDUCED.) -/
def Chip.tripEnd (c : Chip) : Chip :=
  let c := ((c.putF F.SFL_STATUS.TRIP 0).log 15 0 0x0285 0 0).sflEvent F.SFL_EVENTS.TRIP_END
  (List.range 6).foldl (fun c k => c.rateWant k (c.getF F.HBM_STK_CTRL.RATE k)) c

/-- The trips evaluate a sample: J as a signed reading, P in 100 mW. (log entry 59 DEDUCED.) -/
def Chip.trips (c : Chip) (j : Int) (p : Nat) : Chip :=
  let jAt (o : Nat) : Bool := decide ((256 * c.pol o 1 : Nat) ≤ j)
  let pAt (o : Nat) : Bool := decide (10 * c.pol o 2 ≤ p)
  let f := c.sfl
  let f := { f with
    throttleRun := runUp (jAt 0x261) f.throttleRun
    throttlePRun := runUp (pAt 0x264) f.throttlePRun
    holdRun := runUp (jAt 0x262) f.holdRun
    holdPRun := runUp (pAt 0x266) f.holdPRun
    offRun := runUp (jAt 0x263) f.offRun
    quietRun := runUp (decide (j ≤ (256 * c.pol 0x260 1 : Nat)) && !pAt 0x264) f.quietRun }
  let c := { c with sfl := f }
  let data (byJ : Bool) : Nat := if byJ then patternOf 16 j else p % 65536 + 65536
  let trip := c.getF F.SFL_STATUS.TRIP
  if 2 ≤ f.offRun then
    let c := c.tripEnter 3 0x0284 (patternOf 16 j)
    ({ c with sfl := { c.sfl with
      throttleRun := 0
      throttlePRun := 0
      holdRun := 0
      holdPRun := 0
      offRun := 0
      quietRun := 0 } }).railsOff true
  else if trip < 2 ∧ (10 ≤ f.holdRun ∨ 10 ≤ f.holdPRun) then
    let c := (c.tripEnter 2 0x0283 (data (decide (10 ≤ f.holdRun)))).putF F.SFL_STATUS.TRIP 2
    if trip = 0 then c.tripRates else c
  else if trip = 0 ∧ (10 ≤ f.throttleRun ∨ 10 ≤ f.throttlePRun) then
    ((c.tripEnter 1 0x0282 (data (decide (10 ≤ f.throttleRun)))).putF F.SFL_STATUS.TRIP 1).tripRates
  else if trip ≠ 0 ∧ 100 ≤ f.quietRun then c.tripEnd
  else c

/-- A policy, or the quarantine policy, is in force. (log entry 58 DEDUCED.) -/
def Chip.polInForce (c : Chip) : Bool := c.flag F.SFL_STATUS.ACTIVE || c.flag F.SFL_STATUS.QUARANTINE

/-- SENSOR_SAMPLE: the 60 readings of one sample. -/
def Chip.sensorSample (c : Chip) (vals : List (BitVec 16)) : Chip :=
  let v (n : Nat) : Nat := (vals.getD n 0).toNat
  let c := (List.range 60).foldl (fun c n => c.sensorOne n (v n)) c
  let j := (List.range 31).foldl (fun (m : Int) n => max m (signedOf 16 (v (n + 1)))) (signedOf 16 (v 0))
  if c.polInForce then c.trips j (v 57) else c

/-! ### Sleep (R547, R557, R563 to R565) -/

/-- MP_IDLE_STOP. -/
def Chip.mpIdleStop (c : Chip) : Chip :=
  if c.getF F.MGT_MP_STATUS.STATE = 2 ∧ c.flag F.MGT_MP_CTRL.STAY_AWAKE = false ∧ c.mgt.flashWrite = none then
    c.putF F.MGT_MP_STATUS.STATE 0
  else c

/-- LOG_FLASH_COPY: the oldest buffered entry reaches the flash, where the oldest entry goes when the area is full. -/
def Chip.logCopy (c : Chip) : Chip :=
  match c.mgt.logBuf with
  | [] => c
  | e :: r =>
    let l := c.mgt.logFlash ++ [e]
    let l := if 2097152 < l.length then l.drop 1 else l
    ({ c with mgt := { c.mgt with logBuf := r, logFlash := l } }).putF F.MGT_LOG_STATUS.BUFFERED r.length

/-- A lane does not keep its slice awake (R564). -/
def Chip.laneQuiet (c : Chip) (l : Nat) : Bool := [0, 2, 9, 10].contains (c.lstate l)

/-- The packet is in its slice: not decided yet, or waiting to recirculate. -/
def Pkt.inSlice (p : Pkt) (s : Nat) : Bool :=
  decide (sliceOf p.port = s) && !(p.stage == Stage.admitted || p.stage == Stage.residue || p.stage == Stage.gone)

/-- The conditions of R564, but for their duration. -/
def Chip.parkOk (c : Chip) (s : Nat) : Bool :=
  let ports := (List.range 32).map (32 * s + ·)
  bitOf s (c.getF F.MGT_PARK_CTRL.EN) && !c.sliceHeld s && (List.range 64).all (fun k => c.laneQuiet (64 * s + k))
    && c.pkts.all (fun (e : Nat × Pkt) => !e.2.inSlice s && e.2.copies.all (fun (k : Copy) => decide (k.port / 32 ≠ s)))
    && ports.all (fun p => smGet (fun _ => 0) c.tm.pfcDue p == 0 && (c.portSt p).arriving.isNone)

/-- SLICE_PARK: the conditions have held for MGT_PARK_IDLE. -/
def Chip.slicePark (c : Chip) (s : Nat) : Chip :=
  if c.parked s || !c.parkOk s then c
  else
    let c := c.putF F.MGT_PARK_STATUS.PARKED (setBitsOf s s (c.getF F.MGT_PARK_STATUS.PARKED) 1)
    c.bump F.MGT_CNT_PARK.V

/-- SLICE_ACTIVE: a woken slice is active. -/
def Chip.sliceActive (c : Chip) (s : Nat) : Chip :=
  let c := { c with mgt := { c.mgt with parkWait := c.mgt.parkWait.filter (· ≠ s) } }
  c.putF F.MGT_PARK_STATUS.PARKED (setBitsOf s s (c.getF F.MGT_PARK_STATUS.PARKED) 0)

/-- The bank's engines hold no op (R563). -/
def Chip.bankIdle (c : Chip) (k : Nat) : Bool :=
  (List.range 8).all (fun i =>
    let e := smGet (fun _ => EngSt.init) c.flow.eng (8 * k + i)
    e.input.isEmpty && e.station.isEmpty && e.lookups.isEmpty && e.setups.isEmpty && e.helds.isEmpty)

/-- The bank's engines see their condition event "bank awake". -/
def Chip.bankCond (c : Chip) (k : Nat) (b : Bool) : Chip :=
  (List.range 8).foldl (fun c i => c.condEv 4 (8 * k + i) 14 b) c

/-- BANK_GATE: bank `k` has held no op for MGT_FLE_IDLE cycles. -/
def Chip.bankGate (c : Chip) (k : Nat) : Chip :=
  if c.flag F.MGT_PARK_CTRL.NO_BANK_GATE || !c.bankIdle k then c
  else (c.putF F.MGT_PARK_STATUS.GATED (setBitsOf k k (c.getF F.MGT_PARK_STATUS.GATED) 1)).bankCond k false

/-- BANK_AWAKE: a woken bank is awake. -/
def Chip.bankAwake (c : Chip) (k : Nat) : Chip :=
  if !bitOf k (c.getF F.MGT_PARK_STATUS.GATED) then c else
  let c := { c with mgt := { c.mgt with bankWake := c.mgt.bankWake.filter (· ≠ k) } }
  (c.putF F.MGT_PARK_STATUS.GATED (setBitsOf k k (c.getF F.MGT_PARK_STATUS.GATED) 0)).bankCond k true

end Sys2Proof.Machine
end

