-- ==== Sys2Proof/Machine/MgtExec.lean ====
section
/-! DEFINITION. Commands of supplies, resets and management (R36, R38, R513, R540, R544 to R571, R608, R622). -/
namespace Sys2Proof.Machine
open Sys2Proof

/-- VSB_RISE (R546). -/
def execVsbRise (s : State) : Out := s.onAny Chip.vsbRise
/-- VSB_LOSS (R622). -/
def execVsbLoss (s : State) : Out := s.onAny Chip.vsbLoss
/-- VIN_QUALIFIED (R546). -/
def execVinQualified (s : State) : Out := s.onAny Chip.vinQualified
/-- VIN_LOSS (R546). -/
def execVinLoss (s : State) : Out := s.onAny Chip.vinLoss
/-- VIN_OVER (R608): `mv` is the sample of VIN in mV. -/
def execVinOver (mv : Fin 65536) (s : State) : Out := s.onAny (·.vinOver mv.val)
/-- DEVICE_RESET (R513): a write of HST_RESET. -/
def execDeviceReset (key : Word) (s : State) : Out := s.on (·.resetWrite key.toNat)
/-- SCHEDULED_DEVICE_RESET (R540). -/
def execScheduledDeviceReset (s : State) : Out := s.on Chip.resetDue
/-- UNRECOVERABLE_FAULT (R38, R587): in the Safelight partition, or in the rest of the always-on domain. -/
def execUnrecoverableFault (sfl : Bool) (s : State) : Out := s.on (·.unrecoverable sfl)

/-- MP_WAKE (R547). -/
def execMpWake (s : State) : Out := s.on Chip.mpWake
/-- MP_IDLE_STOP (R547): the processor has been idle for MGT_MP_IDLE. -/
def execMpIdleStop (s : State) : Out := s.on Chip.mpIdleStop
/-- MP_WATCHDOG (R547). -/
def execMpWatchdog (s : State) : Out := s.on Chip.mpWatchdog
/-- MP_RESTART (R547): a write of MGT_MP_CTRL.RESTART. -/
def execMpRestart (s : State) : Out := s.on Chip.mpStart
/-- FIRMWARE_HEARTBEAT_TIMEOUT (R561). -/
def execFirmwareHeartbeatTimeout (s : State) : Out := s.on Chip.heartbeatLate

/-- Mailbox INFO (R550): a write of MGT_MBX_CMD. -/
def execInfo (s : State) : Out := s.on (·.mbxCmd 1)
/-- Mailbox SENSORS (R550). -/
def execSensors (s : State) : Out := s.on (·.mbxCmd 2)
/-- Mailbox LOG_READ (R550): first SEQ in MGT_MBX_ARG0 and ARG1. -/
def execLogRead (s : State) : Out := s.on (·.mbxCmd 3)
/-- Mailbox LOG_MARK (R550): CODE in ARG0, DATA in ARG1 and ARG2. -/
def execLogMark (s : State) : Out := s.on (·.mbxCmd 4)
/-- Mailbox UPDATE_WRITE (R560): TYPE in ARG0, staging offset in ARG1, length in ARG2. -/
def execUpdateWrite (s : State) : Out := s.on (·.mbxCmd 5)
/-- Mailbox UPDATE_SELECT (R561): TYPE in ARG0, slot in ARG1. -/
def execUpdateSelect (s : State) : Out := s.on (·.mbxCmd 6)
/-- Mailbox FLOOR_RAISE (R562): TYPE in ARG0. -/
def execFloorRaise (s : State) : Out := s.on (·.mbxCmd 7)
/-- OOB_DATAGRAM (R552): source address as IPv6 or IPv4-mapped, and UDP payload. -/
def execOobDatagram (port : Fin 2) (src payload : Bytes) (s : State) : Out := s.on (·.oobDatagram port.val src payload)

/-- SENSOR_SAMPLE (R554): the readings of sensors 0 to 59. -/
def execSensorSample (vals : List (BitVec 16)) (s : State) : Out := s.on (·.sensorSample vals)
/-- LOG_FLASH_COPY (R557). -/
def execLogFlashCopy (s : State) : Out := s.onAny fun c => if c.power.aon then c.logCopy else c

/-- SLICE_PARK (R564). -/
def execSlicePark (slice : Fin 16) (s : State) : Out := s.on (·.slicePark slice.val)
/-- SLICE_ACTIVE (R564). -/
def execSliceActive (slice : Fin 16) (s : State) : Out := s.on (·.sliceActive slice.val)
/-- BANK_GATE (R563). -/
def execBankGate (bank : Fin 16) (s : State) : Out := s.on (·.bankGate bank.val)
/-- BANK_AWAKE (R565). -/
def execBankAwake (bank : Fin 16) (s : State) : Out := s.on (·.bankAwake bank.val)

end Sys2Proof.Machine
end

