-- ==== Sys2Proof/Machine/SecPort.lean ====
section
/-! DEFINITION. Plate sections of lane groups, port groups, table regions, ternary profiles and the pattern set (R103, R131, R179,
R180, R202 to R204): their own rules and what applying them does. The empty payload stands for a type's defaults. -/
namespace Sys2Proof.Machine
open Sys2Proof

/-- `n` bytes at `o` of a payload are 0. -/
def zAt (pl : Bytes) (o n : Nat) : Bool := (sliceB pl o n).all (fun b => b == 0)

/-- A value lies in a range. -/
def inR (lo hi v : Nat) : Bool := decide (lo ≤ v) && decide (v ≤ hi)

/-- A payload of `len` bytes, 0 but for fields of offset, size and value. -/
def mkPl (len : Nat) (fs : List (Nat × Nat × Nat)) : Bytes :=
  fs.foldl (fun (b : Bytes) (f : Nat × Nat × Nat) => putLe b f.1 f.2.1 f.2.2) (zerosB len)

/-- A payload, or the defaults where it is empty. -/
def orDef (pl d : Bytes) : Bytes := if pl.isEmpty then d else pl

/-! ### LANE_GROUP (R103) -/

/-- Defaults: taps 0, −8, 111, −8. -/
def laneGroupDef : Bytes :=
  mkPl 80 ([(2, 1, 3), (3, 1, 1)] ++ (List.range 8).flatMap (fun j => [(16 + 8 * j, 4, 0xF86FF800), (21 + 8 * j, 1, 3)]))

/-- The payload's own rules. -/
def laneGroupOk (pl0 : Bytes) : Bool :=
  let pl := orDef pl0 laneGroupDef
  pl.length == 80 && inR 0 1 (byteAt pl 0) && inR 0 2 (byteAt pl 1) && inR 0 3 (byteAt pl 2) && inR 0 1 (byteAt pl 3) && zAt pl 4 12
  && (List.range 8).all (fun j => decide (tapSum (leAt pl (16 + 8 * j) 4) ≤ 127) && inR 0 3 (byteAt pl (20 + 8 * j))
      && inR 0 7 (byteAt pl (21 + 8 * j)) && zAt pl (22 + 8 * j) 2)

/-- BRINGUP of a lane group's payload. -/
def lgBringup (pl : Bytes) : Nat := byteAt (orDef pl laneGroupDef) 1
/-- MAXSTEP of a lane group's payload. -/
def lgMaxStep (pl : Bytes) : Nat := byteAt (orDef pl laneGroupDef) 2

/-- A lane's registers and presets from its group's section. -/
def Chip.applyLane (c : Chip) (l : Nat) (pl : Bytes) : Chip :=
  let j := l % 8
  let ffe := leAt pl (16 + 8 * j) 4
  let pol := byteAt pl (20 + 8 * j)
  let pre := byteAt pl (21 + 8 * j)
  let c := (c.lput l F.LNA_MODE.REACH (byteAt pl 0)).lput l F.LNA_MODE.BRINGUP (byteAt pl 1)
  let c := (c.lput l F.LNA_SC_CTRL.MAXSTEP (byteAt pl 2)).lput l F.LNA_CTRL.DIM_EN (byteAt pl 3)
  let c := (c.lput l F.LNA_TX_FFE.all ffe).lput l F.LNA_PIN_CTRL.TX_INVERT (pol % 2)
  let c := c.lput l F.LNA_PIN_CTRL.RX_POL (if bitOf 1 pol then 2 else 0)
  let c := ((c.lput l F.LNA_SC_STATUS.CAPPED 0).lput l F.LNA_SC_STATUS.CAP_STEP 0).lput l F.LNA_SC_STATUS.FAIL_COUNT 0
  let c := c.lput l F.LNA_CTRL.ENABLE (b2n (c.laneOwner l).isSome)
  c.onLane l fun _ => { LaneSt.init with rxPreset := pre, ffePreset := ffe, maxStep := byteAt pl 2 }

/-- LANE_GROUP g applied, after PORT_GROUP g. -/
def Chip.applyLaneGroup (c : Chip) (g : Nat) (pl0 : Bytes) : Chip :=
  let pl := orDef pl0 laneGroupDef
  let gs := c.plate.gangGroups.filter (· != g)
  let c := { c with plate := { c.plate with gangGroups := if byteAt pl 1 = 2 then gs ++ [g] else gs } }
  (List.range 8).foldl (fun c k => c.applyLane (8 * g + k) pl) c

/-! ### PORT_GROUP (R131) -/

/-- Defaults: all four ports absent. -/
def portGroupDef : Bytes :=
  mkPl 64 ((List.range 4).flatMap (fun k => [(4 + 12 * k, 2, 1522), (8 + 12 * k, 1, 30)]) ++ [(48, 1, 0x13)])

/-- MODE of port `k` of a group's payload. (log entry 46 DEDUCED.) -/
def pgMode (pl : Bytes) (k : Nat) : Nat := byteAt (orDef pl portGroupDef) (12 * k)

/-- Width in lanes of port `k`. (log entry 46 DEDUCED.) -/
def pgWidth (pl : Bytes) (k : Nat) : Nat :=
  if pgMode pl k = 18 then 2 ^ byteAt (orDef pl portGroupDef) (12 * k + 1) else (modeRow (pgMode pl k)).2.1

/-- Lanes of port `k`, within the group (R105). -/
def pgLanes (pl : Bytes) (k : Nat) : List Nat := (List.range (pgWidth pl k)).map (2 * k + ·)

/-- The highest staircase step whose rate a lane RATE code reaches (R75). -/
def rateStep (r : Nat) : Nat := if 6 ≤ r then 3 else if 5 ≤ r then 2 else if 3 ≤ r then 1 else 0

/-- One port entry's rules; an absent port's are its reserved bytes. -/
def portEntryOk (pl : Bytes) (k : Nat) : Bool :=
  let b (o : Nat) := byteAt pl (12 * k + o)
  let w := pgWidth pl k
  zAt pl (12 * k + 9) 3
  && (b 0 == 0 || (decide (b 0 ≤ 18) && (b 0 != 18 || decide (b 1 ≤ 3)) && decide (b 2 < 128) && (!bitOf 4 (b 2) || b 0 == 14)
      && bitsOf 6 5 (b 2) != 3 && decide (b 3 ≤ 15) && inR 64 12288 (leAt pl (12 * k + 4) 2)
      && (2 * k) % w == 0 && decide (2 * k + w ≤ 8)
      && (List.range k).all (fun i => pgMode pl i == 0 || (pgLanes pl k).all (fun l => !(pgLanes pl i).contains l))))

/-- The payload's rules against the lane group's section and the policy's site limit. (log entry 46 DEDUCED.) -/
def portGroupOk (pl0 lane : Bytes) (siteMax : Nat) : Bool :=
  let pl := orDef pl0 portGroupDef
  let bring := lgBringup lane
  let cap := lgMaxStep lane
  pl.length == 64 && (List.range 4).all (portEntryOk pl) && zAt pl 50 14
  && decide (byteAt pl 48 < 32) && bitsOf 3 2 (byteAt pl 48) != 3 && decide (byteAt pl 49 ≤ siteMax)
  && (List.range 4).all (fun k =>
    let m := pgMode pl k
    m == 0 || ((bring == 0 || m == 18 || decide ((modeRow m).2.2 ≤ stepRate cap))
      && (bring != 2 || (m == 18 && leAt pl (12 * k + 4) 2 == 12288))))

/-- A staircase group's MAXSTEP exceeds what its port modes run at (R103). (log entry 46 DEDUCED.) -/
def maxStepBad (lane port : Bytes) : Bool :=
  let ms := ((List.range 4).map (pgMode port)).filter (· != 0)
  lgBringup lane != 0 && !ms.isEmpty
    && ms.all (fun m => m != 18 && decide (rateStep (modeRow m).2.2 < lgMaxStep lane))

/-- A port's registers from its entry. -/
def Chip.applyPort (c : Chip) (p : Nat) (pl : Bytes) : Chip :=
  let k := p % 4
  let on := pgMode pl k != 0
  let e : Bytes := if on then pl else portGroupDef
  let b (o : Nat) := byteAt e (12 * k + o)
  let f := b 2
  let c := c.putF F.PRT_CFG.all 0 p
  let c := ((c.putF F.PRT_CFG.MODE (b 0) p).putF F.PRT_CFG.WIDTH (b 1) p).putF F.PRT_CFG.ENABLE (b2n on) p
  let c := ((c.putF F.PRT_CFG.AN_EN (f % 2) p).putF F.PRT_CFG.CT_EN (bitsOf 1 1 f) p).putF F.PRT_CFG.LPI_EN (bitsOf 2 2 f) p
  let c := ((c.putF F.PRT_CFG.DEGRADE (bitsOf 3 3 f) p).putF F.PRT_CFG.FEC (bitsOf 4 4 f) p).putF F.PRT_CFG.PAUSE_MODE (bitsOf 6 5 f) p
  let c := (c.putF F.PRT_MAXFRAME.MAXFRAME (leAt e (12 * k + 4) 2) p).putF F.PRT_LPI.IDLE_US (leAt e (12 * k + 6) 2) p
  let c := (c.putF F.PRT_GIVEUP.S (b 8) p).putF F.PRT_STATUS.PSTATE (if on then psDown else psAbsent) p
  c.setPort p { c.portSt p with appsel := b 3, half := false }

/-- PORT_GROUP g applied. (log entry 46 DEDUCED.) -/
def Chip.applyPortGroup (c : Chip) (g : Nat) (pl0 : Bytes) : Chip :=
  let pl := orDef pl0 portGroupDef
  let c := (List.range 4).foldl (fun c k => c.applyPort (4 * g + k) pl) c
  let b := byteAt pl 48
  let c := (c.putF F.PRT_SITE_CTRL.ENABLE (b % 2) g).putF F.PRT_SITE_CTRL.AUTO (bitsOf 1 1 b) g
  let c := (c.putF F.PRT_SITE_CTRL.SPEED (bitsOf 3 2 b) g).putF F.PRT_SITE_CTRL.PULLUP (bitsOf 4 4 b) g
  c.putF F.PRT_SITE_CTRL.POWER_LIMIT (byteAt pl 49) g

/-! ### TABLE_REGION (R179, R180) -/

/-- Fields of a region's payload. -/
def trKind (pl : Bytes) : Nat := byteAt pl 0
def trSize (pl : Bytes) : Nat := leAt pl 4 4
def trCount (pl : Bytes) : Nat := leAt pl 12 4
def trStart (pl : Bytes) (p : Nat) : Bool := bitOf (p % 8) (byteAt pl (64 + p / 8))
/-- Body of initial entry `i`. -/
def trBody (pl : Bytes) (i : Nat) : Bytes := sliceB pl (128 + 64 * i) (bodyLen (trKind pl))

/-- A power of two. -/
def isPow2 (n : Nat) : Bool := n != 0 && Nat.land n (n - 1) == 0

/-- The payload's own rules; an empty payload leaves the region absent. -/
def regionOk (pl : Bytes) : Bool :=
  let k := trKind pl
  let em := k == 1 || k == 2
  let src := sliceB pl 16 16
  pl.isEmpty || (pl.length == 128 + 64 * trCount pl && decide (k ≤ 6) && decide (byteAt pl 1 ≤ b2n em) && zAt pl 2 2
    && trSize pl % 1024 == 0 && (!em || isPow2 (trSize pl)) && decide (leAt pl 8 4 < 2 ^ 22) && zAt pl 36 28
    && (em || leAt pl 32 4 == 0)
    && (if em then
          (List.range 8).all (fun i => decide (byteAt src (2 * i) + byteAt src (2 * i + 1) ≤ 256))
            && decide (((List.range 8).map (fun i => byteAt src (2 * i + 1))).foldl (· + ·) (2 * byteAt pl 1) ≤ emKeyLen k)
        else if k = 3 then decide (byteAt src 0 ≤ 3) && (byteAt src 1 == 4 || byteAt src 1 == 6) && zAt src 2 14
        else if k = 6 then decide (byteAt src 0 < 16) && zAt src 1 15
        else zAt src 0 16)
    && (em || k == 3 || k == 6 || zAt pl 64 64) && (k != 6 || trCount pl == 0))

/-- A region's registers and header. -/
def Chip.applyRegionHdr (c : Chip) (r : Nat) (pl : Bytes) : Chip :=
  let c := { c with rules := { c.rules with regions := if pl.isEmpty then smErase c.rules.regions r else smPut c.rules.regions r (pl.take 128) } }
  ((c.putF F.CLS_REGION_INFO.KIND (trKind pl) r).putF F.CLS_REGION_INFO.SIZE (trSize pl / 1024) r).putF F.CLS_REGION_USED.V 0 r

/-- An initial entry is staged; whether it stands. -/
def Chip.stageInit (c : Chip) (r : Nat) (pl : Bytes) (i : Nat) : Bool × Chip :=
  match c.stageBodyCmd 1 r (trBody pl i) i false with
  | (st, _, c1) => if st = stOk then (true, c1) else (false, c)

/-- The initial entries of a region staged in order: refused ones leave no trace; whether all stood. -/
def Chip.stageRegion (c : Chip) (r : Nat) (pl : Bytes) : Bool × Chip :=
  (List.range (trCount pl)).foldl (fun (a : Bool × Chip) i => let x := a.2.stageInit r pl i; (a.1 && x.1, x.2)) (true, c)

/-! ### TERNARY_PROFILES (R202) -/

def tpDefined (pl : Bytes) (q : Nat) : Bool := bitOf q (leAt pl 0 2)
def tpWidth (pl : Bytes) (q : Nat) : Nat := byteAt pl (16 + 48 * q)
def tpHole (pl : Bytes) (q : Nat) : Nat := byteAt pl (17 + 48 * q)
def tpCount (pl : Bytes) (q : Nat) : Nat := leAt pl (20 + 48 * q) 4
def tpBanks (pl : Bytes) (q : Nat) : Nat := leAt pl (24 + 48 * q) 8
def tpExtracts (pl : Bytes) (q : Nat) : Bytes := sliceB pl (32 + 48 * q) 16
def tpOffset (pl : Bytes) (q : Nat) : Nat := leAt pl (48 + 48 * q) 4
/-- Bytes 8 to 111 of initial entry `i`. -/
def tpBody (pl : Bytes) (q i : Nat) : Bytes := sliceB pl (tpOffset pl q + 112 * i + 8) 104
/-- Units of a profile (R182). -/
def tpUnits (pl : Bytes) (q : Nat) : Nat :=
  ((List.range 64).filter (fun b => bitOf b (tpBanks pl q))).length / 2 ^ tpWidth pl q

/-- One profile's rules (R204). -/
def profileOk (pl : Bytes) (q : Nat) : Bool :=
  let w := tpWidth pl q
  let u := 2 ^ w
  let x := tpExtracts pl q
  let n := tpCount pl q
  !tpDefined pl q || (decide (w ≤ 2) && tpHole pl q != 1 && zAt pl (18 + 48 * q) 2 && zAt pl (52 + 48 * q) 12 && tpBanks pl q != 0
    && (List.range 64).all (fun b => bitOf b (tpBanks pl q) == bitOf (b / u * u) (tpBanks pl q))
    && (List.range q).all (fun i => !tpDefined pl i || Nat.land (tpBanks pl i) (tpBanks pl q) == 0)
    && (List.range 8).all (fun i => decide (byteAt x (2 * i) + byteAt x (2 * i + 1) ≤ 256))
    && decide (((List.range 8).map (fun i => byteAt x (2 * i + 1))).foldl (· + ·) 0 ≤ 12 * u)
    && (n == 0 || (tpOffset pl q % 16 == 0 && decide (784 ≤ tpOffset pl q) && decide (tpOffset pl q + 112 * n ≤ pl.length)
      && decide (tTarget (tpHole pl q) (n - 1) < 4096 * tpUnits pl q)
      && (List.range n).all (fun i => zAt pl (tpOffset pl q + 112 * i) 8
        && (i == 0 || decide (tPrio (tpBody pl q (i - 1)) ≤ tPrio (tpBody pl q i)))))))

/-- The payload's rules. -/
def ternaryOk (pl : Bytes) : Bool :=
  pl.isEmpty || (decide (784 ≤ pl.length) && zAt pl 2 14 && (List.range 16).all (profileOk pl))

/-- The profiles' registers and extracts. -/
def Chip.applyTernary (c : Chip) (pl : Bytes) : Chip :=
  (List.range 16).foldl (fun c q =>
    let on := tpDefined pl q
    let c := ((c.putF F.CLS_TPROF_INFO.WIDTH (if on then tpWidth pl q else 0) q).putF F.CLS_TPROF_INFO.HOLE_INTERVAL
      (if on then tpHole pl q else 0) q).putF F.CLS_TPROF_INFO.PRESENT (b2n on) q
    let c := (c.putF F.CLS_TPROF_INFO.UNITS (if on then tpUnits pl q else 0) q).putQ F.CLS_TPROF_BANKS.V (if on then tpBanks pl q else 0) q
    { c with tern := { c.tern with extracts := if on then smPut c.tern.extracts q (tpExtracts pl q) else smErase c.tern.extracts q } }) c

/-- An initial ternary entry is staged at t(i) (R202); whether it stands. -/
def Chip.tStageInit (c : Chip) (pl : Bytes) (q i : Nat) : Bool × Chip :=
  let body := tpBody pl q i
  let again := (c.tEntries q).any (fun e => c.stagedAdd e.2 && tIdent e.2.body == tIdent body)
  match c.tStage 1 q body false with
  | (st, _, _, c1) =>
    if st ≠ stOk then (false, c)
    else if again then (true, c1)
    else (true, c.tAdd q body (tTarget (c.getF F.CLS_TPROF_INFO.HOLE_INTERVAL q) i, []))

/-- A profile's initial entries staged in order; whether all stood. -/
def Chip.stageProfile (c : Chip) (pl : Bytes) (q : Nat) : Bool × Chip :=
  if !tpDefined pl q then (true, c)
  else (List.range (tpCount pl q)).foldl (fun (a : Bool × Chip) i => let x := a.2.tStageInit pl q i; (a.1 && x.1, x.2)) (true, c)

/-! ### PATTERN_SET (R203) -/

def psGroups (pl : Bytes) : Nat := leAt pl 6 2
def psCount (pl : Bytes) : Nat := leAt pl 8 4
def psImgOff (pl : Bytes) (g : Nat) : Nat := leAt pl (68 + 32 * g) 4
def psImgLen (pl : Bytes) (g : Nat) : Nat := leAt pl (72 + 32 * g) 4

/-- One group's rules (R204). -/
def groupOk (pl : Bytes) (g : Nat) : Bool :=
  let o := 64 + 32 * g
  let io := psImgOff pl g
  let il := psImgLen pl g
  inR 0 3 (byteAt pl o) && inR 0 2 (byteAt pl (o + 1)) && decide (leAt pl (o + 2) 2 ≤ 12288) && io % 64 == 0
  && decide (io + il ≤ pl.length) && decide (leAt pl (o + 12) 4 ≤ 4194304) && zAt pl (o + 20) 12
  && Config.patternFormat (leAt pl (o + 16) 4) && leAt pl io 4 == leAt pl (o + 16) 4
  && (List.range g).all (fun i => !overlapB io il (psImgOff pl i) (psImgLen pl i))

/-- The payload's rules. -/
def patternOk (pl : Bytes) : Bool :=
  let ng := psGroups pl
  let np := psCount pl
  pl.isEmpty || (leAt pl 0 4 == 0x53544150 && leAt pl 4 2 == 1 && decide (ng ≤ 64) && decide (np ≤ 65535)
    && decide (leAt pl 12 4 ≤ 33554432) && leAt pl 12 4 == ((List.range ng).map (psImgLen pl)).foldl (· + ·) 0 && zAt pl 36 28
    && decide (64 + 32 * ng + 4 * np ≤ pl.length) && (List.range ng).all (groupOk pl)
    && (List.range 16).all (fun k => byteAt pl (16 + k) == 255 || decide (byteAt pl (16 + k) < ng))
    && (List.range np).all (fun i => let o := 64 + 32 * ng + 4 * i
        decide (byteAt pl o < ng) && inR 0 2 (byteAt pl (o + 1)) && zAt pl (o + 2) 2))

/-- The reserved area's base (R357). (log entry 56 DESIGN CHOICE.) -/
def reservedBase : Nat := 0x2380000000

/-- The pattern set in force, its images copied to DRAM (R200). (log entry 56 DESIGN CHOICE.) -/
def Chip.applyPattern (c : Chip) (pl : Bytes) : Chip :=
  let ng := psGroups pl
  let c := { c with pattern := { c.pattern with set := pl } }
  let c := (c.putF F.CLS_PAT_INFO.GROUP_COUNT ng).putF F.CLS_PAT_INFO.PATTERN_COUNT (psCount pl)
  let c := c.putWords F.CLS_PAT_CLASS_MAP.V.base (if pl.isEmpty then List.replicate 16 255 else sliceB pl 16 16)
  let c := c.putF F.CLS_PAT_CTRL.ENABLE (b2n (ng != 0))
  c.dramWrite (reservedBase + 0x10000000) ((List.range ng).flatMap (fun g => sliceB pl (psImgOff pl g) (psImgLen pl g)))

end Sys2Proof.Machine
end

