-- ==== Sys2Proof/Machine/SecCore.lean ====
section
/-! DEFINITION. The remaining Plate sections: flow table, engine sets, templates, microcode, customer routines, work classes, DRAM,
buffer, scheduler trees, time, telemetry, gang and management (R218, R231, R262, R324, R325, R351, R381, R415, R423, R465, R491,
R541, R568). -/
namespace Sys2Proof.Machine
open Sys2Proof

/-! ### FLOW_TABLE (R218) -/

def ftLog2 (pl : Bytes) : Nat := byteAt pl 0
def ftBase (pl : Bytes) : Nat := byteAt pl 1
/-- First and last-plus-one device address of the table (R219); empty where flow tracking is absent. -/
def ftRange (pl : Bytes) : Nat × Nat :=
  let b := ftBase pl * 2 ^ 30
  if ftLog2 pl = 0 then (b, 0) else (b, 2 ^ (ftLog2 pl + 3) + 2 ^ (ftLog2 pl + 7))

/-- The payload's rules. -/
def flowTableOk (pl : Bytes) : Bool :=
  let r := ftRange pl
  pl.isEmpty || (pl.length == 32 && zAt pl 2 30
    && (ftLog2 pl == 0 || (inR 17 29 (ftLog2 pl) && decide (ftBase pl ≤ 143) && decide (r.1 + r.2 ≤ 144 * 2 ^ 30)
      && !overlapB r.1 r.2 reservedBase (2 * 2 ^ 30))))

/-- FLOW_TABLE applied: the regions laid out, empty (R61 step 5); every engine's page shows them (R230). -/
def Chip.applyFlowTable (c : Chip) (pl : Bytes) : Chip :=
  let s := ftLog2 pl
  (List.range 128).foldl (fun c e => ((c.putF F.FLE_TBL_INFO.SLOTS_LOG2 s e).putF F.FLE_TBL_INFO.NB_LOG2 (s - 10) e).putF
    F.FLE_TBL_INFO.BASE_GIB (if s = 0 then 0 else ftBase pl) e) c

/-! ### FLOW_ENGINE_SET (R262) -/

/-- Defaults. -/
def engineSetDef : Bytes := mkPl 32 [(0, 4, 200), (4, 4, 200), (8, 8, 0x1111111111111111)]

/-- A field whose 0 stands for another value. -/
def or0 (v d : Nat) : Nat := if v = 0 then d else v

def engineSetOk (pl0 : Bytes) : Bool :=
  let pl := orDef pl0 engineSetDef
  pl.length == 32 && inR 20 100000 (or0 (leAt pl 0 4) 200) && inR 10 100000 (or0 (leAt pl 4 4) 200) && zAt pl 16 16

/-- FLOW_ENGINE_SET k applied. -/
def Chip.applyEngineSet (c : Chip) (k : Nat) (pl0 : Bytes) : Chip :=
  let pl := orDef pl0 engineSetDef
  (List.range 8).foldl (fun c j =>
    let e := 8 * k + j
    let c := (c.putF F.FLE_MISS_WAIT.WAIT (or0 (leAt pl 0 4) 200) e).putF F.FLE_SETUP_WAIT.WAIT (or0 (leAt pl 4 4) 200) e
    c.putQ F.FLE_EVICT_RANK.V (leAt pl 8 8) e) c

/-! ### FLOW_TEMPLATES (R231, R234) -/

/-- Defaults: no template. -/
def templatesDef : Bytes := zerosB 4096

/-- An ALU step's rules (R233, R234), with the step's template notify class. -/
def aluOk (a notify : Nat) : Bool :=
  let n := 2 ^ bitsOf 59 58 a
  let kind := bitsOf 50 49 a
  let src := bitsOf 48 42 a
  let dst := bitsOf 57 51 a
  decide (bitsOf 63 60 a ≤ 9) && kind != 3 && bitsOf 39 38 a != 3 && bitsOf 37 32 a == 0
  && (bitsOf 63 60 a == 0 || (decide (44 ≤ dst) && decide (dst + n ≤ 128) && (kind != 1 || decide (src ≤ 7))
    && (kind != 2 || (decide (44 ≤ src) && decide (src + n ≤ 128)))
    && (bitsOf 39 38 a == 0 || (notify != 255 && kind != 0))))

/-- A template's rules; `region`: the regions present, `cls`: the classes present. -/
def templateOk (t : Bytes) (tracks : Bool) (region cls : Nat → Bool) : Bool :=
  let b (o : Nat) := byteAt t o
  let clsOk (q : Nat) : Bool := q == 255 || (decide (q < 64) && cls q)
  !tpPresent t || (tracks && decide (b 0 < 64) && decide (b 1 < 4) && leAt t 4 4 < 2 ^ 23 && decide (leAt t 8 2 < 256)
    && (if tpZoneSel t = 2 then decide (tpZoneOfs t ≤ 253) else tpZoneOfs t == 0)
    && decide (tpMode t ≤ 2) && decide (tpInsertOn t ≤ 1) && tpMissFb t != 3 && tpSetupFb t != 3 && tpAbsentAct t != 3
    && decide (b 11 < 128) && decide (b 12 < 16) && (tpMode t != 2 || tpSetupClass t != 255)
    && clsOk (tpSetupClass t) && clsOk (tpNotifyClass t) && clsOk (tpEvictClass t)
    && decide (tpRecircOn t ≤ 2) && (b 16 == 255 || decide (b 16 < 32))
    && (tpRecircOn t == 0 || (b 16 != 255 && region (b 16))) && zAt t 18 6 && zAt t 56 8
    && (List.range 4).all (fun i => aluOk (tpAlu t i) (tpNotifyClass t)))

/-- The payload's rules. -/
def templatesOk (pl0 : Bytes) (tracks : Bool) (region cls : Nat → Bool) : Bool :=
  let pl := orDef pl0 templatesDef
  pl.length == 4096 && (List.range 64).all (fun t => templateOk (sliceB pl (64 * t) 64) tracks region cls)

/-- Some template is present, and so needs flow tracking. -/
def templatesUsed (pl : Bytes) : Bool := (List.range 64).any (fun t => tpPresent (sliceB pl (64 * t) 64))

/-- FLOW_TEMPLATES applied. -/
def Chip.applyTemplates (c : Chip) (pl : Bytes) : Chip := { c with flow := { c.flow with templates := orDef pl templatesDef } }

/-! ### MICROCODE_BASE and CUSTOMER_ROUTINES (R324, R325) -/

/-- Word `a` of a store image of which the words lie at offset 320. -/
def imgWord (pl : Bytes) (a : Nat) : Mw := BitVec.ofNat 192 (leAt pl (320 + 24 * a) 24)

/-- The words of a store image, from address `start`. -/
def imgWords (pl : Bytes) (start n : Nat) : List (Nat × Mw) := (List.range n).map (fun a => (start + a, imgWord pl a))

def microcodeOk (pl : Bytes) : Bool :=
  let n := leAt pl 4 2
  pl.isEmpty || (inR 1 24576 n && zAt pl 6 2 && zAt pl 12 4 && zAt pl 272 48 && pl.length == 320 + 24 * n
    && (imgWords pl 0 n).all (fun (w : Nat × Mw) => mwOk w.1 w.2))

def routinesOk (pl : Bytes) : Bool :=
  let s := leAt pl 0 2
  let n := leAt pl 2 2
  pl.isEmpty || (inR 0x6000 0x7FFF s && decide (n ≤ 8192) && decide (s + n ≤ 0x8000) && zAt pl 4 4 && zAt pl 264 56
    && pl.length == 320 + 24 * n && (imgWords pl s n).all (fun (w : Nat × Mw) => mwOk w.1 w.2))

/-- The words of CUSTOMER_ROUTINES. -/
def routineWords (pl : Bytes) : List (Nat × Mw) := if pl.isEmpty then [] else imgWords pl (leAt pl 0 2) (leAt pl 2 2)

/-- The base loaded into a cluster's vendor region, then the patch's records in order (R327). -/
def Chip.applyMicrocode (c : Chip) (k : Nat) (pl : Bytes) : Chip :=
  let clear := c.act.vendor.filter (fun (e : Nat × BitVec 192) => e.1 / 24576 != k)
  let put (m : SMap (BitVec 192)) (w : Nat × Mw) : SMap (BitVec 192) := smSet (fun _ => mwFill) m (24576 * k + w.1) w.2
  let base : List (Nat × Mw) := if pl.isEmpty then [] else imgWords pl 0 (leAt pl 4 2)
  { c with act := { c.act with
    vendor := (base ++ c.act.patch).foldl put clear
    vconst := if pl.isEmpty then smErase c.act.vconst k else smPut c.act.vconst k (sliceB pl 16 256) } }

/-- A cluster's open region and constants loaded (R325). -/
def Chip.applyRoutines (c : Chip) (k : Nat) (pl : Bytes) : Chip :=
  let clear := c.act.opn.filter (fun (e : Nat × BitVec 192) => e.1 / 8192 != k)
  let put (m : SMap (BitVec 192)) (w : Nat × Mw) : SMap (BitVec 192) := smSet (fun _ => mwFill) m (8192 * k + (w.1 - 0x6000)) w.2
  { c with act := { c.act with
    opn := (routineWords pl).foldl put clear
    cconst := if pl.isEmpty then smErase c.act.cconst k else smPut c.act.cconst k (sliceB pl 8 256) } }

/-! ### WORK_CLASSES (R351, R352) -/

/-- Defaults: no class. -/
def workDef : Bytes := zerosB 2112

def wcPresent (pl : Bytes) (q : Nat) : Bool := bitOf 0 (byteAt pl (64 + 32 * q))
def wcHostPost (pl : Bytes) (q : Nat) : Bool := bitOf 1 (byteAt pl (64 + 32 * q))
def wcMin (pl : Bytes) (q : Nat) : Nat := leAt pl (72 + 32 * q) 4

/-- The payload's rules. -/
def workOk (pl0 : Bytes) : Bool :=
  let pl := orDef pl0 workDef
  let idle := or0 (leAt pl 0 2) 10
  pl.length == 2112 && zAt pl 2 62 && inR 1 1000 idle
  && decide (((List.range 64).map (fun q => if wcPresent pl q then wcMin pl q else 0)).foldl (· + ·) 0 ≤ 131072)
  && (List.range 64).all (fun q =>
    let o := 64 + 32 * q
    decide (byteAt pl o < 4) && zAt pl (o + 3) 1 && zAt pl (o + 18) 14
    && (if wcPresent pl q then decide (byteAt pl (o + 1) ≤ 7) && byteAt pl (o + 2) != 0 && decide (leAt pl (o + 4) 2 < 0x8000)
          && leAt pl (o + 6) 2 != 0 && decide (wcMin pl q ≤ leAt pl (o + 12) 4) && decide (leAt pl (o + 12) 4 ≤ 131072)
        else zAt pl (o + 1) 31))

/-- WORK_CLASSES applied. -/
def Chip.applyWork (c : Chip) (pl0 : Bytes) : Chip :=
  let pl := orDef pl0 workDef
  let c := c.putF F.WDS_GATE_IDLE.V (or0 (leAt pl 0 2) 10)
  let sum := ((List.range 64).map (wcMin pl)).foldl (· + ·) 0
  let c := c.putF F.WDS_SHARED_FREE.V (131072 - sum)
  (List.range 64).foldl (fun c q =>
    let o := 64 + 32 * q
    let on := wcPresent pl q
    let c := ((c.putF F.WDS_CL_ENTRY.CLUSTERS (leAt pl (o + 6) 2) q).putF F.WDS_CL_ENTRY.PRESENT (b2n on) q).putF F.WDS_CL_ENTRY.ENTRY (leAt pl (o + 4) 2) q
    let c := (c.putF F.WDS_CL_MIN.V (wcMin pl q) q).putF F.WDS_CL_MAX.V (leAt pl (o + 12) 4) q
    let c := (c.putF F.WDS_CL_SCHED.WAKE_AGE (if on then or0 (leAt pl (o + 16) 2) 20 else 0) q).putF F.WDS_CL_SCHED.WEIGHT (byteAt pl (o + 2)) q
    let c := (c.putF F.WDS_CL_SCHED.HOSTPOST (b2n (wcHostPost pl q)) q).putF F.WDS_CL_SCHED.PRIO (byteAt pl (o + 1)) q
    { c with wds := { c.wds with credit := smSet (fun _ => 0) c.wds.credit q (byteAt pl (o + 2)) } }) c

/-! ### DRAM (R381) -/

/-- Defaults, with the targets of R373. -/
def dramDef : Bytes :=
  mkPl 64 ([(1, 1, 7), (2, 1, 85), (3, 1, 80), (4, 2, 4096), (6, 2, 256), (8, 2, 100), (10, 2, 24), (12, 1, 140)]
    ++ [30, 200, 40, 2000, 400, 40, 150, 100000].zipIdx.map (fun (x : Nat × Nat) => (16 + 4 * x.2, 4, x.1)))

/-- One payload's rules. -/
def dramOk (pl0 : Bytes) : Bool :=
  let pl := orDef pl0 dramDef
  let hot := byteAt pl 2
  pl.length == 64 && decide (byteAt pl 0 ≤ 3) && decide (byteAt pl 1 < 8) && inR 70 95 hot && inR 60 (hot - 2) (byteAt pl 3)
  && decide (512 ≤ leAt pl 4 2) && decide (16 ≤ leAt pl 6 2) && decide (10 ≤ leAt pl 8 2) && inR 1 8760 (leAt pl 10 2)
  && decide (byteAt pl 12 ≤ 141) && zAt pl 13 3 && (List.range 8).all (fun n => inR 10 100000 (leAt pl (16 + 4 * n) 4)) && zAt pl 48 16

/-- Base of the service-table block that a payload sets. -/
def dramSvcBase (pl : Bytes) : Nat := byteAt (orDef pl dramDef) 12 * 2 ^ 30

/-- Two sections agree in every field other than RATE. -/
def dramAgree (a b : Bytes) : Bool := (orDef a dramDef).drop 1 == (orDef b dramDef).drop 1

/-- DRAM of stack `s` applied. -/
def Chip.applyDram (c : Chip) (s : Nat) (pl0 : Bytes) : Chip :=
  let pl := orDef pl0 dramDef
  let fl := byteAt pl 1
  let c := ((c.putF F.HBM_CTRL.SR_EN (fl % 2)).putF F.HBM_CTRL.SCRUB_EN (bitsOf 1 1 fl)).putF F.HBM_CTRL.TRACK_EN (bitsOf 2 2 fl)
  let c := ((c.putF F.HBM_REF_TEMP.HOT (byteAt pl 2)).putF F.HBM_REF_TEMP.COOL (byteAt pl 3)).putF F.HBM_RH_THRESH.V (leAt pl 4 2)
  let c := ((c.putF F.HBM_PD_IDLE.V (leAt pl 6 2)).putF F.HBM_SR_IDLE.V (leAt pl 8 2)).putF F.HBM_SCRUB_PERIOD.V (leAt pl 10 2)
  let c := (c.putF F.HBM_LAYOUT.SVC_TABLE_GIB (byteAt pl 12)).putF F.HBM_LAYOUT.RESERVED_GIB 142
  let c := (List.range 8).foldl (fun c n => c.putF F.HBM_REQ_TARGET.V (leAt pl (16 + 4 * n) 4) n) c
  (c.putF F.HBM_STK_CTRL.RATE (byteAt pl 0) s).putF F.HBM_STK_STATUS.RATE_CUR (byteAt pl 0) s

/-! ### BUFFER (R415) -/

/-- Defaults. -/
def bufferDef : Bytes :=
  mkPl 3392 ([(0, 4, 1000)] ++ (List.range 16).flatMap (fun s => [(68 + 16 * s, 4, 262144), (72 + 16 * s, 4, 65536)]))

/-- S (R387). -/
def bufShared (pl : Bytes) : Nat :=
  1572864 - (((List.range 16).map (fun s => leAt pl (64 + 16 * s) 4)).foldl (· + ·) 0
    + ((List.range 512).map (fun p => leAt pl (1344 + 4 * p) 4)).foldl (· + ·) 0)

/-- The payload's rules. -/
def bufferOk (pl0 : Bytes) : Bool :=
  let pl := orDef pl0 bufferDef
  pl.length == 3392 && inR 1 1000000 (or0 (leAt pl 0 4) 1000) && decide (leAt pl 4 4 < 2 ^ 21) && zAt pl 8 56
  && (List.range 16).all (fun s =>
    let o := 64 + 16 * s
    let mn := leAt pl o 4
    decide (mn ≤ 65536) && inR (mn + 48) 524288 (or0 (leAt pl (o + 4) 4) 262144) && inR 1024 262144 (or0 (leAt pl (o + 8) 4) 65536)
    && zAt pl (o + 12) 4)
  && (List.range 64).all (fun k =>
    let o := 320 + 16 * k
    let kk := signedOf 8 (byteAt pl o)
    decide (-7 ≤ kk) && decide (kk ≤ 4) && zAt pl (o + 1) 3 && decide (leAt pl (o + 4) 4 ≤ 65536) && decide (leAt pl (o + 8) 4 < 2 ^ 21)
    && zAt pl (o + 12) 4)
  && (List.range 512).all (fun p => decide (leAt pl (1344 + 4 * p) 4 ≤ 65536))
  && decide (786432 ≤ bufShared pl)

/-- BUFFER applied. -/
def Chip.applyBuffer (c : Chip) (pl0 : Bytes) : Chip :=
  let pl := orDef pl0 bufferDef
  let s := bufShared pl
  let c := ((c.putF F.TMG_SHARED.V s).putF F.TMG_FREE.V s).putF F.TMG_FREE_MIN.V s
  let c := (c.putF F.TMG_FREE_WARN.V (leAt pl 4 4)).putF F.TMG_RESIDUE_TIMEOUT.V (or0 (leAt pl 0 4) 1000)
  let c := (List.range 16).foldl (fun c s =>
    let o := 64 + 16 * s
    ((c.putF F.TMG_ING_MIN.V (leAt pl o 4) s).putF F.TMG_ING_MAX.V (or0 (leAt pl (o + 4) 4) 262144) s).putF F.TMG_PEND_MAX.V
      (or0 (leAt pl (o + 8) 4) 65536) s) c
  let c := (List.range 64).foldl (fun c k =>
    let o := 320 + 16 * k
    ((c.putF F.TMG_ADM_PROF.K (patternOf 4 (signedOf 8 (byteAt pl o))) k).putF F.TMG_ADM_PROF.MIN (leAt pl (o + 4) 4) k).putF
      F.TMG_ADM_QMAX.V (leAt pl (o + 8) 4) k) c
  (List.range 512).foldl (fun c p => c.putF F.TMG_PORT_HEADROOM.V (leAt pl (1344 + 4 * p) 4) p) c

/-! ### SCHED_TREE (R423) -/

/-- Defaults but for QBASE. -/
def schedDef : Bytes :=
  mkPl 800 ([(4, 2, 512), (6, 1, 20)] ++ (List.range 16).flatMap (fun k =>
    [(34 + 48 * k, 2, 496), (36 + 48 * k, 4, 2048), (40 + 48 * k, 4, 2048), (44 + 48 * k, 4, 2048)]))

/-- The payload's own rules. -/
def schedOk (pl0 : Bytes) : Bool :=
  let pl := orDef pl0 schedDef
  let n := leAt pl 4 2
  pl.length == 800 && inR 16 4096 n && decide (byteAt pl 6 ≤ 63) && decide (byteAt pl 7 < 8) && decide (leAt pl 12 4 < 2 ^ 24) && zAt pl 16 16
  && (List.range 16).all (fun k =>
    let o := 32 + 48 * k
    decide (leAt pl o 2 < 1024) && decide (leAt pl (o + 2) 2 ≤ n - 16) && decide (leAt pl (o + 4) 4 < 2 ^ 20)
    && decide (leAt pl (o + 8) 4 < 2 ^ 20) && decide (leAt pl (o + 12) 4 < 2 ^ 20) && decide (leAt pl (o + 20) 4 < 2 ^ 24)
    && decide (leAt pl (o + 28) 4 < 2 ^ 24) && decide (leAt pl (o + 36) 4 < 2 ^ 24)
    && (leAt pl (o + 40) 2 == 0 || inR 64 12288 (leAt pl (o + 40) 2)) && zAt pl (o + 42) 6)

/-- QBASE and QCOUNT of port `p`; a section of INSTANCE 0xFFFF and the defaults give 512 × port. -/
def schedPool (pl0 : Bytes) (own : Bool) (p : Nat) : Nat × Nat :=
  let pl := orDef pl0 schedDef
  (if own && !pl0.isEmpty then leAt pl 0 4 else 512 * p, leAt pl 4 2)

/-- The queue pages of a range replaced by those of a pool (R420): class queues, then free flow queues. -/
def Chip.layPool (c : Chip) (p base n : Nat) (pl : Bytes) : Chip :=
  let lo := 0x1000000 + 64 * base
  let hi := lo + 64 * n
  let page (i : Nat) : List (Nat × Word) :=
    let q := lo + 64 * i
    let w (o v : Nat) : List (Nat × Word) :=
      if BitVec.ofNat 32 v = regReset (q + o) then [] else [(q + o, BitVec.ofNat 32 v)]
    if i < 16 then
      let k := 32 + 48 * i
      w 0 (2 ^ 30 + i * 2 ^ 24 + p) ++ w 4 (leAt pl (k + 8) 4) ++ w 8 (leAt pl (k + 24) 4)
        ++ w 12 (bitsOf 4 4 (leAt pl k 2) * 2 ^ 31 + bitsOf 5 5 (leAt pl k 2) * 2 ^ 30 + bitsOf 6 6 (leAt pl k 2) * 2 ^ 29 + leAt pl (k + 28) 4)
    else w 0 (2 * 2 ^ 30 + p)
  { c with regs := c.regs.filter (fun (e : Nat × Word) => decide (e.1 < lo)) ++ (List.range n).flatMap page
      ++ c.regs.filter (fun (e : Nat × Word) => decide (hi ≤ e.1)) }

/-- A port's class registers from its section. -/
def Chip.applySchedClass (c : Chip) (p k : Nat) (pl : Bytes) : Chip :=
  let o := 32 + 48 * k
  let f := leAt pl o 2
  let c := ((c.putF F.SCH_CL_CFG.STRICT (f % 2) p k).putF F.SCH_CL_CFG.SHP_EN (bitsOf 1 1 f) p k).putF F.SCH_CL_CFG.SHP_RESET (bitsOf 2 2 f) p k
  let c := ((c.putF F.SCH_CL_CFG.SHP_IDLE (bitsOf 3 3 f) p k).putF F.SCH_CL_CFG.FQ_SHP_EN (bitsOf 7 7 f) p k).putF F.SCH_CL_CFG.FQ_SHP_RESET (bitsOf 8 8 f) p k
  let c := (c.putF F.SCH_CL_CFG.FQ_SHP_IDLE (bitsOf 9 9 f) p k).putF F.SCH_CL_CFG.FQ_MAX (leAt pl (o + 2) 2) p k
  let c := (c.putF F.SCH_CL_QUANTUM.V (leAt pl (o + 4) 4) p k).putF F.SCH_CL_FQ_QUANTUM.V (leAt pl (o + 12) 4) p k
  let c := (c.putF F.SCH_CL_SHP_RATE.V (leAt pl (o + 16) 4) p k).putF F.SCH_CL_SHP_BURST.V (leAt pl (o + 20) 4) p k
  let c := (c.putF F.SCH_CL_FQ_RATE.V (leAt pl (o + 32) 4) p k).putF F.SCH_CL_FQ_BURST.V (leAt pl (o + 36) 4) p k
  (c.putF F.SCH_CL_MAXFRAME.MAXFRAME (leAt pl (o + 40) 2) p k).shaperReset 1 (16 * p + k)

/-- SCHED_TREE of port `p` applied: registers, an empty pool, tokens as RESET gives (R431). -/
def Chip.applySched (c : Chip) (p : Nat) (pl0 : Bytes) (own : Bool) : Chip :=
  let pl := orDef pl0 schedDef
  let pool := schedPool pl0 own p
  let c := (c.putF F.SCH_PORT_POOL.QBASE pool.1 p).putF F.SCH_PORT_POOL.QCOUNT pool.2 p
  let f := byteAt pl 7
  let c := ((c.putF F.SCH_PORT_CFG.SHP_EN (f % 2) p).putF F.SCH_PORT_CFG.SHP_RESET (bitsOf 1 1 f) p).putF F.SCH_PORT_CFG.SHP_IDLE (bitsOf 2 2 f) p
  let c := (c.putF F.SCH_PORT_CFG.OVERHEAD (byteAt pl 6) p).putF F.SCH_PORT_SHP_RATE.V (leAt pl 8 4) p
  let c := (c.putF F.SCH_PORT_SHP_BURST.V (leAt pl 12 4) p).shaperReset 2 p
  let c := (List.range 16).foldl (fun c k => c.applySchedClass p k pl) c
  let c := c.layPool p pool.1 pool.2 pl
  (List.range 16).foldl (fun c k => c.shaperReset 0 (pool.1 + k)) c

/-! ### TIME (R465) -/

/-- The payload's rules. -/
def timeSectionOk (pl : Bytes) : Bool :=
  pl.isEmpty || (pl.length == 32 && decide (byteAt pl 0 ≤ 1) && decide (byteAt pl 1 < 4)
    && inR 1 500 (leAt pl 2 2) && decide (leAt pl 4 4 ≤ 1000000) && decide (leAt pl 8 4 ≤ 1000000)
    && decide ((signedOf 32 (leAt pl 12 4)).natAbs ≤ 999999999) && zAt pl 16 16)

/-- TIME applied. -/
def Chip.applyTime (c : Chip) (pl : Bytes) : Chip :=
  let c := { c with time := { c.time with refSrc := plF pl 0 1 0 == 1, ppsWidth := plF pl 2 2 100 } }
  let c := c.putF F.TIM_CTRL.PPS_OUT_EN (bitsOf 0 0 (plF pl 1 1 0))
  let c := c.putF F.TIM_CTRL.PPS_IN_EN (bitsOf 1 1 (plF pl 1 1 0))
  let c := c.putF F.TIM_LATE_WINDOW.V (plF pl 4 4 1000)
  let c := c.putF F.TIM_PDELAY_STEP.V (plF pl 8 4 100)
  c.putF F.TIM_PPS_OUT_OFS.V (plF pl 12 4 0)

/-! ### TELEMETRY (R491) -/

/-- Defaults. -/
def telemetryDef : Bytes := mkPl 32 [(0, 4, 1), (4, 1, 20), (6, 2, 60), (12, 2, 1400), (14, 2, 600), (16, 1, 37)]

/-- TS_LOG2_RATE of a payload. -/
def tmLog2Rate (pl : Bytes) : Nat := byteAt (orDef pl telemetryDef) 4

def telemetryOk (pl0 : Bytes) : Bool :=
  let pl := orDef pl0 telemetryDef
  pl.length == 32 && decide (byteAt pl 4 ≤ 32) && decide (byteAt pl 5 < 4) && decide (leAt pl 6 2 ≤ 1000) && inR 256 9000 (leAt pl 12 2)
  && inR 1 3600 (leAt pl 14 2) && zAt pl 17 15

/-- TELEMETRY applied. -/
def Chip.applyTelemetry (c : Chip) (pl0 : Bytes) : Chip :=
  let pl := orDef pl0 telemetryDef
  let c := ((c.putF F.TEL_TS_SEED.V (leAt pl 0 4)).putF F.TEL_TS_CTRL.LOG2_RATE (byteAt pl 4)).putF F.TEL_EXP_CTRL.MODE (byteAt pl 5 % 2)
  let c := ((c.putF F.TEL_EXP_CTRL.TRANSPORT (bitsOf 1 1 (byteAt pl 5))).putF F.TEL_EXP_ACTIVE.V (leAt pl 6 2)).putF F.TEL_EXP_DOMAIN.V (leAt pl 8 4)
  ((c.putF F.TEL_EXP_MSG_MAX.V (leAt pl 12 2)).putF F.TEL_EXP_TMPL.V (leAt pl 14 2)).putF F.TEL_EXP_UTC_OFS.V (byteAt pl 16)

/-! ### GANG (R541) -/

/-- Register values without a section. -/
def gangDef : Bytes := mkPl 32 [(3, 1, 255), (4, 1, 2), (5, 1, 255), (6, 2, 50), (8, 4, 250), (12, 2, 10), (14, 1, 25), (16, 4, 1000)]

def gangOk (pl : Bytes) : Bool :=
  pl.isEmpty || (pl.length == 32 && decide (byteAt pl 2 ≤ 3) && (byteAt pl 3 == 255 || (decide (byteAt pl 3 ≤ 3) && byteAt pl 3 != byteAt pl 2))
    && decide (byteAt pl 4 < 4) && (byteAt pl 5 == 255 || decide (byteAt pl 5 < 64)) && inR 5 10000 (leAt pl 6 2) && inR 10 10000 (leAt pl 8 4)
    && inR 1 3600 (leAt pl 12 2) && inR 1 50 (byteAt pl 14) && zAt pl 15 1 && inR 100 1000000 (leAt pl 16 4) && zAt pl 20 12)

/-- GANG applied. -/
def Chip.applyGang (c : Chip) (pl0 : Bytes) : Chip :=
  let pl := orDef pl0 gangDef
  let c := (c.putF F.GNG_STATUS.DEVICE (byteAt pl 2)).putF F.GNG_CTRL.REPL_EN (byteAt pl 4 % 2)
  let c := (c.putF F.GNG_CTRL.TIME_FOLLOW (bitsOf 1 1 (byteAt pl 4))).putF F.GNG_ITEM_CLASS.V (byteAt pl 5)
  let c := ((c.putF F.GNG_LOSS.V (leAt pl 6 2)).putF F.GNG_ROP_WAIT.V (leAt pl 8 4)).putF F.GNG_REPL.REFRESH (leAt pl 12 2)
  let c := (c.putF F.GNG_REPL.SHARE (byteAt pl 14)).putF F.GNG_TIME_STEP.V (leAt pl 16 4)
  { c with gang := { c.gang with gangId := leAt pl 0 2, partner := byteAt pl 3 } }

/-! ### MANAGEMENT (R568) -/

/-- Defaults. -/
def managementDef : Bytes := mkPl 128 [(0, 1, 8), (1, 1, 8), (4, 4, 50), (8, 2, 1024), (10, 2, 10)]

def managementOk (pl0 : Bytes) : Bool :=
  let pl := orDef pl0 managementDef
  pl.length == 128 && decide (byteAt pl 0 < 16) && decide (byteAt pl 1 < 16) && inR 1 10000 (leAt pl 4 4) && decide (64 ≤ leAt pl 8 2)
  && inR 1 60000 (leAt pl 10 2) && zAt pl 12 4 && zAt pl 44 4
  && (List.range 4).all (fun i => decide (byteAt pl (64 + 20 * i) ≤ 128) && zAt pl (65 + 20 * i) 3)

/-- MANAGEMENT applied. -/
def Chip.applyManagement (c : Chip) (pl0 : Bytes) : Chip :=
  let pl := orDef pl0 managementDef
  let c := ((c.putF F.MGT_PARK_IDLE.V (leAt pl 4 4)).putF F.MGT_FLE_IDLE.V (leAt pl 8 2)).putF F.MGT_MP_IDLE.V (leAt pl 10 2)
  { c with mgt := { c.mgt with mpConf := pl } }

end Sys2Proof.Machine
end

