-- ==== Sys2Proof/Machine/PlateCheck.lean ====
section
/-! DEFINITION. The load checks of a Plate (R55, R56, R586), in their order. -/
namespace Sys2Proof.Machine
open Sys2Proof

/-! ### Sections by type and instance -/

/-- The applicable entries of a type, in table order. -/
def secsOf (img : Bytes) (type : Nat) : List SecEntry := (secApplicable img).filter (fun e => e.type == type)

/-- The section-table index an instance's section has, 0xFFF where it takes the defaults. -/
def secIdx (img : Bytes) (type inst : Nat) : Nat := ((secFor img type inst).map SecEntry.idx).getD 0xFFF

/-- The payload of an entry fails a test of its type: the first such entry. -/
def badEach (img : Bytes) (type : Nat) (ok : Bytes → Bool) : Option Nat :=
  firstBad (secsOf img type) (fun e => !ok (secPayload img e))

/-- The first instance below `n` that fails a test, as the index of the section it takes. -/
def badInst (img : Bytes) (type n : Nat) (ok : Nat → Bool) : Option Nat :=
  ((List.range n).find? (fun i => !ok i)).map (secIdx img type)

/-- A test that concerns no single section. -/
def badWhole (bad : Bool) : Option Nat := if bad then some 0xFFF else none

/-- The lane groups that an entry serves (R54). -/
def groupsOf (img : Bytes) (e : SecEntry) : List Nat :=
  if e.inst = 0xFFFF then (List.range 128).filter (fun g => !(secsOf img e.type).any (fun f => f.inst == g)) else [e.inst]

/-! ### Checks 2, 3, 5 and 8 to 10 -/

/-- Check 2: FORMAT, and the SEC_FORMAT of every applicable section of a known type. -/
def formatBad (img : Bytes) : Option Nat :=
  if plFormat img ≠ 1 then some 0xFFF
  else firstBad (secApplicable img) (fun e => secInstances e.type != 0 && e.fmt != 1)

/-- A section needs a count beyond the dimensions of the device (R55). -/
def countBad (img : Bytes) (e : SecEntry) : Bool :=
  let pl := secPayload img e
  if e.type = 0x80 then !pl.isEmpty && decide (4096 < leAt pl 4 2)
  else if e.type = 0x40 then !pl.isEmpty && decide (29 < ftLog2 pl)
  else if e.type = 0x11 then (groupsOf img e).contains 127
    && (List.range 4).any (fun k => pgMode pl k != 0 && decide (8 < 2 * k + pgWidth pl k))
  else false

/-- Check 3 (R55). -/
def memberBad (img : Bytes) : Option Nat :=
  if !bitOf member (plMembers img) then some 0xFFF
  else firstBad (secApplicable img) (fun e => secInstances e.type != 0
    && ((e.inst != 0xFFFF && decide (secInstances e.type ≤ e.inst)) || countBad img e))

/-- Check 5: KEY_SLOT names the digest of PUBKEY. -/
def Chip.keyBad (c : Chip) (img : Bytes) : Bool :=
  let want := (List.range 48).map (fun i => c.polByte (0x280 + 48 * plKeySlot img + i))
  decide (3 < plKeySlot img) || want.all (fun b => b == 0) || Config.sha384 (plPubkey img) != want

/-- Check 8: the payload's check value. R56 runs it over the applicable sections. -/
def checkBad (img : Bytes) : Option Nat :=
  firstBad (secApplicable img) (fun e => crc32c 0xFFFFFFFF (secPayload img e) != e.check)

/-- Check 9. -/
def missingBad (img : Bytes) : Bool :=
  (secFor img 0x01 0).isNone || ((secFor img 0x40 0).isNone && templatesUsed (payloadFor img 0x42 0))

/-- Check 10. -/
def unknownBad (img : Bytes) : Option Nat :=
  firstBad (secApplicable img) (fun e => secInstances e.type == 0 && bitOf 0 e.flags)

/-! ### Check 12: the policy's limits (R586) -/

/-- The words of customer routines keep to EMIT_OPEN. -/
def Chip.emitOk (c : Chip) (pl : Bytes) : Bool :=
  (routineWords pl).all (fun (w : Nat × Mw) => unitOp w.2 5 == 0 || c.polBit 0x217 (unitOp w.2 5))

/-- The words of customer routines write a record only where the policy opens a field. -/
def Chip.wrecOk (c : Chip) (pl : Bytes) : Bool :=
  (routineWords pl).all (fun (w : Nat × Mw) => unitOp w.2 2 != 6 || c.pol 0x212 2 != 0)

/-- The customer window overlaps neither the flow table nor the service-table block of a payload. -/
def Chip.windowHits (c : Chip) (base len : Nat) : Bool := overlapB (c.pol 0x218 8) (c.pol 0x220 8) base len

/-- Check 12, row by row. -/
def Chip.safelightBad (c : Chip) (img : Bytes) : Option Nat :=
  [firstBad (secsOf img 0x10) (fun e =>
      lgBringup (secPayload img e) == 2 && (groupsOf img e).any (fun g => !c.polBit 0x250 g)),
   badEach img 0x11 (fun pl => decide (byteAt (orDef pl portGroupDef) 49 ≤ c.pol 0x234 1)),
   if tmLog2Rate (payloadFor img 0xA0 0) < c.pol 0x235 1 then some (secIdx img 0xA0 0) else none,
   badEach img 0x52 (fun pl => pl.isEmpty || (List.range 64).all (fun q => !wcPresent pl q || !wcHostPost pl q || c.polBit 0x240 q)),
   badEach img 0x51 c.emitOk,
   badEach img 0x51 c.wrecOk,
   badEach img 0x01 (fun pl => decide (or0 (leAt pl 8 4) 1000 ≤ c.pol 0x22C 4)),
   badEach img 0x40 (fun pl => let r := ftRange pl; !c.windowHits r.1 r.2),
   badInst img 0x60 6 (fun s => !c.windowHits (dramSvcBase (payloadFor img 0x60 s)) (64 * 2 ^ 20))].findSome? id

/-! ### Check 13: the rules of the owning chapters -/

/-- The module site, port and lane sections of the groups. -/
def portsBad (img : Bytes) (siteMax : Nat) : Option Nat :=
  [badEach img 0x10 laneGroupOk,
   badInst img 0x11 128 (fun g => portGroupOk (payloadFor img 0x11 g) (payloadFor img 0x10 g) siteMax),
   badInst img 0x10 128 (fun g => !maxStepBad (payloadFor img 0x10 g) (payloadFor img 0x11 g)),
   badEach img 0x20 parseSectionOk].findSome? id

/-- Port `p` is present in a Plate. -/
def portIn (img : Bytes) (p : Nat) : Bool := pgMode (payloadFor img 0x11 (p / 4)) (p % 4) != 0

/-- KIND of a region in a Plate. -/
def regionIn (img : Bytes) (r : Nat) : Nat := trKind (payloadFor img 0x30 r)

/-- The regions of KIND TERNARY name different present profiles. -/
def ternaryRegionsOk (img : Bytes) : Bool :=
  let ts := (List.range 32).filter (fun r => regionIn img r == 6)
  let prof (r : Nat) : Nat := byteAt (payloadFor img 0x30 r) 16
  ts.all (fun r => tpDefined (payloadFor img 0x31 0) (prof r) && !ts.any (fun s => decide (s < r) && prof s == prof r))

/-- The search sections (R179, R180, R204). -/
def searchBad (img : Bytes) : Option Nat :=
  [badInst img 0x30 32 (fun r => regionOk (payloadFor img 0x30 r)),
   badWhole (decide (2097152 < ((List.range 32).map (fun r => trSize (payloadFor img 0x30 r))).foldl (· + ·) 0)),
   badWhole (!(List.range 512).all (fun p => !portIn img p
     || ((List.range 32).filter (fun r => trStart (payloadFor img 0x30 r) p)).length == 1)),
   badEach img 0x31 ternaryOk,
   badWhole (!ternaryRegionsOk img),
   badEach img 0x32 patternOk].findSome? id

/-- The flow and action sections. -/
def flowBad (img : Bytes) : Option Nat :=
  let work := orDef (payloadFor img 0x52 0) workDef
  let tracks := ftLog2 (payloadFor img 0x40 0) != 0
  [badEach img 0x40 flowTableOk,
   badEach img 0x41 engineSetOk,
   badEach img 0x42 (fun pl => templatesOk pl tracks (fun r => regionIn img r != 0) (wcPresent work)),
   badEach img 0x50 microcodeOk,
   badEach img 0x51 routinesOk,
   badEach img 0x52 workOk,
   badEach img 0x60 dramOk,
   badInst img 0x60 6 (fun s => dramAgree (payloadFor img 0x60 0) (payloadFor img 0x60 s)
     && (let r := ftRange (payloadFor img 0x40 0)
         !overlapB r.1 r.2 (dramSvcBase (payloadFor img 0x60 s)) (64 * 2 ^ 20))
     && decide (dramSvcBase (payloadFor img 0x60 s) + 64 * 2 ^ 20 ≤ reservedBase))].findSome? id

/-- A port's queue pool in a Plate. -/
def poolIn (img : Bytes) (p : Nat) : Nat × Nat :=
  schedPool (payloadFor img 0x80 p) ((secsOf img 0x80).any (fun e => e.inst == p)) p

/-- The queue pools lie in the queue store and do not overlap (R420). -/
def poolsOk (img : Bytes) (p : Nat) : Bool :=
  let x := poolIn img p
  decide (x.1 + x.2 ≤ 262144) && (List.range p).all (fun i => let y := poolIn img i; !overlapB x.1 x.2 y.1 y.2)

/-- The remaining sections. -/
def restBad (img : Bytes) : Option Nat :=
  [badEach img 0x70 bufferOk,
   badEach img 0x80 schedOk,
   badInst img 0x80 512 (poolsOk img),
   badEach img 0x90 timeSectionOk,
   badEach img 0xA0 telemetryOk,
   badEach img 0xC0 gangOk,
   badWhole ((secFor img 0xC0 0).isNone && (List.range 128).any (fun g => lgBringup (payloadFor img 0x10 g) == 2)),
   badEach img 0xD0 managementOk].findSome? id

/-- The headers of the regions and profiles of a Plate. -/
def Chip.applySearch (c : Chip) (img : Bytes) : Chip :=
  ((List.range 32).foldl (fun c r => c.applyRegionHdr r (payloadFor img 0x30 r)) c).applyTernary (payloadFor img 0x31 0)

/-- The regions in the order their entries are staged (R180). -/
def regionOrder (img : Bytes) : List Nat :=
  let of (k : Nat → Bool) : List Nat := (List.range 32).filter (fun r => k (regionIn img r))
  of (· == 5) ++ of (· == 4) ++ of (fun k => decide (1 ≤ k) && decide (k ≤ 3))

/-- All initial entries of a Plate staged as one latent set in regions laid out empty (R180): the index of the first section of which
one was refused. (log entry 54 DEDUCED.) -/
def Chip.loadEntries (c : Chip) (img : Bytes) : Option Nat × Chip :=
  let note (b : Option Nat) (ok : Bool) (i : Nat) : Option Nat := if b.isSome || ok then b else some i
  let a : Option Nat × Chip := (regionOrder img).foldl (fun (a : Option Nat × Chip) r =>
    let x := a.2.stageRegion r (payloadFor img 0x30 r)
    (note a.1 x.1 (secIdx img 0x30 r), x.2)) (none, c)
  (List.range 16).foldl (fun (a : Option Nat × Chip) q =>
    let x := a.2.stageProfile (payloadFor img 0x31 0) q
    (note a.1 x.1 (secIdx img 0x31 0), x.2)) a

/-- The initial entries stand in an empty device, and each region's MISS_ACT names an action (R179, R180). -/
def entriesBad (img : Bytes) : Option Nat :=
  let x := (Chip.reset.applySearch img).loadEntries img
  match x.1 with
  | some i => some i
  | none => badInst img 0x30 32 (fun r => regionIn img r == 0 || x.2.actOk 4 (x.2.rMiss r))

/-- Check 13, chapter by chapter. (log entry 54 DEDUCED.) -/
def Chip.consistencyBad (c : Chip) (img : Bytes) : Option Nat :=
  match [badEach img 0x01 globalSectionOk, portsBad img (c.pol 0x234 1), searchBad img, flowBad img, restBad img].findSome? id with
  | some i => some i
  | none => entriesBad img

/-! ### The checks in order (R56) -/

/-- A check: its REASON, and the failing section where it fails. -/
def Chip.plateChecks (c : Chip) (img : Bytes) : List (Nat × (Unit → Option Nat)) :=
  [(0x01, fun _ => badWhole (leAt img 0 4 != 0x54414C50 || leAt img (plTrailer img) 4 != 0x47495350)),
   (0x02, fun _ => formatBad img),
   (0x03, fun _ => memberBad img),
   (0x04, fun _ => badWhole (!Config.ecdsaOk (plPubkey img) (Config.sha384 (plSigned img)) (plSig img))),
   (0x05, fun _ => badWhole (c.keyBad img)),
   (0x06, fun _ => badWhole (decide (plSerial img < c.floorOf 0))),
   (0x07, fun _ => layoutBad img),
   (0x08, fun _ => checkBad img),
   (0x09, fun _ => badWhole (missingBad img)),
   (0x0A, fun _ => unknownBad img),
   (0x0D, fun _ => badWhole (plPolicyId img != 0 && plPolicyId img != c.getF F.SFL_POLICY_ID.V)),
   (0x0B, fun _ => c.safelightBad img),
   (0x0C, fun _ => c.consistencyBad img)]

/-- The first check that fails: REASON and SECTION; 0 and 0xFFF where all pass. (log entry 54 DEDUCED.) -/
def Chip.plateCheck (c : Chip) (img : Bytes) : Nat × Nat :=
  ((c.plateChecks img).findSome? (fun (k : Nat × (Unit → Option Nat)) => (k.2 ()).map (fun i => (k.1, i)))).getD (0, 0xFFF)

/-- PLT_LOAD_STATUS takes the outcome of a check. (log entry 49 DEDUCED.) -/
def Chip.loadStatus (c : Chip) (r : Nat × Nat) : Chip := (c.putF F.PLT_LOAD_STATUS.REASON r.1).putF F.PLT_LOAD_STATUS.SECTION r.2

/-- An image is checked: the outcome, and the chip with PLT_LOAD_STATUS and the sections skipped by check 10 logged. -/
def Chip.checkPlate (c : Chip) (img : Bytes) : Bool × Chip :=
  let r := c.plateCheck img
  let c := c.loadStatus r
  let c := if r.1 = 0x0B then c.deniedCapture 7 0 0 else c
  let past10 := r.1 == 0 || decide (0x0B ≤ r.1)
  let c := if past10 then
      ((secApplicable img).filter (fun e => secInstances e.type == 0)).foldl (fun c e => c.log 17 1 0x0003 0 e.type) c
    else c
  (r.1 == 0, c)

end Sys2Proof.Machine
end

