-- ==== Sys2Proof/Machine/TimeBase.lean ====
section
/-! DEFINITION. Pending scheduled actions, their withdrawal and re-evaluation (R457 to R459), and the loss of device time. -/
namespace Sys2Proof.Machine
open Sys2Proof

/-! ### Pending actions (R457 to R459) -/

/-- Every pending scheduled action with its DTW time. -/
def Chip.pendActs (c : Chip) : List (PendAct × Nat) :=
  ((List.range 16).filter (fun n => c.getF F.TIM_SACT_STATE.PHASE n == 1)).map
      (fun n => (PendAct.sact n, c.getQ F.TIM_SACT_TIME.V n))
  ++ ((List.range 8).filter (fun n => c.getF F.PLT_SB_STATE.PHASE n == 1)).map
      (fun n => (PendAct.bath n, c.getQ F.PLT_SB_TIME.V n))
  ++ (match c.rules.fixAt with | some t => [(PendAct.fix, t)] | none => [])
  ++ (c.sched.gates.filterMap (fun e => e.2.pend.map (fun g => (PendAct.gate e.1, g.base))))
  ++ (match c.gang.resetAt with | some t => [(PendAct.reset, t)] | none => [])

/-- A host timed write withdrawn (R459) or run: PHASE finished with its final status, one entry fewer in use. -/
def Chip.sactFinish (c : Chip) (n st : Nat) : Chip :=
  (((c.putF F.TIM_SACT_STATE.PHASE 2 n).putF F.TIM_SACT_STATE.STATUS st n).sink F.TIM_STATUS.SACT_USED)

/-- A scheduled stop-bath entry ended without a drain: PHASE finished with its final status (R73, R459). -/
def Chip.bathWithdraw (c : Chip) (n st : Nat) : Chip :=
  (c.putF F.PLT_SB_STATE.PHASE 5 n).putF F.PLT_SB_STATE.STATUS st n

/-- A pending action withdrawn with TIMEOUT (R458, R459). -/
def Chip.withdraw (c : Chip) : PendAct → Chip
  | .sact n => c.sactFinish n stTimeout
  | .bath n => c.bathWithdraw n stTimeout
  | .fix => c.fixWithdraw stTimeout
  | .gate p => c.gateCancel p
  | .reset => { c with gang := { c.gang with resetAt := none, resetLate := false } }

/-- R458: after a STEP an action whose time has passed is due LATE; one more than 2^47 ns ahead is withdrawn. -/
def Chip.reevaluate (c : Chip) : Chip :=
  c.pendActs.foldl (fun c a =>
    let u := ((a.2 + (2 ^ 64 - c.dtw)) % 2 ^ 64) / 2 ^ 16
    if u = 0 ∨ 3 * 2 ^ 46 ≤ u then { c with time := { c.time with late := a.1 :: c.time.late } }
    else if 2 ^ 47 < u then c.withdraw a.1
    else c) c

/-- The slew ends (R453): what is not applied is dropped. -/
def Chip.endSlew (c : Chip) : Chip := ({ c with time := { c.time with slew := none } }).putF F.TIM_STATUS.SLEWING 0

/-- TIME_VALID in GLB_STATUS and its mirror. -/
def Chip.setTimeValid (c : Chip) (b : Bool) : Chip :=
  (c.putF F.GLB_STATUS.TIME_VALID (b2n b)).putF F.TIM_STATUS.TIME_VALID (b2n b)

/-- The effect of INVALIDATE (R453, R459): a gang's scheduled reset is not withdrawn. -/
def Chip.invalidateTime (c : Chip) : Chip :=
  let c := (c.setTimeValid false).endSlew
  let c := (c.pendActs.filter (fun a => a.1 != PendAct.reset)).foldl (fun c a => c.withdraw a.1) c
  { c with time := { c.time with late := c.time.late.filter (· == PendAct.reset) } }

end Sys2Proof.Machine
end

