-- ==== Sys2Proof/Machine/Recov.lean ====
section
/-! DEFINITION. Recovery domains (R590 to R610): the start of a recovery, the steps of each domain, its end, and a domain held
stopped. Kinds: 0 lane, 1 port, 2 slice, 3 engine, 4 cluster, 5 channel, 6 bank, 7 gang link. -/
namespace Sys2Proof.Machine
open Sys2Proof

/-! ### Domains and their registers (R597, R609) -/

/-- The kind of domain of a CAUSE; none: no fault has that code. -/
def causeKind (cause : Nat) : Option Nat :=
  if cause = 1 then some 0
  else if cause = 2 ∨ cause = 3 then some 1
  else if 4 ≤ cause ∧ cause ≤ 7 then some 2
  else if 8 ≤ cause ∧ cause ≤ 0xA then some 3
  else if 0xB ≤ cause ∧ cause ≤ 0xD then some 4
  else if cause = 0xE ∨ cause = 0xF then some 5
  else if cause = 0x10 ∨ cause = 0x11 then some 6
  else if cause = 0x12 ∨ cause = 0x13 then some 7
  else if cause = 0x14 then some 2
  else none

/-- Instances of a kind (R37). -/
def kindCount (kind : Nat) : Nat :=
  match kind with | 0 => 1024 | 1 => 512 | 2 => 16 | 3 => 128 | 4 => 16 | 5 => 96 | 6 => 48 | _ => 4

/-- First word of a kind in GLB_REC_ACTIVE and GLB_REC_STOPPED. -/
def kindWord (kind : Nat) : Nat :=
  match kind with | 0 => 0 | 1 => 32 | 2 => 48 | 3 => 49 | 4 => 53 | 5 => 54 | 6 => 57 | _ => 59

/-- A domain's bit in one of the two bitmaps. -/
def Chip.recBit (c : Chip) (f : Fld) (kind inst : Nat) (b : Bool) : Chip :=
  let w := kindWord kind + inst / 32
  c.putF f (setBitsOf (inst % 32) (inst % 32) (c.getF f w) (b2n b)) w

/-- The domain's entry. -/
def Chip.recOf (c : Chip) (kind inst : Nat) : Option RecDom := c.recov.find? (fun r => r.kind == kind && r.inst == inst)

/-- The chip with a domain's entry set. -/
def Chip.setRec (c : Chip) (r : RecDom) : Chip :=
  { c with recov := c.recov.filter (fun x => !(x.kind == r.kind && x.inst == r.inst)) ++ [r] }

/-- The chip without a domain's entry. -/
def Chip.rmRec (c : Chip) (r : RecDom) : Chip :=
  { c with recov := c.recov.filter (fun x => !(x.kind == r.kind && x.inst == r.inst)) }

/-- GLB_STATUS, GLB_REC_COUNT and watch mode follow the domains (R442, R594, R609). -/
def Chip.recShow (c : Chip) : Chip :=
  let run := c.recov.any (fun r => r.state == 2)
  let c := if c.power.unrec || !c.recov.isEmpty then c.raiseGlb F.GLB_STATUS.FAULT_PENDING else c.putF F.GLB_STATUS.FAULT_PENDING 0
  let c := if run then c.raiseGlb F.GLB_STATUS.RECOVERING else c.putF F.GLB_STATUS.RECOVERING 0
  let c := c.putF F.GLB_REC_COUNT.ACTIVE (c.recov.filter (fun r => r.state != 3)).length
  let c := c.putF F.GLB_REC_COUNT.STOPPED (c.recov.filter (fun r => r.state == 3)).length
  c.setObs fun c => c.putF F.SCH_OBS_CTRL.FORCED (b2n run)

/-- GLB_REC_LAST and its time. -/
def Chip.recLast (c : Chip) (kind inst cause : Nat) (second : Bool) : Chip :=
  let c := (c.putF F.GLB_REC_LAST.CAUSE cause).putF F.GLB_REC_LAST.KIND kind
  let c := (c.putF F.GLB_REC_LAST.SECOND (b2n second)).putF F.GLB_REC_LAST.INSTANCE inst
  c.putQ F.GLB_REC_LAST_TIME.V c.dtw

/-! ### Packets that a recovery discards -/

/-- A packet before the end of its admission. -/
def Pkt.preAdmit (p : Pkt) : Bool :=
  match p.stage with
  | .elastic | .admitted | .gone => false
  | _ => true

/-- A packet is discarded uncounted: its strip ends with ERROR. -/
def Chip.dropQuiet (c : Chip) (pid : Nat) : Chip := ((c.endStrip pid 2 0xD).endPkt pid).settleBindings

/-- The packets that a slice's recovery discards: of cause 6 or 7 those of the pipe that read the word. -/
def Chip.slicePkts (c : Chip) (r : RecDom) : List (Nat × Pkt) :=
  c.pkts.filter (fun (e : Nat × Pkt) => e.2.slice == r.inst && e.2.preAdmit
    && (r.cause == 4 || r.cause == 5
      || ((e.2.stage == .parse || e.2.stage == .classify || e.2.stage == .flowWait) && e.2.pipe == r.detail.headD 0)))

/-- The packets with a cell in a bank. -/
def Chip.bankPkts (c : Chip) (b : Nat) : List (Nat × Pkt) :=
  c.pkts.filter (fun (e : Nat × Pkt) => e.2.banks.contains b && e.2.stage != .gone)

/-- Ops of an engine that its recovery answers with ERROR (R601). -/
def EngSt.failing (s : EngSt) : List FOp := s.input ++ s.station ++ s.helds.map (fun (h : FHeld) => h.op)

/-! ### Gap bits (R476) -/

/-- An event instance of a block lies in a domain. -/
def Chip.evInDomain (c : Chip) (kind inst blk i : Nat) : Bool :=
  let port : Option Nat := if blk = 1 ∨ blk = 8 then some i else if blk = 9 then some (c.queueHome i).1 else none
  match kind with
  | 0 => blk == 10 && i == inst
  | 1 => port == some inst
  | 2 => (match port with | some p => p / 32 == inst | none => false) || (blk == 2 && i / 12 == inst)
  | 3 => blk == 4 && i == inst
  | 4 => blk == 5 && i == inst
  | 5 => blk == 7 && i == inst
  | 6 => port.isSome
  | _ => blk == 12 && i == inst

/-- The groups of event counters in which an enabled counter selects an instance in the domain. -/
def Chip.evGroups (c : Chip) (kind inst : Nat) : List Nat :=
  (c.regs.filterMap (fun (e : Nat × Word) =>
    if 0x188004 ≤ e.1 ∧ e.1 < 0x190000 ∧ e.1 % 8 = 4 ∧ bitOf 31 e.2.toNat then
      let n := (e.1 - 0x188004) / 8
      let sel := (c.rd (0x188000 + 8 * n)).toNat
      if c.evInDomain kind inst (bitsOf 31 28 sel) (bitsOf 27 10 sel) then some (512 + n / 64) else none
    else none)).eraseDups

/-- Ports of a list of packets: ingress, and with `out` output. -/
def pktPorts (l : List (Nat × Pkt)) (out : Bool) : List Nat :=
  (l.map (fun (e : Nat × Pkt) => e.2.port)
    ++ (if out then l.flatMap (fun (e : Nat × Pkt) => e.2.copies.map (fun (k : Copy) => k.port)) else [])).filter (fun p => decide (p < 512))

/-- The counter sets of the table of R476. For a channel the fault names the engines whose ops the freeze ended.
(log entry 105 DEDUCED.) -/
def Chip.gapSets (c : Chip) (r : RecDom) : List Nat :=
  match r.kind with
  | 0 => (c.laneOwner r.inst).toList
  | 1 => [r.inst]
  | 2 => (List.range 32).map (32 * r.inst + ·) ++ [736, 737]
  | 3 => [592 + r.inst, 738] ++ pktPorts (c.pkts.filter (fun (e : Nat × Pkt) =>
      (c.eng r.inst).failing.any (fun (o : FOp) => o.kind == 0 && o.src == e.1))) false
  | 4 => [720 + r.inst]
  | 5 => (r.detail.filter (fun e => decide (e < 128))).map (592 + ·) ++ [738]
  | 6 => pktPorts (c.bankPkts r.inst) true ++ [736]
  | _ => (c.gang.rops.filter (fun (x : Rop) => x.dev == r.inst)).filterMap (fun x => (c.pkt x.pid).map (fun p => p.port))

/-- The gap bits of a recovery are set at its start. -/
def Chip.recGaps (c : Chip) (r : RecDom) : Chip :=
  ((c.gapSets r ++ c.evGroups r.kind r.inst).eraseDups).foldl (fun c s => c.gap s) c

/-! ### Containment and held-stopped domains (R594, R606) -/

/-- A domain stops: what the state itself does not hold is stopped here. (log entry 66 DEDUCED.) -/
def Chip.recContain (c : Chip) (r : RecDom) : Chip :=
  match r.kind with
  | 0 => c.laneCheck r.inst
  | 1 => c.portEval r.inst
  | 6 => if c.tm.bankOut.contains r.inst then c else { c with tm := { c.tm with bankOut := c.tm.bankOut ++ [r.inst] } }
  | 7 => (c.servicePorts r.inst).foldl (fun c p => c.leaveService p) c
  | _ => c

/-- A domain is held stopped (R39): REC_STOPPED is logged. -/
def Chip.recStop (c : Chip) (r : RecDom) (cause : Nat) : Chip :=
  let x := { r with state := 3 }
  let c := ((c.setRec x).recBit F.GLB_REC_ACTIVE.V r.kind r.inst false).recBit F.GLB_REC_STOPPED.V r.kind r.inst true
  ((c.log 0 3 0x0202 r.inst (cause + 256 * r.kind)).recContain x).recShow

/-! ### Lane (R598) -/

/-- The lane's steps: presets, then bring-up without back-off. -/
def Chip.laneRecover (c : Chip) (l : Nat) : Chip :=
  let c := (c.lput l F.LNA_TX_FFE.all (c.lane l).ffePreset).onLane l fun x => { x with rxAdaptRuns := x.rxAdaptRuns + 1 }
  let c := c.rxAdapted l
  if !c.laneMayRun l || [1, 10, 11].contains (c.lstate l) then c else (c.laneReason l 6).bringUp l

/-! ### Port (R599) -/

/-- Cause 2: stomp, drop, reload, and the link down until the end of the recovery. (log entry 67 DEDUCED.) -/
def Chip.portRecover (c : Chip) (p : Nat) : Chip :=
  let c := match (c.portSt p).txBusy with
    | some (pid, cid) => (match c.pkt pid with
      | some x => (match x.copies.find? (fun (k : Copy) => k.cid == cid) with
        | some k => c.stompCopy pid x k 0x21
        | none => c)
      | none => c)
    | none => c
  let c := (c.portSt p).elastic.foldl (fun c pid => c.failPkt pid) (c.cutArriving p 4)
  let c := (c.putF F.PRT_CVU_RUN.V 0 p 0).putF F.PRT_CVU_RUN.V 0 p 1
  (c.setPort p { c.portSt p with cvuStaged := [] }).portEval p

/-- The tree of a port restarts (R70, R72): deficits 0, shapers as RESET says; queues, bindings, marks and the gate list stay. -/
def Chip.treeRestart (c : Chip) (p : Nat) : Chip :=
  let qs := (List.range 16).map (c.classQueue p) ++ c.flowQueues p
  let c := (List.range 16).foldl (fun c k => (c.setClsDef p k 0).shaperReset 1 (16 * p + k)) c
  let c := qs.foldl (fun c q =>
    (if c.getF F.SCH_Q_STATUS.DEF q = 0 then c else c.putF F.SCH_Q_STATUS.DEF 0 q).shaperReset 0 q) c
  (c.shaperReset 2 p).gateShow p

/-! ### Slice (R600) -/

/-- A packet's frame that is still arriving is reported as failed; a packet in the slice's pipes is dropped. -/
def Chip.sliceDrop (c : Chip) (pid : Nat) : Chip :=
  match c.pkt pid with
  | none => c
  | some p =>
    let c := if p.src = 0 ∧ p.tail = 0 then c.tailReport pid false else c
    if p.src = 0 ∧ (c.portSt p.port).arriving = some pid then c.cutArriving p.port 4 else c.dropQuiet pid

/-- The copies of a slice's ports that wait in the residue are dropped, and those in transmission stomped. -/
def Chip.sliceCopies (c : Chip) (s : Nat) : Chip :=
  c.pkts.foldl (fun c (e : Nat × Pkt) => e.2.copies.foldl (fun c (k : Copy) =>
    match c.pkt e.1 with
    | none => c
    | some p =>
      if k.state = 0 ∧ p.slice = s then (c.endCopy e.1 k.cid).settleBindings
      else if k.state = 2 ∧ k.port / 32 = s then c.stompCopy e.1 p k 0xD
      else c) c) c

/-- An entry whose word and shadow are lost is deleted in every live version (R600): RULE_LOST. -/
def Chip.ruleLost (c : Chip) (region unit : Nat) : Chip :=
  let tern := c.rKind region == 6
  let place := if tern then tKey (byteAt (c.rSource region) 0) unit
    else placeKey region (unit / max 1 (entUnits (c.rKind region)))
  let keep (x : Change) : Bool := !(x.tern == tern && x.place == place)
  let known := if tern then (smFind c.tern.entries place).isSome else (smFind c.rules.entries place).isSome
  let c := if !known then c else if tern then c.tFree place else c.freeEntry place
  let c := { c with rules := { c.rules with
    latent := c.rules.latent.filter keep
    lists := c.rules.lists.map (fun (l : Nat × List Change) => (l.1, l.2.filter keep)) } }
  (c.syncRules).log 0 2 0x0204 0 (region % 256 + 256 * unit)

/-- The slice's steps. (log entry 67 DEDUCED.) -/
def Chip.sliceRecover (c : Chip) (r : RecDom) : Chip :=
  let c := if (r.cause = 6 ∨ r.cause = 7) ∧ r.detail.getD 1 0 = 1 then c.ruleLost (r.detail.getD 2 0) (r.detail.getD 3 0) else c
  let l := c.slicePkts r
  if r.cause = 6 ∨ r.cause = 7 then l.foldl (fun c e => c.sliceDrop e.1) c
  else
    let c := (List.range 32).foldl (fun c i =>
      match (c.portSt (32 * r.inst + i)).arriving with
      | some pid => (c.tailReport pid false).cutArriving (32 * r.inst + i) 4
      | none => c) c
    (l.foldl (fun c e => c.sliceDrop e.1) c).sliceCopies r.inst

/-! ### Flow engine (R601) -/

/-- An op ends with ERROR; a packet whose write was held is dropped wherever it is. -/
def Chip.opFailed (c : Chip) (e : Nat) (o : FOp) : Chip :=
  if o.isPkt then c.fallback e o 6 else if o.kind = 8 then c else c.sendAnswer o 8 []

/-- The record of a key is deleted (R256). -/
def Chip.keyDeleted (c : Chip) (e : Nat) (key : Bytes) (h1 h2 : Nat) : Chip :=
  match c.wayOf e key h1, c.tableLookup e key h1 h2 with
  | some i, _ =>
    let w := c.way e i
    if (c.eng e).preps.any (fun (p : FPrep) => p.way == i) then c
    else ((c.clearTag e (c.wayBucket w) w.bslot).emptyWay e i).recGone w.record 0
  | none, .found b j => ((c.clearTag e b j).recGone (c.slotRec e b j) 0)
  | none, _ => c

/-- A held write goes with its record; a held insert has nothing in DRAM. -/
def Chip.heldLost (c : Chip) (e : Nat) (h : FHeld) : Chip :=
  let c := c.bumpQ 48 F.FLE_CNT_DISCARD.V e
  let w := c.way e h.way
  if h.insert then c.emptyWay e h.way else ((c.clearTag e h.bucket h.slot).emptyWay e h.way).recGone w.record 0

/-- The cache partition is emptied: the records of dirty ways are deleted; ways of prepared changes stay. -/
def Chip.cacheEmptied (c : Chip) (e : Nat) : Chip :=
  (smKeys (c.eng e).ways).foldl (fun c i =>
    let w := c.way e i
    if !w.full || (c.eng e).preps.any (fun (p : FPrep) => p.way == i) then c
    else if w.dirty then ((c.clearTag e (c.wayBucket w) w.bslot).emptyWay e i).recGone w.record 0
    else c.emptyWay e i) c

/-- Every meter of an engine as after a configuration write with RESET 0 (R286). -/
def Chip.metersFull (c : Chip) (e : Nat) : Chip :=
  let now := c.mt32
  c.onFlow fun x => { x with meters := (x.meters.filter (fun (m : Nat × Bytes) => m.1 / 4096 == e)).foldl (fun ms (m : Nat × Bytes) =>
    let y := m.2
    smSet (fun _ => zerosB 48) ms m.1 (putBe (putBe (putBe y 32 6 (beAt y 8 4 * 8000000)) 38 6 (beAt y 12 4 * 8000000)) 44 4 now)) x.meters }

/-- The engine's steps for causes 8 and 9. (log entry 67 DEDUCED.) -/
def Chip.engineRecover (c : Chip) (e : Nat) (walk : Bool) : Chip :=
  let s := c.eng e
  let c := c.onEng e fun x => { x with
    input := []
    station := []
    lookups := []
    helds := []
    setups := (x.setups.filter (fun (y : FSetup) => y.st != 0)).map (fun (y : FSetup) =>
      { y with answered := true, op := { y.op with tail := if y.st = 1 then 2 else y.op.tail } }) }
  let c := s.helds.foldl (fun c h => c.heldLost e h) c
  let c := s.station.foldl (fun c (o : FOp) => c.keyDeleted e o.key o.h1 o.h2) c
  let c := s.failing.foldl (fun c o => c.opFailed e o) c
  let c := if walk then c.cacheEmptied e else c
  let c := (c.metersFull e).flush
  s.helds.foldl (fun c (h : FHeld) => if h.op.kind = 0 then c.failPkt h.op.src else c) c

/-! ### Action cluster (R602) -/

/-- The Plate that the section of a unit instance in force comes from (R69). -/
def Chip.plateOf (c : Chip) (unit inst : Nat) : Bytes :=
  (if c.plate.mixed.contains (unit, inst) then c.plate.pend else c.plate.cur).getD []

/-- The cluster's steps: routines killed, control store reloaded, scratch zeroed. -/
def Chip.clusterRecover (c : Chip) (k : Nat) : Chip :=
  let c := c.killAll k abFault
  let img := c.plateOf 4 k
  let c := (c.applyMicrocode k (payloadFor img 0x50 0)).applyRoutines k (payloadFor img 0x51 k)
  (clusterCtxs k).foldl (fun c x => if (c.ctx x).scratch.isEmpty then c else c.onCtx x fun v => { v with scratch := [] }) c

/-- A waiting item is dropped: its slot returns, and a SETUP item reports ABORTED. -/
def Chip.itemLost (c : Chip) (q i : Nat) : Chip :=
  match (c.waitingOf q)[i]? with
  | none => c
  | some b =>
    let c := (c.setWaiting q ((c.waitingOf q).eraseIdx i)).giveSlot q b.shared b.att.isSome
    if itemKind b.item = 1 then c.onWds fun w => { w with
      setupEnds := w.setupEnds ++ [(hEngine (beAt b.item 52 4), byteAt b.item 5, 1)] }
    else c

/-- The items of a lost slot bank: each named by class × 2^17 + place in its class, as the waiting lists stand. -/
def Chip.slotBankLost (c : Chip) (l : List Nat) : Chip :=
  (List.range 64).foldl (fun c q =>
    ((List.range (c.waitingOf q).length).reverse.filter (fun i => l.contains (q * 2 ^ 17 + i))).foldl
      (fun c i => c.itemLost q i) c) c

/-! ### DRAM channel (R603) -/

/-- A record slot of an engine is deleted through its tag; its cached way is emptied. -/
def Chip.slotDeleted (c : Chip) (e b j : Nat) : Chip :=
  if !tagValid (c.tag e b j) then c
  else
    let r := c.committed e b j
    let c := match c.wayOfSlot e b j with
      | some i => (c.onEng e fun s => { s with helds := s.helds.filter (fun (h : FHeld) => h.way != i) }).emptyWay e i
      | none => c
    (c.clearTag e b j).recGone r 0

/-- A line of the service area or the service tables, written as 0: its watches break. (log entry 65 DEDUCED.) -/
def Chip.lineZero (c : Chip) (a : Nat) : Chip := (c.dramWrite a (zerosB 64)).breakWatch none a 64

/-- The area of a line: 0 tags, 1 records, 2 reserved and rewritten from flash, 3 reserved and zeroed, 4 service. -/
def Chip.lineArea (c : Chip) (a : Nat) : Nat :=
  if c.flowPresent && decide (c.tagBase ≤ a) && decide (a < c.recBase) then 0
  else if c.flowPresent && decide (c.recBase ≤ a) && decide (a < c.tableEnd) then 1
  else if reservedBase ≤ a ∧ a < reservedBase + 0x80000000 then
    let o := a - reservedBase
    if o < 0x10000000 ∨ (0x14000000 ≤ o ∧ o < 0x70000000) then 3 else 2
  else 4

/-- Repair of the record slots that a range of the table touches. -/
def Chip.slotsDeleted (c : Chip) (a n : Nat) : Chip :=
  if c.lineArea a = 0 then
    let t0 := (a - c.tagBase) / 8
    (List.range ((n + 7) / 8)).foldl (fun c i =>
      let t := t0 + i
      c.slotDeleted (t / 8 % 128) (t / 1024) (t % 8)) c
  else
    let s := (a - c.recBase) / 128
    c.slotDeleted (s / 8 % 128) (s / 1024) (s % 8)

/-- Lines to zero in a channel: those that read uncorrectable and those of writes not performed, outside the flow table.
(log entry 65 DEDUCED.) -/
def Chip.serviceLines (c : Chip) (ch : Nat) : List Nat :=
  let ls := (c.hbm.bad.filter (fun (x : Nat × Nat) => x.1 == ch)).map (fun (x : Nat × Nat) => x.2)
    ++ (c.hbm.lost.filter (fun (x : Nat × Nat × Nat) => x.1 == ch)).flatMap (fun (x : Nat × Nat × Nat) =>
      (linesOf x.2.1 x.2.2).map (64 * ·))
  (ls.filter (fun a => decide (3 ≤ c.lineArea a) && chanOf a == ch)).eraseDups

/-- The lost lines of the service area are logged (R603): 256 at most, then one entry for the rest.
(log entry 65 DEDUCED.) -/
def Chip.linesLogged (c : Chip) (l : List Nat) : Chip :=
  let c := (l.take 256).foldl (fun c a => c.log 0 1 0x0205 0 a) c
  if l.length ≤ 256 then c else c.log 0 1 0x0206 0 (l.length - 256)

/-- The repair writes of a channel (R603 steps 2 and 4). (log entry 67 DEDUCED.) -/
def Chip.repairCh (c : Chip) (ch : Nat) : Chip :=
  let bad := (c.hbm.bad.filter (fun (x : Nat × Nat) => x.1 == ch)).map (fun (x : Nat × Nat) => x.2)
  let lost := c.hbm.lost.filter (fun (x : Nat × Nat × Nat) => x.1 == ch)
  let zero := c.serviceLines ch
  let c := bad.foldl (fun c a =>
    if c.lineArea a = 0 then (c.slotsDeleted a 64).dramWrite a (zerosB 64)
    else if c.lineArea a = 1 then c.slotsDeleted a 64 else c) c
  let c := lost.foldl (fun c (x : Nat × Nat × Nat) => if c.lineArea x.2.1 ≤ 1 then c.slotsDeleted x.2.1 x.2.2 else c) c
  let svc := zero.filter (fun a => c.lineArea a == 4)
  ((zero.foldl (fun c a => c.lineZero a) c).linesLogged svc).flush

/-! ### Buffer bank (R604) -/

/-- A bank leaves allocation, and every copy with a cell in it is dropped with ERROR or stomped. -/
def Chip.bankEmptied (c : Chip) (b : Nat) : Chip :=
  let c := if c.tm.bankOut.contains b then c else { c with tm := { c.tm with bankOut := c.tm.bankOut ++ [b] } }
  (c.bankPkts b).foldl (fun c (e : Nat × Pkt) =>
    if e.2.copies.isEmpty then c.dropTm e.1 0xD
    else
      let c := e.2.copies.foldl (fun c (k : Copy) =>
        match c.pkt e.1 with
        | none => c
        | some p => if k.state = 2 then c.stompCopy e.1 p k 0xD else c.dropCopy e.1 k 0xD) c
      if (c.pkt e.1).isSome && e.2.stage != .admitted && e.2.stage != .residue then c.dropTm e.1 0xD else c) c

/-- A bank returns to allocation. -/
def Chip.bankBack (c : Chip) (b : Nat) : Chip := { c with tm := { c.tm with bankOut := c.tm.bankOut.filter (· != b) } }

/-! ### The steps of a domain, and their end -/

/-- The steps of a domain (R598 to R605). A channel's repair and a bank's rebuilding complete at its end. -/
def Chip.recSteps (c : Chip) (r : RecDom) : Chip :=
  match r.kind with
  | 0 => c.laneRecover r.inst
  | 1 => if r.cause = 3 then c.treeRestart r.inst else c.portRecover r.inst
  | 2 => c.sliceRecover r
  | 3 => if r.cause = 0xA then c else c.engineRecover r.inst (r.cause == 9)
  | 4 => if r.cause = 0xD then c.slotBankLost r.detail else c.clusterRecover r.inst
  | 6 => c.bankEmptied r.inst
  | 7 => (c.servicePorts r.inst).foldl (fun c p => c.leaveService p) c
  | _ => c

/-- What the end of a domain's steps restores, its entry gone. -/
def Chip.recRestore (c : Chip) (r : RecDom) : Chip :=
  match r.kind with
  | 0 => c.laneCheck r.inst
  | 1 => c.portEval r.inst
  | 5 => if c.chState r.inst = 2 then (c.repairCh r.inst).releaseCh r.inst true else c
  | 6 => c.bankBack r.inst
  | _ => c

/-- The domain's steps run (R594 step 3). -/
def Chip.recRun (c : Chip) (r : RecDom) : Chip :=
  let x := { r with state := 2, start := c.mt }
  (c.setRec x).recShow.recSteps x

/-- The domain runs its steps, or waits under MANUAL: REC_HELD is logged. -/
def Chip.recProceed (c : Chip) (r : RecDom) : Chip :=
  if bitOf r.kind (c.getF F.GLB_REC_CTRL.MANUAL) then
    let x := { r with state := 1 }
    (((c.setRec x).log 0 1 0x0203 r.inst (256 * r.kind)).recContain x).recShow
  else c.recRun r

/-! ### Stop-baths of the unit (R596) -/

/-- The stop-bath units that name a domain: unit and instance. -/
def Chip.bathUnits (c : Chip) (kind inst : Nat) : List (Nat × Nat) :=
  match kind with
  | 0 => [(0, inst / 8)]
  | 1 => [(1, inst / 4), (5, inst)]
  | 2 => [(2, inst)]
  | 3 => [(3, inst / 8), (3, 16)]
  | 4 => [(4, inst)]
  | 5 => [(7, inst)]
  | 6 => [(8, inst)]
  | _ => (((List.range 512).filter (fun p => c.gangPort p && c.capDevice p == inst)).map (fun p => (0, p / 4))).eraseDups

/-- The entries of the units of a domain in a phase. -/
def Chip.bathsOf (c : Chip) (kind inst : Nat) (ph : Nat) : List Nat :=
  let us := c.bathUnits kind inst
  (List.range 8).filter (fun n => c.getF F.PLT_SB_STATE.PHASE n == ph
    && us.contains (c.getF F.PLT_SB_STATE.UNIT n, c.getF F.PLT_SB_STATE.INSTANCE n))

/-- Stop-baths that meet the recovery: scheduled and draining entries end BUSY. -/
def Chip.bathsEnded (c : Chip) (kind inst : Nat) : Chip :=
  let l := c.bathsOf kind inst 1 ++ c.bathsOf kind inst 2
  let c := l.foldl (fun c n => c.bathWithdraw n stBusy) c
  { c with plate := { c.plate with bathLate := c.plate.bathLate.filter (fun n => !l.contains n) } }

/-! ### Commands -/

/-- A fault of cause 0x14 (R597): its single step completes at once. `detail`: 0 time, 1 host interface, or 2, the counter's
set, its address and its registers. -/
def Chip.chipFault (c : Chip) (detail : List Nat) : Chip :=
  match detail.headD 0 with
  | 0 => c.invalidateTime
  | 1 => c.hostReset
  | _ =>
    let c := (List.range (min 2 (detail.getD 3 1))).foldl (fun c i => c.wr (detail.getD 2 0 + 4 * i) 0) c
    (((c.gap (detail.getD 1 0)).bump F.TEL_CNT_UNCORR.V)).raise F.TEL_EVENTS.CNT_UNCORR

/-- REC_END is logged, and the recovery counted. (log entry 60 DEDUCED.) -/
def Chip.recLogEnd (c : Chip) (inst ns : Nat) : Chip :=
  (c.log 0 0 0x0201 inst (min ns (2 ^ 32 - 1))).bump F.GLB_CNT_RECOVERED.V

/-- RECOVERY_START: a fault is detected (R594 to R597, R39). (log entry 64 DEDUCED.) -/
def Chip.recoveryStart (c : Chip) (kind inst cause : Nat) (detail : List Nat) : Chip :=
  if causeKind cause ≠ some kind ∨ kindCount kind ≤ inst ∨ (cause = 0x14 ∧ inst ≠ 0) ∨ (kind = 5 ∧ c.chState inst ≠ 2) then c
  else match c.recOf kind inst with
    | some r =>
      let c := c.recLast kind inst cause true
      if r.state = 3 then c.log 0 3 0x0202 inst (cause + 256 * kind) else c.recStop r cause
    | none =>
      let r : RecDom := ⟨kind, inst, cause, 2, c.mt, detail⟩
      let c := (c.raiseGlb F.GLB_STATUS.FAULT_PENDING).recLast kind inst cause false
      let c := c.log 0 2 0x0200 inst (cause + 256 * kind)
      if cause = 0x14 then ((c.chipFault detail).recLogEnd inst 0).recShow
      else
        let c := ((c.recBit F.GLB_REC_ACTIVE.V kind inst true).recGaps r).bathsEnded kind inst
        if (c.bathsOf kind inst 3 ++ c.bathsOf kind inst 4).isEmpty then c.recProceed r
        else ((c.setRec { r with state := 0 }).recContain { r with state := 0 }).recShow

/-- REC_GO: a recovery that waits under MANUAL continues (R594); its bound counts from here (R595). -/
def Chip.recoveryGo (c : Chip) (kind inst : Nat) : Chip :=
  match c.recOf kind inst with
  | some r => if r.state = 1 then c.recRun r else c
  | none => c

/-- A recovery ends: the domain's bit clears, and its unit serves again. -/
def Chip.recFinish (c : Chip) (r : RecDom) : Chip :=
  let c := (c.rmRec r).recBit F.GLB_REC_ACTIVE.V r.kind r.inst false
  ((c.recRestore r).recLogEnd r.inst (c.mt - r.start)).recShow

/-- RECOVERY_END: the steps are complete; a channel's re-centring may have failed, a second fault (R603). -/
def Chip.recoveryEnd (c : Chip) (kind inst : Nat) (ok : Bool) : Chip :=
  match c.recOf kind inst with
  | some r =>
    if r.state ≠ 2 then c
    else if kind = 5 ∧ !ok then ((c.releaseCh inst false).recLast kind inst r.cause true).recStop r r.cause
    else c.recFinish r
  | none => c

/-- RECOVERY_BOUND_EXPIRED: a second fault (R595). -/
def Chip.recoveryLate (c : Chip) (kind inst : Nat) : Chip :=
  match c.recOf kind inst with
  | some r => if r.state = 2 then (c.recLast kind inst r.cause true).recStop r r.cause else c
  | none => c

/-- The domains of a stop-bath's unit. -/
def Chip.recOfUnit (c : Chip) (unit inst : Nat) : List RecDom :=
  c.recov.filter (fun r => (c.bathUnits r.kind r.inst).contains (unit, inst))

/-- The restart of a unit runs the steps of its domains that are held stopped, and clears them (R606). -/
def Chip.recRestarted (c : Chip) (unit inst : Nat) : Chip :=
  ((c.recOfUnit unit inst).filter (fun r => r.state == 3)).foldl (fun c r =>
    let c := ((c.recSteps r).rmRec r).recBit F.GLB_REC_STOPPED.V r.kind r.inst false
    (c.recRestore r).recShow) c

/-- A stop-bath of the unit has completed: recoveries that waited for it proceed (R596). -/
def Chip.recAfterBath (c : Chip) (unit inst : Nat) : Chip :=
  ((c.recOfUnit unit inst).filter (fun r => r.state == 0)).foldl (fun c r =>
    if (c.bathsOf r.kind r.inst 3 ++ c.bathsOf r.kind r.inst 4).isEmpty then c.recProceed r else c) c

end Sys2Proof.Machine
end

