-- ==== Sys2Proof/Machine/PlateLoad.lean ====
section
/-! DEFINITION. The full load (R59 to R62): its nine steps, the load without a Plate, and what a load leaves. -/
namespace Sys2Proof.Machine
open Sys2Proof

/-! ### Step 4: DRAM (R361 to R363, R628) -/

/-- A channel of a training stack: trained, or FAILED. (log entry 47 DEDUCED.) -/
def Chip.loadTrain (c : Chip) (ch : Nat) (masks : List Nat) : Chip :=
  if c.chState ch ≠ 1 then c
  else
    let r := c.trainResult ch masks
    if r.1 then r.2.putF F.HBM_CH_STATUS.STATE 0 ch
    else ((r.2.putF F.HBM_CH_STATUS.STATE 4 ch).raise F.HBM_EVENTS.TRAIN_FAIL).log 17 3 0x0005 ch 0

/-- The DRAM initialised to 0 (R628); a load from the staging area keeps its image. -/
def Chip.zeroDram (c : Chip) (staged : Bool) : Chip :=
  { c with dram := if staged then c.dram.filter (fun (e : Host.Cell) =>
      decide (stageBase ≤ e.1) && decide (e.1 < stageBase + stageLen)) else [] }

/-- Step 4: the DRAM sections applied, all stacks trained and the DRAM initialised; whether every stack trained. `masks`: the
passing codes of the sweeps, by global channel. -/
def Chip.loadDram (c : Chip) (img : Bytes) (staged : Bool) (masks : List (List Nat)) : Bool × Chip :=
  let c := c.putF F.GLB_STATUS.DRAM_TRAINED 0
  let c := (List.range 6).foldl (fun c s => (c.applyDram s (payloadFor img 0x60 s)).trainStack s) c
  let c := (List.range 96).foldl (fun c ch => c.loadTrain ch (masks.getD ch [])) c
  let c := (List.range 6).foldl (fun c s => c.stackTrained s) c
  if (List.range 96).any (fun ch => c.chState ch == 4) then (false, c)
  else (true, (c.zeroDram staged).putF F.GLB_STATUS.DRAM_TRAINED 1)

/-! ### Step 6: the control stores (R327) -/

/-- The vendor patch checked and its records kept; a refused patch is logged. -/
def Chip.loadPatch (c : Chip) (img : Bytes) : Chip :=
  let c := { c with act := { c.act with patch := [] }, mgt := { c.mgt with patchRun := none } }
  match c.bootSlot 2 with
  | none => ((c.putF F.ACT_STORE_INFO.PATCH_STATE 0).putF F.ACT_STORE_INFO.PATCH_REASON 0).putF F.ACT_STORE_INFO.PATCH_RECORDS 0
  | some b =>
    let p := (c.slotOf 2 b).image
    let r := c.patchLoad p (leAt (payloadFor img 0x50 0) 0 4)
    let c := c.putF F.ACT_STORE_INFO.PATCH_REASON r.1
    if r.1 = 0 then
      let c := { c with act := { c.act with patch := r.2 }, mgt := { c.mgt with patchRun := some (b2n b) } }
      let c := (c.putF F.ACT_STORE_INFO.PATCH_STATE 1).putF F.ACT_STORE_INFO.PATCH_RECORDS r.2.length
      c.putQ F.ACT_PATCH_SERIAL.V (imgSerial 2 p)
    else
      let c := (c.putF F.ACT_STORE_INFO.PATCH_STATE 2).putF F.ACT_STORE_INFO.PATCH_RECORDS 0
      (c.putQ F.ACT_PATCH_SERIAL.V 0).log 14 2 0x0004 0 r.1

/-- Step 6. -/
def Chip.loadStores (c : Chip) (img : Bytes) : Chip :=
  let base := payloadFor img 0x50 0
  let c := (c.loadPatch img).putF F.ACT_BASE_ID.V (leAt base 0 4)
  (List.range 16).foldl (fun c k => (c.applyMicrocode k base).applyRoutines k (payloadFor img 0x51 k)) c

/-! ### Step 7: the other sections -/

/-- The initial entries become the entries of version 1 (R62, R180). -/
def Chip.firstVersion (c : Chip) : Chip :=
  let base (e : Nat × REntry) : Nat × REntry := (e.1, { e.2 with base := true })
  let c := { c with
    rules := { c.rules with entries := c.rules.entries.map base, latent := [], lists := [] }
    tern := { c.tern with entries := c.tern.entries.map base } }
  ((c.putF F.CLS_VERSION.CUR 1).putF F.CLS_VERSION.OLDEST 1).syncRules

/-- Rule tables and search. -/
def Chip.loadRules (c : Chip) (img : Bytes) : Chip :=
  let c := { c with
    rules := { c.rules with entries := [], latent := [], lists := [] }
    tern := { c.tern with entries := [] } }
  let c := (c.putF F.CLS_VERSION.CUR 0).putF F.CLS_VERSION.OLDEST 0
  let c := ((c.applySearch img).loadEntries img).2
  c.firstVersion.applyPattern (payloadFor img 0x32 0)

/-- The section of a scheduler tree is the port's own. -/
def ownTree (img : Bytes) (p : Nat) : Bool := (secsOf img 0x80).any (fun e => e.inst == p)

/-- Step 7: lane groups, port groups and parse programs, then the rest. (log entry 55 DESIGN CHOICE.) -/
def Chip.loadSections (c : Chip) (img : Bytes) : Chip :=
  let c := (List.range 128).foldl (fun c g =>
    (c.applyPortGroup g (payloadFor img 0x11 g)).applyLaneGroup g (payloadFor img 0x10 g)) c
  let c := (List.range 16).foldl (fun c s => c.applyParse s (payloadFor img 0x20 s)) c
  let c := c.loadRules img
  let c := (List.range 16).foldl (fun c k => c.applyEngineSet k (payloadFor img 0x41 k)) c
  let c := (c.applyTemplates (payloadFor img 0x42 0)).applyWork (payloadFor img 0x52 0)
  let c := c.applyBuffer (payloadFor img 0x70 0)
  let c := (List.range 512).foldl (fun c p => c.applySched p (payloadFor img 0x80 p) (ownTree img p)) c
  let c := ((c.applyTime (payloadFor img 0x90 0)).applyTelemetry (payloadFor img 0xA0 0)).tsSeed
  (c.applyGang (payloadFor img 0xC0 0)).applyManagement (payloadFor img 0xD0 0)

/-! ### Steps 8 and 9 -/

/-- Step 8: sites and lanes begin from their presets. -/
def Chip.loadBringUp (c : Chip) : Chip :=
  let c := (List.range 128).foldl (fun c m => if c.flag F.PRT_SITE_STATUS.PRESENT m then c.siteStart m else c) c
  (List.range 1032).foldl (fun c l => c.laneCheck l) c

/-- The registers of the current Plate. -/
def Chip.showCurrent (c : Chip) : Chip :=
  let img := c.plate.cur.getD []
  (c.putF F.PLT_CURRENT_ID.V (plId img)).putQ F.PLT_CURRENT_SERIAL.V (plSerial img)

/-- The registers of the pending Plate. -/
def Chip.showPending (c : Chip) : Chip :=
  let img := c.plate.pend.getD []
  (c.putF F.PLT_PENDING_ID.V (plId img)).putQ F.PLT_PENDING_SERIAL.V (plSerial img)

/-- A slot's GOOD flag (R58). -/
def Chip.setGood (c : Chip) (b v : Bool) : Chip :=
  if b then { c with flash := { c.flash with goodB := v } } else { c with flash := { c.flash with goodA := v } }

/-- A slot's GOOD flag reads. -/
def Chip.good (c : Chip) (b : Bool) : Bool := if b then c.flash.goodB else c.flash.goodA

/-- READY: its three conditions hold (R4). -/
def Chip.showReady (c : Chip) : Chip :=
  c.putF F.GLB_STATUS.READY (b2n (c.flag F.GLB_STATUS.DRAM_TRAINED && c.flag F.GLB_STATUS.PLATE_LOADED
    && c.flag F.GLB_STATUS.SAFELIGHT_ACTIVE))

/-- Step 9: the Plate is current. `origin`: 0 slot A, 1 slot B, 2 staging area. -/
def Chip.loadFinish (c : Chip) (img : Bytes) (origin : Nat) : Chip :=
  let c := { c with plate := { c.plate with cur := some img, mixed := [] } }
  let c := c.showCurrent.putF F.PLT_MIXED.V 0
  let c := if origin < 2 then c.setGood (origin == 1) true else c
  let c := if byteAt (payloadFor img 0x01 0) 12 = 1 then c.raiseFloor 0 (plSerial img) else c
  let c := c.putF F.PLT_SLOT_STATUS.LOADED_FROM origin
  let c := c.setObs fun c => c.putF F.SCH_OBS_CTRL.MODE 0
  let c := c.putF F.GLB_STATUS.WATCH_MODE (b2n c.watchMode)
  ((c.putF F.GLB_STATUS.PLATE_LOADED 1).showReady)

/-- Steps 3 to 9 with a Plate that has passed its checks; a failed training ends the load at step 4 (R363). -/
def Chip.loadPlate (c : Chip) (img : Bytes) (origin : Nat) (masks : List (List Nat)) : Chip :=
  let g := payloadFor img 0x01 0
  let c := ((c.putF F.PLT_SEED1.V (leAt g 0 4)).putF F.PLT_SEED2.V (leAt g 4 4)).putF F.PLT_DRAIN_LIMIT.V (or0 (leAt g 8 4) 1000)
  match c.loadDram img (origin == 2) masks with
  | (false, c) => c
  | (true, c) =>
    let c := (c.applyFlowTable (payloadFor img 0x40 0)).loadStores img
    let c := { c with power := { c.power with idleAll := c.power.unrec, bar0Gated := false } }
    ((c.loadSections img).loadBringUp).loadFinish img origin

/-! ### Step 2, and a start without a Plate (R59) -/

/-- A slot's Plate is read and checked; a failure is logged. -/
def Chip.tryPlate (c : Chip) (b : Bool) : Bool × Chip :=
  let c := c.putF F.PLT_LOAD_STATUS.ORIGIN (b2n b)
  match c.checkPlate (c.slotOf 0 b).image with
  | (true, c) => (true, c)
  | (false, c) => (false, c.log 17 2 0x0002 0 (c.rd F.PLT_LOAD_STATUS.all.base).toNat)

/-- The slots are tried in order: the first whose Plate passes. -/
def Chip.tryPlates : List Bool → Chip → Option Bool × Chip
  | [], c => (none, c)
  | b :: bs, c => match c.tryPlate b with
    | (true, c) => (some b, c)
    | (false, c) => Chip.tryPlates bs c

/-- No Plate: transmitters idle, the stacks trained with the defaults, the DRAM initialised. -/
def Chip.loadNone (c : Chip) (masks : List (List Nat)) : Chip :=
  (({ c with power := { c.power with idleAll := true } }).loadDram [] false masks).2

/-- FULL_LOAD: the load that a start owes. -/
def Chip.fullLoad (c : Chip) (masks : List (List Nat)) : Chip :=
  if !c.power.vin || !c.power.loadDue then c
  else
    let c := { c with power := { c.power with loadDue := false } }
    let c := if c.getF F.MGT_MP_STATUS.STATE = 1 then c.mpStart else c
    match Chip.tryPlates (c.activate1.bootOrder 0) c.activate1 with
    | (some b, c) => c.loadPlate (c.slotOf 0 b).image (b2n b) masks
    | (none, c) => c.loadNone masks

end Sys2Proof.Machine
end

