-- ==== Sys2Proof/Machine/Bath.lean ====
section
/-! DEFINITION. The PLT commands (R63, R64, R69) and the stop-bath sequence (R66 to R74). -/
namespace Sys2Proof.Machine
open Sys2Proof

/-! ### Entries -/

def Chip.sbPhase (c : Chip) (n : Nat) : Nat := c.getF F.PLT_SB_STATE.PHASE n
def Chip.sbUnit (c : Chip) (n : Nat) : Nat := c.getF F.PLT_SB_STATE.UNIT n
def Chip.sbInst (c : Chip) (n : Nat) : Nat := c.getF F.PLT_SB_STATE.INSTANCE n
def Chip.sbPend (c : Chip) (n : Nat) : Bool := c.flag F.PLT_SB_STATE.SOURCE n

/-- An entry with SOURCE 1 is in PHASE 1 to 4. -/
def Chip.pendBath (c : Chip) : Bool :=
  (List.range 8).any (fun n => c.sbPend n && decide (1 ≤ c.sbPhase n) && decide (c.sbPhase n ≤ 4))

/-- The Plate an entry's section comes from. -/
def Chip.sbImage (c : Chip) (n : Nat) : Bytes := (if c.sbPend n then c.plate.pend else c.plate.cur).getD []

/-- Instances of a unit code (R66); engine set 16 stands for all banks. -/
def unitCount (u : Nat) : Nat :=
  match u with | 0 => 128 | 1 => 128 | 2 => 16 | 3 => 17 | 4 => 16 | 5 => 512 | 6 => 32 | 7 => 96 | 8 => 48 | _ => 0

/-- One direction of the overlaps of R67. -/
def overlapsTo (u i v j : Nat) : Bool :=
  match u with
  | 0 => (v == 1 && j == i) || (v == 2 && j == i / 8)
  | 1 => (v == 2 && j == i / 8) || (v == 5 && j / 4 == i)
  | 3 => v == 3 && i == 16
  | _ => false

/-- Two units overlap (R67). -/
def unitsOverlap (u i v j : Nat) : Bool := (u == v && i == j) || overlapsTo u i v j || overlapsTo v j u i

/-! ### Acceptance (R67, R68, R581) -/

/-- A load-only section of the pending Plate differs from the current Plate's (R68). -/
def loadOnlyDiffers (cur pend : Bytes) : Bool :=
  [0x01, 0x31, 0x32, 0x40, 0x52, 0x90, 0xA0, 0xB0, 0xC0, 0xD0].any (fun t => payloadFor cur t 0 != payloadFor pend t 0)

/-- An entry of a region is live in a live version (R175, R183). -/
def Chip.regionLive (c : Chip) (r : Nat) : Bool :=
  let vs := (List.range c.liveCount).map (fun i => (c.oldV + i) % 2 ^ 16)
  let es := if c.rKind r = 6 then c.tEntries (byteAt (c.rSource r) 0) else c.regionEntries r
  es.any (fun (e : Nat × REntry) => c.stagedAdd e.2 || vs.any (fun v => c.visible e.2 v))

/-- The policy forbids the stop (R581). (log entry 48 DEDUCED.) -/
def Chip.bathDenied (c : Chip) (unit inst : Nat) (source : Bool) : Bool :=
  !c.polBit 0x248 unit
    && !(!source && (c.recOfUnit unit inst).any (fun r => r.state == 3))
    && !(unit == 4 && bitOf inst (c.getF F.SFL_STATUS.FROZEN))

/-- BUSY of R67. -/
def Chip.bathBusy (c : Chip) (unit inst : Nat) : Bool :=
  (List.range 8).all (fun n => c.sbPhase n != 0)
    || (List.range 8).any (fun n => decide (1 ≤ c.sbPhase n) && decide (c.sbPhase n ≤ 4) && unitsOverlap unit inst (c.sbUnit n) (c.sbInst n))
    || (c.recOfUnit unit inst).any (fun r => decide (r.state < 3))
    || (unit == 6 && c.regionLive inst)

/-! ### Drain (R70) -/

/-- A frame partly received at a port is dropped with STOPBATH; `disc`: what the rest of it meets. (log entry 51 DEDUCED.) -/
def Chip.bathCut (c : Chip) (p disc : Nat) : Chip :=
  let ps := c.portSt p
  match ps.arriving with
  | none => c
  | some pid => match c.pkt pid with
    | none => c
    | some x =>
      if x.copies.isEmpty && x.stage != .gone then
        (c.setPort p { ps with
          arriving := none
          discard := disc
          elastic := ps.elastic.filter (· != pid) }).dropTm pid 0xC
      else c.cutArriving p disc

/-- The packets waiting in a queue are dropped with STOPBATH. -/
def Chip.queueDropped (c : Chip) (q : Nat) : Chip :=
  (c.queue q).foldl (fun c (e : Nat × Nat) =>
    match c.pkt e.1 with
    | none => c
    | some p => match p.copies.find? (fun (k : Copy) => k.cid == e.2) with
      | some k => c.dropCopy e.1 k 0xC
      | none => c) c

/-- The flows of a removed flow queue are demoted (R407): the binding goes to DRAINING, and its class queue takes a mark. -/
def Chip.queueDemoted (c : Chip) (q : Nat) : Chip :=
  match smFind c.tm.bindings q with
  | none => c
  | some b =>
    let cq := c.classQueue b.port b.cls
    let m := match smFind c.tm.marks cq with
      | some m => { m with waits := if m.waits.contains q then m.waits else m.waits ++ [q] }
      | none => ⟨(c.queue cq).length, [q]⟩
    { c with tm := { c.tm with
      bindings := smPut c.tm.bindings q { b with state := 3 }
      marks := smPut c.tm.marks cq m } }

/-- The queues of a port that a new pool does not hold in the same role. -/
def Chip.queuesRemoved (c : Chip) (p : Nat) (pool : Nat × Nat) : List Nat :=
  let base := c.getF F.SCH_PORT_POOL.QBASE p
  (if base = pool.1 then [] else (List.range 16).map (c.classQueue p))
    ++ (c.flowQueues p).filter (fun q => !(decide (pool.1 + 16 ≤ q) && decide (q < pool.1 + pool.2)))

/-- Queues removed: their flows demoted and their packets dropped. -/
def Chip.dropQueues (c : Chip) (l : List Nat) : Chip :=
  (l.foldl (fun c q => c.queueDropped q) (l.foldl (fun c q => c.queueDemoted q) c)).settleBindings

/-- The pool a Plate gives a port. -/
def Chip.newPool (_ : Chip) (img : Bytes) (p : Nat) : Nat × Nat := schedPool (payloadFor img 0x80 p) (ownTree img p) p

/-- Ports of a group that are present and that a Plate does not have. -/
def Chip.portsRemoved (c : Chip) (img : Bytes) (g : Nat) : List Nat :=
  ((List.range 4).map (4 * g + ·)).filter (fun p => c.portPresent p && !portIn img p)

/-- The packets of a slice that its pipes still work on. -/
def Pkt.inPipes (p : Pkt) : Bool :=
  match p.stage with
  | .elastic | .mac | .admitted | .residue | .gone => false
  | _ => true

/-- What the start of the drain does to the unit. -/
def Chip.drainUnit (c : Chip) (n : Nat) : Chip :=
  let i := c.sbInst n
  let lanes := (List.range 8).map (8 * i + ·)
  let ports := (List.range 4).map (4 * i + ·)
  match c.sbUnit n with
  | 0 => ports.foldl (fun c p => c.portEval p) (lanes.foldl (fun c l => c.laneCheck l) c)
  | 1 =>
    let c := ports.foldl (fun c p => c.bathCut p 0) c
    let c := (c.portsRemoved (c.sbImage n) i).foldl (fun c p =>
      ((List.range 16).map (c.classQueue p) ++ c.flowQueues p).foldl (fun c q => c.queueDropped q) c) c
    let c := if c.flag F.PRT_SITE_CTRL.AUTO i && c.sstate i == ssActive then c.siteGo i ssReady else c
    ports.foldl (fun c p => c.portCheck p) (lanes.foldl (fun c l => c.laneCheck l) c)
  | 2 => (List.range 32).foldl (fun c k =>
      let p := 32 * i + k
      match (c.portSt p).arriving with
      | some pid => (match c.pkt pid with
        | some x => if x.stage == .mac || x.stage == .elastic then c.bathCut p 4 else c
        | none => c)
      | none => c) c
  | 5 => c.dropQueues (c.queuesRemoved i (c.newPool (c.sbImage n) i))
  | 7 => if c.chState i = 2 then c.failQueue i
    else ((((c.failQueue i).setPd (2 * i) false).setPd (2 * i + 1) false).putF F.HBM_CH_STATUS.STATE 3 i).condEv 7 i 7 false
  | 8 => c.bankEmptied i
  | _ => c

/-- The drain phase of an entry begins. -/
def Chip.startDrain (c : Chip) (n : Nat) (late : Bool) : Chip :=
  let c := (c.putQ F.PLT_SB_TIME.V c.dtw n).putF F.PLT_SB_STATE.PHASE 2 n
  let c := { c with
    plate := { c.plate with bathLate := if late then c.plate.bathLate ++ [n] else c.plate.bathLate }
    time := { c.time with late := c.time.late.filter (· != PendAct.bath n) } }
  c.drainUnit n

/-- Engines of an engine-set instance. (log entry 53 DEDUCED.) -/
def setEngines (k : Nat) : List Nat := if k = 16 then List.range 128 else (List.range 8).map (8 * k + ·)

/-- The unit of an entry holds no work (R70). -/
def Chip.drained (c : Chip) (n : Nat) : Bool :=
  let i := c.sbInst n
  match c.sbUnit n with
  | 2 => !c.pkts.any (fun (e : Nat × Pkt) => e.2.slice == i && e.2.inPipes)
      && (List.range 32).all (fun k => (c.portSt (32 * i + k)).txBusy.isNone)
  | 3 => (setEngines i).all (fun e =>
      let s := c.eng e
      s.input.isEmpty && s.station.isEmpty && s.lookups.isEmpty && s.setups.isEmpty && s.helds.isEmpty && s.preps.isEmpty
        && !c.act.reqs.any (fun (o : FOp) => decide (o.kind ≤ 3) && hEngine o.h1 == e))
  | 4 => (clusterCtxs i).all (fun x => (c.ctx x).st == 0)
  | 5 => (c.portSt i).txBusy.isNone
  | _ => true

/-- STOP_BATH_DRAINED: the entry enters its stopped phase; an engine set writes its cache back. (log entry 51 DEDUCED.) -/
def Chip.bathDrained (c : Chip) (n : Nat) : Chip :=
  if c.sbPhase n ≠ 2 ∨ c.drained n = false then c
  else
    let c := c.putF F.PLT_SB_STATE.PHASE 3 n
    if c.sbUnit n = 3 then (setEngines (c.sbInst n)).foldl (fun c e => c.writeBackAll e) c else c

/-! ### The section applied (R66, R72) -/

/-- The meters of an engine restart full or empty as their RESET bit says. -/
def Chip.metersRestart (c : Chip) (e : Nat) : Chip :=
  let now := c.mt32
  let put (ms : SMap Bytes) (m : Nat × Bytes) : SMap Bytes := smSet (fun _ => zerosB 48) ms m.1 (meterWrite m.2 now)
  let ms := c.flow.meters
  { c with flow := { c.flow with meters := (ms.filter (fun (m : Nat × Bytes) => m.1 / 4096 == e)).foldl put ms } }

/-- An engine at first use: every way empty. -/
def Chip.engineFirst (c : Chip) (e : Nat) : Chip := (c.onEng e fun s => { s with ways := [] }).metersRestart e

/-- A cluster's store and its contexts at first use. -/
def Chip.clusterFirst (c : Chip) (img : Bytes) (k : Nat) : Chip :=
  let c := (c.applyMicrocode k (payloadFor img 0x50 0)).applyRoutines k (payloadFor img 0x51 k)
  (smKeys c.act.ctxs).foldl (fun c x => if x / 64 = k then c.onCtx x fun v => { Ctx.init with gen := v.gen } else c) c

/-- A scheduler tree with its section: kept flow queues keep their binding and its settings, DEF 0, and tokens as RESET says. -/
def Chip.treeFirst (c : Chip) (img : Bytes) (p : Nat) : Chip :=
  let pool := c.newPool img p
  let c := c.dropQueues (c.queuesRemoved p pool)
  let lo := 0x1000000 + 64 * c.getF F.SCH_PORT_POOL.QBASE p
  let hi := lo + 64 * c.getF F.SCH_PORT_POOL.QCOUNT p
  let kept := smKeys (c.tm.bindings.filter (fun (e : Nat × Binding) => e.2.port == p))
  let words := c.regs.filter (fun (e : Nat × Word) => decide (0x1000000 ≤ e.1) && kept.contains ((e.1 - 0x1000000) / 64) && decide (e.1 % 64 < 0x10))
  let c := { c with regs := c.regs.filter (fun (e : Nat × Word) => !(decide (lo ≤ e.1) && decide (e.1 < hi))) }
  let c := c.applySched p (payloadFor img 0x80 p) (ownTree img p)
  let c := words.foldl (fun c (e : Nat × Word) => c.wr e.1 e.2) c
  let c := (List.range 16).foldl (fun c k => c.setClsDef p k 0) c
  (kept.foldl (fun c q => c.shaperReset 0 q) c).gateShow p

/-- A region with its section, empty; what named its entries goes. -/
def Chip.regionFirst (c : Chip) (img : Bytes) (r : Nat) : Chip :=
  let prof := if c.rKind r = 6 then some (byteAt (c.rSource r) 0) else none
  let c : Chip := match prof with
    | some q => (c.tEntries q).foldl (fun (c : Chip) (e : Nat × REntry) => c.tFree (tKey q e.1)) c
    | none => (c.regionEntries r).foldl (fun (c : Chip) (e : Nat × REntry) => c.freeEntry (placeKey r e.1)) c
  let keep (x : Change) : Bool := match prof with
    | some q => !(x.tern && x.place / 2 ^ 18 == q)
    | none => x.tern || x.place / 2 ^ 22 != r
  let c := { c with rules := { c.rules with
    latent := c.rules.latent.filter keep
    lists := c.rules.lists.map (fun (l : Nat × List Change) => (l.1, l.2.filter keep)) } }
  (c.applyRegionHdr r (payloadFor img 0x30 r)).syncRules

/-- A stack's section reapplied; the rate changes by the steps of R365. -/
def Chip.dramAgain (c : Chip) (img : Bytes) (ch : Nat) : Chip :=
  let s := ch / 16
  let rate := c.getF F.HBM_STK_STATUS.RATE_CUR s
  let c := (c.applyDram s (payloadFor img 0x60 s)).putF F.HBM_STK_STATUS.RATE_CUR rate s
  c.rateChange s (c.getF F.HBM_STK_CTRL.RATE s)

/-- The buffer's section reapplied; what is in use stays counted. -/
def Chip.bufferAgain (c : Chip) (img : Bytes) : Chip :=
  let free := c.getF F.TMG_FREE.V
  let least := c.getF F.TMG_FREE_MIN.V
  ((c.applyBuffer (payloadFor img 0x70 0)).putF F.TMG_FREE.V free).putF F.TMG_FREE_MIN.V least

/-- The section of an entry's unit, from first-use state. -/
def Chip.applyUnit (c : Chip) (n : Nat) : Chip :=
  let i := c.sbInst n
  let img := c.sbImage n
  match c.sbUnit n with
  | 0 => c.applyLaneGroup i (payloadFor img 0x10 i)
  | 1 =>
    let old := c.getF F.PRT_SITE_CTRL.all i
    ((c.applyPortGroup i (payloadFor img 0x11 i)).applyLaneGroup i (payloadFor img 0x10 i)).siteCtrl i old
  | 2 => c.applyParse i (payloadFor img 0x20 i)
  | 3 =>
    let c := (setEngines i).foldl (fun c e => c.engineFirst e) c
    if i = 16 then ((List.range 16).foldl (fun c k => c.applyEngineSet k (payloadFor img 0x41 k)) c).applyTemplates (payloadFor img 0x42 0)
    else c.applyEngineSet i (payloadFor img 0x41 i)
  | 4 => c.clusterFirst img i
  | 5 => c.treeFirst img i
  | 6 => c.regionFirst img i
  | 7 => c.dramAgain img i
  | _ => c.bufferAgain img

/-- STOP_BATH_APPLIED: the section's load completes, and the restarting phase begins. (log entry 50 DEDUCED.) -/
def Chip.bathApplied (c : Chip) (n : Nat) : Chip :=
  if c.sbPhase n ≠ 3 then c else (c.applyUnit n).putF F.PLT_SB_STATE.PHASE 4 n

/-! ### Restart and end (R69, R71, R72) -/

/-- The unit instances that run a pending section follow an entry that ends. (log entries 50 DEDUCED, 53 DEDUCED.) -/
def Chip.bathMixed (c : Chip) (n : Nat) : Chip :=
  let u := (c.sbUnit n, c.sbInst n)
  let rest := c.plate.mixed.filter (fun (x : Nat × Nat) => x != u && !(u.1 == 3 && u.2 == 16 && x.1 == 3))
  let l := if c.sbPend n then rest ++ [u] else rest
  { (c.putF F.PLT_MIXED.V l.length) with plate := { c.plate with mixed := l } }

/-- The channel trained at the restart of its stop-bath (R607); whether it passed. (log entry 52 DEDUCED.) -/
def Chip.bathTrain (c : Chip) (ch : Nat) (masks : List Nat) : Bool × Chip :=
  let r := c.trainResult ch masks
  if r.1 then
    let c := r.2.repairCh ch
    let c := if c.chState ch = 2 then c else (c.putF F.HBM_CH_STATUS.STATE 2 ch).bump F.HBM_STATUS.FROZEN
    (true, c.releaseCh ch true)
  else
    let c := r.2.raise F.HBM_EVENTS.TRAIN_FAIL
    (false, if c.chState ch = 2 then c.putF F.HBM_CH_CAP3.TYPE 5 ch else c.freeze ch 5 0 0 0)

/-- A unit resumes work; `done`: its stop-bath was not cut short. -/
def Chip.resumeUnit (c : Chip) (u i : Nat) (done : Bool) (img : Bytes) : Chip :=
  let ports := (List.range 4).map (4 * i + ·)
  match u with
  | 0 => ports.foldl (fun c p => c.portCheck p) ((List.range 8).foldl (fun c k => c.laneCheck (8 * i + k)) c)
  | 1 => ports.foldl (fun c p => c.portCheck p) ((List.range 8).foldl (fun c k => c.laneCheck (8 * i + k)) c)
  | 4 => if done then c.putF F.SFL_STATUS.FROZEN (setBitsOf i i (c.getF F.SFL_STATUS.FROZEN) 0) else c
  | 6 => if !done then c
    else if c.rKind i = 6 then (c.stageProfile (payloadFor img 0x31 0) (byteAt (c.rSource i) 0)).2.syncRules
    else (c.stageRegion i (payloadFor img 0x30 i)).2.syncRules
  | 8 => c.bankBack i
  | _ => c

/-- An entry ends with a status: the unit serves again, its domains held stopped are restarted, and recoveries that waited for
it proceed. -/
def Chip.bathEnd (c : Chip) (n st : Nat) (done ok : Bool) : Chip :=
  let u := c.sbUnit n
  let i := c.sbInst n
  let img := c.sbImage n
  let c := (c.putF F.PLT_SB_STATE.PHASE 5 n).putF F.PLT_SB_STATE.STATUS st n
  let c := { c with plate := { c.plate with bathLate := c.plate.bathLate.filter (· != n) } }
  let c := c.resumeUnit u i done img
  if ok then (c.recRestarted u i).recAfterBath u i else c

/-- STOP_BATH_RESTARTED; `masks`: the sweeps of a channel's training. -/
def Chip.bathRestarted (c : Chip) (n : Nat) (masks : List Nat) : Chip :=
  if c.sbPhase n ≠ 4 then c
  else
    let st := if c.plate.bathLate.contains n then stLate else stOk
    let r : Bool × Chip := if c.sbUnit n = 7 then c.bathTrain (c.sbInst n) masks else (true, c)
    ((r.2.bathMixed n).bathEnd n st true r.1)

/-- DRAIN_TIMEOUT (R71): a drain that is not complete is given up, and the unit runs on with its section unchanged.
(log entry 50 DEDUCED.) -/
def Chip.drainTimeout (c : Chip) (n : Nat) : Chip :=
  if c.sbPhase n ≠ 2 ∨ c.drained n = true then c else c.bathEnd n stTimeout false true

/-! ### STOP_BATH (R67, R68, R73) -/

/-- The refusals of R67 before BUSY, in order: status and, for R68, a REASON to report. -/
def Chip.bathInvalid (c : Chip) (unit inst : Nat) (source timed : Bool) : Bool :=
  decide (unitCount unit ≤ inst) || (source && (c.plate.pend.isNone || unit == 7 || unit == 8)) || (timed && !c.timeValid)

/-- The entry that an accepted stop-bath takes. -/
def Chip.freeBath (c : Chip) : Nat := ((List.range 8).find? (fun n => c.sbPhase n == 0)).getD 0

/-- An accepted stop-bath: scheduled at `t`, or draining at once. (log entry 27 DEDUCED.) -/
def Chip.bathTake (c : Chip) (unit inst : Nat) (source : Bool) (cls : Option TimeClass) (t : Nat) : Chip :=
  let n := c.freeBath
  let c := c.putF F.PLT_CMD_STATUS.ENTRY n
  let c := c.putF F.PLT_SB_STATE.all (inst * 2 ^ 16 + unit * 2 ^ 12 + b2n source * 2 ^ 11) n
  match cls with
  | some .ahead => ((c.putQ F.PLT_SB_TIME.V t n).putF F.PLT_SB_STATE.PHASE 1 n).finish portPlt stOk
  | some .late => (c.startDrain n true).finish portPlt stLate
  | _ => (c.startDrain n false).finish portPlt stOk

/-- STOP_BATH. (log entries 48 DEDUCED, 49 DEDUCED.) -/
def Chip.stopBath (c : Chip) (unit inst : Nat) (source timed : Bool) : Chip := c.command portPlt fun c =>
  let t := c.getQ F.PLT_CMD_TIME.V
  let cls := if timed then some (c.timeClass t) else none
  if c.bathInvalid unit inst source timed then c.finish portPlt stInvalid
  else if source && loadOnlyDiffers (c.plate.cur.getD []) (c.plate.pend.getD []) then
    (c.loadStatus (0x0E, 0xFFF)).finish portPlt stInvalid
  else if c.bathDenied unit inst source then (c.deniedCapture 0 0x10000 0).finish portPlt stDenied
  else if cls = some .past then c.finish portPlt stPast
  else if cls = some .far then c.finish portPlt stFar
  else if c.bathBusy unit inst then c.finish portPlt stBusy
  else c.bathTake unit inst source cls t

/-- STOP_BATH_START: a scheduled entry's time has come, or a STEP has passed it. -/
def Chip.bathStart (c : Chip) (n : Nat) : Chip :=
  if c.sbPhase n ≠ 1 then c
  else if c.time.late.contains (PendAct.bath n) then c.startDrain n true
  else if c.due (c.getQ F.PLT_SB_TIME.V n) then c.startDrain n false
  else c

/-- CANCEL. -/
def Chip.cancelBath (c : Chip) (n : Nat) : Chip := c.command portPlt fun c =>
  if c.sbPhase n ≠ 1 then c.finish portPlt stInvalid
  else
    let c := { c with time := { c.time with late := c.time.late.filter (· != PendAct.bath n) } }
    ((c.putF F.PLT_SB_STATE.all 0 n).putQ F.PLT_SB_TIME.V 0 n).finish portPlt stOk

/-- A read of PLT_SB_STATE: a finished entry becomes free. (log entry 50 DEDUCED.) -/
def Chip.sbRead (c : Chip) (n : Nat) : Chip :=
  let c := { c with rdData := BitVec.ofNat 64 (c.getF F.PLT_SB_STATE.all n) }
  if c.sbPhase n = 5 then c.putF F.PLT_SB_STATE.all 0 n else c

/-! ### The other PLT commands (R63, R64) -/

/-- The image in the staging area. -/
def Chip.stagedImage (c : Chip) : Bytes := c.dramRead stageBase (c.getF F.PLT_SRC_LEN.V)

/-- PLT_SRC_LEN or the DRAM rules a staged image out. -/
def Chip.stagedBad (c : Chip) : Bool :=
  c.getF F.PLT_SRC_LEN.V == 0 || decide (0x0C000000 < c.getF F.PLT_SRC_LEN.V) || !c.flag F.GLB_STATUS.DRAM_TRAINED

/-- VERIFY. -/
def Chip.verify (c : Chip) : Chip := c.command portPlt fun c =>
  if c.stagedBad then c.finish portPlt stInvalid
  else
    let img := c.stagedImage
    match c.checkPlate img with
    | (false, c) => c.finish portPlt stInvalid
    | (true, c) =>
      if !c.plate.mixed.isEmpty || c.pendBath then c.finish portPlt stBusy
      else (({ c with plate := { c.plate with pend := some (img.take (plTotal img)) } }).showPending).finish portPlt stOk

/-- WRITE_SLOT refused under R58. -/
def Chip.slotKept (c : Chip) (b : Bool) : Bool := c.good b && !c.good (!b)

/-- WRITE_SLOT: the write runs until FLASH_SLOT_WRITE_DONE. -/
def Chip.writeSlot (c : Chip) (b : Bool) : Chip := c.command portPlt fun c =>
  match c.plate.pend with
  | none => c.finish portPlt stInvalid
  | some img =>
    if c.slotKept b then c.finish portPlt stInvalid
    else { (c.putF F.PLT_CMD_STATUS.RUNNING 1) with plate := { c.plate with slotWrite := some (b, img) } }

/-- FLASH_SLOT_WRITE_DONE of a WRITE_SLOT: read back, or not after 3 attempts. (log entry 62 DEDUCED.) -/
def Chip.slotWritten (c : Chip) (ok : Bool) : Chip :=
  match c.plate.slotWrite with
  | none => c
  | some (b, img) =>
    let c := { c with plate := { c.plate with slotWrite := none } }
    let c := (c.setSlot 0 b (if ok then ⟨1, img⟩ else Slot.empty)).setGood b false
    c.finish portPlt (if ok then stOk else stTimeout)

/-- SELECT_BOOT. -/
def Chip.selectBoot (c : Chip) (b : Bool) : Chip := c.command portPlt fun c =>
  if (c.slotOf 0 b).state = 0 then c.finish portPlt stInvalid else (c.selectSlot 0 b).finish portPlt stOk

/-- ADOPT (R69, R60). (log entry 53 DEDUCED.) -/
def Chip.adopt (c : Chip) (raise : Bool) : Chip := c.command portPlt fun c =>
  match c.plate.pend with
  | none => c.finish portPlt stInvalid
  | some img =>
    if c.pendBath then c.finish portPlt stBusy
    else
      let c := { c with plate := { c.plate with cur := some img, mixed := [] } }
      let c := (c.showCurrent.putF F.PLT_MIXED.V 0).putF F.ACT_BASE_ID.V (leAt (payloadFor img 0x50 0) 0 4)
      (if raise then c.raiseFloor 0 (plSerial img) else c).finish portPlt stOk

/-- ABANDON. -/
def Chip.abandonPlate (c : Chip) : Chip := c.command portPlt fun c =>
  if c.plate.pend.isNone then c.finish portPlt stInvalid
  else if !c.plate.mixed.isEmpty || c.pendBath then c.finish portPlt stBusy
  else (({ c with plate := { c.plate with pend := none } }).showPending).finish portPlt stOk

/-- LOAD_STAGED: a full load from the staging area. A training that fails ends it without a Plate. (log entry 47 DEDUCED.) -/
def Chip.loadStaged (c : Chip) (masks : List (List Nat)) : Chip := c.command portPlt fun c =>
  if c.flag F.GLB_STATUS.PLATE_LOADED || c.stagedBad then c.finish portPlt stInvalid
  else
    let img := c.stagedImage
    match (c.putF F.PLT_LOAD_STATUS.ORIGIN 2).checkPlate img with
    | (false, c) => c.finish portPlt stInvalid
    | (true, c) =>
      let c := c.loadPlate (img.take (plTotal img)) 2 masks
      if c.flag F.GLB_STATUS.PLATE_LOADED then c.finish portPlt stOk else c.putF F.PLT_CMD_STATUS.RUNNING 1

end Sys2Proof.Machine
end

