-- ==== Sys2Proof/Machine/PlateExec.lean ====
section
/-! DEFINITION. The meanings of the Plate commands and events: the full load, the PLT commands and the stop-bath sequence. -/
namespace Sys2Proof.Machine
open Sys2Proof

/-- FULL_LOAD (R61): the load that a start owes. `masks`: by global channel, the passing codes of its 16 training sweeps. -/
def execFullLoad (masks : List (List Nat)) (s : State) : Out := s.on (·.fullLoad masks)
/-- VERIFY (R63, R64). -/
def execVerify (s : State) : Out := s.on Chip.verify
/-- WRITE_SLOT (R63, R64): false slot A, true slot B. -/
def execWriteSlot (slot : Bool) (s : State) : Out := s.on (·.writeSlot slot)
/-- SELECT_BOOT (R63, R64). -/
def execSelectBoot (slot : Bool) (s : State) : Out := s.on (·.selectBoot slot)
/-- STOP_BATH (R67): UNIT, INSTANCE, SOURCE and TIMED of PLT_CMD. -/
def execStopBath (unit : Fin 16) (inst : Fin 512) (source timed : Bool) (s : State) : Out :=
  s.on fun c => (c.stopBath unit.val inst.val source timed).flush
/-- ADOPT (R69). -/
def execAdopt (raise : Bool) (s : State) : Out := s.on (·.adopt raise)
/-- ABANDON of the pending Plate (R63). -/
def execAbandon (s : State) : Out := s.on Chip.abandonPlate
/-- LOAD_STAGED (R63, R61). -/
def execLoadStaged (masks : List (List Nat)) (s : State) : Out := s.on (·.loadStaged masks)
/-- CANCEL of a scheduled stop-bath (R73). -/
def execCancel (entry : Fin 8) (s : State) : Out := s.on (·.cancelBath entry.val)
/-- STOP_BATH_START (R73). -/
def execStopBathStart (entry : Fin 8) (s : State) : Out := s.on fun c => (c.bathStart entry.val).flush
/-- STOP_BATH_DRAINED (R70). -/
def execStopBathDrained (entry : Fin 8) (s : State) : Out := s.on fun c => (c.bathDrained entry.val).flush
/-- STOP_BATH_APPLIED (R72). -/
def execStopBathApplied (entry : Fin 8) (s : State) : Out := s.on fun c => (c.bathApplied entry.val).flush
/-- STOP_BATH_RESTARTED (R72); `masks`: the training sweeps of a memory channel. -/
def execStopBathRestarted (entry : Fin 8) (masks : List Nat) (s : State) : Out :=
  s.on fun c => (c.bathRestarted entry.val masks).flush
/-- DRAIN_TIMEOUT (R71). -/
def execDrainTimeout (entry : Fin 8) (s : State) : Out := s.on fun c => (c.drainTimeout entry.val).flush
/-- SB_STATE_READ (R65). -/
def execSbStateRead (entry : Fin 8) (s : State) : Out := s.on (·.sbRead entry.val)
/-- FLASH_SLOT_WRITE_DONE (R57, R64, R560): of WRITE_SLOT, or of UPDATE_WRITE; `ok`: the readback verified. -/
def execFlashSlotWriteDone (plate ok : Bool) (s : State) : Out :=
  s.on fun c => if plate then c.slotWritten ok else c.updateWritten ok

end Sys2Proof.Machine
end

