-- ==== Sys2Proof/Machine/PortExec.lean ====
section
/-! DEFINITION. Commands of the ports. -/
namespace Sys2Proof.Machine
open Sys2Proof

/-! ### Ports over lanes (R108, R109, R112) -/

/-- PORT_GIVEUP (R108): PRT_GIVEUP seconds have passed since the first lane left PIN_TEST. -/
def execPortGiveup (port : Fin 512) (s : State) : Out := s.on (·.portGiveup port.val)
/-- REFORM (R109). -/
def execReform (port : Fin 512) (s : State) : Out := s.on (·.reform port.val)
/-- LPI_ENTER (R112). -/
def execLpiEnter (port : Fin 512) (s : State) : Out := s.on (·.lpiEnter port.val)
/-- LPI_EXIT (R112). -/
def execLpiExit (port : Fin 512) (s : State) : Out := s.on (·.lpiExit port.val)
/-- LPI_WAKE_DONE (R112). -/
def execLpiWakeDone (port : Fin 512) (s : State) : Out := s.on (·.lpiDone port.val)

/-! ### Frames (R113 to R125) -/

/-- FRAME_HEAD (R115): `head` are the frame's first bytes, at least 16. -/
def execFrameHead (port : Fin 512) (head : Bytes) (s : State) : Out := s.on (·.frameHead port.val head)
/-- FRAME_CELL_WRITE_START (R389). -/
def execFrameCellWriteStart (port : Fin 512) (s : State) : Out := s.on (·.cellStart port.val)
/-- FRAME_TO_PIPE (R116): `first` are the first 256 bytes of a frame whose tail has not arrived, and `len` its length. -/
def execFrameToPipe (pid : Nat) (first : Bytes) (len : Nat) (s : State) : Out := s.on (·.toPipe pid first len)
/-- FRAME_TAIL (R116): `fr` is the whole frame with its FCS; `err`: it held an error code-group or an uncorrectable codeword. -/
def execFrameTail (port : Fin 512) (fr : Bytes) (err : Bool) (s : State) : Out := s.on (·.frameTail port.val fr err)
/-- MAXFRAME_EXCEEDED (R124): `bytes` are those that have arrived. -/
def execMaxframeExceeded (port : Fin 512) (bytes : Bytes) (s : State) : Out := s.on (·.maxExceeded port.val bytes)
/-- PAUSE_FRAME (R114): a good PAUSE frame, without FCS. -/
def execPauseFrame (port : Fin 512) (fr : Bytes) (s : State) : Out := s.on (·.macFrame port.val 1 fr)
/-- PFC_FRAME (R114): a good PFC frame, without FCS. -/
def execPfcFrame (port : Fin 512) (fr : Bytes) (s : State) : Out := s.on (·.macFrame port.val 0x101 fr)
/-- PAUSE_EXPIRY (R114). -/
def execPauseExpiry (port : Fin 512) (cls : Fin 16) (s : State) : Out := s.on (·.setPause port.val [cls.val] 0)
/-- CVU_RUN_WRITE (R122): direction 0 receive, 1 transmit. -/
def execCvuRunWrite (port : Fin 512) (dir : Fin 2) (v : Word) (s : State) : Out :=
  s.on (·.cvuRunWrite port.val dir.val v.toNat)

end Sys2Proof.Machine
end

