-- ==== Sys2Proof/Machine/RecovExec.lean ====
section
/-! DEFINITION. The commands of recovery domains (R590 to R610). -/
namespace Sys2Proof.Machine
open Sys2Proof

/-- RECOVERY_START (R594, R597): a fault of a cause is detected in a domain. -/
def execRecoveryStart (kind : Fin 8) (inst : Fin 1024) (cause : Fin 256) (detail : List Nat) (s : State) : Out :=
  s.on (·.recoveryStart kind.val inst.val cause.val detail)
/-- REC_GO (R594): a write of GLB_REC_GO with GO. -/
def execRecGo (kind : Fin 8) (inst : Fin 1024) (s : State) : Out := s.on (·.recoveryGo kind.val inst.val)
/-- RECOVERY_END (R594). -/
def execRecoveryEnd (kind : Fin 8) (inst : Fin 1024) (ok : Bool) (s : State) : Out :=
  s.on (·.recoveryEnd kind.val inst.val ok)
/-- RECOVERY_BOUND_EXPIRED (R595). -/
def execRecoveryBoundExpired (kind : Fin 8) (inst : Fin 1024) (s : State) : Out := s.on (·.recoveryLate kind.val inst.val)

end Sys2Proof.Machine
end

