-- ==== Sys2Proof/Machine/RegWrite.lean ====
section
/-! DEFINITION. Writing a BAR0 register by its access codes (R9, R12, R13), with the bounds and the conditions its table states. -/
namespace Sys2Proof.Machine
open Sys2Proof

/-! ### The register an address names (R8) -/

/-- Instance (i, j) and word of a register array at an address. -/
def RegRow.hit (r : RegRow) (a : Nat) : Option (Nat × Nat × Nat) :=
  if a < r.base then none
  else
    let i := if r.s1 = 0 then 0 else min ((a - r.base) / r.s1) (r.n1 - 1)
    let d := a - r.base - i * r.s1
    let j := if r.s2 = 0 then 0 else min (d / r.s2) (r.n2 - 1)
    let d := d - j * r.s2
    if d % 4 = 0 ∧ d / 4 < r.words then some (i, j, d / 4) else none

/-- The register that holds an address; an address without one is reserved. -/
def findReg (a : Nat) : Option RegRow := regRows.find? (fun r => (r.hit a).isSome)

/-- A register with the instance and the word at an address. -/
structure RegAt where
  row : RegRow
  i : Nat
  j : Nat
  word : Nat

/-- The register at an address. -/
def regAt (a : Nat) : Option RegAt :=
  match findReg a with
  | none => none
  | some r => (r.hit a).map (fun x => ⟨r, x.1, x.2.1, x.2.2⟩)

/-- The device-wide registers of the engine pages lie in engine 0's page (R296). -/
def canonAddr (a : Nat) : Nat :=
  let o := (a - 0x800000) % 0x4000
  if 0x800000 ≤ a ∧ a < 0xA00000 ∧ 0x3F00 ≤ o ∧ o < 0x3FC0 then 0x800000 + o else a

/-- An address inside the SFL block, every register of which is SO or RC (R589). (log entry 14 DEDUCED.) -/
def inSfl (a : Nat) : Bool := decide (0x20000 ≤ a) && decide (a < 0x30000)

/-! ### Field writes (R9, R12) -/

/-- The value stored for a written one. (log entry 18 DESIGN CHOICE.) -/
def Clamp.fix : Clamp → Nat → Nat
  | .any, v => v
  | .range lo hi, v => clampTo lo hi v
  | .rangeOrZero lo hi, v => if v = 0 then 0 else clampTo lo hi v

/-- A register word after a write of `val` to one of its fields; `hw`: W1C bits that hardware sets in the same cycle (R12). -/
def FldRow.write (f : FldRow) (val hw w : Nat) : Nat :=
  let v := bitsOf f.hi f.lo val
  let old := bitsOf f.hi f.lo w
  if f.own then w
  else match f.acc with
    | .rw => setBitsOf f.hi f.lo w (f.clamp.fix v)
    | .w1c => setBitsOf f.hi f.lo w (Nat.lor (bitsOf f.hi f.lo hw) (old - Nat.land old v))
    | _ => w

/-- A register word after a write of all its fields. -/
def RegRow.write (r : RegRow) (old val hw : Nat) : Nat := r.flds.foldl (fun w f => f.write val hw w) old

/-- The bits of a row's fields with one access code. -/
def RegRow.mask (r : RegRow) (acc : Access) : Nat :=
  (r.flds.filter (fun f => f.acc == acc)).foldl (fun m f => setBitsOf f.hi f.lo m (2 ^ 32 - 1)) 0

/-- Every field of the row has the access code. -/
def RegRow.allAcc (r : RegRow) (acc : Access) : Bool := r.flds.all (fun f => f.acc == acc)

/-! ### Hardware events in the cycle of a write (R12) -/

/-- Bit `b` of a W1C register is set by hardware. (log entry 13 DESIGN CHOICE.) -/
def Chip.hwEvent (c : Chip) (r : RegAt) (a b : Nat) : Chip :=
  let f : Fld := ⟨r.row.base, r.row.s1, r.row.s2, b, b⟩
  let plain : Chip := c.wr a (BitVec.ofNat 32 (setBitsOf b b (c.rd a).toNat 1))
  if r.row.base = F.TEL_GAP.V.base then c.gap (32 * r.i + b)
  else if r.row.base = F.PRT_SITE_FLAGS.V.base then plain
  else if 0x38000 ≤ a ∧ a < 0x3A000 ∧ r.row.allAcc .w1c then
    c.lraise (1024 + r.i) { F.LNA_EVENTS.UP with hi := b, lo := b }
  else if r.row.base = F.HST_ERR_CAUSE.BAD_WRITE.base then
    let c := if c.rd a = 0 then (c.putQ F.HST_ERR_ADDR.V (c.freeNat % 2 ^ 64)).useFree else c
    c.raise f
  else if r.row.allAcc .w1c then c.raise f r.i
  else if b = 31 ∨ r.row.base = F.PRT_SITE_XFER.DONE.base then c.raiseDone f r.i
  else plain

/-- The W1C bits that hardware sets in the cycle of a write. (log entry 13 DESIGN CHOICE.) -/
def Chip.hwEvents (c : Chip) (r : RegAt) (a hw : Nat) : Chip :=
  (List.range 32).foldl (fun c b => if bitOf b (Nat.land hw (r.row.mask .w1c)) then c.hwEvent r a b else c) c

/-! ### Bounds and conditions that depend on the state -/

/-- A register whose writes are ignored at present: the queue page of a queue in no pool; the fields of a scheduled timed write;
a ring's BASE while it is not stopped (R508). -/
def Chip.writeLocked (c : Chip) (r : RegAt) : Bool :=
  let b := r.row.base
  if 0x1000000 ≤ b then c.getF F.SCH_Q_INFO.KIND r.i == 0
  else if 0x40400 ≤ b ∧ b < 0x40600 then c.getF F.TIM_SACT_STATE.PHASE r.i == 1
  else if b = F.HST_RING_BASE.V.base then !c.flag F.HST_RING_STATUS.STOPPED r.i
  else false

/-- K of an admission profile as stored: −7 to +4 (R397). -/
def admK (k : Nat) : Nat := if k = 8 then 9 else if 4 < k ∧ k < 8 then 4 else k

/-- The bytes of CLS_PAT_CLASS_MAP as stored: 0xFF for a value that names no group (R206). -/
def classMap (groups v : Nat) : Nat :=
  leNat ((natLe 4 v).map (fun b => if b.toNat < groups then b else 0xFF))

/-- The written value with the bounds that depend on other state: the policy's (R573), and those that name another register. -/
def Chip.writeBound (c : Chip) (r : RegAt) (old v : Nat) : Nat :=
  let b := r.row.base
  if b = F.ACT_STEP_BUDGET.V.base then clampTo 64 (c.pol 0x228 2) (v % 2 ^ 16)
  else if b = F.ACT_WALL_LIMIT.V.base then clampTo 1 (c.pol 0x22A 2) (v % 2 ^ 14)
  else if b = F.PLT_DRAIN_LIMIT.V.base then clampTo 10 (c.pol 0x22C 4) v
  else if b = F.TEL_TS_CTRL.LOG2_RATE.base then setBitsOf 5 0 v (max (c.pol 0x235 1) (bitsOf 5 0 v))
  else if b = F.PRT_SITE_CTRL.POWER_LIMIT.base then
    (if c.pol 0x234 1 < bitsOf 23 16 v then setBitsOf 23 16 v (bitsOf 23 16 old) else v)
  else if b = F.WDS_CL_SCHED.HOSTPOST.base then
    (if bitOf 4 v && !c.polBit 0x240 r.i then setBitsOf 4 4 v (bitsOf 4 4 old) else v)
  else if b = F.WDS_CL_MAX.V.base then clampTo (c.getF F.WDS_CL_MIN.V r.i) 131072 (v % 2 ^ 18)
  else if b = F.CLS_PAT_CLASS_MAP.V.base then classMap (c.getF F.CLS_PAT_INFO.GROUP_COUNT) v
  else if b = F.TMG_ING_MAX.V.base then clampTo (c.getF F.TMG_ING_MIN.V r.i + 48) 524288 (v % 2 ^ 20)
  else if b = F.TMG_PEND_MAX.V.base then clampTo 1024 262144 (v % 2 ^ 19)
  else if b = F.TMG_ADM_PROF.K.base then setBitsOf 31 28 v (admK (bitsOf 31 28 v))
  else if b = F.HST_RING_CFG.SIZE_LOG2.base then
    (if c.flag F.HST_RING_STATUS.STOPPED r.i then v else setBitsOf 27 24 v (bitsOf 27 24 old))
  else if (b = F.LNA_PG_CTRL.PATTERN.base ∨ b = F.LNA_PG_CTRL.PATTERN.base - 0x1C8000) ∧ 9 < bitsOf 7 4 v then
    setBitsOf 7 4 v (bitsOf 7 4 old)
  else if (b = F.LNA_PC_CTRL.PATTERN.base ∨ b = F.LNA_PC_CTRL.PATTERN.base - 0x1C8000) ∧ 8 < bitsOf 7 4 v then
    setBitsOf 7 4 v (bitsOf 7 4 old)
  else v

/-! ### Stores -/

/-- One register word written: hardware's events first, then the write (R12). (log entry 18 DESIGN CHOICE.) -/
def Chip.storeWord (c : Chip) (r : RegAt) (a val hw : Nat) : Chip :=
  let c := c.hwEvents r a hw
  let old := (c.rd a).toNat
  if c.writeLocked r then c
  else c.wr a (BitVec.ofNat 32 (r.row.write old (c.writeBound r old val) hw))

/-- The bits that a higher word of a value of R13 holds. -/
def highMask (base : Nat) : Nat := if base = F.TMG_PORT_MAC.V.base then 0xFFFF else 2 ^ 32 - 1

/-- The bits that the lowest word of a value of R13 takes. -/
def lowMask (base : Nat) : Nat := if base = F.HST_RING_BASE.V.base then 0xFFFFF000 else 2 ^ 32 - 1

/-- A higher word written: staged until the lowest word is written (R13). (log entry 10 DEDUCED.) -/
def Chip.stageWord (c : Chip) (a : Nat) (v : Word) : Chip := { c with wideStage := smPut c.wideStage a v }

/-- The higher word that a write of the lowest word applies: as staged, else as it stands. (log entry 10 DEDUCED.) -/
def Chip.stagedWord (c : Chip) (a : Nat) : Word := (smFind c.wideStage a).getD (c.rd a)

/-- The staged higher words of a value are used up. (log entry 10 DEDUCED.) -/
def Chip.unstage (c : Chip) (a words : Nat) : Chip :=
  { c with wideStage := c.wideStage.filter (fun (e : Nat × Word) => !(decide (a < e.1) && decide (e.1 < a + 4 * words))) }

/-- The lowest word written: the whole value is applied at once (R13). (log entry 10 DEDUCED.) -/
def Chip.storeWide (c : Chip) (r : RegAt) (a : Nat) (v : Word) : Chip :=
  if !r.row.allAcc .rw || c.writeLocked r then c.unstage a r.row.words
  else
    let c1 := (List.range (r.row.words - 1)).foldl (fun c k => c.wr (a + 4 * (k + 1))
      (BitVec.ofNat 32 (Nat.land (c.stagedWord (a + 4 * (k + 1))).toNat (highMask r.row.base)))) c
    (c1.wr a (BitVec.ofNat 32 (Nat.land v.toNat (lowMask r.row.base)))).unstage a r.row.words

end Sys2Proof.Machine
end

