-- ==== Sys2Proof/Machine/RegView.lean ====
section
/-! DEFINITION. What a BAR0 word reads as: the stored word, or the value of state that a register shows. -/
namespace Sys2Proof.Machine
open Sys2Proof

/-! ### Interrupt sources (R510) -/

/-- An EVENTS register AND its enables, the next register, is not 0. -/
def Chip.evActive (c : Chip) (a : Nat) : Bool := Nat.land (c.rd a).toNat (c.rd (a + 4)).toNat != 0

/-- Interrupt source `s` is active (R510). (log entries 16 DEDUCED, 29 DESIGN CHOICE.) -/
def Chip.srcActive (c : Chip) (s : Nat) : Bool :=
  if s < 1024 then c.evActive (F.LNA_EVENTS.UP.addr s)
  else if s < 1536 then
    let p := s - 1024
    c.evActive (F.PRT_EVENTS.UP.addr p)
      || (p % 4 == 0 && (c.evActive (F.PRT_SITE_EVENTS.INSERT.addr (p / 4)) || c.flag F.PRT_SITE_XFER.DONE (p / 4)))
  else if s < 1552 then c.evActive (F.PAR_EVENTS.ANOMALY.addr (s - 1536))
  else if s < 1680 then c.evActive (F.FLE_EVENTS.ALIAS.addr (s - 1552))
  else if s < 1696 then c.evActive (F.ACT_CL_EVENTS.BUDGET.addr (s - 1680))
  else match s with
    | 1696 => c.flag portPlt.done
    | 1697 => c.evActive F.CLS_EVENTS.FIX_DONE.base || c.flag portCls.done
    | 1698 => c.evActive F.CLS_TEVENTS.SCRUB_FIX.base || c.flag portTcmd.done
    | 1699 => c.evActive F.CLS_PAT_EVENTS.OVERLOAD.base
    | 1700 => c.evActive F.TIM_EVENTS.LATE.base || c.flag portTim.done
    | 1701 => c.evActive F.WDS_EVENTS.REFUSED.base || c.flag F.WDS_HPOST_STATUS.DONE
    | 1702 => c.evActive F.HBM_EVENTS.CORR.base || c.flag F.HBM_FENCE.DONE
    | 1703 => c.evActive F.TMG_EVENTS.DT_DROP.base
    | 1704 => c.evActive F.SCH_EVENTS.OVERSIZE.base || (List.range 512).any (fun p => c.flag F.SCH_GATE_CMD_STATUS.DONE p)
    | 1705 => c.evActive F.TEL_EVENTS.GAP.base
    | 1706 => c.evActive F.GNG_EVENTS.LINK.base || c.flag portGng.done
    | 1707 => c.evActive F.MGT_EVENTS.MLANE.base || c.flag portMbx.done
    | 1708 => c.evActive F.SFL_EVENTS.TRIP.base
    | 1709 => c.evActive F.HST_ERR_CAUSE.BAD_WRITE.base || (List.range 4).any (fun w => c.flag portTw.done w)
    | 1710 => c.flag F.GLB_STATUS.FAULT_PENDING || c.flag F.GLB_STATUS.RECOVERING
    | _ => false

/-- Bits set where a test holds, for bit numbers below `n`. -/
def bitsWhere (n : Nat) (p : Nat → Bool) : Nat := (List.range n).foldl (fun m b => if p b then m + 2 ^ b else m) 0

/-! ### The counter page (R478) -/

/-- A word of the counter page at an offset. -/
def Chip.counterPage (c : Chip) (o : Nat) : Nat :=
  if !c.flag F.TEL_UPAGE_CTRL.EN || !bitOf (o / 4096) (c.getF F.TEL_UPAGE_CTRL.MASK) then 0
  else if o < 0x8000 then (c.rd (F.TEL_EV_CNT.V.base + o)).toNat
  else if o < 0xA000 then (c.rd (F.TEL_RT_CNT.V.base + (o - 0x8000))).toNat
  else if o < 0xA080 then (c.rd (F.TEL_GAP.V.base + (o - 0xA000))).toNat
  else if o = 0xA080 then c.ft
  else 0

/-! ### Registers that show other state -/

/-- STATE of a context as ACT_CTX_PC shows it. -/
def Ctx.shown (v : Ctx) : Nat :=
  if v.free then 0 else if 2 ≤ v.st ∧ v.st ≤ 4 then 3 else if v.rd.isSome then 2 else 1

/-- A recovery domain is recovering. -/
def Chip.recovers (c : Chip) (kind inst : Nat) : Bool := c.recov.any (fun r => r.kind == kind && r.inst == inst && r.state == 2)

/-- The value of word `r.word` of a register that shows time, Plate, policy or interrupt state; none for another register. -/
def Chip.viewCommon (c : Chip) (r : RegAt) (old : Nat) : Option Nat :=
  let b := r.row.base
  let wordOf (v : Nat) : Option Nat := some (v / 2 ^ (32 * r.word) % 2 ^ 32)
  let ns := c.time.acc / 2 ^ 40
  if b = F.TIM_DT.V.base then wordOf c.dt
  else if b = F.TIM_PTP_NS.V.base then
    (if r.word = 0 then some (ns % 10 ^ 9) else some ((ns / 10 ^ 9) % 2 ^ 48 / 2 ^ (32 * (r.word - 1)) % 2 ^ 32))
  else if b = F.TIM_FT.V.base then some c.ft
  else if b = F.PLT_STAGE_BASE.V.base then wordOf stageBase
  else if b = F.PLT_FLOOR.V.base then wordOf c.flash.plateFloor
  else if b = F.SFL_FLOOR.V.base then wordOf c.flash.polFloor
  else if b = F.PLT_SLOT_STATUS.SLOT_A.base then
    let w := setBitsOf 1 0 (setBitsOf 3 2 old c.flash.plateB.state) c.flash.plateA.state
    some (setBitsOf 6 6 (setBitsOf 7 7 w (b2n c.flash.goodB)) (b2n c.flash.goodA))
  else if b = F.SFL_POLICY.V.base then some (c.pol (4 * r.i) 4)
  else if b = F.HST_CAUSE.V.base then some (bitsWhere 32 (fun k => c.srcActive (32 * r.i + k)))
  else if b = F.TEL_PORT_CTRL.GAP.base then some (setBitsOf 1 1 old (b2n (bitOf (r.i % 32) (c.getF F.TEL_GAP.V (r.i / 32)))))
  else if b = F.TEL_TS_INFLIGHT.V.base then some ((c.pkts.filter (fun (e : Nat × Pkt) => e.2.strip.isSome)).length)
  else none

/-- The value of a register that shows packet or queue state. -/
def Chip.viewPackets (c : Chip) (r : RegAt) (old : Nat) : Option Nat :=
  let b := r.row.base
  if b = F.PAR_STATUS.PIPE_FULL.base then some (bitsWhere 12 (fun k => decide (64 ≤ c.pipeCtxs (12 * r.i + k))))
  else if b = F.CLS_INFLIGHT.V.base then some (c.inFlight ((c.getF F.CLS_VERSION.OLDEST + r.i) % 2 ^ 16))
  else if b = F.CLS_PAT_BUSY.V.base then some (bitsWhere 32 (fun e => (smFind c.pattern.engines e).isSome))
  else if b = F.CLS_PAT_QUEUE.V.base then some c.pattern.queue.length
  else if b = F.TMG_FQ_BOUND.V.base then some c.tm.bindings.length
  else if b = F.TMG_PEND_USED.CELLS.base then
    let n := (c.tm.pend.filter (fun (e : Nat × Nat) => e.1 / 2 ^ 14 == r.i)).length
    some (n * 2 ^ 17 + min 0x1FFFF (smGet (fun _ => 0) c.tm.pendCells r.i / 2))
  else if b = F.TMG_RECIRC_USED.V.base then some (smGet (fun _ => []) c.tm.recirc r.i).length
  else if b = F.SCH_Q_STATUS.ACTIVE.base then
    let h := c.queueHome r.i
    let act := c.getF F.SCH_Q_INFO.KIND r.i != 0 && (c.qlist h.1 h.2).contains r.i
    let closed := c.flag F.SCH_Q_SHP_CFG.ENABLE r.i
      && (c.getF F.SCH_Q_SHP_RATE.V r.i == 0 || c.getF F.SCH_Q_SHP_CFG.BURST r.i == 0)
    let w := setBitsOf 30 30 (setBitsOf 31 31 old (b2n act)) (b2n (c.headHeld r.i))
    some (setBitsOf 28 28 (setBitsOf 29 29 w (b2n (!c.qConforms r.i))) (b2n closed))
  else if b = F.SCH_Q_PKTS.V.base then some (c.queue r.i).length
  else none

/-- The value of a register that shows the state of a flow engine or an action cluster. (log entry 16 DEDUCED.) -/
def Chip.viewUnits (c : Chip) (r : RegAt) (old : Nat) : Option Nat :=
  let b := r.row.base
  let e := c.eng r.i
  if b = F.FLE_STATUS.AWAKE.base then
    some (setBitsOf 31 31 (setBitsOf 30 30 (setBitsOf 29 29 0 (b2n (c.recovers 3 r.i)))
      (b2n (c.bathHolds 3 (r.i / 8) || c.bathHolds 3 16))) (b2n (c.flag F.GLB_STATUS.PLATE_LOADED && !c.bankGated r.i)))
  else if b = F.FLE_OCC0.STATION.base then some (setBitsOf 9 0 (setBitsOf 28 16 0 e.occ) e.missUsed)
  else if b = F.FLE_OCC1.SETUPQ.base then some (setBitsOf 9 0 (setBitsOf 22 16 (setBitsOf 31 23 0 e.setupUsed) e.insUsed) e.helds.length)
  else if b = F.FLE_OCC2.INPUT.base then some e.input.length
  else if b = F.FLE_ENG_ID.ENGINE.base then some r.i
  else if b = F.ACT_CL_STATUS.AWAKE.base then
    some (setBitsOf 22 16 (setBitsOf 28 28 (setBitsOf 29 29 old (b2n (c.recovers 4 r.i))) (b2n (c.bathHolds 4 r.i))) (c.busy r.i))
  else if b = F.ACT_CTX_PC.PC.base then
    some (setBitsOf 31 30 (setBitsOf 14 0 0 (c.ctx (64 * r.i + r.j)).lastPc) (c.ctx (64 * r.i + r.j)).shown)
  else if b = F.ACT_CTX_STEPS.STEPS.base then
    some (setBitsOf 30 16 (setBitsOf 15 0 0 (c.ctx (64 * r.i + r.j)).steps) (c.ctx (64 * r.i + r.j)).entry)
  else none

/-- BAR0 answers 0 outside GLB from a device reset until PLATE_LOADED (R513). (log entry 22 DEDUCED.) -/
def Chip.readGated (c : Chip) (a : Nat) : Bool :=
  c.power.bar0Gated && !c.flag F.GLB_STATUS.PLATE_LOADED && decide (0x10000 ≤ a)

/-- The word a 32-bit read of BAR0 answers, captures aside (R7, R9, R10). (log entry 12 DESIGN CHOICE.) -/
def Chip.viewReg (c : Chip) (a0 : Nat) : Word :=
  let a := canonAddr a0
  if c.readGated a then 0
  else if 0x1F0000 ≤ a ∧ a < 0x200000 then BitVec.ofNat 32 (c.counterPage (a - 0x1F0000))
  else match regAt a with
    | none => 0
    | some r =>
      let old := (c.rd a).toNat
      let v := (c.viewCommon r old).orElse (fun _ => (c.viewPackets r old).orElse (fun _ => c.viewUnits r old))
      if r.row.allAcc .wo then 0 else BitVec.ofNat 32 (v.getD old)

end Sys2Proof.Machine
end

