-- ==== Sys2Proof/Machine/RegCmd.lean ====
section
/-! DEFINITION. A write of one BAR0 word and what it starts: the command registers, self-clearing bits and settings with an effect
of their own, outside the time island. -/
namespace Sys2Proof.Machine
open Sys2Proof

/-! ### Values of the outside world that a register write brings into play -/

/-- Training sweeps of every channel as free values: one number for each of a channel's 16 lanes' sweeps (R362).
(log entries 5 DESIGN CHOICE, 17 DESIGN CHOICE, 71 DESIGN CHOICE.) -/
def Chip.freeMasks (c : Chip) : List (List Nat) × Chip :=
  ((List.range 96).map (fun ch => (List.range 16).map (fun k => Config.freeNat (c.freeCtr + 16 * ch + k))),
   { c with freeCtr := c.freeCtr + 1536 })

/-! ### What a written word starts, block by block. `c` holds the word with its plain fields stored; `v` is the value written and
`old` the word before. -/

/-- GLB and PLT (R63, R594). -/
def Chip.glbWritten (c : Chip) (b v : Nat) : Chip :=
  if b = F.GLB_REC_GO.GO.base then (if bitOf 31 v then c.recoveryGo (bitsOf 18 16 v) (bitsOf 9 0 v) else c)
  else if b = F.PLT_CMD.OPCODE.base then
    match bitsOf 3 0 v with
    | 1 => c.verify
    | 2 => c.writeSlot (bitOf 5 v)
    | 3 => c.selectBoot (bitOf 5 v)
    | 4 => (c.stopBath (bitsOf 15 12 v) (bitsOf 24 16 v) (bitOf 6 v) (bitOf 7 v)).flush
    | 5 => c.adopt (bitOf 8 v)
    | 6 => c.abandonPlate
    | 7 => c.freeMasks.2.loadStaged c.freeMasks.1
    | 8 => c.cancelBath (bitsOf 11 9 v)
    | _ => c.command portPlt (·.finish portPlt stInvalid)
  else c

/-- A lane's registers (R79 to R101); `b` is the register's address for line lane 0. -/
def Chip.laneWritten (c : Chip) (l b v : Nat) : Chip :=
  if b = F.LNA_CTRL.ENABLE.base then
    let c := (c.lput l F.LNA_CTRL.ENABLE (bitsOf 0 0 v)).laneCheck l
    let c := if bitOf 7 v then c.capClear l else c
    if bitOf 8 v then c.laneRestart l else c
  else if b = F.LNA_TX_FFE.all.base then c.ffeWrite l v
  else if b = F.LNA_RX_EQ.FREEZE.base then
    let c := c.frozenShow l
    if bitOf 1 v then c.resetAdapt l else c
  else if b = F.LNA_PG_CTRL.ENABLE.base then c.pgEnable l (bitOf 0 v)
  else if b = F.LNA_PG_INJ.TARGET.base then (if bitOf 1 v then c.inject l else c)
  else if b = F.LNA_PC_CTRL.ENABLE.base then (if bitOf 8 v then c.pcClear l else c)
  else if b = F.LNA_RX_ALIGN.ALIGN_MODE.base then
    let c := if c.lflag l F.LNA_RX_ALIGN.ALIGN_MODE = bitOf 16 v then c else c.alignMode l (bitOf 16 v)
    if bitOf 8 v then c.bitslip l else c
  else if b = F.LNA_RX_CAP_CTRL.CAPTURE.base then (if bitOf 0 v then c.useFree.capture l c.freeNat else c)
  else if b = F.LNA_PIN_CTRL.RX_POL.base then (if bitOf 0 v then c.retest l else c)
  else c

/-- Management, gang and dispatcher registers (R344, R350, R547, R550, R542). -/
def Chip.mgtWritten (c : Chip) (b v : Nat) : Chip :=
  if b = F.MGT_MP_CTRL.STAY_AWAKE.base then (if bitOf 31 v then c.mpStart else c)
  else if b = F.MGT_MBX_CMD.OPCODE.base then c.mbxCmd (bitsOf 7 0 v)
  else if b = F.GNG_CMD.OPCODE.base then
    match bitsOf 3 0 v with
    | 1 => c.form.flush
    | 2 => c.join
    | 3 => c.leaveGang.flush
    | 4 => c.resetAll
    | _ => c.command portGng (·.finish portGng stInvalid)
  else if b = F.WDS_HPOST_CTRL.GO.base then (if bitOf 8 v then c.hpost (bitsOf 5 0 v) (bitOf 7 v) else c)
  else if b = F.WDS_CS_TRIGGER.TRIGGERED.base then
    (if bitOf 0 v then c.onWds (fun d => { d with csPost := none }) else c)
  else c

/-- Host-interface registers (R497, R502, R508, R511, R513). -/
def Chip.hstWritten (c : Chip) (r : RegAt) (b v : Nat) : Chip :=
  if b = F.HST_MSIX_TBL.V.base then
    let masked := bitOf 0 (c.getF F.HST_MSIX_TBL.V r.i 3)
    let c := c.putF F.HST_MSIX_TBL.V (if r.j = 3 ∧ masked then setBitsOf 0 0 v 1 else v) r.i r.j
    if r.j = 3 ∧ masked ∧ !bitOf 0 v then c.unmask r.i else c
  else if b = F.HST_RESET.V.base then c.resetWrite v
  else if b = F.HST_RING_CFG.ENABLE.base then c.ringEnable r.i (bitOf 31 v)
  else if b = F.HST_RING_TAIL.V.base then c.doorbell r.i (bitsOf 15 0 v)
  else if b = F.HST_TW_CMD.OPCODE.base then (c.twCmd r.i (bitsOf 3 0 v) (bitsOf 23 16 v)).flush
  else c

/-- Telemetry registers (R470 to R487). (log entry 20 DEDUCED.) -/
def Chip.telWritten (c : Chip) (r : RegAt) (b a old v : Nat) : Chip :=
  if 0x1A0400 ≤ a ∧ a < 0x1A04C0 then c.onTel (fun t => { t with tmplDue := true })
  else if b = F.TEL_PORT_CTRL.CLEAR.base then (if bitOf 0 v then c.statsClear r.i else c)
  else if b = F.TEL_EV_SEL.EVENT.base then c.putF F.TEL_EV_CTL.SEL_BAD (b2n (selBad (c.rd a).toNat)) r.i
  else if b = F.TEL_EV_CTL.CLEAR.base then (if bitOf 29 v then c.evClear r.i else c)
  else if b = F.TEL_EV_CTRL.FREEZE.base then c.putF F.TEL_EV_CTRL.FREEZE (bitsOf 0 0 v)
  else if b = F.TEL_TS_SEED.V.base then (c.putF F.TEL_TS_SEED.V v).tsSeed
  else if b = F.TEL_TS_FORCE.GO.base then (if bitOf 31 v then c.putF F.TEL_TS_FORCE.GO 1 else c)
  else if b = F.TEL_TS_CTRL.ENABLE.base then (if bitOf 31 v ∧ !bitOf 31 old then c.tsSeed else c)
  else c

/-- Port and module-site registers (R104 to R128). -/
def Chip.prtWritten (c : Chip) (r : RegAt) (b old v : Nat) : Chip :=
  if b = F.PRT_CFG.ENABLE.base then (if bitOf 0 v = bitOf 0 old then c else c.portCheck r.i)
  else if b = F.PRT_CTRL.REFORM.base then (if bitOf 0 v then c.reform r.i else c)
  else if b = F.PRT_CVU_RUN.V.base then c.cvuRunWrite r.i r.j v
  else if b = F.PRT_SITE_XFER.GO.base then (if bitOf 0 v then c.xferGo r.i (bitOf 2 v) else c)
  else if b = F.PRT_SITE_CTRL.ENABLE.base then c.siteCtrl r.i old
  else c

/-- Rule-table, flow-engine and action-core registers (R167, R188, R230, R321, R322). -/
def Chip.clsWritten (c : Chip) (r : RegAt) (b v : Nat) : Chip :=
  if b = F.CLS_CMD.OPCODE.base then
    match bitsOf 3 0 v with
    | 4 => c.fixCmd (bitOf 7 v)
    | 5 => c.latentAbandon
    | 6 => c.cancelFix
    | 7 => c.lookupCmd (bitsOf 12 8 v)
    | n => if n = 1 ∨ n = 2 ∨ n = 3 then c.stageCmd n (bitsOf 12 8 v) else c.command portCls (·.clsDone stInvalid 0xC)
  else if b = F.CLS_TCMD.OPCODE.base then
    match bitsOf 3 0 v with
    | 4 => c.tLookup (bitsOf 11 8 v) (bitOf 7 v)
    | 5 => c.rebalance (bitsOf 11 8 v)
    | n => if n = 1 ∨ n = 2 ∨ n = 3 then c.tStageCmd n (bitsOf 11 8 v) else c.command portTcmd (·.tDone stInvalid 0xC)
  else if b = F.FLE_HC_CTRL.CANON.base then (if bitOf 0 v then c.hcGo r.i else c)
  else if b = F.ACT_CL_CTRL.HOLD.base then
    let c := if bitOf 1 v then (c.killAll r.i abKilled).flush else c
    if c.flag F.ACT_CL_CTRL.HOLD r.i = bitOf 0 v then c else c.setHold r.i (bitOf 0 v)
  else if b = F.ACT_KILL.CONTEXT.base then (if bitOf 31 v then (c.killCtx (bitsOf 9 0 v)).flush else c)
  else c

/-- Flow-memory registers (R361, R365, R378, R380). -/
def Chip.hbmWritten (c : Chip) (r : RegAt) (b v : Nat) : Chip :=
  if b = F.HBM_FENCE.DONE.base then (if bitOf 8 v then c.fence (bitsOf 7 0 v) else c)
  else if b = F.HBM_STK_CTRL.RATE.base then
    let c := c.rateChange r.i (bitsOf 1 0 v)
    if bitOf 8 v then c.trainStack r.i else c
  else if b = F.HBM_CH_CTRL.RELEASE.base then
    (if bitOf 0 v then c.useFree.hostRelease r.i (c.freeNat % 2 == 1) else c)
  else c

/-- Traffic-manager registers (R403). (log entry 114 DEDUCED.) -/
def Chip.tmgWritten (c : Chip) (r : RegAt) (b : Nat) : Chip :=
  if b = F.TMG_PORT_PFC.EN.base ∨ b = F.TMG_PORT_XOFF.V.base ∨ b = F.TMG_PORT_XON.V.base then c.pfcJudge r.i else c

/-- Scheduler registers (R431, R441, R442). -/
def Chip.schWritten (c : Chip) (r : RegAt) (b v : Nat) : Chip :=
  if b = F.SCH_OBS_CTRL.MODE.base then c.setObs (fun (c : Chip) => c.putF F.SCH_OBS_CTRL.MODE (bitsOf 0 0 v))
  else if b = F.SCH_PORT_CFG.SHP_EN.base then c.shaperWrite 2 r.i 2 v
  else if b = F.SCH_PORT_SHP_RATE.V.base then c.shaperWrite 2 r.i 0 v
  else if b = F.SCH_PORT_SHP_BURST.V.base then c.shaperWrite 2 r.i 1 v
  else if b = F.SCH_CL_CFG.SHP_EN.base then c.shaperWrite 1 (16 * r.i + r.j) 2 v
  else if b = F.SCH_CL_SHP_RATE.V.base then c.shaperWrite 1 (16 * r.i + r.j) 0 v
  else if b = F.SCH_CL_SHP_BURST.V.base then c.shaperWrite 1 (16 * r.i + r.j) 1 v
  else if b = F.SCH_Q_SHP_RATE.V.base then c.shaperWrite 0 r.i 0 v
  else if b = F.SCH_Q_SHP_CFG.ENABLE.base then c.shaperWrite 0 r.i 1 v
  else if b = F.SCH_GATE_CMD.OPCODE.base then
    match bitsOf 3 0 v with
    | 1 => c.gateStartCmd r.i (bitOf 4 v)
    | 2 => c.gateCancelCmd r.i
    | 3 => c.gateStopCmd r.i
    | _ => c.gateDone r.i stInvalid
  else c

/-- What a written word starts. (log entries 17 DESIGN CHOICE, 28 DESIGN CHOICE.) -/
def Chip.written (c : Chip) (r : RegAt) (a old v : Nat) : Chip :=
  let b := r.row.base
  if b < 0x20000 then c.glbWritten b v
  else if 0x38000 ≤ b ∧ b < 0x3A000 then c.laneWritten (1024 + r.i) (b + 0x1C8000) v
  else if b < 0x80000 then c.mgtWritten b v
  else if b < 0x100000 then c.hstWritten r b v
  else if b < 0x200000 then c.telWritten r b a old v
  else if b < 0x300000 then c.laneWritten r.i b v
  else if b < 0x500000 then c.prtWritten r b old v
  else if b < 0xC00000 then c.clsWritten r b v
  else if b < 0xE00000 then c.hbmWritten r b v
  else if 0xF00000 ≤ b then c.schWritten r b v
  else c.tmgWritten r b

/-! ### One word written (R7, R9, R13) -/

/-- A 32-bit write of a register outside the time island; an address without a register ignores it. -/
def Chip.hostWord (c : Chip) (a : Nat) (v : Word) (hw : Nat) : Chip :=
  match regAt a with
  | none => c
  | some r =>
    if r.word ≠ 0 then (if r.row.allAcc .rw then c.stageWord a v else c)
    else if 1 < r.row.words then c.storeWide r a v
    else (c.storeWord r a v.toNat hw).written r a (c.rd a).toNat v.toNat

end Sys2Proof.Machine
end

