-- ==== Sys2Proof/Machine/Time.lean ====
section
/-! DEFINITION. The time island (R450 to R467): ticks, the TIM commands, scheduled actions, references, the timing
connector and path delay. -/
namespace Sys2Proof.Machine
open Sys2Proof

/-- The slew part of one tick and the slew after it (R454). -/
def slewPart (s : Slew) : Int × Option Slew :=
  let sign : Int := if s.r < 0 then -1 else 1
  (s.q + (if (s.k : Int) < s.r.natAbs then sign else 0), if s.k + 1 < s.n then some { s with k := s.k + 1 } else none)

/-- The accumulator after adding a signed amount of 2^-40 ns, modulo 2^120 (R450). -/
def accAdd (acc : Nat) (d : Int) : Nat := patternOf 120 ((acc : Int) + d)

/-- A running TIM command completes at its tick; a follower's own SET or STEP (R539) is no command. -/
def Chip.timDone (c : Chip) : Chip := if c.flag F.TIM_CMD_STATUS.RUNNING then c.finish portTim stOk else c

/-- A tick's TIM_INCR write, SET and STEP (R451, R453, R455). -/
def Chip.tickWrites (c : Chip) : Chip :=
  let c := match c.time.incrNext with
    | some v => { c with time := { c.time with incr := v, incrNext := none } }
    | none => c
  let c := match c.time.setNext with
    | some v => ({ c.endSlew with time := { c.endSlew.time with acc := v * 2 ^ 24, setNext := none } }.setTimeValid true).timDone
    | none => c
  match c.time.stepNext with
  | some d =>
    let c := c.endSlew
    let c := { c with time := { c.time with acc := accAdd c.time.acc (d * 2 ^ 24), stepNext := none } }
    c.reevaluate.timDone
  | none => c

/-- One tick of the time island (R450, R455). -/
def Chip.tick (c : Chip) : Chip :=
  let c := c.tickWrites
  let part : Int := match c.time.slew with | some s => (slewPart s).1 | none => 0
  let c1 := { c with time := { c.time with
    acc := accAdd c.time.acc ((c.time.incr : Int) + part)
    mt := c.time.mt + c.time.incr } }
  match c.time.slew with
  | some s =>
    let c1 := { c1 with time := { c1.time with slew := (slewPart s).2 } }
    if (slewPart s).2.isNone then (c1.putF F.TIM_STATUS.SLEWING 0).raise F.TIM_EVENTS.SLEW_DONE else c1
  | none => c1

/-- TIME_TICK (R450). -/
def execTimeTick (s : State) : Out := s.on (fun c => if c.power.vin then c.tick else c)

/-- INCR_WRITE (R451, R539): clamped; in force from the next tick; ignored on a gang time follower. -/
def Chip.incrWrite (c : Chip) (v : Nat) : Chip :=
  if c.follower then c
  else
    let v := clampTo 1405967508669 1408782258437 (v % 2 ^ 48)
    { c.putQ F.TIM_INCR.V v with time := { c.time with incrNext := some v } }

/-- INCR_WRITE. -/
def execIncrWrite (v : BitVec 48) (s : State) : Out := s.on (·.incrWrite v.toNat)

/-- REF_LOST (R452): only while the island is locked to the external reference. -/
def execRefLost (s : State) : Out := s.on fun c =>
  if c.flag F.TIM_STATUS.REF_LOCKED then (c.putF F.TIM_STATUS.REF_LOCKED 0).raise F.TIM_EVENTS.REF_LOST else c

/-- REF_LOCK (R452): only with REF_SRC = 1 and the island not locked. -/
def execRefLock (s : State) : Out := s.on fun c =>
  if c.time.refSrc && !c.flag F.TIM_STATUS.REF_LOCKED then
    (c.putF F.TIM_STATUS.REF_LOCKED 1).raise F.TIM_EVENTS.REF_LOCK
  else c

/-! ### TIM commands (R453, R454, R460) -/

/-- The 96-bit value of TIM_SET. -/
def Chip.timSet (c : Chip) : Nat :=
  (c.rd F.TIM_SET.V.base).toNat + 2 ^ 32 * (c.rd (F.TIM_SET.V.base + 4)).toNat
    + 2 ^ 64 * (c.rd (F.TIM_SET.V.base + 8)).toNat

/-- SET: accepted while TIME_VALID = 0 (R453), not on a gang time follower (R539); runs until the next tick. -/
def Chip.timSetCmd (c : Chip) : Chip := c.command portTim fun c =>
  if c.timeValid || c.follower then c.finish portTim stInvalid
  else { c.putF F.TIM_CMD_STATUS.RUNNING 1 with time := { c.time with setNext := some c.timSet } }

/-- SET. -/
def execSet (s : State) : Out := s.on (·.timSetCmd)

/-- STEP: accepted while TIME_VALID = 1 and |TIM_STEP| < 2^46 ns (R453); runs until the next tick.
(log entry 26 DESIGN CHOICE.) -/
def Chip.timStepCmd (c : Chip) : Chip := c.command portTim fun c =>
  let d := signedOf 64 (c.getQ F.TIM_STEP.V)
  if !c.timeValid || c.follower || decide (2 ^ 62 ≤ d.natAbs) then c.finish portTim stInvalid
  else { c.putF F.TIM_CMD_STATUS.RUNNING 1 with time := { c.time with stepNext := some d } }

/-- STEP. -/
def execStep (s : State) : Out := s.on (·.timStepCmd)

/-- INVALIDATE (R453, R459). (log entry 26 DESIGN CHOICE.) -/
def Chip.invalidate (c : Chip) : Chip := c.command portTim fun c => c.invalidateTime.finish portTim stOk

/-- INVALIDATE. -/
def execInvalidate (s : State) : Out := s.on (·.invalidate)

/-- The parts of a slew of `d` (DTW units) over `n` ticks (R454). -/
def slewOf (d : Int) (n : Nat) : Slew :=
  let a := d * 2 ^ 24
  let q := a.tdiv n
  ⟨q, a - q * n, 0, n⟩

/-- SLEW (R453, R454). -/
def Chip.slewCmd (c : Chip) : Chip := c.command portTim fun c =>
  let sl := slewOf (signedOf 64 (c.getQ F.TIM_SLEW_DELTA.V)) (c.getF F.TIM_SLEW_TICKS.V)
  if !c.timeValid || c.follower || decide (c.time.incr / 1000 < sl.q.natAbs + 1) then c.finish portTim stInvalid
  else if c.time.slew.isSome then c.finish portTim stBusy
  else (({ c with time := { c.time with slew := some sl } }).putF F.TIM_STATUS.SLEWING 1).finish portTim stOk

/-- SLEW. -/
def execSlew (s : State) : Out := s.on (·.slewCmd)

/-- The masked write of a host timed write (R460): the fields that MASK covers take VALUE's bits, the others stay. -/
def Chip.sactWrite (c : Chip) (n st : Nat) : Chip :=
  let a := canonAddr (c.getF F.TIM_SACT_ADDR.V n)
  let m := c.getF F.TIM_SACT_MASK.V n
  let v := c.getF F.TIM_SACT_VALUE.V n
  let rw := match findReg a with | some r => r.mask .rw | none => 0
  let keep := Nat.land (Nat.land (c.rd a).toNat rw) (2 ^ 32 - 1 - m)
  let c := c.hostWord a (BitVec.ofNat 32 (Nat.lor (Nat.land v m) keep)) 0
  let c := ((c.sactFinish n st).raise F.TIM_EVENTS.SACT_DONE).signal 11 0 1
  let c := if st = stLate then c.raise F.TIM_EVENTS.LATE else c
  { c with time := { c.time with late := c.time.late.filter (· != PendAct.sact n) } }

/-- Refusals of SCHED for the register named (R460): aligned, existing, outside TIM, and each masked bit RW or SO. -/
def Chip.sactBad (a m : Nat) : Bool :=
  a % 4 != 0 || (decide (0x40000 ≤ a) && decide (a < 0x50000)) || m == 0 ||
  match findReg a with
  | none => true
  | some r => (List.range 32).any (fun b => bitOf b m &&
      !(r.flds.any (fun f => decide (f.lo ≤ b) && decide (b ≤ f.hi) && (f.acc == .rw || f.acc == .so))))

/-- A masked bit lies in an SO field (R14, R460). -/
def Chip.sactDenied (a m : Nat) : Bool :=
  match findReg a with
  | none => false
  | some r => (List.range 32).any (fun b => bitOf b m &&
      r.flds.any (fun f => decide (f.lo ≤ b) && decide (b ≤ f.hi) && f.acc == .so))

/-- SCHED (R457, R460). (log entry 27 DEDUCED.) -/
def Chip.sched1 (c : Chip) (n : Nat) : Chip := c.command portTim fun c =>
  let a := c.getF F.TIM_SACT_ADDR.V n
  let m := c.getF F.TIM_SACT_MASK.V n
  let cls := c.timeClass (c.getQ F.TIM_SACT_TIME.V n)
  if !c.timeValid || Chip.sactBad a m || c.getF F.TIM_SACT_STATE.PHASE n != 0 then c.finish portTim stInvalid
  else if Chip.sactDenied a m then c.finish portTim stDenied
  else
    let c1 := (c.putF F.TIM_SACT_STATE.PHASE 1 n).bump F.TIM_STATUS.SACT_USED
    match cls with
    | .past => c.finish portTim stPast
    | .far => c.finish portTim stFar
    | .now => (c1.sactWrite n stOk).finish portTim stOk
    | .late => (c1.sactWrite n stLate).finish portTim stLate
    | .ahead => c1.finish portTim stOk

/-- SCHED. -/
def execSched (n : Fin 16) (s : State) : Out := s.on (·.sched1 n.val)

/-- UNSCHED (R453). -/
def Chip.unsched (c : Chip) (n : Nat) : Chip := c.command portTim fun c =>
  if c.getF F.TIM_SACT_STATE.PHASE n = 1 then
    let c := { c with time := { c.time with late := c.time.late.filter (· != PendAct.sact n) } }
    (((c.putF F.TIM_SACT_STATE.PHASE 0 n).putF F.TIM_SACT_STATE.STATUS 0 n).sink F.TIM_STATUS.SACT_USED).finish portTim stOk
  else c.finish portTim stInvalid

/-- UNSCHED. -/
def execUnsched (n : Fin 16) (s : State) : Out := s.on (·.unsched n.val)

/-- HOST_TIMED_WRITE (R458, R460): at its time, or LATE after a STEP has passed it. (log entry 21 DEDUCED.) -/
def Chip.hostTimedWrite (c : Chip) (n : Nat) : Chip :=
  if c.getF F.TIM_SACT_STATE.PHASE n != 1 then c
  else if c.time.late.contains (.sact n) then c.sactWrite n stLate
  else if c.due (c.getQ F.TIM_SACT_TIME.V n) then c.sactWrite n stOk
  else c

/-- HOST_TIMED_WRITE. -/
def execHostTimedWrite (n : Fin 16) (s : State) : Out := s.on (·.hostTimedWrite n.val)

/-- SACT_STATE_READ (R466): the read answers the state; a finished entry is freed. -/
def Chip.sactStateRead (c : Chip) (n : Nat) : Chip :=
  let c' := { c with rdData := BitVec.ofNat 64 (c.rd (F.TIM_SACT_STATE.STATUS.addr n)).toNat }
  if c.getF F.TIM_SACT_STATE.PHASE n = 2 then
    (c'.putF F.TIM_SACT_STATE.PHASE 0 n).putF F.TIM_SACT_STATE.STATUS 0 n
  else c'

/-- SACT_STATE_READ. -/
def execSactStateRead (n : Fin 16) (s : State) : Out := s.on (·.sactStateRead n.val)

/-! ### Timing connector and path delay (R463, R464) -/

/-- PPS_OUT_EDGE (R464): the output rises with PPS_OUT_EN = 1, and falls. -/
def execPpsOutEdge (rise : Bool) (s : State) : Out := s.on fun c =>
  if rise then
    (if c.flag F.TIM_CTRL.PPS_OUT_EN then { c with time := { c.time with ppsOut := true } } else c)
  else { c with time := { c.time with ppsOut := false } }

/-- PPS_IN_EDGE (R464). (log entry 25 DEDUCED.) -/
def Chip.ppsIn (c : Chip) : Chip :=
  let early := match c.time.ppsInAt with
    | some t => decide (c.mt < t + 100000000)
    | none => false
  if !c.flag F.TIM_CTRL.PPS_IN_EN then c
  else
    let c1 := { c with time := { c.time with ppsInAt := some c.mt } }
    if early then c1 else (c1.putQ F.TIM_PPS_IN.V c.dtw).raise F.TIM_EVENTS.PPS_IN

/-- PPS_IN_EDGE. -/
def execPpsInEdge (s : State) : Out := s.on (·.ppsIn)

/-- PDELAY_WRITE (R463). -/
def Chip.pdelayWrite (c : Chip) (p v : Nat) : Chip :=
  let old := c.getF F.TIM_PORT_PDELAY.V p
  let lim := c.getF F.TIM_PDELAY_STEP.V * 2 ^ 16
  let c1 := c.putF F.TIM_PORT_PDELAY.V v p
  let diff := if old ≤ v then v - old else old - v
  if old != 0 && lim != 0 && decide (lim < diff) then
    ((c1.putF F.TIM_PORT_PDELAY_OLD.V old p).raise F.TIM_EVENTS.PDELAY_STEP).putF F.TIM_PORT_CTRL.STEP 1 p
  else c1

/-- PDELAY_WRITE. -/
def execPdelayWrite (p : Fin 512) (v : Word) (s : State) : Out := s.on (·.pdelayWrite p.val v.toNat)

end Sys2Proof.Machine
end

