-- ==== Sys2Proof/Machine/RegExec.lean ====
section
/-! DEFINITION. Commands that read and write BAR0 registers (R7 to R14, R512, R579). -/
namespace Sys2Proof.Machine
open Sys2Proof

/-! ### Writes -/

/-- TIM_CMD written (R453). -/
def Chip.timCommand (c : Chip) (v : Nat) : Chip :=
  match bitsOf 3 0 v with
  | 1 => c.timSetCmd
  | 2 => c.timStepCmd
  | 3 => c.invalidate
  | 4 => c.slewCmd
  | 5 => c.sched1 (bitsOf 7 4 v)
  | 6 => c.unsched (bitsOf 7 4 v)
  | _ => c.command portTim (·.finish portTim stInvalid)

/-- A 32-bit write in the time island's block (R451, R453, R463, R466). -/
def Chip.timWord (c : Chip) (a : Nat) (v : Word) (hw : Nat) : Chip :=
  if a = F.TIM_INCR.V.base then
    (c.incrWrite (v.toNat + 2 ^ 32 * ((c.stagedWord (a + 4)).toNat % 2 ^ 16))).unstage a 2
  else if a = F.TIM_CMD.OPCODE.base then c.timCommand v.toNat
  else match regAt a with
    | some r => if r.row.base = F.TIM_PORT_PDELAY.V.base then c.pdelayWrite r.i v.toNat else c.hostWord a v hw
    | none => c

/-- An aligned 32-bit host write of BAR0; `hw`: W1C bits that hardware sets in the same cycle (R12). Every SFL address counts as a
refused write (R589). (log entry 14 DEDUCED.) -/
def Chip.bar0Write (c : Chip) (a0 : Nat) (v : Word) (hw : Nat) : Chip :=
  let a := canonAddr a0
  if inSfl a then c.denied 0 a 0
  else if 0x40000 ≤ a ∧ a < 0x50000 then c.timWord a v hw
  else c.hostWord a v hw

/-- REGISTER_WRITE (R7, R9, R12): a 32-bit write; one that is not aligned is discarded and reported (R11). -/
def execRegisterWrite (addr : Fin 134217728) (val hw : Word) (s : State) : Out := s.on fun c =>
  if addr.val % 4 = 0 then c.bar0Write addr.val val hw.toNat else c.hostErr F.HST_ERR_CAUSE.BAD_WRITE 0 addr.val

/-- The address is the lowest word of a value of R13. -/
def wideLow (a : Nat) : Option RegAt :=
  match regAt (canonAddr a) with
  | some r => if r.word = 0 ∧ 1 < r.row.words then some r else none
  | none => none

/-- WIDE_HIGH_WORD_WRITE (R13): staged until the lowest word is written. -/
def execWideHighWordWrite (addr : Fin 134217728) (val : Word) (s : State) : Out := s.on fun c =>
  match regAt (canonAddr addr.val) with
  | some r => if r.word = 0 then c else c.bar0Write addr.val val 0
  | none => c

/-- WIDE_LOW_WORD_WRITE (R13): the whole value is applied at once. -/
def execWideLowWordWrite (addr : Fin 134217728) (val : Word) (s : State) : Out := s.on fun c =>
  if (wideLow addr.val).isSome then c.bar0Write addr.val val 0 else c

/-- BAR0_64BIT_WRITE (R11): two 32-bit writes, the lower address first; over the two lowest words of a value of R13 the higher
word is staged first. -/
def execBar064bitWrite (addr : Fin 134217728) (val : BitVec 64) (s : State) : Out := s.on fun c =>
  let lo : Word := val.truncate 32
  let hi : Word := (val >>> 32).truncate 32
  if addr.val % 8 ≠ 0 then c.hostErr F.HST_ERR_CAUSE.BAD_WRITE 0 addr.val
  else if (wideLow addr.val).isSome then (c.bar0Write (addr.val + 4) hi 0).bar0Write addr.val lo 0
  else (c.bar0Write addr.val lo 0).bar0Write (addr.val + 4) hi 0

/-- BAD_WRITE (R11, R512): any other write is discarded and reported. -/
def execBadWrite (addr : Fin 134217728) (s : State) : Out := s.on (·.hostErr F.HST_ERR_CAUSE.BAD_WRITE 0 addr.val)

/-- The command ports, by number: PLT, TIM, CLS, CLS ternary, gang, mailbox, table windows 0 to 3. -/
def portOf (n : Nat) : Port × Nat :=
  match n with
  | 0 => (portPlt, 0) | 1 => (portTim, 0) | 2 => (portCls, 0) | 3 => (portTcmd, 0) | 4 => (portGng, 0) | 5 => (portMbx, 0)
  | k => (portTw, k - 6)

/-- The address holds an SO field. (log entry 14 DEDUCED.) -/
def holdsSo (a : Nat) : Bool :=
  inSfl a || (match findReg a with | some r => r.flds.any (fun f => f.acc == .so) | none => false)

/-- DENIED_WRITE (R579): of an SO field, by a writer with a source code of R580; as part of a command, the command returns DENIED.
(log entry 24 DEDUCED.) -/
def execDeniedWrite (addr : Fin 134217728) (source : Fin 9) (ctx : Fin 1024) (cmd : Option (Fin 10)) (s : State) : Out :=
  s.on fun c =>
    if !holdsSo addr.val then c
    else match cmd with
      | none => c.denied source.val addr.val ctx.val
      | some p => c.finish (portOf p.val).1 stDenied (portOf p.val).2

/-! ### Reads -/

/-- The value of R13 at its lowest word is captured (R13); an RC value is cleared but for what `hw` counts in the same cycle (R12).
(log entry 11 DEDUCED.) -/
def Chip.wideRead (c : Chip) (r : RegAt) (a : Nat) (hw : Nat) : Chip :=
  let ks := List.range r.row.words
  let c1 := ks.foldl (fun c' k => if k = 0 then c' else
    { c' with wideCap := smPut c'.wideCap (a + 4 * k) (c.viewReg (a + 4 * k)) }) c
  let c1 := { c1 with rdData := BitVec.ofNat 64 ((c.viewReg a).toNat + 2 ^ 32 * (c.viewReg (a + 4)).toNat) }
  if !r.row.allAcc .rc then c1
  else
    let c1 := ks.foldl (fun c k => c.wr (a + 4 * k) (BitVec.ofNat 32 (hw / 2 ^ (32 * k)))) c1
    if r.row.base = F.SFL_LAST_DENIED0.ADDR.base then { c1 with sfl := { c1.sfl with deniedArmed := hw == 0 } } else c1

/-- WIDE_LOW_WORD_READ (R13). -/
def execWideLowWordRead (addr : Fin 134217728) (hw : BitVec 64) (s : State) : Out := s.on fun c =>
  match wideLow addr.val with
  | some r => if c.readGated addr.val then { c with rdData := 0 } else c.wideRead r (canonAddr addr.val) hw.toNat
  | none => c

/-- What an RC register of one word holds after a read with `hw` counted in the same cycle (R9, R12, R416).
(log entries 12 DESIGN CHOICE, 15 DEDUCED.) -/
def Chip.rcClear (c : Chip) (r : RegAt) (a hw : Nat) : Chip :=
  let kept := Nat.land hw (r.row.mask .rc)
  if r.row.base = F.TMG_FREE_MIN.V.base then
    c.putF F.TMG_FREE_MIN.V (if kept = 0 then c.getF F.TMG_FREE.V else min kept (c.getF F.TMG_FREE.V))
  else
    let c := if r.row.base = F.SFL_EVENTS.TRIP.base then
        (List.range 5).foldl (fun c b => if bitOf b kept then c.sflEvent ⟨r.row.base, 0, 0, b, b⟩ else c) c
      else c
    let c := if r.row.base = F.MGT_SNS_RANGE.HI.base then
        { c with mgt := { c.mgt with rangeSeen := smSet (fun _ => false) c.mgt.rangeSeen r.i (kept != 0) } }
      else c
    c.wr a (BitVec.ofNat 32 kept)

/-- RC_READ (R9, R12). -/
def execRcRead (addr : Fin 134217728) (hw : Word) (s : State) : Out := s.on fun c =>
  let a := canonAddr addr.val
  match regAt a with
  | some r =>
    if r.row.words ≠ 1 ∨ !r.row.allAcc .rc then c
    else if c.readGated a then { c with rdData := 0 }
    else ({ c with rdData := BitVec.ofNat 64 (c.viewReg a).toNat }).rcClear r a hw.toNat
  | none => c

/-- BAD_READ (R11, R512). -/
def execBadRead (addr : Fin 134217728) (s : State) : Out := s.on fun c =>
  { c.hostErr F.HST_ERR_CAUSE.BAD_READ 0 addr.val with rdData := 0xFFFFFFFF }

end Sys2Proof.Machine
end

