-- ==== Sys2Proof/Machine/SiteExec.lean ====
section
/-! DEFINITION. Commands of the module sites. -/
namespace Sys2Proof.Machine
open Sys2Proof

/-- MODULE_INSERT (R126). -/
def execModuleInsert (site : Fin 128) (s : State) : Out := s.onAny (·.moduleInsert site.val)
/-- MODULE_REMOVE (R126). -/
def execModuleRemove (site : Fin 128) (s : State) : Out := s.onAny (·.moduleRemove site.val)
/-- RESET_PULSE_END (R126). -/
def execResetPulseEnd (site : Fin 128) (s : State) : Out := s.on (·.resetPulseEnd site.val)
/-- ADDRESS_POLL (R126): the module's answer: whether it is a CMIS module, its revision and MaxPower. -/
def execAddressPoll (site : Fin 128) (resp : Option (Bool × Nat × Nat)) (s : State) : Out := s.on (·.addressPoll site.val resp)
/-- NO_RESPONSE (R126). -/
def execNoResponse (site : Fin 128) (s : State) : Out := s.on (·.noResponse site.val)
/-- SITE_FAULT_RETRY (R126). -/
def execSiteFaultRetry (site : Fin 128) (s : State) : Out := s.on (·.siteRetry site.val)
/-- CMIS_TRANSACTION_DONE (R127): 0 ModuleReady read, 1 DataPathActivated read, 2 data path deactivated. -/
def execCmisTransactionDone (site : Fin 128) (what : Fin 3) (s : State) : Out := s.on (·.cmisDone site.val what.val)
/-- INTL_FALL (R129): the 32 latched-flag bytes the module holds. (log entry 35 DEDUCED.) -/
def execIntlFall (site : Fin 128) (flags : Bytes) (s : State) : Out := s.on (·.intlFall site.val flags)
/-- MONITOR_POLL (R126). -/
def execMonitorPoll (site : Fin 128) (temp vcc : Fin 65536) (s : State) : Out := s.on (·.monitorPoll site.val temp.val vcc.val)
/-- BUS_RECOVERY (R126). -/
def execBusRecovery (site : Fin 128) (s : State) : Out := s.on (·.raise F.PRT_SITE_EVENTS.BUS_STUCK site.val)
/-- XFER_GO (R128): a write of GO with DIR. -/
def execXferGo (site : Fin 128) (write : Bool) (s : State) : Out := s.on (·.xferGo site.val write)
/-- XFER_DONE (R128): OK or TIMEOUT, the bytes read, and the latched flags among them at their places.
(log entry 44 DESIGN CHOICE.) -/
def execXferDone (site : Fin 128) (ok : Bool) (data flags : Bytes) (s : State) : Out :=
  s.on (·.xferDone site.val ok data flags)

end Sys2Proof.Machine
end

