-- ==== Sys2Proof/Machine/TelExec.lean ====
section
/-! DEFINITION. Commands of telemetry (R471 to R490). -/
namespace Sys2Proof.Machine
open Sys2Proof

/-- EV_FREEZE (R472): TEL_EV_CTRL.FREEZE is written. -/
def execEvFreeze (freeze : Bool) (s : State) : Out := s.on (·.putF F.TEL_EV_CTRL.FREEZE (b2n freeze))
/-- EV_CLEAR (R472): event counter `n`. -/
def execEvClear (n : Fin 4096) (s : State) : Out := s.on (·.evClear n.val)
/-- PORT_STATS_CLEAR (R470). -/
def execPortStatsClear (p : Fin 512) (s : State) : Out := s.on (·.statsClear p.val)
/-- TS_FORCE (R479): the next first-pass packet of a port is selected. -/
def execTsForce (port : Fin 512) (s : State) : Out := s.on fun c =>
  (c.putF F.TEL_TS_FORCE.PORT port.val).putF F.TEL_TS_FORCE.GO 1
/-- TS_SEED_WRITE (R479). -/
def execTsSeedWrite (v : Word) (s : State) : Out := s.on fun c => (c.putF F.TEL_TS_SEED.V v.toNat).tsSeed
/-- STRIP_TIMEOUT (R481): 2 s after the ingress stamp of packet `pid`. -/
def execStripTimeout (pid : Nat) (s : State) : Out := s.on (·.stripTimeout pid)
/-- EXPORT_SCAN_VISIT (R485): the scan reads the next bucket of an engine. -/
def execExportScanVisit (eng : Fin 128) (ecc : Fin 3) (s : State) : Out := s.on fun c => (c.scanVisit eng.val ecc.val).flush
/-- EXPORT_RECORD_OUT (R486): the head of the export queue leaves. -/
def execExportRecordOut (s : State) : Out := s.on Chip.exportOut
/-- IPFIX_FLUSH (R487): the oldest record of the open message has waited its time. -/
def execIpfixFlush (s : State) : Out := s.on Chip.flushMsg
/-- TEMPLATE_REFRESH (R487). -/
def execTemplateRefresh (s : State) : Out := s.on Chip.templateRefresh

end Sys2Proof.Machine
end

