-- ==== Sys2Proof/Machine/TmExec.lean ====
section
/-! DEFINITION. Commands of the traffic manager and the scheduler. -/
namespace Sys2Proof.Machine
open Sys2Proof

/-! ### Admission and recirculation (R394 to R410) -/

/-- ADMIT_COPY (R394): packet `pid` meets admission. -/
def execAdmitCopy (pid : Nat) (s : State) : Out := s.on (·.admitCmd pid)
/-- RESIDUE_RETRY (R410): the port's oldest residue copy is evaluated again. -/
def execResidueRetry (port : Fin 512) (s : State) : Out := s.on (·.residueRetry port.val)
/-- RESIDUE_TIMEOUT (R410): copy `cid` of packet `pid` has waited TMG_RESIDUE_TIMEOUT. -/
def execResidueTimeout (pid cid : Nat) (s : State) : Out := s.on (·.residueTimeout pid cid)
/-- RECIRC_ENQUEUE (R399). -/
def execRecircEnqueue (pid : Nat) (s : State) : Out := s.on (·.recircEnqueue pid)
/-- RECIRC_HANDOFF (R400). -/
def execRecircHandoff (slice : Fin 16) (s : State) : Out := s.on (·.recircHandoff slice.val)
/-- PFC_FRAME_SEND (R403): the port is at a frame boundary. -/
def execPfcFrameSend (port : Fin 512) (s : State) : Out := s.on fun c =>
  if (c.portSt port.val).txBusy.isNone then c.pfcSend port.val else c
/-- PFC_REFRESH (R403). -/
def execPfcRefresh (port : Fin 512) (s : State) : Out := s.on (·.pfcRefresh port.val)
/-- UNBIND_NOTICE (R406): from the engines of gang device `dev`. -/
def execUnbindNotice (dev : Fin 4) (handle : Fin 262144) (s : State) : Out := s.on (·.unbind dev.val handle.val)

/-! ### Scheduling (R424 to R444, R468) -/

/-- SCHED_DECISION (R426): an instant at which the port can begin a frame. -/
def execSchedDecision (port : Fin 512) (s : State) : Out := s.on (·.schedDecision port.val)
/-- FRAME_TRANSMITTED (R468, R412). -/
def execFrameTransmitted (port : Fin 512) (s : State) : Out := s.on (·.frameTransmitted port.val)
/-- SHAPER_UPDATE (R429): level 0 queue `n`, 1 class 16 × port + class, 2 port `n`. -/
def execShaperUpdate (level : Fin 3) (n : Nat) (s : State) : Out := s.on (·.shaperUpdate level.val n)
/-- SHAPER_CONFIG_WRITE (R431): a write of a register of shaper (level, n) that sets its tokens: RATE 0, BURST 1 (with the
bits a queue shaper keeps beside it), or, for a class or port shaper, its configuration register 2. -/
def execShaperConfigWrite (level : Fin 3) (n : Nat) (reg : Fin 3) (v : Word) (s : State) : Out :=
  s.on (·.shaperWrite level.val n reg.val v.toNat)
/-- GATE_CHANGE (R437): the entry in force and its gates are applied. -/
def execGateChange (port : Fin 512) (s : State) : Out := s.on (·.gateShow port.val)
/-- GATE_START (R441). -/
def execGateStart (port : Fin 512) (oneshot : Bool) (s : State) : Out := s.on (·.gateStartCmd port.val oneshot)
/-- GATE_CANCEL (R441). -/
def execGateCancel (port : Fin 512) (s : State) : Out := s.on (·.gateCancelCmd port.val)
/-- GATE_STOP (R441). -/
def execGateStop (port : Fin 512) (s : State) : Out := s.on (·.gateStopCmd port.val)
/-- PENDING_LIST_START (R441). -/
def execPendingListStart (port : Fin 512) (s : State) : Out := s.on (·.pendStart port.val)
/-- GATE_LIST_END (R437). -/
def execGateListEnd (port : Fin 512) (s : State) : Out := s.on (·.gateEnd port.val)
/-- OBS_TICK (R444). -/
def execObsTick (s : State) : Out := s.on Chip.obsTick
/-- OBS_MODE_WRITE (R442). -/
def execObsModeWrite (mode : Bool) (s : State) : Out := s.on (·.setObs (·.putF F.SCH_OBS_CTRL.MODE (b2n mode)))

end Sys2Proof.Machine
end

