-- ==== Sys2Proof/Machine/Dispatch.lean ====
section
/-! DEFINITION. Which meaning each command has. -/
namespace Sys2Proof.Machine
open Sys2Proof

/-- The effect of a command on everything but the queue. -/
def exec (i : Instr) (s : State) : Host.Outcome State Fault Refusal :=
  match i with
  | .registerWrite addr val hw => Sys2Proof.Machine.execRegisterWrite addr val hw s
  | .wideLowWordRead addr hw => Sys2Proof.Machine.execWideLowWordRead addr hw s
  | .wideHighWordWrite addr val => Sys2Proof.Machine.execWideHighWordWrite addr val s
  | .wideLowWordWrite addr val => Sys2Proof.Machine.execWideLowWordWrite addr val s
  | .bar064bitWrite addr val => Sys2Proof.Machine.execBar064bitWrite addr val s
  | .badWrite addr => Sys2Proof.Machine.execBadWrite addr s
  | .badRead addr => Sys2Proof.Machine.execBadRead addr s
  | .rcRead addr hw => Sys2Proof.Machine.execRcRead addr hw s
  | .deniedWrite addr source ctx cmd => Sys2Proof.Machine.execDeniedWrite addr source ctx cmd s
  | .vsbRise => Sys2Proof.Machine.execVsbRise s
  | .vsbLoss => Sys2Proof.Machine.execVsbLoss s
  | .vinQualified => Sys2Proof.Machine.execVinQualified s
  | .vinLoss => Sys2Proof.Machine.execVinLoss s
  | .vinOver mv => Sys2Proof.Machine.execVinOver mv s
  | .deviceReset key => Sys2Proof.Machine.execDeviceReset key s
  | .fundamentalReset => Sys2Proof.Machine.execFundamentalReset s
  | .hotReset flr link => Sys2Proof.Machine.execHotReset flr link s
  | .busMasterDisable => Sys2Proof.Machine.execBusMasterDisable s
  | .fullLoad masks => Sys2Proof.Machine.execFullLoad masks s
  | .unrecoverableFault sfl => Sys2Proof.Machine.execUnrecoverableFault sfl s
  | .timeTick => Sys2Proof.Machine.execTimeTick s
  | .incrWrite v => Sys2Proof.Machine.execIncrWrite v s
  | .refLost => Sys2Proof.Machine.execRefLost s
  | .refLock => Sys2Proof.Machine.execRefLock s
  | .set => Sys2Proof.Machine.execSet s
  | .step => Sys2Proof.Machine.execStep s
  | .invalidate => Sys2Proof.Machine.execInvalidate s
  | .slew => Sys2Proof.Machine.execSlew s
  | .sched n => Sys2Proof.Machine.execSched n s
  | .unsched n => Sys2Proof.Machine.execUnsched n s
  | .hostTimedWrite n => Sys2Proof.Machine.execHostTimedWrite n s
  | .sactStateRead n => Sys2Proof.Machine.execSactStateRead n s
  | .ppsOutEdge rise => Sys2Proof.Machine.execPpsOutEdge rise s
  | .ppsInEdge => Sys2Proof.Machine.execPpsInEdge s
  | .pdelayWrite p v => Sys2Proof.Machine.execPdelayWrite p v s
  | .verify => Sys2Proof.Machine.execVerify s
  | .writeSlot slot => Sys2Proof.Machine.execWriteSlot slot s
  | .selectBoot slot => Sys2Proof.Machine.execSelectBoot slot s
  | .stopBath unit inst source timed => Sys2Proof.Machine.execStopBath unit inst source timed s
  | .adopt raise => Sys2Proof.Machine.execAdopt raise s
  | .abandon => Sys2Proof.Machine.execAbandon s
  | .loadStaged masks => Sys2Proof.Machine.execLoadStaged masks s
  | .cancel entry => Sys2Proof.Machine.execCancel entry s
  | .stopBathStart entry => Sys2Proof.Machine.execStopBathStart entry s
  | .stopBathDrained entry => Sys2Proof.Machine.execStopBathDrained entry s
  | .stopBathApplied entry => Sys2Proof.Machine.execStopBathApplied entry s
  | .stopBathRestarted entry masks => Sys2Proof.Machine.execStopBathRestarted entry masks s
  | .drainTimeout entry => Sys2Proof.Machine.execDrainTimeout entry s
  | .sbStateRead entry => Sys2Proof.Machine.execSbStateRead entry s
  | .laneEnable lane b => Sys2Proof.Machine.execLaneEnable lane b s
  | .restart lane => Sys2Proof.Machine.execRestart lane s
  | .capClear lane => Sys2Proof.Machine.execCapClear lane s
  | .pinTestDone lane tx rx => Sys2Proof.Machine.execPinTestDone lane tx rx s
  | .pinFault lane tx rx => Sys2Proof.Machine.execPinFault lane tx rx s
  | .faultRetest lane => Sys2Proof.Machine.execFaultRetest lane s
  | .retest lane => Sys2Proof.Machine.execRetest lane s
  | .setTx lane => Sys2Proof.Machine.execSetTx lane s
  | .capSet lane g => Sys2Proof.Machine.execCapSet lane g s
  | .ackSet lane g => Sys2Proof.Machine.execAckSet lane g s
  | .stepSet lane g => Sys2Proof.Machine.execStepSet lane g s
  | .qualSet lane g => Sys2Proof.Machine.execQualSet lane g s
  | .holdSet lane g => Sys2Proof.Machine.execHoldSet lane g s
  | .abortSet lane g => Sys2Proof.Machine.execAbortSet lane g s
  | .upSet lane g => Sys2Proof.Machine.execUpSet lane g s
  | .stepSwitch lane => Sys2Proof.Machine.execStepSwitch lane s
  | .stepAcquired lane => Sys2Proof.Machine.execStepAcquired lane s
  | .acquisitionTimeout lane => Sys2Proof.Machine.execAcquisitionTimeout lane s
  | .qualWindowEnd lane errs aligned => Sys2Proof.Machine.execQualWindowEnd lane errs aligned s
  | .stepTimeout lane => Sys2Proof.Machine.execStepTimeout lane s
  | .backoffEnd lane => Sys2Proof.Machine.execBackoffEnd lane s
  | .signalRise lane => Sys2Proof.Machine.execSignalRise lane s
  | .linkLost lane => Sys2Proof.Machine.execLinkLost lane s
  | .ieeeTrainingDone lane ffe => Sys2Proof.Machine.execIeeeTrainingDone lane ffe s
  | .ieeeTrainingTimeout lane heard => Sys2Proof.Machine.execIeeeTrainingTimeout lane heard s
  | .idleRunFreeze lane => Sys2Proof.Machine.execIdleRunFreeze lane s
  | .adaptResume lane => Sys2Proof.Machine.execAdaptResume lane s
  | .resetAdapt lane => Sys2Proof.Machine.execResetAdapt lane s
  | .ffeWrite lane v => Sys2Proof.Machine.execFfeWrite lane v s
  | .pgEnable lane b => Sys2Proof.Machine.execPgEnable lane b s
  | .checkerLock lane => Sys2Proof.Machine.execCheckerLock lane s
  | .checkerLockLost lane bits errs => Sys2Proof.Machine.execCheckerLockLost lane bits errs s
  | .pcClear lane => Sys2Proof.Machine.execPcClear lane s
  | .injOne lane => Sys2Proof.Machine.execInjOne lane s
  | .periodicInjection lane => Sys2Proof.Machine.execPeriodicInjection lane s
  | .alignModeSet lane b => Sys2Proof.Machine.execAlignModeSet lane b s
  | .bitslip lane => Sys2Proof.Machine.execBitslip lane s
  | .capture lane w => Sys2Proof.Machine.execCapture lane w s
  | .polarityInversion lane => Sys2Proof.Machine.execPolarityInversion lane s
  | .laneDimEnter lane tx => Sys2Proof.Machine.execLaneDimEnter lane tx s
  | .laneWake lane => Sys2Proof.Machine.execLaneWake lane s
  | .laneResumed lane tx => Sys2Proof.Machine.execLaneResumed lane tx s
  | .portGiveup port => Sys2Proof.Machine.execPortGiveup port s
  | .reform port => Sys2Proof.Machine.execReform port s
  | .lpiEnter port => Sys2Proof.Machine.execLpiEnter port s
  | .lpiExit port => Sys2Proof.Machine.execLpiExit port s
  | .lpiWakeDone port => Sys2Proof.Machine.execLpiWakeDone port s
  | .frameHead port head => Sys2Proof.Machine.execFrameHead port head s
  | .frameCellWriteStart port => Sys2Proof.Machine.execFrameCellWriteStart port s
  | .frameToPipe pid first len => Sys2Proof.Machine.execFrameToPipe pid first len s
  | .frameTail port fr err => Sys2Proof.Machine.execFrameTail port fr err s
  | .cvuRunWrite port dir v => Sys2Proof.Machine.execCvuRunWrite port dir v s
  | .pauseFrame port fr => Sys2Proof.Machine.execPauseFrame port fr s
  | .pfcFrame port fr => Sys2Proof.Machine.execPfcFrame port fr s
  | .pauseExpiry port cls => Sys2Proof.Machine.execPauseExpiry port cls s
  | .moduleInsert site => Sys2Proof.Machine.execModuleInsert site s
  | .moduleRemove site => Sys2Proof.Machine.execModuleRemove site s
  | .resetPulseEnd site => Sys2Proof.Machine.execResetPulseEnd site s
  | .addressPoll site resp => Sys2Proof.Machine.execAddressPoll site resp s
  | .noResponse site => Sys2Proof.Machine.execNoResponse site s
  | .siteFaultRetry site => Sys2Proof.Machine.execSiteFaultRetry site s
  | .cmisTransactionDone site what => Sys2Proof.Machine.execCmisTransactionDone site what s
  | .intlFall site flags => Sys2Proof.Machine.execIntlFall site flags s
  | .monitorPoll site temp vcc => Sys2Proof.Machine.execMonitorPoll site temp vcc s
  | .busRecovery site => Sys2Proof.Machine.execBusRecovery site s
  | .xferGo site write => Sys2Proof.Machine.execXferGo site write s
  | .xferDone site ok data flags => Sys2Proof.Machine.execXferDone site ok data flags s
  | .nop pid => Sys2Proof.Machine.execNop pid s
  | .ext pid => Sys2Proof.Machine.execExt pid s
  | .mark pid => Sys2Proof.Machine.execMark pid s
  | .lchk pid => Sys2Proof.Machine.execLchk pid s
  | .kcommit pid => Sys2Proof.Machine.execKcommit pid s
  | .alu pid => Sys2Proof.Machine.execAlu pid s
  | .setf pid => Sys2Proof.Machine.execSetf pid s
  | .lvl pid => Sys2Proof.Machine.execLvl pid s
  | .classifyPass pid ecc => Sys2Proof.Machine.execClassifyPass pid ecc s
  | .flowOpRelease pid => Sys2Proof.Machine.execFlowOpRelease pid s
  | .stageAdd region => Sys2Proof.Machine.execStageAdd region s
  | .stageDel region => Sys2Proof.Machine.execStageDel region s
  | .stageMod region => Sys2Proof.Machine.execStageMod region s
  | .fix timed => Sys2Proof.Machine.execFix timed s
  | .latentAbandon => Sys2Proof.Machine.execLatentAbandon s
  | .cancelFix => Sys2Proof.Machine.execCancelFix s
  | .lookup region => Sys2Proof.Machine.execLookup region s
  | .fixExecute => Sys2Proof.Machine.execFixExecute s
  | .fixHoldTimeout => Sys2Proof.Machine.execFixHoldTimeout s
  | .versionRetire => Sys2Proof.Machine.execVersionRetire s
  | .tstageAdd profile => Sys2Proof.Machine.execTstageAdd profile s
  | .tstageDel profile => Sys2Proof.Machine.execTstageDel profile s
  | .tstageMod profile => Sys2Proof.Machine.execTstageMod profile s
  | .tlookup profile byKey => Sys2Proof.Machine.execTlookup profile byKey s
  | .rebalance profile => Sys2Proof.Machine.execRebalance profile s
  | .ternaryScrub profile pos uncorr => Sys2Proof.Machine.execTernaryScrub profile pos uncorr s
  | .ternaryBankGate bank => Sys2Proof.Machine.execTernaryBankGate bank s
  | .patternScanStart pid => Sys2Proof.Machine.execPatternScanStart pid s
  | .patternReport eng found err line => Sys2Proof.Machine.execPatternReport eng found err line s
  | .patternWaitTimeout pid => Sys2Proof.Machine.execPatternWaitTimeout pid s
  | .patternLineReloaded line => Sys2Proof.Machine.execPatternLineReloaded line s
  | .patternEngineGate eng => Sys2Proof.Machine.execPatternEngineGate eng s
  | .pktOp eng ecc => Sys2Proof.Machine.execPktOp eng ecc s
  | .rmtOp port fr ecc => Sys2Proof.Machine.execRmtOp port fr ecc s
  | .rdOp eng ecc => Sys2Proof.Machine.execRdOp eng ecc s
  | .prep eng ecc => Sys2Proof.Machine.execPrep eng ecc s
  | .apply eng => Sys2Proof.Machine.execApply eng s
  | .drop eng => Sys2Proof.Machine.execDrop eng s
  | .sweepOp eng bucket ecc => Sys2Proof.Machine.execSweepOp eng bucket ecc s
  | .hrd eng ecc => Sys2Proof.Machine.execHrd eng ecc s
  | .hdel eng ecc => Sys2Proof.Machine.execHdel eng ecc s
  | .hins eng ecc => Sys2Proof.Machine.execHins eng ecc s
  | .replOp port fr => Sys2Proof.Machine.execReplOp port fr s
  | .tailStatusReport pid good => Sys2Proof.Machine.execTailStatusReport pid good s
  | .missQueueGrant eng => Sys2Proof.Machine.execMissQueueGrant eng s
  | .tagLinesArrived eng n err => Sys2Proof.Machine.execTagLinesArrived eng n err s
  | .recordFill eng n err ecc => Sys2Proof.Machine.execRecordFill eng n err ecc s
  | .wayAvailable eng => Sys2Proof.Machine.execWayAvailable eng s
  | .opReplay eng ecc => Sys2Proof.Machine.execOpReplay eng ecc s
  | .opDeadline eng n => Sys2Proof.Machine.execOpDeadline eng n s
  | .setupItemOffer eng => Sys2Proof.Machine.execSetupItemOffer eng s
  | .setupEndReport => Sys2Proof.Machine.execSetupEndReport s
  | .hcGo eng => Sys2Proof.Machine.execHcGo eng s
  | .meterRefresh eng => Sys2Proof.Machine.execMeterRefresh eng s
  | .sweepTick => Sys2Proof.Machine.execSweepTick s
  | .add ctx unitB => Sys2Proof.Machine.execAdd ctx unitB s
  | .sub ctx unitB => Sys2Proof.Machine.execSub ctx unitB s
  | .and ctx unitB => Sys2Proof.Machine.execAnd ctx unitB s
  | .or ctx unitB => Sys2Proof.Machine.execOr ctx unitB s
  | .xor ctx unitB => Sys2Proof.Machine.execXor ctx unitB s
  | .shl ctx unitB => Sys2Proof.Machine.execShl ctx unitB s
  | .shr ctx unitB => Sys2Proof.Machine.execShr ctx unitB s
  | .mov ctx unitB => Sys2Proof.Machine.execMov ctx unitB s
  | .cmp ctx unitB => Sys2Proof.Machine.execCmp ctx unitB s
  | .extr ctx unitB => Sys2Proof.Machine.execExtr ctx unitB s
  | .ins ctx unitB => Sys2Proof.Machine.execIns ctx unitB s
  | .mul ctx unitB => Sys2Proof.Machine.execMul ctx unitB s
  | .modu ctx unitB => Sys2Proof.Machine.execModu ctx unitB s
  | .ldlc ctx unitB => Sys2Proof.Machine.execLdlc ctx unitB s
  | .minu ctx unitB => Sys2Proof.Machine.execMinu ctx unitB s
  | .sld ctx => Sys2Proof.Machine.execSld ctx s
  | .sst ctx => Sys2Proof.Machine.execSst ctx s
  | .cpy ctx => Sys2Proof.Machine.execCpy ctx s
  | .cld ctx => Sys2Proof.Machine.execCld ctx s
  | .rd ctx => Sys2Proof.Machine.execRd ctx s
  | .rdAnswer ctx => Sys2Proof.Machine.execRdAnswer ctx s
  | .wrec ctx => Sys2Proof.Machine.execWrec ctx s
  | .drd ctx => Sys2Proof.Machine.execDrd ctx s
  | .drdw ctx => Sys2Proof.Machine.execDrdw ctx s
  | .drdDataArrived ctx err => Sys2Proof.Machine.execDrdDataArrived ctx err s
  | .wkeep ctx => Sys2Proof.Machine.execWkeep ctx s
  | .dwr ctx => Sys2Proof.Machine.execDwr ctx s
  | .cadd ctx => Sys2Proof.Machine.execCadd ctx s
  | .hash ctx => Sys2Proof.Machine.execHash ctx s
  | .canon ctx => Sys2Proof.Machine.execCanon ctx s
  | .crcs ctx => Sys2Proof.Machine.execCrcs ctx s
  | .kcmp ctx => Sys2Proof.Machine.execKcmp ctx s
  | .poolp ctx => Sys2Proof.Machine.execPoolp ctx s
  | .poola ctx => Sys2Proof.Machine.execPoola ctx s
  | .nats ctx => Sys2Proof.Machine.execNats ctx s
  | .natx ctx => Sys2Proof.Machine.execNatx ctx s
  | .kbld ctx => Sys2Proof.Machine.execKbld ctx s
  | .tplr ctx => Sys2Proof.Machine.execTplr ctx s
  | .init ctx => Sys2Proof.Machine.execInit ctx s
  | .feed ctx => Sys2Proof.Machine.execFeed ctx s
  | .out ctx => Sys2Proof.Machine.execOut ctx s
  | .pktOut ctx => Sys2Proof.Machine.execPktOut ctx s
  | .pktIn ctx => Sys2Proof.Machine.execPktIn ctx s
  | .item ctx => Sys2Proof.Machine.execItem ctx s
  | .host ctx => Sys2Proof.Machine.execHost ctx s
  | .timFt ctx => Sys2Proof.Machine.execTimFt ctx s
  | .timDt ctx => Sys2Proof.Machine.execTimDt ctx s
  | .timDtw ctx => Sys2Proof.Machine.execTimDtw ctx s
  | .timAfter ctx => Sys2Proof.Machine.execTimAfter ctx s
  | .seq ctx ecc => Sys2Proof.Machine.execSeq ctx ecc s
  | .br ctx ecc => Sys2Proof.Machine.execBr ctx ecc s
  | .call ctx ecc => Sys2Proof.Machine.execCall ctx ecc s
  | .ret ctx ecc => Sys2Proof.Machine.execRet ctx ecc s
  | .loop ctx ecc => Sys2Proof.Machine.execLoop ctx ecc s
  | .commit ctx ecc => Sys2Proof.Machine.execCommit ctx ecc s
  | .prepAnswer ctx => Sys2Proof.Machine.execPrepAnswer ctx s
  | .commitPoint => Sys2Proof.Machine.execCommitPoint s
  | .abort ctx ecc => Sys2Proof.Machine.execAbort ctx ecc s
  | .routineWallTimeout ctx => Sys2Proof.Machine.execRoutineWallTimeout ctx s
  | .kill ctx => Sys2Proof.Machine.execKill ctx s
  | .killAll cluster => Sys2Proof.Machine.execKillAll cluster s
  | .hold cluster b => Sys2Proof.Machine.execHold cluster b s
  | .itemBind cluster => Sys2Proof.Machine.execItemBind cluster s
  | .routineEnd ctx => Sys2Proof.Machine.execRoutineEnd ctx s
  | .freezeWindow => Sys2Proof.Machine.execFreezeWindow s
  | .dispatchTimerFire timer => Sys2Proof.Machine.execDispatchTimerFire timer s
  | .hpostGo cls hash => Sys2Proof.Machine.execHpostGo cls hash s
  | .clusterWake cls => Sys2Proof.Machine.execClusterWake cls s
  | .clusterAwake cluster => Sys2Proof.Machine.execClusterAwake cluster s
  | .clusterGate cluster => Sys2Proof.Machine.execClusterGate cluster s
  | .dramRequest req port addr len write data => Sys2Proof.Machine.execDramRequest req port addr len write data s
  | .dramCommandSlot pc => Sys2Proof.Machine.execDramCommandSlot pc s
  | .dramCompletion id ecc syn => Sys2Proof.Machine.execDramCompletion id ecc syn s
  | .stackParityError ch wr addr syn => Sys2Proof.Machine.execStackParityError ch wr addr syn s
  | .refreshDue pc => Sys2Proof.Machine.execRefreshDue pc s
  | .tempReading stack t => Sys2Proof.Machine.execTempReading stack t s
  | .scrubRead ecc syn => Sys2Proof.Machine.execScrubRead ecc syn s
  | .train stack => Sys2Proof.Machine.execTrain stack s
  | .trainingDone ch masks => Sys2Proof.Machine.execTrainingDone ch masks s
  | .trackingRun pc masks => Sys2Proof.Machine.execTrackingRun pc masks s
  | .rateChange stack rate => Sys2Proof.Machine.execRateChange stack rate s
  | .freqDone stack => Sys2Proof.Machine.execFreqDone stack s
  | .powerDownEntry pc => Sys2Proof.Machine.execPowerDownEntry pc s
  | .powerDownExit pc => Sys2Proof.Machine.execPowerDownExit pc s
  | .selfRefreshEntry ch => Sys2Proof.Machine.execSelfRefreshEntry ch s
  | .selfRefreshExit ch => Sys2Proof.Machine.execSelfRefreshExit ch s
  | .release ch ok => Sys2Proof.Machine.execRelease ch ok s
  | .fence mask => Sys2Proof.Machine.execFence mask s
  | .fenceDone => Sys2Proof.Machine.execFenceDone s
  | .admitCopy pid => Sys2Proof.Machine.execAdmitCopy pid s
  | .residueRetry port => Sys2Proof.Machine.execResidueRetry port s
  | .residueTimeout pid cid => Sys2Proof.Machine.execResidueTimeout pid cid s
  | .recircEnqueue pid => Sys2Proof.Machine.execRecircEnqueue pid s
  | .recircHandoff slice => Sys2Proof.Machine.execRecircHandoff slice s
  | .pfcFrameSend port => Sys2Proof.Machine.execPfcFrameSend port s
  | .pfcRefresh port => Sys2Proof.Machine.execPfcRefresh port s
  | .unbindNotice dev handle => Sys2Proof.Machine.execUnbindNotice dev handle s
  | .schedDecision port => Sys2Proof.Machine.execSchedDecision port s
  | .frameTransmitted port => Sys2Proof.Machine.execFrameTransmitted port s
  | .shaperUpdate level n => Sys2Proof.Machine.execShaperUpdate level n s
  | .shaperConfigWrite level n reg v => Sys2Proof.Machine.execShaperConfigWrite level n reg v s
  | .gateChange port => Sys2Proof.Machine.execGateChange port s
  | .gateStart port oneshot => Sys2Proof.Machine.execGateStart port oneshot s
  | .gateCancel port => Sys2Proof.Machine.execGateCancel port s
  | .gateStop port => Sys2Proof.Machine.execGateStop port s
  | .pendingListStart port => Sys2Proof.Machine.execPendingListStart port s
  | .gateListEnd port => Sys2Proof.Machine.execGateListEnd port s
  | .obsTick => Sys2Proof.Machine.execObsTick s
  | .obsModeWrite mode => Sys2Proof.Machine.execObsModeWrite mode s
  | .evFreeze freeze => Sys2Proof.Machine.execEvFreeze freeze s
  | .evClear n => Sys2Proof.Machine.execEvClear n s
  | .portStatsClear p => Sys2Proof.Machine.execPortStatsClear p s
  | .tsForce port => Sys2Proof.Machine.execTsForce port s
  | .tsSeedWrite v => Sys2Proof.Machine.execTsSeedWrite v s
  | .stripTimeout pid => Sys2Proof.Machine.execStripTimeout pid s
  | .exportScanVisit eng ecc => Sys2Proof.Machine.execExportScanVisit eng ecc s
  | .exportRecordOut => Sys2Proof.Machine.execExportRecordOut s
  | .ipfixFlush => Sys2Proof.Machine.execIpfixFlush s
  | .templateRefresh => Sys2Proof.Machine.execTemplateRefresh s
  | .bar2Read offset n => Sys2Proof.Machine.execBar2Read offset n s
  | .bar2Write offset data en => Sys2Proof.Machine.execBar2Write offset data en s
  | .twRead w table => Sys2Proof.Machine.execTwRead w table s
  | .twWrite w table => Sys2Proof.Machine.execTwWrite w table s
  | .twDelete w table => Sys2Proof.Machine.execTwDelete w table s
  | .twInsert w table => Sys2Proof.Machine.execTwInsert w table s
  | .twTimeout w => Sys2Proof.Machine.execTwTimeout w s
  | .ringDoorbell ring tail => Sys2Proof.Machine.execRingDoorbell ring tail s
  | .ringEnable ring b => Sys2Proof.Machine.execRingEnable ring b s
  | .injectPacket ring => Sys2Proof.Machine.execInjectPacket ring s
  | .recordBufferTimeout ring => Sys2Proof.Machine.execRecordBufferTimeout ring s
  | .ringInterrupt ring => Sys2Proof.Machine.execRingInterrupt ring s
  | .dmaError ring => Sys2Proof.Machine.execDmaError ring s
  | .helloTimer port => Sys2Proof.Machine.execHelloTimer port s
  | .hello port fr => Sys2Proof.Machine.execHello port fr s
  | .helloTimeout port => Sys2Proof.Machine.execHelloTimeout port s
  | .linkSetJoin dev => Sys2Proof.Machine.execLinkSetJoin dev s
  | .linkSetDown port => Sys2Proof.Machine.execLinkSetDown port s
  | .data port fr => Sys2Proof.Machine.execData port fr s
  | .rres port fr => Sys2Proof.Machine.execRres port fr s
  | .tail port fr => Sys2Proof.Machine.execTail port fr s
  | .rrec port fr ecc => Sys2Proof.Machine.execRrec port fr ecc s
  | .ctrlOldest port fr => Sys2Proof.Machine.execCtrlOldest port fr s
  | .ctrlPrep port fr => Sys2Proof.Machine.execCtrlPrep port fr s
  | .ready port fr => Sys2Proof.Machine.execReady port fr s
  | .ctrlCommit port fr => Sys2Proof.Machine.execCtrlCommit port fr s
  | .mapCommit => Sys2Proof.Machine.execMapCommit s
  | .slotFinal port fr => Sys2Proof.Machine.execSlotFinal port fr s
  | .clean port fr => Sys2Proof.Machine.execClean port fr s
  | .tsyncReq port fr => Sys2Proof.Machine.execTsyncReq port fr s
  | .tsyncResp port fr => Sys2Proof.Machine.execTsyncResp port fr s
  | .ctrlLeave port fr => Sys2Proof.Machine.execCtrlLeave port fr s
  | .ctrlUnbind port fr => Sys2Proof.Machine.execCtrlUnbind port fr s
  | .joinReq port fr linked => Sys2Proof.Machine.execJoinReq port fr linked s
  | .resetAt port fr => Sys2Proof.Machine.execResetAt port fr s
  | .form => Sys2Proof.Machine.execForm s
  | .join => Sys2Proof.Machine.execJoin s
  | .leave => Sys2Proof.Machine.execLeave s
  | .resetAll => Sys2Proof.Machine.execResetAll s
  | .joinTimeout => Sys2Proof.Machine.execJoinTimeout s
  | .ropTimeout pid => Sys2Proof.Machine.execRopTimeout pid s
  | .peerLoss a b => Sys2Proof.Machine.execPeerLoss a b s
  | .replRefreshScan => Sys2Proof.Machine.execReplRefreshScan s
  | .oldestSend => Sys2Proof.Machine.execOldestSend s
  | .tsyncTimer => Sys2Proof.Machine.execTsyncTimer s
  | .rrecPrepExpiry eng dev tag => Sys2Proof.Machine.execRrecPrepExpiry eng dev tag s
  | .rrecAnswerTimeout ctx => Sys2Proof.Machine.execRrecAnswerTimeout ctx s
  | .gangItemOffer => Sys2Proof.Machine.execGangItemOffer s
  | .mpWake => Sys2Proof.Machine.execMpWake s
  | .mpIdleStop => Sys2Proof.Machine.execMpIdleStop s
  | .mpWatchdog => Sys2Proof.Machine.execMpWatchdog s
  | .mpRestart => Sys2Proof.Machine.execMpRestart s
  | .info => Sys2Proof.Machine.execInfo s
  | .sensors => Sys2Proof.Machine.execSensors s
  | .logRead => Sys2Proof.Machine.execLogRead s
  | .logMark => Sys2Proof.Machine.execLogMark s
  | .updateWrite => Sys2Proof.Machine.execUpdateWrite s
  | .updateSelect => Sys2Proof.Machine.execUpdateSelect s
  | .floorRaise => Sys2Proof.Machine.execFloorRaise s
  | .oobDatagram port src payload => Sys2Proof.Machine.execOobDatagram port src payload s
  | .sensorSample vals => Sys2Proof.Machine.execSensorSample vals s
  | .logFlashCopy => Sys2Proof.Machine.execLogFlashCopy s
  | .slicePark slice => Sys2Proof.Machine.execSlicePark slice s
  | .sliceActive slice => Sys2Proof.Machine.execSliceActive slice s
  | .bankGate bank => Sys2Proof.Machine.execBankGate bank s
  | .bankAwake bank => Sys2Proof.Machine.execBankAwake bank s
  | .recoveryStart kind inst cause detail => Sys2Proof.Machine.execRecoveryStart kind inst cause detail s
  | .recGo kind inst => Sys2Proof.Machine.execRecGo kind inst s
  | .recoveryEnd kind inst ok => Sys2Proof.Machine.execRecoveryEnd kind inst ok s
  | .recoveryBoundExpired kind inst => Sys2Proof.Machine.execRecoveryBoundExpired kind inst s
  | .scheduledDeviceReset => Sys2Proof.Machine.execScheduledDeviceReset s
  | .perstDeasserted link => Sys2Proof.Machine.execPerstDeasserted link s
  | .msixUnmask vector => Sys2Proof.Machine.execMsixUnmask vector s
  | .maxframeExceeded port bytes => Sys2Proof.Machine.execMaxframeExceeded port bytes s
  | .firmwareHeartbeatTimeout => Sys2Proof.Machine.execFirmwareHeartbeatTimeout s
  | .ternaryCommandDone => Sys2Proof.Machine.execTernaryCommandDone s
  | .flashSlotWriteDone plate ok => Sys2Proof.Machine.execFlashSlotWriteDone plate ok s

end Sys2Proof.Machine
end

