-- ==== Sys2Proof/WellFormed.lean ====
section
/-! DEFINITION. Well-formed commands: what the manual says of the values that come with a command and their types do not. -/
namespace Sys2Proof
open Sys2Proof.Machine

/-- A staircase set carries 14 bytes between its control code-groups (R83). -/
def SetWf (g : SetGroups) : Bool := g.grp.length == 14

/-- The sweeps of a channel's training: eight read and eight write lanes (R362). -/
def SweepsWf (m : List Nat) : Bool := m.length == 16

/-- Gang frames carry an Ethernet header and the 32-byte gang header, without FCS (R518). -/
def GangFrameWf (fr : Bytes) : Bool := decide (46 ≤ fr.length)

/-- Instances of the recovery domains of a kind, 0 to 7 as in GLB_REC_CTRL.MANUAL (R594): lanes, ports, slices, flow engines, clusters,
memory channels, buffer banks, links to gang devices. -/
def kindSize (kind : Nat) : Nat := [1024, 512, 16, 128, 16, 96, 48, 4].getD kind 0

/-- Shapers of a level (R428): queues, classes, ports. -/
def shapers (level : Nat) : Nat := [262144, 8192, 512].getD level 0

/-- The values of a command are among those that can come with it. -/
def Instr.wf : Instr → Bool
  | .wideLowWordRead a _ => a.val % 4 == 0
  | .wideHighWordWrite a _ => a.val % 4 == 0
  | .wideLowWordWrite a _ => a.val % 4 == 0
  | .rcRead a _ => a.val % 4 == 0
  | .fullLoad ms => ms.length == 96 && ms.all SweepsWf
  | .loadStaged ms => ms.length == 96 && ms.all SweepsWf
  | .capSet _ g => SetWf g
  | .ackSet _ g => SetWf g
  | .stepSet _ g => SetWf g
  | .qualSet _ g => SetWf g
  | .holdSet _ g => SetWf g
  | .abortSet _ g => SetWf g
  | .upSet _ g => SetWf g
  | .checkerLockLost _ bits errs => decide (errs ≤ bits)
  | .frameHead _ hd => decide (16 ≤ hd.length)
  | .pauseFrame _ fr => decide (60 ≤ fr.length)
  | .pfcFrame _ fr => decide (60 ≤ fr.length)
  | .addressPoll _ (some (_, rev, pw)) => decide (rev < 256) && decide (pw < 256)
  | .intlFall _ fl => fl.length == 32
  | .patternReport _ ms _ _ => decide ms.Nodup
  | .rmtOp _ fr _ => GangFrameWf fr
  | .replOp _ fr => GangFrameWf fr
  | .dramRequest _ _ _ len w bs => decide (0 < len) && (!w || bs.length == len)
  | .trainingDone _ ms => SweepsWf ms
  | .trackingRun _ ms => ms.length == 8
  | .shaperUpdate l n => decide (n < shapers l.val)
  | .shaperConfigWrite l n _ _ => decide (n < shapers l.val)
  | .bar2Write _ bs en => en.length == bs.length
  | .hello _ fr => GangFrameWf fr
  | .data _ fr => GangFrameWf fr
  | .rres _ fr => GangFrameWf fr
  | .tail _ fr => GangFrameWf fr
  | .rrec _ fr _ => GangFrameWf fr
  | .ctrlOldest _ fr => GangFrameWf fr
  | .ctrlPrep _ fr => GangFrameWf fr
  | .ready _ fr => GangFrameWf fr
  | .ctrlCommit _ fr => GangFrameWf fr
  | .slotFinal _ fr => GangFrameWf fr
  | .clean _ fr => GangFrameWf fr
  | .tsyncReq _ fr => GangFrameWf fr
  | .tsyncResp _ fr => GangFrameWf fr
  | .ctrlLeave _ fr => GangFrameWf fr
  | .ctrlUnbind _ fr => GangFrameWf fr
  | .joinReq _ fr _ => GangFrameWf fr
  | .resetAt _ fr => GangFrameWf fr
  | .peerLoss a b => a != b
  | .oobDatagram _ src _ => src.length == 16
  | .sensorSample vs => vs.length == 60
  | .recoveryStart k n _ _ => decide (n.val < kindSize k.val)
  | .recGo k n => decide (n.val < kindSize k.val)
  | .recoveryEnd k n _ => decide (n.val < kindSize k.val)
  | .recoveryBoundExpired k n => decide (n.val < kindSize k.val)
  | _ => true

end Sys2Proof
end

