-- ==== Sys2Proof/Safety.lean ====
section
/-! DEFINITION. What a sound state is, in the terms the statements use. -/
namespace Sys2Proof.Machine
open Sys2Proof

/-- The supplies stand in their order (R36, R546): the rails are up only while the always-on domain runs, and it runs only
while VSB is present. -/
def Power.ordered (p : Power) : Prop := (p.vin = true → p.aon = true) ∧ (p.aon = true → p.vsb = true)

/-- The sparse stores of the device are in canonical form: BAR0 registers, device DRAM and host memory. -/
def Chip.canonical (c : Chip) : Prop := smWf regReset c.regs ∧ Memory.wf c.dram ∧ Memory.wf c.hostMem

/-- A sound device: stores in canonical form, supplies in their order. -/
def Chip.sound (c : Chip) : Prop := c.canonical ∧ c.power.ordered

/-- Every command that waits is well formed. -/
def State.queueWf (s : State) : Prop := ∀ i ∈ s.pending, Instr.wf i = true

/-- A sound state. -/
def State.sound (s : State) : Prop := s.chip.sound ∧ s.queueWf

/-! ### Runs, and what commands may change -/

/-- `n` steps, or the first that does not answer a next state. -/
def State.run : Nat → State → Out
  | 0, s => .next s
  | n + 1, s => match step s with
    | .next t => t.run n
    | o => o

/-- Commands that reach the device with VIN absent: supplies, the flash copy of the log, PERST#, a module's presence (R36, R130,
R513, R546, R557). -/
def reachesUnpowered : Instr → Bool
  | .vsbRise | .vsbLoss | .vinQualified | .vinLoss | .vinOver _ | .fundamentalReset | .perstDeasserted _ | .moduleInsert _
  | .moduleRemove _ | .logFlashCopy => true
  | _ => false

/-- The work in the device is as before: DRAM, flash, supplies, packets, parse contexts, flows, routines, Plates, recoveries. -/
def Chip.sameWork (c d : Chip) : Prop :=
  d.dram = c.dram ∧ d.flash = c.flash ∧ d.power = c.power ∧ d.pkts = c.pkts ∧ d.parse = c.parse ∧ d.flow = c.flow ∧
    d.act = c.act ∧ d.plate = c.plate ∧ d.recov = c.recov

/-- Commands of access errors, time, lanes, sites, rules, the dispatcher, memory power, the scheduler, telemetry, rings and sleep
that leave that work alone. -/
def leavesWork : Instr → Bool
  | .badWrite _ | .badRead _ | .deniedWrite _ _ _ _ | .busMasterDisable | .incrWrite _ | .refLost | .refLock | .set | .step
  | .slew | .unsched _ | .sactStateRead _ | .ppsOutEdge _ | .ppsInEdge | .pdelayWrite _ _ | .cancel _ | .sbStateRead _
  | .capClear _ | .idleRunFreeze _ | .adaptResume _ | .resetAdapt _ | .ffeWrite _ _ | .checkerLock _
  | .checkerLockLost _ _ _ | .pcClear _ | .injOne _ | .periodicInjection _ | .alignModeSet _ _ | .bitslip _ | .capture _ _
  | .polarityInversion _ | .laneWake _ | .lpiEnter _ | .lpiExit _ | .lpiWakeDone _ | .cvuRunWrite _ _ _ | .pauseExpiry _ _
  | .intlFall _ _ | .monitorPoll _ _ _ | .busRecovery _ | .xferGo _ _ | .fix _ | .latentAbandon | .cancelFix | .fixExecute
  | .fixHoldTimeout | .versionRetire | .ternaryBankGate _ | .patternLineReloaded _ | .patternEngineGate _ | .hold _ _
  | .freezeWindow | .clusterWake _ | .clusterAwake _ | .clusterGate _ | .stackParityError _ _ _ _ | .tempReading _ _
  | .train _ | .trainingDone _ _ | .trackingRun _ _ | .rateChange _ _ | .freqDone _ | .powerDownEntry _ | .powerDownExit _
  | .selfRefreshExit _ | .release _ _ | .fence _ | .fenceDone | .unbindNotice _ _ | .gateChange _ | .gateCancel _
  | .gateStop _ | .gateListEnd _ | .obsTick | .obsModeWrite _ | .evFreeze _ | .evClear _ | .portStatsClear _ | .tsForce _
  | .tsSeedWrite _ | .bar2Read _ _ | .ringDoorbell _ _ | .ringEnable _ _ | .recordBufferTimeout _ | .ringInterrupt _
  | .dmaError _ | .linkSetJoin _ | .joinTimeout | .mpWake | .mpIdleStop | .logFlashCopy | .slicePark _ | .sliceActive _
  | .bankAwake _ | .perstDeasserted _ | .msixUnmask _ | .ternaryCommandDone => true
  | _ => false

/-! ### A word in progress (R299, R302) -/

/-- The word at the PC of context `x` has issued, gives unit `u` op `op`, and that unit has not run: `v` is the context, `w` the
word, `ws` its progress. -/
def Chip.unitAt (c : Chip) (x u op : Nat) (v : Ctx) (w : Mw) (ws : WordSt) : Prop :=
  v = c.ctx x ∧ w = c.mwAt (x / 64) v.pc ∧ v.st = 1 ∧ v.word = some ws ∧ unitOp w u = op ∧ ws.done.contains u = false

/-- Unit `u` of the word of context `x` has run, leaving the context `v` and the word's results `ws`. -/
def Chip.unitRan (c : Chip) (x u : Nat) (v : Ctx) (ws : WordSt) : Chip :=
  c.setCtx x { v with word := some { ws with done := ws.done ++ [u] } }

/-- Operands A and B of unit ALUA or ALUB (R304). -/
def Ctx.opA (v : Ctx) (w : Mw) (unitB : Bool) : BitVec 64 := v.reg (aSa (mwAlu w unitB))
def Ctx.opB (v : Ctx) (w : Mw) (unitB : Bool) : BitVec 64 :=
  if aImm (mwAlu w unitB) then w64 (mwImm w) else v.reg (aSb (mwAlu w unitB))

/-- A word's progress with an ALU result: the destination written and the unit's flags set (R304). -/
def WordSt.alu (ws : WordSt) (w : Mw) (unitB : Bool) (r : BitVec 64) (carry : Bool) : WordSt :=
  { ws with flags := ws.flags.alu unitB r carry, regs := ws.regs ++ [(aDst (mwAlu w unitB), r)] }

/-- Every unit of the word at the PC of context `x` has run, and its sequencing is `nxt`; a word whose SST names a register
past G63 is left out. -/
def Chip.wordAt (c : Chip) (x nxt : Nat) (v : Ctx) (w : Mw) (ws : WordSt) : Prop :=
  v = c.ctx x ∧ w = c.mwAt (x / 64) v.pc ∧ v.st = 1 ∧ v.word = some ws ∧ mwNxt w = nxt ∧
    (mwUnits w).all ws.done.contains = true ∧ (mwMemOp w ≠ 2 ∨ mwRd w + mwRegs w ≤ 64)

end Sys2Proof.Machine
end

