-- ==== Sys2Proof/Certificates/Slice0/Obligations.lean ====
section
/-! DEFINITION. The statements about the model, family by family. Every command's completion is stated as an equation or with
the values its rule gives; an entry of the assumption log that a statement rests on is named in its text. -/
open Sys2Proof Sys2Proof.Machine

/-- The block takes its commands first in, first out: a step runs the command at the front on the state without it, and idles on
an empty queue (log entry 1); no command stops the block, and none touches the queue. -/
def Obligations.StepRunsTheFrontCommand : Prop :=
  (∀ (s : State) (c : Instr) (r : List Instr), s.pending = c :: r → step s = exec c { s with pending := r }) ∧
  (∀ s : State, s.pending = [] → step s = .next s) ∧
  (∀ (s : State) (c : Instr), ∃ t, exec c s = .next t ∧ t.pending = s.pending)

/-- From R36, R130, R513, R546, R557: with VIN absent only commands of the supplies, the log's flash copy, PERST# and the
modules' presence reach the device. A run of any length over other commands empties the queue in order and leaves the device as
it is (log entry 8). -/
def Obligations.UnpoweredRunsChangeNothing : Prop :=
  (∀ (s : State) (n : Nat), ∃ t, s.run n = .next t ∧ t.pending = s.pending.drop n) ∧
  (∀ (s : State) (n : Nat), s.chip.power.vin = false → (∀ c ∈ s.pending.take n, reachesUnpowered c = false) →
    s.run n = .next ⟨s.chip, s.pending.drop n⟩)

/-- The state right after reset: the registers at the reset values of their tables, DT and MT at 0, time not valid, all memories
empty, no packet, nothing pending, VIN present and the Plate load due; and that state is sound. Where the tables give no value
the registers read 0 (log entry 3). -/
def Obligations.ResetIsSoundAndHoldsTheTablesValues : Prop :=
  State.reset.sound ∧ (∀ a, State.reset.chip.rd a = regReset a) ∧
  State.reset.chip.rd 0 = 0x55470512 ∧ State.reset.chip.getF F.HST_ERR_CAUSE.all = 0 ∧
  State.reset.chip.getF F.HST_RING_STATUS.STOPPED 700 = 1 ∧ State.reset.chip.timeValid = false ∧ State.reset.chip.time.acc = 0 ∧
  State.reset.chip.time.mt = 0 ∧ State.reset.chip.flag F.GLB_STATUS.PLATE_LOADED = false ∧ State.reset.chip.dram = [] ∧
  State.reset.chip.pkts = [] ∧ State.reset.chip.recov = [] ∧ State.reset.chip.power.vin = true ∧
  State.reset.chip.power.loadDue = true ∧ State.reset.pending = []

/-- Every step keeps the state sound: registers, DRAM and host memory in canonical form, the supplies in their order, the
waiting commands well formed. -/
def Obligations.EveryStepKeepsTheStateSound : Prop :=
  ∀ s t : State, s.sound → step s = .next t → t.sound

/-- Frame: the commands of `leavesWork` leave DRAM, flash, supplies, packets, parse contexts, flows, routines, Plates and
recoveries alone, and answer a next state. -/
def Obligations.LocalCommandsLeaveTheWorkAlone : Prop :=
  ∀ (s : State) (c : Instr), leavesWork c = true → ∃ t, exec c s = .next t ∧ s.chip.sameWork t.chip ∧ t.pending = s.pending

/-- R488: an FT value as UTC milliseconds, and the export time. -/
def Obligations.ExportedTimesFollowTheDeviceTime : Prop :=
  ∀ (c : Chip) (f n : Nat) (d t : Int), f < 2 ^ 32 → n = c.dt / 2 ^ 16 →
    d = signedOf 32 ((n / 2 ^ 20 + (2 ^ 32 - f)) % 2 ^ 32) → t = ((n / 2 ^ 20 : Nat) - d) * 2 ^ 20 →
    c.ftMs f = patternOf 64 (t / 10 ^ 6 - 1000 * (c.getF F.TEL_EXP_UTC_OFS.V : Int)) ∧
    c.utcSec = patternOf 32 ((n / 10 ^ 9 : Nat) - (c.getF F.TEL_EXP_UTC_OFS.V : Int))

/-- R523: where the slots of a leaving device go. -/
def Obligations.LeaveMovesOnlyTheLeaversSlots : Prop :=
  (∀ (c : Chip) (loss : Bool) (d : Nat), c.runLeave loss d =
    c.runChange false loss d (leaveMap c.mapList d (c.partnerOf d) (c.members.filter (· != d)))) ∧
  (∀ (m : List Nat) (d p : Nat) (rest : List Nat), m.length = 256 → d ∉ rest → rest ≠ [] → rest.Pairwise (· < ·) →
    (leaveMap m d p rest).length = 256 ∧
    (∀ s, s < 256 → m.getD s 4 ≠ d → (leaveMap m d p rest).getD s 4 = m.getD s 4) ∧
    (p ∈ rest → ∀ s, s < 256 → m.getD s 4 = d → (leaveMap m d p rest).getD s 4 = p) ∧
    (p ∉ rest → ∀ s, s < 256 → m.getD s 4 = d → (leaveMap m d p rest).getD s 4 ∈ rest ∧
      ∀ (held : Nat → Nat) (y : Nat), y ∈ rest → (∀ z, held z = ((List.range 256).filter (fun t =>
        (decide (t < s) || m.getD t 4 != d) && (leaveMap m d p rest).getD t 4 == z)).length) →
        held ((leaveMap m d p rest).getD s 4) < held y ∨
        (held ((leaveMap m d p rest).getD s 4) = held y ∧ (leaveMap m d p rest).getD s 4 ≤ y)))

/-- From R528: an op that met NOT_OWNER is sent again, at most three times in all, with its RTAG and its time of sending. The
model's own choices that it rests on, which no rule is cited for: log entries 84 and 96. -/
def Obligations.NotOwnerOpsAreSentAgain : Prop :=
  (∀ (s : State) (p : Fin 512) (fr : Bytes) (c : Chip) (r : Rop), s.chip.power.vin = true →
    s.chip.gangTake p 3 false fr = (true, c) → frStatus (sliceB (gfBody fr) 8 32) = 7 →
    c.gang.rops.find? (fun r => r.rtag == beAt (gfBody fr) 0 4 && r.dev == gfSrc fr) = some r →
    exec (.rres p fr) s = .next ⟨(c.ropAgain r).flush, s.pending⟩) ∧
  (∀ (c : Chip) (r : Rop), 3 ≤ r.tries → c.ropAgain r = (c.ropGone r).missFb r.pid r.op) ∧
  (∀ (c : Chip) (r : Rop) (d port : Nat), r.tries < 3 → c.ownerOf r.op.h1 = some d → d ≠ c.ownDevice →
    c.slotPort d r.op.h1 = some port →
    c.ropAgain r = ((((c.ropGone r).bump F.GNG_PEER_CNT_NOT_OWNER.V r.dev).onGang fun g => { g with
      rops := g.rops ++ [{ r with dev := d, tries := r.tries + 1 }]
      tails := g.tails.map (fun t => if t.2.1 = r.rtag then (t.1, t.2.1, d, t.2.2.2) else t) }).ropOut port d r.op r.rtag)) ∧
  (∀ (c : Chip) (r : Rop) (x : Pkt), r.tries < 3 → c.ownerOf r.op.h1 = some c.ownDevice → c.pkt r.pid = some x →
    ((c.ropAgain r).eng (hEngine r.op.h1)).input = (c.eng (hEngine r.op.h1)).input ++ [{ r.op with tail := x.tail }] ∧
    r ∉ (c.ropAgain r).gang.rops) ∧
  (∀ (c d : Chip) (pid dev port : Nat) (o : FOp), c.slotPort dev o.h1 = some port → c.park pid = some d →
    ∃ r, (c.ropStart pid dev o).gang.rops = d.gang.rops ++ [r] ∧ r.pid = pid ∧ r.dev = dev ∧ r.tries = 1)

/-- R581: the stop-baths that the policy denies, and the two it never does. -/
def Obligations.PolicyDeniesStopBathsButTwo : Prop :=
  (∀ (s : State) (u : Fin 16) (i : Fin 512) (src timed : Bool), s.chip.power.vin = true →
    s.chip.flag F.PLT_CMD_STATUS.RUNNING = false → s.chip.bathInvalid u i src timed = false →
    (src = true → loadOnlyDiffers (s.chip.plate.cur.getD []) (s.chip.plate.pend.getD []) = false) →
    s.chip.polBit 0x248 u = false →
    (src = true ∨ (s.chip.recOfUnit u i).any (fun r => r.state == 3) = false) →
    (u ≠ 4 ∨ bitOf i (s.chip.getF F.SFL_STATUS.FROZEN) = false) →
    ∃ writer addr val, exec (.stopBath u i src timed) s =
      .next ⟨((s.chip.deniedCapture writer addr val).finish portPlt stDenied).flush, s.pending⟩) ∧
  (∀ (s : State) (u : Fin 16) (i : Fin 512) (src : Bool), s.chip.power.vin = true →
    s.chip.flag F.PLT_CMD_STATUS.RUNNING = false → s.chip.bathInvalid u i src false = false →
    (src = true → loadOnlyDiffers (s.chip.plate.cur.getD []) (s.chip.plate.pend.getD []) = false) →
    ((src = false ∧ (s.chip.recOfUnit u i).any (fun r => r.state == 3) = true) ∨
      (u = 4 ∧ bitOf i (s.chip.getF F.SFL_STATUS.FROZEN) = true)) → s.chip.bathBusy u i = false →
    exec (.stopBath u i src false) s = .next ⟨(s.chip.bathTake u i src none (s.chip.getQ F.PLT_CMD_TIME.V)).flush, s.pending⟩)

/-- From R450, R451, R453, R454, R455: what one tick of the time island does. Without a slew the accumulator grows by TIM_INCR
and nothing else but MT moves; with one it grows by the slew's part of the tick as well; a SET written before the tick is
applied before the increment is added. -/
def Obligations.TimeTickAdvancesTime : Prop :=
  (∀ s : State, s.chip.power.vin = true → s.chip.time.incrNext = none → s.chip.time.setNext = none →
    s.chip.time.stepNext = none → s.chip.time.slew = none →
    exec .timeTick s = .next ⟨{ s.chip with time := { s.chip.time with
      acc := (s.chip.time.acc + s.chip.time.incr) % 2 ^ 120, mt := s.chip.time.mt + s.chip.time.incr } }, s.pending⟩) ∧
  (∀ (s : State) (w : Slew), s.chip.power.vin = true → s.chip.time.incrNext = none → s.chip.time.setNext = none →
    s.chip.time.stepNext = none → s.chip.time.slew = some w →
    ∃ t, exec .timeTick s = .next t ∧
      t.chip.time.acc = patternOf 120 ((s.chip.time.acc : Int) + (s.chip.time.incr + (w.q +
        (if w.k < w.r.natAbs then w.r.sign else 0)))) ∧
      t.chip.time.mt = s.chip.time.mt + s.chip.time.incr ∧
      (w.k + 1 < w.n → t.chip = { s.chip with time := { s.chip.time with
        acc := t.chip.time.acc, mt := t.chip.time.mt, slew := some { w with k := w.k + 1 } } }) ∧
      (w.n ≤ w.k + 1 → t.chip.time.slew = none ∧ t.chip.getF F.TIM_STATUS.SLEWING = 0 ∧
        t.chip.getF F.TIM_EVENTS.SLEW_DONE = 1)) ∧
  (∀ (s : State) (v : Nat), s.chip.power.vin = true → s.chip.time.incrNext = none → s.chip.time.setNext = some v →
    s.chip.time.stepNext = none →
    ∃ t, exec .timeTick s = .next t ∧ t.chip.time.acc = (v * 2 ^ 24 + s.chip.time.incr) % 2 ^ 120 ∧
      t.chip.time.setNext = none ∧ t.chip.time.slew = none ∧ t.chip.getF F.GLB_STATUS.TIME_VALID = 1 ∧
      t.chip.getF F.TIM_STATUS.TIME_VALID = 1) ∧
  (∀ (s : State) (v : Nat), s.chip.power.vin = true → s.chip.time.incrNext = some v → s.chip.time.setNext = none →
    s.chip.time.stepNext = none → s.chip.time.slew = none →
    exec .timeTick s = .next ⟨{ s.chip with time := { s.chip.time with
      incr := v, incrNext := none, acc := (s.chip.time.acc + v) % 2 ^ 120, mt := s.chip.time.mt + v } }, s.pending⟩)

/-- From R453, R454, R539: SET, STEP and SLEW accepted, and refused with INVALID or BUSY; nothing but the registers of the
command, the message of DONE and the state of the time island changes. The model's own choices that it rests on, which no rule
is cited for: log entry 26. -/
def Obligations.TimeCommandsSetStepAndSlew : Prop :=
  (∀ s : State, s.chip.power.vin = true → s.chip.flag F.TIM_CMD_STATUS.RUNNING = false → s.chip.timeValid = false →
    s.chip.follower = false →
    exec .set s = .next ⟨{ s.chip.putF F.TIM_CMD_STATUS.RUNNING 1 with
      time := { s.chip.time with setNext := some ((s.chip.rd 0x40040).toNat + 2 ^ 32 * (s.chip.rd 0x40044).toNat
        + 2 ^ 64 * (s.chip.rd 0x40048).toNat) } }, s.pending⟩) ∧
  (∀ s : State, s.chip.power.vin = true → s.chip.flag F.TIM_CMD_STATUS.RUNNING = false → s.chip.timeValid = true →
    exec .set s = .next ⟨s.chip.finish portTim stInvalid, s.pending⟩) ∧
  (∀ s : State, s.chip.power.vin = true → s.chip.flag F.TIM_CMD_STATUS.RUNNING = false → s.chip.timeValid = true →
    s.chip.follower = false → (signedOf 64 (s.chip.getQ F.TIM_STEP.V)).natAbs < 2 ^ 62 →
    exec .step s = .next ⟨{ s.chip.putF F.TIM_CMD_STATUS.RUNNING 1 with
      time := { s.chip.time with stepNext := some (signedOf 64 (s.chip.getQ F.TIM_STEP.V)) } }, s.pending⟩) ∧
  (∀ s : State, s.chip.power.vin = true → s.chip.flag F.TIM_CMD_STATUS.RUNNING = false →
    (s.chip.timeValid = false ∨ 2 ^ 62 ≤ (signedOf 64 (s.chip.getQ F.TIM_STEP.V)).natAbs) →
    exec .step s = .next ⟨s.chip.finish portTim stInvalid, s.pending⟩) ∧
  (∀ (s : State) (a q : Int) (n : Nat), s.chip.power.vin = true → s.chip.flag F.TIM_CMD_STATUS.RUNNING = false →
    s.chip.timeValid = true → s.chip.follower = false → s.chip.time.slew = none →
    a = signedOf 64 (s.chip.getQ F.TIM_SLEW_DELTA.V) * 2 ^ 24 → n = s.chip.getF F.TIM_SLEW_TICKS.V → q = a.tdiv n →
    q.natAbs + 1 ≤ s.chip.time.incr / 1000 →
    exec .slew s = .next ⟨(({ s.chip with time := { s.chip.time with slew := some ⟨q, a - q * n, 0, n⟩ } }).putF
      F.TIM_STATUS.SLEWING 1).finish portTim stOk, s.pending⟩) ∧
  (∀ s : State, s.chip.power.vin = true → s.chip.flag F.TIM_CMD_STATUS.RUNNING = false → s.chip.timeValid = false →
    exec .slew s = .next ⟨s.chip.finish portTim stInvalid, s.pending⟩) ∧
  (∀ s : State, s.chip.power.vin = true → s.chip.flag F.TIM_CMD_STATUS.RUNNING = false →
    exec .invalidate s = .next ⟨s.chip.invalidateTime.finish portTim stOk, s.pending⟩) ∧
  (∀ s : State, s.chip.power.vin = true → s.chip.flag F.TIM_CMD_STATUS.RUNNING = false →
    ∃ t, exec .invalidate s = .next t ∧ t.chip.getF F.TIM_CMD_STATUS.STATUS = stOk ∧ t.chip.time.slew = none)

/-- From R453, R457, R460, R466: an entry scheduled ahead, unscheduled, run at its time, and freed by a read. The model's own
choices that it rests on, which no rule is cited for: log entries 9, 21 and 27. -/
def Obligations.HostTimedWritesScheduleRunAndFree : Prop :=
  (∀ (s : State) (n : Fin 16), s.chip.power.vin = true → s.chip.flag F.TIM_CMD_STATUS.RUNNING = false →
    s.chip.timeValid = true → Chip.sactBad (s.chip.getF F.TIM_SACT_ADDR.V n) (s.chip.getF F.TIM_SACT_MASK.V n) = false →
    Chip.sactDenied (s.chip.getF F.TIM_SACT_ADDR.V n) (s.chip.getF F.TIM_SACT_MASK.V n) = false →
    s.chip.getF F.TIM_SACT_STATE.PHASE n = 0 → s.chip.timeClass (s.chip.getQ F.TIM_SACT_TIME.V n) = .ahead →
    exec (.sched n) s = .next ⟨((s.chip.putF F.TIM_SACT_STATE.PHASE 1 n).bump F.TIM_STATUS.SACT_USED).finish portTim stOk, s.pending⟩) ∧
  (∀ (s : State) (n : Fin 16), s.chip.power.vin = true → s.chip.flag F.TIM_CMD_STATUS.RUNNING = false →
    s.chip.getF F.TIM_SACT_STATE.PHASE n = 1 →
    ∃ t, exec (.unsched n) s = .next t ∧ t.chip.getF F.TIM_SACT_STATE.PHASE n = 0 ∧
      t.chip.getF F.TIM_SACT_STATE.STATUS n = 0 ∧ t.chip.getF F.TIM_CMD_STATUS.STATUS = stOk ∧
      t.chip.getF F.TIM_STATUS.SACT_USED = s.chip.getF F.TIM_STATUS.SACT_USED - 1) ∧
  (∀ (s : State) (n : Fin 16), s.chip.power.vin = true → s.chip.flag F.TIM_CMD_STATUS.RUNNING = false →
    s.chip.getF F.TIM_SACT_STATE.PHASE n ≠ 1 →
    exec (.unsched n) s = .next ⟨s.chip.finish portTim stInvalid, s.pending⟩) ∧
  (∀ (s : State) (n : Fin 16), s.chip.power.vin = true → s.chip.getF F.TIM_SACT_STATE.PHASE n = 1 →
    s.chip.due (s.chip.getQ F.TIM_SACT_TIME.V n) = true →
    ∃ t, exec (.hostTimedWrite n) s = .next t ∧ t.chip.getF F.TIM_SACT_STATE.PHASE n = 2 ∧
      t.chip.getF F.TIM_SACT_STATE.STATUS n = (if s.chip.time.late.contains (.sact n) then stLate else stOk) ∧
      t.chip.getF F.TIM_EVENTS.SACT_DONE = 1) ∧
  (∀ (s : State) (n : Fin 16), s.chip.power.vin = true → s.chip.getF F.TIM_SACT_STATE.PHASE n = 2 →
    exec (.sactStateRead n) s = .next ⟨(({ s.chip with rdData := BitVec.ofNat 64 (s.chip.rd (0x40414 + 0x20 * n)).toNat }).putF F.TIM_SACT_STATE.PHASE 0 n).putF
        F.TIM_SACT_STATE.STATUS 0 n, s.pending⟩) ∧
  (∀ (s : State) (n : Fin 16), s.chip.power.vin = true → s.chip.getF F.TIM_SACT_STATE.PHASE n ≠ 2 →
    exec (.sactStateRead n) s = .next ⟨{ s.chip with rdData := BitVec.ofNat 64 (s.chip.rd (0x40414 + 0x20 * n)).toNat }, s.pending⟩)

/-- From R451, R452, R463, R464, R539: TIM_INCR written and clamped, the reference lost and locked, the timing connector's edges
and a path delay written. The model's own choices that it rests on, which no rule is cited for: log entries 8 and 25. -/
def Obligations.TimeReferencesConnectorAndPathDelay : Prop :=
  (∀ (s : State) (v : BitVec 48), s.chip.power.vin = true → s.chip.follower = false →
    exec (.incrWrite v) s = .next ⟨{ s.chip.putQ F.TIM_INCR.V (max 1405967508669 (min 1408782258437 v.toNat)) with
        time := { s.chip.time with incrNext := some (max 1405967508669 (min 1408782258437 v.toNat)) } }, s.pending⟩) ∧
  (∀ (s : State) (v : BitVec 48), s.chip.power.vin = true → s.chip.follower = true → exec (.incrWrite v) s = .next s) ∧
  (∀ s : State, s.chip.power.vin = true → s.chip.flag F.TIM_STATUS.REF_LOCKED = true →
    exec .refLost s = .next ⟨(s.chip.putF F.TIM_STATUS.REF_LOCKED 0).raise F.TIM_EVENTS.REF_LOST, s.pending⟩) ∧
  (∀ s : State, s.chip.power.vin = true → s.chip.time.refSrc = true → s.chip.flag F.TIM_STATUS.REF_LOCKED = false →
    exec .refLock s = .next ⟨(s.chip.putF F.TIM_STATUS.REF_LOCKED 1).raise F.TIM_EVENTS.REF_LOCK, s.pending⟩) ∧
  (∀ s : State, s.chip.power.vin = true → s.chip.flag F.TIM_CTRL.PPS_OUT_EN = true →
    exec (.ppsOutEdge true) s = .next ⟨{ s.chip with time := { s.chip.time with ppsOut := true } }, s.pending⟩) ∧
  (∀ s : State, s.chip.power.vin = true →
    exec (.ppsOutEdge false) s = .next ⟨{ s.chip with time := { s.chip.time with ppsOut := false } }, s.pending⟩) ∧
  (∀ s : State, s.chip.power.vin = true → s.chip.flag F.TIM_CTRL.PPS_IN_EN = true →
    (∀ t, s.chip.time.ppsInAt = some t → t + 100000000 ≤ s.chip.mt) →
    exec .ppsInEdge s = .next ⟨(({ s.chip with time := { s.chip.time with ppsInAt := some s.chip.mt } }).putQ F.TIM_PPS_IN.V s.chip.dtw).raise
        F.TIM_EVENTS.PPS_IN, s.pending⟩) ∧
  (∀ (s : State) (p : Fin 512) (v : Word), s.chip.power.vin = true →
    (s.chip.getF F.TIM_PORT_PDELAY.V p = 0 ∨ s.chip.getF F.TIM_PDELAY_STEP.V = 0) →
    exec (.pdelayWrite p v) s = .next ⟨s.chip.putF F.TIM_PORT_PDELAY.V v.toNat p, s.pending⟩) ∧
  (∀ (s : State) (p : Fin 512) (v : Word) (old : Nat), s.chip.power.vin = true → old = s.chip.getF F.TIM_PORT_PDELAY.V p →
    old ≠ 0 → s.chip.getF F.TIM_PDELAY_STEP.V ≠ 0 → old + s.chip.getF F.TIM_PDELAY_STEP.V * 2 ^ 16 < v.toNat →
    exec (.pdelayWrite p v) s = .next ⟨(((s.chip.putF F.TIM_PORT_PDELAY.V v.toNat p).putF F.TIM_PORT_PDELAY_OLD.V old p).raise F.TIM_EVENTS.PDELAY_STEP).putF
        F.TIM_PORT_CTRL.STEP 1 p, s.pending⟩)

/-- From R9, R11, R12, R579, R589: a 32-bit write of BAR0. A register of the traffic manager takes the value in its RW fields,
each clamped to its range, keeps its RO fields and clears the W1C bits written 1; a write that is not aligned is reported and
discarded; an SFL address is a refused write. The model's own choices that it rests on, which no rule is cited for: log entries
14 and 42. -/
def Obligations.RegisterWriteFollowsAccessCodes : Prop :=
  (∀ (s : State) (a : Fin 134217728) (v : Word) (r : RegAt), s.chip.power.vin = true → a.val % 4 = 0 →
    0xE00000 ≤ a.val → a.val < 0xF00000 → regAt a = some r → 0xE00000 ≤ r.row.base → r.row.words = 1 →
    exec (.registerWrite a v 0) s = .next ⟨s.chip.wr a (BitVec.ofNat 32 (r.row.write (s.chip.rd a).toNat
      (s.chip.writeBound r (s.chip.rd a).toNat v.toNat) 0)), s.pending⟩) ∧
  (∀ (f : FldRow) (v w : Nat), f.lo ≤ f.hi → f.hi < 32 → f.acc = .rw → f.own = false → w < 2 ^ 32 →
    bitsOf f.hi f.lo (f.write v 0 w) = f.clamp.fix (bitsOf f.hi f.lo v) % 2 ^ (f.hi + 1 - f.lo)) ∧
  (∀ (f : FldRow) (v w : Nat), f.acc = .ro → f.write v 0 w = w) ∧
  (∀ (f : FldRow) (v w : Nat), f.lo = f.hi → f.hi < 32 → f.acc = .w1c → f.own = false → w < 2 ^ 32 →
    bitsOf f.hi f.lo (f.write v 0 w) = if bitsOf f.hi f.lo v = 1 then 0 else bitsOf f.hi f.lo w) ∧
  (∀ (s : State) (a : Fin 134217728) (v hw : Word), s.chip.power.vin = true → a.val % 4 ≠ 0 →
    exec (.registerWrite a v hw) s = .next ⟨s.chip.hostErr F.HST_ERR_CAUSE.BAD_WRITE 0 a, s.pending⟩) ∧
  (∀ (s : State) (a : Fin 134217728) (v hw : Word), s.chip.power.vin = true → a.val % 4 = 0 → 0x20000 ≤ a.val →
    a.val < 0x30000 → exec (.registerWrite a v hw) s = .next ⟨s.chip.denied 0 a 0, s.pending⟩)

/-- From R11, R13: a value wider than 32 bits is written at once with its lowest word. Its higher words are staged, the lowest
word applies them, and a 64-bit write of the two lowest words stages the higher one first. The model's own choices that it rests
on, which no rule is cited for: log entries 10, 14 and 42. -/
def Obligations.WideValuesAreWrittenAtOnce : Prop :=
  (∀ (s : State) (a : Fin 134217728) (v : Word) (r : RegAt), s.chip.power.vin = true → inSfl (canonAddr a) = false →
    regAt (canonAddr a) = some r → r.word ≠ 0 → r.row.allAcc .rw = true →
    exec (.wideHighWordWrite a v) s = .next ⟨{ s.chip with wideStage := smPut s.chip.wideStage (canonAddr a) v }, s.pending⟩) ∧
  (∀ (s : State) (a : Fin 134217728) (v : Word) (r : RegAt), s.chip.power.vin = true → inSfl a = false →
    canonAddr a = a → a.val ≠ 0x40020 → regAt a = some r → r.word = 0 → 1 < r.row.words → r.row.allAcc .rw = true →
    s.chip.writeLocked r = false →
    ∃ t, exec (.wideLowWordWrite a v) s = .next t ∧ t.pending = s.pending ∧
      t.chip.rd a = BitVec.ofNat 32 (Nat.land v.toNat (lowMask r.row.base)) ∧
      (∀ k, 0 < k → k < r.row.words → t.chip.rd (a + 4 * k) =
        BitVec.ofNat 32 (Nat.land (s.chip.stagedWord (a + 4 * k)).toNat (highMask r.row.base)) ∧
        smFind t.chip.wideStage (a + 4 * k) = none) ∧
      (∀ k, (∀ j, j < r.row.words → k ≠ a + 4 * j) → t.chip.rd k = s.chip.rd k)) ∧
  (∀ (s : State) (a : Fin 134217728) (v : BitVec 64), s.chip.power.vin = true → a.val % 8 = 0 → (wideLow a).isSome = true →
    exec (.bar064bitWrite a v) s = .next ⟨(s.chip.bar0Write (a + 4) ((v >>> 32).truncate 32) 0).bar0Write a (v.truncate 32) 0,
      s.pending⟩) ∧
  (∀ (s : State) (a : Fin 134217728) (v : BitVec 64), s.chip.power.vin = true → a.val % 8 = 0 → wideLow a = none →
    exec (.bar064bitWrite a v) s = .next ⟨(s.chip.bar0Write a (v.truncate 32) 0).bar0Write (a + 4) ((v >>> 32).truncate 32) 0,
      s.pending⟩) ∧
  (∀ (s : State) (a : Fin 134217728) (v : BitVec 64), s.chip.power.vin = true → a.val % 8 ≠ 0 →
    exec (.bar064bitWrite a v) s = .next ⟨s.chip.hostErr F.HST_ERR_CAUSE.BAD_WRITE 0 a, s.pending⟩)

/-- From R9, R11, R13: what a read of a register that captures or clears leaves, and an access that is reported. The model's own
choices that it rests on, which no rule is cited for: log entries 11, 12, 15, 22 and 42. -/
def Obligations.ReadsCaptureClearAndReport : Prop :=
  (∀ (s : State) (a : Fin 134217728) (r : RegAt), s.chip.power.vin = true → canonAddr a = a → s.chip.readGated a = false →
    regAt a = some r → r.word = 0 → 1 < r.row.words → r.row.allAcc .rc = false →
    ∃ t, exec (.wideLowWordRead a 0) s = .next t ∧ t.chip.regs = s.chip.regs ∧
      t.chip.rdData = BitVec.ofNat 64 ((s.chip.viewReg a).toNat + 2 ^ 32 * (s.chip.viewReg (a + 4)).toNat) ∧
      (∀ k, 0 < k → k < r.row.words → smFind t.chip.wideCap (a + 4 * k) = some (s.chip.viewReg (a + 4 * k)))) ∧
  (∀ (s : State) (a : Fin 134217728) (hw : BitVec 64) (r : RegAt), s.chip.power.vin = true → canonAddr a = a →
    s.chip.readGated a = false → regAt a = some r → r.word = 0 → 1 < r.row.words → r.row.allAcc .rc = true →
    ∃ t, exec (.wideLowWordRead a hw) s = .next t ∧
      t.chip.rdData = BitVec.ofNat 64 ((s.chip.viewReg a).toNat + 2 ^ 32 * (s.chip.viewReg (a + 4)).toNat) ∧
      (∀ k, k < r.row.words → t.chip.rd (a + 4 * k) = BitVec.ofNat 32 (hw.toNat / 2 ^ (32 * k))) ∧
      (∀ k, 0 < k → k < r.row.words → smFind t.chip.wideCap (a + 4 * k) = some (s.chip.viewReg (a + 4 * k)))) ∧
  (∀ (s : State) (a : Fin 134217728) (hw : Word) (r : RegAt), s.chip.power.vin = true → canonAddr a = a →
    s.chip.readGated a = false → regAt a = some r → r.row.words = 1 → r.row.allAcc .rc = true →
    r.row.base ≠ F.TMG_FREE_MIN.V.base → (hw = 0 ∨ r.row.base ≠ F.SFL_EVENTS.TRIP.base) →
    r.row.base ≠ F.MGT_SNS_RANGE.HI.base →
    exec (.rcRead a hw) s = .next ⟨({ s.chip with rdData := BitVec.ofNat 64 (s.chip.viewReg a).toNat }).wr a
      (BitVec.ofNat 32 (Nat.land hw.toNat (r.row.mask .rc))), s.pending⟩) ∧
  (∀ (s : State) (a : Fin 134217728), s.chip.power.vin = true →
    ∃ t, exec (.badWrite a) s = .next t ∧ t.chip.getF F.HST_ERR_CAUSE.BAD_WRITE = 1 ∧ t.chip.rdData = s.chip.rdData ∧
      (s.chip.getF F.HST_ERR_CAUSE.all = 0 → t.chip.getQ F.HST_ERR_ADDR.V = a)) ∧
  (∀ (s : State) (a : Fin 134217728), s.chip.power.vin = true →
    ∃ t, exec (.badRead a) s = .next t ∧ t.chip.getF F.HST_ERR_CAUSE.BAD_READ = 1 ∧ t.chip.rdData = 0xFFFFFFFF ∧
      (s.chip.getF F.HST_ERR_CAUSE.all = 0 → t.chip.getQ F.HST_ERR_ADDR.V = a))

/-- From R14, R579, R580: a write of an SO field by another writer changes no SO register but the counter, the event and the
capture; the capture keeps an attempt that has not been read; as part of a command the command returns DENIED. The model's own
choices that it rests on, which no rule is cited for: log entries 14 and 24. -/
def Obligations.SafelightWritesAreDeniedAndCaptured : Prop :=
  (∀ (s : State) (a : Fin 134217728) (src : Fin 9) (ctx : Fin 1024), s.chip.power.vin = true → holdsSo a = true →
    s.chip.sfl.deniedArmed = true →
    ∃ t, exec (.deniedWrite a src ctx none) s = .next t ∧
      t.chip.getF F.SFL_LAST_DENIED0.ADDR = a ∧ t.chip.getF F.SFL_LAST_DENIED1.SOURCE = src ∧
      t.chip.getF F.SFL_LAST_DENIED1.CONTEXT = (if src.val = 5 ∨ src.val = 6 then ctx.val else 0) ∧
      t.chip.getF F.SFL_CNT_DENIED_WRITE.V = min (2 ^ 32 - 1) (s.chip.getF F.SFL_CNT_DENIED_WRITE.V + 1) ∧
      t.chip.getF F.SFL_EVENTS.DENIED_WRITE = 1 ∧ t.chip.sfl = { s.chip.sfl with deniedArmed := false } ∧
      (∀ k, k ≠ 0x20030 → k ≠ 0x20034 → k ≠ 0x20040 → k ≠ 0x20020 → ¬(0x88000 ≤ k ∧ k < 0x88100) →
        t.chip.rd k = s.chip.rd k)) ∧
  (∀ (s : State) (a : Fin 134217728) (src : Fin 9) (ctx : Fin 1024), s.chip.power.vin = true → holdsSo a = true →
    s.chip.sfl.deniedArmed = false →
    ∃ t, exec (.deniedWrite a src ctx none) s = .next t ∧
      t.chip.getF F.SFL_CNT_DENIED_WRITE.V = min (2 ^ 32 - 1) (s.chip.getF F.SFL_CNT_DENIED_WRITE.V + 1) ∧
      t.chip.getF F.SFL_EVENTS.DENIED_WRITE = 1 ∧ t.chip.sfl = s.chip.sfl ∧
      (∀ k, k ≠ 0x20040 → k ≠ 0x20020 → ¬(0x88000 ≤ k ∧ k < 0x88100) → t.chip.rd k = s.chip.rd k)) ∧
  (∀ (s : State) (a : Fin 134217728) (src : Fin 9) (ctx : Fin 1024) (p : Fin 10), s.chip.power.vin = true →
    holdsSo a = true →
    exec (.deniedWrite a src ctx (some p)) s = .next ⟨s.chip.finish (portOf p).1 stDenied (portOf p).2, s.pending⟩)

/-- From R546, R622: the supplies. VSB brings up the always-on domain; VIN starts the device, unless a trip OFF still holds it;
the loss of VIN leaves only the always-on domain, the loss of VSB leaves the flash. The model's own choices that it rests on,
which no rule is cited for: log entries 4, 8 and 110. -/
def Obligations.SuppliesStartAndStopTheDevice : Prop :=
  (∀ s : State, s.chip.power.vsb = false →
    ∃ t, exec .vsbRise s = .next t ∧ t.chip.power = { s.chip.power with vsb := true, aon := true, fresh := true } ∧
      t.chip.flash = s.chip.flash ∧ t.chip.mgt = s.chip.mgt) ∧
  (∀ s : State, s.chip.power.vsb = true →
    ∃ t, exec .vsbLoss s = .next t ∧ t.chip.power.vsb = false ∧ t.chip.power.vin = false ∧ t.chip.power.aon = false ∧
      t.chip.flash = s.chip.flash ∧ t.chip.hostMem = s.chip.hostMem ∧ t.chip.dram = [] ∧ t.chip.mgt.logBuf = [] ∧
      t.chip.mgt.logFlash = s.chip.mgt.logFlash ∧ t.chip.mgt.nextSeq = s.chip.mgt.nextSeq) ∧
  (∀ s : State, s.chip.power.aon = true → s.chip.power.vin = false → s.chip.power.offHeld = false →
    ∃ t, exec .vinQualified s = .next t ∧ t.chip.power.vin = true ∧ t.chip.power.loadDue = true ∧
      t.chip.power.bar0Gated = false ∧ t.chip.time.acc = 0 ∧ t.chip.time.mt = 0 ∧ t.chip.timeValid = false ∧
      t.chip.dram = [] ∧ t.chip.pkts = [] ∧ t.chip.flash = s.chip.flash ∧ t.chip.sfl = s.chip.sfl ∧
      t.chip.time.incr = Config.incrCalibration % 2 ^ 48) ∧
  (∀ s : State, s.chip.power.offHeld = true → exec .vinQualified s = .next s) ∧
  (∀ s : State, s.chip.power.vin = true →
    ∃ t, exec .vinLoss s = .next t ∧ t.chip.power.vin = false ∧ t.chip.power.aon = s.chip.power.aon ∧
      t.chip.power.offHeld = false ∧ t.chip.dram = [] ∧ t.chip.pkts = [] ∧ t.chip.flash = s.chip.flash ∧
      t.chip.sfl = s.chip.sfl) ∧
  (∀ s : State, s.chip.power.vin = false →
    exec .vinLoss s = .next ⟨{ s.chip with power := { s.chip.power with offHeld := false } }, s.pending⟩) ∧
  (∀ (s : State) (mv : Fin 65536), s.chip.power.vin = true → s.chip.power.aon = true →
    s.chip.mgt.logBuf.length < 1024 →
    ∃ t e, exec (.vinOver mv) s = .next t ∧ t.chip.power.vin = false ∧
      t.chip.mgt.logBuf = s.chip.mgt.logBuf ++ [e] ∧ e.code = 0x0207 ∧ e.severity = 3 ∧ e.data = mv.val)

/-- From R513, R540: a device reset. The key starts it; a wrong key does nothing; where the policy allows none the attempt is
reported and captured; a scheduled one comes at its time. It is as a power-up, with the always-on domain running on and the link
up. The model's own choices that it rests on, which no rule is cited for: log entries 2, 8, 9, 42 and 111. -/
def Obligations.DeviceResetKeepsTheAlwaysOnDomain : Prop :=
  (∀ s : State, s.chip.power.vin = true → s.chip.resetAllowed = true →
    ∃ t, exec (.deviceReset 0x0512A5A5) s = .next t ∧ t.chip.power.vin = true ∧ t.chip.power.aon = s.chip.power.aon ∧
      t.chip.power.vsb = s.chip.power.vsb ∧ t.chip.power.bar0Gated = true ∧ t.chip.power.loadDue = true ∧
      t.chip.time.acc = 0 ∧ t.chip.timeValid = false ∧ t.chip.dram = [] ∧ t.chip.pkts = [] ∧ t.chip.ports = [] ∧
      t.chip.flash = s.chip.flash ∧ t.chip.sfl = s.chip.sfl ∧
      t.chip.rd F.HST_LINK_STATUS.all.base = s.chip.rd F.HST_LINK_STATUS.all.base ∧
      (∀ k, 0x20000 ≤ k → k < 0x30000 → t.chip.rd k = s.chip.rd k)) ∧
  (∀ (s : State) (k : Word), s.chip.power.vin = true → k ≠ 0x0512A5A5 → exec (.deviceReset k) s = .next s) ∧
  (∀ s : State, s.chip.power.vin = true → s.chip.resetAllowed = false →
    exec (.deviceReset 0x0512A5A5) s = .next ⟨(s.chip.deniedCapture 0 F.HST_RESET.V.base 0).hostErr
      F.HST_ERR_CAUSE.RESET_DENIED 0 F.HST_RESET.V.base, s.pending⟩) ∧
  (∀ (s : State) (d : Nat), s.chip.power.vin = true → s.chip.gang.resetAt = some d → s.chip.due d = true →
    ∃ t, exec .scheduledDeviceReset s = .next t ∧ t.chip.power.bar0Gated = true ∧ t.chip.power.loadDue = true ∧
      t.chip.time.acc = 0 ∧ t.chip.dram = [] ∧ t.chip.gang = GangSt.reset ∧ t.chip.flash = s.chip.flash) ∧
  (∀ s : State, s.chip.power.vin = true → s.chip.gang.resetAt = none → exec .scheduledDeviceReset s = .next s)

/-- From R38: a fault of the Safelight partition or of the always-on domain is not recovered: every transmitter idle,
FAULT_PENDING and an event-log entry. -/
def Obligations.UnrecoverableFaultHoldsTheDevice : Prop :=
  ∀ (s : State) (sfl : Bool), s.chip.power.vin = true → s.chip.power.aon = true → s.chip.mgt.logBuf.length + 2 ≤ 1024 →
    ∃ t, exec (.unrecoverableFault sfl) s = .next t ∧ t.chip.power.idleAll = true ∧
      t.chip.power.aonFault = (s.chip.power.aonFault || sfl) ∧ t.chip.getF F.GLB_STATUS.FAULT_PENDING = 1 ∧
      t.chip.mgt.logBuf.length = s.chip.mgt.logBuf.length + (if sfl then 2 else 1) ∧
      t.chip.flash = s.chip.flash ∧ t.chip.dram = s.chip.dram ∧ t.chip.pkts = s.chip.pkts ∧ t.chip.recov = s.chip.recov

/-- From R59, R61, R63, R64, R69: the loads and the commands on Plate images. A start without a Plate holds every transmitter
idle; VERIFY makes a staged image that passes its checks the pending Plate; WRITE_SLOT takes the pending Plate to a flash slot,
which is VALID once read back and EMPTY where it failed; SELECT_BOOT moves BOOT; ADOPT makes the pending Plate current. The
model's own choices that it rests on, which no rule is cited for: log entries 8, 47, 53, 54 and 62. -/
def Obligations.PlateImagesAreVerifiedWrittenAndAdopted : Prop :=
  (∀ (s : State) (ms : List (List Nat)), s.chip.power.vin = true → s.chip.power.loadDue = true →
    s.chip.flash.plateA.state ≠ 2 → s.chip.flash.plateB.state ≠ 2 →
    ∃ t, exec (.fullLoad ms) s = .next t ∧ t.chip.power.loadDue = false ∧ t.chip.power.idleAll = true ∧
      t.chip.plate.cur = s.chip.plate.cur ∧ t.chip.flash.plateA = s.chip.flash.plateA ∧
      t.chip.flash.plateB = s.chip.flash.plateB) ∧
  (∀ (s : State) (ms : List (List Nat)), s.chip.power.loadDue = false → exec (.fullLoad ms) s = .next s) ∧
  (∀ s : State, s.chip.power.vin = true → s.chip.flag F.PLT_CMD_STATUS.RUNNING = false → s.chip.stagedBad = false →
    s.chip.plate.mixed = [] → s.chip.pendBath = false →
    ∃ t, exec .verify s = .next t ∧ t.chip.dram = s.chip.dram ∧ t.chip.flash = s.chip.flash ∧
      t.chip.plate.cur = s.chip.plate.cur ∧
      ((s.chip.plateCheck s.chip.stagedImage).1 = 0 → t.chip.getF F.PLT_CMD_STATUS.STATUS = stOk ∧
        t.chip.plate.pend = some (s.chip.stagedImage.take (plTotal s.chip.stagedImage))) ∧
      ((s.chip.plateCheck s.chip.stagedImage).1 ≠ 0 → t.chip.getF F.PLT_CMD_STATUS.STATUS = stInvalid ∧
        t.chip.plate = s.chip.plate)) ∧
  (∀ (s : State) (b : Bool) (img : Bytes), s.chip.power.vin = true → s.chip.flag F.PLT_CMD_STATUS.RUNNING = false →
    s.chip.plate.pend = some img → s.chip.slotKept b = false →
    exec (.writeSlot b) s = .next ⟨{ s.chip.putF F.PLT_CMD_STATUS.RUNNING 1 with
      plate := { s.chip.plate with slotWrite := some (b, img) } }, s.pending⟩) ∧
  (∀ (s : State) (b : Bool) (img : Bytes), s.chip.power.vin = true → s.chip.flag F.PLT_CMD_STATUS.RUNNING = false →
    s.chip.plate.pend = some img → s.chip.good b = true → s.chip.good (!b) = false →
    exec (.writeSlot b) s = .next ⟨s.chip.finish portPlt stInvalid, s.pending⟩) ∧
  (∀ (s : State) (b ok : Bool) (img : Bytes), s.chip.power.vin = true → s.chip.plate.slotWrite = some (b, img) →
    ∃ t, exec (.flashSlotWriteDone true ok) s = .next t ∧ t.chip.plate.slotWrite = none ∧
      t.chip.slotOf 0 b = (if ok then ⟨1, img⟩ else Slot.empty) ∧ t.chip.slotOf 0 (!b) = s.chip.slotOf 0 (!b) ∧
      t.chip.good b = false ∧ t.chip.getF F.PLT_CMD_STATUS.STATUS = (if ok then stOk else stTimeout) ∧
      t.chip.getF F.PLT_CMD_STATUS.RUNNING = 0) ∧
  (∀ (s : State) (b : Bool), s.chip.power.vin = true → s.chip.flag F.PLT_CMD_STATUS.RUNNING = false →
    (s.chip.slotOf 0 b).state ≠ 0 →
    ∃ t, exec (.selectBoot b) s = .next t ∧ t.chip.slotOf 0 b = { s.chip.slotOf 0 b with state := 2 } ∧
      (t.chip.slotOf 0 (!b)).image = (s.chip.slotOf 0 (!b)).image ∧
      (t.chip.slotOf 0 (!b)).state = (if (s.chip.slotOf 0 (!b)).state = 2 then 1 else (s.chip.slotOf 0 (!b)).state) ∧
      t.chip.getF F.PLT_CMD_STATUS.STATUS = stOk) ∧
  (∀ (s : State) (b : Bool), s.chip.power.vin = true → s.chip.flag F.PLT_CMD_STATUS.RUNNING = false →
    (s.chip.slotOf 0 b).state = 0 →
    exec (.selectBoot b) s = .next ⟨s.chip.finish portPlt stInvalid, s.pending⟩) ∧
  (∀ (s : State) (raise : Bool) (img : Bytes), s.chip.power.vin = true → s.chip.flag F.PLT_CMD_STATUS.RUNNING = false →
    s.chip.plate.pend = some img → s.chip.pendBath = false →
    ∃ t, exec (.adopt raise) s = .next t ∧ t.chip.plate = { s.chip.plate with cur := some img, mixed := [] } ∧
      t.chip.getF F.PLT_MIXED.V = 0 ∧ t.chip.getF F.PLT_CMD_STATUS.STATUS = stOk ∧
      t.chip.flash.plateFloor = (if raise then max (plSerial img) s.chip.flash.plateFloor else s.chip.flash.plateFloor) ∧
      t.chip.pkts = s.chip.pkts ∧ t.chip.rules = s.chip.rules) ∧
  (∀ (s : State) (img : Bytes), s.chip.power.vin = true → s.chip.flag F.PLT_CMD_STATUS.RUNNING = false →
    s.chip.plate.pend = some img → s.chip.plate.mixed = [] → s.chip.pendBath = false →
    ∃ t, exec .abandon s = .next t ∧ t.chip.plate = { s.chip.plate with pend := none } ∧
      t.chip.getF F.PLT_CMD_STATUS.STATUS = stOk) ∧
  (∀ (s : State) (ms : List (List Nat)), s.chip.power.vin = true → s.chip.flag F.PLT_CMD_STATUS.RUNNING = false →
    s.chip.flag F.GLB_STATUS.PLATE_LOADED = true →
    exec (.loadStaged ms) s = .next ⟨s.chip.finish portPlt stInvalid, s.pending⟩) ∧
  (∀ (s : State) (ms : List (List Nat)) (img : Bytes), s.chip.power.vin = true →
    s.chip.flag F.PLT_CMD_STATUS.RUNNING = false → s.chip.flag F.GLB_STATUS.PLATE_LOADED = false →
    s.chip.stagedBad = false → img = s.chip.stagedImage →
    ∃ t, exec (.loadStaged ms) s = .next t ∧
      (((s.chip.putF F.PLT_LOAD_STATUS.ORIGIN 2).checkPlate img).1 = false →
        t.chip = ((s.chip.putF F.PLT_LOAD_STATUS.ORIGIN 2).checkPlate img).2.finish portPlt stInvalid) ∧
      (∀ d, (s.chip.putF F.PLT_LOAD_STATUS.ORIGIN 2).checkPlate img = (true, d) →
        (d.loadPlate (img.take (plTotal img)) 2 ms).flag F.GLB_STATUS.PLATE_LOADED = true →
        t.chip = (d.loadPlate (img.take (plTotal img)) 2 ms).finish portPlt stOk))

/-- From R65 to R73: a stop-bath entry from its command to its end: accepted and draining at once, or scheduled and cancelled;
started at its time; stopped, reloaded and restarted; given up after the drain limit; freed by a read of its state. The model's
own choices that it rests on, which no rule is cited for: log entries 9, 48, 49, 50, 51 and 53. -/
def Obligations.StopBathEntriesPassTheirPhases : Prop :=
  (∀ (s : State) (u : Fin 16) (i : Fin 512) (src : Bool), s.chip.power.vin = true →
    s.chip.flag F.PLT_CMD_STATUS.RUNNING = false → s.chip.bathInvalid u i src false = false →
    (src = true → loadOnlyDiffers (s.chip.plate.cur.getD []) (s.chip.plate.pend.getD []) = false) →
    s.chip.bathDenied u i src = false → s.chip.bathBusy u i = false →
    exec (.stopBath u i src false) s = .next ⟨((((s.chip.putF F.PLT_CMD_STATUS.ENTRY s.chip.freeBath).putF F.PLT_SB_STATE.all
      (i * 2 ^ 16 + u * 2 ^ 12 + b2n src * 2 ^ 11) s.chip.freeBath).startDrain s.chip.freeBath false).finish portPlt stOk).flush,
      s.pending⟩) ∧
  (∀ (s : State) (u : Fin 16) (i : Fin 512) (src : Bool) (d : Nat), s.chip.power.vin = true →
    s.chip.flag F.PLT_CMD_STATUS.RUNNING = false → s.chip.bathInvalid u i src true = false →
    (src = true → loadOnlyDiffers (s.chip.plate.cur.getD []) (s.chip.plate.pend.getD []) = false) →
    s.chip.bathDenied u i src = false → s.chip.bathBusy u i = false → d = s.chip.getQ F.PLT_CMD_TIME.V →
    s.chip.timeClass d = .ahead →
    exec (.stopBath u i src true) s = .next ⟨((((((s.chip.putF F.PLT_CMD_STATUS.ENTRY s.chip.freeBath).putF F.PLT_SB_STATE.all
      (i * 2 ^ 16 + u * 2 ^ 12 + b2n src * 2 ^ 11) s.chip.freeBath).putQ F.PLT_SB_TIME.V d s.chip.freeBath).putF
      F.PLT_SB_STATE.PHASE 1 s.chip.freeBath).finish portPlt stOk).flush), s.pending⟩) ∧
  (∀ (s : State) (u : Fin 16) (i : Fin 512) (src timed : Bool), s.chip.power.vin = true →
    s.chip.flag F.PLT_CMD_STATUS.RUNNING = false → s.chip.bathInvalid u i src timed = true →
    exec (.stopBath u i src timed) s = .next ⟨(s.chip.finish portPlt stInvalid).flush, s.pending⟩) ∧
  (∀ (s : State) (n : Fin 8), s.chip.power.vin = true → s.chip.flag F.PLT_CMD_STATUS.RUNNING = false →
    s.chip.sbPhase n = 1 →
    ∃ t, exec (.cancel n) s = .next t ∧ t.chip.sbPhase n = 0 ∧ t.chip.getF F.PLT_SB_STATE.all n = 0 ∧
      t.chip.getQ F.PLT_SB_TIME.V n = 0 ∧ t.chip.getF F.PLT_CMD_STATUS.STATUS = stOk ∧ t.chip.plate = s.chip.plate) ∧
  (∀ (s : State) (n : Fin 8), s.chip.power.vin = true → s.chip.flag F.PLT_CMD_STATUS.RUNNING = false →
    s.chip.sbPhase n ≠ 1 → exec (.cancel n) s = .next ⟨s.chip.finish portPlt stInvalid, s.pending⟩) ∧
  (∀ (s : State) (n : Fin 8), s.chip.power.vin = true → s.chip.sbPhase n = 1 →
    s.chip.time.late.contains (.bath n) = false → s.chip.due (s.chip.getQ F.PLT_SB_TIME.V n) = true →
    exec (.stopBathStart n) s = .next ⟨(s.chip.startDrain n false).flush, s.pending⟩) ∧
  (∀ (s : State) (n : Fin 8), s.chip.power.vin = true → s.chip.sbPhase n = 1 →
    s.chip.time.late.contains (.bath n) = true →
    exec (.stopBathStart n) s = .next ⟨(s.chip.startDrain n true).flush, s.pending⟩) ∧
  (∀ (s : State) (n : Fin 8), s.chip.power.vin = true → s.chip.sbPhase n = 2 → s.chip.drained n = true →
    s.chip.sbUnit n ≠ 3 →
    exec (.stopBathDrained n) s = .next ⟨(s.chip.putF F.PLT_SB_STATE.PHASE 3 n).flush, s.pending⟩) ∧
  (∀ (s : State) (n : Fin 8), s.chip.power.vin = true → s.chip.sbPhase n = 2 → s.chip.drained n = false →
    exec (.drainTimeout n) s = .next ⟨(s.chip.bathEnd n stTimeout false true).flush, s.pending⟩) ∧
  (∀ (s : State) (n : Fin 8), s.chip.power.vin = true → s.chip.sbPhase n = 3 →
    exec (.stopBathApplied n) s = .next ⟨((s.chip.applyUnit n).putF F.PLT_SB_STATE.PHASE 4 n).flush, s.pending⟩) ∧
  (∀ (s : State) (n : Fin 8) (ms : List Nat), s.chip.power.vin = true → s.chip.sbPhase n = 4 → s.chip.sbUnit n ≠ 7 →
    exec (.stopBathRestarted n ms) s = .next ⟨((s.chip.bathMixed n).bathEnd n
      (if s.chip.plate.bathLate.contains n.val then stLate else stOk) true true).flush, s.pending⟩) ∧
  (∀ (s : State) (n : Fin 8), s.chip.power.vin = true → s.chip.sbPhase n = 5 →
    exec (.sbStateRead n) s = .next ⟨({ s.chip with rdData := BitVec.ofNat 64 (s.chip.getF F.PLT_SB_STATE.all n) }).putF
      F.PLT_SB_STATE.all 0 n, s.pending⟩) ∧
  (∀ (s : State) (n : Fin 8), s.chip.power.vin = true → s.chip.sbPhase n ≠ 5 →
    exec (.sbStateRead n) s = .next ⟨{ s.chip with rdData := BitVec.ofNat 64 (s.chip.getF F.PLT_SB_STATE.all n) }, s.pending⟩)

/-- From R89 to R93, R101, R102: the states of a lane. Each command takes the lane to the state the rule names (laneGo), with
the reason of a failure and the period of its back-off; a command that the lane's state does not admit changes nothing. The
model's own choices that it rests on, which no rule is cited for: log entries 8 and 36. -/
def Obligations.LaneStatesFollowTheirEvents : Prop :=
  (∀ (s : State) (l : Fin 1032), s.chip.power.vin = true →
    (s.chip.lput l F.LNA_CTRL.ENABLE 1).laneMayRun l = true → (s.chip.lput l F.LNA_CTRL.ENABLE 1).lstate l = 0 →
    exec (.laneEnable l true) s = .next ⟨((s.chip.lput l F.LNA_CTRL.ENABLE 1).onLane l LaneSt.fresh).laneGo l 1, s.pending⟩) ∧
  (∀ (s : State) (l : Fin 1032), s.chip.power.vin = true →
    exec (.laneEnable l false) s = .next ⟨(s.chip.lput l F.LNA_CTRL.ENABLE 0).laneOff l, s.pending⟩) ∧
  (∀ (s : State) (l : Fin 1032), s.chip.power.vin = true → (s.chip.lane l).groupBack = false →
    s.chip.lstate l ≠ 0 → s.chip.lstate l ≠ 1 → s.chip.lstate l ≠ 10 → s.chip.lstate l ≠ 11 →
    exec (.restart l) s = .next ⟨((s.chip.laneReason l 7).bringUp l).sendAbort l 7, s.pending⟩) ∧
  (∀ (s : State) (l : Fin 1032), s.chip.power.vin = true →
    (s.chip.lstate l = 0 ∨ s.chip.lstate l = 1 ∨ s.chip.lstate l = 10 ∨ s.chip.lstate l = 11) →
    exec (.restart l) s = .next s) ∧
  (∀ (s : State) (l : Fin 1032), s.chip.power.vin = true → s.chip.lstate l = 1 →
    exec (.pinTestDone l 0 0) s = .next ⟨((s.chip.lput l F.LNA_PIN_STATUS.TX_FAULT 0).lput l F.LNA_PIN_STATUS.RX_FAULT 0).bringUp l,
      s.pending⟩) ∧
  (∀ (s : State) (l : Fin 1032) (tx rx : Fin 16), s.chip.power.vin = true → s.chip.lstate l = 1 →
    (pinFatal tx || pinFatal rx) = true →
    exec (.pinTestDone l tx rx) s = .next ⟨(((s.chip.pinCodes l tx rx).laneReason l 5).onLane l LaneSt.fresh).laneGo l 10,
      s.pending⟩) ∧
  (∀ (s : State) (l : Fin 1032) (tx rx : Fin 16), s.chip.power.vin = true → s.chip.lstate l ≠ 0 →
    (pinFatal tx || pinFatal rx) = true →
    exec (.pinFault l tx rx) s = .next ⟨(((s.chip.pinCodes l tx rx).laneReason l 5).onLane l LaneSt.fresh).laneGo l 10,
      s.pending⟩) ∧
  (∀ (s : State) (l : Fin 1032), s.chip.power.vin = true → s.chip.lstate l = 10 →
    exec (.faultRetest l) s = .next ⟨(s.chip.onLane l LaneSt.fresh).laneGo l 1, s.pending⟩ ∧
    exec (.retest l) s = .next ⟨(s.chip.onLane l LaneSt.fresh).laneGo l 1, s.pending⟩) ∧
  (∀ (s : State) (l : Fin 1032), s.chip.power.vin = true → s.chip.lstate l ≠ 10 →
    exec (.faultRetest l) s = .next s ∧ exec (.retest l) s = .next s) ∧
  (∀ (s : State) (l : Fin 1032) (n : Nat), s.chip.power.vin = true → (s.chip.lane l).switchTo = some n →
    exec (.stepSwitch l) s = .next ⟨((((s.chip.onLane l fun x => { x with
        ownStep := none, ownStepAcked := false, partStep := none, switchTo := none, qualOwn := none, qualPart := none,
        holdSent := false, holdIn := none, upSent := false, upIn := false, acks := [] }).lput l
      F.LNA_STATUS.STEP n).lput l F.LNA_MODE.RATE (stepRate n)).lput l F.LNA_STATUS.CDR_LOCK 0).laneGo l 5, s.pending⟩) ∧
  (∀ (s : State) (l : Fin 1032), s.chip.power.vin = true → s.chip.lstate l = 5 →
    exec (.stepAcquired l) s = .next ⟨(s.chip.lput l F.LNA_STATUS.CDR_LOCK 1).laneGo l 6, s.pending⟩ ∧
    exec (.acquisitionTimeout l) s = .next ⟨s.chip.laneFail l 2, s.pending⟩) ∧
  (∀ (s : State) (l : Fin 1032), s.chip.power.vin = true → 4 ≤ s.chip.lstate l → s.chip.lstate l ≤ 7 →
    exec (.stepTimeout l) s = .next ⟨s.chip.laneFail l
      (if s.chip.lstate l = 4 ∧ (s.chip.lane l).capIn = false then 1 else 2), s.pending⟩) ∧
  (∀ (s : State) (l : Fin 1032), s.chip.power.vin = true → s.chip.lstate l = 2 → (s.chip.lane l).groupBack = false →
    exec (.backoffEnd l) s = .next ⟨(s.chip.onLane l LaneSt.fresh).laneGo l 1, s.pending⟩) ∧
  (∀ (s : State) (l : Fin 1032), s.chip.power.vin = true → (s.chip.lput l F.LNA_STATUS.SIGNAL 1).lstate l ≠ 2 →
    exec (.signalRise l) s = .next ⟨s.chip.lput l F.LNA_STATUS.SIGNAL 1, s.pending⟩) ∧
  (∀ (s : State) (l : Fin 1032), s.chip.power.vin = true → s.chip.laneUp l = true →
    exec (.linkLost l) s = .next ⟨(s.chip.laneReason l 6).bringUp l, s.pending⟩) ∧
  (∀ (s : State) (l : Fin 1032) (ffe : Word), s.chip.power.vin = true → s.chip.lstate l = 3 →
    exec (.ieeeTrainingDone l ffe) s = .next ⟨(s.chip.lput l F.LNA_TX_FFE.all ffe.toNat).laneIsUp l, s.pending⟩) ∧
  (∀ (s : State) (l : Fin 1032) (heard : Bool), s.chip.power.vin = true → s.chip.lstate l = 3 →
    exec (.ieeeTrainingTimeout l heard) s = .next ⟨s.chip.laneFail l (if heard then 2 else 1), s.pending⟩) ∧
  (∀ (c : Chip) (l k : Nat), l < 1024 → k < 16 → c.laneOwner l = none → (c.laneGo l k).lstate l = k) ∧
  (∀ (c : Chip) (l r : Nat), c.laneFail l r = ((c.laneReason l r).backOff l).sendAbort l r)

/-- From R83, R86 to R89: the sets of the staircase. A set of its TYPE that arrives whole while the lane brings up has the
effect of its TYPE; any other set changes nothing. The model's own choices that it rests on, which no rule is cited for: log
entries 8 and 31. -/
def Obligations.StaircaseSetsNegotiate : Prop :=
  (∀ (s : State) (l : Fin 1032) (g : SetGroups), s.chip.power.vin = true → (g.ctrlOk && g.dataOk) = false →
    exec (.capSet l g) s = .next s ∧ exec (.ackSet l g) s = .next s ∧ exec (.stepSet l g) s = .next s ∧
    exec (.qualSet l g) s = .next s ∧ exec (.holdSet l g) s = .next s ∧ exec (.abortSet l g) s = .next s ∧
    exec (.upSet l g) s = .next s) ∧
  (∀ (s : State) (l : Fin 1032) (g : SetGroups), s.chip.power.vin = true →
    crc8 (g.grp.take 13) ≠ byteAt g.grp 13 →
    exec (.capSet l g) s = .next s ∧ exec (.ackSet l g) s = .next s ∧ exec (.stepSet l g) s = .next s ∧
    exec (.qualSet l g) s = .next s ∧ exec (.holdSet l g) s = .next s ∧ exec (.abortSet l g) s = .next s ∧
    exec (.upSet l g) s = .next s) ∧
  (∀ (s : State) (l : Fin 1032) (g : SetGroups) (pl : Bytes), s.chip.power.vin = true → s.chip.setIn l 5 g = some pl →
    exec (.holdSet l g) s = .next ⟨s.chip.onLane l fun x => { x with holdIn := some (byteAt pl 0) }, s.pending⟩) ∧
  (∀ (s : State) (l : Fin 1032) (g : SetGroups) (pl : Bytes), s.chip.power.vin = true → s.chip.setIn l 6 g = some pl →
    exec (.abortSet l g) s = .next ⟨s.chip.laneFail l 7, s.pending⟩) ∧
  (∀ (s : State) (l : Fin 1032) (g : SetGroups) (pl : Bytes), s.chip.power.vin = true → s.chip.setIn l 7 g = some pl →
    byteAt pl 0 = s.chip.lget l F.LNA_STATUS.STEP → (s.chip.lane l).upSent = false →
    exec (.upSet l g) s = .next ⟨s.chip.onLane l fun x => { x with upIn := true }, s.pending⟩) ∧
  (∀ (s : State) (l : Fin 1032) (g : SetGroups) (pl : Bytes), s.chip.power.vin = true → s.chip.setIn l 7 g = some pl →
    byteAt pl 0 = s.chip.lget l F.LNA_STATUS.STEP → (s.chip.lane l).upSent = true →
    exec (.upSet l g) s = .next ⟨(s.chip.onLane l fun x => { x with upIn := true }).laneIsUp l, s.pending⟩) ∧
  (∀ (s : State) (l : Fin 1032) (g : SetGroups) (pl : Bytes), s.chip.power.vin = true → s.chip.setIn l 3 g = some pl →
    ∃ t, exec (.stepSet l g) s = .next t ∧
      (t.chip.lane l).acks = (s.chip.lane l).acks ++ [(3, byteAt pl 1)] ∧
      (t.chip.lane l).partStep = (s.chip.nextStep l).map (min (byteAt pl 0)) ∧
      t.chip.regs = s.chip.regs ∧ (∀ k, k ≠ l.val → t.chip.lane k = s.chip.lane k)) ∧
  (∀ (s : State) (l : Fin 1032) (g : SetGroups) (pl : Bytes), s.chip.power.vin = true → s.chip.setIn l 4 g = some pl →
    s.chip.lstate l = 6 → byteAt pl 0 = s.chip.lget l F.LNA_STATUS.STEP → byteAt pl 1 ≠ 1 →
    exec (.qualSet l g) s = .next ⟨s.chip.qualFail l, s.pending⟩) ∧
  (∀ (s : State) (l : Fin 1032) (g : SetGroups) (pl : Bytes), s.chip.power.vin = true → s.chip.setIn l 4 g = some pl →
    s.chip.lstate l = 6 → byteAt pl 0 = s.chip.lget l F.LNA_STATUS.STEP → byteAt pl 1 = 1 →
    exec (.qualSet l g) s = .next ⟨(s.chip.onLane l fun x => { x with qualPart := some true }).qualCheck l, s.pending⟩) ∧
  (∀ (s : State) (l : Fin 1032) (g : SetGroups) (pl : Bytes), s.chip.power.vin = true → s.chip.setIn l 2 g = some pl →
    byteAt pl 0 = 1 → (smFind (s.chip.lane l).contents 1).isSome = true →
    smGet (fun _ => 0) (s.chip.lane l).seqs 1 = byteAt pl 1 →
    exec (.ackSet l g) s = .next ⟨(s.chip.onLane l fun x => { x with capAcked := true }).s0Check l, s.pending⟩) ∧
  (∀ (s : State) (l : Fin 1032) (g : SetGroups) (pl : Bytes), s.chip.power.vin = true → s.chip.setIn l 1 g = some pl →
    s.chip.lstate l = 4 →
    ∃ c t, c = ((s.chip.putWords (F.LNA_SC_PARTNER.V.lane l).base pl).lput l F.LNA_SC_STATUS.PARTNER_MAX (byteAt pl 4)).lput l
        F.LNA_STATUS.CDR_LOCK 1 ∧ exec (.capSet l g) s = .next t ∧
      (c.capFits l pl = false → t.chip = c.laneFail l 8) ∧
      (c.capFits l pl = true → c.laneTarget l = none → t.chip = c.laneFail l 8) ∧
      (∀ n, c.capFits l pl = true → c.laneTarget l = some n → t.chip = ((c.lput l F.LNA_SC_STATUS.TARGET n).onLane l fun x =>
        { x with capIn := true, acks := x.acks ++ [(1, byteAt pl 11)] }).s0Check l)) ∧
  (∀ (s : State) (l : Fin 1032) (r : Nat), s.chip.power.vin = true → (s.chip.lane l).abortOut = some r →
    ∃ t, exec (.setTx l) s = .next t ∧ (t.chip.lane l).abortOut = none ∧
      ((t.chip.lane l).lastTx.map Prod.fst) = some 6 ∧ t.chip.regs = s.chip.regs) ∧
  (∀ (s : State) (l : Fin 1032) (a q : Nat) (rest : List (Nat × Nat)), s.chip.power.vin = true →
    (s.chip.lane l).abortOut = none → (s.chip.lane l).acks = (a, q) :: rest → 4 ≤ s.chip.lstate l → s.chip.lstate l ≤ 7 →
    exec (.setTx l) s = .next ⟨s.chip.onLane l fun x =>
      { x with acks := rest, lastTx := some (2, natBe 1 a ++ natBe 1 q ++ zerosB 10) }, s.pending⟩) ∧
  (∀ (s : State) (l : Fin 1032) (errs : Nat) (al : Bool), s.chip.power.vin = true → s.chip.lstate l = 6 →
    (s.chip.lane l).qualOwn = none →
    ∃ c t, c = (s.chip.lput l F.LNA_SC_LAST_ERR.V (min errs (2 ^ 32 - 1))).onLane l (fun x => { x with qualOwn := some (al &&
        decide (errs ≤ if s.chip.lget l F.LNA_STATUS.STEP = 1 then s.chip.lget l F.LNA_SC_QUAL_LIMIT.V % 65536
          else s.chip.lget l F.LNA_SC_QUAL_LIMIT.V / 65536)) }) ∧
      exec (.qualWindowEnd l errs al) s = .next t ∧ (al = false → t.chip = c.qualFail l))

/-- From R79 to R82, R89, R94 to R102: the equaliser, the pattern generator and checker, alignment, polarity and dim of a lane.
Nothing but the lane's own registers and state changes where no port runs over it. The model's own choices that it rests on,
which no rule is cited for: log entries 5, 8, 19, 33, 34, 36 and 37. -/
def Obligations.LaneTestAndDimFeatures : Prop :=
  (∀ (s : State) (l : Fin 1032), s.chip.power.vin = true →
    exec (.capClear l) s = .next ⟨((s.chip.lput l F.LNA_SC_STATUS.CAPPED 0).lput l F.LNA_SC_STATUS.CAP_STEP 0).lput l
      F.LNA_SC_STATUS.FAIL_COUNT 0, s.pending⟩) ∧
  (∀ (s : State) (l : Fin 1032), s.chip.power.vin = true → s.chip.lget l F.LNA_MODE.RATE = 1 →
    exec (.idleRunFreeze l) s = .next ⟨(s.chip.onLane l fun x => { x with idleFrozen := true }).frozenShow l, s.pending⟩) ∧
  (∀ (s : State) (l : Fin 1032), s.chip.power.vin = true →
    exec (.adaptResume l) s = .next ⟨(s.chip.onLane l fun x => { x with idleFrozen := false }).frozenShow l, s.pending⟩) ∧
  (∀ (s : State) (l : Fin 1032), s.chip.power.vin = true →
    ∃ t, exec (.resetAdapt l) s = .next t ∧ (t.chip.lane l).rxAdaptRuns = (s.chip.lane l).rxAdaptRuns + 1 ∧
      t.chip.freeCtr = s.chip.freeCtr + 1 ∧
      t.chip.lget l F.LNA_RX_EQ_STATUS.CTLE_PEAK = Config.freeNat s.chip.freeCtr % 2 ^ F.LNA_RX_EQ_STATUS.CTLE_PEAK.width) ∧
  (∀ (s : State) (l : Fin 1032) (v : Word), s.chip.power.vin = true → tapSum v.toNat ≤ 127 →
    (s.chip.lstate l < 3 ∨ 7 < s.chip.lstate l) →
    exec (.ffeWrite l v) s = .next ⟨s.chip.lput l F.LNA_TX_FFE.all v.toNat, s.pending⟩) ∧
  (∀ (s : State) (l : Fin 1032) (v : Word), s.chip.power.vin = true →
    (127 < tapSum v.toNat ∨ (3 ≤ s.chip.lstate l ∧ s.chip.lstate l ≤ 7)) →
    exec (.ffeWrite l v) s = .next ⟨s.chip.lraise l F.LNA_EVENTS.FFE_REJECT, s.pending⟩) ∧
  (∀ (s : State) (l : Fin 1032), s.chip.power.vin = true →
    ((s.chip.lput l F.LNA_PG_CTRL.ENABLE 1).lstate l = 0 ∨ (s.chip.lput l F.LNA_PG_CTRL.ENABLE 1).lstate l = 1) →
    exec (.pgEnable l true) s = .next ⟨s.chip.lput l F.LNA_PG_CTRL.ENABLE 1, s.pending⟩) ∧
  (∀ (s : State) (l : Fin 1032), s.chip.power.vin = true → (s.chip.lput l F.LNA_PG_CTRL.ENABLE 0).lstate l = 11 →
    exec (.pgEnable l false) s = .next ⟨(s.chip.lput l F.LNA_PG_CTRL.ENABLE 0).bringUp l, s.pending⟩) ∧
  (∀ (s : State) (l : Fin 1032), s.chip.power.vin = true → s.chip.lflag l F.LNA_PC_CTRL.ENABLE = true →
    exec (.checkerLock l) s = .next ⟨s.chip.lput l F.LNA_PC_STATUS.LOCK 1, s.pending⟩) ∧
  (∀ (s : State) (l : Fin 1032) (bits errs : Nat), s.chip.power.vin = true → s.chip.lflag l F.LNA_PC_STATUS.LOCK = true →
    ∃ t, exec (.checkerLockLost l bits errs) s = .next t ∧ t.chip.lget l F.LNA_PC_STATUS.LOCK = 0 ∧
      t.chip.lget l F.LNA_PC_STATUS.LOCK_LOST = 1 ∧
      t.chip.getQ (F.LNA_PC_BITS.V.lane l) = min (2 ^ 48 - 1) (s.chip.getQ (F.LNA_PC_BITS.V.lane l) + bits) ∧
      t.chip.getQ (F.LNA_PC_ERR.V.lane l) = min (2 ^ 48 - 1) (s.chip.getQ (F.LNA_PC_ERR.V.lane l) + errs)) ∧
  (∀ (s : State) (l : Fin 1032), s.chip.power.vin = true →
    exec (.pcClear l) s = .next ⟨(s.chip.putQ (F.LNA_PC_BITS.V.lane l) 0).putQ (F.LNA_PC_ERR.V.lane l) 0, s.pending⟩) ∧
  (∀ (s : State) (l : Fin 1032), s.chip.power.vin = true →
    exec (.injOne l) s = .next ⟨s.chip.bumpWrap (F.LNA_PG_INJ_COUNT.V.lane l), s.pending⟩) ∧
  (∀ (s : State) (l : Fin 1032), s.chip.power.vin = true → s.chip.lget l F.LNA_PG_INJ_PERIOD.V ≠ 0 →
    exec (.periodicInjection l) s = .next ⟨s.chip.bumpWrap (F.LNA_PG_INJ_COUNT.V.lane l), s.pending⟩) ∧
  (∀ (s : State) (l : Fin 1032), s.chip.power.vin = true →
    exec (.alignModeSet l true) s = .next ⟨(s.chip.lput l F.LNA_RX_ALIGN.ALIGN_MODE 1).lput l F.LNA_RX_ALIGN.SLIP_COUNT 0,
      s.pending⟩ ∧
    exec (.alignModeSet l false) s = .next ⟨s.chip.lput l F.LNA_RX_ALIGN.ALIGN_MODE 0, s.pending⟩) ∧
  (∀ (s : State) (l : Fin 1032), s.chip.power.vin = true → s.chip.lflag l F.LNA_RX_ALIGN.ALIGN_MODE = true →
    exec (.bitslip l) s = .next ⟨s.chip.lput l F.LNA_RX_ALIGN.SLIP_COUNT ((s.chip.lget l F.LNA_RX_ALIGN.SLIP_COUNT + 1) %
      (if 4 ≤ s.chip.lget l F.LNA_MODE.RATE then 40 else 80)), s.pending⟩) ∧
  (∀ (s : State) (l : Fin 1032), s.chip.power.vin = true → s.chip.lflag l F.LNA_RX_ALIGN.ALIGN_MODE = false →
    exec (.bitslip l) s = .next s) ∧
  (∀ (s : State) (l : Fin 1032) (w : BitVec 80), s.chip.power.vin = true →
    ∃ t, exec (.capture l w) s = .next t ∧ t.chip.getBytes (F.LNA_RX_CAP.V.lane l).base 10 = natLe 10 w.toNat) ∧
  (∀ (s : State) (l : Fin 1032), s.chip.power.vin = true → s.chip.lget l F.LNA_PIN_CTRL.RX_POL = 0 →
    exec (.polarityInversion l) s = .next ⟨(s.chip.lput l F.LNA_STATUS.RX_INVERTED
      (1 - s.chip.lget l F.LNA_STATUS.RX_INVERTED)).lraise l F.LNA_EVENTS.POLARITY, s.pending⟩) ∧
  (∀ (s : State) (l : Fin 1032) (p : Nat), s.chip.power.vin = true → s.chip.lflag l F.LNA_CTRL.DIM_EN = true →
    s.chip.laneUp l = true → s.chip.laneOwner l = some p → s.chip.flag F.PRT_STATUS.LPI_CAPABLE p = true →
    s.chip.gangPort p = false → s.chip.lget l F.LNA_MODE.BRINGUP ≠ 2 →
    (s.chip.setDim l true true).lflag l F.LNA_STATUS.TX_DIM = true →
    (s.chip.setDim l true true).lflag l F.LNA_STATUS.RX_DIM = true →
    exec (.laneDimEnter l true) s = .next ⟨(s.chip.setDim l true true).laneGo l 9, s.pending⟩) ∧
  (∀ (s : State) (l : Fin 1032), s.chip.power.vin = true → s.chip.laneUp l = true →
    (s.chip.lflag l F.LNA_STATUS.TX_DIM || s.chip.lflag l F.LNA_STATUS.RX_DIM) = true →
    exec (.laneWake l) s = .next ⟨(s.chip.onLane l fun x => { x with waking := true }).wakeSlice (l / 64), s.pending⟩) ∧
  (∀ (s : State) (l : Fin 1032) (tx : Bool), s.chip.power.vin = true → (s.chip.lane l).waking = false →
    exec (.laneResumed l tx) s = .next s) ∧
  (∀ (s : State) (l : Fin 1032) (tx : Bool) (c : Chip), s.chip.power.vin = true → (s.chip.lane l).waking = true →
    c = s.chip.setDim l tx false → (c.lflag l F.LNA_STATUS.TX_DIM || c.lflag l F.LNA_STATUS.RX_DIM) = false →
    c.lstate l = 9 →
    exec (.laneResumed l tx) s = .next ⟨(c.onLane l fun x => { x with waking := false }).laneGo l 8, s.pending⟩)

/-- From R108, R109, R112, R114, R122: what the host and the line do to a port: giving up, forming again, low-power idle, and
the quanta of PAUSE and PFC. The model's own choices that it rests on, which no rule is cited for: log entries 8, 69 and 94. -/
def Obligations.PortsFormIdleAndPause : Prop :=
  (∀ (s : State) (p : Fin 512), s.chip.power.vin = true →
    (s.chip.getF F.PRT_STATUS.PSTATE p ≠ psForming ∨ s.chip.getF F.PRT_GIVEUP.S p = 0) →
    exec (.portGiveup p) s = .next s) ∧
  (∀ (s : State) (p : Fin 512), s.chip.power.vin = true → s.chip.getF F.PRT_STATUS.PSTATE p = psForming →
    s.chip.getF F.PRT_GIVEUP.S p ≠ 0 → s.chip.getF F.PRT_CFG.MODE p ≠ 18 →
    exec (.portGiveup p) s = .next ⟨(((s.chip.portLanes p).foldl (fun c l => c.groupBackOff l) s.chip).putF F.PRT_STATUS.PSTATE
      psGaveUp p).raise F.PRT_EVENTS.GAVE_UP p, s.pending⟩) ∧
  (∀ (s : State) (p : Fin 512), s.chip.power.vin = true → s.chip.getF F.PRT_STATUS.PSTATE p = psForming →
    s.chip.getF F.PRT_GIVEUP.S p ≠ 0 → s.chip.getF F.PRT_CFG.MODE p = 18 → s.chip.flag F.PRT_CFG.DEGRADE p = true →
    2 ≤ s.chip.portWidth p → (s.chip.portSt p).half = false →
    ((s.chip.portLanes p).take (s.chip.portWidth p / 2)).all (fun l => s.chip.lstate l == 7 || s.chip.laneUp l) = true →
    exec (.portGiveup p) s = .next ⟨((((s.chip.portLanes p).drop (s.chip.portWidth p / 2)).foldl (fun c l => c.groupBackOff l)
      (s.chip.setPort p { s.chip.portSt p with half := true })).raise F.PRT_EVENTS.DEGRADED p).portEval p, s.pending⟩) ∧
  (∀ (s : State) (p : Fin 512), s.chip.power.vin = true → (s.chip.portSt p).half = false → exec (.reform p) s = .next s) ∧
  (∀ (s : State) (p : Fin 512) (c : Chip), s.chip.power.vin = true → (s.chip.portSt p).half = true →
    c = s.chip.setPort p { s.chip.portSt p with half := false } →
    exec (.reform p) s = .next ⟨((c.portLanes p).foldl (fun c l => if [0, 1, 10, 11].contains (c.lstate l) then c else
      c.bringUp l) c).portEval p, s.pending⟩) ∧
  (∀ (s : State) (p : Fin 512), s.chip.power.vin = true → s.chip.flag F.PRT_CFG.LPI_EN p = true →
    s.chip.flag F.PRT_STATUS.LPI_CAPABLE p = true → s.chip.getF F.PRT_LPI.IDLE_US p ≠ 0 → s.chip.portUp p = true →
    s.chip.gangPort p = false → s.chip.flag F.PRT_STATUS.PAUSED p = false → s.chip.portHolds p = false →
    (s.chip.portSt p).txBusy = none → (s.chip.portSt p).lpiHold = false → s.chip.flag F.PRT_STATUS.LPI_TX p = false →
    exec (.lpiEnter p) s = .next ⟨(s.chip.putF F.PRT_STATUS.LPI_TX 1 p).condEv 1 p 5 true, s.pending⟩) ∧
  (∀ (s : State) (p : Fin 512), s.chip.power.vin = true → s.chip.getF F.PRT_LPI.IDLE_US p = 0 →
    exec (.lpiEnter p) s = .next s) ∧
  (∀ (s : State) (p : Fin 512), s.chip.power.vin = true → s.chip.flag F.PRT_STATUS.LPI_TX p = true →
    exec (.lpiExit p) s = .next ⟨((s.chip.setPort p { s.chip.portSt p with lpiHold := true }).putF F.PRT_STATUS.LPI_TX 0 p).condEv
      1 p 5 false, s.pending⟩) ∧
  (∀ (s : State) (p : Fin 512), s.chip.power.vin = true →
    exec (.lpiWakeDone p) s = .next ⟨s.chip.setPort p { s.chip.portSt p with lpiHold := false }, s.pending⟩) ∧
  (∀ (s : State) (p : Fin 512) (k : Fin 16), s.chip.power.vin = true →
    exec (.pauseExpiry p k) s = .next ⟨s.chip.setPause p [k.val] 0, s.pending⟩) ∧
  (∀ (s : State) (p : Fin 512) (fr : Bytes), s.chip.power.vin = true → s.chip.portUp p = true → beAt fr 12 2 = 0x8808 →
    beAt fr 14 2 = 1 → s.chip.getF F.PRT_CFG.PAUSE_MODE p = 1 →
    exec (.pauseFrame p fr) s = .next ⟨(((s.chip.rxSize p (max 64 (fr.length + 4))).stat p 10).signal 1 p 1).setPause p
      (List.range 16) (beAt fr 16 2), s.pending⟩) ∧
  (∀ (s : State) (p : Fin 512) (fr : Bytes), s.chip.power.vin = true → s.chip.portUp p = true → beAt fr 12 2 = 0x8808 →
    beAt fr 14 2 = 1 → s.chip.getF F.PRT_CFG.PAUSE_MODE p ≠ 1 →
    exec (.pauseFrame p fr) s = .next ⟨(s.chip.rxSize p (max 64 (fr.length + 4))).stat p 9, s.pending⟩) ∧
  (∀ (s : State) (p : Fin 512) (fr : Bytes), s.chip.power.vin = true → s.chip.portUp p = true → beAt fr 12 2 = 0x8808 →
    beAt fr 14 2 = 0x101 → s.chip.getF F.PRT_CFG.PAUSE_MODE p = 2 →
    exec (.pfcFrame p fr) s = .next ⟨(List.range 8).foldl (fun c r =>
      if bitOf r (beAt fr 16 2) then c.setPause p (c.pfcClasses p r) (beAt fr (18 + 2 * r) 2) else c)
      (((s.chip.rxSize p (max 64 (fr.length + 4))).stat p 11).signal 1 p 1), s.pending⟩) ∧
  (∀ (c : Chip) (p : Nat) (ks : List Nat) (q k : Nat), k ∈ ks →
    smGet (fun _ => 0) ((c.setPause p ks q).portSt p).pause k = q) ∧
  (∀ (s : State) (p : Fin 512) (d : Fin 2) (v : Word), s.chip.power.vin = true → s.chip.flag F.PRT_CVU_CTRL.SNOOP_EN p d = false →
    exec (.cvuRunWrite p d v) s = .next ⟨s.chip.putF F.PRT_CVU_RUN.V
      (v.toNat % 2 ^ (polyOf (s.chip.getF F.PRT_CVU_CTRL.POLY p d)).width) p d, s.pending⟩) ∧
  (∀ (s : State) (p : Fin 512) (d : Fin 2) (v : Word), s.chip.power.vin = true → s.chip.flag F.PRT_CVU_CTRL.SNOOP_EN p d = true →
    exec (.cvuRunWrite p d v) s = .next ⟨s.chip.setPort p { s.chip.portSt p with
      cvuStaged := smPut (s.chip.portSt p).cvuStaged d
        (v.toNat % 2 ^ (polyOf (s.chip.getF F.PRT_CVU_CTRL.POLY p d)).width + 1) }, s.pending⟩)

/-- From R113, R115, R116, R124, R125, R389, R402, R468 to R470, R584: a frame received by a port, from its head to its tail.
The model's own choices that it rests on, which no rule is cited for: log entries 8, 38, 39, 40, 76, 93, 95, 106, 112 and 113. -/
def Obligations.FramesAreReceivedAndCounted : Prop :=
  (∀ (s : State) (p : Fin 512) (hd : Bytes), s.chip.power.vin = true → s.chip.portUp p = false →
    exec (.frameHead p hd) s = .next s) ∧
  (∀ (s : State) (p : Fin 512) (hd : Bytes), s.chip.power.vin = true → s.chip.portUp p = true →
    (s.chip.portSt p).arriving = none → (s.chip.portSt p).discard = 0 → s.chip.tripHold = true →
    exec (.frameHead p hd) s = .next ⟨(s.chip.setPort p { s.chip.portSt p with
      iseq := ((s.chip.portSt p).iseq + 1) % 2 ^ 32, discard := 3 }).stat p 15, s.pending⟩) ∧
  (∀ (s : State) (p : Fin 512) (hd : Bytes), s.chip.power.vin = true → s.chip.portUp p = true →
    (s.chip.portSt p).arriving = none → (s.chip.portSt p).discard = 0 → s.chip.tripHold = false →
    s.chip.bathHolds 2 (sliceOf p) = false → s.chip.sliceHeld (sliceOf p) = false →
    s.chip.getF F.PRT_MAXFRAME.MAXFRAME p ≤ s.chip.elasticFree p →
    ∃ t, exec (.frameHead p hd) s = .next t ∧ (t.chip.portSt p).arriving = some s.chip.tm.nextPid ∧
      (t.chip.portSt p).elastic = (s.chip.portSt p).elastic ++ [s.chip.tm.nextPid] ∧
      t.chip.tm.nextPid = s.chip.tm.nextPid + 1 ∧ t.chip.regs = s.chip.regs ∧
      (∃ x, t.chip.pkt s.chip.tm.nextPid = some x ∧ x.port = p.val ∧ x.iseq = (s.chip.portSt p).iseq ∧
        x.stage = .elastic ∧ x.istamp = patternOf 64 ((s.chip.dtw : Nat) + signedOf 32 (s.chip.getF F.TIM_PORT_RX_ADJ.V p)))) ∧
  (∀ (s : State) (p : Fin 512), s.chip.power.vin = true → (s.chip.portSt p).elastic = [] →
    exec (.frameCellWriteStart p) s = .next s) ∧
  (∀ (s : State) (p : Fin 512) (pid : Nat) (r : List Nat) (x : Pkt), s.chip.power.vin = true →
    (s.chip.portSt p).elastic = pid :: r → s.chip.mayWrite p = true → s.chip.pkt pid = some x → x.tail = 0 →
    exec (.frameCellWriteStart p) s = .next ⟨((((s.chip.setPort p { s.chip.portSt p with elastic := r }).setPkt pid
      { x with stage := .mac }).chargeCells pid (s.chip.headCells p)).holdCells pid (cellsFor x.got)), s.pending⟩) ∧
  (∀ (s : State) (pid n : Nat) (f : Bytes) (x : Pkt), s.chip.power.vin = true → s.chip.pkt pid = some x →
    x.stage = .mac → x.tail = 1 → s.chip.parked x.slice = false → s.chip.sliceHeld x.slice = false → x.src = 4 →
    s.chip.pickPipe x.slice = none →
    exec (.frameToPipe pid f n) s = .next ⟨s.chip.bump F.PAR_CNT_FULL.V x.slice, s.pending⟩) ∧
  (∀ (s : State) (pid q n : Nat) (f : Bytes) (x : Pkt), s.chip.power.vin = true → s.chip.pkt pid = some x →
    x.stage = .mac → x.tail = 1 → s.chip.parked x.slice = false → s.chip.sliceHeld x.slice = false → x.src = 0 → x.pass = 0 →
    s.chip.gangPort x.port = false → s.chip.pickPipe x.slice = some q →
    exec (.frameToPipe pid f n) s = .next ⟨((s.chip.setPkt pid x).openCtx pid q).stripSelect pid q, s.pending⟩) ∧
  (∀ (s : State) (pid q n : Nat) (f : Bytes) (x : Pkt), s.chip.power.vin = true → s.chip.pkt pid = some x →
    x.stage = .mac → x.tail = 0 → 256 ≤ f.length → s.chip.parked x.slice = false → s.chip.sliceHeld x.slice = false →
    x.src = 0 → x.pass = 0 → s.chip.gangPort x.port = false → s.chip.pickPipe x.slice = some q →
    exec (.frameToPipe pid f n) s = .next ⟨((s.chip.setPkt pid { x with
      frame := f.take 256, orig := f.take 256, got := max x.got 256, flen := n }).openCtx pid q).stripSelect pid q, s.pending⟩) ∧
  (∀ (s : State) (p : Fin 512) (fr : Bytes) (e : Bool), s.chip.power.vin = true → (s.chip.portSt p).arriving = none →
    (s.chip.portSt p).discard = 0 → exec (.frameTail p fr e) s = .next s) ∧
  (∀ (s : State) (p : Fin 512) (pid : Nat) (fr : Bytes) (e : Bool), s.chip.power.vin = true →
    (s.chip.portSt p).arriving = some pid → s.chip.rxReason p (s.chip.portSt p).discard fr e ≠ 0 →
    exec (.frameTail p fr e) s = .next ⟨(((s.chip.setPort p { s.chip.portSt p with arriving := none, discard := 0 }).countBad p
      fr.length (s.chip.rxReason p (s.chip.portSt p).discard fr e)).received pid (fr.take (fr.length - 4))).failPkt pid,
      s.pending⟩) ∧
  (∀ (s : State) (p : Fin 512) (pid : Nat) (fr : Bytes) (e : Bool) (x : Pkt) (c : Chip), s.chip.power.vin = true →
    (s.chip.portSt p).arriving = some pid → s.chip.rxReason p (s.chip.portSt p).discard fr e = 0 →
    beAt (fr.take (fr.length - 4)) 12 2 ≠ 0x8808 → s.chip.gangPort p = false → s.chip.pkt pid = some x → x.ctx = none →
    x.prov = none → tailConflict none (fr.length - 4) = false →
    c = s.chip.setPort p { s.chip.portSt p with arriving := none, discard := 0 } →
    exec (.frameTail p fr e) s = .next ⟨((c.rxGood p fr.length (fr.take (fr.length - 4))).snoop p 0
      (fr.take (fr.length - 4))).goodTail pid (fr.take (fr.length - 4)), s.pending⟩) ∧
  (∀ (c : Chip) (p d : Nat) (fr : Bytes) (e : Bool),
    (fr.length < 64 → c.rxReason p d fr e = 5) ∧
    (64 ≤ fr.length → c.getF F.PRT_MAXFRAME.MAXFRAME p < fr.length → c.rxReason p d fr e = 6) ∧
    (64 ≤ fr.length → fr.length ≤ c.getF F.PRT_MAXFRAME.MAXFRAME p → e = true → c.rxReason p d fr e = 7) ∧
    (64 ≤ fr.length → fr.length ≤ c.getF F.PRT_MAXFRAME.MAXFRAME p → e = false →
      leNat (fr.drop (fr.length - 4)) = Nat.xor (fcsOf (fr.take (fr.length - 4))) 0xFFFFFFFF →
      leNat (fr.drop (fr.length - 4)) ≠ fcsOf (fr.take (fr.length - 4)) → c.rxReason p d fr e = 8)) ∧
  (∀ (s : State) (p : Fin 512) (b : Bytes), s.chip.power.vin = true → (s.chip.portSt p).arriving = none →
    exec (.maxframeExceeded p b) s = .next s) ∧
  (∀ (s : State) (p : Fin 512) (b : Bytes) (pid : Nat) (c : Chip), s.chip.power.vin = true →
    (s.chip.portSt p).arriving = some pid → c = s.chip.received pid b →
    exec (.maxframeExceeded p b) s = .next ⟨(c.setPort p { c.portSt p with arriving := none, discard := 2 }).failPkt pid,
      s.pending⟩) ∧
  (∀ (c : Chip) (pid : Nat) (b : Bytes) (x : Pkt), c.pkt pid = some x → x.tail = 0 →
    b.length ≤ c.getF F.PRT_MAXFRAME.MAXFRAME x.port - 4 → x.frame.length < b.length →
    c.received pid b = c.setPkt pid { x with frame := b })

/-- From R126 to R130: the life of a module site, its monitors and the host's transfers. The model's own choices that it rests
on, which no rule is cited for: log entries 8, 35 and 44. -/
def Obligations.ModuleSitesComeUpAndTransfer : Prop :=
  (∀ (s : State) (m : Fin 128), s.chip.power.vin = true → s.chip.flag F.PRT_SITE_STATUS.PRESENT m = false →
    exec (.moduleInsert m) s = .next ⟨((s.chip.putF F.PRT_SITE_STATUS.PRESENT 1 m).raise F.PRT_SITE_EVENTS.INSERT m).siteStart m,
      s.pending⟩) ∧
  (∀ (s : State) (m : Fin 128), s.chip.power.vin = false → s.chip.flag F.PRT_SITE_STATUS.PRESENT m = false →
    exec (.moduleInsert m) s = .next ⟨s.chip.putF F.PRT_SITE_STATUS.PRESENT 1 m, s.pending⟩) ∧
  (∀ (s : State) (m : Fin 128), s.chip.power.vin = false → s.chip.flag F.PRT_SITE_STATUS.PRESENT m = true →
    exec (.moduleRemove m) s = .next ⟨s.chip.putF F.PRT_SITE_STATUS.PRESENT 0 m, s.pending⟩) ∧
  (∀ (s : State) (m : Fin 128), s.chip.power.vin = true → s.chip.flag F.PRT_SITE_STATUS.PRESENT m = true →
    (s.chip.site m).busy = false →
    ∃ t, exec (.moduleRemove m) s = .next t ∧ t.chip = ((((s.chip.putF F.PRT_SITE_STATUS.PRESENT 0 m).raise
      F.PRT_SITE_EVENTS.REMOVE m).putF F.PRT_SITE_STATUS.MAXPOWER 0 m).putF F.PRT_SITE_STATUS.CMIS_REV 0 m).siteStart m) ∧
  (∀ (s : State) (m : Fin 128), s.chip.power.vin = true → s.chip.sstate m = ssReset →
    s.chip.flag F.PRT_SITE_CTRL.FORCE_RESET m = false →
    exec (.resetPulseEnd m) s = .next ⟨(s.chip.onSite m fun x => { x with pollOn := true }).siteGo m ssInit, s.pending⟩) ∧
  (∀ (s : State) (m : Fin 128) (c : Chip) (rev mp : Nat), s.chip.power.vin = true → s.chip.sstate m = ssInit →
    (s.chip.site m).pollOn = true →
    c = ((s.chip.onSite m fun x => { x with pollOn := false }).putF F.PRT_SITE_STATUS.CMIS_REV rev m).putF
      F.PRT_SITE_STATUS.MAXPOWER mp m →
    exec (.addressPoll m none) s = .next s ∧
    (rev < 0x40 → exec (.addressPoll m (some (true, rev, mp))) s = .next ⟨c.siteGo m ssUnmanaged, s.pending⟩) ∧
    exec (.addressPoll m (some (false, rev, mp))) s = .next ⟨c.siteGo m ssUnmanaged, s.pending⟩ ∧
    (0x40 ≤ rev → exec (.addressPoll m (some (true, rev, mp))) s = .next ⟨c.admitPower m, s.pending⟩)) ∧
  (∀ (c : Chip) (m : Nat), c.getF F.PRT_SITE_CTRL.POWER_LIMIT m ≠ 0 →
    c.getF F.PRT_SITE_STATUS.MAXPOWER m ≤ c.getF F.PRT_SITE_CTRL.POWER_LIMIT m → c.admitPower m = c.siteGo m ssLowPower) ∧
  (∀ (c : Chip) (m : Nat), c.sstate m ≠ ssDenied → (c.getF F.PRT_SITE_CTRL.POWER_LIMIT m = 0 ∨
      c.getF F.PRT_SITE_CTRL.POWER_LIMIT m < c.getF F.PRT_SITE_STATUS.MAXPOWER m) →
    c.admitPower m = (c.siteGo m ssDenied).raise F.PRT_SITE_EVENTS.POWER_DENIED m) ∧
  (∀ (s : State) (m : Fin 128), s.chip.power.vin = true → s.chip.sstate m = ssInit →
    exec (.noResponse m) s = .next ⟨((s.chip.onSite m fun x => { x with pollOn := false }).siteGo m ssFault).raise
      F.PRT_SITE_EVENTS.NO_RESPONSE m, s.pending⟩) ∧
  (∀ (s : State) (m : Fin 128), s.chip.power.vin = true → s.chip.sstate m = ssFault →
    exec (.siteFaultRetry m) s = .next ⟨(s.chip.onSite m fun x => { x with pollOn := true }).siteGo m ssInit, s.pending⟩) ∧
  (∀ (s : State) (m : Fin 128), s.chip.power.vin = true →
    (s.chip.sstate m = ssLowPower → exec (.cmisTransactionDone m 0) s = .next ⟨s.chip.siteGo m ssReady, s.pending⟩) ∧
    (s.chip.sstate m = ssReady → exec (.cmisTransactionDone m 1) s = .next ⟨s.chip.siteGo m ssActive, s.pending⟩) ∧
    (s.chip.sstate m = ssActive → exec (.cmisTransactionDone m 2) s = .next ⟨s.chip.siteGo m ssReady, s.pending⟩)) ∧
  (∀ (s : State) (m : Fin 128) (fs : Bytes), s.chip.power.vin = true → s.chip.flag F.PRT_SITE_STATUS.PRESENT m = true →
    s.chip.flag F.PRT_SITE_CTRL.AUTO m = false →
    exec (.intlFall m fs) s = .next ⟨s.chip.putF F.PRT_SITE_STATUS.INTL 0 m, s.pending⟩) ∧
  (∀ (s : State) (m : Fin 128) (fs : Bytes), s.chip.power.vin = true → s.chip.flag F.PRT_SITE_STATUS.PRESENT m = true →
    s.chip.flag F.PRT_SITE_CTRL.AUTO m = true → s.chip.sstate m = ssReady →
    exec (.intlFall m fs) s = .next ⟨(s.chip.orFlags m fs).putF F.PRT_SITE_STATUS.INTL 1 m, s.pending⟩) ∧
  (∀ (s : State) (m : Fin 128) (a b : Fin 65536), s.chip.power.vin = true → s.chip.flag F.PRT_SITE_CTRL.AUTO m = true →
    s.chip.sstate m = ssActive →
    exec (.monitorPoll m a b) s = .next ⟨(s.chip.putF F.PRT_SITE_MON.TEMP a m).putF F.PRT_SITE_MON.VCC b m, s.pending⟩) ∧
  (∀ (s : State) (m : Fin 128), s.chip.power.vin = true →
    exec (.busRecovery m) s = .next ⟨s.chip.raise F.PRT_SITE_EVENTS.BUS_STUCK m, s.pending⟩) ∧
  (∀ (s : State) (m : Fin 128) (w : Bool), s.chip.power.vin = true → (s.chip.site m).busy = true →
    exec (.xferGo m w) s = .next s) ∧
  (∀ (s : State) (m : Fin 128) (w : Bool) (c : Chip), s.chip.power.vin = true → (s.chip.site m).busy = false →
    c = s.chip.putF F.PRT_SITE_XFER.DIR (b2n w) m → c.flag F.PRT_SITE_STATUS.PRESENT m = false →
    exec (.xferGo m w) s = .next ⟨c.xferEnd m stInvalid, s.pending⟩) ∧
  (∀ (s : State) (m : Fin 128) (w : Bool) (c : Chip) (n : Nat), s.chip.power.vin = true → (s.chip.site m).busy = false →
    c = s.chip.putF F.PRT_SITE_XFER.DIR (b2n w) m → c.flag F.PRT_SITE_STATUS.PRESENT m = true →
    n = c.getF F.PRT_SITE_XFER_ADDR.LENGTH m → 1 ≤ n → n ≤ 128 → 0x80 ≤ c.getF F.PRT_SITE_XFER_ADDR.OFFSET m →
    c.getF F.PRT_SITE_XFER_ADDR.OFFSET m + n ≤ 0x100 →
    exec (.xferGo m w) s = .next ⟨(c.onSite m fun x => { x with
      busy := true, addr := c.getF F.PRT_SITE_XFER_ADDR.all m, write := w,
      data := if w then c.getBytes (F.PRT_SITE_DATA.V.addr m) n else [] }).putF F.PRT_SITE_XFER.GO 1 m, s.pending⟩) ∧
  (∀ (s : State) (m : Fin 128) (ok : Bool) (d f : Bytes), s.chip.power.vin = true → (s.chip.site m).busy = false →
    exec (.xferDone m ok d f) s = .next s) ∧
  (∀ (s : State) (m : Fin 128) (d f : Bytes), s.chip.power.vin = true → (s.chip.site m).busy = true →
    exec (.xferDone m false d f) s = .next ⟨s.chip.xferEnd m stTimeout, s.pending⟩ ∧
    ((s.chip.site m).write = true → exec (.xferDone m true d f) s = .next ⟨s.chip.xferEnd m stOk, s.pending⟩) ∧
    ((s.chip.site m).write = false → exec (.xferDone m true d f) s = .next ⟨((s.chip.putWords (F.PRT_SITE_DATA.V.addr m)
      (sliceB d 0 (xferLen ((s.chip.site m).addr % 256)))).orFlags m f).xferEnd m stOk, s.pending⟩))

/-- From R137 to R143: one step of a packet's parse context. The command of the kind of the instruction at the context's PC
counts the step, loads, operates and advances the cursor in that order, and goes on where the instruction's next says; the
command of another kind changes nothing; a step that cannot read its bytes yet waits; a failed check closes the context. The
model's own choices that it rests on, which no rule is cited for: log entry 8. -/
def Obligations.ParseStepsRunTheProgram : Prop :=
  (∀ (s t : State) (pid : Nat) (p : Pkt) (x y z : ParseCtx) (i : PIns) (w : Option Nat), s.chip.power.vin = true →
    s.chip.pkt pid = some p → p.ctx = some x → s.chip.parseIns x.slice x.pc = some i →
    w = (if p.tail = 1 then some p.frame.length else none) → stepCheck x i p.got w = .go →
    y = i.ops.foldl (doOp p.frame p.got w) (i.lds.foldl (doLoad p.frame) { x with done := x.done + 1 }) →
    z = (if i.adv.mode = 1 then { y with cur := min 1023 (y.cur + i.adv.imm) }
      else if i.adv.mode = 2 then { y with cur := min 1023 (y.cur + i.adv.imm + y.reg i.adv.w * 2 ^ i.adv.sh) } else y) →
    ((∃ a, s.chip.parseNext z i.nx = .pc a ∧ t = ⟨s.chip.setPkt pid { p with ctx := some { z with pc := a } }, s.pending⟩) ∨
      (∃ code, s.chip.parseNext z i.nx = .close code false ∧ t = ⟨s.chip.closeCtx pid p z code, s.pending⟩) ∨
      (∃ code, s.chip.parseNext z i.nx = .close code true ∧
        t = ⟨s.chip.closeCtx pid p { z with hv := hvAnom z.hv 3 } code, s.pending⟩)) →
    (i.kind = .nop → exec (.nop pid) s = .next t) ∧ (i.kind = .ext → exec (.ext pid) s = .next t) ∧
    (i.kind = .mark → exec (.mark pid) s = .next t) ∧ (i.kind = .lchk → exec (.lchk pid) s = .next t) ∧
    (i.kind = .kcommit → exec (.kcommit pid) s = .next t) ∧ (i.kind = .alu → exec (.alu pid) s = .next t) ∧
    (i.kind = .setf → exec (.setf pid) s = .next t) ∧ (i.kind = .lvl → exec (.lvl pid) s = .next t)) ∧
  (∀ (s : State) (pid : Nat) (p : Pkt) (x : ParseCtx) (i : PIns), s.chip.power.vin = true → s.chip.pkt pid = some p →
    p.ctx = some x → s.chip.parseIns x.slice x.pc = some i →
    stepCheck x i p.got (if p.tail = 1 then some p.frame.length else none) = .wait →
    exec (.nop pid) s = .next s ∧ exec (.ext pid) s = .next s ∧ exec (.mark pid) s = .next s ∧
    exec (.lchk pid) s = .next s ∧ exec (.kcommit pid) s = .next s ∧ exec (.alu pid) s = .next s ∧
    exec (.setf pid) s = .next s ∧ exec (.lvl pid) s = .next s) ∧
  (∀ (s : State) (pid : Nat), s.chip.power.vin = true → s.chip.pkt pid = none →
    exec (.nop pid) s = .next s ∧ exec (.ext pid) s = .next s ∧ exec (.mark pid) s = .next s ∧
    exec (.lchk pid) s = .next s ∧ exec (.kcommit pid) s = .next s ∧ exec (.alu pid) s = .next s ∧
    exec (.setf pid) s = .next s ∧ exec (.lvl pid) s = .next s) ∧
  (∀ (s t : State) (pid bit cause : Nat) (p : Pkt) (x : ParseCtx) (i : PIns), s.chip.power.vin = true →
    s.chip.pkt pid = some p → p.ctx = some x → s.chip.parseIns x.slice x.pc = some i →
    stepCheck x i p.got (if p.tail = 1 then some p.frame.length else none) = .stop bit cause →
    t = ⟨s.chip.closeCtx pid p { x with hv := (if bit = 0 then hvOr (hvAnom x.hv 0) 13 (cause * 32) else hvAnom x.hv bit) }
      (if bit = 0 then 0xFD else 0xFC), s.pending⟩ →
    (i.kind = .nop → exec (.nop pid) s = .next t) ∧ (i.kind = .ext → exec (.ext pid) s = .next t) ∧
    (i.kind = .mark → exec (.mark pid) s = .next t) ∧ (i.kind = .lchk → exec (.lchk pid) s = .next t) ∧
    (i.kind = .kcommit → exec (.kcommit pid) s = .next t) ∧ (i.kind = .alu → exec (.alu pid) s = .next t) ∧
    (i.kind = .setf → exec (.setf pid) s = .next t) ∧ (i.kind = .lvl → exec (.lvl pid) s = .next t)) ∧
  (∀ (x : ParseCtx) (i : PIns) (got : Nat) (w : Option Nat), x.done = x.steps → stepCheck x i got w = .stop 0 5) ∧
  (∀ (c : Chip) (pid : Nat) (p : Pkt) (x : ParseCtx) (code : Nat),
    ∃ q, (c.closeCtx pid p x code).pkt pid = some q ∧ q.ctx = none ∧ q.stage = .classify ∧ q.lastPc = x.pc ∧
      q.hv = x.finish (if p.tail = 1 then p.frame.length else 0) code)

/-- From R165, R174, R177, R178: a pass is classified with the version it is stamped with. The model's own choices that it rests
on, which no rule is cited for: log entry 8. -/
def Obligations.ClassificationUsesOneVersion : Prop :=
  (∀ (s : State) (pid : Nat) (e : Fin 3) (p : Pkt), s.chip.power.vin = true → s.chip.pkt pid = some p → p.stage ≠ .classify →
    exec (.classifyPass pid e) s = .next s) ∧
  (∀ (s : State) (pid : Nat) (p : Pkt), s.chip.power.vin = true → s.chip.pkt pid = some p → p.stage = .classify →
    exec (.classifyPass pid 2) s = .next ⟨(((s.chip.setPkt pid { p with ver := some (p.ver.getD s.chip.curV) }).bump
      F.CLS_CNT_UNCORR.V).raise F.CLS_EVENTS.UNCORR).dropOther pid 0, s.pending⟩) ∧
  (∀ (s : State) (pid : Nat) (p : Pkt), s.chip.power.vin = true → s.chip.pkt pid = some p → p.stage = .classify →
    p.ver = none →
    exec (.classifyPass pid 0) s = .next ⟨s.chip.classifyAs pid p s.chip.curV, s.pending⟩ ∧
    exec (.classifyPass pid 1) s = .next ⟨(s.chip.raise F.CLS_EVENTS.CORR).classifyAs pid p
      (s.chip.raise F.CLS_EVENTS.CORR).curV, s.pending⟩) ∧
  (∀ (s : State) (pid v : Nat) (p : Pkt), s.chip.power.vin = true → s.chip.pkt pid = some p → p.stage = .classify →
    p.src ≠ 5 → p.ver = some v →
    exec (.classifyPass pid 0) s = .next ⟨s.chip.classifyAs pid p v, s.pending⟩) ∧
  (∀ (s : State) (pid v : Nat) (p : Pkt), s.chip.power.vin = true → s.chip.pkt pid = some p → p.stage = .classify →
    p.src = 5 → p.ver = some v → s.chip.liveV v = false → v ≠ s.chip.nextV →
    exec (.classifyPass pid 0) s = .next ⟨((s.chip.bump F.CLS_CNT_VERSION_UNKNOWN.V).raise
      F.CLS_EVENTS.VERSION_UNKNOWN).dropOther pid 0, s.pending⟩) ∧
  (∀ (c : Chip) (p : Pkt) (v n r : Nat) (x : ClsRes), c.looksUp r = false →
    c.chain p v (n + 1) r x = (c.bump F.CLS_CNT_CHAIN.V, x)) ∧
  (∀ (c : Chip) (p : Pkt) (v r : Nat) (x : ClsRes), c.chain p v 0 r x = (c.bump F.CLS_CNT_CHAIN.V, x))

/-- From R63, R167, R168, R170 to R172, R174: the latent set staged, fixed, abandoned and looked up; the scheduled FIX executed,
withdrawn and cancelled; the oldest version retired. The model's own choices that it rests on, which no rule is cited for: log
entries 8, 9, 27 and 28. -/
def Obligations.LatentSetIsStagedFixedAndRetired : Prop :=
  (∀ (s : State) (r : Fin 32), s.chip.power.vin = true → s.chip.flag F.CLS_CMD_STATUS.RUNNING = false →
    s.chip.polBit 0x238 r = false → s.chip.rKind r = 0 →
    exec (.stageAdd r) s = .next ⟨s.chip.clsDone stInvalid 1, s.pending⟩ ∧
    exec (.stageDel r) s = .next ⟨s.chip.clsDone stInvalid 1, s.pending⟩ ∧
    exec (.stageMod r) s = .next ⟨s.chip.clsDone stInvalid 1, s.pending⟩ ∧
    exec (.lookup r) s = .next ⟨s.chip.clsDone stInvalid 1, s.pending⟩) ∧
  (∀ (s : State) (r : Fin 32) (st reason : Nat) (c : Chip), s.chip.power.vin = true →
    s.chip.flag F.CLS_CMD_STATUS.RUNNING = false → st ≠ stDenied →
    (s.chip.stageBodyCmd 1 r (s.chip.stageBody (s.chip.rKind r)) (s.chip.getF F.CLS_CMD_INDEX.V) (s.chip.polBit 0x238 r) =
      (st, reason, c) → exec (.stageAdd r) s = .next ⟨c.clsDone st reason, s.pending⟩) ∧
    (s.chip.stageBodyCmd 2 r (s.chip.stageBody (s.chip.rKind r)) (s.chip.getF F.CLS_CMD_INDEX.V) (s.chip.polBit 0x238 r) =
      (st, reason, c) → exec (.stageDel r) s = .next ⟨c.clsDone st reason, s.pending⟩) ∧
    (s.chip.stageBodyCmd 3 r (s.chip.stageBody (s.chip.rKind r)) (s.chip.getF F.CLS_CMD_INDEX.V) (s.chip.polBit 0x238 r) =
      (st, reason, c) → exec (.stageMod r) s = .next ⟨c.clsDone st reason, s.pending⟩)) ∧
  (∀ (c : Chip) (r idx : Nat) (body : Bytes) (plan : Nat × Option (Nat × Nat)), c.rKind r = 1 ∨ c.rKind r = 2 →
    bodyBad (c.rKind r) body = false → c.sameIdent r body idx = [] → c.bodyActOk (c.rKind r) body = true →
    c.planPlace r body idx = some plan → c.latentFull 1 = false →
    c.stageBodyCmd 1 r body idx false = (stOk, 0, c.doAdd r body plan) ∧
    c.stageBodyCmd 1 r body idx true = (stDenied, 6, c) ∧ c.stageBodyCmd 2 r body idx false = (stInvalid, 4, c)) ∧
  (∀ (s : State) (r : Fin 32) (p : Nat) (e : REntry), s.chip.power.vin = true →
    s.chip.flag F.CLS_CMD_STATUS.RUNNING = false → s.chip.rKind r = 1 ∨ s.chip.rKind r = 2 →
    (s.chip.sameIdent r (s.chip.stageBody (s.chip.rKind r)) (s.chip.getF F.CLS_CMD_INDEX.V)).find?
      (fun e => s.chip.visible e.2 (s.chip.getF F.CLS_CMD_VERSION.V)) = some (p, e) →
    s.chip.liveV (s.chip.getF F.CLS_CMD_VERSION.V) = true →
    exec (.lookup r) s = .next ⟨(s.chip.putWords F.CLS_STAGE_DATA.V.base (sliceB e.body 0 64)).clsDone stOk 0, s.pending⟩) ∧
  (∀ s : State, s.chip.power.vin = true → s.chip.flag F.CLS_CMD_STATUS.RUNNING = false →
    s.chip.flag F.CLS_TCMD_STATUS.RUNNING = false →
    exec (.fix false) s = .next ⟨s.chip.fixUntimed, s.pending⟩ ∧
    exec (.fix true) s = .next ⟨s.chip.fixTimed (s.chip.timeClass (s.chip.getQ F.CLS_CMD_TIME.V))
      (s.chip.getQ F.CLS_CMD_TIME.V), s.pending⟩ ∧
    exec .latentAbandon s = .next ⟨s.chip.abandonEffect, s.pending⟩) ∧
  (∀ s : State, s.chip.power.vin = true → s.chip.flag F.CLS_CMD_STATUS.RUNNING = false →
    s.chip.flag F.CLS_TCMD_STATUS.RUNNING = true →
    exec (.fix false) s = .next ⟨{ (s.chip.putF F.CLS_CMD_STATUS.RUNNING 1) with
      tern := { s.chip.tern with wait := s.chip.tern.wait ++ [0] } }, s.pending⟩ ∧
    exec .latentAbandon s = .next ⟨{ (s.chip.putF F.CLS_CMD_STATUS.RUNNING 1) with
      tern := { s.chip.tern with wait := s.chip.tern.wait ++ [1] } }, s.pending⟩) ∧
  (∀ c : Chip, c.rules.fixAt = none → c.versionFree = true → c.fixUntimed = (c.commitFix stOk false false).clsDone stOk 0) ∧
  (∀ c : Chip, c.rules.fixAt ≠ none → c.fixUntimed = c.clsDone stBusy 7 ∧ c.abandonEffect = c.clsDone stBusy 7) ∧
  (∀ c : Chip, c.rules.fixAt = none → c.versionFree = false → c.fixUntimed = c.clsDone stBusy 10) ∧
  (∀ (c : Chip) (st : Nat) (h p : Bool), (c.commitFix st h p).rules.lists = c.rules.lists ++ [(c.nextV, c.rules.latent)] ∧
    (c.commitFix st h p).rules.latent = [] ∧ (c.commitFix st h p).rules.fixAt = none ∧
    (c.commitFix st h p).rules.entries = c.rules.entries) ∧
  (∀ s : State, s.chip.power.vin = true → s.chip.flag F.CLS_CMD_STATUS.RUNNING = false → s.chip.rules.fixAt = none →
    exec .cancelFix s = .next ⟨s.chip.clsDone stInvalid 0, s.pending⟩) ∧
  (∀ s : State, s.chip.power.vin = true → s.chip.flag F.CLS_CMD_STATUS.RUNNING = false → s.chip.rules.fixAt ≠ none →
    exec .cancelFix s = .next ⟨({ s.chip with
      rules := { s.chip.rules with fixAt := none, fixLate := false, fixHeld := false }
      time := { s.chip.time with late := s.chip.time.late.filter (· != PendAct.fix) } }).clsDone stOk 0, s.pending⟩) ∧
  (∀ (s : State) (t : Nat), s.chip.power.vin = true → s.chip.rules.fixAt = some t → s.chip.due t = true →
    s.chip.versionFree = true → s.chip.tBusy = false → s.chip.time.late.contains PendAct.fix = false →
    s.chip.rules.fixLate = false →
    exec .fixExecute s = .next ⟨s.chip.commitFix stOk s.chip.rules.fixHeld false, s.pending⟩) ∧
  (∀ (s : State) (t : Nat), s.chip.power.vin = true → s.chip.rules.fixAt = some t → s.chip.versionFree = false →
    s.chip.due ((t + s.chip.getF F.CLS_FIX_HOLD.V * 1000 * 2 ^ 16) % 2 ^ 64) = true →
    exec .fixHoldTimeout s = .next ⟨({ s.chip with rules := { s.chip.rules with fixHeld := true } }).fixWithdraw stTimeout,
      s.pending⟩) ∧
  (∀ s : State, s.chip.power.vin = true → s.chip.oldV = s.chip.curV → exec .versionRetire s = .next s) ∧
  (∀ s : State, s.chip.power.vin = true → s.chip.oldV ≠ s.chip.curV → s.chip.inFlight s.chip.oldV = 0 →
    s.chip.peerHolds s.chip.oldV = false → s.chip.tern.wait.contains 2 = false →
    ((s.chip.putF F.CLS_VERSION.OLDEST ((s.chip.oldV + 1) % 2 ^ 16)).raise F.CLS_EVENTS.RETIRED).tBusy = false →
    exec .versionRetire s = .next ⟨((s.chip.putF F.CLS_VERSION.OLDEST ((s.chip.oldV + 1) % 2 ^ 16)).raise
      F.CLS_EVENTS.RETIRED).settle, s.pending⟩)

/-- From R187 to R194: staging, looking up, rebalancing and scrubbing the ternary profiles. The model's own choices that it
rests on, which no rule is cited for: log entries 8, 103 and 104. -/
def Obligations.TernaryCommandsStageSearchAndRebalance : Prop :=
  (∀ (s : State) (q : Fin 16), s.chip.power.vin = true → s.chip.flag F.CLS_TCMD_STATUS.RUNNING = false →
    (s.chip.tPresent q = false ∨ s.chip.tRegion q = none) →
    exec (.tstageAdd q) s = .next ⟨s.chip.tDone stInvalid 1, s.pending⟩ ∧
    exec (.tstageDel q) s = .next ⟨s.chip.tDone stInvalid 1, s.pending⟩ ∧
    exec (.tstageMod q) s = .next ⟨s.chip.tDone stInvalid 1, s.pending⟩ ∧
    exec (.tlookup q true) s = .next ⟨s.chip.tDone stInvalid 1, s.pending⟩ ∧
    exec (.rebalance q) s = .next ⟨s.chip.tDone stInvalid 1, s.pending⟩) ∧
  (∀ (s : State) (q : Fin 16) (b : Bytes) (st reason : Nat) (runs : Bool) (c : Chip), s.chip.power.vin = true →
    s.chip.flag F.CLS_TCMD_STATUS.RUNNING = false → b = s.chip.getBytes (F.CLS_TSTAGE_DATA.V.base + 8) 104 → st ≠ stDenied →
    (s.chip.tStage 1 q b (s.chip.tLocked q) = (st, reason, runs, c) →
      exec (.tstageAdd q) s = .next ⟨if runs then c.tRuns else c.tDone st reason, s.pending⟩) ∧
    (s.chip.tStage 2 q b (s.chip.tLocked q) = (st, reason, runs, c) →
      exec (.tstageDel q) s = .next ⟨if runs then c.tRuns else c.tDone st reason, s.pending⟩) ∧
    (s.chip.tStage 3 q b (s.chip.tLocked q) = (st, reason, runs, c) →
      exec (.tstageMod q) s = .next ⟨if runs then c.tRuns else c.tDone st reason, s.pending⟩)) ∧
  (∀ (c : Chip) (q : Nat) (b : Bytes) (pl : Nat × List (Nat × Nat)), c.tPresent q = true → c.tRegion q ≠ none →
    c.tBad q b false = false → (c.tEntries q).filter (fun e => tIdent e.2.body == tIdent b) = [] → c.actOk 4 (tAct b) = true →
    c.tPlace q (tPrio b) none = .ok pl → c.latentFull 1 = false →
    c.tStage 1 q b false = (stOk, 0, true, c.tAdd q b pl) ∧ c.tStage 1 q b true = (stDenied, 6, false, c)) ∧
  (∀ (c : Chip) (q p : Nat), c.tEntries q = [] → 2 ≤ c.tSize q →
    c.tPlace q p none = .ok ((((-1 : Int) + (c.tSize q : Int)) / 2).toNat, [])) ∧
  (∀ (s : State) (q : Fin 16) (n : Nat) (e : REntry), s.chip.power.vin = true →
    s.chip.flag F.CLS_TCMD_STATUS.RUNNING = false → s.chip.tPresent q = true → s.chip.tRegion q ≠ none →
    s.chip.tsearch q (tValue (s.chip.getBytes (F.CLS_TSTAGE_DATA.V.base + 8) 104)) (s.chip.getF F.CLS_TCMD_VERSION.V) =
      some (n, e) → s.chip.liveV (s.chip.getF F.CLS_TCMD_VERSION.V) = true →
    exec (.tlookup q true) s = .next ⟨((s.chip.putWords F.CLS_TSTAGE_DATA.V.base (entryHeader e ++ sliceB e.body 0 104)).putF
      F.CLS_TPOS.V n).tDone stOk 0, s.pending⟩) ∧
  (∀ (s : State) (q : Fin 16), s.chip.power.vin = true → s.chip.flag F.CLS_TCMD_STATUS.RUNNING = false →
    s.chip.tPresent q = true → s.chip.tRegion q ≠ none → s.chip.tLocked q = false → s.chip.tEntries q = [] →
    exec (.rebalance q) s = .next ⟨{ s.chip.tRuns with tern := { s.chip.tern with wait := s.chip.tern.wait ++ [9] } }, s.pending⟩) ∧
  (∀ s : State, s.chip.power.vin = true → s.chip.tBusy = false → exec .ternaryCommandDone s = .next s) ∧
  (∀ s : State, s.chip.power.vin = true → s.chip.tBusy = true →
    exec .ternaryCommandDone s = .next ⟨s.chip.tern.wait.foldl Chip.tWaited
      (({ s.chip with tern := { s.chip.tern with wait := [] } }).finish portTcmd stOk), s.pending⟩) ∧
  (∀ (s : State) (q : Fin 16) (n : Fin 262144) (u : Bool), s.chip.power.vin = true →
    smFind s.chip.tern.entries (tKey q n) = none → exec (.ternaryScrub q n u) s = .next s) ∧
  (∀ (s : State) (q : Fin 16) (n : Fin 262144) (e : REntry), s.chip.power.vin = true →
    smFind s.chip.tern.entries (tKey q n) = some e →
    exec (.ternaryScrub q n false) s = .next ⟨(s.chip.bump F.CLS_TCNT_SCRUB_FIX.V).raise F.CLS_TEVENTS.SCRUB_FIX, s.pending⟩) ∧
  (∀ (s : State) (b : Fin 64), s.chip.power.vin = true → b.val < 32 →
    exec (.ternaryBankGate b) s = .next ⟨s.chip.putF F.CLS_TBANK_AWAKE.V
      (setBitsOf b b (s.chip.getF F.CLS_TBANK_AWAKE.V 0 0) 0), s.pending⟩) ∧
  (∀ (s : State) (b : Fin 64), s.chip.power.vin = true → 32 ≤ b.val →
    ∃ t, exec (.ternaryBankGate b) s = .next t ∧ t.chip.rd F.CLS_TBANK_AWAKE.V.base = s.chip.rd F.CLS_TBANK_AWAKE.V.base)

/-- From R196 to R200, R563: a packet's scan from its start to its report, or the OVERLOAD action of its group. The model's own
choices that it rests on, which no rule is cited for: log entries 8, 99 and 107. -/
def Obligations.PatternScansReportOrOverload : Prop :=
  (∀ (s : State) (pid : Nat) (p : Pkt), s.chip.power.vin = true → s.chip.pkt pid = some p → p.inspect ≠ 1 →
    exec (.patternScanStart pid) s = .next s) ∧
  (∀ (s : State) (pid : Nat) (p : Pkt), s.chip.power.vin = true → s.chip.pkt pid = some p → p.inspect = 1 → p.tail = 1 →
    s.chip.pattern.engines.any (fun e => e.2 == pid) = false → s.chip.flag F.CLS_PAT_CTRL.ENABLE = false →
    exec (.patternScanStart pid) s = .next ⟨s.chip.overload pid false, s.pending⟩) ∧
  (∀ (s : State) (pid e : Nat) (p : Pkt), s.chip.power.vin = true → s.chip.pkt pid = some p → p.inspect = 1 → p.tail = 1 →
    s.chip.pattern.engines.any (fun e => e.2 == pid) = false → s.chip.flag F.CLS_PAT_CTRL.ENABLE = true →
    s.chip.tripped = false → s.chip.idleScan = some e → s.chip.pattern.queue = [] →
    exec (.patternScanStart pid) s = .next ⟨{ s.chip with pattern := { s.chip.pattern with
      engines := smPut s.chip.pattern.engines e pid, gated := s.chip.pattern.gated.filter (· != e) } }, s.pending⟩) ∧
  (∀ (s : State) (e : Fin 32) (ms : List (Nat × Nat)) (r : Bool) (l : Nat), s.chip.power.vin = true →
    smFind s.chip.pattern.engines e = none → exec (.patternReport e ms r l) s = .next s) ∧
  (∀ (s : State) (e : Fin 32) (ms : List (Nat × Nat)) (l pid : Nat) (p : Pkt), s.chip.power.vin = true →
    smFind s.chip.pattern.engines e = some pid → s.chip.pkt pid = some p →
    exec (.patternReport e ms true l) s = .next ⟨({ s.chip with pattern := { s.chip.pattern with
      engines := smErase s.chip.pattern.engines e, reload := smPut s.chip.pattern.reload l s.chip.mt } }).overload pid true,
      s.pending⟩) ∧
  (∀ (s : State) (e : Fin 32) (l pid o : Nat) (p : Pkt) (c : Chip), s.chip.power.vin = true →
    smFind s.chip.pattern.engines e = some pid → s.chip.pkt pid = some p →
    c = { s.chip with pattern := { s.chip.pattern with engines := smErase s.chip.pattern.engines e } } →
    c.scanFrom p p.grp = some o →
    exec (.patternReport e [] false l) s = .next ⟨(c.bump F.CLS_PAT_CNT_SCANNED.V).reported pid 0
      (natBe 1 0 ++ natBe 1 p.grp ++ zerosB 18), s.pending⟩) ∧
  (∀ (s : State) (pid : Nat), s.chip.power.vin = true → s.chip.pattern.queue.any (fun x => x.1 == pid) = false →
    exec (.patternWaitTimeout pid) s = .next s) ∧
  (∀ (s : State) (pid : Nat), s.chip.power.vin = true → s.chip.pattern.queue.any (fun x => x.1 == pid) = true →
    exec (.patternWaitTimeout pid) s = .next ⟨({ s.chip with pattern := { s.chip.pattern with
      queue := s.chip.pattern.queue.filter (fun x => x.1 != pid) } }).overload pid false, s.pending⟩) ∧
  (∀ (s : State) (l : Nat), s.chip.power.vin = true →
    exec (.patternLineReloaded l) s = .next ⟨{ s.chip with pattern := { s.chip.pattern with
      reload := smErase s.chip.pattern.reload l } }, s.pending⟩) ∧
  (∀ (s : State) (e : Fin 32), s.chip.power.vin = true → smFind s.chip.pattern.engines e = none →
    s.chip.pattern.gated.contains e.val = false →
    exec (.patternEngineGate e) s = .next ⟨{ s.chip with pattern := { s.chip.pattern with
      gated := s.chip.pattern.gated ++ [e.val] } }, s.pending⟩)

/-- From R29, R237 to R245, R252, R258, R524, R528: a packet's flow op from its release to its service, its wait and its replay
at the engine. What the engine hands over reaches its receivers within the command (flush). The model's own choices that it
rests on, which no rule is cited for: log entries 72, 74 and 84. -/
def Obligations.FlowOpsAreReleasedServedAndReplayed : Prop :=
  (∀ (s : State) (pid : Nat) (p : Pkt), s.chip.power.vin = true → s.chip.pkt pid = some p → p.stage = .flowWait →
    p.opSent = false → p.flowKey ≠ none → s.chip.opBlocked pid p = false →
    exec (.flowOpRelease pid) s = .next ⟨(((s.chip.setPkt pid { p with opSent := true }).stampStrip pid 4).sendOp pid
      (s.chip.flowOp pid p)).flush, s.pending⟩) ∧
  (∀ (s : State) (pid : Nat) (p : Pkt), s.chip.power.vin = true → s.chip.pkt pid = some p →
    (p.opSent = true ∨ s.chip.opBlocked pid p = true) →
    exec (.flowOpRelease pid) s = .next ⟨s.chip.flush, s.pending⟩) ∧
  (∀ (c : Chip) (pid : Nat) (o : FOp), c.ownerOf o.h1 = none → c.sendOp pid o = c.missFb pid o) ∧
  (∀ (c : Chip) (pid : Nat) (o : FOp), c.ownerOf o.h1 = some c.ownDevice → 512 ≤ (c.eng (hEngine o.h1)).input.length →
    c.sendOp pid o = (c.bumpQ 48 F.FLE_CNT_INPUT_FULL.V (hEngine o.h1)).missFb pid o) ∧
  (∀ (c : Chip) (pid : Nat) (o : FOp), c.ownerOf o.h1 = some c.ownDevice → (c.eng (hEngine o.h1)).input.length < 512 →
    c.engineHeld (hEngine o.h1) = false →
    c.sendOp pid o = ((c.onEng (hEngine o.h1) fun s => { s with input := s.input ++ [o] }).stampStrip pid 5).wakeBank
      (hEngine o.h1)) ∧
  (∀ (s : State) (e : Fin 128) (x : Fin 3) (o : FOp) (r : List FOp), s.chip.power.vin = true → s.chip.bankGated e = false →
    s.chip.engineStalled e = false → (s.chip.eng e).input = o :: r → o.kind = 0 →
    s.chip.ownerOf o.h1 = some s.chip.ownDevice →
    exec (.pktOp e x) s = .next ⟨((s.chip.onEng e fun s => { s with input := r }).arriveEcc e { o with since := s.chip.mt } x).flush,
      s.pending⟩) ∧
  (∀ (s : State) (e : Fin 128) (x : Fin 3), s.chip.power.vin = true →
    (s.chip.bankGated e = true ∨ s.chip.engineStalled e = true) →
    exec (.pktOp e x) s = .next ⟨s.chip.flush, s.pending⟩) ∧
  (∀ (s : State) (p : Fin 512) (fr : Bytes) (x : Fin 3) (c : Chip), s.chip.power.vin = true →
    s.chip.gangTake p 2 false fr = (true, c) → c.notOwned (c.ropOp fr).h1 = false →
    (c.eng (hEngine (c.ropOp fr).h1)).input.length < 512 → c.engineHeld (hEngine (c.ropOp fr).h1) = false →
    exec (.rmtOp p fr x) s = .next ⟨(((c.onEng (hEngine (c.ropOp fr).h1) fun s => { s with
      input := s.input ++ [c.ropOp fr] }).wakeBank (hEngine (c.ropOp fr).h1)).serveInput (hEngine (c.ropOp fr).h1) x).flush,
      s.pending⟩) ∧
  (∀ (c : Chip) (e : Nat) (o : FOp), c.readWay e o.key o.h1 0 = (c, false) ∧ c.arriveEcc e o 0 = c.arrive e o) ∧
  (∀ (c c1 : Chip) (e : Nat) (o : FOp), c.tryOp e o = (c1, true) → c.arrive e o = c1) ∧
  (∀ (c : Chip) (e i : Nat) (o : FOp), o.kind = 0 → c.keyBlocked e o.key o.h1 = false → c.wayOf e o.key o.h1 = some i →
    c.tryOp e o = c.packetHit e i o) ∧
  (∀ (c : Chip) (e : Nat) (o : FOp), o.kind = 0 → c.keyBlocked e o.key o.h1 = false → c.wayOf e o.key o.h1 = none →
    c.tryOp e o = (c.startLookup e o, false)) ∧
  (∀ (s : State) (e : Fin 128) (x : Fin 3), s.chip.power.vin = true →
    (s.chip.eng e).station.find? (fun o => s.chip.opReady e o) = none →
    exec (.opReplay e x) s = .next ⟨s.chip.flush, s.pending⟩) ∧
  (∀ (s : State) (e : Fin 128) (o : FOp) (c : Chip), s.chip.power.vin = true →
    (s.chip.eng e).station.find? (fun o => s.chip.opReady e o) = some o → s.chip.tryOp e o = (c, true) →
    exec (.opReplay e 0) s = .next ⟨(c.leave e o).flush, s.pending⟩) ∧
  (∀ (s : State) (e : Fin 128) (n : Nat) (o : FOp), s.chip.power.vin = true → (s.chip.eng e).station[n]? = some o →
    o.isPkt = true → (s.chip.eng e).setting o.key = none → (s.chip.eng e).looking o.key = none →
    exec (.opDeadline e n) s = .next ⟨((s.chip.leave e o).fallback e o 4).flush, s.pending⟩) ∧
  (∀ (s : State) (pid : Nat) (g : Bool), s.chip.power.vin = true →
    exec (.tailStatusReport pid g) s = .next ⟨(s.chip.tailReport pid g).flush, s.pending⟩)

/-- From R244, R246, R247, R249, R260: the miss path of a flow engine: the miss queue, the tag lines, the record's fill, and the
end of a setup. The model's own choices that it rests on, which no rule is cited for: log entry 8. -/
def Obligations.FlowMissesAndSetupsResolve : Prop :=
  (∀ (s : State) (e : Fin 128), s.chip.power.vin = true → 512 ≤ (s.chip.eng e).missUsed →
    exec (.missQueueGrant e) s = .next s) ∧
  (∀ (s : State) (e : Fin 128) (l : FLookup), s.chip.power.vin = true → (s.chip.eng e).missUsed < 512 →
    (s.chip.eng e).lookups.find? (fun l => l.st = 0) = some l →
    exec (.missQueueGrant e) s = .next ⟨((s.chip.onLookup e l.key fun l => { l with st := 1 }).bumpQ 48 F.FLE_CNT_MISS.V e).signal
      4 e 3, s.pending⟩) ∧
  (∀ (s : State) (e : Fin 128) (n : Nat) (l : FLookup), s.chip.power.vin = true → (s.chip.eng e).lookups[n]? = some l →
    l.st = 1 →
    exec (.tagLinesArrived e n true) s = .next ⟨(s.chip.lookupError e l.key).flush, s.pending⟩ ∧
    (s.chip.tagHit e l.h1 l.h2 = none →
      exec (.tagLinesArrived e n false) s = .next ⟨(s.chip.absentKey e l.key).flush, s.pending⟩) ∧
    (∀ b j, s.chip.tagHit e l.h1 l.h2 = some (b, j) →
      exec (.tagLinesArrived e n false) s = .next ⟨(s.chip.onLookup e l.key fun l => { l with
        st := 2, bucket := b, slot := j }).flush, s.pending⟩)) ∧
  (∀ (s : State) (e : Fin 128) (n : Nat) (l : FLookup) (x : Fin 3), s.chip.power.vin = true →
    (s.chip.eng e).lookups[n]? = some l → l.st = 2 →
    exec (.recordFill e n true x) s = .next ⟨(s.chip.lookupError e l.key).flush, s.pending⟩ ∧
    (tagMatches (s.chip.tag e l.bucket l.slot) l.h1 l.h2 = true → rKey (s.chip.slotRec e l.bucket l.slot) = l.key →
      exec (.recordFill e n false 0) s = .next ⟨(s.chip.fillLookup e l).flush, s.pending⟩) ∧
    (tagMatches (s.chip.tag e l.bucket l.slot) l.h1 l.h2 = false →
      exec (.recordFill e n false 0) s = .next ⟨(s.chip.absentKey e l.key).flush, s.pending⟩)) ∧
  (∀ (c : Chip) (e i : Nat) (l : FLookup), c.cacheWay e (hSet l.h1) = some i →
    c.fillLookup e l = (((c.fillWay e i l.bucket l.slot false false (c.slotRec e l.bucket l.slot)).endLookup e l.key).bumpQ 48
      F.FLE_CNT_FILL.V e).signal 4 e 4) ∧
  (∀ (c : Chip) (e : Nat) (l : FLookup), c.cacheWay e (hSet l.h1) = none →
    c.fillLookup e l = c.onLookup e l.key fun l => { l with st := 3 }) ∧
  (∀ (s : State) (e : Fin 128) (l : FLookup), s.chip.power.vin = true →
    (s.chip.eng e).lookups.find? (fun l => 3 ≤ l.st && s.chip.canPlace e l) = some l →
    (l.st = 3 → exec (.wayAvailable e) s = .next ⟨(s.chip.fillLookup e l).flush, s.pending⟩) ∧
    (l.st ≠ 3 → exec (.wayAvailable e) s = .next ⟨(s.chip.absentKey e l.key).flush, s.pending⟩)) ∧
  (∀ (c : Chip) (e : Nat) (o : FOp), o.kind = 0 → (tpMode (c.tpl o.tmpl) = 0 ∨ insertOn (c.tpl o.tmpl) o = false) →
    c.absentOne e o = ((c.leave e o).fallback e o 3, true)) ∧
  (∀ s : State, s.chip.power.vin = true → s.chip.wds.setupEnds = [] → exec .setupEndReport s = .next s) ∧
  (∀ (s : State) (x : Nat × Nat × Nat) (r : List (Nat × Nat × Nat)), s.chip.power.vin = true → s.chip.wds.setupEnds = x :: r →
    exec .setupEndReport s = .next ⟨((s.chip.onWds fun w => { w with setupEnds := r }).setupEnd x.1 x.2.1 x.2.2).flush,
      s.pending⟩) ∧
  (∀ (c : Chip) (e tag how : Nat) (x : FSetup), (c.eng e).setups.find? (fun x => x.tag = tag && x.st != 0) = some x → x.st = 1 →
    c.setupEnd e tag how = c.setupFailed e x (if how = 0 then 3 else 5))

/-- From R230, R254 to R257, R285, R292, R532, R533: the ops of contexts, windows, sweeps and peers, the hash calculator and the
refresh of meters. The model's own choices that it rests on, which no rule is cited for: log entries 74 and 91. -/
def Obligations.FlowEngineServesContextsWindowsAndSweeps : Prop :=
  (∀ (s : State) (e : Fin 128) (x : Fin 3) (o : FOp), s.chip.power.vin = true → s.chip.bankGated e = false →
    (s.chip.act.reqs.find? (fun (o : FOp) => o.kind == 2 && hEngine o.h1 == e.val) = some o → s.chip.engineStalled e = false →
      exec (.rdOp e x) s = .next ⟨(({ s.chip with act := { s.chip.act with reqs := s.chip.act.reqs.erase o } }).arriveEcc e o
        x).flush, s.pending⟩) ∧
    (s.chip.act.reqs.find? (fun (o : FOp) => o.kind == 3 && hEngine o.h1 == e.val) = some o → s.chip.engineStalled e = false →
      exec (.prep e x) s = .next ⟨(({ s.chip with act := { s.chip.act with reqs := s.chip.act.reqs.erase o } }).arriveEcc e o
        x).flush, s.pending⟩) ∧
    (s.chip.act.reqs.find? (fun (o : FOp) => o.kind == 5 && hEngine o.h1 == e.val) = some o → s.chip.engineHeld e = false →
      exec (.hrd e x) s = .next ⟨(({ s.chip with act := { s.chip.act with reqs := s.chip.act.reqs.erase o } }).arriveEcc e o
        x).flush, s.pending⟩) ∧
    (s.chip.act.reqs.find? (fun (o : FOp) => o.kind == 6 && hEngine o.h1 == e.val) = some o → s.chip.engineHeld e = false →
      exec (.hdel e x) s = .next ⟨(({ s.chip with act := { s.chip.act with reqs := s.chip.act.reqs.erase o } }).arriveEcc e o
        x).flush, s.pending⟩) ∧
    (s.chip.act.reqs.find? (fun (o : FOp) => o.kind == 7 && hEngine o.h1 == e.val) = some o → s.chip.engineHeld e = false →
      exec (.hins e x) s = .next ⟨(({ s.chip with act := { s.chip.act with reqs := s.chip.act.reqs.erase o } }).arriveEcc e o
        x).flush, s.pending⟩)) ∧
  (∀ (s : State) (e : Fin 128) (m : Bool × Nat × Nat × Nat) (c : Chip) (p : FPrep), s.chip.power.vin = true →
    c = { s.chip with act := { s.chip.act with msgs := s.chip.act.msgs.erase m } } →
    (c.eng e).prepOf m.2.2.1 m.2.2.2 = some p →
    (s.chip.act.msgs.find? (fun (m : Bool × Nat × Nat × Nat) => m.1 == true && m.2.1 == e.val) = some m →
      exec (.apply e) s = .next ⟨(c.applyPrep e p).flush, s.pending⟩) ∧
    (s.chip.act.msgs.find? (fun (m : Bool × Nat × Nat × Nat) => m.1 == false && m.2.1 == e.val) = some m →
      exec (.drop e) s = .next ⟨(c.dropPrep e p).flush, s.pending⟩)) ∧
  (∀ (c : Chip) (e i : Nat) (o : FOp), o.kind = 2 → c.otherHit e i o = (c.touch e i).sendAnswer o 0 (c.way e i).record) ∧
  (∀ (c : Chip) (e i : Nat) (o : FOp), o.kind = 5 → c.otherHit e i o = c.sendAnswer o 0 (c.way e i).record) ∧
  (∀ (c : Chip) (e i : Nat) (o : FOp), o.kind = 7 → c.otherHit e i o = c.refuseOp e o 4) ∧
  (∀ (c : Chip) (e i : Nat) (o : FOp), o.kind = 3 → o.mode = 1 → sliceB o.data 0 40 ≠ rKey (c.way e i).record →
    c.otherHit e i o = c.refuseOp e o 1) ∧
  (∀ (c : Chip) (e : Nat) (o : FOp), o.kind = 6 → c.tableLookup e o.key o.h1 o.h2 = .absent →
    c.tableOp e o = c.refuseOp e o 3) ∧
  (∀ (s : State) (e : Fin 128) (b : Nat) (x : Fin 3), s.chip.power.vin = true → s.chip.flowPresent = true →
    s.chip.bankGated e = false → s.chip.engineHeld e = false →
    exec (.sweepOp e b x) s = .next ⟨(s.chip.sweepOp e b x).flush, s.pending⟩) ∧
  (∀ (s : State) (e : Fin 128) (b : Nat) (x : Fin 3), s.chip.power.vin = true → s.chip.flowPresent = false →
    exec (.sweepOp e b x) s = .next ⟨s.chip.wakeBank e, s.pending⟩) ∧
  (∀ (s : State) (p : Fin 512) (fr : Bytes), s.chip.power.vin = true →
    exec (.replOp p fr) s = .next ⟨(s.chip.replRx p fr).flush, s.pending⟩) ∧
  (∀ (c : Chip) (e b j : Nat) (o : FOp), o.mode ≠ 3 → c.wayOf e o.key o.h1 = none →
    c.tableLookup e o.key o.h1 o.h2 = .found b j →
    c.replOp e o = c.storeRec e b j (putB (sliceB o.data 0 128) 43 [BitVec.ofNat 8 (setBitsOf 2 2 (byteAt o.data 43) 1)])) ∧
  (∀ (s : State) (e : Fin 128), s.chip.power.vin = true → s.chip.flag F.FLE_HC_CTRL.CANON e = false →
    ∃ t k, k = s.chip.getBytes (F.FLE_HC_KEY.V.addr e 0) 40 ∧ exec (.hcGo e) s = .next t ∧
      t.chip.getF F.FLE_HC_H1.V e = s.chip.h1Of k % 2 ^ 32 ∧ t.chip.getF F.FLE_HC_H2.V e = s.chip.h2Of k % 2 ^ 32 ∧
      t.chip.getF F.FLE_HC_IDX.ENGINE e = hEngine (s.chip.h1Of k) % 2 ^ F.FLE_HC_IDX.ENGINE.width ∧
      t.chip.getF F.FLE_HC_IDX.SLOT e = hSlot (s.chip.h1Of k) % 2 ^ F.FLE_HC_IDX.SLOT.width ∧
      t.chip.flow = s.chip.flow ∧ t.chip.dram = s.chip.dram) ∧
  (∀ (s : State) (e : Fin 128), s.chip.power.vin = true →
    ∃ t, exec (.meterRefresh e) s = .next t ∧ t.chip.regs = s.chip.regs ∧ t.chip.dram = s.chip.dram ∧
      t.chip.pkts = s.chip.pkts ∧ t.chip.flow.eng = s.chip.flow.eng ∧
      (∀ k, k / 4096 ≠ e.val → smGet (fun _ => zerosB 48) t.chip.flow.meters k = smGet (fun _ => zerosB 48) s.chip.flow.meters k))

/-- From R299, R304: the ops of the ALU units. Where the word at a routine's PC gives the unit the op, the op's result and flags
stand in the word's progress, and nothing else changes; the registers take the results when the word completes. The model's own
choices that it rests on, which no rule is cited for: log entries 8 and 85. -/
def Obligations.AluOpsComputeTheirResults : Prop :=
  (∀ (s : State) (x : Fin 1024) (b : Bool) (v : Ctx) (w : Mw) (ws : WordSt), s.chip.power.vin = true →
    (s.chip.unitAt x (b2n b) 1 v w ws → exec (.add x b) s = .next ⟨s.chip.unitRan x (b2n b) v (ws.alu w b (v.opA w b + v.opB w b)
      (decide (2 ^ 64 ≤ (v.opA w b).toNat + (v.opB w b).toNat))), s.pending⟩) ∧
    (s.chip.unitAt x (b2n b) 2 v w ws → exec (.sub x b) s = .next ⟨s.chip.unitRan x (b2n b) v (ws.alu w b (v.opA w b - v.opB w b)
      (decide ((v.opA w b).toNat < (v.opB w b).toNat))), s.pending⟩) ∧
    (s.chip.unitAt x (b2n b) 3 v w ws → exec (.and x b) s = .next ⟨s.chip.unitRan x (b2n b) v (ws.alu w b
      (v.opA w b &&& v.opB w b) false), s.pending⟩) ∧
    (s.chip.unitAt x (b2n b) 4 v w ws → exec (.or x b) s = .next ⟨s.chip.unitRan x (b2n b) v (ws.alu w b
      (v.opA w b ||| v.opB w b) false), s.pending⟩) ∧
    (s.chip.unitAt x (b2n b) 5 v w ws → exec (.xor x b) s = .next ⟨s.chip.unitRan x (b2n b) v (ws.alu w b
      (v.opA w b ^^^ v.opB w b) false), s.pending⟩) ∧
    (s.chip.unitAt x (b2n b) 6 v w ws → exec (.shl x b) s = .next ⟨s.chip.unitRan x (b2n b) v (ws.alu w b
      (v.opA w b <<< ((v.opB w b).toNat % 64)) false), s.pending⟩) ∧
    (s.chip.unitAt x (b2n b) 7 v w ws → exec (.shr x b) s = .next ⟨s.chip.unitRan x (b2n b) v (ws.alu w b
      (v.opA w b >>> ((v.opB w b).toNat % 64)) false), s.pending⟩) ∧
    (s.chip.unitAt x (b2n b) 8 v w ws → exec (.mov x b) s = .next ⟨s.chip.unitRan x (b2n b) v (ws.alu w b (v.opB w b) false),
      s.pending⟩) ∧
    (s.chip.unitAt x (b2n b) 9 v w ws → exec (.cmp x b) s = .next ⟨s.chip.unitRan x (b2n b) v { ws with
      flags := ws.flags.alu b (v.opA w b - v.opB w b) (decide ((v.opA w b).toNat < (v.opB w b).toNat)) }, s.pending⟩) ∧
    (s.chip.unitAt x (b2n b) 10 v w ws → exec (.extr x b) s = .next ⟨s.chip.unitRan x (b2n b) v (ws.alu w b
      (BitVec.ofNat 64 ((v.opA w b).toNat / 2 ^ ((v.opB w b).toNat % 64) % 2 ^ (bitsOf 11 6 (v.opB w b).toNat + 1))) false),
      s.pending⟩) ∧
    (s.chip.unitAt x (b2n b) 11 v w ws → exec (.ins x b) s = .next ⟨s.chip.unitRan x (b2n b) v (ws.alu w b
      (BitVec.ofNat 64 (setBitsOf ((v.opB w b).toNat % 64 + (bitsOf 11 6 (v.opB w b).toNat + 1) - 1) ((v.opB w b).toNat % 64)
        (v.reg (aDst (mwAlu w b))).toNat (v.opA w b).toNat)) false), s.pending⟩) ∧
    (s.chip.unitAt x (b2n b) 12 v w ws → exec (.mul x b) s = .next ⟨s.chip.unitRan x (b2n b) v (ws.alu w b
      (v.opA w b * v.opB w b) false), s.pending⟩) ∧
    (s.chip.unitAt x (b2n b) 13 v w ws → v.opB w b ≠ 0 → exec (.modu x b) s = .next ⟨s.chip.unitRan x (b2n b) v (ws.alu w b
      (v.opA w b % v.opB w b) false), s.pending⟩) ∧
    (s.chip.unitAt x (b2n b) 13 v w ws → v.opB w b = 0 → exec (.modu x b) s = .next ⟨s.chip.unitRan x (b2n b) v (ws.alu w b
      (v.opA w b) true), s.pending⟩) ∧
    (s.chip.unitAt x (b2n b) 14 v w ws → exec (.ldlc x b) s = .next ⟨s.chip.unitRan x (b2n b) v { ws with
      flags := ws.flags.alu b (v.opB w b) false, lc := BitVec.ofNat 16 (v.opB w b).toNat }, s.pending⟩) ∧
    (s.chip.unitAt x (b2n b) 15 v w ws → exec (.minu x b) s = .next ⟨s.chip.unitRan x (b2n b) v (ws.alu w b
      (if (v.opA w b).toNat ≤ (v.opB w b).toNat then v.opA w b else v.opB w b) false), s.pending⟩)) ∧
  (∀ (s : State) (x : Fin 1024) (b : Bool), s.chip.power.vin = true → (s.chip.ctx x).st ≠ 1 →
    exec (.add x b) s = .next s ∧ exec (.modu x b) s = .next s ∧ exec (.ldlc x b) s = .next s ∧ exec (.ins x b) s = .next s) ∧
  (∀ (f : Flags) (r : BitVec 64) (k : Bool), (f.alu false r k).za = (r == 0) ∧ (f.alu false r k).na = r.getLsbD 63 ∧
    (f.alu false r k).ca = k ∧ (f.alu false r k).zb = f.zb ∧ (f.alu true r k).zb = (r == 0) ∧ (f.alu true r k).cb = k ∧
    (f.alu true r k).za = f.za)

/-- From R305, R306, R312, R313, R315: the ops of the MEM unit on scratch, constants, device DRAM and the write set. The model's
own choices that it rests on, which no rule is cited for: log entries 85, 86, 87 and 88. -/
def Obligations.MemOpsReachScratchDramAndTheWriteSet : Prop :=
  (∀ (s : State) (x : Fin 1024) (v : Ctx) (w : Mw) (ws : WordSt) (a n : Nat), s.chip.power.vin = true →
    v.memRange w = (a, n) → v.touch [(a, n)] = 0 →
    (s.chip.unitAt x 2 1 v w ws → a + n ≤ 4096 → exec (.sld x) s = .next ⟨s.chip.unitRan x 2 v ((List.range (mwRegs w)).foldl
      (fun (ws : WordSt) i => ws.reg (mwRd w + i) (w64 (beNat (v.sread (a + 8 * i) 8)))) ws), s.pending⟩) ∧
    (s.chip.unitAt x 2 2 v w ws → a + n ≤ 4096 → exec (.sst x) s = .next ⟨s.chip.unitRan x 2 v (ws.put a (s.chip.sstBytes v w)),
      s.pending⟩) ∧
    (s.chip.unitAt x 2 1 v w ws → 4096 < a + n → exec (.sld x) s = .next ⟨s.chip.endCtx x 1 abMem, s.pending⟩) ∧
    (s.chip.unitAt x 2 2 v w ws → 4096 < a + n → exec (.sst x) s = .next ⟨s.chip.endCtx x 1 abMem, s.pending⟩)) ∧
  (∀ (s : State) (x : Fin 1024) (v : Ctx) (w : Mw) (ws : WordSt) (d n : Nat), s.chip.power.vin = true →
    s.chip.unitAt x 2 3 v w ws → d = (v.reg (mwRa w)).toNat → n = bitsOf 30 24 d → 1 ≤ n → n ≤ 64 → d % 4096 + n ≤ 4096 →
    bitsOf 23 12 d + n ≤ 4096 → v.touch [(d % 4096, n), (bitsOf 23 12 d, n)] = 0 →
    exec (.cpy x) s = .next ⟨s.chip.unitRan x 2 v (ws.put (d % 4096) (v.sread (bitsOf 23 12 d) n)), s.pending⟩) ∧
  (∀ (s : State) (x : Fin 1024) (v : Ctx) (w : Mw) (ws : WordSt), s.chip.power.vin = true → s.chip.unitAt x 2 4 v w ws →
    mwRa w < 32 →
    exec (.cld x) s = .next ⟨s.chip.unitRan x 2 v (ws.reg (mwRd w) (w64 (leNat (sliceB (smGet (fun _ => []) s.chip.act.vconst
      (x / 64)) (8 * mwRa w) 8)))), s.pending⟩) ∧
  (∀ (s : State) (x : Fin 1024) (v : Ctx) (w : Mw) (ws : WordSt) (o : FOp), s.chip.power.vin = true →
    s.chip.unitAt x 2 5 v w ws → v.rd = none → v.touch [(v.memAddr w, 128)] = 0 →
    o = coreOp 2 x 0 (v.sread (v.memAddr w) 40) ((v.reg (mwRd w)).toNat % 2 ^ 32) ((v.reg (mwRd w)).toNat / 2 ^ 32) 0 0 []
      s.chip.mt → s.chip.ownerOf o.h1 = some s.chip.ownDevice → s.chip.engineHeld (hEngine o.h1) = false →
    ∃ t, exec (.rd x) s = .next t ∧ t.chip.act.reqs = s.chip.act.reqs ++ [o] ∧
      (t.chip.ctx x).rd = some ⟨o, s.chip.ownDevice, 0, 1, 1⟩ ∧ t.chip.regs = s.chip.regs ∧ t.chip.flow = s.chip.flow) ∧
  (∀ (s : State) (x : Fin 1024) (v : Ctx) (ws : WordSt) (e : CEnt) (a : FAnswer), s.chip.power.vin = true → v = s.chip.ctx x →
    v.rd = some e → v.word = some ws → s.chip.flow.answers.find? (fun (a : FAnswer) => a.op == e.op) = some a → a.code = 3 →
    exec (.rdAnswer x) s = .next ⟨(s.chip.onFlow fun f => { f with answers := f.answers.erase a }).setCtx x { v with
      rd := none, word := some { ws with flags := ws.flags.mem false true, done := ws.done ++ [2] } }, s.pending⟩) ∧
  (∀ (s : State) (x : Fin 1024) (v : Ctx) (w : Mw) (ws : WordSt) (key : Bytes) (hs : Nat), s.chip.power.vin = true →
    s.chip.unitAt x 2 6 v w ws → mwSz w = 0 → v.memAddr w + 128 ≤ 4096 → v.touch [(v.memAddr w, 40)] = 0 →
    key = v.sread (v.memAddr w) 40 → hs = (v.reg (mwRd w)).toNat → s.chip.ownerOf (hs % 2 ^ 32) = some s.chip.ownDevice →
    v.ents = [] →
    exec (.wrec x) s = .next ⟨s.chip.unitRan x 2 { v with ents := [⟨1, key, hs % 2 ^ 32, hs / 2 ^ 32, v.memAddr w, 128, 0⟩] } ws,
      s.pending⟩) ∧
  (∀ (s : State) (x : Fin 1024) (v : Ctx) (w : Mw) (ws : WordSt) (d a : Nat), s.chip.power.vin = true →
    d = (v.reg (mwRd w)).toNat → a = (v.reg (mwRa w)).toNat → 1 ≤ bitsOf 28 16 d → bitsOf 28 16 d ≤ 4096 →
    s.chip.routineMay v a (bitsOf 28 16 d) = true →
    (s.chip.unitAt x 2 7 v w ws →
      exec (.drd x) s = .next ⟨s.chip.unitRan x 2 { v with fills := v.fills ++ [⟨a, d % 4096, bitsOf 28 16 d, false⟩] } ws,
        s.pending⟩) ∧
    (s.chip.unitAt x 2 8 v w ws → v.watch = [] → (linesOf a (bitsOf 28 16 d)).length ≤ 64 →
      exec (.drdw x) s = .next ⟨s.chip.unitRan x 2 { v with
        fills := v.fills ++ [⟨a, d % 4096, bitsOf 28 16 d, false⟩], watch := linesOf a (bitsOf 28 16 d) } ws, s.pending⟩)) ∧
  (∀ (s : State) (x : Fin 1024) (v : Ctx) (w : Mw) (ws : WordSt) (d a : Nat), s.chip.power.vin = true →
    s.chip.unitAt x 2 10 v w ws → d = (v.reg (mwRd w)).toNat → a = (v.reg (mwRa w)).toNat → 8 ≤ bitsOf 28 16 d →
    bitsOf 28 16 d ≤ 64 → a % 64 + bitsOf 28 16 d ≤ 64 → s.chip.routineMay v a (bitsOf 28 16 d) = true → v.ents.length < 8 →
    exec (.dwr x) s = .next ⟨s.chip.unitRan x 2 { v with ents := v.ents ++ [⟨0, [], 0, 0, d % 4096, bitsOf 28 16 d, a⟩] } ws,
      s.pending⟩) ∧
  (∀ (s : State) (x : Fin 1024) (f : Fill), s.chip.power.vin = true →
    (s.chip.ctx x).fills.find? (fun (f : Fill) => !f.bad) = some f → (s.chip.ctx x).free = false →
    exec (.drdDataArrived x false) s = .next ⟨s.chip.onCtx x fun v => { v with
      fills := v.fills.erase f, scratch := putScratch v.scratch f.addr (s.chip.dramRead f.dram f.len) }, s.pending⟩) ∧
  (∀ (s : State) (x : Fin 1024) (v : Ctx) (w : Mw) (ws : WordSt), s.chip.power.vin = true → s.chip.unitAt x 2 9 v w ws →
    exec (.wkeep x) s = .next ⟨s.chip.unitRan x 2 { v with
      watch := v.watch.filter (· == (v.reg (mwRa w)).toNat / 64), broken := v.broken.filter (· == (v.reg (mwRa w)).toNat / 64) } ws, s.pending⟩) ∧
  (∀ (s : State) (x : Fin 1024) (v : Ctx) (w : Mw) (ws : WordSt), s.chip.power.vin = true → s.chip.unitAt x 2 11 v w ws →
    (v.deltas.length < 16 → exec (.cadd x) s = .next ⟨s.chip.unitRan x 2 { v with
      deltas := v.deltas ++ [((v.reg (mwRa w)).toNat % 1024, mwImm w)] } ws, s.pending⟩) ∧
    (16 ≤ v.deltas.length → exec (.cadd x) s = .next ⟨s.chip.endCtx x 1 abFull, s.pending⟩)) ∧
  (∀ (c : Chip) (own : Option Nat) (a n k : Nat) (v : Ctx), own ≠ some k → (k, v) ∈ c.act.ctxs →
    (k, { v with broken := v.broken ++ (linesOf a n).filter (fun l => v.watch.contains l && !v.broken.contains l) }) ∈
      (c.breakWatch own a n).act.ctxs)

/-- From R270 to R272, R307 to R310: the ops of the KEY, CRC, EMIT and TIM units. The model's own choices that it rests on,
which no rule is cited for: log entries 58, 85, 86, 87, 88 and 111. -/
def Obligations.KeyCrcEmitAndTimeOps : Prop :=
  (∀ (s : State) (x : Fin 1024) (v : Ctx) (w : Mw) (ws : WordSt) (a : Nat), s.chip.power.vin = true →
    a = (v.reg (mwKr w)).toNat % 4096 → v.touch [(a, 40)] = 0 →
    (s.chip.unitAt x 3 1 v w ws → exec (.hash x) s = .next ⟨s.chip.unitRan x 3 v (ws.reg (mwKr w + 1)
      (s.chip.hashes (v.sread a 40))), s.pending⟩) ∧
    (s.chip.unitAt x 3 2 v w ws → exec (.canon x) s = .next ⟨s.chip.unitRan x 3 v (s.chip.canonAt ws (mwKr w) a (v.sread a 40)),
      s.pending⟩)) ∧
  (∀ (s : State) (x : Fin 1024) (v : Ctx) (w : Mw) (ws : WordSt) (d n : Nat), s.chip.power.vin = true →
    s.chip.unitAt x 3 3 v w ws → d = (v.reg (mwKr w)).toNat → n = bitsOf 22 16 d → v.touch [(d % 4096, n)] = 0 →
    exec (.crcs x) s = .next ⟨s.chip.unitRan x 3 v (ws.reg (mwKr w + 1) (w64 (crc32c (d / 2 ^ 32) (v.sread (d % 4096) n)))),
      s.pending⟩) ∧
  (∀ (s : State) (x : Fin 1024) (v : Ctx) (w : Mw) (ws : WordSt) (d n : Nat), s.chip.power.vin = true →
    s.chip.unitAt x 3 4 v w ws → d = (v.reg (mwKr w)).toNat → n = bitsOf 30 24 d → n ≠ 0 →
    v.touch [(d % 4096, n), (bitsOf 23 12 d, n)] = 0 →
    exec (.kcmp x) s = .next ⟨s.chip.unitRan x 3 v { ws with flags := { ws.flags with
      keyMatch := v.sread (d % 4096) n == v.sread (bitsOf 23 12 d) n } }, s.pending⟩) ∧
  (∀ (s : State) (x : Fin 1024) (v : Ctx) (w : Mw) (ws : WordSt) (d : Nat), s.chip.power.vin = true →
    s.chip.unitAt x 3 5 v w ws → d = (v.reg (mwKr w)).toNat → npSlot (bitsOf 31 24 d) = none →
    exec (.poolp x) s = .next ⟨s.chip.unitRan x 3 v { ws.reg (mwKr w + 1) 0 with flags := { ws.flags with keyPool := false } },
      s.pending⟩) ∧
  (∀ (s : State) (x : Fin 1024) (v : Ctx) (w : Mw) (ws : WordSt) (d : Nat), s.chip.power.vin = true →
    s.chip.unitAt x 3 6 v w ws → d = (v.reg (mwKr w)).toNat → v.touch [(bitsOf 27 16 d, 40)] = 0 →
    (∀ i, i < 256 → npOk (s.chip.natPool i) = false) →
    exec (.poola x) s = .next ⟨s.chip.unitRan x 3 v { ws.reg (mwKr w + 1) 0 with flags := { ws.flags with keyPool := false } },
      s.pending⟩) ∧
  (∀ (s : State) (x : Fin 1024) (v : Ctx) (w : Mw) (ws : WordSt) (d : Nat), s.chip.power.vin = true →
    s.chip.unitAt x 3 7 v w ws → d = (v.reg (mwKr w)).toNat → v.touch [(bitsOf 27 16 d, 40), (bitsOf 39 28 d, 42)] = 0 →
    npN (s.chip.natPool (d % 256)) ≠ 0 →
    ∃ t st ws', exec (.nats x) s = .next t ∧ t.chip = s.chip.unitRan x 3 v ws' ∧
      st = natStart (s.chip.natPool (d % 256)) (bitsOf 9 8 d) (sliceB (v.sread (bitsOf 27 16 d) 40) 37 3)
        (endpoint (v.sread (bitsOf 27 16 d) 40) (bitsOf 12 12 d) false).1
        (endpoint (v.sread (bitsOf 27 16 d) 40) (bitsOf 12 12 d) false).2 ∧
      (mwKr w + 1, w64 (st + npProbes (s.chip.natPool (d % 256)) * 2 ^ 32)) ∈ ws'.regs ∧
      (mwKr w + 2, w64 (npMap (s.chip.natPool (d % 256)) (bitsOf 9 8 d) st)) ∈ ws'.regs ∧
      (mwKr w + 4, w64 (npMap (s.chip.natPool (d % 256)) (bitsOf 9 8 d) 0)) ∈ ws'.regs ∧ ws'.flags = ws.flags) ∧
  (∀ (s : State) (x : Fin 1024) (v : Ctx) (w : Mw) (ws : WordSt) (d : Nat) (e : Bytes), s.chip.power.vin = true →
    s.chip.unitAt x 3 8 v w ws → d = (v.reg (mwKr w)).toNat → e = s.chip.natPool (d % 256) → v.touch [(bitsOf 27 16 d, 18)] = 0 →
    exec (.natx x) s = .next ⟨s.chip.unitRan x 3 v ((ws.put (bitsOf 27 16 d) (natBe 16 (beAt e 8 16 + d / 2 ^ 32 / npPc e) ++
      natBe 2 (beAt e 4 2 + d / 2 ^ 32 % npPc e))).reg (mwKr w + 1) (w64 (npMap e (bitsOf 9 8 d) (d / 2 ^ 32)))), s.pending⟩) ∧
  (∀ (s : State) (x : Fin 1024) (v : Ctx) (w : Mw) (ws : WordSt) (d : Nat), s.chip.power.vin = true →
    s.chip.unitAt x 3 9 v w ws → d = (v.reg (mwKr w)).toNat →
    v.touch [(d % 4096, 40), (bitsOf 23 12 d, 18), (bitsOf 35 24 d, 18), (bitsOf 47 36 d, 4)] = 0 →
    exec (.kbld x) s = .next ⟨s.chip.unitRan x 3 v (s.chip.canonAt ws (mwKr w) (d % 4096) (v.sread (bitsOf 23 12 d) 16 ++
      v.sread (bitsOf 35 24 d) 16 ++ v.sread (bitsOf 23 12 d + 16) 2 ++ v.sread (bitsOf 35 24 d + 16) 2 ++
      v.sread (bitsOf 47 36 d) 4)), s.pending⟩) ∧
  (∀ (s : State) (x : Fin 1024) (v : Ctx) (w : Mw) (ws : WordSt) (t : Bytes), s.chip.power.vin = true →
    s.chip.unitAt x 3 10 v w ws → t = s.chip.tpl ((v.reg (mwKr w)).toNat % 64) →
    exec (.tplr x) s = .next ⟨s.chip.unitRan x 3 v ((ws.reg (mwKr w + 1) (w64 ((b2n (tpPinNew t) * 2 ^ 14 + tpAgeNew t) *
      2 ^ 48))).reg (mwKr w + 2) (w64 (b2n (tpExportNew t) * 2 ^ 53))), s.pending⟩) ∧
  (∀ (s : State) (x : Fin 1024) (v : Ctx) (w : Mw) (ws : WordSt), s.chip.power.vin = true →
    (s.chip.unitAt x 4 1 v w ws → mwSeed w = false → exec (.init x) s = .next ⟨s.chip.unitRan x 4 v { ws with
      run := BitVec.ofNat 32 (polyOf (mwPoly w)).init }, s.pending⟩) ∧
    (s.chip.unitAt x 4 1 v w ws → mwSeed w = true → exec (.init x) s = .next ⟨s.chip.unitRan x 4 v { ws with
      run := BitVec.ofNat 32 (v.reg (mwRa w)).toNat }, s.pending⟩) ∧
    (s.chip.unitAt x 4 2 v w ws → mwMemOp w = 1 → (v.memRange w).1 + (v.memRange w).2 ≤ 4096 → v.touch [v.memRange w] = 0 →
      exec (.feed x) s = .next ⟨s.chip.unitRan x 4 v { ws with run := BitVec.ofNat 32 (cvRun (polyOf (mwPoly w)) v.run.toNat
        (v.sread (v.memRange w).1 (v.memRange w).2)) }, s.pending⟩) ∧
    (s.chip.unitAt x 4 3 v w ws → exec (.out x) s = .next ⟨s.chip.unitRan x 4 v (ws.reg (mwRd w) (w64 (cvFinal
      (polyOf (mwPoly w)) v.run.toNat))), s.pending⟩)) ∧
  (∀ (s : State) (x : Fin 1024) (v : Ctx) (w : Mw) (ws : WordSt) (d op : Nat), s.chip.power.vin = true →
    s.chip.unitAt x 5 op v w ws → d = (v.reg (mwEr w)).toNat → emitLenOk op (bitsOf 28 16 d) = true → v.emits.length < 4 →
    bitOf op (s.chip.polByte (if v.isOpen then 0x217 else 0x216)).toNat = true →
    (op = 1 → exec (.pktOut x) s = .next ⟨s.chip.unitRan x 5 { v with
      emits := v.emits ++ [⟨1, d % 4096, bitsOf 28 16 d, bitsOf 40 32 d, mwQsel w⟩] } ws, s.pending⟩) ∧
    (op = 2 → exec (.pktIn x) s = .next ⟨s.chip.unitRan x 5 { v with
      emits := v.emits ++ [⟨2, d % 4096, bitsOf 28 16 d, bitsOf 40 32 d, mwQsel w⟩] } ws, s.pending⟩) ∧
    (op = 3 → exec (.item x) s = .next ⟨s.chip.unitRan x 5 { v with
      emits := v.emits ++ [⟨3, d % 4096, bitsOf 28 16 d, bitsOf 40 32 d, mwQsel w⟩] } ws, s.pending⟩) ∧
    (op = 4 → exec (.host x) s = .next ⟨s.chip.unitRan x 5 { v with
      emits := v.emits ++ [⟨4, d % 4096, bitsOf 28 16 d, bitsOf 40 32 d, mwQsel w⟩] } ws, s.pending⟩)) ∧
  (∀ (s : State) (x : Fin 1024) (v : Ctx) (w : Mw) (ws : WordSt), s.chip.power.vin = true →
    (s.chip.unitAt x 6 1 v w ws → exec (.timFt x) s = .next ⟨s.chip.unitRan x 6 v (ws.reg (aDst (mwAlu w true))
      (w64 s.chip.ft)), s.pending⟩) ∧
    (s.chip.unitAt x 6 2 v w ws → exec (.timDt x) s = .next ⟨s.chip.unitRan x 6 v (ws.reg (aDst (mwAlu w true))
      (w64 (s.chip.dt / 2 ^ 16))), s.pending⟩) ∧
    (s.chip.unitAt x 6 3 v w ws → exec (.timDtw x) s = .next ⟨s.chip.unitRan x 6 v (ws.reg (aDst (mwAlu w true))
      (w64 s.chip.dtw)), s.pending⟩) ∧
    (s.chip.unitAt x 6 4 v w ws → exec (.timAfter x) s = .next ⟨s.chip.unitRan x 6 v { ws with
      flags := { ws.flags with timeAfter := dtwAfter s.chip.dtw (v.reg (aSa (mwAlu w true))).toNat } }, s.pending⟩))

/-- From R299, R302, R303, R319, R328: a word completes with its sequencing command: its results are written, and the PC, the
stack and LC follow; a routine may end. The model's own choices that it rests on, which no rule is cited for: log entry 85. -/
def Obligations.WordsCompleteAndSequence : Prop :=
  (∀ (s : State) (x : Fin 1024) (v y : Ctx) (w : Mw) (ws : WordSt), s.chip.power.vin = true → y = v.complete ws →
    (s.chip.wordAt x 0 v w ws → exec (.seq x 0) s = .next ⟨(s.chip.setCtx x { y with pc := (y.pc + 1) % 0x8000 }).flush,
      s.pending⟩) ∧
    (s.chip.wordAt x 1 v w ws → exec (.br x 0) s = .next ⟨(s.chip.setCtx x { y with
      pc := if y.holds w then mwTgt w % 0x8000 else (y.pc + 1) % 0x8000 }).flush, s.pending⟩) ∧
    (s.chip.wordAt x 2 v w ws → y.holds w = true → y.stack.length < 8 →
      exec (.call x 0) s = .next ⟨(s.chip.setCtx x { y with
        stack := (y.pc + 1) % 0x8000 :: y.stack, pc := mwTgt w % 0x8000 }).flush, s.pending⟩) ∧
    (s.chip.wordAt x 2 v w ws → y.holds w = true → 8 ≤ y.stack.length →
      exec (.call x 0) s = .next ⟨((s.chip.setCtx x y).endCtx x 1 abStack).flush, s.pending⟩) ∧
    (s.chip.wordAt x 3 v w ws → y.holds w = true → y.stack = [] →
      exec (.ret x 0) s = .next ⟨((s.chip.setCtx x y).endCtx x 1 abStack).flush, s.pending⟩) ∧
    (∀ a r, s.chip.wordAt x 3 v w ws → y.holds w = true → y.stack = a :: r →
      exec (.ret x 0) s = .next ⟨(s.chip.setCtx x { y with stack := r, pc := a % 0x8000 }).flush, s.pending⟩) ∧
    (s.chip.wordAt x 4 v w ws → exec (.loop x 0) s = .next ⟨(s.chip.setCtx x { y with
      lc := y.lc - 1, pc := if y.lc - 1 = 0 then (y.pc + 1) % 0x8000 else mwTgt w % 0x8000 }).flush, s.pending⟩) ∧
    (s.chip.wordAt x 5 v w ws → y.holds w = false →
      exec (.commit x 0) s = .next ⟨(s.chip.setCtx x { y with pc := (y.pc + 1) % 0x8000 }).flush, s.pending⟩) ∧
    (s.chip.wordAt x 5 v w ws → y.holds w = true → y.touch y.setRanges = 0 →
      exec (.commit x 0) s = .next ⟨((s.chip.setCtx x y).startCommit x (mwTgt w)).flush, s.pending⟩) ∧
    (s.chip.wordAt x 6 v w ws → y.holds w = true →
      exec (.abort x 0) s = .next ⟨((s.chip.setCtx x y).endCtx x 1 (mwTgt w % 256)).flush, s.pending⟩) ∧
    (s.chip.wordAt x 6 v w ws → y.holds w = false →
      exec (.abort x 0) s = .next ⟨(s.chip.setCtx x { y with pc := (y.pc + 1) % 0x8000 }).flush, s.pending⟩)) ∧
  (∀ (s : State) (x : Fin 1024) (v : Ctx) (w : Mw) (ws : WordSt), s.chip.power.vin = true → s.chip.wordAt x 0 v w ws →
    exec (.seq x 2) s = .next ⟨((s.chip.raise F.ACT_CL_EVENTS.STORE_UNCORR (x / 64)).endCtx x 1 abFault).flush, s.pending⟩ ∧
    exec (.seq x 3) s = .next ⟨((s.chip.raise F.ACT_CL_EVENTS.DATA_UNCORR (x / 64)).endCtx x 1 abFault).flush, s.pending⟩) ∧
  (∀ (v : Ctx) (ws : WordSt), ws.regs = [] → (v.complete ws).g = v.g) ∧
  (∀ (v : Ctx) (ws : WordSt) (r : Nat) (b : BitVec 64), ws.regs = [(r, b)] → r ≤ 63 → (v.complete ws).reg r = b) ∧
  (∀ (c : Chip) (x : Nat), (c.ctx x).word = none → c.getF F.ACT_STEP_BUDGET.V ≤ (c.ctx x).steps →
    c.issue x = (c.endCtx x 2 0, false))

/-- From R314 to R322: a write set is prepared, committed and given up; routines are killed, timed out and held. The model's own
choices that it rests on, which no rule is cited for: log entry 89. -/
def Obligations.WriteSetsCommitAndRoutinesEnd : Prop :=
  (∀ (s : State) (x : Fin 1024) (e : CEnt) (a : FAnswer) (c : Chip), s.chip.power.vin = true →
    (s.chip.ctx x).commit.find? (fun (e : CEnt) => e.st == 1) = some e →
    s.chip.flow.answers.find? (fun (a : FAnswer) => a.op == e.op) = some a →
    c = s.chip.onFlow (fun f => { f with answers := f.answers.erase a }) →
    (a.code = 0 → exec (.prepAnswer x) s = .next ⟨((c.setEnt x e { e with st := 2 }).nextPrep x).flush, s.pending⟩) ∧
    (a.code = 7 → exec (.prepAnswer x) s = .next ⟨((c.setEnt x e { e with st := 0 }).nextPrep x).flush, s.pending⟩) ∧
    (a.code = 3 → exec (.prepAnswer x) s = .next ⟨((c.setEnt x e { e with st := 0 }).endCtx x 4 3).flush, s.pending⟩)) ∧
  (∀ (c : Chip) (x : Nat) (e : CEnt), (c.ctx x).commit.find? (fun (e : CEnt) => e.st == 0) = some e →
    c.nextPrep x = c.sendPrep x e) ∧
  (∀ (c : Chip) (x : Nat) (e : CEnt), c.ownerOf e.op.h1 = none → c.sendPrep x e = c.endCtx x 1 abOwner) ∧
  (∀ (s : State), s.chip.power.vin = true → s.chip.act.ctxs = [] → s.chip.act.commitQ = [] →
    exec .commitPoint s = .next ⟨s.chip.flush, s.pending⟩) ∧
  (∀ (s : State) (x : Nat) (r : List Nat), s.chip.power.vin = true → s.chip.retryReserve.act.commitQ = x :: r →
    exec .commitPoint s = .next ⟨(s.chip.retryReserve.commitNow x).flush, s.pending⟩) ∧
  (∀ (c : Chip) (x : Nat), (c.ctx x).broken ≠ [] → c.commitNow x = (((c.dropSet x).onCtx x fun v => { v with
    st := 1, pc := v.failPc, word := none }).bumpQ 48 F.ACT_CNT_WATCH_FAIL.V (x / 64))) ∧
  (∀ (s : State) (x : Fin 1024), s.chip.power.vin = true →
    exec (.routineWallTimeout x) s = .next ⟨(s.chip.endCtx x 3 0).flush, s.pending⟩) ∧
  (∀ (s : State) (x : Fin 1024) (c : Chip), s.chip.power.vin = true → c = s.chip.putF F.ACT_KILL.CONTEXT x →
    (((s.chip.ctx x).st = 0 ∨ ((s.chip.ctx x).st = 5 ∧ (s.chip.ctx x).endSt ≠ 0)) →
      exec (.kill x) s = .next ⟨(c.putF F.ACT_KILL.RESULT 3).flush, s.pending⟩) ∧
    ((s.chip.ctx x).st = 5 → (s.chip.ctx x).endSt = 0 →
      exec (.kill x) s = .next ⟨(c.putF F.ACT_KILL.RESULT 2).flush, s.pending⟩) ∧
    (1 ≤ (s.chip.ctx x).st → (s.chip.ctx x).st ≤ 4 →
      exec (.kill x) s = .next ⟨((c.endCtx x 1 abKilled).putF F.ACT_KILL.RESULT 1).flush, s.pending⟩)) ∧
  (∀ (s : State) (k : Fin 16), s.chip.power.vin = true →
    exec (.killAll k) s = .next ⟨((clusterCtxs k).foldl (fun c x => c.endCtx x 1 abKilled) s.chip).flush, s.pending⟩) ∧
  (∀ (s : State) (k : Fin 16), s.chip.power.vin = true →
    exec (.hold k true) s = .next ⟨(s.chip.putF F.ACT_CL_CTRL.HOLD 1 k).heldCheck k, s.pending⟩ ∧
    exec (.hold k false) s = .next ⟨(s.chip.putF F.ACT_CL_CTRL.HOLD 0 k).putF F.ACT_CL_STATUS.HELD 0 k, s.pending⟩) ∧
  (∀ (c : Chip) (x st code : Nat), (c.ctx x).free = true → c.endCtx x st code = c) ∧
  (∀ (c : Chip) (x st code : Nat), (c.ctx x).free = false → ((c.endCtx x st code).ctx x).st = 5 ∧
    ((c.endCtx x st code).ctx x).endSt = st ∧ ((c.endCtx x st code).ctx x).endCode = code ∧
    ((c.endCtx x st code).ctx x).ents = [] ∧ ((c.endCtx x st code).ctx x).emits = [])

/-- From R335, R337 to R348, R585: the dispatcher binds items to contexts, ends routines, wakes and gates clusters, and makes
the items of timers, sweeps, setups and the host. The model's own choices that it rests on, which no rule is cited for: log
entries 8, 23 and 90. -/
def Obligations.DispatcherBindsOffersAndGates : Prop :=
  (∀ (s : State) (k : Fin 16), s.chip.power.vin = true → s.chip.eligible k = false → exec (.itemBind k) s = .next s) ∧
  (∀ (s : State) (k : Fin 16) (x q : Nat) (cr pt : SMap Nat) (b : Bound) (r : List Bound), s.chip.power.vin = true →
    s.chip.eligible k = true → s.chip.ctxPick k = some x → s.chip.classPick k 8 = some (q, cr, pt) →
    s.chip.waitingOf q = b :: r →
    exec (.itemBind k) s = .next ⟨(s.chip.onWds fun w => { w with credit := cr, ptr := pt }).bindItem x q b r, s.pending⟩) ∧
  (∀ (v : Ctx) (b : Bound) (e mt : Nat), (v.start b e mt).st = 1 ∧ (v.start b e mt).pc = e ∧ (v.start b e mt).steps = 0 ∧
    (v.start b e mt).ents = [] ∧ (v.start b e mt).bound = some b ∧ (v.start b e mt).opn = some (decide (0x6000 ≤ e))) ∧
  (∀ (s : State) (x : Fin 1024), s.chip.power.vin = true → (s.chip.ctx x).bound = none →
    exec (.routineEnd x) s = .next ⟨s.chip.flush, s.pending⟩) ∧
  (∀ (s : State) (x : Fin 1024) (b : Bound), s.chip.power.vin = true → (s.chip.ctx x).bound = some b → (s.chip.ctx x).st = 5 →
    (s.chip.ctx x).endSt = 1 → (s.chip.ctx x).endCode = abStopped →
    ∃ c, c = (((((s.chip.sink F.WDS_CL_RUN.V b.cls).bump F.WDS_CL_CNT_FAIL.V b.cls).freezeCount x).followEnd x b).onCtx x
        fun v => { v with st := 0, bound := none }) ∧
      exec (.routineEnd x) s = .next ⟨((c.setWaiting b.cls (b :: c.waitingOf b.cls)).csItem 5 b.cls x b 0 0 0).flush, s.pending⟩) ∧
  (∀ (s : State) (x : Fin 1024) (b : Bound), s.chip.power.vin = true → (s.chip.ctx x).bound = some b → (s.chip.ctx x).st = 5 →
    (s.chip.ctx x).endSt = 0 → itemKind b.item = 8 →
    ∃ c, c = (((((s.chip.sink F.WDS_CL_RUN.V b.cls).bump F.WDS_CL_CNT_DONE.V b.cls).freezeCount x).followEnd x b).onCtx x
        fun v => { v with st := 0, bound := none }) ∧
      exec (.routineEnd x) s = .next ⟨((c.giveSlot b.cls b.shared b.att.isSome).csItem 4 b.cls x b 0 (s.chip.ctx x).endCode
        (s.chip.ctx x).steps).retryHeld.flush, s.pending⟩) ∧
  (∀ s : State, s.chip.power.vin = true →
    exec .freezeWindow s = .next ⟨{ s.chip with sfl := { s.chip.sfl with freeze := [] } }, s.pending⟩) ∧
  (∀ (s : State) (n : Fin 64), s.chip.power.vin = true → s.chip.flag F.WDS_TMR_CTRL.ENABLE n = false →
    exec (.dispatchTimerFire n) s = .next s) ∧
  (∀ (s : State) (n : Fin 64), s.chip.power.vin = true → s.chip.flag F.WDS_TMR_CTRL.ENABLE n = true →
    smFind s.chip.wds.tmrHeld n = none →
    exec (.dispatchTimerFire n) s = .next ⟨(s.chip.onWds fun w => { w with
      tmrHeld := smPut w.tmrHeld n (s.chip.timerItem n) }).timerOffer n, s.pending⟩) ∧
  (∀ (s : State) (q : Fin 64) (h : Bool) (c : Chip), s.chip.power.vin = true →
    c = (s.chip.putF F.WDS_HPOST_CTRL.CLASS q).putF F.WDS_HPOST_CTRL.HASH (b2n h) → c.classPresent q = false →
    exec (.hpostGo q h) s = .next ⟨c.hpostEnd stInvalid, s.pending⟩) ∧
  (∀ (s : State) (q : Fin 64) (c d : Chip), s.chip.power.vin = true →
    c = (s.chip.putF F.WDS_HPOST_CTRL.CLASS q).putF F.WDS_HPOST_CTRL.HASH 0 → c.classPresent q = true →
    itemKind (c.getBytes F.WDS_HPOST_DATA.V.base 64) = 8 → c.flag F.WDS_CL_SCHED.HOSTPOST q = true →
    c.offer q (c.getBytes F.WDS_HPOST_DATA.V.base 64) none = (.accepted, d) →
    exec (.hpostGo q false) s = .next ⟨d.hpostEnd stOk, s.pending⟩) ∧
  (∀ (c : Chip) (q : Nat) (i : Bytes) (a : Option Bytes), c.classPresent q = false → c.offer q i a = (.absent, c.classAbsent)) ∧
  (∀ (c : Chip) (q : Nat) (i : Bytes) (a : Option Bytes), c.classPresent q = true → c.classFull q a.isSome ≠ 0 →
    c.offer q i a = (.refused, c.refuseItem q (c.classFull q a.isSome) i)) ∧
  (∀ (s : State) (q : Fin 64), s.chip.power.vin = true → s.chip.wds.wakes.any (fun e => e.2 == q.val) = true →
    exec (.clusterWake q) s = .next s) ∧
  (∀ (s : State) (q : Fin 64) (k : Nat), s.chip.power.vin = true → s.chip.wds.wakes.any (fun e => e.2 == q.val) = false →
    ((((List.range 16).filter (fun k => bitOf k (s.chip.getF F.WDS_CL_ENTRY.CLUSTERS q))).filter s.chip.eligible).map
      (fun k => 64 - s.chip.busy k)).foldl (· + ·) 0 < (s.chip.waitingOf q).length →
    ((List.range 16).filter (fun k => bitOf k (s.chip.getF F.WDS_CL_ENTRY.CLUSTERS q))).find? (fun k =>
      !bitOf k (s.chip.getF F.WDS_CL_AWAKE.V) && !s.chip.flag F.ACT_CL_CTRL.HOLD k && !s.chip.clusterHeld k &&
        !s.chip.wds.wakes.any (fun e => e.1 == k)) = some k →
    exec (.clusterWake q) s = .next ⟨(s.chip.onWds fun w => { w with wakes := w.wakes ++ [(k, q.val)] }).csRecord 6 q k 0 0 0 0 0,
      s.pending⟩) ∧
  (∀ (s : State) (k : Fin 16), s.chip.power.vin = true → s.chip.wds.wakes.any (fun e => e.1 == k.val) = true →
    exec (.clusterAwake k) s = .next ⟨(s.chip.onWds fun w => { w with wakes := w.wakes.filter (fun e => e.1 != k.val) }).setAwake k
      true, s.pending⟩) ∧
  (∀ (s : State) (k : Fin 16), s.chip.power.vin = true → bitOf k (s.chip.getF F.WDS_CL_AWAKE.V) = true →
    s.chip.flag F.WDS_CTRL.NO_GATE = false → s.chip.busy k = 0 →
    exec (.clusterGate k) s = .next ⟨(s.chip.setAwake k false).csRecord 7 0 k 0 0 0 0 0, s.pending⟩) ∧
  (∀ (s : State) (e : Fin 128), s.chip.power.vin = true → (s.chip.eng e).setupHead = none →
    exec (.setupItemOffer e) s = .next s) ∧
  (∀ (s : State) (e : Fin 128) (x : FSetup) (d : Chip), s.chip.power.vin = true → (s.chip.eng e).setupHead = some x →
    s.chip.offer (tpSetupClass (s.chip.tpl x.op.tmpl)) (s.chip.setupItem x.op x.tag) none = (.accepted, d) →
    exec (.setupItemOffer e) s = .next ⟨d.setupAccepted e x.tag, s.pending⟩) ∧
  (∀ s : State, s.chip.power.vin = true → s.chip.flag F.FLE_SWEEP_CTRL.ENABLE = false → exec .sweepTick s = .next s) ∧
  (∀ s : State, s.chip.power.vin = true → s.chip.flag F.FLE_SWEEP_CTRL.ENABLE = true → s.chip.flowPresent = true →
    exec .sweepTick s = .next ⟨(List.range 128).foldl (fun c e =>
      if (smFind c.wds.sweepHeld e).isSome then c.sweepOffer e
      else if !c.classPresent (s.chip.getF F.FLE_SWEEP_CLASS.CLASS) then c.classAbsent
      else ({ c with wds := { c.wds with sweepHeld := smPut c.wds.sweepHeld e (c.sweepItem e) } }).sweepOffer e) s.chip, s.pending⟩)

/-- From R355, R367, R373 to R380: requests to the flow memory, their completion, the freeze and release of a channel, refresh
and fences. The model's own choices that it rests on, which no rule is cited for: log entries 8, 100 and 101. -/
def Obligations.MemoryRequestsCompleteAndChannelsFreeze : Prop :=
  (∀ (s : State) (r : Fin 8) (p a n : Nat) (w : Bool) (d : Bytes), s.chip.power.vin = true →
    reqDepth r ≤ (s.chip.hbm.queue.filter (fun q => q.req == r.val && q.port == p)).length →
    exec (.dramRequest r p a n w d) s = .next s) ∧
  (∀ (s : State) (r : Fin 8) (p a n : Nat) (w : Bool) (d : Bytes) (q : DramReq), s.chip.power.vin = true →
    (s.chip.hbm.queue.filter (fun q => q.req == r.val && q.port == p)).length < reqDepth r →
    q = { id := s.chip.hbm.nextId, req := r, port := p, addr := a, len := n, write := w, data := sliceB d 0 n,
          since := s.chip.mt, left := granules a n } →
    (∀ ch ∈ chansOf a n, s.chip.chErr ch = false) →
    exec (.dramRequest r p a n w d) s = .next ⟨(s.chip.onHbm fun h => { h with
      nextId := h.nextId + 1
      queue := h.queue ++ [q] }).showQueued r, s.pending⟩) ∧
  (∀ (s : State) (id syn : Nat) (e : Fin 3) (q : DramReq), s.chip.power.vin = true →
    s.chip.hbm.queue.find? (fun q => q.id == id) = some q → q.left ≠ [] →
    exec (.dramCompletion id e syn) s = .next s) ∧
  (∀ (s : State) (id syn : Nat) (e : Fin 3) (q : DramReq), s.chip.power.vin = true →
    s.chip.hbm.queue.find? (fun q => q.id == id) = some q → q.left = [] → q.write = true →
    s.chip.hbm.queue.any (fun y => decide (y.id < id) && reqKey y == reqKey q && sameLine y.addr y.len q.addr q.len) = false →
    ∃ t, exec (.dramCompletion id e syn) s = .next t ∧ t.chip.dram = memWrite s.chip.dram q.addr q.data ∧
      t.chip.hbm.queue = s.chip.hbm.queue.filter (fun y => y.id != q.id) ∧ t.chip.hostMem = s.chip.hostMem) ∧
  (∀ (s : State) (id syn : Nat) (q : DramReq), s.chip.power.vin = true →
    s.chip.hbm.queue.find? (fun q => q.id == id) = some q → q.left = [] → q.write = false →
    s.chip.hbm.queue.any (fun y => decide (y.id < id) && reqKey y == reqKey q && sameLine y.addr y.len q.addr q.len) = false →
    ∃ t, exec (.dramCompletion id 0 syn) s = .next t ∧ t.chip.hbm.lastData = s.chip.readThrough q ∧
      t.chip.dram = s.chip.dram) ∧
  (∀ (s : State) (g : Fin 192), s.chip.power.vin = true → s.chip.chState (g / 2) = 5 →
    exec (.dramCommandSlot g) s = .next s ∧ exec (.refreshDue g) s = .next s) ∧
  (∀ (s : State) (g : Fin 192), s.chip.power.vin = true → s.chip.chState (g / 2) ≠ 5 → s.chip.stkState (g / 2 / 16) ≠ 4 →
    0 < (s.chip.pcSt g).must →
    exec (.dramCommandSlot g) s = .next ⟨(s.chip.setPc g { s.chip.pcSt g with must := (s.chip.pcSt g).must - 1 }).refresh g,
      s.pending⟩) ∧
  (∀ (s : State) (g : Fin 192), s.chip.power.vin = true → s.chip.chState (g / 2) = 0 → (s.chip.pcSt g).batch = 0 →
    s.chip.hbm.queue = [] →
    exec (.refreshDue g) s = .next ⟨(s.chip.setPd g false).refresh g, s.pending⟩) ∧
  (∀ (s : State) (ch : Fin 96) (w : Bool) (a y : Nat), s.chip.power.vin = true →
    exec (.stackParityError ch w a y) s = .next ⟨s.chip.freeze ch (if w then 4 else 3) a 0 y, s.pending⟩) ∧
  (∀ (c : Chip) (ch t a r y : Nat), c.chState ch = 2 → c.freeze ch t a r y = c.putF F.HBM_CH_CAP3.OVERFLOW 1 ch) ∧
  (∀ (c : Chip) (ch t a r y : Nat), ch < 96 → c.chState ch ≠ 2 → (c.freeze ch t a r y).chState ch = 2 ∧
    (c.freeze ch t a r y).dram = c.dram) ∧
  (∀ (s : State) (ch : Fin 96) (ok : Bool), s.chip.power.vin = true → s.chip.recov = [] → s.chip.chState ch ≠ 2 →
    exec (.release ch ok) s = .next s) ∧
  (∀ (s : State) (ch : Fin 96), s.chip.power.vin = true → s.chip.recov = [] → s.chip.chState ch = 2 →
    exec (.release ch false) s = .next ⟨s.chip.putF F.HBM_CH_CAP3.TYPE 5 ch, s.pending⟩ ∧
    exec (.release ch true) s = .next ⟨(((s.chip.onHbm fun h => { h with
      lost := h.lost.filter (fun x => x.1 != ch.val)
      bad := h.bad.filter (fun x => x.1 != ch.val) }).putF F.HBM_CH_STATUS.STATE 0 ch).sink F.HBM_STATUS.FROZEN).tryPending
        (ch / 16), s.pending⟩) ∧
  (∀ (s : State) (m : Fin 256), s.chip.power.vin = true → s.chip.flag F.HBM_FENCE.RUNNING = true →
    exec (.fence m) s = .next s) ∧
  (∀ (s : State) (m : Fin 256), s.chip.power.vin = true → s.chip.flag F.HBM_FENCE.RUNNING = false →
    exec (.fence m) s = .next ⟨((s.chip.putF F.HBM_FENCE.MASK m).putF F.HBM_FENCE.RUNNING 1).onHbm fun h => { h with
      fence := (h.queue.filter (fun q => bitOf q.req m)).map (fun q => q.id) }, s.pending⟩) ∧
  (∀ s : State, s.chip.power.vin = true → s.chip.flag F.HBM_FENCE.RUNNING = true → s.chip.hbm.fence = [] →
    exec .fenceDone s = .next ⟨(s.chip.putF F.HBM_FENCE.RUNNING 0).raiseDone F.HBM_FENCE.DONE, s.pending⟩) ∧
  (∀ s : State, s.chip.power.vin = true → s.chip.hbm.fence ≠ [] → exec .fenceDone s = .next s)

/-- From R360 to R366, R368, R369, R371, R372: scrubbing, temperature, power-down, self-refresh, training and changes of rate.
The model's own choices that it rests on, which no rule is cited for: log entries 8, 52 and 101. -/
def Obligations.MemoryStacksTrainScrubAndSleep : Prop :=
  (∀ (s : State) (e : Fin 3) (y : Nat), s.chip.power.vin = true → s.chip.hbm.scrubQ = [] → s.chip.flag F.HBM_CTRL.SCRUB_EN = false →
    exec (.scrubRead e y) s = .next s) ∧
  (∀ (s : State) (y : Nat), s.chip.power.vin = true → s.chip.hbm.scrubQ = [] → s.chip.flag F.HBM_CTRL.SCRUB_EN = true →
    exec (.scrubRead 0 y) s = .next ⟨s.chip.onHbm fun h => { h with scrubPos := (h.scrubPos + 64) % 0x2400000000 }, s.pending⟩) ∧
  (∀ (s : State) (e : Fin 3) (y a : Nat) (r : List Nat), s.chip.power.vin = true → s.chip.hbm.scrubQ = a :: r → s.chip.hbm.queue = [] →
    exec (.scrubRead e y) s = .next ⟨(s.chip.onHbm fun h => { h with scrubQ := r }).bump F.HBM_CNT_SCRUB_FIX.V, s.pending⟩) ∧
  (∀ (s : State) (k : Fin 6) (v : BitVec 8), s.chip.power.vin = true →
    ∃ t, exec (.tempReading k v) s = .next t ∧ t.chip.getF F.HBM_STK_STATUS.TEMP k = v.toNat ∧
      t.chip.getF F.HBM_STK_STATUS.TEMP_VALID k = 1 ∧
      (((s.chip.getF F.HBM_REF_TEMP.HOT : Nat) : Int) ≤ v.toInt → t.chip.getF F.HBM_STK_STATUS.HOT k = 1) ∧
      (v.toInt < ((s.chip.getF F.HBM_REF_TEMP.HOT : Nat) : Int) → v.toInt < ((s.chip.getF F.HBM_REF_TEMP.COOL : Nat) : Int) →
        t.chip.getF F.HBM_STK_STATUS.HOT k = 0)) ∧
  (∀ (s : State) (g : Fin 192), s.chip.power.vin = true → s.chip.chState (g / 2) = 0 → s.chip.hbm.queue = [] →
    (s.chip.pcSt g).must = 0 → (s.chip.pcSt g).batch = 0 →
    exec (.powerDownEntry g) s = .next ⟨s.chip.setPd g true, s.pending⟩) ∧
  (∀ (s : State) (g : Fin 192), s.chip.power.vin = true →
    (s.chip.inPd g = true → exec (.powerDownExit g) s = .next ⟨s.chip.setPd g false, s.pending⟩) ∧
    (s.chip.inPd g = false → exec (.powerDownExit g) s = .next s)) ∧
  (∀ (s : State) (ch : Fin 96), s.chip.power.vin = true → s.chip.flag F.HBM_CTRL.SR_EN = false →
    exec (.selfRefreshEntry ch) s = .next s) ∧
  (∀ (s : State) (ch : Fin 96), s.chip.power.vin = true → s.chip.flag F.HBM_CTRL.SR_EN = true → s.chip.chState ch = 0 →
    s.chip.hbm.queue = [] →
    ∃ t, exec (.selfRefreshEntry ch) s = .next t ∧ t.chip.chState ch = 5 ∧ t.chip.dram = s.chip.dram) ∧
  (∀ (s : State) (ch : Fin 96), s.chip.power.vin = true → s.chip.chState ch = 5 →
    exec (.selfRefreshExit ch) s = .next ⟨((s.chip.putF F.HBM_CH_STATUS.STATE 0 ch).srLeft ch).condEv 7 ch 7 false, s.pending⟩) ∧
  (∀ (s : State) (k : Fin 6), s.chip.power.vin = true → s.chip.stkState k = 2 → exec (.train k) s = .next s) ∧
  (∀ (s : State) (k : Fin 6), s.chip.power.vin = true → s.chip.stkState k ≠ 2 →
    exec (.train k) s = .next ⟨(stackChans k).foldl (fun c ch => if c.chState ch = 2 ∨ c.chState ch = 3 then c
      else ((c.putF F.HBM_CH_STATUS.STATE 1 ch).setPd (2 * ch) false).setPd (2 * ch + 1) false)
      (s.chip.putF F.HBM_STK_STATUS.STATE 1 k), s.pending⟩) ∧
  (∀ (s : State) (ch : Fin 96) (ms : List Nat), s.chip.power.vin = true → s.chip.chState ch = 1 →
    ((s.chip.trainResult ch ms).1 = true → exec (.trainingDone ch ms) s = .next ⟨((s.chip.trainResult ch ms).2.putF
      F.HBM_CH_STATUS.STATE 0 ch).stackTrained (ch / 16), s.pending⟩) ∧
    ((s.chip.trainResult ch ms).1 = false → exec (.trainingDone ch ms) s = .next ⟨(((s.chip.trainResult ch ms).2.freeze ch
      5 0 0 0).raise F.HBM_EVENTS.TRAIN_FAIL).stackTrained (ch / 16), s.pending⟩)) ∧
  (∀ m : Nat, (longestRun m).2 < 16 → trainLane m = none) ∧
  (∀ m a n : Nat, longestRun m = (a, n) → 16 ≤ n →
    trainLane m = some ((a + n - 1) * 2 ^ 16 + a * 2 ^ 8 + (a + (a + n - 1)) / 2)) ∧
  (∀ (s : State) (g : Fin 192) (ms : List Nat), s.chip.power.vin = true → s.chip.flag F.HBM_CTRL.TRACK_EN = false →
    exec (.trackingRun g ms) s = .next s) ∧
  (∀ (s : State) (g : Fin 192), s.chip.power.vin = true → s.chip.flag F.HBM_CTRL.TRACK_EN = true → s.chip.chState (g / 2) = 0 →
    ∃ t, exec (.trackingRun g []) s = .next t ∧
      ∀ l, l < 4 → t.chip.getF F.HBM_CH_TRN_RD.DLY (g / 2) (4 * (g % 2) + l) = s.chip.getF F.HBM_CH_TRN_RD.DLY (g / 2) (4 * (g % 2) + l)) ∧
  (∀ (s : State) (k : Fin 6) (r : Fin 4), s.chip.power.vin = true →
    (s.chip.tripped = true → exec (.rateChange k r) s = .next ⟨s.chip.putF F.HBM_STK_CTRL.RATE r k, s.pending⟩) ∧
    ((s.chip.putF F.HBM_STK_CTRL.RATE r k).tripped = false →
      exec (.rateChange k r) s = .next ⟨(s.chip.putF F.HBM_STK_CTRL.RATE r k).rateWant k r, s.pending⟩)) ∧
  (∀ (s : State) (k : Fin 6), s.chip.power.vin = true → smFind s.chip.hbm.changing k = none → exec (.freqDone k) s = .next s) ∧
  (∀ (s : State) (k : Fin 6) (r : Nat), s.chip.power.vin = true → smFind s.chip.hbm.changing k = some r →
    exec (.freqDone k) s = .next ⟨(((stackChans k).foldl (fun c ch =>
      (((((c.setOwed (2 * ch) 0).setOwed (2 * ch + 1) 0).srLeft ch).putF F.HBM_CH_STATUS.STATE 0 ch).condEv 7 ch 7 false))
      (((s.chip.onHbm fun h => { h with changing := smErase h.changing k }).putF F.HBM_STK_STATUS.RATE_CUR r k).putF
        F.HBM_STK_STATUS.STATE 0 k)).raise F.HBM_EVENTS.FREQ_DONE).tryPending k, s.pending⟩)

/-- From R391 to R413: a packet's copies meet admission, wait in the residue and recirculate; PFC frames leave; bindings end.
The model's own choices that it rests on, which no rule is cited for: log entries 8, 93, 97 and 98. -/
def Obligations.AdmissionResidueAndRecirculation : Prop :=
  (∀ (s : State) (pid : Nat) (p : Pkt), s.chip.power.vin = true → s.chip.pkt pid = some p →
    (p.stage ≠ .ready ∨ s.chip.admBlocked pid p = true) → exec (.admitCopy pid) s = .next s) ∧
  (∀ (s : State) (pid : Nat) (p : Pkt), s.chip.power.vin = true → s.chip.pkt pid = some p → p.stage = .ready →
    s.chip.admBlocked pid p = false → exec (.admitCopy pid) s = .next ⟨s.chip.admission pid, s.pending⟩) ∧
  (∀ (c : Chip) (p : Pkt) (port q n m : Nat) (b : Bool), c.mayForward (c.srcZone p) (c.portZone port) = false →
    c.admTest p 0 port q n m b = .drop 3 ∧ c.admTest p 1 port q n m b = .drop 3) ∧
  (∀ (c : Chip) (p : Pkt) (port q n m : Nat), c.mayForward (c.srcZone p) (c.portZone port) = true → port < 512 →
    c.flag F.PRT_CFG.ENABLE port = true → c.portPresent port = true →
    (c.portUp port = false → c.admTest p 0 port q n m false = .drop 5 ∧ c.admTest p 1 port q n m true = .wait) ∧
    (c.portUp port = true → c.dtPass q n m = true → c.admTest p 0 port q n m false = .go false) ∧
    (c.portUp port = true → c.dtPass q n m = false → c.lossless p = false →
      c.admTest p 0 port q n m false = .drop 1 ∧ c.admTest p 1 port q n m true = .wait ∧ c.admTest p 2 port q n m false = .drop 9)) ∧
  (∀ (s : State) (p : Fin 512), s.chip.power.vin = true → s.chip.oldestResidue p = none → exec (.residueRetry p) s = .next s) ∧
  (∀ (s : State) (p : Fin 512) (pid : Nat) (k : Copy) (c : Chip), s.chip.power.vin = true →
    s.chip.oldestResidue p = some (pid, k) → s.chip.residueTry pid k.cid k = some c →
    exec (.residueRetry p) s = .next ⟨c.condEv 8 p 3 (c.oldestResidue p).isSome, s.pending⟩) ∧
  (∀ (s : State) (pid cid : Nat), s.chip.power.vin = true → s.chip.residueCopy pid cid = none →
    exec (.residueTimeout pid cid) s = .next s) ∧
  (∀ (s : State) (pid cid : Nat) (k : Copy) (c : Chip), s.chip.power.vin = true → s.chip.residueCopy pid cid = some k →
    s.chip.residueTry pid cid k = some c → exec (.residueTimeout pid cid) s = .next ⟨c, s.pending⟩) ∧
  (∀ (s : State) (pid : Nat) (p : Pkt), s.chip.power.vin = true → s.chip.pkt pid = some p → p.stage = .recircWait → p.tail = 1 →
    1024 ≤ (smGet (fun _ => []) s.chip.tm.recirc p.slice).length →
    exec (.recircEnqueue pid) s = .next ⟨s.chip.dropTm pid 0xA, s.pending⟩) ∧
  (∀ (s : State) (pid : Nat) (p : Pkt) (fr : Bytes), s.chip.power.vin = true → s.chip.pkt pid = some p → p.stage = .recircWait →
    p.tail = 1 → (smGet (fun _ => []) s.chip.tm.recirc p.slice).length < 1024 →
    fr = s.chip.editFrame p (s.chip.encapBody p) p.frame →
    ∃ t, exec (.recircEnqueue pid) s = .next t ∧
      t.chip.pkt pid = some { p with frame := fr, got := fr.length, stage := .recircQ } ∧
      smGet (fun _ => []) t.chip.tm.recirc p.slice = smGet (fun _ => []) s.chip.tm.recirc p.slice ++ [pid] ∧
      t.chip.regs = s.chip.regs) ∧
  (∀ (s : State) (k : Fin 16), s.chip.power.vin = true → smGet (fun _ => []) s.chip.tm.recirc k.val = [] →
    exec (.recircHandoff k) s = .next s) ∧
  (∀ (s : State) (k : Fin 16) (pid pipe : Nat) (r : List Nat), s.chip.power.vin = true →
    smGet (fun _ => []) s.chip.tm.recirc k.val = pid :: r → s.chip.pickPipe k = some pipe →
    exec (.recircHandoff k) s = .next ⟨(({ s.chip with tm := { s.chip.tm with
      recirc := smSet (fun _ => []) s.chip.tm.recirc k r, nextPassSeq := s.chip.tm.nextPassSeq + 1 } }).updPkt pid
        fun (p : Pkt) => { p.nextPass with passSeq := s.chip.tm.nextPassSeq }).openCtx pid pipe, s.pending⟩) ∧
  (∀ (s : State) (p : Fin 512), s.chip.power.vin = true →
    ((s.chip.portSt p).txBusy ≠ none → exec (.pfcFrameSend p) s = .next s) ∧
    ((s.chip.portSt p).txBusy = none → smGet (fun _ => 0) s.chip.tm.pfcDue p.val = 0 → exec (.pfcFrameSend p) s = .next s) ∧
    (∀ d, (s.chip.portSt p).txBusy = none → smGet (fun _ => 0) s.chip.tm.pfcDue p.val = d → d ≠ 0 →
      exec (.pfcFrameSend p) s = .next ⟨({ s.chip with tm := { s.chip.tm with
        pfcDue := smErase s.chip.tm.pfcDue p } }).sendMacControl p (d % 256), s.pending⟩) ∧
    (s.chip.getF F.TMG_PORT_PFC.STATE p = 0 → exec (.pfcRefresh p) s = .next s) ∧
    (s.chip.getF F.TMG_PORT_PFC.STATE p ≠ 0 → exec (.pfcRefresh p) s = .next ⟨s.chip.sendMacControl p 0, s.pending⟩)) ∧
  (∀ (c : Chip) (p b : Nat), (c.pfcFrame p b).length = 60 ∧ sliceB (c.pfcFrame p b) 0 6 = natBe 6 0x0180C2000001) ∧
  (∀ (s : State) (d : Fin 4) (h : Fin 262144), s.chip.power.vin = true → s.chip.bindingOf d h = none →
    exec (.unbindNotice d h) s = .next s) ∧
  (∀ (s : State) (d : Fin 4) (h : Fin 262144) (q : Nat) (b : Binding), s.chip.power.vin = true →
    s.chip.bindingOf d h = some (q, b) → b.state ≠ 1 → exec (.unbindNotice d h) s = .next s) ∧
  (∀ (s : State) (d : Fin 4) (h : Fin 262144) (q : Nat) (b : Binding), s.chip.power.vin = true →
    s.chip.bindingOf d h = some (q, b) → b.state = 1 → smFind s.chip.tm.marks (s.chip.classQueue b.port b.cls) = none →
    exec (.unbindNotice d h) s = .next ⟨({ s.chip with tm := { s.chip.tm with
      bindings := smPut s.chip.tm.bindings q { b with state := 2 },
      marks := smPut s.chip.tm.marks (s.chip.classQueue b.port b.cls)
        ⟨(s.chip.queue (s.chip.classQueue b.port b.cls)).length, [q]⟩ } }).settleBindings, s.pending⟩)

/-- From R424 to R431, R436 to R444, R468: the scheduler's decision, the end of a transmission, shapers, gate lists and
observation. The model's own choices that it rests on, which no rule is cited for: log entries 8, 9, 96, 98 and 102. -/
def Obligations.SchedulerShapersGatesAndObservation : Prop :=
  (∀ (s : State) (p : Fin 512), s.chip.power.vin = true → s.chip.mayBegin p = false → exec (.schedDecision p) s = .next s) ∧
  (∀ (s : State) (p : Fin 512), s.chip.power.vin = true → s.chip.mayBegin p = true →
    exec (.schedDecision p) s = .next ⟨s.chip.portDecide p, s.pending⟩) ∧
  (∀ (len : Nat → Option Nat) (qu : Nat → Nat) (n m x : Nat) (l : List Nat) (df : SMap Nat), len m = some x →
    x ≤ smGet (fun _ => 0) df m → drrPick len qu (n + 1) (m :: l) df = some (m, m :: l, df)) ∧
  (∀ (s : State) (p : Fin 512), s.chip.power.vin = true → (s.chip.portSt p).txBusy = none →
    exec (.frameTransmitted p) s = .next s) ∧
  (∀ (s : State) (p : Fin 512) (pid cid : Nat) (x : Pkt) (k : Copy), s.chip.power.vin = true →
    (s.chip.portSt p).txBusy = some (pid, cid) → s.chip.pkt pid = some x → x.copies.find? (fun k => k.cid == cid) = some k →
    (x.tail = 1 → exec (.frameTransmitted p) s = .next ⟨s.chip.sentCopy pid x k, s.pending⟩) ∧
    (x.tail ≠ 1 → exec (.frameTransmitted p) s = .next ⟨(s.chip.bump F.TMG_CNT_UNDERRUN.V).stompCopy pid x k 0, s.pending⟩)) ∧
  (∀ (s : State) (n : Nat), s.chip.power.vin = true →
    exec (.shaperUpdate 0 n) s = .next ⟨(s.chip.updQ n).condEv 9 n 2 (!(s.chip.updQ n).qConforms n), s.pending⟩ ∧
    exec (.shaperUpdate 1 n) s = .next ⟨s.chip.updCls (n / 16) (n % 16), s.pending⟩ ∧
    exec (.shaperUpdate 2 n) s = .next ⟨s.chip.updPort n, s.pending⟩) ∧
  (∀ (s : State) (n : Nat) (v : Word), s.chip.power.vin = true → s.chip.getF F.SCH_Q_INFO.KIND n = 0 →
    exec (.shaperConfigWrite 0 n 0 v) s = .next s ∧ exec (.shaperConfigWrite 0 n 1 v) s = .next s) ∧
  (∀ (s : State) (n : Nat) (v : Word), s.chip.power.vin = true → s.chip.getF F.SCH_Q_INFO.KIND n ≠ 0 →
    exec (.shaperConfigWrite 0 n 0 v) s = .next ⟨(s.chip.putF F.SCH_Q_SHP_RATE.V v.toNat n).shaperReset 0 n, s.pending⟩) ∧
  (∀ (s : State) (n : Nat) (v : Word), s.chip.power.vin = true →
    exec (.shaperConfigWrite 1 n 1 v) s = .next ⟨(s.chip.putF F.SCH_CL_SHP_BURST.V v.toNat (n / 16) (n % 16)).shaperReset 1 n,
      s.pending⟩ ∧
    exec (.shaperConfigWrite 2 n 0 v) s = .next ⟨(s.chip.putF F.SCH_PORT_SHP_RATE.V v.toNat n).shaperReset 2 n, s.pending⟩) ∧
  (∀ (s : State) (p : Fin 512), s.chip.power.vin = true →
    exec (.gateChange p) s = .next ⟨(s.chip.putF F.SCH_GATE_STATUS.GATES (s.chip.gateNow p).1 p).putF F.SCH_GATE_STATUS.ENTRY
      (s.chip.gateNow p).2 p, s.pending⟩) ∧
  (∀ (s : State) (p : Fin 512) (b : Bool), s.chip.power.vin = true → s.chip.timeValid = false →
    exec (.gateStart p b) s = .next ⟨s.chip.gateDone p stInvalid, s.pending⟩) ∧
  (∀ (s : State) (p : Fin 512) (st : Nat × Nat), s.chip.power.vin = true → s.chip.timeValid = true →
    s.chip.getF F.SCH_GATE_ADMIN_LEN.V p = 0 → s.chip.getF F.SCH_GATE_ADMIN_CYCLE.V p ≠ 0 → (s.chip.gateSt p).pend = none →
    st = s.chip.gateStart (s.chip.getQ F.SCH_GATE_ADMIN_BASE.V p) (s.chip.getF F.SCH_GATE_ADMIN_CYCLE.V p) false → st.2 = stOk →
    exec (.gateStart p false) s = .next ⟨((s.chip.setGate p { s.chip.gateSt p with
      pend := some ⟨[], st.1, s.chip.getF F.SCH_GATE_ADMIN_CYCLE.V p, false⟩ }).gateRegs p).gateDone p stOk, s.pending⟩) ∧
  (∀ (s : State) (p : Fin 512), s.chip.power.vin = true →
    ((s.chip.gateSt p).pend = none → exec (.gateCancel p) s = .next ⟨s.chip.gateDone p stInvalid, s.pending⟩) ∧
    ((s.chip.gateSt p).pend ≠ none → exec (.gateCancel p) s = .next ⟨(s.chip.gateCancel p).gateDone p stOk, s.pending⟩) ∧
    exec (.gateStop p) s = .next ⟨((s.chip.gateCancel p).gateOff p).gateDone p stOk, s.pending⟩) ∧
  (∀ (c : Chip) (p : Nat), (c.gateCancel p).gateSt p = { c.gateSt p with pend := none } ∧
    (c.gateOff p).gateSt p = { c.gateSt p with oper := none }) ∧
  (∀ (s : State) (p : Fin 512), s.chip.power.vin = true → (s.chip.gateSt p).pend = none →
    exec (.pendingListStart p) s = .next s) ∧
  (∀ (s : State) (p : Fin 512) (l : GateList), s.chip.power.vin = true → (s.chip.gateSt p).pend = some l → s.chip.due l.base = true →
    exec (.pendingListStart p) s = .next ⟨(((((({ s.chip with time := { s.chip.time with
      late := s.chip.time.late.filter (· != PendAct.gate p) } } : Chip).setGate p ⟨some l, none⟩).gateRegs p).raise
        F.SCH_EVENTS.GATE_START).signal 11 0 1).portOversize p), s.pending⟩) ∧
  (∀ (s : State) (p : Fin 512) (l : GateList), s.chip.power.vin = true → (s.chip.gateSt p).oper = some l → l.oneshot = true →
    s.chip.due ((l.base + l.cycle * 2 ^ 16) % 2 ^ 64) = true →
    exec (.gateListEnd p) s = .next ⟨(s.chip.gateOff p).raise F.SCH_EVENTS.GATE_END, s.pending⟩) ∧
  (∀ s : State, s.chip.power.vin = true → s.chip.watchMode = true → exec .obsTick s = .next s) ∧
  (∀ s : State, s.chip.power.vin = true → s.chip.watchMode = false → s.chip.tm.qCells = [] →
    exec .obsTick s = .next ⟨{ s.chip.clearQueueRegs [0x20] with sched := { s.chip.sched with obsSeen := [] } }, s.pending⟩) ∧
  (∀ (s : State) (b : Bool) (c : Chip), s.chip.power.vin = true → c = s.chip.putF F.SCH_OBS_CTRL.MODE (b2n b) →
    (c.watchMode = s.chip.watchMode → exec (.obsModeWrite b) s = .next ⟨c, s.pending⟩) ∧
    (c.watchMode ≠ s.chip.watchMode → exec (.obsModeWrite b) s = .next ⟨c.obsChanged, s.pending⟩))

/-- From R470 to R473, R479 to R481: event counters, port statistics and test strips. The model's own choices that it rests on,
which no rule is cited for: log entries 8 and 76. -/
def Obligations.CountersStatisticsAndTestStrips : Prop :=
  (∀ (s : State) (b : Bool), s.chip.power.vin = true →
    ∃ t, exec (.evFreeze b) s = .next t ∧ t.chip = s.chip.putF F.TEL_EV_CTRL.FREEZE (b2n b) ∧
      t.chip.getF F.TEL_EV_CTRL.FREEZE = b2n b ∧ t.pending = s.pending) ∧
  (∀ (s : State) (n : Fin 4096), s.chip.power.vin = true →
    ∃ t, exec (.evClear n) s = .next t ∧ t.chip.getQ F.TEL_EV_CNT.V n = 0 ∧
      (∀ m : Nat, m < 4096 → m ≠ n.val → t.chip.getQ F.TEL_EV_CNT.V m = s.chip.getQ F.TEL_EV_CNT.V m) ∧
      t.chip.dram = s.chip.dram ∧ t.chip.hostMem = s.chip.hostMem ∧ t.pending = s.pending) ∧
  (∀ (s : State) (p : Fin 512), s.chip.power.vin = true →
    ∃ t, exec (.portStatsClear p) s = .next t ∧ (∀ i : Nat, i < 127 → t.chip.getQ F.TEL_PORT_CNT.V p i = 0) ∧
      (∀ q i : Nat, q < 512 → i < 127 → q ≠ p.val → t.chip.getQ F.TEL_PORT_CNT.V q i = s.chip.getQ F.TEL_PORT_CNT.V q i) ∧
      t.chip.dram = s.chip.dram ∧ t.pending = s.pending) ∧
  (∀ (s : State) (p : Fin 512), s.chip.power.vin = true →
    ∃ t, exec (.tsForce p) s = .next t ∧ t.chip.getF F.TEL_TS_FORCE.PORT = p ∧ t.chip.getF F.TEL_TS_FORCE.GO = 1 ∧
      t.chip.pkts = s.chip.pkts) ∧
  (∀ (s : State) (v : Word), s.chip.power.vin = true →
    ∃ t, exec (.tsSeedWrite v) s = .next t ∧ t.chip.getF F.TEL_TS_SEED.V = v.toNat ∧
      ∀ pipe, t.chip.tsGenOf pipe = Nat.xor v.toNat pipe) ∧
  (∀ (s : State) (pid : Nat), s.chip.power.vin = true → s.chip.pkt pid = none → exec (.stripTimeout pid) s = .next s) ∧
  (∀ (s : State) (pid : Nat) (p : Pkt) (x : Strip), s.chip.power.vin = true → s.chip.pkt pid = some p →
    p.strip = some x →
    (x.timedOut = true → exec (.stripTimeout pid) s = .next s) ∧
    (x.timedOut = false → exec (.stripTimeout pid) s = .next ⟨(s.chip.stripOut p x 5 0).updPkt pid fun p => { p with
      strip := some { x with timedOut := true } }, s.pending⟩)) ∧
  (∀ (c : Chip) (pid pipe : Nat) (p : Pkt), c.pkt pid = some p → c.flag F.TEL_TS_CTRL.ENABLE = false →
    (c.stripSelect pid pipe).tsGenOf pipe = lfsrNext (c.tsGenOf pipe) ∧ (c.stripSelect pid pipe).pkts = c.pkts ∧
    (c.stripSelect pid pipe).regs = c.regs)

/-- From R483 to R490: flow records are offered at deletion and by the scan, leave the export queue in order under the rate
limit, and go out as IPFIX messages or EXPORT items. The model's own choices that it rests on, which no rule is cited for: log
entries 8, 77 and 106. -/
def Obligations.FlowRecordsAreExportedInOrder : Prop :=
  (∀ (c : Chip) (reason : Nat) (r : Bytes), c.flag F.TEL_EXP_CTRL.ENABLE = false → c.exportOne reason r = c) ∧
  (∀ (c : Chip) (reason : Nat) (r : Bytes), c.flag F.TEL_EXP_CTRL.ENABLE = true → c.tel.expQ.length < 65536 →
    (c.exportOne reason r).tel.expQ = c.tel.expQ ++ [⟨r, reason⟩]) ∧
  (∀ (c : Chip) (reason : Nat) (r : Bytes), c.flag F.TEL_EXP_CTRL.ENABLE = true → 65536 ≤ c.tel.expQ.length →
    (c.exportOne reason r).tel.expQ = c.tel.expQ ∧
    c.exportOne reason r = ((c.bump F.TEL_EXP_CNT_LOST.V).raise F.TEL_EVENTS.EXP_LOST).signal 13 0 3) ∧
  (∀ (s : State) (e : Fin 128) (x : Fin 3), s.chip.power.vin = true → s.chip.flag F.TEL_EXP_CTRL.ENABLE = false →
    exec (.exportScanVisit e x) s = .next ⟨s.chip.flush, s.pending⟩) ∧
  (∀ (s : State) (e : Fin 128) (x : Fin 3) (c : Chip) (b st : Nat), s.chip.power.vin = true →
    s.chip.flag F.TEL_EXP_CTRL.ENABLE = true → s.chip.getF F.TEL_EXP_ACTIVE.V ≠ 0 → s.chip.flowPresent = true →
    s.chip.engineHeld e = false → b = smGet (fun _ => 0) s.chip.tel.scanPos e.val → b < s.chip.nbuckets →
    s.chip.tel.expQ.length + 8 ≤ 65536 → s.chip.bankGated e = false → st = s.chip.tel.scanAt.getD s.chip.mt →
    c = (s.chip.scanSlots e b).foldl (fun c j => c.scanSlot e b x j) ((s.chip.onTel fun t => { t with
      scanAt := some st }).scanLateCheck st) →
    exec (.exportScanVisit e x) s = .next ⟨((c.onTel fun t => { t with
      scanPos := smSet (fun _ => 0) t.scanPos e (b + 1) }).scanEnd).flush, s.pending⟩) ∧
  (∀ s : State, s.chip.power.vin = true → s.chip.tel.expQ = [] → exec .exportRecordOut s = .next s) ∧
  (∀ (s : State) (x : ExpRec) (r : List ExpRec), s.chip.power.vin = true → s.chip.tel.expQ = x :: r →
    s.chip.getF F.TEL_EXP_RATE.V = 0 → s.chip.flag F.TEL_EXP_CTRL.MODE = false →
    exec .exportRecordOut s = .next ⟨((s.chip.setExpQ r).putExport x).bump F.TEL_EXP_CNT_RECORDS.V, s.pending⟩) ∧
  (∀ (s : State) (x : ExpRec) (r : List ExpRec) (c : Chip), s.chip.power.vin = true → s.chip.tel.expQ = x :: r →
    s.chip.getF F.TEL_EXP_RATE.V = 0 → s.chip.flag F.TEL_EXP_CTRL.MODE = true →
    s.chip.offer (s.chip.getF F.TEL_EXP_CTRL.CLASS) (exportItem x) none = (.accepted, c) →
    exec .exportRecordOut s = .next ⟨(c.setExpQ r).bump F.TEL_EXP_CNT_RECORDS.V, s.pending⟩) ∧
  (∀ (s : State) (x : ExpRec) (r : List ExpRec), s.chip.power.vin = true → s.chip.tel.expQ = x :: r →
    s.chip.expTake.1 = false → ∃ t, exec .exportRecordOut s = .next t ∧ t.chip.tel.expQ = x :: r ∧ t.chip.regs = s.chip.regs) ∧
  (∀ s : State, s.chip.power.vin = true → s.chip.tel.expMsg = [] → exec .ipfixFlush s = .next s) ∧
  (∀ (s : State) (l : List ExpRec), s.chip.power.vin = true → s.chip.tel.expMsg = l → l ≠ [] →
    exec .ipfixFlush s = .next ⟨(s.chip.onTel fun t => { t with
      expMsg := []
      expTmpl := false }).sendMsg s.chip.tel.expTmpl l, s.pending⟩) ∧
  (∀ (c : Chip) (b : Bool) (l : List ExpRec), (c.sendMsg b l).tel.expSeq = (c.tel.expSeq + l.length) % 2 ^ 32) ∧
  (∀ (c : Chip) (b : Bool) (l : List ExpRec), sliceB (c.ipfixMsg b l) 0 2 = natBe 2 10 ∧
    sliceB (c.ipfixMsg b l) 2 2 = natBe 2 (c.ipfixMsg b l).length ∧ sliceB (c.ipfixMsg b l) 8 4 = natBe 4 c.tel.expSeq ∧
    sliceB (c.ipfixMsg b l) 12 4 = natBe 4 (c.getF F.TEL_EXP_DOMAIN.V)) ∧
  (∀ s : State, s.chip.power.vin = true → s.chip.flag F.TEL_EXP_CTRL.TRANSPORT = false →
    exec .templateRefresh s = .next s) ∧
  (∀ s : State, s.chip.power.vin = true → s.chip.flag F.TEL_EXP_CTRL.TRANSPORT = true →
    exec .templateRefresh s = .next ⟨(s.chip.onTel fun t => { t with tmplDue := false }).sendMsg true [], s.pending⟩)

/-- From R495, R496, R357: the host's window on DRAM. A read returns the bytes of the addressed lines; a write stores each
enabled byte but those of a refused area, which raise their error and are discarded. The model's own choices that it rests on,
which no rule is cited for: log entry 42. -/
def Obligations.DramWindowReadsAndWrites : Prop :=
  (∀ (s : State) (o : Fin 4294967296) (n : Nat), s.chip.power.vin = true → s.chip.winAddr o + n ≤ trainBase →
    ∃ t, exec (.bar2Read o n) s = .next t ∧ t.chip.host.rdBytes = memRead s.chip.dram (s.chip.winAddr o) n ∧
      t.chip.regs = s.chip.regs ∧ t.chip.dram = s.chip.dram ∧ t.chip.hostMem = s.chip.hostMem ∧ t.pending = s.pending) ∧
  (∀ (s : State) (o : Fin 4294967296) (n : Nat), s.chip.power.vin = true →
    ∃ t, exec (.bar2Read o n) s = .next t ∧ t.chip.host.rdBytes.length = n ∧
      (∀ k, k < n → s.chip.winAddr o + k < trainBase →
        byteAt t.chip.host.rdBytes k = (memByte s.chip.dram (s.chip.winAddr o + k)).toNat) ∧ t.chip.dram = s.chip.dram) ∧
  (∀ (s : State) (o : Fin 4294967296) (d : Bytes) (en : List Bool) (a : Nat), s.chip.power.vin = true → a = s.chip.winAddr o →
    ∃ t, exec (.bar2Write o d en) s = .next t ∧ t.pending = s.pending ∧
      (∀ x : Nat, x < a ∨ a + d.length ≤ x → memByte t.chip.dram x = memByte s.chip.dram x) ∧
      (∀ k : Nat, k < d.length → memByte t.chip.dram (a + k) =
        if en.getD k true && !inReserved (a + k) && !s.chip.inFlowTable (a + k) then d.getD k 0
        else memByte s.chip.dram (a + k))) ∧
  (∀ (c : Chip) (o a : Nat) (b : Byte), a = c.winAddr o → inReserved a = true →
    c.bar2Byte o b = c.hostErr F.HST_ERR_CAUSE.WIN_RESERVED 1 o) ∧
  (∀ (c : Chip) (o a : Nat) (b : Byte), a = c.winAddr o → inReserved a = false → c.inFlowTable a = true →
    c.bar2Byte o b = c.hostErr F.HST_ERR_CAUSE.WIN_FLOW_AREA 1 o) ∧
  (∀ (c : Chip) (f : Fld) (space a : Nat), f.addr 0 0 = F.HST_ERR_CAUSE.all.base → c.getF F.HST_ERR_CAUSE.all ≠ 0 →
    (c.hostErr f space a).getQ F.HST_ERR_ADDR.V = c.getQ F.HST_ERR_ADDR.V)

/-- From R497 to R501: a command of a table-access window, its refusals in order, what a READ and a WRITE do, the op of a FLOW
command, and its withdrawal. The model's own choices that it rests on, which no rule is cited for: log entries 71, 72 and 73. -/
def Obligations.WindowCommandsReadWriteAndRefuse : Prop :=
  (∀ (s : State) (w : Fin 4) (tb : Fin 256), s.chip.power.vin = true → s.chip.flag F.HST_TW_STATUS.RUNNING w = true →
    exec (.twRead w tb) s = .next ⟨(s.chip.putF F.HST_TW_STATUS.OVERRUN 1 w).flush, s.pending⟩ ∧
    exec (.twWrite w tb) s = .next ⟨(s.chip.putF F.HST_TW_STATUS.OVERRUN 1 w).flush, s.pending⟩ ∧
    exec (.twDelete w tb) s = .next ⟨(s.chip.putF F.HST_TW_STATUS.OVERRUN 1 w).flush, s.pending⟩ ∧
    exec (.twInsert w tb) s = .next ⟨(s.chip.putF F.HST_TW_STATUS.OVERRUN 1 w).flush, s.pending⟩) ∧
  (∀ (s : State) (w : Fin 4) (tb : Fin 256) (t : State), s.chip.power.vin = true →
    s.chip.flag F.HST_TW_STATUS.RUNNING w = false → winTab tb = none →
    t = ⟨(s.chip.twDone w stInvalid 0x10).flush, s.pending⟩ →
    exec (.twRead w tb) s = .next t ∧ exec (.twWrite w tb) s = .next t ∧ exec (.twDelete w tb) s = .next t ∧
    exec (.twInsert w tb) s = .next t) ∧
  (∀ (s : State) (w : Fin 4) (tb : Fin 256) (x : WinTab), s.chip.power.vin = true →
    s.chip.flag F.HST_TW_STATUS.RUNNING w = false → winTab tb = some x → tb ≠ 1 →
    exec (.twDelete w tb) s = .next ⟨(s.chip.twDone w stInvalid 0x12).flush, s.pending⟩ ∧
    exec (.twInsert w tb) s = .next ⟨(s.chip.twDone w stInvalid 0x12).flush, s.pending⟩ ∧
    (2 ∉ x.ops → exec (.twWrite w tb) s = .next ⟨(s.chip.twDone w stInvalid 0x12).flush, s.pending⟩) ∧
    (x.n ≤ s.chip.getF F.HST_TW_INDEX.V w →
      exec (.twRead w tb) s = .next ⟨(s.chip.twDone w stInvalid 0x11).flush, s.pending⟩)) ∧
  (∀ (s : State) (w : Fin 4) (tb : Fin 256) (x : WinTab) (i : Nat), s.chip.power.vin = true →
    s.chip.flag F.HST_TW_STATUS.RUNNING w = false → winTab tb = some x → tb ≠ 1 → i = s.chip.getF F.HST_TW_INDEX.V w →
    i < x.n →
    exec (.twRead w tb) s = .next ⟨(((s.chip.twEntry tb i).2.putWords (F.HST_TW_DATA.V.addr w 0)
      (sliceB (s.chip.twEntry tb i).1 0 x.bytes)).twDone w stOk 0).flush, s.pending⟩) ∧
  (∀ (s : State) (w : Fin 4) (tb : Fin 256) (x : WinTab) (i : Nat) (d : Bytes), s.chip.power.vin = true →
    s.chip.flag F.HST_TW_STATUS.RUNNING w = false → winTab tb = some x → tb ≠ 0x12 → 2 ∈ x.ops →
    i = s.chip.getF F.HST_TW_INDEX.V w → d = s.chip.getBytes (F.HST_TW_DATA.V.addr w 0) x.bytes → i < x.n →
    (s.chip.twRefusal tb i d = none →
      exec (.twWrite w tb) s = .next ⟨((s.chip.twStore tb i d).twDone w stOk 0).flush, s.pending⟩) ∧
    (∀ st r, s.chip.twRefusal tb i d = some (st, r) → st ≠ stDenied →
      exec (.twWrite w tb) s = .next ⟨(s.chip.twDone w st r).flush, s.pending⟩) ∧
    (∀ r, s.chip.twRefusal tb i d = some (stDenied, r) →
      exec (.twWrite w tb) s = .next ⟨((s.chip.deniedCapture 1 (twCmdAddr w) 0).twDone w stDenied r).flush, s.pending⟩)) ∧
  (∀ (s : State) (w : Fin 4), s.chip.power.vin = true → s.chip.flag F.HST_TW_STATUS.RUNNING w = false →
    s.chip.flowPresent = true →
    exec (.twRead w 1) s = .next ⟨(s.chip.twFlow w 1).flush, s.pending⟩ ∧
    exec (.twDelete w 1) s = .next ⟨(s.chip.twFlow w 3).flush, s.pending⟩ ∧
    exec (.twInsert w 1) s = .next ⟨(s.chip.twFlow w 4).flush, s.pending⟩) ∧
  (∀ (c : Chip) (w op : Nat) (d : Bytes), d = c.getBytes (F.HST_TW_DATA.V.addr w 0) 128 →
    c.ownerOf (c.h1Of (sliceB d 0 40)) = some c.ownDevice →
    (c.twFlow w op).act.reqs = c.act.reqs ++ [coreOp (if op = 1 then 5 else if op = 3 then 6 else 7) w 0 (sliceB d 0 40)
      (c.h1Of (sliceB d 0 40)) (c.h2Of (sliceB d 0 40)) 0 (c.pol 0x214 2) d c.mt] ∧
    smFind (c.twFlow w op).host.win w = some ⟨op, 1, 0, d⟩ ∧
    (c.twFlow w op).regs = (c.putF F.HST_TW_STATUS.RUNNING 1 w).regs) ∧
  (∀ (s : State) (w : Fin 4), s.chip.power.vin = true → s.chip.flag F.HST_TW_STATUS.RUNNING w = false →
    exec (.twTimeout w) s = .next ⟨s.chip.flush, s.pending⟩) ∧
  (∀ (s : State) (w : Fin 4) (c : Chip), s.chip.power.vin = true → s.chip.flag F.HST_TW_STATUS.RUNNING w = true →
    c = { s.chip with
      act := { s.chip.act with reqs := s.chip.act.reqs.filter (fun o => !winOp w o) }
      host := { s.chip.host with win := smErase s.chip.host.win w }
      flow := { s.chip.flow with
        eng := s.chip.flow.eng.map (fun (e : Nat × EngSt) => (e.1, { e.2 with
          input := e.2.input.filter (fun o => !winOp w o)
          station := e.2.station.filter (fun o => !winOp w o) })) } } →
    exec (.twTimeout w) s = .next ⟨(c.twDone w stTimeout 0).flush, s.pending⟩)

/-- From R502 to R504, R507, R508, R511: doorbells, enabling and stopping a ring, a ring's interrupt and DMA error, an open
record buffer, injected packets and the unmasking of a vector. The model's own choices that it rests on, which no rule is cited
for: log entries 6, 8, 41, 42 and 68. -/
def Obligations.RingsInjectAndInterrupt : Prop :=
  (∀ (s : State) (n : Fin 1024) (v : Fin 65536), s.chip.power.vin = true →
    (2 ^ s.chip.getF F.HST_RING_CFG.SIZE_LOG2 n < (v.val + 2 ^ 16 - s.chip.getF F.HST_RING_HEAD.V n) % 2 ^ 16 →
      exec (.ringDoorbell n v) s = .next ⟨s.chip.hostErr F.HST_ERR_CAUSE.RING_OVERPOST 0 (F.HST_RING_TAIL.V.addr n),
        s.pending⟩) ∧
    ((v.val + 2 ^ 16 - s.chip.getF F.HST_RING_HEAD.V n) % 2 ^ 16 ≤ 2 ^ s.chip.getF F.HST_RING_CFG.SIZE_LOG2 n →
      ∃ t, exec (.ringDoorbell n v) s = .next t ∧ t.chip.getF F.HST_RING_TAIL.V n = v.val ∧
        t.chip.posted n = (v.val + 2 ^ 16 - s.chip.getF F.HST_RING_HEAD.V n) % 2 ^ 16 ∧ t.chip.hostMem = s.chip.hostMem)) ∧
  (∀ (s : State) (n : Fin 1024), s.chip.power.vin = true → s.chip.flag F.HST_RING_CFG.ENABLE n = false →
    ∃ t, exec (.ringEnable n true) s = .next t ∧ t.chip.ringOn n = true ∧ t.chip.flag F.HST_RING_CFG.ENABLE n = true ∧
      t.chip.posted n = 0 ∧ t.chip.getF F.HST_RING_TAIL.V n = s.chip.getF F.HST_RING_TAIL.V n) ∧
  (∀ (s : State) (n : Fin 1024), s.chip.power.vin = true →
    (s.chip.flag F.HST_RING_CFG.ENABLE n = true → exec (.ringEnable n true) s = .next s) ∧
    exec (.ringEnable n false) s = .next ⟨s.chip.stopRing n, s.pending⟩) ∧
  (∀ (c : Chip) (n : Nat), n < 1024 → (c.stopRing n).ringOn n = false ∧ (c.stopRing n).flag F.HST_RING_CFG.ENABLE n = false) ∧
  (∀ (s : State) (n : Fin 512), s.chip.power.vin = true →
    (s.chip.ringOn n && s.chip.flag F.HST_RING_CFG.MODE n) = true →
    exec (.recordBufferTimeout n) s = .next ⟨s.chip.closeBuf n, s.pending⟩) ∧
  (∀ (s : State) (n : Fin 512), s.chip.power.vin = true →
    (s.chip.ringOn n && s.chip.flag F.HST_RING_CFG.MODE n) = false → exec (.recordBufferTimeout n) s = .next s) ∧
  (∀ (s : State) (n : Fin 1024), s.chip.power.vin = true →
    ((s.chip.ringSt n).done = 0 → exec (.ringInterrupt n) s = .next s) ∧
    ((s.chip.ringSt n).done ≠ 0 → exec (.ringInterrupt n) s = .next ⟨(s.chip.setRing n { s.chip.ringSt n with
      done := 0 }).message (s.chip.getF F.HST_RING_CFG.VECTOR n), s.pending⟩)) ∧
  (∀ (s : State) (n : Fin 1024), s.chip.power.vin = true →
    (s.chip.ringOn n = false → exec (.dmaError n) s = .next s) ∧
    (s.chip.ringOn n = true → exec (.dmaError n) s = .next ⟨((s.chip.stopRing n).putF F.HST_RING_STATUS.ERROR 1 n).hostErr
      F.HST_ERR_CAUSE.DMA_FAULT 2 (s.chip.descAt n (s.chip.getF F.HST_RING_HEAD.V n)), s.pending⟩)) ∧
  (∀ (s : State) (r : Fin 512), s.chip.power.vin = true → (s.chip.ringOn (512 + r) = false ∨ s.chip.posted (512 + r) = 0) →
    exec (.injectPacket r) s = .next s) ∧
  (∀ (s : State) (r : Fin 512) (ds : List InjDesc) (d : InjDesc) (c : Chip) (n port : Nat) (fr : Bytes), s.chip.power.vin = true →
    n = 512 + r.val → s.chip.ringOn n = true → s.chip.posted n ≠ 0 → s.chip.injWaits n = false →
    s.chip.injPacket n (min 16 (s.chip.posted n)) (s.chip.getF F.HST_RING_HEAD.V n) [] = some ds → ds.head? = some d →
    fr = ds.flatMap (fun d => memRead s.chip.hostMem d.addr d.len) → port = d.info % 512 → d.info / 2 ^ 30 = 0 →
    s.chip.portPresent port = true → s.chip.polBit 0x236 2 = true → d.sop = true → ds.tail.any (fun x => x.sop) = false →
    ds.all (fun d => decide (1 ≤ d.len) && decide (d.len ≤ 16384)) = true → 60 ≤ fr.length → fr.length ≤ 12284 →
    cellsFor fr.length ≤ s.chip.ingRoom (sliceOf port) + s.chip.freeCells → s.chip.cpTake 0 = (true, c) →
    c.portPresent port = true → c.polBit 0x236 2 = true →
    exec (.injectPacket r) s = .next ⟨(c.injOut n 0 port (bitsOf 19 16 d.info) fr).injDone n stOk ds.length, s.pending⟩) ∧
  (∀ (s : State) (v : Fin 2048), s.chip.power.vin = true →
    ∃ t, exec (.msixUnmask v) s = .next t ∧ bitOf 0 (t.chip.getF F.HST_MSIX_TBL.V v 3) = false ∧
      (∀ w k : Nat, w < 2048 → k < 4 → (w ≠ v.val ∨ k ≠ 3) →
        t.chip.getF F.HST_MSIX_TBL.V w k = s.chip.getF F.HST_MSIX_TBL.V w k) ∧ t.chip.dram = s.chip.dram)

/-- From R513: the resets of the host interface. The HST registers outside the link return to reset values, window commands are
withdrawn and the rest of the device keeps running; a fundamental reset reaches the device without VIN too. The model's own
choices that it rests on, which no rule is cited for: log entries 3 and 43. -/
def Obligations.HostResetsLeaveTheDeviceRunning : Prop :=
  (∀ s : State, exec .fundamentalReset s = .next ⟨{ s.chip.hostReset with
    host := { s.chip.hostReset.host with perst := true } }, s.pending⟩) ∧
  (∀ (s : State) (l : Word), ∃ t, exec (.perstDeasserted l) s = .next t ∧ t.chip.host.perst = false ∧
    (s.chip.power.vin = false → t.chip.regs = s.chip.regs) ∧
    (s.chip.power.vin = true → (t.chip.rd F.HST_LINK_STATUS.all.base).toNat = Nat.land l.toNat linkMask)) ∧
  (∀ (s : State) (flr : Bool) (l : Word), s.chip.power.vin = true →
    ∃ t, exec (.hotReset flr l) s = .next t ∧
      (t.chip.rd F.HST_LINK_STATUS.all.base).toNat = (if flr then (s.chip.rd F.HST_LINK_STATUS.all.base).toNat
        else Nat.land l.toNat linkMask) ∧
      (∀ a, a < 0x80000 ∨ 0x100000 ≤ a → t.chip.rd a = s.chip.rd a) ∧
      t.chip.host.rings = [] ∧ t.chip.host.win = [] ∧ t.chip.dram = s.chip.dram ∧ t.chip.hostMem = s.chip.hostMem ∧
      t.chip.pkts = s.chip.pkts ∧ t.pending = s.pending) ∧
  (∀ (c : Chip) (a : Nat), (0x80000 ≤ a ∧ a < 0x100000 → c.hostReset.rd a = regReset a) ∧
    (a < 0x80000 ∨ 0x100000 ≤ a → c.hostReset.rd a = c.rd a)) ∧
  (∀ (c : Chip) (o : FOp), o ∈ c.hostReset.act.reqs → winAny o = false) ∧
  (∀ s : State, s.chip.power.vin = true →
    exec .busMasterDisable s = .next ⟨(List.range 1024).foldl (fun c n => if c.ringOn n then c.stopRing n else c) s.chip,
      s.pending⟩)

/-- From R177, R515 to R520, R529, R535: gang frames are taken on UP gang ports by header and device; ports enter and leave
service by HELLO; a link set's list is joined once the old one has drained; the oldest versions and unbind notices cross the
links. The model's own choices that it rests on, which no rule is cited for: log entries 8, 79, 80 and 84. -/
def Obligations.GangLinksCarryHelloOldestAndUnbind : Prop :=
  (∀ (c : Chip) (p ty : Nat) (b : Bool) (fr : Bytes), (c.gangPort p && c.portUp p) = false → c.gangTake p ty b fr = (false, c)) ∧
  (∀ (c d : Chip) (p ty : Nat) (fr : Bytes), c.gangTake p ty false fr = (true, d) →
    c.gangPort p = true ∧ c.portUp p = true ∧ byteAt fr 14 = 16 + ty ∧ byteAt fr 16 / 4 % 4 = d.getF F.GNG_STATUS.DEVICE ∧
    (smFind d.gang.inService p).isSome = true) ∧
  (∀ (s : State) (p : Fin 512) (fr : Bytes) (c : Chip), s.chip.power.vin = true → s.chip.gangTake p 6 true fr = (false, c) →
    exec (.hello p fr) s = .next ⟨c.flush, s.pending⟩) ∧
  (∀ (s : State) (p : Fin 512) (fr : Bytes) (c : Chip), s.chip.power.vin = true → s.chip.gangTake p 6 true fr = (true, c) →
    byteAt fr 46 = 1 → c.domainOut 7 (gfSrc fr) = false →
    (beAt (sliceB fr 54 72) 0 4 = c.cfgCheck → exec (.hello p fr) s = .next ⟨((c.onGang fun g => { g with
      hellos := smPut g.hellos (gfSrc fr) (sliceB fr 54 72) }).enterService p (gfSrc fr)).flush, s.pending⟩) ∧
    (beAt (sliceB fr 54 72) 0 4 ≠ c.cfgCheck →
      exec (.hello p fr) s = .next ⟨(((c.leaveService p).putF F.GNG_PEER_STATUS.LINK_STATE 2 (gfSrc fr)).raise
        F.GNG_EVENTS.MISMATCH).flush, s.pending⟩)) ∧
  (∀ (s : State) (p : Fin 512), s.chip.power.vin = true →
    (s.chip.gangPort p = true → s.chip.portUp p = true →
      exec (.helloTimer p) s = .next ⟨s.chip.ctrlOut p (s.chip.capDevice p) 1 (natBe 4 s.chip.cfgCheck ++
        natBe 1 (s.chip.getF F.GNG_STATUS.STATE) ++ natBe 1 (s.chip.getF F.GNG_STATUS.MEMBERS) ++
        natBe 1 (s.chip.getF F.GNG_STATUS.COORD) ++ natBe 1 s.chip.gang.partner ++ mapBytes s.chip.mapList), s.pending⟩) ∧
    (s.chip.gangPort p = false → exec (.helloTimer p) s = .next s)) ∧
  (∀ (s : State) (p : Fin 512), s.chip.power.vin = true → smFind s.chip.gang.inService p = none →
    exec (.helloTimeout p) s = .next ⟨s.chip.flush, s.pending⟩ ∧ exec (.linkSetDown p) s = .next ⟨s.chip.flush, s.pending⟩) ∧
  (∀ (s : State) (p : Fin 512) (d : Nat), s.chip.power.vin = true → smFind s.chip.gang.inService p = some d →
    exec (.helloTimeout p) s = .next ⟨(s.chip.leaveService p).flush, s.pending⟩ ∧
    exec (.linkSetDown p) s = .next ⟨(s.chip.leaveService p).flush, s.pending⟩) ∧
  (∀ (c : Chip) (p d : Nat), smFind c.gang.inService p = some d → smFind (c.leaveService p).gang.inService p = none) ∧
  (∀ (s : State) (d : Fin 4), s.chip.power.vin = true → s.chip.oldLDone d = false → exec (.linkSetJoin d) s = .next s) ∧
  (∀ (s : State) (d : Fin 4), s.chip.power.vin = true → s.chip.oldLDone d = true →
    ∃ t, exec (.linkSetJoin d) s = .next t ∧ t.chip.linkPorts d = s.chip.servicePorts d ∧
      t.chip.getF F.GNG_PEER_STATUS.L0 d = (s.chip.servicePorts d).headD 0 % 2 ^ F.GNG_PEER_STATUS.L0.width) ∧
  (∀ s : State, s.chip.power.vin = true →
    exec .oldestSend s = .next ⟨s.chip.gang.inService.foldl (fun c e => c.ctrlOut e.1 e.2 2
      (natBe 2 (c.getF F.CLS_VERSION.OLDEST))) s.chip, s.pending⟩) ∧
  (∀ (s : State) (p : Fin 512) (fr : Bytes) (c : Chip), s.chip.power.vin = true → s.chip.gangTake p 6 false fr = (true, c) →
    (byteAt fr 46 = 2 → exec (.ctrlOldest p fr) s = .next ⟨c.onGang fun g => { g with
      oldest := smPut g.oldest (gfSrc fr) (beAt (sliceB fr 54 72) 0 2) }, s.pending⟩) ∧
    (byteAt fr 46 ≠ 2 → exec (.ctrlOldest p fr) s = .next ⟨c, s.pending⟩)) ∧
  (∀ (s : State) (p : Fin 512) (fr : Bytes) (c : Chip), s.chip.power.vin = true → s.chip.gangTake p 6 false fr = (true, c) →
    byteAt fr 46 = 11 → c.gang.unbindRx = [] →
    exec (.ctrlUnbind p fr) s = .next ⟨(c.onGang fun g => { g with
      unbindRx := [⟨gfSrc fr, byteAt (sliceB fr 54 72) 4 % 4, beAt (sliceB fr 54 72) 0 4 % 2 ^ 18,
        byteAt (sliceB fr 54 72) 5 - 1⟩] }).unbindReady, s.pending⟩) ∧
  (∀ (c : Chip) (port dev ty : Nat) (body : Bytes), (c.gangHeader port dev ty).length = 32 ∧
    smGet (fun _ => 0) (c.gangOut port dev ty body).gang.txSeq port =
      (smGet (fun _ => 0) c.gang.txSeq port + 1) % 2 ^ 32)

/-- From R526 to R530, R532, R537, R538: packets and remote ops over the links, their answers, expiries and time-outs. The
model's own choices that it rests on, which no rule is cited for: log entries 8, 72, 82, 84, 91 and 99. -/
def Obligations.GangPacketsAndRemoteOps : Prop :=
  (∀ (s : State) (p : Fin 512) (fr : Bytes) (x : Fin 3), s.chip.power.vin = true → (s.chip.gangPort p && s.chip.portUp p) = false →
    exec (.data p fr) s = .next s ∧ exec (.rres p fr) s = .next ⟨s.chip.flush, s.pending⟩ ∧
    exec (.tail p fr) s = .next ⟨s.chip.flush, s.pending⟩ ∧ exec (.rrec p fr x) s = .next ⟨s.chip.flush, s.pending⟩) ∧
  (∀ (s : State) (p : Fin 512) (fr : Bytes) (c : Chip) (pid : Nat), s.chip.power.vin = true →
    s.chip.gangTake p 1 false fr = (true, c) → pid = c.tm.nextPid →
    ∃ t x, exec (.data p fr) s = .next t ∧ t.chip.pkt pid = some x ∧ x.src = 5 ∧ x.srcId = gfSrc fr ∧ x.port = p.val ∧
      x.frame = gfBody fr ∧ x.gangHdr = gfHdr fr ∧ x.ver = some (beAt (gfHdr fr) 16 2) ∧ x.stage = .elastic ∧ x.tail = 1 ∧
      (t.chip.portSt p).elastic = (c.portSt p).elastic ++ [pid]) ∧
  (∀ (s : State) (p : Fin 512) (fr : Bytes) (c : Chip), s.chip.power.vin = true → s.chip.gangTake p 3 false fr = (true, c) →
    c.gang.rops = [] → exec (.rres p fr) s = .next ⟨(c.bump F.GNG_PEER_CNT_LATE.V (gfSrc fr)).flush, s.pending⟩) ∧
  (∀ (s : State) (p : Fin 512) (fr : Bytes) (c : Chip) (r : Rop), s.chip.power.vin = true →
    s.chip.gangTake p 3 false fr = (true, c) →
    c.gang.rops.find? (fun r => r.rtag == beAt (gfBody fr) 0 4 && r.dev == gfSrc fr) = some r →
    (frStatus (sliceB (gfBody fr) 8 32) ≠ 7 → exec (.rres p fr) s = .next ⟨(((c.signal 12 r.dev 2).ropGone r).deliver r.pid
      (sliceB (gfBody fr) 8 32) r.dev).flush, s.pending⟩) ∧
    (frStatus (sliceB (gfBody fr) 8 32) = 7 → exec (.rres p fr) s = .next ⟨(c.ropAgain r).flush, s.pending⟩)) ∧
  (∀ (c : Chip) (r : Rop), 3 ≤ r.tries → c.ropAgain r = (c.ropGone r).missFb r.pid r.op) ∧
  (∀ (s : State) (p : Fin 512) (fr : Bytes) (c : Chip), s.chip.power.vin = true → s.chip.gangTake p 4 false fr = (true, c) →
    exec (.tail p fr) s = .next ⟨(c.tailAll (gfSrc fr) (beAt (gfBody fr) 0 4) (byteAt (gfBody fr) 4 == 1)).flush, s.pending⟩) ∧
  (∀ (s : State) (p : Fin 512) (fr : Bytes) (x : Fin 3) (c : Chip) (o : FOp), s.chip.power.vin = true →
    s.chip.gangTake p 7 false fr = (true, c) → o = c.rrecOp (gfSrc fr) (gfBody fr) →
    (byteAt (gfBody fr) 0 = 7 → exec (.rrec p fr x) s = .next ⟨(c.answerRx (gfSrc fr) (gfBody fr)).flush, s.pending⟩) ∧
    (1 ≤ byteAt (gfBody fr) 0 → byteAt (gfBody fr) 0 ≤ 4 → c.notOwned o.h1 = true →
      exec (.rrec p fr x) s = .next ⟨(c.rrecAnswer ⟨o, 9, []⟩).flush, s.pending⟩) ∧
    (1 ≤ byteAt (gfBody fr) 0 → byteAt (gfBody fr) 0 ≤ 4 → c.notOwned o.h1 = false → c.engineHeld (hEngine o.h1) = false →
      c.bankGated (hEngine o.h1) = false →
      exec (.rrec p fr x) s = .next ⟨(c.arriveEcc (hEngine o.h1) o x).flush, s.pending⟩) ∧
    (∀ q, byteAt (gfBody fr) 0 = 5 → (c.eng (hEngine o.h1)).prepOf (1024 + gfSrc fr) o.tag = some q →
      exec (.rrec p fr x) s = .next ⟨(c.applyPrep (hEngine o.h1) q).flush, s.pending⟩) ∧
    (∀ q, byteAt (gfBody fr) 0 = 6 → (c.eng (hEngine o.h1)).prepOf (1024 + gfSrc fr) o.tag = some q →
      exec (.rrec p fr x) s = .next ⟨(c.dropPrep (hEngine o.h1) q).flush, s.pending⟩)) ∧
  (∀ (s : State) (pid : Nat), s.chip.power.vin = true → s.chip.gang.rops = [] →
    exec (.ropTimeout pid) s = .next ⟨s.chip.flush, s.pending⟩) ∧
  (∀ (s : State) (pid : Nat) (r : Rop), s.chip.power.vin = true → s.chip.gang.rops.find? (fun r => r.pid == pid) = some r →
    exec (.ropTimeout pid) s = .next ⟨((((s.chip.ropGone r).bump F.GNG_PEER_CNT_TIMEOUT.V r.dev).signal 12 r.dev 3).missFb pid
      r.op).flush, s.pending⟩) ∧
  (∀ (s : State) (e : Fin 128) (d : Fin 4) (tag : Nat), s.chip.power.vin = true →
    ((s.chip.eng e).prepOf (1024 + d) tag = none → exec (.rrecPrepExpiry e d tag) s = .next ⟨s.chip.flush, s.pending⟩) ∧
    (∀ q, (s.chip.eng e).prepOf (1024 + d) tag = some q →
      exec (.rrecPrepExpiry e d tag) s = .next ⟨(s.chip.removePrep e q).flush, s.pending⟩)) ∧
  (∀ (s : State) (x : Fin 1024) (e : CEnt), s.chip.power.vin = true → (s.chip.ctx x).rd = some e → e.st = 1 →
    e.dev ≠ s.chip.ownDevice → exec (.rrecAnswerTimeout x) s = .next ⟨(s.chip.endCtx x 1 abOwner).flush, s.pending⟩) ∧
  (∀ (s : State) (x : Fin 1024), s.chip.power.vin = true → (s.chip.ctx x).rd = none → (s.chip.ctx x).commit = [] →
    exec (.rrecAnswerTimeout x) s = .next ⟨s.chip.flush, s.pending⟩) ∧
  (∀ s : State, s.chip.power.vin = true → s.chip.flag F.GNG_CTRL.REPL_EN = false → exec .replRefreshScan s = .next s) ∧
  (∀ s : State, s.chip.power.vin = true → s.chip.flag F.GNG_CTRL.REPL_EN = true → s.chip.gangMember = true →
    s.chip.gang.partner ∈ s.chip.peers →
    exec .replRefreshScan s = .next ⟨s.chip.allTags.foldl (fun c t =>
      if tpReplicate (c.tpl (rTemplate (c.committed t.1 t.2.1 t.2.2))) && !rReplica (c.committed t.1 t.2.1 t.2.2) then
        c.replOut c.gang.partner (c.committed t.1 t.2.1 t.2.2) false false else c) s.chip, s.pending⟩)

/-- From R521 to R525, R536: forming, joining and leaving a gang, losses, and the steps of a change of the owner map. The
model's own choices that it rests on, which no rule is cited for: log entries 8, 9, 75, 81, 82 and 84. -/
def Obligations.GangMembershipChangesInSteps : Prop :=
  (∀ (s : State) (c : Chip), s.chip.power.vin = true → s.chip.flag F.GNG_CMD_STATUS.RUNNING = true →
    c = s.chip.putF F.GNG_CMD_STATUS.OVERRUN 1 → exec .form s = .next ⟨c.flush, s.pending⟩ ∧ exec .join s = .next ⟨c, s.pending⟩ ∧
      exec .leave s = .next ⟨c.flush, s.pending⟩ ∧ exec .resetAll s = .next ⟨c, s.pending⟩) ∧
  (∀ (s : State) (own : Nat), s.chip.power.vin = true → s.chip.flag F.GNG_CMD_STATUS.RUNNING = false → s.chip.gangMember = false →
    own = s.chip.getF F.GNG_STATUS.DEVICE →
    exec .form s = .next ⟨((((((((s.chip.setMap (List.replicate 256 own)).putF F.GNG_EPOCH.V 1).putF F.GNG_STATUS.STATE 1).putF
      F.GNG_STATUS.COORD own).putF F.GNG_STATUS.MEMBERS (2 ^ own)).raise F.GNG_EVENTS.COMMIT).gangItem 1 own
        (List.range 256)).finish portGng stOk).flush, s.pending⟩ ∧
    exec .leave s = .next ⟨(s.chip.finish portGng stInvalid).flush, s.pending⟩) ∧
  (∀ (c : Chip) (m : List Nat) (k : Nat), m.length = 256 → (∀ d, d ∈ m → d < 4) → k < 256 → (c.setMap m).mapOf k = m.getD k 0) ∧
  (∀ s : State, s.chip.power.vin = true → s.chip.flag F.GNG_CMD_STATUS.RUNNING = false → s.chip.gangMember = true →
    exec .form s = .next ⟨(s.chip.finish portGng stInvalid).flush, s.pending⟩ ∧
    exec .join s = .next ⟨s.chip.finish portGng stInvalid, s.pending⟩) ∧
  (∀ (s : State) (d : Nat), s.chip.power.vin = true → s.chip.flag F.GNG_CMD_STATUS.RUNNING = false → s.chip.gangMember = false →
    s.chip.isolated = false →
    (s.chip.heardCoord = some (d, 2) → exec .join s = .next ⟨s.chip.finish portGng stBusy, s.pending⟩) ∧
    (s.chip.heardCoord = some (d, 1) → exec .join s = .next ⟨((s.chip.putF F.GNG_CMD_STATUS.RUNNING 1).onGang fun g => { g with
      cmd := 2 }).ctrlTo d 12 [], s.pending⟩)) ∧
  (∀ s : State, s.chip.power.vin = true → s.chip.gang.cmd = 2 → s.chip.gang.change = none →
    exec .joinTimeout s = .next ⟨(s.chip.onGang fun g => { g with cmd := 0 }).finish portGng stTimeout, s.pending⟩) ∧
  (∀ s : State, s.chip.power.vin = true → s.chip.gang.cmd ≠ 2 → exec .joinTimeout s = .next s) ∧
  (∀ s : State, s.chip.power.vin = true → s.chip.flag F.GNG_CMD_STATUS.RUNNING = false → s.chip.gangMember = true →
    (s.chip.changing = true → exec .leave s = .next ⟨(s.chip.finish portGng stBusy).flush, s.pending⟩) ∧
    (s.chip.changing = false → s.chip.members.filter (· != s.chip.getF F.GNG_STATUS.DEVICE) = [] →
      exec .leave s = .next ⟨(((s.chip.putF F.GNG_STATUS.STATE 0).putF F.GNG_STATUS.MEMBERS 0).finish portGng stOk).flush,
        s.pending⟩) ∧
    (s.chip.changing = false → s.chip.members.filter (· != s.chip.getF F.GNG_STATUS.DEVICE) ≠ [] → s.chip.coordinator = false →
      exec .leave s = .next ⟨((s.chip.putF F.GNG_CMD_STATUS.RUNNING 1).onGang fun g => { g with cmd := 3 }).flush, s.pending⟩)) ∧
  (∀ (s : State) (p : Fin 512) (fr : Bytes) (c : Chip), s.chip.power.vin = true → s.chip.gangTake p 6 false fr = (true, c) →
    byteAt fr 46 = 12 → c.coordinator = true → c.changing = false → gfSrc fr ∉ c.members → c.linkPorts (gfSrc fr) ≠ [] →
    exec (.joinReq p fr true) s = .next ⟨(c.runChange true false (gfSrc fr) (joinMap c.mapList (gfSrc fr)
      (c.members.length + 1))).flush, s.pending⟩ ∧
    exec (.joinReq p fr false) s = .next ⟨c.flush, s.pending⟩) ∧
  (∀ (s : State) (p : Fin 512) (fr : Bytes) (c : Chip), s.chip.power.vin = true → s.chip.gangTake p 6 false fr = (true, c) →
    (byteAt fr 46 = 10 → c.coordinator = true → exec (.ctrlLeave p fr) s = .next ⟨(c.lossOf (gfSrc fr)).flush, s.pending⟩) ∧
    (byteAt fr 46 = 6 → exec (.ready p fr) s = .next ⟨(c.readyFrom (gfSrc fr)).flush, s.pending⟩) ∧
    (byteAt fr 46 = 7 → exec (.clean p fr) s = .next ⟨(c.cleanFrom (gfSrc fr)).flush, s.pending⟩) ∧
    (byteAt fr 46 = 4 → ∃ t, exec (.ctrlCommit p fr) s = .next t ∧ t.chip.gang.change = c.gang.change.map (fun x =>
      { x with at_ := some (beAt (sliceB fr 54 72) 0 8) }) ∧ t.chip.regs = c.regs) ∧
    (∀ l, byteAt fr 46 = 5 → l = maskSlots (sliceB (sliceB fr 54 72) 8 32) →
      exec (.slotFinal p fr) s = .next ⟨((c.onGang fun g => { g with
        awaitFinal := g.awaitFinal.filter (fun s => !l.contains s) }).promote l).flush, s.pending⟩)) ∧
  (∀ (s : State) (p : Fin 512) (fr b : Bytes) (c : Chip) (x : GChange), s.chip.power.vin = true →
    s.chip.gangTake p 6 false fr = (true, c) → byteAt fr 46 = 3 → c.isolated = false → b = sliceB fr 54 72 →
    x = ⟨bitOf 7 (byteAt b 0), byteAt b 0 % 4, bitOf 0 (byteAt b 1), beAt fr 50 4, bytesMap (sliceB b 8 64), none, []⟩ →
    (c.gangMember = true → gfSrc fr = c.getF F.GNG_STATUS.COORD →
      exec (.ctrlPrep p fr) s = .next ⟨((c.putF F.GNG_STATUS.COORD (gfSrc fr)).beginChange x).flush, s.pending⟩) ∧
    (c.gangMember = false → x.join = true → x.dev = c.getF F.GNG_STATUS.DEVICE →
      exec (.ctrlPrep p fr) s = .next ⟨((c.putF F.GNG_STATUS.COORD (gfSrc fr)).beginChange x).flush, s.pending⟩) ∧
    (c.gangMember = false → x.dev ≠ c.getF F.GNG_STATUS.DEVICE → exec (.ctrlPrep p fr) s = .next ⟨c.flush, s.pending⟩)) ∧
  (∀ s : State, s.chip.power.vin = true → s.chip.gang.change = none → exec .mapCommit s = .next ⟨s.chip.flush, s.pending⟩) ∧
  (∀ (s : State) (x : GChange) (t : Nat), s.chip.power.vin = true → s.chip.gang.change = some x → x.at_ = some t →
    (s.chip.due t = true → exec .mapCommit s = .next ⟨(s.chip.applyMap x).flush, s.pending⟩) ∧
    (s.chip.due t = false → exec .mapCommit s = .next ⟨s.chip.flush, s.pending⟩)) ∧
  (∀ (s : State) (a b : Fin 4), s.chip.power.vin = true → s.chip.gangMember = false →
    exec (.peerLoss a b) s = .next ⟨s.chip.flush, s.pending⟩) ∧
  (∀ (s : State) (a b : Fin 4), s.chip.power.vin = true → s.chip.gangMember = true → a < b → a.val ∈ s.chip.members →
    b.val ∈ s.chip.members →
    (b.val = s.chip.getF F.GNG_STATUS.DEVICE → s.chip.linkPorts a = [] → exec (.peerLoss a b) s = .next ⟨(((s.chip.putF F.GNG_STATUS.STATE
      3).raise F.GNG_EVENTS.ISOLATED).onGang fun g => { g with
        change := none
        cleanWait := []
        lossQ := []
        migrating := []
        finalDue := []
        given := []
        awaitFinal := [] }).flush, s.pending⟩) ∧
    (b.val ≠ s.chip.getF F.GNG_STATUS.DEVICE → s.chip.linkPorts b = [] → s.chip.coordinator = true →
      exec (.peerLoss a b) s = .next ⟨(s.chip.lossOf b).flush, s.pending⟩)) ∧
  (∀ s : State, s.chip.power.vin = true → s.chip.gang.items = [] → exec .gangItemOffer s = .next s) ∧
  (∀ (s : State) (it : Bytes) (r : List Bytes) (c : Chip), s.chip.power.vin = true → s.chip.gang.items = it :: r →
    s.chip.offer (s.chip.getF F.GNG_ITEM_CLASS.V) it none = (.accepted, c) →
    exec .gangItemOffer s = .next ⟨c.onGang fun g => { g with items := r }, s.pending⟩)

/-- From R539, R540, R580: a follower asks the coordinator for its time, and sets, steps or slews its own; the coordinator
schedules a reset of the whole gang, which a received request schedules too unless the policy forbids it. The model's own
choices that it rests on, which no rule is cited for: log entries 8, 75, 83 and 84. -/
def Obligations.GangTimeAndResetsFollowTheCoordinator : Prop :=
  (∀ s : State, s.chip.power.vin = true →
    (s.chip.follower = true → exec .tsyncTimer s = .next ⟨s.chip.ctrlTo (s.chip.getF F.GNG_STATUS.COORD) 8 (natBe 8 s.chip.dtw),
      s.pending⟩) ∧
    (s.chip.follower = false → exec .tsyncTimer s = .next s)) ∧
  (∀ (s : State) (p : Fin 512) (fr : Bytes) (c : Chip), s.chip.power.vin = true → s.chip.gangTake p 6 false fr = (true, c) →
    byteAt fr 46 = 8 →
    (c.coordinator = true → exec (.tsyncReq p fr) s = .next ⟨c.ctrlTo (gfSrc fr) 9 (sliceB (sliceB fr 54 72) 0 8 ++
      natBe 8 c.dtw ++ natBe 8 c.dtw ++ natBe 1 (b2n c.timeValid)), s.pending⟩) ∧
    (c.coordinator = false → exec (.tsyncReq p fr) s = .next ⟨c, s.pending⟩)) ∧
  (∀ (s : State) (p : Fin 512) (fr : Bytes) (c : Chip), s.chip.power.vin = true → s.chip.gangTake p 6 false fr = (true, c) →
    byteAt fr 46 = 9 → c.follower = false → exec (.tsyncResp p fr) s = .next ⟨c, s.pending⟩) ∧
  (∀ (s : State) (p : Fin 512) (fr b : Bytes) (c : Chip) (th : Int), s.chip.power.vin = true →
    s.chip.gangTake p 6 false fr = (true, c) → byteAt fr 46 = 9 → c.follower = true → c.getF F.GNG_STATUS.COORD = gfSrc fr →
    c.timeValid = true → b = sliceB fr 54 72 →
    th = (signedOf 64 (beAt b 8 8 + (2 ^ 64 - beAt b 0 8 % 2 ^ 64)) - signedOf 64 (c.dtw + (2 ^ 64 - beAt b 16 8 % 2 ^ 64))) / 2
      - signedOf 32 (c.getF F.GNG_PEER_ASYM.V (gfSrc fr)) →
    (c.getF F.GNG_TIME_STEP.V * 2 ^ 16 ≤ th.natAbs →
      ∃ t, exec (.tsyncResp p fr) s = .next t ∧ t.chip.time.stepNext = some th ∧
        t.chip.getQ F.GNG_PEER_THETA.V (gfSrc fr) = patternOf 64 th ∧ t.chip.time.acc = c.time.acc) ∧
    (th.natAbs < c.getF F.GNG_TIME_STEP.V * 2 ^ 16 →
      ∃ t, exec (.tsyncResp p fr) s = .next t ∧ t.chip.time.slew = some ⟨Int.tdiv (th * 2 ^ 24) 781250,
        Int.tmod (th * 2 ^ 24) 781250, 0, 781250⟩ ∧ t.chip.getF F.TIM_STATUS.SLEWING = 1 ∧ t.chip.time.acc = c.time.acc)) ∧
  (∀ s : State, s.chip.power.vin = true → s.chip.flag F.GNG_CMD_STATUS.RUNNING = false → s.chip.coordinator = false →
    exec .resetAll s = .next ⟨s.chip.finish portGng stInvalid, s.pending⟩) ∧
  (∀ (s : State) (c : Chip) (t : Nat), s.chip.power.vin = true → s.chip.flag F.GNG_CMD_STATUS.RUNNING = false →
    s.chip.coordinator = true → t = s.chip.getQ F.GNG_CMD_TIME.V →
    c = s.chip.peers.foldl (fun c d => c.ctrlTo d 13 (natBe 8 t)) s.chip →
    exec .resetAll s = .next ⟨(c.schedReset t).2.finish portGng (c.schedReset t).1, s.pending⟩) ∧
  (∀ (c : Chip) (t : Nat), c.resetAllowed = false →
    c.schedReset t = (stDenied, c.raise F.HST_ERR_CAUSE.RESET_DENIED)) ∧
  (∀ (c : Chip) (t : Nat), c.resetAllowed = true →
    (c.timeClass t = .past → c.schedReset t = (stPast, c)) ∧ (c.timeClass t = .far → c.schedReset t = (stFar, c)) ∧
    (c.timeClass t = .late → (c.schedReset t).1 = stLate ∧ (c.schedReset t).2.gang.resetAt = some t) ∧
    (c.timeClass t ≠ .past → c.timeClass t ≠ .far → c.timeClass t ≠ .late →
      (c.schedReset t).1 = stOk ∧ (c.schedReset t).2.gang.resetAt = some t ∧ (c.schedReset t).2.gang.resetLate = false)) ∧
  (∀ (s : State) (p : Fin 512) (fr : Bytes) (c : Chip) (t : Nat), s.chip.power.vin = true →
    s.chip.gangTake p 6 false fr = (true, c) → byteAt fr 46 = 13 → t = beAt (sliceB fr 54 72) 0 8 →
    (c.resetAllowed = true → exec (.resetAt p fr) s = .next ⟨(c.schedReset t).2, s.pending⟩) ∧
    (c.resetAllowed = false → exec (.resetAt p fr) s = .next ⟨(c.raise F.HST_ERR_CAUSE.RESET_DENIED).deniedCapture 8 0 0,
      s.pending⟩))

/-- From R547, R553 to R557, R561, R563 to R565, R584: the management processor runs, idles, fails and restarts; sensors are
sampled against their thresholds and trips; log entries reach the flash; slices park and banks are gated and wake. The model's
own choices that it rests on, which no rule is cited for: log entries 8, 57, 58, 59, 60 and 61. -/
def Obligations.ManagementWatchesAndSaves : Prop :=
  (∀ s : State, s.chip.power.vin = true →
    (s.chip.getF F.MGT_MP_STATUS.STATE = 0 →
      ∃ t, exec .mpWake s = .next t ∧ t.chip.getF F.MGT_MP_STATUS.STATE = 2 ∧ t.chip.mgt = s.chip.mgt ∧ t.pending = s.pending) ∧
    (s.chip.getF F.MGT_MP_STATUS.STATE ≠ 0 → exec .mpWake s = .next s)) ∧
  (∀ s : State, s.chip.power.vin = true →
    (s.chip.getF F.MGT_MP_STATUS.STATE = 2 → s.chip.flag F.MGT_MP_CTRL.STAY_AWAKE = false → s.chip.mgt.flashWrite = none →
      ∃ t, exec .mpIdleStop s = .next t ∧ t.chip.getF F.MGT_MP_STATUS.STATE = 0 ∧ t.chip.mgt = s.chip.mgt) ∧
    (s.chip.getF F.MGT_MP_STATUS.STATE ≠ 2 → exec .mpIdleStop s = .next s) ∧
    (s.chip.flag F.MGT_MP_CTRL.STAY_AWAKE = true → exec .mpIdleStop s = .next s)) ∧
  (∀ s : State, s.chip.power.vin = true →
    (s.chip.getF F.MGT_MP_STATUS.STATE ≠ 2 → exec .mpWatchdog s = .next s ∧ exec .firmwareHeartbeatTimeout s = .next s) ∧
    (s.chip.getF F.MGT_MP_STATUS.STATE = 2 →
      exec .mpWatchdog s = .next ⟨((s.chip.log 18 2 0x000A 0 0).raise F.MGT_EVENTS.MP_FAIL).mpStart, s.pending⟩)) ∧
  (∀ s : State, s.chip.power.vin = true → s.chip.getF F.MGT_MP_STATUS.STATE = 2 → s.chip.flag F.MGT_MP_STATUS.FALLBACK = true →
    exec .firmwareHeartbeatTimeout s = .next ⟨s.chip.fwNone, s.pending⟩) ∧
  (∀ s : State, s.chip.power.vin = true → (s.chip.slotOf 1 false).state = 0 → (s.chip.slotOf 1 true).state = 0 →
    exec .mpRestart s = .next ⟨(s.chip.putF F.MGT_MP_STATUS.FALLBACK 0).fwNone, s.pending⟩) ∧
  (∀ (s : State) (b : Bool), s.chip.power.vin = true → s.chip.bootSlot 1 = some b → s.chip.fwCheck (s.chip.slotOf 1 b).image = 0 →
    exec .mpRestart s = .next ⟨(s.chip.putF F.MGT_MP_STATUS.FALLBACK 0).fwStart b false, s.pending⟩) ∧
  (∀ (s : State) (vals : List (BitVec 16)) (v : Nat → Nat) (c : Chip), s.chip.power.vin = true →
    v = (fun n => (vals.getD n 0).toNat) → c = (List.range 60).foldl (fun c n => c.sensorOne n (v n)) s.chip →
    (c.polInForce = false → exec (.sensorSample vals) s = .next ⟨c, s.pending⟩) ∧
    (c.polInForce = true → exec (.sensorSample vals) s = .next ⟨c.trips ((List.range 31).foldl (fun m n =>
      max m (signedOf 16 (v (n + 1)))) (signedOf 16 (v 0))) (v 57), s.pending⟩)) ∧
  (∀ (c : Chip) (n v : Nat), n < 60 → v < 65536 → (c.sensorOne n v).getF F.MGT_SNS_VAL.VALUE n = v) ∧
  (∀ s : State, (s.chip.power.aon = false ∨ s.chip.mgt.logBuf = []) → exec .logFlashCopy s = .next s) ∧
  (∀ (s : State) (e : LogEntry) (r : List LogEntry), s.chip.power.aon = true → s.chip.mgt.logBuf = e :: r →
    s.chip.mgt.logFlash.length < 2097152 →
    ∃ t, exec .logFlashCopy s = .next t ∧ t.chip.mgt.logBuf = r ∧ t.chip.mgt.logFlash = s.chip.mgt.logFlash ++ [e] ∧
      t.chip.getF F.MGT_LOG_STATUS.BUFFERED = r.length % 2 ^ F.MGT_LOG_STATUS.BUFFERED.width) ∧
  (∀ (s : State) (k : Fin 16), s.chip.power.vin = true →
    (s.chip.parked k = true → exec (.slicePark k) s = .next s) ∧
    (s.chip.parkOk k = false → exec (.slicePark k) s = .next s) ∧
    (s.chip.parked k = false → s.chip.parkOk k = true →
      ∃ t, exec (.slicePark k) s = .next t ∧ t.chip.parked k = true ∧
        (∀ j : Nat, j < 16 → j ≠ k.val → t.chip.parked j = s.chip.parked j) ∧ t.chip.pkts = s.chip.pkts ∧
        t.chip.lanes = s.chip.lanes)) ∧
  (∀ (s : State) (k : Fin 16), s.chip.power.vin = true →
    ∃ t, exec (.sliceActive k) s = .next t ∧ t.chip.parked k = false ∧ k.val ∉ t.chip.mgt.parkWait ∧
      ∀ j : Nat, j < 16 → j ≠ k.val → t.chip.parked j = s.chip.parked j) ∧
  (∀ (s : State) (k : Fin 16), s.chip.power.vin = true →
    (s.chip.flag F.MGT_PARK_CTRL.NO_BANK_GATE = true → exec (.bankGate k) s = .next s) ∧
    (s.chip.bankIdle k = false → exec (.bankGate k) s = .next s) ∧
    (s.chip.flag F.MGT_PARK_CTRL.NO_BANK_GATE = false → s.chip.bankIdle k = true →
      exec (.bankGate k) s = .next ⟨(s.chip.putF F.MGT_PARK_STATUS.GATED (setBitsOf k k (s.chip.getF F.MGT_PARK_STATUS.GATED)
        1)).bankCond k false, s.pending⟩) ∧
    (bitOf k (s.chip.getF F.MGT_PARK_STATUS.GATED) = false → exec (.bankAwake k) s = .next s) ∧
    (bitOf k (s.chip.getF F.MGT_PARK_STATUS.GATED) = true →
      exec (.bankAwake k) s = .next ⟨(({ s.chip with
        mgt := { s.chip.mgt with bankWake := s.chip.mgt.bankWake.filter (· ≠ k.val) } } : Chip).putF F.MGT_PARK_STATUS.GATED
          (setBitsOf k k (s.chip.getF F.MGT_PARK_STATUS.GATED) 0)).bankCond k true, s.pending⟩))

/-- From R549 to R552, R560 to R562: the mailbox commands of the host and of a management port, refused in their order, and
their effects. The model's own choices that it rests on, which no rule is cited for: log entries 8, 60 and 63. -/
def Obligations.MailboxCommandsAnswerInOrder : Prop :=
  (∀ (s t : State), s.chip.power.vin = true → s.chip.flag F.MGT_MBX_STATUS.RUNNING = true →
    t = ⟨s.chip.putF F.MGT_MBX_STATUS.OVERRUN 1, s.pending⟩ →
    exec .info s = .next t ∧ exec .sensors s = .next t ∧ exec .logRead s = .next t ∧ exec .logMark s = .next t ∧
    exec .updateWrite s = .next t ∧ exec .updateSelect s = .next t ∧ exec .floorRaise s = .next t) ∧
  (∀ (s : State) (a : List Nat) (r : MbxAns) (c : Chip), s.chip.power.vin = true →
    s.chip.flag F.MGT_MBX_STATUS.RUNNING = false → a = (List.range 4).map (fun k => s.chip.getF F.MGT_MBX_ARG.V k) →
    (s.chip.mpWake.mailbox none 1 a = (some r, c) → exec .info s = .next ⟨c.mbxDone r, s.pending⟩) ∧
    (s.chip.mpWake.mailbox none 2 a = (some r, c) → exec .sensors s = .next ⟨c.mbxDone r, s.pending⟩) ∧
    (s.chip.mpWake.mailbox none 3 a = (some r, c) → exec .logRead s = .next ⟨c.mbxDone r, s.pending⟩) ∧
    (s.chip.mpWake.mailbox none 4 a = (some r, c) → exec .logMark s = .next ⟨c.mbxDone r, s.pending⟩) ∧
    (s.chip.mpWake.mailbox none 5 a = (some r, c) → exec .updateWrite s = .next ⟨c.mbxDone r, s.pending⟩) ∧
    (s.chip.mpWake.mailbox none 6 a = (some r, c) → exec .updateSelect s = .next ⟨c.mbxDone r, s.pending⟩) ∧
    (s.chip.mpWake.mailbox none 7 a = (some r, c) → exec .floorRaise s = .next ⟨c.mbxDone r, s.pending⟩)) ∧
  (∀ (s : State) (a : List Nat) (img : Bytes), s.chip.power.vin = true → s.chip.flag F.MGT_MBX_STATUS.RUNNING = false →
    a = (List.range 4).map (fun k => s.chip.getF F.MGT_MBX_ARG.V k) →
    s.chip.mpWake.mbxInvalid 5 (fun k => a.getD k 0) = 0 → s.chip.mpWake.polBit 0x24A 5 = true →
    s.chip.mgt.flashWrite = none → img = s.chip.dramRead (stageBase + a.getD 1 0) (a.getD 2 0) →
    ∃ t, exec .updateWrite s = .next t ∧ t.chip.flag F.MGT_MBX_STATUS.RUNNING = true ∧
      t.chip.mgt.flashWrite = some ⟨a.getD 0 0, b2n (s.chip.mpWake.writeSlotFor (a.getD 0 0)), img, none⟩ ∧
      t.chip.flash = s.chip.flash) ∧
  (∀ (c : Chip) (o : Option (Nat × Nat)) (op : Nat) (a : List Nat), c.mbxInvalid op (fun k => a.getD k 0) ≠ 0 →
    c.mailbox o op a = (some ⟨stInvalid, c.mbxInvalid op (fun k => a.getD k 0), a, []⟩, c)) ∧
  (∀ (c : Chip) (op : Nat) (a : List Nat), c.mbxInvalid op (fun k => a.getD k 0) = 0 →
    (c.polBit 0x24A op = false → c.mailbox none op a = (some ⟨stDenied, 8, a, []⟩, c.deniedCapture 3 F.MGT_MBX_CMD.all.base 0)) ∧
    (∀ x, c.polBit 0x24C op = false →
      c.mailbox (some x) op a = (some ⟨stDenied, 8, a, []⟩, c.deniedCapture 4 F.MGT_MBX_CMD.all.base 0)) ∧
    (c.polBit 0x24A op = true → c.mgt.flashWrite ≠ none → c.mailbox none op a = (some ⟨stBusy, 0x0B, a, []⟩, c))) ∧
  (∀ (c : Chip) (a : List Nat), c.mgt.flashWrite = none →
    (c.mbxInvalid 1 (fun k => a.getD k 0) = 0 → c.polBit 0x24A 1 = true → c.mailbox none 1 a = (some ⟨stOk, 0, a, c.infoData⟩, c)) ∧
    (c.mbxInvalid 2 (fun k => a.getD k 0) = 0 → c.polBit 0x24A 2 = true →
      c.mailbox none 2 a = (some ⟨stOk, 0, a, c.sensorData⟩, c)) ∧
    (c.mbxInvalid 3 (fun k => a.getD k 0) = 0 → c.polBit 0x24A 3 = true → ∀ es, es = c.logFrom (a.getD 0 0 + 2 ^ 32 * a.getD 1 0) →
      c.mailbox none 3 a = (some ⟨stOk, 0, [a.getD 0 0, a.getD 1 0, es.length, a.getD 3 0], es.flatMap LogEntry.bytes⟩, c)) ∧
    (c.mbxInvalid 4 (fun k => a.getD k 0) = 0 → c.polBit 0x24A 4 = true →
      c.mailbox none 4 a = (some ⟨stOk, 0, a, []⟩, c.log 16 0 (a.getD 0 0 % 65536) 0 (a.getD 1 0 + 2 ^ 32 * a.getD 2 0))) ∧
    (c.mbxInvalid 6 (fun k => a.getD k 0) = 0 → c.polBit 0x24A 6 = true →
      c.mailbox none 6 a = (some ⟨stOk, 0, a, []⟩, (c.selectSlot (a.getD 0 0) (a.getD 1 0 == 1)).log 14 0 0x000D 0 0)) ∧
    (c.mbxInvalid 7 (fun k => a.getD k 0) = 0 → c.polBit 0x24A 7 = true →
      c.mailbox none 7 a = (some ⟨stOk, 0, a, []⟩, (c.raiseFloor (a.getD 0 0) (c.runSerial (a.getD 0 0))).log 14 0 0x000E 0
        (c.runSerial (a.getD 0 0))))) ∧
  (∀ (s : State) (p : Fin 2) (src pl : Bytes), s.chip.power.vin = true → bitOf 3 (byteAt s.chip.mgt.mpConf p) = false →
    exec (.oobDatagram p src pl) s = .next s) ∧
  (∀ (s : State) (p : Fin 2) (src pl : Bytes), s.chip.power.vin = true → leAt s.chip.mgt.mpConf 2 2 ≠ 0 →
    bitOf 3 (byteAt s.chip.mgt.mpConf p) = true → (List.range 4).any (s.chip.oobAllows src) = false →
    exec (.oobDatagram p src pl) s = .next ⟨s.chip.bump F.MGT_CNT_OOB_DROP.V, s.pending⟩) ∧
  (∀ (s : State) (p : Fin 2) (src pl : Bytes) (r : MbxAns) (c : Chip), s.chip.power.vin = true → leAt s.chip.mgt.mpConf 2 2 ≠ 0 →
    bitOf 3 (byteAt s.chip.mgt.mpConf p) = true → (List.range 4).any (s.chip.oobAllows src) = true → 24 ≤ pl.length →
    pl.length ≤ 280 → byteAt pl 1 = 0 → leAt pl 4 4 = 0 →
    s.chip.mpWake.mailbox (some (p.val, beAt pl 2 2)) (byteAt pl 0) ((List.range 4).map (fun k => beAt pl (8 + 4 * k) 4)) =
      (some r, c) →
    exec (.oobDatagram p src pl) s = .next ⟨c.oobSend p (byteAt pl 0) (beAt pl 2 2) r, s.pending⟩)

/-- From R39, R594 to R597: a fault starts its domain's recovery, which may wait for a stop-bath or under MANUAL, runs its steps
and ends; a second fault holds the domain stopped. The model's own choices that it rests on, which no rule is cited for: log
entries 8, 60, 64 and 66. -/
def Obligations.RecoveriesStartRunAndEnd : Prop :=
  (∀ (s : State) (k : Fin 8) (i : Fin 1024) (x : Fin 256) (d : List Nat), s.chip.power.vin = true →
    (causeKind x ≠ some k.val ∨ kindCount k ≤ i.val) → exec (.recoveryStart k i x d) s = .next s) ∧
  (∀ (s : State) (k : Fin 8) (i : Fin 1024) (x : Fin 256) (d : List Nat) (r : RecDom) (c : Chip), s.chip.power.vin = true →
    causeKind x = some k.val → i.val < kindCount k → x ≠ 0x14 → k ≠ 5 → s.chip.recOf k i = none → r = ⟨k, i, x, 2, s.chip.mt, d⟩ →
    c = (((((s.chip.raiseGlb F.GLB_STATUS.FAULT_PENDING).recLast k i x false).log 0 2 0x0200 i (x.val + 256 * k.val)).recBit
      F.GLB_REC_ACTIVE.V k i true).recGaps r).bathsEnded k i →
    ((c.bathsOf k i 3 ++ c.bathsOf k i 4) = [] → exec (.recoveryStart k i x d) s = .next ⟨c.recProceed r, s.pending⟩) ∧
    ((c.bathsOf k i 3 ++ c.bathsOf k i 4) ≠ [] → exec (.recoveryStart k i x d) s = .next ⟨((c.setRec { r with
      state := 0 }).recContain { r with state := 0 }).recShow, s.pending⟩)) ∧
  (∀ (s : State) (k : Fin 8) (i : Fin 1024) (x : Fin 256) (d : List Nat) (r : RecDom), s.chip.power.vin = true →
    causeKind x = some k.val → i.val < kindCount k → x ≠ 0x14 → k ≠ 5 → s.chip.recOf k i = some r →
    (r.state = 3 → exec (.recoveryStart k i x d) s = .next ⟨(s.chip.recLast k i x true).log 0 3 0x0202 i (x.val + 256 * k.val),
      s.pending⟩) ∧
    (r.state ≠ 3 → exec (.recoveryStart k i x d) s = .next ⟨(s.chip.recLast k i x true).recStop r x, s.pending⟩)) ∧
  (∀ (c : Chip) (r : RecDom) (x : Nat), (c.recStop r x).recOf r.kind r.inst = some { r with state := 3 }) ∧
  (∀ (c : Chip) (r : RecDom), bitOf r.kind (c.getF F.GLB_REC_CTRL.MANUAL) = false →
    c.recProceed r = ((c.setRec { r with state := 2, start := c.mt }).recShow).recSteps { r with state := 2, start := c.mt }) ∧
  (∀ (c : Chip) (r : RecDom), bitOf r.kind (c.getF F.GLB_REC_CTRL.MANUAL) = true →
    c.recProceed r = (((c.setRec { r with state := 1 }).log 0 1 0x0203 r.inst (256 * r.kind)).recContain { r with
      state := 1 }).recShow) ∧
  (∀ (s : State) (k : Fin 8) (i : Fin 1024), s.chip.power.vin = true →
    (s.chip.recOf k i = none → exec (.recGo k i) s = .next s ∧ exec (.recoveryBoundExpired k i) s = .next s ∧
      exec (.recoveryEnd k i true) s = .next s) ∧
    (∀ r, s.chip.recOf k i = some r → r.state ≠ 1 → exec (.recGo k i) s = .next s) ∧
    (∀ r, s.chip.recOf k i = some r → r.state = 1 → exec (.recGo k i) s = .next ⟨s.chip.recRun r, s.pending⟩) ∧
    (∀ r, s.chip.recOf k i = some r → r.state = 2 → exec (.recoveryBoundExpired k i) s = .next ⟨(s.chip.recLast k i r.cause
      true).recStop r r.cause, s.pending⟩) ∧
    (∀ r, s.chip.recOf k i = some r → r.state ≠ 2 → exec (.recoveryBoundExpired k i) s = .next s ∧
      exec (.recoveryEnd k i true) s = .next s) ∧
    (∀ r, s.chip.recOf k i = some r → r.state = 2 → exec (.recoveryEnd k i true) s = .next ⟨((((s.chip.rmRec r).recBit
      F.GLB_REC_ACTIVE.V r.kind r.inst false).recRestore r).recLogEnd r.inst (((s.chip.rmRec r).recBit F.GLB_REC_ACTIVE.V r.kind
        r.inst false).mt - r.start)).recShow, s.pending⟩) ∧
    (∀ r, s.chip.recOf k i = some r → r.state = 2 → k = 5 → exec (.recoveryEnd k i false) s = .next ⟨((s.chip.releaseCh i
      false).recLast k i r.cause true).recStop r r.cause, s.pending⟩)) ∧
  (∀ (s : State) (d : List Nat), s.chip.power.vin = true → s.chip.recOf 2 0 = none → d.headD 0 = 0 →
    exec (.recoveryStart 2 0 0x14 d) s = .next ⟨(((((s.chip.raiseGlb F.GLB_STATUS.FAULT_PENDING).recLast 2 0 0x14 false).log 0 2
      0x0200 0 (0x14 + 512)).invalidateTime).recLogEnd 0 0).recShow, s.pending⟩)

/-- From R598 to R606: the steps of each domain leave its neighbours: a lane is re-adapted, a port's tree or MAC restarts, an
engine's ops end with ERROR, a bank leaves and returns to allocation, a gang link leaves service. The model's own choices that
it rests on, which no rule is cited for: log entries 65 and 67. -/
def Obligations.RecoveryStepsStayInTheirDomain : Prop :=
  (∀ (c : Chip) (i x : Nat) (d : List Nat) (st t : Nat),
    c.recSteps ⟨0, i, x, st, t, d⟩ = c.laneRecover i ∧ c.recSteps ⟨1, i, 3, st, t, d⟩ = c.treeRestart i ∧
    c.recSteps ⟨1, i, 2, st, t, d⟩ = c.portRecover i ∧ c.recSteps ⟨2, i, x, st, t, d⟩ = c.sliceRecover ⟨2, i, x, st, t, d⟩ ∧
    c.recSteps ⟨3, i, 8, st, t, d⟩ = c.engineRecover i false ∧ c.recSteps ⟨3, i, 9, st, t, d⟩ = c.engineRecover i true ∧
    c.recSteps ⟨3, i, 0xA, st, t, d⟩ = c ∧ c.recSteps ⟨4, i, 0xB, st, t, d⟩ = c.clusterRecover i ∧
    c.recSteps ⟨5, i, x, st, t, d⟩ = c ∧ c.recSteps ⟨6, i, x, st, t, d⟩ = c.bankEmptied i) ∧
  (∀ (c : Chip) (p : Nat), (c.treeRestart p).pkts = c.pkts ∧ (c.treeRestart p).tm.bindings = c.tm.bindings ∧
    (c.treeRestart p).sched.gates = c.sched.gates ∧ (c.treeRestart p).dram = c.dram) ∧
  (∀ (c : Chip) (b : Nat), b ∉ (c.bankBack b).tm.bankOut ∧ (c.bankBack b).pkts = c.pkts ∧ (c.bankBack b).regs = c.regs) ∧
  (∀ (c : Chip) (a : Nat), memRead (c.lineZero a).dram a 64 = zerosB 64 ∧
    ∀ x, x < a ∨ a + 64 ≤ x → memByte (c.lineZero a).dram x = memByte c.dram x) ∧
  (∀ (c : Chip) (e i : Nat), smWf (fun _ => zerosB 48) c.flow.meters → i / 4096 = e → smFind c.flow.meters i ≠ none →
    ∀ y, y = smGet (fun _ => zerosB 48) c.flow.meters i →
      smGet (fun _ => zerosB 48) (c.metersFull e).flow.meters i = putBe (putBe (putBe y 32 6 (beAt y 8 4 * 8000000)) 38 6
        (beAt y 12 4 * 8000000)) 44 4 c.mt32) ∧
  (∀ (c : Chip) (e i : Nat), i / 4096 ≠ e →
    smGet (fun _ => zerosB 48) (c.metersFull e).flow.meters i = smGet (fun _ => zerosB 48) c.flow.meters i)
end

