-- ==== Sys2Proof/Laws/Bits.lean ====
section
/-! SUPPORT. Bit fields of numbers: a field reads back what was set, and the others stay. -/
namespace Sys2Proof.Machine
open Sys2Proof

/-- A field reads back the value set, taken modulo its width. -/
theorem bitsOf_setBitsOf (hi lo x v : Nat) (h : lo ≤ hi) : bitsOf hi lo (setBitsOf hi lo x v) = v % 2 ^ (hi + 1 - lo) := by
  unfold bitsOf setBitsOf
  have e : 2 ^ (hi + 1) = 2 ^ (hi + 1 - lo) * 2 ^ lo := by rw [← pow_add]; congr 1; omega
  have h2 : x % 2 ^ lo < 2 ^ lo := Nat.mod_lt _ (by positivity)
  rw [e]
  rw [show x / (2 ^ (hi + 1 - lo) * 2 ^ lo) * (2 ^ (hi + 1 - lo) * 2 ^ lo) + v % 2 ^ (hi + 1 - lo) * 2 ^ lo + x % 2 ^ lo
      = x % 2 ^ lo + 2 ^ lo * (x / (2 ^ (hi + 1 - lo) * 2 ^ lo) * 2 ^ (hi + 1 - lo) + v % 2 ^ (hi + 1 - lo)) by ring]
  rw [Nat.add_mul_div_left _ _ (by positivity), Nat.div_eq_of_lt h2, zero_add, Nat.add_mod, Nat.mul_mod_left]
  simp

/-- A field above the one set stays. -/
theorem bitsOf_setBitsOf_above {hi lo h2 l2 : Nat} (x v : Nat) (h : hi < l2) (hl : lo ≤ hi) :
    bitsOf h2 l2 (setBitsOf hi lo x v) = bitsOf h2 l2 x := by
  unfold bitsOf setBitsOf
  have e : 2 ^ l2 = 2 ^ (hi + 1) * 2 ^ (l2 - (hi + 1)) := by rw [← pow_add]; congr 1; omega
  have e1 : 2 ^ (hi + 1) = 2 ^ (hi + 1 - lo) * 2 ^ lo := by rw [← pow_add]; congr 1; omega
  have a1 : x % 2 ^ lo < 2 ^ lo := Nat.mod_lt _ (by positivity)
  have a2 : v % 2 ^ (hi + 1 - lo) < 2 ^ (hi + 1 - lo) := Nat.mod_lt _ (by positivity)
  have low : v % 2 ^ (hi + 1 - lo) * 2 ^ lo + x % 2 ^ lo < 2 ^ (hi + 1) := by
    rw [e1]
    calc v % 2 ^ (hi + 1 - lo) * 2 ^ lo + x % 2 ^ lo < v % 2 ^ (hi + 1 - lo) * 2 ^ lo + 2 ^ lo := by omega
      _ = (v % 2 ^ (hi + 1 - lo) + 1) * 2 ^ lo := by ring
      _ ≤ 2 ^ (hi + 1 - lo) * 2 ^ lo := Nat.mul_le_mul_right _ a2
  rw [e, ← Nat.div_div_eq_div_mul, ← Nat.div_div_eq_div_mul]
  congr 2
  rw [show x / 2 ^ (hi + 1) * 2 ^ (hi + 1) + v % 2 ^ (hi + 1 - lo) * 2 ^ lo + x % 2 ^ lo
      = v % 2 ^ (hi + 1 - lo) * 2 ^ lo + x % 2 ^ lo + 2 ^ (hi + 1) * (x / 2 ^ (hi + 1)) by ring]
  rw [Nat.add_mul_div_left _ _ (by positivity), Nat.div_eq_of_lt low, zero_add]

/-- A field below the one set stays. -/
theorem bitsOf_setBitsOf_below {hi lo h2 l2 : Nat} (x v : Nat) (h : h2 < lo) (hl : lo ≤ hi) :
    bitsOf h2 l2 (setBitsOf hi lo x v) = bitsOf h2 l2 x := by
  unfold bitsOf
  by_cases hh : l2 ≤ h2
  · have e : 2 ^ lo = 2 ^ l2 * 2 ^ (h2 + 1 - l2) * 2 ^ (lo - (h2 + 1)) := by
      rw [← pow_add, ← pow_add]; congr 1; omega
    have e1 : 2 ^ (hi + 1) = 2 ^ (hi + 1 - lo) * 2 ^ lo := by rw [← pow_add]; congr 1; omega
    have hs : setBitsOf hi lo x v % 2 ^ lo = x % 2 ^ lo := by
      unfold setBitsOf
      rw [e1, ← mul_assoc, ← add_mul, Nat.add_mod, Nat.mul_mod_left]; simp
    have key : ∀ y, y / 2 ^ l2 % 2 ^ (h2 + 1 - l2) = (y % 2 ^ lo) / 2 ^ l2 % 2 ^ (h2 + 1 - l2) := by
      intro y
      rw [e, mul_assoc, Nat.mod_mul_right_div_self, Nat.mod_mul_right_mod]
    rw [key, hs, ← key]
  · rw [show h2 + 1 - l2 = 0 by omega]; simp [Nat.mod_one]

theorem bitsOf_lt (hi lo x : Nat) : bitsOf hi lo x < 2 ^ (hi + 1 - lo) := Nat.mod_lt _ (by positivity)

/-- A field of a number below 2^32 set within 32 bits leaves a number below 2^32. -/
theorem setBitsOf_lt {hi lo x v : Nat} (h : lo ≤ hi) (hh : hi < 32) (hx : x < 2 ^ 32) : setBitsOf hi lo x v < 2 ^ 32 := by
  unfold setBitsOf
  have e1 : 2 ^ (hi + 1) = 2 ^ (hi + 1 - lo) * 2 ^ lo := by rw [← pow_add]; congr 1; omega
  have e2 : 2 ^ 32 = 2 ^ (hi + 1) * 2 ^ (32 - (hi + 1)) := by rw [← pow_add]; congr 1; omega
  have a1 : x % 2 ^ lo < 2 ^ lo := Nat.mod_lt _ (by positivity)
  have a2 : v % 2 ^ (hi + 1 - lo) < 2 ^ (hi + 1 - lo) := Nat.mod_lt _ (by positivity)
  have low : v % 2 ^ (hi + 1 - lo) * 2 ^ lo + x % 2 ^ lo < 2 ^ (hi + 1) := by
    rw [e1]
    calc v % 2 ^ (hi + 1 - lo) * 2 ^ lo + x % 2 ^ lo < v % 2 ^ (hi + 1 - lo) * 2 ^ lo + 2 ^ lo := by omega
      _ = (v % 2 ^ (hi + 1 - lo) + 1) * 2 ^ lo := by ring
      _ ≤ 2 ^ (hi + 1 - lo) * 2 ^ lo := Nat.mul_le_mul_right _ a2
  have b1 : x / 2 ^ (hi + 1) < 2 ^ (32 - (hi + 1)) := by
    rw [Nat.div_lt_iff_lt_mul (by positivity)]; rw [e2, mul_comm] at hx; exact hx
  rw [e2, add_assoc]
  calc x / 2 ^ (hi + 1) * 2 ^ (hi + 1) + (v % 2 ^ (hi + 1 - lo) * 2 ^ lo + x % 2 ^ lo)
      < x / 2 ^ (hi + 1) * 2 ^ (hi + 1) + 2 ^ (hi + 1) := by omega
    _ = (x / 2 ^ (hi + 1) + 1) * 2 ^ (hi + 1) := by ring
    _ ≤ 2 ^ (32 - (hi + 1)) * 2 ^ (hi + 1) := Nat.mul_le_mul_right _ b1
    _ = 2 ^ (hi + 1) * 2 ^ (32 - (hi + 1)) := by ring

end Sys2Proof.Machine
end

