-- ==== Sys2Proof/Laws/Sparse.lean ====
section
/-! SUPPORT. Sparse maps: reading after setting, and the canonical form. -/
namespace Sys2Proof.Machine

variable {β : Type}

@[simp] theorem smFind_nil (k : Nat) : smFind ([] : SMap β) k = none := rfl

theorem smFind_smPut (m : SMap β) (a k : Nat) (v : β) : smFind (smPut m a v) k = if a = k then some v else smFind m k := by
  induction m with
  | nil => simp [smPut, smFind]
  | cons e t ih =>
    obtain ⟨x, w⟩ := e
    by_cases h1 : a < x
    · simp [smPut, smFind, h1]
    · by_cases h2 : a = x
      · subst h2; simp only [smPut, smFind, lt_irrefl, if_true, if_false]; split <;> simp_all
      · simp only [smPut, smFind, h1, h2, if_false, ih]
        split
        · next h => subst h; simp [h2]
        · rfl

theorem smFind_smErase (m : SMap β) (a k : Nat) : smFind (smErase m a) k = if a = k then none else smFind m k := by
  induction m with
  | nil => simp [smErase, smFind]
  | cons e t ih =>
    obtain ⟨x, w⟩ := e
    have ht : smFind (t.filter fun e => decide (e.1 ≠ a)) k = if a = k then none else smFind t k := ih
    by_cases h : x = a
    · subst h
      simp only [smErase, List.filter_cons, ne_eq, not_true_eq_false, decide_false, Bool.false_eq_true, if_false, smFind]
      rw [show (List.filter (fun e : Nat × β => decide ¬e.1 = x) t) = t.filter (fun e => decide (e.1 ≠ x)) from rfl, ht]
      split <;> rfl
    · simp only [smErase, List.filter_cons, ne_eq, h, not_false_eq_true, decide_true, if_true, smFind]
      rw [show (List.filter (fun e : Nat × β => decide ¬e.1 = a) t) = t.filter (fun e => decide (e.1 ≠ a)) from rfl, ht]
      by_cases h3 : x = k
      · subst h3; simp [Ne.symm h]
      · simp [h3]

theorem smGet_smPut (d : Nat → β) (m : SMap β) (a k : Nat) (v : β) :
    smGet d (smPut m a v) k = if a = k then v else smGet d m k := by
  unfold smGet; rw [smFind_smPut]; split <;> simp

theorem smGet_smErase (d : Nat → β) (m : SMap β) (a k : Nat) :
    smGet d (smErase m a) k = if a = k then d k else smGet d m k := by
  unfold smGet; rw [smFind_smErase]; split <;> simp

/-- What a map reads as after one key is set. -/
theorem smGet_smSet [DecidableEq β] (d : Nat → β) (m : SMap β) (a k : Nat) (v : β) :
    smGet d (smSet d m a v) k = if a = k then v else smGet d m k := by
  unfold smSet
  split
  · next h => rw [smGet_smErase]; split
              · next h2 => subst h2; exact h.symm
              · rfl
  · rw [smGet_smPut]

theorem mem_smPut {m : SMap β} {a : Nat} {v : β} {e : Nat × β} (h : e ∈ smPut m a v) : e = (a, v) ∨ e ∈ m := by
  induction m with
  | nil => simpa [smPut] using h
  | cons x t ih =>
    obtain ⟨b, w⟩ := x
    simp only [smPut] at h
    split at h
    · simpa using h
    · split at h
      · simp only [List.mem_cons] at h ⊢; tauto
      · simp only [List.mem_cons] at h ⊢
        rcases h with h | h
        · tauto
        · rcases ih h with h | h <;> tauto

theorem smPut_sorted {m : SMap β} {a : Nat} {v : β} (h : (m.map Prod.fst).Pairwise (· < ·)) :
    ((smPut m a v).map Prod.fst).Pairwise (· < ·) := by
  induction m with
  | nil => simp [smPut]
  | cons x t ih =>
    obtain ⟨b, w⟩ := x
    simp only [List.map_cons, List.pairwise_cons] at h
    obtain ⟨hb, ht⟩ := h
    simp only [smPut]
    split
    · next hlt =>
      simp only [List.map_cons, List.pairwise_cons, List.mem_cons]
      refine ⟨?_, hb, ht⟩
      rintro k (rfl | hk)
      · exact hlt
      · exact lt_trans hlt (hb k hk)
    · split
      · next heq => subst heq; simpa only [List.map_cons, List.pairwise_cons] using ⟨hb, ht⟩
      · next hn1 hn2 =>
        simp only [List.map_cons, List.pairwise_cons]
        refine ⟨?_, ih ht⟩
        intro k hk
        obtain ⟨e, he, rfl⟩ := List.mem_map.mp hk
        rcases mem_smPut he with rfl | he
        · exact lt_of_le_of_ne (not_lt.mp hn1) (Ne.symm hn2)
        · exact hb _ (List.mem_map_of_mem he)

theorem smFilter_wf {d : Nat → β} {m : SMap β} (p : Nat × β → Bool) (h : smWf d m) : smWf d (m.filter p) :=
  ⟨h.1.sublist (List.filter_sublist.map _), fun e he => h.2 e (List.mem_of_mem_filter he)⟩

theorem smErase_wf {d : Nat → β} {m : SMap β} {a : Nat} (h : smWf d m) : smWf d (smErase m a) := smFilter_wf _ h

/-- Setting a key keeps the canonical form. -/
theorem smSet_wf [DecidableEq β] {d : Nat → β} {m : SMap β} {a : Nat} {v : β} (h : smWf d m) : smWf d (smSet d m a v) := by
  unfold smSet
  split
  · exact smErase_wf h
  · next hv =>
    refine ⟨smPut_sorted h.1, fun e he => ?_⟩
    rcases mem_smPut he with rfl | he
    · exact hv
    · exact h.2 e he

theorem smWf_nil (d : Nat → β) : smWf d ([] : SMap β) := by simp [smWf]

end Sys2Proof.Machine
end

