-- ==== Sys2Proof/Laws/Memory.lean ====
section
/-! SUPPORT. The sparse memories: reading after writing, and the canonical form that every operation keeps. -/
namespace Sys2Proof.Machine
open Sys2Proof

/-- Every byte of a memory after a write: the byte written where one was, else the old one. -/
theorem memByte_memWrite (m : List Host.Cell) (a : Nat) (bs : Bytes) (k : Nat) :
    memByte (memWrite m a bs) k = if a ≤ k ∧ k < a + bs.length then bs.getD (k - a) 0 else memByte m k := by
  induction bs generalizing m a with
  | nil => simp only [memWrite, List.length_nil, add_zero]; rw [if_neg]; omega
  | cons b t ih =>
    simp only [memWrite, ih, List.length_cons]
    unfold memByte
    rw [smGet_smSet]
    by_cases h : a = k
    · subst h
      rw [if_neg (by omega), if_pos rfl, if_pos (by omega)]; simp
    · by_cases h2 : a + 1 ≤ k ∧ k < a + 1 + t.length
      · rw [if_pos h2, if_pos (by omega)]
        obtain ⟨j, rfl⟩ : ∃ j, k = a + 1 + j := ⟨k - (a + 1), by omega⟩
        rw [show a + 1 + j - (a + 1) = j by omega, show a + 1 + j - a = j + 1 by omega]; simp
      · rw [if_neg h2, if_neg h, if_neg (by omega)]

/-- Outside the bytes written a memory reads as before. -/
theorem memByte_memWrite_outside {m : List Host.Cell} {a : Nat} {bs : Bytes} {k : Nat} (h : k < a ∨ a + bs.length ≤ k) :
    memByte (memWrite m a bs) k = memByte m k := by
  rw [memByte_memWrite, if_neg (by omega)]

/-- A write keeps the canonical form. -/
theorem memWrite_wf {m : List Host.Cell} {a : Nat} {bs : Bytes} (h : Memory.wf m) : Memory.wf (memWrite m a bs) := by
  induction bs generalizing m a with
  | nil => exact h
  | cons b t ih => exact ih (smSet_wf h)

theorem memFilter_wf {m : List Host.Cell} (p : Host.Cell → Bool) (h : Memory.wf m) : Memory.wf (m.filter p) := smFilter_wf p h

/-- What a write leaves reads back as the bytes written. -/
theorem memRead_memWrite (m : List Host.Cell) (a : Nat) (bs : Bytes) : memRead (memWrite m a bs) a bs.length = bs := by
  apply List.ext_getElem
  · simp [memRead]
  · intro i h1 h2
    simp only [memRead, List.getElem_map, List.getElem_range, memByte_memWrite]
    rw [if_pos (by omega), show a + i - a = i by omega, List.getD_eq_getElem _ _ h2]

end Sys2Proof.Machine
end

