-- ==== Sys2Proof/Laws/Registers.lean ====
section
/-! SUPPORT. Registers: reading a word or a field after a write of it or of another, and what an event raised, an interrupt
message, a completed command and a log entry leave unchanged. -/
namespace Sys2Proof.Machine
open Sys2Proof

/-- A field lies within a register word. -/
abbrev Fld.fits (f : Fld) : Prop := f.lo ≤ f.hi ∧ f.hi < 32

/-! ### Words and fields -/

theorem Chip.rd_wr (c : Chip) (a : Nat) (v : Word) (k : Nat) : (c.wr a v).rd k = if a = k then v else c.rd k := by
  unfold Chip.rd Chip.wr; exact smGet_smSet ..

@[simp] theorem Chip.rd_wr_same (c : Chip) (a : Nat) (v : Word) : (c.wr a v).rd a = v := by simp [Chip.rd_wr]

theorem Chip.rd_wr_ne {c : Chip} {a k : Nat} {v : Word} (h : k ≠ a) : (c.wr a v).rd k = c.rd k := by
  rw [Chip.rd_wr, if_neg (Ne.symm h)]

theorem Chip.rd_putF_ne {c : Chip} {f : Fld} {v i j k : Nat} (h : k ≠ f.addr i j) : (c.putF f v i j).rd k = c.rd k :=
  Chip.rd_wr_ne h

/-- A field reads back the value put, taken modulo its width. -/
theorem Chip.getF_putF {f : Fld} (h : f.fits) (c : Chip) (v i j : Nat) : (c.putF f v i j).getF f i j = v % 2 ^ f.width := by
  unfold Chip.getF Chip.putF
  rw [Chip.rd_wr_same, BitVec.toNat_ofNat, Nat.mod_eq_of_lt (setBitsOf_lt h.1 h.2 (c.rd _).isLt), bitsOf_setBitsOf _ _ _ _ h.1]
  rfl

/-- A field of another register stays. -/
theorem Chip.getF_putF_ne {c : Chip} {f g : Fld} {v i j k l : Nat} (h : g.addr k l ≠ f.addr i j) :
    (c.putF f v i j).getF g k l = c.getF g k l := by
  unfold Chip.getF; rw [Chip.rd_putF_ne h]

/-- A field of the same register with other bits stays. -/
theorem Chip.getF_putF_bits {c : Chip} {f g : Fld} {v i j k l : Nat} (hf : f.fits) (h : f.hi < g.lo ∨ g.hi < f.lo) :
    (c.putF f v i j).getF g k l = c.getF g k l := by
  by_cases ha : g.addr k l = f.addr i j
  · unfold Chip.getF Chip.putF
    rw [ha, Chip.rd_wr_same, BitVec.toNat_ofNat, Nat.mod_eq_of_lt (setBitsOf_lt hf.1 hf.2 (c.rd _).isLt)]
    rcases h with h | h
    · exact bitsOf_setBitsOf_above _ _ h hf.1
    · exact bitsOf_setBitsOf_below _ _ h hf.1
  · exact Chip.getF_putF_ne ha

theorem Chip.flag_putF {f : Fld} (h : f.fits) (c : Chip) (v i j : Nat) :
    (c.putF f v i j).flag f i j = (v % 2 ^ f.width != 0) := by
  unfold Chip.flag; rw [Chip.getF_putF h]

theorem Chip.flag_putF_ne {c : Chip} {f g : Fld} {v i j k l : Nat} (h : g.addr k l ≠ f.addr i j) :
    (c.putF f v i j).flag g k l = c.flag g k l := by
  unfold Chip.flag; rw [Chip.getF_putF_ne h]

theorem Chip.flag_putF_bits {c : Chip} {f g : Fld} {v i j k l : Nat} (hf : f.fits) (h : f.hi < g.lo ∨ g.hi < f.lo) :
    (c.putF f v i j).flag g k l = c.flag g k l := by
  unfold Chip.flag; rw [Chip.getF_putF_bits hf h]

theorem Chip.getF_lt (c : Chip) (f : Fld) (i j : Nat) : c.getF f i j < 2 ^ f.width := bitsOf_lt ..

/-- Two consecutive registers read back the value put, taken modulo 2^64. -/
theorem Chip.getQ_putQ (c : Chip) (f : Fld) (v i j : Nat) : (c.putQ f v i j).getQ f i j = v % 2 ^ 64 := by
  unfold Chip.getQ Chip.putQ
  rw [Chip.rd_wr_ne (by omega), Chip.rd_wr_same, Chip.rd_wr_same]
  simp only [BitVec.toNat_ofNat]
  omega

theorem Chip.rd_putQ_ne {c : Chip} {f : Fld} {v i j k : Nat} (h : k ≠ f.addr i j) (h2 : k ≠ f.addr i j + 4) :
    (c.putQ f v i j).rd k = c.rd k := by
  unfold Chip.putQ; rw [Chip.rd_wr_ne h2, Chip.rd_wr_ne h]

/-! ### Messages, events and completions: registers -/

/-- The pending-bit words of MSI-X. -/
def isPba (a : Nat) : Prop := 0x88000 ≤ a ∧ a < 0x88100

/-- A message leaves every register but a pending bit. -/
theorem Chip.rd_message {c : Chip} {v k : Nat} (hv : v < 2048) (hk : ¬isPba k) : (c.message v).rd k = c.rd k := by
  unfold Chip.message
  simp only []
  split
  · refine Chip.rd_putF_ne fun h => hk ?_
    rw [h]; unfold isPba Fld.addr F.HST_MSIX_PBA.V; simp only []; omega
  · repeat' split
    all_goals rfl

theorem Chip.rd_sourceRise {c : Chip} {n k : Nat} (hk : ¬isPba k) : (c.sourceRise n).rd k = c.rd k := by
  unfold Chip.sourceRise
  split
  · rfl
  · exact Chip.rd_message (lt_of_lt_of_le (Chip.getF_lt ..) (by decide)) hk

/-- A raised event changes its own register and a pending bit. -/
theorem Chip.rd_raise {c : Chip} {f : Fld} {i k : Nat} (h : k ≠ f.addr i) (hk : ¬isPba k) : (c.raise f i).rd k = c.rd k := by
  unfold Chip.raise
  simp only []
  split
  · exact Chip.rd_putF_ne h
  · split
    · rw [Chip.rd_sourceRise hk, Chip.rd_putF_ne h]
    · exact Chip.rd_putF_ne h

theorem Chip.rd_raise_self {c : Chip} {f : Fld} {i : Nat} (hk : ¬isPba (f.addr i)) :
    (c.raise f i).rd (f.addr i) = (c.putF f 1 i).rd (f.addr i) := by
  unfold Chip.raise
  simp only []
  split
  · rfl
  · split
    · rw [Chip.rd_sourceRise hk]
    · rfl

theorem Chip.rd_raiseDone {c : Chip} {f : Fld} {i k : Nat} (h : k ≠ f.addr i) (hk : ¬isPba k) :
    (c.raiseDone f i).rd k = c.rd k := by
  unfold Chip.raiseDone
  simp only []
  split
  · exact Chip.rd_putF_ne h
  · split
    · rw [Chip.rd_sourceRise hk, Chip.rd_putF_ne h]
    · exact Chip.rd_putF_ne h

theorem Chip.rd_raiseDone_self {c : Chip} {f : Fld} {i : Nat} (hk : ¬isPba (f.addr i)) :
    (c.raiseDone f i).rd (f.addr i) = (c.putF f 1 i).rd (f.addr i) := by
  unfold Chip.raiseDone
  simp only []
  split
  · rfl
  · split
    · rw [Chip.rd_sourceRise hk]
    · rfl

/-- A raised event bit reads 1. -/
theorem Chip.getF_raise_self {c : Chip} {f : Fld} {i : Nat} (hf : f.fits) (hw : f.hi = f.lo) (hk : ¬isPba (f.addr i)) :
    (c.raise f i).getF f i = 1 := by
  have := Chip.getF_putF hf c 1 i 0
  unfold Chip.getF at this ⊢
  rw [Chip.rd_raise_self hk, this]
  unfold Fld.width; rw [hw]
  simp

theorem Chip.getF_raise_ne {c : Chip} {f g : Fld} {i k l : Nat} (h : g.addr k l ≠ f.addr i) (hk : ¬isPba (g.addr k l)) :
    (c.raise f i).getF g k l = c.getF g k l := by
  unfold Chip.getF; rw [Chip.rd_raise h hk]

theorem Chip.getF_raise_bits {c : Chip} {f g : Fld} {i k l : Nat} (hf : f.fits) (h : f.hi < g.lo ∨ g.hi < f.lo)
    (hk : ¬isPba (g.addr k l)) : (c.raise f i).getF g k l = c.getF g k l := by
  by_cases ha : g.addr k l = f.addr i
  · have e := Chip.getF_putF_bits (c := c) (v := 1) (i := i) (j := 0) (k := k) (l := l) hf h
    unfold Chip.getF at e ⊢
    rw [ha] at e hk ⊢
    rw [Chip.rd_raise_self hk]; exact e
  · exact Chip.getF_raise_ne ha hk

theorem Chip.getF_raiseDone_ne {c : Chip} {f g : Fld} {i k l : Nat} (h : g.addr k l ≠ f.addr i) (hk : ¬isPba (g.addr k l)) :
    (c.raiseDone f i).getF g k l = c.getF g k l := by
  unfold Chip.getF; rw [Chip.rd_raiseDone h hk]

theorem Chip.getF_raiseDone_bits {c : Chip} {f g : Fld} {i k l : Nat} (hf : f.fits) (h : f.hi < g.lo ∨ g.hi < f.lo)
    (hk : ¬isPba (g.addr k l)) : (c.raiseDone f i).getF g k l = c.getF g k l := by
  by_cases ha : g.addr k l = f.addr i
  · have e := Chip.getF_putF_bits (c := c) (v := 1) (i := i) (j := 0) (k := k) (l := l) hf h
    unfold Chip.getF at e ⊢
    rw [ha] at e hk ⊢
    rw [Chip.rd_raiseDone_self hk]; exact e
  · exact Chip.getF_raiseDone_ne ha hk

theorem Chip.getF_raiseDone_self {c : Chip} {f : Fld} {i : Nat} (hf : f.fits) (hw : f.hi = f.lo) (hk : ¬isPba (f.addr i)) :
    (c.raiseDone f i).getF f i = 1 := by
  have := Chip.getF_putF hf c 1 i 0
  unfold Chip.getF at this ⊢
  rw [Chip.rd_raiseDone_self hk, this]
  unfold Fld.width; rw [hw]
  simp

/-! ### Messages, events and completions: everything else -/

/-- Two devices that differ at most in registers, host memory and the host block's message times. -/
structure Chip.quiet (c d : Chip) : Prop where
  dram : d.dram = c.dram
  wideCap : d.wideCap = c.wideCap
  wideStage : d.wideStage = c.wideStage
  freeCtr : d.freeCtr = c.freeCtr
  rdData : d.rdData = c.rdData
  power : d.power = c.power
  flash : d.flash = c.flash
  time : d.time = c.time
  mgt : d.mgt = c.mgt
  sfl : d.sfl = c.sfl
  lanes : d.lanes = c.lanes
  ports : d.ports = c.ports
  sites : d.sites = c.sites
  pkts : d.pkts = c.pkts
  parse : d.parse = c.parse
  rules : d.rules = c.rules
  tern : d.tern = c.tern
  pattern : d.pattern = c.pattern
  tm : d.tm = c.tm
  sched : d.sched = c.sched
  hbm : d.hbm = c.hbm
  tel : d.tel = c.tel
  flow : d.flow = c.flow
  gang : d.gang = c.gang
  act : d.act = c.act
  wds : d.wds = c.wds
  plate : d.plate = c.plate
  recov : d.recov = c.recov
  rings : d.host.rings = c.host.rings
  win : d.host.win = c.host.win
  perst : d.host.perst = c.host.perst
  rdBytes : d.host.rdBytes = c.host.rdBytes

theorem Chip.quiet_refl (c : Chip) : c.quiet c := by constructor <;> rfl

theorem Chip.quiet_trans {c d e : Chip} (h : c.quiet d) (k : d.quiet e) : c.quiet e := by
  constructor <;> (first | rw [k.1, h.1] | skip) <;> first
    | exact k.1.trans h.1 | exact k.2.trans h.2 | exact k.3.trans h.3 | exact k.4.trans h.4 | exact k.5.trans h.5
    | exact k.6.trans h.6 | exact k.7.trans h.7 | exact k.8.trans h.8 | exact k.9.trans h.9 | exact k.10.trans h.10
    | exact k.11.trans h.11 | exact k.12.trans h.12 | exact k.13.trans h.13 | exact k.14.trans h.14 | exact k.15.trans h.15
    | exact k.16.trans h.16 | exact k.17.trans h.17 | exact k.18.trans h.18 | exact k.19.trans h.19 | exact k.20.trans h.20
    | exact k.21.trans h.21 | exact k.22.trans h.22 | exact k.23.trans h.23 | exact k.24.trans h.24 | exact k.25.trans h.25
    | exact k.26.trans h.26 | exact k.27.trans h.27 | exact k.28.trans h.28 | exact k.29.trans h.29 | exact k.30.trans h.30
    | exact k.31.trans h.31 | exact k.32.trans h.32

theorem Chip.quiet_wr (c : Chip) (a : Nat) (v : Word) : c.quiet (c.wr a v) := by constructor <;> rfl

theorem Chip.quiet_putF (c : Chip) (f : Fld) (v i j : Nat) : c.quiet (c.putF f v i j) := c.quiet_wr _ _

theorem Chip.quiet_putQ (c : Chip) (f : Fld) (v i j : Nat) : c.quiet (c.putQ f v i j) :=
  Chip.quiet_trans (c.quiet_wr _ _) (Chip.quiet_wr _ _ _)

theorem Chip.quiet_message (c : Chip) (v : Nat) : c.quiet (c.message v) := by
  unfold Chip.message
  simp only []
  split
  · exact c.quiet_putF ..
  · repeat' split
    all_goals constructor <;> rfl

theorem Chip.quiet_sourceRise (c : Chip) (n : Nat) : c.quiet (c.sourceRise n) := by
  unfold Chip.sourceRise
  split
  · exact c.quiet_refl
  · exact c.quiet_message _

theorem Chip.quiet_raise (c : Chip) (f : Fld) (i : Nat) : c.quiet (c.raise f i) := by
  unfold Chip.raise
  simp only []
  split
  · exact c.quiet_putF ..
  · split
    · exact Chip.quiet_trans (c.quiet_putF ..) (Chip.quiet_sourceRise _ _)
    · exact c.quiet_putF ..

theorem Chip.quiet_raiseDone (c : Chip) (f : Fld) (i : Nat) : c.quiet (c.raiseDone f i) := by
  unfold Chip.raiseDone
  simp only []
  split
  · exact c.quiet_putF ..
  · split
    · exact Chip.quiet_trans (c.quiet_putF ..) (Chip.quiet_sourceRise _ _)
    · exact c.quiet_putF ..

theorem Chip.quiet_raiseGlb (c : Chip) (f : Fld) : c.quiet (c.raiseGlb f) := by
  unfold Chip.raiseGlb
  simp only []
  split
  · exact c.quiet_putF ..
  · exact Chip.quiet_trans (c.quiet_putF ..) (Chip.quiet_sourceRise _ _)

/-- A command completes without touching anything but registers and the message of its DONE bit. -/
theorem Chip.quiet_finish (c : Chip) (p : Port) (st i : Nat) : c.quiet (c.finish p st i) :=
  Chip.quiet_trans (Chip.quiet_trans (c.quiet_putF ..) (Chip.quiet_putF ..)) (Chip.quiet_raiseDone ..)

theorem Chip.quiet_bump (c : Chip) (f : Fld) (i j n : Nat) : c.quiet (c.bump f i j n) := c.quiet_putF ..

theorem Chip.quiet_bumpWrap (c : Chip) (f : Fld) (i j n : Nat) : c.quiet (c.bumpWrap f i j n) := c.quiet_putF ..

theorem Chip.quiet_sink (c : Chip) (f : Fld) (i j n : Nat) : c.quiet (c.sink f i j n) := c.quiet_putF ..

theorem Chip.quiet_gap (c : Chip) (n : Nat) : c.quiet (c.gap n) :=
  Chip.quiet_trans (c.quiet_putF ..) (Chip.quiet_raise ..)

/-! ### Command ports -/

/-- The fields of a port lie in one register word outside the pending bits of MSI-X, each with bits of its own. -/
def Port.laid (p : Port) (i : Nat) : Prop :=
  p.done.fits ∧ p.running.fits ∧ p.status.fits ∧ p.done.hi = p.done.lo ∧ p.running.hi = p.running.lo ∧
  p.status.hi < p.running.lo ∧ p.running.hi < p.done.lo ∧ p.status.width = 4 ∧
  p.running.addr i = p.done.addr i ∧ p.status.addr i = p.done.addr i ∧ ¬isPba (p.done.addr i)

/-- A completed command has STATUS its status, RUNNING 0 and DONE 1. -/
theorem Chip.finish_status {c : Chip} {p : Port} {st i : Nat} (h : p.laid i) (hst : st < 16) :
    (c.finish p st i).getF p.status i = st ∧ (c.finish p st i).getF p.running i = 0 ∧ (c.finish p st i).getF p.done i = 1 := by
  obtain ⟨hd, hr, hs, wd, wr, sr, rd, ws, ar, as, np⟩ := h
  have e1 : p.status.addr i = p.status.addr i 0 := rfl
  refine ⟨?_, ?_, ?_⟩
  · unfold Chip.finish
    rw [Chip.getF_raiseDone_bits hd (Or.inr (lt_of_lt_of_le sr (le_trans hr.1 (le_of_lt rd)))) (by rw [as]; exact np)]
    rw [Chip.getF_putF_bits hr (Or.inr sr), Chip.getF_putF hs, ws]
    exact Nat.mod_eq_of_lt hst
  · unfold Chip.finish
    rw [Chip.getF_raiseDone_bits hd (Or.inr rd) (by rw [ar]; exact np), Chip.getF_putF hr]
    simp
  · unfold Chip.finish
    exact Chip.getF_raiseDone_self hd wd np

/-- A completed command leaves every other register word but a pending bit. -/
theorem Chip.rd_finish {c : Chip} {p : Port} {st i k : Nat} (h : p.laid i) (hk : k ≠ p.done.addr i) (hp : ¬isPba k) :
    (c.finish p st i).rd k = c.rd k := by
  obtain ⟨-, -, -, -, -, -, -, -, ar, as, -⟩ := h
  unfold Chip.finish
  rw [Chip.rd_raiseDone hk hp, Chip.rd_putF_ne (by rw [ar]; exact hk), Chip.rd_putF_ne (by rw [as]; exact hk)]

end Sys2Proof.Machine
end

