-- ==== Sys2Proof/Laws/State.lean ====
section
/-! SUPPORT. Updates of the state: what each named update leaves as it is, field by field, and what is read back. -/
namespace Sys2Proof.Machine
open Sys2Proof

/-! ### The state and its queue -/

@[simp] theorem State.on_vin {s : State} (h : s.chip.power.vin = true) (f : Chip → Chip) : s.on f = .next ⟨f s.chip, s.pending⟩ := by
  simp [State.on, h]

@[simp] theorem State.on_unpowered {s : State} (h : s.chip.power.vin = false) (f : Chip → Chip) : s.on f = .next s := by
  simp [State.on, h]

@[simp] theorem State.onAny_eq (s : State) (f : Chip → Chip) : s.onAny f = .next ⟨f s.chip, s.pending⟩ := rfl

theorem step_nil {s : State} (h : s.pending = []) : step s = .next s := by unfold step; rw [h]

theorem step_cons {s : State} {c : Instr} {r : List Instr} (h : s.pending = c :: r) :
    step s = exec c { s with pending := r } := by unfold step; rw [h]

/-! ### What an update leaves -/

@[simp] theorem Chip.wr_frame (c : Chip) (a : Nat) (v : Word) :
    (c.wr a v).wideCap = c.wideCap ∧ (c.wr a v).wideStage = c.wideStage ∧ (c.wr a v).dram = c.dram ∧
    (c.wr a v).hostMem = c.hostMem ∧ (c.wr a v).freeCtr = c.freeCtr ∧ (c.wr a v).rdData = c.rdData ∧
    (c.wr a v).power = c.power ∧ (c.wr a v).flash = c.flash ∧ (c.wr a v).time = c.time ∧ (c.wr a v).mgt = c.mgt ∧
    (c.wr a v).sfl = c.sfl ∧ (c.wr a v).lanes = c.lanes ∧ (c.wr a v).ports = c.ports ∧ (c.wr a v).sites = c.sites ∧
    (c.wr a v).pkts = c.pkts ∧ (c.wr a v).parse = c.parse ∧ (c.wr a v).rules = c.rules ∧ (c.wr a v).tern = c.tern ∧
    (c.wr a v).pattern = c.pattern ∧ (c.wr a v).tm = c.tm ∧ (c.wr a v).sched = c.sched ∧ (c.wr a v).hbm = c.hbm ∧
    (c.wr a v).tel = c.tel ∧ (c.wr a v).host = c.host ∧ (c.wr a v).flow = c.flow ∧ (c.wr a v).gang = c.gang ∧
    (c.wr a v).act = c.act ∧ (c.wr a v).wds = c.wds ∧ (c.wr a v).plate = c.plate ∧ (c.wr a v).recov = c.recov := by
  refine ⟨?_, ?_, ?_, ?_, ?_, ?_, ?_, ?_, ?_, ?_, ?_, ?_, ?_, ?_, ?_, ?_, ?_, ?_, ?_, ?_, ?_, ?_, ?_, ?_, ?_, ?_, ?_, ?_, ?_, ?_⟩ <;> rfl

@[simp] theorem Chip.putF_frame (c : Chip) (f : Fld) (v i j : Nat) :
    (c.putF f v i j).wideCap = c.wideCap ∧ (c.putF f v i j).wideStage = c.wideStage ∧ (c.putF f v i j).dram = c.dram ∧
    (c.putF f v i j).hostMem = c.hostMem ∧ (c.putF f v i j).freeCtr = c.freeCtr ∧ (c.putF f v i j).rdData = c.rdData ∧
    (c.putF f v i j).power = c.power ∧ (c.putF f v i j).flash = c.flash ∧ (c.putF f v i j).time = c.time ∧
    (c.putF f v i j).mgt = c.mgt ∧ (c.putF f v i j).sfl = c.sfl ∧ (c.putF f v i j).lanes = c.lanes ∧
    (c.putF f v i j).ports = c.ports ∧ (c.putF f v i j).sites = c.sites ∧ (c.putF f v i j).pkts = c.pkts ∧
    (c.putF f v i j).parse = c.parse ∧ (c.putF f v i j).rules = c.rules ∧ (c.putF f v i j).tern = c.tern ∧
    (c.putF f v i j).pattern = c.pattern ∧ (c.putF f v i j).tm = c.tm ∧ (c.putF f v i j).sched = c.sched ∧
    (c.putF f v i j).hbm = c.hbm ∧ (c.putF f v i j).tel = c.tel ∧ (c.putF f v i j).host = c.host ∧
    (c.putF f v i j).flow = c.flow ∧ (c.putF f v i j).gang = c.gang ∧ (c.putF f v i j).act = c.act ∧
    (c.putF f v i j).wds = c.wds ∧ (c.putF f v i j).plate = c.plate ∧ (c.putF f v i j).recov = c.recov := by
  refine ⟨?_, ?_, ?_, ?_, ?_, ?_, ?_, ?_, ?_, ?_, ?_, ?_, ?_, ?_, ?_, ?_, ?_, ?_, ?_, ?_, ?_, ?_, ?_, ?_, ?_, ?_, ?_, ?_, ?_, ?_⟩ <;> rfl

@[simp] theorem Chip.putQ_frame (c : Chip) (f : Fld) (v i j : Nat) :
    (c.putQ f v i j).wideCap = c.wideCap ∧ (c.putQ f v i j).wideStage = c.wideStage ∧ (c.putQ f v i j).dram = c.dram ∧
    (c.putQ f v i j).hostMem = c.hostMem ∧ (c.putQ f v i j).freeCtr = c.freeCtr ∧ (c.putQ f v i j).rdData = c.rdData ∧
    (c.putQ f v i j).power = c.power ∧ (c.putQ f v i j).flash = c.flash ∧ (c.putQ f v i j).time = c.time ∧
    (c.putQ f v i j).mgt = c.mgt ∧ (c.putQ f v i j).sfl = c.sfl ∧ (c.putQ f v i j).lanes = c.lanes ∧
    (c.putQ f v i j).ports = c.ports ∧ (c.putQ f v i j).sites = c.sites ∧ (c.putQ f v i j).pkts = c.pkts ∧
    (c.putQ f v i j).parse = c.parse ∧ (c.putQ f v i j).rules = c.rules ∧ (c.putQ f v i j).tern = c.tern ∧
    (c.putQ f v i j).pattern = c.pattern ∧ (c.putQ f v i j).tm = c.tm ∧ (c.putQ f v i j).sched = c.sched ∧
    (c.putQ f v i j).hbm = c.hbm ∧ (c.putQ f v i j).tel = c.tel ∧ (c.putQ f v i j).host = c.host ∧
    (c.putQ f v i j).flow = c.flow ∧ (c.putQ f v i j).gang = c.gang ∧ (c.putQ f v i j).act = c.act ∧
    (c.putQ f v i j).wds = c.wds ∧ (c.putQ f v i j).plate = c.plate ∧ (c.putQ f v i j).recov = c.recov := by
  refine ⟨?_, ?_, ?_, ?_, ?_, ?_, ?_, ?_, ?_, ?_, ?_, ?_, ?_, ?_, ?_, ?_, ?_, ?_, ?_, ?_, ?_, ?_, ?_, ?_, ?_, ?_, ?_, ?_, ?_, ?_⟩ <;> rfl

@[simp] theorem Chip.bump_frame (c : Chip) (f : Fld) (i j n : Nat) :
    (c.bump f i j n).wideCap = c.wideCap ∧ (c.bump f i j n).wideStage = c.wideStage ∧ (c.bump f i j n).dram = c.dram ∧
    (c.bump f i j n).hostMem = c.hostMem ∧ (c.bump f i j n).freeCtr = c.freeCtr ∧ (c.bump f i j n).rdData = c.rdData ∧
    (c.bump f i j n).power = c.power ∧ (c.bump f i j n).flash = c.flash ∧ (c.bump f i j n).time = c.time ∧
    (c.bump f i j n).mgt = c.mgt ∧ (c.bump f i j n).sfl = c.sfl ∧ (c.bump f i j n).lanes = c.lanes ∧
    (c.bump f i j n).ports = c.ports ∧ (c.bump f i j n).sites = c.sites ∧ (c.bump f i j n).pkts = c.pkts ∧
    (c.bump f i j n).parse = c.parse ∧ (c.bump f i j n).rules = c.rules ∧ (c.bump f i j n).tern = c.tern ∧
    (c.bump f i j n).pattern = c.pattern ∧ (c.bump f i j n).tm = c.tm ∧ (c.bump f i j n).sched = c.sched ∧
    (c.bump f i j n).hbm = c.hbm ∧ (c.bump f i j n).tel = c.tel ∧ (c.bump f i j n).host = c.host ∧
    (c.bump f i j n).flow = c.flow ∧ (c.bump f i j n).gang = c.gang ∧ (c.bump f i j n).act = c.act ∧
    (c.bump f i j n).wds = c.wds ∧ (c.bump f i j n).plate = c.plate ∧ (c.bump f i j n).recov = c.recov := by
  refine ⟨?_, ?_, ?_, ?_, ?_, ?_, ?_, ?_, ?_, ?_, ?_, ?_, ?_, ?_, ?_, ?_, ?_, ?_, ?_, ?_, ?_, ?_, ?_, ?_, ?_, ?_, ?_, ?_, ?_, ?_⟩ <;> rfl

@[simp] theorem Chip.bumpWrap_frame (c : Chip) (f : Fld) (i j n : Nat) :
    (c.bumpWrap f i j n).wideCap = c.wideCap ∧ (c.bumpWrap f i j n).wideStage = c.wideStage ∧
    (c.bumpWrap f i j n).dram = c.dram ∧ (c.bumpWrap f i j n).hostMem = c.hostMem ∧
    (c.bumpWrap f i j n).freeCtr = c.freeCtr ∧ (c.bumpWrap f i j n).rdData = c.rdData ∧
    (c.bumpWrap f i j n).power = c.power ∧ (c.bumpWrap f i j n).flash = c.flash ∧ (c.bumpWrap f i j n).time = c.time ∧
    (c.bumpWrap f i j n).mgt = c.mgt ∧ (c.bumpWrap f i j n).sfl = c.sfl ∧ (c.bumpWrap f i j n).lanes = c.lanes ∧
    (c.bumpWrap f i j n).ports = c.ports ∧ (c.bumpWrap f i j n).sites = c.sites ∧ (c.bumpWrap f i j n).pkts = c.pkts ∧
    (c.bumpWrap f i j n).parse = c.parse ∧ (c.bumpWrap f i j n).rules = c.rules ∧ (c.bumpWrap f i j n).tern = c.tern ∧
    (c.bumpWrap f i j n).pattern = c.pattern ∧ (c.bumpWrap f i j n).tm = c.tm ∧ (c.bumpWrap f i j n).sched = c.sched ∧
    (c.bumpWrap f i j n).hbm = c.hbm ∧ (c.bumpWrap f i j n).tel = c.tel ∧ (c.bumpWrap f i j n).host = c.host ∧
    (c.bumpWrap f i j n).flow = c.flow ∧ (c.bumpWrap f i j n).gang = c.gang ∧ (c.bumpWrap f i j n).act = c.act ∧
    (c.bumpWrap f i j n).wds = c.wds ∧ (c.bumpWrap f i j n).plate = c.plate ∧ (c.bumpWrap f i j n).recov = c.recov := by
  refine ⟨?_, ?_, ?_, ?_, ?_, ?_, ?_, ?_, ?_, ?_, ?_, ?_, ?_, ?_, ?_, ?_, ?_, ?_, ?_, ?_, ?_, ?_, ?_, ?_, ?_, ?_, ?_, ?_, ?_, ?_⟩ <;> rfl

@[simp] theorem Chip.useFree_frame (c : Chip) :
    (c.useFree).regs = c.regs ∧ (c.useFree).wideCap = c.wideCap ∧ (c.useFree).wideStage = c.wideStage ∧
    (c.useFree).dram = c.dram ∧ (c.useFree).hostMem = c.hostMem ∧ (c.useFree).rdData = c.rdData ∧
    (c.useFree).power = c.power ∧ (c.useFree).flash = c.flash ∧ (c.useFree).time = c.time ∧ (c.useFree).mgt = c.mgt ∧
    (c.useFree).sfl = c.sfl ∧ (c.useFree).lanes = c.lanes ∧ (c.useFree).ports = c.ports ∧ (c.useFree).sites = c.sites ∧
    (c.useFree).pkts = c.pkts ∧ (c.useFree).parse = c.parse ∧ (c.useFree).rules = c.rules ∧ (c.useFree).tern = c.tern ∧
    (c.useFree).pattern = c.pattern ∧ (c.useFree).tm = c.tm ∧ (c.useFree).sched = c.sched ∧ (c.useFree).hbm = c.hbm ∧
    (c.useFree).tel = c.tel ∧ (c.useFree).host = c.host ∧ (c.useFree).flow = c.flow ∧ (c.useFree).gang = c.gang ∧
    (c.useFree).act = c.act ∧ (c.useFree).wds = c.wds ∧ (c.useFree).plate = c.plate ∧ (c.useFree).recov = c.recov := by
  refine ⟨?_, ?_, ?_, ?_, ?_, ?_, ?_, ?_, ?_, ?_, ?_, ?_, ?_, ?_, ?_, ?_, ?_, ?_, ?_, ?_, ?_, ?_, ?_, ?_, ?_, ?_, ?_, ?_, ?_, ?_⟩ <;> rfl

@[simp] theorem Chip.dramWrite_frame (c : Chip) (a : Nat) (bs : Bytes) :
    (c.dramWrite a bs).regs = c.regs ∧ (c.dramWrite a bs).wideCap = c.wideCap ∧ (c.dramWrite a bs).wideStage = c.wideStage ∧
    (c.dramWrite a bs).hostMem = c.hostMem ∧ (c.dramWrite a bs).freeCtr = c.freeCtr ∧ (c.dramWrite a bs).rdData = c.rdData ∧
    (c.dramWrite a bs).power = c.power ∧ (c.dramWrite a bs).flash = c.flash ∧ (c.dramWrite a bs).time = c.time ∧
    (c.dramWrite a bs).mgt = c.mgt ∧ (c.dramWrite a bs).sfl = c.sfl ∧ (c.dramWrite a bs).lanes = c.lanes ∧
    (c.dramWrite a bs).ports = c.ports ∧ (c.dramWrite a bs).sites = c.sites ∧ (c.dramWrite a bs).pkts = c.pkts ∧
    (c.dramWrite a bs).parse = c.parse ∧ (c.dramWrite a bs).rules = c.rules ∧ (c.dramWrite a bs).tern = c.tern ∧
    (c.dramWrite a bs).pattern = c.pattern ∧ (c.dramWrite a bs).tm = c.tm ∧ (c.dramWrite a bs).sched = c.sched ∧
    (c.dramWrite a bs).hbm = c.hbm ∧ (c.dramWrite a bs).tel = c.tel ∧ (c.dramWrite a bs).host = c.host ∧
    (c.dramWrite a bs).flow = c.flow ∧ (c.dramWrite a bs).gang = c.gang ∧ (c.dramWrite a bs).act = c.act ∧
    (c.dramWrite a bs).wds = c.wds ∧ (c.dramWrite a bs).plate = c.plate ∧ (c.dramWrite a bs).recov = c.recov := by
  refine ⟨?_, ?_, ?_, ?_, ?_, ?_, ?_, ?_, ?_, ?_, ?_, ?_, ?_, ?_, ?_, ?_, ?_, ?_, ?_, ?_, ?_, ?_, ?_, ?_, ?_, ?_, ?_, ?_, ?_, ?_⟩ <;> rfl

@[simp] theorem Chip.hostWrite_frame (c : Chip) (a : Nat) (bs : Bytes) :
    (c.hostWrite a bs).regs = c.regs ∧ (c.hostWrite a bs).wideCap = c.wideCap ∧ (c.hostWrite a bs).wideStage = c.wideStage ∧
    (c.hostWrite a bs).dram = c.dram ∧ (c.hostWrite a bs).freeCtr = c.freeCtr ∧ (c.hostWrite a bs).rdData = c.rdData ∧
    (c.hostWrite a bs).power = c.power ∧ (c.hostWrite a bs).flash = c.flash ∧ (c.hostWrite a bs).time = c.time ∧
    (c.hostWrite a bs).mgt = c.mgt ∧ (c.hostWrite a bs).sfl = c.sfl ∧ (c.hostWrite a bs).lanes = c.lanes ∧
    (c.hostWrite a bs).ports = c.ports ∧ (c.hostWrite a bs).sites = c.sites ∧ (c.hostWrite a bs).pkts = c.pkts ∧
    (c.hostWrite a bs).parse = c.parse ∧ (c.hostWrite a bs).rules = c.rules ∧ (c.hostWrite a bs).tern = c.tern ∧
    (c.hostWrite a bs).pattern = c.pattern ∧ (c.hostWrite a bs).tm = c.tm ∧ (c.hostWrite a bs).sched = c.sched ∧
    (c.hostWrite a bs).hbm = c.hbm ∧ (c.hostWrite a bs).tel = c.tel ∧ (c.hostWrite a bs).host = c.host ∧
    (c.hostWrite a bs).flow = c.flow ∧ (c.hostWrite a bs).gang = c.gang ∧ (c.hostWrite a bs).act = c.act ∧
    (c.hostWrite a bs).wds = c.wds ∧ (c.hostWrite a bs).plate = c.plate ∧ (c.hostWrite a bs).recov = c.recov := by
  refine ⟨?_, ?_, ?_, ?_, ?_, ?_, ?_, ?_, ?_, ?_, ?_, ?_, ?_, ?_, ?_, ?_, ?_, ?_, ?_, ?_, ?_, ?_, ?_, ?_, ?_, ?_, ?_, ?_, ?_, ?_⟩ <;> rfl

@[simp] theorem Chip.setPkt_frame (c : Chip) (pid : Nat) (p : Pkt) :
    (c.setPkt pid p).regs = c.regs ∧ (c.setPkt pid p).wideCap = c.wideCap ∧ (c.setPkt pid p).wideStage = c.wideStage ∧
    (c.setPkt pid p).dram = c.dram ∧ (c.setPkt pid p).hostMem = c.hostMem ∧ (c.setPkt pid p).freeCtr = c.freeCtr ∧
    (c.setPkt pid p).rdData = c.rdData ∧ (c.setPkt pid p).power = c.power ∧ (c.setPkt pid p).flash = c.flash ∧
    (c.setPkt pid p).time = c.time ∧ (c.setPkt pid p).mgt = c.mgt ∧ (c.setPkt pid p).sfl = c.sfl ∧
    (c.setPkt pid p).lanes = c.lanes ∧ (c.setPkt pid p).ports = c.ports ∧ (c.setPkt pid p).sites = c.sites ∧
    (c.setPkt pid p).parse = c.parse ∧ (c.setPkt pid p).rules = c.rules ∧ (c.setPkt pid p).tern = c.tern ∧
    (c.setPkt pid p).pattern = c.pattern ∧ (c.setPkt pid p).tm = c.tm ∧ (c.setPkt pid p).sched = c.sched ∧
    (c.setPkt pid p).hbm = c.hbm ∧ (c.setPkt pid p).tel = c.tel ∧ (c.setPkt pid p).host = c.host ∧
    (c.setPkt pid p).flow = c.flow ∧ (c.setPkt pid p).gang = c.gang ∧ (c.setPkt pid p).act = c.act ∧
    (c.setPkt pid p).wds = c.wds ∧ (c.setPkt pid p).plate = c.plate ∧ (c.setPkt pid p).recov = c.recov := by
  refine ⟨?_, ?_, ?_, ?_, ?_, ?_, ?_, ?_, ?_, ?_, ?_, ?_, ?_, ?_, ?_, ?_, ?_, ?_, ?_, ?_, ?_, ?_, ?_, ?_, ?_, ?_, ?_, ?_, ?_, ?_⟩ <;> rfl

@[simp] theorem Chip.rmPkt_frame (c : Chip) (pid : Nat) :
    (c.rmPkt pid).regs = c.regs ∧ (c.rmPkt pid).wideCap = c.wideCap ∧ (c.rmPkt pid).wideStage = c.wideStage ∧
    (c.rmPkt pid).dram = c.dram ∧ (c.rmPkt pid).hostMem = c.hostMem ∧ (c.rmPkt pid).freeCtr = c.freeCtr ∧
    (c.rmPkt pid).rdData = c.rdData ∧ (c.rmPkt pid).power = c.power ∧ (c.rmPkt pid).flash = c.flash ∧
    (c.rmPkt pid).time = c.time ∧ (c.rmPkt pid).mgt = c.mgt ∧ (c.rmPkt pid).sfl = c.sfl ∧ (c.rmPkt pid).lanes = c.lanes ∧
    (c.rmPkt pid).ports = c.ports ∧ (c.rmPkt pid).sites = c.sites ∧ (c.rmPkt pid).parse = c.parse ∧
    (c.rmPkt pid).rules = c.rules ∧ (c.rmPkt pid).tern = c.tern ∧ (c.rmPkt pid).pattern = c.pattern ∧
    (c.rmPkt pid).tm = c.tm ∧ (c.rmPkt pid).sched = c.sched ∧ (c.rmPkt pid).hbm = c.hbm ∧ (c.rmPkt pid).tel = c.tel ∧
    (c.rmPkt pid).host = c.host ∧ (c.rmPkt pid).flow = c.flow ∧ (c.rmPkt pid).gang = c.gang ∧ (c.rmPkt pid).act = c.act ∧
    (c.rmPkt pid).wds = c.wds ∧ (c.rmPkt pid).plate = c.plate ∧ (c.rmPkt pid).recov = c.recov := by
  refine ⟨?_, ?_, ?_, ?_, ?_, ?_, ?_, ?_, ?_, ?_, ?_, ?_, ?_, ?_, ?_, ?_, ?_, ?_, ?_, ?_, ?_, ?_, ?_, ?_, ?_, ?_, ?_, ?_, ?_, ?_⟩ <;> rfl

@[simp] theorem Chip.setPort_frame (c : Chip) (p : Nat) (x : PortSt) :
    (c.setPort p x).regs = c.regs ∧ (c.setPort p x).wideCap = c.wideCap ∧ (c.setPort p x).wideStage = c.wideStage ∧
    (c.setPort p x).dram = c.dram ∧ (c.setPort p x).hostMem = c.hostMem ∧ (c.setPort p x).freeCtr = c.freeCtr ∧
    (c.setPort p x).rdData = c.rdData ∧ (c.setPort p x).power = c.power ∧ (c.setPort p x).flash = c.flash ∧
    (c.setPort p x).time = c.time ∧ (c.setPort p x).mgt = c.mgt ∧ (c.setPort p x).sfl = c.sfl ∧
    (c.setPort p x).lanes = c.lanes ∧ (c.setPort p x).sites = c.sites ∧ (c.setPort p x).pkts = c.pkts ∧
    (c.setPort p x).parse = c.parse ∧ (c.setPort p x).rules = c.rules ∧ (c.setPort p x).tern = c.tern ∧
    (c.setPort p x).pattern = c.pattern ∧ (c.setPort p x).tm = c.tm ∧ (c.setPort p x).sched = c.sched ∧
    (c.setPort p x).hbm = c.hbm ∧ (c.setPort p x).tel = c.tel ∧ (c.setPort p x).host = c.host ∧
    (c.setPort p x).flow = c.flow ∧ (c.setPort p x).gang = c.gang ∧ (c.setPort p x).act = c.act ∧
    (c.setPort p x).wds = c.wds ∧ (c.setPort p x).plate = c.plate ∧ (c.setPort p x).recov = c.recov := by
  refine ⟨?_, ?_, ?_, ?_, ?_, ?_, ?_, ?_, ?_, ?_, ?_, ?_, ?_, ?_, ?_, ?_, ?_, ?_, ?_, ?_, ?_, ?_, ?_, ?_, ?_, ?_, ?_, ?_, ?_, ?_⟩ <;> rfl

@[simp] theorem Chip.onLane_frame (c : Chip) (l : Nat) (f : LaneSt → LaneSt) :
    (c.onLane l f).regs = c.regs ∧ (c.onLane l f).wideCap = c.wideCap ∧ (c.onLane l f).wideStage = c.wideStage ∧
    (c.onLane l f).dram = c.dram ∧ (c.onLane l f).hostMem = c.hostMem ∧ (c.onLane l f).freeCtr = c.freeCtr ∧
    (c.onLane l f).rdData = c.rdData ∧ (c.onLane l f).power = c.power ∧ (c.onLane l f).flash = c.flash ∧
    (c.onLane l f).time = c.time ∧ (c.onLane l f).mgt = c.mgt ∧ (c.onLane l f).sfl = c.sfl ∧ (c.onLane l f).ports = c.ports ∧
    (c.onLane l f).sites = c.sites ∧ (c.onLane l f).pkts = c.pkts ∧ (c.onLane l f).parse = c.parse ∧
    (c.onLane l f).rules = c.rules ∧ (c.onLane l f).tern = c.tern ∧ (c.onLane l f).pattern = c.pattern ∧
    (c.onLane l f).tm = c.tm ∧ (c.onLane l f).sched = c.sched ∧ (c.onLane l f).hbm = c.hbm ∧ (c.onLane l f).tel = c.tel ∧
    (c.onLane l f).host = c.host ∧ (c.onLane l f).flow = c.flow ∧ (c.onLane l f).gang = c.gang ∧ (c.onLane l f).act = c.act ∧
    (c.onLane l f).wds = c.wds ∧ (c.onLane l f).plate = c.plate ∧ (c.onLane l f).recov = c.recov := by
  refine ⟨?_, ?_, ?_, ?_, ?_, ?_, ?_, ?_, ?_, ?_, ?_, ?_, ?_, ?_, ?_, ?_, ?_, ?_, ?_, ?_, ?_, ?_, ?_, ?_, ?_, ?_, ?_, ?_, ?_, ?_⟩ <;> rfl

@[simp] theorem Chip.onSite_frame (c : Chip) (m : Nat) (f : SiteSt → SiteSt) :
    (c.onSite m f).regs = c.regs ∧ (c.onSite m f).wideCap = c.wideCap ∧ (c.onSite m f).wideStage = c.wideStage ∧
    (c.onSite m f).dram = c.dram ∧ (c.onSite m f).hostMem = c.hostMem ∧ (c.onSite m f).freeCtr = c.freeCtr ∧
    (c.onSite m f).rdData = c.rdData ∧ (c.onSite m f).power = c.power ∧ (c.onSite m f).flash = c.flash ∧
    (c.onSite m f).time = c.time ∧ (c.onSite m f).mgt = c.mgt ∧ (c.onSite m f).sfl = c.sfl ∧ (c.onSite m f).lanes = c.lanes ∧
    (c.onSite m f).ports = c.ports ∧ (c.onSite m f).pkts = c.pkts ∧ (c.onSite m f).parse = c.parse ∧
    (c.onSite m f).rules = c.rules ∧ (c.onSite m f).tern = c.tern ∧ (c.onSite m f).pattern = c.pattern ∧
    (c.onSite m f).tm = c.tm ∧ (c.onSite m f).sched = c.sched ∧ (c.onSite m f).hbm = c.hbm ∧ (c.onSite m f).tel = c.tel ∧
    (c.onSite m f).host = c.host ∧ (c.onSite m f).flow = c.flow ∧ (c.onSite m f).gang = c.gang ∧ (c.onSite m f).act = c.act ∧
    (c.onSite m f).wds = c.wds ∧ (c.onSite m f).plate = c.plate ∧ (c.onSite m f).recov = c.recov := by
  refine ⟨?_, ?_, ?_, ?_, ?_, ?_, ?_, ?_, ?_, ?_, ?_, ?_, ?_, ?_, ?_, ?_, ?_, ?_, ?_, ?_, ?_, ?_, ?_, ?_, ?_, ?_, ?_, ?_, ?_, ?_⟩ <;> rfl

@[simp] theorem Chip.onTel_frame (c : Chip) (f : TelSt → TelSt) :
    (c.onTel f).regs = c.regs ∧ (c.onTel f).wideCap = c.wideCap ∧ (c.onTel f).wideStage = c.wideStage ∧
    (c.onTel f).dram = c.dram ∧ (c.onTel f).hostMem = c.hostMem ∧ (c.onTel f).freeCtr = c.freeCtr ∧
    (c.onTel f).rdData = c.rdData ∧ (c.onTel f).power = c.power ∧ (c.onTel f).flash = c.flash ∧ (c.onTel f).time = c.time ∧
    (c.onTel f).mgt = c.mgt ∧ (c.onTel f).sfl = c.sfl ∧ (c.onTel f).lanes = c.lanes ∧ (c.onTel f).ports = c.ports ∧
    (c.onTel f).sites = c.sites ∧ (c.onTel f).pkts = c.pkts ∧ (c.onTel f).parse = c.parse ∧ (c.onTel f).rules = c.rules ∧
    (c.onTel f).tern = c.tern ∧ (c.onTel f).pattern = c.pattern ∧ (c.onTel f).tm = c.tm ∧ (c.onTel f).sched = c.sched ∧
    (c.onTel f).hbm = c.hbm ∧ (c.onTel f).host = c.host ∧ (c.onTel f).flow = c.flow ∧ (c.onTel f).gang = c.gang ∧
    (c.onTel f).act = c.act ∧ (c.onTel f).wds = c.wds ∧ (c.onTel f).plate = c.plate ∧ (c.onTel f).recov = c.recov := by
  refine ⟨?_, ?_, ?_, ?_, ?_, ?_, ?_, ?_, ?_, ?_, ?_, ?_, ?_, ?_, ?_, ?_, ?_, ?_, ?_, ?_, ?_, ?_, ?_, ?_, ?_, ?_, ?_, ?_, ?_, ?_⟩ <;> rfl

@[simp] theorem Chip.onGang_frame (c : Chip) (f : GangSt → GangSt) :
    (c.onGang f).regs = c.regs ∧ (c.onGang f).wideCap = c.wideCap ∧ (c.onGang f).wideStage = c.wideStage ∧
    (c.onGang f).dram = c.dram ∧ (c.onGang f).hostMem = c.hostMem ∧ (c.onGang f).freeCtr = c.freeCtr ∧
    (c.onGang f).rdData = c.rdData ∧ (c.onGang f).power = c.power ∧ (c.onGang f).flash = c.flash ∧
    (c.onGang f).time = c.time ∧ (c.onGang f).mgt = c.mgt ∧ (c.onGang f).sfl = c.sfl ∧ (c.onGang f).lanes = c.lanes ∧
    (c.onGang f).ports = c.ports ∧ (c.onGang f).sites = c.sites ∧ (c.onGang f).pkts = c.pkts ∧ (c.onGang f).parse = c.parse ∧
    (c.onGang f).rules = c.rules ∧ (c.onGang f).tern = c.tern ∧ (c.onGang f).pattern = c.pattern ∧ (c.onGang f).tm = c.tm ∧
    (c.onGang f).sched = c.sched ∧ (c.onGang f).hbm = c.hbm ∧ (c.onGang f).tel = c.tel ∧ (c.onGang f).host = c.host ∧
    (c.onGang f).flow = c.flow ∧ (c.onGang f).act = c.act ∧ (c.onGang f).wds = c.wds ∧ (c.onGang f).plate = c.plate ∧
    (c.onGang f).recov = c.recov := by
  refine ⟨?_, ?_, ?_, ?_, ?_, ?_, ?_, ?_, ?_, ?_, ?_, ?_, ?_, ?_, ?_, ?_, ?_, ?_, ?_, ?_, ?_, ?_, ?_, ?_, ?_, ?_, ?_, ?_, ?_, ?_⟩ <;> rfl

@[simp] theorem Chip.onHbm_frame (c : Chip) (f : HbmSt → HbmSt) :
    (c.onHbm f).regs = c.regs ∧ (c.onHbm f).wideCap = c.wideCap ∧ (c.onHbm f).wideStage = c.wideStage ∧
    (c.onHbm f).dram = c.dram ∧ (c.onHbm f).hostMem = c.hostMem ∧ (c.onHbm f).freeCtr = c.freeCtr ∧
    (c.onHbm f).rdData = c.rdData ∧ (c.onHbm f).power = c.power ∧ (c.onHbm f).flash = c.flash ∧ (c.onHbm f).time = c.time ∧
    (c.onHbm f).mgt = c.mgt ∧ (c.onHbm f).sfl = c.sfl ∧ (c.onHbm f).lanes = c.lanes ∧ (c.onHbm f).ports = c.ports ∧
    (c.onHbm f).sites = c.sites ∧ (c.onHbm f).pkts = c.pkts ∧ (c.onHbm f).parse = c.parse ∧ (c.onHbm f).rules = c.rules ∧
    (c.onHbm f).tern = c.tern ∧ (c.onHbm f).pattern = c.pattern ∧ (c.onHbm f).tm = c.tm ∧ (c.onHbm f).sched = c.sched ∧
    (c.onHbm f).tel = c.tel ∧ (c.onHbm f).host = c.host ∧ (c.onHbm f).flow = c.flow ∧ (c.onHbm f).gang = c.gang ∧
    (c.onHbm f).act = c.act ∧ (c.onHbm f).wds = c.wds ∧ (c.onHbm f).plate = c.plate ∧ (c.onHbm f).recov = c.recov := by
  refine ⟨?_, ?_, ?_, ?_, ?_, ?_, ?_, ?_, ?_, ?_, ?_, ?_, ?_, ?_, ?_, ?_, ?_, ?_, ?_, ?_, ?_, ?_, ?_, ?_, ?_, ?_, ?_, ?_, ?_, ?_⟩ <;> rfl

@[simp] theorem Chip.onWds_frame (c : Chip) (f : DispSt → DispSt) :
    (c.onWds f).regs = c.regs ∧ (c.onWds f).wideCap = c.wideCap ∧ (c.onWds f).wideStage = c.wideStage ∧
    (c.onWds f).dram = c.dram ∧ (c.onWds f).hostMem = c.hostMem ∧ (c.onWds f).freeCtr = c.freeCtr ∧
    (c.onWds f).rdData = c.rdData ∧ (c.onWds f).power = c.power ∧ (c.onWds f).flash = c.flash ∧ (c.onWds f).time = c.time ∧
    (c.onWds f).mgt = c.mgt ∧ (c.onWds f).sfl = c.sfl ∧ (c.onWds f).lanes = c.lanes ∧ (c.onWds f).ports = c.ports ∧
    (c.onWds f).sites = c.sites ∧ (c.onWds f).pkts = c.pkts ∧ (c.onWds f).parse = c.parse ∧ (c.onWds f).rules = c.rules ∧
    (c.onWds f).tern = c.tern ∧ (c.onWds f).pattern = c.pattern ∧ (c.onWds f).tm = c.tm ∧ (c.onWds f).sched = c.sched ∧
    (c.onWds f).hbm = c.hbm ∧ (c.onWds f).tel = c.tel ∧ (c.onWds f).host = c.host ∧ (c.onWds f).flow = c.flow ∧
    (c.onWds f).gang = c.gang ∧ (c.onWds f).act = c.act ∧ (c.onWds f).plate = c.plate ∧ (c.onWds f).recov = c.recov := by
  refine ⟨?_, ?_, ?_, ?_, ?_, ?_, ?_, ?_, ?_, ?_, ?_, ?_, ?_, ?_, ?_, ?_, ?_, ?_, ?_, ?_, ?_, ?_, ?_, ?_, ?_, ?_, ?_, ?_, ?_, ?_⟩ <;> rfl

@[simp] theorem Chip.onFlow_frame (c : Chip) (f : FlowSt → FlowSt) :
    (c.onFlow f).regs = c.regs ∧ (c.onFlow f).wideCap = c.wideCap ∧ (c.onFlow f).wideStage = c.wideStage ∧
    (c.onFlow f).dram = c.dram ∧ (c.onFlow f).hostMem = c.hostMem ∧ (c.onFlow f).freeCtr = c.freeCtr ∧
    (c.onFlow f).rdData = c.rdData ∧ (c.onFlow f).power = c.power ∧ (c.onFlow f).flash = c.flash ∧
    (c.onFlow f).time = c.time ∧ (c.onFlow f).mgt = c.mgt ∧ (c.onFlow f).sfl = c.sfl ∧ (c.onFlow f).lanes = c.lanes ∧
    (c.onFlow f).ports = c.ports ∧ (c.onFlow f).sites = c.sites ∧ (c.onFlow f).pkts = c.pkts ∧ (c.onFlow f).parse = c.parse ∧
    (c.onFlow f).rules = c.rules ∧ (c.onFlow f).tern = c.tern ∧ (c.onFlow f).pattern = c.pattern ∧ (c.onFlow f).tm = c.tm ∧
    (c.onFlow f).sched = c.sched ∧ (c.onFlow f).hbm = c.hbm ∧ (c.onFlow f).tel = c.tel ∧ (c.onFlow f).host = c.host ∧
    (c.onFlow f).gang = c.gang ∧ (c.onFlow f).act = c.act ∧ (c.onFlow f).wds = c.wds ∧ (c.onFlow f).plate = c.plate ∧
    (c.onFlow f).recov = c.recov := by
  refine ⟨?_, ?_, ?_, ?_, ?_, ?_, ?_, ?_, ?_, ?_, ?_, ?_, ?_, ?_, ?_, ?_, ?_, ?_, ?_, ?_, ?_, ?_, ?_, ?_, ?_, ?_, ?_, ?_, ?_, ?_⟩ <;> rfl

@[simp] theorem Chip.setEng_frame (c : Chip) (e : Nat) (x : EngSt) :
    (c.setEng e x).regs = c.regs ∧ (c.setEng e x).wideCap = c.wideCap ∧ (c.setEng e x).wideStage = c.wideStage ∧
    (c.setEng e x).dram = c.dram ∧ (c.setEng e x).hostMem = c.hostMem ∧ (c.setEng e x).freeCtr = c.freeCtr ∧
    (c.setEng e x).rdData = c.rdData ∧ (c.setEng e x).power = c.power ∧ (c.setEng e x).flash = c.flash ∧
    (c.setEng e x).time = c.time ∧ (c.setEng e x).mgt = c.mgt ∧ (c.setEng e x).sfl = c.sfl ∧ (c.setEng e x).lanes = c.lanes ∧
    (c.setEng e x).ports = c.ports ∧ (c.setEng e x).sites = c.sites ∧ (c.setEng e x).pkts = c.pkts ∧
    (c.setEng e x).parse = c.parse ∧ (c.setEng e x).rules = c.rules ∧ (c.setEng e x).tern = c.tern ∧
    (c.setEng e x).pattern = c.pattern ∧ (c.setEng e x).tm = c.tm ∧ (c.setEng e x).sched = c.sched ∧
    (c.setEng e x).hbm = c.hbm ∧ (c.setEng e x).tel = c.tel ∧ (c.setEng e x).host = c.host ∧ (c.setEng e x).gang = c.gang ∧
    (c.setEng e x).act = c.act ∧ (c.setEng e x).wds = c.wds ∧ (c.setEng e x).plate = c.plate ∧
    (c.setEng e x).recov = c.recov := by
  refine ⟨?_, ?_, ?_, ?_, ?_, ?_, ?_, ?_, ?_, ?_, ?_, ?_, ?_, ?_, ?_, ?_, ?_, ?_, ?_, ?_, ?_, ?_, ?_, ?_, ?_, ?_, ?_, ?_, ?_, ?_⟩ <;> rfl

@[simp] theorem Chip.setCtx_frame (c : Chip) (x : Nat) (v : Ctx) :
    (c.setCtx x v).regs = c.regs ∧ (c.setCtx x v).wideCap = c.wideCap ∧ (c.setCtx x v).wideStage = c.wideStage ∧
    (c.setCtx x v).dram = c.dram ∧ (c.setCtx x v).hostMem = c.hostMem ∧ (c.setCtx x v).freeCtr = c.freeCtr ∧
    (c.setCtx x v).rdData = c.rdData ∧ (c.setCtx x v).power = c.power ∧ (c.setCtx x v).flash = c.flash ∧
    (c.setCtx x v).time = c.time ∧ (c.setCtx x v).mgt = c.mgt ∧ (c.setCtx x v).sfl = c.sfl ∧ (c.setCtx x v).lanes = c.lanes ∧
    (c.setCtx x v).ports = c.ports ∧ (c.setCtx x v).sites = c.sites ∧ (c.setCtx x v).pkts = c.pkts ∧
    (c.setCtx x v).parse = c.parse ∧ (c.setCtx x v).rules = c.rules ∧ (c.setCtx x v).tern = c.tern ∧
    (c.setCtx x v).pattern = c.pattern ∧ (c.setCtx x v).tm = c.tm ∧ (c.setCtx x v).sched = c.sched ∧
    (c.setCtx x v).hbm = c.hbm ∧ (c.setCtx x v).tel = c.tel ∧ (c.setCtx x v).host = c.host ∧ (c.setCtx x v).flow = c.flow ∧
    (c.setCtx x v).gang = c.gang ∧ (c.setCtx x v).wds = c.wds ∧ (c.setCtx x v).plate = c.plate ∧
    (c.setCtx x v).recov = c.recov := by
  refine ⟨?_, ?_, ?_, ?_, ?_, ?_, ?_, ?_, ?_, ?_, ?_, ?_, ?_, ?_, ?_, ?_, ?_, ?_, ?_, ?_, ?_, ?_, ?_, ?_, ?_, ?_, ?_, ?_, ?_, ?_⟩ <;> rfl

@[simp] theorem Chip.setRing_frame (c : Chip) (n : Nat) (r : RingSt) :
    (c.setRing n r).regs = c.regs ∧ (c.setRing n r).wideCap = c.wideCap ∧ (c.setRing n r).wideStage = c.wideStage ∧
    (c.setRing n r).dram = c.dram ∧ (c.setRing n r).hostMem = c.hostMem ∧ (c.setRing n r).freeCtr = c.freeCtr ∧
    (c.setRing n r).rdData = c.rdData ∧ (c.setRing n r).power = c.power ∧ (c.setRing n r).flash = c.flash ∧
    (c.setRing n r).time = c.time ∧ (c.setRing n r).mgt = c.mgt ∧ (c.setRing n r).sfl = c.sfl ∧
    (c.setRing n r).lanes = c.lanes ∧ (c.setRing n r).ports = c.ports ∧ (c.setRing n r).sites = c.sites ∧
    (c.setRing n r).pkts = c.pkts ∧ (c.setRing n r).parse = c.parse ∧ (c.setRing n r).rules = c.rules ∧
    (c.setRing n r).tern = c.tern ∧ (c.setRing n r).pattern = c.pattern ∧ (c.setRing n r).tm = c.tm ∧
    (c.setRing n r).sched = c.sched ∧ (c.setRing n r).hbm = c.hbm ∧ (c.setRing n r).tel = c.tel ∧
    (c.setRing n r).flow = c.flow ∧ (c.setRing n r).gang = c.gang ∧ (c.setRing n r).act = c.act ∧
    (c.setRing n r).wds = c.wds ∧ (c.setRing n r).plate = c.plate ∧ (c.setRing n r).recov = c.recov := by
  refine ⟨?_, ?_, ?_, ?_, ?_, ?_, ?_, ?_, ?_, ?_, ?_, ?_, ?_, ?_, ?_, ?_, ?_, ?_, ?_, ?_, ?_, ?_, ?_, ?_, ?_, ?_, ?_, ?_, ?_, ?_⟩ <;> rfl

@[simp] theorem Chip.setGate_frame (c : Chip) (p : Nat) (g : GateSt) :
    (c.setGate p g).regs = c.regs ∧ (c.setGate p g).wideCap = c.wideCap ∧ (c.setGate p g).wideStage = c.wideStage ∧
    (c.setGate p g).dram = c.dram ∧ (c.setGate p g).hostMem = c.hostMem ∧ (c.setGate p g).freeCtr = c.freeCtr ∧
    (c.setGate p g).rdData = c.rdData ∧ (c.setGate p g).power = c.power ∧ (c.setGate p g).flash = c.flash ∧
    (c.setGate p g).time = c.time ∧ (c.setGate p g).mgt = c.mgt ∧ (c.setGate p g).sfl = c.sfl ∧
    (c.setGate p g).lanes = c.lanes ∧ (c.setGate p g).ports = c.ports ∧ (c.setGate p g).sites = c.sites ∧
    (c.setGate p g).pkts = c.pkts ∧ (c.setGate p g).parse = c.parse ∧ (c.setGate p g).rules = c.rules ∧
    (c.setGate p g).tern = c.tern ∧ (c.setGate p g).pattern = c.pattern ∧ (c.setGate p g).tm = c.tm ∧
    (c.setGate p g).hbm = c.hbm ∧ (c.setGate p g).tel = c.tel ∧ (c.setGate p g).host = c.host ∧
    (c.setGate p g).flow = c.flow ∧ (c.setGate p g).gang = c.gang ∧ (c.setGate p g).act = c.act ∧
    (c.setGate p g).wds = c.wds ∧ (c.setGate p g).plate = c.plate ∧ (c.setGate p g).recov = c.recov := by
  refine ⟨?_, ?_, ?_, ?_, ?_, ?_, ?_, ?_, ?_, ?_, ?_, ?_, ?_, ?_, ?_, ?_, ?_, ?_, ?_, ?_, ?_, ?_, ?_, ?_, ?_, ?_, ?_, ?_, ?_, ?_⟩ <;> rfl

@[simp] theorem Chip.setQueue_frame (c : Chip) (q : Nat) (x : List (Nat × Nat)) :
    (c.setQueue q x).regs = c.regs ∧ (c.setQueue q x).wideCap = c.wideCap ∧ (c.setQueue q x).wideStage = c.wideStage ∧
    (c.setQueue q x).dram = c.dram ∧ (c.setQueue q x).hostMem = c.hostMem ∧ (c.setQueue q x).freeCtr = c.freeCtr ∧
    (c.setQueue q x).rdData = c.rdData ∧ (c.setQueue q x).power = c.power ∧ (c.setQueue q x).flash = c.flash ∧
    (c.setQueue q x).time = c.time ∧ (c.setQueue q x).mgt = c.mgt ∧ (c.setQueue q x).sfl = c.sfl ∧
    (c.setQueue q x).lanes = c.lanes ∧ (c.setQueue q x).ports = c.ports ∧ (c.setQueue q x).sites = c.sites ∧
    (c.setQueue q x).pkts = c.pkts ∧ (c.setQueue q x).parse = c.parse ∧ (c.setQueue q x).rules = c.rules ∧
    (c.setQueue q x).tern = c.tern ∧ (c.setQueue q x).pattern = c.pattern ∧ (c.setQueue q x).sched = c.sched ∧
    (c.setQueue q x).hbm = c.hbm ∧ (c.setQueue q x).tel = c.tel ∧ (c.setQueue q x).host = c.host ∧
    (c.setQueue q x).flow = c.flow ∧ (c.setQueue q x).gang = c.gang ∧ (c.setQueue q x).act = c.act ∧
    (c.setQueue q x).wds = c.wds ∧ (c.setQueue q x).plate = c.plate ∧ (c.setQueue q x).recov = c.recov := by
  refine ⟨?_, ?_, ?_, ?_, ?_, ?_, ?_, ?_, ?_, ?_, ?_, ?_, ?_, ?_, ?_, ?_, ?_, ?_, ?_, ?_, ?_, ?_, ?_, ?_, ?_, ?_, ?_, ?_, ?_, ?_⟩ <;> rfl

@[simp] theorem Chip.setRec_frame (c : Chip) (r : RecDom) :
    (c.setRec r).regs = c.regs ∧ (c.setRec r).wideCap = c.wideCap ∧ (c.setRec r).wideStage = c.wideStage ∧
    (c.setRec r).dram = c.dram ∧ (c.setRec r).hostMem = c.hostMem ∧ (c.setRec r).freeCtr = c.freeCtr ∧
    (c.setRec r).rdData = c.rdData ∧ (c.setRec r).power = c.power ∧ (c.setRec r).flash = c.flash ∧
    (c.setRec r).time = c.time ∧ (c.setRec r).mgt = c.mgt ∧ (c.setRec r).sfl = c.sfl ∧ (c.setRec r).lanes = c.lanes ∧
    (c.setRec r).ports = c.ports ∧ (c.setRec r).sites = c.sites ∧ (c.setRec r).pkts = c.pkts ∧ (c.setRec r).parse = c.parse ∧
    (c.setRec r).rules = c.rules ∧ (c.setRec r).tern = c.tern ∧ (c.setRec r).pattern = c.pattern ∧ (c.setRec r).tm = c.tm ∧
    (c.setRec r).sched = c.sched ∧ (c.setRec r).hbm = c.hbm ∧ (c.setRec r).tel = c.tel ∧ (c.setRec r).host = c.host ∧
    (c.setRec r).flow = c.flow ∧ (c.setRec r).gang = c.gang ∧ (c.setRec r).act = c.act ∧ (c.setRec r).wds = c.wds ∧
    (c.setRec r).plate = c.plate := by
  refine ⟨?_, ?_, ?_, ?_, ?_, ?_, ?_, ?_, ?_, ?_, ?_, ?_, ?_, ?_, ?_, ?_, ?_, ?_, ?_, ?_, ?_, ?_, ?_, ?_, ?_, ?_, ?_, ?_, ?_, ?_⟩ <;> rfl

@[simp] theorem Chip.rmRec_frame (c : Chip) (r : RecDom) :
    (c.rmRec r).regs = c.regs ∧ (c.rmRec r).wideCap = c.wideCap ∧ (c.rmRec r).wideStage = c.wideStage ∧
    (c.rmRec r).dram = c.dram ∧ (c.rmRec r).hostMem = c.hostMem ∧ (c.rmRec r).freeCtr = c.freeCtr ∧
    (c.rmRec r).rdData = c.rdData ∧ (c.rmRec r).power = c.power ∧ (c.rmRec r).flash = c.flash ∧ (c.rmRec r).time = c.time ∧
    (c.rmRec r).mgt = c.mgt ∧ (c.rmRec r).sfl = c.sfl ∧ (c.rmRec r).lanes = c.lanes ∧ (c.rmRec r).ports = c.ports ∧
    (c.rmRec r).sites = c.sites ∧ (c.rmRec r).pkts = c.pkts ∧ (c.rmRec r).parse = c.parse ∧ (c.rmRec r).rules = c.rules ∧
    (c.rmRec r).tern = c.tern ∧ (c.rmRec r).pattern = c.pattern ∧ (c.rmRec r).tm = c.tm ∧ (c.rmRec r).sched = c.sched ∧
    (c.rmRec r).hbm = c.hbm ∧ (c.rmRec r).tel = c.tel ∧ (c.rmRec r).host = c.host ∧ (c.rmRec r).flow = c.flow ∧
    (c.rmRec r).gang = c.gang ∧ (c.rmRec r).act = c.act ∧ (c.rmRec r).wds = c.wds ∧ (c.rmRec r).plate = c.plate := by
  refine ⟨?_, ?_, ?_, ?_, ?_, ?_, ?_, ?_, ?_, ?_, ?_, ?_, ?_, ?_, ?_, ?_, ?_, ?_, ?_, ?_, ?_, ?_, ?_, ?_, ?_, ?_, ?_, ?_, ?_, ?_⟩ <;> rfl

@[simp] theorem Chip.putEntry_frame (c : Chip) (r p : Nat) (e : REntry) :
    (c.putEntry r p e).regs = c.regs ∧ (c.putEntry r p e).wideCap = c.wideCap ∧ (c.putEntry r p e).wideStage = c.wideStage ∧
    (c.putEntry r p e).dram = c.dram ∧ (c.putEntry r p e).hostMem = c.hostMem ∧ (c.putEntry r p e).freeCtr = c.freeCtr ∧
    (c.putEntry r p e).rdData = c.rdData ∧ (c.putEntry r p e).power = c.power ∧ (c.putEntry r p e).flash = c.flash ∧
    (c.putEntry r p e).time = c.time ∧ (c.putEntry r p e).mgt = c.mgt ∧ (c.putEntry r p e).sfl = c.sfl ∧
    (c.putEntry r p e).lanes = c.lanes ∧ (c.putEntry r p e).ports = c.ports ∧ (c.putEntry r p e).sites = c.sites ∧
    (c.putEntry r p e).pkts = c.pkts ∧ (c.putEntry r p e).parse = c.parse ∧ (c.putEntry r p e).tern = c.tern ∧
    (c.putEntry r p e).pattern = c.pattern ∧ (c.putEntry r p e).tm = c.tm ∧ (c.putEntry r p e).sched = c.sched ∧
    (c.putEntry r p e).hbm = c.hbm ∧ (c.putEntry r p e).tel = c.tel ∧ (c.putEntry r p e).host = c.host ∧
    (c.putEntry r p e).flow = c.flow ∧ (c.putEntry r p e).gang = c.gang ∧ (c.putEntry r p e).act = c.act ∧
    (c.putEntry r p e).wds = c.wds ∧ (c.putEntry r p e).plate = c.plate ∧ (c.putEntry r p e).recov = c.recov := by
  refine ⟨?_, ?_, ?_, ?_, ?_, ?_, ?_, ?_, ?_, ?_, ?_, ?_, ?_, ?_, ?_, ?_, ?_, ?_, ?_, ?_, ?_, ?_, ?_, ?_, ?_, ?_, ?_, ?_, ?_, ?_⟩ <;> rfl

@[simp] theorem Chip.tPut_frame (c : Chip) (q n : Nat) (e : REntry) :
    (c.tPut q n e).regs = c.regs ∧ (c.tPut q n e).wideCap = c.wideCap ∧ (c.tPut q n e).wideStage = c.wideStage ∧
    (c.tPut q n e).dram = c.dram ∧ (c.tPut q n e).hostMem = c.hostMem ∧ (c.tPut q n e).freeCtr = c.freeCtr ∧
    (c.tPut q n e).rdData = c.rdData ∧ (c.tPut q n e).power = c.power ∧ (c.tPut q n e).flash = c.flash ∧
    (c.tPut q n e).time = c.time ∧ (c.tPut q n e).mgt = c.mgt ∧ (c.tPut q n e).sfl = c.sfl ∧ (c.tPut q n e).lanes = c.lanes ∧
    (c.tPut q n e).ports = c.ports ∧ (c.tPut q n e).sites = c.sites ∧ (c.tPut q n e).pkts = c.pkts ∧
    (c.tPut q n e).parse = c.parse ∧ (c.tPut q n e).rules = c.rules ∧ (c.tPut q n e).pattern = c.pattern ∧
    (c.tPut q n e).tm = c.tm ∧ (c.tPut q n e).sched = c.sched ∧ (c.tPut q n e).hbm = c.hbm ∧ (c.tPut q n e).tel = c.tel ∧
    (c.tPut q n e).host = c.host ∧ (c.tPut q n e).flow = c.flow ∧ (c.tPut q n e).gang = c.gang ∧ (c.tPut q n e).act = c.act ∧
    (c.tPut q n e).wds = c.wds ∧ (c.tPut q n e).plate = c.plate ∧ (c.tPut q n e).recov = c.recov := by
  refine ⟨?_, ?_, ?_, ?_, ?_, ?_, ?_, ?_, ?_, ?_, ?_, ?_, ?_, ?_, ?_, ?_, ?_, ?_, ?_, ?_, ?_, ?_, ?_, ?_, ?_, ?_, ?_, ?_, ?_, ?_⟩ <;> rfl

@[simp] theorem Chip.stageWord_frame (c : Chip) (a : Nat) (v : Word) :
    (c.stageWord a v).regs = c.regs ∧ (c.stageWord a v).wideCap = c.wideCap ∧ (c.stageWord a v).dram = c.dram ∧
    (c.stageWord a v).hostMem = c.hostMem ∧ (c.stageWord a v).freeCtr = c.freeCtr ∧ (c.stageWord a v).rdData = c.rdData ∧
    (c.stageWord a v).power = c.power ∧ (c.stageWord a v).flash = c.flash ∧ (c.stageWord a v).time = c.time ∧
    (c.stageWord a v).mgt = c.mgt ∧ (c.stageWord a v).sfl = c.sfl ∧ (c.stageWord a v).lanes = c.lanes ∧
    (c.stageWord a v).ports = c.ports ∧ (c.stageWord a v).sites = c.sites ∧ (c.stageWord a v).pkts = c.pkts ∧
    (c.stageWord a v).parse = c.parse ∧ (c.stageWord a v).rules = c.rules ∧ (c.stageWord a v).tern = c.tern ∧
    (c.stageWord a v).pattern = c.pattern ∧ (c.stageWord a v).tm = c.tm ∧ (c.stageWord a v).sched = c.sched ∧
    (c.stageWord a v).hbm = c.hbm ∧ (c.stageWord a v).tel = c.tel ∧ (c.stageWord a v).host = c.host ∧
    (c.stageWord a v).flow = c.flow ∧ (c.stageWord a v).gang = c.gang ∧ (c.stageWord a v).act = c.act ∧
    (c.stageWord a v).wds = c.wds ∧ (c.stageWord a v).plate = c.plate ∧ (c.stageWord a v).recov = c.recov := by
  refine ⟨?_, ?_, ?_, ?_, ?_, ?_, ?_, ?_, ?_, ?_, ?_, ?_, ?_, ?_, ?_, ?_, ?_, ?_, ?_, ?_, ?_, ?_, ?_, ?_, ?_, ?_, ?_, ?_, ?_, ?_⟩ <;> rfl

/-! ### What is read back -/

@[simp] theorem Chip.pkt_setPkt (c : Chip) (pid k : Nat) (p : Pkt) : (c.setPkt pid p).pkt k = if pid = k then some p else c.pkt k :=
  smFind_smPut ..

@[simp] theorem Chip.pkt_rmPkt (c : Chip) (pid k : Nat) : (c.rmPkt pid).pkt k = if pid = k then none else c.pkt k :=
  smFind_smErase ..

@[simp] theorem Chip.ctx_setCtx (c : Chip) (x k : Nat) (v : Ctx) : (c.setCtx x v).ctx k = if x = k then v else c.ctx k :=
  smGet_smSet ..

@[simp] theorem Chip.eng_setEng (c : Chip) (x k : Nat) (v : EngSt) : (c.setEng x v).eng k = if x = k then v else c.eng k :=
  smGet_smSet ..

@[simp] theorem Chip.lane_onLane (c : Chip) (l k : Nat) (f : LaneSt → LaneSt) :
    (c.onLane l f).lane k = if l = k then f (c.lane l) else c.lane k := smGet_smSet ..

@[simp] theorem Chip.portSt_setPort (c : Chip) (p k : Nat) (x : PortSt) : (c.setPort p x).portSt k = if p = k then x else c.portSt k :=
  smGet_smSet ..

@[simp] theorem Chip.gateSt_setGate (c : Chip) (p k : Nat) (g : GateSt) : (c.setGate p g).gateSt k = if p = k then g else c.gateSt k :=
  smGet_smSet ..

@[simp] theorem Chip.queue_setQueue (c : Chip) (q k : Nat) (x : List (Nat × Nat)) :
    (c.setQueue q x).queue k = if q = k then x else c.queue k := smGet_smSet ..

@[simp] theorem Chip.ringSt_setRing (c : Chip) (n k : Nat) (r : RingSt) : (c.setRing n r).ringSt k = if n = k then r else c.ringSt k :=
  smGet_smSet ..

/-! ### Fields of registers through the updates of other state -/

@[simp] theorem Chip.getF_useFree (c : Chip) (g : Fld) (k l : Nat) : (c.useFree).getF g k l = c.getF g k l := rfl

@[simp] theorem Chip.flag_useFree (c : Chip) (g : Fld) (k l : Nat) : (c.useFree).flag g k l = c.flag g k l := rfl

@[simp] theorem Chip.getF_dramWrite (c : Chip) (a : Nat) (bs : Bytes) (g : Fld) (k l : Nat) : (c.dramWrite a bs).getF g k l = c.getF g k l := rfl

@[simp] theorem Chip.flag_dramWrite (c : Chip) (a : Nat) (bs : Bytes) (g : Fld) (k l : Nat) : (c.dramWrite a bs).flag g k l = c.flag g k l := rfl

@[simp] theorem Chip.getF_hostWrite (c : Chip) (a : Nat) (bs : Bytes) (g : Fld) (k l : Nat) : (c.hostWrite a bs).getF g k l = c.getF g k l := rfl

@[simp] theorem Chip.flag_hostWrite (c : Chip) (a : Nat) (bs : Bytes) (g : Fld) (k l : Nat) : (c.hostWrite a bs).flag g k l = c.flag g k l := rfl

@[simp] theorem Chip.getF_setPkt (c : Chip) (pid : Nat) (p : Pkt) (g : Fld) (k l : Nat) : (c.setPkt pid p).getF g k l = c.getF g k l := rfl

@[simp] theorem Chip.flag_setPkt (c : Chip) (pid : Nat) (p : Pkt) (g : Fld) (k l : Nat) : (c.setPkt pid p).flag g k l = c.flag g k l := rfl

@[simp] theorem Chip.getF_rmPkt (c : Chip) (pid : Nat) (g : Fld) (k l : Nat) : (c.rmPkt pid).getF g k l = c.getF g k l := rfl

@[simp] theorem Chip.flag_rmPkt (c : Chip) (pid : Nat) (g : Fld) (k l : Nat) : (c.rmPkt pid).flag g k l = c.flag g k l := rfl

@[simp] theorem Chip.getF_setPort (c : Chip) (p : Nat) (x : PortSt) (g : Fld) (k l : Nat) : (c.setPort p x).getF g k l = c.getF g k l := rfl

@[simp] theorem Chip.flag_setPort (c : Chip) (p : Nat) (x : PortSt) (g : Fld) (k l : Nat) : (c.setPort p x).flag g k l = c.flag g k l := rfl

@[simp] theorem Chip.getF_onLane (c : Chip) (l : Nat) (f : LaneSt → LaneSt) (g : Fld) (k m : Nat) : (c.onLane l f).getF g k m = c.getF g k m := rfl

@[simp] theorem Chip.flag_onLane (c : Chip) (l : Nat) (f : LaneSt → LaneSt) (g : Fld) (k m : Nat) : (c.onLane l f).flag g k m = c.flag g k m := rfl

@[simp] theorem Chip.getF_onSite (c : Chip) (m : Nat) (f : SiteSt → SiteSt) (g : Fld) (k l : Nat) : (c.onSite m f).getF g k l = c.getF g k l := rfl

@[simp] theorem Chip.flag_onSite (c : Chip) (m : Nat) (f : SiteSt → SiteSt) (g : Fld) (k l : Nat) : (c.onSite m f).flag g k l = c.flag g k l := rfl

@[simp] theorem Chip.getF_onTel (c : Chip) (f : TelSt → TelSt) (g : Fld) (k l : Nat) : (c.onTel f).getF g k l = c.getF g k l := rfl

@[simp] theorem Chip.flag_onTel (c : Chip) (f : TelSt → TelSt) (g : Fld) (k l : Nat) : (c.onTel f).flag g k l = c.flag g k l := rfl

@[simp] theorem Chip.getF_onGang (c : Chip) (f : GangSt → GangSt) (g : Fld) (k l : Nat) : (c.onGang f).getF g k l = c.getF g k l := rfl

@[simp] theorem Chip.flag_onGang (c : Chip) (f : GangSt → GangSt) (g : Fld) (k l : Nat) : (c.onGang f).flag g k l = c.flag g k l := rfl

@[simp] theorem Chip.getF_onHbm (c : Chip) (f : HbmSt → HbmSt) (g : Fld) (k l : Nat) : (c.onHbm f).getF g k l = c.getF g k l := rfl

@[simp] theorem Chip.flag_onHbm (c : Chip) (f : HbmSt → HbmSt) (g : Fld) (k l : Nat) : (c.onHbm f).flag g k l = c.flag g k l := rfl

@[simp] theorem Chip.getF_onWds (c : Chip) (f : DispSt → DispSt) (g : Fld) (k l : Nat) : (c.onWds f).getF g k l = c.getF g k l := rfl

@[simp] theorem Chip.flag_onWds (c : Chip) (f : DispSt → DispSt) (g : Fld) (k l : Nat) : (c.onWds f).flag g k l = c.flag g k l := rfl

@[simp] theorem Chip.getF_onFlow (c : Chip) (f : FlowSt → FlowSt) (g : Fld) (k l : Nat) : (c.onFlow f).getF g k l = c.getF g k l := rfl

@[simp] theorem Chip.flag_onFlow (c : Chip) (f : FlowSt → FlowSt) (g : Fld) (k l : Nat) : (c.onFlow f).flag g k l = c.flag g k l := rfl

@[simp] theorem Chip.getF_setEng (c : Chip) (e : Nat) (x : EngSt) (g : Fld) (k l : Nat) : (c.setEng e x).getF g k l = c.getF g k l := rfl

@[simp] theorem Chip.flag_setEng (c : Chip) (e : Nat) (x : EngSt) (g : Fld) (k l : Nat) : (c.setEng e x).flag g k l = c.flag g k l := rfl

@[simp] theorem Chip.getF_setCtx (c : Chip) (x : Nat) (v : Ctx) (g : Fld) (k l : Nat) : (c.setCtx x v).getF g k l = c.getF g k l := rfl

@[simp] theorem Chip.flag_setCtx (c : Chip) (x : Nat) (v : Ctx) (g : Fld) (k l : Nat) : (c.setCtx x v).flag g k l = c.flag g k l := rfl

@[simp] theorem Chip.getF_setRing (c : Chip) (n : Nat) (r : RingSt) (g : Fld) (k l : Nat) : (c.setRing n r).getF g k l = c.getF g k l := rfl

@[simp] theorem Chip.flag_setRing (c : Chip) (n : Nat) (r : RingSt) (g : Fld) (k l : Nat) : (c.setRing n r).flag g k l = c.flag g k l := rfl

@[simp] theorem Chip.getF_setGate (c : Chip) (p : Nat) (g : GateSt) (q : Fld) (k l : Nat) : (c.setGate p g).getF q k l = c.getF q k l := rfl

@[simp] theorem Chip.flag_setGate (c : Chip) (p : Nat) (g : GateSt) (q : Fld) (k l : Nat) : (c.setGate p g).flag q k l = c.flag q k l := rfl

@[simp] theorem Chip.getF_setQueue (c : Chip) (q : Nat) (x : List (Nat × Nat)) (g : Fld) (k l : Nat) : (c.setQueue q x).getF g k l = c.getF g k l := rfl

@[simp] theorem Chip.flag_setQueue (c : Chip) (q : Nat) (x : List (Nat × Nat)) (g : Fld) (k l : Nat) : (c.setQueue q x).flag g k l = c.flag g k l := rfl

@[simp] theorem Chip.getF_setRec (c : Chip) (r : RecDom) (g : Fld) (k l : Nat) : (c.setRec r).getF g k l = c.getF g k l := rfl

@[simp] theorem Chip.flag_setRec (c : Chip) (r : RecDom) (g : Fld) (k l : Nat) : (c.setRec r).flag g k l = c.flag g k l := rfl

@[simp] theorem Chip.getF_rmRec (c : Chip) (r : RecDom) (g : Fld) (k l : Nat) : (c.rmRec r).getF g k l = c.getF g k l := rfl

@[simp] theorem Chip.flag_rmRec (c : Chip) (r : RecDom) (g : Fld) (k l : Nat) : (c.rmRec r).flag g k l = c.flag g k l := rfl

@[simp] theorem Chip.getF_putEntry (c : Chip) (r p : Nat) (e : REntry) (g : Fld) (k l : Nat) : (c.putEntry r p e).getF g k l = c.getF g k l := rfl

@[simp] theorem Chip.flag_putEntry (c : Chip) (r p : Nat) (e : REntry) (g : Fld) (k l : Nat) : (c.putEntry r p e).flag g k l = c.flag g k l := rfl

@[simp] theorem Chip.getF_tPut (c : Chip) (q n : Nat) (e : REntry) (g : Fld) (k l : Nat) : (c.tPut q n e).getF g k l = c.getF g k l := rfl

@[simp] theorem Chip.flag_tPut (c : Chip) (q n : Nat) (e : REntry) (g : Fld) (k l : Nat) : (c.tPut q n e).flag g k l = c.flag g k l := rfl

@[simp] theorem Chip.getF_stageWord (c : Chip) (a : Nat) (v : Word) (g : Fld) (k l : Nat) : (c.stageWord a v).getF g k l = c.getF g k l := rfl

@[simp] theorem Chip.flag_stageWord (c : Chip) (a : Nat) (v : Word) (g : Fld) (k l : Nat) : (c.stageWord a v).flag g k l = c.flag g k l := rfl

end Sys2Proof.Machine
end

