-- ==== Sys2Proof/Tests/Slice0.lean ====
section
/-! SUPPORT. Tests: ill-formed commands that the check refuses, the manual's worked examples, and for every statement with
hypotheses theorems that show a state and operands meeting the hypotheses of each of its clauses together. -/
namespace Sys2Proof.Tests
open Sys2Proof Sys2Proof.Machine

set_option Elab.async false
set_option maxRecDepth 8000

/-! ### States to test with -/

/-- Register words with some fields set, every other bit of these words 0. -/
def tRegs (l : List (Fld × Nat × Nat)) : SMap Word :=
  l.foldl (fun m e =>
    let a := e.1.addr e.2.1 0
    smPut m a (BitVec.ofNat 32 (setBitsOf e.1.hi e.1.lo ((smFind m a).getD 0).toNat e.2.2))) []

/-- The state after reset but for some register words and a change of the device. -/
def tSt (l : List (Fld × Nat × Nat)) (f : Chip → Chip := id) : State := ⟨f { Chip.reset with regs := tRegs l }, []⟩

/-- A microword with some fields set: the lowest bit of a field and its value. -/
def tWord (l : List (Nat × Nat)) : Mw := BitVec.ofNat 192 (l.foldl (fun n e => n + e.2 * 2 ^ e.1) 0)

/-- A word's progress: these units have run. -/
def tProg (done : List Nat) : WordSt := ⟨done, [], [], Flags.zero, 0, 0⟩

/-- Context 0 runs the word at address 0, of which these units have run. -/
def tRun (w : List (Nat × Nat)) (done : List Nat := []) (f : Ctx → Ctx := id) (g : Chip → Chip := id) : State :=
  tSt [] fun c => g { c with act := { c.act with
    vendor := [(0, tWord w)], ctxs := [(0, f { Ctx.init with st := 1, word := some (tProg done) })] } }

/-- A packet of 60 bytes. -/
def tPacket : Pkt := Pkt.init 0 0 0 0 0 (zerosB 60)

/-- Packet 0 is in the device. -/
def tPkt (f : Pkt → Pkt) (l : List (Fld × Nat × Nat) := []) (g : Chip → Chip := id) : State :=
  tSt l fun c => g { c with pkts := [(0, f tPacket)] }

/-- Port 0 is a gang port that is up and in service to device 1. -/
def tGangPort (c : Chip) : Chip :=
  { c with
    plate := { c.plate with gangGroups := [0] }
    gang := { c.gang with inService := [(0, 1)], lists := [(1, [0])] } }

/-- A member of a gang of devices 0 and 1; registers beside those of the gang may be given. -/
def tGang (coord : Nat) (l : List (Fld × Nat × Nat) := []) (f : Chip → Chip := id) (state : Nat := 1) : State :=
  tSt ([(F.PRT_CFG.MODE, 0, 18), (F.PRT_STATUS.PSTATE, 0, 3), (F.GNG_STATUS.STATE, 0, state), (F.GNG_STATUS.COORD, 0, coord),
    (F.GNG_STATUS.MEMBERS, 0, 3)] ++ l) fun c => f (tGangPort c)

/-- A gang frame of a type from device 1 to device 0. -/
def tFrame (type : Nat) (body : Bytes) : Bytes :=
  zerosB 12 ++ natBe 2 0x88B5 ++ natBe 1 (0x10 + type) ++ [0, 1] ++ zerosB 29 ++ body

/-- A control frame with a code. -/
def tCtrl (code : Nat) (rest : Bytes := []) : Bytes := tFrame 6 (natBe 1 code ++ zerosB 7 ++ rest ++ zerosB 72)

/-- An op with every field 0 but these. -/
def tOp (kind : Nat) (mode : Nat := 0) (h1 : Nat := 0) : FOp :=
  { kind := kind, src := 0, tag := 0, key := zerosB 40, h1 := h1, h2 := 0, orient := 0, tmpl := 0, port := 0, iseq := 0, pass := 0
    ver := 0, flen := 0, tcpf := 0, tcp := false, ce := false, cls := 0, tail := 1, pend := 0, since := 0, mode := mode, mask := 0
    data := [] }

/-- Engine 0 in a given state. -/
def tEng (x : EngSt) (l : List (Fld × Nat × Nat) := []) (f : Chip → Chip := id) : State :=
  tSt l fun c => f { c with flow := { c.flow with eng := [(0, x)] } }

/-- A lane, 0, with its state and a change of its hidden state. -/
def tLane (st : Nat) (f : LaneSt → LaneSt := id) (l : List (Fld × Nat × Nat) := []) : State :=
  tSt ((F.LNA_STATUS.STATE, 0, st) :: l) fun c => { c with lanes := [(0, f LaneSt.init)] }

/-- A staircase set of a TYPE whose payload begins with two bytes. -/
def tSet (type a b : Nat) : SetGroups :=
  let g := natBe 1 type ++ natBe 1 a ++ natBe 1 b ++ zerosB 10
  ⟨true, true, g ++ natBe 1 (crc8 g)⟩

/-- Policy bytes that open every permission the tests need. -/
def tPolicy (c : Chip) : Chip :=
  { c with sfl := { c.sfl with body := [(0x216, 0x1E), (0x217, 0x1E), (0x236, 0xFF), (0x237, 0xFF), (0x238, 0xFF), (0x248, 0xFF),
      (0x249, 0xFF), (0x24A, 0xFE), (0x24C, 0xFE), (0x400, 0xFF), (0x401, 0xFF), (0x402, 0xFF), (0x403, 0xFF), (0x404, 0xFF),
      (0x405, 0xFF), (0x406, 0xFF), (0x407, 0xFF), (0x2000, 0xFF)] } }

/-- A bound item. -/
def tBound (kind : Nat) : Bound := ⟨0, natBe 1 (16 * kind) ++ zerosB 63, none, false, 0, false⟩

/-- A copy of a packet at port 0. -/
def tCopy (state : Nat) : Copy :=
  { cid := 0, kind := 0, port := 0, cls := 0, queue := 0, state := state, cells := 0, admAt := 0, encap := [], trunc := 0, dev := 0
    estamp := 0 }

/-- A remote op outstanding to device 1. -/
def tRop (tries : Nat) : Rop := ⟨0, 0, 1, tOp 0, tries⟩

/-- A parse context before any step, at a step budget. -/
def tParse (steps : Nat := 4) (slice : Nat := 0) : ParseCtx :=
  { pipe := 0, slice := slice, profNo := 0, encap := 0, vlan := 0, mpls := 0, steps := steps, window := 0, pc := 0, cur := 0
    w := [0, 0, 0, 0], done := 0, lvl := 0, deepest := 0, endAt := none, prov := none, staging := zerosB 40, hv := zerosB 256 }

/-! ### Well-formedness: one ill-formed term for each check -/

theorem test_wf_refuses_addresses : Instr.wf (.wideLowWordRead 2 0) = false ∧ Instr.wf (.wideHighWordWrite 1 0) = false
    ∧ Instr.wf (.wideLowWordWrite 3 0) = false ∧ Instr.wf (.rcRead 2 0) = false := by decide

theorem test_wf_refuses_lengths : Instr.wf (.fullLoad []) = false ∧ Instr.wf (.loadStaged (List.replicate 96 [])) = false
    ∧ Instr.wf (.capSet 0 ⟨true, true, zerosB 13⟩) = false ∧ Instr.wf (.ackSet 0 ⟨true, true, zerosB 15⟩) = false
    ∧ Instr.wf (.stepSet 0 ⟨true, true, []⟩) = false ∧ Instr.wf (.qualSet 0 ⟨true, true, []⟩) = false
    ∧ Instr.wf (.holdSet 0 ⟨true, true, []⟩) = false ∧ Instr.wf (.abortSet 0 ⟨true, true, []⟩) = false
    ∧ Instr.wf (.upSet 0 ⟨true, true, []⟩) = false ∧ Instr.wf (.frameHead 0 (zerosB 15)) = false
    ∧ Instr.wf (.pauseFrame 0 (zerosB 59)) = false ∧ Instr.wf (.pfcFrame 0 (zerosB 59)) = false
    ∧ Instr.wf (.intlFall 0 (zerosB 31)) = false ∧ Instr.wf (.trainingDone 0 [0]) = false
    ∧ Instr.wf (.trackingRun 0 []) = false ∧ Instr.wf (.bar2Write 0 [0] []) = false
    ∧ Instr.wf (.oobDatagram 0 (zerosB 4) []) = false ∧ Instr.wf (.sensorSample []) = false := by decide

theorem test_wf_refuses_values : Instr.wf (.checkerLockLost 0 1 2) = false ∧ Instr.wf (.addressPoll 0 (some (true, 256, 0))) = false
    ∧ Instr.wf (.addressPoll 0 (some (true, 0, 256))) = false ∧ Instr.wf (.patternReport 0 [(1, 2), (1, 2)] false 0) = false
    ∧ Instr.wf (.dramRequest 0 0 0 0 false []) = false ∧ Instr.wf (.dramRequest 0 0 0 2 true [0]) = false
    ∧ Instr.wf (.shaperUpdate 2 512) = false ∧ Instr.wf (.shaperConfigWrite 1 8192 0 0) = false
    ∧ Instr.wf (.peerLoss 1 1) = false ∧ Instr.wf (.recoveryStart 2 16 0 []) = false ∧ Instr.wf (.recGo 7 4) = false
    ∧ Instr.wf (.recoveryEnd 6 48 true) = false ∧ Instr.wf (.recoveryBoundExpired 3 128) = false := by decide

theorem test_wf_refuses_gang_frames (p : Fin 512) : Instr.wf (.rmtOp p (zerosB 45) 0) = false
    ∧ Instr.wf (.replOp p (zerosB 45)) = false ∧ Instr.wf (.hello p []) = false ∧ Instr.wf (.data p []) = false
    ∧ Instr.wf (.rres p []) = false ∧ Instr.wf (.tail p []) = false ∧ Instr.wf (.rrec p [] 0) = false
    ∧ Instr.wf (.ctrlOldest p []) = false ∧ Instr.wf (.ctrlPrep p []) = false ∧ Instr.wf (.ready p []) = false
    ∧ Instr.wf (.ctrlCommit p []) = false ∧ Instr.wf (.slotFinal p []) = false ∧ Instr.wf (.clean p []) = false
    ∧ Instr.wf (.tsyncReq p []) = false ∧ Instr.wf (.tsyncResp p []) = false ∧ Instr.wf (.ctrlLeave p []) = false
    ∧ Instr.wf (.ctrlUnbind p []) = false ∧ Instr.wf (.joinReq p [] true) = false ∧ Instr.wf (.resetAt p []) = false :=
  ⟨rfl, rfl, rfl, rfl, rfl, rfl, rfl, rfl, rfl, rfl, rfl, rfl, rfl, rfl, rfl, rfl, rfl, rfl, rfl⟩

theorem test_wf_accepts : Instr.wf (.wideLowWordRead 4 0) = true ∧ Instr.wf (.upSet 0 ⟨true, true, zerosB 14⟩) = true
    ∧ Instr.wf (.recoveryStart 2 15 0 []) = true ∧ Instr.wf (.hello 0 (zerosB 46)) = true
    ∧ Instr.wf (.shaperUpdate 2 511) = true ∧ Instr.wf (.peerLoss 0 1) = true := by decide

/-! ### The manual's worked examples -/

/-- The example after R17: a time just after the wrap lies after one just before it. -/
theorem test_wrapped_time : dtwAfter 0x10000 0xFFFFFFFFFFFF0000 = true ∧ dtwAfter 0xFFFFFFFFFFFF0000 0x10000 = false := by decide

/-- The example after R454: an offset of −125,000 ns over 10^9 ticks. -/
theorem test_slew : slewOf (-8192000000) 1000000000 = ⟨-137438953, -472000000, 0, 1000000000⟩ := by decide +kernel

/-- The table after R460, in its order, and the boundary of FAR. -/
theorem test_time_classes :
    let c := (tSt [(F.TIM_LATE_WINDOW.V, 0, 1000)] fun c => { c with time := { c.time with acc := 0xFFFFFF0000000000 * 2 ^ 40 } }).chip
    let n := 0xFFFFFF0000000000 * 2 ^ 16 % 2 ^ 64
    let at_ (ns : Int) : Nat := ((n : Int) + ns * 65536).toNat % 2 ^ 64
    [c.timeClass (at_ 1000000000), c.timeClass (at_ 16777216), c.timeClass (at_ (-500000) ), c.timeClass (at_ (-2000000)),
      c.timeClass (at_ (-72000000000000)), c.timeClass (at_ (2 ^ 47 + 1000000000))] =
    [.ahead, .ahead, .late, .past, .far, .far] := by decide +kernel

/-- The example after R463: the correction field of a Sync from port 37 to port 300. -/
theorem test_ptp_correction :
    let p := { tPacket with
      port := 37, hv := putBe (zerosB 256) 18 2 0x800E, istamp := 5000000200000 * 65536 + 16384
      frame := zerosB 15 ++ [2] ++ zerosB 6 ++ natBe 8 0x28000 ++ zerosB 30 }
    let k := { tCopy 0 with port := 300, estamp := 5000000201384 * 65536 + 32768 }
    let c := (tSt [(F.TIM_PORT_CTRL.TC_EN, 37, 1), (F.TIM_PORT_CTRL.TC_EN, 300, 1), (F.TIM_PORT_ASYM.V, 37, 0x30000)]).chip
    beAt (c.ptpFix p k).2 22 8 = 0x56DC000 ∧ (c.ptpFix p k).1 = true := by decide +kernel

/-- The example of "Flow keys, records and the flow table": H1 = 0xB7E42D93 and H2 = 0x41C70A5E at SLOTS_LOG2 29, BASE_GIB 4. -/
theorem test_flow_places :
    let c := (tSt [(F.FLE_TBL_INFO.SLOTS_LOG2, 0, 29), (F.FLE_TBL_INFO.BASE_GIB, 0, 4)]).chip
    hEngine 0xB7E42D93 = 19 ∧ hSlot 0xB7E42D93 = 91 ∧ hSet 0xB7E42D93 = 968
    ∧ c.flowBuckets 0xB7E42D93 0x41C70A5E = (461406, 189178) ∧ c.tagAddr 19 461406 0 = 0x1E14BC4C0
    ∧ c.tagAddr 19 189178 0 = 0x15C5F44C0 ∧ c.recAddr 19 461406 3 = 0x1014BC4D80 := by decide +kernel

/-- The example after R358: where the lines of that miss stand in DRAM. -/
theorem test_dram_map : granPlace (0x1E14BC4C0 / 128) = ⟨137, 14, 1283, 4⟩ ∧ chanOf 0x1E14BC4C0 = 68
    ∧ granPlace (0x15C5F44C0 / 128) = ⟨9, 31, 928, 6⟩ ∧ granPlace (0x1014BC4D80 / 128) = ⟨27, 30, 10977, 6⟩ := by decide +kernel

/-- The example after R8: queue 70,000's SCH registers start at 0x144_5C00. -/
theorem test_queue_address : F.SCH_Q_STATUS.DEF.addr 70000 0 - F.SCH_Q_STATUS.DEF.addr 0 0 = 0x1445C00 - 0x1000000 := by decide +kernel

/-! ### Witnesses written by hand: quantified hypotheses, and one that rests on a free value -/

theorem witness_UnpoweredRunsChangeNothing : ∃ (s : State) (n : Nat), s.chip.power.vin = false
    ∧ (∀ c ∈ s.pending.take n, reachesUnpowered c = false) ∧ n = 2 :=
  ⟨{ State.reset with chip := { Chip.reset with power := { Chip.reset.power with vin := false } }, pending := [.ppsInEdge, .set] },
  2, by decide +kernel⟩

theorem witness_EveryStepKeepsTheStateSound : ∃ s t : State, s.sound ∧ step s = .next t ∧ s.pending = [.ppsInEdge] :=
  ⟨{ State.reset with pending := [.ppsInEdge] }, _,
  ⟨⟨⟨by decide +kernel, by decide +kernel, by decide +kernel⟩, fun _ => by decide +kernel, fun _ => by decide +kernel⟩,
  fun c h => by
    rw [List.mem_singleton.mp h]
    decide +kernel⟩, rfl, rfl⟩

theorem witness_LeaveMovesOnlyTheLeaversSlots_held :
    ∃ (m : List Nat) (d p : Nat) (rest : List Nat) (s y : Nat) (held : Nat → Nat), m.length = 256 ∧ d ∉ rest ∧ rest ≠ []
    ∧ rest.Pairwise (· < ·) ∧ p ∉ rest ∧ s < 256 ∧ m.getD s 4 = d ∧ y ∈ rest
    ∧ (∀ z, held z = ((List.range 256).filter (fun t =>
        (decide (t < s) || m.getD t 4 != d) && (leaveMap m d p rest).getD t 4 == z)).length) :=
  ⟨List.replicate 256 2, 2, 5, [0, 1], 255, 0, fun z => ((List.range 256).filter (fun t =>
    (decide (t < 255) || (List.replicate 256 2).getD t 4 != 2) && (leaveMap (List.replicate 256 2) 2 5 [0, 1]).getD t 4 == z)).length,
  by decide +kernel, by decide +kernel, by decide +kernel, by decide +kernel, by decide +kernel, by decide +kernel,
  by decide +kernel, by decide +kernel, fun _ => rfl⟩

/-- The first edge ever, and an edge 100 ms after the one before. -/
theorem witness_TimeReferencesConnectorAndPathDelay_pps :
    (∃ s : State, s.chip.power.vin = true ∧ s.chip.flag F.TIM_CTRL.PPS_IN_EN = true ∧ s.chip.time.ppsInAt = none
    ∧ (∀ t, s.chip.time.ppsInAt = some t → t + 100000000 ≤ s.chip.mt))
    ∧ (∃ s : State, s.chip.power.vin = true ∧ s.chip.flag F.TIM_CTRL.PPS_IN_EN = true ∧ s.chip.time.ppsInAt = some 0
    ∧ (∀ t, s.chip.time.ppsInAt = some t → t + 100000000 ≤ s.chip.mt)) :=
  ⟨⟨tSt [(F.TIM_CTRL.PPS_IN_EN, 0, 1)], by decide +kernel, by decide +kernel, rfl, fun t h => nomatch h⟩,
  ⟨tSt [(F.TIM_CTRL.PPS_IN_EN, 0, 1)] fun c => { c with time := { c.time with ppsInAt := some 0, mt := 100000000 * 2 ^ 40 } },
  by decide +kernel, by decide +kernel, rfl, fun t h => by injection h with h; subst h; decide +kernel⟩⟩

/-- The packet in its parse context, the program one instruction of a kind and a NEXT code. -/
def tStepX (k : Nat) : ParseCtx := if k = 7 then { tParse with encap := 4 } else tParse
def tStep (k next : Nat) : State :=
  tPkt (fun p => { p with ctx := some (tStepX k) }) [] fun c =>
    { c with parse := ⟨[(0, [BitVec.ofNat 128 (k * 2 ^ 82 + next * 2 ^ 37)])], []⟩ }

/-- What the first clause of ParseStepsRunTheProgram asks for, at a kind: the step goes, to an address (`way` 0), to an exit
(`way` 1) or to the exit of a bad header (`way` 2). -/
def tGoes (kind : PKind) (way : Nat) : Prop :=
  ∃ (s : State) (pid : Nat) (p : Pkt) (x y z : ParseCtx) (i : PIns) (w : Option Nat), s.chip.power.vin = true
    ∧ s.chip.pkt pid = some p ∧ p.ctx = some x ∧ s.chip.parseIns x.slice x.pc = some i
    ∧ w = (if p.tail = 1 then some p.frame.length else none) ∧ stepCheck x i p.got w = .go
    ∧ y = i.ops.foldl (doOp p.frame p.got w) (i.lds.foldl (doLoad p.frame) { x with done := x.done + 1 })
    ∧ z = (if i.adv.mode = 1 then { y with cur := min 1023 (y.cur + i.adv.imm) }
      else if i.adv.mode = 2 then { y with cur := min 1023 (y.cur + i.adv.imm + y.reg i.adv.w * 2 ^ i.adv.sh) } else y)
    ∧ i.kind = kind
    ∧ (match way with
      | 0 => ∃ a, s.chip.parseNext z i.nx = .pc a
      | 1 => ∃ code, s.chip.parseNext z i.nx = .close code false
      | _ => ∃ code, s.chip.parseNext z i.nx = .close code true)

/-- At address 16 of the built-in program, where an options header that is none stops the walk. -/
def tBadX : ParseCtx := { tParse with pc := 16, window := 100 }
def tBadPkt : Pkt := { tPacket with ctx := some tBadX, tail := 1 }
def tBad : State := tPkt fun _ => tBadPkt

/-- Each kind of instruction, and each of the three ways on. -/
theorem witness_ParseStepsRunTheProgram_go :
    tGoes .nop 0 ∧ tGoes .ext 0 ∧ tGoes .mark 0 ∧ tGoes .lchk 0 ∧ tGoes .kcommit 0 ∧ tGoes .alu 0 ∧ tGoes .setf 0
    ∧ tGoes .lvl 0 ∧ tGoes .nop 1 ∧ tGoes .nop 2 :=
  ⟨⟨(tStep 0 0), 0, { tPacket with ctx := some (tStepX 0) }, tStepX 0, _, _, ((tStep 0 0).chip.parseIns 0 0).get (by decide +kernel), _, by decide +kernel, by decide +kernel, rfl,
    (Option.some_get _).symm, rfl, by decide +kernel, rfl, rfl, by decide +kernel, 1, by decide +kernel⟩,
  ⟨(tStep 1 0), 0, { tPacket with ctx := some (tStepX 1) }, tStepX 1, _, _, ((tStep 1 0).chip.parseIns 0 0).get (by decide +kernel), _, by decide +kernel, by decide +kernel, rfl,
    (Option.some_get _).symm, rfl, by decide +kernel, rfl, rfl, by decide +kernel, 1, by decide +kernel⟩,
  ⟨(tStep 2 0), 0, { tPacket with ctx := some (tStepX 2) }, tStepX 2, _, _, ((tStep 2 0).chip.parseIns 0 0).get (by decide +kernel), _, by decide +kernel, by decide +kernel, rfl,
    (Option.some_get _).symm, rfl, by decide +kernel, rfl, rfl, by decide +kernel, 1, by decide +kernel⟩,
  ⟨(tStep 3 0), 0, { tPacket with ctx := some (tStepX 3) }, tStepX 3, _, _, ((tStep 3 0).chip.parseIns 0 0).get (by decide +kernel), _, by decide +kernel, by decide +kernel, rfl,
    (Option.some_get _).symm, rfl, by decide +kernel, rfl, rfl, by decide +kernel, 1, by decide +kernel⟩,
  ⟨(tStep 4 0), 0, { tPacket with ctx := some (tStepX 4) }, tStepX 4, _, _, ((tStep 4 0).chip.parseIns 0 0).get (by decide +kernel), _, by decide +kernel, by decide +kernel, rfl,
    (Option.some_get _).symm, rfl, by decide +kernel, rfl, rfl, by decide +kernel, 1, by decide +kernel⟩,
  ⟨(tStep 5 0), 0, { tPacket with ctx := some (tStepX 5) }, tStepX 5, _, _, ((tStep 5 0).chip.parseIns 0 0).get (by decide +kernel), _, by decide +kernel, by decide +kernel, rfl,
    (Option.some_get _).symm, rfl, by decide +kernel, rfl, rfl, by decide +kernel, 1, by decide +kernel⟩,
  ⟨(tStep 6 0), 0, { tPacket with ctx := some (tStepX 6) }, tStepX 6, _, _, ((tStep 6 0).chip.parseIns 0 0).get (by decide +kernel), _, by decide +kernel, by decide +kernel, rfl,
    (Option.some_get _).symm, rfl, by decide +kernel, rfl, rfl, by decide +kernel, 1, by decide +kernel⟩,
  ⟨(tStep 7 0), 0, { tPacket with ctx := some (tStepX 7) }, tStepX 7, _, _, ((tStep 7 0).chip.parseIns 0 0).get (by decide +kernel), _, by decide +kernel, by decide +kernel, rfl,
    (Option.some_get _).symm, rfl, by decide +kernel, rfl, rfl, by decide +kernel, 1, by decide +kernel⟩,
  ⟨(tStep 0 4), 0, { tPacket with ctx := some (tStepX 0) }, tStepX 0, _, _, ((tStep 0 4).chip.parseIns 0 0).get (by decide +kernel), _, by decide +kernel, by decide +kernel, rfl,
    (Option.some_get _).symm, rfl, by decide +kernel, rfl, rfl, by decide +kernel, 0, by decide +kernel⟩,
  ⟨tBad, 0, tBadPkt, tBadX, _, _, (tBad.chip.parseIns 0 16).get (by decide +kernel), _, by decide +kernel, by decide +kernel, rfl,
    (Option.some_get _).symm, rfl, by decide +kernel, rfl, rfl, by decide +kernel, 0xE0, by decide +kernel⟩⟩

/-- A firmware image of one body byte, staged in DRAM. -/
def tImage : List Host.Cell :=
  [(stageBase, 0x4D), (stageBase + 1, 0x46), (stageBase + 2, 0x57), (stageBase + 3, 0x49), (stageBase + 4, 1), (stageBase + 8, 1),
    (stageBase + 16, 1)]
def tUpdate : State :=
  tSt [(F.MGT_MBX_ARG.V, 0, 1), (F.MGT_MBX_ARG.V, 2, 161), (F.GLB_STATUS.DRAM_TRAINED, 0, 1)] fun c =>
    tPolicy { c with dram := tImage, flash := { c.flash with fwFloor := 1 } }
def tImg : Bytes := tUpdate.chip.dramRead stageBase 161

/-- Where the signature of the staged image verifies, which is a free value's to say, the command is accepted. -/
theorem witness_MailboxCommandsAnswerInOrder_update
    (h : Config.ecdsaOk Config.firmwareKey (Config.sha384 (tImg.take 65)) (tImg.drop 65) = true) :
    ∃ (s : State) (a : List Nat), s.chip.power.vin = true ∧ s.chip.flag F.MGT_MBX_STATUS.RUNNING = false
    ∧ a = (List.range 4).map (fun k => s.chip.getF F.MGT_MBX_ARG.V k) ∧ s.chip.mpWake.mbxInvalid 5 (fun k => a.getD k 0) = 0
    ∧ s.chip.mpWake.polBit 0x24A 5 = true ∧ s.chip.mgt.flashWrite = none := by
  refine ⟨tUpdate, [1, 0, 161, 0], by decide +kernel, by decide +kernel, by decide +kernel, ?_, by decide +kernel,
    by decide +kernel⟩
  have hn : leAt tImg 16 4 = 1 := by decide +kernel
  have hf : tUpdate.chip.mpWake.fwCheck tImg = 0 := by
    unfold Chip.fwCheck
    rw [if_neg (by decide +kernel), if_neg (by decide +kernel), hn, if_neg (by rw [h]; decide), if_neg (by decide +kernel)]
  have hu : tUpdate.chip.mpWake.updateCheck 1 (tUpdate.chip.mpWake.dramRead (stageBase + 0) 161) = 0 := by
    have he : tUpdate.chip.mpWake.dramRead (stageBase + 0) 161 = tImg := by decide +kernel
    rw [he]
    unfold Chip.updateCheck
    rw [if_neg (by decide +kernel)]
    exact hf
  unfold Chip.mbxInvalid
  simp only []
  rw [if_neg (by decide +kernel), if_neg (by decide +kernel), if_neg (by decide +kernel), if_pos trivial]
  exact hu

theorem witness_KeyCrcEmitAndTimeOps_poola : ∃ (s : State) (x : Fin 1024) (v : Ctx) (w : Mw) (ws : WordSt) (d : Nat),
    s.chip.power.vin = true ∧ s.chip.unitAt x 3 6 v w ws ∧ d = (v.reg (mwKr w)).toNat ∧ v.touch [(bitsOf 27 16 d, 40)] = 0
    ∧ (∀ i, i < 256 → npOk (s.chip.natPool i) = false) :=
  ⟨tRun [(99, 6)], 0, (tRun [(99, 6)]).chip.ctx 0, (tRun [(99, 6)]).chip.mwAt 0 0, tProg [], 0, by decide +kernel,
  ⟨rfl, by decide +kernel, by decide +kernel, by decide +kernel, by decide +kernel, by decide +kernel⟩, by decide +kernel,
  by decide +kernel, by decide +kernel⟩

theorem witness_MemoryRequestsCompleteAndChannelsFreeze_accepted : ∃ (s : State) (r : Fin 8) (p a n : Nat),
    s.chip.power.vin = true ∧ (s.chip.hbm.queue.filter (fun q => q.req == r.val && q.port == p)).length < reqDepth r
    ∧ (∀ ch ∈ chansOf a n, s.chip.chErr ch = false) ∧ n = 64 :=
  ⟨State.reset, 0, 0, 0, 64, by decide +kernel⟩

theorem witness_SchedulerShapersGatesAndObservation_drr : ∃ (len : Nat → Option Nat) (m x : Nat) (df : SMap Nat),
    len m = some x ∧ x ≤ smGet (fun _ => 0) df m ∧ x = 60 :=
  ⟨fun _ => some 60, 0, 60, [(0, 60)], rfl, by decide +kernel⟩

theorem witness_GangMembershipChangesInSteps_map : ∃ (m : List Nat) (k : Nat),
    m.length = 256 ∧ (∀ d, d ∈ m → d < 4) ∧ k < 256 :=
  ⟨List.replicate 256 3, 255, by decide +kernel⟩

/-- A cut-through frame goes to a pipe before its tail; one turns out bad after 100 bytes. -/
theorem witness_FramesAreReceivedAndCounted_cut :
    (∃ (s : State) (pid q n : Nat) (f : Bytes) (x : Pkt), s.chip.power.vin = true ∧ s.chip.pkt pid = some x ∧ x.stage = .mac
    ∧ x.tail = 0 ∧ 256 ≤ f.length ∧ s.chip.parked x.slice = false ∧ s.chip.sliceHeld x.slice = false ∧ x.src = 0 ∧ x.pass = 0
    ∧ s.chip.gangPort x.port = false ∧ s.chip.pickPipe x.slice = some q ∧ n = 1000)
    ∧ (∃ (c : Chip) (pid : Nat) (b : Bytes) (x : Pkt), c.pkt pid = some x ∧ x.tail = 0
    ∧ b.length ≤ c.getF F.PRT_MAXFRAME.MAXFRAME x.port - 4 ∧ x.frame.length < b.length) :=
  ⟨⟨tPkt id, 0, ((tPkt id).chip.pickPipe tPacket.slice).get (by decide +kernel), 1000, zerosB 256, tPacket, by decide +kernel,
  by decide +kernel, by decide +kernel, by decide +kernel, by decide +kernel, by decide +kernel, by decide +kernel,
  by decide +kernel, by decide +kernel, by decide +kernel, (Option.some_get _).symm, rfl⟩,
  ⟨(tPkt id [(F.PRT_MAXFRAME.MAXFRAME, 0, 1518)]).chip, 0, zerosB 100, tPacket, by decide +kernel, by decide +kernel,
  by decide +kernel, by decide +kernel⟩⟩

/-! ### Witnesses: the states -/

def s0 : State := State.reset
def s1 : State := ⟨Chip.reset, [.timeTick]⟩
def s2 : State := tSt [] fun c => { c with time := { c.time with slew := some ⟨1, 0, 0, 4⟩ } }
def s3 : State := tSt [] fun c => { c with time := { c.time with setNext := some 5 } }
def s4 : State := tSt [] fun c => { c with time := { c.time with incrNext := some 5 } }
def s5 : State := tSt [] fun c => { c with time := { c.time with refSrc := true } }
def s6 : State := tSt [(F.GLB_STATUS.TIME_VALID, 0, 1), (F.TIM_SLEW_TICKS.V, 0, 1000), (F.TIM_SACT_ADDR.V, 0, 0x1001C),
  (F.TIM_SACT_MASK.V, 0, 1), (F.TIM_SACT_TIME.V, 0, 0x1000000)]
def s7 : State := tSt [(F.TIM_SACT_STATE.PHASE, 1, 1), (F.TIM_SACT_STATE.PHASE, 2, 2), (F.TIM_STATUS.REF_LOCKED, 0, 1),
  (F.TIM_CTRL.PPS_OUT_EN, 0, 1), (F.TIM_PDELAY_STEP.V, 0, 1), (F.TIM_PORT_PDELAY.V, 0, 1)]
def s8 : State := tSt [(F.GNG_CTRL.TIME_FOLLOW, 0, 1), (F.GNG_STATUS.STATE, 0, 1), (F.GNG_STATUS.COORD, 0, 1),
  (F.GLB_STATUS.TIME_VALID, 0, 1)]
def s9 : State := tSt [] fun c => { c with power := { c.power with vin := false } }
def s10 : State := tSt [] fun c => { c with power := { c.power with vsb := false, vin := false, aon := false } }
def s11 : State := tSt [] fun c => { c with power := { c.power with offHeld := true, vin := false } }
def s12 : State := tSt [] tPolicy
def s13 : State := tSt [] fun c => { c with gang := { c.gang with resetAt := some 0 } }
def s14 : State := tSt [] fun c => { c with power := { c.power with loadDue := false } }
def s15 : State := tSt [] fun c => { c with sfl := { c.sfl with deniedArmed := false } }
def s16 : State := tSt [(F.PLT_SRC_LEN.V, 0, 4096), (F.GLB_STATUS.DRAM_TRAINED, 0, 1)]
def s17 : State := tSt [(F.GLB_STATUS.PLATE_LOADED, 0, 1)]
def s18 : State := tSt [] fun c => { c with plate := { c.plate with pend := some [] } }
def s19 : State := tSt [] fun c => { c with plate := { c.plate with pend := some [] }, flash := { c.flash with goodA := true } }
def s20 : State := tSt [] fun c => { c with plate := { c.plate with slotWrite := some (false, []) } }
def s21 : State := tSt [] fun c => { c with flash := { c.flash with plateA := ⟨1, []⟩ } }
def s22 : State := tSt [(F.GLB_STATUS.TIME_VALID, 0, 1), (F.PLT_CMD_TIME.V, 0,
  0x1000000)] fun c => tPolicy { c with plate := { c.plate with pend := some [] } }
def s23 : State := tSt [(F.PLT_SB_STATE.PHASE, 1, 1), (F.PLT_SB_STATE.PHASE, 2, 2), (F.PLT_SB_STATE.PHASE, 3, 3),
  (F.PLT_SB_STATE.PHASE, 4, 4), (F.PLT_SB_STATE.PHASE, 5, 5)]
def s24 : State := tSt [(F.PLT_SB_STATE.PHASE, 1, 1)] fun c => { c with time := { c.time with late := [.bath 1] } }
def s25 : State := tSt [(F.PLT_SB_STATE.PHASE, 2, 2), (F.PLT_SB_STATE.UNIT, 2,
  5)] fun c => { c with ports := [(0, { PortSt.init with txBusy := some (0, 0) })] }
def s26 : State := tSt [(F.SFL_STATUS.FROZEN, 0, 1)] fun c => tPolicy { c with plate := { c.plate with pend := some [] } }
def s29 : State := tLane 1
def s30 : State := tLane 2
def s31 : State := tLane 3
def s32 : State := tLane 4
def s33 : State := tLane 5
def s34 : State := tLane 6
def s36 : State := tLane 8
def s38 : State := tLane 10
def s39 : State := tLane 11
def s40 : State := tLane 5 fun x => { x with switchTo := some 1 }
def s41 : State := tLane 6 fun x => { x with upSent := true }
def s42 : State := tLane 6 (fun x => { x with contents := [(1, [])] })
def s43 : State := tLane 6 fun x => { x with abortOut := some 1 }
def s44 : State := tLane 6 fun x => { x with acks := [(1, 0)] }
def s45 : State := tLane 9 fun x => { x with waking := true }
def s46 : State := tLane 8 id [(F.LNA_STATUS.TX_DIM, 0, 1), (F.LNA_STATUS.RX_DIM, 0, 1), (F.LNA_CTRL.DIM_EN, 0, 1),
  (F.PRT_CFG.MODE, 0, 1), (F.PRT_STATUS.LPI_CAPABLE, 0, 1)]
def s47 : State := tLane 11 id [(F.LNA_MODE.RATE, 0, 1), (F.LNA_PC_CTRL.ENABLE, 0, 1), (F.LNA_PC_STATUS.LOCK, 0, 1),
  (F.LNA_PG_INJ_PERIOD.V, 0, 1), (F.LNA_RX_ALIGN.ALIGN_MODE, 0, 1)]
def s49 : State := tSt [(F.PRT_STATUS.PSTATE, 0, 2), (F.PRT_GIVEUP.S, 0, 1)]
def s50 : State := tSt [(F.PRT_STATUS.PSTATE, 0, 2), (F.PRT_GIVEUP.S, 0, 1), (F.PRT_CFG.MODE, 0, 18), (F.PRT_CFG.WIDTH, 0,
  1), (F.PRT_CFG.DEGRADE, 0, 1), (F.LNA_STATUS.STATE, 0, 8)]
def s51 : State := tSt [] fun c => { c with ports := [(0, { PortSt.init with half := true })] }
def s52 : State := tSt [(F.PRT_STATUS.PSTATE, 0, 3), (F.PRT_CFG.LPI_EN, 0, 1), (F.PRT_STATUS.LPI_CAPABLE, 0, 1),
  (F.PRT_LPI.IDLE_US, 0, 1)]
def s53 : State := tSt [(F.PRT_STATUS.LPI_TX, 0, 1)]
def s54 : State := tSt [(F.PRT_STATUS.PSTATE, 0, 3), (F.PRT_CFG.PAUSE_MODE, 0, 1)]
def s55 : State := tSt [(F.PRT_STATUS.PSTATE, 0, 3), (F.PRT_CFG.PAUSE_MODE, 0, 2)]
def s56 : State := tSt [(F.PRT_CVU_CTRL.SNOOP_EN, 0, 1)]
def s57 : State := tSt [(F.PRT_STATUS.PSTATE, 0, 3), (F.SFL_STATUS.TRIP, 0, 2)]
def s58 : State := tSt [(F.PRT_STATUS.PSTATE, 0, 3), (F.PRT_MAXFRAME.MAXFRAME, 0, 1518)]
def s59 : State := tPkt id [(F.TMG_FREE.V, 0, 100)] fun c => { c with ports := [(0, { PortSt.init with elastic := [0] })] }
def s60 : State := tPkt fun p => { p with tail := 1 }
def s61 : State := tPkt (fun p => { p with tail := 1, src := 4 }) [] fun c => { c with pkts := c.pkts ++ (List.range 768).map (fun k => (k + 1, { tPacket with ctx := some { tParse with pipe := k / 64 } })) }
def s62 : State := tPkt id [] fun c => { c with ports := [(0, { PortSt.init with arriving := some 0 })] }
def s63 : State := tPkt id [(F.PRT_MAXFRAME.MAXFRAME, 0,
  1518)] fun c => { c with ports := [(0, { PortSt.init with arriving := some 0 })] }
def s65 : State := tSt [(F.PRT_SITE_STATUS.PRESENT, 0, 1)] fun c => { c with power := { c.power with vin := false } }
def s66 : State := tSt ((List.range 9).map (fun k => (F.PRT_SITE_STATUS.SSTATE, k,
  k)) ++ (List.range 9).map (fun k => (F.PRT_SITE_STATUS.PRESENT, k, 1)) ++ [(F.PRT_SITE_CTRL.AUTO, 4, 1),
  (F.PRT_SITE_CTRL.AUTO, 5, 1), (F.PRT_SITE_CTRL.POWER_LIMIT, 0,
  1)]) fun c => { c with sites := [(2, { SiteSt.init with pollOn := true }), (6, { SiteSt.init with busy := true }), (7, { SiteSt.init with busy := true, write := true })] }
def s67 : State := tSt [(F.PRT_SITE_STATUS.PRESENT, 0, 1), (F.PRT_SITE_XFER_ADDR.LENGTH, 0, 1),
  (F.PRT_SITE_XFER_ADDR.OFFSET, 0, 0x80)]
def s69 : State := tPkt (fun p => { p with ctx := some (tParse 0) }) [] fun c => { c with parse := ⟨[(0, [BitVec.ofNat 128 (0 * 2 ^ 82 + 4 * 2 ^ 37)])], []⟩ }
def s71 : State := tPkt (fun p => { p with ctx := some (tParse 0) }) [] fun c => { c with parse := ⟨[(0, [BitVec.ofNat 128 (1 * 2 ^ 82 + 4 * 2 ^ 37)])], []⟩ }
def s75 : State := tPkt (fun p => { p with ctx := some (tParse 0) }) [] fun c => { c with parse := ⟨[(0, [BitVec.ofNat 128 (3 * 2 ^ 82 + 4 * 2 ^ 37)])], []⟩ }
def s77 : State := tPkt (fun p => { p with ctx := some (tParse 0) }) [] fun c => { c with parse := ⟨[(0, [BitVec.ofNat 128 (4 * 2 ^ 82 + 4 * 2 ^ 37)])], []⟩ }
def s79 : State := tPkt (fun p => { p with ctx := some (tParse 0) }) [] fun c => { c with parse := ⟨[(0, [BitVec.ofNat 128 (5 * 2 ^ 82 + 4 * 2 ^ 37)])], []⟩ }
def s81 : State := tPkt (fun p => { p with ctx := some (tParse 0) }) [] fun c => { c with parse := ⟨[(0, [BitVec.ofNat 128 (6 * 2 ^ 82 + 4 * 2 ^ 37)])], []⟩ }
def s82 : State := tPkt (fun p => { p with ctx := some (tParse 4) }) [] fun c => { c with parse := ⟨[(0, [BitVec.ofNat 128 (7 * 2 ^ 82 + 4 * 2 ^ 37)])], []⟩ }
def s85 : State := tPkt (fun p => { p with ctx := some { tParse with window := 100 } }) [] fun c => { c with parse := ⟨[(0, [BitVec.ofNat 128 (2 ^ 82 + 8 * 2 ^ 73 + 8 * 2 ^ 57 + 8 * 2 ^ 65 + 4 * 2 ^ 37)])], []⟩ }
def s86 : State := tPkt fun p => { p with stage := .classify }
def s87 : State := tPkt fun p => { p with stage := .classify, ver := some 0 }
def s88 : State := tPkt fun p => { p with stage := .classify, src := 5, ver := some 9 }
def s89 : State := tSt [] fun c => { c with rules := { c.rules with regions := [(0, [1, 0, 0, 0, 1, 0, 0, 0] ++ zerosB 120)] } }
def s91 : State := tSt [(F.CLS_TCMD_STATUS.RUNNING, 0, 1)]
def s92 : State := tSt [] fun c => { c with rules := { c.rules with fixAt := some 0 } }
def s93 : State := tSt [(F.CLS_VERSION.CUR, 0, 7)]
def s96 : State := tSt [(F.CLS_TPROF_INFO.PRESENT, 0, 1), (F.CLS_TPROF_INFO.UNITS, 0,
  1)] fun c => { c with rules := { c.rules with regions := [(0, [6] ++ zerosB 127)] } }
def s97 : State := tSt [(F.CLS_TPROF_INFO.PRESENT, 0, 1), (F.CLS_TPROF_INFO.UNITS, 0,
  1)] fun c => { c with rules := { c.rules with regions := [(0, [6] ++ zerosB 127)] }, tern := { c.tern with entries := [(0, ⟨0, 0, true, true, zerosB 104⟩)] } }
def s98 : State := tPkt fun p => { p with inspect := 1, tail := 1 }
def s99 : State := tPkt (fun p => { p with inspect := 1, tail := 1 }) [(F.CLS_PAT_CTRL.ENABLE, 0, 1)]
def s100 : State := tPkt (fun p => { p with inspect := 1, tail := 1 }) [] fun c => { c with pattern := { c.pattern with engines := [(0, 0)] } }
def s101 : State := tPkt (fun p => { p with inspect := 1, tail := 1 }) [] fun c => { c with pattern := { c.pattern with queue := [(0, 0)] } }
def s102 : State := tPkt fun p => { p with stage := .flowWait, flowKey := some (zerosB 40) }
def s104 : State := tSt [(F.GNG_STATUS.STATE, 0, 3)]
def s105 : State := tEng { EngSt.init with input := List.replicate 512 (tOp 0) }
def s107 : State := tSt [(F.MGT_PARK_STATUS.GATED, 0, 1)]
def s108 : State := tSt [(F.MGT_PARK_STATUS.GATED, 0, 1), (F.MGT_PARK_STATUS.PARKED, 0, 1)]
def s109 : State := tGang 0
def s110 : State := tGang 1
def s111 : State := tGang 1 [(F.GNG_CTRL.TIME_FOLLOW, 0, 1), (F.GLB_STATUS.TIME_VALID, 0, 1)]
def s112 : State := tGang 1 [(F.GNG_CTRL.TIME_FOLLOW, 0, 1), (F.GLB_STATUS.TIME_VALID, 0, 1), (F.GNG_TIME_STEP.V, 0, 1000)]
def s113 : State := tEng { EngSt.init with ways := [(0, { Way.init 0 with full := true, record := zerosB 128 })] }
def s114 : State := tEng { EngSt.init with ways := [(0, { Way.init 0 with full := true, record := zerosB 128 })], station := [tOp 6] }
def s115 : State := tEng { EngSt.init with station := [tOp 0] }
def s116 : State := tEng { EngSt.init with lookups := [⟨zerosB 40, 0, 0, 0, 0, 0, true⟩] }
def s117 : State := tEng { EngSt.init with lookups := List.replicate 512 ⟨zerosB 40, 0, 0, 1, 0, 0, true⟩ }
def s119 : State := tEng { EngSt.init with lookups := [⟨zerosB 40, 0, 0, 2, 0, 0, false⟩] }
def s120 : State := tEng { EngSt.init with lookups := [⟨zerosB 40, 0, 0, 3, 0, 0, false⟩] }
def s121 : State := tEng { EngSt.init with lookups := [⟨zerosB 40, 0, 0, 4, 0, 0, false⟩] }
def s122 : State := tEng { EngSt.init with lookups := [⟨zerosB 40, 0, 0, 1, 0, 0, false⟩] } [(F.FLE_TBL_INFO.SLOTS_LOG2, 0,
  20)] fun c => { c with dram := [(5, 128)] }
def s123 : State := tEng { EngSt.init with lookups := [⟨zerosB 40, 0, 0, 2, 0, 0, false⟩] } [(F.FLE_TBL_INFO.SLOTS_LOG2, 0,
  20)] fun c => { c with dram := [(5, 128)] }
def s125 : State := tEng { EngSt.init with ways := (List.range 16).map (fun k => (k, { Way.init k with full := true, held := true, record := zerosB 128 })) }
def s126 : State := tSt [] fun c => { c with wds := { c.wds with setupEnds := [(0, 0, 0)] } }
def s127 : State := tEng { EngSt.init with setups := [⟨0, tOp 0, 1, 0, false⟩] }
def s128 : State := tEng { EngSt.init with setups := [⟨0, tOp 0, 0, 0, false⟩] } [(F.WDS_CL_ENTRY.PRESENT, 0, 1),
  (F.WDS_CL_MAX.V, 0, 1), (F.WDS_SHARED_FREE.V, 0, 1)]
def s130 : State := tSt [] fun c => { c with act := { c.act with reqs := [tOp 2] } }
def s131 : State := tSt [] fun c => { c with act := { c.act with reqs := [tOp 3] } }
def s132 : State := tSt [] fun c => { c with act := { c.act with reqs := [tOp 5] } }
def s133 : State := tSt [] fun c => { c with act := { c.act with reqs := [tOp 6] } }
def s134 : State := tSt [] fun c => { c with act := { c.act with reqs := [tOp 7] } }
def s135 : State := tEng { EngSt.init with preps := [⟨{ tOp 3 with src := 0 }, 0, 0, 0, false⟩] } [] fun c => { c with act := { c.act with msgs := [(true, 0, 0, 0)] } }
def s136 : State := tEng { EngSt.init with preps := [⟨{ tOp 3 with src := 0 }, 0, 0, 0, false⟩] } [] fun c => { c with act := { c.act with msgs := [(false, 0, 0, 0)] } }
def s137 : State := tGang 0 [] fun c => { c with flow := { c.flow with eng := [(0, { EngSt.init with preps := [⟨{ tOp 3 with src := 1025 }, 0, 0, 0, false⟩] })] } }
def s139 : State := tRun [(164, 1)]
def s141 : State := tRun [(164, 2)]
def s143 : State := tRun [(164, 3)]
def s145 : State := tRun [(164, 4)]
def s147 : State := tRun [(164, 5)]
def s149 : State := tRun [(164, 6)]
def s151 : State := tRun [(164, 7)]
def s153 : State := tRun [(164, 8)]
def s155 : State := tRun [(164, 9)]
def s157 : State := tRun [(164, 10)]
def s159 : State := tRun [(164, 11)]
def s161 : State := tRun [(164, 12)]
def s163 : State := tRun [(164, 13)]
def s165 : State := tRun [(164, 14)]
def s167 : State := tRun [(164, 15)]
def s169 : State := tRun [(164, 13), (163, 1), (35, 3)]
def s171 : State := tRun [(118, 1)]
def s172 : State := tRun [(118, 2)]
def s174 : State := tRun [(118, 4)]
def s175 : State := tRun [(118, 5)]
def s176 : State := tRun [(118, 6)]
def s179 : State := tRun [(118, 9)]
def s181 : State := tRun [(118, 11)]
def s182 : State := tRun [(118, 1), (35, 4090)]
def s183 : State := tRun [(118, 2), (35, 4090)]
def s184 : State := tRun [(118, 3), (103, 1)] [] fun v => { v with g := [(1, BitVec.ofNat 64 (8 * 2 ^ 24))] }
def s185 : State := tRun [(118, 7), (109, 1)] [] fun v => { v with g := [(1, BitVec.ofNat 64 (8 * 2 ^ 16))] }
def s186 : State := tRun [(118, 8), (109, 1)] [] fun v => { v with g := [(1, BitVec.ofNat 64 (8 * 2 ^ 16))] }
def s187 : State := tRun [(118, 10), (109, 1)] [] fun v => { v with g := [(1, BitVec.ofNat 64 (8 * 2 ^ 16))] }
def s188 : State := tRun [(118, 11)] [] fun v => { v with deltas := List.replicate 16 (0, 0) }
def s189 : State := tRun [(99, 1)]
def s192 : State := tRun [(99, 2)]
def s195 : State := tRun [(99, 3)]
def s199 : State := tRun [(99, 4)] [] fun v => { v with g := [(0, BitVec.ofNat 64 (8 * 2 ^ 24))] }
def s201 : State := tRun [(99, 5)]
def s210 : State := tRun [(99, 8)]
def s213 : State := tRun [(99, 9)]
def s216 : State := tRun [(99, 10)]
def s219 : State := tRun [(89, 1)]
def s220 : State := tRun [(89, 1), (86, 1)]
def s221 : State := tRun [(89, 2), (118, 1)]
def s222 : State := tRun [(89, 3)]
def s223 : State := tRun [(80, 1)] [] (fun v => { v with g := [(0, BitVec.ofNat 64 (60 * 2 ^ 16))] }) tPolicy
def s224 : State := tRun [(80, 2)] [] (fun v => { v with g := [(0, BitVec.ofNat 64 (60 * 2 ^ 16))] }) tPolicy
def s225 : State := tRun [(80, 3)] [] (fun v => { v with g := [(0, BitVec.ofNat 64 (64 * 2 ^ 16))] }) tPolicy
def s226 : State := tRun [(80, 4)] [] (fun v => { v with g := [(0, BitVec.ofNat 64 (8 * 2 ^ 16))] }) tPolicy
def s227 : State := tRun [(31, 1)]
def s228 : State := tRun [(31, 2)]
def s229 : State := tRun [(31, 3)]
def s230 : State := tRun [(31, 4)]
def s231 : State := tRun [(189, 0)]
def s233 : State := tRun [(189, 1)]
def s235 : State := tRun [(189, 2)]
def s237 : State := tRun [(189, 3)]
def s239 : State := tRun [(189, 4)]
def s241 : State := tRun [(189, 5)]
def s242 : State := tRun [(189, 5), (173, 1)]
def s243 : State := tRun [(189, 6)]
def s244 : State := tRun [(189, 6), (173, 1)]
def s245 : State := tRun [(189, 2)] [] fun v => { v with stack := List.replicate 8 0 }
def s246 : State := tRun [(189, 3)] [] fun v => { v with stack := [0] }
def s248 : State := tSt [] fun c => { c with flow := { c.flow with answers := [⟨tOp 3, 0, []⟩] }, act := { c.act with ctxs := [(0, { Ctx.init with st := 2, commit := [⟨tOp 3, 0, 0, 1, 0⟩] })] } }
def s249 : State := tSt [] fun c => { c with flow := { c.flow with answers := [⟨tOp 3, 3, []⟩] }, act := { c.act with ctxs := [(0, { Ctx.init with st := 2, commit := [⟨tOp 3, 0, 0, 1, 0⟩] })] } }
def s250 : State := tSt [] fun c => { c with flow := { c.flow with answers := [⟨tOp 3, 7, []⟩] }, act := { c.act with ctxs := [(0, { Ctx.init with st := 2, commit := [⟨tOp 3, 0, 0, 1, 0⟩] })] } }
def s251 : State := tSt [] fun c => { c with act := { c.act with ctxs := [(0, { Ctx.init with st := 2, commit := [⟨tOp 3, 0, 0, 0, 0⟩] })] } }
def s252 : State := tSt [] fun c => { c with act := { c.act with ctxs := [(0, { Ctx.init with st := 4, bound := some (tBound 8) })], commitQ := [0] } }
def s253 : State := tSt [] fun c => { c with act := { c.act with ctxs := [(0, { Ctx.init with st := 1, broken := [0] })] } }
def s254 : State := tSt [] fun c => { c with act := { c.act with ctxs := [(0, { Ctx.init with st := 5, bound := some (tBound 8) })] } }
def s255 : State := tSt [] fun c => { c with act := { c.act with ctxs := [(0, { Ctx.init with st := 5, endSt := 1, endCode := abStopped, bound := some (tBound 8) })] } }
def s256 : State := tSt [] fun c => { c with act := { c.act with ctxs := [(0, { Ctx.init with st := 1, fills := [⟨0, 0, 8, false⟩] })] } }
def s257 : State := tSt [] fun c => { c with flow := { c.flow with answers := [⟨tOp 2, 3, []⟩] }, act := { c.act with ctxs := [(0, { Ctx.init with st := 1, word := some (tProg []), rd := some ⟨tOp 2, 0, 0, 1, 0⟩ })] } }
def s258 : State := tSt [] fun c => { c with act := { c.act with ctxs := [(0, { Ctx.init with st := 1, word := some (tProg []), rd := some ⟨tOp 2, 1, 0, 1, 0⟩ })] } }
def s259 : State := tSt [(F.WDS_CL_AWAKE.V, 0, 1), (F.WDS_CL_ENTRY.PRESENT, 0, 1), (F.WDS_CL_ENTRY.CLUSTERS, 0, 1),
  (F.WDS_CL_SCHED.WEIGHT, 0, 1)] fun c => { c with wds := { c.wds with waiting := [(0, [tBound 8])] } }
def s260 : State := tSt [(F.WDS_CL_ENTRY.CLUSTERS, 0,
  1)] fun c => { c with wds := { c.wds with waiting := [(0, [tBound 8])] } }
def s261 : State := tSt [(F.WDS_TMR_CTRL.ENABLE, 0, 1)]
def s262 : State := tSt [(F.WDS_CL_ENTRY.PRESENT, 0, 1), (F.WDS_CL_MAX.V, 0, 1), (F.WDS_SHARED_FREE.V, 0, 1),
  (F.WDS_CL_SCHED.HOSTPOST, 0, 1), (F.WDS_HPOST_DATA.V, 0, 0x80)] tPolicy
def s264 : State := tSt [] fun c => { c with wds := { c.wds with wakes := [(0, 0)] } }
def s266 : State := tSt [(F.FLE_SWEEP_CTRL.ENABLE, 0, 1), (F.FLE_TBL_INFO.SLOTS_LOG2, 0, 20)]
def s267 : State := tSt [] fun c => { c with hbm := { c.hbm with queue := List.replicate 64 ⟨0, 0, 0, 0, 64, false, zerosB 64, 0, [0]⟩ } }
def s269 : State := tSt [] fun c => { c with hbm := { c.hbm with queue := [⟨0, 0, 0, 0, 64, true, zerosB 64, 0, []⟩] } }
def s270 : State := tSt [] fun c => { c with hbm := { c.hbm with queue := [⟨0, 0, 0, 0, 64, false, zerosB 64, 0, []⟩] } }
def s271 : State := tSt [(F.HBM_CH_STATUS.STATE, 0, 0)]
def s273 : State := tSt [(F.HBM_CH_STATUS.STATE, 0, 2)]
def s276 : State := tSt [(F.HBM_CH_STATUS.STATE, 0, 5)]
def s279 : State := tSt [(F.HBM_FENCE.RUNNING, 0, 1)]
def s280 : State := tSt [] fun c => { c with hbm := { c.hbm with fence := [0] } }
def s281 : State := tSt [(F.HBM_CTRL.SCRUB_EN, 0, 1)]
def s282 : State := tSt [] fun c => { c with hbm := { c.hbm with scrubQ := [0] } }
def s283 : State := tSt [(F.HBM_CH_STATUS.PD0, 0, 1)]
def s284 : State := tSt [(F.HBM_CTRL.SR_EN, 0, 1), (F.HBM_CH_STATUS.STATE, 0, 0)]
def s285 : State := tSt [(F.HBM_STK_STATUS.STATE, 0, 2)]
def s287 : State := tSt [(F.HBM_CTRL.TRACK_EN, 0, 1), (F.HBM_CH_STATUS.STATE, 0, 0)]
def s289 : State := tSt [] fun c => { c with hbm := { c.hbm with changing := [(0, 1)] } }
def s290 : State := tPkt fun p => { p with stage := .ready }
def s291 : State := tSt [(F.PRT_CFG.MODE, 0, 1), (F.PRT_CFG.ENABLE, 0, 1)] tPolicy
def s292 : State := tSt [(F.PRT_CFG.MODE, 0, 1), (F.PRT_CFG.ENABLE, 0, 1), (F.PRT_STATUS.PSTATE, 0, 3)] tPolicy
def s294 : State := tPkt (fun p => { p with stage := .residue, copies := [tCopy 0] }) [] fun c => { c with tm := { c.tm with residue := [(0, 0)] } }
def s295 : State := tPkt fun p => { p with stage := .recircWait, tail := 1 }
def s296 : State := tPkt (fun p => { p with stage := .recircWait, tail := 1 }) [] fun c => { c with tm := { c.tm with recirc := [(0, List.replicate 1024 1)] } }
def s299 : State := tSt [] fun c => { c with tm := { c.tm with pfcDue := [(0, 257)] } }
def s300 : State := tSt [(F.TMG_PORT_PFC.STATE, 0, 1)]
def s301 : State := tSt [] fun c => { c with tm := { c.tm with bindings := [(0, ⟨2, 0, 0, 0, 0, []⟩)] } }
def s302 : State := tSt [] fun c => { c with tm := { c.tm with bindings := [(0, ⟨1, 0, 0, 0, 0, []⟩)] } }
def s304 : State := tPkt (fun p => { p with tail := 1, copies := [tCopy 2] }) [] fun c => { c with ports := [(0, { PortSt.init with txBusy := some (0, 0) })] }
def s305 : State := tPkt (fun p => { p with copies := [tCopy 2] }) [] fun c => { c with ports := [(0, { PortSt.init with txBusy := some (0, 0) })] }
def s306 : State := tSt [(F.SCH_Q_INFO.KIND, 0, 1)]
def s307 : State := tSt [(F.GLB_STATUS.TIME_VALID, 0, 1), (F.SCH_GATE_ADMIN_CYCLE.V, 0, 1000)]
def s308 : State := tSt [] fun c => { c with sched := { c.sched with gates := [(0, ⟨none, some ⟨[], 0, 0, false⟩⟩)] } }
def s309 : State := tSt [] fun c => { c with sched := { c.sched with gates := [(0, ⟨some ⟨[], 0, 0, true⟩, none⟩)] } }
def s310 : State := tPkt fun p => { p with strip := some ⟨[], 0, 0, true, none⟩ }
def s311 : State := tPkt fun p => { p with strip := some ⟨[], 0, 0, false, none⟩ }
def s312 : State := tSt [(F.TEL_EXP_CTRL.ENABLE, 0, 1)]
def s313 : State := tSt [(F.TEL_EXP_CTRL.ENABLE, 0,
  1)] fun c => { c with tel := { c.tel with expQ := List.replicate 65536 ⟨[], 0⟩ } }
def s314 : State := tSt [(F.TEL_EXP_CTRL.ENABLE, 0, 1), (F.TEL_EXP_ACTIVE.V, 0, 1), (F.FLE_TBL_INFO.SLOTS_LOG2, 0, 20)]
def s316 : State := tSt [(F.TEL_EXP_CTRL.MODE, 0, 1), (F.WDS_CL_ENTRY.PRESENT, 0, 1), (F.WDS_CL_MAX.V, 0, 1),
  (F.WDS_SHARED_FREE.V, 0, 1)] fun c => { c with tel := { c.tel with expQ := [⟨zerosB 128, 0⟩] } }
def s317 : State := tSt [(F.TEL_EXP_RATE.V, 0,
  1)] fun c => { c with tel := { c.tel with expQ := [⟨[], 0⟩], expUsed := 1000000000000000 } }
def s318 : State := tSt [] fun c => { c with tel := { c.tel with expMsg := [⟨[], 0⟩] } }
def s319 : State := tSt [(F.TEL_EXP_CTRL.TRANSPORT, 0, 1)]
def s320 : State := tSt [(F.HST_WIN_BASE.BASE_GIB, 0, 143)]
def s321 : State := tSt [(F.HST_ERR_CAUSE.all, 0, 1)]
def s322 : State := tSt [(F.HST_TW_STATUS.RUNNING, 0, 1)]
def s323 : State := tSt [(F.HST_TW_INDEX.V, 0, 0xFFFFFFFF)]
def s325 : State := tSt [(F.HST_RING_CFG.SIZE_LOG2, 0, 1), (F.HST_RING_CFG.ENABLE, 0, 1), (F.HST_RING_CFG.MODE, 0, 1)]
def s326 : State := tSt [] fun c => { c with host := { c.host with rings := [(0, ⟨0, 0, 1⟩)] } }
def s327 : State := tSt [(F.HST_RING_TAIL.V, 512, 1), (F.HST_RING_STATUS.STOPPED, 512, 0), (F.HST_RING_CFG.SIZE_LOG2, 512,
  4), (F.PRT_CFG.MODE, 0, 1), (F.TMG_FREE.V, 0, 1000)] fun c => tPolicy { c with hostMem := [(1, 1), (8, 60), (10, 6)] }
def s328 : State := tSt [(F.HST_RING_STATUS.STOPPED, 0, 0), (F.HST_RING_CFG.MODE, 0, 1)]
def s330 : State := tGang 0 [] fun c => { c with gang := { c.gang with rops := [tRop 1] } }
def s332 : State := tGang 0 [] fun c => { c with gang := { c.gang with inService := [(0, 1)], lists := [] } }
def s333 : State := tGang 0 [] fun c => { c with recov := [⟨7, 1, 0, 2, 0, []⟩] }
def s334 : State := tPkt id [(F.GNG_STATUS.STATE, 0, 1), (F.TMG_PEND_MAX.V, 0, 100)] tGangPort
def s335 : State := tGang 0 [(F.GNG_MAP.V, 0, 1)]
def s336 : State := tGang 0 [(F.GNG_CTRL.REPL_EN, 0, 1)] fun c => { c with gang := { c.gang with partner := 1 } }
def s337 : State := tSt [(F.GNG_CMD_STATUS.RUNNING, 0, 1)]
def s338 : State := tSt [] fun c => { c with gang := { c.gang with hellos := [(1, zerosB 4 ++ [2, 0, 1] ++ zerosB 65)] } }
def s339 : State := tSt [] fun c => { c with gang := { c.gang with hellos := [(1, zerosB 4 ++ [1, 0, 1] ++ zerosB 65)] } }
def s340 : State := tSt [] fun c => { c with gang := { c.gang with cmd := 2 } }
def s341 : State := tGang 0 [] fun c => { c with gang := { c.gang with change := some ⟨true, 1, false, 0, [], some 0, []⟩ } }
def s342 : State := tGang 0 [] fun c => { c with gang := { c.gang with change := some ⟨true, 1, false, 0, [], some (2 ^ 62), []⟩ } }
def s344 : State := tSt [(F.GNG_STATUS.STATE, 0, 1), (F.GNG_STATUS.MEMBERS, 0, 3), (F.GNG_STATUS.DEVICE, 0, 1),
  (F.GNG_STATUS.COORD, 0, 1)]
def s346 : State := tGang 0 [(F.GNG_STATUS.MEMBERS, 0, 1)]
def s347 : State := tGang 0 [] (fun c => c) 0
def s351 : State := tSt [(F.WDS_CL_ENTRY.PRESENT, 0, 1), (F.WDS_CL_MAX.V, 0, 1), (F.WDS_SHARED_FREE.V, 0,
  1)] fun c => { c with gang := { c.gang with items := [zerosB 64] } }
def s352 : State := tGang 0 [] tPolicy
def s356 : State := tSt [(F.MGT_MP_STATUS.STATE, 0, 0)]
def s357 : State := tSt [(F.MGT_MP_STATUS.STATE, 0, 2)]
def s358 : State := tSt [(F.MGT_MP_STATUS.STATE, 0, 2), (F.MGT_MP_STATUS.FALLBACK, 0, 1), (F.MGT_MP_CTRL.STAY_AWAKE, 0, 1)]
def s359 : State := tSt [] fun c => { c with flash := { c.flash with fwA := Slot.empty } }
def s360 : State := tSt [(F.SFL_STATUS.ACTIVE, 0, 1)]
def s361 : State := tSt [] fun c => { c with mgt := { c.mgt with logBuf := [⟨0, 0, 0, 0, 0, 0, 0, 0⟩] } }
def s362 : State := tSt [(F.MGT_PARK_CTRL.EN, 0, 1), (F.MGT_PARK_CTRL.NO_BANK_GATE, 0, 1)]
def s364 : State := tSt [(F.MGT_MBX_STATUS.RUNNING, 0, 1)]
def s365 : State := tSt [(F.MGT_MBX_ARG.V, 0, 1), (F.MGT_MP_STATUS.STATE, 0,
  2)] fun c => tPolicy { c with mgt := { c.mgt with fwRun := some 0 } }
def s367 : State := tSt [(F.MGT_MP_STATUS.STATE, 0,
  2)] fun c => tPolicy { c with mgt := { c.mgt with flashWrite := some ⟨1, 0, [], none⟩ } }
def s368 : State := tSt [(F.MGT_MP_STATUS.STATE, 0,
  2)] fun c => { c with mgt := { c.mgt with mpConf := [8, 8, 1, 0] ++ zerosB 200 } }
def s369 : State := tSt [(F.MGT_MP_STATUS.STATE, 0,
  2)] fun c => tPolicy { c with mgt := { c.mgt with mpConf := [8, 8, 1, 0] ++ zerosB 44 ++ zerosB 15 ++ [1, 128] ++ zerosB 100 } }
def s370 : State := tSt [] fun c => { c with recov := [⟨0, 0, 0, 0, 0, []⟩] }
def s371 : State := tSt [] fun c => { c with recov := [⟨0, 0, 0, 1, 0, []⟩] }
def s373 : State := tSt [] fun c => { c with recov := [⟨0, 0, 0, 3, 0, []⟩] }
def s374 : State := tSt [] fun c => { c with recov := [⟨5, 0, 0, 2, 0, []⟩] }
def s377 : State := tSt [(F.GLB_REC_CTRL.MANUAL, 0, 1)]
def s378 : State := tSt [] fun c => { c with flow := { c.flow with meters := [(0, List.replicate 48 1)] } }
def s380 : State := tPkt id [(F.TMG_ING_MAX.V, 0, 1000), (F.TMG_FREE.V, 0,
  1000)] fun c => { c with ports := [(0, { PortSt.init with elastic := [0] })] }
def s381 : State := tRun [(99,
  7)] [] id fun c => { c with act := { c.act with natPool := [(0, [1, 0, 0, 1, 0, 0, 0, 9] ++ zerosB 56)] } }
def s382 : State := tSt [(F.ACT_STEP_BUDGET.V, 0,
  4)] fun c => { c with act := { c.act with ctxs := [(0, { Ctx.init with steps := 9 })] } }
def s383 : State := tSt [(F.HBM_CH_STATUS.STATE, 0, 0), (F.HBM_STK_STATUS.STATE, 0,
  0)] fun c => { c with hbm := { c.hbm with pcs := [(0, { PcSt.init with must := 1 })] } }
def s384 : State := tSt [(F.SCH_OBS_CTRL.MODE, 0, 1)]
def s386 : State := tSt [(F.TIM_LATE_WINDOW.V, 0, 1000)] tPolicy
def s388 : State := tSt [(F.HST_WIN_BASE.BASE_GIB, 0, 0), (F.FLE_TBL_INFO.SLOTS_LOG2, 0, 20)]
def s389 : State := tSt [(F.CLS_VERSION.CUR, 0,
  7)] fun c => { c with rules := { c.rules with fixAt := some (2 ^ 64 - 2 ^ 50) } }
def s390 : State := tSt [(F.CLS_CMD_VERSION.V, 0, 1)] fun c => let c := { c with rules := { c.rules with regions := [(0, [1, 0, 0, 0, 1, 0, 0, 0] ++ zerosB 120)] } }; match c.planPlace 0 (zerosB 24) 0 with | some x => c.putEntry 0 x.1 ⟨0, 0, true, true, zerosB 24⟩ | none => c
def s391 : State := tSt [(F.CLS_TCMD_VERSION.V, 0, 1), (F.CLS_TPROF_INFO.PRESENT, 0, 1), (F.CLS_TPROF_INFO.UNITS, 0,
  1)] fun c => { c with rules := { c.rules with regions := [(0, [6] ++ zerosB 127)] }, tern := { c.tern with entries := [(0, ⟨0, 0, true, true, zerosB 104⟩)] } }


/-! ### Witnesses: for each statement its hypotheses, clause by clause -/

theorem witness_StepRunsTheFrontCommand :
    (∃ (s : State) (c : Instr) (r : List Instr), s.pending = c :: r) ∧ (∃ (s : State), s.pending = []) :=
  ⟨⟨s1, (s1.pending).head (by decide +kernel), (s1.pending).tail, (List.cons_head_tail (by decide +kernel)).symm⟩, ⟨s0,
  (by decide +kernel)⟩⟩

theorem witness_LocalCommandsLeaveTheWorkAlone :
    ∃ (c : Instr), leavesWork c = true :=
  ⟨.refLost, (by decide +kernel)⟩

theorem witness_ExportedTimesFollowTheDeviceTime :
    ∃ (f : Nat), f < 2 ^ 32 :=
  ⟨0, (by decide +kernel)⟩

theorem witness_LeaveMovesOnlyTheLeaversSlots :
    (∃ (m : List Nat) (d : Nat) (rest : List Nat) (s : _), m.length = 256 ∧ d ∉ rest ∧ rest ≠ [] ∧ rest.Pairwise (· < ·)
    ∧ s < 256 ∧ m.getD s 4 ≠ d) ∧ (∃ (m : List Nat) (p : Nat) (rest : List Nat) (s : _), m.length = 256
    ∧ (m.getD s 4) ∉ rest ∧ rest ≠ [] ∧ rest.Pairwise (· < ·) ∧ p ∈ rest ∧ s < 256) :=
  ⟨⟨List.replicate 256 0, 1, [0], 0, (by decide +kernel)⟩, ⟨List.replicate 256 0, 1, [1], 0, (by decide +kernel)⟩⟩

theorem witness_NotOwnerOpsAreSentAgain :
    (∃ (s : State) (p : Fin 512) (fr : Bytes) (c : Chip) (r : Rop), s.chip.power.vin = true
    ∧ s.chip.gangTake p 3 false fr = (true, c) ∧ frStatus (sliceB (gfBody fr) 8 32) = 7
    ∧ c.gang.rops.find? (fun r₀ => r₀.rtag == beAt (gfBody fr) 0 4 && r₀.dev == gfSrc fr) = some r) ∧ (∃ (r : Rop),
    3 ≤ r.tries) ∧ (∃ (c : Chip) (r : Rop) (d : Nat) (port : Nat), r.tries < 3 ∧ c.ownerOf r.op.h1 = some d
    ∧ d ≠ c.ownDevice ∧ c.slotPort d r.op.h1 = some port) ∧ (∃ (c : Chip) (r : Rop) (x : Pkt), r.tries < 3
    ∧ c.ownerOf r.op.h1 = some c.ownDevice ∧ c.pkt r.pid = some x) :=
  ⟨⟨s330, 0, tFrame 3 (zerosB 8 ++ [7] ++ zerosB 100),
  (s330.chip.gangTake 0 3 false (tFrame 3 (zerosB 8 ++ [7] ++ zerosB 100))).2,
  (((s330.chip.gangTake 0 3 false (tFrame 3 (zerosB 8 ++ [7] ++ zerosB 100))).2).gang.rops.find? (fun r₀ => r₀.rtag == beAt (gfBody (tFrame 3 (zerosB 8 ++ [7] ++ zerosB 100))) 0 4 && r₀.dev == gfSrc (tFrame 3 (zerosB 8 ++ [7] ++ zerosB 100)))).get (by decide +kernel),
  (by decide +kernel), (Prod.ext (by decide +kernel) rfl), (by decide +kernel), (Option.some_get (by decide +kernel)).symm⟩,
  ⟨tRop 3, (by decide +kernel)⟩, ⟨s335.chip, tRop 1, (s335.chip.ownerOf (tRop 1).op.h1).get (by decide +kernel),
  (s335.chip.slotPort ((s335.chip.ownerOf (tRop 1).op.h1).get (by decide +kernel)) (tRop 1).op.h1).get (by decide +kernel),
  (by decide +kernel), (Option.some_get (by decide +kernel)).symm, (by decide +kernel),
  (Option.some_get (by decide +kernel)).symm⟩, ⟨s59.chip, tRop 1, (s59.chip.pkt (tRop 1).pid).get (by decide +kernel),
  (by decide +kernel), (by decide +kernel), (Option.some_get (by decide +kernel)).symm⟩⟩

theorem witness_NotOwnerOpsAreSentAgain_2 :
    ∃ (c : Chip) (d : Chip) (pid : Nat) (dev : Nat) (port : Nat) (o : FOp), c.slotPort dev o.h1 = some port
    ∧ c.park pid = some d :=
  ⟨s334.chip, (s334.chip.park 0).get (by decide +kernel), 0, 1, (s334.chip.slotPort 1 (tOp 0).h1).get (by decide +kernel),
  tOp 0, (Option.some_get (by decide +kernel)).symm, (Option.some_get (by decide +kernel)).symm⟩

theorem witness_PolicyDeniesStopBathsButTwo :
    (∃ (s : State) (u : Fin 16) (i : Fin 512) (src : Bool) (timed : Bool), s.chip.power.vin = true
    ∧ s.chip.flag F.PLT_CMD_STATUS.RUNNING = false ∧ s.chip.bathInvalid u i src timed = false
    ∧ (src = true → loadOnlyDiffers (s.chip.plate.cur.getD []) (s.chip.plate.pend.getD []) = false)
    ∧ s.chip.polBit 0x248 u = false ∧ (src = true ∨ (s.chip.recOfUnit u i).any (fun r => r.state == 3) = false)
    ∧ (u ≠ 4 ∨ bitOf i (s.chip.getF F.SFL_STATUS.FROZEN) = false)) ∧ (∃ (s : State) (u : Fin 16) (i : Fin 512) (src : Bool),
    s.chip.power.vin = true ∧ s.chip.flag F.PLT_CMD_STATUS.RUNNING = false ∧ s.chip.bathInvalid u i src false = false
    ∧ (src = true → loadOnlyDiffers (s.chip.plate.cur.getD []) (s.chip.plate.pend.getD []) = false) ∧ ((src = false
    ∧ (s.chip.recOfUnit u i).any (fun r => r.state == 3) = true) ∨ (u = 4
    ∧ bitOf i (s.chip.getF F.SFL_STATUS.FROZEN) = true)) ∧ s.chip.bathBusy u i = false) :=
  ⟨⟨s0, 0, 0, false, false, (by decide +kernel)⟩, ⟨s26, 4, 0, false, (by decide +kernel)⟩⟩

theorem witness_TimeTickAdvancesTime :
    (∃ (s : State), s.chip.power.vin = true ∧ s.chip.time.incrNext = none ∧ s.chip.time.setNext = none
    ∧ s.chip.time.stepNext = none ∧ s.chip.time.slew = none) ∧ (∃ (s : State) (w : Slew), s.chip.power.vin = true
    ∧ s.chip.time.incrNext = none ∧ s.chip.time.setNext = none ∧ s.chip.time.stepNext = none ∧ s.chip.time.slew = some w)
    ∧ (∃ (s : State) (v : Nat), s.chip.power.vin = true ∧ s.chip.time.incrNext = none ∧ s.chip.time.setNext = some v
    ∧ s.chip.time.stepNext = none) ∧ (∃ (s : State) (v : Nat), s.chip.power.vin = true ∧ s.chip.time.incrNext = some v
    ∧ s.chip.time.setNext = none ∧ s.chip.time.stepNext = none ∧ s.chip.time.slew = none) :=
  ⟨⟨s0, (by decide +kernel)⟩, ⟨s2, (s2.chip.time.slew).get (by decide +kernel), (by decide +kernel), (by decide +kernel),
  (by decide +kernel), (by decide +kernel), (Option.some_get (by decide +kernel)).symm⟩, ⟨s3,
  (s3.chip.time.setNext).get (by decide +kernel), (by decide +kernel), (by decide +kernel),
  (Option.some_get (by decide +kernel)).symm, (by decide +kernel)⟩, ⟨s4, (s4.chip.time.incrNext).get (by decide +kernel),
  (by decide +kernel), (Option.some_get (by decide +kernel)).symm, (by decide +kernel)⟩⟩

theorem witness_TimeCommandsSetStepAndSlew :
    (∃ (s : State), s.chip.power.vin = true ∧ s.chip.flag F.TIM_CMD_STATUS.RUNNING = false ∧ s.chip.timeValid = false
    ∧ s.chip.follower = false) ∧ (∃ (s : State), s.chip.power.vin = true ∧ s.chip.flag F.TIM_CMD_STATUS.RUNNING = false
    ∧ s.chip.timeValid = true ∧ s.chip.follower = false ∧ (signedOf 64 (s.chip.getQ F.TIM_STEP.V)).natAbs < 2 ^ 62)
    ∧ (∃ (s : State), s.chip.power.vin = true ∧ s.chip.flag F.TIM_CMD_STATUS.RUNNING = false
    ∧ (s.chip.timeValid = false ∨ 2 ^ 62 ≤ (signedOf 64 (s.chip.getQ F.TIM_STEP.V)).natAbs)) ∧ (∃ (s : State),
    s.chip.power.vin = true ∧ s.chip.flag F.TIM_CMD_STATUS.RUNNING = false ∧ s.chip.timeValid = true
    ∧ s.chip.follower = false ∧ s.chip.time.slew = none
    ∧ ((signedOf 64 (s.chip.getQ F.TIM_SLEW_DELTA.V) * 2 ^ 24).tdiv (s.chip.getF F.TIM_SLEW_TICKS.V)).natAbs + 1 ≤ s.chip.time.incr / 1000) :=
  ⟨⟨s0, (by decide +kernel)⟩, ⟨s6, (by decide +kernel)⟩, ⟨s0, (by decide +kernel)⟩, ⟨s6, (by decide +kernel)⟩⟩

theorem witness_HostTimedWritesScheduleRunAndFree :
    (∃ (s : State) (n : Fin 16), s.chip.power.vin = true ∧ s.chip.flag F.TIM_CMD_STATUS.RUNNING = false
    ∧ s.chip.timeValid = true ∧ Chip.sactBad (s.chip.getF F.TIM_SACT_ADDR.V n) (s.chip.getF F.TIM_SACT_MASK.V n) = false
    ∧ Chip.sactDenied (s.chip.getF F.TIM_SACT_ADDR.V n) (s.chip.getF F.TIM_SACT_MASK.V n) = false
    ∧ s.chip.getF F.TIM_SACT_STATE.PHASE n = 0 ∧ s.chip.timeClass (s.chip.getQ F.TIM_SACT_TIME.V n) = .ahead)
    ∧ (∃ (s : State) (n : Fin 16), s.chip.power.vin = true ∧ s.chip.flag F.TIM_CMD_STATUS.RUNNING = false
    ∧ s.chip.getF F.TIM_SACT_STATE.PHASE n = 1) ∧ (∃ (s : State) (n : Fin 16), s.chip.power.vin = true
    ∧ s.chip.flag F.TIM_CMD_STATUS.RUNNING = false ∧ s.chip.getF F.TIM_SACT_STATE.PHASE n ≠ 1)
    ∧ (∃ (s : State) (n : Fin 16), s.chip.power.vin = true ∧ s.chip.getF F.TIM_SACT_STATE.PHASE n = 1
    ∧ s.chip.due (s.chip.getQ F.TIM_SACT_TIME.V n) = true) :=
  ⟨⟨s6, 0, (by decide +kernel)⟩, ⟨s7, 1, (by decide +kernel)⟩, ⟨s0, 0, (by decide +kernel)⟩, ⟨s7, 1, (by decide +kernel)⟩⟩

theorem witness_HostTimedWritesScheduleRunAndFree_2 :
    (∃ (s : State) (n : Fin 16), s.chip.power.vin = true ∧ s.chip.getF F.TIM_SACT_STATE.PHASE n = 2)
    ∧ (∃ (s : State) (n : Fin 16), s.chip.power.vin = true ∧ s.chip.getF F.TIM_SACT_STATE.PHASE n ≠ 2) :=
  ⟨⟨s7, 2, (by decide +kernel)⟩, ⟨s0, 0, (by decide +kernel)⟩⟩

theorem witness_TimeReferencesConnectorAndPathDelay :
    (∃ (s : State), s.chip.power.vin = true ∧ s.chip.follower = false) ∧ (∃ (s : State), s.chip.power.vin = true
    ∧ s.chip.follower = true) ∧ (∃ (s : State), s.chip.power.vin = true ∧ s.chip.flag F.TIM_STATUS.REF_LOCKED = true)
    ∧ (∃ (s : State), s.chip.power.vin = true ∧ s.chip.time.refSrc = true ∧ s.chip.flag F.TIM_STATUS.REF_LOCKED = false) :=
  ⟨⟨s0, (by decide +kernel)⟩, ⟨s8, (by decide +kernel)⟩, ⟨s7, (by decide +kernel)⟩, ⟨s5, (by decide +kernel)⟩⟩

theorem witness_TimeReferencesConnectorAndPathDelay_2 :
    (∃ (s : State), s.chip.power.vin = true ∧ s.chip.flag F.TIM_CTRL.PPS_OUT_EN = true) ∧ (∃ (s : State) (p : Fin 512),
    s.chip.power.vin = true ∧ (s.chip.getF F.TIM_PORT_PDELAY.V p = 0 ∨ s.chip.getF F.TIM_PDELAY_STEP.V = 0))
    ∧ (∃ (s : State) (p : Fin 512) (v : Word), s.chip.power.vin = true ∧ (s.chip.getF F.TIM_PORT_PDELAY.V p) ≠ 0
    ∧ s.chip.getF F.TIM_PDELAY_STEP.V ≠ 0
    ∧ (s.chip.getF F.TIM_PORT_PDELAY.V p) + s.chip.getF F.TIM_PDELAY_STEP.V * 2 ^ 16 < v.toNat) :=
  ⟨⟨s7, (by decide +kernel)⟩, ⟨s0, 0, (by decide +kernel)⟩, ⟨s7, 0, 0xFFFFFFFF, (by decide +kernel)⟩⟩

theorem witness_RegisterWriteFollowsAccessCodes :
    (∃ (s : State) (a : Fin 134217728) (r : RegAt), s.chip.power.vin = true ∧ a.val % 4 = 0 ∧ 0xE00000 ≤ a.val
    ∧ a.val < 0xF00000 ∧ regAt a = some r ∧ 0xE00000 ≤ r.row.base ∧ r.row.words = 1) ∧ (∃ (f : FldRow) (w : Nat),
    f.lo ≤ f.hi ∧ f.hi < 32 ∧ f.acc = .rw ∧ f.own = false ∧ w < 2 ^ 32) ∧ (∃ (f : FldRow), f.acc = .ro)
    ∧ (∃ (f : FldRow) (w : Nat), f.lo = f.hi ∧ f.hi < 32 ∧ f.acc = .w1c ∧ f.own = false ∧ w < 2 ^ 32) :=
  ⟨⟨s0, 0xE00018, (regAt 0xE00018).get (by decide +kernel), (by decide +kernel), (by decide +kernel), (by decide +kernel),
  (by decide +kernel), (Option.some_get (by decide +kernel)).symm, (by decide +kernel)⟩, ⟨⟨7, 0, .rw, 0, .any, false⟩, 0,
  (by decide +kernel)⟩, ⟨⟨7, 0, .ro, 0, .any, false⟩, (by decide +kernel)⟩, ⟨⟨0, 0, .w1c, 0, .any, false⟩, 0,
  (by decide +kernel)⟩⟩

theorem witness_RegisterWriteFollowsAccessCodes_2 :
    (∃ (s : State) (a : Fin 134217728), s.chip.power.vin = true ∧ a.val % 4 ≠ 0) ∧ (∃ (s : State) (a : Fin 134217728),
    s.chip.power.vin = true ∧ a.val % 4 = 0 ∧ 0x20000 ≤ a.val ∧ a.val < 0x30000) :=
  ⟨⟨s0, 1, (by decide +kernel)⟩, ⟨s0, 0x20000, (by decide +kernel)⟩⟩

theorem witness_WideValuesAreWrittenAtOnce :
    (∃ (s : State) (a : Fin 134217728) (r : RegAt), s.chip.power.vin = true ∧ inSfl (canonAddr a) = false
    ∧ regAt (canonAddr a) = some r ∧ r.word ≠ 0 ∧ r.row.allAcc .rw = true) ∧ (∃ (s : State) (a : Fin 134217728) (r : RegAt),
    s.chip.power.vin = true ∧ inSfl a = false ∧ canonAddr a = a ∧ a.val ≠ 0x40020 ∧ regAt a = some r ∧ r.word = 0
    ∧ 1 < r.row.words ∧ r.row.allAcc .rw = true ∧ s.chip.writeLocked r = false) ∧ (∃ (s : State) (a : Fin 134217728),
    s.chip.power.vin = true ∧ a.val % 8 = 0 ∧ (wideLow a).isSome = true) ∧ (∃ (s : State) (a : Fin 134217728),
    s.chip.power.vin = true ∧ a.val % 8 = 0 ∧ wideLow a = none) :=
  ⟨⟨s0, 0x1000C, (regAt (canonAddr 0x1000C)).get (by decide +kernel), (by decide +kernel), (by decide +kernel),
  (Option.some_get (by decide +kernel)).symm, (by decide +kernel)⟩, ⟨s0, 0x10008, (regAt 0x10008).get (by decide +kernel),
  (by decide +kernel), (by decide +kernel), (by decide +kernel), (by decide +kernel),
  (Option.some_get (by decide +kernel)).symm, (by decide +kernel)⟩, ⟨s0, 0x10008, (by decide +kernel)⟩, ⟨s0, 0xE00018,
  (by decide +kernel)⟩⟩

theorem witness_WideValuesAreWrittenAtOnce_2 :
    ∃ (s : State) (a : Fin 134217728), s.chip.power.vin = true ∧ a.val % 8 ≠ 0 :=
  ⟨s0, 0x1000C, (by decide +kernel)⟩

theorem witness_ReadsCaptureClearAndReport :
    (∃ (s : State) (a : Fin 134217728) (r : RegAt), s.chip.power.vin = true ∧ canonAddr a = a ∧ s.chip.readGated a = false
    ∧ regAt a = some r ∧ r.word = 0 ∧ 1 < r.row.words ∧ r.row.allAcc .rc = false)
    ∧ (∃ (s : State) (a : Fin 134217728) (r : RegAt), s.chip.power.vin = true ∧ canonAddr a = a ∧ s.chip.readGated a = false
    ∧ regAt a = some r ∧ r.word = 0 ∧ 1 < r.row.words ∧ r.row.allAcc .rc = true)
    ∧ (∃ (s : State) (a : Fin 134217728) (hw : Word) (r : RegAt), s.chip.power.vin = true ∧ canonAddr a = a
    ∧ s.chip.readGated a = false ∧ regAt a = some r ∧ r.row.words = 1 ∧ r.row.allAcc .rc = true
    ∧ r.row.base ≠ F.TMG_FREE_MIN.V.base ∧ (hw = 0 ∨ r.row.base ≠ F.SFL_EVENTS.TRIP.base)
    ∧ r.row.base ≠ F.MGT_SNS_RANGE.HI.base) :=
  ⟨⟨s0, 0x10008, (regAt 0x10008).get (by decide +kernel), (by decide +kernel), (by decide +kernel), (by decide +kernel),
  (Option.some_get (by decide +kernel)).symm, (by decide +kernel)⟩, ⟨s0, 0x800100, (regAt 0x800100).get (by decide +kernel),
  (by decide +kernel), (by decide +kernel), (by decide +kernel), (Option.some_get (by decide +kernel)).symm,
  (by decide +kernel)⟩, ⟨s0, 0x10C, (0 : Word), (regAt 0x10C).get (by decide +kernel), (by decide +kernel),
  (by decide +kernel), (by decide +kernel), (Option.some_get (by decide +kernel)).symm, (by decide +kernel)⟩⟩

theorem witness_SafelightWritesAreDeniedAndCaptured :
    (∃ (s : State) (a : Fin 134217728), s.chip.power.vin = true ∧ holdsSo a = true ∧ s.chip.sfl.deniedArmed = true)
    ∧ (∃ (s : State) (a : Fin 134217728), s.chip.power.vin = true ∧ holdsSo a = true ∧ s.chip.sfl.deniedArmed = false) :=
  ⟨⟨s0, 0x20000, (by decide +kernel)⟩, ⟨s15, 0x20000, (by decide +kernel)⟩⟩

theorem witness_SuppliesStartAndStopTheDevice :
    (∃ (s : State), s.chip.power.vsb = false) ∧ (∃ (s : State), s.chip.power.vsb = true) ∧ (∃ (s : State),
    s.chip.power.aon = true ∧ s.chip.power.vin = false ∧ s.chip.power.offHeld = false) ∧ (∃ (s : State),
    s.chip.power.offHeld = true) :=
  ⟨⟨s10, (by decide +kernel)⟩, ⟨s0, (by decide +kernel)⟩, ⟨s9, (by decide +kernel)⟩, ⟨s11, (by decide +kernel)⟩⟩

theorem witness_SuppliesStartAndStopTheDevice_2 :
    ∃ (s : State), s.chip.power.vin = true ∧ s.chip.power.aon = true ∧ s.chip.mgt.logBuf.length < 1024 :=
  ⟨s0, (by decide +kernel)⟩

theorem witness_DeviceResetKeepsTheAlwaysOnDomain :
    (∃ (s : State), s.chip.power.vin = true ∧ s.chip.resetAllowed = true) ∧ (∃ (s : State) (k : Word),
    s.chip.power.vin = true ∧ k ≠ 0x0512A5A5) ∧ (∃ (s : State), s.chip.power.vin = true ∧ s.chip.resetAllowed = false)
    ∧ (∃ (s : State) (d : Nat), s.chip.power.vin = true ∧ s.chip.gang.resetAt = some d ∧ s.chip.due d = true) :=
  ⟨⟨s12, (by decide +kernel)⟩, ⟨s0, (0 : Word), (by decide +kernel)⟩, ⟨s0, (by decide +kernel)⟩, ⟨s13,
  (s13.chip.gang.resetAt).get (by decide +kernel), (by decide +kernel), (Option.some_get (by decide +kernel)).symm,
  (by decide +kernel)⟩⟩

theorem witness_DeviceResetKeepsTheAlwaysOnDomain_2 :
    ∃ (s : State), s.chip.power.vin = true ∧ s.chip.gang.resetAt = none :=
  ⟨s0, (by decide +kernel)⟩

theorem witness_UnrecoverableFaultHoldsTheDevice :
    ∃ (s : State), s.chip.power.vin = true ∧ s.chip.power.aon = true ∧ s.chip.mgt.logBuf.length + 2 ≤ 1024 :=
  ⟨s0, (by decide +kernel)⟩

theorem witness_PlateImagesAreVerifiedWrittenAndAdopted :
    (∃ (s : State), s.chip.power.vin = true ∧ s.chip.power.loadDue = true ∧ s.chip.flash.plateA.state ≠ 2
    ∧ s.chip.flash.plateB.state ≠ 2) ∧ (∃ (s : State), s.chip.power.loadDue = false) ∧ (∃ (s : State),
    s.chip.power.vin = true ∧ s.chip.flag F.PLT_CMD_STATUS.RUNNING = false ∧ s.chip.stagedBad = false
    ∧ s.chip.plate.mixed = [] ∧ s.chip.pendBath = false) ∧ (∃ (s : State) (b : Bool) (img : Bytes), s.chip.power.vin = true
    ∧ s.chip.flag F.PLT_CMD_STATUS.RUNNING = false ∧ s.chip.plate.pend = some img ∧ s.chip.slotKept b = false) :=
  ⟨⟨s0, (by decide +kernel)⟩, ⟨s14, (by decide +kernel)⟩, ⟨s16, (by decide +kernel)⟩, ⟨s18, false,
  (s18.chip.plate.pend).get (by decide +kernel), (by decide +kernel), (by decide +kernel),
  (Option.some_get (by decide +kernel)).symm, (by decide +kernel)⟩⟩

theorem witness_PlateImagesAreVerifiedWrittenAndAdopted_2 :
    (∃ (s : State) (b : Bool) (img : Bytes), s.chip.power.vin = true ∧ s.chip.flag F.PLT_CMD_STATUS.RUNNING = false
    ∧ s.chip.plate.pend = some img ∧ s.chip.good b = true ∧ s.chip.good (!b) = false)
    ∧ (∃ (s : State) (b : Bool) (img : Bytes), s.chip.power.vin = true ∧ s.chip.plate.slotWrite = some (b, img))
    ∧ (∃ (s : State) (b : Bool), s.chip.power.vin = true ∧ s.chip.flag F.PLT_CMD_STATUS.RUNNING = false
    ∧ (s.chip.slotOf 0 b).state ≠ 0) ∧ (∃ (s : State) (b : Bool), s.chip.power.vin = true
    ∧ s.chip.flag F.PLT_CMD_STATUS.RUNNING = false ∧ (s.chip.slotOf 0 b).state = 0) :=
  ⟨⟨s19, false, (s19.chip.plate.pend).get (by decide +kernel), (by decide +kernel), (by decide +kernel),
  (Option.some_get (by decide +kernel)).symm, (by decide +kernel)⟩, ⟨s20,
  ((s20.chip.plate.slotWrite).get (by decide +kernel)).1, ((s20.chip.plate.slotWrite).get (by decide +kernel)).2,
  (by decide +kernel), (Option.some_get (by decide +kernel)).symm⟩, ⟨s21, false, (by decide +kernel)⟩, ⟨s0, false,
  (by decide +kernel)⟩⟩

theorem witness_PlateImagesAreVerifiedWrittenAndAdopted_3 :
    (∃ (s : State) (img : Bytes), s.chip.power.vin = true ∧ s.chip.flag F.PLT_CMD_STATUS.RUNNING = false
    ∧ s.chip.plate.pend = some img ∧ s.chip.plate.mixed = [] ∧ s.chip.pendBath = false) ∧ (∃ (s : State),
    s.chip.power.vin = true ∧ s.chip.flag F.PLT_CMD_STATUS.RUNNING = false ∧ s.chip.flag F.GLB_STATUS.PLATE_LOADED = true)
    ∧ (∃ (s : State), s.chip.power.vin = true ∧ s.chip.flag F.PLT_CMD_STATUS.RUNNING = false
    ∧ s.chip.flag F.GLB_STATUS.PLATE_LOADED = false ∧ s.chip.stagedBad = false) :=
  ⟨⟨s18, (s18.chip.plate.pend).get (by decide +kernel), (by decide +kernel), (by decide +kernel),
  (Option.some_get (by decide +kernel)).symm, (by decide +kernel)⟩, ⟨s17, (by decide +kernel)⟩, ⟨s16, (by decide +kernel)⟩⟩

theorem witness_StopBathEntriesPassTheirPhases :
    (∃ (s : State) (u : Fin 16) (i : Fin 512) (src : Bool), s.chip.power.vin = true
    ∧ s.chip.flag F.PLT_CMD_STATUS.RUNNING = false ∧ s.chip.bathInvalid u i src false = false
    ∧ (src = true → loadOnlyDiffers (s.chip.plate.cur.getD []) (s.chip.plate.pend.getD []) = false)
    ∧ s.chip.bathDenied u i src = false ∧ s.chip.bathBusy u i = false)
    ∧ (∃ (s : State) (u : Fin 16) (i : Fin 512) (src : Bool), s.chip.power.vin = true
    ∧ s.chip.flag F.PLT_CMD_STATUS.RUNNING = false ∧ s.chip.bathInvalid u i src true = false
    ∧ (src = true → loadOnlyDiffers (s.chip.plate.cur.getD []) (s.chip.plate.pend.getD []) = false)
    ∧ s.chip.bathDenied u i src = false ∧ s.chip.bathBusy u i = false
    ∧ s.chip.timeClass (s.chip.getQ F.PLT_CMD_TIME.V) = .ahead)
    ∧ (∃ (s : State) (u : Fin 16) (i : Fin 512) (src : Bool) (timed : Bool), s.chip.power.vin = true
    ∧ s.chip.flag F.PLT_CMD_STATUS.RUNNING = false ∧ s.chip.bathInvalid u i src timed = true) ∧ (∃ (s : State) (n : Fin 8),
    s.chip.power.vin = true ∧ s.chip.flag F.PLT_CMD_STATUS.RUNNING = false ∧ s.chip.sbPhase n = 1) :=
  ⟨⟨s12, 0, 0, false, (by decide +kernel)⟩, ⟨s22, 0, 0, false, (by decide +kernel)⟩, ⟨s0, 0, 0, false, true,
  (by decide +kernel)⟩, ⟨s23, 1, (by decide +kernel)⟩⟩

theorem witness_StopBathEntriesPassTheirPhases_2 :
    (∃ (s : State) (n : Fin 8), s.chip.power.vin = true ∧ s.chip.flag F.PLT_CMD_STATUS.RUNNING = false
    ∧ s.chip.sbPhase n ≠ 1) ∧ (∃ (s : State) (n : Fin 8), s.chip.power.vin = true ∧ s.chip.sbPhase n = 1
    ∧ s.chip.time.late.contains (.bath n) = false ∧ s.chip.due (s.chip.getQ F.PLT_SB_TIME.V n) = true)
    ∧ (∃ (s : State) (n : Fin 8), s.chip.power.vin = true ∧ s.chip.sbPhase n = 1
    ∧ s.chip.time.late.contains (.bath n) = true) ∧ (∃ (s : State) (n : Fin 8), s.chip.power.vin = true
    ∧ s.chip.sbPhase n = 2 ∧ s.chip.drained n = true ∧ s.chip.sbUnit n ≠ 3) :=
  ⟨⟨s0, 0, (by decide +kernel)⟩, ⟨s23, 1, (by decide +kernel)⟩, ⟨s24, 1, (by decide +kernel)⟩, ⟨s23, 2,
  (by decide +kernel)⟩⟩

theorem witness_StopBathEntriesPassTheirPhases_3 :
    (∃ (s : State) (n : Fin 8), s.chip.power.vin = true ∧ s.chip.sbPhase n = 2 ∧ s.chip.drained n = false)
    ∧ (∃ (s : State) (n : Fin 8), s.chip.power.vin = true ∧ s.chip.sbPhase n = 3) ∧ (∃ (s : State) (n : Fin 8),
    s.chip.power.vin = true ∧ s.chip.sbPhase n = 4 ∧ s.chip.sbUnit n ≠ 7) ∧ (∃ (s : State) (n : Fin 8),
    s.chip.power.vin = true ∧ s.chip.sbPhase n = 5) :=
  ⟨⟨s25, 2, (by decide +kernel)⟩, ⟨s23, 3, (by decide +kernel)⟩, ⟨s23, 4, (by decide +kernel)⟩, ⟨s23, 5,
  (by decide +kernel)⟩⟩

theorem witness_StopBathEntriesPassTheirPhases_4 :
    ∃ (s : State) (n : Fin 8), s.chip.power.vin = true ∧ s.chip.sbPhase n ≠ 5 :=
  ⟨s0, 0, (by decide +kernel)⟩

theorem witness_LaneStatesFollowTheirEvents :
    (∃ (s : State) (l : Fin 1032), s.chip.power.vin = true ∧ (s.chip.lput l F.LNA_CTRL.ENABLE 1).laneMayRun l = true
    ∧ (s.chip.lput l F.LNA_CTRL.ENABLE 1).lstate l = 0) ∧ (∃ (s : State) (l : Fin 1032), s.chip.power.vin = true
    ∧ (s.chip.lane l).groupBack = false ∧ s.chip.lstate l ≠ 0 ∧ s.chip.lstate l ≠ 1 ∧ s.chip.lstate l ≠ 10
    ∧ s.chip.lstate l ≠ 11) ∧ (∃ (s : State) (l : Fin 1032), s.chip.power.vin = true
    ∧ (s.chip.lstate l = 0 ∨ s.chip.lstate l = 1 ∨ s.chip.lstate l = 10 ∨ s.chip.lstate l = 11))
    ∧ (∃ (s : State) (l : Fin 1032) (tx : Fin 16) (rx : Fin 16), s.chip.power.vin = true ∧ s.chip.lstate l = 1
    ∧ (pinFatal tx || pinFatal rx) = true) :=
  ⟨⟨s0, 0, (by decide +kernel)⟩, ⟨s30, 0, (by decide +kernel)⟩, ⟨s0, 0, (by decide +kernel)⟩, ⟨s29, 0, 0, 1,
  (by decide +kernel)⟩⟩

theorem witness_LaneStatesFollowTheirEvents_2 :
    (∃ (s : State) (l : Fin 1032) (tx : Fin 16) (rx : Fin 16), s.chip.power.vin = true ∧ s.chip.lstate l ≠ 0
    ∧ (pinFatal tx || pinFatal rx) = true) ∧ (∃ (s : State) (l : Fin 1032), s.chip.power.vin = true ∧ s.chip.lstate l = 10)
    ∧ (∃ (s : State) (l : Fin 1032) (n : Nat), s.chip.power.vin = true ∧ (s.chip.lane l).switchTo = some n)
    ∧ (∃ (s : State) (l : Fin 1032), s.chip.power.vin = true ∧ s.chip.lstate l = 5) :=
  ⟨⟨s29, 0, 0, 1, (by decide +kernel)⟩, ⟨s38, 0, (by decide +kernel)⟩, ⟨s40, 0,
  ((s40.chip.lane 0).switchTo).get (by decide +kernel), (by decide +kernel), (Option.some_get (by decide +kernel)).symm⟩,
  ⟨s33, 0, (by decide +kernel)⟩⟩

theorem witness_LaneStatesFollowTheirEvents_3 :
    (∃ (s : State) (l : Fin 1032), s.chip.power.vin = true ∧ 4 ≤ s.chip.lstate l ∧ s.chip.lstate l ≤ 7)
    ∧ (∃ (s : State) (l : Fin 1032), s.chip.power.vin = true ∧ s.chip.lstate l = 2 ∧ (s.chip.lane l).groupBack = false)
    ∧ (∃ (s : State) (l : Fin 1032), s.chip.power.vin = true ∧ (s.chip.lput l F.LNA_STATUS.SIGNAL 1).lstate l ≠ 2)
    ∧ (∃ (s : State) (l : Fin 1032), s.chip.power.vin = true ∧ s.chip.laneUp l = true) :=
  ⟨⟨s32, 0, (by decide +kernel)⟩, ⟨s30, 0, (by decide +kernel)⟩, ⟨s0, 0, (by decide +kernel)⟩, ⟨s36, 0,
  (by decide +kernel)⟩⟩

theorem witness_LaneStatesFollowTheirEvents_4 :
    (∃ (s : State) (l : Fin 1032), s.chip.power.vin = true ∧ s.chip.lstate l = 3) ∧ (∃ (c : Chip) (l : Nat) (k : Nat),
    l < 1024 ∧ k < 16 ∧ c.laneOwner l = none) :=
  ⟨⟨s31, 0, (by decide +kernel)⟩, ⟨s0.chip, 0, 0, (by decide +kernel)⟩⟩

theorem witness_StaircaseSetsNegotiate :
    (∃ (s : State) (g : SetGroups), s.chip.power.vin = true ∧ (g.ctrlOk && g.dataOk) = false)
    ∧ (∃ (s : State) (g : SetGroups), s.chip.power.vin = true ∧ crc8 (g.grp.take 13) ≠ byteAt g.grp 13)
    ∧ (∃ (s : State) (l : Fin 1032) (g : SetGroups) (pl : Bytes), s.chip.power.vin = true ∧ s.chip.setIn l 5 g = some pl)
    ∧ (∃ (s : State) (l : Fin 1032) (g : SetGroups) (pl : Bytes), s.chip.power.vin = true ∧ s.chip.setIn l 6 g = some pl) :=
  ⟨⟨s0, ⟨false, true, []⟩, (by decide +kernel)⟩, ⟨s0, ⟨true, true, [1] ++ zerosB 13⟩, (by decide +kernel)⟩, ⟨s32, 0,
  tSet 5 0 0, (s32.chip.setIn 0 5 (tSet 5 0 0)).get (by decide +kernel), (by decide +kernel),
  (Option.some_get (by decide +kernel)).symm⟩, ⟨s32, 0, tSet 6 0 0,
  (s32.chip.setIn 0 6 (tSet 6 0 0)).get (by decide +kernel), (by decide +kernel),
  (Option.some_get (by decide +kernel)).symm⟩⟩

theorem witness_StaircaseSetsNegotiate_2 :
    (∃ (s : State) (l : Fin 1032) (g : SetGroups) (pl : Bytes), s.chip.power.vin = true ∧ s.chip.setIn l 7 g = some pl
    ∧ byteAt pl 0 = s.chip.lget l F.LNA_STATUS.STEP ∧ (s.chip.lane l).upSent = false)
    ∧ (∃ (s : State) (l : Fin 1032) (g : SetGroups) (pl : Bytes), s.chip.power.vin = true ∧ s.chip.setIn l 7 g = some pl
    ∧ byteAt pl 0 = s.chip.lget l F.LNA_STATUS.STEP ∧ (s.chip.lane l).upSent = true)
    ∧ (∃ (s : State) (l : Fin 1032) (g : SetGroups) (pl : Bytes), s.chip.power.vin = true ∧ s.chip.setIn l 3 g = some pl)
    ∧ (∃ (s : State) (l : Fin 1032) (g : SetGroups) (pl : Bytes), s.chip.power.vin = true ∧ s.chip.setIn l 4 g = some pl
    ∧ s.chip.lstate l = 6 ∧ byteAt pl 0 = s.chip.lget l F.LNA_STATUS.STEP ∧ byteAt pl 1 ≠ 1) :=
  ⟨⟨s32, 0, tSet 7 0 0, (s32.chip.setIn 0 7 (tSet 7 0 0)).get (by decide +kernel), (by decide +kernel),
  (Option.some_get (by decide +kernel)).symm, (by decide +kernel)⟩, ⟨s41, 0, tSet 7 0 0,
  (s41.chip.setIn 0 7 (tSet 7 0 0)).get (by decide +kernel), (by decide +kernel),
  (Option.some_get (by decide +kernel)).symm, (by decide +kernel)⟩, ⟨s32, 0, tSet 3 0 0,
  (s32.chip.setIn 0 3 (tSet 3 0 0)).get (by decide +kernel), (by decide +kernel),
  (Option.some_get (by decide +kernel)).symm⟩, ⟨s34, 0, tSet 4 0 0,
  (s34.chip.setIn 0 4 (tSet 4 0 0)).get (by decide +kernel), (by decide +kernel),
  (Option.some_get (by decide +kernel)).symm, (by decide +kernel)⟩⟩

theorem witness_StaircaseSetsNegotiate_3 :
    (∃ (s : State) (l : Fin 1032) (g : SetGroups) (pl : Bytes), s.chip.power.vin = true ∧ s.chip.setIn l 4 g = some pl
    ∧ s.chip.lstate l = 6 ∧ byteAt pl 0 = s.chip.lget l F.LNA_STATUS.STEP ∧ byteAt pl 1 = 1)
    ∧ (∃ (s : State) (l : Fin 1032) (g : SetGroups) (pl : Bytes), s.chip.power.vin = true ∧ s.chip.setIn l 2 g = some pl
    ∧ byteAt pl 0 = 1 ∧ (smFind (s.chip.lane l).contents 1).isSome = true
    ∧ smGet (fun _ => 0) (s.chip.lane l).seqs 1 = byteAt pl 1) ∧ (∃ (s : State) (l : Fin 1032) (g : SetGroups) (pl : Bytes),
    s.chip.power.vin = true ∧ s.chip.setIn l 1 g = some pl ∧ s.chip.lstate l = 4) ∧ (∃ (s : State) (l : Fin 1032) (r : Nat),
    s.chip.power.vin = true ∧ (s.chip.lane l).abortOut = some r) :=
  ⟨⟨s34, 0, tSet 4 0 1, (s34.chip.setIn 0 4 (tSet 4 0 1)).get (by decide +kernel), (by decide +kernel),
  (Option.some_get (by decide +kernel)).symm, (by decide +kernel)⟩, ⟨s42, 0, tSet 2 1 0,
  (s42.chip.setIn 0 2 (tSet 2 1 0)).get (by decide +kernel), (by decide +kernel),
  (Option.some_get (by decide +kernel)).symm, (by decide +kernel)⟩, ⟨s32, 0, tSet 1 0 0,
  (s32.chip.setIn 0 1 (tSet 1 0 0)).get (by decide +kernel), (by decide +kernel),
  (Option.some_get (by decide +kernel)).symm, (by decide +kernel)⟩, ⟨s43, 0,
  ((s43.chip.lane 0).abortOut).get (by decide +kernel), (by decide +kernel), (Option.some_get (by decide +kernel)).symm⟩⟩

theorem witness_StaircaseSetsNegotiate_4 :
    (∃ (s : State) (l : Fin 1032) (a : Nat) (q : Nat) (rest : List (Nat × Nat)), s.chip.power.vin = true
    ∧ (s.chip.lane l).abortOut = none ∧ (s.chip.lane l).acks = (a, q) :: rest ∧ 4 ≤ s.chip.lstate l ∧ s.chip.lstate l ≤ 7)
    ∧ (∃ (s : State) (l : Fin 1032), s.chip.power.vin = true ∧ s.chip.lstate l = 6 ∧ (s.chip.lane l).qualOwn = none) :=
  ⟨⟨s44, 0, (((s44.chip.lane 0).acks).head (by decide +kernel)).1, (((s44.chip.lane 0).acks).head (by decide +kernel)).2,
  ((s44.chip.lane 0).acks).tail, (by decide +kernel), (by decide +kernel), (List.cons_head_tail (by decide +kernel)).symm,
  (by decide +kernel)⟩, ⟨s34, 0, (by decide +kernel)⟩⟩

theorem witness_LaneTestAndDimFeatures :
    (∃ (s : State) (l : Fin 1032), s.chip.power.vin = true ∧ s.chip.lget l F.LNA_MODE.RATE = 1)
    ∧ (∃ (s : State) (l : Fin 1032) (v : Word), s.chip.power.vin = true ∧ tapSum v.toNat ≤ 127
    ∧ (s.chip.lstate l < 3 ∨ 7 < s.chip.lstate l)) ∧ (∃ (s : State) (l : Fin 1032) (v : Word), s.chip.power.vin = true
    ∧ (127 < tapSum v.toNat ∨ (3 ≤ s.chip.lstate l ∧ s.chip.lstate l ≤ 7))) ∧ (∃ (s : State) (l : Fin 1032),
    s.chip.power.vin = true
    ∧ ((s.chip.lput l F.LNA_PG_CTRL.ENABLE 1).lstate l = 0 ∨ (s.chip.lput l F.LNA_PG_CTRL.ENABLE 1).lstate l = 1)) :=
  ⟨⟨s47, 0, (by decide +kernel)⟩, ⟨s0, 0, (0 : Word), (by decide +kernel)⟩, ⟨s31, 0, (0 : Word), (by decide +kernel)⟩, ⟨s0,
  0, (by decide +kernel)⟩⟩

theorem witness_LaneTestAndDimFeatures_2 :
    (∃ (s : State) (l : Fin 1032), s.chip.power.vin = true ∧ (s.chip.lput l F.LNA_PG_CTRL.ENABLE 0).lstate l = 11)
    ∧ (∃ (s : State) (l : Fin 1032), s.chip.power.vin = true ∧ s.chip.lflag l F.LNA_PC_CTRL.ENABLE = true)
    ∧ (∃ (s : State) (l : Fin 1032), s.chip.power.vin = true ∧ s.chip.lflag l F.LNA_PC_STATUS.LOCK = true)
    ∧ (∃ (s : State) (l : Fin 1032), s.chip.power.vin = true ∧ s.chip.lget l F.LNA_PG_INJ_PERIOD.V ≠ 0) :=
  ⟨⟨s39, 0, (by decide +kernel)⟩, ⟨s47, 0, (by decide +kernel)⟩, ⟨s47, 0, (by decide +kernel)⟩, ⟨s47, 0,
  (by decide +kernel)⟩⟩

theorem witness_LaneTestAndDimFeatures_3 :
    (∃ (s : State) (l : Fin 1032), s.chip.power.vin = true ∧ s.chip.lflag l F.LNA_RX_ALIGN.ALIGN_MODE = true)
    ∧ (∃ (s : State) (l : Fin 1032), s.chip.power.vin = true ∧ s.chip.lflag l F.LNA_RX_ALIGN.ALIGN_MODE = false)
    ∧ (∃ (s : State) (l : Fin 1032), s.chip.power.vin = true ∧ s.chip.lget l F.LNA_PIN_CTRL.RX_POL = 0)
    ∧ (∃ (s : State) (l : Fin 1032) (p : Nat), s.chip.power.vin = true ∧ s.chip.lflag l F.LNA_CTRL.DIM_EN = true
    ∧ s.chip.laneUp l = true ∧ s.chip.laneOwner l = some p ∧ s.chip.flag F.PRT_STATUS.LPI_CAPABLE p = true
    ∧ s.chip.gangPort p = false ∧ s.chip.lget l F.LNA_MODE.BRINGUP ≠ 2
    ∧ (s.chip.setDim l true true).lflag l F.LNA_STATUS.TX_DIM = true
    ∧ (s.chip.setDim l true true).lflag l F.LNA_STATUS.RX_DIM = true) :=
  ⟨⟨s47, 0, (by decide +kernel)⟩, ⟨s0, 0, (by decide +kernel)⟩, ⟨s0, 0, (by decide +kernel)⟩, ⟨s46, 0,
  (s46.chip.laneOwner 0).get (by decide +kernel), (by decide +kernel), (by decide +kernel), (by decide +kernel),
  (Option.some_get (by decide +kernel)).symm, (by decide +kernel)⟩⟩

theorem witness_LaneTestAndDimFeatures_4 :
    (∃ (s : State) (l : Fin 1032), s.chip.power.vin = true ∧ s.chip.laneUp l = true
    ∧ (s.chip.lflag l F.LNA_STATUS.TX_DIM || s.chip.lflag l F.LNA_STATUS.RX_DIM) = true) ∧ (∃ (s : State) (l : Fin 1032),
    s.chip.power.vin = true ∧ (s.chip.lane l).waking = false) ∧ (∃ (s : State) (l : Fin 1032) (tx : Bool),
    s.chip.power.vin = true ∧ (s.chip.lane l).waking = true
    ∧ ((s.chip.setDim l tx false).lflag l F.LNA_STATUS.TX_DIM || (s.chip.setDim l tx false).lflag l F.LNA_STATUS.RX_DIM) = false
    ∧ (s.chip.setDim l tx false).lstate l = 9) :=
  ⟨⟨s46, 0, (by decide +kernel)⟩, ⟨s0, 0, (by decide +kernel)⟩, ⟨s45, 0, false, (by decide +kernel)⟩⟩

theorem witness_PortsFormIdleAndPause :
    (∃ (s : State) (p : Fin 512), s.chip.power.vin = true
    ∧ (s.chip.getF F.PRT_STATUS.PSTATE p ≠ psForming ∨ s.chip.getF F.PRT_GIVEUP.S p = 0)) ∧ (∃ (s : State) (p : Fin 512),
    s.chip.power.vin = true ∧ s.chip.getF F.PRT_STATUS.PSTATE p = psForming ∧ s.chip.getF F.PRT_GIVEUP.S p ≠ 0
    ∧ s.chip.getF F.PRT_CFG.MODE p ≠ 18) ∧ (∃ (s : State) (p : Fin 512), s.chip.power.vin = true
    ∧ s.chip.getF F.PRT_STATUS.PSTATE p = psForming ∧ s.chip.getF F.PRT_GIVEUP.S p ≠ 0 ∧ s.chip.getF F.PRT_CFG.MODE p = 18
    ∧ s.chip.flag F.PRT_CFG.DEGRADE p = true ∧ 2 ≤ s.chip.portWidth p ∧ (s.chip.portSt p).half = false
    ∧ ((s.chip.portLanes p).take (s.chip.portWidth p / 2)).all (fun l => s.chip.lstate l == 7 || s.chip.laneUp l) = true)
    ∧ (∃ (s : State) (p : Fin 512), s.chip.power.vin = true ∧ (s.chip.portSt p).half = true) :=
  ⟨⟨s0, 0, (by decide +kernel)⟩, ⟨s49, 0, (by decide +kernel)⟩, ⟨s50, 0, (by decide +kernel)⟩, ⟨s51, 0,
  (by decide +kernel)⟩⟩

theorem witness_PortsFormIdleAndPause_2 :
    (∃ (s : State) (p : Fin 512), s.chip.power.vin = true ∧ s.chip.flag F.PRT_CFG.LPI_EN p = true
    ∧ s.chip.flag F.PRT_STATUS.LPI_CAPABLE p = true ∧ s.chip.getF F.PRT_LPI.IDLE_US p ≠ 0 ∧ s.chip.portUp p = true
    ∧ s.chip.gangPort p = false ∧ s.chip.flag F.PRT_STATUS.PAUSED p = false ∧ s.chip.portHolds p = false
    ∧ (s.chip.portSt p).txBusy = none ∧ (s.chip.portSt p).lpiHold = false ∧ s.chip.flag F.PRT_STATUS.LPI_TX p = false)
    ∧ (∃ (s : State) (p : Fin 512), s.chip.power.vin = true ∧ s.chip.getF F.PRT_LPI.IDLE_US p = 0)
    ∧ (∃ (s : State) (p : Fin 512), s.chip.power.vin = true ∧ s.chip.flag F.PRT_STATUS.LPI_TX p = true)
    ∧ (∃ (s : State) (p : Fin 512) (fr : Bytes), s.chip.power.vin = true ∧ s.chip.portUp p = true ∧ beAt fr 12 2 = 0x8808
    ∧ beAt fr 14 2 = 1 ∧ s.chip.getF F.PRT_CFG.PAUSE_MODE p = 1) :=
  ⟨⟨s52, 0, (by decide +kernel)⟩, ⟨s0, 0, (by decide +kernel)⟩, ⟨s53, 0, (by decide +kernel)⟩, ⟨s54, 0, zerosB 12 ++ [0x88,
  8, 0, 1] ++ zerosB 50, (by decide +kernel)⟩⟩

theorem witness_PortsFormIdleAndPause_3 :
    (∃ (s : State) (p : Fin 512) (fr : Bytes), s.chip.power.vin = true ∧ s.chip.portUp p = true ∧ beAt fr 12 2 = 0x8808
    ∧ beAt fr 14 2 = 1 ∧ s.chip.getF F.PRT_CFG.PAUSE_MODE p ≠ 1) ∧ (∃ (s : State) (p : Fin 512) (fr : Bytes),
    s.chip.power.vin = true ∧ s.chip.portUp p = true ∧ beAt fr 12 2 = 0x8808 ∧ beAt fr 14 2 = 0x101
    ∧ s.chip.getF F.PRT_CFG.PAUSE_MODE p = 2) ∧ (∃ (ks : List Nat) (k : Nat), k ∈ ks)
    ∧ (∃ (s : State) (p : Fin 512) (d : Fin 2), s.chip.power.vin = true ∧ s.chip.flag F.PRT_CVU_CTRL.SNOOP_EN p d = false) :=
  ⟨⟨s52, 0, zerosB 12 ++ [0x88, 8, 0, 1] ++ zerosB 50, (by decide +kernel)⟩, ⟨s55, 0, zerosB 12 ++ [0x88, 8, 1,
  1] ++ zerosB 50, (by decide +kernel)⟩, ⟨[0], 0, (by decide +kernel)⟩, ⟨s0, 0, 0, (by decide +kernel)⟩⟩

theorem witness_PortsFormIdleAndPause_4 :
    ∃ (s : State) (p : Fin 512) (d : Fin 2), s.chip.power.vin = true ∧ s.chip.flag F.PRT_CVU_CTRL.SNOOP_EN p d = true :=
  ⟨s56, 0, 0, (by decide +kernel)⟩

theorem witness_FramesAreReceivedAndCounted :
    (∃ (s : State) (p : Fin 512), s.chip.power.vin = true ∧ s.chip.portUp p = false) ∧ (∃ (s : State) (p : Fin 512),
    s.chip.power.vin = true ∧ s.chip.portUp p = true ∧ (s.chip.portSt p).arriving = none ∧ (s.chip.portSt p).discard = 0
    ∧ s.chip.tripHold = true) ∧ (∃ (s : State) (p : Fin 512), s.chip.power.vin = true ∧ s.chip.portUp p = true
    ∧ (s.chip.portSt p).arriving = none ∧ (s.chip.portSt p).discard = 0 ∧ s.chip.tripHold = false
    ∧ s.chip.bathHolds 2 (sliceOf p) = false ∧ s.chip.sliceHeld (sliceOf p) = false
    ∧ s.chip.getF F.PRT_MAXFRAME.MAXFRAME p ≤ s.chip.elasticFree p) ∧ (∃ (s : State) (p : Fin 512), s.chip.power.vin = true
    ∧ (s.chip.portSt p).elastic = []) :=
  ⟨⟨s0, 0, (by decide +kernel)⟩, ⟨s57, 0, (by decide +kernel)⟩, ⟨s52, 0, (by decide +kernel)⟩, ⟨s0, 0, (by decide +kernel)⟩⟩

theorem witness_FramesAreReceivedAndCounted_2 :
    (∃ (s : State) (p : Fin 512) (pid : Nat) (r : List Nat) (x : Pkt), s.chip.power.vin = true
    ∧ (s.chip.portSt p).elastic = pid :: r ∧ s.chip.mayWrite p = true ∧ s.chip.pkt pid = some x ∧ x.tail = 0)
    ∧ (∃ (s : State) (pid : Nat) (x : Pkt), s.chip.power.vin = true ∧ s.chip.pkt pid = some x ∧ x.stage = .mac ∧ x.tail = 1
    ∧ s.chip.parked x.slice = false ∧ s.chip.sliceHeld x.slice = false ∧ x.src = 4 ∧ s.chip.pickPipe x.slice = none)
    ∧ (∃ (s : State) (pid : Nat) (q : Nat) (x : Pkt), s.chip.power.vin = true ∧ s.chip.pkt pid = some x ∧ x.stage = .mac
    ∧ x.tail = 1 ∧ s.chip.parked x.slice = false ∧ s.chip.sliceHeld x.slice = false ∧ x.src = 0 ∧ x.pass = 0
    ∧ s.chip.gangPort x.port = false ∧ s.chip.pickPipe x.slice = some q)
    ∧ (∃ (s : State) (p : Fin 512) (pid : Nat) (fr : Bytes) (e : Bool), s.chip.power.vin = true
    ∧ (s.chip.portSt p).arriving = some pid ∧ s.chip.rxReason p (s.chip.portSt p).discard fr e ≠ 0) :=
  ⟨⟨s380, 0, ((s380.chip.portSt 0).elastic).head (by decide +kernel), ((s380.chip.portSt 0).elastic).tail,
  (s380.chip.pkt (((s380.chip.portSt 0).elastic).head (by decide +kernel))).get (by decide +kernel), (by decide +kernel),
  (List.cons_head_tail (by decide +kernel)).symm, (by decide +kernel), (Option.some_get (by decide +kernel)).symm,
  (by decide +kernel)⟩, ⟨s61, 0, (s61.chip.pkt 0).get (by decide +kernel), (by decide +kernel),
  (Option.some_get (by decide +kernel)).symm, (by decide +kernel)⟩, ⟨s60, 0,
  (s60.chip.pickPipe ((s60.chip.pkt 0).get (by decide +kernel)).slice).get (by decide +kernel),
  (s60.chip.pkt 0).get (by decide +kernel), (by decide +kernel), (Option.some_get (by decide +kernel)).symm,
  (by decide +kernel), (by decide +kernel), (by decide +kernel), (by decide +kernel), (by decide +kernel),
  (by decide +kernel), (by decide +kernel), (Option.some_get (by decide +kernel)).symm⟩, ⟨s62, 0,
  ((s62.chip.portSt 0).arriving).get (by decide +kernel), [], false, (by decide +kernel),
  (Option.some_get (by decide +kernel)).symm, (by decide +kernel)⟩⟩

theorem witness_FramesAreReceivedAndCounted_3 :
    (∃ (s : State) (p : Fin 512) (pid : Nat) (fr : Bytes) (e : Bool) (x : Pkt), s.chip.power.vin = true
    ∧ (s.chip.portSt p).arriving = some pid ∧ s.chip.rxReason p (s.chip.portSt p).discard fr e = 0
    ∧ beAt (fr.take (fr.length - 4)) 12 2 ≠ 0x8808 ∧ s.chip.gangPort p = false ∧ s.chip.pkt pid = some x ∧ x.ctx = none
    ∧ x.prov = none ∧ tailConflict none (fr.length - 4) = false) ∧ (∃ (fr : Bytes), fr.length < 64)
    ∧ (∃ (c : Chip) (p : Nat) (fr : Bytes), 64 ≤ fr.length ∧ c.getF F.PRT_MAXFRAME.MAXFRAME p < fr.length)
    ∧ (∃ (c : Chip) (p : Nat) (fr : Bytes), 64 ≤ fr.length ∧ fr.length ≤ c.getF F.PRT_MAXFRAME.MAXFRAME p
    ∧ leNat (fr.drop (fr.length - 4)) = Nat.xor (fcsOf (fr.take (fr.length - 4))) 0xFFFFFFFF
    ∧ leNat (fr.drop (fr.length - 4)) ≠ fcsOf (fr.take (fr.length - 4))) :=
  ⟨⟨s63, 0, ((s63.chip.portSt 0).arriving).get (by decide +kernel), zerosB 60 ++ natLe 4 (fcsOf (zerosB 60)), false,
  (s63.chip.pkt (((s63.chip.portSt 0).arriving).get (by decide +kernel))).get (by decide +kernel), (by decide +kernel),
  (Option.some_get (by decide +kernel)).symm, (by decide +kernel), (by decide +kernel), (by decide +kernel),
  (Option.some_get (by decide +kernel)).symm, (by decide +kernel)⟩, ⟨[], (by decide +kernel)⟩, ⟨s0.chip, 0, zerosB 64,
  (by decide +kernel)⟩, ⟨s58.chip, 0, zerosB 60 ++ natLe 4 (Nat.xor (fcsOf (zerosB 60)) 0xFFFFFFFF), (by decide +kernel)⟩⟩

theorem witness_ModuleSitesComeUpAndTransfer :
    (∃ (s : State) (m : Fin 128), s.chip.power.vin = true ∧ s.chip.flag F.PRT_SITE_STATUS.PRESENT m = false)
    ∧ (∃ (s : State) (m : Fin 128), s.chip.power.vin = false ∧ s.chip.flag F.PRT_SITE_STATUS.PRESENT m = false)
    ∧ (∃ (s : State) (m : Fin 128), s.chip.power.vin = false ∧ s.chip.flag F.PRT_SITE_STATUS.PRESENT m = true)
    ∧ (∃ (s : State) (m : Fin 128), s.chip.power.vin = true ∧ s.chip.flag F.PRT_SITE_STATUS.PRESENT m = true
    ∧ (s.chip.site m).busy = false) :=
  ⟨⟨s0, 0, (by decide +kernel)⟩, ⟨s9, 0, (by decide +kernel)⟩, ⟨s65, 0, (by decide +kernel)⟩, ⟨s66, 0, (by decide +kernel)⟩⟩

theorem witness_ModuleSitesComeUpAndTransfer_2 :
    (∃ (s : State) (m : Fin 128), s.chip.power.vin = true ∧ s.chip.sstate m = ssReset
    ∧ s.chip.flag F.PRT_SITE_CTRL.FORCE_RESET m = false) ∧ (∃ (s : State) (m : Fin 128) (rev : Nat), s.chip.power.vin = true
    ∧ s.chip.sstate m = ssInit ∧ (s.chip.site m).pollOn = true ∧ rev < 0x40) ∧ (∃ (s : State) (m : Fin 128) (rev : Nat),
    s.chip.power.vin = true ∧ s.chip.sstate m = ssInit ∧ (s.chip.site m).pollOn = true ∧ 0x40 ≤ rev)
    ∧ (∃ (c : Chip) (m : Nat), c.getF F.PRT_SITE_CTRL.POWER_LIMIT m ≠ 0
    ∧ c.getF F.PRT_SITE_STATUS.MAXPOWER m ≤ c.getF F.PRT_SITE_CTRL.POWER_LIMIT m) :=
  ⟨⟨s66, 1, (by decide +kernel)⟩, ⟨s66, 2, 0, (by decide +kernel)⟩, ⟨s66, 2, 64, (by decide +kernel)⟩, ⟨s66.chip, 0,
  (by decide +kernel)⟩⟩

theorem witness_ModuleSitesComeUpAndTransfer_3 :
    (∃ (c : Chip) (m : Nat), c.sstate m ≠ ssDenied
    ∧ (c.getF F.PRT_SITE_CTRL.POWER_LIMIT m = 0 ∨ c.getF F.PRT_SITE_CTRL.POWER_LIMIT m < c.getF F.PRT_SITE_STATUS.MAXPOWER m))
    ∧ (∃ (s : State) (m : Fin 128), s.chip.power.vin = true ∧ s.chip.sstate m = ssFault) ∧ (∃ (s : State) (m : Fin 128),
    s.chip.power.vin = true ∧ s.chip.sstate m = ssLowPower) ∧ (∃ (s : State) (m : Fin 128), s.chip.power.vin = true
    ∧ s.chip.flag F.PRT_SITE_STATUS.PRESENT m = true ∧ s.chip.flag F.PRT_SITE_CTRL.AUTO m = false) :=
  ⟨⟨s0.chip, 0, (by decide +kernel)⟩, ⟨s66, 8, (by decide +kernel)⟩, ⟨s66, 3, (by decide +kernel)⟩, ⟨s66, 0,
  (by decide +kernel)⟩⟩

theorem witness_ModuleSitesComeUpAndTransfer_4 :
    (∃ (s : State) (m : Fin 128), s.chip.power.vin = true ∧ s.chip.flag F.PRT_SITE_STATUS.PRESENT m = true
    ∧ s.chip.flag F.PRT_SITE_CTRL.AUTO m = true ∧ s.chip.sstate m = ssReady) ∧ (∃ (s : State) (m : Fin 128),
    s.chip.power.vin = true ∧ s.chip.flag F.PRT_SITE_CTRL.AUTO m = true ∧ s.chip.sstate m = ssActive)
    ∧ (∃ (s : State) (m : Fin 128) (w : Bool), s.chip.power.vin = true ∧ (s.chip.site m).busy = false
    ∧ (s.chip.putF F.PRT_SITE_XFER.DIR (b2n w) m).flag F.PRT_SITE_STATUS.PRESENT m = false)
    ∧ (∃ (s : State) (m : Fin 128) (w : Bool), s.chip.power.vin = true ∧ (s.chip.site m).busy = false
    ∧ (s.chip.putF F.PRT_SITE_XFER.DIR (b2n w) m).flag F.PRT_SITE_STATUS.PRESENT m = true
    ∧ 1 ≤ ((s.chip.putF F.PRT_SITE_XFER.DIR (b2n w) m).getF F.PRT_SITE_XFER_ADDR.LENGTH m)
    ∧ ((s.chip.putF F.PRT_SITE_XFER.DIR (b2n w) m).getF F.PRT_SITE_XFER_ADDR.LENGTH m) ≤ 128
    ∧ 0x80 ≤ (s.chip.putF F.PRT_SITE_XFER.DIR (b2n w) m).getF F.PRT_SITE_XFER_ADDR.OFFSET m
    ∧ (s.chip.putF F.PRT_SITE_XFER.DIR (b2n w) m).getF F.PRT_SITE_XFER_ADDR.OFFSET m + ((s.chip.putF F.PRT_SITE_XFER.DIR (b2n w) m).getF F.PRT_SITE_XFER_ADDR.LENGTH m) ≤ 0x100) :=
  ⟨⟨s66, 4, (by decide +kernel)⟩, ⟨s66, 5, (by decide +kernel)⟩, ⟨s0, 0, false, (by decide +kernel)⟩, ⟨s67, 0, false,
  (by decide +kernel)⟩⟩

theorem witness_ModuleSitesComeUpAndTransfer_5 :
    (∃ (s : State) (m : Fin 128), s.chip.power.vin = true ∧ (s.chip.site m).busy = true ∧ (s.chip.site m).write = true)
    ∧ (∃ (s : State) (m : Fin 128), s.chip.power.vin = true ∧ (s.chip.site m).busy = true ∧ (s.chip.site m).write = false) :=
  ⟨⟨s66, 7, (by decide +kernel)⟩, ⟨s66, 6, (by decide +kernel)⟩⟩

theorem witness_ParseStepsRunTheProgram :
    (∃ (s : State) (pid : Nat) (p : Pkt) (x : ParseCtx) (i : PIns), s.chip.power.vin = true ∧ s.chip.pkt pid = some p
    ∧ p.ctx = some x ∧ s.chip.parseIns x.slice x.pc = some i
    ∧ stepCheck x i p.got (if p.tail = 1 then some p.frame.length else none) = .wait) ∧ (∃ (s : State) (pid : Nat),
    s.chip.power.vin = true ∧ s.chip.pkt pid = none)
    ∧ (∃ (s : State) (pid : Nat) (bit : Nat) (cause : Nat) (p : Pkt) (x : ParseCtx) (i : PIns), s.chip.power.vin = true
    ∧ s.chip.pkt pid = some p ∧ p.ctx = some x ∧ s.chip.parseIns x.slice x.pc = some i
    ∧ stepCheck x i p.got (if p.tail = 1 then some p.frame.length else none) = .stop bit cause ∧ i.kind = .nop)
    ∧ (∃ (s : State) (pid : Nat) (bit : Nat) (cause : Nat) (p : Pkt) (x : ParseCtx) (i : PIns), s.chip.power.vin = true
    ∧ s.chip.pkt pid = some p ∧ p.ctx = some x ∧ s.chip.parseIns x.slice x.pc = some i
    ∧ stepCheck x i p.got (if p.tail = 1 then some p.frame.length else none) = .stop bit cause ∧ i.kind = .ext) :=
  ⟨⟨s85, 0, (s85.chip.pkt 0).get (by decide +kernel),
  (((s85.chip.pkt 0).get (by decide +kernel)).ctx).get (by decide +kernel),
  (s85.chip.parseIns ((((s85.chip.pkt 0).get (by decide +kernel)).ctx).get (by decide +kernel)).slice ((((s85.chip.pkt 0).get (by decide +kernel)).ctx).get (by decide +kernel)).pc).get (by decide +kernel),
  (by decide +kernel), (Option.some_get (by decide +kernel)).symm, (Option.some_get (by decide +kernel)).symm,
  (Option.some_get (by decide +kernel)).symm, (by decide +kernel)⟩, ⟨s0, 0, (by decide +kernel)⟩, ⟨s69, 0, 0, 5,
  (s69.chip.pkt 0).get (by decide +kernel), (((s69.chip.pkt 0).get (by decide +kernel)).ctx).get (by decide +kernel),
  (s69.chip.parseIns ((((s69.chip.pkt 0).get (by decide +kernel)).ctx).get (by decide +kernel)).slice ((((s69.chip.pkt 0).get (by decide +kernel)).ctx).get (by decide +kernel)).pc).get (by decide +kernel),
  (by decide +kernel), (Option.some_get (by decide +kernel)).symm, (Option.some_get (by decide +kernel)).symm,
  (Option.some_get (by decide +kernel)).symm, (by decide +kernel)⟩, ⟨s71, 0, 0, 5, (s71.chip.pkt 0).get (by decide +kernel),
  (((s71.chip.pkt 0).get (by decide +kernel)).ctx).get (by decide +kernel),
  (s71.chip.parseIns ((((s71.chip.pkt 0).get (by decide +kernel)).ctx).get (by decide +kernel)).slice ((((s71.chip.pkt 0).get (by decide +kernel)).ctx).get (by decide +kernel)).pc).get (by decide +kernel),
  (by decide +kernel), (Option.some_get (by decide +kernel)).symm, (Option.some_get (by decide +kernel)).symm,
  (Option.some_get (by decide +kernel)).symm, (by decide +kernel)⟩⟩

theorem witness_ParseStepsRunTheProgram_2 :
    (∃ (s : State) (pid : Nat) (bit : Nat) (cause : Nat) (p : Pkt) (x : ParseCtx) (i : PIns), s.chip.power.vin = true
    ∧ s.chip.pkt pid = some p ∧ p.ctx = some x ∧ s.chip.parseIns x.slice x.pc = some i
    ∧ stepCheck x i p.got (if p.tail = 1 then some p.frame.length else none) = .stop bit cause ∧ i.kind = .mark)
    ∧ (∃ (s : State) (pid : Nat) (bit : Nat) (cause : Nat) (p : Pkt) (x : ParseCtx) (i : PIns), s.chip.power.vin = true
    ∧ s.chip.pkt pid = some p ∧ p.ctx = some x ∧ s.chip.parseIns x.slice x.pc = some i
    ∧ stepCheck x i p.got (if p.tail = 1 then some p.frame.length else none) = .stop bit cause ∧ i.kind = .lchk)
    ∧ (∃ (s : State) (pid : Nat) (bit : Nat) (cause : Nat) (p : Pkt) (x : ParseCtx) (i : PIns), s.chip.power.vin = true
    ∧ s.chip.pkt pid = some p ∧ p.ctx = some x ∧ s.chip.parseIns x.slice x.pc = some i
    ∧ stepCheck x i p.got (if p.tail = 1 then some p.frame.length else none) = .stop bit cause ∧ i.kind = .kcommit)
    ∧ (∃ (s : State) (pid : Nat) (bit : Nat) (cause : Nat) (p : Pkt) (x : ParseCtx) (i : PIns), s.chip.power.vin = true
    ∧ s.chip.pkt pid = some p ∧ p.ctx = some x ∧ s.chip.parseIns x.slice x.pc = some i
    ∧ stepCheck x i p.got (if p.tail = 1 then some p.frame.length else none) = .stop bit cause ∧ i.kind = .alu) :=
  ⟨⟨s61, 1, 0, 4, (s61.chip.pkt 1).get (by decide +kernel),
  (((s61.chip.pkt 1).get (by decide +kernel)).ctx).get (by decide +kernel),
  (s61.chip.parseIns ((((s61.chip.pkt 1).get (by decide +kernel)).ctx).get (by decide +kernel)).slice ((((s61.chip.pkt 1).get (by decide +kernel)).ctx).get (by decide +kernel)).pc).get (by decide +kernel),
  (by decide +kernel), (Option.some_get (by decide +kernel)).symm, (Option.some_get (by decide +kernel)).symm,
  (Option.some_get (by decide +kernel)).symm, (by decide +kernel)⟩, ⟨s75, 0, 0, 5, (s75.chip.pkt 0).get (by decide +kernel),
  (((s75.chip.pkt 0).get (by decide +kernel)).ctx).get (by decide +kernel),
  (s75.chip.parseIns ((((s75.chip.pkt 0).get (by decide +kernel)).ctx).get (by decide +kernel)).slice ((((s75.chip.pkt 0).get (by decide +kernel)).ctx).get (by decide +kernel)).pc).get (by decide +kernel),
  (by decide +kernel), (Option.some_get (by decide +kernel)).symm, (Option.some_get (by decide +kernel)).symm,
  (Option.some_get (by decide +kernel)).symm, (by decide +kernel)⟩, ⟨s77, 0, 0, 5, (s77.chip.pkt 0).get (by decide +kernel),
  (((s77.chip.pkt 0).get (by decide +kernel)).ctx).get (by decide +kernel),
  (s77.chip.parseIns ((((s77.chip.pkt 0).get (by decide +kernel)).ctx).get (by decide +kernel)).slice ((((s77.chip.pkt 0).get (by decide +kernel)).ctx).get (by decide +kernel)).pc).get (by decide +kernel),
  (by decide +kernel), (Option.some_get (by decide +kernel)).symm, (Option.some_get (by decide +kernel)).symm,
  (Option.some_get (by decide +kernel)).symm, (by decide +kernel)⟩, ⟨s79, 0, 0, 5, (s79.chip.pkt 0).get (by decide +kernel),
  (((s79.chip.pkt 0).get (by decide +kernel)).ctx).get (by decide +kernel),
  (s79.chip.parseIns ((((s79.chip.pkt 0).get (by decide +kernel)).ctx).get (by decide +kernel)).slice ((((s79.chip.pkt 0).get (by decide +kernel)).ctx).get (by decide +kernel)).pc).get (by decide +kernel),
  (by decide +kernel), (Option.some_get (by decide +kernel)).symm, (Option.some_get (by decide +kernel)).symm,
  (Option.some_get (by decide +kernel)).symm, (by decide +kernel)⟩⟩

theorem witness_ParseStepsRunTheProgram_3 :
    (∃ (s : State) (pid : Nat) (bit : Nat) (cause : Nat) (p : Pkt) (x : ParseCtx) (i : PIns), s.chip.power.vin = true
    ∧ s.chip.pkt pid = some p ∧ p.ctx = some x ∧ s.chip.parseIns x.slice x.pc = some i
    ∧ stepCheck x i p.got (if p.tail = 1 then some p.frame.length else none) = .stop bit cause ∧ i.kind = .setf)
    ∧ (∃ (s : State) (pid : Nat) (bit : Nat) (cause : Nat) (p : Pkt) (x : ParseCtx) (i : PIns), s.chip.power.vin = true
    ∧ s.chip.pkt pid = some p ∧ p.ctx = some x ∧ s.chip.parseIns x.slice x.pc = some i
    ∧ stepCheck x i p.got (if p.tail = 1 then some p.frame.length else none) = .stop bit cause ∧ i.kind = .lvl)
    ∧ (∃ (x : ParseCtx), x.done = x.steps) :=
  ⟨⟨s81, 0, 0, 5, (s81.chip.pkt 0).get (by decide +kernel),
  (((s81.chip.pkt 0).get (by decide +kernel)).ctx).get (by decide +kernel),
  (s81.chip.parseIns ((((s81.chip.pkt 0).get (by decide +kernel)).ctx).get (by decide +kernel)).slice ((((s81.chip.pkt 0).get (by decide +kernel)).ctx).get (by decide +kernel)).pc).get (by decide +kernel),
  (by decide +kernel), (Option.some_get (by decide +kernel)).symm, (Option.some_get (by decide +kernel)).symm,
  (Option.some_get (by decide +kernel)).symm, (by decide +kernel)⟩, ⟨s82, 0, 0, 1, (s82.chip.pkt 0).get (by decide +kernel),
  (((s82.chip.pkt 0).get (by decide +kernel)).ctx).get (by decide +kernel),
  (s82.chip.parseIns ((((s82.chip.pkt 0).get (by decide +kernel)).ctx).get (by decide +kernel)).slice ((((s82.chip.pkt 0).get (by decide +kernel)).ctx).get (by decide +kernel)).pc).get (by decide +kernel),
  (by decide +kernel), (Option.some_get (by decide +kernel)).symm, (Option.some_get (by decide +kernel)).symm,
  (Option.some_get (by decide +kernel)).symm, (by decide +kernel)⟩, ⟨tParse 0, (by decide +kernel)⟩⟩

theorem witness_ClassificationUsesOneVersion :
    (∃ (s : State) (pid : Nat) (p : Pkt), s.chip.power.vin = true ∧ s.chip.pkt pid = some p ∧ p.stage ≠ .classify)
    ∧ (∃ (s : State) (pid : Nat) (p : Pkt), s.chip.power.vin = true ∧ s.chip.pkt pid = some p ∧ p.stage = .classify
    ∧ p.ver = none) ∧ (∃ (s : State) (pid : Nat) (v : Nat) (p : Pkt), s.chip.power.vin = true ∧ s.chip.pkt pid = some p
    ∧ p.stage = .classify ∧ p.src ≠ 5 ∧ p.ver = some v) ∧ (∃ (s : State) (pid : Nat) (v : Nat) (p : Pkt),
    s.chip.power.vin = true ∧ s.chip.pkt pid = some p ∧ p.stage = .classify ∧ p.src = 5 ∧ p.ver = some v
    ∧ s.chip.liveV v = false ∧ v ≠ s.chip.nextV) :=
  ⟨⟨s59, 0, (s59.chip.pkt 0).get (by decide +kernel), (by decide +kernel), (Option.some_get (by decide +kernel)).symm,
  (by decide +kernel)⟩, ⟨s86, 0, (s86.chip.pkt 0).get (by decide +kernel), (by decide +kernel),
  (Option.some_get (by decide +kernel)).symm, (by decide +kernel)⟩, ⟨s87, 0,
  (((s87.chip.pkt 0).get (by decide +kernel)).ver).get (by decide +kernel), (s87.chip.pkt 0).get (by decide +kernel),
  (by decide +kernel), (Option.some_get (by decide +kernel)).symm, (by decide +kernel), (by decide +kernel),
  (Option.some_get (by decide +kernel)).symm⟩, ⟨s88, 0,
  (((s88.chip.pkt 0).get (by decide +kernel)).ver).get (by decide +kernel), (s88.chip.pkt 0).get (by decide +kernel),
  (by decide +kernel), (Option.some_get (by decide +kernel)).symm, (by decide +kernel), (by decide +kernel),
  (Option.some_get (by decide +kernel)).symm, (by decide +kernel)⟩⟩

theorem witness_ClassificationUsesOneVersion_2 :
    ∃ (c : Chip) (r : Nat), c.looksUp r = false :=
  ⟨s0.chip, 0, (by decide +kernel)⟩

theorem witness_LatentSetIsStagedFixedAndRetired :
    (∃ (s : State) (r : Fin 32), s.chip.power.vin = true ∧ s.chip.flag F.CLS_CMD_STATUS.RUNNING = false
    ∧ s.chip.polBit 0x238 r = false ∧ s.chip.rKind r = 0) ∧ (∃ (s : State) (r : Fin 32), s.chip.power.vin = true
    ∧ s.chip.flag F.CLS_CMD_STATUS.RUNNING = false
    ∧ ((s.chip.stageBodyCmd 1 r (s.chip.stageBody (s.chip.rKind r)) (s.chip.getF F.CLS_CMD_INDEX.V) (s.chip.polBit 0x238 r)).1) ≠ stDenied)
    ∧ (∃ (s : State) (r : Fin 32), s.chip.power.vin = true ∧ s.chip.flag F.CLS_CMD_STATUS.RUNNING = false
    ∧ ((s.chip.stageBodyCmd 2 r (s.chip.stageBody (s.chip.rKind r)) (s.chip.getF F.CLS_CMD_INDEX.V) (s.chip.polBit 0x238 r)).1) ≠ stDenied)
    ∧ (∃ (s : State) (r : Fin 32), s.chip.power.vin = true ∧ s.chip.flag F.CLS_CMD_STATUS.RUNNING = false
    ∧ ((s.chip.stageBodyCmd 3 r (s.chip.stageBody (s.chip.rKind r)) (s.chip.getF F.CLS_CMD_INDEX.V) (s.chip.polBit 0x238 r)).1) ≠ stDenied) :=
  ⟨⟨s0, 0, (by decide +kernel)⟩, ⟨s0, 0, (by decide +kernel)⟩, ⟨s0, 0, (by decide +kernel)⟩, ⟨s0, 0, (by decide +kernel)⟩⟩

theorem witness_LatentSetIsStagedFixedAndRetired_2 :
    (∃ (c : Chip) (r : Nat) (idx : Nat) (body : Bytes) (plan : Nat × Option (Nat × Nat)), (c.rKind r = 1 ∨ c.rKind r = 2)
    ∧ bodyBad (c.rKind r) body = false ∧ c.sameIdent r body idx = [] ∧ c.bodyActOk (c.rKind r) body = true
    ∧ c.planPlace r body idx = some plan ∧ c.latentFull 1 = false) ∧ (∃ (s : State) (r : Fin 32) (p : Nat) (e : REntry),
    s.chip.power.vin = true ∧ s.chip.flag F.CLS_CMD_STATUS.RUNNING = false ∧ (s.chip.rKind r = 1 ∨ s.chip.rKind r = 2)
    ∧ (s.chip.sameIdent r (s.chip.stageBody (s.chip.rKind r)) (s.chip.getF F.CLS_CMD_INDEX.V)).find? (fun e₀ => s.chip.visible e₀.2 (s.chip.getF F.CLS_CMD_VERSION.V)) = some (p,
    e) ∧ s.chip.liveV (s.chip.getF F.CLS_CMD_VERSION.V) = true) ∧ (∃ (s : State), s.chip.power.vin = true
    ∧ s.chip.flag F.CLS_CMD_STATUS.RUNNING = false ∧ s.chip.flag F.CLS_TCMD_STATUS.RUNNING = false) ∧ (∃ (s : State),
    s.chip.power.vin = true ∧ s.chip.flag F.CLS_CMD_STATUS.RUNNING = false ∧ s.chip.flag F.CLS_TCMD_STATUS.RUNNING = true) :=
  ⟨⟨s89.chip, 0, 0, [0x3F, 0xFF, 0xFF] ++ zerosB 61, (s89.chip.planPlace 0 ([0x3F, 0xFF,
  0xFF] ++ zerosB 61) 0).get (by decide +kernel), (by decide +kernel), (by decide +kernel), (by decide +kernel),
  (by decide +kernel), (Option.some_get (by decide +kernel)).symm, (by decide +kernel)⟩, ⟨s390, 0,
  (((s390.chip.sameIdent 0 (s390.chip.stageBody (s390.chip.rKind 0)) (s390.chip.getF F.CLS_CMD_INDEX.V)).find?       (fun e₀ => s390.chip.visible e₀.2 (s390.chip.getF F.CLS_CMD_VERSION.V))).get (by decide +kernel)).1,
  (((s390.chip.sameIdent 0 (s390.chip.stageBody (s390.chip.rKind 0)) (s390.chip.getF F.CLS_CMD_INDEX.V)).find?       (fun e₀ => s390.chip.visible e₀.2 (s390.chip.getF F.CLS_CMD_VERSION.V))).get (by decide +kernel)).2,
  (by decide +kernel), (by decide +kernel), (by decide +kernel), (Option.some_get (by decide +kernel)).symm,
  (by decide +kernel)⟩, ⟨s0, (by decide +kernel)⟩, ⟨s91, (by decide +kernel)⟩⟩

theorem witness_LatentSetIsStagedFixedAndRetired_3 :
    (∃ (c : Chip), c.rules.fixAt = none ∧ c.versionFree = true) ∧ (∃ (c : Chip), c.rules.fixAt ≠ none) ∧ (∃ (c : Chip),
    c.rules.fixAt = none ∧ c.versionFree = false) ∧ (∃ (s : State), s.chip.power.vin = true
    ∧ s.chip.flag F.CLS_CMD_STATUS.RUNNING = false ∧ s.chip.rules.fixAt = none) :=
  ⟨⟨s0.chip, (by decide +kernel)⟩, ⟨s92.chip, (by decide +kernel)⟩, ⟨s93.chip, (by decide +kernel)⟩, ⟨s0,
  (by decide +kernel)⟩⟩

theorem witness_LatentSetIsStagedFixedAndRetired_4 :
    (∃ (s : State), s.chip.power.vin = true ∧ s.chip.flag F.CLS_CMD_STATUS.RUNNING = false ∧ s.chip.rules.fixAt ≠ none)
    ∧ (∃ (s : State) (t : Nat), s.chip.power.vin = true ∧ s.chip.rules.fixAt = some t ∧ s.chip.due t = true
    ∧ s.chip.versionFree = true ∧ s.chip.tBusy = false ∧ s.chip.time.late.contains PendAct.fix = false
    ∧ s.chip.rules.fixLate = false) ∧ (∃ (s : State) (t : Nat), s.chip.power.vin = true ∧ s.chip.rules.fixAt = some t
    ∧ s.chip.versionFree = false ∧ s.chip.due ((t + s.chip.getF F.CLS_FIX_HOLD.V * 1000 * 2 ^ 16) % 2 ^ 64) = true)
    ∧ (∃ (s : State), s.chip.power.vin = true ∧ s.chip.oldV = s.chip.curV) :=
  ⟨⟨s92, (by decide +kernel)⟩, ⟨s92, (s92.chip.rules.fixAt).get (by decide +kernel), (by decide +kernel),
  (Option.some_get (by decide +kernel)).symm, (by decide +kernel)⟩, ⟨s389, (s389.chip.rules.fixAt).get (by decide +kernel),
  (by decide +kernel), (Option.some_get (by decide +kernel)).symm, (by decide +kernel)⟩, ⟨s0, (by decide +kernel)⟩⟩

theorem witness_LatentSetIsStagedFixedAndRetired_5 :
    ∃ (s : State), s.chip.power.vin = true ∧ s.chip.oldV ≠ s.chip.curV ∧ s.chip.inFlight s.chip.oldV = 0
    ∧ s.chip.peerHolds s.chip.oldV = false ∧ s.chip.tern.wait.contains 2 = false
    ∧ ((s.chip.putF F.CLS_VERSION.OLDEST ((s.chip.oldV + 1) % 2 ^ 16)).raise F.CLS_EVENTS.RETIRED).tBusy = false :=
  ⟨s93, (by decide +kernel)⟩

theorem witness_TernaryCommandsStageSearchAndRebalance :
    (∃ (s : State) (q : Fin 16), s.chip.power.vin = true ∧ s.chip.flag F.CLS_TCMD_STATUS.RUNNING = false
    ∧ (s.chip.tPresent q = false ∨ s.chip.tRegion q = none)) ∧ (∃ (s : State) (q : Fin 16), s.chip.power.vin = true
    ∧ s.chip.flag F.CLS_TCMD_STATUS.RUNNING = false
    ∧ ((s.chip.tStage 1 q (s.chip.getBytes (F.CLS_TSTAGE_DATA.V.base + 8) 104) (s.chip.tLocked q)).1) ≠ stDenied)
    ∧ (∃ (s : State) (q : Fin 16), s.chip.power.vin = true ∧ s.chip.flag F.CLS_TCMD_STATUS.RUNNING = false
    ∧ ((s.chip.tStage 2 q (s.chip.getBytes (F.CLS_TSTAGE_DATA.V.base + 8) 104) (s.chip.tLocked q)).1) ≠ stDenied)
    ∧ (∃ (s : State) (q : Fin 16), s.chip.power.vin = true ∧ s.chip.flag F.CLS_TCMD_STATUS.RUNNING = false
    ∧ ((s.chip.tStage 3 q (s.chip.getBytes (F.CLS_TSTAGE_DATA.V.base + 8) 104) (s.chip.tLocked q)).1) ≠ stDenied) :=
  ⟨⟨s0, 0, (by decide +kernel)⟩, ⟨s0, 0, (by decide +kernel)⟩, ⟨s0, 0, (by decide +kernel)⟩, ⟨s0, 0, (by decide +kernel)⟩⟩

theorem witness_TernaryCommandsStageSearchAndRebalance_2 :
    (∃ (c : Chip) (q : Nat) (b : Bytes) (pl : Nat × List (Nat × Nat)), c.tPresent q = true ∧ c.tRegion q ≠ none
    ∧ c.tBad q b false = false ∧ (c.tEntries q).filter (fun e => tIdent e.2.body == tIdent b) = []
    ∧ c.actOk 4 (tAct b) = true ∧ c.tPlace q (tPrio b) none = .ok pl ∧ c.latentFull 1 = false) ∧ (∃ (c : Chip) (q : Nat),
    c.tEntries q = [] ∧ 2 ≤ c.tSize q) ∧ (∃ (s : State) (q : Fin 16) (n : Nat) (e : REntry), s.chip.power.vin = true
    ∧ s.chip.flag F.CLS_TCMD_STATUS.RUNNING = false ∧ s.chip.tPresent q = true ∧ s.chip.tRegion q ≠ none
    ∧ s.chip.tsearch q (tValue (s.chip.getBytes (F.CLS_TSTAGE_DATA.V.base + 8) 104)) (s.chip.getF F.CLS_TCMD_VERSION.V) = some (n,
    e) ∧ s.chip.liveV (s.chip.getF F.CLS_TCMD_VERSION.V) = true) ∧ (∃ (s : State) (q : Fin 16), s.chip.power.vin = true
    ∧ s.chip.flag F.CLS_TCMD_STATUS.RUNNING = false ∧ s.chip.tPresent q = true ∧ s.chip.tRegion q ≠ none
    ∧ s.chip.tLocked q = false ∧ s.chip.tEntries q = []) :=
  ⟨⟨s96.chip, 0, zerosB 4 ++ [0x3F, 0xFF, 0xFF] ++ zerosB 97, (2047, []), (by decide +kernel)⟩, ⟨s96.chip, 0,
  (by decide +kernel)⟩, ⟨s391, 0,
  ((s391.chip.tsearch 0 (tValue (s391.chip.getBytes (F.CLS_TSTAGE_DATA.V.base + 8) 104)) (s391.chip.getF F.CLS_TCMD_VERSION.V)).get (by decide +kernel)).1,
  ((s391.chip.tsearch 0 (tValue (s391.chip.getBytes (F.CLS_TSTAGE_DATA.V.base + 8) 104)) (s391.chip.getF F.CLS_TCMD_VERSION.V)).get (by decide +kernel)).2,
  (by decide +kernel), (by decide +kernel), (by decide +kernel), (by decide +kernel),
  (Option.some_get (by decide +kernel)).symm, (by decide +kernel)⟩, ⟨s96, 0, (by decide +kernel)⟩⟩

theorem witness_TernaryCommandsStageSearchAndRebalance_3 :
    (∃ (s : State), s.chip.power.vin = true ∧ s.chip.tBusy = false) ∧ (∃ (s : State), s.chip.power.vin = true
    ∧ s.chip.tBusy = true) ∧ (∃ (s : State) (q : Fin 16) (n : Fin 262144), s.chip.power.vin = true
    ∧ smFind s.chip.tern.entries (tKey q n) = none) ∧ (∃ (s : State) (q : Fin 16) (n : Fin 262144) (e : REntry),
    s.chip.power.vin = true ∧ smFind s.chip.tern.entries (tKey q n) = some e) :=
  ⟨⟨s0, (by decide +kernel)⟩, ⟨s91, (by decide +kernel)⟩, ⟨s0, 0, 0, (by decide +kernel)⟩, ⟨s97, 0, 0,
  (smFind s97.chip.tern.entries (tKey 0 0)).get (by decide +kernel), (by decide +kernel),
  (Option.some_get (by decide +kernel)).symm⟩⟩

theorem witness_TernaryCommandsStageSearchAndRebalance_4 :
    (∃ (s : State) (b : Fin 64), s.chip.power.vin = true ∧ b.val < 32) ∧ (∃ (s : State) (b : Fin 64),
    s.chip.power.vin = true ∧ 32 ≤ b.val) :=
  ⟨⟨s0, 0, (by decide +kernel)⟩, ⟨s0, 32, (by decide +kernel)⟩⟩

theorem witness_PatternScansReportOrOverload :
    (∃ (s : State) (pid : Nat) (p : Pkt), s.chip.power.vin = true ∧ s.chip.pkt pid = some p ∧ p.inspect ≠ 1)
    ∧ (∃ (s : State) (pid : Nat) (p : Pkt), s.chip.power.vin = true ∧ s.chip.pkt pid = some p ∧ p.inspect = 1 ∧ p.tail = 1
    ∧ s.chip.pattern.engines.any (fun e => e.2 == pid) = false ∧ s.chip.flag F.CLS_PAT_CTRL.ENABLE = false)
    ∧ (∃ (s : State) (pid : Nat) (e : Nat) (p : Pkt), s.chip.power.vin = true ∧ s.chip.pkt pid = some p ∧ p.inspect = 1
    ∧ p.tail = 1 ∧ s.chip.pattern.engines.any (fun e₀ => e₀.2 == pid) = false ∧ s.chip.flag F.CLS_PAT_CTRL.ENABLE = true
    ∧ s.chip.tripped = false ∧ s.chip.idleScan = some e ∧ s.chip.pattern.queue = [])
    ∧ (∃ (s : State) (e : Fin 32) (pid : Nat) (o : Nat) (p : Pkt), s.chip.power.vin = true
    ∧ smFind s.chip.pattern.engines e = some pid ∧ s.chip.pkt pid = some p
    ∧ ({ s.chip with pattern := { s.chip.pattern with engines := smErase s.chip.pattern.engines e } } : Chip).scanFrom p p.grp = some o) :=
  ⟨⟨s59, 0, (s59.chip.pkt 0).get (by decide +kernel), (by decide +kernel), (Option.some_get (by decide +kernel)).symm,
  (by decide +kernel)⟩, ⟨s98, 0, (s98.chip.pkt 0).get (by decide +kernel), (by decide +kernel),
  (Option.some_get (by decide +kernel)).symm, (by decide +kernel)⟩, ⟨s99, 0, (s99.chip.idleScan).get (by decide +kernel),
  (s99.chip.pkt 0).get (by decide +kernel), (by decide +kernel), (Option.some_get (by decide +kernel)).symm,
  (by decide +kernel), (by decide +kernel), (by decide +kernel), (by decide +kernel), (by decide +kernel),
  (Option.some_get (by decide +kernel)).symm, (by decide +kernel)⟩, ⟨s100, 0,
  (smFind s100.chip.pattern.engines 0).get (by decide +kernel),
  (({ s100.chip with pattern := { s100.chip.pattern with engines := smErase s100.chip.pattern.engines 0 } } : Chip).scanFrom ((s100.chip.pkt ((smFind s100.chip.pattern.engines 0).get (by decide +kernel))).get (by decide +kernel)) ((s100.chip.pkt ((smFind s100.chip.pattern.engines 0).get (by decide +kernel))).get (by decide +kernel)).grp).get (by decide +kernel),
  (s100.chip.pkt ((smFind s100.chip.pattern.engines 0).get (by decide +kernel))).get (by decide +kernel),
  (by decide +kernel), (Option.some_get (by decide +kernel)).symm, (Option.some_get (by decide +kernel)).symm,
  (Option.some_get (by decide +kernel)).symm⟩⟩

theorem witness_PatternScansReportOrOverload_2 :
    (∃ (s : State) (pid : Nat), s.chip.power.vin = true ∧ s.chip.pattern.queue.any (fun x => x.1 == pid) = false)
    ∧ (∃ (s : State) (pid : Nat), s.chip.power.vin = true ∧ s.chip.pattern.queue.any (fun x => x.1 == pid) = true)
    ∧ (∃ (s : State) (e : Fin 32), s.chip.power.vin = true ∧ smFind s.chip.pattern.engines e = none
    ∧ s.chip.pattern.gated.contains e.val = false) :=
  ⟨⟨s0, 0, (by decide +kernel)⟩, ⟨s101, 0, (by decide +kernel)⟩, ⟨s0, 0, (by decide +kernel)⟩⟩

theorem witness_FlowOpsAreReleasedServedAndReplayed :
    (∃ (s : State) (pid : Nat) (p : Pkt), s.chip.power.vin = true ∧ s.chip.pkt pid = some p ∧ p.stage = .flowWait
    ∧ p.opSent = false ∧ p.flowKey ≠ none ∧ s.chip.opBlocked pid p = false) ∧ (∃ (s : State) (pid : Nat) (p : Pkt),
    s.chip.power.vin = true ∧ s.chip.pkt pid = some p ∧ (p.opSent = true ∨ s.chip.opBlocked pid p = true))
    ∧ (∃ (c : Chip) (o : FOp), c.ownerOf o.h1 = none) ∧ (∃ (c : Chip) (o : FOp), c.ownerOf o.h1 = some c.ownDevice
    ∧ 512 ≤ (c.eng (hEngine o.h1)).input.length) :=
  ⟨⟨s102, 0, (s102.chip.pkt 0).get (by decide +kernel), (by decide +kernel), (Option.some_get (by decide +kernel)).symm,
  (by decide +kernel)⟩, ⟨s61, 2, (s61.chip.pkt 2).get (by decide +kernel), (by decide +kernel),
  (Option.some_get (by decide +kernel)).symm, (by decide +kernel)⟩, ⟨s104.chip, tOp 0, (by decide +kernel)⟩, ⟨s105.chip,
  tOp 0, (by decide +kernel)⟩⟩

theorem witness_FlowOpsAreReleasedServedAndReplayed_2 :
    (∃ (c : Chip) (o : FOp), c.ownerOf o.h1 = some c.ownDevice ∧ (c.eng (hEngine o.h1)).input.length < 512
    ∧ c.engineHeld (hEngine o.h1) = false) ∧ (∃ (s : State) (e : Fin 128) (o : FOp) (r : List FOp), s.chip.power.vin = true
    ∧ s.chip.bankGated e = false ∧ s.chip.engineStalled e = false ∧ (s.chip.eng e).input = o :: r ∧ o.kind = 0
    ∧ s.chip.ownerOf o.h1 = some s.chip.ownDevice) ∧ (∃ (s : State) (e : Fin 128), s.chip.power.vin = true
    ∧ (s.chip.bankGated e = true ∨ s.chip.engineStalled e = true)) ∧ (∃ (s : State) (p : Fin 512) (fr : Bytes) (c : Chip),
    s.chip.power.vin = true ∧ s.chip.gangTake p 2 false fr = (true, c) ∧ c.notOwned (c.ropOp fr).h1 = false
    ∧ (c.eng (hEngine (c.ropOp fr).h1)).input.length < 512 ∧ c.engineHeld (hEngine (c.ropOp fr).h1) = false) :=
  ⟨⟨s0.chip, tOp 0, (by decide +kernel)⟩, ⟨s105, 0, ((s105.chip.eng 0).input).head (by decide +kernel),
  ((s105.chip.eng 0).input).tail, (by decide +kernel), (by decide +kernel), (by decide +kernel),
  (List.cons_head_tail (by decide +kernel)).symm, (by decide +kernel)⟩, ⟨s107, 0, (by decide +kernel)⟩, ⟨s109, 0,
  tFrame 2 (zerosB 96), (s109.chip.gangTake 0 2 false (tFrame 2 (zerosB 96))).2, (by decide +kernel),
  (Prod.ext (by decide +kernel) rfl), (by decide +kernel)⟩⟩

theorem witness_FlowOpsAreReleasedServedAndReplayed_3 :
    (∃ (c : Chip) (c1 : Chip) (e : Nat) (o : FOp), c.tryOp e o = (c1, true)) ∧ (∃ (c : Chip) (e : Nat) (i : Nat) (o : FOp),
    o.kind = 0 ∧ c.keyBlocked e o.key o.h1 = false ∧ c.wayOf e o.key o.h1 = some i) ∧ (∃ (c : Chip) (e : Nat) (o : FOp),
    o.kind = 0 ∧ c.keyBlocked e o.key o.h1 = false ∧ c.wayOf e o.key o.h1 = none) ∧ (∃ (s : State) (e : Fin 128),
    s.chip.power.vin = true ∧ (s.chip.eng e).station.find? (fun o => s.chip.opReady e o) = none) :=
  ⟨⟨s0.chip, (s0.chip.tryOp 0 (tOp 2)).1, 0, tOp 2, (Prod.ext rfl (by decide +kernel))⟩, ⟨s113.chip, 0,
  (s113.chip.wayOf 0 (tOp 0).key (tOp 0).h1).get (by decide +kernel), tOp 0, (by decide +kernel), (by decide +kernel),
  (Option.some_get (by decide +kernel)).symm⟩, ⟨s0.chip, 0, tOp 0, (by decide +kernel)⟩, ⟨s0, 0, (by decide +kernel)⟩⟩

theorem witness_FlowOpsAreReleasedServedAndReplayed_4 :
    (∃ (s : State) (e : Fin 128) (o : FOp) (c : Chip), s.chip.power.vin = true
    ∧ (s.chip.eng e).station.find? (fun o₀ => s.chip.opReady e o₀) = some o ∧ s.chip.tryOp e o = (c, true))
    ∧ (∃ (s : State) (e : Fin 128) (n : Nat) (o : FOp), s.chip.power.vin = true ∧ (s.chip.eng e).station[n]? = some o
    ∧ o.isPkt = true ∧ (s.chip.eng e).setting o.key = none ∧ (s.chip.eng e).looking o.key = none) :=
  ⟨⟨s114, 0, ((s114.chip.eng 0).station.find? (fun o₀ => s114.chip.opReady 0 o₀)).get (by decide +kernel),
  (s114.chip.tryOp 0 (((s114.chip.eng 0).station.find? (fun o₀ => s114.chip.opReady 0 o₀)).get (by decide +kernel))).1,
  (by decide +kernel), (Option.some_get (by decide +kernel)).symm, (Prod.ext rfl (by decide +kernel))⟩, ⟨s115, 0, 0,
  ((s115.chip.eng 0).station[0]?).get (by decide +kernel), (by decide +kernel), (Option.some_get (by decide +kernel)).symm,
  (by decide +kernel)⟩⟩

theorem witness_FlowMissesAndSetupsResolve :
    (∃ (s : State) (e : Fin 128), s.chip.power.vin = true ∧ 512 ≤ (s.chip.eng e).missUsed)
    ∧ (∃ (s : State) (e : Fin 128) (l : FLookup), s.chip.power.vin = true ∧ (s.chip.eng e).missUsed < 512
    ∧ (s.chip.eng e).lookups.find? (fun l₀ => l₀.st = 0) = some l) ∧ (∃ (s : State) (e : Fin 128) (n : Nat) (l : FLookup),
    s.chip.power.vin = true ∧ (s.chip.eng e).lookups[n]? = some l ∧ l.st = 1 ∧ s.chip.tagHit e l.h1 l.h2 = none)
    ∧ (∃ (s : State) (e : Fin 128) (n : Nat) (l : FLookup) (b : _) (j : _), s.chip.power.vin = true
    ∧ (s.chip.eng e).lookups[n]? = some l ∧ l.st = 1 ∧ s.chip.tagHit e l.h1 l.h2 = some (b, j)) :=
  ⟨⟨s117, 0, (by decide +kernel)⟩, ⟨s116, 0,
  ((s116.chip.eng 0).lookups.find? (fun l₀ => l₀.st = 0)).get (by decide +kernel), (by decide +kernel), (by decide +kernel),
  (Option.some_get (by decide +kernel)).symm⟩, ⟨s117, 0, 0, ((s117.chip.eng 0).lookups[0]?).get (by decide +kernel),
  (by decide +kernel), (Option.some_get (by decide +kernel)).symm, (by decide +kernel)⟩, ⟨s122, 0, 0,
  ((s122.chip.eng 0).lookups[0]?).get (by decide +kernel), 0, 0, (by decide +kernel),
  (Option.some_get (by decide +kernel)).symm, (by decide +kernel)⟩⟩

theorem witness_FlowMissesAndSetupsResolve_2 :
    (∃ (s : State) (e : Fin 128) (n : Nat) (l : FLookup), s.chip.power.vin = true ∧ (s.chip.eng e).lookups[n]? = some l
    ∧ l.st = 2 ∧ tagMatches (s.chip.tag e l.bucket l.slot) l.h1 l.h2 = true
    ∧ rKey (s.chip.slotRec e l.bucket l.slot) = l.key) ∧ (∃ (s : State) (e : Fin 128) (n : Nat) (l : FLookup),
    s.chip.power.vin = true ∧ (s.chip.eng e).lookups[n]? = some l ∧ l.st = 2
    ∧ tagMatches (s.chip.tag e l.bucket l.slot) l.h1 l.h2 = false) ∧ (∃ (c : Chip) (e : Nat) (i : Nat) (l : FLookup),
    c.cacheWay e (hSet l.h1) = some i) ∧ (∃ (c : Chip) (e : Nat) (l : FLookup), c.cacheWay e (hSet l.h1) = none) :=
  ⟨⟨s123, 0, 0, ((s123.chip.eng 0).lookups[0]?).get (by decide +kernel), (by decide +kernel),
  (Option.some_get (by decide +kernel)).symm, (by decide +kernel)⟩, ⟨s119, 0, 0,
  ((s119.chip.eng 0).lookups[0]?).get (by decide +kernel), (by decide +kernel), (Option.some_get (by decide +kernel)).symm,
  (by decide +kernel)⟩, ⟨s0.chip, 0, (s0.chip.cacheWay 0 (hSet (⟨zerosB 40, 0, 0, 0, 0, 0,
  true⟩ : FLookup).h1)).get (by decide +kernel), ⟨zerosB 40, 0, 0, 0, 0, 0, true⟩,
  (Option.some_get (by decide +kernel)).symm⟩, ⟨s125.chip, 0, ⟨zerosB 40, 0, 0, 0, 0, 0, true⟩, (by decide +kernel)⟩⟩

theorem witness_FlowMissesAndSetupsResolve_3 :
    (∃ (s : State) (e : Fin 128) (l : FLookup), s.chip.power.vin = true
    ∧ (s.chip.eng e).lookups.find? (fun l₀ => 3 ≤ l₀.st && s.chip.canPlace e l₀) = some l ∧ l.st = 3)
    ∧ (∃ (s : State) (e : Fin 128) (l : FLookup), s.chip.power.vin = true
    ∧ (s.chip.eng e).lookups.find? (fun l₀ => 3 ≤ l₀.st && s.chip.canPlace e l₀) = some l ∧ l.st ≠ 3)
    ∧ (∃ (c : Chip) (o : FOp), o.kind = 0 ∧ (tpMode (c.tpl o.tmpl) = 0 ∨ insertOn (c.tpl o.tmpl) o = false))
    ∧ (∃ (s : State), s.chip.power.vin = true ∧ s.chip.wds.setupEnds = []) :=
  ⟨⟨s120, 0,
  ((s120.chip.eng 0).lookups.find? (fun l₀ => 3 ≤ l₀.st && s120.chip.canPlace 0 l₀)).get (by decide +kernel),
  (by decide +kernel), (Option.some_get (by decide +kernel)).symm, (by decide +kernel)⟩, ⟨s121, 0,
  ((s121.chip.eng 0).lookups.find? (fun l₀ => 3 ≤ l₀.st && s121.chip.canPlace 0 l₀)).get (by decide +kernel),
  (by decide +kernel), (Option.some_get (by decide +kernel)).symm, (by decide +kernel)⟩, ⟨s0.chip, tOp 0,
  (by decide +kernel)⟩, ⟨s0, (by decide +kernel)⟩⟩

theorem witness_FlowMissesAndSetupsResolve_4 :
    (∃ (s : State) (x : Nat × Nat × Nat) (r : List (Nat × Nat × Nat)), s.chip.power.vin = true
    ∧ s.chip.wds.setupEnds = x :: r) ∧ (∃ (c : Chip) (e : Nat) (tag : Nat) (x : FSetup),
    (c.eng e).setups.find? (fun x₀ => x₀.tag = tag && x₀.st != 0) = some x ∧ x.st = 1) :=
  ⟨⟨s126, (s126.chip.wds.setupEnds).head (by decide +kernel), (s126.chip.wds.setupEnds).tail, (by decide +kernel),
  (List.cons_head_tail (by decide +kernel)).symm⟩, ⟨s127.chip, 0, 0,
  ((s127.chip.eng 0).setups.find? (fun x₀ => x₀.tag = 0 && x₀.st != 0)).get (by decide +kernel),
  (Option.some_get (by decide +kernel)).symm, (by decide +kernel)⟩⟩

theorem witness_FlowEngineServesContextsWindowsAndSweeps :
    (∃ (s : State) (e : Fin 128) (o : FOp), s.chip.power.vin = true ∧ s.chip.bankGated e = false
    ∧ s.chip.act.reqs.find? (fun (o₀ : FOp) => o₀.kind == 2 && hEngine o₀.h1 == e.val) = some o
    ∧ s.chip.engineStalled e = false) ∧ (∃ (s : State) (e : Fin 128) (o : FOp), s.chip.power.vin = true
    ∧ s.chip.bankGated e = false ∧ s.chip.act.reqs.find? (fun (o₀ : FOp) => o₀.kind == 3 && hEngine o₀.h1 == e.val) = some o
    ∧ s.chip.engineStalled e = false) ∧ (∃ (s : State) (e : Fin 128) (o : FOp), s.chip.power.vin = true
    ∧ s.chip.bankGated e = false ∧ s.chip.act.reqs.find? (fun (o₀ : FOp) => o₀.kind == 5 && hEngine o₀.h1 == e.val) = some o
    ∧ s.chip.engineHeld e = false) ∧ (∃ (s : State) (e : Fin 128) (o : FOp), s.chip.power.vin = true
    ∧ s.chip.bankGated e = false ∧ s.chip.act.reqs.find? (fun (o₀ : FOp) => o₀.kind == 6 && hEngine o₀.h1 == e.val) = some o
    ∧ s.chip.engineHeld e = false) :=
  ⟨⟨s130, 0,
  (s130.chip.act.reqs.find? (fun (o₀ : FOp) => o₀.kind == 2 && hEngine o₀.h1 == (0 : Fin 128).val)).get (by decide +kernel),
  (by decide +kernel), (by decide +kernel), (Option.some_get (by decide +kernel)).symm, (by decide +kernel)⟩, ⟨s131, 0,
  (s131.chip.act.reqs.find? (fun (o₀ : FOp) => o₀.kind == 3 && hEngine o₀.h1 == (0 : Fin 128).val)).get (by decide +kernel),
  (by decide +kernel), (by decide +kernel), (Option.some_get (by decide +kernel)).symm, (by decide +kernel)⟩, ⟨s132, 0,
  (s132.chip.act.reqs.find? (fun (o₀ : FOp) => o₀.kind == 5 && hEngine o₀.h1 == (0 : Fin 128).val)).get (by decide +kernel),
  (by decide +kernel), (by decide +kernel), (Option.some_get (by decide +kernel)).symm, (by decide +kernel)⟩, ⟨s133, 0,
  (s133.chip.act.reqs.find? (fun (o₀ : FOp) => o₀.kind == 6 && hEngine o₀.h1 == (0 : Fin 128).val)).get (by decide +kernel),
  (by decide +kernel), (by decide +kernel), (Option.some_get (by decide +kernel)).symm, (by decide +kernel)⟩⟩

theorem witness_FlowEngineServesContextsWindowsAndSweeps_2 :
    (∃ (s : State) (e : Fin 128) (o : FOp), s.chip.power.vin = true ∧ s.chip.bankGated e = false
    ∧ s.chip.act.reqs.find? (fun (o₀ : FOp) => o₀.kind == 7 && hEngine o₀.h1 == e.val) = some o
    ∧ s.chip.engineHeld e = false) ∧ (∃ (s : State) (e : Fin 128) (m : Bool × Nat × Nat × Nat) (p : FPrep),
    s.chip.power.vin = true
    ∧ (({ s.chip with act := { s.chip.act with msgs := s.chip.act.msgs.erase m } } : Chip).eng e).prepOf m.2.2.1 m.2.2.2 = some p
    ∧ s.chip.act.msgs.find? (fun (m₀ : Bool × Nat × Nat × Nat) => m₀.1 == true && m₀.2.1 == e.val) = some m)
    ∧ (∃ (s : State) (e : Fin 128) (m : Bool × Nat × Nat × Nat) (p : FPrep), s.chip.power.vin = true
    ∧ (({ s.chip with act := { s.chip.act with msgs := s.chip.act.msgs.erase m } } : Chip).eng e).prepOf m.2.2.1 m.2.2.2 = some p
    ∧ s.chip.act.msgs.find? (fun (m₀ : Bool × Nat × Nat × Nat) => m₀.1 == false && m₀.2.1 == e.val) = some m)
    ∧ (∃ (o : FOp), o.kind = 2) :=
  ⟨⟨s134, 0,
  (s134.chip.act.reqs.find? (fun (o₀ : FOp) => o₀.kind == 7 && hEngine o₀.h1 == (0 : Fin 128).val)).get (by decide +kernel),
  (by decide +kernel), (by decide +kernel), (Option.some_get (by decide +kernel)).symm, (by decide +kernel)⟩, ⟨s135, 0,
  (s135.chip.act.msgs.find? (fun (m₀ : Bool × Nat × Nat × Nat) => m₀.1 == true && m₀.2.1 == (0 : Fin 128).val)).get (by decide +kernel),
  ((({ s135.chip with act := { s135.chip.act with msgs := s135.chip.act.msgs.erase ((s135.chip.act.msgs.find? (fun (m₀ : Bool × Nat × Nat × Nat) => m₀.1 == true && m₀.2.1 == (0 : Fin 128).val)).get (by decide +kernel)) } } : Chip).eng 0).prepOf ((s135.chip.act.msgs.find? (fun (m₀ : Bool × Nat × Nat × Nat) => m₀.1 == true && m₀.2.1 == (0 : Fin 128).val)).get (by decide +kernel)).2.2.1 ((s135.chip.act.msgs.find? (fun (m₀ : Bool × Nat × Nat × Nat) => m₀.1 == true && m₀.2.1 == (0 : Fin 128).val)).get (by decide +kernel)).2.2.2).get (by decide +kernel),
  (by decide +kernel), (Option.some_get (by decide +kernel)).symm, (Option.some_get (by decide +kernel)).symm⟩, ⟨s136, 0,
  (s136.chip.act.msgs.find? (fun (m₀ : Bool × Nat × Nat × Nat) => m₀.1 == false && m₀.2.1 == (0 : Fin 128).val)).get (by decide +kernel),
  ((({ s136.chip with act := { s136.chip.act with msgs := s136.chip.act.msgs.erase ((s136.chip.act.msgs.find? (fun (m₀ : Bool × Nat × Nat × Nat) => m₀.1 == false && m₀.2.1 == (0 : Fin 128).val)).get (by decide +kernel)) } } : Chip).eng 0).prepOf ((s136.chip.act.msgs.find? (fun (m₀ : Bool × Nat × Nat × Nat) => m₀.1 == false && m₀.2.1 == (0 : Fin 128).val)).get (by decide +kernel)).2.2.1 ((s136.chip.act.msgs.find? (fun (m₀ : Bool × Nat × Nat × Nat) => m₀.1 == false && m₀.2.1 == (0 : Fin 128).val)).get (by decide +kernel)).2.2.2).get (by decide +kernel),
  (by decide +kernel), (Option.some_get (by decide +kernel)).symm, (Option.some_get (by decide +kernel)).symm⟩, ⟨tOp 2,
  (by decide +kernel)⟩⟩

theorem witness_FlowEngineServesContextsWindowsAndSweeps_3 :
    (∃ (o : FOp), o.kind = 5) ∧ (∃ (o : FOp), o.kind = 7) ∧ (∃ (c : Chip) (e : Nat) (i : Nat) (o : FOp), o.kind = 3
    ∧ o.mode = 1 ∧ sliceB o.data 0 40 ≠ rKey (c.way e i).record) ∧ (∃ (c : Chip) (e : Nat) (o : FOp), o.kind = 6
    ∧ c.tableLookup e o.key o.h1 o.h2 = .absent) :=
  ⟨⟨tOp 5, (by decide +kernel)⟩, ⟨tOp 7, (by decide +kernel)⟩, ⟨s0.chip, 0, 0,
  { tOp 3 1 with data := List.replicate 128 1 }, (by decide +kernel)⟩, ⟨s0.chip, 0, tOp 6, (by decide +kernel)⟩⟩

theorem witness_FlowEngineServesContextsWindowsAndSweeps_4 :
    (∃ (s : State) (e : Fin 128), s.chip.power.vin = true ∧ s.chip.flowPresent = true ∧ s.chip.bankGated e = false
    ∧ s.chip.engineHeld e = false) ∧ (∃ (s : State), s.chip.power.vin = true ∧ s.chip.flowPresent = false)
    ∧ (∃ (c : Chip) (e : Nat) (b : Nat) (j : Nat) (o : FOp), o.mode ≠ 3 ∧ c.wayOf e o.key o.h1 = none
    ∧ c.tableLookup e o.key o.h1 o.h2 = .found b j) ∧ (∃ (s : State) (e : Fin 128), s.chip.power.vin = true
    ∧ s.chip.flag F.FLE_HC_CTRL.CANON e = false) :=
  ⟨⟨s122, 0, (by decide +kernel)⟩, ⟨s0, (by decide +kernel)⟩, ⟨s122.chip, 0, 0, 0, tOp 0, (by decide +kernel)⟩, ⟨s0, 0,
  (by decide +kernel)⟩⟩

theorem witness_AluOpsComputeTheirResults :
    (∃ (s : State) (x : Fin 1024) (b : Bool) (ws : WordSt), s.chip.power.vin = true ∧ (s.chip.ctx x).st = 1
    ∧ (s.chip.ctx x).word = some ws ∧ unitOp (s.chip.mwAt (x / 64) (s.chip.ctx x).pc) (b2n b) = 1
    ∧ ws.done.contains (b2n b) = false) ∧ (∃ (s : State) (x : Fin 1024) (b : Bool) (ws : WordSt), s.chip.power.vin = true
    ∧ (s.chip.ctx x).st = 1 ∧ (s.chip.ctx x).word = some ws ∧ unitOp (s.chip.mwAt (x / 64) (s.chip.ctx x).pc) (b2n b) = 2
    ∧ ws.done.contains (b2n b) = false) ∧ (∃ (s : State) (x : Fin 1024) (b : Bool) (ws : WordSt), s.chip.power.vin = true
    ∧ (s.chip.ctx x).st = 1 ∧ (s.chip.ctx x).word = some ws ∧ unitOp (s.chip.mwAt (x / 64) (s.chip.ctx x).pc) (b2n b) = 3
    ∧ ws.done.contains (b2n b) = false) ∧ (∃ (s : State) (x : Fin 1024) (b : Bool) (ws : WordSt), s.chip.power.vin = true
    ∧ (s.chip.ctx x).st = 1 ∧ (s.chip.ctx x).word = some ws ∧ unitOp (s.chip.mwAt (x / 64) (s.chip.ctx x).pc) (b2n b) = 4
    ∧ ws.done.contains (b2n b) = false) :=
  ⟨⟨s139, 0, false, ((s139.chip.ctx 0).word).get (by decide +kernel), (by decide +kernel), (by decide +kernel),
  (Option.some_get (by decide +kernel)).symm, (by decide +kernel)⟩, ⟨s141, 0, false,
  ((s141.chip.ctx 0).word).get (by decide +kernel), (by decide +kernel), (by decide +kernel),
  (Option.some_get (by decide +kernel)).symm, (by decide +kernel)⟩, ⟨s143, 0, false,
  ((s143.chip.ctx 0).word).get (by decide +kernel), (by decide +kernel), (by decide +kernel),
  (Option.some_get (by decide +kernel)).symm, (by decide +kernel)⟩, ⟨s145, 0, false,
  ((s145.chip.ctx 0).word).get (by decide +kernel), (by decide +kernel), (by decide +kernel),
  (Option.some_get (by decide +kernel)).symm, (by decide +kernel)⟩⟩

theorem witness_AluOpsComputeTheirResults_2 :
    (∃ (s : State) (x : Fin 1024) (b : Bool) (ws : WordSt), s.chip.power.vin = true ∧ (s.chip.ctx x).st = 1
    ∧ (s.chip.ctx x).word = some ws ∧ unitOp (s.chip.mwAt (x / 64) (s.chip.ctx x).pc) (b2n b) = 5
    ∧ ws.done.contains (b2n b) = false) ∧ (∃ (s : State) (x : Fin 1024) (b : Bool) (ws : WordSt), s.chip.power.vin = true
    ∧ (s.chip.ctx x).st = 1 ∧ (s.chip.ctx x).word = some ws ∧ unitOp (s.chip.mwAt (x / 64) (s.chip.ctx x).pc) (b2n b) = 6
    ∧ ws.done.contains (b2n b) = false) ∧ (∃ (s : State) (x : Fin 1024) (b : Bool) (ws : WordSt), s.chip.power.vin = true
    ∧ (s.chip.ctx x).st = 1 ∧ (s.chip.ctx x).word = some ws ∧ unitOp (s.chip.mwAt (x / 64) (s.chip.ctx x).pc) (b2n b) = 7
    ∧ ws.done.contains (b2n b) = false) ∧ (∃ (s : State) (x : Fin 1024) (b : Bool) (ws : WordSt), s.chip.power.vin = true
    ∧ (s.chip.ctx x).st = 1 ∧ (s.chip.ctx x).word = some ws ∧ unitOp (s.chip.mwAt (x / 64) (s.chip.ctx x).pc) (b2n b) = 8
    ∧ ws.done.contains (b2n b) = false) :=
  ⟨⟨s147, 0, false, ((s147.chip.ctx 0).word).get (by decide +kernel), (by decide +kernel), (by decide +kernel),
  (Option.some_get (by decide +kernel)).symm, (by decide +kernel)⟩, ⟨s149, 0, false,
  ((s149.chip.ctx 0).word).get (by decide +kernel), (by decide +kernel), (by decide +kernel),
  (Option.some_get (by decide +kernel)).symm, (by decide +kernel)⟩, ⟨s151, 0, false,
  ((s151.chip.ctx 0).word).get (by decide +kernel), (by decide +kernel), (by decide +kernel),
  (Option.some_get (by decide +kernel)).symm, (by decide +kernel)⟩, ⟨s153, 0, false,
  ((s153.chip.ctx 0).word).get (by decide +kernel), (by decide +kernel), (by decide +kernel),
  (Option.some_get (by decide +kernel)).symm, (by decide +kernel)⟩⟩

theorem witness_AluOpsComputeTheirResults_3 :
    (∃ (s : State) (x : Fin 1024) (b : Bool) (ws : WordSt), s.chip.power.vin = true ∧ (s.chip.ctx x).st = 1
    ∧ (s.chip.ctx x).word = some ws ∧ unitOp (s.chip.mwAt (x / 64) (s.chip.ctx x).pc) (b2n b) = 9
    ∧ ws.done.contains (b2n b) = false) ∧ (∃ (s : State) (x : Fin 1024) (b : Bool) (ws : WordSt), s.chip.power.vin = true
    ∧ (s.chip.ctx x).st = 1 ∧ (s.chip.ctx x).word = some ws ∧ unitOp (s.chip.mwAt (x / 64) (s.chip.ctx x).pc) (b2n b) = 10
    ∧ ws.done.contains (b2n b) = false) ∧ (∃ (s : State) (x : Fin 1024) (b : Bool) (ws : WordSt), s.chip.power.vin = true
    ∧ (s.chip.ctx x).st = 1 ∧ (s.chip.ctx x).word = some ws ∧ unitOp (s.chip.mwAt (x / 64) (s.chip.ctx x).pc) (b2n b) = 11
    ∧ ws.done.contains (b2n b) = false) ∧ (∃ (s : State) (x : Fin 1024) (b : Bool) (ws : WordSt), s.chip.power.vin = true
    ∧ (s.chip.ctx x).st = 1 ∧ (s.chip.ctx x).word = some ws ∧ unitOp (s.chip.mwAt (x / 64) (s.chip.ctx x).pc) (b2n b) = 12
    ∧ ws.done.contains (b2n b) = false) :=
  ⟨⟨s155, 0, false, ((s155.chip.ctx 0).word).get (by decide +kernel), (by decide +kernel), (by decide +kernel),
  (Option.some_get (by decide +kernel)).symm, (by decide +kernel)⟩, ⟨s157, 0, false,
  ((s157.chip.ctx 0).word).get (by decide +kernel), (by decide +kernel), (by decide +kernel),
  (Option.some_get (by decide +kernel)).symm, (by decide +kernel)⟩, ⟨s159, 0, false,
  ((s159.chip.ctx 0).word).get (by decide +kernel), (by decide +kernel), (by decide +kernel),
  (Option.some_get (by decide +kernel)).symm, (by decide +kernel)⟩, ⟨s161, 0, false,
  ((s161.chip.ctx 0).word).get (by decide +kernel), (by decide +kernel), (by decide +kernel),
  (Option.some_get (by decide +kernel)).symm, (by decide +kernel)⟩⟩

theorem witness_AluOpsComputeTheirResults_4 :
    (∃ (s : State) (x : Fin 1024) (b : Bool) (ws : WordSt), s.chip.power.vin = true ∧ (s.chip.ctx x).st = 1
    ∧ (s.chip.ctx x).word = some ws ∧ unitOp (s.chip.mwAt (x / 64) (s.chip.ctx x).pc) (b2n b) = 13
    ∧ ws.done.contains (b2n b) = false ∧ (s.chip.ctx x).opB (s.chip.mwAt (x / 64) (s.chip.ctx x).pc) b ≠ 0)
    ∧ (∃ (s : State) (x : Fin 1024) (b : Bool) (ws : WordSt), s.chip.power.vin = true ∧ (s.chip.ctx x).st = 1
    ∧ (s.chip.ctx x).word = some ws ∧ unitOp (s.chip.mwAt (x / 64) (s.chip.ctx x).pc) (b2n b) = 13
    ∧ ws.done.contains (b2n b) = false ∧ (s.chip.ctx x).opB (s.chip.mwAt (x / 64) (s.chip.ctx x).pc) b = 0)
    ∧ (∃ (s : State) (x : Fin 1024) (b : Bool) (ws : WordSt), s.chip.power.vin = true ∧ (s.chip.ctx x).st = 1
    ∧ (s.chip.ctx x).word = some ws ∧ unitOp (s.chip.mwAt (x / 64) (s.chip.ctx x).pc) (b2n b) = 14
    ∧ ws.done.contains (b2n b) = false) ∧ (∃ (s : State) (x : Fin 1024) (b : Bool) (ws : WordSt), s.chip.power.vin = true
    ∧ (s.chip.ctx x).st = 1 ∧ (s.chip.ctx x).word = some ws ∧ unitOp (s.chip.mwAt (x / 64) (s.chip.ctx x).pc) (b2n b) = 15
    ∧ ws.done.contains (b2n b) = false) :=
  ⟨⟨s169, 0, false, ((s169.chip.ctx 0).word).get (by decide +kernel), (by decide +kernel), (by decide +kernel),
  (Option.some_get (by decide +kernel)).symm, (by decide +kernel)⟩, ⟨s163, 0, false,
  ((s163.chip.ctx 0).word).get (by decide +kernel), (by decide +kernel), (by decide +kernel),
  (Option.some_get (by decide +kernel)).symm, (by decide +kernel)⟩, ⟨s165, 0, false,
  ((s165.chip.ctx 0).word).get (by decide +kernel), (by decide +kernel), (by decide +kernel),
  (Option.some_get (by decide +kernel)).symm, (by decide +kernel)⟩, ⟨s167, 0, false,
  ((s167.chip.ctx 0).word).get (by decide +kernel), (by decide +kernel), (by decide +kernel),
  (Option.some_get (by decide +kernel)).symm, (by decide +kernel)⟩⟩

theorem witness_AluOpsComputeTheirResults_5 :
    ∃ (s : State) (x : Fin 1024), s.chip.power.vin = true ∧ (s.chip.ctx x).st ≠ 1 :=
  ⟨s0, 0, (by decide +kernel)⟩

theorem witness_MemOpsReachScratchDramAndTheWriteSet :
    (∃ (s : State) (x : Fin 1024) (ws : WordSt), s.chip.power.vin = true
    ∧ (s.chip.ctx x).touch [((((s.chip.ctx x).memRange (s.chip.mwAt (x / 64) (s.chip.ctx x).pc)).1),
    (((s.chip.ctx x).memRange (s.chip.mwAt (x / 64) (s.chip.ctx x).pc)).2))] = 0 ∧ (s.chip.ctx x).st = 1
    ∧ (s.chip.ctx x).word = some ws ∧ unitOp (s.chip.mwAt (x / 64) (s.chip.ctx x).pc) 2 = 1 ∧ ws.done.contains 2 = false
    ∧ (((s.chip.ctx x).memRange (s.chip.mwAt (x / 64) (s.chip.ctx x).pc)).1) + (((s.chip.ctx x).memRange (s.chip.mwAt (x / 64) (s.chip.ctx x).pc)).2) ≤ 4096)
    ∧ (∃ (s : State) (x : Fin 1024) (ws : WordSt), s.chip.power.vin = true
    ∧ (s.chip.ctx x).touch [((((s.chip.ctx x).memRange (s.chip.mwAt (x / 64) (s.chip.ctx x).pc)).1),
    (((s.chip.ctx x).memRange (s.chip.mwAt (x / 64) (s.chip.ctx x).pc)).2))] = 0 ∧ (s.chip.ctx x).st = 1
    ∧ (s.chip.ctx x).word = some ws ∧ unitOp (s.chip.mwAt (x / 64) (s.chip.ctx x).pc) 2 = 2 ∧ ws.done.contains 2 = false
    ∧ (((s.chip.ctx x).memRange (s.chip.mwAt (x / 64) (s.chip.ctx x).pc)).1) + (((s.chip.ctx x).memRange (s.chip.mwAt (x / 64) (s.chip.ctx x).pc)).2) ≤ 4096)
    ∧ (∃ (s : State) (x : Fin 1024) (ws : WordSt), s.chip.power.vin = true
    ∧ (s.chip.ctx x).touch [((((s.chip.ctx x).memRange (s.chip.mwAt (x / 64) (s.chip.ctx x).pc)).1),
    (((s.chip.ctx x).memRange (s.chip.mwAt (x / 64) (s.chip.ctx x).pc)).2))] = 0 ∧ (s.chip.ctx x).st = 1
    ∧ (s.chip.ctx x).word = some ws ∧ unitOp (s.chip.mwAt (x / 64) (s.chip.ctx x).pc) 2 = 1 ∧ ws.done.contains 2 = false
    ∧ 4096 < (((s.chip.ctx x).memRange (s.chip.mwAt (x / 64) (s.chip.ctx x).pc)).1) + (((s.chip.ctx x).memRange (s.chip.mwAt (x / 64) (s.chip.ctx x).pc)).2))
    ∧ (∃ (s : State) (x : Fin 1024) (ws : WordSt), s.chip.power.vin = true
    ∧ (s.chip.ctx x).touch [((((s.chip.ctx x).memRange (s.chip.mwAt (x / 64) (s.chip.ctx x).pc)).1),
    (((s.chip.ctx x).memRange (s.chip.mwAt (x / 64) (s.chip.ctx x).pc)).2))] = 0 ∧ (s.chip.ctx x).st = 1
    ∧ (s.chip.ctx x).word = some ws ∧ unitOp (s.chip.mwAt (x / 64) (s.chip.ctx x).pc) 2 = 2 ∧ ws.done.contains 2 = false
    ∧ 4096 < (((s.chip.ctx x).memRange (s.chip.mwAt (x / 64) (s.chip.ctx x).pc)).1) + (((s.chip.ctx x).memRange (s.chip.mwAt (x / 64) (s.chip.ctx x).pc)).2)) :=
  ⟨⟨s171, 0, ((s171.chip.ctx 0).word).get (by decide +kernel), (by decide +kernel), (by decide +kernel),
  (by decide +kernel), (Option.some_get (by decide +kernel)).symm, (by decide +kernel)⟩, ⟨s172, 0,
  ((s172.chip.ctx 0).word).get (by decide +kernel), (by decide +kernel), (by decide +kernel), (by decide +kernel),
  (Option.some_get (by decide +kernel)).symm, (by decide +kernel)⟩, ⟨s182, 0,
  ((s182.chip.ctx 0).word).get (by decide +kernel), (by decide +kernel), (by decide +kernel), (by decide +kernel),
  (Option.some_get (by decide +kernel)).symm, (by decide +kernel)⟩, ⟨s183, 0,
  ((s183.chip.ctx 0).word).get (by decide +kernel), (by decide +kernel), (by decide +kernel), (by decide +kernel),
  (Option.some_get (by decide +kernel)).symm, (by decide +kernel)⟩⟩

theorem witness_MemOpsReachScratchDramAndTheWriteSet_2 :
    (∃ (s : State) (x : Fin 1024) (ws : WordSt), s.chip.power.vin = true ∧ (s.chip.ctx x).st = 1
    ∧ (s.chip.ctx x).word = some ws ∧ unitOp (s.chip.mwAt (x / 64) (s.chip.ctx x).pc) 2 = 3 ∧ ws.done.contains 2 = false
    ∧ 1 ≤ (bitsOf 30 24 (((s.chip.ctx x).reg (mwRa (s.chip.mwAt (x / 64) (s.chip.ctx x).pc))).toNat))
    ∧ (bitsOf 30 24 (((s.chip.ctx x).reg (mwRa (s.chip.mwAt (x / 64) (s.chip.ctx x).pc))).toNat)) ≤ 64
    ∧ (((s.chip.ctx x).reg (mwRa (s.chip.mwAt (x / 64) (s.chip.ctx x).pc))).toNat) % 4096 + (bitsOf 30 24 (((s.chip.ctx x).reg (mwRa (s.chip.mwAt (x / 64) (s.chip.ctx x).pc))).toNat)) ≤ 4096
    ∧ bitsOf 23 12 (((s.chip.ctx x).reg (mwRa (s.chip.mwAt (x / 64) (s.chip.ctx x).pc))).toNat) + (bitsOf 30 24 (((s.chip.ctx x).reg (mwRa (s.chip.mwAt (x / 64) (s.chip.ctx x).pc))).toNat)) ≤ 4096
    ∧ (s.chip.ctx x).touch [((((s.chip.ctx x).reg (mwRa (s.chip.mwAt (x / 64) (s.chip.ctx x).pc))).toNat) % 4096,
    (bitsOf 30 24 (((s.chip.ctx x).reg (mwRa (s.chip.mwAt (x / 64) (s.chip.ctx x).pc))).toNat))),
    (bitsOf 23 12 (((s.chip.ctx x).reg (mwRa (s.chip.mwAt (x / 64) (s.chip.ctx x).pc))).toNat),
    (bitsOf 30 24 (((s.chip.ctx x).reg (mwRa (s.chip.mwAt (x / 64) (s.chip.ctx x).pc))).toNat)))] = 0)
    ∧ (∃ (s : State) (x : Fin 1024) (ws : WordSt), s.chip.power.vin = true ∧ (s.chip.ctx x).st = 1
    ∧ (s.chip.ctx x).word = some ws ∧ unitOp (s.chip.mwAt (x / 64) (s.chip.ctx x).pc) 2 = 4 ∧ ws.done.contains 2 = false
    ∧ mwRa (s.chip.mwAt (x / 64) (s.chip.ctx x).pc) < 32) ∧ (∃ (s : State) (x : Fin 1024) (ws : WordSt),
    s.chip.power.vin = true ∧ (s.chip.ctx x).st = 1 ∧ (s.chip.ctx x).word = some ws
    ∧ unitOp (s.chip.mwAt (x / 64) (s.chip.ctx x).pc) 2 = 5 ∧ ws.done.contains 2 = false ∧ (s.chip.ctx x).rd = none
    ∧ (s.chip.ctx x).touch [((s.chip.ctx x).memAddr (s.chip.mwAt (x / 64) (s.chip.ctx x).pc), 128)] = 0
    ∧ s.chip.ownerOf (coreOp 2 x 0 ((s.chip.ctx x).sread ((s.chip.ctx x).memAddr (s.chip.mwAt (x / 64) (s.chip.ctx x).pc)) 40) (((s.chip.ctx x).reg (mwRd (s.chip.mwAt (x / 64) (s.chip.ctx x).pc))).toNat % 2 ^ 32) (((s.chip.ctx x).reg (mwRd (s.chip.mwAt (x / 64) (s.chip.ctx x).pc))).toNat / 2 ^ 32) 0 0 [] s.chip.mt).h1 = some s.chip.ownDevice
    ∧ s.chip.engineHeld (hEngine (coreOp 2 x 0 ((s.chip.ctx x).sread ((s.chip.ctx x).memAddr (s.chip.mwAt (x / 64) (s.chip.ctx x).pc)) 40) (((s.chip.ctx x).reg (mwRd (s.chip.mwAt (x / 64) (s.chip.ctx x).pc))).toNat % 2 ^ 32) (((s.chip.ctx x).reg (mwRd (s.chip.mwAt (x / 64) (s.chip.ctx x).pc))).toNat / 2 ^ 32) 0 0 [] s.chip.mt).h1) = false)
    ∧ (∃ (s : State) (x : Fin 1024) (ws : WordSt) (e : CEnt) (a : FAnswer), s.chip.power.vin = true
    ∧ (s.chip.ctx x).rd = some e ∧ (s.chip.ctx x).word = some ws
    ∧ s.chip.flow.answers.find? (fun (a₀ : FAnswer) => a₀.op == e.op) = some a ∧ a.code = 3) :=
  ⟨⟨s184, 0, ((s184.chip.ctx 0).word).get (by decide +kernel), (by decide +kernel), (by decide +kernel),
  (Option.some_get (by decide +kernel)).symm, (by decide +kernel)⟩, ⟨s174, 0,
  ((s174.chip.ctx 0).word).get (by decide +kernel), (by decide +kernel), (by decide +kernel),
  (Option.some_get (by decide +kernel)).symm, (by decide +kernel)⟩, ⟨s175, 0,
  ((s175.chip.ctx 0).word).get (by decide +kernel), (by decide +kernel), (by decide +kernel),
  (Option.some_get (by decide +kernel)).symm, (by decide +kernel)⟩, ⟨s257, 0,
  ((s257.chip.ctx 0).word).get (by decide +kernel), ((s257.chip.ctx 0).rd).get (by decide +kernel),
  (s257.chip.flow.answers.find? (fun (a₀ : FAnswer) => a₀.op == (((s257.chip.ctx 0).rd).get (by decide +kernel)).op)).get (by decide +kernel),
  (by decide +kernel), (Option.some_get (by decide +kernel)).symm, (Option.some_get (by decide +kernel)).symm,
  (Option.some_get (by decide +kernel)).symm, (by decide +kernel)⟩⟩

theorem witness_MemOpsReachScratchDramAndTheWriteSet_3 :
    (∃ (s : State) (x : Fin 1024) (ws : WordSt), s.chip.power.vin = true ∧ (s.chip.ctx x).st = 1
    ∧ (s.chip.ctx x).word = some ws ∧ unitOp (s.chip.mwAt (x / 64) (s.chip.ctx x).pc) 2 = 6 ∧ ws.done.contains 2 = false
    ∧ mwSz (s.chip.mwAt (x / 64) (s.chip.ctx x).pc) = 0
    ∧ (s.chip.ctx x).memAddr (s.chip.mwAt (x / 64) (s.chip.ctx x).pc) + 128 ≤ 4096
    ∧ (s.chip.ctx x).touch [((s.chip.ctx x).memAddr (s.chip.mwAt (x / 64) (s.chip.ctx x).pc), 40)] = 0
    ∧ s.chip.ownerOf ((((s.chip.ctx x).reg (mwRd (s.chip.mwAt (x / 64) (s.chip.ctx x).pc))).toNat) % 2 ^ 32) = some s.chip.ownDevice
    ∧ (s.chip.ctx x).ents = []) ∧ (∃ (s : State) (x : Fin 1024) (ws : WordSt), s.chip.power.vin = true
    ∧ 1 ≤ bitsOf 28 16 (((s.chip.ctx x).reg (mwRd (s.chip.mwAt (x / 64) (s.chip.ctx x).pc))).toNat)
    ∧ bitsOf 28 16 (((s.chip.ctx x).reg (mwRd (s.chip.mwAt (x / 64) (s.chip.ctx x).pc))).toNat) ≤ 4096
    ∧ s.chip.routineMay (s.chip.ctx x) (((s.chip.ctx x).reg (mwRa (s.chip.mwAt (x / 64) (s.chip.ctx x).pc))).toNat) (bitsOf 28 16 (((s.chip.ctx x).reg (mwRd (s.chip.mwAt (x / 64) (s.chip.ctx x).pc))).toNat)) = true
    ∧ (s.chip.ctx x).st = 1 ∧ (s.chip.ctx x).word = some ws ∧ unitOp (s.chip.mwAt (x / 64) (s.chip.ctx x).pc) 2 = 7
    ∧ ws.done.contains 2 = false) ∧ (∃ (s : State) (x : Fin 1024) (ws : WordSt), s.chip.power.vin = true
    ∧ 1 ≤ bitsOf 28 16 (((s.chip.ctx x).reg (mwRd (s.chip.mwAt (x / 64) (s.chip.ctx x).pc))).toNat)
    ∧ bitsOf 28 16 (((s.chip.ctx x).reg (mwRd (s.chip.mwAt (x / 64) (s.chip.ctx x).pc))).toNat) ≤ 4096
    ∧ s.chip.routineMay (s.chip.ctx x) (((s.chip.ctx x).reg (mwRa (s.chip.mwAt (x / 64) (s.chip.ctx x).pc))).toNat) (bitsOf 28 16 (((s.chip.ctx x).reg (mwRd (s.chip.mwAt (x / 64) (s.chip.ctx x).pc))).toNat)) = true
    ∧ (s.chip.ctx x).st = 1 ∧ (s.chip.ctx x).word = some ws ∧ unitOp (s.chip.mwAt (x / 64) (s.chip.ctx x).pc) 2 = 8
    ∧ ws.done.contains 2 = false ∧ (s.chip.ctx x).watch = []
    ∧ (linesOf (((s.chip.ctx x).reg (mwRa (s.chip.mwAt (x / 64) (s.chip.ctx x).pc))).toNat) (bitsOf 28 16 (((s.chip.ctx x).reg (mwRd (s.chip.mwAt (x / 64) (s.chip.ctx x).pc))).toNat))).length ≤ 64)
    ∧ (∃ (s : State) (x : Fin 1024) (ws : WordSt), s.chip.power.vin = true ∧ (s.chip.ctx x).st = 1
    ∧ (s.chip.ctx x).word = some ws ∧ unitOp (s.chip.mwAt (x / 64) (s.chip.ctx x).pc) 2 = 10 ∧ ws.done.contains 2 = false
    ∧ 8 ≤ bitsOf 28 16 (((s.chip.ctx x).reg (mwRd (s.chip.mwAt (x / 64) (s.chip.ctx x).pc))).toNat)
    ∧ bitsOf 28 16 (((s.chip.ctx x).reg (mwRd (s.chip.mwAt (x / 64) (s.chip.ctx x).pc))).toNat) ≤ 64
    ∧ (((s.chip.ctx x).reg (mwRa (s.chip.mwAt (x / 64) (s.chip.ctx x).pc))).toNat) % 64 + bitsOf 28 16 (((s.chip.ctx x).reg (mwRd (s.chip.mwAt (x / 64) (s.chip.ctx x).pc))).toNat) ≤ 64
    ∧ s.chip.routineMay (s.chip.ctx x) (((s.chip.ctx x).reg (mwRa (s.chip.mwAt (x / 64) (s.chip.ctx x).pc))).toNat) (bitsOf 28 16 (((s.chip.ctx x).reg (mwRd (s.chip.mwAt (x / 64) (s.chip.ctx x).pc))).toNat)) = true
    ∧ (s.chip.ctx x).ents.length < 8) :=
  ⟨⟨s176, 0, ((s176.chip.ctx 0).word).get (by decide +kernel), (by decide +kernel), (by decide +kernel),
  (Option.some_get (by decide +kernel)).symm, (by decide +kernel)⟩, ⟨s185, 0,
  ((s185.chip.ctx 0).word).get (by decide +kernel), (by decide +kernel), (by decide +kernel), (by decide +kernel),
  (by decide +kernel), (by decide +kernel), (Option.some_get (by decide +kernel)).symm, (by decide +kernel)⟩, ⟨s186, 0,
  ((s186.chip.ctx 0).word).get (by decide +kernel), (by decide +kernel), (by decide +kernel), (by decide +kernel),
  (by decide +kernel), (by decide +kernel), (Option.some_get (by decide +kernel)).symm, (by decide +kernel)⟩, ⟨s187, 0,
  ((s187.chip.ctx 0).word).get (by decide +kernel), (by decide +kernel), (by decide +kernel),
  (Option.some_get (by decide +kernel)).symm, (by decide +kernel)⟩⟩

theorem witness_MemOpsReachScratchDramAndTheWriteSet_4 :
    (∃ (s : State) (x : Fin 1024) (f : Fill), s.chip.power.vin = true
    ∧ (s.chip.ctx x).fills.find? (fun (f₀ : Fill) => !f₀.bad) = some f ∧ (s.chip.ctx x).free = false)
    ∧ (∃ (s : State) (x : Fin 1024) (ws : WordSt), s.chip.power.vin = true ∧ (s.chip.ctx x).st = 1
    ∧ (s.chip.ctx x).word = some ws ∧ unitOp (s.chip.mwAt (x / 64) (s.chip.ctx x).pc) 2 = 9 ∧ ws.done.contains 2 = false)
    ∧ (∃ (s : State) (x : Fin 1024) (ws : WordSt), s.chip.power.vin = true ∧ (s.chip.ctx x).st = 1
    ∧ (s.chip.ctx x).word = some ws ∧ unitOp (s.chip.mwAt (x / 64) (s.chip.ctx x).pc) 2 = 11 ∧ ws.done.contains 2 = false
    ∧ (s.chip.ctx x).deltas.length < 16) ∧ (∃ (s : State) (x : Fin 1024) (ws : WordSt), s.chip.power.vin = true
    ∧ (s.chip.ctx x).st = 1 ∧ (s.chip.ctx x).word = some ws ∧ unitOp (s.chip.mwAt (x / 64) (s.chip.ctx x).pc) 2 = 11
    ∧ ws.done.contains 2 = false ∧ 16 ≤ (s.chip.ctx x).deltas.length) :=
  ⟨⟨s256, 0, ((s256.chip.ctx 0).fills.find? (fun (f₀ : Fill) => !f₀.bad)).get (by decide +kernel), (by decide +kernel),
  (Option.some_get (by decide +kernel)).symm, (by decide +kernel)⟩, ⟨s179, 0,
  ((s179.chip.ctx 0).word).get (by decide +kernel), (by decide +kernel), (by decide +kernel),
  (Option.some_get (by decide +kernel)).symm, (by decide +kernel)⟩, ⟨s181, 0,
  ((s181.chip.ctx 0).word).get (by decide +kernel), (by decide +kernel), (by decide +kernel),
  (Option.some_get (by decide +kernel)).symm, (by decide +kernel)⟩, ⟨s188, 0,
  ((s188.chip.ctx 0).word).get (by decide +kernel), (by decide +kernel), (by decide +kernel),
  (Option.some_get (by decide +kernel)).symm, (by decide +kernel)⟩⟩

theorem witness_MemOpsReachScratchDramAndTheWriteSet_5 :
    ∃ (c : Chip) (own : Option Nat) (k : Nat) (v : Ctx), own ≠ some k ∧ (k, v) ∈ c.act.ctxs :=
  ⟨s139.chip, (none : Option Nat), (((s139.chip.act.ctxs).head?).get (by decide +kernel)).1,
  (((s139.chip.act.ctxs).head?).get (by decide +kernel)).2, (by decide +kernel)⟩

theorem witness_KeyCrcEmitAndTimeOps :
    (∃ (s : State) (x : Fin 1024) (ws : WordSt), s.chip.power.vin = true
    ∧ (s.chip.ctx x).touch [((((s.chip.ctx x).reg (mwKr (s.chip.mwAt (x / 64) (s.chip.ctx x).pc))).toNat % 4096), 40)] = 0
    ∧ (s.chip.ctx x).st = 1 ∧ (s.chip.ctx x).word = some ws ∧ unitOp (s.chip.mwAt (x / 64) (s.chip.ctx x).pc) 3 = 1
    ∧ ws.done.contains 3 = false) ∧ (∃ (s : State) (x : Fin 1024) (ws : WordSt), s.chip.power.vin = true
    ∧ (s.chip.ctx x).touch [((((s.chip.ctx x).reg (mwKr (s.chip.mwAt (x / 64) (s.chip.ctx x).pc))).toNat % 4096), 40)] = 0
    ∧ (s.chip.ctx x).st = 1 ∧ (s.chip.ctx x).word = some ws ∧ unitOp (s.chip.mwAt (x / 64) (s.chip.ctx x).pc) 3 = 2
    ∧ ws.done.contains 3 = false) ∧ (∃ (s : State) (x : Fin 1024) (ws : WordSt), s.chip.power.vin = true
    ∧ (s.chip.ctx x).st = 1 ∧ (s.chip.ctx x).word = some ws ∧ unitOp (s.chip.mwAt (x / 64) (s.chip.ctx x).pc) 3 = 3
    ∧ ws.done.contains 3 = false
    ∧ (s.chip.ctx x).touch [((((s.chip.ctx x).reg (mwKr (s.chip.mwAt (x / 64) (s.chip.ctx x).pc))).toNat) % 4096,
    (bitsOf 22 16 (((s.chip.ctx x).reg (mwKr (s.chip.mwAt (x / 64) (s.chip.ctx x).pc))).toNat)))] = 0)
    ∧ (∃ (s : State) (x : Fin 1024) (ws : WordSt), s.chip.power.vin = true ∧ (s.chip.ctx x).st = 1
    ∧ (s.chip.ctx x).word = some ws ∧ unitOp (s.chip.mwAt (x / 64) (s.chip.ctx x).pc) 3 = 4 ∧ ws.done.contains 3 = false
    ∧ (bitsOf 30 24 (((s.chip.ctx x).reg (mwKr (s.chip.mwAt (x / 64) (s.chip.ctx x).pc))).toNat)) ≠ 0
    ∧ (s.chip.ctx x).touch [((((s.chip.ctx x).reg (mwKr (s.chip.mwAt (x / 64) (s.chip.ctx x).pc))).toNat) % 4096,
    (bitsOf 30 24 (((s.chip.ctx x).reg (mwKr (s.chip.mwAt (x / 64) (s.chip.ctx x).pc))).toNat))),
    (bitsOf 23 12 (((s.chip.ctx x).reg (mwKr (s.chip.mwAt (x / 64) (s.chip.ctx x).pc))).toNat),
    (bitsOf 30 24 (((s.chip.ctx x).reg (mwKr (s.chip.mwAt (x / 64) (s.chip.ctx x).pc))).toNat)))] = 0) :=
  ⟨⟨s189, 0, ((s189.chip.ctx 0).word).get (by decide +kernel), (by decide +kernel), (by decide +kernel),
  (by decide +kernel), (Option.some_get (by decide +kernel)).symm, (by decide +kernel)⟩, ⟨s192, 0,
  ((s192.chip.ctx 0).word).get (by decide +kernel), (by decide +kernel), (by decide +kernel), (by decide +kernel),
  (Option.some_get (by decide +kernel)).symm, (by decide +kernel)⟩, ⟨s195, 0,
  ((s195.chip.ctx 0).word).get (by decide +kernel), (by decide +kernel), (by decide +kernel),
  (Option.some_get (by decide +kernel)).symm, (by decide +kernel)⟩, ⟨s199, 0,
  ((s199.chip.ctx 0).word).get (by decide +kernel), (by decide +kernel), (by decide +kernel),
  (Option.some_get (by decide +kernel)).symm, (by decide +kernel)⟩⟩

theorem witness_KeyCrcEmitAndTimeOps_2 :
    (∃ (s : State) (x : Fin 1024) (ws : WordSt), s.chip.power.vin = true ∧ (s.chip.ctx x).st = 1
    ∧ (s.chip.ctx x).word = some ws ∧ unitOp (s.chip.mwAt (x / 64) (s.chip.ctx x).pc) 3 = 5 ∧ ws.done.contains 3 = false
    ∧ npSlot (bitsOf 31 24 (((s.chip.ctx x).reg (mwKr (s.chip.mwAt (x / 64) (s.chip.ctx x).pc))).toNat)) = none)
    ∧ (∃ (s : State) (x : Fin 1024) (ws : WordSt), s.chip.power.vin = true ∧ (s.chip.ctx x).st = 1
    ∧ (s.chip.ctx x).word = some ws ∧ unitOp (s.chip.mwAt (x / 64) (s.chip.ctx x).pc) 3 = 7 ∧ ws.done.contains 3 = false
    ∧ (s.chip.ctx x).touch [(bitsOf 27 16 (((s.chip.ctx x).reg (mwKr (s.chip.mwAt (x / 64) (s.chip.ctx x).pc))).toNat), 40),
    (bitsOf 39 28 (((s.chip.ctx x).reg (mwKr (s.chip.mwAt (x / 64) (s.chip.ctx x).pc))).toNat), 42)] = 0
    ∧ npN (s.chip.natPool ((((s.chip.ctx x).reg (mwKr (s.chip.mwAt (x / 64) (s.chip.ctx x).pc))).toNat) % 256)) ≠ 0)
    ∧ (∃ (s : State) (x : Fin 1024) (ws : WordSt), s.chip.power.vin = true ∧ (s.chip.ctx x).st = 1
    ∧ (s.chip.ctx x).word = some ws ∧ unitOp (s.chip.mwAt (x / 64) (s.chip.ctx x).pc) 3 = 8 ∧ ws.done.contains 3 = false
    ∧ (s.chip.ctx x).touch [(bitsOf 27 16 (((s.chip.ctx x).reg (mwKr (s.chip.mwAt (x / 64) (s.chip.ctx x).pc))).toNat),
    18)] = 0) ∧ (∃ (s : State) (x : Fin 1024) (ws : WordSt), s.chip.power.vin = true ∧ (s.chip.ctx x).st = 1
    ∧ (s.chip.ctx x).word = some ws ∧ unitOp (s.chip.mwAt (x / 64) (s.chip.ctx x).pc) 3 = 9 ∧ ws.done.contains 3 = false
    ∧ (s.chip.ctx x).touch [((((s.chip.ctx x).reg (mwKr (s.chip.mwAt (x / 64) (s.chip.ctx x).pc))).toNat) % 4096, 40),
    (bitsOf 23 12 (((s.chip.ctx x).reg (mwKr (s.chip.mwAt (x / 64) (s.chip.ctx x).pc))).toNat), 18),
    (bitsOf 35 24 (((s.chip.ctx x).reg (mwKr (s.chip.mwAt (x / 64) (s.chip.ctx x).pc))).toNat), 18),
    (bitsOf 47 36 (((s.chip.ctx x).reg (mwKr (s.chip.mwAt (x / 64) (s.chip.ctx x).pc))).toNat), 4)] = 0) :=
  ⟨⟨s201, 0, ((s201.chip.ctx 0).word).get (by decide +kernel), (by decide +kernel), (by decide +kernel),
  (Option.some_get (by decide +kernel)).symm, (by decide +kernel)⟩, ⟨s381, 0,
  ((s381.chip.ctx 0).word).get (by decide +kernel), (by decide +kernel), (by decide +kernel),
  (Option.some_get (by decide +kernel)).symm, (by decide +kernel)⟩, ⟨s210, 0,
  ((s210.chip.ctx 0).word).get (by decide +kernel), (by decide +kernel), (by decide +kernel),
  (Option.some_get (by decide +kernel)).symm, (by decide +kernel)⟩, ⟨s213, 0,
  ((s213.chip.ctx 0).word).get (by decide +kernel), (by decide +kernel), (by decide +kernel),
  (Option.some_get (by decide +kernel)).symm, (by decide +kernel)⟩⟩

theorem witness_KeyCrcEmitAndTimeOps_3 :
    (∃ (s : State) (x : Fin 1024) (ws : WordSt), s.chip.power.vin = true ∧ (s.chip.ctx x).st = 1
    ∧ (s.chip.ctx x).word = some ws ∧ unitOp (s.chip.mwAt (x / 64) (s.chip.ctx x).pc) 3 = 10 ∧ ws.done.contains 3 = false)
    ∧ (∃ (s : State) (x : Fin 1024) (ws : WordSt), s.chip.power.vin = true ∧ (s.chip.ctx x).st = 1
    ∧ (s.chip.ctx x).word = some ws ∧ unitOp (s.chip.mwAt (x / 64) (s.chip.ctx x).pc) 4 = 1 ∧ ws.done.contains 4 = false
    ∧ mwSeed (s.chip.mwAt (x / 64) (s.chip.ctx x).pc) = false) ∧ (∃ (s : State) (x : Fin 1024) (ws : WordSt),
    s.chip.power.vin = true ∧ (s.chip.ctx x).st = 1 ∧ (s.chip.ctx x).word = some ws
    ∧ unitOp (s.chip.mwAt (x / 64) (s.chip.ctx x).pc) 4 = 1 ∧ ws.done.contains 4 = false
    ∧ mwSeed (s.chip.mwAt (x / 64) (s.chip.ctx x).pc) = true) ∧ (∃ (s : State) (x : Fin 1024) (ws : WordSt),
    s.chip.power.vin = true ∧ (s.chip.ctx x).st = 1 ∧ (s.chip.ctx x).word = some ws
    ∧ unitOp (s.chip.mwAt (x / 64) (s.chip.ctx x).pc) 4 = 2 ∧ ws.done.contains 4 = false
    ∧ mwMemOp (s.chip.mwAt (x / 64) (s.chip.ctx x).pc) = 1
    ∧ ((s.chip.ctx x).memRange (s.chip.mwAt (x / 64) (s.chip.ctx x).pc)).1 + ((s.chip.ctx x).memRange (s.chip.mwAt (x / 64) (s.chip.ctx x).pc)).2 ≤ 4096
    ∧ (s.chip.ctx x).touch [(s.chip.ctx x).memRange (s.chip.mwAt (x / 64) (s.chip.ctx x).pc)] = 0) :=
  ⟨⟨s216, 0, ((s216.chip.ctx 0).word).get (by decide +kernel), (by decide +kernel), (by decide +kernel),
  (Option.some_get (by decide +kernel)).symm, (by decide +kernel)⟩, ⟨s219, 0,
  ((s219.chip.ctx 0).word).get (by decide +kernel), (by decide +kernel), (by decide +kernel),
  (Option.some_get (by decide +kernel)).symm, (by decide +kernel)⟩, ⟨s220, 0,
  ((s220.chip.ctx 0).word).get (by decide +kernel), (by decide +kernel), (by decide +kernel),
  (Option.some_get (by decide +kernel)).symm, (by decide +kernel)⟩, ⟨s221, 0,
  ((s221.chip.ctx 0).word).get (by decide +kernel), (by decide +kernel), (by decide +kernel),
  (Option.some_get (by decide +kernel)).symm, (by decide +kernel)⟩⟩

theorem witness_KeyCrcEmitAndTimeOps_4 :
    (∃ (s : State) (x : Fin 1024) (ws : WordSt), s.chip.power.vin = true ∧ (s.chip.ctx x).st = 1
    ∧ (s.chip.ctx x).word = some ws ∧ unitOp (s.chip.mwAt (x / 64) (s.chip.ctx x).pc) 4 = 3 ∧ ws.done.contains 4 = false)
    ∧ (∃ (s : State) (x : Fin 1024) (ws : WordSt), s.chip.power.vin = true ∧ (s.chip.ctx x).st = 1
    ∧ (s.chip.ctx x).word = some ws ∧ ws.done.contains 5 = false
    ∧ emitLenOk (unitOp (s.chip.mwAt (x / 64) (s.chip.ctx x).pc) 5) (bitsOf 28 16 (((s.chip.ctx x).reg (mwEr (s.chip.mwAt (x / 64) (s.chip.ctx x).pc))).toNat)) = true
    ∧ (s.chip.ctx x).emits.length < 4
    ∧ bitOf (unitOp (s.chip.mwAt (x / 64) (s.chip.ctx x).pc) 5) (s.chip.polByte (if (s.chip.ctx x).isOpen then 0x217 else 0x216)).toNat = true
    ∧ (unitOp (s.chip.mwAt (x / 64) (s.chip.ctx x).pc) 5) = 1) ∧ (∃ (s : State) (x : Fin 1024) (ws : WordSt),
    s.chip.power.vin = true ∧ (s.chip.ctx x).st = 1 ∧ (s.chip.ctx x).word = some ws ∧ ws.done.contains 5 = false
    ∧ emitLenOk (unitOp (s.chip.mwAt (x / 64) (s.chip.ctx x).pc) 5) (bitsOf 28 16 (((s.chip.ctx x).reg (mwEr (s.chip.mwAt (x / 64) (s.chip.ctx x).pc))).toNat)) = true
    ∧ (s.chip.ctx x).emits.length < 4
    ∧ bitOf (unitOp (s.chip.mwAt (x / 64) (s.chip.ctx x).pc) 5) (s.chip.polByte (if (s.chip.ctx x).isOpen then 0x217 else 0x216)).toNat = true
    ∧ (unitOp (s.chip.mwAt (x / 64) (s.chip.ctx x).pc) 5) = 2) ∧ (∃ (s : State) (x : Fin 1024) (ws : WordSt),
    s.chip.power.vin = true ∧ (s.chip.ctx x).st = 1 ∧ (s.chip.ctx x).word = some ws ∧ ws.done.contains 5 = false
    ∧ emitLenOk (unitOp (s.chip.mwAt (x / 64) (s.chip.ctx x).pc) 5) (bitsOf 28 16 (((s.chip.ctx x).reg (mwEr (s.chip.mwAt (x / 64) (s.chip.ctx x).pc))).toNat)) = true
    ∧ (s.chip.ctx x).emits.length < 4
    ∧ bitOf (unitOp (s.chip.mwAt (x / 64) (s.chip.ctx x).pc) 5) (s.chip.polByte (if (s.chip.ctx x).isOpen then 0x217 else 0x216)).toNat = true
    ∧ (unitOp (s.chip.mwAt (x / 64) (s.chip.ctx x).pc) 5) = 3) :=
  ⟨⟨s222, 0, ((s222.chip.ctx 0).word).get (by decide +kernel), (by decide +kernel), (by decide +kernel),
  (Option.some_get (by decide +kernel)).symm, (by decide +kernel)⟩, ⟨s223, 0,
  ((s223.chip.ctx 0).word).get (by decide +kernel), (by decide +kernel), (by decide +kernel),
  (Option.some_get (by decide +kernel)).symm, (by decide +kernel)⟩, ⟨s224, 0,
  ((s224.chip.ctx 0).word).get (by decide +kernel), (by decide +kernel), (by decide +kernel),
  (Option.some_get (by decide +kernel)).symm, (by decide +kernel)⟩, ⟨s225, 0,
  ((s225.chip.ctx 0).word).get (by decide +kernel), (by decide +kernel), (by decide +kernel),
  (Option.some_get (by decide +kernel)).symm, (by decide +kernel)⟩⟩

theorem witness_KeyCrcEmitAndTimeOps_5 :
    (∃ (s : State) (x : Fin 1024) (ws : WordSt), s.chip.power.vin = true ∧ (s.chip.ctx x).st = 1
    ∧ (s.chip.ctx x).word = some ws ∧ ws.done.contains 5 = false
    ∧ emitLenOk (unitOp (s.chip.mwAt (x / 64) (s.chip.ctx x).pc) 5) (bitsOf 28 16 (((s.chip.ctx x).reg (mwEr (s.chip.mwAt (x / 64) (s.chip.ctx x).pc))).toNat)) = true
    ∧ (s.chip.ctx x).emits.length < 4
    ∧ bitOf (unitOp (s.chip.mwAt (x / 64) (s.chip.ctx x).pc) 5) (s.chip.polByte (if (s.chip.ctx x).isOpen then 0x217 else 0x216)).toNat = true
    ∧ (unitOp (s.chip.mwAt (x / 64) (s.chip.ctx x).pc) 5) = 4) ∧ (∃ (s : State) (x : Fin 1024) (ws : WordSt),
    s.chip.power.vin = true ∧ (s.chip.ctx x).st = 1 ∧ (s.chip.ctx x).word = some ws
    ∧ unitOp (s.chip.mwAt (x / 64) (s.chip.ctx x).pc) 6 = 1 ∧ ws.done.contains 6 = false)
    ∧ (∃ (s : State) (x : Fin 1024) (ws : WordSt), s.chip.power.vin = true ∧ (s.chip.ctx x).st = 1
    ∧ (s.chip.ctx x).word = some ws ∧ unitOp (s.chip.mwAt (x / 64) (s.chip.ctx x).pc) 6 = 2 ∧ ws.done.contains 6 = false)
    ∧ (∃ (s : State) (x : Fin 1024) (ws : WordSt), s.chip.power.vin = true ∧ (s.chip.ctx x).st = 1
    ∧ (s.chip.ctx x).word = some ws ∧ unitOp (s.chip.mwAt (x / 64) (s.chip.ctx x).pc) 6 = 3 ∧ ws.done.contains 6 = false) :=
  ⟨⟨s226, 0, ((s226.chip.ctx 0).word).get (by decide +kernel), (by decide +kernel), (by decide +kernel),
  (Option.some_get (by decide +kernel)).symm, (by decide +kernel)⟩, ⟨s227, 0,
  ((s227.chip.ctx 0).word).get (by decide +kernel), (by decide +kernel), (by decide +kernel),
  (Option.some_get (by decide +kernel)).symm, (by decide +kernel)⟩, ⟨s228, 0,
  ((s228.chip.ctx 0).word).get (by decide +kernel), (by decide +kernel), (by decide +kernel),
  (Option.some_get (by decide +kernel)).symm, (by decide +kernel)⟩, ⟨s229, 0,
  ((s229.chip.ctx 0).word).get (by decide +kernel), (by decide +kernel), (by decide +kernel),
  (Option.some_get (by decide +kernel)).symm, (by decide +kernel)⟩⟩

theorem witness_KeyCrcEmitAndTimeOps_6 :
    ∃ (s : State) (x : Fin 1024) (ws : WordSt), s.chip.power.vin = true ∧ (s.chip.ctx x).st = 1
    ∧ (s.chip.ctx x).word = some ws ∧ unitOp (s.chip.mwAt (x / 64) (s.chip.ctx x).pc) 6 = 4 ∧ ws.done.contains 6 = false :=
  ⟨s230, 0, ((s230.chip.ctx 0).word).get (by decide +kernel), (by decide +kernel), (by decide +kernel),
  (Option.some_get (by decide +kernel)).symm, (by decide +kernel)⟩

theorem witness_WordsCompleteAndSequence :
    (∃ (s : State) (x : Fin 1024) (ws : WordSt), s.chip.power.vin = true ∧ (s.chip.ctx x).st = 1
    ∧ (s.chip.ctx x).word = some ws ∧ mwNxt (s.chip.mwAt (x / 64) (s.chip.ctx x).pc) = 0
    ∧ (mwUnits (s.chip.mwAt (x / 64) (s.chip.ctx x).pc)).all ws.done.contains = true
    ∧ (mwMemOp (s.chip.mwAt (x / 64) (s.chip.ctx x).pc) ≠ 2 ∨ mwRd (s.chip.mwAt (x / 64) (s.chip.ctx x).pc) + mwRegs (s.chip.mwAt (x / 64) (s.chip.ctx x).pc) ≤ 64))
    ∧ (∃ (s : State) (x : Fin 1024) (ws : WordSt), s.chip.power.vin = true ∧ (s.chip.ctx x).st = 1
    ∧ (s.chip.ctx x).word = some ws ∧ mwNxt (s.chip.mwAt (x / 64) (s.chip.ctx x).pc) = 1
    ∧ (mwUnits (s.chip.mwAt (x / 64) (s.chip.ctx x).pc)).all ws.done.contains = true
    ∧ (mwMemOp (s.chip.mwAt (x / 64) (s.chip.ctx x).pc) ≠ 2 ∨ mwRd (s.chip.mwAt (x / 64) (s.chip.ctx x).pc) + mwRegs (s.chip.mwAt (x / 64) (s.chip.ctx x).pc) ≤ 64))
    ∧ (∃ (s : State) (x : Fin 1024) (ws : WordSt), s.chip.power.vin = true ∧ (s.chip.ctx x).st = 1
    ∧ (s.chip.ctx x).word = some ws ∧ mwNxt (s.chip.mwAt (x / 64) (s.chip.ctx x).pc) = 2
    ∧ (mwUnits (s.chip.mwAt (x / 64) (s.chip.ctx x).pc)).all ws.done.contains = true
    ∧ (mwMemOp (s.chip.mwAt (x / 64) (s.chip.ctx x).pc) ≠ 2 ∨ mwRd (s.chip.mwAt (x / 64) (s.chip.ctx x).pc) + mwRegs (s.chip.mwAt (x / 64) (s.chip.ctx x).pc) ≤ 64)
    ∧ ((s.chip.ctx x).complete ws).holds (s.chip.mwAt (x / 64) (s.chip.ctx x).pc) = true
    ∧ ((s.chip.ctx x).complete ws).stack.length < 8) ∧ (∃ (s : State) (x : Fin 1024) (ws : WordSt), s.chip.power.vin = true
    ∧ (s.chip.ctx x).st = 1 ∧ (s.chip.ctx x).word = some ws ∧ mwNxt (s.chip.mwAt (x / 64) (s.chip.ctx x).pc) = 2
    ∧ (mwUnits (s.chip.mwAt (x / 64) (s.chip.ctx x).pc)).all ws.done.contains = true
    ∧ (mwMemOp (s.chip.mwAt (x / 64) (s.chip.ctx x).pc) ≠ 2 ∨ mwRd (s.chip.mwAt (x / 64) (s.chip.ctx x).pc) + mwRegs (s.chip.mwAt (x / 64) (s.chip.ctx x).pc) ≤ 64)
    ∧ ((s.chip.ctx x).complete ws).holds (s.chip.mwAt (x / 64) (s.chip.ctx x).pc) = true
    ∧ 8 ≤ ((s.chip.ctx x).complete ws).stack.length) :=
  ⟨⟨s231, 0, ((s231.chip.ctx 0).word).get (by decide +kernel), (by decide +kernel), (by decide +kernel),
  (Option.some_get (by decide +kernel)).symm, (by decide +kernel)⟩, ⟨s233, 0,
  ((s233.chip.ctx 0).word).get (by decide +kernel), (by decide +kernel), (by decide +kernel),
  (Option.some_get (by decide +kernel)).symm, (by decide +kernel)⟩, ⟨s235, 0,
  ((s235.chip.ctx 0).word).get (by decide +kernel), (by decide +kernel), (by decide +kernel),
  (Option.some_get (by decide +kernel)).symm, (by decide +kernel)⟩, ⟨s245, 0,
  ((s245.chip.ctx 0).word).get (by decide +kernel), (by decide +kernel), (by decide +kernel),
  (Option.some_get (by decide +kernel)).symm, (by decide +kernel)⟩⟩

theorem witness_WordsCompleteAndSequence_2 :
    (∃ (s : State) (x : Fin 1024) (ws : WordSt), s.chip.power.vin = true ∧ (s.chip.ctx x).st = 1
    ∧ (s.chip.ctx x).word = some ws ∧ mwNxt (s.chip.mwAt (x / 64) (s.chip.ctx x).pc) = 3
    ∧ (mwUnits (s.chip.mwAt (x / 64) (s.chip.ctx x).pc)).all ws.done.contains = true
    ∧ (mwMemOp (s.chip.mwAt (x / 64) (s.chip.ctx x).pc) ≠ 2 ∨ mwRd (s.chip.mwAt (x / 64) (s.chip.ctx x).pc) + mwRegs (s.chip.mwAt (x / 64) (s.chip.ctx x).pc) ≤ 64)
    ∧ ((s.chip.ctx x).complete ws).holds (s.chip.mwAt (x / 64) (s.chip.ctx x).pc) = true
    ∧ ((s.chip.ctx x).complete ws).stack = []) ∧ (∃ (s : State) (x : Fin 1024) (ws : WordSt) (a : _) (r : List Nat),
    s.chip.power.vin = true ∧ (s.chip.ctx x).st = 1 ∧ (s.chip.ctx x).word = some ws
    ∧ mwNxt (s.chip.mwAt (x / 64) (s.chip.ctx x).pc) = 3
    ∧ (mwUnits (s.chip.mwAt (x / 64) (s.chip.ctx x).pc)).all ws.done.contains = true
    ∧ (mwMemOp (s.chip.mwAt (x / 64) (s.chip.ctx x).pc) ≠ 2 ∨ mwRd (s.chip.mwAt (x / 64) (s.chip.ctx x).pc) + mwRegs (s.chip.mwAt (x / 64) (s.chip.ctx x).pc) ≤ 64)
    ∧ ((s.chip.ctx x).complete ws).holds (s.chip.mwAt (x / 64) (s.chip.ctx x).pc) = true
    ∧ ((s.chip.ctx x).complete ws).stack = a :: r) ∧ (∃ (s : State) (x : Fin 1024) (ws : WordSt), s.chip.power.vin = true
    ∧ (s.chip.ctx x).st = 1 ∧ (s.chip.ctx x).word = some ws ∧ mwNxt (s.chip.mwAt (x / 64) (s.chip.ctx x).pc) = 4
    ∧ (mwUnits (s.chip.mwAt (x / 64) (s.chip.ctx x).pc)).all ws.done.contains = true
    ∧ (mwMemOp (s.chip.mwAt (x / 64) (s.chip.ctx x).pc) ≠ 2 ∨ mwRd (s.chip.mwAt (x / 64) (s.chip.ctx x).pc) + mwRegs (s.chip.mwAt (x / 64) (s.chip.ctx x).pc) ≤ 64))
    ∧ (∃ (s : State) (x : Fin 1024) (ws : WordSt), s.chip.power.vin = true ∧ (s.chip.ctx x).st = 1
    ∧ (s.chip.ctx x).word = some ws ∧ mwNxt (s.chip.mwAt (x / 64) (s.chip.ctx x).pc) = 5
    ∧ (mwUnits (s.chip.mwAt (x / 64) (s.chip.ctx x).pc)).all ws.done.contains = true
    ∧ (mwMemOp (s.chip.mwAt (x / 64) (s.chip.ctx x).pc) ≠ 2 ∨ mwRd (s.chip.mwAt (x / 64) (s.chip.ctx x).pc) + mwRegs (s.chip.mwAt (x / 64) (s.chip.ctx x).pc) ≤ 64)
    ∧ ((s.chip.ctx x).complete ws).holds (s.chip.mwAt (x / 64) (s.chip.ctx x).pc) = false) :=
  ⟨⟨s237, 0, ((s237.chip.ctx 0).word).get (by decide +kernel), (by decide +kernel), (by decide +kernel),
  (Option.some_get (by decide +kernel)).symm, (by decide +kernel)⟩, ⟨s246, 0,
  ((s246.chip.ctx 0).word).get (by decide +kernel),
  (((s246.chip.ctx 0).complete (((s246.chip.ctx 0).word).get (by decide +kernel))).stack).head (by decide +kernel),
  (((s246.chip.ctx 0).complete (((s246.chip.ctx 0).word).get (by decide +kernel))).stack).tail, (by decide +kernel),
  (by decide +kernel), (Option.some_get (by decide +kernel)).symm, (by decide +kernel), (by decide +kernel),
  (by decide +kernel), (by decide +kernel), (List.cons_head_tail (by decide +kernel)).symm⟩, ⟨s239, 0,
  ((s239.chip.ctx 0).word).get (by decide +kernel), (by decide +kernel), (by decide +kernel),
  (Option.some_get (by decide +kernel)).symm, (by decide +kernel)⟩, ⟨s242, 0,
  ((s242.chip.ctx 0).word).get (by decide +kernel), (by decide +kernel), (by decide +kernel),
  (Option.some_get (by decide +kernel)).symm, (by decide +kernel)⟩⟩

theorem witness_WordsCompleteAndSequence_3 :
    (∃ (s : State) (x : Fin 1024) (ws : WordSt), s.chip.power.vin = true ∧ (s.chip.ctx x).st = 1
    ∧ (s.chip.ctx x).word = some ws ∧ mwNxt (s.chip.mwAt (x / 64) (s.chip.ctx x).pc) = 5
    ∧ (mwUnits (s.chip.mwAt (x / 64) (s.chip.ctx x).pc)).all ws.done.contains = true
    ∧ (mwMemOp (s.chip.mwAt (x / 64) (s.chip.ctx x).pc) ≠ 2 ∨ mwRd (s.chip.mwAt (x / 64) (s.chip.ctx x).pc) + mwRegs (s.chip.mwAt (x / 64) (s.chip.ctx x).pc) ≤ 64)
    ∧ ((s.chip.ctx x).complete ws).holds (s.chip.mwAt (x / 64) (s.chip.ctx x).pc) = true
    ∧ ((s.chip.ctx x).complete ws).touch ((s.chip.ctx x).complete ws).setRanges = 0)
    ∧ (∃ (s : State) (x : Fin 1024) (ws : WordSt), s.chip.power.vin = true ∧ (s.chip.ctx x).st = 1
    ∧ (s.chip.ctx x).word = some ws ∧ mwNxt (s.chip.mwAt (x / 64) (s.chip.ctx x).pc) = 6
    ∧ (mwUnits (s.chip.mwAt (x / 64) (s.chip.ctx x).pc)).all ws.done.contains = true
    ∧ (mwMemOp (s.chip.mwAt (x / 64) (s.chip.ctx x).pc) ≠ 2 ∨ mwRd (s.chip.mwAt (x / 64) (s.chip.ctx x).pc) + mwRegs (s.chip.mwAt (x / 64) (s.chip.ctx x).pc) ≤ 64)
    ∧ ((s.chip.ctx x).complete ws).holds (s.chip.mwAt (x / 64) (s.chip.ctx x).pc) = true)
    ∧ (∃ (s : State) (x : Fin 1024) (ws : WordSt), s.chip.power.vin = true ∧ (s.chip.ctx x).st = 1
    ∧ (s.chip.ctx x).word = some ws ∧ mwNxt (s.chip.mwAt (x / 64) (s.chip.ctx x).pc) = 6
    ∧ (mwUnits (s.chip.mwAt (x / 64) (s.chip.ctx x).pc)).all ws.done.contains = true
    ∧ (mwMemOp (s.chip.mwAt (x / 64) (s.chip.ctx x).pc) ≠ 2 ∨ mwRd (s.chip.mwAt (x / 64) (s.chip.ctx x).pc) + mwRegs (s.chip.mwAt (x / 64) (s.chip.ctx x).pc) ≤ 64)
    ∧ ((s.chip.ctx x).complete ws).holds (s.chip.mwAt (x / 64) (s.chip.ctx x).pc) = false) ∧ (∃ (ws : WordSt), ws.regs = []) :=
  ⟨⟨s241, 0, ((s241.chip.ctx 0).word).get (by decide +kernel), (by decide +kernel), (by decide +kernel),
  (Option.some_get (by decide +kernel)).symm, (by decide +kernel)⟩, ⟨s243, 0,
  ((s243.chip.ctx 0).word).get (by decide +kernel), (by decide +kernel), (by decide +kernel),
  (Option.some_get (by decide +kernel)).symm, (by decide +kernel)⟩, ⟨s244, 0,
  ((s244.chip.ctx 0).word).get (by decide +kernel), (by decide +kernel), (by decide +kernel),
  (Option.some_get (by decide +kernel)).symm, (by decide +kernel)⟩, ⟨tProg [], (by decide +kernel)⟩⟩

theorem witness_WordsCompleteAndSequence_4 :
    (∃ (ws : WordSt) (r : Nat) (b : BitVec 64), ws.regs = [(r, b)] ∧ r ≤ 63) ∧ (∃ (c : Chip) (x : Nat),
    (c.ctx x).word = none ∧ c.getF F.ACT_STEP_BUDGET.V ≤ (c.ctx x).steps) :=
  ⟨⟨{ tProg [] with regs := [(0, 1)] }, 0, 1, (by decide +kernel)⟩, ⟨s382.chip, 0, (by decide +kernel)⟩⟩

theorem witness_WriteSetsCommitAndRoutinesEnd :
    (∃ (s : State) (x : Fin 1024) (e : CEnt) (a : FAnswer), s.chip.power.vin = true
    ∧ (s.chip.ctx x).commit.find? (fun (e₀ : CEnt) => e₀.st == 1) = some e
    ∧ s.chip.flow.answers.find? (fun (a₀ : FAnswer) => a₀.op == e.op) = some a ∧ a.code = 0)
    ∧ (∃ (s : State) (x : Fin 1024) (e : CEnt) (a : FAnswer), s.chip.power.vin = true
    ∧ (s.chip.ctx x).commit.find? (fun (e₀ : CEnt) => e₀.st == 1) = some e
    ∧ s.chip.flow.answers.find? (fun (a₀ : FAnswer) => a₀.op == e.op) = some a ∧ a.code = 7)
    ∧ (∃ (s : State) (x : Fin 1024) (e : CEnt) (a : FAnswer), s.chip.power.vin = true
    ∧ (s.chip.ctx x).commit.find? (fun (e₀ : CEnt) => e₀.st == 1) = some e
    ∧ s.chip.flow.answers.find? (fun (a₀ : FAnswer) => a₀.op == e.op) = some a ∧ a.code = 3)
    ∧ (∃ (c : Chip) (x : Nat) (e : CEnt), (c.ctx x).commit.find? (fun (e₀ : CEnt) => e₀.st == 0) = some e) :=
  ⟨⟨s248, 0, ((s248.chip.ctx 0).commit.find? (fun (e₀ : CEnt) => e₀.st == 1)).get (by decide +kernel),
  (s248.chip.flow.answers.find? (fun (a₀ : FAnswer) => a₀.op == (((s248.chip.ctx 0).commit.find? (fun (e₀ : CEnt) => e₀.st == 1)).get (by decide +kernel)).op)).get (by decide +kernel),
  (by decide +kernel), (Option.some_get (by decide +kernel)).symm, (Option.some_get (by decide +kernel)).symm,
  (by decide +kernel)⟩, ⟨s250, 0, ((s250.chip.ctx 0).commit.find? (fun (e₀ : CEnt) => e₀.st == 1)).get (by decide +kernel),
  (s250.chip.flow.answers.find? (fun (a₀ : FAnswer) => a₀.op == (((s250.chip.ctx 0).commit.find? (fun (e₀ : CEnt) => e₀.st == 1)).get (by decide +kernel)).op)).get (by decide +kernel),
  (by decide +kernel), (Option.some_get (by decide +kernel)).symm, (Option.some_get (by decide +kernel)).symm,
  (by decide +kernel)⟩, ⟨s249, 0, ((s249.chip.ctx 0).commit.find? (fun (e₀ : CEnt) => e₀.st == 1)).get (by decide +kernel),
  (s249.chip.flow.answers.find? (fun (a₀ : FAnswer) => a₀.op == (((s249.chip.ctx 0).commit.find? (fun (e₀ : CEnt) => e₀.st == 1)).get (by decide +kernel)).op)).get (by decide +kernel),
  (by decide +kernel), (Option.some_get (by decide +kernel)).symm, (Option.some_get (by decide +kernel)).symm,
  (by decide +kernel)⟩, ⟨s251.chip, 0,
  ((s251.chip.ctx 0).commit.find? (fun (e₀ : CEnt) => e₀.st == 0)).get (by decide +kernel),
  (Option.some_get (by decide +kernel)).symm⟩⟩

theorem witness_WriteSetsCommitAndRoutinesEnd_2 :
    (∃ (c : Chip) (e : CEnt), c.ownerOf e.op.h1 = none) ∧ (∃ (s : State), s.chip.power.vin = true ∧ s.chip.act.ctxs = []
    ∧ s.chip.act.commitQ = []) ∧ (∃ (s : State) (x : Nat) (r : List Nat), s.chip.power.vin = true
    ∧ s.chip.retryReserve.act.commitQ = x :: r) ∧ (∃ (c : Chip) (x : Nat), (c.ctx x).broken ≠ []) :=
  ⟨⟨s104.chip, ⟨tOp 3, 0, 0, 0, 0⟩, (by decide +kernel)⟩, ⟨s0, (by decide +kernel)⟩, ⟨s252,
  (s252.chip.retryReserve.act.commitQ).head (by decide +kernel), (s252.chip.retryReserve.act.commitQ).tail,
  (by decide +kernel), (List.cons_head_tail (by decide +kernel)).symm⟩, ⟨s253.chip, 0, (by decide +kernel)⟩⟩

theorem witness_WriteSetsCommitAndRoutinesEnd_3 :
    (∃ (s : State) (x : Fin 1024), s.chip.power.vin = true ∧ ((s.chip.ctx x).st = 0 ∨ ((s.chip.ctx x).st = 5
    ∧ (s.chip.ctx x).endSt ≠ 0))) ∧ (∃ (s : State) (x : Fin 1024), s.chip.power.vin = true ∧ (s.chip.ctx x).st = 5
    ∧ (s.chip.ctx x).endSt = 0) ∧ (∃ (s : State) (x : Fin 1024), s.chip.power.vin = true ∧ 1 ≤ (s.chip.ctx x).st
    ∧ (s.chip.ctx x).st ≤ 4) ∧ (∃ (c : Chip) (x : Nat), (c.ctx x).free = true) :=
  ⟨⟨s0, 0, (by decide +kernel)⟩, ⟨s254, 0, (by decide +kernel)⟩, ⟨s139, 0, (by decide +kernel)⟩, ⟨s0.chip, 0,
  (by decide +kernel)⟩⟩

theorem witness_WriteSetsCommitAndRoutinesEnd_4 :
    ∃ (c : Chip) (x : Nat), (c.ctx x).free = false :=
  ⟨s139.chip, 0, (by decide +kernel)⟩

theorem witness_DispatcherBindsOffersAndGates :
    (∃ (s : State) (k : Fin 16), s.chip.power.vin = true ∧ s.chip.eligible k = false)
    ∧ (∃ (s : State) (k : Fin 16) (x : Nat) (q : Nat) (cr : SMap Nat) (pt : SMap Nat) (b : Bound) (r : List Bound),
    s.chip.power.vin = true ∧ s.chip.eligible k = true ∧ s.chip.ctxPick k = some x ∧ s.chip.classPick k 8 = some (q, cr, pt)
    ∧ s.chip.waitingOf q = b :: r) ∧ (∃ (s : State) (x : Fin 1024), s.chip.power.vin = true ∧ (s.chip.ctx x).bound = none)
    ∧ (∃ (s : State) (x : Fin 1024) (b : Bound), s.chip.power.vin = true ∧ (s.chip.ctx x).bound = some b
    ∧ (s.chip.ctx x).st = 5 ∧ (s.chip.ctx x).endSt = 1 ∧ (s.chip.ctx x).endCode = abStopped) :=
  ⟨⟨s0, 0, (by decide +kernel)⟩, ⟨s259, 0, (s259.chip.ctxPick 0).get (by decide +kernel), 0, [], [],
  (s259.chip.waitingOf 0).head (by decide +kernel), (s259.chip.waitingOf 0).tail, (by decide +kernel), (by decide +kernel),
  (Option.some_get (by decide +kernel)).symm, (by decide +kernel), (List.cons_head_tail (by decide +kernel)).symm⟩, ⟨s0, 0,
  (by decide +kernel)⟩, ⟨s255, 0, ((s255.chip.ctx 0).bound).get (by decide +kernel), (by decide +kernel),
  (Option.some_get (by decide +kernel)).symm, (by decide +kernel)⟩⟩

theorem witness_DispatcherBindsOffersAndGates_2 :
    (∃ (s : State) (x : Fin 1024) (b : Bound), s.chip.power.vin = true ∧ (s.chip.ctx x).bound = some b
    ∧ (s.chip.ctx x).st = 5 ∧ (s.chip.ctx x).endSt = 0 ∧ itemKind b.item = 8) ∧ (∃ (s : State) (n : Fin 64),
    s.chip.power.vin = true ∧ s.chip.flag F.WDS_TMR_CTRL.ENABLE n = false) ∧ (∃ (s : State) (n : Fin 64),
    s.chip.power.vin = true ∧ s.chip.flag F.WDS_TMR_CTRL.ENABLE n = true ∧ smFind s.chip.wds.tmrHeld n = none)
    ∧ (∃ (s : State) (q : Fin 64) (h : Bool), s.chip.power.vin = true
    ∧ ((s.chip.putF F.WDS_HPOST_CTRL.CLASS q).putF F.WDS_HPOST_CTRL.HASH (b2n h)).classPresent q = false) :=
  ⟨⟨s254, 0, ((s254.chip.ctx 0).bound).get (by decide +kernel), (by decide +kernel),
  (Option.some_get (by decide +kernel)).symm, (by decide +kernel)⟩, ⟨s0, 0, (by decide +kernel)⟩, ⟨s261, 0,
  (by decide +kernel)⟩, ⟨s0, 0, false, (by decide +kernel)⟩⟩

theorem witness_DispatcherBindsOffersAndGates_3 :
    (∃ (s : State) (q : Fin 64) (d : Chip), s.chip.power.vin = true
    ∧ ((s.chip.putF F.WDS_HPOST_CTRL.CLASS q).putF F.WDS_HPOST_CTRL.HASH 0).classPresent q = true
    ∧ itemKind (((s.chip.putF F.WDS_HPOST_CTRL.CLASS q).putF F.WDS_HPOST_CTRL.HASH 0).getBytes F.WDS_HPOST_DATA.V.base 64) = 8
    ∧ ((s.chip.putF F.WDS_HPOST_CTRL.CLASS q).putF F.WDS_HPOST_CTRL.HASH 0).flag F.WDS_CL_SCHED.HOSTPOST q = true
    ∧ ((s.chip.putF F.WDS_HPOST_CTRL.CLASS q).putF F.WDS_HPOST_CTRL.HASH 0).offer q (((s.chip.putF F.WDS_HPOST_CTRL.CLASS q).putF F.WDS_HPOST_CTRL.HASH 0).getBytes F.WDS_HPOST_DATA.V.base 64) none = (.accepted,
    d)) ∧ (∃ (c : Chip) (q : Nat), c.classPresent q = false) ∧ (∃ (c : Chip) (q : Nat) (a : Option Bytes),
    c.classPresent q = true ∧ c.classFull q a.isSome ≠ 0) ∧ (∃ (s : State) (q : Fin 64), s.chip.power.vin = true
    ∧ s.chip.wds.wakes.any (fun e => e.2 == q.val) = true) :=
  ⟨⟨s262, 0,
  (((s262.chip.putF F.WDS_HPOST_CTRL.CLASS 0).putF F.WDS_HPOST_CTRL.HASH 0).offer 0 (((s262.chip.putF F.WDS_HPOST_CTRL.CLASS 0).putF F.WDS_HPOST_CTRL.HASH 0).getBytes F.WDS_HPOST_DATA.V.base 64) none).2,
  (by decide +kernel), (by decide +kernel), (by decide +kernel), (by decide +kernel), (Prod.ext (by decide +kernel) rfl)⟩,
  ⟨s0.chip, 0, (by decide +kernel)⟩, ⟨s259.chip, 0, (none : Option Bytes), (by decide +kernel)⟩, ⟨s264, 0,
  (by decide +kernel)⟩⟩

theorem witness_DispatcherBindsOffersAndGates_4 :
    (∃ (s : State) (q : Fin 64) (k : Nat), s.chip.power.vin = true ∧ s.chip.wds.wakes.any (fun e => e.2 == q.val) = false
    ∧ ((((List.range 16).filter (fun k₀ => bitOf k₀ (s.chip.getF F.WDS_CL_ENTRY.CLUSTERS q))).filter s.chip.eligible).map (fun k₀ => 64 - s.chip.busy k₀)).foldl (· + ·) 0 < (s.chip.waitingOf q).length
    ∧ ((List.range 16).filter (fun k₀ => bitOf k₀ (s.chip.getF F.WDS_CL_ENTRY.CLUSTERS q))).find? (fun k₀ => !bitOf k₀ (s.chip.getF F.WDS_CL_AWAKE.V) && !s.chip.flag F.ACT_CL_CTRL.HOLD k₀ && !s.chip.clusterHeld k₀ && !s.chip.wds.wakes.any (fun e => e.1 == k₀)) = some k)
    ∧ (∃ (s : State) (k : Fin 16), s.chip.power.vin = true ∧ s.chip.wds.wakes.any (fun e => e.1 == k.val) = true)
    ∧ (∃ (s : State) (k : Fin 16), s.chip.power.vin = true ∧ bitOf k (s.chip.getF F.WDS_CL_AWAKE.V) = true
    ∧ s.chip.flag F.WDS_CTRL.NO_GATE = false ∧ s.chip.busy k = 0) ∧ (∃ (s : State) (e : Fin 128), s.chip.power.vin = true
    ∧ (s.chip.eng e).setupHead = none) :=
  ⟨⟨s260, 0,
  (((List.range 16).filter (fun k₀ => bitOf k₀ (s260.chip.getF F.WDS_CL_ENTRY.CLUSTERS 0))).find? (fun k₀ =>       !bitOf k₀ (s260.chip.getF F.WDS_CL_AWAKE.V) && !s260.chip.flag F.ACT_CL_CTRL.HOLD k₀ && !s260.chip.clusterHeld k₀ &&         !s260.chip.wds.wakes.any (fun e => e.1 == k₀))).get (by decide +kernel),
  (by decide +kernel), (by decide +kernel), (by decide +kernel), (Option.some_get (by decide +kernel)).symm⟩, ⟨s264, 0,
  (by decide +kernel)⟩, ⟨s259, 0, (by decide +kernel)⟩, ⟨s0, 0, (by decide +kernel)⟩⟩

theorem witness_DispatcherBindsOffersAndGates_5 :
    (∃ (s : State) (e : Fin 128) (x : FSetup) (d : Chip), s.chip.power.vin = true ∧ (s.chip.eng e).setupHead = some x
    ∧ s.chip.offer (tpSetupClass (s.chip.tpl x.op.tmpl)) (s.chip.setupItem x.op x.tag) none = (.accepted, d))
    ∧ (∃ (s : State), s.chip.power.vin = true ∧ s.chip.flag F.FLE_SWEEP_CTRL.ENABLE = false) ∧ (∃ (s : State),
    s.chip.power.vin = true ∧ s.chip.flag F.FLE_SWEEP_CTRL.ENABLE = true ∧ s.chip.flowPresent = true) :=
  ⟨⟨s128, 0, ((s128.chip.eng 0).setupHead).get (by decide +kernel),
  (s128.chip.offer (tpSetupClass (s128.chip.tpl (((s128.chip.eng 0).setupHead).get (by decide +kernel)).op.tmpl)) (s128.chip.setupItem (((s128.chip.eng 0).setupHead).get (by decide +kernel)).op (((s128.chip.eng 0).setupHead).get (by decide +kernel)).tag) none).2,
  (by decide +kernel), (Option.some_get (by decide +kernel)).symm, (Prod.ext (by decide +kernel) rfl)⟩, ⟨s0,
  (by decide +kernel)⟩, ⟨s266, (by decide +kernel)⟩⟩

theorem witness_MemoryRequestsCompleteAndChannelsFreeze :
    (∃ (s : State) (r : Fin 8) (p : Nat), s.chip.power.vin = true
    ∧ reqDepth r ≤ (s.chip.hbm.queue.filter (fun q => q.req == r.val && q.port == p)).length)
    ∧ (∃ (s : State) (id : Nat) (q : DramReq), s.chip.power.vin = true
    ∧ s.chip.hbm.queue.find? (fun q₀ => q₀.id == id) = some q ∧ q.left ≠ []) ∧ (∃ (s : State) (id : Nat) (q : DramReq),
    s.chip.power.vin = true ∧ s.chip.hbm.queue.find? (fun q₀ => q₀.id == id) = some q ∧ q.left = [] ∧ q.write = true
    ∧ s.chip.hbm.queue.any (fun y => decide (y.id < id) && reqKey y == reqKey q && sameLine y.addr y.len q.addr q.len) = false)
    ∧ (∃ (s : State) (id : Nat) (q : DramReq), s.chip.power.vin = true
    ∧ s.chip.hbm.queue.find? (fun q₀ => q₀.id == id) = some q ∧ q.left = [] ∧ q.write = false
    ∧ s.chip.hbm.queue.any (fun y => decide (y.id < id) && reqKey y == reqKey q && sameLine y.addr y.len q.addr q.len) = false) :=
  ⟨⟨s267, 0, 0, (by decide +kernel)⟩, ⟨s267, 0, (s267.chip.hbm.queue.find? (fun q₀ => q₀.id == 0)).get (by decide +kernel),
  (by decide +kernel), (Option.some_get (by decide +kernel)).symm, (by decide +kernel)⟩, ⟨s269, 0,
  (s269.chip.hbm.queue.find? (fun q₀ => q₀.id == 0)).get (by decide +kernel), (by decide +kernel),
  (Option.some_get (by decide +kernel)).symm, (by decide +kernel)⟩, ⟨s270, 0,
  (s270.chip.hbm.queue.find? (fun q₀ => q₀.id == 0)).get (by decide +kernel), (by decide +kernel),
  (Option.some_get (by decide +kernel)).symm, (by decide +kernel)⟩⟩

theorem witness_MemoryRequestsCompleteAndChannelsFreeze_2 :
    (∃ (s : State) (g : Fin 192), s.chip.power.vin = true ∧ s.chip.chState (g / 2) = 5) ∧ (∃ (s : State) (g : Fin 192),
    s.chip.power.vin = true ∧ s.chip.chState (g / 2) ≠ 5 ∧ s.chip.stkState (g / 2 / 16) ≠ 4 ∧ 0 < (s.chip.pcSt g).must)
    ∧ (∃ (s : State) (g : Fin 192), s.chip.power.vin = true ∧ s.chip.chState (g / 2) = 0 ∧ (s.chip.pcSt g).batch = 0
    ∧ s.chip.hbm.queue = []) ∧ (∃ (c : Chip) (ch : Nat), c.chState ch = 2) :=
  ⟨⟨s276, 0, (by decide +kernel)⟩, ⟨s383, 0, (by decide +kernel)⟩, ⟨s271, 0, (by decide +kernel)⟩, ⟨s273.chip, 0,
  (by decide +kernel)⟩⟩

theorem witness_MemoryRequestsCompleteAndChannelsFreeze_3 :
    (∃ (c : Chip) (ch : Nat), ch < 96 ∧ c.chState ch ≠ 2) ∧ (∃ (s : State) (ch : Fin 96), s.chip.power.vin = true
    ∧ s.chip.recov = [] ∧ s.chip.chState ch ≠ 2) ∧ (∃ (s : State) (ch : Fin 96), s.chip.power.vin = true ∧ s.chip.recov = []
    ∧ s.chip.chState ch = 2) ∧ (∃ (s : State), s.chip.power.vin = true ∧ s.chip.flag F.HBM_FENCE.RUNNING = false) :=
  ⟨⟨s0.chip, 0, (by decide +kernel)⟩, ⟨s0, 0, (by decide +kernel)⟩, ⟨s273, 0, (by decide +kernel)⟩, ⟨s0,
  (by decide +kernel)⟩⟩

theorem witness_MemoryRequestsCompleteAndChannelsFreeze_4 :
    (∃ (s : State), s.chip.power.vin = true ∧ s.chip.flag F.HBM_FENCE.RUNNING = true ∧ s.chip.hbm.fence = [])
    ∧ (∃ (s : State), s.chip.power.vin = true ∧ s.chip.hbm.fence ≠ []) :=
  ⟨⟨s279, (by decide +kernel)⟩, ⟨s280, (by decide +kernel)⟩⟩

theorem witness_MemoryStacksTrainScrubAndSleep :
    (∃ (s : State), s.chip.power.vin = true ∧ s.chip.hbm.scrubQ = [] ∧ s.chip.flag F.HBM_CTRL.SCRUB_EN = false)
    ∧ (∃ (s : State), s.chip.power.vin = true ∧ s.chip.hbm.scrubQ = [] ∧ s.chip.flag F.HBM_CTRL.SCRUB_EN = true)
    ∧ (∃ (s : State) (a : Nat) (r : List Nat), s.chip.power.vin = true ∧ s.chip.hbm.scrubQ = a :: r ∧ s.chip.hbm.queue = [])
    ∧ (∃ (s : State) (g : Fin 192), s.chip.power.vin = true ∧ s.chip.chState (g / 2) = 0 ∧ s.chip.hbm.queue = []
    ∧ (s.chip.pcSt g).must = 0 ∧ (s.chip.pcSt g).batch = 0) :=
  ⟨⟨s0, (by decide +kernel)⟩, ⟨s281, (by decide +kernel)⟩, ⟨s282, (s282.chip.hbm.scrubQ).head (by decide +kernel),
  (s282.chip.hbm.scrubQ).tail, (by decide +kernel), (List.cons_head_tail (by decide +kernel)).symm, (by decide +kernel)⟩,
  ⟨s271, 0, (by decide +kernel)⟩⟩

theorem witness_MemoryStacksTrainScrubAndSleep_2 :
    (∃ (s : State) (g : Fin 192), s.chip.power.vin = true ∧ s.chip.inPd g = true) ∧ (∃ (s : State) (g : Fin 192),
    s.chip.power.vin = true ∧ s.chip.inPd g = false) ∧ (∃ (s : State), s.chip.power.vin = true
    ∧ s.chip.flag F.HBM_CTRL.SR_EN = false) ∧ (∃ (s : State) (ch : Fin 96), s.chip.power.vin = true
    ∧ s.chip.flag F.HBM_CTRL.SR_EN = true ∧ s.chip.chState ch = 0 ∧ s.chip.hbm.queue = []) :=
  ⟨⟨s283, 0, (by decide +kernel)⟩, ⟨s0, 0, (by decide +kernel)⟩, ⟨s0, (by decide +kernel)⟩, ⟨s284, 0, (by decide +kernel)⟩⟩

theorem witness_MemoryStacksTrainScrubAndSleep_3 :
    (∃ (s : State) (ch : Fin 96), s.chip.power.vin = true ∧ s.chip.chState ch = 5) ∧ (∃ (s : State) (k : Fin 6),
    s.chip.power.vin = true ∧ s.chip.stkState k = 2) ∧ (∃ (s : State) (k : Fin 6), s.chip.power.vin = true
    ∧ s.chip.stkState k ≠ 2) ∧ (∃ (s : State) (ch : Fin 96) (ms : List Nat), s.chip.power.vin = true ∧ s.chip.chState ch = 1
    ∧ (s.chip.trainResult ch ms).1 = true) :=
  ⟨⟨s276, 0, (by decide +kernel)⟩, ⟨s285, 0, (by decide +kernel)⟩, ⟨s0, 0, (by decide +kernel)⟩, ⟨s0, 0,
  List.replicate 16 (2 ^ 40 - 1), (by decide +kernel)⟩⟩

theorem witness_MemoryStacksTrainScrubAndSleep_4 :
    (∃ (s : State) (ch : Fin 96) (ms : List Nat), s.chip.power.vin = true ∧ s.chip.chState ch = 1
    ∧ (s.chip.trainResult ch ms).1 = false) ∧ (∃ (m : Nat), (longestRun m).2 < 16) ∧ (∃ (m : Nat), 16 ≤ ((longestRun m).2))
    ∧ (∃ (s : State), s.chip.power.vin = true ∧ s.chip.flag F.HBM_CTRL.TRACK_EN = false) :=
  ⟨⟨s0, 0, [], (by decide +kernel)⟩, ⟨0, (by decide +kernel)⟩, ⟨2 ^ 64 - 1, (by decide +kernel)⟩, ⟨s0, (by decide +kernel)⟩⟩

theorem witness_MemoryStacksTrainScrubAndSleep_5 :
    (∃ (s : State) (g : Fin 192), s.chip.power.vin = true ∧ s.chip.flag F.HBM_CTRL.TRACK_EN = true
    ∧ s.chip.chState (g / 2) = 0) ∧ (∃ (s : State), s.chip.power.vin = true ∧ s.chip.tripped = true)
    ∧ (∃ (s : State) (k : Fin 6) (r : Fin 4), s.chip.power.vin = true
    ∧ (s.chip.putF F.HBM_STK_CTRL.RATE r k).tripped = false) ∧ (∃ (s : State) (k : Fin 6), s.chip.power.vin = true
    ∧ smFind s.chip.hbm.changing k = none) :=
  ⟨⟨s287, 0, (by decide +kernel)⟩, ⟨s57, (by decide +kernel)⟩, ⟨s0, 0, 0, (by decide +kernel)⟩, ⟨s0, 0,
  (by decide +kernel)⟩⟩

theorem witness_MemoryStacksTrainScrubAndSleep_6 :
    ∃ (s : State) (k : Fin 6) (r : Nat), s.chip.power.vin = true ∧ smFind s.chip.hbm.changing k = some r :=
  ⟨s289, 0, (smFind s289.chip.hbm.changing 0).get (by decide +kernel), (by decide +kernel),
  (Option.some_get (by decide +kernel)).symm⟩

theorem witness_AdmissionResidueAndRecirculation :
    (∃ (s : State) (pid : Nat) (p : Pkt), s.chip.power.vin = true ∧ s.chip.pkt pid = some p
    ∧ (p.stage ≠ .ready ∨ s.chip.admBlocked pid p = true)) ∧ (∃ (s : State) (pid : Nat) (p : Pkt), s.chip.power.vin = true
    ∧ s.chip.pkt pid = some p ∧ p.stage = .ready ∧ s.chip.admBlocked pid p = false) ∧ (∃ (c : Chip) (p : Pkt) (port : Nat),
    c.mayForward (c.srcZone p) (c.portZone port) = false) ∧ (∃ (c : Chip) (p : Pkt) (port : Nat),
    c.mayForward (c.srcZone p) (c.portZone port) = true ∧ port < 512 ∧ c.flag F.PRT_CFG.ENABLE port = true
    ∧ c.portPresent port = true ∧ c.portUp port = false) :=
  ⟨⟨s59, 0, (s59.chip.pkt 0).get (by decide +kernel), (by decide +kernel), (Option.some_get (by decide +kernel)).symm,
  (by decide +kernel)⟩, ⟨s290, 0, (s290.chip.pkt 0).get (by decide +kernel), (by decide +kernel),
  (Option.some_get (by decide +kernel)).symm, (by decide +kernel)⟩, ⟨s0.chip, tPacket, 0, (by decide +kernel)⟩, ⟨s291.chip,
  tPacket, 0, (by decide +kernel)⟩⟩

theorem witness_AdmissionResidueAndRecirculation_2 :
    (∃ (c : Chip) (p : Pkt) (port : Nat) (q : Nat) (n : Nat) (m : Nat), c.mayForward (c.srcZone p) (c.portZone port) = true
    ∧ port < 512 ∧ c.flag F.PRT_CFG.ENABLE port = true ∧ c.portPresent port = true ∧ c.portUp port = true
    ∧ c.dtPass q n m = true) ∧ (∃ (c : Chip) (p : Pkt) (port : Nat) (q : Nat) (n : Nat) (m : Nat),
    c.mayForward (c.srcZone p) (c.portZone port) = true ∧ port < 512 ∧ c.flag F.PRT_CFG.ENABLE port = true
    ∧ c.portPresent port = true ∧ c.portUp port = true ∧ c.dtPass q n m = false ∧ c.lossless p = false)
    ∧ (∃ (s : State) (p : Fin 512), s.chip.power.vin = true ∧ s.chip.oldestResidue p = none)
    ∧ (∃ (s : State) (p : Fin 512) (pid : Nat) (k : Copy) (c : Chip), s.chip.power.vin = true
    ∧ s.chip.oldestResidue p = some (pid, k) ∧ s.chip.residueTry pid k.cid k = some c) :=
  ⟨⟨s292.chip, tPacket, 0, 0, 0, 0, (by decide +kernel)⟩, ⟨s292.chip, tPacket, 0, 0, 0, 1, (by decide +kernel)⟩, ⟨s0, 0,
  (by decide +kernel)⟩, ⟨s294, 0, ((s294.chip.oldestResidue 0).get (by decide +kernel)).1,
  ((s294.chip.oldestResidue 0).get (by decide +kernel)).2,
  (s294.chip.residueTry (((s294.chip.oldestResidue 0).get (by decide +kernel)).1) (((s294.chip.oldestResidue 0).get (by decide +kernel)).2).cid (((s294.chip.oldestResidue 0).get (by decide +kernel)).2)).get (by decide +kernel),
  (by decide +kernel), (Option.some_get (by decide +kernel)).symm, (Option.some_get (by decide +kernel)).symm⟩⟩

theorem witness_AdmissionResidueAndRecirculation_3 :
    (∃ (s : State) (pid : Nat) (cid : Nat), s.chip.power.vin = true ∧ s.chip.residueCopy pid cid = none)
    ∧ (∃ (s : State) (pid : Nat) (cid : Nat) (k : Copy) (c : Chip), s.chip.power.vin = true
    ∧ s.chip.residueCopy pid cid = some k ∧ s.chip.residueTry pid cid k = some c) ∧ (∃ (s : State) (pid : Nat) (p : Pkt),
    s.chip.power.vin = true ∧ s.chip.pkt pid = some p ∧ p.stage = .recircWait ∧ p.tail = 1
    ∧ 1024 ≤ (smGet (fun _ => []) s.chip.tm.recirc p.slice).length) ∧ (∃ (s : State) (pid : Nat) (p : Pkt),
    s.chip.power.vin = true ∧ s.chip.pkt pid = some p ∧ p.stage = .recircWait ∧ p.tail = 1
    ∧ (smGet (fun _ => []) s.chip.tm.recirc p.slice).length < 1024) :=
  ⟨⟨s0, 0, 0, (by decide +kernel)⟩, ⟨s294, 0, 0, (s294.chip.residueCopy 0 0).get (by decide +kernel),
  (s294.chip.residueTry 0 0 ((s294.chip.residueCopy 0 0).get (by decide +kernel))).get (by decide +kernel),
  (by decide +kernel), (Option.some_get (by decide +kernel)).symm, (Option.some_get (by decide +kernel)).symm⟩, ⟨s296, 0,
  (s296.chip.pkt 0).get (by decide +kernel), (by decide +kernel), (Option.some_get (by decide +kernel)).symm,
  (by decide +kernel)⟩, ⟨s295, 0, (s295.chip.pkt 0).get (by decide +kernel), (by decide +kernel),
  (Option.some_get (by decide +kernel)).symm, (by decide +kernel)⟩⟩

theorem witness_AdmissionResidueAndRecirculation_4 :
    (∃ (s : State) (k : Fin 16), s.chip.power.vin = true ∧ smGet (fun _ => []) s.chip.tm.recirc k.val = [])
    ∧ (∃ (s : State) (k : Fin 16) (pid : Nat) (pipe : Nat) (r : List Nat), s.chip.power.vin = true
    ∧ smGet (fun _ => []) s.chip.tm.recirc k.val = pid :: r ∧ s.chip.pickPipe k = some pipe) ∧ (∃ (s : State) (p : Fin 512),
    s.chip.power.vin = true ∧ (s.chip.portSt p).txBusy ≠ none) ∧ (∃ (s : State) (p : Fin 512), s.chip.power.vin = true
    ∧ (s.chip.portSt p).txBusy = none ∧ smGet (fun _ => 0) s.chip.tm.pfcDue p.val = 0) :=
  ⟨⟨s0, 0, (by decide +kernel)⟩, ⟨s296, 0,
  (smGet (fun _ => []) s296.chip.tm.recirc (0 : Fin 16).val).head (by decide +kernel),
  (s296.chip.pickPipe 0).get (by decide +kernel), (smGet (fun _ => []) s296.chip.tm.recirc (0 : Fin 16).val).tail,
  (by decide +kernel), (List.cons_head_tail (by decide +kernel)).symm, (Option.some_get (by decide +kernel)).symm⟩, ⟨s25, 0,
  (by decide +kernel)⟩, ⟨s0, 0, (by decide +kernel)⟩⟩

theorem witness_AdmissionResidueAndRecirculation_5 :
    (∃ (s : State) (p : Fin 512), s.chip.power.vin = true ∧ (s.chip.portSt p).txBusy = none
    ∧ (smGet (fun _ => 0) s.chip.tm.pfcDue p.val) ≠ 0) ∧ (∃ (s : State) (p : Fin 512), s.chip.power.vin = true
    ∧ s.chip.getF F.TMG_PORT_PFC.STATE p = 0) ∧ (∃ (s : State) (p : Fin 512), s.chip.power.vin = true
    ∧ s.chip.getF F.TMG_PORT_PFC.STATE p ≠ 0) ∧ (∃ (s : State) (d : Fin 4) (h : Fin 262144), s.chip.power.vin = true
    ∧ s.chip.bindingOf d h = none) :=
  ⟨⟨s299, 0, (by decide +kernel)⟩, ⟨s0, 0, (by decide +kernel)⟩, ⟨s300, 0, (by decide +kernel)⟩, ⟨s0, 0, 0,
  (by decide +kernel)⟩⟩

theorem witness_AdmissionResidueAndRecirculation_6 :
    (∃ (s : State) (d : Fin 4) (h : Fin 262144) (q : Nat) (b : Binding), s.chip.power.vin = true
    ∧ s.chip.bindingOf d h = some (q, b) ∧ b.state ≠ 1)
    ∧ (∃ (s : State) (d : Fin 4) (h : Fin 262144) (q : Nat) (b : Binding), s.chip.power.vin = true
    ∧ s.chip.bindingOf d h = some (q, b) ∧ b.state = 1 ∧ smFind s.chip.tm.marks (s.chip.classQueue b.port b.cls) = none) :=
  ⟨⟨s301, 0, 0, ((s301.chip.bindingOf 0 0).get (by decide +kernel)).1,
  ((s301.chip.bindingOf 0 0).get (by decide +kernel)).2, (by decide +kernel), (Option.some_get (by decide +kernel)).symm,
  (by decide +kernel)⟩, ⟨s302, 0, 0, ((s302.chip.bindingOf 0 0).get (by decide +kernel)).1,
  ((s302.chip.bindingOf 0 0).get (by decide +kernel)).2, (by decide +kernel), (Option.some_get (by decide +kernel)).symm,
  (by decide +kernel)⟩⟩

theorem witness_SchedulerShapersGatesAndObservation :
    (∃ (s : State) (p : Fin 512), s.chip.power.vin = true ∧ s.chip.mayBegin p = false) ∧ (∃ (s : State) (p : Fin 512),
    s.chip.power.vin = true ∧ s.chip.mayBegin p = true) ∧ (∃ (s : State) (p : Fin 512), s.chip.power.vin = true
    ∧ (s.chip.portSt p).txBusy = none) ∧ (∃ (s : State) (p : Fin 512) (pid : Nat) (cid : Nat) (x : Pkt) (k : Copy),
    s.chip.power.vin = true ∧ (s.chip.portSt p).txBusy = some (pid, cid) ∧ s.chip.pkt pid = some x
    ∧ x.copies.find? (fun k₀ => k₀.cid == cid) = some k ∧ x.tail = 1) :=
  ⟨⟨s0, 0, (by decide +kernel)⟩, ⟨s52, 0, (by decide +kernel)⟩, ⟨s0, 0, (by decide +kernel)⟩, ⟨s304, 0,
  (((s304.chip.portSt 0).txBusy).get (by decide +kernel)).1, (((s304.chip.portSt 0).txBusy).get (by decide +kernel)).2,
  (s304.chip.pkt ((((s304.chip.portSt 0).txBusy).get (by decide +kernel)).1)).get (by decide +kernel),
  (((s304.chip.pkt ((((s304.chip.portSt 0).txBusy).get (by decide +kernel)).1)).get (by decide +kernel)).copies.find? (fun k₀ => k₀.cid == ((((s304.chip.portSt 0).txBusy).get (by decide +kernel)).2))).get (by decide +kernel),
  (by decide +kernel), (Option.some_get (by decide +kernel)).symm, (Option.some_get (by decide +kernel)).symm,
  (Option.some_get (by decide +kernel)).symm, (by decide +kernel)⟩⟩

theorem witness_SchedulerShapersGatesAndObservation_2 :
    (∃ (s : State) (p : Fin 512) (pid : Nat) (cid : Nat) (x : Pkt) (k : Copy), s.chip.power.vin = true
    ∧ (s.chip.portSt p).txBusy = some (pid, cid) ∧ s.chip.pkt pid = some x
    ∧ x.copies.find? (fun k₀ => k₀.cid == cid) = some k ∧ x.tail ≠ 1) ∧ (∃ (s : State) (n : Nat), s.chip.power.vin = true
    ∧ s.chip.getF F.SCH_Q_INFO.KIND n = 0) ∧ (∃ (s : State) (n : Nat), s.chip.power.vin = true
    ∧ s.chip.getF F.SCH_Q_INFO.KIND n ≠ 0) ∧ (∃ (s : State), s.chip.power.vin = true ∧ s.chip.timeValid = false) :=
  ⟨⟨s305, 0, (((s305.chip.portSt 0).txBusy).get (by decide +kernel)).1,
  (((s305.chip.portSt 0).txBusy).get (by decide +kernel)).2,
  (s305.chip.pkt ((((s305.chip.portSt 0).txBusy).get (by decide +kernel)).1)).get (by decide +kernel),
  (((s305.chip.pkt ((((s305.chip.portSt 0).txBusy).get (by decide +kernel)).1)).get (by decide +kernel)).copies.find? (fun k₀ => k₀.cid == ((((s305.chip.portSt 0).txBusy).get (by decide +kernel)).2))).get (by decide +kernel),
  (by decide +kernel), (Option.some_get (by decide +kernel)).symm, (Option.some_get (by decide +kernel)).symm,
  (Option.some_get (by decide +kernel)).symm, (by decide +kernel)⟩, ⟨s0, 0, (by decide +kernel)⟩, ⟨s306, 0,
  (by decide +kernel)⟩, ⟨s0, (by decide +kernel)⟩⟩

theorem witness_SchedulerShapersGatesAndObservation_3 :
    (∃ (s : State) (p : Fin 512), s.chip.power.vin = true ∧ s.chip.timeValid = true
    ∧ s.chip.getF F.SCH_GATE_ADMIN_LEN.V p = 0 ∧ s.chip.getF F.SCH_GATE_ADMIN_CYCLE.V p ≠ 0 ∧ (s.chip.gateSt p).pend = none
    ∧ (s.chip.gateStart (s.chip.getQ F.SCH_GATE_ADMIN_BASE.V p) (s.chip.getF F.SCH_GATE_ADMIN_CYCLE.V p) false).2 = stOk)
    ∧ (∃ (s : State) (p : Fin 512), s.chip.power.vin = true ∧ (s.chip.gateSt p).pend ≠ none)
    ∧ (∃ (s : State) (p : Fin 512) (l : GateList), s.chip.power.vin = true ∧ (s.chip.gateSt p).pend = some l
    ∧ s.chip.due l.base = true) ∧ (∃ (s : State) (p : Fin 512) (l : GateList), s.chip.power.vin = true
    ∧ (s.chip.gateSt p).oper = some l ∧ l.oneshot = true ∧ s.chip.due ((l.base + l.cycle * 2 ^ 16) % 2 ^ 64) = true) :=
  ⟨⟨s307, 0, (by decide +kernel)⟩, ⟨s308, 0, (by decide +kernel)⟩, ⟨s308, 0,
  ((s308.chip.gateSt 0).pend).get (by decide +kernel), (by decide +kernel), (Option.some_get (by decide +kernel)).symm,
  (by decide +kernel)⟩, ⟨s309, 0, ((s309.chip.gateSt 0).oper).get (by decide +kernel), (by decide +kernel),
  (Option.some_get (by decide +kernel)).symm, (by decide +kernel)⟩⟩

theorem witness_SchedulerShapersGatesAndObservation_4 :
    (∃ (s : State), s.chip.power.vin = true ∧ s.chip.watchMode = true) ∧ (∃ (s : State), s.chip.power.vin = true
    ∧ s.chip.watchMode = false ∧ s.chip.tm.qCells = []) ∧ (∃ (s : State) (b : Bool), s.chip.power.vin = true
    ∧ (s.chip.putF F.SCH_OBS_CTRL.MODE (b2n b)).watchMode = s.chip.watchMode) ∧ (∃ (s : State) (b : Bool),
    s.chip.power.vin = true ∧ (s.chip.putF F.SCH_OBS_CTRL.MODE (b2n b)).watchMode ≠ s.chip.watchMode) :=
  ⟨⟨s0, (by decide +kernel)⟩, ⟨s384, (by decide +kernel)⟩, ⟨s0, false, (by decide +kernel)⟩, ⟨s0, true,
  (by decide +kernel)⟩⟩

theorem witness_CountersStatisticsAndTestStrips :
    (∃ (s : State) (pid : Nat), s.chip.power.vin = true ∧ s.chip.pkt pid = none)
    ∧ (∃ (s : State) (pid : Nat) (p : Pkt) (x : Strip), s.chip.power.vin = true ∧ s.chip.pkt pid = some p ∧ p.strip = some x
    ∧ x.timedOut = true) ∧ (∃ (s : State) (pid : Nat) (p : Pkt) (x : Strip), s.chip.power.vin = true
    ∧ s.chip.pkt pid = some p ∧ p.strip = some x ∧ x.timedOut = false) ∧ (∃ (c : Chip) (pid : Nat) (p : Pkt),
    c.pkt pid = some p ∧ c.flag F.TEL_TS_CTRL.ENABLE = false) :=
  ⟨⟨s0, 0, (by decide +kernel)⟩, ⟨s310, 0, (s310.chip.pkt 0).get (by decide +kernel),
  (((s310.chip.pkt 0).get (by decide +kernel)).strip).get (by decide +kernel), (by decide +kernel),
  (Option.some_get (by decide +kernel)).symm, (Option.some_get (by decide +kernel)).symm, (by decide +kernel)⟩, ⟨s311, 0,
  (s311.chip.pkt 0).get (by decide +kernel), (((s311.chip.pkt 0).get (by decide +kernel)).strip).get (by decide +kernel),
  (by decide +kernel), (Option.some_get (by decide +kernel)).symm, (Option.some_get (by decide +kernel)).symm,
  (by decide +kernel)⟩, ⟨s59.chip, 0, (s59.chip.pkt 0).get (by decide +kernel), (Option.some_get (by decide +kernel)).symm,
  (by decide +kernel)⟩⟩

theorem witness_FlowRecordsAreExportedInOrder :
    (∃ (c : Chip), c.flag F.TEL_EXP_CTRL.ENABLE = false) ∧ (∃ (c : Chip), c.flag F.TEL_EXP_CTRL.ENABLE = true
    ∧ c.tel.expQ.length < 65536) ∧ (∃ (c : Chip), c.flag F.TEL_EXP_CTRL.ENABLE = true ∧ 65536 ≤ c.tel.expQ.length)
    ∧ (∃ (s : State), s.chip.power.vin = true ∧ s.chip.flag F.TEL_EXP_CTRL.ENABLE = false) :=
  ⟨⟨s0.chip, (by decide +kernel)⟩, ⟨s312.chip, (by decide +kernel)⟩, ⟨s313.chip, (by decide +kernel)⟩, ⟨s0,
  (by decide +kernel)⟩⟩

theorem witness_FlowRecordsAreExportedInOrder_2 :
    (∃ (s : State) (e : Fin 128), s.chip.power.vin = true ∧ s.chip.flag F.TEL_EXP_CTRL.ENABLE = true
    ∧ s.chip.getF F.TEL_EXP_ACTIVE.V ≠ 0 ∧ s.chip.flowPresent = true ∧ s.chip.engineHeld e = false
    ∧ (smGet (fun _ => 0) s.chip.tel.scanPos e.val) < s.chip.nbuckets ∧ s.chip.tel.expQ.length + 8 ≤ 65536
    ∧ s.chip.bankGated e = false) ∧ (∃ (s : State), s.chip.power.vin = true ∧ s.chip.tel.expQ = [])
    ∧ (∃ (s : State) (x : ExpRec) (r : List ExpRec), s.chip.power.vin = true ∧ s.chip.tel.expQ = x :: r
    ∧ s.chip.getF F.TEL_EXP_RATE.V = 0 ∧ s.chip.flag F.TEL_EXP_CTRL.MODE = false)
    ∧ (∃ (s : State) (x : ExpRec) (r : List ExpRec) (c : Chip), s.chip.power.vin = true ∧ s.chip.tel.expQ = x :: r
    ∧ s.chip.getF F.TEL_EXP_RATE.V = 0 ∧ s.chip.flag F.TEL_EXP_CTRL.MODE = true
    ∧ s.chip.offer (s.chip.getF F.TEL_EXP_CTRL.CLASS) (exportItem x) none = (.accepted, c)) :=
  ⟨⟨s314, 0, (by decide +kernel)⟩, ⟨s0, (by decide +kernel)⟩, ⟨s313, (s313.chip.tel.expQ).head (by decide +kernel),
  (s313.chip.tel.expQ).tail, (by decide +kernel), (List.cons_head_tail (by decide +kernel)).symm, (by decide +kernel)⟩,
  ⟨s316, (s316.chip.tel.expQ).head (by decide +kernel), (s316.chip.tel.expQ).tail,
  (s316.chip.offer (s316.chip.getF F.TEL_EXP_CTRL.CLASS) (exportItem ((s316.chip.tel.expQ).head (by decide +kernel))) none).2,
  (by decide +kernel), (List.cons_head_tail (by decide +kernel)).symm, (by decide +kernel), (by decide +kernel),
  (Prod.ext (by decide +kernel) rfl)⟩⟩

theorem witness_FlowRecordsAreExportedInOrder_3 :
    (∃ (s : State) (x : ExpRec) (r : List ExpRec), s.chip.power.vin = true ∧ s.chip.tel.expQ = x :: r
    ∧ s.chip.expTake.1 = false) ∧ (∃ (s : State), s.chip.power.vin = true ∧ s.chip.tel.expMsg = []) ∧ (∃ (s : State),
    s.chip.power.vin = true ∧ s.chip.tel.expMsg ≠ []) ∧ (∃ (s : State), s.chip.power.vin = true
    ∧ s.chip.flag F.TEL_EXP_CTRL.TRANSPORT = false) :=
  ⟨⟨s317, (s317.chip.tel.expQ).head (by decide +kernel), (s317.chip.tel.expQ).tail, (by decide +kernel),
  (List.cons_head_tail (by decide +kernel)).symm, (by decide +kernel)⟩, ⟨s0, (by decide +kernel)⟩, ⟨s318,
  (by decide +kernel)⟩, ⟨s0, (by decide +kernel)⟩⟩

theorem witness_FlowRecordsAreExportedInOrder_4 :
    ∃ (s : State), s.chip.power.vin = true ∧ s.chip.flag F.TEL_EXP_CTRL.TRANSPORT = true :=
  ⟨s319, (by decide +kernel)⟩

theorem witness_DramWindowReadsAndWrites :
    (∃ (s : State) (o : Fin 4294967296) (n : Nat), s.chip.power.vin = true ∧ s.chip.winAddr o + n ≤ trainBase)
    ∧ (∃ (c : Chip) (o : Nat), inReserved (c.winAddr o) = true) ∧ (∃ (c : Chip) (o : Nat), inReserved (c.winAddr o) = false
    ∧ c.inFlowTable (c.winAddr o) = true) ∧ (∃ (c : Chip) (f : Fld), f.addr 0 0 = F.HST_ERR_CAUSE.all.base
    ∧ c.getF F.HST_ERR_CAUSE.all ≠ 0) :=
  ⟨⟨s0, 0, 0, (by decide +kernel)⟩, ⟨s320.chip, 0, (by decide +kernel)⟩, ⟨s388.chip, 0, (by decide +kernel)⟩, ⟨s321.chip,
  F.HST_ERR_CAUSE.all, (by decide +kernel)⟩⟩

theorem witness_WindowCommandsReadWriteAndRefuse :
    (∃ (s : State) (w : Fin 4), s.chip.power.vin = true ∧ s.chip.flag F.HST_TW_STATUS.RUNNING w = true)
    ∧ (∃ (s : State) (w : Fin 4) (tb : Fin 256), s.chip.power.vin = true ∧ s.chip.flag F.HST_TW_STATUS.RUNNING w = false
    ∧ winTab tb = none) ∧ (∃ (s : State) (w : Fin 4) (tb : Fin 256) (x : WinTab), s.chip.power.vin = true
    ∧ s.chip.flag F.HST_TW_STATUS.RUNNING w = false ∧ winTab tb = some x ∧ tb ≠ 1 ∧ 2 ∉ x.ops)
    ∧ (∃ (s : State) (w : Fin 4) (tb : Fin 256) (x : WinTab), s.chip.power.vin = true
    ∧ s.chip.flag F.HST_TW_STATUS.RUNNING w = false ∧ winTab tb = some x ∧ tb ≠ 1 ∧ x.n ≤ s.chip.getF F.HST_TW_INDEX.V w) :=
  ⟨⟨s322, 0, (by decide +kernel)⟩, ⟨s0, 0, 0, (by decide +kernel)⟩, ⟨s0, 0, 2, (winTab 2).get (by decide +kernel),
  (by decide +kernel), (by decide +kernel), (Option.some_get (by decide +kernel)).symm, (by decide +kernel)⟩, ⟨s323, 0, 2,
  (winTab 2).get (by decide +kernel), (by decide +kernel), (by decide +kernel), (Option.some_get (by decide +kernel)).symm,
  (by decide +kernel)⟩⟩

theorem witness_WindowCommandsReadWriteAndRefuse_2 :
    (∃ (s : State) (w : Fin 4) (tb : Fin 256) (x : WinTab), s.chip.power.vin = true
    ∧ s.chip.flag F.HST_TW_STATUS.RUNNING w = false ∧ winTab tb = some x ∧ tb ≠ 1 ∧ (s.chip.getF F.HST_TW_INDEX.V w) < x.n)
    ∧ (∃ (s : State) (w : Fin 4) (tb : Fin 256) (x : WinTab), s.chip.power.vin = true
    ∧ s.chip.flag F.HST_TW_STATUS.RUNNING w = false ∧ winTab tb = some x ∧ tb ≠ 0x12 ∧ 2 ∈ x.ops
    ∧ (s.chip.getF F.HST_TW_INDEX.V w) < x.n
    ∧ s.chip.twRefusal tb (s.chip.getF F.HST_TW_INDEX.V w) (s.chip.getBytes (F.HST_TW_DATA.V.addr w 0) x.bytes) = none)
    ∧ (∃ (s : State) (w : Fin 4) (tb : Fin 256) (x : WinTab) (st : _) (r : _), s.chip.power.vin = true
    ∧ s.chip.flag F.HST_TW_STATUS.RUNNING w = false ∧ winTab tb = some x ∧ tb ≠ 0x12 ∧ 2 ∈ x.ops
    ∧ (s.chip.getF F.HST_TW_INDEX.V w) < x.n
    ∧ s.chip.twRefusal tb (s.chip.getF F.HST_TW_INDEX.V w) (s.chip.getBytes (F.HST_TW_DATA.V.addr w 0) x.bytes) = some (st,
    r) ∧ st ≠ stDenied) ∧ (∃ (s : State) (w : Fin 4) (tb : Fin 256) (x : WinTab) (r : _), s.chip.power.vin = true
    ∧ s.chip.flag F.HST_TW_STATUS.RUNNING w = false ∧ winTab tb = some x ∧ tb ≠ 0x12 ∧ 2 ∈ x.ops
    ∧ (s.chip.getF F.HST_TW_INDEX.V w) < x.n
    ∧ s.chip.twRefusal tb (s.chip.getF F.HST_TW_INDEX.V w) (s.chip.getBytes (F.HST_TW_DATA.V.addr w 0) x.bytes) = some (stDenied,
    r)) :=
  ⟨⟨s0, 0, 2, (winTab 2).get (by decide +kernel), (by decide +kernel), (by decide +kernel),
  (Option.some_get (by decide +kernel)).symm, (by decide +kernel)⟩, ⟨s0, 0, 3, (winTab 3).get (by decide +kernel),
  (by decide +kernel), (by decide +kernel), (Option.some_get (by decide +kernel)).symm, (by decide +kernel)⟩, ⟨s12, 0, 6,
  (winTab 6).get (by decide +kernel),
  ((s12.chip.twRefusal 6 (s12.chip.getF F.HST_TW_INDEX.V 0) (s12.chip.getBytes (F.HST_TW_DATA.V.addr 0 0) ((winTab 6).get (by decide +kernel)).bytes)).get (by decide +kernel)).1,
  ((s12.chip.twRefusal 6 (s12.chip.getF F.HST_TW_INDEX.V 0) (s12.chip.getBytes (F.HST_TW_DATA.V.addr 0 0) ((winTab 6).get (by decide +kernel)).bytes)).get (by decide +kernel)).2,
  (by decide +kernel), (by decide +kernel), (Option.some_get (by decide +kernel)).symm, (by decide +kernel),
  (by decide +kernel), (by decide +kernel), (Option.some_get (by decide +kernel)).symm, (by decide +kernel)⟩, ⟨s0, 0, 6,
  (winTab 6).get (by decide +kernel),
  ((s0.chip.twRefusal 6 (s0.chip.getF F.HST_TW_INDEX.V 0) (s0.chip.getBytes (F.HST_TW_DATA.V.addr 0 0) ((winTab 6).get (by decide +kernel)).bytes)).get (by decide +kernel)).2,
  (by decide +kernel), (by decide +kernel), (Option.some_get (by decide +kernel)).symm, (by decide +kernel)⟩⟩

theorem witness_WindowCommandsReadWriteAndRefuse_3 :
    (∃ (s : State) (w : Fin 4), s.chip.power.vin = true ∧ s.chip.flag F.HST_TW_STATUS.RUNNING w = false
    ∧ s.chip.flowPresent = true) ∧ (∃ (c : Chip) (w : Nat),
    c.ownerOf (c.h1Of (sliceB (c.getBytes (F.HST_TW_DATA.V.addr w 0) 128) 0 40)) = some c.ownDevice) :=
  ⟨⟨s122, 0, (by decide +kernel)⟩, ⟨s0.chip, 0, (by decide +kernel)⟩⟩

theorem witness_RingsInjectAndInterrupt :
    (∃ (s : State) (n : Fin 1024) (v : Fin 65536), s.chip.power.vin = true
    ∧ 2 ^ s.chip.getF F.HST_RING_CFG.SIZE_LOG2 n < (v.val + 2 ^ 16 - s.chip.getF F.HST_RING_HEAD.V n) % 2 ^ 16)
    ∧ (∃ (s : State) (n : Fin 1024) (v : Fin 65536), s.chip.power.vin = true
    ∧ (v.val + 2 ^ 16 - s.chip.getF F.HST_RING_HEAD.V n) % 2 ^ 16 ≤ 2 ^ s.chip.getF F.HST_RING_CFG.SIZE_LOG2 n)
    ∧ (∃ (s : State) (n : Fin 1024), s.chip.power.vin = true ∧ s.chip.flag F.HST_RING_CFG.ENABLE n = false)
    ∧ (∃ (s : State) (n : Fin 1024), s.chip.power.vin = true ∧ s.chip.flag F.HST_RING_CFG.ENABLE n = true) :=
  ⟨⟨s325, 0, 3, (by decide +kernel)⟩, ⟨s0, 0, 0, (by decide +kernel)⟩, ⟨s0, 0, (by decide +kernel)⟩, ⟨s325, 0,
  (by decide +kernel)⟩⟩

theorem witness_RingsInjectAndInterrupt_2 :
    (∃ (n : Nat), n < 1024) ∧ (∃ (s : State) (n : Fin 512), s.chip.power.vin = true
    ∧ (s.chip.ringOn n && s.chip.flag F.HST_RING_CFG.MODE n) = true) ∧ (∃ (s : State) (n : Fin 512), s.chip.power.vin = true
    ∧ (s.chip.ringOn n && s.chip.flag F.HST_RING_CFG.MODE n) = false) ∧ (∃ (s : State) (n : Fin 1024),
    s.chip.power.vin = true ∧ (s.chip.ringSt n).done = 0) :=
  ⟨⟨0, (by decide +kernel)⟩, ⟨s328, 0, (by decide +kernel)⟩, ⟨s0, 0, (by decide +kernel)⟩, ⟨s0, 0, (by decide +kernel)⟩⟩

theorem witness_RingsInjectAndInterrupt_3 :
    (∃ (s : State) (n : Fin 1024), s.chip.power.vin = true ∧ (s.chip.ringSt n).done ≠ 0) ∧ (∃ (s : State) (n : Fin 1024),
    s.chip.power.vin = true ∧ s.chip.ringOn n = false) ∧ (∃ (s : State) (n : Fin 1024), s.chip.power.vin = true
    ∧ s.chip.ringOn n = true) ∧ (∃ (s : State) (r : Fin 512), s.chip.power.vin = true
    ∧ (s.chip.ringOn (512 + r) = false ∨ s.chip.posted (512 + r) = 0)) :=
  ⟨⟨s326, 0, (by decide +kernel)⟩, ⟨s0, 0, (by decide +kernel)⟩, ⟨s328, 0, (by decide +kernel)⟩, ⟨s0, 0,
  (by decide +kernel)⟩⟩

theorem witness_RingsInjectAndInterrupt_4 :
    ∃ (s : State) (r : Fin 512) (ds : List InjDesc) (d : InjDesc) (c : Chip), s.chip.power.vin = true
    ∧ s.chip.ringOn (512 + r.val) = true ∧ s.chip.posted (512 + r.val) ≠ 0 ∧ s.chip.injWaits (512 + r.val) = false
    ∧ s.chip.injPacket (512 + r.val) (min 16 (s.chip.posted (512 + r.val))) (s.chip.getF F.HST_RING_HEAD.V (512 + r.val)) [] = some ds
    ∧ ds.head? = some d ∧ d.info / 2 ^ 30 = 0 ∧ s.chip.portPresent (d.info % 512) = true ∧ s.chip.polBit 0x236 2 = true
    ∧ d.sop = true ∧ ds.tail.any (fun x => x.sop) = false
    ∧ ds.all (fun d₀ => decide (1 ≤ d₀.len) && decide (d₀.len ≤ 16384)) = true
    ∧ 60 ≤ (ds.flatMap (fun d₀ => memRead s.chip.hostMem d₀.addr d₀.len)).length
    ∧ (ds.flatMap (fun d₀ => memRead s.chip.hostMem d₀.addr d₀.len)).length ≤ 12284
    ∧ cellsFor (ds.flatMap (fun d₀ => memRead s.chip.hostMem d₀.addr d₀.len)).length ≤ s.chip.ingRoom (sliceOf (d.info % 512)) + s.chip.freeCells
    ∧ s.chip.cpTake 0 = (true, c) ∧ c.portPresent (d.info % 512) = true ∧ c.polBit 0x236 2 = true :=
  ⟨s327, 0,
  (s327.chip.injPacket (512 + (0 : Fin 512).val) (min 16 (s327.chip.posted (512 + (0 : Fin 512).val))) (s327.chip.getF F.HST_RING_HEAD.V (512 + (0 : Fin 512).val)) []).get (by decide +kernel),
  (((s327.chip.injPacket (512 + (0 : Fin 512).val) (min 16 (s327.chip.posted (512 + (0 : Fin 512).val))) (s327.chip.getF F.HST_RING_HEAD.V (512 + (0 : Fin 512).val)) []).get (by decide +kernel)).head?).get (by decide +kernel),
  (s327.chip.cpTake 0).2, (by decide +kernel), (by decide +kernel), (by decide +kernel), (by decide +kernel),
  (Option.some_get (by decide +kernel)).symm, (Option.some_get (by decide +kernel)).symm, (by decide +kernel),
  (by decide +kernel), (by decide +kernel), (by decide +kernel), (by decide +kernel), (by decide +kernel),
  (by decide +kernel), (by decide +kernel), (by decide +kernel), (Prod.ext (by decide +kernel) rfl), (by decide +kernel)⟩

theorem witness_HostResetsLeaveTheDeviceRunning :
    (∃ (s : State), s.chip.power.vin = true) ∧ (∃ (a : Nat), 0x80000 ≤ a ∧ a < 0x100000) ∧ (∃ (a : Nat),
    (a < 0x80000 ∨ 0x100000 ≤ a)) ∧ (∃ (c : Chip) (o : FOp), o ∈ c.hostReset.act.reqs) :=
  ⟨⟨s0, (by decide +kernel)⟩, ⟨0x80000, (by decide +kernel)⟩, ⟨0, (by decide +kernel)⟩, ⟨s130.chip, tOp 2,
  (by decide +kernel)⟩⟩

theorem witness_GangLinksCarryHelloOldestAndUnbind :
    (∃ (c : Chip) (p : Nat), (c.gangPort p && c.portUp p) = false)
    ∧ (∃ (c : Chip) (d : Chip) (p : Nat) (ty : Nat) (fr : Bytes), c.gangTake p ty false fr = (true, d))
    ∧ (∃ (s : State) (p : Fin 512) (fr : Bytes) (c : Chip), s.chip.power.vin = true ∧ s.chip.gangTake p 6 true fr = (false,
    c)) ∧ (∃ (s : State) (p : Fin 512) (fr : Bytes) (c : Chip), s.chip.power.vin = true
    ∧ s.chip.gangTake p 6 true fr = (true, c) ∧ byteAt fr 46 = 1 ∧ c.domainOut 7 (gfSrc fr) = false
    ∧ beAt (sliceB fr 54 72) 0 4 = c.cfgCheck) :=
  ⟨⟨s0.chip, 0, (by decide +kernel)⟩, ⟨s109.chip, (s109.chip.gangTake 0 1 false (tFrame 1 (zerosB 96))).2, 0, 1,
  tFrame 1 (zerosB 96), (Prod.ext (by decide +kernel) rfl)⟩, ⟨s0, 0, [], (s0.chip.gangTake 0 6 true ([])).2,
  (by decide +kernel)⟩, ⟨s109, 0, tCtrl 1 (natBe 4 (tGang 0).chip.cfgCheck),
  (s109.chip.gangTake 0 6 true (tCtrl 1 (natBe 4 (tGang 0).chip.cfgCheck))).2, (by decide +kernel),
  (Prod.ext (by decide +kernel) rfl), (by decide +kernel)⟩⟩

theorem witness_GangLinksCarryHelloOldestAndUnbind_2 :
    (∃ (s : State) (p : Fin 512) (fr : Bytes) (c : Chip), s.chip.power.vin = true ∧ s.chip.gangTake p 6 true fr = (true, c)
    ∧ byteAt fr 46 = 1 ∧ c.domainOut 7 (gfSrc fr) = false ∧ beAt (sliceB fr 54 72) 0 4 ≠ c.cfgCheck)
    ∧ (∃ (s : State) (p : Fin 512), s.chip.power.vin = true ∧ s.chip.gangPort p = true ∧ s.chip.portUp p = true)
    ∧ (∃ (s : State) (p : Fin 512), s.chip.power.vin = true ∧ s.chip.gangPort p = false) ∧ (∃ (s : State) (p : Fin 512),
    s.chip.power.vin = true ∧ smFind s.chip.gang.inService p = none) :=
  ⟨⟨s109, 0, tCtrl 1, (s109.chip.gangTake 0 6 true (tCtrl 1)).2, (by decide +kernel), (Prod.ext (by decide +kernel) rfl),
  (by decide +kernel)⟩, ⟨s109, 0, (by decide +kernel)⟩, ⟨s0, 0, (by decide +kernel)⟩, ⟨s0, 0, (by decide +kernel)⟩⟩

theorem witness_GangLinksCarryHelloOldestAndUnbind_3 :
    (∃ (s : State) (p : Fin 512) (d : Nat), s.chip.power.vin = true ∧ smFind s.chip.gang.inService p = some d)
    ∧ (∃ (c : Chip) (p : Nat) (d : Nat), smFind c.gang.inService p = some d) ∧ (∃ (s : State) (d : Fin 4),
    s.chip.power.vin = true ∧ s.chip.oldLDone d = false) ∧ (∃ (s : State) (d : Fin 4), s.chip.power.vin = true
    ∧ s.chip.oldLDone d = true) :=
  ⟨⟨s109, 0, (smFind s109.chip.gang.inService 0).get (by decide +kernel), (by decide +kernel),
  (Option.some_get (by decide +kernel)).symm⟩, ⟨s109.chip, 0, (smFind s109.chip.gang.inService 0).get (by decide +kernel),
  (Option.some_get (by decide +kernel)).symm⟩, ⟨s330, 1, (by decide +kernel)⟩, ⟨s0, 0, (by decide +kernel)⟩⟩

theorem witness_GangLinksCarryHelloOldestAndUnbind_4 :
    (∃ (s : State) (p : Fin 512) (fr : Bytes) (c : Chip), s.chip.power.vin = true ∧ s.chip.gangTake p 6 false fr = (true, c)
    ∧ byteAt fr 46 = 2) ∧ (∃ (s : State) (p : Fin 512) (fr : Bytes) (c : Chip), s.chip.power.vin = true
    ∧ s.chip.gangTake p 6 false fr = (true, c) ∧ byteAt fr 46 ≠ 2) ∧ (∃ (s : State) (p : Fin 512) (fr : Bytes) (c : Chip),
    s.chip.power.vin = true ∧ s.chip.gangTake p 6 false fr = (true, c) ∧ byteAt fr 46 = 11 ∧ c.gang.unbindRx = []) :=
  ⟨⟨s109, 0, tCtrl 2, (s109.chip.gangTake 0 6 false (tCtrl 2)).2, (by decide +kernel), (Prod.ext (by decide +kernel) rfl),
  (by decide +kernel)⟩, ⟨s109, 0, tFrame 6 (zerosB 96), (s109.chip.gangTake 0 6 false (tFrame 6 (zerosB 96))).2,
  (by decide +kernel), (Prod.ext (by decide +kernel) rfl), (by decide +kernel)⟩, ⟨s109, 0, tCtrl 11,
  (s109.chip.gangTake 0 6 false (tCtrl 11)).2, (by decide +kernel), (Prod.ext (by decide +kernel) rfl),
  (by decide +kernel)⟩⟩

theorem witness_GangPacketsAndRemoteOps :
    (∃ (s : State) (p : Fin 512), s.chip.power.vin = true ∧ (s.chip.gangPort p && s.chip.portUp p) = false)
    ∧ (∃ (s : State) (p : Fin 512) (fr : Bytes) (c : Chip), s.chip.power.vin = true ∧ s.chip.gangTake p 1 false fr = (true,
    c)) ∧ (∃ (s : State) (p : Fin 512) (fr : Bytes) (c : Chip), s.chip.power.vin = true
    ∧ s.chip.gangTake p 3 false fr = (true, c) ∧ c.gang.rops = [])
    ∧ (∃ (s : State) (p : Fin 512) (fr : Bytes) (c : Chip) (r : Rop), s.chip.power.vin = true
    ∧ s.chip.gangTake p 3 false fr = (true, c)
    ∧ c.gang.rops.find? (fun r₀ => r₀.rtag == beAt (gfBody fr) 0 4 && r₀.dev == gfSrc fr) = some r
    ∧ frStatus (sliceB (gfBody fr) 8 32) ≠ 7) :=
  ⟨⟨s0, 0, (by decide +kernel)⟩, ⟨s109, 0, tFrame 1 (zerosB 96), (s109.chip.gangTake 0 1 false (tFrame 1 (zerosB 96))).2,
  (by decide +kernel), (Prod.ext (by decide +kernel) rfl)⟩, ⟨s109, 0, tFrame 3 (zerosB 96),
  (s109.chip.gangTake 0 3 false (tFrame 3 (zerosB 96))).2, (by decide +kernel), (Prod.ext (by decide +kernel) rfl),
  (by decide +kernel)⟩, ⟨s330, 0, tFrame 3 (zerosB 96), (s330.chip.gangTake 0 3 false (tFrame 3 (zerosB 96))).2,
  (((s330.chip.gangTake 0 3 false (tFrame 3 (zerosB 96))).2).gang.rops.find? (fun r₀ => r₀.rtag == beAt (gfBody (tFrame 3 (zerosB 96))) 0 4 && r₀.dev == gfSrc (tFrame 3 (zerosB 96)))).get (by decide +kernel),
  (by decide +kernel), (Prod.ext (by decide +kernel) rfl), (Option.some_get (by decide +kernel)).symm, (by decide +kernel)⟩⟩

theorem witness_GangPacketsAndRemoteOps_2 :
    (∃ (s : State) (p : Fin 512) (fr : Bytes) (c : Chip) (r : Rop), s.chip.power.vin = true
    ∧ s.chip.gangTake p 3 false fr = (true, c)
    ∧ c.gang.rops.find? (fun r₀ => r₀.rtag == beAt (gfBody fr) 0 4 && r₀.dev == gfSrc fr) = some r
    ∧ frStatus (sliceB (gfBody fr) 8 32) = 7) ∧ (∃ (r : Rop), 3 ≤ r.tries)
    ∧ (∃ (s : State) (p : Fin 512) (fr : Bytes) (c : Chip), s.chip.power.vin = true ∧ s.chip.gangTake p 4 false fr = (true,
    c)) ∧ (∃ (s : State) (p : Fin 512) (fr : Bytes) (c : Chip), s.chip.power.vin = true
    ∧ s.chip.gangTake p 7 false fr = (true, c) ∧ byteAt (gfBody fr) 0 = 7) :=
  ⟨⟨s330, 0, tFrame 3 (zerosB 8 ++ [7] ++ zerosB 100),
  (s330.chip.gangTake 0 3 false (tFrame 3 (zerosB 8 ++ [7] ++ zerosB 100))).2,
  (((s330.chip.gangTake 0 3 false (tFrame 3 (zerosB 8 ++ [7] ++ zerosB 100))).2).gang.rops.find? (fun r₀ => r₀.rtag == beAt (gfBody (tFrame 3 (zerosB 8 ++ [7] ++ zerosB 100))) 0 4 && r₀.dev == gfSrc (tFrame 3 (zerosB 8 ++ [7] ++ zerosB 100)))).get (by decide +kernel),
  (by decide +kernel), (Prod.ext (by decide +kernel) rfl), (Option.some_get (by decide +kernel)).symm, (by decide +kernel)⟩,
  ⟨tRop 3, (by decide +kernel)⟩, ⟨s109, 0, tFrame 4 (zerosB 96), (s109.chip.gangTake 0 4 false (tFrame 4 (zerosB 96))).2,
  (by decide +kernel), (Prod.ext (by decide +kernel) rfl)⟩, ⟨s109, 0, tFrame 7 (natBe 1 7 ++ zerosB 200),
  (s109.chip.gangTake 0 7 false (tFrame 7 (natBe 1 7 ++ zerosB 200))).2, (by decide +kernel),
  (Prod.ext (by decide +kernel) rfl), (by decide +kernel)⟩⟩

theorem witness_GangPacketsAndRemoteOps_3 :
    (∃ (s : State) (p : Fin 512) (fr : Bytes) (c : Chip), s.chip.power.vin = true ∧ s.chip.gangTake p 7 false fr = (true, c)
    ∧ 1 ≤ byteAt (gfBody fr) 0 ∧ byteAt (gfBody fr) 0 ≤ 4 ∧ c.notOwned (c.rrecOp (gfSrc fr) (gfBody fr)).h1 = true)
    ∧ (∃ (s : State) (p : Fin 512) (fr : Bytes) (c : Chip), s.chip.power.vin = true ∧ s.chip.gangTake p 7 false fr = (true,
    c) ∧ 1 ≤ byteAt (gfBody fr) 0 ∧ byteAt (gfBody fr) 0 ≤ 4 ∧ c.notOwned (c.rrecOp (gfSrc fr) (gfBody fr)).h1 = false
    ∧ c.engineHeld (hEngine (c.rrecOp (gfSrc fr) (gfBody fr)).h1) = false
    ∧ c.bankGated (hEngine (c.rrecOp (gfSrc fr) (gfBody fr)).h1) = false)
    ∧ (∃ (s : State) (p : Fin 512) (fr : Bytes) (c : Chip) (q : _), s.chip.power.vin = true
    ∧ s.chip.gangTake p 7 false fr = (true, c) ∧ byteAt (gfBody fr) 0 = 5
    ∧ (c.eng (hEngine (c.rrecOp (gfSrc fr) (gfBody fr)).h1)).prepOf (1024 + gfSrc fr) (c.rrecOp (gfSrc fr) (gfBody fr)).tag = some q)
    ∧ (∃ (s : State) (p : Fin 512) (fr : Bytes) (c : Chip) (q : _), s.chip.power.vin = true
    ∧ s.chip.gangTake p 7 false fr = (true, c) ∧ byteAt (gfBody fr) 0 = 6
    ∧ (c.eng (hEngine (c.rrecOp (gfSrc fr) (gfBody fr)).h1)).prepOf (1024 + gfSrc fr) (c.rrecOp (gfSrc fr) (gfBody fr)).tag = some q) :=
  ⟨⟨s335, 0, tFrame 7 (natBe 1 1 ++ zerosB 200), (s335.chip.gangTake 0 7 false (tFrame 7 (natBe 1 1 ++ zerosB 200))).2,
  (by decide +kernel), (Prod.ext (by decide +kernel) rfl), (by decide +kernel)⟩, ⟨s109, 0,
  tFrame 7 (natBe 1 1 ++ zerosB 200), (s109.chip.gangTake 0 7 false (tFrame 7 (natBe 1 1 ++ zerosB 200))).2,
  (by decide +kernel), (Prod.ext (by decide +kernel) rfl), (by decide +kernel)⟩, ⟨s137, 0,
  tFrame 7 (natBe 1 5 ++ zerosB 200), (s137.chip.gangTake 0 7 false (tFrame 7 (natBe 1 5 ++ zerosB 200))).2,
  ((((s137.chip.gangTake 0 7 false (tFrame 7 (natBe 1 5 ++ zerosB 200))).2).eng (hEngine (((s137.chip.gangTake 0 7 false (tFrame 7 (natBe 1 5 ++ zerosB 200))).2).rrecOp (gfSrc (tFrame 7 (natBe 1 5 ++ zerosB 200))) (gfBody (tFrame 7 (natBe 1 5 ++ zerosB 200)))).h1)).prepOf (1024 + gfSrc (tFrame 7 (natBe 1 5 ++ zerosB 200))) (((s137.chip.gangTake 0 7 false (tFrame 7 (natBe 1 5 ++ zerosB 200))).2).rrecOp (gfSrc (tFrame 7 (natBe 1 5 ++ zerosB 200))) (gfBody (tFrame 7 (natBe 1 5 ++ zerosB 200)))).tag).get (by decide +kernel),
  (by decide +kernel), (Prod.ext (by decide +kernel) rfl), (by decide +kernel), (Option.some_get (by decide +kernel)).symm⟩,
  ⟨s137, 0, tFrame 7 (natBe 1 6 ++ zerosB 200), (s137.chip.gangTake 0 7 false (tFrame 7 (natBe 1 6 ++ zerosB 200))).2,
  ((((s137.chip.gangTake 0 7 false (tFrame 7 (natBe 1 6 ++ zerosB 200))).2).eng (hEngine (((s137.chip.gangTake 0 7 false (tFrame 7 (natBe 1 6 ++ zerosB 200))).2).rrecOp (gfSrc (tFrame 7 (natBe 1 6 ++ zerosB 200))) (gfBody (tFrame 7 (natBe 1 6 ++ zerosB 200)))).h1)).prepOf (1024 + gfSrc (tFrame 7 (natBe 1 6 ++ zerosB 200))) (((s137.chip.gangTake 0 7 false (tFrame 7 (natBe 1 6 ++ zerosB 200))).2).rrecOp (gfSrc (tFrame 7 (natBe 1 6 ++ zerosB 200))) (gfBody (tFrame 7 (natBe 1 6 ++ zerosB 200)))).tag).get (by decide +kernel),
  (by decide +kernel), (Prod.ext (by decide +kernel) rfl), (by decide +kernel), (Option.some_get (by decide +kernel)).symm⟩⟩

theorem witness_GangPacketsAndRemoteOps_4 :
    (∃ (s : State), s.chip.power.vin = true ∧ s.chip.gang.rops = []) ∧ (∃ (s : State) (pid : Nat) (r : Rop),
    s.chip.power.vin = true ∧ s.chip.gang.rops.find? (fun r₀ => r₀.pid == pid) = some r)
    ∧ (∃ (s : State) (e : Fin 128) (d : Fin 4) (tag : Nat), s.chip.power.vin = true
    ∧ (s.chip.eng e).prepOf (1024 + d) tag = none) ∧ (∃ (s : State) (e : Fin 128) (d : Fin 4) (tag : Nat) (q : _),
    s.chip.power.vin = true ∧ (s.chip.eng e).prepOf (1024 + d) tag = some q) :=
  ⟨⟨s0, (by decide +kernel)⟩, ⟨s330, 0, (s330.chip.gang.rops.find? (fun r₀ => r₀.pid == 0)).get (by decide +kernel),
  (by decide +kernel), (Option.some_get (by decide +kernel)).symm⟩, ⟨s0, 0, 0, 0, (by decide +kernel)⟩, ⟨s137, 0, 1, 0,
  ((s137.chip.eng 0).prepOf (1024 + 1) 0).get (by decide +kernel), (by decide +kernel),
  (Option.some_get (by decide +kernel)).symm⟩⟩

theorem witness_GangPacketsAndRemoteOps_5 :
    (∃ (s : State) (x : Fin 1024) (e : CEnt), s.chip.power.vin = true ∧ (s.chip.ctx x).rd = some e ∧ e.st = 1
    ∧ e.dev ≠ s.chip.ownDevice) ∧ (∃ (s : State) (x : Fin 1024), s.chip.power.vin = true ∧ (s.chip.ctx x).rd = none
    ∧ (s.chip.ctx x).commit = []) ∧ (∃ (s : State), s.chip.power.vin = true ∧ s.chip.flag F.GNG_CTRL.REPL_EN = false)
    ∧ (∃ (s : State), s.chip.power.vin = true ∧ s.chip.flag F.GNG_CTRL.REPL_EN = true ∧ s.chip.gangMember = true
    ∧ s.chip.gang.partner ∈ s.chip.peers) :=
  ⟨⟨s258, 0, ((s258.chip.ctx 0).rd).get (by decide +kernel), (by decide +kernel),
  (Option.some_get (by decide +kernel)).symm, (by decide +kernel)⟩, ⟨s0, 0, (by decide +kernel)⟩, ⟨s0, (by decide +kernel)⟩,
  ⟨s336, (by decide +kernel)⟩⟩

theorem witness_GangMembershipChangesInSteps :
    (∃ (s : State), s.chip.power.vin = true ∧ s.chip.flag F.GNG_CMD_STATUS.RUNNING = true) ∧ (∃ (s : State) (d : Nat),
    s.chip.power.vin = true ∧ s.chip.flag F.GNG_CMD_STATUS.RUNNING = false ∧ s.chip.gangMember = false
    ∧ s.chip.isolated = false ∧ s.chip.heardCoord = some (d, 2)) ∧ (∃ (s : State) (d : Nat), s.chip.power.vin = true
    ∧ s.chip.flag F.GNG_CMD_STATUS.RUNNING = false ∧ s.chip.gangMember = false ∧ s.chip.isolated = false
    ∧ s.chip.heardCoord = some (d, 1)) ∧ (∃ (s : State), s.chip.power.vin = true ∧ s.chip.gang.cmd = 2
    ∧ s.chip.gang.change = none) :=
  ⟨⟨s337, (by decide +kernel)⟩, ⟨s338, 1, (by decide +kernel)⟩, ⟨s339, 1, (by decide +kernel)⟩, ⟨s340, (by decide +kernel)⟩⟩

theorem witness_GangMembershipChangesInSteps_2 :
    (∃ (s : State), s.chip.power.vin = true ∧ s.chip.gang.cmd ≠ 2) ∧ (∃ (s : State), s.chip.power.vin = true
    ∧ s.chip.flag F.GNG_CMD_STATUS.RUNNING = false ∧ s.chip.gangMember = true ∧ s.chip.changing = true) ∧ (∃ (s : State),
    s.chip.power.vin = true ∧ s.chip.flag F.GNG_CMD_STATUS.RUNNING = false ∧ s.chip.gangMember = true
    ∧ s.chip.changing = false ∧ s.chip.members.filter (· != s.chip.getF F.GNG_STATUS.DEVICE) = []) ∧ (∃ (s : State),
    s.chip.power.vin = true ∧ s.chip.flag F.GNG_CMD_STATUS.RUNNING = false ∧ s.chip.gangMember = true
    ∧ s.chip.changing = false ∧ s.chip.members.filter (· != s.chip.getF F.GNG_STATUS.DEVICE) ≠ []
    ∧ s.chip.coordinator = false) :=
  ⟨⟨s0, (by decide +kernel)⟩, ⟨s341, (by decide +kernel)⟩, ⟨s8, (by decide +kernel)⟩, ⟨s110, (by decide +kernel)⟩⟩

theorem witness_GangMembershipChangesInSteps_3 :
    (∃ (s : State) (p : Fin 512) (fr : Bytes) (c : Chip), s.chip.power.vin = true ∧ s.chip.gangTake p 6 false fr = (true, c)
    ∧ byteAt fr 46 = 12 ∧ c.coordinator = true ∧ c.changing = false ∧ gfSrc fr ∉ c.members ∧ c.linkPorts (gfSrc fr) ≠ [])
    ∧ (∃ (s : State) (p : Fin 512) (fr : Bytes) (c : Chip), s.chip.power.vin = true ∧ s.chip.gangTake p 6 false fr = (true,
    c) ∧ byteAt fr 46 = 10 ∧ c.coordinator = true) ∧ (∃ (s : State) (p : Fin 512) (fr : Bytes) (c : Chip),
    s.chip.power.vin = true ∧ s.chip.gangTake p 6 false fr = (true, c) ∧ byteAt fr 46 = 6)
    ∧ (∃ (s : State) (p : Fin 512) (fr : Bytes) (c : Chip), s.chip.power.vin = true ∧ s.chip.gangTake p 6 false fr = (true,
    c) ∧ byteAt fr 46 = 7) :=
  ⟨⟨s346, 0, tCtrl 12, (s346.chip.gangTake 0 6 false (tCtrl 12)).2, (by decide +kernel), (Prod.ext (by decide +kernel) rfl),
  (by decide +kernel)⟩, ⟨s109, 0, tCtrl 10, (s109.chip.gangTake 0 6 false (tCtrl 10)).2, (by decide +kernel),
  (Prod.ext (by decide +kernel) rfl), (by decide +kernel)⟩, ⟨s109, 0, tCtrl 6, (s109.chip.gangTake 0 6 false (tCtrl 6)).2,
  (by decide +kernel), (Prod.ext (by decide +kernel) rfl), (by decide +kernel)⟩, ⟨s109, 0, tCtrl 7,
  (s109.chip.gangTake 0 6 false (tCtrl 7)).2, (by decide +kernel), (Prod.ext (by decide +kernel) rfl), (by decide +kernel)⟩⟩

theorem witness_GangMembershipChangesInSteps_4 :
    (∃ (s : State) (p : Fin 512) (fr : Bytes) (c : Chip), s.chip.power.vin = true ∧ s.chip.gangTake p 6 false fr = (true, c)
    ∧ byteAt fr 46 = 4) ∧ (∃ (s : State) (p : Fin 512) (fr : Bytes) (c : Chip), s.chip.power.vin = true
    ∧ s.chip.gangTake p 6 false fr = (true, c) ∧ byteAt fr 46 = 5) ∧ (∃ (s : State) (p : Fin 512) (fr : Bytes) (c : Chip),
    s.chip.power.vin = true ∧ s.chip.gangTake p 6 false fr = (true, c) ∧ byteAt fr 46 = 3 ∧ c.isolated = false
    ∧ c.gangMember = true ∧ gfSrc fr = c.getF F.GNG_STATUS.COORD) ∧ (∃ (s : State) (p : Fin 512) (fr : Bytes) (c : Chip),
    s.chip.power.vin = true ∧ s.chip.gangTake p 6 false fr = (true, c) ∧ byteAt fr 46 = 3 ∧ c.isolated = false
    ∧ c.gangMember = false ∧ (⟨bitOf 7 (byteAt (sliceB fr 54 72) 0), byteAt (sliceB fr 54 72) 0 % 4,
    bitOf 0 (byteAt (sliceB fr 54 72) 1), beAt fr 50 4, bytesMap (sliceB (sliceB fr 54 72) 8 64), none,
    []⟩ : GChange).join = true ∧ (⟨bitOf 7 (byteAt (sliceB fr 54 72) 0), byteAt (sliceB fr 54 72) 0 % 4,
    bitOf 0 (byteAt (sliceB fr 54 72) 1), beAt fr 50 4, bytesMap (sliceB (sliceB fr 54 72) 8 64), none,
    []⟩ : GChange).dev = c.getF F.GNG_STATUS.DEVICE) :=
  ⟨⟨s109, 0, tCtrl 4, (s109.chip.gangTake 0 6 false (tCtrl 4)).2, (by decide +kernel), (Prod.ext (by decide +kernel) rfl),
  (by decide +kernel)⟩, ⟨s109, 0, tCtrl 5, (s109.chip.gangTake 0 6 false (tCtrl 5)).2, (by decide +kernel),
  (Prod.ext (by decide +kernel) rfl), (by decide +kernel)⟩, ⟨s110, 0, tCtrl 3, (s110.chip.gangTake 0 6 false (tCtrl 3)).2,
  (by decide +kernel), (Prod.ext (by decide +kernel) rfl), (by decide +kernel)⟩, ⟨s347, 0, tCtrl 3 [0x80],
  (s347.chip.gangTake 0 6 false (tCtrl 3 [0x80])).2, (by decide +kernel), (Prod.ext (by decide +kernel) rfl),
  (by decide +kernel)⟩⟩

theorem witness_GangMembershipChangesInSteps_5 :
    (∃ (s : State) (p : Fin 512) (fr : Bytes) (c : Chip), s.chip.power.vin = true ∧ s.chip.gangTake p 6 false fr = (true, c)
    ∧ byteAt fr 46 = 3 ∧ c.isolated = false ∧ c.gangMember = false ∧ (⟨bitOf 7 (byteAt (sliceB fr 54 72) 0),
    byteAt (sliceB fr 54 72) 0 % 4, bitOf 0 (byteAt (sliceB fr 54 72) 1), beAt fr 50 4,
    bytesMap (sliceB (sliceB fr 54 72) 8 64), none, []⟩ : GChange).dev ≠ c.getF F.GNG_STATUS.DEVICE)
    ∧ (∃ (s : State) (x : GChange) (t : Nat), s.chip.power.vin = true ∧ s.chip.gang.change = some x ∧ x.at_ = some t
    ∧ s.chip.due t = true) ∧ (∃ (s : State) (x : GChange) (t : Nat), s.chip.power.vin = true ∧ s.chip.gang.change = some x
    ∧ x.at_ = some t ∧ s.chip.due t = false) ∧ (∃ (s : State) (a : Fin 4) (b : Fin 4), s.chip.power.vin = true
    ∧ s.chip.gangMember = true ∧ a < b ∧ a.val ∈ s.chip.members ∧ b.val ∈ s.chip.members
    ∧ b.val = s.chip.getF F.GNG_STATUS.DEVICE ∧ s.chip.linkPorts a = []) :=
  ⟨⟨s347, 0, tCtrl 3 [0x81], (s347.chip.gangTake 0 6 false (tCtrl 3 [0x81])).2, (by decide +kernel),
  (Prod.ext (by decide +kernel) rfl), (by decide +kernel)⟩, ⟨s341, (s341.chip.gang.change).get (by decide +kernel),
  (((s341.chip.gang.change).get (by decide +kernel)).at_).get (by decide +kernel), (by decide +kernel),
  (Option.some_get (by decide +kernel)).symm, (Option.some_get (by decide +kernel)).symm, (by decide +kernel)⟩, ⟨s342,
  (s342.chip.gang.change).get (by decide +kernel),
  (((s342.chip.gang.change).get (by decide +kernel)).at_).get (by decide +kernel), (by decide +kernel),
  (Option.some_get (by decide +kernel)).symm, (Option.some_get (by decide +kernel)).symm, (by decide +kernel)⟩, ⟨s344, 0, 1,
  (by decide +kernel)⟩⟩

theorem witness_GangMembershipChangesInSteps_6 :
    (∃ (s : State) (a : Fin 4) (b : Fin 4), s.chip.power.vin = true ∧ s.chip.gangMember = true ∧ a < b
    ∧ a.val ∈ s.chip.members ∧ b.val ∈ s.chip.members ∧ b.val ≠ s.chip.getF F.GNG_STATUS.DEVICE ∧ s.chip.linkPorts b = []
    ∧ s.chip.coordinator = true) ∧ (∃ (s : State), s.chip.power.vin = true ∧ s.chip.gang.items = [])
    ∧ (∃ (s : State) (it : Bytes) (r : List Bytes) (c : Chip), s.chip.power.vin = true ∧ s.chip.gang.items = it :: r
    ∧ s.chip.offer (s.chip.getF F.GNG_ITEM_CLASS.V) it none = (.accepted, c)) :=
  ⟨⟨s332, 0, 1, (by decide +kernel)⟩, ⟨s0, (by decide +kernel)⟩, ⟨s351, (s351.chip.gang.items).head (by decide +kernel),
  (s351.chip.gang.items).tail,
  (s351.chip.offer (s351.chip.getF F.GNG_ITEM_CLASS.V) ((s351.chip.gang.items).head (by decide +kernel)) none).2,
  (by decide +kernel), (List.cons_head_tail (by decide +kernel)).symm, (Prod.ext (by decide +kernel) rfl)⟩⟩

theorem witness_GangTimeAndResetsFollowTheCoordinator :
    (∃ (s : State), s.chip.power.vin = true ∧ s.chip.follower = true) ∧ (∃ (s : State), s.chip.power.vin = true
    ∧ s.chip.follower = false) ∧ (∃ (s : State) (p : Fin 512) (fr : Bytes) (c : Chip), s.chip.power.vin = true
    ∧ s.chip.gangTake p 6 false fr = (true, c) ∧ byteAt fr 46 = 8 ∧ c.coordinator = true)
    ∧ (∃ (s : State) (p : Fin 512) (fr : Bytes) (c : Chip), s.chip.power.vin = true ∧ s.chip.gangTake p 6 false fr = (true,
    c) ∧ byteAt fr 46 = 8 ∧ c.coordinator = false) :=
  ⟨⟨s8, (by decide +kernel)⟩, ⟨s0, (by decide +kernel)⟩, ⟨s109, 0, tCtrl 8, (s109.chip.gangTake 0 6 false (tCtrl 8)).2,
  (by decide +kernel), (Prod.ext (by decide +kernel) rfl), (by decide +kernel)⟩, ⟨s110, 0, tCtrl 8,
  (s110.chip.gangTake 0 6 false (tCtrl 8)).2, (by decide +kernel), (Prod.ext (by decide +kernel) rfl), (by decide +kernel)⟩⟩

theorem witness_GangTimeAndResetsFollowTheCoordinator_2 :
    (∃ (s : State) (p : Fin 512) (fr : Bytes) (c : Chip), s.chip.power.vin = true ∧ s.chip.gangTake p 6 false fr = (true, c)
    ∧ byteAt fr 46 = 9 ∧ c.follower = false) ∧ (∃ (s : State) (p : Fin 512) (fr : Bytes) (c : Chip), s.chip.power.vin = true
    ∧ s.chip.gangTake p 6 false fr = (true, c) ∧ byteAt fr 46 = 9 ∧ c.follower = true ∧ c.getF F.GNG_STATUS.COORD = gfSrc fr
    ∧ c.timeValid = true
    ∧ c.getF F.GNG_TIME_STEP.V * 2 ^ 16 ≤ ((signedOf 64 (beAt (sliceB fr 54 72) 8 8 + (2 ^ 64 - beAt (sliceB fr 54 72) 0 8 % 2 ^ 64)) - signedOf 64 (c.dtw + (2 ^ 64 - beAt (sliceB fr 54 72) 16 8 % 2 ^ 64))) / 2 - signedOf 32 (c.getF F.GNG_PEER_ASYM.V (gfSrc fr))).natAbs)
    ∧ (∃ (s : State) (p : Fin 512) (fr : Bytes) (c : Chip), s.chip.power.vin = true ∧ s.chip.gangTake p 6 false fr = (true,
    c) ∧ byteAt fr 46 = 9 ∧ c.follower = true ∧ c.getF F.GNG_STATUS.COORD = gfSrc fr ∧ c.timeValid = true
    ∧ ((signedOf 64 (beAt (sliceB fr 54 72) 8 8 + (2 ^ 64 - beAt (sliceB fr 54 72) 0 8 % 2 ^ 64)) - signedOf 64 (c.dtw + (2 ^ 64 - beAt (sliceB fr 54 72) 16 8 % 2 ^ 64))) / 2 - signedOf 32 (c.getF F.GNG_PEER_ASYM.V (gfSrc fr))).natAbs < c.getF F.GNG_TIME_STEP.V * 2 ^ 16)
    ∧ (∃ (s : State), s.chip.power.vin = true ∧ s.chip.flag F.GNG_CMD_STATUS.RUNNING = false ∧ s.chip.coordinator = false) :=
  ⟨⟨s109, 0, tCtrl 9, (s109.chip.gangTake 0 6 false (tCtrl 9)).2, (by decide +kernel), (Prod.ext (by decide +kernel) rfl),
  (by decide +kernel)⟩, ⟨s111, 0, tCtrl 9, (s111.chip.gangTake 0 6 false (tCtrl 9)).2, (by decide +kernel),
  (Prod.ext (by decide +kernel) rfl), (by decide +kernel)⟩, ⟨s112, 0, tCtrl 9, (s112.chip.gangTake 0 6 false (tCtrl 9)).2,
  (by decide +kernel), (Prod.ext (by decide +kernel) rfl), (by decide +kernel)⟩, ⟨s0, (by decide +kernel)⟩⟩

theorem witness_GangTimeAndResetsFollowTheCoordinator_3 :
    (∃ (s : State), s.chip.power.vin = true ∧ s.chip.flag F.GNG_CMD_STATUS.RUNNING = false ∧ s.chip.coordinator = true)
    ∧ (∃ (c : Chip) (t : Nat), c.resetAllowed = true ∧ c.timeClass t = .past) ∧ (∃ (c : Chip) (t : Nat),
    c.resetAllowed = true ∧ c.timeClass t = .far) ∧ (∃ (c : Chip) (t : Nat), c.resetAllowed = true ∧ c.timeClass t = .late) :=
  ⟨⟨s109, (by decide +kernel)⟩, ⟨s12.chip, 2 ^ 64 - 1, (by decide +kernel)⟩, ⟨s12.chip, 2 ^ 47 * 2 ^ 16 + 2 ^ 30,
  (by decide +kernel)⟩, ⟨s386.chip, 2 ^ 64 - 1, (by decide +kernel)⟩⟩

theorem witness_GangTimeAndResetsFollowTheCoordinator_4 :
    (∃ (c : Chip) (t : Nat), c.resetAllowed = true ∧ c.timeClass t ≠ .past ∧ c.timeClass t ≠ .far ∧ c.timeClass t ≠ .late)
    ∧ (∃ (s : State) (p : Fin 512) (fr : Bytes) (c : Chip), s.chip.power.vin = true ∧ s.chip.gangTake p 6 false fr = (true,
    c) ∧ byteAt fr 46 = 13 ∧ c.resetAllowed = true) ∧ (∃ (s : State) (p : Fin 512) (fr : Bytes) (c : Chip),
    s.chip.power.vin = true ∧ s.chip.gangTake p 6 false fr = (true, c) ∧ byteAt fr 46 = 13 ∧ c.resetAllowed = false) :=
  ⟨⟨s12.chip, 0, (by decide +kernel)⟩, ⟨s352, 0, tCtrl 13, (s352.chip.gangTake 0 6 false (tCtrl 13)).2, (by decide +kernel),
  (Prod.ext (by decide +kernel) rfl), (by decide +kernel)⟩, ⟨s109, 0, tCtrl 13, (s109.chip.gangTake 0 6 false (tCtrl 13)).2,
  (by decide +kernel), (Prod.ext (by decide +kernel) rfl), (by decide +kernel)⟩⟩

theorem witness_ManagementWatchesAndSaves :
    (∃ (s : State), s.chip.power.vin = true ∧ s.chip.getF F.MGT_MP_STATUS.STATE = 0) ∧ (∃ (s : State),
    s.chip.power.vin = true ∧ s.chip.getF F.MGT_MP_STATUS.STATE ≠ 0) ∧ (∃ (s : State), s.chip.power.vin = true
    ∧ s.chip.getF F.MGT_MP_STATUS.STATE = 2 ∧ s.chip.flag F.MGT_MP_CTRL.STAY_AWAKE = false ∧ s.chip.mgt.flashWrite = none)
    ∧ (∃ (s : State), s.chip.power.vin = true ∧ s.chip.getF F.MGT_MP_STATUS.STATE ≠ 2) :=
  ⟨⟨s356, (by decide +kernel)⟩, ⟨s0, (by decide +kernel)⟩, ⟨s357, (by decide +kernel)⟩, ⟨s0, (by decide +kernel)⟩⟩

theorem witness_ManagementWatchesAndSaves_2 :
    (∃ (s : State), s.chip.power.vin = true ∧ s.chip.flag F.MGT_MP_CTRL.STAY_AWAKE = true) ∧ (∃ (s : State),
    s.chip.power.vin = true ∧ s.chip.getF F.MGT_MP_STATUS.STATE = 2 ∧ s.chip.flag F.MGT_MP_STATUS.FALLBACK = true)
    ∧ (∃ (s : State), s.chip.power.vin = true ∧ (s.chip.slotOf 1 false).state = 0 ∧ (s.chip.slotOf 1 true).state = 0)
    ∧ (∃ (s : State) (b : Bool), s.chip.power.vin = true ∧ s.chip.bootSlot 1 = some b
    ∧ s.chip.fwCheck (s.chip.slotOf 1 b).image = 0) :=
  ⟨⟨s358, (by decide +kernel)⟩, ⟨s358, (by decide +kernel)⟩, ⟨s359, (by decide +kernel)⟩, ⟨s0,
  (s0.chip.bootSlot 1).get (by decide +kernel), (by decide +kernel), (Option.some_get (by decide +kernel)).symm,
  (by decide +kernel)⟩⟩

theorem witness_ManagementWatchesAndSaves_3 :
    (∃ (s : State) (vals : List (BitVec 16)), s.chip.power.vin = true
    ∧ ((List.range 60).foldl (fun c₀ n => c₀.sensorOne n ((fun n => (vals.getD n 0).toNat) n)) s.chip).polInForce = false)
    ∧ (∃ (s : State) (vals : List (BitVec 16)), s.chip.power.vin = true
    ∧ ((List.range 60).foldl (fun c₀ n => c₀.sensorOne n ((fun n => (vals.getD n 0).toNat) n)) s.chip).polInForce = true)
    ∧ (∃ (n : Nat) (v : Nat), n < 60 ∧ v < 65536) ∧ (∃ (s : State), (s.chip.power.aon = false ∨ s.chip.mgt.logBuf = [])) :=
  ⟨⟨s0, [], (by decide +kernel)⟩, ⟨s360, [], (by decide +kernel)⟩, ⟨0, 0, (by decide +kernel)⟩, ⟨s0, (by decide +kernel)⟩⟩

theorem witness_ManagementWatchesAndSaves_4 :
    (∃ (s : State) (e : LogEntry) (r : List LogEntry), s.chip.power.aon = true ∧ s.chip.mgt.logBuf = e :: r
    ∧ s.chip.mgt.logFlash.length < 2097152) ∧ (∃ (s : State) (k : Fin 16), s.chip.power.vin = true ∧ s.chip.parked k = true)
    ∧ (∃ (s : State) (k : Fin 16), s.chip.power.vin = true ∧ s.chip.parkOk k = false) ∧ (∃ (s : State) (k : Fin 16),
    s.chip.power.vin = true ∧ s.chip.parked k = false ∧ s.chip.parkOk k = true) :=
  ⟨⟨s361, (s361.chip.mgt.logBuf).head (by decide +kernel), (s361.chip.mgt.logBuf).tail, (by decide +kernel),
  (List.cons_head_tail (by decide +kernel)).symm, (by decide +kernel)⟩, ⟨s108, 0, (by decide +kernel)⟩, ⟨s29, 0,
  (by decide +kernel)⟩, ⟨s0, 0, (by decide +kernel)⟩⟩

theorem witness_ManagementWatchesAndSaves_5 :
    (∃ (s : State), s.chip.power.vin = true ∧ s.chip.flag F.MGT_PARK_CTRL.NO_BANK_GATE = true)
    ∧ (∃ (s : State) (k : Fin 16), s.chip.power.vin = true ∧ s.chip.bankIdle k = false) ∧ (∃ (s : State) (k : Fin 16),
    s.chip.power.vin = true ∧ s.chip.flag F.MGT_PARK_CTRL.NO_BANK_GATE = false ∧ s.chip.bankIdle k = true)
    ∧ (∃ (s : State) (k : Fin 16), s.chip.power.vin = true ∧ bitOf k (s.chip.getF F.MGT_PARK_STATUS.GATED) = false) :=
  ⟨⟨s362, (by decide +kernel)⟩, ⟨s105, 0, (by decide +kernel)⟩, ⟨s0, 0, (by decide +kernel)⟩, ⟨s0, 0, (by decide +kernel)⟩⟩

theorem witness_ManagementWatchesAndSaves_6 :
    ∃ (s : State) (k : Fin 16), s.chip.power.vin = true ∧ bitOf k (s.chip.getF F.MGT_PARK_STATUS.GATED) = true :=
  ⟨s107, 0, (by decide +kernel)⟩

theorem witness_MailboxCommandsAnswerInOrder :
    (∃ (s : State), s.chip.power.vin = true ∧ s.chip.flag F.MGT_MBX_STATUS.RUNNING = true)
    ∧ (∃ (s : State) (r : MbxAns) (c : Chip), s.chip.power.vin = true ∧ s.chip.flag F.MGT_MBX_STATUS.RUNNING = false
    ∧ s.chip.mpWake.mailbox none 1 ((List.range 4).map (fun k => s.chip.getF F.MGT_MBX_ARG.V k)) = (some r, c))
    ∧ (∃ (s : State) (r : MbxAns) (c : Chip), s.chip.power.vin = true ∧ s.chip.flag F.MGT_MBX_STATUS.RUNNING = false
    ∧ s.chip.mpWake.mailbox none 2 ((List.range 4).map (fun k => s.chip.getF F.MGT_MBX_ARG.V k)) = (some r, c))
    ∧ (∃ (s : State) (r : MbxAns) (c : Chip), s.chip.power.vin = true ∧ s.chip.flag F.MGT_MBX_STATUS.RUNNING = false
    ∧ s.chip.mpWake.mailbox none 3 ((List.range 4).map (fun k => s.chip.getF F.MGT_MBX_ARG.V k)) = (some r, c)) :=
  ⟨⟨s364, (by decide +kernel)⟩, ⟨s0,
  ((s0.chip.mpWake.mailbox none 1 ((List.range 4).map (fun k => s0.chip.getF F.MGT_MBX_ARG.V k))).1).get (by decide +kernel),
  (s0.chip.mpWake.mailbox none 1 ((List.range 4).map (fun k => s0.chip.getF F.MGT_MBX_ARG.V k))).2, (by decide +kernel),
  (by decide +kernel), (Prod.ext (Option.some_get (by decide +kernel)).symm rfl)⟩, ⟨s0,
  ((s0.chip.mpWake.mailbox none 2 ((List.range 4).map (fun k => s0.chip.getF F.MGT_MBX_ARG.V k))).1).get (by decide +kernel),
  (s0.chip.mpWake.mailbox none 2 ((List.range 4).map (fun k => s0.chip.getF F.MGT_MBX_ARG.V k))).2, (by decide +kernel),
  (by decide +kernel), (Prod.ext (Option.some_get (by decide +kernel)).symm rfl)⟩, ⟨s0,
  ((s0.chip.mpWake.mailbox none 3 ((List.range 4).map (fun k => s0.chip.getF F.MGT_MBX_ARG.V k))).1).get (by decide +kernel),
  (s0.chip.mpWake.mailbox none 3 ((List.range 4).map (fun k => s0.chip.getF F.MGT_MBX_ARG.V k))).2, (by decide +kernel),
  (by decide +kernel), (Prod.ext (Option.some_get (by decide +kernel)).symm rfl)⟩⟩

theorem witness_MailboxCommandsAnswerInOrder_2 :
    (∃ (s : State) (r : MbxAns) (c : Chip), s.chip.power.vin = true ∧ s.chip.flag F.MGT_MBX_STATUS.RUNNING = false
    ∧ s.chip.mpWake.mailbox none 4 ((List.range 4).map (fun k => s.chip.getF F.MGT_MBX_ARG.V k)) = (some r, c))
    ∧ (∃ (s : State) (r : MbxAns) (c : Chip), s.chip.power.vin = true ∧ s.chip.flag F.MGT_MBX_STATUS.RUNNING = false
    ∧ s.chip.mpWake.mailbox none 5 ((List.range 4).map (fun k => s.chip.getF F.MGT_MBX_ARG.V k)) = (some r, c))
    ∧ (∃ (s : State) (r : MbxAns) (c : Chip), s.chip.power.vin = true ∧ s.chip.flag F.MGT_MBX_STATUS.RUNNING = false
    ∧ s.chip.mpWake.mailbox none 6 ((List.range 4).map (fun k => s.chip.getF F.MGT_MBX_ARG.V k)) = (some r, c))
    ∧ (∃ (s : State) (r : MbxAns) (c : Chip), s.chip.power.vin = true ∧ s.chip.flag F.MGT_MBX_STATUS.RUNNING = false
    ∧ s.chip.mpWake.mailbox none 7 ((List.range 4).map (fun k => s.chip.getF F.MGT_MBX_ARG.V k)) = (some r, c)) :=
  ⟨⟨s0,
  ((s0.chip.mpWake.mailbox none 4 ((List.range 4).map (fun k => s0.chip.getF F.MGT_MBX_ARG.V k))).1).get (by decide +kernel),
  (s0.chip.mpWake.mailbox none 4 ((List.range 4).map (fun k => s0.chip.getF F.MGT_MBX_ARG.V k))).2, (by decide +kernel),
  (by decide +kernel), (Prod.ext (Option.some_get (by decide +kernel)).symm rfl)⟩, ⟨s0,
  ((s0.chip.mpWake.mailbox none 5 ((List.range 4).map (fun k => s0.chip.getF F.MGT_MBX_ARG.V k))).1).get (by decide +kernel),
  (s0.chip.mpWake.mailbox none 5 ((List.range 4).map (fun k => s0.chip.getF F.MGT_MBX_ARG.V k))).2, (by decide +kernel),
  (by decide +kernel), (Prod.ext (Option.some_get (by decide +kernel)).symm rfl)⟩, ⟨s0,
  ((s0.chip.mpWake.mailbox none 6 ((List.range 4).map (fun k => s0.chip.getF F.MGT_MBX_ARG.V k))).1).get (by decide +kernel),
  (s0.chip.mpWake.mailbox none 6 ((List.range 4).map (fun k => s0.chip.getF F.MGT_MBX_ARG.V k))).2, (by decide +kernel),
  (by decide +kernel), (Prod.ext (Option.some_get (by decide +kernel)).symm rfl)⟩, ⟨s0,
  ((s0.chip.mpWake.mailbox none 7 ((List.range 4).map (fun k => s0.chip.getF F.MGT_MBX_ARG.V k))).1).get (by decide +kernel),
  (s0.chip.mpWake.mailbox none 7 ((List.range 4).map (fun k => s0.chip.getF F.MGT_MBX_ARG.V k))).2, (by decide +kernel),
  (by decide +kernel), (Prod.ext (Option.some_get (by decide +kernel)).symm rfl)⟩⟩

theorem witness_MailboxCommandsAnswerInOrder_3 :
    (∃ (c : Chip) (op : Nat) (a : List Nat), c.mbxInvalid op (fun k => a.getD k 0) ≠ 0)
    ∧ (∃ (c : Chip) (op : Nat) (a : List Nat), c.mbxInvalid op (fun k => a.getD k 0) = 0 ∧ c.polBit 0x24A op = false)
    ∧ (∃ (c : Chip) (op : Nat) (a : List Nat), c.mbxInvalid op (fun k => a.getD k 0) = 0 ∧ c.polBit 0x24C op = false)
    ∧ (∃ (c : Chip) (op : Nat) (a : List Nat), c.mbxInvalid op (fun k => a.getD k 0) = 0 ∧ c.polBit 0x24A op = true
    ∧ c.mgt.flashWrite ≠ none) :=
  ⟨⟨s0.chip, 0, [], (by decide +kernel)⟩, ⟨s0.chip, 1, [], (by decide +kernel)⟩, ⟨s0.chip, 1, [], (by decide +kernel)⟩,
  ⟨s367.chip, 1, [], (by decide +kernel)⟩⟩

theorem witness_MailboxCommandsAnswerInOrder_4 :
    (∃ (c : Chip) (a : List Nat), c.mgt.flashWrite = none ∧ c.mbxInvalid 1 (fun k => a.getD k 0) = 0
    ∧ c.polBit 0x24A 1 = true) ∧ (∃ (c : Chip) (a : List Nat), c.mgt.flashWrite = none
    ∧ c.mbxInvalid 2 (fun k => a.getD k 0) = 0 ∧ c.polBit 0x24A 2 = true) ∧ (∃ (c : Chip) (a : List Nat),
    c.mgt.flashWrite = none ∧ c.mbxInvalid 3 (fun k => a.getD k 0) = 0 ∧ c.polBit 0x24A 3 = true)
    ∧ (∃ (c : Chip) (a : List Nat), c.mgt.flashWrite = none ∧ c.mbxInvalid 4 (fun k => a.getD k 0) = 0
    ∧ c.polBit 0x24A 4 = true) :=
  ⟨⟨s12.chip, [], (by decide +kernel)⟩, ⟨s12.chip, [], (by decide +kernel)⟩, ⟨s12.chip, [], (by decide +kernel)⟩, ⟨s12.chip,
  [], (by decide +kernel)⟩⟩

theorem witness_MailboxCommandsAnswerInOrder_5 :
    (∃ (c : Chip) (a : List Nat), c.mgt.flashWrite = none ∧ c.mbxInvalid 6 (fun k => a.getD k 0) = 0
    ∧ c.polBit 0x24A 6 = true) ∧ (∃ (c : Chip) (a : List Nat), c.mgt.flashWrite = none
    ∧ c.mbxInvalid 7 (fun k => a.getD k 0) = 0 ∧ c.polBit 0x24A 7 = true) ∧ (∃ (s : State) (p : Fin 2),
    s.chip.power.vin = true ∧ bitOf 3 (byteAt s.chip.mgt.mpConf p) = false) ∧ (∃ (s : State) (p : Fin 2) (src : Bytes),
    s.chip.power.vin = true ∧ leAt s.chip.mgt.mpConf 2 2 ≠ 0 ∧ bitOf 3 (byteAt s.chip.mgt.mpConf p) = true
    ∧ (List.range 4).any (s.chip.oobAllows src) = false) :=
  ⟨⟨s12.chip, [1], (by decide +kernel)⟩, ⟨s365.chip, [1], (by decide +kernel)⟩, ⟨s0, 0, (by decide +kernel)⟩, ⟨s368, 0, [],
  (by decide +kernel)⟩⟩

theorem witness_MailboxCommandsAnswerInOrder_6 :
    ∃ (s : State) (p : Fin 2) (src : Bytes) (pl : Bytes) (r : MbxAns) (c : Chip), s.chip.power.vin = true
    ∧ leAt s.chip.mgt.mpConf 2 2 ≠ 0 ∧ bitOf 3 (byteAt s.chip.mgt.mpConf p) = true
    ∧ (List.range 4).any (s.chip.oobAllows src) = true ∧ 24 ≤ pl.length ∧ pl.length ≤ 280 ∧ byteAt pl 1 = 0
    ∧ leAt pl 4 4 = 0 ∧ s.chip.mpWake.mailbox (some (p.val,
    beAt pl 2 2)) (byteAt pl 0) ((List.range 4).map (fun k => beAt pl (8 + 4 * k) 4)) = (some r, c) :=
  ⟨s369, 0, zerosB 15 ++ [1], zerosB 40, ((s369.chip.mpWake.mailbox (some ((0 : Fin 2).val,
  beAt (zerosB 40) 2 2)) (byteAt (zerosB 40) 0) ((List.range 4).map (fun k => beAt (zerosB 40) (8 + 4 * k) 4))).1).get (by decide +kernel),
  (s369.chip.mpWake.mailbox (some ((0 : Fin 2).val,
  beAt (zerosB 40) 2 2)) (byteAt (zerosB 40) 0) ((List.range 4).map (fun k => beAt (zerosB 40) (8 + 4 * k) 4))).2,
  (by decide +kernel), (by decide +kernel), (by decide +kernel), (by decide +kernel), (by decide +kernel),
  (by decide +kernel), (by decide +kernel), (by decide +kernel), (Prod.ext (Option.some_get (by decide +kernel)).symm rfl)⟩

theorem witness_RecoveriesStartRunAndEnd :
    (∃ (s : State) (k : Fin 8) (i : Fin 1024) (x : Fin 256), s.chip.power.vin = true
    ∧ (causeKind x ≠ some k.val ∨ kindCount k ≤ i.val))
    ∧ (∃ (s : State) (k : Fin 8) (i : Fin 1024) (x : Fin 256) (d : List Nat), s.chip.power.vin = true
    ∧ causeKind x = some k.val ∧ i.val < kindCount k ∧ x ≠ 0x14 ∧ k ≠ 5 ∧ s.chip.recOf k i = none
    ∧ (((((((s.chip.raiseGlb F.GLB_STATUS.FAULT_PENDING).recLast k i x false).log 0 2 0x0200 i (x.val + 256 * k.val)).recBit F.GLB_REC_ACTIVE.V k i true).recGaps (⟨k,
    i, x, 2, s.chip.mt,
    d⟩ : RecDom)).bathsEnded k i).bathsOf k i 3 ++ ((((((s.chip.raiseGlb F.GLB_STATUS.FAULT_PENDING).recLast k i x false).log 0 2 0x0200 i (x.val + 256 * k.val)).recBit F.GLB_REC_ACTIVE.V k i true).recGaps (⟨k,
    i, x, 2, s.chip.mt, d⟩ : RecDom)).bathsEnded k i).bathsOf k i 4) = [])
    ∧ (∃ (s : State) (k : Fin 8) (i : Fin 1024) (x : Fin 256) (d : List Nat), s.chip.power.vin = true
    ∧ causeKind x = some k.val ∧ i.val < kindCount k ∧ x ≠ 0x14 ∧ k ≠ 5 ∧ s.chip.recOf k i = none
    ∧ (((((((s.chip.raiseGlb F.GLB_STATUS.FAULT_PENDING).recLast k i x false).log 0 2 0x0200 i (x.val + 256 * k.val)).recBit F.GLB_REC_ACTIVE.V k i true).recGaps (⟨k,
    i, x, 2, s.chip.mt,
    d⟩ : RecDom)).bathsEnded k i).bathsOf k i 3 ++ ((((((s.chip.raiseGlb F.GLB_STATUS.FAULT_PENDING).recLast k i x false).log 0 2 0x0200 i (x.val + 256 * k.val)).recBit F.GLB_REC_ACTIVE.V k i true).recGaps (⟨k,
    i, x, 2, s.chip.mt, d⟩ : RecDom)).bathsEnded k i).bathsOf k i 4) ≠ [])
    ∧ (∃ (s : State) (k : Fin 8) (i : Fin 1024) (x : Fin 256) (r : RecDom), s.chip.power.vin = true
    ∧ causeKind x = some k.val ∧ i.val < kindCount k ∧ x ≠ 0x14 ∧ k ≠ 5 ∧ s.chip.recOf k i = some r ∧ r.state = 3) :=
  ⟨⟨s0, 0, 0, 0, (by decide +kernel)⟩, ⟨s0, 0, 0, 1, [], (by decide +kernel)⟩, ⟨s23, 0, 0, 1, [], (by decide +kernel)⟩,
  ⟨s373, 0, 0, 1, (s373.chip.recOf 0 0).get (by decide +kernel), (by decide +kernel), (by decide +kernel),
  (by decide +kernel), (by decide +kernel), (by decide +kernel), (Option.some_get (by decide +kernel)).symm,
  (by decide +kernel)⟩⟩

theorem witness_RecoveriesStartRunAndEnd_2 :
    (∃ (s : State) (k : Fin 8) (i : Fin 1024) (x : Fin 256) (r : RecDom), s.chip.power.vin = true ∧ causeKind x = some k.val
    ∧ i.val < kindCount k ∧ x ≠ 0x14 ∧ k ≠ 5 ∧ s.chip.recOf k i = some r ∧ r.state ≠ 3) ∧ (∃ (c : Chip) (r : RecDom),
    bitOf r.kind (c.getF F.GLB_REC_CTRL.MANUAL) = false) ∧ (∃ (c : Chip) (r : RecDom),
    bitOf r.kind (c.getF F.GLB_REC_CTRL.MANUAL) = true) ∧ (∃ (s : State) (k : Fin 8) (i : Fin 1024) (r : _),
    s.chip.power.vin = true ∧ s.chip.recOf k i = some r ∧ r.state ≠ 1) :=
  ⟨⟨s333, 7, 1, 18, (s333.chip.recOf 7 1).get (by decide +kernel), (by decide +kernel), (by decide +kernel),
  (by decide +kernel), (by decide +kernel), (by decide +kernel), (Option.some_get (by decide +kernel)).symm,
  (by decide +kernel)⟩, ⟨s0.chip, ⟨0, 0, 0, 2, 0, []⟩, (by decide +kernel)⟩, ⟨s377.chip, ⟨0, 0, 0, 2, 0, []⟩,
  (by decide +kernel)⟩, ⟨s333, 7, 1, (s333.chip.recOf 7 1).get (by decide +kernel), (by decide +kernel),
  (Option.some_get (by decide +kernel)).symm, (by decide +kernel)⟩⟩

theorem witness_RecoveriesStartRunAndEnd_3 :
    (∃ (s : State) (k : Fin 8) (i : Fin 1024) (r : _), s.chip.power.vin = true ∧ s.chip.recOf k i = some r ∧ r.state = 1)
    ∧ (∃ (s : State) (k : Fin 8) (i : Fin 1024) (r : _), s.chip.power.vin = true ∧ s.chip.recOf k i = some r ∧ r.state = 2)
    ∧ (∃ (s : State) (k : Fin 8) (i : Fin 1024) (r : _), s.chip.power.vin = true ∧ s.chip.recOf k i = some r ∧ r.state ≠ 2)
    ∧ (∃ (s : State) (i : Fin 1024) (r : _), s.chip.power.vin = true ∧ s.chip.recOf 5 i = some r ∧ r.state = 2) :=
  ⟨⟨s371, 0, 0, (s371.chip.recOf 0 0).get (by decide +kernel), (by decide +kernel),
  (Option.some_get (by decide +kernel)).symm, (by decide +kernel)⟩, ⟨s333, 7, 1,
  (s333.chip.recOf 7 1).get (by decide +kernel), (by decide +kernel), (Option.some_get (by decide +kernel)).symm,
  (by decide +kernel)⟩, ⟨s370, 0, 0, (s370.chip.recOf 0 0).get (by decide +kernel), (by decide +kernel),
  (Option.some_get (by decide +kernel)).symm, (by decide +kernel)⟩, ⟨s374, 0, (s374.chip.recOf 5 0).get (by decide +kernel),
  (by decide +kernel), (Option.some_get (by decide +kernel)).symm, (by decide +kernel)⟩⟩

theorem witness_RecoveriesStartRunAndEnd_4 :
    ∃ (s : State) (d : List Nat), s.chip.power.vin = true ∧ s.chip.recOf 2 0 = none ∧ d.headD 0 = 0 :=
  ⟨s0, [], (by decide +kernel)⟩

theorem witness_RecoveryStepsStayInTheirDomain :
    (∃ (a : Nat) (x : _), (x < a ∨ a + 64 ≤ x)) ∧ (∃ (c : Chip) (i : Nat), smWf (fun _ => zerosB 48) c.flow.meters
    ∧ smFind c.flow.meters i ≠ none) ∧ (∃ (e : Nat) (i : Nat), i / 4096 ≠ e) :=
  ⟨⟨0, 64, (by decide +kernel)⟩, ⟨s378.chip, 0, (by decide +kernel)⟩, ⟨0, 4096, (by decide +kernel)⟩⟩

end Sys2Proof.Tests
end

section
/-!
The time values that telemetry exports (R488): both follow from DT's integer nanoseconds.
-/
namespace Sys2Proof.Proofs
open Sys2Proof Sys2Proof.Machine

/-- DT counts 2^-16 ns, the accumulator 2^-40 ns (R16, R450): without their fractions they are one number of ns. -/
theorem dt_integer_ns (c : Chip) : c.dt / 2 ^ 16 = c.time.acc / 2 ^ 40 :=
  Nat.div_div_eq_div_mul c.time.acc (2 ^ 24) (2 ^ 16)

/-- The signed reading looks at the low `w` bits only. -/
theorem signedOf_mod (w x : Nat) : signedOf w (x % 2 ^ w) = signedOf w x := by
  simp only [signedOf, Nat.mod_mod]

/-- On a 32-bit FT value the difference of R17 is the one that R488 writes, reduced first and then read as signed. -/
theorem ftDiff_eq_signedOf_mod {f : Nat} (hf : f < 2 ^ 32) (g : Nat) :
    ftDiff g f = signedOf 32 ((g + (2 ^ 32 - f)) % 2 ^ 32) := by
  rw [ftDiff, Nat.mod_eq_of_lt hf, signedOf_mod]

/-- Settles O6: the exported times are written on the accumulator, the statement on DT, and their integer ns agree. -/
theorem exportedTimesFollowTheDeviceTime : Obligations.ExportedTimesFollowTheDeviceTime := by
  unfold Obligations.ExportedTimesFollowTheDeviceTime
  rintro c f n d t hf rfl rfl rfl
  rw [dt_integer_ns, ← ftDiff_eq_signedOf_mod hf]
  exact ⟨rfl, rfl⟩

end Sys2Proof.Proofs
end

section
/-!
The map after a leave (R523). `leaveMap` is cut off after the first `k` slots: each slot takes one step, a step writes its own
slot only, and so what a member "then holds" can be read off the final map.
-/
namespace Sys2Proof.Proofs
open Sys2Proof Sys2Proof.Machine

/-! ### The member that holds the fewest slots -/

/-- Of `b` and the list, the entry with the least `f`, the first of them on a tie. -/
def firstLeast (f : Nat → Nat) (b : Nat) (xs : List Nat) : Nat :=
  xs.foldl (fun b x => if f x < f b then x else b) b

theorem firstLeast_cons_of_lt {f : Nat → Nat} {b x : Nat} (h : f x < f b) (xs : List Nat) :
    firstLeast f b (x :: xs) = firstLeast f x xs := by
  simp [firstLeast, h]

theorem firstLeast_cons_of_not_lt {f : Nat → Nat} {b x : Nat} (h : ¬ f x < f b) (xs : List Nat) :
    firstLeast f b (x :: xs) = firstLeast f b xs := by
  simp [firstLeast, h]

theorem firstLeast_mem (f : Nat → Nat) (b : Nat) (xs : List Nat) : firstLeast f b xs ∈ b :: xs := by
  induction xs generalizing b with
  | nil => exact List.mem_cons_self
  | cons x xs ih =>
    by_cases hlt : f x < f b
    · rw [firstLeast_cons_of_lt hlt]
      exact List.mem_cons_of_mem b (ih x)
    · rw [firstLeast_cons_of_not_lt hlt]
      exact ((List.sublist_cons_self x xs).cons_cons b).subset (ih b)

/-- In an ascending list the first least entry is the lowest one. -/
theorem firstLeast_le (f : Nat → Nat) (b : Nat) (xs : List Nat) (h : (b :: xs).Pairwise (· < ·)) :
    ∀ y ∈ b :: xs, f (firstLeast f b xs) < f y ∨ (f (firstLeast f b xs) = f y ∧ firstLeast f b xs ≤ y) := by
  induction xs generalizing b with
  | nil => simp [firstLeast]
  | cons x xs ih =>
    obtain ⟨hb, hx⟩ := List.pairwise_cons.mp h
    have hbx : b < x := hb x List.mem_cons_self
    by_cases hlt : f x < f b
    · rw [firstLeast_cons_of_lt hlt, List.forall_mem_cons]
      have hbest := ih x hx
      have hbestx := hbest x List.mem_cons_self
      exact ⟨by omega, hbest⟩
    · have hbxs : (b :: xs).Pairwise (· < ·) := h.sublist ((List.sublist_cons_self x xs).cons_cons b)
      obtain ⟨hb', hxs'⟩ := List.forall_mem_cons.mp (ih b hbxs)
      rw [firstLeast_cons_of_not_lt hlt, List.forall_mem_cons, List.forall_mem_cons]
      exact ⟨hb', by omega, hxs'⟩

/-- The device that takes a slot of the leaver while the map is `m`. -/
def heirOf (m : List Nat) (p : Nat) (rest : List Nat) : Nat :=
  if rest.contains p then p else firstLeast (slotCount m) (rest.headD 0) rest

theorem heirOf_of_mem {p : Nat} {rest : List Nat} (m : List Nat) (hp : p ∈ rest) : heirOf m p rest = p := by
  simp [heirOf, hp]

/-- The fold of the model starts at the head and meets it again: that second look changes nothing. -/
theorem heirOf_cons_of_notMem {p x : Nat} {xs : List Nat} (m : List Nat) (hp : p ∉ x :: xs) :
    heirOf m p (x :: xs) = firstLeast (slotCount m) x xs := by
  rw [heirOf, if_neg (by rwa [List.contains_iff_mem])]
  exact firstLeast_cons_of_not_lt (lt_irrefl _) xs

theorem heirOf_mem {p : Nat} {rest : List Nat} (m : List Nat) (hp : p ∉ rest) (hne : rest ≠ []) :
    heirOf m p rest ∈ rest := by
  obtain ⟨x, xs, rfl⟩ := List.exists_cons_of_ne_nil hne
  rw [heirOf_cons_of_notMem m hp]
  exact firstLeast_mem _ x xs

/-- R523: the heir holds the fewest slots, and has the lowest number of those that do. -/
theorem heirOf_fewest {p y : Nat} {rest : List Nat} (m : List Nat) (hp : p ∉ rest) (hs : rest.Pairwise (· < ·))
    (hy : y ∈ rest) :
    slotCount m (heirOf m p rest) < slotCount m y ∨
      (slotCount m (heirOf m p rest) = slotCount m y ∧ heirOf m p rest ≤ y) := by
  obtain ⟨x, xs, rfl⟩ := List.exists_cons_of_ne_nil (List.ne_nil_of_mem hy)
  rw [heirOf_cons_of_notMem m hp]
  exact firstLeast_le _ x xs hs y hy

/-- The slots a device owns, counted by slot number. -/
theorem slotCount_eq_range (m : List Nat) (z : Nat) :
    slotCount m z = ((List.range m.length).filter (fun t => m.getD t 4 == z)).length := by
  have hm : (List.range m.length).map (m.getD · 4) = m := List.ext_getElem (by simp) (by simp +contextual)
  calc slotCount m z = (((List.range m.length).map (m.getD · 4)).filter (· == z)).length := by rw [hm, slotCount]
    _ = _ := by rw [List.filter_map, List.length_map]; rfl

/-! ### The map after the first `k` slots -/

/-- `leaveMap` on the slots below `k`. -/
def leaveUpTo (m : List Nat) (d p : Nat) (rest : List Nat) (k : Nat) : List Nat :=
  ((List.range k).filter (fun s => m.getD s 4 == d)).foldl (fun m s => m.set s (heirOf m p rest)) m

theorem leaveMap_eq_leaveUpTo (m : List Nat) (d p : Nat) (rest : List Nat) :
    leaveMap m d p rest = leaveUpTo m d p rest 256 := rfl

section
variable {m : List Nat} {d p : Nat} {rest : List Nat} {k j s : Nat}

theorem leaveUpTo_succ_of_eq (h : m.getD k 4 = d) :
    leaveUpTo m d p rest (k + 1) = (leaveUpTo m d p rest k).set k (heirOf (leaveUpTo m d p rest k) p rest) := by
  simp only [leaveUpTo, List.range_succ, List.filter_append, List.foldl_append, List.filter_singleton, h, beq_self_eq_true,
    cond_true, List.foldl_cons, List.foldl_nil]

theorem leaveUpTo_succ_of_ne (h : m.getD k 4 ≠ d) : leaveUpTo m d p rest (k + 1) = leaveUpTo m d p rest k := by
  simp only [leaveUpTo, List.range_succ, List.filter_append, List.foldl_append, List.filter_singleton, beq_false_of_ne h,
    cond_false, List.foldl_nil]

theorem leaveUpTo_length : (leaveUpTo m d p rest k).length = m.length := by
  induction k with
  | zero => rfl
  | succ k ih =>
    by_cases h : m.getD k 4 = d
    · rw [leaveUpTo_succ_of_eq h, List.length_set, ih]
    · rw [leaveUpTo_succ_of_ne h, ih]

/-- The step at slot `k` writes no slot but `k`, and that one only if the leaver owned it. -/
theorem leaveUpTo_succ_getD (h : s ≠ k ∨ m.getD s 4 ≠ d) :
    (leaveUpTo m d p rest (k + 1)).getD s 4 = (leaveUpTo m d p rest k).getD s 4 := by
  by_cases hk : m.getD k 4 = d
  · have hsk : k ≠ s := by
      rintro rfl
      exact h.elim (· rfl) (· hk)
    rw [leaveUpTo_succ_of_eq hk, List.getD_eq_getElem?_getD, List.getElem?_set_ne hsk, ← List.getD_eq_getElem?_getD]
  · rw [leaveUpTo_succ_of_ne hk]

/-- Slots below `j` have their final owner after `j` steps, and slots that were not the leaver's never change. -/
theorem leaveUpTo_getD_of_le (hjk : j ≤ k) (h : s < j ∨ m.getD s 4 ≠ d) :
    (leaveUpTo m d p rest k).getD s 4 = (leaveUpTo m d p rest j).getD s 4 := by
  induction k, hjk using Nat.le_induction with
  | base => rfl
  | succ k hjk ih => rw [leaveUpTo_succ_getD (h.imp_left fun hs => by omega), ih]

/-- A slot not yet reached still has its owner. -/
theorem leaveUpTo_getD_of_ge (h : k ≤ s) : (leaveUpTo m d p rest k).getD s 4 = m.getD s 4 := by
  induction k with
  | zero => rfl
  | succ k ih => rw [leaveUpTo_succ_getD (.inl (by omega)), ih (by omega)]

/-- A leave moves no slot other than the leaver's. -/
theorem leaveMap_getD_of_ne (h : m.getD s 4 ≠ d) : (leaveMap m d p rest).getD s 4 = m.getD s 4 :=
  leaveUpTo_getD_of_le (Nat.zero_le 256) (.inr h)

/-- A slot of the leaver goes to the heir of the map that the slots below it have left. -/
theorem leaveMap_getD_of_eq (hm : m.length = 256) (hs : s < 256) (h : m.getD s 4 = d) :
    (leaveMap m d p rest).getD s 4 = heirOf (leaveUpTo m d p rest s) p rest := by
  have hlen : s < (leaveUpTo m d p rest s).length := by rw [leaveUpTo_length, hm]; exact hs
  rw [leaveMap_eq_leaveUpTo, leaveUpTo_getD_of_le hs (.inl s.lt_succ_self), leaveUpTo_succ_of_eq h,
    List.getD_eq_getElem?_getD, List.getElem?_set_self hlen, Option.getD_some]

/-- What a member `z` holds when slot `s` is given away, read off the final map: the slots below `s` and those that were not
the leaver's. -/
theorem slotCount_leaveUpTo {z : Nat} (hm : m.length = 256) (hs : s < 256) (hz : z ≠ d) :
    slotCount (leaveUpTo m d p rest s) z = ((List.range 256).filter (fun t =>
      (decide (t < s) || m.getD t 4 != d) && (leaveMap m d p rest).getD t 4 == z)).length := by
  rw [slotCount_eq_range, leaveUpTo_length, hm]
  refine congrArg List.length (List.filter_congr fun t _ => ?_)
  by_cases ht : t < s ∨ m.getD t 4 ≠ d
  · have hkept : (decide (t < s) || m.getD t 4 != d) = true := by simpa using ht
    rw [hkept, Bool.true_and, leaveMap_eq_leaveUpTo, leaveUpTo_getD_of_le hs.le ht]
  · obtain ⟨hts, htd⟩ : s ≤ t ∧ m.getD t 4 = d := by simpa using ht
    have hdropped : (decide (t < s) || m.getD t 4 != d) = false := by simpa using ⟨hts, htd⟩
    rw [hdropped, Bool.false_and, leaveUpTo_getD_of_ge hts, htd, beq_false_of_ne hz.symm]

end

/-- Settles O7: a slot of the leaver goes to the heir of the map at that moment, and no other slot moves. -/
theorem leaveMovesOnlyTheLeaversSlots : Obligations.LeaveMovesOnlyTheLeaversSlots := by
  unfold Obligations.LeaveMovesOnlyTheLeaversSlots
  refine ⟨fun _ _ _ => rfl, fun m d p rest hm hd hne hsorted => ⟨?_, ?_, ?_, ?_⟩⟩
  · rw [leaveMap_eq_leaveUpTo, leaveUpTo_length, hm]
  · exact fun s _ hsd => leaveMap_getD_of_ne hsd
  · intro hp s hs hsd
    rw [leaveMap_getD_of_eq hm hs hsd, heirOf_of_mem _ hp]
  · intro hp s hs hsd
    have hheir := heirOf_mem (leaveUpTo m d p rest s) hp hne
    rw [leaveMap_getD_of_eq hm hs hsd]
    refine ⟨hheir, fun held y hy hheld => ?_⟩
    have hcount : ∀ z ∈ rest, held z = slotCount (leaveUpTo m d p rest s) z := fun z hz => by
      rw [hheld, slotCount_leaveUpTo hm hs (ne_of_mem_of_not_mem hz hd)]
    rw [hcount _ hheir, hcount y hy]
    exact heirOf_fewest _ hp hsorted hy

end Sys2Proof.Proofs
end

section
/-!
STOP_BATH past INVALID (R67, R68): the policy's refusal (R581), and the acceptance at once of a stop-bath that is not timed.
-/
namespace Sys2Proof.Proofs
open Sys2Proof Sys2Proof.Machine

/-- A command whose interface is not RUNNING runs its body (R63). -/
theorem command_of_idle {c : Chip} {p : Port} {i : Nat} (hrun : c.flag p.running i = false) (k : Chip → Chip) :
    c.command p k i = k c := by
  simp [Chip.command, hrun]

/-- R581: denied when STOPBATH_OK is 0, unless the command restarts a domain held stopped or stops a frozen cluster. -/
theorem bathDenied_iff {c : Chip} {u i : Nat} {src : Bool} :
    c.bathDenied u i src = true ↔ c.polBit 0x248 u = false ∧
      (src = true ∨ (c.recOfUnit u i).any (fun r => r.state == 3) = false) ∧
      (u ≠ 4 ∨ bitOf i (c.getF F.SFL_STATUS.FROZEN) = false) := by
  simp only [Chip.bathDenied, Bool.and_eq_true, Bool.not_eq_true', Bool.and_eq_false_iff, Bool.not_eq_false',
    beq_eq_false_iff_ne, and_assoc]

/-- The two stop-baths that no policy denies. -/
theorem bathDenied_eq_false {c : Chip} {u i : Nat} {src : Bool}
    (h : (src = false ∧ (c.recOfUnit u i).any (fun r => r.state == 3) = true) ∨
      (u = 4 ∧ bitOf i (c.getF F.SFL_STATUS.FROZEN) = true)) : c.bathDenied u i src = false := by
  rw [Bool.eq_false_iff, Ne, bathDenied_iff]
  rintro ⟨-, hstopped, hfrozen⟩
  rcases h with ⟨hsrc, hheld⟩ | ⟨hu, hfroze⟩
  · simp [hsrc, hheld] at hstopped
  · simp [hu, hfroze] at hfrozen

section
variable {c : Chip} {u i : Nat} {src timed : Bool}

/-- INVALID and the check of R68 passed, the policy's refusal comes before PAST, FAR and BUSY (R67). -/
theorem stopBath_of_denied (hrun : c.flag F.PLT_CMD_STATUS.RUNNING = false) (hvalid : c.bathInvalid u i src timed = false)
    (hload : src = true → loadOnlyDiffers (c.plate.cur.getD []) (c.plate.pend.getD []) = false)
    (hdenied : c.bathDenied u i src = true) :
    c.stopBath u i src timed = (c.deniedCapture 0 0x10000 0).finish portPlt stDenied := by
  rw [Chip.stopBath, command_of_idle (p := portPlt) hrun]
  simp [hvalid, Bool.and_eq_false_imp.mpr hload, hdenied]

/-- A stop-bath without a time meets neither PAST nor FAR: it is taken at once where nothing refuses it. -/
theorem stopBath_of_allowed_untimed (hrun : c.flag F.PLT_CMD_STATUS.RUNNING = false)
    (hvalid : c.bathInvalid u i src false = false)
    (hload : src = true → loadOnlyDiffers (c.plate.cur.getD []) (c.plate.pend.getD []) = false)
    (hallowed : c.bathDenied u i src = false) (hfree : c.bathBusy u i = false) :
    c.stopBath u i src false = c.bathTake u i src none (c.getQ F.PLT_CMD_TIME.V) := by
  rw [Chip.stopBath, command_of_idle (p := portPlt) hrun]
  simp [hvalid, Bool.and_eq_false_imp.mpr hload, hallowed, hfree]

end

/-- With VIN present STOP_BATH acts on the device and leaves the queue. -/
theorem exec_stopBath {s : State} (hvin : s.chip.power.vin = true) (u : Fin 16) (i : Fin 512) (src timed : Bool) :
    exec (.stopBath u i src timed) s = .next ⟨(s.chip.stopBath u i src timed).flush, s.pending⟩ :=
  calc exec (.stopBath u i src timed) s
    _ = execStopBath u i src timed s := rfl
    _ = .next ⟨(s.chip.stopBath u i src timed).flush, s.pending⟩ := State.on_vin hvin _

/-- Settles O9: a unit without STOPBATH_OK is denied, and neither a restart of a domain held stopped nor a stop-bath of a frozen
cluster meets that refusal. -/
theorem policyDeniesStopBathsButTwo : Obligations.PolicyDeniesStopBathsButTwo := by
  unfold Obligations.PolicyDeniesStopBathsButTwo
  constructor
  · intro s u i src timed hvin hrun hvalid hload hpol hstopped hfrozen
    have hunit : u.val ≠ 4 ∨ bitOf i (s.chip.getF F.SFL_STATUS.FROZEN) = false :=
      hfrozen.imp_left fun hu h4 => hu (Fin.ext h4)
    have hdenied := bathDenied_iff.mpr ⟨hpol, hstopped, hunit⟩
    exact ⟨0, 0x10000, 0, by rw [exec_stopBath hvin, stopBath_of_denied hrun hvalid hload hdenied]⟩
  · intro s u i src hvin hrun hvalid hload hcase hfree
    have hallowed : s.chip.bathDenied u i src = false :=
      bathDenied_eq_false (hcase.imp_right (And.imp_left (congrArg Fin.val)))
    rw [exec_stopBath hvin, stopBath_of_allowed_untimed hrun hvalid hload hallowed hfree]

end Sys2Proof.Proofs
end

section
/-!
What every command shares: it acts on the device alone, and all but ten need VIN (R36). From that the runs with VIN absent.
-/
namespace Sys2Proof.Proofs
open Sys2Proof Sys2Proof.Machine

/-! ### Commands as functions on the device -/

/-- No command stops the block or touches the queue. -/
theorem exec_next (s : State) (c : Instr) : ∃ t, exec c s = .next t ∧ t.pending = s.pending := by
  cases c with
  | _ => exact ⟨_, rfl, rfl⟩

/-- With VIN absent a command outside the list changes nothing: it acts on the device through `State.on`. -/
theorem exec_unpowered {s : State} {c : Instr} (hvin : s.chip.power.vin = false) (hc : reachesUnpowered c = false) :
    exec c s = .next s := by
  obtain ⟨⟨_, _, _, _, _, _, _, ⟨_, vin⟩⟩, _⟩ := s
  obtain rfl : vin = false := hvin
  have hnot : ¬(true = false) := nofun
  cases c with
  | vsbRise | vsbLoss | vinQualified | vinLoss | vinOver | fundamentalReset | perstDeasserted | moduleInsert | moduleRemove
  | logFlashCopy => exact absurd hc hnot
  | _ => rfl

/-- The shape in which a clause asks for a command's result: where VIN is present, from the device it leaves. -/
theorem on_eq {s : State} {f : Chip → Chip} {d : Chip} (hvin : s.chip.power.vin = true) (h : f s.chip = d) :
    s.on f = .next ⟨d, s.pending⟩ := by
  rw [State.on_vin hvin, h]

/-- A command that leaves the device as it is. -/
theorem on_self {s : State} {f : Chip → Chip} (h : f s.chip = s.chip) : s.on f = .next s := by
  simp [State.on, h]

/-- A clause that asks for properties of the state a command leaves. -/
theorem on_exists {s : State} {f : Chip → Chip} {P : State → Prop} (hvin : s.chip.power.vin = true)
    (h : P ⟨f s.chip, s.pending⟩) : ∃ t, s.on f = .next t ∧ P t :=
  ⟨_, State.on_vin hvin f, h⟩

/-! ### Steps and runs -/

/-- Settles O1: a step runs the front command, and every command acts on the device alone. -/
theorem stepRunsTheFrontCommand : Obligations.StepRunsTheFrontCommand := by
  unfold Obligations.StepRunsTheFrontCommand
  exact ⟨fun _ _ _ => step_cons, fun _ => step_nil, exec_next⟩

/-- A step always answers a next state and takes one command off the queue. -/
theorem step_next (s : State) : ∃ t, step s = .next t ∧ t.pending = s.pending.drop 1 := by
  cases hs : s.pending with
  | nil => exact ⟨s, step_nil hs, by simp [hs]⟩
  | cons c r =>
    obtain ⟨t, ht, hp⟩ := exec_next { s with pending := r } c
    exact ⟨t, by rw [step_cons hs, ht], by simp [hp]⟩

theorem run_succ {s t : State} (h : step s = .next t) (n : Nat) : s.run (n + 1) = t.run n := by
  simp [State.run, h]

/-- A run takes its commands off the queue in order. -/
theorem run_next (s : State) (n : Nat) : ∃ t, s.run n = .next t ∧ t.pending = s.pending.drop n := by
  induction n generalizing s with
  | zero => exact ⟨s, rfl, rfl⟩
  | succ n ih =>
    obtain ⟨t, ht, hp⟩ := step_next s
    obtain ⟨u, hu, hq⟩ := ih t
    exact ⟨u, by rw [run_succ ht, hu], by rw [hq, hp, List.drop_drop, Nat.add_comm 1]⟩

/-- With VIN absent a step over a command outside the list only takes it off the queue. -/
theorem step_unpowered {s : State} (hvin : s.chip.power.vin = false)
    (hfront : ∀ c ∈ s.pending.take 1, reachesUnpowered c = false) : step s = .next ⟨s.chip, s.pending.drop 1⟩ := by
  cases hs : s.pending with
  | nil => rw [step_nil hs, List.drop_nil, ← hs]
  | cons c r =>
    have hc : reachesUnpowered c = false := hfront c (by simp [hs])
    rw [step_cons hs, exec_unpowered (s := { s with pending := r }) hvin hc]
    rfl

theorem run_unpowered {s : State} (n : Nat) (hvin : s.chip.power.vin = false)
    (hcmds : ∀ c ∈ s.pending.take n, reachesUnpowered c = false) : s.run n = .next ⟨s.chip, s.pending.drop n⟩ := by
  induction n generalizing s with
  | zero => rfl
  | succ n ih =>
    have hfront : ∀ c ∈ s.pending.take 1, reachesUnpowered c = false := fun c hc =>
      hcmds c (List.take_subset_take_left _ (by omega) hc)
    have hrest : ∀ c ∈ (s.pending.drop 1).take n, reachesUnpowered c = false := fun c hc =>
      hcmds c (List.mem_of_mem_drop (by rwa [List.take_drop, Nat.add_comm] at hc))
    rw [run_succ (step_unpowered hvin hfront), ih (s := ⟨s.chip, s.pending.drop 1⟩) hvin hrest, List.drop_drop, Nat.add_comm 1]

/-- Settles O2, by induction on the length of the run. -/
theorem unpoweredRunsChangeNothing : Obligations.UnpoweredRunsChangeNothing := by
  unfold Obligations.UnpoweredRunsChangeNothing
  exact ⟨run_next, fun _ n => run_unpowered n⟩

end Sys2Proof.Proofs
end

section
/-!
Fields of registers that lie apart: what a write, an event, a completed command or an event counter of one field leaves of
another. Two fields are apart where their addresses or their bits differ.
-/
namespace Sys2Proof.Proofs
open Sys2Proof Sys2Proof.Machine

/-- Field `g` at (k, l) shares no bit with field `f` at (i, j). -/
abbrev apart (f : Fld) (i j : Nat) (g : Fld) (k l : Nat) : Prop :=
  g.addr k l ≠ f.addr i j ∨ f.hi < g.lo ∨ g.hi < f.lo

/-- An address outside the pending bits of MSI-X, which an interrupt message may set. -/
abbrev offPba (a : Nat) : Prop := a < 0x88000 ∨ 0x88100 ≤ a

theorem offPba.not_isPba {a : Nat} (h : offPba a) : ¬isPba a := by
  unfold isPba
  omega

section
variable {c : Chip} {f g : Fld} {i j k l : Nat}

theorem getF_putF_apart {v : Nat} (hf : f.fits) (h : apart f i j g k l) : (c.putF f v i j).getF g k l = c.getF g k l :=
  h.elim Chip.getF_putF_ne (Chip.getF_putF_bits hf)

theorem getF_bump_apart {n : Nat} (hf : f.fits) (h : apart f i j g k l) : (c.bump f i j n).getF g k l = c.getF g k l :=
  getF_putF_apart hf h

theorem getF_sink_apart {n : Nat} (hf : f.fits) (h : apart f i j g k l) : (c.sink f i j n).getF g k l = c.getF g k l :=
  getF_putF_apart hf h

theorem getF_raise_apart (hf : f.fits) (h : apart f i 0 g k l) (hk : offPba (g.addr k l)) :
    (c.raise f i).getF g k l = c.getF g k l :=
  h.elim (Chip.getF_raise_ne · hk.not_isPba) (Chip.getF_raise_bits hf · hk.not_isPba)

theorem getF_raise_one (hf : f.fits) (hw : f.hi = f.lo) (hk : offPba (f.addr i)) : (c.raise f i).getF f i = 1 :=
  Chip.getF_raise_self hf hw hk.not_isPba

theorem getF_putQ_apart {v : Nat} (h : g.addr k l ≠ f.addr i j) (h4 : g.addr k l ≠ f.addr i j + 4) :
    (c.putQ f v i j).getF g k l = c.getF g k l := by
  rw [Chip.getF, Chip.rd_putQ_ne h h4, ← Chip.getF]

theorem getF_finish_apart {p : Port} {st : Nat} (hd : p.done.fits) (hr : p.running.fits) (hs : p.status.fits)
    (h : apart p.done i 0 g k l ∧ apart p.running i 0 g k l ∧ apart p.status i 0 g k l) (hk : offPba (g.addr k l)) :
    (c.finish p st i).getF g k l = c.getF g k l := by
  obtain ⟨hdone, hrunning, hstatus⟩ := h
  have hraise : (((c.putF p.status st i).putF p.running 0 i).raiseDone p.done i).getF g k l =
      ((c.putF p.status st i).putF p.running 0 i).getF g k l :=
    hdone.elim (Chip.getF_raiseDone_ne · hk.not_isPba) (Chip.getF_raiseDone_bits hd · hk.not_isPba)
  rw [Chip.finish, hraise, getF_putF_apart hr hrunning, getF_putF_apart hs hstatus]

end

/-! ### Completed commands of the seven command ports -/

theorem laid_portTim : portTim.laid 0 := ⟨by decide, by decide, by decide, rfl, rfl, by decide, by decide, rfl, rfl, rfl, offPba.not_isPba (by decide)⟩

theorem laid_portPlt : portPlt.laid 0 := ⟨by decide, by decide, by decide, rfl, rfl, by decide, by decide, rfl, rfl, rfl, offPba.not_isPba (by decide)⟩

/-! ### Event counters -/

/-- The registers of the event counters (R471). -/
abbrev isEvReg (a : Nat) : Prop := 0x180000 ≤ a ∧ a < 0x190000

/-- An event counter that selects is one of the 4,096. -/
theorem lt_of_mem_evSelecting {c : Chip} {blk inst ev n : Nat} (h : n ∈ c.evSelecting blk inst ev) : n < 4096 := by
  obtain ⟨e, -, he⟩ := List.mem_filterMap.mp h
  simp only [Option.ite_none_right_eq_some, Option.some.injEq] at he
  obtain ⟨hsel, -, rfl⟩ := he
  omega

theorem rd_evAdd {c : Chip} {n k a : Nat} (hn : n < 4096) (ha : ¬isEvReg a) : (c.evAdd n k).rd a = c.rd a := by
  have hcnt : F.TEL_EV_CNT.V.addr n 0 = 0x180000 + n * 8 := rfl
  have hctl : F.TEL_EV_CTL.OVF.addr n 0 = 0x188004 + n * 8 := rfl
  simp only [Chip.evAdd]
  split
  · rw [Chip.rd_putF_ne (by omega), Chip.rd_putQ_ne (by omega) (by omega)]
  · rw [Chip.rd_putQ_ne (by omega) (by omega)]

/-- An event that pulses changes the event counters alone. -/
theorem rd_signal {c : Chip} {blk inst ev k a : Nat} (ha : ¬isEvReg a) : (c.signal blk inst ev k).rd a = c.rd a := by
  unfold Chip.signal
  split
  · rfl
  · exact List.foldlRecOn (motive := fun (d : Chip) => d.rd a = c.rd a) _ _ rfl fun d hd n hn =>
      (rd_evAdd (lt_of_mem_evSelecting hn) ha).trans hd

theorem getF_signal {c : Chip} {blk inst ev n : Nat} {g : Fld} {k l : Nat} (ha : ¬isEvReg (g.addr k l)) :
    (c.signal blk inst ev n).getF g k l = c.getF g k l := by
  rw [Chip.getF, rd_signal ha, ← Chip.getF]

/-! ### What stays of the rest of the device

The lemmas of `Chip.quiet` as equations, field by field, for `simp`. -/

@[simp] theorem raise_rest (c : Chip) (f : Fld) (i : Nat) :
    (c.raise f i).dram = c.dram ∧ (c.raise f i).wideCap = c.wideCap ∧ (c.raise f i).wideStage = c.wideStage ∧
    (c.raise f i).freeCtr = c.freeCtr ∧ (c.raise f i).rdData = c.rdData ∧ (c.raise f i).power = c.power ∧
    (c.raise f i).flash = c.flash ∧ (c.raise f i).time = c.time ∧ (c.raise f i).mgt = c.mgt ∧
    (c.raise f i).sfl = c.sfl ∧ (c.raise f i).lanes = c.lanes ∧ (c.raise f i).ports = c.ports ∧
    (c.raise f i).sites = c.sites ∧ (c.raise f i).pkts = c.pkts ∧ (c.raise f i).parse = c.parse ∧
    (c.raise f i).rules = c.rules ∧ (c.raise f i).tern = c.tern ∧ (c.raise f i).pattern = c.pattern ∧
    (c.raise f i).tm = c.tm ∧ (c.raise f i).sched = c.sched ∧ (c.raise f i).hbm = c.hbm ∧ (c.raise f i).tel = c.tel ∧
    (c.raise f i).flow = c.flow ∧ (c.raise f i).gang = c.gang ∧ (c.raise f i).act = c.act ∧
    (c.raise f i).wds = c.wds ∧ (c.raise f i).plate = c.plate ∧ (c.raise f i).recov = c.recov := by
  have h := c.quiet_raise f i
  exact ⟨h.dram, h.wideCap, h.wideStage, h.freeCtr, h.rdData, h.power, h.flash, h.time, h.mgt, h.sfl, h.lanes, h.ports, h.sites, h.pkts,
    h.parse, h.rules, h.tern, h.pattern, h.tm, h.sched, h.hbm, h.tel, h.flow, h.gang, h.act, h.wds, h.plate, h.recov⟩

@[simp] theorem raiseGlb_rest (c : Chip) (f : Fld) :
    (c.raiseGlb f).dram = c.dram ∧ (c.raiseGlb f).wideCap = c.wideCap ∧ (c.raiseGlb f).wideStage = c.wideStage ∧
    (c.raiseGlb f).freeCtr = c.freeCtr ∧ (c.raiseGlb f).rdData = c.rdData ∧ (c.raiseGlb f).power = c.power ∧
    (c.raiseGlb f).flash = c.flash ∧ (c.raiseGlb f).time = c.time ∧ (c.raiseGlb f).mgt = c.mgt ∧
    (c.raiseGlb f).sfl = c.sfl ∧ (c.raiseGlb f).lanes = c.lanes ∧ (c.raiseGlb f).ports = c.ports ∧
    (c.raiseGlb f).sites = c.sites ∧ (c.raiseGlb f).pkts = c.pkts ∧ (c.raiseGlb f).parse = c.parse ∧
    (c.raiseGlb f).rules = c.rules ∧ (c.raiseGlb f).tern = c.tern ∧ (c.raiseGlb f).pattern = c.pattern ∧
    (c.raiseGlb f).tm = c.tm ∧ (c.raiseGlb f).sched = c.sched ∧ (c.raiseGlb f).hbm = c.hbm ∧
    (c.raiseGlb f).tel = c.tel ∧ (c.raiseGlb f).flow = c.flow ∧ (c.raiseGlb f).gang = c.gang ∧
    (c.raiseGlb f).act = c.act ∧ (c.raiseGlb f).wds = c.wds ∧ (c.raiseGlb f).plate = c.plate ∧
    (c.raiseGlb f).recov = c.recov := by
  have h := c.quiet_raiseGlb f
  exact ⟨h.dram, h.wideCap, h.wideStage, h.freeCtr, h.rdData, h.power, h.flash, h.time, h.mgt, h.sfl, h.lanes, h.ports, h.sites, h.pkts,
    h.parse, h.rules, h.tern, h.pattern, h.tm, h.sched, h.hbm, h.tel, h.flow, h.gang, h.act, h.wds, h.plate, h.recov⟩

@[simp] theorem finish_rest (c : Chip) (p : Port) (st i : Nat) :
    (c.finish p st i).dram = c.dram ∧ (c.finish p st i).wideCap = c.wideCap ∧
    (c.finish p st i).wideStage = c.wideStage ∧ (c.finish p st i).freeCtr = c.freeCtr ∧
    (c.finish p st i).rdData = c.rdData ∧ (c.finish p st i).power = c.power ∧ (c.finish p st i).flash = c.flash ∧
    (c.finish p st i).time = c.time ∧ (c.finish p st i).mgt = c.mgt ∧ (c.finish p st i).sfl = c.sfl ∧
    (c.finish p st i).lanes = c.lanes ∧ (c.finish p st i).ports = c.ports ∧ (c.finish p st i).sites = c.sites ∧
    (c.finish p st i).pkts = c.pkts ∧ (c.finish p st i).parse = c.parse ∧ (c.finish p st i).rules = c.rules ∧
    (c.finish p st i).tern = c.tern ∧ (c.finish p st i).pattern = c.pattern ∧ (c.finish p st i).tm = c.tm ∧
    (c.finish p st i).sched = c.sched ∧ (c.finish p st i).hbm = c.hbm ∧ (c.finish p st i).tel = c.tel ∧
    (c.finish p st i).flow = c.flow ∧ (c.finish p st i).gang = c.gang ∧ (c.finish p st i).act = c.act ∧
    (c.finish p st i).wds = c.wds ∧ (c.finish p st i).plate = c.plate ∧ (c.finish p st i).recov = c.recov := by
  have h := c.quiet_finish p st i
  exact ⟨h.dram, h.wideCap, h.wideStage, h.freeCtr, h.rdData, h.power, h.flash, h.time, h.mgt, h.sfl, h.lanes, h.ports, h.sites, h.pkts,
    h.parse, h.rules, h.tern, h.pattern, h.tm, h.sched, h.hbm, h.tel, h.flow, h.gang, h.act, h.wds, h.plate, h.recov⟩

@[simp] theorem sink_rest (c : Chip) (f : Fld) (i j n : Nat) :
    (c.sink f i j n).dram = c.dram ∧ (c.sink f i j n).wideCap = c.wideCap ∧ (c.sink f i j n).wideStage = c.wideStage ∧
    (c.sink f i j n).freeCtr = c.freeCtr ∧ (c.sink f i j n).rdData = c.rdData ∧ (c.sink f i j n).power = c.power ∧
    (c.sink f i j n).flash = c.flash ∧ (c.sink f i j n).time = c.time ∧ (c.sink f i j n).mgt = c.mgt ∧
    (c.sink f i j n).sfl = c.sfl ∧ (c.sink f i j n).lanes = c.lanes ∧ (c.sink f i j n).ports = c.ports ∧
    (c.sink f i j n).sites = c.sites ∧ (c.sink f i j n).pkts = c.pkts ∧ (c.sink f i j n).parse = c.parse ∧
    (c.sink f i j n).rules = c.rules ∧ (c.sink f i j n).tern = c.tern ∧ (c.sink f i j n).pattern = c.pattern ∧
    (c.sink f i j n).tm = c.tm ∧ (c.sink f i j n).sched = c.sched ∧ (c.sink f i j n).hbm = c.hbm ∧
    (c.sink f i j n).tel = c.tel ∧ (c.sink f i j n).flow = c.flow ∧ (c.sink f i j n).gang = c.gang ∧
    (c.sink f i j n).act = c.act ∧ (c.sink f i j n).wds = c.wds ∧ (c.sink f i j n).plate = c.plate ∧
    (c.sink f i j n).recov = c.recov := by
  have h := c.quiet_sink f i j n
  exact ⟨h.dram, h.wideCap, h.wideStage, h.freeCtr, h.rdData, h.power, h.flash, h.time, h.mgt, h.sfl, h.lanes, h.ports, h.sites, h.pkts,
    h.parse, h.rules, h.tern, h.pattern, h.tm, h.sched, h.hbm, h.tel, h.flow, h.gang, h.act, h.wds, h.plate, h.recov⟩

theorem quiet_foldl {α : Type} {f : Chip → α → Chip} {c : Chip} (h : ∀ (d : Chip) x, d.quiet (f d x)) (l : List α) :
    c.quiet (l.foldl f c) :=
  List.foldlRecOn (motive := c.quiet) _ _ c.quiet_refl fun _ hd x _ => Chip.quiet_trans hd (h _ x)

theorem quiet_evAdd (c : Chip) (n k : Nat) : c.quiet (c.evAdd n k) := by
  simp only [Chip.evAdd]
  split
  · exact Chip.quiet_trans (Chip.quiet_putQ ..) (Chip.quiet_putF ..)
  · exact Chip.quiet_putQ ..

/-- A pulse event counts in the event counters alone (R471). -/
theorem quiet_signal (c : Chip) (blk inst ev k : Nat) : c.quiet (c.signal blk inst ev k) := by
  unfold Chip.signal
  split
  · exact c.quiet_refl
  · exact quiet_foldl (fun d n => quiet_evAdd d n _) _

@[simp] theorem signal_rest (c : Chip) (blk inst ev k : Nat) :
    (c.signal blk inst ev k).dram = c.dram ∧ (c.signal blk inst ev k).wideCap = c.wideCap ∧
    (c.signal blk inst ev k).wideStage = c.wideStage ∧ (c.signal blk inst ev k).freeCtr = c.freeCtr ∧
    (c.signal blk inst ev k).rdData = c.rdData ∧ (c.signal blk inst ev k).power = c.power ∧
    (c.signal blk inst ev k).flash = c.flash ∧ (c.signal blk inst ev k).time = c.time ∧
    (c.signal blk inst ev k).mgt = c.mgt ∧ (c.signal blk inst ev k).sfl = c.sfl ∧
    (c.signal blk inst ev k).lanes = c.lanes ∧ (c.signal blk inst ev k).ports = c.ports ∧
    (c.signal blk inst ev k).sites = c.sites ∧ (c.signal blk inst ev k).pkts = c.pkts ∧
    (c.signal blk inst ev k).parse = c.parse ∧ (c.signal blk inst ev k).rules = c.rules ∧
    (c.signal blk inst ev k).tern = c.tern ∧ (c.signal blk inst ev k).pattern = c.pattern ∧
    (c.signal blk inst ev k).tm = c.tm ∧ (c.signal blk inst ev k).sched = c.sched ∧
    (c.signal blk inst ev k).hbm = c.hbm ∧ (c.signal blk inst ev k).tel = c.tel ∧
    (c.signal blk inst ev k).flow = c.flow ∧ (c.signal blk inst ev k).gang = c.gang ∧
    (c.signal blk inst ev k).act = c.act ∧ (c.signal blk inst ev k).wds = c.wds ∧
    (c.signal blk inst ev k).plate = c.plate ∧ (c.signal blk inst ev k).recov = c.recov := by
  have h := quiet_signal c blk inst ev k
  exact ⟨h.dram, h.wideCap, h.wideStage, h.freeCtr, h.rdData, h.power, h.flash, h.time, h.mgt, h.sfl, h.lanes, h.ports, h.sites, h.pkts,
    h.parse, h.rules, h.tern, h.pattern, h.tm, h.sched, h.hbm, h.tel, h.flow, h.gang, h.act, h.wds, h.plate, h.recov⟩

/-- A port statistic counts in its own registers (R469). -/
theorem quiet_stat (c : Chip) (p i k : Nat) : c.quiet (c.stat p i k) := Chip.quiet_putQ ..

@[simp] theorem stat_rest (c : Chip) (p i k : Nat) :
    (c.stat p i k).dram = c.dram ∧ (c.stat p i k).wideCap = c.wideCap ∧ (c.stat p i k).wideStage = c.wideStage ∧
    (c.stat p i k).freeCtr = c.freeCtr ∧ (c.stat p i k).rdData = c.rdData ∧ (c.stat p i k).power = c.power ∧
    (c.stat p i k).flash = c.flash ∧ (c.stat p i k).time = c.time ∧ (c.stat p i k).mgt = c.mgt ∧
    (c.stat p i k).sfl = c.sfl ∧ (c.stat p i k).lanes = c.lanes ∧ (c.stat p i k).ports = c.ports ∧
    (c.stat p i k).sites = c.sites ∧ (c.stat p i k).pkts = c.pkts ∧ (c.stat p i k).parse = c.parse ∧
    (c.stat p i k).rules = c.rules ∧ (c.stat p i k).tern = c.tern ∧ (c.stat p i k).pattern = c.pattern ∧
    (c.stat p i k).tm = c.tm ∧ (c.stat p i k).sched = c.sched ∧ (c.stat p i k).hbm = c.hbm ∧
    (c.stat p i k).tel = c.tel ∧ (c.stat p i k).flow = c.flow ∧ (c.stat p i k).gang = c.gang ∧
    (c.stat p i k).act = c.act ∧ (c.stat p i k).wds = c.wds ∧ (c.stat p i k).plate = c.plate ∧
    (c.stat p i k).recov = c.recov := by
  have h := quiet_stat c p i k
  exact ⟨h.dram, h.wideCap, h.wideStage, h.freeCtr, h.rdData, h.power, h.flash, h.time, h.mgt, h.sfl, h.lanes, h.ports, h.sites, h.pkts,
    h.parse, h.rules, h.tern, h.pattern, h.tm, h.sched, h.hbm, h.tel, h.flow, h.gang, h.act, h.wds, h.plate, h.recov⟩

end Sys2Proof.Proofs
end

section
/-!
The time island (R450 to R464): what a tick, the commands of TIM, the scheduled writes and the connector leave.
-/
namespace Sys2Proof.Proofs
open Sys2Proof Sys2Proof.Machine

/-! ### Ticks (R450 to R455) -/

/-- Adding a number of 2^-40 ns is addition modulo 2^120 (R450). -/
theorem accAdd_natCast (a n : Nat) : accAdd a (n : Int) = (a + n) % 2 ^ 120 := by
  rw [accAdd, patternOf, ← Nat.cast_add, ← Int.natCast_mod, Int.toNat_natCast]

/-- The part of a slew that one tick applies: the quotient, and the remainder's sign while it lasts (R454). -/
theorem slewPart_fst (w : Slew) : (slewPart w).1 = w.q + (if w.k < w.r.natAbs then w.r.sign else 0) := by
  rcases lt_trichotomy w.r 0 with hneg | hzero | hpos
  · simp only [slewPart, hneg, if_true, Int.sign_eq_neg_one_of_neg hneg, Nat.cast_lt]
  · simp [slewPart, hzero]
  · simp only [slewPart, not_lt.mpr hpos.le, if_false, Int.sign_eq_one_of_pos hpos, Nat.cast_lt]

theorem slewPart_snd (w : Slew) : (slewPart w).2 = if w.k + 1 < w.n then some { w with k := w.k + 1 } else none := rfl

section
variable {c : Chip}

/-- A TIM_INCR written before a tick is in force for it (R451). -/
def incrApplied (c : Chip) (v : Nat) : Chip := { c with time := { c.time with incr := v, incrNext := none } }

/-- What SET does at its tick (R453): DT, no slew, TIME_VALID. -/
def setApplied (c : Chip) (v : Nat) : Chip :=
  { c.endSlew with time := { c.endSlew.time with acc := v * 2 ^ 24, setNext := none } }.setTimeValid true

/-- What STEP does at its tick (R453, R458). -/
def stepApplied (c : Chip) (d : Int) : Chip :=
  { c.endSlew with time := { c.endSlew.time with acc := accAdd c.endSlew.time.acc (d * 2 ^ 24), stepNext := none } }

def afterIncr (c : Chip) : Chip := match c.time.incrNext with | some v => incrApplied c v | none => c

def afterSet (c : Chip) : Chip := match c.time.setNext with | some v => (setApplied c v).timDone | none => c

def afterStep (c : Chip) : Chip := match c.time.stepNext with | some d => (stepApplied c d).reevaluate.timDone | none => c

/-- The three writes apply in this order. -/
theorem tickWrites_eq (c : Chip) : c.tickWrites = afterStep (afterSet (afterIncr c)) := rfl

theorem afterIncr_none (h : c.time.incrNext = none) : afterIncr c = c := by rw [afterIncr, h]

theorem afterIncr_some {v : Nat} (h : c.time.incrNext = some v) : afterIncr c = incrApplied c v := by rw [afterIncr, h]

theorem afterSet_none (h : c.time.setNext = none) : afterSet c = c := by rw [afterSet, h]

theorem afterSet_some {v : Nat} (h : c.time.setNext = some v) : afterSet c = (setApplied c v).timDone := by rw [afterSet, h]

theorem afterStep_none (h : c.time.stepNext = none) : afterStep c = c := by rw [afterStep, h]

/-- Nothing written, nothing to apply before the increment. -/
theorem tickWrites_nothing (hincr : c.time.incrNext = none) (hset : c.time.setNext = none) (hstep : c.time.stepNext = none) :
    c.tickWrites = c := by
  rw [tickWrites_eq, afterIncr_none hincr, afterSet_none hset, afterStep_none hstep]

theorem tickWrites_incr {v : Nat} (hincr : c.time.incrNext = some v) (hset : c.time.setNext = none)
    (hstep : c.time.stepNext = none) : c.tickWrites = incrApplied c v := by
  rw [tickWrites_eq, afterIncr_some hincr, afterSet_none (c := incrApplied c v) hset,
    afterStep_none (c := incrApplied c v) hstep]

/-- A tick without a slew adds TIM_INCR to DT and MT. -/
theorem tick_of_slew_none (hslew : c.tickWrites.time.slew = none) : c.tick =
    { c.tickWrites with time := { c.tickWrites.time with
      acc := (c.tickWrites.time.acc + c.tickWrites.time.incr) % 2 ^ 120
      mt := c.tickWrites.time.mt + c.tickWrites.time.incr } } := by
  simp [Chip.tick, hslew, accAdd_natCast]

/-- A tick of a slew, before its end is reported. -/
def slewTick (c : Chip) (w : Slew) : Chip :=
  { c with time := { c.time with
    acc := patternOf 120 ((c.time.acc : Int) + (c.time.incr + (w.q + (if w.k < w.r.natAbs then w.r.sign else 0))))
    mt := c.time.mt + c.time.incr
    slew := if w.k + 1 < w.n then some { w with k := w.k + 1 } else none } }

theorem slewTick_slew (w : Slew) :
    (slewTick c w).time.slew = if w.k + 1 < w.n then some { w with k := w.k + 1 } else none := rfl

theorem slewTick_of_more {w : Slew} (h : w.k + 1 < w.n) : slewTick c w =
    { c with time := { c.time with
      acc := (slewTick c w).time.acc, mt := (slewTick c w).time.mt, slew := some { w with k := w.k + 1 } } } := by
  rw [slewTick, if_pos h]

theorem tick_of_slew {w : Slew} (hw : c.tickWrites = c) (hslew : c.time.slew = some w) : c.tick =
    if w.k + 1 < w.n then slewTick c w else ((slewTick c w).putF F.TIM_STATUS.SLEWING 0).raise F.TIM_EVENTS.SLEW_DONE := by
  simp only [Chip.tick, slewTick, hw, hslew, slewPart_fst, slewPart_snd, accAdd]
  by_cases hmore : w.k + 1 < w.n
  · simp [hmore]
  · simp [hmore]

end

/-- The end of a slew reported (R454). -/
theorem getF_slewEnd (c : Chip) :
    ((c.putF F.TIM_STATUS.SLEWING 0).raise F.TIM_EVENTS.SLEW_DONE).getF F.TIM_STATUS.SLEWING = 0 ∧
    ((c.putF F.TIM_STATUS.SLEWING 0).raise F.TIM_EVENTS.SLEW_DONE).getF F.TIM_EVENTS.SLEW_DONE = 1 := by
  refine ⟨?_, getF_raise_one (by decide) rfl (by decide)⟩
  rw [getF_raise_apart (by decide) (by decide) (by decide), Chip.getF_putF (by decide), Nat.zero_mod]

theorem time_slewEnd (c : Chip) : ((c.putF F.TIM_STATUS.SLEWING 0).raise F.TIM_EVENTS.SLEW_DONE).time = c.time :=
  (Chip.quiet_raise ..).time

theorem getF_setTimeValid (c : Chip) : (c.setTimeValid true).getF F.GLB_STATUS.TIME_VALID = 1 ∧
    (c.setTimeValid true).getF F.TIM_STATUS.TIME_VALID = 1 := by
  constructor
  · rw [Chip.setTimeValid, getF_putF_apart (by decide) (by decide), Chip.getF_putF (by decide)]; rfl
  · rw [Chip.setTimeValid, Chip.getF_putF (by decide)]; rfl

theorem setApplied_time (c : Chip) (v : Nat) :
    (setApplied c v).time = { c.time with acc := v * 2 ^ 24, slew := none, setNext := none } := rfl

theorem getF_setApplied (c : Chip) (v : Nat) : (setApplied c v).getF F.GLB_STATUS.TIME_VALID = 1 ∧
    (setApplied c v).getF F.TIM_STATUS.TIME_VALID = 1 :=
  getF_setTimeValid _

theorem timDone_time (c : Chip) : c.timDone.time = c.time := by
  unfold Chip.timDone
  split
  · exact (Chip.quiet_finish ..).time
  · rfl

theorem getF_timDone {c : Chip} {g : Fld} (h : g.addr ≠ 0x40074) (hk : offPba g.addr) : c.timDone.getF g = c.getF g := by
  unfold Chip.timDone
  split
  · exact getF_finish_apart (by decide) (by decide) (by decide) ⟨.inl h, .inl h, .inl h⟩ hk
  · rfl

/-- A SET written before a tick is applied before the increment (R453, R455). -/
theorem tickWrites_set {c : Chip} {v : Nat} (hincr : c.time.incrNext = none) (hset : c.time.setNext = some v)
    (hstep : c.time.stepNext = none) : c.tickWrites = (setApplied c v).timDone := by
  have hkeep : (setApplied c v).timDone.time.stepNext = none := by rw [timDone_time]; exact hstep
  rw [tickWrites_eq, afterIncr_none hincr, afterSet_some hset, afterStep_none hkeep]

/-- A tick that applies a SET. -/
theorem tick_set_time {c : Chip} {v : Nat} (hincr : c.time.incrNext = none) (hset : c.time.setNext = some v)
    (hstep : c.time.stepNext = none) : c.tick.time =
      { c.time with acc := (v * 2 ^ 24 + c.time.incr) % 2 ^ 120, slew := none, setNext := none, mt := c.time.mt + c.time.incr } := by
  have htime := congrArg Chip.time (tickWrites_set hincr hset hstep)
  rw [timDone_time, setApplied_time] at htime
  rw [tick_of_slew_none (by rw [htime]), htime]

theorem tick_set_valid {c : Chip} {v : Nat} (hincr : c.time.incrNext = none) (hset : c.time.setNext = some v)
    (hstep : c.time.stepNext = none) :
    c.tick.getF F.GLB_STATUS.TIME_VALID = 1 ∧ c.tick.getF F.TIM_STATUS.TIME_VALID = 1 := by
  have hw := tickWrites_set hincr hset hstep
  have htime := congrArg Chip.time hw
  rw [timDone_time, setApplied_time] at htime
  rw [tick_of_slew_none (by rw [htime]), hw]
  obtain ⟨hglb, htim⟩ := getF_setApplied c v
  exact ⟨(getF_timDone (by decide) (by decide)).trans hglb, (getF_timDone (by decide) (by decide)).trans htim⟩

section
variable {s : State} (hvin : s.chip.power.vin = true)
include hvin

theorem exec_timeTick : exec .timeTick s = .next ⟨s.chip.tick, s.pending⟩ :=
  on_eq (f := fun c => if c.power.vin then c.tick else c) hvin (if_pos hvin)

variable (hstep : s.chip.time.stepNext = none)
include hstep

theorem timeTick_plain (hincr : s.chip.time.incrNext = none) (hset : s.chip.time.setNext = none)
    (hslew : s.chip.time.slew = none) :
    exec .timeTick s = .next ⟨{ s.chip with time := { s.chip.time with
      acc := (s.chip.time.acc + s.chip.time.incr) % 2 ^ 120, mt := s.chip.time.mt + s.chip.time.incr } }, s.pending⟩ := by
  have hw := tickWrites_nothing hincr hset hstep
  rw [exec_timeTick hvin, tick_of_slew_none (by rw [hw, hslew]), hw]

theorem timeTick_incr {v : Nat} (hincr : s.chip.time.incrNext = some v) (hset : s.chip.time.setNext = none)
    (hslew : s.chip.time.slew = none) :
    exec .timeTick s = .next ⟨{ s.chip with time := { s.chip.time with
      incr := v, incrNext := none, acc := (s.chip.time.acc + v) % 2 ^ 120, mt := s.chip.time.mt + v } }, s.pending⟩ := by
  have hw := tickWrites_incr hincr hset hstep
  rw [exec_timeTick hvin, tick_of_slew_none (by rw [hw]; exact hslew), hw]
  rfl

theorem timeTick_slew {w : Slew} (hincr : s.chip.time.incrNext = none) (hset : s.chip.time.setNext = none)
    (hslew : s.chip.time.slew = some w) :
    ∃ t, exec .timeTick s = .next t ∧ t.chip.time.acc = (slewTick s.chip w).time.acc ∧
      t.chip.time.mt = (slewTick s.chip w).time.mt ∧ (w.k + 1 < w.n → t.chip = slewTick s.chip w) ∧
      (w.n ≤ w.k + 1 → t.chip.time.slew = none ∧ t.chip.getF F.TIM_STATUS.SLEWING = 0 ∧
        t.chip.getF F.TIM_EVENTS.SLEW_DONE = 1) := by
  refine ⟨_, exec_timeTick hvin, ?_⟩
  rw [tick_of_slew (tickWrites_nothing hincr hset hstep) hslew]
  by_cases hmore : w.k + 1 < w.n
  · rw [if_pos hmore]
    exact ⟨rfl, rfl, fun _ => rfl, fun hend => by omega⟩
  · rw [if_neg hmore]
    obtain ⟨hslewing, hdone⟩ := getF_slewEnd (slewTick s.chip w)
    refine ⟨?_, ?_, fun h => absurd h hmore, fun _ => ⟨?_, hslewing, hdone⟩⟩
    · rw [time_slewEnd]
    · rw [time_slewEnd]
    · rw [time_slewEnd, slewTick_slew, if_neg hmore]

theorem timeTick_set {v : Nat} (hincr : s.chip.time.incrNext = none) (hset : s.chip.time.setNext = some v) :
    ∃ t, exec .timeTick s = .next t ∧ t.chip.time.acc = (v * 2 ^ 24 + s.chip.time.incr) % 2 ^ 120 ∧
      t.chip.time.setNext = none ∧ t.chip.time.slew = none ∧ t.chip.getF F.GLB_STATUS.TIME_VALID = 1 ∧
      t.chip.getF F.TIM_STATUS.TIME_VALID = 1 := by
  obtain ⟨hglb, htim⟩ := tick_set_valid hincr hset hstep
  exact ⟨_, exec_timeTick hvin, by rw [tick_set_time hincr hset hstep], by rw [tick_set_time hincr hset hstep],
    by rw [tick_set_time hincr hset hstep], hglb, htim⟩

end

/-- Settles O10, a clause for each of what may wait for the tick. -/
theorem timeTickAdvancesTime : Obligations.TimeTickAdvancesTime := by
  unfold Obligations.TimeTickAdvancesTime
  refine ⟨fun _ hvin hincr hset hstep hslew => timeTick_plain hvin hstep hincr hset hslew, ?_,
    fun _ _ hvin hincr hset hstep => timeTick_set hvin hstep hincr hset,
    fun _ _ hvin hincr hset hstep hslew => timeTick_incr hvin hstep hincr hset hslew⟩
  intro s w hvin hincr hset hstep hslew
  obtain ⟨t, ht, hacc, hmt, hmore, hend⟩ := timeTick_slew hvin hstep hincr hset hslew
  refine ⟨t, ht, hacc, hmt, fun h => ?_, hend⟩
  rw [hmore h, ← slewTick_of_more h]

end Sys2Proof.Proofs
end

section
/-!
The commands of the time island (R453 to R464): SET, STEP, SLEW and INVALIDATE, the host timed writes, TIM_INCR, the references,
the connector and the path delays.
-/
namespace Sys2Proof.Proofs
open Sys2Proof Sys2Proof.Machine

/-! ### SET, STEP, SLEW (R453, R454) -/

section
variable {c : Chip} (hrun : c.flag F.TIM_CMD_STATUS.RUNNING = false)
include hrun

theorem command_portTim (k : Chip → Chip) : c.command portTim k = k c := command_of_idle (p := portTim) hrun k

theorem timSetCmd_accepted (hvalid : c.timeValid = false) (hfollow : c.follower = false) : c.timSetCmd =
    { c.putF F.TIM_CMD_STATUS.RUNNING 1 with time := { c.time with setNext := some c.timSet } } := by
  simp [Chip.timSetCmd, command_portTim hrun, hvalid, hfollow]

theorem timSetCmd_invalid (hvalid : c.timeValid = true) : c.timSetCmd = c.finish portTim stInvalid := by
  simp [Chip.timSetCmd, command_portTim hrun, hvalid]

theorem timStepCmd_accepted (hvalid : c.timeValid = true) (hfollow : c.follower = false)
    (hsmall : (signedOf 64 (c.getQ F.TIM_STEP.V)).natAbs < 2 ^ 62) : c.timStepCmd =
    { c.putF F.TIM_CMD_STATUS.RUNNING 1 with
      time := { c.time with stepNext := some (signedOf 64 (c.getQ F.TIM_STEP.V)) } } := by
  simp [Chip.timStepCmd, command_portTim hrun, hvalid, hfollow]
  intro hbig
  omega

theorem timStepCmd_invalid (h : c.timeValid = false ∨ 2 ^ 62 ≤ (signedOf 64 (c.getQ F.TIM_STEP.V)).natAbs) :
    c.timStepCmd = c.finish portTim stInvalid := by
  have hbad : (!c.timeValid || c.follower || decide (2 ^ 62 ≤ (signedOf 64 (c.getQ F.TIM_STEP.V)).natAbs)) = true := by
    rcases h with h | h
    · simp [h]
    · simp only [h, decide_true, Bool.or_true]
  rw [Chip.timStepCmd, command_portTim hrun]
  exact if_pos hbad

theorem slewCmd_accepted {a q : Int} {n : Nat} (hvalid : c.timeValid = true) (hfollow : c.follower = false)
    (hnone : c.time.slew = none) (ha : a = signedOf 64 (c.getQ F.TIM_SLEW_DELTA.V) * 2 ^ 24)
    (hn : n = c.getF F.TIM_SLEW_TICKS.V) (hq : q = a.tdiv n) (hslow : q.natAbs + 1 ≤ c.time.incr / 1000) :
    c.slewCmd = (({ c with time := { c.time with slew := some ⟨q, a - q * n, 0, n⟩ } }).putF F.TIM_STATUS.SLEWING 1).finish
      portTim stOk := by
  have hparts : slewOf (signedOf 64 (c.getQ F.TIM_SLEW_DELTA.V)) (c.getF F.TIM_SLEW_TICKS.V) = ⟨q, a - q * n, 0, n⟩ := by
    rw [slewOf, ← ha, ← hn, ← hq]
  simp [Chip.slewCmd, command_portTim hrun, hparts, hvalid, hfollow, hnone]
  intro hfast
  omega

theorem slewCmd_invalid (hvalid : c.timeValid = false) : c.slewCmd = c.finish portTim stInvalid := by
  simp [Chip.slewCmd, command_portTim hrun, hvalid]

theorem invalidate_idle : c.invalidate = c.invalidateTime.finish portTim stOk := by
  rw [Chip.invalidate, command_portTim hrun]

end

/-! ### INVALIDATE withdraws actions and no slew runs on (R453, R459) -/

theorem slew_fixWithdraw (c : Chip) (st : Nat) : (c.fixWithdraw st).time.slew = c.time.slew := by
  simp [Chip.fixWithdraw, Chip.syncRules]

theorem quiet_gateShow (c : Chip) (p : Nat) : c.quiet (c.gateShow p) :=
  Chip.quiet_trans (Chip.quiet_putF ..) (Chip.quiet_putF ..)

/-- Showing a port's gates writes registers only. -/
theorem time_gateRegs (c : Chip) (p : Nat) : (c.gateRegs p).time = c.time := by
  simp [Chip.gateRegs, (quiet_gateShow ..).time, (quiet_foldl (fun d _ => d.quiet_putF ..) _).time]

theorem slew_withdraw (c : Chip) (a : PendAct) : (c.withdraw a).time.slew = c.time.slew := by
  cases a with
  | fix => exact slew_fixWithdraw c _
  | gate p => simp [Chip.withdraw, Chip.gateCancel, time_gateRegs]
  | sact n => simp [Chip.withdraw, Chip.sactFinish]
  | bath n => simp [Chip.withdraw, Chip.bathWithdraw]
  | reset => simp [Chip.withdraw]

theorem slew_foldl_withdraw (c : Chip) (l : List (PendAct × Nat)) :
    (l.foldl (fun c a => c.withdraw a.1) c).time.slew = c.time.slew := by
  induction l generalizing c with
  | nil => rfl
  | cons a l ih => rw [List.foldl_cons, ih, slew_withdraw]

theorem slew_invalidateTime (c : Chip) : c.invalidateTime.time.slew = none := by
  simp [Chip.invalidateTime, slew_foldl_withdraw, Chip.endSlew]

/-- Settles O11, each command by its equation. -/
theorem timeCommandsSetStepAndSlew : Obligations.TimeCommandsSetStepAndSlew := by
  unfold Obligations.TimeCommandsSetStepAndSlew
  refine ⟨?_, ?_, ?_, ?_, ?_, ?_, ?_, ?_⟩
  · exact fun s hvin hrun hvalid hfollow => on_eq (f := (·.timSetCmd)) hvin (timSetCmd_accepted hrun hvalid hfollow)
  · exact fun s hvin hrun hvalid => on_eq (f := (·.timSetCmd)) hvin (timSetCmd_invalid hrun hvalid)
  · exact fun s hvin hrun hvalid hfollow hsmall =>
      on_eq (f := (·.timStepCmd)) hvin (timStepCmd_accepted hrun hvalid hfollow hsmall)
  · exact fun s hvin hrun h => on_eq (f := (·.timStepCmd)) hvin (timStepCmd_invalid hrun h)
  · exact fun s a q n hvin hrun hvalid hfollow hnone ha hn hq hslow =>
      on_eq (f := (·.slewCmd)) hvin (slewCmd_accepted hrun hvalid hfollow hnone ha hn hq hslow)
  · exact fun s hvin hrun hvalid => on_eq (f := (·.slewCmd)) hvin (slewCmd_invalid hrun hvalid)
  · exact fun s hvin hrun => on_eq (f := (·.invalidate)) hvin (invalidate_idle hrun)
  · intro s hvin hrun
    refine on_exists (f := (·.invalidate)) hvin ?_
    rw [invalidate_idle hrun]
    obtain ⟨hstatus, -, -⟩ := Chip.finish_status (c := s.chip.invalidateTime) laid_portTim (by decide : stOk < 16)
    exact ⟨hstatus, by rw [(Chip.quiet_finish ..).time, slew_invalidateTime]⟩

end Sys2Proof.Proofs
end

section
/-!
Host timed writes (R453, R457, R460, R466), and TIM_INCR, the references, the connector and path delays (R451, R452, R463, R464).
-/
namespace Sys2Proof.Proofs
open Sys2Proof Sys2Proof.Machine

/-! ### Scheduled writes -/

theorem getF_of_regs {c d : Chip} (h : d.regs = c.regs) (g : Fld) (k l : Nat) : d.getF g k l = c.getF g k l := by
  rw [Chip.getF, Chip.rd, h, ← Chip.rd, ← Chip.getF]

/-- The state words of the scheduled writes lie above TIM's command and status registers. -/
theorem addr_sactState_ne {a : Nat} (h : a < 0x40414) (n : Nat) : F.TIM_SACT_STATE.PHASE.addr n ≠ a := by
  have : F.TIM_SACT_STATE.PHASE.addr n = 0x40414 + n * 0x20 + 0 * 0 := rfl
  omega

theorem addr_sactStatus (n : Nat) : F.TIM_SACT_STATE.STATUS.addr n = 0x40414 + 0x20 * n := by
  have : F.TIM_SACT_STATE.STATUS.addr n = 0x40414 + n * 0x20 + 0 * 0 := rfl
  omega

theorem offPba_sactState (n : Fin 16) : offPba (F.TIM_SACT_STATE.PHASE.addr n) := by
  have : F.TIM_SACT_STATE.PHASE.addr n = 0x40414 + n.val * 0x20 + 0 * 0 := rfl
  omega

theorem not_isEvReg_sactState (n : Fin 16) : ¬isEvReg (F.TIM_SACT_STATE.PHASE.addr n) := by
  have : F.TIM_SACT_STATE.PHASE.addr n = 0x40414 + n.val * 0x20 + 0 * 0 := rfl
  omega

section
variable {c : Chip} {n : Fin 16} {g : Fld} (hg : g.addr n = F.TIM_SACT_STATE.PHASE.addr n)
include hg

/-- A completed TIM command leaves the entries. -/
theorem getF_finish_sactState (st : Nat) : (c.finish portTim st).getF g n = c.getF g n :=
  getF_finish_apart (by decide) (by decide) (by decide)
    ⟨.inl (hg ▸ addr_sactState_ne (by decide) n), .inl (hg ▸ addr_sactState_ne (by decide) n),
      .inl (hg ▸ addr_sactState_ne (by decide) n)⟩ (hg ▸ offPba_sactState n)

theorem getF_raise_sactState {f : Fld} (hf : f.fits) (hlow : f.addr < 0x40414) : (c.raise f).getF g n = c.getF g n :=
  getF_raise_apart hf (.inl (hg ▸ addr_sactState_ne hlow n)) (hg ▸ offPba_sactState n)

theorem getF_sink_sactState : (c.sink F.TIM_STATUS.SACT_USED).getF g n = c.getF g n :=
  getF_sink_apart (by decide) (.inl (hg ▸ addr_sactState_ne (by decide) n))

theorem getF_signal_sactState {blk inst ev k : Nat} : (c.signal blk inst ev k).getF g n = c.getF g n :=
  getF_signal (hg ▸ not_isEvReg_sactState n)

end

section
variable (c : Chip) (n : Fin 16) {p st : Nat}

/-- PHASE and STATUS of one entry written together read back. -/
theorem getF_putF_phase_status (hp : p < 4) (hst : st < 16) :
    ((c.putF F.TIM_SACT_STATE.PHASE p n).putF F.TIM_SACT_STATE.STATUS st n).getF F.TIM_SACT_STATE.PHASE n = p ∧
    ((c.putF F.TIM_SACT_STATE.PHASE p n).putF F.TIM_SACT_STATE.STATUS st n).getF F.TIM_SACT_STATE.STATUS n = st := by
  constructor
  · rw [getF_putF_apart (by decide) (.inr (by decide)), Chip.getF_putF (by decide)]
    exact Nat.mod_eq_of_lt hp
  · rw [Chip.getF_putF (by decide)]
    exact Nat.mod_eq_of_lt hst

/-- A scheduled write done or withdrawn has its PHASE 2 and its final status (R459, R460). -/
theorem getF_sactFinish (hst : st < 16) : (c.sactFinish n st).getF F.TIM_SACT_STATE.PHASE n = 2 ∧
    (c.sactFinish n st).getF F.TIM_SACT_STATE.STATUS n = st := by
  obtain ⟨hphase, hstatus⟩ := getF_putF_phase_status c n (by decide : 2 < 4) hst
  exact ⟨(getF_sink_sactState rfl).trans hphase, (getF_sink_sactState (g := F.TIM_SACT_STATE.STATUS) rfl).trans hstatus⟩

/-- After the write itself: the entry finished, the event raised, LATE reported where it came late (R460). -/
def sactReported (st : Nat) : Chip :=
  if st = stLate then (((c.sactFinish n st).raise F.TIM_EVENTS.SACT_DONE).signal 11 0 1).raise F.TIM_EVENTS.LATE
  else ((c.sactFinish n st).raise F.TIM_EVENTS.SACT_DONE).signal 11 0 1

theorem getF_sactReported (hst : st < 16) : (sactReported c n st).getF F.TIM_SACT_STATE.PHASE n = 2 ∧
    (sactReported c n st).getF F.TIM_SACT_STATE.STATUS n = st ∧ (sactReported c n st).getF F.TIM_EVENTS.SACT_DONE = 1 := by
  obtain ⟨hphase, hstatus⟩ := getF_sactFinish c n hst
  have hfit : F.TIM_EVENTS.SACT_DONE.fits := by decide
  have hdone : (((c.sactFinish n st).raise F.TIM_EVENTS.SACT_DONE).signal 11 0 1).getF F.TIM_EVENTS.SACT_DONE = 1 := by
    rw [getF_signal (by decide), getF_raise_one hfit rfl (by decide)]
  unfold sactReported
  split
  · refine ⟨?_, ?_, ?_⟩
    · rw [getF_raise_sactState rfl (by decide) (by decide), getF_signal_sactState rfl,
        getF_raise_sactState rfl hfit (by decide), hphase]
    · rw [getF_raise_sactState (g := F.TIM_SACT_STATE.STATUS) rfl (by decide) (by decide), getF_signal_sactState (g := F.TIM_SACT_STATE.STATUS) rfl,
        getF_raise_sactState (g := F.TIM_SACT_STATE.STATUS) rfl hfit (by decide), hstatus]
    · rw [getF_raise_apart (by decide) (by decide) (by decide), hdone]
  · refine ⟨?_, ?_, hdone⟩
    · rw [getF_signal_sactState rfl, getF_raise_sactState rfl hfit (by decide), hphase]
    · rw [getF_signal_sactState (g := F.TIM_SACT_STATE.STATUS) rfl, getF_raise_sactState (g := F.TIM_SACT_STATE.STATUS) rfl hfit (by decide), hstatus]

/-- Whatever register the write reaches, its report comes after it. -/
theorem sactWrite_regs : ∃ d : Chip, (c.sactWrite n st).regs = (sactReported d n st).regs :=
  ⟨_, rfl⟩

theorem getF_sactWrite (hst : st < 16) : (c.sactWrite n st).getF F.TIM_SACT_STATE.PHASE n = 2 ∧
    (c.sactWrite n st).getF F.TIM_SACT_STATE.STATUS n = st ∧ (c.sactWrite n st).getF F.TIM_EVENTS.SACT_DONE = 1 := by
  obtain ⟨d, hd⟩ := sactWrite_regs c n (st := st)
  rw [getF_of_regs hd, getF_of_regs hd, getF_of_regs hd]
  exact getF_sactReported d n hst

end

section
variable {c : Chip} {n : Fin 16}

theorem sched1_ahead (hrun : c.flag F.TIM_CMD_STATUS.RUNNING = false) (hvalid : c.timeValid = true)
    (hbad : Chip.sactBad (c.getF F.TIM_SACT_ADDR.V n) (c.getF F.TIM_SACT_MASK.V n) = false)
    (hdenied : Chip.sactDenied (c.getF F.TIM_SACT_ADDR.V n) (c.getF F.TIM_SACT_MASK.V n) = false)
    (hphase : c.getF F.TIM_SACT_STATE.PHASE n = 0) (hcls : c.timeClass (c.getQ F.TIM_SACT_TIME.V n) = .ahead) :
    c.sched1 n = ((c.putF F.TIM_SACT_STATE.PHASE 1 n).bump F.TIM_STATUS.SACT_USED).finish portTim stOk := by
  simp [Chip.sched1, command_portTim hrun, hvalid, hbad, hdenied, hphase, hcls]

theorem unsched_invalid (hrun : c.flag F.TIM_CMD_STATUS.RUNNING = false) (hphase : c.getF F.TIM_SACT_STATE.PHASE n ≠ 1) :
    c.unsched n = c.finish portTim stInvalid := by
  simp [Chip.unsched, command_portTim hrun, hphase]

/-- An entry freed by UNSCHED, before the command completes. -/
def unscheduled (c : Chip) (n : Nat) : Chip :=
  ((({ c with time := { c.time with late := c.time.late.filter (· != PendAct.sact n) } }).putF
    F.TIM_SACT_STATE.PHASE 0 n).putF F.TIM_SACT_STATE.STATUS 0 n).sink F.TIM_STATUS.SACT_USED

theorem unsched_waiting (hrun : c.flag F.TIM_CMD_STATUS.RUNNING = false) (hphase : c.getF F.TIM_SACT_STATE.PHASE n = 1) :
    c.unsched n = (unscheduled c n).finish portTim stOk := by
  simp [Chip.unsched, command_portTim hrun, hphase, unscheduled]

theorem getF_unscheduled : (unscheduled c n).getF F.TIM_SACT_STATE.PHASE n = 0 ∧
    (unscheduled c n).getF F.TIM_SACT_STATE.STATUS n = 0 ∧
    (unscheduled c n).getF F.TIM_STATUS.SACT_USED = c.getF F.TIM_STATUS.SACT_USED - 1 := by
  obtain ⟨hphase, hstatus⟩ := getF_putF_phase_status
    ({ c with time := { c.time with late := c.time.late.filter (· != PendAct.sact n) } } : Chip) n (by decide : 0 < 4)
    (by decide : 0 < 16)
  refine ⟨(getF_sink_sactState rfl).trans hphase, (getF_sink_sactState (g := F.TIM_SACT_STATE.STATUS) rfl).trans hstatus, ?_⟩
  have hlt := c.getF_lt F.TIM_STATUS.SACT_USED 0 0
  rw [unscheduled, Chip.sink, Chip.getF_putF (by decide), getF_putF_apart (f := F.TIM_SACT_STATE.STATUS) (by decide) (.inl (addr_sactState_ne (by decide) n).symm),
    getF_putF_apart (by decide) (.inl (addr_sactState_ne (by decide) n).symm)]
  exact Nat.mod_eq_of_lt ((Nat.sub_le (c.getF F.TIM_STATUS.SACT_USED) 1).trans_lt hlt)

end

/-- Settles O12. -/
theorem hostTimedWritesScheduleRunAndFree : Obligations.HostTimedWritesScheduleRunAndFree := by
  unfold Obligations.HostTimedWritesScheduleRunAndFree
  refine ⟨?_, ?_, ?_, ?_, ?_, ?_⟩
  · exact fun s n hvin hrun hvalid hbad hdenied hphase hcls =>
      on_eq (f := (·.sched1 n)) hvin (sched1_ahead hrun hvalid hbad hdenied hphase hcls)
  · intro s n hvin hrun hphase
    obtain ⟨hfree, hnone, hused⟩ := getF_unscheduled (c := s.chip) (n := n)
    refine on_exists (f := (·.unsched n)) hvin ?_
    rw [unsched_waiting hrun hphase]
    obtain ⟨hok, -, -⟩ := Chip.finish_status (c := unscheduled s.chip n) laid_portTim (by decide : stOk < 16)
    exact ⟨(getF_finish_sactState rfl _).trans hfree, (getF_finish_sactState (g := F.TIM_SACT_STATE.STATUS) rfl _).trans hnone, hok,
      (getF_finish_apart (by decide) (by decide) (by decide) (by decide) (by decide)).trans hused⟩
  · exact fun s n hvin hrun hphase => on_eq (f := (·.unsched n)) hvin (unsched_invalid hrun hphase)
  · intro s n hvin hphase hdue
    refine on_exists (f := (·.hostTimedWrite n)) hvin ?_
    by_cases hlate : s.chip.time.late.contains (.sact n) = true
    · simp only [Chip.hostTimedWrite, hphase, hlate, if_true]
      exact getF_sactWrite s.chip n (by decide)
    · simp only [Chip.hostTimedWrite, hphase, hlate, hdue, if_true]
      exact getF_sactWrite s.chip n (by decide)
  · exact fun s n hvin hphase => on_eq (f := (·.sactStateRead n)) hvin (by simp [Chip.sactStateRead, hphase, addr_sactStatus])
  · exact fun s n hvin hphase => on_eq (f := (·.sactStateRead n)) hvin (by simp [Chip.sactStateRead, hphase, addr_sactStatus])

/-! ### TIM_INCR, references, connector, path delays -/

theorem clampTo_eq {lo hi v : Nat} (h : lo ≤ hi) : clampTo lo hi v = max lo (min hi v) := by
  unfold clampTo
  split <;> [skip; split] <;> omega

/-- Settles O13. -/
theorem timeReferencesConnectorAndPathDelay : Obligations.TimeReferencesConnectorAndPathDelay := by
  unfold Obligations.TimeReferencesConnectorAndPathDelay
  refine ⟨?_, ?_, ?_, ?_, ?_, ?_, ?_, ?_, ?_⟩
  · intro s v hvin hfollow
    have hv : v.toNat % 281474976710656 = v.toNat := Nat.mod_eq_of_lt v.isLt
    exact on_eq (f := (·.incrWrite v.toNat)) hvin (by simp [Chip.incrWrite, hfollow, ← clampTo_eq, hv])
  · exact fun s v _ hfollow => on_self (f := (·.incrWrite v.toNat)) (by simp [Chip.incrWrite, hfollow])
  · exact fun s hvin hlocked => on_eq hvin (if_pos hlocked)
  · exact fun s hvin hsrc hlocked => on_eq hvin (if_pos (by simp [hsrc, hlocked]))
  · exact fun s hvin hen => on_eq hvin (if_pos hen)
  · exact fun s hvin => on_eq (f := fun c => { c with time := { c.time with ppsOut := false } }) hvin rfl
  · intro s hvin hen hspaced
    refine on_eq (f := (·.ppsIn)) hvin ?_
    cases hat : s.chip.time.ppsInAt with
    | none => simp [Chip.ppsIn, hen, hat]
    | some t => simp [Chip.ppsIn, hen, hat, Nat.not_lt.mpr (hspaced t hat)]
  · intro s p v hvin hzero
    refine on_eq (f := (·.pdelayWrite p.val v.toNat)) hvin ?_
    rcases hzero with hzero | hzero
    · simp [Chip.pdelayWrite, hzero]
    · simp [Chip.pdelayWrite, hzero]
  · rintro s p v old hvin rfl hold hstep hfar
    refine on_eq (f := (·.pdelayWrite p.val v.toNat)) hvin ?_
    have hup : s.chip.getF F.TIM_PORT_PDELAY.V p ≤ v.toNat := by omega
    simp [Chip.pdelayWrite, hold, hstep, hup]
    intro hnear
    omega

end Sys2Proof.Proofs
end

section
/-!
BAR0 (R7 to R14, R512): values wider than a word, reads that capture and clear, reported accesses, and refused writes of SO
fields (R579, R580).
-/
namespace Sys2Proof.Proofs
open Sys2Proof Sys2Proof.Machine

/-! ### The register map -/

theorem regAt_row_mem {a : Nat} {r : RegAt} (h : regAt a = some r) : r.row ∈ regRows ∧ r.word < r.row.words := by
  unfold regAt at h
  split at h
  · cases h
  · next row hrow =>
    obtain ⟨x, hx, rfl⟩ := Option.map_eq_some_iff.mp h
    refine ⟨List.mem_of_find?_eq_some hrow, ?_⟩
    unfold RegRow.hit at hx
    split at hx
    · cases hx
    · simp only [Option.ite_none_right_eq_some, Option.some.injEq] at hx
      obtain ⟨⟨-, hlt⟩, rfl⟩ := hx
      exact hlt

/-- A path delay is one word. -/
theorem words_pdelay : ∀ r ∈ regRows, r.base = F.TIM_PORT_PDELAY.V.base → r.words = 1 := by
  decide +kernel

/-- TIM_INCR's lowest word. -/
theorem regAt_timIncr : (regAt F.TIM_INCR.V.base).map (·.word) = some 0 := by
  decide +kernel

/-- TIM_CMD is one word. -/
theorem regAt_timCmd : (regAt F.TIM_CMD.OPCODE.base).map (fun r => (r.word, r.row.words)) = some (0, 1) := by
  decide +kernel

section
variable {a : Nat} {r : RegAt} (hat : regAt a = some r)
include hat

theorem ne_timIncr_of_word (h : r.word ≠ 0) : a ≠ F.TIM_INCR.V.base := by
  rintro rfl
  have hword := regAt_timIncr
  rw [hat] at hword
  exact h (Option.some.inj hword)

theorem ne_timCmd_of_wide (h : r.word ≠ 0 ∨ 1 < r.row.words) : a ≠ F.TIM_CMD.OPCODE.base := by
  rintro rfl
  have hword := regAt_timCmd
  rw [hat] at hword
  obtain ⟨hzero, hone⟩ := Prod.mk.inj (Option.some.inj hword)
  omega

theorem ne_pdelay_of_wide (h : r.word ≠ 0 ∨ 1 < r.row.words) : r.row.base ≠ F.TIM_PORT_PDELAY.V.base := by
  intro hbase
  obtain ⟨hmem, hlt⟩ := regAt_row_mem hat
  have hone := words_pdelay r.row hmem hbase
  omega

/-- A write of a value wider than a word, other than TIM_INCR, has no effect of its own in the time island. -/
theorem bar0Write_wide {c : Chip} {v : Word} {hw : Nat} {a0 : Nat} (ha : canonAddr a0 = a) (hsfl : inSfl a = false)
    (hwide : r.word ≠ 0 ∨ 1 < r.row.words) (hincr : a ≠ F.TIM_INCR.V.base) : c.bar0Write a0 v hw = c.hostWord a v hw := by
  have htim : c.timWord a v hw = c.hostWord a v hw := by
    simp [Chip.timWord, hincr, ne_timCmd_of_wide hat hwide, hat, ne_pdelay_of_wide hat hwide]
  simp [Chip.bar0Write, ha, hsfl, htim]

theorem hostWord_high {c : Chip} {v : Word} {hw : Nat} (hword : r.word ≠ 0) (hrw : r.row.allAcc .rw = true) :
    c.hostWord a v hw = c.stageWord a v := by
  simp [Chip.hostWord, hat, hword, hrw]

theorem hostWord_low {c : Chip} {v : Word} {hw : Nat} (hword : r.word = 0) (hwide : 1 < r.row.words) :
    c.hostWord a v hw = c.storeWide r a v := by
  simp [Chip.hostWord, hat, hword, hwide]

theorem wideLow_eq (ha : canonAddr a = a) (hword : r.word = 0) (hwide : 1 < r.row.words) : wideLow a = some r := by
  simp [wideLow, ha, hat, hword, hwide]

end

/-! ### The higher words applied with the lowest (R13) -/

/-- The first `n` higher words written from what is staged. -/
def highWords (c : Chip) (base a n : Nat) : Chip :=
  (List.range n).foldl (fun c k => c.wr (a + 4 * (k + 1))
    (BitVec.ofNat 32 (Nat.land (c.stagedWord (a + 4 * (k + 1))).toNat (highMask base)))) c

section
variable {c : Chip} {base a n k : Nat}

theorem highWords_succ : highWords c base a (n + 1) = (highWords c base a n).wr (a + 4 * (n + 1))
    (BitVec.ofNat 32 (Nat.land ((highWords c base a n).stagedWord (a + 4 * (n + 1))).toNat (highMask base))) := by
  simp [highWords, List.range_succ]

theorem highWords_wideStage : (highWords c base a n).wideStage = c.wideStage := by
  induction n with
  | zero => rfl
  | succ n ih => rw [highWords_succ]; exact ih

theorem rd_highWords_other (h : ∀ j, j < n → k ≠ a + 4 * (j + 1)) : (highWords c base a n).rd k = c.rd k := by
  induction n with
  | zero => rfl
  | succ n ih => rw [highWords_succ, Chip.rd_wr_ne (h n (by omega)), ih fun j hj => h j (by omega)]

/-- A word not yet written is as staged, or as it was. -/
theorem stagedWord_highWords (h : n ≤ k) : (highWords c base a n).stagedWord (a + 4 * (k + 1)) = c.stagedWord (a + 4 * (k + 1)) := by
  rw [Chip.stagedWord, Chip.stagedWord, highWords_wideStage, rd_highWords_other fun j hj => by omega]

theorem rd_highWords (h : k < n) : (highWords c base a n).rd (a + 4 * (k + 1)) =
    BitVec.ofNat 32 (Nat.land (c.stagedWord (a + 4 * (k + 1))).toNat (highMask base)) := by
  induction n with
  | zero => omega
  | succ n ih =>
    rw [highWords_succ]
    obtain rfl | hlt : k = n ∨ k < n := by omega
    · rw [Chip.rd_wr_same, stagedWord_highWords le_rfl]
    · rw [Chip.rd_wr_ne (by omega), ih hlt]

theorem rd_unstage (words : Nat) : (c.unstage a words).rd k = c.rd k := rfl

theorem smFind_unstage (words : Nat) (h : 0 < k) (hk : k < words) : smFind (c.unstage a words).wideStage (a + 4 * k) = none := by
  have hkey : ∀ m : SMap Word, (∀ e ∈ m, e.1 ≠ a + 4 * k) → smFind m (a + 4 * k) = none := by
    intro m hm
    induction m with
    | nil => rfl
    | cons e m ih =>
      obtain ⟨x, w⟩ := e
      have hx : x ≠ a + 4 * k := hm (x, w) List.mem_cons_self
      simp [smFind, hx, ih fun e he => hm e (List.mem_cons_of_mem _ he)]
  refine hkey _ fun e he heq => ?_
  have hkept := List.of_mem_filter he
  simp only [heq, Bool.not_eq_true', Bool.and_eq_false_iff, decide_eq_false_iff_not] at hkept
  omega

theorem storeWide_eq {r : RegAt} {v : Word} (hrw : r.row.allAcc .rw = true) (hlock : c.writeLocked r = false) :
    c.storeWide r a v = ((highWords c r.row.base a (r.row.words - 1)).wr a
      (BitVec.ofNat 32 (Nat.land v.toNat (lowMask r.row.base)))).unstage a r.row.words := by
  simp [Chip.storeWide, hrw, hlock, highWords]

/-- The whole value is applied at once: the lowest word, the higher ones as staged, and nothing else. -/
theorem rd_storeWide {r : RegAt} {v : Word} (hwide : 1 < r.row.words) (hrw : r.row.allAcc .rw = true) (hlock : c.writeLocked r = false) :
    (c.storeWide r a v).rd a = BitVec.ofNat 32 (Nat.land v.toNat (lowMask r.row.base)) ∧
    (∀ k, 0 < k → k < r.row.words → (c.storeWide r a v).rd (a + 4 * k) =
      BitVec.ofNat 32 (Nat.land (c.stagedWord (a + 4 * k)).toNat (highMask r.row.base)) ∧
      smFind (c.storeWide r a v).wideStage (a + 4 * k) = none) ∧
    (∀ k, (∀ j, j < r.row.words → k ≠ a + 4 * j) → (c.storeWide r a v).rd k = c.rd k) := by
  rw [storeWide_eq hrw hlock]
  refine ⟨by rw [rd_unstage, Chip.rd_wr_same], fun k hk hlt => ⟨?_, smFind_unstage _ hk hlt⟩, fun k hother => ?_⟩
  · obtain ⟨j, rfl⟩ : ∃ j, k = j + 1 := ⟨k - 1, by omega⟩
    rw [rd_unstage, Chip.rd_wr_ne (by omega), rd_highWords (by omega)]
  · rw [rd_unstage, Chip.rd_wr_ne (by simpa using hother 0 (by omega)),
      rd_highWords_other fun j hj => hother (j + 1) (by omega)]

end

/-- Settles O15. -/
theorem wideValuesAreWrittenAtOnce : Obligations.WideValuesAreWrittenAtOnce := by
  unfold Obligations.WideValuesAreWrittenAtOnce
  refine ⟨?_, ?_, ?_, ?_, ?_⟩
  · intro s a v r hvin hsfl hat hword hrw
    change execWideHighWordWrite a v s = _
    unfold execWideHighWordWrite
    refine on_eq hvin ?_
    simp only [hat, hword, if_false]
    rw [bar0Write_wide hat rfl hsfl (.inl hword) (ne_timIncr_of_word hat hword), hostWord_high hat hword hrw, Chip.stageWord]
  · intro s a v r hvin hsfl hcanon hincr hat hword hwide hrw hlock
    change ∃ t, execWideLowWordWrite a v s = .next t ∧ _
    unfold execWideLowWordWrite
    refine on_exists hvin ⟨rfl, ?_⟩
    rw [wideLow_eq hat hcanon hword hwide, bar0Write_wide hat hcanon hsfl (.inr hwide) hincr, hostWord_low hat hword hwide]
    exact rd_storeWide hwide hrw hlock
  · intro s a v hvin halign hlow
    change execBar064bitWrite a v s = _
    unfold execBar064bitWrite
    refine on_eq hvin ?_
    simp only [halign, hlow, ne_eq, not_true_eq_false, if_true, if_false]
  · intro s a v hvin halign hlow
    change execBar064bitWrite a v s = _
    unfold execBar064bitWrite
    refine on_eq hvin ?_
    simp only [halign, hlow, ne_eq, not_true_eq_false, if_false, Option.isSome_none, Bool.false_eq_true]
  · intro s a v hvin halign
    change execBar064bitWrite a v s = _
    unfold execBar064bitWrite
    exact on_eq hvin (if_pos halign)

/-! ### Reads that capture and clear (R9, R13) -/

/-- The captures of a read of a lowest word, over the first `n` words. -/
def captured (c : Chip) (a n : Nat) : Chip :=
  (List.range n).foldl (fun c' k => if k = 0 then c' else
    { c' with wideCap := smPut c'.wideCap (a + 4 * k) (c.viewReg (a + 4 * k)) }) c

/-- The words of an RC value left with what `hw` counts, over the first `n` words (R12). -/
def cleared (c : Chip) (a hw n : Nat) : Chip :=
  (List.range n).foldl (fun c k => c.wr (a + 4 * k) (BitVec.ofNat 32 (hw / 2 ^ (32 * k)))) c

section
variable {c : Chip} {a hw n k : Nat}

theorem captured_succ : captured c a (n + 1) = if n = 0 then captured c a n else
    { captured c a n with wideCap := smPut (captured c a n).wideCap (a + 4 * n) (c.viewReg (a + 4 * n)) } := by
  simp [captured, List.range_succ]

theorem captured_regs : (captured c a n).regs = c.regs := by
  induction n with
  | zero => rfl
  | succ n ih =>
    rw [captured_succ]
    split <;> exact ih

theorem smFind_captured (hpos : 0 < k) (h : k < n) :
    smFind (captured c a n).wideCap (a + 4 * k) = some (c.viewReg (a + 4 * k)) := by
  induction n with
  | zero => omega
  | succ n ih =>
    rw [captured_succ, if_neg (by omega), smFind_smPut]
    obtain rfl | hlt : k = n ∨ k < n := by omega
    · rw [if_pos rfl]
    · rw [if_neg (by omega), ih hlt]

theorem cleared_succ : cleared c a hw (n + 1) =
    (cleared c a hw n).wr (a + 4 * n) (BitVec.ofNat 32 (hw / 2 ^ (32 * n))) := by
  simp [cleared, List.range_succ]

theorem cleared_frame : (cleared c a hw n).wideCap = c.wideCap ∧ (cleared c a hw n).rdData = c.rdData := by
  induction n with
  | zero => exact ⟨rfl, rfl⟩
  | succ n ih => rw [cleared_succ]; exact ih

theorem rd_cleared (h : k < n) : (cleared c a hw n).rd (a + 4 * k) = BitVec.ofNat 32 (hw / 2 ^ (32 * k)) := by
  induction n with
  | zero => omega
  | succ n ih =>
    rw [cleared_succ]
    obtain rfl | hlt : k = n ∨ k < n := by omega
    · rw [Chip.rd_wr_same]
    · rw [Chip.rd_wr_ne (by omega), ih hlt]

/-- The data that a read of the lowest word answers. -/
def wideData (c : Chip) (a : Nat) : BitVec 64 := BitVec.ofNat 64 ((c.viewReg a).toNat + 2 ^ 32 * (c.viewReg (a + 4)).toNat)

theorem wideRead_plain {r : RegAt} (hrc : r.row.allAcc .rc = false) :
    c.wideRead r a hw = { captured c a r.row.words with rdData := wideData c a } := by
  simp [Chip.wideRead, hrc, captured, wideData]

/-- An RC value is cleared, and its data and captures are those of any wide read. -/
theorem wideRead_rc {r : RegAt} (hrc : r.row.allAcc .rc = true) :
    (c.wideRead r a hw).regs = (cleared { captured c a r.row.words with rdData := wideData c a } a hw r.row.words).regs ∧
    (c.wideRead r a hw).rdData = wideData c a ∧ (c.wideRead r a hw).wideCap = (captured c a r.row.words).wideCap := by
  obtain ⟨hcap, hdata⟩ :=
    cleared_frame (c := { captured c a r.row.words with rdData := wideData c a }) (a := a) (hw := hw) (n := r.row.words)
  have hread : c.wideRead r a hw =
      if r.row.base = F.SFL_LAST_DENIED0.ADDR.base then
        { cleared { captured c a r.row.words with rdData := wideData c a } a hw r.row.words with
          sfl := { (cleared { captured c a r.row.words with rdData := wideData c a } a hw r.row.words).sfl with
            deniedArmed := hw == 0 } }
      else cleared { captured c a r.row.words with rdData := wideData c a } a hw r.row.words := by
    rw [Chip.wideRead, hrc]
    rfl
  rw [hread]
  split <;> exact ⟨rfl, hdata, hcap⟩

theorem rcClear_plain {r : RegAt} (hmin : r.row.base ≠ F.TMG_FREE_MIN.V.base) (htrip : hw = 0 ∨ r.row.base ≠ F.SFL_EVENTS.TRIP.base)
    (hrange : r.row.base ≠ F.MGT_SNS_RANGE.HI.base) :
    c.rcClear r a hw = c.wr a (BitVec.ofNat 32 (Nat.land hw (r.row.mask .rc))) := by
  rcases htrip with rfl | htrip
  · have hzero : ∀ b, bitOf b 0 = false := fun b => by simp [bitOf]
    simp [Chip.rcClear, hmin, hrange, hzero]
  · simp [Chip.rcClear, hmin, htrip, hrange]

end

theorem getQ_of_regs {c d : Chip} (h : d.regs = c.regs) (g : Fld) (k l : Nat) : d.getQ g k l = c.getQ g k l := by
  rw [Chip.getQ, Chip.rd, Chip.rd, h, ← Chip.rd, ← Chip.rd, ← Chip.getQ]

/-- An access reported: its cause set, and its address where no cause was (R512). -/
theorem hostErr_reported (c : Chip) {f : Fld} (hf : f.fits) (hw : f.hi = f.lo) (hcause : f.addr = F.HST_ERR_CAUSE.all.addr) (a : Nat)
    (ha : a < 2 ^ 62) : (c.hostErr f 0 a).getF f = 1 ∧ (c.hostErr f 0 a).rdData = c.rdData ∧
      (c.getF F.HST_ERR_CAUSE.all = 0 → (c.hostErr f 0 a).getQ F.HST_ERR_ADDR.V = a) := by
  have hoff : offPba f.addr := by rw [hcause]; decide
  refine ⟨getF_raise_one hf hw hoff, ?_, fun hnone => ?_⟩
  · rw [Chip.hostErr, (Chip.quiet_raise ..).rdData]
    split <;> rfl
  · have hlow : ∀ d : Chip, (d.raise f).getQ F.HST_ERR_ADDR.V = d.getQ F.HST_ERR_ADDR.V := fun d => by
      rw [Chip.getQ, Chip.getQ, Chip.rd_raise (by rw [hcause]; decide) (offPba.not_isPba (by decide)),
        Chip.rd_raise (by rw [hcause]; decide) (offPba.not_isPba (by decide))]
    rw [Chip.hostErr, if_pos hnone, hlow, Chip.getQ_putQ]
    omega

/-- Settles O16. -/
theorem readsCaptureClearAndReport : Obligations.ReadsCaptureClearAndReport := by
  unfold Obligations.ReadsCaptureClearAndReport
  refine ⟨?_, ?_, ?_, ?_, ?_⟩
  · intro s a r hvin hcanon hgate hat hword hwide hrc
    change ∃ t, execWideLowWordRead a 0 s = .next t ∧ _
    unfold execWideLowWordRead
    refine on_exists hvin ?_
    simp only [wideLow_eq hat hcanon hword hwide, hgate, hcanon, wideRead_plain hrc]
    exact ⟨captured_regs, rfl, fun k => smFind_captured⟩
  · intro s a hw r hvin hcanon hgate hat hword hwide hrc
    change ∃ t, execWideLowWordRead a hw s = .next t ∧ _
    unfold execWideLowWordRead
    refine on_exists hvin ?_
    obtain ⟨hregs, hdata, hcap⟩ := wideRead_rc (c := s.chip) (a := a) (hw := hw.toNat) hrc
    simp only [wideLow_eq hat hcanon hword hwide, hgate, hcanon, Bool.false_eq_true, if_false]
    refine ⟨hdata, fun k hk => ?_, fun k hpos hk => ?_⟩
    · rw [Chip.rd, hregs, ← Chip.rd, rd_cleared hk]
    · rw [hcap, smFind_captured hpos hk]
  · intro s a hw r hvin hcanon hgate hat hone hrc hmin htrip hrange
    have hzero : hw.toNat = 0 ∨ r.row.base ≠ F.SFL_EVENTS.TRIP.base := htrip.imp_left fun h => by rw [h]; rfl
    change execRcRead a hw s = _
    unfold execRcRead
    refine on_eq hvin ?_
    simp [hcanon, hat, hone, hrc, hgate, rcClear_plain hmin hzero hrange]
  · intro s a hvin
    exact on_exists (f := (·.hostErr F.HST_ERR_CAUSE.BAD_WRITE 0 a)) hvin
      (hostErr_reported s.chip (f := F.HST_ERR_CAUSE.BAD_WRITE) (by decide) rfl rfl a (by omega))
  · intro s a hvin
    obtain ⟨hcause, -, haddr⟩ := hostErr_reported s.chip (f := F.HST_ERR_CAUSE.BAD_READ) (by decide) rfl rfl a (by omega)
    change ∃ t, execBadRead a s = .next t ∧ _
    unfold execBadRead
    refine on_exists hvin ⟨?_, rfl, fun hnone => ?_⟩
    · exact (getF_of_regs (c := s.chip.hostErr F.HST_ERR_CAUSE.BAD_READ 0 a) rfl ..).trans hcause
    · exact (getQ_of_regs (c := s.chip.hostErr F.HST_ERR_CAUSE.BAD_READ 0 a) rfl ..).trans (haddr hnone)

/-! ### Writes of SO fields by another writer (R14, R579, R580) -/

section
variable {c : Chip} {source a ctx : Nat}

theorem deniedCapture_kept (h : c.sfl.deniedArmed = false) : c.deniedCapture source a ctx = c := by
  simp [Chip.deniedCapture, h]

/-- The attempt captured: its address, its source, and the context of a routine (R579, R580). -/
theorem getF_deniedCapture (h : c.sfl.deniedArmed = true) (ha : a < 2 ^ 27) (hsource : source < 16) (hctx : ctx < 2 ^ 10) :
    (c.deniedCapture source a ctx).getF F.SFL_LAST_DENIED0.ADDR = a ∧
    (c.deniedCapture source a ctx).getF F.SFL_LAST_DENIED1.SOURCE = source ∧
    (c.deniedCapture source a ctx).getF F.SFL_LAST_DENIED1.CONTEXT = (if source = 5 ∨ source = 6 then ctx else 0) ∧
    (c.deniedCapture source a ctx).sfl = { c.sfl with deniedArmed := false } := by
  have hctx' : (if source = 5 ∨ source = 6 then ctx else 0) < 2 ^ 10 := by split <;> omega
  simp only [Chip.deniedCapture, h, if_true]
  refine ⟨?_, ?_, ?_, by simp⟩
  · rw [getF_putF_apart (by decide) (by decide), getF_putF_apart (by decide) (by decide), Chip.getF_putF (by decide)]
    exact Nat.mod_eq_of_lt ha
  · rw [getF_putF_apart (by decide) (by decide), Chip.getF_putF (by decide)]
    exact Nat.mod_eq_of_lt hsource
  · rw [Chip.getF_putF (by decide)]
    exact Nat.mod_eq_of_lt hctx'

theorem rd_deniedCapture {k : Nat} (h0 : k ≠ 0x20030) (h1 : k ≠ 0x20034) : (c.deniedCapture source a ctx).rd k = c.rd k := by
  unfold Chip.deniedCapture
  split
  · rw [Chip.rd_putF_ne h1, Chip.rd_putF_ne h1, Chip.rd_putF_ne h0]
    rfl
  · rfl

theorem getF_deniedCapture_ne {g : Fld} (h0 : g.addr ≠ 0x20030) (h1 : g.addr ≠ 0x20034) :
    (c.deniedCapture source a ctx).getF g = c.getF g := by
  rw [Chip.getF, rd_deniedCapture h0 h1, ← Chip.getF]

/-- A saturating counter of 32 bits counted up. -/
theorem getF_bump_one {f : Fld} (hf : f.fits) (hw : f.width = 32) :
    (c.bump f).getF f = min (2 ^ 32 - 1) (c.getF f + 1) := by
  rw [Chip.bump, Chip.getF_putF hf, hw, satAdd]
  exact Nat.mod_eq_of_lt (by omega)

/-- A refused write counts and is reported (R579). -/
theorem denied_counted :
    (c.denied source a ctx).getF F.SFL_CNT_DENIED_WRITE.V = min (2 ^ 32 - 1) (c.getF F.SFL_CNT_DENIED_WRITE.V + 1) ∧
    (c.denied source a ctx).getF F.SFL_EVENTS.DENIED_WRITE = 1 := by
  constructor
  · rw [Chip.denied, Chip.sflEvent, getF_raise_apart (by decide) (by decide) (by decide),
      getF_deniedCapture_ne (by decide) (by decide), getF_bump_one (by decide) rfl]
  · exact getF_raise_one (by decide) rfl (by decide)

/-- It touches no register but the capture, the counter, the event and a pending interrupt. -/
theorem rd_denied {k : Nat} (hcap : k ≠ 0x20030 ∧ k ≠ 0x20034 ∨ c.sfl.deniedArmed = false) (hcnt : k ≠ 0x20040)
    (hev : k ≠ 0x20020) (hpba : ¬isPba k) : (c.denied source a ctx).rd k = c.rd k := by
  rw [Chip.denied, Chip.sflEvent, Chip.rd_raise hev hpba]
  rcases hcap with ⟨h0, h1⟩ | hkept
  · rw [rd_deniedCapture h0 h1]
    exact Chip.rd_putF_ne hcnt
  · rw [deniedCapture_kept (by simpa using hkept)]
    exact Chip.rd_putF_ne hcnt

theorem denied_captured (harmed : c.sfl.deniedArmed = true) (ha : a < 2 ^ 27) (hsource : source < 16) (hctx : ctx < 2 ^ 10) :
    (c.denied source a ctx).getF F.SFL_LAST_DENIED0.ADDR = a ∧
    (c.denied source a ctx).getF F.SFL_LAST_DENIED1.SOURCE = source ∧
    (c.denied source a ctx).getF F.SFL_LAST_DENIED1.CONTEXT = (if source = 5 ∨ source = 6 then ctx else 0) ∧
    (c.denied source a ctx).sfl = { c.sfl with deniedArmed := false } := by
  obtain ⟨haddr, hsrc, hcontext, hsfl⟩ :=
    getF_deniedCapture (c := c.bump F.SFL_CNT_DENIED_WRITE.V) (by simpa using harmed) ha hsource hctx
  refine ⟨?_, ?_, ?_, ?_⟩
  · rw [Chip.denied, Chip.sflEvent, getF_raise_apart (by decide) (by decide) (by decide), haddr]
  · rw [Chip.denied, Chip.sflEvent, getF_raise_apart (by decide) (by decide) (by decide), hsrc]
  · rw [Chip.denied, Chip.sflEvent, getF_raise_apart (by decide) (by decide) (by decide), hcontext]
  · rw [Chip.denied, Chip.sflEvent, (Chip.quiet_raise ..).sfl, hsfl]
    simp

theorem denied_sfl_kept (h : c.sfl.deniedArmed = false) : (c.denied source a ctx).sfl = c.sfl := by
  rw [Chip.denied, Chip.sflEvent, (Chip.quiet_raise ..).sfl, deniedCapture_kept (by simpa using h)]
  simp

end

/-- DENIED_WRITE outside a command (R579). -/
theorem deniedWrite_plain {s : State} (hvin : s.chip.power.vin = true) {a : Fin 134217728} (hso : holdsSo a = true)
    (src : Fin 9) (ctx : Fin 1024) :
    exec (.deniedWrite a src ctx none) s = .next ⟨s.chip.denied src a ctx, s.pending⟩ := by
  change execDeniedWrite a src ctx none s = _
  unfold execDeniedWrite
  exact on_eq hvin (by simp [hso])

/-- Settles O17. -/
theorem safelightWritesAreDeniedAndCaptured : Obligations.SafelightWritesAreDeniedAndCaptured := by
  unfold Obligations.SafelightWritesAreDeniedAndCaptured
  refine ⟨?_, ?_, ?_⟩
  · intro s a src ctx hvin hso harmed
    obtain ⟨haddr, hsrc, hcontext, hsfl⟩ :=
      denied_captured (ctx := ctx) harmed (a.isLt : a.val < 2 ^ 27) (by omega : src.val < 16) ctx.isLt
    obtain ⟨hcnt, hev⟩ := denied_counted (c := s.chip) (source := src) (a := a) (ctx := ctx)
    exact ⟨_, deniedWrite_plain hvin hso src ctx, haddr, hsrc, hcontext, hcnt, hev, hsfl,
      fun k h0 h1 hc he hpba => rd_denied (.inl ⟨h0, h1⟩) hc he hpba⟩
  · intro s a src ctx hvin hso hkept
    obtain ⟨hcnt, hev⟩ := denied_counted (c := s.chip) (source := src) (a := a) (ctx := ctx)
    exact ⟨_, deniedWrite_plain hvin hso src ctx, hcnt, hev, denied_sfl_kept hkept,
      fun k hc he hpba => rd_denied (.inr hkept) hc he hpba⟩
  · intro s a src ctx p hvin hso
    change execDeniedWrite a src ctx (some p) s = _
    unfold execDeniedWrite
    exact on_eq hvin (by simp [hso])

end Sys2Proof.Proofs
end

section
/-!
What a function on the device may change. `Within M c d`: `d` differs from `c` in the parts `M` alone; where the stores of `c` are
canonical, so are those of `d`, and where the always-on domain runs in `c` it does in `d`. One lemma `within_<f>` says this of each
function `f` of the model; the soundness of every step and the frames follow from them.
-/
namespace Sys2Proof.Proofs
open Sys2Proof Sys2Proof.Machine

-- Each default `by decide` of a helper waits for the kernel: one proof at a time bounds the threads that wait.
set_option Elab.async false

/-- A part of the device. -/
inductive Part where
  | regs | wideCap | wideStage | dram | hostMem | freeCtr | rdData | power | flash | time | mgt | sfl | lanes | ports
  | sites | pkts | parse | rules | tern | pattern | tm | sched | hbm | tel | host | flow | gang | act | wds | plate
  | recov
  deriving DecidableEq

/-- The part is the same in two devices. -/
def Part.same (c d : Chip) : Part → Prop
  | .regs => d.regs = c.regs
  | .wideCap => d.wideCap = c.wideCap
  | .wideStage => d.wideStage = c.wideStage
  | .dram => d.dram = c.dram
  | .hostMem => d.hostMem = c.hostMem
  | .freeCtr => d.freeCtr = c.freeCtr
  | .rdData => d.rdData = c.rdData
  | .power => d.power = c.power
  | .flash => d.flash = c.flash
  | .time => d.time = c.time
  | .mgt => d.mgt = c.mgt
  | .sfl => d.sfl = c.sfl
  | .lanes => d.lanes = c.lanes
  | .ports => d.ports = c.ports
  | .sites => d.sites = c.sites
  | .pkts => d.pkts = c.pkts
  | .parse => d.parse = c.parse
  | .rules => d.rules = c.rules
  | .tern => d.tern = c.tern
  | .pattern => d.pattern = c.pattern
  | .tm => d.tm = c.tm
  | .sched => d.sched = c.sched
  | .hbm => d.hbm = c.hbm
  | .tel => d.tel = c.tel
  | .host => d.host = c.host
  | .flow => d.flow = c.flow
  | .gang => d.gang = c.gang
  | .act => d.act = c.act
  | .wds => d.wds = c.wds
  | .plate => d.plate = c.plate
  | .recov => d.recov = c.recov

theorem Part.same_refl (c : Chip) (p : Part) : p.same c c := by
  cases p <;> rfl

theorem Part.same_trans {b c d : Chip} {p : Part} (h : p.same b c) (k : p.same c d) : p.same b d := by
  cases p <;> exact Eq.trans k h

/-- VSB is present and the always-on domain runs. -/
def aonRuns (p : Power) : Prop := p.aon = true ∧ p.vsb = true

/-- `d` differs from `c` in the parts `M` alone, and its stores are as canonical, its supplies as present. -/
structure Within (M : List Part) (c d : Chip) : Prop where
  same : ∀ p, p ∉ M → p.same c d
  canonical : c.canonical → d.canonical
  powered : aonRuns c.power → aonRuns d.power

namespace Within

variable {M N : List Part} {b c d : Chip}

/-- A device on which the always-on domain runs stays sound. -/
theorem sound (h : Within M c d) (hc : c.sound) (haon : c.power.aon = true) : d.sound := by
  obtain ⟨hcanon, hvin, hvsb⟩ := hc
  obtain ⟨daon, dvsb⟩ := h.powered ⟨haon, hvsb haon⟩
  exact ⟨h.canonical hcanon, fun _ => daon, fun _ => dvsb⟩

theorem refl (M : List Part) (c : Chip) : Within M c c := ⟨fun p _ => p.same_refl c, id, id⟩

/-- A function's own lemma, where more parts may change. -/
theorem mono (h : Within N c d) (hM : ∀ p ∈ N, p ∈ M := by decide) : Within M c d :=
  ⟨fun p hp => h.same p fun hn => hp (hM p hn), h.canonical, h.powered⟩

/-- One function after another. -/
theorem andThen (h : Within M b c) (k : Within N c d) (hM : ∀ p ∈ N, p ∈ M := by decide) : Within M b d :=
  ⟨fun p hp => Part.same_trans (h.same p hp) (k.same p fun hn => hp (hM p hn)), fun hb => k.canonical (h.canonical hb),
    fun hb => k.powered (h.powered hb)⟩

theorem ite {p : Prop} [Decidable p] {d e : Chip} (h : Within M b d) (k : Within M b e) :
    Within M b (if p then d else e) := by
  split
  · exact h
  · exact k

theorem foldlFst {α β : Type} {f : Chip × β → α → Chip × β} {l : List α} {a : Chip × β} (h : Within M b a.1)
    (hf : ∀ a x, Within M a.1 (f a x).1) : Within M b (l.foldl f a).1 :=
  List.foldlRecOn (motive := fun a => Within M b a.1) l f h fun a ha x _ => ha.andThen (hf a x) fun _ => id

theorem foldlSnd {α β : Type} {f : β × Chip → α → β × Chip} {l : List α} {a : β × Chip} (h : Within M b a.2)
    (hf : ∀ a x, Within M a.2 (f a x).2) : Within M b (l.foldl f a).2 :=
  List.foldlRecOn (motive := fun a => Within M b a.2) l f h fun a ha x _ => ha.andThen (hf a x) fun _ => id

theorem foldl {α : Type} {f : Chip → α → Chip} {l : List α} (h : Within M b c) (hf : ∀ d x, Within M d (f d x)) :
    Within M b (l.foldl f c) :=
  List.foldlRecOn (motive := Within M b) l f h fun d hd x _ => hd.andThen (hf d x) fun _ => id

/-- A part that is not a store or the supplies takes a new value. -/
theorem update (h : Within M b c) (q : Part) (hq : q ∈ M) (hsame : ∀ p, p ≠ q → p.same c d)
    (hstores : d.regs = c.regs ∧ d.dram = c.dram ∧ d.hostMem = c.hostMem ∧ d.power = c.power) : Within M b d := by
  obtain ⟨hregs, hdram, hhost, hpower⟩ := hstores
  refine ⟨fun p hp => Part.same_trans (h.same p hp) (hsame p ?_), fun hb => ?_, fun hb => ?_⟩
  · rintro rfl
    exact hp hq
  · obtain ⟨kregs, kdram, khost⟩ := h.canonical hb
    exact ⟨hregs ▸ kregs, hdram ▸ kdram, hhost ▸ khost⟩
  · exact hpower ▸ h.powered hb

/-- The parts `S` take new values: a store a canonical one, the supplies one that leaves the always-on domain running. -/
theorem parts (h : Within M b c) (S : List Part) (hM : ∀ p ∈ S, p ∈ M := by decide)
    (hsame : ∀ p, p ∉ S → p.same c d := by intro p hp; cases p <;> first | rfl | exact absurd (by decide) hp)
    (hregs : smWf regReset c.regs → smWf regReset d.regs := by exact id)
    (hdram : Memory.wf c.dram → Memory.wf d.dram := by exact id)
    (hhost : Memory.wf c.hostMem → Memory.wf d.hostMem := by exact id)
    (hpower : aonRuns c.power → aonRuns d.power := by exact id) : Within M b d := by
  refine ⟨fun p hp => Part.same_trans (h.same p hp) (hsame p fun hS => hp (hM p hS)), fun hb => ?_,
    fun hb => hpower (h.powered hb)⟩
  obtain ⟨kregs, kdram, khost⟩ := h.canonical hb
  exact ⟨hregs kregs, hdram kdram, hhost khost⟩

/-! ### One part set -/

section
variable (h : Within M b c)
include h

theorem wideCap (v) (hM : Part.wideCap ∈ M := by decide) : Within M b { c with wideCap := v } :=
  h.update .wideCap hM (fun p hp => by cases p <;> trivial) ⟨rfl, rfl, rfl, rfl⟩

theorem wideStage (v) (hM : Part.wideStage ∈ M := by decide) : Within M b { c with wideStage := v } :=
  h.update .wideStage hM (fun p hp => by cases p <;> trivial) ⟨rfl, rfl, rfl, rfl⟩

theorem freeCtr (v) (hM : Part.freeCtr ∈ M := by decide) : Within M b { c with freeCtr := v } :=
  h.update .freeCtr hM (fun p hp => by cases p <;> trivial) ⟨rfl, rfl, rfl, rfl⟩

theorem rdData (v) (hM : Part.rdData ∈ M := by decide) : Within M b { c with rdData := v } :=
  h.update .rdData hM (fun p hp => by cases p <;> trivial) ⟨rfl, rfl, rfl, rfl⟩

theorem flash (v) (hM : Part.flash ∈ M := by decide) : Within M b { c with flash := v } :=
  h.update .flash hM (fun p hp => by cases p <;> trivial) ⟨rfl, rfl, rfl, rfl⟩

theorem time (v) (hM : Part.time ∈ M := by decide) : Within M b { c with time := v } :=
  h.update .time hM (fun p hp => by cases p <;> trivial) ⟨rfl, rfl, rfl, rfl⟩

theorem mgt (v) (hM : Part.mgt ∈ M := by decide) : Within M b { c with mgt := v } :=
  h.update .mgt hM (fun p hp => by cases p <;> trivial) ⟨rfl, rfl, rfl, rfl⟩

theorem sfl (v) (hM : Part.sfl ∈ M := by decide) : Within M b { c with sfl := v } :=
  h.update .sfl hM (fun p hp => by cases p <;> trivial) ⟨rfl, rfl, rfl, rfl⟩

theorem lanes (v) (hM : Part.lanes ∈ M := by decide) : Within M b { c with lanes := v } :=
  h.update .lanes hM (fun p hp => by cases p <;> trivial) ⟨rfl, rfl, rfl, rfl⟩

theorem ports (v) (hM : Part.ports ∈ M := by decide) : Within M b { c with ports := v } :=
  h.update .ports hM (fun p hp => by cases p <;> trivial) ⟨rfl, rfl, rfl, rfl⟩

theorem sites (v) (hM : Part.sites ∈ M := by decide) : Within M b { c with sites := v } :=
  h.update .sites hM (fun p hp => by cases p <;> trivial) ⟨rfl, rfl, rfl, rfl⟩

theorem pkts (v) (hM : Part.pkts ∈ M := by decide) : Within M b { c with pkts := v } :=
  h.update .pkts hM (fun p hp => by cases p <;> trivial) ⟨rfl, rfl, rfl, rfl⟩

theorem parse (v) (hM : Part.parse ∈ M := by decide) : Within M b { c with parse := v } :=
  h.update .parse hM (fun p hp => by cases p <;> trivial) ⟨rfl, rfl, rfl, rfl⟩

theorem rules (v) (hM : Part.rules ∈ M := by decide) : Within M b { c with rules := v } :=
  h.update .rules hM (fun p hp => by cases p <;> trivial) ⟨rfl, rfl, rfl, rfl⟩

theorem tern (v) (hM : Part.tern ∈ M := by decide) : Within M b { c with tern := v } :=
  h.update .tern hM (fun p hp => by cases p <;> trivial) ⟨rfl, rfl, rfl, rfl⟩

theorem pattern (v) (hM : Part.pattern ∈ M := by decide) : Within M b { c with pattern := v } :=
  h.update .pattern hM (fun p hp => by cases p <;> trivial) ⟨rfl, rfl, rfl, rfl⟩

theorem tm (v) (hM : Part.tm ∈ M := by decide) : Within M b { c with tm := v } :=
  h.update .tm hM (fun p hp => by cases p <;> trivial) ⟨rfl, rfl, rfl, rfl⟩

theorem sched (v) (hM : Part.sched ∈ M := by decide) : Within M b { c with sched := v } :=
  h.update .sched hM (fun p hp => by cases p <;> trivial) ⟨rfl, rfl, rfl, rfl⟩

theorem hbm (v) (hM : Part.hbm ∈ M := by decide) : Within M b { c with hbm := v } :=
  h.update .hbm hM (fun p hp => by cases p <;> trivial) ⟨rfl, rfl, rfl, rfl⟩

theorem tel (v) (hM : Part.tel ∈ M := by decide) : Within M b { c with tel := v } :=
  h.update .tel hM (fun p hp => by cases p <;> trivial) ⟨rfl, rfl, rfl, rfl⟩

theorem host (v) (hM : Part.host ∈ M := by decide) : Within M b { c with host := v } :=
  h.update .host hM (fun p hp => by cases p <;> trivial) ⟨rfl, rfl, rfl, rfl⟩

theorem flow (v) (hM : Part.flow ∈ M := by decide) : Within M b { c with flow := v } :=
  h.update .flow hM (fun p hp => by cases p <;> trivial) ⟨rfl, rfl, rfl, rfl⟩

theorem gang (v) (hM : Part.gang ∈ M := by decide) : Within M b { c with gang := v } :=
  h.update .gang hM (fun p hp => by cases p <;> trivial) ⟨rfl, rfl, rfl, rfl⟩

theorem act (v) (hM : Part.act ∈ M := by decide) : Within M b { c with act := v } :=
  h.update .act hM (fun p hp => by cases p <;> trivial) ⟨rfl, rfl, rfl, rfl⟩

theorem wds (v) (hM : Part.wds ∈ M := by decide) : Within M b { c with wds := v } :=
  h.update .wds hM (fun p hp => by cases p <;> trivial) ⟨rfl, rfl, rfl, rfl⟩

theorem plate (v) (hM : Part.plate ∈ M := by decide) : Within M b { c with plate := v } :=
  h.update .plate hM (fun p hp => by cases p <;> trivial) ⟨rfl, rfl, rfl, rfl⟩

theorem recov (v) (hM : Part.recov ∈ M := by decide) : Within M b { c with recov := v } :=
  h.update .recov hM (fun p hp => by cases p <;> trivial) ⟨rfl, rfl, rfl, rfl⟩

/-- The registers take a canonical map. -/
theorem regs {m : SMap Word} (hm : smWf regReset c.regs → smWf regReset m) (hM : Part.regs ∈ M := by decide) :
    Within M b { c with regs := m } := by
  refine ⟨fun p hp => Part.same_trans (h.same p hp) ?_, fun hb => ?_, h.powered⟩
  · cases p <;> trivial
  · obtain ⟨kregs, kdram, khost⟩ := h.canonical hb
    exact ⟨hm kregs, kdram, khost⟩

/-- DRAM takes a canonical map. -/
theorem dram {m : List Host.Cell} (hm : Memory.wf c.dram → Memory.wf m) (hM : Part.dram ∈ M := by decide) :
    Within M b { c with dram := m } := by
  refine ⟨fun p hp => Part.same_trans (h.same p hp) ?_, fun hb => ?_, h.powered⟩
  · cases p <;> trivial
  · obtain ⟨kregs, kdram, khost⟩ := h.canonical hb
    exact ⟨kregs, hm kdram, khost⟩

/-- Host memory takes a canonical map. -/
theorem hostMem {m : List Host.Cell} (hm : Memory.wf c.hostMem → Memory.wf m) (hM : Part.hostMem ∈ M := by decide) :
    Within M b { c with hostMem := m } := by
  refine ⟨fun p hp => Part.same_trans (h.same p hp) ?_, fun hb => ?_, h.powered⟩
  · cases p <;> trivial
  · obtain ⟨kregs, kdram, khost⟩ := h.canonical hb
    exact ⟨kregs, kdram, hm khost⟩

/-- The supplies take a value that leaves the always-on domain running. -/
theorem power {v : Power} (hv : aonRuns c.power → aonRuns v) (hM : Part.power ∈ M := by decide) :
    Within M b { c with power := v } := by
  refine ⟨fun p hp => Part.same_trans (h.same p hp) ?_, h.canonical, fun hb => hv (h.powered hb)⟩
  cases p <;> trivial

end

/-! ### What a lemma says of one part -/

section
variable (h : Within M c d)
include h

theorem regs_eq (hM : Part.regs ∉ M := by decide) : d.regs = c.regs := h.same .regs hM

theorem wideCap_eq (hM : Part.wideCap ∉ M := by decide) : d.wideCap = c.wideCap := h.same .wideCap hM

theorem wideStage_eq (hM : Part.wideStage ∉ M := by decide) : d.wideStage = c.wideStage := h.same .wideStage hM

theorem dram_eq (hM : Part.dram ∉ M := by decide) : d.dram = c.dram := h.same .dram hM

theorem hostMem_eq (hM : Part.hostMem ∉ M := by decide) : d.hostMem = c.hostMem := h.same .hostMem hM

theorem freeCtr_eq (hM : Part.freeCtr ∉ M := by decide) : d.freeCtr = c.freeCtr := h.same .freeCtr hM

theorem rdData_eq (hM : Part.rdData ∉ M := by decide) : d.rdData = c.rdData := h.same .rdData hM

theorem power_eq (hM : Part.power ∉ M := by decide) : d.power = c.power := h.same .power hM

theorem flash_eq (hM : Part.flash ∉ M := by decide) : d.flash = c.flash := h.same .flash hM

theorem time_eq (hM : Part.time ∉ M := by decide) : d.time = c.time := h.same .time hM

theorem mgt_eq (hM : Part.mgt ∉ M := by decide) : d.mgt = c.mgt := h.same .mgt hM

theorem sfl_eq (hM : Part.sfl ∉ M := by decide) : d.sfl = c.sfl := h.same .sfl hM

theorem lanes_eq (hM : Part.lanes ∉ M := by decide) : d.lanes = c.lanes := h.same .lanes hM

theorem ports_eq (hM : Part.ports ∉ M := by decide) : d.ports = c.ports := h.same .ports hM

theorem sites_eq (hM : Part.sites ∉ M := by decide) : d.sites = c.sites := h.same .sites hM

theorem pkts_eq (hM : Part.pkts ∉ M := by decide) : d.pkts = c.pkts := h.same .pkts hM

theorem parse_eq (hM : Part.parse ∉ M := by decide) : d.parse = c.parse := h.same .parse hM

theorem rules_eq (hM : Part.rules ∉ M := by decide) : d.rules = c.rules := h.same .rules hM

theorem tern_eq (hM : Part.tern ∉ M := by decide) : d.tern = c.tern := h.same .tern hM

theorem pattern_eq (hM : Part.pattern ∉ M := by decide) : d.pattern = c.pattern := h.same .pattern hM

theorem tm_eq (hM : Part.tm ∉ M := by decide) : d.tm = c.tm := h.same .tm hM

theorem sched_eq (hM : Part.sched ∉ M := by decide) : d.sched = c.sched := h.same .sched hM

theorem hbm_eq (hM : Part.hbm ∉ M := by decide) : d.hbm = c.hbm := h.same .hbm hM

theorem tel_eq (hM : Part.tel ∉ M := by decide) : d.tel = c.tel := h.same .tel hM

theorem host_eq (hM : Part.host ∉ M := by decide) : d.host = c.host := h.same .host hM

theorem flow_eq (hM : Part.flow ∉ M := by decide) : d.flow = c.flow := h.same .flow hM

theorem gang_eq (hM : Part.gang ∉ M := by decide) : d.gang = c.gang := h.same .gang hM

theorem act_eq (hM : Part.act ∉ M := by decide) : d.act = c.act := h.same .act hM

theorem wds_eq (hM : Part.wds ∉ M := by decide) : d.wds = c.wds := h.same .wds hM

theorem plate_eq (hM : Part.plate ∉ M := by decide) : d.plate = c.plate := h.same .plate hM

theorem recov_eq (hM : Part.recov ∉ M := by decide) : d.recov = c.recov := h.same .recov hM

end

/-! ### The device in a pair -/

section
variable {α β : Type}

theorem iteSnd1 {p : Prop} [Decidable p] {x y : α × Chip} (h : Within M b x.2) (k : Within M b y.2) :
    Within M b (if p then x else y).2 := by
  split
  · exact h
  · exact k

theorem iteSnd {p : Prop} [Decidable p] {x y : α × β × Chip} (h : Within M b x.2.2) (k : Within M b y.2.2) :
    Within M b (if p then x else y).2.2 := by
  split
  · exact h
  · exact k

theorem iteSnd3 {γ : Type} {p : Prop} [Decidable p] {x y : α × β × γ × Chip} (h : Within M b x.2.2.2)
    (k : Within M b y.2.2.2) : Within M b (if p then x else y).2.2.2 := by
  split
  · exact h
  · exact k

theorem of_snd3 {γ : Type} {p : α × β × γ × Chip} {a : α} {x : β} {y : γ} (e : p = (a, x, y, d))
    (h : Within M b p.2.2.2) : Within M b d := by
  rwa [e] at h

theorem of_fst {p : Chip × α} {a : α} (e : p = (d, a)) (h : Within M b p.1) : Within M b d := by
  rwa [e] at h

theorem of_snd {p : α × Chip} {a : α} (e : p = (a, d)) (h : Within M b p.2) : Within M b d := by
  rwa [e] at h

theorem fst_mk {a : α} (h : Within M b d) : Within M b (d, a).1 := h

theorem snd_mk {a : α} (h : Within M b d) : Within M b (a, d).2 := h

theorem of_snd_snd {p : α × β × Chip} {a : α} {x : β} (e : p = (a, x, d)) (h : Within M b p.2.2) : Within M b d := by
  rwa [e] at h

end

end Within

end Sys2Proof.Proofs
end

section
/-!
One lemma `within_<f>` for each function `f` of the model, in the order in which they use each other (1 of 6).
-/
namespace Sys2Proof.Proofs
open Sys2Proof Sys2Proof.Machine

-- Each default `by decide` of a helper waits for the kernel: one proof at a time bounds the threads that wait.
set_option Elab.async false

theorem within_wr (c : Chip) (a : Nat) (v : Word) : Within [.regs] c (c.wr a v) := by
  unfold Chip.wr
  exact (Within.refl _ _).regs smSet_wf

theorem within_putF (c : Chip) (f : Fld) (v i j : Nat) : Within [.regs] c (c.putF f v i j) := by
  unfold Chip.putF
  exact (within_wr ..).mono

theorem Within.command {M : List Part} {b c : Chip} {p : Port} {k : Chip → Chip} {i : Nat} (h : Within M b c)
    (hk : ∀ d, Within M d (k d)) (hM : ∀ q ∈ [Part.regs], q ∈ M := by decide) : Within M b (c.command p k i) := by
  unfold Chip.command
  exact .ite (h.andThen (within_putF ..) hM) (h.andThen (hk _) fun _ => id)

theorem within_hostWrite (c : Chip) (a : Nat) (bs : Bytes) : Within [.hostMem] c (c.hostWrite a bs) := by
  unfold Chip.hostWrite
  exact (Within.refl _ _).hostMem memWrite_wf

theorem within_message (c : Chip) (v : Nat) : Within [.regs, .hostMem, .host] c (c.message v) := by
  unfold Chip.message
  extract_lets w src
  have hsrc : Within [.regs, .hostMem, .host] c src := (within_hostWrite ..).mono
  exact .ite (within_putF ..).mono (.ite (.refl _ _) (hsrc.host _))

theorem within_sourceRise (c : Chip) (s : Nat) : Within [.regs, .hostMem, .host] c (c.sourceRise s) := by
  unfold Chip.sourceRise
  exact .ite (.refl _ _) (within_message ..).mono

theorem within_raiseDone (c : Chip) (f : Fld) (i : Nat) : Within [.regs, .hostMem, .host] c (c.raiseDone f i) := by
  unfold Chip.raiseDone
  extract_lets c1
  have hc1 : Within [.regs, .hostMem, .host] c c1 := (within_putF ..).mono
  refine .ite ?_ ?_
  · exact hc1
  · split
    · exact hc1.andThen (within_sourceRise ..)
    · exact hc1

theorem within_finish (c : Chip) (p : Port) (st i : Nat) : Within [.regs, .hostMem, .host] c (c.finish p st i) := by
  unfold Chip.finish
  exact ((within_putF ..).mono.andThen (within_putF ..)).andThen (within_raiseDone ..)

theorem within_putQ (c : Chip) (f : Fld) (v i j : Nat) : Within [.regs] c (c.putQ f v i j) := by
  unfold Chip.putQ
  exact (within_wr ..).mono.andThen (within_wr ..)

theorem within_showPending (c : Chip) : Within [.regs] c c.showPending := by
  unfold Chip.showPending
  extract_lets img
  exact (within_putF ..).mono.andThen (within_putQ ..)

theorem within_abandonPlate (c : Chip) : Within [.regs, .hostMem, .host, .plate] c c.abandonPlate := by
  unfold Chip.abandonPlate
  exact .command (.refl _ _) fun _ => (.ite (within_finish ..).mono
    (.ite (within_finish ..).mono ((((Within.refl _ _).plate _).andThen (within_showPending ..)).andThen (within_finish ..))))

theorem within_nextSeq (c : Chip) (port : Nat) : Within [.gang] c (c.nextSeq port) := by
  unfold Chip.nextSeq
  exact (Within.refl _ _).gang _

theorem within_setPort (c : Chip) (p : Nat) (x : PortSt) : Within [.ports] c (c.setPort p x) := by
  unfold Chip.setPort
  exact (Within.refl _ _).ports _

theorem within_evAdd (c : Chip) (n k : Nat) : Within [.regs] c (c.evAdd n k) := by
  unfold Chip.evAdd
  extract_lets v c1
  have hc1 : Within [.regs] c c1 := (within_putQ ..).mono
  exact .ite (hc1.andThen (within_putF ..)) hc1

theorem within_signal (c : Chip) (blk inst : Nat) (ev k : Nat) : Within [.regs] c (c.signal blk inst ev k) := by
  unfold Chip.signal
  exact .ite (.refl _ _) (.foldl (.refl _ _) fun _ _ => (within_evAdd ..).mono)

theorem within_bumpQWrap (c : Chip) (w : Nat) (f : Fld) (i j n : Nat) : Within [.regs] c (c.bumpQWrap w f i j n) := by
  unfold Chip.bumpQWrap
  exact (within_putQ ..).mono

theorem within_stat (c : Chip) (p i k : Nat) : Within [.regs] c (c.stat p i k) := by
  unfold Chip.stat
  exact (within_bumpQWrap ..).mono

theorem within_txStats (c : Chip) (p len : Nat) (fr : Bytes) : Within [.regs] c (c.txStats p len fr) := by
  unfold Chip.txStats
  extract_lets c1 c2
  have hc1 : Within [.regs] c c1 := (within_stat ..).mono.andThen (within_stat ..)
  have hc2 : Within [.regs] c c2 := hc1.andThen (within_stat ..)
  exact hc2.andThen (within_signal ..)

theorem within_gangOut (c : Chip) (port dev type : Nat) (body : Bytes) :
    Within [.regs, .ports, .gang] c (c.gangOut port dev type body) := by
  unfold Chip.gangOut
  extract_lets fr c1
  have hc1 : Within [.regs, .ports, .gang] c c1 := (within_nextSeq ..).mono.andThen (within_txStats ..)
  exact hc1.andThen (within_setPort ..)

theorem within_rrecAnswer (c : Chip) (a : FAnswer) : Within [.regs, .ports, .gang] c (c.rrecAnswer a) := by
  unfold Chip.rrecAnswer
  extract_lets dev st
  split
  · exact .refl _ _
  · exact (within_gangOut ..).mono

theorem within_deniedCapture (c : Chip) (source addr ctx : Nat) : Within [.regs, .sfl] c (c.deniedCapture source addr ctx) := by
  unfold Chip.deniedCapture
  exact .ite (((((Within.refl _ _).sfl _).andThen (within_putF ..)).andThen (within_putF ..)).andThen (within_putF ..))
    (.refl _ _)

theorem within_putWords (c : Chip) (a : Nat) (bs : Bytes) : Within [.regs] c (c.putWords a bs) := by
  fun_induction Chip.putWords c a bs with
  | case1 => exact .refl _ _
  | case2 _ _ _ _ _ _ _ ih => exact (within_wr ..).andThen ih
  | case3 => exact within_wr ..

theorem within_twDone (c : Chip) (w st reason : Nat) : Within [.regs, .hostMem, .host] c (c.twDone w st reason) := by
  unfold Chip.twDone
  exact (within_putF ..).mono.andThen (within_finish ..)

theorem within_winAnswer (c : Chip) (a : FAnswer) : Within [.regs, .hostMem, .sfl, .host] c (c.winAnswer a) := by
  unfold Chip.winAnswer
  extract_lets w _ c1
  have hc1 : Within [.regs, .hostMem, .sfl, .host] c c1 := (Within.refl _ _).host _
  split
  · exact .refl _ _
  · split
    · exact (Within.ite (hc1.andThen (within_putWords ..)) hc1).andThen (within_twDone ..)
    · exact (hc1.andThen (within_deniedCapture ..)).andThen (within_twDone ..)
    · exact hc1.andThen (within_twDone ..)
    · exact hc1.andThen (within_twDone ..)
    · exact hc1.andThen (within_twDone ..)
    · exact hc1.andThen (within_twDone ..)

theorem within_answerOne (c : Chip) (a : FAnswer) :
    Within [.regs, .hostMem, .sfl, .ports, .host, .gang, .act] c (c.answerOne a) := by
  unfold Chip.answerOne
  exact .ite (within_winAnswer ..).mono (.ite ((Within.refl _ _).act _) (within_rrecAnswer ..).mono)

theorem within_onFlow (c : Chip) (f : FlowSt → FlowSt) : Within [.flow] c (c.onFlow f) := by
  unfold Chip.onFlow
  exact (Within.refl _ _).flow _

theorem within_drainAnswers (c : Chip) :
    Within [.regs, .hostMem, .sfl, .ports, .host, .flow, .gang, .act] c c.drainAnswers := by
  unfold Chip.drainAnswers
  extract_lets l
  exact .foldl (within_onFlow ..).mono fun _ _ => (within_answerOne ..).mono

theorem within_bump (c : Chip) (f : Fld) (i j n : Nat) : Within [.regs] c (c.bump f i j n) := by
  unfold Chip.bump
  exact (within_putF ..).mono

theorem within_raise (c : Chip) (f : Fld) (i : Nat) : Within [.regs, .hostMem, .host] c (c.raise f i) := by
  unfold Chip.raise
  extract_lets c1
  have hc1 : Within [.regs, .hostMem, .host] c c1 := (within_putF ..).mono
  refine .ite ?_ ?_
  · exact hc1
  · split
    · exact hc1.andThen (within_sourceRise ..)
    · exact hc1

theorem within_onTel (c : Chip) (f : TelSt → TelSt) : Within [.tel] c (c.onTel f) := by
  unfold Chip.onTel
  exact (Within.refl _ _).tel _

theorem within_setExpQ (c : Chip) (q : List ExpRec) : Within [.regs, .tel] c (c.setExpQ q) := by
  unfold Chip.setExpQ
  exact (within_onTel ..).mono.andThen (within_putF ..)

theorem within_exportOne (c : Chip) (reason : Nat) (r : Bytes) :
    Within [.regs, .hostMem, .tel, .host] c (c.exportOne reason r) := by
  unfold Chip.exportOne
  exact .ite (.refl _ _) (.ite (((within_bump ..).mono.andThen (within_raise ..)).andThen (within_signal ..))
    ((within_setExpQ ..).mono.andThen (within_signal ..)))

theorem within_drainExports (c : Chip) : Within [.regs, .hostMem, .tel, .host, .flow] c c.drainExports := by
  unfold Chip.drainExports
  extract_lets l
  exact .foldl (within_onFlow ..).mono fun _ _ => (within_exportOne ..).mono

theorem within_bumpQ (c : Chip) (w : Nat) (f : Fld) (i j n : Nat) : Within [.regs] c (c.bumpQ w f i j n) := by
  unfold Chip.bumpQ
  exact (within_putQ ..).mono

theorem within_classAbsent (c : Chip) : Within [.regs, .hostMem, .host] c c.classAbsent := by
  unfold Chip.classAbsent
  exact (within_bump ..).mono.andThen (within_raise ..)

theorem within_onWds (c : Chip) (f : DispSt → DispSt) : Within [.wds] c (c.onWds f) := by
  unfold Chip.onWds
  exact (Within.refl _ _).wds _

theorem within_csAfter (c : Chip) : Within [.regs, .wds] c c.csAfter := by
  unfold Chip.csAfter
  split
  · exact .refl _ _
  · exact .ite ((within_onWds ..).mono.andThen (within_putF ..)) (within_onWds ..).mono

theorem within_csTrigger (c : Chip) (st : Nat) : Within [.regs, .hostMem, .host, .wds] c (c.csTrigger st) := by
  unfold Chip.csTrigger
  exact .ite (.ite (((within_putF ..).mono.andThen (within_raise ..)).andThen (within_putF ..))
    (((within_putF ..).mono.andThen (within_raise ..)).andThen (within_onWds ..))) (.refl _ _)

theorem within_bumpWrap (c : Chip) (f : Fld) (i j n : Nat) : Within [.regs] c (c.bumpWrap f i j n) := by
  unfold Chip.bumpWrap
  exact (within_putF ..).mono

theorem within_setRing (c : Chip) (n : Nat) (r : RingSt) : Within [.host] c (c.setRing n r) := by
  unfold Chip.setRing
  exact (Within.refl _ _).host _

theorem within_complete (c : Chip) (n used : Nat) (flags count : Nat) :
    Within [.regs, .hostMem, .host] c (c.complete n used flags count) := by
  unfold Chip.complete
  extract_lets h c1 c2
  have hc1 : Within [.regs, .hostMem, .host] c c1 := (within_hostWrite ..).mono
  have hc2 : Within [.regs, .hostMem, .host] c c2 := hc1.andThen (within_bumpWrap ..)
  exact hc2.andThen (within_setRing ..)

theorem within_closeBuf (c : Chip) (n : Nat) : Within [.regs, .hostMem, .host] c (c.closeBuf n) := by
  unfold Chip.closeBuf
  extract_lets r c1
  have hc1 : Within [.regs, .hostMem, .host] c c1 := (within_complete ..).mono
  exact .ite (.refl _ _) (hc1.andThen (within_setRing ..))

theorem within_putRecord (c : Chip) (n : Nat) (rb : Bytes) : Within [.hostMem, .host] c (c.putRecord n rb).2 := by
  unfold Chip.putRecord
  extract_lets r h c1
  have hc1 : Within [.hostMem, .host] c c1 := (within_hostWrite ..).mono
  split
  · exact .snd_mk (.refl _ _)
  · exact .snd_mk (hc1.andThen (within_setRing ..))

theorem within_ringRecord (c : Chip) (n source : Nat) (bs : Bytes) :
    Within [.regs, .hostMem, .host] c (c.ringRecord n source bs).2 := by
  unfold Chip.ringRecord
  extract_lets rb lost
  split
  · exact .snd_mk (within_bump ..).mono
  · split
    · rename_i d heq
      have hd : Within [.regs, .hostMem, .host] c d := .of_snd heq (within_putRecord ..).mono
      exact .snd_mk hd
    · rename_i d heq
      have hd : Within [.regs, .hostMem, .host] c d := .of_snd heq (within_putRecord ..).mono
      split
      · exact .snd_mk (hd.andThen (within_bump ..))
      · split
        · rename_i d1 heq1
          have hd1 : Within [.regs, .hostMem, .host] c d1 :=
            .of_snd heq1 ((hd.andThen (within_closeBuf ..)).andThen (within_putRecord ..))
          exact .snd_mk hd1
        · rename_i d1 heq1
          have hd1 : Within [.regs, .hostMem, .host] c d1 :=
            .of_snd heq1 ((hd.andThen (within_closeBuf ..)).andThen (within_putRecord ..))
          exact .snd_mk (hd1.andThen (within_bump ..))

theorem within_csRecord (c : Chip) (ev q : Nat) (loc kind : Nat) (st code : Nat) (steps tag : Nat) :
    Within [.regs, .hostMem, .host, .wds] c (c.csRecord ev q loc kind st code steps tag) := by
  unfold Chip.csRecord
  extract_lets on lost r
  refine .ite ?_ ?_
  · exact .refl _ _
  · split
    · rename_i d heq
      have hd : Within [.regs, .hostMem, .host, .wds] c d := .of_snd heq (within_ringRecord ..).mono
      extract_lets c1
      have hc1 : Within [.regs, .hostMem, .host, .wds] c c1 := (hd.andThen (within_onWds ..)).andThen (within_csAfter ..)
      exact .ite (hc1.andThen (within_csTrigger ..)) hc1
    · rename_i d heq
      have hd : Within [.regs, .hostMem, .host, .wds] c d := .of_snd heq (within_ringRecord ..).mono
      exact ((hd.andThen (within_bump ..)).andThen (within_raise ..)).andThen (within_onWds ..)

theorem within_csItem (c : Chip) (ev q loc : Nat) (b : Bound) (st code steps : Nat) :
    Within [.regs, .hostMem, .host, .wds] c (c.csItem ev q loc b st code steps) := by
  unfold Chip.csItem
  exact .ite (within_csRecord ..).mono (.refl _ _)

theorem within_csSelect (c : Chip) (q : Nat) : Within [.wds] c (c.csSelect q).2 := by
  unfold Chip.csSelect
  split
  · extract_lets k n
    split
    · exact .snd_mk (.refl _ _)
    · exact .snd_mk (within_onWds ..).mono
  · exact .snd_mk (.refl _ _)

theorem within_condEv (c : Chip) (blk inst ev : Nat) (b : Bool) : Within [.regs, .tel] c (c.condEv blk inst ev b) := by
  unfold Chip.condEv
  extract_lets key old _ c1
  have hc1 : Within [.regs, .tel] c c1 := (Within.refl _ _).tel _
  exact .ite (.foldl hc1 fun _ _ => (within_evAdd ..).mono) hc1

theorem within_setWaiting (c : Chip) (q : Nat) (l : List Bound) : Within [.regs, .tel, .wds] c (c.setWaiting q l) := by
  unfold Chip.setWaiting
  exact (within_onWds ..).mono.andThen (within_condEv ..)

theorem within_enterItem (c : Chip) (q : Nat) (item : Bytes) (att : Option Bytes) (shared : Bool) :
    Within [.regs, .hostMem, .tel, .host, .wds] c (c.enterItem q item att shared) := by
  unfold Chip.enterItem
  split
  · rename_i d heq
    have hd : Within [.regs, .hostMem, .tel, .host, .wds] c d := .of_snd heq (within_csSelect ..).mono
    extract_lets b c1
    have hc1 : Within [.regs, .hostMem, .tel, .host, .wds] c c1 :=
      (hd.andThen (within_setWaiting ..)).andThen (within_signal ..)
    exact hc1.andThen (within_csItem ..)

theorem within_refuseItem (c : Chip) (q why : Nat) (item : Bytes) :
    Within [.regs, .hostMem, .host, .wds] c (c.refuseItem q why item) := by
  unfold Chip.refuseItem
  exact ((within_raise ..).mono.andThen (within_signal ..)).andThen (within_csRecord ..)

theorem within_sink (c : Chip) (f : Fld) (i j n : Nat) : Within [.regs] c (c.sink f i j n) := by
  unfold Chip.sink
  exact (within_putF ..).mono

theorem within_takeSlot (c : Chip) (q : Nat) (att : Bool) : Within [.regs] c (c.takeSlot q att).2 := by
  unfold Chip.takeSlot
  extract_lets shared c1 c2
  have hc1 : Within [.regs] c c1 := (within_bump ..).mono.andThen (within_bump ..)
  have hc2 : Within [.regs] c c2 := .ite (hc1.andThen (within_sink ..)) hc1
  exact .snd_mk (.ite (hc2.andThen (within_sink ..)) hc2)

theorem within_offer (c : Chip) (q : Nat) (item : Bytes) (att : Option Bytes) :
    Within [.regs, .hostMem, .tel, .host, .wds] c (c.offer q item att).2 := by
  unfold Chip.offer
  split
  · exact .snd_mk (within_classAbsent ..).mono
  · split
    · split
      · rename_i d heq
        have hd : Within [.regs, .hostMem, .tel, .host, .wds] c d := .of_snd heq (within_takeSlot ..).mono
        exact .snd_mk (hd.andThen (within_enterItem ..))
    · exact .snd_mk (within_refuseItem ..).mono

theorem within_drainOffers (c : Chip) : Within [.regs, .hostMem, .tel, .host, .flow, .wds] c c.drainOffers := by
  unfold Chip.drainOffers
  extract_lets l
  refine .foldl ?_ fun d x => ?_
  · exact (within_onFlow ..).mono
  · split
    · rename_i d1 heq
      have hd1 : Within [.regs, .hostMem, .tel, .host, .flow, .wds] d d1 := .of_snd heq (within_offer ..).mono
      exact hd1
    · rename_i d1 _ heq
      have hd1 : Within [.regs, .hostMem, .tel, .host, .flow, .wds] d d1 := .of_snd heq (within_offer ..).mono
      exact hd1.andThen (within_bumpQ ..)

theorem within_replOut (c : Chip) (dev : Nat) (r : Bytes) (del migrate : Bool) :
    Within [.regs, .ports, .gang] c (c.replOut dev r del migrate) := by
  unfold Chip.replOut
  extract_lets h1 body
  split
  · exact .refl _ _
  · exact (within_gangOut ..).mono.andThen (within_bump ..)

theorem within_drainRepl (c : Chip) : Within [.regs, .ports, .flow, .gang] c c.drainRepl := by
  unfold Chip.drainRepl
  extract_lets rs ms c1 c2
  have hc1 : Within [.regs, .ports, .flow, .gang] c c1 := (within_onFlow ..).mono
  have hc2 : Within [.regs, .ports, .flow, .gang] c c2 := .foldl hc1 fun _ _ => (within_replOut ..).mono
  exact .ite (.foldl hc2 fun _ _ => (within_replOut ..).mono) hc2

theorem within_pfcChange (c : Chip) (p back : Nat) : Within [.regs, .tm, .tel] c (c.pfcChange p back) := by
  unfold Chip.pfcChange
  extract_lets old _ c1
  have hc1 : Within [.regs, .tm, .tel] c c1 := (Within.refl _ _).tm _
  exact hc1.andThen (within_condEv ..)

theorem within_pfcEval (c : Chip) (p r : Nat) : Within [.regs, .hostMem, .tm, .tel, .host] c (c.pfcEval p r) := by
  unfold Chip.pfcEval
  extract_lets mode st xoff xon n n1
  exact .ite (.ite (((within_putF ..).mono.andThen (within_raise ..)).andThen (within_pfcChange ..))
    (.ite ((within_putF ..).mono.andThen (within_pfcChange ..)) (.refl _ _)))
      (.ite (.ite (((within_putF ..).mono.andThen (within_raise ..)).andThen (within_pfcChange ..))
        (.ite ((within_putF ..).mono.andThen (within_pfcChange ..)) (.refl _ _)))
          (.ite ((within_putF ..).mono.andThen (within_pfcChange ..)) (.refl _ _)))

theorem within_setBankUse (c : Chip) (b n : Nat) : Within [.tm] c (c.setBankUse b n) := by
  unfold Chip.setBankUse
  exact (Within.refl _ _).tm _

theorem within_setPkt (c : Chip) (pid : Nat) (p : Pkt) : Within [.pkts] c (c.setPkt pid p) := by
  unfold Chip.setPkt
  exact (Within.refl _ _).pkts _

theorem within_takeBanks (c : Chip) (n b : Nat) : Within [.tm] c (c.takeBanks n b).2 := by
  induction n generalizing c b with
  | zero => exact .refl _ _
  | succ n ih => exact (within_setBankUse ..).mono.andThen (ih ..)

theorem within_holdCells (c : Chip) (pid n : Nat) :
    Within [.regs, .hostMem, .pkts, .tm, .tel, .host] c (c.holdCells pid n) := by
  unfold Chip.holdCells
  split
  · exact .refl _ _
  next p _ =>
  extract_lets first taken
  have htaken : Within [.regs, .hostMem, .pkts, .tm, .tel, .host] c taken.2 := by
    unfold taken
    split
    · split
      next heq =>
      have hd := Within.of_snd heq (within_takeBanks ..)
      dsimp only
      exact .ite (hd.mono.tm _) hd.mono
    · exact .foldl (.refl _ _) fun _ _ => (within_setBankUse ..).mono
  clear_value taken
  split
  next bs d =>
  extract_lets c1 c2 k t c3
  have hc1 : Within [.regs, .hostMem, .pkts, .tm, .tel, .host] c c1 := htaken.andThen (within_setPkt ..)
  have hc2 : Within [.regs, .hostMem, .pkts, .tm, .tel, .host] c c2 := .ite hc1 (hc1.andThen (within_putF ..))
  have hc3 : Within [.regs, .hostMem, .pkts, .tm, .tel, .host] c c3 := .ite (hc2.tm _) hc2
  exact .ite ((hc3.andThen (within_putF ..)).andThen (within_pfcEval ..)) hc3

theorem within_setFree (c : Chip) (n : Nat) : Within [.regs, .hostMem, .host] c (c.setFree n) := by
  unfold Chip.setFree
  extract_lets c1 c11 w
  have hc1 : Within [.regs, .hostMem, .host] c c1 := (within_putF ..).mono
  have hc11 : Within [.regs, .hostMem, .host] c c11 := .ite (hc1.andThen (within_putF ..)) hc1
  exact .ite (hc11.andThen (within_raise ..)) hc11

theorem within_setIngRes (c : Chip) (s n : Nat) : Within [.tm] c (c.setIngRes s n) := by
  unfold Chip.setIngRes
  exact (Within.refl _ _).tm _

theorem within_returnCells (c : Chip) (pid n : Nat) : Within [.regs, .hostMem, .pkts, .tm, .host] c (c.returnCells pid n) := by
  unfold Chip.returnCells
  split
  · exact .refl _ _
  · extract_lets sh i h c1 c2
    have hc1 : Within [.regs, .hostMem, .pkts, .tm, .host] c c1 := (within_setIngRes ..).mono.andThen (within_setFree ..)
    have hc2 : Within [.regs, .hostMem, .pkts, .tm, .host] c c2 := hc1.andThen (within_sink ..)
    exact hc2.andThen (within_setPkt ..)

theorem within_settleCells (c : Chip) (pid : Nat) : Within [.regs, .hostMem, .pkts, .tm, .host] c (c.settleCells pid) := by
  unfold Chip.settleCells
  split
  · exact .refl _ _
  · extract_lets have_
    exact .ite (within_returnCells ..).mono ((within_setFree ..).mono.andThen (within_setPkt ..))

theorem within_freePkt (c : Chip) (pid : Nat) : Within [.regs, .hostMem, .pkts, .tm, .tel, .host] c (c.freePkt pid) := by
  unfold Chip.freePkt
  exact (within_holdCells ..).mono.andThen (within_settleCells ..)

theorem within_rmPkt (c : Chip) (pid : Nat) : Within [.pkts] c (c.rmPkt pid) := by
  unfold Chip.rmPkt
  exact (Within.refl _ _).pkts _

theorem within_unpark (c : Chip) (pid : Nat) : Within [.pkts, .tm] c (c.unpark pid) := by
  unfold Chip.unpark
  split
  · exact .refl _ _
  · split
    · exact .refl _ _
    · extract_lets _ c1
      have hc1 : Within [.pkts, .tm] c c1 := (Within.refl _ _).tm _
      exact hc1.andThen (within_setPkt ..)

theorem within_endPkt (c : Chip) (pid : Nat) :
    Within [.regs, .hostMem, .pkts, .pattern, .tm, .tel, .host] c (c.endPkt pid) := by
  unfold Chip.endPkt
  extract_lets c1 rq _ _ c2
  have hc1 : Within [.regs, .hostMem, .pkts, .pattern, .tm, .tel, .host] c c1 :=
    (within_unpark ..).mono.andThen (within_freePkt ..)
  have hc2 : Within [.regs, .hostMem, .pkts, .pattern, .tm, .tel, .host] c c2 := hc1.parts [.pattern, .tm]
  split
  · exact hc2
  · exact .ite (hc2.andThen (within_setPkt ..)) (hc2.andThen (within_rmPkt ..))

theorem within_stripOut (c : Chip) (p : Pkt) (s : Strip) (outcome reason : Nat) :
    Within [.regs, .hostMem, .host] c (c.stripOut p s outcome reason) := by
  unfold Chip.stripOut
  split
  · rename_i d heq
    have hd : Within [.regs, .hostMem, .host] c d := .of_snd heq (within_ringRecord ..).mono
    exact hd
  · rename_i d heq
    have hd : Within [.regs, .hostMem, .host] c d := .of_snd heq (within_ringRecord ..).mono
    exact (hd.andThen (within_bump ..)).andThen (within_raise ..)

theorem within_updPkt (c : Chip) (pid : Nat) (f : Pkt → Pkt) : Within [.pkts] c (c.updPkt pid f) := by
  unfold Chip.updPkt
  split
  · exact (within_setPkt ..).mono
  · exact .refl _ _

theorem within_endStrip (c : Chip) (pid outcome reason : Nat) :
    Within [.regs, .hostMem, .pkts, .host] c (c.endStrip pid outcome reason) := by
  unfold Chip.endStrip
  split
  · exact .refl _ _
  · split
    · exact .refl _ _
    · extract_lets c1
      have hc1 : Within [.regs, .hostMem, .pkts, .host] c c1 := .ite (.refl _ _) (within_stripOut ..).mono
      exact hc1.andThen (within_updPkt ..)

theorem within_statPkt (c : Chip) (pid slot : Nat) : Within [.regs] c (c.statPkt pid slot) := by
  unfold Chip.statPkt
  split
  · exact .ite (within_stat ..).mono (.refl _ _)
  · exact .refl _ _

theorem within_dropOther (c : Chip) (pid code : Nat) :
    Within [.regs, .hostMem, .pkts, .pattern, .tm, .tel, .host] c (c.dropOther pid code) := by
  unfold Chip.dropOther
  exact ((within_statPkt ..).mono.andThen (within_endStrip ..)).andThen (within_endPkt ..)

theorem within_dropVerdict (c : Chip) (pid : Nat) :
    Within [.regs, .hostMem, .pkts, .pattern, .tm, .tel, .host] c (c.dropVerdict pid) := by
  unfold Chip.dropVerdict
  exact ((within_statPkt ..).mono.andThen (within_endStrip ..)).andThen (within_endPkt ..)

theorem within_tmDrop (c : Chip) (code : Nat) : Within [.regs] c (c.tmDrop code) := by
  unfold Chip.tmDrop
  exact (within_bumpQ ..).mono

theorem within_dropTm (c : Chip) (pid code : Nat) :
    Within [.regs, .hostMem, .pkts, .pattern, .tm, .tel, .host] c (c.dropTm pid code) := by
  unfold Chip.dropTm
  exact (within_tmDrop ..).mono.andThen (within_dropOther ..)

theorem within_stampStrip (c : Chip) (pid stage : Nat) : Within [.pkts] c (c.stampStrip pid stage) := by
  unfold Chip.stampStrip
  exact (within_updPkt ..).mono

theorem within_goOn (c : Chip) (pid : Nat) : Within [.regs, .hostMem, .pkts, .pattern, .tm, .tel, .host] c (c.goOn pid) := by
  unfold Chip.goOn
  split
  · exact .refl _ _
  · exact .ite (within_setPkt ..).mono (.ite (.ite (within_dropTm ..).mono
      (.ite ((within_setPkt ..).mono.andThen (within_stampStrip ..)) (within_setPkt ..).mono)) (within_setPkt ..).mono)

theorem within_cpTake (c : Chip) (r : Nat) : Within [.sfl] c (c.cpTake r).2 := by
  unfold Chip.cpTake
  extract_lets rate burst used ok
  split
  · exact .snd_mk (.refl _ _)
  · split
    · exact .snd_mk (.refl _ _)
    · exact .snd_mk ((Within.refl _ _).sfl _)

theorem within_sflEvent (c : Chip) (f : Fld) : Within [.regs, .hostMem, .host] c (c.sflEvent f) := by
  unfold Chip.sflEvent
  exact (within_raise ..).mono

theorem within_cpPolice (c : Chip) (r : Nat) : Within [.regs, .hostMem, .sfl, .host] c (c.cpPolice r).2 := by
  unfold Chip.cpPolice
  split
  · rename_i d heq
    have hd : Within [.regs, .hostMem, .sfl, .host] c d := .of_snd heq (within_cpTake ..).mono
    exact .snd_mk hd
  · rename_i d heq
    have hd : Within [.regs, .hostMem, .sfl, .host] c d := .of_snd heq (within_cpTake ..).mono
    exact .snd_mk ((hd.andThen (within_bump ..)).andThen (within_sflEvent ..))

theorem within_fillBufs (c : Chip) (n : Nat) (first : Bool) (ts : List Nat) (bs : Bytes) :
    Within [.regs, .hostMem, .host] c (c.fillBufs n first ts bs) := by
  induction ts generalizing c first bs with
  | nil => exact .refl _ _
  | cons t ts ih => exact ((within_hostWrite ..).mono.andThen (within_complete ..)).andThen (ih ..)

theorem within_ringPacket (c : Chip) (n : Nat) (bs : Bytes) : Within [.regs, .hostMem, .host] c (c.ringPacket n bs).2 := by
  unfold Chip.ringPacket
  split
  · exact .snd_mk (within_bump ..).mono
  · split
    · exact .snd_mk (within_fillBufs ..).mono
    · exact .snd_mk (within_bump ..).mono

theorem within_puntData (c : Chip) (p : Pkt) (reason : Nat) :
    Within [.regs, .hostMem, .sfl, .host] c (c.puntData p reason).2 := by
  unfold Chip.puntData
  split
  · exact .snd_mk (within_bump ..).mono
  · split
    · rename_i d heq
      have hd : Within [.regs, .hostMem, .sfl, .host] c d := .of_snd heq (within_cpPolice ..).mono
      exact .snd_mk (hd.andThen (within_bump ..))
    · rename_i d heq
      have hd : Within [.regs, .hostMem, .sfl, .host] c d := .of_snd heq (within_cpPolice ..).mono
      extract_lets x n
      split
      · rename_i d1 heq1
        have hd1 : Within [.regs, .hostMem, .sfl, .host] c d1 := .of_snd heq1 (hd.andThen (within_ringPacket ..))
        exact .snd_mk hd1
      · rename_i d1 heq1
        have hd1 : Within [.regs, .hostMem, .sfl, .host] c d1 := .of_snd heq1 (hd.andThen (within_ringPacket ..))
        exact .snd_mk (hd1.andThen (within_bump ..))

theorem within_punt (c : Chip) (pid reason : Nat) :
    Within [.regs, .hostMem, .sfl, .pkts, .pattern, .tm, .tel, .host] c (c.punt pid reason) := by
  unfold Chip.punt
  split
  · exact .refl _ _
  · exact .ite ((within_unpark ..).mono.andThen (within_updPkt ..))
      ((((within_statPkt ..).mono.andThen (within_puntData ..)).andThen (within_endStrip ..)).andThen (within_endPkt ..))

theorem within_deliver (c : Chip) (pid : Nat) (r0 : Bytes) (dev : Nat) :
    Within [.regs, .hostMem, .sfl, .pkts, .pattern, .tm, .tel, .host] c (c.deliver pid r0 dev) := by
  unfold Chip.deliver
  split
  · exact .refl _ _
  · refine .ite ?_ ?_
    · exact .refl _ _
    · extract_lets t e g m grp down lb lbMiss lbAct r c1 c2 c3
      have hc1 : Within [.regs, .hostMem, .sfl, .pkts, .pattern, .tm, .tel, .host] c c1 :=
        .ite ((within_bump ..).mono.andThen (within_signal ..)) (.refl _ _)
      have hc2 : Within [.regs, .hostMem, .sfl, .pkts, .pattern, .tm, .tel, .host] c c2 :=
        (hc1.andThen (within_unpark ..)).andThen (within_stampStrip ..)
      have hc3 : Within [.regs, .hostMem, .sfl, .pkts, .pattern, .tm, .tel, .host] c c3 := hc2.andThen (within_updPkt ..)
      refine .ite ?_ ?_
      · exact hc3.andThen (within_dropOther ..)
      · refine .ite ?_ ?_
        · exact (hc3.andThen (within_bumpQ ..)).andThen (within_dropVerdict ..)
        · split
          · exact hc3.andThen (within_dropVerdict ..)
          · exact hc3.andThen (within_punt ..)
          · exact hc3.andThen (within_goOn ..)

theorem within_rresOut (c : Chip) (o : FOp) (r : Bytes) : Within [.regs, .ports, .gang] c (c.rresOut o r) := by
  unfold Chip.rresOut
  split
  · exact (within_gangOut ..).mono
  · exact .refl _ _

theorem within_drainResults (c : Chip) :
    Within [.regs, .hostMem, .sfl, .ports, .pkts, .pattern, .tm, .tel, .host, .flow, .gang] c c.drainResults := by
  unfold Chip.drainResults
  extract_lets l
  exact .foldl (within_onFlow ..).mono fun _ _ => (.ite (within_rresOut ..).mono (within_deliver ..).mono)

theorem within_ctrlOut (c : Chip) (port dev sub : Nat) (x : Bytes) :
    Within [.regs, .ports, .gang] c (c.ctrlOut port dev sub x) := by
  unfold Chip.ctrlOut
  exact (within_gangOut ..).mono

theorem within_ctrlAll (c : Chip) (dev sub : Nat) (x : Bytes) : Within [.regs, .ports, .gang] c (c.ctrlAll dev sub x) := by
  unfold Chip.ctrlAll
  exact .foldl (.refl _ _) fun _ _ => (within_ctrlOut ..).mono

theorem within_returnQueue (c : Chip) (q : Nat) (b : Binding) : Within [.regs, .tm] c (c.returnQueue q b) := by
  unfold Chip.returnQueue
  extract_lets _ c1
  have hc1 : Within [.regs, .tm] c c1 := (Within.refl _ _).tm _
  exact ((hc1.andThen (within_putF ..)).andThen (within_putF ..)).andThen (within_putF ..)

theorem within_settleBindings (c : Chip) : Within [.regs, .tm] c c.settleBindings := by
  unfold Chip.settleBindings
  extract_lets c1 ms _ c2
  have hc1 : Within [.regs, .tm] c c1 := .foldl (.refl _ _) fun _ _ => (.ite ((Within.refl _ _).tm _) (.refl _ _))
  have hc2 : Within [.regs, .tm] c c2 := hc1.tm _
  exact .foldl hc2 fun _ _ => (.ite (within_returnQueue ..).mono (.refl _ _))

theorem within_unbind (c : Chip) (dev h : Nat) : Within [.regs, .tm] c (c.unbind dev h) := by
  unfold Chip.unbind
  split
  · exact .refl _ _
  · exact .ite (.refl _ _) (((Within.refl _ _).tm _).andThen (within_settleBindings ..))

theorem within_unbindOut (c : Chip) (h : Nat) : Within [.regs, .ports, .tm, .gang] c (c.unbindOut h) := by
  unfold Chip.unbindOut
  extract_lets c1
  have hc1 : Within [.regs, .ports, .tm, .gang] c c1 := (within_unbind ..).mono
  exact .ite hc1 (.foldl hc1 fun _ _ => (within_ctrlAll ..).mono)

theorem within_drainUnbinds (c : Chip) : Within [.regs, .ports, .tm, .flow, .gang] c c.drainUnbinds := by
  unfold Chip.drainUnbinds
  extract_lets l
  exact .foldl (within_onFlow ..).mono fun _ _ => (within_unbindOut ..).mono

theorem within_onGang (c : Chip) (f : GangSt → GangSt) : Within [.gang] c (c.onGang f) := by
  unfold Chip.onGang
  exact (Within.refl _ _).gang _

theorem within_ctrlTo (c : Chip) (dev sub : Nat) (x : Bytes) : Within [.regs, .ports, .gang] c (c.ctrlTo dev sub x) := by
  unfold Chip.ctrlTo
  split
  · exact .refl _ _
  · exact (within_ctrlOut ..).mono

theorem within_tryCommitMap (c : Chip) : Within [.regs, .ports, .gang] c c.tryCommitMap := by
  unfold Chip.tryCommitMap
  split
  · exact .refl _ _
  · exact .ite (.refl _ _) ((Within.foldl (.refl _ _) fun _ _ => (within_ctrlTo ..).mono).andThen (within_onGang ..))

theorem within_readyFrom (c : Chip) (d : Nat) : Within [.regs, .ports, .gang] c (c.readyFrom d) := by
  unfold Chip.readyFrom
  exact (within_onGang ..).mono.andThen (within_tryCommitMap ..)

theorem within_migrate (c : Chip) (x : GChange) : Within [.regs, .ports, .gang] c (c.migrate x) := by
  unfold Chip.migrate
  extract_lets give c1 c2
  have hc1 : Within [.regs, .ports, .gang] c c1 := (within_onGang ..).mono
  have hc2 : Within [.regs, .ports, .gang] c c2 := .foldl hc1 fun _ _ => (.ite (within_replOut ..).mono (.refl _ _))
  exact .ite (.refl _ _) (.ite (hc2.andThen (within_readyFrom ..)) (hc2.andThen (within_ctrlTo ..)))

theorem within_beginChange (c : Chip) (x : GChange) : Within [.regs, .ports, .gang] c (c.beginChange x) := by
  unfold Chip.beginChange
  extract_lets c1
  have hc1 : Within [.regs, .ports, .gang] c c1 := (within_onGang ..).mono
  exact (Within.ite (hc1.andThen (within_putF ..)) hc1).andThen (within_migrate ..)

theorem within_runChange (c : Chip) (join loss : Bool) (d : Nat) (m : List Nat) :
    Within [.regs, .ports, .gang] c (c.runChange join loss d m) := by
  unfold Chip.runChange
  extract_lets old givers x body c1
  have hc1 : Within [.regs, .ports, .gang] c c1 := .foldl (.refl _ _) fun _ _ => (within_gangOut ..).mono
  exact (hc1.andThen (within_beginChange ..)).andThen (within_tryCommitMap ..)

theorem within_runLeave (c : Chip) (loss : Bool) (d : Nat) : Within [.regs, .ports, .gang] c (c.runLeave loss d) := by
  unfold Chip.runLeave
  exact (within_runChange ..).mono

theorem within_nextLoss (c : Chip) : Within [.regs, .ports, .gang] c c.nextLoss := by
  unfold Chip.nextLoss
  split
  · exact .refl _ _
  · exact .ite (.refl _ _) (.ite ((within_onGang ..).mono.andThen (within_runLeave ..)) (within_onGang ..).mono)

theorem within_cleanFrom (c : Chip) (d : Nat) : Within [.regs, .ports, .gang] c (c.cleanFrom d) := by
  unfold Chip.cleanFrom
  exact (within_onGang ..).mono.andThen (within_nextLoss ..)

theorem within_dramWrite (c : Chip) (a : Nat) (bs : Bytes) : Within [.dram] c (c.dramWrite a bs) := by
  unfold Chip.dramWrite
  exact (Within.refl _ _).dram memWrite_wf

theorem within_clearTag (c : Chip) (e b j : Nat) : Within [.dram] c (c.clearTag e b j) := by
  unfold Chip.clearTag
  exact (within_dramWrite ..).mono

theorem within_setEng (c : Chip) (e : Nat) (x : EngSt) : Within [.flow] c (c.setEng e x) := by
  unfold Chip.setEng
  exact (Within.refl _ _).flow _

theorem within_setWay (c : Chip) (e i : Nat) (w : Way) : Within [.flow] c (c.setWay e i w) := by
  unfold Chip.setWay
  exact (within_setEng ..).mono

theorem within_emptyWay (c : Chip) (e i : Nat) : Within [.flow] c (c.emptyWay e i) := by
  unfold Chip.emptyWay
  exact (within_setWay ..).mono

theorem within_cleanUp (c : Chip) : Within [.regs, .dram, .ports, .flow, .gang] c c.cleanUp := by
  unfold Chip.cleanUp
  extract_lets gone c1 c2
  have hc1 : Within [.regs, .dram, .ports, .flow, .gang] c c1 := by
    unfold c1
    refine .foldl ?_ fun d x => ?_
    · exact .refl _ _
    · extract_lets r
      refine .ite ?_ ?_
      · refine .andThen ?_ (within_clearTag ..)
        split
        · exact (within_emptyWay ..).mono
        · exact .refl _ _
      · exact .refl _ _
  have hc2 : Within [.regs, .dram, .ports, .flow, .gang] c c2 := hc1.andThen (within_onGang ..)
  exact .ite (hc2.andThen (within_cleanFrom ..)) (hc2.andThen (within_ctrlTo ..))

theorem within_finalCheck (c : Chip) : Within [.regs, .dram, .ports, .flow, .gang] c c.finalCheck := by
  unfold Chip.finalCheck
  extract_lets done c1 c2
  have hc1 : Within [.regs, .dram, .ports, .flow, .gang] c c1 := .foldl (.refl _ _) fun _ _ => (within_ctrlTo ..).mono
  have hc2 : Within [.regs, .dram, .ports, .flow, .gang] c c2 := hc1.andThen (within_onGang ..)
  exact .ite (.refl _ _) (.ite (hc2.andThen (within_cleanUp ..)) hc2)

theorem within_sendResult (c : Chip) (o : FOp) (r : Bytes) : Within [.flow] c (c.sendResult o r) := by
  unfold Chip.sendResult
  exact (within_onFlow ..).mono

theorem within_fallback (c : Chip) (e : Nat) (o : FOp) (status : Nat) : Within [.regs, .flow] c (c.fallback e o status) := by
  unfold Chip.fallback
  extract_lets t
  split
  · exact (within_sendResult ..).mono
  · exact ((within_bump ..).mono.andThen (within_signal ..)).andThen (within_sendResult ..)
  · exact ((within_bump ..).mono.andThen (within_signal ..)).andThen (within_sendResult ..)
  · exact (within_bumpQ ..).mono.andThen (within_sendResult ..)

theorem within_onEng (c : Chip) (e : Nat) (f : EngSt → EngSt) : Within [.flow] c (c.onEng e f) := by
  unfold Chip.onEng
  exact (within_setEng ..).mono

theorem within_leave (c : Chip) (e : Nat) (o : FOp) : Within [.flow] c (c.leave e o) := by
  unfold Chip.leave
  exact (within_onEng ..).mono

theorem within_park {c d : Chip} {pid : Nat} (h : c.park pid = some d) : Within [.pkts, .tm] c d := by
  unfold Chip.park at h
  split at h
  · cases h
  · dsimp only at h
    split at h
    · cases h
    · obtain ⟨t, -, rfl⟩ := Option.map_eq_some_iff.mp h
      exact ((Within.refl _ _).tm _).andThen (within_setPkt ..)

theorem within_tagOps (c : Chip) (e pid tag : Nat) : Within [.flow] c (c.tagOps e pid tag) := by
  unfold Chip.tagOps
  extract_lets f
  exact (within_onEng ..).mono

theorem within_parkOp (c : Chip) (e : Nat) (o : FOp) : Within [.regs, .pkts, .tm, .flow] c (c.parkOp e o) := by
  unfold Chip.parkOp
  split
  · exact .refl _ _
  · refine .ite (.refl _ _) ?_
    split
    · next heq => exact ((within_park heq).mono.andThen (within_stampStrip ..)).andThen (within_tagOps ..)
    · exact (within_leave ..).mono.andThen (within_fallback ..)

theorem within_parkAll (c : Chip) : Within [.regs, .pkts, .tm, .flow] c c.parkAll := by
  unfold Chip.parkAll
  exact .foldl (.refl _ _) fun _ _ => (.foldl (.refl _ _) fun _ _ => (within_parkOp ..).mono)

theorem within_flush (c : Chip) :
    Within [.regs, .dram, .hostMem, .sfl, .ports, .pkts, .pattern, .tm, .tel, .host, .flow, .gang, .act, .wds] c c.flush := by
  unfold Chip.flush
  exact (((((((((within_drainResults ..).mono.andThen (within_drainAnswers ..)).andThen (within_drainOffers ..)).andThen
    (within_drainExports ..)).andThen (within_drainUnbinds ..)).andThen (within_drainRepl ..)).andThen
      (within_parkAll ..)).andThen (within_drainResults ..)).andThen (within_finalCheck ..)).andThen (within_settleBindings ..)

theorem within_abandon (c : Chip) (e : CEnt) : Within [.flow, .act] c (c.abandon e) := by
  unfold Chip.abandon
  extract_lets k ok _ c1 c2 c3
  have hc1 : Within [.flow, .act] c c1 := (Within.refl _ _).act _
  have hc2 : Within [.flow, .act] c c2 := hc1.andThen (within_onFlow ..)
  have hc3 : Within [.flow, .act] c c3 := .ite (hc2.andThen (within_leave ..)) hc2
  exact .ite (hc3.act _) hc3

theorem within_dropEntry (c : Chip) (x : Nat) (v : Machine.Ctx) (e : CEnt) :
    Within [.regs, .ports, .flow, .gang, .act] c (c.dropEntry x v e) := by
  unfold Chip.dropEntry
  exact .ite (.refl _ _) (.ite (within_gangOut ..).mono (.ite (within_abandon ..).mono ((Within.refl _ _).act _)))

theorem within_giveSlot (c : Chip) (q : Nat) (shared att : Bool) : Within [.regs] c (c.giveSlot q shared att) := by
  unfold Chip.giveSlot
  extract_lets c1 c2
  have hc1 : Within [.regs] c c1 := (within_sink ..).mono.andThen (within_sink ..)
  have hc2 : Within [.regs] c c2 := .ite (hc1.andThen (within_bump ..)) hc1
  exact .ite (hc2.andThen (within_bump ..)) hc2

theorem within_setCtx (c : Chip) (x : Nat) (v : Machine.Ctx) : Within [.act] c (c.setCtx x v) := by
  unfold Chip.setCtx
  exact (Within.refl _ _).act _

theorem within_onCtx (c : Chip) (x : Nat) (f : Machine.Ctx → Machine.Ctx) : Within [.act] c (c.onCtx x f) := by
  unfold Chip.onCtx
  exact (within_setCtx ..).mono

theorem within_dropSet (c : Chip) (x : Nat) : Within [.regs, .ports, .flow, .gang, .act] c (c.dropSet x) := by
  unfold Chip.dropSet
  extract_lets v c1 c2 _ c3
  have hc1 : Within [.regs, .ports, .flow, .gang, .act] c c1 := .foldl (.refl _ _) fun _ _ => (within_dropEntry ..).mono
  have hc2 : Within [.regs, .ports, .flow, .gang, .act] c c2 := .foldl hc1 fun _ _ => (within_giveSlot ..).mono
  have hc3 : Within [.regs, .ports, .flow, .gang, .act] c c3 := hc2.act _
  exact hc3.andThen (within_onCtx ..)

theorem within_heldCheck (c : Chip) (k : Nat) : Within [.regs, .hostMem, .host] c (c.heldCheck k) := by
  unfold Chip.heldCheck
  exact .ite ((within_putF ..).mono.andThen (within_raise ..)) (.refl _ _)

/-- The counts of an ended routine (R321). -/
theorem within_endCounts (c : Chip) (st k : Nat) : Within [.regs, .hostMem, .host] c (match st with
    | 0 => (c.bumpQ 48 F.ACT_CNT_COMMIT.V k).signal 5 k 65
    | 1 => (c.bumpQ 48 F.ACT_CNT_ABORT.V k).signal 5 k 66
    | 2 => ((c.bumpQ 48 F.ACT_CNT_BUDGET.V k).signal 5 k 66).raise F.ACT_CL_EVENTS.BUDGET k
    | 3 => ((c.bumpQ 48 F.ACT_CNT_TIMEOUT.V k).signal 5 k 66).raise F.ACT_CL_EVENTS.TIMEOUT k
    | _ => ((c.bumpQ 48 F.ACT_CNT_REFUSED.V k).signal 5 k 66).raise F.ACT_CL_EVENTS.REFUSED k) := by
  have hcount (f g : Fld) : Within [.regs, .hostMem, .host] c (((c.bumpQ 48 f k).signal 5 k 66).raise g k) :=
    ((within_bumpQ ..).mono.andThen (within_signal ..)).andThen (within_raise ..)
  split
  · exact (within_bumpQ ..).mono.andThen (within_signal ..)
  · exact (within_bumpQ ..).mono.andThen (within_signal ..)
  · exact hcount _ _
  · exact hcount _ _
  · exact hcount _ _

theorem within_endCtx (c : Chip) (x st code : Nat) :
    Within [.regs, .hostMem, .ports, .tel, .host, .flow, .gang, .act] c (c.endCtx x st code) := by
  unfold Chip.endCtx
  extract_lets v k c1 c2 c3 c4 c5 c6 c7
  have hc1 : Within [.regs, .hostMem, .ports, .tel, .host, .flow, .gang, .act] c c1 := by
    unfold c1
    split
    · exact .ite (within_abandon ..).mono (.refl _ _)
    · exact .refl _ _
  have hc3 : Within [.regs, .hostMem, .ports, .tel, .host, .flow, .gang, .act] c c3 :=
    (hc1.andThen (within_dropSet ..)).andThen (within_onCtx ..)
  have hc5 : Within [.regs, .hostMem, .ports, .tel, .host, .flow, .gang, .act] c c5 :=
    ((hc3.andThen (within_putF ..)).andThen (within_putF ..)).andThen (within_putF ..)
  have hc6 : Within [.regs, .hostMem, .ports, .tel, .host, .flow, .gang, .act] c c6 :=
    .ite hc3 ((hc5.andThen (within_putF ..)).andThen (within_putF ..))
  exact .ite (.refl _ _) (((hc6.andThen (within_endCounts ..)).andThen (within_condEv ..)).andThen (within_heldCheck ..))

theorem within_followWord (c : Chip) (x pc : Nat) : Within [.tel] c (c.followWord x pc) := by
  unfold Chip.followWord
  split
  · exact .refl _ _
  · exact .ite (.refl _ _) ((Within.refl _ _).tel _)

theorem within_issue (c : Chip) (x : Nat) :
    Within [.regs, .hostMem, .ports, .tel, .host, .flow, .gang, .act] c (c.issue x).1 := by
  unfold Chip.issue
  extract_lets v c1 c2 n
  have hc1 : Within [.regs, .hostMem, .ports, .tel, .host, .flow, .gang, .act] c c1 := (within_setCtx ..).mono
  have hc2 : Within [.regs, .hostMem, .ports, .tel, .host, .flow, .gang, .act] c c2 :=
    (hc1.andThen (within_bumpQ ..)).andThen (within_followWord ..)
  split
  · exact .fst_mk (.refl _ _)
  · split
    · exact .fst_mk (within_endCtx ..).mono
    · exact .fst_mk (.ite hc2 (hc2.andThen (within_signal ..)))

theorem within_reserve (c : Chip) (x n : Nat) : Within [.regs, .act] c (c.reserve x n) := by
  induction n generalizing c with
  | zero => exact .refl _ _
  | succ n ih =>
    unfold Chip.reserve
    extract_lets v d a
    split
    · have hd : Within [.regs, .act] c d := (within_setCtx ..).mono
      exact hd.act _
    · refine .ite (.refl _ _) ?_
      split
      next heq =>
      have htaken := Within.of_snd heq (within_takeSlot ..)
      exact htaken.mono.andThen ((within_onCtx ..).mono.andThen (ih ..) : Within [.regs, .act] _ _)

theorem within_setEnt (c : Chip) (x : Nat) (e e2 : CEnt) : Within [.act] c (c.setEnt x e e2) := by
  unfold Chip.setEnt
  exact (within_onCtx ..).mono

theorem within_sendPrep (c : Chip) (x : Nat) (e : CEnt) :
    Within [.regs, .hostMem, .ports, .tel, .host, .flow, .gang, .act] c (c.sendPrep x e) := by
  unfold Chip.sendPrep
  extract_lets v
  split
  · exact (within_endCtx ..).mono
  · refine .ite ?_ ?_
    · exact .ite (within_endCtx ..).mono ((within_setEnt ..).mono.act _)
    · split
      · exact (within_endCtx ..).mono
      · extract_lets c1
        have hc1 : Within [.regs, .hostMem, .ports, .tel, .host, .flow, .gang, .act] c c1 := (within_setEnt ..).mono
        exact (hc1.andThen (within_onCtx ..)).andThen (within_gangOut ..)

theorem within_nextPrep (c : Chip) (x : Nat) :
    Within [.regs, .hostMem, .ports, .tel, .host, .flow, .gang, .act] c (c.nextPrep x) := by
  unfold Chip.nextPrep
  split
  · exact (within_sendPrep ..).mono
  · exact (within_onCtx ..).mono.andThen (within_reserve ..)

theorem within_startCommit (c : Chip) (x tgt : Nat) :
    Within [.regs, .hostMem, .ports, .tel, .host, .flow, .gang, .act] c (c.startCommit x tgt) := by
  unfold Chip.startCommit
  extract_lets v
  exact .ite (within_endCtx ..).mono ((within_setCtx ..).mono.andThen (within_nextPrep ..))

theorem within_useFree (c : Chip) : Within [.freeCtr] c c.useFree := by
  unfold Chip.useFree
  exact (Within.refl _ _).freeCtr _

theorem within_wordEcc (c : Chip) (x ecc : Nat) :
    Within [.regs, .hostMem, .ports, .tel, .host, .flow, .gang, .act] c (c.wordEcc x ecc).1 := by
  unfold Chip.wordEcc
  split
  · exact .fst_mk (.refl _ _)
  · exact .fst_mk ((within_bumpQ ..).mono.andThen (within_raise ..))
  · exact .fst_mk ((within_raise ..).mono.andThen (within_endCtx ..))
  · exact .fst_mk ((within_raise ..).mono.andThen (within_endCtx ..))

theorem within_sequence (c : Chip) (x nxt ecc : Nat) (k : Machine.Ctx → Mw → Go) :
    Within [.regs, .hostMem, .freeCtr, .ports, .tel, .host, .flow, .gang, .act] c (c.sequence x nxt ecc k) := by
  unfold Chip.sequence
  extract_lets v w
  refine .ite ?_ ?_
  · exact .refl _ _
  · split
    · rename_i d heq
      have hd : Within [.regs, .hostMem, .freeCtr, .ports, .tel, .host, .flow, .gang, .act] c d :=
        .of_fst heq (within_issue ..).mono
      exact hd
    · rename_i d heq
      have hd : Within [.regs, .hostMem, .freeCtr, .ports, .tel, .host, .flow, .gang, .act] c d :=
        .of_fst heq (within_issue ..).mono
      split
      · rename_i d1 heq1
        have hd1 : Within [.regs, .hostMem, .freeCtr, .ports, .tel, .host, .flow, .gang, .act] c d1 :=
          .of_fst heq1 (hd.andThen (within_wordEcc ..))
        exact hd1
      · rename_i d1 heq1
        have hd1 : Within [.regs, .hostMem, .freeCtr, .ports, .tel, .host, .flow, .gang, .act] c d1 :=
          .of_fst heq1 (hd.andThen (within_wordEcc ..))
        split
        · exact hd1
        · refine .ite ?_ ?_
          · exact hd1
          · extract_lets v1 c1
            have hc1 : Within [.regs, .hostMem, .freeCtr, .ports, .tel, .host, .flow, .gang, .act] c c1 :=
              .ite (hd1.andThen (within_useFree ..)) hd1
            split
            · exact hc1.andThen (within_setCtx ..)
            · exact (hc1.andThen (within_setCtx ..)).andThen (within_endCtx ..)
            · split
              · exact hd1
              · exact (hc1.andThen (within_setCtx ..)).andThen (within_endCtx ..)
              · exact (hc1.andThen (within_setCtx ..)).andThen (within_startCommit ..)

theorem within_missFb (c : Chip) (pid : Nat) (o : FOp) :
    Within [.regs, .hostMem, .sfl, .pkts, .pattern, .tm, .tel, .host] c (c.missFb pid o) := by
  unfold Chip.missFb
  exact (within_deliver ..).mono

theorem within_sendMigr (c : Chip) (r : Bytes) (del : Bool) : Within [.flow] c (c.sendMigr r del) := by
  unfold Chip.sendMigr
  exact .ite (within_onFlow ..).mono (.refl _ _)

theorem within_sendRepl (c : Chip) (r : Bytes) (del : Bool) : Within [.flow] c (c.sendRepl r del) := by
  unfold Chip.sendRepl
  exact .ite (within_onFlow ..).mono (.refl _ _)

theorem within_sendUnbind (c : Chip) (old : Bytes) : Within [.flow] c (c.sendUnbind old) := by
  unfold Chip.sendUnbind
  exact .ite (within_onFlow ..).mono (.refl _ _)

theorem within_recGone (c : Chip) (r : Bytes) (cause : Nat) : Within [.flow] c (c.recGone r cause) := by
  unfold Chip.recGone
  extract_lets c1
  have hc1 : Within [.flow] c c1 := ((within_sendUnbind ..).mono.andThen (within_sendRepl ..)).andThen (within_sendMigr ..)
  exact .ite hc1 (hc1.andThen (within_onFlow ..))

theorem within_sendOffer (c : Chip) (e cls : Nat) (item att : Bytes) : Within [.flow] c (c.sendOffer e cls item att) := by
  unfold Chip.sendOffer
  exact .ite (.refl _ _) (within_onFlow ..).mono

theorem within_evictSlot (c : Chip) (e tmpl : Nat) (b j : Nat) : Within [.regs, .dram, .flow] c (c.evictSlot e tmpl b j) := by
  unfold Chip.evictSlot
  extract_lets r c1 c2 c3
  have hc1 : Within [.regs, .dram, .flow] c c1 := (within_sendOffer ..).mono
  have hc2 : Within [.regs, .dram, .flow] c c2 := by
    unfold c2
    split
    · exact hc1.andThen (within_emptyWay ..)
    · exact hc1
  have hc3 : Within [.regs, .dram, .flow] c c3 :=
    ((hc2.andThen (within_clearTag ..)).andThen (within_recGone ..)).andThen (within_bumpQ ..)
  exact (hc3.andThen (within_bump ..)).andThen (within_signal ..)

theorem within_storeRec (c : Chip) (e b j : Nat) (r : Bytes) : Within [.dram] c (c.storeRec e b j r) := by
  unfold Chip.storeRec
  extract_lets c1 t
  have hc1 : Within [.dram] c c1 := (within_dramWrite ..).mono
  exact .ite hc1 (hc1.andThen (within_dramWrite ..))

theorem within_applyCreate (c : Chip) (e : Nat) (p : FPrep) (r : Bytes) :
    Within [.regs, .dram, .flow] c (c.applyCreate e p r) := by
  unfold Chip.applyCreate
  extract_lets c1 c2 w c3 c4
  have hc1 : Within [.regs, .dram, .flow] c c1 := .ite (within_evictSlot ..).mono (.refl _ _)
  have hc2 : Within [.regs, .dram, .flow] c c2 := hc1.andThen (within_onEng ..)
  have hc3 : Within [.regs, .dram, .flow] c c3 :=
    ((hc2.andThen (within_storeRec ..)).andThen (within_setWay ..)).andThen (within_sendRepl ..)
  have hc4 : Within [.regs, .dram, .flow] c c4 := hc3.andThen (within_sendMigr ..)
  exact hc4.andThen (within_bump ..)

end Sys2Proof.Proofs
end

section
/-!
One lemma `within_<f>` for each function `f` of the model, in the order in which they use each other (2 of 6).
-/
namespace Sys2Proof.Proofs
open Sys2Proof Sys2Proof.Machine

-- Each default `by decide` of a helper waits for the kernel: one proof at a time bounds the threads that wait.
set_option Elab.async false

theorem within_notify (c : Chip) (e : Nat) (o : FOp) (fired value : Nat) : Within [.flow] c (c.notify e o fired value) := by
  unfold Chip.notify
  exact .ite (.refl _ _) (within_sendOffer ..).mono

theorem within_recChanged (c : Chip) (old new : Bytes) : Within [.flow] c (c.recChanged old new) := by
  unfold Chip.recChanged
  extract_lets c1 c2
  have hc1 : Within [.flow] c c1 := (within_sendMigr ..).mono
  have hc2 : Within [.flow] c c2 := .ite hc1 (hc1.andThen (within_sendUnbind ..))
  exact .ite (hc2.andThen (within_sendRepl ..)) hc2

/-- A packet that its meter has measured (R263), the meter's step taken as any function. -/
theorem within_metered (c : Chip) (e m : Nat) (o : FOp) (step : Bytes → Nat → Nat → Bytes × Nat) :
    Within [.regs, .flow] c (have k := 4096 * e + m
      match step (smGet (fun _ => zerosB 48) c.flow.meters k) o.flen c.mt32 with
      | (x, col) =>
        let acts := byteAt x 16
        (col, if col = 1 then bitsOf 1 0 acts else if col = 2 then bitsOf 3 2 acts else 0,
          { c with flow := { c.flow with meters := smSet (fun _ => zerosB 48) c.flow.meters k x } })).2.2 :=
  (Within.refl _ _).flow _

theorem within_meterOf (c : Chip) (e : Nat) (o : FOp) (r : Bytes) : Within [.regs, .flow] c (c.meterOf e o r).2.2 := by
  unfold Chip.meterOf
  generalize meterStep = step, beAt r 54 2 = m
  refine .iteSnd (.refl _ _) (.iteSnd (within_bump ..).mono ?_)
  exact within_metered c e m o step

theorem within_runSteps (c : Chip) (e : Nat) (o : FOp) (r : Bytes) : Within [.regs, .flow] c (c.runSteps e o r).2 := by
  unfold Chip.runSteps
  extract_lets t r1 r2 r3
  split
  next r4 v bad _ =>
  extract_lets c1 r5 r6
  have hc1 : Within [.regs, .flow] c c1 := .ite (within_bump ..).mono (.refl _ _)
  split
  next heq => exact .of_snd_snd heq (by
    split
    · exact hc1.andThen (within_meterOf ..)
    · exact hc1)

theorem within_applyPrep (c : Chip) (e : Nat) (p : FPrep) : Within [.regs, .dram, .flow] c (c.applyPrep e p) := by
  unfold Chip.applyPrep
  extract_lets o w gone r
  refine .ite ?_ ?_
  · exact (((within_onEng ..).mono.andThen (within_clearTag ..)).andThen (within_emptyWay ..)).andThen (within_recGone ..)
  · refine .ite ?_ ?_
    · exact ((within_onEng ..).mono.andThen (within_setWay ..)).andThen (within_recChanged ..)
    · split
      · exact (within_applyCreate ..).mono
      · extract_lets r1
        split
        · rename_i d heq
          have hd : Within [.regs, .dram, .flow] c d := .of_snd heq (within_runSteps ..).mono
          extract_lets c1 c2 c3
          have hc1 : Within [.regs, .dram, .flow] c c1 := hd.andThen (within_applyCreate ..)
          have hc2 : Within [.regs, .dram, .flow] c c2 := hc1.andThen (within_notify ..)
          have hc3 : Within [.regs, .dram, .flow] c c3 := hc2.andThen (within_onEng ..)
          refine .ite ?_ ?_
          · exact hc3
          · split
            · exact (hc3.andThen (within_onEng ..)).andThen (within_sendResult ..)
            · exact hc3

theorem within_dropPrep (c : Chip) (e : Nat) (p : FPrep) : Within [.flow] c (c.dropPrep e p) := by
  unfold Chip.dropPrep
  extract_lets c1
  have hc1 : Within [.flow] c c1 := (within_onEng ..).mono
  exact .ite (hc1.andThen (within_emptyWay ..)) (hc1.andThen (within_setWay ..))

theorem within_removePrep (c : Chip) (e : Nat) (p : FPrep) : Within [.regs, .dram, .flow] c (c.removePrep e p) := by
  unfold Chip.removePrep
  extract_lets c1 w c2
  have hc1 : Within [.regs, .dram, .flow] c c1 := (within_bump ..).mono
  have hc2 : Within [.regs, .dram, .flow] c c2 := hc1.andThen (within_onEng ..)
  split
  · exact ((hc2.andThen (within_clearTag ..)).andThen (within_emptyWay ..)).andThen (within_recGone ..)
  · exact hc1.andThen (within_applyPrep ..)
  · exact hc1.andThen (within_dropPrep ..)

theorem within_removePreps (c : Chip) (d : Nat) : Within [.regs, .dram, .flow] c (c.removePreps d) := by
  unfold Chip.removePreps
  exact .foldl (.refl _ _) fun _ _ => (.foldl (.refl _ _) fun _ _ => (within_removePrep ..).mono)

theorem within_ropGone (c : Chip) (r : Rop) : Within [.gang] c (c.ropGone r) := by
  unfold Chip.ropGone
  exact (within_onGang ..).mono

theorem within_commitInsert (c : Chip) (e i : Nat) (b j : Nat) (o : FOp) (new : Bytes) (fired value : Nat) :
    Within [.dram, .flow] c (c.commitInsert e i b j o new fired value) := by
  unfold Chip.commitInsert
  extract_lets _ c1
  have hc1 : Within [.dram, .flow] c c1 := (within_storeRec ..).mono.andThen (within_setWay ..)
  exact ((hc1.andThen (within_sendRepl ..)).andThen (within_sendMigr ..)).andThen (within_notify ..)

theorem within_commitWay (c : Chip) (e i : Nat) (o : FOp) (new : Bytes) (fired value : Nat) :
    Within [.flow] c (c.commitWay e i o new fired value) := by
  unfold Chip.commitWay
  extract_lets w
  exact ((within_setWay ..).mono.andThen (within_recChanged ..)).andThen (within_notify ..)

theorem within_decideHeld (c : Chip) (e : Nat) (h : FHeld) (good : Bool) :
    Within [.regs, .dram, .flow] c (c.decideHeld e h good) := by
  unfold Chip.decideHeld
  extract_lets c1 c2
  have hc1 : Within [.regs, .dram, .flow] c c1 := (within_onEng ..).mono
  have hc2 : Within [.regs, .dram, .flow] c c2 := (hc1.andThen (within_bumpQ ..)).andThen (within_signal ..)
  exact .ite (.ite (hc1.andThen (within_commitInsert ..)) (hc1.andThen (within_commitWay ..)))
    (.ite (hc2.andThen (within_emptyWay ..)) (hc2.andThen (within_setWay ..)))

theorem within_sendAnswer (c : Chip) (o : FOp) (code : Nat) (data : Bytes) : Within [.flow] c (c.sendAnswer o code data) := by
  unfold Chip.sendAnswer
  exact (within_onFlow ..).mono

theorem within_prepare (c : Chip) (e i : Nat) (o : FOp) (b j : Nat) (victim : Bool) :
    Within [.flow] c (c.prepare e i o b j victim) := by
  unfold Chip.prepare
  exact ((within_setWay ..).mono.andThen (within_onEng ..)).andThen (within_sendAnswer ..)

theorem within_refuseOp (c : Chip) (e : Nat) (o : FOp) (reason : Nat) :
    Within [.regs, .hostMem, .host, .flow] c (c.refuseOp e o reason) := by
  unfold Chip.refuseOp
  extract_lets c1 c2
  have hc1 : Within [.regs, .hostMem, .host, .flow] c c1 := (within_putF ..).mono.andThen (within_putF ..)
  have hc2 : Within [.regs, .hostMem, .host, .flow] c c2 := hc1.andThen (within_putF ..)
  exact ((hc2.andThen (within_bumpQ ..)).andThen (within_raise ..)).andThen (within_sendAnswer ..)

theorem within_touch (c : Chip) (e i : Nat) : Within [.flow] c (c.touch e i) := by
  unfold Chip.touch
  extract_lets r c1
  have hc1 : Within [.flow] c c1 := .foldl (.refl _ _) fun _ _ => (.ite (within_setWay ..).mono (.refl _ _))
  exact hc1.andThen (within_setWay ..)

theorem within_otherHit (c : Chip) (e i : Nat) (o : FOp) :
    Within [.regs, .dram, .hostMem, .host, .flow] c (c.otherHit e i o) := by
  unfold Chip.otherHit
  extract_lets w
  split
  · exact (within_touch ..).mono.andThen (within_sendAnswer ..)
  · exact (within_sendAnswer ..).mono
  · exact (((within_clearTag ..).mono.andThen (within_emptyWay ..)).andThen (within_recGone ..)).andThen (within_sendAnswer ..)
  · exact (within_refuseOp ..).mono
  · exact .ite (within_refuseOp ..).mono (.ite (within_refuseOp ..).mono
      (.ite (within_refuseOp ..).mono ((within_touch ..).mono.andThen (within_prepare ..))))

theorem within_holdWrite (c : Chip) (e i : Nat) (o : FOp) (x : StepOut) (ins : Bool) (b j : Nat) :
    Within [.regs, .flow] c (c.holdWrite e i o x ins b j) := by
  unfold Chip.holdWrite
  extract_lets _ c1
  have hc1 : Within [.regs, .flow] c c1 := (within_setWay ..).mono.andThen (within_onEng ..)
  exact (hc1.andThen (within_bumpQ ..)).andThen (within_signal ..)

theorem within_packetHit (c : Chip) (e i : Nat) (o : FOp) : Within [.regs, .flow] c (c.packetHit e i o).1 := by
  unfold Chip.packetHit
  split
  · exact .refl _ _
  · extract_lets b j c1 c2
    have hc2 : Within [.regs, .flow] c c2 :=
      (((within_bumpQ ..).mono.andThen (within_bumpQ ..)).andThen (within_signal ..)).andThen (within_touch ..)
    split
    next x d heq =>
    have hd : Within [.regs, .flow] c d := .of_snd heq (hc2.andThen (within_runSteps ..))
    extract_lets c3
    have hc3 : Within [.regs, .flow] c c3 := hd.andThen (within_sendResult ..)
    change Within _ _ (match o.tail with | 0 => _ | 1 => _ | _ => _)
    split
    · exact hc3.andThen (within_holdWrite ..)
    · exact hc3.andThen (within_commitWay ..)
    · exact (hc3.andThen (within_bumpQ ..)).andThen (within_signal ..)

theorem within_countAlias (c : Chip) (e : Nat) (o : FOp) : Within [.regs, .hostMem, .host] c (c.countAlias e o) := by
  unfold Chip.countAlias
  exact .ite ((within_bumpQ ..).mono.andThen (within_raise ..)) (.refl _ _)

theorem within_replOp (c : Chip) (e : Nat) (o : FOp) : Within [.regs, .dram, .hostMem, .host, .flow] c (c.replOp e o) := by
  unfold Chip.replOp
  extract_lets r slot c1
  have hc1 : Within [.regs, .dram, .hostMem, .host, .flow] c c1 := by
    unfold c1
    split
    · exact (within_emptyWay ..).mono
    · exact .refl _ _
  have hstore (b j : Nat) : Within [.regs, .dram, .hostMem, .host, .flow] c (c1.storeRec e b j r) :=
    hc1.andThen (within_storeRec ..)
  clear_value c1 slot
  refine .ite ?_ ?_
  · split
    · exact hc1.andThen (within_clearTag ..)
    · exact hc1
  · split
    · exact hstore _ _
    · split
      · exact hstore _ _
      · exact (hc1.andThen (within_countAlias ..)).andThen (within_bump ..)

theorem within_countRefuse (c : Chip) (e tmpl : Nat) : Within [.regs, .hostMem, .host] c (c.countRefuse e tmpl) := by
  unfold Chip.countRefuse
  exact (within_bump ..).mono.andThen (within_raise ..)

theorem within_victimWay (c : Chip) (e i : Nat) : Within [.regs, .dram, .flow] c (c.victimWay e i) := by
  unfold Chip.victimWay
  extract_lets w
  exact .ite ((((within_storeRec ..).mono.andThen (within_bumpQ ..)).andThen (within_signal ..)).andThen (within_emptyWay ..))
    (within_emptyWay ..).mono

theorem within_fillWay (c : Chip) (e i : Nat) (b j : Nat) (held dirty : Bool) (r : Bytes) :
    Within [.regs, .dram, .flow] c (c.fillWay e i b j held dirty r) := by
  unfold Chip.fillWay
  extract_lets c1 bs
  have hc1 : Within [.regs, .dram, .flow] c c1 := (within_victimWay ..).mono
  exact (hc1.andThen (within_setWay ..)).andThen (within_touch ..)

theorem within_prepCreate (c : Chip) (e : Nat) (o : FOp) :
    Within [.regs, .dram, .hostMem, .host, .flow] c (c.prepCreate e o).1 := by
  unfold Chip.prepCreate
  split
  · exact .fst_mk (within_refuseOp ..).mono
  · split
    · exact .fst_mk (.refl _ _)
    · extract_lets go t
      split
      · exact .fst_mk ((within_fillWay ..).mono.andThen (within_prepare ..))
      · exact .fst_mk (((within_countAlias ..).mono.andThen (within_fillWay ..)).andThen (within_prepare ..))
      · exact .fst_mk (((within_countAlias ..).mono.andThen (within_countRefuse ..)).andThen (within_refuseOp ..))

theorem within_setupPrep (c : Chip) (e : Nat) (o : FOp) (x : FSetup) :
    Within [.regs, .dram, .hostMem, .host, .flow] c (c.setupPrep e o x).1 := by
  unfold Chip.setupPrep
  split
  · exact .fst_mk (.refl _ _)
  · split
    · rename_i d heq
      have hd : Within [.regs, .dram, .hostMem, .host, .flow] c d := .of_fst heq (within_prepCreate ..).mono
      exact .fst_mk hd
    · rename_i d _ _ heq
      have hd : Within [.regs, .dram, .hostMem, .host, .flow] c d := .of_fst heq (within_prepCreate ..).mono
      exact .fst_mk hd
  · exact .fst_mk (within_refuseOp ..).mono

theorem within_startLookup (c : Chip) (e : Nat) (o : FOp) : Within [.regs, .flow] c (c.startLookup e o) := by
  unfold Chip.startLookup
  extract_lets granted c1
  have hc1 : Within [.regs, .flow] c c1 := (within_onEng ..).mono
  exact .ite ((hc1.andThen (within_bumpQ ..)).andThen (within_signal ..)) hc1

theorem within_tableOp (c : Chip) (e : Nat) (o : FOp) : Within [.regs, .dram, .hostMem, .host, .flow] c (c.tableOp e o) := by
  unfold Chip.tableOp
  split
  · exact (within_refuseOp ..).mono
  · extract_lets r
    refine .ite ?_ ?_
    · exact (within_refuseOp ..).mono
    · refine .ite ?_ ?_
      · exact (within_refuseOp ..).mono
      · split
        · exact (((within_storeRec ..).mono.andThen (within_sendRepl ..)).andThen (within_sendMigr ..)).andThen
            (within_sendAnswer ..)
        · exact (within_countAlias ..).mono.andThen (within_refuseOp ..)
  · extract_lets r
    exact ((within_clearTag ..).mono.andThen (within_recGone ..)).andThen (within_sendAnswer ..)
  · exact (within_refuseOp ..).mono
  · exact (within_sendAnswer ..).mono
  · exact (within_sendAnswer ..).mono

theorem within_tryOp (c : Chip) (e : Nat) (o : FOp) : Within [.regs, .dram, .hostMem, .host, .flow] c (c.tryOp e o).1 := by
  unfold Chip.tryOp
  split
  · exact (within_setupPrep ..).mono
  · split
    · exact .fst_mk (within_replOp ..).mono
    · split
      · exact .fst_mk (.refl _ _)
      · split
        · split
          · exact (within_packetHit ..).mono
          · exact .fst_mk (within_otherHit ..).mono
        · split
          · exact .fst_mk (within_startLookup ..).mono
          · exact .fst_mk (within_tableOp ..).mono

theorem within_tailStatus (c : Chip) (e kind : Nat) (src tag : Nat) (good : Bool) :
    Within [.regs, .dram, .hostMem, .host, .flow] c (c.tailStatus e kind src tag good) := by
  unfold Chip.tailStatus
  extract_lets mine mark hs c1 c2 keys
  have hc1 : Within [.regs, .dram, .hostMem, .host, .flow] c c1 := .foldl (.refl _ _) fun _ _ => (within_decideHeld ..).mono
  have hc2 : Within [.regs, .dram, .hostMem, .host, .flow] c c2 := hc1.andThen (within_onEng ..)
  split
  · split
    · rename_i d heq
      have hd : Within [.regs, .dram, .hostMem, .host, .flow] c d := .of_fst heq (hc2.andThen (within_tryOp ..))
      exact hd.andThen (within_leave ..)
    · rename_i d heq
      have hd : Within [.regs, .dram, .hostMem, .host, .flow] c d := .of_fst heq (hc2.andThen (within_tryOp ..))
      exact hd
  · exact hc2

theorem within_tailAll (c : Chip) (dev rtag : Nat) (good : Bool) :
    Within [.regs, .dram, .hostMem, .host, .flow] c (c.tailAll dev rtag good) := by
  unfold Chip.tailAll
  exact .foldl (.refl _ _) fun _ _ => (within_tailStatus ..).mono

theorem within_unbindReady (c : Chip) : Within [.regs, .tm, .gang] c c.unbindReady := by
  unfold Chip.unbindReady
  extract_lets l c1
  have hc1 : Within [.regs, .tm, .gang] c c1 := (within_onGang ..).mono
  exact .foldl hc1 fun _ _ => (within_unbind ..).mono

theorem within_linkSetDown (c : Chip) (d : Nat) :
    Within [.regs, .dram, .hostMem, .sfl, .ports, .pkts, .pattern, .tm, .tel, .host, .flow, .gang, .act] c (c.linkSetDown d)
      := by
  unfold Chip.linkSetDown
  extract_lets c1 rs c2 hs ws c3 c4 c5 waits c6
  have hc1 : Within [.regs, .dram, .hostMem, .sfl, .ports, .pkts, .pattern, .tm, .tel, .host,
    Part.flow, .gang, .act] c c1 := (within_onGang ..).mono
  have hc2 : Within [.regs, .dram, .hostMem, .sfl, .ports, .pkts, .pattern, .tm, .tel, .host,
    Part.flow, .gang, .act] c c2 :=
      .foldl hc1 fun _ _ => (((within_ropGone ..).mono.andThen (within_bump ..)).andThen (within_missFb ..))
  have hc3 : Within [.regs, .dram, .hostMem, .sfl, .ports, .pkts, .pattern, .tm, .tel, .host,
    Part.flow, .gang, .act] c c3 := .foldl hc2 fun _ _ => ((within_tailAll ..).mono.andThen (within_bump ..))
  have hc4 : Within [.regs, .dram, .hostMem, .sfl, .ports, .pkts, .pattern, .tm, .tel, .host,
    Part.flow, .gang, .act] c c4 := .foldl hc3 fun _ _ => (within_tailAll ..).mono
  have hc5 : Within [.regs, .dram, .hostMem, .sfl, .ports, .pkts, .pattern, .tm, .tel, .host,
    Part.flow, .gang, .act] c c5 := hc4.andThen (within_removePreps ..)
  have hc6 : Within [.regs, .dram, .hostMem, .sfl, .ports, .pkts, .pattern, .tm, .tel, .host,
    Part.flow, .gang, .act] c c6 := .foldl hc5 fun _ _ => (.ite (within_endCtx ..).mono (.refl _ _))
  exact (hc6.andThen (within_onGang ..)).andThen (within_unbindReady ..)

theorem within_setL (c : Chip) (d : Nat) (l : List Nat) : Within [.regs, .gang] c (c.setL d l) := by
  unfold Chip.setL
  extract_lets c1
  have hc1 : Within [.regs, .gang] c c1 := (within_onGang ..).mono
  exact (hc1.andThen (within_putF ..)).andThen (within_putF ..)

theorem within_leaveService (c : Chip) (p : Nat) :
    Within [.regs, .dram, .hostMem, .sfl, .ports, .pkts, .pattern, .tm, .tel, .host, .flow, .gang, .act] c (c.leaveService p)
      := by
  unfold Chip.leaveService
  split
  · exact .refl _ _
  · extract_lets c1 c2 c3
    have hc1 : Within [.regs, .dram, .hostMem, .sfl, .ports, .pkts, .pattern, .tm, .tel, .host,
      Part.flow, .gang, .act] c c1 := (within_onGang ..).mono
    have hc2 : Within [.regs, .dram, .hostMem, .sfl, .ports, .pkts, .pattern, .tm, .tel, .host,
      Part.flow, .gang, .act] c c2 := (hc1.andThen (within_setL ..)).andThen (within_raise ..)
    have hc3 : Within [.regs, .dram, .hostMem, .sfl, .ports, .pkts, .pattern, .tm, .tel, .host,
      Part.flow, .gang, .act] c c3 := hc2.andThen (within_unbindReady ..)
    exact .ite ((hc3.andThen (within_putF ..)).andThen (within_linkSetDown ..)) hc3

theorem within_setCl (c : Chip) (p : Nat) (x : List Nat) : Within [.sched] c (c.setCl p x) := by
  unfold Chip.setCl
  exact (Within.refl _ _).sched _

theorem within_setClsDef (c : Chip) (p k n : Nat) : Within [.sched] c (c.setClsDef p k n) := by
  unfold Chip.setClsDef
  exact (Within.refl _ _).sched _

theorem within_setQl (c : Chip) (p k : Nat) (x : List Nat) : Within [.sched] c (c.setQl p k x) := by
  unfold Chip.setQl
  exact (Within.refl _ _).sched _

theorem within_setQueue (c : Chip) (q : Nat) (x : List (Nat × Nat)) : Within [.tm] c (c.setQueue q x) := by
  unfold Chip.setQueue
  exact (Within.refl _ _).tm _

theorem within_setClsTok (c : Chip) (p k : Nat) (t : Int) : Within [.sched] c (c.setClsTok p k t) := by
  unfold Chip.setClsTok
  exact (Within.refl _ _).sched _

theorem within_updCls (c : Chip) (p k : Nat) : Within [.sched] c (c.updCls p k) := by
  unfold Chip.updCls
  exact (within_setClsTok ..).mono

theorem within_setPortTok (c : Chip) (p : Nat) (t : Int) : Within [.regs, .sched] c (c.setPortTok p t) := by
  unfold Chip.setPortTok
  extract_lets src
  have hsrc : Within [.regs, .sched] c src := (within_putQ ..).mono
  exact hsrc.sched _

theorem within_updPort (c : Chip) (p : Nat) : Within [.regs, .sched] c (c.updPort p) := by
  unfold Chip.updPort
  exact (within_setPortTok ..).mono

theorem within_setQTok (c : Chip) (q : Nat) (t : Int) : Within [.regs, .sched] c (c.setQTok q t) := by
  unfold Chip.setQTok
  extract_lets src
  have hsrc : Within [.regs, .sched] c src := (within_putQ ..).mono
  exact hsrc.sched _

theorem within_updQ (c : Chip) (q : Nat) : Within [.regs, .sched] c (c.updQ q) := by
  unfold Chip.updQ
  extract_lets h
  exact (within_setQTok ..).mono

theorem within_dequeue (c : Chip) (q pid cid : Nat) : Within [.regs, .tm, .sched, .tel] c (c.dequeue q pid cid) := by
  unfold Chip.dequeue
  extract_lets h pos c1 c2 c3 c4 ms bs _ c5 c6
  have hc1 : Within [.regs, .tm, .sched, .tel] c c1 := (within_updQ ..).mono
  have hc2 : Within [.regs, .tm, .sched, .tel] c c2 := .ite (hc1.andThen (within_updCls ..)) hc1
  have hc3 : Within [.regs, .tm, .sched, .tel] c c3 := .ite (.ite (hc2.andThen (within_updPort ..)) hc2) (.refl _ _)
  have hc4 : Within [.regs, .tm, .sched, .tel] c c4 := hc3.andThen (within_setQueue ..)
  have hc5 : Within [.regs, .tm, .sched, .tel] c c5 := hc4.tm _
  have hc6 : Within [.regs, .tm, .sched, .tel] c c6 :=
    .ite (((hc5.andThen (within_setQl ..)).andThen (within_putF ..)).andThen (within_condEv ..)) hc5
  exact .ite hc6 ((hc6.andThen (within_setCl ..)).andThen (within_setClsDef ..))

theorem within_copyDropped (c : Chip) (port inPort code : Nat) :
    Within [.regs, .hostMem, .host] c (c.copyDropped port inPort code) := by
  unfold Chip.copyDropped
  extract_lets c1 c2
  have hc2 : Within [.regs, .hostMem, .host] c c2 :=
    ((within_tmDrop ..).mono.andThen (within_stat ..)).andThen (within_signal ..)
  have hevent (f : Fld) : Within [.regs, .hostMem, .host] c (c2.raise f) := hc2.andThen (within_raise ..)
  split
  · exact hevent _
  · exact hevent _
  · exact hevent _
  · exact hevent _
  · exact hc2

theorem within_endCopy (c : Chip) (pid cid : Nat) :
    Within [.regs, .hostMem, .pkts, .pattern, .tm, .tel, .host] c (c.endCopy pid cid) := by
  unfold Chip.endCopy
  extract_lets _ c1 c2 c3
  have hc1 : Within [.regs, .hostMem, .pkts, .pattern, .tm, .tel, .host] c c1 := (Within.refl _ _).tm _
  have hc2 : Within [.regs, .hostMem, .pkts, .pattern, .tm, .tel, .host] c c2 := hc1.andThen (within_putF ..)
  have hc3 : Within [.regs, .hostMem, .pkts, .pattern, .tm, .tel, .host] c c3 := hc2.andThen (within_updPkt ..)
  split
  · exact hc3
  · exact .ite (hc3.andThen (within_endPkt ..)) hc3

theorem within_subCells (c : Chip) (q n : Nat) : Within [.tm] c (c.subCells q n) := by
  unfold Chip.subCells
  exact (Within.refl _ _).tm _

theorem within_dropCopy (c : Chip) (pid : Nat) (k : Copy) (code : Nat) :
    Within [.regs, .hostMem, .pkts, .pattern, .tm, .sched, .tel, .host] c (c.dropCopy pid k code) := by
  unfold Chip.dropCopy
  split
  · exact .refl _ _
  · extract_lets c1 c2 mark c3
    have hc1 : Within [.regs, .hostMem, .pkts, .pattern, .tm, .sched, .tel, .host] c c1 :=
      .ite ((within_dequeue ..).mono.andThen (within_subCells ..)) (.refl _ _)
    have hc2 : Within [.regs, .hostMem, .pkts, .pattern, .tm, .sched, .tel, .host] c c2 := hc1.andThen (within_copyDropped ..)
    have hc3 : Within [.regs, .hostMem, .pkts, .pattern, .tm, .sched, .tel, .host] c c3 :=
      .ite (hc2.andThen (within_endStrip ..)) hc2
    exact (hc3.andThen (within_endCopy ..)).andThen (within_settleBindings ..)

theorem within_endTx (c : Chip) (pid : Nat) (k : Copy) :
    Within [.regs, .hostMem, .ports, .pkts, .pattern, .tm, .tel, .host] c (c.endTx pid k) := by
  unfold Chip.endTx
  extract_lets _ c1
  have hc1 : Within [.regs, .hostMem, .ports, .pkts, .pattern, .tm, .tel, .host] c c1 := (within_setPort ..).mono
  exact ((hc1.andThen (within_subCells ..)).andThen (within_endCopy ..)).andThen (within_settleBindings ..)

theorem within_stompCopy (c : Chip) (pid : Nat) (p : Pkt) (k : Copy) (reason : Nat) :
    Within [.regs, .hostMem, .ports, .pkts, .pattern, .tm, .tel, .host] c (c.stompCopy pid p k reason) := by
  unfold Chip.stompCopy
  extract_lets c1 _ c2 c3
  have hc1 : Within [.regs, .hostMem, .ports, .pkts, .pattern, .tm, .tel, .host] c c1 :=
    ((within_stat ..).mono.andThen (within_signal ..)).andThen (within_raise ..)
  have hc2 : Within [.regs, .hostMem, .ports, .pkts, .pattern, .tm, .tel, .host] c c2 := hc1.andThen (within_setPort ..)
  have hc3 : Within [.regs, .hostMem, .ports, .pkts, .pattern, .tm, .tel, .host] c c3 :=
    .ite (hc2.andThen (within_endStrip ..)) hc2
  exact hc3.andThen (within_endTx ..)

theorem within_failCopy (c : Chip) (pid : Nat) (begun : Bool) (k : Copy) :
    Within [.regs, .hostMem, .ports, .pkts, .pattern, .tm, .sched, .tel, .host] c (c.failCopy pid begun k) := by
  unfold Chip.failCopy
  split
  · exact .refl _ _
  · exact .ite (within_stompCopy ..).mono (.ite (within_dropCopy ..).mono
      (((Within.ite ((within_dequeue ..).mono.andThen (within_subCells ..)) (.refl _ _)).andThen (within_endCopy ..)).andThen
        (within_settleBindings ..)))

theorem within_failPkt (c : Chip) (pid : Nat) :
    Within [.regs, .hostMem, .ports, .pkts, .pattern, .tm, .sched, .tel, .host] c (c.failPkt pid) := by
  unfold Chip.failPkt
  split
  · exact .refl _ _
  · extract_lets ps c1 c2 c3
    have hc1 : Within [.regs, .hostMem, .ports, .pkts, .pattern, .tm, .sched, .tel, .host] c c1 := (within_setPort ..).mono
    have hc2 : Within [.regs, .hostMem, .ports, .pkts, .pattern, .tm, .sched, .tel, .host] c c2 :=
      hc1.andThen (within_setPkt ..)
    have hc3 : Within [.regs, .hostMem, .ports, .pkts, .pattern, .tm, .sched, .tel, .host] c c3 :=
      .foldl hc2 fun _ _ => (within_failCopy ..).mono
    exact (hc3.andThen (within_endStrip ..)).andThen (within_endPkt ..)

theorem within_cutArriving (c : Chip) (p reason : Nat) :
    Within [.regs, .hostMem, .ports, .pkts, .pattern, .tm, .sched, .tel, .host] c (c.cutArriving p reason) := by
  unfold Chip.cutArriving
  extract_lets ps
  split
  · exact .refl _ _
  · exact (within_setPort ..).mono.andThen (within_failPkt ..)

theorem within_linkCut (c : Chip) (p : Nat) :
    Within [.regs, .hostMem, .ports, .pkts, .pattern, .tm, .sched, .tel, .host] c (c.linkCut p) := by
  unfold Chip.linkCut
  extract_lets c1
  have hc1 : Within [.regs, .hostMem, .ports, .pkts, .pattern, .tm, .sched, .tel, .host] c c1 :=
    .ite (((within_cutArriving ..).mono.andThen (within_stat ..)).andThen (within_signal ..)) (.refl _ _)
  exact hc1.andThen (within_setPort ..)

theorem within_setLpi (c : Chip) (p : Nat) (b : Bool) : Within [.regs, .tel] c (c.setLpi p b) := by
  unfold Chip.setLpi
  exact (within_putF ..).mono.andThen (within_condEv ..)

theorem within_portDrop (c : Chip) (p : Nat) :
    Within [.regs, .dram, .hostMem, .sfl, .ports, .pkts, .pattern, .tm, .sched, .tel, .host, .flow, .gang, .act] c
      (c.portDrop p) := by
  unfold Chip.portDrop
  extract_lets c1 c2 c3 _ c4
  have hc1 : Within [.regs, .dram, .hostMem, .sfl, .ports, .pkts, .pattern, .tm, .sched, .tel,
    Part.host, .flow, .gang, .act] c c1 := (within_raise ..).mono.andThen (within_linkCut ..)
  have hc2 : Within [.regs, .dram, .hostMem, .sfl, .ports, .pkts, .pattern, .tm, .sched, .tel,
    Part.host, .flow, .gang, .act] c c2 := ((hc1.andThen (within_putF ..)).andThen (within_putF ..)).andThen (within_putF ..)
  have hc3 : Within [.regs, .dram, .hostMem, .sfl, .ports, .pkts, .pattern, .tm, .sched, .tel,
    Part.host, .flow, .gang, .act] c c3 := .ite (hc2.andThen (within_setLpi ..)) hc2
  have hc4 : Within [.regs, .dram, .hostMem, .sfl, .ports, .pkts, .pattern, .tm, .sched, .tel,
    Part.host, .flow, .gang, .act] c c4 := (hc3.andThen (within_putF ..)).andThen (within_setPort ..)
  exact .ite (hc4.andThen (within_leaveService ..)) hc4

theorem within_portForm (c : Chip) (p step : Nat) : Within [.regs, .hostMem, .host] c (c.portForm p step) := by
  unfold Chip.portForm
  extract_lets mode half pcs c1 c2 c3
  have hc1 : Within [.regs, .hostMem, .host] c c1 := (within_putF ..).mono
  have hc2 : Within [.regs, .hostMem, .host] c c2 := hc1.andThen (within_putF ..)
  have hc3 : Within [.regs, .hostMem, .host] c c3 := hc2.andThen (within_putF ..)
  exact (hc3.andThen (within_putF ..)).andThen (within_raise ..)

theorem within_portEval (c : Chip) (p : Nat) :
    Within [.regs, .dram, .hostMem, .sfl, .ports, .pkts, .pattern, .tm, .sched, .tel, .host, .flow, .gang, .act] c
      (c.portEval p) := by
  unfold Chip.portEval
  exact .ite (.refl _ _) (.ite (.ite (((within_putF ..).mono.andThen (within_putF ..)).andThen (within_putF ..))
    ((((within_putF ..).mono.andThen (within_putF ..)).andThen (within_putF ..)).andThen (within_portForm ..)))
      (.ite (((within_putF ..).mono.andThen (within_putF ..)).andThen (within_portDrop ..))
        ((within_putF ..).mono.andThen (within_putF ..))))

theorem within_laneTold (c : Chip) (l : Nat) :
    Within [.regs, .dram, .hostMem, .sfl, .ports, .pkts, .pattern, .tm, .sched, .tel, .host, .flow, .gang, .act] c
      (c.laneTold l) := by
  unfold Chip.laneTold
  split
  · exact (within_portEval ..).mono
  · exact .refl _ _

theorem within_lput (c : Chip) (l : Nat) (f : Fld) (v : Nat) : Within [.regs] c (c.lput l f v) := by
  unfold Chip.lput
  exact (within_putF ..).mono

theorem within_lraise (c : Chip) (l : Nat) (f : Fld) : Within [.regs, .hostMem, .host] c (c.lraise l f) := by
  unfold Chip.lraise
  exact .ite (within_raise ..).mono (.ite (.refl _ _) ((within_lput ..).mono.andThen (within_raise ..)))

theorem within_setDim (c : Chip) (l : Nat) (tx b : Bool) : Within [.regs] c (c.setDim l tx b) := by
  unfold Chip.setDim
  extract_lets f c1
  have hc1 : Within [.regs] c c1 := (within_lput ..).mono
  exact .ite (hc1.andThen (within_bump ..)) hc1

theorem within_laneGo (c : Chip) (l s : Nat) :
    Within [.regs, .dram, .hostMem, .sfl, .ports, .pkts, .pattern, .tm, .sched, .tel, .host, .flow, .gang, .act] c
      (c.laneGo l s) := by
  unfold Chip.laneGo
  extract_lets was now still c1 c2 c3 c4 c5 c6
  have hc1 : Within [.regs, .dram, .hostMem, .sfl, .ports, .pkts, .pattern, .tm, .sched, .tel,
    Part.host, .flow, .gang, .act] c c1 := (within_lput ..).mono
  have hc2 : Within [.regs, .dram, .hostMem, .sfl, .ports, .pkts, .pattern, .tm, .sched, .tel,
    Part.host, .flow, .gang, .act] c c2 := hc1.andThen (within_lput ..)
  have hc3 : Within [.regs, .dram, .hostMem, .sfl, .ports, .pkts, .pattern, .tm, .sched, .tel,
    Part.host, .flow, .gang, .act] c c3 := .ite ((hc2.andThen (within_lput ..)).andThen (within_lput ..)) hc2
  have hc4 : Within [.regs, .dram, .hostMem, .sfl, .ports, .pkts, .pattern, .tm, .sched, .tel,
    Part.host, .flow, .gang, .act] c c4 :=
      .ite ((hc3.andThen (within_setDim ..)).andThen (within_setDim ..))
        (.ite hc3 (.ite hc3 ((hc3.andThen (within_setDim ..)).andThen (within_setDim ..))))
  have hc5 : Within [.regs, .dram, .hostMem, .sfl, .ports, .pkts, .pattern, .tm, .sched, .tel,
    Part.host, .flow, .gang, .act] c c5 := .ite (hc4.andThen (within_lraise ..)) (.ite (hc4.andThen (within_lraise ..)) hc4)
  have hc6 : Within [.regs, .dram, .hostMem, .sfl, .ports, .pkts, .pattern, .tm, .sched, .tel,
    Part.host, .flow, .gang, .act] c c6 := .ite ((hc5.andThen (within_condEv ..)).andThen (within_condEv ..)) hc5
  exact hc6.andThen (within_laneTold ..)

theorem within_onLane (c : Chip) (l : Nat) (f : LaneSt → LaneSt) : Within [.lanes] c (c.onLane l f) := by
  unfold Chip.onLane
  exact (Within.refl _ _).lanes _

theorem within_backOff (c : Chip) (l : Nat) :
    Within [.regs, .dram, .hostMem, .sfl, .lanes, .ports, .pkts, .pattern, .tm, .sched, .tel, .host, .flow, .gang, .act] c
      (c.backOff l) := by
  unfold Chip.backOff
  extract_lets n c1
  have hc1 : Within [.regs, .dram, .hostMem, .sfl, .lanes, .ports, .pkts, .pattern, .tm, .sched,
    Part.tel, .host, .flow, .gang, .act] c c1 := (within_onLane ..).mono
  exact (hc1.andThen (within_lput ..)).andThen (within_laneGo ..)

theorem within_laneReason (c : Chip) (l r : Nat) : Within [.regs, .hostMem, .host] c (c.laneReason l r) := by
  unfold Chip.laneReason
  exact (within_lput ..).mono.andThen (within_lraise ..)

theorem within_sendAbort (c : Chip) (l r : Nat) : Within [.lanes] c (c.sendAbort l r) := by
  unfold Chip.sendAbort
  exact .ite (within_onLane ..).mono (.refl _ _)

theorem within_laneFail (c : Chip) (l r : Nat) :
    Within [.regs, .dram, .hostMem, .sfl, .lanes, .ports, .pkts, .pattern, .tm, .sched, .tel, .host, .flow, .gang, .act] c
      (c.laneFail l r) := by
  unfold Chip.laneFail
  exact ((within_laneReason ..).mono.andThen (within_backOff ..)).andThen (within_sendAbort ..)

theorem within_abortSet (c : Chip) (l : Nat) (g : SetGroups) :
    Within [.regs, .dram, .hostMem, .sfl, .lanes, .ports, .pkts, .pattern, .tm, .sched, .tel, .host, .flow, .gang, .act] c
      (c.abortSet l g) := by
  unfold Chip.abortSet
  split
  · exact .refl _ _
  · exact (within_laneFail ..).mono

theorem within_stepPassed (c : Chip) (l n : Nat) :
    Within [.regs, .dram, .hostMem, .sfl, .lanes, .ports, .pkts, .pattern, .tm, .sched, .tel, .host, .flow, .gang, .act] c
      (c.stepPassed l n) := by
  unfold Chip.stepPassed
  extract_lets c1 c2
  have hc1 : Within [.regs, .dram, .hostMem, .sfl, .lanes, .ports, .pkts, .pattern, .tm, .sched,
    Part.tel, .host, .flow, .gang, .act] c c1 := (within_onLane ..).mono
  have hc2 : Within [.regs, .dram, .hostMem, .sfl, .lanes, .ports, .pkts, .pattern, .tm, .sched,
    Part.tel, .host, .flow, .gang, .act] c c2 := .ite (hc1.andThen (within_lput ..)) hc1
  exact .ite hc2 (hc2.andThen (within_laneGo ..))

theorem within_s0Check (c : Chip) (l : Nat) :
    Within [.regs, .dram, .hostMem, .sfl, .lanes, .ports, .pkts, .pattern, .tm, .sched, .tel, .host, .flow, .gang, .act] c
      (c.s0Check l) := by
  unfold Chip.s0Check
  extract_lets x
  exact .ite (within_stepPassed ..).mono (.refl _ _)

theorem within_stepCheck (c : Chip) (l : Nat) : Within [.lanes] c (c.stepCheck l) := by
  unfold Chip.stepCheck
  extract_lets x
  split
  · exact .ite (within_onLane ..).mono (.refl _ _)
  · exact .refl _ _

theorem within_ackSet (c : Chip) (l : Nat) (g : SetGroups) :
    Within [.regs, .dram, .hostMem, .sfl, .lanes, .ports, .pkts, .pattern, .tm, .sched, .tel, .host, .flow, .gang, .act] c
      (c.ackSet l g) := by
  unfold Chip.ackSet
  split
  · exact .refl _ _
  · extract_lets x t
    exact .ite (.refl _ _) (.ite ((within_onLane ..).mono.andThen (within_s0Check ..))
      (.ite ((within_onLane ..).mono.andThen (within_stepCheck ..)) (.refl _ _)))

theorem within_frozenShow (c : Chip) (l : Nat) : Within [.regs] c (c.frozenShow l) := by
  unfold Chip.frozenShow
  exact (within_lput ..).mono

theorem within_idleFreeze (c : Chip) (l : Nat) (b : Bool) : Within [.regs, .lanes] c (c.idleFreeze l b) := by
  unfold Chip.idleFreeze
  exact .ite (.refl _ _) ((within_onLane ..).mono.andThen (within_frozenShow ..))

theorem within_runUnit (c : Chip) (x u op : Nat) (f : Machine.Ctx → Mw → WordSt → UOut) :
    Within [.regs, .hostMem, .ports, .tel, .host, .flow, .gang, .act] c (c.runUnit x u op f) := by
  unfold Chip.runUnit
  extract_lets v w
  refine .ite ?_ ?_
  · exact .refl _ _
  · split
    · rename_i d heq
      have hd : Within [.regs, .hostMem, .ports, .tel, .host, .flow, .gang, .act] c d := .of_fst heq (within_issue ..).mono
      exact hd
    · rename_i d heq
      have hd : Within [.regs, .hostMem, .ports, .tel, .host, .flow, .gang, .act] c d := .of_fst heq (within_issue ..).mono
      split
      · exact hd
      · refine .ite ?_ ?_
        · exact hd
        · split
          · exact hd.andThen (within_setCtx ..)
          · exact hd
          · exact hd.andThen (within_endCtx ..)

theorem within_aluUnit (c : Chip) (x op : Nat) (unitB : Bool) :
    Within [.regs, .hostMem, .ports, .tel, .host, .flow, .gang, .act] c (c.aluUnit x op unitB) := by
  unfold Chip.aluUnit
  exact (within_runUnit ..).mono

theorem within_laneOff (c : Chip) (l : Nat) :
    Within [.regs, .dram, .hostMem, .sfl, .lanes, .ports, .pkts, .pattern, .tm, .sched, .tel, .host, .flow, .gang, .act] c
      (c.laneOff l) := by
  unfold Chip.laneOff
  exact .ite (.refl _ _) ((within_onLane ..).mono.andThen (within_laneGo ..))

theorem within_pinTest (c : Chip) (l : Nat) :
    Within [.regs, .dram, .hostMem, .sfl, .lanes, .ports, .pkts, .pattern, .tm, .sched, .tel, .host, .flow, .gang, .act] c
      (c.pinTest l) := by
  unfold Chip.pinTest
  exact (within_onLane ..).mono.andThen (within_laneGo ..)

theorem within_laneCheck (c : Chip) (l : Nat) :
    Within [.regs, .dram, .hostMem, .sfl, .lanes, .ports, .pkts, .pattern, .tm, .sched, .tel, .host, .flow, .gang, .act] c
      (c.laneCheck l) := by
  unfold Chip.laneCheck
  exact .ite (within_laneOff ..).mono (.ite (within_pinTest ..).mono (.refl _ _))

theorem within_sitePins (c : Chip) (m : Nat) : Within [.regs] c (c.sitePins m) := by
  unfold Chip.sitePins
  extract_lets st run auto reset lp
  exact (within_putF ..).mono.andThen (within_putF ..)

theorem within_siteGo (c : Chip) (m st : Nat) :
    Within [.regs, .dram, .hostMem, .sfl, .lanes, .ports, .pkts, .pattern, .tm, .sched, .tel, .host, .flow, .gang, .act] c
      (c.siteGo m st) := by
  unfold Chip.siteGo
  extract_lets c1 c2
  have hc1 : Within [.regs, .dram, .hostMem, .sfl, .lanes, .ports, .pkts, .pattern, .tm, .sched,
    Part.tel, .host, .flow, .gang, .act] c c1 := (within_putF ..).mono.andThen (within_sitePins ..)
  have hc2 : Within [.regs, .dram, .hostMem, .sfl, .lanes, .ports, .pkts, .pattern, .tm, .sched,
    Part.tel, .host, .flow, .gang, .act] c c2 := .ite (hc1.andThen (within_raise ..)) hc1
  exact .foldl hc2 fun _ _ => (within_laneCheck ..).mono

theorem within_admitPower (c : Chip) (m : Nat) :
    Within [.regs, .dram, .hostMem, .sfl, .lanes, .ports, .pkts, .pattern, .tm, .sched, .tel, .host, .flow, .gang, .act] c
      (c.admitPower m) := by
  unfold Chip.admitPower
  extract_lets lim
  exact .ite (within_siteGo ..).mono (.ite (.refl _ _) ((within_siteGo ..).mono.andThen (within_raise ..)))

theorem within_onSite (c : Chip) (m : Nat) (f : SiteSt → SiteSt) : Within [.sites] c (c.onSite m f) := by
  unfold Chip.onSite
  exact (Within.refl _ _).sites _

theorem within_addressPoll (c : Chip) (m : Nat) (resp : Option (Bool × Nat × Nat)) :
    Within [.regs, .dram, .hostMem, .sfl, .lanes, .ports, .sites, .pkts, .pattern, .tm, .sched, .tel, .host, .flow, .gang,
      .act] c (c.addressPoll m resp) := by
  unfold Chip.addressPoll
  refine .ite ?_ ?_
  · exact .refl _ _
  · split
    · exact .refl _ _
    · extract_lets c1 c2
      have hc1 : Within [.regs, .dram, .hostMem, .sfl, .lanes, .ports, .sites, .pkts, .pattern, .tm,
        Part.sched, .tel, .host, .flow, .gang, .act] c c1 := (within_onSite ..).mono
      have hc2 : Within [.regs, .dram, .hostMem, .sfl, .lanes, .ports, .sites, .pkts, .pattern, .tm,
        Part.sched, .tel, .host, .flow, .gang, .act] c c2 := (hc1.andThen (within_putF ..)).andThen (within_putF ..)
      exact .ite (hc2.andThen (within_siteGo ..)) (hc2.andThen (within_admitPower ..))

theorem within_bindQueue (c : Chip) (q dev : Nat) (h p k : Nat) : Within [.regs, .tm, .sched] c (c.bindQueue q dev h p k) := by
  unfold Chip.bindQueue
  extract_lets older _ c1 c2 c3 c4 c5 c6 c7 c8 c9 c10 c11
  have hc1 : Within [.regs, .tm, .sched] c c1 := (Within.refl _ _).tm _
  have hc2 : Within [.regs, .tm, .sched] c c2 := (hc1.andThen (within_putF ..)).andThen (within_putF ..)
  have hc3 : Within [.regs, .tm, .sched] c c3 := hc2.andThen (within_putF ..)
  have hc4 : Within [.regs, .tm, .sched] c c4 := hc3.andThen (within_putF ..)
  have hc5 : Within [.regs, .tm, .sched] c c5 := hc4.andThen (within_putF ..)
  have hc6 : Within [.regs, .tm, .sched] c c6 := hc5.andThen (within_putF ..)
  have hc7 : Within [.regs, .tm, .sched] c c7 := hc6.andThen (within_putF ..)
  have hc8 : Within [.regs, .tm, .sched] c c8 := hc7.andThen (within_putF ..)
  have hc9 : Within [.regs, .tm, .sched] c c9 := hc8.andThen (within_setQTok ..)
  have hc10 : Within [.regs, .tm, .sched] c c10 := hc9.andThen (within_putF ..)
  have hc11 : Within [.regs, .tm, .sched] c c11 :=
    ((hc10.andThen (within_putF ..)).andThen (within_putF ..)).andThen (within_putF ..)
  exact hc11.andThen (within_putF ..)

theorem within_chooseQueue (c : Chip) (p k : Nat) (handle : Option (Nat × Nat)) :
    Within [.regs, .tm, .sched] c (c.chooseQueue p k handle).2 := by
  unfold Chip.chooseQueue
  extract_lets cq room
  split
  · exact .snd_mk (.refl _ _)
  · split
    · split
      · exact .snd_mk (.refl _ _)
      · exact .snd_mk (within_bump ..).mono
    · split
      · exact .snd_mk (within_bindQueue ..).mono
      · exact .snd_mk (within_bump ..).mono

theorem within_admitCharge (c : Chip) (pid new : Nat) (headroom : Bool) :
    Within [.regs, .hostMem, .pkts, .tm, .host] c (c.admitCharge pid new headroom) := by
  unfold Chip.admitCharge
  split
  · exact .refl _ _
  · extract_lets all h c1 c2 c3
    have hc1 : Within [.regs, .hostMem, .pkts, .tm, .host] c c1 := (within_setIngRes ..).mono.andThen (within_setFree ..)
    have hc2 : Within [.regs, .hostMem, .pkts, .tm, .host] c c2 := .ite (hc1.andThen (within_putF ..)) hc1
    have hc3 : Within [.regs, .hostMem, .pkts, .tm, .host] c c3 := hc2.andThen (within_sink ..)
    exact hc3.andThen (within_setPkt ..)

theorem within_addCells (c : Chip) (q n : Nat) : Within [.regs, .tm] c (c.addCells q n) := by
  unfold Chip.addCells
  extract_lets k _ c1
  have hc1 : Within [.regs, .tm] c c1 := (Within.refl _ _).tm _
  exact .ite (hc1.andThen (within_putF ..)) hc1

theorem within_enqueue (c : Chip) (q pid : Nat) (cid cells : Nat) :
    Within [.regs, .tm, .sched, .tel] c (c.enqueue q pid cid cells) := by
  unfold Chip.enqueue
  extract_lets h qe ce c1 c2 c3 c4 c5
  have hc1 : Within [.regs, .tm, .sched, .tel] c c1 := .ite (within_updQ ..).mono (.refl _ _)
  have hc2 : Within [.regs, .tm, .sched, .tel] c c2 := .ite (hc1.andThen (within_updCls ..)) hc1
  have hc3 : Within [.regs, .tm, .sched, .tel] c c3 := .ite hc2 (hc2.andThen (within_updPort ..))
  have hc4 : Within [.regs, .tm, .sched, .tel] c c4 := (hc3.andThen (within_setQueue ..)).andThen (within_addCells ..)
  have hc5 : Within [.regs, .tm, .sched, .tel] c c5 :=
    .ite (((hc4.andThen (within_setQl ..)).andThen (within_putF ..)).andThen (within_condEv ..)) hc4
  exact .ite ((hc5.andThen (within_setCl ..)).andThen (within_setClsDef ..)) hc5

theorem within_copyGo (c : Chip) (pid cells q : Nat) (k : Copy) (headroom : Bool) :
    Within [.regs, .hostMem, .pkts, .tm, .sched, .tel, .host] c (c.copyGo pid cells q k headroom) := by
  unfold Chip.copyGo
  extract_lets c1 k1 c2
  have hc1 : Within [.regs, .hostMem, .pkts, .tm, .sched, .tel, .host] c c1 := by
    unfold c1
    split
    · exact .ite (.refl _ _) (within_admitCharge ..).mono
    · exact .refl _ _
  have hc2 : Within [.regs, .hostMem, .pkts, .tm, .sched, .tel, .host] c c2 := hc1.andThen (within_updPkt ..)
  exact (hc2.andThen (within_enqueue ..)).andThen (within_signal ..)

theorem within_admitCopy (c : Chip) (pid : Nat) (k : Copy) (multi : Bool) :
    Within [.regs, .hostMem, .pkts, .tm, .sched, .tel, .host] c (c.admitCopy pid k multi).1 := by
  unfold Chip.admitCopy
  split
  · exact .fst_mk (.refl _ _)
  · extract_lets cells new chosen _ c1 c2
    have hchosen : Within [.regs, .hostMem, .pkts, .tm, .sched, .tel, .host] c chosen.2 := by
      unfold chosen
      split
      · exact .snd_mk (.refl _ _)
      · split
        · exact (within_chooseQueue ..).mono
        · exact .snd_mk (.refl _ _)
    have hc1 : Within [.regs, .hostMem, .pkts, .tm, .sched, .tel, .host] c c1 := (Within.refl _ _).tm _
    have hc2 : Within [.regs, .hostMem, .pkts, .tm, .sched, .tel, .host] c c2 :=
      (hc1.andThen (within_putF ..)).andThen (within_condEv ..)
    split
    · exact .fst_mk (within_copyDropped ..).mono
    · exact .fst_mk (hchosen.andThen (within_copyGo ..))
    · split
      · exact .fst_mk (within_copyDropped ..).mono
      · exact .fst_mk (hc2.andThen (within_updPkt ..))

theorem within_closeAdmission (c : Chip) (pid : Nat) (last : Option Nat) :
    Within [.regs, .hostMem, .pkts, .pattern, .tm, .tel, .host] c (c.closeAdmission pid last) := by
  unfold Chip.closeAdmission
  split
  · exact .refl _ _
  · exact .ite ((within_endStrip ..).mono.andThen (within_endPkt ..)) (.ite (.refl _ _) (within_setPkt ..).mono)

theorem within_mirrorCopy (c : Chip) (p : Pkt) (cid : Nat) : Within [.tm] c (c.mirrorCopy p cid).2 := by
  unfold Chip.mirrorCopy
  extract_lets m e n _ c1 sample
  have hc1 : Within [.tm] c c1 := (Within.refl _ _).tm _
  split
  · exact .snd_mk (.refl _ _)
  · split
    · exact .snd_mk hc1
    · exact .snd_mk hc1

theorem within_admission (c : Chip) (pid : Nat) :
    Within [.regs, .hostMem, .pkts, .pattern, .tm, .sched, .tel, .host] c (c.admission pid) := by
  unfold Chip.admission
  split
  · exact .refl _ _
  next p _ =>
  extract_lets ts enc multi ks r c1
  have hr : Within [.regs, .hostMem, .pkts, .pattern, .tm, .sched, .tel, .host] c r.1 := .foldlFst (.refl _ _) fun a k => by
    split
    · next heq => exact .of_fst heq (within_admitCopy ..).mono
    · next heq => exact .of_fst heq (within_admitCopy ..).mono
  have hc1 : Within [.regs, .hostMem, .pkts, .pattern, .tm, .sched, .tel, .host] c c1 := by
    unfold c1
    split
    · next heq => exact .of_snd heq (hr.andThen (within_mirrorCopy ..))
    · next d heq =>
      have hd : Within [.regs, .hostMem, .pkts, .pattern, .tm, .sched, .tel, .host] c d :=
        .of_snd heq (hr.andThen (within_mirrorCopy ..))
      exact .ite (hd.andThen (within_copyDropped ..)) (hd.andThen (within_admitCopy ..))
  exact .ite ((((within_tmDrop ..).mono.andThen (within_stat ..)).andThen (within_endStrip ..)).andThen
    (within_endPkt ..) |>.andThen (within_settleBindings ..)) ((hc1.andThen (within_closeAdmission ..)).andThen
    (within_settleBindings ..))

theorem within_admitCmd (c : Chip) (pid : Nat) :
    Within [.regs, .hostMem, .pkts, .pattern, .tm, .sched, .tel, .host] c (c.admitCmd pid) := by
  unfold Chip.admitCmd
  split
  · exact .refl _ _
  · exact .ite (within_admission ..).mono (.refl _ _)

theorem within_raiseFloor (c : Chip) (t v : Nat) : Within [.flash] c (c.raiseFloor t v) := by
  unfold Chip.raiseFloor
  split
  · exact (Within.refl _ _).flash _
  · exact (Within.refl _ _).flash _
  · exact (Within.refl _ _).flash _
  · exact (Within.refl _ _).flash _

theorem within_showCurrent (c : Chip) : Within [.regs] c c.showCurrent := by
  unfold Chip.showCurrent
  extract_lets img
  exact (within_putF ..).mono.andThen (within_putQ ..)

theorem within_adopt (c : Chip) (raise : Bool) : Within [.regs, .hostMem, .flash, .host, .plate] c (c.adopt raise) := by
  unfold Chip.adopt
  refine .command ?_ fun d => ?_
  · exact .refl _ _
  · split
    · exact (within_finish ..).mono
    · exact .ite (within_finish ..).mono ((Within.ite ((((((Within.refl _ _).plate _).andThen (within_showCurrent ..)).andThen
        (within_putF ..)).andThen (within_putF ..)).andThen (within_raiseFloor ..))
          (((((Within.refl _ _).plate _).andThen (within_showCurrent ..)).andThen (within_putF ..)).andThen
            (within_putF ..))).andThen (within_finish ..))

theorem within_alignMode (c : Chip) (l : Nat) (b : Bool) : Within [.regs] c (c.alignMode l b) := by
  unfold Chip.alignMode
  extract_lets c1
  have hc1 : Within [.regs] c c1 := (within_lput ..).mono
  exact .ite (hc1.andThen (within_lput ..)) hc1

theorem within_closeCtx (c : Chip) (pid : Nat) (p : Pkt) (x : ParseCtx) (code : Nat) :
    Within [.pkts] c (c.closeCtx pid p x code) := by
  unfold Chip.closeCtx
  extract_lets flen
  exact (within_setPkt ..).mono.andThen (within_stampStrip ..)

theorem within_parseStep (c : Chip) (k : PKind) (pid : Nat) : Within [.pkts] c (c.parseStep k pid) := by
  unfold Chip.parseStep
  split
  · exact .refl _ _
  · split
    · exact .refl _ _
    · split
      · exact .refl _ _
      · refine .ite ?_ ?_
        · exact .refl _ _
        · extract_lets whole x x1 x2 x3
          split
          · exact .refl _ _
          · extract_lets hv hv1
            exact (within_closeCtx ..).mono
          · split
            · exact (within_setPkt ..).mono
            · exact (within_closeCtx ..).mono

theorem within_serveMsg (c : Chip) (ap : Bool) (e : Nat) : Within [.regs, .dram, .flow, .act] c (c.serveMsg ap e) := by
  unfold Chip.serveMsg
  split
  · exact .refl _ _
  · extract_lets _ c1
    have hc1 : Within [.regs, .dram, .flow, .act] c c1 := (Within.refl _ _).act _
    split
    · exact hc1
    · exact .ite (hc1.andThen (within_applyPrep ..)) (hc1.andThen (within_dropPrep ..))

theorem within_backoffEnd (c : Chip) (l : Nat) :
    Within [.regs, .dram, .hostMem, .sfl, .lanes, .ports, .pkts, .pattern, .tm, .sched, .tel, .host, .flow, .gang, .act] c
      (c.backoffEnd l) := by
  unfold Chip.backoffEnd
  exact .ite (.foldl (.refl _ _) fun _ _ => (within_pinTest ..).mono) (.refl _ _)

theorem within_hostErr (c : Chip) (f : Fld) (space addr : Nat) :
    Within [.regs, .hostMem, .host] c (c.hostErr f space addr) := by
  unfold Chip.hostErr
  extract_lets c1
  have hc1 : Within [.regs, .hostMem, .host] c c1 := .ite (within_putQ ..).mono (.refl _ _)
  exact hc1.andThen (within_raise ..)

theorem within_bankCond (c : Chip) (k : Nat) (b : Bool) : Within [.regs, .tel] c (c.bankCond k b) := by
  unfold Chip.bankCond
  exact .foldl (.refl _ _) fun _ _ => (within_condEv ..).mono

theorem within_bankAwake (c : Chip) (k : Nat) : Within [.regs, .mgt, .tel] c (c.bankAwake k) := by
  unfold Chip.bankAwake
  exact .ite (.refl _ _) ((((Within.refl _ _).mgt _).andThen (within_putF ..)).andThen (within_bankCond ..))

theorem within_bankGate (c : Chip) (k : Nat) : Within [.regs, .tel] c (c.bankGate k) := by
  unfold Chip.bankGate
  exact .ite (.refl _ _) ((within_putF ..).mono.andThen (within_bankCond ..))

theorem within_denied (c : Chip) (source addr ctx : Nat) :
    Within [.regs, .hostMem, .sfl, .host] c (c.denied source addr ctx) := by
  unfold Chip.denied
  exact ((within_bump ..).mono.andThen (within_deniedCapture ..)).andThen (within_sflEvent ..)

theorem within_stageWord (c : Chip) (a : Nat) (v : Word) : Within [.wideStage] c (c.stageWord a v) := by
  unfold Chip.stageWord
  exact (Within.refl _ _).wideStage _

theorem within_unstage (c : Chip) (a words : Nat) : Within [.wideStage] c (c.unstage a words) := by
  unfold Chip.unstage
  exact (Within.refl _ _).wideStage _

theorem within_storeWide (c : Chip) (r : RegAt) (a : Nat) (v : Word) : Within [.regs, .wideStage] c (c.storeWide r a v) := by
  unfold Chip.storeWide
  exact .ite (within_unstage ..).mono (((Within.foldl (.refl _ _) fun _ _ => (within_wr ..).mono).andThen
    (within_wr ..)).andThen (within_unstage ..))

theorem within_gap (c : Chip) (set : Nat) : Within [.regs, .hostMem, .host] c (c.gap set) := by
  unfold Chip.gap
  exact (within_putF ..).mono.andThen (within_raise ..)

theorem within_hwEvent (c : Chip) (r : RegAt) (a b : Nat) : Within [.regs, .hostMem, .freeCtr, .host] c (c.hwEvent r a b) := by
  unfold Chip.hwEvent
  extract_lets f plain _ c1
  have hplain : Within [.regs, .hostMem, .freeCtr, .host] c plain := (within_wr ..).mono
  have hc1 : Within [.regs, .hostMem, .freeCtr, .host] c c1 :=
    .ite ((within_putQ ..).mono.andThen (within_useFree ..)) (.refl _ _)
  exact .ite (within_gap ..).mono (.ite hplain (.ite (within_lraise ..).mono
    (.ite (hc1.andThen (within_raise ..)) (.ite (within_raise ..).mono (.ite (within_raiseDone ..).mono hplain)))))

theorem within_hwEvents (c : Chip) (r : RegAt) (a hw : Nat) :
    Within [.regs, .hostMem, .freeCtr, .host] c (c.hwEvents r a hw) := by
  unfold Chip.hwEvents
  exact .foldl (.refl _ _) fun _ _ => (.ite (within_hwEvent ..).mono (.refl _ _))

theorem within_storeWord (c : Chip) (r : RegAt) (a val hw : Nat) :
    Within [.regs, .hostMem, .freeCtr, .host] c (c.storeWord r a val hw) := by
  unfold Chip.storeWord
  extract_lets c1 old
  have hc1 : Within [.regs, .hostMem, .freeCtr, .host] c c1 := (within_hwEvents ..).mono
  exact .ite hc1 (hc1.andThen (within_wr ..))

theorem within_syncRules (c : Chip) : Within [.regs] c c.syncRules := by
  unfold Chip.syncRules
  extract_lets c1 c2 c3
  have hc1 : Within [.regs] c c1 := (within_putF ..).mono
  have hc2 : Within [.regs] c c2 := hc1.andThen (within_putF ..)
  have hc3 : Within [.regs] c c3 := hc2.andThen (within_putF ..)
  exact hc3.andThen (within_putF ..)

theorem within_clsDone (c : Chip) (st reason : Nat) : Within [.regs, .hostMem, .host] c (c.clsDone st reason) := by
  unfold Chip.clsDone
  exact ((within_syncRules ..).mono.andThen (within_putF ..)).andThen (within_finish ..)

theorem within_cancelFix (c : Chip) : Within [.regs, .hostMem, .time, .rules, .host] c c.cancelFix := by
  unfold Chip.cancelFix
  exact .command (.refl _ _) fun _ => (.ite (within_clsDone ..).mono
    (((Within.refl _ _).parts [.time, .rules]).andThen (within_clsDone ..)))

theorem Within.clsOrWait {M : List Part} {b c : Chip} {n : Nat} {k : Chip → Chip} (h : Within M b c)
    (hk : ∀ d, Within M d (k d)) (hregs : Part.regs ∈ M := by decide) (htern : Part.tern ∈ M := by decide) :
    Within M b (c.clsOrWait n k) := by
  have hsub : ∀ q ∈ [Part.regs], q ∈ M := fun q hq => List.mem_singleton.mp hq ▸ hregs
  unfold Chip.clsOrWait
  exact .command h (fun d => .ite (((Within.refl _ _).andThen (within_putF ..) hsub).tern _ htern) (hk d)) hsub

theorem within_commitFix (c : Chip) (st : Nat) (held pulled : Bool) :
    Within [.regs, .hostMem, .time, .rules, .host] c (c.commitFix st held pulled) := by
  unfold Chip.commitFix
  extract_lets v _ _ c1 c2 c3 c4
  have hc1 : Within [.regs, .hostMem, .time, .rules, .host] c c1 := (Within.refl _ _).parts [.time, .rules]
  have hc2 : Within [.regs, .hostMem, .time, .rules, .host] c c2 := (hc1.andThen (within_putF ..)).andThen (within_putF ..)
  have hc3 : Within [.regs, .hostMem, .time, .rules, .host] c c3 := (hc2.andThen (within_putF ..)).andThen (within_putF ..)
  have hc4 : Within [.regs, .hostMem, .time, .rules, .host] c c4 := (hc3.andThen (within_putF ..)).andThen (within_putQ ..)
  exact (hc4.andThen (within_syncRules ..)).andThen (within_raise ..)

theorem within_fixTimed (c : Chip) (cls : TimeClass) (t : Nat) :
    Within [.regs, .hostMem, .time, .rules, .host] c (c.fixTimed cls t) := by
  unfold Chip.fixTimed
  extract_lets sched
  refine .ite ?_ ?_
  · exact (within_clsDone ..).mono
  · split
    · exact (within_clsDone ..).mono
    · exact (within_clsDone ..).mono
    · refine .ite ?_ ?_
      · exact (within_clsDone ..).mono
      · split
        · exact .ite ((within_commitFix ..).mono.andThen (within_clsDone ..))
            (((Within.refl _ _).rules _).andThen (within_clsDone ..))
        · exact .ite ((within_commitFix ..).mono.andThen (within_clsDone ..))
            (((Within.refl _ _).rules _).andThen (within_clsDone ..))
        · exact ((Within.refl _ _).rules _).andThen (within_clsDone ..)

theorem within_fixUntimed (c : Chip) : Within [.regs, .hostMem, .time, .rules, .host] c c.fixUntimed := by
  unfold Chip.fixUntimed
  exact .ite (within_clsDone ..).mono (.ite (within_clsDone ..).mono ((within_commitFix ..).mono.andThen (within_clsDone ..)))

theorem within_fixEffect (c : Chip) (timed : Bool) : Within [.regs, .hostMem, .time, .rules, .host] c (c.fixEffect timed) := by
  unfold Chip.fixEffect
  exact .ite (within_fixTimed ..).mono (within_fixUntimed ..).mono

theorem within_fixCmd (c : Chip) (timed : Bool) : Within [.regs, .hostMem, .time, .rules, .tern, .host] c (c.fixCmd timed) := by
  unfold Chip.fixCmd
  exact .clsOrWait (.refl _ _) fun _ => (within_fixEffect ..).mono

theorem within_hcGo (c : Chip) (e : Nat) : Within [.regs] c (c.hcGo e) := by
  unfold Chip.hcGo
  extract_lets k canon z r h1 h2 b c1 c2 c3 c4
  have hc1 : Within [.regs] c c1 := .ite (within_putWords ..).mono (.refl _ _)
  have hc2 : Within [.regs] c c2 := (hc1.andThen (within_putF ..)).andThen (within_putF ..)
  have hc3 : Within [.regs] c c3 := (hc2.andThen (within_putF ..)).andThen (within_putF ..)
  have hc4 : Within [.regs] c c4 := (hc3.andThen (within_putF ..)).andThen (within_putF ..)
  exact (hc4.andThen (within_putF ..)).andThen (within_putF ..)

theorem within_killAll (c : Chip) (k code : Nat) :
    Within [.regs, .hostMem, .ports, .tel, .host, .flow, .gang, .act] c (c.killAll k code) := by
  unfold Chip.killAll
  exact .foldl (.refl _ _) fun _ _ => (within_endCtx ..).mono

theorem within_killCtx (c : Chip) (x : Nat) :
    Within [.regs, .hostMem, .ports, .tel, .host, .flow, .gang, .act] c (c.killCtx x) := by
  unfold Chip.killCtx
  extract_lets v c1
  have hc1 : Within [.regs, .hostMem, .ports, .tel, .host, .flow, .gang, .act] c c1 := (within_putF ..).mono
  exact .ite (hc1.andThen (within_putF ..)) ((hc1.andThen (within_endCtx ..)).andThen (within_putF ..))

theorem within_freeEntry (c : Chip) (pk : Nat) : Within [.regs, .rules] c (c.freeEntry pk) := by
  unfold Chip.freeEntry
  extract_lets r src
  have hsrc : Within [.regs, .rules] c src := (within_sink ..).mono
  exact hsrc.rules _

theorem within_tFree (c : Chip) (tk : Nat) : Within [.regs, .tern] c (c.tFree tk) := by
  unfold Chip.tFree
  extract_lets src
  have hsrc : Within [.regs, .tern] c src := (within_sink ..).mono
  exact hsrc.tern _

theorem within_abandonEffect (c : Chip) : Within [.regs, .hostMem, .rules, .tern, .host] c c.abandonEffect := by
  unfold Chip.abandonEffect
  refine .ite ?_ ?_
  · exact (within_clsDone ..).mono
  · extract_lets reopen c1
    have hc1 : Within [.regs, .hostMem, .rules, .tern, .host] c c1 := by
      unfold c1
      refine .foldl ?_ fun d x => ?_
      · exact .refl _ _
      · refine .ite ?_ ?_
        · exact .ite (within_tFree ..).mono (within_freeEntry ..).mono
        · refine .ite ?_ ?_
          · split
            · exact (Within.refl _ _).tern _
            · exact .refl _ _
          · split
            · exact (Within.refl _ _).rules _
            · exact .refl _ _
    exact (hc1.rules _).andThen (within_clsDone ..)

theorem within_latentAbandon (c : Chip) : Within [.regs, .hostMem, .rules, .tern, .host] c c.latentAbandon := by
  unfold Chip.latentAbandon
  exact .clsOrWait (.refl _ _) fun _ => (within_abandonEffect ..).mono

theorem within_lookupCmd (c : Chip) (r : Nat) : Within [.regs, .hostMem, .host] c (c.lookupCmd r) := by
  unfold Chip.lookupCmd
  refine .command ?_ fun d => ?_
  · exact .refl _ _
  · extract_lets k v idx
    refine .ite ?_ ?_
    · exact (within_clsDone ..).mono
    · refine .ite ?_ ?_
      · exact (within_clsDone ..).mono
      · split
        · exact .ite ((within_putWords ..).mono.andThen (within_clsDone ..)) (within_clsDone ..).mono
        · exact (within_clsDone ..).mono

theorem within_tDone (c : Chip) (st reason : Nat) : Within [.regs, .hostMem, .host] c (c.tDone st reason) := by
  unfold Chip.tDone
  exact ((within_syncRules ..).mono.andThen (within_putF ..)).andThen (within_finish ..)

theorem within_renameChanges (c : Chip) (f : Change → Change) : Within [.rules] c (c.renameChanges f) := by
  unfold Chip.renameChanges
  exact (Within.refl _ _).rules _

theorem within_tMove (c : Chip) (q n m : Nat) : Within [.rules, .tern] c (c.tMove q n m) := by
  unfold Chip.tMove
  split
  · exact .refl _ _
  · extract_lets _ c1
    have hc1 : Within [.rules, .tern] c c1 := (Within.refl _ _).tern _
    exact hc1.andThen (within_renameChanges ..)

theorem within_tRuns (c : Chip) : Within [.regs] c c.tRuns := by
  unfold Chip.tRuns
  exact ((within_syncRules ..).mono.andThen (within_putF ..)).andThen (within_putF ..)

theorem within_rebalance (c : Chip) (q : Nat) : Within [.regs, .hostMem, .sfl, .rules, .tern, .host] c (c.rebalance q) := by
  unfold Chip.rebalance
  exact .command (.refl _ _) fun _ => (.ite (within_tDone ..).mono
    (.ite ((within_deniedCapture ..).mono.andThen (within_tDone ..))
      (.ite (within_tDone ..).mono (((Within.foldl (.refl _ _) fun _ _ => (within_tMove ..).mono).andThen
        (within_tRuns ..)).tern _))))

theorem within_setHold (c : Chip) (k : Nat) (b : Bool) : Within [.regs, .hostMem, .host] c (c.setHold k b) := by
  unfold Chip.setHold
  extract_lets c1
  have hc1 : Within [.regs, .hostMem, .host] c c1 := (within_putF ..).mono
  exact .ite (hc1.andThen (within_heldCheck ..)) (hc1.andThen (within_putF ..))

theorem within_addChange (c : Chip) (x : Change) : Within [.rules] c (c.addChange x) := by
  unfold Chip.addChange
  exact (Within.refl _ _).rules _

theorem within_moveEntry (c : Chip) (r p q : Nat) : Within [.rules] c (c.moveEntry r p q) := by
  unfold Chip.moveEntry
  split
  · exact .refl _ _
  · extract_lets _ c1
    have hc1 : Within [.rules] c c1 := (Within.refl _ _).rules _
    exact hc1.andThen (within_renameChanges ..)

theorem within_putEntry (c : Chip) (r p : Nat) (e : REntry) : Within [.rules] c (c.putEntry r p e) := by
  unfold Chip.putEntry
  exact (Within.refl _ _).rules _

theorem within_doAdd (c : Chip) (r : Nat) (body : Bytes) (plan : Nat × Option (Nat × Nat)) :
    Within [.regs, .rules] c (c.doAdd r body plan) := by
  unfold Chip.doAdd
  extract_lets c1 c2 c3
  have hc1 : Within [.regs, .rules] c c1 := by
    unfold c1
    split
    · exact (within_moveEntry ..).mono
    · exact .refl _ _
  have hc2 : Within [.regs, .rules] c c2 := hc1.andThen (within_putEntry ..)
  have hc3 : Within [.regs, .rules] c c3 := hc2.andThen (within_bump ..)
  exact hc3.andThen (within_addChange ..)

theorem within_doDel (c : Chip) (r p : Nat) (e : REntry) : Within [.rules] c (c.doDel r p e) := by
  unfold Chip.doDel
  exact (within_putEntry ..).mono.andThen (within_addChange ..)

theorem within_dropChange (c : Chip) (x : Change) : Within [.rules] c (c.dropChange x) := by
  unfold Chip.dropChange
  exact (Within.refl _ _).rules _

theorem within_stageBodyCmd (c : Chip) (op r : Nat) (body : Bytes) (idx : Nat) (locked : Bool) :
    Within [.regs, .rules] c (c.stageBodyCmd op r body idx locked).2.2 := by
  unfold Chip.stageBodyCmd
  extract_lets k same staged stand
  clear_value staged stand
  repeat refine .iteSnd (.refl _ _) ?_
  split
  · exact (within_freeEntry ..).mono.andThen (within_dropChange ..)
  · exact .iteSnd (.refl _ _) (within_doDel ..).mono
  · exact (within_putEntry ..).mono
  · split
    · exact (within_bump ..).mono
    · refine .iteSnd (.refl _ _) ?_
      split
      · exact (within_doDel ..).mono.andThen (within_doAdd ..)
      · exact (within_doAdd ..).mono

theorem within_stageCmd (c : Chip) (op r : Nat) : Within [.regs, .hostMem, .sfl, .rules, .host] c (c.stageCmd op r) := by
  unfold Chip.stageCmd
  refine .command ?_ fun d => ?_
  · exact .refl _ _
  · extract_lets k
    split
    · rename_i d1 heq
      have hd1 : Within [.regs, .hostMem, .sfl, .rules, .host] d d1 := .of_snd_snd heq (within_stageBodyCmd ..).mono
      extract_lets c1
      have hc1 : Within [.regs, .hostMem, .sfl, .rules, .host] d c1 := .ite (hd1.andThen (within_deniedCapture ..)) hd1
      exact hc1.andThen (within_clsDone ..)

theorem within_tLookup (c : Chip) (q : Nat) (byKey : Bool) : Within [.regs, .hostMem, .host] c (c.tLookup q byKey) := by
  unfold Chip.tLookup
  refine .command (.refl _ _) fun d => ?_
  extract_lets b v hit
  clear_value hit
  refine .ite (within_tDone ..).mono (.ite (within_tDone ..).mono ?_)
  split
  · exact .ite (((within_putWords ..).mono.andThen (within_putF ..)).andThen (within_tDone ..)) (within_tDone ..).mono
  · exact (within_tDone ..).mono

theorem within_tPut (c : Chip) (q n : Nat) (e : REntry) : Within [.tern] c (c.tPut q n e) := by
  unfold Chip.tPut
  exact (Within.refl _ _).tern _

end Sys2Proof.Proofs
end

section
/-!
One lemma `within_<f>` for each function `f` of the model, in the order in which they use each other (3 of 6).
-/
namespace Sys2Proof.Proofs
open Sys2Proof Sys2Proof.Machine

-- Each default `by decide` of a helper waits for the kernel: one proof at a time bounds the threads that wait.
set_option Elab.async false

theorem within_tAdd (c : Chip) (q : Nat) (body : Bytes) (pl : Nat × List (Nat × Nat)) :
    Within [.regs, .rules, .tern] c (c.tAdd q body pl) := by
  unfold Chip.tAdd
  extract_lets c1 c2 c3
  have hc1 : Within [.regs, .rules, .tern] c c1 := .foldl (.refl _ _) fun _ _ => (within_tMove ..).mono
  have hc2 : Within [.regs, .rules, .tern] c c2 := hc1.andThen (within_tPut ..)
  have hc3 : Within [.regs, .rules, .tern] c c3 := (hc2.andThen (within_bump ..)).andThen (within_addChange ..)
  exact (hc3.andThen (within_putF ..)).andThen (within_putF ..)

theorem within_tDel (c : Chip) (q n : Nat) (e : REntry) : Within [.rules, .tern] c (c.tDel q n e) := by
  unfold Chip.tDel
  exact (within_tPut ..).mono.andThen (within_addChange ..)

theorem within_tStage (c : Chip) (op q : Nat) (body : Bytes) (locked : Bool) :
    Within [.regs, .hostMem, .rules, .tern, .host] c (c.tStage op q body locked).2.2.2 := by
  unfold Chip.tStage
  extract_lets same staged stand
  clear_value staged stand
  repeat refine .iteSnd3 (.refl _ _) ?_
  split
  · exact (within_tFree ..).mono.andThen (within_dropChange ..)
  · exact .iteSnd3 (.refl _ _) (within_tDel ..).mono
  · exact (within_tPut ..).mono.andThen (within_putF ..)
  · split
    · exact (within_raise ..).mono
    · exact .refl _ _
    · refine .iteSnd3 (.refl _ _) ?_
      split
      · exact (within_tDel ..).mono.andThen (within_tAdd ..)
      · exact (within_tAdd ..).mono

theorem within_tStageCmd (c : Chip) (op q : Nat) :
    Within [.regs, .hostMem, .sfl, .rules, .tern, .host] c (c.tStageCmd op q) := by
  unfold Chip.tStageCmd
  refine .command (.refl _ _) fun c => ?_
  split
  next st reason runs d heq =>
  have hd : Within [.regs, .hostMem, .sfl, .rules, .tern, .host] c d := .of_snd3 heq (within_tStage ..).mono
  extract_lets c1
  have hc1 : Within [.regs, .hostMem, .sfl, .rules, .tern, .host] c c1 := .ite (hd.andThen (within_deniedCapture ..)) hd
  exact .ite (hc1.andThen (within_tRuns ..)) (hc1.andThen (within_tDone ..))

theorem within_clsWritten (c : Chip) (r : RegAt) (b v : Nat) :
    Within [.regs, .dram, .hostMem, .time, .sfl, .ports, .pkts, .rules, .tern, .pattern, .tm, .tel, .host, .flow, .gang, .act,
      .wds] c (c.clsWritten r b v) := by
  unfold Chip.clsWritten
  refine .ite ?_ ?_
  · split
    · exact (within_fixCmd ..).mono
    · exact (within_latentAbandon ..).mono
    · exact (within_cancelFix ..).mono
    · exact (within_lookupCmd ..).mono
    · exact .ite (within_stageCmd ..).mono (.command (.refl _ _) fun _ => (within_clsDone ..).mono)
  · refine .ite ?_ ?_
    · split
      · exact (within_tLookup ..).mono
      · exact (within_rebalance ..).mono
      · exact .ite (within_tStageCmd ..).mono (.command (.refl _ _) fun _ => (within_tDone ..).mono)
    · exact .ite (.ite (within_hcGo ..).mono (.refl _ _)) (.ite
        (.ite (.ite ((within_killAll ..).mono.andThen (within_flush ..)) (.refl _ _))
          ((Within.ite ((within_killAll ..).mono.andThen (within_flush ..)) (.refl _ _)).andThen (within_setHold ..)))
            (.ite (.ite ((within_killCtx ..).mono.andThen (within_flush ..)) (.refl _ _)) (.refl _ _)))

theorem within_cancelBath (c : Chip) (n : Nat) : Within [.regs, .hostMem, .time, .host] c (c.cancelBath n) := by
  unfold Chip.cancelBath
  exact .command (.refl _ _) fun _ => (.ite (within_finish ..).mono
    (((((Within.refl _ _).time _).andThen (within_putF ..)).andThen (within_putQ ..)).andThen (within_finish ..)))

theorem within_freeMasks (c : Chip) : Within [.freeCtr] c c.freeMasks.2 := by
  unfold Chip.freeMasks
  exact .snd_mk ((Within.refl _ _).freeCtr _)

theorem within_loadStatus (c : Chip) (r : Nat × Nat) : Within [.regs] c (c.loadStatus r) := by
  unfold Chip.loadStatus
  exact (within_putF ..).mono.andThen (within_putF ..)

theorem within_log (c : Chip) (source severity code inst data : Nat) :
    Within [.regs, .hostMem, .power, .mgt, .host] c (c.log source severity code inst data) := by
  unfold Chip.log
  extract_lets c1 m e c2 p m1 c3
  have hc1 : Within [.regs, .hostMem, .power, .mgt, .host] c c1 := (within_bump ..).mono.andThen (within_raise ..)
  have hc2 : Within [.regs, .hostMem, .power, .mgt, .host] c c2 := (within_putQ ..).mono
  clear_value c2
  have hc3 : Within [.regs, .hostMem, .power, .mgt, .host] c c3 := hc2.parts [.mgt, .power]
  exact .ite (.refl _ _) (.ite (hc1.mgt _) (hc3.andThen (within_putF ..)))

theorem within_applyRegionHdr (c : Chip) (r : Nat) (pl : Bytes) : Within [.regs, .rules] c (c.applyRegionHdr r pl) := by
  unfold Chip.applyRegionHdr
  extract_lets _ c1
  have hc1 : Within [.regs, .rules] c c1 := (Within.refl _ _).rules _
  exact ((hc1.andThen (within_putF ..)).andThen (within_putF ..)).andThen (within_putF ..)

theorem within_applyTernary (c : Chip) (pl : Bytes) : Within [.regs, .tern] c (c.applyTernary pl) := by
  unfold Chip.applyTernary
  exact .foldl (.refl _ _) fun _ _ => ((((((within_putF ..).mono.andThen (within_putF ..)).andThen (within_putF ..)).andThen
    (within_putF ..)).andThen (within_putQ ..)).tern _)

theorem within_applySearch (c : Chip) (img : Bytes) : Within [.regs, .rules, .tern] c (c.applySearch img) := by
  unfold Chip.applySearch
  exact (Within.foldl (.refl _ _) fun _ _ => (within_applyRegionHdr ..).mono).andThen (within_applyTernary ..)

theorem within_tStageInit (c : Chip) (pl : Bytes) (q i : Nat) :
    Within [.regs, .hostMem, .rules, .tern, .host] c (c.tStageInit pl q i).2 := by
  unfold Chip.tStageInit
  extract_lets body again
  split
  next heq => exact .iteSnd1 (.refl _ _) (.iteSnd1 (.of_snd3 heq (within_tStage ..).mono) (within_tAdd ..).mono)

theorem within_stageProfile (c : Chip) (pl : Bytes) (q : Nat) :
    Within [.regs, .hostMem, .rules, .tern, .host] c (c.stageProfile pl q).2 := by
  unfold Chip.stageProfile
  exact .iteSnd1 (.refl _ _) (.foldlSnd (.refl _ _) fun _ _ => (within_tStageInit ..).mono)

theorem within_stageInit (c : Chip) (r : Nat) (pl : Bytes) (i : Nat) : Within [.regs, .rules] c (c.stageInit r pl i).2 := by
  unfold Chip.stageInit
  split
  · rename_i d heq
    have hd : Within [.regs, .rules] c d := .of_snd_snd heq (within_stageBodyCmd ..).mono
    split
    · exact .snd_mk hd
    · exact .snd_mk (.refl _ _)

theorem within_stageRegion (c : Chip) (r : Nat) (pl : Bytes) : Within [.regs, .rules] c (c.stageRegion r pl).2 := by
  unfold Chip.stageRegion
  exact .foldlSnd (.refl _ _) fun _ _ => (within_stageInit ..).mono

theorem within_loadEntries (c : Chip) (img : Bytes) :
    Within [.regs, .hostMem, .rules, .tern, .host] c (c.loadEntries img).2 := by
  unfold Chip.loadEntries
  extract_lets note a
  have ha : Within [.regs, .hostMem, .rules, .tern, .host] c a.2 :=
    .foldlSnd (.refl _ _) fun _ _ => (within_stageRegion ..).mono
  exact .foldlSnd ha fun _ _ => (within_stageProfile ..).mono

theorem within_checkPlate (c : Chip) (img : Bytes) :
    Within [.regs, .hostMem, .power, .mgt, .sfl, .host] c (c.checkPlate img).2 := by
  unfold Chip.checkPlate
  extract_lets r c1 c2 past10 c3
  have hc1 : Within [.regs, .hostMem, .power, .mgt, .sfl, .host] c c1 := (within_loadStatus ..).mono
  have hc2 : Within [.regs, .hostMem, .power, .mgt, .sfl, .host] c c2 := .ite (hc1.andThen (within_deniedCapture ..)) hc1
  have hc3 : Within [.regs, .hostMem, .power, .mgt, .sfl, .host] c c3 := .ite (.foldl hc2 fun _ _ => (within_log ..).mono) hc2
  exact .snd_mk hc3

theorem within_applyFlowTable (c : Chip) (pl : Bytes) : Within [.regs] c (c.applyFlowTable pl) := by
  unfold Chip.applyFlowTable
  extract_lets s
  exact .foldl (.refl _ _) fun _ _ => (((within_putF ..).mono.andThen (within_putF ..)).andThen (within_putF ..))

theorem within_siteStart (c : Chip) (m : Nat) :
    Within [.regs, .dram, .hostMem, .sfl, .lanes, .ports, .sites, .pkts, .pattern, .tm, .sched, .tel, .host, .flow, .gang,
      .act] c (c.siteStart m) := by
  unfold Chip.siteStart
  extract_lets c1
  have hc1 : Within [.regs, .dram, .hostMem, .sfl, .lanes, .ports, .sites, .pkts, .pattern, .tm,
    Part.sched, .tel, .host, .flow, .gang, .act] c c1 := (within_onSite ..).mono
  exact .ite (hc1.andThen (within_siteGo ..)) (hc1.andThen (within_siteGo ..))

theorem within_loadBringUp (c : Chip) :
    Within [.regs, .dram, .hostMem, .sfl, .lanes, .ports, .sites, .pkts, .pattern, .tm, .sched, .tel, .host, .flow, .gang,
      .act] c c.loadBringUp := by
  unfold Chip.loadBringUp
  extract_lets c1
  have hc1 : Within [.regs, .dram, .hostMem, .sfl, .lanes, .ports, .sites, .pkts, .pattern, .tm,
    Part.sched, .tel, .host, .flow, .gang, .act] c c1 :=
      .foldl (.refl _ _) fun _ _ => (.ite (within_siteStart ..).mono (.refl _ _))
  exact .foldl hc1 fun _ _ => (within_laneCheck ..).mono

theorem within_applyDram (c : Chip) (s : Nat) (pl0 : Bytes) : Within [.regs] c (c.applyDram s pl0) := by
  unfold Chip.applyDram
  extract_lets pl fl c1 c2 c3 c4 c5
  have hc1 : Within [.regs] c c1 := ((within_putF ..).mono.andThen (within_putF ..)).andThen (within_putF ..)
  have hc2 : Within [.regs] c c2 := ((hc1.andThen (within_putF ..)).andThen (within_putF ..)).andThen (within_putF ..)
  have hc3 : Within [.regs] c c3 := ((hc2.andThen (within_putF ..)).andThen (within_putF ..)).andThen (within_putF ..)
  have hc4 : Within [.regs] c c4 := (hc3.andThen (within_putF ..)).andThen (within_putF ..)
  have hc5 : Within [.regs] c c5 := .foldl hc4 fun _ _ => (within_putF ..).mono
  exact (hc5.andThen (within_putF ..)).andThen (within_putF ..)

theorem within_trainResult (c : Chip) (ch : Nat) (masks : List Nat) : Within [.regs] c (c.trainResult ch masks).2 := by
  unfold Chip.trainResult
  extract_lets rd wr put
  have hput (d : Chip) (f : Fld) (l : List (Option Nat)) : Within [.regs] d (put d f l) := .foldl (.refl _ _) fun _ _ => by
    split
    · exact (within_putF ..).mono
    · exact .refl _ _
  exact (hput ..).andThen (hput ..)

theorem within_loadTrain (c : Chip) (ch : Nat) (masks : List Nat) :
    Within [.regs, .hostMem, .power, .mgt, .host] c (c.loadTrain ch masks) := by
  unfold Chip.loadTrain
  exact .ite (.refl _ _) (.ite ((within_trainResult ..).mono.andThen (within_putF ..))
    ((((within_trainResult ..).mono.andThen (within_putF ..)).andThen (within_raise ..)).andThen (within_log ..)))

theorem within_onHbm (c : Chip) (f : HbmSt → HbmSt) : Within [.hbm] c (c.onHbm f) := by
  unfold Chip.onHbm
  exact (Within.refl _ _).hbm _

theorem within_startChange (c : Chip) (s rate : Nat) : Within [.regs, .hbm] c (c.startChange s rate) := by
  unfold Chip.startChange
  extract_lets c1
  have hc1 : Within [.regs, .hbm] c c1 := (within_putF ..).mono.andThen (within_putF ..)
  exact hc1.andThen (within_onHbm ..)

theorem within_tryPending (c : Chip) (s : Nat) : Within [.regs, .hbm] c (c.tryPending s) := by
  unfold Chip.tryPending
  exact .ite (within_startChange ..).mono (.refl _ _)

theorem within_stackTrained (c : Chip) (s : Nat) : Within [.regs, .hbm] c (c.stackTrained s) := by
  unfold Chip.stackTrained
  exact .ite (.refl _ _) (((within_putF ..).mono.andThen (within_putF ..)).andThen (within_tryPending ..))

theorem within_setPd (c : Chip) (g : Nat) (b : Bool) : Within [.regs, .tel] c (c.setPd g b) := by
  unfold Chip.setPd
  extract_lets c1
  have hc1 : Within [.regs, .tel] c c1 := .ite (within_putF ..).mono (within_putF ..).mono
  exact hc1.andThen (within_condEv ..)

theorem within_trainStack (c : Chip) (s : Nat) : Within [.regs, .tel] c (c.trainStack s) := by
  unfold Chip.trainStack
  exact .ite (.refl _ _) (.foldl (within_putF ..).mono fun _ _ =>
    (.ite (.refl _ _) (((within_putF ..).mono.andThen (within_setPd ..)).andThen (within_setPd ..))))

theorem within_zeroDram (c : Chip) (staged : Bool) : Within [.dram] c (c.zeroDram staged) := by
  unfold Chip.zeroDram
  exact (Within.refl _ _).dram fun h => by
    split
    · exact memFilter_wf _ h
    · exact smWf_nil _

theorem within_loadDram (c : Chip) (img : Bytes) (staged : Bool) (masks : List (List Nat)) :
    Within [.regs, .dram, .hostMem, .power, .mgt, .hbm, .tel, .host] c (c.loadDram img staged masks).2 := by
  unfold Chip.loadDram
  extract_lets c1 c2 c3 c4
  have hc1 : Within [.regs, .dram, .hostMem, .power, .mgt, .hbm, .tel, .host] c c1 := (within_putF ..).mono
  have hc2 : Within [.regs, .dram, .hostMem, .power, .mgt, .hbm, .tel, .host] c c2 :=
    .foldl hc1 fun _ _ => ((within_applyDram ..).mono.andThen (within_trainStack ..))
  have hc3 : Within [.regs, .dram, .hostMem, .power, .mgt, .hbm, .tel, .host] c c3 :=
    .foldl hc2 fun _ _ => (within_loadTrain ..).mono
  have hc4 : Within [.regs, .dram, .hostMem, .power, .mgt, .hbm, .tel, .host] c c4 :=
    .foldl hc3 fun _ _ => (within_stackTrained ..).mono
  split
  · exact .snd_mk hc4
  · exact .snd_mk ((hc4.andThen (within_zeroDram ..)).andThen (within_putF ..))

theorem within_setGood (c : Chip) (b v : Bool) : Within [.flash] c (c.setGood b v) := by
  unfold Chip.setGood
  exact .ite ((Within.refl _ _).flash _) ((Within.refl _ _).flash _)

theorem within_clearQueueRegs (c : Chip) (offs : List Nat) : Within [.regs] c (c.clearQueueRegs offs) := by
  unfold Chip.clearQueueRegs
  exact (Within.refl _ _).regs (smFilter_wf _)

theorem within_obsChanged (c : Chip) : Within [.regs, .sched] c c.obsChanged := by
  unfold Chip.obsChanged
  extract_lets c1 src
  have hc1 : Within [.regs, .sched] c c1 := (within_clearQueueRegs ..).mono
  have hsrc : Within [.regs, .sched] c src := hc1.andThen (within_putF ..)
  exact hsrc.sched _

theorem Within.setObs {M : List Part} {b c : Chip} {f : Chip → Chip} (h : Within M b c) (hf : ∀ d, Within M d (f d))
    (hM : ∀ q ∈ [.regs, .sched], q ∈ M := by decide) : Within M b (c.setObs f) := by
  unfold Chip.setObs
  exact .ite (h.andThen (hf c) fun _ => id) ((h.andThen (hf c) fun _ => id).andThen (within_obsChanged ..) hM)

theorem within_showReady (c : Chip) : Within [.regs] c c.showReady := by
  unfold Chip.showReady
  exact (within_putF ..).mono

theorem within_loadFinish (c : Chip) (img : Bytes) (origin : Nat) :
    Within [.regs, .flash, .sched, .plate] c (c.loadFinish img origin) := by
  unfold Chip.loadFinish
  extract_lets _ c1 c2 c3 c4 c5 c6 c7
  have hc1 : Within [.regs, .flash, .sched, .plate] c c1 := (Within.refl _ _).plate _
  have hc2 : Within [.regs, .flash, .sched, .plate] c c2 := (hc1.andThen (within_showCurrent ..)).andThen (within_putF ..)
  have hc3 : Within [.regs, .flash, .sched, .plate] c c3 := .ite (hc2.andThen (within_setGood ..)) hc2
  have hc4 : Within [.regs, .flash, .sched, .plate] c c4 := .ite (hc3.andThen (within_raiseFloor ..)) hc3
  have hc5 : Within [.regs, .flash, .sched, .plate] c c5 := hc4.andThen (within_putF ..)
  have hc6 : Within [.regs, .flash, .sched, .plate] c c6 := .setObs hc5 fun _ => (within_putF ..).mono
  have hc7 : Within [.regs, .flash, .sched, .plate] c c7 := hc6.andThen (within_putF ..)
  exact (hc7.andThen (within_putF ..)).andThen (within_showReady ..)

theorem within_applyBuffer (c : Chip) (pl0 : Bytes) : Within [.regs] c (c.applyBuffer pl0) := by
  unfold Chip.applyBuffer
  extract_lets pl s c1 c2 c3 c4
  have hc1 : Within [.regs] c c1 := ((within_putF ..).mono.andThen (within_putF ..)).andThen (within_putF ..)
  have hc2 : Within [.regs] c c2 := (hc1.andThen (within_putF ..)).andThen (within_putF ..)
  have hc3 : Within [.regs] c c3 :=
    .foldl hc2 fun _ _ => (((within_putF ..).mono.andThen (within_putF ..)).andThen (within_putF ..))
  have hc4 : Within [.regs] c c4 :=
    .foldl hc3 fun _ _ => (((within_putF ..).mono.andThen (within_putF ..)).andThen (within_putF ..))
  exact .foldl hc4 fun _ _ => (within_putF ..).mono

theorem within_applyEngineSet (c : Chip) (k : Nat) (pl0 : Bytes) : Within [.regs] c (c.applyEngineSet k pl0) := by
  unfold Chip.applyEngineSet
  extract_lets pl
  exact .foldl (.refl _ _) fun _ _ => (((within_putF ..).mono.andThen (within_putF ..)).andThen (within_putQ ..))

theorem within_applyGang (c : Chip) (pl0 : Bytes) : Within [.regs, .gang] c (c.applyGang pl0) := by
  unfold Chip.applyGang
  extract_lets pl c1 c2 c3 c4
  have hc1 : Within [.regs, .gang] c c1 := (within_putF ..).mono.andThen (within_putF ..)
  have hc2 : Within [.regs, .gang] c c2 := (hc1.andThen (within_putF ..)).andThen (within_putF ..)
  have hc3 : Within [.regs, .gang] c c3 := ((hc2.andThen (within_putF ..)).andThen (within_putF ..)).andThen (within_putF ..)
  have hc4 : Within [.regs, .gang] c c4 := (hc3.andThen (within_putF ..)).andThen (within_putF ..)
  exact hc4.gang _

theorem within_applyLane (c : Chip) (l : Nat) (pl : Bytes) : Within [.regs, .lanes] c (c.applyLane l pl) := by
  unfold Chip.applyLane
  extract_lets j ffe pol pre c1 c2 c3 c4 c5 c6
  have hc1 : Within [.regs, .lanes] c c1 := (within_lput ..).mono.andThen (within_lput ..)
  have hc2 : Within [.regs, .lanes] c c2 := (hc1.andThen (within_lput ..)).andThen (within_lput ..)
  have hc3 : Within [.regs, .lanes] c c3 := (hc2.andThen (within_lput ..)).andThen (within_lput ..)
  have hc4 : Within [.regs, .lanes] c c4 := hc3.andThen (within_lput ..)
  have hc5 : Within [.regs, .lanes] c c5 := ((hc4.andThen (within_lput ..)).andThen (within_lput ..)).andThen (within_lput ..)
  have hc6 : Within [.regs, .lanes] c c6 := hc5.andThen (within_lput ..)
  exact hc6.andThen (within_onLane ..)

theorem within_applyLaneGroup (c : Chip) (g : Nat) (pl0 : Bytes) :
    Within [.regs, .lanes, .plate] c (c.applyLaneGroup g pl0) := by
  unfold Chip.applyLaneGroup
  extract_lets pl gs _ c1
  have hc1 : Within [.regs, .lanes, .plate] c c1 := (Within.refl _ _).plate _
  exact .foldl hc1 fun _ _ => (within_applyLane ..).mono

theorem within_applyManagement (c : Chip) (pl0 : Bytes) : Within [.regs, .mgt] c (c.applyManagement pl0) := by
  unfold Chip.applyManagement
  extract_lets pl c1
  have hc1 : Within [.regs, .mgt] c c1 := ((within_putF ..).mono.andThen (within_putF ..)).andThen (within_putF ..)
  exact hc1.mgt _

theorem within_applyParse (c : Chip) (s : Nat) (pl : Bytes) : Within [.regs, .parse] c (c.applyParse s pl) := by
  unfold Chip.applyParse
  extract_lets _ c1 c2 c3 c4 c5 c6
  have hc1 : Within [.regs, .parse] c c1 := (Within.refl _ _).parse _
  have hc2 : Within [.regs, .parse] c c2 := hc1.andThen (within_wr ..)
  have hc3 : Within [.regs, .parse] c c3 := hc2.andThen (within_putF ..)
  have hc4 : Within [.regs, .parse] c c4 := hc3.andThen (within_putF ..)
  have hc5 : Within [.regs, .parse] c c5 := hc4.andThen (within_putF ..)
  have hc6 : Within [.regs, .parse] c c6 :=
    .foldl hc5 fun _ _ => (((((within_putF ..).mono.andThen (within_putF ..)).andThen (within_putF ..)).andThen
      (within_putF ..)).andThen (within_putF ..))
  exact .foldl hc6 fun _ _ => ((within_putF ..).mono.andThen (within_putF ..))

theorem within_applyPort (c : Chip) (p : Nat) (pl : Bytes) : Within [.regs, .ports] c (c.applyPort p pl) := by
  unfold Chip.applyPort
  extract_lets k on e b f c1 c2 c3 c4 c5 c6
  have hc1 : Within [.regs, .ports] c c1 := (within_putF ..).mono
  have hc2 : Within [.regs, .ports] c c2 := ((hc1.andThen (within_putF ..)).andThen (within_putF ..)).andThen (within_putF ..)
  have hc3 : Within [.regs, .ports] c c3 := ((hc2.andThen (within_putF ..)).andThen (within_putF ..)).andThen (within_putF ..)
  have hc4 : Within [.regs, .ports] c c4 := ((hc3.andThen (within_putF ..)).andThen (within_putF ..)).andThen (within_putF ..)
  have hc5 : Within [.regs, .ports] c c5 := (hc4.andThen (within_putF ..)).andThen (within_putF ..)
  have hc6 : Within [.regs, .ports] c c6 := (hc5.andThen (within_putF ..)).andThen (within_putF ..)
  exact hc6.andThen (within_setPort ..)

theorem within_applyPortGroup (c : Chip) (g : Nat) (pl0 : Bytes) : Within [.regs, .ports] c (c.applyPortGroup g pl0) := by
  unfold Chip.applyPortGroup
  extract_lets pl c1 b c2 c3
  have hc1 : Within [.regs, .ports] c c1 := .foldl (.refl _ _) fun _ _ => (within_applyPort ..).mono
  have hc2 : Within [.regs, .ports] c c2 := (hc1.andThen (within_putF ..)).andThen (within_putF ..)
  have hc3 : Within [.regs, .ports] c c3 := (hc2.andThen (within_putF ..)).andThen (within_putF ..)
  exact hc3.andThen (within_putF ..)

theorem within_shaperReset (c : Chip) (level n : Nat) : Within [.regs, .sched] c (c.shaperReset level n) := by
  unfold Chip.shaperReset
  split
  · exact (within_setQTok ..).mono
  · exact (within_setClsTok ..).mono
  · exact (within_setPortTok ..).mono

theorem within_applySchedClass (c : Chip) (p k : Nat) (pl : Bytes) : Within [.regs, .sched] c (c.applySchedClass p k pl) := by
  unfold Chip.applySchedClass
  extract_lets o f c1 c2 c3 c4 c5 c6
  have hc1 : Within [.regs, .sched] c c1 := ((within_putF ..).mono.andThen (within_putF ..)).andThen (within_putF ..)
  have hc2 : Within [.regs, .sched] c c2 := ((hc1.andThen (within_putF ..)).andThen (within_putF ..)).andThen (within_putF ..)
  have hc3 : Within [.regs, .sched] c c3 := (hc2.andThen (within_putF ..)).andThen (within_putF ..)
  have hc4 : Within [.regs, .sched] c c4 := (hc3.andThen (within_putF ..)).andThen (within_putF ..)
  have hc5 : Within [.regs, .sched] c c5 := (hc4.andThen (within_putF ..)).andThen (within_putF ..)
  have hc6 : Within [.regs, .sched] c c6 := (hc5.andThen (within_putF ..)).andThen (within_putF ..)
  exact (hc6.andThen (within_putF ..)).andThen (within_shaperReset ..)

theorem smWf_append {β : Type} {d : Nat → β} {m n : SMap β} (hm : smWf d m) (hn : smWf d n)
    (h : ∀ e ∈ m, ∀ k ∈ n, e.1 < k.1) : smWf d (m ++ n) := by
  refine ⟨?_, fun e he => (List.mem_append.mp he).elim (hm.2 e) (hn.2 e)⟩
  rw [List.map_append, List.pairwise_append]
  refine ⟨hm.1, hn.1, fun a ha b hb => ?_⟩
  obtain ⟨e, he, rfl⟩ := List.mem_map.mp ha
  obtain ⟨k, hk, rfl⟩ := List.mem_map.mp hb
  exact h e he k hk

/-- A map laid page by page, each page within its own bounds. -/
theorem smWf_pages {β : Type} {d : Nat → β} {page : Nat → SMap β} {lo step : Nat} (hpage : ∀ i, smWf d (page i))
    (hkeys : ∀ i, ∀ e ∈ page i, lo + step * i ≤ e.1 ∧ e.1 < lo + step * (i + 1)) (n : Nat) :
    smWf d ((List.range n).flatMap page) ∧ ∀ e ∈ (List.range n).flatMap page, lo ≤ e.1 ∧ e.1 < lo + step * n := by
  induction n with
  | zero => simp [smWf]
  | succ n ih =>
    obtain ⟨hwf, hin⟩ := ih
    have hnext : (List.range (n + 1)).flatMap page = (List.range n).flatMap page ++ page n := by
      simp [List.range_succ]
    rw [hnext]
    refine ⟨smWf_append hwf (hpage n) fun e he k hk => ?_, fun e he => ?_⟩
    · have hlast := hin e he
      have hfirst := hkeys n k hk
      omega
    · have hstep : step * (n + 1) = step * n + step := Nat.mul_succ ..
      rcases List.mem_append.mp he with hold | hnew
      · have hbound := hin e hold
        omega
      · have hbound := hkeys n e hnew
        have hmono : 0 ≤ step * n := Nat.zero_le _
        omega

/-- A word of a queue's page, listed where it differs from the reset value. -/
def queueWord (q o v : Nat) : SMap Word :=
  if BitVec.ofNat 32 v = regReset (q + o) then [] else [(q + o, BitVec.ofNat 32 v)]

theorem key_of_mem_queueWord {q o v : Nat} {e : Nat × Word} (h : e ∈ queueWord q o v) : e.1 = q + o := by
  unfold queueWord at h
  split at h
  · cases h
  · exact congrArg Prod.fst (List.mem_singleton.mp h)

theorem queueWord_wf (q o v : Nat) : smWf regReset (queueWord q o v) := by
  unfold queueWord
  split
  · exact smWf_nil _
  · next hne => exact ⟨List.pairwise_singleton .., fun e he => by rw [List.mem_singleton.mp he]; exact hne⟩

/-- The four words of a queue's page. -/
theorem queueWords_wf (q a b c d : Nat) :
    smWf regReset (queueWord q 0 a ++ queueWord q 4 b ++ queueWord q 8 c ++ queueWord q 12 d) ∧
    ∀ e ∈ queueWord q 0 a ++ queueWord q 4 b ++ queueWord q 8 c ++ queueWord q 12 d, q ≤ e.1 ∧ e.1 < q + 64 := by
  have h2 : smWf regReset (queueWord q 0 a ++ queueWord q 4 b) :=
    smWf_append (queueWord_wf ..) (queueWord_wf ..) fun e he k hk => by
      have := key_of_mem_queueWord he
      have := key_of_mem_queueWord hk
      omega
  have h3 : smWf regReset (queueWord q 0 a ++ queueWord q 4 b ++ queueWord q 8 c) :=
    smWf_append h2 (queueWord_wf ..) fun e he k hk => by
      have := key_of_mem_queueWord hk
      rcases List.mem_append.mp he with h | h <;> have := key_of_mem_queueWord h <;> omega
  refine ⟨smWf_append h3 (queueWord_wf ..) fun e he k hk => ?_, fun e he => ?_⟩
  · have := key_of_mem_queueWord hk
    simp only [List.mem_append] at he
    rcases he with (h | h) | h <;> have := key_of_mem_queueWord h <;> omega
  · simp only [List.mem_append] at he
    rcases he with ((h | h) | h) | h <;> have := key_of_mem_queueWord h <;> omega

theorem within_layPool (c : Chip) (p base n : Nat) (pl : Bytes) : Within [.regs] c (c.layPool p base n pl) := by
  unfold Chip.layPool
  extract_lets lo hi page
  have hpage (i : Nat) : smWf regReset (page i) ∧ ∀ e ∈ page i, lo + 64 * i ≤ e.1 ∧ e.1 < lo + 64 * i + 64 := by
    unfold page
    split
    · exact queueWords_wf (lo + 64 * i) ..
    · exact ⟨queueWord_wf (lo + 64 * i) 0 _, fun e he => by
        have := key_of_mem_queueWord (q := lo + 64 * i) he
        omega⟩
  obtain ⟨hmid, hkeys⟩ := smWf_pages (lo := lo) (step := 64) (fun i => (hpage i).1)
    (fun i e he => by have := (hpage i).2 e he; omega) n
  refine (Within.refl _ _).regs fun h => smWf_append (smWf_append (smFilter_wf _ h) hmid ?_) (smFilter_wf _ h) ?_
  · intro e he k hk
    have hlow : e.1 < lo := of_decide_eq_true (List.mem_filter.mp he).2
    have := hkeys k hk
    omega
  · intro e he k hk
    have hhigh : hi ≤ k.1 := of_decide_eq_true (List.mem_filter.mp hk).2
    rcases List.mem_append.mp he with h | h
    · have hlow : e.1 < lo := of_decide_eq_true (List.mem_filter.mp h).2
      omega
    · have := hkeys e h
      omega

theorem within_applySched (c : Chip) (p : Nat) (pl0 : Bytes) (own : Bool) :
    Within [.regs, .sched] c (c.applySched p pl0 own) := by
  unfold Chip.applySched
  extract_lets pl pool c1 f c2 c3 c4 c5 c6
  have hc1 : Within [.regs, .sched] c c1 := (within_putF ..).mono.andThen (within_putF ..)
  have hc2 : Within [.regs, .sched] c c2 := ((hc1.andThen (within_putF ..)).andThen (within_putF ..)).andThen (within_putF ..)
  have hc3 : Within [.regs, .sched] c c3 := (hc2.andThen (within_putF ..)).andThen (within_putF ..)
  have hc4 : Within [.regs, .sched] c c4 := (hc3.andThen (within_putF ..)).andThen (within_shaperReset ..)
  have hc5 : Within [.regs, .sched] c c5 := .foldl hc4 fun _ _ => (within_applySchedClass ..).mono
  have hc6 : Within [.regs, .sched] c c6 := hc5.andThen (within_layPool ..)
  exact .foldl hc6 fun _ _ => (within_shaperReset ..).mono

theorem within_applyTelemetry (c : Chip) (pl0 : Bytes) : Within [.regs] c (c.applyTelemetry pl0) := by
  unfold Chip.applyTelemetry
  extract_lets pl c1 c2
  have hc1 : Within [.regs] c c1 := ((within_putF ..).mono.andThen (within_putF ..)).andThen (within_putF ..)
  have hc2 : Within [.regs] c c2 := ((hc1.andThen (within_putF ..)).andThen (within_putF ..)).andThen (within_putF ..)
  exact ((hc2.andThen (within_putF ..)).andThen (within_putF ..)).andThen (within_putF ..)

theorem within_applyTemplates (c : Chip) (pl : Bytes) : Within [.flow] c (c.applyTemplates pl) := by
  unfold Chip.applyTemplates
  exact (Within.refl _ _).flow _

theorem within_applyTime (c : Chip) (pl : Bytes) : Within [.regs, .time] c (c.applyTime pl) := by
  unfold Chip.applyTime
  extract_lets _ c1 c2 c3 c4 c5
  have hc1 : Within [.regs, .time] c c1 := (Within.refl _ _).time _
  have hc2 : Within [.regs, .time] c c2 := hc1.andThen (within_putF ..)
  have hc3 : Within [.regs, .time] c c3 := hc2.andThen (within_putF ..)
  have hc4 : Within [.regs, .time] c c4 := hc3.andThen (within_putF ..)
  have hc5 : Within [.regs, .time] c c5 := hc4.andThen (within_putF ..)
  exact hc5.andThen (within_putF ..)

theorem within_applyWork (c : Chip) (pl0 : Bytes) : Within [.regs, .wds] c (c.applyWork pl0) := by
  unfold Chip.applyWork
  extract_lets pl c1 sum c2
  have hc1 : Within [.regs, .wds] c c1 := (within_putF ..).mono
  have hc2 : Within [.regs, .wds] c c2 := hc1.andThen (within_putF ..)
  exact .foldl hc2 fun _ _ => ((((((((((within_putF ..).mono.andThen (within_putF ..)).andThen (within_putF ..)).andThen
    (within_putF ..)).andThen (within_putF ..)).andThen (within_putF ..)).andThen (within_putF ..)).andThen
      (within_putF ..)).andThen (within_putF ..)).wds _)

theorem within_applyPattern (c : Chip) (pl : Bytes) : Within [.regs, .dram, .pattern] c (c.applyPattern pl) := by
  unfold Chip.applyPattern
  extract_lets ng _ c1 c2 c3 c4
  have hc1 : Within [.regs, .dram, .pattern] c c1 := (Within.refl _ _).pattern _
  have hc2 : Within [.regs, .dram, .pattern] c c2 := (hc1.andThen (within_putF ..)).andThen (within_putF ..)
  have hc3 : Within [.regs, .dram, .pattern] c c3 := hc2.andThen (within_putWords ..)
  have hc4 : Within [.regs, .dram, .pattern] c c4 := hc3.andThen (within_putF ..)
  exact hc4.andThen (within_dramWrite ..)

theorem within_firstVersion (c : Chip) : Within [.regs, .rules, .tern] c c.firstVersion := by
  unfold Chip.firstVersion
  extract_lets base _ _ c1
  have hc1 : Within [.regs, .rules, .tern] c c1 := (Within.refl _ _).parts [.rules, .tern]
  exact ((hc1.andThen (within_putF ..)).andThen (within_putF ..)).andThen (within_syncRules ..)

theorem within_loadRules (c : Chip) (img : Bytes) :
    Within [.regs, .dram, .hostMem, .rules, .tern, .pattern, .host] c (c.loadRules img) := by
  unfold Chip.loadRules
  extract_lets _ _ c1 c2 c3
  have hc1 : Within [.regs, .dram, .hostMem, .rules, .tern, .pattern, .host] c c1 := (Within.refl _ _).parts [.rules, .tern]
  have hc2 : Within [.regs, .dram, .hostMem, .rules, .tern, .pattern, .host] c c2 :=
    (hc1.andThen (within_putF ..)).andThen (within_putF ..)
  have hc3 : Within [.regs, .dram, .hostMem, .rules, .tern, .pattern, .host] c c3 :=
    (hc2.andThen (within_applySearch ..)).andThen (within_loadEntries ..)
  exact (hc3.andThen (within_firstVersion ..)).andThen (within_applyPattern ..)

theorem within_tsSeed (c : Chip) : Within [.tel] c c.tsSeed := by
  unfold Chip.tsSeed
  exact (within_onTel ..).mono

theorem within_loadSections (c : Chip) (img : Bytes) :
    Within [.regs, .dram, .hostMem, .time, .mgt, .lanes, .ports, .parse, .rules, .tern, .pattern, .sched, .tel, .host, .flow,
      .gang, .wds, .plate] c (c.loadSections img) := by
  unfold Chip.loadSections
  extract_lets c1 c2 c3 c4 c5 c6 c7 c8
  have hc1 : Within [.regs, .dram, .hostMem, .time, .mgt, .lanes, .ports, .parse, .rules, .tern,
    Part.pattern, .sched, .tel, .host, .flow, .gang, .wds, .plate] c c1 :=
      .foldl (.refl _ _) fun _ _ => ((within_applyPortGroup ..).mono.andThen (within_applyLaneGroup ..))
  have hc2 : Within [.regs, .dram, .hostMem, .time, .mgt, .lanes, .ports, .parse, .rules, .tern,
    Part.pattern, .sched, .tel, .host, .flow, .gang, .wds, .plate] c c2 := .foldl hc1 fun _ _ => (within_applyParse ..).mono
  have hc3 : Within [.regs, .dram, .hostMem, .time, .mgt, .lanes, .ports, .parse, .rules, .tern,
    Part.pattern, .sched, .tel, .host, .flow, .gang, .wds, .plate] c c3 := hc2.andThen (within_loadRules ..)
  have hc4 : Within [.regs, .dram, .hostMem, .time, .mgt, .lanes, .ports, .parse, .rules, .tern,
    Part.pattern, .sched, .tel, .host, .flow, .gang, .wds, .plate] c c4 := .foldl hc3 fun _ _ => (within_applyEngineSet ..).mono
  have hc5 : Within [.regs, .dram, .hostMem, .time, .mgt, .lanes, .ports, .parse, .rules, .tern,
    Part.pattern, .sched, .tel, .host, .flow, .gang, .wds, .plate] c c5 :=
      (hc4.andThen (within_applyTemplates ..)).andThen (within_applyWork ..)
  have hc6 : Within [.regs, .dram, .hostMem, .time, .mgt, .lanes, .ports, .parse, .rules, .tern,
    Part.pattern, .sched, .tel, .host, .flow, .gang, .wds, .plate] c c6 := hc5.andThen (within_applyBuffer ..)
  have hc7 : Within [.regs, .dram, .hostMem, .time, .mgt, .lanes, .ports, .parse, .rules, .tern,
    Part.pattern, .sched, .tel, .host, .flow, .gang, .wds, .plate] c c7 := .foldl hc6 fun _ _ => (within_applySched ..).mono
  have hc8 : Within [.regs, .dram, .hostMem, .time, .mgt, .lanes, .ports, .parse, .rules, .tern,
    Part.pattern, .sched, .tel, .host, .flow, .gang, .wds, .plate] c c8 :=
      ((hc7.andThen (within_applyTime ..)).andThen (within_applyTelemetry ..)).andThen (within_tsSeed ..)
  exact (hc8.andThen (within_applyGang ..)).andThen (within_applyManagement ..)

theorem within_applyMicrocode (c : Chip) (k : Nat) (pl : Bytes) : Within [.act] c (c.applyMicrocode k pl) := by
  unfold Chip.applyMicrocode
  extract_lets clear put base
  exact (Within.refl _ _).act _

theorem within_applyRoutines (c : Chip) (k : Nat) (pl : Bytes) : Within [.act] c (c.applyRoutines k pl) := by
  unfold Chip.applyRoutines
  extract_lets clear put
  exact (Within.refl _ _).act _

theorem within_loadPatch (c : Chip) (img : Bytes) :
    Within [.regs, .hostMem, .power, .mgt, .host, .act] c (c.loadPatch img) := by
  unfold Chip.loadPatch
  extract_lets _ _ c1
  have hc1 : Within [.regs, .hostMem, .power, .mgt, .host, .act] c c1 := (Within.refl _ _).parts [.mgt, .act]
  split
  · exact ((hc1.andThen (within_putF ..)).andThen (within_putF ..)).andThen (within_putF ..)
  · extract_lets p r c2 _ _ c3 c4 c5
    have hc2 : Within [.regs, .hostMem, .power, .mgt, .host, .act] c c2 := hc1.andThen (within_putF ..)
    have hc3 : Within [.regs, .hostMem, .power, .mgt, .host, .act] c c3 := hc2.parts [.mgt, .act]
    have hc4 : Within [.regs, .hostMem, .power, .mgt, .host, .act] c c4 :=
      (hc3.andThen (within_putF ..)).andThen (within_putF ..)
    have hc5 : Within [.regs, .hostMem, .power, .mgt, .host, .act] c c5 :=
      (hc2.andThen (within_putF ..)).andThen (within_putF ..)
    exact .ite (hc4.andThen (within_putQ ..)) ((hc5.andThen (within_putQ ..)).andThen (within_log ..))

theorem within_loadStores (c : Chip) (img : Bytes) :
    Within [.regs, .hostMem, .power, .mgt, .host, .act] c (c.loadStores img) := by
  unfold Chip.loadStores
  extract_lets base c1
  have hc1 : Within [.regs, .hostMem, .power, .mgt, .host, .act] c c1 := (within_loadPatch ..).mono.andThen (within_putF ..)
  exact .foldl hc1 fun _ _ => ((within_applyMicrocode ..).mono.andThen (within_applyRoutines ..))

theorem within_loadPlate (c : Chip) (img : Bytes) (origin : Nat) (masks : List (List Nat)) :
    Within [.regs, .dram, .hostMem, .power, .flash, .time, .mgt, .sfl, .lanes, .ports, .sites, .pkts, .parse, .rules, .tern,
      .pattern, .tm, .sched, .hbm, .tel, .host, .flow, .gang, .act, .wds, .plate] c (c.loadPlate img origin masks) := by
  -- unfolded as a function: the kernel would run the training of DRAM
  generalize hload : Chip.loadPlate = f
  delta Chip.loadPlate at hload
  subst hload
  beta_reduce
  extract_lets g c1
  have hc1 : Within [.regs, .dram, .hostMem, .power, .flash, .time, .mgt, .sfl, .lanes, .ports, .sites, .pkts, .parse, .rules,
    .tern, .pattern, .tm, .sched, .hbm, .tel, .host, .flow, .gang, .act, .wds, .plate] c c1 :=
      ((within_putF ..).mono.andThen (within_putF ..)).andThen (within_putF ..)
  have hload := hc1.andThen (within_loadDram c1 img (origin == 2) masks)
  generalize c1.loadDram img (origin == 2) masks = x at hload ⊢
  split
  · exact hload
  · next d =>
    have hd : Within [.regs, .dram, .hostMem, .power, .flash, .time, .mgt, .sfl, .lanes, .ports, .sites, .pkts, .parse,
      .rules, .tern, .pattern, .tm, .sched, .hbm, .tel, .host, .flow, .gang, .act, .wds, .plate] c d := hload
    extract_lets c2 p c3
    have hc2 : Within [.regs, .dram, .hostMem, .power, .flash, .time, .mgt, .sfl, .lanes, .ports, .sites, .pkts, .parse,
      .rules, .tern, .pattern, .tm, .sched, .hbm, .tel, .host, .flow, .gang, .act, .wds, .plate] c c2 :=
        (hd.andThen (within_applyFlowTable ..)).andThen (within_loadStores ..)
    clear_value c2
    have hc3 : Within [.regs, .dram, .hostMem, .power, .flash, .time, .mgt, .sfl, .lanes, .ports, .sites, .pkts, .parse,
      .rules, .tern, .pattern, .tm, .sched, .hbm, .tel, .host, .flow, .gang, .act, .wds, .plate] c c3 := hc2.parts [.power]
    exact ((hc3.andThen (within_loadSections ..)).andThen (within_loadBringUp ..)).andThen (within_loadFinish ..)

theorem within_loadStaged (c : Chip) (masks : List (List Nat)) :
    Within [.regs, .dram, .hostMem, .power, .flash, .time, .mgt, .sfl, .lanes, .ports, .sites, .pkts, .parse, .rules, .tern,
      .pattern, .tm, .sched, .hbm, .tel, .host, .flow, .gang, .act, .wds, .plate] c (c.loadStaged masks) := by
  unfold Chip.loadStaged
  refine .command ?_ fun d => ?_
  · exact .refl _ _
  · refine .ite ?_ ?_
    · exact (within_finish ..).mono
    · extract_lets img
      split
      · rename_i d1 heq
        have hd1 : Within [.regs, .dram, .hostMem, .power, .flash, .time, .mgt, .sfl, .lanes, .ports,
          .sites, .pkts, .parse, .rules, .tern, .pattern, .tm, .sched, .hbm, .tel,
          .host, .flow, .gang, .act, .wds, .plate] d d1 := .of_snd heq ((within_putF ..).mono.andThen (within_checkPlate ..))
        exact hd1.andThen (within_finish ..)
      · rename_i d1 heq
        have hd1 : Within [.regs, .dram, .hostMem, .power, .flash, .time, .mgt, .sfl, .lanes, .ports,
          .sites, .pkts, .parse, .rules, .tern, .pattern, .tm, .sched, .hbm, .tel,
          .host, .flow, .gang, .act, .wds, .plate] d d1 := .of_snd heq ((within_putF ..).mono.andThen (within_checkPlate ..))
        extract_lets c1
        have hc1 : Within [.regs, .dram, .hostMem, .power, .flash, .time, .mgt, .sfl, .lanes, .ports,
          .sites, .pkts, .parse, .rules, .tern, .pattern, .tm, .sched, .hbm, .tel,
          .host, .flow, .gang, .act, .wds, .plate] d c1 := hd1.andThen (within_loadPlate ..)
        exact .ite (hc1.andThen (within_finish ..)) (hc1.andThen (within_putF ..))

theorem within_raiseGlb (c : Chip) (f : Fld) : Within [.regs, .hostMem, .host] c (c.raiseGlb f) := by
  unfold Chip.raiseGlb
  extract_lets c1
  have hc1 : Within [.regs, .hostMem, .host] c c1 := (within_putF ..).mono
  exact .ite hc1 (hc1.andThen (within_sourceRise ..))

theorem within_recShow (c : Chip) : Within [.regs, .hostMem, .sched, .host] c c.recShow := by
  unfold Chip.recShow
  extract_lets run c1 c2 c3 c4
  have hc1 : Within [.regs, .hostMem, .sched, .host] c c1 := .ite (within_raiseGlb ..).mono (within_putF ..).mono
  have hc2 : Within [.regs, .hostMem, .sched, .host] c c2 :=
    .ite (hc1.andThen (within_raiseGlb ..)) (hc1.andThen (within_putF ..))
  have hc3 : Within [.regs, .hostMem, .sched, .host] c c3 := hc2.andThen (within_putF ..)
  have hc4 : Within [.regs, .hostMem, .sched, .host] c c4 := hc3.andThen (within_putF ..)
  exact .setObs hc4 fun _ => (within_putF ..).mono

theorem within_bankEmptied (c : Chip) (b : Nat) :
    Within [.regs, .hostMem, .ports, .pkts, .pattern, .tm, .sched, .tel, .host] c (c.bankEmptied b) := by
  unfold Chip.bankEmptied
  extract_lets _ c1
  have hc1 : Within [.regs, .hostMem, .ports, .pkts, .pattern, .tm, .sched, .tel, .host] c c1 :=
    .ite (.refl _ _) ((Within.refl _ _).tm _)
  refine .foldl ?_ fun d x => ?_
  · exact hc1
  · refine .ite ?_ ?_
    · exact (within_dropTm ..).mono
    · extract_lets c2
      have hc2 : Within [.regs, .hostMem, .ports, .pkts, .pattern, .tm, .sched, .tel, .host] d c2 := by
        unfold c2
        refine .foldl ?_ fun d x => ?_
        · exact .refl _ _
        · split
          · exact .refl _ _
          · exact .ite (within_stompCopy ..).mono (within_dropCopy ..).mono
      exact .ite (hc2.andThen (within_dropTm ..)) hc2

theorem within_clusterRecover (c : Chip) (k : Nat) :
    Within [.regs, .hostMem, .ports, .tel, .host, .flow, .gang, .act] c (c.clusterRecover k) := by
  unfold Chip.clusterRecover
  extract_lets c1 img c2
  have hc1 : Within [.regs, .hostMem, .ports, .tel, .host, .flow, .gang, .act] c c1 := (within_killAll ..).mono
  have hc2 : Within [.regs, .hostMem, .ports, .tel, .host, .flow, .gang, .act] c c2 :=
    (hc1.andThen (within_applyMicrocode ..)).andThen (within_applyRoutines ..)
  exact .foldl hc2 fun _ _ => (.ite (.refl _ _) (within_onCtx ..).mono)

theorem within_cacheEmptied (c : Chip) (e : Nat) : Within [.dram, .flow] c (c.cacheEmptied e) := by
  unfold Chip.cacheEmptied
  exact .foldl (.refl _ _) fun _ _ => (.ite (.refl _ _) (.ite
    (((within_clearTag ..).mono.andThen (within_emptyWay ..)).andThen (within_recGone ..)) (within_emptyWay ..).mono))

theorem within_heldLost (c : Chip) (e : Nat) (h : FHeld) : Within [.regs, .dram, .flow] c (c.heldLost e h) := by
  unfold Chip.heldLost
  extract_lets c1 w
  have hc1 : Within [.regs, .dram, .flow] c c1 := (within_bumpQ ..).mono
  exact .ite (hc1.andThen (within_emptyWay ..)) (((hc1.andThen (within_clearTag ..)).andThen (within_emptyWay ..)).andThen
    (within_recGone ..))

theorem within_keyDeleted (c : Chip) (e : Nat) (key : Bytes) (h1 h2 : Nat) :
    Within [.dram, .flow] c (c.keyDeleted e key h1 h2) := by
  unfold Chip.keyDeleted
  split
  · extract_lets w
    exact .ite (.refl _ _) (((within_clearTag ..).mono.andThen (within_emptyWay ..)).andThen (within_recGone ..))
  · exact (within_clearTag ..).mono.andThen (within_recGone ..)
  · exact .refl _ _

theorem within_metersFull (c : Chip) (e : Nat) : Within [.flow] c (c.metersFull e) := by
  unfold Chip.metersFull
  extract_lets now
  exact (within_onFlow ..).mono

theorem within_opFailed (c : Chip) (e : Nat) (o : FOp) : Within [.regs, .flow] c (c.opFailed e o) := by
  unfold Chip.opFailed
  exact .ite (within_fallback ..).mono (.ite (.refl _ _) (within_sendAnswer ..).mono)

theorem within_engineRecover (c : Chip) (e : Nat) (walk : Bool) :
    Within [.regs, .dram, .hostMem, .sfl, .ports, .pkts, .pattern, .tm, .sched, .tel, .host, .flow, .gang, .act, .wds] c
      (c.engineRecover e walk) := by
  unfold Chip.engineRecover
  extract_lets s c1 c2 c3 c4 c5 c6
  have hc1 : Within [.regs, .dram, .hostMem, .sfl, .ports, .pkts, .pattern, .tm, .sched, .tel,
    Part.host, .flow, .gang, .act, .wds] c c1 := (within_onEng ..).mono
  have hc2 : Within [.regs, .dram, .hostMem, .sfl, .ports, .pkts, .pattern, .tm, .sched, .tel,
    Part.host, .flow, .gang, .act, .wds] c c2 := .foldl hc1 fun _ _ => (within_heldLost ..).mono
  have hc3 : Within [.regs, .dram, .hostMem, .sfl, .ports, .pkts, .pattern, .tm, .sched, .tel,
    Part.host, .flow, .gang, .act, .wds] c c3 := .foldl hc2 fun _ _ => (within_keyDeleted ..).mono
  have hc4 : Within [.regs, .dram, .hostMem, .sfl, .ports, .pkts, .pattern, .tm, .sched, .tel,
    Part.host, .flow, .gang, .act, .wds] c c4 := .foldl hc3 fun _ _ => (within_opFailed ..).mono
  have hc5 : Within [.regs, .dram, .hostMem, .sfl, .ports, .pkts, .pattern, .tm, .sched, .tel,
    Part.host, .flow, .gang, .act, .wds] c c5 := .ite (hc4.andThen (within_cacheEmptied ..)) hc4
  have hc6 : Within [.regs, .dram, .hostMem, .sfl, .ports, .pkts, .pattern, .tm, .sched, .tel,
    Part.host, .flow, .gang, .act, .wds] c c6 := (hc5.andThen (within_metersFull ..)).andThen (within_flush ..)
  exact .foldl hc6 fun _ _ => (.ite (within_failPkt ..).mono (.refl _ _))

theorem within_bringUp (c : Chip) (l : Nat) :
    Within [.regs, .dram, .hostMem, .sfl, .lanes, .ports, .pkts, .pattern, .tm, .sched, .tel, .host, .flow, .gang, .act] c
      (c.bringUp l) := by
  unfold Chip.bringUp
  extract_lets c1 r c2 c3 c4 cap m c5 r1
  have hc1 : Within [.regs, .dram, .hostMem, .sfl, .lanes, .ports, .pkts, .pattern, .tm, .sched,
    Part.tel, .host, .flow, .gang, .act] c c1 := (within_onLane ..).mono
  have hc2 : Within [.regs, .dram, .hostMem, .sfl, .lanes, .ports, .pkts, .pattern, .tm, .sched,
    Part.tel, .host, .flow, .gang, .act] c c2 := .ite (hc1.andThen (within_lput ..)) (.ite hc1 (hc1.andThen (within_lput ..)))
  have hc3 : Within [.regs, .dram, .hostMem, .sfl, .lanes, .ports, .pkts, .pattern, .tm, .sched,
    Part.tel, .host, .flow, .gang, .act] c c3 := hc1.andThen (within_bump ..)
  have hc4 : Within [.regs, .dram, .hostMem, .sfl, .lanes, .ports, .pkts, .pattern, .tm, .sched,
    Part.tel, .host, .flow, .gang, .act] c c4 := .ite (hc3.andThen (within_signal ..)) hc3
  have hc5 : Within [.regs, .dram, .hostMem, .sfl, .lanes, .ports, .pkts, .pattern, .tm, .sched,
    Part.tel, .host, .flow, .gang, .act] c c5 := hc4.andThen (within_onLane ..)
  exact .ite (hc2.andThen (within_laneGo ..)) (.ite ((((hc5.andThen (within_lput ..)).andThen (within_lput ..)).andThen
    (within_lput ..)).andThen (within_laneGo ..)) (((hc4.andThen (within_lput ..)).andThen (within_lput ..)).andThen
      (within_laneGo ..)))

theorem within_rxAdapted (c : Chip) (l : Nat) : Within [.regs, .freeCtr] c (c.rxAdapted l) := by
  unfold Chip.rxAdapted
  extract_lets v
  exact (((within_lput ..).mono.andThen (within_lput ..)).andThen (within_lput ..)).andThen (within_useFree ..)

theorem within_laneRecover (c : Chip) (l : Nat) :
    Within [.regs, .dram, .hostMem, .freeCtr, .sfl, .lanes, .ports, .pkts, .pattern, .tm, .sched, .tel, .host, .flow, .gang,
      .act] c (c.laneRecover l) := by
  unfold Chip.laneRecover
  extract_lets c1 c2
  have hc1 : Within [.regs, .dram, .hostMem, .freeCtr, .sfl, .lanes, .ports, .pkts, .pattern, .tm,
    Part.sched, .tel, .host, .flow, .gang, .act] c c1 := (within_lput ..).mono.andThen (within_onLane ..)
  have hc2 : Within [.regs, .dram, .hostMem, .freeCtr, .sfl, .lanes, .ports, .pkts, .pattern, .tm,
    Part.sched, .tel, .host, .flow, .gang, .act] c c2 := hc1.andThen (within_rxAdapted ..)
  exact .ite hc2 ((hc2.andThen (within_laneReason ..)).andThen (within_bringUp ..))

theorem within_portRecover (c : Chip) (p : Nat) :
    Within [.regs, .dram, .hostMem, .sfl, .ports, .pkts, .pattern, .tm, .sched, .tel, .host, .flow, .gang, .act] c
      (c.portRecover p) := by
  unfold Chip.portRecover
  extract_lets c1 c2 c3
  have hc1 : Within [.regs, .dram, .hostMem, .sfl, .ports, .pkts, .pattern, .tm, .sched, .tel,
    Part.host, .flow, .gang, .act] c c1 := by
    unfold c1
    split
    · split
      · split
        · exact (within_stompCopy ..).mono
        · exact .refl _ _
      · exact .refl _ _
    · exact .refl _ _
  have hc2 : Within [.regs, .dram, .hostMem, .sfl, .ports, .pkts, .pattern, .tm, .sched, .tel,
    Part.host, .flow, .gang, .act] c c2 := .foldl (hc1.andThen (within_cutArriving ..)) fun _ _ => (within_failPkt ..).mono
  have hc3 : Within [.regs, .dram, .hostMem, .sfl, .ports, .pkts, .pattern, .tm, .sched, .tel,
    Part.host, .flow, .gang, .act] c c3 := (hc2.andThen (within_putF ..)).andThen (within_putF ..)
  exact (hc3.andThen (within_setPort ..)).andThen (within_portEval ..)

theorem within_ruleLost (c : Chip) (region unit : Nat) :
    Within [.regs, .hostMem, .power, .mgt, .rules, .tern, .host] c (c.ruleLost region unit) := by
  unfold Chip.ruleLost
  extract_lets tern place keep known c1 _ c2
  have hc1 : Within [.regs, .hostMem, .power, .mgt, .rules, .tern, .host] c c1 :=
    .ite (.refl _ _) (.ite (within_tFree ..).mono (within_freeEntry ..).mono)
  have hc2 : Within [.regs, .hostMem, .power, .mgt, .rules, .tern, .host] c c2 := hc1.rules _
  exact (hc2.andThen (within_syncRules ..)).andThen (within_log ..)

theorem within_sliceCopies (c : Chip) (s : Nat) :
    Within [.regs, .hostMem, .ports, .pkts, .pattern, .tm, .tel, .host] c (c.sliceCopies s) := by
  unfold Chip.sliceCopies
  refine .foldl ?_ fun d x => ?_
  · exact .refl _ _
  · refine .foldl ?_ fun d x => ?_
    · exact .refl _ _
    · split
      · exact .refl _ _
      · exact .ite ((within_endCopy ..).mono.andThen (within_settleBindings ..)) (.ite (within_stompCopy ..).mono (.refl _ _))

theorem within_dropQuiet (c : Chip) (pid : Nat) :
    Within [.regs, .hostMem, .pkts, .pattern, .tm, .tel, .host] c (c.dropQuiet pid) := by
  unfold Chip.dropQuiet
  exact ((within_endStrip ..).mono.andThen (within_endPkt ..)).andThen (within_settleBindings ..)

theorem within_tailOut (c : Chip) (pid : Nat) (good : Bool) : Within [.regs, .ports, .gang] c (c.tailOut pid good) := by
  unfold Chip.tailOut
  extract_lets l c1
  have hc1 : Within [.regs, .ports, .gang] c c1 := (within_onGang ..).mono
  refine .foldl ?_ fun d x => ?_
  · exact hc1
  · split
    · exact (within_gangOut ..).mono
    · exact .refl _ _

theorem within_tailReport (c : Chip) (pid : Nat) (good : Bool) :
    Within [.regs, .dram, .hostMem, .ports, .host, .flow, .gang] c (c.tailReport pid good) := by
  unfold Chip.tailReport
  exact (Within.foldl (.refl _ _) fun _ _ => (within_tailStatus ..).mono).andThen (within_tailOut ..)

theorem within_sliceDrop (c : Chip) (pid : Nat) :
    Within [.regs, .dram, .hostMem, .ports, .pkts, .pattern, .tm, .sched, .tel, .host, .flow, .gang] c (c.sliceDrop pid) := by
  unfold Chip.sliceDrop
  split
  · exact .refl _ _
  · extract_lets c1
    have hc1 : Within [.regs, .dram, .hostMem, .ports, .pkts, .pattern, .tm, .sched, .tel, .host,
      Part.flow, .gang] c c1 := .ite (within_tailReport ..).mono (.refl _ _)
    exact .ite (hc1.andThen (within_cutArriving ..)) (hc1.andThen (within_dropQuiet ..))

theorem within_sliceRecover (c : Chip) (r : RecDom) :
    Within [.regs, .dram, .hostMem, .power, .mgt, .ports, .pkts, .rules, .tern, .pattern, .tm, .sched, .tel, .host, .flow,
      .gang] c (c.sliceRecover r) := by
  unfold Chip.sliceRecover
  extract_lets c1 l c2
  have hc1 : Within [.regs, .dram, .hostMem, .power, .mgt, .ports, .pkts, .rules, .tern, .pattern,
    Part.tm, .sched, .tel, .host, .flow, .gang] c c1 := .ite (within_ruleLost ..).mono (.refl _ _)
  have hc2 : Within [.regs, .dram, .hostMem, .power, .mgt, .ports, .pkts, .rules, .tern, .pattern,
    Part.tm, .sched, .tel, .host, .flow, .gang] c c2 := by
    unfold c2
    refine .foldl ?_ fun d x => ?_
    · exact hc1
    · split
      · exact (within_tailReport ..).mono.andThen (within_cutArriving ..)
      · exact .refl _ _
  exact .ite (.foldl hc1 fun _ _ => (within_sliceDrop ..).mono)
    ((Within.foldl hc2 fun _ _ => (within_sliceDrop ..).mono).andThen (within_sliceCopies ..))

theorem within_itemLost (c : Chip) (q i : Nat) : Within [.regs, .tel, .wds] c (c.itemLost q i) := by
  unfold Chip.itemLost
  split
  · exact .refl _ _
  · extract_lets c1
    have hc1 : Within [.regs, .tel, .wds] c c1 := (within_setWaiting ..).mono.andThen (within_giveSlot ..)
    exact .ite (hc1.andThen (within_onWds ..)) hc1

theorem within_slotBankLost (c : Chip) (l : List Nat) : Within [.regs, .tel, .wds] c (c.slotBankLost l) := by
  unfold Chip.slotBankLost
  exact .foldl (.refl _ _) fun _ _ => (.foldl (.refl _ _) fun _ _ => (within_itemLost ..).mono)

theorem within_gateShow (c : Chip) (p : Nat) : Within [.regs] c (c.gateShow p) := by
  unfold Chip.gateShow
  extract_lets n
  exact (within_putF ..).mono.andThen (within_putF ..)

theorem within_treeRestart (c : Chip) (p : Nat) : Within [.regs, .sched] c (c.treeRestart p) := by
  unfold Chip.treeRestart
  extract_lets qs c1 c2
  have hc1 : Within [.regs, .sched] c c1 :=
    .foldl (.refl _ _) fun _ _ => ((within_setClsDef ..).mono.andThen (within_shaperReset ..))
  have hc2 : Within [.regs, .sched] c c2 :=
    .foldl hc1 fun _ _ => ((Within.ite (.refl _ _) (within_putF ..).mono).andThen (within_shaperReset ..))
  exact (hc2.andThen (within_shaperReset ..)).andThen (within_gateShow ..)

theorem within_recSteps (c : Chip) (r : RecDom) :
    Within [.regs, .dram, .hostMem, .freeCtr, .power, .mgt, .sfl, .lanes, .ports, .pkts, .rules, .tern, .pattern, .tm, .sched,
      .tel, .host, .flow, .gang, .act, .wds] c (c.recSteps r) := by
  unfold Chip.recSteps
  split
  · exact (within_laneRecover ..).mono
  · exact .ite (within_treeRestart ..).mono (within_portRecover ..).mono
  · exact (within_sliceRecover ..).mono
  · exact .ite (.refl _ _) (within_engineRecover ..).mono
  · exact .ite (within_slotBankLost ..).mono (within_clusterRecover ..).mono
  · exact (within_bankEmptied ..).mono
  · exact .foldl (.refl _ _) fun _ _ => (within_leaveService ..).mono
  · exact .refl _ _

theorem within_setRec (c : Chip) (r : RecDom) : Within [.recov] c (c.setRec r) := by
  unfold Chip.setRec
  exact (Within.refl _ _).recov _

theorem within_recRun (c : Chip) (r : RecDom) :
    Within [.regs, .dram, .hostMem, .freeCtr, .power, .mgt, .sfl, .lanes, .ports, .pkts, .rules, .tern, .pattern, .tm, .sched,
      .tel, .host, .flow, .gang, .act, .wds, .recov] c (c.recRun r) := by
  unfold Chip.recRun
  extract_lets x
  exact ((within_setRec ..).mono.andThen (within_recShow ..)).andThen (within_recSteps ..)

theorem within_recoveryGo (c : Chip) (kind inst : Nat) :
    Within [.regs, .dram, .hostMem, .freeCtr, .power, .mgt, .sfl, .lanes, .ports, .pkts, .rules, .tern, .pattern, .tm, .sched,
      .tel, .host, .flow, .gang, .act, .wds, .recov] c (c.recoveryGo kind inst) := by
  unfold Chip.recoveryGo
  split
  · exact .ite (within_recRun ..).mono (.refl _ _)
  · exact .refl _ _

theorem within_setSlot (c : Chip) (t : Nat) (b : Bool) (x : Slot) : Within [.flash] c (c.setSlot t b x) := by
  unfold Chip.setSlot
  split
  · exact (Within.refl _ _).flash _
  · exact (Within.refl _ _).flash _
  · exact (Within.refl _ _).flash _
  · exact (Within.refl _ _).flash _
  · exact (Within.refl _ _).flash _
  · exact (Within.refl _ _).flash _
  · exact (Within.refl _ _).flash _
  · exact (Within.refl _ _).flash _

theorem within_selectSlot (c : Chip) (t : Nat) (b : Bool) : Within [.flash] c (c.selectSlot t b) := by
  unfold Chip.selectSlot
  extract_lets _ c1
  have hc1 : Within [.flash] c c1 := (within_setSlot ..).mono
  exact .ite (hc1.andThen (within_setSlot ..)) hc1

theorem within_selectBoot (c : Chip) (b : Bool) : Within [.regs, .hostMem, .flash, .host] c (c.selectBoot b) := by
  unfold Chip.selectBoot
  exact .command (.refl _ _) fun _ => (.ite (within_finish ..).mono ((within_selectSlot ..).mono.andThen (within_finish ..)))

theorem within_bathCut (c : Chip) (p disc : Nat) :
    Within [.regs, .hostMem, .ports, .pkts, .pattern, .tm, .sched, .tel, .host] c (c.bathCut p disc) := by
  unfold Chip.bathCut
  extract_lets ps
  split
  · exact .refl _ _
  · split
    · exact .refl _ _
    · exact .ite ((within_setPort ..).mono.andThen (within_dropTm ..)) (within_cutArriving ..).mono

theorem within_queueDemoted (c : Chip) (q : Nat) : Within [.tm] c (c.queueDemoted q) := by
  unfold Chip.queueDemoted
  split
  · exact .refl _ _
  · extract_lets cq m
    exact (Within.refl _ _).tm _

theorem within_queueDropped (c : Chip) (q : Nat) :
    Within [.regs, .hostMem, .pkts, .pattern, .tm, .sched, .tel, .host] c (c.queueDropped q) := by
  unfold Chip.queueDropped
  refine .foldl ?_ fun d x => ?_
  · exact .refl _ _
  · split
    · exact .refl _ _
    · split
      · exact (within_dropCopy ..).mono
      · exact .refl _ _

theorem within_dropQueues (c : Chip) (l : List Nat) :
    Within [.regs, .hostMem, .pkts, .pattern, .tm, .sched, .tel, .host] c (c.dropQueues l) := by
  unfold Chip.dropQueues
  exact (Within.foldl (.foldl (.refl _ _) fun _ _ => (within_queueDemoted ..).mono) fun _ _ =>
    (within_queueDropped ..).mono).andThen (within_settleBindings ..)

theorem within_loseWrite (c : Chip) (ch : Nat) (q : DramReq) : Within [.hbm] c (c.loseWrite ch q) := by
  unfold Chip.loseWrite
  exact .ite (within_onHbm ..).mono (.refl _ _)

theorem within_showQueued (c : Chip) (r : Nat) : Within [.regs] c (c.showQueued r) := by
  unfold Chip.showQueued
  exact (within_putF ..).mono

theorem within_failQueue (c : Chip) (ch : Nat) : Within [.regs, .hbm] c (c.failQueue ch) := by
  unfold Chip.failQueue
  extract_lets mine gone c1 c2
  have hc1 : Within [.regs, .hbm] c c1 := (within_onHbm ..).mono
  have hc2 : Within [.regs, .hbm] c c2 := .foldl hc1 fun _ _ => (within_loseWrite ..).mono
  exact .foldl hc2 fun _ _ => (within_showQueued ..).mono

theorem within_portCheck (c : Chip) (p : Nat) :
    Within [.regs, .dram, .hostMem, .sfl, .lanes, .ports, .pkts, .pattern, .tm, .sched, .tel, .host, .flow, .gang, .act] c
      (c.portCheck p) := by
  unfold Chip.portCheck
  exact (Within.foldl (.refl _ _) fun _ _ => (within_laneCheck ..).mono).andThen (within_portEval ..)

theorem within_drainUnit (c : Chip) (n : Nat) :
    Within [.regs, .dram, .hostMem, .sfl, .lanes, .ports, .pkts, .pattern, .tm, .sched, .hbm, .tel, .host, .flow, .gang, .act]
      c (c.drainUnit n) := by
  unfold Chip.drainUnit
  extract_lets i lanes ports c1 c2 c3
  have hc1 : Within [.regs, .dram, .hostMem, .sfl, .lanes, .ports, .pkts, .pattern, .tm, .sched,
    Part.hbm, .tel, .host, .flow, .gang, .act] c c1 := .foldl (.refl _ _) fun _ _ => (within_bathCut ..).mono
  have hc2 : Within [.regs, .dram, .hostMem, .sfl, .lanes, .ports, .pkts, .pattern, .tm, .sched,
    Part.hbm, .tel, .host, .flow, .gang, .act] c c2 :=
      .foldl hc1 fun _ _ => (.foldl (.refl _ _) fun _ _ => (within_queueDropped ..).mono)
  have hc3 : Within [.regs, .dram, .hostMem, .sfl, .lanes, .ports, .pkts, .pattern, .tm, .sched,
    Part.hbm, .tel, .host, .flow, .gang, .act] c c3 := .ite (hc2.andThen (within_siteGo ..)) hc2
  split
  · exact .foldl (.foldl (.refl _ _) fun _ _ => (within_laneCheck ..).mono) fun _ _ => (within_portEval ..).mono
  · exact .foldl (.foldl hc3 fun _ _ => (within_laneCheck ..).mono) fun _ _ => (within_portCheck ..).mono
  · refine .foldl ?_ fun d x => ?_
    · exact .refl _ _
    · extract_lets p
      split
      · split
        · exact .ite (within_bathCut ..).mono (.refl _ _)
        · exact .refl _ _
      · exact .refl _ _
  · exact (within_dropQueues ..).mono
  · exact .ite (within_failQueue ..).mono (((((within_failQueue ..).mono.andThen (within_setPd ..)).andThen
      (within_setPd ..)).andThen (within_putF ..)).andThen (within_condEv ..))
  · exact (within_bankEmptied ..).mono
  · exact .refl _ _

theorem within_startDrain (c : Chip) (n : Nat) (late : Bool) :
    Within [.regs, .dram, .hostMem, .time, .sfl, .lanes, .ports, .pkts, .pattern, .tm, .sched, .hbm, .tel, .host, .flow,
      .gang, .act, .plate] c (c.startDrain n late) := by
  unfold Chip.startDrain
  extract_lets c1 _ _ c2
  have hc1 : Within [.regs, .dram, .hostMem, .time, .sfl, .lanes, .ports, .pkts, .pattern, .tm,
    .sched, .hbm, .tel, .host, .flow, .gang, .act, .plate] c c1 := (within_putQ ..).mono.andThen (within_putF ..)
  have hc2 : Within [.regs, .dram, .hostMem, .time, .sfl, .lanes, .ports, .pkts, .pattern, .tm,
    .sched, .hbm, .tel, .host, .flow, .gang, .act, .plate] c c2 := hc1.parts [.time, .plate]
  exact hc2.andThen (within_drainUnit ..)

theorem within_bathTake (c : Chip) (unit inst : Nat) (source : Bool) (cls : Option TimeClass) (t : Nat) :
    Within [.regs, .dram, .hostMem, .time, .sfl, .lanes, .ports, .pkts, .pattern, .tm, .sched, .hbm, .tel, .host, .flow,
      .gang, .act, .plate] c (c.bathTake unit inst source cls t) := by
  unfold Chip.bathTake
  extract_lets n c1 c2
  have hc1 : Within [.regs, .dram, .hostMem, .time, .sfl, .lanes, .ports, .pkts, .pattern, .tm,
    Part.sched, .hbm, .tel, .host, .flow, .gang, .act, .plate] c c1 := (within_putF ..).mono
  have hc2 : Within [.regs, .dram, .hostMem, .time, .sfl, .lanes, .ports, .pkts, .pattern, .tm,
    Part.sched, .hbm, .tel, .host, .flow, .gang, .act, .plate] c c2 := hc1.andThen (within_putF ..)
  split
  · exact ((hc2.andThen (within_putQ ..)).andThen (within_putF ..)).andThen (within_finish ..)
  · exact (hc2.andThen (within_startDrain ..)).andThen (within_finish ..)
  · exact (hc2.andThen (within_startDrain ..)).andThen (within_finish ..)

theorem within_stopBath (c : Chip) (unit inst : Nat) (source timed : Bool) :
    Within [.regs, .dram, .hostMem, .time, .sfl, .lanes, .ports, .pkts, .pattern, .tm, .sched, .hbm, .tel, .host, .flow,
      .gang, .act, .plate] c (c.stopBath unit inst source timed) := by
  unfold Chip.stopBath
  exact .command (.refl _ _) fun _ => (.ite (within_finish ..).mono
    (.ite ((within_loadStatus ..).mono.andThen (within_finish ..))
      (.ite ((within_deniedCapture ..).mono.andThen (within_finish ..))
        (.ite (within_finish ..).mono (.ite (within_finish ..).mono
          (.ite (within_finish ..).mono (within_bathTake ..).mono))))))

theorem within_verify (c : Chip) : Within [.regs, .hostMem, .power, .mgt, .sfl, .host, .plate] c c.verify := by
  unfold Chip.verify
  refine .command ?_ fun d => ?_
  · exact .refl _ _
  · refine .ite ?_ ?_
    · exact (within_finish ..).mono
    · extract_lets img
      split
      · rename_i d1 heq
        have hd1 : Within [.regs, .hostMem, .power, .mgt, .sfl, .host, .plate] d d1 := .of_snd heq (within_checkPlate ..).mono
        exact hd1.andThen (within_finish ..)
      · rename_i d1 heq
        have hd1 : Within [.regs, .hostMem, .power, .mgt, .sfl, .host, .plate] d d1 := .of_snd heq (within_checkPlate ..).mono
        exact .ite (hd1.andThen (within_finish ..)) (((hd1.plate _).andThen (within_showPending ..)).andThen (within_finish ..))

theorem within_writeSlot (c : Chip) (b : Bool) : Within [.regs, .hostMem, .host, .plate] c (c.writeSlot b) := by
  unfold Chip.writeSlot
  refine .command ?_ fun d => ?_
  · exact .refl _ _
  · split
    · exact (within_finish ..).mono
    · exact .ite (within_finish ..).mono ((within_putF ..).mono.plate _)

theorem within_glbWritten (c : Chip) (b v : Nat) :
    Within [.regs, .dram, .hostMem, .freeCtr, .power, .flash, .time, .mgt, .sfl, .lanes, .ports, .sites, .pkts, .parse,
      .rules, .tern, .pattern, .tm, .sched, .hbm, .tel, .host, .flow, .gang, .act, .wds, .plate, .recov] c (c.glbWritten b v)
        := by
  unfold Chip.glbWritten
  refine .ite ?_ ?_
  · exact .ite (within_recoveryGo ..).mono (.refl _ _)
  · refine .ite ?_ ?_
    · split
      · exact (within_verify ..).mono
      · exact (within_writeSlot ..).mono
      · exact (within_selectBoot ..).mono
      · exact (within_stopBath ..).mono.andThen (within_flush ..)
      · exact (within_adopt ..).mono
      · exact (within_abandonPlate ..).mono
      · exact (within_freeMasks ..).mono.andThen (within_loadStaged ..)
      · exact (within_cancelBath ..).mono
      · exact .command (.refl _ _) fun _ => (within_finish ..).mono
    · exact .refl _ _

theorem within_fence (c : Chip) (mask : Nat) : Within [.regs, .hbm] c (c.fence mask) := by
  unfold Chip.fence
  exact .ite (.refl _ _) (((within_putF ..).mono.andThen (within_putF ..)).andThen (within_onHbm ..))

theorem within_releaseCh (c : Chip) (ch : Nat) (ok : Bool) : Within [.regs, .hbm] c (c.releaseCh ch ok) := by
  unfold Chip.releaseCh
  exact .ite (.refl _ _) (.ite ((((within_onHbm ..).mono.andThen (within_putF ..)).andThen (within_sink ..)).andThen
    (within_tryPending ..)) (within_putF ..).mono)

theorem within_hostRelease (c : Chip) (ch : Nat) (ok : Bool) : Within [.regs, .hbm] c (c.hostRelease ch ok) := by
  unfold Chip.hostRelease
  exact .ite (.refl _ _) (within_releaseCh ..).mono

theorem within_rateWant (c : Chip) (s rate : Nat) : Within [.regs, .hbm] c (c.rateWant s rate) := by
  unfold Chip.rateWant
  exact .ite (.ite (.refl _ _) ((within_putF ..).mono.andThen (within_putF ..))) (.ite (.refl _ _) (within_startChange ..).mono)

theorem within_rateChange (c : Chip) (s rate : Nat) : Within [.regs, .hbm] c (c.rateChange s rate) := by
  unfold Chip.rateChange
  extract_lets c1
  have hc1 : Within [.regs, .hbm] c c1 := (within_putF ..).mono
  exact .ite hc1 (hc1.andThen (within_rateWant ..))

theorem within_hbmWritten (c : Chip) (r : RegAt) (b v : Nat) : Within [.regs, .freeCtr, .hbm, .tel] c (c.hbmWritten r b v) := by
  unfold Chip.hbmWritten
  exact .ite (.ite (within_fence ..).mono (.refl _ _)) (.ite (.ite
    ((within_rateChange ..).mono.andThen (within_trainStack ..)) (within_rateChange ..).mono)
      (.ite (.ite ((within_useFree ..).mono.andThen (within_hostRelease ..)) (.refl _ _)) (.refl _ _)))

theorem within_doorbell (c : Chip) (n tail : Nat) : Within [.regs, .hostMem, .host] c (c.doorbell n tail) := by
  unfold Chip.doorbell
  exact .ite (within_hostErr ..).mono (within_putF ..).mono

/-- What every rail but the always-on domain's leaves when it goes off (R544). -/
abbrev Part.railParts : List Part :=
  [.regs, .wideCap, .wideStage, .dram, .time, .mgt, .lanes, .ports, .sites, .pkts, .parse,
    .rules, .tern, .pattern, .tm, .sched, .hbm, .tel, .host, .flow, .gang, .act, .wds, .plate, .recov]

theorem filterMap_ite {α : Type} (p : α → Prop) [DecidablePred p] (l : List α) :
    l.filterMap (fun e => if p e then some e else none) = l.filter (p ·) := by
  rw [← List.filterMap_eq_filter]
  simp only [Option.guard_def, decide_eq_true_eq]

theorem within_cold (c : Chip) : Within Part.railParts c c.cold := by
  unfold Chip.cold
  extract_lets keep r m h k k1
  have hk : Within Part.railParts c k := (Within.refl _ _).parts Part.railParts
    (hregs := fun h => by
      rw [show k.regs = c.regs.filterMap keep from rfl, filterMap_ite]
      exact smFilter_wf _ h)
    (hdram := fun _ => smWf_nil _)
  exact .foldl (hk.andThen (within_putF ..)) fun _ _ => .ite (within_putF ..).mono (.refl _ _)

theorem within_start (c : Chip) (why : Nat) : Within (.hostMem :: .power :: Part.railParts) c (c.start why) := by
  unfold Chip.start
  extract_lets k p k1 t k2 k3 k4
  have hk : Within (.hostMem :: .power :: Part.railParts) c k := (within_cold ..).mono
  have hk1 : Within (.hostMem :: .power :: Part.railParts) c k1 := hk.power id
  have hk2 : Within (.hostMem :: .power :: Part.railParts) c k2 := hk1.time _
  have hk3 : Within (.hostMem :: .power :: Part.railParts) c k3 := (hk2.andThen (within_putQ ..)).andThen (within_putF ..)
  have hk4 : Within (.hostMem :: .power :: Part.railParts) c k4 :=
    .foldl hk3 fun _ _ => .ite (within_raise ..).mono (.refl _ _)
  exact hk4.andThen (within_log ..)

theorem within_deviceReset (c : Chip) :
    Within [.regs, .wideCap, .wideStage, .dram, .hostMem, .power, .time, .mgt, .lanes, .ports, .sites, .pkts, .parse, .rules,
      .tern, .pattern, .tm, .sched, .hbm, .tel, .host, .flow, .gang, .act, .wds, .plate, .recov] c c.deviceReset := by
  unfold Chip.deviceReset
  extract_lets link
  exact (within_start ..).mono.andThen (within_wr ..)

theorem within_resetWrite (c : Chip) (key : Nat) :
    Within [.regs, .wideCap, .wideStage, .dram, .hostMem, .power, .time, .mgt, .sfl, .lanes, .ports, .sites, .pkts, .parse,
      .rules, .tern, .pattern, .tm, .sched, .hbm, .tel, .host, .flow, .gang, .act, .wds, .plate, .recov] c (c.resetWrite key)
        := by
  unfold Chip.resetWrite
  exact .ite (.refl _ _) (.ite ((within_deniedCapture ..).mono.andThen (within_hostErr ..)) (within_deviceReset ..).mono)

theorem within_stopRing (c : Chip) (n : Nat) : Within [.regs, .hostMem, .host] c (c.stopRing n) := by
  unfold Chip.stopRing
  exact ((within_closeBuf ..).mono.andThen (within_putF ..)).andThen (within_putF ..)

theorem within_ringEnable (c : Chip) (n : Nat) (b : Bool) : Within [.regs, .hostMem, .host] c (c.ringEnable n b) := by
  unfold Chip.ringEnable
  exact .ite (within_stopRing ..).mono (.ite (.refl _ _) ((((within_putF ..).mono.andThen (within_putF ..)).andThen
    (within_putF ..)).andThen (within_setRing ..)))

theorem within_twFlow (c : Chip) (w op : Nat) : Within [.regs, .hostMem, .host, .act] c (c.twFlow w op) := by
  unfold Chip.twFlow
  extract_lets d key h1 o c1
  have hc1 : Within [.regs, .hostMem, .host, .act] c c1 := (within_putF ..).mono
  exact .ite (within_twDone ..).mono (hc1.parts [.host, .act])

theorem within_twEntry (c : Chip) (t i : Nat) : Within [.freeCtr] c (c.twEntry t i).2 := by
  unfold Chip.twEntry
  split
  · exact .snd_mk (.refl _ _)
  · exact .snd_mk (.refl _ _)
  · split
    · exact .snd_mk (.refl _ _)
    · split
      · exact .snd_mk (.refl _ _)
      · exact .snd_mk (within_useFree ..).mono
  · split
    · exact .snd_mk (.refl _ _)
    · exact .snd_mk (.refl _ _)
  · exact .snd_mk (.refl _ _)
  · exact .snd_mk (.refl _ _)
  · exact .snd_mk (.refl _ _)
  · exact .snd_mk (.refl _ _)
  · exact .snd_mk (.refl _ _)
  · exact .snd_mk (.refl _ _)
  · exact .snd_mk (.refl _ _)
  · exact .snd_mk (.refl _ _)
  · exact .snd_mk (.refl _ _)
  · exact .snd_mk (.refl _ _)
  · exact .snd_mk (.refl _ _)
  · exact .snd_mk (.refl _ _)
  · exact .snd_mk (.refl _ _)
  · exact .snd_mk (.refl _ _)
  · exact .snd_mk (.refl _ _)
  · exact .snd_mk (.refl _ _)

theorem within_twRead (c : Chip) (w t : Nat) (i n : Nat) : Within [.regs, .hostMem, .freeCtr, .host] c (c.twRead w t i n) := by
  unfold Chip.twRead
  split
  · rename_i d heq
    have hd : Within [.regs, .hostMem, .freeCtr, .host] c d := .of_snd heq (within_twEntry ..).mono
    exact (hd.andThen (within_putWords ..)).andThen (within_twDone ..)

theorem within_breakWatch (c : Chip) (own : Option Nat) (a n : Nat) : Within [.act] c (c.breakWatch own a n) := by
  unfold Chip.breakWatch
  extract_lets ls
  exact (Within.refl _ _).act _

theorem within_svcWrite (c : Chip) (t i : Nat) (d : Bytes) : Within [.dram, .flow, .act] c (c.svcWrite t i d) := by
  unfold Chip.svcWrite
  extract_lets a c1
  have hc1 : Within [.dram, .flow, .act] c c1 := (within_dramWrite ..).mono.andThen (within_breakWatch ..)
  split
  · exact hc1.andThen (within_onFlow ..)
  · exact hc1.andThen (within_onFlow ..)
  · exact hc1

theorem within_twStore (c : Chip) (t i : Nat) (d : Bytes) : Within [.dram, .tm, .sched, .flow, .act] c (c.twStore t i d) := by
  unfold Chip.twStore
  split
  · exact (within_onFlow ..).mono
  · exact (Within.refl _ _).act _
  · exact (Within.refl _ _).tm _
  · exact (Within.refl _ _).tm _
  · exact (Within.refl _ _).tm _
  · exact (Within.refl _ _).sched _
  · exact (Within.refl _ _).sched _
  · exact (Within.refl _ _).act _
  · exact (Within.refl _ _).act _
  · exact (within_svcWrite ..).mono
  · exact (within_svcWrite ..).mono
  · exact (within_svcWrite ..).mono
  · exact (within_svcWrite ..).mono
  · exact .refl _ _

theorem within_twWrite (c : Chip) (w t : Nat) (i n : Nat) :
    Within [.regs, .dram, .hostMem, .sfl, .tm, .sched, .host, .flow, .act] c (c.twWrite w t i n) := by
  unfold Chip.twWrite
  extract_lets d k d1
  split
  · exact (Within.ite (within_deniedCapture ..).mono (.refl _ _)).andThen (within_twDone ..)
  · exact .ite (((within_twStore ..).mono.andThen (within_putF ..)).andThen (within_twDone ..))
      ((within_twStore ..).mono.andThen (within_twDone ..))

theorem within_twCmd (c : Chip) (w op t : Nat) :
    Within [.regs, .dram, .hostMem, .freeCtr, .sfl, .tm, .sched, .host, .flow, .act] c (c.twCmd w op t) := by
  unfold Chip.twCmd
  refine .command ?_ fun d => ?_
  · exact .refl _ _
  · refine .ite ?_ ?_
    · exact (within_twDone ..).mono
    · split
      · exact (within_twDone ..).mono
      · extract_lets i
        exact .ite (within_twDone ..).mono (.ite (within_twDone ..).mono
          (.ite (within_twFlow ..).mono (.ite (within_twDone ..).mono
            (.ite (.ite (within_twDone ..).mono (within_twRead ..).mono) (within_twWrite ..).mono))))

theorem within_unmask (c : Chip) (v : Nat) : Within [.regs, .hostMem, .host] c (c.unmask v) := by
  unfold Chip.unmask
  extract_lets c1 w
  have hc1 : Within [.regs, .hostMem, .host] c c1 := (within_putF ..).mono
  exact .ite ((hc1.andThen (within_putF ..)).andThen (within_message ..)) hc1

theorem within_hstWritten (c : Chip) (r : RegAt) (b v : Nat) :
    Within [.regs, .wideCap, .wideStage, .dram, .hostMem, .freeCtr, .power, .time, .mgt, .sfl, .lanes, .ports, .sites, .pkts,
      .parse, .rules, .tern, .pattern, .tm, .sched, .hbm, .tel, .host, .flow, .gang, .act, .wds, .plate, .recov] c
        (c.hstWritten r b v) := by
  unfold Chip.hstWritten
  exact .ite (.ite ((within_putF ..).mono.andThen (within_unmask ..)) (within_putF ..).mono)
    (.ite (within_resetWrite ..).mono (.ite (within_ringEnable ..).mono
      (.ite (within_doorbell ..).mono (.ite ((within_twCmd ..).mono.andThen (within_flush ..)) (.refl _ _)))))

theorem within_bitslip (c : Chip) (l : Nat) : Within [.regs] c (c.bitslip l) := by
  unfold Chip.bitslip
  exact .ite (.refl _ _) (within_lput ..).mono

theorem within_capClear (c : Chip) (l : Nat) : Within [.regs] c (c.capClear l) := by
  unfold Chip.capClear
  exact ((within_lput ..).mono.andThen (within_lput ..)).andThen (within_lput ..)

theorem within_capture (c : Chip) (l w : Nat) : Within [.regs] c (c.capture l w) := by
  unfold Chip.capture
  exact (within_putWords ..).mono

theorem within_ffeWrite (c : Chip) (l v : Nat) : Within [.regs, .hostMem, .host] c (c.ffeWrite l v) := by
  unfold Chip.ffeWrite
  exact .ite (within_lraise ..).mono (within_lput ..).mono

theorem within_inject (c : Chip) (l : Nat) : Within [.regs] c (c.inject l) := by
  unfold Chip.inject
  exact (within_bumpWrap ..).mono

theorem within_restartOne (c : Chip) (l : Nat) :
    Within [.regs, .dram, .hostMem, .sfl, .lanes, .ports, .pkts, .pattern, .tm, .sched, .tel, .host, .flow, .gang, .act] c
      (c.restartOne l) := by
  unfold Chip.restartOne
  exact ((within_laneReason ..).mono.andThen (within_bringUp ..)).andThen (within_sendAbort ..)

theorem within_laneRestart (c : Chip) (l : Nat) :
    Within [.regs, .dram, .hostMem, .sfl, .lanes, .ports, .pkts, .pattern, .tm, .sched, .tel, .host, .flow, .gang, .act] c
      (c.laneRestart l) := by
  unfold Chip.laneRestart
  exact .ite (.refl _ _) (.foldl (.refl _ _) fun _ _ => (within_restartOne ..).mono)

theorem within_pcClear (c : Chip) (l : Nat) : Within [.regs] c (c.pcClear l) := by
  unfold Chip.pcClear
  exact (within_putQ ..).mono.andThen (within_putQ ..)

end Sys2Proof.Proofs
end

section
/-!
One lemma `within_<f>` for each function `f` of the model, in the order in which they use each other (4 of 6).
-/
namespace Sys2Proof.Proofs
open Sys2Proof Sys2Proof.Machine

-- Each default `by decide` of a helper waits for the kernel: one proof at a time bounds the threads that wait.
set_option Elab.async false

theorem within_pgEnable (c : Chip) (l : Nat) (b : Bool) :
    Within [.regs, .dram, .hostMem, .sfl, .lanes, .ports, .pkts, .pattern, .tm, .sched, .tel, .host, .flow, .gang, .act] c
      (c.pgEnable l b) := by
  unfold Chip.pgEnable
  extract_lets c1 st
  have hc1 : Within [.regs, .dram, .hostMem, .sfl, .lanes, .ports, .pkts, .pattern, .tm, .sched,
    Part.tel, .host, .flow, .gang, .act] c c1 := (within_lput ..).mono
  exact .ite (.ite hc1 (hc1.andThen (within_bringUp ..))) (.ite (hc1.andThen (within_bringUp ..)) hc1)

theorem within_resetAdapt (c : Chip) (l : Nat) : Within [.regs, .freeCtr, .lanes] c (c.resetAdapt l) := by
  unfold Chip.resetAdapt
  exact (within_onLane ..).mono.andThen (within_rxAdapted ..)

theorem within_retest (c : Chip) (l : Nat) :
    Within [.regs, .dram, .hostMem, .sfl, .lanes, .ports, .pkts, .pattern, .tm, .sched, .tel, .host, .flow, .gang, .act] c
      (c.retest l) := by
  unfold Chip.retest
  exact .ite (within_pinTest ..).mono (.refl _ _)

theorem within_laneWritten (c : Chip) (l b v : Nat) :
    Within [.regs, .dram, .hostMem, .freeCtr, .sfl, .lanes, .ports, .pkts, .pattern, .tm, .sched, .tel, .host, .flow, .gang,
      .act] c (c.laneWritten l b v) := by
  unfold Chip.laneWritten
  exact .ite (.ite ((Within.ite (((within_lput ..).mono.andThen (within_laneCheck ..)).andThen (within_capClear ..))
    ((within_lput ..).mono.andThen (within_laneCheck ..))).andThen (within_laneRestart ..))
      (.ite (((within_lput ..).mono.andThen (within_laneCheck ..)).andThen (within_capClear ..))
        ((within_lput ..).mono.andThen (within_laneCheck ..))))
          (.ite (within_ffeWrite ..).mono (.ite (.ite ((within_frozenShow ..).mono.andThen (within_resetAdapt ..))
            (within_frozenShow ..).mono) (.ite (within_pgEnable ..).mono
              (.ite (.ite (within_inject ..).mono (.refl _ _))
                (.ite (.ite (within_pcClear ..).mono (.refl _ _))
                  (.ite (.ite ((Within.ite (.refl _ _) (within_alignMode ..).mono).andThen (within_bitslip ..))
                    (.ite (.refl _ _) (within_alignMode ..).mono))
                      (.ite (.ite ((within_useFree ..).mono.andThen (within_capture ..)) (.refl _ _))
                        (.ite (.ite (within_retest ..).mono (.refl _ _)) (.refl _ _)))))))))

theorem within_gangItem (c : Chip) (ev dev : Nat) (slots : List Nat) : Within [.regs, .gang] c (c.gangItem ev dev slots) := by
  unfold Chip.gangItem
  exact .ite (.refl _ _) (.ite (within_bump ..).mono (within_onGang ..).mono)

theorem within_setMap (c : Chip) (m : List Nat) : Within [.regs] c (c.setMap m) := by
  unfold Chip.setMap
  exact (within_putWords ..).mono

theorem within_form (c : Chip) : Within [.regs, .hostMem, .host, .gang] c c.form := by
  unfold Chip.form
  exact .command (.refl _ _) fun _ => (.ite (within_finish ..).mono
    ((((((((within_setMap ..).mono.andThen (within_putF ..)).andThen (within_putF ..)).andThen (within_putF ..)).andThen
      (within_putF ..)).andThen (within_raise ..)).andThen (within_gangItem ..)).andThen (within_finish ..)))

theorem within_hpostEnd (c : Chip) (st : Nat) : Within [.regs, .hostMem, .host] c (c.hpostEnd st) := by
  unfold Chip.hpostEnd
  exact ((within_putF ..).mono.andThen (within_putF ..)).andThen (within_raiseDone ..)

theorem within_hpost (c : Chip) (q : Nat) (hash : Bool) : Within [.regs, .hostMem, .tel, .host, .wds] c (c.hpost q hash) := by
  unfold Chip.hpost
  extract_lets c1 i key i1 k
  have hc1 : Within [.regs, .hostMem, .tel, .host, .wds] c c1 := (within_putF ..).mono.andThen (within_putF ..)
  refine .ite ?_ ?_
  · exact hc1.andThen (within_hpostEnd ..)
  · refine .ite ?_ ?_
    · exact hc1.andThen (within_hpostEnd ..)
    · split
      · rename_i d heq
        have hd : Within [.regs, .hostMem, .tel, .host, .wds] c d := .of_snd heq (hc1.andThen (within_offer ..))
        exact hd.andThen (within_hpostEnd ..)
      · rename_i d _ heq
        have hd : Within [.regs, .hostMem, .tel, .host, .wds] c d := .of_snd heq (hc1.andThen (within_offer ..))
        exact hd.andThen (within_hpostEnd ..)

theorem within_join (c : Chip) : Within [.regs, .hostMem, .ports, .host, .gang] c c.join := by
  unfold Chip.join
  refine .command ?_ fun d => ?_
  · exact .refl _ _
  · refine .ite ?_ ?_
    · exact (within_finish ..).mono
    · split
      · exact (within_finish ..).mono
      · extract_lets c1
        have hc1 : Within [.regs, .hostMem, .ports, .host, .gang] d c1 := (within_putF ..).mono.andThen (within_onGang ..)
        split
        · exact hc1.andThen (within_ctrlTo ..)
        · exact hc1

theorem within_leaveGang (c : Chip) : Within [.regs, .hostMem, .ports, .host, .gang] c c.leaveGang := by
  unfold Chip.leaveGang
  exact .command (.refl _ _) fun _ => (.ite (within_finish ..).mono
    (.ite (within_finish ..).mono (.ite (((within_putF ..).mono.andThen (within_putF ..)).andThen (within_finish ..))
      (.ite (((within_putF ..).mono.andThen (within_onGang ..)).andThen (within_runLeave ..))
        ((within_putF ..).mono.andThen (within_onGang ..))))))

theorem within_mailbox (c : Chip) (oob : Option (Nat × Nat)) (op : Nat) (args : List Nat) :
    Within [.regs, .hostMem, .power, .flash, .mgt, .sfl, .host] c (c.mailbox oob op args).2 := by
  unfold Chip.mailbox
  extract_lets a bad ok es w
  split
  · exact .snd_mk (.refl _ _)
  · split
    · split
      · exact .snd_mk (within_deniedCapture ..).mono
      · split
        · exact .snd_mk (.refl _ _)
        · split
          · exact .snd_mk (.refl _ _)
          · exact .snd_mk (.refl _ _)
          · exact .snd_mk (.refl _ _)
          · exact .snd_mk (within_log ..).mono
          · exact .snd_mk ((Within.refl _ _).mgt _)
          · exact .snd_mk ((within_selectSlot ..).mono.andThen (within_log ..))
          · exact .snd_mk ((within_raiseFloor ..).mono.andThen (within_log ..))
    · split
      · exact .snd_mk (within_deniedCapture ..).mono
      · split
        · exact .snd_mk (.refl _ _)
        · split
          · exact .snd_mk (.refl _ _)
          · exact .snd_mk (.refl _ _)
          · exact .snd_mk (.refl _ _)
          · exact .snd_mk (within_log ..).mono
          · exact .snd_mk ((Within.refl _ _).mgt _)
          · exact .snd_mk ((within_selectSlot ..).mono.andThen (within_log ..))
          · exact .snd_mk ((within_raiseFloor ..).mono.andThen (within_log ..))

theorem within_mbxDone (c : Chip) (r : MbxAns) : Within [.regs, .hostMem, .host] c (c.mbxDone r) := by
  unfold Chip.mbxDone
  extract_lets c1 c2
  have hc1 : Within [.regs, .hostMem, .host] c c1 := (within_putF ..).mono
  have hc2 : Within [.regs, .hostMem, .host] c c2 := .foldl hc1 fun _ _ => (within_putF ..).mono
  exact (hc2.andThen (within_putWords ..)).andThen (within_finish ..)

theorem within_mpWake (c : Chip) : Within [.regs] c c.mpWake := by
  unfold Chip.mpWake
  exact .ite (within_putF ..).mono (.refl _ _)

theorem within_mbxCmd (c : Chip) (op : Nat) : Within [.regs, .hostMem, .power, .flash, .mgt, .sfl, .host] c (c.mbxCmd op) := by
  unfold Chip.mbxCmd
  refine .command ?_ fun d => ?_
  · exact .refl _ _
  · split
    · rename_i d1 heq
      have hd1 : Within [.regs, .hostMem, .power, .flash, .mgt, .sfl, .host] d d1 :=
        .of_snd heq ((within_mpWake ..).mono.andThen (within_mailbox ..))
      exact hd1.andThen (within_mbxDone ..)
    · rename_i d1 heq
      have hd1 : Within [.regs, .hostMem, .power, .flash, .mgt, .sfl, .host] d d1 :=
        .of_snd heq ((within_mpWake ..).mono.andThen (within_mailbox ..))
      exact hd1.andThen (within_putF ..)

theorem within_fwNone (c : Chip) : Within [.regs, .mgt] c c.fwNone := by
  unfold Chip.fwNone
  exact ((Within.refl _ _).mgt _).andThen (within_putF ..)

theorem within_fwStart (c : Chip) (b fallback : Bool) :
    Within [.regs, .hostMem, .power, .mgt, .host] c (c.fwStart b fallback) := by
  unfold Chip.fwStart
  extract_lets _ c1 c2
  have hc1 : Within [.regs, .hostMem, .power, .mgt, .host] c c1 := (Within.refl _ _).mgt _
  have hc2 : Within [.regs, .hostMem, .power, .mgt, .host] c c2 := (hc1.andThen (within_putF ..)).andThen (within_putF ..)
  exact .ite (((hc2.andThen (within_putF ..)).andThen (within_raise ..)).andThen (within_log ..)) hc2

theorem within_mpStart (c : Chip) : Within [.regs, .hostMem, .power, .mgt, .host] c c.mpStart := by
  unfold Chip.mpStart
  extract_lets c1
  have hc1 : Within [.regs, .hostMem, .power, .mgt, .host] c c1 := (within_putF ..).mono
  split
  · exact hc1.andThen (within_fwStart ..)
  · exact hc1.andThen (within_fwNone ..)

theorem within_schedReset (c : Chip) (t : Nat) : Within [.regs, .hostMem, .host, .gang] c (c.schedReset t).2 := by
  unfold Chip.schedReset
  extract_lets set
  split
  · exact .snd_mk (within_raise ..).mono
  · split
    · exact .snd_mk (.refl _ _)
    · exact .snd_mk (.refl _ _)
    · exact .snd_mk (within_onGang ..).mono
    · exact .snd_mk (within_onGang ..).mono

theorem within_resetAll (c : Chip) : Within [.regs, .hostMem, .ports, .host, .gang] c c.resetAll := by
  unfold Chip.resetAll
  refine .command ?_ fun d => ?_
  · exact .refl _ _
  · refine .ite ?_ ?_
    · exact (within_finish ..).mono
    · extract_lets t c1
      have hc1 : Within [.regs, .hostMem, .ports, .host, .gang] d c1 := .foldl (.refl _ _) fun _ _ => (within_ctrlTo ..).mono
      split
      · rename_i d1 heq
        have hd1 : Within [.regs, .hostMem, .ports, .host, .gang] d d1 := .of_snd heq (hc1.andThen (within_schedReset ..))
        exact hd1.andThen (within_finish ..)

theorem within_mgtWritten (c : Chip) (b v : Nat) :
    Within [.regs, .dram, .hostMem, .power, .flash, .mgt, .sfl, .ports, .pkts, .pattern, .tm, .tel, .host, .flow, .gang, .act,
      .wds] c (c.mgtWritten b v) := by
  unfold Chip.mgtWritten
  refine .ite ?_ ?_
  · exact .ite (within_mpStart ..).mono (.refl _ _)
  · refine .ite ?_ ?_
    · exact (within_mbxCmd ..).mono
    · refine .ite ?_ ?_
      · split
        · exact (within_form ..).mono.andThen (within_flush ..)
        · exact (within_join ..).mono
        · exact (within_leaveGang ..).mono.andThen (within_flush ..)
        · exact (within_resetAll ..).mono
        · exact .command (.refl _ _) fun _ => (within_finish ..).mono
      · exact .ite (.ite (within_hpost ..).mono (.refl _ _)) (.ite (.ite (within_onWds ..).mono (.refl _ _)) (.refl _ _))

theorem within_cvuRunWrite (c : Chip) (p dir v : Nat) : Within [.regs, .ports] c (c.cvuRunWrite p dir v) := by
  unfold Chip.cvuRunWrite
  extract_lets v1
  exact .ite (within_setPort ..).mono (within_putF ..).mono

theorem within_reform (c : Chip) (p : Nat) :
    Within [.regs, .dram, .hostMem, .sfl, .lanes, .ports, .pkts, .pattern, .tm, .sched, .tel, .host, .flow, .gang, .act] c
      (c.reform p) := by
  unfold Chip.reform
  exact .ite (.refl _ _) ((Within.foldl (within_setPort ..).mono fun _ _ =>
    (.ite (.refl _ _) (within_bringUp ..).mono)).andThen (within_portEval ..))

theorem within_siteCtrl (c : Chip) (m old : Nat) :
    Within [.regs, .dram, .hostMem, .sfl, .lanes, .ports, .sites, .pkts, .pattern, .tm, .sched, .tel, .host, .flow, .gang,
      .act] c (c.siteCtrl m old) := by
  unfold Chip.siteCtrl
  extract_lets new
  exact .ite (within_siteStart ..).mono (.ite (within_siteGo ..).mono
    (.ite ((within_admitPower ..).mono.andThen (within_sitePins ..)) (within_sitePins ..).mono))

theorem within_xferEnd (c : Chip) (m st : Nat) : Within [.regs, .hostMem, .sites, .host] c (c.xferEnd m st) := by
  unfold Chip.xferEnd
  extract_lets c1
  have hc1 : Within [.regs, .hostMem, .sites, .host] c c1 := (within_onSite ..).mono
  exact (((hc1.andThen (within_putF ..)).andThen (within_putF ..)).andThen (within_putF ..)).andThen (within_raise ..)

theorem within_xferGo (c : Chip) (m : Nat) (write : Bool) : Within [.regs, .hostMem, .sites, .host] c (c.xferGo m write) := by
  unfold Chip.xferGo
  exact .ite (.refl _ _) (.ite ((within_putF ..).mono.andThen (within_xferEnd ..))
    (((within_putF ..).mono.andThen (within_onSite ..)).andThen (within_putF ..)))

theorem within_prtWritten (c : Chip) (r : RegAt) (b old v : Nat) :
    Within [.regs, .dram, .hostMem, .sfl, .lanes, .ports, .sites, .pkts, .pattern, .tm, .sched, .tel, .host, .flow, .gang,
      .act] c (c.prtWritten r b old v) := by
  unfold Chip.prtWritten
  exact .ite (.ite (.refl _ _) (within_portCheck ..).mono) (.ite (.ite (within_reform ..).mono (.refl _ _))
    (.ite (within_cvuRunWrite ..).mono (.ite (.ite (within_xferGo ..).mono (.refl _ _))
      (.ite (within_siteCtrl ..).mono (.refl _ _)))))

theorem within_gateRegs (c : Chip) (p : Nat) : Within [.regs] c (c.gateRegs p) := by
  unfold Chip.gateRegs
  extract_lets g len c1 c2 c3 c4 c5 c6 c7
  have hc1 : Within [.regs] c c1 := (within_putQ ..).mono
  have hc2 : Within [.regs] c c2 := hc1.andThen (within_putF ..)
  have hc3 : Within [.regs] c c3 := (hc2.andThen (within_putF ..)).andThen (within_putF ..)
  have hc4 : Within [.regs] c c4 := hc3.andThen (within_putF ..)
  have hc5 : Within [.regs] c c5 := hc4.andThen (within_putF ..)
  have hc6 : Within [.regs] c c6 := hc5.andThen (within_putQ ..)
  have hc7 : Within [.regs] c c7 := .foldl hc6 fun _ _ => (within_putF ..).mono
  exact hc7.andThen (within_gateShow ..)

theorem within_setGate (c : Chip) (p : Nat) (g : GateSt) : Within [.sched] c (c.setGate p g) := by
  unfold Chip.setGate
  exact (Within.refl _ _).sched _

theorem within_gateCancel (c : Chip) (p : Nat) : Within [.regs, .time, .sched] c (c.gateCancel p) := by
  unfold Chip.gateCancel
  exact ((within_setGate ..).mono.time _).andThen (within_gateRegs ..)

theorem within_gateDone (c : Chip) (p st : Nat) : Within [.regs, .hostMem, .host] c (c.gateDone p st) := by
  unfold Chip.gateDone
  exact (within_putF ..).mono.andThen (within_raiseDone ..)

theorem within_gateCancelCmd (c : Chip) (p : Nat) : Within [.regs, .hostMem, .time, .sched, .host] c (c.gateCancelCmd p) := by
  unfold Chip.gateCancelCmd
  exact .ite (within_gateDone ..).mono ((within_gateCancel ..).mono.andThen (within_gateDone ..))

theorem within_gateStartCmd (c : Chip) (p : Nat) (oneshot : Bool) :
    Within [.regs, .hostMem, .freeCtr, .sched, .host] c (c.gateStartCmd p oneshot) := by
  unfold Chip.gateStartCmd
  extract_lets len ct es st bad c1
  have hc1 : Within [.regs, .hostMem, .freeCtr, .sched, .host] c c1 := .ite (within_useFree ..).mono (.refl _ _)
  split
  · exact (within_gateDone ..).mono
  · exact ((hc1.andThen (within_setGate ..)).andThen (within_gateRegs ..)).andThen (within_gateDone ..)

theorem within_gateOff (c : Chip) (p : Nat) : Within [.regs, .sched] c (c.gateOff p) := by
  unfold Chip.gateOff
  exact (within_setGate ..).mono.andThen (within_gateRegs ..)

theorem within_gateStopCmd (c : Chip) (p : Nat) : Within [.regs, .hostMem, .time, .sched, .host] c (c.gateStopCmd p) := by
  unfold Chip.gateStopCmd
  exact ((within_gateCancel ..).mono.andThen (within_gateOff ..)).andThen (within_gateDone ..)

theorem within_shaperWrite (c : Chip) (level n : Nat) (reg v : Nat) :
    Within [.regs, .sched] c (c.shaperWrite level n reg v) := by
  unfold Chip.shaperWrite
  split
  · exact .ite (.refl _ _) ((within_putF ..).mono.andThen (within_shaperReset ..))
  · exact .ite (.refl _ _) ((within_putF ..).mono.andThen (within_shaperReset ..))
  · exact (within_putF ..).mono.andThen (within_shaperReset ..)
  · exact (within_putF ..).mono.andThen (within_shaperReset ..)
  · extract_lets old cap w c1
    have hc1 : Within [.regs, .sched] c c1 := (within_putF ..).mono
    exact .ite hc1 (hc1.andThen (within_shaperReset ..))
  · exact (within_putF ..).mono.andThen (within_shaperReset ..)
  · exact (within_putF ..).mono.andThen (within_shaperReset ..)
  · extract_lets old w c1
    have hc1 : Within [.regs, .sched] c c1 := (within_putF ..).mono
    exact .ite hc1 (hc1.andThen (within_shaperReset ..))

theorem within_schWritten (c : Chip) (r : RegAt) (b v : Nat) :
    Within [.regs, .hostMem, .freeCtr, .time, .sched, .host] c (c.schWritten r b v) := by
  unfold Chip.schWritten
  refine .ite ?_ ?_
  · exact .setObs (.refl _ _) fun _ => (within_putF ..).mono
  · refine .ite ?_ ?_
    · exact (within_shaperWrite ..).mono
    · refine .ite ?_ ?_
      · exact (within_shaperWrite ..).mono
      · refine .ite ?_ ?_
        · exact (within_shaperWrite ..).mono
        · refine .ite ?_ ?_
          · exact (within_shaperWrite ..).mono
          · refine .ite ?_ ?_
            · exact (within_shaperWrite ..).mono
            · refine .ite ?_ ?_
              · exact (within_shaperWrite ..).mono
              · refine .ite ?_ ?_
                · exact (within_shaperWrite ..).mono
                · refine .ite ?_ ?_
                  · exact (within_shaperWrite ..).mono
                  · refine .ite ?_ ?_
                    · split
                      · exact (within_gateStartCmd ..).mono
                      · exact (within_gateCancelCmd ..).mono
                      · exact (within_gateStopCmd ..).mono
                      · exact (within_gateDone ..).mono
                    · exact .refl _ _

theorem within_evClear (c : Chip) (n : Nat) : Within [.regs] c (c.evClear n) := by
  unfold Chip.evClear
  exact (within_putQ ..).mono

theorem within_statsClear (c : Chip) (p : Nat) : Within [.regs] c (c.statsClear p) := by
  unfold Chip.statsClear
  exact .foldl (.refl _ _) fun _ _ => (within_putQ ..).mono

theorem within_telWritten (c : Chip) (r : RegAt) (b a : Nat) (old v : Nat) :
    Within [.regs, .tel] c (c.telWritten r b a old v) := by
  unfold Chip.telWritten
  exact .ite (within_onTel ..).mono (.ite (.ite (within_statsClear ..).mono (.refl _ _))
    (.ite (within_putF ..).mono (.ite (.ite (within_evClear ..).mono (.refl _ _))
      (.ite (within_putF ..).mono (.ite ((within_putF ..).mono.andThen (within_tsSeed ..))
        (.ite (.ite (within_putF ..).mono (.refl _ _)) (.ite (.ite (within_tsSeed ..).mono (.refl _ _)) (.refl _ _))))))))

theorem within_pfcJudge (c : Chip) (p : Nat) : Within [.regs, .hostMem, .tm, .tel, .host] c (c.pfcJudge p) := by
  unfold Chip.pfcJudge
  exact .foldl (.refl _ _) fun _ _ => (within_pfcEval ..).mono

theorem within_tmgWritten (c : Chip) (r : RegAt) (b : Nat) :
    Within [.regs, .hostMem, .tm, .tel, .host] c (c.tmgWritten r b) := by
  unfold Chip.tmgWritten
  exact .ite (within_pfcJudge ..).mono (.refl _ _)

theorem within_written (c : Chip) (r : RegAt) (a old v : Nat) :
    Within [.regs, .wideCap, .wideStage, .dram, .hostMem, .freeCtr, .power, .flash, .time, .mgt, .sfl, .lanes, .ports, .sites,
      .pkts, .parse, .rules, .tern, .pattern, .tm, .sched, .hbm, .tel, .host, .flow, .gang, .act, .wds, .plate, .recov] c
        (c.written r a old v) := by
  unfold Chip.written
  extract_lets b
  exact .ite (within_glbWritten ..).mono (.ite (within_laneWritten ..).mono
    (.ite (within_mgtWritten ..).mono (.ite (within_hstWritten ..).mono
      (.ite (within_telWritten ..).mono (.ite (within_laneWritten ..).mono
        (.ite (within_prtWritten ..).mono (.ite (within_clsWritten ..).mono
          (.ite (within_hbmWritten ..).mono (.ite (within_schWritten ..).mono (within_tmgWritten ..).mono)))))))))

theorem within_hostWord (c : Chip) (a : Nat) (v : Word) (hw : Nat) :
    Within [.regs, .wideCap, .wideStage, .dram, .hostMem, .freeCtr, .power, .flash, .time, .mgt, .sfl, .lanes, .ports, .sites,
      .pkts, .parse, .rules, .tern, .pattern, .tm, .sched, .hbm, .tel, .host, .flow, .gang, .act, .wds, .plate, .recov] c
        (c.hostWord a v hw) := by
  unfold Chip.hostWord
  split
  · exact .refl _ _
  · exact .ite (.ite (within_stageWord ..).mono (.refl _ _)) (.ite (within_storeWide ..).mono
      ((within_storeWord ..).mono.andThen (within_written ..)))

theorem within_incrWrite (c : Chip) (v : Nat) : Within [.regs, .time] c (c.incrWrite v) := by
  unfold Chip.incrWrite
  exact .ite (.refl _ _) ((within_putQ ..).mono.time _)

theorem within_pdelayWrite (c : Chip) (p v : Nat) : Within [.regs, .hostMem, .host] c (c.pdelayWrite p v) := by
  unfold Chip.pdelayWrite
  extract_lets old lim c1 diff
  have hc1 : Within [.regs, .hostMem, .host] c c1 := (within_putF ..).mono
  exact .ite (((hc1.andThen (within_putF ..)).andThen (within_raise ..)).andThen (within_putF ..)) hc1

theorem within_endSlew (c : Chip) : Within [.regs, .time] c c.endSlew := by
  unfold Chip.endSlew
  exact ((Within.refl _ _).time _).andThen (within_putF ..)

theorem within_setTimeValid (c : Chip) (b : Bool) : Within [.regs] c (c.setTimeValid b) := by
  unfold Chip.setTimeValid
  exact (within_putF ..).mono.andThen (within_putF ..)

theorem within_bathWithdraw (c : Chip) (n st : Nat) : Within [.regs] c (c.bathWithdraw n st) := by
  unfold Chip.bathWithdraw
  exact (within_putF ..).mono.andThen (within_putF ..)

theorem within_fixWithdraw (c : Chip) (st : Nat) : Within [.regs, .hostMem, .time, .rules, .host] c (c.fixWithdraw st) := by
  unfold Chip.fixWithdraw
  extract_lets held _ _ c1 c2
  have hc1 : Within [.regs, .hostMem, .time, .rules, .host] c c1 := (Within.refl _ _).parts [.time, .rules]
  have hc2 : Within [.regs, .hostMem, .time, .rules, .host] c c2 := (hc1.andThen (within_putF ..)).andThen (within_putF ..)
  exact ((hc2.andThen (within_putF ..)).andThen (within_syncRules ..)).andThen (within_raise ..)

theorem within_sactFinish (c : Chip) (n st : Nat) : Within [.regs] c (c.sactFinish n st) := by
  unfold Chip.sactFinish
  exact ((within_putF ..).mono.andThen (within_putF ..)).andThen (within_sink ..)

theorem within_withdraw (c : Chip) (x : PendAct) :
    Within [.regs, .hostMem, .time, .rules, .sched, .host, .gang] c (c.withdraw x) := by
  unfold Chip.withdraw
  split
  · exact (within_sactFinish ..).mono
  · exact (within_bathWithdraw ..).mono
  · exact (within_fixWithdraw ..).mono
  · exact (within_gateCancel ..).mono
  · exact (Within.refl _ _).gang _

theorem within_invalidateTime (c : Chip) :
    Within [.regs, .hostMem, .time, .rules, .sched, .host, .gang] c c.invalidateTime := by
  unfold Chip.invalidateTime
  extract_lets c1 c2
  have hc1 : Within [.regs, .hostMem, .time, .rules, .sched, .host, .gang] c c1 :=
    (within_setTimeValid ..).mono.andThen (within_endSlew ..)
  have hc2 : Within [.regs, .hostMem, .time, .rules, .sched, .host, .gang] c c2 :=
    .foldl hc1 fun _ _ => (within_withdraw ..).mono
  exact hc2.time _

theorem within_invalidate (c : Chip) : Within [.regs, .hostMem, .time, .rules, .sched, .host, .gang] c c.invalidate := by
  unfold Chip.invalidate
  exact .command (.refl _ _) fun _ => ((within_invalidateTime ..).mono.andThen (within_finish ..))

theorem within_sactWrite (c : Chip) (n st : Nat) :
    Within [.regs, .wideCap, .wideStage, .dram, .hostMem, .freeCtr, .power, .flash, .time, .mgt, .sfl, .lanes, .ports, .sites,
      .pkts, .parse, .rules, .tern, .pattern, .tm, .sched, .hbm, .tel, .host, .flow, .gang, .act, .wds, .plate, .recov] c
        (c.sactWrite n st) := by
  unfold Chip.sactWrite
  extract_lets a m v rw keep c1 c2 c3
  have hc1 : Within [.regs, .wideCap, .wideStage, .dram, .hostMem, .freeCtr, .power, .flash, .time,
    .mgt, .sfl, .lanes, .ports, .sites, .pkts, .parse, .rules, .tern, .pattern,
    .tm, .sched, .hbm, .tel, .host, .flow, .gang, .act, .wds, .plate, .recov] c c1 := (within_hostWord ..).mono
  have hc2 : Within [.regs, .wideCap, .wideStage, .dram, .hostMem, .freeCtr, .power, .flash, .time,
    .mgt, .sfl, .lanes, .ports, .sites, .pkts, .parse, .rules, .tern, .pattern,
    .tm, .sched, .hbm, .tel, .host, .flow, .gang, .act, .wds, .plate, .recov] c c2 :=
      ((hc1.andThen (within_sactFinish ..)).andThen (within_raise ..)).andThen (within_signal ..)
  have hc3 : Within [.regs, .wideCap, .wideStage, .dram, .hostMem, .freeCtr, .power, .flash, .time,
    .mgt, .sfl, .lanes, .ports, .sites, .pkts, .parse, .rules, .tern, .pattern,
    .tm, .sched, .hbm, .tel, .host, .flow, .gang, .act, .wds, .plate, .recov] c c3 := .ite (hc2.andThen (within_raise ..)) hc2
  exact hc3.time _

theorem within_sched1 (c : Chip) (n : Nat) :
    Within [.regs, .wideCap, .wideStage, .dram, .hostMem, .freeCtr, .power, .flash, .time, .mgt, .sfl, .lanes, .ports, .sites,
      .pkts, .parse, .rules, .tern, .pattern, .tm, .sched, .hbm, .tel, .host, .flow, .gang, .act, .wds, .plate, .recov] c
        (c.sched1 n) := by
  unfold Chip.sched1
  refine .command (.refl _ _) fun d => ?_
  extract_lets a m cls c1
  have hc1 : Within [.regs, .wideCap, .wideStage, .dram, .hostMem, .freeCtr, .power, .flash, .time, .mgt, .sfl, .lanes,
    .ports, .sites, .pkts, .parse, .rules, .tern, .pattern, .tm, .sched, .hbm, .tel, .host, .flow, .gang, .act, .wds, .plate,
      .recov] d c1 := (within_putF ..).mono.andThen (within_bump ..)
  clear_value cls
  refine .ite (within_finish ..).mono (.ite (within_finish ..).mono ?_)
  split
  · exact (within_finish ..).mono
  · exact (within_finish ..).mono
  · exact (hc1.andThen (within_sactWrite ..)).andThen (within_finish ..)
  · exact (hc1.andThen (within_sactWrite ..)).andThen (within_finish ..)
  · exact hc1.andThen (within_finish ..)

theorem within_slewCmd (c : Chip) : Within [.regs, .hostMem, .time, .host] c c.slewCmd := by
  unfold Chip.slewCmd
  exact .command (.refl _ _) fun _ => (.ite (within_finish ..).mono
    (.ite (within_finish ..).mono ((((Within.refl _ _).time _).andThen (within_putF ..)).andThen (within_finish ..))))

theorem within_timSetCmd (c : Chip) : Within [.regs, .hostMem, .time, .host] c c.timSetCmd := by
  unfold Chip.timSetCmd
  exact .command (.refl _ _) fun _ => (.ite (within_finish ..).mono ((within_putF ..).mono.time _))

theorem within_timStepCmd (c : Chip) : Within [.regs, .hostMem, .time, .host] c c.timStepCmd := by
  unfold Chip.timStepCmd
  exact .command (.refl _ _) fun _ => (.ite (within_finish ..).mono ((within_putF ..).mono.time _))

theorem within_unsched (c : Chip) (n : Nat) : Within [.regs, .hostMem, .time, .host] c (c.unsched n) := by
  unfold Chip.unsched
  exact .command (.refl _ _) fun _ => (.ite ((((((Within.refl _ _).time _).andThen (within_putF ..)).andThen
    (within_putF ..)).andThen (within_sink ..)).andThen (within_finish ..)) (within_finish ..).mono)

theorem within_timCommand (c : Chip) (v : Nat) :
    Within [.regs, .wideCap, .wideStage, .dram, .hostMem, .freeCtr, .power, .flash, .time, .mgt, .sfl, .lanes, .ports, .sites,
      .pkts, .parse, .rules, .tern, .pattern, .tm, .sched, .hbm, .tel, .host, .flow, .gang, .act, .wds, .plate, .recov] c
        (c.timCommand v) := by
  unfold Chip.timCommand
  split
  · exact (within_timSetCmd ..).mono
  · exact (within_timStepCmd ..).mono
  · exact (within_invalidate ..).mono
  · exact (within_slewCmd ..).mono
  · exact (within_sched1 ..).mono
  · exact (within_unsched ..).mono
  · exact .command (.refl _ _) fun _ => (within_finish ..).mono

theorem within_timWord (c : Chip) (a : Nat) (v : Word) (hw : Nat) :
    Within [.regs, .wideCap, .wideStage, .dram, .hostMem, .freeCtr, .power, .flash, .time, .mgt, .sfl, .lanes, .ports, .sites,
      .pkts, .parse, .rules, .tern, .pattern, .tm, .sched, .hbm, .tel, .host, .flow, .gang, .act, .wds, .plate, .recov] c
        (c.timWord a v hw) := by
  unfold Chip.timWord
  refine .ite ?_ ?_
  · exact (within_incrWrite ..).mono.andThen (within_unstage ..)
  · refine .ite ?_ ?_
    · exact (within_timCommand ..).mono
    · split
      · exact .ite (within_pdelayWrite ..).mono (within_hostWord ..).mono
      · exact .refl _ _

theorem within_bar0Write (c : Chip) (a0 : Nat) (v : Word) (hw : Nat) :
    Within [.regs, .wideCap, .wideStage, .dram, .hostMem, .freeCtr, .power, .flash, .time, .mgt, .sfl, .lanes, .ports, .sites,
      .pkts, .parse, .rules, .tern, .pattern, .tm, .sched, .hbm, .tel, .host, .flow, .gang, .act, .wds, .plate, .recov] c
        (c.bar0Write a0 v hw) := by
  unfold Chip.bar0Write
  extract_lets a
  exact .ite (within_denied ..).mono (.ite (within_timWord ..).mono (within_hostWord ..).mono)

theorem within_bar2Read (c : Chip) (o n : Nat) : Within [.freeCtr, .rdData, .host] c (c.bar2Read o n) := by
  unfold Chip.bar2Read
  extract_lets a free bs _ c1
  have hc1 : Within [.freeCtr, .rdData, .host] c c1 := (Within.refl _ _).parts [.rdData, .host]
  exact .ite (hc1.andThen (within_useFree ..)) hc1

theorem within_bar2Byte (c : Chip) (o : Nat) (b : Byte) : Within [.regs, .dram, .hostMem, .host] c (c.bar2Byte o b) := by
  unfold Chip.bar2Byte
  extract_lets a
  exact .ite (within_hostErr ..).mono (.ite (within_hostErr ..).mono (within_dramWrite ..).mono)

theorem within_bar2Bytes (c : Chip) (o : Nat) (bs : Bytes) (en : List Bool) :
    Within [.regs, .dram, .hostMem, .host] c (c.bar2Bytes o bs en) := by
  induction bs generalizing c o en with
  | nil => exact .refl _ _
  | cons b bs ih => exact (Within.ite (within_bar2Byte ..).mono (.refl _ _)).andThen (ih ..)

theorem within_bar2Write (c : Chip) (o : Nat) (bs : Bytes) (en : List Bool) :
    Within [.regs, .dram, .hostMem, .host, .act] c (c.bar2Write o bs en) := by
  unfold Chip.bar2Write
  exact (within_bar2Bytes ..).mono.andThen (within_breakWatch ..)

theorem within_stopRings (c : Chip) : Within [.regs, .hostMem, .host] c c.stopRings := by
  unfold Chip.stopRings
  exact .foldl (.refl _ _) fun _ _ => (.ite (within_stopRing ..).mono (.refl _ _))

theorem within_cadd (c : Chip) (x : Nat) : Within [.regs, .hostMem, .ports, .tel, .host, .flow, .gang, .act] c (c.cadd x) := by
  unfold Chip.cadd
  exact (within_runUnit ..).mono

theorem within_kCanon (c : Chip) (x : Nat) :
    Within [.regs, .hostMem, .ports, .tel, .host, .flow, .gang, .act] c (c.kCanon x) := by
  unfold Chip.kCanon
  exact (within_runUnit ..).mono

theorem within_capSet (c : Chip) (l : Nat) (g : SetGroups) :
    Within [.regs, .dram, .hostMem, .sfl, .lanes, .ports, .pkts, .pattern, .tm, .sched, .tel, .host, .flow, .gang, .act] c
      (c.capSet l g) := by
  unfold Chip.capSet
  split
  · exact .refl _ _
  · refine .ite ?_ ?_
    · exact .refl _ _
    · extract_lets c1 c2
      have hc1 : Within [.regs, .dram, .hostMem, .sfl, .lanes, .ports, .pkts, .pattern, .tm, .sched,
        Part.tel, .host, .flow, .gang, .act] c c1 := (within_putWords ..).mono
      have hc2 : Within [.regs, .dram, .hostMem, .sfl, .lanes, .ports, .pkts, .pattern, .tm, .sched,
        Part.tel, .host, .flow, .gang, .act] c c2 := (hc1.andThen (within_lput ..)).andThen (within_lput ..)
      refine .ite ?_ ?_
      · exact hc2.andThen (within_laneFail ..)
      · split
        · exact hc2.andThen (within_laneFail ..)
        · exact ((hc2.andThen (within_lput ..)).andThen (within_onLane ..)).andThen (within_s0Check ..)

theorem within_lcount (c : Chip) (l : Nat) (f : Fld) (n : Nat) : Within [.regs] c (c.lcount l f n) := by
  unfold Chip.lcount
  exact (within_bumpQ ..).mono

theorem within_lockLost (c : Chip) (l bits errs : Nat) : Within [.regs, .hostMem, .host] c (c.lockLost l bits errs) := by
  unfold Chip.lockLost
  exact .ite (.refl _ _) (((((within_lcount ..).mono.andThen (within_lcount ..)).andThen (within_lput ..)).andThen
    (within_lput ..)).andThen (within_lraise ..))

theorem within_countAnom (c : Chip) (p : Pkt) : Within [.regs, .hostMem, .host] c (c.countAnom p) := by
  unfold Chip.countAnom
  extract_lets s c1 c2 c3 c4 c5 c6 c7
  have hc1 : Within [.regs, .hostMem, .host] c c1 := .ite (within_bump ..).mono (.refl _ _)
  have hc2 : Within [.regs, .hostMem, .host] c c2 := .ite (hc1.andThen (within_bump ..)) hc1
  have hc3 : Within [.regs, .hostMem, .host] c c3 := .ite (hc2.andThen (within_bump ..)) hc2
  have hc4 : Within [.regs, .hostMem, .host] c c4 := .ite (hc3.andThen (within_bump ..)) hc3
  have hc5 : Within [.regs, .hostMem, .host] c c5 := (hc4.andThen (within_putF ..)).andThen (within_putF ..)
  have hc6 : Within [.regs, .hostMem, .host] c c6 := hc5.andThen (within_putF ..)
  have hc7 : Within [.regs, .hostMem, .host] c c7 := (hc6.andThen (within_putF ..)).andThen (within_putF ..)
  exact .ite (.refl _ _) ((hc7.andThen (within_raise ..)).andThen (within_signal ..))

theorem within_chain (c : Chip) (p : Pkt) (v n r : Nat) (x : ClsRes) : Within [.regs] c (c.chain p v n r x).1 := by
  induction n generalizing c r x with
  | zero => exact (within_bump ..).mono
  | succ n ih =>
    unfold Chip.chain
    split
    · exact (within_bump ..).mono
    · extract_lets hit c1 c2 first c3 c4
      have h2 : Within [.regs] c c2 := .ite ((within_signal ..).mono.andThen (within_signal ..)) (within_signal ..).mono
      have h3 : Within [.regs] c c3 := .ite (h2.andThen (within_bump ..)) h2
      have h4 : Within [.regs] c c4 := .ite (h3.andThen (within_signal ..)) h3
      split
      · exact h4
      · split
        · exact h4
        · exact h4.andThen (ih ..)

theorem within_lookups (c : Chip) (p : Pkt) (v : Nat) : Within [.regs] c (c.lookups p v).1 := by
  unfold Chip.lookups
  split
  · exact .fst_mk (.refl _ _)
  · split
    · rename_i d _ heq
      have hd : Within [.regs] c d := .of_fst heq (within_chain ..).mono
      extract_lets x
      split
      · exact .fst_mk (hd.andThen (within_bump ..))
      · exact .fst_mk hd

theorem within_noOpFallback (c : Chip) (pid : Nat) (t : Bytes) :
    Within [.regs, .hostMem, .sfl, .pkts, .pattern, .tm, .tel, .host] c (c.noOpFallback pid t) := by
  unfold Chip.noOpFallback
  split
  · exact (within_dropVerdict ..).mono
  · exact (within_punt ..).mono
  · exact (within_goOn ..).mono

theorem within_police (c : Chip) (m len : Nat) : Within [.sched] c (c.police m len).2 := by
  unfold Chip.police
  split
  · exact .snd_mk (.refl _ _)
  · split
    · extract_lets cnt up cnt1 acts
      exact .snd_mk ((Within.refl _ _).sched _)

theorem within_selectScan (c : Chip) (x : ClsRes) : Within [.regs] c (c.selectScan x).2 := by
  unfold Chip.selectScan
  split
  · exact .snd_mk (.refl _ _)
  · split
    · exact .snd_mk (.refl _ _)
    · exact .snd_mk (within_bump ..).mono

theorem within_classifyAs (c : Chip) (pid : Nat) (p : Pkt) (v : Nat) :
    Within [.regs, .hostMem, .sfl, .pkts, .pattern, .tm, .sched, .tel, .host] c (c.classifyAs pid p v) := by
  unfold Chip.classifyAs
  extract_lets p1
  split
  next d x heq =>
  have hd : Within [.regs, .hostMem, .sfl, .pkts, .pattern, .tm, .sched, .tel, .host] c d :=
    .of_fst heq ((within_setPkt ..).mono.andThen (within_lookups ..))
  extract_lets acts anom c1 p2
  have hc1 : Within [.regs, .hostMem, .sfl, .pkts, .pattern, .tm, .sched, .tel, .host] c c1 := hd.andThen (within_countAnom ..)
  split
  next e hpol =>
  have he : Within [.regs, .hostMem, .sfl, .pkts, .pattern, .tm, .sched, .tel, .host] c e := .of_snd hpol (by
    split
    · exact hc1.andThen (within_police ..)
    · exact hc1)
  extract_lets p3 c2
  have hc2 : Within [.regs, .hostMem, .sfl, .pkts, .pattern, .tm, .sched, .tel, .host] c c2 :=
    (he.andThen (within_setPkt ..)).andThen (within_stampStrip ..)
  split
  · exact hc2.andThen (within_dropVerdict ..)
  · exact hc2.andThen (within_punt ..)
  · split
    next f hscan =>
    extract_lets g c3
    have hc3 : Within [.regs, .hostMem, .sfl, .pkts, .pattern, .tm, .sched, .tel, .host] c c3 :=
      (Within.of_snd hscan (hc2.andThen (within_selectScan ..))).andThen (within_updPkt ..)
    split
    · exact hc3.andThen (within_goOn ..)
    · refine .ite (.ite (hc3.andThen (within_noOpFallback ..)) (hc3.andThen (within_goOn ..))) ?_
      split
      · exact (hc3.andThen (within_bump ..)).andThen (within_noOpFallback ..)
      · exact hc3.andThen (within_updPkt ..)

theorem within_versionUnknown (c : Chip) (pid : Nat) :
    Within [.regs, .hostMem, .pkts, .pattern, .tm, .tel, .host] c (c.versionUnknown pid) := by
  unfold Chip.versionUnknown
  exact ((within_bump ..).mono.andThen (within_raise ..)).andThen (within_dropOther ..)

theorem within_classify (c : Chip) (pid ecc : Nat) :
    Within [.regs, .hostMem, .time, .sfl, .pkts, .rules, .pattern, .tm, .sched, .tel, .host] c (c.classify pid ecc) := by
  unfold Chip.classify
  split
  · exact .refl _ _
  · refine .ite ?_ ?_
    · exact .refl _ _
    · refine .ite ?_ ?_
      · exact (((within_setPkt ..).mono.andThen (within_bump ..)).andThen (within_raise ..)).andThen (within_dropOther ..)
      · extract_lets c1 c2
        have hc1 : Within [.regs, .hostMem, .time, .sfl, .pkts, .rules, .pattern, .tm, .sched, .tel,
          Part.host] c c1 := .ite (within_raise ..).mono (.refl _ _)
        have hc2 : Within [.regs, .hostMem, .time, .sfl, .pkts, .rules, .pattern, .tm, .sched, .tel,
          Part.host] c c2 := hc1.andThen (within_commitFix ..)
        split
        · exact .ite (hc1.andThen (within_classifyAs ..)) (.ite
            (.ite (hc2.andThen (within_classifyAs ..)) (hc2.andThen (within_versionUnknown ..)))
              (hc1.andThen (within_versionUnknown ..)))
        · exact hc1.andThen (within_classifyAs ..)
        · exact hc1.andThen (within_classifyAs ..)

theorem within_cld (c : Chip) (x : Nat) : Within [.regs, .hostMem, .ports, .tel, .host, .flow, .gang, .act] c (c.cld x) := by
  unfold Chip.cld
  exact (within_runUnit ..).mono

theorem within_rxSize (c : Chip) (p n : Nat) : Within [.regs] c (c.rxSize p n) := by
  unfold Chip.rxSize
  exact .ite (.refl _ _) (within_stat ..).mono

theorem within_rxGood (c : Chip) (p n : Nat) (fr : Bytes) : Within [.regs] c (c.rxGood p n fr) := by
  unfold Chip.rxGood
  extract_lets c1 c2
  have hc1 : Within [.regs] c c1 := ((within_rxSize ..).mono.andThen (within_stat ..)).andThen (within_stat ..)
  have hc2 : Within [.regs] c c2 := hc1.andThen (within_stat ..)
  exact (hc2.andThen (within_stat ..)).andThen (within_signal ..)

theorem within_seqCheck (c : Chip) (p : Nat) (fr : Bytes) : Within [.regs, .gang] c (c.seqCheck p fr) := by
  unfold Chip.seqCheck
  extract_lets s last c1
  have hc1 : Within [.regs, .gang] c c1 := .ite (within_bump ..).mono (.refl _ _)
  exact hc1.andThen (within_onGang ..)

theorem within_gangTake (c : Chip) (p type : Nat) (hello : Bool) (fr : Bytes) :
    Within [.regs, .gang] c (c.gangTake p type hello fr).2 := by
  unfold Chip.gangTake
  split
  · exact .snd_mk (.refl _ _)
  · extract_lets c1 c2
    have hc1 : Within [.regs, .gang] c c1 := (within_rxGood ..).mono
    have hc2 : Within [.regs, .gang] c c2 := hc1.andThen (within_seqCheck ..)
    split
    · exact .snd_mk hc1
    · exact .snd_mk hc2

theorem Within.ctrlTake {M : List Part} {b c : Chip} {p sub : Nat} {fr : Bytes} {k : Nat → Bytes → Chip → Chip}
    (h : Within M b c) (hk : ∀ x bs d, Within M d (k x bs d)) (hM : ∀ q ∈ [.regs, .gang], q ∈ M := by decide) :
    Within M b (c.ctrlTake p sub fr k) := by
  unfold Chip.ctrlTake
  split
  · next d heq => exact .of_snd heq (h.andThen (within_gangTake ..) hM)
  · next d heq =>
    have hd : Within M b d := .of_snd heq (h.andThen (within_gangTake ..) hM)
    exact .ite (hd.andThen (hk _ _ d) fun _ => id) hd

theorem within_setAwake (c : Chip) (k : Nat) (b : Bool) : Within [.regs, .tel] c (c.setAwake k b) := by
  unfold Chip.setAwake
  extract_lets c1
  have hc1 : Within [.regs, .tel] c c1 := (within_putF ..).mono
  exact (hc1.andThen (within_putF ..)).andThen (within_condEv ..)

theorem within_clusterAwake (c : Chip) (k : Nat) : Within [.regs, .tel, .wds] c (c.clusterAwake k) := by
  unfold Chip.clusterAwake
  exact .ite ((within_onWds ..).mono.andThen (within_setAwake ..)) (.refl _ _)

theorem within_clusterGate (c : Chip) (k : Nat) : Within [.regs, .hostMem, .tel, .host, .wds] c (c.clusterGate k) := by
  unfold Chip.clusterGate
  exact .ite (.refl _ _) ((within_setAwake ..).mono.andThen (within_csRecord ..))

theorem within_clusterWake (c : Chip) (q : Nat) : Within [.regs, .hostMem, .host, .wds] c (c.clusterWake q) := by
  unfold Chip.clusterWake
  extract_lets w mask mine idle aged
  refine .ite ?_ ?_
  · exact .refl _ _
  · split
    · exact (within_onWds ..).mono.andThen (within_csRecord ..)
    · exact .refl _ _

theorem within_cmisDone (c : Chip) (m what : Nat) :
    Within [.regs, .dram, .hostMem, .sfl, .lanes, .ports, .pkts, .pattern, .tm, .sched, .tel, .host, .flow, .gang, .act] c
      (c.cmisDone m what) := by
  unfold Chip.cmisDone
  exact .ite (within_siteGo ..).mono (.ite (within_siteGo ..).mono (.ite (within_siteGo ..).mono (.refl _ _)))

theorem within_applyEntry (c : Chip) (x : Nat) (v : Machine.Ctx) (e : CEnt) :
    Within [.regs, .ports, .gang, .act] c (c.applyEntry x v e) := by
  unfold Chip.applyEntry
  exact .ite (within_gangOut ..).mono ((Within.refl _ _).act _)

theorem within_commitDwr (c : Chip) (x : Nat) (v : Machine.Ctx) : Within [.dram, .act] c (c.commitDwr x v) := by
  unfold Chip.commitDwr
  exact .foldl (.refl _ _) fun _ _ => ((within_dramWrite ..).mono.andThen (within_breakWatch ..))

theorem within_emitHost (c : Chip) (x ring : Nat) (bs : Bytes) :
    Within [.regs, .hostMem, .sfl, .host] c (c.emitHost x ring bs) := by
  unfold Chip.emitHost
  split
  · rename_i d heq
    have hd : Within [.regs, .hostMem, .sfl, .host] c d := .of_snd heq (within_cpPolice ..).mono
    exact hd.andThen (within_bump ..)
  · rename_i d heq
    have hd : Within [.regs, .hostMem, .sfl, .host] c d := .of_snd heq (within_cpPolice ..).mono
    split
    · rename_i d1 heq1
      have hd1 : Within [.regs, .hostMem, .sfl, .host] c d1 := .of_snd heq1 (hd.andThen (within_ringPacket ..))
      exact hd1
    · rename_i d1 heq1
      have hd1 : Within [.regs, .hostMem, .sfl, .host] c d1 := .of_snd heq1 (hd.andThen (within_ringPacket ..))
      exact hd1.andThen (within_bump ..)

theorem within_addPkt (c : Chip) (p : Pkt) : Within [.pkts, .tm] c (c.addPkt p) := by
  unfold Chip.addPkt
  extract_lets src
  have hsrc : Within [.pkts, .tm] c src := (within_setPkt ..).mono
  exact hsrc.tm _

theorem within_chargeCells (c : Chip) (pid m : Nat) : Within [.regs, .hostMem, .pkts, .tm, .host] c (c.chargeCells pid m) := by
  unfold Chip.chargeCells
  split
  · exact .refl _ _
  · extract_lets i c1
    have hc1 : Within [.regs, .hostMem, .pkts, .tm, .host] c c1 := (within_setIngRes ..).mono.andThen (within_setFree ..)
    exact hc1.andThen (within_setPkt ..)

theorem within_handOver (c : Chip) (p : Pkt) : Within [.regs, .hostMem, .pkts, .tm, .tel, .host] c (c.handOver p) := by
  unfold Chip.handOver
  extract_lets pid n c1
  have hc1 : Within [.regs, .hostMem, .pkts, .tm, .tel, .host] c c1 := (within_addPkt ..).mono
  exact .ite ((hc1.andThen (within_copyDropped ..)).andThen (within_rmPkt ..))
    ((hc1.andThen (within_chargeCells ..)).andThen (within_holdCells ..))

theorem within_takeSeq (c : Chip) (k : Nat) : Within [.act] c (c.takeSeq k).2 := by
  unfold Chip.takeSeq
  extract_lets n
  exact .snd_mk ((Within.refl _ _).act _)

theorem within_emitIn (c : Chip) (x port : Nat) (bs : Bytes) :
    Within [.regs, .hostMem, .pkts, .tm, .tel, .host, .act] c (c.emitIn x port bs) := by
  unfold Chip.emitIn
  split
  · rename_i d heq
    have hd : Within [.regs, .hostMem, .pkts, .tm, .tel, .host, .act] c d := .of_snd heq (within_takeSeq ..).mono
    exact hd.andThen (within_handOver ..)

theorem within_emitOut (c : Chip) (x port cls : Nat) (opn : Bool) (bs : Bytes) :
    Within [.regs, .hostMem, .pkts, .tm, .tel, .host, .act] c (c.emitOut x port cls opn bs) := by
  unfold Chip.emitOut
  split
  · rename_i d heq
    have hd : Within [.regs, .hostMem, .pkts, .tm, .tel, .host, .act] c d := .of_snd heq (within_takeSeq ..).mono
    exact hd.andThen (within_handOver ..)

theorem within_forge (c : Chip) (i : Bytes) : Within [.regs, .hostMem, .host] c (c.forge i).2 := by
  unfold Chip.forge
  split
  · exact .snd_mk (within_raise ..).mono
  · exact .snd_mk (.refl _ _)

theorem within_emitOne (c : Chip) (x : Nat) (v : Machine.Ctx) (e : Emis) (shared : Bool) :
    Within [.regs, .hostMem, .sfl, .pkts, .tm, .tel, .host, .act, .wds] c (c.emitOne x v e shared) := by
  unfold Chip.emitOne
  extract_lets bs
  split
  · exact (within_emitOut ..).mono
  · exact (within_emitIn ..).mono
  · split
    · rename_i d heq
      have hd : Within [.regs, .hostMem, .sfl, .pkts, .tm, .tel, .host, .act, .wds] c d := .of_snd heq (within_forge ..).mono
      exact hd.andThen (within_enterItem ..)
  · exact (within_emitHost ..).mono

theorem within_emitAll (c : Chip) (x : Nat) (v : Machine.Ctx) (es : List Emis) (rs : List (Nat × Bool)) :
    Within [.regs, .hostMem, .sfl, .pkts, .tm, .tel, .host, .act, .wds] c (c.emitAll x v es rs) := by
  induction es generalizing c rs with
  | nil => exact .refl _ _
  | cons e es ih =>
    unfold Chip.emitAll
    exact Within.ite ((within_emitOne ..).mono.andThen (ih ..)) ((within_emitOne ..).mono.andThen (ih ..))

theorem within_commitNow (c : Chip) (x : Nat) :
    Within [.regs, .dram, .hostMem, .sfl, .ports, .pkts, .tm, .tel, .host, .flow, .gang, .act, .wds] c (c.commitNow x) := by
  unfold Chip.commitNow
  extract_lets v c1 c2 c3 c4
  have hc1 : Within [.regs, .dram, .hostMem, .sfl, .ports, .pkts, .tm, .tel, .host, .flow, .gang, .act, .wds] c c1 :=
    .foldl (.refl _ _) fun _ _ => (within_applyEntry ..).mono
  have hc3 : Within [.regs, .dram, .hostMem, .sfl, .ports, .pkts, .tm, .tel, .host, .flow, .gang, .act, .wds] c c3 :=
    .foldl (hc1.andThen (within_commitDwr ..)) fun _ _ => (within_bumpQWrap ..).mono
  have hc4 : Within [.regs, .dram, .hostMem, .sfl, .ports, .pkts, .tm, .tel, .host, .flow, .gang, .act, .wds] c c4 :=
    hc3.andThen (within_emitAll ..)
  exact .ite (((within_dropSet ..).mono.andThen (within_onCtx ..)).andThen (within_bumpQ ..))
    ((hc4.andThen (within_onCtx ..)).andThen (within_endCtx ..))

theorem within_retryReserve (c : Chip) : Within [.regs, .act] c c.retryReserve := by
  unfold Chip.retryReserve
  exact .foldl (.refl _ _) fun _ _ => (.ite (within_reserve ..).mono (.refl _ _))

theorem within_commitPoint (c : Chip) :
    Within [.regs, .dram, .hostMem, .sfl, .ports, .pkts, .tm, .tel, .host, .flow, .gang, .act, .wds] c c.commitPoint := by
  unfold Chip.commitPoint
  extract_lets c1
  have hc1 : Within [.regs, .dram, .hostMem, .sfl, .ports, .pkts, .tm, .tel, .host, .flow,
    Part.gang, .act, .wds] c c1 := (within_retryReserve ..).mono
  split
  · exact hc1
  · exact hc1.andThen (within_commitNow ..)

theorem within_cpy (c : Chip) (x : Nat) : Within [.regs, .hostMem, .ports, .tel, .host, .flow, .gang, .act] c (c.cpy x) := by
  unfold Chip.cpy
  exact (within_runUnit ..).mono

theorem within_kCrcs (c : Chip) (x : Nat) :
    Within [.regs, .hostMem, .ports, .tel, .host, .flow, .gang, .act] c (c.kCrcs x) := by
  unfold Chip.kCrcs
  exact (within_runUnit ..).mono

theorem within_commitRx (c : Chip) (p : Nat) (fr : Bytes) : Within [.regs, .gang] c (c.commitRx p fr) := by
  unfold Chip.commitRx
  exact .ctrlTake (.refl _ _) fun _ _ _ => (within_onGang ..).mono

theorem within_lossOf (c : Chip) (d : Nat) : Within [.regs, .ports, .gang] c (c.lossOf d) := by
  unfold Chip.lossOf
  exact .ite (.refl _ _) (((within_onGang ..).mono.andThen (within_readyFrom ..)).andThen (within_nextLoss ..))

theorem within_leaveRx (c : Chip) (d : Nat) : Within [.regs, .ports, .gang] c (c.leaveRx d) := by
  unfold Chip.leaveRx
  extract_lets rest own
  exact .ite (within_lossOf ..).mono (.ite (((within_putF ..).mono.andThen (within_onGang ..)).andThen (within_lossOf ..))
    (.refl _ _))

theorem within_oldestRx (c : Chip) (p : Nat) (fr : Bytes) : Within [.regs, .gang] c (c.oldestRx p fr) := by
  unfold Chip.oldestRx
  exact .ctrlTake (.refl _ _) fun _ _ _ => (within_onGang ..).mono

theorem within_prepRx (c : Chip) (p : Nat) (fr : Bytes) : Within [.regs, .ports, .gang] c (c.prepRx p fr) := by
  unfold Chip.prepRx
  exact .ctrlTake (.refl _ _) fun _ _ _ => (.ite (.refl _ _) (.ite
    (.ite ((within_putF ..).mono.andThen (within_beginChange ..)) (.refl _ _))
      (.ite ((within_putF ..).mono.andThen (within_beginChange ..)) (.refl _ _))))

theorem within_unbindRxOne (c : Chip) (p : Nat) (fr : Bytes) : Within [.regs, .tm, .gang] c (c.unbindRxOne p fr) := by
  unfold Chip.unbindRxOne
  exact .ctrlTake (.refl _ _) fun _ _ _ => ((Within.ite (within_onGang ..).mono (within_onGang ..).mono).andThen
    (within_unbindReady ..))

theorem within_dataRx (c : Chip) (p : Nat) (fr : Bytes) : Within [.regs, .ports, .pkts, .tm, .gang] c (c.dataRx p fr) := by
  unfold Chip.dataRx
  split
  · rename_i d heq
    have hd : Within [.regs, .ports, .pkts, .tm, .gang] c d := .of_snd heq (within_gangTake ..).mono
    exact hd
  · rename_i d heq
    have hd : Within [.regs, .ports, .pkts, .tm, .gang] c d := .of_snd heq (within_gangTake ..).mono
    extract_lets h pid body _ c1
    have hc1 : Within [.regs, .ports, .pkts, .tm, .gang] c c1 := hd.andThen (within_addPkt ..)
    exact hc1.andThen (within_setPort ..)

theorem within_timerOffer (c : Chip) (n : Nat) : Within [.regs, .hostMem, .tel, .host, .wds] c (c.timerOffer n) := by
  unfold Chip.timerOffer
  split
  · exact .refl _ _
  · split
    · rename_i d heq
      have hd : Within [.regs, .hostMem, .tel, .host, .wds] c d := .of_snd heq (within_offer ..).mono
      exact hd
    · rename_i d _ heq
      have hd : Within [.regs, .hostMem, .tel, .host, .wds] c d := .of_snd heq (within_offer ..).mono
      exact hd.andThen (within_onWds ..)

theorem within_timerFire (c : Chip) (n : Nat) : Within [.regs, .hostMem, .tel, .host, .wds] c (c.timerFire n) := by
  unfold Chip.timerFire
  refine .ite ?_ ?_
  · exact .refl _ _
  · split
    · extract_lets c1
      have hc1 : Within [.regs, .hostMem, .tel, .host, .wds] c c1 := (within_bump ..).mono
      exact (hc1.andThen (within_onWds ..)).andThen (within_timerOffer ..)
    · exact (within_onWds ..).mono.andThen (within_timerOffer ..)

theorem within_dmaError (c : Chip) (n : Nat) : Within [.regs, .hostMem, .host] c (c.dmaError n) := by
  unfold Chip.dmaError
  exact .ite (.refl _ _) (((within_stopRing ..).mono.andThen (within_putF ..)).andThen (within_hostErr ..))

theorem within_recContain (c : Chip) (r : RecDom) :
    Within [.regs, .dram, .hostMem, .sfl, .lanes, .ports, .pkts, .pattern, .tm, .sched, .tel, .host, .flow, .gang, .act] c
      (c.recContain r) := by
  unfold Chip.recContain
  split
  · exact (within_laneCheck ..).mono
  · exact (within_portEval ..).mono
  · exact .ite (.refl _ _) ((Within.refl _ _).tm _)
  · exact .foldl (.refl _ _) fun _ _ => (within_leaveService ..).mono
  · exact .refl _ _

theorem within_recProceed (c : Chip) (r : RecDom) :
    Within [.regs, .dram, .hostMem, .freeCtr, .power, .mgt, .sfl, .lanes, .ports, .pkts, .rules, .tern, .pattern, .tm, .sched,
      .tel, .host, .flow, .gang, .act, .wds, .recov] c (c.recProceed r) := by
  unfold Chip.recProceed
  exact .ite ((((within_setRec ..).mono.andThen (within_log ..)).andThen (within_recContain ..)).andThen (within_recShow ..))
    (within_recRun ..).mono

theorem within_recAfterBath (c : Chip) (unit inst : Nat) :
    Within [.regs, .dram, .hostMem, .freeCtr, .power, .mgt, .sfl, .lanes, .ports, .pkts, .rules, .tern, .pattern, .tm, .sched,
      .tel, .host, .flow, .gang, .act, .wds, .recov] c (c.recAfterBath unit inst) := by
  unfold Chip.recAfterBath
  exact .foldl (.refl _ _) fun _ _ => (.ite (within_recProceed ..).mono (.refl _ _))

theorem within_recBit (c : Chip) (f : Fld) (kind inst : Nat) (b : Bool) : Within [.regs] c (c.recBit f kind inst b) := by
  unfold Chip.recBit
  extract_lets w
  exact (within_putF ..).mono

theorem within_bankBack (c : Chip) (b : Nat) : Within [.tm] c (c.bankBack b) := by
  unfold Chip.bankBack
  exact (Within.refl _ _).tm _

theorem within_lineZero (c : Chip) (a : Nat) : Within [.dram, .act] c (c.lineZero a) := by
  unfold Chip.lineZero
  exact (within_dramWrite ..).mono.andThen (within_breakWatch ..)

theorem within_linesLogged (c : Chip) (l : List Nat) : Within [.regs, .hostMem, .power, .mgt, .host] c (c.linesLogged l) := by
  unfold Chip.linesLogged
  extract_lets c1
  have hc1 : Within [.regs, .hostMem, .power, .mgt, .host] c c1 := .foldl (.refl _ _) fun _ _ => (within_log ..).mono
  exact .ite hc1 (hc1.andThen (within_log ..))

theorem within_slotDeleted (c : Chip) (e b j : Nat) : Within [.dram, .flow] c (c.slotDeleted e b j) := by
  unfold Chip.slotDeleted
  refine .ite ?_ ?_
  · exact .refl _ _
  · extract_lets r c1
    have hc1 : Within [.dram, .flow] c c1 := by
      unfold c1
      split
      · exact (within_onEng ..).mono.andThen (within_emptyWay ..)
      · exact .refl _ _
    exact (hc1.andThen (within_clearTag ..)).andThen (within_recGone ..)

theorem within_slotsDeleted (c : Chip) (a n : Nat) : Within [.dram, .flow] c (c.slotsDeleted a n) := by
  unfold Chip.slotsDeleted
  exact .ite (.foldl (.refl _ _) fun _ _ => (within_slotDeleted ..).mono) (within_slotDeleted ..).mono

theorem within_repairCh (c : Chip) (ch : Nat) :
    Within [.regs, .dram, .hostMem, .power, .mgt, .sfl, .ports, .pkts, .pattern, .tm, .tel, .host, .flow, .gang, .act, .wds] c
      (c.repairCh ch) := by
  unfold Chip.repairCh
  extract_lets bad lost zero c1 c2 svc
  have hc1 : Within [.regs, .dram, .hostMem, .power, .mgt, .sfl, .ports, .pkts, .pattern, .tm,
    Part.tel, .host, .flow, .gang, .act, .wds] c c1 :=
      .foldl (.refl _ _) fun _ _ => (.ite ((within_slotsDeleted ..).mono.andThen (within_dramWrite ..))
        (.ite (within_slotsDeleted ..).mono (.refl _ _)))
  have hc2 : Within [.regs, .dram, .hostMem, .power, .mgt, .sfl, .ports, .pkts, .pattern, .tm,
    Part.tel, .host, .flow, .gang, .act, .wds] c c2 := .foldl hc1 fun _ _ => (.ite (within_slotsDeleted ..).mono (.refl _ _))
  exact ((Within.foldl hc2 fun _ _ => (within_lineZero ..).mono).andThen (within_linesLogged ..)).andThen (within_flush ..)

theorem within_recRestore (c : Chip) (r : RecDom) :
    Within [.regs, .dram, .hostMem, .power, .mgt, .sfl, .lanes, .ports, .pkts, .pattern, .tm, .sched, .hbm, .tel, .host,
      .flow, .gang, .act, .wds] c (c.recRestore r) := by
  unfold Chip.recRestore
  split
  · exact (within_laneCheck ..).mono
  · exact (within_portEval ..).mono
  · exact .ite ((within_repairCh ..).mono.andThen (within_releaseCh ..)) (.refl _ _)
  · exact (within_bankBack ..).mono
  · exact .refl _ _

theorem within_rmRec (c : Chip) (r : RecDom) : Within [.recov] c (c.rmRec r) := by
  unfold Chip.rmRec
  exact (Within.refl _ _).recov _

theorem within_recRestarted (c : Chip) (unit inst : Nat) :
    Within [.regs, .dram, .hostMem, .freeCtr, .power, .mgt, .sfl, .lanes, .ports, .pkts, .rules, .tern, .pattern, .tm, .sched,
      .hbm, .tel, .host, .flow, .gang, .act, .wds, .recov] c (c.recRestarted unit inst) := by
  unfold Chip.recRestarted
  exact .foldl (.refl _ _) fun _ _ => (((((within_recSteps ..).mono.andThen (within_rmRec ..)).andThen
    (within_recBit ..)).andThen (within_recRestore ..)).andThen (within_recShow ..))

theorem within_resumeUnit (c : Chip) (u i : Nat) (done : Bool) (img : Bytes) :
    Within [.regs, .dram, .hostMem, .sfl, .lanes, .ports, .pkts, .rules, .tern, .pattern, .tm, .sched, .tel, .host, .flow,
      .gang, .act] c (c.resumeUnit u i done img) := by
  unfold Chip.resumeUnit
  extract_lets ports
  split
  · exact .foldl (.foldl (.refl _ _) fun _ _ => (within_laneCheck ..).mono) fun _ _ => (within_portCheck ..).mono
  · exact .foldl (.foldl (.refl _ _) fun _ _ => (within_laneCheck ..).mono) fun _ _ => (within_portCheck ..).mono
  · exact .ite (within_putF ..).mono (.refl _ _)
  · exact .ite (.refl _ _) (.ite ((within_stageProfile ..).mono.andThen (within_syncRules ..))
      ((within_stageRegion ..).mono.andThen (within_syncRules ..)))
  · exact (within_bankBack ..).mono
  · exact .refl _ _

theorem within_bathEnd (c : Chip) (n st : Nat) (done ok : Bool) :
    Within [.regs, .dram, .hostMem, .freeCtr, .power, .mgt, .sfl, .lanes, .ports, .pkts, .rules, .tern, .pattern, .tm, .sched,
      .hbm, .tel, .host, .flow, .gang, .act, .wds, .plate, .recov] c (c.bathEnd n st done ok) := by
  unfold Chip.bathEnd
  extract_lets u i img c1 _ c2 c3
  have hc1 : Within [.regs, .dram, .hostMem, .freeCtr, .power, .mgt, .sfl, .lanes, .ports, .pkts,
    Part.rules, .tern, .pattern, .tm, .sched, .hbm, .tel, .host, .flow, .gang,
    Part.act, .wds, .plate, .recov] c c1 := (within_putF ..).mono.andThen (within_putF ..)
  have hc2 : Within [.regs, .dram, .hostMem, .freeCtr, .power, .mgt, .sfl, .lanes, .ports, .pkts,
    Part.rules, .tern, .pattern, .tm, .sched, .hbm, .tel, .host, .flow, .gang,
    Part.act, .wds, .plate, .recov] c c2 := hc1.plate _
  have hc3 : Within [.regs, .dram, .hostMem, .freeCtr, .power, .mgt, .sfl, .lanes, .ports, .pkts,
    Part.rules, .tern, .pattern, .tm, .sched, .hbm, .tel, .host, .flow, .gang,
    Part.act, .wds, .plate, .recov] c c3 := hc2.andThen (within_resumeUnit ..)
  exact .ite ((hc3.andThen (within_recRestarted ..)).andThen (within_recAfterBath ..)) hc3

theorem within_drainTimeout (c : Chip) (n : Nat) :
    Within [.regs, .dram, .hostMem, .freeCtr, .power, .mgt, .sfl, .lanes, .ports, .pkts, .rules, .tern, .pattern, .tm, .sched,
      .hbm, .tel, .host, .flow, .gang, .act, .wds, .plate, .recov] c (c.drainTimeout n) := by
  unfold Chip.drainTimeout
  exact .ite (.refl _ _) (within_bathEnd ..).mono

theorem within_record (c : Chip) (g cmd : Nat) (bank row col : Nat) : Within [.hbm] c (c.record g cmd bank row col) := by
  unfold Chip.record
  extract_lets x
  exact (within_onHbm ..).mono

theorem within_setPc (c : Chip) (g : Nat) (x : PcSt) : Within [.hbm] c (c.setPc g x) := by
  unfold Chip.setPc
  exact (within_onHbm ..).mono

theorem within_activate (c : Chip) (g bank row : Nat) : Within [.hbm] c (c.activate g bank row) := by
  unfold Chip.activate
  extract_lets x r near x1
  exact (within_setPc ..).mono.andThen (within_record ..)

theorem within_burst (c : Chip) (q : DramReq) (gr : Nat) : Within [.regs, .hbm] c (c.burst q gr) := by
  unfold Chip.burst
  extract_lets p x n c1 c2
  have hc1 : Within [.regs, .hbm] c c1 := (within_setPc ..).mono
  have hc2 : Within [.regs, .hbm] c c2 := hc1.andThen (within_onHbm ..)
  exact (hc2.andThen (within_record ..)).andThen (within_signal ..)

theorem within_neighbour (c : Chip) (g bank row : Nat) : Within [.regs, .hbm] c (c.neighbour g bank row) := by
  unfold Chip.neighbour
  extract_lets x c1
  have hc1 : Within [.regs, .hbm] c c1 := (within_setPc ..).mono
  exact ((hc1.andThen (within_record ..)).andThen (within_bump ..)).andThen (within_signal ..)

theorem within_advance (c : Chip) (q : DramReq) (gr : Nat) : Within [.regs, .hbm] c (c.advance q gr) := by
  unfold Chip.advance
  extract_lets p x
  split
  · exact .ite (within_burst ..).mono ((within_setPc ..).mono.andThen (within_record ..))
  · split
    · exact (within_neighbour ..).mono
    · exact (within_activate ..).mono

theorem within_refresh (c : Chip) (g : Nat) : Within [.regs, .hbm] c (c.refresh g) := by
  unfold Chip.refresh
  extract_lets x x1
  exact ((within_setPc ..).mono.andThen (within_record ..)).andThen (within_signal ..)

theorem within_setOwed (c : Chip) (g n : Nat) : Within [.regs] c (c.setOwed g n) := by
  unfold Chip.setOwed
  exact .ite (within_putF ..).mono (within_putF ..).mono

theorem within_dramSlot (c : Chip) (g : Nat) : Within [.regs, .hbm] c (c.dramSlot g) := by
  unfold Chip.dramSlot
  extract_lets ch st x ws rs urgent drain c1
  have hc1 : Within [.regs, .hbm] c c1 := (within_setPc ..).mono
  refine .ite ?_ ?_
  · exact .refl _ _
  · refine .ite ?_ ?_
    · exact (within_setPc ..).mono.andThen (within_refresh ..)
    · refine .ite ?_ ?_
      · exact (within_setPc ..).mono.andThen (within_refresh ..)
      · refine .ite ?_ ?_
        · exact .refl _ _
        · split
          · exact hc1.andThen (within_advance ..)
          · exact .ite ((hc1.andThen (within_setOwed ..)).andThen (within_refresh ..)) hc1

theorem within_corrected (c : Chip) (addr : Nat) : Within [.regs, .hostMem, .hbm, .host] c (c.corrected addr) := by
  unfold Chip.corrected
  extract_lets ch c1
  have hc1 : Within [.regs, .hostMem, .hbm, .host] c c1 :=
    ((within_bump ..).mono.andThen (within_bump ..)).andThen (within_raise ..)
  exact (hc1.andThen (within_onHbm ..)).andThen (within_signal ..)

theorem within_showHist (c : Chip) (ch : Nat) : Within [.regs] c (c.showHist ch) := by
  unfold Chip.showHist
  exact .foldl (.refl _ _) fun _ _ => ((within_putF ..).mono.andThen (within_putF ..))

theorem within_freeze (c : Chip) (ch type : Nat) (addr req syn : Nat) :
    Within [.regs, .hostMem, .hbm, .tel, .host] c (c.freeze ch type addr req syn) := by
  unfold Chip.freeze
  exact .ite (within_putF ..).mono ((((((((((((((within_failQueue ..).mono.andThen (within_showHist ..)).andThen
    (within_putQ ..)).andThen (within_putF ..)).andThen (within_putF ..)).andThen (within_putF ..)).andThen
      (within_putF ..)).andThen (within_putF ..)).andThen (within_setPd ..)).andThen (within_setPd ..)).andThen
        (within_condEv ..)).andThen (within_bump ..)).andThen (within_putF ..)).andThen (within_raise ..))

theorem within_lineBad (c : Chip) (type addr : Nat) (req syn : Nat) :
    Within [.regs, .hostMem, .hbm, .tel, .host] c (c.lineBad type addr req syn) := by
  unfold Chip.lineBad
  exact (within_onHbm ..).mono.andThen (within_freeze ..)

theorem within_retireReq (c : Chip) (q : DramReq) : Within [.regs, .hbm] c (c.retireReq q) := by
  unfold Chip.retireReq
  extract_lets lat c1 c2 c3
  have hc1 : Within [.regs, .hbm] c c1 := (within_onHbm ..).mono
  have hc2 : Within [.regs, .hbm] c c2 := hc1.andThen (within_showQueued ..)
  have hc3 : Within [.regs, .hbm] c c3 := .ite (hc2.andThen (within_putF ..)) hc2
  exact .ite (hc3.andThen (within_bump ..)) hc3

theorem within_dramComplete (c : Chip) (id ecc syn : Nat) :
    Within [.regs, .dram, .hostMem, .hbm, .tel, .host] c (c.dramComplete id ecc syn) := by
  unfold Chip.dramComplete
  split
  · exact .refl _ _
  · exact .ite (.refl _ _) (.ite ((within_dramWrite ..).mono.andThen (within_retireReq ..))
      (.ite ((within_retireReq ..).mono.andThen (within_lineBad ..))
        (.ite (((within_onHbm ..).mono.andThen (within_retireReq ..)).andThen (within_corrected ..))
          ((within_onHbm ..).mono.andThen (within_retireReq ..)))))

theorem Within.watchBad {M : List Part} {b c : Chip} {f : Chip → Chip} (h : Within M b c) (hf : ∀ d, Within M d (f d))
    (hM : ∀ q ∈ [.act], q ∈ M := by decide) : Within M b (c.watchBad f) := by
  unfold Chip.watchBad
  exact .foldl (h.andThen (hf c) fun _ => id) fun _ _ => (Within.refl _ _).andThen (within_breakWatch ..) hM

end Sys2Proof.Proofs
end

section
/-!
One lemma `within_<f>` for each function `f` of the model, in the order in which they use each other (5 of 6).
-/
namespace Sys2Proof.Proofs
open Sys2Proof Sys2Proof.Machine

-- Each default `by decide` of a helper waits for the kernel: one proof at a time bounds the threads that wait.
set_option Elab.async false

theorem within_dramRequest (c : Chip) (r port : Nat) (addr len : Nat) (write : Bool) (data : Bytes) :
    Within [.regs, .hbm] c (c.dramRequest r port addr len write data) := by
  unfold Chip.dramRequest
  refine .ite ?_ ?_
  · exact .refl _ _
  · extract_lets q c1
    have hc1 : Within [.regs, .hbm] c c1 := (within_onHbm ..).mono
    split
    · exact hc1.andThen (within_loseWrite ..)
    · exact (hc1.andThen (within_onHbm ..)).andThen (within_showQueued ..)

theorem within_routineDenied (c : Chip) (x : Nat) : Within [.regs, .sfl] c (c.routineDenied x) := by
  unfold Chip.routineDenied
  exact (within_deniedCapture ..).mono

theorem within_drdUnit (c : Chip) (x : Nat) (isW : Bool) :
    Within [.regs, .hostMem, .sfl, .ports, .tel, .host, .flow, .gang, .act] c (c.drdUnit x isW) := by
  unfold Chip.drdUnit
  extract_lets v w d a n outside c1
  have hc1 : Within [.regs, .hostMem, .sfl, .ports, .tel, .host, .flow, .gang, .act] c c1 :=
    .ite (within_routineDenied ..).mono (.refl _ _)
  exact hc1.andThen (within_runUnit ..)

theorem within_drdArrived (c : Chip) (x : Nat) (err : Bool) : Within [.act] c (c.drdArrived x err) := by
  unfold Chip.drdArrived
  extract_lets v
  split
  · exact .refl _ _
  · exact .ite (.refl _ _) (.ite (within_setCtx ..).mono (within_setCtx ..).mono)

theorem within_dwrUnit (c : Chip) (x : Nat) :
    Within [.regs, .hostMem, .sfl, .ports, .tel, .host, .flow, .gang, .act] c (c.dwrUnit x) := by
  unfold Chip.dwrUnit
  extract_lets v w d a n outside c1
  have hc1 : Within [.regs, .hostMem, .sfl, .ports, .tel, .host, .flow, .gang, .act] c c1 :=
    .ite (within_routineDenied ..).mono (.refl _ _)
  exact hc1.andThen (within_runUnit ..)

theorem within_expTake (c : Chip) : Within [.tel] c c.expTake.2 := by
  unfold Chip.expTake
  extract_lets rate used ok
  split
  · exact .snd_mk (.refl _ _)
  · exact .snd_mk (within_onTel ..).mono

theorem within_sendMsg (c : Chip) (tmpl : Bool) (l : List ExpRec) :
    Within [.regs, .hostMem, .pkts, .tm, .tel, .host] c (c.sendMsg tmpl l) := by
  unfold Chip.sendMsg
  extract_lets m c1 port p _ c2
  have hc1 : Within [.regs, .hostMem, .pkts, .tm, .tel, .host] c c1 := (within_onTel ..).mono
  have hc2 : Within [.regs, .hostMem, .pkts, .tm, .tel, .host] c c2 := hc1.andThen (within_handOver ..)
  refine .ite ?_ ?_
  · exact hc2.andThen (within_bump ..)
  · split
    · rename_i d heq
      have hd : Within [.regs, .hostMem, .pkts, .tm, .tel, .host] c d := .of_snd heq (hc1.andThen (within_ringRecord ..))
      exact hd.andThen (within_bump ..)
    · rename_i d heq
      have hd : Within [.regs, .hostMem, .pkts, .tm, .tel, .host] c d := .of_snd heq (hc1.andThen (within_ringRecord ..))
      exact ((hd.andThen (within_bump ..)).andThen (within_raise ..)).andThen (within_signal ..)

theorem within_flushMsg (c : Chip) : Within [.regs, .hostMem, .pkts, .tm, .tel, .host] c c.flushMsg := by
  unfold Chip.flushMsg
  exact .ite (.refl _ _) ((within_onTel ..).mono.andThen (within_sendMsg ..))

theorem within_sendTemplates (c : Chip) : Within [.regs, .hostMem, .pkts, .tm, .tel, .host] c c.sendTemplates := by
  unfold Chip.sendTemplates
  exact (within_onTel ..).mono.andThen (within_sendMsg ..)

theorem within_openMsg (c : Chip) (x : ExpRec) : Within [.regs, .hostMem, .pkts, .tm, .tel, .host] c (c.openMsg x) := by
  unfold Chip.openMsg
  extract_lets c1
  have hc1 : Within [.regs, .hostMem, .pkts, .tm, .tel, .host] c c1 := .ite (within_sendTemplates ..).mono (.refl _ _)
  exact hc1.andThen (within_onTel ..)

theorem within_putExport (c : Chip) (x : ExpRec) : Within [.regs, .hostMem, .pkts, .tm, .tel, .host] c (c.putExport x) := by
  unfold Chip.putExport
  exact .ite (within_openMsg ..).mono (.ite ((within_flushMsg ..).mono.andThen (within_openMsg ..)) (within_onTel ..).mono)

theorem within_exportOut (c : Chip) : Within [.regs, .hostMem, .pkts, .tm, .tel, .host, .wds] c c.exportOut := by
  unfold Chip.exportOut
  split
  · exact .refl _ _
  · split
    · rename_i d heq
      have hd : Within [.regs, .hostMem, .pkts, .tm, .tel, .host, .wds] c d := .of_snd heq (within_expTake ..).mono
      exact hd
    · rename_i d heq
      have hd : Within [.regs, .hostMem, .pkts, .tm, .tel, .host, .wds] c d := .of_snd heq (within_expTake ..).mono
      refine .ite ?_ ?_
      · split
        · rename_i d1 heq1
          have hd1 : Within [.regs, .hostMem, .pkts, .tm, .tel, .host, .wds] c d1 := .of_snd heq1 (hd.andThen (within_offer ..))
          exact (hd1.andThen (within_setExpQ ..)).andThen (within_bump ..)
        · rename_i d1 _ heq1
          have hd1 : Within [.regs, .hostMem, .pkts, .tm, .tel, .host, .wds] c d1 := .of_snd heq1 (hd.andThen (within_offer ..))
          exact hd1.andThen (within_onTel ..)
      · exact ((hd.andThen (within_setExpQ ..)).andThen (within_putExport ..)).andThen (within_bump ..)

theorem within_scanEnd (c : Chip) : Within [.tel] c c.scanEnd := by
  unfold Chip.scanEnd
  exact .ite (within_onTel ..).mono (.refl _ _)

theorem within_scanLateCheck (c : Chip) (start : Nat) : Within [.regs, .hostMem, .tel, .host] c (c.scanLateCheck start) := by
  unfold Chip.scanLateCheck
  exact .ite (.refl _ _) (((within_onTel ..).mono.andThen (within_bump ..)).andThen (within_raise ..))

theorem within_wayBroken (c : Chip) (e i : Nat) : Within [.regs, .dram, .hostMem, .host, .flow] c (c.wayBroken e i) := by
  unfold Chip.wayBroken
  extract_lets w c1 c2 c3
  have hc1 : Within [.regs, .dram, .hostMem, .host, .flow] c c1 := (within_raise ..).mono
  have hc2 : Within [.regs, .dram, .hostMem, .host, .flow] c c2 := hc1.andThen (within_onEng ..)
  have hc3 : Within [.regs, .dram, .hostMem, .host, .flow] c c3 :=
    ((hc2.andThen (within_bumpQ ..)).andThen (within_signal ..)).andThen (within_emptyWay ..)
  split
  · exact .ite hc3 ((hc3.andThen (within_clearTag ..)).andThen (within_recGone ..))
  · exact .ite (((hc1.andThen (within_emptyWay ..)).andThen (within_clearTag ..)).andThen (within_recGone ..))
      (hc1.andThen (within_emptyWay ..))

theorem within_readWay (c : Chip) (e : Nat) (key : Bytes) (h1 ecc : Nat) :
    Within [.regs, .dram, .hostMem, .host, .flow] c (c.readWay e key h1 ecc).1 := by
  unfold Chip.readWay
  split
  · exact .fst_mk (.refl _ _)
  · split
    · exact .fst_mk ((within_bumpQ ..).mono.andThen (within_raise ..))
    · split
      · exact .fst_mk (within_wayBroken ..).mono
      · exact .fst_mk (.refl _ _)

theorem within_scanSlot (c : Chip) (e b : Nat) (ecc j : Nat) :
    Within [.regs, .dram, .hostMem, .tel, .host, .flow] c (c.scanSlot e b ecc j) := by
  unfold Chip.scanSlot
  extract_lets r
  split
  · rename_i d heq
    have hd : Within [.regs, .dram, .hostMem, .tel, .host, .flow] c d := .of_fst heq (within_readWay ..).mono
    exact hd
  · rename_i d heq
    have hd : Within [.regs, .dram, .hostMem, .tel, .host, .flow] c d := .of_fst heq (within_readWay ..).mono
    exact .ite ((hd.andThen (within_setExpQ ..)).andThen (within_signal ..)) hd

theorem within_wakeBank (c : Chip) (e : Nat) : Within [.mgt] c (c.wakeBank e) := by
  unfold Chip.wakeBank
  exact .ite ((Within.refl _ _).mgt _) (.refl _ _)

theorem within_scanVisit (c : Chip) (e ecc : Nat) :
    Within [.regs, .dram, .hostMem, .mgt, .tel, .host, .flow] c (c.scanVisit e ecc) := by
  unfold Chip.scanVisit
  extract_lets b start c1 c2
  have hc1 : Within [.regs, .dram, .hostMem, .mgt, .tel, .host, .flow] c c1 :=
    (within_onTel ..).mono.andThen (within_scanLateCheck ..)
  have hc2 : Within [.regs, .dram, .hostMem, .mgt, .tel, .host, .flow] c c2 := .foldl hc1 fun _ _ => (within_scanSlot ..).mono
  exact .ite (.refl _ _) (.ite (within_wakeBank ..).mono ((hc2.andThen (within_onTel ..)).andThen (within_scanEnd ..)))

theorem within_crcFeed (c : Chip) (x : Nat) :
    Within [.regs, .hostMem, .ports, .tel, .host, .flow, .gang, .act] c (c.crcFeed x) := by
  unfold Chip.crcFeed
  exact (within_runUnit ..).mono

theorem within_fenceDone (c : Chip) : Within [.regs, .hostMem, .host] c c.fenceDone := by
  unfold Chip.fenceDone
  exact .ite ((within_putF ..).mono.andThen (within_raiseDone ..)) (.refl _ _)

theorem within_heartbeatLate (c : Chip) : Within [.regs, .hostMem, .power, .mgt, .host] c c.heartbeatLate := by
  unfold Chip.heartbeatLate
  exact .ite (.refl _ _) (.ite (within_fwStart ..).mono (within_fwNone ..).mono)

theorem within_fixExecute (c : Chip) : Within [.regs, .hostMem, .time, .rules, .tern, .host] c c.fixExecute := by
  unfold Chip.fixExecute
  split
  · exact .refl _ _
  · extract_lets passed
    exact .ite (.refl _ _) (.ite ((Within.refl _ _).rules _) (.ite (.ite (.refl _ _) ((Within.refl _ _).tern _))
      (within_commitFix ..).mono))

theorem within_fixHoldTimeout (c : Chip) : Within [.regs, .hostMem, .time, .rules, .host] c c.fixHoldTimeout := by
  unfold Chip.fixHoldTimeout
  split
  · exact .refl _ _
  · exact .ite (((Within.refl _ _).rules _).andThen (within_fixWithdraw ..)) (.refl _ _)

theorem within_slotWritten (c : Chip) (ok : Bool) : Within [.regs, .hostMem, .flash, .host, .plate] c (c.slotWritten ok) := by
  unfold Chip.slotWritten
  split
  · exact .refl _ _
  · extract_lets _ c1 c2
    have hc1 : Within [.regs, .hostMem, .flash, .host, .plate] c c1 := (Within.refl _ _).plate _
    have hc2 : Within [.regs, .hostMem, .flash, .host, .plate] c c2 :=
      (hc1.andThen (within_setSlot ..)).andThen (within_setGood ..)
    exact hc2.andThen (within_finish ..)

theorem within_oobSend (c : Chip) (port op tag : Nat) (r : MbxAns) : Within [.mgt] c (c.oobSend port op tag r) := by
  unfold Chip.oobSend
  exact (Within.refl _ _).mgt _

theorem within_updateWritten (c : Chip) (ok : Bool) :
    Within [.regs, .hostMem, .power, .flash, .mgt, .host] c (c.updateWritten ok) := by
  unfold Chip.updateWritten
  split
  · exact .refl _ _
  · extract_lets _ c1 b c2 r
    have hc1 : Within [.regs, .hostMem, .power, .flash, .mgt, .host] c c1 := (Within.refl _ _).mgt _
    have hc2 : Within [.regs, .hostMem, .power, .flash, .mgt, .host] c c2 :=
      .ite ((hc1.andThen (within_setSlot ..)).andThen (within_log ..)) (hc1.andThen (within_setSlot ..))
    split
    · exact hc2.andThen (within_mbxDone ..)
    · exact hc2.andThen (within_oobSend ..)

theorem within_ropOut (c : Chip) (port dev : Nat) (o : FOp) (rtag : Nat) :
    Within [.regs, .ports, .gang] c (c.ropOut port dev o rtag) := by
  unfold Chip.ropOut
  extract_lets fr c1
  have hc1 : Within [.regs, .ports, .gang] c c1 := (within_nextSeq ..).mono.andThen (within_txStats ..)
  exact ((hc1.andThen (within_setPort ..)).andThen (within_bump ..)).andThen (within_signal ..)

theorem within_ropStart (c : Chip) (pid dev : Nat) (o : FOp) :
    Within [.regs, .hostMem, .sfl, .ports, .pkts, .pattern, .tm, .tel, .host, .gang] c (c.ropStart pid dev o) := by
  unfold Chip.ropStart
  split
  · exact (within_missFb ..).mono
  · split
    · exact (within_missFb ..).mono
    · next d heq =>
      have hd : Within [.regs, .hostMem, .sfl, .ports, .pkts, .pattern, .tm, .tel, .host, .gang] c d := (within_park heq).mono
      exact ((hd.andThen (within_onGang ..)).andThen (within_stampStrip ..)).andThen (within_ropOut ..)

theorem within_sendOp (c : Chip) (pid : Nat) (o : FOp) :
    Within [.regs, .hostMem, .mgt, .sfl, .ports, .pkts, .pattern, .tm, .tel, .host, .flow, .gang] c (c.sendOp pid o) := by
  unfold Chip.sendOp
  extract_lets e
  split
  · exact (within_missFb ..).mono
  · exact .ite ((within_stampStrip ..).mono.andThen (within_ropStart ..))
      (.ite ((within_bumpQ ..).mono.andThen (within_missFb ..))
        (.ite (within_missFb ..).mono (((within_onEng ..).mono.andThen (within_stampStrip ..)).andThen (within_wakeBank ..))))

theorem within_opRelease (c : Chip) (pid : Nat) :
    Within [.regs, .hostMem, .mgt, .sfl, .ports, .pkts, .pattern, .tm, .tel, .host, .flow, .gang] c (c.opRelease pid) := by
  unfold Chip.opRelease
  split
  · exact .refl _ _
  · exact .ite (.refl _ _) (((within_setPkt ..).mono.andThen (within_stampStrip ..)).andThen (within_sendOp ..))

theorem within_cellStart (c : Chip) (p : Nat) :
    Within [.regs, .hostMem, .ports, .pkts, .tm, .tel, .host] c (c.cellStart p) := by
  unfold Chip.cellStart
  extract_lets ps
  split
  · exact .refl _ _
  · refine .ite ?_ ?_
    · exact .refl _ _
    · split
      · exact (within_setPort ..).mono
      · extract_lets c1 c2
        have hc1 : Within [.regs, .hostMem, .ports, .pkts, .tm, .tel, .host] c c1 :=
          (within_setPort ..).mono.andThen (within_setPkt ..)
        have hc2 : Within [.regs, .hostMem, .ports, .pkts, .tm, .tel, .host] c c2 :=
          (hc1.andThen (within_chargeCells ..)).andThen (within_holdCells ..)
        exact .ite hc2 (hc2.andThen (within_settleCells ..))

theorem within_wakeSlice (c : Chip) (s : Nat) : Within [.mgt] c (c.wakeSlice s) := by
  unfold Chip.wakeSlice
  exact .ite ((Within.refl _ _).mgt _) (.refl _ _)

theorem within_frameHead (c : Chip) (p : Nat) (hd : Bytes) : Within [.regs, .mgt, .ports, .pkts, .tm] c (c.frameHead p hd) := by
  unfold Chip.frameHead
  extract_lets ps iseq ps1 pid stamp _ c1
  have hc1 : Within [.regs, .mgt, .ports, .pkts, .tm] c c1 := (within_addPkt ..).mono
  exact .ite (.refl _ _) (.ite ((within_setPort ..).mono.andThen (within_stat ..))
    (.ite (((within_setPort ..).mono.andThen (within_tmDrop ..)).andThen (within_stat ..))
      (.ite (within_setPort ..).mono (.ite ((hc1.andThen (within_setPort ..)).andThen (within_wakeSlice ..))
        (within_setPort ..).mono))))

theorem within_countBad (c : Chip) (p n slot : Nat) : Within [.regs, .hostMem, .host] c (c.countBad p n slot) := by
  unfold Chip.countBad
  extract_lets c1
  have hc1 : Within [.regs, .hostMem, .host] c c1 := (within_rxSize ..).mono.andThen (within_stat ..)
  split
  · exact hc1.andThen (within_signal ..)
  · exact hc1.andThen (within_raise ..)
  · exact hc1.andThen (within_raise ..)
  · exact hc1

theorem within_tailCells (c : Chip) (pid : Nat) : Within [.regs, .hostMem, .pkts, .tm, .tel, .host] c (c.tailCells pid) := by
  unfold Chip.tailCells
  split
  · exact .refl _ _
  · extract_lets c1
    have hc1 : Within [.regs, .hostMem, .pkts, .tm, .tel, .host] c c1 :=
      (within_holdCells ..).mono.andThen (within_settleCells ..)
    split
    · exact hc1
    · extract_lets c2
      have hc2 : Within [.regs, .hostMem, .pkts, .tm, .tel, .host] c c2 :=
        .foldl hc1 fun _ _ => (.ite (.refl _ _) (.ite (within_addCells ..).mono (within_subCells ..).mono))
      exact hc2.andThen (within_setPkt ..)

theorem within_goodTail (c : Chip) (pid : Nat) (body : Bytes) :
    Within [.regs, .hostMem, .sfl, .ports, .pkts, .pattern, .tm, .sched, .tel, .host] c (c.goodTail pid body) := by
  unfold Chip.goodTail
  split
  · exact .refl _ _
  · exact .ite (within_rmPkt ..).mono (.ite (((Within.ite (within_setPkt ..).mono
      ((within_setPkt ..).mono.andThen (within_tailCells ..))).andThen (within_bump ..)).andThen (within_failPkt ..))
        (.ite (((Within.ite (within_setPkt ..).mono ((within_setPkt ..).mono.andThen (within_tailCells ..))).andThen
          (within_stampStrip ..)).andThen (within_punt ..)) ((Within.ite (within_setPkt ..).mono
            ((within_setPkt ..).mono.andThen (within_tailCells ..))).andThen (within_stampStrip ..))))

theorem within_setPause (c : Chip) (p : Nat) (ks : List Nat) (q : Nat) :
    Within [.regs, .ports, .tel] c (c.setPause p ks q) := by
  unfold Chip.setPause
  extract_lets ps m c1
  have hc1 : Within [.regs, .ports, .tel] c c1 := (within_setPort ..).mono.andThen (within_putF ..)
  exact hc1.andThen (within_condEv ..)

theorem within_macControl (c : Chip) (p : Nat) (fr : Bytes) : Within [.regs, .ports, .tel] c (c.macControl p fr) := by
  unfold Chip.macControl
  extract_lets mode op n
  exact .ite ((((within_rxSize ..).mono.andThen (within_stat ..)).andThen (within_signal ..)).andThen (within_setPause ..))
    (.ite (.foldl (((within_rxSize ..).mono.andThen (within_stat ..)).andThen (within_signal ..)) fun _ _ =>
      (.ite (within_setPause ..).mono (.refl _ _))) ((within_rxSize ..).mono.andThen (within_stat ..)))

theorem within_received (c : Chip) (pid : Nat) (b : Bytes) : Within [.pkts] c (c.received pid b) := by
  unfold Chip.received
  split
  · exact .refl _ _
  · extract_lets b1
    exact .ite (within_setPkt ..).mono (.refl _ _)

theorem within_snoop (c : Chip) (p dir : Nat) (fr : Bytes) : Within [.regs, .hostMem, .ports, .host] c (c.snoop p dir fr) := by
  unfold Chip.snoop
  extract_lets start wl win poly ps staged r0 r c1 c2 n tr
  have hc1 : Within [.regs, .hostMem, .ports, .host] c c1 := (within_setPort ..).mono
  have hc2 : Within [.regs, .hostMem, .ports, .host] c c2 :=
    ((hc1.andThen (within_putF ..)).andThen (within_putF ..)).andThen (within_bumpWrap ..)
  exact .ite (.refl _ _) (.ite ((hc2.andThen (within_bump ..)).andThen (within_raise ..)) hc2)

theorem within_frameTail (c : Chip) (p : Nat) (fr : Bytes) (err : Bool) :
    Within [.regs, .hostMem, .sfl, .ports, .pkts, .pattern, .tm, .sched, .tel, .host] c (c.frameTail p fr err) := by
  unfold Chip.frameTail
  extract_lets ps c1 n body bad
  have hc1 : Within [.regs, .hostMem, .sfl, .ports, .pkts, .pattern, .tm, .sched, .tel, .host] c c1 := (within_setPort ..).mono
  refine .ite ?_ ?_
  · exact .refl _ _
  · split
    · exact .ite (hc1.andThen (within_rxSize ..)) (.ite hc1 (hc1.andThen (within_countBad ..)))
    · exact .ite (((hc1.andThen (within_countBad ..)).andThen (within_received ..)).andThen (within_failPkt ..))
        (.ite ((hc1.andThen (within_failPkt ..)).andThen (within_macControl ..))
          (.ite (.ite (hc1.andThen (within_failPkt ..)) (((hc1.andThen (within_failPkt ..)).andThen
            (within_rxGood ..)).andThen (within_bump ..))) ((Within.ite (hc1.andThen (within_rxSize ..))
              ((hc1.andThen (within_rxGood ..)).andThen (within_snoop ..))).andThen (within_goodTail ..))))

theorem within_openCtx (c : Chip) (pid pipe : Nat) : Within [.regs, .pkts, .tel] c (c.openCtx pid pipe) := by
  unfold Chip.openCtx
  split
  · exact .refl _ _
  · extract_lets c1
    have hc1 : Within [.regs, .pkts, .tel] c c1 := (within_setPkt ..).mono
    exact ((hc1.andThen (within_signal ..)).andThen (within_condEv ..)).andThen (within_stampStrip ..)

theorem within_stripSelect (c : Chip) (pid pipe : Nat) : Within [.regs, .pkts, .tel] c (c.stripSelect pid pipe) := by
  unfold Chip.stripSelect
  split
  · exact .refl _ _
  · extract_lets g g2 drawn c1 k force c2 c3
    have hc1 : Within [.regs, .pkts, .tel] c c1 := (within_onTel ..).mono
    have hc2 : Within [.regs, .pkts, .tel] c c2 := .ite (hc1.andThen (within_putF ..)) hc1
    have hc3 : Within [.regs, .pkts, .tel] c c3 := hc2.andThen (within_updPkt ..)
    exact .ite hc1 (.ite (hc1.andThen (within_bump ..)) ((hc3.andThen (within_bump ..)).andThen (within_signal ..)))

theorem within_toPipe (c : Chip) (pid : Nat) (first : Bytes) (len : Nat) :
    Within [.regs, .pkts, .tel] c (c.toPipe pid first len) := by
  unfold Chip.toPipe
  split
  · exact .refl _ _
  · refine .ite ?_ ?_
    · exact .refl _ _
    · split
      · exact (within_bump ..).mono
      · extract_lets b p p1 c1
        have hc1 : Within [.regs, .pkts, .tel] c c1 := (within_setPkt ..).mono.andThen (within_openCtx ..)
        exact .ite (hc1.andThen (within_stripSelect ..)) hc1

theorem within_sentCopy (c : Chip) (pid : Nat) (p : Pkt) (k : Copy) :
    Within [.regs, .hostMem, .ports, .pkts, .pattern, .tm, .tel, .host, .gang] c (c.sentCopy pid p k) := by
  unfold Chip.sentCopy
  extract_lets fr n c1 c2 _ c3 _ c4 c5
  have hc1 : Within [.regs, .hostMem, .ports, .pkts, .pattern, .tm, .tel, .host, .gang] c c1 :=
    (within_txStats ..).mono.andThen (within_snoop ..)
  have hc2 : Within [.regs, .hostMem, .ports, .pkts, .pattern, .tm, .tel, .host, .gang] c c2 :=
    (hc1.andThen (within_stat ..)).andThen (within_stat ..)
  have hc3 : Within [.regs, .hostMem, .ports, .pkts, .pattern, .tm, .tel, .host, .gang] c c3 := .ite (hc2.gang _) hc2
  have hc4 : Within [.regs, .hostMem, .ports, .pkts, .pattern, .tm, .tel, .host, .gang] c c4 := hc3.andThen (within_setPort ..)
  have hc5 : Within [.regs, .hostMem, .ports, .pkts, .pattern, .tm, .tel, .host, .gang] c c5 :=
    .ite (hc4.andThen (within_endStrip ..)) hc4
  exact hc5.andThen (within_endTx ..)

theorem within_frameTransmitted (c : Chip) (port : Nat) :
    Within [.regs, .hostMem, .ports, .pkts, .pattern, .tm, .tel, .host, .gang] c (c.frameTransmitted port) := by
  unfold Chip.frameTransmitted
  split
  · exact .refl _ _
  · split
    · exact (within_setPort ..).mono
    · split
      · exact (within_setPort ..).mono
      · exact .ite (within_sentCopy ..).mono ((within_bump ..).mono.andThen (within_stompCopy ..))

theorem within_freezeWindow (c : Chip) : Within [.sfl] c c.freezeWindow := by
  unfold Chip.freezeWindow
  exact (Within.refl _ _).sfl _

theorem within_srLeft (c : Chip) (ch : Nat) : Within [.regs] c (c.srLeft ch) := by
  unfold Chip.srLeft
  exact (within_putF ..).mono.andThen (within_putF ..)

theorem within_freqDone (c : Chip) (s : Nat) : Within [.regs, .hostMem, .hbm, .tel, .host] c (c.freqDone s) := by
  unfold Chip.freqDone
  split
  · exact .refl _ _
  · extract_lets c1 c2 c3
    have hc1 : Within [.regs, .hostMem, .hbm, .tel, .host] c c1 := (within_onHbm ..).mono
    have hc2 : Within [.regs, .hostMem, .hbm, .tel, .host] c c2 := (hc1.andThen (within_putF ..)).andThen (within_putF ..)
    have hc3 : Within [.regs, .hostMem, .hbm, .tel, .host] c c3 :=
      .foldl hc2 fun _ _ => (((((within_setOwed ..).mono.andThen (within_setOwed ..)).andThen (within_srLeft ..)).andThen
        (within_putF ..)).andThen (within_condEv ..))
    exact (hc3.andThen (within_raise ..)).andThen (within_tryPending ..)

theorem within_takeOwner (c : Chip) (img : Bytes) :
    Within [.regs, .hostMem, .power, .flash, .mgt, .host] c (c.takeOwner img) := by
  unfold Chip.takeOwner
  extract_lets d
  exact .ite (.refl _ _) (((Within.refl _ _).flash _).andThen (within_log ..))

theorem within_activate1 (c : Chip) : Within [.regs, .hostMem, .power, .flash, .mgt, .sfl, .host] c c.activate1 := by
  unfold Chip.activate1
  extract_lets put ok reason data d1 d2 d3
  clear_value ok
  split
  · extract_lets img id signer c1 c2 c3 c4
    have hc1 : Within [.regs, .hostMem, .power, .flash, .mgt, .sfl, .host] c c1 := ((within_takeOwner ..).mono).sfl _
    have hc2 : Within [.regs, .hostMem, .power, .flash, .mgt, .sfl, .host] c c2 :=
      (((hc1.andThen (within_putF ..)).andThen (within_putF ..)).andThen (within_putF ..)).andThen
      (within_putF ..)
    have hc3 : Within [.regs, .hostMem, .power, .flash, .mgt, .sfl, .host] c c3 :=
      ((hc2.andThen (within_putF ..)).andThen (within_putF ..)).andThen (within_putQ ..)
    exact ((hc3.andThen (within_putF ..)).andThen (within_putF ..)).andThen (within_log ..)
  · have hd1 : Within [.regs, .hostMem, .power, .flash, .mgt, .sfl, .host] c d1 := (Within.refl _ _).sfl _
    have hd2 : Within [.regs, .hostMem, .power, .flash, .mgt, .sfl, .host] c d2 :=
      ((hd1.andThen (within_putF ..)).andThen (within_putF ..)).andThen (within_putF ..)
    have hd3 : Within [.regs, .hostMem, .power, .flash, .mgt, .sfl, .host] c d3 :=
      (hd2.andThen (within_putF ..)).andThen (within_putQ ..)
    exact (hd3.andThen (within_putF ..)).andThen (within_log ..)

theorem within_loadNone (c : Chip) (masks : List (List Nat)) :
    Within [.regs, .dram, .hostMem, .power, .mgt, .hbm, .tel, .host] c (c.loadNone masks) := by
  -- unfolded as a function: the kernel would run the training of DRAM
  generalize hload : Chip.loadNone = f
  delta Chip.loadNone at hload
  subst hload
  beta_reduce
  exact ((Within.refl _ _).parts [.power]).andThen (within_loadDram ..)

theorem within_tryPlate (c : Chip) (b : Bool) : Within [.regs, .hostMem, .power, .mgt, .sfl, .host] c (c.tryPlate b).2 := by
  unfold Chip.tryPlate
  extract_lets c1
  have hc1 : Within [.regs, .hostMem, .power, .mgt, .sfl, .host] c c1 := (within_putF ..).mono
  split
  · rename_i d heq
    have hd : Within [.regs, .hostMem, .power, .mgt, .sfl, .host] c d := .of_snd heq (hc1.andThen (within_checkPlate ..))
    exact .snd_mk hd
  · rename_i d heq
    have hd : Within [.regs, .hostMem, .power, .mgt, .sfl, .host] c d := .of_snd heq (hc1.andThen (within_checkPlate ..))
    exact .snd_mk (hd.andThen (within_log ..))

theorem within_tryPlates (bs : List Bool) (c : Chip) :
    Within [.regs, .hostMem, .power, .mgt, .sfl, .host] c (Chip.tryPlates bs c).2 := by
  induction bs generalizing c with
  | nil => exact .refl _ _
  | cons b bs ih =>
    unfold Chip.tryPlates
    split
    · next heq => exact .of_snd heq (within_tryPlate ..).mono
    · next heq => exact (Within.of_snd heq (within_tryPlate ..).mono).andThen (ih ..)

theorem within_fullLoad (c : Chip) (masks : List (List Nat)) :
    Within [.regs, .dram, .hostMem, .power, .flash, .time, .mgt, .sfl, .lanes, .ports, .sites, .pkts, .parse, .rules, .tern,
      .pattern, .tm, .sched, .hbm, .tel, .host, .flow, .gang, .act, .wds, .plate] c (c.fullLoad masks) := by
  unfold Chip.fullLoad
  extract_lets p c1 c2
  have hc1 : Within [.regs, .dram, .hostMem, .power, .flash, .time, .mgt, .sfl, .lanes, .ports, .sites, .pkts, .parse, .rules,
    .tern, .pattern, .tm, .sched, .hbm, .tel, .host, .flow, .gang, .act, .wds, .plate] c c1 := (Within.refl _ _).parts [.power]
  have hc2 : Within [.regs, .dram, .hostMem, .power, .flash, .time, .mgt, .sfl, .lanes, .ports, .sites, .pkts, .parse, .rules,
    .tern, .pattern, .tm, .sched, .hbm, .tel, .host, .flow, .gang, .act, .wds, .plate] c c2 :=
      .ite (hc1.andThen (within_mpStart ..)) hc1
  have htry : Within [.regs, .dram, .hostMem, .power, .flash, .time, .mgt, .sfl, .lanes, .ports, .sites, .pkts, .parse,
    .rules, .tern, .pattern, .tm, .sched, .hbm, .tel, .host, .flow, .gang, .act, .wds, .plate] c
      (Chip.tryPlates (c2.activate1.bootOrder 0) c2.activate1).2 :=
    (hc2.andThen (within_activate1 ..)).andThen (within_tryPlates ..)
  refine .ite (.refl _ _) ?_
  split
  · next heq => exact (Within.of_snd heq htry).andThen (within_loadPlate ..)
  · next heq => exact (Within.of_snd heq htry).andThen (within_loadNone ..)

theorem within_hostReset (c : Chip) : Within [.regs, .wideCap, .wideStage, .host, .flow, .act] c c.hostReset := by
  unfold Chip.hostReset
  extract_lets h a c1
  have hc1 : Within [.regs, .wideCap, .wideStage, .host, .flow, .act] c c1 :=
    (Within.refl _ _).parts [.regs, .wideCap, .wideStage, .act, .host] (hregs := smFilter_wf _)
  exact hc1.andThen (within_onFlow ..)

theorem within_fundamentalReset (c : Chip) : Within [.regs, .wideCap, .wideStage, .host, .flow, .act] c c.fundamentalReset := by
  unfold Chip.fundamentalReset
  extract_lets c1
  have hc1 : Within [.regs, .wideCap, .wideStage, .host, .flow, .act] c c1 := (within_hostReset ..).mono
  exact hc1.host _

theorem within_gangItemOffer (c : Chip) : Within [.regs, .hostMem, .tel, .host, .gang, .wds] c c.gangItemOffer := by
  unfold Chip.gangItemOffer
  split
  · exact .refl _ _
  · split
    · rename_i d heq
      have hd : Within [.regs, .hostMem, .tel, .host, .gang, .wds] c d := .of_snd heq (within_offer ..).mono
      exact hd.andThen (within_onGang ..)
    · rename_i d _ heq
      have hd : Within [.regs, .hostMem, .tel, .host, .gang, .wds] c d := .of_snd heq (within_offer ..).mono
      exact hd

theorem within_gateEnd (c : Chip) (p : Nat) : Within [.regs, .hostMem, .sched, .host] c (c.gateEnd p) := by
  unfold Chip.gateEnd
  split
  · exact .ite ((within_gateOff ..).mono.andThen (within_raise ..)) (.refl _ _)
  · exact .refl _ _

theorem within_kHash (c : Chip) (x : Nat) :
    Within [.regs, .hostMem, .ports, .tel, .host, .flow, .gang, .act] c (c.kHash x) := by
  unfold Chip.kHash
  exact (within_runUnit ..).mono

theorem within_arrive (c : Chip) (e : Nat) (o : FOp) : Within [.regs, .dram, .hostMem, .host, .flow] c (c.arrive e o) := by
  unfold Chip.arrive
  split
  · rename_i d heq
    have hd : Within [.regs, .dram, .hostMem, .host, .flow] c d := .of_fst heq (within_tryOp ..).mono
    exact hd
  · rename_i d heq
    have hd : Within [.regs, .dram, .hostMem, .host, .flow] c d := .of_fst heq (within_tryOp ..).mono
    extract_lets c2 c1 c3
    have hc2 : Within [.regs, .dram, .hostMem, .host, .flow] c c2 := hd.andThen (within_onEng ..)
    have hc1 : Within [.regs, .dram, .hostMem, .host, .flow] c c1 := (within_bumpQ ..).mono.andThen (within_raise ..)
    have hc3 : Within [.regs, .dram, .hostMem, .host, .flow] c c3 :=
      .ite ((hc2.andThen (within_bumpQ ..)).andThen (within_signal ..)) hc2
    exact .ite (.ite (hc1.andThen (within_fallback ..)) (hc1.andThen (within_sendAnswer ..)))
      (.ite (hc3.andThen (within_bumpQ ..)) hc3)

theorem within_otherAbsent (c : Chip) (e : Nat) (o : FOp) :
    Within [.regs, .dram, .hostMem, .host, .flow] c (c.otherAbsent e o) := by
  unfold Chip.otherAbsent
  exact .ite (within_tableOp ..).mono (.ite (within_refuseOp ..).mono (within_sendAnswer ..).mono)

theorem within_arriveEcc (c : Chip) (e : Nat) (o : FOp) (ecc : Nat) :
    Within [.regs, .dram, .hostMem, .host, .flow] c (c.arriveEcc e o ecc) := by
  unfold Chip.arriveEcc
  split
  · rename_i d heq
    have hd : Within [.regs, .dram, .hostMem, .host, .flow] c d := .of_fst heq (within_readWay ..).mono
    exact .ite (hd.andThen (within_fallback ..)) (hd.andThen (within_otherAbsent ..))
  · rename_i d heq
    have hd : Within [.regs, .dram, .hostMem, .host, .flow] c d := .of_fst heq (within_readWay ..).mono
    exact hd.andThen (within_arrive ..)

theorem within_serveReq (c : Chip) (kind e ecc : Nat) :
    Within [.regs, .dram, .hostMem, .mgt, .host, .flow, .act] c (c.serveReq kind e ecc) := by
  unfold Chip.serveReq
  split
  · exact .refl _ _
  · exact .ite (within_wakeBank ..).mono (.ite (.refl _ _) (((Within.refl _ _).act _).andThen (within_arriveEcc ..)))

theorem within_linkJoin (c : Chip) (d : Nat) : Within [.regs, .gang] c (c.linkJoin d) := by
  unfold Chip.linkJoin
  exact .ite (within_setL ..).mono (.refl _ _)

theorem within_enterService (c : Chip) (p d : Nat) : Within [.regs, .hostMem, .host, .gang] c (c.enterService p d) := by
  unfold Chip.enterService
  exact .ite (.refl _ _) ((((within_onGang ..).mono.andThen (within_putF ..)).andThen (within_raise ..)).andThen
    (within_linkJoin ..))

theorem within_helloRx (c : Chip) (p : Nat) (fr : Bytes) :
    Within [.regs, .dram, .hostMem, .sfl, .ports, .pkts, .pattern, .tm, .tel, .host, .flow, .gang, .act] c (c.helloRx p fr) :=
      by
  unfold Chip.helloRx
  exact .ctrlTake (.refl _ _) fun _ _ _ => (.ite (.refl _ _) (.ite ((within_onGang ..).mono.andThen (within_enterService ..))
    (((within_leaveService ..).mono.andThen (within_putF ..)).andThen (within_raise ..))))

theorem within_helloOut (c : Chip) (p : Nat) : Within [.regs, .ports, .gang] c (c.helloOut p) := by
  unfold Chip.helloOut
  exact .ite (.refl _ _) (within_ctrlOut ..).mono

theorem within_holdSet (c : Chip) (l : Nat) (g : SetGroups) : Within [.lanes] c (c.holdSet l g) := by
  unfold Chip.holdSet
  split
  · exact .refl _ _
  · exact (within_onLane ..).mono

theorem within_emitUnit (c : Chip) (x op : Nat) :
    Within [.regs, .hostMem, .sfl, .ports, .tel, .host, .flow, .gang, .act] c (c.emitUnit x op) := by
  unfold Chip.emitUnit
  extract_lets v ok c1
  have hc1 : Within [.regs, .hostMem, .sfl, .ports, .tel, .host, .flow, .gang, .act] c c1 :=
    .ite (within_routineDenied ..).mono (.refl _ _)
  exact hc1.andThen (within_runUnit ..)

theorem within_hostTimedWrite (c : Chip) (n : Nat) :
    Within [.regs, .wideCap, .wideStage, .dram, .hostMem, .freeCtr, .power, .flash, .time, .mgt, .sfl, .lanes, .ports, .sites,
      .pkts, .parse, .rules, .tern, .pattern, .tm, .sched, .hbm, .tel, .host, .flow, .gang, .act, .wds, .plate, .recov] c
        (c.hostTimedWrite n) := by
  unfold Chip.hostTimedWrite
  exact .ite (.refl _ _) (.ite (within_sactWrite ..).mono (.ite (within_sactWrite ..).mono (.refl _ _)))

theorem within_hotReset (c : Chip) (flr : Bool) (link : Nat) :
    Within [.regs, .wideCap, .wideStage, .host, .flow, .act] c (c.hotReset flr link) := by
  unfold Chip.hotReset
  extract_lets old
  exact (within_hostReset ..).mono.andThen (within_wr ..)

theorem within_laneIsUp (c : Chip) (l : Nat) :
    Within [.regs, .dram, .hostMem, .freeCtr, .sfl, .lanes, .ports, .pkts, .pattern, .tm, .sched, .tel, .host, .flow, .gang,
      .act] c (c.laneIsUp l) := by
  unfold Chip.laneIsUp
  extract_lets c1
  have hc1 : Within [.regs, .dram, .hostMem, .freeCtr, .sfl, .lanes, .ports, .pkts, .pattern, .tm,
    Part.sched, .tel, .host, .flow, .gang, .act] c c1 := (within_onLane ..).mono.andThen (within_lput ..)
  exact ((hc1.andThen (within_lput ..)).andThen (within_rxAdapted ..)).andThen (within_laneGo ..)

theorem within_crcInit (c : Chip) (x : Nat) :
    Within [.regs, .hostMem, .ports, .tel, .host, .flow, .gang, .act] c (c.crcInit x) := by
  unfold Chip.crcInit
  exact (within_runUnit ..).mono

theorem within_injDone (c : Chip) (n st k : Nat) : Within [.regs, .hostMem, .host] c (c.injDone n st k) := by
  induction k generalizing c with
  | zero => exact .refl _ _
  | succ k ih =>
    exact (((within_hostWrite ..).mono.andThen (within_bumpWrap ..)).andThen (within_setRing ..)).andThen (ih ..)

theorem within_injOut (c : Chip) (n mode : Nat) (port cls : Nat) (fr : Bytes) :
    Within [.regs, .hostMem, .pkts, .tm, .tel, .host] c (c.injOut n mode port cls fr) := by
  unfold Chip.injOut
  extract_lets seq
  exact .ite (within_handOver ..).mono (within_handOver ..).mono

theorem within_inject1 (c : Chip) (n : Nat) : Within [.regs, .hostMem, .sfl, .pkts, .tm, .tel, .host] c (c.inject1 n) := by
  unfold Chip.inject1
  extract_lets k
  refine .ite ?_ ?_
  · exact .refl _ _
  · split
    · refine .ite ?_ ?_
      · split
        · rename_i d heq
          have hd : Within [.regs, .hostMem, .sfl, .pkts, .tm, .tel, .host] c d := .of_snd heq (within_cpTake ..).mono
          exact hd.andThen (within_injDone ..)
        · rename_i d heq
          have hd : Within [.regs, .hostMem, .sfl, .pkts, .tm, .tel, .host] c d := .of_snd heq (within_cpTake ..).mono
          exact hd
      · exact .refl _ _
    · extract_lets info port mode fr shape
      refine .ite ?_ ?_
      · exact .refl _ _
      · split
        · rename_i d heq
          have hd : Within [.regs, .hostMem, .sfl, .pkts, .tm, .tel, .host] c d := .of_snd heq (within_cpTake ..).mono
          exact hd
        · rename_i d heq
          have hd : Within [.regs, .hostMem, .sfl, .pkts, .tm, .tel, .host] c d := .of_snd heq (within_cpTake ..).mono
          exact .ite (hd.andThen (within_injDone ..)) (.ite ((hd.andThen (within_deniedCapture ..)).andThen
            (within_injDone ..)) ((hd.andThen (within_injOut ..)).andThen (within_injDone ..)))

theorem within_orFlags (c : Chip) (m : Nat) (fs : Bytes) : Within [.regs, .hostMem, .host] c (c.orFlags m fs) := by
  unfold Chip.orFlags
  extract_lets a old new c1
  have hc1 : Within [.regs, .hostMem, .host] c c1 := (within_putWords ..).mono
  exact .ite hc1 (hc1.andThen (within_raise ..))

theorem within_intlFall (c : Chip) (m : Nat) (fs : Bytes) : Within [.regs, .hostMem, .host] c (c.intlFall m fs) := by
  unfold Chip.intlFall
  exact .ite (.refl _ _) (.ite ((within_orFlags ..).mono.andThen (within_putF ..)) (within_putF ..).mono)

theorem within_followStart (c : Chip) (x q : Nat) : Within [.regs, .tel] c (c.followStart x q) := by
  unfold Chip.followStart
  exact .ite (.refl _ _) (.ite ((Within.refl _ _).tel _) (.ite (((Within.refl _ _).tel _).andThen (within_bump ..))
    (((Within.refl _ _).tel _).tel _)))

theorem within_bindItem (c : Chip) (x q : Nat) (b : Bound) (rest : List Bound) :
    Within [.regs, .hostMem, .tel, .host, .act, .wds] c (c.bindItem x q b rest) := by
  unfold Chip.bindItem
  extract_lets c1 c2 k c3
  have hc1 : Within [.regs, .hostMem, .tel, .host, .act, .wds] c c1 := (within_setWaiting ..).mono.andThen (within_setCtx ..)
  have hc2 : Within [.regs, .hostMem, .tel, .host, .act, .wds] c c2 := (hc1.andThen (within_bump ..)).andThen (within_signal ..)
  have hc3 : Within [.regs, .hostMem, .tel, .host, .act, .wds] c c3 :=
    ((hc2.andThen (within_bumpQ ..)).andThen (within_signal ..)).andThen (within_condEv ..)
  exact (hc3.andThen (within_csItem ..)).andThen (within_followStart ..)

theorem within_itemBind (c : Chip) (k : Nat) : Within [.regs, .hostMem, .tel, .host, .act, .wds] c (c.itemBind k) := by
  unfold Chip.itemBind
  refine .ite ?_ ?_
  · exact .refl _ _
  · split
    · split
      · exact .refl _ _
      · exact (within_onWds ..).mono.andThen (within_bindItem ..)
    · exact .refl _ _

theorem within_joinReq (c : Chip) (p : Nat) (fr : Bytes) (linked : Bool) :
    Within [.regs, .ports, .gang] c (c.joinReq p fr linked) := by
  unfold Chip.joinReq
  exact .ctrlTake (.refl _ _) fun _ _ _ => (.ite (.refl _ _) (within_runChange ..).mono)

theorem within_joinTimeout (c : Chip) : Within [.regs, .hostMem, .host, .gang] c c.joinTimeout := by
  unfold Chip.joinTimeout
  exact .ite ((within_onGang ..).mono.andThen (within_finish ..)) (.refl _ _)

theorem within_kBld (c : Chip) (x : Nat) : Within [.regs, .hostMem, .ports, .tel, .host, .flow, .gang, .act] c (c.kBld x) := by
  unfold Chip.kBld
  exact (within_runUnit ..).mono

theorem within_kCmp (c : Chip) (x : Nat) : Within [.regs, .hostMem, .ports, .tel, .host, .flow, .gang, .act] c (c.kCmp x) := by
  unfold Chip.kCmp
  exact (within_runUnit ..).mono

theorem within_dimEnter (c : Chip) (l : Nat) (tx : Bool) :
    Within [.regs, .dram, .hostMem, .sfl, .ports, .pkts, .pattern, .tm, .sched, .tel, .host, .flow, .gang, .act] c
      (c.dimEnter l tx) := by
  unfold Chip.dimEnter
  extract_lets capable c1 both
  have hc1 : Within [.regs, .dram, .hostMem, .sfl, .ports, .pkts, .pattern, .tm, .sched, .tel,
    Part.host, .flow, .gang, .act] c c1 := (within_setDim ..).mono
  exact .ite (.refl _ _) (.ite (hc1.andThen (within_laneGo ..)) (hc1.andThen (within_laneTold ..)))

theorem within_laneResumed (c : Chip) (l : Nat) (tx : Bool) :
    Within [.regs, .dram, .hostMem, .sfl, .lanes, .ports, .pkts, .pattern, .tm, .sched, .tel, .host, .flow, .gang, .act] c
      (c.laneResumed l tx) := by
  unfold Chip.laneResumed
  exact .ite (.refl _ _) (.ite (((within_setDim ..).mono.andThen (within_onLane ..)).andThen (within_laneGo ..))
    (((within_setDim ..).mono.andThen (within_onLane ..)).andThen (within_laneTold ..)))

theorem within_laneWake (c : Chip) (l : Nat) : Within [.mgt, .lanes] c (c.laneWake l) := by
  unfold Chip.laneWake
  exact .ite ((within_onLane ..).mono.andThen (within_wakeSlice ..)) (.refl _ _)

theorem within_linkLost (c : Chip) (l : Nat) :
    Within [.regs, .dram, .hostMem, .sfl, .lanes, .ports, .pkts, .pattern, .tm, .sched, .tel, .host, .flow, .gang, .act] c
      (c.linkLost l) := by
  unfold Chip.linkLost
  exact .ite ((within_laneReason ..).mono.andThen (within_bringUp ..)) (.refl _ _)

theorem within_logCopy (c : Chip) : Within [.regs, .mgt] c c.logCopy := by
  unfold Chip.logCopy
  split
  · exact .refl _ _
  · extract_lets l l1
    exact ((Within.refl _ _).mgt _).andThen (within_putF ..)

theorem within_lpiEnter (c : Chip) (p : Nat) : Within [.regs, .tel] c (c.lpiEnter p) := by
  unfold Chip.lpiEnter
  exact .ite (within_setLpi ..).mono (.refl _ _)

theorem within_lpiExit (c : Chip) (p : Nat) : Within [.regs, .ports, .tel] c (c.lpiExit p) := by
  unfold Chip.lpiExit
  exact .ite ((within_setPort ..).mono.andThen (within_setLpi ..)) (.refl _ _)

theorem within_lpiDone (c : Chip) (p : Nat) : Within [.ports] c (c.lpiDone p) := by
  unfold Chip.lpiDone
  exact (within_setPort ..).mono

theorem within_changeItems (c : Chip) (x : GChange) (got gave : List Nat) :
    Within [.regs, .gang] c (c.changeItems x got gave) := by
  unfold Chip.changeItems
  extract_lets own c1 c2
  have hc1 : Within [.regs, .gang] c c1 := .ite (.refl _ _) (within_gangItem ..).mono
  have hc2 : Within [.regs, .gang] c c2 := .ite hc1 (hc1.andThen (within_gangItem ..))
  exact .ite (hc2.andThen (within_gangItem ..)) (.ite (hc2.andThen (within_gangItem ..)) hc2)

theorem within_gangCmdDone (c : Chip) (member : Bool) : Within [.regs, .hostMem, .host, .gang] c (c.gangCmdDone member) := by
  unfold Chip.gangCmdDone
  exact .ite ((within_onGang ..).mono.andThen (within_finish ..)) (.refl _ _)

theorem within_promote (c : Chip) (slots : List Nat) : Within [.dram] c (c.promote slots) := by
  unfold Chip.promote
  exact .foldl (.refl _ _) fun _ _ => (.ite (within_storeRec ..).mono (.refl _ _))

theorem within_applyMap (c : Chip) (x : GChange) :
    Within [.regs, .dram, .hostMem, .ports, .host, .flow, .gang] c (c.applyMap x) := by
  unfold Chip.applyMap
  extract_lets own was old oldMembers ms isIn got gave c1 c2 c3 c4 givers c5 c6 c7 c8
  have hc1 : Within [.regs, .dram, .hostMem, .ports, .host, .flow, .gang] c c1 :=
    (within_setMap ..).mono.andThen (within_putF ..)
  have hc2 : Within [.regs, .dram, .hostMem, .ports, .host, .flow, .gang] c c2 := hc1.andThen (within_putF ..)
  have hc3 : Within [.regs, .dram, .hostMem, .ports, .host, .flow, .gang] c c3 := hc2.andThen (within_putF ..)
  have hc4 : Within [.regs, .dram, .hostMem, .ports, .host, .flow, .gang] c c4 := hc3.andThen (within_putF ..)
  have hc5 : Within [.regs, .dram, .hostMem, .ports, .host, .flow, .gang] c c5 := hc4.andThen (within_onGang ..)
  have hc6 : Within [.regs, .dram, .hostMem, .ports, .host, .flow, .gang] c c6 := .ite (hc5.andThen (within_promote ..)) hc5
  have hc7 : Within [.regs, .dram, .hostMem, .ports, .host, .flow, .gang] c c7 := hc6.andThen (within_raise ..)
  have hc8 : Within [.regs, .dram, .hostMem, .ports, .host, .flow, .gang] c c8 := .ite (hc7.andThen (within_raise ..)) hc7
  exact (((hc8.andThen (within_changeItems ..)).andThen (within_gangCmdDone ..)).andThen (within_finalCheck ..)).andThen
    (within_nextLoss ..)

theorem within_mapCommit (c : Chip) : Within [.regs, .dram, .hostMem, .ports, .host, .flow, .gang] c c.mapCommit := by
  unfold Chip.mapCommit
  split
  · exact .refl _ _
  · split
    · exact .refl _ _
    · exact .ite (within_applyMap ..).mono (.refl _ _)

theorem within_maxExceeded (c : Chip) (p : Nat) (b : Bytes) :
    Within [.regs, .hostMem, .ports, .pkts, .pattern, .tm, .sched, .tel, .host] c (c.maxExceeded p b) := by
  unfold Chip.maxExceeded
  refine .andThen ?_ (within_cutArriving ..)
  split
  · exact (within_received ..).mono
  · exact .refl _ _

theorem within_meterRefresh (c : Chip) (e : Nat) : Within [.flow] c (c.meterRefresh e) := by
  unfold Chip.meterRefresh
  extract_lets now
  exact (within_onFlow ..).mono

theorem within_onLookup (c : Chip) (e : Nat) (key : Bytes) (f : FLookup → FLookup) : Within [.flow] c (c.onLookup e key f) := by
  unfold Chip.onLookup
  exact (within_onEng ..).mono

theorem within_missGrant (c : Chip) (e : Nat) : Within [.regs, .flow] c (c.missGrant e) := by
  unfold Chip.missGrant
  refine .ite ?_ ?_
  · exact .refl _ _
  · split
    · exact ((within_onLookup ..).mono.andThen (within_bumpQ ..)).andThen (within_signal ..)
    · exact .refl _ _

theorem within_moduleInsert (c : Chip) (m : Nat) :
    Within [.regs, .dram, .hostMem, .sfl, .lanes, .ports, .sites, .pkts, .pattern, .tm, .sched, .tel, .host, .flow, .gang,
      .act] c (c.moduleInsert m) := by
  unfold Chip.moduleInsert
  exact .ite (.refl _ _) (.ite (((within_putF ..).mono.andThen (within_raise ..)).andThen (within_siteStart ..))
    (within_putF ..).mono)

theorem within_moduleRemove (c : Chip) (m : Nat) :
    Within [.regs, .dram, .hostMem, .sfl, .lanes, .ports, .sites, .pkts, .pattern, .tm, .sched, .tel, .host, .flow, .gang,
      .act] c (c.moduleRemove m) := by
  unfold Chip.moduleRemove
  exact .ite (.refl _ _) (.ite (within_putF ..).mono ((Within.ite
    (((((within_putF ..).mono.andThen (within_raise ..)).andThen (within_putF ..)).andThen (within_putF ..)).andThen
      (within_xferEnd ..)) ((((within_putF ..).mono.andThen (within_raise ..)).andThen (within_putF ..)).andThen
        (within_putF ..))).andThen (within_siteStart ..)))

theorem within_monitorPoll (c : Chip) (m temp vcc : Nat) : Within [.regs] c (c.monitorPoll m temp vcc) := by
  unfold Chip.monitorPoll
  exact .ite ((within_putF ..).mono.andThen (within_putF ..)) (.refl _ _)

theorem within_mpIdleStop (c : Chip) : Within [.regs] c c.mpIdleStop := by
  unfold Chip.mpIdleStop
  exact .ite (within_putF ..).mono (.refl _ _)

theorem within_mpWatchdog (c : Chip) : Within [.regs, .hostMem, .power, .mgt, .host] c c.mpWatchdog := by
  unfold Chip.mpWatchdog
  exact .ite (.refl _ _) (((within_log ..).mono.andThen (within_raise ..)).andThen (within_mpStart ..))

theorem within_kNats (c : Chip) (x : Nat) :
    Within [.regs, .hostMem, .ports, .tel, .host, .flow, .gang, .act] c (c.kNats x) := by
  unfold Chip.kNats
  exact (within_runUnit ..).mono

theorem within_kNatx (c : Chip) (x : Nat) :
    Within [.regs, .hostMem, .ports, .tel, .host, .flow, .gang, .act] c (c.kNatx x) := by
  unfold Chip.kNatx
  exact (within_runUnit ..).mono

theorem within_noResponse (c : Chip) (m : Nat) :
    Within [.regs, .dram, .hostMem, .sfl, .lanes, .ports, .sites, .pkts, .pattern, .tm, .sched, .tel, .host, .flow, .gang,
      .act] c (c.noResponse m) := by
  unfold Chip.noResponse
  exact .ite (((within_onSite ..).mono.andThen (within_siteGo ..)).andThen (within_raise ..)) (.refl _ _)

theorem within_obsTick (c : Chip) : Within [.regs, .sched] c c.obsTick := by
  unfold Chip.obsTick
  exact .ite (.refl _ _) ((Within.foldl (within_clearQueueRegs ..).mono fun _ _ => (within_putF ..).mono).sched _)

theorem within_oldestOut (c : Chip) : Within [.regs, .ports, .gang] c c.oldestOut := by
  unfold Chip.oldestOut
  exact .foldl (.refl _ _) fun _ _ => (within_ctrlOut ..).mono

theorem within_oobDatagram (c : Chip) (port : Nat) (src pl : Bytes) :
    Within [.regs, .hostMem, .power, .flash, .mgt, .sfl, .host] c (c.oobDatagram port src pl) := by
  unfold Chip.oobDatagram
  refine .ite ?_ ?_
  · exact .refl _ _
  · refine .ite ?_ ?_
    · exact (within_bump ..).mono
    · extract_lets op tag
      split
      · rename_i d heq
        have hd : Within [.regs, .hostMem, .power, .flash, .mgt, .sfl, .host] c d :=
          .of_snd heq ((within_mpWake ..).mono.andThen (within_mailbox ..))
        exact hd.andThen (within_oobSend ..)
      · rename_i d heq
        have hd : Within [.regs, .hostMem, .power, .flash, .mgt, .sfl, .host] c d :=
          .of_snd heq ((within_mpWake ..).mono.andThen (within_mailbox ..))
        exact hd

theorem within_opDeadline (c : Chip) (e i : Nat) : Within [.regs, .flow] c (c.opDeadline e i) := by
  unfold Chip.opDeadline
  split
  · exact .refl _ _
  · exact .ite (.refl _ _) ((within_leave ..).mono.andThen (within_fallback ..))

theorem within_replay (c : Chip) (e ecc : Nat) : Within [.regs, .dram, .hostMem, .host, .flow] c (c.replay e ecc) := by
  unfold Chip.replay
  split
  · exact .refl _ _
  · split
    · rename_i d heq
      have hd : Within [.regs, .dram, .hostMem, .host, .flow] c d := .of_fst heq (within_readWay ..).mono
      exact .ite ((hd.andThen (within_leave ..)).andThen (within_fallback ..))
        ((hd.andThen (within_leave ..)).andThen (within_otherAbsent ..))
    · rename_i d heq
      have hd : Within [.regs, .dram, .hostMem, .host, .flow] c d := .of_fst heq (within_readWay ..).mono
      split
      · rename_i d1 heq1
        have hd1 : Within [.regs, .dram, .hostMem, .host, .flow] c d1 := .of_fst heq1 (hd.andThen (within_tryOp ..))
        exact hd1.andThen (within_leave ..)
      · rename_i d1 heq1
        have hd1 : Within [.regs, .dram, .hostMem, .host, .flow] c d1 := .of_fst heq1 (hd.andThen (within_tryOp ..))
        exact hd1

theorem within_crcOut (c : Chip) (x : Nat) :
    Within [.regs, .hostMem, .ports, .tel, .host, .flow, .gang, .act] c (c.crcOut x) := by
  unfold Chip.crcOut
  exact (within_runUnit ..).mono

theorem within_reported (c : Chip) (pid act : Nat) (rep : Bytes) :
    Within [.regs, .hostMem, .sfl, .pkts, .pattern, .tm, .tel, .host] c (c.reported pid act rep) := by
  unfold Chip.reported
  split
  · exact .refl _ _
  · extract_lets waiting c1
    have hc1 : Within [.regs, .hostMem, .sfl, .pkts, .pattern, .tm, .tel, .host] c c1 := (within_setPkt ..).mono
    split
    · exact hc1.andThen (within_dropVerdict ..)
    · exact hc1.andThen (within_punt ..)
    · exact .ite (hc1.andThen (within_goOn ..)) hc1

theorem within_overload (c : Chip) (pid : Nat) (err : Bool) :
    Within [.regs, .hostMem, .sfl, .pkts, .pattern, .tm, .tel, .host] c (c.overload pid err) := by
  unfold Chip.overload
  split
  · exact .refl _ _
  · extract_lets g c1 act
    have hc1 : Within [.regs, .hostMem, .sfl, .pkts, .pattern, .tm, .tel, .host] c c1 :=
      .ite ((within_bump ..).mono.andThen (within_raise ..)) ((within_bump ..).mono.andThen (within_raise ..))
    exact hc1.andThen (within_reported ..)

theorem within_scanReport (c : Chip) (eng : Nat) (ms : List (Nat × Nat)) (err : Bool) (line : Nat) :
    Within [.regs, .hostMem, .sfl, .pkts, .pattern, .tm, .tel, .host] c (c.scanReport eng ms err line) := by
  unfold Chip.scanReport
  split
  · exact .refl _ _
  · split
    · exact (Within.refl _ _).pattern _
    · extract_lets g _ c1 _ c2 c3 c4 first act
      have hc1 : Within [.regs, .hostMem, .sfl, .pkts, .pattern, .tm, .tel, .host] c c1 := (Within.refl _ _).pattern _
      have hc2 : Within [.regs, .hostMem, .sfl, .pkts, .pattern, .tm, .tel, .host] c c2 := hc1.andThen (within_bump ..)
      have hc3 : Within [.regs, .hostMem, .sfl, .pkts, .pattern, .tm, .tel, .host] c c3 :=
        .ite hc2 (hc2.andThen (within_bump ..))
      have hc4 : Within [.regs, .hostMem, .sfl, .pkts, .pattern, .tm, .tel, .host] c c4 :=
        .ite (hc3.andThen (within_bump ..)) hc3
      refine .ite ?_ ?_
      · exact (hc1.pattern _).andThen (within_overload ..)
      · split
        · exact (hc1.andThen (within_bump ..)).andThen (within_reported ..)
        · exact hc4.andThen (within_reported ..)

theorem within_scanTake (c : Chip) (pid e : Nat) : Within [.pattern] c (c.scanTake pid e) := by
  unfold Chip.scanTake
  exact (Within.refl _ _).pattern _

theorem within_scanStart (c : Chip) (pid : Nat) :
    Within [.regs, .hostMem, .sfl, .pkts, .pattern, .tm, .tel, .host] c (c.scanStart pid) := by
  unfold Chip.scanStart
  split
  · exact .refl _ _
  · refine .ite ?_ ?_
    · exact .refl _ _
    · extract_lets queued
      refine .ite ?_ ?_
      · exact (within_overload ..).mono
      · split
        · split
          · exact .ite (within_scanTake ..).mono (.ite (.refl _ _)
              (.ite (within_overload ..).mono ((Within.refl _ _).pattern _)))
          · exact (within_scanTake ..).mono
        · exact .ite (.refl _ _) (.ite (within_overload ..).mono ((Within.refl _ _).pattern _))

theorem within_scanTimeout (c : Chip) (pid : Nat) :
    Within [.regs, .hostMem, .sfl, .pkts, .pattern, .tm, .tel, .host] c (c.scanTimeout pid) := by
  unfold Chip.scanTimeout
  exact .ite (((Within.refl _ _).pattern _).andThen (within_overload ..)) (.refl _ _)

theorem within_macFrame (c : Chip) (p op : Nat) (fr : Bytes) : Within [.regs, .ports, .tel] c (c.macFrame p op fr) := by
  unfold Chip.macFrame
  exact .ite (within_macControl ..).mono (.refl _ _)

theorem within_peerLoss (c : Chip) (a b : Nat) : Within [.regs, .hostMem, .ports, .host, .gang] c (c.peerLoss a b) := by
  unfold Chip.peerLoss
  extract_lets own lo hi c1
  have hc1 : Within [.regs, .hostMem, .ports, .host, .gang] c c1 := (within_putF ..).mono.andThen (within_raise ..)
  exact .ite (.refl _ _) (.ite (.refl _ _) (.ite (hc1.andThen (within_onGang ..)) (.ite (within_lossOf ..).mono (.refl _ _))))

theorem within_discardCopy (c : Chip) (pid : Nat) (p : Pkt) (k : Copy) (reason : Nat) :
    Within [.regs, .hostMem, .pkts, .pattern, .tm, .tel, .host] c (c.discardCopy pid p k reason) := by
  unfold Chip.discardCopy
  extract_lets mark c1
  have hc1 : Within [.regs, .hostMem, .pkts, .pattern, .tm, .tel, .host] c c1 := .ite (within_endStrip ..).mono (.refl _ _)
  exact ((hc1.andThen (within_subCells ..)).andThen (within_endCopy ..)).andThen (within_settleBindings ..)

theorem within_dropOversize (c : Chip) (p k q n : Nat) :
    Within [.regs, .hostMem, .pkts, .pattern, .tm, .sched, .tel, .host] c (c.dropOversize p k q n) := by
  induction n generalizing c with
  | zero => exact .refl _ _
  | succ n ih =>
    unfold Chip.dropOversize
    split
    · exact .refl _ _
    · exact (((((within_dequeue ..).mono.andThen (within_discardCopy ..)).andThen (within_bump ..)).andThen
        (within_stat ..)).andThen (within_raise ..)).andThen (ih ..)

theorem within_portOversize (c : Chip) (p : Nat) :
    Within [.regs, .hostMem, .pkts, .pattern, .tm, .sched, .tel, .host] c (c.portOversize p) := by
  unfold Chip.portOversize
  exact .foldl (.refl _ _) fun _ _ => (.foldl (.refl _ _) fun _ _ => (within_dropOversize ..).mono)

theorem within_pendStart (c : Chip) (p : Nat) :
    Within [.regs, .hostMem, .time, .pkts, .pattern, .tm, .sched, .tel, .host] c (c.pendStart p) := by
  unfold Chip.pendStart
  split
  · exact .refl _ _
  · extract_lets late _ c1
    have hc1 : Within [.regs, .hostMem, .time, .pkts, .pattern, .tm, .sched, .tel, .host] c c1 := (Within.refl _ _).time _
    exact .ite (((((hc1.andThen (within_setGate ..)).andThen (within_gateRegs ..)).andThen (within_raise ..)).andThen
      (within_signal ..)).andThen (within_portOversize ..)) (.refl _ _)

theorem within_perstOff (c : Chip) (link : Nat) : Within [.regs, .host] c (c.perstOff link) := by
  unfold Chip.perstOff
  extract_lets _ c1
  have hc1 : Within [.regs, .host] c c1 := (Within.refl _ _).host _
  exact .ite (hc1.andThen (within_wr ..)) hc1

theorem within_sendMacControl (c : Chip) (p back : Nat) : Within [.regs, .ports, .tel] c (c.sendMacControl p back) := by
  unfold Chip.sendMacControl
  extract_lets fr c1 c2
  have hc1 : Within [.regs, .ports, .tel] c c1 := (within_txStats ..).mono.andThen (within_stat ..)
  have hc2 : Within [.regs, .ports, .tel] c c2 := (hc1.andThen (within_putF ..)).andThen (within_condEv ..)
  exact hc2.andThen (within_setPort ..)

theorem within_pfcSend (c : Chip) (p : Nat) : Within [.regs, .ports, .tm, .tel] c (c.pfcSend p) := by
  unfold Chip.pfcSend
  extract_lets d
  exact .ite (.refl _ _) (((Within.refl _ _).tm _).andThen (within_sendMacControl ..))

theorem within_pfcRefresh (c : Chip) (p : Nat) : Within [.regs, .ports, .tel] c (c.pfcRefresh p) := by
  unfold Chip.pfcRefresh
  exact .ite (.refl _ _) (within_sendMacControl ..).mono

theorem within_pinCodes (c : Chip) (l tx rx : Nat) : Within [.regs, .hostMem, .host] c (c.pinCodes l tx rx) := by
  unfold Chip.pinCodes
  extract_lets rise c1
  have hc1 : Within [.regs, .hostMem, .host] c c1 := (within_lput ..).mono.andThen (within_lput ..)
  exact .ite (hc1.andThen (within_lraise ..)) hc1

theorem within_pinResult (c : Chip) (l tx rx : Nat) (test : Bool) :
    Within [.regs, .dram, .hostMem, .sfl, .lanes, .ports, .pkts, .pattern, .tm, .sched, .tel, .host, .flow, .gang, .act] c
      (c.pinResult l tx rx test) := by
  unfold Chip.pinResult
  extract_lets c1
  have hc1 : Within [.regs, .dram, .hostMem, .sfl, .lanes, .ports, .pkts, .pattern, .tm, .sched,
    Part.tel, .host, .flow, .gang, .act] c c1 := (within_pinCodes ..).mono
  exact .ite (((hc1.andThen (within_laneReason ..)).andThen (within_onLane ..)).andThen (within_laneGo ..))
    (.ite (hc1.andThen (within_bringUp ..)) hc1)

theorem within_pinFault (c : Chip) (l tx rx : Nat) :
    Within [.regs, .dram, .hostMem, .sfl, .lanes, .ports, .pkts, .pattern, .tm, .sched, .tel, .host, .flow, .gang, .act] c
      (c.pinFault l tx rx) := by
  unfold Chip.pinFault
  exact .ite (.refl _ _) (within_pinResult ..).mono

theorem within_pinDone (c : Chip) (l tx rx : Nat) :
    Within [.regs, .dram, .hostMem, .sfl, .lanes, .ports, .pkts, .pattern, .tm, .sched, .tel, .host, .flow, .gang, .act] c
      (c.pinDone l tx rx) := by
  unfold Chip.pinDone
  exact .ite (within_pinResult ..).mono (.refl _ _)

theorem within_resend (c : Chip) (o : FOp) :
    Within [.regs, .hostMem, .sfl, .ports, .pkts, .pattern, .tm, .tel, .host, .gang] c (c.resend o) := by
  unfold Chip.resend
  split
  · exact (within_missFb ..).mono
  · exact (within_ropStart ..).mono

theorem within_serveInput (c : Chip) (e ecc : Nat) :
    Within [.regs, .dram, .hostMem, .sfl, .ports, .pkts, .pattern, .tm, .tel, .host, .flow, .gang] c (c.serveInput e ecc) := by
  unfold Chip.serveInput
  refine .ite ?_ ?_
  · exact .refl _ _
  · split
    · exact .refl _ _
    · extract_lets c1
      have hc1 : Within [.regs, .dram, .hostMem, .sfl, .ports, .pkts, .pattern, .tm, .tel, .host,
        Part.flow, .gang] c c1 := (within_onEng ..).mono
      exact .ite (.ite (hc1.andThen (within_arriveEcc ..)) (hc1.andThen (within_resend ..)))
        (.ite (hc1.andThen (within_rresOut ..)) (hc1.andThen (within_arriveEcc ..)))

theorem within_polarity (c : Chip) (l : Nat) : Within [.regs, .hostMem, .host] c (c.polarity l) := by
  unfold Chip.polarity
  exact .ite (.refl _ _) ((within_lput ..).mono.andThen (within_lraise ..))

theorem within_kPoola (c : Chip) (x : Nat) :
    Within [.regs, .hostMem, .ports, .tel, .host, .flow, .gang, .act] c (c.kPoola x) := by
  unfold Chip.kPoola
  exact (within_runUnit ..).mono

theorem within_kPoolp (c : Chip) (x : Nat) :
    Within [.regs, .hostMem, .ports, .tel, .host, .flow, .gang, .act] c (c.kPoolp x) := by
  unfold Chip.kPoolp
  exact (within_runUnit ..).mono

theorem within_groupBackOff (c : Chip) (l : Nat) :
    Within [.regs, .dram, .hostMem, .sfl, .lanes, .ports, .pkts, .pattern, .tm, .sched, .tel, .host, .flow, .gang, .act] c
      (c.groupBackOff l) := by
  unfold Chip.groupBackOff
  exact .ite (.refl _ _) (((within_onLane ..).mono.andThen (within_lput ..)).andThen (within_laneGo ..))

theorem within_portGiveup (c : Chip) (p : Nat) :
    Within [.regs, .dram, .hostMem, .sfl, .lanes, .ports, .pkts, .pattern, .tm, .sched, .tel, .host, .flow, .gang, .act] c
      (c.portGiveup p) := by
  unfold Chip.portGiveup
  extract_lets ls w lower _ c1 c2
  have hc1 : Within [.regs, .dram, .hostMem, .sfl, .lanes, .ports, .pkts, .pattern, .tm, .sched,
    Part.tel, .host, .flow, .gang, .act] c c1 := (within_setPort ..).mono
  have hc2 : Within [.regs, .dram, .hostMem, .sfl, .lanes, .ports, .pkts, .pattern, .tm, .sched,
    Part.tel, .host, .flow, .gang, .act] c c2 := .foldl (.refl _ _) fun _ _ => (within_groupBackOff ..).mono
  exact .ite (.refl _ _) (.ite (((Within.foldl hc1 fun _ _ => (within_groupBackOff ..).mono).andThen
    (within_raise ..)).andThen (within_portEval ..)) ((hc2.andThen (within_putF ..)).andThen (within_raise ..)))

theorem within_pdEnter (c : Chip) (g : Nat) : Within [.regs, .tel] c (c.pdEnter g) := by
  unfold Chip.pdEnter
  extract_lets x
  exact .ite (.refl _ _) (within_setPd ..).mono

theorem within_pdExit (c : Chip) (g : Nat) : Within [.regs, .tel] c (c.pdExit g) := by
  unfold Chip.pdExit
  exact .ite (within_setPd ..).mono (.refl _ _)

theorem within_ppsIn (c : Chip) : Within [.regs, .hostMem, .time, .host] c c.ppsIn := by
  unfold Chip.ppsIn
  extract_lets early _ c1
  have hc1 : Within [.regs, .hostMem, .time, .host] c c1 := (Within.refl _ _).time _
  exact .ite (.refl _ _) (.ite hc1 ((hc1.andThen (within_putQ ..)).andThen (within_raise ..)))

theorem within_prepAnswer (c : Chip) (x : Nat) :
    Within [.regs, .hostMem, .sfl, .ports, .tel, .host, .flow, .gang, .act] c (c.prepAnswer x) := by
  unfold Chip.prepAnswer
  extract_lets v
  split
  · exact .refl _ _
  · split
    · exact .refl _ _
    · extract_lets c1
      have hc1 : Within [.regs, .hostMem, .sfl, .ports, .tel, .host, .flow, .gang, .act] c c1 := (within_onFlow ..).mono
      split
      · exact (hc1.andThen (within_setEnt ..)).andThen (within_nextPrep ..)
      · exact (hc1.andThen (within_setEnt ..)).andThen (within_nextPrep ..)
      · exact .ite ((hc1.andThen (within_setEnt ..)).andThen (within_endCtx ..))
          ((hc1.andThen (within_setEnt ..)).andThen (within_nextPrep ..))
      · exact (hc1.andThen (within_setEnt ..)).andThen (within_endCtx ..)
      · extract_lets c2
        have hc2 : Within [.regs, .hostMem, .sfl, .ports, .tel, .host, .flow, .gang, .act] c c2 :=
          .ite (hc1.andThen (within_routineDenied ..)) hc1
        exact (hc2.andThen (within_setEnt ..)).andThen (within_endCtx ..)

theorem within_qualCheck (c : Chip) (l : Nat) :
    Within [.regs, .dram, .hostMem, .sfl, .lanes, .ports, .pkts, .pattern, .tm, .sched, .tel, .host, .flow, .gang, .act] c
      (c.qualCheck l) := by
  unfold Chip.qualCheck
  exact .ite (within_stepPassed ..).mono (.refl _ _)

theorem within_qualFail (c : Chip) (l : Nat) :
    Within [.regs, .dram, .hostMem, .sfl, .lanes, .ports, .pkts, .pattern, .tm, .sched, .tel, .host, .flow, .gang, .act] c
      (c.qualFail l) := by
  unfold Chip.qualFail
  extract_lets n k c1
  have hc1 : Within [.regs, .dram, .hostMem, .sfl, .lanes, .ports, .pkts, .pattern, .tm, .sched,
    Part.tel, .host, .flow, .gang, .act] c c1 := (within_lput ..).mono.andThen (within_lput ..)
  exact .ite (((hc1.andThen (within_lput ..)).andThen (within_lput ..)).andThen (within_laneFail ..))
    (hc1.andThen (within_laneFail ..))

theorem within_qualSet (c : Chip) (l : Nat) (g : SetGroups) :
    Within [.regs, .dram, .hostMem, .sfl, .lanes, .ports, .pkts, .pattern, .tm, .sched, .tel, .host, .flow, .gang, .act] c
      (c.qualSet l g) := by
  unfold Chip.qualSet
  split
  · exact .refl _ _
  · exact .ite (.refl _ _) (.ite ((within_onLane ..).mono.andThen (within_qualCheck ..)) (within_qualFail ..).mono)

end Sys2Proof.Proofs
end

section
/-!
One lemma `within_<f>` for each function `f` of the model, in the order in which they use each other (6 of 6).
-/
namespace Sys2Proof.Proofs
open Sys2Proof Sys2Proof.Machine

-- Each default `by decide` of a helper waits for the kernel: one proof at a time bounds the threads that wait.
set_option Elab.async false

theorem within_qualEnd (c : Chip) (l errs : Nat) (aligned : Bool) :
    Within [.regs, .dram, .hostMem, .sfl, .lanes, .ports, .pkts, .pattern, .tm, .sched, .tel, .host, .flow, .gang, .act] c
      (c.qualEnd l errs aligned) := by
  unfold Chip.qualEnd
  exact .ite (.refl _ _) (.ite (((within_lput ..).mono.andThen (within_onLane ..)).andThen (within_qualCheck ..))
    (((within_lput ..).mono.andThen (within_onLane ..)).andThen (within_qualFail ..)))

theorem within_rcClear (c : Chip) (r : RegAt) (a hw : Nat) : Within [.regs, .hostMem, .mgt, .host] c (c.rcClear r a hw) := by
  unfold Chip.rcClear
  extract_lets kept c1 _ c2
  have hc1 : Within [.regs, .hostMem, .mgt, .host] c c1 :=
    .ite (.foldl (.refl _ _) fun _ _ => (.ite (within_sflEvent ..).mono (.refl _ _))) (.refl _ _)
  have hc2 : Within [.regs, .hostMem, .mgt, .host] c c2 := .ite (hc1.mgt _) hc1
  exact .ite (within_putF ..).mono (hc2.andThen (within_wr ..))

theorem within_rdUnit (c : Chip) (x : Nat) :
    Within [.regs, .hostMem, .ports, .tel, .host, .flow, .gang, .act] c (c.rdUnit x) := by
  unfold Chip.rdUnit
  extract_lets v w
  refine .ite ?_ ?_
  · exact .refl _ _
  · split
    · rename_i d heq
      have hd : Within [.regs, .hostMem, .ports, .tel, .host, .flow, .gang, .act] c d := .of_fst heq (within_issue ..).mono
      exact hd
    · rename_i d heq
      have hd : Within [.regs, .hostMem, .ports, .tel, .host, .flow, .gang, .act] c d := .of_fst heq (within_issue ..).mono
      extract_lets v1 a hs o
      refine .ite ?_ ?_
      · exact hd
      · split
        · exact hd
        · exact hd.andThen (within_endCtx ..)
        · split
          · exact hd.andThen (within_endCtx ..)
          · refine .ite ?_ ?_
            · exact .ite (hd.andThen (within_endCtx ..)) ((hd.andThen (within_setCtx ..)).act _)
            · split
              · exact hd.andThen (within_endCtx ..)
              · extract_lets c1
                have hc1 : Within [.regs, .hostMem, .ports, .tel, .host, .flow, .gang, .act] c c1 :=
                  hd.andThen (within_setCtx ..)
                exact hc1.andThen (within_gangOut ..)

theorem within_rdAgain (c : Chip) (x : Nat) (v : Machine.Ctx) (e : CEnt) :
    Within [.regs, .hostMem, .ports, .tel, .host, .flow, .gang, .act] c (c.rdAgain x v e) := by
  unfold Chip.rdAgain
  refine .ite ?_ ?_
  · exact (within_endCtx ..).mono
  · split
    · exact (within_endCtx ..).mono
    · refine .ite ?_ ?_
      · extract_lets c1
        have hc1 : Within [.regs, .hostMem, .ports, .tel, .host, .flow, .gang, .act] c c1 := (within_setCtx ..).mono
        exact hc1.act _
      · split
        · exact (within_endCtx ..).mono
        · exact (within_setCtx ..).mono.andThen (within_gangOut ..)

theorem within_rdAnswer (c : Chip) (x : Nat) :
    Within [.regs, .hostMem, .ports, .tel, .host, .flow, .gang, .act] c (c.rdAnswer x) := by
  unfold Chip.rdAnswer
  extract_lets v
  split
  · split
    · exact .refl _ _
    · extract_lets c1 addr done
      have hc1 : Within [.regs, .hostMem, .ports, .tel, .host, .flow, .gang, .act] c c1 := (within_onFlow ..).mono
      split
      · exact hc1.andThen (within_setCtx ..)
      · exact hc1.andThen (within_setCtx ..)
      · exact hc1.andThen (within_rdAgain ..)
      · exact hc1.andThen (within_setCtx ..)
  · exact .refl _ _

theorem within_recircEnqueue (c : Chip) (pid : Nat) :
    Within [.regs, .hostMem, .pkts, .pattern, .tm, .tel, .host] c (c.recircEnqueue pid) := by
  unfold Chip.recircEnqueue
  split
  · exact .refl _ _
  · exact .ite (.refl _ _) (.ite (within_dropTm ..).mono ((within_setPkt ..).mono.tm _))

theorem within_recircHandoff (c : Chip) (s : Nat) : Within [.regs, .pkts, .tm, .tel] c (c.recircHandoff s) := by
  unfold Chip.recircHandoff
  split
  · extract_lets _ c1 n _ c2
    have hc1 : Within [.regs, .pkts, .tm, .tel] c c1 := (Within.refl _ _).tm _
    have hc2 : Within [.regs, .pkts, .tm, .tel] c c2 := hc1.tm _
    exact (hc2.andThen (within_updPkt ..)).andThen (within_openCtx ..)
  · exact .refl _ _

theorem within_endLookup (c : Chip) (e : Nat) (key : Bytes) : Within [.flow] c (c.endLookup e key) := by
  unfold Chip.endLookup
  exact (within_onEng ..).mono

/-- Where the steps of a template end for a record of a new flow (R233). -/
theorem within_hwInsert (c : Chip) (e : Nat) (o : FOp) :
    Within [.regs, .dram, .hostMem, .host, .flow] c (c.hwInsert e o).1 := by
  unfold Chip.hwInsert
  split
  · exact .refl _ _
  next i _ =>
  extract_lets go
  have hgo (d : Chip) (b j : Nat) : Within [.regs, .dram, .hostMem, .host, .flow] d (go d b j).1 := by
    unfold go
    split
    next x d1 heq =>
    have hd1 : Within [.regs, .dram, .hostMem, .host, .flow] d d1 := .of_snd heq (within_runSteps ..).mono
    extract_lets c1 c2
    have hc1 : Within [.regs, .dram, .hostMem, .host, .flow] d c1 :=
      (hd1.andThen (within_fillWay ..)).andThen (within_sendResult ..)
    have hc2 : Within [.regs, .dram, .hostMem, .host, .flow] d c2 :=
      ((hc1.andThen (within_bumpQ ..)).andThen (within_bump ..)).andThen (within_signal ..)
    change Within _ _ (match o.tail with | 0 => _ | 1 => _ | _ => _)
    split
    · exact hc2.andThen (within_holdWrite ..)
    · exact hc2.andThen (within_commitInsert ..)
    · exact ((hc2.andThen (within_emptyWay ..)).andThen (within_bumpQ ..)).andThen (within_signal ..)
  clear_value go
  split
  · exact .refl _ _
  · split
    · exact hgo ..
    · exact ((within_countAlias ..).mono.andThen (within_evictSlot ..)).andThen (hgo ..)
    · exact (within_countAlias ..).mono.andThen (within_countRefuse ..)

theorem within_absentOne (c : Chip) (e : Nat) (o : FOp) :
    Within [.regs, .dram, .hostMem, .host, .flow] c (c.absentOne e o).1 := by
  unfold Chip.absentOne
  extract_lets t parked c1
  have hc1 : Within [.regs, .dram, .hostMem, .host, .flow] c c1 := (within_leave ..).mono.andThen (within_otherAbsent ..)
  split
  · split
    · rename_i d heq
      have hd : Within [.regs, .dram, .hostMem, .host, .flow] c d := .of_fst heq (within_prepCreate ..).mono
      exact .fst_mk (hd.andThen (within_onEng ..))
    · rename_i d heq
      have hd : Within [.regs, .dram, .hostMem, .host, .flow] c d := .of_fst heq (within_prepCreate ..).mono
      exact .fst_mk ((hd.andThen (within_leave ..)).andThen (within_endLookup ..))
    · rename_i d heq
      have hd : Within [.regs, .dram, .hostMem, .host, .flow] c d := .of_fst heq (within_prepCreate ..).mono
      exact .fst_mk (hd.andThen (within_leave ..))
  · split
    · split
      · exact .fst_mk (hc1.andThen (within_endLookup ..))
      · exact .fst_mk hc1
    · split
      · exact .fst_mk ((within_leave ..).mono.andThen (within_fallback ..))
      · split
        · split
          · rename_i d heq
            have hd : Within [.regs, .dram, .hostMem, .host, .flow] c d := .of_fst heq (within_hwInsert ..).mono
            exact .fst_mk (hd.andThen (within_onEng ..))
          · rename_i d heq
            have hd : Within [.regs, .dram, .hostMem, .host, .flow] c d := .of_fst heq (within_hwInsert ..).mono
            exact .fst_mk ((hd.andThen (within_leave ..)).andThen (within_endLookup ..))
          · rename_i d heq
            have hd : Within [.regs, .dram, .hostMem, .host, .flow] c d := .of_fst heq (within_hwInsert ..).mono
            exact .fst_mk ((hd.andThen (within_leave ..)).andThen (within_fallback ..))
        · split
          · exact .fst_mk ((within_leave ..).mono.andThen (within_fallback ..))
          · extract_lets c2
            have hc2 : Within [.regs, .dram, .hostMem, .host, .flow] c c2 :=
              (within_endLookup ..).mono.andThen (within_onEng ..)
            exact .fst_mk ((hc2.andThen (within_bumpQ ..)).andThen (within_signal ..))

theorem within_absentOps (c : Chip) (e : Nat) (key : Bytes) (n : Nat) :
    Within [.regs, .dram, .hostMem, .host, .flow] c (c.absentOps e key n) := by
  induction n generalizing c with
  | zero => exact (within_endLookup ..).mono
  | succ n ih =>
    unfold Chip.absentOps
    split
    · exact (within_endLookup ..).mono
    · split
      · next heq => exact (Within.of_fst heq (within_absentOne ..).mono).andThen (ih ..)
      · next heq => exact .of_fst heq (within_absentOne ..).mono

theorem within_absentKey (c : Chip) (e : Nat) (key : Bytes) :
    Within [.regs, .dram, .hostMem, .host, .flow] c (c.absentKey e key) := by
  unfold Chip.absentKey
  exact (within_absentOps ..).mono

theorem within_fillLookup (c : Chip) (e : Nat) (l : FLookup) : Within [.regs, .dram, .flow] c (c.fillLookup e l) := by
  unfold Chip.fillLookup
  split
  · exact (within_onLookup ..).mono
  · extract_lets r
    exact (((within_fillWay ..).mono.andThen (within_endLookup ..)).andThen (within_bumpQ ..)).andThen (within_signal ..)

theorem within_lookupError (c : Chip) (e : Nat) (key : Bytes) :
    Within [.regs, .hostMem, .host, .flow] c (c.lookupError e key) := by
  unfold Chip.lookupError
  extract_lets ops c1 c2
  have hc1 : Within [.regs, .hostMem, .host, .flow] c c1 := (within_onEng ..).mono.andThen (within_endLookup ..)
  have hc2 : Within [.regs, .hostMem, .host, .flow] c c2 := hc1.andThen (within_raise ..)
  exact .foldl hc2 fun _ _ => (.ite (within_fallback ..).mono (within_sendAnswer ..).mono)

theorem within_recordFill (c : Chip) (e i : Nat) (err : Bool) (ecc : Nat) :
    Within [.regs, .dram, .hostMem, .host, .flow] c (c.recordFill e i err ecc) := by
  unfold Chip.recordFill
  split
  · exact .refl _ _
  · refine .ite ?_ ?_
    · exact .refl _ _
    · refine .ite ?_ ?_
      · exact (within_lookupError ..).mono
      · extract_lets c1 t
        have hc1 : Within [.regs, .dram, .hostMem, .host, .flow] c c1 := by
          unfold c1
          split
          · exact .ite (within_wayBroken ..).mono (.refl _ _)
          · exact .refl _ _
        exact .ite (hc1.andThen (within_absentKey ..)) (hc1.andThen (within_fillLookup ..))

theorem within_recLast (c : Chip) (kind inst cause : Nat) (second : Bool) :
    Within [.regs] c (c.recLast kind inst cause second) := by
  unfold Chip.recLast
  extract_lets c1 c2
  have hc1 : Within [.regs] c c1 := (within_putF ..).mono.andThen (within_putF ..)
  have hc2 : Within [.regs] c c2 := (hc1.andThen (within_putF ..)).andThen (within_putF ..)
  exact hc2.andThen (within_putQ ..)

theorem within_recStop (c : Chip) (r : RecDom) (cause : Nat) :
    Within [.regs, .dram, .hostMem, .power, .mgt, .sfl, .lanes, .ports, .pkts, .pattern, .tm, .sched, .tel, .host, .flow,
      .gang, .act, .recov] c (c.recStop r cause) := by
  unfold Chip.recStop
  extract_lets x c1
  have hc1 : Within [.regs, .dram, .hostMem, .power, .mgt, .sfl, .lanes, .ports, .pkts, .pattern,
    Part.tm, .sched, .tel, .host, .flow, .gang, .act, .recov] c c1 :=
      ((within_setRec ..).mono.andThen (within_recBit ..)).andThen (within_recBit ..)
  exact ((hc1.andThen (within_log ..)).andThen (within_recContain ..)).andThen (within_recShow ..)

theorem within_recoveryLate (c : Chip) (kind inst : Nat) :
    Within [.regs, .dram, .hostMem, .power, .mgt, .sfl, .lanes, .ports, .pkts, .pattern, .tm, .sched, .tel, .host, .flow,
      .gang, .act, .recov] c (c.recoveryLate kind inst) := by
  unfold Chip.recoveryLate
  split
  · exact .ite ((within_recLast ..).mono.andThen (within_recStop ..)) (.refl _ _)
  · exact .refl _ _

theorem within_recLogEnd (c : Chip) (inst ns : Nat) :
    Within [.regs, .hostMem, .power, .mgt, .host] c (c.recLogEnd inst ns) := by
  unfold Chip.recLogEnd
  exact (within_log ..).mono.andThen (within_bump ..)

theorem within_recFinish (c : Chip) (r : RecDom) :
    Within [.regs, .dram, .hostMem, .power, .mgt, .sfl, .lanes, .ports, .pkts, .pattern, .tm, .sched, .hbm, .tel, .host,
      .flow, .gang, .act, .wds, .recov] c (c.recFinish r) := by
  unfold Chip.recFinish
  extract_lets c1
  have hc1 : Within [.regs, .dram, .hostMem, .power, .mgt, .sfl, .lanes, .ports, .pkts, .pattern,
    Part.tm, .sched, .hbm, .tel, .host, .flow, .gang, .act, .wds, .recov] c c1 :=
      (within_rmRec ..).mono.andThen (within_recBit ..)
  exact ((hc1.andThen (within_recRestore ..)).andThen (within_recLogEnd ..)).andThen (within_recShow ..)

theorem within_recoveryEnd (c : Chip) (kind inst : Nat) (ok : Bool) :
    Within [.regs, .dram, .hostMem, .power, .mgt, .sfl, .lanes, .ports, .pkts, .pattern, .tm, .sched, .hbm, .tel, .host,
      .flow, .gang, .act, .wds, .recov] c (c.recoveryEnd kind inst ok) := by
  unfold Chip.recoveryEnd
  split
  · exact .ite (.refl _ _) (.ite (((within_releaseCh ..).mono.andThen (within_recLast ..)).andThen (within_recStop ..))
      (within_recFinish ..).mono)
  · exact .refl _ _

theorem within_bathsEnded (c : Chip) (kind inst : Nat) : Within [.regs, .plate] c (c.bathsEnded kind inst) := by
  unfold Chip.bathsEnded
  extract_lets l c1
  have hc1 : Within [.regs, .plate] c c1 := .foldl (.refl _ _) fun _ _ => (within_bathWithdraw ..).mono
  exact hc1.plate _

theorem within_chipFault (c : Chip) (detail : List Nat) :
    Within [.regs, .wideCap, .wideStage, .hostMem, .time, .rules, .sched, .host, .flow, .gang, .act] c (c.chipFault detail) :=
      by
  unfold Chip.chipFault
  split
  · exact (within_invalidateTime ..).mono
  · exact (within_hostReset ..).mono
  · extract_lets c1
    have hc1 : Within [.regs, .wideCap, .wideStage, .hostMem, .time, .rules, .sched, .host, .flow,
      Part.gang, .act] c c1 := .foldl (.refl _ _) fun _ _ => (within_wr ..).mono
    exact ((hc1.andThen (within_gap ..)).andThen (within_bump ..)).andThen (within_raise ..)

theorem within_recGaps (c : Chip) (r : RecDom) : Within [.regs, .hostMem, .host] c (c.recGaps r) := by
  unfold Chip.recGaps
  exact .foldl (.refl _ _) fun _ _ => (within_gap ..).mono

theorem within_recoveryStart (c : Chip) (kind inst cause : Nat) (detail : List Nat) :
    Within [.regs, .wideCap, .wideStage, .dram, .hostMem, .freeCtr, .power, .time, .mgt, .sfl, .lanes, .ports, .pkts, .rules,
      .tern, .pattern, .tm, .sched, .tel, .host, .flow, .gang, .act, .wds, .plate, .recov] c
        (c.recoveryStart kind inst cause detail) := by
  unfold Chip.recoveryStart
  refine .ite ?_ ?_
  · exact .refl _ _
  · split
    · extract_lets c1
      have hc1 : Within [.regs, .wideCap, .wideStage, .dram, .hostMem, .freeCtr, .power, .time, .mgt,
        Part.sfl, .lanes, .ports, .pkts, .rules, .tern, .pattern, .tm, .sched, .tel,
        Part.host, .flow, .gang, .act, .wds, .plate, .recov] c c1 := (within_recLast ..).mono
      exact .ite (hc1.andThen (within_log ..)) (hc1.andThen (within_recStop ..))
    · extract_lets r c1 c2 c3
      have hc1 : Within [.regs, .wideCap, .wideStage, .dram, .hostMem, .freeCtr, .power, .time, .mgt,
        Part.sfl, .lanes, .ports, .pkts, .rules, .tern, .pattern, .tm, .sched, .tel,
        Part.host, .flow, .gang, .act, .wds, .plate, .recov] c c1 := (within_raiseGlb ..).mono.andThen (within_recLast ..)
      have hc2 : Within [.regs, .wideCap, .wideStage, .dram, .hostMem, .freeCtr, .power, .time, .mgt,
        Part.sfl, .lanes, .ports, .pkts, .rules, .tern, .pattern, .tm, .sched, .tel,
        Part.host, .flow, .gang, .act, .wds, .plate, .recov] c c2 := hc1.andThen (within_log ..)
      have hc3 : Within [.regs, .wideCap, .wideStage, .dram, .hostMem, .freeCtr, .power, .time, .mgt,
        Part.sfl, .lanes, .ports, .pkts, .rules, .tern, .pattern, .tm, .sched, .tel,
        Part.host, .flow, .gang, .act, .wds, .plate, .recov] c c3 :=
          ((hc2.andThen (within_recBit ..)).andThen (within_recGaps ..)).andThen (within_bathsEnded ..)
      exact .ite (((hc2.andThen (within_chipFault ..)).andThen (within_recLogEnd ..)).andThen (within_recShow ..))
        (.ite (hc3.andThen (within_recProceed ..)) (((hc3.andThen (within_setRec ..)).andThen (within_recContain ..)).andThen
          (within_recShow ..)))

theorem within_refreshDue (c : Chip) (g : Nat) : Within [.regs, .hbm, .tel] c (c.refreshDue g) := by
  unfold Chip.refreshDue
  extract_lets x
  exact .ite (.refl _ _) (.ite (within_setPc ..).mono (.ite ((within_setPd ..).mono.andThen (within_refresh ..))
    (.ite (within_setPc ..).mono (within_setOwed ..).mono)))

theorem within_replRx (c : Chip) (p : Nat) (fr : Bytes) :
    Within [.regs, .dram, .hostMem, .host, .flow, .gang] c (c.replRx p fr) := by
  unfold Chip.replRx
  split
  · rename_i d heq
    have hd : Within [.regs, .dram, .hostMem, .host, .flow, .gang] c d := .of_snd heq (within_gangTake ..).mono
    exact hd
  · rename_i d heq
    have hd : Within [.regs, .dram, .hostMem, .host, .flow, .gang] c d := .of_snd heq (within_gangTake ..).mono
    extract_lets b h1 o
    exact hd.andThen (within_replOp ..)

theorem within_replScan (c : Chip) : Within [.regs, .ports, .gang] c c.replScan := by
  unfold Chip.replScan
  exact .ite (.foldl (.refl _ _) fun _ _ => (.ite (within_replOut ..).mono (.refl _ _))) (.refl _ _)

theorem within_resetAtRx (c : Chip) (p : Nat) (fr : Bytes) :
    Within [.regs, .hostMem, .sfl, .host, .gang] c (c.resetAtRx p fr) := by
  unfold Chip.resetAtRx
  refine .ctrlTake ?_ fun _ _ d => ?_
  · exact .refl _ _
  · split
    · rename_i d1 heq
      have hd1 : Within [.regs, .hostMem, .sfl, .host, .gang] d d1 := .of_snd heq (within_schedReset ..).mono
      exact .ite (hd1.andThen (within_deniedCapture ..)) hd1

theorem within_resetPulseEnd (c : Chip) (m : Nat) :
    Within [.regs, .dram, .hostMem, .sfl, .lanes, .ports, .sites, .pkts, .pattern, .tm, .sched, .tel, .host, .flow, .gang,
      .act] c (c.resetPulseEnd m) := by
  unfold Chip.resetPulseEnd
  exact .ite ((within_onSite ..).mono.andThen (within_siteGo ..)) (.refl _ _)

theorem within_residueTry {c d : Chip} {pid cid : Nat} {k : Copy} (h : c.residueTry pid cid k = some d) :
    Within [.regs, .hostMem, .pkts, .pattern, .tm, .sched, .tel, .host] c d := by
  unfold Chip.residueTry at h
  split at h
  · cases h
  next p _ =>
  extract_lets p1 new q t c1 c2 at h
  have hc2 : Within [.regs, .hostMem, .pkts, .pattern, .tm, .sched, .tel, .host] c c2 :=
    ((Within.refl _ _).tm _).andThen (within_putF ..)
  clear_value p1 q c2
  split at h
  · cases h
  · cases h
    exact (within_dropCopy ..).mono
  · cases h
    exact hc2.andThen (within_copyGo ..)

theorem within_residueRetry (c : Chip) (port : Nat) :
    Within [.regs, .hostMem, .pkts, .pattern, .tm, .sched, .tel, .host] c (c.residueRetry port) := by
  unfold Chip.residueRetry
  split
  · exact .refl _ _
  · split
    · next heq => exact (within_residueTry heq).mono.andThen (within_condEv ..)
    · exact .refl _ _

theorem within_residueTimeout (c : Chip) (pid cid : Nat) :
    Within [.regs, .hostMem, .pkts, .pattern, .tm, .sched, .tel, .host] c (c.residueTimeout pid cid) := by
  unfold Chip.residueTimeout
  split
  · exact .refl _ _
  · split
    · next heq => exact (within_residueTry heq).mono
    · exact ((within_updPkt ..).mono.andThen (within_dropCopy ..)).andThen (within_condEv ..)

theorem within_ringMessage (c : Chip) (n : Nat) : Within [.regs, .hostMem, .host] c (c.ringMessage n) := by
  unfold Chip.ringMessage
  exact (within_setRing ..).mono.andThen (within_message ..)

theorem within_rmtOp (c : Chip) (port : Nat) (fr : Bytes) (ecc : Nat) :
    Within [.regs, .dram, .hostMem, .mgt, .sfl, .ports, .pkts, .pattern, .tm, .tel, .host, .flow, .gang] c
      (c.rmtOp port fr ecc) := by
  unfold Chip.rmtOp
  split
  · rename_i d heq
    have hd : Within [.regs, .dram, .hostMem, .mgt, .sfl, .ports, .pkts, .pattern, .tm, .tel,
      Part.host, .flow, .gang] c d := .of_snd heq (within_gangTake ..).mono
    exact hd
  · rename_i d heq
    have hd : Within [.regs, .dram, .hostMem, .mgt, .sfl, .ports, .pkts, .pattern, .tm, .tel,
      Part.host, .flow, .gang] c d := .of_snd heq (within_gangTake ..).mono
    extract_lets o e
    exact .ite (hd.andThen (within_rresOut ..)) (.ite ((hd.andThen (within_bumpQ ..)).andThen (within_rresOut ..))
      (.ite (hd.andThen (within_rresOut ..)) (((hd.andThen (within_onEng ..)).andThen (within_wakeBank ..)).andThen
        (within_serveInput ..))))

theorem within_ropTimeout (c : Chip) (pid : Nat) :
    Within [.regs, .hostMem, .sfl, .pkts, .pattern, .tm, .tel, .host, .gang] c (c.ropTimeout pid) := by
  unfold Chip.ropTimeout
  split
  · exact .refl _ _
  · exact (((within_ropGone ..).mono.andThen (within_bump ..)).andThen (within_signal ..)).andThen (within_missFb ..)

theorem within_followEnd (c : Chip) (x : Nat) (b : Bound) : Within [.regs, .hostMem, .tel, .host] c (c.followEnd x b) := by
  unfold Chip.followEnd
  split
  · exact .refl _ _
  · refine .ite ?_ ?_
    · exact .refl _ _
    · extract_lets v n hdr body r _ c1
      have hc1 : Within [.regs, .hostMem, .tel, .host] c c1 := (Within.refl _ _).tel _
      split
      · rename_i d heq
        have hd : Within [.regs, .hostMem, .tel, .host] c d := .of_snd heq (hc1.andThen (within_ringRecord ..))
        exact hd
      · rename_i d heq
        have hd : Within [.regs, .hostMem, .tel, .host] c d := .of_snd heq (hc1.andThen (within_ringRecord ..))
        exact (hd.andThen (within_bump ..)).andThen (within_raise ..)

theorem within_freezeCluster (c : Chip) (k : Nat) :
    Within [.regs, .hostMem, .power, .mgt, .ports, .tel, .host, .flow, .gang, .act] c (c.freezeCluster k) := by
  unfold Chip.freezeCluster
  extract_lets c1 c2
  have hc1 : Within [.regs, .hostMem, .power, .mgt, .ports, .tel, .host, .flow, .gang, .act] c c1 := (within_killAll ..).mono
  have hc2 : Within [.regs, .hostMem, .power, .mgt, .ports, .tel, .host, .flow, .gang, .act] c c2 :=
    hc1.andThen (within_putF ..)
  exact ((hc2.andThen (within_bump ..)).andThen (within_sflEvent ..)).andThen (within_log ..)

theorem within_freezeCount (c : Chip) (x : Nat) :
    Within [.regs, .hostMem, .power, .mgt, .sfl, .ports, .tel, .host, .flow, .gang, .act] c (c.freezeCount x) := by
  unfold Chip.freezeCount
  extract_lets v k bad lim n _ c1
  have hc1 : Within [.regs, .hostMem, .power, .mgt, .sfl, .ports, .tel, .host, .flow, .gang,
    Part.act] c c1 := (Within.refl _ _).sfl _
  exact .ite (.refl _ _) (.ite (hc1.andThen (within_freezeCluster ..)) hc1)

theorem within_sweepOffer (c : Chip) (e : Nat) : Within [.regs, .hostMem, .tel, .host, .wds] c (c.sweepOffer e) := by
  unfold Chip.sweepOffer
  split
  · exact .refl _ _
  · split
    · rename_i d heq
      have hd : Within [.regs, .hostMem, .tel, .host, .wds] c d := .of_snd heq (within_offer ..).mono
      extract_lets c1
      have hc1 : Within [.regs, .hostMem, .tel, .host, .wds] c c1 := hd.andThen (within_onWds ..)
      exact hc1.andThen (within_putF ..)
    · rename_i d heq
      have hd : Within [.regs, .hostMem, .tel, .host, .wds] c d := .of_snd heq (within_offer ..).mono
      exact hd.andThen (within_onWds ..)
    · rename_i d heq
      have hd : Within [.regs, .hostMem, .tel, .host, .wds] c d := .of_snd heq (within_offer ..).mono
      exact hd

theorem within_retryHeld (c : Chip) : Within [.regs, .hostMem, .tel, .host, .act, .wds] c c.retryHeld := by
  unfold Chip.retryHeld
  extract_lets c1 c2
  have hc1 : Within [.regs, .hostMem, .tel, .host, .act, .wds] c c1 := .foldl (.refl _ _) fun _ _ => (within_sweepOffer ..).mono
  have hc2 : Within [.regs, .hostMem, .tel, .host, .act, .wds] c c2 := .foldl hc1 fun _ _ => (within_timerOffer ..).mono
  exact hc2.andThen (within_retryReserve ..)

theorem within_routineEnd (c : Chip) (x : Nat) :
    Within [.regs, .hostMem, .power, .mgt, .sfl, .ports, .tel, .host, .flow, .gang, .act, .wds] c (c.routineEnd x) := by
  unfold Chip.routineEnd
  extract_lets v
  split
  · exact .refl _ _
  · exact .ite (.refl _ _) (.ite (((((((within_sink ..).mono.andThen (within_bump ..)).andThen
      (within_freezeCount ..)).andThen (within_followEnd ..)).andThen (within_onCtx ..)).andThen
        (within_setWaiting ..)).andThen (within_csItem ..)) ((Within.ite
          ((((((((within_sink ..).mono.andThen (within_bump ..)).andThen (within_freezeCount ..)).andThen
            (within_followEnd ..)).andThen (within_onCtx ..)).andThen (within_giveSlot ..)).andThen
              (within_csItem ..)).andThen (within_onWds ..)) (.ite
                ((((((((within_sink ..).mono.andThen (within_bump ..)).andThen (within_freezeCount ..)).andThen
                  (within_followEnd ..)).andThen (within_onCtx ..)).andThen (within_giveSlot ..)).andThen
                    (within_csItem ..)).andThen (within_bump ..))
                      (((((((within_sink ..).mono.andThen (within_bump ..)).andThen (within_freezeCount ..)).andThen
                        (within_followEnd ..)).andThen (within_onCtx ..)).andThen (within_giveSlot ..)).andThen
                          (within_csItem ..)))).andThen (within_retryHeld ..)))

theorem within_wallTimeout (c : Chip) (x : Nat) :
    Within [.regs, .hostMem, .ports, .tel, .host, .flow, .gang, .act] c (c.wallTimeout x) := by
  unfold Chip.wallTimeout
  exact (within_endCtx ..).mono

theorem within_answerRx (c : Chip) (d : Nat) (b : Bytes) : Within [.regs, .flow] c (c.answerRx d b) := by
  unfold Chip.answerRx
  extract_lets xt x en v want hit
  clear_value hit
  split
  · exact (within_bump ..).mono
  · exact (within_onFlow ..).mono

theorem within_rrecRx (c : Chip) (p : Nat) (fr : Bytes) (ecc : Nat) :
    Within [.regs, .dram, .hostMem, .mgt, .ports, .host, .flow, .gang, .act] c (c.rrecRx p fr ecc) := by
  unfold Chip.rrecRx
  split
  · rename_i d heq
    have hd : Within [.regs, .dram, .hostMem, .mgt, .ports, .host, .flow, .gang, .act] c d :=
      .of_snd heq (within_gangTake ..).mono
    exact hd
  · rename_i d heq
    have hd : Within [.regs, .dram, .hostMem, .mgt, .ports, .host, .flow, .gang, .act] c d :=
      .of_snd heq (within_gangTake ..).mono
    extract_lets b d1 op o e src
    have hsrc : Within [.regs, .dram, .hostMem, .mgt, .ports, .host, .flow, .gang, .act] c src :=
      hd.andThen (within_wakeBank ..)
    refine .ite ?_ ?_
    · exact hd.andThen (within_answerRx ..)
    · refine .ite ?_ ?_
      · split
        · exact hd
        · exact .ite (hd.andThen (within_applyPrep ..)) (hd.andThen (within_dropPrep ..))
      · exact .ite hd (.ite (hd.andThen (within_rrecAnswer ..)) (.ite (hsrc.act _) (hd.andThen (within_arriveEcc ..))))

theorem within_answerTimeout (c : Chip) (x : Nat) :
    Within [.regs, .hostMem, .ports, .tel, .host, .flow, .gang, .act] c (c.answerTimeout x) := by
  unfold Chip.answerTimeout
  extract_lets v remote
  exact .ite (within_endCtx ..).mono (.refl _ _)

theorem within_prepExpiry (c : Chip) (e d tag : Nat) : Within [.regs, .dram, .flow] c (c.prepExpiry e d tag) := by
  unfold Chip.prepExpiry
  split
  · exact (within_removePrep ..).mono
  · exact .refl _ _

theorem within_ropAgain (c : Chip) (r : Rop) :
    Within [.regs, .hostMem, .mgt, .sfl, .ports, .pkts, .pattern, .tm, .tel, .host, .flow, .gang] c (c.ropAgain r) := by
  unfold Chip.ropAgain
  extract_lets c1 c2 c3 tail
  have hc1 : Within [.regs, .hostMem, .mgt, .sfl, .ports, .pkts, .pattern, .tm, .tel, .host,
    Part.flow, .gang] c c1 := (within_ropGone ..).mono
  have hc2 : Within [.regs, .hostMem, .mgt, .sfl, .ports, .pkts, .pattern, .tm, .tel, .host,
    Part.flow, .gang] c c2 := hc1.andThen (within_bump ..)
  have hc3 : Within [.regs, .hostMem, .mgt, .sfl, .ports, .pkts, .pattern, .tm, .tel, .host,
    Part.flow, .gang] c c3 := hc2.andThen (within_onGang ..)
  refine .ite ?_ ?_
  · exact hc1.andThen (within_missFb ..)
  · split
    · exact hc1.andThen (within_missFb ..)
    · refine .ite ?_ ?_
      · exact (hc3.andThen (within_onEng ..)).andThen (within_wakeBank ..)
      · split
        · exact hc2.andThen (within_missFb ..)
        · extract_lets c4
          have hc4 : Within [.regs, .hostMem, .mgt, .sfl, .ports, .pkts, .pattern, .tm, .tel, .host,
            Part.flow, .gang] c c4 := hc2.andThen (within_onGang ..)
          exact hc4.andThen (within_ropOut ..)

theorem within_rresRx (c : Chip) (p : Nat) (fr : Bytes) :
    Within [.regs, .hostMem, .mgt, .sfl, .ports, .pkts, .pattern, .tm, .tel, .host, .flow, .gang] c (c.rresRx p fr) := by
  unfold Chip.rresRx
  split
  · rename_i d heq
    have hd : Within [.regs, .hostMem, .mgt, .sfl, .ports, .pkts, .pattern, .tm, .tel, .host,
      Part.flow, .gang] c d := .of_snd heq (within_gangTake ..).mono
    exact hd
  · rename_i d heq
    have hd : Within [.regs, .hostMem, .mgt, .sfl, .ports, .pkts, .pattern, .tm, .tel, .host,
      Part.flow, .gang] c d := .of_snd heq (within_gangTake ..).mono
    extract_lets b res
    split
    · exact hd.andThen (within_bump ..)
    · exact .ite (hd.andThen (within_ropAgain ..)) (((hd.andThen (within_signal ..)).andThen (within_ropGone ..)).andThen
        (within_deliver ..))

theorem within_sactStateRead (c : Chip) (n : Nat) : Within [.regs, .rdData] c (c.sactStateRead n) := by
  unfold Chip.sactStateRead
  extract_lets x
  have hx : Within [.regs, .rdData] c x := (Within.refl _ _).rdData _
  exact .ite ((hx.andThen (within_putF ..)).andThen (within_putF ..)) hx

theorem within_sbRead (c : Chip) (n : Nat) : Within [.regs, .rdData] c (c.sbRead n) := by
  unfold Chip.sbRead
  extract_lets c1
  have hc1 : Within [.regs, .rdData] c c1 := (Within.refl _ _).rdData _
  exact .ite (hc1.andThen (within_putF ..)) hc1

theorem within_observe (c : Chip) (q delay : Nat) : Within [.regs, .sched] c (c.observe q delay) := by
  unfold Chip.observe
  extract_lets d a w avg c1
  have hc1 : Within [.regs, .sched] c c1 := (within_putF ..).mono.andThen (within_putF ..)
  exact .ite (.ite (within_putF ..).mono (.refl _ _)) (.ite (.refl _ _) (hc1.sched _))

theorem within_beginTx (c : Chip) (pid : Nat) (p : Pkt) (k : Copy) :
    Within [.regs, .ports, .pkts, .sched] c (c.beginTx pid p k) := by
  unfold Chip.beginTx
  extract_lets c1 c2 stamp k1 now c3 _ c4 c5
  have hc1 : Within [.regs, .ports, .pkts, .sched] c c1 := (within_observe ..).mono
  have hc2 : Within [.regs, .ports, .pkts, .sched] c c2 := hc1.andThen (within_signal ..)
  have hc3 : Within [.regs, .ports, .pkts, .sched] c c3 := hc2.andThen (within_updPkt ..)
  have hc4 : Within [.regs, .ports, .pkts, .sched] c c4 := hc3.andThen (within_setPort ..)
  have hc5 : Within [.regs, .ports, .pkts, .sched] c c5 := .ite (hc4.andThen (within_signal ..)) hc4
  exact .ite ((hc5.andThen (within_bump ..)).andThen (within_signal ..)) hc5

theorem within_charged (c : Chip) (t : Int) (len : Nat) : Within [.freeCtr] c (c.charged t len).2 := by
  unfold Chip.charged
  extract_lets x
  split
  · exact .snd_mk (within_useFree ..).mono
  · exact .snd_mk (.refl _ _)

theorem within_chargeShapers (c : Chip) (q p : Nat) (k len : Nat) :
    Within [.regs, .freeCtr, .sched, .tel] c (c.chargeShapers q p k len) := by
  unfold Chip.chargeShapers
  extract_lets a c1 b src _ c2 d
  have ha : Within [.regs, .freeCtr, .sched, .tel] c a.2 := (within_charged ..).mono
  have hc1 : Within [.regs, .freeCtr, .sched, .tel] c c1 := ha.andThen (within_putQ ..)
  have hb : Within [.regs, .freeCtr, .sched, .tel] c b.2 := hc1.andThen (within_charged ..)
  have hsrc : Within [.regs, .freeCtr, .sched, .tel] c src := hb
  have hc2 : Within [.regs, .freeCtr, .sched, .tel] c c2 := hsrc.sched _
  have hd : Within [.regs, .freeCtr, .sched, .tel] c d.2 := hc2.andThen (within_charged ..)
  exact (hd.andThen (within_putQ ..)).andThen (within_condEv ..)

theorem within_take (c : Chip) (p k : Nat) (clsPick : Option (List Nat × Machine.SMap Nat)) :
    Within [.regs, .hostMem, .freeCtr, .ports, .pkts, .pattern, .tm, .sched, .tel, .host] c (c.take p k clsPick) := by
  unfold Chip.take
  split
  · exact .refl _ _
  · split
    · exact .refl _ _
    · extract_lets len c1 c2 c3 c4 c5 c6
      have hc1 : Within [.regs, .hostMem, .freeCtr, .ports, .pkts, .pattern, .tm, .sched, .tel, .host] c c1 := by
        unfold c1
        split
        · exact .refl _ _
        · extract_lets c7 c8
          have hc7 : Within [.regs, .hostMem, .freeCtr, .ports, .pkts, .pattern, .tm, .sched, .tel, .host] c c7 :=
            (within_setCl ..).mono
          have hc8 : Within [.regs, .hostMem, .freeCtr, .ports, .pkts, .pattern, .tm, .sched, .tel, .host] c c8 :=
            .foldl hc7 fun _ _ => (within_setClsDef ..).mono
          exact hc8.andThen (within_setClsDef ..)
      have hc2 : Within [.regs, .hostMem, .freeCtr, .ports, .pkts, .pattern, .tm, .sched, .tel, .host] c c2 :=
        .foldl (hc1.andThen (within_setQl ..)) fun _ _ => (within_putF ..).mono
      have hc3 : Within [.regs, .hostMem, .freeCtr, .ports, .pkts, .pattern, .tm, .sched, .tel, .host] c c3 :=
        hc2.andThen (within_putF ..)
      have hc4 : Within [.regs, .hostMem, .freeCtr, .ports, .pkts, .pattern, .tm, .sched, .tel, .host] c c4 :=
        hc3.andThen (within_chargeShapers ..)
      have hc5 : Within [.regs, .hostMem, .freeCtr, .ports, .pkts, .pattern, .tm, .sched, .tel, .host] c c5 :=
        hc4.andThen (within_dequeue ..)
      have hc6 : Within [.regs, .hostMem, .freeCtr, .ports, .pkts, .pattern, .tm, .sched, .tel, .host] c c6 :=
        hc5.andThen (within_settleBindings ..)
      exact .ite ((hc6.andThen (within_bump ..)).andThen (within_discardCopy ..))
        (.ite ((hc6.andThen (within_bump ..)).andThen (within_discardCopy ..)) (hc6.andThen (within_beginTx ..)))

theorem within_updTree (c : Chip) (p : Nat) : Within [.regs, .sched, .tel] c (c.updTree p) := by
  unfold Chip.updTree
  extract_lets c1
  have hc1 : Within [.regs, .sched, .tel] c c1 :=
    .foldl (.refl _ _) fun _ _ => (.ite (.refl _ _) (.foldl (within_updCls ..).mono fun _ _ =>
      ((within_updQ ..).mono.andThen (within_condEv ..))))
  exact hc1.andThen (within_updPort ..)

theorem within_portDecide (c : Chip) (p : Nat) :
    Within [.regs, .hostMem, .freeCtr, .ports, .pkts, .pattern, .tm, .sched, .tel, .host] c (c.portDecide p) := by
  unfold Chip.portDecide
  extract_lets c1 c2 cands c3 cl df len
  have hc1 : Within [.regs, .hostMem, .freeCtr, .ports, .pkts, .pattern, .tm, .sched, .tel, .host] c c1 :=
    (within_portOversize ..).mono
  have hc2 : Within [.regs, .hostMem, .freeCtr, .ports, .pkts, .pattern, .tm, .sched, .tel, .host] c c2 :=
    hc1.andThen (within_updTree ..)
  have hc3 : Within [.regs, .hostMem, .freeCtr, .ports, .pkts, .pattern, .tm, .sched, .tel, .host] c c3 :=
    hc2.andThen (within_putF ..)
  refine .ite ?_ ?_
  · exact hc3
  · split
    · exact hc3.andThen (within_take ..)
    · split
      · exact hc3
      · exact hc3.andThen (within_take ..)

theorem within_schedDecision (c : Chip) (p : Nat) :
    Within [.regs, .hostMem, .freeCtr, .ports, .pkts, .pattern, .tm, .sched, .tel, .host] c (c.schedDecision p) := by
  unfold Chip.schedDecision
  exact .ite (within_portDecide ..).mono (.refl _ _)

theorem within_leaveOut (c : Chip) : Within [.regs, .ports, .gang] c c.leaveOut := by
  unfold Chip.leaveOut
  exact .ite (.foldl (.refl _ _) fun _ _ => (within_ctrlTo ..).mono) (.refl _ _)

theorem within_resetDue (c : Chip) :
    Within [.regs, .wideCap, .wideStage, .dram, .hostMem, .power, .time, .mgt, .lanes, .ports, .sites, .pkts, .parse, .rules,
      .tern, .pattern, .tm, .sched, .hbm, .tel, .host, .flow, .gang, .act, .wds, .plate, .recov] c c.resetDue := by
  unfold Chip.resetDue
  split
  · exact .refl _ _
  · exact .ite ((within_leaveOut ..).mono.andThen (within_deviceReset ..)) (.refl _ _)

theorem within_scrubRead (c : Chip) (ecc syn : Nat) : Within [.regs, .hostMem, .hbm, .tel, .host] c (c.scrubRead ecc syn) := by
  unfold Chip.scrubRead
  split
  · extract_lets c1
    have hc1 : Within [.regs, .hostMem, .hbm, .tel, .host] c c1 := (within_onHbm ..).mono
    exact .ite hc1 (hc1.andThen (within_bump ..))
  · refine .ite ?_ ?_
    · exact .refl _ _
    · extract_lets a c1
      have hc1 : Within [.regs, .hostMem, .hbm, .tel, .host] c c1 := (within_onHbm ..).mono
      refine .ite ?_ ?_
      · exact hc1
      · split
        · exact hc1
        · exact hc1.andThen (within_corrected ..)
        · exact hc1.andThen (within_lineBad ..)

theorem within_srEnter (c : Chip) (ch : Nat) : Within [.regs, .hbm, .tel] c (c.srEnter ch) := by
  unfold Chip.srEnter
  exact .ite (.refl _ _) ((((((Within.foldl ((Within.foldl (.refl _ _) fun _ _ => (within_refresh ..).mono).andThen
    (within_setOwed ..)) fun _ _ => (within_refresh ..).mono).andThen (within_setOwed ..)).andThen (within_setPd ..)).andThen
      (within_setPd ..)).andThen (within_putF ..)).andThen (within_condEv ..))

theorem within_srExit (c : Chip) (ch : Nat) : Within [.regs, .tel] c (c.srExit ch) := by
  unfold Chip.srExit
  exact .ite (.refl _ _) (((within_putF ..).mono.andThen (within_srLeft ..)).andThen (within_condEv ..))

theorem within_sensorRange (c : Chip) (n v : Nat) : Within [.regs, .mgt] c (c.sensorRange n v) := by
  unfold Chip.sensorRange
  extract_lets seen hi lo _ c1
  have hc1 : Within [.regs, .mgt] c c1 := (Within.refl _ _).mgt _
  exact (hc1.andThen (within_putF ..)).andThen (within_putF ..)

theorem within_threshold (c : Chip) (n v : Nat) (hi : Bool) :
    Within [.regs, .hostMem, .power, .mgt, .host] c (c.threshold n v hi) := by
  unfold Chip.threshold
  extract_lets lim past fired on set c1
  have hc1 : Within [.regs, .hostMem, .power, .mgt, .host] c c1 :=
    (Within.ite ((Within.refl _ _).mgt _) ((Within.refl _ _).mgt _)).andThen (within_putF ..)
  exact .ite (.ite ((Within.refl _ _).mgt _) ((Within.refl _ _).mgt _))
    (.ite (.refl _ _) ((hc1.andThen (within_raise ..)).andThen (within_log ..)))

theorem within_sensorOne (c : Chip) (n v : Nat) : Within [.regs, .hostMem, .power, .mgt, .host] c (c.sensorOne n v) := by
  unfold Chip.sensorOne
  extract_lets c1 c2
  have hc1 : Within [.regs, .hostMem, .power, .mgt, .host] c c1 := (within_putF ..).mono.andThen (within_putF ..)
  have hc2 : Within [.regs, .hostMem, .power, .mgt, .host] c c2 :=
    ((hc1.andThen (within_sensorRange ..)).andThen (within_threshold ..)).andThen (within_threshold ..)
  exact .ite ((hc2.andThen (within_raise ..)).andThen (within_log ..)) hc2

theorem within_railsOff (c : Chip) (held : Bool) : Within (.power :: Part.railParts) c (c.railsOff held) := by
  unfold Chip.railsOff
  extract_lets k p
  have hk : Within (.power :: Part.railParts) c k := (within_cold ..).mono
  exact hk.power id

theorem within_tripEnd (c : Chip) : Within [.regs, .hostMem, .power, .mgt, .hbm, .host] c c.tripEnd := by
  unfold Chip.tripEnd
  extract_lets c1
  have hc1 : Within [.regs, .hostMem, .power, .mgt, .hbm, .host] c c1 :=
    ((within_putF ..).mono.andThen (within_log ..)).andThen (within_sflEvent ..)
  exact .foldl hc1 fun _ _ => (within_rateWant ..).mono

theorem within_tripEnter (c : Chip) (sev code data : Nat) :
    Within [.regs, .hostMem, .power, .mgt, .host] c (c.tripEnter sev code data) := by
  unfold Chip.tripEnter
  exact ((within_log ..).mono.andThen (within_bump ..)).andThen (within_sflEvent ..)

theorem within_tripRates (c : Chip) : Within [.regs, .hbm] c c.tripRates := by
  unfold Chip.tripRates
  exact .foldl (.refl _ _) fun _ _ => (.ite (within_rateWant ..).mono (.refl _ _))

theorem within_trips (c : Chip) (j : Int) (p : Nat) :
    Within [.regs, .wideCap, .wideStage, .dram, .hostMem, .power, .time, .mgt, .sfl, .lanes, .ports, .sites, .pkts, .parse,
      .rules, .tern, .pattern, .tm, .sched, .hbm, .tel, .host, .flow, .gang, .act, .wds, .plate, .recov] c (c.trips j p) := by
  unfold Chip.trips
  extract_lets jAt pAt f f1 c1 data trip c2 _ c3
  have hc1 : Within [.regs, .wideCap, .wideStage, .dram, .hostMem, .power, .time, .mgt, .sfl,
    .lanes, .ports, .sites, .pkts, .parse, .rules, .tern, .pattern, .tm, .sched,
    .hbm, .tel, .host, .flow, .gang, .act, .wds, .plate, .recov] c c1 := (Within.refl _ _).sfl _
  have hc2 : Within [.regs, .wideCap, .wideStage, .dram, .hostMem, .power, .time, .mgt, .sfl,
    .lanes, .ports, .sites, .pkts, .parse, .rules, .tern, .pattern, .tm, .sched,
    .hbm, .tel, .host, .flow, .gang, .act, .wds, .plate, .recov] c c2 := hc1.andThen (within_tripEnter ..)
  have hc3 : Within [.regs, .wideCap, .wideStage, .dram, .hostMem, .power, .time, .mgt, .sfl,
    .lanes, .ports, .sites, .pkts, .parse, .rules, .tern, .pattern, .tm, .sched,
    .hbm, .tel, .host, .flow, .gang, .act, .wds, .plate, .recov] c c3 :=
      (hc1.andThen (within_tripEnter ..)).andThen (within_putF ..)
  exact .ite ((hc2.sfl _).andThen (within_railsOff ..)) (.ite (.ite (hc3.andThen (within_tripRates ..)) hc3)
    (.ite (((hc1.andThen (within_tripEnter ..)).andThen (within_putF ..)).andThen (within_tripRates ..))
      (.ite (hc1.andThen (within_tripEnd ..)) hc1)))

theorem within_sensorSample (c : Chip) (vals : List (BitVec 16)) :
    Within [.regs, .wideCap, .wideStage, .dram, .hostMem, .power, .time, .mgt, .sfl, .lanes, .ports, .sites, .pkts, .parse,
      .rules, .tern, .pattern, .tm, .sched, .hbm, .tel, .host, .flow, .gang, .act, .wds, .plate, .recov] c
        (c.sensorSample vals) := by
  unfold Chip.sensorSample
  extract_lets v c1 j
  have hc1 : Within [.regs, .wideCap, .wideStage, .dram, .hostMem, .power, .time, .mgt, .sfl,
    .lanes, .ports, .sites, .pkts, .parse, .rules, .tern, .pattern, .tm, .sched,
    .hbm, .tel, .host, .flow, .gang, .act, .wds, .plate, .recov] c c1 :=
      .foldl (.refl _ _) fun _ _ => (within_sensorOne ..).mono
  exact .ite (hc1.andThen (within_trips ..)) hc1

theorem within_txSet (c : Chip) (l type : Nat) (body : Bytes) : Within [.lanes] c (c.txSet l type body) := by
  unfold Chip.txSet
  exact (within_onLane ..).mono

theorem within_upCheck (c : Chip) (l : Nat) :
    Within [.regs, .dram, .hostMem, .freeCtr, .sfl, .lanes, .ports, .pkts, .pattern, .tm, .sched, .tel, .host, .flow, .gang,
      .act] c (c.upCheck l) := by
  unfold Chip.upCheck
  exact .ite (within_laneIsUp ..).mono (.refl _ _)

theorem within_setTx (c : Chip) (l : Nat) :
    Within [.regs, .dram, .hostMem, .freeCtr, .sfl, .lanes, .ports, .pkts, .pattern, .tm, .sched, .tel, .host, .flow, .gang,
      .act] c (c.setTx l) := by
  unfold Chip.setTx
  extract_lets x st step
  split
  · exact (within_txSet ..).mono.andThen (within_onLane ..)
  · exact .ite (within_onLane ..).mono (.refl _ _)
  · refine .ite ?_ ?_
    · exact .refl _ _
    · refine .ite ?_ ?_
      · exact ((within_txSet ..).mono.andThen (within_onLane ..)).andThen (within_upCheck ..)
      · refine .ite ?_ ?_
        · exact (within_txSet ..).mono
        · refine .ite ?_ ?_
          · split
            · exact ((within_txSet ..).mono.andThen (within_onLane ..)).andThen (within_stepCheck ..)
            · exact .refl _ _
          · exact .ite ((within_txSet ..).mono.andThen (within_onLane ..)) (.ite (within_txSet ..).mono (.refl _ _))

theorem within_setupFailed (c : Chip) (e : Nat) (x : FSetup) (status : Nat) :
    Within [.regs, .flow] c (c.setupFailed e x status) := by
  unfold Chip.setupFailed
  extract_lets ops c1
  have hc1 : Within [.regs, .flow] c c1 := (within_onEng ..).mono
  exact .foldl hc1 fun _ _ => (within_fallback ..).mono

theorem within_setupEnd (c : Chip) (e tag how : Nat) : Within [.regs, .flow] c (c.setupEnd e tag how) := by
  unfold Chip.setupEnd
  split
  · exact .refl _ _
  · exact .ite (within_onEng ..).mono (within_setupFailed ..).mono

theorem within_setupAccepted (c : Chip) (e tag : Nat) : Within [.flow] c (c.setupAccepted e tag) := by
  unfold Chip.setupAccepted
  exact (within_onEng ..).mono

theorem within_setupOffer (c : Chip) (e : Nat) : Within [.regs, .hostMem, .tel, .host, .flow, .wds] c (c.setupOffer e) := by
  unfold Chip.setupOffer
  split
  · exact .refl _ _
  · split
    · rename_i d heq
      have hd : Within [.regs, .hostMem, .tel, .host, .flow, .wds] c d := .of_snd heq (within_offer ..).mono
      exact hd.andThen (within_setupAccepted ..)
    · rename_i d _ heq
      have hd : Within [.regs, .hostMem, .tel, .host, .flow, .wds] c d := .of_snd heq (within_offer ..).mono
      exact hd

theorem within_shaperUpdate (c : Chip) (level n : Nat) : Within [.regs, .sched, .tel] c (c.shaperUpdate level n) := by
  unfold Chip.shaperUpdate
  split
  · exact (within_updQ ..).mono.andThen (within_condEv ..)
  · exact (within_updCls ..).mono
  · exact (within_updPort ..).mono

theorem within_signalRise (c : Chip) (l : Nat) :
    Within [.regs, .dram, .hostMem, .sfl, .lanes, .ports, .pkts, .pattern, .tm, .sched, .tel, .host, .flow, .gang, .act] c
      (c.signalRise l) := by
  unfold Chip.signalRise
  extract_lets c1 c2
  have hc1 : Within [.regs, .dram, .hostMem, .sfl, .lanes, .ports, .pkts, .pattern, .tm, .sched,
    Part.tel, .host, .flow, .gang, .act] c c1 := (within_lput ..).mono
  have hc2 : Within [.regs, .dram, .hostMem, .sfl, .lanes, .ports, .pkts, .pattern, .tm, .sched,
    Part.tel, .host, .flow, .gang, .act] c c2 := hc1.andThen (within_onLane ..)
  exact .ite hc1 (.ite (hc2.andThen (within_backoffEnd ..)) hc2)

theorem within_siteRetry (c : Chip) (m : Nat) :
    Within [.regs, .dram, .hostMem, .sfl, .lanes, .ports, .sites, .pkts, .pattern, .tm, .sched, .tel, .host, .flow, .gang,
      .act] c (c.siteRetry m) := by
  unfold Chip.siteRetry
  exact .ite ((within_onSite ..).mono.andThen (within_siteGo ..)) (.refl _ _)

theorem within_sld (c : Chip) (x : Nat) : Within [.regs, .hostMem, .ports, .tel, .host, .flow, .gang, .act] c (c.sld x) := by
  unfold Chip.sld
  exact (within_runUnit ..).mono

theorem within_sliceActive (c : Chip) (s : Nat) : Within [.regs, .mgt] c (c.sliceActive s) := by
  unfold Chip.sliceActive
  extract_lets _ c1
  have hc1 : Within [.regs, .mgt] c c1 := (Within.refl _ _).mgt _
  exact hc1.andThen (within_putF ..)

theorem within_slicePark (c : Chip) (s : Nat) : Within [.regs] c (c.slicePark s) := by
  unfold Chip.slicePark
  exact .ite (.refl _ _) ((within_putF ..).mono.andThen (within_bump ..))

theorem within_finalRx (c : Chip) (p : Nat) (fr : Bytes) : Within [.regs, .dram, .gang] c (c.finalRx p fr) := by
  unfold Chip.finalRx
  exact .ctrlTake (.refl _ _) fun _ _ _ => ((within_onGang ..).mono.andThen (within_promote ..))

theorem within_sst (c : Chip) (x : Nat) : Within [.regs, .hostMem, .ports, .tel, .host, .flow, .gang, .act] c (c.sst x) := by
  unfold Chip.sst
  exact (within_runUnit ..).mono

theorem within_parityError (c : Chip) (ch : Nat) (wr : Bool) (addr syn : Nat) :
    Within [.regs, .hostMem, .hbm, .tel, .host] c (c.parityError ch wr addr syn) := by
  unfold Chip.parityError
  exact (within_freeze ..).mono

theorem within_stepAcquired (c : Chip) (l : Nat) :
    Within [.regs, .dram, .hostMem, .sfl, .ports, .pkts, .pattern, .tm, .sched, .tel, .host, .flow, .gang, .act] c
      (c.stepAcquired l) := by
  unfold Chip.stepAcquired
  exact .ite ((within_lput ..).mono.andThen (within_laneGo ..)) (.refl _ _)

theorem within_stepSet (c : Chip) (l : Nat) (g : SetGroups) : Within [.lanes] c (c.stepSet l g) := by
  unfold Chip.stepSet
  split
  · exact .refl _ _
  · extract_lets n
    exact (within_onLane ..).mono.andThen (within_stepCheck ..)

theorem within_stepSwitch (c : Chip) (l : Nat) :
    Within [.regs, .dram, .hostMem, .sfl, .lanes, .ports, .pkts, .pattern, .tm, .sched, .tel, .host, .flow, .gang, .act] c
      (c.stepSwitch l) := by
  unfold Chip.stepSwitch
  split
  · exact .refl _ _
  · extract_lets c1
    have hc1 : Within [.regs, .dram, .hostMem, .sfl, .lanes, .ports, .pkts, .pattern, .tm, .sched,
      Part.tel, .host, .flow, .gang, .act] c c1 := (within_onLane ..).mono
    exact (((hc1.andThen (within_lput ..)).andThen (within_lput ..)).andThen (within_lput ..)).andThen (within_laneGo ..)

theorem within_stepTimeout (c : Chip) (l : Nat) :
    Within [.regs, .dram, .hostMem, .sfl, .lanes, .ports, .pkts, .pattern, .tm, .sched, .tel, .host, .flow, .gang, .act] c
      (c.stepTimeout l) := by
  unfold Chip.stepTimeout
  exact .ite (.refl _ _) (within_laneFail ..).mono

theorem within_bufferAgain (c : Chip) (img : Bytes) : Within [.regs] c (c.bufferAgain img) := by
  unfold Chip.bufferAgain
  extract_lets free least
  exact ((within_applyBuffer ..).mono.andThen (within_putF ..)).andThen (within_putF ..)

theorem within_clusterFirst (c : Chip) (img : Bytes) (k : Nat) : Within [.act] c (c.clusterFirst img k) := by
  unfold Chip.clusterFirst
  extract_lets c1
  have hc1 : Within [.act] c c1 := (within_applyMicrocode ..).mono.andThen (within_applyRoutines ..)
  exact .foldl hc1 fun _ _ => (.ite (within_onCtx ..).mono (.refl _ _))

theorem within_dramAgain (c : Chip) (img : Bytes) (ch : Nat) : Within [.regs, .hbm] c (c.dramAgain img ch) := by
  unfold Chip.dramAgain
  extract_lets s rate c1
  have hc1 : Within [.regs, .hbm] c c1 := (within_applyDram ..).mono.andThen (within_putF ..)
  exact hc1.andThen (within_rateChange ..)

theorem within_metersRestart (c : Chip) (e : Nat) : Within [.flow] c (c.metersRestart e) := by
  unfold Chip.metersRestart
  extract_lets now put ms
  exact (Within.refl _ _).flow _

theorem within_engineFirst (c : Chip) (e : Nat) : Within [.flow] c (c.engineFirst e) := by
  unfold Chip.engineFirst
  exact (within_onEng ..).mono.andThen (within_metersRestart ..)

theorem within_regionFirst (c : Chip) (img : Bytes) (r : Nat) : Within [.regs, .rules, .tern] c (c.regionFirst img r) := by
  unfold Chip.regionFirst
  extract_lets prof c1 keep rs c2
  clear_value prof
  have hc1 : Within [.regs, .rules, .tern] c c1 := by
    unfold c1
    split
    · exact .foldl (.refl _ _) fun _ _ => (within_tFree ..).mono
    · exact .foldl (.refl _ _) fun _ _ => (within_freeEntry ..).mono
  have hc2 : Within [.regs, .rules, .tern] c c2 := hc1.rules _
  exact (hc2.andThen (within_applyRegionHdr ..)).andThen (within_syncRules ..)

theorem within_treeFirst (c : Chip) (img : Bytes) (p : Nat) :
    Within [.regs, .hostMem, .pkts, .pattern, .tm, .sched, .tel, .host] c (c.treeFirst img p) := by
  unfold Chip.treeFirst
  extract_lets pool c1 lo hi kept words c2 c3 c4 c5
  have hc1 : Within [.regs, .hostMem, .pkts, .pattern, .tm, .sched, .tel, .host] c c1 := (within_dropQueues ..).mono
  have hc2 : Within [.regs, .hostMem, .pkts, .pattern, .tm, .sched, .tel, .host] c c2 := hc1.regs (smFilter_wf _)
  have hc3 : Within [.regs, .hostMem, .pkts, .pattern, .tm, .sched, .tel, .host] c c3 := hc2.andThen (within_applySched ..)
  have hc4 : Within [.regs, .hostMem, .pkts, .pattern, .tm, .sched, .tel, .host] c c4 :=
    .foldl hc3 fun _ _ => (within_wr ..).mono
  have hc5 : Within [.regs, .hostMem, .pkts, .pattern, .tm, .sched, .tel, .host] c c5 :=
    .foldl hc4 fun _ _ => (within_setClsDef ..).mono
  exact (Within.foldl hc5 fun _ _ => (within_shaperReset ..).mono).andThen (within_gateShow ..)

theorem within_applyUnit (c : Chip) (n : Nat) :
    Within [.regs, .dram, .hostMem, .sfl, .lanes, .ports, .sites, .pkts, .parse, .rules, .tern, .pattern, .tm, .sched, .hbm,
      .tel, .host, .flow, .gang, .act, .plate] c (c.applyUnit n) := by
  unfold Chip.applyUnit
  extract_lets i img old c1
  have hc1 : Within [.regs, .dram, .hostMem, .sfl, .lanes, .ports, .sites, .pkts, .parse, .rules,
    Part.tern, .pattern, .tm, .sched, .hbm, .tel, .host, .flow, .gang, .act,
    Part.plate] c c1 := .foldl (.refl _ _) fun _ _ => (within_engineFirst ..).mono
  split
  · exact (within_applyLaneGroup ..).mono
  · exact ((within_applyPortGroup ..).mono.andThen (within_applyLaneGroup ..)).andThen (within_siteCtrl ..)
  · exact (within_applyParse ..).mono
  · exact .ite ((Within.foldl hc1 fun _ _ => (within_applyEngineSet ..).mono).andThen (within_applyTemplates ..))
      (hc1.andThen (within_applyEngineSet ..))
  · exact (within_clusterFirst ..).mono
  · exact (within_treeFirst ..).mono
  · exact (within_regionFirst ..).mono
  · exact (within_dramAgain ..).mono
  · exact (within_bufferAgain ..).mono

theorem within_bathApplied (c : Chip) (n : Nat) :
    Within [.regs, .dram, .hostMem, .sfl, .lanes, .ports, .sites, .pkts, .parse, .rules, .tern, .pattern, .tm, .sched, .hbm,
      .tel, .host, .flow, .gang, .act, .plate] c (c.bathApplied n) := by
  unfold Chip.bathApplied
  exact .ite (.refl _ _) ((within_applyUnit ..).mono.andThen (within_putF ..))

theorem within_writeBackAll (c : Chip) (e : Nat) : Within [.dram, .flow] c (c.writeBackAll e) := by
  unfold Chip.writeBackAll
  exact .foldl (.refl _ _) fun _ _ => (.ite ((within_storeRec ..).mono.andThen (within_setWay ..)) (.refl _ _))

theorem within_bathDrained (c : Chip) (n : Nat) : Within [.regs, .dram, .flow] c (c.bathDrained n) := by
  unfold Chip.bathDrained
  exact .ite (.refl _ _) (.ite (.foldl (within_putF ..).mono fun _ _ => (within_writeBackAll ..).mono) (within_putF ..).mono)

theorem within_bathMixed (c : Chip) (n : Nat) : Within [.regs, .plate] c (c.bathMixed n) := by
  unfold Chip.bathMixed
  extract_lets u rest l src
  have hsrc : Within [.regs, .plate] c src := (within_putF ..).mono
  exact hsrc.plate _

theorem within_bathTrain (c : Chip) (ch : Nat) (masks : List Nat) :
    Within [.regs, .dram, .hostMem, .power, .mgt, .sfl, .ports, .pkts, .pattern, .tm, .hbm, .tel, .host, .flow, .gang, .act,
      .wds] c (c.bathTrain ch masks).2 := by
  unfold Chip.bathTrain
  extract_lets r c1 c2 c3
  have hr : Within [.regs, .dram, .hostMem, .power, .mgt, .sfl, .ports, .pkts, .pattern, .tm,
    Part.hbm, .tel, .host, .flow, .gang, .act, .wds] c r.2 := (within_trainResult ..).mono
  have hc1 : Within [.regs, .dram, .hostMem, .power, .mgt, .sfl, .ports, .pkts, .pattern, .tm,
    Part.hbm, .tel, .host, .flow, .gang, .act, .wds] c c1 := hr.andThen (within_repairCh ..)
  have hc2 : Within [.regs, .dram, .hostMem, .power, .mgt, .sfl, .ports, .pkts, .pattern, .tm,
    Part.hbm, .tel, .host, .flow, .gang, .act, .wds] c c2 := .ite hc1 ((hc1.andThen (within_putF ..)).andThen (within_bump ..))
  have hc3 : Within [.regs, .dram, .hostMem, .power, .mgt, .sfl, .ports, .pkts, .pattern, .tm,
    Part.hbm, .tel, .host, .flow, .gang, .act, .wds] c c3 := hr.andThen (within_raise ..)
  split
  · exact .snd_mk (hc2.andThen (within_releaseCh ..))
  · exact .snd_mk (.ite (hc3.andThen (within_putF ..)) (hc3.andThen (within_freeze ..)))

theorem within_bathRestarted (c : Chip) (n : Nat) (masks : List Nat) :
    Within [.regs, .dram, .hostMem, .freeCtr, .power, .mgt, .sfl, .lanes, .ports, .pkts, .rules, .tern, .pattern, .tm, .sched,
      .hbm, .tel, .host, .flow, .gang, .act, .wds, .plate, .recov] c (c.bathRestarted n masks) := by
  unfold Chip.bathRestarted
  refine .ite ?_ ?_
  · exact .refl _ _
  · extract_lets st r
    have hr : Within [.regs, .dram, .hostMem, .freeCtr, .power, .mgt, .sfl, .lanes, .ports, .pkts,
      Part.rules, .tern, .pattern, .tm, .sched, .hbm, .tel, .host, .flow, .gang,
      Part.act, .wds, .plate, .recov] c r.2 := by
      unfold r
      split
      · exact (within_bathTrain ..).mono
      · exact .snd_mk (.refl _ _)
    exact (hr.andThen (within_bathMixed ..)).andThen (within_bathEnd ..)

theorem within_bathStart (c : Chip) (n : Nat) :
    Within [.regs, .dram, .hostMem, .time, .sfl, .lanes, .ports, .pkts, .pattern, .tm, .sched, .hbm, .tel, .host, .flow,
      .gang, .act, .plate] c (c.bathStart n) := by
  unfold Chip.bathStart
  exact .ite (.refl _ _) (.ite (within_startDrain ..).mono (.ite (within_startDrain ..).mono (.refl _ _)))

theorem within_stripTimeout (c : Chip) (pid : Nat) : Within [.regs, .hostMem, .pkts, .host] c (c.stripTimeout pid) := by
  unfold Chip.stripTimeout
  split
  · exact .refl _ _
  · split
    · exact .refl _ _
    · exact .ite (.refl _ _) ((within_stripOut ..).mono.andThen (within_updPkt ..))

theorem within_sweepSlot (c : Chip) (e b j ecc : Nat) :
    Within [.regs, .dram, .hostMem, .host, .flow] c (c.sweepSlot e b j ecc) := by
  unfold Chip.sweepSlot
  extract_lets t bad r h1 busy x c1
  have hc1 : Within [.regs, .dram, .hostMem, .host, .flow] c c1 := by
    unfold c1
    split
    · exact (within_emptyWay ..).mono
    · exact .refl _ _
  clear_value bad c1
  refine .ite (.refl _ _) ?_
  split
  · exact (within_wayBroken ..).mono
  · exact .ite (.refl _ _) (.ite (.ite ((within_onEng ..).mono.andThen (within_bump ..)) (.refl _ _))
      (.ite (((hc1.andThen (within_clearTag ..)).andThen (within_recGone ..)).andThen (within_bump ..)) (.refl _ _)))

theorem within_sweepOp (c : Chip) (e b ecc : Nat) : Within [.regs, .dram, .hostMem, .host, .flow] c (c.sweepOp e b ecc) := by
  unfold Chip.sweepOp
  extract_lets b1
  exact .foldl (within_onEng ..).mono fun _ _ => (within_sweepSlot ..).mono

theorem within_sweepTick (c : Chip) : Within [.regs, .hostMem, .tel, .host, .wds] c c.sweepTick := by
  unfold Chip.sweepTick
  exact .ite (.refl _ _) (.foldl (.refl _ _) fun _ _ => (.ite (within_sweepOffer ..).mono
    (.ite (within_classAbsent ..).mono (((Within.refl _ _).wds _).andThen (within_sweepOffer ..)))))

theorem within_tagsArrived (c : Chip) (e i : Nat) (err : Bool) :
    Within [.regs, .dram, .hostMem, .host, .flow] c (c.tagsArrived e i err) := by
  unfold Chip.tagsArrived
  split
  · exact .refl _ _
  · refine .ite ?_ ?_
    · exact .refl _ _
    · refine .ite ?_ ?_
      · exact (within_lookupError ..).mono
      · split
        · exact (within_onLookup ..).mono
        · exact (within_absentKey ..).mono

theorem within_tailRx (c : Chip) (p : Nat) (fr : Bytes) :
    Within [.regs, .dram, .hostMem, .host, .flow, .gang] c (c.tailRx p fr) := by
  unfold Chip.tailRx
  split
  · rename_i d heq
    have hd : Within [.regs, .dram, .hostMem, .host, .flow, .gang] c d := .of_snd heq (within_gangTake ..).mono
    exact hd
  · rename_i d heq
    have hd : Within [.regs, .dram, .hostMem, .host, .flow, .gang] c d := .of_snd heq (within_gangTake ..).mono
    exact hd.andThen (within_tailAll ..)

theorem within_hotBatch (c : Chip) (s : Nat) : Within [.regs, .hbm] c (c.hotBatch s) := by
  unfold Chip.hotBatch
  exact .foldl (.refl _ _) fun _ _ => (.ite (.refl _ _) ((within_setPc ..).mono.andThen (within_setOwed ..)))

theorem within_tempReading (c : Chip) (s : Nat) (t : BitVec 8) :
    Within [.regs, .hostMem, .hbm, .host] c (c.tempReading s t) := by
  unfold Chip.tempReading
  extract_lets was v hot c1 c2 c3 c4
  have hc1 : Within [.regs, .hostMem, .hbm, .host] c c1 := (within_putF ..).mono.andThen (within_putF ..)
  have hc2 : Within [.regs, .hostMem, .hbm, .host] c c2 := hc1.andThen (within_putF ..)
  have hc3 : Within [.regs, .hostMem, .hbm, .host] c c3 :=
    .ite ((hc2.andThen (within_hotBatch ..)).andThen (within_raise ..)) hc2
  have hc4 : Within [.regs, .hostMem, .hbm, .host] c c4 := .ite (hc3.andThen (within_raise ..)) hc3
  exact .foldl hc4 fun _ _ => (within_putF ..).mono

theorem within_templateRefresh (c : Chip) : Within [.regs, .hostMem, .pkts, .tm, .tel, .host] c c.templateRefresh := by
  unfold Chip.templateRefresh
  exact .ite (within_sendTemplates ..).mono (.refl _ _)

theorem within_settle (c : Chip) : Within [.regs, .rules, .tern] c c.settle := by
  unfold Chip.settle
  extract_lets v xs base c1
  have hc1 : Within [.regs, .rules, .tern] c c1 := by
    unfold c1
    refine .foldl ?_ fun d x => ?_
    · exact .refl _ _
    · refine .ite ?_ ?_
      · refine .ite ?_ ?_
        · split
          · exact (Within.refl _ _).tern _
          · exact .refl _ _
        · split
          · exact (Within.refl _ _).rules _
          · exact .refl _ _
      · exact .ite (within_tFree ..).mono (within_freeEntry ..).mono
  exact (hc1.rules _).andThen (within_syncRules ..)

theorem within_tWaited (c : Chip) (n : Nat) : Within [.regs, .hostMem, .time, .rules, .tern, .host] c (c.tWaited n) := by
  unfold Chip.tWaited
  split
  · exact (within_fixUntimed ..).mono
  · exact (within_abandonEffect ..).mono
  · exact (within_settle ..).mono
  · exact (within_fixExecute ..).mono
  · exact (within_fixEffect ..).mono
  · exact (within_raise ..).mono

theorem within_tCommandDone (c : Chip) : Within [.regs, .hostMem, .time, .rules, .tern, .host] c c.tCommandDone := by
  unfold Chip.tCommandDone
  refine .ite ?_ ?_
  · exact .refl _ _
  · extract_lets ws _ c1
    have hc1 : Within [.regs, .hostMem, .time, .rules, .tern, .host] c c1 :=
      ((Within.refl _ _).tern _).andThen (within_finish ..)
    refine .foldl ?_ fun d x => ?_
    · exact hc1
    · exact (within_tWaited ..).mono

theorem within_tScrub (c : Chip) (q n : Nat) (uncorr : Bool) :
    Within [.regs, .hostMem, .power, .mgt, .rules, .tern, .host] c (c.tScrub q n uncorr) := by
  unfold Chip.tScrub
  split
  · exact .refl _ _
  · exact .ite ((((within_tFree ..).mono.rules _).andThen (within_syncRules ..)).andThen (within_log ..))
      ((within_bump ..).mono.andThen (within_raise ..))

theorem within_timAfter (c : Chip) (x : Nat) :
    Within [.regs, .hostMem, .ports, .tel, .host, .flow, .gang, .act] c (c.timAfter x) := by
  unfold Chip.timAfter
  exact (within_runUnit ..).mono

theorem within_timSample (c : Chip) (x code : Nat) :
    Within [.regs, .hostMem, .ports, .tel, .host, .flow, .gang, .act] c (c.timSample x code) := by
  unfold Chip.timSample
  exact (within_runUnit ..).mono

theorem within_reevaluate (c : Chip) : Within [.regs, .hostMem, .time, .rules, .sched, .host, .gang] c c.reevaluate := by
  unfold Chip.reevaluate
  exact .foldl (.refl _ _) fun _ _ => (.ite ((Within.refl _ _).time _) (.ite (within_withdraw ..).mono (.refl _ _)))

theorem within_timDone (c : Chip) : Within [.regs, .hostMem, .host] c c.timDone := by
  unfold Chip.timDone
  exact .ite (within_finish ..).mono (.refl _ _)

theorem within_tickWrites (c : Chip) : Within [.regs, .hostMem, .time, .rules, .sched, .host, .gang] c c.tickWrites := by
  unfold Chip.tickWrites
  extract_lets _ c1 src _ c2 c3
  have hc1 : Within [.regs, .hostMem, .time, .rules, .sched, .host, .gang] c c1 := by
    unfold c1
    split
    · exact (Within.refl _ _).time _
    · exact .refl _ _
  have hsrc : Within [.regs, .hostMem, .time, .rules, .sched, .host, .gang] c src := hc1.andThen (within_endSlew ..)
  have hc2 : Within [.regs, .hostMem, .time, .rules, .sched, .host, .gang] c c2 := by
    unfold c2
    split
    · exact ((hsrc.time _).andThen (within_setTimeValid ..)).andThen (within_timDone ..)
    · exact hc1
  have hc3 : Within [.regs, .hostMem, .time, .rules, .sched, .host, .gang] c c3 := hc2.andThen (within_endSlew ..)
  split
  · extract_lets c4
    have hc4 : Within [.regs, .hostMem, .time, .rules, .sched, .host, .gang] c c4 := hc3.time _
    exact (hc4.andThen (within_reevaluate ..)).andThen (within_timDone ..)
  · exact hc2

theorem within_tick (c : Chip) : Within [.regs, .hostMem, .time, .rules, .sched, .host, .gang] c c.tick := by
  unfold Chip.tick
  extract_lets c1 part _ c11
  have hc1 : Within [.regs, .hostMem, .time, .rules, .sched, .host, .gang] c c1 := (within_tickWrites ..).mono
  have hc11 : Within [.regs, .hostMem, .time, .rules, .sched, .host, .gang] c c11 := hc1.time _
  split
  · extract_lets c12
    have hc12 : Within [.regs, .hostMem, .time, .rules, .sched, .host, .gang] c c12 := hc11.time _
    exact .ite ((hc12.andThen (within_putF ..)).andThen (within_raise ..)) hc12
  · exact hc11

theorem within_kTplr (c : Chip) (x : Nat) :
    Within [.regs, .hostMem, .ports, .tel, .host, .flow, .gang, .act] c (c.kTplr x) := by
  unfold Chip.kTplr
  exact (within_runUnit ..).mono

theorem within_tracking (c : Chip) (g : Nat) (masks : List Nat) : Within [.regs] c (c.tracking g masks) := by
  unfold Chip.tracking
  exact .ite (.refl _ _) (.foldl (.refl _ _) fun _ _ => ((within_putF ..).mono.andThen (within_putF ..)))

theorem within_trainingDone (c : Chip) (ch : Nat) (masks : List Nat) :
    Within [.regs, .hostMem, .hbm, .tel, .host] c (c.trainingDone ch masks) := by
  unfold Chip.trainingDone
  exact .ite (.refl _ _) (.ite (((within_trainResult ..).mono.andThen (within_putF ..)).andThen (within_stackTrained ..))
    ((((within_trainResult ..).mono.andThen (within_freeze ..)).andThen (within_raise ..)).andThen (within_stackTrained ..)))

theorem within_tsyncReq (c : Chip) (p : Nat) (fr : Bytes) : Within [.regs, .ports, .gang] c (c.tsyncReq p fr) := by
  unfold Chip.tsyncReq
  exact .ctrlTake (.refl _ _) fun _ _ _ => (.ite (within_ctrlTo ..).mono (.refl _ _))

theorem within_gangSlew (c : Chip) (th : Int) (prev : Option Int) : Within [.regs, .time] c (c.gangSlew th prev) := by
  unfold Chip.gangSlew
  extract_lets a s unit incr _ c1
  have hc1 : Within [.regs, .time] c c1 := (Within.refl _ _).time _
  exact (hc1.andThen (within_putQ ..)).andThen (within_putF ..)

theorem within_tsyncResp (c : Chip) (p : Nat) (fr : Bytes) : Within [.regs, .time, .gang] c (c.tsyncResp p fr) := by
  unfold Chip.tsyncResp
  exact .ctrlTake (.refl _ _) fun _ _ _ => (.ite (.refl _ _) (.ite
    (.ite ((((within_putQ ..).mono.andThen (within_onGang ..)).andThen (within_putF ..)).time _)
      (((within_putQ ..).mono.andThen (within_onGang ..)).andThen (within_putF ..)))
        (.ite ((((within_putQ ..).mono.andThen (within_onGang ..)).andThen (within_putF ..)).time _)
          ((((within_putQ ..).mono.andThen (within_onGang ..)).andThen (within_putF ..)).andThen (within_gangSlew ..)))))

theorem within_tsyncTimer (c : Chip) : Within [.regs, .ports, .gang] c c.tsyncTimer := by
  unfold Chip.tsyncTimer
  exact .ite (within_ctrlTo ..).mono (.refl _ _)

theorem within_twTimeout (c : Chip) (w : Nat) : Within [.regs, .hostMem, .host, .flow, .act] c (c.twTimeout w) := by
  unfold Chip.twTimeout
  exact .ite (.refl _ _) ((((Within.refl _ _).parts [.host, .act]).andThen (within_onFlow ..)).andThen (within_twDone ..))

theorem within_unrecoverable (c : Chip) (sfl : Bool) :
    Within [.regs, .hostMem, .power, .mgt, .host] c (c.unrecoverable sfl) := by
  unfold Chip.unrecoverable
  extract_lets c1 c2
  have hc1 : Within [.regs, .hostMem, .power, .mgt, .host] c c1 := (within_raiseGlb ..).mono.andThen (within_log ..)
  have hc2 : Within [.regs, .hostMem, .power, .mgt, .host] c c2 := .ite (hc1.andThen (within_log ..)) hc1
  exact hc2.power id

theorem within_upSet (c : Chip) (l : Nat) (g : SetGroups) :
    Within [.regs, .dram, .hostMem, .freeCtr, .sfl, .lanes, .ports, .pkts, .pattern, .tm, .sched, .tel, .host, .flow, .gang,
      .act] c (c.upSet l g) := by
  unfold Chip.upSet
  split
  · exact .refl _ _
  · exact .ite (.refl _ _) ((within_onLane ..).mono.andThen (within_upCheck ..))

theorem within_retire (c : Chip) : Within [.regs, .hostMem, .rules, .tern, .host] c c.retire := by
  unfold Chip.retire
  extract_lets v c1 src
  have hc1 : Within [.regs, .hostMem, .rules, .tern, .host] c c1 := (within_putF ..).mono.andThen (within_raise ..)
  have hsrc : Within [.regs, .hostMem, .rules, .tern, .host] c src := hc1.andThen (within_syncRules ..)
  exact .ite (.refl _ _) (.ite (hsrc.tern _) (hc1.andThen (within_settle ..)))

theorem within_vinLoss (c : Chip) : Within (.hostMem :: .power :: Part.railParts) c c.vinLoss := by
  unfold Chip.vinLoss
  exact .ite ((within_log ..).mono.andThen (within_railsOff ..)) ((Within.refl _ _).power id)

theorem within_vinOver (c : Chip) (mv : Nat) :
    Within [.regs, .wideCap, .wideStage, .dram, .hostMem, .power, .time, .mgt, .lanes, .ports, .sites, .pkts, .parse, .rules,
      .tern, .pattern, .tm, .sched, .hbm, .tel, .host, .flow, .gang, .act, .wds, .plate, .recov] c (c.vinOver mv) := by
  unfold Chip.vinOver
  exact .ite (((within_raise ..).mono.andThen (within_log ..)).andThen (within_railsOff ..)) (.refl _ _)

theorem within_vinQualified (c : Chip) :
    Within [.regs, .wideCap, .wideStage, .dram, .hostMem, .power, .time, .mgt, .lanes, .ports, .sites, .pkts, .parse, .rules,
      .tern, .pattern, .tm, .sched, .hbm, .tel, .host, .flow, .gang, .act, .wds, .plate, .recov] c c.vinQualified := by
  unfold Chip.vinQualified
  exact .ite (.refl _ _) (within_start ..).mono

theorem within_vsbRise (c : Chip) : Within [.regs, .power] c c.vsbRise := by
  unfold Chip.vsbRise
  extract_lets p c1 c2
  have hc1 : Within [.regs, .power] c c1 := (Within.refl _ _).power fun _ => ⟨rfl, rfl⟩
  exact .ite (.refl _ _) ((hc1.andThen (within_putF ..)).andThen (within_putQ ..))

theorem within_wayAvailable (c : Chip) (e : Nat) : Within [.regs, .dram, .hostMem, .host, .flow] c (c.wayAvailable e) := by
  unfold Chip.wayAvailable
  split
  · exact .refl _ _
  · exact .ite (within_fillLookup ..).mono (within_absentKey ..).mono

theorem within_wideRead (c : Chip) (r : RegAt) (a hw : Nat) :
    Within [.regs, .wideCap, .rdData, .sfl] c (c.wideRead r a hw) := by
  unfold Chip.wideRead
  extract_lets ks c1 c11 c12
  have hc1 : Within [.regs, .wideCap, .rdData, .sfl] c c1 :=
    .foldl (.refl _ _) fun _ _ => (.ite (.refl _ _) ((Within.refl _ _).wideCap _))
  have hc11 : Within [.regs, .wideCap, .rdData, .sfl] c c11 := hc1.rdData _
  have hc12 : Within [.regs, .wideCap, .rdData, .sfl] c c12 := .foldl hc11 fun _ _ => (within_wr ..).mono
  exact .ite hc11 (.ite (hc12.sfl _) hc12)

theorem within_wkeep (c : Chip) (x : Nat) :
    Within [.regs, .hostMem, .ports, .tel, .host, .flow, .gang, .act] c (c.wkeep x) := by
  unfold Chip.wkeep
  exact (within_runUnit ..).mono

theorem within_wrec (c : Chip) (x : Nat) : Within [.regs, .hostMem, .ports, .tel, .host, .flow, .gang, .act] c (c.wrec x) := by
  unfold Chip.wrec
  exact (within_runUnit ..).mono

theorem within_xferDone (c : Chip) (m : Nat) (ok : Bool) (data flags : Bytes) :
    Within [.regs, .hostMem, .sites, .host] c (c.xferDone m ok data flags) := by
  unfold Chip.xferDone
  extract_lets x n c1
  have hc1 : Within [.regs, .hostMem, .sites, .host] c c1 :=
    .ite (.refl _ _) ((within_putWords ..).mono.andThen (within_orFlags ..))
  exact .ite (.refl _ _) (.ite (within_xferEnd ..).mono (hc1.andThen (within_xferEnd ..)))

end Sys2Proof.Proofs
end

section
/-!
Commands: what each may change, through the functions it runs on the device.
-/
namespace Sys2Proof.Proofs
open Sys2Proof Sys2Proof.Machine

-- Each default `by decide` of a helper waits for the kernel: one proof at a time bounds the threads that wait.
set_option Elab.async false

/-- Where the command answers a next state, its device differs in the parts `M` alone. -/
structure Kept (M : List Part) (s : State) (r : Out) : Prop where
  within : ∀ t, r = .next t → Within M s.chip t.chip

namespace Kept
variable {M : List Part} {s : State} {f : Chip → Chip}

theorem onAny (h : ∀ c, Within M c (f c)) : Kept M s (s.onAny f) := by
  refine ⟨fun t ht => ?_⟩
  cases ht
  exact h _

theorem on (h : ∀ c, Within M c (f c)) : Kept M s (s.on f) := by
  refine ⟨fun t ht => ?_⟩
  unfold State.on at ht
  split at ht
  · cases ht
    exact h _
  · cases ht
    exact .refl _ _

theorem mono {N : List Part} {r : Out} (h : Kept N s r) (hM : ∀ p ∈ N, p ∈ M := by decide) : Kept M s r :=
  ⟨fun t ht => (h.within t ht).mono hM⟩

end Kept

end Sys2Proof.Proofs
end

section
/-!
One lemma `kept_<command>` for each command but VSB_LOSS, which takes the always-on domain down.
-/
namespace Sys2Proof.Proofs
open Sys2Proof Sys2Proof.Machine

-- Each default `by decide` of a helper waits for the kernel: one proof at a time bounds the threads that wait.
set_option Elab.async false

theorem kept_nop (pid : Nat) (s : Machine.State) : Kept [.pkts] s (execNop pid s) := by
  unfold execNop
  exact .on fun _ => (within_parseStep ..).mono

theorem kept_ext (pid : Nat) (s : Machine.State) : Kept [.pkts] s (execExt pid s) := by
  unfold execExt
  exact .on fun _ => (within_parseStep ..).mono

theorem kept_mark (pid : Nat) (s : Machine.State) : Kept [.pkts] s (execMark pid s) := by
  unfold execMark
  exact .on fun _ => (within_parseStep ..).mono

theorem kept_lchk (pid : Nat) (s : Machine.State) : Kept [.pkts] s (execLchk pid s) := by
  unfold execLchk
  exact .on fun _ => (within_parseStep ..).mono

theorem kept_kcommit (pid : Nat) (s : Machine.State) : Kept [.pkts] s (execKcommit pid s) := by
  unfold execKcommit
  exact .on fun _ => (within_parseStep ..).mono

theorem kept_alu (pid : Nat) (s : Machine.State) : Kept [.pkts] s (execAlu pid s) := by
  unfold execAlu
  exact .on fun _ => (within_parseStep ..).mono

theorem kept_setf (pid : Nat) (s : Machine.State) : Kept [.pkts] s (execSetf pid s) := by
  unfold execSetf
  exact .on fun _ => (within_parseStep ..).mono

theorem kept_lvl (pid : Nat) (s : Machine.State) : Kept [.pkts] s (execLvl pid s) := by
  unfold execLvl
  exact .on fun _ => (within_parseStep ..).mono

theorem kept_stageAdd (region : Fin 32) (s : Machine.State) : Kept [.regs, .hostMem, .sfl, .rules, .host] s
    (execStageAdd region s) := by
  unfold execStageAdd
  exact .on fun _ => (within_stageCmd ..).mono

theorem kept_stageDel (region : Fin 32) (s : Machine.State) : Kept [.regs, .hostMem, .sfl, .rules, .host] s
    (execStageDel region s) := by
  unfold execStageDel
  exact .on fun _ => (within_stageCmd ..).mono

theorem kept_stageMod (region : Fin 32) (s : Machine.State) : Kept [.regs, .hostMem, .sfl, .rules, .host] s
    (execStageMod region s) := by
  unfold execStageMod
  exact .on fun _ => (within_stageCmd ..).mono

theorem kept_fix (timed : Bool) (s : Machine.State) : Kept [.regs, .hostMem, .time, .rules, .tern, .host] s (execFix timed s)
    := by
  unfold execFix
  exact .on fun _ => (within_fixCmd ..).mono

theorem kept_latentAbandon (s : Machine.State) : Kept [.regs, .hostMem, .rules, .tern, .host] s (execLatentAbandon s) := by
  unfold execLatentAbandon
  exact .on fun _ => (within_latentAbandon ..).mono

theorem kept_cancelFix (s : Machine.State) : Kept [.regs, .hostMem, .time, .rules, .host] s (execCancelFix s) := by
  unfold execCancelFix
  exact .on fun _ => (within_cancelFix ..).mono

theorem kept_lookup (region : Fin 32) (s : Machine.State) : Kept [.regs, .hostMem, .host] s (execLookup region s) := by
  unfold execLookup
  exact .on fun _ => (within_lookupCmd ..).mono

theorem kept_fixExecute (s : Machine.State) : Kept [.regs, .hostMem, .time, .rules, .tern, .host] s (execFixExecute s) := by
  unfold execFixExecute
  exact .on fun _ => (within_fixExecute ..).mono

theorem kept_fixHoldTimeout (s : Machine.State) : Kept [.regs, .hostMem, .time, .rules, .host] s (execFixHoldTimeout s) := by
  unfold execFixHoldTimeout
  exact .on fun _ => (within_fixHoldTimeout ..).mono

theorem kept_versionRetire (s : Machine.State) : Kept [.regs, .hostMem, .rules, .tern, .host] s (execVersionRetire s) := by
  unfold execVersionRetire
  exact .on fun _ => (within_retire ..).mono

theorem kept_tstageAdd (profile : Fin 16) (s : Machine.State) : Kept [.regs, .hostMem, .sfl, .rules, .tern, .host] s
    (execTstageAdd profile s) := by
  unfold execTstageAdd
  exact .on fun _ => (within_tStageCmd ..).mono

theorem kept_tstageDel (profile : Fin 16) (s : Machine.State) : Kept [.regs, .hostMem, .sfl, .rules, .tern, .host] s
    (execTstageDel profile s) := by
  unfold execTstageDel
  exact .on fun _ => (within_tStageCmd ..).mono

theorem kept_tstageMod (profile : Fin 16) (s : Machine.State) : Kept [.regs, .hostMem, .sfl, .rules, .tern, .host] s
    (execTstageMod profile s) := by
  unfold execTstageMod
  exact .on fun _ => (within_tStageCmd ..).mono

theorem kept_tlookup (profile : Fin 16) (byKey : Bool) (s : Machine.State) : Kept [.regs, .hostMem, .host] s
    (execTlookup profile byKey s) := by
  unfold execTlookup
  exact .on fun _ => (within_tLookup ..).mono

theorem kept_rebalance (profile : Fin 16) (s : Machine.State) : Kept [.regs, .hostMem, .sfl, .rules, .tern, .host] s
    (execRebalance profile s) := by
  unfold execRebalance
  exact .on fun _ => (within_rebalance ..).mono

theorem kept_ternaryCommandDone (s : Machine.State) : Kept [.regs, .hostMem, .time, .rules, .tern, .host] s
    (execTernaryCommandDone s) := by
  unfold execTernaryCommandDone
  exact .on fun _ => (within_tCommandDone ..).mono

theorem kept_ternaryScrub (profile : Fin 16) (pos : Fin 262144) (uncorr : Bool) (s : Machine.State) : Kept
    [.regs, .hostMem, .power, .mgt, .rules, .tern, .host] s (execTernaryScrub profile pos uncorr s) := by
  unfold execTernaryScrub
  exact .on fun _ => (within_tScrub ..).mono

theorem kept_ternaryBankGate (bank : Fin 64) (s : Machine.State) : Kept [.regs] s (execTernaryBankGate bank s) := by
  unfold execTernaryBankGate
  refine .on fun c => ?_
  extract_lets a
  exact .ite (within_putF ..).mono (within_wr ..).mono

theorem kept_add (ctx : Fin 1024) (unitB : Bool) (s : Machine.State) : Kept
    [.regs, .hostMem, .ports, .tel, .host, .flow, .gang, .act] s (execAdd ctx unitB s) := by
  unfold execAdd
  exact .on fun _ => (within_aluUnit ..).mono

theorem kept_sub (ctx : Fin 1024) (unitB : Bool) (s : Machine.State) : Kept
    [.regs, .hostMem, .ports, .tel, .host, .flow, .gang, .act] s (execSub ctx unitB s) := by
  unfold execSub
  exact .on fun _ => (within_aluUnit ..).mono

theorem kept_and (ctx : Fin 1024) (unitB : Bool) (s : Machine.State) : Kept
    [.regs, .hostMem, .ports, .tel, .host, .flow, .gang, .act] s (execAnd ctx unitB s) := by
  unfold execAnd
  exact .on fun _ => (within_aluUnit ..).mono

theorem kept_or (ctx : Fin 1024) (unitB : Bool) (s : Machine.State) : Kept
    [.regs, .hostMem, .ports, .tel, .host, .flow, .gang, .act] s (execOr ctx unitB s) := by
  unfold execOr
  exact .on fun _ => (within_aluUnit ..).mono

theorem kept_xor (ctx : Fin 1024) (unitB : Bool) (s : Machine.State) : Kept
    [.regs, .hostMem, .ports, .tel, .host, .flow, .gang, .act] s (execXor ctx unitB s) := by
  unfold execXor
  exact .on fun _ => (within_aluUnit ..).mono

theorem kept_shl (ctx : Fin 1024) (unitB : Bool) (s : Machine.State) : Kept
    [.regs, .hostMem, .ports, .tel, .host, .flow, .gang, .act] s (execShl ctx unitB s) := by
  unfold execShl
  exact .on fun _ => (within_aluUnit ..).mono

theorem kept_shr (ctx : Fin 1024) (unitB : Bool) (s : Machine.State) : Kept
    [.regs, .hostMem, .ports, .tel, .host, .flow, .gang, .act] s (execShr ctx unitB s) := by
  unfold execShr
  exact .on fun _ => (within_aluUnit ..).mono

theorem kept_mov (ctx : Fin 1024) (unitB : Bool) (s : Machine.State) : Kept
    [.regs, .hostMem, .ports, .tel, .host, .flow, .gang, .act] s (execMov ctx unitB s) := by
  unfold execMov
  exact .on fun _ => (within_aluUnit ..).mono

theorem kept_cmp (ctx : Fin 1024) (unitB : Bool) (s : Machine.State) : Kept
    [.regs, .hostMem, .ports, .tel, .host, .flow, .gang, .act] s (execCmp ctx unitB s) := by
  unfold execCmp
  exact .on fun _ => (within_aluUnit ..).mono

theorem kept_extr (ctx : Fin 1024) (unitB : Bool) (s : Machine.State) : Kept
    [.regs, .hostMem, .ports, .tel, .host, .flow, .gang, .act] s (execExtr ctx unitB s) := by
  unfold execExtr
  exact .on fun _ => (within_aluUnit ..).mono

theorem kept_ins (ctx : Fin 1024) (unitB : Bool) (s : Machine.State) : Kept
    [.regs, .hostMem, .ports, .tel, .host, .flow, .gang, .act] s (execIns ctx unitB s) := by
  unfold execIns
  exact .on fun _ => (within_aluUnit ..).mono

theorem kept_mul (ctx : Fin 1024) (unitB : Bool) (s : Machine.State) : Kept
    [.regs, .hostMem, .ports, .tel, .host, .flow, .gang, .act] s (execMul ctx unitB s) := by
  unfold execMul
  exact .on fun _ => (within_aluUnit ..).mono

theorem kept_modu (ctx : Fin 1024) (unitB : Bool) (s : Machine.State) : Kept
    [.regs, .hostMem, .ports, .tel, .host, .flow, .gang, .act] s (execModu ctx unitB s) := by
  unfold execModu
  exact .on fun _ => (within_aluUnit ..).mono

theorem kept_ldlc (ctx : Fin 1024) (unitB : Bool) (s : Machine.State) : Kept
    [.regs, .hostMem, .ports, .tel, .host, .flow, .gang, .act] s (execLdlc ctx unitB s) := by
  unfold execLdlc
  exact .on fun _ => (within_aluUnit ..).mono

theorem kept_minu (ctx : Fin 1024) (unitB : Bool) (s : Machine.State) : Kept
    [.regs, .hostMem, .ports, .tel, .host, .flow, .gang, .act] s (execMinu ctx unitB s) := by
  unfold execMinu
  exact .on fun _ => (within_aluUnit ..).mono

theorem kept_sld (ctx : Fin 1024) (s : Machine.State) : Kept [.regs, .hostMem, .ports, .tel, .host, .flow, .gang, .act] s
    (execSld ctx s) := by
  unfold execSld
  exact .on fun _ => (within_sld ..).mono

theorem kept_sst (ctx : Fin 1024) (s : Machine.State) : Kept [.regs, .hostMem, .ports, .tel, .host, .flow, .gang, .act] s
    (execSst ctx s) := by
  unfold execSst
  exact .on fun _ => (within_sst ..).mono

theorem kept_cpy (ctx : Fin 1024) (s : Machine.State) : Kept [.regs, .hostMem, .ports, .tel, .host, .flow, .gang, .act] s
    (execCpy ctx s) := by
  unfold execCpy
  exact .on fun _ => (within_cpy ..).mono

theorem kept_cld (ctx : Fin 1024) (s : Machine.State) : Kept [.regs, .hostMem, .ports, .tel, .host, .flow, .gang, .act] s
    (execCld ctx s) := by
  unfold execCld
  exact .on fun _ => (within_cld ..).mono

theorem kept_rd (ctx : Fin 1024) (s : Machine.State) : Kept [.regs, .hostMem, .ports, .tel, .host, .flow, .gang, .act] s
    (execRd ctx s) := by
  unfold execRd
  exact .on fun _ => (within_rdUnit ..).mono

theorem kept_rdAnswer (ctx : Fin 1024) (s : Machine.State) : Kept [.regs, .hostMem, .ports, .tel, .host, .flow, .gang, .act] s
    (execRdAnswer ctx s) := by
  unfold execRdAnswer
  exact .on fun _ => (within_rdAnswer ..).mono

theorem kept_wrec (ctx : Fin 1024) (s : Machine.State) : Kept [.regs, .hostMem, .ports, .tel, .host, .flow, .gang, .act] s
    (execWrec ctx s) := by
  unfold execWrec
  exact .on fun _ => (within_wrec ..).mono

theorem kept_drd (ctx : Fin 1024) (s : Machine.State) : Kept [.regs, .hostMem, .sfl, .ports, .tel, .host, .flow, .gang, .act]
    s (execDrd ctx s) := by
  unfold execDrd
  exact .on fun _ => (within_drdUnit ..).mono

theorem kept_drdw (ctx : Fin 1024) (s : Machine.State) : Kept [.regs, .hostMem, .sfl, .ports, .tel, .host, .flow, .gang, .act]
    s (execDrdw ctx s) := by
  unfold execDrdw
  exact .on fun _ => (within_drdUnit ..).mono

theorem kept_drdDataArrived (ctx : Fin 1024) (err : Bool) (s : Machine.State) : Kept [.act] s (execDrdDataArrived ctx err s)
    := by
  unfold execDrdDataArrived
  exact .on fun _ => (within_drdArrived ..).mono

theorem kept_wkeep (ctx : Fin 1024) (s : Machine.State) : Kept [.regs, .hostMem, .ports, .tel, .host, .flow, .gang, .act] s
    (execWkeep ctx s) := by
  unfold execWkeep
  exact .on fun _ => (within_wkeep ..).mono

theorem kept_dwr (ctx : Fin 1024) (s : Machine.State) : Kept [.regs, .hostMem, .sfl, .ports, .tel, .host, .flow, .gang, .act]
    s (execDwr ctx s) := by
  unfold execDwr
  exact .on fun _ => (within_dwrUnit ..).mono

theorem kept_cadd (ctx : Fin 1024) (s : Machine.State) : Kept [.regs, .hostMem, .ports, .tel, .host, .flow, .gang, .act] s
    (execCadd ctx s) := by
  unfold execCadd
  exact .on fun _ => (within_cadd ..).mono

theorem kept_hash (ctx : Fin 1024) (s : Machine.State) : Kept [.regs, .hostMem, .ports, .tel, .host, .flow, .gang, .act] s
    (execHash ctx s) := by
  unfold execHash
  exact .on fun _ => (within_kHash ..).mono

theorem kept_canon (ctx : Fin 1024) (s : Machine.State) : Kept [.regs, .hostMem, .ports, .tel, .host, .flow, .gang, .act] s
    (execCanon ctx s) := by
  unfold execCanon
  exact .on fun _ => (within_kCanon ..).mono

theorem kept_crcs (ctx : Fin 1024) (s : Machine.State) : Kept [.regs, .hostMem, .ports, .tel, .host, .flow, .gang, .act] s
    (execCrcs ctx s) := by
  unfold execCrcs
  exact .on fun _ => (within_kCrcs ..).mono

theorem kept_kcmp (ctx : Fin 1024) (s : Machine.State) : Kept [.regs, .hostMem, .ports, .tel, .host, .flow, .gang, .act] s
    (execKcmp ctx s) := by
  unfold execKcmp
  exact .on fun _ => (within_kCmp ..).mono

theorem kept_poolp (ctx : Fin 1024) (s : Machine.State) : Kept [.regs, .hostMem, .ports, .tel, .host, .flow, .gang, .act] s
    (execPoolp ctx s) := by
  unfold execPoolp
  exact .on fun _ => (within_kPoolp ..).mono

theorem kept_poola (ctx : Fin 1024) (s : Machine.State) : Kept [.regs, .hostMem, .ports, .tel, .host, .flow, .gang, .act] s
    (execPoola ctx s) := by
  unfold execPoola
  exact .on fun _ => (within_kPoola ..).mono

theorem kept_nats (ctx : Fin 1024) (s : Machine.State) : Kept [.regs, .hostMem, .ports, .tel, .host, .flow, .gang, .act] s
    (execNats ctx s) := by
  unfold execNats
  exact .on fun _ => (within_kNats ..).mono

theorem kept_natx (ctx : Fin 1024) (s : Machine.State) : Kept [.regs, .hostMem, .ports, .tel, .host, .flow, .gang, .act] s
    (execNatx ctx s) := by
  unfold execNatx
  exact .on fun _ => (within_kNatx ..).mono

theorem kept_kbld (ctx : Fin 1024) (s : Machine.State) : Kept [.regs, .hostMem, .ports, .tel, .host, .flow, .gang, .act] s
    (execKbld ctx s) := by
  unfold execKbld
  exact .on fun _ => (within_kBld ..).mono

theorem kept_tplr (ctx : Fin 1024) (s : Machine.State) : Kept [.regs, .hostMem, .ports, .tel, .host, .flow, .gang, .act] s
    (execTplr ctx s) := by
  unfold execTplr
  exact .on fun _ => (within_kTplr ..).mono

theorem kept_init (ctx : Fin 1024) (s : Machine.State) : Kept [.regs, .hostMem, .ports, .tel, .host, .flow, .gang, .act] s
    (execInit ctx s) := by
  unfold execInit
  exact .on fun _ => (within_crcInit ..).mono

theorem kept_feed (ctx : Fin 1024) (s : Machine.State) : Kept [.regs, .hostMem, .ports, .tel, .host, .flow, .gang, .act] s
    (execFeed ctx s) := by
  unfold execFeed
  exact .on fun _ => (within_crcFeed ..).mono

theorem kept_out (ctx : Fin 1024) (s : Machine.State) : Kept [.regs, .hostMem, .ports, .tel, .host, .flow, .gang, .act] s
    (execOut ctx s) := by
  unfold execOut
  exact .on fun _ => (within_crcOut ..).mono

theorem kept_pktOut (ctx : Fin 1024) (s : Machine.State) : Kept
    [.regs, .hostMem, .sfl, .ports, .tel, .host, .flow, .gang, .act] s (execPktOut ctx s) := by
  unfold execPktOut
  exact .on fun _ => (within_emitUnit ..).mono

theorem kept_pktIn (ctx : Fin 1024) (s : Machine.State) : Kept
    [.regs, .hostMem, .sfl, .ports, .tel, .host, .flow, .gang, .act] s (execPktIn ctx s) := by
  unfold execPktIn
  exact .on fun _ => (within_emitUnit ..).mono

theorem kept_item (ctx : Fin 1024) (s : Machine.State) : Kept [.regs, .hostMem, .sfl, .ports, .tel, .host, .flow, .gang, .act]
    s (execItem ctx s) := by
  unfold execItem
  exact .on fun _ => (within_emitUnit ..).mono

theorem kept_host (ctx : Fin 1024) (s : Machine.State) : Kept [.regs, .hostMem, .sfl, .ports, .tel, .host, .flow, .gang, .act]
    s (execHost ctx s) := by
  unfold execHost
  exact .on fun _ => (within_emitUnit ..).mono

theorem kept_timFt (ctx : Fin 1024) (s : Machine.State) : Kept [.regs, .hostMem, .ports, .tel, .host, .flow, .gang, .act] s
    (execTimFt ctx s) := by
  unfold execTimFt
  exact .on fun _ => (within_timSample ..).mono

theorem kept_timDt (ctx : Fin 1024) (s : Machine.State) : Kept [.regs, .hostMem, .ports, .tel, .host, .flow, .gang, .act] s
    (execTimDt ctx s) := by
  unfold execTimDt
  exact .on fun _ => (within_timSample ..).mono

theorem kept_timDtw (ctx : Fin 1024) (s : Machine.State) : Kept [.regs, .hostMem, .ports, .tel, .host, .flow, .gang, .act] s
    (execTimDtw ctx s) := by
  unfold execTimDtw
  exact .on fun _ => (within_timSample ..).mono

theorem kept_timAfter (ctx : Fin 1024) (s : Machine.State) : Kept [.regs, .hostMem, .ports, .tel, .host, .flow, .gang, .act] s
    (execTimAfter ctx s) := by
  unfold execTimAfter
  exact .on fun _ => (within_timAfter ..).mono

theorem kept_seq (ctx : Fin 1024) (ecc : Fin 4) (s : Machine.State) : Kept
    [.regs, .dram, .hostMem, .freeCtr, .sfl, .ports, .pkts, .pattern, .tm, .tel, .host, .flow, .gang, .act, .wds] s
      (execSeq ctx ecc s) := by
  unfold execSeq
  exact .on fun _ => (within_sequence ..).mono.andThen (within_flush ..)

theorem kept_br (ctx : Fin 1024) (ecc : Fin 4) (s : Machine.State) : Kept
    [.regs, .dram, .hostMem, .freeCtr, .sfl, .ports, .pkts, .pattern, .tm, .tel, .host, .flow, .gang, .act, .wds] s
      (execBr ctx ecc s) := by
  unfold execBr
  exact .on fun _ => (within_sequence ..).mono.andThen (within_flush ..)

theorem kept_call (ctx : Fin 1024) (ecc : Fin 4) (s : Machine.State) : Kept
    [.regs, .dram, .hostMem, .freeCtr, .sfl, .ports, .pkts, .pattern, .tm, .tel, .host, .flow, .gang, .act, .wds] s
      (execCall ctx ecc s) := by
  unfold execCall
  exact .on fun _ => (within_sequence ..).mono.andThen (within_flush ..)

theorem kept_ret (ctx : Fin 1024) (ecc : Fin 4) (s : Machine.State) : Kept
    [.regs, .dram, .hostMem, .freeCtr, .sfl, .ports, .pkts, .pattern, .tm, .tel, .host, .flow, .gang, .act, .wds] s
      (execRet ctx ecc s) := by
  unfold execRet
  exact .on fun _ => (within_sequence ..).mono.andThen (within_flush ..)

theorem kept_loop (ctx : Fin 1024) (ecc : Fin 4) (s : Machine.State) : Kept
    [.regs, .dram, .hostMem, .freeCtr, .sfl, .ports, .pkts, .pattern, .tm, .tel, .host, .flow, .gang, .act, .wds] s
      (execLoop ctx ecc s) := by
  unfold execLoop
  exact .on fun _ => (within_sequence ..).mono.andThen (within_flush ..)

theorem kept_commit (ctx : Fin 1024) (ecc : Fin 4) (s : Machine.State) : Kept
    [.regs, .dram, .hostMem, .freeCtr, .sfl, .ports, .pkts, .pattern, .tm, .tel, .host, .flow, .gang, .act, .wds] s
      (execCommit ctx ecc s) := by
  unfold execCommit
  exact .on fun _ => (within_sequence ..).mono.andThen (within_flush ..)

theorem kept_abort (ctx : Fin 1024) (ecc : Fin 4) (s : Machine.State) : Kept
    [.regs, .dram, .hostMem, .freeCtr, .sfl, .ports, .pkts, .pattern, .tm, .tel, .host, .flow, .gang, .act, .wds] s
      (execAbort ctx ecc s) := by
  unfold execAbort
  exact .on fun _ => (within_sequence ..).mono.andThen (within_flush ..)

theorem kept_prepAnswer (ctx : Fin 1024) (s : Machine.State) : Kept
    [.regs, .dram, .hostMem, .sfl, .ports, .pkts, .pattern, .tm, .tel, .host, .flow, .gang, .act, .wds] s
      (execPrepAnswer ctx s) := by
  unfold execPrepAnswer
  exact .on fun _ => (within_prepAnswer ..).mono.andThen (within_flush ..)

theorem kept_commitPoint (s : Machine.State) : Kept [.regs, .dram, .hostMem, .sfl, .ports, .pkts, .pattern, .tm, .tel, .host,
    .flow, .gang, .act, .wds] s (execCommitPoint s) := by
  unfold execCommitPoint
  exact .on fun _ => (within_commitPoint ..).mono.andThen (within_flush ..)

theorem kept_routineWallTimeout (ctx : Fin 1024) (s : Machine.State) : Kept
    [.regs, .dram, .hostMem, .sfl, .ports, .pkts, .pattern, .tm, .tel, .host, .flow, .gang, .act, .wds] s
      (execRoutineWallTimeout ctx s) := by
  unfold execRoutineWallTimeout
  exact .on fun _ => (within_wallTimeout ..).mono.andThen (within_flush ..)

theorem kept_kill (ctx : Fin 1024) (s : Machine.State) : Kept
    [.regs, .dram, .hostMem, .sfl, .ports, .pkts, .pattern, .tm, .tel, .host, .flow, .gang, .act, .wds] s (execKill ctx s) := by
  unfold execKill
  exact .on fun _ => (within_killCtx ..).mono.andThen (within_flush ..)

theorem kept_killAll (cluster : Fin 16) (s : Machine.State) : Kept
    [.regs, .dram, .hostMem, .sfl, .ports, .pkts, .pattern, .tm, .tel, .host, .flow, .gang, .act, .wds] s
      (execKillAll cluster s) := by
  unfold execKillAll
  exact .on fun _ => (within_killAll ..).mono.andThen (within_flush ..)

theorem kept_hold (cluster : Fin 16) (b : Bool) (s : Machine.State) : Kept [.regs, .hostMem, .host] s (execHold cluster b s)
    := by
  unfold execHold
  exact .on fun _ => (within_setHold ..).mono

theorem kept_itemBind (cluster : Fin 16) (s : Machine.State) : Kept [.regs, .hostMem, .tel, .host, .act, .wds] s
    (execItemBind cluster s) := by
  unfold execItemBind
  exact .on fun _ => (within_itemBind ..).mono

theorem kept_routineEnd (ctx : Fin 1024) (s : Machine.State) : Kept
    [.regs, .dram, .hostMem, .power, .mgt, .sfl, .ports, .pkts, .pattern, .tm, .tel, .host, .flow, .gang, .act, .wds] s
      (execRoutineEnd ctx s) := by
  unfold execRoutineEnd
  exact .on fun _ => (within_routineEnd ..).mono.andThen (within_flush ..)

theorem kept_freezeWindow (s : Machine.State) : Kept [.sfl] s (execFreezeWindow s) := by
  unfold execFreezeWindow
  exact .on fun _ => (within_freezeWindow ..).mono

theorem kept_dispatchTimerFire (timer : Fin 64) (s : Machine.State) : Kept [.regs, .hostMem, .tel, .host, .wds] s
    (execDispatchTimerFire timer s) := by
  unfold execDispatchTimerFire
  exact .on fun _ => (within_timerFire ..).mono

theorem kept_hpostGo (cls : Fin 64) (hash : Bool) (s : Machine.State) : Kept [.regs, .hostMem, .tel, .host, .wds] s
    (execHpostGo cls hash s) := by
  unfold execHpostGo
  exact .on fun _ => (within_hpost ..).mono

theorem kept_clusterWake (cls : Fin 64) (s : Machine.State) : Kept [.regs, .hostMem, .host, .wds] s (execClusterWake cls s) :=
    by
  unfold execClusterWake
  exact .on fun _ => (within_clusterWake ..).mono

theorem kept_clusterAwake (cluster : Fin 16) (s : Machine.State) : Kept [.regs, .tel, .wds] s (execClusterAwake cluster s) := by
  unfold execClusterAwake
  exact .on fun _ => (within_clusterAwake ..).mono

theorem kept_clusterGate (cluster : Fin 16) (s : Machine.State) : Kept [.regs, .hostMem, .tel, .host, .wds] s
    (execClusterGate cluster s) := by
  unfold execClusterGate
  exact .on fun _ => (within_clusterGate ..).mono

theorem kept_setupItemOffer (eng : Fin 128) (s : Machine.State) : Kept [.regs, .hostMem, .tel, .host, .flow, .wds] s
    (execSetupItemOffer eng s) := by
  unfold execSetupItemOffer
  exact .on fun _ => (within_setupOffer ..).mono

theorem kept_sweepTick (s : Machine.State) : Kept [.regs, .hostMem, .tel, .host, .wds] s (execSweepTick s) := by
  unfold execSweepTick
  exact .on fun _ => (within_sweepTick ..).mono

theorem kept_classifyPass (pid : Nat) (ecc : Fin 3) (s : Machine.State) : Kept
    [.regs, .hostMem, .time, .sfl, .pkts, .rules, .pattern, .tm, .sched, .tel, .host] s (execClassifyPass pid ecc s) := by
  unfold execClassifyPass
  exact .on fun _ => (within_classify ..).mono

theorem kept_patternScanStart (pid : Nat) (s : Machine.State) : Kept
    [.regs, .hostMem, .sfl, .pkts, .pattern, .tm, .tel, .host] s (execPatternScanStart pid s) := by
  unfold execPatternScanStart
  exact .on fun _ => (within_scanStart ..).mono

theorem kept_patternReport (eng : Fin 32) (found : List (Nat × Nat)) (err : Bool) (line : Nat) (s : Machine.State) : Kept
    [.regs, .hostMem, .sfl, .pkts, .pattern, .tm, .tel, .host] s (execPatternReport eng found err line s) := by
  unfold execPatternReport
  exact .on fun _ => (within_scanReport ..).mono

theorem kept_patternWaitTimeout (pid : Nat) (s : Machine.State) : Kept
    [.regs, .hostMem, .sfl, .pkts, .pattern, .tm, .tel, .host] s (execPatternWaitTimeout pid s) := by
  unfold execPatternWaitTimeout
  exact .on fun _ => (within_scanTimeout ..).mono

theorem kept_patternLineReloaded (line : Nat) (s : Machine.State) : Kept [.pattern] s (execPatternLineReloaded line s) := by
  unfold execPatternLineReloaded
  exact .on fun _ => (Within.refl _ _).pattern _

theorem kept_patternEngineGate (eng : Fin 32) (s : Machine.State) : Kept [.pattern] s (execPatternEngineGate eng s) := by
  unfold execPatternEngineGate
  exact .on fun _ => .ite (.refl _ _) ((Within.refl _ _).pattern _)

theorem kept_flowOpRelease (pid : Nat) (s : Machine.State) : Kept
    [.regs, .dram, .hostMem, .mgt, .sfl, .ports, .pkts, .pattern, .tm, .tel, .host, .flow, .gang, .act, .wds] s
      (execFlowOpRelease pid s) := by
  unfold execFlowOpRelease
  exact .on fun _ => (within_opRelease ..).mono.andThen (within_flush ..)

theorem kept_pktOp (eng : Fin 128) (ecc : Fin 3) (s : Machine.State) : Kept
    [.regs, .dram, .hostMem, .sfl, .ports, .pkts, .pattern, .tm, .tel, .host, .flow, .gang, .act, .wds] s
      (execPktOp eng ecc s) := by
  unfold execPktOp
  exact .on fun _ => (within_serveInput ..).mono.andThen (within_flush ..)

theorem kept_rmtOp (port : Fin 512) (fr : Bytes) (ecc : Fin 3) (s : Machine.State) : Kept
    [.regs, .dram, .hostMem, .mgt, .sfl, .ports, .pkts, .pattern, .tm, .tel, .host, .flow, .gang, .act, .wds] s
      (execRmtOp port fr ecc s) := by
  unfold execRmtOp
  exact .on fun _ => (within_rmtOp ..).mono.andThen (within_flush ..)

theorem kept_rdOp (eng : Fin 128) (ecc : Fin 3) (s : Machine.State) : Kept
    [.regs, .dram, .hostMem, .mgt, .sfl, .ports, .pkts, .pattern, .tm, .tel, .host, .flow, .gang, .act, .wds] s
      (execRdOp eng ecc s) := by
  unfold execRdOp
  exact .on fun _ => (within_serveReq ..).mono.andThen (within_flush ..)

theorem kept_prep (eng : Fin 128) (ecc : Fin 3) (s : Machine.State) : Kept
    [.regs, .dram, .hostMem, .mgt, .sfl, .ports, .pkts, .pattern, .tm, .tel, .host, .flow, .gang, .act, .wds] s
      (execPrep eng ecc s) := by
  unfold execPrep
  exact .on fun _ => (within_serveReq ..).mono.andThen (within_flush ..)

theorem kept_apply (eng : Fin 128) (s : Machine.State) : Kept
    [.regs, .dram, .hostMem, .sfl, .ports, .pkts, .pattern, .tm, .tel, .host, .flow, .gang, .act, .wds] s (execApply eng s) :=
      by
  unfold execApply
  exact .on fun _ => (within_serveMsg ..).mono.andThen (within_flush ..)

theorem kept_drop (eng : Fin 128) (s : Machine.State) : Kept [.regs, .dram, .hostMem, .sfl, .ports, .pkts, .pattern, .tm,
    .tel, .host, .flow, .gang, .act, .wds] s (execDrop eng s) := by
  unfold execDrop
  exact .on fun _ => (within_serveMsg ..).mono.andThen (within_flush ..)

theorem kept_sweepOp (eng : Fin 128) (bucket : Nat) (ecc : Fin 3) (s : Machine.State) : Kept
    [.regs, .dram, .hostMem, .mgt, .sfl, .ports, .pkts, .pattern, .tm, .tel, .host, .flow, .gang, .act, .wds] s
      (execSweepOp eng bucket ecc s) := by
  unfold execSweepOp
  exact .on fun _ => .ite (within_wakeBank ..).mono ((within_sweepOp ..).mono.andThen (within_flush ..))

theorem kept_hrd (eng : Fin 128) (ecc : Fin 3) (s : Machine.State) : Kept
    [.regs, .dram, .hostMem, .mgt, .sfl, .ports, .pkts, .pattern, .tm, .tel, .host, .flow, .gang, .act, .wds] s
      (execHrd eng ecc s) := by
  unfold execHrd
  exact .on fun _ => (within_serveReq ..).mono.andThen (within_flush ..)

theorem kept_hdel (eng : Fin 128) (ecc : Fin 3) (s : Machine.State) : Kept
    [.regs, .dram, .hostMem, .mgt, .sfl, .ports, .pkts, .pattern, .tm, .tel, .host, .flow, .gang, .act, .wds] s
      (execHdel eng ecc s) := by
  unfold execHdel
  exact .on fun _ => (within_serveReq ..).mono.andThen (within_flush ..)

theorem kept_hins (eng : Fin 128) (ecc : Fin 3) (s : Machine.State) : Kept
    [.regs, .dram, .hostMem, .mgt, .sfl, .ports, .pkts, .pattern, .tm, .tel, .host, .flow, .gang, .act, .wds] s
      (execHins eng ecc s) := by
  unfold execHins
  exact .on fun _ => (within_serveReq ..).mono.andThen (within_flush ..)

theorem kept_replOp (port : Fin 512) (fr : Bytes) (s : Machine.State) : Kept
    [.regs, .dram, .hostMem, .sfl, .ports, .pkts, .pattern, .tm, .tel, .host, .flow, .gang, .act, .wds] s
      (execReplOp port fr s) := by
  unfold execReplOp
  exact .on fun _ => (within_replRx ..).mono.andThen (within_flush ..)

theorem kept_tailStatusReport (pid : Nat) (good : Bool) (s : Machine.State) : Kept
    [.regs, .dram, .hostMem, .sfl, .ports, .pkts, .pattern, .tm, .tel, .host, .flow, .gang, .act, .wds] s
      (execTailStatusReport pid good s) := by
  unfold execTailStatusReport
  exact .on fun _ => (within_tailReport ..).mono.andThen (within_flush ..)

theorem kept_missQueueGrant (eng : Fin 128) (s : Machine.State) : Kept [.regs, .flow] s (execMissQueueGrant eng s) := by
  unfold execMissQueueGrant
  exact .on fun _ => (within_missGrant ..).mono

theorem kept_tagLinesArrived (eng : Fin 128) (n : Nat) (err : Bool) (s : Machine.State) : Kept
    [.regs, .dram, .hostMem, .sfl, .ports, .pkts, .pattern, .tm, .tel, .host, .flow, .gang, .act, .wds] s
      (execTagLinesArrived eng n err s) := by
  unfold execTagLinesArrived
  exact .on fun _ => (within_tagsArrived ..).mono.andThen (within_flush ..)

theorem kept_recordFill (eng : Fin 128) (n : Nat) (err : Bool) (ecc : Fin 3) (s : Machine.State) : Kept
    [.regs, .dram, .hostMem, .sfl, .ports, .pkts, .pattern, .tm, .tel, .host, .flow, .gang, .act, .wds] s
      (execRecordFill eng n err ecc s) := by
  unfold execRecordFill
  exact .on fun _ => (within_recordFill ..).mono.andThen (within_flush ..)

theorem kept_wayAvailable (eng : Fin 128) (s : Machine.State) : Kept
    [.regs, .dram, .hostMem, .sfl, .ports, .pkts, .pattern, .tm, .tel, .host, .flow, .gang, .act, .wds] s
      (execWayAvailable eng s) := by
  unfold execWayAvailable
  exact .on fun _ => (within_wayAvailable ..).mono.andThen (within_flush ..)

theorem kept_opReplay (eng : Fin 128) (ecc : Fin 3) (s : Machine.State) : Kept
    [.regs, .dram, .hostMem, .sfl, .ports, .pkts, .pattern, .tm, .tel, .host, .flow, .gang, .act, .wds] s
      (execOpReplay eng ecc s) := by
  unfold execOpReplay
  exact .on fun _ => (within_replay ..).mono.andThen (within_flush ..)

theorem kept_opDeadline (eng : Fin 128) (n : Nat) (s : Machine.State) : Kept
    [.regs, .dram, .hostMem, .sfl, .ports, .pkts, .pattern, .tm, .tel, .host, .flow, .gang, .act, .wds] s
      (execOpDeadline eng n s) := by
  unfold execOpDeadline
  exact .on fun _ => (within_opDeadline ..).mono.andThen (within_flush ..)

theorem kept_hcGo (eng : Fin 128) (s : Machine.State) : Kept [.regs] s (execHcGo eng s) := by
  unfold execHcGo
  exact .on fun _ => (within_hcGo ..).mono

theorem kept_meterRefresh (eng : Fin 128) (s : Machine.State) : Kept [.flow] s (execMeterRefresh eng s) := by
  unfold execMeterRefresh
  exact .on fun _ => (within_meterRefresh ..).mono

theorem kept_setupEndReport (s : Machine.State) : Kept [.regs, .dram, .hostMem, .sfl, .ports, .pkts, .pattern, .tm, .tel,
    .host, .flow, .gang, .act, .wds] s (execSetupEndReport s) := by
  unfold execSetupEndReport
  refine .on fun c => ?_
  split
  · exact .refl _ _
  · exact ((within_onWds ..).mono.andThen (within_setupEnd ..)).andThen (within_flush ..)

theorem kept_helloTimer (port : Fin 512) (s : Machine.State) : Kept [.regs, .ports, .gang] s (execHelloTimer port s) := by
  unfold execHelloTimer
  exact .on fun _ => .ite (within_helloOut ..).mono (.refl _ _)

theorem kept_hello (port : Fin 512) (fr : Bytes) (s : Machine.State) : Kept
    [.regs, .dram, .hostMem, .sfl, .ports, .pkts, .pattern, .tm, .tel, .host, .flow, .gang, .act, .wds] s
      (execHello port fr s) := by
  unfold execHello
  exact .on fun _ => (within_helloRx ..).mono.andThen (within_flush ..)

theorem kept_helloTimeout (port : Fin 512) (s : Machine.State) : Kept
    [.regs, .dram, .hostMem, .sfl, .ports, .pkts, .pattern, .tm, .tel, .host, .flow, .gang, .act, .wds] s
      (execHelloTimeout port s) := by
  unfold execHelloTimeout
  exact .on fun _ => (within_leaveService ..).mono.andThen (within_flush ..)

theorem kept_linkSetJoin (dev : Fin 4) (s : Machine.State) : Kept [.regs, .gang] s (execLinkSetJoin dev s) := by
  unfold execLinkSetJoin
  exact .on fun _ => (within_linkJoin ..).mono

theorem kept_linkSetDown (port : Fin 512) (s : Machine.State) : Kept
    [.regs, .dram, .hostMem, .sfl, .ports, .pkts, .pattern, .tm, .tel, .host, .flow, .gang, .act, .wds] s
      (execLinkSetDown port s) := by
  unfold execLinkSetDown
  exact .on fun _ => (within_leaveService ..).mono.andThen (within_flush ..)

theorem kept_oldestSend (s : Machine.State) : Kept [.regs, .ports, .gang] s (execOldestSend s) := by
  unfold execOldestSend
  exact .on fun _ => (within_oldestOut ..).mono

theorem kept_ctrlOldest (port : Fin 512) (fr : Bytes) (s : Machine.State) : Kept [.regs, .gang] s (execCtrlOldest port fr s)
    := by
  unfold execCtrlOldest
  exact .on fun _ => (within_oldestRx ..).mono

theorem kept_data (port : Fin 512) (fr : Bytes) (s : Machine.State) : Kept [.regs, .ports, .pkts, .tm, .gang] s
    (execData port fr s) := by
  unfold execData
  exact .on fun _ => (within_dataRx ..).mono

theorem kept_rres (port : Fin 512) (fr : Bytes) (s : Machine.State) : Kept
    [.regs, .dram, .hostMem, .mgt, .sfl, .ports, .pkts, .pattern, .tm, .tel, .host, .flow, .gang, .act, .wds] s
      (execRres port fr s) := by
  unfold execRres
  exact .on fun _ => (within_rresRx ..).mono.andThen (within_flush ..)

theorem kept_tail (port : Fin 512) (fr : Bytes) (s : Machine.State) : Kept
    [.regs, .dram, .hostMem, .sfl, .ports, .pkts, .pattern, .tm, .tel, .host, .flow, .gang, .act, .wds] s (execTail port fr s)
      := by
  unfold execTail
  exact .on fun _ => (within_tailRx ..).mono.andThen (within_flush ..)

theorem kept_rrec (port : Fin 512) (fr : Bytes) (ecc : Fin 3) (s : Machine.State) : Kept
    [.regs, .dram, .hostMem, .mgt, .sfl, .ports, .pkts, .pattern, .tm, .tel, .host, .flow, .gang, .act, .wds] s
      (execRrec port fr ecc s) := by
  unfold execRrec
  exact .on fun _ => (within_rrecRx ..).mono.andThen (within_flush ..)

theorem kept_ropTimeout (pid : Nat) (s : Machine.State) : Kept
    [.regs, .dram, .hostMem, .sfl, .ports, .pkts, .pattern, .tm, .tel, .host, .flow, .gang, .act, .wds] s
      (execRopTimeout pid s) := by
  unfold execRopTimeout
  exact .on fun _ => (within_ropTimeout ..).mono.andThen (within_flush ..)

theorem kept_rrecPrepExpiry (eng : Fin 128) (dev : Fin 4) (tag : Nat) (s : Machine.State) : Kept
    [.regs, .dram, .hostMem, .sfl, .ports, .pkts, .pattern, .tm, .tel, .host, .flow, .gang, .act, .wds] s
      (execRrecPrepExpiry eng dev tag s) := by
  unfold execRrecPrepExpiry
  exact .on fun _ => (within_prepExpiry ..).mono.andThen (within_flush ..)

theorem kept_rrecAnswerTimeout (ctx : Fin 1024) (s : Machine.State) : Kept
    [.regs, .dram, .hostMem, .sfl, .ports, .pkts, .pattern, .tm, .tel, .host, .flow, .gang, .act, .wds] s
      (execRrecAnswerTimeout ctx s) := by
  unfold execRrecAnswerTimeout
  exact .on fun _ => (within_answerTimeout ..).mono.andThen (within_flush ..)

theorem kept_ctrlUnbind (port : Fin 512) (fr : Bytes) (s : Machine.State) : Kept [.regs, .tm, .gang] s
    (execCtrlUnbind port fr s) := by
  unfold execCtrlUnbind
  exact .on fun _ => (within_unbindRxOne ..).mono

theorem kept_replRefreshScan (s : Machine.State) : Kept [.regs, .ports, .gang] s (execReplRefreshScan s) := by
  unfold execReplRefreshScan
  exact .on fun _ => (within_replScan ..).mono

theorem kept_form (s : Machine.State) : Kept [.regs, .dram, .hostMem, .sfl, .ports, .pkts, .pattern, .tm, .tel, .host, .flow,
    .gang, .act, .wds] s (execForm s) := by
  unfold execForm
  exact .on fun _ => (within_form ..).mono.andThen (within_flush ..)

theorem kept_join (s : Machine.State) : Kept [.regs, .hostMem, .ports, .host, .gang] s (execJoin s) := by
  unfold execJoin
  exact .on fun _ => (within_join ..).mono

theorem kept_joinTimeout (s : Machine.State) : Kept [.regs, .hostMem, .host, .gang] s (execJoinTimeout s) := by
  unfold execJoinTimeout
  exact .on fun _ => (within_joinTimeout ..).mono

theorem kept_joinReq (port : Fin 512) (fr : Bytes) (linked : Bool) (s : Machine.State) : Kept
    [.regs, .dram, .hostMem, .sfl, .ports, .pkts, .pattern, .tm, .tel, .host, .flow, .gang, .act, .wds] s
      (execJoinReq port fr linked s) := by
  unfold execJoinReq
  exact .on fun _ => (within_joinReq ..).mono.andThen (within_flush ..)

theorem kept_leave (s : Machine.State) : Kept [.regs, .dram, .hostMem, .sfl, .ports, .pkts, .pattern, .tm, .tel, .host, .flow,
    .gang, .act, .wds] s (execLeave s) := by
  unfold execLeave
  exact .on fun _ => (within_leaveGang ..).mono.andThen (within_flush ..)

theorem kept_ctrlLeave (port : Fin 512) (fr : Bytes) (s : Machine.State) : Kept
    [.regs, .dram, .hostMem, .sfl, .ports, .pkts, .pattern, .tm, .tel, .host, .flow, .gang, .act, .wds] s
      (execCtrlLeave port fr s) := by
  unfold execCtrlLeave
  exact .on fun _ => (Within.ctrlTake (.refl _ _) fun _ _ _ => (within_leaveRx ..).mono).andThen (within_flush ..)

theorem kept_peerLoss (a b : Fin 4) (s : Machine.State) : Kept
    [.regs, .dram, .hostMem, .sfl, .ports, .pkts, .pattern, .tm, .tel, .host, .flow, .gang, .act, .wds] s (execPeerLoss a b s)
      := by
  unfold execPeerLoss
  exact .on fun _ => (within_peerLoss ..).mono.andThen (within_flush ..)

theorem kept_ctrlPrep (port : Fin 512) (fr : Bytes) (s : Machine.State) : Kept
    [.regs, .dram, .hostMem, .sfl, .ports, .pkts, .pattern, .tm, .tel, .host, .flow, .gang, .act, .wds] s
      (execCtrlPrep port fr s) := by
  unfold execCtrlPrep
  exact .on fun _ => (within_prepRx ..).mono.andThen (within_flush ..)

theorem kept_ready (port : Fin 512) (fr : Bytes) (s : Machine.State) : Kept
    [.regs, .dram, .hostMem, .sfl, .ports, .pkts, .pattern, .tm, .tel, .host, .flow, .gang, .act, .wds] s
      (execReady port fr s) := by
  unfold execReady
  exact .on fun _ => (Within.ctrlTake (.refl _ _) fun _ _ _ => (within_readyFrom ..).mono).andThen (within_flush ..)

theorem kept_ctrlCommit (port : Fin 512) (fr : Bytes) (s : Machine.State) : Kept [.regs, .gang] s (execCtrlCommit port fr s)
    := by
  unfold execCtrlCommit
  exact .on fun _ => (within_commitRx ..).mono

theorem kept_mapCommit (s : Machine.State) : Kept [.regs, .dram, .hostMem, .sfl, .ports, .pkts, .pattern, .tm, .tel, .host,
    .flow, .gang, .act, .wds] s (execMapCommit s) := by
  unfold execMapCommit
  exact .on fun _ => (within_mapCommit ..).mono.andThen (within_flush ..)

theorem kept_slotFinal (port : Fin 512) (fr : Bytes) (s : Machine.State) : Kept
    [.regs, .dram, .hostMem, .sfl, .ports, .pkts, .pattern, .tm, .tel, .host, .flow, .gang, .act, .wds] s
      (execSlotFinal port fr s) := by
  unfold execSlotFinal
  exact .on fun _ => (within_finalRx ..).mono.andThen (within_flush ..)

theorem kept_clean (port : Fin 512) (fr : Bytes) (s : Machine.State) : Kept
    [.regs, .dram, .hostMem, .sfl, .ports, .pkts, .pattern, .tm, .tel, .host, .flow, .gang, .act, .wds] s
      (execClean port fr s) := by
  unfold execClean
  exact .on fun _ => (Within.ctrlTake (.refl _ _) fun _ _ _ => (within_cleanFrom ..).mono).andThen (within_flush ..)

theorem kept_gangItemOffer (s : Machine.State) : Kept [.regs, .hostMem, .tel, .host, .gang, .wds] s (execGangItemOffer s) := by
  unfold execGangItemOffer
  exact .on fun _ => (within_gangItemOffer ..).mono

theorem kept_tsyncTimer (s : Machine.State) : Kept [.regs, .ports, .gang] s (execTsyncTimer s) := by
  unfold execTsyncTimer
  exact .on fun _ => (within_tsyncTimer ..).mono

theorem kept_tsyncReq (port : Fin 512) (fr : Bytes) (s : Machine.State) : Kept [.regs, .ports, .gang] s
    (execTsyncReq port fr s) := by
  unfold execTsyncReq
  exact .on fun _ => (within_tsyncReq ..).mono

theorem kept_tsyncResp (port : Fin 512) (fr : Bytes) (s : Machine.State) : Kept [.regs, .time, .gang] s
    (execTsyncResp port fr s) := by
  unfold execTsyncResp
  exact .on fun _ => (within_tsyncResp ..).mono

theorem kept_resetAll (s : Machine.State) : Kept [.regs, .hostMem, .ports, .host, .gang] s (execResetAll s) := by
  unfold execResetAll
  exact .on fun _ => (within_resetAll ..).mono

theorem kept_resetAt (port : Fin 512) (fr : Bytes) (s : Machine.State) : Kept [.regs, .hostMem, .sfl, .host, .gang] s
    (execResetAt port fr s) := by
  unfold execResetAt
  exact .on fun _ => (within_resetAtRx ..).mono

theorem kept_dramRequest (req : Fin 8) (port addr len : Nat) (write : Bool) (data : Bytes) (s : Machine.State) : Kept
    [.regs, .hbm] s (execDramRequest req port addr len write data s) := by
  unfold execDramRequest
  exact .on fun _ => (within_dramRequest ..).mono

theorem kept_dramCommandSlot (pc : Fin 192) (s : Machine.State) : Kept [.regs, .hbm] s (execDramCommandSlot pc s) := by
  unfold execDramCommandSlot
  exact .on fun _ => (within_dramSlot ..).mono

theorem kept_dramCompletion (id : Nat) (ecc : Fin 3) (syn : Nat) (s : Machine.State) : Kept
    [.regs, .dram, .hostMem, .hbm, .tel, .host, .act] s (execDramCompletion id ecc syn s) := by
  unfold execDramCompletion
  exact .on fun _ => .watchBad (.refl _ _) fun _ => (within_dramComplete ..).mono

theorem kept_stackParityError (ch : Fin 96) (wr : Bool) (addr syn : Nat) (s : Machine.State) : Kept
    [.regs, .hostMem, .hbm, .tel, .host] s (execStackParityError ch wr addr syn s) := by
  unfold execStackParityError
  exact .on fun _ => (within_parityError ..).mono

theorem kept_refreshDue (pc : Fin 192) (s : Machine.State) : Kept [.regs, .hbm, .tel] s (execRefreshDue pc s) := by
  unfold execRefreshDue
  exact .on fun _ => (within_refreshDue ..).mono

theorem kept_tempReading (stack : Fin 6) (t : BitVec 8) (s : Machine.State) : Kept [.regs, .hostMem, .hbm, .host] s
    (execTempReading stack t s) := by
  unfold execTempReading
  exact .on fun _ => (within_tempReading ..).mono

theorem kept_scrubRead (ecc : Fin 3) (syn : Nat) (s : Machine.State) : Kept [.regs, .hostMem, .hbm, .tel, .host, .act] s
    (execScrubRead ecc syn s) := by
  unfold execScrubRead
  exact .on fun _ => .watchBad (.refl _ _) fun _ => (within_scrubRead ..).mono

theorem kept_train (stack : Fin 6) (s : Machine.State) : Kept [.regs, .tel] s (execTrain stack s) := by
  unfold execTrain
  exact .on fun _ => (within_trainStack ..).mono

theorem kept_trainingDone (ch : Fin 96) (masks : List Nat) (s : Machine.State) : Kept [.regs, .hostMem, .hbm, .tel, .host] s
    (execTrainingDone ch masks s) := by
  unfold execTrainingDone
  exact .on fun _ => (within_trainingDone ..).mono

theorem kept_trackingRun (pc : Fin 192) (masks : List Nat) (s : Machine.State) : Kept [.regs] s (execTrackingRun pc masks s)
    := by
  unfold execTrackingRun
  exact .on fun _ => (within_tracking ..).mono

theorem kept_rateChange (stack : Fin 6) (rate : Fin 4) (s : Machine.State) : Kept [.regs, .hbm] s
    (execRateChange stack rate s) := by
  unfold execRateChange
  exact .on fun _ => (within_rateChange ..).mono

theorem kept_freqDone (stack : Fin 6) (s : Machine.State) : Kept [.regs, .hostMem, .hbm, .tel, .host] s (execFreqDone stack s)
    := by
  unfold execFreqDone
  exact .on fun _ => (within_freqDone ..).mono

theorem kept_powerDownEntry (pc : Fin 192) (s : Machine.State) : Kept [.regs, .tel] s (execPowerDownEntry pc s) := by
  unfold execPowerDownEntry
  exact .on fun _ => (within_pdEnter ..).mono

theorem kept_powerDownExit (pc : Fin 192) (s : Machine.State) : Kept [.regs, .tel] s (execPowerDownExit pc s) := by
  unfold execPowerDownExit
  exact .on fun _ => (within_pdExit ..).mono

theorem kept_selfRefreshEntry (ch : Fin 96) (s : Machine.State) : Kept [.regs, .hbm, .tel] s (execSelfRefreshEntry ch s) := by
  unfold execSelfRefreshEntry
  exact .on fun _ => (within_srEnter ..).mono

theorem kept_selfRefreshExit (ch : Fin 96) (s : Machine.State) : Kept [.regs, .tel] s (execSelfRefreshExit ch s) := by
  unfold execSelfRefreshExit
  exact .on fun _ => (within_srExit ..).mono

theorem kept_release (ch : Fin 96) (ok : Bool) (s : Machine.State) : Kept [.regs, .hbm] s (execRelease ch ok s) := by
  unfold execRelease
  exact .on fun _ => (within_hostRelease ..).mono

theorem kept_fence (mask : Fin 256) (s : Machine.State) : Kept [.regs, .hbm] s (execFence mask s) := by
  unfold execFence
  exact .on fun _ => (within_fence ..).mono

theorem kept_fenceDone (s : Machine.State) : Kept [.regs, .hostMem, .host] s (execFenceDone s) := by
  unfold execFenceDone
  exact .on fun _ => (within_fenceDone ..).mono

theorem kept_bar2Read (offset : Fin 4294967296) (n : Nat) (s : Machine.State) : Kept [.freeCtr, .rdData, .host] s
    (execBar2Read offset n s) := by
  unfold execBar2Read
  exact .on fun _ => (within_bar2Read ..).mono

theorem kept_bar2Write (offset : Fin 4294967296) (data : Bytes) (en : List Bool) (s : Machine.State) : Kept
    [.regs, .dram, .hostMem, .host, .act] s (execBar2Write offset data en s) := by
  unfold execBar2Write
  exact .on fun _ => (within_bar2Write ..).mono

theorem kept_twRead (w : Fin 4) (table : Fin 256) (s : Machine.State) : Kept
    [.regs, .dram, .hostMem, .freeCtr, .sfl, .ports, .pkts, .pattern, .tm, .sched, .tel, .host, .flow, .gang, .act, .wds] s
      (execTwRead w table s) := by
  unfold execTwRead
  exact .on fun _ => (within_twCmd ..).mono.andThen (within_flush ..)

theorem kept_twWrite (w : Fin 4) (table : Fin 256) (s : Machine.State) : Kept
    [.regs, .dram, .hostMem, .freeCtr, .sfl, .ports, .pkts, .pattern, .tm, .sched, .tel, .host, .flow, .gang, .act, .wds] s
      (execTwWrite w table s) := by
  unfold execTwWrite
  exact .on fun _ => (within_twCmd ..).mono.andThen (within_flush ..)

theorem kept_twDelete (w : Fin 4) (table : Fin 256) (s : Machine.State) : Kept
    [.regs, .dram, .hostMem, .freeCtr, .sfl, .ports, .pkts, .pattern, .tm, .sched, .tel, .host, .flow, .gang, .act, .wds] s
      (execTwDelete w table s) := by
  unfold execTwDelete
  exact .on fun _ => (within_twCmd ..).mono.andThen (within_flush ..)

theorem kept_twInsert (w : Fin 4) (table : Fin 256) (s : Machine.State) : Kept
    [.regs, .dram, .hostMem, .freeCtr, .sfl, .ports, .pkts, .pattern, .tm, .sched, .tel, .host, .flow, .gang, .act, .wds] s
      (execTwInsert w table s) := by
  unfold execTwInsert
  exact .on fun _ => (within_twCmd ..).mono.andThen (within_flush ..)

theorem kept_twTimeout (w : Fin 4) (s : Machine.State) : Kept
    [.regs, .dram, .hostMem, .sfl, .ports, .pkts, .pattern, .tm, .tel, .host, .flow, .gang, .act, .wds] s (execTwTimeout w s)
      := by
  unfold execTwTimeout
  exact .on fun _ => (within_twTimeout ..).mono.andThen (within_flush ..)

theorem kept_ringDoorbell (ring : Fin 1024) (tail : Fin 65536) (s : Machine.State) : Kept [.regs, .hostMem, .host] s
    (execRingDoorbell ring tail s) := by
  unfold execRingDoorbell
  exact .on fun _ => (within_doorbell ..).mono

theorem kept_ringEnable (ring : Fin 1024) (b : Bool) (s : Machine.State) : Kept [.regs, .hostMem, .host] s
    (execRingEnable ring b s) := by
  unfold execRingEnable
  exact .on fun _ => (within_ringEnable ..).mono

theorem kept_injectPacket (ring : Fin 512) (s : Machine.State) : Kept [.regs, .hostMem, .sfl, .pkts, .tm, .tel, .host] s
    (execInjectPacket ring s) := by
  unfold execInjectPacket
  exact .on fun _ => (within_inject1 ..).mono

theorem kept_recordBufferTimeout (ring : Fin 512) (s : Machine.State) : Kept [.regs, .hostMem, .host] s
    (execRecordBufferTimeout ring s) := by
  unfold execRecordBufferTimeout
  exact .on fun _ => .ite (within_closeBuf ..).mono (.refl _ _)

theorem kept_ringInterrupt (ring : Fin 1024) (s : Machine.State) : Kept [.regs, .hostMem, .host] s (execRingInterrupt ring s)
    := by
  unfold execRingInterrupt
  exact .on fun _ => .ite (.refl _ _) (within_ringMessage ..).mono

theorem kept_dmaError (ring : Fin 1024) (s : Machine.State) : Kept [.regs, .hostMem, .host] s (execDmaError ring s) := by
  unfold execDmaError
  exact .on fun _ => (within_dmaError ..).mono

theorem kept_msixUnmask (vector : Fin 2048) (s : Machine.State) : Kept [.regs, .hostMem, .host] s (execMsixUnmask vector s) :=
    by
  unfold execMsixUnmask
  exact .on fun _ => (within_unmask ..).mono

theorem kept_fundamentalReset (s : Machine.State) : Kept [.regs, .wideCap, .wideStage, .host, .flow, .act] s
    (execFundamentalReset s) := by
  unfold execFundamentalReset
  exact .onAny fun _ => (within_fundamentalReset ..).mono

theorem kept_perstDeasserted (link : Word) (s : Machine.State) : Kept [.regs, .host] s (execPerstDeasserted link s) := by
  unfold execPerstDeasserted
  exact .onAny fun _ => (within_perstOff ..).mono

theorem kept_hotReset (flr : Bool) (link : Word) (s : Machine.State) : Kept [.regs, .wideCap, .wideStage, .host, .flow, .act]
    s (execHotReset flr link s) := by
  unfold execHotReset
  exact .on fun _ => (within_hotReset ..).mono

theorem kept_busMasterDisable (s : Machine.State) : Kept [.regs, .hostMem, .host] s (execBusMasterDisable s) := by
  unfold execBusMasterDisable
  exact .on fun _ => (within_stopRings ..).mono

theorem kept_laneEnable (lane : Fin 1032) (b : Bool) (s : Machine.State) : Kept
    [.regs, .dram, .hostMem, .sfl, .lanes, .ports, .pkts, .pattern, .tm, .sched, .tel, .host, .flow, .gang, .act] s
      (execLaneEnable lane b s) := by
  unfold execLaneEnable
  exact .on fun _ => (within_lput ..).mono.andThen (within_laneCheck ..)

theorem kept_restart (lane : Fin 1032) (s : Machine.State) : Kept
    [.regs, .dram, .hostMem, .sfl, .lanes, .ports, .pkts, .pattern, .tm, .sched, .tel, .host, .flow, .gang, .act] s
      (execRestart lane s) := by
  unfold execRestart
  exact .on fun _ => (within_laneRestart ..).mono

theorem kept_capClear (lane : Fin 1032) (s : Machine.State) : Kept [.regs] s (execCapClear lane s) := by
  unfold execCapClear
  exact .on fun _ => (within_capClear ..).mono

theorem kept_pinTestDone (lane : Fin 1032) (tx rx : Fin 16) (s : Machine.State) : Kept
    [.regs, .dram, .hostMem, .sfl, .lanes, .ports, .pkts, .pattern, .tm, .sched, .tel, .host, .flow, .gang, .act] s
      (execPinTestDone lane tx rx s) := by
  unfold execPinTestDone
  exact .on fun _ => (within_pinDone ..).mono

theorem kept_pinFault (lane : Fin 1032) (tx rx : Fin 16) (s : Machine.State) : Kept
    [.regs, .dram, .hostMem, .sfl, .lanes, .ports, .pkts, .pattern, .tm, .sched, .tel, .host, .flow, .gang, .act] s
      (execPinFault lane tx rx s) := by
  unfold execPinFault
  exact .on fun _ => (within_pinFault ..).mono

theorem kept_faultRetest (lane : Fin 1032) (s : Machine.State) : Kept
    [.regs, .dram, .hostMem, .sfl, .lanes, .ports, .pkts, .pattern, .tm, .sched, .tel, .host, .flow, .gang, .act] s
      (execFaultRetest lane s) := by
  unfold execFaultRetest
  exact .on fun _ => (within_retest ..).mono

theorem kept_retest (lane : Fin 1032) (s : Machine.State) : Kept
    [.regs, .dram, .hostMem, .sfl, .lanes, .ports, .pkts, .pattern, .tm, .sched, .tel, .host, .flow, .gang, .act] s
      (execRetest lane s) := by
  unfold execRetest
  exact .on fun _ => (within_retest ..).mono

theorem kept_setTx (lane : Fin 1032) (s : Machine.State) : Kept
    [.regs, .dram, .hostMem, .freeCtr, .sfl, .lanes, .ports, .pkts, .pattern, .tm, .sched, .tel, .host, .flow, .gang, .act] s
      (execSetTx lane s) := by
  unfold execSetTx
  exact .on fun _ => (within_setTx ..).mono

theorem kept_capSet (lane : Fin 1032) (g : SetGroups) (s : Machine.State) : Kept
    [.regs, .dram, .hostMem, .sfl, .lanes, .ports, .pkts, .pattern, .tm, .sched, .tel, .host, .flow, .gang, .act] s
      (execCapSet lane g s) := by
  unfold execCapSet
  exact .on fun _ => (within_capSet ..).mono

theorem kept_ackSet (lane : Fin 1032) (g : SetGroups) (s : Machine.State) : Kept
    [.regs, .dram, .hostMem, .sfl, .lanes, .ports, .pkts, .pattern, .tm, .sched, .tel, .host, .flow, .gang, .act] s
      (execAckSet lane g s) := by
  unfold execAckSet
  exact .on fun _ => (within_ackSet ..).mono

theorem kept_stepSet (lane : Fin 1032) (g : SetGroups) (s : Machine.State) : Kept [.lanes] s (execStepSet lane g s) := by
  unfold execStepSet
  exact .on fun _ => (within_stepSet ..).mono

theorem kept_qualSet (lane : Fin 1032) (g : SetGroups) (s : Machine.State) : Kept
    [.regs, .dram, .hostMem, .sfl, .lanes, .ports, .pkts, .pattern, .tm, .sched, .tel, .host, .flow, .gang, .act] s
      (execQualSet lane g s) := by
  unfold execQualSet
  exact .on fun _ => (within_qualSet ..).mono

theorem kept_holdSet (lane : Fin 1032) (g : SetGroups) (s : Machine.State) : Kept [.lanes] s (execHoldSet lane g s) := by
  unfold execHoldSet
  exact .on fun _ => (within_holdSet ..).mono

theorem kept_abortSet (lane : Fin 1032) (g : SetGroups) (s : Machine.State) : Kept
    [.regs, .dram, .hostMem, .sfl, .lanes, .ports, .pkts, .pattern, .tm, .sched, .tel, .host, .flow, .gang, .act] s
      (execAbortSet lane g s) := by
  unfold execAbortSet
  exact .on fun _ => (within_abortSet ..).mono

theorem kept_upSet (lane : Fin 1032) (g : SetGroups) (s : Machine.State) : Kept
    [.regs, .dram, .hostMem, .freeCtr, .sfl, .lanes, .ports, .pkts, .pattern, .tm, .sched, .tel, .host, .flow, .gang, .act] s
      (execUpSet lane g s) := by
  unfold execUpSet
  exact .on fun _ => (within_upSet ..).mono

theorem kept_stepSwitch (lane : Fin 1032) (s : Machine.State) : Kept
    [.regs, .dram, .hostMem, .sfl, .lanes, .ports, .pkts, .pattern, .tm, .sched, .tel, .host, .flow, .gang, .act] s
      (execStepSwitch lane s) := by
  unfold execStepSwitch
  exact .on fun _ => (within_stepSwitch ..).mono

theorem kept_stepAcquired (lane : Fin 1032) (s : Machine.State) : Kept
    [.regs, .dram, .hostMem, .sfl, .ports, .pkts, .pattern, .tm, .sched, .tel, .host, .flow, .gang, .act] s
      (execStepAcquired lane s) := by
  unfold execStepAcquired
  exact .on fun _ => (within_stepAcquired ..).mono

theorem kept_acquisitionTimeout (lane : Fin 1032) (s : Machine.State) : Kept
    [.regs, .dram, .hostMem, .sfl, .lanes, .ports, .pkts, .pattern, .tm, .sched, .tel, .host, .flow, .gang, .act] s
      (execAcquisitionTimeout lane s) := by
  unfold execAcquisitionTimeout
  exact .on fun _ => .ite (within_laneFail ..).mono (.refl _ _)

theorem kept_qualWindowEnd (lane : Fin 1032) (errs : Nat) (aligned : Bool) (s : Machine.State) : Kept
    [.regs, .dram, .hostMem, .sfl, .lanes, .ports, .pkts, .pattern, .tm, .sched, .tel, .host, .flow, .gang, .act] s
      (execQualWindowEnd lane errs aligned s) := by
  unfold execQualWindowEnd
  exact .on fun _ => (within_qualEnd ..).mono

theorem kept_stepTimeout (lane : Fin 1032) (s : Machine.State) : Kept
    [.regs, .dram, .hostMem, .sfl, .lanes, .ports, .pkts, .pattern, .tm, .sched, .tel, .host, .flow, .gang, .act] s
      (execStepTimeout lane s) := by
  unfold execStepTimeout
  exact .on fun _ => (within_stepTimeout ..).mono

theorem kept_backoffEnd (lane : Fin 1032) (s : Machine.State) : Kept
    [.regs, .dram, .hostMem, .sfl, .lanes, .ports, .pkts, .pattern, .tm, .sched, .tel, .host, .flow, .gang, .act] s
      (execBackoffEnd lane s) := by
  unfold execBackoffEnd
  exact .on fun _ => (within_backoffEnd ..).mono

theorem kept_signalRise (lane : Fin 1032) (s : Machine.State) : Kept
    [.regs, .dram, .hostMem, .sfl, .lanes, .ports, .pkts, .pattern, .tm, .sched, .tel, .host, .flow, .gang, .act] s
      (execSignalRise lane s) := by
  unfold execSignalRise
  exact .on fun _ => (within_signalRise ..).mono

theorem kept_linkLost (lane : Fin 1032) (s : Machine.State) : Kept
    [.regs, .dram, .hostMem, .sfl, .lanes, .ports, .pkts, .pattern, .tm, .sched, .tel, .host, .flow, .gang, .act] s
      (execLinkLost lane s) := by
  unfold execLinkLost
  exact .on fun _ => (within_linkLost ..).mono

theorem kept_ieeeTrainingDone (lane : Fin 1032) (ffe : Word) (s : Machine.State) : Kept
    [.regs, .dram, .hostMem, .freeCtr, .sfl, .lanes, .ports, .pkts, .pattern, .tm, .sched, .tel, .host, .flow, .gang, .act] s
      (execIeeeTrainingDone lane ffe s) := by
  unfold execIeeeTrainingDone
  exact .on fun _ => .ite ((within_lput ..).mono.andThen (within_laneIsUp ..)) (.refl _ _)

theorem kept_ieeeTrainingTimeout (lane : Fin 1032) (heard : Bool) (s : Machine.State) : Kept
    [.regs, .dram, .hostMem, .sfl, .lanes, .ports, .pkts, .pattern, .tm, .sched, .tel, .host, .flow, .gang, .act] s
      (execIeeeTrainingTimeout lane heard s) := by
  unfold execIeeeTrainingTimeout
  exact .on fun _ => .ite (within_laneFail ..).mono (.refl _ _)

theorem kept_idleRunFreeze (lane : Fin 1032) (s : Machine.State) : Kept [.regs, .lanes] s (execIdleRunFreeze lane s) := by
  unfold execIdleRunFreeze
  exact .on fun _ => (within_idleFreeze ..).mono

theorem kept_adaptResume (lane : Fin 1032) (s : Machine.State) : Kept [.regs, .lanes] s (execAdaptResume lane s) := by
  unfold execAdaptResume
  exact .on fun _ => (within_idleFreeze ..).mono

theorem kept_resetAdapt (lane : Fin 1032) (s : Machine.State) : Kept [.regs, .freeCtr, .lanes] s (execResetAdapt lane s) := by
  unfold execResetAdapt
  exact .on fun _ => (within_resetAdapt ..).mono

theorem kept_ffeWrite (lane : Fin 1032) (v : Word) (s : Machine.State) : Kept [.regs, .hostMem, .host] s
    (execFfeWrite lane v s) := by
  unfold execFfeWrite
  exact .on fun _ => (within_ffeWrite ..).mono

theorem kept_pgEnable (lane : Fin 1032) (b : Bool) (s : Machine.State) : Kept
    [.regs, .dram, .hostMem, .sfl, .lanes, .ports, .pkts, .pattern, .tm, .sched, .tel, .host, .flow, .gang, .act] s
      (execPgEnable lane b s) := by
  unfold execPgEnable
  exact .on fun _ => (within_pgEnable ..).mono

theorem kept_checkerLock (lane : Fin 1032) (s : Machine.State) : Kept [.regs] s (execCheckerLock lane s) := by
  unfold execCheckerLock
  exact .on fun _ => .ite (within_lput ..).mono (.refl _ _)

theorem kept_checkerLockLost (lane : Fin 1032) (bits errs : Nat) (s : Machine.State) : Kept [.regs, .hostMem, .host] s
    (execCheckerLockLost lane bits errs s) := by
  unfold execCheckerLockLost
  exact .on fun _ => (within_lockLost ..).mono

theorem kept_pcClear (lane : Fin 1032) (s : Machine.State) : Kept [.regs] s (execPcClear lane s) := by
  unfold execPcClear
  exact .on fun _ => (within_pcClear ..).mono

theorem kept_injOne (lane : Fin 1032) (s : Machine.State) : Kept [.regs] s (execInjOne lane s) := by
  unfold execInjOne
  exact .on fun _ => (within_inject ..).mono

theorem kept_periodicInjection (lane : Fin 1032) (s : Machine.State) : Kept [.regs] s (execPeriodicInjection lane s) := by
  unfold execPeriodicInjection
  exact .on fun _ => .ite (.refl _ _) (within_inject ..).mono

theorem kept_alignModeSet (lane : Fin 1032) (b : Bool) (s : Machine.State) : Kept [.regs] s (execAlignModeSet lane b s) := by
  unfold execAlignModeSet
  exact .on fun _ => (within_alignMode ..).mono

theorem kept_bitslip (lane : Fin 1032) (s : Machine.State) : Kept [.regs] s (execBitslip lane s) := by
  unfold execBitslip
  exact .on fun _ => (within_bitslip ..).mono

theorem kept_capture (lane : Fin 1032) (w : BitVec 80) (s : Machine.State) : Kept [.regs] s (execCapture lane w s) := by
  unfold execCapture
  exact .on fun _ => (within_capture ..).mono

theorem kept_polarityInversion (lane : Fin 1032) (s : Machine.State) : Kept [.regs, .hostMem, .host] s
    (execPolarityInversion lane s) := by
  unfold execPolarityInversion
  exact .on fun _ => (within_polarity ..).mono

theorem kept_laneDimEnter (lane : Fin 1032) (tx : Bool) (s : Machine.State) : Kept
    [.regs, .dram, .hostMem, .sfl, .ports, .pkts, .pattern, .tm, .sched, .tel, .host, .flow, .gang, .act] s
      (execLaneDimEnter lane tx s) := by
  unfold execLaneDimEnter
  exact .on fun _ => (within_dimEnter ..).mono

theorem kept_laneWake (lane : Fin 1032) (s : Machine.State) : Kept [.mgt, .lanes] s (execLaneWake lane s) := by
  unfold execLaneWake
  exact .on fun _ => (within_laneWake ..).mono

theorem kept_laneResumed (lane : Fin 1032) (tx : Bool) (s : Machine.State) : Kept
    [.regs, .dram, .hostMem, .sfl, .lanes, .ports, .pkts, .pattern, .tm, .sched, .tel, .host, .flow, .gang, .act] s
      (execLaneResumed lane tx s) := by
  unfold execLaneResumed
  exact .on fun _ => (within_laneResumed ..).mono

theorem kept_vsbRise (s : Machine.State) : Kept [.regs, .power] s (execVsbRise s) := by
  unfold execVsbRise
  exact .onAny fun _ => (within_vsbRise ..).mono

theorem kept_vinQualified (s : Machine.State) : Kept [.regs, .wideCap, .wideStage, .dram, .hostMem, .power, .time, .mgt,
    .lanes, .ports, .sites, .pkts, .parse, .rules, .tern, .pattern, .tm, .sched, .hbm, .tel, .host, .flow, .gang, .act, .wds,
      .plate, .recov] s (execVinQualified s) := by
  unfold execVinQualified
  exact .onAny fun _ => (within_vinQualified ..).mono

theorem kept_vinLoss (s : Machine.State) : Kept [.regs, .wideCap, .wideStage, .dram, .hostMem, .power, .time, .mgt, .lanes,
    .ports, .sites, .pkts, .parse, .rules, .tern, .pattern, .tm, .sched, .hbm, .tel, .host, .flow, .gang, .act, .wds, .plate,
      .recov] s (execVinLoss s) := by
  unfold execVinLoss
  exact .onAny fun _ => (within_vinLoss ..).mono

theorem kept_vinOver (mv : Fin 65536) (s : Machine.State) : Kept
    [.regs, .wideCap, .wideStage, .dram, .hostMem, .power, .time, .mgt, .lanes, .ports, .sites, .pkts, .parse, .rules, .tern,
      .pattern, .tm, .sched, .hbm, .tel, .host, .flow, .gang, .act, .wds, .plate, .recov] s (execVinOver mv s) := by
  unfold execVinOver
  exact .onAny fun _ => (within_vinOver ..).mono

theorem kept_deviceReset (key : Word) (s : Machine.State) : Kept
    [.regs, .wideCap, .wideStage, .dram, .hostMem, .power, .time, .mgt, .sfl, .lanes, .ports, .sites, .pkts, .parse, .rules,
      .tern, .pattern, .tm, .sched, .hbm, .tel, .host, .flow, .gang, .act, .wds, .plate, .recov] s (execDeviceReset key s) := by
  unfold execDeviceReset
  exact .on fun _ => (within_resetWrite ..).mono

theorem kept_scheduledDeviceReset (s : Machine.State) : Kept [.regs, .wideCap, .wideStage, .dram, .hostMem, .power, .time,
    .mgt, .lanes, .ports, .sites, .pkts, .parse, .rules, .tern, .pattern, .tm, .sched, .hbm, .tel, .host, .flow, .gang, .act,
      .wds, .plate, .recov] s (execScheduledDeviceReset s) := by
  unfold execScheduledDeviceReset
  exact .on fun _ => (within_resetDue ..).mono

theorem kept_unrecoverableFault (sfl : Bool) (s : Machine.State) : Kept [.regs, .hostMem, .power, .mgt, .host] s
    (execUnrecoverableFault sfl s) := by
  unfold execUnrecoverableFault
  exact .on fun _ => (within_unrecoverable ..).mono

theorem kept_mpWake (s : Machine.State) : Kept [.regs] s (execMpWake s) := by
  unfold execMpWake
  exact .on fun _ => (within_mpWake ..).mono

theorem kept_mpIdleStop (s : Machine.State) : Kept [.regs] s (execMpIdleStop s) := by
  unfold execMpIdleStop
  exact .on fun _ => (within_mpIdleStop ..).mono

theorem kept_mpWatchdog (s : Machine.State) : Kept [.regs, .hostMem, .power, .mgt, .host] s (execMpWatchdog s) := by
  unfold execMpWatchdog
  exact .on fun _ => (within_mpWatchdog ..).mono

theorem kept_mpRestart (s : Machine.State) : Kept [.regs, .hostMem, .power, .mgt, .host] s (execMpRestart s) := by
  unfold execMpRestart
  exact .on fun _ => (within_mpStart ..).mono

theorem kept_firmwareHeartbeatTimeout (s : Machine.State) : Kept [.regs, .hostMem, .power, .mgt, .host] s
    (execFirmwareHeartbeatTimeout s) := by
  unfold execFirmwareHeartbeatTimeout
  exact .on fun _ => (within_heartbeatLate ..).mono

theorem kept_info (s : Machine.State) : Kept [.regs, .hostMem, .power, .flash, .mgt, .sfl, .host] s (execInfo s) := by
  unfold execInfo
  exact .on fun _ => (within_mbxCmd ..).mono

theorem kept_sensors (s : Machine.State) : Kept [.regs, .hostMem, .power, .flash, .mgt, .sfl, .host] s (execSensors s) := by
  unfold execSensors
  exact .on fun _ => (within_mbxCmd ..).mono

theorem kept_logRead (s : Machine.State) : Kept [.regs, .hostMem, .power, .flash, .mgt, .sfl, .host] s (execLogRead s) := by
  unfold execLogRead
  exact .on fun _ => (within_mbxCmd ..).mono

theorem kept_logMark (s : Machine.State) : Kept [.regs, .hostMem, .power, .flash, .mgt, .sfl, .host] s (execLogMark s) := by
  unfold execLogMark
  exact .on fun _ => (within_mbxCmd ..).mono

theorem kept_updateWrite (s : Machine.State) : Kept [.regs, .hostMem, .power, .flash, .mgt, .sfl, .host] s (execUpdateWrite s)
    := by
  unfold execUpdateWrite
  exact .on fun _ => (within_mbxCmd ..).mono

theorem kept_updateSelect (s : Machine.State) : Kept [.regs, .hostMem, .power, .flash, .mgt, .sfl, .host] s
    (execUpdateSelect s) := by
  unfold execUpdateSelect
  exact .on fun _ => (within_mbxCmd ..).mono

theorem kept_floorRaise (s : Machine.State) : Kept [.regs, .hostMem, .power, .flash, .mgt, .sfl, .host] s (execFloorRaise s)
    := by
  unfold execFloorRaise
  exact .on fun _ => (within_mbxCmd ..).mono

theorem kept_oobDatagram (port : Fin 2) (src payload : Bytes) (s : Machine.State) : Kept
    [.regs, .hostMem, .power, .flash, .mgt, .sfl, .host] s (execOobDatagram port src payload s) := by
  unfold execOobDatagram
  exact .on fun _ => (within_oobDatagram ..).mono

theorem kept_sensorSample (vals : List (BitVec 16)) (s : Machine.State) : Kept
    [.regs, .wideCap, .wideStage, .dram, .hostMem, .power, .time, .mgt, .sfl, .lanes, .ports, .sites, .pkts, .parse, .rules,
      .tern, .pattern, .tm, .sched, .hbm, .tel, .host, .flow, .gang, .act, .wds, .plate, .recov] s (execSensorSample vals s)
        := by
  unfold execSensorSample
  exact .on fun _ => (within_sensorSample ..).mono

theorem kept_logFlashCopy (s : Machine.State) : Kept [.regs, .mgt] s (execLogFlashCopy s) := by
  unfold execLogFlashCopy
  exact .onAny fun _ => .ite (within_logCopy ..).mono (.refl _ _)

theorem kept_slicePark (slice : Fin 16) (s : Machine.State) : Kept [.regs] s (execSlicePark slice s) := by
  unfold execSlicePark
  exact .on fun _ => (within_slicePark ..).mono

theorem kept_sliceActive (slice : Fin 16) (s : Machine.State) : Kept [.regs, .mgt] s (execSliceActive slice s) := by
  unfold execSliceActive
  exact .on fun _ => (within_sliceActive ..).mono

theorem kept_bankGate (bank : Fin 16) (s : Machine.State) : Kept [.regs, .tel] s (execBankGate bank s) := by
  unfold execBankGate
  exact .on fun _ => (within_bankGate ..).mono

theorem kept_bankAwake (bank : Fin 16) (s : Machine.State) : Kept [.regs, .mgt, .tel] s (execBankAwake bank s) := by
  unfold execBankAwake
  exact .on fun _ => (within_bankAwake ..).mono

theorem kept_fullLoad (masks : List (List Nat)) (s : Machine.State) : Kept
    [.regs, .dram, .hostMem, .power, .flash, .time, .mgt, .sfl, .lanes, .ports, .sites, .pkts, .parse, .rules, .tern,
      .pattern, .tm, .sched, .hbm, .tel, .host, .flow, .gang, .act, .wds, .plate] s (execFullLoad masks s) := by
  unfold execFullLoad
  exact .on fun _ => (within_fullLoad ..).mono

theorem kept_verify (s : Machine.State) : Kept [.regs, .hostMem, .power, .mgt, .sfl, .host, .plate] s (execVerify s) := by
  unfold execVerify
  exact .on fun _ => (within_verify ..).mono

theorem kept_writeSlot (slot : Bool) (s : Machine.State) : Kept [.regs, .hostMem, .host, .plate] s (execWriteSlot slot s) := by
  unfold execWriteSlot
  exact .on fun _ => (within_writeSlot ..).mono

theorem kept_selectBoot (slot : Bool) (s : Machine.State) : Kept [.regs, .hostMem, .flash, .host] s (execSelectBoot slot s) :=
    by
  unfold execSelectBoot
  exact .on fun _ => (within_selectBoot ..).mono

theorem kept_stopBath (unit : Fin 16) (inst : Fin 512) (source timed : Bool) (s : Machine.State) : Kept
    [.regs, .dram, .hostMem, .time, .sfl, .lanes, .ports, .pkts, .pattern, .tm, .sched, .hbm, .tel, .host, .flow, .gang, .act,
      .wds, .plate] s (execStopBath unit inst source timed s) := by
  unfold execStopBath
  exact .on fun _ => (within_stopBath ..).mono.andThen (within_flush ..)

theorem kept_adopt (raise : Bool) (s : Machine.State) : Kept [.regs, .hostMem, .flash, .host, .plate] s (execAdopt raise s) :=
    by
  unfold execAdopt
  exact .on fun _ => (within_adopt ..).mono

theorem kept_abandon (s : Machine.State) : Kept [.regs, .hostMem, .host, .plate] s (execAbandon s) := by
  unfold execAbandon
  exact .on fun _ => (within_abandonPlate ..).mono

theorem kept_loadStaged (masks : List (List Nat)) (s : Machine.State) : Kept
    [.regs, .dram, .hostMem, .power, .flash, .time, .mgt, .sfl, .lanes, .ports, .sites, .pkts, .parse, .rules, .tern,
      .pattern, .tm, .sched, .hbm, .tel, .host, .flow, .gang, .act, .wds, .plate] s (execLoadStaged masks s) := by
  unfold execLoadStaged
  exact .on fun _ => (within_loadStaged ..).mono

theorem kept_cancel (entry : Fin 8) (s : Machine.State) : Kept [.regs, .hostMem, .time, .host] s (execCancel entry s) := by
  unfold execCancel
  exact .on fun _ => (within_cancelBath ..).mono

theorem kept_stopBathStart (entry : Fin 8) (s : Machine.State) : Kept
    [.regs, .dram, .hostMem, .time, .sfl, .lanes, .ports, .pkts, .pattern, .tm, .sched, .hbm, .tel, .host, .flow, .gang, .act,
      .wds, .plate] s (execStopBathStart entry s) := by
  unfold execStopBathStart
  exact .on fun _ => (within_bathStart ..).mono.andThen (within_flush ..)

theorem kept_stopBathDrained (entry : Fin 8) (s : Machine.State) : Kept
    [.regs, .dram, .hostMem, .sfl, .ports, .pkts, .pattern, .tm, .tel, .host, .flow, .gang, .act, .wds] s
      (execStopBathDrained entry s) := by
  unfold execStopBathDrained
  exact .on fun _ => (within_bathDrained ..).mono.andThen (within_flush ..)

theorem kept_stopBathApplied (entry : Fin 8) (s : Machine.State) : Kept
    [.regs, .dram, .hostMem, .sfl, .lanes, .ports, .sites, .pkts, .parse, .rules, .tern, .pattern, .tm, .sched, .hbm, .tel,
      .host, .flow, .gang, .act, .wds, .plate] s (execStopBathApplied entry s) := by
  unfold execStopBathApplied
  exact .on fun _ => (within_bathApplied ..).mono.andThen (within_flush ..)

theorem kept_stopBathRestarted (entry : Fin 8) (masks : List Nat) (s : Machine.State) : Kept
    [.regs, .dram, .hostMem, .freeCtr, .power, .mgt, .sfl, .lanes, .ports, .pkts, .rules, .tern, .pattern, .tm, .sched, .hbm,
      .tel, .host, .flow, .gang, .act, .wds, .plate, .recov] s (execStopBathRestarted entry masks s) := by
  unfold execStopBathRestarted
  exact .on fun _ => (within_bathRestarted ..).mono.andThen (within_flush ..)

theorem kept_drainTimeout (entry : Fin 8) (s : Machine.State) : Kept
    [.regs, .dram, .hostMem, .freeCtr, .power, .mgt, .sfl, .lanes, .ports, .pkts, .rules, .tern, .pattern, .tm, .sched, .hbm,
      .tel, .host, .flow, .gang, .act, .wds, .plate, .recov] s (execDrainTimeout entry s) := by
  unfold execDrainTimeout
  exact .on fun _ => (within_drainTimeout ..).mono.andThen (within_flush ..)

theorem kept_sbStateRead (entry : Fin 8) (s : Machine.State) : Kept [.regs, .rdData] s (execSbStateRead entry s) := by
  unfold execSbStateRead
  exact .on fun _ => (within_sbRead ..).mono

theorem kept_flashSlotWriteDone (plate ok : Bool) (s : Machine.State) : Kept
    [.regs, .hostMem, .power, .flash, .mgt, .host, .plate] s (execFlashSlotWriteDone plate ok s) := by
  unfold execFlashSlotWriteDone
  exact .on fun _ => .ite (within_slotWritten ..).mono (within_updateWritten ..).mono

theorem kept_portGiveup (port : Fin 512) (s : Machine.State) : Kept
    [.regs, .dram, .hostMem, .sfl, .lanes, .ports, .pkts, .pattern, .tm, .sched, .tel, .host, .flow, .gang, .act] s
      (execPortGiveup port s) := by
  unfold execPortGiveup
  exact .on fun _ => (within_portGiveup ..).mono

theorem kept_reform (port : Fin 512) (s : Machine.State) : Kept
    [.regs, .dram, .hostMem, .sfl, .lanes, .ports, .pkts, .pattern, .tm, .sched, .tel, .host, .flow, .gang, .act] s
      (execReform port s) := by
  unfold execReform
  exact .on fun _ => (within_reform ..).mono

theorem kept_lpiEnter (port : Fin 512) (s : Machine.State) : Kept [.regs, .tel] s (execLpiEnter port s) := by
  unfold execLpiEnter
  exact .on fun _ => (within_lpiEnter ..).mono

theorem kept_lpiExit (port : Fin 512) (s : Machine.State) : Kept [.regs, .ports, .tel] s (execLpiExit port s) := by
  unfold execLpiExit
  exact .on fun _ => (within_lpiExit ..).mono

theorem kept_lpiWakeDone (port : Fin 512) (s : Machine.State) : Kept [.ports] s (execLpiWakeDone port s) := by
  unfold execLpiWakeDone
  exact .on fun _ => (within_lpiDone ..).mono

theorem kept_frameHead (port : Fin 512) (head : Bytes) (s : Machine.State) : Kept [.regs, .mgt, .ports, .pkts, .tm] s
    (execFrameHead port head s) := by
  unfold execFrameHead
  exact .on fun _ => (within_frameHead ..).mono

theorem kept_frameCellWriteStart (port : Fin 512) (s : Machine.State) : Kept
    [.regs, .hostMem, .ports, .pkts, .tm, .tel, .host] s (execFrameCellWriteStart port s) := by
  unfold execFrameCellWriteStart
  exact .on fun _ => (within_cellStart ..).mono

theorem kept_frameToPipe (pid : Nat) (first : Bytes) (len : Nat) (s : Machine.State) : Kept [.regs, .pkts, .tel] s
    (execFrameToPipe pid first len s) := by
  unfold execFrameToPipe
  exact .on fun _ => (within_toPipe ..).mono

theorem kept_frameTail (port : Fin 512) (fr : Bytes) (err : Bool) (s : Machine.State) : Kept
    [.regs, .hostMem, .sfl, .ports, .pkts, .pattern, .tm, .sched, .tel, .host] s (execFrameTail port fr err s) := by
  unfold execFrameTail
  exact .on fun _ => (within_frameTail ..).mono

theorem kept_maxframeExceeded (port : Fin 512) (bytes : Bytes) (s : Machine.State) : Kept
    [.regs, .hostMem, .ports, .pkts, .pattern, .tm, .sched, .tel, .host] s (execMaxframeExceeded port bytes s) := by
  unfold execMaxframeExceeded
  exact .on fun _ => (within_maxExceeded ..).mono

theorem kept_pauseFrame (port : Fin 512) (fr : Bytes) (s : Machine.State) : Kept [.regs, .ports, .tel] s
    (execPauseFrame port fr s) := by
  unfold execPauseFrame
  exact .on fun _ => (within_macFrame ..).mono

theorem kept_pfcFrame (port : Fin 512) (fr : Bytes) (s : Machine.State) : Kept [.regs, .ports, .tel] s
    (execPfcFrame port fr s) := by
  unfold execPfcFrame
  exact .on fun _ => (within_macFrame ..).mono

theorem kept_pauseExpiry (port : Fin 512) (cls : Fin 16) (s : Machine.State) : Kept [.regs, .ports, .tel] s
    (execPauseExpiry port cls s) := by
  unfold execPauseExpiry
  exact .on fun _ => (within_setPause ..).mono

theorem kept_cvuRunWrite (port : Fin 512) (dir : Fin 2) (v : Word) (s : Machine.State) : Kept [.regs, .ports] s
    (execCvuRunWrite port dir v s) := by
  unfold execCvuRunWrite
  exact .on fun _ => (within_cvuRunWrite ..).mono

theorem kept_recoveryStart (kind : Fin 8) (inst : Fin 1024) (cause : Fin 256) (detail : List Nat) (s : Machine.State) : Kept
    [.regs, .wideCap, .wideStage, .dram, .hostMem, .freeCtr, .power, .time, .mgt, .sfl, .lanes, .ports, .pkts, .rules, .tern,
      .pattern, .tm, .sched, .tel, .host, .flow, .gang, .act, .wds, .plate, .recov] s
        (execRecoveryStart kind inst cause detail s) := by
  unfold execRecoveryStart
  exact .on fun _ => (within_recoveryStart ..).mono

theorem kept_recGo (kind : Fin 8) (inst : Fin 1024) (s : Machine.State) : Kept
    [.regs, .dram, .hostMem, .freeCtr, .power, .mgt, .sfl, .lanes, .ports, .pkts, .rules, .tern, .pattern, .tm, .sched, .tel,
      .host, .flow, .gang, .act, .wds, .recov] s (execRecGo kind inst s) := by
  unfold execRecGo
  exact .on fun _ => (within_recoveryGo ..).mono

theorem kept_recoveryEnd (kind : Fin 8) (inst : Fin 1024) (ok : Bool) (s : Machine.State) : Kept
    [.regs, .dram, .hostMem, .power, .mgt, .sfl, .lanes, .ports, .pkts, .pattern, .tm, .sched, .hbm, .tel, .host, .flow,
      .gang, .act, .wds, .recov] s (execRecoveryEnd kind inst ok s) := by
  unfold execRecoveryEnd
  exact .on fun _ => (within_recoveryEnd ..).mono

theorem kept_recoveryBoundExpired (kind : Fin 8) (inst : Fin 1024) (s : Machine.State) : Kept
    [.regs, .dram, .hostMem, .power, .mgt, .sfl, .lanes, .ports, .pkts, .pattern, .tm, .sched, .tel, .host, .flow, .gang,
      .act, .recov] s (execRecoveryBoundExpired kind inst s) := by
  unfold execRecoveryBoundExpired
  exact .on fun _ => (within_recoveryLate ..).mono

theorem kept_timeTick (s : Machine.State) : Kept [.regs, .hostMem, .time, .rules, .sched, .host, .gang] s (execTimeTick s) := by
  unfold execTimeTick
  exact .on fun _ => .ite (within_tick ..).mono (.refl _ _)

theorem kept_incrWrite (v : BitVec 48) (s : Machine.State) : Kept [.regs, .time] s (execIncrWrite v s) := by
  unfold execIncrWrite
  exact .on fun _ => (within_incrWrite ..).mono

theorem kept_refLost (s : Machine.State) : Kept [.regs, .hostMem, .host] s (execRefLost s) := by
  unfold execRefLost
  exact .on fun _ => .ite ((within_putF ..).mono.andThen (within_raise ..)) (.refl _ _)

theorem kept_refLock (s : Machine.State) : Kept [.regs, .hostMem, .host] s (execRefLock s) := by
  unfold execRefLock
  exact .on fun _ => .ite ((within_putF ..).mono.andThen (within_raise ..)) (.refl _ _)

theorem kept_set (s : Machine.State) : Kept [.regs, .hostMem, .time, .host] s (execSet s) := by
  unfold execSet
  exact .on fun _ => (within_timSetCmd ..).mono

theorem kept_step (s : Machine.State) : Kept [.regs, .hostMem, .time, .host] s (execStep s) := by
  unfold execStep
  exact .on fun _ => (within_timStepCmd ..).mono

theorem kept_invalidate (s : Machine.State) : Kept [.regs, .hostMem, .time, .rules, .sched, .host, .gang] s (execInvalidate s)
    := by
  unfold execInvalidate
  exact .on fun _ => (within_invalidate ..).mono

theorem kept_slew (s : Machine.State) : Kept [.regs, .hostMem, .time, .host] s (execSlew s) := by
  unfold execSlew
  exact .on fun _ => (within_slewCmd ..).mono

theorem kept_sched (n : Fin 16) (s : Machine.State) : Kept [.regs, .wideCap, .wideStage, .dram, .hostMem, .freeCtr, .power,
    .flash, .time, .mgt, .sfl, .lanes, .ports, .sites, .pkts, .parse, .rules, .tern, .pattern, .tm, .sched, .hbm, .tel, .host,
      .flow, .gang, .act, .wds, .plate, .recov] s (execSched n s) := by
  unfold execSched
  exact .on fun _ => (within_sched1 ..).mono

theorem kept_unsched (n : Fin 16) (s : Machine.State) : Kept [.regs, .hostMem, .time, .host] s (execUnsched n s) := by
  unfold execUnsched
  exact .on fun _ => (within_unsched ..).mono

theorem kept_hostTimedWrite (n : Fin 16) (s : Machine.State) : Kept
    [.regs, .wideCap, .wideStage, .dram, .hostMem, .freeCtr, .power, .flash, .time, .mgt, .sfl, .lanes, .ports, .sites, .pkts,
      .parse, .rules, .tern, .pattern, .tm, .sched, .hbm, .tel, .host, .flow, .gang, .act, .wds, .plate, .recov] s
        (execHostTimedWrite n s) := by
  unfold execHostTimedWrite
  exact .on fun _ => (within_hostTimedWrite ..).mono

theorem kept_sactStateRead (n : Fin 16) (s : Machine.State) : Kept [.regs, .rdData] s (execSactStateRead n s) := by
  unfold execSactStateRead
  exact .on fun _ => (within_sactStateRead ..).mono

theorem kept_ppsOutEdge (rise : Bool) (s : Machine.State) : Kept [.time] s (execPpsOutEdge rise s) := by
  unfold execPpsOutEdge
  exact .on fun _ => .ite (.ite ((Within.refl _ _).time _) (.refl _ _)) ((Within.refl _ _).time _)

theorem kept_ppsInEdge (s : Machine.State) : Kept [.regs, .hostMem, .time, .host] s (execPpsInEdge s) := by
  unfold execPpsInEdge
  exact .on fun _ => (within_ppsIn ..).mono

theorem kept_pdelayWrite (p : Fin 512) (v : Word) (s : Machine.State) : Kept [.regs, .hostMem, .host] s
    (execPdelayWrite p v s) := by
  unfold execPdelayWrite
  exact .on fun _ => (within_pdelayWrite ..).mono

theorem kept_registerWrite (addr : Fin 134217728) (val hw : Word) (s : Machine.State) : Kept
    [.regs, .wideCap, .wideStage, .dram, .hostMem, .freeCtr, .power, .flash, .time, .mgt, .sfl, .lanes, .ports, .sites, .pkts,
      .parse, .rules, .tern, .pattern, .tm, .sched, .hbm, .tel, .host, .flow, .gang, .act, .wds, .plate, .recov] s
        (execRegisterWrite addr val hw s) := by
  unfold execRegisterWrite
  exact .on fun _ => .ite (within_bar0Write ..).mono (within_hostErr ..).mono

theorem kept_wideHighWordWrite (addr : Fin 134217728) (val : Word) (s : Machine.State) : Kept
    [.regs, .wideCap, .wideStage, .dram, .hostMem, .freeCtr, .power, .flash, .time, .mgt, .sfl, .lanes, .ports, .sites, .pkts,
      .parse, .rules, .tern, .pattern, .tm, .sched, .hbm, .tel, .host, .flow, .gang, .act, .wds, .plate, .recov] s
        (execWideHighWordWrite addr val s) := by
  unfold execWideHighWordWrite
  refine .on fun c => ?_
  split
  · exact .ite (.refl _ _) (within_bar0Write ..).mono
  · exact .refl _ _

theorem kept_wideLowWordWrite (addr : Fin 134217728) (val : Word) (s : Machine.State) : Kept
    [.regs, .wideCap, .wideStage, .dram, .hostMem, .freeCtr, .power, .flash, .time, .mgt, .sfl, .lanes, .ports, .sites, .pkts,
      .parse, .rules, .tern, .pattern, .tm, .sched, .hbm, .tel, .host, .flow, .gang, .act, .wds, .plate, .recov] s
        (execWideLowWordWrite addr val s) := by
  unfold execWideLowWordWrite
  exact .on fun _ => .ite (within_bar0Write ..).mono (.refl _ _)

theorem kept_bar064bitWrite (addr : Fin 134217728) (val : BitVec 64) (s : Machine.State) : Kept
    [.regs, .wideCap, .wideStage, .dram, .hostMem, .freeCtr, .power, .flash, .time, .mgt, .sfl, .lanes, .ports, .sites, .pkts,
      .parse, .rules, .tern, .pattern, .tm, .sched, .hbm, .tel, .host, .flow, .gang, .act, .wds, .plate, .recov] s
        (execBar064bitWrite addr val s) := by
  unfold execBar064bitWrite
  refine .on fun c => ?_
  extract_lets lo hi
  exact .ite (within_hostErr ..).mono (.ite ((within_bar0Write ..).mono.andThen (within_bar0Write ..))
    ((within_bar0Write ..).mono.andThen (within_bar0Write ..)))

theorem kept_badWrite (addr : Fin 134217728) (s : Machine.State) : Kept [.regs, .hostMem, .host] s (execBadWrite addr s) := by
  unfold execBadWrite
  exact .on fun _ => (within_hostErr ..).mono

theorem kept_deniedWrite (addr : Fin 134217728) (source : Fin 9) (ctx : Fin 1024) (cmd : Option (Fin 10)) (s : Machine.State)
    : Kept [.regs, .hostMem, .sfl, .host] s (execDeniedWrite addr source ctx cmd s) := by
  unfold execDeniedWrite
  refine .on fun c => ?_
  refine .ite ?_ ?_
  · exact .refl _ _
  · split
    · exact (within_denied ..).mono
    · exact (within_finish ..).mono

theorem kept_wideLowWordRead (addr : Fin 134217728) (hw : BitVec 64) (s : Machine.State) : Kept
    [.regs, .wideCap, .rdData, .sfl] s (execWideLowWordRead addr hw s) := by
  unfold execWideLowWordRead
  refine .on fun c => ?_
  split
  · exact .ite ((Within.refl _ _).rdData _) (within_wideRead ..).mono
  · exact .refl _ _

theorem kept_rcRead (addr : Fin 134217728) (hw : Word) (s : Machine.State) : Kept [.regs, .hostMem, .rdData, .mgt, .host] s
    (execRcRead addr hw s) := by
  unfold execRcRead
  refine .on fun c => ?_
  extract_lets a
  split
  · exact .ite (.refl _ _) (.ite ((Within.refl _ _).rdData _) (((Within.refl _ _).rdData _).andThen (within_rcClear ..)))
  · exact .refl _ _

theorem kept_badRead (addr : Fin 134217728) (s : Machine.State) : Kept [.regs, .hostMem, .rdData, .host] s
    (execBadRead addr s) := by
  unfold execBadRead
  refine .on fun c => ?_
  extract_lets src
  have hsrc : Within [.regs, .hostMem, .rdData, .host] c src := (within_hostErr ..).mono
  exact hsrc.rdData _

theorem kept_moduleInsert (site : Fin 128) (s : Machine.State) : Kept
    [.regs, .dram, .hostMem, .sfl, .lanes, .ports, .sites, .pkts, .pattern, .tm, .sched, .tel, .host, .flow, .gang, .act] s
      (execModuleInsert site s) := by
  unfold execModuleInsert
  exact .onAny fun _ => (within_moduleInsert ..).mono

theorem kept_moduleRemove (site : Fin 128) (s : Machine.State) : Kept
    [.regs, .dram, .hostMem, .sfl, .lanes, .ports, .sites, .pkts, .pattern, .tm, .sched, .tel, .host, .flow, .gang, .act] s
      (execModuleRemove site s) := by
  unfold execModuleRemove
  exact .onAny fun _ => (within_moduleRemove ..).mono

theorem kept_resetPulseEnd (site : Fin 128) (s : Machine.State) : Kept
    [.regs, .dram, .hostMem, .sfl, .lanes, .ports, .sites, .pkts, .pattern, .tm, .sched, .tel, .host, .flow, .gang, .act] s
      (execResetPulseEnd site s) := by
  unfold execResetPulseEnd
  exact .on fun _ => (within_resetPulseEnd ..).mono

theorem kept_addressPoll (site : Fin 128) (resp : Option (Bool × Nat × Nat)) (s : Machine.State) : Kept
    [.regs, .dram, .hostMem, .sfl, .lanes, .ports, .sites, .pkts, .pattern, .tm, .sched, .tel, .host, .flow, .gang, .act] s
      (execAddressPoll site resp s) := by
  unfold execAddressPoll
  exact .on fun _ => (within_addressPoll ..).mono

theorem kept_noResponse (site : Fin 128) (s : Machine.State) : Kept
    [.regs, .dram, .hostMem, .sfl, .lanes, .ports, .sites, .pkts, .pattern, .tm, .sched, .tel, .host, .flow, .gang, .act] s
      (execNoResponse site s) := by
  unfold execNoResponse
  exact .on fun _ => (within_noResponse ..).mono

theorem kept_siteFaultRetry (site : Fin 128) (s : Machine.State) : Kept
    [.regs, .dram, .hostMem, .sfl, .lanes, .ports, .sites, .pkts, .pattern, .tm, .sched, .tel, .host, .flow, .gang, .act] s
      (execSiteFaultRetry site s) := by
  unfold execSiteFaultRetry
  exact .on fun _ => (within_siteRetry ..).mono

theorem kept_cmisTransactionDone (site : Fin 128) (what : Fin 3) (s : Machine.State) : Kept
    [.regs, .dram, .hostMem, .sfl, .lanes, .ports, .pkts, .pattern, .tm, .sched, .tel, .host, .flow, .gang, .act] s
      (execCmisTransactionDone site what s) := by
  unfold execCmisTransactionDone
  exact .on fun _ => (within_cmisDone ..).mono

theorem kept_intlFall (site : Fin 128) (flags : Bytes) (s : Machine.State) : Kept [.regs, .hostMem, .host] s
    (execIntlFall site flags s) := by
  unfold execIntlFall
  exact .on fun _ => (within_intlFall ..).mono

theorem kept_monitorPoll (site : Fin 128) (temp vcc : Fin 65536) (s : Machine.State) : Kept [.regs] s
    (execMonitorPoll site temp vcc s) := by
  unfold execMonitorPoll
  exact .on fun _ => (within_monitorPoll ..).mono

theorem kept_busRecovery (site : Fin 128) (s : Machine.State) : Kept [.regs, .hostMem, .host] s (execBusRecovery site s) := by
  unfold execBusRecovery
  exact .on fun _ => (within_raise ..).mono

theorem kept_xferGo (site : Fin 128) (write : Bool) (s : Machine.State) : Kept [.regs, .hostMem, .sites, .host] s
    (execXferGo site write s) := by
  unfold execXferGo
  exact .on fun _ => (within_xferGo ..).mono

theorem kept_xferDone (site : Fin 128) (ok : Bool) (data flags : Bytes) (s : Machine.State) : Kept
    [.regs, .hostMem, .sites, .host] s (execXferDone site ok data flags s) := by
  unfold execXferDone
  exact .on fun _ => (within_xferDone ..).mono

theorem kept_evFreeze (freeze : Bool) (s : Machine.State) : Kept [.regs] s (execEvFreeze freeze s) := by
  unfold execEvFreeze
  exact .on fun _ => (within_putF ..).mono

theorem kept_evClear (n : Fin 4096) (s : Machine.State) : Kept [.regs] s (execEvClear n s) := by
  unfold execEvClear
  exact .on fun _ => (within_evClear ..).mono

theorem kept_portStatsClear (p : Fin 512) (s : Machine.State) : Kept [.regs] s (execPortStatsClear p s) := by
  unfold execPortStatsClear
  exact .on fun _ => (within_statsClear ..).mono

theorem kept_tsForce (port : Fin 512) (s : Machine.State) : Kept [.regs] s (execTsForce port s) := by
  unfold execTsForce
  exact .on fun _ => (within_putF ..).mono.andThen (within_putF ..)

theorem kept_tsSeedWrite (v : Word) (s : Machine.State) : Kept [.regs, .tel] s (execTsSeedWrite v s) := by
  unfold execTsSeedWrite
  exact .on fun _ => (within_putF ..).mono.andThen (within_tsSeed ..)

theorem kept_stripTimeout (pid : Nat) (s : Machine.State) : Kept [.regs, .hostMem, .pkts, .host] s (execStripTimeout pid s) :=
    by
  unfold execStripTimeout
  exact .on fun _ => (within_stripTimeout ..).mono

theorem kept_exportScanVisit (eng : Fin 128) (ecc : Fin 3) (s : Machine.State) : Kept
    [.regs, .dram, .hostMem, .mgt, .sfl, .ports, .pkts, .pattern, .tm, .tel, .host, .flow, .gang, .act, .wds] s
      (execExportScanVisit eng ecc s) := by
  unfold execExportScanVisit
  exact .on fun _ => (within_scanVisit ..).mono.andThen (within_flush ..)

theorem kept_exportRecordOut (s : Machine.State) : Kept [.regs, .hostMem, .pkts, .tm, .tel, .host, .wds] s
    (execExportRecordOut s) := by
  unfold execExportRecordOut
  exact .on fun _ => (within_exportOut ..).mono

theorem kept_ipfixFlush (s : Machine.State) : Kept [.regs, .hostMem, .pkts, .tm, .tel, .host] s (execIpfixFlush s) := by
  unfold execIpfixFlush
  exact .on fun _ => (within_flushMsg ..).mono

theorem kept_templateRefresh (s : Machine.State) : Kept [.regs, .hostMem, .pkts, .tm, .tel, .host] s (execTemplateRefresh s)
    := by
  unfold execTemplateRefresh
  exact .on fun _ => (within_templateRefresh ..).mono

theorem kept_admitCopy (pid : Nat) (s : Machine.State) : Kept [.regs, .hostMem, .pkts, .pattern, .tm, .sched, .tel, .host] s
    (execAdmitCopy pid s) := by
  unfold execAdmitCopy
  exact .on fun _ => (within_admitCmd ..).mono

theorem kept_residueRetry (port : Fin 512) (s : Machine.State) : Kept
    [.regs, .hostMem, .pkts, .pattern, .tm, .sched, .tel, .host] s (execResidueRetry port s) := by
  unfold execResidueRetry
  exact .on fun _ => (within_residueRetry ..).mono

theorem kept_residueTimeout (pid cid : Nat) (s : Machine.State) : Kept
    [.regs, .hostMem, .pkts, .pattern, .tm, .sched, .tel, .host] s (execResidueTimeout pid cid s) := by
  unfold execResidueTimeout
  exact .on fun _ => (within_residueTimeout ..).mono

theorem kept_recircEnqueue (pid : Nat) (s : Machine.State) : Kept [.regs, .hostMem, .pkts, .pattern, .tm, .tel, .host] s
    (execRecircEnqueue pid s) := by
  unfold execRecircEnqueue
  exact .on fun _ => (within_recircEnqueue ..).mono

theorem kept_recircHandoff (slice : Fin 16) (s : Machine.State) : Kept [.regs, .pkts, .tm, .tel] s (execRecircHandoff slice s)
    := by
  unfold execRecircHandoff
  exact .on fun _ => (within_recircHandoff ..).mono

theorem kept_pfcFrameSend (port : Fin 512) (s : Machine.State) : Kept [.regs, .ports, .tm, .tel] s (execPfcFrameSend port s)
    := by
  unfold execPfcFrameSend
  exact .on fun _ => .ite (within_pfcSend ..).mono (.refl _ _)

theorem kept_pfcRefresh (port : Fin 512) (s : Machine.State) : Kept [.regs, .ports, .tel] s (execPfcRefresh port s) := by
  unfold execPfcRefresh
  exact .on fun _ => (within_pfcRefresh ..).mono

theorem kept_unbindNotice (dev : Fin 4) (handle : Fin 262144) (s : Machine.State) : Kept [.regs, .tm] s
    (execUnbindNotice dev handle s) := by
  unfold execUnbindNotice
  exact .on fun _ => (within_unbind ..).mono

theorem kept_schedDecision (port : Fin 512) (s : Machine.State) : Kept
    [.regs, .hostMem, .freeCtr, .ports, .pkts, .pattern, .tm, .sched, .tel, .host] s (execSchedDecision port s) := by
  unfold execSchedDecision
  exact .on fun _ => (within_schedDecision ..).mono

theorem kept_frameTransmitted (port : Fin 512) (s : Machine.State) : Kept
    [.regs, .hostMem, .ports, .pkts, .pattern, .tm, .tel, .host, .gang] s (execFrameTransmitted port s) := by
  unfold execFrameTransmitted
  exact .on fun _ => (within_frameTransmitted ..).mono

theorem kept_shaperUpdate (level : Fin 3) (n : Nat) (s : Machine.State) : Kept [.regs, .sched, .tel] s
    (execShaperUpdate level n s) := by
  unfold execShaperUpdate
  exact .on fun _ => (within_shaperUpdate ..).mono

theorem kept_shaperConfigWrite (level : Fin 3) (n : Nat) (reg : Fin 3) (v : Word) (s : Machine.State) : Kept [.regs, .sched] s
    (execShaperConfigWrite level n reg v s) := by
  unfold execShaperConfigWrite
  exact .on fun _ => (within_shaperWrite ..).mono

theorem kept_gateChange (port : Fin 512) (s : Machine.State) : Kept [.regs] s (execGateChange port s) := by
  unfold execGateChange
  exact .on fun _ => (within_gateShow ..).mono

theorem kept_gateStart (port : Fin 512) (oneshot : Bool) (s : Machine.State) : Kept [.regs, .hostMem, .freeCtr, .sched, .host]
    s (execGateStart port oneshot s) := by
  unfold execGateStart
  exact .on fun _ => (within_gateStartCmd ..).mono

theorem kept_gateCancel (port : Fin 512) (s : Machine.State) : Kept [.regs, .hostMem, .time, .sched, .host] s
    (execGateCancel port s) := by
  unfold execGateCancel
  exact .on fun _ => (within_gateCancelCmd ..).mono

theorem kept_gateStop (port : Fin 512) (s : Machine.State) : Kept [.regs, .hostMem, .time, .sched, .host] s
    (execGateStop port s) := by
  unfold execGateStop
  exact .on fun _ => (within_gateStopCmd ..).mono

theorem kept_pendingListStart (port : Fin 512) (s : Machine.State) : Kept
    [.regs, .hostMem, .time, .pkts, .pattern, .tm, .sched, .tel, .host] s (execPendingListStart port s) := by
  unfold execPendingListStart
  exact .on fun _ => (within_pendStart ..).mono

theorem kept_gateListEnd (port : Fin 512) (s : Machine.State) : Kept [.regs, .hostMem, .sched, .host] s
    (execGateListEnd port s) := by
  unfold execGateListEnd
  exact .on fun _ => (within_gateEnd ..).mono

theorem kept_obsTick (s : Machine.State) : Kept [.regs, .sched] s (execObsTick s) := by
  unfold execObsTick
  exact .on fun _ => (within_obsTick ..).mono

theorem kept_obsModeWrite (mode : Bool) (s : Machine.State) : Kept [.regs, .sched] s (execObsModeWrite mode s) := by
  unfold execObsModeWrite
  exact .on fun _ => .setObs (.refl _ _) fun _ => (within_putF ..).mono

end Sys2Proof.Proofs
end

section
/-!
Soundness of every step (O4) and the frame of the commands that leave the work alone (O5).
-/
namespace Sys2Proof.Proofs
open Sys2Proof Sys2Proof.Machine

-- Each default `by decide` of a helper waits for the kernel: one proof at a time bounds the threads that wait.
set_option Elab.async false

/-- Every command but VSB_LOSS keeps the device within some parts of itself. -/
theorem kept_exec (s : State) : ∀ c : Instr, c ≠ .vsbLoss → ∃ M, Kept M s (exec c s)
  | .vsbLoss, h => absurd rfl h
  | .registerWrite .., _ => ⟨_, kept_registerWrite ..⟩
  | .wideLowWordRead .., _ => ⟨_, kept_wideLowWordRead ..⟩
  | .wideHighWordWrite .., _ => ⟨_, kept_wideHighWordWrite ..⟩
  | .wideLowWordWrite .., _ => ⟨_, kept_wideLowWordWrite ..⟩
  | .bar064bitWrite .., _ => ⟨_, kept_bar064bitWrite ..⟩
  | .badWrite .., _ => ⟨_, kept_badWrite ..⟩
  | .badRead .., _ => ⟨_, kept_badRead ..⟩
  | .rcRead .., _ => ⟨_, kept_rcRead ..⟩
  | .deniedWrite .., _ => ⟨_, kept_deniedWrite ..⟩
  | .vsbRise, _ => ⟨_, kept_vsbRise ..⟩
  | .vinQualified, _ => ⟨_, kept_vinQualified ..⟩
  | .vinLoss, _ => ⟨_, kept_vinLoss ..⟩
  | .vinOver .., _ => ⟨_, kept_vinOver ..⟩
  | .deviceReset .., _ => ⟨_, kept_deviceReset ..⟩
  | .fundamentalReset, _ => ⟨_, kept_fundamentalReset ..⟩
  | .hotReset .., _ => ⟨_, kept_hotReset ..⟩
  | .busMasterDisable, _ => ⟨_, kept_busMasterDisable ..⟩
  | .fullLoad .., _ => ⟨_, kept_fullLoad ..⟩
  | .unrecoverableFault .., _ => ⟨_, kept_unrecoverableFault ..⟩
  | .timeTick, _ => ⟨_, kept_timeTick ..⟩
  | .incrWrite .., _ => ⟨_, kept_incrWrite ..⟩
  | .refLost, _ => ⟨_, kept_refLost ..⟩
  | .refLock, _ => ⟨_, kept_refLock ..⟩
  | .set, _ => ⟨_, kept_set ..⟩
  | .step, _ => ⟨_, kept_step ..⟩
  | .invalidate, _ => ⟨_, kept_invalidate ..⟩
  | .slew, _ => ⟨_, kept_slew ..⟩
  | .sched .., _ => ⟨_, kept_sched ..⟩
  | .unsched .., _ => ⟨_, kept_unsched ..⟩
  | .hostTimedWrite .., _ => ⟨_, kept_hostTimedWrite ..⟩
  | .sactStateRead .., _ => ⟨_, kept_sactStateRead ..⟩
  | .ppsOutEdge .., _ => ⟨_, kept_ppsOutEdge ..⟩
  | .ppsInEdge, _ => ⟨_, kept_ppsInEdge ..⟩
  | .pdelayWrite .., _ => ⟨_, kept_pdelayWrite ..⟩
  | .verify, _ => ⟨_, kept_verify ..⟩
  | .writeSlot .., _ => ⟨_, kept_writeSlot ..⟩
  | .selectBoot .., _ => ⟨_, kept_selectBoot ..⟩
  | .stopBath .., _ => ⟨_, kept_stopBath ..⟩
  | .adopt .., _ => ⟨_, kept_adopt ..⟩
  | .abandon, _ => ⟨_, kept_abandon ..⟩
  | .loadStaged .., _ => ⟨_, kept_loadStaged ..⟩
  | .cancel .., _ => ⟨_, kept_cancel ..⟩
  | .stopBathStart .., _ => ⟨_, kept_stopBathStart ..⟩
  | .stopBathDrained .., _ => ⟨_, kept_stopBathDrained ..⟩
  | .stopBathApplied .., _ => ⟨_, kept_stopBathApplied ..⟩
  | .stopBathRestarted .., _ => ⟨_, kept_stopBathRestarted ..⟩
  | .drainTimeout .., _ => ⟨_, kept_drainTimeout ..⟩
  | .sbStateRead .., _ => ⟨_, kept_sbStateRead ..⟩
  | .laneEnable .., _ => ⟨_, kept_laneEnable ..⟩
  | .restart .., _ => ⟨_, kept_restart ..⟩
  | .capClear .., _ => ⟨_, kept_capClear ..⟩
  | .pinTestDone .., _ => ⟨_, kept_pinTestDone ..⟩
  | .pinFault .., _ => ⟨_, kept_pinFault ..⟩
  | .faultRetest .., _ => ⟨_, kept_faultRetest ..⟩
  | .retest .., _ => ⟨_, kept_retest ..⟩
  | .setTx .., _ => ⟨_, kept_setTx ..⟩
  | .capSet .., _ => ⟨_, kept_capSet ..⟩
  | .ackSet .., _ => ⟨_, kept_ackSet ..⟩
  | .stepSet .., _ => ⟨_, kept_stepSet ..⟩
  | .qualSet .., _ => ⟨_, kept_qualSet ..⟩
  | .holdSet .., _ => ⟨_, kept_holdSet ..⟩
  | .abortSet .., _ => ⟨_, kept_abortSet ..⟩
  | .upSet .., _ => ⟨_, kept_upSet ..⟩
  | .stepSwitch .., _ => ⟨_, kept_stepSwitch ..⟩
  | .stepAcquired .., _ => ⟨_, kept_stepAcquired ..⟩
  | .acquisitionTimeout .., _ => ⟨_, kept_acquisitionTimeout ..⟩
  | .qualWindowEnd .., _ => ⟨_, kept_qualWindowEnd ..⟩
  | .stepTimeout .., _ => ⟨_, kept_stepTimeout ..⟩
  | .backoffEnd .., _ => ⟨_, kept_backoffEnd ..⟩
  | .signalRise .., _ => ⟨_, kept_signalRise ..⟩
  | .linkLost .., _ => ⟨_, kept_linkLost ..⟩
  | .ieeeTrainingDone .., _ => ⟨_, kept_ieeeTrainingDone ..⟩
  | .ieeeTrainingTimeout .., _ => ⟨_, kept_ieeeTrainingTimeout ..⟩
  | .idleRunFreeze .., _ => ⟨_, kept_idleRunFreeze ..⟩
  | .adaptResume .., _ => ⟨_, kept_adaptResume ..⟩
  | .resetAdapt .., _ => ⟨_, kept_resetAdapt ..⟩
  | .ffeWrite .., _ => ⟨_, kept_ffeWrite ..⟩
  | .pgEnable .., _ => ⟨_, kept_pgEnable ..⟩
  | .checkerLock .., _ => ⟨_, kept_checkerLock ..⟩
  | .checkerLockLost .., _ => ⟨_, kept_checkerLockLost ..⟩
  | .pcClear .., _ => ⟨_, kept_pcClear ..⟩
  | .injOne .., _ => ⟨_, kept_injOne ..⟩
  | .periodicInjection .., _ => ⟨_, kept_periodicInjection ..⟩
  | .alignModeSet .., _ => ⟨_, kept_alignModeSet ..⟩
  | .bitslip .., _ => ⟨_, kept_bitslip ..⟩
  | .capture .., _ => ⟨_, kept_capture ..⟩
  | .polarityInversion .., _ => ⟨_, kept_polarityInversion ..⟩
  | .laneDimEnter .., _ => ⟨_, kept_laneDimEnter ..⟩
  | .laneWake .., _ => ⟨_, kept_laneWake ..⟩
  | .laneResumed .., _ => ⟨_, kept_laneResumed ..⟩
  | .portGiveup .., _ => ⟨_, kept_portGiveup ..⟩
  | .reform .., _ => ⟨_, kept_reform ..⟩
  | .lpiEnter .., _ => ⟨_, kept_lpiEnter ..⟩
  | .lpiExit .., _ => ⟨_, kept_lpiExit ..⟩
  | .lpiWakeDone .., _ => ⟨_, kept_lpiWakeDone ..⟩
  | .frameHead .., _ => ⟨_, kept_frameHead ..⟩
  | .frameCellWriteStart .., _ => ⟨_, kept_frameCellWriteStart ..⟩
  | .frameToPipe .., _ => ⟨_, kept_frameToPipe ..⟩
  | .frameTail .., _ => ⟨_, kept_frameTail ..⟩
  | .cvuRunWrite .., _ => ⟨_, kept_cvuRunWrite ..⟩
  | .pauseFrame .., _ => ⟨_, kept_pauseFrame ..⟩
  | .pfcFrame .., _ => ⟨_, kept_pfcFrame ..⟩
  | .pauseExpiry .., _ => ⟨_, kept_pauseExpiry ..⟩
  | .moduleInsert .., _ => ⟨_, kept_moduleInsert ..⟩
  | .moduleRemove .., _ => ⟨_, kept_moduleRemove ..⟩
  | .resetPulseEnd .., _ => ⟨_, kept_resetPulseEnd ..⟩
  | .addressPoll .., _ => ⟨_, kept_addressPoll ..⟩
  | .noResponse .., _ => ⟨_, kept_noResponse ..⟩
  | .siteFaultRetry .., _ => ⟨_, kept_siteFaultRetry ..⟩
  | .cmisTransactionDone .., _ => ⟨_, kept_cmisTransactionDone ..⟩
  | .intlFall .., _ => ⟨_, kept_intlFall ..⟩
  | .monitorPoll .., _ => ⟨_, kept_monitorPoll ..⟩
  | .busRecovery .., _ => ⟨_, kept_busRecovery ..⟩
  | .xferGo .., _ => ⟨_, kept_xferGo ..⟩
  | .xferDone .., _ => ⟨_, kept_xferDone ..⟩
  | .nop .., _ => ⟨_, kept_nop ..⟩
  | .ext .., _ => ⟨_, kept_ext ..⟩
  | .mark .., _ => ⟨_, kept_mark ..⟩
  | .lchk .., _ => ⟨_, kept_lchk ..⟩
  | .kcommit .., _ => ⟨_, kept_kcommit ..⟩
  | .alu .., _ => ⟨_, kept_alu ..⟩
  | .setf .., _ => ⟨_, kept_setf ..⟩
  | .lvl .., _ => ⟨_, kept_lvl ..⟩
  | .classifyPass .., _ => ⟨_, kept_classifyPass ..⟩
  | .flowOpRelease .., _ => ⟨_, kept_flowOpRelease ..⟩
  | .stageAdd .., _ => ⟨_, kept_stageAdd ..⟩
  | .stageDel .., _ => ⟨_, kept_stageDel ..⟩
  | .stageMod .., _ => ⟨_, kept_stageMod ..⟩
  | .fix .., _ => ⟨_, kept_fix ..⟩
  | .latentAbandon, _ => ⟨_, kept_latentAbandon ..⟩
  | .cancelFix, _ => ⟨_, kept_cancelFix ..⟩
  | .lookup .., _ => ⟨_, kept_lookup ..⟩
  | .fixExecute, _ => ⟨_, kept_fixExecute ..⟩
  | .fixHoldTimeout, _ => ⟨_, kept_fixHoldTimeout ..⟩
  | .versionRetire, _ => ⟨_, kept_versionRetire ..⟩
  | .tstageAdd .., _ => ⟨_, kept_tstageAdd ..⟩
  | .tstageDel .., _ => ⟨_, kept_tstageDel ..⟩
  | .tstageMod .., _ => ⟨_, kept_tstageMod ..⟩
  | .tlookup .., _ => ⟨_, kept_tlookup ..⟩
  | .rebalance .., _ => ⟨_, kept_rebalance ..⟩
  | .ternaryScrub .., _ => ⟨_, kept_ternaryScrub ..⟩
  | .ternaryBankGate .., _ => ⟨_, kept_ternaryBankGate ..⟩
  | .patternScanStart .., _ => ⟨_, kept_patternScanStart ..⟩
  | .patternReport .., _ => ⟨_, kept_patternReport ..⟩
  | .patternWaitTimeout .., _ => ⟨_, kept_patternWaitTimeout ..⟩
  | .patternLineReloaded .., _ => ⟨_, kept_patternLineReloaded ..⟩
  | .patternEngineGate .., _ => ⟨_, kept_patternEngineGate ..⟩
  | .pktOp .., _ => ⟨_, kept_pktOp ..⟩
  | .rmtOp .., _ => ⟨_, kept_rmtOp ..⟩
  | .rdOp .., _ => ⟨_, kept_rdOp ..⟩
  | .prep .., _ => ⟨_, kept_prep ..⟩
  | .apply .., _ => ⟨_, kept_apply ..⟩
  | .drop .., _ => ⟨_, kept_drop ..⟩
  | .sweepOp .., _ => ⟨_, kept_sweepOp ..⟩
  | .hrd .., _ => ⟨_, kept_hrd ..⟩
  | .hdel .., _ => ⟨_, kept_hdel ..⟩
  | .hins .., _ => ⟨_, kept_hins ..⟩
  | .replOp .., _ => ⟨_, kept_replOp ..⟩
  | .tailStatusReport .., _ => ⟨_, kept_tailStatusReport ..⟩
  | .missQueueGrant .., _ => ⟨_, kept_missQueueGrant ..⟩
  | .tagLinesArrived .., _ => ⟨_, kept_tagLinesArrived ..⟩
  | .recordFill .., _ => ⟨_, kept_recordFill ..⟩
  | .wayAvailable .., _ => ⟨_, kept_wayAvailable ..⟩
  | .opReplay .., _ => ⟨_, kept_opReplay ..⟩
  | .opDeadline .., _ => ⟨_, kept_opDeadline ..⟩
  | .setupItemOffer .., _ => ⟨_, kept_setupItemOffer ..⟩
  | .setupEndReport, _ => ⟨_, kept_setupEndReport ..⟩
  | .hcGo .., _ => ⟨_, kept_hcGo ..⟩
  | .meterRefresh .., _ => ⟨_, kept_meterRefresh ..⟩
  | .sweepTick, _ => ⟨_, kept_sweepTick ..⟩
  | .add .., _ => ⟨_, kept_add ..⟩
  | .sub .., _ => ⟨_, kept_sub ..⟩
  | .and .., _ => ⟨_, kept_and ..⟩
  | .or .., _ => ⟨_, kept_or ..⟩
  | .xor .., _ => ⟨_, kept_xor ..⟩
  | .shl .., _ => ⟨_, kept_shl ..⟩
  | .shr .., _ => ⟨_, kept_shr ..⟩
  | .mov .., _ => ⟨_, kept_mov ..⟩
  | .cmp .., _ => ⟨_, kept_cmp ..⟩
  | .extr .., _ => ⟨_, kept_extr ..⟩
  | .ins .., _ => ⟨_, kept_ins ..⟩
  | .mul .., _ => ⟨_, kept_mul ..⟩
  | .modu .., _ => ⟨_, kept_modu ..⟩
  | .ldlc .., _ => ⟨_, kept_ldlc ..⟩
  | .minu .., _ => ⟨_, kept_minu ..⟩
  | .sld .., _ => ⟨_, kept_sld ..⟩
  | .sst .., _ => ⟨_, kept_sst ..⟩
  | .cpy .., _ => ⟨_, kept_cpy ..⟩
  | .cld .., _ => ⟨_, kept_cld ..⟩
  | .rd .., _ => ⟨_, kept_rd ..⟩
  | .rdAnswer .., _ => ⟨_, kept_rdAnswer ..⟩
  | .wrec .., _ => ⟨_, kept_wrec ..⟩
  | .drd .., _ => ⟨_, kept_drd ..⟩
  | .drdw .., _ => ⟨_, kept_drdw ..⟩
  | .drdDataArrived .., _ => ⟨_, kept_drdDataArrived ..⟩
  | .wkeep .., _ => ⟨_, kept_wkeep ..⟩
  | .dwr .., _ => ⟨_, kept_dwr ..⟩
  | .cadd .., _ => ⟨_, kept_cadd ..⟩
  | .hash .., _ => ⟨_, kept_hash ..⟩
  | .canon .., _ => ⟨_, kept_canon ..⟩
  | .crcs .., _ => ⟨_, kept_crcs ..⟩
  | .kcmp .., _ => ⟨_, kept_kcmp ..⟩
  | .poolp .., _ => ⟨_, kept_poolp ..⟩
  | .poola .., _ => ⟨_, kept_poola ..⟩
  | .nats .., _ => ⟨_, kept_nats ..⟩
  | .natx .., _ => ⟨_, kept_natx ..⟩
  | .kbld .., _ => ⟨_, kept_kbld ..⟩
  | .tplr .., _ => ⟨_, kept_tplr ..⟩
  | .init .., _ => ⟨_, kept_init ..⟩
  | .feed .., _ => ⟨_, kept_feed ..⟩
  | .out .., _ => ⟨_, kept_out ..⟩
  | .pktOut .., _ => ⟨_, kept_pktOut ..⟩
  | .pktIn .., _ => ⟨_, kept_pktIn ..⟩
  | .item .., _ => ⟨_, kept_item ..⟩
  | .host .., _ => ⟨_, kept_host ..⟩
  | .timFt .., _ => ⟨_, kept_timFt ..⟩
  | .timDt .., _ => ⟨_, kept_timDt ..⟩
  | .timDtw .., _ => ⟨_, kept_timDtw ..⟩
  | .timAfter .., _ => ⟨_, kept_timAfter ..⟩
  | .seq .., _ => ⟨_, kept_seq ..⟩
  | .br .., _ => ⟨_, kept_br ..⟩
  | .call .., _ => ⟨_, kept_call ..⟩
  | .ret .., _ => ⟨_, kept_ret ..⟩
  | .loop .., _ => ⟨_, kept_loop ..⟩
  | .commit .., _ => ⟨_, kept_commit ..⟩
  | .prepAnswer .., _ => ⟨_, kept_prepAnswer ..⟩
  | .commitPoint, _ => ⟨_, kept_commitPoint ..⟩
  | .abort .., _ => ⟨_, kept_abort ..⟩
  | .routineWallTimeout .., _ => ⟨_, kept_routineWallTimeout ..⟩
  | .kill .., _ => ⟨_, kept_kill ..⟩
  | .killAll .., _ => ⟨_, kept_killAll ..⟩
  | .hold .., _ => ⟨_, kept_hold ..⟩
  | .itemBind .., _ => ⟨_, kept_itemBind ..⟩
  | .routineEnd .., _ => ⟨_, kept_routineEnd ..⟩
  | .freezeWindow, _ => ⟨_, kept_freezeWindow ..⟩
  | .dispatchTimerFire .., _ => ⟨_, kept_dispatchTimerFire ..⟩
  | .hpostGo .., _ => ⟨_, kept_hpostGo ..⟩
  | .clusterWake .., _ => ⟨_, kept_clusterWake ..⟩
  | .clusterAwake .., _ => ⟨_, kept_clusterAwake ..⟩
  | .clusterGate .., _ => ⟨_, kept_clusterGate ..⟩
  | .dramRequest .., _ => ⟨_, kept_dramRequest ..⟩
  | .dramCommandSlot .., _ => ⟨_, kept_dramCommandSlot ..⟩
  | .dramCompletion .., _ => ⟨_, kept_dramCompletion ..⟩
  | .stackParityError .., _ => ⟨_, kept_stackParityError ..⟩
  | .refreshDue .., _ => ⟨_, kept_refreshDue ..⟩
  | .tempReading .., _ => ⟨_, kept_tempReading ..⟩
  | .scrubRead .., _ => ⟨_, kept_scrubRead ..⟩
  | .train .., _ => ⟨_, kept_train ..⟩
  | .trainingDone .., _ => ⟨_, kept_trainingDone ..⟩
  | .trackingRun .., _ => ⟨_, kept_trackingRun ..⟩
  | .rateChange .., _ => ⟨_, kept_rateChange ..⟩
  | .freqDone .., _ => ⟨_, kept_freqDone ..⟩
  | .powerDownEntry .., _ => ⟨_, kept_powerDownEntry ..⟩
  | .powerDownExit .., _ => ⟨_, kept_powerDownExit ..⟩
  | .selfRefreshEntry .., _ => ⟨_, kept_selfRefreshEntry ..⟩
  | .selfRefreshExit .., _ => ⟨_, kept_selfRefreshExit ..⟩
  | .release .., _ => ⟨_, kept_release ..⟩
  | .fence .., _ => ⟨_, kept_fence ..⟩
  | .fenceDone, _ => ⟨_, kept_fenceDone ..⟩
  | .admitCopy .., _ => ⟨_, kept_admitCopy ..⟩
  | .residueRetry .., _ => ⟨_, kept_residueRetry ..⟩
  | .residueTimeout .., _ => ⟨_, kept_residueTimeout ..⟩
  | .recircEnqueue .., _ => ⟨_, kept_recircEnqueue ..⟩
  | .recircHandoff .., _ => ⟨_, kept_recircHandoff ..⟩
  | .pfcFrameSend .., _ => ⟨_, kept_pfcFrameSend ..⟩
  | .pfcRefresh .., _ => ⟨_, kept_pfcRefresh ..⟩
  | .unbindNotice .., _ => ⟨_, kept_unbindNotice ..⟩
  | .schedDecision .., _ => ⟨_, kept_schedDecision ..⟩
  | .frameTransmitted .., _ => ⟨_, kept_frameTransmitted ..⟩
  | .shaperUpdate .., _ => ⟨_, kept_shaperUpdate ..⟩
  | .shaperConfigWrite .., _ => ⟨_, kept_shaperConfigWrite ..⟩
  | .gateChange .., _ => ⟨_, kept_gateChange ..⟩
  | .gateStart .., _ => ⟨_, kept_gateStart ..⟩
  | .gateCancel .., _ => ⟨_, kept_gateCancel ..⟩
  | .gateStop .., _ => ⟨_, kept_gateStop ..⟩
  | .pendingListStart .., _ => ⟨_, kept_pendingListStart ..⟩
  | .gateListEnd .., _ => ⟨_, kept_gateListEnd ..⟩
  | .obsTick, _ => ⟨_, kept_obsTick ..⟩
  | .obsModeWrite .., _ => ⟨_, kept_obsModeWrite ..⟩
  | .evFreeze .., _ => ⟨_, kept_evFreeze ..⟩
  | .evClear .., _ => ⟨_, kept_evClear ..⟩
  | .portStatsClear .., _ => ⟨_, kept_portStatsClear ..⟩
  | .tsForce .., _ => ⟨_, kept_tsForce ..⟩
  | .tsSeedWrite .., _ => ⟨_, kept_tsSeedWrite ..⟩
  | .stripTimeout .., _ => ⟨_, kept_stripTimeout ..⟩
  | .exportScanVisit .., _ => ⟨_, kept_exportScanVisit ..⟩
  | .exportRecordOut, _ => ⟨_, kept_exportRecordOut ..⟩
  | .ipfixFlush, _ => ⟨_, kept_ipfixFlush ..⟩
  | .templateRefresh, _ => ⟨_, kept_templateRefresh ..⟩
  | .bar2Read .., _ => ⟨_, kept_bar2Read ..⟩
  | .bar2Write .., _ => ⟨_, kept_bar2Write ..⟩
  | .twRead .., _ => ⟨_, kept_twRead ..⟩
  | .twWrite .., _ => ⟨_, kept_twWrite ..⟩
  | .twDelete .., _ => ⟨_, kept_twDelete ..⟩
  | .twInsert .., _ => ⟨_, kept_twInsert ..⟩
  | .twTimeout .., _ => ⟨_, kept_twTimeout ..⟩
  | .ringDoorbell .., _ => ⟨_, kept_ringDoorbell ..⟩
  | .ringEnable .., _ => ⟨_, kept_ringEnable ..⟩
  | .injectPacket .., _ => ⟨_, kept_injectPacket ..⟩
  | .recordBufferTimeout .., _ => ⟨_, kept_recordBufferTimeout ..⟩
  | .ringInterrupt .., _ => ⟨_, kept_ringInterrupt ..⟩
  | .dmaError .., _ => ⟨_, kept_dmaError ..⟩
  | .helloTimer .., _ => ⟨_, kept_helloTimer ..⟩
  | .hello .., _ => ⟨_, kept_hello ..⟩
  | .helloTimeout .., _ => ⟨_, kept_helloTimeout ..⟩
  | .linkSetJoin .., _ => ⟨_, kept_linkSetJoin ..⟩
  | .linkSetDown .., _ => ⟨_, kept_linkSetDown ..⟩
  | .data .., _ => ⟨_, kept_data ..⟩
  | .rres .., _ => ⟨_, kept_rres ..⟩
  | .tail .., _ => ⟨_, kept_tail ..⟩
  | .rrec .., _ => ⟨_, kept_rrec ..⟩
  | .ctrlOldest .., _ => ⟨_, kept_ctrlOldest ..⟩
  | .ctrlPrep .., _ => ⟨_, kept_ctrlPrep ..⟩
  | .ready .., _ => ⟨_, kept_ready ..⟩
  | .ctrlCommit .., _ => ⟨_, kept_ctrlCommit ..⟩
  | .mapCommit, _ => ⟨_, kept_mapCommit ..⟩
  | .slotFinal .., _ => ⟨_, kept_slotFinal ..⟩
  | .clean .., _ => ⟨_, kept_clean ..⟩
  | .tsyncReq .., _ => ⟨_, kept_tsyncReq ..⟩
  | .tsyncResp .., _ => ⟨_, kept_tsyncResp ..⟩
  | .ctrlLeave .., _ => ⟨_, kept_ctrlLeave ..⟩
  | .ctrlUnbind .., _ => ⟨_, kept_ctrlUnbind ..⟩
  | .joinReq .., _ => ⟨_, kept_joinReq ..⟩
  | .resetAt .., _ => ⟨_, kept_resetAt ..⟩
  | .form, _ => ⟨_, kept_form ..⟩
  | .join, _ => ⟨_, kept_join ..⟩
  | .leave, _ => ⟨_, kept_leave ..⟩
  | .resetAll, _ => ⟨_, kept_resetAll ..⟩
  | .joinTimeout, _ => ⟨_, kept_joinTimeout ..⟩
  | .ropTimeout .., _ => ⟨_, kept_ropTimeout ..⟩
  | .peerLoss .., _ => ⟨_, kept_peerLoss ..⟩
  | .replRefreshScan, _ => ⟨_, kept_replRefreshScan ..⟩
  | .oldestSend, _ => ⟨_, kept_oldestSend ..⟩
  | .tsyncTimer, _ => ⟨_, kept_tsyncTimer ..⟩
  | .rrecPrepExpiry .., _ => ⟨_, kept_rrecPrepExpiry ..⟩
  | .rrecAnswerTimeout .., _ => ⟨_, kept_rrecAnswerTimeout ..⟩
  | .gangItemOffer, _ => ⟨_, kept_gangItemOffer ..⟩
  | .mpWake, _ => ⟨_, kept_mpWake ..⟩
  | .mpIdleStop, _ => ⟨_, kept_mpIdleStop ..⟩
  | .mpWatchdog, _ => ⟨_, kept_mpWatchdog ..⟩
  | .mpRestart, _ => ⟨_, kept_mpRestart ..⟩
  | .info, _ => ⟨_, kept_info ..⟩
  | .sensors, _ => ⟨_, kept_sensors ..⟩
  | .logRead, _ => ⟨_, kept_logRead ..⟩
  | .logMark, _ => ⟨_, kept_logMark ..⟩
  | .updateWrite, _ => ⟨_, kept_updateWrite ..⟩
  | .updateSelect, _ => ⟨_, kept_updateSelect ..⟩
  | .floorRaise, _ => ⟨_, kept_floorRaise ..⟩
  | .oobDatagram .., _ => ⟨_, kept_oobDatagram ..⟩
  | .sensorSample .., _ => ⟨_, kept_sensorSample ..⟩
  | .logFlashCopy, _ => ⟨_, kept_logFlashCopy ..⟩
  | .slicePark .., _ => ⟨_, kept_slicePark ..⟩
  | .sliceActive .., _ => ⟨_, kept_sliceActive ..⟩
  | .bankGate .., _ => ⟨_, kept_bankGate ..⟩
  | .bankAwake .., _ => ⟨_, kept_bankAwake ..⟩
  | .recoveryStart .., _ => ⟨_, kept_recoveryStart ..⟩
  | .recGo .., _ => ⟨_, kept_recGo ..⟩
  | .recoveryEnd .., _ => ⟨_, kept_recoveryEnd ..⟩
  | .recoveryBoundExpired .., _ => ⟨_, kept_recoveryBoundExpired ..⟩
  | .scheduledDeviceReset, _ => ⟨_, kept_scheduledDeviceReset ..⟩
  | .perstDeasserted .., _ => ⟨_, kept_perstDeasserted ..⟩
  | .msixUnmask .., _ => ⟨_, kept_msixUnmask ..⟩
  | .maxframeExceeded .., _ => ⟨_, kept_maxframeExceeded ..⟩
  | .firmwareHeartbeatTimeout, _ => ⟨_, kept_firmwareHeartbeatTimeout ..⟩
  | .ternaryCommandDone, _ => ⟨_, kept_ternaryCommandDone ..⟩
  | .flashSlotWriteDone .., _ => ⟨_, kept_flashSlotWriteDone ..⟩

/-- The parts that are not work in the device (`Chip.sameWork`). -/
abbrev Part.aside : List Part :=
  [.regs, .wideCap, .wideStage, .hostMem, .freeCtr, .rdData, .time, .mgt, .sfl, .lanes, .ports, .sites, .rules, .tern, .pattern,
    .tm, .sched, .hbm, .tel, .host, .gang, .wds]

theorem kept_aside {s : State} {c : Instr} (hc : leavesWork c = true) : Kept Part.aside s (exec c s) := by
  have hnot : ¬(false = true) := nofun
  cases c with
  | badWrite _ => exact (kept_badWrite ..).mono
  | badRead _ => exact (kept_badRead ..).mono
  | deniedWrite _ _ _ _ => exact (kept_deniedWrite ..).mono
  | busMasterDisable => exact (kept_busMasterDisable ..).mono
  | incrWrite _ => exact (kept_incrWrite ..).mono
  | refLost => exact (kept_refLost ..).mono
  | refLock => exact (kept_refLock ..).mono
  | set => exact (kept_set ..).mono
  | step => exact (kept_step ..).mono
  | slew => exact (kept_slew ..).mono
  | unsched _ => exact (kept_unsched ..).mono
  | sactStateRead _ => exact (kept_sactStateRead ..).mono
  | ppsOutEdge _ => exact (kept_ppsOutEdge ..).mono
  | ppsInEdge => exact (kept_ppsInEdge ..).mono
  | pdelayWrite _ _ => exact (kept_pdelayWrite ..).mono
  | cancel _ => exact (kept_cancel ..).mono
  | sbStateRead _ => exact (kept_sbStateRead ..).mono
  | capClear _ => exact (kept_capClear ..).mono
  | idleRunFreeze _ => exact (kept_idleRunFreeze ..).mono
  | adaptResume _ => exact (kept_adaptResume ..).mono
  | resetAdapt _ => exact (kept_resetAdapt ..).mono
  | ffeWrite _ _ => exact (kept_ffeWrite ..).mono
  | checkerLock _ => exact (kept_checkerLock ..).mono
  | checkerLockLost _ _ _ => exact (kept_checkerLockLost ..).mono
  | pcClear _ => exact (kept_pcClear ..).mono
  | injOne _ => exact (kept_injOne ..).mono
  | periodicInjection _ => exact (kept_periodicInjection ..).mono
  | alignModeSet _ _ => exact (kept_alignModeSet ..).mono
  | bitslip _ => exact (kept_bitslip ..).mono
  | capture _ _ => exact (kept_capture ..).mono
  | polarityInversion _ => exact (kept_polarityInversion ..).mono
  | laneWake _ => exact (kept_laneWake ..).mono
  | lpiEnter _ => exact (kept_lpiEnter ..).mono
  | lpiExit _ => exact (kept_lpiExit ..).mono
  | lpiWakeDone _ => exact (kept_lpiWakeDone ..).mono
  | cvuRunWrite _ _ _ => exact (kept_cvuRunWrite ..).mono
  | pauseExpiry _ _ => exact (kept_pauseExpiry ..).mono
  | intlFall _ _ => exact (kept_intlFall ..).mono
  | monitorPoll _ _ _ => exact (kept_monitorPoll ..).mono
  | busRecovery _ => exact (kept_busRecovery ..).mono
  | xferGo _ _ => exact (kept_xferGo ..).mono
  | fix _ => exact (kept_fix ..).mono
  | latentAbandon => exact (kept_latentAbandon ..).mono
  | cancelFix => exact (kept_cancelFix ..).mono
  | fixExecute => exact (kept_fixExecute ..).mono
  | fixHoldTimeout => exact (kept_fixHoldTimeout ..).mono
  | versionRetire => exact (kept_versionRetire ..).mono
  | ternaryBankGate _ => exact (kept_ternaryBankGate ..).mono
  | patternLineReloaded _ => exact (kept_patternLineReloaded ..).mono
  | patternEngineGate _ => exact (kept_patternEngineGate ..).mono
  | hold _ _ => exact (kept_hold ..).mono
  | freezeWindow => exact (kept_freezeWindow ..).mono
  | clusterWake _ => exact (kept_clusterWake ..).mono
  | clusterAwake _ => exact (kept_clusterAwake ..).mono
  | clusterGate _ => exact (kept_clusterGate ..).mono
  | stackParityError _ _ _ _ => exact (kept_stackParityError ..).mono
  | tempReading _ _ => exact (kept_tempReading ..).mono
  | train _ => exact (kept_train ..).mono
  | trainingDone _ _ => exact (kept_trainingDone ..).mono
  | trackingRun _ _ => exact (kept_trackingRun ..).mono
  | rateChange _ _ => exact (kept_rateChange ..).mono
  | freqDone _ => exact (kept_freqDone ..).mono
  | powerDownEntry _ => exact (kept_powerDownEntry ..).mono
  | powerDownExit _ => exact (kept_powerDownExit ..).mono
  | selfRefreshExit _ => exact (kept_selfRefreshExit ..).mono
  | release _ _ => exact (kept_release ..).mono
  | fence _ => exact (kept_fence ..).mono
  | fenceDone => exact (kept_fenceDone ..).mono
  | unbindNotice _ _ => exact (kept_unbindNotice ..).mono
  | gateChange _ => exact (kept_gateChange ..).mono
  | gateCancel _ => exact (kept_gateCancel ..).mono
  | gateStop _ => exact (kept_gateStop ..).mono
  | gateListEnd _ => exact (kept_gateListEnd ..).mono
  | obsTick => exact (kept_obsTick ..).mono
  | obsModeWrite _ => exact (kept_obsModeWrite ..).mono
  | evFreeze _ => exact (kept_evFreeze ..).mono
  | evClear _ => exact (kept_evClear ..).mono
  | portStatsClear _ => exact (kept_portStatsClear ..).mono
  | tsForce _ => exact (kept_tsForce ..).mono
  | tsSeedWrite _ => exact (kept_tsSeedWrite ..).mono
  | bar2Read _ _ => exact (kept_bar2Read ..).mono
  | ringDoorbell _ _ => exact (kept_ringDoorbell ..).mono
  | ringEnable _ _ => exact (kept_ringEnable ..).mono
  | recordBufferTimeout _ => exact (kept_recordBufferTimeout ..).mono
  | ringInterrupt _ => exact (kept_ringInterrupt ..).mono
  | dmaError _ => exact (kept_dmaError ..).mono
  | linkSetJoin _ => exact (kept_linkSetJoin ..).mono
  | joinTimeout => exact (kept_joinTimeout ..).mono
  | mpWake => exact (kept_mpWake ..).mono
  | mpIdleStop => exact (kept_mpIdleStop ..).mono
  | logFlashCopy => exact (kept_logFlashCopy ..).mono
  | slicePark _ => exact (kept_slicePark ..).mono
  | sliceActive _ => exact (kept_sliceActive ..).mono
  | bankAwake _ => exact (kept_bankAwake ..).mono
  | perstDeasserted _ => exact (kept_perstDeasserted ..).mono
  | msixUnmask _ => exact (kept_msixUnmask ..).mono
  | ternaryCommandDone => exact (kept_ternaryCommandDone ..).mono
  | _ => exact absurd hc hnot

/-! ### Soundness -/

theorem aonRuns.ordered {p : Power} (h : aonRuns p) : p.ordered := ⟨fun _ => h.1, fun _ => h.2⟩

/-- A running always-on domain, or none of the supplies that need it. -/
theorem vin_of_ordered {p : Power} (h : p.ordered) (haon : p.aon = false) : p.vin = false := by
  have hvin := h.1
  rw [haon] at hvin
  exact Bool.eq_false_of_not_eq_true fun hv => absurd (hvin hv) nofun

theorem Kept.sound {M : List Part} {s t : State} {r : Out} (h : Kept M s r) (hs : s.chip.sound) (haon : s.chip.power.aon = true)
    (ht : r = .next t) : t.chip.sound :=
  (h.within t ht).sound hs haon

/-- A command that leaves the supplies as they are. -/
theorem Kept.sound_of_power {M : List Part} {s t : State} {r : Out} (h : Kept M s r) (hs : s.chip.sound) (ht : r = .next t)
    (hM : Part.power ∉ M := by decide) : t.chip.sound :=
  ⟨(h.within t ht).canonical hs.1, (h.within t ht).power_eq hM ▸ hs.2⟩

theorem canonical_vsbLoss {c : Chip} (h : c.canonical) : c.vsbLoss.canonical := by
  unfold Chip.vsbLoss
  split
  · exact h
  · obtain ⟨hregs, hdram, hhost⟩ := (within_cold c).canonical h
    exact ⟨smFilter_wf _ hregs, hdram, hhost⟩

theorem sound_vsbLoss {c : Chip} (h : c.sound) : c.vsbLoss.sound := by
  refine ⟨canonical_vsbLoss h.1, ?_⟩
  unfold Chip.vsbLoss
  split
  · exact h.2
  · exact ⟨nofun, nofun⟩

theorem sound_vsbRise {c : Chip} (h : c.sound) : c.vsbRise.sound := by
  refine ⟨(within_vsbRise c).canonical h.1, ?_⟩
  unfold Chip.vsbRise
  split
  · exact h.2
  · exact ⟨fun _ => rfl, fun _ => rfl⟩

theorem sound_vinQualified {c : Chip} (h : c.sound) (haon : c.power.aon = false) : c.vinQualified.sound := by
  unfold Chip.vinQualified
  simpa only [haon, Bool.not_false, Bool.true_or, if_true] using h

theorem sound_vinLoss {c : Chip} (h : c.sound) (haon : c.power.aon = false) : c.vinLoss.sound := by
  unfold Chip.vinLoss
  rw [vin_of_ordered h.2 haon, if_neg nofun]
  exact h

theorem sound_vinOver {c : Chip} (h : c.sound) (haon : c.power.aon = false) (mv : Nat) : (c.vinOver mv).sound := by
  unfold Chip.vinOver
  rwa [vin_of_ordered h.2 haon, if_neg nofun]

/-- Without the always-on domain only VSB_RISE and VSB_LOSS change the supplies. -/
theorem exec_sound_unpowered {s t : State} {c : Instr} (hs : s.chip.sound) (haon : s.chip.power.aon = false)
    (ht : exec c s = .next t) : t.chip.sound := by
  have hvin := vin_of_ordered hs.2 haon
  have hother (h : reachesUnpowered c = false) : t.chip.sound := by
    cases (exec_unpowered hvin h).symm.trans ht
    exact hs
  cases c with
  | vsbRise => cases ht; exact sound_vsbRise hs
  | vsbLoss => cases ht; exact sound_vsbLoss hs
  | vinQualified => cases ht; exact sound_vinQualified hs haon
  | vinLoss => cases ht; exact sound_vinLoss hs haon
  | vinOver mv => cases ht; exact sound_vinOver hs haon _
  | fundamentalReset => exact (kept_fundamentalReset s).sound_of_power hs ht
  | perstDeasserted link => exact (kept_perstDeasserted link s).sound_of_power hs ht
  | moduleInsert site => exact (kept_moduleInsert site s).sound_of_power hs ht
  | moduleRemove site => exact (kept_moduleRemove site s).sound_of_power hs ht
  | logFlashCopy => exact (kept_logFlashCopy s).sound_of_power hs ht
  | _ => exact hother rfl

theorem exec_sound {s t : State} {c : Instr} (hs : s.chip.sound) (ht : exec c s = .next t) : t.chip.sound := by
  cases haon : s.chip.power.aon with
  | false => exact exec_sound_unpowered hs haon ht
  | true =>
    by_cases hc : c = .vsbLoss
    · subst hc
      cases ht
      exact sound_vsbLoss hs
    · obtain ⟨M, hM⟩ := kept_exec s c hc
      exact hM.sound hs haon ht

/-- Settles O4: a command keeps the device sound, and a step takes one command off the queue. -/
theorem everyStepKeepsTheStateSound : Obligations.EveryStepKeepsTheStateSound := by
  unfold Obligations.EveryStepKeepsTheStateSound
  intro s t hs ht
  obtain ⟨hchip, hqueue⟩ := hs
  cases hp : s.pending with
  | nil =>
    cases (step_nil hp).symm.trans ht
    exact ⟨hchip, hqueue⟩
  | cons c r =>
    rw [step_cons hp] at ht
    obtain ⟨u, hu, hpend⟩ := exec_next { s with pending := r } c
    cases hu.symm.trans ht
    refine ⟨exec_sound (s := { s with pending := r }) hchip ht, fun i hi => hqueue i ?_⟩
    rw [hpend] at hi
    exact hp ▸ List.mem_cons_of_mem _ hi

/-- Settles O5: each of these commands changes parts outside the work alone. -/
theorem localCommandsLeaveTheWorkAlone : Obligations.LocalCommandsLeaveTheWorkAlone := by
  unfold Obligations.LocalCommandsLeaveTheWorkAlone
  intro s c hc
  obtain ⟨t, ht, hp⟩ := exec_next s c
  have h := (kept_aside (s := s) hc).within t ht
  exact ⟨t, ht, ⟨h.dram_eq, h.flash_eq, h.power_eq, h.pkts_eq, h.parse_eq, h.flow_eq, h.act_eq, h.plate_eq, h.recov_eq⟩, hp⟩

end Sys2Proof.Proofs
end

section
/-!
Supplies, starts and resets (R36, R38, R513, R540, R544, R546, R584, R608, R622), and the event log they write.
-/
namespace Sys2Proof.Proofs
open Sys2Proof Sys2Proof.Machine
set_option Elab.async false

/-! ### The event log (R550) -/

section
variable (c : Chip) (source severity code inst data : Nat)

/-- A log entry changes the registers, the log, and that a first entry is due. -/
@[simp] theorem log_rest (d : Chip) (hd : d = c.log source severity code inst data) :
    d.dram = c.dram ∧ d.flash = c.flash ∧ d.time = c.time ∧ d.sfl = c.sfl ∧ d.pkts = c.pkts ∧ d.ports = c.ports ∧
    d.gang = c.gang ∧ d.recov = c.recov ∧ d.plate = c.plate := by
  have h := hd ▸ within_log c source severity code inst data
  exact ⟨h.dram_eq, h.flash_eq, h.time_eq, h.sfl_eq, h.pkts_eq, h.ports_eq, h.gang_eq, h.recov_eq, h.plate_eq⟩

/-- The next entry of the log. -/
def logEntry : LogEntry :=
  ⟨c.mgt.nextSeq, c.dtw, source, severity, code, inst, b2n c.timeValid + 2 * b2n c.power.firstEntry, data⟩

/-- The device that counts a lost entry (R550), but for the next SEQ. -/
def logLost : Chip := (c.bump F.MGT_LOG_STATUS.LOST).raise F.MGT_EVENTS.LOG_LOST

/-- The device that lost an entry. -/
def logFull : Chip := { logLost c with mgt := { c.mgt with nextSeq := c.mgt.nextSeq + 1 } }

theorem logFull_power : (logFull c).power = (logLost c).power :=
  ((Within.refl [.mgt] (logLost c)).mgt _).power_eq

theorem logFull_regs : (logFull c).regs = (logLost c).regs :=
  ((Within.refl [.mgt] (logLost c)).mgt _).regs_eq

/-- The device with an entry at the end of its log, but for the count of entries. -/
def logged : Chip :=
  { c.putQ F.MGT_LOG_HEAD.V c.mgt.nextSeq with
    mgt := { c.mgt with
      logBuf := c.mgt.logBuf ++ [logEntry c source severity code inst data]
      nextSeq := c.mgt.nextSeq + 1 }
    power := { c.power with firstEntry := false } }

theorem logged_power : (logged c source severity code inst data).power = { c.power with firstEntry := false } := rfl

theorem logged_mgt : (logged c source severity code inst data).mgt =
    { c.mgt with
      logBuf := c.mgt.logBuf ++ [logEntry c source severity code inst data]
      nextSeq := c.mgt.nextSeq + 1 } := rfl

theorem logged_regs : (logged c source severity code inst data).regs = (c.putQ F.MGT_LOG_HEAD.V c.mgt.nextSeq).regs := rfl

theorem log_of_aon_off (haon : c.power.aon = false) : c.log source severity code inst data = c := by
  unfold Chip.log
  rw [haon]
  exact if_pos rfl

theorem log_of_full (haon : c.power.aon = true) (hfull : 1024 ≤ c.mgt.logBuf.length) :
    c.log source severity code inst data = logFull c := by
  unfold Chip.log
  rw [haon, if_neg nofun, if_pos hfull]
  rfl

theorem log_of_room (haon : c.power.aon = true) (hroom : ¬1024 ≤ c.mgt.logBuf.length) :
    c.log source severity code inst data = (logged c source severity code inst data).putF F.MGT_LOG_STATUS.BUFFERED
      (logged c source severity code inst data).mgt.logBuf.length := by
  unfold Chip.log
  rw [haon, if_neg nofun, if_neg hroom]
  rfl

theorem quiet_logLost : c.quiet (logLost c) := Chip.quiet_trans (Chip.quiet_bump ..) (Chip.quiet_raise ..)

/-- Of the supplies' state a log entry changes only whether it is the first. -/
theorem log_power : ∃ b, (c.log source severity code inst data).power = { c.power with firstEntry := b } := by
  cases haon : c.power.aon with
  | false => exact ⟨c.power.firstEntry, by rw [log_of_aon_off _ _ _ _ _ _ haon]⟩
  | true =>
    by_cases hfull : 1024 ≤ c.mgt.logBuf.length
    · refine ⟨c.power.firstEntry, ?_⟩
      rw [log_of_full _ _ _ _ _ _ haon hfull]
      rw [logFull_power, (quiet_logLost c).power]
    · refine ⟨false, ?_⟩
      rw [log_of_room _ _ _ _ _ _ haon hfull, (Chip.quiet_putF ..).power, logged_power]

theorem log_logBuf (haon : c.power.aon = true) (hroom : c.mgt.logBuf.length < 1024) :
    (c.log source severity code inst data).mgt.logBuf = c.mgt.logBuf ++ [logEntry c source severity code inst data] := by
  rw [log_of_room _ _ _ _ _ _ haon (by omega), (Chip.quiet_putF ..).mgt, logged_mgt]

theorem rd_of_regs {c d : Chip} (h : d.regs = c.regs) (k : Nat) : d.rd k = c.rd k := by
  rw [Chip.rd, h, ← Chip.rd]

theorem rd_log {k : Nat} (hk : k < 0x30000 ∨ 0x30500 ≤ k) (hpba : offPba k) :
    (c.log source severity code inst data).rd k = c.rd k := by
  have hhead : F.MGT_LOG_HEAD.V.addr = 0x30400 := rfl
  have hstatus : F.MGT_LOG_STATUS.BUFFERED.addr = 0x30408 := rfl
  have hlost : F.MGT_LOG_STATUS.LOST.addr = 0x30408 := rfl
  have hevents : F.MGT_EVENTS.LOG_LOST.addr = 0x30008 := rfl
  cases haon : c.power.aon with
  | false => rw [log_of_aon_off _ _ _ _ _ _ haon]
  | true =>
    by_cases hfull : 1024 ≤ c.mgt.logBuf.length
    · rw [log_of_full _ _ _ _ _ _ haon hfull]
      rw [rd_of_regs (logFull_regs c), logLost, Chip.rd_raise (by omega) hpba.not_isPba, Chip.bump, Chip.rd_putF_ne (by omega)]
    · rw [log_of_room _ _ _ _ _ _ haon hfull, Chip.rd_putF_ne (by omega)]
      rw [rd_of_regs (logged_regs ..), Chip.rd_putQ_ne (by omega) (by omega)]

end

/-! ### A start and the rails off (R513, R544, R546) -/

/-- What the always-on domain and the world outside keep of the device when the rails go off, but for the log's count and the
modules present. -/
def coldBase (c : Chip) : Chip :=
  { Chip.reset with
    regs := c.regs.filter fun e => (0x20000 ≤ e.1 ∧ e.1 < 0x30000) ∨ e.1 = F.MGT_LOG_HEAD.V.base ∨ e.1 = F.MGT_LOG_HEAD.V.base + 4
    hostMem := c.hostMem
    freeCtr := c.freeCtr
    rdData := c.rdData
    power := c.power
    flash := c.flash
    sfl := c.sfl
    mgt := { MgtSt.reset with logBuf := c.mgt.logBuf, logFlash := c.mgt.logFlash, nextSeq := c.mgt.nextSeq, oobReplies := c.mgt.oobReplies }
    host := { Chip.reset.host with perst := c.host.perst } }

theorem cold_eq (c : Chip) : c.cold = (List.range 128).foldl (fun k m =>
    if c.flag F.PRT_SITE_STATUS.PRESENT m then k.putF F.PRT_SITE_STATUS.PRESENT 1 m else k)
    ((coldBase c).putF F.MGT_LOG_STATUS.BUFFERED c.mgt.logBuf.length) := by
  rw [coldBase, ← filterMap_ite]
  rfl

theorem quiet_cold (c : Chip) : (coldBase c).quiet c.cold := by
  rw [cold_eq]
  refine Chip.quiet_trans (Chip.quiet_putF ..) (quiet_foldl (fun d m => ?_) _)
  split
  · exact Chip.quiet_putF ..
  · exact d.quiet_refl

/-- The parts of the device with its rails off. -/
@[simp] theorem cold_parts (c : Chip) :
    c.cold.power = c.power ∧ c.cold.flash = c.flash ∧ c.cold.sfl = c.sfl ∧ c.cold.dram = [] ∧ c.cold.pkts = [] ∧
    c.cold.ports = [] ∧ c.cold.time = TimeSt.reset ∧ c.cold.gang = GangSt.reset ∧ c.cold.mgt.logBuf = c.mgt.logBuf ∧
    c.cold.mgt.logFlash = c.mgt.logFlash ∧ c.cold.mgt.nextSeq = c.mgt.nextSeq ∧ c.cold.hostMem = c.hostMem := by
  have h := quiet_cold c
  exact ⟨h.power, h.flash, h.sfl, h.dram, h.pkts, h.ports, h.time, h.gang, by rw [h.mgt, coldBase],
    by rw [h.mgt, coldBase], by rw [h.mgt, coldBase], (within_cold c).hostMem_eq⟩

theorem foldl_rd {α : Type} {f : Chip → α → Chip} {k : Nat} (hf : ∀ d x, (f d x).rd k = d.rd k) (l : List α) (c : Chip) :
    (l.foldl f c).rd k = c.rd k :=
  List.foldlRecOn (motive := fun d => d.rd k = c.rd k) l f rfl fun d hd x _ => (hf d x).trans hd

theorem smFind_filter {β : Type} (p : Nat × β → Bool) (m : SMap β) (k : Nat) (hp : ∀ v, p (k, v) = true) :
    smFind (m.filter p) k = smFind m k := by
  induction m with
  | nil => rfl
  | cons e m ih =>
    obtain ⟨a, b⟩ := e
    by_cases ha : a = k
    · subst ha
      simp [hp, smFind]
    · cases hab : p (a, b) <;> simp [hab, smFind, ha, ih]

theorem smFind_filter_out {β : Type} (p : Nat × β → Bool) (m : SMap β) (k : Nat) (hp : ∀ v, p (k, v) = false) :
    smFind (m.filter p) k = none := by
  induction m with
  | nil => rfl
  | cons e m ih =>
    obtain ⟨a, b⟩ := e
    by_cases ha : a = k
    · subst ha
      simp [hp, ih]
    · cases hab : p (a, b) <;> simp [hab, smFind, ha, ih]

/-- With the rails off a register outside the sites' and the log's is the partition's or at its reset value. -/
theorem rd_cold {c : Chip} {k : Nat} (hk : k < 0x30000 ∨ 0x30500 ≤ k) (hsite : ∀ m, k ≠ F.PRT_SITE_STATUS.PRESENT.addr m) :
    c.cold.rd k = if 0x20000 ≤ k ∧ k < 0x30000 then c.rd k else regReset k := by
  have hhead : F.MGT_LOG_HEAD.V.base = 0x30400 := rfl
  have hstatus : F.MGT_LOG_STATUS.BUFFERED.addr = 0x30408 := rfl
  rw [cold_eq, foldl_rd, Chip.rd_putF_ne (by omega)]
  · show smGet regReset (c.regs.filter _) k = _
    split
    next hin => rw [smGet, smFind_filter _ _ _ fun v => decide_eq_true (.inl hin)]; rfl
    next hout => rw [smGet, smFind_filter_out _ _ _ fun v => decide_eq_false (by simp only; omega)]; rfl
  · intro d m
    split
    · exact Chip.rd_putF_ne (hsite m)
    · rfl

/-- The device that a start leaves before the start is logged. -/
def started (c : Chip) (why : Nat) : Chip :=
  { c.cold with
    power := { c.cold.power with
      vin := true
      offHeld := false
      idleAll := false
      firstEntry := true
      aonFault := false
      bar0Gated := why == 1
      loadDue := true
      fresh := false
      unrec := false }
    time := { c.cold.time with incr := Config.incrCalibration % 2 ^ 48 } }

/-- The start with its registers. -/
def startedRegs (c : Chip) (why : Nat) : Chip :=
  (List.range 128).foldl (fun k m => if k.flag F.PRT_SITE_STATUS.PRESENT m then k.raise F.PRT_SITE_EVENTS.INSERT m else k)
    (((started c why).putQ F.TIM_INCR.V (Config.incrCalibration % 2 ^ 48)).putF F.GLB_STATUS.WATCH_MODE 1)

theorem start_eq (c : Chip) (why : Nat) : c.start why = (startedRegs c why).log 18 0 0x0001 0 why := rfl

theorem quiet_startedRegs (c : Chip) (why : Nat) : (started c why).quiet (startedRegs c why) := by
  refine Chip.quiet_trans (Chip.quiet_trans (Chip.quiet_putQ ..) (Chip.quiet_putF ..)) (quiet_foldl (fun d m => ?_) _)
  split
  · exact Chip.quiet_raise ..
  · exact d.quiet_refl

theorem started_power (c : Chip) (why : Nat) : (started c why).power = { c.cold.power with
    vin := true
    offHeld := false
    idleAll := false
    firstEntry := true
    aonFault := false
    bar0Gated := why == 1
    loadDue := true
    fresh := false
    unrec := false } := rfl

theorem started_time (c : Chip) (why : Nat) :
    (started c why).time = { c.cold.time with incr := Config.incrCalibration % 2 ^ 48 } := rfl

theorem within_started (c : Chip) (why : Nat) : Within [.power, .time] c.cold (started c why) :=
  (Within.refl [.power, .time] c.cold).parts [.power, .time]

/-- The supplies' state after a start. -/
theorem start_power (c : Chip) (why : Nat) : ∃ b, (c.start why).power = { c.power with
    vin := true
    offHeld := false
    idleAll := false
    firstEntry := b
    aonFault := false
    bar0Gated := why == 1
    loadDue := true
    fresh := false
    unrec := false } := by
  obtain ⟨b, hb⟩ := log_power (startedRegs c why) 18 0 0x0001 0 why
  exact ⟨b, by rw [start_eq, hb, (quiet_startedRegs c why).power, started_power, (quiet_cold c).power, coldBase]⟩

/-- What a start empties, and what it leaves. -/
theorem start_rest (c : Chip) (why : Nat) :
    (c.start why).flash = c.flash ∧ (c.start why).sfl = c.sfl ∧ (c.start why).dram = [] ∧ (c.start why).pkts = [] ∧
    (c.start why).ports = [] ∧ (c.start why).gang = GangSt.reset ∧
    (c.start why).time = { TimeSt.reset with incr := Config.incrCalibration % 2 ^ 48 } := by
  obtain ⟨hdram, hflash, htime, hsfl, hpkts, hports, hgang, -⟩ := log_rest (startedRegs c why) 18 0 0x0001 0 why _ rfl
  obtain ⟨-, cflash, csfl, cdram, cpkts, cports, ctime, cgang, -⟩ := cold_parts c
  have q := quiet_startedRegs c why
  have w := within_started c why
  rw [start_eq]
  exact ⟨by rw [hflash, q.flash, w.flash_eq, cflash], by rw [hsfl, q.sfl, w.sfl_eq, csfl],
    by rw [hdram, q.dram, w.dram_eq, cdram], by rw [hpkts, q.pkts, w.pkts_eq, cpkts],
    by rw [hports, q.ports, w.ports_eq, cports], by rw [hgang, q.gang, w.gang_eq, cgang],
    by rw [htime, q.time, started_time, ctime]⟩

/-- A start changes a register outside of those it names as the rails' fall does. -/
theorem rd_start {c : Chip} {why k : Nat} (hk : k < 0x30000 ∨ 0x30500 ≤ k) (hpba : offPba k) (hincr : k ≠ 0x40020 ∧ k ≠ 0x40024)
    (hwatch : k ≠ 0x40) (hsite : ∀ m, k ≠ F.PRT_SITE_EVENTS.INSERT.addr m) : (c.start why).rd k = c.cold.rd k := by
  have hinc : F.TIM_INCR.V.addr = 0x40020 := rfl
  have hglb : F.GLB_STATUS.WATCH_MODE.addr = 0x40 := rfl
  rw [start_eq, rd_log _ _ _ _ _ _ hk hpba, startedRegs, foldl_rd, Chip.rd_putF_ne (by omega),
    Chip.rd_putQ_ne (by omega) (by omega), rd_of_regs (within_started c why).regs_eq]
  intro d m
  split
  · exact Chip.rd_raise (hsite m) hpba.not_isPba
  · rfl

theorem getF_of_rd {c d : Chip} {f : Fld} {i j : Nat} (h : d.rd (f.addr i j) = c.rd (f.addr i j)) :
    d.getF f i j = c.getF f i j := by
  rw [Chip.getF, h, ← Chip.getF]

theorem timeValid_start (c : Chip) (why : Nat) : (c.start why).timeValid = false := by
  have haddr : F.GLB_STATUS.TIME_VALID.addr = 0x40 := rfl
  have hsite (m : Nat) : F.PRT_SITE_EVENTS.INSERT.addr m = 0x300C08 + m * 0x4000 + 0 * 0 := rfl
  have hpresent (m : Nat) : F.PRT_SITE_STATUS.PRESENT.addr m = 0x300C04 + m * 0x4000 + 0 * 0 := rfl
  have hinc : F.TIM_INCR.V.addr = 0x40020 := rfl
  have hraise : ((startedRegs c why).getF F.GLB_STATUS.TIME_VALID) = (((started c why).putQ F.TIM_INCR.V
      (Config.incrCalibration % 2 ^ 48)).putF F.GLB_STATUS.WATCH_MODE 1).getF F.GLB_STATUS.TIME_VALID := by
    refine getF_of_rd (foldl_rd (fun d m => ?_) _ _)
    split
    · have := hsite m
      exact Chip.rd_raise (by omega) (offPba.not_isPba (by decide))
    · rfl
  have hcold : c.cold.getF F.GLB_STATUS.TIME_VALID = bitsOf 4 4 (regReset 0x40).toNat := by
    rw [Chip.getF, haddr, rd_cold (by decide) fun m => by have := hpresent m; omega]
    rfl
  have hreset : bitsOf 4 4 (regReset 0x40).toNat = 0 := by decide
  rw [Chip.timeValid, Chip.flag, start_eq, getF_of_rd (rd_log _ _ _ _ _ _ (by decide) (by decide)), hraise,
    getF_putF_apart (by decide) (by decide), getF_putQ_apart (by decide) (by decide),
    getF_of_rd (rd_of_regs (within_started c why).regs_eq _), hcold, hreset]
  rfl

/-! ### Supplies (R546, R608, R622) -/

/-- The parts of the device once VSB is lost. -/
theorem vsbLoss_parts {c : Chip} (hvsb : c.power.vsb = true) :
    c.vsbLoss.power.vsb = false ∧ c.vsbLoss.power.vin = false ∧ c.vsbLoss.power.aon = false ∧ c.vsbLoss.flash = c.flash ∧
    c.vsbLoss.hostMem = c.hostMem ∧ c.vsbLoss.dram = [] ∧ c.vsbLoss.mgt.logBuf = [] ∧
    c.vsbLoss.mgt.logFlash = c.mgt.logFlash ∧ c.vsbLoss.mgt.nextSeq = c.mgt.nextSeq := by
  obtain ⟨-, hflash, -, hdram, -, -, -, -, -, hlogFlash, hseq, hhost⟩ := cold_parts c
  unfold Chip.vsbLoss
  rw [hvsb, if_neg nofun]
  generalize c.cold = k at hflash hdram hlogFlash hseq hhost
  exact ⟨rfl, rfl, rfl, hflash, hhost, hdram, rfl, hlogFlash, hseq⟩

theorem vsbRise_eq {c : Chip} (hvsb : c.power.vsb = false) :
    ({ c with power := { c.power with vsb := true, aon := true, fresh := true } } : Chip).quiet c.vsbRise := by
  unfold Chip.vsbRise
  rw [hvsb, if_neg nofun]
  exact Chip.quiet_trans (Chip.quiet_putF ..) (Chip.quiet_putQ ..)

theorem vinQualified_eq {c : Chip} (haon : c.power.aon = true) (hvin : c.power.vin = false) (hheld : c.power.offHeld = false) :
    c.vinQualified = c.start (if c.power.fresh then 0 else 2) := by
  unfold Chip.vinQualified
  rw [haon, hvin, hheld]
  exact if_neg nofun

/-- The parts of the device with its rails switched off. -/
theorem railsOff_parts (c : Chip) (held : Bool) :
    (c.railsOff held).power.vin = false ∧ (c.railsOff held).power.aon = c.power.aon ∧ (c.railsOff held).power.offHeld = held ∧
    (c.railsOff held).dram = [] ∧ (c.railsOff held).pkts = [] ∧ (c.railsOff held).flash = c.flash ∧
    (c.railsOff held).sfl = c.sfl ∧ (c.railsOff held).mgt.logBuf = c.mgt.logBuf := by
  obtain ⟨hpower, hflash, hsfl, hdram, hpkts, -, -, -, hlog, -⟩ := cold_parts c
  have haon : c.cold.power.aon = c.power.aon := by rw [hpower]
  unfold Chip.railsOff
  generalize c.cold = k at haon hflash hsfl hdram hpkts hlog
  exact ⟨rfl, haon, rfl, hdram, hpkts, hflash, hsfl, hlog⟩

/-- Settles O18: the rails' fall and a start, part by part. -/
theorem suppliesStartAndStopTheDevice : Obligations.SuppliesStartAndStopTheDevice := by
  unfold Obligations.SuppliesStartAndStopTheDevice
  refine ⟨fun s hvsb => ?_, fun s hvsb => ?_, fun s haon hvin hheld => ?_, fun s hheld => ?_, fun s hvin => ?_,
    fun s hvin => ?_, fun s mv hvin haon hroom => ?_⟩
  · have h := vsbRise_eq hvsb
    exact ⟨_, rfl, h.power, h.flash, h.mgt⟩
  · exact ⟨_, rfl, vsbLoss_parts hvsb⟩
  · obtain ⟨b, hb⟩ := start_power s.chip (if s.chip.power.fresh then 0 else 2)
    obtain ⟨hflash, hsfl, hdram, hpkts, -, -, htime⟩ := start_rest s.chip (if s.chip.power.fresh then 0 else 2)
    have hvalid := timeValid_start s.chip (if s.chip.power.fresh then 0 else 2)
    have hgate : ((if s.chip.power.fresh then 0 else 2) == 1) = false := by cases s.chip.power.fresh <;> rfl
    rw [← vinQualified_eq haon hvin hheld] at hb hflash hsfl hdram hpkts htime hvalid
    exact ⟨_, rfl, by rw [hb], by rw [hb], by rw [hb]; exact hgate, by rw [htime]; rfl, by rw [htime]; rfl, hvalid, hdram,
      hpkts, hflash, hsfl, by rw [htime]⟩
  · have hself : s.chip.vinQualified = s.chip := by
      unfold Chip.vinQualified
      rw [hheld, Bool.or_true]
      exact if_pos rfl
    change State.onAny s _ = _
    rw [State.onAny_eq, hself]
  · have hloss : s.chip.vinLoss = (s.chip.log 18 3 0x0009 0 0).railsOff false := by
      unfold Chip.vinLoss
      rw [hvin, if_pos rfl]
    obtain ⟨koff, kaon, kheld, kdram, kpkts, kflash, ksfl, -⟩ := railsOff_parts (s.chip.log 18 3 0x0009 0 0) false
    obtain ⟨-, lflash, -, lsfl, -⟩ := log_rest s.chip 18 3 0x0009 0 0 _ rfl
    obtain ⟨b, hb⟩ := log_power s.chip 18 3 0x0009 0 0
    rw [← hloss] at koff kaon kheld kdram kpkts kflash ksfl
    exact ⟨_, rfl, koff, kaon.trans (by rw [hb]), kheld, kdram, kpkts, kflash.trans lflash, ksfl.trans lsfl⟩
  · change State.onAny s _ = _
    unfold Chip.vinLoss
    rw [State.onAny_eq, hvin, if_neg nofun]
  · have hover : s.chip.vinOver mv.val =
        ((s.chip.raise F.MGT_EVENTS.VIN_RANGE).log 0 3 0x0207 0 (mv.val % 65536)).railsOff false := by
      unfold Chip.vinOver
      rw [hvin, if_pos rfl]
    have q := Chip.quiet_raise s.chip F.MGT_EVENTS.VIN_RANGE 0
    obtain ⟨koff, -, -, -, -, -, -, klog⟩ :=
      railsOff_parts ((s.chip.raise F.MGT_EVENTS.VIN_RANGE).log 0 3 0x0207 0 (mv.val % 65536)) false
    rw [log_logBuf _ _ _ _ _ _ (by rw [q.power, haon]) (by rw [q.mgt]; exact hroom), q.mgt, ← hover] at klog
    rw [← hover] at koff
    exact ⟨_, _, rfl, koff, klog, rfl, rfl, Nat.mod_eq_of_lt mv.isLt⟩

/-! ### Device resets (R513, R540) -/

theorem deviceReset_quiet (c : Chip) : (c.start 1).quiet c.deviceReset := Chip.quiet_wr ..

/-- The parts of the device after a device reset. -/
theorem deviceReset_parts (c : Chip) :
    c.deviceReset.power.vin = true ∧ c.deviceReset.power.aon = c.power.aon ∧ c.deviceReset.power.vsb = c.power.vsb ∧
    c.deviceReset.power.bar0Gated = true ∧ c.deviceReset.power.loadDue = true ∧ c.deviceReset.time.acc = 0 ∧
    c.deviceReset.dram = [] ∧ c.deviceReset.pkts = [] ∧ c.deviceReset.ports = [] ∧ c.deviceReset.gang = GangSt.reset ∧
    c.deviceReset.flash = c.flash ∧ c.deviceReset.sfl = c.sfl := by
  have q := deviceReset_quiet c
  obtain ⟨b, hb⟩ := start_power c 1
  obtain ⟨hflash, hsfl, hdram, hpkts, hports, hgang, htime⟩ := start_rest c 1
  rw [q.power, q.time, q.dram, q.pkts, q.ports, q.gang, q.flash, q.sfl, hb, hflash, hsfl, hdram, hpkts, hports, hgang, htime]
  exact ⟨rfl, rfl, rfl, rfl, rfl, rfl, rfl, rfl, rfl, rfl, rfl, rfl⟩

theorem rd_deviceReset_ne {c : Chip} {k : Nat} (hk : k ≠ F.HST_LINK_STATUS.all.base) :
    c.deviceReset.rd k = (c.start 1).rd k :=
  Chip.rd_wr_ne hk

theorem timeValid_deviceReset (c : Chip) : c.deviceReset.timeValid = false := by
  rw [Chip.timeValid, Chip.flag, getF_of_rd (rd_deviceReset_ne (by decide)), ← Chip.flag, ← Chip.timeValid, timeValid_start]

theorem rd_deviceReset_partition {c : Chip} {k : Nat} (h : 0x20000 ≤ k) (hk : k < 0x30000) : c.deviceReset.rd k = c.rd k := by
  have hlink : F.HST_LINK_STATUS.all.base = 0x89000 := rfl
  have hinsert (m : Nat) : F.PRT_SITE_EVENTS.INSERT.addr m = 0x300C08 + m * 0x4000 + 0 * 0 := rfl
  have hpresent (m : Nat) : F.PRT_SITE_STATUS.PRESENT.addr m = 0x300C04 + m * 0x4000 + 0 * 0 := rfl
  rw [rd_deviceReset_ne (by omega), rd_start (.inl hk) (.inl (by omega)) (by omega) (by omega)
    (fun m => by have := hinsert m; omega), rd_cold (.inl hk) (fun m => by have := hpresent m; omega), if_pos ⟨h, hk⟩]

theorem resetWrite_allowed {c : Chip} (h : c.resetAllowed = true) : c.resetWrite 0x0512A5A5 = c.deviceReset := by
  unfold Chip.resetWrite
  rw [h, if_neg (by decide)]
  exact if_neg nofun

theorem resetDue_none {c : Chip} (h : c.gang.resetAt = none) : c.resetDue = c := by
  unfold Chip.resetDue
  rw [h]

theorem resetDue_due {c : Chip} {d : Nat} (h : c.gang.resetAt = some d) (hdue : c.due d = true) :
    c.resetDue = c.leaveOut.deviceReset := by
  unfold Chip.resetDue
  rw [h]
  simp only [hdue, Bool.true_or, if_true]

/-- Settles O19: a start, with the link's status and the partition's registers kept. -/
theorem deviceResetKeepsTheAlwaysOnDomain : Obligations.DeviceResetKeepsTheAlwaysOnDomain := by
  unfold Obligations.DeviceResetKeepsTheAlwaysOnDomain
  refine ⟨fun s hvin hallowed => ?_, fun s k hvin hk => ?_, fun s hvin hdenied => ?_, fun s d hvin hat hdue => ?_,
    fun s hvin hat => ?_⟩
  · obtain ⟨hv, ha, hb, hg, hl, hacc, hdram, hpkts, hports, -, hflash, hsfl⟩ := deviceReset_parts s.chip
    exact ⟨⟨s.chip.deviceReset, s.pending⟩, on_eq (f := (·.resetWrite _)) hvin (resetWrite_allowed hallowed), hv, ha, hb, hg, hl, hacc, timeValid_deviceReset _,
      hdram, hpkts, hports, hflash, hsfl, Chip.rd_wr_same .., fun k => rd_deviceReset_partition⟩
  · refine on_self (f := (·.resetWrite k.toNat)) (if_pos fun h => hk ?_)
    exact BitVec.eq_of_toNat_eq h
  · refine on_eq (f := (·.resetWrite _)) hvin ?_
    unfold Chip.resetWrite
    rw [hdenied, if_neg (by decide)]
    exact if_pos rfl
  · obtain ⟨-, -, -, hg, hl, hacc, hdram, -, -, hgang, hflash, -⟩ := deviceReset_parts s.chip.leaveOut
    exact ⟨⟨s.chip.leaveOut.deviceReset, s.pending⟩, on_eq hvin (resetDue_due hat hdue), hg, hl, hacc, hdram, hgang,
      hflash.trans (within_leaveOut s.chip).flash_eq⟩
  · exact on_self (resetDue_none hat)

/-! ### Faults that are not recovered (R38, R587) -/

theorem getF_raiseGlb_one {f : Fld} (c : Chip) (hf : f.fits) (hw : f.hi = f.lo) (hk : offPba f.addr) :
    (c.raiseGlb f).getF f = 1 := by
  have hput : (c.putF f 1).getF f = 1 := by
    rw [Chip.getF_putF hf, Fld.width, hw]
    norm_num
  unfold Chip.raiseGlb
  split
  · exact hput
  · rw [getF_of_rd (Chip.rd_sourceRise hk.not_isPba), hput]

/-- The log's entries that a fault of the partition or of the rest of the always-on domain writes. -/
def faultLogged (c : Chip) (sfl : Bool) : Chip :=
  if sfl then ((c.raiseGlb F.GLB_STATUS.FAULT_PENDING).log 18 3 0x0006 0 0).log 15 3 0x0288 0 0
  else (c.raiseGlb F.GLB_STATUS.FAULT_PENDING).log 18 3 0x0006 0 0

theorem unrecoverable_eq (c : Chip) (sfl : Bool) : c.unrecoverable sfl = { faultLogged c sfl with
    power := { (faultLogged c sfl).power with
      idleAll := true
      aonFault := (faultLogged c sfl).power.aonFault || sfl
      unrec := true } } := rfl

theorem within_faultLogged (c : Chip) (sfl : Bool) :
    Within [.regs, .hostMem, .power, .mgt, .host] c (faultLogged c sfl) := by
  have h := ((within_raiseGlb c F.GLB_STATUS.FAULT_PENDING).mono (M := [.regs, .hostMem, .power, .mgt, .host])).andThen
    (within_log _ 18 3 0x0006 0 0)
  unfold faultLogged
  split
  · exact h.andThen (within_log ..)
  · exact h

theorem faultLogged_power (c : Chip) (sfl : Bool) : ∃ b, (faultLogged c sfl).power = { c.power with firstEntry := b } := by
  have q := Chip.quiet_raiseGlb c F.GLB_STATUS.FAULT_PENDING
  obtain ⟨b, hb⟩ := log_power (c.raiseGlb F.GLB_STATUS.FAULT_PENDING) 18 3 0x0006 0 0
  rw [q.power] at hb
  unfold faultLogged
  cases sfl with
  | false => exact ⟨b, by rw [if_neg nofun, hb]⟩
  | true =>
    obtain ⟨b', hb'⟩ := log_power ((c.raiseGlb F.GLB_STATUS.FAULT_PENDING).log 18 3 0x0006 0 0) 15 3 0x0288 0 0
    exact ⟨b', by rw [if_pos rfl, hb', hb]⟩

theorem faultLogged_pending (c : Chip) (sfl : Bool) : (faultLogged c sfl).getF F.GLB_STATUS.FAULT_PENDING = 1 := by
  have h := getF_raiseGlb_one c (f := F.GLB_STATUS.FAULT_PENDING) (by decide) rfl (by decide)
  have hlog (d : Chip) (source severity code inst data : Nat) : (d.log source severity code inst data).getF
      F.GLB_STATUS.FAULT_PENDING = d.getF F.GLB_STATUS.FAULT_PENDING :=
    getF_of_rd (rd_log _ _ _ _ _ _ (by decide) (by decide))
  unfold faultLogged
  split
  · rw [hlog, hlog, h]
  · rw [hlog, h]

theorem faultLogged_length {c : Chip} (sfl : Bool) (haon : c.power.aon = true) (hroom : c.mgt.logBuf.length + 2 ≤ 1024) :
    (faultLogged c sfl).mgt.logBuf.length = c.mgt.logBuf.length + (if sfl then 2 else 1) := by
  have q := Chip.quiet_raiseGlb c F.GLB_STATUS.FAULT_PENDING
  have hone : ((c.raiseGlb F.GLB_STATUS.FAULT_PENDING).log 18 3 0x0006 0 0).mgt.logBuf.length = c.mgt.logBuf.length + 1 := by
    rw [log_logBuf _ _ _ _ _ _ (by rw [q.power, haon]) (by rw [q.mgt]; omega), q.mgt, List.length_append,
      List.length_singleton]
  obtain ⟨b, hb⟩ := log_power (c.raiseGlb F.GLB_STATUS.FAULT_PENDING) 18 3 0x0006 0 0
  unfold faultLogged
  cases sfl with
  | false => exact hone
  | true =>
    rw [if_pos rfl, if_pos rfl, log_logBuf _ _ _ _ _ _ (by rw [hb, q.power, haon]) (by omega), List.length_append, hone,
      List.length_singleton]

/-- Settles O20: the event and the log's entries, then the supplies' state. -/
theorem unrecoverableFaultHoldsTheDevice : Obligations.UnrecoverableFaultHoldsTheDevice := by
  unfold Obligations.UnrecoverableFaultHoldsTheDevice
  intro s sfl hvin haon hroom
  obtain ⟨b, hpower⟩ := faultLogged_power s.chip sfl
  have hpending := faultLogged_pending s.chip sfl
  have hlength := faultLogged_length sfl haon hroom
  have w := within_faultLogged s.chip sfl
  refine on_exists (f := (·.unrecoverable sfl)) hvin ?_
  rw [unrecoverable_eq]
  have hfault : (faultLogged s.chip sfl).power.aonFault = s.chip.power.aonFault := by rw [hpower]
  obtain ⟨hflash, hdram, hpkts, hrecov⟩ : _ ∧ _ ∧ _ ∧ _ := ⟨w.flash_eq, w.dram_eq, w.pkts_eq, w.recov_eq⟩
  generalize faultLogged s.chip sfl = d at hpending hlength hfault hflash hdram hpkts hrecov
  exact ⟨rfl, congrArg (· || sfl) hfault, hpending, hlength, hflash, hdram, hpkts, hrecov⟩

end Sys2Proof.Proofs
end

section
/-!
The state right after reset, and remote ops that are sent again (R528).
-/
namespace Sys2Proof.Proofs
open Sys2Proof Sys2Proof.Machine
set_option Elab.async false

/-! ### Reset -/

theorem rd_reset (a : Nat) : State.reset.chip.rd a = regReset a := rfl

theorem sound_reset : State.reset.sound :=
  ⟨⟨⟨smWf_nil _, smWf_nil _, smWf_nil _⟩, fun _ => rfl, fun _ => rfl⟩, fun _ h => absurd h List.not_mem_nil⟩

/-- Settles O3: every register is at its table's value, and the maps are empty. -/
theorem resetIsSoundAndHoldsTheTablesValues : Obligations.ResetIsSoundAndHoldsTheTablesValues := by
  unfold Obligations.ResetIsSoundAndHoldsTheTablesValues
  refine ⟨sound_reset, rd_reset, ?_, ?_, ?_, ?_, rfl, rfl, ?_, rfl, rfl, rfl, rfl, rfl, rfl⟩
  · rw [rd_reset]
    decide
  · rw [Chip.getF, rd_reset]
    decide
  · rw [Chip.getF, rd_reset]
    decide
  · rw [Chip.timeValid, Chip.flag, Chip.getF, rd_reset]
    decide
  · rw [Chip.flag, Chip.getF, rd_reset]
    decide

/-! ### The op that met NOT_OWNER (R528) -/

/-- A command whose effect ends with the flush. -/
theorem rresRx_again {c d : Chip} {p : Nat} {fr : Bytes} {r : Rop} (htake : c.gangTake p 3 false fr = (true, d))
    (hstatus : frStatus (sliceB (gfBody fr) 8 32) = 7)
    (hop : d.gang.rops.find? (fun r => r.rtag == beAt (gfBody fr) 0 4 && r.dev == gfSrc fr) = some r) :
    c.rresRx p fr = d.ropAgain r := by
  unfold Chip.rresRx
  rw [htake]
  dsimp only
  rw [hop]
  exact if_pos hstatus

section
variable (c : Chip) (r : Rop)

/-- Where an op is sent again depends on the registers and the link lists. -/
theorem ownDevice_of_regs {c d : Chip} (h : d.regs = c.regs) : d.ownDevice = c.ownDevice := by
  rw [Chip.ownDevice, Chip.ownDevice, getF_of_regs h, getF_of_regs h]

theorem ownerOf_ropGone (h1 : Nat) : (c.ropGone r).ownerOf h1 = c.ownerOf h1 := by
  have hregs := (within_ropGone c r).regs_eq
  rw [Chip.ownerOf, Chip.ownerOf, getF_of_regs hregs, ownDevice_of_regs hregs, Chip.mapOf, Chip.mapOf, getF_of_regs hregs]

theorem ownDevice_notOwner (dev : Nat) :
    ((c.ropGone r).bump F.GNG_PEER_CNT_NOT_OWNER.V dev).ownDevice = c.ownDevice := by
  have haddr : F.GNG_PEER_CNT_NOT_OWNER.V.addr dev = 0x5101C + dev * 0x100 + 0 * 0 := rfl
  have hstate : F.GNG_STATUS.STATE.addr = 0x50004 := rfl
  have hdevice : F.GNG_STATUS.DEVICE.addr = 0x50004 := rfl
  rw [Chip.ownDevice, getF_bump_apart (by decide) (.inl (by omega)), getF_bump_apart (by decide) (.inl (by omega)),
    ← Chip.ownDevice, ownDevice_of_regs (within_ropGone c r).regs_eq]

theorem slotPort_notOwner (dev d h1 : Nat) :
    ((c.ropGone r).bump F.GNG_PEER_CNT_NOT_OWNER.V dev).slotPort d h1 = c.slotPort d h1 := by
  rw [Chip.slotPort, Chip.linkPorts, (within_bump ..).gang_eq]
  rfl

theorem ropAgain_last (h : 3 ≤ r.tries) : c.ropAgain r = (c.ropGone r).missFb r.pid r.op := by
  unfold Chip.ropAgain
  exact if_pos h

theorem ropAgain_other {d port : Nat} (h : r.tries < 3) (howner : c.ownerOf r.op.h1 = some d) (hd : d ≠ c.ownDevice)
    (hport : c.slotPort d r.op.h1 = some port) :
    c.ropAgain r = ((((c.ropGone r).bump F.GNG_PEER_CNT_NOT_OWNER.V r.dev).onGang fun g => { g with
      rops := g.rops ++ [{ r with dev := d, tries := r.tries + 1 }]
      tails := g.tails.map (fun t => if t.2.1 = r.rtag then (t.1, t.2.1, d, t.2.2.2) else t) }).ropOut port d r.op r.rtag) := by
  unfold Chip.ropAgain
  dsimp only
  rw [if_neg (by omega), ownerOf_ropGone, howner]
  dsimp only
  rw [ownDevice_notOwner, if_neg hd, slotPort_notOwner, hport]

/-- The device without the op's record and its tail's, its owner found here. -/
def ropHome : Chip :=
  ((c.ropGone r).bump F.GNG_PEER_CNT_NOT_OWNER.V r.dev).onGang fun g => { g with
    tails := g.tails.filter (fun (t : Nat × Nat × Nat × Nat) => t.2.1 != r.rtag) }

theorem within_ropHome : Within [.regs, .gang] c (ropHome c r) :=
  ((within_ropGone ..).mono.andThen (within_bump ..)).andThen (within_onGang ..)

theorem gang_onGang (f : GangSt → GangSt) : (c.onGang f).gang = f c.gang := rfl

theorem rops_ropHome : (ropHome c r).gang.rops = c.gang.rops.filter fun x => x != r := by
  rw [ropHome, gang_onGang, (within_bump ..).gang_eq, Chip.ropGone, gang_onGang]

theorem eng_onEng (e : Nat) (f : EngSt → EngSt) : (c.onEng e f).eng e = f (c.eng e) := by
  rw [Chip.onEng, Chip.eng_setEng, if_pos rfl]

theorem eng_of_flow {c d : Chip} (h : d.flow = c.flow) (e : Nat) : d.eng e = c.eng e := by
  rw [Chip.eng, h, ← Chip.eng]

theorem ropAgain_own {x : Pkt} (h : r.tries < 3) (howner : c.ownerOf r.op.h1 = some c.ownDevice) (hpkt : c.pkt r.pid = some x) :
    c.ropAgain r = ((ropHome c r).onEng (hEngine r.op.h1) fun s =>
      { s with input := s.input ++ [{ r.op with tail := x.tail }] }).wakeBank (hEngine r.op.h1) := by
  have hp : (ropHome c r).pkt r.pid = some x := by rw [Chip.pkt, (within_ropHome c r).pkts_eq, ← Chip.pkt, hpkt]
  unfold Chip.ropAgain
  dsimp only
  rw [if_neg (by omega), ownerOf_ropGone, howner]
  dsimp only
  rw [ownDevice_notOwner, if_pos rfl, ← ropHome, hp]

theorem rops_nextSeq (port : Nat) : (c.nextSeq port).gang.rops = c.gang.rops := rfl

theorem rops_ropOut (port dev : Nat) (o : FOp) (t : Nat) : (c.ropOut port dev o t).gang.rops = c.gang.rops := by
  unfold Chip.ropOut
  extract_lets fr d
  have hd : d.gang = (c.nextSeq port).gang := (within_txStats ..).gang_eq
  rw [(within_signal ..).gang_eq, (within_bump ..).gang_eq, (within_setPort ..).gang_eq, hd, rops_nextSeq]

/-- What a remote op's start adds: its record at the end of the list. -/
theorem rops_ropStart {d : Chip} {pid dev port : Nat} {o : FOp} (hport : c.slotPort dev o.h1 = some port)
    (hpark : c.park pid = some d) :
    ∃ r, (c.ropStart pid dev o).gang.rops = d.gang.rops ++ [r] ∧ r.pid = pid ∧ r.dev = dev ∧ r.tries = 1 := by
  unfold Chip.ropStart
  rw [hport, hpark]
  dsimp -zeta only
  extract_lets tag gen rtag op d'
  refine ⟨⟨pid, rtag, dev, op, 1⟩, ?_, rfl, rfl, rfl⟩
  rw [rops_ropOut, (within_stampStrip ..).gang_eq]
  exact congrArg GangSt.rops (gang_onGang ..)

end

/-- Settles O8: the branches of `ropAgain`, the tries counted, and the start's record. -/
theorem notOwnerOpsAreSentAgain : Obligations.NotOwnerOpsAreSentAgain := by
  unfold Obligations.NotOwnerOpsAreSentAgain
  refine ⟨fun s p fr c r hvin htake hstatus hop => ?_, fun c r h => ropAgain_last c r h,
    fun c r d port h howner hd hport => ropAgain_other c r h howner hd hport, fun c r x h howner hpkt => ?_,
    fun c d pid dev port o hport hpark => rops_ropStart c hport hpark⟩
  · exact on_eq (f := fun c => (c.rresRx p.val fr).flush) hvin (congrArg Chip.flush (rresRx_again htake hstatus hop))
  · rw [ropAgain_own c r h howner hpkt]
    refine ⟨?_, ?_⟩
    · rw [eng_of_flow (within_wakeBank ..).flow_eq, eng_onEng, eng_of_flow (within_ropHome c r).flow_eq]
    · rw [(within_wakeBank ..).gang_eq, (within_onEng ..).gang_eq, rops_ropHome]
      simp

end Sys2Proof.Proofs
end

section
/-!
Plate images (R57 to R64, R69): the load without a Plate, and the commands on images and slots.
-/
namespace Sys2Proof.Proofs
open Sys2Proof Sys2Proof.Machine
set_option Elab.async false

/-! ### The supplies' state but for the next log entry being the first -/

/-- What a log entry leaves of the supplies' state. -/
def steadyPower (c : Chip) : Power := { c.power with firstEntry := false }

theorem steadyPower_of_eq {c d : Chip} (h : d.power = c.power) : steadyPower d = steadyPower c := by
  rw [steadyPower, h, ← steadyPower]

theorem steadyPower_log (c : Chip) (source severity code inst data : Nat) :
    steadyPower (c.log source severity code inst data) = steadyPower c := by
  obtain ⟨b, hb⟩ := log_power c source severity code inst data
  rw [steadyPower, hb, steadyPower]

/-- A fold of functions that leave a view of the device alone. -/
theorem foldl_view {α β : Type} {f : Chip → α → Chip} (view : Chip → β) (hf : ∀ d x, view (f d x) = view d) (l : List α)
    (c : Chip) : view (l.foldl f c) = view c :=
  List.foldlRecOn (motive := fun d => view d = view c) l f rfl fun d hd x _ => (hf d x).trans hd

theorem ite_view {β : Type} {p : Prop} [Decidable p] {c d e : Chip} (view : Chip → β) (hd : view d = view c)
    (he : view e = view c) : view (if p then d else e) = view c := by
  split
  · exact hd
  · exact he

theorem steadyPower_loadTrain (c : Chip) (ch : Nat) (masks : List Nat) : steadyPower (c.loadTrain ch masks) = steadyPower c := by
  unfold Chip.loadTrain
  refine ite_view _ rfl (ite_view _ ?_ ?_)
  · exact steadyPower_of_eq ((within_trainResult ..).mono.andThen (within_putF ..) : Within [.regs] c _).power_eq
  · rw [steadyPower_log]
    exact steadyPower_of_eq (((within_trainResult ..).mono.andThen (within_putF ..)).andThen (within_raise ..) :
      Within [.regs, .hostMem, .host] c _).power_eq

theorem steadyPower_loadDram (c : Chip) (img : Bytes) (staged : Bool) (masks : List (List Nat)) :
    steadyPower (c.loadDram img staged masks).2 = steadyPower c := by
  unfold Chip.loadDram
  extract_lets c1 c2 c3 c4
  have hc1 : steadyPower c1 = steadyPower c := steadyPower_of_eq (within_putF ..).power_eq
  have hc2 : steadyPower c2 = steadyPower c := (foldl_view _ (fun d s => steadyPower_of_eq
    ((within_applyDram ..).mono.andThen (within_trainStack ..) : Within [.regs, .hbm, .tel] d _).power_eq) _ _).trans hc1
  have hc3 : steadyPower c3 = steadyPower c := (foldl_view _ (fun d ch => steadyPower_loadTrain ..) _ _).trans hc2
  have hc4 : steadyPower c4 = steadyPower c :=
    (foldl_view _ (fun d s => steadyPower_of_eq (within_stackTrained d s).power_eq) _ _).trans hc3
  split
  · exact hc4
  · exact (steadyPower_of_eq ((within_zeroDram ..).mono.andThen (within_putF ..) : Within [.regs, .dram] c4 _).power_eq).trans hc4

theorem steadyPower_loadNone (c : Chip) (masks : List (List Nat)) :
    steadyPower (c.loadNone masks) = { steadyPower c with idleAll := true } := by
  -- unfolded as a function: the kernel would run the training of DRAM
  generalize hload : Chip.loadNone = f
  delta Chip.loadNone at hload
  subst hload
  beta_reduce
  rw [steadyPower_loadDram]
  rfl

/-! ### The load without a Plate (R59, R61) -/

/-- What the starts of the Safelight partition and of the management processor leave. -/
def bootView (c : Chip) : Power × Slot × Slot := (steadyPower c, c.flash.plateA, c.flash.plateB)

theorem bootView_of_within {M : List Part} {c d : Chip} (h : Within M c d)
    (hM : Part.power ∉ M ∧ Part.flash ∉ M := by decide) : bootView d = bootView c := by
  rw [bootView, steadyPower_of_eq (h.power_eq hM.1), h.flash_eq hM.2, ← bootView]

theorem bootView_log (c : Chip) (source severity code inst data : Nat) :
    bootView (c.log source severity code inst data) = bootView c := by
  rw [bootView, steadyPower_log, (within_log ..).flash_eq, ← bootView]

theorem bootView_takeOwner (c : Chip) (img : Bytes) : bootView (c.takeOwner img) = bootView c := by
  unfold Chip.takeOwner
  extract_lets d
  refine ite_view _ rfl ?_
  rw [bootView_log]
  rfl

theorem bootView_activate1 (c : Chip) : bootView c.activate1 = bootView c := by
  unfold Chip.activate1
  extract_lets put ok reason data d1 d2 d3
  clear_value ok
  split
  · extract_lets img id signer c1 c2 c3 c4
    have hc1 : bootView c1 = bootView c :=
      (bootView_of_within ((Within.refl [.sfl] (c.takeOwner img)).sfl _)).trans (bootView_takeOwner ..)
    have hc2 : Within [.regs] c1 c2 := (((within_putF ..).andThen (within_putF ..)).andThen (within_putF ..)).andThen (within_putF ..)
    have hc3 : Within [.regs] c2 c3 := ((within_putF ..).andThen (within_putF ..)).andThen (within_putQ ..)
    have hc4 : Within [.regs] c3 c4 := (within_putF ..).andThen (within_putF ..)
    exact (bootView_log ..).trans ((bootView_of_within (hc2.andThen (hc3.andThen hc4))).trans hc1)
  · have hd1 : Within [.sfl] c d1 := (Within.refl _ _).sfl _
    have hd2 : Within [.regs] d1 d2 := ((within_putF ..).andThen (within_putF ..)).andThen (within_putF ..)
    have hd3 : Within [.regs] d2 d3 := (within_putF ..).andThen (within_putQ ..)
    have h : Within [.regs, .sfl] c (d3.putF F.SFL_EVENT_EN.V (d3.pol 0x268 4)) :=
      ((hd1.mono.andThen hd2).andThen hd3).andThen (within_putF ..)
    exact (bootView_log ..).trans (bootView_of_within h)

theorem bootView_fwStart (c : Chip) (b fallback : Bool) : bootView (c.fwStart b fallback) = bootView c := by
  unfold Chip.fwStart
  extract_lets m c1 c2
  have hc1 : Within [.mgt] c c1 := (Within.refl _ _).mgt _
  have hc2 : Within [.regs, .mgt] c c2 := (hc1.mono.andThen (within_putF ..)).andThen (within_putF ..)
  refine ite_view _ ?_ (bootView_of_within hc2)
  have hfall : Within [.regs, .hostMem, .mgt, .host] c ((c2.putF F.MGT_MP_STATUS.FALLBACK 1).raise F.MGT_EVENTS.FW_FALLBACK) :=
    (hc2.mono.andThen (within_putF ..)).andThen (within_raise ..)
  exact (bootView_log ..).trans (bootView_of_within hfall)

theorem bootView_mpStart (c : Chip) : bootView c.mpStart = bootView c := by
  unfold Chip.mpStart
  extract_lets c1
  have hc1 : bootView c1 = bootView c := bootView_of_within (within_putF ..)
  split
  · exact (bootView_fwStart ..).trans hc1
  · exact (bootView_of_within (within_fwNone ..)).trans hc1

/-- The load's start: the management processor, where no firmware runs. -/
def loadStarted (c : Chip) : Chip :=
  let c := { c with power := { c.power with loadDue := false } }
  if c.getF F.MGT_MP_STATUS.STATE = 1 then c.mpStart else c

theorem bootView_loadStarted (c : Chip) :
    bootView (loadStarted c) = ({ steadyPower c with loadDue := false }, c.flash.plateA, c.flash.plateB) := by
  unfold loadStarted
  extract_lets p c1
  have hc1 : bootView c1 = ({ steadyPower c with loadDue := false }, c.flash.plateA, c.flash.plateB) := rfl
  exact (ite_view _ (bootView_mpStart ..) rfl).trans hc1

theorem within_loadStarted (c : Chip) : Within [.regs, .hostMem, .power, .mgt, .host] c (loadStarted c) := by
  unfold loadStarted
  extract_lets p c1
  have hc1 : Within [.regs, .hostMem, .power, .mgt, .host] c c1 := (Within.refl _ _).parts [.power]
  exact .ite (hc1.andThen (within_mpStart ..)) hc1

theorem bootOrder_none {c : Chip} (ha : c.flash.plateA.state ≠ 2) (hb : c.flash.plateB.state ≠ 2) : c.bootOrder 0 = [] := by
  have h : c.bootSlot 0 = none := (if_neg ha).trans (if_neg hb)
  rw [Chip.bootOrder, h]

theorem fullLoad_none {c : Chip} (masks : List (List Nat)) (hvin : c.power.vin = true) (hdue : c.power.loadDue = true)
    (hboot : (loadStarted c).activate1.bootOrder 0 = []) : c.fullLoad masks = (loadStarted c).activate1.loadNone masks := by
  have h : c.fullLoad masks = match Chip.tryPlates ((loadStarted c).activate1.bootOrder 0) (loadStarted c).activate1 with
      | (some b, c) => c.loadPlate (c.slotOf 0 b).image (b2n b) masks
      | (none, c) => c.loadNone masks := by
    unfold Chip.fullLoad
    rw [hvin, hdue]
    exact if_neg nofun
  rw [h, hboot, Chip.tryPlates]

theorem bootView_ready (c : Chip) : bootView (loadStarted c).activate1 =
    ({ steadyPower c with loadDue := false }, c.flash.plateA, c.flash.plateB) :=
  (bootView_activate1 (loadStarted c)).trans (bootView_loadStarted c)

theorem steadyPower_ready (c : Chip) : steadyPower (loadStarted c).activate1 = { steadyPower c with loadDue := false } :=
  congrArg Prod.fst (bootView_ready c)

theorem plateA_ready (c : Chip) : (loadStarted c).activate1.flash.plateA = c.flash.plateA :=
  congrArg (fun v => v.2.1) (bootView_ready c)

theorem plateB_ready (c : Chip) : (loadStarted c).activate1.flash.plateB = c.flash.plateB :=
  congrArg (fun v => v.2.2) (bootView_ready c)

theorem power_of_steady {c : Chip} {p : Power} (h : steadyPower c = p) :
    c.power.loadDue = p.loadDue ∧ c.power.idleAll = p.idleAll := by
  subst h
  exact ⟨rfl, rfl⟩

theorem loadNone_rest (c : Chip) (masks : List (List Nat)) :
    ((loadStarted c).activate1.loadNone masks).power.loadDue = false ∧
    ((loadStarted c).activate1.loadNone masks).power.idleAll = true ∧
    ((loadStarted c).activate1.loadNone masks).plate = c.plate ∧
    ((loadStarted c).activate1.loadNone masks).flash.plateA = c.flash.plateA ∧
    ((loadStarted c).activate1.loadNone masks).flash.plateB = c.flash.plateB := by
  have hnone := within_loadNone (loadStarted c).activate1 masks
  have hsteady := steadyPower_loadNone (loadStarted c).activate1 masks
  rw [steadyPower_ready] at hsteady
  obtain ⟨hdue, hidle⟩ := power_of_steady hsteady
  refine ⟨hdue, hidle, ?_, ?_, ?_⟩
  · rw [hnone.plate_eq, (within_activate1 _).plate_eq, (within_loadStarted c).plate_eq]
  · rw [hnone.flash_eq, plateA_ready]
  · rw [hnone.flash_eq, plateB_ready]

/-! ### VERIFY (R63, R64) -/

theorem rd_checkPlate {c : Chip} {img : Bytes} {k : Nat} (hk : 0x10100 ≤ k ∧ k < 0x20000) :
    (c.checkPlate img).2.rd k = c.rd k := by
  have hreason : F.PLT_LOAD_STATUS.REASON.addr = 0x10020 := rfl
  have hsection : F.PLT_LOAD_STATUS.SECTION.addr = 0x10020 := rfl
  unfold Chip.checkPlate
  extract_lets r c1 c2 past10 c3
  have hc1 : c1.rd k = c.rd k := by
    show (c.loadStatus r).rd k = _
    rw [Chip.loadStatus, Chip.rd_putF_ne (by omega), Chip.rd_putF_ne (by omega)]
  have hc2 : c2.rd k = c.rd k := by
    refine (ite_view (c := c1) (·.rd k) ?_ rfl).trans hc1
    exact rd_deniedCapture (by omega) (by omega)
  refine (ite_view (c := c2) (·.rd k) ?_ rfl).trans hc2
  exact foldl_rd (fun d e => rd_log _ _ _ _ _ _ (by omega) (by unfold offPba; omega)) _ _

/-- Whether a stop-bath of the pending Plate is under way depends on the entries' states. -/
theorem pendBath_of_rd {c d : Chip} (h : ∀ n, n < 8 → d.rd (0x10100 + n * 0x10) = c.rd (0x10100 + n * 0x10)) :
    d.pendBath = c.pendBath := by
  have hrd (f : Fld) (n : Nat) (hn : n < 8) (hf : f.addr n = 0x10100 + n * 0x10) : d.getF f n = c.getF f n :=
    getF_of_rd (by rw [hf]; exact h n hn)
  unfold Chip.pendBath
  refine Bool.eq_iff_iff.mpr ?_
  simp only [List.any_eq_true, List.mem_range]
  refine exists_congr fun n => and_congr_right fun hn => ?_
  rw [Chip.sbPend, Chip.sbPhase, Chip.flag, hrd _ n hn rfl, hrd _ n hn rfl, ← Chip.flag, ← Chip.sbPend, ← Chip.sbPhase]

/-- The device once a staged image has been checked. -/
def checked (c : Chip) : Chip := (c.checkPlate c.stagedImage).2

theorem checkPlate_eq (c : Chip) : c.checkPlate c.stagedImage = ((c.plateCheck c.stagedImage).1 == 0, checked c) := rfl

theorem within_checked (c : Chip) : Within [.regs, .hostMem, .power, .mgt, .sfl, .host] c (checked c) := within_checkPlate ..

theorem pendBath_checked (c : Chip) : (checked c).pendBath = c.pendBath :=
  pendBath_of_rd fun n hn => rd_checkPlate (by omega)

/-- The image becomes the pending Plate. -/
def pended (c : Chip) (img : Option Bytes) : Chip :=
  ({ c with plate := { c.plate with pend := img } } : Chip).showPending

theorem within_pended (c : Chip) (img : Option Bytes) : Within [.regs, .plate] c (pended c img) :=
  ((Within.refl [.regs, .plate] c).plate _).andThen (within_showPending ..)

theorem plate_pended (c : Chip) (img : Option Bytes) : (pended c img).plate = { c.plate with pend := img } :=
  (within_showPending _).plate_eq

theorem verify_eq {c : Chip} (hrun : c.flag F.PLT_CMD_STATUS.RUNNING = false) (hbad : c.stagedBad = false)
    (hmixed : c.plate.mixed = []) (hpend : c.pendBath = false) :
    c.verify = if (c.plateCheck c.stagedImage).1 = 0
      then (pended (checked c) (some (c.stagedImage.take (plTotal c.stagedImage)))).finish portPlt stOk
      else (checked c).finish portPlt stInvalid := by
  have hmix : (checked c).plate.mixed = [] := by rw [(within_checked c).plate_eq, hmixed]
  have hbath := (pendBath_checked c).trans hpend
  rw [Chip.verify, command_of_idle (p := portPlt) hrun, hbad, if_neg nofun]
  dsimp only
  rw [checkPlate_eq]
  have hfree : (!(checked c).plate.mixed.isEmpty || (checked c).pendBath) = false := by
    rw [hmix, hbath]
    rfl
  generalize checked c = d at hfree
  by_cases h : (c.plateCheck c.stagedImage).1 = 0
  · rw [if_pos h, beq_iff_eq.mpr h]
    dsimp only
    rw [hfree]
    exact if_neg nofun
  · rw [if_neg h, beq_eq_false_iff_ne.mpr h]

/-- VERIFY's completion, and what it leaves. -/
theorem verify_rest {c : Chip} (hrun : c.flag F.PLT_CMD_STATUS.RUNNING = false) (hbad : c.stagedBad = false)
    (hmixed : c.plate.mixed = []) (hpend : c.pendBath = false) :
    c.verify.dram = c.dram ∧ c.verify.flash = c.flash ∧ c.verify.plate.cur = c.plate.cur ∧
    ((c.plateCheck c.stagedImage).1 = 0 → c.verify.getF F.PLT_CMD_STATUS.STATUS = stOk ∧
      c.verify.plate.pend = some (c.stagedImage.take (plTotal c.stagedImage))) ∧
    ((c.plateCheck c.stagedImage).1 ≠ 0 → c.verify.getF F.PLT_CMD_STATUS.STATUS = stInvalid ∧ c.verify.plate = c.plate) := by
  have w := within_verify c
  have hplate : (checked c).plate = c.plate := (within_checked c).plate_eq
  have heq := verify_eq hrun hbad hmixed hpend
  have hok (h : (c.plateCheck c.stagedImage).1 = 0) : c.verify.plate =
      { c.plate with pend := some (c.stagedImage.take (plTotal c.stagedImage)) } := by
    rw [heq, if_pos h, (within_finish ..).plate_eq, plate_pended, hplate]
  have hfail (h : (c.plateCheck c.stagedImage).1 ≠ 0) : c.verify.plate = c.plate := by
    rw [heq, if_neg h, (within_finish ..).plate_eq, hplate]
  refine ⟨w.dram_eq, w.flash_eq, ?_, fun h => ⟨?_, by rw [hok h]⟩, fun h => ⟨?_, hfail h⟩⟩
  · by_cases h : (c.plateCheck c.stagedImage).1 = 0
    · rw [hok h]
    · rw [hfail h]
  · rw [heq, if_pos h]
    exact (Chip.finish_status laid_portPlt (by decide)).1
  · rw [heq, if_neg h]
    exact (Chip.finish_status laid_portPlt (by decide)).1

/-! ### Slots (R57, R60, R64) -/

theorem slotOf_of_flash {c d : Chip} (h : d.flash = c.flash) (t : Nat) (b : Bool) : d.slotOf t b = c.slotOf t b := by
  unfold Chip.slotOf
  rw [h]

theorem slotOf_setSlot (c : Chip) (b : Bool) (x : Slot) : (c.setSlot 0 b x).slotOf 0 b = x := by
  cases b <;> rfl

theorem slotOf_setSlot_other (c : Chip) (b : Bool) (x : Slot) : (c.setSlot 0 b x).slotOf 0 (!b) = c.slotOf 0 (!b) := by
  cases b <;> rfl

theorem slotOf_setSlot_back (c : Chip) (b : Bool) (x : Slot) : (c.setSlot 0 (!b) x).slotOf 0 b = c.slotOf 0 b := by
  cases b <;> rfl

theorem slotOf_setGood (c : Chip) (t : Nat) (b b' v : Bool) : (c.setGood b v).slotOf t b' = c.slotOf t b' := by
  cases b <;> rfl

theorem good_setGood (c : Chip) (b v : Bool) : (c.setGood b v).good b = v := by
  cases b <;> rfl

theorem good_of_flash {c d : Chip} (h : d.flash = c.flash) (b : Bool) : d.good b = c.good b := by
  rw [Chip.good, h, ← Chip.good]

/-- The device with an image's slot written, or emptied where the readback failed. -/
def slotFilled (c : Chip) (b ok : Bool) (img : Bytes) : Chip :=
  (({ c with plate := { c.plate with slotWrite := none } } : Chip).setSlot 0 b (if ok then ⟨1, img⟩ else Slot.empty)).setGood b false

theorem slotFilled_plate (c : Chip) (b ok : Bool) (img : Bytes) :
    (slotFilled c b ok img).plate = { c.plate with slotWrite := none } := by
  rw [slotFilled, (within_setGood ..).plate_eq, (within_setSlot ..).plate_eq]

theorem slotWritten_eq {c : Chip} {b ok : Bool} {img : Bytes} (h : c.plate.slotWrite = some (b, img)) :
    c.slotWritten ok = (slotFilled c b ok img).finish portPlt (if ok then stOk else stTimeout) := by
  unfold Chip.slotWritten
  rw [h]
  rfl

theorem slotWritten_rest {c : Chip} {b ok : Bool} {img : Bytes} (h : c.plate.slotWrite = some (b, img)) :
    (c.slotWritten ok).plate.slotWrite = none ∧ (c.slotWritten ok).slotOf 0 b = (if ok then ⟨1, img⟩ else Slot.empty) ∧
    (c.slotWritten ok).slotOf 0 (!b) = c.slotOf 0 (!b) ∧ (c.slotWritten ok).good b = false ∧
    (c.slotWritten ok).getF F.PLT_CMD_STATUS.STATUS = (if ok then stOk else stTimeout) ∧
    (c.slotWritten ok).getF F.PLT_CMD_STATUS.RUNNING = 0 := by
  have w := within_finish (slotFilled c b ok img) portPlt (if ok then stOk else stTimeout) 0
  have hst : (if ok then stOk else stTimeout) < 16 := by cases ok <;> decide
  obtain ⟨hstatus, hrunning, -⟩ := Chip.finish_status (c := slotFilled c b ok img) laid_portPlt hst
  rw [slotWritten_eq h]
  refine ⟨?_, ?_, ?_, ?_, hstatus, hrunning⟩
  · rw [w.plate_eq, slotFilled_plate]
  · rw [slotOf_of_flash w.flash_eq, slotFilled, slotOf_setGood, slotOf_setSlot]
  · rw [slotOf_of_flash w.flash_eq, slotFilled, slotOf_setGood, slotOf_setSlot_other]
    exact slotOf_of_flash rfl 0 _
  · rw [good_of_flash w.flash_eq, slotFilled, good_setGood]

theorem selectSlot_rest (c : Chip) (b : Bool) :
    (c.selectSlot 0 b).slotOf 0 b = { c.slotOf 0 b with state := 2 } ∧
    (c.selectSlot 0 b).slotOf 0 (!b) = { c.slotOf 0 (!b) with
      state := if (c.slotOf 0 (!b)).state = 2 then 1 else (c.slotOf 0 (!b)).state } := by
  unfold Chip.selectSlot
  dsimp only
  rw [slotOf_setSlot_other]
  split
  · exact ⟨by rw [slotOf_setSlot_back, slotOf_setSlot], by rw [slotOf_setSlot]⟩
  · exact ⟨slotOf_setSlot .., slotOf_setSlot_other ..⟩

theorem selectBoot_eq {c : Chip} {b : Bool} (hrun : c.flag F.PLT_CMD_STATUS.RUNNING = false) :
    c.selectBoot b = if (c.slotOf 0 b).state = 0 then c.finish portPlt stInvalid else (c.selectSlot 0 b).finish portPlt stOk := by
  rw [Chip.selectBoot, command_of_idle (p := portPlt) hrun]

theorem writeSlot_eq {c : Chip} {b : Bool} {img : Bytes} (hrun : c.flag F.PLT_CMD_STATUS.RUNNING = false)
    (hpend : c.plate.pend = some img) : c.writeSlot b = if c.slotKept b then c.finish portPlt stInvalid
      else { (c.putF F.PLT_CMD_STATUS.RUNNING 1) with plate := { c.plate with slotWrite := some (b, img) } } := by
  rw [Chip.writeSlot, command_of_idle (p := portPlt) hrun, hpend]

/-! ### ADOPT and ABANDON (R63, R69) -/

/-- The pending Plate becomes current. -/
def adopted (c : Chip) (img : Bytes) : Chip :=
  let d : Chip := { c with plate := { c.plate with cur := some img, mixed := [] } }
  (d.showCurrent.putF F.PLT_MIXED.V 0).putF F.ACT_BASE_ID.V (leAt (payloadFor img 0x50 0) 0 4)

theorem within_adopted (c : Chip) (img : Bytes) : Within [.regs, .plate] c (adopted c img) := by
  unfold adopted
  extract_lets pl d
  have hd : Within [.regs, .plate] c d := (Within.refl _ _).plate _
  exact ((hd.andThen (within_showCurrent ..)).andThen (within_putF ..)).andThen (within_putF ..)

theorem plate_adopted (c : Chip) (img : Bytes) : (adopted c img).plate = { c.plate with cur := some img, mixed := [] } := by
  unfold adopted
  extract_lets pl d
  rw [(within_putF ..).plate_eq, (within_putF ..).plate_eq, (within_showCurrent d).plate_eq]

theorem mixed_adopted (c : Chip) (img : Bytes) : (adopted c img).getF F.PLT_MIXED.V = 0 := by
  unfold adopted
  extract_lets pl d
  rw [getF_putF_apart (by decide) (by decide), Chip.getF_putF (by decide)]
  decide

theorem adopt_eq {c : Chip} {raise : Bool} {img : Bytes} (hrun : c.flag F.PLT_CMD_STATUS.RUNNING = false)
    (hpend : c.plate.pend = some img) (hbath : c.pendBath = false) :
    c.adopt raise = (if raise then (adopted c img).raiseFloor 0 (plSerial img) else adopted c img).finish portPlt stOk := by
  rw [Chip.adopt, command_of_idle (p := portPlt) hrun, hpend]
  dsimp only
  rw [hbath]
  exact if_neg nofun

theorem plateFloor_raiseFloor (c : Chip) (v : Nat) : (c.raiseFloor 0 v).flash.plateFloor = max v c.flash.plateFloor := rfl

theorem adopt_rest {c : Chip} {raise : Bool} {img : Bytes} (hrun : c.flag F.PLT_CMD_STATUS.RUNNING = false)
    (hpend : c.plate.pend = some img) (hbath : c.pendBath = false) :
    (c.adopt raise).plate = { c.plate with cur := some img, mixed := [] } ∧ (c.adopt raise).getF F.PLT_MIXED.V = 0 ∧
    (c.adopt raise).getF F.PLT_CMD_STATUS.STATUS = stOk ∧
    (c.adopt raise).flash.plateFloor = (if raise then max (plSerial img) c.flash.plateFloor else c.flash.plateFloor) ∧
    (c.adopt raise).pkts = c.pkts ∧ (c.adopt raise).rules = c.rules := by
  have hw := within_adopted c img
  have hfloor : Within [.flash] (adopted c img) (if raise then (adopted c img).raiseFloor 0 (plSerial img) else adopted c img) :=
    .ite (within_raiseFloor ..) (.refl _ _)
  have hvalue : (if raise then (adopted c img).raiseFloor 0 (plSerial img) else adopted c img).flash.plateFloor =
      if raise then max (plSerial img) c.flash.plateFloor else c.flash.plateFloor := by
    cases raise with
    | false => exact congrArg Flash.plateFloor hw.flash_eq
    | true => exact (plateFloor_raiseFloor ..).trans (by rw [hw.flash_eq]; rfl)
  have hplate := plate_adopted c img
  have hmixed := mixed_adopted c img
  rw [adopt_eq hrun hpend hbath]
  generalize (if raise then (adopted c img).raiseFloor 0 (plSerial img) else adopted c img) = d at hfloor hvalue
  have w := within_finish d portPlt stOk 0
  refine ⟨?_, ?_, (Chip.finish_status laid_portPlt (by decide)).1, ?_, ?_, ?_⟩
  · rw [w.plate_eq, hfloor.plate_eq, hplate]
  · rw [getF_finish_apart (by decide) (by decide) (by decide) (by decide) (by decide), getF_of_regs hfloor.regs_eq, hmixed]
  · rw [w.flash_eq, hvalue]
  · rw [w.pkts_eq, hfloor.pkts_eq, hw.pkts_eq]
  · rw [w.rules_eq, hfloor.rules_eq, hw.rules_eq]

theorem abandonPlate_eq {c : Chip} {img : Bytes} (hrun : c.flag F.PLT_CMD_STATUS.RUNNING = false)
    (hpend : c.plate.pend = some img) (hmixed : c.plate.mixed = []) (hbath : c.pendBath = false) :
    c.abandonPlate = (pended c none).finish portPlt stOk := by
  have hsome : c.plate.pend.isNone = false := by rw [hpend]; rfl
  have hfree : (!c.plate.mixed.isEmpty || c.pendBath) = false := by
    rw [hmixed, hbath]
    rfl
  rw [Chip.abandonPlate, command_of_idle (p := portPlt) hrun, hsome, if_neg nofun, hfree, if_neg nofun, pended]

/-! ### LOAD_STAGED (R61, R63) -/

theorem loadStaged_refused {c : Chip} (masks : List (List Nat)) (hrun : c.flag F.PLT_CMD_STATUS.RUNNING = false)
    (h : (c.flag F.GLB_STATUS.PLATE_LOADED || c.stagedBad) = true) : c.loadStaged masks = c.finish portPlt stInvalid := by
  rw [Chip.loadStaged, command_of_idle (p := portPlt) hrun, h]
  exact if_pos rfl

theorem loadStaged_eq {c : Chip} (masks : List (List Nat)) (hrun : c.flag F.PLT_CMD_STATUS.RUNNING = false)
    (h : (c.flag F.GLB_STATUS.PLATE_LOADED || c.stagedBad) = false) : c.loadStaged masks =
      match (c.putF F.PLT_LOAD_STATUS.ORIGIN 2).checkPlate c.stagedImage with
      | (false, c) => c.finish portPlt stInvalid
      | (true, d) => if (d.loadPlate (c.stagedImage.take (plTotal c.stagedImage)) 2 masks).flag F.GLB_STATUS.PLATE_LOADED
          then (d.loadPlate (c.stagedImage.take (plTotal c.stagedImage)) 2 masks).finish portPlt stOk
          else (d.loadPlate (c.stagedImage.take (plTotal c.stagedImage)) 2 masks).putF F.PLT_CMD_STATUS.RUNNING 1 := by
  rw [Chip.loadStaged, command_of_idle (p := portPlt) hrun, h]
  exact if_neg nofun

/-- Settles O21: the load without a Plate, then command by command. -/
theorem plateImagesAreVerifiedWrittenAndAdopted : Obligations.PlateImagesAreVerifiedWrittenAndAdopted := by
  unfold Obligations.PlateImagesAreVerifiedWrittenAndAdopted
  refine ⟨fun s ms hvin hdue ha hb => ?_, fun s ms hdue => ?_, fun s hvin hrun hbad hmixed hpend => ?_,
    fun s b img hvin hrun hpend hkept => ?_, fun s b img hvin hrun hpend hgood hother => ?_,
    fun s b ok img hvin hwrite => ?_, fun s b hvin hrun hslot => ?_, fun s b hvin hrun hslot => ?_,
    fun s raise img hvin hrun hpend hbath => ?_, fun s img hvin hrun hpend hmixed hbath => ?_,
    fun s ms hvin hrun hloaded => ?_, fun s ms img hvin hrun hloaded hbad himg => ?_⟩
  · have hfull : s.chip.fullLoad ms = (loadStarted s.chip).activate1.loadNone ms :=
      fullLoad_none ms hvin hdue (bootOrder_none (by rw [plateA_ready]; exact ha) (by rw [plateB_ready]; exact hb))
    obtain ⟨hd, hidle, hplate, hA, hB⟩ := loadNone_rest s.chip ms
    rw [← hfull] at hd hidle hplate hA hB
    exact on_exists (f := (·.fullLoad ms)) hvin ⟨hd, hidle, by rw [hplate], hA, hB⟩
  · refine on_self (f := (·.fullLoad ms)) (if_pos ?_)
    rw [hdue]
    exact Bool.or_true _
  · exact on_exists (f := Chip.verify) hvin (verify_rest hrun hbad hmixed hpend)
  · refine on_eq (f := (·.writeSlot b)) hvin ?_
    rw [writeSlot_eq hrun hpend, hkept]
    exact if_neg nofun
  · refine on_eq (f := (·.writeSlot b)) hvin ?_
    rw [writeSlot_eq hrun hpend, Chip.slotKept, hgood, hother]
    exact if_pos rfl
  · exact on_exists (f := (·.slotWritten ok)) hvin (slotWritten_rest hwrite)
  · have hsel := selectSlot_rest s.chip b
    refine on_exists (f := (·.selectBoot b)) hvin ?_
    have w := within_finish (s.chip.selectSlot 0 b) portPlt stOk 0
    obtain ⟨hself, hother⟩ := hsel
    rw [selectBoot_eq hrun, if_neg hslot, slotOf_of_flash w.flash_eq, slotOf_of_flash w.flash_eq, hself, hother]
    exact ⟨rfl, rfl, rfl, (Chip.finish_status laid_portPlt (by decide)).1⟩
  · refine on_eq (f := (·.selectBoot b)) hvin ?_
    rw [selectBoot_eq hrun, if_pos hslot]
  · exact on_exists (f := (·.adopt raise)) hvin (adopt_rest hrun hpend hbath)
  · refine on_exists (f := Chip.abandonPlate) hvin ?_
    rw [abandonPlate_eq hrun hpend hmixed hbath, (within_finish ..).plate_eq, plate_pended]
    exact ⟨rfl, (Chip.finish_status laid_portPlt (by decide)).1⟩
  · refine on_eq (f := (·.loadStaged ms)) hvin (loadStaged_refused ms hrun ?_)
    rw [hloaded, Bool.true_or]
  · have hload := loadStaged_eq ms hrun (by rw [hloaded, hbad, Bool.or_false])
    subst himg
    refine on_exists (f := (·.loadStaged ms)) hvin ⟨fun hfail => ?_, fun d hcheck hflag => ?_⟩
    · obtain ⟨d, hd⟩ : ∃ d, (s.chip.putF F.PLT_LOAD_STATUS.ORIGIN 2).checkPlate s.chip.stagedImage = (false, d) :=
        ⟨_, Prod.ext hfail rfl⟩
      rw [hload, hd]
    · rw [hload, hcheck]
      exact if_pos hflag

end Sys2Proof.Proofs
end

section
/-!
Stop-bath entries from their command to their end (R65 to R73).
-/
namespace Sys2Proof.Proofs
open Sys2Proof Sys2Proof.Machine
set_option Elab.async false

/-- A completed command leaves a value of two words that lies elsewhere. -/
theorem getQ_finish_apart {c : Chip} {p : Port} {st i : Nat} {g : Fld} {k l : Nat} (hp : p.laid i)
    (h : g.addr k l ≠ p.done.addr i ∧ g.addr k l + 4 ≠ p.done.addr i)
    (hk : g.addr k l + 4 < 0x88000 ∨ 0x88100 ≤ g.addr k l) : (c.finish p st i).getQ g k l = c.getQ g k l := by
  have hlow : offPba (g.addr k l) := hk.imp_left fun h => by omega
  have hhigh : offPba (g.addr k l + 4) := hk.imp_right fun h => by omega
  rw [Chip.getQ, Chip.rd_finish hp h.1 hlow.not_isPba, Chip.rd_finish hp h.2 hhigh.not_isPba, ← Chip.getQ]

section
variable {c : Chip} {u i n : Nat} {src timed : Bool}

theorem stopBath_invalid (hrun : c.flag F.PLT_CMD_STATUS.RUNNING = false) (h : c.bathInvalid u i src timed = true) :
    c.stopBath u i src timed = c.finish portPlt stInvalid := by
  rw [Chip.stopBath, command_of_idle (p := portPlt) hrun, h]
  exact if_pos rfl

theorem stopBath_ahead (hrun : c.flag F.PLT_CMD_STATUS.RUNNING = false) (hvalid : c.bathInvalid u i src true = false)
    (hload : src = true → loadOnlyDiffers (c.plate.cur.getD []) (c.plate.pend.getD []) = false)
    (hallowed : c.bathDenied u i src = false) (hfree : c.bathBusy u i = false)
    (hclass : c.timeClass (c.getQ F.PLT_CMD_TIME.V) = .ahead) :
    c.stopBath u i src true = c.bathTake u i src (some .ahead) (c.getQ F.PLT_CMD_TIME.V) := by
  rw [Chip.stopBath, command_of_idle (p := portPlt) hrun]
  simp [hvalid, Bool.and_eq_false_imp.mpr hload, hallowed, hfree, hclass]

theorem bathTake_now (t : Nat) : c.bathTake u i src none t = ((((c.putF F.PLT_CMD_STATUS.ENTRY c.freeBath).putF
    F.PLT_SB_STATE.all (i * 2 ^ 16 + u * 2 ^ 12 + b2n src * 2 ^ 11) c.freeBath).startDrain c.freeBath false).finish portPlt stOk) := by
  rw [Chip.bathTake] <;> exact nofun

theorem bathTake_ahead (t : Nat) : c.bathTake u i src (some .ahead) t = (((((c.putF F.PLT_CMD_STATUS.ENTRY c.freeBath).putF
    F.PLT_SB_STATE.all (i * 2 ^ 16 + u * 2 ^ 12 + b2n src * 2 ^ 11) c.freeBath).putQ F.PLT_SB_TIME.V t c.freeBath).putF
    F.PLT_SB_STATE.PHASE 1 c.freeBath).finish portPlt stOk) := by
  rw [Chip.bathTake]

/-! ### CANCEL (R73) -/

/-- An entry emptied, and no longer late. -/
def bathFreed (c : Chip) (n : Nat) : Chip :=
  let d : Chip := { c with time := { c.time with late := c.time.late.filter (· != PendAct.bath n) } }
  (d.putF F.PLT_SB_STATE.all 0 n).putQ F.PLT_SB_TIME.V 0 n

theorem cancelBath_eq (hrun : c.flag F.PLT_CMD_STATUS.RUNNING = false) :
    c.cancelBath n = if c.sbPhase n ≠ 1 then c.finish portPlt stInvalid else (bathFreed c n).finish portPlt stOk := by
  rw [Chip.cancelBath, command_of_idle (p := portPlt) hrun]
  rfl

theorem within_bathFreed (c : Chip) (n : Nat) : Within [.regs, .time] c (bathFreed c n) := by
  unfold bathFreed
  extract_lets t d
  have hd : Within [.regs, .time] c d := (Within.refl _ _).time _
  exact (hd.andThen (within_putF ..)).andThen (within_putQ ..)

theorem state_bathFreed (c : Chip) (n : Nat) : (bathFreed c n).rd (F.PLT_SB_STATE.all.addr n) = 0 := by
  have hstate : F.PLT_SB_STATE.all.addr n = 0x10100 + n * 0x10 + 0 * 0 := rfl
  have htime : F.PLT_SB_TIME.V.addr n = 0x10108 + n * 0x10 + 0 * 0 := rfl
  unfold bathFreed
  extract_lets t d
  rw [Chip.rd_putQ_ne (by omega) (by omega)]
  refine BitVec.eq_of_toNat_eq ?_
  have h : (d.putF F.PLT_SB_STATE.all 0 n).getF F.PLT_SB_STATE.all n = 0 := Chip.getF_putF (by decide) ..
  rw [Chip.getF] at h
  have hall (x : Nat) : bitsOf F.PLT_SB_STATE.all.hi F.PLT_SB_STATE.all.lo x = x / 1 % 2 ^ 32 := rfl
  rw [hall, Nat.div_one, Nat.mod_eq_of_lt (BitVec.isLt _)] at h
  exact h

theorem cancelBath_rest (hn : n < 8) (hrun : c.flag F.PLT_CMD_STATUS.RUNNING = false) (hphase : c.sbPhase n = 1) :
    (c.cancelBath n).sbPhase n = 0 ∧ (c.cancelBath n).getF F.PLT_SB_STATE.all n = 0 ∧
    (c.cancelBath n).getQ F.PLT_SB_TIME.V n = 0 ∧ (c.cancelBath n).getF F.PLT_CMD_STATUS.STATUS = stOk ∧
    (c.cancelBath n).plate = c.plate := by
  have hall : F.PLT_SB_STATE.all.addr n = 0x10100 + n * 0x10 + 0 * 0 := rfl
  have htime : F.PLT_SB_TIME.V.addr n = 0x10108 + n * 0x10 + 0 * 0 := rfl
  have hplt : portPlt.done.addr = 0x10004 := rfl
  have hpba : offPba (F.PLT_SB_STATE.all.addr n) := .inl (by omega)
  have hrd : (c.cancelBath n).rd (F.PLT_SB_STATE.all.addr n) = 0 := by
    rw [cancelBath_eq hrun, if_neg (not_not.mpr hphase), Chip.rd_finish laid_portPlt (by omega) hpba.not_isPba,
      state_bathFreed]
  have hzero (f : Fld) (hf : f.addr n = F.PLT_SB_STATE.all.addr n) : (c.cancelBath n).getF f n = 0 := by
    rw [Chip.getF, hf, hrd]
    simp [bitsOf]
  refine ⟨hzero _ rfl, hzero _ rfl, ?_, ?_, ?_⟩
  · have hq : (bathFreed c n).getQ F.PLT_SB_TIME.V n = 0 := Chip.getQ_putQ ..
    rw [cancelBath_eq hrun, if_neg (not_not.mpr hphase), getQ_finish_apart laid_portPlt (by omega) (.inl (by omega)), hq]
  · rw [cancelBath_eq hrun, if_neg (not_not.mpr hphase)]
    exact (Chip.finish_status laid_portPlt (by decide)).1
  · rw [cancelBath_eq hrun, if_neg (not_not.mpr hphase), (within_finish ..).plate_eq, (within_bathFreed ..).plate_eq]

/-! ### The phases (R70 to R73) -/

theorem bathDrained_eq (hphase : c.sbPhase n = 2) (hdrained : c.drained n = true) (hunit : c.sbUnit n ≠ 3) :
    c.bathDrained n = c.putF F.PLT_SB_STATE.PHASE 3 n := by
  have hkept : (c.putF F.PLT_SB_STATE.PHASE 3 n).sbUnit n ≠ 3 := by
    rw [Chip.sbUnit, getF_putF_apart (by decide) (.inr (by decide))]
    exact hunit
  rw [Chip.bathDrained, if_neg (by simp [hphase, hdrained])]
  exact if_neg hkept

/-- The device with the read's value. -/
def sbValue (c : Chip) (n : Nat) : Chip := { c with rdData := BitVec.ofNat 64 (c.getF F.PLT_SB_STATE.all n) }

theorem sbRead_eq : c.sbRead n = if c.sbPhase n = 5
    then ({ c with rdData := BitVec.ofNat 64 (c.getF F.PLT_SB_STATE.all n) } : Chip).putF F.PLT_SB_STATE.all 0 n
    else { c with rdData := BitVec.ofNat 64 (c.getF F.PLT_SB_STATE.all n) } := by
  have hphase : (sbValue c n).sbPhase n = c.sbPhase n :=
    getF_of_regs ((Within.refl [.rdData] c).rdData _).regs_eq ..
  rw [← hphase]
  rfl

theorem bathRestarted_eq {ms : List Nat} (hphase : c.sbPhase n = 4) (hunit : c.sbUnit n ≠ 7) :
    c.bathRestarted n ms = (c.bathMixed n).bathEnd n (if c.plate.bathLate.contains n then stLate else stOk) true true := by
  rw [Chip.bathRestarted, if_neg (not_not.mpr hphase), if_neg hunit]

end

/-- Settles O22: the command, then the step of each phase. -/
theorem stopBathEntriesPassTheirPhases : Obligations.StopBathEntriesPassTheirPhases := by
  unfold Obligations.StopBathEntriesPassTheirPhases
  refine ⟨fun s u i src hvin hrun hvalid hload hallowed hfree => ?_,
    fun s u i src d hvin hrun hvalid hload hallowed hfree hd hclass => ?_, fun s u i src timed hvin hrun hinvalid => ?_,
    fun s n hvin hrun hphase => ?_, fun s n hvin hrun hphase => ?_, fun s n hvin hphase hlate hdue => ?_,
    fun s n hvin hphase hlate => ?_, fun s n hvin hphase hdrained hunit => ?_, fun s n hvin hphase hdrained => ?_,
    fun s n hvin hphase => ?_, fun s n ms hvin hphase hunit => ?_, fun s n hvin hphase => ?_, fun s n hvin hphase => ?_⟩
  · rw [exec_stopBath hvin, stopBath_of_allowed_untimed hrun hvalid hload hallowed hfree, bathTake_now]
  · subst hd
    rw [exec_stopBath hvin, stopBath_ahead hrun hvalid hload hallowed hfree hclass, bathTake_ahead]
  · rw [exec_stopBath hvin, stopBath_invalid hrun hinvalid]
  · exact on_exists (f := (·.cancelBath n)) hvin (cancelBath_rest n.isLt hrun hphase)
  · refine on_eq (f := (·.cancelBath n)) hvin ?_
    rw [cancelBath_eq hrun, if_pos hphase]
  · refine on_eq (f := fun c => (c.bathStart n).flush) hvin ?_
    rw [Chip.bathStart, if_neg (not_not.mpr hphase), hlate, if_neg nofun, hdue, if_pos rfl]
  · refine on_eq (f := fun c => (c.bathStart n).flush) hvin ?_
    rw [Chip.bathStart, if_neg (not_not.mpr hphase), hlate, if_pos rfl]
  · exact on_eq (f := fun c => (c.bathDrained n).flush) hvin (congrArg Chip.flush (bathDrained_eq hphase hdrained hunit))
  · refine on_eq (f := fun c => (c.drainTimeout n).flush) hvin ?_
    rw [Chip.drainTimeout, if_neg (by simp [hphase, hdrained])]
  · refine on_eq (f := fun c => (c.bathApplied n).flush) hvin ?_
    rw [Chip.bathApplied, if_neg (not_not.mpr hphase)]
  · exact on_eq (f := fun c => (c.bathRestarted n ms).flush) hvin (congrArg Chip.flush (bathRestarted_eq hphase hunit))
  · refine on_eq (f := (·.sbRead n)) hvin ?_
    rw [sbRead_eq, if_pos hphase]
  · refine on_eq (f := (·.sbRead n)) hvin ?_
    rw [sbRead_eq, if_neg hphase]

end Sys2Proof.Proofs
end

section
/-!
The states of a lane (R89 to R93, R101).
-/
namespace Sys2Proof.Proofs
open Sys2Proof Sys2Proof.Machine
set_option Elab.async false

/-! ### A line lane's own registers -/

section
variable {c d e : Chip} {l : Nat}

theorem addr_lane (f : Fld) (hl : l < 1024) : (f.lane l).addr = f.base + l * 0x400 + 0 * f.s2 := by
  rw [Fld.lane, if_pos hl]
  rfl

/-- A step of a line lane that leaves the lane's state and every register past the lanes' alone. -/
structure LaneStep (l : Nat) (c d : Chip) : Prop where
  far : ∀ k, 0x300000 ≤ k → d.rd k = c.rd k
  state : d.lstate l = c.lstate l

theorem LaneStep.refl (l : Nat) (c : Chip) : LaneStep l c c := ⟨fun _ _ => rfl, rfl⟩

theorem LaneStep.trans (h : LaneStep l c d) (k : LaneStep l d e) : LaneStep l c e :=
  ⟨fun a ha => (k.far a ha).trans (h.far a ha), k.state.trans h.state⟩

theorem LaneStep.ite {p : Prop} [Decidable p] (h : LaneStep l c d) (k : LaneStep l c e) : LaneStep l c (if p then d else e) := by
  split
  · exact h
  · exact k

/-- A field of the lanes' registers that shares no bit with STATE. -/
abbrev laneField (f : Fld) : Prop :=
  f.fits ∧ 0x200000 ≤ f.base ∧ f.base < 0x200400 ∧ (f.base ≠ F.LNA_STATUS.STATE.base ∨ f.hi < F.LNA_STATUS.STATE.lo)

theorem rd_lput_far {f : Fld} {v k : Nat} (hl : l < 1024) (hf : f.base < 0x200400) (hk : 0x300000 ≤ k) :
    (c.lput l f v).rd k = c.rd k :=
  Chip.rd_putF_ne (by rw [addr_lane f hl]; omega)

theorem laneStep_lput {f : Fld} (v : Nat) (hl : l < 1024) (hf : laneField f) : LaneStep l c (c.lput l f v) := by
  obtain ⟨hfits, -, hbase, hapart⟩ := hf
  refine ⟨fun k hk => rd_lput_far hl hbase hk, getF_putF_apart ?_ ?_⟩
  · simpa [Fld.lane, hl] using hfits
  · refine hapart.imp (fun h => ?_) fun h => .inl ?_
    · rw [addr_lane _ hl, addr_lane _ hl]
      omega
    · simpa [Fld.lane, hl] using h

theorem laneStep_bump {f : Fld} (hl : l < 1024) (hf : laneField f) : LaneStep l c (c.bump (f.lane l)) :=
  laneStep_lput _ hl hf

theorem laneStep_setDim (tx b : Bool) (hl : l < 1024) : LaneStep l c (c.setDim l tx b) := by
  unfold Chip.setDim
  extract_lets f c1
  have hf : laneField f := by cases tx <;> decide
  have h : LaneStep l c c1 := laneStep_lput _ hl hf
  exact .ite (h.trans (laneStep_bump hl (by decide))) h

theorem laneStep_of_rd (hl : l < 1024) (h : ∀ k, 0x200000 ≤ k → k ≠ 0x200018 + l * 0x400 → d.rd k = c.rd k) :
    LaneStep l c d := by
  have hstate : (F.LNA_STATUS.STATE.lane l).addr = 0x200004 + l * 0x400 + 0 * 0 := addr_lane _ hl
  exact ⟨fun k hk => h k (by omega) (by omega), getF_of_rd (h _ (by omega) (by omega))⟩

theorem laneStep_lraise {f : Fld} (hl : l < 1024) (hf : f.base = 0x200018 ∧ f.s1 = 0x400 ∧ f.s2 = 0) :
    LaneStep l c (c.lraise l f) := by
  obtain ⟨hbase, hs1, hs2⟩ := hf
  have haddr : f.addr l = 0x200018 + l * 0x400 + 0 * 0 := by rw [Fld.addr, hbase, hs1, hs2]
  rw [Chip.lraise, if_pos hl]
  exact laneStep_of_rd hl fun k hk hne => Chip.rd_raise (by omega) (offPba.not_isPba (.inr (by omega)))

theorem rd_condEv {blk inst ev a : Nat} {b : Bool} (ha : ¬isEvReg a) : (c.condEv blk inst ev b).rd a = c.rd a := by
  unfold Chip.condEv
  extract_lets key old t c1
  have hc1 : c1.rd a = c.rd a := rd_of_regs ((Within.refl [.tel] c).tel _).regs_eq a
  split
  · refine (List.foldlRecOn (motive := fun (d : Chip) => d.rd a = c1.rd a) _ _ rfl fun d hd n hn => ?_).trans hc1
    exact (rd_evAdd (lt_of_mem_evSelecting (List.mem_of_mem_filter hn)) ha).trans hd
  · exact hc1

theorem laneStep_condEv {blk inst ev : Nat} {b : Bool} (hl : l < 1024) : LaneStep l c (c.condEv blk inst ev b) :=
  laneStep_of_rd hl fun k hk _ => rd_condEv (by unfold isEvReg; omega)

/-- The lane in its new state, before its port follows. -/
def laneMoved (c : Chip) (l s : Nat) : Chip :=
  let was := c.laneUp l
  let now := s == 8 || s == 9
  let still := s == 0 || s == 1 || s == 2 || s == 10
  let c := c.lput l F.LNA_STATUS.STATE s
  let c := c.lput l F.LNA_PIN_STATUS.TESTING (b2n (s == 1))
  let c := if still then (c.lput l F.LNA_MODE.RATE 0).lput l F.LNA_STATUS.CDR_LOCK 0 else c
  let c := if s = 2 then (c.setDim l true true).setDim l false true
    else if s = 9 then c else if now && was then c else (c.setDim l true false).setDim l false false
  let c := if was && !now then c.lraise l F.LNA_EVENTS.DOWN else if now && !was then c.lraise l F.LNA_EVENTS.UP else c
  if l < 1024 then (c.condEv 10 l 2 (s == 8)).condEv 10 l 3 (s == 9) else c

theorem laneGo_eq (c : Chip) (l s : Nat) : c.laneGo l s = (laneMoved c l s).laneTold l := rfl

/-- After the write of STATE the steps of the move leave it. -/
theorem laneStep_laneMoved {s : Nat} (hl : l < 1024) : LaneStep l (c.lput l F.LNA_STATUS.STATE s) (laneMoved c l s) := by
  unfold laneMoved
  extract_lets was now still c1 c2 c3 c4 c5
  have h2 : LaneStep l c1 c2 := laneStep_lput _ hl (by decide)
  have h3 : LaneStep l c2 c3 :=
    .ite ((laneStep_lput _ hl (by decide)).trans (laneStep_lput _ hl (by decide))) (.refl ..)
  have h4 : LaneStep l c3 c4 := .ite ((laneStep_setDim _ _ hl).trans (laneStep_setDim _ _ hl))
    (.ite (.refl ..) (.ite (.refl ..) ((laneStep_setDim _ _ hl).trans (laneStep_setDim _ _ hl))))
  have h5 : LaneStep l c4 c5 := .ite (laneStep_lraise hl (by decide)) (.ite (laneStep_lraise hl (by decide)) (.refl ..))
  exact ((h2.trans h3).trans (h4.trans h5)).trans (.ite ((laneStep_condEv hl).trans (laneStep_condEv hl)) (.refl ..))

/-- Which port runs over a lane depends on the ports' modes and widths. -/
theorem laneOwner_of_far (h : ∀ k, 0x300000 ≤ k → d.rd k = c.rd k) (l : Nat) : d.laneOwner l = c.laneOwner l := by
  have haddr (p : Nat) : F.PRT_CFG.MODE.addr p = 0x300000 + p * 0x1000 + 0 * 0 := rfl
  have hwaddr (p : Nat) : F.PRT_CFG.WIDTH.addr p = 0x300000 + p * 0x1000 + 0 * 0 := rfl
  have hmode (p : Nat) : d.getF F.PRT_CFG.MODE p = c.getF F.PRT_CFG.MODE p := getF_of_rd (h _ (by have := haddr p; omega))
  have hwidth (p : Nat) : d.getF F.PRT_CFG.WIDTH p = c.getF F.PRT_CFG.WIDTH p := getF_of_rd (h _ (by have := hwaddr p; omega))
  simp only [Chip.laneOwner, Chip.portPresent, Chip.portLanes, Chip.portWidth, hmode, hwidth]

theorem fits_lane {f : Fld} (hf : f.fits) (l : Nat) : (f.lane l).fits := by
  unfold Fld.lane
  split <;> exact hf

theorem width_lane (f : Fld) (l : Nat) : (f.lane l).width = f.width := by
  rw [Fld.width, Fld.width, Fld.lane, apply_ite Fld.hi, apply_ite Fld.lo, ite_self, ite_self]

theorem lget_lput {f : Fld} {v : Nat} (hf : f.fits) : (c.lput l f v).lget l f = v % 2 ^ f.width := by
  rw [Chip.lget, Chip.lput, Chip.getF_putF (fits_lane hf l), width_lane]

/-- A line lane that no port runs over is in the state it entered. -/
theorem lstate_laneGo {s : Nat} (hl : l < 1024) (hs : s < 16) (hown : c.laneOwner l = none) : (c.laneGo l s).lstate l = s := by
  have h := laneStep_laneMoved (c := c) (s := s) hl
  have hnone : (laneMoved c l s).laneOwner l = none := by
    rw [laneOwner_of_far h.far, laneOwner_of_far (fun k hk => rd_lput_far hl (by decide) hk), hown]
  have hput : (c.lput l F.LNA_STATUS.STATE s).lstate l = s :=
    (lget_lput (by decide)).trans (Nat.mod_eq_of_lt hs)
  rw [laneGo_eq, Chip.laneTold, hnone]
  exact h.state.trans hput

/-! ### Commands -/

theorem lget_lput_apart {f g : Fld} {v : Nat} (hf : f.fits)
    (h : f.base = g.base ∧ (f.hi < g.lo ∨ g.hi < f.lo) ∨ f.base ≠ g.base ∧ 0x200000 ≤ f.base ∧ 0x200000 ≤ g.base) :
    (c.lput l f v).lget l g = c.lget l g := by
  refine getF_putF_apart (fits_lane hf l) ?_
  rcases h with ⟨-, hbits⟩ | ⟨hne, hfb, hgb⟩
  · right
    unfold Fld.lane
    split <;> exact hbits
  · left
    unfold Fld.lane Fld.addr
    split <;> dsimp only <;> omega

/-- A lane without ENABLE is held OFF. -/
theorem laneMayRun_disabled : (c.lput l F.LNA_CTRL.ENABLE 0).laneMayRun l = false := by
  have h : (c.lput l F.LNA_CTRL.ENABLE 0).lflag l F.LNA_CTRL.ENABLE = false := by
    have hget : (c.lput l F.LNA_CTRL.ENABLE 0).lget l F.LNA_CTRL.ENABLE = 0 % 2 ^ 1 := lget_lput (by decide)
    rw [Chip.lflag, Chip.flag, ← Chip.lget, hget]
    rfl
  rw [Chip.laneMayRun, h, Bool.false_and]

theorem pinCodes_none : c.pinCodes l 0 0 = (c.lput l F.LNA_PIN_STATUS.TX_FAULT 0).lput l F.LNA_PIN_STATUS.RX_FAULT 0 := by
  unfold Chip.pinCodes
  simp

theorem pinResult_fatal {tx rx : Nat} (b : Bool) (h : (pinFatal tx || pinFatal rx) = true) :
    c.pinResult l tx rx b = (((c.pinCodes l tx rx).laneReason l 5).onLane l LaneSt.fresh).laneGo l 10 := by
  rw [Chip.pinResult, if_pos h]

theorem groupOf_self (h : (c.lane l).groupBack = false) : c.groupOf l = [l] := by
  rw [Chip.groupOf, h, if_neg nofun]

end

/-- Settles O23: each command by the lane's state. -/
theorem laneStatesFollowTheirEvents : Obligations.LaneStatesFollowTheirEvents := by
  unfold Obligations.LaneStatesFollowTheirEvents
  refine ⟨fun s l hvin hrun hoff => ?_, fun s l hvin => ?_, fun s l hvin hgroup h0 h1 h10 h11 => ?_, fun s l hvin hst => ?_,
    fun s l hvin hst => ?_, fun s l tx rx hvin hst hfatal => ?_, fun s l tx rx hvin hst hfatal => ?_,
    fun s l hvin hst => ?_, fun s l hvin hst => ?_, fun s l n hvin hswitch => ?_, fun s l hvin hst => ?_,
    fun s l hvin hlo hhi => ?_, fun s l hvin hst hgroup => ?_, fun s l hvin hst => ?_, fun s l hvin hup => ?_,
    fun s l ffe hvin hst => ?_, fun s l heard hvin hst => ?_, fun c l k hl hk hown => lstate_laneGo hl hk hown,
    fun c l r => rfl⟩
  · refine on_eq (f := fun c => (c.lput l F.LNA_CTRL.ENABLE 1).laneCheck l) hvin ?_
    rw [Chip.laneCheck, hrun, if_neg nofun, if_pos hoff, Chip.pinTest]
  · refine on_eq (f := fun c => (c.lput l F.LNA_CTRL.ENABLE 0).laneCheck l) hvin ?_
    rw [Chip.laneCheck, laneMayRun_disabled]
    exact if_pos rfl
  · refine on_eq (f := (·.laneRestart l)) hvin ?_
    rw [Chip.laneRestart, if_neg (by simp [h0, h1, h10, h11]), groupOf_self hgroup]
    rfl
  · refine on_self (f := (·.laneRestart l)) ?_
    rw [Chip.laneRestart, if_pos (by rcases hst with h | h | h | h <;> simp [h])]
  · refine on_eq (f := (·.pinDone l 0 0)) hvin ?_
    rw [Chip.pinDone, if_pos hst, Chip.pinResult, if_neg (by decide), if_pos rfl, pinCodes_none]
  · refine on_eq (f := (·.pinDone l tx rx)) hvin ?_
    rw [Chip.pinDone, if_pos hst, pinResult_fatal _ hfatal]
  · refine on_eq (f := (·.pinFault l tx rx)) hvin ?_
    rw [Chip.pinFault, if_neg hst, pinResult_fatal _ hfatal]
  · have h : s.chip.retest l = (s.chip.onLane l LaneSt.fresh).laneGo l 1 := by rw [Chip.retest, if_pos hst, Chip.pinTest]
    exact ⟨on_eq (f := (·.retest l)) hvin h, on_eq (f := (·.retest l)) hvin h⟩
  · have h : s.chip.retest l = s.chip := by rw [Chip.retest, if_neg hst]
    exact ⟨on_self (f := (·.retest l)) h, on_self (f := (·.retest l)) h⟩
  · refine on_eq (f := (·.stepSwitch l)) hvin ?_
    rw [Chip.stepSwitch, hswitch]
  · refine ⟨on_eq (f := (·.stepAcquired l)) hvin ?_, on_eq (f := fun c => if c.lstate l = 5 then c.laneFail l 2 else c) hvin ?_⟩
    · rw [Chip.stepAcquired, if_pos hst]
    · rw [if_pos hst]
  · refine on_eq (f := (·.stepTimeout l)) hvin ?_
    rw [Chip.stepTimeout, if_neg (by omega)]
    simp
  · refine on_eq (f := (·.backoffEnd l)) hvin ?_
    rw [Chip.backoffEnd, if_pos hst, groupOf_self hgroup]
    rfl
  · refine on_eq (f := (·.signalRise l)) hvin ?_
    exact if_pos hst
  · refine on_eq (f := (·.linkLost l)) hvin ?_
    rw [Chip.linkLost, if_pos hup]
  · exact on_eq (f := fun c => if c.lstate l = 3 then (c.lput l F.LNA_TX_FFE.all ffe.toNat).laneIsUp l else c) hvin (if_pos hst)
  · exact on_eq (f := fun c => if c.lstate l = 3 then c.laneFail l (if heard then 2 else 1) else c) hvin (if_pos hst)

end Sys2Proof.Proofs
end

section
/-!
The sets of the staircase (R83, R86 to R89).
-/
namespace Sys2Proof.Proofs
open Sys2Proof Sys2Proof.Machine
set_option Elab.async false

section
variable {c : Chip} {l : Nat} {g : SetGroups} {pl : Bytes}

theorem setIn_none (t : Nat) (h : (g.ctrlOk && g.dataOk) = false ∨ crc8 (g.grp.take 13) ≠ byteAt g.grp 13) :
    c.setIn l t g = none := by
  rw [Chip.setIn, if_neg]
  rintro ⟨-, -, -, hctrl, hdata, -, hcrc, -⟩
  rcases h with h | h
  · rw [hctrl, hdata] at h
    exact absurd h nofun
  · exact h hcrc

/-- A set that does not arrive whole changes nothing. -/
theorem sets_ignored {s : State} {l : Fin 1032} (h : ∀ t, s.chip.setIn l t g = none) :
    exec (.capSet l g) s = .next s ∧ exec (.ackSet l g) s = .next s ∧ exec (.stepSet l g) s = .next s ∧
    exec (.qualSet l g) s = .next s ∧ exec (.holdSet l g) s = .next s ∧ exec (.abortSet l g) s = .next s ∧
    exec (.upSet l g) s = .next s := by
  refine ⟨on_self (f := (·.capSet l g)) ?_, on_self (f := (·.ackSet l g)) ?_, on_self (f := (·.stepSet l g)) ?_,
    on_self (f := (·.qualSet l g)) ?_, on_self (f := (·.holdSet l g)) ?_, on_self (f := (·.abortSet l g)) ?_,
    on_self (f := (·.upSet l g)) ?_⟩
  · rw [Chip.capSet, h]
  · rw [Chip.ackSet, h]
  · rw [Chip.stepSet, h]
  · rw [Chip.qualSet, h]
  · rw [Chip.holdSet, h]
  · rw [Chip.abortSet, h]
  · rw [Chip.upSet, h]

/-- Where the STEP exchange completes, the lane takes only the step to switch to. -/
theorem stepCheck_lane (d : Chip) (l : Nat) :
    ((d.stepCheck l).lane l).acks = (d.lane l).acks ∧ ((d.stepCheck l).lane l).partStep = (d.lane l).partStep ∧
    (d.stepCheck l).regs = d.regs ∧ ∀ k, k ≠ l → (d.stepCheck l).lane k = d.lane k := by
  unfold Chip.stepCheck
  extract_lets x
  split
  · split
    · refine ⟨?_, ?_, (within_onLane ..).regs_eq, fun k hk => ?_⟩
      · rw [Chip.lane_onLane, if_pos rfl]
      · rw [Chip.lane_onLane, if_pos rfl]
      · rw [Chip.lane_onLane, if_neg hk.symm]
    · exact ⟨rfl, rfl, rfl, fun _ _ => rfl⟩
  · exact ⟨rfl, rfl, rfl, fun _ _ => rfl⟩

theorem stepSet_rest (h : c.setIn l 3 g = some pl) :
    ((c.stepSet l g).lane l).acks = (c.lane l).acks ++ [(3, byteAt pl 1)] ∧
    ((c.stepSet l g).lane l).partStep = (c.nextStep l).map (min (byteAt pl 0)) ∧ (c.stepSet l g).regs = c.regs ∧
    ∀ k, k ≠ l → (c.stepSet l g).lane k = c.lane k := by
  rw [Chip.stepSet, h]
  dsimp only
  obtain ⟨hacks, hpart, hregs, hlanes⟩ := stepCheck_lane (c.onLane l fun x => { x with
      acks := x.acks ++ [(3, byteAt pl 1)]
      partStep := (c.nextStep l).map (min (byteAt pl 0)) }) l
  refine ⟨hacks.trans ?_, hpart.trans ?_, hregs.trans (within_onLane ..).regs_eq, fun k hk => (hlanes k hk).trans ?_⟩
  · rw [Chip.lane_onLane, if_pos rfl]
  · rw [Chip.lane_onLane, if_pos rfl]
  · rw [Chip.lane_onLane, if_neg hk.symm]

/-- CAP's payload is kept, its top step and the lock shown. -/
def capTaken (c : Chip) (l : Nat) (pl : Bytes) : Chip :=
  ((c.putWords (F.LNA_SC_PARTNER.V.lane l).base pl).lput l F.LNA_SC_STATUS.PARTNER_MAX (byteAt pl 4)).lput l
    F.LNA_STATUS.CDR_LOCK 1

theorem capSet_eq (h : c.setIn l 1 g = some pl) (hst : c.lstate l = 4) : c.capSet l g =
    if !(capTaken c l pl).capFits l pl then (capTaken c l pl).laneFail l 8
    else match (capTaken c l pl).laneTarget l with
      | none => (capTaken c l pl).laneFail l 8
      | some t => (((capTaken c l pl).lput l F.LNA_SC_STATUS.TARGET t).onLane l fun x =>
          { x with capIn := true, acks := x.acks ++ [(1, byteAt pl 11)] }).s0Check l := by
  rw [Chip.capSet, h]
  exact if_neg (not_not.mpr hst)

theorem ackSet_cap (h : c.setIn l 2 g = some pl) (htype : byteAt pl 0 = 1) (hsent : (smFind (c.lane l).contents 1).isSome = true)
    (hseq : smGet (fun _ => 0) (c.lane l).seqs 1 = byteAt pl 1) :
    c.ackSet l g = (c.onLane l fun x => { x with capAcked := true }).s0Check l := by
  have hknown : ¬((smFind (c.lane l).contents 1).isNone = true ∨ smGet (fun _ => 0) (c.lane l).seqs 1 ≠ byteAt pl 1) := by
    rw [← Option.not_isSome, hsent, hseq]
    simp
  rw [Chip.ackSet, h]
  dsimp only
  rw [htype, if_neg hknown, if_pos rfl]

theorem upSet_eq (h : c.setIn l 7 g = some pl) (hstep : byteAt pl 0 = c.lget l F.LNA_STATUS.STEP) :
    c.upSet l g = if (c.lane l).upSent then (c.onLane l fun x => { x with upIn := true }).laneIsUp l
      else c.onLane l fun x => { x with upIn := true } := by
  have hsent : ((c.onLane l fun x => { x with upIn := true }).lane l).upSent = (c.lane l).upSent := by
    rw [Chip.lane_onLane, if_pos rfl]
  have hin : ((c.onLane l fun x => { x with upIn := true }).lane l).upIn = true := by
    rw [Chip.lane_onLane, if_pos rfl]
  rw [Chip.upSet, h]
  dsimp only
  rw [if_neg (not_not.mpr hstep), Chip.upCheck, hsent, hin, Bool.and_true]

theorem qualSet_eq (h : c.setIn l 4 g = some pl) (hst : c.lstate l = 6) (hstep : byteAt pl 0 = c.lget l F.LNA_STATUS.STEP) :
    c.qualSet l g = if byteAt pl 1 = 1 then (c.onLane l fun x => { x with qualPart := some true }).qualCheck l
      else c.qualFail l := by
  rw [Chip.qualSet, h]
  exact if_neg (by rintro (h | h) <;> contradiction)

/-- ABORT is sent first, and once. -/
theorem setTx_abort {r : Nat} (h : (c.lane l).abortOut = some r) :
    ((c.setTx l).lane l).abortOut = none ∧ ((c.setTx l).lane l).lastTx.map Prod.fst = some 6 ∧ (c.setTx l).regs = c.regs := by
  have heq : c.setTx l = (c.txSet l 6 (natBe 1 r)).onLane l fun x => { x with abortOut := none } := by
    rw [Chip.setTx, h]
  rw [heq]
  refine ⟨?_, ?_, (within_onLane ..).regs_eq.trans (within_txSet ..).regs_eq⟩
  · rw [Chip.lane_onLane, if_pos rfl]
  · rw [Chip.lane_onLane, if_pos rfl, Chip.txSet, Chip.lane_onLane, if_pos rfl]
    rfl

theorem setTx_ack {a q : Nat} {rest : List (Nat × Nat)} (habort : (c.lane l).abortOut = none)
    (hacks : (c.lane l).acks = (a, q) :: rest) (hst : 4 ≤ c.lstate l ∧ c.lstate l ≤ 7) :
    c.setTx l = c.onLane l fun x => { x with acks := rest, lastTx := some (2, natBe 1 a ++ natBe 1 q ++ zerosB 10) } := by
  rw [Chip.setTx, habort, hacks]
  exact if_pos hst

/-- The device with the window's count and the lane's own report. -/
def qualReported (c : Chip) (l errs : Nat) (ok : Bool) : Chip :=
  (c.lput l F.LNA_SC_LAST_ERR.V (min errs (2 ^ 32 - 1))).onLane l fun x => { x with qualOwn := some ok }

theorem qualEnd_unaligned {errs : Nat} (hst : c.lstate l = 6) (hown : (c.lane l).qualOwn = none) :
    c.qualEnd l errs false = (qualReported c l errs false).qualFail l := by
  rw [Chip.qualEnd, if_neg (by rintro (h | h) <;> contradiction)]
  exact if_neg nofun

end

/-- Settles O24: what each type of set does to the lane. -/
theorem staircaseSetsNegotiate : Obligations.StaircaseSetsNegotiate := by
  unfold Obligations.StaircaseSetsNegotiate
  refine ⟨fun s l g hvin h => sets_ignored fun t => setIn_none t (.inl h),
    fun s l g hvin h => sets_ignored fun t => setIn_none t (.inr h), fun s l g pl hvin h => ?_, fun s l g pl hvin h => ?_,
    fun s l g pl hvin h hstep hsent => ?_, fun s l g pl hvin h hstep hsent => ?_, fun s l g pl hvin h => ?_,
    fun s l g pl hvin h hst hstep hpass => ?_, fun s l g pl hvin h hst hstep hpass => ?_,
    fun s l g pl hvin h htype hsent hseq => ?_, fun s l g pl hvin h hst => ?_, fun s l r hvin h => ?_,
    fun s l a q rest hvin habort hacks hlo hhi => ?_, fun s l errs al hvin hst hown => ?_⟩
  · refine on_eq (f := (·.holdSet l g)) hvin ?_
    rw [Chip.holdSet, h]
  · refine on_eq (f := (·.abortSet l g)) hvin ?_
    rw [Chip.abortSet, h]
  · refine on_eq (f := (·.upSet l g)) hvin ?_
    rw [upSet_eq h hstep, hsent, if_neg nofun]
  · refine on_eq (f := (·.upSet l g)) hvin ?_
    rw [upSet_eq h hstep, hsent, if_pos rfl]
  · exact on_exists (f := (·.stepSet l g)) hvin (stepSet_rest h)
  · refine on_eq (f := (·.qualSet l g)) hvin ?_
    rw [qualSet_eq h hst hstep, if_neg hpass]
  · refine on_eq (f := (·.qualSet l g)) hvin ?_
    rw [qualSet_eq h hst hstep, if_pos hpass]
  · exact on_eq (f := (·.ackSet l g)) hvin (ackSet_cap h htype hsent hseq)
  · refine ⟨capTaken s.chip l pl, ⟨s.chip.capSet l g, s.pending⟩, rfl, State.on_vin hvin (·.capSet l g), fun hfits => ?_, fun hfits hnone => ?_,
      fun n hfits hsome => ?_⟩
    · rw [capSet_eq h hst, hfits, Bool.not_false, if_pos rfl]
    · rw [capSet_eq h hst, hfits, if_neg nofun, hnone]
    · rw [capSet_eq h hst, hfits, if_neg nofun, hsome]
  · exact on_exists (f := (·.setTx l)) hvin (setTx_abort h)
  · exact on_eq (f := (·.setTx l)) hvin (setTx_ack habort hacks ⟨hlo, hhi⟩)
  · refine ⟨_, ⟨s.chip.qualEnd l errs al, s.pending⟩, rfl, State.on_vin hvin (·.qualEnd l errs al), fun hal => ?_⟩
    subst hal
    exact (qualEnd_unaligned hst hown).trans rfl

end Sys2Proof.Proofs
end

section
/-!
The equaliser, the pattern generator and checker, alignment, polarity and dim of a lane (R79 to R82, R89, R94 to R102).
-/
namespace Sys2Proof.Proofs
open Sys2Proof Sys2Proof.Machine
set_option Elab.async false

section
variable {c : Chip} {l : Nat}

/-! ### RESET_ADAPT (R82) -/

theorem resetAdapt_rest : ((c.resetAdapt l).lane l).rxAdaptRuns = (c.lane l).rxAdaptRuns + 1 ∧
    (c.resetAdapt l).freeCtr = c.freeCtr + 1 ∧
    (c.resetAdapt l).lget l F.LNA_RX_EQ_STATUS.CTLE_PEAK = Config.freeNat c.freeCtr % 2 ^ F.LNA_RX_EQ_STATUS.CTLE_PEAK.width := by
  unfold Chip.resetAdapt Chip.rxAdapted
  extract_lets v
  have hv : v = Config.freeNat c.freeCtr := rfl
  clear_value v
  subst hv
  refine ⟨?_, ?_, ?_⟩
  · have h : ((((c.onLane l fun x => { x with rxAdaptRuns := x.rxAdaptRuns + 1 }).lput l F.LNA_RX_EQ_STATUS.CTLE_PEAK
        (Config.freeNat c.freeCtr)).lput l F.LNA_RX_EQ_STATUS.GAIN (Config.freeNat c.freeCtr / 256)).lput l
        F.LNA_RX_EQ_STATUS.EYE_MARGIN (Config.freeNat c.freeCtr / 65536)).useFree.lanes =
        (c.onLane l fun x => { x with rxAdaptRuns := x.rxAdaptRuns + 1 }).lanes :=
      ((((within_lput ..).andThen (within_lput ..)).andThen (within_lput ..)).mono.andThen
        (within_useFree ..) : Within [.regs, .freeCtr] _ _).lanes_eq
    rw [Chip.lane, h, ← Chip.lane, Chip.lane_onLane, if_pos rfl]
  · rfl
  · rw [Chip.lget, Chip.getF_useFree, ← Chip.lget, lget_lput_apart (by decide) (by decide),
      lget_lput_apart (by decide) (by decide), lget_lput (by decide)]

/-! ### The checker's lock (R96) -/

/-- The registers of a line lane, and of a management lane, start at one address. -/
theorem lane_base (l : Nat) (hl : l < 1032) : ∃ b, (0x200000 ≤ b ∨ 0x38000 ≤ b ∧ b < 0x3A000) ∧
    ∀ f : Fld, 0x200000 ≤ f.base → (f.lane l).addr = b + (f.base - 0x200000) := by
  by_cases h : l < 1024
  · refine ⟨0x200000 + l * 0x400, .inl (by omega), fun f hf => ?_⟩
    rw [addr_lane f h]
    omega
  · refine ⟨0x38000 + (l - 1024) * 0x400, .inr (by omega), fun f hf => ?_⟩
    rw [Fld.lane, if_neg h, Fld.addr]
    dsimp only
    omega

theorem rd_lraise {f : Fld} {k : Nat} (hf : f.s1 = 0x400 ∧ f.s2 = 0) (hk : k ≠ (f.lane l).addr ∧ k ≠ 0x30008)
    (hpba : offPba k) : (c.lraise l f).rd k = c.rd k := by
  obtain ⟨hs1, hs2⟩ := hf
  obtain ⟨hlane, hmgt⟩ := hk
  unfold Chip.lraise
  split
  next hl =>
    have haddr : f.addr l = (f.lane l).addr := by
      rw [addr_lane f hl, Fld.addr, hs1, hs2]
    exact Chip.rd_raise (by rw [haddr]; exact hlane) hpba.not_isPba
  · split
    · rfl
    · exact (Chip.rd_raise hmgt hpba.not_isPba).trans (Chip.rd_putF_ne hlane)

/-- The lock's end, with its counts. -/
def lockCounted (c : Chip) (l bits errs : Nat) : Chip := (c.lcount l F.LNA_PC_BITS.V bits).lcount l F.LNA_PC_ERR.V errs

theorem lockLost_eq {bits errs : Nat} (h : c.lflag l F.LNA_PC_STATUS.LOCK = true) : c.lockLost l bits errs =
    (((lockCounted c l bits errs).lput l F.LNA_PC_STATUS.LOCK 0).lput l F.LNA_PC_STATUS.LOCK_LOST 1).lraise l
      F.LNA_EVENTS.PC_LOCK_LOST := by
  rw [Chip.lockLost, h]
  exact if_neg nofun

theorem getQ_of_rd {c d : Chip} {f : Fld} {i j : Nat} (h : d.rd (f.addr i j) = c.rd (f.addr i j))
    (h4 : d.rd (f.addr i j + 4) = c.rd (f.addr i j + 4)) : d.getQ f i j = c.getQ f i j := by
  rw [Chip.getQ, h, h4, ← Chip.getQ]

theorem getQ_lcount {f : Fld} {n : Nat} :
    (c.lcount l f n).getQ (f.lane l) = min (2 ^ 48 - 1) (c.getQ (f.lane l) + n) := by
  rw [Chip.lcount, Chip.bumpQ, Chip.getQ_putQ, satAdd]
  exact Nat.mod_eq_of_lt (by omega)

theorem lockLost_rest {bits errs : Nat} (hl : l < 1032) (h : c.lflag l F.LNA_PC_STATUS.LOCK = true) :
    (c.lockLost l bits errs).lget l F.LNA_PC_STATUS.LOCK = 0 ∧ (c.lockLost l bits errs).lget l F.LNA_PC_STATUS.LOCK_LOST = 1 ∧
    (c.lockLost l bits errs).getQ (F.LNA_PC_BITS.V.lane l) = min (2 ^ 48 - 1) (c.getQ (F.LNA_PC_BITS.V.lane l) + bits) ∧
    (c.lockLost l bits errs).getQ (F.LNA_PC_ERR.V.lane l) = min (2 ^ 48 - 1) (c.getQ (F.LNA_PC_ERR.V.lane l) + errs) := by
  obtain ⟨b, hb, haddr⟩ := lane_base l hl
  have hevent : (F.LNA_EVENTS.PC_LOCK_LOST.lane l).addr = b + 0x18 := haddr _ (by decide)
  have hlock : (F.LNA_PC_STATUS.LOCK.lane l).addr = b + 0xA4 := haddr _ (by decide)
  have hlost : (F.LNA_PC_STATUS.LOCK_LOST.lane l).addr = b + 0xA4 := haddr _ (by decide)
  have hbits : (F.LNA_PC_BITS.V.lane l).addr = b + 0xB0 := haddr _ (by decide)
  have herr : (F.LNA_PC_ERR.V.lane l).addr = b + 0xA8 := haddr _ (by decide)
  have hraise (d : Chip) (k : Nat) (hk : k = b + 0xA4 ∨ k = b + 0xA8 ∨ k = b + 0xAC ∨ k = b + 0xB0 ∨ k = b + 0xB4) :
      (d.lraise l F.LNA_EVENTS.PC_LOCK_LOST).rd k = d.rd k :=
    rd_lraise (by decide) (by omega) (by unfold offPba; omega)
  have hcounts (k : Nat) (hk : k = b + 0xA8 ∨ k = b + 0xAC ∨ k = b + 0xB0 ∨ k = b + 0xB4) :
      (c.lockLost l bits errs).rd k = (lockCounted c l bits errs).rd k := by
    rw [lockLost_eq h, hraise _ _ (by omega), Chip.lput, Chip.rd_putF_ne (by omega), Chip.lput, Chip.rd_putF_ne (by omega)]
  refine ⟨?_, ?_, ?_, ?_⟩
  · rw [lockLost_eq h, Chip.lget, getF_of_rd (hraise _ _ (.inl hlock)), ← Chip.lget, lget_lput_apart (by decide) (by decide),
      lget_lput (by decide)]
    rfl
  · rw [lockLost_eq h, Chip.lget, getF_of_rd (hraise _ _ (.inl hlost)), ← Chip.lget, lget_lput (by decide)]
    rfl
  · rw [getQ_of_rd (hcounts _ (by omega)) (hcounts _ (by omega)), lockCounted]
    refine (getQ_of_rd ?_ ?_).trans getQ_lcount
    · exact Chip.rd_putQ_ne (by omega) (by omega)
    · exact Chip.rd_putQ_ne (by omega) (by omega)
  · rw [getQ_of_rd (hcounts _ (by omega)) (hcounts _ (by omega)), lockCounted, getQ_lcount]
    have hkept : (c.lcount l F.LNA_PC_BITS.V bits).getQ (F.LNA_PC_ERR.V.lane l) = c.getQ (F.LNA_PC_ERR.V.lane l) :=
      getQ_of_rd (Chip.rd_putQ_ne (by omega) (by omega)) (Chip.rd_putQ_ne (by omega) (by omega))
    rw [hkept]

/-! ### CAPTURE (R98) -/

theorem leNat_four (x : Nat) : leNat [BitVec.ofNat 8 x, BitVec.ofNat 8 (x / 256), BitVec.ofNat 8 (x / 256 / 256),
    BitVec.ofNat 8 (x / 256 / 256 / 256)] = x % 2 ^ 32 := by
  simp only [leNat, BitVec.toNat_ofNat]
  omega

theorem rd_putWords_three {a v : Nat} : ((c.putWords a (natLe 12 v)).rd a).toNat = v % 2 ^ 32 ∧
    ((c.putWords a (natLe 12 v)).rd (a + 4)).toNat = v / 2 ^ 32 % 2 ^ 32 ∧
    ((c.putWords a (natLe 12 v)).rd (a + 8)).toNat = v / 2 ^ 64 % 2 ^ 32 := by
  have h8 : a + 4 + 4 ≠ a := by omega
  simp only [natLe, Chip.putWords, leNat_four, Chip.rd_wr, h8, if_false]
  refine ⟨?_, ?_, ?_⟩
  · simp
  · simp
    omega
  · simp
    omega

theorem getBytes_putWords_ten {a v : Nat} : (c.putWords a (natLe 12 v)).getBytes a 10 = natLe 10 v := by
  obtain ⟨h0, h1, h2⟩ := rd_putWords_three (c := c) (a := a) (v := v)
  have hrange : List.range 10 = [0, 1, 2, 3, 4, 5, 6, 7, 8, 9] := rfl
  have hbyte (x y : Nat) (h : x % 256 = y % 256) : BitVec.ofNat 8 x = BitVec.ofNat 8 y :=
    BitVec.eq_of_toNat_eq (by simpa using h)
  generalize c.putWords a (natLe 12 v) = d at h0 h1 h2
  simp only [Chip.getBytes, hrange, List.map, natLe]
  simp [h0, h1, h2]
  refine ⟨?_, ?_, ?_, ?_, ?_, ?_, ?_, ?_, ?_, ?_⟩ <;> exact hbyte _ _ (by omega)

/-! ### Dim (R99, R100) -/

theorem dimEnter_both {p : Nat} (hen : c.lflag l F.LNA_CTRL.DIM_EN = true) (hup : c.laneUp l = true)
    (hown : c.laneOwner l = some p) (hlpi : c.flag F.PRT_STATUS.LPI_CAPABLE p = true) (hgang : c.gangPort p = false)
    (hbring : c.lget l F.LNA_MODE.BRINGUP ≠ 2) (htx : (c.setDim l true true).lflag l F.LNA_STATUS.TX_DIM = true)
    (hrx : (c.setDim l true true).lflag l F.LNA_STATUS.RX_DIM = true) :
    c.dimEnter l true = (c.setDim l true true).laneGo l 9 := by
  unfold Chip.dimEnter
  rw [hown, hen, hup]
  dsimp only
  rw [hlpi, hgang, beq_eq_false_iff_ne.mpr hbring, if_neg nofun, htx, hrx]
  exact if_pos rfl

theorem laneResumed_up {tx : Bool} (hwake : (c.lane l).waking = true)
    (hdim : ((c.setDim l tx false).lflag l F.LNA_STATUS.TX_DIM || (c.setDim l tx false).lflag l F.LNA_STATUS.RX_DIM) = false)
    (hst : (c.setDim l tx false).lstate l = 9) :
    c.laneResumed l tx = ((c.setDim l tx false).onLane l fun x => { x with waking := false }).laneGo l 8 := by
  have hkept : ((c.setDim l tx false).onLane l fun x => { x with waking := false }).lstate l = 9 := by
    rw [Chip.lstate, Chip.lget, Chip.getF_onLane, ← Chip.lget, ← Chip.lstate, hst]
  unfold Chip.laneResumed
  rw [hwake, if_neg nofun]
  dsimp only
  rw [hdim, if_pos hkept]

end

/-- Settles O25: each command by its lane's registers. -/
theorem laneTestAndDimFeatures : Obligations.LaneTestAndDimFeatures := by
  unfold Obligations.LaneTestAndDimFeatures
  refine ⟨fun s l hvin => ?_, fun s l hvin hrate => ?_, fun s l hvin => ?_, fun s l hvin => ?_, fun s l v hvin hsum hst => ?_,
    fun s l v hvin hbad => ?_, fun s l hvin hst => ?_, fun s l hvin hst => ?_, fun s l hvin hen => ?_,
    fun s l bits errs hvin hlock => ?_, fun s l hvin => ?_, fun s l hvin => ?_, fun s l hvin hperiod => ?_, fun s l hvin => ?_,
    fun s l hvin hmode => ?_, fun s l hvin hmode => ?_, fun s l w hvin => ?_, fun s l hvin hpol => ?_,
    fun s l p hvin hen hup hown hlpi hgang hbring htx hrx => ?_, fun s l hvin hup hdim => ?_, fun s l tx hvin hwake => ?_,
    fun s l tx c hvin hwake hc hdim hst => ?_⟩
  · exact on_eq (f := (·.capClear l)) hvin rfl
  · refine on_eq (f := (·.idleFreeze l true)) hvin ?_
    rw [Chip.idleFreeze, if_neg (by simp [hrate])]
  · exact on_eq (f := (·.idleFreeze l false)) hvin (if_neg nofun)
  · exact on_exists (f := (·.resetAdapt l)) hvin resetAdapt_rest
  · refine on_eq (f := (·.ffeWrite l v.toNat)) hvin ?_
    rw [Chip.ffeWrite, if_neg (by omega)]
  · refine on_eq (f := (·.ffeWrite l v.toNat)) hvin ?_
    rw [Chip.ffeWrite, if_pos hbad]
  · refine on_eq (f := (·.pgEnable l true)) hvin ?_
    exact if_pos (by rcases hst with h | h <;> rw [b2n, if_pos rfl, h] <;> rfl)
  · exact on_eq (f := (·.pgEnable l false)) hvin (if_pos hst)
  · exact on_eq (f := fun c => if c.lflag l F.LNA_PC_CTRL.ENABLE then c.lput l F.LNA_PC_STATUS.LOCK 1 else c) hvin (if_pos hen)
  · exact on_exists (f := (·.lockLost l bits errs)) hvin (lockLost_rest l.isLt hlock)
  · exact on_eq (f := (·.pcClear l)) hvin rfl
  · exact on_eq (f := (·.inject l)) hvin rfl
  · exact on_eq (f := fun c => if c.lget l F.LNA_PG_INJ_PERIOD.V = 0 then c else c.inject l) hvin (if_neg hperiod)
  · exact ⟨on_eq (f := (·.alignMode l true)) hvin rfl, on_eq (f := (·.alignMode l false)) hvin rfl⟩
  · refine on_eq (f := (·.bitslip l)) hvin ?_
    rw [Chip.bitslip, hmode]
    exact if_neg nofun
  · refine on_self (f := (·.bitslip l)) ?_
    rw [Chip.bitslip, hmode]
    exact if_pos rfl
  · refine on_exists (f := (·.capture l w.toNat)) hvin ?_
    rw [Chip.capture, Nat.mod_eq_of_lt w.isLt]
    exact getBytes_putWords_ten
  · refine on_eq (f := (·.polarity l)) hvin ?_
    rw [Chip.polarity, if_neg (not_not.mpr hpol)]
  · exact on_eq (f := (·.dimEnter l true)) hvin (dimEnter_both hen hup hown hlpi hgang hbring htx hrx)
  · refine on_eq (f := (·.laneWake l)) hvin ?_
    rw [Chip.laneWake, hup, hdim]
    exact if_pos rfl
  · refine on_self (f := (·.laneResumed l tx)) ?_
    rw [Chip.laneResumed, hwake]
    exact if_pos rfl
  · refine on_eq (f := (·.laneResumed l tx)) hvin ?_
    subst hc
    exact laneResumed_up hwake hdim hst

end Sys2Proof.Proofs
end

section
/-!
Ports (R108, R109, R112, R114, R122), and a frame received by a port from its head to its tail (R113, R115, R116, R124, R125, R389).
-/
namespace Sys2Proof.Proofs
open Sys2Proof Sys2Proof.Machine
set_option Elab.async false

/-! ### Ports -/

section
variable {c : Chip} {p : Nat}

theorem portGiveup_ignored (h : c.getF F.PRT_STATUS.PSTATE p ≠ psForming ∨ c.getF F.PRT_GIVEUP.S p = 0) :
    c.portGiveup p = c := by
  rw [Chip.portGiveup, if_pos h]

theorem portGiveup_all (hst : c.getF F.PRT_STATUS.PSTATE p = psForming) (hsec : c.getF F.PRT_GIVEUP.S p ≠ 0)
    (hmode : c.getF F.PRT_CFG.MODE p ≠ 18) : c.portGiveup p =
    (((c.portLanes p).foldl (fun c l => c.groupBackOff l) c).putF F.PRT_STATUS.PSTATE psGaveUp p).raise F.PRT_EVENTS.GAVE_UP p := by
  rw [Chip.portGiveup, if_neg (by rintro (h | h) <;> contradiction), if_neg fun h => hmode h.1]

theorem portGiveup_half (hst : c.getF F.PRT_STATUS.PSTATE p = psForming) (hsec : c.getF F.PRT_GIVEUP.S p ≠ 0)
    (hmode : c.getF F.PRT_CFG.MODE p = 18) (hdegrade : c.flag F.PRT_CFG.DEGRADE p = true) (hwidth : 2 ≤ c.portWidth p)
    (hhalf : (c.portSt p).half = false)
    (hlanes : ((c.portLanes p).take (c.portWidth p / 2)).all (fun l => c.lstate l == 7 || c.laneUp l) = true) :
    c.portGiveup p = ((((c.portLanes p).drop (c.portWidth p / 2)).foldl (fun c l => c.groupBackOff l)
      (c.setPort p { c.portSt p with half := true })).raise F.PRT_EVENTS.DEGRADED p).portEval p := by
  rw [Chip.portGiveup, if_neg (by rintro (h | h) <;> contradiction),
    if_pos ⟨hmode, hdegrade, hwidth, by rw [hhalf]; rfl, hlanes⟩]

theorem macFrame_eq {op : Nat} {fr : Bytes} (hup : c.portUp p = true) (htype : beAt fr 12 2 = 0x8808) (hop : beAt fr 14 2 = op) :
    c.macFrame p op fr = c.macControl p fr := by
  rw [Chip.macFrame, if_pos (by simp [hup, htype, hop])]

theorem smGet_foldl_smSet {ks : List Nat} {q k : Nat} (hk : k ∈ ks) (m : SMap Nat) :
    smGet (fun _ => 0) (ks.foldl (fun m k => smSet (fun _ => 0) m k q) m) k = q := by
  have hkeep (l : List Nat) (m : SMap Nat) (h : smGet (fun _ => 0) m k = q) :
      smGet (fun _ => 0) (l.foldl (fun m k => smSet (fun _ => 0) m k q) m) k = q :=
    List.foldlRecOn (motive := fun m => smGet (fun _ => 0) m k = q) l _ h fun m hm x _ => by
      rw [smGet_smSet]
      split
      · rfl
      · exact hm
  induction ks generalizing m with
  | nil => exact absurd hk List.not_mem_nil
  | cons a ks ih =>
    rcases List.mem_cons.mp hk with rfl | htail
    · exact hkeep ks _ (by rw [smGet_smSet, if_pos rfl])
    · exact ih htail _

theorem portSt_of_ports {c d : Chip} (h : d.ports = c.ports) (p : Nat) : d.portSt p = c.portSt p := by
  rw [Chip.portSt, h, ← Chip.portSt]

theorem pause_setPause {ks : List Nat} {q k : Nat} (hk : k ∈ ks) :
    smGet (fun _ => 0) ((c.setPause p ks q).portSt p).pause k = q := by
  unfold Chip.setPause
  extract_lets ps m d
  have hd : d.portSt p = { ps with pause := m } := by
    rw [portSt_of_ports (within_putF ..).ports_eq, Chip.portSt_setPort, if_pos rfl]
  rw [portSt_of_ports (within_condEv ..).ports_eq, hd]
  exact smGet_foldl_smSet hk _

end

/-- Settles O26: each command by its port's registers and state. -/
theorem portsFormIdleAndPause : Obligations.PortsFormIdleAndPause := by
  unfold Obligations.PortsFormIdleAndPause
  refine ⟨fun s p hvin h => ?_, fun s p hvin hst hsec hmode => ?_, fun s p hvin hst hsec hmode hdeg hwidth hhalf hlanes => ?_,
    fun s p hvin hhalf => ?_, fun s p c hvin hhalf hc => ?_,
    fun s p hvin hen hcap hidle hup hgang hpaused hholds hbusy hhold htx => ?_, fun s p hvin hidle => ?_,
    fun s p hvin htx => ?_, fun s p hvin => ?_, fun s p k hvin => ?_, fun s p fr hvin hup htype hop hmode => ?_,
    fun s p fr hvin hup htype hop hmode => ?_, fun s p fr hvin hup htype hop hmode => ?_,
    fun c p ks q k hk => pause_setPause hk, fun s p d v hvin hsnoop => ?_, fun s p d v hvin hsnoop => ?_⟩
  · exact on_self (f := (·.portGiveup p)) (portGiveup_ignored h)
  · exact on_eq (f := (·.portGiveup p)) hvin (portGiveup_all hst hsec hmode)
  · exact on_eq (f := (·.portGiveup p)) hvin (portGiveup_half hst hsec hmode hdeg hwidth hhalf hlanes)
  · refine on_self (f := (·.reform p)) ?_
    rw [Chip.reform, hhalf, Bool.not_false, if_pos rfl]
  · subst hc
    refine on_eq (f := (·.reform p)) hvin ?_
    rw [Chip.reform, hhalf, Bool.not_true, if_neg nofun]
  · refine on_eq (f := (·.lpiEnter p)) hvin ?_
    have hon : (s.chip.getF F.PRT_LPI.IDLE_US p != 0) = true := bne_iff_ne.mpr hidle
    rw [Chip.lpiEnter, hen, hcap, hon, hup, hgang, hpaused, hholds, hbusy, hhold, htx]
    exact if_pos rfl
  · refine on_self (f := (·.lpiEnter p)) ?_
    have hoff : (s.chip.getF F.PRT_LPI.IDLE_US p != 0) = false := bne_eq_false_iff_eq.mpr hidle
    rw [Chip.lpiEnter, hoff, if_neg (by simp)]
  · refine on_eq (f := (·.lpiExit p)) hvin ?_
    rw [Chip.lpiExit, htx, if_pos rfl]
    rfl
  · exact on_eq (f := (·.lpiDone p)) hvin rfl
  · exact on_eq (f := (·.setPause p [k.val] 0)) hvin rfl
  · refine on_eq (f := (·.macFrame p 1 fr)) hvin ?_
    rw [macFrame_eq hup htype hop, Chip.macControl, if_pos ⟨hop, hmode⟩]
  · refine on_eq (f := (·.macFrame p 1 fr)) hvin ?_
    rw [macFrame_eq hup htype hop, Chip.macControl, if_neg fun h => hmode h.2, if_neg fun h => absurd (hop.symm.trans h.1) (by decide)]
  · refine on_eq (f := (·.macFrame p 0x101 fr)) hvin ?_
    rw [macFrame_eq hup htype hop, Chip.macControl, if_neg fun h => absurd (hop.symm.trans h.1) (by decide), if_pos ⟨hop, hmode⟩]
  · refine on_eq (f := (·.cvuRunWrite p d v.toNat)) hvin ?_
    rw [Chip.cvuRunWrite, hsnoop, if_neg nofun]
  · refine on_eq (f := (·.cvuRunWrite p d v.toNat)) hvin ?_
    rw [Chip.cvuRunWrite, hsnoop, if_pos rfl]

/-! ### Frames -/

section
variable {c : Chip} {p pid : Nat}

theorem frameHead_down {hd : Bytes} (h : c.portUp p = false) : c.frameHead p hd = c := by
  rw [Chip.frameHead, h]
  exact if_pos rfl

theorem frameHead_tripped {hd : Bytes} (hup : c.portUp p = true) (harr : (c.portSt p).arriving = none)
    (hdisc : (c.portSt p).discard = 0) (htrip : c.tripHold = true) : c.frameHead p hd =
    (c.setPort p { c.portSt p with iseq := ((c.portSt p).iseq + 1) % 2 ^ 32, discard := 3 }).stat p 15 := by
  rw [Chip.frameHead, if_neg (by simp [hup, harr, hdisc]), htrip, if_pos rfl]

/-- The packet of a frame's head. -/
def headPkt (c : Chip) (p : Nat) (hd : Bytes) : Pkt :=
  { Pkt.init 0 0 p (c.portSt p).iseq (patternOf 64 ((c.dtw : Nat) + signedOf 32 (c.getF F.TIM_PORT_RX_ADJ.V p))) hd with
    got := hd.length
    stage := .elastic
    prio := c.rxPrio p hd }

/-- The device with the head's packet in the port's elastic buffer. -/
def headTaken (c : Chip) (p : Nat) (hd : Bytes) : Chip :=
  (c.addPkt (headPkt c p hd)).setPort p { c.portSt p with
    iseq := ((c.portSt p).iseq + 1) % 2 ^ 32
    arriving := some c.tm.nextPid
    elastic := (c.portSt p).elastic ++ [c.tm.nextPid] }

theorem frameHead_taken {hd : Bytes} (hup : c.portUp p = true) (harr : (c.portSt p).arriving = none)
    (hdisc : (c.portSt p).discard = 0) (htrip : c.tripHold = false) (hbath : c.bathHolds 2 (sliceOf p) = false)
    (hheld : c.sliceHeld (sliceOf p) = false) (hroom : c.getF F.PRT_MAXFRAME.MAXFRAME p ≤ c.elasticFree p) :
    c.frameHead p hd = (headTaken c p hd).wakeSlice (sliceOf p) := by
  rw [Chip.frameHead, if_neg (by simp [hup, harr, hdisc]), htrip, if_neg nofun, hbath, if_neg nofun, hheld, if_neg nofun,
    decide_eq_true hroom, Bool.or_true, if_pos rfl, headTaken, headPkt]

theorem headTaken_rest (hd : Bytes) :
    ((headTaken c p hd).portSt p).arriving = some c.tm.nextPid ∧
    ((headTaken c p hd).portSt p).elastic = (c.portSt p).elastic ++ [c.tm.nextPid] ∧
    (headTaken c p hd).tm.nextPid = c.tm.nextPid + 1 ∧ (headTaken c p hd).regs = c.regs ∧
    (headTaken c p hd).pkt c.tm.nextPid = some (headPkt c p hd) := by
  refine ⟨?_, ?_, rfl, rfl, ?_⟩
  · rw [headTaken, Chip.portSt_setPort, if_pos rfl]
  · rw [headTaken, Chip.portSt_setPort, if_pos rfl]
  · exact (Chip.pkt_setPkt ..).trans (if_pos rfl)

theorem pkt_of_pkts {c d : Chip} (h : d.pkts = c.pkts) (pid : Nat) : d.pkt pid = c.pkt pid := by
  rw [Chip.pkt, h, ← Chip.pkt]

theorem frameHead_rest {hd : Bytes} (h : c.frameHead p hd = (headTaken c p hd).wakeSlice (sliceOf p)) :
    ((c.frameHead p hd).portSt p).arriving = some c.tm.nextPid ∧
    ((c.frameHead p hd).portSt p).elastic = (c.portSt p).elastic ++ [c.tm.nextPid] ∧
    (c.frameHead p hd).tm.nextPid = c.tm.nextPid + 1 ∧ (c.frameHead p hd).regs = c.regs ∧
    (∃ x, (c.frameHead p hd).pkt c.tm.nextPid = some x ∧ x.port = p ∧ x.iseq = (c.portSt p).iseq ∧ x.stage = .elastic ∧
      x.istamp = patternOf 64 ((c.dtw : Nat) + signedOf 32 (c.getF F.TIM_PORT_RX_ADJ.V p))) := by
  obtain ⟨harr, hel, hpid, hregs, hpkt⟩ := headTaken_rest (c := c) (p := p) hd
  have w := within_wakeSlice (headTaken c p hd) (sliceOf p)
  rw [h, portSt_of_ports w.ports_eq, w.tm_eq, w.regs_eq, pkt_of_pkts w.pkts_eq]
  exact ⟨harr, hel, hpid, hregs, _, hpkt, rfl, rfl, rfl, rfl⟩

theorem cellStart_eq {r : List Nat} {x : Pkt} (hel : (c.portSt p).elastic = pid :: r) (hmay : c.mayWrite p = true)
    (hpkt : c.pkt pid = some x) (htail : x.tail = 0) : c.cellStart p =
    ((((c.setPort p { c.portSt p with elastic := r }).setPkt pid { x with stage := .mac }).chargeCells pid
      (c.headCells p)).holdCells pid (cellsFor x.got)) := by
  rw [Chip.cellStart, hel]
  dsimp only
  rw [hmay, hpkt, Bool.not_true, if_neg nofun]
  exact if_pos htail

theorem toPipe_full {f : Bytes} {n : Nat} {x : Pkt} (hpkt : c.pkt pid = some x) (hst : x.stage = .mac) (htail : x.tail = 1)
    (hpark : c.parked x.slice = false) (hheld : c.sliceHeld x.slice = false) (hsrc : x.src = 4)
    (hpipe : c.pickPipe x.slice = none) : c.toPipe pid f n = c.bump F.PAR_CNT_FULL.V x.slice := by
  rw [Chip.toPipe, hpkt]
  dsimp only
  rw [if_neg (by simp [hst, htail, hpark, hheld, hsrc]), hpipe]

theorem toPipe_whole {f : Bytes} {n q : Nat} {x : Pkt} (hpkt : c.pkt pid = some x) (hst : x.stage = .mac) (htail : x.tail = 1)
    (hpark : c.parked x.slice = false) (hheld : c.sliceHeld x.slice = false) (hsrc : x.src = 0) (hpass : x.pass = 0)
    (hgang : c.gangPort x.port = false) (hpipe : c.pickPipe x.slice = some q) :
    c.toPipe pid f n = ((c.setPkt pid x).openCtx pid q).stripSelect pid q := by
  rw [Chip.toPipe, hpkt]
  dsimp only
  rw [if_neg (by simp [hst, htail, hpark, hheld, hgang]), hpipe]
  simp [htail, hsrc, hpass]

theorem toPipe_first {f : Bytes} {n q : Nat} {x : Pkt} (hpkt : c.pkt pid = some x) (hst : x.stage = .mac) (htail : x.tail = 0)
    (hlen : 256 ≤ f.length) (hpark : c.parked x.slice = false) (hheld : c.sliceHeld x.slice = false) (hsrc : x.src = 0)
    (hpass : x.pass = 0) (hgang : c.gangPort x.port = false) (hpipe : c.pickPipe x.slice = some q) :
    c.toPipe pid f n = ((c.setPkt pid { x with
      frame := f.take 256, orig := f.take 256, got := max x.got 256, flen := n }).openCtx pid q).stripSelect pid q := by
  rw [Chip.toPipe, hpkt]
  dsimp only
  rw [if_neg (by simp [hst, hpark, hheld, hgang]; omega), hpipe]
  simp [htail, hsrc, hpass]

theorem frameTail_none {fr : Bytes} {e : Bool} (harr : (c.portSt p).arriving = none) (hdisc : (c.portSt p).discard = 0) :
    c.frameTail p fr e = c := by
  rw [Chip.frameTail, harr, hdisc]
  exact if_pos rfl

/-- The port's frame has ended. -/
def tailTaken (c : Chip) (p : Nat) : Chip := c.setPort p { c.portSt p with arriving := none, discard := 0 }

theorem rxReason_tailTaken {d : Nat} {fr : Bytes} {e : Bool} : (tailTaken c p).rxReason p d fr e = c.rxReason p d fr e := rfl

theorem frameTail_bad {fr : Bytes} {e : Bool} (harr : (c.portSt p).arriving = some pid)
    (hbad : c.rxReason p (c.portSt p).discard fr e ≠ 0) : c.frameTail p fr e =
    (((tailTaken c p).countBad p fr.length (c.rxReason p (c.portSt p).discard fr e)).received pid
      (fr.take (fr.length - 4))).failPkt pid := by
  rw [Chip.frameTail, harr, if_neg nofun]
  exact if_pos hbad

theorem frameTail_good {fr : Bytes} {e : Bool} {x : Pkt} (harr : (c.portSt p).arriving = some pid)
    (hgood : c.rxReason p (c.portSt p).discard fr e = 0) (htype : beAt (fr.take (fr.length - 4)) 12 2 ≠ 0x8808)
    (hgang : c.gangPort p = false) (hpkt : c.pkt pid = some x) (hctx : x.ctx = none) (hprov : x.prov = none)
    (hfits : tailConflict none (fr.length - 4) = false) : c.frameTail p fr e =
    (((tailTaken c p).rxGood p fr.length (fr.take (fr.length - 4))).snoop p 0 (fr.take (fr.length - 4))).goodTail pid
      (fr.take (fr.length - 4)) := by
  have hlen : (fr.take (fr.length - 4)).length = fr.length - 4 := by
    rw [List.length_take]
    omega
  have hg : (tailTaken c p).gangPort p = false := hgang
  have hp : (tailTaken c p).pkt pid = some x := hpkt
  rw [Chip.frameTail, harr, if_neg nofun]
  dsimp only
  rw [← tailTaken, rxReason_tailTaken, hgood, if_neg (not_not.mpr rfl), if_neg htype, hg, if_neg nofun, hp]
  dsimp only
  simp only [hctx, hprov, hlen, hfits, Bool.and_false, Bool.false_eq_true, if_false]

theorem rxReason_cases (c : Chip) (p d : Nat) (fr : Bytes) (e : Bool) :
    (fr.length < 64 → c.rxReason p d fr e = 5) ∧
    (64 ≤ fr.length → c.getF F.PRT_MAXFRAME.MAXFRAME p < fr.length → c.rxReason p d fr e = 6) ∧
    (64 ≤ fr.length → fr.length ≤ c.getF F.PRT_MAXFRAME.MAXFRAME p → e = true → c.rxReason p d fr e = 7) ∧
    (64 ≤ fr.length → fr.length ≤ c.getF F.PRT_MAXFRAME.MAXFRAME p → e = false →
      leNat (fr.drop (fr.length - 4)) = Nat.xor (fcsOf (fr.take (fr.length - 4))) 0xFFFFFFFF →
      leNat (fr.drop (fr.length - 4)) ≠ fcsOf (fr.take (fr.length - 4)) → c.rxReason p d fr e = 8) := by
  unfold Chip.rxReason
  dsimp only
  refine ⟨fun hlen => if_pos hlen, fun hlen hmax => ?_, fun hlen hmax he => ?_, fun hlen hmax he hstomp hfcs => ?_⟩
  · rw [if_neg (by omega), if_pos hmax]
  · rw [if_neg (by omega), if_neg (by omega), he, if_pos rfl]
  · rw [if_neg (by omega), if_neg (by omega), he, if_neg nofun, if_pos hfcs, if_pos hstomp]

theorem maxExceeded_none {b : Bytes} (harr : (c.portSt p).arriving = none) : c.maxExceeded p b = c := by
  rw [Chip.maxExceeded, harr]
  dsimp only
  rw [Chip.cutArriving, harr]

theorem received_ports (b : Bytes) : (c.received pid b).ports = c.ports := by
  unfold Chip.received
  split
  · rfl
  · exact ite_view Chip.ports rfl rfl

theorem maxExceeded_some {b : Bytes} (harr : (c.portSt p).arriving = some pid) : c.maxExceeded p b =
    ((c.received pid b).setPort p { (c.received pid b).portSt p with arriving := none, discard := 2 }).failPkt pid := by
  have h : ((c.received pid b).portSt p).arriving = some pid := by rw [portSt_of_ports (received_ports b), harr]
  rw [Chip.maxExceeded, harr]
  dsimp only
  rw [Chip.cutArriving, h]

theorem received_grows {b : Bytes} {x : Pkt} (hpkt : c.pkt pid = some x) (htail : x.tail = 0)
    (hmax : b.length ≤ c.getF F.PRT_MAXFRAME.MAXFRAME x.port - 4) (hlen : x.frame.length < b.length) :
    c.received pid b = c.setPkt pid { x with frame := b } := by
  rw [Chip.received, hpkt]
  dsimp only
  rw [List.take_of_length_le hmax, if_pos ⟨htail, hlen⟩]

end

/-- Settles O27: the head, the cells, the pipe and the tail. -/
theorem framesAreReceivedAndCounted : Obligations.FramesAreReceivedAndCounted := by
  unfold Obligations.FramesAreReceivedAndCounted
  refine ⟨fun s p hd hvin hup => on_self (f := (·.frameHead p hd)) (frameHead_down hup),
    fun s p hd hvin hup harr hdisc htrip => on_eq (f := (·.frameHead p hd)) hvin (frameHead_tripped hup harr hdisc htrip),
    fun s p hd hvin hup harr hdisc htrip hbath hheld hroom => on_exists (f := (·.frameHead p hd)) hvin
      (frameHead_rest (frameHead_taken hup harr hdisc htrip hbath hheld hroom)),
    fun s p hvin hel => on_self (f := (·.cellStart p)) ?_,
    fun s p pid r x hvin hel hmay hpkt htail => on_eq (f := (·.cellStart p)) hvin (cellStart_eq hel hmay hpkt htail),
    fun s pid n f x hvin hpkt hst htail hpark hheld hsrc hpipe => on_eq (f := (·.toPipe pid f n)) hvin
      (toPipe_full hpkt hst htail hpark hheld hsrc hpipe),
    fun s pid q n f x hvin hpkt hst htail hpark hheld hsrc hpass hgang hpipe => on_eq (f := (·.toPipe pid f n)) hvin
      (toPipe_whole hpkt hst htail hpark hheld hsrc hpass hgang hpipe),
    fun s pid q n f x hvin hpkt hst htail hlen hpark hheld hsrc hpass hgang hpipe => on_eq (f := (·.toPipe pid f n)) hvin
      (toPipe_first hpkt hst htail hlen hpark hheld hsrc hpass hgang hpipe),
    fun s p fr e hvin harr hdisc => on_self (f := (·.frameTail p fr e)) (frameTail_none harr hdisc),
    fun s p pid fr e hvin harr hbad => on_eq (f := (·.frameTail p fr e)) hvin (frameTail_bad harr hbad),
    fun s p pid fr e x c hvin harr hgood htype hgang hpkt hctx hprov hfits hc => ?_, rxReason_cases,
    fun s p b hvin harr => on_self (f := (·.maxExceeded p b)) (maxExceeded_none harr), fun s p b pid c hvin harr hc => ?_,
    fun c pid b x => received_grows⟩
  · rw [Chip.cellStart, hel]
  · subst hc
    exact on_eq (f := (·.frameTail p fr e)) hvin (frameTail_good harr hgood htype hgang hpkt hctx hprov hfits)
  · subst hc
    exact on_eq (f := (·.maxExceeded p b)) hvin (maxExceeded_some harr)

end Sys2Proof.Proofs
end

section
/-!
Module sites (R126 to R130).
-/
namespace Sys2Proof.Proofs
open Sys2Proof Sys2Proof.Machine
set_option Elab.async false

/-- A command that reaches the device with VIN absent too, from the device it leaves. -/
theorem onAny_of {s : State} {f : Chip → Chip} {d : Chip} (h : f s.chip = d) : s.onAny f = .next ⟨d, s.pending⟩ := by
  rw [State.onAny_eq, h]

section
variable {c : Chip} {m : Nat}

theorem moduleInsert_eq (habsent : c.flag F.PRT_SITE_STATUS.PRESENT m = false) : c.moduleInsert m =
    if c.power.vin then ((c.putF F.PRT_SITE_STATUS.PRESENT 1 m).raise F.PRT_SITE_EVENTS.INSERT m).siteStart m
    else c.putF F.PRT_SITE_STATUS.PRESENT 1 m := by
  rw [Chip.moduleInsert, habsent, if_neg nofun]
  dsimp only
  rw [(within_putF ..).power_eq]

theorem moduleRemove_off (hpresent : c.flag F.PRT_SITE_STATUS.PRESENT m = true) (hvin : c.power.vin = false) :
    c.moduleRemove m = c.putF F.PRT_SITE_STATUS.PRESENT 0 m := by
  rw [Chip.moduleRemove, hpresent, Bool.not_true, if_neg nofun, hvin, Bool.not_false, if_pos rfl]

/-- The device with a module gone. -/
def moduleGone (c : Chip) (m : Nat) : Chip :=
  (((c.putF F.PRT_SITE_STATUS.PRESENT 0 m).raise F.PRT_SITE_EVENTS.REMOVE m).putF F.PRT_SITE_STATUS.MAXPOWER 0 m).putF
    F.PRT_SITE_STATUS.CMIS_REV 0 m

theorem site_of_sites {c d : Chip} (h : d.sites = c.sites) (m : Nat) : d.site m = c.site m := by
  rw [Chip.site, h, ← Chip.site]

theorem within_moduleGone : Within [.regs, .hostMem, .host] c (moduleGone c m) :=
  (((within_putF ..).mono.andThen (within_raise ..)).andThen (within_putF ..)).andThen (within_putF ..)

theorem moduleRemove_idle (hpresent : c.flag F.PRT_SITE_STATUS.PRESENT m = true) (hvin : c.power.vin = true)
    (hidle : (c.site m).busy = false) : c.moduleRemove m = (moduleGone c m).siteStart m := by
  have hbusy : ((moduleGone c m).site m).busy = false := by rw [site_of_sites within_moduleGone.sites_eq, hidle]
  rw [moduleGone] at hbusy ⊢
  rw [Chip.moduleRemove, hpresent, Bool.not_true, if_neg nofun, hvin, Bool.not_true, if_neg nofun]
  dsimp only
  rw [hbusy, if_neg nofun]

theorem addressPoll_none (h : c.sstate m = ssInit) (hpoll : (c.site m).pollOn = true) : c.addressPoll m none = c := by
  rw [Chip.addressPoll, if_neg (by simp [h, hpoll])]

theorem addressPoll_some {cmis : Bool} {rev mp : Nat} {d : Chip} (h : c.sstate m = ssInit) (hpoll : (c.site m).pollOn = true)
    (hd : d = ((c.onSite m fun x => { x with pollOn := false }).putF F.PRT_SITE_STATUS.CMIS_REV rev m).putF
      F.PRT_SITE_STATUS.MAXPOWER mp m) : c.addressPoll m (some (cmis, rev, mp)) =
    if !cmis || decide (rev < 0x40) then d.siteGo m ssUnmanaged else d.admitPower m := by
  rw [Chip.addressPoll, if_neg (by simp [h, hpoll]), hd]

theorem admitPower_granted (hlim : c.getF F.PRT_SITE_CTRL.POWER_LIMIT m ≠ 0)
    (hfits : c.getF F.PRT_SITE_STATUS.MAXPOWER m ≤ c.getF F.PRT_SITE_CTRL.POWER_LIMIT m) :
    c.admitPower m = c.siteGo m ssLowPower := by
  rw [Chip.admitPower, if_pos ⟨hlim, hfits⟩]

theorem admitPower_denied (hst : c.sstate m ≠ ssDenied) (h : c.getF F.PRT_SITE_CTRL.POWER_LIMIT m = 0 ∨
      c.getF F.PRT_SITE_CTRL.POWER_LIMIT m < c.getF F.PRT_SITE_STATUS.MAXPOWER m) :
    c.admitPower m = (c.siteGo m ssDenied).raise F.PRT_SITE_EVENTS.POWER_DENIED m := by
  rw [Chip.admitPower, if_neg (by omega), if_neg hst]

/-- A transfer's length of 1 to 128 is taken as it is. -/
theorem xferLen_of_pos {n : Nat} (h : 1 ≤ n) : xferLen n = n := if_neg (by omega)

theorem xferGo_absent {w : Bool} (hidle : (c.site m).busy = false)
    (habsent : (c.putF F.PRT_SITE_XFER.DIR (b2n w) m).flag F.PRT_SITE_STATUS.PRESENT m = false) :
    c.xferGo m w = (c.putF F.PRT_SITE_XFER.DIR (b2n w) m).xferEnd m stInvalid := by
  rw [Chip.xferGo, hidle, if_neg nofun]
  dsimp only
  rw [habsent]
  exact if_pos rfl

theorem xferGo_started {w : Bool} {n : Nat} {d : Chip} (hidle : (c.site m).busy = false)
    (hd : d = c.putF F.PRT_SITE_XFER.DIR (b2n w) m) (hpresent : d.flag F.PRT_SITE_STATUS.PRESENT m = true)
    (hn : n = d.getF F.PRT_SITE_XFER_ADDR.LENGTH m) (hlow : 1 ≤ n) (hhigh : n ≤ 128)
    (hoff : 0x80 ≤ d.getF F.PRT_SITE_XFER_ADDR.OFFSET m) (hend : d.getF F.PRT_SITE_XFER_ADDR.OFFSET m + n ≤ 0x100) :
    c.xferGo m w = (d.onSite m fun x => { x with
      busy := true, addr := d.getF F.PRT_SITE_XFER_ADDR.all m, write := w,
      data := if w then d.getBytes (F.PRT_SITE_DATA.V.addr m) n else [] }).putF F.PRT_SITE_XFER.GO 1 m := by
  have hlen : xferLen (d.getF F.PRT_SITE_XFER_ADDR.LENGTH m) = n := by rw [← hn, xferLen_of_pos hlow]
  rw [Chip.xferGo, hidle, if_neg nofun, ← hd]
  dsimp only
  rw [hlen, hpresent, if_neg (by simp; omega)]

theorem xferDone_timeout {d f : Bytes} (hbusy : (c.site m).busy = true) : c.xferDone m false d f = c.xferEnd m stTimeout := by
  rw [Chip.xferDone, hbusy, Bool.not_true, if_neg nofun]
  exact if_pos rfl

theorem xferDone_ok {d f : Bytes} (hbusy : (c.site m).busy = true) : c.xferDone m true d f =
    (if (c.site m).write then c
      else (c.putWords (F.PRT_SITE_DATA.V.addr m) (sliceB d 0 (xferLen ((c.site m).addr % 256)))).orFlags m f).xferEnd m stOk := by
  rw [Chip.xferDone, hbusy, Bool.not_true, if_neg nofun]
  exact if_neg nofun

end

/-- Settles O28: each command by the site's state. -/
theorem moduleSitesComeUpAndTransfer : Obligations.ModuleSitesComeUpAndTransfer := by
  unfold Obligations.ModuleSitesComeUpAndTransfer
  refine ⟨fun s m hvin habsent => ?_, fun s m hvin habsent => ?_, fun s m hvin hpresent => ?_,
    fun s m hvin hpresent hidle => ?_, fun s m hvin hst hforce => ?_, fun s m c rev mp hvin hst hpoll hc => ?_,
    fun c m => admitPower_granted, fun c m => admitPower_denied, fun s m hvin hst => ?_, fun s m hvin hst => ?_,
    fun s m hvin => ?_, fun s m fs hvin hpresent hauto => ?_, fun s m fs hvin hpresent hauto hst => ?_,
    fun s m a b hvin hauto hst => ?_, fun s m hvin => ?_, fun s m w hvin hbusy => ?_, fun s m w c hvin hidle hc habsent => ?_,
    fun s m w c n hvin hidle hc hpresent hn hlow hhigh hoff hend => ?_, fun s m ok d f hvin hidle => ?_,
    fun s m d f hvin hbusy => ?_⟩
  · exact onAny_of (f := (·.moduleInsert m)) ((moduleInsert_eq habsent).trans (if_pos hvin))
  · exact onAny_of (f := (·.moduleInsert m)) ((moduleInsert_eq habsent).trans (if_neg (by rw [hvin]; exact nofun)))
  · exact onAny_of (f := (·.moduleRemove m)) (moduleRemove_off hpresent hvin)
  · exact ⟨_, rfl, moduleRemove_idle hpresent hvin hidle⟩
  · refine on_eq (f := (·.resetPulseEnd m)) hvin ?_
    rw [Chip.resetPulseEnd, if_pos ⟨hst, by rw [hforce]; rfl⟩]
  · refine ⟨on_self (f := (·.addressPoll m none)) (addressPoll_none hst hpoll),
      fun hrev => on_eq (f := (·.addressPoll m (some (true, rev, mp)))) hvin ?_,
      on_eq (f := (·.addressPoll m (some (false, rev, mp)))) hvin ?_,
      fun hrev => on_eq (f := (·.addressPoll m (some (true, rev, mp)))) hvin ?_⟩
    · rw [addressPoll_some hst hpoll hc, if_pos (by simpa using hrev)]
    · rw [addressPoll_some hst hpoll hc, if_pos (by simp)]
    · rw [addressPoll_some hst hpoll hc, if_neg (by simpa using hrev)]
  · exact on_eq (f := (·.noResponse m)) hvin (if_pos hst)
  · exact on_eq (f := (·.siteRetry m)) hvin (if_pos hst)
  · refine ⟨fun hst => on_eq (f := (·.cmisDone m 0)) hvin ?_, fun hst => on_eq (f := (·.cmisDone m 1)) hvin ?_,
      fun hst => on_eq (f := (·.cmisDone m 2)) hvin ?_⟩
    · rw [Chip.cmisDone, if_pos ⟨rfl, hst⟩]
    · rw [Chip.cmisDone, if_neg (by simp), if_pos ⟨rfl, hst⟩]
    · rw [Chip.cmisDone, if_neg (by simp), if_neg (by simp), if_pos ⟨rfl, hst⟩]
  · refine on_eq (f := (·.intlFall m fs)) hvin ?_
    rw [Chip.intlFall, hpresent, hauto]
    exact if_neg nofun
  · refine on_eq (f := (·.intlFall m fs)) hvin ?_
    rw [Chip.intlFall, hpresent, hauto, hst]
    exact if_neg nofun
  · refine on_eq (f := (·.monitorPoll m a b)) hvin ?_
    rw [Chip.monitorPoll, hauto, hst]
    exact if_pos rfl
  · exact on_eq (f := (·.raise F.PRT_SITE_EVENTS.BUS_STUCK m)) hvin rfl
  · exact on_self (f := (·.xferGo m w)) (if_pos hbusy)
  · subst hc
    exact on_eq (f := (·.xferGo m w)) hvin (xferGo_absent hidle habsent)
  · exact on_eq (f := (·.xferGo m w)) hvin (xferGo_started hidle hc hpresent hn hlow hhigh hoff hend)
  · refine on_self (f := (·.xferDone m ok d f)) ?_
    rw [Chip.xferDone, hidle]
    exact if_pos rfl
  · refine ⟨on_eq (f := (·.xferDone m false d f)) hvin (xferDone_timeout hbusy),
      fun hw => on_eq (f := (·.xferDone m true d f)) hvin ?_, fun hw => on_eq (f := (·.xferDone m true d f)) hvin ?_⟩
    · rw [xferDone_ok hbusy, hw, if_pos rfl]
    · rw [xferDone_ok hbusy, hw, if_neg nofun]

end Sys2Proof.Proofs
end

section
/-!
One step of a packet's parse context (R137 to R143), and the classification of a pass (R165, R174, R177, R178).
-/
namespace Sys2Proof.Proofs
open Sys2Proof Sys2Proof.Machine
set_option Elab.async false

/-! ### Parse steps -/

section
variable {c : Chip} {pid : Nat} {p : Pkt} {x : ParseCtx} {i : PIns}

/-- The context once a step's loads, ops and cursor are done. -/
def parseAdvanced (p : Pkt) (x : ParseCtx) (i : PIns) (w : Option Nat) : ParseCtx :=
  let y := i.ops.foldl (doOp p.frame p.got w) (i.lds.foldl (doLoad p.frame) { x with done := x.done + 1 })
  match i.adv.mode with
  | 1 => { y with cur := min 1023 (y.cur + i.adv.imm) }
  | 2 => { y with cur := min 1023 (y.cur + i.adv.imm + y.reg i.adv.w * 2 ^ i.adv.sh) }
  | _ => y

theorem parseAdvanced_eq {y : ParseCtx} {w : Option Nat}
    (hy : y = i.ops.foldl (doOp p.frame p.got w) (i.lds.foldl (doLoad p.frame) { x with done := x.done + 1 })) :
    parseAdvanced p x i w = if i.adv.mode = 1 then { y with cur := min 1023 (y.cur + i.adv.imm) }
      else if i.adv.mode = 2 then { y with cur := min 1023 (y.cur + i.adv.imm + y.reg i.adv.w * 2 ^ i.adv.sh) } else y := by
  subst hy
  unfold parseAdvanced
  split
  next h => rw [if_pos h]
  next h => rw [if_neg (by omega), if_pos h]
  next h1 h2 => rw [if_neg h1, if_neg h2]

theorem parseStep_go (hpkt : c.pkt pid = some p) (hctx : p.ctx = some x) (hins : c.parseIns x.slice x.pc = some i)
    (hgo : stepCheck x i p.got (if p.tail = 1 then some p.frame.length else none) = .go) :
    c.parseStep i.kind pid = match c.parseNext (parseAdvanced p x i (if p.tail = 1 then some p.frame.length else none)) i.nx with
      | .pc a => c.setPkt pid { p with
          ctx := some { parseAdvanced p x i (if p.tail = 1 then some p.frame.length else none) with pc := a } }
      | .close code bad => c.closeCtx pid p
          (if bad then { parseAdvanced p x i (if p.tail = 1 then some p.frame.length else none) with
              hv := hvAnom (parseAdvanced p x i (if p.tail = 1 then some p.frame.length else none)).hv 3 }
            else parseAdvanced p x i (if p.tail = 1 then some p.frame.length else none)) code := by
  rw [Chip.parseStep, hpkt]
  dsimp only
  rw [hctx]
  dsimp only
  rw [hins]
  dsimp only
  rw [if_neg (by simp), hgo]
  rfl

theorem parseStep_wait {k : PKind} (hpkt : c.pkt pid = some p) (hctx : p.ctx = some x) (hins : c.parseIns x.slice x.pc = some i)
    (hwait : stepCheck x i p.got (if p.tail = 1 then some p.frame.length else none) = .wait) : c.parseStep k pid = c := by
  rw [Chip.parseStep, hpkt]
  dsimp only
  rw [hctx]
  dsimp only
  rw [hins]
  dsimp only
  rw [hwait]
  exact ite_self c

theorem parseStep_none {k : PKind} (hpkt : c.pkt pid = none) : c.parseStep k pid = c := by
  rw [Chip.parseStep, hpkt]

theorem parseStep_stop {bit cause : Nat} (hpkt : c.pkt pid = some p) (hctx : p.ctx = some x)
    (hins : c.parseIns x.slice x.pc = some i)
    (hstop : stepCheck x i p.got (if p.tail = 1 then some p.frame.length else none) = .stop bit cause) :
    c.parseStep i.kind pid = c.closeCtx pid p
      { x with hv := (if bit = 0 then hvOr (hvAnom x.hv 0) 13 (cause * 32) else hvAnom x.hv bit) }
      (if bit = 0 then 0xFD else 0xFC) := by
  rw [Chip.parseStep, hpkt]
  dsimp only
  rw [hctx]
  dsimp only
  rw [hins]
  dsimp only
  rw [if_neg (by simp), hstop]
  dsimp only
  by_cases hbit : bit = 0
  · subst hbit
    rfl
  · rw [if_neg hbit, if_neg hbit, if_neg hbit]

theorem pkt_stampStrip {n : Nat} (hpkt : c.pkt pid = some p) :
    ∃ st, (c.stampStrip pid n).pkt pid = some { p with strip := st } := by
  unfold Chip.stampStrip Chip.updPkt
  rw [hpkt]
  dsimp only
  rw [Chip.pkt_setPkt, if_pos rfl]
  split
  · split
    · exact ⟨_, rfl⟩
    · exact ⟨_, rfl⟩
  · exact ⟨_, rfl⟩

theorem closeCtx_rest (code : Nat) : ∃ q, (c.closeCtx pid p x code).pkt pid = some q ∧ q.ctx = none ∧ q.stage = .classify ∧
    q.lastPc = x.pc ∧ q.hv = x.finish (if p.tail = 1 then p.frame.length else 0) code := by
  unfold Chip.closeCtx
  obtain ⟨st, hst⟩ := pkt_stampStrip (c := c.setPkt pid { p with
    ctx := none, hv := x.finish (if p.tail = 1 then p.frame.length else 0) code, prov := x.prov, lastPc := x.pc,
    stage := .classify }) (n := 2) ((Chip.pkt_setPkt ..).trans (if_pos rfl))
  exact ⟨_, hst, rfl, rfl, rfl, rfl⟩

/-- The eight commands are the steps of the eight kinds. -/
theorem parse_commands {s : State} {d : Chip} (hvin : s.chip.power.vin = true) (P : PKind → Prop)
    (h : ∀ k, P k → s.chip.parseStep k pid = d) :
    (P .nop → exec (.nop pid) s = .next ⟨d, s.pending⟩) ∧ (P .ext → exec (.ext pid) s = .next ⟨d, s.pending⟩) ∧
    (P .mark → exec (.mark pid) s = .next ⟨d, s.pending⟩) ∧ (P .lchk → exec (.lchk pid) s = .next ⟨d, s.pending⟩) ∧
    (P .kcommit → exec (.kcommit pid) s = .next ⟨d, s.pending⟩) ∧ (P .alu → exec (.alu pid) s = .next ⟨d, s.pending⟩) ∧
    (P .setf → exec (.setf pid) s = .next ⟨d, s.pending⟩) ∧ (P .lvl → exec (.lvl pid) s = .next ⟨d, s.pending⟩) := by
  have hon (k : PKind) (hk : P k) : s.on (·.parseStep k pid) = .next ⟨d, s.pending⟩ := by
    rw [State.on_vin hvin, h k hk]
  exact ⟨hon .nop, hon .ext, hon .mark, hon .lchk, hon .kcommit, hon .alu, hon .setf, hon .lvl⟩

/-- A step that does nothing. -/
theorem parse_idle {s : State} (h : ∀ k, s.chip.parseStep k pid = s.chip) :
    exec (.nop pid) s = .next s ∧ exec (.ext pid) s = .next s ∧ exec (.mark pid) s = .next s ∧
    exec (.lchk pid) s = .next s ∧ exec (.kcommit pid) s = .next s ∧ exec (.alu pid) s = .next s ∧
    exec (.setf pid) s = .next s ∧ exec (.lvl pid) s = .next s :=
  have hon (k : PKind) : s.on (·.parseStep k pid) = .next s := on_self (h k)
  ⟨hon .nop, hon .ext, hon .mark, hon .lchk, hon .kcommit, hon .alu, hon .setf, hon .lvl⟩

end

/-- Settles O29: the step's check, then its effect and its next. -/
theorem parseStepsRunTheProgram : Obligations.ParseStepsRunTheProgram := by
  unfold Obligations.ParseStepsRunTheProgram
  refine ⟨fun s t pid p x y z i w hvin hpkt hctx hins hw hgo hy hz hnext => ?_,
    fun s pid p x i hvin hpkt hctx hins hwait => parse_idle fun k => parseStep_wait hpkt hctx hins hwait,
    fun s pid hvin hpkt => parse_idle fun k => parseStep_none hpkt,
    fun s t pid bit cause p x i hvin hpkt hctx hins hstop ht => ?_, fun x i got w hdone => if_pos hdone,
    fun c pid p x code => closeCtx_rest code⟩
  · subst hw
    have hz' : z = parseAdvanced p x i (if p.tail = 1 then some p.frame.length else none) := by
      rw [hz, parseAdvanced_eq hy]
    have hstep := parseStep_go hpkt hctx hins hgo
    rw [← hz'] at hstep
    rcases hnext with ⟨a, hpc, rfl⟩ | ⟨code, hclose, rfl⟩ | ⟨code, hclose, rfl⟩
    · have h : s.chip.parseStep i.kind pid = s.chip.setPkt pid { p with ctx := some { z with pc := a } } := by rw [hstep, hpc]
      exact parse_commands hvin (i.kind = ·) fun k hk => hk ▸ h
    · have h : s.chip.parseStep i.kind pid = s.chip.closeCtx pid p z code := by rw [hstep, hclose]; rfl
      exact parse_commands hvin (i.kind = ·) fun k hk => hk ▸ h
    · have h : s.chip.parseStep i.kind pid = s.chip.closeCtx pid p { z with hv := hvAnom z.hv 3 } code := by
        rw [hstep, hclose]
        rfl
      exact parse_commands hvin (i.kind = ·) fun k hk => hk ▸ h
  · subst ht
    exact parse_commands hvin (i.kind = ·) fun k hk => hk ▸ parseStep_stop hpkt hctx hins hstop

/-! ### Classification -/

section
variable {c : Chip} {pid v : Nat} {p : Pkt}

theorem classify_lost (hpkt : c.pkt pid = some p) (hst : p.stage = .classify) : c.classify pid 2 =
    (((c.setPkt pid { p with ver := some (p.ver.getD c.curV) }).bump F.CLS_CNT_UNCORR.V).raise F.CLS_EVENTS.UNCORR).dropOther
      pid 0 := by
  rw [Chip.classify, hpkt]
  dsimp only
  rw [if_neg (not_not.mpr hst), if_pos rfl]

/-- The device that the classification starts from: an error of the read corrected is an event. -/
theorem classify_fresh {ecc : Nat} (hecc : ecc ≠ 2) (hpkt : c.pkt pid = some p) (hst : p.stage = .classify) (hver : p.ver = none) :
    c.classify pid ecc = (if ecc = 1 then c.raise F.CLS_EVENTS.CORR else c).classifyAs pid p
      (if ecc = 1 then c.raise F.CLS_EVENTS.CORR else c).curV := by
  rw [Chip.classify, hpkt]
  dsimp only
  rw [if_neg (not_not.mpr hst), if_neg hecc, hver]
  split
  next h => exact absurd h nofun
  next h _ => exact absurd h nofun
  · rfl

theorem classify_versioned (hpkt : c.pkt pid = some p) (hst : p.stage = .classify) (hsrc : p.src ≠ 5) (hver : p.ver = some v) :
    c.classify pid 0 = c.classifyAs pid p v := by
  rw [Chip.classify, hpkt]
  dsimp only
  rw [if_neg (not_not.mpr hst), if_neg (by decide), if_neg (by decide), hver]
  split
  next h _ => exact absurd h hsrc
  next h _ => rw [Option.some.inj h]
  next h => exact absurd h nofun

theorem classify_unknown (hpkt : c.pkt pid = some p) (hst : p.stage = .classify) (hsrc : p.src = 5) (hver : p.ver = some v)
    (hdead : c.liveV v = false) (hnext : v ≠ c.nextV) : c.classify pid 0 = c.versionUnknown pid := by
  rw [Chip.classify, hpkt]
  dsimp only
  rw [if_neg (not_not.mpr hst), if_neg (by decide), if_neg (by decide), hsrc, hver]
  exact (if_neg (by rw [hdead]; exact nofun)).trans (if_neg fun h => hnext h.1)

end

/-- Settles O30: the read's errors, then the version of the pass. -/
theorem classificationUsesOneVersion : Obligations.ClassificationUsesOneVersion := by
  unfold Obligations.ClassificationUsesOneVersion
  refine ⟨fun s pid e p hvin hpkt hst => ?_,
    fun s pid p hvin hpkt hst => on_eq (f := (·.classify pid 2)) hvin (classify_lost hpkt hst),
    fun s pid p hvin hpkt hst hver => ⟨on_eq (f := (·.classify pid 0)) hvin (classify_fresh (by decide) hpkt hst hver),
      on_eq (f := (·.classify pid 1)) hvin (classify_fresh (by decide) hpkt hst hver)⟩,
    fun s pid v p hvin hpkt hst hsrc hver => on_eq (f := (·.classify pid 0)) hvin (classify_versioned hpkt hst hsrc hver),
    fun s pid v p hvin hpkt hst hsrc hver hdead hnext => on_eq (f := (·.classify pid 0)) hvin
      (classify_unknown hpkt hst hsrc hver hdead hnext), fun c p v n r x hno => ?_, fun c p v r x => rfl⟩
  · refine on_self (f := (·.classify pid e)) ?_
    rw [Chip.classify, hpkt]
    exact if_pos hst
  · rw [Chip.chain, hno]
    exact if_pos rfl

end Sys2Proof.Proofs
end

section
/-!
The latent set: O31. A command on it ends at once where no ternary command runs and waits for that one else; the scheduled FIX runs,
is withdrawn or cancelled; the oldest version is retired once nothing holds it.
-/
namespace Sys2Proof.Proofs
open Sys2Proof Sys2Proof.Machine
set_option Elab.async false

section
variable {c d : Chip} {op r idx st reason : Nat} {body : Bytes}

/-! ### Staging -/

theorem stageCmd_of (hrun : c.flag F.CLS_CMD_STATUS.RUNNING = false) (hst : st ≠ stDenied)
    (h : c.stageBodyCmd op r (c.stageBody (c.rKind r)) (c.getF F.CLS_CMD_INDEX.V) (c.polBit 0x238 r) = (st, reason, d)) :
    c.stageCmd op r = d.clsDone st reason := by
  rw [Chip.stageCmd, command_of_idle (p := portCls) hrun]
  dsimp only
  rw [h]
  dsimp only
  rw [if_neg hst]

theorem stageBodyCmd_noRegion (hkind : c.rKind r = 0) (locked : Bool) :
    c.stageBodyCmd op r body idx locked = (stInvalid, 1, c) := by
  unfold Chip.stageBodyCmd
  exact if_pos (.inl hkind)

/-- The region holds exact matches, and no entry has the identity of the body. -/
structure NewBody (c : Chip) (r idx : Nat) (body : Bytes) : Prop where
  exact : c.rKind r = 1 ∨ c.rKind r = 2
  good : bodyBad (c.rKind r) body = false
  fresh : c.sameIdent r body idx = []
  act : c.bodyActOk (c.rKind r) body = true

namespace NewBody

variable (h : NewBody c r idx body)
include h

theorem not_three : c.rKind r ≠ 3 := by have := h.exact; omega
theorem small : c.rKind r < 4 := by have := h.exact; omega

theorem region (op : Nat) : ¬(c.rKind r = 0 ∨ 6 ≤ c.rKind r ∨ (op = 3 ∧ 4 ≤ c.rKind r)) := by
  have := h.exact
  omega

theorem form (op : Nat) : ((4 ≤ c.rKind r && decide (capacity (c.rKind r) (c.rSize r) ≤ idx)) || (op != 2 && bodyBad (c.rKind r) body)
    || (op == 2 && c.rKind r == 3 && lpmBad body)) = false := by
  have hlow : decide (4 ≤ c.rKind r) = false := decide_eq_false (by have := h.small; omega)
  have hlpm : (c.rKind r == 3) = false := beq_false_of_ne h.not_three
  rw [h.good, hlow, hlpm]
  simp

theorem addBody {plan : Nat × Option (Nat × Nat)} (hplan : c.planPlace r body idx = some plan) (hroom : c.latentFull 1 = false)
    (locked : Bool) : c.stageBodyCmd 1 r body idx locked = if locked then (stDenied, 6, c) else (stOk, 0, c.doAdd r body plan) := by
  have hform := h.form 1
  unfold Chip.stageBodyCmd
  dsimp only
  rw [if_neg (h.region 1), hform]
  simp only [h.fresh, h.act, List.filter_nil, List.head?_nil]
  rw [if_neg nofun, if_neg (by simp), if_neg (by simp), if_neg (by simp), hplan]
  dsimp only
  rw [if_neg (by decide : ¬(1 : Nat) = 3), hroom, if_neg (c := false = true) nofun]

theorem deleteBody : c.stageBodyCmd 2 r body idx false = (stInvalid, 4, c) := by
  have hform := h.form 2
  unfold Chip.stageBodyCmd
  dsimp only
  rw [if_neg (h.region 2), hform]
  simp only [h.fresh, List.filter_nil, List.head?_nil]
  exact (if_neg nofun).trans ((if_neg (by simp)).trans (if_pos (by simp)))

end NewBody

/-! ### Lookup -/

theorem lookupCmd_noRegion (hrun : c.flag F.CLS_CMD_STATUS.RUNNING = false) (hkind : c.rKind r = 0) :
    c.lookupCmd r = c.clsDone stInvalid 1 := by
  rw [Chip.lookupCmd, command_of_idle (p := portCls) hrun]
  exact if_pos (.inl hkind)

theorem lookupCmd_found {p : Nat} {e : REntry} (hrun : c.flag F.CLS_CMD_STATUS.RUNNING = false)
    (hkind : c.rKind r = 1 ∨ c.rKind r = 2)
    (hfind : (c.sameIdent r (c.stageBody (c.rKind r)) (c.getF F.CLS_CMD_INDEX.V)).find?
      (fun e => c.visible e.2 (c.getF F.CLS_CMD_VERSION.V)) = some (p, e))
    (hlive : c.liveV (c.getF F.CLS_CMD_VERSION.V) = true) :
    c.lookupCmd r = (c.putWords F.CLS_STAGE_DATA.V.base (sliceB e.body 0 64)).clsDone stOk 0 := by
  have hlow : decide (4 ≤ c.rKind r) = false := decide_eq_false (by omega)
  have hlpm : (c.rKind r == 3) = false := beq_false_of_ne (by omega)
  rw [Chip.lookupCmd, command_of_idle (p := portCls) hrun]
  dsimp only
  rw [if_neg (by omega), hlow, hlpm, if_neg (by simp), hfind]
  exact if_pos hlive

/-! ### FIX, ABANDON and CANCEL -/

theorem clsOrWait_of_idle {k : Chip → Chip} (hrun : c.flag F.CLS_CMD_STATUS.RUNNING = false)
    (htern : c.flag F.CLS_TCMD_STATUS.RUNNING = false) (n : Nat) : c.clsOrWait n k = k c := by
  rw [Chip.clsOrWait, command_of_idle (p := portCls) hrun]
  exact if_neg (by rw [Chip.tBusy, htern]; nofun)

theorem clsOrWait_of_busy {k : Chip → Chip} (hrun : c.flag F.CLS_CMD_STATUS.RUNNING = false)
    (htern : c.flag F.CLS_TCMD_STATUS.RUNNING = true) (n : Nat) : c.clsOrWait n k =
      { (c.putF F.CLS_CMD_STATUS.RUNNING 1) with tern := { c.tern with wait := c.tern.wait ++ [n] } } := by
  rw [Chip.clsOrWait, command_of_idle (p := portCls) hrun]
  exact if_pos htern

theorem fixUntimed_free (hnone : c.rules.fixAt = none) (hfree : c.versionFree = true) :
    c.fixUntimed = (c.commitFix stOk false false).clsDone stOk 0 := by
  rw [Chip.fixUntimed, hnone, if_neg nofun, hfree, if_neg nofun]

theorem fixUntimed_full (hnone : c.rules.fixAt = none) (hfree : c.versionFree = false) :
    c.fixUntimed = c.clsDone stBusy 10 := by
  rw [Chip.fixUntimed, hnone, if_neg nofun, hfree]
  exact if_pos rfl

theorem fixUntimed_scheduled (hsome : c.rules.fixAt ≠ none) : c.fixUntimed = c.clsDone stBusy 7 := by
  rw [Chip.fixUntimed]
  exact if_pos (Option.isSome_iff_ne_none.mpr hsome)

theorem abandonEffect_scheduled (hsome : c.rules.fixAt ≠ none) : c.abandonEffect = c.clsDone stBusy 7 := by
  rw [Chip.abandonEffect]
  exact if_pos (Option.isSome_iff_ne_none.mpr hsome)

theorem syncRules_rules (c : Chip) : c.syncRules.rules = c.rules := (within_syncRules c).rules_eq

/-- A FIX closes the latent set under the next version; the entries stay. -/
theorem commitFix_rules (c : Chip) (st : Nat) (h p : Bool) : (c.commitFix st h p).rules = { c.rules with
    lists := c.rules.lists ++ [(c.nextV, c.rules.latent)], latent := [], fixAt := none, fixLate := false, fixHeld := false } := by
  rw [Chip.commitFix, (within_raise ..).rules_eq, syncRules_rules, (within_putQ ..).rules_eq]
  simp only [(within_putF ..).rules_eq]

theorem cancelFix_none (hrun : c.flag F.CLS_CMD_STATUS.RUNNING = false) (hnone : c.rules.fixAt = none) :
    c.cancelFix = c.clsDone stInvalid 0 := by
  rw [Chip.cancelFix, command_of_idle (p := portCls) hrun, hnone]
  exact if_pos rfl

theorem cancelFix_scheduled (hrun : c.flag F.CLS_CMD_STATUS.RUNNING = false) (hsome : c.rules.fixAt ≠ none) :
    c.cancelFix = ({ c with
      rules := { c.rules with fixAt := none, fixLate := false, fixHeld := false }
      time := { c.time with late := c.time.late.filter (· != PendAct.fix) } }).clsDone stOk 0 := by
  rw [Chip.cancelFix, command_of_idle (p := portCls) hrun]
  exact if_neg (by rwa [Option.isNone_iff_eq_none])

theorem fixCmd_untimed (hrun : c.flag F.CLS_CMD_STATUS.RUNNING = false) (htern : c.flag F.CLS_TCMD_STATUS.RUNNING = false) :
    c.fixCmd false = c.fixUntimed := by
  rw [Chip.fixCmd, clsOrWait_of_idle hrun htern, Chip.fixEffect]
  exact if_neg nofun

theorem fixCmd_timed (hrun : c.flag F.CLS_CMD_STATUS.RUNNING = false) (htern : c.flag F.CLS_TCMD_STATUS.RUNNING = false) :
    c.fixCmd true = c.fixTimed (c.timeClass (c.getQ F.CLS_CMD_TIME.V)) (c.getQ F.CLS_CMD_TIME.V) := by
  rw [Chip.fixCmd, clsOrWait_of_idle hrun htern, Chip.fixEffect]
  exact if_pos rfl

theorem fixCmd_waits (hrun : c.flag F.CLS_CMD_STATUS.RUNNING = false) (htern : c.flag F.CLS_TCMD_STATUS.RUNNING = true) :
    c.fixCmd false = { (c.putF F.CLS_CMD_STATUS.RUNNING 1) with tern := { c.tern with wait := c.tern.wait ++ [0] } } := by
  rw [Chip.fixCmd, if_neg nofun]
  exact clsOrWait_of_busy hrun htern 0

/-! ### A scheduled FIX, and the oldest version -/

theorem fixExecute_due {t : Nat} (hat : c.rules.fixAt = some t) (hdue : c.due t = true) (hfree : c.versionFree = true)
    (hbusy : c.tBusy = false) (hpassed : c.time.late.contains PendAct.fix = false) (hlate : c.rules.fixLate = false) :
    c.fixExecute = c.commitFix stOk c.rules.fixHeld false := by
  rw [Chip.fixExecute, hat]
  dsimp only
  rw [hdue, if_neg (by simp), hfree, if_neg nofun, hbusy, if_neg nofun, hlate, hpassed, if_neg nofun]

theorem fixHoldTimeout_due {t : Nat} (hat : c.rules.fixAt = some t) (hfree : c.versionFree = false)
    (hdue : c.due ((t + c.getF F.CLS_FIX_HOLD.V * 1000 * 2 ^ 16) % 2 ^ 64) = true) :
    c.fixHoldTimeout = ({ c with rules := { c.rules with fixHeld := true } }).fixWithdraw stTimeout := by
  rw [Chip.fixHoldTimeout, hat]
  dsimp only
  rw [hfree, hdue]
  exact if_pos rfl

theorem retire_last (heq : c.oldV = c.curV) : c.retire = c := by
  rw [Chip.retire]
  exact if_pos (.inl heq)

theorem retire_done (hne : c.oldV ≠ c.curV) (hflight : c.inFlight c.oldV = 0) (hpeer : c.peerHolds c.oldV = false)
    (hwait : c.tern.wait.contains 2 = false)
    (hbusy : ((c.putF F.CLS_VERSION.OLDEST ((c.oldV + 1) % 2 ^ 16)).raise F.CLS_EVENTS.RETIRED).tBusy = false) :
    c.retire = ((c.putF F.CLS_VERSION.OLDEST ((c.oldV + 1) % 2 ^ 16)).raise F.CLS_EVENTS.RETIRED).settle := by
  rw [Chip.retire]
  dsimp only
  rw [if_neg (by rw [hpeer, hwait]; simp [hne, hflight]), hbusy, if_neg nofun]

end

/-- Settles O31: a command on the latent set, and the life of a scheduled FIX. -/
theorem latentSetIsStagedFixedAndRetired : Obligations.LatentSetIsStagedFixedAndRetired := by
  unfold Obligations.LatentSetIsStagedFixedAndRetired
  refine ⟨fun s r hvin hrun _ hkind => ?_, fun s r st reason c hvin hrun hst => ⟨fun h => ?_, fun h => ?_, fun h => ?_⟩,
    fun c r idx body plan hexact hgood hfresh hact hplan hroom => ?_, fun s r p e hvin hrun hkind hfind hlive => ?_,
    fun s hvin hrun htern => ⟨?_, ?_, ?_⟩, fun s hvin hrun htern => ⟨?_, ?_⟩, fun c hnone hfree => fixUntimed_free hnone hfree,
    fun c hsome => ⟨fixUntimed_scheduled hsome, abandonEffect_scheduled hsome⟩, fun c hnone hfull => fixUntimed_full hnone hfull,
    fun c st h p => ?_, fun s hvin hrun hnone => on_eq (f := Chip.cancelFix) hvin (cancelFix_none hrun hnone),
    fun s hvin hrun hsome => on_eq (f := Chip.cancelFix) hvin (cancelFix_scheduled hrun hsome),
    fun s t hvin hat hdue hfree hbusy hpassed hlate => on_eq (f := Chip.fixExecute) hvin
      (fixExecute_due hat hdue hfree hbusy hpassed hlate),
    fun s t hvin hat hfree hdue => on_eq (f := Chip.fixHoldTimeout) hvin (fixHoldTimeout_due hat hfree hdue),
    fun s _ heq => on_self (f := Chip.retire) (retire_last heq),
    fun s hvin hne hflight hpeer hwait hbusy => on_eq (f := Chip.retire) hvin (retire_done hne hflight hpeer hwait hbusy)⟩
  · have hstage (op : Nat) : s.chip.stageCmd op r = s.chip.clsDone stInvalid 1 :=
      stageCmd_of hrun (by decide) (stageBodyCmd_noRegion hkind _)
    exact ⟨on_eq (f := (·.stageCmd 1 r)) hvin (hstage 1), on_eq (f := (·.stageCmd 2 r)) hvin (hstage 2),
      on_eq (f := (·.stageCmd 3 r)) hvin (hstage 3), on_eq (f := (·.lookupCmd r)) hvin (lookupCmd_noRegion hrun hkind)⟩
  · exact on_eq (f := (·.stageCmd 1 r)) hvin (stageCmd_of hrun hst h)
  · exact on_eq (f := (·.stageCmd 2 r)) hvin (stageCmd_of hrun hst h)
  · exact on_eq (f := (·.stageCmd 3 r)) hvin (stageCmd_of hrun hst h)
  · have hnew : NewBody c r idx body := ⟨hexact, hgood, hfresh, hact⟩
    exact ⟨(hnew.addBody hplan hroom false).trans (if_neg nofun), (hnew.addBody hplan hroom true).trans (if_pos rfl),
      hnew.deleteBody⟩
  · exact on_eq (f := (·.lookupCmd r)) hvin (lookupCmd_found hrun hkind hfind hlive)
  · exact on_eq (f := (·.fixCmd false)) hvin (fixCmd_untimed hrun htern)
  · exact on_eq (f := (·.fixCmd true)) hvin (fixCmd_timed hrun htern)
  · exact on_eq (f := Chip.latentAbandon) hvin (clsOrWait_of_idle hrun htern _)
  · exact on_eq (f := (·.fixCmd false)) hvin (fixCmd_waits hrun htern)
  · exact on_eq (f := Chip.latentAbandon) hvin (clsOrWait_of_busy hrun htern _)
  · rw [commitFix_rules]
    exact ⟨rfl, rfl, rfl, rfl⟩

end Sys2Proof.Proofs
end

section
/-!
The ternary profiles: O32. Every command on a profile starts from whether the profile is there, and a staged entry is placed by its
priority among the entries of its profile.
-/
namespace Sys2Proof.Proofs
open Sys2Proof Sys2Proof.Machine
set_option Elab.async false

section
variable {c d : Chip} {op q st reason : Nat} {b : Bytes} {runs : Bool}

/-! ### Staging -/

theorem absent_of (habsent : c.tPresent q = false ∨ c.tRegion q = none) : (!c.tPresent q || (c.tRegion q).isNone) = true := by
  obtain h | h := habsent <;> simp [h]

theorem present_of (hpresent : c.tPresent q = true) (hregion : c.tRegion q ≠ none) :
    (!c.tPresent q || (c.tRegion q).isNone) = false := by
  rw [hpresent, Option.isNone_eq_false_iff.mpr (Option.isSome_iff_ne_none.mpr hregion)]
  rfl

theorem tStageCmd_of (hrun : c.flag F.CLS_TCMD_STATUS.RUNNING = false) (hst : st ≠ stDenied)
    (h : c.tStage op q (c.getBytes (F.CLS_TSTAGE_DATA.V.base + 8) 104) (c.tLocked q) = (st, reason, runs, d)) :
    c.tStageCmd op q = if runs then d.tRuns else d.tDone st reason := by
  rw [Chip.tStageCmd, command_of_idle (p := portTcmd) hrun, h]
  dsimp only
  rw [if_neg hst]

theorem tStage_absent (habsent : c.tPresent q = false ∨ c.tRegion q = none) (locked : Bool) :
    c.tStage op q b locked = (stInvalid, 1, false, c) := by
  unfold Chip.tStage
  exact if_pos (absent_of habsent)

theorem tStageCmd_absent (hrun : c.flag F.CLS_TCMD_STATUS.RUNNING = false)
    (habsent : c.tPresent q = false ∨ c.tRegion q = none) (op : Nat) : c.tStageCmd op q = c.tDone stInvalid 1 :=
  (tStageCmd_of hrun (by decide) (tStage_absent habsent _)).trans (if_neg nofun)

/-- A body of a new identity is staged where its priority places it. -/
theorem tStage_new {pl : Nat × List (Nat × Nat)} (hpresent : c.tPresent q = true) (hregion : c.tRegion q ≠ none)
    (hgood : c.tBad q b false = false) (hfresh : (c.tEntries q).filter (fun e => tIdent e.2.body == tIdent b) = [])
    (hact : c.actOk 4 (tAct b) = true) (hplace : c.tPlace q (tPrio b) none = .ok pl) (hroom : c.latentFull 1 = false)
    (locked : Bool) : c.tStage 1 q b locked = if locked then (stDenied, 6, false, c) else (stOk, 0, true, c.tAdd q b pl) := by
  have hthere := present_of hpresent hregion
  have hbody : c.tBad q b (1 == 2) = false := hgood
  unfold Chip.tStage
  dsimp only
  rw [hthere, if_neg nofun, hbody, if_neg nofun]
  simp only [hfresh, hact, List.filter_nil, List.head?_nil]
  rw [if_neg (by simp), if_neg (by simp), if_neg (by simp), if_neg (by decide : ¬(1 : Nat) = 3), hplace]
  dsimp only
  rw [if_neg (by decide : ¬(1 : Nat) = 3), hroom, if_neg (c := false = true) nofun]

/-- The first entry of a profile stands in the middle of its region. -/
theorem tPlace_empty {p : Nat} (hempty : c.tEntries q = []) (hsize : 2 ≤ c.tSize q) :
    c.tPlace q p none = .ok ((((-1 : Int) + (c.tSize q : Int)) / 2).toNat, []) := by
  unfold Chip.tPlace
  rw [hempty]
  exact if_pos (by show (2 : Int) ≤ (c.tSize q : Int) - -1; omega)

/-! ### Lookup and rebalancing -/

theorem tLookup_absent (hrun : c.flag F.CLS_TCMD_STATUS.RUNNING = false)
    (habsent : c.tPresent q = false ∨ c.tRegion q = none) (byKey : Bool) : c.tLookup q byKey = c.tDone stInvalid 1 := by
  rw [Chip.tLookup, command_of_idle (p := portTcmd) hrun]
  exact if_pos (absent_of habsent)

theorem tLookup_found {n : Nat} {e : REntry} (hrun : c.flag F.CLS_TCMD_STATUS.RUNNING = false)
    (hpresent : c.tPresent q = true) (hregion : c.tRegion q ≠ none)
    (hhit : c.tsearch q (tValue (c.getBytes (F.CLS_TSTAGE_DATA.V.base + 8) 104)) (c.getF F.CLS_TCMD_VERSION.V) = some (n, e))
    (hlive : c.liveV (c.getF F.CLS_TCMD_VERSION.V) = true) :
    c.tLookup q true = ((c.putWords F.CLS_TSTAGE_DATA.V.base (entryHeader e ++ sliceB e.body 0 104)).putF F.CLS_TPOS.V n).tDone
      stOk 0 := by
  rw [Chip.tLookup, command_of_idle (p := portTcmd) hrun]
  dsimp only
  rw [present_of hpresent hregion, if_neg nofun, if_neg (by simp), if_pos rfl, hhit]
  exact if_pos hlive

theorem rebalance_absent (hrun : c.flag F.CLS_TCMD_STATUS.RUNNING = false)
    (habsent : c.tPresent q = false ∨ c.tRegion q = none) : c.rebalance q = c.tDone stInvalid 1 := by
  rw [Chip.rebalance, command_of_idle (p := portTcmd) hrun]
  exact if_pos (absent_of habsent)

theorem rebalance_empty (hrun : c.flag F.CLS_TCMD_STATUS.RUNNING = false) (hpresent : c.tPresent q = true)
    (hregion : c.tRegion q ≠ none) (hlock : c.tLocked q = false) (hempty : c.tEntries q = []) :
    c.rebalance q = { c.tRuns with tern := { c.tern with wait := c.tern.wait ++ [9] } } := by
  rw [Chip.rebalance, command_of_idle (p := portTcmd) hrun]
  dsimp only
  rw [present_of hpresent hregion, if_neg nofun, hlock, if_neg nofun, hempty]
  rfl

/-! ### The end of a command, the scrub and the banks -/

theorem tCommandDone_idle (hidle : c.tBusy = false) : c.tCommandDone = c := by
  rw [Chip.tCommandDone, hidle]
  exact if_pos rfl

theorem tCommandDone_busy (hbusy : c.tBusy = true) : c.tCommandDone =
    c.tern.wait.foldl Chip.tWaited (({ c with tern := { c.tern with wait := [] } }).finish portTcmd stOk) := by
  rw [Chip.tCommandDone, hbusy]
  exact if_neg nofun

theorem tScrub_empty {n : Nat} {u : Bool} (hnone : smFind c.tern.entries (tKey q n) = none) : c.tScrub q n u = c := by
  rw [Chip.tScrub, hnone]

theorem tScrub_fixed {n : Nat} {e : REntry} (hsome : smFind c.tern.entries (tKey q n) = some e) :
    c.tScrub q n false = (c.bump F.CLS_TCNT_SCRUB_FIX.V).raise F.CLS_TEVENTS.SCRUB_FIX := by
  rw [Chip.tScrub, hsome]
  exact if_neg nofun

end

/-- Settles O32: staging, lookup, rebalancing and the scrub of a profile. -/
theorem ternaryCommandsStageSearchAndRebalance : Obligations.TernaryCommandsStageSearchAndRebalance := by
  unfold Obligations.TernaryCommandsStageSearchAndRebalance
  refine ⟨fun s q hvin hrun habsent => ?_, fun s q b st reason runs c hvin hrun hb hst => ?_,
    fun c q b pl hpresent hregion hgood hfresh hact hplace hroom => ?_, fun c q p hempty hsize => tPlace_empty hempty hsize,
    fun s q n e hvin hrun hpresent hregion hhit hlive => on_eq (f := (·.tLookup q true)) hvin
      (tLookup_found hrun hpresent hregion hhit hlive),
    fun s q hvin hrun hpresent hregion hlock hempty => on_eq (f := (·.rebalance q)) hvin
      (rebalance_empty hrun hpresent hregion hlock hempty),
    fun s _ hidle => on_self (f := Chip.tCommandDone) (tCommandDone_idle hidle),
    fun s hvin hbusy => on_eq (f := Chip.tCommandDone) hvin (tCommandDone_busy hbusy),
    fun s q n u _ hnone => on_self (f := (·.tScrub q n u)) (tScrub_empty hnone),
    fun s q n e hvin hsome => on_eq (f := (·.tScrub q n false)) hvin (tScrub_fixed hsome), fun s b hvin hb => ?_,
    fun s b hvin hb => ?_⟩
  · have hstage := tStageCmd_absent hrun habsent
    exact ⟨on_eq (f := (·.tStageCmd 1 q)) hvin (hstage 1), on_eq (f := (·.tStageCmd 2 q)) hvin (hstage 2),
      on_eq (f := (·.tStageCmd 3 q)) hvin (hstage 3), on_eq (f := (·.tLookup q true)) hvin (tLookup_absent hrun habsent true),
      on_eq (f := (·.rebalance q)) hvin (rebalance_absent hrun habsent)⟩
  · subst hb
    exact ⟨fun h => on_eq (f := (·.tStageCmd 1 q)) hvin (tStageCmd_of hrun hst h),
      fun h => on_eq (f := (·.tStageCmd 2 q)) hvin (tStageCmd_of hrun hst h),
      fun h => on_eq (f := (·.tStageCmd 3 q)) hvin (tStageCmd_of hrun hst h)⟩
  · have hnew := tStage_new hpresent hregion hgood hfresh hact hplace hroom
    exact ⟨(hnew false).trans (if_neg nofun), (hnew true).trans (if_pos rfl)⟩
  · change execTernaryBankGate b s = _
    rw [execTernaryBankGate, State.on_vin hvin, if_pos hb]
  · change ∃ t, execTernaryBankGate b s = _ ∧ _
    rw [execTernaryBankGate, State.on_vin hvin, if_neg (by omega)]
    exact ⟨_, rfl, Chip.rd_wr_ne (by decide)⟩

end Sys2Proof.Proofs
end

section
/-!
The pattern unit: O33. A packet's scan takes an engine or meets the overload action of its group; an engine reports once.
-/
namespace Sys2Proof.Proofs
open Sys2Proof Sys2Proof.Machine
set_option Elab.async false

section
variable {c : Chip} {pid e l : Nat} {p : Pkt}

theorem scanStart_notWanted (hpkt : c.pkt pid = some p) (hins : p.inspect ≠ 1) : c.scanStart pid = c := by
  rw [Chip.scanStart, hpkt]
  exact if_pos (.inl hins)

/-- The packet waits for a scan and its end is there. -/
structure WantsScan (c : Chip) (pid : Nat) (p : Pkt) : Prop where
  pkt : c.pkt pid = some p
  inspect : p.inspect = 1
  tail : p.tail = 1
  idle : c.pattern.engines.any (fun e => e.2 == pid) = false

theorem WantsScan.off (h : WantsScan c pid p) (hoff : c.flag F.CLS_PAT_CTRL.ENABLE = false) :
    c.scanStart pid = c.overload pid false := by
  rw [Chip.scanStart, h.pkt]
  dsimp only
  rw [if_neg (by simp [h.inspect, h.tail, h.idle]), hoff]
  exact if_pos rfl

theorem WantsScan.takes (h : WantsScan c pid p) (hon : c.flag F.CLS_PAT_CTRL.ENABLE = true) (htrip : c.tripped = false)
    (hidle : c.idleScan = some e) (hqueue : c.pattern.queue = []) :
    c.scanStart pid = { c with pattern := { c.pattern with
      engines := smPut c.pattern.engines e pid, gated := c.pattern.gated.filter (· != e) } } := by
  rw [Chip.scanStart, h.pkt]
  dsimp only
  rw [if_neg (by simp [h.inspect, h.tail, h.idle]), hon, htrip, if_neg nofun, hidle]
  dsimp only
  rw [hqueue]
  dsimp only
  rw [Chip.scanTake, hqueue, List.filter_nil]

theorem scanReport_idle {ms : List (Nat × Nat)} {r : Bool} (hnone : smFind c.pattern.engines e = none) :
    c.scanReport e ms r l = c := by
  rw [Chip.scanReport, hnone]

/-- An uncorrectable line of the store: the line is loaded again, and the packet meets the overload action. -/
theorem scanReport_error {ms : List (Nat × Nat)} (heng : smFind c.pattern.engines e = some pid) (hpkt : c.pkt pid = some p) :
    c.scanReport e ms true l = ({ c with pattern := { c.pattern with
      engines := smErase c.pattern.engines e, reload := smPut c.pattern.reload l c.mt } }).overload pid true := by
  rw [Chip.scanReport, heng]
  dsimp only
  rw [hpkt]
  exact if_pos rfl

/-- The report of a scan without a match. -/
theorem emptyReport (g : Nat) : sliceB (natBe 1 (([] : List (Nat × Nat)).length + 128 * b2n (decide (4 < ([] : List (Nat × Nat)).length)))
    ++ natBe 1 g ++ zerosB 2 ++ ([] : List (Nat × Nat)).flatMap (fun m => natBe 4 (m.1 * 2 ^ 16 + m.2 % 2 ^ 14))) 0 20 =
      natBe 1 0 ++ natBe 1 g ++ zerosB 18 :=
  rfl

theorem scanReport_noMatch {o : Nat} {d : Chip} (heng : smFind c.pattern.engines e = some pid) (hpkt : c.pkt pid = some p)
    (hd : d = { c with pattern := { c.pattern with engines := smErase c.pattern.engines e } })
    (hfrom : d.scanFrom p p.grp = some o) :
    c.scanReport e [] false l = (d.bump F.CLS_PAT_CNT_SCANNED.V).reported pid 0 (natBe 1 0 ++ natBe 1 p.grp ++ zerosB 18) := by
  have hsort : matchOrder [] = [] := List.mergeSort_nil
  rw [Chip.scanReport, heng]
  dsimp only
  rw [hpkt]
  dsimp only
  rw [← hd, if_neg nofun, hfrom]
  dsimp only
  rw [if_pos (List.isEmpty_nil (α := Nat × Nat)), if_neg (by decide : ¬4 < ([] : List (Nat × Nat)).length), hsort]
  exact congrArg (Chip.reported _ pid 0) (emptyReport p.grp)

theorem scanTimeout_gone (hgone : c.pattern.queue.any (fun x => x.1 == pid) = false) : c.scanTimeout pid = c := by
  rw [Chip.scanTimeout, hgone]
  exact if_neg nofun

theorem scanTimeout_waiting (hwaits : c.pattern.queue.any (fun x => x.1 == pid) = true) :
    c.scanTimeout pid = ({ c with pattern := { c.pattern with
      queue := c.pattern.queue.filter (fun x => x.1 != pid) } }).overload pid false := by
  rw [Chip.scanTimeout]
  exact if_pos hwaits

end

/-- Settles O33: a packet's scan, and the unit's engines. -/
theorem patternScansReportOrOverload : Obligations.PatternScansReportOrOverload := by
  unfold Obligations.PatternScansReportOrOverload
  refine ⟨fun s pid p _ hpkt hins => on_self (f := (·.scanStart pid)) (scanStart_notWanted hpkt hins),
    fun s pid p hvin hpkt hins htail hidle hoff => on_eq (f := (·.scanStart pid)) hvin
      (WantsScan.off ⟨hpkt, hins, htail, hidle⟩ hoff),
    fun s pid e p hvin hpkt hins htail hidle hon htrip hscan hqueue => on_eq (f := (·.scanStart pid)) hvin
      (WantsScan.takes ⟨hpkt, hins, htail, hidle⟩ hon htrip hscan hqueue),
    fun s e ms r l _ hnone => on_self (f := (·.scanReport e ms r l)) (scanReport_idle hnone),
    fun s e ms l pid p hvin heng hpkt => on_eq (f := (·.scanReport e ms true l)) hvin (scanReport_error heng hpkt),
    fun s e l pid o p c hvin heng hpkt hc hfrom => on_eq (f := (·.scanReport e [] false l)) hvin
      (scanReport_noMatch heng hpkt hc hfrom),
    fun s pid _ hgone => on_self (f := (·.scanTimeout pid)) (scanTimeout_gone hgone),
    fun s pid hvin hwaits => on_eq (f := (·.scanTimeout pid)) hvin (scanTimeout_waiting hwaits),
    fun s l hvin => ?_, fun s e hvin hnone hawake => ?_⟩
  · change execPatternLineReloaded l s = _
    rw [execPatternLineReloaded, State.on_vin hvin]
  · change execPatternEngineGate e s = _
    rw [execPatternEngineGate, State.on_vin hvin, hnone, hawake, if_neg nofun]

end Sys2Proof.Proofs
end

section
/-!
A packet's op at its flow engine: O34. The op goes to the engine that owns its slot, is served at once where its key is free, waits in
the station else, and comes back by a replay or at its deadline.
-/
namespace Sys2Proof.Proofs
open Sys2Proof Sys2Proof.Machine
set_option Elab.async false

section
variable {c d : Chip} {pid e i : Nat} {p : Pkt} {o : FOp} {r : List FOp}

/-! ### Release and sending -/

theorem opRelease_sends (hpkt : c.pkt pid = some p) (hst : p.stage = .flowWait) (hnot : p.opSent = false)
    (hkey : p.flowKey ≠ none) (hfree : c.opBlocked pid p = false) :
    c.opRelease pid = ((c.setPkt pid { p with opSent := true }).stampStrip pid 4).sendOp pid (c.flowOp pid p) := by
  rw [Chip.opRelease, hpkt]
  exact if_neg (by simp [hst, hnot, hkey, hfree])

theorem opRelease_held (hpkt : c.pkt pid = some p) (hheld : p.opSent = true ∨ c.opBlocked pid p = true) :
    c.opRelease pid = c := by
  rw [Chip.opRelease, hpkt]
  exact if_pos (.inr (hheld.imp_right .inr))

theorem sendOp_noOwner (howner : c.ownerOf o.h1 = none) : c.sendOp pid o = c.missFb pid o := by
  rw [Chip.sendOp, howner]

theorem sendOp_full (howner : c.ownerOf o.h1 = some c.ownDevice) (hfull : 512 ≤ (c.eng (hEngine o.h1)).input.length) :
    c.sendOp pid o = (c.bumpQ 48 F.FLE_CNT_INPUT_FULL.V (hEngine o.h1)).missFb pid o := by
  rw [Chip.sendOp, howner]
  dsimp only
  rw [if_neg (not_not.mpr rfl), if_pos hfull]

theorem sendOp_room (howner : c.ownerOf o.h1 = some c.ownDevice) (hroom : (c.eng (hEngine o.h1)).input.length < 512)
    (hrun : c.engineHeld (hEngine o.h1) = false) : c.sendOp pid o =
      ((c.onEng (hEngine o.h1) fun s => { s with input := s.input ++ [o] }).stampStrip pid 5).wakeBank (hEngine o.h1) := by
  rw [Chip.sendOp, howner]
  dsimp only
  rw [if_neg (not_not.mpr rfl), if_neg (by omega), if_neg (by rw [hrun]; nofun)]

/-! ### Service -/

theorem serveInput_stopped {x : Nat} (hstop : c.bankGated e = true ∨ c.engineStalled e = true) : c.serveInput e x = c := by
  rw [Chip.serveInput]
  exact if_pos (Bool.or_eq_true_iff.mpr hstop)

theorem serveInput_own {x : Nat} (hawake : c.bankGated e = false) (hrun : c.engineStalled e = false)
    (hin : (c.eng e).input = o :: r) (hkind : o.kind = 0) (howner : c.ownerOf o.h1 = some c.ownDevice) :
    c.serveInput e x = (c.onEng e fun s => { s with input := r }).arriveEcc e { o with since := c.mt } x := by
  rw [Chip.serveInput, hawake, hrun, if_neg nofun, hin]
  dsimp only
  rw [if_pos hkind]
  exact if_pos howner

theorem rmtOp_served {port x : Nat} {fr : Bytes} (htake : c.gangTake port 2 false fr = (true, d))
    (hown : d.notOwned (d.ropOp fr).h1 = false) (hroom : (d.eng (hEngine (d.ropOp fr).h1)).input.length < 512)
    (hrun : d.engineHeld (hEngine (d.ropOp fr).h1) = false) :
    c.rmtOp port fr x = ((d.onEng (hEngine (d.ropOp fr).h1) fun s => { s with
      input := s.input ++ [d.ropOp fr] }).wakeBank (hEngine (d.ropOp fr).h1)).serveInput (hEngine (d.ropOp fr).h1) x := by
  rw [Chip.rmtOp, htake]
  dsimp only
  rw [hown, if_neg nofun, if_neg (by omega), hrun, if_neg nofun]

theorem readWay_clean (c : Chip) (e : Nat) (key : Bytes) (h1 : Nat) : c.readWay e key h1 0 = (c, false) := by
  rw [Chip.readWay]
  cases c.wayOf e key h1 <;> rfl

theorem arriveEcc_clean (c : Chip) (e : Nat) (o : FOp) : c.arriveEcc e o 0 = c.arrive e o := by
  rw [Chip.arriveEcc, readWay_clean]

theorem arrive_done (htry : c.tryOp e o = (d, true)) : c.arrive e o = d := by
  rw [Chip.arrive, htry]

/-- A packet's op on a free key: a hit, or the start of a lookup. -/
theorem tryOp_packet (hkind : o.kind = 0) (hfree : c.keyBlocked e o.key o.h1 = false) :
    c.tryOp e o = match c.wayOf e o.key o.h1 with
      | some i => c.packetHit e i o
      | none => (c.startLookup e o, false) := by
  have hpkt : o.isPkt = true := by rw [FOp.isPkt, hkind]; rfl
  rw [Chip.tryOp, if_neg (by rw [hkind]; nofun)]
  dsimp only
  rw [if_neg (by rw [hkind]; nofun), hfree, if_neg nofun, hpkt]
  cases c.wayOf e o.key o.h1 with
  | some i => exact if_pos rfl
  | none => exact if_pos (.inl hkind)

/-! ### Replay and deadline -/

theorem replay_none {x : Nat} (hnone : (c.eng e).station.find? (fun o => c.opReady e o) = none) : c.replay e x = c := by
  rw [Chip.replay, hnone]

theorem replay_done (hsome : (c.eng e).station.find? (fun o => c.opReady e o) = some o) (htry : c.tryOp e o = (d, true)) :
    c.replay e 0 = d.leave e o := by
  rw [Chip.replay, hsome]
  dsimp only
  rw [readWay_clean]
  dsimp only
  rw [htry]

theorem opDeadline_waiting {n : Nat} (hop : (c.eng e).station[n]? = some o) (hpkt : o.isPkt = true)
    (hset : (c.eng e).setting o.key = none) (hlook : (c.eng e).looking o.key = none) :
    c.opDeadline e n = (c.leave e o).fallback e o 4 := by
  rw [Chip.opDeadline, hop]
  dsimp only
  rw [hpkt, if_neg nofun, hset, hlook]
  rfl

end

/-- Settles O34: release, service, station and replay of a packet's op. -/
theorem flowOpsAreReleasedServedAndReplayed : Obligations.FlowOpsAreReleasedServedAndReplayed := by
  unfold Obligations.FlowOpsAreReleasedServedAndReplayed
  refine ⟨fun s pid p hvin hpkt hst hnot hkey hfree => on_eq (f := fun c => (c.opRelease pid).flush) hvin
      (congrArg _ (opRelease_sends hpkt hst hnot hkey hfree)),
    fun s pid p hvin hpkt hheld => on_eq (f := fun c => (c.opRelease pid).flush) hvin (congrArg _ (opRelease_held hpkt hheld)),
    fun c pid o howner => sendOp_noOwner howner, fun c pid o howner hfull => sendOp_full howner hfull,
    fun c pid o howner hroom hrun => sendOp_room howner hroom hrun,
    fun s e x o r hvin hawake hrun hin hkind howner => on_eq (f := fun c => (c.serveInput e x).flush) hvin
      (congrArg _ (serveInput_own hawake hrun hin hkind howner)),
    fun s e x hvin hstop => on_eq (f := fun c => (c.serveInput e x).flush) hvin (congrArg _ (serveInput_stopped hstop)),
    fun s p fr x c hvin htake hown hroom hrun => on_eq (f := fun c => (c.rmtOp p fr x).flush) hvin
      (congrArg _ (rmtOp_served htake hown hroom hrun)),
    fun c e o => ⟨readWay_clean .., arriveEcc_clean ..⟩, fun c c1 e o htry => arrive_done htry,
    fun c e i o hkind hfree hway => by rw [tryOp_packet hkind hfree, hway],
    fun c e o hkind hfree hway => by rw [tryOp_packet hkind hfree, hway],
    fun s e x hvin hnone => on_eq (f := fun c => (c.replay e x).flush) hvin (congrArg _ (replay_none hnone)),
    fun s e o c hvin hsome htry => on_eq (f := fun c => (c.replay e 0).flush) hvin (congrArg _ (replay_done hsome htry)),
    fun s e n o hvin hop hpkt hset hlook => on_eq (f := fun c => (c.opDeadline e n).flush) hvin
      (congrArg _ (opDeadline_waiting hop hpkt hset hlook)),
    fun s pid g hvin => State.on_vin hvin fun c => (c.tailReport pid g).flush⟩

end Sys2Proof.Proofs
end

section
/-!
The miss path of a flow engine: O35. A lookup is granted, finds its tag, fills a way or finds the key absent; a setup ends.
-/
namespace Sys2Proof.Proofs
open Sys2Proof Sys2Proof.Machine
set_option Elab.async false

section
variable {c : Chip} {e n : Nat} {l : FLookup}

theorem missGrant_full (hfull : 512 ≤ (c.eng e).missUsed) : c.missGrant e = c := by
  rw [Chip.missGrant]
  exact if_pos hfull

theorem missGrant_next (hroom : (c.eng e).missUsed < 512) (hfirst : (c.eng e).lookups.find? (fun l => l.st = 0) = some l) :
    c.missGrant e = ((c.onLookup e l.key fun l => { l with st := 1 }).bumpQ 48 F.FLE_CNT_MISS.V e).signal 4 e 3 := by
  rw [Chip.missGrant, if_neg (by omega), hfirst]

/-! ### The tag lines -/

section
variable (hat : (c.eng e).lookups[n]? = some l) (hst : l.st = 1)
include hat hst

theorem tagsArrived_error : c.tagsArrived e n true = c.lookupError e l.key := by
  rw [Chip.tagsArrived, hat]
  exact (if_neg (not_not.mpr hst)).trans (if_pos rfl)

theorem tagsArrived_absent (hnone : c.tagHit e l.h1 l.h2 = none) : c.tagsArrived e n false = c.absentKey e l.key := by
  rw [Chip.tagsArrived, hat]
  dsimp only
  rw [if_neg (not_not.mpr hst), if_neg nofun, hnone]

theorem tagsArrived_hit {b j : Nat} (hsome : c.tagHit e l.h1 l.h2 = some (b, j)) :
    c.tagsArrived e n false = c.onLookup e l.key fun l => { l with st := 2, bucket := b, slot := j } := by
  rw [Chip.tagsArrived, hat]
  dsimp only
  rw [if_neg (not_not.mpr hst), if_neg nofun, hsome]

end

/-! ### The record -/

section
variable (hat : (c.eng e).lookups[n]? = some l) (hst : l.st = 2)
include hat hst

theorem recordFill_error {x : Nat} : c.recordFill e n true x = c.lookupError e l.key := by
  rw [Chip.recordFill, hat]
  exact (if_neg (not_not.mpr hst)).trans (if_pos rfl)

/-- Where the read of the replaced way is clean, the record's tag and key decide. -/
theorem recordFill_clean : c.recordFill e n false 0 =
    if !tagMatches (c.tag e l.bucket l.slot) l.h1 l.h2 || rKey (c.slotRec e l.bucket l.slot) != l.key then c.absentKey e l.key
    else c.fillLookup e l := by
  rw [Chip.recordFill, hat]
  dsimp only
  rw [if_neg (not_not.mpr hst), if_neg nofun]
  cases c.cacheWay e (hSet l.h1) with
  | none => rfl
  | some w =>
    have hread : ((c.way e w).full && (0 : Nat) == 2) = false := by simp
    simp only [hread, Bool.false_eq_true, if_false]

theorem recordFill_match (htag : tagMatches (c.tag e l.bucket l.slot) l.h1 l.h2 = true)
    (hkey : rKey (c.slotRec e l.bucket l.slot) = l.key) : c.recordFill e n false 0 = c.fillLookup e l := by
  rw [recordFill_clean hat hst, htag, hkey]
  exact if_neg (by simp)

theorem recordFill_other (htag : tagMatches (c.tag e l.bucket l.slot) l.h1 l.h2 = false) :
    c.recordFill e n false 0 = c.absentKey e l.key := by
  rw [recordFill_clean hat hst, htag]
  exact if_pos rfl

end

theorem fillLookup_way {i : Nat} (hway : c.cacheWay e (hSet l.h1) = some i) :
    c.fillLookup e l = (((c.fillWay e i l.bucket l.slot false false (c.slotRec e l.bucket l.slot)).endLookup e l.key).bumpQ 48
      F.FLE_CNT_FILL.V e).signal 4 e 4 := by
  rw [Chip.fillLookup, hway]

theorem fillLookup_wait (hnone : c.cacheWay e (hSet l.h1) = none) :
    c.fillLookup e l = c.onLookup e l.key fun l => { l with st := 3 } := by
  rw [Chip.fillLookup, hnone]

theorem wayAvailable_next (hfirst : (c.eng e).lookups.find? (fun l => 3 ≤ l.st && c.canPlace e l) = some l) :
    c.wayAvailable e = if l.st = 3 then c.fillLookup e l else c.absentKey e l.key := by
  rw [Chip.wayAvailable, hfirst]

/-! ### Absent keys and setups -/

theorem absentOne_packet {o : FOp} (hkind : o.kind = 0) (hno : tpMode (c.tpl o.tmpl) = 0 ∨ insertOn (c.tpl o.tmpl) o = false) :
    c.absentOne e o = ((c.leave e o).fallback e o 3, true) := by
  have hpkt : o.isPkt = true := by rw [FOp.isPkt, hkind]; rfl
  rw [Chip.absentOne]
  dsimp only
  rw [if_neg (by rw [hkind]; nofun), hpkt, if_neg nofun]
  exact if_pos (by obtain h | h := hno <;> simp [h])

theorem setupEnd_running {tag how : Nat} {x : FSetup}
    (hfind : (c.eng e).setups.find? (fun x => x.tag = tag && x.st != 0) = some x) (hst : x.st = 1) :
    c.setupEnd e tag how = c.setupFailed e x (if how = 0 then 3 else 5) := by
  rw [Chip.setupEnd, hfind]
  exact if_neg (by rw [hst]; nofun)

end

/-- Settles O35: the miss queue, the tag lines, the fill and the end of a setup. -/
theorem flowMissesAndSetupsResolve : Obligations.FlowMissesAndSetupsResolve := by
  unfold Obligations.FlowMissesAndSetupsResolve
  refine ⟨fun s e _ hfull => on_self (f := (·.missGrant e)) (missGrant_full hfull),
    fun s e l hvin hroom hfirst => on_eq (f := (·.missGrant e)) hvin (missGrant_next hroom hfirst),
    fun s e n l hvin hat hst => ⟨?_, fun hnone => ?_, fun b j hsome => ?_⟩,
    fun s e n l x hvin hat hst => ⟨?_, fun htag hkey => ?_, fun htag => ?_⟩, fun c e i l hway => fillLookup_way hway,
    fun c e l hnone => fillLookup_wait hnone, fun s e l hvin hfirst => ⟨fun hst => ?_, fun hst => ?_⟩,
    fun c e o hkind hno => absentOne_packet hkind hno, fun s hvin hnone => ?_, fun s x r hvin hfirst => ?_,
    fun c e tag how x hfind hst => setupEnd_running hfind hst⟩
  · exact on_eq (f := fun c => (c.tagsArrived e n true).flush) hvin (congrArg _ (tagsArrived_error hat hst))
  · exact on_eq (f := fun c => (c.tagsArrived e n false).flush) hvin (congrArg _ (tagsArrived_absent hat hst hnone))
  · exact on_eq (f := fun c => (c.tagsArrived e n false).flush) hvin (congrArg _ (tagsArrived_hit hat hst hsome))
  · exact on_eq (f := fun c => (c.recordFill e n true x).flush) hvin (congrArg _ (recordFill_error hat hst))
  · exact on_eq (f := fun c => (c.recordFill e n false 0).flush) hvin (congrArg _ (recordFill_match hat hst htag hkey))
  · exact on_eq (f := fun c => (c.recordFill e n false 0).flush) hvin (congrArg _ (recordFill_other hat hst htag))
  · exact on_eq (f := fun c => (c.wayAvailable e).flush) hvin (congrArg _ ((wayAvailable_next hfirst).trans (if_pos hst)))
  · exact on_eq (f := fun c => (c.wayAvailable e).flush) hvin (congrArg _ ((wayAvailable_next hfirst).trans (if_neg hst)))
  · change execSetupEndReport s = _
    rw [execSetupEndReport, State.on_vin hvin, hnone]
  · change execSetupEndReport s = _
    rw [execSetupEndReport, State.on_vin hvin, hfirst]

end Sys2Proof.Proofs
end

section
/-!
The other ops of a flow engine: O36. Requests and messages of contexts, the ops of windows, sweeps and peers, the hash calculator and
the refresh of the meters.
-/
namespace Sys2Proof.Proofs
open Sys2Proof Sys2Proof.Machine
set_option Elab.async false

section
variable {c d : Chip} {e i : Nat} {o : FOp}

/-! ### Requests and messages -/

/-- An engine that is awake and not stopped for the kind takes the request. -/
theorem serveReq_takes {kind x : Nat}
    (hfirst : c.act.reqs.find? (fun (o : FOp) => o.kind == kind && hEngine o.h1 == e) = some o) (hawake : c.bankGated e = false)
    (hrun : (if kind ≤ 3 then c.engineStalled e else c.engineHeld e) = false) : c.serveReq kind e x =
      ({ c with act := { c.act with reqs := c.act.reqs.erase o } }).arriveEcc e o x := by
  rw [Chip.serveReq, hfirst]
  dsimp only
  rw [hawake, if_neg nofun, if_neg (by rw [hrun]; nofun)]

theorem serveMsg_takes {ap : Bool} {m : Bool × Nat × Nat × Nat} {p : FPrep}
    (hd : d = { c with act := { c.act with msgs := c.act.msgs.erase m } })
    (hprep : (d.eng e).prepOf m.2.2.1 m.2.2.2 = some p)
    (hfirst : c.act.msgs.find? (fun (m : Bool × Nat × Nat × Nat) => m.1 == ap && m.2.1 == e) = some m) :
    c.serveMsg ap e = if ap then d.applyPrep e p else d.dropPrep e p := by
  rw [Chip.serveMsg, hfirst]
  dsimp only
  rw [← hd, hprep]

/-! ### The ops at a way, at the table and of peers -/

theorem otherHit_read (hkind : o.kind = 2) : c.otherHit e i o = (c.touch e i).sendAnswer o 0 (c.way e i).record := by
  rw [Chip.otherHit, hkind]
  rfl

theorem otherHit_hostRead (hkind : o.kind = 5) : c.otherHit e i o = c.sendAnswer o 0 (c.way e i).record := by
  rw [Chip.otherHit, hkind]
  rfl

theorem otherHit_insert (hkind : o.kind = 7) : c.otherHit e i o = c.refuseOp e o 4 := by
  rw [Chip.otherHit, hkind]
  rfl

theorem otherHit_otherKey (hkind : o.kind = 3) (hmode : o.mode = 1) (hkey : sliceB o.data 0 40 ≠ rKey (c.way e i).record) :
    c.otherHit e i o = c.refuseOp e o 1 := by
  rw [Chip.otherHit, hkind]
  exact (if_neg (by omega)).trans (if_pos ⟨hmode, hkey⟩)

theorem tableOp_deleteAbsent (hkind : o.kind = 6) (habsent : c.tableLookup e o.key o.h1 o.h2 = .absent) :
    c.tableOp e o = c.refuseOp e o 3 := by
  rw [Chip.tableOp, hkind, habsent]
  rfl

/-- A peer's record takes its slot in the table, marked as a copy. -/
theorem replOp_found {b j : Nat} (hmode : o.mode ≠ 3) (hway : c.wayOf e o.key o.h1 = none)
    (hfound : c.tableLookup e o.key o.h1 o.h2 = .found b j) : c.replOp e o = c.storeRec e b j
      (putB (sliceB o.data 0 128) 43 [BitVec.ofNat 8 (setBitsOf 2 2 (byteAt o.data 43) 1)]) := by
  rw [Chip.replOp, hway, hfound]
  exact if_neg hmode

/-! ### The hash calculator -/

/-- Two registers of an array lie apart where their bases do. -/
theorem addr_of_base {f g : Fld} {e : Nat} (hs : f.s1 = g.s1) (hb : f.base ≠ g.base) : g.addr e 0 ≠ f.addr e 0 := by
  intro h
  have h' : g.base + e * g.s1 + 0 * g.s2 = f.base + e * f.s1 + 0 * f.s2 := h
  rw [hs, Nat.zero_mul, Nat.zero_mul] at h'
  omega

theorem apart_base {f g : Fld} {e : Nat} (hs : f.s1 = g.s1) (hb : f.base ≠ g.base) : apart f e 0 g e 0 :=
  .inl (addr_of_base hs hb)

/-- The registers that the calculator writes, of hashes `h1` and `h2`, orientation `r` and buckets `b1` and `b2`. -/
def hashWritten (c : Chip) (e h1 h2 r b1 b2 : Nat) : Chip :=
  let c := (c.putF F.FLE_HC_H1.V h1 e).putF F.FLE_HC_H2.V h2 e
  let c := (c.putF F.FLE_HC_IDX.ORIENT r e).putF F.FLE_HC_IDX.SET (hSet h1) e
  let c := (c.putF F.FLE_HC_IDX.SLOT (hSlot h1) e).putF F.FLE_HC_IDX.ENGINE (hEngine h1) e
  (c.putF F.FLE_HC_B1.V b1 e).putF F.FLE_HC_B2.V b2 e

theorem hcGo_plain (hcanon : c.flag F.FLE_HC_CTRL.CANON e = false) : ∃ b1 b2, c.hcGo e =
    hashWritten c e (c.h1Of (c.getBytes (F.FLE_HC_KEY.V.addr e 0) 40)) (c.h2Of (c.getBytes (F.FLE_HC_KEY.V.addr e 0) 40)) 0 b1 b2 := by
  rw [Chip.hcGo, hcanon]
  exact ⟨_, _, rfl⟩

section
variable {h1 h2 r b1 b2 : Nat}

theorem getF_hashWritten_h1 : (hashWritten c e h1 h2 r b1 b2).getF F.FLE_HC_H1.V e = h1 % 2 ^ 32 := by
  rw [hashWritten]
  rw [getF_putF_apart (by decide) (apart_base (by rfl) (by decide)), getF_putF_apart (by decide) (apart_base (by rfl) (by decide)),
    getF_putF_apart (by decide) (apart_base (by rfl) (by decide)), getF_putF_apart (by decide) (apart_base (by rfl) (by decide)),
    getF_putF_apart (by decide) (apart_base (by rfl) (by decide)), getF_putF_apart (by decide) (apart_base (by rfl) (by decide)),
    getF_putF_apart (by decide) (apart_base (by rfl) (by decide)), Chip.getF_putF (by decide)]
  rfl

theorem getF_hashWritten_h2 : (hashWritten c e h1 h2 r b1 b2).getF F.FLE_HC_H2.V e = h2 % 2 ^ 32 := by
  rw [hashWritten]
  rw [getF_putF_apart (by decide) (apart_base (by rfl) (by decide)), getF_putF_apart (by decide) (apart_base (by rfl) (by decide)),
    getF_putF_apart (by decide) (apart_base (by rfl) (by decide)), getF_putF_apart (by decide) (apart_base (by rfl) (by decide)),
    getF_putF_apart (by decide) (apart_base (by rfl) (by decide)), getF_putF_apart (by decide) (apart_base (by rfl) (by decide)),
    Chip.getF_putF (by decide)]
  rfl

theorem getF_hashWritten_engine : (hashWritten c e h1 h2 r b1 b2).getF F.FLE_HC_IDX.ENGINE e =
    hEngine h1 % 2 ^ F.FLE_HC_IDX.ENGINE.width := by
  rw [hashWritten]
  rw [getF_putF_apart (by decide) (apart_base (by rfl) (by decide)), getF_putF_apart (by decide) (apart_base (by rfl) (by decide)),
    Chip.getF_putF (by decide)]

theorem getF_hashWritten_slot : (hashWritten c e h1 h2 r b1 b2).getF F.FLE_HC_IDX.SLOT e =
    hSlot h1 % 2 ^ F.FLE_HC_IDX.SLOT.width := by
  rw [hashWritten]
  rw [getF_putF_apart (by decide) (apart_base (by rfl) (by decide)), getF_putF_apart (by decide) (apart_base (by rfl) (by decide)),
    getF_putF_apart (by decide) (.inr (by decide)), Chip.getF_putF (by decide)]

end

/-! ### The meters -/

/-- A refresh of the engine's meters leaves those of the other engines. -/
theorem meterRefresh_others {k : Nat} (hk : k / 4096 ≠ e) :
    smGet (fun _ => zerosB 48) (c.meterRefresh e).flow.meters k = smGet (fun _ => zerosB 48) c.flow.meters k := by
  rw [Chip.meterRefresh]
  refine List.foldlRecOn (motive := fun ms => smGet (fun _ => zerosB 48) ms k = smGet (fun _ => zerosB 48) c.flow.meters k) _ _
    rfl fun ms hms m hm => ?_
  have hown : m.1 / 4096 = e := of_decide_eq_true (List.mem_filter.mp hm).2
  have hne : m.1 ≠ k := by omega
  rw [smGet_smSet, if_neg hne]
  exact hms

theorem meterRefresh_eng (c : Chip) (e : Nat) : (c.meterRefresh e).flow.eng = c.flow.eng := rfl

end

/-- Settles O36: each op by its kind, the calculator's registers, and the meters of the other engines. -/
theorem flowEngineServesContextsWindowsAndSweeps : Obligations.FlowEngineServesContextsWindowsAndSweeps := by
  unfold Obligations.FlowEngineServesContextsWindowsAndSweeps
  refine ⟨fun s e x o hvin hawake => ⟨fun h hrun => ?_, fun h hrun => ?_, fun h hrun => ?_, fun h hrun => ?_, fun h hrun => ?_⟩,
    fun s e m c p hvin hc hprep => ⟨fun h => ?_, fun h => ?_⟩, fun c e i o hkind => otherHit_read hkind,
    fun c e i o hkind => otherHit_hostRead hkind, fun c e i o hkind => otherHit_insert hkind,
    fun c e i o hkind hmode hkey => otherHit_otherKey hkind hmode hkey,
    fun c e o hkind habsent => tableOp_deleteAbsent hkind habsent, fun s e b x hvin hflow hawake hrun => ?_,
    fun s e b x hvin hflow => ?_, fun s p fr hvin => State.on_vin hvin fun c => (c.replRx p fr).flush,
    fun c e b j o hmode hway hfound => replOp_found hmode hway hfound, fun s e hvin hcanon => ?_, fun s e hvin => ?_⟩
  · exact on_eq (f := fun c => (c.serveReq 2 e x).flush) hvin (congrArg _ (serveReq_takes h hawake hrun))
  · exact on_eq (f := fun c => (c.serveReq 3 e x).flush) hvin (congrArg _ (serveReq_takes h hawake hrun))
  · exact on_eq (f := fun c => (c.serveReq 5 e x).flush) hvin (congrArg _ (serveReq_takes h hawake hrun))
  · exact on_eq (f := fun c => (c.serveReq 6 e x).flush) hvin (congrArg _ (serveReq_takes h hawake hrun))
  · exact on_eq (f := fun c => (c.serveReq 7 e x).flush) hvin (congrArg _ (serveReq_takes h hawake hrun))
  · exact on_eq (f := fun c => (c.serveMsg true e).flush) hvin
      (congrArg _ ((serveMsg_takes hc hprep h).trans (if_pos rfl)))
  · exact on_eq (f := fun c => (c.serveMsg false e).flush) hvin
      (congrArg _ ((serveMsg_takes hc hprep h).trans (if_neg nofun)))
  · change execSweepOp e b x s = _
    rw [execSweepOp, State.on_vin hvin, hflow, hawake, hrun, if_neg nofun]
  · change execSweepOp e b x s = _
    rw [execSweepOp, State.on_vin hvin, hflow, if_pos (by rfl)]
  · obtain ⟨b1, b2, hgo⟩ := hcGo_plain hcanon
    refine ⟨⟨s.chip.hcGo e, s.pending⟩, _, rfl, State.on_vin hvin (·.hcGo e), ?_, ?_, ?_, ?_, (within_hcGo ..).flow_eq,
      (within_hcGo ..).dram_eq⟩
    · rw [hgo, getF_hashWritten_h1]
    · rw [hgo, getF_hashWritten_h2]
    · rw [hgo, getF_hashWritten_engine]
    · rw [hgo, getF_hashWritten_slot]
  · have h := within_meterRefresh s.chip e
    exact ⟨⟨s.chip.meterRefresh e, s.pending⟩, State.on_vin hvin (·.meterRefresh e), h.regs_eq, h.dram_eq, h.pkts_eq,
      meterRefresh_eng .., fun k hk => meterRefresh_others hk⟩

end Sys2Proof.Proofs
end

section
/-!
The ALU units: O37. A unit runs an op where the routine runs, its word gives the unit the op and the unit has not run; its results
stand in the word's progress.
-/
namespace Sys2Proof.Proofs
open Sys2Proof Sys2Proof.Machine
set_option Elab.async false

section
variable {c : Chip} {x u op : Nat} {v v' : Machine.Ctx} {w : Mw} {ws ws' : WordSt} {f : Machine.Ctx → Mw → WordSt → UOut}

/-! ### A unit that runs -/

/-- A word in progress issues again without a change. -/
theorem issue_again (hword : (c.ctx x).word = some ws) : c.issue x = (c, true) := by
  rw [Chip.issue, hword]
  exact if_pos rfl

theorem unitAt_runUnit (h : c.unitAt x u op v w ws) : c.runUnit x u op f = match f v w ws with
    | .ok v ws => c.unitRan x u v ws
    | .wait => c
    | .abort code => c.endCtx x 1 code := by
  obtain ⟨rfl, rfl, hst, hword, hop, hnot⟩ := h
  rw [Chip.runUnit, if_neg (by simp [hst, hop]), issue_again hword]
  dsimp only
  rw [hword]
  dsimp only
  rw [hnot]
  cases f (c.ctx x) (c.mwAt (x / 64) (c.ctx x).pc) ws <;> exact if_neg nofun

theorem runUnit_ok (h : c.unitAt x u op v w ws) (hf : f v w ws = .ok v' ws') : c.runUnit x u op f = c.unitRan x u v' ws' := by
  rw [unitAt_runUnit h, hf]

theorem runUnit_abort {code : Nat} (h : c.unitAt x u op v w ws) (hf : f v w ws = .abort code) :
    c.runUnit x u op f = c.endCtx x 1 code := by
  rw [unitAt_runUnit h, hf]

theorem runUnit_stopped (hst : (c.ctx x).st ≠ 1) : c.runUnit x u op f = c := by
  rw [Chip.runUnit]
  exact if_pos (.inl hst)

/-! ### The ALU -/

section
variable {b : Bool}

/-- An op that writes its destination: result and flags in the word's progress. -/
theorem aluUnit_writes {r : BitVec 64} {carry : Bool} (h : c.unitAt x (b2n b) op v w ws) (hload : op ≠ 14)
    (hwrites : aluWrites op = true)
    (hres : aluResult op (v.opA w b) (v.opB w b) (v.reg (aDst (mwAlu w b))) = (r, carry)) :
    c.aluUnit x op b = c.unitRan x (b2n b) v (ws.alu w b r carry) := by
  rw [Machine.Ctx.opA, Machine.Ctx.opB] at hres
  rw [Chip.aluUnit]
  refine runUnit_ok h ?_
  dsimp only
  rw [hres, if_neg hload, hwrites, if_pos rfl]
  rfl

/-- CMP sets the flags alone. -/
theorem aluUnit_cmp (h : c.unitAt x (b2n b) 9 v w ws) : c.aluUnit x 9 b = c.unitRan x (b2n b) v { ws with
    flags := ws.flags.alu b (v.opA w b - v.opB w b) (decide ((v.opA w b).toNat < (v.opB w b).toNat)) } :=
  runUnit_ok h rfl

/-- LDLC loads the loop counter. -/
theorem aluUnit_ldlc (h : c.unitAt x (b2n b) 14 v w ws) : c.aluUnit x 14 b = c.unitRan x (b2n b) v { ws with
    flags := ws.flags.alu b (v.opB w b) false, lc := BitVec.ofNat 16 (v.opB w b).toNat } :=
  runUnit_ok h rfl

end

end

/-- Settles O37: each op by its result, and the flags of the unit. -/
theorem aluOpsComputeTheirResults : Obligations.AluOpsComputeTheirResults := by
  unfold Obligations.AluOpsComputeTheirResults
  refine ⟨fun s x b v w ws hvin => ?_, fun s x b _ hst => ?_, fun f r k => ⟨rfl, rfl, rfl, rfl, rfl, rfl, rfl⟩⟩
  · have writes {op : Nat} {r : BitVec 64} {carry : Bool} (h : s.chip.unitAt x (b2n b) op v w ws) (hload : op ≠ 14)
        (hwrites : aluWrites op = true)
        (hres : aluResult op (v.opA w b) (v.opB w b) (v.reg (aDst (mwAlu w b))) = (r, carry)) :
        s.on (·.aluUnit x op b) = .next ⟨s.chip.unitRan x (b2n b) v (ws.alu w b r carry), s.pending⟩ :=
      on_eq (f := (·.aluUnit x op b)) hvin (aluUnit_writes h hload hwrites hres)
    exact ⟨fun h => writes h (by decide) rfl rfl, fun h => writes h (by decide) rfl rfl, fun h => writes h (by decide) rfl rfl,
      fun h => writes h (by decide) rfl rfl, fun h => writes h (by decide) rfl rfl, fun h => writes h (by decide) rfl rfl,
      fun h => writes h (by decide) rfl rfl, fun h => writes h (by decide) rfl rfl,
      fun h => on_eq (f := (·.aluUnit x 9 b)) hvin (aluUnit_cmp h), fun h => writes h (by decide) rfl rfl,
      fun h => writes h (by decide) rfl rfl, fun h => writes h (by decide) rfl rfl,
      fun h hb => writes h (by decide) rfl (if_neg hb), fun h hb => writes h (by decide) rfl (if_pos hb),
      fun h => on_eq (f := (·.aluUnit x 14 b)) hvin (aluUnit_ldlc h), fun h => writes h (by decide) rfl rfl⟩
  · have stopped (op : Nat) : s.on (·.aluUnit x op b) = .next s := on_self (f := (·.aluUnit x op b)) (runUnit_stopped hst)
    exact ⟨stopped 1, stopped 13, stopped 14, stopped 11⟩

end Sys2Proof.Proofs
end

section
/-!
The MEM unit: O38. Its ops on scratch wait for the ranges they touch; reads of DRAM, records and counters are staged in the routine's
context.
-/
namespace Sys2Proof.Proofs
open Sys2Proof Sys2Proof.Machine
set_option Elab.async false

section
variable {c : Chip} {x u op : Nat} {v : Machine.Ctx} {w : Mw} {ws : WordSt}

theorem afterTouch_free {rs : List (Nat × Nat)} {k : UOut} (h : v.touch rs = 0) : afterTouch v rs k = k := by
  rw [afterTouch, h]
  rfl

/-! ### Scratch and constants -/

section
variable {a n : Nat} (hrange : v.memRange w = (a, n))
include hrange

theorem sld_loads (h : c.unitAt x 2 1 v w ws) (hfree : v.touch [(a, n)] = 0) (hin : a + n ≤ 4096) :
    c.sld x = c.unitRan x 2 v ((List.range (mwRegs w)).foldl
      (fun (ws : WordSt) i => ws.reg (mwRd w + i) (w64 (beNat (v.sread (a + 8 * i) 8)))) ws) := by
  rw [Chip.sld]
  refine runUnit_ok h ?_
  rw [hrange]
  exact (if_neg (by omega)).trans (afterTouch_free hfree)

theorem sst_stores (h : c.unitAt x 2 2 v w ws) (hfree : v.touch [(a, n)] = 0) (hin : a + n ≤ 4096) :
    c.sst x = c.unitRan x 2 v (ws.put a (c.sstBytes v w)) := by
  rw [Chip.sst]
  refine runUnit_ok h ?_
  rw [hrange]
  exact (if_neg (by omega)).trans (afterTouch_free hfree)

theorem sld_outside (h : c.unitAt x 2 1 v w ws) (hout : 4096 < a + n) : c.sld x = c.endCtx x 1 abMem := by
  rw [Chip.sld]
  refine runUnit_abort h ?_
  rw [hrange]
  exact if_pos hout

theorem sst_outside (h : c.unitAt x 2 2 v w ws) (hout : 4096 < a + n) : c.sst x = c.endCtx x 1 abMem := by
  rw [Chip.sst]
  refine runUnit_abort h ?_
  rw [hrange]
  exact if_pos hout

end

/-- CPY of `n` bytes by descriptor `d`. -/
theorem cpy_copies {d n : Nat} (h : c.unitAt x 2 3 v w ws) (hd : d = (v.reg (mwRa w)).toNat) (hn : n = bitsOf 30 24 d)
    (hpos : 1 ≤ n) (hmax : n ≤ 64) (hdst : d % 4096 + n ≤ 4096) (hsrc : bitsOf 23 12 d + n ≤ 4096)
    (hfree : v.touch [(d % 4096, n), (bitsOf 23 12 d, n)] = 0) :
    c.cpy x = c.unitRan x 2 v (ws.put (d % 4096) (v.sread (bitsOf 23 12 d) n)) := by
  rw [Chip.cpy]
  refine runUnit_ok h ?_
  rw [← hd]
  dsimp only
  rw [← hn, if_neg (by omega : ¬n = 0), if_neg (by omega)]
  exact afterTouch_free hfree

theorem cld_vendor (h : c.unitAt x 2 4 v w ws) (hlow : mwRa w < 32) : c.cld x = c.unitRan x 2 v (ws.reg (mwRd w)
    (w64 (leNat (sliceB (smGet (fun _ => []) c.act.vconst (x / 64)) (8 * mwRa w) 8)))) := by
  rw [Chip.cld]
  refine runUnit_ok h ?_
  dsimp only
  rw [if_pos hlow]

/-! ### Records -/

/-- RD of a record that the device itself owns: its engine is asked, and the word waits. -/
theorem rdUnit_asks {o : FOp} (h : c.unitAt x 2 5 v w ws) (hrd : v.rd = none) (hfree : v.touch [(v.memAddr w, 128)] = 0)
    (ho : o = coreOp 2 x 0 (v.sread (v.memAddr w) 40) ((v.reg (mwRd w)).toNat % 2 ^ 32) ((v.reg (mwRd w)).toNat / 2 ^ 32) 0 0 []
      c.mt) (howner : c.ownerOf o.h1 = some c.ownDevice) (hrun : c.engineHeld (hEngine o.h1) = false) :
    c.rdUnit x = { (c.setCtx x { v with rd := some ⟨o, c.ownDevice, 0, 1, 1⟩ }) with
      act := { (c.setCtx x { v with rd := some ⟨o, c.ownDevice, 0, 1, 1⟩ }).act with reqs := c.act.reqs ++ [o] } } := by
  obtain ⟨rfl, rfl, hst, hword, hop, hnot⟩ := h
  have hmem : mwMemOp (c.mwAt (x / 64) (c.ctx x).pc) = 5 := hop
  rw [Chip.rdUnit, if_neg (by simp [hst, hmem, hrd]), issue_again hword]
  dsimp only
  rw [hword]
  dsimp only
  refine (if_neg (by rw [hnot]; nofun)).trans ?_
  rw [hfree, ← ho, howner]
  refine (if_pos rfl).trans ((if_neg (by rw [hrun]; nofun)).trans ?_)
  rfl

/-- The answer finds no record: the word's flags say so. -/
theorem rdAnswer_absent {e : CEnt} {a : FAnswer} (hrd : (c.ctx x).rd = some e) (hword : (c.ctx x).word = some ws)
    (hfind : c.flow.answers.find? (fun (a : FAnswer) => a.op == e.op) = some a) (hcode : a.code = 3) :
    c.rdAnswer x = (c.onFlow fun f => { f with answers := f.answers.erase a }).setCtx x { c.ctx x with
      rd := none, word := some { ws with flags := ws.flags.mem false true, done := ws.done ++ [2] } } := by
  rw [Chip.rdAnswer, hrd, hword]
  dsimp only
  rw [hfind]
  dsimp only
  rw [hcode]
  rfl

/-- WREC of a full record that the device itself owns, into an empty write set. -/
theorem wrec_first {key : Bytes} {hs : Nat} (h : c.unitAt x 2 6 v w ws) (hsize : mwSz w = 0) (hin : v.memAddr w + 128 ≤ 4096)
    (hfree : v.touch [(v.memAddr w, 40)] = 0) (hkey : key = v.sread (v.memAddr w) 40) (hhs : hs = (v.reg (mwRd w)).toNat)
    (howner : c.ownerOf (hs % 2 ^ 32) = some c.ownDevice) (hnone : v.ents = []) :
    c.wrec x = c.unitRan x 2 { v with ents := [⟨1, key, hs % 2 ^ 32, hs / 2 ^ 32, v.memAddr w, 128, 0⟩] } ws := by
  rw [Chip.wrec]
  refine runUnit_ok h ?_
  dsimp only
  rw [hsize, if_neg (by decide : ¬0 + 1 = 3), if_neg (by omega), afterTouch_free hfree, if_neg (by simp), ← hhs]
  refine (if_neg (by rw [howner]; simp)).trans ?_
  rw [hnone, if_neg nofun, if_neg (by decide), hkey]
  rfl

/-! ### Device DRAM -/

section
variable {d a : Nat} (hd : d = (v.reg (mwRd w)).toNat) (ha : a = (v.reg (mwRa w)).toNat)
  (hmay : c.routineMay v a (bitsOf 28 16 d) = true)
include hd ha hmay

section
variable (hpos : 1 ≤ bitsOf 28 16 d) (hmax : bitsOf 28 16 d ≤ 4096)
include hpos hmax

theorem drdUnit_reads (h : c.unitAt x 2 7 v w ws) : c.drdUnit x false = c.unitRan x 2 { v with
    fills := v.fills ++ [⟨a, d % 4096, bitsOf 28 16 d, false⟩] } ws := by
  have hat := h
  obtain ⟨hv, hw, -⟩ := hat
  rw [Chip.drdUnit, ← hv, ← hw, ← hd, ← ha, hmay]
  simp only [Bool.not_true, Bool.and_false, Bool.false_and, Bool.false_eq_true, if_false]
  refine runUnit_ok h ?_
  refine (if_neg (by omega)).trans ((if_neg (by rw [hmay]; simp; omega)).trans (if_pos rfl))

theorem drdUnit_watches (h : c.unitAt x 2 8 v w ws) (hnone : v.watch = []) (hfew : (linesOf a (bitsOf 28 16 d)).length ≤ 64) :
    c.drdUnit x true = c.unitRan x 2 { v with
      fills := v.fills ++ [⟨a, d % 4096, bitsOf 28 16 d, false⟩], watch := linesOf a (bitsOf 28 16 d) } ws := by
  have hat := h
  obtain ⟨hv, hw, -⟩ := hat
  rw [Chip.drdUnit, ← hv, ← hw, ← hd, ← ha, hmay]
  simp only [Bool.not_true, Bool.and_false, Bool.false_and, Bool.false_eq_true, if_false]
  refine runUnit_ok h ?_
  refine (if_neg (by omega)).trans ((if_neg (by rw [hmay]; simp; omega)).trans ?_)
  rw [hnone, List.nil_append, List.filter_eq_self.mpr (by simp)]
  exact if_neg (by omega)

end

theorem dwrUnit_stages (hlow : 8 ≤ bitsOf 28 16 d) (hhigh : bitsOf 28 16 d ≤ 64) (hline : a % 64 + bitsOf 28 16 d ≤ 64)
    (hroom : v.ents.length < 8) (h : c.unitAt x 2 10 v w ws) :
    c.dwrUnit x = c.unitRan x 2 { v with ents := v.ents ++ [⟨0, [], 0, 0, d % 4096, bitsOf 28 16 d, a⟩] } ws := by
  have hat := h
  obtain ⟨hv, hw, -⟩ := hat
  rw [Chip.dwrUnit, ← hv, ← hw, ← hd, ← ha, hmay]
  simp only [Bool.not_true, Bool.and_false, Bool.false_and, Bool.false_eq_true, if_false]
  refine runUnit_ok h ?_
  exact (if_neg (by rw [hmay]; simp; omega)).trans (if_neg (by omega))

end

theorem drdArrived_data {f : Fill} (hfirst : (c.ctx x).fills.find? (fun (f : Fill) => !f.bad) = some f)
    (hbusy : (c.ctx x).free = false) : c.drdArrived x false = c.onCtx x fun v => { v with
      fills := v.fills.erase f, scratch := putScratch v.scratch f.addr (c.dramRead f.dram f.len) } := by
  rw [Chip.drdArrived, hfirst]
  dsimp only
  rw [hbusy, if_neg nofun, if_neg nofun, Chip.onCtx]

theorem wkeep_keeps (h : c.unitAt x 2 9 v w ws) : c.wkeep x = c.unitRan x 2 { v with
    watch := v.watch.filter (· == (v.reg (mwRa w)).toNat / 64)
    broken := v.broken.filter (· == (v.reg (mwRa w)).toNat / 64) } ws :=
  runUnit_ok h rfl

theorem cadd_stages (h : c.unitAt x 2 11 v w ws) (hroom : v.deltas.length < 16) : c.cadd x = c.unitRan x 2 { v with
    deltas := v.deltas ++ [((v.reg (mwRa w)).toNat % 1024, mwImm w)] } ws :=
  runUnit_ok h (if_neg (by omega))

theorem cadd_full (h : c.unitAt x 2 11 v w ws) (hfull : 16 ≤ v.deltas.length) : c.cadd x = c.endCtx x 1 abFull :=
  runUnit_abort h (if_pos hfull)

theorem breakWatch_others {own : Option Nat} {a n k : Nat} (hown : own ≠ some k) (hctx : (k, v) ∈ c.act.ctxs) :
    (k, { v with broken := v.broken ++ (linesOf a n).filter (fun l => v.watch.contains l && !v.broken.contains l) }) ∈
      (c.breakWatch own a n).act.ctxs :=
  List.mem_map.mpr ⟨(k, v), hctx, if_neg hown⟩

end

/-- Settles O38: each op of the MEM unit. -/
theorem memOpsReachScratchDramAndTheWriteSet : Obligations.MemOpsReachScratchDramAndTheWriteSet := by
  unfold Obligations.MemOpsReachScratchDramAndTheWriteSet
  refine ⟨fun s x v w ws a n hvin hrange hfree => ⟨fun h hin => ?_, fun h hin => ?_, fun h hout => ?_, fun h hout => ?_⟩,
    fun s x v w ws d n hvin h hd hn hpos hmax hdst hsrc hfree => on_eq (f := (·.cpy x)) hvin
      (cpy_copies h hd hn hpos hmax hdst hsrc hfree),
    fun s x v w ws hvin h hlow => on_eq (f := (·.cld x)) hvin (cld_vendor h hlow),
    fun s x v w ws o hvin h hrd hfree ho howner hrun => ?_,
    fun s x v ws e a hvin hv hrd hword hfind hcode => ?_,
    fun s x v w ws key hs hvin h hsize hin hfree hkey hhs howner hnone => on_eq (f := (·.wrec x)) hvin
      (wrec_first h hsize hin hfree hkey hhs howner hnone),
    fun s x v w ws d a hvin hd ha hpos hmax hmay => ⟨fun h => ?_, fun h hnone hfew => ?_⟩,
    fun s x v w ws d a hvin h hd ha hlow hhigh hline hmay hroom => on_eq (f := (·.dwrUnit x)) hvin
      (dwrUnit_stages hd ha hmay hlow hhigh hline hroom h),
    fun s x f hvin hfirst hbusy => on_eq (f := (·.drdArrived x false)) hvin (drdArrived_data hfirst hbusy),
    fun s x v w ws hvin h => on_eq (f := (·.wkeep x)) hvin (wkeep_keeps h),
    fun s x v w ws hvin h => ⟨fun hroom => on_eq (f := (·.cadd x)) hvin (cadd_stages h hroom),
      fun hfull => on_eq (f := (·.cadd x)) hvin (cadd_full h hfull)⟩,
    fun c own a n k v hown hctx => breakWatch_others hown hctx⟩
  · exact on_eq (f := (·.sld x)) hvin (sld_loads hrange h hfree hin)
  · exact on_eq (f := (·.sst x)) hvin (sst_stores hrange h hfree hin)
  · exact on_eq (f := (·.sld x)) hvin (sld_outside hrange h hout)
  · exact on_eq (f := (·.sst x)) hvin (sst_outside hrange h hout)
  · have hasks := rdUnit_asks h hrd hfree ho howner hrun
    refine ⟨⟨s.chip.rdUnit x, s.pending⟩, State.on_vin hvin (·.rdUnit x), ?_, ?_, ?_, ?_⟩
    · rw [hasks]
    · rw [hasks]
      exact (congrArg Ctx.rd (Chip.ctx_setCtx ..)).trans (by rw [if_pos rfl])
    · rw [hasks]
      rfl
    · rw [hasks]
      rfl
  · subst hv
    exact on_eq (f := (·.rdAnswer x)) hvin (rdAnswer_absent hrd hword hfind hcode)
  · exact on_eq (f := (·.drdUnit x false)) hvin (drdUnit_reads hd ha hmay hpos hmax h)
  · exact on_eq (f := (·.drdUnit x true)) hvin (drdUnit_watches hd ha hmay hpos hmax h hnone hfew)

end Sys2Proof.Proofs
end

section
/-!
The KEY, CRC, EMIT and TIM units: O39. An op waits for the scratch ranges it touches; its results stand in the word's progress.
-/
namespace Sys2Proof.Proofs
open Sys2Proof Sys2Proof.Machine
set_option Elab.async false

section
variable {c : Chip} {x op : Nat} {v : Machine.Ctx} {w : Mw} {ws : WordSt}

/-! ### KEY -/

theorem kHash_ran {a : Nat} (h : c.unitAt x 3 1 v w ws) (ha : a = (v.reg (mwKr w)).toNat % 4096)
    (hfree : v.touch [(a, 40)] = 0) :
    c.kHash x = c.unitRan x 3 v (ws.reg (mwKr w + 1) (c.hashes (v.sread a 40))) := by
  subst ha
  rw [Chip.kHash]
  exact runUnit_ok h (afterTouch_free hfree)

theorem kCanon_ran {a : Nat} (h : c.unitAt x 3 2 v w ws) (ha : a = (v.reg (mwKr w)).toNat % 4096)
    (hfree : v.touch [(a, 40)] = 0) :
    c.kCanon x = c.unitRan x 3 v (c.canonAt ws (mwKr w) a (v.sread a 40)) := by
  subst ha
  rw [Chip.kCanon]
  exact runUnit_ok h (afterTouch_free hfree)

/-- The word after NATS on entry `e`: the start `st`, the map entries and the ranges in the registers, the endpoints in scratch. -/
def natsWord (ws : WordSt) (e : Bytes) (kr slot wa pa st : Nat) (block : Bytes) : WordSt :=
  (((((ws.put pa block).reg (kr + 1) (w64 (st + npProbes e * 2 ^ 32))).reg (kr + 2) (w64 (npMap e slot st))).reg (kr + 3)
    (w64 (wa + 32 * min (npProbes e) (npN e - st) * 2 ^ 16))).reg (kr + 4) (w64 (npMap e slot 0))).reg (kr + 5)
    (w64 ((wa + 32 * min (npProbes e) (npN e - st)) % 4096 + 32 * (npProbes e - min (npProbes e) (npN e - st)) * 2 ^ 16))

theorem natsWord_regs {e : Bytes} {kr slot wa pa st : Nat} {block : Bytes} :
    (natsWord ws e kr slot wa pa st block).regs = ws.regs ++ [(kr + 1, w64 (st + npProbes e * 2 ^ 32))] ++
      [(kr + 2, w64 (npMap e slot st))] ++ [(kr + 3, w64 (wa + 32 * min (npProbes e) (npN e - st) * 2 ^ 16))] ++
      [(kr + 4, w64 (npMap e slot 0))] ++ [(kr + 5, w64 ((wa + 32 * min (npProbes e) (npN e - st)) % 4096 +
        32 * (npProbes e - min (npProbes e) (npN e - st)) * 2 ^ 16))] :=
  rfl

section
variable {d : Nat} (hd : d = (v.reg (mwKr w)).toNat)
include hd

theorem kCrcs_ran {n : Nat} (h : c.unitAt x 3 3 v w ws) (hn : n = bitsOf 22 16 d) (hfree : v.touch [(d % 4096, n)] = 0) :
    c.kCrcs x = c.unitRan x 3 v (ws.reg (mwKr w + 1) (w64 (crc32c (d / 2 ^ 32) (v.sread (d % 4096) n)))) := by
  subst hd hn
  rw [Chip.kCrcs]
  exact runUnit_ok h (afterTouch_free hfree)

theorem kCmp_ran {n : Nat} (h : c.unitAt x 3 4 v w ws) (hn : n = bitsOf 30 24 d) (hpos : n ≠ 0)
    (hfree : v.touch [(d % 4096, n), (bitsOf 23 12 d, n)] = 0) : c.kCmp x = c.unitRan x 3 v { ws with flags := { ws.flags with
      keyMatch := v.sread (d % 4096) n == v.sread (bitsOf 23 12 d) n } } := by
  rw [Chip.kCmp]
  refine runUnit_ok h ?_
  rw [← hd]
  dsimp only
  rw [← hn, if_neg hpos]
  exact afterTouch_free hfree

/-- A protocol without a slot finds no pool. -/
theorem kPoolp_none (h : c.unitAt x 3 5 v w ws) (hslot : npSlot (bitsOf 31 24 d) = none) :
    c.kPoolp x = c.unitRan x 3 v { ws.reg (mwKr w + 1) 0 with flags := { ws.flags with keyPool := false } } := by
  rw [Chip.kPoolp]
  refine runUnit_ok h ?_
  rw [← hd]
  dsimp only
  rw [hslot]

/-- Where no entry may give addresses, no entry holds one. -/
theorem kPoola_none (h : c.unitAt x 3 6 v w ws) (hfree : v.touch [(bitsOf 27 16 d, 40)] = 0)
    (hno : ∀ i, i < 256 → npOk (c.natPool i) = false) :
    c.kPoola x = c.unitRan x 3 v { ws.reg (mwKr w + 1) 0 with flags := { ws.flags with keyPool := false } } := by
  rw [Chip.kPoola]
  refine runUnit_ok h ?_
  rw [← hd]
  refine (afterTouch_free hfree).trans ?_
  rcases endpoint (v.sread (bitsOf 27 16 d) 40) (bitsOf 12 12 d) true with ⟨ad, po⟩
  dsimp only
  rw [List.find?_eq_none.mpr fun i hi => by rw [hno i (List.mem_range.mp hi)]; nofun]

theorem kNats_ran (h : c.unitAt x 3 7 v w ws) (hfree : v.touch [(bitsOf 27 16 d, 40), (bitsOf 39 28 d, 42)] = 0)
    (hpool : npN (c.natPool (d % 256)) ≠ 0) : ∃ block, c.kNats x = c.unitRan x 3 v (natsWord ws (c.natPool (d % 256)) (mwKr w)
      (bitsOf 9 8 d) (bitsOf 51 40 d) (bitsOf 39 28 d) (natStart (c.natPool (d % 256)) (bitsOf 9 8 d)
        (sliceB (v.sread (bitsOf 27 16 d) 40) 37 3) (endpoint (v.sread (bitsOf 27 16 d) 40) (bitsOf 12 12 d) false).1
        (endpoint (v.sread (bitsOf 27 16 d) 40) (bitsOf 12 12 d) false).2) block) := by
  rw [Chip.kNats]
  refine ⟨(endpoint (v.sread (bitsOf 27 16 d) 40) (bitsOf 12 12 d) false).1 ++
    (endpoint (v.sread (bitsOf 27 16 d) 40) (bitsOf 12 12 d) false).2 ++ sliceB (v.sread (bitsOf 27 16 d) 40) 37 3 ++ [1, 0, 0] ++
    (endpoint (v.sread (bitsOf 27 16 d) 40) (bitsOf 12 12 d) true).1 ++
    (endpoint (v.sread (bitsOf 27 16 d) 40) (bitsOf 12 12 d) true).2, runUnit_ok h ?_⟩
  rw [← hd]
  refine (afterTouch_free hfree).trans ?_
  dsimp only
  rw [if_neg hpool]
  rfl

theorem kNatx_ran {e : Bytes} (h : c.unitAt x 3 8 v w ws) (he : e = c.natPool (d % 256))
    (hfree : v.touch [(bitsOf 27 16 d, 18)] = 0) : c.kNatx x = c.unitRan x 3 v ((ws.put (bitsOf 27 16 d)
      (natBe 16 (beAt e 8 16 + d / 2 ^ 32 / npPc e) ++ natBe 2 (beAt e 4 2 + d / 2 ^ 32 % npPc e))).reg (mwKr w + 1)
      (w64 (npMap e (bitsOf 9 8 d) (d / 2 ^ 32)))) := by
  subst hd he
  rw [Chip.kNatx]
  exact runUnit_ok h (afterTouch_free hfree)

theorem kBld_ran (h : c.unitAt x 3 9 v w ws)
    (hfree : v.touch [(d % 4096, 40), (bitsOf 23 12 d, 18), (bitsOf 35 24 d, 18), (bitsOf 47 36 d, 4)] = 0) :
    c.kBld x = c.unitRan x 3 v (c.canonAt ws (mwKr w) (d % 4096) (v.sread (bitsOf 23 12 d) 16 ++
      v.sread (bitsOf 35 24 d) 16 ++ v.sread (bitsOf 23 12 d + 16) 2 ++ v.sread (bitsOf 35 24 d + 16) 2 ++
      v.sread (bitsOf 47 36 d) 4)) := by
  subst hd
  rw [Chip.kBld]
  exact runUnit_ok h (afterTouch_free hfree)

end

theorem kTplr_ran {t : Bytes} (h : c.unitAt x 3 10 v w ws) (ht : t = c.tpl ((v.reg (mwKr w)).toNat % 64)) :
    c.kTplr x = c.unitRan x 3 v ((ws.reg (mwKr w + 1) (w64 ((b2n (tpPinNew t) * 2 ^ 14 + tpAgeNew t) * 2 ^ 48))).reg
      (mwKr w + 2) (w64 (b2n (tpExportNew t) * 2 ^ 53))) := by
  subst ht
  rw [Chip.kTplr]
  exact runUnit_ok h rfl

/-! ### CRC -/

theorem crcInit_ran (h : c.unitAt x 4 1 v w ws) : c.crcInit x = c.unitRan x 4 v { ws with
    run := if mwSeed w then BitVec.ofNat 32 (v.reg (mwRa w)).toNat else BitVec.ofNat 32 (polyOf (mwPoly w)).init } := by
  rw [Chip.crcInit]
  exact runUnit_ok h rfl

theorem crcFeed_ran (h : c.unitAt x 4 2 v w ws) (hload : mwMemOp w = 1) (hin : (v.memRange w).1 + (v.memRange w).2 ≤ 4096)
    (hfree : v.touch [v.memRange w] = 0) : c.crcFeed x = c.unitRan x 4 v { ws with
      run := BitVec.ofNat 32 (cvRun (polyOf (mwPoly w)) v.run.toNat (v.sread (v.memRange w).1 (v.memRange w).2)) } := by
  rw [Chip.crcFeed]
  refine runUnit_ok h ?_
  revert hin hfree
  rcases v.memRange w with ⟨a, n⟩
  intro hin hfree
  refine (if_neg (Nat.not_lt.mpr hin)).trans ((afterTouch_free hfree).trans ?_)
  rw [hload]
  rfl

theorem crcOut_ran (h : c.unitAt x 4 3 v w ws) :
    c.crcOut x = c.unitRan x 4 v (ws.reg (mwRd w) (w64 (cvFinal (polyOf (mwPoly w)) v.run.toNat))) := by
  rw [Chip.crcOut]
  exact runUnit_ok h rfl

/-! ### EMIT and TIM -/

theorem emitUnit_stages {d : Nat} (h : c.unitAt x 5 op v w ws) (hd : d = (v.reg (mwEr w)).toNat)
    (hlen : emitLenOk op (bitsOf 28 16 d) = true) (hroom : v.emits.length < 4)
    (hpol : bitOf op (c.polByte (if v.isOpen then 0x217 else 0x216)).toNat = true) :
    c.emitUnit x op = c.unitRan x 5 { v with
      emits := v.emits ++ [⟨op, d % 4096, bitsOf 28 16 d, bitsOf 40 32 d, mwQsel w⟩] } ws := by
  have hat := h
  obtain ⟨hv, hw, -⟩ := hat
  rw [Chip.emitUnit, ← hv, hpol]
  simp only [Bool.not_true, Bool.false_and, Bool.false_eq_true, if_false]
  refine runUnit_ok h ?_
  rw [← hd, hlen]
  exact (if_neg nofun).trans (if_neg (by omega))

theorem timAfter_ran (h : c.unitAt x 6 4 v w ws) : c.timAfter x = c.unitRan x 6 v { ws with
    flags := { ws.flags with timeAfter := dtwAfter c.dtw (v.reg (aSa (mwAlu w true))).toNat } } := by
  rw [Chip.timAfter]
  exact runUnit_ok h rfl

end

/-- Settles O39: each op of the four units. -/
theorem keyCrcEmitAndTimeOps : Obligations.KeyCrcEmitAndTimeOps := by
  unfold Obligations.KeyCrcEmitAndTimeOps
  refine ⟨fun s x v w ws a hvin ha hfree => ⟨fun h => on_eq (f := (·.kHash x)) hvin (kHash_ran h ha hfree),
      fun h => on_eq (f := (·.kCanon x)) hvin (kCanon_ran h ha hfree)⟩,
    fun s x v w ws d n hvin h hd hn hfree => on_eq (f := (·.kCrcs x)) hvin (kCrcs_ran hd h hn hfree),
    fun s x v w ws d n hvin h hd hn hpos hfree => on_eq (f := (·.kCmp x)) hvin (kCmp_ran hd h hn hpos hfree),
    fun s x v w ws d hvin h hd hslot => on_eq (f := (·.kPoolp x)) hvin (kPoolp_none hd h hslot),
    fun s x v w ws d hvin h hd hfree hno => on_eq (f := (·.kPoola x)) hvin (kPoola_none hd h hfree hno),
    fun s x v w ws d hvin h hd hfree hpool => ?_,
    fun s x v w ws d e hvin h hd he hfree => on_eq (f := (·.kNatx x)) hvin (kNatx_ran hd h he hfree),
    fun s x v w ws d hvin h hd hfree => on_eq (f := (·.kBld x)) hvin (kBld_ran hd h hfree),
    fun s x v w ws t hvin h ht => on_eq (f := (·.kTplr x)) hvin (kTplr_ran h ht),
    fun s x v w ws hvin => ⟨fun h hseed => ?_, fun h hseed => ?_,
      fun h hload hin hfree => on_eq (f := (·.crcFeed x)) hvin (crcFeed_ran h hload hin hfree),
      fun h => on_eq (f := (·.crcOut x)) hvin (crcOut_ran h)⟩,
    fun s x v w ws d op hvin h hd hlen hroom hpol => ?_,
    fun s x v w ws hvin => ⟨fun h => on_eq (f := (·.timSample x 1)) hvin (runUnit_ok h rfl),
      fun h => on_eq (f := (·.timSample x 2)) hvin (runUnit_ok h rfl),
      fun h => on_eq (f := (·.timSample x 3)) hvin (runUnit_ok h rfl),
      fun h => on_eq (f := (·.timAfter x)) hvin (timAfter_ran h)⟩⟩
  · obtain ⟨block, hran⟩ := kNats_ran hd h hfree hpool
    refine ⟨⟨s.chip.kNats x, s.pending⟩, _, _, State.on_vin hvin (·.kNats x), hran, rfl, ?_, ?_, ?_, rfl⟩
    · rw [natsWord_regs]
      simp
    · rw [natsWord_regs]
      simp
    · rw [natsWord_regs]
      simp
  · exact on_eq (f := (·.crcInit x)) hvin ((crcInit_ran h).trans (by rw [hseed]; rfl))
  · exact on_eq (f := (·.crcInit x)) hvin ((crcInit_ran h).trans (by rw [hseed]; rfl))
  · have hstages := emitUnit_stages h hd hlen hroom hpol
    exact ⟨fun hop => on_eq (f := (·.emitUnit x 1)) hvin (hop ▸ hstages),
      fun hop => on_eq (f := (·.emitUnit x 2)) hvin (hop ▸ hstages),
      fun hop => on_eq (f := (·.emitUnit x 3)) hvin (hop ▸ hstages),
      fun hop => on_eq (f := (·.emitUnit x 4)) hvin (hop ▸ hstages)⟩

end Sys2Proof.Proofs
end

section
/-!
The completion of a word: O40. Once its units have run, a word's results are written and its sequencing says how the routine goes on.
-/
namespace Sys2Proof.Proofs
open Sys2Proof Sys2Proof.Machine
set_option Elab.async false

section
variable {c : Chip} {x nxt : Nat} {v : Machine.Ctx} {w : Mw} {ws : WordSt} {k : Machine.Ctx → Mw → Go}

/-! ### A word that completes -/

theorem wordAt_sequence (h : c.wordAt x nxt v w ws) : c.sequence x nxt 0 k = match k (v.complete ws) w with
    | .next v => c.setCtx x v
    | .stop v st code => (c.setCtx x v).endCtx x st code
    | .commit v tgt => match v.touch v.setRanges with
      | 1 => c
      | 2 => (c.setCtx x v).endCtx x 1 abMem
      | _ => (c.setCtx x v).startCommit x tgt := by
  obtain ⟨rfl, rfl, hst, hword, hnxt, hunits, hmem⟩ := h
  rw [Chip.sequence, if_neg (by simp [hst, hnxt]), issue_again hword]
  dsimp only
  rw [Chip.wordEcc]
  dsimp only
  rw [hword]
  dsimp only
  rw [hunits, if_neg nofun, if_neg (by omega)] <;> rfl

/-- An uncorrectable word ends its routine. -/
theorem wordAt_uncorrectable {ecc : Nat} {d : Chip} (h : c.wordAt x nxt v w ws) (hecc : c.wordEcc x ecc = (d, true)) :
    c.sequence x nxt ecc k = d := by
  obtain ⟨rfl, rfl, hst, hword, hnxt, -⟩ := h
  rw [Chip.sequence, if_neg (by simp [hst, hnxt]), issue_again hword]
  dsimp only
  rw [hecc]

theorem sequence_next {y : Machine.Ctx} (h : c.wordAt x nxt v w ws) (hk : k (v.complete ws) w = .next y) :
    c.sequence x nxt 0 k = c.setCtx x y := by
  rw [wordAt_sequence h, hk]

theorem sequence_stop {y : Machine.Ctx} {st code : Nat} (h : c.wordAt x nxt v w ws)
    (hk : k (v.complete ws) w = .stop y st code) : c.sequence x nxt 0 k = (c.setCtx x y).endCtx x st code := by
  rw [wordAt_sequence h, hk]

theorem sequence_commit {y : Machine.Ctx} {tgt : Nat} (h : c.wordAt x nxt v w ws)
    (hk : k (v.complete ws) w = .commit y tgt) (hfree : y.touch y.setRanges = 0) :
    c.sequence x nxt 0 k = (c.setCtx x y).startCommit x tgt := by
  rw [wordAt_sequence h, hk]
  dsimp only
  rw [hfree]
  rfl

/-! ### How a routine goes on -/

section
variable {y : Machine.Ctx}

theorem goBr_eq : goBr y w = .next { y with pc := if y.holds w then mwTgt w % 0x8000 else (y.pc + 1) % 0x8000 } := by
  rw [goBr]
  cases y.holds w <;> rfl

theorem goCall_room (hcond : y.holds w = true) (hroom : y.stack.length < 8) :
    goCall y w = .next { y with stack := (y.pc + 1) % 0x8000 :: y.stack, pc := mwTgt w % 0x8000 } := by
  rw [goCall, hcond]
  exact (if_neg nofun).trans (if_neg (by omega))

theorem goCall_full (hcond : y.holds w = true) (hfull : 8 ≤ y.stack.length) : goCall y w = .stop y 1 abStack := by
  rw [goCall, hcond]
  exact (if_neg nofun).trans (if_pos hfull)

theorem goRet_empty (hcond : y.holds w = true) (hempty : y.stack = []) : goRet y w = .stop y 1 abStack := by
  rw [goRet, hcond, if_neg nofun, hempty]

theorem goRet_top {a : Nat} {r : List Nat} (hcond : y.holds w = true) (hstack : y.stack = a :: r) :
    goRet y w = .next { y with stack := r, pc := a % 0x8000 } := by
  rw [goRet, hcond, if_neg nofun, hstack]
  rfl

theorem goLoop_eq : goLoop y w = .next { y with
    lc := y.lc - 1, pc := if y.lc - 1 = 0 then (y.pc + 1) % 0x8000 else mwTgt w % 0x8000 } := by
  rw [goLoop]
  dsimp only
  split <;> rfl

theorem goCommit_not (hcond : y.holds w = false) : goCommit y w = .next { y with pc := (y.pc + 1) % 0x8000 } := by
  rw [goCommit, hcond]
  rfl

theorem goCommit_holds (hcond : y.holds w = true) : goCommit y w = .commit y (mwTgt w) := by
  rw [goCommit, hcond]
  rfl

theorem goAbort_not (hcond : y.holds w = false) : goAbort y w = .next { y with pc := (y.pc + 1) % 0x8000 } := by
  rw [goAbort, hcond]
  rfl

theorem goAbort_holds (hcond : y.holds w = true) : goAbort y w = .stop y 1 (mwTgt w % 256) := by
  rw [goAbort, hcond]
  rfl

end

/-! ### The results -/

theorem complete_without_results (hnone : ws.regs = []) : (v.complete ws).g = v.g := by
  rw [Machine.Ctx.complete, hnone]
  rfl

theorem complete_result {r : Nat} {b : BitVec 64} (hone : ws.regs = [(r, b)]) (hr : r ≤ 63) : (v.complete ws).reg r = b := by
  rw [Machine.Ctx.reg, Machine.Ctx.complete, hone]
  dsimp only [List.foldl_cons, List.foldl_nil]
  rw [if_pos hr, smGet_smSet, if_pos rfl]

theorem issue_budget (hword : (c.ctx x).word = none) (hsteps : c.getF F.ACT_STEP_BUDGET.V ≤ (c.ctx x).steps) :
    c.issue x = (c.endCtx x 2 0, false) := by
  rw [Chip.issue, hword, if_neg nofun]
  exact if_pos hsteps

end

/-- Settles O40: how each sequencing command goes on from the completed word. -/
theorem wordsCompleteAndSequence : Obligations.WordsCompleteAndSequence := by
  unfold Obligations.WordsCompleteAndSequence
  refine ⟨fun s x v y w ws hvin hy => ?_, fun s x v w ws hvin h => ⟨?_, ?_⟩, fun v ws hnone => complete_without_results hnone,
    fun v ws r b hone hr => complete_result hone hr, fun c x hword hsteps => issue_budget hword hsteps⟩
  · subst hy
    have seqd {k : Machine.Ctx → Mw → Go} {nxt : Nat} {d : Chip} (h : s.chip.sequence x nxt 0 k = d) :
        s.on (fun c => (c.sequence x nxt 0 k).flush) = .next ⟨d.flush, s.pending⟩ :=
      on_eq (f := fun c => (c.sequence x nxt 0 k).flush) hvin (congrArg _ h)
    exact ⟨fun h => seqd (sequence_next h rfl), fun h => seqd (sequence_next h goBr_eq),
      fun h hc hroom => seqd (sequence_next h (goCall_room hc hroom)),
      fun h hc hfull => seqd (sequence_stop h (goCall_full hc hfull)),
      fun h hc hempty => seqd (sequence_stop h (goRet_empty hc hempty)),
      fun a r h hc hstack => seqd (sequence_next h (goRet_top hc hstack)), fun h => seqd (sequence_next h goLoop_eq),
      fun h hc => seqd (sequence_next h (goCommit_not hc)),
      fun h hc hfree => seqd (sequence_commit h (goCommit_holds hc) hfree),
      fun h hc => seqd (sequence_stop h (goAbort_holds hc)), fun h hc => seqd (sequence_next h (goAbort_not hc))⟩
  · exact on_eq (f := fun c => (c.sequence x 0 2 goSeq).flush) hvin (congrArg _ (wordAt_uncorrectable h rfl))
  · exact on_eq (f := fun c => (c.sequence x 0 3 goSeq).flush) hvin (congrArg _ (wordAt_uncorrectable h rfl))

end Sys2Proof.Proofs
end

section
/-!
Write sets and the ends of routines: O41. A PREP's answer moves its entry on; the oldest waiting write set takes the commit point; an
end drops what the routine staged.
-/
namespace Sys2Proof.Proofs
open Sys2Proof Sys2Proof.Machine
set_option Elab.async false

section
variable {c d : Chip} {x : Nat} {e : CEnt}

/-! ### Preparing and committing -/

/-- The oldest PREP's answer. -/
structure Answered (c d : Chip) (x : Nat) (e : CEnt) (a : FAnswer) : Prop where
  entry : (c.ctx x).commit.find? (fun (e : CEnt) => e.st == 1) = some e
  answer : c.flow.answers.find? (fun (a : FAnswer) => a.op == e.op) = some a
  taken : d = c.onFlow (fun f => { f with answers := f.answers.erase a })

namespace Answered

variable {a : FAnswer} (h : Answered c d x e a)
include h

theorem done (hcode : a.code = 0) : c.prepAnswer x = (d.setEnt x e { e with st := 2 }).nextPrep x := by
  rw [Chip.prepAnswer, h.entry]
  dsimp only
  rw [h.answer]
  dsimp only
  rw [hcode, ← h.taken]
  rfl

theorem busy (hcode : a.code = 7) : c.prepAnswer x = (d.setEnt x e { e with st := 0 }).nextPrep x := by
  rw [Chip.prepAnswer, h.entry]
  dsimp only
  rw [h.answer]
  dsimp only
  rw [hcode, ← h.taken]
  rfl

theorem refused (hcode : a.code = 3) : c.prepAnswer x = (d.setEnt x e { e with st := 0 }).endCtx x 4 3 := by
  rw [Chip.prepAnswer, h.entry]
  dsimp only
  rw [h.answer]
  dsimp only
  rw [hcode, ← h.taken]
  rfl

end Answered

theorem nextPrep_some (hfirst : (c.ctx x).commit.find? (fun (e : CEnt) => e.st == 0) = some e) :
    c.nextPrep x = c.sendPrep x e := by
  rw [Chip.nextPrep, hfirst]

theorem sendPrep_noOwner (howner : c.ownerOf e.op.h1 = none) : c.sendPrep x e = c.endCtx x 1 abOwner := by
  rw [Chip.sendPrep, howner]

theorem retryReserve_none (hnone : c.act.ctxs = []) : c.retryReserve = c := by
  rw [Chip.retryReserve, hnone]
  rfl

theorem commitPoint_none (hnone : c.act.ctxs = []) (hempty : c.act.commitQ = []) : c.commitPoint = c := by
  rw [Chip.commitPoint, retryReserve_none hnone, hempty]

theorem commitPoint_first {r : List Nat} (hq : c.retryReserve.act.commitQ = x :: r) :
    c.commitPoint = c.retryReserve.commitNow x := by
  rw [Chip.commitPoint, hq]

theorem commitNow_broken (hbroken : (c.ctx x).broken ≠ []) : c.commitNow x = ((c.dropSet x).onCtx x fun v => { v with
    st := 1, pc := v.failPc, word := none }).bumpQ 48 F.ACT_CNT_WATCH_FAIL.V (x / 64) := by
  rw [Chip.commitNow]
  exact if_pos (by simpa using hbroken)

/-! ### Ends -/

section
variable (hd : d = c.putF F.ACT_KILL.CONTEXT x)
include hd

theorem killCtx_free (hfree : (c.ctx x).free = true) :
    c.killCtx x = d.putF F.ACT_KILL.RESULT (if (c.ctx x).st = 5 ∧ (c.ctx x).endSt = 0 then 2 else 3) := by
  rw [Chip.killCtx, ← hd]
  exact if_pos hfree

theorem killCtx_running (hrun : (c.ctx x).free = false) : c.killCtx x = (d.endCtx x 1 abKilled).putF F.ACT_KILL.RESULT 1 := by
  rw [Chip.killCtx, ← hd]
  exact if_neg (by rw [hrun]; nofun)

end

theorem endCtx_free {st code : Nat} (hfree : (c.ctx x).free = true) : c.endCtx x st code = c := by
  rw [Chip.endCtx]
  exact if_pos hfree

theorem ctx_onCtx {f : Machine.Ctx → Machine.Ctx} : (c.onCtx x f).ctx x = f (c.ctx x) :=
  (Chip.ctx_setCtx ..).trans (if_pos rfl)

theorem ctx_of_act (h : d.act = c.act) : d.ctx x = c.ctx x := by
  rw [Chip.ctx, Chip.ctx, h]

/-- What the end of a running routine leaves in its context. -/
structure Ended (v : Machine.Ctx) (st code : Nat) : Prop where
  ended : v.st = 5
  cause : v.endSt = st
  reason : v.endCode = code
  noEnts : v.ents = []
  noEmits : v.emits = []

theorem ended_dropSet (st code : Nat) : Ended (((c.dropSet x).onCtx x fun v =>
    { v with st := 5, word := none, rd := none, fills := [], endSt := st, endCode := code }).ctx x) st code := by
  rw [ctx_onCtx]
  refine ⟨rfl, rfl, rfl, ?_, ?_⟩
  · rw [Chip.dropSet, ctx_onCtx]
  · rw [Chip.dropSet, ctx_onCtx]

theorem endCtx_ended {st code : Nat} (hrun : (c.ctx x).free = false) : Ended ((c.endCtx x st code).ctx x) st code := by
  unfold Chip.endCtx
  extract_lets v k c1 c2 c3 c4 c5 c6 c7
  have h5 : Within [.regs] c3 c5 := ((within_putF ..).andThen (within_putF ..)).andThen (within_putF ..)
  have h6 : Within [.regs] c3 c6 := .ite (.refl _ _) ((h5.andThen (within_putF ..)).andThen (within_putF ..))
  have h7 : Within [.regs, .hostMem, .tel, .host] c3 c7 := h6.mono.andThen (within_endCounts c6 st k)
  have h8 : Within [.regs, .hostMem, .tel, .host] c3 ((c7.condEv 5 k 68 (c7.busy k != 0)).heldCheck k) :=
    (h7.andThen (within_condEv ..)).andThen (within_heldCheck ..)
  rw [if_neg (by unfold v; rw [hrun]; nofun), ctx_of_act h8.act_eq]
  exact ended_dropSet st code

end

/-- Settles O41: answers, the commit point, and the ends of routines. -/
theorem writeSetsCommitAndRoutinesEnd : Obligations.WriteSetsCommitAndRoutinesEnd := by
  unfold Obligations.WriteSetsCommitAndRoutinesEnd
  refine ⟨fun s x e a c hvin hentry hanswer hc => ?_, fun c x e hfirst => nextPrep_some hfirst,
    fun c x e howner => sendPrep_noOwner howner,
    fun s hvin hnone hempty => on_eq (f := fun c => c.commitPoint.flush) hvin (congrArg _ (commitPoint_none hnone hempty)),
    fun s x r hvin hq => on_eq (f := fun c => c.commitPoint.flush) hvin (congrArg _ (commitPoint_first hq)),
    fun c x hbroken => commitNow_broken hbroken, fun s x hvin => State.on_vin hvin fun c => (c.wallTimeout x).flush,
    fun s x c hvin hc => ⟨fun hst => ?_, fun hst hend => ?_, fun hlow hhigh => ?_⟩,
    fun s k hvin => State.on_vin hvin fun c => (c.killAll k abKilled).flush, fun s k hvin => ⟨?_, ?_⟩,
    fun c x st code hfree => endCtx_free hfree, fun c x st code hrun => ?_⟩
  · have h : Answered s.chip c x e a := ⟨hentry, hanswer, hc⟩
    exact ⟨fun hcode => on_eq (f := fun c => (c.prepAnswer x).flush) hvin (congrArg _ (h.done hcode)),
      fun hcode => on_eq (f := fun c => (c.prepAnswer x).flush) hvin (congrArg _ (h.busy hcode)),
      fun hcode => on_eq (f := fun c => (c.prepAnswer x).flush) hvin (congrArg _ (h.refused hcode))⟩
  · refine on_eq (f := fun c => (c.killCtx x).flush) hvin (congrArg _ ((killCtx_free hc ?_).trans ?_))
    · obtain h | h := hst <;> simp [Ctx.free, h]
    · rw [if_neg (by omega)]
  · refine on_eq (f := fun c => (c.killCtx x).flush) hvin (congrArg _ ((killCtx_free hc ?_).trans ?_))
    · simp [Ctx.free, hst]
    · rw [if_pos ⟨hst, hend⟩]
  · refine on_eq (f := fun c => (c.killCtx x).flush) hvin (congrArg _ (killCtx_running hc ?_))
    have hne0 : (s.chip.ctx x).st ≠ 0 := by omega
    have hne5 : (s.chip.ctx x).st ≠ 5 := by omega
    simp [Ctx.free, hne0, hne5]
  · refine on_eq (f := (·.setHold k true)) hvin ?_
    rw [Chip.setHold]
    exact if_pos rfl
  · refine on_eq (f := (·.setHold k false)) hvin ?_
    rw [Chip.setHold]
    exact if_neg nofun
  · obtain ⟨hst, hend, hcode, hents, hemits⟩ := endCtx_ended (st := st) (code := code) hrun
    exact ⟨hst, hend, hcode, hents, hemits⟩

end Sys2Proof.Proofs
end

section
/-!
The dispatcher: O42. Items are bound to contexts and come back at a routine's end; offers meet their class; clusters wake and are gated.
-/
namespace Sys2Proof.Proofs
open Sys2Proof Sys2Proof.Machine
set_option Elab.async false

section
variable {c d : Chip} {x q k n : Nat} {b : Bound}

/-! ### Binding and ends -/

theorem itemBind_ineligible (hno : c.eligible k = false) : c.itemBind k = c := by
  rw [Chip.itemBind, hno]
  exact if_pos rfl

theorem itemBind_binds {cr pt : SMap Nat} {r : List Bound} (hyes : c.eligible k = true) (hctx : c.ctxPick k = some x)
    (hclass : c.classPick k 8 = some (q, cr, pt)) (hwait : c.waitingOf q = b :: r) :
    c.itemBind k = (c.onWds fun w => { w with credit := cr, ptr := pt }).bindItem x q b r := by
  rw [Chip.itemBind, hyes, if_neg nofun, hctx, hclass]
  dsimp only
  rw [hwait]

theorem routineEnd_unbound (hnone : (c.ctx x).bound = none) : c.routineEnd x = c := by
  rw [Chip.routineEnd, hnone]

section
variable (hbound : (c.ctx x).bound = some b) (hst : (c.ctx x).st = 5)
include hbound hst

/-- A routine stopped by the device: its item waits at the front of its class again. -/
theorem routineEnd_stopped (hend : (c.ctx x).endSt = 1) (hcode : (c.ctx x).endCode = abStopped)
    (hd : d = ((((c.sink F.WDS_CL_RUN.V b.cls).bump F.WDS_CL_CNT_FAIL.V b.cls).freezeCount x).followEnd x b).onCtx x
      fun v => { v with st := 0, bound := none }) :
    c.routineEnd x = (d.setWaiting b.cls (b :: d.waitingOf b.cls)).csItem 5 b.cls x b 0 0 0 := by
  rw [Chip.routineEnd, hbound]
  dsimp only
  rw [if_neg (not_not.mpr hst), hend, hcode, if_neg (by decide : ¬1 = 0), if_pos ⟨rfl, rfl⟩, hd]

/-- A routine that is done: its slot is free again. -/
theorem routineEnd_done (hend : (c.ctx x).endSt = 0) (hkind : itemKind b.item = 8)
    (hd : d = ((((c.sink F.WDS_CL_RUN.V b.cls).bump F.WDS_CL_CNT_DONE.V b.cls).freezeCount x).followEnd x b).onCtx x
      fun v => { v with st := 0, bound := none }) :
    c.routineEnd x = ((d.giveSlot b.cls b.shared b.att.isSome).csItem 4 b.cls x b 0 (c.ctx x).endCode
      (c.ctx x).steps).retryHeld := by
  rw [Chip.routineEnd, hbound]
  dsimp only
  rw [if_neg (not_not.mpr hst), hend, hkind, if_pos rfl, if_neg (fun h => absurd h.1 (by decide) : ¬(0 = 1 ∧ (c.ctx x).endCode = abStopped)),
    if_neg (by decide : ¬8 = 1), if_neg (by decide : ¬(8 = 6 ∧ 0 ≠ 0)), hd]

end

/-! ### Offers -/

theorem timerFire_off (hoff : c.flag F.WDS_TMR_CTRL.ENABLE n = false) : c.timerFire n = c := by
  rw [Chip.timerFire, hoff]
  exact if_pos rfl

theorem timerFire_new (hon : c.flag F.WDS_TMR_CTRL.ENABLE n = true) (hnone : smFind c.wds.tmrHeld n = none) :
    c.timerFire n = (c.onWds fun w => { w with tmrHeld := smPut w.tmrHeld n (c.timerItem n) }).timerOffer n := by
  rw [Chip.timerFire, hon, if_neg nofun, hnone]

theorem offer_absent {i : Bytes} {a : Option Bytes} (hno : c.classPresent q = false) :
    c.offer q i a = (.absent, c.classAbsent) := by
  rw [Chip.offer, hno]
  exact if_pos rfl

theorem offer_full {i : Bytes} {a : Option Bytes} (hyes : c.classPresent q = true) (hfull : c.classFull q a.isSome ≠ 0) :
    c.offer q i a = (.refused, c.refuseItem q (c.classFull q a.isSome) i) := by
  rw [Chip.offer, hyes, if_neg nofun]
  split
  next h => exact absurd h hfull
  · rfl

section
variable {h : Bool} (hd : d = (c.putF F.WDS_HPOST_CTRL.CLASS q).putF F.WDS_HPOST_CTRL.HASH (b2n h))
include hd

theorem hpost_absent (hno : d.classPresent q = false) : c.hpost q h = d.hpostEnd stInvalid := by
  rw [Chip.hpost, ← hd, hno]
  exact if_pos rfl

end

/-- A host post that names a host kind, for a class that takes posts. -/
theorem hpost_accepted {e : Chip} (hd : d = (c.putF F.WDS_HPOST_CTRL.CLASS q).putF F.WDS_HPOST_CTRL.HASH 0)
    (hyes : d.classPresent q = true) (hkind : itemKind (d.getBytes F.WDS_HPOST_DATA.V.base 64) = 8)
    (hpost : d.flag F.WDS_CL_SCHED.HOSTPOST q = true)
    (hoffer : d.offer q (d.getBytes F.WDS_HPOST_DATA.V.base 64) none = (.accepted, e)) : c.hpost q false = e.hpostEnd stOk := by
  have hplain : b2n false = 0 := rfl
  rw [Chip.hpost, hplain, ← hd, if_neg (by decide : ¬false = true), hyes, hkind, if_neg nofun, hpost, if_neg nofun, hoffer]

theorem setupOffer_none {e : Nat} (hnone : (c.eng e).setupHead = none) : c.setupOffer e = c := by
  rw [Chip.setupOffer, hnone]

theorem setupOffer_accepted {e : Nat} {y : FSetup} (hhead : (c.eng e).setupHead = some y)
    (hoffer : c.offer (tpSetupClass (c.tpl y.op.tmpl)) (c.setupItem y.op y.tag) none = (.accepted, d)) :
    c.setupOffer e = d.setupAccepted e y.tag := by
  rw [Chip.setupOffer, hhead]
  dsimp only
  rw [hoffer]

theorem sweepTick_off (hoff : c.flag F.FLE_SWEEP_CTRL.ENABLE = false) : c.sweepTick = c := by
  rw [Chip.sweepTick, hoff]
  exact if_pos rfl

theorem sweepTick_on (hon : c.flag F.FLE_SWEEP_CTRL.ENABLE = true) (hflow : c.flowPresent = true) :
    c.sweepTick = (List.range 128).foldl (fun d e =>
      if (smFind d.wds.sweepHeld e).isSome then d.sweepOffer e
      else if !d.classPresent (c.getF F.FLE_SWEEP_CLASS.CLASS) then d.classAbsent
      else ({ d with wds := { d.wds with sweepHeld := smPut d.wds.sweepHeld e (d.sweepItem e) } }).sweepOffer e) c := by
  rw [Chip.sweepTick, hon, hflow]
  exact if_neg nofun

/-! ### Clusters -/

theorem clusterWake_asked (hasked : c.wds.wakes.any (fun e => e.2 == q) = true) : c.clusterWake q = c := by
  rw [Chip.clusterWake, hasked]
  exact if_pos rfl

theorem clusterWake_wakes (hnot : c.wds.wakes.any (fun e => e.2 == q) = false)
    (hmore : ((((List.range 16).filter (fun k => bitOf k (c.getF F.WDS_CL_ENTRY.CLUSTERS q))).filter c.eligible).map
      (fun k => 64 - c.busy k)).foldl (· + ·) 0 < (c.waitingOf q).length)
    (hfind : ((List.range 16).filter (fun k => bitOf k (c.getF F.WDS_CL_ENTRY.CLUSTERS q))).find? (fun k =>
      !bitOf k (c.getF F.WDS_CL_AWAKE.V) && !c.flag F.ACT_CL_CTRL.HOLD k && !c.clusterHeld k &&
        !c.wds.wakes.any (fun e => e.1 == k)) = some k) :
    c.clusterWake q = (c.onWds fun w => { w with wakes := w.wakes ++ [(k, q)] }).csRecord 6 q k 0 0 0 0 0 := by
  rw [Chip.clusterWake, hnot, decide_eq_true hmore, if_neg (by simp), hfind]

theorem clusterAwake_woken (hasked : c.wds.wakes.any (fun e => e.1 == k) = true) : c.clusterAwake k =
    (c.onWds fun w => { w with wakes := w.wakes.filter (fun e => e.1 != k) }).setAwake k true := by
  rw [Chip.clusterAwake]
  exact if_pos hasked

theorem clusterGate_idle (hawake : bitOf k (c.getF F.WDS_CL_AWAKE.V) = true) (hgate : c.flag F.WDS_CTRL.NO_GATE = false)
    (hidle : c.busy k = 0) : c.clusterGate k = (c.setAwake k false).csRecord 7 0 k 0 0 0 0 0 := by
  rw [Chip.clusterGate, hawake, hgate, hidle]
  exact if_neg nofun

end

theorem openEntry_eq (e : Nat) : openEntry e = decide (0x6000 ≤ e) := rfl

/-- Settles O42: binding, ends, offers and the clusters' gates. -/
theorem dispatcherBindsOffersAndGates : Obligations.DispatcherBindsOffersAndGates := by
  unfold Obligations.DispatcherBindsOffersAndGates
  refine ⟨fun s k _ hno => on_self (f := (·.itemBind k)) (itemBind_ineligible hno),
    fun s k x q cr pt b r hvin hyes hctx hclass hwait => on_eq (f := (·.itemBind k)) hvin
      (itemBind_binds hyes hctx hclass hwait),
    fun v b e mt => ⟨rfl, rfl, rfl, rfl, rfl, congrArg some (openEntry_eq e)⟩,
    fun s x hvin hnone => on_eq (f := fun c => (c.routineEnd x).flush) hvin (congrArg _ (routineEnd_unbound hnone)),
    fun s x b hvin hbound hst hend hcode => ⟨_, rfl, on_eq (f := fun c => (c.routineEnd x).flush) hvin
      (congrArg _ (routineEnd_stopped hbound hst hend hcode rfl))⟩,
    fun s x b hvin hbound hst hend hkind => ⟨_, rfl, on_eq (f := fun c => (c.routineEnd x).flush) hvin
      (congrArg _ (routineEnd_done hbound hst hend hkind rfl))⟩,
    fun s hvin => State.on_vin hvin Chip.freezeWindow, fun s n _ hoff => on_self (f := (·.timerFire n)) (timerFire_off hoff),
    fun s n hvin hon hnone => on_eq (f := (·.timerFire n)) hvin (timerFire_new hon hnone),
    fun s q h c hvin hc hno => on_eq (f := (·.hpost q h)) hvin (hpost_absent hc hno),
    fun s q c d hvin hc hyes hkind hpost hoffer => on_eq (f := (·.hpost q false)) hvin
      (hpost_accepted hc hyes hkind hpost hoffer),
    fun c q i a hno => offer_absent hno, fun c q i a hyes hfull => offer_full hyes hfull,
    fun s q _ hasked => on_self (f := (·.clusterWake q)) (clusterWake_asked hasked),
    fun s q k hvin hnot hmore hfind => on_eq (f := (·.clusterWake q)) hvin (clusterWake_wakes hnot hmore hfind),
    fun s k hvin hasked => on_eq (f := (·.clusterAwake k)) hvin (clusterAwake_woken hasked),
    fun s k hvin hawake hgate hidle => on_eq (f := (·.clusterGate k)) hvin (clusterGate_idle hawake hgate hidle),
    fun s e _ hnone => on_self (f := (·.setupOffer e)) (setupOffer_none hnone),
    fun s e x d hvin hhead hoffer => on_eq (f := (·.setupOffer e)) hvin (setupOffer_accepted hhead hoffer),
    fun s _ hoff => on_self (f := Chip.sweepTick) (sweepTick_off hoff),
    fun s hvin hon hflow => on_eq (f := Chip.sweepTick) hvin (sweepTick_on hon hflow)⟩

end Sys2Proof.Proofs
end

section
/-!
Requests to the flow memory: O43. A request waits in its queue, completes in order on its line, and finds its channel frozen, resting or
refreshed; a fence waits for the requests before it.
-/
namespace Sys2Proof.Proofs
open Sys2Proof Sys2Proof.Machine
set_option Elab.async false

section
variable {c d : Chip} {g ch id syn : Nat} {q : DramReq}

/-! ### Requests -/

theorem chErr_onHbm (c : Chip) (f : HbmSt → HbmSt) (ch : Nat) : (c.onHbm f).chErr ch = c.chErr ch := rfl

section
variable {r p a n : Nat} {w : Bool} {b : Bytes}

theorem dramRequest_full (hfull : reqDepth r ≤ (c.hbm.queue.filter (fun q => q.req == r && q.port == p)).length) :
    c.dramRequest r p a n w b = c := by
  rw [Chip.dramRequest]
  exact if_pos hfull

theorem dramRequest_queued (hroom : (c.hbm.queue.filter (fun q => q.req == r && q.port == p)).length < reqDepth r)
    (hq : q = { id := c.hbm.nextId, req := r, port := p, addr := a, len := n, write := w, data := b,
                since := c.mt, left := granules a n }) (hgood : ∀ ch ∈ chansOf a n, c.chErr ch = false) :
    c.dramRequest r p a n w b =
      (c.onHbm fun h => { h with nextId := h.nextId + 1, queue := h.queue ++ [q] }).showQueued r := by
  have hnone : (chansOf a n).find? (fun ch => (c.onHbm fun h => { h with nextId := h.nextId + 1 }).chErr ch) = none :=
    List.find?_eq_none.mpr fun ch hch => by rw [chErr_onHbm, hgood ch hch]; nofun
  rw [Chip.dramRequest, if_neg (by omega), ← hq]
  dsimp only
  rw [hnone]
  rfl

end

/-! ### Completion -/

/-- No line turned bad breaks no watch. -/
theorem watchBad_self {f : Chip → Chip} (h : f c = c) : c.watchBad f = c := by
  rw [Chip.watchBad, h, List.drop_length]
  rfl

theorem within_watchBad_of (c : Chip) (f : Chip → Chip) : Within [.act] (f c) (c.watchBad f) :=
  .foldl (.refl _ _) fun _ _ => within_breakWatch ..

/-- A request is out of the queue, and its latency shows. -/
theorem retireReq_hbm (c : Chip) (q : DramReq) : (c.retireReq q).hbm = { c.hbm with
    queue := c.hbm.queue.filter (fun y => y.id != q.id), fence := c.hbm.fence.filter (· != q.id) } := by
  unfold Chip.retireReq
  extract_lets lat c1 c2 c3
  have h3 : Within [.regs] c1 c3 := .ite ((within_putF ..).andThen (within_putF ..)) (within_putF ..)
  exact (Within.ite (h3.andThen (within_bump ..)) h3 : Within [.regs] c1 _).hbm_eq

section
variable (hfind : c.hbm.queue.find? (fun q => q.id == id) = some q)
include hfind

theorem dramComplete_early {e : Nat} (hleft : q.left ≠ []) : c.dramComplete id e syn = c := by
  rw [Chip.dramComplete, hfind]
  exact if_pos (by simp [hleft])

/-- The request is issued and no older one of its requestor meets its line. -/
structure Ready (c : Chip) (id : Nat) (q : DramReq) : Prop where
  issued : q.left = []
  first : c.hbm.queue.any (fun y => decide (y.id < id) && reqKey y == reqKey q && sameLine y.addr y.len q.addr q.len) = false

theorem dramComplete_write {e : Nat} (h : Ready c id q) (hwrite : q.write = true) :
    c.dramComplete id e syn = (c.dramWrite q.addr q.data).retireReq q := by
  rw [Chip.dramComplete, hfind]
  dsimp only
  rw [h.issued, h.first, if_neg nofun]
  exact if_pos hwrite

theorem dramComplete_read (h : Ready c id q) (hread : q.write = false) :
    c.dramComplete id 0 syn = (c.onHbm fun h => { h with lastData := c.readThrough q }).retireReq q := by
  rw [Chip.dramComplete, hfind]
  dsimp only
  rw [h.issued, h.first, if_neg nofun, hread, if_neg nofun]
  rfl

end

/-! ### Refresh -/

theorem dramSlot_resting (hrest : c.chState (g / 2) = 5) : c.dramSlot g = c := by
  rw [Chip.dramSlot]
  exact if_pos (.inl hrest)

theorem dramSlot_must (hawake : c.chState (g / 2) ≠ 5) (hstack : c.stkState (g / 2 / 16) ≠ 4) (hmust : 0 < (c.pcSt g).must) :
    c.dramSlot g = (c.setPc g { c.pcSt g with must := (c.pcSt g).must - 1 }).refresh g := by
  rw [Chip.dramSlot]
  exact (if_neg (not_or.mpr ⟨hawake, hstack⟩)).trans (if_pos hmust)

theorem refreshDue_resting (hrest : c.chState (g / 2) = 5) : c.refreshDue g = c := by
  rw [Chip.refreshDue]
  exact if_pos hrest

theorem refreshDue_idle (hup : c.chState (g / 2) = 0) (hbatch : (c.pcSt g).batch = 0) (hempty : c.hbm.queue = []) :
    c.refreshDue g = (c.setPd g false).refresh g := by
  rw [Chip.refreshDue, hup, hempty]
  exact (if_neg nofun).trans ((if_neg (by omega)).trans (if_pos rfl))

/-! ### Frozen channels -/

theorem addr_chState (ch : Nat) : F.HBM_CH_STATUS.STATE.addr ch = 0xC20000 + ch * 0x400 := rfl

theorem chState_setPd (b : Bool) : (c.setPd g b).chState ch = c.chState ch := by
  have hput : ∀ d : Chip, d = c.putF F.HBM_CH_STATUS.PD0 (b2n b) (g / 2) ∨ d = c.putF F.HBM_CH_STATUS.PD1 (b2n b) (g / 2) →
      d.chState ch = c.chState ch := by
    rintro d (rfl | rfl)
    · exact getF_putF_apart (by decide) (.inr (by decide))
    · exact getF_putF_apart (by decide) (.inr (by decide))
  unfold Chip.setPd
  extract_lets c1
  refine (getF_of_rd (rd_condEv ?_)).trans (hput c1 ?_)
  · rw [addr_chState]
    omega
  · unfold c1
    split
    · exact .inl rfl
    · exact .inr rfl

theorem freeze_again {t a r : Nat} (hfrozen : c.chState ch = 2) :
    c.freeze ch t a r syn = c.putF F.HBM_CH_CAP3.OVERFLOW 1 ch := by
  unfold Chip.freeze
  exact if_pos hfrozen

/-- The channel is frozen after its capture is written. -/
theorem chState_freeze {t a r : Nat} (hnot : c.chState ch ≠ 2) : (c.freeze ch t a r syn).chState ch = 2 := by
  unfold Chip.freeze
  rw [if_neg hnot]
  extract_lets p c1 c2 c3 c4 c5 c6 c7
  have haddr := addr_chState ch
  have h6 : c6.chState ch = 2 := Chip.getF_putF (by decide) ..
  have h7 : c7.chState ch = 2 := by
    refine (getF_of_rd (rd_condEv ?_)).trans ((chState_setPd _).trans ((chState_setPd _).trans h6))
    rw [addr_chState]
    omega
  have hst : F.HBM_STATUS.FROZEN.addr 0 0 = 0xC00004 := rfl
  have hlast : F.HBM_STATUS.LAST_FROZEN.addr 0 0 = 0xC00004 := rfl
  have hev : F.HBM_EVENTS.FREEZE.addr 0 0 = 0xC00008 := rfl
  refine (getF_raise_apart (by decide) (.inl ?_) (.inr ?_)).trans ((getF_putF_apart (by decide) (.inl ?_)).trans
    ((getF_bump_apart (by decide) (.inl ?_)).trans h7))
  all_goals omega

section
variable (hrecov : c.recov = [])
include hrecov

theorem hostRelease_eq (ok : Bool) : c.hostRelease ch ok = c.releaseCh ch ok := by
  rw [Chip.hostRelease, hrecov]
  exact if_neg nofun

theorem hostRelease_notFrozen {ok : Bool} (hnot : c.chState ch ≠ 2) : c.hostRelease ch ok = c := by
  rw [hostRelease_eq hrecov, Chip.releaseCh]
  exact if_pos hnot

theorem hostRelease_failed (hfrozen : c.chState ch = 2) : c.hostRelease ch false = c.putF F.HBM_CH_CAP3.TYPE 5 ch := by
  rw [hostRelease_eq hrecov, Chip.releaseCh]
  exact (if_neg (not_not.mpr hfrozen)).trans (if_neg nofun)

theorem hostRelease_good (hfrozen : c.chState ch = 2) : c.hostRelease ch true = (((c.onHbm fun h => { h with
    lost := h.lost.filter (fun x => x.1 != ch), bad := h.bad.filter (fun x => x.1 != ch) }).putF
      F.HBM_CH_STATUS.STATE 0 ch).sink F.HBM_STATUS.FROZEN).tryPending (ch / 16) := by
  rw [hostRelease_eq hrecov, Chip.releaseCh]
  exact (if_neg (not_not.mpr hfrozen)).trans (if_pos rfl)

end

/-! ### Fences -/

theorem fence_running {m : Nat} (hrun : c.flag F.HBM_FENCE.RUNNING = true) : c.fence m = c := by
  rw [Chip.fence]
  exact if_pos hrun

theorem fence_idle {m : Nat} (hidle : c.flag F.HBM_FENCE.RUNNING = false) : c.fence m =
    ((c.putF F.HBM_FENCE.MASK m).putF F.HBM_FENCE.RUNNING 1).onHbm fun h => { h with
      fence := (h.queue.filter (fun q => bitOf q.req m)).map (fun q => q.id) } := by
  rw [Chip.fence, hidle]
  exact if_neg nofun

theorem fenceDone_done (hrun : c.flag F.HBM_FENCE.RUNNING = true) (hempty : c.hbm.fence = []) :
    c.fenceDone = (c.putF F.HBM_FENCE.RUNNING 0).raiseDone F.HBM_FENCE.DONE := by
  rw [Chip.fenceDone, hrun, hempty]
  exact if_pos rfl

theorem fenceDone_waits (hwait : c.hbm.fence ≠ []) : c.fenceDone = c := by
  rw [Chip.fenceDone]
  exact if_neg (by simp [hwait])

end

/-- Settles O43: requests, completions, refresh, frozen channels and fences. -/
theorem memoryRequestsCompleteAndChannelsFreeze : Obligations.MemoryRequestsCompleteAndChannelsFreeze := by
  unfold Obligations.MemoryRequestsCompleteAndChannelsFreeze
  refine ⟨fun s r p a n w d _ hfull => on_self (f := (·.dramRequest r p a n w (sliceB d 0 n))) (dramRequest_full hfull),
    fun s r p a n w d q hvin hroom hq hgood => on_eq (f := (·.dramRequest r p a n w (sliceB d 0 n))) hvin
      (dramRequest_queued hroom hq hgood),
    fun s id syn e q _ hfind hleft => on_self (f := fun c => c.watchBad (·.dramComplete id e syn))
      (watchBad_self (dramComplete_early hfind hleft)),
    fun s id syn e q hvin hfind hleft hwrite hfirst => ?_, fun s id syn q hvin hfind hleft hread hfirst => ?_,
    fun s g _ hrest => ⟨on_self (f := (·.dramSlot g)) (dramSlot_resting hrest),
      on_self (f := (·.refreshDue g)) (refreshDue_resting hrest)⟩,
    fun s g hvin hawake hstack hmust => on_eq (f := (·.dramSlot g)) hvin (dramSlot_must hawake hstack hmust),
    fun s g hvin hup hbatch hempty => on_eq (f := (·.refreshDue g)) hvin (refreshDue_idle hup hbatch hempty),
    fun s ch w a y hvin => State.on_vin hvin (·.parityError ch w a y), fun c ch t a r y hfrozen => freeze_again hfrozen,
    fun c ch t a r y _ hnot => ⟨chState_freeze hnot, (within_freeze ..).dram_eq⟩,
    fun s ch ok _ hrecov hnot => on_self (f := (·.hostRelease ch ok)) (hostRelease_notFrozen hrecov hnot),
    fun s ch hvin hrecov hfrozen => ⟨on_eq (f := (·.hostRelease ch false)) hvin (hostRelease_failed hrecov hfrozen),
      on_eq (f := (·.hostRelease ch true)) hvin (hostRelease_good hrecov hfrozen)⟩,
    fun s m _ hrun => on_self (f := (·.fence m)) (fence_running hrun),
    fun s m hvin hidle => on_eq (f := (·.fence m)) hvin (fence_idle hidle),
    fun s hvin hrun hempty => on_eq (f := Chip.fenceDone) hvin (fenceDone_done hrun hempty),
    fun s _ hwait => on_self (f := Chip.fenceDone) (fenceDone_waits hwait)⟩
  · have hran : s.chip.dramComplete id e syn = _ := dramComplete_write hfind ⟨hleft, hfirst⟩ hwrite
    have hbad := within_watchBad_of s.chip (·.dramComplete id e syn)
    have hret := within_retireReq (s.chip.dramWrite q.addr q.data) q
    refine ⟨⟨s.chip.watchBad (·.dramComplete id e syn), s.pending⟩,
      State.on_vin hvin fun c => c.watchBad (·.dramComplete id e syn), ?_, ?_, ?_⟩
    · rw [hbad.dram_eq, hran, hret.dram_eq]
      rfl
    · rw [hbad.hbm_eq, hran, retireReq_hbm]
      rfl
    · rw [hbad.hostMem_eq, hran, hret.hostMem_eq]
      rfl
  · have hran := dramComplete_read (syn := syn) hfind ⟨hleft, hfirst⟩ hread
    have hbad := within_watchBad_of s.chip (·.dramComplete id 0 syn)
    have hret := within_retireReq (s.chip.onHbm fun h => { h with lastData := s.chip.readThrough q }) q
    refine ⟨⟨s.chip.watchBad (·.dramComplete id 0 syn), s.pending⟩,
      State.on_vin hvin fun c => c.watchBad (·.dramComplete id 0 syn), ?_, ?_⟩
    · rw [hbad.hbm_eq, hran, retireReq_hbm]
      rfl
    · rw [hbad.dram_eq, hran, hret.dram_eq]
      rfl

end Sys2Proof.Proofs
end

section
/-!
The memory's stacks: O44. A scrub pass, the readings of temperature, power-down and self-refresh, training and the changes of rate.
-/
namespace Sys2Proof.Proofs
open Sys2Proof Sys2Proof.Machine
set_option Elab.async false

section
variable {c d : Chip} {g ch k y : Nat}

/-! ### Scrubbing -/

/-- Where no line turns bad, no watch breaks. -/
theorem watchBad_eq {f : Chip → Chip} (h : (f c).hbm.bad = c.hbm.bad) : c.watchBad f = f c := by
  rw [Chip.watchBad, h, List.drop_length]
  rfl

theorem scrubRead_off {e : Nat} (hnone : c.hbm.scrubQ = []) (hoff : c.flag F.HBM_CTRL.SCRUB_EN = false) :
    c.scrubRead e y = c := by
  rw [Chip.scrubRead, hnone, hoff]
  exact if_pos rfl

theorem scrubRead_clean (hnone : c.hbm.scrubQ = []) (hon : c.flag F.HBM_CTRL.SCRUB_EN = true) :
    c.scrubRead 0 y = c.onHbm fun h => { h with scrubPos := (h.scrubPos + 64) % 0x2400000000 } := by
  rw [Chip.scrubRead, hnone, hon]
  refine (if_neg nofun).trans ?_
  dsimp only
  split
  · rfl
  · rfl

theorem scrubRead_rewrite {e a : Nat} {r : List Nat} (hfirst : c.hbm.scrubQ = a :: r) (hempty : c.hbm.queue = []) :
    c.scrubRead e y = (c.onHbm fun h => { h with scrubQ := r }).bump F.HBM_CNT_SCRUB_FIX.V := by
  have hno : (c.onHbm fun h => { h with scrubQ := r }).hbm.queue.any (fun q => q.write && sameLine q.addr q.len a 64) = false := by
    rw [Chip.onHbm, hempty]
    rfl
  rw [Chip.scrubRead, hfirst]
  dsimp only
  rw [hno, if_neg nofun]

/-! ### Temperature -/

theorem addr_stackStatus {f : Fld} (hf : f.base = 0xC01004 ∧ f.s1 = 0x100 ∧ f.s2 = 0) (k : Nat) :
    f.addr k 0 = 0xC01004 + k * 0x100 := by
  obtain ⟨hbase, hs1, -⟩ := hf
  rw [Fld.addr, hbase, hs1, Nat.zero_mul, Nat.add_zero]

theorem addr_chStatus {f : Fld} (hf : f.base = 0xC20000 ∧ f.s1 = 0x400 ∧ f.s2 = 0) (ch : Nat) :
    f.addr ch 0 = 0xC20000 + ch * 0x400 := by
  obtain ⟨hbase, hs1, -⟩ := hf
  rw [Fld.addr, hbase, hs1, Nat.zero_mul, Nat.add_zero]

theorem rd_setOwed {n a : Nat} (ha : a < 0xC20000) : (c.setOwed g n).rd a = c.rd a := by
  have h0 := addr_chStatus (f := F.HBM_CH_STATUS.OWED0) ⟨rfl, rfl, rfl⟩ (g / 2)
  have h1 := addr_chStatus (f := F.HBM_CH_STATUS.OWED1) ⟨rfl, rfl, rfl⟩ (g / 2)
  rw [Chip.setOwed]
  split
  · exact Chip.rd_putF_ne (by omega)
  · exact Chip.rd_putF_ne (by omega)

theorem rd_hotBatch {a : Nat} (ha : a < 0xC20000) : (c.hotBatch k).rd a = c.rd a := by
  unfold Chip.hotBatch
  refine List.foldlRecOn (motive := fun (d : Chip) => d.rd a = c.rd a) _ _ rfl fun d hd i _ => ?_
  extract_lets g x
  split
  · exact hd
  · exact (rd_setOwed ha).trans ((rd_of_regs (within_setPc ..).regs_eq a).trans hd)

/-- The stack's status with its reading and whether it is hot. -/
def stackRead (c : Chip) (k : Nat) (t : BitVec 8) (hot : Bool) : Chip :=
  ((c.putF F.HBM_STK_STATUS.TEMP t.toNat k).putF F.HBM_STK_STATUS.TEMP_VALID 1 k).putF F.HBM_STK_STATUS.HOT (b2n hot) k

/-- Whether a reading finds the stack hot: between the two thresholds it stays as it was. -/
def hotAt (c : Chip) (k : Nat) (v : Int) : Bool :=
  if ((c.getF F.HBM_REF_TEMP.HOT : Nat) : Int) ≤ v then true
  else if v < ((c.getF F.HBM_REF_TEMP.COOL : Nat) : Int) then false else c.flag F.HBM_STK_STATUS.HOT k

theorem rd_tempReading {t : BitVec 8} {a : Nat} (hlow : 0xC01004 ≤ a) (hhigh : a < 0xC20000) :
    (c.tempReading k t).rd a = (stackRead c k t (hotAt c k t.toInt)).rd a := by
  unfold Chip.tempReading
  extract_lets was v hot c1 c2 c3 c4
  have hhot : F.HBM_EVENTS.HOT.addr 0 0 = 0xC00008 := rfl
  have hcool : F.HBM_EVENTS.COOL.addr 0 0 = 0xC00008 := rfl
  have hpba : ¬isPba a := offPba.not_isPba (.inr (by omega))
  have h3 : c3.rd a = c2.rd a := by
    unfold c3
    split
    · rw [Chip.rd_raise (by omega) hpba, rd_hotBatch hhigh]
    · rfl
  have h4 : c4.rd a = c3.rd a := by
    unfold c4
    split
    · exact Chip.rd_raise (by omega) hpba
    · rfl
  refine (List.foldlRecOn (motive := fun (d : Chip) => d.rd a = c4.rd a) _ _ rfl fun d hd ch _ => ?_).trans (h4.trans h3)
  have hdbl := addr_chStatus (f := F.HBM_CH_STATUS.DOUBLE) ⟨rfl, rfl, rfl⟩ ch
  exact (Chip.rd_putF_ne (by omega)).trans hd

theorem getF_tempReading {f : Fld} {t : BitVec 8} (hf : f.base = 0xC01004 ∧ f.s1 = 0x100 ∧ f.s2 = 0) (hk : k < 6) :
    (c.tempReading k t).getF f k = (stackRead c k t (hotAt c k t.toInt)).getF f k := by
  have haddr := addr_stackStatus hf k
  exact getF_of_rd (rd_tempReading (by omega) (by omega))

theorem temp_stackRead {t : BitVec 8} {hot : Bool} : (stackRead c k t hot).getF F.HBM_STK_STATUS.TEMP k = t.toNat := by
  rw [stackRead, getF_putF_apart (by decide) (.inr (by decide)), getF_putF_apart (by decide) (.inr (by decide)),
    Chip.getF_putF (by decide)]
  exact Nat.mod_eq_of_lt t.isLt

theorem valid_stackRead {t : BitVec 8} {hot : Bool} : (stackRead c k t hot).getF F.HBM_STK_STATUS.TEMP_VALID k = 1 := by
  rw [stackRead, getF_putF_apart (by decide) (.inr (by decide)), Chip.getF_putF (by decide)]
  rfl

theorem hot_stackRead {t : BitVec 8} {hot : Bool} : (stackRead c k t hot).getF F.HBM_STK_STATUS.HOT k = b2n hot := by
  rw [stackRead, Chip.getF_putF (by decide)]
  cases hot <;> rfl

/-! ### Power-down and self-refresh -/

theorem pcBusy_empty (hempty : c.hbm.queue = []) : c.pcBusy g = false := by
  rw [Chip.pcBusy, hempty]
  rfl

theorem pdEnter_idle (hup : c.chState (g / 2) = 0) (hempty : c.hbm.queue = []) (hmust : (c.pcSt g).must = 0)
    (hbatch : (c.pcSt g).batch = 0) : c.pdEnter g = c.setPd g true := by
  rw [Chip.pdEnter, hup, pcBusy_empty hempty, hmust, hbatch]
  exact if_neg (by simp)

theorem srEnter_off (hoff : c.flag F.HBM_CTRL.SR_EN = false) : c.srEnter ch = c := by
  rw [Chip.srEnter, hoff]
  exact if_pos rfl

theorem chState_srEnter (hon : c.flag F.HBM_CTRL.SR_EN = true) (hup : c.chState ch = 0) (hempty : c.hbm.queue = []) :
    (c.srEnter ch).chState ch = 5 := by
  unfold Chip.srEnter
  rw [hon, hup, pcBusy_empty hempty, pcBusy_empty hempty, if_neg nofun]
  extract_lets pay c1
  refine (getF_of_rd (rd_condEv ?_)).trans (Chip.getF_putF (by decide) ..)
  rw [addr_chState]
  omega

theorem srExit_resting (hrest : c.chState ch = 5) :
    c.srExit ch = ((c.putF F.HBM_CH_STATUS.STATE 0 ch).srLeft ch).condEv 7 ch 7 false := by
  rw [Chip.srExit]
  exact if_neg (not_not.mpr hrest)

/-! ### Training -/

theorem trainStack_changing (hstate : c.stkState k = 2) : c.trainStack k = c := by
  rw [Chip.trainStack]
  exact if_pos hstate

theorem trainStack_trains (hstate : c.stkState k ≠ 2) :
    c.trainStack k = (stackChans k).foldl (fun c ch => if c.chState ch = 2 ∨ c.chState ch = 3 then c
      else ((c.putF F.HBM_CH_STATUS.STATE 1 ch).setPd (2 * ch) false).setPd (2 * ch + 1) false)
      (c.putF F.HBM_STK_STATUS.STATE 1 k) := by
  rw [Chip.trainStack]
  exact if_neg hstate

theorem trainingDone_eq {ms : List Nat} (htrain : c.chState ch = 1) : c.trainingDone ch ms = if (c.trainResult ch ms).1 then
      ((c.trainResult ch ms).2.putF F.HBM_CH_STATUS.STATE 0 ch).stackTrained (ch / 16)
    else (((c.trainResult ch ms).2.freeze ch 5 0 0 0).raise F.HBM_EVENTS.TRAIN_FAIL).stackTrained (ch / 16) := by
  rw [Chip.trainingDone]
  exact if_neg (not_not.mpr htrain)

/-- A field written with what it holds stays, at every index. -/
theorem getF_putF_getF {f : Fld} {i j k l : Nat} (hf : f.fits) : (c.putF f (c.getF f i j) i j).getF f k l = c.getF f k l := by
  by_cases haddr : f.addr k l = f.addr i j
  · have hsame (d : Chip) : d.getF f k l = d.getF f i j := by rw [Chip.getF, Chip.getF, haddr]
    rw [hsame, hsame c, Chip.getF_putF hf]
    exact Nat.mod_eq_of_lt (bitsOf_lt ..)
  · exact Chip.getF_putF_ne haddr

theorem trackStep_none (n : Nat) : trackStep n 0 = n := by
  have hnone : (List.range 9).filter (fun i => bitOf i 0) = [] := by decide
  rw [trackStep, hnone]
  rfl

theorem tracking_off {ms : List Nat} (hoff : c.flag F.HBM_CTRL.TRACK_EN = false) : c.tracking g ms = c := by
  rw [Chip.tracking, hoff]
  exact if_pos rfl

/-- A run that no code passes leaves every delay. -/
theorem tracking_none (hon : c.flag F.HBM_CTRL.TRACK_EN = true) (hup : c.chState (g / 2) = 0) (i j : Nat) :
    (c.tracking g []).getF F.HBM_CH_TRN_RD.DLY i j = c.getF F.HBM_CH_TRN_RD.DLY i j := by
  rw [Chip.tracking, hon, hup, if_neg nofun]
  refine List.foldlRecOn (motive := fun (d : Chip) => d.getF F.HBM_CH_TRN_RD.DLY i j = c.getF F.HBM_CH_TRN_RD.DLY i j) _ _ rfl
    fun d hd l _ => ?_
  have hrd : F.HBM_CH_TRN_RD.DLY.addr i j = 0xC20100 + i * 0x400 + j * 8 := rfl
  have hwr : F.HBM_CH_TRN_WR.DLY.addr (g / 2) (4 * (g % 2) + l) = 0xC20104 + g / 2 * 0x400 + (4 * (g % 2) + l) * 8 := rfl
  dsimp only
  rw [List.getD_nil, List.getD_nil, trackStep_none, trackStep_none, Chip.getF_putF_ne (by omega), getF_putF_getF (by decide)]
  exact hd

/-! ### Changes of rate -/

theorem rateChange_tripped {r : Nat} (htrip : c.tripped = true) : c.rateChange k r = c.putF F.HBM_STK_CTRL.RATE r k := by
  have hsame : (c.putF F.HBM_STK_CTRL.RATE r k).tripped = c.tripped := by
    have hrate : F.HBM_STK_CTRL.RATE.addr k 0 = 0xC01000 + k * 0x100 := rfl
    have hsfl : F.SFL_STATUS.TRIP.addr 0 0 = 0x20000 := rfl
    rw [Chip.tripped, getF_putF_apart (by decide) (.inl (by omega)), ← Chip.tripped]
  rw [Chip.rateChange, hsame]
  exact if_pos htrip

theorem rateChange_free {r : Nat} (hfree : (c.putF F.HBM_STK_CTRL.RATE r k).tripped = false) :
    c.rateChange k r = (c.putF F.HBM_STK_CTRL.RATE r k).rateWant k r := by
  rw [Chip.rateChange, hfree]
  exact if_neg nofun

theorem freqDone_none (hnone : smFind c.hbm.changing k = none) : c.freqDone k = c := by
  rw [Chip.freqDone, hnone]

theorem freqDone_some {r : Nat} (hsome : smFind c.hbm.changing k = some r) : c.freqDone k = (((stackChans k).foldl (fun c ch =>
      (((((c.setOwed (2 * ch) 0).setOwed (2 * ch + 1) 0).srLeft ch).putF F.HBM_CH_STATUS.STATE 0 ch).condEv 7 ch 7 false))
      (((c.onHbm fun h => { h with changing := smErase h.changing k }).putF F.HBM_STK_STATUS.RATE_CUR r k).putF
        F.HBM_STK_STATUS.STATE 0 k)).raise F.HBM_EVENTS.FREQ_DONE).tryPending k := by
  rw [Chip.freqDone, hsome]

end

/-- Settles O44: scrub, temperature, rest, training and rate of the stacks. -/
theorem memoryStacksTrainScrubAndSleep : Obligations.MemoryStacksTrainScrubAndSleep := by
  unfold Obligations.MemoryStacksTrainScrubAndSleep
  refine ⟨fun s e y _ hnone hoff => on_self (f := fun c => c.watchBad (·.scrubRead e y)) (watchBad_self (scrubRead_off hnone hoff)),
    fun s y hvin hnone hon => ?_, fun s e y a r hvin hfirst hempty => ?_, fun s k v hvin => ?_,
    fun s g hvin hup hempty hmust hbatch => on_eq (f := (·.pdEnter g)) hvin (pdEnter_idle hup hempty hmust hbatch),
    fun s g hvin => ⟨fun hpd => on_eq (f := (·.pdExit g)) hvin (if_pos hpd),
      fun hpd => on_self (f := (·.pdExit g)) (if_neg (by rw [hpd]; nofun))⟩,
    fun s ch _ hoff => on_self (f := (·.srEnter ch)) (srEnter_off hoff),
    fun s ch hvin hon hup hempty => ⟨⟨s.chip.srEnter ch, s.pending⟩, State.on_vin hvin (·.srEnter ch),
      chState_srEnter hon hup hempty, (within_srEnter ..).dram_eq⟩,
    fun s ch hvin hrest => on_eq (f := (·.srExit ch)) hvin (srExit_resting hrest),
    fun s k _ hstate => on_self (f := (·.trainStack k)) (trainStack_changing hstate),
    fun s k hvin hstate => on_eq (f := (·.trainStack k)) hvin (trainStack_trains hstate),
    fun s ch ms hvin htrain => ⟨fun hok => on_eq (f := (·.trainingDone ch ms)) hvin ((trainingDone_eq htrain).trans (if_pos hok)),
      fun hbad => on_eq (f := (·.trainingDone ch ms)) hvin
        ((trainingDone_eq htrain).trans (if_neg (by rw [hbad]; nofun)))⟩,
    fun m hshort => if_pos hshort, fun m a n hrun hlong => ?_,
    fun s g ms _ hoff => on_self (f := (·.tracking g ms)) (tracking_off hoff),
    fun s g hvin hon hup => ⟨⟨s.chip.tracking g [], s.pending⟩, State.on_vin hvin (·.tracking g []),
      fun l _ => tracking_none hon hup _ _⟩,
    fun s k r hvin => ⟨fun htrip => on_eq (f := (·.rateChange k r)) hvin (rateChange_tripped htrip),
      fun hfree => on_eq (f := (·.rateChange k r)) hvin (rateChange_free hfree)⟩,
    fun s k _ hnone => on_self (f := (·.freqDone k)) (freqDone_none hnone),
    fun s k r hvin hsome => on_eq (f := (·.freqDone k)) hvin (freqDone_some hsome)⟩
  · have hran := scrubRead_clean (y := y) hnone hon
    refine on_eq (f := fun c => c.watchBad (·.scrubRead 0 y)) hvin ((watchBad_eq ?_).trans hran)
    rw [hran]
    rfl
  · have hran := scrubRead_rewrite (e := e) (y := y) hfirst hempty
    refine on_eq (f := fun c => c.watchBad (·.scrubRead e y)) hvin ((watchBad_eq ?_).trans hran)
    rw [hran, (within_bump ..).hbm_eq]
    rfl
  · refine ⟨⟨s.chip.tempReading k v, s.pending⟩, State.on_vin hvin (·.tempReading k v), ?_, ?_, fun hhot => ?_, fun hnot hcool => ?_⟩
    · exact (getF_tempReading ⟨rfl, rfl, rfl⟩ k.isLt).trans temp_stackRead
    · exact (getF_tempReading ⟨rfl, rfl, rfl⟩ k.isLt).trans valid_stackRead
    · refine (getF_tempReading ⟨rfl, rfl, rfl⟩ k.isLt).trans ?_
      rw [hot_stackRead, hotAt, if_pos hhot]
      rfl
    · refine (getF_tempReading ⟨rfl, rfl, rfl⟩ k.isLt).trans ?_
      rw [hot_stackRead, hotAt, if_neg (by omega), if_pos hcool]
      rfl
  · rw [trainLane, hrun]
    exact if_neg (by omega)

end Sys2Proof.Proofs
end

section
/-!
The traffic manager: O45. A copy meets the tests of admission in order; a copy in the residue is tried again; packets recirculate, PFC
frames leave, and a binding ends behind a mark.
-/
namespace Sys2Proof.Proofs
open Sys2Proof Sys2Proof.Machine
set_option Elab.async false

section
variable {c : Chip} {pid : Nat} {p : Pkt}

/-! ### Admission -/

theorem admitCmd_held (hpkt : c.pkt pid = some p) (hheld : p.stage ≠ .ready ∨ c.admBlocked pid p = true) :
    c.admitCmd pid = c := by
  rw [Chip.admitCmd, hpkt]
  refine if_neg fun h => ?_
  obtain hst | hblocked := hheld
  · exact hst h.1
  · rw [hblocked] at h
    exact absurd h.2 nofun

theorem admitCmd_ready (hpkt : c.pkt pid = some p) (hst : p.stage = .ready) (hfree : c.admBlocked pid p = false) :
    c.admitCmd pid = c.admission pid := by
  rw [Chip.admitCmd, hpkt]
  exact if_pos ⟨hst, by rw [hfree]; rfl⟩

section
variable {port q n m kind : Nat} {multi : Bool}

theorem admTest_zone (hzone : c.mayForward (c.srcZone p) (c.portZone port) = false) (hkind : kind ≠ 3) :
    c.admTest p kind port q n m multi = .drop 3 := by
  unfold Chip.admTest
  exact if_pos ⟨hkind, by rw [hzone]; rfl⟩

/-- The copy may go to the port, which is enabled and present. -/
structure Reaches (c : Chip) (p : Pkt) (port : Nat) : Prop where
  zone : c.mayForward (c.srcZone p) (c.portZone port) = true
  small : port < 512
  enabled : c.flag F.PRT_CFG.ENABLE port = true
  present : c.portPresent port = true

namespace Reaches

variable (h : Reaches c p port)
include h

theorem tests : c.admTest p kind port q n m multi =
    if !c.portUp port then (if multi || kind = 2 then (if kind = 2 then .drop 9 else .wait) else .drop 5)
    else if c.dtPass q n m then .go false
    else if kind != 2 && c.lossless p && !(multi && (p.resExp || p.copies.any (fun k => k.state == 0))) then
      if c.getF F.TMG_PORT_HR_USED.V p.port + m ≤ c.getF F.TMG_PORT_HEADROOM.V p.port then .go true else .drop 2
    else if multi || kind = 2 then (if kind = 2 then .drop 9 else .wait)
    else .drop 1 := by
  unfold Chip.admTest
  have hport := h.small
  rw [h.zone, h.enabled, h.present, if_neg (by simp), if_neg (by omega)]
  exact if_neg nofun

theorem down (hdown : c.portUp port = false) :
    c.admTest p 0 port q n m false = .drop 5 ∧ c.admTest p 1 port q n m true = .wait := by
  rw [h.tests, h.tests, hdown]
  exact ⟨rfl, rfl⟩

theorem passes (hup : c.portUp port = true) (hpass : c.dtPass q n m = true) : c.admTest p 0 port q n m false = .go false := by
  rw [h.tests, hup, hpass]
  rfl

/-- Over the threshold a copy of a packet that may be lost is dropped, or waits where others of the packet may still go. -/
theorem full (hup : c.portUp port = true) (hfull : c.dtPass q n m = false) (hlossy : c.lossless p = false) :
    c.admTest p 0 port q n m false = .drop 1 ∧ c.admTest p 1 port q n m true = .wait ∧
      c.admTest p 2 port q n m false = .drop 9 := by
  rw [h.tests, h.tests, h.tests, hup, hfull, hlossy]
  exact ⟨rfl, rfl, rfl⟩

end Reaches

end

/-! ### The residue -/

theorem residueRetry_none {port : Nat} (hnone : c.oldestResidue port = none) : c.residueRetry port = c := by
  rw [Chip.residueRetry, hnone]

theorem residueRetry_goes {port : Nat} {k : Copy} {d : Chip} (hold : c.oldestResidue port = some (pid, k))
    (htry : c.residueTry pid k.cid k = some d) :
    c.residueRetry port = d.condEv 8 port 3 (d.oldestResidue port).isSome := by
  rw [Chip.residueRetry, hold]
  dsimp only
  rw [htry]

theorem residueTimeout_none {cid : Nat} (hnone : c.residueCopy pid cid = none) : c.residueTimeout pid cid = c := by
  rw [Chip.residueTimeout, hnone]

theorem residueTimeout_goes {cid : Nat} {k : Copy} {d : Chip} (hcopy : c.residueCopy pid cid = some k)
    (htry : c.residueTry pid cid k = some d) : c.residueTimeout pid cid = d := by
  rw [Chip.residueTimeout, hcopy]
  dsimp only
  rw [htry]

/-! ### Recirculation -/

section
variable (hpkt : c.pkt pid = some p) (hst : p.stage = .recircWait) (htail : p.tail = 1)
include hpkt hst htail

theorem recircEnqueue_full (hfull : 1024 ≤ (smGet (fun _ => []) c.tm.recirc p.slice).length) :
    c.recircEnqueue pid = c.dropTm pid 0xA := by
  rw [Chip.recircEnqueue, hpkt]
  exact (if_neg (by simp [hst, htail])).trans (if_pos hfull)

theorem recircEnqueue_room {fr : Bytes} (hroom : (smGet (fun _ => []) c.tm.recirc p.slice).length < 1024)
    (hfr : fr = c.editFrame p (c.encapBody p) p.frame) : c.recircEnqueue pid =
      { (c.setPkt pid { p with frame := fr, got := fr.length, stage := .recircQ }) with
        tm := { c.tm with recirc := smSet (fun _ => []) c.tm.recirc p.slice (smGet (fun _ => []) c.tm.recirc p.slice ++ [pid]) } } := by
  subst hfr
  rw [Chip.recircEnqueue, hpkt]
  dsimp only
  rw [if_neg (by simp [hst, htail]), if_neg (by omega)]
  rfl

end

theorem recircHandoff_empty {k : Nat} (hempty : smGet (fun _ => []) c.tm.recirc k = []) : c.recircHandoff k = c := by
  rw [Chip.recircHandoff, hempty]

theorem recircHandoff_next {k pipe : Nat} {r : List Nat} (hfirst : smGet (fun _ => []) c.tm.recirc k = pid :: r)
    (hpipe : c.pickPipe k = some pipe) : c.recircHandoff k = (({ c with tm := { c.tm with
      recirc := smSet (fun _ => []) c.tm.recirc k r, nextPassSeq := c.tm.nextPassSeq + 1 } }).updPkt pid
        fun (p : Pkt) => { p.nextPass with passSeq := c.tm.nextPassSeq }).openCtx pid pipe := by
  rw [Chip.recircHandoff, hfirst, hpipe]

/-! ### PFC -/

theorem pfcSend_none {port : Nat} (hnone : smGet (fun _ => 0) c.tm.pfcDue port = 0) : c.pfcSend port = c := by
  rw [Chip.pfcSend, hnone]
  exact if_pos rfl

theorem pfcSend_due {port n : Nat} (hdue : smGet (fun _ => 0) c.tm.pfcDue port = n) (hn : n ≠ 0) : c.pfcSend port =
    ({ c with tm := { c.tm with pfcDue := smErase c.tm.pfcDue port } }).sendMacControl port (n % 256) := by
  rw [Chip.pfcSend, hdue]
  exact if_neg hn

theorem pfcRefresh_idle {port : Nat} (hidle : c.getF F.TMG_PORT_PFC.STATE port = 0) : c.pfcRefresh port = c := by
  rw [Chip.pfcRefresh]
  exact if_pos hidle

theorem pfcRefresh_asks {port : Nat} (hstate : c.getF F.TMG_PORT_PFC.STATE port ≠ 0) :
    c.pfcRefresh port = c.sendMacControl port 0 := by
  rw [Chip.pfcRefresh]
  exact if_neg hstate

theorem sliceB_length (b : Bytes) (o n : Nat) : (sliceB b o n).length = n := by
  simp only [sliceB, List.length_append, List.length_replicate, List.length_take, List.length_drop]
  omega

theorem natLe_length (n x : Nat) : (natLe n x).length = n := by
  induction n generalizing x with
  | zero => rfl
  | succ n ih => rw [natLe, List.length_cons, ih]

theorem natBe_length (n x : Nat) : (natBe n x).length = n := by
  rw [natBe, List.length_reverse, natLe_length]

/-- What a frame of `n` bytes begins with. -/
theorem sliceB_begin {a r : Bytes} {k n : Nat} (hk : a.length = k) (hn : k ≤ n) : sliceB (sliceB (a ++ r) 0 n) 0 k = a := by
  have htake : (sliceB (a ++ r) 0 n).take k = a := by
    rw [sliceB, List.drop_zero, List.take_append_of_le_length (by simp only [List.length_take, List.length_append]; omega),
      List.take_take, Nat.min_eq_left hn, ← hk, List.take_left]
  rw [sliceB, List.drop_zero, htake, hk, Nat.sub_self]
  exact List.append_nil a

theorem pfcFrame_length {port b : Nat} : (c.pfcFrame port b).length = 60 := by
  rw [Chip.pfcFrame]
  exact sliceB_length _ _ _

theorem pfcFrame_address {port b : Nat} : sliceB (c.pfcFrame port b) 0 6 = natBe 6 0x0180C2000001 := by
  rw [Chip.pfcFrame, List.append_assoc, List.append_assoc]
  exact sliceB_begin (natBe_length 6 _) (by decide)

/-! ### Bindings -/

section
variable {d h : Nat}

theorem unbind_none (hnone : c.bindingOf d h = none) : c.unbind d h = c := by
  rw [Chip.unbind, hnone]

theorem unbind_ended {q : Nat} {b : Binding} (hsome : c.bindingOf d h = some (q, b)) (hst : b.state ≠ 1) : c.unbind d h = c := by
  rw [Chip.unbind, hsome]
  exact if_pos hst

theorem unbind_marks {q : Nat} {b : Binding} (hsome : c.bindingOf d h = some (q, b)) (hst : b.state = 1)
    (hnone : smFind c.tm.marks (c.classQueue b.port b.cls) = none) : c.unbind d h = ({ c with tm := { c.tm with
      bindings := smPut c.tm.bindings q { b with state := 2 },
      marks := smPut c.tm.marks (c.classQueue b.port b.cls) ⟨(c.queue (c.classQueue b.port b.cls)).length, [q]⟩ } }).settleBindings := by
  rw [Chip.unbind, hsome]
  dsimp only
  rw [if_neg (not_not.mpr hst), hnone]

end

end

/-- Settles O45: admission, the residue, recirculation, PFC and the end of a binding. -/
theorem admissionResidueAndRecirculation : Obligations.AdmissionResidueAndRecirculation := by
  unfold Obligations.AdmissionResidueAndRecirculation
  refine ⟨fun s pid p _ hpkt hheld => on_self (f := (·.admitCmd pid)) (admitCmd_held hpkt hheld),
    fun s pid p hvin hpkt hst hfree => on_eq (f := (·.admitCmd pid)) hvin (admitCmd_ready hpkt hst hfree),
    fun c p port q n m b hzone => ⟨admTest_zone hzone (by decide), admTest_zone hzone (by decide)⟩,
    fun c p port q n m hzone hport hen hpres => ?_,
    fun s p _ hnone => on_self (f := (·.residueRetry p)) (residueRetry_none hnone),
    fun s p pid k c hvin hold htry => on_eq (f := (·.residueRetry p)) hvin (residueRetry_goes hold htry),
    fun s pid cid _ hnone => on_self (f := (·.residueTimeout pid cid)) (residueTimeout_none hnone),
    fun s pid cid k c hvin hcopy htry => on_eq (f := (·.residueTimeout pid cid)) hvin (residueTimeout_goes hcopy htry),
    fun s pid p hvin hpkt hst htail hfull => on_eq (f := (·.recircEnqueue pid)) hvin (recircEnqueue_full hpkt hst htail hfull),
    fun s pid p fr hvin hpkt hst htail hroom hfr => ?_,
    fun s k _ hempty => on_self (f := (·.recircHandoff k)) (recircHandoff_empty hempty),
    fun s k pid pipe r hvin hfirst hpipe => on_eq (f := (·.recircHandoff k)) hvin (recircHandoff_next hfirst hpipe),
    fun s p hvin => ⟨fun hbusy => ?_, fun hidle hnone => ?_, fun d hidle hdue hd => ?_,
      fun hidle => on_self (f := (·.pfcRefresh p)) (pfcRefresh_idle hidle),
      fun hstate => on_eq (f := (·.pfcRefresh p)) hvin (pfcRefresh_asks hstate)⟩,
    fun c p b => ⟨pfcFrame_length, pfcFrame_address⟩,
    fun s d h _ hnone => on_self (f := (·.unbind d h)) (unbind_none hnone),
    fun s d h q b _ hsome hst => on_self (f := (·.unbind d h)) (unbind_ended hsome hst),
    fun s d h q b hvin hsome hst hnone => on_eq (f := (·.unbind d h)) hvin (unbind_marks hsome hst hnone)⟩
  · have hreach : Reaches c p port := ⟨hzone, hport, hen, hpres⟩
    exact ⟨hreach.down, hreach.passes, hreach.full⟩
  · have hran := recircEnqueue_room hpkt hst htail hroom hfr
    refine ⟨⟨s.chip.recircEnqueue pid, s.pending⟩, State.on_vin hvin (·.recircEnqueue pid), ?_, ?_, ?_⟩
    · rw [hran]
      exact (Chip.pkt_setPkt ..).trans (if_pos rfl)
    · rw [hran]
      exact (smGet_smSet ..).trans (if_pos rfl)
    · rw [hran]
      rfl
  · refine on_self (f := fun c => if (c.portSt p).txBusy.isNone then c.pfcSend p else c) (if_neg ?_)
    rwa [Option.isNone_iff_eq_none]
  · exact on_self (f := fun c => if (c.portSt p).txBusy.isNone then c.pfcSend p else c)
      ((if_pos (by rw [hidle]; rfl)).trans (pfcSend_none hnone))
  · exact on_eq (f := fun c => if (c.portSt p).txBusy.isNone then c.pfcSend p else c) hvin
      ((if_pos (by rw [hidle]; rfl)).trans (pfcSend_due hdue hd))

end Sys2Proof.Proofs
end

section
/-!
The scheduler: O46. The decision of a port, the end of a transmission, shapers, the gate lists and the observation of the queues.
-/
namespace Sys2Proof.Proofs
open Sys2Proof Sys2Proof.Machine
set_option Elab.async false

section
variable {c d : Chip} {p n v : Nat}

/-! ### The next frame -/

theorem drrPick_front {len : Nat → Option Nat} {qu : Nat → Nat} {m x : Nat} {l : List Nat} {df : SMap Nat} (hlen : len m = some x)
    (hfits : x ≤ smGet (fun _ => 0) df m) : drrPick len qu (n + 1) (m :: l) df = some (m, m :: l, df) := by
  have hfind : (m :: l).find? (fun m => (len m).isSome) = some m := List.find?_cons_of_pos (by rw [hlen]; rfl)
  rw [drrPick, hfind]
  dsimp only
  rw [hlen]
  exact if_pos (decide_eq_true hfits)

theorem frameTransmitted_idle (hidle : (c.portSt p).txBusy = none) : c.frameTransmitted p = c := by
  rw [Chip.frameTransmitted, hidle]

theorem frameTransmitted_copy {pid cid : Nat} {x : Pkt} {k : Copy} (hbusy : (c.portSt p).txBusy = some (pid, cid))
    (hpkt : c.pkt pid = some x) (hcopy : x.copies.find? (fun k => k.cid == cid) = some k) : c.frameTransmitted p =
      if x.tail = 1 then c.sentCopy pid x k else (c.bump F.TMG_CNT_UNDERRUN.V).stompCopy pid x k 0 := by
  rw [Chip.frameTransmitted, hbusy]
  dsimp only
  rw [hpkt]
  dsimp only
  rw [hcopy]

/-! ### Shapers -/

theorem shaperWrite_absent {reg : Nat} (hno : c.getF F.SCH_Q_INFO.KIND n = 0) (hreg : reg = 0 ∨ reg = 1) :
    c.shaperWrite 0 n reg v = c := by
  unfold Chip.shaperWrite
  obtain rfl | rfl := hreg
  · exact if_pos hno
  · exact if_pos hno

theorem shaperWrite_rate (hyes : c.getF F.SCH_Q_INFO.KIND n ≠ 0) :
    c.shaperWrite 0 n 0 v = (c.putF F.SCH_Q_SHP_RATE.V v n).shaperReset 0 n := by
  unfold Chip.shaperWrite
  exact if_neg hyes

theorem shaperWrite_classBurst :
    c.shaperWrite 1 n 1 v = (c.putF F.SCH_CL_SHP_BURST.V v (n / 16) (n % 16)).shaperReset 1 n := by
  unfold Chip.shaperWrite
  split
  case h_4 => rfl
  all_goals contradiction

theorem shaperWrite_portRate : c.shaperWrite 2 n 0 v = (c.putF F.SCH_PORT_SHP_RATE.V v n).shaperReset 2 n := by
  unfold Chip.shaperWrite
  split
  case h_6 => rfl
  all_goals contradiction

theorem shaperUpdate_queue : c.shaperUpdate 0 n = (c.updQ n).condEv 9 n 2 (!(c.updQ n).qConforms n) := by
  unfold Chip.shaperUpdate
  exact Eq.refl _

theorem shaperUpdate_class : c.shaperUpdate 1 n = c.updCls (n / 16) (n % 16) := by
  unfold Chip.shaperUpdate
  exact Eq.refl _

theorem shaperUpdate_port : c.shaperUpdate 2 n = c.updPort n := by
  unfold Chip.shaperUpdate
  exact Eq.refl _

/-! ### Gate lists -/

theorem gateStartCmd_noTime {b : Bool} (hinvalid : c.timeValid = false) : c.gateStartCmd p b = c.gateDone p stInvalid := by
  rw [Chip.gateStartCmd, hinvalid]
  rfl

/-- An empty list is accepted where time is valid and none is pending. -/
theorem gateStartCmd_empty {st : Nat × Nat} (hvalid : c.timeValid = true) (hlen : c.getF F.SCH_GATE_ADMIN_LEN.V p = 0)
    (hcycle : c.getF F.SCH_GATE_ADMIN_CYCLE.V p ≠ 0) (hnone : (c.gateSt p).pend = none)
    (hst : st = c.gateStart (c.getQ F.SCH_GATE_ADMIN_BASE.V p) (c.getF F.SCH_GATE_ADMIN_CYCLE.V p) false) (hok : st.2 = stOk) :
    c.gateStartCmd p false = ((c.setGate p { c.gateSt p with
      pend := some ⟨[], st.1, c.getF F.SCH_GATE_ADMIN_CYCLE.V p, false⟩ }).gateRegs p).gateDone p stOk := by
  have huse : (!false && c.getF F.SCH_GATE_ADMIN_CYCLE.V p == 0) = false := by simp [hcycle]
  rw [Chip.gateStartCmd, hvalid, hlen, ← hst, hok, hnone]
  dsimp only
  rw [huse, if_neg nofun]
  rfl

theorem gateCancelCmd_none (hnone : (c.gateSt p).pend = none) : c.gateCancelCmd p = c.gateDone p stInvalid := by
  rw [Chip.gateCancelCmd, hnone]
  exact if_pos rfl

theorem gateCancelCmd_pending (hsome : (c.gateSt p).pend ≠ none) :
    c.gateCancelCmd p = (c.gateCancel p).gateDone p stOk := by
  rw [Chip.gateCancelCmd]
  exact if_neg (by rwa [Option.isNone_iff_eq_none])

theorem gateSt_of_sched (h : d.sched = c.sched) : d.gateSt p = c.gateSt p := by
  rw [Chip.gateSt, Chip.gateSt, h]

theorem gateSt_setGate {g : GateSt} : (c.setGate p g).gateSt p = g := (smGet_smSet ..).trans (if_pos rfl)

theorem gateSt_gateCancel : (c.gateCancel p).gateSt p = { c.gateSt p with pend := none } := by
  unfold Chip.gateCancel
  exact (gateSt_of_sched (within_gateRegs ..).sched_eq).trans gateSt_setGate

theorem gateSt_gateOff : (c.gateOff p).gateSt p = { c.gateSt p with oper := none } := by
  unfold Chip.gateOff
  exact (gateSt_of_sched (within_gateRegs ..).sched_eq).trans gateSt_setGate

theorem pendStart_none (hnone : (c.gateSt p).pend = none) : c.pendStart p = c := by
  rw [Chip.pendStart, hnone]

theorem pendStart_due {l : GateList} (hsome : (c.gateSt p).pend = some l) (hdue : c.due l.base = true) :
    c.pendStart p = ((((({ c with time := { c.time with
      late := c.time.late.filter (· != PendAct.gate p) } } : Chip).setGate p ⟨some l, none⟩).gateRegs p).raise
        F.SCH_EVENTS.GATE_START).signal 11 0 1).portOversize p := by
  rw [Chip.pendStart, hsome]
  dsimp only
  rw [hdue]
  exact if_pos rfl

theorem gateEnd_due {l : GateList} (hsome : (c.gateSt p).oper = some l) (honce : l.oneshot = true)
    (hdue : c.due ((l.base + l.cycle * 2 ^ 16) % 2 ^ 64) = true) :
    c.gateEnd p = (c.gateOff p).raise F.SCH_EVENTS.GATE_END := by
  rw [Chip.gateEnd, hsome]
  dsimp only
  rw [honce, hdue]
  exact if_pos rfl

/-! ### Observation -/

theorem obsTick_watch (hwatch : c.watchMode = true) : c.obsTick = c := by
  rw [Chip.obsTick]
  exact if_pos hwatch

theorem obsTick_empty (htick : c.watchMode = false) (hempty : c.tm.qCells = []) :
    c.obsTick = { c.clearQueueRegs [0x20] with sched := { c.sched with obsSeen := [] } } := by
  have hclear := within_clearQueueRegs c [0x20]
  rw [Chip.obsTick, htick, if_neg nofun]
  dsimp only
  rw [hclear.tm_eq, hempty, List.foldl_nil, hclear.sched_eq]
  rfl

theorem setObs_eq {f : Chip → Chip} (hd : d = f c) : c.setObs f = if d.watchMode = c.watchMode then d else d.obsChanged := by
  rw [Chip.setObs, ← hd]

end

/-- Settles O46: decisions, transmissions, shapers, gates and observation. -/
theorem schedulerShapersGatesAndObservation : Obligations.SchedulerShapersGatesAndObservation := by
  unfold Obligations.SchedulerShapersGatesAndObservation
  refine ⟨fun s p _ hno => on_self (f := (·.schedDecision p)) (if_neg (by rw [hno]; nofun)),
    fun s p hvin hyes => on_eq (f := (·.schedDecision p)) hvin (if_pos hyes),
    fun len qu n m x l df hlen hfits => drrPick_front hlen hfits,
    fun s p _ hidle => on_self (f := (·.frameTransmitted p)) (frameTransmitted_idle hidle),
    fun s p pid cid x k hvin hbusy hpkt hcopy => ?_, fun s n hvin => ⟨?_, ?_, ?_⟩,
    fun s n v _ hno => ⟨?_, ?_⟩, fun s n v hvin hyes => ?_, fun s n v hvin => ⟨?_, ?_⟩,
    fun s p hvin => on_eq (f := (·.gateShow p)) hvin (by rw [Chip.gateShow]),
    fun s p b hvin hinvalid => on_eq (f := (·.gateStartCmd p b)) hvin (gateStartCmd_noTime hinvalid),
    fun s p st hvin hvalid hlen hcycle hnone hst hok => on_eq (f := (·.gateStartCmd p false)) hvin
      (gateStartCmd_empty hvalid hlen hcycle hnone hst hok),
    fun s p hvin => ⟨fun hnone => on_eq (f := (·.gateCancelCmd p)) hvin (gateCancelCmd_none hnone),
      fun hsome => on_eq (f := (·.gateCancelCmd p)) hvin (gateCancelCmd_pending hsome), State.on_vin hvin (·.gateStopCmd p)⟩,
    fun c p => ⟨gateSt_gateCancel, gateSt_gateOff⟩,
    fun s p _ hnone => on_self (f := (·.pendStart p)) (pendStart_none hnone),
    fun s p l hvin hsome hdue => on_eq (f := (·.pendStart p)) hvin (pendStart_due hsome hdue),
    fun s p l hvin hsome honce hdue => on_eq (f := (·.gateEnd p)) hvin (gateEnd_due hsome honce hdue),
    fun s _ hwatch => on_self (f := Chip.obsTick) (obsTick_watch hwatch),
    fun s hvin htick hempty => on_eq (f := Chip.obsTick) hvin (obsTick_empty htick hempty),
    fun s b c hvin hc => ⟨fun hsame => ?_, fun hnot => ?_⟩⟩
  · have hran := frameTransmitted_copy hbusy hpkt hcopy
    exact ⟨fun htail => on_eq (f := (·.frameTransmitted p)) hvin (hran.trans (if_pos htail)),
      fun htail => on_eq (f := (·.frameTransmitted p)) hvin (hran.trans (if_neg htail))⟩
  · exact on_eq (f := (·.shaperUpdate 0 n)) hvin shaperUpdate_queue
  · exact on_eq (f := (·.shaperUpdate 1 n)) hvin shaperUpdate_class
  · exact on_eq (f := (·.shaperUpdate 2 n)) hvin shaperUpdate_port
  · exact on_self (f := (·.shaperWrite 0 n 0 v.toNat)) (shaperWrite_absent hno (.inl rfl))
  · exact on_self (f := (·.shaperWrite 0 n 1 v.toNat)) (shaperWrite_absent hno (.inr rfl))
  · exact on_eq (f := (·.shaperWrite 0 n 0 v.toNat)) hvin (shaperWrite_rate hyes)
  · exact on_eq (f := (·.shaperWrite 1 n 1 v.toNat)) hvin shaperWrite_classBurst
  · exact on_eq (f := (·.shaperWrite 2 n 0 v.toNat)) hvin shaperWrite_portRate
  · exact on_eq (f := (·.setObs (·.putF F.SCH_OBS_CTRL.MODE (b2n b)))) hvin ((setObs_eq hc).trans (if_pos hsame))
  · exact on_eq (f := (·.setObs (·.putF F.SCH_OBS_CTRL.MODE (b2n b)))) hvin ((setObs_eq hc).trans (if_neg hnot))

end Sys2Proof.Proofs
end

section
/-!
Telemetry: O47. Event counters, port statistics and test strips.
-/
namespace Sys2Proof.Proofs
open Sys2Proof Sys2Proof.Machine
set_option Elab.async false

section
variable {c d : Chip} {f g : Fld} {i j k l n p v pid pipe : Nat}

/-- Two wide values at least 8 bytes apart. -/
theorem getQ_putQ_apart (h : g.addr k l + 8 ≤ f.addr i j ∨ f.addr i j + 8 ≤ g.addr k l) :
    (c.putQ f v i j).getQ g k l = c.getQ g k l :=
  getQ_of_rd (Chip.rd_putQ_ne (by omega) (by omega)) (Chip.rd_putQ_ne (by omega) (by omega))

/-! ### Counters -/

theorem addr_evCnt : F.TEL_EV_CNT.V.addr n 0 = 0x180000 + n * 8 := rfl

theorem addr_portCnt : F.TEL_PORT_CNT.V.addr p i = 0x100000 + p * 0x400 + i * 8 := rfl

theorem getQ_evClear_apart (h : k ≠ n) : (c.evClear n).getQ F.TEL_EV_CNT.V k = c.getQ F.TEL_EV_CNT.V k :=
  getQ_putQ_apart (by rw [addr_evCnt, addr_evCnt]; omega)

/-- The first `n` counters of port `p` cleared. -/
def countsCleared (c : Chip) (p n : Nat) : Chip := (List.range n).foldl (fun c i => c.putQ F.TEL_PORT_CNT.V 0 p i) c

theorem countsCleared_succ : countsCleared c p (n + 1) = (countsCleared c p n).putQ F.TEL_PORT_CNT.V 0 p n := by
  rw [countsCleared, List.range_succ, List.foldl_append]
  rfl

theorem getQ_countsCleared (h : i < n) : (countsCleared c p n).getQ F.TEL_PORT_CNT.V p i = 0 := by
  induction n with
  | zero => omega
  | succ n ih =>
    rw [countsCleared_succ]
    by_cases hi : i = n
    · rw [hi]
      exact Chip.getQ_putQ ..
    · rw [getQ_putQ_apart (by rw [addr_portCnt, addr_portCnt]; omega)]
      exact ih (by omega)

theorem getQ_countsCleared_other {q : Nat} (hq : q ≠ p) (hi : i < 127) (hn : n ≤ 127) :
    (countsCleared c p n).getQ F.TEL_PORT_CNT.V q i = c.getQ F.TEL_PORT_CNT.V q i := by
  induction n with
  | zero => rfl
  | succ n ih =>
    rw [countsCleared_succ, getQ_putQ_apart (by rw [addr_portCnt, addr_portCnt]; omega)]
    exact ih (by omega)

/-! ### Test strips -/

/-- A forced strip of a port. -/
def stripForced (c : Chip) (p : Nat) : Chip := (c.putF F.TEL_TS_FORCE.PORT p).putF F.TEL_TS_FORCE.GO 1

theorem getF_stripForced_port (hp : p < 512) : (stripForced c p).getF F.TEL_TS_FORCE.PORT = p := by
  unfold stripForced
  rw [Chip.getF_putF_bits (by decide) (by decide), Chip.getF_putF (by decide)]
  exact Nat.mod_eq_of_lt hp

theorem getF_stripForced_go : (stripForced c p).getF F.TEL_TS_FORCE.GO = 1 := Chip.getF_putF (by decide) ..

theorem pkts_stripForced : (stripForced c p).pkts = c.pkts := by
  unfold stripForced
  rw [(within_putF ..).pkts_eq, (within_putF ..).pkts_eq]

theorem getF_tsSeed : (c.putF F.TEL_TS_SEED.V v).tsSeed.getF F.TEL_TS_SEED.V = v % 2 ^ 32 := by
  unfold Chip.tsSeed
  rw [getF_of_regs (within_onTel ..).regs_eq]
  exact Chip.getF_putF (by decide) ..

theorem tsGenOf_tsSeed (hv : v < 2 ^ 32) : (c.putF F.TEL_TS_SEED.V v).tsSeed.tsGenOf pipe = Nat.xor v pipe := by
  have hseed := getF_tsSeed (c := c) (v := v)
  rw [Nat.mod_eq_of_lt hv] at hseed
  rw [Chip.tsGenOf, hseed]
  rfl

theorem stripTimeout_absent (h : c.pkt pid = none) : c.stripTimeout pid = c := by
  rw [Chip.stripTimeout, h]

theorem stripTimeout_strip {p : Pkt} {x : Strip} (hpkt : c.pkt pid = some p) (hstrip : p.strip = some x) :
    c.stripTimeout pid = if x.timedOut then c
      else (c.stripOut p x 5 0).updPkt pid fun p => { p with strip := some { x with timedOut := true } } := by
  rw [Chip.stripTimeout, hpkt]
  dsimp only
  rw [hstrip]

/-- A pipe's generator drawn once. -/
def genDrawn (c : Chip) (pipe : Nat) : Chip :=
  c.onTel fun t => { t with
    tsGen := smSet (fun k => Nat.xor (c.getF F.TEL_TS_SEED.V) k) t.tsGen pipe (lfsrNext (c.tsGenOf pipe)) }

theorem regs_genDrawn : (genDrawn c pipe).regs = c.regs := (within_onTel ..).regs_eq

theorem tsGenOf_genDrawn : (genDrawn c pipe).tsGenOf pipe = lfsrNext (c.tsGenOf pipe) := by
  rw [Chip.tsGenOf, getF_of_regs regs_genDrawn]
  exact (smGet_smSet ..).trans (if_pos rfl)

/-- Where strips are off a packet's draw has no other effect. -/
theorem stripSelect_off {p : Pkt} (hpkt : c.pkt pid = some p) (hoff : c.flag F.TEL_TS_CTRL.ENABLE = false) :
    c.stripSelect pid pipe = genDrawn c pipe := by
  have hoff' : (genDrawn c pipe).flag F.TEL_TS_CTRL.ENABLE = false := by
    rw [Chip.flag, getF_of_regs regs_genDrawn, ← Chip.flag, hoff]
  rw [Chip.stripSelect, hpkt]
  exact if_pos (by rw [← genDrawn, hoff']; rfl)

end

/-- Settles O47: counters are set, frozen and cleared alone; a strip is forced, drawn and timed out. -/
theorem countersStatisticsAndTestStrips : Obligations.CountersStatisticsAndTestStrips := by
  unfold Obligations.CountersStatisticsAndTestStrips
  refine ⟨fun s b hvin => ⟨_, State.on_vin hvin (·.putF F.TEL_EV_CTRL.FREEZE (b2n b)), rfl, ?_, rfl⟩,
    fun s n hvin => ⟨_, State.on_vin hvin (·.evClear n), Chip.getQ_putQ .., fun m _ hm => getQ_evClear_apart hm,
      (within_evClear ..).dram_eq, (within_evClear ..).hostMem_eq, rfl⟩,
    fun s p hvin => ⟨_, State.on_vin hvin (·.statsClear p), fun i hi => getQ_countsCleared hi,
      fun q i _ hi hq => getQ_countsCleared_other hq hi (Nat.le_refl 127), (within_statsClear s.chip p).dram_eq, rfl⟩,
    fun s p hvin => ⟨_, State.on_vin hvin (stripForced · p), getF_stripForced_port p.isLt, getF_stripForced_go,
      pkts_stripForced⟩,
    fun s v hvin => ⟨_, State.on_vin hvin fun c => (c.putF F.TEL_TS_SEED.V v.toNat).tsSeed,
      getF_tsSeed.trans (Nat.mod_eq_of_lt v.isLt), fun pipe => tsGenOf_tsSeed v.isLt⟩,
    fun s pid _ hno => on_self (f := (·.stripTimeout pid)) (stripTimeout_absent hno),
    fun s pid p x hvin hpkt hstrip => ?_, fun c pid pipe p hpkt hoff => ?_⟩
  · exact (Chip.getF_putF (by decide) ..).trans (by cases b <;> rfl)
  · have hran := stripTimeout_strip hpkt hstrip
    exact ⟨fun hout => on_self (f := (·.stripTimeout pid)) (hran.trans (if_pos hout)),
      fun hout => on_eq (f := (·.stripTimeout pid)) hvin (hran.trans (if_neg (by rw [hout]; nofun)))⟩
  · rw [stripSelect_off hpkt hoff]
    exact ⟨tsGenOf_genDrawn, (within_onTel ..).pkts_eq, regs_genDrawn⟩

end Sys2Proof.Proofs
end

section
/-!
The records of flows: O48. They leave the queue in order, as IPFIX messages or as items.
-/
namespace Sys2Proof.Proofs
open Sys2Proof Sys2Proof.Machine
set_option Elab.async false

section
variable {c d : Chip} {b : Bool} {l : List ExpRec} {reason : Nat} {r : Bytes}

/-! ### Offering a record -/

theorem exportOne_off (hoff : c.flag F.TEL_EXP_CTRL.ENABLE = false) : c.exportOne reason r = c := by
  rw [Chip.exportOne, hoff]
  exact if_pos rfl

theorem exportOne_full (hon : c.flag F.TEL_EXP_CTRL.ENABLE = true) (hfull : 65536 ≤ c.tel.expQ.length) :
    c.exportOne reason r = ((c.bump F.TEL_EXP_CNT_LOST.V).raise F.TEL_EVENTS.EXP_LOST).signal 13 0 3 := by
  rw [Chip.exportOne, hon, if_neg nofun]
  exact if_pos hfull

theorem tel_exportLost : (((c.bump F.TEL_EXP_CNT_LOST.V).raise F.TEL_EVENTS.EXP_LOST).signal 13 0 3).tel = c.tel := by
  rw [(within_signal ..).tel_eq, (within_raise ..).tel_eq, (within_bump ..).tel_eq]

theorem exportOne_room (hon : c.flag F.TEL_EXP_CTRL.ENABLE = true) (hroom : c.tel.expQ.length < 65536) :
    c.exportOne reason r = (c.setExpQ (c.tel.expQ ++ [⟨r, reason⟩])).signal 13 0 2 := by
  rw [Chip.exportOne, hon, if_neg nofun]
  exact if_neg (by unfold expQueueMax; omega)

theorem expQ_setExpQ {q : List ExpRec} : (c.setExpQ q).tel.expQ = q := by
  unfold Chip.setExpQ
  rw [(within_putF ..).tel_eq]
  rfl

/-! ### The scan -/

theorem scanVisit_off {e x : Nat} (hoff : c.flag F.TEL_EXP_CTRL.ENABLE = false) : c.scanVisit e x = c := by
  rw [Chip.scanVisit]
  exact if_pos (by rw [hoff]; rfl)

theorem getF_scanLateCheck {f : Fld} {i j start : Nat} (hf : apart F.TEL_EXP_CNT_SCAN_LATE.V 0 0 f i j)
    (hk : apart F.TEL_EVENTS.EXP_SCAN_LATE 0 0 f i j) (ho : offPba (f.addr i j)) :
    (c.scanLateCheck start).getF f i j = c.getF f i j := by
  unfold Chip.scanLateCheck
  exact ite_view (·.getF f i j) rfl ((getF_raise_apart (by decide) hk ho).trans (getF_bump_apart (by decide) hf))

/-- What is counted late is no part of the flow table. -/
theorem scanSlots_started {e b start : Nat} {st : Option Nat} :
    ((c.onTel fun t => { t with scanAt := st }).scanLateCheck start).scanSlots e b = c.scanSlots e b := by
  have hbase : ((c.onTel fun t => { t with scanAt := st }).scanLateCheck start).getF F.FLE_TBL_INFO.BASE_GIB =
      c.getF F.FLE_TBL_INFO.BASE_GIB :=
    getF_scanLateCheck (.inl (by decide)) (.inl (by decide)) (by decide)
  have htag : ∀ j, ((c.onTel fun t => { t with scanAt := st }).scanLateCheck start).tag e b j = c.tag e b j := fun j => by
    rw [Chip.tag, Chip.tagAddr, Chip.tagBase, hbase, Chip.dramRead, (within_scanLateCheck ..).dram_eq,
      (within_onTel ..).dram_eq, ← Chip.dramRead, ← Chip.tagBase, ← Chip.tagAddr, ← Chip.tag]
  unfold Chip.scanSlots
  simp only [htag]

theorem scanVisit_bucket {e x bk st : Nat} (hon : c.flag F.TEL_EXP_CTRL.ENABLE = true)
    (hactive : c.getF F.TEL_EXP_ACTIVE.V ≠ 0) (hflow : c.flowPresent = true) (hheld : c.engineHeld e = false)
    (hbk : bk = smGet (fun _ => 0) c.tel.scanPos e) (hin : bk < c.nbuckets) (hroom : c.tel.expQ.length + 8 ≤ 65536)
    (hawake : c.bankGated e = false) (hst : st = c.tel.scanAt.getD c.mt)
    (hd : d = (c.scanSlots e bk).foldl (fun c j => c.scanSlot e bk x j) ((c.onTel fun t => { t with
      scanAt := some st }).scanLateCheck st)) :
    c.scanVisit e x = (d.onTel fun t => { t with scanPos := smSet (fun _ => 0) t.scanPos e (bk + 1) }).scanEnd := by
  have hpos : ¬ c.nbuckets ≤ bk := by omega
  have hlen : ¬ expQueueMax < c.tel.expQ.length + 8 := by unfold expQueueMax; omega
  have hgo : (!c.flag F.TEL_EXP_CTRL.ENABLE || c.getF F.TEL_EXP_ACTIVE.V == 0 || !c.flowPresent || c.engineHeld e
      || decide (c.nbuckets ≤ bk) || decide (expQueueMax < c.tel.expQ.length + 8)) = false := by
    simp [hon, hactive, hflow, hheld, hpos, hlen]
  unfold Chip.scanVisit
  extract_lets b1 start c1 c2
  have hb1 : b1 = bk := hbk.symm
  refine (if_neg (by rw [hb1, hgo]; nofun)).trans ((if_neg (by rw [hawake]; nofun)).trans ?_)
  have hstart : start = st := hst.symm
  have hc2 : c2 = d := by rw [hd, ← scanSlots_started]; unfold c2 c1; rw [hb1, hstart]
  rw [hc2, hb1]

/-! ### Records out -/

theorem exportOut_empty (hnone : c.tel.expQ = []) : c.exportOut = c := by
  rw [Chip.exportOut, hnone]

theorem expTake_unlimited (hrate : c.getF F.TEL_EXP_RATE.V = 0) : c.expTake = (true, c) := by
  rw [Chip.expTake]
  exact if_pos hrate

section
variable {x : ExpRec} {q : List ExpRec}

theorem exportOut_message (hq : c.tel.expQ = x :: q) (hrate : c.getF F.TEL_EXP_RATE.V = 0)
    (hmode : c.flag F.TEL_EXP_CTRL.MODE = false) :
    c.exportOut = ((c.setExpQ q).putExport x).bump F.TEL_EXP_CNT_RECORDS.V := by
  rw [Chip.exportOut, hq, expTake_unlimited hrate]
  dsimp only
  exact if_neg (by rw [hmode]; nofun)

theorem exportOut_item (hq : c.tel.expQ = x :: q) (hrate : c.getF F.TEL_EXP_RATE.V = 0)
    (hmode : c.flag F.TEL_EXP_CTRL.MODE = true)
    (hoffer : c.offer (c.getF F.TEL_EXP_CTRL.CLASS) (exportItem x) none = (.accepted, d)) :
    c.exportOut = (d.setExpQ q).bump F.TEL_EXP_CNT_RECORDS.V := by
  rw [Chip.exportOut, hq, expTake_unlimited hrate]
  dsimp only
  rw [hoffer]
  exact if_pos hmode

theorem exportOut_limited (hq : c.tel.expQ = x :: q) (htake : c.expTake.1 = false) : c.exportOut = c.expTake.2 := by
  rcases hran : c.expTake with ⟨ok, e⟩
  obtain rfl : ok = false := by rwa [hran] at htake
  rw [Chip.exportOut, hq, hran]

theorem expQ_charged {used t0 : Nat} :
    (c.onTel fun t => { t with expUsed := used, expAt := t0 }).tel.expQ = c.tel.expQ := rfl

theorem expTake_rest : c.expTake.2.tel.expQ = c.tel.expQ ∧ c.expTake.2.regs = c.regs := by
  unfold Chip.expTake
  extract_lets rate used ok
  clear_value used ok
  by_cases hrate : rate = 0
  · rw [if_pos hrate]
    exact ⟨rfl, rfl⟩
  · rw [if_neg hrate]
    exact ⟨expQ_charged, (within_onTel ..).regs_eq⟩

end

/-! ### IPFIX messages -/

theorem flushMsg_empty (hnone : c.tel.expMsg = []) : c.flushMsg = c := by
  rw [Chip.flushMsg, hnone]
  rfl

theorem flushMsg_records (hl : c.tel.expMsg = l) (hne : l ≠ []) :
    c.flushMsg = (c.onTel fun t => { t with expMsg := [], expTmpl := false }).sendMsg c.tel.expTmpl l := by
  rw [Chip.flushMsg, hl]
  exact if_neg (by rwa [List.isEmpty_iff])

theorem expSeq_of_tel (h : d.tel = c.tel) : d.tel.expSeq = c.tel.expSeq := congrArg TelSt.expSeq h

theorem expSeq_condEv {blk inst ev : Nat} : (c.condEv blk inst ev b).tel.expSeq = c.tel.expSeq := by
  unfold Chip.condEv
  extract_lets key old t1 c1
  have hc1 : c1.tel.expSeq = c.tel.expSeq := rfl
  exact ite_view (·.tel.expSeq)
    ((foldl_view (·.tel.expSeq) (fun _ _ => expSeq_of_tel (within_evAdd ..).tel_eq) _ _).trans hc1) hc1

theorem expSeq_pfcChange {p back : Nat} : (c.pfcChange p back).tel.expSeq = c.tel.expSeq := by
  unfold Chip.pfcChange
  exact expSeq_condEv

theorem expSeq_pfcSet {p v back : Nat} :
    ((c.putF F.TMG_PORT_PFC.STATE v p).pfcChange p back).tel.expSeq = c.tel.expSeq :=
  expSeq_pfcChange.trans (expSeq_of_tel (within_putF ..).tel_eq)

theorem expSeq_pfcOff {p v back : Nat} :
    (((c.putF F.TMG_PORT_PFC.STATE v p).raise F.TMG_EVENTS.XOFF).pfcChange p back).tel.expSeq = c.tel.expSeq :=
  expSeq_pfcChange.trans (expSeq_of_tel ((within_raise ..).tel_eq.trans (within_putF ..).tel_eq))

theorem expSeq_pfcEval {p k : Nat} : (c.pfcEval p k).tel.expSeq = c.tel.expSeq := by
  unfold Chip.pfcEval
  extract_lets mode st xoff xon n n1
  exact ite_view (·.tel.expSeq) (ite_view (·.tel.expSeq) expSeq_pfcOff (ite_view (·.tel.expSeq) expSeq_pfcSet rfl))
    (ite_view (·.tel.expSeq) (ite_view (·.tel.expSeq) expSeq_pfcOff (ite_view (·.tel.expSeq) expSeq_pfcSet rfl))
      (ite_view (·.tel.expSeq) expSeq_pfcSet rfl))

theorem expSeq_holdCells {pid n : Nat} : (c.holdCells pid n).tel.expSeq = c.tel.expSeq := by
  unfold Chip.holdCells
  split
  · rfl
  next p _ =>
  extract_lets first taken
  have htaken : taken.2.tel.expSeq = c.tel.expSeq := by
    unfold taken
    split
    · split
      next heq =>
      have hd := expSeq_of_tel (Within.of_snd heq (within_takeBanks ..)).tel_eq
      dsimp only
      exact ite_view (·.tel.expSeq) hd hd
    · exact foldl_view (·.tel.expSeq) (fun _ _ => expSeq_of_tel (within_setBankUse ..).tel_eq) _ _
  clear_value taken
  split
  next bs d =>
  extract_lets c1 c2 k t c3
  have hc1 : c1.tel.expSeq = c.tel.expSeq := htaken
  have hc2 : c2.tel.expSeq = c.tel.expSeq :=
    ite_view (·.tel.expSeq) hc1 ((expSeq_of_tel (within_putF ..).tel_eq).trans hc1)
  have hc3 : c3.tel.expSeq = c.tel.expSeq := ite_view (·.tel.expSeq) hc2 hc2
  exact ite_view (·.tel.expSeq) (expSeq_pfcEval.trans ((expSeq_of_tel (within_putF ..).tel_eq).trans hc3)) hc3

theorem expSeq_handOver {p : Pkt} : (c.handOver p).tel.expSeq = c.tel.expSeq := by
  unfold Chip.handOver
  extract_lets pid n c1
  have hc1 : c1.tel.expSeq = c.tel.expSeq := expSeq_of_tel (within_addPkt ..).tel_eq
  exact ite_view (·.tel.expSeq)
    ((expSeq_of_tel ((within_rmPkt ..).tel_eq.trans (within_copyDropped ..).tel_eq)).trans hc1)
    (expSeq_holdCells.trans ((expSeq_of_tel (within_chargeCells ..).tel_eq).trans hc1))

theorem expSeq_sendMsg : (c.sendMsg b l).tel.expSeq = (c.tel.expSeq + l.length) % 2 ^ 32 := by
  unfold Chip.sendMsg
  extract_lets m c1 port p0 r c2
  have hc1 : c1.tel.expSeq = (c.tel.expSeq + l.length) % 2 ^ 32 := rfl
  have hc2 : c2.tel.expSeq = c1.tel.expSeq := expSeq_handOver
  have hring := (within_ringRecord c1 (c1.getF F.TEL_EXP_CTRL.RING) 4 m).tel_eq
  split
  · exact (expSeq_of_tel (within_bump ..).tel_eq).trans (hc2.trans hc1)
  · split
    next heq =>
      rw [heq] at hring
      exact (expSeq_of_tel ((within_bump ..).tel_eq.trans hring)).trans hc1
    next heq =>
      rw [heq] at hring
      exact (expSeq_of_tel (tel_exportLost.trans hring)).trans hc1

theorem sliceB_mid {a b r : Bytes} {o n : Nat} (ha : a.length = o) (hb : b.length = n) : sliceB (a ++ (b ++ r)) o n = b := by
  have htake : ((a ++ (b ++ r)).drop o).take n = b := by rw [← ha, List.drop_left, ← hb, List.take_left]
  rw [sliceB, htake, hb, Nat.sub_self]
  exact List.append_nil b

theorem sliceB_front {b r : Bytes} {n : Nat} (hb : b.length = n) : sliceB (b ++ r) 0 n = b := by
  rw [← List.nil_append (b ++ r)]
  exact sliceB_mid List.length_nil hb

theorem ipfixMsg_form : ∃ body : Bytes, c.ipfixMsg b l = natBe 2 10 ++ (natBe 2 (16 + body.length) ++ (natBe 4 c.utcSec ++
    (natBe 4 c.tel.expSeq ++ (natBe 4 (c.getF F.TEL_EXP_DOMAIN.V) ++ body)))) := by
  unfold Chip.ipfixMsg
  extract_lets body
  exact ⟨body, by simp only [List.append_assoc]⟩

/-- The header of a message: version, length, sequence number and domain. -/
theorem ipfixMsg_header : sliceB (c.ipfixMsg b l) 0 2 = natBe 2 10 ∧
    sliceB (c.ipfixMsg b l) 2 2 = natBe 2 (c.ipfixMsg b l).length ∧ sliceB (c.ipfixMsg b l) 8 4 = natBe 4 c.tel.expSeq ∧
    sliceB (c.ipfixMsg b l) 12 4 = natBe 4 (c.getF F.TEL_EXP_DOMAIN.V) := by
  obtain ⟨body, hform⟩ := ipfixMsg_form (c := c) (b := b) (l := l)
  have hlen : (c.ipfixMsg b l).length = 16 + body.length := by
    simp only [hform, List.length_append, natBe_length]
    omega
  rw [hlen, hform]
  refine ⟨sliceB_front (natBe_length ..), sliceB_mid (natBe_length ..) (natBe_length ..), ?_, ?_⟩
  · rw [← List.append_assoc, ← List.append_assoc]
    exact sliceB_mid (by simp only [List.length_append, natBe_length]) (natBe_length ..)
  · rw [← List.append_assoc, ← List.append_assoc, ← List.append_assoc]
    exact sliceB_mid (by simp only [List.length_append, natBe_length]) (natBe_length ..)

end

/-- Settles O48: records are offered, scanned and sent in order. -/
theorem flowRecordsAreExportedInOrder : Obligations.FlowRecordsAreExportedInOrder := by
  unfold Obligations.FlowRecordsAreExportedInOrder
  refine ⟨fun c reason r hoff => exportOne_off hoff, fun c reason r hon hroom => ?_, fun c reason r hon hfull => ⟨?_, ?_⟩,
    fun s e x hvin hoff => on_eq (f := fun c => (c.scanVisit e x).flush) hvin (congrArg _ (scanVisit_off hoff)),
    fun s e x c b st hvin hon hactive hflow hheld hb hin hroom hawake hst hc =>
      on_eq (f := fun c => (c.scanVisit e x).flush) hvin
        (congrArg _ (scanVisit_bucket hon hactive hflow hheld hb hin hroom hawake hst hc)),
    fun s _ hnone => on_self (f := Chip.exportOut) (exportOut_empty hnone),
    fun s x r hvin hq hrate hmode => on_eq (f := Chip.exportOut) hvin (exportOut_message hq hrate hmode),
    fun s x r c hvin hq hrate hmode hoffer => on_eq (f := Chip.exportOut) hvin (exportOut_item hq hrate hmode hoffer),
    fun s x r hvin hq htake => ⟨_, on_eq (f := Chip.exportOut) hvin (exportOut_limited hq htake),
      expTake_rest.1.trans hq, expTake_rest.2⟩,
    fun s _ hnone => on_self (f := Chip.flushMsg) (flushMsg_empty hnone),
    fun s l hvin hl hne => on_eq (f := Chip.flushMsg) hvin (flushMsg_records hl hne),
    fun c b l => expSeq_sendMsg, fun c b l => ipfixMsg_header,
    fun s _ hoff => on_self (f := Chip.templateRefresh) (if_neg (by rw [hoff]; nofun)),
    fun s hvin hon => on_eq (f := Chip.templateRefresh) hvin (if_pos hon)⟩
  · rw [exportOne_room hon hroom, (within_signal ..).tel_eq]
    exact expQ_setExpQ
  · rw [exportOne_full hon hfull]
    exact congrArg TelSt.expQ tel_exportLost
  · exact exportOne_full hon hfull

end Sys2Proof.Proofs
end

section
/-!
The host's window on DRAM: O49.
-/
namespace Sys2Proof.Proofs
open Sys2Proof Sys2Proof.Machine
set_option Elab.async false

section
variable {c d : Chip} {f g : Fld} {o a n k x space : Nat} {b : Byte} {bs : Bytes} {en : List Bool}

/-! ### Reads -/

/-- The bytes that a read returns: past the device's DRAM any value. -/
def windowBytes (c : Chip) (a n : Nat) : Bytes := (List.range n).map fun k =>
  if trainBase ≤ a + k then BitVec.ofNat 8 (c.freeNat / 2 ^ (8 * k)) else memByte c.dram (a + k)

theorem rdBytes_bar2Read : (c.bar2Read o n).host.rdBytes = windowBytes c (c.winAddr o) n := by
  unfold Chip.bar2Read
  extract_lets a free bs h d
  have hd : d.host.rdBytes = windowBytes c (c.winAddr o) n := rfl
  have hfree : d.useFree.host.rdBytes = d.host.rdBytes := congrArg HostSt.rdBytes (within_useFree d).host_eq
  split
  · exact hfree.trans hd
  · exact hd

theorem windowBytes_length : (windowBytes c a n).length = n := by
  rw [windowBytes, List.length_map, List.length_range]

theorem windowBytes_dram (h : a + n ≤ trainBase) : windowBytes c a n = memRead c.dram a n := by
  refine List.map_congr_left fun k hk => ?_
  have hk' := List.mem_range.1 hk
  exact if_neg (by omega)

theorem byteAt_windowBytes (hk : k < n) (h : a + k < trainBase) :
    byteAt (windowBytes c a n) k = (memByte c.dram (a + k)).toNat := by
  have hlen : k < (windowBytes c a n).length := by rwa [windowBytes_length]
  have hget : (windowBytes c a n)[k] = memByte c.dram (a + k) := by
    simp only [windowBytes, List.getElem_map, List.getElem_range]
    exact if_neg (by omega)
  rw [byteAt, List.getD_eq_getElem _ _ hlen, hget]

/-! ### Errors -/

theorem rd_hostErr (haddr : k + 4 ≤ 0x89010 ∨ 0x89018 ≤ k) (hf : k ≠ f.addr 0) (hpba : offPba k) :
    (c.hostErr f space a).rd k = c.rd k := by
  unfold Chip.hostErr
  extract_lets d
  have hd : d.rd k = c.rd k := ite_view (·.rd k)
    (Chip.rd_putQ_ne (by change k ≠ 0x89010; omega) (by change k ≠ 0x89014; omega)) rfl
  exact (Chip.rd_raise hf hpba.not_isPba).trans hd

theorem hostErr_captured (hcause : c.getF F.HST_ERR_CAUSE.all ≠ 0) : c.hostErr f space a = c.raise f := by
  rw [Chip.hostErr, if_neg hcause]

theorem getQ_hostErr_captured (hf : f.addr 0 0 = F.HST_ERR_CAUSE.all.base) (hcause : c.getF F.HST_ERR_CAUSE.all ≠ 0) :
    (c.hostErr f space a).getQ F.HST_ERR_ADDR.V = c.getQ F.HST_ERR_ADDR.V := by
  rw [hostErr_captured hcause]
  exact getQ_of_rd (Chip.rd_raise (by rw [hf]; decide) (offPba.not_isPba (by decide)))
    (Chip.rd_raise (by rw [hf]; decide) (offPba.not_isPba (by decide)))

/-! ### Writes -/

/-- The window and the flow table lie where they lay, as far as writes through the window ask. -/
structure SameWindow (c d : Chip) : Prop where
  win : d.getF F.HST_WIN_BASE.BASE_GIB = c.getF F.HST_WIN_BASE.BASE_GIB
  table : d.getF F.FLE_TBL_INFO.BASE_GIB = c.getF F.FLE_TBL_INFO.BASE_GIB
  slots : d.getF F.FLE_TBL_INFO.SLOTS_LOG2 = c.getF F.FLE_TBL_INFO.SLOTS_LOG2

theorem SameWindow.winAddr (h : SameWindow c d) : d.winAddr o = c.winAddr o := by
  rw [Chip.winAddr, h.win, ← Chip.winAddr]

theorem SameWindow.inFlowTable (h : SameWindow c d) : d.inFlowTable a = c.inFlowTable a := by
  have hslots : d.slotsLog2 = c.slotsLog2 := h.slots
  have hbase : d.tagBase = c.tagBase := by rw [Chip.tagBase, h.table, ← Chip.tagBase]
  have hrec : d.recBase = c.recBase := by
    unfold Chip.recBase
    rw [hbase, hslots]
  rw [Chip.inFlowTable, Chip.flowPresent, Chip.tableEnd, hslots, hbase, hrec, ← Chip.tableEnd, ← Chip.flowPresent,
    ← Chip.inFlowTable]

theorem SameWindow.of_regs (h : d.regs = c.regs) : SameWindow c d := ⟨getF_of_regs h .., getF_of_regs h .., getF_of_regs h ..⟩

theorem sameWindow_hostErr (hf : f.addr 0 = F.HST_ERR_CAUSE.all.base) : SameWindow c (c.hostErr f space a) :=
  ⟨getF_of_rd (rd_hostErr (by decide) (by rw [hf]; decide) (by decide)),
    getF_of_rd (rd_hostErr (by decide) (by rw [hf]; decide) (by decide)),
    getF_of_rd (rd_hostErr (by decide) (by rw [hf]; decide) (by decide))⟩

theorem bar2Byte_reserved (ha : a = c.winAddr o) (hres : inReserved a = true) :
    c.bar2Byte o b = c.hostErr F.HST_ERR_CAUSE.WIN_RESERVED 1 o := by
  rw [Chip.bar2Byte, ← ha]
  exact if_pos hres

theorem bar2Byte_table (ha : a = c.winAddr o) (hres : inReserved a = false) (htab : c.inFlowTable a = true) :
    c.bar2Byte o b = c.hostErr F.HST_ERR_CAUSE.WIN_FLOW_AREA 1 o := by
  rw [Chip.bar2Byte, ← ha, hres, if_neg nofun]
  exact if_pos htab

theorem bar2Byte_dram (ha : a = c.winAddr o) (hres : inReserved a = false) (htab : c.inFlowTable a = false) :
    c.bar2Byte o b = c.dramWrite a [b] := by
  rw [Chip.bar2Byte, ← ha, hres, if_neg nofun, htab, if_neg nofun]

/-- The host may write the byte. -/
def mayStore (c : Chip) (a : Nat) : Bool := !inReserved a && !c.inFlowTable a

/-- One byte through the window reaches its own place, and that where the host may write it. -/
theorem bar2Byte_effect (ha : a = c.winAddr o) : SameWindow c (c.bar2Byte o b) ∧
    memByte (c.bar2Byte o b).dram x = if x = a ∧ mayStore c a = true then b else memByte c.dram x := by
  cases hres : inReserved a with
  | true =>
    rw [bar2Byte_reserved ha hres, (within_hostErr ..).dram_eq, if_neg (by simp [mayStore, hres])]
    exact ⟨sameWindow_hostErr rfl, rfl⟩
  | false =>
    cases htab : c.inFlowTable a with
    | true =>
      rw [bar2Byte_table ha hres htab, (within_hostErr ..).dram_eq, if_neg (by simp [mayStore, htab])]
      exact ⟨sameWindow_hostErr rfl, rfl⟩
    | false =>
      rw [bar2Byte_dram ha hres htab]
      refine ⟨.of_regs rfl, (memByte_memWrite ..).trans ?_⟩
      have hmay : mayStore c a = true := by rw [mayStore, hres, htab]; rfl
      by_cases hx : x = a
      · rw [if_pos ⟨by omega, by rw [List.length_singleton]; omega⟩, if_pos ⟨hx, hmay⟩, hx, Nat.sub_self]
        rfl
      · rw [if_neg (by rw [List.length_singleton]; omega), if_neg fun h => hx h.1]

/-- What the bytes of a write leave at an address. -/
theorem memByte_bar2Bytes (ha : a = c.winAddr o) : memByte (c.bar2Bytes o bs en).dram x =
    if a ≤ x ∧ x < a + bs.length ∧ en.getD (x - a) true = true ∧ mayStore c x = true then bs.getD (x - a) 0
    else memByte c.dram x := by
  induction bs generalizing c o en a with
  | nil =>
    rw [Chip.bar2Bytes, if_neg]
    intro h
    rw [List.length_nil] at h
    omega
  | cons b bs ih =>
    rw [Chip.bar2Bytes]
    generalize hd : (if en.headD true then c.bar2Byte o b else c) = d
    have hbyte := bar2Byte_effect (b := b) (x := x) ha
    have hwin : SameWindow c d := by
      rw [← hd]
      split
      · exact hbyte.1
      · exact .of_regs rfl
    have hmem : memByte d.dram x = if x = a ∧ en.headD true = true ∧ mayStore c a = true then b else memByte c.dram x := by
      rw [← hd]
      split
      · next hon => rw [hbyte.2]; simp only [hon, true_and]
      · next hoff => rw [if_neg fun h => hoff h.2.1]
    have hnext : a + 1 = d.winAddr (o + 1) := by
      rw [hwin.winAddr, ha, Chip.winAddr, Chip.winAddr, Nat.add_assoc]
    have hmay : mayStore d x = mayStore c x := by rw [mayStore, hwin.inFlowTable, ← mayStore]
    rw [ih hnext, hmem, hmay]
    by_cases hx : x = a
    · have hhead : en.getD 0 true = en.headD true := by cases en <;> rfl
      rw [if_neg (by omega), hx, Nat.sub_self, hhead, List.length_cons]
      exact if_congr (by simp) rfl rfl
    · have hget : ∀ h : a + 1 ≤ x, x - a = x - (a + 1) + 1 := by omega
      rw [if_neg (fun h : x = a ∧ _ => hx h.1), List.length_cons]
      by_cases hlow : a + 1 ≤ x
      · have hen : en.getD (x - (a + 1) + 1) true = (en.drop 1).getD (x - (a + 1)) true := by cases en <;> rfl
        rw [hget hlow, hen, List.getD_cons_succ]
        exact if_congr (by simp only [show a + (bs.length + 1) = a + 1 + bs.length by omega, hlow,
          show a ≤ x by omega]) rfl rfl
      · rw [if_neg (by omega), if_neg (by omega)]

theorem dram_bar2Write : (c.bar2Write o bs en).dram = (c.bar2Bytes o bs en).dram := (within_breakWatch ..).dram_eq

end

/-- Settles O49: reads and writes through the window, byte by byte. -/
theorem dramWindowReadsAndWrites : Obligations.DramWindowReadsAndWrites := by
  unfold Obligations.DramWindowReadsAndWrites
  refine ⟨fun s o n hvin hin => ?_, fun s o n hvin => ?_, fun s o d en a hvin ha => ?_,
    fun c o a b ha hres => bar2Byte_reserved ha hres, fun c o a b ha hres htab => bar2Byte_table ha hres htab,
    fun c f space a hf hcause => getQ_hostErr_captured hf hcause⟩
  · have hran := within_bar2Read s.chip o n
    exact ⟨_, State.on_vin hvin (·.bar2Read o n), rdBytes_bar2Read.trans (windowBytes_dram hin), hran.regs_eq,
      hran.dram_eq, hran.hostMem_eq, rfl⟩
  · refine ⟨_, State.on_vin hvin (·.bar2Read o n), (congrArg _ rdBytes_bar2Read).trans windowBytes_length,
      fun k hk hin => ?_, (within_bar2Read s.chip o n).dram_eq⟩
    exact (congrArg (byteAt · k) rdBytes_bar2Read).trans (byteAt_windowBytes hk hin)
  · refine ⟨_, State.on_vin hvin (·.bar2Write o d en), rfl, fun x hx => ?_, fun k hk => ?_⟩
    · refine (congrArg (memByte · x) dram_bar2Write).trans ((memByte_bar2Bytes ha).trans (if_neg ?_))
      omega
    · refine (congrArg (memByte · (a + k)) dram_bar2Write).trans ((memByte_bar2Bytes ha).trans ?_)
      rw [Nat.add_sub_cancel_left]
      refine if_congr ?_ rfl rfl
      simp [mayStore, hk, and_assoc]

end Sys2Proof.Proofs
end

section
/-!
The table-access windows: O50.
-/
namespace Sys2Proof.Proofs
open Sys2Proof Sys2Proof.Machine
set_option Elab.async false

section
variable {c d : Chip} {w op t i : Nat} {tb : WinTab}

/-! ### The command's refusals -/

theorem twCmd_running (hrun : c.flag F.HST_TW_STATUS.RUNNING w = true) :
    c.twCmd w op t = c.putF F.HST_TW_STATUS.OVERRUN 1 w := by
  rw [Chip.twCmd, Chip.command]
  exact if_pos hrun

/-- Tables other than that of flows are read, and some are written. -/
theorem ops_of_winTab (htab : winTab t = some tb) (ht : t ≠ 1) : tb.ops = [1] ∨ tb.ops = [1, 2] := by
  unfold winTab at htab
  split at htab
  · exact absurd rfl ht
  all_goals cases htab
  all_goals decide

theorem contains_read (htab : winTab t = some tb) (ht : t ≠ 1) : tb.ops.contains 1 = true := by
  obtain h | h := ops_of_winTab htab ht
  · rw [h]; rfl
  · rw [h]; rfl

theorem contains_flowOp (htab : winTab t = some tb) (ht : t ≠ 1) (hop : op = 3 ∨ op = 4) : tb.ops.contains op = false := by
  obtain h | h := ops_of_winTab htab ht
  · obtain rfl | rfl := hop
    · rw [h]; rfl
    · rw [h]; rfl
  · obtain rfl | rfl := hop
    · rw [h]; rfl
    · rw [h]; rfl

section
variable (hidle : c.flag F.HST_TW_STATUS.RUNNING w = false) (hop : 1 ≤ op ∧ op ≤ 4)
include hidle hop

theorem twCmd_noTable (htab : winTab t = none) : c.twCmd w op t = c.twDone w stInvalid 0x10 := by
  rw [Chip.twCmd, command_of_idle (p := portTw) hidle, if_neg (by omega), htab]

variable (htab : winTab t = some tb)
include htab

theorem twCmd_notAllowed (ht : t ≠ 1) (hno : tb.ops.contains op = false) :
    c.twCmd w op t = c.twDone w stInvalid 0x12 := by
  rw [Chip.twCmd, command_of_idle (p := portTw) hidle, if_neg (by omega), htab]
  dsimp only
  rw [if_neg fun h => ht h.1, hno]
  exact if_pos rfl

theorem twCmd_table (ht : t ≠ 1) (hyes : tb.ops.contains op = true) : c.twCmd w op t =
    if t ≠ 0x12 ∧ tb.n ≤ c.getF F.HST_TW_INDEX.V w then c.twDone w stInvalid 0x11
    else if op = 1 then (if tb.n ≤ c.getF F.HST_TW_INDEX.V w then c.twDone w stInvalid 0x11
      else c.twRead w t (c.getF F.HST_TW_INDEX.V w) tb.bytes)
    else c.twWrite w t (c.getF F.HST_TW_INDEX.V w) tb.bytes := by
  rw [Chip.twCmd, command_of_idle (p := portTw) hidle, if_neg (by omega), htab]
  dsimp only
  rw [if_neg fun h => ht h.1, hyes, if_neg nofun, if_neg ht]

end

theorem twCmd_flow (hidle : c.flag F.HST_TW_STATUS.RUNNING w = false) (hflow : c.flowPresent = true)
    (hop : op = 1 ∨ op = 3 ∨ op = 4) : c.twCmd w op 1 = c.twFlow w op := by
  have hops : [1, 3, 4].contains op = true := by obtain rfl | rfl | rfl := hop <;> rfl
  rw [Chip.twCmd, command_of_idle (p := portTw) hidle, if_neg (by omega), show winTab 1 = some ⟨2 ^ 32, 128, [1, 3, 4]⟩ from rfl]
  dsimp only
  rw [hflow, if_neg fun h => absurd h.2 nofun, hops, if_neg nofun]
  exact if_pos rfl

/-! ### READ and WRITE -/

section
variable (hidle : c.flag F.HST_TW_STATUS.RUNNING w = false) (htab : winTab t = some tb) (ht : t ≠ 1)
include hidle htab ht

theorem twCmd_read_past (hpast : tb.n ≤ c.getF F.HST_TW_INDEX.V w) : c.twCmd w 1 t = c.twDone w stInvalid 0x11 := by
  rw [twCmd_table hidle (by decide) htab ht (contains_read htab ht)]
  by_cases h : t ≠ 0x12
  · exact if_pos ⟨h, hpast⟩
  · rw [if_neg fun hn => h hn.1, if_pos rfl]
    exact if_pos hpast

theorem twCmd_read (hi : i = c.getF F.HST_TW_INDEX.V w) (hin : i < tb.n) : c.twCmd w 1 t =
    ((c.twEntry t i).2.putWords (F.HST_TW_DATA.V.addr w 0) (sliceB (c.twEntry t i).1 0 tb.bytes)).twDone w stOk 0 := by
  rw [twCmd_table hidle (by decide) htab ht (contains_read htab ht), ← hi, if_neg (by omega), if_pos rfl,
    if_neg (by omega), Chip.twRead]

theorem twCmd_write (hyes : 2 ∈ tb.ops) (hi : i = c.getF F.HST_TW_INDEX.V w) (hin : i < tb.n) :
    c.twCmd w 2 t = c.twWrite w t i tb.bytes := by
  rw [twCmd_table hidle (by decide) htab ht (List.contains_iff_mem.2 hyes), ← hi, if_neg (by omega)]
  exact if_neg (by decide)

end

section
variable {n : Nat} {bs : Bytes} (hbs : bs = c.getBytes (F.HST_TW_DATA.V.addr w 0) n)
include hbs

theorem twWrite_stored (ht : t ≠ 0x12) (hok : c.twRefusal t i bs = none) :
    c.twWrite w t i n = (c.twStore t i bs).twDone w stOk 0 := by
  rw [Chip.twWrite, ← hbs, hok]
  exact if_neg ht

theorem twWrite_refused {st r : Nat} (hno : c.twRefusal t i bs = some (st, r)) :
    c.twWrite w t i n = (if st = stDenied then c.deniedCapture 1 (twCmdAddr w) 0 else c).twDone w st r := by
  rw [Chip.twWrite, ← hbs, hno]

end

/-! ### FLOW commands -/

/-- The op of a FLOW command. -/
def windowOp (c : Chip) (w op : Nat) (bs : Bytes) : FOp :=
  coreOp (if op = 1 then 5 else if op = 3 then 6 else 7) w 0 (sliceB bs 0 40) (c.h1Of (sliceB bs 0 40)) (c.h2Of (sliceB bs 0 40))
    0 (c.pol 0x214 2) bs c.mt

theorem twFlow_own {bs : Bytes} (hbs : bs = c.getBytes (F.HST_TW_DATA.V.addr w 0) 128)
    (hown : c.ownerOf (c.h1Of (sliceB bs 0 40)) = some c.ownDevice) : c.twFlow w op =
      { c.putF F.HST_TW_STATUS.RUNNING 1 w with
        act := { (c.putF F.HST_TW_STATUS.RUNNING 1 w).act with
          reqs := (c.putF F.HST_TW_STATUS.RUNNING 1 w).act.reqs ++ [windowOp c w op bs] }
        host := { (c.putF F.HST_TW_STATUS.RUNNING 1 w).host with
          win := smPut (c.putF F.HST_TW_STATUS.RUNNING 1 w).host.win w ⟨op, 1, 0, bs⟩ } } := by
  rw [Chip.twFlow, ← hbs]
  exact if_neg (not_not_intro hown)

/-! ### Withdrawal -/

theorem twTimeout_idle (hidle : c.flag F.HST_TW_STATUS.RUNNING w = false) : c.twTimeout w = c := by
  rw [Chip.twTimeout, hidle]
  exact if_pos rfl

/-- The device without the op of window `w`. -/
def opWithdrawn (c : Chip) (w : Nat) : Chip :=
  { c with
    act := { c.act with reqs := c.act.reqs.filter (fun o => !winOp w o) }
    host := { c.host with win := smErase c.host.win w }
    flow := { c.flow with
      eng := c.flow.eng.map (fun (e : Nat × EngSt) => (e.1, { e.2 with
        input := e.2.input.filter (fun o => !winOp w o)
        station := e.2.station.filter (fun o => !winOp w o) })) } }

theorem twTimeout_running (hrun : c.flag F.HST_TW_STATUS.RUNNING w = true) :
    c.twTimeout w = (opWithdrawn c w).twDone w stTimeout 0 := by
  rw [Chip.twTimeout, hrun, if_neg nofun]
  rfl

end

theorem smFind_smPut_self {β : Type} (m : SMap β) (k : Nat) (v : β) : smFind (smPut m k v) k = some v :=
  (smFind_smPut ..).trans (if_pos rfl)

/-- Settles O50: a window's refusals in order, its reads and writes, the ops of flows and their withdrawal. -/
theorem windowCommandsReadWriteAndRefuse : Obligations.WindowCommandsReadWriteAndRefuse := by
  unfold Obligations.WindowCommandsReadWriteAndRefuse
  refine ⟨fun s w tb hvin hrun => ⟨?_, ?_, ?_, ?_⟩, fun s w tb t hvin hidle htab ht => ?_,
    fun s w tb x hvin hidle htab hne => ⟨?_, ?_, fun hno => ?_, fun hpast => ?_⟩,
    fun s w tb x i hvin hidle htab hne hi hin => ?_,
    fun s w tb x i d hvin hidle htab hne hyes hi hd hin => ?_, fun s w hvin hidle hflow => ⟨?_, ?_, ?_⟩,
    fun c w op d hd hown => ?_, fun s w hvin hidle => ?_, fun s w c hvin hrun hc => ?_⟩
  · exact on_eq (f := fun c => (c.twCmd w 1 tb).flush) hvin (congrArg _ (twCmd_running hrun))
  · exact on_eq (f := fun c => (c.twCmd w 2 tb).flush) hvin (congrArg _ (twCmd_running hrun))
  · exact on_eq (f := fun c => (c.twCmd w 3 tb).flush) hvin (congrArg _ (twCmd_running hrun))
  · exact on_eq (f := fun c => (c.twCmd w 4 tb).flush) hvin (congrArg _ (twCmd_running hrun))
  · subst ht
    exact ⟨on_eq (f := fun c => (c.twCmd w 1 tb).flush) hvin (congrArg _ (twCmd_noTable hidle (by decide) htab)),
      on_eq (f := fun c => (c.twCmd w 2 tb).flush) hvin (congrArg _ (twCmd_noTable hidle (by decide) htab)),
      on_eq (f := fun c => (c.twCmd w 3 tb).flush) hvin (congrArg _ (twCmd_noTable hidle (by decide) htab)),
      on_eq (f := fun c => (c.twCmd w 4 tb).flush) hvin (congrArg _ (twCmd_noTable hidle (by decide) htab))⟩
  · have ht : tb.val ≠ 1 := fun h => hne (Fin.ext h)
    exact on_eq (f := fun c => (c.twCmd w 3 tb).flush) hvin
      (congrArg _ (twCmd_notAllowed hidle (by decide) htab ht (contains_flowOp htab ht (.inl rfl))))
  · have ht : tb.val ≠ 1 := fun h => hne (Fin.ext h)
    exact on_eq (f := fun c => (c.twCmd w 4 tb).flush) hvin
      (congrArg _ (twCmd_notAllowed hidle (by decide) htab ht (contains_flowOp htab ht (.inr rfl))))
  · have ht : tb.val ≠ 1 := fun h => hne (Fin.ext h)
    exact on_eq (f := fun c => (c.twCmd w 2 tb).flush) hvin
      (congrArg _ (twCmd_notAllowed hidle (by decide) htab ht (by simpa using hno)))
  · have ht : tb.val ≠ 1 := fun h => hne (Fin.ext h)
    exact on_eq (f := fun c => (c.twCmd w 1 tb).flush) hvin (congrArg _ (twCmd_read_past hidle htab ht hpast))
  · have ht : tb.val ≠ 1 := fun h => hne (Fin.ext h)
    exact on_eq (f := fun c => (c.twCmd w 1 tb).flush) hvin (congrArg _ (twCmd_read hidle htab ht hi hin))
  · have ht : tb.val ≠ 0x12 := fun h => hne (Fin.ext h)
    have ht1 : tb.val ≠ 1 := by
      intro h
      rw [h] at htab
      cases htab
      exact absurd hyes (by decide)
    have hran := twCmd_write hidle htab ht1 hyes hi hin
    refine ⟨fun hok => ?_, fun st r hno hst => ?_, fun r hno => ?_⟩
    · exact on_eq (f := fun c => (c.twCmd w 2 tb).flush) hvin (congrArg _ (hran.trans (twWrite_stored hd ht hok)))
    · have hdone := twWrite_refused (t := tb) (i := i) hd hno
      rw [if_neg hst] at hdone
      exact on_eq (f := fun c => (c.twCmd w 2 tb).flush) hvin (congrArg _ (hran.trans hdone))
    · have hdone := twWrite_refused (t := tb) (i := i) hd hno
      rw [if_pos rfl] at hdone
      exact on_eq (f := fun c => (c.twCmd w 2 tb).flush) hvin (congrArg _ (hran.trans hdone))
  · exact on_eq (f := fun c => (c.twCmd w 1 1).flush) hvin (congrArg _ (twCmd_flow hidle hflow (by decide)))
  · exact on_eq (f := fun c => (c.twCmd w 3 1).flush) hvin (congrArg _ (twCmd_flow hidle hflow (by decide)))
  · exact on_eq (f := fun c => (c.twCmd w 4 1).flush) hvin (congrArg _ (twCmd_flow hidle hflow (by decide)))
  · have hput := within_putF c F.HST_TW_STATUS.RUNNING 1 w 0
    rw [twFlow_own hd hown, hput.act_eq, hput.host_eq]
    exact ⟨rfl, smFind_smPut_self .., rfl⟩
  · exact on_eq (f := fun c => (c.twTimeout w).flush) hvin (congrArg _ (twTimeout_idle hidle))
  · subst hc
    exact on_eq (f := fun c => (c.twTimeout w).flush) hvin (congrArg _ (twTimeout_running hrun))

end Sys2Proof.Proofs
end

section
/-!
Rings, injection and interrupts: O51.
-/
namespace Sys2Proof.Proofs
open Sys2Proof Sys2Proof.Machine
set_option Elab.async false

section
variable {c d : Chip} {n v : Nat}

/-! ### Doorbells and enabling -/

theorem doorbell_over (h : 2 ^ c.getF F.HST_RING_CFG.SIZE_LOG2 n < (v + 2 ^ 16 - c.getF F.HST_RING_HEAD.V n) % 2 ^ 16) :
    c.doorbell n v = c.hostErr F.HST_ERR_CAUSE.RING_OVERPOST 0 (F.HST_RING_TAIL.V.addr n) := by
  rw [Chip.doorbell]
  exact if_pos h

theorem doorbell_taken (h : (v + 2 ^ 16 - c.getF F.HST_RING_HEAD.V n) % 2 ^ 16 ≤ 2 ^ c.getF F.HST_RING_CFG.SIZE_LOG2 n) :
    c.doorbell n v = c.putF F.HST_RING_TAIL.V v n := by
  rw [Chip.doorbell]
  exact if_neg (Nat.not_lt.2 h)

theorem posted_tail (hv : v < 2 ^ 16) :
    (c.putF F.HST_RING_TAIL.V v n).posted n = (v + 2 ^ 16 - c.getF F.HST_RING_HEAD.V n) % 2 ^ 16 := by
  rw [Chip.posted, Chip.getF_putF (by decide), getF_putF_apart (by decide) (apart_base (by rfl) (by decide))]
  rw [show v % 2 ^ F.HST_RING_TAIL.V.width = v from Nat.mod_eq_of_lt hv]

/-- Ring `n` enabled, with nothing posted. -/
def ringStarted (c : Chip) (n : Nat) : Chip :=
  (((c.putF F.HST_RING_CFG.ENABLE 1 n).putF F.HST_RING_STATUS.STOPPED 0 n).putF F.HST_RING_HEAD.V
    (c.getF F.HST_RING_TAIL.V n) n).setRing n RingSt.init

theorem ringEnable_start (hoff : c.flag F.HST_RING_CFG.ENABLE n = false) : c.ringEnable n true = ringStarted c n := by
  have htail : ((c.putF F.HST_RING_CFG.ENABLE 1 n).putF F.HST_RING_STATUS.STOPPED 0 n).getF F.HST_RING_TAIL.V n =
      c.getF F.HST_RING_TAIL.V n := by
    rw [getF_putF_apart (by decide) (apart_base (by rfl) (by decide)),
      getF_putF_apart (by decide) (apart_base (by rfl) (by decide))]
  rw [Chip.ringEnable, hoff]
  dsimp only
  rw [htail]
  rfl

theorem getF_ringStarted {f : Fld} (hs : F.HST_RING_HEAD.V.s1 = f.s1) (hb : F.HST_RING_HEAD.V.base ≠ f.base) :
    (ringStarted c n).getF f n =
      ((c.putF F.HST_RING_CFG.ENABLE 1 n).putF F.HST_RING_STATUS.STOPPED 0 n).getF f n := by
  unfold ringStarted
  rw [getF_of_regs (within_setRing ..).regs_eq]
  exact getF_putF_apart (by decide) (apart_base hs hb)

theorem tail_ringStarted : (ringStarted c n).getF F.HST_RING_TAIL.V n = c.getF F.HST_RING_TAIL.V n := by
  rw [getF_ringStarted (by rfl) (by decide), getF_putF_apart (by decide) (apart_base (by rfl) (by decide)),
    getF_putF_apart (by decide) (apart_base (by rfl) (by decide))]

theorem head_ringStarted : (ringStarted c n).getF F.HST_RING_HEAD.V n = c.getF F.HST_RING_TAIL.V n := by
  unfold ringStarted
  rw [getF_of_regs (within_setRing ..).regs_eq, Chip.getF_putF (by decide)]
  exact Nat.mod_eq_of_lt (bitsOf_lt ..)

theorem ringOn_ringStarted : (ringStarted c n).ringOn n = true := by
  rw [Chip.ringOn, Chip.flag, getF_ringStarted (by rfl) (by decide), Chip.getF_putF (by decide)]
  rfl

theorem enable_ringStarted : (ringStarted c n).flag F.HST_RING_CFG.ENABLE n = true := by
  rw [Chip.flag, getF_ringStarted (by rfl) (by decide), getF_putF_apart (by decide) (apart_base (by rfl) (by decide)),
    Chip.getF_putF (by decide)]
  rfl

theorem posted_ringStarted : (ringStarted c n).posted n = 0 := by
  rw [Chip.posted, tail_ringStarted, head_ringStarted, Nat.add_sub_cancel_left]
  rfl

theorem ringEnable_on (hon : c.flag F.HST_RING_CFG.ENABLE n = true) : c.ringEnable n true = c := by
  rw [Chip.ringEnable, hon]
  rfl

theorem ringEnable_stop : c.ringEnable n false = c.stopRing n := by
  rw [Chip.ringEnable]
  exact if_pos rfl

theorem ringOn_stopRing : (c.stopRing n).ringOn n = false := by
  unfold Chip.stopRing
  rw [Chip.ringOn, Chip.flag, getF_putF_apart (by decide) (apart_base (by rfl) (by decide)), Chip.getF_putF (by decide)]
  rfl

theorem enable_stopRing : (c.stopRing n).flag F.HST_RING_CFG.ENABLE n = false := by
  unfold Chip.stopRing
  rw [Chip.flag, Chip.getF_putF (by decide)]
  rfl

theorem dmaError_stopped (hoff : c.ringOn n = false) : c.dmaError n = c := by
  rw [Chip.dmaError, hoff]
  exact if_pos rfl

theorem dmaError_running (hon : c.ringOn n = true) : c.dmaError n =
    ((c.stopRing n).putF F.HST_RING_STATUS.ERROR 1 n).hostErr F.HST_ERR_CAUSE.DMA_FAULT 2
      (c.descAt n (c.getF F.HST_RING_HEAD.V n)) := by
  rw [Chip.dmaError, hon]
  exact if_neg nofun

/-! ### Injection -/

theorem inject1_nothing (h : c.ringOn n = false ∨ c.posted n = 0) : c.inject1 n = c := by
  rw [Chip.inject1]
  obtain h | h := h
  · exact if_pos (by simp [h])
  · exact if_pos (by simp [h])

/-- A well-formed packet of the receive path. -/
theorem inject1_received {ds : List InjDesc} {x : InjDesc} {port : Nat} {fr : Bytes} (hon : c.ringOn n = true)
    (hposted : c.posted n ≠ 0) (hwaits : c.injWaits n = false)
    (hds : c.injPacket n (min 16 (c.posted n)) (c.getF F.HST_RING_HEAD.V n) [] = some ds) (hhead : ds.head? = some x)
    (hfr : fr = ds.flatMap (fun d => memRead c.hostMem d.addr d.len)) (hport : port = x.info % 512)
    (hmode : x.info / 2 ^ 30 = 0) (hsop : x.sop = true) (hone : ds.tail.any (fun x => x.sop) = false)
    (hlens : ds.all (fun d => decide (1 ≤ d.len) && decide (d.len ≤ 16384)) = true) (hmin : 60 ≤ fr.length)
    (hmax : fr.length ≤ 12284) (hroom : cellsFor fr.length ≤ c.ingRoom (sliceOf port) + c.freeCells)
    (htake : c.cpTake 0 = (true, d)) (hpresent : d.portPresent port = true) (hpol : d.polBit 0x236 2 = true) :
    c.inject1 n = (d.injOut n 0 port (bitsOf 19 16 x.info) fr).injDone n stOk ds.length := by
  have hk : min 16 (c.posted n) ≠ 0 := by omega
  cases ds with
  | nil => cases hhead
  | cons y r =>
    cases hhead
    have hshape : ((x.sop && !r.any fun y => y.sop) &&
        (x :: r).all (fun d => decide (1 ≤ d.len) && decide (d.len ≤ 16384)) && decide (60 ≤ fr.length) &&
          decide (fr.length ≤ 12284)) = true := by
      rw [hsop, hlens, show (r.any fun y => y.sop) = false from hone, decide_eq_true hmin, decide_eq_true hmax]
      rfl
    rw [Chip.inject1, if_neg (by simp [hon, hk, hwaits]), hds]
    dsimp only
    rw [← hfr, ← hport, hmode, if_neg (Nat.not_lt.2 hroom), htake]
    dsimp only
    rw [hshape, hpresent, if_neg (by decide), hpol, if_neg nofun]

/-! ### Interrupts -/

/-- A message that is not masked changes no register. -/
theorem regs_message (hon : bitOf 0 (c.rd (F.HST_MSIX_TBL.V.addr v 3)).toNat = false) : (c.message v).regs = c.regs := by
  unfold Chip.message
  extract_lets w src
  rw [if_neg (by change ¬bitOf 0 (c.rd (F.HST_MSIX_TBL.V.addr v 3)).toNat = true; rw [hon]; nofun)]
  exact ite_view (·.regs) rfl rfl

/-- The vector's mask bit cleared. -/
def unmasked (c : Chip) (v : Nat) : Chip :=
  c.putF F.HST_MSIX_TBL.V (setBitsOf 0 0 (c.getF F.HST_MSIX_TBL.V v 3) 0) v 3

theorem toNat_rd_msix {k : Nat} : (c.rd (F.HST_MSIX_TBL.V.addr v k)).toNat = c.getF F.HST_MSIX_TBL.V v k := by
  rw [Chip.getF, bitsOf]
  exact ((Nat.mod_eq_of_lt (by rw [Nat.div_one]; exact BitVec.isLt _)).trans (Nat.div_one _)).symm

theorem bitOf_zero_setBitsOf (x : Nat) : bitOf 0 (setBitsOf 0 0 x 0 % 2 ^ 32) = false := by
  have h := bitsOf_setBitsOf 0 0 x 0 le_rfl
  simp only [bitsOf, bitOf] at *
  simp
  omega

theorem mask_unmasked : bitOf 0 ((unmasked c v).getF F.HST_MSIX_TBL.V v 3) = false := by
  unfold unmasked
  rw [Chip.getF_putF (by decide)]
  exact bitOf_zero_setBitsOf _

theorem addr_msix {k : Nat} : F.HST_MSIX_TBL.V.addr v k = 0x80000 + v * 0x10 + k * 4 := rfl

theorem addr_pba {k : Nat} : F.HST_MSIX_PBA.V.addr k 0 = 0x88000 + k * 4 := rfl

theorem msix_pending {w k x : Nat} (hw : w < 2048) (hk : k < 4) :
    ((unmasked c v).putF F.HST_MSIX_PBA.V x (v / 32)).getF F.HST_MSIX_TBL.V w k =
      (unmasked c v).getF F.HST_MSIX_TBL.V w k :=
  Chip.getF_putF_ne (by rw [addr_msix, addr_pba]; omega)

/-- A pending message is sent and no entry of the table changes but the vector's mask. -/
theorem msix_unmask {w k : Nat} (hv : v < 2048) (hw : w < 2048) (hk : k < 4) :
    (c.unmask v).getF F.HST_MSIX_TBL.V w k = (unmasked c v).getF F.HST_MSIX_TBL.V w k := by
  unfold Chip.unmask
  extract_lets d x
  refine ite_view (·.getF F.HST_MSIX_TBL.V w k) ?_ rfl
  have hmask : bitOf 0 (((d.putF F.HST_MSIX_PBA.V (setBitsOf (v % 32) (v % 32) x 0) (v / 32)).rd
      (F.HST_MSIX_TBL.V.addr v 3)).toNat) = false := by
    rw [toNat_rd_msix]
    exact (congrArg _ (msix_pending hv (by decide))).trans mask_unmasked
  exact (getF_of_regs (regs_message hmask) ..).trans (msix_pending hw hk)

theorem msix_unmasked_other {w k : Nat} (hk : k < 4) (hne : w ≠ v ∨ k ≠ 3) :
    (unmasked c v).getF F.HST_MSIX_TBL.V w k = c.getF F.HST_MSIX_TBL.V w k :=
  Chip.getF_putF_ne (by rw [addr_msix, addr_msix]; omega)

end

/-- Settles O51: doorbells, rings, injected packets and the unmasking of a vector. -/
theorem ringsInjectAndInterrupt : Obligations.RingsInjectAndInterrupt := by
  unfold Obligations.RingsInjectAndInterrupt
  refine ⟨fun s n v hvin => ⟨fun hover => on_eq (f := (·.doorbell n v)) hvin (doorbell_over hover), fun hok => ?_⟩,
    fun s n hvin hoff => ⟨_, on_eq (f := (·.ringEnable n true)) hvin (ringEnable_start hoff), ringOn_ringStarted,
      enable_ringStarted, posted_ringStarted, tail_ringStarted⟩,
    fun s n hvin => ⟨fun hon => on_self (f := (·.ringEnable n true)) (ringEnable_on hon),
      on_eq (f := (·.ringEnable n false)) hvin ringEnable_stop⟩,
    fun c n _ => ⟨ringOn_stopRing, enable_stopRing⟩,
    fun s n hvin hopen => ?_, fun s n hvin hclosed => ?_, fun s n hvin => ⟨fun hnone => ?_, fun hsome => ?_⟩,
    fun s n hvin => ⟨fun hoff => on_self (f := (·.dmaError n)) (dmaError_stopped hoff),
      fun hon => on_eq (f := (·.dmaError n)) hvin (dmaError_running hon)⟩,
    fun s r hvin hnone => on_self (f := (·.inject1 (512 + r))) (inject1_nothing hnone),
    fun s r ds d c n port fr hvin hn hon hposted hwaits hds hhead hfr hport hmode hpres hpol hsop hone hlens hmin hmax hroom
      htake hpres' hpol' => ?_,
    fun s v hvin => ?_⟩
  · have htaken := doorbell_taken hok
    refine ⟨_, on_eq (f := (·.doorbell n v)) hvin htaken, ?_, posted_tail v.isLt, (within_putF ..).hostMem_eq⟩
    exact (Chip.getF_putF (by decide) ..).trans (Nat.mod_eq_of_lt v.isLt)
  · exact on_eq (f := fun c => if c.ringOn n.val && c.flag F.HST_RING_CFG.MODE n.val then c.closeBuf n.val else c) hvin
      (if_pos hopen)
  · exact on_self (f := fun c => if c.ringOn n.val && c.flag F.HST_RING_CFG.MODE n.val then c.closeBuf n.val else c)
      (if_neg (by rw [hclosed]; nofun))
  · exact on_self (f := fun c => if (c.ringSt n.val).done = 0 then c else c.ringMessage n.val) (if_pos hnone)
  · refine on_eq (f := fun c => if (c.ringSt n.val).done = 0 then c else c.ringMessage n.val) hvin ((if_neg hsome).trans ?_)
    rw [Chip.ringMessage]
  · subst hn
    exact on_eq (f := (·.inject1 (512 + r.val))) hvin (inject1_received hon hposted hwaits hds hhead hfr hport hmode hsop
      hone hlens hmin hmax hroom htake hpres' hpol')
  · refine ⟨_, State.on_vin hvin (·.unmask v.val), ?_, fun w k hw hk hne => ?_, (within_unmask s.chip v.val).dram_eq⟩
    · exact (congrArg (bitOf 0) (msix_unmask v.isLt v.isLt (by decide))).trans mask_unmasked
    · exact (msix_unmask v.isLt hw hk).trans (msix_unmasked_other hk hne)

end Sys2Proof.Proofs
end

section
/-!
The resets of the host interface: O52.
-/
namespace Sys2Proof.Proofs
open Sys2Proof Sys2Proof.Machine
set_option Elab.async false

section
variable {c : Chip} {a n : Nat} {flr : Bool}

/-- An address outside the registers of the host interface. -/
abbrev offHost (a : Nat) : Prop := a < 0x80000 ∨ 0x100000 ≤ a

theorem regs_hostReset : c.hostReset.regs = c.regs.filter (fun e => decide (e.1 < 0x80000) || decide (0x100000 ≤ e.1)) := rfl

theorem rd_hostReset_off (ha : offHost a) : c.hostReset.rd a = c.rd a := by
  have hkeep : ∀ v : Word, (decide ((a, v).1 < 0x80000) || decide (0x100000 ≤ (a, v).1)) = true := fun v => by
    rw [← Bool.decide_or]
    exact decide_eq_true ha
  rw [Chip.rd, Chip.rd, regs_hostReset, smGet, smGet, smFind_filter _ _ _ hkeep]

theorem rd_hostReset_host (ha : 0x80000 ≤ a ∧ a < 0x100000) : c.hostReset.rd a = regReset a := by
  have hdrop : ∀ v : Word, (decide ((a, v).1 < 0x80000) || decide (0x100000 ≤ (a, v).1)) = false := fun v => by
    rw [← Bool.decide_or]
    exact decide_eq_false (by dsimp only; omega)
  rw [Chip.rd, regs_hostReset, smGet, smFind_filter_out _ _ _ hdrop]
  rfl

theorem reqs_hostReset {o : FOp} (h : o ∈ c.hostReset.act.reqs) : winAny o = false := by
  have hmem : o ∈ c.act.reqs.filter (fun o => !winAny o) := h
  simpa using (List.mem_filter.1 hmem).2

/-! ### The link after a reset -/

theorem land_linkMask_lt {v : Word} : Nat.land v.toNat linkMask < 2 ^ 32 := lt_of_le_of_lt Nat.and_le_left v.isLt

theorem hotReset_link {v : Word} : ((c.hotReset flr v.toNat).rd F.HST_LINK_STATUS.all.base).toNat =
    if flr then (c.rd F.HST_LINK_STATUS.all.base).toNat else Nat.land v.toNat linkMask := by
  unfold Chip.hotReset
  rw [Chip.rd_wr_same, BitVec.toNat_ofNat]
  cases flr with
  | true => exact Nat.mod_eq_of_lt (c.rd _).isLt
  | false => exact Nat.mod_eq_of_lt land_linkMask_lt

theorem addr_linkStatus : ¬offHost F.HST_LINK_STATUS.all.base := by decide

theorem rd_hotReset_off {link : Nat} (ha : offHost a) : (c.hotReset flr link).rd a = c.rd a := by
  have hne : a ≠ F.HST_LINK_STATUS.all.base := fun h => addr_linkStatus (by rwa [h] at ha)
  rw [Chip.hotReset]
  exact (Chip.rd_wr_ne hne).trans (rd_hostReset_off ha)

theorem hotReset_rest {link : Nat} : ∃ v, c.hotReset flr link = c.hostReset.wr F.HST_LINK_STATUS.all.base v :=
  ⟨_, by rw [Chip.hotReset]⟩

theorem hostReset_rest : c.hostReset.host.rings = [] ∧ c.hostReset.host.win = [] ∧ c.hostReset.dram = c.dram ∧
    c.hostReset.hostMem = c.hostMem ∧ c.hostReset.pkts = c.pkts :=
  ⟨rfl, rfl, rfl, rfl, rfl⟩

/-- The device after PERST#, before the link trains. -/
def perstReleased (c : Chip) : Chip := { c with host := { c.host with perst := false } }

theorem perstOff_unpowered {link : Nat} (hvin : c.power.vin = false) : c.perstOff link = perstReleased c := by
  rw [Chip.perstOff]
  exact if_neg (by dsimp only; rw [hvin]; nofun)

theorem perstOff_powered {link : Nat} (hvin : c.power.vin = true) : c.perstOff link =
    (perstReleased c).wr F.HST_LINK_STATUS.all.base (BitVec.ofNat 32 (Nat.land link linkMask)) := by
  rw [Chip.perstOff]
  exact if_pos hvin

theorem perst_perstOff {link : Nat} : (c.perstOff link).host.perst = false := by
  cases hvin : c.power.vin with
  | true =>
    rw [perstOff_powered hvin, (within_wr ..).host_eq]
    rfl
  | false =>
    rw [perstOff_unpowered hvin]
    rfl

end

/-- Settles O52: what the resets of the host interface return to reset values and what they keep. -/
theorem hostResetsLeaveTheDeviceRunning : Obligations.HostResetsLeaveTheDeviceRunning := by
  unfold Obligations.HostResetsLeaveTheDeviceRunning
  refine ⟨fun s => onAny_of (f := Chip.fundamentalReset) (by rw [Chip.fundamentalReset]),
    fun s l => ⟨⟨s.chip.perstOff l.toNat, s.pending⟩, onAny_of (f := (·.perstOff l.toNat)) rfl, perst_perstOff, fun hvin => ?_, fun hvin => ?_⟩,
    fun s flr l hvin => ?_, fun c a => ⟨rd_hostReset_host, rd_hostReset_off⟩, fun c o h => reqs_hostReset h,
    fun s hvin => on_eq (f := Chip.stopRings) hvin (by rw [Chip.stopRings])⟩
  · rw [perstOff_unpowered hvin]
    rfl
  · rw [perstOff_powered hvin, Chip.rd_wr_same, BitVec.toNat_ofNat]
    exact Nat.mod_eq_of_lt land_linkMask_lt
  · obtain ⟨v, hreset⟩ := hotReset_rest (c := s.chip) (flr := flr) (link := l.toNat)
    have hwr := within_wr s.chip.hostReset F.HST_LINK_STATUS.all.base v
    obtain ⟨hrings, hwin, hdram, hmem, hpkts⟩ := hostReset_rest (c := s.chip)
    refine ⟨_, State.on_vin hvin (·.hotReset flr l.toNat), hotReset_link, fun a ha => rd_hotReset_off ha, ?_, ?_, ?_, ?_,
      ?_, rfl⟩
    · exact (congrArg (·.host.rings) hreset).trans ((congrArg HostSt.rings hwr.host_eq).trans hrings)
    · exact (congrArg (·.host.win) hreset).trans ((congrArg HostSt.win hwr.host_eq).trans hwin)
    · exact (congrArg Chip.dram hreset).trans (hwr.dram_eq.trans hdram)
    · exact (congrArg Chip.hostMem hreset).trans (hwr.hostMem_eq.trans hmem)
    · exact (congrArg Chip.pkts hreset).trans (hwr.pkts_eq.trans hpkts)

end Sys2Proof.Proofs
end

section
/-!
Gang links: O53. Frames taken by header and device, HELLO, link sets, oldest versions and unbind notices.
-/
namespace Sys2Proof.Proofs
open Sys2Proof Sys2Proof.Machine
set_option Elab.async false

section
variable {c d e : Chip} {p ty n : Nat} {b : Bool} {fr : Bytes}

/-! ### Taking a gang frame -/

theorem gangTake_off (hoff : (c.gangPort p && c.portUp p) = false) : c.gangTake p ty b fr = (false, c) := by
  rw [Bool.and_eq_false_iff] at hoff
  rw [Chip.gangTake]
  obtain h | h := hoff
  · exact if_pos (by rw [h]; rfl)
  · exact if_pos (by rw [h]; exact Bool.or_true _)

theorem gangTake_up (hport : c.gangPort p = true) (hup : c.portUp p = true)
    (hd : d = c.rxGood p (max 64 (fr.length + 4)) fr) : c.gangTake p ty b fr =
      if byteAt fr 14 / 16 ≠ 1 then (false, d) else (beAt fr 12 2 == 0x88B5 && byteAt fr 14 % 16 == ty &&
        byteAt fr 16 / 4 % 4 == (d.seqCheck p fr).getF F.GNG_STATUS.DEVICE &&
          (b || (smFind (d.seqCheck p fr).gang.inService p).isSome), d.seqCheck p fr) := by
  rw [Chip.gangTake, if_neg (by rw [hport, hup]; nofun), hd]

theorem gangTake_taken (h : c.gangTake p ty false fr = (true, d)) : c.gangPort p = true ∧ c.portUp p = true ∧
    byteAt fr 14 = 16 + ty ∧ byteAt fr 16 / 4 % 4 = d.getF F.GNG_STATUS.DEVICE ∧ (smFind d.gang.inService p).isSome = true := by
  cases hon : c.gangPort p && c.portUp p with
  | false =>
    rw [gangTake_off hon] at h
    cases h
  | true =>
    obtain ⟨hport, hup⟩ := Bool.and_eq_true_iff.1 hon
    rw [gangTake_up hport hup rfl] at h
    by_cases hver : byteAt fr 14 / 16 ≠ 1
    · rw [if_pos hver] at h
      cases h
    · rw [if_neg hver, Prod.mk.injEq] at h
      obtain ⟨htest, rfl⟩ := h
      simp only [Bool.false_or, Bool.and_eq_true, beq_iff_eq] at htest
      obtain ⟨⟨⟨-, htype⟩, hdev⟩, hserv⟩ := htest
      exact ⟨hport, hup, by omega, hdev, hserv⟩

variable {k : Nat → Bytes → Chip → Chip}

theorem ctrlTake_not (h : c.gangTake p 6 (n == 1) fr = (false, d)) : c.ctrlTake p n fr k = d := by
  rw [Chip.ctrlTake, h]

theorem ctrlTake_taken (h : c.gangTake p 6 (n == 1) fr = (true, d)) :
    c.ctrlTake p n fr k = if byteAt fr 46 = n then k (gfSrc fr) (sliceB fr 54 72) d else d := by
  rw [Chip.ctrlTake, h]

/-! ### HELLO -/

theorem helloRx_not (h : c.gangTake p 6 true fr = (false, d)) : c.helloRx p fr = d := by
  rw [Chip.helloRx]
  exact ctrlTake_not h

theorem helloRx_taken (h : c.gangTake p 6 true fr = (true, d)) (hsub : byteAt fr 46 = 1)
    (hin : d.domainOut 7 (gfSrc fr) = false) : c.helloRx p fr =
      if beAt (sliceB fr 54 72) 0 4 = d.cfgCheck then
        (d.onGang fun g => { g with hellos := smPut g.hellos (gfSrc fr) (sliceB fr 54 72) }).enterService p (gfSrc fr)
      else ((d.leaveService p).putF F.GNG_PEER_STATUS.LINK_STATE 2 (gfSrc fr)).raise F.GNG_EVENTS.MISMATCH := by
  rw [Chip.helloRx, ctrlTake_taken (n := 1) h, if_pos hsub]
  exact if_neg (by rw [hin]; nofun)

/-- HELLO where the port is a gang port that is UP. -/
def helloTick (c : Chip) (p : Nat) : Chip := if c.gangPort p && c.portUp p then c.helloOut p else c

theorem helloTick_up (hport : c.gangPort p = true) (hup : c.portUp p = true) : helloTick c p =
    c.ctrlOut p (c.capDevice p) 1 (natBe 4 c.cfgCheck ++ natBe 1 (c.getF F.GNG_STATUS.STATE) ++
      natBe 1 (c.getF F.GNG_STATUS.MEMBERS) ++ natBe 1 (c.getF F.GNG_STATUS.COORD) ++ natBe 1 c.gang.partner ++
        mapBytes c.mapList) := by
  rw [helloTick, if_pos (by rw [hport, hup]; rfl), Chip.helloOut, if_neg (by rw [hport, hup]; nofun)]

theorem helloTick_off (hport : c.gangPort p = false) : helloTick c p = c := by
  rw [helloTick]
  exact if_neg (by rw [hport]; nofun)

/-! ### Entering and leaving service -/

theorem leaveService_out (hout : smFind c.gang.inService p = none) : c.leaveService p = c := by
  rw [Chip.leaveService, hout]

theorem service_of_gang (h : d.gang = c.gang) : d.gang.inService = c.gang.inService := congrArg GangSt.inService h

theorem service_gangOut {port dev : Nat} {body : Bytes} :
    (c.gangOut port dev ty body).gang.inService = c.gang.inService := by
  unfold Chip.gangOut
  extract_lets f e
  have he : e.gang.inService = c.gang.inService := (service_of_gang (within_txStats ..).gang_eq).trans rfl
  exact (service_of_gang (within_setPort ..).gang_eq).trans he

theorem service_dropEntry {x : Nat} {v : Machine.Ctx} {ent : CEnt} :
    (c.dropEntry x v ent).gang.inService = c.gang.inService := by
  unfold Chip.dropEntry
  exact ite_view (·.gang.inService) rfl (ite_view (·.gang.inService) service_gangOut
    (ite_view (·.gang.inService) (service_of_gang (within_abandon ..).gang_eq) rfl))

theorem service_dropSet {x : Nat} : (c.dropSet x).gang.inService = c.gang.inService := by
  unfold Chip.dropSet
  extract_lets v c1 c2 a c3
  have hc1 : c1.gang.inService = c.gang.inService := foldl_view (·.gang.inService) (fun _ _ => service_dropEntry) _ _
  have hc2 : c2.gang.inService = c.gang.inService :=
    (foldl_view (·.gang.inService) (fun _ _ => service_of_gang (within_giveSlot ..).gang_eq) _ _).trans hc1
  have hc3 : c3.gang.inService = c.gang.inService := hc2
  exact (service_of_gang (within_onCtx ..).gang_eq).trans hc3

theorem service_endCtx {x st code : Nat} : (c.endCtx x st code).gang.inService = c.gang.inService := by
  unfold Chip.endCtx
  extract_lets v k c1 c2 c3 c4 c5 c6 c7
  have hc1 : c1.gang.inService = c.gang.inService := by
    unfold c1
    split
    · exact ite_view (·.gang.inService) (service_of_gang (within_abandon ..).gang_eq) rfl
    · rfl
  have hc3 : c3.gang.inService = c.gang.inService :=
    (service_of_gang (within_onCtx ..).gang_eq).trans (service_dropSet.trans hc1)
  have hc5 : c5.gang.inService = c.gang.inService := (service_of_gang
    ((within_putF ..).gang_eq.trans ((within_putF ..).gang_eq.trans (within_putF ..).gang_eq))).trans hc3
  have hc6 : c6.gang.inService = c.gang.inService := ite_view (·.gang.inService) hc3
    ((service_of_gang ((within_putF ..).gang_eq.trans (within_putF ..).gang_eq)).trans hc5)
  exact ite_view (·.gang.inService) rfl ((service_of_gang ((within_heldCheck ..).gang_eq.trans
    ((within_condEv ..).gang_eq.trans (within_endCounts ..).gang_eq))).trans hc6)

theorem service_onUnbindRx {f : GangSt → List UnbindRx} :
    (c.onGang fun g => { g with unbindRx := f g }).gang.inService = c.gang.inService := rfl

theorem service_unbindReady : c.unbindReady.gang.inService = c.gang.inService := by
  unfold Chip.unbindReady
  extract_lets l c1
  exact (foldl_view (·.gang.inService) (fun _ _ => service_of_gang (within_unbind ..).gang_eq) _ _).trans service_onUnbindRx

theorem service_ropGone {r : Rop} : (c.ropGone r).gang.inService = c.gang.inService := rfl

theorem service_linkSetDown : (c.linkSetDown n).gang.inService = c.gang.inService := by
  unfold Chip.linkSetDown
  extract_lets c1 rs c2 hs ws c3 c4 c5 waits c6
  have hc2 : c2.gang.inService = c.gang.inService := (foldl_view (·.gang.inService) (fun _ _ =>
    (service_of_gang ((within_missFb ..).gang_eq.trans (within_bump ..).gang_eq)).trans service_ropGone) _ _).trans rfl
  have hc3 : c3.gang.inService = c.gang.inService := (foldl_view (·.gang.inService) (fun _ _ =>
    service_of_gang ((within_bump ..).gang_eq.trans (within_tailAll ..).gang_eq)) _ _).trans hc2
  have hc4 : c4.gang.inService = c.gang.inService := (foldl_view (·.gang.inService) (fun _ _ =>
    service_of_gang (within_tailAll ..).gang_eq) _ _).trans hc3
  have hc5 : c5.gang.inService = c.gang.inService := (service_of_gang (within_removePreps ..).gang_eq).trans hc4
  have hc6 : c6.gang.inService = c.gang.inService := (foldl_view (·.gang.inService) (fun _ _ =>
    ite_view (·.gang.inService) service_endCtx rfl) _ _).trans hc5
  exact service_unbindReady.trans (service_onUnbindRx.trans hc6)

theorem service_setL {l : List Nat} : (c.setL n l).gang.inService = c.gang.inService := by
  unfold Chip.setL
  exact (service_of_gang ((within_putF ..).gang_eq.trans (within_putF ..).gang_eq)).trans rfl

/-- A port that leaves service is in service for no device. -/
theorem service_leaveService (hin : smFind c.gang.inService p = some n) :
    smFind (c.leaveService p).gang.inService p = none := by
  have hleft : (c.leaveService p).gang.inService = smErase c.gang.inService p := by
    unfold Chip.leaveService
    split
    next h => rw [hin] at h; cases h
    next m _ =>
    extract_lets c1 c2 c3
    have hc1 : c1.gang.inService = smErase c.gang.inService p := rfl
    clear_value c1
    have hc2 : c2.gang.inService = smErase c.gang.inService p :=
      ((service_of_gang (within_raise ..).gang_eq).trans service_setL).trans hc1
    clear_value c2
    have hc3 : c3.gang.inService = smErase c.gang.inService p := service_unbindReady.trans hc2
    clear_value c3
    split
    · exact (service_linkSetDown.trans (service_of_gang (within_putF ..).gang_eq)).trans hc3
    · exact hc3
  rw [hleft, smFind_smErase, if_pos rfl]

/-! ### Link sets and control messages -/

theorem linkJoin_waits (hbusy : c.oldLDone n = false) : c.linkJoin n = c := by
  rw [Chip.linkJoin]
  exact if_neg (by rw [hbusy]; nofun)

theorem linkJoin_done (hdone : c.oldLDone n = true) : c.linkJoin n = c.setL n (c.servicePorts n) := by
  rw [Chip.linkJoin]
  exact if_pos hdone

theorem linkPorts_setL {l : List Nat} : (c.setL n l).linkPorts n = l := by
  unfold Chip.setL
  rw [Chip.linkPorts, (within_putF ..).gang_eq, (within_putF ..).gang_eq]
  exact (smGet_smSet ..).trans (if_pos rfl)

theorem getF_setL {l : List Nat} : (c.setL n l).getF F.GNG_PEER_STATUS.L0 n = l.headD 0 % 2 ^ F.GNG_PEER_STATUS.L0.width := by
  unfold Chip.setL
  exact Chip.getF_putF (by decide) ..

theorem oldestRx_taken (h : c.gangTake p 6 false fr = (true, d)) : c.oldestRx p fr = if byteAt fr 46 = 2 then
    d.onGang fun g => { g with oldest := smPut g.oldest (gfSrc fr) (beAt (sliceB fr 54 72) 0 2) } else d := by
  rw [Chip.oldestRx]
  exact ctrlTake_taken (n := 2) h

theorem onGang_congr {f g : GangSt → GangSt} (h : f c.gang = g c.gang) : c.onGang f = c.onGang g := by
  rw [Chip.onGang, Chip.onGang, h]

/-- The first notice of a handle. -/
theorem unbindRxOne_first (h : c.gangTake p 6 false fr = (true, d)) (hsub : byteAt fr 46 = 11) (hnone : d.gang.unbindRx = []) :
    c.unbindRxOne p fr = (d.onGang fun g => { g with
      unbindRx := [⟨gfSrc fr, byteAt (sliceB fr 54 72) 4 % 4, beAt (sliceB fr 54 72) 0 4 % 2 ^ 18,
        byteAt (sliceB fr 54 72) 5 - 1⟩] }).unbindReady := by
  rw [Chip.unbindRxOne, ctrlTake_taken (n := 11) h, if_pos hsub]
  refine congrArg Chip.unbindReady ((if_neg (by rw [hnone]; nofun)).trans (onGang_congr ?_))
  rw [hnone, List.nil_append]

theorem gangHeader_length {port dev : Nat} : (c.gangHeader port dev ty).length = 32 := by
  simp only [Chip.gangHeader, List.length_append, natBe_length, zerosB, List.length_replicate]

theorem txSeq_gangOut {port dev : Nat} {body : Bytes} : smGet (fun _ => 0) (c.gangOut port dev ty body).gang.txSeq port =
    (smGet (fun _ => 0) c.gang.txSeq port + 1) % 2 ^ 32 := by
  unfold Chip.gangOut
  rw [(within_setPort ..).gang_eq, (within_txStats ..).gang_eq]
  exact (smGet_smSet ..).trans (if_pos rfl)

end

/-- Settles O53: frames taken, HELLO, service, link sets and the control messages. -/
theorem gangLinksCarryHelloOldestAndUnbind : Obligations.GangLinksCarryHelloOldestAndUnbind := by
  unfold Obligations.GangLinksCarryHelloOldestAndUnbind
  refine ⟨fun c p ty b fr hoff => gangTake_off hoff, fun c d p ty fr h => gangTake_taken h,
    fun s p fr c hvin h => on_eq (f := fun c => (c.helloRx p fr).flush) hvin (congrArg _ (helloRx_not h)),
    fun s p fr c hvin h hsub hin => ?_,
    fun s p hvin => ⟨fun hport hup => on_eq (f := (helloTick · p)) hvin (helloTick_up hport hup),
      fun hport => on_self (f := (helloTick · p)) (helloTick_off hport)⟩,
    fun s p hvin hout => ⟨?_, ?_⟩,
    fun s p d hvin hin => ⟨State.on_vin hvin fun c => (c.leaveService p).flush,
      State.on_vin hvin fun c => (c.leaveService p).flush⟩,
    fun c p d hin => service_leaveService hin,
    fun s d hvin hbusy => on_self (f := (·.linkJoin d)) (linkJoin_waits hbusy),
    fun s d hvin hdone => ⟨_, on_eq (f := (·.linkJoin d)) hvin (linkJoin_done hdone), linkPorts_setL, getF_setL⟩,
    fun s hvin => on_eq (f := Chip.oldestOut) hvin (by rw [Chip.oldestOut]),
    fun s p fr c hvin h => ⟨fun hsub => on_eq (f := (·.oldestRx p fr)) hvin ((oldestRx_taken h).trans (if_pos hsub)),
      fun hsub => on_eq (f := (·.oldestRx p fr)) hvin ((oldestRx_taken h).trans (if_neg hsub))⟩,
    fun s p fr c hvin h hsub hnone => on_eq (f := (·.unbindRxOne p fr)) hvin (unbindRxOne_first h hsub hnone),
    fun c port dev ty body => ⟨gangHeader_length, txSeq_gangOut⟩⟩
  · have hran := helloRx_taken h hsub hin
    exact ⟨fun hsame => on_eq (f := fun c => (c.helloRx p fr).flush) hvin (congrArg _ (hran.trans (if_pos hsame))),
      fun hother => on_eq (f := fun c => (c.helloRx p fr).flush) hvin (congrArg _ (hran.trans (if_neg hother)))⟩
  · exact on_eq (f := fun c => (c.leaveService p).flush) hvin (congrArg _ (leaveService_out hout))
  · exact on_eq (f := fun c => (c.leaveService p).flush) hvin (congrArg _ (leaveService_out hout))

end Sys2Proof.Proofs
end

section
/-!
Packets and remote ops over the gang links: O54.
-/
namespace Sys2Proof.Proofs
open Sys2Proof Sys2Proof.Machine
set_option Elab.async false

section
variable {c d : Chip} {p n e tag x : Nat} {fr : Bytes}

/-! ### Packets -/

theorem dataRx_not (h : c.gangTake p 1 false fr = (false, d)) : c.dataRx p fr = d := by
  rw [Chip.dataRx, h]

/-- The packet that a DATA frame carries. -/
def gangPkt (p : Nat) (fr : Bytes) : Pkt :=
  { Pkt.init 5 (gfSrc fr) p (beAt (gfHdr fr) 20 4) (beAt (gfHdr fr) 8 8) (gfBody fr) with
    got := (gfBody fr).length
    tail := 1
    stage := .elastic
    ver := some (beAt (gfHdr fr) 16 2)
    gangHdr := gfHdr fr }

theorem dataRx_taken (h : c.gangTake p 1 false fr = (true, d)) : c.dataRx p fr =
    (d.addPkt (gangPkt p fr)).setPort p { (d.addPkt (gangPkt p fr)).portSt p with
      elastic := ((d.addPkt (gangPkt p fr)).portSt p).elastic ++ [d.tm.nextPid] } := by
  rw [Chip.dataRx, h]
  rfl

theorem pkt_addPkt {y : Pkt} : (c.addPkt y).pkt c.tm.nextPid = some y := by
  have hpkts : (c.addPkt y).pkts = (c.setPkt c.tm.nextPid y).pkts := rfl
  rw [pkt_of_pkts hpkts, Chip.pkt_setPkt, if_pos rfl]

theorem gangPkt_fields : (gangPkt p fr).src = 5 ∧ (gangPkt p fr).srcId = gfSrc fr ∧ (gangPkt p fr).port = p ∧
    (gangPkt p fr).frame = gfBody fr ∧ (gangPkt p fr).gangHdr = gfHdr fr ∧
    (gangPkt p fr).ver = some (beAt (gfHdr fr) 16 2) ∧ (gangPkt p fr).stage = .elastic ∧ (gangPkt p fr).tail = 1 :=
  ⟨rfl, rfl, rfl, rfl, rfl, rfl, rfl, rfl⟩

/-- The packet waits in the port's elastic buffer. -/
theorem dataRx_waits (h : c.gangTake p 1 false fr = (true, d)) : (c.dataRx p fr).pkt d.tm.nextPid = some (gangPkt p fr) ∧
    ((c.dataRx p fr).portSt p).elastic = (d.portSt p).elastic ++ [d.tm.nextPid] := by
  rw [dataRx_taken h]
  refine ⟨(pkt_of_pkts (within_setPort ..).pkts_eq _).trans pkt_addPkt, ?_⟩
  rw [Chip.portSt_setPort, if_pos rfl, portSt_of_ports (within_addPkt ..).ports_eq]

/-! ### Answers -/

theorem rresRx_not (h : c.gangTake p 3 false fr = (false, d)) : c.rresRx p fr = d := by
  rw [Chip.rresRx, h]

theorem rresRx_late (h : c.gangTake p 3 false fr = (true, d)) (hnone : d.gang.rops = []) :
    c.rresRx p fr = d.bump F.GNG_PEER_CNT_LATE.V (gfSrc fr) := by
  rw [Chip.rresRx, h]
  dsimp only
  rw [hnone, List.find?_nil]

theorem rresRx_answer {r : Rop} (h : c.gangTake p 3 false fr = (true, d))
    (hr : d.gang.rops.find? (fun r => r.rtag == beAt (gfBody fr) 0 4 && r.dev == gfSrc fr) = some r) : c.rresRx p fr =
      if frStatus (sliceB (gfBody fr) 8 32) = 7 then d.ropAgain r
      else ((d.signal 12 r.dev 2).ropGone r).deliver r.pid (sliceB (gfBody fr) 8 32) r.dev := by
  rw [Chip.rresRx, h]
  dsimp only
  rw [hr]

theorem tailRx_not (h : c.gangTake p 4 false fr = (false, d)) : c.tailRx p fr = d := by
  rw [Chip.tailRx, h]

theorem tailRx_taken (h : c.gangTake p 4 false fr = (true, d)) :
    c.tailRx p fr = d.tailAll (gfSrc fr) (beAt (gfBody fr) 0 4) (byteAt (gfBody fr) 4 == 1) := by
  rw [Chip.tailRx, h]

theorem ropTimeout_none (hnone : c.gang.rops = []) : c.ropTimeout n = c := by
  rw [Chip.ropTimeout, hnone, List.find?_nil]

theorem ropTimeout_op {r : Rop} (hr : c.gang.rops.find? (fun r => r.pid == n) = some r) : c.ropTimeout n =
    (((c.ropGone r).bump F.GNG_PEER_CNT_TIMEOUT.V r.dev).signal 12 r.dev 3).missFb n r.op := by
  rw [Chip.ropTimeout, hr]

/-! ### Remote record access -/

theorem rrecRx_not (h : c.gangTake p 7 false fr = (false, d)) : c.rrecRx p fr x = d := by
  rw [Chip.rrecRx, h]

section
variable {o : FOp} (h : c.gangTake p 7 false fr = (true, d))
include h

theorem rrecRx_answer (hop : byteAt (gfBody fr) 0 = 7) : c.rrecRx p fr x = d.answerRx (gfSrc fr) (gfBody fr) := by
  rw [Chip.rrecRx, h]
  exact if_pos hop

variable (ho : o = d.rrecOp (gfSrc fr) (gfBody fr))
include ho

/-- A request to an engine: RD, PREP and their like. -/
theorem rrecRx_request (hlow : 1 ≤ byteAt (gfBody fr) 0) (hhigh : byteAt (gfBody fr) 0 ≤ 4) : c.rrecRx p fr x =
    if d.notOwned o.h1 then d.rrecAnswer ⟨o, 9, []⟩
    else if d.engineHeld (hEngine o.h1) || d.bankGated (hEngine o.h1) then
      { (d.wakeBank (hEngine o.h1)) with act := { d.act with reqs := d.act.reqs ++ [o] } }
    else d.arriveEcc (hEngine o.h1) o x := by
  subst ho
  rw [Chip.rrecRx, h]
  dsimp only
  rw [if_neg (by omega), if_neg (by omega)]
  exact if_neg (by omega)

/-- A decision on a prepared write. -/
theorem rrecRx_decision {q : FPrep} (hop : byteAt (gfBody fr) 0 = 5 ∨ byteAt (gfBody fr) 0 = 6)
    (hq : (d.eng (hEngine o.h1)).prepOf (1024 + gfSrc fr) o.tag = some q) : c.rrecRx p fr x =
      if byteAt (gfBody fr) 0 = 5 then d.applyPrep (hEngine o.h1) q else d.dropPrep (hEngine o.h1) q := by
  subst ho
  rw [Chip.rrecRx, h]
  dsimp only
  rw [if_neg (by omega), if_pos hop, hq]

end

theorem prepExpiry_none (hq : (c.eng e).prepOf (1024 + n) tag = none) : c.prepExpiry e n tag = c := by
  rw [Chip.prepExpiry, hq]

theorem prepExpiry_held {q : FPrep} (hq : (c.eng e).prepOf (1024 + n) tag = some q) :
    c.prepExpiry e n tag = c.removePrep e q := by
  rw [Chip.prepExpiry, hq]

theorem answerTimeout_remote {ent : CEnt} (hrd : (c.ctx x).rd = some ent) (hst : ent.st = 1) (hdev : ent.dev ≠ c.ownDevice) :
    c.answerTimeout x = c.endCtx x 1 abOwner := by
  rw [Chip.answerTimeout, hrd]
  exact if_pos (by simp [hst, hdev])

theorem answerTimeout_none (hrd : (c.ctx x).rd = none) (hcommit : (c.ctx x).commit = []) : c.answerTimeout x = c := by
  rw [Chip.answerTimeout, hrd, hcommit]
  exact if_neg nofun

theorem replScan_off (hoff : c.flag F.GNG_CTRL.REPL_EN = false) : c.replScan = c := by
  rw [Chip.replScan]
  exact if_neg (by rw [hoff]; nofun)

theorem replScan_on (hon : c.flag F.GNG_CTRL.REPL_EN = true) (hmember : c.gangMember = true)
    (hpartner : c.gang.partner ∈ c.peers) : c.replScan = c.allTags.foldl (fun c t =>
      if tpReplicate (c.tpl (rTemplate (c.committed t.1 t.2.1 t.2.2))) && !rReplica (c.committed t.1 t.2.1 t.2.2) then
        c.replOut c.gang.partner (c.committed t.1 t.2.1 t.2.2) false false else c) c := by
  rw [Chip.replScan, if_pos (by rw [hon, hmember, List.contains_iff_mem.2 hpartner]; rfl)]

end

/-- Settles O54: packets, answers, tails and record accesses over the links, and what ends them. -/
theorem gangPacketsAndRemoteOps : Obligations.GangPacketsAndRemoteOps := by
  unfold Obligations.GangPacketsAndRemoteOps
  refine ⟨fun s p fr x hvin hoff => ⟨on_self (f := (·.dataRx p fr)) (dataRx_not (gangTake_off hoff)), ?_, ?_, ?_⟩,
    fun s p fr c pid hvin h hpid => ?_,
    fun s p fr c hvin h hnone => on_eq (f := fun c => (c.rresRx p fr).flush) hvin (congrArg _ (rresRx_late h hnone)),
    fun s p fr c r hvin h hr => ?_, fun c r htries => ropAgain_last c r htries,
    fun s p fr c hvin h => on_eq (f := fun c => (c.tailRx p fr).flush) hvin (congrArg _ (tailRx_taken h)),
    fun s p fr x c o hvin h ho => ⟨fun hop => ?_, fun hlow hhigh hown => ?_, fun hlow hhigh hown hheld hawake => ?_,
      fun q hop hq => ?_, fun q hop hq => ?_⟩,
    fun s pid hvin hnone => on_eq (f := fun c => (c.ropTimeout pid).flush) hvin (congrArg _ (ropTimeout_none hnone)),
    fun s pid r hvin hr => on_eq (f := fun c => (c.ropTimeout pid).flush) hvin (congrArg _ (ropTimeout_op hr)),
    fun s e d tag hvin => ⟨fun hq => on_eq (f := fun c => (c.prepExpiry e d tag).flush) hvin (congrArg _ (prepExpiry_none hq)),
      fun q hq => on_eq (f := fun c => (c.prepExpiry e d tag).flush) hvin (congrArg _ (prepExpiry_held hq))⟩,
    fun s x e hvin hrd hst hdev => on_eq (f := fun c => (c.answerTimeout x).flush) hvin
      (congrArg _ (answerTimeout_remote hrd hst hdev)),
    fun s x hvin hrd hcommit => on_eq (f := fun c => (c.answerTimeout x).flush) hvin
      (congrArg _ (answerTimeout_none hrd hcommit)),
    fun s _ hoff => on_self (f := Chip.replScan) (replScan_off hoff),
    fun s hvin hon hmember hpartner => on_eq (f := Chip.replScan) hvin (replScan_on hon hmember hpartner)⟩
  · exact on_eq (f := fun c => (c.rresRx p fr).flush) hvin (congrArg _ (rresRx_not (gangTake_off hoff)))
  · exact on_eq (f := fun c => (c.tailRx p fr).flush) hvin (congrArg _ (tailRx_not (gangTake_off hoff)))
  · exact on_eq (f := fun c => (c.rrecRx p fr x).flush) hvin (congrArg _ (rrecRx_not (gangTake_off hoff)))
  · subst hpid
    obtain ⟨hpkt, helastic⟩ := dataRx_waits h
    obtain ⟨hsrc, hid, hport, hframe, hhdr, hver, hstage, htail⟩ := gangPkt_fields (p := p) (fr := fr)
    exact ⟨_, gangPkt p fr, State.on_vin hvin (·.dataRx p fr), hpkt, hsrc, hid, hport, hframe, hhdr, hver, hstage, htail,
      helastic⟩
  · have hran := rresRx_answer h hr
    exact ⟨fun hst => on_eq (f := fun c => (c.rresRx p fr).flush) hvin (congrArg _ (hran.trans (if_neg hst))),
      fun hst => on_eq (f := fun c => (c.rresRx p fr).flush) hvin (congrArg _ (hran.trans (if_pos hst)))⟩
  · exact on_eq (f := fun c => (c.rrecRx p fr x).flush) hvin (congrArg _ (rrecRx_answer h hop))
  · exact on_eq (f := fun c => (c.rrecRx p fr x).flush) hvin (congrArg _ ((rrecRx_request h ho hlow hhigh).trans (if_pos hown)))
  · refine on_eq (f := fun c => (c.rrecRx p fr x).flush) hvin (congrArg _ ((rrecRx_request h ho hlow hhigh).trans ?_))
    rw [hown, hheld, hawake]
    exact (if_neg nofun).trans (if_neg nofun)
  · exact on_eq (f := fun c => (c.rrecRx p fr x).flush) hvin
      (congrArg _ ((rrecRx_decision h ho (.inl hop) hq).trans (if_pos hop)))
  · exact on_eq (f := fun c => (c.rrecRx p fr x).flush) hvin
      (congrArg _ ((rrecRx_decision h ho (.inr hop) hq).trans (if_neg (by omega))))

end Sys2Proof.Proofs
end

section
/-!
The owner map and the membership of a gang: O55.
-/
namespace Sys2Proof.Proofs
open Sys2Proof Sys2Proof.Machine
set_option Elab.async false

section
variable {c d : Chip} {a i k n p x : Nat} {bs fr : Bytes} {m : List Nat}

/-! ### The map's registers -/

theorem rd_putWords_below (h : k < a) : (c.putWords a bs).rd k = c.rd k := by
  fun_induction Chip.putWords c a bs with
  | case1 => rfl
  | case2 _ _ _ _ _ _ _ ih => exact (ih (by omega)).trans (Chip.rd_wr_ne (by omega))
  | case3 => exact Chip.rd_wr_ne (by omega)

/-- Word `i` of a list of whole words. -/
theorem rd_putWords_word (hlen : bs.length = 4 * n) (hi : i < n) : (c.putWords a bs).rd (a + 4 * i) =
    BitVec.ofNat 32 (leNat [bs.getD (4 * i) 0, bs.getD (4 * i + 1) 0, bs.getD (4 * i + 2) 0, bs.getD (4 * i + 3) 0]) := by
  induction n generalizing c a bs i with
  | zero => omega
  | succ n ih =>
    match bs, hlen with
    | b0 :: b1 :: b2 :: b3 :: r, hlen =>
      rw [Chip.putWords]
      cases i with
      | zero =>
        rw [rd_putWords_below (by omega)]
        exact Chip.rd_wr_same ..
      | succ i =>
        have hr : r.length = 4 * n := by
          simp only [List.length_cons] at hlen
          omega
        rw [show a + 4 * (i + 1) = a + 4 + 4 * i by omega, ih hr (by omega), show 4 * (i + 1) = 4 * i + 4 by omega,
          show 4 * i + 4 + 1 = 4 * i + 1 + 4 by omega, show 4 * i + 4 + 2 = 4 * i + 2 + 4 by omega,
          show 4 * i + 4 + 3 = 4 * i + 3 + 4 by omega]
        rfl

/-- Four owners in a byte. -/
def ownerByte (m : List Nat) (i : Nat) : Nat :=
  m.getD (4 * i) 0 + 4 * m.getD (4 * i + 1) 0 + 16 * m.getD (4 * i + 2) 0 + 64 * m.getD (4 * i + 3) 0

theorem mapBytes_length : (mapBytes m).length = 64 := by rw [mapBytes, List.length_map, List.length_range]

theorem toNat_mapBytes (hm : ∀ j, m.getD j 0 < 4) (hi : i < 64) : ((mapBytes m).getD i 0).toNat = ownerByte m i := by
  have hlen : i < (mapBytes m).length := by rwa [mapBytes_length]
  have h0 := hm (4 * i)
  have h1 := hm (4 * i + 1)
  have h2 := hm (4 * i + 2)
  have h3 := hm (4 * i + 3)
  have hget : (mapBytes m)[i] = BitVec.ofNat 8 (ownerByte m i) := by
    simp only [mapBytes, List.getElem_map, List.getElem_range]
    rfl
  rw [List.getD_eq_getElem _ _ hlen, hget, BitVec.toNat_ofNat]
  exact Nat.mod_eq_of_lt (by unfold ownerByte; omega)

theorem getF_setMap (hm : ∀ j, m.getD j 0 < 4) (hi : i < 16) : (c.setMap m).getF F.GNG_MAP.V i =
    ownerByte m (4 * i) + 256 * (ownerByte m (4 * i + 1) + 256 * (ownerByte m (4 * i + 2) + 256 * ownerByte m (4 * i + 3))) := by
  have haddr : F.GNG_MAP.V.addr i = F.GNG_MAP.V.addr 0 + 4 * i := by
    change 0x50100 + i * 4 + 0 * 0 = 0x50100 + 0 * 4 + 0 * 0 + 4 * i
    omega
  have hbyte : ∀ j, j < 64 → ownerByte m j < 256 := fun j hj => by
    rw [← toNat_mapBytes hm hj]
    exact BitVec.isLt _
  have h0 := hbyte (4 * i) (by omega)
  have h1 := hbyte (4 * i + 1) (by omega)
  have h2 := hbyte (4 * i + 2) (by omega)
  have h3 := hbyte (4 * i + 3) (by omega)
  rw [Chip.getF, haddr, Chip.setMap, rd_putWords_word (n := 16) mapBytes_length hi]
  simp only [leNat, toNat_mapBytes hm (show 4 * i < 64 by omega), toNat_mapBytes hm (show 4 * i + 1 < 64 by omega),
    toNat_mapBytes hm (show 4 * i + 2 < 64 by omega), toNat_mapBytes hm (show 4 * i + 3 < 64 by omega), BitVec.toNat_ofNat]
  change (_ % 2 ^ 32) / 2 ^ 0 % 2 ^ 32 = _
  omega

/-- Digit `t` of sixteen digits to base 4. -/
theorem ownerByte_digits {f : Nat → Nat} {t : Nat} (hf : ∀ t, f t < 4) (ht : t < 16) :
    bitsOf 1 0 ((f 0 + 4 * f 1 + 16 * f 2 + 64 * f 3 + 256 * (f 4 + 4 * f 5 + 16 * f 6 + 64 * f 7 +
      256 * (f 8 + 4 * f 9 + 16 * f 10 + 64 * f 11 + 256 * (f 12 + 4 * f 13 + 16 * f 14 + 64 * f 15)))) / 2 ^ (2 * t)) = f t := by
  have h0 := hf 0; have h1 := hf 1; have h2 := hf 2; have h3 := hf 3
  have h4 := hf 4; have h5 := hf 5; have h6 := hf 6; have h7 := hf 7
  have h8 := hf 8; have h9 := hf 9; have h10 := hf 10; have h11 := hf 11
  have h12 := hf 12; have h13 := hf 13; have h14 := hf 14; have h15 := hf 15
  simp only [bitsOf]
  interval_cases t <;> norm_num <;> omega

/-- The map is read as it was set. -/
theorem mapOf_setMap (hlen : m.length = 256) (hm : ∀ d, d ∈ m → d < 4) (hk : k < 256) : (c.setMap m).mapOf k = m.getD k 0 := by
  have hget : ∀ j, m.getD j 0 < 4 := fun j => by
    by_cases hj : j < m.length
    · rw [List.getD_eq_getElem _ _ hj]
      exact hm _ (List.getElem_mem hj)
    · rw [List.getD_eq_default _ _ (by omega)]
      decide
  obtain ⟨q, t, rfl, ht⟩ : ∃ q t, k = 16 * q + t ∧ t < 16 := ⟨k / 16, k % 16, by omega, by omega⟩
  have hq : (16 * q + t) / 16 = q := by omega
  have hr : (16 * q + t) % 16 = t := by omega
  rw [Chip.mapOf, hq, hr, getF_setMap hget (by omega)]
  have hbyte : ∀ j, ownerByte m (4 * q + j) = m.getD (16 * q + 4 * j) 0 + 4 * m.getD (16 * q + (4 * j + 1)) 0 +
      16 * m.getD (16 * q + (4 * j + 2)) 0 + 64 * m.getD (16 * q + (4 * j + 3)) 0 := fun j => by
    rw [ownerByte, show 4 * (4 * q + j) = 16 * q + 4 * j by omega]
    rfl
  have hword := ownerByte_digits (f := fun t => m.getD (16 * q + t) 0) (fun t => hget _) ht
  rw [hbyte 1, hbyte 2, hbyte 3, show ownerByte m (4 * q) = _ from hbyte 0]
  exact hword

end

section
variable {c d : Chip} {p n a b : Nat} {fr : Bytes} {k : Chip → Chip}

/-! ### FORM, JOIN and LEAVE -/

theorem command_gang_running (hrun : c.flag F.GNG_CMD_STATUS.RUNNING = true) :
    c.command portGng k = c.putF F.GNG_CMD_STATUS.OVERRUN 1 := by
  rw [Chip.command]
  exact if_pos hrun

theorem command_gang_idle (hidle : c.flag F.GNG_CMD_STATUS.RUNNING = false) : c.command portGng k = k c :=
  command_of_idle (p := portGng) hidle k

theorem coordinator_leaving : ((c.putF F.GNG_CMD_STATUS.RUNNING 1).onGang fun g => { g with cmd := 3 }).coordinator =
    c.coordinator := by
  have hregs : ∀ f : Fld, f.base ≠ F.GNG_CMD_STATUS.RUNNING.base →
      ((c.putF F.GNG_CMD_STATUS.RUNNING 1).onGang fun g => { g with cmd := 3 }).getF f = c.getF f := fun f hf => by
    rw [getF_of_regs (within_onGang ..).regs_eq]
    refine Chip.getF_putF_ne ?_
    rw [Fld.addr, Fld.addr]
    omega
  rw [Chip.coordinator, Chip.gangMember, hregs _ (by decide), hregs _ (by decide), hregs _ (by decide), ← Chip.gangMember,
    ← Chip.coordinator]

section
variable (hidle : c.flag F.GNG_CMD_STATUS.RUNNING = false)
include hidle

theorem form_member (hmember : c.gangMember = true) : c.form = c.finish portGng stInvalid := by
  rw [Chip.form, command_gang_idle hidle]
  exact if_pos hmember

theorem form_alone {own : Nat} (hmember : c.gangMember = false) (hown : own = c.getF F.GNG_STATUS.DEVICE) : c.form =
    ((((((((c.setMap (List.replicate 256 own)).putF F.GNG_EPOCH.V 1).putF F.GNG_STATUS.STATE 1).putF
      F.GNG_STATUS.COORD own).putF F.GNG_STATUS.MEMBERS (2 ^ own)).raise F.GNG_EVENTS.COMMIT).gangItem 1 own
        (List.range 256)).finish portGng stOk) := by
  subst hown
  rw [Chip.form, command_gang_idle hidle]
  exact if_neg (by rw [hmember]; nofun)

theorem join_member (hmember : c.gangMember = true) : c.join = c.finish portGng stInvalid := by
  rw [Chip.join, command_gang_idle hidle]
  exact if_pos (by rw [hmember]; rfl)

section
variable (hmember : c.gangMember = false) (hlinked : c.isolated = false)
include hmember hlinked

theorem join_changing (hheard : c.heardCoord = some (n, 2)) : c.join = c.finish portGng stBusy := by
  rw [Chip.join, command_gang_idle hidle, hmember, hlinked, if_neg nofun, hheard]
  split
  next => rfl
  next h => exact absurd rfl (h n)

theorem join_asks (hheard : c.heardCoord = some (n, 1)) : c.join =
    ((c.putF F.GNG_CMD_STATUS.RUNNING 1).onGang fun g => { g with cmd := 2 }).ctrlTo n 12 [] := by
  rw [Chip.join, command_gang_idle hidle, hmember, hlinked, if_neg nofun, hheard]
  split
  next h => cases h
  next => rfl

end

theorem leaveGang_alone (hmember : c.gangMember = false) : c.leaveGang = c.finish portGng stInvalid := by
  rw [Chip.leaveGang, command_gang_idle hidle]
  exact if_pos (by rw [hmember]; rfl)

section
variable (hmember : c.gangMember = true)
include hmember

theorem leaveGang_changing (hchanging : c.changing = true) : c.leaveGang = c.finish portGng stBusy := by
  rw [Chip.leaveGang, command_gang_idle hidle, hmember, if_neg nofun]
  exact if_pos hchanging

variable (hstill : c.changing = false)
include hstill

theorem leaveGang_last (hnone : c.members.filter (· != c.getF F.GNG_STATUS.DEVICE) = []) : c.leaveGang =
    ((c.putF F.GNG_STATUS.STATE 0).putF F.GNG_STATUS.MEMBERS 0).finish portGng stOk := by
  rw [Chip.leaveGang, command_gang_idle hidle, hmember, if_neg nofun, hstill, if_neg nofun]
  exact if_pos hnone

theorem leaveGang_asks (hsome : c.members.filter (· != c.getF F.GNG_STATUS.DEVICE) ≠ []) (hcoord : c.coordinator = false) :
    c.leaveGang = (c.putF F.GNG_CMD_STATUS.RUNNING 1).onGang fun g => { g with cmd := 3 } := by
  rw [Chip.leaveGang, command_gang_idle hidle, hmember, if_neg nofun, hstill, if_neg nofun]
  refine (if_neg hsome).trans (if_neg ?_)
  rw [coordinator_leaving, hcoord]
  nofun

end

end

theorem joinTimeout_waiting (hcmd : c.gang.cmd = 2) (hnone : c.gang.change = none) :
    c.joinTimeout = (c.onGang fun g => { g with cmd := 0 }).finish portGng stTimeout := by
  rw [Chip.joinTimeout]
  exact if_pos ⟨hcmd, by rw [hnone]; rfl⟩

theorem joinTimeout_other (hcmd : c.gang.cmd ≠ 2) : c.joinTimeout = c := by
  rw [Chip.joinTimeout]
  exact if_neg fun h => hcmd h.1

/-! ### Requests and the steps of a change -/

section
variable (h : c.gangTake p 6 false fr = (true, d))
include h

theorem joinReq_accepted (hsub : byteAt fr 46 = 12) (hcoord : d.coordinator = true) (hstill : d.changing = false)
    (hnew : gfSrc fr ∉ d.members) (hlink : d.linkPorts (gfSrc fr) ≠ []) : c.joinReq p fr true =
      d.runChange true false (gfSrc fr) (joinMap d.mapList (gfSrc fr) (d.members.length + 1)) := by
  rw [Chip.joinReq, ctrlTake_taken (n := 12) h, if_pos hsub]
  exact if_neg (by simp [hcoord, hstill, hnew, hlink])

theorem joinReq_unlinked (hsub : byteAt fr 46 = 12) : c.joinReq p fr false = d := by
  rw [Chip.joinReq, ctrlTake_taken (n := 12) h, if_pos hsub]
  exact if_pos (by simp)

theorem ctrlLeave_coordinator (hsub : byteAt fr 46 = 10) (hcoord : d.coordinator = true) :
    (c.ctrlTake p 10 fr fun d _ c => c.leaveRx d) = d.lossOf (gfSrc fr) := by
  rw [ctrlTake_taken (n := 10) h, if_pos hsub, Chip.leaveRx]
  exact if_pos hcoord

theorem commitRx_taken (hsub : byteAt fr 46 = 4) : c.commitRx p fr = d.onGang fun g => { g with
    change := g.change.map fun x => { x with at_ := some (beAt (sliceB fr 54 72) 0 8) } } := by
  rw [Chip.commitRx, ctrlTake_taken (n := 4) h, if_pos hsub]

theorem finalRx_taken {l : List Nat} (hsub : byteAt fr 46 = 5) (hl : l = maskSlots (sliceB (sliceB fr 54 72) 8 32)) :
    c.finalRx p fr = (d.onGang fun g => { g with awaitFinal := g.awaitFinal.filter (fun s => !l.contains s) }).promote l := by
  subst hl
  rw [Chip.finalRx, ctrlTake_taken (n := 5) h, if_pos hsub]

theorem prepRx_taken {bs : Bytes} {x : GChange} (hsub : byteAt fr 46 = 3) (hlinked : d.isolated = false)
    (hbs : bs = sliceB fr 54 72)
    (hx : x = ⟨bitOf 7 (byteAt bs 0), byteAt bs 0 % 4, bitOf 0 (byteAt bs 1), beAt fr 50 4, bytesMap (sliceB bs 8 64), none, []⟩) :
    c.prepRx p fr = if d.gangMember then
        (if gfSrc fr = d.getF F.GNG_STATUS.COORD ∨ x.loss then (d.putF F.GNG_STATUS.COORD (gfSrc fr)).beginChange x else d)
      else if x.join ∧ x.dev = d.getF F.GNG_STATUS.DEVICE then (d.putF F.GNG_STATUS.COORD (gfSrc fr)).beginChange x
      else d := by
  subst hbs hx
  rw [Chip.prepRx, ctrlTake_taken (n := 3) h, if_pos hsub]
  exact if_neg (by rw [hlinked]; nofun)

end

theorem mapCommit_none (hnone : c.gang.change = none) : c.mapCommit = c := by
  rw [Chip.mapCommit, hnone]

theorem mapCommit_timed {x : GChange} {t : Nat} (hx : c.gang.change = some x) (ht : x.at_ = some t) :
    c.mapCommit = if c.due t then c.applyMap x else c := by
  rw [Chip.mapCommit, hx]
  dsimp only
  rw [ht]

/-! ### Losses and items -/

theorem peerLoss_alone (hmember : c.gangMember = false) : c.peerLoss a b = c := by
  rw [Chip.peerLoss]
  exact if_pos (by rw [hmember]; rfl)

section
variable (hmember : c.gangMember = true) (hab : a < b) (ha : a ∈ c.members) (hb : b ∈ c.members)
include hmember hab ha hb

theorem peerLoss_members : c.peerLoss a b =
    if (c.getF F.GNG_STATUS.DEVICE = a ∧ !(c.linkPorts b).isEmpty) ∨ (c.getF F.GNG_STATUS.DEVICE = b ∧ !(c.linkPorts a).isEmpty)
      then c
    else if c.getF F.GNG_STATUS.DEVICE = b then
      ((c.putF F.GNG_STATUS.STATE 3).raise F.GNG_EVENTS.ISOLATED).onGang fun g => { g with
        change := none, cleanWait := [], lossQ := [], migrating := [], finalDue := [], given := [], awaitFinal := [] }
    else if c.coordinator then c.lossOf b
    else c := by
  rw [Chip.peerLoss, Nat.min_eq_left hab.le, Nat.max_eq_right hab.le]
  exact if_neg (by simp [hmember, ha, hb, hab.ne])

/-- The member of the higher number leaves the lost link's gang. -/
theorem peerLoss_own (hown : b = c.getF F.GNG_STATUS.DEVICE) (hlink : c.linkPorts a = []) : c.peerLoss a b =
    ((c.putF F.GNG_STATUS.STATE 3).raise F.GNG_EVENTS.ISOLATED).onGang fun g => { g with
      change := none, cleanWait := [], lossQ := [], migrating := [], finalDue := [], given := [], awaitFinal := [] } := by
  rw [peerLoss_members hmember hab ha hb, if_neg (by rw [hlink]; simp; omega), if_pos hown.symm]

theorem peerLoss_coordinator (hother : b ≠ c.getF F.GNG_STATUS.DEVICE) (hlink : c.linkPorts b = [])
    (hcoord : c.coordinator = true) : c.peerLoss a b = c.lossOf b := by
  rw [peerLoss_members hmember hab ha hb, if_neg (by rw [hlink]; simp; omega), if_neg hother.symm]
  exact if_pos hcoord

end

theorem gangItemOffer_none (hnone : c.gang.items = []) : c.gangItemOffer = c := by
  rw [Chip.gangItemOffer, hnone]

theorem gangItemOffer_taken {it : Bytes} {r : List Bytes} (hitems : c.gang.items = it :: r)
    (hoffer : c.offer (c.getF F.GNG_ITEM_CLASS.V) it none = (.accepted, d)) :
    c.gangItemOffer = d.onGang fun g => { g with items := r } := by
  rw [Chip.gangItemOffer, hitems]
  dsimp only
  rw [hoffer]

end

/-- Settles O55: the commands of membership, the steps of a change, losses and items. -/
theorem gangMembershipChangesInSteps : Obligations.GangMembershipChangesInSteps := by
  unfold Obligations.GangMembershipChangesInSteps
  refine ⟨fun s c hvin hrun hc => ?_, fun s own hvin hidle hmember hown => ⟨?_, ?_⟩,
    fun c m k hlen hm hk => mapOf_setMap hlen hm hk,
    fun s hvin hidle hmember => ⟨on_eq (f := fun c => c.form.flush) hvin (congrArg _ (form_member hidle hmember)),
      on_eq (f := Chip.join) hvin (join_member hidle hmember)⟩,
    fun s d hvin hidle hmember hlinked =>
      ⟨fun hheard => on_eq (f := Chip.join) hvin (join_changing hidle hmember hlinked hheard),
        fun hheard => on_eq (f := Chip.join) hvin (join_asks hidle hmember hlinked hheard)⟩,
    fun s hvin hcmd hnone => on_eq (f := Chip.joinTimeout) hvin (joinTimeout_waiting hcmd hnone),
    fun s _ hcmd => on_self (f := Chip.joinTimeout) (joinTimeout_other hcmd),
    fun s hvin hidle hmember => ⟨fun hchanging => ?_, fun hstill hnone => ?_, fun hstill hsome hcoord => ?_⟩,
    fun s p fr c hvin h hsub hcoord hstill hnew hlink => ⟨?_, ?_⟩,
    fun s p fr c hvin h => ⟨fun hsub hcoord => ?_, fun hsub => ?_, fun hsub => ?_, fun hsub => ?_, fun l hsub hl => ?_⟩,
    fun s p fr b c x hvin h hsub hlinked hb hx => ⟨fun hmember hcoord => ?_, fun hmember hjoin hdev => ?_, fun hmember hdev => ?_⟩,
    fun s hvin hnone => on_eq (f := fun c => c.mapCommit.flush) hvin (congrArg _ (mapCommit_none hnone)),
    fun s x t hvin hx ht => ⟨fun hdue => ?_, fun hdue => ?_⟩,
    fun s a b hvin hmember => on_eq (f := fun c => (c.peerLoss a b).flush) hvin (congrArg _ (peerLoss_alone hmember)),
    fun s a b hvin hmember hab ha hb => ⟨fun hown hlink => ?_, fun hother hlink hcoord => ?_⟩,
    fun s _ hnone => on_self (f := Chip.gangItemOffer) (gangItemOffer_none hnone),
    fun s it r c hvin hitems hoffer => on_eq (f := Chip.gangItemOffer) hvin (gangItemOffer_taken hitems hoffer)⟩
  · subst hc
    exact ⟨on_eq (f := fun c => c.form.flush) hvin (congrArg _ (command_gang_running hrun)),
      on_eq (f := Chip.join) hvin (command_gang_running hrun),
      on_eq (f := fun c => c.leaveGang.flush) hvin (congrArg _ (command_gang_running hrun)),
      on_eq (f := Chip.resetAll) hvin (command_gang_running hrun)⟩
  · exact on_eq (f := fun c => c.form.flush) hvin (congrArg _ (form_alone hidle hmember hown))
  · exact on_eq (f := fun c => c.leaveGang.flush) hvin (congrArg _ (leaveGang_alone hidle hmember))
  · exact on_eq (f := fun c => c.leaveGang.flush) hvin (congrArg _ (leaveGang_changing hidle hmember hchanging))
  · exact on_eq (f := fun c => c.leaveGang.flush) hvin (congrArg _ (leaveGang_last hidle hmember hstill hnone))
  · exact on_eq (f := fun c => c.leaveGang.flush) hvin (congrArg _ (leaveGang_asks hidle hmember hstill hsome hcoord))
  · exact on_eq (f := fun c => (c.joinReq p fr true).flush) hvin
      (congrArg _ (joinReq_accepted h hsub hcoord hstill hnew hlink))
  · exact on_eq (f := fun c => (c.joinReq p fr false).flush) hvin (congrArg _ (joinReq_unlinked h hsub))
  · exact on_eq (f := fun c => (c.ctrlTake p 10 fr fun d _ c => c.leaveRx d).flush) hvin
      (congrArg _ (ctrlLeave_coordinator h hsub hcoord))
  · exact on_eq (f := fun c => (c.ctrlTake p 6 fr fun d _ c => c.readyFrom d).flush) hvin
      (congrArg _ ((ctrlTake_taken (n := 6) h).trans (if_pos hsub)))
  · exact on_eq (f := fun c => (c.ctrlTake p 7 fr fun d _ c => c.cleanFrom d).flush) hvin
      (congrArg _ ((ctrlTake_taken (n := 7) h).trans (if_pos hsub)))
  · exact ⟨_, on_eq (f := (·.commitRx p fr)) hvin (commitRx_taken h hsub), rfl, (within_onGang ..).regs_eq⟩
  · exact on_eq (f := fun c => (c.finalRx p fr).flush) hvin (congrArg _ (finalRx_taken h hsub hl))
  · exact on_eq (f := fun c => (c.prepRx p fr).flush) hvin
      (congrArg _ ((prepRx_taken h hsub hlinked hb hx).trans ((if_pos hmember).trans (if_pos (.inl hcoord)))))
  · exact on_eq (f := fun c => (c.prepRx p fr).flush) hvin (congrArg _ ((prepRx_taken h hsub hlinked hb hx).trans
      ((if_neg (by rw [hmember]; nofun)).trans (if_pos ⟨hjoin, hdev⟩))))
  · exact on_eq (f := fun c => (c.prepRx p fr).flush) hvin (congrArg _ ((prepRx_taken h hsub hlinked hb hx).trans
      ((if_neg (by rw [hmember]; nofun)).trans (if_neg fun hj => hdev hj.2))))
  · exact on_eq (f := fun c => c.mapCommit.flush) hvin (congrArg _ ((mapCommit_timed hx ht).trans (if_pos hdue)))
  · exact on_eq (f := fun c => c.mapCommit.flush) hvin
      (congrArg _ ((mapCommit_timed hx ht).trans (if_neg (by rw [hdue]; nofun))))
  · exact on_eq (f := fun c => (c.peerLoss a b).flush) hvin (congrArg _ (peerLoss_own hmember hab ha hb hown hlink))
  · exact on_eq (f := fun c => (c.peerLoss a b).flush) hvin
      (congrArg _ (peerLoss_coordinator hmember hab ha hb hother hlink hcoord))

end Sys2Proof.Proofs
end

section
/-!
The time and the resets of a gang: O56.
-/
namespace Sys2Proof.Proofs
open Sys2Proof Sys2Proof.Machine
set_option Elab.async false

section
variable {c d : Chip} {p n t : Nat} {fr bs : Bytes} {th : Int} {prev : Option Int}

/-! ### Asking and answering -/

theorem tsyncTimer_follower (h : c.follower = true) :
    c.tsyncTimer = c.ctrlTo (c.getF F.GNG_STATUS.COORD) 8 (natBe 8 c.dtw) := by
  rw [Chip.tsyncTimer]
  exact if_pos h

theorem tsyncTimer_other (h : c.follower = false) : c.tsyncTimer = c := by
  rw [Chip.tsyncTimer]
  exact if_neg (by rw [h]; nofun)

theorem tsyncReq_taken (h : c.gangTake p 6 false fr = (true, d)) (hsub : byteAt fr 46 = 8) : c.tsyncReq p fr =
    if d.coordinator then d.ctrlTo (gfSrc fr) 9 (sliceB (sliceB fr 54 72) 0 8 ++ natBe 8 d.dtw ++ natBe 8 d.dtw ++
      natBe 1 (b2n d.timeValid)) else d := by
  rw [Chip.tsyncReq, ctrlTake_taken (n := 8) h, if_pos hsub]

/-! ### A follower's own time -/

/-- The device with the offset `th` to its coordinator `n` recorded. -/
def thetaSeen (c : Chip) (th : Int) (n : Nat) : Chip :=
  (c.putQ F.GNG_PEER_THETA.V (patternOf 64 th) n).onGang fun g => { g with thetas := (th :: g.thetas).take 8 }

/-- The device that also shows whether its time is locked. -/
def thetaTaken (c : Chip) (th : Int) (n : Nat) : Chip :=
  (thetaSeen c th n).putF F.GNG_STATUS.TIME_LOCKED (b2n ((thetaSeen c th n).gang.thetas.length == 8 &&
    (thetaSeen c th n).gang.thetas.all (fun x => decide (x.natAbs < 8 * 2 ^ 16))))

theorem time_thetaTaken : (thetaTaken c th n).time = c.time := by
  unfold thetaTaken thetaSeen
  rw [(within_putF ..).time_eq, (within_onGang ..).time_eq, (within_putQ ..).time_eq]

theorem addr_theta : F.GNG_PEER_THETA.V.addr n 0 = 0x51008 + n * 0x100 + 0 * 0 := rfl

/-- A register below those of the peers keeps its value, but for the status. -/
theorem getF_thetaTaken {f : Fld} (hlow : f.addr 0 0 < 0x51000) (hstatus : f.addr 0 0 ≠ 0x50004) :
    (thetaTaken c th n).getF f = c.getF f := by
  unfold thetaTaken thetaSeen
  rw [Chip.getF_putF_ne hstatus, getF_of_regs (within_onGang ..).regs_eq]
  exact getF_of_rd (Chip.rd_putQ_ne (by rw [addr_theta]; omega) (by rw [addr_theta]; omega))

theorem patternOf_lt {w : Nat} {i : Int} : patternOf w i < 2 ^ w := by
  have hpos : (0 : Int) < ((2 ^ w : Nat) : Int) := by positivity
  have hlt := Int.emod_lt_of_pos i hpos
  have hnonneg := Int.emod_nonneg i hpos.ne'
  unfold patternOf
  omega

theorem getQ_thetaTaken : (thetaTaken c th n).getQ F.GNG_PEER_THETA.V n = patternOf 64 th := by
  have hstatus : F.GNG_STATUS.TIME_LOCKED.addr = 0x50004 := rfl
  have hput : (thetaTaken c th n).getQ F.GNG_PEER_THETA.V n = (thetaSeen c th n).getQ F.GNG_PEER_THETA.V n := by
    unfold thetaTaken
    exact getQ_of_rd (Chip.rd_putF_ne (by rw [addr_theta, hstatus]; omega))
      (Chip.rd_putF_ne (by rw [addr_theta, hstatus]; omega))
  rw [hput, thetaSeen, getQ_of_regs (within_onGang ..).regs_eq, Chip.getQ_putQ]
  exact Nat.mod_eq_of_lt patternOf_lt

/-- A step of the time by `th` is to come. -/
def stepQueued (c : Chip) (th : Int) : Chip := { c with time := { c.time with stepNext := some th } }

theorem stepQueued_rest : (stepQueued c th).time.stepNext = some th ∧ (stepQueued c th).time.acc = c.time.acc ∧
    (stepQueued c th).regs = c.regs := ⟨rfl, rfl, rfl⟩

theorem tsyncResp_other (h : c.gangTake p 6 false fr = (true, d)) (hsub : byteAt fr 46 = 9) (hno : d.follower = false) :
    c.tsyncResp p fr = d := by
  rw [Chip.tsyncResp, ctrlTake_taken (n := 9) h, if_pos hsub]
  exact if_pos (by rw [hno]; rfl)

/-- An answer of the coordinator while time is valid: a step where the offset is large, else a slew. -/
theorem tsyncResp_follower (h : c.gangTake p 6 false fr = (true, d)) (hsub : byteAt fr 46 = 9) (hfollow : d.follower = true)
    (hcoord : d.getF F.GNG_STATUS.COORD = gfSrc fr) (hvalid : d.timeValid = true) (hbs : bs = sliceB fr 54 72)
    (hth : th = (signedOf 64 (beAt bs 8 8 + (2 ^ 64 - beAt bs 0 8 % 2 ^ 64)) -
      signedOf 64 (d.dtw + (2 ^ 64 - beAt bs 16 8 % 2 ^ 64))) / 2 - signedOf 32 (d.getF F.GNG_PEER_ASYM.V (gfSrc fr))) :
    c.tsyncResp p fr = if d.getF F.GNG_TIME_STEP.V * 2 ^ 16 ≤ th.natAbs then
        stepQueued (thetaTaken d th (gfSrc fr)) th
      else (thetaTaken d th (gfSrc fr)).gangSlew th d.gang.thetas.head? := by
  have hstill : (thetaTaken d th (gfSrc fr)).timeValid = true := by
    rw [Chip.timeValid, Chip.flag, getF_thetaTaken (by decide) (by decide)]
    exact hvalid
  have hstep := getF_thetaTaken (c := d) (th := th) (n := gfSrc fr) (f := F.GNG_TIME_STEP.V) (by decide) (by decide)
  rw [Chip.tsyncResp, ctrlTake_taken (n := 9) h, if_pos hsub, ← hbs]
  refine (if_neg (by rw [hfollow, hcoord]; simp)).trans ?_
  dsimp only
  rw [← hth, ← thetaSeen, ← thetaTaken, hstill, if_neg nofun, hstep, ← stepQueued]

theorem slew_gangSlew : (c.gangSlew th prev).time.slew = some ⟨Int.tdiv (th * 2 ^ 24) 781250, Int.tmod (th * 2 ^ 24) 781250,
    0, 781250⟩ ∧ (c.gangSlew th prev).time.acc = c.time.acc := by
  unfold Chip.gangSlew
  extract_lets a s unit incr src e
  clear_value incr
  have htime : ((e.putQ F.TIM_INCR.V incr).putF F.TIM_STATUS.SLEWING 1).time = e.time := by
    rw [(within_putF ..).time_eq, (within_putQ ..).time_eq]
  rw [htime]
  exact ⟨rfl, rfl⟩

theorem slewing_gangSlew : (c.gangSlew th prev).getF F.TIM_STATUS.SLEWING = 1 := by
  unfold Chip.gangSlew
  exact Chip.getF_putF (by decide) ..

/-! ### Resets of the whole gang -/

theorem resetAll_refused (hidle : c.flag F.GNG_CMD_STATUS.RUNNING = false) (hno : c.coordinator = false) :
    c.resetAll = c.finish portGng stInvalid := by
  rw [Chip.resetAll, command_gang_idle hidle]
  exact if_pos (by rw [hno]; rfl)

theorem resetAll_coordinator (hidle : c.flag F.GNG_CMD_STATUS.RUNNING = false) (hcoord : c.coordinator = true)
    (ht : t = c.getQ F.GNG_CMD_TIME.V) (hd : d = c.peers.foldl (fun c d => c.ctrlTo d 13 (natBe 8 t)) c) :
    c.resetAll = (d.schedReset t).2.finish portGng (d.schedReset t).1 := by
  rw [Chip.resetAll, command_gang_idle hidle, hcoord, if_neg nofun]
  dsimp only
  rw [← ht, ← hd]

theorem schedReset_denied (hno : c.resetAllowed = false) : c.schedReset t = (stDenied, c.raise F.HST_ERR_CAUSE.RESET_DENIED) := by
  rw [Chip.schedReset, hno]
  exact if_pos rfl

/-- The device with a reset scheduled for `t`. -/
def resetSet (c : Chip) (t : Nat) (late : Bool) : Chip := c.onGang fun g => { g with resetAt := some t, resetLate := late }

theorem schedReset_allowed (hok : c.resetAllowed = true) : c.schedReset t = match c.timeClass t with
    | .past => (stPast, c)
    | .far => (stFar, c)
    | .late => (stLate, resetSet c t true)
    | _ => (stOk, resetSet c t false) := by
  rw [Chip.schedReset, hok, if_neg nofun] <;> rfl

theorem schedReset_status (hok : c.resetAllowed = true) : (c.schedReset t).1 ≠ stDenied := by
  rw [schedReset_allowed hok]
  split <;> nofun

theorem resetAtRx_taken (h : c.gangTake p 6 false fr = (true, d)) (hsub : byteAt fr 46 = 13)
    (ht : t = beAt (sliceB fr 54 72) 0 8) : c.resetAtRx p fr =
      if (d.schedReset t).1 = stDenied then (d.schedReset t).2.deniedCapture 8 0 0 else (d.schedReset t).2 := by
  subst ht
  rw [Chip.resetAtRx, ctrlTake_taken (n := 13) h, if_pos hsub]

end

/-- Settles O56: time asked for, answered and taken, and resets scheduled. -/
theorem gangTimeAndResetsFollowTheCoordinator : Obligations.GangTimeAndResetsFollowTheCoordinator := by
  unfold Obligations.GangTimeAndResetsFollowTheCoordinator
  refine ⟨fun s hvin => ⟨fun h => on_eq (f := Chip.tsyncTimer) hvin (tsyncTimer_follower h),
      fun h => on_self (f := Chip.tsyncTimer) (tsyncTimer_other h)⟩,
    fun s p fr c hvin h hsub =>
      ⟨fun hcoord => on_eq (f := (·.tsyncReq p fr)) hvin ((tsyncReq_taken h hsub).trans (if_pos hcoord)),
        fun hno => on_eq (f := (·.tsyncReq p fr)) hvin ((tsyncReq_taken h hsub).trans (if_neg (by rw [hno]; nofun)))⟩,
    fun s p fr c hvin h hsub hno => on_eq (f := (·.tsyncResp p fr)) hvin (tsyncResp_other h hsub hno),
    fun s p fr b c th hvin h hsub hfollow hcoord hvalid hb hth => ?_,
    fun s hvin hidle hno => on_eq (f := Chip.resetAll) hvin (resetAll_refused hidle hno),
    fun s c t hvin hidle hcoord ht hc => on_eq (f := Chip.resetAll) hvin (resetAll_coordinator hidle hcoord ht hc),
    fun c t hno => schedReset_denied hno,
    fun c t hok => ⟨fun hclass => ?_, fun hclass => ?_, fun hclass => ?_, fun hpast hfar hlate => ?_⟩,
    fun s p fr c t hvin h hsub ht => ⟨fun hok => on_eq (f := (·.resetAtRx p fr)) hvin
      ((resetAtRx_taken h hsub ht).trans (if_neg (schedReset_status hok))), fun hno => ?_⟩⟩
  · have hran := tsyncResp_follower h hsub hfollow hcoord hvalid hb hth
    refine ⟨fun hfar => ⟨_, on_eq (f := (·.tsyncResp p fr)) hvin (hran.trans (if_pos hfar)), stepQueued_rest.1, ?_, ?_⟩,
      fun hnear => ⟨_, on_eq (f := (·.tsyncResp p fr)) hvin (hran.trans (if_neg (Nat.not_le.2 hnear))), slew_gangSlew.1,
        slewing_gangSlew, ?_⟩⟩
    · exact (getQ_of_regs stepQueued_rest.2.2 ..).trans getQ_thetaTaken
    · exact stepQueued_rest.2.1.trans (congrArg TimeSt.acc time_thetaTaken)
    · exact slew_gangSlew.2.trans (congrArg TimeSt.acc time_thetaTaken)
  · rw [schedReset_allowed hok, hclass]
  · rw [schedReset_allowed hok, hclass]
  · rw [schedReset_allowed hok, hclass]
    exact ⟨rfl, rfl⟩
  · rw [schedReset_allowed hok]
    split
    next hc => exact absurd hc hpast
    next hc => exact absurd hc hfar
    next hc => exact absurd hc hlate
    next => exact ⟨rfl, rfl, rfl⟩
  · have hran := (resetAtRx_taken h hsub ht).trans (if_pos (by rw [schedReset_denied hno]))
    rw [schedReset_denied hno] at hran
    exact on_eq (f := (·.resetAtRx p fr)) hvin hran

end Sys2Proof.Proofs
end

section
/-!
The management processor, sensors, the log and sleep: O57.
-/
namespace Sys2Proof.Proofs
open Sys2Proof Sys2Proof.Machine
set_option Elab.async false

section
variable {i j k n x b v : Nat}

/-! ### Single bits -/

theorem bitOf_eq : bitOf i x = (bitsOf i i x == 1) := by
  rw [bitOf, bitsOf, Nat.add_sub_cancel_left, pow_one]

theorem bitOf_setBit_same : bitOf k (setBitsOf k k x b) = (b % 2 == 1) := by
  rw [bitOf_eq, bitsOf_setBitsOf _ _ _ _ le_rfl, Nat.add_sub_cancel_left, pow_one]

theorem bitOf_setBit_other (h : i ≠ k) : bitOf i (setBitsOf k k x b) = bitOf i x := by
  rw [bitOf_eq, bitOf_eq]
  obtain h | h := Nat.lt_or_gt_of_ne h
  · rw [bitsOf_setBitsOf_below _ _ h le_rfl]
  · rw [bitsOf_setBitsOf_above _ _ h le_rfl]

theorem bitOf_mod (h : i < n) : bitOf i (x % 2 ^ n) = bitOf i x := by
  have hbit : ∀ y, bitOf i y = y.testBit i := fun y => by
    rw [Nat.testBit_eq_decide_div_mod_eq, bitOf]
    exact beq_eq_decide ..
  rw [hbit, hbit, Nat.testBit_mod_two_pow, decide_eq_true h, Bool.true_and]

end

section
variable {c d : Chip} {b : Bool} {j k n v : Nat}

/-! ### The management processor -/

theorem mpWake_stopped (h : c.getF F.MGT_MP_STATUS.STATE = 0) : c.mpWake = c.putF F.MGT_MP_STATUS.STATE 2 := by
  rw [Chip.mpWake]
  exact if_pos h

theorem mpWake_other (h : c.getF F.MGT_MP_STATUS.STATE ≠ 0) : c.mpWake = c := by
  rw [Chip.mpWake]
  exact if_neg h

theorem mpIdleStop_idle (h : c.getF F.MGT_MP_STATUS.STATE = 2) (hsleep : c.flag F.MGT_MP_CTRL.STAY_AWAKE = false)
    (hflash : c.mgt.flashWrite = none) : c.mpIdleStop = c.putF F.MGT_MP_STATUS.STATE 0 := by
  rw [Chip.mpIdleStop]
  exact if_pos ⟨h, hsleep, hflash⟩

theorem mpIdleStop_other (h : c.getF F.MGT_MP_STATUS.STATE ≠ 2 ∨ c.flag F.MGT_MP_CTRL.STAY_AWAKE = true) :
    c.mpIdleStop = c := by
  rw [Chip.mpIdleStop]
  refine if_neg fun hall => ?_
  obtain ⟨hst, hsleep, -⟩ := hall
  obtain h | h := h
  · exact h hst
  · rw [hsleep] at h
    cases h

theorem mpWatchdog_other (h : c.getF F.MGT_MP_STATUS.STATE ≠ 2) : c.mpWatchdog = c := by
  rw [Chip.mpWatchdog]
  exact if_pos h

theorem mpWatchdog_running (h : c.getF F.MGT_MP_STATUS.STATE = 2) :
    c.mpWatchdog = ((c.log 18 2 0x000A 0 0).raise F.MGT_EVENTS.MP_FAIL).mpStart := by
  rw [Chip.mpWatchdog]
  exact if_neg (not_not_intro h)

theorem heartbeatLate_other (h : c.getF F.MGT_MP_STATUS.STATE ≠ 2) : c.heartbeatLate = c := by
  rw [Chip.heartbeatLate]
  exact if_pos h

/-- A fallback that fails as well. -/
theorem heartbeatLate_fallback (h : c.getF F.MGT_MP_STATUS.STATE = 2) (hfall : c.flag F.MGT_MP_STATUS.FALLBACK = true) :
    c.heartbeatLate = c.fwNone := by
  rw [Chip.heartbeatLate]
  refine (if_neg (not_not_intro h)).trans (if_neg ?_)
  rw [hfall]
  nofun

theorem fwCheck_of_flash (h : d.flash = c.flash) (img : Bytes) : d.fwCheck img = c.fwCheck img := by
  rw [Chip.fwCheck, h, ← Chip.fwCheck]

theorem bootSlot_of_flash (h : d.flash = c.flash) (t : Nat) : d.bootSlot t = c.bootSlot t := by
  rw [Chip.bootSlot, slotOf_of_flash h, slotOf_of_flash h, ← Chip.bootSlot]

theorem bootOrder_of_flash (h : d.flash = c.flash) (t : Nat) : d.bootOrder t = c.bootOrder t := by
  unfold Chip.bootOrder
  rw [bootSlot_of_flash h]
  simp only [slotOf_of_flash h]

/-- The image that a start finds. -/
theorem mpStart_eq : c.mpStart = match (c.bootOrder 1).find? (fun b => c.fwCheck (c.slotOf 1 b).image == 0) with
    | some b => (c.putF F.MGT_MP_STATUS.FALLBACK 0).fwStart b (c.bootSlot 1 != some b)
    | none => (c.putF F.MGT_MP_STATUS.FALLBACK 0).fwNone := by
  have hflash := (within_putF c F.MGT_MP_STATUS.FALLBACK 0 0 0).flash_eq
  rw [Chip.mpStart]
  simp only [bootOrder_of_flash hflash, bootSlot_of_flash hflash, slotOf_of_flash hflash, fwCheck_of_flash hflash] <;> rfl

theorem mpStart_none (ha : (c.slotOf 1 false).state = 0) (hb : (c.slotOf 1 true).state = 0) :
    c.mpStart = (c.putF F.MGT_MP_STATUS.FALLBACK 0).fwNone := by
  have hboot : c.bootSlot 1 = none := by
    rw [Chip.bootSlot, ha, hb]
    rfl
  rw [mpStart_eq, Chip.bootOrder, hboot]
  rfl

theorem mpStart_boot (hboot : c.bootSlot 1 = some b) (hgood : c.fwCheck (c.slotOf 1 b).image = 0) :
    c.mpStart = (c.putF F.MGT_MP_STATUS.FALLBACK 0).fwStart b false := by
  have hfirst : ∃ l, c.bootOrder 1 = b :: l := by
    rw [Chip.bootOrder, hboot]
    dsimp only
    split
    · exact ⟨_, rfl⟩
    · exact ⟨_, rfl⟩
  obtain ⟨l, horder⟩ := hfirst
  rw [mpStart_eq, horder, List.find?_cons_of_pos (by rw [hgood]; rfl)]
  dsimp only
  rw [hboot, bne_self_eq_false]

/-! ### Sensors and the log -/

theorem addr_snsVal : F.MGT_SNS_VAL.VALUE.addr n = 0x31000 + n * 0x10 + 0 * 0 := rfl

theorem rd_sensorRange : (c.sensorRange n v).rd (F.MGT_SNS_VAL.VALUE.addr n) = c.rd (F.MGT_SNS_VAL.VALUE.addr n) := by
  have hhi : F.MGT_SNS_VAL.VALUE.addr n ≠ F.MGT_SNS_RANGE.HI.addr n := addr_of_base (by rfl) (by decide)
  have hlo : F.MGT_SNS_VAL.VALUE.addr n ≠ F.MGT_SNS_RANGE.LO.addr n := addr_of_base (by rfl) (by decide)
  unfold Chip.sensorRange
  rw [Chip.rd_putF_ne hlo, Chip.rd_putF_ne hhi]
  rfl

theorem rd_sensorLog {source severity code inst data : Nat} {f : Fld} (hn : n < 60) (hf : f.addr 0 < 0x31000) :
    ((c.raise f).log source severity code inst data).rd (F.MGT_SNS_VAL.VALUE.addr n) =
      c.rd (F.MGT_SNS_VAL.VALUE.addr n) := by
  have haddr := addr_snsVal (n := n)
  rw [rd_log (hk := by omega) (hpba := .inl (by omega))]
  exact Chip.rd_raise (by omega) (offPba.not_isPba (.inl (by omega)))

theorem rd_threshold {hi : Bool} (hn : n < 60) :
    (c.threshold n v hi).rd (F.MGT_SNS_VAL.VALUE.addr n) = c.rd (F.MGT_SNS_VAL.VALUE.addr n) := by
  have hhi : F.MGT_SNS_VAL.VALUE.addr n ≠ F.MGT_SNS_STAT.HI_SEEN.addr n := addr_of_base (by rfl) (by decide)
  have hlo : F.MGT_SNS_VAL.VALUE.addr n ≠ F.MGT_SNS_STAT.LO_SEEN.addr n := addr_of_base (by rfl) (by decide)
  unfold Chip.threshold
  extract_lets lim past fired on set e
  have hset : ∀ a, (set a c).rd (F.MGT_SNS_VAL.VALUE.addr n) = c.rd (F.MGT_SNS_VAL.VALUE.addr n) := fun a => by
    unfold set
    cases hi <;> rfl
  have he : e.rd (F.MGT_SNS_VAL.VALUE.addr n) = c.rd (F.MGT_SNS_VAL.VALUE.addr n) := by
    unfold e
    cases hi with
    | true => exact (Chip.rd_putF_ne hhi).trans (hset true)
    | false => exact (Chip.rd_putF_ne hlo).trans (hset true)
  refine ite_view (·.rd (F.MGT_SNS_VAL.VALUE.addr n)) (hset false) (ite_view (·.rd (F.MGT_SNS_VAL.VALUE.addr n)) rfl ?_)
  refine (rd_sensorLog hn ?_).trans he
  cases hi <;> decide

/-- The value of a sample is shown. -/
theorem getF_sensorOne (hn : n < 60) (hv : v < 65536) : (c.sensorOne n v).getF F.MGT_SNS_VAL.VALUE n = v := by
  unfold Chip.sensorOne
  extract_lets c1 c2
  have hc1 : c1.getF F.MGT_SNS_VAL.VALUE n = v := (Chip.getF_putF (by decide) ..).trans (Nat.mod_eq_of_lt hv)
  have hc2 : c2.getF F.MGT_SNS_VAL.VALUE n = v :=
    (getF_of_rd ((rd_threshold hn).trans ((rd_threshold hn).trans rd_sensorRange))).trans hc1
  split
  · exact (getF_of_rd (rd_sensorLog hn (by decide))).trans hc2
  · exact hc2

theorem sensorSample_eq {vals : List (BitVec 16)} {v : Nat → Nat} (hv : v = fun n => (vals.getD n 0).toNat)
    (hd : d = (List.range 60).foldl (fun c n => c.sensorOne n (v n)) c) : c.sensorSample vals =
      if d.polInForce then d.trips ((List.range 31).foldl (fun m n => max m (signedOf 16 (v (n + 1)))) (signedOf 16 (v 0)))
        (v 57) else d := by
  subst hv hd
  rw [Chip.sensorSample]

theorem logCopy_empty (h : c.mgt.logBuf = []) : c.logCopy = c := by
  rw [Chip.logCopy, h]

/-- The oldest buffered entry moves to a log that has room. -/
theorem logCopy_entry {e : LogEntry} {r : List LogEntry} (h : c.mgt.logBuf = e :: r) (hroom : c.mgt.logFlash.length < 2097152) :
    c.logCopy = ({ c with mgt := { c.mgt with logBuf := r, logFlash := c.mgt.logFlash ++ [e] } } : Chip).putF
      F.MGT_LOG_STATUS.BUFFERED r.length := by
  rw [Chip.logCopy, h]
  dsimp only
  rw [if_neg (by rw [List.length_append, List.length_singleton]; omega)]

/-! ### Sleep -/

theorem slicePark_not (h : c.parked k = true ∨ c.parkOk k = false) : c.slicePark k = c := by
  rw [Chip.slicePark]
  obtain h | h := h
  · exact if_pos (by rw [h]; rfl)
  · exact if_pos (by rw [h]; exact Bool.or_true _)

theorem slicePark_parks (h : c.parked k = false) (hok : c.parkOk k = true) : c.slicePark k =
    (c.putF F.MGT_PARK_STATUS.PARKED (setBitsOf k k (c.getF F.MGT_PARK_STATUS.PARKED) 1)).bump F.MGT_CNT_PARK.V := by
  rw [Chip.slicePark]
  exact if_neg (by rw [h, hok]; nofun)

/-- Bit `j` of PARKED after bit `k` is written. -/
theorem parked_putF (hj : j < 16) : (c.putF F.MGT_PARK_STATUS.PARKED (setBitsOf k k (c.getF F.MGT_PARK_STATUS.PARKED) v)).parked j =
    if j = k then v % 2 == 1 else c.parked j := by
  have hbit : bitOf j (setBitsOf k k (c.getF F.MGT_PARK_STATUS.PARKED) v % 2 ^ F.MGT_PARK_STATUS.PARKED.width) =
      bitOf j (setBitsOf k k (c.getF F.MGT_PARK_STATUS.PARKED) v) := bitOf_mod hj
  rw [Chip.parked, Chip.getF_putF (by decide), hbit]
  split
  next h => rw [h, bitOf_setBit_same]
  next h => rw [bitOf_setBit_other h, Chip.parked]

theorem parked_of_getF (h : d.getF F.MGT_PARK_STATUS.PARKED = c.getF F.MGT_PARK_STATUS.PARKED) : d.parked j = c.parked j := by
  rw [Chip.parked, h, ← Chip.parked]

theorem parked_bump : (c.bump F.MGT_CNT_PARK.V).parked j = c.parked j :=
  parked_of_getF (getF_bump_apart (by decide) (.inl (by decide)))

/-- No slice waits to be woken as slice `k`. -/
def wakeEnded (c : Chip) (k : Nat) : Chip := { c with mgt := { c.mgt with parkWait := c.mgt.parkWait.filter (· ≠ k) } }

theorem sliceActive_eq : c.sliceActive k =
    (wakeEnded c k).putF F.MGT_PARK_STATUS.PARKED (setBitsOf k k ((wakeEnded c k).getF F.MGT_PARK_STATUS.PARKED) 0) := by
  rw [Chip.sliceActive, ← wakeEnded]

theorem parked_wakeEnded : (wakeEnded c k).parked j = c.parked j := parked_of_getF (getF_of_regs rfl ..)

theorem parkWait_sliceActive : k ∉ (c.sliceActive k).mgt.parkWait := by
  rw [sliceActive_eq, (within_putF ..).mgt_eq]
  intro h
  simpa using (List.mem_filter.1 (h : k ∈ c.mgt.parkWait.filter (· ≠ k))).2

theorem bankGate_not (h : c.flag F.MGT_PARK_CTRL.NO_BANK_GATE = true ∨ c.bankIdle k = false) : c.bankGate k = c := by
  rw [Chip.bankGate]
  obtain h | h := h
  · exact if_pos (by rw [h]; rfl)
  · exact if_pos (by rw [h]; exact Bool.or_true _)

theorem bankGate_idle (hgate : c.flag F.MGT_PARK_CTRL.NO_BANK_GATE = false) (hidle : c.bankIdle k = true) : c.bankGate k =
    (c.putF F.MGT_PARK_STATUS.GATED (setBitsOf k k (c.getF F.MGT_PARK_STATUS.GATED) 1)).bankCond k false := by
  rw [Chip.bankGate]
  exact if_neg (by rw [hgate, hidle]; nofun)

theorem bankAwake_already (h : bitOf k (c.getF F.MGT_PARK_STATUS.GATED) = false) : c.bankAwake k = c := by
  rw [Chip.bankAwake]
  exact if_pos (by rw [h]; rfl)

/-- No bank waits to be woken as bank `k`. -/
def gateWoken (c : Chip) (k : Nat) : Chip := { c with mgt := { c.mgt with bankWake := c.mgt.bankWake.filter (· ≠ k) } }

theorem regs_gateWoken : (gateWoken c k).regs = c.regs := rfl

theorem bankAwake_gated (h : bitOf k (c.getF F.MGT_PARK_STATUS.GATED) = true) : c.bankAwake k =
    ((gateWoken c k).putF F.MGT_PARK_STATUS.GATED (setBitsOf k k (c.getF F.MGT_PARK_STATUS.GATED) 0)).bankCond k true := by
  rw [Chip.bankAwake, if_neg (by rw [h]; nofun), ← gateWoken]
  dsimp only
  rw [getF_of_regs regs_gateWoken]

end

/-- Settles O57: the management processor, the sensors, the log's copy, parking and gating. -/
theorem managementWatchesAndSaves : Obligations.ManagementWatchesAndSaves := by
  unfold Obligations.ManagementWatchesAndSaves
  refine ⟨fun s hvin => ⟨fun h => ?_, fun h => on_self (f := Chip.mpWake) (mpWake_other h)⟩,
    fun s hvin => ⟨fun h hsleep hflash => ?_, fun h => on_self (f := Chip.mpIdleStop) (mpIdleStop_other (.inl h)),
      fun h => on_self (f := Chip.mpIdleStop) (mpIdleStop_other (.inr h))⟩,
    fun s hvin => ⟨fun h => ⟨on_self (f := Chip.mpWatchdog) (mpWatchdog_other h),
      on_self (f := Chip.heartbeatLate) (heartbeatLate_other h)⟩,
      fun h => on_eq (f := Chip.mpWatchdog) hvin (mpWatchdog_running h)⟩,
    fun s hvin h hfall => on_eq (f := Chip.heartbeatLate) hvin (heartbeatLate_fallback h hfall),
    fun s hvin ha hb => on_eq (f := Chip.mpStart) hvin (mpStart_none ha hb),
    fun s b hvin hboot hgood => on_eq (f := Chip.mpStart) hvin (mpStart_boot hboot hgood),
    fun s vals v c hvin hv hc => ⟨fun hoff => ?_, fun hon => ?_⟩,
    fun c n v hn hv => getF_sensorOne hn hv, fun s hno => ?_, fun s e r haon hbuf hroom => ?_,
    fun s k hvin => ⟨fun h => on_self (f := (·.slicePark k)) (slicePark_not (.inl h)),
      fun h => on_self (f := (·.slicePark k)) (slicePark_not (.inr h)), fun h hok => ?_⟩,
    fun s k hvin => ?_,
    fun s k hvin => ⟨fun h => on_self (f := (·.bankGate k)) (bankGate_not (.inl h)),
      fun h => on_self (f := (·.bankGate k)) (bankGate_not (.inr h)),
      fun hgate hidle => on_eq (f := (·.bankGate k)) hvin (bankGate_idle hgate hidle),
      fun h => on_self (f := (·.bankAwake k)) (bankAwake_already h),
      fun h => on_eq (f := (·.bankAwake k)) hvin (bankAwake_gated h)⟩⟩
  · exact ⟨_, on_eq (f := Chip.mpWake) hvin (mpWake_stopped h), Chip.getF_putF (by decide) .., (within_putF ..).mgt_eq, rfl⟩
  · exact ⟨_, on_eq (f := Chip.mpIdleStop) hvin (mpIdleStop_idle h hsleep hflash), Chip.getF_putF (by decide) ..,
      (within_putF ..).mgt_eq⟩
  · exact on_eq (f := (·.sensorSample vals)) hvin ((sensorSample_eq hv hc).trans (if_neg (by rw [hoff]; nofun)))
  · exact on_eq (f := (·.sensorSample vals)) hvin ((sensorSample_eq hv hc).trans (if_pos hon))
  · refine onAny_of (f := fun c => if c.power.aon then c.logCopy else c) ?_
    obtain h | h := hno
    · exact if_neg (by rw [h]; nofun)
    · rw [logCopy_empty h, ite_self]
  · refine ⟨_, onAny_of (f := fun c => if c.power.aon then c.logCopy else c) ((if_pos haon).trans (logCopy_entry hbuf hroom)),
      ?_, ?_, Chip.getF_putF (by decide) ..⟩
    · exact congrArg MgtSt.logBuf (within_putF ..).mgt_eq
    · exact congrArg MgtSt.logFlash (within_putF ..).mgt_eq
  · refine ⟨_, on_eq (f := (·.slicePark k)) hvin (slicePark_parks h hok), ?_, fun j hj hne => ?_, ?_, ?_⟩
    · exact parked_bump.trans ((parked_putF k.isLt).trans (if_pos rfl))
    · exact parked_bump.trans ((parked_putF hj).trans (if_neg hne))
    · exact (within_bump ..).pkts_eq.trans (within_putF ..).pkts_eq
    · exact (within_bump ..).lanes_eq.trans (within_putF ..).lanes_eq
  · refine ⟨_, State.on_vin hvin (·.sliceActive k), ?_, parkWait_sliceActive, fun j hj hne => ?_⟩
    · dsimp only
      rw [sliceActive_eq, parked_putF k.isLt]
      exact if_pos rfl
    · dsimp only
      rw [sliceActive_eq, parked_putF hj, if_neg hne]
      exact parked_wakeEnded

end Sys2Proof.Proofs
end

section
/-!
The mailbox: O58.
-/
namespace Sys2Proof.Proofs
open Sys2Proof Sys2Proof.Machine
set_option Elab.async false

section
variable {c d : Chip} {op p : Nat} {a : List Nat} {r : MbxAns} {src pl : Bytes}

/-! ### The host's commands -/

theorem mbxCmd_running (hrun : c.flag F.MGT_MBX_STATUS.RUNNING = true) : c.mbxCmd op = c.putF F.MGT_MBX_STATUS.OVERRUN 1 := by
  rw [Chip.mbxCmd, Chip.command]
  exact if_pos hrun

section
variable (hidle : c.flag F.MGT_MBX_STATUS.RUNNING = false) (ha : a = (List.range 4).map (fun k => c.getF F.MGT_MBX_ARG.V k))
include hidle ha

theorem mbxCmd_answered (hans : c.mpWake.mailbox none op a = (some r, d)) : c.mbxCmd op = d.mbxDone r := by
  subst ha
  rw [Chip.mbxCmd, command_of_idle (p := portMbx) hidle, hans]

theorem mbxCmd_taken (hans : c.mpWake.mailbox none op a = (none, d)) : c.mbxCmd op = d.putF F.MGT_MBX_STATUS.RUNNING 1 := by
  subst ha
  rw [Chip.mbxCmd, command_of_idle (p := portMbx) hidle, hans]

end

/-! ### The mailbox -/

theorem mailbox_invalid {o : Option (Nat × Nat)} (hbad : c.mbxInvalid op (fun k => a.getD k 0) ≠ 0) :
    c.mailbox o op a = (some ⟨stInvalid, c.mbxInvalid op (fun k => a.getD k 0), a, []⟩, c) := by
  unfold Chip.mailbox
  exact if_pos hbad

section
variable (hgood : c.mbxInvalid op (fun k => a.getD k 0) = 0)
include hgood

theorem mailbox_denied (hpol : c.polBit 0x24A op = false) :
    c.mailbox none op a = (some ⟨stDenied, 8, a, []⟩, c.deniedCapture 3 F.MGT_MBX_CMD.all.base 0) := by
  unfold Chip.mailbox
  refine (if_neg (not_not_intro hgood)).trans (if_pos ?_)
  change (!c.polBit 0x24A op) = true
  rw [hpol]
  rfl

theorem mailbox_portDenied {x : Nat × Nat} (hpol : c.polBit 0x24C op = false) :
    c.mailbox (some x) op a = (some ⟨stDenied, 8, a, []⟩, c.deniedCapture 4 F.MGT_MBX_CMD.all.base 0) := by
  unfold Chip.mailbox
  refine (if_neg (not_not_intro hgood)).trans (if_pos ?_)
  change (!c.polBit 0x24C op) = true
  rw [hpol]
  rfl

theorem mailbox_busy (hpol : c.polBit 0x24A op = true) (hbusy : c.mgt.flashWrite ≠ none) :
    c.mailbox none op a = (some ⟨stBusy, 0x0B, a, []⟩, c) := by
  unfold Chip.mailbox
  refine (if_neg (not_not_intro hgood)).trans ((if_neg ?_).trans (if_pos (Option.isSome_iff_ne_none.2 hbusy)))
  change ¬(!c.polBit 0x24A op) = true
  rw [hpol]
  nofun

end

/-- What each command of the host does once it is not refused. -/
def mailServed (c : Chip) (op : Nat) (a : List Nat) : Option MbxAns × Chip :=
  match op with
  | 1 => (some ⟨stOk, 0, a, c.infoData⟩, c)
  | 2 => (some ⟨stOk, 0, a, c.sensorData⟩, c)
  | 3 => (some ⟨stOk, 0, [a.getD 0 0, a.getD 1 0, (c.logFrom (a.getD 0 0 + 2 ^ 32 * a.getD 1 0)).length, a.getD 3 0],
      (c.logFrom (a.getD 0 0 + 2 ^ 32 * a.getD 1 0)).flatMap LogEntry.bytes⟩, c)
  | 4 => (some ⟨stOk, 0, a, []⟩, c.log 16 0 (a.getD 0 0 % 65536) 0 (a.getD 1 0 + 2 ^ 32 * a.getD 2 0))
  | 5 => (none, { c with mgt := { c.mgt with flashWrite := some ⟨a.getD 0 0, b2n (c.writeSlotFor (a.getD 0 0)),
      c.dramRead (stageBase + a.getD 1 0) (a.getD 2 0), none⟩ } })
  | 6 => (some ⟨stOk, 0, a, []⟩, (c.selectSlot (a.getD 0 0) (a.getD 1 0 == 1)).log 14 0 0x000D 0 0)
  | _ => (some ⟨stOk, 0, a, []⟩, (c.raiseFloor (a.getD 0 0) (c.runSerial (a.getD 0 0))).log 14 0 0x000E 0
      (c.runSerial (a.getD 0 0)))

theorem mailbox_served (hgood : c.mbxInvalid op (fun k => a.getD k 0) = 0) (hpol : c.polBit 0x24A op = true)
    (hfree : c.mgt.flashWrite = none) : c.mailbox none op a = mailServed c op a := by
  unfold Chip.mailbox
  refine (if_neg (not_not_intro hgood)).trans ((if_neg ?_).trans (if_neg ?_))
  · change ¬(!c.polBit 0x24A op) = true
    rw [hpol]
    nofun
  · rw [hfree]
    nofun

/-! ### UPDATE_WRITE -/

/-- The device that begins to write an image to the flash. -/
def imageTaken (c : Chip) (a : List Nat) (img : Bytes) : Chip :=
  { c.mpWake with mgt := { c.mpWake.mgt with flashWrite := some ⟨a.getD 0 0, b2n (c.mpWake.writeSlotFor (a.getD 0 0)), img, none⟩ } }

theorem updateWrite_taken {img : Bytes} (hgood : c.mpWake.mbxInvalid 5 (fun k => a.getD k 0) = 0)
    (hpol : c.mpWake.polBit 0x24A 5 = true) (hfree : c.mgt.flashWrite = none)
    (himg : img = c.dramRead (stageBase + a.getD 1 0) (a.getD 2 0)) :
    c.mpWake.mailbox none 5 a = (none, imageTaken c a img) := by
  have hwake := within_mpWake c
  have hread : img = c.mpWake.dramRead (stageBase + a.getD 1 0) (a.getD 2 0) := by
    rw [himg, Chip.dramRead, Chip.dramRead, hwake.dram_eq]
  rw [mailbox_served hgood hpol (by rw [hwake.mgt_eq, hfree]), imageTaken, hread]
  rfl

theorem imageTaken_rest {img : Bytes} : (imageTaken c a img).mgt.flashWrite =
    some ⟨a.getD 0 0, b2n (c.mpWake.writeSlotFor (a.getD 0 0)), img, none⟩ ∧ (imageTaken c a img).flash = c.flash :=
  ⟨rfl, (within_mpWake c).flash_eq⟩

/-! ### Management ports -/

theorem oobDatagram_closed (h : bitOf 3 (byteAt c.mgt.mpConf p) = false) : c.oobDatagram p src pl = c := by
  rw [Chip.oobDatagram]
  exact if_pos (.inr h)

section
variable (hconf : leAt c.mgt.mpConf 2 2 ≠ 0) (hopen : bitOf 3 (byteAt c.mgt.mpConf p) = true)
include hconf hopen

theorem oobDatagram_open : ¬(leAt c.mgt.mpConf 2 2 = 0 ∨ bitOf 3 (byteAt c.mgt.mpConf p) = false) := by
  rw [hopen]
  exact fun h => h.elim hconf nofun

theorem oobDatagram_dropped (hno : (List.range 4).any (c.oobAllows src) = false) :
    c.oobDatagram p src pl = c.bump F.MGT_CNT_OOB_DROP.V := by
  rw [Chip.oobDatagram, if_neg (oobDatagram_open hconf hopen)]
  exact if_pos (by rw [hno]; rfl)

theorem oobDatagram_answered (hyes : (List.range 4).any (c.oobAllows src) = true) (hmin : 24 ≤ pl.length)
    (hmax : pl.length ≤ 280) (hver : byteAt pl 1 = 0) (hres : leAt pl 4 4 = 0)
    (hans : c.mpWake.mailbox (some (p, beAt pl 2 2)) (byteAt pl 0) ((List.range 4).map (fun k => beAt pl (8 + 4 * k) 4)) =
      (some r, d)) : c.oobDatagram p src pl = d.oobSend p (byteAt pl 0) (beAt pl 2 2) r := by
  have hgood : (!(List.range 4).any (c.oobAllows src) || decide (pl.length < 24) || decide (280 < pl.length) ||
      byteAt pl 1 != 0 || leAt pl 4 4 != 0) = false := by
    rw [hyes, hver, hres, decide_eq_false (by omega), decide_eq_false (by omega)]
    rfl
  rw [Chip.oobDatagram, if_neg (oobDatagram_open hconf hopen), hgood, if_neg nofun]
  dsimp only
  rw [hans]

end

end

/-- Settles O58: the mailbox's refusals in order, the effect of each command, and the datagrams of a management port. -/
theorem mailboxCommandsAnswerInOrder : Obligations.MailboxCommandsAnswerInOrder := by
  unfold Obligations.MailboxCommandsAnswerInOrder
  refine ⟨fun s t hvin hrun ht => ?_, fun s a r c hvin hidle ha => ?_, fun s a img hvin hidle ha hgood hpol hfree himg => ?_,
    fun c o op a hbad => mailbox_invalid hbad,
    fun c op a hgood => ⟨mailbox_denied hgood, fun x => mailbox_portDenied hgood, mailbox_busy hgood⟩,
    fun c a hfree => ⟨fun hgood hpol => (mailbox_served hgood hpol hfree).trans rfl,
      fun hgood hpol => (mailbox_served hgood hpol hfree).trans rfl,
      fun hgood hpol es hes => ?_, fun hgood hpol => (mailbox_served hgood hpol hfree).trans rfl,
      fun hgood hpol => (mailbox_served hgood hpol hfree).trans rfl,
      fun hgood hpol => (mailbox_served hgood hpol hfree).trans rfl⟩,
    fun s p src pl _ hclosed => on_self (f := (·.oobDatagram p src pl)) (oobDatagram_closed hclosed),
    fun s p src pl hvin hconf hopen hno => on_eq (f := (·.oobDatagram p src pl)) hvin (oobDatagram_dropped hconf hopen hno),
    fun s p src pl r c hvin hconf hopen hyes hmin hmax hver hres hans => on_eq (f := (·.oobDatagram p src pl)) hvin
      (oobDatagram_answered hconf hopen hyes hmin hmax hver hres hans)⟩
  · subst ht
    have hran : ∀ op, s.on (·.mbxCmd op) = .next ⟨s.chip.putF F.MGT_MBX_STATUS.OVERRUN 1, s.pending⟩ := fun op =>
      on_eq (f := (·.mbxCmd op)) hvin (mbxCmd_running hrun)
    exact ⟨hran 1, hran 2, hran 3, hran 4, hran 5, hran 6, hran 7⟩
  · have hran : ∀ op, s.chip.mpWake.mailbox none op a = (some r, c) → s.on (·.mbxCmd op) = .next ⟨c.mbxDone r, s.pending⟩ :=
      fun op hans => on_eq (f := (·.mbxCmd op)) hvin (mbxCmd_answered hidle ha hans)
    exact ⟨hran 1, hran 2, hran 3, hran 4, hran 5, hran 6, hran 7⟩
  · have hput := within_putF (imageTaken s.chip a img) F.MGT_MBX_STATUS.RUNNING 1 0 0
    refine ⟨_, on_eq (f := (·.mbxCmd 5)) hvin (mbxCmd_taken hidle ha (updateWrite_taken hgood hpol hfree himg)),
      Chip.flag_putF (by decide) .., ?_, hput.flash_eq.trans imageTaken_rest.2⟩
    exact (congrArg MgtSt.flashWrite hput.mgt_eq).trans imageTaken_rest.1
  · subst hes
    exact (mailbox_served hgood hpol hfree).trans rfl

end Sys2Proof.Proofs
end

section
/-!
Recoveries: O59. A recovery starts, waits, runs, ends, and stops at a second fault.
-/
namespace Sys2Proof.Proofs
open Sys2Proof Sys2Proof.Machine
set_option Elab.async false

section
variable {c d : Chip} {k i x : Nat} {l : List Nat} {r : RecDom}

/-! ### The domains in recovery -/

theorem recOf_setRec : (c.setRec r).recOf r.kind r.inst = some r := by
  have hnone : (c.recov.filter (fun y => !(y.kind == r.kind && y.inst == r.inst))).find?
      (fun y => y.kind == r.kind && y.inst == r.inst) = none :=
    List.find?_eq_none.2 fun y hy => by
      have hkeep := (List.mem_filter.1 hy).2
      rw [Bool.not_eq_true'] at hkeep
      rw [hkeep]
      nofun
  rw [Chip.recOf, Chip.setRec, List.find?_append, hnone, Option.none_or, List.find?_cons_of_pos]
  rw [beq_self_eq_true, beq_self_eq_true]
  rfl

theorem recOf_of_recov (h : d.recov = c.recov) : d.recOf k i = c.recOf k i := by
  rw [Chip.recOf, h, ← Chip.recOf]

theorem recov_recStop : (c.recStop r x).recov = (c.setRec { r with state := 3 }).recov := by
  unfold Chip.recStop
  extract_lets y e
  have he : e.recov = (c.setRec y).recov := (within_recBit ..).recov_eq.trans (within_recBit ..).recov_eq
  clear_value e
  exact (within_recShow ..).recov_eq.trans ((within_recContain ..).recov_eq.trans ((within_log ..).recov_eq.trans he))

/-- A domain held stopped. -/
theorem recOf_recStop : (c.recStop r x).recOf r.kind r.inst = some { r with state := 3 } := by
  rw [recOf_of_recov recov_recStop]
  exact recOf_setRec (r := { r with state := 3 })

/-! ### Faults -/

theorem recoveryStart_foreign (h : causeKind x ≠ some k ∨ kindCount k ≤ i) : c.recoveryStart k i x l = c := by
  rw [Chip.recoveryStart]
  exact if_pos (h.elim .inl fun h => .inr (.inl h))

section
variable (hkind : causeKind x = some k) (hin : i < kindCount k) (hchip : x = 0x14 → i = 0) (hch : k ≠ 5)
include hkind hin hchip hch

/-- The fault is one that its domain recovers from. -/
theorem recoveryStart_admitted :
    ¬(causeKind x ≠ some k ∨ kindCount k ≤ i ∨ (x = 0x14 ∧ i ≠ 0) ∨ (k = 5 ∧ c.chState i ≠ 2)) := by
  rintro (h | h | h | h)
  · exact h hkind
  · omega
  · exact h.2 (hchip h.1)
  · exact hch h.1

theorem recoveryStart_again (hrec : c.recOf k i = some r) : c.recoveryStart k i x l =
    if r.state = 3 then (c.recLast k i x true).log 0 3 0x0202 i (x + 256 * k) else (c.recLast k i x true).recStop r x := by
  unfold Chip.recoveryStart
  refine (if_neg (recoveryStart_admitted hkind hin hchip hch)).trans ?_
  rw [hrec]

theorem recoveryStart_first (hx : x ≠ 0x14) (hrec : c.recOf k i = none) (hr : r = ⟨k, i, x, 2, c.mt, l⟩)
    (hd : d = (((((c.raiseGlb F.GLB_STATUS.FAULT_PENDING).recLast k i x false).log 0 2 0x0200 i (x + 256 * k)).recBit
      F.GLB_REC_ACTIVE.V k i true).recGaps r).bathsEnded k i) : c.recoveryStart k i x l =
      if (d.bathsOf k i 3 ++ d.bathsOf k i 4).isEmpty then d.recProceed r
      else ((d.setRec { r with state := 0 }).recContain { r with state := 0 }).recShow := by
  rw [Chip.recoveryStart, if_neg (recoveryStart_admitted hkind hin hchip hch), hrec]
  dsimp only
  rw [if_neg hx, ← hr, ← hd]
  subst hr
  rfl

theorem recoveryStart_chip (hx : x = 0x14) (hrec : c.recOf k i = none) : c.recoveryStart k i x l =
    (((((c.raiseGlb F.GLB_STATUS.FAULT_PENDING).recLast k i x false).log 0 2 0x0200 i (x + 256 * k)).chipFault l).recLogEnd i
      0).recShow := by
  rw [Chip.recoveryStart, if_neg (recoveryStart_admitted hkind hin hchip hch), hrec]
  dsimp only
  rw [if_pos hx]

end

theorem chipFault_time (h : l.headD 0 = 0) : c.chipFault l = c.invalidateTime := by
  unfold Chip.chipFault
  rw [h]
  rfl

/-! ### Running -/

theorem recProceed_runs (h : bitOf r.kind (c.getF F.GLB_REC_CTRL.MANUAL) = false) : c.recProceed r =
    ((c.setRec { r with state := 2, start := c.mt }).recShow).recSteps { r with state := 2, start := c.mt } := by
  rw [Chip.recProceed, if_neg (by rw [h]; nofun), Chip.recRun]

theorem recProceed_manual (h : bitOf r.kind (c.getF F.GLB_REC_CTRL.MANUAL) = true) : c.recProceed r =
    (((c.setRec { r with state := 1 }).log 0 1 0x0203 r.inst (256 * r.kind)).recContain { r with state := 1 }).recShow := by
  rw [Chip.recProceed, if_pos h]

theorem recoveryGo_none (h : c.recOf k i = none) : c.recoveryGo k i = c := by
  rw [Chip.recoveryGo, h]

theorem recoveryGo_rec (h : c.recOf k i = some r) : c.recoveryGo k i = if r.state = 1 then c.recRun r else c := by
  rw [Chip.recoveryGo, h]

theorem recoveryLate_none (h : c.recOf k i = none) : c.recoveryLate k i = c := by
  rw [Chip.recoveryLate, h]

theorem recoveryLate_rec (h : c.recOf k i = some r) : c.recoveryLate k i =
    if r.state = 2 then (c.recLast k i r.cause true).recStop r r.cause else c := by
  rw [Chip.recoveryLate, h]

theorem recoveryEnd_none {ok : Bool} (h : c.recOf k i = none) : c.recoveryEnd k i ok = c := by
  rw [Chip.recoveryEnd, h]

theorem recoveryEnd_rec {ok : Bool} (h : c.recOf k i = some r) : c.recoveryEnd k i ok =
    if r.state ≠ 2 then c
    else if k = 5 ∧ !ok then ((c.releaseCh i false).recLast k i r.cause true).recStop r r.cause
    else c.recFinish r := by
  rw [Chip.recoveryEnd, h]

theorem recFinish_eq : c.recFinish r = ((((c.rmRec r).recBit F.GLB_REC_ACTIVE.V r.kind r.inst false).recRestore r).recLogEnd
    r.inst (((c.rmRec r).recBit F.GLB_REC_ACTIVE.V r.kind r.inst false).mt - r.start)).recShow := by
  rw [Chip.recFinish]

end

/-- Settles O59: the start, the wait, the run, the end and the stop of a recovery. -/
theorem recoveriesStartRunAndEnd : Obligations.RecoveriesStartRunAndEnd := by
  unfold Obligations.RecoveriesStartRunAndEnd
  refine ⟨fun s k i x d _ h => on_self (f := (·.recoveryStart k i x d)) (recoveryStart_foreign h),
    fun s k i x d r c hvin hkind hin hx hk hrec hr hc => ?_, fun s k i x d r hvin hkind hin hx hk hrec => ?_,
    fun c r x => recOf_recStop, fun c r h => recProceed_runs h, fun c r h => recProceed_manual h,
    fun s k i hvin => ⟨fun h => ⟨?_, ?_, ?_⟩, fun r h hst => ?_, fun r h hst => ?_, fun r h hst => ?_, fun r h hst => ⟨?_, ?_⟩,
      fun r h hst => ?_, fun r h hst hk => ?_⟩,
    fun s d hvin hrec hd => ?_⟩
  · have hx' : x.val ≠ 0x14 := fun h => hx (Fin.ext h)
    have hk' : k.val ≠ 5 := fun h => hk (Fin.ext h)
    have hran := recoveryStart_first hkind hin (fun h => absurd h hx') hk' hx' hrec hr hc
    exact ⟨fun hnone => on_eq (f := (·.recoveryStart k i x d)) hvin (hran.trans (if_pos (List.isEmpty_iff.2 hnone))),
      fun hsome => on_eq (f := (·.recoveryStart k i x d)) hvin (hran.trans (if_neg (mt List.isEmpty_iff.1 hsome)))⟩
  · have hx' : x.val ≠ 0x14 := fun h => hx (Fin.ext h)
    have hk' : k.val ≠ 5 := fun h => hk (Fin.ext h)
    have hran := recoveryStart_again (l := d) hkind hin (fun h => absurd h hx') hk' hrec
    exact ⟨fun hst => on_eq (f := (·.recoveryStart k i x d)) hvin (hran.trans (if_pos hst)),
      fun hst => on_eq (f := (·.recoveryStart k i x d)) hvin (hran.trans (if_neg hst))⟩
  · exact on_self (f := (·.recoveryGo k i)) (recoveryGo_none h)
  · exact on_self (f := (·.recoveryLate k i)) (recoveryLate_none h)
  · exact on_self (f := (·.recoveryEnd k i true)) (recoveryEnd_none h)
  · exact on_self (f := (·.recoveryGo k i)) ((recoveryGo_rec h).trans (if_neg hst))
  · exact on_eq (f := (·.recoveryGo k i)) hvin ((recoveryGo_rec h).trans (if_pos hst))
  · exact on_eq (f := (·.recoveryLate k i)) hvin ((recoveryLate_rec h).trans (if_pos hst))
  · exact on_self (f := (·.recoveryLate k i)) ((recoveryLate_rec h).trans (if_neg hst))
  · exact on_self (f := (·.recoveryEnd k i true)) ((recoveryEnd_rec h).trans (if_pos hst))
  · exact on_eq (f := (·.recoveryEnd k i true)) hvin ((recoveryEnd_rec h).trans ((if_neg (not_not_intro hst)).trans
      ((if_neg fun h => absurd h.2 nofun).trans recFinish_eq)))
  · subst hk
    exact on_eq (f := (·.recoveryEnd 5 i false)) hvin ((recoveryEnd_rec h).trans ((if_neg (not_not_intro hst)).trans
      (if_pos ⟨rfl, rfl⟩)))
  · have hran := recoveryStart_chip (x := 0x14) (l := d) (by decide) (by decide) (fun _ => rfl) (by decide) rfl hrec
    rw [chipFault_time hd] at hran
    exact on_eq (f := (·.recoveryStart 2 0 0x14 d)) hvin hran

end Sys2Proof.Proofs
end
